-- ==== Sys2Proof/Word.lean ====
section
/-! DEFINITION. The word types: register words and bytes. The bit and byte helpers stand in Machine/Operands.lean. -/

namespace Sys2Proof

/-- A register word (R9). -/
abbrev Word := BitVec 32

/-- A byte of memory. -/
abbrev Byte := BitVec 8

end Sys2Proof
end

