-- ==== Sys2Proof/Syntax.lean ====
section
/-! DEFINITION. The commands of the T8: one constructor of Instr per row of the spec's table of operations and events,
with the operand types they use. A command is what the outside world does to the block (a register write, a message, a
pin event) or a timed event of the block that the environment reports (log entries 2 and 3). -/

namespace Sys2Proof

/-- Who makes an access (R21, R445). -/
inductive Initiator where
  | core (c : Fin 4)
  | keeper (k : Fin 2)
  | debug
  | infuser
  | security
  | session
  | hint
  | telemetry
deriving DecidableEq, Repr

/-- What the FEC of a NET port has met since the frame before (R362): codewords that it corrected, and that it could not. -/
structure FecCount where
  corrected : BitVec 16 := 0
  uncorrectable : BitVec 16 := 0
deriving DecidableEq, Repr

/-- What an atomic operation of a core does with the old value and its operand (R396, R397). -/
inductive Amo where
  | swap | add | xor | and | or | min | max | minu | maxu
deriving DecidableEq, Repr

/-- A register or memory access: a read or a write of `size` bytes at an address, or an atomic operation, which is a write; `uncorr` says that an LPDDR5X read meets an
error that link ECC or check bits cannot correct, and `corr` how many words they correct (R140, R219). -/
structure BusReq where
  write : Bool
  addr : Nat
  size : Nat
  data : Nat
  uncorr : Bool
  corr : Nat
  amo : Option Amo := none
deriving DecidableEq, Repr

/-- What check-bit errors a Bridge message met on its way (R31): beats corrected, and how often the message was rejected
with an uncorrectable beat before it got through. -/
structure Beats where
  corrected : Nat := 0
  rejected : Nat := 0
deriving DecidableEq, Repr

/-- How a two-wire controller transaction ends on the wire (R319, R320): the bytes received, the count byte of a block read
and the PEC byte among them, or what broke it off, with the bytes received before that. -/
inductive TwEnd where
  | completed (rx : List Byte)
  | addrNack
  | dataNack
  | arbLost (byte bit : Nat) (rx : List Byte := [])
  | busErr (rx : List Byte := [])
deriving DecidableEq, Repr

/-- What a tach input saw in the 10 ms before an update (R289): the interval in ns that each falling edge ended, in order,
and the time in ns since the last of them. -/
structure TachIn where
  edges : List Nat
  age : Nat
deriving DecidableEq, Repr

/-- The checks of the clock monitor (R74). -/
inductive ClkCheck where
  | h | i | c
deriving DecidableEq, Repr

/-- What check-bit errors the Infuser meets on its reads (R140): words corrected, and whether a word was uncorrectable. -/
structure Ecc where
  corrected : Nat := 0
  uncorr : Bool := false
deriving DecidableEq, Repr

/-- A record (R414, R415). `num` is its record number, which its ring slot stands for; the CRC is computed from the
rest. -/
structure Rec where
  num : Nat
  code : Nat
  src : Nat
  flags : Nat
  count : Nat
  ts : Nat
  parent : Nat
  payload : BitVec 320
deriving DecidableEq, Repr

/-- A floor's entry in a copy of the NVM journal: image type less 1, value, sequence number, and whether its MAC verifies under this
unit's floor key (R373). -/
structure FloorEntry where
  type : Fin 4
  value : BitVec 32
  seq : Nat
  mac : Bool
deriving DecidableEq, Repr

/-- A copy of the NVM journal (R118, R119, R374): the active bank, its next sequence number, its entries as (kind, key, length), the
entries in it that were cut off, what the committed entries hold, of Sillage records with the SIL_BOOT of their entry (R427), and the
newest entry of each floor. -/
structure Journal where
  bankNo : Fin 2
  seq : Nat
  bank : List (Nat × Nat × Nat)
  cut : List (Nat × Nat)
  kept : List (Nat × Rec)
  regs : List (Nat × Nat)
  blobs : List (Nat × Nat × List Byte)
  floors : List FloorEntry
deriving DecidableEq, Repr

/-- What a unit holds that was programmed from outside before power came on (R56, R59, R368, R369, R374, R388): the images in the flash,
by place, the register fields, the owner-key digests and the seed of the key derivation in OTP (R365), and the NVM journal where a copy of
the whole flash was written. -/
structure Placed where
  flash : List (Nat × List Byte)
  otp : List (Nat × Nat)
  digests : List (Nat × List Byte)
  journal : Option Journal
  seed : List Byte := []
deriving DecidableEq, Repr

/-- What a cold POR finds (R53, R97, R117, R244, R365, R378, R399): the THERM_CRIT strap, the TD inputs that are absent, whether the
marker cell on VIN_AO held its charge, the presence jumper, whether the PUF is reconstructed, the Accord slots whose flash
changes between the two passes, flash and OTP contents where they have been programmed from outside, VIN_AO in mV, and the AIN codes and
the levels at PWRGD0 to PWRGD63 that stand when the Accord is applied; and TEST_MODE, which holds the T8 in cold POR while it is high (R433). -/
structure BootIn where
  strap : Fin 8
  tdAbsent : Fin 16
  marker : Bool
  jumper : Bool
  puf : Bool
  mismatch : List (Fin 2)
  placed : Option Placed
  vin : Fin 4096
  ain : List (Fin 4096)
  pwrgd : BitVec 64
  testMode : Bool := false
deriving DecidableEq, Repr

/-- What a core's mcause, mepc and mtval hold (R407, R408). -/
structure Csrs where
  mcause : BitVec 64
  mepc : BitVec 64
  mtval : BitVec 64
deriving DecidableEq, Repr

/-- What a PWRGD input did on its way to a level (R262 to R264): for how many ns it has held the level, the transitions at the BASE clock
since the last command for the input, and how many ns ago the first of them was (with none: as `held`). -/
structure PgIn where
  transitions : Nat
  held : Nat
  since : Nat
deriving DecidableEq, Repr

/-- What a sample tick finds (R114, R228): the codes of AIN0 on, and that of VIN_AO. -/
structure SampleIn where
  codes : List (Fin 4096)
  vin : Fin 4096
deriving DecidableEq, Repr

/-- What a remote diode reads (R243, R244): a temperature in Q8.8 °C, or an open or shorted input. -/
inductive TdIn where
  | reads (temp : Fin 65536)
  | openTd
  | shortTd
deriving DecidableEq, Repr

/-- Where a datagram comes from and answers go (R339): the port it came in by (0, 1 NET0, NET1; 2 SVC), IPv6 or IPv4, MAC address, IP
address and UDP port, and the VID of the frames' 802.1Q tag, if they carry one (R337). -/
structure Peer where
  port : Fin 3
  v6 : Bool
  mac : BitVec 48
  ip : BitVec 128
  udp : BitVec 16
  vid : Option (BitVec 12) := none
deriving DecidableEq, Repr

/-- A complete TMP message, its fragments authenticated and decrypted (R340, R342). -/
structure TmpMsg where
  peer : Peer
  vmaj : Fin 256
  vmin : Fin 256
  sid : BitVec 32
  seq : BitVec 64
  payload : List Byte
deriving DecidableEq, Repr

/-- How a flash write ends (R386): verified, without room, or not verified. -/
inductive FlashEnd where
  | verified | noSpace | failed
deriving DecidableEq, Repr

/-- A core that the debug module reaches (R375). -/
inductive DbgCore where
  | control (c : Fin 4)
  | keeper (k : Fin 2)
deriving DecidableEq, Repr

/-- A frame that reaches a NET or SVC port outside TMP and image transfer (R337, R362, R381). -/
inductive ServiceFrame where
  /-- an ARP request or a neighbour solicitation for an address -/
  | resolve (v6 : Bool) (ip : BitVec 128)
  /-- an ICMP or ICMPv6 echo request to an address -/
  | echo (v6 : Bool) (ip : BitVec 128)
  /-- a frame with a wrong FCS, an IP fragment, a frame with IP options or IPv6 extension headers -/
  | bad
  /-- a frame for another address or port -/
  | other
deriving DecidableEq, Repr

/-- The commands. -/
inductive Instr where
  /-- REGISTER_WRITE (R12). A write to a register that has no row of its own; each field is judged by its access code. -/
  | registerWrite (ini : Initiator) (addr : Nat) (val : Word)
  /-- FORBIDDEN_ACCESS (R21). An access the rights table forbids completes with a bus error; a Top-die access to the Base die also sets BRG_STS.BLOCKED and logs EVT_BRG_BLOCKED. -/
  | forbiddenAccess (ini : Initiator) (req : BusReq)
  /-- GUARD_MESSAGE (R29). A GUARD message of guard values reaches the Base side of the Bridge. -/
  | guardMessage (beats : Beats)
  /-- CTRL_REQUEST (R28). A register or memory read or write crosses the Bridge on CTRL and receives a completion. -/
  | ctrlRequest (ini : Initiator) (req : BusReq) (beats : Beats) (back : Beats := {})
  /-- CTRL_TIMEOUT (R32). A CTRL request without completion within RD_TO completes with a bus error, sets RD_TIMEOUT and logs EVT_BRG_TIMEOUT. -/
  | ctrlTimeout (ini : Initiator) (req : BusReq) (applied : Bool)
  /-- BULK_MESSAGE (R28). A BULK message carrying a Top-die Sillage record or log mirror entry reaches the Base die. -/
  | bulkMessage (beats : Beats)
  /-- KEEPALIVE (R30). Bridge hardware sends a GUARD keepalive after 2 µs without other Top-to-Base traffic. -/
  | keepalive (beats : Beats := {})
  /-- LIVENESS_LOST (R34). No Top-to-Base message for LIVE_TO while UP fences the Bridge, sets TOP_LOST, records the timestamp and logs EVT_BRG_LOST. -/
  | livenessLost
  /-- TIME_MESSAGE (R25). Every 10 µs the Base die sends a time message that corrects the Top-die timestamp copy. -/
  | timeMessage (beats : Beats := {})
  /-- BRIDGE_TRAINING_DONE (R33). Delay calibration ends; on success the timestamp is loaded and the Bridge enters UP, otherwise TRAIN_FAIL is set and EVT_BRG_TRAIN logged. -/
  | bridgeTrainingDone (ok : Bool)
  /-- TRAIN_RETRY (R33). Bridge training restarts 1 ms after a failed attempt. -/
  | trainRetry
  /-- QUIESCE_END (R33). QUIESCE ends after 10 µs or when nothing is in flight, moving the Bridge to OFF or TRAIN. -/
  | quiesceEnd
  /-- FENCE (R41). Writing BRG_CTL.FENCE forces the Bridge to FENCED. -/
  | fence (ini : Initiator)
  /-- RETRAIN (R41). Writing BRG_CTL.RETRAIN enters QUIESCE and then TRAIN. -/
  | retrain (ini : Initiator)
  /-- BRG_CNT_CLR (R41). Writing 1 zeroes BRG_ECC_CNT and BRG_EVT_CNT. -/
  | brgCntClr (ini : Initiator)
  /-- RELEASE_MESSAGE (R39). A GUARD release message from the Top side releases Top-tier outputs with zero hold. -/
  | releaseMessage (beats : Beats)
  /-- HOLD_EXPIRY (R39). BRG_HOLD.HOLD after leaving UP without a release, Top-tier outputs begin to revert. -/
  | holdExpiry
  /-- VOFS_REVERT_STEP (R39). Every 100 µs a reverting voltage offset moves BRG_HOLD.STEP millivolts toward 0. -/
  | vofsRevertStep (port : Fin 64)
  /-- PROPOSAL_ARRIVAL (R246). A Top-tier proposal arrives on the Base die and Tamp's clamp judges it against the level in force. -/
  | proposalArrival (beats : Beats)
  /-- TAMP_VIEW_UPDATE (R156). A Tamp level message reaches the Top die and updates INF_TAMP_VIEW. -/
  | tampViewUpdate (beats : Beats := {})
  /-- CLAMP_RETRY (R248). 1 ms after a failed clamp write, Tamp judges the held proposal again. -/
  | clampRetry (port : Fin 64)
  /-- CHECK_WINDOW_END (R75). A clock-monitor check H, I or C closes a window and is judged against its pass band. -/
  | checkWindowEnd (chk : ClkCheck) (count : Nat)
  /-- LFO_CALIBRATION (R73). Every 1,024 LFO cycles the LFO period is measured into CLK_LFO_CAL. -/
  | lfoCalibration (period : Fin 16777216)
  /-- IOSC_RDY_RISE (R79). IOSC becomes ready; BASE may move to IOSC and a pending CLKFAIL is delivered late. -/
  | ioscRdyRise
  /-- IOSC_START_TIMEOUT (R72). IOSC_RDY has not risen 2 ms after an enable; IOSC_DEAD is set and EVT_IOSC_DEAD logged. -/
  | ioscStartTimeout
  /-- IOSC_STOP (R72). IOSC delivers no edge for 2 LFO periods, IOSC_RDY falls and IOSC is restarted. -/
  | ioscStop
  /-- RESTORE (R80). Writing CLK_CTL.RESTORE requests a return to the host reference and clears AUTO_RET_OFF. -/
  | restore (ini : Initiator)
  /-- FORCE_IOSC (R82). Writing CLK_CTL.FORCE_IOSC moves BASE to IOSC, or lets it return when written 0. -/
  | forceIosc (ini : Initiator) (on : Bool)
  /-- RECOVERED_CLOCK_SWITCH (R68). Once NET0's receiver locks, the Base die switches the host reference to the recovered clock. -/
  | recoveredClockSwitch
  /-- FMC_START (R85). Writing CLK_FMC_CTL.START starts a frequency measurement. -/
  | fmcStart (ini : Initiator) (word : Word)
  /-- FMC_ABORT (R90). Writing CLK_FMC_CTL.ABORT stops a measurement without DONE. -/
  | fmcAbort (ini : Initiator)
  /-- FMC_DONE (R85). The FMC gate ends and the count and DONE are set. -/
  | fmcDone (count : Nat)
  /-- FMC_NOCLK (R86). No reference edge for 2 LFO periods stops the FMC with DONE and NOCLK. -/
  | fmcNoclk
  /-- GATE_REQUEST (R87). Writing 1 to a CLK_GATE_REQ bit starts the quiesce handshake for that domain. -/
  | gateRequest (ini : Initiator) (d : Fin 10)
  /-- GATE_STOPPED (R87). The domain's port reports idle and its clock stops. -/
  | gateStopped (d : Fin 10)
  /-- GATE_REFUSED (R87). The port is not idle within 4,096 cycles; the gate is refused and EVT_GATE_BUSY logged. -/
  | gateRefused (d : Fin 10)
  /-- GATE_RELEASE (R88). Writing 0 to a gated domain's request bit restarts its clock. -/
  | gateRelease (ini : Initiator) (d : Fin 10)
  /-- GATE_ABORT (R89). Writing 0 during the handshake aborts it and the clock keeps running. -/
  | gateAbort (ini : Initiator) (d : Fin 10)
  /-- COLD_POR (R97). VIN_AO rises above 2.74 V and the cold POR sequence runs. -/
  | coldPor (boot : BootIn)
  /-- SYS_RST_N_RISE (R95). SYS_RST_N rises, letting a held cold POR continue or releasing a warm reset. -/
  | sysRstNRise (jumper : Bool)
  /-- SYS_RST_N_FALL (R98). SYS_RST_N falls past its 1 µs deglitch and a warm reset is asserted. -/
  | sysRstNFall
  /-- WARM_KEY (R120). Writing 0xA5 to PWRST_CTL.WARM_KEY starts a warm reset with cause WARM_CMD. -/
  | warmKey (ini : Initiator) (key : Fin 256)
  /-- WARM_RESET_RELEASE (R98). The internal warm reset is released 2 µs after assertion for non-pin sources. -/
  | warmResetRelease (jumper : Bool)
  /-- BOR (R117). VIN_AO falls below 2.70 V and the BOR reset begins. -/
  | bor
  /-- BOW (R115). VIN_AO falls below BOW; NVM commits and flash writes are deferred. -/
  | bow (mv : Fin 4096)
  /-- BOW_RECOVER (R116). VIN_AO rises above 3.04 V without BOR; the dip is recorded and EVT_BOW_DIP logged. -/
  | bowRecover (minMv mv : Fin 4096)
  /-- NVM_COMMIT_DONE (R118). A journal entry finishes with its commit marker, and the next waiting commit starts. -/
  | nvmCommitDone
  /-- NVM_COMPACTION_DONE (R119). The new bank's header commit marker is written and the bank becomes valid. -/
  | nvmCompactionDone
  /-- TOP_RST (R446). Writing PWRST_CTL.TOP_RST requests a Top reset with cause KEEPER. -/
  | topRst (ini : Initiator)
  /-- TOP_RESET_HOLD_END (R447). After 10 µs in reset the bring-up continues from step 3 of R105. -/
  | topResetHoldEnd
  /-- POWER_REQ_A0 (R101). A request for A0 starts an A1 or A2 exit. -/
  | powerReqA0 (ini : Initiator)
  /-- POWER_REQ_A1 (R101). A request for A1 stops the Infuser, releases outputs, gates domains and puts links in LOWPWR. -/
  | powerReqA1 (ini : Initiator)
  /-- A1_ENTRY_COMPLETE (R102). All gates succeed and CUR becomes A1, or a refused gate undoes the entry. -/
  | a1EntryComplete
  /-- POWER_REQ_A2 (R101). A request for A2 stops the Infuser, releases outputs and begins the W save. -/
  | powerReqA2 (ini : Initiator)
  /-- W_SAVE_DONE (R103). The copy of Top-die W fields into the Top save block completes and the block is marked valid. -/
  | wSaveDone
  /-- POWER_REQ_A3 (R101). A Keeper request for A3 is judged and, if allowed, A3 is entered. -/
  | powerReqA3 (ini : Initiator)
  /-- WAKE_INPUT (R108). An enabled wake input rises and the T8 exits toward its target state. -/
  | wakeInput (mask : Fin 256)
  /-- WAKE_TIMER (R108). The wake timer expires and acts as a wake source. -/
  | wakeTimer
  /-- TOPPWR_GOOD_RISE (R105). TOPPWR_GOOD rises during a bring-up and the PLLs begin to lock. -/
  | toppwrGoodRise
  /-- PG_TIMEOUT (R106). TOPPWR_GOOD does not rise within PG_TO and the bring-up fails. -/
  | pgTimeout
  /-- PLL_LOCK (R105). PLL0 and PLL1 lock and the Top reset is released. -/
  | pllLock
  /-- SENSOR_MAP_RELOAD_DONE (R105). The Sensor Map and Top-die REG_WRITE entries finish reloading from the running slot. -/
  | sensorMapReloadDone (bad : Option (Fin 4096))
  /-- FW_LOAD_DONE (R105). Control-core firmware is loaded and verified, the cores leave reset and CUR becomes A0. -/
  | fwLoadDone
  /-- BRINGUP_RETRY (R106). 1 s after a failed bring-up, while FAIL_RUN is below MAX_FAIL, the Keepers retry. -/
  | bringupRetry
  /-- FAIL_RUN_CLEAR (R106). Writing 0 to FAIL_RUN lets retries resume 1 s later. -/
  | failRunClear (ini : Initiator)
  /-- TOPPWR_GOOD_FALL (R437). A deglitched fall of TOPPWR_GOOD outside a bring-up starts a Top reset and fences the Bridge. -/
  | toppwrGoodFall
  /-- LPDDR_TRAINING_DONE (R218). LPDDR5X write and read training ends at bring-up, setting INIT_DONE or TRAIN_FAIL. -/
  | lpddrTrainingDone (ok kept : Bool)
  /-- CORE_RESTART_REQUEST (R120). Writing a PWRST_CORE_RST bit restarts that Control core with cause KEEPER. -/
  | coreRestartRequest (ini : Initiator) (mask : Fin 16) (r0 : Csrs) (r1 : Csrs) (r2 : Csrs) (r3 : Csrs)
  /-- SLOT_TICK (R144). A program slot's tick falls and a run becomes due. -/
  | slotTick (n : Fin 16)
  /-- RUN_START (R145). A due run starts once its clusters are free, 16 cycles after falling due at the earliest. `ecc`: what the reads of a
  rollback meet (R140). -/
  | runStart (n : Fin 16) (ecc : Ecc := {})
  /-- ISSUE_GROUP (R177). An issue group issues on one repeat after its checks. -/
  | issueGroup (n : Fin 16) (ecc : Ecc) (badDesc : List (Fin 65536) := [])
  /-- RESULT_WRITEBACK (R176). An operation's result lands at its result cycle, collisions resolved by R174. -/
  | resultWriteback (n : Fin 16)
  /-- RUN_END (R176). A run ends after cycle CYC − 1. `ecc`: what the reads of its commit meet (R140). -/
  | runEnd (n : Fin 16) (ecc : Ecc := {})
  /-- ADAPT_WINDOW_END (R160). The trial window ends, confirming the change or scheduling a rollback. -/
  | adaptWindowEnd (n : Fin 16)
  /-- ADAPT_HOLD_END (R161). HOLD lasting four window lengths ends and the state returns to IDLE. -/
  | adaptHoldEnd (n : Fin 16)
  /-- OUTPUT_QUEUE_DRAIN (R153). A queued output word leaves the output queue into GUARD. -/
  | outputQueueDrain
  /-- SLOT_ENABLE (R143). Writing EN = 1 to a LOADED slot enables it when every check passes, else records REFUSE. -/
  | slotEnable (ini : Initiator) (n : Fin 16)
  /-- SLOT_DISABLE (R146). Writing EN = 0 lets the current run finish and starts no other. -/
  | slotDisable (ini : Initiator) (n : Fin 16)
  /-- SLOT_ABORT (R146). ABORT stops a running slot at its next bundle boundary. -/
  | slotAbort (ini : Initiator) (n : Fin 16)
  /-- STATE_INIT (R146). STATE_INIT zeroes the state window and resets the adaptation block. -/
  | stateInit (ini : Initiator) (n : Fin 16)
  /-- CLR_FAULT (R141). CLR_FAULT moves a slot from FAULT to LOADED. -/
  | clrFault (ini : Initiator) (n : Fin 16)
  /-- STOP_ALL (R163). INF_CTL.STOP_ALL writes 0 to EN of every slot. -/
  | stopAll (ini : Initiator)
  /-- INF_CNT_CLR (R163). Writing 1 zeroes the Infuser counters. -/
  | infCntClr (ini : Initiator)
  /-- ADAPT_RST (R161). ADAPT_RST returns a DISABLED slot to IDLE and RUN_RB to 0. -/
  | adaptRst (ini : Initiator) (n : Fin 16)
  /-- PROGRAM_LOAD (R166). The security block checks and loads an Infusion program into a slot. -/
  | programLoad (n : Fin 16)
  /-- HINT (R183). A HINT message is checked by the hint matcher and each hint is answered with a code. -/
  | hint (m : TmpMsg)
  /-- HINT_CANCEL (R188). A session cancels its own pending hints by ID. -/
  | hintCancel (m : TmpMsg)
  /-- HINT_EVALUATION (R184). At each 100 ns multiple every hint whose trigger time is reached fires. -/
  | hintEvaluation
  /-- MAILBOX_WRITE (R185). A fired hint's record is written to the slot mailbox and a hint trigger raised. -/
  | mailboxWrite
  /-- TOKEN_REFILL (R183). Each 50,000 ns every accelerator's hint bucket gains a token. -/
  | tokenRefill
  /-- HINT_FLUSH (R189). HNT_CTL.FLUSH drops every pending hint. -/
  | hintFlush (ini : Initiator)
  /-- HNT_CNT_CLR (R190). Writing 1 zeroes the hint counters. -/
  | hntCntClr (ini : Initiator)
  /-- CODEWORD_RX (R195). A Ristretto codeword is decoded and its two frames checked and applied in order. -/
  | codewordRx (n : Fin 8) (raw : BitVec 4360) (badDesc : List (Fin 65536))
  /-- LINK_TRAIN_START (R197). A link with EN and MAP_LOADED and no retry wait enters DETECT. -/
  | linkTrainStart (n : Fin 8)
  /-- LINK_DETECT_DONE (R197). CDR locks and the link moves to ADAPT. -/
  | linkDetectDone (n : Fin 8)
  /-- LINK_ADAPT_DONE (R197). Receiver adaptation converges and the link moves to TXEQ. -/
  | linkAdaptDone (n : Fin 8)
  /-- LINK_TXEQ_DONE (R197). The best transmitter equalizer setting is applied and the link moves to ALIGN. -/
  | linkTxeqDone (n : Fin 8)
  /-- LINK_ALIGN_DONE (R197). Four valid SYNC fields are found and the link moves to QUALIFY. -/
  | linkAlignDone (n : Fin 8)
  /-- LINK_QUALIFY_DONE (R197). 2^18 codewords pass without an uncorrectable one and the link enters UP. -/
  | linkQualifyDone (n : Fin 8)
  /-- LINK_TRAIN_FAIL (R198). A training state exceeds its limit; TRAIN_FAIL, FAIL_STEP and ATTEMPTS are updated. -/
  | linkTrainFail (n : Fin 8)
  /-- LINK_RETRY (R198). The next training attempt starts after 100 ms or 1 s. -/
  | linkRetry (n : Fin 8)
  /-- LINK_LOS (R198). Eight bad codewords in UP lose the link, set LOS and log EVT_TL_LOS. -/
  | linkLos (n : Fin 8)
  /-- BC_RETRY (R199). A failed back-channel transaction is retried after 100 µs, and after three fails sets BC_ERR. -/
  | bcRetry (n : Fin 8)
  /-- LOWPWR_EXIT_LOCK (R201). Codeword lock is confirmed after A1 exit and the link returns to UP. -/
  | lowpwrExitLock (n : Fin 8)
  /-- LOWPWR_RELOCK_TIMEOUT (R201). Lock not regained within 100 µs retrains the link from DETECT. -/
  | lowpwrRelockTimeout (n : Fin 8)
  /-- TL_RETRAIN (R220). TLn_CTL.RETRAIN restarts training from DETECT. -/
  | tlRetrain (ini : Initiator) (n : Fin 8)
  /-- TL_CNT_CLR (R220). Writing 1 zeroes the link counters. -/
  | tlCntClr (ini : Initiator) (n : Fin 8)
  /-- MAP_DONE (R204). A Keeper write of MAP_DONE sets MAP_LOADED and makes the Sensor Map read-only. -/
  | mapDone (ini : Initiator)
  /-- STAT_WINDOW_BOUNDARY (R207). A statistics window closes and its minimum, maximum and mean are published. -/
  | statWindowBoundary (i : Fin 65536)
  /-- RATE_BOUNDARY (R207). A rate-of-change boundary computes the descriptor's rate. -/
  | rateBoundary (i : Fin 65536)
  /-- GUARD_ASSEMBLY (R211). At each 1 µs tick guard positions are assembled and GUARD messages queued. -/
  | guardAssembly (badDesc : List (Fin 65536) := [])
  /-- RECORD_WRITE (R215). The writer drains a recorder record from a link queue into the open buffer. -/
  | recordWrite
  /-- REC_FLUSH_TIMER (R213). The FLUSH time since a buffer's first record passes and the buffer closes. -/
  | recFlushTimer
  /-- REC_REARM (R221). REARM returns the recorder from FROZEN to RUN and rearms every unit. -/
  | recRearm (ini : Initiator)
  /-- REC_SWTRIG (R221). SWTRIG acts as a trigger with unit code 0x10. -/
  | recSwtrig (ini : Initiator)
  /-- REC_FLUSH (R221). FLUSH closes the open buffer. -/
  | recFlush (ini : Initiator)
  /-- REC_RUN (R221). Writing REC_RUN starts or stops the recorder, refusing a bad ring with EVT_REC_CFG. -/
  | recRun (ini : Initiator) (on : Bool)
  /-- TFAB_CNT_CLR (R221). Writing 1 zeroes the fabric counters. -/
  | tfabCntClr (ini : Initiator)
  /-- SAMPLE_TICK (R228). At each 1 MHz tick Tamp samples AIN, evaluates combiners and comparators and updates levels. -/
  | sampleTick (x : SampleIn)
  /-- THROTTLE_PULSE (R232). At each 2,000 ns grid point a throttled BRK line is driven low for 200 ns. -/
  | throttlePulse
  /-- ANALOG_TRIP (R235). An analog comparator trips and imposes Red or Black. -/
  | analogTrip (k : Fin 64)
  /-- ANALOG_RELEASE (R235). A non-latching Red analog comparator releases after 4 LFO periods below threshold. -/
  | analogRelease (k : Fin 64)
  /-- TEMP_MEASURE (R243). Every 32 LFO periods the critical-temperature circuit measures its sensors. -/
  | tempMeasure (die : Fin 65536) (td0 : TdIn) (td1 : TdIn) (td2 : TdIn) (td3 : TdIn)
  /-- RED_CLR (R238). TAMP_CLR.RED_CLR clears latched Red for an accelerator. -/
  | redClr (ini : Initiator) (mask : Fin 256)
  /-- BLK_CLR (R238). TAMP_CLR.BLK_CLR clears Black and the lockout while presence is open. -/
  | blkClr (ini : Initiator) (mask : Fin 256)
  /-- CRIT_CLR (R244). TAMP_CRIT.CLR releases SYS_SHDN_N when sensors are cool and presence is open. -/
  | critClr (ini : Initiator)
  /-- TAMP_CNT_CLR (R251). Writing 1 zeroes every TAMP_CNTa. -/
  | tampCntClr (ini : Initiator)
  /-- POWER_UP (R261). SEQ_CMD POWER_UP powers up every rail of the named groups. -/
  | powerUp (ini : Initiator) (groups : Fin 512)
  /-- POWER_DOWN (R265). SEQ_CMD POWER_DOWN powers down the named groups in reverse order. -/
  | powerDown (ini : Initiator) (groups : Fin 512)
  /-- TRAY_RESTART (R271). SEQ_CMD TRAY_RESTART powers down every rail, waits MIN_OFF and powers the groups up again. -/
  | trayRestart (ini : Initiator) (groups : Fin 512)
  /-- CLEAR (R268). SEQ_CMD CLEAR clears the fault latches of the named groups and the tray. -/
  | clear (ini : Initiator) (groups : Fin 512)
  /-- SEQ_TICK (R261). At each 1 µs tick rails move through their states and discharge is judged. -/
  | seqTick
  /-- ON_DELAY_EXPIRY (R261). ON_DLY after the last predecessor ON passes and the rail is enabled. -/
  | onDelayExpiry (rail : Fin 96)
  /-- PWRGD_CHANGE (R262). A deglitched PWRGD level takes effect for the rails judged by it. -/
  | pwrgdChange (idx : Fin 64) (level : Bool) (x : PgIn)
  /-- STATUS_POLL (R262). Every 100 µs STATUS_WORD is read for PMBus-judged rails. -/
  | statusPoll
  /-- RAMP_TIMEOUT (R264). A rail not ON at RAMP_MAX fails with RAMP_TIMEOUT. -/
  | rampTimeout (rail : Fin 96)
  /-- PRECHARGED (R261). A rail not discharged by DIS_TO in WAIT fails with PRECHARGED. -/
  | precharged (rail : Fin 96)
  /-- OFF_DELAY_EXPIRY (R265). OFF_DLY in STOP passes and the rail is switched off into DISCH. -/
  | offDelayExpiry (rail : Fin 96)
  /-- DIS_TIMEOUT (R265). DIS_TO passes in DISCH; EVT_SEQ_DISCH is logged, GFAULT set and the rail taken as OFF. -/
  | disTimeout (rail : Fin 96)
  /-- TRAY_INPUT_FAIL (R270). The tray input fails; resume groups are recorded and every rail is powered down. -/
  | trayInputFail
  /-- TRAY_INPUT_GOOD (R269). The tray input becomes good, allowing a waiting restart. -/
  | trayInputGood
  /-- MIN_OFF_EXPIRY (R270). MIN_OFF passes and the SEQ_RESUME groups are powered up when allowed. -/
  | minOffExpiry
  /-- RSTO_STRETCH_EXPIRY (R274). STRETCH after all watched rails ON passes and the reset output is released. -/
  | rstoStretchExpiry (k : Fin 16)
  /-- RSTO_PRE_EXPIRY (R274). The longest PRE passes and the command's first rail may leave ON. -/
  | rstoPreExpiry
  /-- TEST_MODE_ENTER (R277). Writing SEQ_CTL.TEST = 1 enters test mode while presence is open. -/
  | testModeEnter (ini : Initiator)
  /-- TEST_MODE_EXIT (R277). Writing SEQ_CTL.TEST = 0 ends test mode and returns margined rails. -/
  | testModeExit (ini : Initiator)
  /-- MARGIN_REQUEST (R278). SEQ_MGN_CTL.GO asks to move a rail to a margin, refused with a code when not allowed. -/
  | marginRequest (ini : Initiator) (word : Word)
  /-- MARGIN_STEP (R278). Every 100 µs an accepted margin request moves the rail one step. -/
  | marginStep
  /-- FFR_CLR (R282). SEQ_FFR_CLR erases the kept captures while presence is open. -/
  | ffrClr (ini : Initiator)
  /-- PWM_PERIOD (R284). At each 40 µs PWM period boundary each channel's duty is set by the first rule that applies. -/
  | pwmPeriod
  /-- FAN_UPDATE (R291). Every 10 ms each fan's state machine and PI loop update. -/
  | fanUpdate (tach : List TachIn)
  /-- CURVE_EVAL (R287). Every 100 ms each zone curve is evaluated. -/
  | curveEval
  /-- PUMP_UPDATE (R296). Every 100 ms each pump loop runs on its temperature and flow. -/
  | pumpUpdate (flows : List (List Nat))
  /-- COOL_START (R284). A Keeper write of COOL_CTL.START starts the controller and ends forcing. -/
  | coolStart (ini : Initiator)
  /-- STALL_CLEAR (R292). Writing 1 to STALL clears the latch, logs EVT_FAN_CLEAR and starts the fan. -/
  | stallClear (ini : Initiator) (ch : Fin 30) (word : Word)
  /-- HOST_WDT_KICK (R298). An accepted Operator or Owner TMP message kicks the host watchdog. -/
  | hostWdtKick (session : Fin 16)
  /-- HOST_WDT_EXPIRY (R298). The host watchdog expires and every fan and pump goes to 100 %. -/
  | hostWdtExpiry
  /-- COOLING_WDT_TRIP (R299). 40 ms without a fan-loop update trips the cooling watchdog. -/
  | coolingWdtTrip
  /-- LEAK_MEASURE (R301). A leak channel's impedance is measured and judged. -/
  | leakMeasure (k : Fin 16) (imp : Nat)
  /-- LEAK_SHUTDOWN (R302). After SHDN_DLY the sequencer powers the leak's groups down and sets GFAULT. -/
  | leakShutdown (k : Fin 16)
  /-- LEAK_CLR (R303). COOL_LKk_STS.CLR clears a leak when allowed and logs EVT_LEAK_CLEAR. -/
  | leakClr (ini : Initiator) (k : Fin 16) (word : Word)
  /-- VALVE_COMMAND (R304). A write of COOL_VLV.CMD_CLOSE drives valves, refusing to open one a leak holds. -/
  | valveCommand (ini : Initiator) (word : Word)
  /-- CONS_POLL (R307). Every 10 s the controller polls each consumable tag address. -/
  | consPoll
  /-- CONS_DAILY_CHECK (R307). Every 24 h each slot is checked again. -/
  | consDailyCheck
  /-- CONS_LIFE_HOUR (R307). Each hour of use decrements a consumable's life and commits it. -/
  | consLifeHour (c : Fin 32)
  /-- TW_TRANSACTION_START (R317). When the bus is idle the port starts the waiting transaction of the highest level. -/
  | twTransactionStart (n : Fin 12)
  /-- TW_TRANSACTION_DONE (R319). A controller transaction ends with a result code. -/
  | twTransactionDone (n : Fin 12) (ended : TwEnd)
  /-- TW_TIMEOUT (R319). SCL held low 25 ms ends the controller transaction with TIMEOUT; `rx`: the bytes received before it (R318). -/
  | twTimeout (n : Fin 12) (rx : List Byte := [])
  /-- CHANNEL_GO (R318). TWn_CHc_CMD.GO queues one transaction on a command channel. -/
  | channelGo (ini : Initiator) (n : Fin 12) (c : Fin 2) (word : Word)
  /-- TARGET_WRITE (R324). A write addressed to the port as target is stored and TGT_RX raised. -/
  | targetWrite (n : Fin 12) (addr : Fin 128) (bytes : List Byte)
  /-- TARGET_READ (R324). A read addressed to the port is served from the transmit buffer or stretched. -/
  | targetRead (n : Fin 12) (addr : Fin 128) (count : Nat)
  /-- TX_VALID_TIMEOUT (R324). TX_VALID not set within 10 ms; 0xFF is sent and TGT_UNDERRUN set. -/
  | txValidTimeout (n : Fin 12)
  /-- TARGET_TIMEOUT (R324). SCL held low 25 ms during a target transaction releases the lines and sets TIMEOUT. -/
  | targetTimeout (n : Fin 12) (addr : Fin 128)
  /-- RX_ACK (R336). RX_ACK empties the target receive buffer. -/
  | rxAck (ini : Initiator) (n : Fin 12)
  /-- TX_VALID (R336). TX_VALID marks the target transmit buffer ready. -/
  | txValid (ini : Initiator) (n : Fin 12)
  /-- ATTENTION_REQUEST (R326). An in-band SDA-low attention request queues a level-4 poll of the listed targets. -/
  | attentionRequest (n : Fin 12)
  /-- SMBALERT (R327). SMBALERT_N low queues an Alert Response Address read. -/
  | smbAlert (n : Fin 12) (low : Bool)
  /-- ALERT_RETRY (R327). A NACKed ARA read is retried after 1 ms, setting ALERT_STUCK after three. -/
  | alertRetry (n : Fin 12)
  /-- ALERT_QUEUE_READ (R336). A read of TWn_ALERT returns and removes the oldest alert address. -/
  | alertQueueRead (ini : Initiator) (n : Fin 12)
  /-- WAKE_ADDRESS_MATCH (R328). In A3 a matching address is NACKed and raises a wake. -/
  | wakeAddressMatch (n : Fin 12) (addr : Fin 128)
  /-- SEGMENT_STUCK (R329). A line held 35 ms declares the segment stuck and logs EVT_TW_STUCK. -/
  | segmentStuck (n : Fin 12) (scl sda : Bool)
  /-- SEG_OFF_EXPIRY (R330). SEG_OFF passes and SEGPWR is reasserted. -/
  | segOffExpiry (n : Fin 12)
  /-- SEG_SETTLE_EXPIRY (R330). SEG_SETTLE ends and the port waits for the bus-idle condition. -/
  | segSettleExpiry (n : Fin 12) (idle : Bool)
  /-- SEG_IDLE_TIMEOUT (R330). No idle within 1 ms after settle repeats the power cycle. -/
  | segIdleTimeout (n : Fin 12)
  /-- SEG_RUN_RESET (R330). 60 s without a stuck detection returns RUN to 0. -/
  | segRunReset (n : Fin 12)
  /-- NET_START (R338). NETn_CTL.START lets the port train. -/
  | netStart (ini : Initiator) (n : Fin 2)
  /-- NET_RETRAIN (R362). NETn_CTL.RETRAIN restarts auto-negotiation and training. -/
  | netRetrain (ini : Initiator) (n : Fin 2)
  /-- NET_LINK_UP (R338). A NET port completes training and reaches UP. -/
  | netLinkUp (n : Fin 2)
  /-- NET_LINK_DOWN (R338). A NET port drops link. -/
  | netLinkDown (n : Fin 2)
  /-- NET_RETRY (R338). A failed port attempt is retried after 100 ms. -/
  | netRetry (n : Fin 2)
  /-- NET_CNT_CLR (R362). Writing 1 zeroes the port counters. -/
  | netCntClr (ini : Initiator) (n : Fin 2)
  /-- FRAGMENT_RX (R341). A TMP datagram fragment is received and reassembled into its message. `fec`: what the frames since the one
  before met (R362). -/
  | fragmentRx (peer : Peer) (datagram : List Byte) (fec : FecCount := {})
  /-- REASSEMBLY_TIMEOUT (R341). A message incomplete 100 ms after its first fragment is discarded. A message with SID 0 is told by its source. -/
  | reassemblyTimeout (sid : BitVec 32) (seq : BitVec 64) (peer : Option Peer := none)
  /-- OPEN_REQ (R345). OPEN_REQ starts a handshake; the engine answers OPEN_CHAL or OPEN_ERR. -/
  | openReq (m : TmpMsg)
  /-- OPEN_PROOF (R345). OPEN_PROOF signatures are verified and the session granted with OPEN_ACK. -/
  | openProof (m : TmpMsg)
  /-- OPEN_PROOF_TIMEOUT (R345). No OPEN_PROOF within 2 s abandons the handshake. -/
  | openProofTimeout (n : Fin 16)
  /-- CLOSE (R347). A session's CLOSE is answered and the session closed. -/
  | tmpClose (m : TmpMsg)
  /-- PING (R352). PING is answered by the engine. -/
  | ping (m : TmpMsg)
  /-- READ_STAT (R352). READ_STAT returns requested descriptor statistics. -/
  | readStat (m : TmpMsg) (badDesc : List (Fin 65536) := [])
  /-- SUBSCRIBE (R360). SUBSCRIBE starts or ends event and recorder deliveries. -/
  | subscribe (m : TmpMsg)
  /-- FP_STATEMENT (R65). FP_STATEMENT requests a signed fingerprint statement. -/
  | fpStatement (m : TmpMsg)
  /-- STATUS (R352). STATUS returns the heartbeat payload. -/
  | tmpStatus (m : TmpMsg)
  /-- SET_CAP (R355). SET_CAP sets or withdraws the session's caps. -/
  | setCap (m : TmpMsg)
  /-- SET_FLOOR (R355). SET_FLOOR sets or withdraws zone and pump floors. -/
  | setFloor (m : TmpMsg)
  /-- JOB (R357). JOB sets the session's job state. -/
  | job (m : TmpMsg)
  /-- JOB_HOLD_EXPIRY (R357). HOLD_MS of a BOUNDARY passes and the session returns to RUNNING. -/
  | jobHoldExpiry (n : Fin 16)
  /-- SIG_INSTALL (R181). SIG_INSTALL passes signature entries to firmware for the table. -/
  | sigInstall (m : TmpMsg)
  /-- SEQ_CMD (R352). The SEQ_CMD message relays a sequencer command. -/
  | seqCmd (m : TmpMsg)
  /-- TAMP_CLEAR (R352). TAMP_CLEAR writes RED_CLR and BLK_CLR bits to TAMP_CLR. -/
  | tampClear (m : TmpMsg)
  /-- POWER_STATE (R352). POWER_STATE requests A1 or A2. -/
  | powerState (m : TmpMsg)
  /-- TOP_RESET (R92). The TOP_RESET host command starts a Top reset. -/
  | topReset (m : TmpMsg)
  /-- WDT_KICK (R352). WDT_KICK is accepted and kicks the host watchdog. -/
  | tmpWdtKick (m : TmpMsg)
  /-- REC_CTL (R352). REC_CTL relays REARM, SWTRIG or FLUSH to the recorder. -/
  | recCtl (m : TmpMsg)
  /-- SETTING_COMMIT (R59). SETTING_COMMIT commits settings and increments the epoch atomically. -/
  | settingCommit (m : TmpMsg)
  /-- WARM_RESET (R92). The WARM_RESET Owner command starts a warm reset. -/
  | warmReset (m : TmpMsg)
  /-- MARGIN (R352). MARGIN enters or leaves test mode and submits a margin request. -/
  | margin (m : TmpMsg)
  /-- ACCORD_ACCEPT (R389). ACCORD_ACCEPT writes the held Accord to the idle slot and compares it for live activation. `uncorr`
  as in END (R219). -/
  | accordAccept (m : TmpMsg) (flashOk : Bool) (uncorr : Option (BitVec 28) := none)
  /-- KEY_CHANGE_ADD (R372). KEY_CHANGE ADD writes a new owner-key slot that becomes active. -/
  | keyChangeAdd (m : TmpMsg) (otpOk : Bool)
  /-- KEY_CHANGE_RETIRE (R372). KEY_CHANGE RETIRE retires every usable slot below the active one. -/
  | keyChangeRetire (m : TmpMsg)
  /-- DEBUG_UNLOCK_CHALLENGE (R376). DEBUG_UNLOCK CHALLENGE returns a fresh 32-byte challenge. -/
  | debugUnlockChallenge (m : TmpMsg)
  /-- DEBUG_UNLOCK_RESPONSE (R376). DEBUG_UNLOCK RESPONSE verifies the signed challenge and opens the debug port. -/
  | debugUnlockResponse (m : TmpMsg)
  /-- LOG_CLEAR (R352). LOG_CLEAR erases Sillage NVM records and first-failing-rail captures. -/
  | logClear (m : TmpMsg)
  /-- HEARTBEAT (R359). A HEARTBEAT goes to every open session each HB_PER or on a change. -/
  | heartbeat
  /-- EVENT_DELIVERY (R360). Sillage records are sent to subscribed sessions in an EVENT message. -/
  | eventDelivery (n : Fin 16)
  /-- REC_BUF_DELIVERY (R360). A closed recorder buffer is sent to a subscriber as REC_BUF. -/
  | recBufDelivery (n : Fin 16) (uncorr : Option (Fin 4096))
  /-- IDLE_TIMEOUT (R347). No authenticated message for IDLE_TO closes the session. -/
  | idleTimeout (n : Fin 16)
  /-- CLOSE_ALL (R347). SES_CTL.CLOSE_ALL closes every session. -/
  | closeAll (ini : Initiator)
  /-- SES_CNT_CLR (R363). Writing 1 zeroes the session error counters. -/
  | sesCntClr (ini : Initiator)
  /-- REPLY_SUBMIT (R354). Firmware advancing SES_TXQ_PTR.WR has the engine encrypt and send a reply. -/
  | replySubmit (ini : Initiator) (wr : Fin 64)
  /-- BEGIN (R382). SVC BEGIN starts an image transfer. -/
  | svcBegin (peer : Peer) (xfer : BitVec 32) (total : BitVec 32)
  /-- DATA (R382). SVC DATA delivers image bytes at an offset. -/
  | svcData (peer : Peer) (xfer : BitVec 32) (offset : BitVec 32) (bytes : List Byte)
  /-- END (R386). SVC END triggers the image checks and returns the result. `uncorr` is the offset of a staged byte in LPDDR5X whose read
  link ECC cannot correct (R219). -/
  | svcEnd (peer : Peer) (xfer : BitVec 32) (uncorr : Option (BitVec 28) := none)
  /-- QUERY (R382). SVC QUERY returns transfer state, identity and public keys. -/
  | svcQuery (peer : Peer) (xfer : BitVec 32)
  /-- TRANSFER_TIMEOUT (R382). 5 s without DATA abandons the transfer. -/
  | transferTimeout
  /-- FLASH_WRITE_DONE (R387). A staged image is written to flash, verified and marked in KEY_STAGED. `uncorr` as in END (R219). -/
  | flashWriteDone (res : FlashEnd) (uncorr : Option (BitVec 28) := none)
  /-- ACTIVATION_CHECK (R390). The activation conditions are examined and a waiting cause logged as EVT_ACT_WAIT. -/
  | activationCheck
  /-- ABANDON (R390). SEC_ACT.ABANDON discards every staged image. -/
  | abandonStaged (ini : Initiator)
  /-- KEY_FP_STATEMENT (R394). Key-store request FP_STATEMENT builds a signed statement. -/
  | keyFpStatement (ini : Initiator)
  /-- GET_PUB (R394). Key-store request GET_PUB returns the device public keys. -/
  | getPub (ini : Initiator)
  /-- DBG_CHALLENGE (R394). Key-store request DBG_CHALLENGE issues a debug challenge. -/
  | dbgChallenge (ini : Initiator)
  /-- DBG_RESPONSE (R394). Key-store request DBG_RESPONSE checks a signed debug response. -/
  | dbgResponse (ini : Initiator)
  /-- KEY_ADD (R372). Key-store request KEY_ADD writes a new owner-key slot. -/
  | keyAdd (ini : Initiator) (otpOk : Bool)
  /-- KEY_RETIRE (R372). Key-store request KEY_RETIRE retires older owner-key slots. -/
  | keyRetire (ini : Initiator)
  /-- KEY_REQUEST_DONE (R394). A key-store request completes and RESULT is set. -/
  | keyRequestDone
  /-- PRES_BTN_PRESS (R379). A recognised button press opens the presence window. -/
  | presBtnPress
  /-- PRESENCE_WINDOW_END (R379). The 600 s window ends and EVT_PRES_CLOSE is logged. -/
  | presenceWindowEnd
  /-- PRES_CLOSE (R379). KEY_PRES.CLOSE closes the presence window. -/
  | presClose (ini : Initiator)
  /-- SEAL_BREAK (R379). The seal loop changes to broken, sets SEAL_BROKEN and may close the window. -/
  | sealBreak
  /-- DEBUG_LOCK (R377). DURATION ends and the debug port locks again. -/
  | debugLock
  /-- FW_PANIC (R407). A core writing its FW_PANIC bit crashes with cause 1. -/
  | fwPanic (ini : Initiator) (mask : Fin 16) (csrs : Csrs)
  /-- TRAP_LOCKUP (R407). A trap taken with the trap-active bit set crashes the core with cause LOCKUP. -/
  | trapLockup (c : Fin 4) (csrs : Csrs)
  /-- CORE_WDT_EXPIRY (R404). A core watchdog expires and the core crashes with cause WATCHDOG. -/
  | coreWdtExpiry (c : Fin 4) (csrs : Csrs)
  /-- FW_WDT_KICK (R404). Core c writing 0x5A to FW_WDT_KICKc restarts its watchdog. -/
  | fwWdtKick (ini : Initiator) (c : Fin 4) (key : Fin 256)
  /-- FW_TOPWDT_KICK (R405). 0x5A to FW_TOPWDT_KICK arms or restarts the Top watchdog. -/
  | fwTopwdtKick (ini : Initiator) (key : Fin 256)
  /-- TOP_WDT_EXPIRY (R405). The Top watchdog expires and the Base die starts a Top reset with cause TOP_WDT. -/
  | topWdtExpiry
  /-- KPR_WDT_KICK (R406). A Keeper writing 0x5A marks itself kicked; the count restarts when all masked Keepers have kicked. -/
  | kprWdtKick (ini : Initiator) (key : Fin 256)
  /-- KEEPER_WDT_EXPIRY (R406). The Keeper watchdog expires and starts a warm reset with cause KPR_WDT. -/
  | keeperWdtExpiry
  /-- K1_RUN (R413). KPR_CTL.K1_RUN releases K1 at its entry. -/
  | k1Run (ini : Initiator)
  /-- TEXT_LOCK (R400). FW_TEXT_BASE.LOCK write-protects the Control text range until the next Top reset. -/
  | textLock (ini : Initiator)
  /-- LOG_ENTRY_COMMIT (R411). The eighth word at a Control-core log port commits a stamped entry to the ring. -/
  | logEntryCommit (ini : Initiator) (c : Fin 4) (word : Word)
  /-- KEEPER_LOG_ENTRY (R411). The eighth word at KPR_LOG_PORT commits a Keeper entry to the mirror. -/
  | keeperLogEntry (ini : Initiator) (word : Word)
  /-- SIL_PORT_SUBMIT (R419). The write of word 11 submits an event through a Sillage write port. -/
  | silPortSubmit (ini : Initiator) (port : Fin 6) (word : Word)
  /-- SILLAGE_RECORD_WRITE (R420). The writer stores an admitted record into the ring and advances SIL_WSEQ. -/
  | sillageRecordWrite
  /-- RLIM_SECOND (R422). At each whole second codes with suppressed occurrences write an RLIM record. -/
  | rlimSecond
  /-- SIL_TOKEN_REFILL (R422). A code's bucket gains a token every 1 s ÷ RATE. -/
  | silTokenRefill (code : Fin 65536)
  /-- CORRELATION_WINDOW_CLOSE (R424). A window closes and writes a summary when it absorbed events. -/
  | correlationWindowClose (g : Fin 32)
  /-- FREEZE (R425). Writing SIL_CTL.FREEZE = 1 stops writes to the ring. -/
  | freeze (ini : Initiator)
  /-- UNFREEZE (R425). Writing FREEZE = 0 ends the freeze and writes held records and EVT_SIL_OVF. -/
  | unfreeze (ini : Initiator)
  /-- FREEZE_MAX_EXPIRY (R425). FREEZE_MAX passes and the freeze ends by itself. -/
  | freezeMaxExpiry
  /-- SERVICE (R421). SIL_CTL.SERVICE ends START-UP and RECOVERY. -/
  | service (ini : Initiator)
  /-- RECOV (R421). Writing SIL_CTL.RECOV holds or releases RECOVERY mode. -/
  | recov (ini : Initiator) (on : Bool)
  /-- NVM_CLR (R427). SIL_CTL.NVM_CLR erases the kept NVM records while presence is open. -/
  | nvmClr (ini : Initiator)
  /-- SIL_CNT_CLR (R430). Writing 1 zeroes the Sillage counts. -/
  | silCntClr (ini : Initiator)
  /-- SIL_NVM_COMMIT (R427). The persistent-record queue commits at 16 records or 10 ms. -/
  | silNvmCommit
  /-- SNAP (R66). ACD_FP_CTL.SNAP copies the fingerprint triple into the snapshot registers. -/
  | snap (ini : Initiator)
  /-- BASE_CLOCK_STALL (R83). BASE delivers no edge for longer than two of its periods and the monitor starts counting the gap in IOSC or LFO cycles. -/
  | baseClockStall
  /-- BASE_CLOCK_RESUME (R83). The next BASE edge after a stall arrives from the same source without a switch, and the counted gap is added to the timestamp. -/
  | baseClockResume
  /-- SEAL_LOOP_CONTINUOUS (R378). The SEAL_A pattern returns on SEAL_B for 16 consecutive bits, so the seal loop becomes continuous and SEAL_OK rises. -/
  | sealLoopContinuous
  /-- CORE_RESET_RELEASE (R408). Once a crashed core's outstanding bus requests have completed or timed out, its reset is released at ENTRY with a1 = cause and FW_CORE_STS leaves RESTARTING. -/
  | coreResetRelease (c : Fin 4)
  /-- DEBUG_HALT (R377). Through the unlocked debug module, a core is halted and FW_CORE_STS shows HALTED. -/
  | debugHalt (core : DbgCore)
  /-- DEBUG_RESUME (R377). Through the unlocked debug module, a halted core resumes execution. -/
  | debugResume (core : DbgCore)
  /-- KEEPER_TRAP_HALT (R406). A Keeper core takes a trap inside its own trap handler and halts until the Keeper watchdog ends the halt. -/
  | keeperTrapHalt (k : Fin 2)
  /-- NET_SERVICE_FRAME (R337). A non-TMP frame reaches a NET or SVC port: ARP, neighbour discovery and ICMP echo are answered in hardware, and frames for other addresses or ports are dropped and counted. -/
  | netServiceFrame (port : Fin 3) (frame : ServiceFrame) (vid : Option (BitVec 12) := none) (fec : FecCount := {})
deriving DecidableEq, Repr

end Sys2Proof
end

