-- ==== Sys2Proof/Decode.lean ====
section
/-! DEFINITION. The table of operations and events gives none of its rows bits: the block has no instruction words, and a
command reaches it as a term of Instr. So no word spells a command. -/

namespace Sys2Proof

/-- The command that a word spells by the table's bits: the table gives no row any (log entry 1). -/
def decodeTableWord (_nbits _w : Nat) : Option Instr := none

end Sys2Proof
end

