-- ==== Sys2Proof/Config.lean ====
section
/-! DEFINITION. What the spec leaves open or takes from elsewhere, as constants without a body: free values, drawn by a
counter of State, and the cryptographic functions that the spec names and other standards define. -/

namespace Sys2Proof

/-- The n-th free value: any number (log entry 4). -/
opaque Config.free : Nat → Nat

/-- Which of the results within 1 ulp RECIP and RSQRT give (R133): the same on every T8. -/
opaque Config.recip : Nat → Nat
opaque Config.rsqrt : Nat → Nat

/-- Ed25519: does the signature verify under the public key for the message? -/
opaque Config.ed25519 : List Byte → List Byte → List Byte → Bool

/-- ML-DSA-65: does the signature verify under the public key for the message? -/
opaque Config.mldsa65 : List Byte → List Byte → List Byte → Bool

/-- SHA-384 of a byte string. -/
opaque Config.sha384 : List Byte → List Byte

/-- The order of two writes that reach one place with one result cycle, where R138 and R174 do not fix it; the argument
says which kinds of writes meet. -/
opaque Config.order : Nat → Nat

/-- Whether a Control-core image loaded into [first, last) of Top SRAM leaves room for the log ring and the commit area,
whose sizes the spec does not give (R398). -/
opaque Config.fwRoom : Nat → Nat → Bool

/-- The PUF response that the on-die PUF gives with the helper data of OTP: 256 bits, of this die (R365). -/
opaque Config.puf : List Byte

/-- The signature pair (Ed25519, then ML-DSA-65) for a message under the keys of two private seeds; the number tells apart the signatures
of a randomised scheme (R65, R366). -/
opaque Config.seedSign : List Byte → List Byte → Nat → List Byte → List Byte

/-- The public keys of two private seeds, Ed25519 and then ML-DSA-65 (R365, R382). -/
opaque Config.seedPub : List Byte → List Byte → List Byte

/-- The T8's half of a session's key exchange (R343): its ephemeral X25519 public key (32 bytes) and the ML-KEM-768 ciphertext (1,088),
for the n-th exchange, from the host's two public keys. -/
opaque Config.kexReply : Nat → List Byte → List Byte → List Byte

/-- The two shared secrets of the same exchange, X25519 first (R344). -/
opaque Config.kexSecret : Nat → List Byte → List Byte → List Byte

/-- HKDF over SHA-384 (R344): input keying material, salt, info string. -/
opaque Config.hkdf : List Byte → List Byte → List Byte → List Byte

/-- AES-256-GCM (R342): key, nonce, additional data, plain text; the result is the cipher text and its 16-byte tag. -/
opaque Config.gcmSeal : List Byte → List Byte → List Byte → List Byte → List Byte

/-- The inverse: the plain text when the tag is right. -/
opaque Config.gcmOpen : List Byte → List Byte → List Byte → List Byte → Option (List Byte)

/-- The TYPE codes of OPEN_REQ, OPEN_CHAL, OPEN_PROOF, OPEN_ACK and OPEN_ERR (0 to 4), which R352 does not list. -/
opaque Config.openType : Nat → Nat

/-- The owner's two public keys (Ed25519, ML-DSA-65) whose digest an owner-key slot holds (R369): where the key store takes them from
for R372 and R376 the spec does not say. -/
opaque Config.ownerKeys : List Byte → List Byte × List Byte

/-- The key of a settings record within its type, whose place in the record the spec does not give (R61). -/
opaque Config.settingKey : List Byte → Nat

/-- The addresses of the firmware's spinlocks in Top SRAM (R401, R409). The spec places none of them. -/
opaque Config.lockWords : List Nat

/-- Where the commit area of the cap loop stands in Top SRAM (R402), which the spec does not say. -/
opaque Config.commitOfs : Nat

end Sys2Proof
end

