-- ==== Sys2Proof/Machine/Events.lean ====
section
/-! DEFINITION. Event codes (R417) and the UNIT numbers of event sources (R416). -/

namespace Sys2Proof.Machine

def EVT_SIL_MODE : Nat := 0x0001
def EVT_SIL_OVF : Nat := 0x0002
def EVT_SIL_FULL : Nat := 0x0003
def EVT_SIL_NVM_LOST : Nat := 0x0004
def EVT_RWT_REJECT : Nat := 0x0005
def EVT_RWA_LOCKED : Nat := 0x0006
def EVT_RESET : Nat := 0x0101
def EVT_PWR_STATE : Nat := 0x0102
def EVT_PWR_REFUSED : Nat := 0x0103
def EVT_WSAVE_LOST : Nat := 0x0104
def EVT_TOP_BRINGUP : Nat := 0x0105
def EVT_BOW_DIP : Nat := 0x0106
def EVT_NVM_ROLLBACK : Nat := 0x0107
def EVT_CLKFAIL : Nat := 0x0201
def EVT_CLKRESTORE : Nat := 0x0202
def EVT_IOSC_DEAD : Nat := 0x0203
def EVT_GATE_BUSY : Nat := 0x0204
def EVT_SEQ_FAIL : Nat := 0x0301
def EVT_SEQ_DONE : Nat := 0x0302
def EVT_SEQ_REFUSED : Nat := 0x0303
def EVT_SEQ_DISCH : Nat := 0x0304
def EVT_SEQ_CLEAR : Nat := 0x0305
def EVT_SEQ_INLOSS : Nat := 0x0306
def EVT_SEQ_MARGIN : Nat := 0x0307
def EVT_TAMP_AMBER : Nat := 0x0401
def EVT_TAMP_RED : Nat := 0x0402
def EVT_TAMP_BLACK : Nat := 0x0403
def EVT_TAMP_RELEASE : Nat := 0x0404
def EVT_TAMP_STALE : Nat := 0x0405
def EVT_TAMP_CRIT : Nat := 0x0406
def EVT_TAMP_TD_FAULT : Nat := 0x0407
def EVT_TAMP_CLEAR : Nat := 0x0408
def EVT_FAN_KICK : Nat := 0x0501
def EVT_FAN_STALL : Nat := 0x0502
def EVT_FAN_CLEAR : Nat := 0x0503
def EVT_FAN_TACH_LOST : Nat := 0x0504
def EVT_FAN_TACH_BACK : Nat := 0x0505
def EVT_PMP_FLOW_LOW : Nat := 0x0506
def EVT_HWDT_EXPIRE : Nat := 0x0507
def EVT_HWDT_RESUME : Nat := 0x0508
def EVT_CWDT : Nat := 0x0509
def EVT_LEAK : Nat := 0x050A
def EVT_LEAK_OPEN : Nat := 0x050B
def EVT_LEAK_CLEAR : Nat := 0x050C
def EVT_CONS_AUTH : Nat := 0x050D
def EVT_CONS_EXPIRED : Nat := 0x050E
def EVT_CONS_LIFE : Nat := 0x050F
def EVT_TW_STUCK : Nat := 0x0601
def EVT_TW_DISABLED : Nat := 0x0602
def EVT_TW_RECOVER : Nat := 0x0603
def EVT_TW_ARB : Nat := 0x0604
def EVT_TW_TIMEOUT : Nat := 0x0605
def EVT_TW_ALERT_STUCK : Nat := 0x0606
def EVT_TW_WAKE : Nat := 0x0607
def EVT_ACD_SKIP : Nat := 0x0701
def EVT_ACD_RELOAD : Nat := 0x0702
def EVT_ACD_LIVE : Nat := 0x0703
def EVT_ACD_PENDING : Nat := 0x0704
def EVT_FP_CHANGE : Nat := 0x0705
def EVT_KEY_PUF : Nat := 0x0801
def EVT_KEY_CHANGE : Nat := 0x0802
def EVT_DBG_UNLOCK : Nat := 0x0803
def EVT_DBG_LOCK : Nat := 0x0804
def EVT_DBG_REFUSED : Nat := 0x0805
def EVT_PRES_OPEN : Nat := 0x0806
def EVT_PRES_CLOSE : Nat := 0x0807
def EVT_SEAL_BROKEN : Nat := 0x0808
def EVT_IMG_REFUSED : Nat := 0x0809
def EVT_ACT_WAIT : Nat := 0x080A
def EVT_ACT_DONE : Nat := 0x080B
def EVT_SET_RESET : Nat := 0x080C
def EVT_BRG_LOST : Nat := 0x0901
def EVT_BRG_TRAIN : Nat := 0x0902
def EVT_BRG_REPLAY : Nat := 0x0903
def EVT_BRG_TIMEOUT : Nat := 0x0904
def EVT_BRG_BLOCKED : Nat := 0x0905
def EVT_KFW_NONE : Nat := 0x0A01
def EVT_CORE_CRASH : Nat := 0x0A02
def EVT_INF_FAULT : Nat := 0x1001
def EVT_INF_REFUSED : Nat := 0x1002
def EVT_INF_LOAD : Nat := 0x1003
def EVT_INF_WPROT : Nat := 0x1004
def EVT_INF_OUTQ : Nat := 0x1005
def EVT_INF_ROLLBACK : Nat := 0x1006
def EVT_HNT_DROP : Nat := 0x1101
def EVT_SIG_DUP : Nat := 0x1102
def EVT_TL_LOS : Nat := 0x1201
def EVT_TL_TRAIN : Nat := 0x1202
def EVT_TL_BC : Nat := 0x1203
def EVT_TLF_MAP_ECC : Nat := 0x1204
def EVT_REC_DROP : Nat := 0x1205
def EVT_REC_CFG : Nat := 0x1206
def EVT_REC_CRC : Nat := 0x1207
def EVT_LP_UNCORR : Nat := 0x1208
def EVT_LP_LOST : Nat := 0x1209
def EVT_SES_OPEN : Nat := 0x1301
def EVT_SES_CLOSE : Nat := 0x1302

def UNIT_SIL : Nat := 0x00
def UNIT_PWRST : Nat := 0x01
def UNIT_CLK : Nat := 0x02
def UNIT_SEQ : Nat := 0x03
def UNIT_TAMP : Nat := 0x04
def UNIT_COOL : Nat := 0x05
def UNIT_TW : Nat := 0x06
def UNIT_ACD : Nat := 0x07
def UNIT_KEY : Nat := 0x08
def UNIT_BRG : Nat := 0x09
def UNIT_INF : Nat := 0x10
def UNIT_HNT : Nat := 0x11
def UNIT_TL : Nat := 0x12
def UNIT_TFAB : Nat := 0x13
def UNIT_LPC : Nat := 0x14
def UNIT_NET : Nat := 0x15
def UNIT_SES : Nat := 0x16
def UNIT_SEC : Nat := 0x17
def UNIT_CFW : Nat := 0x18
def UNIT_KFW : Nat := 0x19

/-- ACC of an event that belongs to no accelerator or to the tray (R416). -/
def ACC_TRAY : Nat := 8

end Sys2Proof.Machine
end

