-- ==== Sys2Proof/Machine/Operands.lean ====
section
/-! DEFINITION. Operand forms: bit fields, two's complement, byte order (little-endian throughout, R9, R414), the fixed
point forms of R14, and the payloads of event records (R445). -/

namespace Sys2Proof.Machine

/-- Bits [lo + w - 1 : lo] of a number. -/
def bitsOf (x lo w : Nat) : Nat := x / 2 ^ lo % 2 ^ w

/-- Bit i of a number. -/
def bitOf (x i : Nat) : Bool := x / 2 ^ i % 2 == 1

/-- The number x with bit i made b. -/
def setBitOf (x i : Nat) (b : Bool) : Nat :=
  if bitOf x i == b then x else if b then x + 2 ^ i else x - 2 ^ i

/-- 1 for true, 0 for false. -/
def b2n (b : Bool) : Nat := if b then 1 else 0

/-- How many of the bits below w are 1. -/
def popCount : Nat → Nat → Nat
  | 0, _ => 0
  | w + 1, x => x % 2 + popCount w (x / 2)

/-- The numbers of the bits below w that are 1, ascending. -/
def bitList (w x : Nat) : List Nat := (List.range w).filter (bitOf x)

/-- The mask with one bit for each number of a list that p holds of. -/
def maskOf (w : Nat) (p : Nat → Bool) : Nat := (List.range w).foldl (fun a i => if p i then a + 2 ^ i else a) 0

/-- The number that a list of bytes spells, lowest byte first. -/
def leNat : List Byte → Nat
  | [] => 0
  | b :: t => b.toNat + 256 * leNat t

/-- The k bytes of a number, lowest byte first. -/
def leBytes : Nat → Nat → List Byte
  | 0, _ => []
  | k + 1, x => BitVec.ofNat 8 x :: leBytes k (x / 256)

/-- The n-byte field at offset o of a byte string, lowest byte first; bytes past the end count as 0. -/
def leAt (bs : List Byte) (o n : Nat) : Nat := leNat ((bs.drop o).take n)

/-- The bytes [o, o + n) of a byte string. -/
def slice (bs : List Byte) (o n : Nat) : List Byte := (bs.drop o).take n

/-- A byte string cut or zero-filled to n bytes. -/
def padTo (n : Nat) (bs : List Byte) : List Byte := bs.take n ++ List.replicate (n - bs.length) 0

/-- A w-bit number read as two's complement. -/
def sgn (w x : Nat) : Int :=
  if x % 2 ^ w < 2 ^ (w - 1) then ((x % 2 ^ w : Nat) : Int) else ((x % 2 ^ w : Nat) : Int) - ((2 ^ w : Nat) : Int)

/-- The w-bit two's complement form of an integer. -/
def unsgn (w : Nat) (x : Int) : Nat := (x % ((2 ^ w : Nat) : Int)).toNat

/-- An integer held within bounds. -/
def clampI (lo hi x : Int) : Int := if x < lo then lo else if hi < x then hi else x

/-- A number held within bounds. -/
def clampN (lo hi x : Nat) : Nat := if x < lo then lo else if hi < x then hi else x

/-- The magnitude of an integer. -/
def absI (x : Int) : Nat := x.natAbs

/-- The Q8.8 form of a whole number of degrees Celsius (R14). -/
def degC (t : Int) : Nat := unsgn 16 (t * 256)

/-- The 40-byte payload of an event record from (offset, size, value) entries, each little-endian (R445). Every byte that
no entry names is 0. -/
def payload (es : List (Nat × Nat × Nat)) : BitVec 320 :=
  BitVec.ofNat 320 (es.foldl (fun a e => a + (e.2.2 % 256 ^ e.2.1) * 256 ^ e.1) 0)

/-- The CRC-32C of a byte string: reflected polynomial 0x82F63B78, initial value and final complement all ones. -/
def crc32cBit (c : Nat) : Nat := if c % 2 == 1 then (c / 2) ^^^ 0x82F63B78 else c / 2

def crc32cByte (c : Nat) (b : Byte) : Nat :=
  let c := c ^^^ b.toNat
  crc32cBit (crc32cBit (crc32cBit (crc32cBit (crc32cBit (crc32cBit (crc32cBit (crc32cBit c)))))))

def crc32c (bs : List Byte) : Nat := (bs.foldl crc32cByte 0xFFFFFFFF) ^^^ 0xFFFFFFFF

/-- The CRC-8 of SMBus packet error codes: polynomial x^8 + x^2 + x + 1, initial value 0. -/
def crc8Bit (c : Nat) : Nat := if c / 128 % 2 == 1 then (c * 2 % 256) ^^^ 0x07 else c * 2 % 256

def crc8Byte (c : Nat) (b : Byte) : Nat :=
  let c := c ^^^ b.toNat
  crc8Bit (crc8Bit (crc8Bit (crc8Bit (crc8Bit (crc8Bit (crc8Bit (crc8Bit c)))))))

def crc8 (bs : List Byte) : Nat := bs.foldl crc8Byte 0

end Sys2Proof.Machine
end

