-- ==== Sys2Proof/Machine/Flags.lean ====
section
/-! DEFINITION. Status and counter arithmetic shared by every unit: counters that saturate at the top of their field,
and the comparison of a field's held and written value that R12 asks for. -/

namespace Sys2Proof.Machine

/-- The largest value of a w-bit field. -/
def fieldMax (w : Nat) : Nat := 2 ^ w - 1

/-- A w-bit counter after k more counts: it saturates at its largest value. -/
def satCount (w held k : Nat) : Nat := min (fieldMax w) (held + k)

/-- The bits of a held w-bit status field after a write: W1C clears the bits written 1 (R11). -/
def w1cClear (w held written : Nat) : Nat := maskOf w (fun i => bitOf held i && !bitOf written i)

/-- The bits of a held w-bit field after a write: W1S sets the bits written 1 (R11). -/
def w1sSet (w held written : Nat) : Nat := maskOf w (fun i => bitOf held i || bitOf written i)

end Sys2Proof.Machine
end

