-- ==== Sys2Proof/Machine/RegMap.lean ====
section
/-! DEFINITION. The register map: every register field of the spec's register tables (R41, R66, R91, R120, R163, R190,
R220 to R222, R251, R282, R310, R336, R362 to R364, R394, R395, R412, R413, R430) as a named Fld: address, lowest bit,
width, access code (R11), reset value and retention class (R13). A field of a register with instances is a function of
the instance numbers. regRows lists the fields block by block, with the counts and strides of their instances, for the
accesses that come by address. A reset value that the spec gives as "from OTP", "from NVM", "cause" or "sampled" is 0
here and set by the operation that loads it (log entry 6). -/

namespace Sys2Proof.Machine

/-- Field access codes (R11). -/
inductive Acc where
  | rw | ro | wo | w1c | w1s | rwt | rwa
deriving DecidableEq, Repr

/-- Retention classes (R13, R110). -/
inductive Ret where
  | p | k | w | c | v
deriving DecidableEq, Repr

/-- One register field: the register's address, the field's lowest bit and width, its access code, reset value and
retention class. -/
structure Fld where
  addr : Nat
  lo : Nat
  w : Nat
  acc : Acc
  rst : Nat
  ret : Ret
deriving DecidableEq, Repr

/-- The one key of a field: no two fields share an address and a lowest bit. -/
def Fld.key (f : Fld) : Nat := f.addr * 32 + f.lo

/-- A row of the map: the field of instance 0 and, outermost first, the (count, stride) of each instance number. -/
structure RegRow where
  fld : Fld
  dims : List (Nat × Nat)
deriving DecidableEq, Repr


-- BRG_CTL — offset 0x000 — Bridge control (R41)
def BRG_CTL.FENCE : Fld := ⟨0x20090000, 0, 1, .w1s, 0x0, .v⟩
def BRG_CTL.RETRAIN : Fld := ⟨0x20090000, 1, 1, .w1s, 0x0, .v⟩
def BRG_CTL.REPLAY_MAX : Fld := ⟨0x20090000, 4, 2, .rwa, 0x2, .k⟩
def BRG_CTL.LIVE_TO : Fld := ⟨0x20090000, 8, 2, .rwa, 0x1, .k⟩
def BRG_CTL.RD_TO : Fld := ⟨0x20090000, 12, 2, .rwa, 0x1, .k⟩

-- BRG_STS — offset 0x004 — Bridge status (R41)
def BRG_STS.STATE : Fld := ⟨0x20090004, 0, 3, .ro, 0x0, .v⟩
def BRG_STS.TOP_LOST : Fld := ⟨0x20090004, 3, 1, .w1c, 0x0, .k⟩
def BRG_STS.TRAIN_FAIL : Fld := ⟨0x20090004, 4, 1, .w1c, 0x0, .k⟩
def BRG_STS.REPLAY_EXH : Fld := ⟨0x20090004, 5, 1, .w1c, 0x0, .k⟩
def BRG_STS.RD_TIMEOUT : Fld := ⟨0x20090004, 6, 1, .w1c, 0x0, .k⟩
def BRG_STS.GUARD_STALE : Fld := ⟨0x20090004, 7, 1, .ro, 0x1, .v⟩
def BRG_STS.BLOCKED : Fld := ⟨0x20090004, 8, 1, .w1c, 0x0, .k⟩
def BRG_STS.LOST_FB : Fld := ⟨0x20090004, 9, 1, .ro, 0x0, .k⟩

-- BRG_ECC_CNT — offset 0x008 — Bridge check-bit counters (R41)
def BRG_ECC_CNT.CORR : Fld := ⟨0x20090008, 0, 16, .ro, 0x0, .k⟩
def BRG_ECC_CNT.UNCORR : Fld := ⟨0x20090008, 16, 16, .ro, 0x0, .k⟩

-- BRG_CNT_CLR — offset 0x00C — Bridge counter clear (R41)
def BRG_CNT_CLR.CLR : Fld := ⟨0x2009000C, 0, 1, .wo, 0x0, .v⟩

-- BRG_SEQ — offset 0x010 — Last BULK sequence number (R41)
def BRG_SEQ.BULK_RX : Fld := ⟨0x20090010, 0, 16, .ro, 0x0, .k⟩

-- BRG_LOST_TS_LO — offset 0x014 — Top-lost timestamp, low word (R41)
def BRG_LOST_TS_LO.TS_LO : Fld := ⟨0x20090014, 0, 32, .ro, 0x0, .k⟩

-- BRG_LOST_TS_HI — offset 0x018 — Top-lost timestamp, high word (R41)
def BRG_LOST_TS_HI.TS_HI : Fld := ⟨0x20090018, 0, 32, .ro, 0x0, .k⟩

-- BRG_EVT_CNT — offset 0x01C — Bridge event counters (R41)
def BRG_EVT_CNT.UP_CNT : Fld := ⟨0x2009001C, 0, 16, .ro, 0x0, .k⟩
def BRG_EVT_CNT.LOST_CNT : Fld := ⟨0x2009001C, 16, 16, .ro, 0x0, .k⟩

-- BRG_HOLD — offset 0x020 — Top-tier output hold after loss (R41)
def BRG_HOLD.HOLD : Fld := ⟨0x20090020, 0, 3, .rwa, 0x4, .k⟩
def BRG_HOLD.STEP : Fld := ⟨0x20090020, 8, 8, .rwa, 0xA, .k⟩

-- BRG_LOG_MSEQ — offset 0x024 — Log mirror sequence (R41)
def BRG_LOG_MSEQ.MSEQ : Fld := ⟨0x20090024, 0, 32, .ro, 0xFFFFFFFF, .k⟩

-- ACD_STS — offset 0x000 — Accord status (R66)
def ACD_STS.STATE : Fld := ⟨0x20070000, 0, 3, .ro, 0x0, .k⟩
def ACD_STS.SLOT : Fld := ⟨0x20070000, 3, 1, .ro, 0x0, .k⟩
def ACD_STS.PENDING : Fld := ⟨0x20070000, 4, 1, .ro, 0x0, .k⟩
def ACD_STS.RELOAD_FAIL : Fld := ⟨0x20070000, 5, 1, .w1c, 0x0, .k⟩
def ACD_STS.OTHER_REFUSED : Fld := ⟨0x20070000, 6, 1, .ro, 0x0, .k⟩
def ACD_STS.FAIL_STEP : Fld := ⟨0x20070000, 8, 4, .ro, 0x0, .k⟩
def ACD_STS.FAIL_REC : Fld := ⟨0x20070000, 16, 16, .ro, 0xFFFF, .k⟩

-- ACD_INFO — offset 0x004 — Running Accord summary (R66)
def ACD_INFO.ACC_COUNT : Fld := ⟨0x20070004, 0, 4, .ro, 0x0, .k⟩
def ACD_INFO.LP_CAP : Fld := ⟨0x20070004, 8, 8, .ro, 0x0, .k⟩
def ACD_INFO.SET_FMT : Fld := ⟨0x20070004, 16, 16, .ro, 0x0, .k⟩

-- ACD_ROLLBACK — offset 0x008 — Running Accord anti-rollback counter (R66)
def ACD_ROLLBACK.CTR : Fld := ⟨0x20070008, 0, 32, .ro, 0x0, .k⟩

-- ACD_TRAY_TYPE — offset 0x00C — Tray type (R66)
def ACD_TRAY_TYPE.TYPE : Fld := ⟨0x2007000C, 0, 32, .ro, 0x0, .k⟩

-- ACD_EPOCH_LO — offset 0x010 — Settings epoch, low word (R66)
def ACD_EPOCH_LO.EPOCH_LO : Fld := ⟨0x20070010, 0, 32, .ro, 0x0, .p⟩

-- ACD_EPOCH_HI — offset 0x014 — Settings epoch, high word (R66)
def ACD_EPOCH_HI.EPOCH_HI : Fld := ⟨0x20070014, 0, 32, .ro, 0x0, .p⟩

-- ACD_FPGEN — offset 0x018 — Fingerprint generation (R66)
def ACD_FPGEN.GEN : Fld := ⟨0x20070018, 0, 32, .ro, 0x0, .k⟩

-- ACD_FP_CTL — offset 0x01C — Fingerprint snapshot control (R66)
def ACD_FP_CTL.SNAP : Fld := ⟨0x2007001C, 0, 1, .wo, 0x0, .v⟩

-- ACD_FP_SNAPGEN — offset 0x020 — Snapshot generation (R66)
def ACD_FP_SNAPGEN.GEN : Fld := ⟨0x20070020, 0, 32, .ro, 0x0, .v⟩

-- ACD_FP_SNAPEP_LO — offset 0x024 — Snapshot settings epoch, low word (R66)
def ACD_FP_SNAPEP_LO.EP_LO : Fld := ⟨0x20070024, 0, 32, .ro, 0x0, .v⟩

-- ACD_FP_SNAPEP_HI — offset 0x028 — Snapshot settings epoch, high word (R66)
def ACD_FP_SNAPEP_HI.EP_HI : Fld := ⟨0x20070028, 0, 32, .ro, 0x0, .v⟩

-- ACD_FP0 to ACD_FP11 — offsets 0x040 to 0x06C — Fingerprint snapshot (R66)
def ACD_FP.FP (n : Nat) : Fld := ⟨0x20070040 + n * 0x4, 0, 32, .ro, 0x0, .v⟩

-- ACD_IMG_DG0 to ACD_IMG_DG11 — offsets 0x080 to 0x0AC — Accord image digest (R66)
def ACD_IMG_DG.DG (n : Nat) : Fld := ⟨0x20070080 + n * 0x4, 0, 32, .ro, 0x0, .k⟩

-- ACD_SET_DG0 to ACD_SET_DG11 — offsets 0x0C0 to 0x0EC — Settings digest (R66)
def ACD_SET_DG.DG (n : Nat) : Fld := ⟨0x200700C0 + n * 0x4, 0, 32, .ro, 0x0, .k⟩

-- ACD_STRUCT_DG0 to ACD_STRUCT_DG11 — offsets 0x100 to 0x12C — Boot-record digest (R66)
def ACD_STRUCT_DG.DG (n : Nat) : Fld := ⟨0x20070100 + n * 0x4, 0, 32, .ro, 0x0, .k⟩

-- ACD_CEIL_PWR — offset 0x140 — Power ceilings (R66)
def ACD_CEIL_PWR.ACC_PMAX : Fld := ⟨0x20070140, 0, 12, .ro, 0x0, .p⟩
def ACD_CEIL_PWR.TRAY_PMAX : Fld := ⟨0x20070140, 16, 12, .ro, 0x0, .p⟩

-- ACD_CEIL_TEMP — offset 0x144 — Temperature ceiling (R66)
def ACD_CEIL_TEMP.TJ_RED_MAX : Fld := ⟨0x20070144, 0, 16, .ro, 0x0, .p⟩

-- ACD_CEIL_MISC — offset 0x148 — Further ceilings (R66)
def ACD_CEIL_MISC.VOFS_MAX : Fld := ⟨0x20070148, 0, 8, .ro, 0x0, .p⟩
def ACD_CEIL_MISC.MARGIN_MAX : Fld := ⟨0x20070148, 8, 8, .ro, 0x0, .p⟩
def ACD_CEIL_MISC.FAN_MIN : Fld := ⟨0x20070148, 16, 8, .ro, 0x0, .p⟩
def ACD_CEIL_MISC.HWDT_MAX : Fld := ⟨0x20070148, 24, 8, .ro, 0x0, .p⟩

-- CLK_CTL — offset 0x000 — Clock control (R90)
def CLK_CTL.REF_SEL : Fld := ⟨0x20000000, 0, 1, .rwa, 0x0, .k⟩
def CLK_CTL.AUTO_RET : Fld := ⟨0x20000000, 1, 1, .rwa, 0x1, .k⟩
def CLK_CTL.RESTORE : Fld := ⟨0x20000000, 2, 1, .w1s, 0x0, .v⟩
def CLK_CTL.FORCE_IOSC : Fld := ⟨0x20000000, 3, 1, .rw, 0x0, .k⟩

-- CLK_STS — offset 0x004 — Clock status (R90)
def CLK_STS.BASE_SRC : Fld := ⟨0x20000004, 0, 2, .ro, 0x1, .v⟩
def CLK_STS.REF_OK : Fld := ⟨0x20000004, 2, 1, .ro, 0x0, .v⟩
def CLK_STS.IOSC_RDY : Fld := ⟨0x20000004, 3, 1, .ro, 0x0, .v⟩
def CLK_STS.LFO_CAL_VALID : Fld := ⟨0x20000004, 4, 1, .ro, 0x0, .k⟩
def CLK_STS.FB : Fld := ⟨0x20000004, 5, 1, .ro, 0x1, .v⟩
def CLK_STS.CLKFAIL : Fld := ⟨0x20000004, 6, 1, .w1c, 0x0, .k⟩
def CLK_STS.FB_LATE : Fld := ⟨0x20000004, 7, 1, .w1c, 0x0, .k⟩
def CLK_STS.AUTO_RET_OFF : Fld := ⟨0x20000004, 8, 1, .ro, 0x0, .k⟩
def CLK_STS.IOSC_BAD : Fld := ⟨0x20000004, 9, 1, .ro, 0x0, .k⟩
def CLK_STS.IOSC_DEAD : Fld := ⟨0x20000004, 10, 1, .w1c, 0x0, .k⟩
def CLK_STS.PLL0_LOCK : Fld := ⟨0x20000004, 11, 1, .ro, 0x0, .v⟩
def CLK_STS.PLL1_LOCK : Fld := ⟨0x20000004, 12, 1, .ro, 0x0, .v⟩
def CLK_STS.IOSC_BAD_SEEN : Fld := ⟨0x20000004, 13, 1, .w1c, 0x0, .k⟩

-- CLK_MON_CFG — offset 0x008 — Monitor configuration (R90)
def CLK_MON_CFG.RET_WIN : Fld := ⟨0x20000008, 0, 8, .rwa, 0x40, .k⟩
def CLK_MON_CFG.FLAP_MAX : Fld := ⟨0x20000008, 8, 4, .rwa, 0x4, .k⟩

-- CLK_FAIL_INFO — offset 0x00C — Last clock failure (R90)
def CLK_FAIL_INFO.CAUSE : Fld := ⟨0x2000000C, 0, 3, .ro, 0x0, .k⟩
def CLK_FAIL_INFO.FAIL_FB : Fld := ⟨0x2000000C, 3, 1, .ro, 0x0, .k⟩
def CLK_FAIL_INFO.FAIL_CNT : Fld := ⟨0x2000000C, 8, 8, .ro, 0x0, .k⟩
def CLK_FAIL_INFO.LAST_DEV : Fld := ⟨0x2000000C, 16, 16, .ro, 0x0, .k⟩

-- CLK_FAIL_TS_LO — offset 0x010 — Failure timestamp, low word (R90)
def CLK_FAIL_TS_LO.TS_LO : Fld := ⟨0x20000010, 0, 32, .ro, 0x0, .k⟩

-- CLK_FAIL_TS_HI — offset 0x014 — Failure timestamp, high word (R90)
def CLK_FAIL_TS_HI.TS_HI : Fld := ⟨0x20000014, 0, 32, .ro, 0x0, .k⟩

-- CLK_LFO_CAL — offset 0x018 — LFO calibration (R90)
def CLK_LFO_CAL.PERIOD : Fld := ⟨0x20000018, 0, 24, .ro, 0x773594, .k⟩

-- CLK_IOSC_TRIM — offset 0x01C — IOSC trim (R90)
def CLK_IOSC_TRIM.TRIM : Fld := ⟨0x2000001C, 0, 8, .ro, 0x0, .p⟩

-- CLK_HOST_CNT — offset 0x020 — Last check-H count (R90)
def CLK_HOST_CNT.COUNT : Fld := ⟨0x20000020, 0, 16, .ro, 0x0, .v⟩

-- CLK_IOSC_CNT — offset 0x024 — Last check-I count (R90)
def CLK_IOSC_CNT.COUNT : Fld := ⟨0x20000024, 0, 24, .ro, 0x0, .v⟩

-- CLK_TS_LO — offset 0x030 — Timestamp, low word (R90)
def CLK_TS_LO.TS_LO : Fld := ⟨0x20000030, 0, 32, .ro, 0x0, .k⟩

-- CLK_TS_HI — offset 0x034 — Timestamp, high word (R90)
def CLK_TS_HI.TS_HI : Fld := ⟨0x20000034, 0, 32, .ro, 0x0, .k⟩

-- CLK_TS_FB — offset 0x038 — Timestamp flag (R90)
def CLK_TS_FB.FB : Fld := ⟨0x20000038, 0, 1, .ro, 0x1, .k⟩

-- CLK_FMC_CTL — offset 0x040 — FMC control (R90)
def CLK_FMC_CTL.MEAS : Fld := ⟨0x20000040, 0, 4, .rw, 0x0, .v⟩
def CLK_FMC_CTL.REF : Fld := ⟨0x20000040, 4, 4, .rw, 0x2, .v⟩
def CLK_FMC_CTL.GATE : Fld := ⟨0x20000040, 8, 5, .rw, 0xA, .v⟩
def CLK_FMC_CTL.TL_SEL : Fld := ⟨0x20000040, 13, 3, .rw, 0x0, .v⟩
def CLK_FMC_CTL.START : Fld := ⟨0x20000040, 16, 1, .w1s, 0x0, .v⟩
def CLK_FMC_CTL.ABORT : Fld := ⟨0x20000040, 17, 1, .w1s, 0x0, .v⟩

-- CLK_FMC_STS — offset 0x044 — FMC status (R90)
def CLK_FMC_STS.BUSY : Fld := ⟨0x20000044, 0, 1, .ro, 0x0, .v⟩
def CLK_FMC_STS.DONE : Fld := ⟨0x20000044, 1, 1, .w1c, 0x0, .v⟩
def CLK_FMC_STS.DISTURB : Fld := ⟨0x20000044, 2, 1, .ro, 0x0, .v⟩
def CLK_FMC_STS.NOCLK : Fld := ⟨0x20000044, 3, 1, .ro, 0x0, .v⟩

-- CLK_FMC_CNT_LO — offset 0x048 — FMC count, low word (R90)
def CLK_FMC_CNT_LO.CNT_LO : Fld := ⟨0x20000048, 0, 32, .ro, 0x0, .v⟩

-- CLK_FMC_CNT_HI — offset 0x04C — FMC count, high word (R90)
def CLK_FMC_CNT_HI.CNT_HI : Fld := ⟨0x2000004C, 0, 16, .ro, 0x0, .v⟩

-- CLK_GATE_REQ — offset 0x060 — Gate requests (R90)
def CLK_GATE_REQ.REQ : Fld := ⟨0x20000060, 0, 10, .rw, 0x0, .v⟩

-- CLK_GATE_STS — offset 0x064 — Gate status (R90)
def CLK_GATE_STS.GATED : Fld := ⟨0x20000064, 0, 10, .ro, 0x0, .v⟩

-- CLK_GATE_BUSY — offset 0x068 — Refused gates (R90)
def CLK_GATE_BUSY.GATE_BUSY : Fld := ⟨0x20000068, 0, 10, .w1c, 0x0, .k⟩

-- PWRST_STATE — offset 0x000 — Power state (R120)
def PWRST_STATE.CUR : Fld := ⟨0x20010000, 0, 2, .ro, 0x2, .v⟩
def PWRST_STATE.TGT : Fld := ⟨0x20010000, 2, 2, .ro, 0x2, .v⟩
def PWRST_STATE.BUSY : Fld := ⟨0x20010000, 4, 1, .ro, 0x0, .v⟩
def PWRST_STATE.TOP_FAIL : Fld := ⟨0x20010000, 5, 1, .w1c, 0x0, .k⟩
def PWRST_STATE.WSAVE_LOST : Fld := ⟨0x20010000, 6, 1, .w1c, 0x0, .k⟩

-- PWRST_CTL — offset 0x004 — Power and reset requests (R120)
def PWRST_CTL.REQ : Fld := ⟨0x20010004, 0, 2, .wo, 0x0, .v⟩
def PWRST_CTL.REQ_VALID : Fld := ⟨0x20010004, 2, 1, .wo, 0x0, .v⟩
def PWRST_CTL.TOP_RST : Fld := ⟨0x20010004, 3, 1, .w1s, 0x0, .v⟩
def PWRST_CTL.WARM_KEY : Fld := ⟨0x20010004, 8, 8, .wo, 0x0, .v⟩

-- PWRST_RST_CAUSE — offset 0x008 — Last reset cause (R120)
def PWRST_RST_CAUSE.COLD : Fld := ⟨0x20010008, 0, 1, .w1c, 0x0, .k⟩
def PWRST_RST_CAUSE.BOR : Fld := ⟨0x20010008, 1, 1, .w1c, 0x0, .k⟩
def PWRST_RST_CAUSE.WARM_PIN : Fld := ⟨0x20010008, 2, 1, .w1c, 0x0, .k⟩
def PWRST_RST_CAUSE.WARM_CMD : Fld := ⟨0x20010008, 3, 1, .w1c, 0x0, .k⟩
def PWRST_RST_CAUSE.KPR_WDT : Fld := ⟨0x20010008, 4, 1, .w1c, 0x0, .k⟩
def PWRST_RST_CAUSE.NVM_HOLD : Fld := ⟨0x20010008, 5, 1, .w1c, 0x0, .k⟩

-- PWRST_TOP_CAUSE — offset 0x00C — Last Top reset cause (R120)
def PWRST_TOP_CAUSE.KEEPER : Fld := ⟨0x2001000C, 0, 1, .w1c, 0x0, .k⟩
def PWRST_TOP_CAUSE.TOP_WDT : Fld := ⟨0x2001000C, 1, 1, .w1c, 0x0, .k⟩
def PWRST_TOP_CAUSE.HOST_CMD : Fld := ⟨0x2001000C, 2, 1, .w1c, 0x0, .k⟩
def PWRST_TOP_CAUSE.FENCE : Fld := ⟨0x2001000C, 3, 1, .w1c, 0x0, .k⟩
def PWRST_TOP_CAUSE.FAIL_RUN : Fld := ⟨0x2001000C, 8, 4, .rw, 0x0, .k⟩

-- PWRST_CORE_RST — offset 0x010 — Control-core restart (R120)
def PWRST_CORE_RST.RESTART : Fld := ⟨0x20010010, 0, 4, .w1s, 0x0, .v⟩

-- PWRST_RST_CNT — offset 0x014 — Reset counters (R120)
def PWRST_RST_CNT.WARM_CNT : Fld := ⟨0x20010014, 0, 8, .ro, 0x0, .k⟩
def PWRST_RST_CNT.TOP_CNT : Fld := ⟨0x20010014, 8, 8, .ro, 0x0, .k⟩

-- PWRST_CORE_CNT — offset 0x018 — Core restart counters (R120)
def PWRST_CORE_CNT.CNT : Fld := ⟨0x20010018, 0, 32, .ro, 0x0, .k⟩

-- PWRST_BO_STS — offset 0x01C — Brownout status (R120)
def PWRST_BO_STS.BOW_NOW : Fld := ⟨0x2001001C, 0, 1, .ro, 0x0, .v⟩
def PWRST_BO_STS.BOW_SEEN : Fld := ⟨0x2001001C, 1, 1, .w1c, 0x0, .k⟩
def PWRST_BO_STS.NVM_HELD : Fld := ⟨0x2001001C, 2, 1, .ro, 0x0, .v⟩
def PWRST_BO_STS.DIP_FB : Fld := ⟨0x2001001C, 3, 1, .ro, 0x0, .k⟩

-- PWRST_BO_CTL — offset 0x020 — Brownout control (R120)
def PWRST_BO_CTL.BOW_IE : Fld := ⟨0x20010020, 0, 1, .rw, 0x1, .k⟩

-- PWRST_DIP_V — offset 0x024 — Last dip voltage (R120)
def PWRST_DIP_V.MIN_MV : Fld := ⟨0x20010024, 0, 12, .ro, 0x0, .k⟩
def PWRST_DIP_V.DIP_CNT : Fld := ⟨0x20010024, 16, 8, .ro, 0x0, .k⟩

-- PWRST_DIP_DUR — offset 0x028 — Last dip duration (R120)
def PWRST_DIP_DUR.DUR_US : Fld := ⟨0x20010028, 0, 32, .ro, 0x0, .k⟩

-- PWRST_DIP_TS_LO — offset 0x02C — Dip timestamp, low word (R120)
def PWRST_DIP_TS_LO.TS_LO : Fld := ⟨0x2001002C, 0, 32, .ro, 0x0, .k⟩

-- PWRST_DIP_TS_HI — offset 0x030 — Dip timestamp, high word (R120)
def PWRST_DIP_TS_HI.TS_HI : Fld := ⟨0x20010030, 0, 32, .ro, 0x0, .k⟩

-- PWRST_VIN — offset 0x034 — VIN_AO reading (R120)
def PWRST_VIN.VIN_MV : Fld := ⟨0x20010034, 0, 12, .ro, 0x0, .v⟩

-- PWRST_WAKE_EN — offset 0x040 — Wake enables (R120)
def PWRST_WAKE_EN.EN : Fld := ⟨0x20010040, 0, 11, .rw, 0x0, .k⟩

-- PWRST_WAKE_TGT — offset 0x044 — Wake targets (R120)
def PWRST_WAKE_TGT.TGT : Fld := ⟨0x20010044, 0, 11, .rw, 0x0, .k⟩

-- PWRST_WAKE_STS — offset 0x048 — Wake status (R120)
def PWRST_WAKE_STS.SRC : Fld := ⟨0x20010048, 0, 11, .w1c, 0x0, .k⟩

-- PWRST_WAKE_TMR — offset 0x04C — Wake timer (R120)
def PWRST_WAKE_TMR.MS : Fld := ⟨0x2001004C, 0, 24, .rw, 0x0, .k⟩

-- PWRST_TOP_CFG — offset 0x050 — Top-die power configuration (R120)
def PWRST_TOP_CFG.PG_TO : Fld := ⟨0x20010050, 0, 4, .rwa, 0x3, .k⟩
def PWRST_TOP_CFG.MAX_FAIL : Fld := ⟨0x20010050, 8, 2, .rwa, 0x3, .k⟩

-- PWRST_NVM_STS — offset 0x054 — NVM status (R120)
def PWRST_NVM_STS.BUSY : Fld := ⟨0x20010054, 0, 1, .ro, 0x0, .v⟩
def PWRST_NVM_STS.BANK : Fld := ⟨0x20010054, 1, 1, .ro, 0x0, .k⟩
def PWRST_NVM_STS.ROLLBACK_CNT : Fld := ⟨0x20010054, 8, 8, .ro, 0x0, .k⟩

-- PWRST_STRAP — offset 0x058 — Sampled straps (R120)
def PWRST_STRAP.THERM_CRIT : Fld := ⟨0x20010058, 0, 3, .ro, 0x0, .k⟩
def PWRST_STRAP.PRES_JMP : Fld := ⟨0x20010058, 3, 1, .ro, 0x0, .v⟩

-- INF_CAP — offset 0x000 — Engine capabilities (R163)
def INF_CAP.TILES : Fld := ⟨0x200000000, 0, 8, .ro, 0x20, .v⟩
def INF_CAP.CLUSTERS : Fld := ⟨0x200000000, 8, 4, .ro, 0x4, .v⟩
def INF_CAP.SLOTS : Fld := ⟨0x200000000, 16, 5, .ro, 0x10, .v⟩
def INF_CAP.VER : Fld := ⟨0x200000000, 24, 8, .ro, 0x1, .v⟩

-- INF_CTL — offset 0x004 — Engine control (R163)
def INF_CTL.RUN : Fld := ⟨0x200000004, 0, 1, .rw, 0x0, .v⟩
def INF_CTL.ADAPT_ALLOW : Fld := ⟨0x200000004, 1, 1, .rwa, 0x0, .v⟩
def INF_CTL.STOP_ALL : Fld := ⟨0x200000004, 2, 1, .w1s, 0x0, .v⟩

-- INF_STS — offset 0x008 — Engine status (R163)
def INF_STS.RUNNING : Fld := ⟨0x200000008, 0, 16, .ro, 0x0, .v⟩
def INF_STS.CL_BUSY : Fld := ⟨0x200000008, 16, 4, .ro, 0x0, .v⟩
def INF_STS.PLL1_OK : Fld := ⟨0x200000008, 20, 1, .ro, 0x0, .v⟩
def INF_STS.HELD : Fld := ⟨0x200000008, 21, 1, .ro, 0x0, .v⟩

-- INF_ERR — offset 0x00C — Sticky errors (R163)
def INF_ERR.WPROT : Fld := ⟨0x20000000C, 0, 1, .w1c, 0x0, .w⟩
def INF_ERR.OUTQ_DROP : Fld := ⟨0x20000000C, 1, 1, .w1c, 0x0, .w⟩
def INF_ERR.ECC_CORR : Fld := ⟨0x20000000C, 2, 1, .w1c, 0x0, .w⟩
def INF_ERR.ECC_UNCORR : Fld := ⟨0x20000000C, 3, 1, .w1c, 0x0, .w⟩
def INF_ERR.FAULT : Fld := ⟨0x20000000C, 4, 1, .w1c, 0x0, .w⟩
def INF_ERR.NAN : Fld := ⟨0x20000000C, 5, 1, .w1c, 0x0, .w⟩
def INF_ERR.SAT : Fld := ⟨0x20000000C, 6, 1, .w1c, 0x0, .w⟩

-- INF_ECC_CNT — offset 0x010 — Check-bit counters (R163)
def INF_ECC_CNT.CORR : Fld := ⟨0x200000010, 0, 16, .ro, 0x0, .w⟩
def INF_ECC_CNT.UNCORR : Fld := ⟨0x200000010, 16, 16, .ro, 0x0, .w⟩

-- INF_TAMP_VIEW — offset 0x014 — Tamp levels seen by the engine (R163)
def INF_TAMP_VIEW.LVL : Fld := ⟨0x200000014, 0, 16, .ro, 0x0, .v⟩

-- INF_OUTQ — offset 0x018 — Output queue (R163)
def INF_OUTQ.LEVEL : Fld := ⟨0x200000018, 0, 8, .ro, 0x0, .v⟩
def INF_OUTQ.DROP : Fld := ⟨0x200000018, 16, 16, .ro, 0x0, .w⟩

-- INF_UTIL — offset 0x01C — Cluster utilisation (R163)
def INF_UTIL.UTIL : Fld := ⟨0x20000001C, 0, 32, .ro, 0x0, .v⟩

-- INF_CNT_CLR — offset 0x020 — Counter clear (R163)
def INF_CNT_CLR.CLR : Fld := ⟨0x200000020, 0, 1, .wo, 0x0, .v⟩

-- INF_SLOTn_CTL — offset 0x100 + n × 0x40 + 0x00 — Slot control (R163)
def INF_SLOT_CTL.EN (n : Nat) : Fld := ⟨0x200000100 + n * 0x40, 0, 1, .rw, 0x0, .v⟩
def INF_SLOT_CTL.ABORT (n : Nat) : Fld := ⟨0x200000100 + n * 0x40, 1, 1, .w1s, 0x0, .v⟩
def INF_SLOT_CTL.STATE_INIT (n : Nat) : Fld := ⟨0x200000100 + n * 0x40, 2, 1, .w1s, 0x0, .v⟩
def INF_SLOT_CTL.CLR_FAULT (n : Nat) : Fld := ⟨0x200000100 + n * 0x40, 3, 1, .w1s, 0x0, .v⟩
def INF_SLOT_CTL.TRIG_EN (n : Nat) : Fld := ⟨0x200000100 + n * 0x40, 4, 1, .rw, 0x0, .v⟩
def INF_SLOT_CTL.ADAPT_EN (n : Nat) : Fld := ⟨0x200000100 + n * 0x40, 5, 1, .rw, 0x0, .v⟩
def INF_SLOT_CTL.NAN_POL (n : Nat) : Fld := ⟨0x200000100 + n * 0x40, 6, 1, .rw, 0x0, .v⟩
def INF_SLOT_CTL.ACC (n : Nat) : Fld := ⟨0x200000100 + n * 0x40, 8, 3, .rw, 0x0, .v⟩

-- INF_SLOTn_PERIOD — +0x04 — Slot period (R163)
def INF_SLOT_PERIOD.PERIOD (n : Nat) : Fld := ⟨0x200000104 + n * 0x40, 0, 17, .rw, 0x0, .v⟩

-- INF_SLOTn_PHASE — +0x08 — Slot phase (R163)
def INF_SLOT_PHASE.PHASE (n : Nat) : Fld := ⟨0x200000108 + n * 0x40, 0, 17, .rw, 0x0, .v⟩

-- INF_SLOTn_PROG — +0x0C — Loaded program summary (R163)
def INF_SLOT_PROG.CYC (n : Nat) : Fld := ⟨0x20000010C + n * 0x40, 0, 24, .ro, 0x0, .v⟩
def INF_SLOT_PROG.CLMASK (n : Nat) : Fld := ⟨0x20000010C + n * 0x40, 24, 4, .ro, 0x0, .v⟩
def INF_SLOT_PROG.NACT (n : Nat) : Fld := ⟨0x20000010C + n * 0x40, 28, 4, .ro, 0x0, .v⟩

-- INF_SLOTn_STS — +0x10 — Slot status (R163)
def INF_SLOT_STS.STATE (n : Nat) : Fld := ⟨0x200000110 + n * 0x40, 0, 3, .ro, 0x0, .v⟩
def INF_SLOT_STS.RUN (n : Nat) : Fld := ⟨0x200000110 + n * 0x40, 3, 1, .ro, 0x0, .v⟩
def INF_SLOT_STS.CAUSE (n : Nat) : Fld := ⟨0x200000110 + n * 0x40, 4, 4, .ro, 0x0, .w⟩
def INF_SLOT_STS.REFUSE (n : Nat) : Fld := ⟨0x200000110 + n * 0x40, 8, 4, .ro, 0x0, .v⟩
def INF_SLOT_STS.STATE_BAD (n : Nat) : Fld := ⟨0x200000110 + n * 0x40, 12, 1, .ro, 0x0, .v⟩
def INF_SLOT_STS.NAN (n : Nat) : Fld := ⟨0x200000110 + n * 0x40, 13, 1, .w1c, 0x0, .w⟩
def INF_SLOT_STS.SAT (n : Nat) : Fld := ⟨0x200000110 + n * 0x40, 14, 1, .w1c, 0x0, .w⟩
def INF_SLOT_STS.PEND (n : Nat) : Fld := ⟨0x200000110 + n * 0x40, 15, 1, .ro, 0x0, .v⟩

-- INF_SLOTn_RUNS — +0x14 — Runs completed (R163)
def INF_SLOT_RUNS.CNT (n : Nat) : Fld := ⟨0x200000114 + n * 0x40, 0, 32, .ro, 0x0, .w⟩

-- INF_SLOTn_SKIP — +0x18 — Skipped and late runs (R163)
def INF_SLOT_SKIP.SKIP (n : Nat) : Fld := ⟨0x200000118 + n * 0x40, 0, 16, .ro, 0x0, .w⟩
def INF_SLOT_SKIP.LATE (n : Nat) : Fld := ⟨0x200000118 + n * 0x40, 16, 16, .ro, 0x0, .w⟩

-- INF_SLOTn_DELAY — +0x1C — Start delay (R163)
def INF_SLOT_DELAY.MAX (n : Nat) : Fld := ⟨0x20000011C + n * 0x40, 0, 16, .ro, 0x0, .w⟩
def INF_SLOT_DELAY.LAST (n : Nat) : Fld := ⟨0x20000011C + n * 0x40, 16, 16, .ro, 0x0, .w⟩

-- INF_SLOTn_FPOS — +0x20 — Fault position (R163)
def INF_SLOT_FPOS.BUNDLE (n : Nat) : Fld := ⟨0x200000120 + n * 0x40, 0, 24, .ro, 0x0, .w⟩

-- INF_SLOTn_FCYC — +0x24 — Fault cycle (R163)
def INF_SLOT_FCYC.CYCLE (n : Nat) : Fld := ⟨0x200000124 + n * 0x40, 0, 24, .ro, 0x0, .w⟩

-- INF_SLOTn_ADCFG — +0x28 — Adaptation bounds (R163)
def INF_SLOT_ADCFG.STEP (n : Nat) : Fld := ⟨0x200000128 + n * 0x40, 0, 8, .rwa, 0x0, .v⟩
def INF_SLOT_ADCFG.BAND (n : Nat) : Fld := ⟨0x200000128 + n * 0x40, 8, 8, .rwa, 0x0, .v⟩
def INF_SLOT_ADCFG.WIN (n : Nat) : Fld := ⟨0x200000128 + n * 0x40, 16, 4, .rwa, 0x3, .v⟩
def INF_SLOT_ADCFG.ROLL_MAX (n : Nat) : Fld := ⟨0x200000128 + n * 0x40, 20, 3, .rwa, 0x2, .v⟩

-- INF_SLOTn_ADSTS — +0x2C — Adaptation status (R163)
def INF_SLOT_ADSTS.STATE (n : Nat) : Fld := ⟨0x20000012C + n * 0x40, 0, 2, .ro, 0x0, .v⟩
def INF_SLOT_ADSTS.ADAPT_RST (n : Nat) : Fld := ⟨0x20000012C + n * 0x40, 2, 1, .w1s, 0x0, .v⟩
def INF_SLOT_ADSTS.RUN_RB (n : Nat) : Fld := ⟨0x20000012C + n * 0x40, 4, 4, .ro, 0x0, .v⟩
def INF_SLOT_ADSTS.COMMITS (n : Nat) : Fld := ⟨0x20000012C + n * 0x40, 8, 16, .ro, 0x0, .w⟩
def INF_SLOT_ADSTS.ROLLBACKS (n : Nat) : Fld := ⟨0x20000012C + n * 0x40, 24, 8, .ro, 0x0, .w⟩

-- INF_SLOTn_ADREF — +0x30 — Adaptation outcomes (R163)
def INF_SLOT_ADREF.REFUSED (n : Nat) : Fld := ⟨0x200000130 + n * 0x40, 0, 16, .ro, 0x0, .w⟩
def INF_SLOT_ADREF.CONFIRMED (n : Nat) : Fld := ⟨0x200000130 + n * 0x40, 16, 16, .ro, 0x0, .w⟩

-- INF_SLOTn_SAT — +0x34 — Arithmetic counters (R163)
def INF_SLOT_SAT.SAT_CNT (n : Nat) : Fld := ⟨0x200000134 + n * 0x40, 0, 16, .ro, 0x0, .w⟩
def INF_SLOT_SAT.NAN_CNT (n : Nat) : Fld := ⟨0x200000134 + n * 0x40, 16, 16, .ro, 0x0, .w⟩

-- INF_SLOTn_OUT — +0x38 — Output counters (R163)
def INF_SLOT_OUT.CLAMP (n : Nat) : Fld := ⟨0x200000138 + n * 0x40, 0, 16, .ro, 0x0, .w⟩
def INF_SLOT_OUT.NANDROP (n : Nat) : Fld := ⟨0x200000138 + n * 0x40, 16, 16, .ro, 0x0, .w⟩

-- INF_OUTp_CFG — offset 0x800 + p × 8 + 0x0 — Output port configuration (R163)
def INF_OUT_CFG.KIND (n : Nat) : Fld := ⟨0x200000800 + n * 0x8, 0, 3, .rwa, 0x0, .v⟩
def INF_OUT_CFG.SLOT (n : Nat) : Fld := ⟨0x200000800 + n * 0x8, 4, 4, .rwa, 0x0, .v⟩
def INF_OUT_CFG.ACC (n : Nat) : Fld := ⟨0x200000800 + n * 0x8, 8, 3, .rwa, 0x0, .v⟩
def INF_OUT_CFG.TARGET (n : Nat) : Fld := ⟨0x200000800 + n * 0x8, 16, 7, .rwa, 0x0, .v⟩

-- INF_OUTp_BND — offset 0x800 + p × 8 + 0x4 — Output port bounds (R163)
def INF_OUT_BND.LO (n : Nat) : Fld := ⟨0x200000804 + n * 0x8, 0, 16, .rwa, 0x0, .v⟩
def INF_OUT_BND.HI (n : Nat) : Fld := ⟨0x200000804 + n * 0x8, 16, 16, .rwa, 0x0, .v⟩

-- HNT_CTL — offset 0x00 — Hint matcher control (R190)
def HNT_CTL.EN : Fld := ⟨0x300028000, 0, 1, .rw, 0x0, .v⟩
def HNT_CTL.FLUSH : Fld := ⟨0x300028000, 1, 1, .w1s, 0x0, .v⟩

-- HNT_STS — offset 0x04 — Hint matcher status (R190)
def HNT_STS.SIG_DUP : Fld := ⟨0x300028004, 0, 1, .w1c, 0x0, .w⟩
def HNT_STS.HELD : Fld := ⟨0x300028004, 1, 1, .ro, 0x0, .v⟩

-- HNT_LAST_REF — offset 0x08 — Last refusal (R190)
def HNT_LAST_REF.ACC : Fld := ⟨0x300028008, 0, 3, .ro, 0x0, .w⟩
def HNT_LAST_REF.CODE : Fld := ⟨0x300028008, 4, 4, .ro, 0x0, .w⟩
def HNT_LAST_REF.SESSION : Fld := ⟨0x300028008, 8, 4, .ro, 0x0, .w⟩
def HNT_LAST_REF.HINT_ID : Fld := ⟨0x300028008, 16, 16, .ro, 0x0, .w⟩

-- HNT_ACCa_CFG — offset 0x10 + a × 4 — Per-accelerator configuration (R190)
def HNT_ACC_CFG.EN (n : Nat) : Fld := ⟨0x300028010 + n * 0x4, 0, 1, .rw, 0x0, .v⟩
def HNT_ACC_CFG.MISS_SLOT (n : Nat) : Fld := ⟨0x300028010 + n * 0x4, 1, 4, .rw, 0x0, .v⟩
def HNT_ACC_CFG.MISS_TRIG (n : Nat) : Fld := ⟨0x300028010 + n * 0x4, 5, 1, .rw, 0x0, .v⟩
def HNT_ACC_CFG.MISS_LEAD (n : Nat) : Fld := ⟨0x300028010 + n * 0x4, 16, 16, .rw, 0x0, .v⟩

-- HNT_ACCa_LVL — offset 0x30 + a × 4 — Queue and bucket level (R190)
def HNT_ACC_LVL.QLEVEL (n : Nat) : Fld := ⟨0x300028030 + n * 0x4, 0, 6, .ro, 0x0, .v⟩
def HNT_ACC_LVL.TOKENS (n : Nat) : Fld := ⟨0x300028030 + n * 0x4, 8, 6, .ro, 0x20, .v⟩

-- HNT_ACCa_CNT0 — offset 0x50 + a × 8 — Accepted and fired hints (R190)
def HNT_ACC_CNT0.ACCEPTED (n : Nat) : Fld := ⟨0x300028050 + n * 0x8, 0, 16, .ro, 0x0, .w⟩
def HNT_ACC_CNT0.FIRED (n : Nat) : Fld := ⟨0x300028050 + n * 0x8, 16, 16, .ro, 0x0, .w⟩

-- HNT_ACCa_CNT1 — offset 0x54 + a × 8 — Refused and dropped hints (R190)
def HNT_ACC_CNT1.REFUSED (n : Nat) : Fld := ⟨0x300028054 + n * 0x8, 0, 16, .ro, 0x0, .w⟩
def HNT_ACC_CNT1.DROPPED (n : Nat) : Fld := ⟨0x300028054 + n * 0x8, 16, 16, .ro, 0x0, .w⟩

-- HNT_CNT_CLR — offset 0x90 — Counter clear (R190)
def HNT_CNT_CLR.CLR : Fld := ⟨0x300028090, 0, 1, .wo, 0x0, .v⟩

-- TLn_CTL — offset 0x000 — Link control (R220)
def TL_CTL.EN (n : Nat) : Fld := ⟨0x400000000 + n * 0x10000, 0, 1, .rwa, 0x0, .v⟩
def TL_CTL.RETRAIN (n : Nat) : Fld := ⟨0x400000000 + n * 0x10000, 1, 1, .w1s, 0x0, .v⟩
def TL_CTL.AUTO_RETRAIN (n : Nat) : Fld := ⟨0x400000000 + n * 0x10000, 2, 1, .rwa, 0x1, .v⟩
def TL_CTL.MAX_TRY (n : Nat) : Fld := ⟨0x400000000 + n * 0x10000, 4, 2, .rwa, 0x3, .v⟩

-- TLn_BC — offset 0x004 — Back-channel (R220)
def TL_BC.BUS (n : Nat) : Fld := ⟨0x400000004 + n * 0x10000, 0, 4, .rwa, 0x0, .v⟩
def TL_BC.ADDR (n : Nat) : Fld := ⟨0x400000004 + n * 0x10000, 8, 7, .rwa, 0x0, .v⟩

-- TLn_STS — offset 0x008 — Link status (R220)
def TL_STS.STATE (n : Nat) : Fld := ⟨0x400000008 + n * 0x10000, 0, 3, .ro, 0x0, .v⟩
def TL_STS.CW_LOCK (n : Nat) : Fld := ⟨0x400000008 + n * 0x10000, 3, 1, .ro, 0x0, .v⟩
def TL_STS.TRAIN_FAIL (n : Nat) : Fld := ⟨0x400000008 + n * 0x10000, 4, 1, .w1c, 0x0, .w⟩
def TL_STS.LOS (n : Nat) : Fld := ⟨0x400000008 + n * 0x10000, 5, 1, .w1c, 0x0, .w⟩
def TL_STS.BC_ERR (n : Nat) : Fld := ⟨0x400000008 + n * 0x10000, 6, 1, .w1c, 0x0, .w⟩
def TL_STS.RFMT (n : Nat) : Fld := ⟨0x400000008 + n * 0x10000, 8, 8, .ro, 0x0, .v⟩
def TL_STS.FAIL_STEP (n : Nat) : Fld := ⟨0x400000008 + n * 0x10000, 16, 3, .ro, 0x0, .w⟩

-- TLn_FEC — offset 0x00C — Codeword counters (R220)
def TL_FEC.CORR (n : Nat) : Fld := ⟨0x40000000C + n * 0x10000, 0, 16, .ro, 0x0, .w⟩
def TL_FEC.UNCORR (n : Nat) : Fld := ⟨0x40000000C + n * 0x10000, 16, 16, .ro, 0x0, .w⟩

-- TLn_FRM — offset 0x010 — Frames applied (R220)
def TL_FRM.APPLIED (n : Nat) : Fld := ⟨0x400000010 + n * 0x10000, 0, 32, .ro, 0x0, .w⟩

-- TLn_FERR — offset 0x014 — Frame errors (R220)
def TL_FERR.CRC (n : Nat) : Fld := ⟨0x400000014 + n * 0x10000, 0, 16, .ro, 0x0, .w⟩
def TL_FERR.LOST (n : Nat) : Fld := ⟨0x400000014 + n * 0x10000, 16, 16, .ro, 0x0, .w⟩

-- TLn_VERR — offset 0x018 — Content errors (R220)
def TL_VERR.BADFRM (n : Nat) : Fld := ⟨0x400000018 + n * 0x10000, 0, 16, .ro, 0x0, .w⟩
def TL_VERR.UNMAPPED (n : Nat) : Fld := ⟨0x400000018 + n * 0x10000, 16, 16, .ro, 0x0, .w⟩

-- TLn_VERR2 — offset 0x01C — Value errors (R220)
def TL_VERR2.FMTERR (n : Nat) : Fld := ⟨0x40000001C + n * 0x10000, 0, 16, .ro, 0x0, .w⟩
def TL_VERR2.NAN (n : Nat) : Fld := ⟨0x40000001C + n * 0x10000, 16, 16, .ro, 0x0, .w⟩

-- TLn_TRY — offset 0x020 — Training counters (R220)
def TL_TRY.ATTEMPTS (n : Nat) : Fld := ⟨0x400000020 + n * 0x10000, 0, 8, .ro, 0x0, .w⟩
def TL_TRY.LOS_CNT (n : Nat) : Fld := ⟨0x400000020 + n * 0x10000, 8, 8, .ro, 0x0, .w⟩

-- TLn_CNT_CLR — offset 0x024 — Counter clear (R220)
def TL_CNT_CLR.CLR (n : Nat) : Fld := ⟨0x400000024 + n * 0x10000, 0, 1, .wo, 0x0, .v⟩

-- TFAB_CTL — offset 0x000 — Fabric control (R221)
def TFAB_CTL.MAP_DONE : Fld := ⟨0x400100000, 0, 1, .w1s, 0x0, .v⟩
def TFAB_CTL.REC_RUN : Fld := ⟨0x400100000, 1, 1, .rw, 0x0, .v⟩

-- TFAB_STS — offset 0x004 — Fabric status (R221)
def TFAB_STS.MAP_LOADED : Fld := ⟨0x400100004, 0, 1, .ro, 0x0, .v⟩
def TFAB_STS.MAP_ECC : Fld := ⟨0x400100004, 1, 1, .w1c, 0x0, .w⟩
def TFAB_STS.REC_DROP : Fld := ⟨0x400100004, 2, 1, .w1c, 0x0, .w⟩
def TFAB_STS.REC_STATE : Fld := ⟨0x400100004, 4, 3, .ro, 0x0, .v⟩

-- TFAB_MAP_ERR — offset 0x008 — Descriptor errors (R221)
def TFAB_MAP_ERR.LAST_IDX : Fld := ⟨0x400100008, 0, 16, .ro, 0x0, .w⟩
def TFAB_MAP_ERR.CNT : Fld := ⟨0x400100008, 16, 16, .ro, 0x0, .w⟩

-- TFAB_REC_BASE — offset 0x010 — Ring base (R221)
def TFAB_REC_BASE.BASE : Fld := ⟨0x400100010, 0, 24, .rwa, 0x0, .v⟩

-- TFAB_REC_SIZE — offset 0x014 — Ring size (R221)
def TFAB_REC_SIZE.NBUF : Fld := ⟨0x400100014, 0, 24, .rwa, 0x0, .v⟩

-- TFAB_REC_CFG — offset 0x018 — Recorder configuration (R221)
def TFAB_REC_CFG.BW : Fld := ⟨0x400100018, 0, 7, .rwa, 0x60, .v⟩
def TFAB_REC_CFG.FLUSH : Fld := ⟨0x400100018, 8, 3, .rwa, 0x2, .v⟩
def TFAB_REC_CFG.POST : Fld := ⟨0x400100018, 16, 16, .rw, 0x400, .v⟩

-- TFAB_REC_CTL — offset 0x01C — Recorder commands (R221)
def TFAB_REC_CTL.REARM : Fld := ⟨0x40010001C, 0, 1, .w1s, 0x0, .v⟩
def TFAB_REC_CTL.SWTRIG : Fld := ⟨0x40010001C, 1, 1, .w1s, 0x0, .v⟩
def TFAB_REC_CTL.FLUSH : Fld := ⟨0x40010001C, 2, 1, .w1s, 0x0, .v⟩

-- TFAB_REC_SEQ — offset 0x020 — Last buffer (R221)
def TFAB_REC_SEQ.LAST : Fld := ⟨0x400100020, 0, 32, .ro, 0x0, .w⟩

-- TFAB_REC_FIRST — offset 0x024 — First valid buffer (R221)
def TFAB_REC_FIRST.FIRST : Fld := ⟨0x400100024, 0, 32, .ro, 0x0, .w⟩

-- TFAB_REC_TRIG — offset 0x028 — Trigger buffer (R221)
def TFAB_REC_TRIG.BUFSEQ : Fld := ⟨0x400100028, 0, 32, .ro, 0x0, .w⟩

-- TFAB_REC_TSRC — offset 0x02C — Trigger source (R221)
def TFAB_REC_TSRC.UNIT : Fld := ⟨0x40010002C, 0, 5, .ro, 0x1F, .w⟩
def TFAB_REC_TSRC.MISS : Fld := ⟨0x40010002C, 16, 16, .ro, 0x0, .w⟩

-- TFAB_REC_DROP — offset 0x030 — Dropped values (R221)
def TFAB_REC_DROP.DROPPED : Fld := ⟨0x400100030, 0, 32, .ro, 0x0, .w⟩

-- TFAB_CNT_CLR — offset 0x034 — Counter clear (R221)
def TFAB_CNT_CLR.CLR : Fld := ⟨0x400100034, 0, 1, .wo, 0x0, .v⟩

-- TFAB_TRGt_CFG — offset 0x100 + t × 8 — Trigger configuration (R221)
def TFAB_TRG_CFG.EN (n : Nat) : Fld := ⟨0x400100100 + n * 0x8, 0, 1, .rw, 0x0, .v⟩
def TFAB_TRG_CFG.SRC (n : Nat) : Fld := ⟨0x400100100 + n * 0x8, 1, 2, .rw, 0x0, .v⟩
def TFAB_TRG_CFG.LVL (n : Nat) : Fld := ⟨0x400100100 + n * 0x8, 3, 2, .rw, 0x1, .v⟩
def TFAB_TRG_CFG.INDEX (n : Nat) : Fld := ⟨0x400100100 + n * 0x8, 16, 16, .rw, 0x0, .v⟩

-- TFAB_TRGt_THR — offset 0x104 + t × 8 — Trigger threshold (R221)
def TFAB_TRG_THR.THR (n : Nat) : Fld := ⟨0x400100104 + n * 0x8, 0, 32, .rw, 0x0, .v⟩

-- LPC_CFG — offset 0x000 — Memory configuration (R222)
def LPC_CFG.RATE : Fld := ⟨0x400800000, 0, 2, .rwa, 0x2, .v⟩

-- LPC_STS — offset 0x004 — Memory status (R222)
def LPC_STS.INIT_DONE : Fld := ⟨0x400800004, 0, 1, .ro, 0x0, .v⟩
def LPC_STS.SELF_REFRESH : Fld := ⟨0x400800004, 1, 1, .ro, 0x0, .v⟩
def LPC_STS.TRAIN_FAIL : Fld := ⟨0x400800004, 2, 1, .w1c, 0x0, .w⟩
def LPC_STS.UNCORR : Fld := ⟨0x400800004, 3, 1, .w1c, 0x0, .w⟩

-- LPC_ECC_CNT — offset 0x008 — Link ECC counters (R222)
def LPC_ECC_CNT.CORR : Fld := ⟨0x400800008, 0, 16, .ro, 0x0, .w⟩
def LPC_ECC_CNT.UNCORR : Fld := ⟨0x400800008, 16, 16, .ro, 0x0, .w⟩

-- LPC_ERR_ADDR_LO — offset 0x00C — Error address, low word (R222)
def LPC_ERR_ADDR_LO.ADDR_LO : Fld := ⟨0x40080000C, 0, 32, .ro, 0x0, .w⟩

-- LPC_ERR_ADDR_HI — offset 0x010 — Error address, high word (R222)
def LPC_ERR_ADDR_HI.ADDR_HI : Fld := ⟨0x400800010, 0, 8, .ro, 0x0, .w⟩

-- TAMP_CTL — offset 0x000 — Guard control (R251)
def TAMP_CTL.STALE_AGE : Fld := ⟨0x20030000, 0, 3, .rwt, 0x7, .k⟩

-- TAMP_STS — offset 0x004 — Guard status (R251)
def TAMP_STS.DIG_RUN : Fld := ⟨0x20030004, 0, 1, .ro, 0x0, .v⟩
def TAMP_STS.SUSPEND : Fld := ⟨0x20030004, 1, 1, .ro, 0x0, .v⟩
def TAMP_STS.SAFE : Fld := ⟨0x20030004, 2, 1, .ro, 0x0, .v⟩
def TAMP_STS.CRIT : Fld := ⟨0x20030004, 3, 1, .ro, 0x0, .k⟩

-- TAMP_LVL — offset 0x008 — Accelerator levels (R251)
def TAMP_LVL.LVL : Fld := ⟨0x20030008, 0, 16, .ro, 0x0, .k⟩

-- TAMP_BRK — offset 0x00C — Brake outputs (R251)
def TAMP_BRK.BRAKE : Fld := ⟨0x2003000C, 0, 8, .ro, 0x0, .k⟩
def TAMP_BRK.THROT : Fld := ⟨0x2003000C, 8, 8, .ro, 0x0, .k⟩
def TAMP_BRK.BLACK : Fld := ⟨0x2003000C, 16, 8, .ro, 0x0, .k⟩

-- TAMP_IRQ_STS — offset 0x010 — Interrupt status (R251)
def TAMP_IRQ_STS.AMB : Fld := ⟨0x20030010, 0, 8, .w1c, 0x0, .k⟩
def TAMP_IRQ_STS.RED : Fld := ⟨0x20030010, 8, 8, .w1c, 0x0, .k⟩
def TAMP_IRQ_STS.BLK : Fld := ⟨0x20030010, 16, 8, .w1c, 0x0, .k⟩
def TAMP_IRQ_STS.CRIT : Fld := ⟨0x20030010, 24, 1, .w1c, 0x0, .k⟩
def TAMP_IRQ_STS.STALE : Fld := ⟨0x20030010, 25, 1, .w1c, 0x0, .k⟩
def TAMP_IRQ_STS.ANA : Fld := ⟨0x20030010, 26, 1, .w1c, 0x0, .k⟩

-- TAMP_IRQ_EN — offset 0x014 — Interrupt enables (R251)
def TAMP_IRQ_EN.EN : Fld := ⟨0x20030014, 0, 27, .rw, 0x0, .k⟩

-- TAMP_CLR — offset 0x018 — Latch clear (R251)
def TAMP_CLR.RED_CLR : Fld := ⟨0x20030018, 0, 8, .w1s, 0x0, .v⟩
def TAMP_CLR.BLK_CLR : Fld := ⟨0x20030018, 8, 8, .w1s, 0x0, .v⟩

-- TAMP_CRIT — offset 0x01C — Critical temperature (R251)
def TAMP_CRIT.THERM_CRIT : Fld := ⟨0x2003001C, 0, 3, .ro, 0x0, .k⟩
def TAMP_CRIT.ASSERTED : Fld := ⟨0x2003001C, 3, 1, .ro, 0x0, .k⟩
def TAMP_CRIT.CLR : Fld := ⟨0x2003001C, 4, 1, .w1s, 0x0, .v⟩
def TAMP_CRIT.TRIP : Fld := ⟨0x2003001C, 8, 5, .ro, 0x0, .k⟩
def TAMP_CRIT.PRESENT : Fld := ⟨0x2003001C, 16, 5, .ro, 0x0, .k⟩
def TAMP_CRIT.TD_FAULT : Fld := ⟨0x2003001C, 24, 5, .ro, 0x0, .k⟩

-- TAMP_TEMPk — offsets 0x020 to 0x030, k = 0 to 4 — Temperature readings (R251)
def TAMP_TEMP.TEMP (n : Nat) : Fld := ⟨0x20030020 + n * 0x4, 0, 16, .ro, 0x8000, .v⟩

-- TAMP_CAUSEa — offset 0x040 + 4a — Last entry cause (R251)
def TAMP_CAUSE.SRC (n : Nat) : Fld := ⟨0x20030040 + n * 0x4, 0, 9, .ro, 0x1FF, .k⟩
def TAMP_CAUSE.LVL (n : Nat) : Fld := ⟨0x20030040 + n * 0x4, 9, 2, .ro, 0x0, .k⟩
def TAMP_CAUSE.STALE (n : Nat) : Fld := ⟨0x20030040 + n * 0x4, 11, 1, .ro, 0x0, .k⟩

-- TAMP_CNTa — offset 0x060 + 4a — Level entry counters (R251)
def TAMP_CNT.AMB (n : Nat) : Fld := ⟨0x20030060 + n * 0x4, 0, 8, .ro, 0x0, .k⟩
def TAMP_CNT.RED (n : Nat) : Fld := ⟨0x20030060 + n * 0x4, 8, 8, .ro, 0x0, .k⟩
def TAMP_CNT.BLK (n : Nat) : Fld := ⟨0x20030060 + n * 0x4, 16, 8, .ro, 0x0, .k⟩

-- TAMP_CNT_CLR — offset 0x080 — Counter clear (R251)
def TAMP_CNT_CLR.CLR : Fld := ⟨0x20030080, 0, 1, .wo, 0x0, .v⟩

-- TAMP_CLAMPa — offset 0x0A0 + 4a — Clamp bounds (R251)
def TAMP_CLAMP.VOFS_LIM (n : Nat) : Fld := ⟨0x200300A0 + n * 0x4, 0, 8, .rwt, 0x0, .k⟩
def TAMP_CLAMP.PH_MIN (n : Nat) : Fld := ⟨0x200300A0 + n * 0x4, 8, 8, .rwt, 0x1, .k⟩

-- TAMP_AINk — offset 0x100 + 4k — AIN reading (R251)
def TAMP_AIN.CODE (n : Nat) : Fld := ⟨0x20030100 + n * 0x4, 0, 12, .ro, 0x0, .v⟩
def TAMP_AIN.SIG (n : Nat) : Fld := ⟨0x20030100 + n * 0x4, 16, 16, .ro, 0x0, .v⟩

-- TAMP_AIN_SCLk — offset 0x200 + 4k — AIN scaling (R251)
def TAMP_AIN_SCL.GAIN (n : Nat) : Fld := ⟨0x20030200 + n * 0x4, 0, 16, .rwa, 0x1000, .k⟩
def TAMP_AIN_SCL.OFFSET (n : Nat) : Fld := ⟨0x20030200 + n * 0x4, 16, 16, .rwa, 0x0, .k⟩

-- TAMP_ANAk — offset 0x300 + 4k — Analog comparator (R251)
def TAMP_ANA.THR (n : Nat) : Fld := ⟨0x20030300 + n * 0x4, 0, 8, .rwt, 0xFF, .k⟩
def TAMP_ANA.EN (n : Nat) : Fld := ⟨0x20030300 + n * 0x4, 8, 1, .rwt, 0x0, .k⟩
def TAMP_ANA.ACT (n : Nat) : Fld := ⟨0x20030300 + n * 0x4, 9, 1, .rwa, 0x0, .k⟩
def TAMP_ANA.SCOPE (n : Nat) : Fld := ⟨0x20030300 + n * 0x4, 10, 4, .rwa, 0xF, .k⟩
def TAMP_ANA.LATCH (n : Nat) : Fld := ⟨0x20030300 + n * 0x4, 14, 1, .rwt, 0x0, .k⟩
def TAMP_ANA.TRIP (n : Nat) : Fld := ⟨0x20030300 + n * 0x4, 16, 1, .ro, 0x0, .k⟩

-- TAMP_COMBj_CFG — offset 0x400 + j × 0x20 — Combiner configuration (R251)
def TAMP_COMB_CFG.OP (n : Nat) : Fld := ⟨0x20030400 + n * 0x20, 0, 3, .rwa, 0x0, .k⟩
def TAMP_COMB_CFG.N (n : Nat) : Fld := ⟨0x20030400 + n * 0x20, 4, 3, .rwa, 0x0, .k⟩
def TAMP_COMB_CFG.SHIFT (n : Nat) : Fld := ⟨0x20030400 + n * 0x20, 8, 5, .rwa, 0x0, .k⟩
def TAMP_COMB_CFG.OUT (n : Nat) : Fld := ⟨0x20030400 + n * 0x20, 16, 16, .ro, 0x8000, .v⟩

-- TAMP_COMBj_INm — offset 0x404 + j × 0x20 + 4m, m = 0 to 3 — Combiner inputs (R251)
def TAMP_COMB_IN.IN_A (n i : Nat) : Fld := ⟨0x20030404 + n * 0x20 + i * 0x4, 0, 9, .rwa, 0x0, .k⟩
def TAMP_COMB_IN.IN_B (n i : Nat) : Fld := ⟨0x20030404 + n * 0x20 + i * 0x4, 16, 9, .rwa, 0x0, .k⟩

-- TAMP_PROPp — offset 0x800 + 4p — Port proposal (R251)
def TAMP_PROP.HELD (n : Nat) : Fld := ⟨0x20030800 + n * 0x4, 0, 16, .ro, 0x0, .v⟩
def TAMP_PROP.SENT (n : Nat) : Fld := ⟨0x20030800 + n * 0x4, 16, 16, .ro, 0x0, .v⟩

-- TAMP_CMP_CFGk — offset 0x1000 + k × 0x20 — Comparator configuration (R251)
def TAMP_CMP_CFG.SIG (n : Nat) : Fld := ⟨0x20031000 + n * 0x20, 0, 9, .rwa, 0x0, .k⟩
def TAMP_CMP_CFG.DIR (n : Nat) : Fld := ⟨0x20031000 + n * 0x20, 9, 1, .rwa, 0x0, .k⟩
def TAMP_CMP_CFG.SCOPE (n : Nat) : Fld := ⟨0x20031000 + n * 0x20, 10, 4, .rwa, 0xF, .k⟩
def TAMP_CMP_CFG.QTY (n : Nat) : Fld := ⟨0x20031000 + n * 0x20, 14, 2, .rwa, 0x0, .k⟩
def TAMP_CMP_CFG.AMB_EN (n : Nat) : Fld := ⟨0x20031000 + n * 0x20, 16, 1, .rwt, 0x0, .k⟩
def TAMP_CMP_CFG.RED_EN (n : Nat) : Fld := ⟨0x20031000 + n * 0x20, 17, 1, .rwt, 0x0, .k⟩
def TAMP_CMP_CFG.BLK_EN (n : Nat) : Fld := ⟨0x20031000 + n * 0x20, 18, 1, .rwt, 0x0, .k⟩
def TAMP_CMP_CFG.LATCH (n : Nat) : Fld := ⟨0x20031000 + n * 0x20, 19, 1, .rwt, 0x0, .k⟩
def TAMP_CMP_CFG.STALE_POL (n : Nat) : Fld := ⟨0x20031000 + n * 0x20, 20, 1, .rwt, 0x0, .k⟩
def TAMP_CMP_CFG.PERSIST (n : Nat) : Fld := ⟨0x20031000 + n * 0x20, 24, 4, .rwt, 0xF, .k⟩

-- TAMP_LIM_AMBk, TAMP_LIM_REDk, TAMP_LIM_BLKk — offsets 0x1004, 0x1008, 0x100C + k × 0x20 — Limits (R251)
def TAMP_LIM_AMB.LIM (n : Nat) : Fld := ⟨0x20031004 + n * 0x20, 0, 16, .rwt, 0x7FFF, .k⟩

-- TAMP_LIM_AMBk, TAMP_LIM_REDk, TAMP_LIM_BLKk — offsets 0x1004, 0x1008, 0x100C + k × 0x20 — Limits (R251)
def TAMP_LIM_RED.LIM (n : Nat) : Fld := ⟨0x20031008 + n * 0x20, 0, 16, .rwt, 0x7FFF, .k⟩

-- TAMP_LIM_AMBk, TAMP_LIM_REDk, TAMP_LIM_BLKk — offsets 0x1004, 0x1008, 0x100C + k × 0x20 — Limits (R251)
def TAMP_LIM_BLK.LIM (n : Nat) : Fld := ⟨0x2003100C + n * 0x20, 0, 16, .rwt, 0x7FFF, .k⟩

-- TAMP_CMP_RELk — offset 0x1010 + k × 0x20 — Release (R251)
def TAMP_CMP_REL.HYST (n : Nat) : Fld := ⟨0x20031010 + n * 0x20, 0, 16, .rwt, 0x0, .k⟩
def TAMP_CMP_REL.REL (n : Nat) : Fld := ⟨0x20031010 + n * 0x20, 16, 8, .rwt, 0x0, .k⟩

-- TAMP_CMP_STSk — offset 0x1014 + k × 0x20 — Comparator status (R251)
def TAMP_CMP_STS.LVL (n : Nat) : Fld := ⟨0x20031014 + n * 0x20, 0, 2, .ro, 0x0, .k⟩
def TAMP_CMP_STS.STALE (n : Nat) : Fld := ⟨0x20031014 + n * 0x20, 2, 1, .ro, 0x0, .v⟩
def TAMP_CMP_STS.VALUE (n : Nat) : Fld := ⟨0x20031014 + n * 0x20, 16, 16, .ro, 0x0, .v⟩

-- SEQ_CTL — offset 0x000 — Sequencer control (R282)
def SEQ_CTL.TEST : Fld := ⟨0x20020000, 0, 1, .rw, 0x0, .k⟩

-- SEQ_STS — offset 0x004 — Sequencer status (R282)
def SEQ_STS.BUSY : Fld := ⟨0x20020004, 0, 1, .ro, 0x0, .k⟩
def SEQ_STS.IN_GOOD : Fld := ⟨0x20020004, 4, 1, .ro, 0x0, .k⟩
def SEQ_STS.OP : Fld := ⟨0x20020004, 8, 4, .ro, 0x0, .k⟩
def SEQ_STS.IN_LOSS : Fld := ⟨0x20020004, 5, 1, .w1c, 0x0, .k⟩
def SEQ_STS.FAIL : Fld := ⟨0x20020004, 6, 1, .w1c, 0x0, .k⟩
def SEQ_STS.HOLD : Fld := ⟨0x20020004, 7, 1, .ro, 0x0, .v⟩

-- SEQ_CMD — offset 0x008 — Command (R282)
def SEQ_CMD.OP : Fld := ⟨0x20020008, 0, 3, .wo, 0x0, .v⟩
def SEQ_CMD.GROUPS : Fld := ⟨0x20020008, 8, 9, .wo, 0x0, .v⟩

-- SEQ_CMD_STS — offset 0x00C — Command result (R282)
def SEQ_CMD_STS.LAST_OP : Fld := ⟨0x2002000C, 0, 3, .ro, 0x0, .k⟩
def SEQ_CMD_STS.RESULT : Fld := ⟨0x2002000C, 4, 4, .ro, 0x0, .k⟩

-- SEQ_GRP_STS — offset 0x010 — Group states (R282)
def SEQ_GRP_STS.STATE : Fld := ⟨0x20020010, 0, 27, .ro, 0x0, .k⟩

-- SEQ_LATCH — offset 0x014 — Latches (R282)
def SEQ_LATCH.GFAULT : Fld := ⟨0x20020014, 0, 9, .ro, 0x0, .k⟩
def SEQ_LATCH.TFAULT : Fld := ⟨0x20020014, 16, 1, .ro, 0x0, .k⟩
def SEQ_LATCH.BLACK : Fld := ⟨0x20020014, 24, 8, .ro, 0x0, .k⟩

-- SEQ_RESUME — offset 0x018 — Groups to restart (R282)
def SEQ_RESUME.GROUPS : Fld := ⟨0x20020018, 0, 9, .ro, 0x0, .k⟩

-- SEQ_EN_LO, SEQ_EN_HI — offsets 0x020, 0x024 — EN levels (R282)
def SEQ_EN_LO.EN : Fld := ⟨0x20020020, 0, 32, .ro, 0x0, .k⟩

-- SEQ_EN_LO, SEQ_EN_HI — offsets 0x020, 0x024 — EN levels (R282)
def SEQ_EN_HI.EN : Fld := ⟨0x20020024, 0, 32, .ro, 0x0, .k⟩

-- SEQ_PG_LO, SEQ_PG_HI — offsets 0x028, 0x02C — PWRGD levels (R282)
def SEQ_PG_LO.PG : Fld := ⟨0x20020028, 0, 32, .ro, 0x0, .v⟩

-- SEQ_PG_LO, SEQ_PG_HI — offsets 0x028, 0x02C — PWRGD levels (R282)
def SEQ_PG_HI.PG : Fld := ⟨0x2002002C, 0, 32, .ro, 0x0, .v⟩

-- SEQ_RSTO — offset 0x030 — Reset outputs (R282)
def SEQ_RSTO.ASSERTED : Fld := ⟨0x20020030, 0, 16, .ro, 0xFFFF, .k⟩

-- SEQ_TRIMk — offset 0x040 + 4k — Trim DAC (R282)
def SEQ_TRIM.CODE (n : Nat) : Fld := ⟨0x20020040 + n * 0x4, 0, 10, .ro, 0x200, .k⟩

-- SEQ_MGN_CTL — offset 0x060 — Margin request (R282)
def SEQ_MGN_CTL.RAIL : Fld := ⟨0x20020060, 0, 7, .rw, 0x0, .v⟩
def SEQ_MGN_CTL.DIR : Fld := ⟨0x20020060, 7, 1, .rw, 0x0, .v⟩
def SEQ_MGN_CTL.STEPS : Fld := ⟨0x20020060, 8, 6, .rw, 0x0, .v⟩
def SEQ_MGN_CTL.GO : Fld := ⟨0x20020060, 16, 1, .w1s, 0x0, .v⟩

-- SEQ_MGN_STS — offset 0x064 — Margin result (R282)
def SEQ_MGN_STS.RAIL : Fld := ⟨0x20020064, 0, 7, .ro, 0x0, .k⟩
def SEQ_MGN_STS.RESULT : Fld := ⟨0x20020064, 8, 4, .ro, 0x0, .k⟩
def SEQ_MGN_STS.STEPPING : Fld := ⟨0x20020064, 16, 1, .ro, 0x0, .k⟩

-- SEQ_FFR_SEL — offset 0x080 — Capture select (R282)
def SEQ_FFR_SEL.IDX : Fld := ⟨0x20020080, 0, 4, .rw, 0x0, .v⟩

-- SEQ_FFR_INFO — offset 0x084 — Capture summary (R282)
def SEQ_FFR_INFO.RAIL : Fld := ⟨0x20020084, 0, 7, .ro, 0x7F, .p⟩
def SEQ_FFR_INFO.CAUSE : Fld := ⟨0x20020084, 8, 4, .ro, 0x0, .p⟩
def SEQ_FFR_INFO.GROUP : Fld := ⟨0x20020084, 12, 4, .ro, 0x0, .p⟩
def SEQ_FFR_INFO.OP : Fld := ⟨0x20020084, 16, 4, .ro, 0x0, .p⟩
def SEQ_FFR_INFO.FB : Fld := ⟨0x20020084, 20, 1, .ro, 0x0, .p⟩
def SEQ_FFR_INFO.LATER : Fld := ⟨0x20020084, 24, 8, .ro, 0x0, .p⟩

-- SEQ_FFR_TS_LO, SEQ_FFR_TS_HI — offsets 0x088, 0x08C — Capture timestamp (R282)
def SEQ_FFR_TS_LO.TS : Fld := ⟨0x20020088, 0, 32, .ro, 0x0, .p⟩

-- SEQ_FFR_TS_LO, SEQ_FFR_TS_HI — offsets 0x088, 0x08C — Capture timestamp (R282)
def SEQ_FFR_TS_HI.TS : Fld := ⟨0x2002008C, 0, 32, .ro, 0x0, .p⟩

-- SEQ_FFR_EN_LO, SEQ_FFR_EN_HI — offsets 0x090, 0x094 — Captured EN levels (R282)
def SEQ_FFR_EN_LO.EN : Fld := ⟨0x20020090, 0, 32, .ro, 0x0, .p⟩

-- SEQ_FFR_EN_LO, SEQ_FFR_EN_HI — offsets 0x090, 0x094 — Captured EN levels (R282)
def SEQ_FFR_EN_HI.EN : Fld := ⟨0x20020094, 0, 32, .ro, 0x0, .p⟩

-- SEQ_FFR_PG_LO, SEQ_FFR_PG_HI — offsets 0x098, 0x09C — Captured PWRGD levels (R282)
def SEQ_FFR_PG_LO.PG : Fld := ⟨0x20020098, 0, 32, .ro, 0x0, .p⟩

-- SEQ_FFR_PG_LO, SEQ_FFR_PG_HI — offsets 0x098, 0x09C — Captured PWRGD levels (R282)
def SEQ_FFR_PG_HI.PG : Fld := ⟨0x2002009C, 0, 32, .ro, 0x0, .p⟩

-- SEQ_FFR_DATA — offset 0x0A0 — Captured measurements (R282)
def SEQ_FFR_DATA.T_EN : Fld := ⟨0x200200A0, 0, 20, .ro, 0x0, .p⟩
def SEQ_FFR_DATA.AIN : Fld := ⟨0x200200A0, 20, 12, .ro, 0x0, .p⟩

-- SEQ_FFR_CNT — offset 0x0A4 — Capture count (R282)
def SEQ_FFR_CNT.CNT : Fld := ⟨0x200200A4, 0, 32, .ro, 0x0, .p⟩

-- SEQ_FFR_CLR — offset 0x0A8 — Capture clear (R282)
def SEQ_FFR_CLR.CLR : Fld := ⟨0x200200A8, 0, 1, .wo, 0x0, .v⟩

-- SEQ_RAIL_STSr — offset 0x400 + 4r — Rail status (R282)
def SEQ_RAIL_STS.STATE (n : Nat) : Fld := ⟨0x20020400 + n * 0x4, 0, 3, .ro, 0x0, .k⟩
def SEQ_RAIL_STS.PG (n : Nat) : Fld := ⟨0x20020400 + n * 0x4, 3, 1, .ro, 0x0, .v⟩
def SEQ_RAIL_STS.CHAT (n : Nat) : Fld := ⟨0x20020400 + n * 0x4, 4, 4, .ro, 0x0, .k⟩
def SEQ_RAIL_STS.MSTEPS (n : Nat) : Fld := ⟨0x20020400 + n * 0x4, 8, 7, .ro, 0x0, .k⟩
def SEQ_RAIL_STS.RAMP_T (n : Nat) : Fld := ⟨0x20020400 + n * 0x4, 16, 16, .ro, 0x0, .k⟩

-- SEQ_RAIL_CFGr — offsets 0x800 + 32r to 0x81C + 32r — Rail entry (R282)
def SEQ_RAIL_CFG.ENTRY (n i : Nat) : Fld := ⟨0x20020800 + n * 0x20 + i * 0x4, 0, 32, .ro, 0x0, .k⟩

-- SEQ_RSTO_CFGk — offsets 0x1800 + 8k and 0x1804 + 8k — Reset-output entry (R282)
def SEQ_RSTO_CFG.ENTRY (n i : Nat) : Fld := ⟨0x20021800 + n * 0x8 + i * 0x4, 0, 32, .ro, 0x0, .k⟩

-- SEQ_GRAPH_HDR — offsets 0x1900 to 0x191C — Graph header (R282)
def SEQ_GRAPH_HDR.HDR (n : Nat) : Fld := ⟨0x20021900 + n * 0x4, 0, 32, .ro, 0x0, .k⟩

-- COOL_CTL — offset 0x000 — Cooling control (R312)
def COOL_CTL.START : Fld := ⟨0x20040000, 0, 1, .w1s, 0x0, .v⟩

-- COOL_STS — offset 0x004 — Cooling status (R312)
def COOL_STS.RUNNING : Fld := ⟨0x20040004, 0, 1, .ro, 0x0, .v⟩
def COOL_STS.FORCED : Fld := ⟨0x20040004, 1, 1, .ro, 0x1, .v⟩
def COOL_STS.F_SAFE : Fld := ⟨0x20040004, 2, 1, .ro, 0x0, .v⟩
def COOL_STS.F_START : Fld := ⟨0x20040004, 3, 1, .ro, 0x1, .v⟩
def COOL_STS.F_CWDT : Fld := ⟨0x20040004, 4, 1, .ro, 0x0, .v⟩
def COOL_STS.F_HWDT : Fld := ⟨0x20040004, 5, 1, .ro, 0x0, .v⟩
def COOL_STS.LEAK_ACTIVE : Fld := ⟨0x20040004, 6, 1, .ro, 0x0, .k⟩

-- COOL_HWDT_CFG — offset 0x008 — Host watchdog configuration (R312)
def COOL_HWDT_CFG.PERIOD : Fld := ⟨0x20040008, 0, 7, .rwa, 0x8, .k⟩
def COOL_HWDT_CFG.ARM : Fld := ⟨0x20040008, 8, 1, .rwa, 0x0, .k⟩

-- COOL_HWDT_STS — offset 0x00C — Host watchdog status (R312)
def COOL_HWDT_STS.ARMED : Fld := ⟨0x2004000C, 0, 1, .ro, 0x0, .k⟩
def COOL_HWDT_STS.EXPIRED : Fld := ⟨0x2004000C, 1, 1, .ro, 0x0, .k⟩
def COOL_HWDT_STS.EXP_SEEN : Fld := ⟨0x2004000C, 2, 1, .w1c, 0x0, .k⟩
def COOL_HWDT_STS.EXP_CNT : Fld := ⟨0x2004000C, 8, 8, .ro, 0x0, .k⟩
def COOL_HWDT_STS.REMAIN : Fld := ⟨0x2004000C, 16, 16, .ro, 0x0, .v⟩

-- COOL_CWDT_STS — offset 0x010 — Cooling watchdog status (R312)
def COOL_CWDT_STS.TRIP : Fld := ⟨0x20040010, 0, 1, .ro, 0x0, .v⟩
def COOL_CWDT_STS.TRIP_SEEN : Fld := ⟨0x20040010, 1, 1, .w1c, 0x0, .k⟩
def COOL_CWDT_STS.CNT : Fld := ⟨0x20040010, 8, 8, .ro, 0x0, .k⟩

-- COOL_A3_DUTY — offset 0x014 — A3 duty (R312)
def COOL_A3_DUTY.FAN : Fld := ⟨0x20040014, 0, 5, .rwa, 0x1F, .k⟩
def COOL_A3_DUTY.PUMP : Fld := ⟨0x20040014, 8, 5, .rwa, 0x1F, .k⟩

-- COOL_VLV — offset 0x018 — Valves (R312)
def COOL_VLV.CMD_CLOSE : Fld := ⟨0x20040018, 0, 8, .rw, 0x0, .k⟩
def COOL_VLV.CLOSED : Fld := ⟨0x20040018, 8, 8, .ro, 0x0, .k⟩
def COOL_VLV.LEAK_HELD : Fld := ⟨0x20040018, 16, 8, .ro, 0x0, .k⟩

-- COOL_ZONEz_CFG — 0x040 + 16z + 0x0 — Zone configuration (R312)
def COOL_ZONE_CFG.SRC (n : Nat) : Fld := ⟨0x20040040 + n * 0x10, 0, 9, .rwa, 0x0, .k⟩
def COOL_ZONE_CFG.NPTS (n : Nat) : Fld := ⟨0x20040040 + n * 0x10, 12, 3, .rwa, 0x0, .k⟩
def COOL_ZONE_CFG.BOOST (n : Nat) : Fld := ⟨0x20040040 + n * 0x10, 16, 7, .rwa, 0x64, .k⟩

-- COOL_ZONEz_TGT — +0x4 — Zone target (R312)
def COOL_ZONE_TGT.LEVEL (n : Nat) : Fld := ⟨0x20040044 + n * 0x10, 0, 7, .rw, 0x0, .k⟩
def COOL_ZONE_TGT.VALID (n : Nat) : Fld := ⟨0x20040044 + n * 0x10, 7, 1, .rw, 0x0, .k⟩

-- COOL_ZONEz_FLOOR — +0x8 — Zone floor (R312)
def COOL_ZONE_FLOOR.FLOOR (n : Nat) : Fld := ⟨0x20040048 + n * 0x10, 0, 7, .rw, 0x0, .k⟩

-- COOL_ZONEz_STS — +0xC — Zone status (R312)
def COOL_ZONE_STS.EFF (n : Nat) : Fld := ⟨0x2004004C + n * 0x10, 0, 7, .ro, 0x0, .v⟩
def COOL_ZONE_STS.CURVE (n : Nat) : Fld := ⟨0x2004004C + n * 0x10, 8, 7, .ro, 0x0, .v⟩
def COOL_ZONE_STS.STALE (n : Nat) : Fld := ⟨0x2004004C + n * 0x10, 15, 1, .ro, 0x0, .v⟩
def COOL_ZONE_STS.BOOSTED (n : Nat) : Fld := ⟨0x2004004C + n * 0x10, 16, 1, .ro, 0x0, .v⟩

-- COOL_CURVEz_PTi — 0x100 + 32z + 4i — Curve point (R312)
def COOL_CURVE_PT.X (n i : Nat) : Fld := ⟨0x20040100 + n * 0x20 + i * 0x4, 0, 16, .rwa, 0x0, .k⟩
def COOL_CURVE_PT.LEVEL (n i : Nat) : Fld := ⟨0x20040100 + n * 0x20 + i * 0x4, 16, 7, .rwa, 0x64, .k⟩

-- COOL_SKIPb_RNG — 0x200 + 8b — Skip band range (R312)
def COOL_SKIP_RNG.LO (n : Nat) : Fld := ⟨0x20040200 + n * 0x8, 0, 16, .rwa, 0x0, .k⟩
def COOL_SKIP_RNG.HI (n : Nat) : Fld := ⟨0x20040200 + n * 0x8, 16, 16, .rwa, 0x0, .k⟩

-- COOL_SKIPb_ZN — +0x4 — Skip band zones (R312)
def COOL_SKIP_ZN.ZONES (n : Nat) : Fld := ⟨0x20040204 + n * 0x8, 0, 8, .rwa, 0x0, .k⟩

-- COOL_FANn_CFG — 0x400 + 32n + 0x00 — Fan configuration (R312)
def COOL_FAN_CFG.EN (n : Nat) : Fld := ⟨0x20040400 + n * 0x20, 0, 1, .rwa, 0x0, .k⟩
def COOL_FAN_CFG.ZONE (n : Nat) : Fld := ⟨0x20040400 + n * 0x20, 1, 3, .rwa, 0x0, .k⟩
def COOL_FAN_CFG.PPR (n : Nat) : Fld := ⟨0x20040400 + n * 0x20, 4, 2, .rwa, 0x1, .k⟩
def COOL_FAN_CFG.RPM_MAX (n : Nat) : Fld := ⟨0x20040400 + n * 0x20, 16, 16, .rwa, 0x0, .k⟩

-- COOL_FANn_LOOP — +0x04 — Fan loop (R312)
def COOL_FAN_LOOP.KP (n : Nat) : Fld := ⟨0x20040404 + n * 0x20, 0, 8, .rwa, 0x20, .k⟩
def COOL_FAN_LOOP.KI (n : Nat) : Fld := ⟨0x20040404 + n * 0x20, 8, 8, .rwa, 0x8, .k⟩
def COOL_FAN_LOOP.SLEW (n : Nat) : Fld := ⟨0x20040404 + n * 0x20, 16, 8, .rwa, 0x14, .k⟩
def COOL_FAN_LOOP.DUTY_MIN (n : Nat) : Fld := ⟨0x20040404 + n * 0x20, 24, 8, .rwa, 0x28, .k⟩

-- COOL_FANn_SENSE — +0x08 — Supply-current sense (R312)
def COOL_FAN_SENSE.EN (n : Nat) : Fld := ⟨0x20040408 + n * 0x20, 0, 1, .rwa, 0x0, .k⟩
def COOL_FAN_SENSE.AIN (n : Nat) : Fld := ⟨0x20040408 + n * 0x20, 1, 6, .rwa, 0x0, .k⟩
def COOL_FAN_SENSE.I_LO (n : Nat) : Fld := ⟨0x20040408 + n * 0x20, 8, 12, .rwa, 0x0, .k⟩
def COOL_FAN_SENSE.I_HI (n : Nat) : Fld := ⟨0x20040408 + n * 0x20, 20, 12, .rwa, 0xFFF, .k⟩

-- COOL_FANn_STS — +0x0C — Fan status (R312)
def COOL_FAN_STS.MODE (n : Nat) : Fld := ⟨0x2004040C + n * 0x20, 0, 3, .ro, 0x0, .k⟩
def COOL_FAN_STS.STALL (n : Nat) : Fld := ⟨0x2004040C + n * 0x20, 3, 1, .w1c, 0x0, .k⟩
def COOL_FAN_STS.TACH_LOST (n : Nat) : Fld := ⟨0x2004040C + n * 0x20, 4, 1, .w1c, 0x0, .k⟩
def COOL_FAN_STS.CAUSE (n : Nat) : Fld := ⟨0x2004040C + n * 0x20, 5, 2, .ro, 0x0, .k⟩
def COOL_FAN_STS.ATTEMPT (n : Nat) : Fld := ⟨0x2004040C + n * 0x20, 7, 2, .ro, 0x0, .k⟩
def COOL_FAN_STS.SPIN_BACK (n : Nat) : Fld := ⟨0x2004040C + n * 0x20, 9, 1, .ro, 0x0, .k⟩

-- COOL_FANn_SPEED — +0x10 — Fan speed (R312)
def COOL_FAN_SPEED.RPM (n : Nat) : Fld := ⟨0x20040410 + n * 0x20, 0, 16, .ro, 0x0, .v⟩
def COOL_FAN_SPEED.TGT (n : Nat) : Fld := ⟨0x20040410 + n * 0x20, 16, 16, .ro, 0x0, .v⟩

-- COOL_FANn_DUTY — +0x14 — Fan duty (R312)
def COOL_FAN_DUTY.LOOP (n : Nat) : Fld := ⟨0x20040414 + n * 0x20, 0, 10, .ro, 0x0, .v⟩
def COOL_FAN_DUTY.OUT (n : Nat) : Fld := ⟨0x20040414 + n * 0x20, 10, 10, .ro, 0x3E8, .v⟩
def COOL_FAN_DUTY.PRE (n : Nat) : Fld := ⟨0x20040414 + n * 0x20, 20, 8, .ro, 0x0, .v⟩

-- COOL_PMPp_CFG — 0x800 + 32p + 0x00 — Pump configuration (R312)
def COOL_PMP_CFG.EN (n : Nat) : Fld := ⟨0x20040800 + n * 0x20, 0, 1, .rwa, 0x0, .k⟩
def COOL_PMP_CFG.PPR (n : Nat) : Fld := ⟨0x20040800 + n * 0x20, 1, 2, .rwa, 0x0, .k⟩
def COOL_PMP_CFG.PARTNER (n : Nat) : Fld := ⟨0x20040800 + n * 0x20, 3, 3, .rwa, 0x6, .k⟩
def COOL_PMP_CFG.FLW (n : Nat) : Fld := ⟨0x20040800 + n * 0x20, 6, 3, .rwa, 0x6, .k⟩
def COOL_PMP_CFG.FLOW_TO (n : Nat) : Fld := ⟨0x20040800 + n * 0x20, 9, 3, .rwa, 0x3, .k⟩
def COOL_PMP_CFG.SIG (n : Nat) : Fld := ⟨0x20040800 + n * 0x20, 16, 9, .rwa, 0x41, .k⟩

-- COOL_PMPp_SET — +0x04 — Pump setpoint (R312)
def COOL_PMP_SET.TSET (n : Nat) : Fld := ⟨0x20040804 + n * 0x20, 0, 16, .rwa, 0x2D00, .k⟩
def COOL_PMP_SET.RPM_MAX (n : Nat) : Fld := ⟨0x20040804 + n * 0x20, 16, 16, .rwa, 0x0, .k⟩

-- COOL_PMPp_LOOP — +0x08 — Pump loop (R312)
def COOL_PMP_LOOP.KP (n : Nat) : Fld := ⟨0x20040808 + n * 0x20, 0, 8, .rwa, 0x40, .k⟩
def COOL_PMP_LOOP.KI (n : Nat) : Fld := ⟨0x20040808 + n * 0x20, 8, 8, .rwa, 0x10, .k⟩
def COOL_PMP_LOOP.DMIN (n : Nat) : Fld := ⟨0x20040808 + n * 0x20, 16, 8, .rwa, 0x28, .k⟩
def COOL_PMP_LOOP.DMAX (n : Nat) : Fld := ⟨0x20040808 + n * 0x20, 24, 8, .rwa, 0xC8, .k⟩

-- COOL_PMPp_FLOW — +0x0C — Flow limits (R312)
def COOL_PMP_FLOW.FLOW_MIN (n : Nat) : Fld := ⟨0x2004080C + n * 0x20, 0, 16, .rwa, 0x0, .k⟩
def COOL_PMP_FLOW.FLOW_MAX (n : Nat) : Fld := ⟨0x2004080C + n * 0x20, 16, 16, .rwa, 0x0, .k⟩

-- COOL_PMPp_FLOOR — +0x10 — Pump floor (R312)
def COOL_PMP_FLOOR.FLOOR (n : Nat) : Fld := ⟨0x20040810 + n * 0x20, 0, 8, .rw, 0x0, .k⟩

-- COOL_PMPp_STS — +0x14 — Pump status (R312)
def COOL_PMP_STS.MODE (n : Nat) : Fld := ⟨0x20040814 + n * 0x20, 0, 3, .ro, 0x0, .k⟩
def COOL_PMP_STS.STALL (n : Nat) : Fld := ⟨0x20040814 + n * 0x20, 3, 1, .w1c, 0x0, .k⟩
def COOL_PMP_STS.TACH_LOST (n : Nat) : Fld := ⟨0x20040814 + n * 0x20, 4, 1, .w1c, 0x0, .k⟩
def COOL_PMP_STS.CAUSE (n : Nat) : Fld := ⟨0x20040814 + n * 0x20, 5, 2, .ro, 0x0, .k⟩
def COOL_PMP_STS.ATTEMPT (n : Nat) : Fld := ⟨0x20040814 + n * 0x20, 7, 2, .ro, 0x0, .k⟩
def COOL_PMP_STS.FLOW_LOW (n : Nat) : Fld := ⟨0x20040814 + n * 0x20, 10, 1, .w1c, 0x0, .k⟩
def COOL_PMP_STS.LEAK_HOLD (n : Nat) : Fld := ⟨0x20040814 + n * 0x20, 11, 1, .ro, 0x0, .k⟩
def COOL_PMP_STS.STALE (n : Nat) : Fld := ⟨0x20040814 + n * 0x20, 12, 1, .ro, 0x0, .v⟩

-- COOL_PMPp_MEAS — +0x18 — Pump measurement (R312)
def COOL_PMP_MEAS.OUT (n : Nat) : Fld := ⟨0x20040818 + n * 0x20, 0, 10, .ro, 0x3E8, .v⟩
def COOL_PMP_MEAS.RPM (n : Nat) : Fld := ⟨0x20040818 + n * 0x20, 16, 16, .ro, 0x0, .v⟩

-- COOL_FLWf_CFG — 0xA00 + 8f — Flow meter configuration (R312)
def COOL_FLW_CFG.K (n : Nat) : Fld := ⟨0x20040A00 + n * 0x8, 0, 16, .rwa, 0x0, .k⟩

-- COOL_FLWf_RATE — +0x4 — Flow reading (R312)
def COOL_FLW_RATE.FLOW (n : Nat) : Fld := ⟨0x20040A04 + n * 0x8, 0, 16, .ro, 0x0, .v⟩
def COOL_FLW_RATE.NOSIG (n : Nat) : Fld := ⟨0x20040A04 + n * 0x8, 16, 1, .ro, 0x1, .v⟩

-- COOL_LKk_CFG — 0xB00 + 16k + 0x0 — Leak channel configuration (R312)
def COOL_LK_CFG.KIND (n : Nat) : Fld := ⟨0x20040B00 + n * 0x10, 0, 2, .rwa, 0x0, .k⟩
def COOL_LK_CFG.PERSIST (n : Nat) : Fld := ⟨0x20040B00 + n * 0x10, 2, 4, .rwa, 0x2, .k⟩
def COOL_LK_CFG.SHDN_DLY (n : Nat) : Fld := ⟨0x20040B00 + n * 0x10, 6, 3, .rwa, 0x0, .k⟩
def COOL_LK_CFG.GROUPS (n : Nat) : Fld := ⟨0x20040B00 + n * 0x10, 16, 9, .rwa, 0x0, .k⟩

-- COOL_LKk_THR — +0x4 — Leak thresholds (R312)
def COOL_LK_THR.LEAK (n : Nat) : Fld := ⟨0x20040B04 + n * 0x10, 0, 16, .rwa, 0x0, .k⟩
def COOL_LK_THR.OPEN (n : Nat) : Fld := ⟨0x20040B04 + n * 0x10, 16, 16, .rwa, 0x0, .k⟩

-- COOL_LKk_RESP — +0x8 — Leak response (R312)
def COOL_LK_RESP.VALVES (n : Nat) : Fld := ⟨0x20040B08 + n * 0x10, 0, 8, .rwa, 0x0, .k⟩
def COOL_LK_RESP.PUMPS (n : Nat) : Fld := ⟨0x20040B08 + n * 0x10, 8, 6, .rwa, 0x0, .k⟩
def COOL_LK_RESP.LEAK_DUTY (n : Nat) : Fld := ⟨0x20040B08 + n * 0x10, 16, 8, .rwa, 0x0, .k⟩

-- COOL_LKk_STS — +0xC — Leak status (R312)
def COOL_LK_STS.LEAK (n : Nat) : Fld := ⟨0x20040B0C + n * 0x10, 0, 1, .ro, 0x0, .k⟩
def COOL_LK_STS.ACTIVE (n : Nat) : Fld := ⟨0x20040B0C + n * 0x10, 1, 1, .ro, 0x0, .k⟩
def COOL_LK_STS.OPEN (n : Nat) : Fld := ⟨0x20040B0C + n * 0x10, 2, 1, .w1c, 0x0, .k⟩
def COOL_LK_STS.CLR (n : Nat) : Fld := ⟨0x20040B0C + n * 0x10, 3, 1, .w1s, 0x0, .v⟩
def COOL_LK_STS.IMP (n : Nat) : Fld := ⟨0x20040B0C + n * 0x10, 8, 24, .ro, 0xFFFFFF, .v⟩

-- COOL_CONSc_CFG — 0xC00 + 16c + 0x0 — Consumable slot (R312)
def COOL_CONS_CFG.CLASS (n : Nat) : Fld := ⟨0x20040C00 + n * 0x10, 0, 2, .rwa, 0x0, .k⟩
def COOL_CONS_CFG.BUS (n : Nat) : Fld := ⟨0x20040C00 + n * 0x10, 2, 4, .rwa, 0x0, .k⟩
def COOL_CONS_CFG.ADDR (n : Nat) : Fld := ⟨0x20040C00 + n * 0x10, 6, 7, .rwa, 0x0, .k⟩
def COOL_CONS_CFG.REFUSE (n : Nat) : Fld := ⟨0x20040C00 + n * 0x10, 13, 1, .rwa, 0x0, .k⟩
def COOL_CONS_CFG.WARN (n : Nat) : Fld := ⟨0x20040C00 + n * 0x10, 16, 16, .rwa, 0x0, .k⟩

-- COOL_CONSc_LINK — +0x4 — Consumable links (R312)
def COOL_CONS_LINK.FANS (n : Nat) : Fld := ⟨0x20040C04 + n * 0x10, 0, 24, .rwa, 0x0, .k⟩
def COOL_CONS_LINK.PUMPS (n : Nat) : Fld := ⟨0x20040C04 + n * 0x10, 24, 6, .rwa, 0x0, .k⟩

-- COOL_CONSc_STS — +0x8 — Consumable status (R312)
def COOL_CONS_STS.STATE (n : Nat) : Fld := ⟨0x20040C08 + n * 0x10, 0, 3, .ro, 0x0, .k⟩
def COOL_CONS_STS.REFUSED (n : Nat) : Fld := ⟨0x20040C08 + n * 0x10, 3, 1, .ro, 0x0, .k⟩
def COOL_CONS_STS.LOW (n : Nat) : Fld := ⟨0x20040C08 + n * 0x10, 4, 1, .ro, 0x0, .k⟩

-- COOL_CONSc_LIFE — +0xC — Consumable life (R312)
def COOL_CONS_LIFE.HOURS (n : Nat) : Fld := ⟨0x20040C0C + n * 0x10, 0, 24, .ro, 0x0, .p⟩

-- TWn_CFG — offset 0x000 — Port configuration (R336)
def TW_CFG.CTRL_EN (n : Nat) : Fld := ⟨0x20050000 + n * 0x1000, 0, 1, .rwa, 0x0, .k⟩
def TW_CFG.TGT_EN (n : Nat) : Fld := ⟨0x20050000 + n * 0x1000, 1, 1, .rwa, 0x0, .k⟩
def TW_CFG.SPEED (n : Nat) : Fld := ⟨0x20050000 + n * 0x1000, 2, 2, .rwa, 0x0, .k⟩
def TW_CFG.ARB_RETRY (n : Nat) : Fld := ⟨0x20050000 + n * 0x1000, 4, 3, .rwa, 0x3, .k⟩
def TW_CFG.ATTN (n : Nat) : Fld := ⟨0x20050000 + n * 0x1000, 8, 2, .rwa, 0x0, .k⟩
def TW_CFG.STUCK_POL (n : Nat) : Fld := ⟨0x20050000 + n * 0x1000, 10, 1, .rwa, 0x0, .k⟩
def TW_CFG.SEGPWR_USE (n : Nat) : Fld := ⟨0x20050000 + n * 0x1000, 11, 1, .rwa, 0x0, .k⟩
def TW_CFG.MAX_CYC (n : Nat) : Fld := ⟨0x20050000 + n * 0x1000, 12, 2, .rwa, 0x2, .k⟩
def TW_CFG.SEG_OFF (n : Nat) : Fld := ⟨0x20050000 + n * 0x1000, 16, 3, .rwa, 0x3, .k⟩
def TW_CFG.SEG_SETTLE (n : Nat) : Fld := ⟨0x20050000 + n * 0x1000, 20, 3, .rwa, 0x3, .k⟩
def TW_CFG.WAKE (n : Nat) : Fld := ⟨0x20050000 + n * 0x1000, 24, 1, .rwa, 0x0, .k⟩
def TW_CFG.HANDLER (n : Nat) : Fld := ⟨0x20050000 + n * 0x1000, 25, 1, .rwa, 0x0, .k⟩

-- TWn_TGT_ADDR — offset 0x004 — Target address list (R336)
def TW_TGT_ADDR.ADDR0 (n : Nat) : Fld := ⟨0x20050004 + n * 0x1000, 0, 7, .rwa, 0x0, .k⟩
def TW_TGT_ADDR.ADDR1 (n : Nat) : Fld := ⟨0x20050004 + n * 0x1000, 8, 7, .rwa, 0x0, .k⟩
def TW_TGT_ADDR.ADDR2 (n : Nat) : Fld := ⟨0x20050004 + n * 0x1000, 16, 7, .rwa, 0x0, .k⟩
def TW_TGT_ADDR.ADDR3 (n : Nat) : Fld := ⟨0x20050004 + n * 0x1000, 24, 7, .rwa, 0x0, .k⟩
def TW_TGT_ADDR.EN0 (n : Nat) : Fld := ⟨0x20050004 + n * 0x1000, 7, 1, .rwa, 0x0, .k⟩
def TW_TGT_ADDR.EN1 (n : Nat) : Fld := ⟨0x20050004 + n * 0x1000, 15, 1, .rwa, 0x0, .k⟩
def TW_TGT_ADDR.EN2 (n : Nat) : Fld := ⟨0x20050004 + n * 0x1000, 23, 1, .rwa, 0x0, .k⟩
def TW_TGT_ADDR.EN3 (n : Nat) : Fld := ⟨0x20050004 + n * 0x1000, 31, 1, .rwa, 0x0, .k⟩

-- TWn_TGT_MASK — offset 0x008 — Target address mask (R336)
def TW_TGT_MASK.ADDR (n : Nat) : Fld := ⟨0x20050008 + n * 0x1000, 0, 7, .rwa, 0x0, .k⟩
def TW_TGT_MASK.MASK (n : Nat) : Fld := ⟨0x20050008 + n * 0x1000, 8, 7, .rwa, 0x7F, .k⟩
def TW_TGT_MASK.MASK_MODE (n : Nat) : Fld := ⟨0x20050008 + n * 0x1000, 15, 1, .rwa, 0x0, .k⟩

-- TWn_ATTN_LIST — offset 0x00C — In-band poll list (R336)
def TW_ATTN_LIST.ADDR0 (n : Nat) : Fld := ⟨0x2005000C + n * 0x1000, 0, 7, .rwa, 0x0, .k⟩
def TW_ATTN_LIST.ADDR1 (n : Nat) : Fld := ⟨0x2005000C + n * 0x1000, 8, 7, .rwa, 0x0, .k⟩
def TW_ATTN_LIST.ADDR2 (n : Nat) : Fld := ⟨0x2005000C + n * 0x1000, 16, 7, .rwa, 0x0, .k⟩
def TW_ATTN_LIST.ADDR3 (n : Nat) : Fld := ⟨0x2005000C + n * 0x1000, 24, 7, .rwa, 0x0, .k⟩
def TW_ATTN_LIST.EN0 (n : Nat) : Fld := ⟨0x2005000C + n * 0x1000, 7, 1, .rwa, 0x0, .k⟩
def TW_ATTN_LIST.EN1 (n : Nat) : Fld := ⟨0x2005000C + n * 0x1000, 15, 1, .rwa, 0x0, .k⟩
def TW_ATTN_LIST.EN2 (n : Nat) : Fld := ⟨0x2005000C + n * 0x1000, 23, 1, .rwa, 0x0, .k⟩
def TW_ATTN_LIST.EN3 (n : Nat) : Fld := ⟨0x2005000C + n * 0x1000, 31, 1, .rwa, 0x0, .k⟩

-- TWn_STS — offset 0x010 — Port status (R336)
def TW_STS.STATE (n : Nat) : Fld := ⟨0x20050010 + n * 0x1000, 0, 3, .ro, 0x0, .k⟩
def TW_STS.SCL (n : Nat) : Fld := ⟨0x20050010 + n * 0x1000, 3, 1, .ro, 0x1, .v⟩
def TW_STS.SDA (n : Nat) : Fld := ⟨0x20050010 + n * 0x1000, 4, 1, .ro, 0x1, .v⟩
def TW_STS.WAKE_HIT (n : Nat) : Fld := ⟨0x20050010 + n * 0x1000, 5, 1, .w1c, 0x0, .k⟩
def TW_STS.SEGPWR (n : Nat) : Fld := ⟨0x20050010 + n * 0x1000, 6, 1, .ro, 0x0, .k⟩

-- TWn_ERR — offset 0x014 — Sticky errors (R336)
def TW_ERR.ARB_LOST (n : Nat) : Fld := ⟨0x20050014 + n * 0x1000, 0, 1, .w1c, 0x0, .k⟩
def TW_ERR.NACK (n : Nat) : Fld := ⟨0x20050014 + n * 0x1000, 1, 1, .w1c, 0x0, .k⟩
def TW_ERR.TIMEOUT (n : Nat) : Fld := ⟨0x20050014 + n * 0x1000, 2, 1, .w1c, 0x0, .k⟩
def TW_ERR.PEC (n : Nat) : Fld := ⟨0x20050014 + n * 0x1000, 3, 1, .w1c, 0x0, .k⟩
def TW_ERR.BUS_ERR (n : Nat) : Fld := ⟨0x20050014 + n * 0x1000, 4, 1, .w1c, 0x0, .k⟩
def TW_ERR.STUCK (n : Nat) : Fld := ⟨0x20050014 + n * 0x1000, 5, 1, .w1c, 0x0, .k⟩
def TW_ERR.ALERT_STUCK (n : Nat) : Fld := ⟨0x20050014 + n * 0x1000, 6, 1, .w1c, 0x0, .k⟩
def TW_ERR.ALERT_OVF (n : Nat) : Fld := ⟨0x20050014 + n * 0x1000, 7, 1, .w1c, 0x0, .k⟩
def TW_ERR.TGT_OVERRUN (n : Nat) : Fld := ⟨0x20050014 + n * 0x1000, 8, 1, .w1c, 0x0, .k⟩
def TW_ERR.TGT_UNDERRUN (n : Nat) : Fld := ⟨0x20050014 + n * 0x1000, 9, 1, .w1c, 0x0, .k⟩

-- TWn_ARB — offset 0x018 — Arbitration record (R336)
def TW_ARB.BIT (n : Nat) : Fld := ⟨0x20050018 + n * 0x1000, 0, 4, .ro, 0x0, .k⟩
def TW_ARB.BYTE (n : Nat) : Fld := ⟨0x20050018 + n * 0x1000, 8, 8, .ro, 0x0, .k⟩
def TW_ARB.CNT (n : Nat) : Fld := ⟨0x20050018 + n * 0x1000, 16, 16, .ro, 0x0, .k⟩

-- TWn_SEG — offset 0x01C — Segment power cycles (R336)
def TW_SEG.CYCLES (n : Nat) : Fld := ⟨0x2005001C + n * 0x1000, 0, 8, .ro, 0x0, .k⟩
def TW_SEG.RUN (n : Nat) : Fld := ⟨0x2005001C + n * 0x1000, 8, 3, .ro, 0x0, .k⟩

-- TWn_ALERT — offset 0x020 — Alert queue (R336)
def TW_ALERT.ADDR (n : Nat) : Fld := ⟨0x20050020 + n * 0x1000, 0, 7, .ro, 0x0, .v⟩
def TW_ALERT.VALID (n : Nat) : Fld := ⟨0x20050020 + n * 0x1000, 7, 1, .ro, 0x0, .v⟩
def TW_ALERT.LEVEL (n : Nat) : Fld := ⟨0x20050020 + n * 0x1000, 8, 4, .ro, 0x0, .v⟩

-- TWn_ATTN_RES — offset 0x024 — In-band poll results (R336)
def TW_ATTN_RES.RES (n : Nat) : Fld := ⟨0x20050024 + n * 0x1000, 0, 32, .ro, 0x0, .v⟩

-- TWn_IRQ_STS — offset 0x028 — Interrupt status (R336)
def TW_IRQ_STS.CH_DONE (n : Nat) : Fld := ⟨0x20050028 + n * 0x1000, 0, 2, .w1c, 0x0, .v⟩
def TW_IRQ_STS.TGT_RX (n : Nat) : Fld := ⟨0x20050028 + n * 0x1000, 2, 1, .w1c, 0x0, .v⟩
def TW_IRQ_STS.TGT_TXREQ (n : Nat) : Fld := ⟨0x20050028 + n * 0x1000, 3, 1, .w1c, 0x0, .v⟩
def TW_IRQ_STS.ALERT (n : Nat) : Fld := ⟨0x20050028 + n * 0x1000, 4, 1, .w1c, 0x0, .v⟩
def TW_IRQ_STS.INBAND (n : Nat) : Fld := ⟨0x20050028 + n * 0x1000, 5, 1, .w1c, 0x0, .v⟩
def TW_IRQ_STS.STUCK (n : Nat) : Fld := ⟨0x20050028 + n * 0x1000, 6, 1, .w1c, 0x0, .v⟩
def TW_IRQ_STS.RECOVER (n : Nat) : Fld := ⟨0x20050028 + n * 0x1000, 7, 1, .w1c, 0x0, .v⟩

-- TWn_IRQ_EN — offset 0x02C — Interrupt enables (R336)
def TW_IRQ_EN.EN (n : Nat) : Fld := ⟨0x2005002C + n * 0x1000, 0, 8, .rw, 0x0, .k⟩

-- TWn_CNT — offset 0x030 — Transaction counters (R336)
def TW_CNT.DONE (n : Nat) : Fld := ⟨0x20050030 + n * 0x1000, 0, 16, .ro, 0x0, .k⟩
def TW_CNT.FAIL (n : Nat) : Fld := ⟨0x20050030 + n * 0x1000, 16, 16, .ro, 0x0, .k⟩

-- TWn_CHc_CMD — offset 0x040 + 16c — Channel command (R336)
def TW_CH_CMD.PROT (n i : Nat) : Fld := ⟨0x20050040 + n * 0x1000 + i * 0x10, 0, 4, .rw, 0x0, .v⟩
def TW_CH_CMD.PEC (n i : Nat) : Fld := ⟨0x20050040 + n * 0x1000 + i * 0x10, 4, 1, .rw, 0x0, .v⟩
def TW_CH_CMD.ADDR (n i : Nat) : Fld := ⟨0x20050040 + n * 0x1000 + i * 0x10, 5, 7, .rw, 0x0, .v⟩
def TW_CH_CMD.CODE (n i : Nat) : Fld := ⟨0x20050040 + n * 0x1000 + i * 0x10, 12, 8, .rw, 0x0, .v⟩
def TW_CH_CMD.LEN (n i : Nat) : Fld := ⟨0x20050040 + n * 0x1000 + i * 0x10, 20, 8, .rw, 0x0, .v⟩
def TW_CH_CMD.GO (n i : Nat) : Fld := ⟨0x20050040 + n * 0x1000 + i * 0x10, 31, 1, .w1s, 0x0, .v⟩

-- TWn_CHc_STS — offset 0x044 + 16c — Channel status (R336)
def TW_CH_STS.BUSY (n i : Nat) : Fld := ⟨0x20050044 + n * 0x1000 + i * 0x10, 0, 1, .ro, 0x0, .v⟩
def TW_CH_STS.RESULT (n i : Nat) : Fld := ⟨0x20050044 + n * 0x1000 + i * 0x10, 1, 4, .ro, 0x0, .v⟩
def TW_CH_STS.RXLEN (n i : Nat) : Fld := ⟨0x20050044 + n * 0x1000 + i * 0x10, 8, 8, .ro, 0x0, .v⟩

-- TWn_TGT_CTL — offset 0x060 — Target control (R336)
def TW_TGT_CTL.READY (n : Nat) : Fld := ⟨0x20050060 + n * 0x1000, 0, 1, .rw, 0x0, .v⟩
def TW_TGT_CTL.RX_ACK (n : Nat) : Fld := ⟨0x20050060 + n * 0x1000, 1, 1, .w1s, 0x0, .v⟩
def TW_TGT_CTL.TX_VALID (n : Nat) : Fld := ⟨0x20050060 + n * 0x1000, 2, 1, .w1s, 0x0, .v⟩
def TW_TGT_CTL.TX_LEN (n : Nat) : Fld := ⟨0x20050060 + n * 0x1000, 8, 8, .rw, 0x0, .v⟩

-- TWn_TGT_STS — offset 0x064 — Target status (R336)
def TW_TGT_STS.RX_FULL (n : Nat) : Fld := ⟨0x20050064 + n * 0x1000, 0, 1, .ro, 0x0, .v⟩
def TW_TGT_STS.PEC_OK (n : Nat) : Fld := ⟨0x20050064 + n * 0x1000, 1, 1, .ro, 0x0, .v⟩
def TW_TGT_STS.READ_PEND (n : Nat) : Fld := ⟨0x20050064 + n * 0x1000, 2, 1, .ro, 0x0, .v⟩
def TW_TGT_STS.MATCH_ADDR (n : Nat) : Fld := ⟨0x20050064 + n * 0x1000, 4, 7, .ro, 0x0, .v⟩
def TW_TGT_STS.RX_LEN (n : Nat) : Fld := ⟨0x20050064 + n * 0x1000, 16, 9, .ro, 0x0, .v⟩

-- TWn_CHc_BUF — offsets 0x100 + 0x100 × c to 0x1FF + 0x100 × c — Channel buffer (R336)
def TW_CH_BUF.DATA (n i j : Nat) : Fld := ⟨0x20050100 + n * 0x1000 + i * 0x100 + j * 0x4, 0, 32, .rw, 0x0, .v⟩

-- TWn_TGT_RX — offsets 0x300 to 0x3FF — Target receive buffer (R336)
def TW_TGT_RX.DATA (n i : Nat) : Fld := ⟨0x20050300 + n * 0x1000 + i * 0x4, 0, 32, .ro, 0x0, .v⟩

-- TWn_TGT_TX — offsets 0x400 to 0x4FF — Target transmit buffer (R336)
def TW_TGT_TX.DATA (n i : Nat) : Fld := ⟨0x20050400 + n * 0x1000 + i * 0x4, 0, 32, .rw, 0x0, .v⟩

-- NETn_CFG — offset 0x000 — Port configuration (R362)
def NET_CFG.EN (n : Nat) : Fld := ⟨0x300000000 + n * 0x10000, 0, 1, .rwa, 0x0, .v⟩
def NET_CFG.PMD (n : Nat) : Fld := ⟨0x300000000 + n * 0x10000, 1, 2, .rwa, 0x0, .v⟩
def NET_CFG.AN (n : Nat) : Fld := ⟨0x300000000 + n * 0x10000, 3, 1, .rwa, 0x1, .v⟩
def NET_CFG.JUMBO (n : Nat) : Fld := ⟨0x300000000 + n * 0x10000, 4, 1, .rwa, 0x0, .v⟩
def NET_CFG.V4 (n : Nat) : Fld := ⟨0x300000000 + n * 0x10000, 5, 1, .rwa, 0x0, .v⟩
def NET_CFG.V6 (n : Nat) : Fld := ⟨0x300000000 + n * 0x10000, 6, 1, .rwa, 0x0, .v⟩
def NET_CFG.VLAN (n : Nat) : Fld := ⟨0x300000000 + n * 0x10000, 7, 1, .rwa, 0x0, .v⟩
def NET_CFG.VID (n : Nat) : Fld := ⟨0x300000000 + n * 0x10000, 8, 12, .rwa, 0x0, .v⟩

-- NETn_CTL — offset 0x004 — Port commands (R362)
def NET_CTL.RETRAIN (n : Nat) : Fld := ⟨0x300000004 + n * 0x10000, 0, 1, .w1s, 0x0, .v⟩
def NET_CTL.START (n : Nat) : Fld := ⟨0x300000004 + n * 0x10000, 1, 1, .w1s, 0x0, .v⟩

-- NETn_STS — offset 0x008 — Port status (R362)
def NET_STS.STATE (n : Nat) : Fld := ⟨0x300000008 + n * 0x10000, 0, 3, .ro, 0x0, .v⟩
def NET_STS.FEC_LOCK (n : Nat) : Fld := ⟨0x300000008 + n * 0x10000, 3, 1, .ro, 0x0, .v⟩
def NET_STS.PMD_ACT (n : Nat) : Fld := ⟨0x300000008 + n * 0x10000, 4, 2, .ro, 0x0, .v⟩

-- NETn_V4 — offset 0x010 — IPv4 address (R362)
def NET_V4.ADDR (n : Nat) : Fld := ⟨0x300000010 + n * 0x10000, 0, 32, .rwa, 0x0, .v⟩

-- NETn_V6_0 to NETn_V6_3 — offsets 0x020 to 0x02C — IPv6 address (R362)
def NET_V6.ADDR (n i : Nat) : Fld := ⟨0x300000020 + n * 0x10000 + i * 0x4, 0, 32, .rwa, 0x0, .v⟩

-- NETn_MAC_LO — offset 0x030 — MAC address, low word (R362)
def NET_MAC_LO.MAC_LO (n : Nat) : Fld := ⟨0x300000030 + n * 0x10000, 0, 32, .ro, 0x0, .v⟩

-- NETn_MAC_HI — offset 0x034 — MAC address, high word (R362)
def NET_MAC_HI.MAC_HI (n : Nat) : Fld := ⟨0x300000034 + n * 0x10000, 0, 16, .ro, 0x0, .v⟩

-- NETn_FEC — offset 0x040 — FEC counters (R362)
def NET_FEC.CORR (n : Nat) : Fld := ⟨0x300000040 + n * 0x10000, 0, 16, .ro, 0x0, .w⟩
def NET_FEC.UNCORR (n : Nat) : Fld := ⟨0x300000040 + n * 0x10000, 16, 16, .ro, 0x0, .w⟩

-- NETn_RX — offset 0x044 — Accepted datagrams (R362)
def NET_RX.CNT (n : Nat) : Fld := ⟨0x300000044 + n * 0x10000, 0, 32, .ro, 0x0, .w⟩

-- NETn_DROP — offset 0x048 — Dropped frames (R362)
def NET_DROP.BAD (n : Nat) : Fld := ⟨0x300000048 + n * 0x10000, 0, 16, .ro, 0x0, .w⟩
def NET_DROP.OTHER (n : Nat) : Fld := ⟨0x300000048 + n * 0x10000, 16, 16, .ro, 0x0, .w⟩

-- NETn_LINK — offset 0x04C — Link losses (R362)
def NET_LINK.DOWN (n : Nat) : Fld := ⟨0x30000004C + n * 0x10000, 0, 16, .ro, 0x0, .w⟩

-- NETn_CNT_CLR — offset 0x050 — Counter clear (R362)
def NET_CNT_CLR.CLR (n : Nat) : Fld := ⟨0x300000050 + n * 0x10000, 0, 1, .wo, 0x0, .v⟩

-- SES_CTL — offset 0x000 — Engine control (R363)
def SES_CTL.OPEN_EN : Fld := ⟨0x300020000, 0, 1, .rw, 0x0, .v⟩
def SES_CTL.CLOSE_ALL : Fld := ⟨0x300020000, 1, 1, .w1s, 0x0, .v⟩

-- SES_CFG — offset 0x004 — Engine configuration (R363)
def SES_CFG.HB_PER : Fld := ⟨0x300020004, 0, 3, .rwa, 0x3, .v⟩

-- SES_VER — offset 0x008 — Firmware TMP version (R363)
def SES_VER.MAJ : Fld := ⟨0x300020008, 0, 8, .rw, 0x0, .w⟩
def SES_VER.MIN : Fld := ⟨0x300020008, 8, 8, .rw, 0x0, .w⟩

-- SES_STS — offset 0x00C — Engine status (R363)
def SES_STS.OPEN : Fld := ⟨0x30002000C, 0, 16, .ro, 0x0, .v⟩
def SES_STS.HS : Fld := ⟨0x30002000C, 16, 2, .ro, 0x0, .v⟩
def SES_STS.BND : Fld := ⟨0x30002000C, 18, 1, .ro, 0x1, .v⟩

-- SES_JOB — offset 0x010 — Job states (R363)
def SES_JOB.RUNNING : Fld := ⟨0x300020010, 0, 16, .ro, 0x0, .v⟩
def SES_JOB.BOUNDARY : Fld := ⟨0x300020010, 16, 16, .ro, 0x0, .v⟩

-- SES_CAPt — offset 0x020 + 4t — Effective cap (R363)
def SES_CAP.CAP (n : Nat) : Fld := ⟨0x300020020 + n * 0x4, 0, 15, .ro, 0x0, .v⟩
def SES_CAP.SRC (n : Nat) : Fld := ⟨0x300020020 + n * 0x4, 16, 4, .ro, 0x0, .v⟩
def SES_CAP.SET (n : Nat) : Fld := ⟨0x300020020 + n * 0x4, 20, 1, .ro, 0x0, .v⟩

-- SES_ZFLOORz — offset 0x050 + 4z — Effective zone floor (R363)
def SES_ZFLOOR.FLOOR (n : Nat) : Fld := ⟨0x300020050 + n * 0x4, 0, 7, .ro, 0x0, .v⟩
def SES_ZFLOOR.SRC (n : Nat) : Fld := ⟨0x300020050 + n * 0x4, 8, 4, .ro, 0x0, .v⟩
def SES_ZFLOOR.SET (n : Nat) : Fld := ⟨0x300020050 + n * 0x4, 12, 1, .ro, 0x0, .v⟩

-- SES_PFLOORp — offset 0x070 + 4p — Effective pump floor (R363)
def SES_PFLOOR.FLOOR (n : Nat) : Fld := ⟨0x300020070 + n * 0x4, 0, 8, .ro, 0x0, .v⟩
def SES_PFLOOR.SRC (n : Nat) : Fld := ⟨0x300020070 + n * 0x4, 8, 4, .ro, 0x0, .v⟩
def SES_PFLOOR.SET (n : Nat) : Fld := ⟨0x300020070 + n * 0x4, 12, 1, .ro, 0x0, .v⟩

-- SES_RXQ_BASE, SES_TXQ_BASE — offsets 0x090, 0x098 — Queue bases (R363)
def SES_RXQ_BASE.BASE : Fld := ⟨0x300020090, 0, 13, .rw, 0x0, .w⟩

-- SES_RXQ_BASE, SES_TXQ_BASE — offsets 0x090, 0x098 — Queue bases (R363)
def SES_TXQ_BASE.BASE : Fld := ⟨0x300020098, 0, 13, .rw, 0x0, .w⟩

-- SES_RXQ_PTR — offset 0x094 — Receive queue pointers (R363)
def SES_RXQ_PTR.WR : Fld := ⟨0x300020094, 0, 6, .ro, 0x0, .w⟩
def SES_RXQ_PTR.RD : Fld := ⟨0x300020094, 8, 6, .rw, 0x0, .w⟩

-- SES_TXQ_PTR — offset 0x09C — Transmit queue pointers (R363)
def SES_TXQ_PTR.WR : Fld := ⟨0x30002009C, 0, 6, .rw, 0x0, .w⟩
def SES_TXQ_PTR.RD : Fld := ⟨0x30002009C, 8, 6, .ro, 0x0, .w⟩

-- SES_ERR0 — offset 0x0A0 — Dropped messages (R363)
def SES_ERR0.AUTH_FAIL : Fld := ⟨0x3000200A0, 0, 16, .ro, 0x0, .w⟩
def SES_ERR0.REPLAY : Fld := ⟨0x3000200A0, 16, 16, .ro, 0x0, .w⟩

-- SES_ERR1 — offset 0x0A4 — Refused messages (R363)
def SES_ERR1.BAD_MSG : Fld := ⟨0x3000200A4, 0, 16, .ro, 0x0, .w⟩
def SES_ERR1.DENIED : Fld := ⟨0x3000200A4, 16, 16, .ro, 0x0, .w⟩

-- SES_ERR2 — offset 0x0A8 — Handshake and queue errors (R363)
def SES_ERR2.HS_FAIL : Fld := ⟨0x3000200A8, 0, 16, .ro, 0x0, .w⟩
def SES_ERR2.RXQ_FULL : Fld := ⟨0x3000200A8, 16, 16, .ro, 0x0, .w⟩

-- SES_IRQ_STS — offset 0x0B0 — Interrupt status (R363)
def SES_IRQ_STS.RXQ : Fld := ⟨0x3000200B0, 0, 1, .w1c, 0x0, .v⟩
def SES_IRQ_STS.BND_RISE : Fld := ⟨0x3000200B0, 1, 1, .w1c, 0x0, .v⟩
def SES_IRQ_STS.OPENED : Fld := ⟨0x3000200B0, 2, 1, .w1c, 0x0, .v⟩
def SES_IRQ_STS.CLOSED : Fld := ⟨0x3000200B0, 3, 1, .w1c, 0x0, .v⟩
def SES_IRQ_STS.FLOOR : Fld := ⟨0x3000200B0, 4, 1, .w1c, 0x0, .v⟩

-- SES_IRQ_EN — offset 0x0B4 — Interrupt enables (R363)
def SES_IRQ_EN.EN : Fld := ⟨0x3000200B4, 0, 5, .rw, 0x0, .w⟩

-- SES_CNT_CLR — offset 0x0B8 — Counter clear (R363)
def SES_CNT_CLR.CLR : Fld := ⟨0x3000200B8, 0, 1, .wo, 0x0, .v⟩

-- KEY_DEVID — offset 0x000 — Device identification (R394)
def KEY_DEVID.STEPPING : Fld := ⟨0x20088000, 0, 8, .ro, 0x2, .p⟩
def KEY_DEVID.GRADE : Fld := ⟨0x20088000, 8, 8, .ro, 0x0, .p⟩
def KEY_DEVID.PART : Fld := ⟨0x20088000, 16, 16, .ro, 0x8420, .p⟩

-- KEY_UNIT0 to KEY_UNIT3 — offsets 0x004 to 0x010 — Unit identifier (R394)
def KEY_UNIT.UID (n : Nat) : Fld := ⟨0x20088004 + n * 0x4, 0, 32, .ro, 0x0, .p⟩

-- KEY_STS — offset 0x014 — Key store status (R394)
def KEY_STS.READY : Fld := ⟨0x20088014, 0, 1, .ro, 0x0, .k⟩
def KEY_STS.PUF_FAIL : Fld := ⟨0x20088014, 1, 1, .ro, 0x0, .k⟩
def KEY_STS.MFG_LOCK : Fld := ⟨0x20088014, 2, 1, .ro, 0x0, .p⟩
def KEY_STS.DBG_OPEN : Fld := ⟨0x20088014, 3, 1, .ro, 0x0, .k⟩

-- KEY_OWNER — offset 0x018 — Owner-key slots (R394)
def KEY_OWNER.ACTIVE : Fld := ⟨0x20088018, 0, 3, .ro, 0x0, .p⟩
def KEY_OWNER.VALID : Fld := ⟨0x20088018, 8, 8, .ro, 0x0, .p⟩
def KEY_OWNER.RETIRED : Fld := ⟨0x20088018, 16, 8, .ro, 0x0, .p⟩

-- KEY_PRES — offset 0x01C — Presence window (R394)
def KEY_PRES.OPEN : Fld := ⟨0x2008801C, 0, 1, .ro, 0x0, .k⟩
def KEY_PRES.SEAL_OK : Fld := ⟨0x2008801C, 1, 1, .ro, 0x0, .v⟩
def KEY_PRES.SEAL_BROKEN : Fld := ⟨0x2008801C, 2, 1, .w1c, 0x0, .k⟩
def KEY_PRES.CLOSE : Fld := ⟨0x2008801C, 3, 1, .w1s, 0x0, .v⟩
def KEY_PRES.SRC : Fld := ⟨0x2008801C, 4, 2, .ro, 0x0, .k⟩
def KEY_PRES.REMAIN : Fld := ⟨0x2008801C, 16, 10, .ro, 0x0, .k⟩

-- KEY_PRES_CFG — offset 0x020 — Presence policy (R394)
def KEY_PRES_CFG.MODE : Fld := ⟨0x20088020, 0, 1, .ro, 0x0, .p⟩
def KEY_PRES_CFG.JMP_EN : Fld := ⟨0x20088020, 1, 1, .ro, 0x0, .p⟩

-- KEY_DBG — offset 0x024 — Debug status (R394)
def KEY_DBG.SCOPE : Fld := ⟨0x20088024, 0, 3, .ro, 0x0, .k⟩
def KEY_DBG.REMAIN : Fld := ⟨0x20088024, 16, 14, .ro, 0x0, .k⟩

-- KEY_SETFMT — offset 0x028 — Settings format (R394)
def KEY_SETFMT.FMT : Fld := ⟨0x20088028, 0, 16, .ro, 0x0, .p⟩

-- KEY_STAGED — offset 0x02C — Staged images (R394)
def KEY_STAGED.PROG : Fld := ⟨0x2008802C, 0, 16, .ro, 0x0, .p⟩
def KEY_STAGED.CFW : Fld := ⟨0x2008802C, 16, 1, .ro, 0x0, .p⟩
def KEY_STAGED.KFW : Fld := ⟨0x2008802C, 17, 1, .ro, 0x0, .p⟩
def KEY_STAGED.ACD : Fld := ⟨0x2008802C, 18, 1, .ro, 0x0, .p⟩

-- KEY_FLOORt — offset 0x030 + 4t — Anti-rollback floor (R394)
def KEY_FLOOR.FLOOR (n : Nat) : Fld := ⟨0x20088030 + n * 0x4, 0, 32, .ro, 0x0, .p⟩

-- KEY_REQ_CMD — offset 0x040 — Request (R394)
def KEY_REQ_CMD.OP : Fld := ⟨0x20088040, 0, 4, .rw, 0x0, .v⟩
def KEY_REQ_CMD.GO : Fld := ⟨0x20088040, 31, 1, .w1s, 0x0, .v⟩

-- KEY_REQ_STS — offset 0x044 — Request result (R394)
def KEY_REQ_STS.BUSY : Fld := ⟨0x20088044, 0, 1, .ro, 0x0, .v⟩
def KEY_REQ_STS.RESULT : Fld := ⟨0x20088044, 4, 4, .ro, 0x0, .v⟩

-- KEY_REQ_BUF — offsets 0x1000 to 0x4FFF — Request buffer (R394)
def KEY_REQ_BUF.DATA (n : Nat) : Fld := ⟨0x20089000 + n * 0x4, 0, 32, .rw, 0x0, .v⟩

-- SEC_STG_BASE — 0x05_0000_0000 + 0x000 — Staging buffer base (R395)
def SEC_STG_BASE.BASE : Fld := ⟨0x500000000, 0, 28, .rw, 0x0, .v⟩

-- SEC_STG_SIZE — +0x004 — Staging buffer size (R395)
def SEC_STG_SIZE.MIB : Fld := ⟨0x500000004, 0, 16, .rw, 0x0, .v⟩

-- SEC_XFER — +0x008 — Transfer status (R395)
def SEC_XFER.STATE : Fld := ⟨0x500000008, 0, 3, .ro, 0x0, .v⟩
def SEC_XFER.LAST_CODE : Fld := ⟨0x500000008, 8, 4, .ro, 0x0, .w⟩
def SEC_XFER.LAST_TYPE : Fld := ⟨0x500000008, 16, 16, .ro, 0x0, .w⟩

-- SEC_ACT — +0x00C — Activation (R395)
def SEC_ACT.WAIT : Fld := ⟨0x50000000C, 0, 3, .ro, 0x0, .v⟩
def SEC_ACT.RUNNING : Fld := ⟨0x50000000C, 3, 1, .ro, 0x0, .v⟩
def SEC_ACT.ABANDON : Fld := ⟨0x50000000C, 4, 1, .w1s, 0x0, .v⟩

-- SEC_CNT — +0x010 — Image counters (R395)
def SEC_CNT.ACCEPTED : Fld := ⟨0x500000010, 0, 16, .ro, 0x0, .w⟩
def SEC_CNT.REFUSED : Fld := ⟨0x500000010, 16, 16, .ro, 0x0, .w⟩

-- SVC_CFG — 0x05_0001_0000 + 0x000 — SVC configuration (R395)
def SVC_CFG.V4 : Fld := ⟨0x500010000, 0, 1, .rwa, 0x0, .v⟩
def SVC_CFG.V6 : Fld := ⟨0x500010000, 1, 1, .rwa, 0x0, .v⟩

-- SVC_STS — +0x004 — SVC status (R395)
def SVC_STS.LINK : Fld := ⟨0x500010004, 0, 1, .ro, 0x0, .v⟩
def SVC_STS.SPEED : Fld := ⟨0x500010004, 1, 2, .ro, 0x0, .v⟩

-- SVC_V4 — +0x010 — IPv4 address (R395)
def SVC_V4.ADDR : Fld := ⟨0x500010010, 0, 32, .rwa, 0x0, .v⟩

-- SVC_V6_0 to SVC_V6_3 — +0x020 to +0x02C — IPv6 address (R395)
def SVC_V6.ADDR (n : Nat) : Fld := ⟨0x500010020 + n * 0x4, 0, 32, .rwa, 0x0, .v⟩

-- SVC_MAC_LO, SVC_MAC_HI — +0x030, +0x034 — MAC address (R395)
def SVC_MAC_LO.MAC : Fld := ⟨0x500010030, 0, 32, .ro, 0x0, .v⟩

-- SVC_MAC_LO, SVC_MAC_HI — +0x030, +0x034 — MAC address (R395)
def SVC_MAC_HI.MAC : Fld := ⟨0x500010034, 0, 32, .ro, 0x0, .v⟩

-- FW_CORE_STS — offset 0x000 — Core states (R412)
def FW_CORE_STS.STATE : Fld := ⟨0x140000000, 0, 16, .ro, 0x0, .v⟩

-- FW_WDT_CFGc — offset 0x010 + 4c — Core watchdog configuration (R412)
def FW_WDT_CFG.EN (n : Nat) : Fld := ⟨0x140000010 + n * 0x4, 0, 1, .rw, 0x1, .c⟩
def FW_WDT_CFG.PERIOD (n : Nat) : Fld := ⟨0x140000010 + n * 0x4, 1, 3, .rw, 0x6, .c⟩

-- FW_WDT_KICKc — offset 0x020 + 4c — Core watchdog kick (R412)
def FW_WDT_KICK.KEY (n : Nat) : Fld := ⟨0x140000020 + n * 0x4, 0, 8, .wo, 0x0, .v⟩

-- FW_TOPWDT_CFG — offset 0x040 — Top watchdog configuration (R412)
def FW_TOPWDT_CFG.PERIOD : Fld := ⟨0x140000040, 0, 3, .rw, 0x4, .v⟩

-- FW_TOPWDT_KICK — offset 0x044 — Top watchdog kick (R412)
def FW_TOPWDT_KICK.KEY : Fld := ⟨0x140000044, 0, 8, .wo, 0x0, .v⟩

-- FW_TOPWDT_STS — offset 0x048 — Top watchdog status (R412)
def FW_TOPWDT_STS.ARMED : Fld := ⟨0x140000048, 0, 1, .ro, 0x0, .v⟩
def FW_TOPWDT_STS.REMAIN : Fld := ⟨0x140000048, 8, 24, .ro, 0x0, .v⟩

-- FW_PANIC — offset 0x050 — Panic (R412)
def FW_PANIC.PANIC : Fld := ⟨0x140000050, 0, 4, .w1s, 0x0, .v⟩

-- FW_CRASHc — offsets 0x100 + 0x40 × c to 0x123 + 0x40 × c — Crash record (R412)
def FW_CRASH_CAUSE.CAUSE (n : Nat) : Fld := ⟨0x140000100 + n * 0x40, 0, 3, .ro, 0x0, .w⟩
def FW_CRASH_CAUSE.FB (n : Nat) : Fld := ⟨0x140000100 + n * 0x40, 3, 1, .ro, 0x0, .w⟩
def FW_CRASH_CAUSE.CNT (n : Nat) : Fld := ⟨0x140000100 + n * 0x40, 16, 16, .ro, 0x0, .w⟩

-- FW_CRASHc — offsets 0x100 + 0x40 × c to 0x123 + 0x40 × c — Crash record (R412)
def FW_CRASH_MCAUSE_LO.V (n : Nat) : Fld := ⟨0x140000104 + n * 0x40, 0, 32, .ro, 0x0, .w⟩

-- FW_CRASHc — offsets 0x100 + 0x40 × c to 0x123 + 0x40 × c — Crash record (R412)
def FW_CRASH_MCAUSE_HI.V (n : Nat) : Fld := ⟨0x140000108 + n * 0x40, 0, 32, .ro, 0x0, .w⟩

-- FW_CRASHc — offsets 0x100 + 0x40 × c to 0x123 + 0x40 × c — Crash record (R412)
def FW_CRASH_MEPC_LO.V (n : Nat) : Fld := ⟨0x14000010C + n * 0x40, 0, 32, .ro, 0x0, .w⟩

-- FW_CRASHc — offsets 0x100 + 0x40 × c to 0x123 + 0x40 × c — Crash record (R412)
def FW_CRASH_MEPC_HI.V (n : Nat) : Fld := ⟨0x140000110 + n * 0x40, 0, 32, .ro, 0x0, .w⟩

-- FW_CRASHc — offsets 0x100 + 0x40 × c to 0x123 + 0x40 × c — Crash record (R412)
def FW_CRASH_MTVAL_LO.V (n : Nat) : Fld := ⟨0x140000114 + n * 0x40, 0, 32, .ro, 0x0, .w⟩

-- FW_CRASHc — offsets 0x100 + 0x40 × c to 0x123 + 0x40 × c — Crash record (R412)
def FW_CRASH_MTVAL_HI.V (n : Nat) : Fld := ⟨0x140000118 + n * 0x40, 0, 32, .ro, 0x0, .w⟩

-- FW_CRASHc — offsets 0x100 + 0x40 × c to 0x123 + 0x40 × c — Crash record (R412)
def FW_CRASH_TS_LO.V (n : Nat) : Fld := ⟨0x14000011C + n * 0x40, 0, 32, .ro, 0x0, .w⟩

-- FW_CRASHc — offsets 0x100 + 0x40 × c to 0x123 + 0x40 × c — Crash record (R412)
def FW_CRASH_TS_HI.V (n : Nat) : Fld := ⟨0x140000120 + n * 0x40, 0, 32, .ro, 0x0, .w⟩

-- FW_TEXT_BASE — offset 0x200 — Text range start (R412)
def FW_TEXT_BASE.LOCK : Fld := ⟨0x140000200, 0, 1, .w1s, 0x0, .v⟩
def FW_TEXT_BASE.BASE : Fld := ⟨0x140000200, 12, 13, .rw, 0x0, .v⟩

-- FW_TEXT_LIMIT — offset 0x204 — Text range end (R412)
def FW_TEXT_LIMIT.LIMIT : Fld := ⟨0x140000204, 12, 13, .rw, 0x0, .v⟩

-- FW_LOG_BASE — offset 0x300 — Log ring base (R412)
def FW_LOG_BASE.BASE : Fld := ⟨0x140000300, 5, 20, .rw, 0x0, .v⟩

-- FW_LOG_SIZE — offset 0x304 — Log ring size (R412)
def FW_LOG_SIZE.SIZE : Fld := ⟨0x140000304, 0, 4, .rw, 0x0, .v⟩

-- FW_LOG_SEQ — offset 0x308 — Log sequence (R412)
def FW_LOG_SEQ.SEQ : Fld := ⟨0x140000308, 0, 32, .ro, 0x0, .w⟩

-- FW_LOG_PORTc — offsets 0x400 + 0x20 × c to 0x41C + 0x20 × c — Log port (R412)
def FW_LOG_PORT.DATA (n i : Nat) : Fld := ⟨0x140000400 + n * 0x20 + i * 0x4, 0, 32, .wo, 0x0, .v⟩

-- FW_TRACE_ENk — offset 0x500 + 4k, k = 0 to 7 — Trace point enables (R412)
def FW_TRACE_EN.EN (n : Nat) : Fld := ⟨0x140000500 + n * 0x4, 0, 32, .rw, 0x0, .w⟩

-- KPR_CTL — offset 0x000 — Keeper control (R413)
def KPR_CTL.K1_RUN : Fld := ⟨0x200A0000, 0, 1, .w1s, 0x0, .v⟩

-- KPR_WDT_CFG — offset 0x010 — Keeper watchdog configuration (R413)
def KPR_WDT_CFG.PERIOD : Fld := ⟨0x200A0010, 0, 3, .rw, 0x4, .v⟩
def KPR_WDT_CFG.MASK : Fld := ⟨0x200A0010, 8, 2, .rw, 0x1, .v⟩

-- KPR_WDT_KICK — offset 0x014 — Keeper watchdog kick (R413)
def KPR_WDT_KICK.KEY : Fld := ⟨0x200A0014, 0, 8, .wo, 0x0, .v⟩

-- KPR_WDT_STS — offset 0x018 — Keeper watchdog status (R413)
def KPR_WDT_STS.KICKED : Fld := ⟨0x200A0018, 0, 2, .ro, 0x0, .v⟩
def KPR_WDT_STS.REMAIN : Fld := ⟨0x200A0018, 8, 24, .ro, 0x0, .v⟩

-- KPR_TOPWDT — offset 0x020 — Top watchdog expiries (R413)
def KPR_TOPWDT.SEEN : Fld := ⟨0x200A0020, 0, 1, .w1c, 0x0, .k⟩
def KPR_TOPWDT.CNT : Fld := ⟨0x200A0020, 8, 8, .ro, 0x0, .k⟩

-- KPR_LOG_PORT — offsets 0x040 to 0x05C — Keeper log port (R413)
def KPR_LOG_PORT.DATA (n : Nat) : Fld := ⟨0x200A0040 + n * 0x4, 0, 32, .wo, 0x0, .v⟩

-- SIL_CTL — offset 0x000 — Recorder control (R430)
def SIL_CTL.FREEZE : Fld := ⟨0x20060000, 0, 1, .rw, 0x0, .v⟩
def SIL_CTL.SERVICE : Fld := ⟨0x20060000, 1, 1, .w1s, 0x0, .v⟩
def SIL_CTL.RECOV : Fld := ⟨0x20060000, 2, 1, .rw, 0x0, .k⟩
def SIL_CTL.NVM_CLR : Fld := ⟨0x20060000, 3, 1, .w1s, 0x0, .v⟩

-- SIL_STS — offset 0x004 — Recorder status (R430)
def SIL_STS.MODE : Fld := ⟨0x20060004, 0, 2, .ro, 0x1, .k⟩
def SIL_STS.FROZEN : Fld := ⟨0x20060004, 2, 1, .ro, 0x0, .v⟩
def SIL_STS.FULL : Fld := ⟨0x20060004, 3, 1, .w1c, 0x0, .k⟩
def SIL_STS.QFULL : Fld := ⟨0x20060004, 4, 1, .w1c, 0x0, .k⟩
def SIL_STS.NVM_LOST : Fld := ⟨0x20060004, 5, 1, .w1c, 0x0, .k⟩

-- SIL_CFG — offset 0x008 — Recorder configuration (R430)
def SIL_CFG.FREEZE_MAX : Fld := ⟨0x20060008, 0, 3, .rwa, 0x2, .k⟩

-- SIL_WSEQ — offset 0x00C — Next record number (R430)
def SIL_WSEQ.NEXT : Fld := ⟨0x2006000C, 0, 32, .ro, 0x0, .k⟩

-- SIL_FLOOD_SEQ — offset 0x010 — First flood record (R430)
def SIL_FLOOD_SEQ.FIRST : Fld := ⟨0x20060010, 0, 32, .ro, 0x0, .k⟩

-- SIL_BOOT — offset 0x014 — Boot counter (R430)
def SIL_BOOT.BOOT : Fld := ⟨0x20060014, 0, 32, .ro, 0x0, .p⟩

-- SIL_NVM — offset 0x018 — NVM records (R430)
def SIL_NVM.KEPT : Fld := ⟨0x20060018, 0, 11, .ro, 0x0, .p⟩
def SIL_NVM.LOST : Fld := ⟨0x20060018, 16, 16, .ro, 0x0, .k⟩

-- SIL_UNLISTED — offset 0x01C — Unlisted codes (R430)
def SIL_UNLISTED.OVERFLOW : Fld := ⟨0x2006001C, 0, 16, .ro, 0x0, .k⟩
def SIL_UNLISTED.AO_LOST : Fld := ⟨0x2006001C, 16, 8, .ro, 0x0, .k⟩

-- SIL_CNT_CLR — offset 0x020 — Counter clear (R430)
def SIL_CNT_CLR.CLR : Fld := ⟨0x20060020, 0, 1, .wo, 0x0, .v⟩

-- SIL_NVM_SEL — offset 0x024 — NVM record select (R430)
def SIL_NVM_SEL.IDX : Fld := ⟨0x20060024, 0, 10, .rw, 0x0, .v⟩

-- SIL_NVM_REC0 to SIL_NVM_REC15 — offsets 0x040 to 0x07C — NVM record window (R430)
def SIL_NVM_REC.DATA (n : Nat) : Fld := ⟨0x20060040 + n * 0x4, 0, 32, .ro, 0x0, .v⟩

-- SIL_GRPg — offset 0x100 + 4g — Group state (R430)
def SIL_GRP.OPEN (n : Nat) : Fld := ⟨0x20060100 + n * 0x4, 0, 1, .ro, 0x0, .v⟩
def SIL_GRP.HELD (n : Nat) : Fld := ⟨0x20060100 + n * 0x4, 1, 1, .ro, 0x0, .v⟩
def SIL_GRP.COUNT (n : Nat) : Fld := ⟨0x20060100 + n * 0x4, 16, 16, .ro, 0x0, .v⟩

-- SIL_GRPg_PARENT — offset 0x180 + 4g — Group parent (R430)
def SIL_GRP_PARENT.PARENT (n : Nat) : Fld := ⟨0x20060180 + n * 0x4, 0, 32, .ro, 0xFFFFFFFF, .v⟩

-- SIL_PORTh_W0 to SIL_PORTh_W11 — offsets 0x200 + 0x40 × h + 4w — Write port (R430)
def SIL_PORT_W.DATA (n i : Nat) : Fld := ⟨0x20060200 + n * 0x40 + i * 0x4, 0, 32, .wo, 0x0, .v⟩

-- SIL_CODEe_CFG0 — offset 0x4000 + 16e — Code entry (R430)
def SIL_CODE_CFG0.CODE (n : Nat) : Fld := ⟨0x20064000 + n * 0x10, 0, 16, .ro, 0x0, .k⟩
def SIL_CODE_CFG0.GROUP (n : Nat) : Fld := ⟨0x20064000 + n * 0x10, 16, 8, .ro, 0xFF, .k⟩
def SIL_CODE_CFG0.PERSIST (n : Nat) : Fld := ⟨0x20064000 + n * 0x10, 24, 1, .ro, 0x0, .k⟩
def SIL_CODE_CFG0.PARENT (n : Nat) : Fld := ⟨0x20064000 + n * 0x10, 25, 1, .ro, 0x0, .k⟩

-- SIL_CODEe_CFG1 — offset 0x4004 + 16e — Code rate (R430)
def SIL_CODE_CFG1.RATE (n : Nat) : Fld := ⟨0x20064004 + n * 0x10, 0, 16, .ro, 0x0, .k⟩
def SIL_CODE_CFG1.BURST (n : Nat) : Fld := ⟨0x20064004 + n * 0x10, 16, 8, .ro, 0x0, .k⟩
def SIL_CODE_CFG1.TOKENS (n : Nat) : Fld := ⟨0x20064004 + n * 0x10, 24, 8, .ro, 0x0, .v⟩

-- SIL_CODEe_CNT — offset 0x4008 + 16e — Code counts (R430)
def SIL_CODE_CNT.SUPPRESSED (n : Nat) : Fld := ⟨0x20064008 + n * 0x10, 0, 16, .ro, 0x0, .k⟩
def SIL_CODE_CNT.OVERFLOW (n : Nat) : Fld := ⟨0x20064008 + n * 0x10, 16, 16, .ro, 0x0, .k⟩

-- session table, SESS_STS (R364)
def SESS_STS.STATE (n : Nat) : Fld := ⟨0x300100000 + n * 0x1000, 0, 2, .ro, 0x0, .v⟩
def SESS_STS.CLASSES (n : Nat) : Fld := ⟨0x300100000 + n * 0x1000, 2, 3, .ro, 0x0, .v⟩
def SESS_STS.MISMATCH (n : Nat) : Fld := ⟨0x300100000 + n * 0x1000, 5, 1, .ro, 0x0, .v⟩
def SESS_STS.PORT (n : Nat) : Fld := ⟨0x300100000 + n * 0x1000, 6, 1, .ro, 0x0, .v⟩
def SESS_STS.IPV6 (n : Nat) : Fld := ⟨0x300100000 + n * 0x1000, 7, 1, .ro, 0x0, .v⟩
def SESS_STS.SCOPE (n : Nat) : Fld := ⟨0x300100000 + n * 0x1000, 8, 6, .ro, 0x0, .v⟩
def SESS_STS.JOB (n : Nat) : Fld := ⟨0x300100000 + n * 0x1000, 16, 2, .ro, 0x0, .v⟩
def SESS_STS.EVENTS (n : Nat) : Fld := ⟨0x300100000 + n * 0x1000, 18, 1, .ro, 0x0, .v⟩
def SESS_STS.RECORDER (n : Nat) : Fld := ⟨0x300100000 + n * 0x1000, 19, 1, .ro, 0x0, .v⟩

-- session table, SESS_SID (R364)
def SESS_SID.SID (n : Nat) : Fld := ⟨0x300100004 + n * 0x1000, 0, 32, .ro, 0x0, .v⟩

-- session table, SESS_MASK (R364)
def SESS_MASK.ACC_MASK (n : Nat) : Fld := ⟨0x300100008 + n * 0x1000, 0, 8, .ro, 0x0, .v⟩
def SESS_MASK.ZONE_MASK (n : Nat) : Fld := ⟨0x300100008 + n * 0x1000, 8, 8, .ro, 0x0, .v⟩
def SESS_MASK.PUMP_MASK (n : Nat) : Fld := ⟨0x300100008 + n * 0x1000, 16, 6, .ro, 0x0, .v⟩

-- session table, SESS_VER (R364)
def SESS_VER.VMAJ (n : Nat) : Fld := ⟨0x30010000C + n * 0x1000, 0, 8, .ro, 0x0, .v⟩
def SESS_VER.VMIN (n : Nat) : Fld := ⟨0x30010000C + n * 0x1000, 8, 8, .ro, 0x0, .v⟩

-- session table, SESS_RSEQ_LO (R364)
def SESS_RSEQ_LO.V (n : Nat) : Fld := ⟨0x300100010 + n * 0x1000, 0, 32, .ro, 0x0, .v⟩

-- session table, SESS_RSEQ_HI (R364)
def SESS_RSEQ_HI.V (n : Nat) : Fld := ⟨0x300100014 + n * 0x1000, 0, 32, .ro, 0x0, .v⟩

-- session table, SESS_TSEQ_LO (R364)
def SESS_TSEQ_LO.V (n : Nat) : Fld := ⟨0x300100018 + n * 0x1000, 0, 32, .ro, 0x0, .v⟩

-- session table, SESS_TSEQ_HI (R364)
def SESS_TSEQ_HI.V (n : Nat) : Fld := ⟨0x30010001C + n * 0x1000, 0, 32, .ro, 0x0, .v⟩

-- session table, SESS_IDLE (R364)
def SESS_IDLE.IDLE (n : Nat) : Fld := ⟨0x300100020 + n * 0x1000, 0, 24, .ro, 0x0, .v⟩

-- session table, SESS_OPEN_TS_LO (R364)
def SESS_OPEN_TS_LO.V (n : Nat) : Fld := ⟨0x300100024 + n * 0x1000, 0, 32, .ro, 0x0, .v⟩

-- session table, SESS_OPEN_TS_HI (R364)
def SESS_OPEN_TS_HI.V (n : Nat) : Fld := ⟨0x300100028 + n * 0x1000, 0, 32, .ro, 0x0, .v⟩

def rowsCLK0 : List RegRow := [
  ⟨CLK_CTL.REF_SEL, []⟩,
  ⟨CLK_CTL.AUTO_RET, []⟩,
  ⟨CLK_CTL.RESTORE, []⟩,
  ⟨CLK_CTL.FORCE_IOSC, []⟩,
  ⟨CLK_STS.BASE_SRC, []⟩,
  ⟨CLK_STS.REF_OK, []⟩,
  ⟨CLK_STS.IOSC_RDY, []⟩,
  ⟨CLK_STS.LFO_CAL_VALID, []⟩,
  ⟨CLK_STS.FB, []⟩,
  ⟨CLK_STS.CLKFAIL, []⟩,
  ⟨CLK_STS.FB_LATE, []⟩,
  ⟨CLK_STS.AUTO_RET_OFF, []⟩,
  ⟨CLK_STS.IOSC_BAD, []⟩,
  ⟨CLK_STS.IOSC_DEAD, []⟩,
  ⟨CLK_STS.PLL0_LOCK, []⟩,
  ⟨CLK_STS.PLL1_LOCK, []⟩,
  ⟨CLK_STS.IOSC_BAD_SEEN, []⟩,
  ⟨CLK_MON_CFG.RET_WIN, []⟩,
  ⟨CLK_MON_CFG.FLAP_MAX, []⟩,
  ⟨CLK_FAIL_INFO.CAUSE, []⟩,
  ⟨CLK_FAIL_INFO.FAIL_FB, []⟩,
  ⟨CLK_FAIL_INFO.FAIL_CNT, []⟩,
  ⟨CLK_FAIL_INFO.LAST_DEV, []⟩,
  ⟨CLK_FAIL_TS_LO.TS_LO, []⟩]

def rowsCLK1 : List RegRow := [
  ⟨CLK_FAIL_TS_HI.TS_HI, []⟩,
  ⟨CLK_LFO_CAL.PERIOD, []⟩,
  ⟨CLK_IOSC_TRIM.TRIM, []⟩,
  ⟨CLK_HOST_CNT.COUNT, []⟩,
  ⟨CLK_IOSC_CNT.COUNT, []⟩,
  ⟨CLK_TS_LO.TS_LO, []⟩,
  ⟨CLK_TS_HI.TS_HI, []⟩,
  ⟨CLK_TS_FB.FB, []⟩,
  ⟨CLK_FMC_CTL.MEAS, []⟩,
  ⟨CLK_FMC_CTL.REF, []⟩,
  ⟨CLK_FMC_CTL.GATE, []⟩,
  ⟨CLK_FMC_CTL.TL_SEL, []⟩,
  ⟨CLK_FMC_CTL.START, []⟩,
  ⟨CLK_FMC_CTL.ABORT, []⟩,
  ⟨CLK_FMC_STS.BUSY, []⟩,
  ⟨CLK_FMC_STS.DONE, []⟩,
  ⟨CLK_FMC_STS.DISTURB, []⟩,
  ⟨CLK_FMC_STS.NOCLK, []⟩,
  ⟨CLK_FMC_CNT_LO.CNT_LO, []⟩,
  ⟨CLK_FMC_CNT_HI.CNT_HI, []⟩,
  ⟨CLK_GATE_REQ.REQ, []⟩,
  ⟨CLK_GATE_STS.GATED, []⟩,
  ⟨CLK_GATE_BUSY.GATE_BUSY, []⟩]

/-- The fields of block CLK. -/
def rowsCLK : List RegRow := rowsCLK0 ++ rowsCLK1

def rowsPWRST0 : List RegRow := [
  ⟨PWRST_STATE.CUR, []⟩,
  ⟨PWRST_STATE.TGT, []⟩,
  ⟨PWRST_STATE.BUSY, []⟩,
  ⟨PWRST_STATE.TOP_FAIL, []⟩,
  ⟨PWRST_STATE.WSAVE_LOST, []⟩,
  ⟨PWRST_CTL.REQ, []⟩,
  ⟨PWRST_CTL.REQ_VALID, []⟩,
  ⟨PWRST_CTL.TOP_RST, []⟩,
  ⟨PWRST_CTL.WARM_KEY, []⟩,
  ⟨PWRST_RST_CAUSE.COLD, []⟩,
  ⟨PWRST_RST_CAUSE.BOR, []⟩,
  ⟨PWRST_RST_CAUSE.WARM_PIN, []⟩,
  ⟨PWRST_RST_CAUSE.WARM_CMD, []⟩,
  ⟨PWRST_RST_CAUSE.KPR_WDT, []⟩,
  ⟨PWRST_RST_CAUSE.NVM_HOLD, []⟩,
  ⟨PWRST_TOP_CAUSE.KEEPER, []⟩,
  ⟨PWRST_TOP_CAUSE.TOP_WDT, []⟩,
  ⟨PWRST_TOP_CAUSE.HOST_CMD, []⟩,
  ⟨PWRST_TOP_CAUSE.FENCE, []⟩,
  ⟨PWRST_TOP_CAUSE.FAIL_RUN, []⟩,
  ⟨PWRST_CORE_RST.RESTART, []⟩,
  ⟨PWRST_RST_CNT.WARM_CNT, []⟩,
  ⟨PWRST_RST_CNT.TOP_CNT, []⟩,
  ⟨PWRST_CORE_CNT.CNT, []⟩]

def rowsPWRST1 : List RegRow := [
  ⟨PWRST_BO_STS.BOW_NOW, []⟩,
  ⟨PWRST_BO_STS.BOW_SEEN, []⟩,
  ⟨PWRST_BO_STS.NVM_HELD, []⟩,
  ⟨PWRST_BO_STS.DIP_FB, []⟩,
  ⟨PWRST_BO_CTL.BOW_IE, []⟩,
  ⟨PWRST_DIP_V.MIN_MV, []⟩,
  ⟨PWRST_DIP_V.DIP_CNT, []⟩,
  ⟨PWRST_DIP_DUR.DUR_US, []⟩,
  ⟨PWRST_DIP_TS_LO.TS_LO, []⟩,
  ⟨PWRST_DIP_TS_HI.TS_HI, []⟩,
  ⟨PWRST_VIN.VIN_MV, []⟩,
  ⟨PWRST_WAKE_EN.EN, []⟩,
  ⟨PWRST_WAKE_TGT.TGT, []⟩,
  ⟨PWRST_WAKE_STS.SRC, []⟩,
  ⟨PWRST_WAKE_TMR.MS, []⟩,
  ⟨PWRST_TOP_CFG.PG_TO, []⟩,
  ⟨PWRST_TOP_CFG.MAX_FAIL, []⟩,
  ⟨PWRST_NVM_STS.BUSY, []⟩,
  ⟨PWRST_NVM_STS.BANK, []⟩,
  ⟨PWRST_NVM_STS.ROLLBACK_CNT, []⟩,
  ⟨PWRST_STRAP.THERM_CRIT, []⟩,
  ⟨PWRST_STRAP.PRES_JMP, []⟩]

/-- The fields of block PWRST. -/
def rowsPWRST : List RegRow := rowsPWRST0 ++ rowsPWRST1

def rowsSEQ0 : List RegRow := [
  ⟨SEQ_CTL.TEST, []⟩,
  ⟨SEQ_STS.BUSY, []⟩,
  ⟨SEQ_STS.IN_GOOD, []⟩,
  ⟨SEQ_STS.OP, []⟩,
  ⟨SEQ_STS.IN_LOSS, []⟩,
  ⟨SEQ_STS.FAIL, []⟩,
  ⟨SEQ_STS.HOLD, []⟩,
  ⟨SEQ_CMD.OP, []⟩,
  ⟨SEQ_CMD.GROUPS, []⟩,
  ⟨SEQ_CMD_STS.LAST_OP, []⟩,
  ⟨SEQ_CMD_STS.RESULT, []⟩,
  ⟨SEQ_GRP_STS.STATE, []⟩,
  ⟨SEQ_LATCH.GFAULT, []⟩,
  ⟨SEQ_LATCH.TFAULT, []⟩,
  ⟨SEQ_LATCH.BLACK, []⟩,
  ⟨SEQ_RESUME.GROUPS, []⟩,
  ⟨SEQ_EN_LO.EN, []⟩,
  ⟨SEQ_EN_HI.EN, []⟩,
  ⟨SEQ_PG_LO.PG, []⟩,
  ⟨SEQ_PG_HI.PG, []⟩,
  ⟨SEQ_RSTO.ASSERTED, []⟩,
  ⟨SEQ_TRIM.CODE 0, [(8, 0x4)]⟩,
  ⟨SEQ_MGN_CTL.RAIL, []⟩,
  ⟨SEQ_MGN_CTL.DIR, []⟩]

def rowsSEQ1 : List RegRow := [
  ⟨SEQ_MGN_CTL.STEPS, []⟩,
  ⟨SEQ_MGN_CTL.GO, []⟩,
  ⟨SEQ_MGN_STS.RAIL, []⟩,
  ⟨SEQ_MGN_STS.RESULT, []⟩,
  ⟨SEQ_MGN_STS.STEPPING, []⟩,
  ⟨SEQ_FFR_SEL.IDX, []⟩,
  ⟨SEQ_FFR_INFO.RAIL, []⟩,
  ⟨SEQ_FFR_INFO.CAUSE, []⟩,
  ⟨SEQ_FFR_INFO.GROUP, []⟩,
  ⟨SEQ_FFR_INFO.OP, []⟩,
  ⟨SEQ_FFR_INFO.FB, []⟩,
  ⟨SEQ_FFR_INFO.LATER, []⟩,
  ⟨SEQ_FFR_TS_LO.TS, []⟩,
  ⟨SEQ_FFR_TS_HI.TS, []⟩,
  ⟨SEQ_FFR_EN_LO.EN, []⟩,
  ⟨SEQ_FFR_EN_HI.EN, []⟩,
  ⟨SEQ_FFR_PG_LO.PG, []⟩,
  ⟨SEQ_FFR_PG_HI.PG, []⟩,
  ⟨SEQ_FFR_DATA.T_EN, []⟩,
  ⟨SEQ_FFR_DATA.AIN, []⟩,
  ⟨SEQ_FFR_CNT.CNT, []⟩,
  ⟨SEQ_FFR_CLR.CLR, []⟩,
  ⟨SEQ_RAIL_STS.STATE 0, [(96, 0x4)]⟩,
  ⟨SEQ_RAIL_STS.PG 0, [(96, 0x4)]⟩]

def rowsSEQ2 : List RegRow := [
  ⟨SEQ_RAIL_STS.CHAT 0, [(96, 0x4)]⟩,
  ⟨SEQ_RAIL_STS.MSTEPS 0, [(96, 0x4)]⟩,
  ⟨SEQ_RAIL_STS.RAMP_T 0, [(96, 0x4)]⟩,
  ⟨SEQ_RAIL_CFG.ENTRY 0 0, [(96, 0x20), (8, 0x4)]⟩,
  ⟨SEQ_RSTO_CFG.ENTRY 0 0, [(16, 0x8), (2, 0x4)]⟩,
  ⟨SEQ_GRAPH_HDR.HDR 0, [(8, 0x4)]⟩]

/-- The fields of block SEQ. -/
def rowsSEQ : List RegRow := rowsSEQ0 ++ rowsSEQ1 ++ rowsSEQ2

def rowsTAMP0 : List RegRow := [
  ⟨TAMP_CTL.STALE_AGE, []⟩,
  ⟨TAMP_STS.DIG_RUN, []⟩,
  ⟨TAMP_STS.SUSPEND, []⟩,
  ⟨TAMP_STS.SAFE, []⟩,
  ⟨TAMP_STS.CRIT, []⟩,
  ⟨TAMP_LVL.LVL, []⟩,
  ⟨TAMP_BRK.BRAKE, []⟩,
  ⟨TAMP_BRK.THROT, []⟩,
  ⟨TAMP_BRK.BLACK, []⟩,
  ⟨TAMP_IRQ_STS.AMB, []⟩,
  ⟨TAMP_IRQ_STS.RED, []⟩,
  ⟨TAMP_IRQ_STS.BLK, []⟩,
  ⟨TAMP_IRQ_STS.CRIT, []⟩,
  ⟨TAMP_IRQ_STS.STALE, []⟩,
  ⟨TAMP_IRQ_STS.ANA, []⟩,
  ⟨TAMP_IRQ_EN.EN, []⟩,
  ⟨TAMP_CLR.RED_CLR, []⟩,
  ⟨TAMP_CLR.BLK_CLR, []⟩,
  ⟨TAMP_CRIT.THERM_CRIT, []⟩,
  ⟨TAMP_CRIT.ASSERTED, []⟩,
  ⟨TAMP_CRIT.CLR, []⟩,
  ⟨TAMP_CRIT.TRIP, []⟩,
  ⟨TAMP_CRIT.PRESENT, []⟩,
  ⟨TAMP_CRIT.TD_FAULT, []⟩]

def rowsTAMP1 : List RegRow := [
  ⟨TAMP_TEMP.TEMP 0, [(5, 0x4)]⟩,
  ⟨TAMP_CAUSE.SRC 0, [(8, 0x4)]⟩,
  ⟨TAMP_CAUSE.LVL 0, [(8, 0x4)]⟩,
  ⟨TAMP_CAUSE.STALE 0, [(8, 0x4)]⟩,
  ⟨TAMP_CNT.AMB 0, [(8, 0x4)]⟩,
  ⟨TAMP_CNT.RED 0, [(8, 0x4)]⟩,
  ⟨TAMP_CNT.BLK 0, [(8, 0x4)]⟩,
  ⟨TAMP_CNT_CLR.CLR, []⟩,
  ⟨TAMP_CLAMP.VOFS_LIM 0, [(8, 0x4)]⟩,
  ⟨TAMP_CLAMP.PH_MIN 0, [(8, 0x4)]⟩,
  ⟨TAMP_AIN.CODE 0, [(64, 0x4)]⟩,
  ⟨TAMP_AIN.SIG 0, [(64, 0x4)]⟩,
  ⟨TAMP_AIN_SCL.GAIN 0, [(64, 0x4)]⟩,
  ⟨TAMP_AIN_SCL.OFFSET 0, [(64, 0x4)]⟩,
  ⟨TAMP_ANA.THR 0, [(64, 0x4)]⟩,
  ⟨TAMP_ANA.EN 0, [(64, 0x4)]⟩,
  ⟨TAMP_ANA.ACT 0, [(64, 0x4)]⟩,
  ⟨TAMP_ANA.SCOPE 0, [(64, 0x4)]⟩,
  ⟨TAMP_ANA.LATCH 0, [(64, 0x4)]⟩,
  ⟨TAMP_ANA.TRIP 0, [(64, 0x4)]⟩,
  ⟨TAMP_COMB_CFG.OP 0, [(32, 0x20)]⟩,
  ⟨TAMP_COMB_CFG.N 0, [(32, 0x20)]⟩,
  ⟨TAMP_COMB_CFG.SHIFT 0, [(32, 0x20)]⟩,
  ⟨TAMP_COMB_CFG.OUT 0, [(32, 0x20)]⟩]

def rowsTAMP2 : List RegRow := [
  ⟨TAMP_COMB_IN.IN_A 0 0, [(32, 0x20), (4, 0x4)]⟩,
  ⟨TAMP_COMB_IN.IN_B 0 0, [(32, 0x20), (4, 0x4)]⟩,
  ⟨TAMP_PROP.HELD 0, [(64, 0x4)]⟩,
  ⟨TAMP_PROP.SENT 0, [(64, 0x4)]⟩,
  ⟨TAMP_CMP_CFG.SIG 0, [(256, 0x20)]⟩,
  ⟨TAMP_CMP_CFG.DIR 0, [(256, 0x20)]⟩,
  ⟨TAMP_CMP_CFG.SCOPE 0, [(256, 0x20)]⟩,
  ⟨TAMP_CMP_CFG.QTY 0, [(256, 0x20)]⟩,
  ⟨TAMP_CMP_CFG.AMB_EN 0, [(256, 0x20)]⟩,
  ⟨TAMP_CMP_CFG.RED_EN 0, [(256, 0x20)]⟩,
  ⟨TAMP_CMP_CFG.BLK_EN 0, [(256, 0x20)]⟩,
  ⟨TAMP_CMP_CFG.LATCH 0, [(256, 0x20)]⟩,
  ⟨TAMP_CMP_CFG.STALE_POL 0, [(256, 0x20)]⟩,
  ⟨TAMP_CMP_CFG.PERSIST 0, [(256, 0x20)]⟩,
  ⟨TAMP_LIM_AMB.LIM 0, [(256, 0x20)]⟩,
  ⟨TAMP_LIM_RED.LIM 0, [(256, 0x20)]⟩,
  ⟨TAMP_LIM_BLK.LIM 0, [(256, 0x20)]⟩,
  ⟨TAMP_CMP_REL.HYST 0, [(256, 0x20)]⟩,
  ⟨TAMP_CMP_REL.REL 0, [(256, 0x20)]⟩,
  ⟨TAMP_CMP_STS.LVL 0, [(256, 0x20)]⟩,
  ⟨TAMP_CMP_STS.STALE 0, [(256, 0x20)]⟩,
  ⟨TAMP_CMP_STS.VALUE 0, [(256, 0x20)]⟩]

/-- The fields of block TAMP. -/
def rowsTAMP : List RegRow := rowsTAMP0 ++ rowsTAMP1 ++ rowsTAMP2

def rowsCOOL0 : List RegRow := [
  ⟨COOL_CTL.START, []⟩,
  ⟨COOL_STS.RUNNING, []⟩,
  ⟨COOL_STS.FORCED, []⟩,
  ⟨COOL_STS.F_SAFE, []⟩,
  ⟨COOL_STS.F_START, []⟩,
  ⟨COOL_STS.F_CWDT, []⟩,
  ⟨COOL_STS.F_HWDT, []⟩,
  ⟨COOL_STS.LEAK_ACTIVE, []⟩,
  ⟨COOL_HWDT_CFG.PERIOD, []⟩,
  ⟨COOL_HWDT_CFG.ARM, []⟩,
  ⟨COOL_HWDT_STS.ARMED, []⟩,
  ⟨COOL_HWDT_STS.EXPIRED, []⟩,
  ⟨COOL_HWDT_STS.EXP_SEEN, []⟩,
  ⟨COOL_HWDT_STS.EXP_CNT, []⟩,
  ⟨COOL_HWDT_STS.REMAIN, []⟩,
  ⟨COOL_CWDT_STS.TRIP, []⟩,
  ⟨COOL_CWDT_STS.TRIP_SEEN, []⟩,
  ⟨COOL_CWDT_STS.CNT, []⟩,
  ⟨COOL_A3_DUTY.FAN, []⟩,
  ⟨COOL_A3_DUTY.PUMP, []⟩,
  ⟨COOL_VLV.CMD_CLOSE, []⟩,
  ⟨COOL_VLV.CLOSED, []⟩,
  ⟨COOL_VLV.LEAK_HELD, []⟩,
  ⟨COOL_ZONE_CFG.SRC 0, [(8, 0x10)]⟩]

def rowsCOOL1 : List RegRow := [
  ⟨COOL_ZONE_CFG.NPTS 0, [(8, 0x10)]⟩,
  ⟨COOL_ZONE_CFG.BOOST 0, [(8, 0x10)]⟩,
  ⟨COOL_ZONE_TGT.LEVEL 0, [(8, 0x10)]⟩,
  ⟨COOL_ZONE_TGT.VALID 0, [(8, 0x10)]⟩,
  ⟨COOL_ZONE_FLOOR.FLOOR 0, [(8, 0x10)]⟩,
  ⟨COOL_ZONE_STS.EFF 0, [(8, 0x10)]⟩,
  ⟨COOL_ZONE_STS.CURVE 0, [(8, 0x10)]⟩,
  ⟨COOL_ZONE_STS.STALE 0, [(8, 0x10)]⟩,
  ⟨COOL_ZONE_STS.BOOSTED 0, [(8, 0x10)]⟩,
  ⟨COOL_CURVE_PT.X 0 0, [(8, 0x20), (8, 0x4)]⟩,
  ⟨COOL_CURVE_PT.LEVEL 0 0, [(8, 0x20), (8, 0x4)]⟩,
  ⟨COOL_SKIP_RNG.LO 0, [(16, 0x8)]⟩,
  ⟨COOL_SKIP_RNG.HI 0, [(16, 0x8)]⟩,
  ⟨COOL_SKIP_ZN.ZONES 0, [(16, 0x8)]⟩,
  ⟨COOL_FAN_CFG.EN 0, [(24, 0x20)]⟩,
  ⟨COOL_FAN_CFG.ZONE 0, [(24, 0x20)]⟩,
  ⟨COOL_FAN_CFG.PPR 0, [(24, 0x20)]⟩,
  ⟨COOL_FAN_CFG.RPM_MAX 0, [(24, 0x20)]⟩,
  ⟨COOL_FAN_LOOP.KP 0, [(24, 0x20)]⟩,
  ⟨COOL_FAN_LOOP.KI 0, [(24, 0x20)]⟩,
  ⟨COOL_FAN_LOOP.SLEW 0, [(24, 0x20)]⟩,
  ⟨COOL_FAN_LOOP.DUTY_MIN 0, [(24, 0x20)]⟩,
  ⟨COOL_FAN_SENSE.EN 0, [(24, 0x20)]⟩,
  ⟨COOL_FAN_SENSE.AIN 0, [(24, 0x20)]⟩]

def rowsCOOL2 : List RegRow := [
  ⟨COOL_FAN_SENSE.I_LO 0, [(24, 0x20)]⟩,
  ⟨COOL_FAN_SENSE.I_HI 0, [(24, 0x20)]⟩,
  ⟨COOL_FAN_STS.MODE 0, [(24, 0x20)]⟩,
  ⟨COOL_FAN_STS.STALL 0, [(24, 0x20)]⟩,
  ⟨COOL_FAN_STS.TACH_LOST 0, [(24, 0x20)]⟩,
  ⟨COOL_FAN_STS.CAUSE 0, [(24, 0x20)]⟩,
  ⟨COOL_FAN_STS.ATTEMPT 0, [(24, 0x20)]⟩,
  ⟨COOL_FAN_STS.SPIN_BACK 0, [(24, 0x20)]⟩,
  ⟨COOL_FAN_SPEED.RPM 0, [(24, 0x20)]⟩,
  ⟨COOL_FAN_SPEED.TGT 0, [(24, 0x20)]⟩,
  ⟨COOL_FAN_DUTY.LOOP 0, [(24, 0x20)]⟩,
  ⟨COOL_FAN_DUTY.OUT 0, [(24, 0x20)]⟩,
  ⟨COOL_FAN_DUTY.PRE 0, [(24, 0x20)]⟩,
  ⟨COOL_PMP_CFG.EN 0, [(6, 0x20)]⟩,
  ⟨COOL_PMP_CFG.PPR 0, [(6, 0x20)]⟩,
  ⟨COOL_PMP_CFG.PARTNER 0, [(6, 0x20)]⟩,
  ⟨COOL_PMP_CFG.FLW 0, [(6, 0x20)]⟩,
  ⟨COOL_PMP_CFG.FLOW_TO 0, [(6, 0x20)]⟩,
  ⟨COOL_PMP_CFG.SIG 0, [(6, 0x20)]⟩,
  ⟨COOL_PMP_SET.TSET 0, [(6, 0x20)]⟩,
  ⟨COOL_PMP_SET.RPM_MAX 0, [(6, 0x20)]⟩,
  ⟨COOL_PMP_LOOP.KP 0, [(6, 0x20)]⟩,
  ⟨COOL_PMP_LOOP.KI 0, [(6, 0x20)]⟩,
  ⟨COOL_PMP_LOOP.DMIN 0, [(6, 0x20)]⟩]

def rowsCOOL3 : List RegRow := [
  ⟨COOL_PMP_LOOP.DMAX 0, [(6, 0x20)]⟩,
  ⟨COOL_PMP_FLOW.FLOW_MIN 0, [(6, 0x20)]⟩,
  ⟨COOL_PMP_FLOW.FLOW_MAX 0, [(6, 0x20)]⟩,
  ⟨COOL_PMP_FLOOR.FLOOR 0, [(6, 0x20)]⟩,
  ⟨COOL_PMP_STS.MODE 0, [(6, 0x20)]⟩,
  ⟨COOL_PMP_STS.STALL 0, [(6, 0x20)]⟩,
  ⟨COOL_PMP_STS.TACH_LOST 0, [(6, 0x20)]⟩,
  ⟨COOL_PMP_STS.CAUSE 0, [(6, 0x20)]⟩,
  ⟨COOL_PMP_STS.ATTEMPT 0, [(6, 0x20)]⟩,
  ⟨COOL_PMP_STS.FLOW_LOW 0, [(6, 0x20)]⟩,
  ⟨COOL_PMP_STS.LEAK_HOLD 0, [(6, 0x20)]⟩,
  ⟨COOL_PMP_STS.STALE 0, [(6, 0x20)]⟩,
  ⟨COOL_PMP_MEAS.OUT 0, [(6, 0x20)]⟩,
  ⟨COOL_PMP_MEAS.RPM 0, [(6, 0x20)]⟩,
  ⟨COOL_FLW_CFG.K 0, [(6, 0x8)]⟩,
  ⟨COOL_FLW_RATE.FLOW 0, [(6, 0x8)]⟩,
  ⟨COOL_FLW_RATE.NOSIG 0, [(6, 0x8)]⟩,
  ⟨COOL_LK_CFG.KIND 0, [(16, 0x10)]⟩,
  ⟨COOL_LK_CFG.PERSIST 0, [(16, 0x10)]⟩,
  ⟨COOL_LK_CFG.SHDN_DLY 0, [(16, 0x10)]⟩,
  ⟨COOL_LK_CFG.GROUPS 0, [(16, 0x10)]⟩,
  ⟨COOL_LK_THR.LEAK 0, [(16, 0x10)]⟩,
  ⟨COOL_LK_THR.OPEN 0, [(16, 0x10)]⟩,
  ⟨COOL_LK_RESP.VALVES 0, [(16, 0x10)]⟩]

def rowsCOOL4 : List RegRow := [
  ⟨COOL_LK_RESP.PUMPS 0, [(16, 0x10)]⟩,
  ⟨COOL_LK_RESP.LEAK_DUTY 0, [(16, 0x10)]⟩,
  ⟨COOL_LK_STS.LEAK 0, [(16, 0x10)]⟩,
  ⟨COOL_LK_STS.ACTIVE 0, [(16, 0x10)]⟩,
  ⟨COOL_LK_STS.OPEN 0, [(16, 0x10)]⟩,
  ⟨COOL_LK_STS.CLR 0, [(16, 0x10)]⟩,
  ⟨COOL_LK_STS.IMP 0, [(16, 0x10)]⟩,
  ⟨COOL_CONS_CFG.CLASS 0, [(32, 0x10)]⟩,
  ⟨COOL_CONS_CFG.BUS 0, [(32, 0x10)]⟩,
  ⟨COOL_CONS_CFG.ADDR 0, [(32, 0x10)]⟩,
  ⟨COOL_CONS_CFG.REFUSE 0, [(32, 0x10)]⟩,
  ⟨COOL_CONS_CFG.WARN 0, [(32, 0x10)]⟩,
  ⟨COOL_CONS_LINK.FANS 0, [(32, 0x10)]⟩,
  ⟨COOL_CONS_LINK.PUMPS 0, [(32, 0x10)]⟩,
  ⟨COOL_CONS_STS.STATE 0, [(32, 0x10)]⟩,
  ⟨COOL_CONS_STS.REFUSED 0, [(32, 0x10)]⟩,
  ⟨COOL_CONS_STS.LOW 0, [(32, 0x10)]⟩,
  ⟨COOL_CONS_LIFE.HOURS 0, [(32, 0x10)]⟩]

/-- The fields of block COOL. -/
def rowsCOOL : List RegRow := rowsCOOL0 ++ rowsCOOL1 ++ rowsCOOL2 ++ rowsCOOL3 ++ rowsCOOL4

def rowsTW0 : List RegRow := [
  ⟨TW_CFG.CTRL_EN 0, [(12, 0x1000)]⟩,
  ⟨TW_CFG.TGT_EN 0, [(12, 0x1000)]⟩,
  ⟨TW_CFG.SPEED 0, [(12, 0x1000)]⟩,
  ⟨TW_CFG.ARB_RETRY 0, [(12, 0x1000)]⟩,
  ⟨TW_CFG.ATTN 0, [(12, 0x1000)]⟩,
  ⟨TW_CFG.STUCK_POL 0, [(12, 0x1000)]⟩,
  ⟨TW_CFG.SEGPWR_USE 0, [(12, 0x1000)]⟩,
  ⟨TW_CFG.MAX_CYC 0, [(12, 0x1000)]⟩,
  ⟨TW_CFG.SEG_OFF 0, [(12, 0x1000)]⟩,
  ⟨TW_CFG.SEG_SETTLE 0, [(12, 0x1000)]⟩,
  ⟨TW_CFG.WAKE 0, [(12, 0x1000)]⟩,
  ⟨TW_CFG.HANDLER 0, [(12, 0x1000)]⟩,
  ⟨TW_TGT_ADDR.ADDR0 0, [(12, 0x1000)]⟩,
  ⟨TW_TGT_ADDR.ADDR1 0, [(12, 0x1000)]⟩,
  ⟨TW_TGT_ADDR.ADDR2 0, [(12, 0x1000)]⟩,
  ⟨TW_TGT_ADDR.ADDR3 0, [(12, 0x1000)]⟩,
  ⟨TW_TGT_ADDR.EN0 0, [(12, 0x1000)]⟩,
  ⟨TW_TGT_ADDR.EN1 0, [(12, 0x1000)]⟩,
  ⟨TW_TGT_ADDR.EN2 0, [(12, 0x1000)]⟩,
  ⟨TW_TGT_ADDR.EN3 0, [(12, 0x1000)]⟩,
  ⟨TW_TGT_MASK.ADDR 0, [(12, 0x1000)]⟩,
  ⟨TW_TGT_MASK.MASK 0, [(12, 0x1000)]⟩,
  ⟨TW_TGT_MASK.MASK_MODE 0, [(12, 0x1000)]⟩,
  ⟨TW_ATTN_LIST.ADDR0 0, [(12, 0x1000)]⟩]

def rowsTW1 : List RegRow := [
  ⟨TW_ATTN_LIST.ADDR1 0, [(12, 0x1000)]⟩,
  ⟨TW_ATTN_LIST.ADDR2 0, [(12, 0x1000)]⟩,
  ⟨TW_ATTN_LIST.ADDR3 0, [(12, 0x1000)]⟩,
  ⟨TW_ATTN_LIST.EN0 0, [(12, 0x1000)]⟩,
  ⟨TW_ATTN_LIST.EN1 0, [(12, 0x1000)]⟩,
  ⟨TW_ATTN_LIST.EN2 0, [(12, 0x1000)]⟩,
  ⟨TW_ATTN_LIST.EN3 0, [(12, 0x1000)]⟩,
  ⟨TW_STS.STATE 0, [(12, 0x1000)]⟩,
  ⟨TW_STS.SCL 0, [(12, 0x1000)]⟩,
  ⟨TW_STS.SDA 0, [(12, 0x1000)]⟩,
  ⟨TW_STS.WAKE_HIT 0, [(12, 0x1000)]⟩,
  ⟨TW_STS.SEGPWR 0, [(12, 0x1000)]⟩,
  ⟨TW_ERR.ARB_LOST 0, [(12, 0x1000)]⟩,
  ⟨TW_ERR.NACK 0, [(12, 0x1000)]⟩,
  ⟨TW_ERR.TIMEOUT 0, [(12, 0x1000)]⟩,
  ⟨TW_ERR.PEC 0, [(12, 0x1000)]⟩,
  ⟨TW_ERR.BUS_ERR 0, [(12, 0x1000)]⟩,
  ⟨TW_ERR.STUCK 0, [(12, 0x1000)]⟩,
  ⟨TW_ERR.ALERT_STUCK 0, [(12, 0x1000)]⟩,
  ⟨TW_ERR.ALERT_OVF 0, [(12, 0x1000)]⟩,
  ⟨TW_ERR.TGT_OVERRUN 0, [(12, 0x1000)]⟩,
  ⟨TW_ERR.TGT_UNDERRUN 0, [(12, 0x1000)]⟩,
  ⟨TW_ARB.BIT 0, [(12, 0x1000)]⟩,
  ⟨TW_ARB.BYTE 0, [(12, 0x1000)]⟩]

def rowsTW2 : List RegRow := [
  ⟨TW_ARB.CNT 0, [(12, 0x1000)]⟩,
  ⟨TW_SEG.CYCLES 0, [(12, 0x1000)]⟩,
  ⟨TW_SEG.RUN 0, [(12, 0x1000)]⟩,
  ⟨TW_ALERT.ADDR 0, [(12, 0x1000)]⟩,
  ⟨TW_ALERT.VALID 0, [(12, 0x1000)]⟩,
  ⟨TW_ALERT.LEVEL 0, [(12, 0x1000)]⟩,
  ⟨TW_ATTN_RES.RES 0, [(12, 0x1000)]⟩,
  ⟨TW_IRQ_STS.CH_DONE 0, [(12, 0x1000)]⟩,
  ⟨TW_IRQ_STS.TGT_RX 0, [(12, 0x1000)]⟩,
  ⟨TW_IRQ_STS.TGT_TXREQ 0, [(12, 0x1000)]⟩,
  ⟨TW_IRQ_STS.ALERT 0, [(12, 0x1000)]⟩,
  ⟨TW_IRQ_STS.INBAND 0, [(12, 0x1000)]⟩,
  ⟨TW_IRQ_STS.STUCK 0, [(12, 0x1000)]⟩,
  ⟨TW_IRQ_STS.RECOVER 0, [(12, 0x1000)]⟩,
  ⟨TW_IRQ_EN.EN 0, [(12, 0x1000)]⟩,
  ⟨TW_CNT.DONE 0, [(12, 0x1000)]⟩,
  ⟨TW_CNT.FAIL 0, [(12, 0x1000)]⟩,
  ⟨TW_CH_CMD.PROT 0 0, [(12, 0x1000), (2, 0x10)]⟩,
  ⟨TW_CH_CMD.PEC 0 0, [(12, 0x1000), (2, 0x10)]⟩,
  ⟨TW_CH_CMD.ADDR 0 0, [(12, 0x1000), (2, 0x10)]⟩,
  ⟨TW_CH_CMD.CODE 0 0, [(12, 0x1000), (2, 0x10)]⟩,
  ⟨TW_CH_CMD.LEN 0 0, [(12, 0x1000), (2, 0x10)]⟩,
  ⟨TW_CH_CMD.GO 0 0, [(12, 0x1000), (2, 0x10)]⟩,
  ⟨TW_CH_STS.BUSY 0 0, [(12, 0x1000), (2, 0x10)]⟩]

def rowsTW3 : List RegRow := [
  ⟨TW_CH_STS.RESULT 0 0, [(12, 0x1000), (2, 0x10)]⟩,
  ⟨TW_CH_STS.RXLEN 0 0, [(12, 0x1000), (2, 0x10)]⟩,
  ⟨TW_TGT_CTL.READY 0, [(12, 0x1000)]⟩,
  ⟨TW_TGT_CTL.RX_ACK 0, [(12, 0x1000)]⟩,
  ⟨TW_TGT_CTL.TX_VALID 0, [(12, 0x1000)]⟩,
  ⟨TW_TGT_CTL.TX_LEN 0, [(12, 0x1000)]⟩,
  ⟨TW_TGT_STS.RX_FULL 0, [(12, 0x1000)]⟩,
  ⟨TW_TGT_STS.PEC_OK 0, [(12, 0x1000)]⟩,
  ⟨TW_TGT_STS.READ_PEND 0, [(12, 0x1000)]⟩,
  ⟨TW_TGT_STS.MATCH_ADDR 0, [(12, 0x1000)]⟩,
  ⟨TW_TGT_STS.RX_LEN 0, [(12, 0x1000)]⟩,
  ⟨TW_CH_BUF.DATA 0 0 0, [(12, 0x1000), (2, 0x100), (64, 0x4)]⟩,
  ⟨TW_TGT_RX.DATA 0 0, [(12, 0x1000), (64, 0x4)]⟩,
  ⟨TW_TGT_TX.DATA 0 0, [(12, 0x1000), (64, 0x4)]⟩]

/-- The fields of block TW. -/
def rowsTW : List RegRow := rowsTW0 ++ rowsTW1 ++ rowsTW2 ++ rowsTW3

def rowsSIL0 : List RegRow := [
  ⟨SIL_CTL.FREEZE, []⟩,
  ⟨SIL_CTL.SERVICE, []⟩,
  ⟨SIL_CTL.RECOV, []⟩,
  ⟨SIL_CTL.NVM_CLR, []⟩,
  ⟨SIL_STS.MODE, []⟩,
  ⟨SIL_STS.FROZEN, []⟩,
  ⟨SIL_STS.FULL, []⟩,
  ⟨SIL_STS.QFULL, []⟩,
  ⟨SIL_STS.NVM_LOST, []⟩,
  ⟨SIL_CFG.FREEZE_MAX, []⟩,
  ⟨SIL_WSEQ.NEXT, []⟩,
  ⟨SIL_FLOOD_SEQ.FIRST, []⟩,
  ⟨SIL_BOOT.BOOT, []⟩,
  ⟨SIL_NVM.KEPT, []⟩,
  ⟨SIL_NVM.LOST, []⟩,
  ⟨SIL_UNLISTED.OVERFLOW, []⟩,
  ⟨SIL_UNLISTED.AO_LOST, []⟩,
  ⟨SIL_CNT_CLR.CLR, []⟩,
  ⟨SIL_NVM_SEL.IDX, []⟩,
  ⟨SIL_NVM_REC.DATA 0, [(16, 0x4)]⟩,
  ⟨SIL_GRP.OPEN 0, [(32, 0x4)]⟩,
  ⟨SIL_GRP.HELD 0, [(32, 0x4)]⟩,
  ⟨SIL_GRP.COUNT 0, [(32, 0x4)]⟩,
  ⟨SIL_GRP_PARENT.PARENT 0, [(32, 0x4)]⟩]

def rowsSIL1 : List RegRow := [
  ⟨SIL_PORT_W.DATA 0 0, [(6, 0x40), (12, 0x4)]⟩,
  ⟨SIL_CODE_CFG0.CODE 0, [(1024, 0x10)]⟩,
  ⟨SIL_CODE_CFG0.GROUP 0, [(1024, 0x10)]⟩,
  ⟨SIL_CODE_CFG0.PERSIST 0, [(1024, 0x10)]⟩,
  ⟨SIL_CODE_CFG0.PARENT 0, [(1024, 0x10)]⟩,
  ⟨SIL_CODE_CFG1.RATE 0, [(1024, 0x10)]⟩,
  ⟨SIL_CODE_CFG1.BURST 0, [(1024, 0x10)]⟩,
  ⟨SIL_CODE_CFG1.TOKENS 0, [(1024, 0x10)]⟩,
  ⟨SIL_CODE_CNT.SUPPRESSED 0, [(1024, 0x10)]⟩,
  ⟨SIL_CODE_CNT.OVERFLOW 0, [(1024, 0x10)]⟩]

/-- The fields of block SIL. -/
def rowsSIL : List RegRow := rowsSIL0 ++ rowsSIL1

def rowsACD0 : List RegRow := [
  ⟨ACD_STS.STATE, []⟩,
  ⟨ACD_STS.SLOT, []⟩,
  ⟨ACD_STS.PENDING, []⟩,
  ⟨ACD_STS.RELOAD_FAIL, []⟩,
  ⟨ACD_STS.OTHER_REFUSED, []⟩,
  ⟨ACD_STS.FAIL_STEP, []⟩,
  ⟨ACD_STS.FAIL_REC, []⟩,
  ⟨ACD_INFO.ACC_COUNT, []⟩,
  ⟨ACD_INFO.LP_CAP, []⟩,
  ⟨ACD_INFO.SET_FMT, []⟩,
  ⟨ACD_ROLLBACK.CTR, []⟩,
  ⟨ACD_TRAY_TYPE.TYPE, []⟩,
  ⟨ACD_EPOCH_LO.EPOCH_LO, []⟩,
  ⟨ACD_EPOCH_HI.EPOCH_HI, []⟩,
  ⟨ACD_FPGEN.GEN, []⟩,
  ⟨ACD_FP_CTL.SNAP, []⟩,
  ⟨ACD_FP_SNAPGEN.GEN, []⟩,
  ⟨ACD_FP_SNAPEP_LO.EP_LO, []⟩,
  ⟨ACD_FP_SNAPEP_HI.EP_HI, []⟩,
  ⟨ACD_FP.FP 0, [(12, 0x4)]⟩,
  ⟨ACD_IMG_DG.DG 0, [(12, 0x4)]⟩,
  ⟨ACD_SET_DG.DG 0, [(12, 0x4)]⟩,
  ⟨ACD_STRUCT_DG.DG 0, [(12, 0x4)]⟩,
  ⟨ACD_CEIL_PWR.ACC_PMAX, []⟩]

def rowsACD1 : List RegRow := [
  ⟨ACD_CEIL_PWR.TRAY_PMAX, []⟩,
  ⟨ACD_CEIL_TEMP.TJ_RED_MAX, []⟩,
  ⟨ACD_CEIL_MISC.VOFS_MAX, []⟩,
  ⟨ACD_CEIL_MISC.MARGIN_MAX, []⟩,
  ⟨ACD_CEIL_MISC.FAN_MIN, []⟩,
  ⟨ACD_CEIL_MISC.HWDT_MAX, []⟩]

/-- The fields of block ACD. -/
def rowsACD : List RegRow := rowsACD0 ++ rowsACD1

def rowsKEY0 : List RegRow := [
  ⟨KEY_DEVID.STEPPING, []⟩,
  ⟨KEY_DEVID.GRADE, []⟩,
  ⟨KEY_DEVID.PART, []⟩,
  ⟨KEY_UNIT.UID 0, [(4, 0x4)]⟩,
  ⟨KEY_STS.READY, []⟩,
  ⟨KEY_STS.PUF_FAIL, []⟩,
  ⟨KEY_STS.MFG_LOCK, []⟩,
  ⟨KEY_STS.DBG_OPEN, []⟩,
  ⟨KEY_OWNER.ACTIVE, []⟩,
  ⟨KEY_OWNER.VALID, []⟩,
  ⟨KEY_OWNER.RETIRED, []⟩,
  ⟨KEY_PRES.OPEN, []⟩,
  ⟨KEY_PRES.SEAL_OK, []⟩,
  ⟨KEY_PRES.SEAL_BROKEN, []⟩,
  ⟨KEY_PRES.CLOSE, []⟩,
  ⟨KEY_PRES.SRC, []⟩,
  ⟨KEY_PRES.REMAIN, []⟩,
  ⟨KEY_PRES_CFG.MODE, []⟩,
  ⟨KEY_PRES_CFG.JMP_EN, []⟩,
  ⟨KEY_DBG.SCOPE, []⟩,
  ⟨KEY_DBG.REMAIN, []⟩,
  ⟨KEY_SETFMT.FMT, []⟩,
  ⟨KEY_STAGED.PROG, []⟩,
  ⟨KEY_STAGED.CFW, []⟩]

def rowsKEY1 : List RegRow := [
  ⟨KEY_STAGED.KFW, []⟩,
  ⟨KEY_STAGED.ACD, []⟩,
  ⟨KEY_FLOOR.FLOOR 0, [(4, 0x4)]⟩,
  ⟨KEY_REQ_CMD.OP, []⟩,
  ⟨KEY_REQ_CMD.GO, []⟩,
  ⟨KEY_REQ_STS.BUSY, []⟩,
  ⟨KEY_REQ_STS.RESULT, []⟩,
  ⟨KEY_REQ_BUF.DATA 0, [(4096, 0x4)]⟩]

/-- The fields of block KEY. -/
def rowsKEY : List RegRow := rowsKEY0 ++ rowsKEY1

def rowsBRG0 : List RegRow := [
  ⟨BRG_CTL.FENCE, []⟩,
  ⟨BRG_CTL.RETRAIN, []⟩,
  ⟨BRG_CTL.REPLAY_MAX, []⟩,
  ⟨BRG_CTL.LIVE_TO, []⟩,
  ⟨BRG_CTL.RD_TO, []⟩,
  ⟨BRG_STS.STATE, []⟩,
  ⟨BRG_STS.TOP_LOST, []⟩,
  ⟨BRG_STS.TRAIN_FAIL, []⟩,
  ⟨BRG_STS.REPLAY_EXH, []⟩,
  ⟨BRG_STS.RD_TIMEOUT, []⟩,
  ⟨BRG_STS.GUARD_STALE, []⟩,
  ⟨BRG_STS.BLOCKED, []⟩,
  ⟨BRG_STS.LOST_FB, []⟩,
  ⟨BRG_ECC_CNT.CORR, []⟩,
  ⟨BRG_ECC_CNT.UNCORR, []⟩,
  ⟨BRG_CNT_CLR.CLR, []⟩,
  ⟨BRG_SEQ.BULK_RX, []⟩,
  ⟨BRG_LOST_TS_LO.TS_LO, []⟩,
  ⟨BRG_LOST_TS_HI.TS_HI, []⟩,
  ⟨BRG_EVT_CNT.UP_CNT, []⟩,
  ⟨BRG_EVT_CNT.LOST_CNT, []⟩,
  ⟨BRG_HOLD.HOLD, []⟩,
  ⟨BRG_HOLD.STEP, []⟩,
  ⟨BRG_LOG_MSEQ.MSEQ, []⟩]

/-- The fields of block BRG. -/
def rowsBRG : List RegRow := rowsBRG0

def rowsKPR0 : List RegRow := [
  ⟨KPR_CTL.K1_RUN, []⟩,
  ⟨KPR_WDT_CFG.PERIOD, []⟩,
  ⟨KPR_WDT_CFG.MASK, []⟩,
  ⟨KPR_WDT_KICK.KEY, []⟩,
  ⟨KPR_WDT_STS.KICKED, []⟩,
  ⟨KPR_WDT_STS.REMAIN, []⟩,
  ⟨KPR_TOPWDT.SEEN, []⟩,
  ⟨KPR_TOPWDT.CNT, []⟩,
  ⟨KPR_LOG_PORT.DATA 0, [(8, 0x4)]⟩]

/-- The fields of block KPR. -/
def rowsKPR : List RegRow := rowsKPR0

def rowsFW0 : List RegRow := [
  ⟨FW_CORE_STS.STATE, []⟩,
  ⟨FW_WDT_CFG.EN 0, [(4, 0x4)]⟩,
  ⟨FW_WDT_CFG.PERIOD 0, [(4, 0x4)]⟩,
  ⟨FW_WDT_KICK.KEY 0, [(4, 0x4)]⟩,
  ⟨FW_TOPWDT_CFG.PERIOD, []⟩,
  ⟨FW_TOPWDT_KICK.KEY, []⟩,
  ⟨FW_TOPWDT_STS.ARMED, []⟩,
  ⟨FW_TOPWDT_STS.REMAIN, []⟩,
  ⟨FW_PANIC.PANIC, []⟩,
  ⟨FW_CRASH_CAUSE.CAUSE 0, [(4, 0x40)]⟩,
  ⟨FW_CRASH_CAUSE.FB 0, [(4, 0x40)]⟩,
  ⟨FW_CRASH_CAUSE.CNT 0, [(4, 0x40)]⟩,
  ⟨FW_CRASH_MCAUSE_LO.V 0, [(4, 0x40)]⟩,
  ⟨FW_CRASH_MCAUSE_HI.V 0, [(4, 0x40)]⟩,
  ⟨FW_CRASH_MEPC_LO.V 0, [(4, 0x40)]⟩,
  ⟨FW_CRASH_MEPC_HI.V 0, [(4, 0x40)]⟩,
  ⟨FW_CRASH_MTVAL_LO.V 0, [(4, 0x40)]⟩,
  ⟨FW_CRASH_MTVAL_HI.V 0, [(4, 0x40)]⟩,
  ⟨FW_CRASH_TS_LO.V 0, [(4, 0x40)]⟩,
  ⟨FW_CRASH_TS_HI.V 0, [(4, 0x40)]⟩,
  ⟨FW_TEXT_BASE.LOCK, []⟩,
  ⟨FW_TEXT_BASE.BASE, []⟩,
  ⟨FW_TEXT_LIMIT.LIMIT, []⟩,
  ⟨FW_LOG_BASE.BASE, []⟩]

def rowsFW1 : List RegRow := [
  ⟨FW_LOG_SIZE.SIZE, []⟩,
  ⟨FW_LOG_SEQ.SEQ, []⟩,
  ⟨FW_LOG_PORT.DATA 0 0, [(4, 0x20), (8, 0x4)]⟩,
  ⟨FW_TRACE_EN.EN 0, [(8, 0x4)]⟩]

/-- The fields of block FW. -/
def rowsFW : List RegRow := rowsFW0 ++ rowsFW1

def rowsINF0 : List RegRow := [
  ⟨INF_CAP.TILES, []⟩,
  ⟨INF_CAP.CLUSTERS, []⟩,
  ⟨INF_CAP.SLOTS, []⟩,
  ⟨INF_CAP.VER, []⟩,
  ⟨INF_CTL.RUN, []⟩,
  ⟨INF_CTL.ADAPT_ALLOW, []⟩,
  ⟨INF_CTL.STOP_ALL, []⟩,
  ⟨INF_STS.RUNNING, []⟩,
  ⟨INF_STS.CL_BUSY, []⟩,
  ⟨INF_STS.PLL1_OK, []⟩,
  ⟨INF_STS.HELD, []⟩,
  ⟨INF_ERR.WPROT, []⟩,
  ⟨INF_ERR.OUTQ_DROP, []⟩,
  ⟨INF_ERR.ECC_CORR, []⟩,
  ⟨INF_ERR.ECC_UNCORR, []⟩,
  ⟨INF_ERR.FAULT, []⟩,
  ⟨INF_ERR.NAN, []⟩,
  ⟨INF_ERR.SAT, []⟩,
  ⟨INF_ECC_CNT.CORR, []⟩,
  ⟨INF_ECC_CNT.UNCORR, []⟩,
  ⟨INF_TAMP_VIEW.LVL, []⟩,
  ⟨INF_OUTQ.LEVEL, []⟩,
  ⟨INF_OUTQ.DROP, []⟩,
  ⟨INF_UTIL.UTIL, []⟩]

def rowsINF1 : List RegRow := [
  ⟨INF_CNT_CLR.CLR, []⟩,
  ⟨INF_SLOT_CTL.EN 0, [(16, 0x40)]⟩,
  ⟨INF_SLOT_CTL.ABORT 0, [(16, 0x40)]⟩,
  ⟨INF_SLOT_CTL.STATE_INIT 0, [(16, 0x40)]⟩,
  ⟨INF_SLOT_CTL.CLR_FAULT 0, [(16, 0x40)]⟩,
  ⟨INF_SLOT_CTL.TRIG_EN 0, [(16, 0x40)]⟩,
  ⟨INF_SLOT_CTL.ADAPT_EN 0, [(16, 0x40)]⟩,
  ⟨INF_SLOT_CTL.NAN_POL 0, [(16, 0x40)]⟩,
  ⟨INF_SLOT_CTL.ACC 0, [(16, 0x40)]⟩,
  ⟨INF_SLOT_PERIOD.PERIOD 0, [(16, 0x40)]⟩,
  ⟨INF_SLOT_PHASE.PHASE 0, [(16, 0x40)]⟩,
  ⟨INF_SLOT_PROG.CYC 0, [(16, 0x40)]⟩,
  ⟨INF_SLOT_PROG.CLMASK 0, [(16, 0x40)]⟩,
  ⟨INF_SLOT_PROG.NACT 0, [(16, 0x40)]⟩,
  ⟨INF_SLOT_STS.STATE 0, [(16, 0x40)]⟩,
  ⟨INF_SLOT_STS.RUN 0, [(16, 0x40)]⟩,
  ⟨INF_SLOT_STS.CAUSE 0, [(16, 0x40)]⟩,
  ⟨INF_SLOT_STS.REFUSE 0, [(16, 0x40)]⟩,
  ⟨INF_SLOT_STS.STATE_BAD 0, [(16, 0x40)]⟩,
  ⟨INF_SLOT_STS.NAN 0, [(16, 0x40)]⟩,
  ⟨INF_SLOT_STS.SAT 0, [(16, 0x40)]⟩,
  ⟨INF_SLOT_STS.PEND 0, [(16, 0x40)]⟩,
  ⟨INF_SLOT_RUNS.CNT 0, [(16, 0x40)]⟩,
  ⟨INF_SLOT_SKIP.SKIP 0, [(16, 0x40)]⟩]

def rowsINF2 : List RegRow := [
  ⟨INF_SLOT_SKIP.LATE 0, [(16, 0x40)]⟩,
  ⟨INF_SLOT_DELAY.MAX 0, [(16, 0x40)]⟩,
  ⟨INF_SLOT_DELAY.LAST 0, [(16, 0x40)]⟩,
  ⟨INF_SLOT_FPOS.BUNDLE 0, [(16, 0x40)]⟩,
  ⟨INF_SLOT_FCYC.CYCLE 0, [(16, 0x40)]⟩,
  ⟨INF_SLOT_ADCFG.STEP 0, [(16, 0x40)]⟩,
  ⟨INF_SLOT_ADCFG.BAND 0, [(16, 0x40)]⟩,
  ⟨INF_SLOT_ADCFG.WIN 0, [(16, 0x40)]⟩,
  ⟨INF_SLOT_ADCFG.ROLL_MAX 0, [(16, 0x40)]⟩,
  ⟨INF_SLOT_ADSTS.STATE 0, [(16, 0x40)]⟩,
  ⟨INF_SLOT_ADSTS.ADAPT_RST 0, [(16, 0x40)]⟩,
  ⟨INF_SLOT_ADSTS.RUN_RB 0, [(16, 0x40)]⟩,
  ⟨INF_SLOT_ADSTS.COMMITS 0, [(16, 0x40)]⟩,
  ⟨INF_SLOT_ADSTS.ROLLBACKS 0, [(16, 0x40)]⟩,
  ⟨INF_SLOT_ADREF.REFUSED 0, [(16, 0x40)]⟩,
  ⟨INF_SLOT_ADREF.CONFIRMED 0, [(16, 0x40)]⟩,
  ⟨INF_SLOT_SAT.SAT_CNT 0, [(16, 0x40)]⟩,
  ⟨INF_SLOT_SAT.NAN_CNT 0, [(16, 0x40)]⟩,
  ⟨INF_SLOT_OUT.CLAMP 0, [(16, 0x40)]⟩,
  ⟨INF_SLOT_OUT.NANDROP 0, [(16, 0x40)]⟩,
  ⟨INF_OUT_CFG.KIND 0, [(64, 0x8)]⟩,
  ⟨INF_OUT_CFG.SLOT 0, [(64, 0x8)]⟩,
  ⟨INF_OUT_CFG.ACC 0, [(64, 0x8)]⟩,
  ⟨INF_OUT_CFG.TARGET 0, [(64, 0x8)]⟩]

def rowsINF3 : List RegRow := [
  ⟨INF_OUT_BND.LO 0, [(64, 0x8)]⟩,
  ⟨INF_OUT_BND.HI 0, [(64, 0x8)]⟩]

/-- The fields of block INF. -/
def rowsINF : List RegRow := rowsINF0 ++ rowsINF1 ++ rowsINF2 ++ rowsINF3

def rowsNET0 : List RegRow := [
  ⟨NET_CFG.EN 0, [(2, 0x10000)]⟩,
  ⟨NET_CFG.PMD 0, [(2, 0x10000)]⟩,
  ⟨NET_CFG.AN 0, [(2, 0x10000)]⟩,
  ⟨NET_CFG.JUMBO 0, [(2, 0x10000)]⟩,
  ⟨NET_CFG.V4 0, [(2, 0x10000)]⟩,
  ⟨NET_CFG.V6 0, [(2, 0x10000)]⟩,
  ⟨NET_CFG.VLAN 0, [(2, 0x10000)]⟩,
  ⟨NET_CFG.VID 0, [(2, 0x10000)]⟩,
  ⟨NET_CTL.RETRAIN 0, [(2, 0x10000)]⟩,
  ⟨NET_CTL.START 0, [(2, 0x10000)]⟩,
  ⟨NET_STS.STATE 0, [(2, 0x10000)]⟩,
  ⟨NET_STS.FEC_LOCK 0, [(2, 0x10000)]⟩,
  ⟨NET_STS.PMD_ACT 0, [(2, 0x10000)]⟩,
  ⟨NET_V4.ADDR 0, [(2, 0x10000)]⟩,
  ⟨NET_V6.ADDR 0 0, [(2, 0x10000), (4, 0x4)]⟩,
  ⟨NET_MAC_LO.MAC_LO 0, [(2, 0x10000)]⟩,
  ⟨NET_MAC_HI.MAC_HI 0, [(2, 0x10000)]⟩,
  ⟨NET_FEC.CORR 0, [(2, 0x10000)]⟩,
  ⟨NET_FEC.UNCORR 0, [(2, 0x10000)]⟩,
  ⟨NET_RX.CNT 0, [(2, 0x10000)]⟩,
  ⟨NET_DROP.BAD 0, [(2, 0x10000)]⟩,
  ⟨NET_DROP.OTHER 0, [(2, 0x10000)]⟩,
  ⟨NET_LINK.DOWN 0, [(2, 0x10000)]⟩,
  ⟨NET_CNT_CLR.CLR 0, [(2, 0x10000)]⟩]

/-- The fields of block NET. -/
def rowsNET : List RegRow := rowsNET0

def rowsSES0 : List RegRow := [
  ⟨SES_CTL.OPEN_EN, []⟩,
  ⟨SES_CTL.CLOSE_ALL, []⟩,
  ⟨SES_CFG.HB_PER, []⟩,
  ⟨SES_VER.MAJ, []⟩,
  ⟨SES_VER.MIN, []⟩,
  ⟨SES_STS.OPEN, []⟩,
  ⟨SES_STS.HS, []⟩,
  ⟨SES_STS.BND, []⟩,
  ⟨SES_JOB.RUNNING, []⟩,
  ⟨SES_JOB.BOUNDARY, []⟩,
  ⟨SES_CAP.CAP 0, [(9, 0x4)]⟩,
  ⟨SES_CAP.SRC 0, [(9, 0x4)]⟩,
  ⟨SES_CAP.SET 0, [(9, 0x4)]⟩,
  ⟨SES_ZFLOOR.FLOOR 0, [(8, 0x4)]⟩,
  ⟨SES_ZFLOOR.SRC 0, [(8, 0x4)]⟩,
  ⟨SES_ZFLOOR.SET 0, [(8, 0x4)]⟩,
  ⟨SES_PFLOOR.FLOOR 0, [(6, 0x4)]⟩,
  ⟨SES_PFLOOR.SRC 0, [(6, 0x4)]⟩,
  ⟨SES_PFLOOR.SET 0, [(6, 0x4)]⟩,
  ⟨SES_RXQ_BASE.BASE, []⟩,
  ⟨SES_TXQ_BASE.BASE, []⟩,
  ⟨SES_RXQ_PTR.WR, []⟩,
  ⟨SES_RXQ_PTR.RD, []⟩,
  ⟨SES_TXQ_PTR.WR, []⟩]

def rowsSES1 : List RegRow := [
  ⟨SES_TXQ_PTR.RD, []⟩,
  ⟨SES_ERR0.AUTH_FAIL, []⟩,
  ⟨SES_ERR0.REPLAY, []⟩,
  ⟨SES_ERR1.BAD_MSG, []⟩,
  ⟨SES_ERR1.DENIED, []⟩,
  ⟨SES_ERR2.HS_FAIL, []⟩,
  ⟨SES_ERR2.RXQ_FULL, []⟩,
  ⟨SES_IRQ_STS.RXQ, []⟩,
  ⟨SES_IRQ_STS.BND_RISE, []⟩,
  ⟨SES_IRQ_STS.OPENED, []⟩,
  ⟨SES_IRQ_STS.CLOSED, []⟩,
  ⟨SES_IRQ_STS.FLOOR, []⟩,
  ⟨SES_IRQ_EN.EN, []⟩,
  ⟨SES_CNT_CLR.CLR, []⟩]

/-- The fields of block SES. -/
def rowsSES : List RegRow := rowsSES0 ++ rowsSES1

def rowsHNT0 : List RegRow := [
  ⟨HNT_CTL.EN, []⟩,
  ⟨HNT_CTL.FLUSH, []⟩,
  ⟨HNT_STS.SIG_DUP, []⟩,
  ⟨HNT_STS.HELD, []⟩,
  ⟨HNT_LAST_REF.ACC, []⟩,
  ⟨HNT_LAST_REF.CODE, []⟩,
  ⟨HNT_LAST_REF.SESSION, []⟩,
  ⟨HNT_LAST_REF.HINT_ID, []⟩,
  ⟨HNT_ACC_CFG.EN 0, [(8, 0x4)]⟩,
  ⟨HNT_ACC_CFG.MISS_SLOT 0, [(8, 0x4)]⟩,
  ⟨HNT_ACC_CFG.MISS_TRIG 0, [(8, 0x4)]⟩,
  ⟨HNT_ACC_CFG.MISS_LEAD 0, [(8, 0x4)]⟩,
  ⟨HNT_ACC_LVL.QLEVEL 0, [(8, 0x4)]⟩,
  ⟨HNT_ACC_LVL.TOKENS 0, [(8, 0x4)]⟩,
  ⟨HNT_ACC_CNT0.ACCEPTED 0, [(8, 0x8)]⟩,
  ⟨HNT_ACC_CNT0.FIRED 0, [(8, 0x8)]⟩,
  ⟨HNT_ACC_CNT1.REFUSED 0, [(8, 0x8)]⟩,
  ⟨HNT_ACC_CNT1.DROPPED 0, [(8, 0x8)]⟩,
  ⟨HNT_CNT_CLR.CLR, []⟩]

/-- The fields of block HNT. -/
def rowsHNT : List RegRow := rowsHNT0

def rowsSESS0 : List RegRow := [
  ⟨SESS_STS.STATE 0, [(16, 0x1000)]⟩,
  ⟨SESS_STS.CLASSES 0, [(16, 0x1000)]⟩,
  ⟨SESS_STS.MISMATCH 0, [(16, 0x1000)]⟩,
  ⟨SESS_STS.PORT 0, [(16, 0x1000)]⟩,
  ⟨SESS_STS.IPV6 0, [(16, 0x1000)]⟩,
  ⟨SESS_STS.SCOPE 0, [(16, 0x1000)]⟩,
  ⟨SESS_STS.JOB 0, [(16, 0x1000)]⟩,
  ⟨SESS_STS.EVENTS 0, [(16, 0x1000)]⟩,
  ⟨SESS_STS.RECORDER 0, [(16, 0x1000)]⟩,
  ⟨SESS_SID.SID 0, [(16, 0x1000)]⟩,
  ⟨SESS_MASK.ACC_MASK 0, [(16, 0x1000)]⟩,
  ⟨SESS_MASK.ZONE_MASK 0, [(16, 0x1000)]⟩,
  ⟨SESS_MASK.PUMP_MASK 0, [(16, 0x1000)]⟩,
  ⟨SESS_VER.VMAJ 0, [(16, 0x1000)]⟩,
  ⟨SESS_VER.VMIN 0, [(16, 0x1000)]⟩,
  ⟨SESS_RSEQ_LO.V 0, [(16, 0x1000)]⟩,
  ⟨SESS_RSEQ_HI.V 0, [(16, 0x1000)]⟩,
  ⟨SESS_TSEQ_LO.V 0, [(16, 0x1000)]⟩,
  ⟨SESS_TSEQ_HI.V 0, [(16, 0x1000)]⟩,
  ⟨SESS_IDLE.IDLE 0, [(16, 0x1000)]⟩,
  ⟨SESS_OPEN_TS_LO.V 0, [(16, 0x1000)]⟩,
  ⟨SESS_OPEN_TS_HI.V 0, [(16, 0x1000)]⟩]

/-- The fields of block SESS. -/
def rowsSESS : List RegRow := rowsSESS0

def rowsTL0 : List RegRow := [
  ⟨TL_CTL.EN 0, [(8, 0x10000)]⟩,
  ⟨TL_CTL.RETRAIN 0, [(8, 0x10000)]⟩,
  ⟨TL_CTL.AUTO_RETRAIN 0, [(8, 0x10000)]⟩,
  ⟨TL_CTL.MAX_TRY 0, [(8, 0x10000)]⟩,
  ⟨TL_BC.BUS 0, [(8, 0x10000)]⟩,
  ⟨TL_BC.ADDR 0, [(8, 0x10000)]⟩,
  ⟨TL_STS.STATE 0, [(8, 0x10000)]⟩,
  ⟨TL_STS.CW_LOCK 0, [(8, 0x10000)]⟩,
  ⟨TL_STS.TRAIN_FAIL 0, [(8, 0x10000)]⟩,
  ⟨TL_STS.LOS 0, [(8, 0x10000)]⟩,
  ⟨TL_STS.BC_ERR 0, [(8, 0x10000)]⟩,
  ⟨TL_STS.RFMT 0, [(8, 0x10000)]⟩,
  ⟨TL_STS.FAIL_STEP 0, [(8, 0x10000)]⟩,
  ⟨TL_FEC.CORR 0, [(8, 0x10000)]⟩,
  ⟨TL_FEC.UNCORR 0, [(8, 0x10000)]⟩,
  ⟨TL_FRM.APPLIED 0, [(8, 0x10000)]⟩,
  ⟨TL_FERR.CRC 0, [(8, 0x10000)]⟩,
  ⟨TL_FERR.LOST 0, [(8, 0x10000)]⟩,
  ⟨TL_VERR.BADFRM 0, [(8, 0x10000)]⟩,
  ⟨TL_VERR.UNMAPPED 0, [(8, 0x10000)]⟩,
  ⟨TL_VERR2.FMTERR 0, [(8, 0x10000)]⟩,
  ⟨TL_VERR2.NAN 0, [(8, 0x10000)]⟩,
  ⟨TL_TRY.ATTEMPTS 0, [(8, 0x10000)]⟩,
  ⟨TL_TRY.LOS_CNT 0, [(8, 0x10000)]⟩]

def rowsTL1 : List RegRow := [
  ⟨TL_CNT_CLR.CLR 0, [(8, 0x10000)]⟩]

/-- The fields of block TL. -/
def rowsTL : List RegRow := rowsTL0 ++ rowsTL1

def rowsTFAB0 : List RegRow := [
  ⟨TFAB_CTL.MAP_DONE, []⟩,
  ⟨TFAB_CTL.REC_RUN, []⟩,
  ⟨TFAB_STS.MAP_LOADED, []⟩,
  ⟨TFAB_STS.MAP_ECC, []⟩,
  ⟨TFAB_STS.REC_DROP, []⟩,
  ⟨TFAB_STS.REC_STATE, []⟩,
  ⟨TFAB_MAP_ERR.LAST_IDX, []⟩,
  ⟨TFAB_MAP_ERR.CNT, []⟩,
  ⟨TFAB_REC_BASE.BASE, []⟩,
  ⟨TFAB_REC_SIZE.NBUF, []⟩,
  ⟨TFAB_REC_CFG.BW, []⟩,
  ⟨TFAB_REC_CFG.FLUSH, []⟩,
  ⟨TFAB_REC_CFG.POST, []⟩,
  ⟨TFAB_REC_CTL.REARM, []⟩,
  ⟨TFAB_REC_CTL.SWTRIG, []⟩,
  ⟨TFAB_REC_CTL.FLUSH, []⟩,
  ⟨TFAB_REC_SEQ.LAST, []⟩,
  ⟨TFAB_REC_FIRST.FIRST, []⟩,
  ⟨TFAB_REC_TRIG.BUFSEQ, []⟩,
  ⟨TFAB_REC_TSRC.UNIT, []⟩,
  ⟨TFAB_REC_TSRC.MISS, []⟩,
  ⟨TFAB_REC_DROP.DROPPED, []⟩,
  ⟨TFAB_CNT_CLR.CLR, []⟩,
  ⟨TFAB_TRG_CFG.EN 0, [(16, 0x8)]⟩]

def rowsTFAB1 : List RegRow := [
  ⟨TFAB_TRG_CFG.SRC 0, [(16, 0x8)]⟩,
  ⟨TFAB_TRG_CFG.LVL 0, [(16, 0x8)]⟩,
  ⟨TFAB_TRG_CFG.INDEX 0, [(16, 0x8)]⟩,
  ⟨TFAB_TRG_THR.THR 0, [(16, 0x8)]⟩]

/-- The fields of block TFAB. -/
def rowsTFAB : List RegRow := rowsTFAB0 ++ rowsTFAB1

def rowsLPC0 : List RegRow := [
  ⟨LPC_CFG.RATE, []⟩,
  ⟨LPC_STS.INIT_DONE, []⟩,
  ⟨LPC_STS.SELF_REFRESH, []⟩,
  ⟨LPC_STS.TRAIN_FAIL, []⟩,
  ⟨LPC_STS.UNCORR, []⟩,
  ⟨LPC_ECC_CNT.CORR, []⟩,
  ⟨LPC_ECC_CNT.UNCORR, []⟩,
  ⟨LPC_ERR_ADDR_LO.ADDR_LO, []⟩,
  ⟨LPC_ERR_ADDR_HI.ADDR_HI, []⟩]

/-- The fields of block LPC. -/
def rowsLPC : List RegRow := rowsLPC0

def rowsSEC0 : List RegRow := [
  ⟨SEC_STG_BASE.BASE, []⟩,
  ⟨SEC_STG_SIZE.MIB, []⟩,
  ⟨SEC_XFER.STATE, []⟩,
  ⟨SEC_XFER.LAST_CODE, []⟩,
  ⟨SEC_XFER.LAST_TYPE, []⟩,
  ⟨SEC_ACT.WAIT, []⟩,
  ⟨SEC_ACT.RUNNING, []⟩,
  ⟨SEC_ACT.ABANDON, []⟩,
  ⟨SEC_CNT.ACCEPTED, []⟩,
  ⟨SEC_CNT.REFUSED, []⟩]

/-- The fields of block SEC. -/
def rowsSEC : List RegRow := rowsSEC0

def rowsSVC0 : List RegRow := [
  ⟨SVC_CFG.V4, []⟩,
  ⟨SVC_CFG.V6, []⟩,
  ⟨SVC_STS.LINK, []⟩,
  ⟨SVC_STS.SPEED, []⟩,
  ⟨SVC_V4.ADDR, []⟩,
  ⟨SVC_V6.ADDR 0, [(4, 0x4)]⟩,
  ⟨SVC_MAC_LO.MAC, []⟩,
  ⟨SVC_MAC_HI.MAC, []⟩]

/-- The fields of block SVC. -/
def rowsSVC : List RegRow := rowsSVC0

end Sys2Proof.Machine
end

