-- ==== Sys2Proof/Machine/State.lean ====
section
/-! DEFINITION. The state of the block as plain data: the register file, the structured state of every unit, memory, the
commands that are waiting, and the state after reset. Registers stand in `regs`, keyed by field (Machine/RegMap.lean);
what a unit holds beyond its plain register fields stands in that unit's record. -/

namespace Sys2Proof.Machine

/-- Why a step ends in a fault. No meaning raises one: the spec gives every command an effect, a bus error included, and
a bus error is a completion (R9, R10, R21), held in State.bus. -/
inductive Fault where
  /-- Raised by no meaning; kept so that the type of outcomes stays the host's. Safe. -/
  | none
deriving DecidableEq, Repr

/-- Why a command has no meaning. -/
inductive Refusal where
  /-- Raised by Dispatch for a command that is not modelled. Safe: the machine stops. -/
  | notModelled (mnemonic : String)
deriving DecidableEq, Repr

/-- How the last bus access ended (R9, R10, R21). -/
inductive BusDone where
  | idle
  | written
  | value (v : Nat)
  | error
  /-- the port of a domain whose gate is asked for holds the request (R87) -/
  | held
  /-- the access did not leave the core: the core traps (R396) -/
  | trap
deriving DecidableEq, Repr

/-- The time base (R24, R25): the timestamp counter in 1/1280 ns, and the offset of the Top die's copy in ns. -/
structure TimeSt where
  ts : Nat := 0
  topOff : Int := 0
  /-- a counted gap in BASE edges, still to be added (R83), in the counter's unit -/
  gap : Nat := 0
  /-- BASE edges are absent and the monitor counts the gap (R83) -/
  stalled : Bool := false
deriving DecidableEq, Repr

/-- An event on its way to Sillage (R419). -/
structure Event where
  code : Nat
  acc : Nat
  unit : Nat
  inst : Nat
  payload : BitVec 320
  ts : Nat
  fb : Bool
  persist : Bool
  late : Bool
deriving DecidableEq, Repr

/-- An open window of a correlation group (R423, R424). -/
structure Window where
  parent : Nat
  code : Nat
  src : Nat
  openTs : Nat
  lastTs : Nat
  count : Nat
  map : Nat
deriving DecidableEq, Repr

/-- A correlation group: its window length in ms, its open window, and a summary that a freeze holds (R425). -/
structure Group where
  ms : Nat
  win : Option Window
  held : Option Rec
deriving DecidableEq, Repr

/-- A code-table entry with its bucket and counts (R422, R429, R430). `first` is the source of the first occurrence
suppressed since the code's last record, `multi` which of ACC, UNIT and INSTANCE differed since. -/
structure CodeEnt where
  code : Nat
  rate : Nat
  burst : Nat
  group : Nat
  persist : Bool
  parent : Bool
  tokens : Nat
  supp : Nat
  ovf : Nat
  first : Nat
  multiAcc : Bool
  multiUnit : Bool
  multiInst : Bool
deriving DecidableEq, Repr

/-- Sillage (R414 to R430). SIL_CTL, SIL_STS, SIL_WSEQ, the code table, the groups and the counts stand here and are
read as registers through Machine/View.lean. -/
structure SilSt where
  ring : List (Nat × Rec) := []
  queue : List Rec := []
  wseq : Nat := 0
  floodSeq : Nat := 0
  startup : Bool := true
  recovery : Bool := false
  recov : Bool := false
  frozen : Bool := false
  full : Bool := false
  qfull : Bool := false
  nvmLostFlag : Bool := false
  nvmLost : Nat := 0
  nvmMissed : Nat := 0
  modeLost : Nat := 0
  frozenTotal : Nat := 0
  frozenCodes : List Nat := []
  unlistedOvf : Nat := 0
  aoLost : Nat := 0
  groups : List Group := []
  codes : List CodeEnt := []
  unlisted : List CodeEnt := []
  nvmQueue : List Rec := []
  ao : List Event := []
  ports : List (Nat × Nat) := []
deriving DecidableEq, Repr

/-- What one NVM commit writes (R118). The cases name the P-class contents of the spec: persistent Sillage records and
their erasure (R427), the settings with their epoch (R59), captures (R280, R282), consumable life (R307), the anti-rollback
floors, staged marks and settings format (R373, R387, R392), the fingerprint generation (R63). -/
inductive NvmData where
  | silRecords (boot : Nat) (recs : List Rec)
  | silClear
  | regs (fields : List (Nat × Nat))
  /-- the settings epoch counts one up (R59) -/
  | epoch
  | blob (kind key : Nat) (bytes : List Byte)
  | blobErase (kind : Nat)
deriving DecidableEq, Repr

/-- A waiting or running commit: the journal kind and key, the data length, and what it writes. -/
structure NvmJob where
  kind : Nat
  key : Nat
  len : Nat
  data : List NvmData
deriving DecidableEq, Repr

/-- The NVM journal and its engine (R118, R119). `bank` lists the entries written in the active bank as (kind, key,
length); `kept`, `regs` and `blobs` are what the committed entries hold, of the kept Sillage records with the SIL_BOOT of their entry
(R427). -/
structure NvmSt where
  queue : List NvmJob := []
  busy : Option NvmJob := none
  compacting : Bool := false
  /-- entries of the active bank that a power loss cut off: sequence number and data length, newest first (R117, R119) -/
  cut : List (Nat × Nat) := []
  seq : Nat := 0
  bank : List (Nat × Nat × Nat) := []
  kept : List (Nat × Rec) := []
  regs : List (Nat × Nat) := []
  blobs : List (Nat × Nat × List Byte) := []
deriving DecidableEq, Repr

/-- What a Top bring-up follows (R106): it decides the power state after a failure. -/
inductive BringFrom where
  | a2Exit | topReset | coldPor | warmReset
deriving DecidableEq, Repr

/-- A running power-state transition (R101, R102, R103, R107). -/
inductive Transition where
  | toA1 | toA0 | toA2 | toA3 | a3ToA2
deriving DecidableEq, Repr

/-- What the ROM waits for IOSC with (R72, R97, R98, R107): a cold POR, with what the PUF gave and which Accord slots change
between the passes; the exit of A3; a warm reset taken in A3. -/
inductive RomWait where
  | none
  | cold (puf : Bool) (mis : List Nat)
  | a3
  | warm
deriving DecidableEq, Repr

/-- Power and reset control beyond its registers (R91 to R120, R446 to R448). -/
structure PwrSt where
  /-- TOPPWR_EN, TOPPWR_GOOD and the reset of the Top die (R100, R105) -/
  toppwrEn : Bool := false
  toppwrGood : Bool := false
  /-- when TOPPWR_GOOD rose first since the cold POR or the last fall of TOPPWR_EN (R244) -/
  goodTs : Option Nat := none
  topRst : Bool := true
  /-- the bring-up in progress: the step of R105 that runs, 0 for none, and what it follows -/
  bring : Nat := 0
  bringFrom : BringFrom := .coldPor
  bringA1 : Bool := false
  /-- the Keepers' retry of a failed bring-up is due 1 s later (R106) -/
  retry : Bool := false
  /-- a Top reset runs: waiting for the Bridge to be OFF, then 10 µs in reset (R447) -/
  topReset : Bool := false
  /-- Top-reset requests that wait for a transition to end: cause bits of PWRST_TOP_CAUSE (R446) -/
  topWait : Nat := 0
  trans : Option Transition := none
  /-- the release message of an A1 or A2 entry has been sent (R102, R103) -/
  released : Bool := false
  /-- the valid mark of the Top save block, which stands in the retention area (R103, R104) -/
  wsaveValid : Bool := false
  /-- who asked for the A1 entry that runs, and the domains that it has asked to gate (R102, R445) -/
  a1Ini : Initiator := .keeper 0
  a1Gates : List Nat := []
  /-- an exit to A0 that starts when the running transition ends (R448) -/
  exitNext : Bool := false
  /-- the exit of an A3 wake goes on to A0 -/
  toA0 : Bool := false
  /-- the internal warm reset is asserted; by the pin; causes that wait for an NVM commit (R96) -/
  warmOn : Bool := false
  warmPin : Bool := false
  warmWait : Nat := 0
  sysRstN : Bool := true
  /-- a cold POR waits at step 3 for SYS_RST_N (R95) -/
  coldHeld : Bool := false
  /-- VIN_AO below BOR: the reset of R117 is in force -/
  borOn : Bool := false
  /-- TEST_MODE is high: the T8 holds itself in cold POR (R433) -/
  testMode : Bool := false
  /-- the marker cell held its charge: the next cold POR records BOR (R117) -/
  borMark : Bool := false
  /-- BOW detection of the dip in progress (R115, R116) -/
  dipTs : Nat := 0
  dipFb : Bool := false
  dipMin : Nat := 0
  bowIrq : Bool := false
  /-- commits that a dip deferred and that have not run yet: image staging waits for them (R116) -/
  flashWait : Nat := 0
  /-- Keeper firmware is running; both slots were refused and the ROM halted (R399) -/
  keepersRun : Bool := false
  kfwHalt : Bool := false
  /-- Tamp digital sampling runs (R94, R98) -/
  sampling : Bool := true
  /-- the LPDDR5X contents are in self-refresh through the running Top reset (R113) -/
  lpHeld : Bool := false
  rom : RomWait := .none
  /-- firmware switched in NVM whose resets wait for the markers' commits: bit 0 Control-core, bit 1 Keeper firmware (R391) -/
  fwSwitch : Nat := 0
  /-- the Keeper watchdog counts, and since when (R406) -/
  kprArmed : Bool := false
  kprTs : Nat := 0
deriving DecidableEq, Repr

/-- A message queued on GUARD from Top to Base (R28): guard values as (position, 16 bits) with the tick they were assembled
for (R211, R226), proposals of output ports as (port, value), up to 16 in one message (R29), a release of ports. -/
inductive GuardMsg where
  | values (tick : Nat) (vs : List (Nat × Nat))
  | proposals (vs : List (Nat × Nat))
  | release (ports : List Nat)
deriving DecidableEq, Repr

/-- A message queued on BULK (R28): a Sillage record or a log mirror entry of eight words. -/
inductive BulkMsg where
  | event (ev : Event)
  | mirror (entry : List Nat)
deriving DecidableEq, Repr

/-- What a QUIESCE leads to (R33). -/
inductive QuiesceTo where
  | topReset | a2 | retrain
deriving DecidableEq, Repr

/-- How the Top-tier outputs stand after the Bridge left UP (R39). -/
inductive HoldState where
  | inForce | holding | retraining | reverting
deriving DecidableEq, Repr

/-- The header beat of a message (R27): its virtual channel and direction (0 Top to Base), its type, its length in data beats, its
sequence number, and for register traffic the address. -/
structure BrgHdr where
  vc : Nat
  dir : Nat
  kind : Nat
  len : Nat
  seq : Nat
  addr : Nat
deriving DecidableEq, Repr

/-- The Bridge beyond its registers (R26 to R41). `seqs` holds the next sequence number of each virtual channel and direction but
BULK from Top to Base, whose number is bulkSeq (key 3 × direction + virtual channel; R27); `hdr` is the header of the message that was
acknowledged last. -/
structure BrgSt where
  guardQ : List GuardMsg := []
  bulkQ : List BulkMsg := []
  bulkSeq : Nat := 0
  trainFails : Nat := 0
  /-- a failed training attempt waits for its repeat (R33) -/
  trainWait : Bool := false
  quiesceTo : QuiesceTo := .topReset
  hold : HoldState := .inForce
  /-- the hold of the Bridge's leaving UP again while an earlier hold runs (R39) -/
  next : HoldState := .inForce
  /-- Tamp level messages queued from Base to Top (R156): levels, two bits per accelerator -/
  levelQ : List Nat := []
  seqs : List (Nat × Nat) := []
  hdr : Option BrgHdr := none
  /-- CTRL requests that wait for the Bridge or for GUARD messages, oldest first, with the errors that they and their completions
  will meet (R28, R32) -/
  ctrlQ : List (Initiator × BusReq × Beats × Beats) := []
  /-- completions that wait for GUARD messages of their direction, oldest first: the request, the errors that the completion will meet, and
  how the access ended (R28) -/
  backQ : List (Initiator × BusReq × Beats × BusDone) := []
deriving DecidableEq, Repr

/-- Who queued a two-wire transaction (R317). -/
inductive TwOwner where
  | seqOff (rail : Nat)
  | seqOn (rail : Nat)
  | seqPoll (rail : Nat)
  | seqMargin (rail : Nat)
  | vofs (port val : Nat)
  | phases (port val : Nat)
  | bcThrottle (port link lvl : Nat)
  | bcTrain (link cmd : Nat)
  | ara
  | poll (k : Nat) (last : Bool)
  | channel (c : Nat)
  | tag (slot k : Nat)
deriving DecidableEq, Repr

/-- What a transaction reads: nothing, a fixed number of bytes, or a count and that many bytes up to a limit (R318). -/
inductive RxForm where
  | none
  | fixed (n : Nat)
  | block (max : Nat)
deriving DecidableEq, Repr

/-- A controller transaction (R317, R318): the bytes sent after the address, what is read, and the attempts left after
lost arbitration (R320). -/
structure TwTxn where
  owner : TwOwner
  addr : Nat
  page : Option Nat
  tx : List Byte
  rx : RxForm
  pec : Bool
  retries : Nat
deriving DecidableEq, Repr

/-- One port beyond its registers (R313 to R336). -/
structure TwPort where
  queue : List TwTxn := []
  cur : Option TwTxn := none
  /-- whose turn of level 5 was last: 0 and 1 the channels, 2 the tag traffic -/
  turn : Nat := 2
  alerts : List Nat := []
  alertLow : Bool := false
  araNacks : Nat := 0
  alertIgnored : Bool := false
  /-- when SMBALERT_N last rose (R327) -/
  alertTs : Nat := 0
  /-- bytes that a stretching read asks for, and the bytes that the last read was served -/
  readWant : Nat := 0
  served : List Byte := []
deriving DecidableEq, Repr

/-- A rail entry of the rail graph (R255). -/
structure RailCfg where
  rail : Nat
  group : Nat
  en : Nat
  enUse : Bool
  lossGroup : Bool
  pg : Nat
  pgSrc : Nat
  deps : List Nat
  /-- the four DEP bytes as the entry holds them -/
  depB : List Nat
  onDly : Nat
  rampMax : Nat
  rampMin : Nat
  disTo : Nat
  offDly : Nat
  dgl : Nat
  chatter : Nat
  dis : Nat
  disAin : Nat
  disAinUse : Bool
  bus : Nat
  pmbOn : Bool
  vofsCmd : Bool
  pmbAddr : Nat
  page : Nat
  vnom : Nat
  vmode : Nat
  ph : Nat
  phCmd : Nat
  mgn : Nat
  maxSteps : Nat
  mstep : Nat
  trim : Nat
  trimK : Nat
deriving DecidableEq, Repr

/-- The states of a rail (R261, R282). -/
inductive RailState where
  | off | wait | ramp | on | stop | disch | failed
deriving DecidableEq, Repr

/-- A rail: its entry, its state and what the sequencer counts for it (R261 to R265). -/
structure Rail where
  cfg : RailCfg
  st : RailState
  /-- power-good as judged -/
  pg : Bool
  chat : Nat
  msteps : Int
  rampT : Nat
  /-- timestamp of the last enable -/
  enTs : Nat
  /-- from when the ramp window counts: the enable, later where safe mode or a warm reset held the sequencer (R78, R273); a hold found
  the window open -/
  winTs : Nat
  winHeld : Bool
  /-- when power-good rose first since the enable, before deglitching (R264) -/
  rise : Option Nat
  /-- ON_DLY has passed since the last predecessor became ON -/
  dlyDone : Bool
  /-- a power-down includes the rail; it is a Black shutdown's; a fault or leak shutdown's -/
  down : Bool
  black : Bool
  fault : Bool
  /-- the last STATUS_WORD read showed good; reads with that result in a row; failed attempts of a read, and of an OPERATION write -/
  pollGood : Bool
  pollRun : Nat
  readFails : Nat
  writeFails : Nat
deriving DecidableEq, Repr

/-- A reset-output entry (R256). -/
structure RstoCfg where
  rsto : Nat
  stretch : Nat
  pre : Nat
  rails : List Nat
  /-- the four rail bytes as the entry holds them -/
  railB : List Nat
deriving DecidableEq, Repr

/-- The rail graph's header (R254). -/
structure GraphHdr where
  nrail : Nat := 0
  nrsto : Nat := 0
  bootOn : Nat := 0
  autoRestart : Bool := false
  clrNoPres : Bool := false
  minOff : Nat := 0
  inSrc : Nat := 0
  inIdx : Nat := 0
  inOn : Nat := 0
  inOff : Nat := 0
deriving DecidableEq, Repr

/-- A first-failing-rail capture (R280). -/
structure Capture where
  rail : Nat
  cause : Nat
  group : Nat
  op : Nat
  fb : Bool
  later : Nat
  ts : Nat
  en : Nat
  pg : Nat
  tEn : Nat
  ain : Nat
deriving DecidableEq, Repr

/-- What reaches the sequencer while safe mode or a warm reset holds it, to act once it runs again (R78, R273): an accepted command with
its OP and GROUPS, a leak shutdown of groups. -/
inductive SeqWait where
  | command (op groups : Nat)
  | leak (groups : Nat)
deriving DecidableEq, Repr

/-- The power sequencer (R252 to R282). The rails, the header, the reset outputs and the captures are read as registers
through Machine/View.lean. -/
structure SeqSt where
  hdr : GraphHdr := {}
  rails : List Rail := []
  rstos : List RstoCfg := []
  /-- the operation shown in SEQ_STS.OP; groups being powered up; rails whose power-down waits for a PRE; MIN_OFF has passed -/
  op : Nat := 0
  up : Nat := 0
  preWait : List Nat := []
  minOffDone : Bool := false
  /-- the restart that is due follows an input loss: AUTO_RESTART decides (R270, R271) -/
  resumeLoss : Bool := false
  /-- samples in a row below IN_OFF (R269) -/
  inLow : Nat := 0
  /-- the state of the tray input that came while the sequencer was held: it acts once it runs again (R78, R273) -/
  inWait : Option Bool := none
  /-- commands and leak shutdowns that came in that time, oldest first -/
  waits : List SeqWait := []
  /-- since when safe mode or a warm reset holds the sequencer (R78, R273) -/
  holdTs : Option Nat := none
  /-- levels of EN0–EN63, deglitched PWRGD0–PWRGD63, and asserted reset outputs -/
  enLvl : Nat := 0
  pgLvl : Nat := 0
  rsto : Nat := 0xFFFF
  ffrOpen : Bool := false
  /-- captures kept, newest first -/
  caps : List Capture := []
  /-- the margin request being stepped: rail and target -/
  mgn : Option (Nat × Int) := none
deriving DecidableEq, Repr

/-- A port of the clamp (R246 to R248): kind, accelerator and target as configured when the last proposal arrived, whether
a proposal is held, the value last commanded, whether a revert runs (R39) or a retry is due, whether it waits for its segment,
whether its output was in force when the Bridge left UP, and whether it was when the Bridge left UP again within that hold. -/
structure ClampPort where
  kind : Nat := 0
  acc : Nat := 0
  target : Nat := 0
  held : Bool := false
  cmd : Nat := 0
  reverting : Bool := false
  retry : Bool := false
  segWait : Bool := false
  old : Bool := false
  oldNext : Bool := false
deriving DecidableEq, Repr

/-- The counters of a comparator (R228): up and release counts of Amber, Red and Black, and whether its last sample outside a
suspension was fresh (R250). -/
structure CmpCnt where
  up1 : Nat := 0
  up2 : Nat := 0
  up3 : Nat := 0
  rel1 : Nat := 0
  rel2 : Nat := 0
  rel3 : Nat := 0
  fresh : Bool := false
deriving DecidableEq, Repr

/-- Tamp beyond its registers (R223 to R251). -/
structure TampSt where
  /-- guard positions: (position, (value, Top-die tick of assembly)) (R226) -/
  guard : List (Nat × (Nat × Nat)) := []
  cnt : List (Nat × CmpCnt) := []
  ports : List ClampPort := List.replicate 64 {}
  /-- measurements in a row above the critical temperature, and open or shorted in a row, per sensor (R243, R244) -/
  hot : List Nat := [0, 0, 0, 0, 0]
  bad : List Nat := [0, 0, 0, 0, 0]
  /-- in the latest measurement the die and TD0 to TD2 took no part or lay 10 °C below the threshold (R244) -/
  cool : Bool := true
  /-- what the latest measurement found on TD3: 0 as the others, 1 not 10 °C below the threshold or open, 2 a short (R244) -/
  td3 : Nat := 0
  /-- accelerators whose throttle line is driven low in the present pulse -/
  pulse : Nat := 0
  /-- the sample tick that was sampled last (R24) -/
  lastTick : Option Nat := none
deriving DecidableEq, Repr
/-- A fan or pump channel beyond its registers (R289 to R297): time since the mode's start and since the last edge, the
last interval, good start intervals in a row, 10 ms updates with steady edges, the loop's duty and last error, whether a
supply-current sample lay outside its window since the last update, and the fall still allowed before the next update. -/
structure CoolCh where
  t : Nat := 0
  since : Nat := 0
  lastInt : Nat := 0
  okRun : Nat := 0
  steady : Nat := 0
  loop : Nat := 0
  ePrev : Int := 0
  senseOut : Bool := false
  budget : Nat := 0
deriving DecidableEq, Repr

/-- A pump's flow loop (R296, R297): the two flow terms, updates in a row with low and with sufficient flow, and whether it
counts as failed for low flow. -/
structure PumpSt where
  fl : Nat := 0
  ce : Nat := 1000
  low : Nat := 0
  good : Nat := 0
  flowFail : Bool := false
deriving DecidableEq, Repr

/-- A flow meter (R295): 100 ms updates without a pulse. -/
structure FlowSt where
  quiet : Nat := 20
deriving DecidableEq, Repr

/-- A leak channel (R301, R302): measurements in a row below the threshold, at or above it, and above the open threshold;
whether the shutdown delay runs, and whether the shutdown has been sent. -/
structure LeakSt where
  below : Nat := 0
  above : Nat := 0
  openRun : Nat := 0
  delay : Bool := false
  sent : Bool := false
deriving DecidableEq, Repr

/-- A consumable slot (R305 to R308): whether its tag answers, whether a check runs, since when, its nonce, the response
bytes read, and the serial of the fitted consumable. -/
structure ConsSt where
  present : Bool := false
  checking : Bool := false
  again : Bool := false
  ts : Nat := 0
  nonce : Nat := 0
  got : List Byte := []
  serial : List Byte := []
deriving DecidableEq, Repr

/-- The cooling controller (R283 to R312): channels 0 to 23 are the fans, 24 to 29 the pumps. -/
structure CoolSt where
  ch : List CoolCh := List.replicate 30 {}
  pumps : List PumpSt := List.replicate 6 {}
  flows : List FlowSt := List.replicate 6 {}
  leaks : List LeakSt := List.replicate 16 {}
  cons : List ConsSt := List.replicate 32 {}
  /-- the vendor keys of the CONSUMABLE record: Ed25519 and ML-DSA-65 (R309) -/
  vendors : List (List Byte × List Byte) := []
  /-- timestamp of the last kick or arming (R298); updates in a row since a cooling-watchdog trip (R299) -/
  kickTs : Nat := 0
  cwdtRun : Nat := 0
deriving DecidableEq, Repr

/-- An exact dyadic number: ±m × 2^e. -/
structure Dy where
  neg : Bool
  m : Nat
  e : Int
deriving DecidableEq, Repr

/-- What the fabric holds for a descriptor (R207, R211, R212): the latest value and its arrival timestamp; the open window
with its sum, extremes and count; the published minimum, maximum and mean; the latest value at the last rate boundary and the
rate; the extremes of the microsecond `us`; the recorder's counter. Values are FP32 bit patterns. -/
structure DescSt where
  has : Bool := false
  latest : Nat := 0x7FC00000
  ts : Nat := 0
  win : Nat := 0
  n : Nat := 0
  sum : Dy := { neg := false, m := 0, e := 0 }
  lo : Nat := 0
  hi : Nat := 0
  pub : Option (Nat × Nat × Nat) := none
  prev : Option Nat := none
  rate : Nat := 0x7FC00000
  us : Nat := 0
  uN : Nat := 0
  uLo : Nat := 0
  uHi : Nat := 0
  dec : Nat := 0
deriving DecidableEq, Repr

/-- A recorder record (R212): timestamp, first channel, accelerator, mask, flags, twelve words. -/
structure RecItem where
  ts : Nat
  ch : Nat
  acc : Nat
  mask : Nat
  flags : Nat
  vals : List Nat
deriving DecidableEq, Repr

/-- The recorder's open buffer (R213): its records, newest first, whether it carries RESTART, and the records dropped while
it was open. -/
structure RecBuf where
  recs : List RecItem := []
  restart : Bool := false
  dropped : Nat := 0
deriving DecidableEq, Repr

/-- A trace link beyond its registers (R195 to R201): the expected FSEQ, bad codewords in a row, whether the next record
carries GAP, a retry wait, whether the link was lost and is not retrained by itself, the back-channel command that is being
tried with its failed tries, whether the writes that the present state asks for are done, BC_TXEQ writes made, an
uncorrectable codeword in QUALIFY, the record queue. A back-channel transaction waits to cross the Bridge in `bcHeld`, its result in
`bcRes` (R28, R199). -/
structure TlSt where
  exp : Option Nat := none
  badRun : Nat := 0
  gap : Bool := false
  retry : Bool := false
  held : Bool := false
  bc : Option (Nat × Nat) := none
  bcWait : Bool := false
  bcHeld : Bool := false
  bcRes : Option (Nat × List Byte) := none
  ready : Bool := false
  txeq : Nat := 0
  qualBad : Bool := false
  queue : List RecItem := []
  /-- the last 58 payload bits received: the descrambler's state (R192) -/
  scr : Nat := 0
deriving DecidableEq, Repr

/-- The telemetry fabric and the recorder (R202 to R217). -/
structure TelSt where
  links : List TlSt := List.replicate 8 {}
  desc : List (Nat × DescSt) := []
  /-- descriptors with an uncorrectable error since the last reload (R205) -/
  ecc : List Nat := []
  /-- the microsecond whose guard values were assembled last (R211) -/
  guardUs : Option Nat := none
  buf : Option RecBuf := none
  rr : Nat := 7
  postLeft : Nat := 0
  restart : Bool := true
  /-- the ring survived the last Top reset (R113, R214) -/
  survived : Bool := false
  /-- the LPDDR5X training of this bring-up has ended (R218, R222) -/
  lpEnded : Bool := false
  /-- closed buffers that were discarded: an uncorrectable read, or a wrong CRC (R219) -/
  gone : List Nat := []
deriving DecidableEq, Repr

/-- A CLKFAIL held pending (R79): cause, deviation, BASE source before it, last failing count, timestamp of detection. -/
structure ClkRec where
  cause : Nat
  dev : Nat
  src : Nat
  count : Nat
  ts : Nat
deriving DecidableEq, Repr

/-- A write that an engine makes at a gate domain's port (R87, R88): the domain, where the block starts, how many of its bytes are zeroed
first, and the bytes stored from its start on. -/
structure PortStore where
  dom : Nat
  addr : Nat
  zero : Nat := 0
  bytes : List Byte
deriving DecidableEq, Repr

/-- The clock monitor beyond its registers (R68 to R86): failing and passing windows in a row of checks H, I and C, the
timestamps of recent fallbacks (R81), the pending CLKFAIL, a requested return, whether BASE left the host reference by
design (R82), whether the recovered clock is the host reference (R68), when the LFO was last calibrated, and whether IOSC is
enabled. -/
structure ClkSt where
  failH : Nat := 0
  failI : Nat := 0
  failC : Nat := 0
  passH : Nat := 0
  passI : Nat := 0
  passC : Nat := 0
  flaps : List Nat := []
  pend : Option ClkRec := none
  restore : Bool := false
  design : Bool := false
  recovered : Bool := false
  calTs : Nat := 0
  iosc : Bool := true
  /-- requests that a domain's port holds while its gate is asked for, oldest first, with the errors that their completions will meet on
  the Bridge (R31, R87) -/
  held : List (Initiator × BusReq × Beats) := []
  /-- engines' writes that a domain's port holds while its gate is asked for, oldest first (R87) -/
  stores : List PortStore := []
deriving DecidableEq, Repr

/-- A result on its way (R149, R150, R174): what lands at the result cycle. -/
inductive InfWr where
  /-- lane of a V register with its NaN tag -/
  | lane (cl v lane val : Nat) (tag : Bool)
  | mask (cl m val : Nat)
  | xr (cl : Nat) (bytes : List Byte)
  | wr (cl tile : Nat) (bytes : List Byte)
  | scales (cl tile : Nat) (bytes : List Byte)
  /-- an accumulator set loaded; the set after a tile operation, with the saturations that it counts (R126 to R128) -/
  | acc (cl tile set : Nat) (vals : List Nat)
  | mac (cl tile set : Nat) (vals : List Nat) (sat : Nat)
  /-- bytes stored into a state quarter at an address -/
  | store (addr : Nat) (bytes : List Byte)
  /-- an exchange write from a cluster into a quarter (R138) -/
  | exch (src dst addr : Nat) (bytes : List Byte)
  /-- an output word for a port, from a tagged lane or not (R153) -/
  | out (port val : Nat) (tag : Bool)
  /-- saturations and NaN-to-integer conversions that the operation counts (R129, R130) -/
  | count (sat nan : Nat)
deriving DecidableEq, Repr

/-- A waiting result: its result cycle, its place among results of that cycle (R174), and what it writes. -/
structure InfPend where
  cyc : Nat
  prio : Nat
  wr : InfWr
deriving DecidableEq, Repr

/-- A run in progress (R169, R176): the bundle and repeat that issue next, the cycle of that issue, the results on their
way, whether an ADAPT bit was met, whether a NaN output suppresses the rest (R153), and whether the last group has issued. -/
structure InfRun where
  bundle : Nat := 0
  rep : Nat := 0
  cyc : Nat := 0
  pend : List InfPend := []
  adapt : Bool := false
  nanStop : Bool := false
  done : Bool := false
deriving DecidableEq, Repr

/-- A program slot beyond its registers (R141 to R162): the due run with its timestamp and whether a tick made it due, the
run in progress, whether no run has started since the load (R173), the adaptation block of the image, and a rollback that
waits for the next run. -/
structure InfSlot where
  due : Option (Nat × Bool) := none
  run : Option InfRun := none
  fresh : Bool := true
  adImg : List Byte := []
  rollback : Bool := false
deriving DecidableEq, Repr

/-- A cluster's registers (R173): what programs have written, keyed; the rest is undefined, drawn from `epoch` on. -/
structure InfCl where
  regs : List (Nat × Nat) := []
  epoch : Nat := 0
deriving DecidableEq, Repr

/-- A hint (R183 to R186): queued, and after its firing with the firing's timestamp and flag. -/
structure Hint where
  session : Nat
  hid : Nat
  acc : Nat
  model : Nat
  due : Nat
  trig : Nat
  slot : Nat
  lead : Nat
  miss : Bool
  late : Bool
  sigRow : Nat
  pStep : Nat
  params : List Nat
  rev : Nat
  fireTs : Nat
  fireFb : Bool
deriving DecidableEq, Repr

/-- A word of the output queue (R153): port, value, Top-die timestamp, and the FB flag beside it (R15). -/
structure OutWord where
  port : Nat
  val : Nat
  ts : Nat
  fb : Bool
deriving DecidableEq, Repr

/-- The Infuser and the hint matcher (R121 to R190). -/
structure InfSt where
  slots : List InfSlot := List.replicate 16 {}
  cls : List InfCl := List.replicate 4 {}
  /-- the output queue (R153) -/
  outQ : List OutWord := []
  /-- the microsecond of the last proposal message, and the proposals sent in it (R29) -/
  outUs : Nat := 0
  outN : Nat := 0
  /-- pending hints in order of arrival, hints that have fired and wait for their mailbox write, (session, ID) of hints that
  have fired -/
  hints : List Hint := []
  firing : List Hint := []
  fired : List (Nat × Nat) := []
deriving DecidableEq, Repr

/-- One-time programmable memory (R8, R56, R365, R368, R369): the register fields it supplies, the digest of each owner-key
slot, and the 32-byte seed of the key derivation. What VALID, RETIRED and the ceilings hold stands among the fields. -/
structure OtpSt where
  regs : List (Nat × Nat) := []
  digests : List (Nat × List Byte) := []
  seed : List Byte := []
deriving DecidableEq, Repr

/-- A fingerprint triple with its preimage (R62, R64). -/
structure FpTriple where
  pre : List Byte
  fp : List Byte
  epoch : Nat
  gen : Nat
deriving DecidableEq, Repr

/-- What the running Accord and the fingerprint leave beyond the ACD registers (R55, R62 to R65): the header and chunk
table of the running Accord kept in the retention area, its SENSOR_MAP and Top-die REG_WRITE records, scopes and event
code entries in force, and the inputs and the value of the fingerprint. -/
structure AcdSt where
  /-- the pin crossbar: ball, function, pad (R45, R47) -/
  xbar : List (Nat × Nat × Nat) := []
  table : List Byte := []
  sensorMap : List Byte := []
  topWrites : List (Nat × Nat × Nat) := []
  /-- the SESSION_SCOPE entries in force, 64 bytes each (R348) -/
  scopes : List (List Byte) := []
  /-- image digests: Keeper firmware, Control-core firmware, and programs by slot (R62); empty for none -/
  kfw : List Byte := []
  cfw : List Byte := []
  progs : List (Nat × List Byte) := []
  fp : List Byte := []
  /-- fingerprint statements that sessions asked for, oldest first: session number, SEQ, nonce (R65) -/
  stmts : List (Nat × Nat × List Byte) := []
  /-- ACD_EPOCH_HI as a read of ACD_EPOCH_LO latched it (R66) -/
  epochHi : Option Nat := none
  /-- the triple shown while the epoch of a live activation is being committed (R64) -/
  shown : Option FpTriple := none
deriving DecidableEq, Repr

/-- A debug challenge (R376): the timestamp of its issue, SCOPE, DURATION and its 32 bytes. -/
structure DbgChal where
  ts : Nat
  scope : Nat
  dur : Nat
  bytes : List Byte
deriving DecidableEq, Repr

/-- The key store beyond its registers (R365 to R381): when the presence window opened last, when the debug unlock ends, whether
the seal loop has been judged since the last reset and was ever continuous, the challenge in force, and a running request of the
interface: the RESULT and the output bytes that it ends with. -/
structure KeySt where
  presTs : Nat := 0
  dbgEnd : Nat := 0
  sealJudged : Bool := false
  chal : Option DbgChal := none
  req : Option (Nat × List Byte) := none
  /-- the derived keys in key-store internal memory: the Ed25519 and ML-DSA-65 seeds and the floor key, none before the derivation (R365) -/
  derived : List (List Byte) := []
deriving DecidableEq, Repr

/-- An interrupt controller (R397): the priority of each source, the enabled sources and the threshold of each context, and the sources
that a context has claimed and not completed. The layout is log entry 53's. -/
structure Plic where
  prio : List Nat := List.replicate 64 0
  en : List Nat := [0, 0, 0, 0]
  thr : List Nat := [0, 0, 0, 0]
  claims : List (Nat × Nat) := []
deriving DecidableEq, Repr

/-- The cap loop of the firmware (R403): the 100 µs period that was sampled last, the samples of this millisecond, the sums of the
powers of the accelerators and of the tray over them, the throttle levels, the counts of periods below the cap, the levels sent last, and
Tamp's kind-5 levels as the last period found them. -/
structure CapSt where
  tick : Nat := 0
  n : Nat := 0
  sums : List Int := List.replicate 9 0
  lvl : List Nat := List.replicate 8 0
  under : List Nat := List.replicate 8 0
  sent : List Nat := List.replicate 8 0
  seen : List Nat := List.replicate 8 0
deriving DecidableEq, Repr

/-- A physical-memory-protection entry of a core (R396): its configuration byte and address register, as the RISC-V privileged architecture
has them (R in bit 0, W 1, X 2, A 4:3, L 7; the address in words). -/
structure PmpEnt where
  cfg : Nat := 0
  addr : Nat := 0
deriving DecidableEq, Repr

/-- The Control cores and Keepers beyond their registers (R398 to R413): what each Control core finds in a1 when it starts, the
cause of a restart that runs, when the Top watchdog and the core watchdogs were kicked last, the Keepers halted by debug or by a trap
in the trap handler, the words written to the log ports (key 8 × port + word; port 4 is the Keepers'), the SEQ of the last Keeper
entry, the edge-raised sources of the two interrupt controllers that are pending (R397), and the cores that a CLKFAIL has interrupted
(R77): bits 0 to 3 C0 to C3, bits 4 and 5 K0 and K1; and the cap loop. -/
structure FwSt where
  a1 : List Nat := [0, 0, 0, 0]
  topKick : Nat := 0
  kick : List Nat := [0, 0, 0, 0]
  kprHalt : List Nat := []
  ports : List (Nat × Nat) := []
  kseq : Nat := 0
  irq : Nat := 0
  kirq : Nat := 0
  nmi : Nat := 0
  /-- what the Keeper firmware keeps of Control-core crashes: core and time, newest first (R406) -/
  crashes : List (Nat × Nat) := []
  caps : CapSt := {}
  /-- the interrupt controllers of the Control cores and of the Keepers (R397) -/
  plic : Plic := {}
  kplic : Plic := {}
  /-- mtimecmp of C0 to C3, K0 and K1 (R412, R413) -/
  mtimecmp : List Nat := [0, 0, 0, 0, 0, 0]
  /-- the PMP entries of C0 to C3, 16 each, and of K0 and K1, 8 each (R396) -/
  pmp : List (List PmpEnt) := List.replicate 4 (List.replicate 16 ({} : PmpEnt)) ++ List.replicate 2 (List.replicate 8 ({} : PmpEnt))
  /-- crashed cores whose locks no other core has released yet: bit n stands for Cn (R409) -/
  lockDue : Nat := 0
deriving DecidableEq, Repr

/-- A handshake in progress (R343, R344): the digest that the host's signatures cover, the shared secrets, the classes asked for,
and the host's public keys. -/
structure Hs where
  th2 : List Byte
  ikm : List Byte
  classes : Nat
  edPub : List Byte
  mlPub : List Byte
deriving DecidableEq, Repr

/-- A session beyond its registers (R342 to R360): the host key digest, keys and salts of both directions, which SEQ of the window have
been accepted (bit d: H − d), caps and floors, what its scope entry allows, the peer that its last authenticated message came
from, when the idle time last restarted, the next record number and the next BUFSEQ that
subscriptions send, how many buffers were passed over since the last one sent, where the firmware
messages that it sent came from, and the handshake before it is open. -/
structure Sess where
  keyDg : List Byte := []
  rxKey : List Byte := []
  txKey : List Byte := []
  rxSalt : List Byte := []
  txSalt : List Byte := []
  win : Nat := 1
  caps : List Nat := List.replicate 9 0
  zf : List Nat := List.replicate 8 0
  pf : List Nat := List.replicate 6 0
  subs : Nat := 0
  idleTo : Nat := 0
  idleTs : Nat := 0
  peer : Peer := { port := 0, v6 := false, mac := 0, ip := 0, udp := 0 }
  evNext : Nat := 0
  recNext : Nat := 0
  recSkip : Nat := 0
  asked : List (Nat × Peer) := []
  hs : Option Hs := none
deriving DecidableEq, Repr

/-- A message whose fragments have not all arrived (R341): the header fields that they share, where it comes from, and the fragments by
index. -/
structure Partial where
  peer : Peer
  vmaj : Nat
  vmin : Nat
  type : Nat
  flags : Nat
  sid : Nat
  seq : Nat
  fcnt : Nat
  frags : List (Nat × List Byte)
deriving DecidableEq, Repr

/-- A message in the receive queue (R363): session number and identifier, type, and the message. -/
structure RxItem where
  n : Nat
  sid : Nat
  type : Nat
  seq : Nat
  payload : List Byte
deriving DecidableEq, Repr

/-- What the datagrams of a message carry beside their addresses (R337, R339): the source UDP port, the DF bit (IPv4 only), the TTL or
hop limit, and the VID of an 802.1Q tag. -/
structure IpHead where
  src : Nat
  df : Bool
  ttl : Nat
  vid : Option (BitVec 12)
deriving DecidableEq, Repr

/-- What the T8 transmits: a TMP message with its plain payload and the datagrams that carry it (R340 to R342), an SVC reply
(R382), an answer of the port itself (R337). -/
inductive Sent where
  | tmp (peer : Peer) (ip : IpHead) (type flags sid seq : Nat) (payload : List Byte) (datagrams : List (List Byte))
  | svc (peer : Peer) (datagram : List Byte)
  | answer (port : Nat) (vid : Option (BitVec 12)) (frame : ServiceFrame)
deriving DecidableEq, Repr

/-- The session engine (R337 to R364). `sent` is what the latest command that can transmit has sent, oldest first; `floorDue`: the
effective floors that have changed and that the cooling supervisor has not copied yet (R355): bits 0 to 7 the zones, 8 to 13 the pumps. -/
structure SesSt where
  sess : List (Nat × Sess) := []
  parts : List Partial := []
  rxq : List RxItem := []
  sent : List Sent := []
  /-- what waits at the ports of NET1 and SVC while their gates are asked for, oldest first (R87) -/
  txHeld : List Sent := []
  floorDue : Nat := 0
deriving DecidableEq, Repr

/-- What the security block's engines are asked for: the checks of a delivered image, the reload of a program. -/
inductive EngineReq where
  | imageEnd (peer : Peer) (xfer : Nat) (uncorr : Option Nat)
  | load (slot : Nat)
deriving DecidableEq, Repr

/-- The security block (R382 to R392): the running transfer's XFER, sender and total length, the ranges of image bytes received, the
checked image that is being written or held, the waiting cause that was logged last, and the slots that an activation that has
begun re-enables. -/
structure SecSt where
  xfer : Nat := 0
  peer : Peer := { port := 2, v6 := false, mac := 0, ip := 0, udp := 0 }
  len : Nat := 0
  got : List (Nat × Nat) := []
  img : List Byte := []
  lastWait : Nat := 0
  actEn : Nat := 0
  /-- requests that wait while the port of the hash and signature engines, or that of the staging buffer, holds them (R87) -/
  waits : List EngineReq := []
deriving DecidableEq, Repr

/-- The state of the block. -/
structure State where
  /-- register fields: (key, value), keys ascending, a field absent at its reset value -/
  regs : List (Nat × Nat) := []
  time : TimeSt := {}
  clk : ClkSt := {}
  sil : SilSt := {}
  nvm : NvmSt := {}
  pwr : PwrSt := {}
  brg : BrgSt := {}
  /-- ports TW0 to TW11 -/
  tw : List TwPort := List.replicate 12 {}
  seq : SeqSt := {}
  tamp : TampSt := {}
  cool : CoolSt := {}
  tel : TelSt := {}
  inf : InfSt := {}
  otp : OtpSt := {}
  acd : AcdSt := {}
  key : KeySt := {}
  fw : FwSt := {}
  ses : SesSt := {}
  sec : SecSt := {}
  /-- images in the SPI NOR flash outside the journal (R388): 0, 1 Accord slots A, B; 2, 3 Keeper firmware; 4, 5 Control-core
  firmware; 16 + n the active and 32 + n the staged program image of slot n -/
  flash : List (Nat × List Byte) := []
  bus : BusDone := .idle
  /-- memory of the map's regions (R18), in canonical form -/
  mem : List Host.Cell := []
  /-- how many free values have been drawn: the model's own counter -/
  fresh : Nat := 0
  /-- the commands that are waiting, first in first out -/
  pending : List Instr := []
deriving DecidableEq, Repr

/-- The state after reset: every register field at its reset value (R41 and the other register tables), nothing in the
queues, no Accord applied, the Top die unpowered, BASE on IOSC (log entry 5). -/
def State.reset : State := {}

end Sys2Proof.Machine
end

