-- ==== Sys2Proof/Machine/Ops.lean ====
section
/-! DEFINITION. The named operations every unit shares: sparse tables in canonical form, register fields, memory, time,
free values. -/

namespace Sys2Proof.Machine

/-! ### Sparse tables: lists of (key, value), keys strictly ascending -/

/-- The value listed for a key. -/
def look {β : Type} (k : Nat) : List (Nat × β) → Option β
  | [] => none
  | e :: t => if e.1 = k then some e.2 else look k t

/-- The table without a key. -/
def drop {β : Type} (k : Nat) (l : List (Nat × β)) : List (Nat × β) := l.filter (fun e => e.1 ≠ k)

/-- An entry put in front of the first entry with a larger key. -/
def insertAt {β : Type} (k : Nat) (v : β) : List (Nat × β) → List (Nat × β)
  | [] => [(k, v)]
  | e :: t => if k < e.1 then (k, v) :: e :: t else e :: insertAt k v t

/-- The table with a key's value replaced or added. -/
def put {β : Type} (k : Nat) (v : β) (l : List (Nat × β)) : List (Nat × β) := insertAt k v (drop k l)

/-- Keys strictly ascending: the canonical form of a sparse table. -/
def ascending {β : Type} : List (Nat × β) → Bool
  | [] => true
  | [_] => true
  | a :: b :: t => a.1 < b.1 && ascending (b :: t)

/-! ### Register fields -/

/-- A field's value in a register file: its reset value where the file lists none. -/
def regGet (r : List (Nat × Nat)) (f : Fld) : Nat := (look f.key r).getD f.rst

/-- A register file with a field set, the value cut to the field's width; a field at its reset value is not listed. -/
def regSet (r : List (Nat × Nat)) (f : Fld) (v : Nat) : List (Nat × Nat) :=
  if v % 2 ^ f.w = f.rst then drop f.key r else put f.key (v % 2 ^ f.w) r

/-- A field's value. -/
def State.get (s : State) (f : Fld) : Nat := regGet s.regs f

/-- A field set, the value cut to its width. -/
def State.set (s : State) (f : Fld) (v : Nat) : State := { s with regs := regSet s.regs f v }

/-- A one-bit field read as a truth value. -/
def State.on (s : State) (f : Fld) : Bool := s.get f == 1

/-- A field set to a truth value. -/
def State.setB (s : State) (f : Fld) (b : Bool) : State := s.set f (b2n b)

/-- A counter field k counts further: it saturates at the top of the field. -/
def State.bump (s : State) (f : Fld) (k : Nat := 1) : State := s.set f (satCount f.w (s.get f) k)

/-- A field set under a condition. -/
def State.setIf (s : State) (c : Bool) (f : Fld) (v : Nat) : State := if c then s.set f v else s

/-- Several fields set, one after the other. -/
def State.setAll (s : State) (l : List (Fld × Nat)) : State := l.foldl (fun s e => s.set e.1 e.2) s

/-- A 64-bit value set into a low and a high word. -/
def State.set64 (s : State) (lo hi : Fld) (v : Nat) : State := (s.set lo v).set hi (v / 2 ^ 32)

/-- The 64-bit value that a low and a high word hold. -/
def State.get64 (s : State) (lo hi : Fld) : Nat := s.get lo + 2 ^ 32 * s.get hi

/-! ### Interrupt sources raised by an edge (R397) -/

/-- A source of the Control cores' interrupt controller becomes pending. -/
def State.raise (s : State) (n : Nat) : State := { s with fw := { s.fw with irq := s.fw.irq ||| 2 ^ n } }

/-- A source of the Keepers' interrupt controller becomes pending. -/
def State.kraise (s : State) (n : Nat) : State := { s with fw := { s.fw with kirq := s.fw.kirq ||| 2 ^ n } }

/-- A bit of INF_ERR set; its rise is source 15 of the Control cores (R397). -/
def State.infErr (s : State) (f : Fld) : State := (if s.on f then s else s.raise 15).set f 1

/-! ### Memory: (address, byte) cells; a byte not listed reads as 0 (log entry 7) -/

/-- What a byte of memory that is not listed reads as. -/
def memDefault : Byte := 0

/-- The byte at an address. -/
def memRead (m : List Host.Cell) (a : Nat) : Byte := (look a m).getD memDefault

/-- Memory with one byte written: the canonical form lists no byte equal to what an unlisted address reads as. -/
def memWrite (m : List Host.Cell) (a : Nat) (b : Byte) : List Host.Cell :=
  if b = memDefault then drop a m else put a b m

/-- The n bytes from an address on. -/
def memBytes (m : List Host.Cell) (a : Nat) : Nat → List Byte
  | 0 => []
  | n + 1 => memRead m a :: memBytes m (a + 1) n

/-- Memory with a byte string written from an address on. -/
def memStore (m : List Host.Cell) (a : Nat) : List Byte → List Host.Cell
  | [] => m
  | b :: t => memStore (memWrite m a b) (a + 1) t

/-- Memory with the cells of [lo, hi) taken out: what a region's loss of content leaves (R112). -/
def memForget (m : List Host.Cell) (lo hi : Nat) : List Host.Cell := m.filter (fun c => !(lo ≤ c.1 && c.1 < hi))

/-- The canonical form of memory: addresses strictly rising, no entry equal to what an unlisted address reads as. -/
def Memory.wf (m : List Host.Cell) : Bool := ascending m && m.all (fun c => c.2 != memDefault)

/-! ### Time (R15, R24, R25) -/

/-- Units of the counter per nanosecond: 12.8 ns and 10 ns are whole numbers of 1/1280 ns. -/
def tsUnit : Nat := 1280

/-- The timestamp in nanoseconds (R15, R24). -/
def State.now (s : State) : Nat := s.time.ts / tsUnit % 2 ^ 64

/-- Safe mode: BASE runs from the LFO (R78). -/
def State.safeMode (s : State) : Bool := s.get CLK_STS.BASE_SRC == 2

/-- The flag FB: BASE runs from IOSC or LFO, not from the host reference (R15, R25). -/
def State.fb (s : State) : Bool := s.get CLK_STS.BASE_SRC != 0

/-- The Top die's copy of the timestamp (R25). -/
def State.topNow (s : State) : Nat := (((s.now : Int) + s.time.topOff) % ((2 ^ 64 : Nat) : Int)).toNat

/-! ### Free values -/

/-- The step's free value and the counter advanced past it. -/
def State.draw (s : State) : State := { s with fresh := s.fresh + 1 }

/-- The initiator byte of payloads (R445). -/
def iniByte : Initiator → Nat
  | .core c => c.val
  | .keeper k => 0x10 + k.val
  | .debug => 0x20
  | .infuser => 0x30
  | .security => 0x31
  | .session => 0x32
  | .hint => 0x33
  | .telemetry => 0x34

/-! ### The crossbar (R45 to R47) -/

/-- Function classes of the crossbar (R46). -/
def fnPwrgd : Nat := 2
def fnFanTach : Nat := 5
def fnPmpTach : Nat := 7
def fnFlw : Nat := 8
def fnVlv : Nat := 9
def fnAlert : Nat := 0xB
def fnWake : Nat := 0xC

/-- Classes of outputs. -/
def fnEn : Nat := 1
def fnRsto : Nat := 3
def fnFanPwm : Nat := 4
def fnPmpPwm : Nat := 6
def fnSegpwr : Nat := 0xA

/-- A function is placed on a ball: entries of ball, function, pad. -/
def placed (x : List (Nat × Nat × Nat)) (cls i : Nat) : Bool := x.any (fun e => e.2.1 == cls * 256 + i)

/-- A ball of the running Accord carries the function; a ball that no entry names has its input buffer disabled (R47). -/
def State.placedIn (s : State) (cls i : Nat) : Bool := placed s.acd.xbar cls i

/-- The deglitched levels of the PWRGD inputs that balls carry (R47, R282). -/
def State.pgSeen (s : State) : Nat := s.seq.pgLvl &&& maskOf 64 (s.placedIn fnPwrgd)

/-! ### Control cores (R412) -/

def coreReset : Nat := 0
def coreRun : Nat := 1
def coreWfi : Nat := 2
def coreRestarting : Nat := 3
def coreHalted : Nat := 4

/-- A Control core's state. -/
def State.coreSt (s : State) (c : Nat) : Nat := bitsOf (s.get FW_CORE_STS.STATE) (4 * c) 4

/-- A Control core runs: it is in RUN or WFI (R412). -/
def State.coreRuns (s : State) (c : Nat) : Bool := s.coreSt c == coreRun || s.coreSt c == coreWfi

/-- A gate domain's clock is stopped (R87). -/
def State.gated (s : State) (d : Nat) : Bool := bitOf (s.get CLK_GATE_STS.GATED) d

/-- A domain's gate is asked for and its clock still runs: the port holds new requests (R87). -/
def State.gateAsked (s : State) (d : Nat) : Bool := bitOf (s.get CLK_GATE_REQ.REQ) d && !s.gated d

/-- A domain's port takes no request: it holds it, or the clock is stopped (R87, R88). -/
def State.portShut (s : State) (d : Nat) : Bool := s.gated d || s.gateAsked d

/-- The instance of a field's register that an address names. -/
def instOf (f : Nat → Fld) (count a : Nat) : Option Nat := (List.range count).find? (fun n => (f n).addr == a)

/-- The element of a list at an index, or a default. -/
def getAt {α : Type} (l : List α) (i : Nat) (d : α) : α := l.getD i d

/-- A list with the element at an index changed. -/
def modAt {α : Type} (l : List α) (i : Nat) (f : α → α) : List α :=
  match l, i with
  | [], _ => []
  | x :: t, 0 => f x :: t
  | x :: t, i + 1 => x :: modAt t i f

end Sys2Proof.Machine
end

