-- ==== Sys2Proof/Machine/Sillage.lean ====
section
/-! DEFINITION. Sillage (R414 to R430): admission, the admission queue and the ring, modes, correlation groups, freeze,
persistence. Logging an event changes the field `sil` of State and nothing else. -/

namespace Sys2Proof.Machine

/-- SRC of a record (R416): INSTANCE is 0x7F above 126. -/
def srcOf (acc unit inst : Nat) : Nat := acc % 16 * 0x1000 + unit % 32 * 0x80 + (if 126 < inst then 0x7F else inst)

def srcAcc (src : Nat) : Nat := src / 0x1000 % 16
def srcUnit (src : Nat) : Nat := src / 0x80 % 32
def srcInst (src : Nat) : Nat := src % 0x80

/-- The mode in force (R421): 0 SERVICE, 1 START-UP, 2 RECOVERY, 3 TEST. -/
def SilSt.mode (x : SilSt) (test : Bool) : Nat :=
  if test then 3 else if x.recovery || x.recov then 2 else if x.startup then 1 else 0

/-- The number the next admitted record takes (R414, R420). -/
def SilSt.next (x : SilSt) : Nat := (x.wseq + x.queue.length) % 2 ^ 32

/-- A flood has filled the ring (R421). -/
def SilSt.ringFull (x : SilSt) : Bool := 16384 ≤ (x.next + 2 ^ 32 - x.floodSeq) % 2 ^ 32

/-- The codes whose records the manual names persistent (R78, R115, R230, R250, R266, R268, R311, R335, R394, R399,
R418, R427). -/
def persistentCodes : List Nat := [
  EVT_RESET, EVT_SIL_NVM_LOST, EVT_BOW_DIP, EVT_CLKFAIL, EVT_SEQ_FAIL, EVT_SEQ_CLEAR, EVT_TAMP_RED, EVT_TAMP_BLACK,
  EVT_TAMP_CRIT, EVT_TAMP_TD_FAULT, EVT_TAMP_CLEAR, EVT_FAN_STALL, EVT_FAN_CLEAR, EVT_FAN_TACH_LOST, EVT_PMP_FLOW_LOW,
  EVT_HWDT_EXPIRE, EVT_CWDT, EVT_LEAK, EVT_LEAK_OPEN, EVT_LEAK_CLEAR, EVT_CONS_AUTH, EVT_CONS_EXPIRED, EVT_CONS_LIFE,
  EVT_TW_STUCK, EVT_TW_DISABLED, EVT_TW_ALERT_STUCK, EVT_KEY_PUF, EVT_KEY_CHANGE, EVT_DBG_UNLOCK, EVT_DBG_LOCK,
  EVT_DBG_REFUSED, EVT_SEAL_BROKEN, EVT_IMG_REFUSED, EVT_ACT_DONE, EVT_SET_RESET, EVT_KFW_NONE]

/-- The default entry of a code that the table does not list (R422); a code whose records the manual names persistent is
persistent (R418). -/
def unlistedEnt (code : Nat) : CodeEnt :=
  { code := code, rate := 100, burst := 16, group := 0xFF, persist := persistentCodes.contains code, parent := false, tokens := 16,
    supp := 0, ovf := 0, first := 0, multiAcc := false, multiUnit := false, multiInst := false }

/-- The entry in force for a code (R422). -/
def SilSt.entry (x : SilSt) (code : Nat) : CodeEnt :=
  match x.codes.find? (fun e => e.code == code) with
  | some e => e
  | none => (x.unlisted.find? (fun e => e.code == code)).getD (unlistedEnt code)

/-- The code table lists the code. -/
def SilSt.listed (x : SilSt) (code : Nat) : Bool := x.codes.any (fun e => e.code == code)

/-- The entry of a code changed, in the table or among the buckets of codes that it does not list. -/
def SilSt.modEntry (x : SilSt) (code : Nat) (f : CodeEnt → CodeEnt) : SilSt :=
  if x.listed code then { x with codes := x.codes.map (fun e => if e.code == code then f e else e) }
  else if x.unlisted.any (fun e => e.code == code) then
    { x with unlisted := x.unlisted.map (fun e => if e.code == code then f e else e) }
  else { x with unlisted := x.unlisted ++ [f (unlistedEnt code)] }

/-- An event that is not written counts in its code's OVERFLOW count, or in SIL_UNLISTED.OVERFLOW (R420, R421), and in a freeze for
EVT_SIL_OVF as well (R425). -/
def SilSt.countOvf (x : SilSt) (code : Nat) : SilSt :=
  let y : SilSt :=
    if x.listed code then x.modEntry code (fun e => { e with ovf := satCount 16 e.ovf 1 })
    else { x with unlistedOvf := satCount 16 x.unlistedOvf 1 }
  if x.frozen then
    { y with
      frozenTotal := x.frozenTotal + 1
      frozenCodes := if x.frozenCodes.contains code then x.frozenCodes else x.frozenCodes ++ [code] }
  else y

/-- A persistent record joins the 64-record NVM queue, or is lost from NVM (R427). -/
def SilSt.nvmPush (x : SilSt) (r : Rec) : SilSt :=
  if x.nvmQueue.length < 64 then { x with nvmQueue := x.nvmQueue ++ [r] }
  else { x with nvmLost := satCount 16 x.nvmLost 1, nvmMissed := x.nvmMissed + 1, nvmLostFlag := true }

/-- The 256-entry admission queue takes a record, or the event counts as overflowed (R420). -/
def SilSt.enqueue (x : SilSt) (r : Rec) : SilSt :=
  if x.queue.length < 256 then { x with queue := x.queue ++ [r] }
  else { x.countOvf r.code with qfull := true }

/-- FLAGS of a record (R415). -/
def recFlags (fb persist summary rlim flood late held : Bool) : Nat :=
  b2n fb + 2 * b2n persist + 4 * b2n summary + 8 * b2n rlim + 16 * b2n flood + 32 * b2n late + 64 * b2n held

/-- PARENT of a record without one (R414). -/
def noParent : Nat := 0xFFFFFFFF

/-- The record of an event (R414). -/
def SilSt.recOf (x : SilSt) (ev : Event) (count parent : Nat) (persist flood held : Bool) : Rec :=
  { num := x.next, code := ev.code, src := srcOf ev.acc ev.unit ev.inst,
    flags := recFlags ev.fb persist false false flood ev.late held, count := min 0xFFFF count, ts := ev.ts,
    parent := parent, payload := ev.payload }

/-- A record is admitted: to the NVM queue when persistent, and to the admission queue; one that the full admission queue does not take
has no number (R420, R425). -/
def SilSt.write (x : SilSt) (r : Rec) (persist : Bool) : SilSt :=
  (if persist then x.nvmPush (if x.queue.length < 256 then r else { r with num := noParent }) else x).enqueue r

/-- A record that a flood has left no room for in the ring: counted, and in NVM when persistent (R421). -/
def SilSt.floodLost (x : SilSt) (r : Rec) (persist : Bool) : SilSt :=
  let y := { x.countOvf r.code with full := true, modeLost := x.modeLost + 1 }
  if persist then y.nvmPush { r with num := noParent } else y

/-- The group of an entry, when it names one. -/
def SilSt.group (x : SilSt) (g : Nat) : Option Group := if g = 0xFF then none else x.groups[g]?

/-- The open window of a group. -/
def SilSt.win (x : SilSt) (g : Nat) : Option Window := (x.group g).bind (·.win)

/-- The parent that a persistent record names while its group has a window open (R422). -/
def SilSt.openParent (x : SilSt) (g : Nat) : Nat :=
  match x.win g with
  | some w => w.parent
  | none => noParent

/-- A window absorbs an event (R423). -/
def absorb (w : Window) (ev : Event) : Window :=
  { w with count := satCount 16 w.count 1, lastTs := ev.ts,
           map := setBitOf w.map (ev.unit % 32 * 9 + ev.acc % 16) true }

/-- A window opens for the record numbered n (R423). -/
def SilSt.openWin (x : SilSt) (g n : Nat) (ev : Event) : SilSt :=
  let w : Window :=
    { parent := n, code := ev.code, src := srcOf ev.acc ev.unit ev.inst, openTs := ev.ts, lastTs := ev.ts, count := 0,
      map := 0 }
  { x with groups := modAt x.groups g (fun q => { q with win := some w }) }

/-- An occurrence is suppressed (R422): SUPPRESSED counts it, and the sources met are noted for the RLIM record. -/
def suppress (e : CodeEnt) (ev : Event) : CodeEnt :=
  let src := srcOf ev.acc ev.unit ev.inst
  if e.supp = 0 then { e with supp := 1, first := src, multiAcc := false, multiUnit := false, multiInst := false }
  else { e with supp := satCount 16 e.supp 1, multiAcc := e.multiAcc || srcAcc e.first != srcAcc src,
                multiUnit := e.multiUnit || srcUnit e.first != srcUnit src,
                multiInst := e.multiInst || srcInst e.first != srcInst src }

/-- The admission queue takes no more records (R420). -/
def SilSt.queueFull (x : SilSt) : Bool := 256 ≤ x.queue.length

/-- Admission (R422): an event is absorbed, held, counted, rate-limited or written. A parent that the full queue does not take opens no window
(R423), and what it or another event carries of suppressed occurrences stays with the code. What a freeze holds in a flood has its ring place
judged when it is admitted (R421, R426; log entry 44). -/
def SilSt.admitOne (x : SilSt) (test held : Bool) (ev : Event) : SilSt :=
  let e := x.entry ev.code
  let p := e.persist || ev.persist
  let flood := x.mode test != 0
  let w := x.win e.group
  if !flood && !p && w.isSome then
    { x with groups := modAt x.groups e.group (fun q => { q with win := q.win.map (absorb · ev) }) }
  else if x.frozen then
    if !p then x.countOvf ev.code
    else if flood && x.ringFull then x.floodLost (x.recOf ev 1 noParent true true held) true
    else x.write (x.recOf ev 1 (if flood then noParent else x.openParent e.group) true flood held) true
  else if flood then
    if x.ringFull then x.floodLost (x.recOf ev 1 noParent p true held) p
    else x.write (x.recOf ev 1 noParent p true held) p
  else if p then x.write (x.recOf ev 1 (x.openParent e.group) true false held) true
  else if e.parent && (x.group e.group).isSome then
    let y := x.write (x.recOf ev (1 + e.supp) noParent false false held) false
    if x.queueFull then y else (y.modEntry ev.code (fun e => { e with supp := 0 })).openWin e.group x.next ev
  else if e.rate != 0 && e.tokens == 0 then x.modEntry ev.code (suppress · ev)
  else
    let y := x.modEntry ev.code (fun e => { e with supp := if x.queueFull then e.supp else 0, tokens := if e.rate != 0 then e.tokens - 1 else e.tokens })
    y.write (x.recOf ev (1 + e.supp) noParent false false held) false

/-- An event raised in A3 waits in the 16-entry AO buffer with FB = 1 (R428). -/
def SilSt.hold3 (x : SilSt) (ev : Event) : SilSt :=
  if x.ao.length < 16 then { x with ao := x.ao ++ [{ ev with fb := true }] }
  else { x with aoLost := satCount 8 x.aoLost 1 }

/-- An event reaches Sillage (R419): the AO buffer in A3, admission otherwise. -/
def State.admitEvent (s : State) (ev : Event) : State :=
  if s.get PWRST_STATE.CUR = 3 then { s with sil := s.sil.hold3 ev }
  else { s with sil := s.sil.admitOne (s.on SEQ_CTL.TEST) false ev }

/-- The event of a Base-die unit, stamped with the timestamp (R15, R419). -/
def State.eventOf (s : State) (code acc unit inst : Nat) (p : List (Nat × Nat × Nat)) : Event :=
  { code := code, acc := acc, unit := unit, inst := inst, payload := payload p, ts := s.now, fb := s.fb, persist := false,
    late := false }

/-- A Base-die unit logs an event. -/
def State.log (s : State) (code acc unit inst : Nat) (p : List (Nat × Nat × Nat) := []) : State :=
  s.admitEvent (s.eventOf code acc unit inst p)

/-- A Base-die unit logs an event under a condition. -/
def State.logIf (s : State) (c : Bool) (code acc unit inst : Nat) (p : List (Nat × Nat × Nat) := []) : State :=
  if c then s.log code acc unit inst p else s

/-- A mode change (R421): SIL_FLOOD_SEQ takes the next record number at a change into a flood mode, and EVT_SIL_MODE is
written, into a full ring as well. `after` is true when EVT_RESET has already been written as the first record. -/
def SilSt.modeChange (x : SilSt) (ts : Nat) (fb : Bool) (old new first : Nat) : SilSt :=
  if old = new then x else
    let lost := if x.full then x.modeLost else 0
    let ev : Event :=
      { code := EVT_SIL_MODE, acc := ACC_TRAY, unit := UNIT_SIL, inst := 0,
        payload := payload [(0, 1, old), (1, 1, new), (4, 4, lost)], ts := ts, fb := fb, persist := false, late := false }
    let p := (x.entry EVT_SIL_MODE).persist
    let y := { x with floodSeq := if new = 0 then x.floodSeq else first, modeLost := 0 }
    if x.frozen && !p then y.countOvf EVT_SIL_MODE
    else y.write (y.recOf ev 1 noParent p (new != 0) false) p

/-- An update of Sillage that may change its mode, with the change's EVT_SIL_MODE. `test` and `test'` are SEQ_CTL.TEST
before and after. -/
def State.silMode (s : State) (test test' : Bool) (f : SilSt → SilSt) : State :=
  let y := f s.sil
  { s with sil := y.modeChange s.now s.fb (s.sil.mode test) (y.mode test') y.next }

/-- The payload of EVT_RESET (R445): kind 0 cold POR or BOR, 1 warm reset, 2 Top reset. -/
def State.resetEvent (s : State) (kind : Nat) : Event :=
  s.eventOf EVT_RESET ACC_TRAY UNIT_PWRST 0
    [(0, 1, kind),
     (4, 4, s.get PWRST_RST_CAUSE.COLD + 2 * s.get PWRST_RST_CAUSE.BOR + 4 * s.get PWRST_RST_CAUSE.WARM_PIN
        + 8 * s.get PWRST_RST_CAUSE.WARM_CMD + 16 * s.get PWRST_RST_CAUSE.KPR_WDT + 32 * s.get PWRST_RST_CAUSE.NVM_HOLD),
     (8, 4, s.get PWRST_TOP_CAUSE.KEEPER + 2 * s.get PWRST_TOP_CAUSE.TOP_WDT + 4 * s.get PWRST_TOP_CAUSE.HOST_CMD
        + 8 * s.get PWRST_TOP_CAUSE.FENCE + 256 * s.get PWRST_TOP_CAUSE.FAIL_RUN)]

/-- What A3 loses of Sillage: its fields of class V (R110, R430; log entry 44 for the buckets, which refill). The
counts of codes stay, of those that the table does not list as well (R428). -/
def SilSt.stop (x : SilSt) : SilSt :=
  { x with frozen := false, ports := [], frozenTotal := 0, frozenCodes := [],
           groups := x.groups.map (fun g => { g with win := none, held := none }),
           codes := x.codes.map (fun e => { e with tokens := e.burst }), unlisted := x.unlisted.map (fun e => { e with tokens := e.burst }) }

/-- What a warm reset loses of Sillage (R428), and RECOVERY begun (R421). -/
def SilSt.warm (x : SilSt) : SilSt :=
  { x.stop with queue := [], recovery := true }

/-- Sillage at a warm reset: EVT_RESET first, then EVT_SIL_MODE when the mode changes (R417, R421). `s` already holds the
registers after the reset; `test` is SEQ_CTL.TEST before it. -/
def State.silWarm (s : State) (test : Bool) : State :=
  let old := s.sil.mode test
  let x := s.sil.warm
  let new := x.mode (s.on SEQ_CTL.TEST)
  let ev := s.resetEvent 1
  let first := x.next
  let x := if old = new then x else { x with floodSeq := if new = 0 then x.floodSeq else first }
  let y := x.admitOne (s.on SEQ_CTL.TEST) false ev
  { s with sil := y.modeChange s.now s.fb old new first }

/-- The summary record of a window that closes with a count (R424). -/
def summaryRec (x : SilSt) (g : Nat) (w : Window) (ts : Nat) (fb flood : Bool) : Rec :=
  { num := x.next, code := w.code, src := w.src, flags := recFlags fb false true false flood false false,
    count := min 0xFFFF w.count, ts := ts, parent := w.parent,
    payload := payload [(0, 1, g), (2, 2, min 0xFFFF ((w.lastTs - w.openTs) / 1000000)), (4, 36, w.map)] }

/-- A window closes (R424, R425, R426): nothing with a count of 0; in a freeze the summary is held; in a flood that has
filled the ring it counts as overflow; otherwise it is written. -/
def SilSt.closeWin (x : SilSt) (test : Bool) (ts : Nat) (fb : Bool) (g : Nat) : SilSt :=
  match x.win g with
  | none => x
  | some w =>
    let y := { x with groups := modAt x.groups g (fun q => { q with win := none }) }
    let flood := x.mode test != 0
    if w.count = 0 then y
    else if x.frozen then
      { y with groups := modAt y.groups g (fun q => { q with held := some (summaryRec x g w ts fb flood) }) }
    else if flood && x.ringFull then y.floodLost (summaryRec x g w ts fb flood) false
    else y.enqueue (summaryRec x g w ts fb flood)

/-- A record that is already made takes the next number and joins the queue, unless a flood has filled the ring. -/
def SilSt.late (x : SilSt) (test : Bool) (r : Rec) (persist : Bool) : SilSt :=
  if x.mode test != 0 && x.ringFull then x.floodLost r persist
  else x.write { r with num := x.next } persist

/-- A record that the end of a freeze writes takes the next number behind the held ones, which may fill the admission queue: it is none of
that queue's events (R425; DEDUCED, log entry 44). A flood that has filled the ring leaves it out. -/
def SilSt.kept (x : SilSt) (test : Bool) (r : Rec) (persist : Bool) : SilSt :=
  if x.mode test != 0 && x.ringFull then x.floodLost r persist
  else
    let r := { r with num := x.next }
    let y := if persist then x.nvmPush r else x
    { y with queue := y.queue ++ [r] }

/-- The held summaries of the groups from g on, written in ascending group number (R425). -/
def SilSt.releaseHeld (test : Bool) : Nat → Nat → SilSt → SilSt
  | 0, _, x => x
  | n + 1, g, x =>
    match (x.groups[g]?).bind (·.held) with
    | none => releaseHeld test n (g + 1) x
    | some r =>
      releaseHeld test n (g + 1)
        (({ x with groups := modAt x.groups g (fun q => { q with held := none }) } : SilSt).kept test r false)

/-- The end of a freeze (R425): held summaries, then EVT_SIL_OVF. The held persistent records already stand in the
queue in arrival order. -/
def SilSt.unfreeze (x : SilSt) (test : Bool) (ts : Nat) (fb : Bool) : SilSt :=
  if !x.frozen then x else
    let y := SilSt.releaseHeld test 32 0 { x with frozen := false, frozenTotal := 0, frozenCodes := [] }
    let p := (y.entry EVT_SIL_OVF).persist
    y.kept test
      { num := y.next, code := EVT_SIL_OVF, src := srcOf ACC_TRAY UNIT_SIL 0,
        flags := recFlags fb p false false (x.mode test != 0) false false, count := min 0xFFFF x.frozenTotal, ts := ts,
        parent := noParent, payload := payload [(0, 4, x.frozenTotal), (4, 4, x.frozenCodes.length)] } p

/-- SRC of an RLIM record (R422). -/
def rlimSrc (e : CodeEnt) : Nat :=
  srcOf (if e.multiAcc then ACC_TRAY else srcAcc e.first) (if e.multiUnit then UNIT_SIL else srcUnit e.first)
    (if e.multiInst then 0x7F else srcInst e.first)

/-- The RLIM record of one code at a whole second, which takes a token (R422). -/
def SilSt.rlimOne (test : Bool) (ts : Nat) (fb : Bool) (x : SilSt) (code : Nat) : SilSt :=
  let e := x.entry code
  if e.supp = 0 || e.tokens = 0 then x else
    let r : Rec :=
      { num := x.next, code := code, src := rlimSrc e, flags := recFlags fb false false true (x.mode test != 0) false false,
        count := e.supp, ts := ts, parent := noParent, payload := 0 }
    (x.modEntry code (fun e => { e with supp := 0, tokens := e.tokens - 1 })).late test r false

/-- The RLIM records of a whole second; they wait while frozen (R422, R425). -/
def SilSt.rlim (x : SilSt) (test : Bool) (ts : Nat) (fb : Bool) : SilSt :=
  if x.frozen then x
  else ((x.codes ++ x.unlisted).map (·.code)).foldl (SilSt.rlimOne test ts fb) x

/-- One bucket gains tokens, up to BURST (R422). -/
def SilSt.refill (x : SilSt) (code k : Nat) : SilSt :=
  if x.listed code || x.unlisted.any (fun e => e.code == code) then
    x.modEntry code (fun e => { e with tokens := min e.burst (e.tokens + k) })
  else x

/-- The refills of a bucket that fall between two timestamps, at the multiples of 1 s ÷ RATE (R422; log entry 44). -/
def refills (rate t0 t1 : Nat) : Nat := t1 * rate / 1000000000 - t0 * rate / 1000000000

/-- The timestamp advances by a gap (R422): every bucket gains the tokens that the gap covers, and the whole seconds passed give one
RLIM record per code, at the first of them. -/
def SilSt.gap (x : SilSt) (test : Bool) (t0 t1 : Nat) (fb : Bool) : SilSt :=
  let fill := fun (e : CodeEnt) => { e with tokens := min e.burst (e.tokens + refills e.rate t0 t1) }
  let y := { x with codes := x.codes.map fill, unlisted := x.unlisted.map fill }
  let sec := t0 / 1000000000 + 1
  if sec * 1000000000 ≤ t1 then y.rlim test (sec * 1000000000) fb else y

/-- The writer stores the oldest admitted record into the ring and advances SIL_WSEQ; a freeze stops it (R420, R425). -/
def SilSt.writeOne (x : SilSt) : SilSt :=
  if x.frozen then x else
    match x.queue with
    | [] => x
    | r :: t => { x with ring := put (x.wseq % 16384) r x.ring, wseq := (x.wseq + 1) % 2 ^ 32, queue := t }

/-- The 60 bytes of a record before its CRC, and the record's 64 bytes (R414). -/
def recBody (r : Rec) : List Byte :=
  leBytes 2 r.code ++ leBytes 2 r.src ++ leBytes 2 r.flags ++ leBytes 2 r.count ++ leBytes 8 r.ts ++ leBytes 4 r.parent
    ++ leBytes 40 r.payload.toNat

def recBytes (r : Rec) : List Byte := recBody r ++ leBytes 4 (crc32c (recBody r))

/-- New groups and codes at Accord apply or a live activation (R426, R430): open windows close with their summaries, held
summaries are written out, buckets refill, counts move with their code. -/
def SilSt.install (x : SilSt) (test : Bool) (ts : Nat) (fb : Bool) (groups : List Group) (codes : List CodeEnt) : SilSt :=
  let y := (List.range x.groups.length).foldl (fun x g => x.closeWin test ts fb g) { x with frozen := false }
  let y := SilSt.releaseHeld test 32 0 y
  { y with
    frozen := x.frozen
    groups := groups
    codes := codes.map (fun e =>
      let e := { e with persist := e.persist || persistentCodes.contains e.code, tokens := e.burst }
      let o := y.entry e.code
      { e with supp := o.supp, ovf := o.ovf, first := o.first, multiAcc := o.multiAcc, multiUnit := o.multiUnit, multiInst := o.multiInst })
    unlisted := [] }

end Sys2Proof.Machine
end

