-- ==== Sys2Proof/Machine/SlotMem.lean ====
section
/-! DEFINITION. Where a slot's program stands in the Infuser's memories (R137, R138, R165, R167), and which parts of them nobody
but the loading may write (R139). -/

namespace Sys2Proof.Machine

/-! ### An engine's writes at a gate domain's port (R87, R88) -/

/-- A block written. -/
def PortStore.apply (m : List Host.Cell) (p : PortStore) : List Host.Cell :=
  memStore (if p.zero = 0 then m else memForget m p.addr (p.addr + p.zero)) p.addr p.bytes

/-- A block written at its domain's port: held while a gate is asked for; a bus error, so nothing, while the clock stands. -/
def State.portStore (s : State) (p : PortStore) : State :=
  if s.gated p.dom then s
  else if s.gateAsked p.dom then { s with clk := { s.clk with stores := s.clk.stores ++ [p] } }
  else { s with mem := PortStore.apply s.mem p }

/-- The gate domain whose port something sent leaves by: NET1, the SVC MAC (R87). -/
def Sent.domain : Sent → Option Nat
  | .tmp p _ _ _ _ _ _ _ => if p.port.val = 1 then some 5 else none
  | .svc _ _ => some 6
  | .answer port _ _ => if port = 0 then none else some (4 + port)

/-- What has been sent so far is forgotten: a command that can transmit begins. -/
def State.sendBegin (s : State) : State := { s with ses := { s.ses with sent := [] } }

/-- A port sends: held while its gate is asked for; a bus error, so nothing, while its clock stands (R87, R88). -/
def State.emit (s : State) (x : Sent) : State :=
  let held := (x.domain.map s.gateAsked).getD false
  if (x.domain.map s.gated).getD false then s
  else { s with ses := if held then { s.ses with txHeld := s.ses.txHeld ++ [x] } else { s.ses with sent := s.ses.sent ++ [x] } }

/-- The gate of a domain is off the table: the blocks that its port holds are written, in order, and what it holds to send is sent. -/
def State.portGo (s : State) (d : Nat) : State :=
  { s with
    mem := (s.clk.stores.filter (fun p => p.dom == d)).foldl PortStore.apply s.mem
    clk := { s.clk with stores := s.clk.stores.filter (fun p => p.dom != d) }
    ses := { s.ses with
      sent := s.ses.sent ++ s.ses.txHeld.filter (fun x => x.domain == some d)
      txHeld := s.ses.txHeld.filter (fun x => x.domain != some d) } }

/-- The clock of a domain has stopped: what its port holds meets a bus error. -/
def State.portDrop (s : State) (d : Nat) : State :=
  { s with
    clk := { s.clk with stores := s.clk.stores.filter (fun p => p.dom != d) }
    ses := { s.ses with txHeld := s.ses.txHeld.filter (fun x => x.domain != some d) } }

def slotEmpty : Nat := 0
def slotLoaded : Nat := 1
def slotEnabled : Nat := 2
def slotStopping : Nat := 3
def slotFault : Nat := 4

/-- A slot's state, coded as INF_SLOTn_STS.STATE. -/
def State.slotSt (s : State) (n : Nat) : Nat := s.get (INF_SLOT_STS.STATE n)

/-- The clusters that a slot's program uses. -/
def State.clmask (s : State) (n : Nat) : Nat := s.get (INF_SLOT_PROG.CLMASK n)

/-- The start of a slot's program memory (R18). -/
def slotBase (n : Nat) : Nat := 0x0230000000 + n * 0x40000

/-- A little-endian field of the program header in slot memory (R165, R167). -/
def State.hdrAt (s : State) (n o k : Nat) : Nat := leNat (memBytes s.mem (slotBase n + o) k)

/-- A window in bank or quarter c: its first byte and its length (R137, R138, R165). -/
def State.weightWin (s : State) (n c : Nat) : Nat × Nat :=
  (0x0210000000 + c * 0x200000 + s.hdrAt n (32 + 8 * c) 4, s.hdrAt n (36 + 8 * c) 4)

def State.stateWin (s : State) (n c : Nat) : Nat × Nat :=
  (0x0220000000 + c * 0x80000 + s.hdrAt n (64 + 8 * c) 4, s.hdrAt n (68 + 8 * c) 4)

/-- The program has a hint mailbox, an adaptation block (R165). -/
def State.hasMbox (s : State) (n : Nat) : Bool := bitOf (s.hdrAt n 16 4) 0
def State.hasAdapt (s : State) (n : Nat) : Bool := bitOf (s.hdrAt n 16 4) 1

/-- Where the mailbox and the adaptation block stand (R165). -/
def State.mboxAddr (s : State) (n : Nat) : Nat := (s.stateWin n (s.hdrAt n 112 1)).1 + s.hdrAt n 116 4
def State.adAddr (s : State) (n : Nat) : Nat := (s.stateWin n (s.hdrAt n 120 1)).1 + s.hdrAt n 124 4

/-- The words of an adaptation block: NB, NS, the types, and the element k's type (R157). -/
def State.adNb (s : State) (n : Nat) : Nat := leNat (memBytes s.mem (s.adAddr n) 2)
def State.adNs (s : State) (n : Nat) : Nat := leNat (memBytes s.mem (s.adAddr n + 4) 2)

/-- The number of elements; none without a block. DESIGN CHOICE (log entry 50): NB and NS above 256, which R157 does not give and no check of R166
refuses, count as coded. -/
def State.adCount (s : State) (n : Nat) : Nat := if s.hasAdapt n then s.adNb n + s.adNs n else 0

/-- The clusters of a slot's program. -/
def State.slotClusters (s : State) (n : Nat) : List Nat := bitList 4 (s.clmask n)

/-- A byte range lies in another. -/
def within1 (a l base len : Nat) : Bool := decide (base ≤ a ∧ a + l ≤ base + len)

/-- Two byte ranges meet. -/
def meets (a1 l1 a2 l2 : Nat) : Bool := decide (a1 < a2 + l2 ∧ a2 < a1 + l1)

/-- The window of state SRAM that a slot's program has in a quarter meets a range of bytes. -/
def State.inStateWin (s : State) (n a size : Nat) : Bool :=
  (s.slotClusters n).any (fun c => let w := s.stateWin n c; meets a size w.1 w.2)

/-- A slot with a run in progress has a range of state SRAM wholly in its window (R139). -/
def State.inRunWin (s : State) (a size : Nat) : Bool :=
  (List.range 16).any (fun n => (s.inf.slots.getD n {}).run.isSome
    && (s.slotClusters n).any (fun c => let w := s.stateWin n c; within1 a size w.1 w.2))

/-- The adaptation block of a slot's program meets a range of bytes (R157). -/
def State.inAdapt (s : State) (n a size : Nat) : Bool :=
  s.hasAdapt n && meets a size (s.adAddr n) (16 + 20 * s.adCount n)

/-- The slot's program may run: a load into it is refused, and its windows and its adaptation block may not be written from
outside the Infuser (R139, R142). -/
def State.slotSealed (s : State) (n : Nat) : Bool := s.slotSt n == slotEnabled || s.slotSt n == slotStopping

/-- The window of weight SRAM that a slot's program has in a bank meets a range of bytes. -/
def State.inWeightWin (s : State) (n a size : Nat) : Bool :=
  (s.slotClusters n).any (fun c => let w := s.weightWin n c; meets a size w.1 w.2)

/-- Some slot that holds a program has its adaptation block in a range of bytes (R139, R157). -/
def State.inAnyAdapt (s : State) (a size : Nat) : Bool :=
  (List.range 16).any (fun n => s.slotSt n != slotEmpty && s.inAdapt n a size)

/-- A Control core's write to state SRAM is refused (R139). -/
def State.stateGuard (s : State) (a size : Nat) : Bool :=
  s.inAnyAdapt a size || (List.range 16).any (fun n => s.slotSealed n && s.inStateWin n a size)

/-- The security block's write is refused (R139): a slot takes a load in EMPTY, LOADED and FAULT only (R142), and the table lets
the block write what belongs to a slot then. Log entry 48. -/
def State.loadGuard (s : State) (a size : Nat) : Bool :=
  (List.range 16).any (fun n => s.slotSealed n
    && (meets a size (slotBase n) 0x40000 || s.inWeightWin n a size || s.inStateWin n a size || s.inAdapt n a size))

end Sys2Proof.Machine
end

