-- ==== Sys2Proof/Machine/Access.lean ====
section
/-! DEFINITION. The address map (R18 to R20), who may reach what (R21, R22), and how an access that is allowed, forbidden or
unreachable completes. -/

namespace Sys2Proof.Machine

/-- The regions and blocks of the address map (R18, R20). -/
inductive Region where
  | bootRom | silRing | keeperMem | logMirror | retention
  | baseRegs | keyInternal | keyRequest | kpr
  | topSram | fw | inf | infWeights | infState | infSlots | net0 | net1 | ses | sesTable
  | tl | tfab | lpc | sensorMap | sigTable | sec | svc | lpddr
  | hole
deriving DecidableEq, Repr

/-- The address ranges of the map: first byte, last byte, region (R18, R20). -/
def regionMap : List (Nat × Nat × Region) := [
  (0x0000000000, 0x000000FFFF, .bootRom),
  (0x0010000000, 0x00100FFFFF, .silRing),
  (0x0010100000, 0x001017FFFF, .keeperMem),
  (0x0010180000, 0x00101BFFFF, .logMirror),
  (0x00101C0000, 0x00101FFFFF, .retention),
  (0x0020000000, 0x002005BFFF, .baseRegs),
  (0x0020060000, 0x002007FFFF, .baseRegs),
  (0x0020080000, 0x0020087FFF, .keyInternal),
  (0x0020088000, 0x002008FFFF, .keyRequest),
  (0x0020090000, 0x002009FFFF, .baseRegs),
  (0x00200A0000, 0x00200AFFFF, .kpr),
  (0x0100000000, 0x01017FFFFF, .topSram),
  (0x0140000000, 0x014003FFFF, .fw),
  (0x0200000000, 0x020000FFFF, .inf),
  (0x0210000000, 0x02107FFFFF, .infWeights),
  (0x0220000000, 0x02201FFFFF, .infState),
  (0x0230000000, 0x02303FFFFF, .infSlots),
  (0x0300000000, 0x030000FFFF, .net0),
  (0x0300010000, 0x030001FFFF, .net1),
  (0x0300020000, 0x030002FFFF, .ses),
  (0x0300100000, 0x030010FFFF, .sesTable),
  (0x0400000000, 0x040007FFFF, .tl),
  (0x0400100000, 0x040010FFFF, .tfab),
  (0x0400800000, 0x040080FFFF, .lpc),
  (0x0401000000, 0x04010FFFFF, .sensorMap),
  (0x0402000000, 0x040207FFFF, .sigTable),
  (0x0500000000, 0x050000FFFF, .sec),
  (0x0500010000, 0x050001FFFF, .svc),
  (0x1000000000, 0x1FFFFFFFFF, .lpddr)]

/-- The region of an address. -/
def regionOf (a : Nat) : Region :=
  match regionMap.find? (fun r => r.1 ≤ a && a ≤ r.2.1) with
  | some r => r.2.2
  | none => .hole

/-- The region lies on the Base die (R18). -/
def Region.onBase : Region → Bool
  | .bootRom | .silRing | .keeperMem | .logMirror | .retention | .baseRegs | .keyInternal | .keyRequest | .kpr => true
  | _ => false

/-- A region of registers, whose accesses are 32 bits wide and aligned (R9). -/
def Region.isRegs : Region → Bool
  | .baseRegs | .keyInternal | .keyRequest | .kpr | .fw | .inf | .net0 | .net1 | .ses | .sesTable | .tl | .tfab | .lpc
  | .sec | .svc => true
  | _ => false

/-- The initiator sits on the Top die. The debug module sits on the Base die (R375). -/
def iniOnTop : Initiator → Bool
  | .keeper _ | .debug => false
  | _ => true

/-- The Bridge is UP (R33). -/
def State.bridgeUp (s : State) : Bool := s.get BRG_STS.STATE == 2

/-! ### Messages between the dies (R27, R28, R33) -/

/-- The virtual channels and directions of EVT_BRG_REPLAY (R445): direction 0 is Top to Base. -/
def vcGuard : Nat := 0
def vcCtrl : Nat := 1
def vcBulk : Nat := 2

/-- Message types; the numbers are the model's (log entry 47). -/
def kindValues : Nat := 0
def kindProposals : Nat := 1
def kindRelease : Nat := 2
def kindAlive : Nat := 3
def kindTime : Nat := 4
def kindLevels : Nat := 5
def kindRead : Nat := 6
def kindWrite : Nat := 7
def kindCompletion : Nat := 8
def kindRecord : Nat := 9
def kindMirror : Nat := 10

/-- The next sequence number of a virtual channel in a direction (R27). -/
def State.brgNext (s : State) (vc dir : Nat) : Nat :=
  if vc = vcBulk ∧ dir = 0 then s.brg.bulkSeq else (look (3 * dir + vc) s.brg.seqs).getD 0

/-- A message is acknowledged (R27): its header stands as the last one, the channel's sequence number moves on. -/
def State.msgHeader (s : State) (vc dir kind len addr : Nat) : State :=
  let q := s.brgNext vc dir
  { s with brg := { s.brg with
    hdr := some { vc := vc, dir := dir, kind := kind, len := len, seq := q, addr := addr }
    seqs := if vc = vcBulk ∧ dir = 0 then s.brg.seqs else put (3 * dir + vc) ((q + 1) % 2 ^ 16) s.brg.seqs } }

/-- The direction of an initiator's requests. -/
def ctrlDir (ini : Initiator) : Nat := b2n (!iniOnTop ini)

/-- A CTRL message of the direction waits: a request, or a completion, which goes the other way. -/
def State.ctrlWaits (s : State) (dir : Nat) : Bool :=
  s.brg.ctrlQ.any (fun e => ctrlDir e.1 == dir) || s.brg.backQ.any (fun e => ctrlDir e.1 != dir)

/-- A message of the virtual channel and direction may start: no message of a virtual channel with higher priority waits (R28). -/
def State.vcFree (s : State) (vc dir : Nat) : Bool :=
  vc == vcGuard || (if dir = 0 then s.brg.guardQ.isEmpty else s.brg.levelQ.isEmpty) && (vc == vcCtrl || !s.ctrlWaits dir)

/-- Messages already queued travel while the Bridge is UP, and in QUIESCE until it ends (R33). -/
def State.flows (s : State) : Bool := s.get BRG_STS.STATE == 2 || s.get BRG_STS.STATE == 3

/-! ### What a core's own checks stop (R396) -/

/-- The hart of State.fw.pmp that an initiator is. -/
def pmpHart : Initiator → Option Nat
  | .core c => some c.val
  | .keeper k => some (4 + k.val)
  | _ => none

/-- How many low bits of a number are 1 before the first 0, up to a bound. -/
def onesLow : Nat → Nat → Nat
  | 0, _ => 0
  | f + 1, a => if a % 2 = 1 then 1 + onesLow f (a / 2) else 0

/-- The bytes from a first to one past the last that entry i of a core's PMP covers: none, top of range, 4 bytes, a naturally aligned power of
two. -/
def pmpSpan (l : List PmpEnt) (i : Nat) : Nat × Nat :=
  let e := l.getD i {}
  match bitsOf e.cfg 3 2 with
  | 0 => (0, 0)
  | 1 => (if i = 0 then 0 else (l.getD (i - 1) {}).addr * 4, e.addr * 4)
  | 2 => (e.addr * 4, e.addr * 4 + 4)
  | _ =>
    let k := onesLow 54 e.addr
    (e.addr / 2 ^ (k + 1) * 2 ^ (k + 3), e.addr / 2 ^ (k + 1) * 2 ^ (k + 3) + 2 ^ (k + 3))

/-- The lowest entry that meets an access denies it: it covers a part only, or it is locked and lacks the permission; an entry that is not
locked leaves machine mode free, in which every access of this model is made (log entry 53). -/
def pmpDenies (l : List PmpEnt) (a size : Nat) (write : Bool) : Bool :=
  match (List.range l.length).find? (fun i => let r := pmpSpan l i; decide (r.1 < a + size ∧ a < r.2)) with
  | none => false
  | some i =>
    let r := pmpSpan l i
    !decide (r.1 ≤ a ∧ a + size ≤ r.2) || (bitOf (l.getD i {}).cfg 7 && !bitOf (l.getD i {}).cfg (b2n write))

/-- The core traps instead of making the access: a misaligned load or store of memory, or a PMP entry that denies it (R396). What a register
takes R9 says. -/
def State.coreTraps (s : State) (ini : Initiator) (q : BusReq) : Bool :=
  match pmpHart ini with
  | none => false
  | some h =>
    q.size != 0 && (!(regionOf q.addr).isRegs && q.addr % q.size != 0 || pmpDenies (s.fw.pmp.getD h []) q.addr q.size q.write)

/-- The rights of R21 for a Keeper core; only the Control cores reach the Signature Table (R181). -/
def keeperRight (write : Bool) : Region → Bool
  | .bootRom | .silRing | .logMirror => !write
  | .keeperMem | .retention | .baseRegs | .keyInternal | .keyRequest | .kpr => true
  | .sigTable | .hole => false
  | _ => true

/-- The rights of R21 for a Control core. -/
def coreRight (write : Bool) : Region → Bool
  | .silRing | .retention => !write
  | .logMirror | .baseRegs | .keyRequest => true
  | .bootRom | .keeperMem | .keyInternal | .kpr | .hole => false
  | _ => true

/-- A slot's hint mailbox holds the byte (R186). -/
def State.inMailbox (s : State) (a : Nat) : Bool :=
  (List.range 16).any (fun n => s.slotSt n != slotEmpty && s.hasMbox n && meets a 1 (s.mboxAddr n) 320)

/-- The receive or the transmit queue of the session engine holds the byte (R363). -/
def State.inSesQueue (s : State) (a : Nat) : Bool :=
  [SES_RXQ_BASE.BASE, SES_TXQ_BASE.BASE].any (fun f => meets a 1 (0x0100000000 + s.get f * 0x1000) (64 * 0x5000))

/-- The rights of R21. The debug module reaches what the cores of its unlocked scope reach, the key store's internal
region excepted, and with scope bit 2 the Top-die memories (R376, R377). -/
def State.right (s : State) (ini : Initiator) (write : Bool) (addr : Nat) : Bool :=
  let r := regionOf addr
  match ini with
  | .keeper _ => keeperRight write r
  | .core _ => coreRight write r
  | .debug =>
    r != .keyInternal && ((bitOf (s.get KEY_DBG.SCOPE) 0 && keeperRight write r)
      || (bitOf (s.get KEY_DBG.SCOPE) 1 && s.bridgeUp && coreRight write r)
      || (bitOf (s.get KEY_DBG.SCOPE) 2 && s.bridgeUp && !r.onBase && !r.isRegs && r != .hole))
  | .infuser => r == .infWeights && !write || r == .infState || r == .infSlots && !write || r == .sensorMap && !write
  | .security => r == .topSram || r == .lpddr || r == .infWeights || r == .infState || r == .infSlots
  | .session => s.inSesQueue addr
  | .hint => s.inMailbox addr
  | .telemetry => r == .sensorMap || r == .lpddr

/-- The last LPDDR5X byte that is installed lies below this address (R19, R44). -/
def State.lpddrEnd (s : State) : Nat := 0x1000000000 + s.get ACD_INFO.LP_CAP * 2 ^ 30

/-- How an access is judged before its data is looked at. -/
inductive Verdict where
  | allowed
  | forbidden
  | unreachable
deriving DecidableEq, Repr

/-- R10, R17, R18, R19, R21, R22, R33: a Top die in reset or unpowered makes no access; an
address outside the map, LPDDR5X above the installed capacity, and an access across a
Bridge that is not UP are unreachable; an access that the table of R21 forbids is forbidden. -/
def State.judge (s : State) (ini : Initiator) (write : Bool) (addr : Nat) : Verdict :=
  let r := regionOf addr
  if (iniOnTop ini && s.pwr.topRst) = true ∨ r = .hole then .unreachable
  else if !s.right ini write addr then .forbidden
  else if r = .lpddr ∧ s.lpddrEnd ≤ addr then .unreachable
  else if (iniOnTop ini) == r.onBase && !s.bridgeUp then .unreachable
  else .allowed

/-- A forbidden access (R21): a bus error without effect; a Top-die access to a Base-die address also sets
BRG_STS.BLOCKED and logs EVT_BRG_BLOCKED. -/
def State.block (s : State) (ini : Initiator) (write : Bool) (addr : Nat) : State :=
  let s := { s with bus := .error }
  if iniOnTop ini && (regionOf addr).onBase then
    (s.set BRG_STS.BLOCKED 1).log EVT_BRG_BLOCKED ACC_TRAY UNIT_BRG 0
      [(0, 8, addr), (8, 1, b2n write), (9, 1, iniByte ini)]
  else s

/-- A write command on a register: its effect when the initiator may write there, a bus error otherwise. -/
def State.command (s : State) (ini : Initiator) (addr : Nat) (effect : State → State) : State :=
  match s.judge ini true addr with
  | .allowed => { effect s with bus := .written }
  | .forbidden => s.block ini true addr
  | .unreachable => { s with bus := .error }

end Sys2Proof.Machine
end

