-- ==== Sys2Proof/Machine/Nvm.lean ====
section
/-! DEFINITION. The NVM journal (R118, R119): the queue of commits, banks and compaction, and what committed entries
hold. -/

namespace Sys2Proof.Machine

/-- Journal entry kinds, the model's numbering (log entry 9). -/
def kindSil : Nat := 1
def kindSetting : Nat := 2
def kindCapture : Nat := 3
def kindLife : Nat := 4
def kindMarker : Nat := 5
def kindKey : Nat := 6
def kindCount : Nat := 7

/-- The space an entry takes in its bank: 24 bytes of overhead and the data, rounded up to 256 (R118). -/
def entrySize (len : Nat) : Nat := (24 + len + 255) / 256 * 256

/-- The room of a bank for entries; its header takes the first 256 bytes (R119; log entry 9). -/
def bankRoom : Nat := 262144 - 256

/-- The space that the entries of a bank take. -/
def bankUsed (b : List (Nat × Nat × Nat)) : Nat := b.foldl (fun a e => a + entrySize e.2.2) 0

/-- The space taken in the active bank; an entry that was cut off keeps its place until a compaction (R119). -/
def NvmSt.used (x : NvmSt) : Nat := bankUsed x.bank + (x.cut.map (fun e => entrySize e.2)).foldl (· + ·) 0

/-- The entries that a compaction copies, given newest first: the newest of each kind and key, and of the Sillage
batches those that still hold one of the 1,024 newest records (R119, R427). -/
def liveEntries : List (Nat × Nat × Nat) → List (Nat × Nat) → Nat → List (Nat × Nat × Nat)
  | [], _, _ => []
  | e :: t, seen, n =>
    if e.1 = kindSil then
      if n < 1024 then e :: liveEntries t seen (n + (e.2.2 - 8) / 64) else liveEntries t seen n
    else if seen.contains (e.1, e.2.1) then liveEntries t seen n
    else e :: liveEntries t ((e.1, e.2.1) :: seen) n

/-- The engine takes up the next waiting commit, or the compaction that it needs first, unless NVM_HELD defers it
(R115, R118, R119) or a warm reset is asserted (R96). -/
def State.nvmStart (s : State) : State :=
  if s.nvm.busy.isSome || s.nvm.compacting || s.on PWRST_BO_STS.NVM_HELD || s.pwr.warmOn then s
  else
    match s.nvm.queue with
    | [] => s.set PWRST_NVM_STS.BUSY 0
    | j :: t =>
      if bankRoom < s.nvm.used + entrySize j.len then
        ({ s with nvm := { s.nvm with compacting := true } }).set PWRST_NVM_STS.BUSY 1
      else ({ s with nvm := { s.nvm with busy := some j, queue := t } }).set PWRST_NVM_STS.BUSY 1

/-- SPI NOR writes for image staging wait: for VIN_AO, and then for the commits that its dip deferred (R115, R116). -/
def State.flashHeld (s : State) : Bool := s.on PWRST_BO_STS.NVM_HELD || s.pwr.flashWait != 0

/-- A unit hands a commit to the engine. -/
def State.nvmCommit (s : State) (j : NvmJob) : State :=
  ({ s with nvm := { s.nvm with queue := s.nvm.queue ++ [j] } }).nvmStart

/-- What one committed part leaves in NVM. DESIGN CHOICE (log entry 9): erased Sillage entries free their room in the bank with the erase,
not only at the next compaction, of which R119 alone speaks. -/
def NvmSt.apply (x : NvmSt) : NvmData → NvmSt
  | .silRecords boot rs => { x with kept := (rs.reverse.map (fun r => (boot, r)) ++ x.kept).take 1024 }
  | .silClear => { x with kept := [], bank := x.bank.filter (fun e => e.1 ≠ kindSil) }
  | .regs fs => { x with regs := fs.foldl (fun r f => put f.1 f.2 r) x.regs }
  | .epoch =>
    let e := (regGet x.regs ACD_EPOCH_LO.EPOCH_LO + 2 ^ 32 * regGet x.regs ACD_EPOCH_HI.EPOCH_HI + 1) % 2 ^ 64
    { x with regs := regSet (regSet x.regs ACD_EPOCH_LO.EPOCH_LO e) ACD_EPOCH_HI.EPOCH_HI (e / 2 ^ 32) }
  | .blob k key bs => { x with blobs := x.blobs.filter (fun b => b.1 ≠ k || b.2.1 ≠ key) ++ [(k, key, bs)] }
  | .blobErase k => { x with blobs := x.blobs.filter (fun b => b.1 ≠ k) }

/-- The epoch registers follow the committed epoch (R59, R110). Other P fields show their new value from the moment that
their commit is handed over. -/
def State.nvmShow (s : State) : NvmData → State
  | .epoch => s.setAll [(ACD_EPOCH_LO.EPOCH_LO, regGet s.nvm.regs ACD_EPOCH_LO.EPOCH_LO),
      (ACD_EPOCH_HI.EPOCH_HI, regGet s.nvm.regs ACD_EPOCH_HI.EPOCH_HI)]
  | _ => s

/-- The commit in progress ends with its marker; what it writes is in NVM whole (R118, R119). -/
def State.nvmFinish (s : State) : State :=
  match s.nvm.busy with
  | none => s
  | some j =>
    let x := j.data.foldl NvmSt.apply s.nvm
    let s := { s with nvm := { x with busy := none, seq := (x.seq + 1) % 2 ^ 32, bank := (j.kind, j.key, j.len) :: x.bank } }
    j.data.foldl State.nvmShow s

/-- The compaction's new bank becomes valid with its header's marker, and takes the entry that found the old bank full
first (R119). -/
def State.nvmCompacted (s : State) : State :=
  if s.nvm.compacting then
    let s := { s with nvm := { s.nvm with compacting := false, bank := liveEntries s.nvm.bank [] 0, cut := [] } }
    (s.set PWRST_NVM_STS.BANK (1 - s.get PWRST_NVM_STS.BANK)).nvmStart
  else s

/-- A blob committed under a kind and key. -/
def State.nvmBlob (s : State) (kind key : Nat) : Option (List Byte) :=
  (s.nvm.blobs.find? (fun b => b.1 == kind && b.2.1 == key)).map (·.2.2)

/-- How many queued records one journal entry holds: 8 bytes and 64 for each record within 3,328 bytes (R118, R427). -/
def silBatch : Nat := 51

/-- The queue of persistent records commits as one journal entry (R427), unless NVM_HELD defers it; after a loss the
commit adds one EVT_SIL_NVM_LOST record, which a full ring of a flood leaves out as any other (R421, R422). The entry carries SIL_BOOT. -/
def State.silCommit (s : State) : State :=
  if s.on PWRST_BO_STS.NVM_HELD || s.sil.nvmQueue.isEmpty then s
  else
    let lost := s.sil.nvmMissed
    let x := s.sil
    let ev := s.eventOf EVT_SIL_NVM_LOST ACC_TRAY UNIT_SIL 0 [(0, 4, lost)]
    let flood := x.mode (s.on SEQ_CTL.TEST) != 0
    let stays := flood && x.ringFull
    let r := x.recOf ev 1 (if flood then noParent else x.openParent (x.entry ev.code).group) true flood false
    let r := if stays then { r with num := noParent } else r
    let recs := x.nvmQueue.take silBatch
    let y : SilSt := { x with nvmQueue := x.nvmQueue.drop silBatch, nvmMissed := 0 }
    let y := if lost = 0 then y else if stays then y.floodLost r false else y.enqueue r
    let batch := if lost = 0 then recs else recs.take (silBatch - 1) ++ [r]
    let y := if lost = 0 then y else { y with nvmQueue := x.nvmQueue.drop (silBatch - 1) }
    ({ s with sil := y }).nvmCommit
      { kind := kindSil, key := (batch.head?.map Rec.num).getD 0, len := 8 + 64 * batch.length,
        data := [.silRecords (s.get SIL_BOOT.BOOT) batch] }

def execSilNvmCommit (s : State) : Host.Outcome State Fault Refusal := .next s.silCommit

/-- SIL_CTL.NVM_CLR erases the kept records while the presence window is open (R427). -/
def State.silNvmClear (s : State) : State :=
  if s.on KEY_PRES.OPEN then s.nvmCommit { kind := kindSil, key := 0, len := 64, data := [.silClear] } else s

def execNvmClr (ini : Initiator) (s : State) : Host.Outcome State Fault Refusal :=
  .next (s.command ini SIL_CTL.NVM_CLR.addr State.silNvmClear)

end Sys2Proof.Machine
end

