-- ==== Sys2Proof/Machine/TwoWire.lean ====
section
/-! DEFINITION. The two-wire ports (R313 to R336): queueing and choosing controller transactions, the bytes of each
protocol, results, the target role, attention, stuck segments. What a finished transaction means to its owner stands in
Machine/TwoWireCmd.lean. -/

namespace Sys2Proof.Machine

/-- A port. -/
def State.port (s : State) (n : Nat) : TwPort := s.tw.getD n {}

/-- A state with one port changed. -/
def State.modPort (s : State) (n : Nat) (f : TwPort → TwPort) : State := { s with tw := modAt s.tw n f }

/-- The level of a transaction (R317). -/
def TwOwner.level : TwOwner → Nat
  | .seqOff _ => 1
  | .vofs _ _ | .phases _ _ | .bcThrottle _ _ _ => 2
  | .seqOn _ | .seqPoll _ | .seqMargin _ => 3
  | .ara | .poll _ _ | .bcTrain _ _ => 4
  | .channel _ | .tag _ _ => 5

/-- The turn of level 5 that an owner takes: channels 0 and 1, then the tag traffic (R317). -/
def TwOwner.turn : TwOwner → Nat
  | .channel c => c
  | _ => 2

/-- A transaction queued at a port, with the attempts that ARB_RETRY allows (R320); one that goes at once stands ahead of all queued
(R267). -/
def State.twQueue (s : State) (n : Nat) (owner : TwOwner) (addr : Nat) (page : Option Nat) (tx : List Byte) (rx : RxForm)
    (pec : Bool) (now : Bool := false) : State :=
  let t : TwTxn := { owner := owner, addr := addr, page := page, tx := tx, rx := rx, pec := pec, retries := s.get (TW_CFG.ARB_RETRY n) }
  s.modPort n (fun p => { p with queue := if now then t :: p.queue else p.queue ++ [t] })

/-- The level-5 turns in the order that follows the last one. -/
def turnOrder (last : Nat) : List Nat := [(last + 1) % 3, (last + 2) % 3, last % 3]

/-- The waiting transaction that starts next (R317): the highest level; within it the oldest; on level 5 the channels and
the tag traffic in turn. -/
def TwPort.next (p : TwPort) : Option TwTxn :=
  match [1, 2, 3, 4].findSome? (fun l => p.queue.find? (fun t => t.owner.level == l)) with
  | some t => some t
  | none => (turnOrder p.turn).findSome? (fun k => p.queue.find? (fun t => t.owner.turn == k))

/-- The segment cannot carry transactions: stuck, power cycling or disabled (R319, R331). -/
def State.segDown (s : State) (n : Nat) : Bool :=
  s.get (TW_STS.STATE n) == 4 || s.get (TW_STS.STATE n) == 5 || s.get (TW_STS.STATE n) == 6

/-! ### Results (R319) -/

def resOk : Nat := 0
def resAddrNack : Nat := 1
def resDataNack : Nat := 2
def resArbLost : Nat := 3
def resTimeout : Nat := 4
def resPec : Nat := 5
def resBlockLen : Nat := 6
def resSegDown : Nat := 7
def resBusErr : Nat := 8
def resIllegal : Nat := 9

/-- The port's controller, its timeouts, its stuck detection and its power-cycle timers run: not in safe mode, where they pause
(R78, R333), nor in A3 or through a warm reset. -/
def State.twRuns (s : State) : Bool := !s.safeMode && s.get PWRST_STATE.CUR != 3 && !s.pwr.warmOn

/-- Does the transaction read? -/
def TwTxn.reads (t : TwTxn) : Bool := t.rx != .none

/-- The address byte, with the read bit where set (R314). -/
def addrByte (addr : Nat) (read : Bool) : Byte := BitVec.ofNat 8 (addr * 2 + b2n read)

/-- Every byte of a transaction that its PEC covers (R318): the address and the bytes sent, and on a read the second
address byte and the bytes received. -/
def TwTxn.pecBytes (t : TwTxn) (rx : List Byte) : List Byte :=
  if t.reads then
    (if t.tx.isEmpty then [] else addrByte t.addr false :: t.tx) ++ addrByte t.addr true :: rx
  else addrByte t.addr false :: t.tx

/-- The bytes that the port sends after its first address byte: a write with PEC ends in its CRC-8 (R318). -/
def TwTxn.sent (t : TwTxn) : List Byte :=
  if t.reads then t.tx else if t.pec then t.tx ++ [BitVec.ofNat 8 (crc8 (t.pecBytes []))] else t.tx

/-- The result of a transaction that ran to its end, and the data received without count and PEC (R318, R319). A wrong PEC leaves the
data received; a wrong count ends the read before any data. -/
def TwTxn.result (t : TwTxn) (rx : List Byte) : Nat × List Byte :=
  match t.rx with
  | .none => (resOk, [])
  | .fixed n =>
    if t.pec && crc8 (t.pecBytes (rx.take (n + 1))) != 0 then (resPec, rx.take n) else (resOk, rx.take n)
  | .block max =>
    let c := leAt rx 0 1
    if c = 0 ∨ max < c then (resBlockLen, [])
    else if t.pec && crc8 (t.pecBytes (rx.take (c + 2))) != 0 then (resPec, (rx.drop 1).take c)
    else (resOk, (rx.drop 1).take c)

/-- The data received by a transaction that is broken off (R318): without a count byte and a PEC. -/
def TwTxn.partData (t : TwTxn) (rx : List Byte) : List Byte :=
  match t.rx with
  | .none => []
  | .fixed n => rx.take n
  | .block max => if leAt rx 0 1 ≤ max then (rx.drop 1).take (leAt rx 0 1) else []

/-- The port's sticky error of a result (R336). -/
def State.twErr (s : State) (n r : Nat) : State :=
  if r = resAddrNack ∨ r = resDataNack then s.set (TW_ERR.NACK n) 1
  else if r = resTimeout then s.set (TW_ERR.TIMEOUT n) 1
  else if r = resPec then s.set (TW_ERR.PEC n) 1
  else if r = resBusErr then s.set (TW_ERR.BUS_ERR n) 1
  else s

/-- The counters and errors at the end of a transaction (R336). -/
def State.twCount (s : State) (n r : Nat) : State :=
  (if r = resOk then s.bump (TW_CNT.DONE n) else s.bump (TW_CNT.FAIL n)).twErr n r

/-- An own transaction ends: the port is free again. -/
def State.twFree (s : State) (n : Nat) : State :=
  let s := s.modPort n (fun p => { p with cur := none })
  if s.get (TW_STS.STATE n) = 2 then s.set (TW_STS.STATE n) 1 else s

/-! ### Command channels (R318) -/

/-- The k bytes of a buffer of words from byte 0 on. -/
def State.bufBytes (s : State) (word : Nat → Fld) (k : Nat) : List Byte :=
  (List.range k).map (fun i => BitVec.ofNat 8 (s.get (word (i / 4)) / 256 ^ (i % 4)))

/-- A buffer of words with bytes stored from byte 0 on; the bytes of a word that are not stored keep their value. -/
def State.bufStore (s : State) (word : Nat → Fld) (bs : List Byte) : State :=
  (List.range ((bs.length + 3) / 4)).foldl (fun t w =>
    let k := min 4 (bs.length - 4 * w)
    t.set (word w) (leNat (slice bs (4 * w) k) + t.get (word w) / 256 ^ k * 256 ^ k)) s

/-- The transaction of a channel command, or none where it is illegal (R318, R319). -/
def channelTxn (prot code len : Nat) (buf : List Byte) : Option (List Byte × RxForm) :=
  let c := BitVec.ofNat 8 code
  match prot with
  | 0x0 => some ([], .none)
  | 0x1 => some ([], .fixed 0)
  | 0x2 => some ([c], .none)
  | 0x3 => some ([], .fixed 1)
  | 0x4 => some (c :: buf.take 1, .none)
  | 0x5 => some ([c], .fixed 1)
  | 0x6 => some (c :: buf.take 2, .none)
  | 0x7 => some ([c], .fixed 2)
  | 0x8 => if len = 0 then none else some (c :: BitVec.ofNat 8 len :: buf.take len, .none)
  | 0x9 => if len = 0 then none else some ([c], .block len)
  | 0xA => some (c :: buf.take 2, .fixed 2)
  | 0xB => if len = 0 then none else some (c :: BitVec.ofNat 8 len :: buf.take len, .block len)
  | 0xC => if len = 0 then none else some (buf.take len, .none)
  | 0xD => if len = 0 then none else some ([], .fixed len)
  | _ => none

/-- A 7-bit address that no target answers at (R319, R323). -/
def reservedAddr (a : Nat) : Bool := a ≤ 0x07 || (0x78 ≤ a && a ≤ 0x7F)

/-- The port's target role answers the address (R323). -/
def State.tgtMatch (s : State) (n a : Nat) : Bool :=
  s.on (TW_CFG.TGT_EN n) && !reservedAddr a && a != 0x0C &&
    (if s.on (TW_TGT_MASK.MASK_MODE n) then
      a &&& s.get (TW_TGT_MASK.MASK n) == s.get (TW_TGT_MASK.ADDR n) &&& s.get (TW_TGT_MASK.MASK n)
    else
      s.on (TW_TGT_ADDR.EN0 n) && s.get (TW_TGT_ADDR.ADDR0 n) == a || s.on (TW_TGT_ADDR.EN1 n) && s.get (TW_TGT_ADDR.ADDR1 n) == a
      || s.on (TW_TGT_ADDR.EN2 n) && s.get (TW_TGT_ADDR.ADDR2 n) == a
      || s.on (TW_TGT_ADDR.EN3 n) && s.get (TW_TGT_ADDR.ADDR3 n) == a)

/-- A channel transaction ends with a result (R318, R319). -/
def State.channelEnd (s : State) (n c r : Nat) (rx : List Byte) : State :=
  let s := s.setAll [(TW_CH_STS.BUSY n c, 0), (TW_CH_STS.RESULT n c, r), (TW_CH_STS.RXLEN n c, rx.length)]
  let s := s.bufStore (TW_CH_BUF.DATA n c) rx
  s.set (TW_IRQ_STS.CH_DONE n) (setBitOf (s.get (TW_IRQ_STS.CH_DONE n)) c true)

/-- The fields of TWn_CHc_CMD take the written values (R11, R336). -/
def State.channelFields (s : State) (n c w : Nat) : State :=
  s.setAll [(TW_CH_CMD.PROT n c, bitsOf w 0 4), (TW_CH_CMD.PEC n c, bitsOf w 4 1), (TW_CH_CMD.ADDR n c, bitsOf w 5 7),
    (TW_CH_CMD.CODE n c, bitsOf w 12 8), (TW_CH_CMD.LEN n c, bitsOf w 20 8)]

/-- GO (R318, R319): ignored while the channel is BUSY; an illegal command ends with ILLEGAL at once. -/
def State.channelGo (s : State) (n c w : Nat) : State :=
  let prot := bitsOf w 0 4
  let addr := bitsOf w 5 7
  let code := bitsOf w 12 8
  let len := bitsOf w 20 8
  if s.on (TW_CH_STS.BUSY n c) then s
  else
    match channelTxn prot code len (s.bufBytes (TW_CH_BUF.DATA n c) (max len 2)) with
    | some (tx, rx) =>
      if s.on (TW_CFG.CTRL_EN n) && !reservedAddr addr && !s.tgtMatch n addr then
        (s.set (TW_CH_STS.BUSY n c) 1).twQueue n (.channel c) addr none tx rx (bitOf w 4)
      else (s.twCount n resIllegal).channelEnd n c resIllegal []
    | none => (s.twCount n resIllegal).channelEnd n c resIllegal []

/-- A write of TWn_CHc_CMD: its fields, then GO (R318). -/
def State.channelWrite (s : State) (n c w : Nat) : State :=
  let s := s.channelFields n c w
  if bitOf w 31 then s.channelGo n c w else s

def execChannelGo (ini : Initiator) (n : Fin 12) (c : Fin 2) (word : Word) (s : State) : Host.Outcome State Fault Refusal :=
  .next (s.command ini (TW_CH_CMD.GO n.val c.val).addr (fun s => s.channelWrite n.val c.val word.toNat))

/-! ### The target role (R323 to R325) -/

/-- The port takes part as a target: it is enabled, its segment is not down, and A3 or a warm reset does not hold it (R331, R333). -/
def State.tgtLive (s : State) (n : Nat) : Bool :=
  s.get (TW_STS.STATE n) != 0 && !s.segDown n && s.get PWRST_STATE.CUR != 3 && !s.pwr.warmOn

/-- A write from another controller, complete to its STOP or repeated START (R324). -/
def State.targetWrite (s : State) (n a : Nat) (bs : List Byte) : State :=
  if s.tgtLive n && s.tgtMatch n a && s.on (TW_TGT_CTL.READY n) && !s.on (TW_TGT_STS.RX_FULL n) then
    let kept := bs.take 256
    let s := s.setIf (256 < bs.length) (TW_ERR.TGT_OVERRUN n) 1
    let s := s.bufStore (TW_TGT_RX.DATA n) kept
    s.setAll [(TW_TGT_STS.RX_FULL n, 1), (TW_TGT_STS.RX_LEN n, kept.length), (TW_TGT_STS.MATCH_ADDR n, a),
      (TW_TGT_STS.PEC_OK n, b2n (crc8 (addrByte a false :: kept) == 0)), (TW_IRQ_STS.TGT_RX n, 1)]
  else s

def execTargetWrite (n : Fin 12) (addr : Fin 128) (bytes : List Byte) (s : State) : Host.Outcome State Fault Refusal :=
  .next (s.targetWrite n.val addr.val bytes)

/-- Another controller's transaction stretches on the segment, or is over: STATE 3 and SCL held low by the T8 (R324, R336). -/
def State.twStretch (s : State) (n : Nat) (on : Bool) : State :=
  let st := s.get (TW_STS.STATE n)
  (s.set (TW_STS.SCL n) (b2n !on)).set (TW_STS.STATE n) (if on && st == 1 then 3 else if !on && st == 3 then 1 else st)

/-- A read is served: TX_LEN bytes of the transmit buffer, 0xFF beyond them with TGT_UNDERRUN (R324). -/
def State.targetServe (s : State) (n want : Nat) (valid : Bool) : State :=
  let len := if valid then s.get (TW_TGT_CTL.TX_LEN n) else 0
  let data := s.bufBytes (TW_TGT_TX.DATA n) (min want len)
  let s := s.modPort n (fun p => { p with served := data ++ List.replicate (want - len) 0xFF, readWant := 0 })
  let s := (s.setIf (len < want) (TW_ERR.TGT_UNDERRUN n) 1).twStretch n false
  s.setAll [(TW_TGT_CTL.TX_VALID n, 0), (TW_TGT_STS.READ_PEND n, 0)]

/-- A read from another controller (R324). -/
def State.targetRead (s : State) (n a want : Nat) : State :=
  if s.tgtLive n && s.tgtMatch n a && s.on (TW_TGT_CTL.READY n) && !s.on (TW_TGT_STS.RX_FULL n) then
    if s.on (TW_TGT_CTL.TX_VALID n) then s.targetServe n want true
    else ((s.modPort n (fun p => { p with readWant := want })).twStretch n true).setAll
      [(TW_TGT_STS.READ_PEND n, 1), (TW_IRQ_STS.TGT_TXREQ n, 1)]
  else s

def execTargetRead (n : Fin 12) (addr : Fin 128) (count : Nat) (s : State) : Host.Outcome State Fault Refusal :=
  .next (s.targetRead n.val addr.val count)

/-- TX_VALID marks the buffer ready; a stretching read is served at once (R324, R336). -/
def State.txValid (s : State) (n : Nat) : State :=
  let s := s.set (TW_TGT_CTL.TX_VALID n) 1
  if s.on (TW_TGT_STS.READ_PEND n) then s.targetServe n (s.port n).readWant true else s

def execTxValid (ini : Initiator) (n : Fin 12) (s : State) : Host.Outcome State Fault Refusal :=
  .next (s.command ini (TW_TGT_CTL.TX_VALID n.val).addr (fun s => s.txValid n.val))

/-- TX_VALID has not become 1 after 10 ms: 0xFF for each byte, and TGT_UNDERRUN (R324). -/
def execTxValidTimeout (n : Fin 12) (s : State) : Host.Outcome State Fault Refusal :=
  .next (if s.twRuns && s.on (TW_TGT_STS.READ_PEND n.val) then
    (s.targetServe n.val (s.port n.val).readWant false).set (TW_ERR.TGT_UNDERRUN n.val) 1 else s)

/-- SCL held low for 25 ms during a transaction addressed to the port (R324, R335). -/
def execTargetTimeout (n : Fin 12) (addr : Fin 128) (s : State) : Host.Outcome State Fault Refusal :=
  .next (if s.twRuns && s.tgtLive n.val && s.tgtMatch n.val addr.val then
    (((s.modPort n.val (fun p => { p with readWant := 0 })).twStretch n.val false).setAll
      [(TW_ERR.TIMEOUT n.val, 1), (TW_TGT_STS.READ_PEND n.val, 0)]).log EVT_TW_TIMEOUT ACC_TRAY UNIT_TW n.val
        [(0, 1, 1), (1, 1, addr.val)]
    else s)

/-- RX_ACK empties the receive buffer (R324, R336). -/
def execRxAck (ini : Initiator) (n : Fin 12) (s : State) : Host.Outcome State Fault Refusal :=
  .next (s.command ini (TW_TGT_CTL.RX_ACK n.val).addr
    (fun s => s.setAll [(TW_TGT_STS.RX_FULL n.val, 0), (TW_TGT_STS.RX_LEN n.val, 0)]))

/-- The Bridge leaves UP: READY falls on every port of the Control cores (R325). -/
def State.readyDrop (s : State) : State :=
  (List.range 12).foldl (fun s n => if s.on (TW_CFG.HANDLER n) then s.set (TW_TGT_CTL.READY n) 0 else s) s

/-! ### Attention (R326, R327) -/

/-- The addresses of the in-band poll list with their positions. -/
def State.pollList (s : State) (n : Nat) : List (Nat × Nat) :=
  [(0, s.on (TW_ATTN_LIST.EN0 n), s.get (TW_ATTN_LIST.ADDR0 n)), (1, s.on (TW_ATTN_LIST.EN1 n), s.get (TW_ATTN_LIST.ADDR1 n)),
   (2, s.on (TW_ATTN_LIST.EN2 n), s.get (TW_ATTN_LIST.ADDR2 n)), (3, s.on (TW_ATTN_LIST.EN3 n), s.get (TW_ATTN_LIST.ADDR3 n))
  ].filterMap (fun e => if e.2.1 then some (e.1, e.2.2) else none)

/-- Receive Byte queued for each listed address in list order, the last one marked (R326). -/
def State.queuePoll (s : State) (n : Nat) : List (Nat × Nat) → State
  | [] => s
  | e :: t => (s.twQueue n (.poll e.1 t.isEmpty) e.2 none [] (.fixed 1) false).queuePoll n t

def execAttentionRequest (n : Fin 12) (s : State) : Host.Outcome State Fault Refusal :=
  .next (if s.get (TW_CFG.ATTN n.val) = 1 ∧ s.tgtLive n.val then s.queuePoll n.val (s.pollList n.val) else s)

/-- A poll's result goes to its byte of TWn_ATTN_RES; INBAND rises after the last (R326). -/
def State.pollEnd (s : State) (n k : Nat) (last : Bool) (v : Nat) : State :=
  let held := s.get (TW_ATTN_RES.RES n)
  let s := s.set (TW_ATTN_RES.RES n) (held - bitsOf held (8 * k) 8 * 2 ^ (8 * k) + v % 256 * 2 ^ (8 * k))
  s.setIf last (TW_IRQ_STS.INBAND n) 1

/-- An Alert Response Address read queued (R327). -/
def State.queueAra (s : State) (n : Nat) : State := s.twQueue n .ara 0x0C none [] (.fixed 1) false

/-- A read of the Alert Response Address waits or runs. -/
def TwPort.araPending (p : TwPort) : Bool :=
  p.queue.any (fun t => t.owner == .ara) || p.cur.any (fun t => t.owner == .ara)

/-- While SMBALERT_N is low and not ignored, a read waits or runs (R327). In A3 the port does not run (R333). -/
def State.araWant (s : State) (n : Nat) : State :=
  let p := s.port n
  if s.get (TW_CFG.ATTN n) = 2 ∧ p.alertLow ∧ !p.alertIgnored ∧ !p.araPending ∧ s.get PWRST_STATE.CUR ≠ 3 then s.queueAra n else s

/-- SMBALERT_N changes after its deglitch (R327): low queues a read; high ends the run of NACKs. An input that ALERT_STUCK has made
ignored counts again once it has been high for 1 ms. -/
def State.smbAlert (s : State) (n : Nat) (low : Bool) : State :=
  if s.get (TW_CFG.ATTN n) = 2 then
    let long := decide ((s.port n).alertTs + 1000000 ≤ s.now)
    let s := s.modPort n (fun p =>
      { p with alertLow := low, araNacks := if low then p.araNacks else 0,
               alertTs := if !low && p.alertLow then s.now else p.alertTs,
               alertIgnored := if low && !p.alertLow && long then false else p.alertIgnored })
    s.araWant n
  else s

def execSmbAlert (n : Fin 12) (low : Bool) (s : State) : Host.Outcome State Fault Refusal :=
  .next (if s.placedIn fnAlert n.val then s.smbAlert n.val low else s)

/-- The fields of TWn_ALERT follow the queue (R336). -/
def State.alertView (s : State) (n : Nat) : State :=
  let q := (s.port n).alerts
  s.setAll [(TW_ALERT.ADDR n, q.headD 0), (TW_ALERT.VALID n, b2n (!q.isEmpty)), (TW_ALERT.LEVEL n, q.length)]

/-- The end of an Alert Response Address read (R327). A read that a timeout, a lost arbitration or a bus error ended is repeated while
the input is low; after SEG_DOWN the segment's return to IDLE repeats it. -/
def State.araEnd (s : State) (n r : Nat) (rx : List Byte) : State :=
  if r = resOk then
    let a := leAt rx 0 1 / 2
    let p := s.port n
    let s := if p.alerts.length < 8 then s.modPort n (fun p => { p with alerts := p.alerts ++ [a], araNacks := 0 })
             else (s.set (TW_ERR.ALERT_OVF n) 1).modPort n (fun p => { p with araNacks := 0 })
    let s := if p.alerts.length < 8 then (s.set (TW_IRQ_STS.ALERT n) 1).alertView n else s
    s.araWant n
  else if (s.port n).alertLow && r = resAddrNack then
    let s := s.modPort n (fun p => { p with araNacks := p.araNacks + 1 })
    if 3 ≤ (s.port n).araNacks then
      ((s.modPort n (fun p => { p with alertIgnored := true })).set (TW_ERR.ALERT_STUCK n) 1).log
        EVT_TW_ALERT_STUCK ACC_TRAY UNIT_TW n
    else s
  else if r = resAddrNack ∨ r = resSegDown then s
  else s.araWant n

/-- 1 ms after a NACKed read while SMBALERT_N is low (R327). -/
def execAlertRetry (n : Fin 12) (s : State) : Host.Outcome State Fault Refusal := .next (s.araWant n.val)

/-- A read of TWn_ALERT returns the oldest entry and removes it (R336). -/
def State.alertPop (s : State) (n : Nat) : State :=
  let v := s.get (TW_ALERT.ADDR n) + 2 ^ 7 * s.get (TW_ALERT.VALID n) + 2 ^ 8 * s.get (TW_ALERT.LEVEL n)
  { (s.modPort n (fun p => { p with alerts := p.alerts.drop 1 })).alertView n with bus := .value v }

def execAlertQueueRead (ini : Initiator) (n : Fin 12) (s : State) : Host.Outcome State Fault Refusal :=
  let a := (TW_ALERT.ADDR n.val).addr
  .next (match s.judge ini false a with
    | .allowed => s.alertPop n.val
    | .forbidden => s.block ini false a
    | .unreachable => { s with bus := .error })

/-! ### Stuck segments (R329 to R331) -/

/-- The segment becomes DISABLED (R331): SEGPWRn stays asserted. -/
def State.segDisable (s : State) (n reason : Nat) : State :=
  (s.setAll [(TW_STS.STATE n, 6), (TW_STS.SEGPWR n, s.get (TW_CFG.SEGPWR_USE n))]).log EVT_TW_DISABLED ACC_TRAY UNIT_TW n
    [(0, 1, reason), (1, 1, s.get (TW_SEG.CYCLES n))]

/-- A power cycle begins, or the segment is disabled once RUN has reached MAX_CYC (R330, R331). -/
def State.segCycle (s : State) (n : Nat) : State :=
  if !s.on (TW_CFG.STUCK_POL n) || !s.on (TW_CFG.SEGPWR_USE n) then s.segDisable n 0
  else if s.get (TW_CFG.MAX_CYC n) + 1 ≤ s.get (TW_SEG.RUN n) then s.segDisable n 1
  else ((s.setAll [(TW_STS.STATE n, 5), (TW_STS.SEGPWR n, 0)]).bump (TW_SEG.CYCLES n)).bump (TW_SEG.RUN n)

/-- A segment is declared stuck (R329): the record, the flags, then the policy of R330 or R331. Its waiting transactions
end with SEG_DOWN (Machine/TwoWireCmd.lean). -/
def State.segStuck (s : State) (n : Nat) (scl sda : Bool) : State :=
  let s := s.setAll [(TW_STS.STATE n, 4), (TW_ERR.STUCK n, 1), (TW_IRQ_STS.STUCK n, 1), (TW_STS.SCL n, b2n scl),
    (TW_STS.SDA n, b2n sda)]
  (s.log EVT_TW_STUCK ACC_TRAY UNIT_TW n [(0, 1, b2n scl), (1, 1, b2n sda)]).segCycle n

/-- SEGPWRn is reasserted after SEG_OFF (R330). -/
def execSegOffExpiry (n : Fin 12) (s : State) : Host.Outcome State Fault Refusal :=
  .next (if s.get (TW_STS.STATE n.val) = 5 ∧ s.twRuns then s.set (TW_STS.SEGPWR n.val) 1 else s)

/-- No idle within 1 ms after the settle time: the cycle repeats, or the segment is disabled (R330, R331). -/
def execSegIdleTimeout (n : Fin 12) (s : State) : Host.Outcome State Fault Refusal :=
  .next (if s.get (TW_STS.STATE n.val) = 5 ∧ s.twRuns then s.segCycle n.val else s)

/-- 60 s without a stuck detection (R330). -/
def execSegRunReset (n : Fin 12) (s : State) : Host.Outcome State Fault Refusal :=
  .next (if s.twRuns then s.set (TW_SEG.RUN n.val) 0 else s)

/-! ### Resets and power states (R333) -/

/-- A write that switches a rail: the sequencer's operation resumes after a warm reset, so its writes are sent again (R273). -/
def TwOwner.switches : TwOwner → Bool
  | .seqOff _ | .seqOn _ => true
  | _ => false

/-- What a port loses with its class V fields (R333, R336): transactions, the alert queue, a stretching read. The sequencer's switch
writes, one that was cut among them, wait again (R273); an input that ALERT_STUCK has made ignored stays so (R327). -/
def TwPort.cut (p : TwPort) : TwPort :=
  { p with queue := (p.cur.toList ++ p.queue).filter (fun t => t.owner.switches), cur := none, alerts := [], araNacks := 0, readWant := 0,
           served := [] }

/-- The ports are cut off and their lines released; STUCK, CYCLING and DISABLED are kept (R333). An alert input that is still low asks
for its read again. -/
def State.twCut (s : State) : State :=
  (List.range 12).foldl (fun s n =>
    let s := (s.modPort n TwPort.cut).araWant n
    if s.get (TW_STS.STATE n) = 2 ∨ s.get (TW_STS.STATE n) = 3 ∨ s.get (TW_STS.STATE n) = 7 then s.set (TW_STS.STATE n) 1 else s) s

/-- At Accord apply the ports enable, with SEGPWRn asserted where used (R333, R316). -/
def State.twApply (s : State) : State :=
  (List.range 12).foldl (fun s n =>
    if s.on (TW_CFG.CTRL_EN n) || s.on (TW_CFG.TGT_EN n) || s.on (TW_CFG.SEGPWR_USE n) then
      s.setAll [(TW_STS.STATE n, 1), (TW_STS.SEGPWR n, s.get (TW_CFG.SEGPWR_USE n))]
    else s) s

end Sys2Proof.Machine
end

