-- ==== Sys2Proof/Machine/SeqBase.lean ====
section
/-! DEFINITION. The rail graph (R252 to R256): decoding and encoding its entries, looking rails up, and the regulator
commands of R275. -/

namespace Sys2Proof.Machine

/-- Bits of the byte at an offset. -/
def byteBits (bs : List Byte) (o lo w : Nat) : Nat := bitsOf (leAt bs o 1) lo w

/-- The predecessors that four DEP bytes name (R255). -/
def depList (bs : List Byte) (o : Nat) : List Nat :=
  [leAt bs o 1, leAt bs (o + 1) 1, leAt bs (o + 2) 1, leAt bs (o + 3) 1].filter (· ≠ 0xFF)

/-- Four bytes as numbers. -/
def fourBytes (bs : List Byte) (o : Nat) : List Nat := (List.range 4).map (fun i => leAt bs (o + i) 1)

/-- A rail entry from its 32 bytes (R255). -/
def railOf (bs : List Byte) : RailCfg :=
  { rail := leAt bs 0 1, group := leAt bs 1 1, en := byteBits bs 2 0 6, enUse := byteBits bs 2 6 1 == 1,
    lossGroup := byteBits bs 2 7 1 == 1, pg := byteBits bs 3 0 6, pgSrc := byteBits bs 3 6 2, deps := depList bs 4, depB := fourBytes bs 4,
    onDly := leAt bs 8 2, rampMax := leAt bs 10 2, rampMin := leAt bs 12 2, disTo := leAt bs 14 2, offDly := leAt bs 16 2,
    dgl := byteBits bs 18 0 4, chatter := byteBits bs 18 4 4, dis := leAt bs 19 1, disAin := byteBits bs 20 0 6,
    disAinUse := byteBits bs 20 6 1 == 1, bus := byteBits bs 21 0 4, pmbOn := byteBits bs 21 4 1 == 1,
    vofsCmd := byteBits bs 21 5 1 == 1, pmbAddr := byteBits bs 22 0 7, page := leAt bs 23 1, vnom := leAt bs 24 2,
    vmode := byteBits bs 26 0 5, ph := byteBits bs 27 0 6, phCmd := leAt bs 28 1, mgn := byteBits bs 29 0 2,
    maxSteps := byteBits bs 29 2 6, mstep := leAt bs 30 1, trim := byteBits bs 31 0 3, trimK := byteBits bs 31 3 5 }

/-- The 32 bytes of a rail entry (R255, R282). -/
def railBytes (c : RailCfg) : List Byte :=
  leBytes 1 c.rail ++ leBytes 1 c.group ++ leBytes 1 (c.en + 64 * b2n c.enUse + 128 * b2n c.lossGroup)
    ++ leBytes 1 (c.pg + 64 * c.pgSrc) ++ (List.range 4).flatMap (fun i => leBytes 1 (c.depB.getD i 0xFF))
    ++ leBytes 2 c.onDly ++ leBytes 2 c.rampMax ++ leBytes 2 c.rampMin ++ leBytes 2 c.disTo ++ leBytes 2 c.offDly
    ++ leBytes 1 (c.dgl + 16 * c.chatter) ++ leBytes 1 c.dis ++ leBytes 1 (c.disAin + 64 * b2n c.disAinUse)
    ++ leBytes 1 (c.bus + 16 * b2n c.pmbOn + 32 * b2n c.vofsCmd) ++ leBytes 1 c.pmbAddr ++ leBytes 1 c.page
    ++ leBytes 2 c.vnom ++ leBytes 1 c.vmode ++ leBytes 1 c.ph ++ leBytes 1 c.phCmd
    ++ leBytes 1 (c.mgn + 4 * c.maxSteps) ++ leBytes 1 c.mstep ++ leBytes 1 (c.trim + 8 * c.trimK)

/-- A rail that has not been powered (R255, R273). -/
def newRail (c : RailCfg) : Rail :=
  { cfg := c, st := .off, pg := false, chat := 0, msteps := 0, rampT := 0, enTs := 0, winTs := 0, winHeld := false, rise := none,
    dlyDone := false, down := false, black := false, fault := false, pollGood := false, pollRun := 0, readFails := 0, writeFails := 0 }

/-- A reset-output entry from its 8 bytes, and back (R256). -/
def rstoOf (bs : List Byte) : RstoCfg :=
  { rsto := byteBits bs 0 0 4, stretch := byteBits bs 1 0 4, pre := byteBits bs 1 4 4, rails := depList bs 2,
    railB := fourBytes bs 2 }

def rstoBytes (c : RstoCfg) : List Byte :=
  leBytes 1 c.rsto ++ leBytes 1 (c.stretch + 16 * c.pre)
    ++ (List.range 4).flatMap (fun i => leBytes 1 (c.railB.getD i 0xFF)) ++ leBytes 2 0

/-- The header from its 32 bytes, and back (R254). -/
def hdrOf (bs : List Byte) : GraphHdr :=
  { nrail := leAt bs 0 1, nrsto := leAt bs 1 1, bootOn := leAt bs 2 2 % 512, autoRestart := byteBits bs 4 0 1 == 1,
    clrNoPres := byteBits bs 4 1 1 == 1, minOff := leAt bs 6 2, inSrc := byteBits bs 8 0 2, inIdx := byteBits bs 9 0 6,
    inOn := leAt bs 10 2, inOff := leAt bs 12 2 }

def hdrBytes (h : GraphHdr) : List Byte :=
  leBytes 1 h.nrail ++ leBytes 1 h.nrsto ++ leBytes 2 h.bootOn ++ leBytes 2 (b2n h.autoRestart + 2 * b2n h.clrNoPres)
    ++ leBytes 2 h.minOff ++ leBytes 1 h.inSrc ++ leBytes 1 h.inIdx ++ leBytes 2 h.inOn ++ leBytes 2 h.inOff
    ++ List.replicate 18 0

/-- The rail with a number. -/
def State.rail (s : State) (r : Nat) : Option Rail := s.seq.rails.find? (fun x => x.cfg.rail == r)

/-- A state with one rail changed. -/
def State.modRail (s : State) (r : Nat) (f : Rail → Rail) : State :=
  { s with seq := { s.seq with rails := s.seq.rails.map (fun x => if x.cfg.rail == r then f x else x) } }

/-- The rail is ON. -/
def State.railOn (s : State) (r : Nat) : Bool := (s.rail r).any (fun x => x.st == .on)

/-- Safe mode or a warm reset holds the sequencer: its timers pause and no step starts (R78, R273). -/
def State.seqHeld (s : State) : Bool := s.safeMode || s.pwr.warmOn

/-- Transitions of a rail's power-good counted: as far as tells whether CHATTER, at most 15, is exceeded (R263). -/
def Rail.chatAdd (r : Rail) (n : Nat) : Nat := min 16 (r.chat + n)

/-- The level of an accelerator: 0 Normal, 1 Amber, 2 Red, 3 Black (R251). -/
def State.level (s : State) (a : Nat) : Nat := bitsOf (s.get TAMP_LVL.LVL) (2 * a) 2

/-! ### Regulator commands (R275) -/

/-- num / den rounded to nearest, ties to even, for den > 0. -/
def roundNearest (num : Int) (den : Nat) : Int :=
  let q := num.fdiv den
  let r := num - q * den
  if 2 * r < den then q
  else if (den : Int) < 2 * r then q + 1
  else if q % 2 = 0 then q else q + 1

/-- 2^(−N) as numerator and denominator, N the signed VOUT_MODE exponent (R255). -/
def vmodeScale (vmode : Nat) : Nat × Nat :=
  let n := sgn 5 vmode
  if n < 0 then (2 ^ n.natAbs, 1) else (1, 2 ^ n.natAbs)

/-- The word of a voltage-offset command for an offset of onum / oden mV: VOUT_COMMAND carries VNOM + o, VOUT_TRIM carries
o (R275). -/
def vofsWord (c : RailCfg) (onum : Int) (oden : Nat) : Nat :=
  let sc := vmodeScale c.vmode
  let num := (if c.vofsCmd then (c.vnom : Int) * oden + onum else onum) * sc.1
  unsgn 16 (roundNearest num (oden * sc.2 * 1000))

/-- The PAGE write that precedes each access where the entry names a page (R275). -/
def railPage (c : RailCfg) : Option Nat := if c.page = 0xFF then none else some c.page

/-- OPERATION 0x80 or 0x00 queued (R275, R276); a failing rail's goes ahead of all queued writes (R267). -/
def State.queueOperation (s : State) (c : RailCfg) (on : Bool) (now : Bool := false) : State :=
  s.twQueue c.bus (if on then .seqOn c.rail else .seqOff c.rail) c.pmbAddr (railPage c)
    [0x01, if on then 0x80 else 0x00] .none true now

/-- STATUS_WORD read queued (R262, R275). -/
def State.queueStatus (s : State) (c : RailCfg) : State :=
  s.twQueue c.bus (.seqPoll c.rail) c.pmbAddr (railPage c) [0x79] (.fixed 2) false

/-- The bytes of a voltage-offset write of onum / oden mV (R275). -/
def vofsBytes (c : RailCfg) (onum : Int) (oden : Nat) : List Byte :=
  (if c.vofsCmd then 0x21 else 0x22) :: leBytes 2 (vofsWord c onum oden)

end Sys2Proof.Machine
end

