-- ==== Sys2Proof/Machine/Clamp.lean ====
section
/-! DEFINITION. Tamp's clamp (R245 to R248): judging Top-tier proposals, commanding actuators, and the releases and reverts
of R39. -/

namespace Sys2Proof.Machine

/-- A port of the clamp. -/
def State.cport (s : State) (p : Nat) : ClampPort := s.tamp.ports.getD p {}

/-- A state with one port of the clamp changed. -/
def State.modCport (s : State) (p : Nat) (f : ClampPort → ClampPort) : State :=
  { s with tamp := { s.tamp with ports := modAt s.tamp.ports p f } }

/-- Is x between 0 and y, inclusive? -/
def between0 (x y : Int) : Bool := (0 ≤ x && x ≤ y) || (y ≤ x && x ≤ 0)

/-- The judgement of a held value h against the level in force (R246): the value to command, or none where the value in
force stays. `dflt` is the rail's default phase count. -/
def clampJudge (kind lvl h cur lim phMin dflt : Nat) : Option Nat :=
  match kind with
  | 1 =>
    if lvl = 0 then some (unsgn 16 (clampI (-(lim : Int)) lim (sgn 16 h)))
    else if lvl = 1 then if between0 (sgn 16 h) (sgn 16 cur) then some h else none
    else some 0
  | 2 =>
    if lvl = 0 then some (clampN phMin 32 h)
    else if lvl = 1 then if cur ≤ h ∧ phMin ≤ h then some h else none
    else some dflt
  | 3 => some h
  | 4 => some h
  | 5 => if lvl = 0 then some h else if lvl = 1 then if cur ≤ h then some h else none else none
  | _ => none

/-- A clamp write takes the place of a waiting one for the same port (R248). -/
def sameWrite (p : Nat) : TwOwner → Bool
  | .vofs q _ => q == p
  | .phases q _ => q == p
  | _ => false

/-- A regulator write of a port: replaces a pending one, and is discarded for a rail that is not ON or stands at a margin
(R248, R276, R279). -/
def State.clampWrite (s : State) (p v : Nat) : State :=
  let c := s.cport p
  match s.rail c.target with
  | none => s
  | some r =>
    if r.st != .on || r.msteps != 0 then s
    else
      let s := s.modPort r.cfg.bus (fun q => { q with queue := q.queue.filter (fun t => !sameWrite p t.owner) })
      let s := s.modCport p (fun c => { c with cmd := v })
      if c.kind = 1 then
        s.twQueue r.cfg.bus (.vofs p v) r.cfg.pmbAddr (railPage r.cfg) (vofsBytes r.cfg (sgn 16 v) 4) .none true
      else if r.cfg.phCmd = 0 then s
      else
        s.twQueue r.cfg.bus (.phases p v) r.cfg.pmbAddr (railPage r.cfg)
          [BitVec.ofNat 8 r.cfg.phCmd, BitVec.ofNat 8 v] .none true

/-- BC_THROTTLE for a clamp port queued on the back-channel segment of a link (R200, R248). -/
def State.queueThrottle (s : State) (p link lvl : Nat) : State :=
  s.twQueue (s.get (TL_BC.BUS link)) (.bcThrottle p link lvl) (s.get (TL_BC.ADDR link)) none
    [0x30, BitVec.ofNat 8 lvl] .none true

/-- Tamp commands an actuator when the new value differs from the value last commanded (R247, R248). -/
def State.clampCommand (s : State) (p v : Nat) : State :=
  let c := s.cport p
  if v = c.cmd then s
  else if c.kind = 1 ∨ c.kind = 2 then s.clampWrite p v
  else if c.kind = 5 then (s.modCport p (fun c => { c with cmd := v })).queueThrottle p c.acc v
  else (s.modCport p (fun c => { c with cmd := v })).set (TAMP_PROP.SENT p) v

/-- The default phase count of the port's rail (R246). -/
def State.portPhases (s : State) (p : Nat) : Nat := ((s.rail (s.cport p).target).map (·.cfg.ph)).getD 0

/-- The held proposal of a port judged now (R246, R247). At Red and Black kinds 1 and 2 are commanded to their rest values
whether or not a proposal is held. -/
def State.clampPort (s : State) (p : Nat) : State :=
  let c := s.cport p
  let lvl := s.level c.acc
  if c.held || (2 ≤ lvl && (c.kind == 1 || c.kind == 2)) then
    match clampJudge c.kind lvl (s.get (TAMP_PROP.HELD p)) c.cmd (s.get (TAMP_CLAMP.VOFS_LIM c.acc))
        (s.get (TAMP_CLAMP.PH_MIN c.acc)) (s.portPhases p) with
    | some v => s.clampCommand p v
    | none => s
  else s

/-- Every port of an accelerator judged again (R247). -/
def State.clampAcc (s : State) (a : Nat) : State :=
  (List.range 64).foldl (fun s p => if (s.cport p).acc = a ∧ (s.cport p).kind ≠ 0 then s.clampPort p else s) s

/-- The value that a port's actuator stands at with nothing proposed (R246, R276): the default phase count, or 0. -/
def State.portIdle (s : State) (p : Nat) : Nat := if (s.cport p).kind = 2 then s.portPhases p else 0

/-- SENT and the value last commanded stand at the rest value. -/
def State.portToRest (s : State) (p : Nat) : State :=
  (s.set (TAMP_PROP.SENT p) (s.portIdle p)).modCport p (fun c => { c with cmd := s.portIdle p })

/-- The clamp takes over a port's configuration from the output table (R154, R276). A port that is used for another actuator than
before starts at the rest value of the new one. -/
def State.portSync (s : State) (p : Nat) : State :=
  let k := s.get (INF_OUT_CFG.KIND p)
  let a := s.get (INF_OUT_CFG.ACC p)
  let t := s.get (INF_OUT_CFG.TARGET p)
  let c := s.cport p
  if k = 0 ∨ (c.kind = k ∧ c.acc = a ∧ c.target = t) then s
  else (s.modCport p (fun c => { c with kind := k, acc := a, target := t, held := false })).portToRest p

/-- Every port's configuration taken over. -/
def State.portsSync (s : State) : State := (List.range 64).foldl State.portSync s

/-- A proposal arrives: it replaces the held one, and is judged against the level in force on arrival (R36, R246). -/
def State.proposal (s : State) (p v : Nat) : State :=
  let s := (s.portSync p).modCport p (fun c => { c with held := true, reverting := false, retry := false, old := false, oldNext := false })
  (s.set (TAMP_PROP.HELD p) v).clampPort p

/-- The end of a clamp write or BC_THROTTLE (R248): SENT takes the value on OK; otherwise the proposal stays held and is
judged again. -/
def State.clampDone (s : State) (p v r : Nat) : State :=
  if r = resOk then (s.set (TAMP_PROP.SENT p) v).modCport p (fun c => { c with retry := false, segWait := false })
  else
    let sent := s.get (TAMP_PROP.SENT p)
    s.modCport p (fun c => { c with cmd := if c.cmd = v then sent else c.cmd, retry := r != resSegDown,
                                    segWait := r == resSegDown })

/-- 1 ms after a failed clamp write (R248). -/
def State.clampRetry (s : State) (p : Nat) : State :=
  if (s.cport p).retry then (s.modCport p (fun c => { c with retry := false })).clampPort p else s

/-- The two-wire port that a clamp port's writes go out on (R248). -/
def State.clampSeg (s : State) (p : Nat) : Option Nat :=
  let c := s.cport p
  if c.kind = 5 then some (s.get (TL_BC.BUS c.acc)) else (s.rail c.target).map (·.cfg.bus)

/-- The port writes to the regulator of a rail. -/
def State.portOf (s : State) (p r : Nat) : Bool := ((s.cport p).kind == 1 || (s.cport p).kind == 2) && (s.cport p).target == r

/-- A segment returns to IDLE: the proposals that SEG_DOWN left held there are judged again (R248, R332). -/
def State.clampSegUp (s : State) (n : Nat) : State :=
  (List.range 64).foldl (fun s p =>
    if (s.cport p).segWait ∧ s.clampSeg p = some n then (s.modCport p (fun c => { c with segWait := false })).clampPort p else s) s

/-- A throttle pre-hint is cancelled: level 0 at once whatever the accelerator's level (R39, R247). -/
def State.clampThrottleOff (s : State) (p : Nat) : State :=
  if (s.cport p).kind = 5 then (s.modCport p (fun c => { c with held := false })).clampCommand p 0 else s

/-- A release or revert of one port begins (R39, R247): the held proposal is dropped; phases return to the default at once,
pre-boost ends, the throttle is cancelled, and a voltage offset starts to step back. -/
def State.clampRelease (s : State) (p : Nat) : State :=
  let k := (s.cport p).kind
  let s := s.modCport p (fun c => { c with held := false, retry := false, segWait := false })
  if k = 1 then s.modCport p (fun c => { c with reverting := c.cmd != 0 })
  else if k = 2 then s.clampCommand p (s.portPhases p)
  else if k = 3 ∨ k = 4 ∨ k = 5 then s.clampCommand p 0
  else s

/-- Releases or reverts of a list of ports. -/
def State.clampReleaseAll (s : State) (ps : List Nat) : State := ps.foldl State.clampRelease s

/-- One revert step (R39): BRG_HOLD.STEP millivolts toward 0, or all the way with STEP = 0. -/
def revertStep (v step : Nat) : Nat :=
  let x := sgn 16 v
  let d : Int := 4 * step
  if step = 0 then 0 else if 0 ≤ x then unsgn 16 (max 0 (x - d)) else unsgn 16 (min 0 (x + d))

/-- Every 100 µs a reverting offset steps toward 0 (R39). -/
def State.revertOne (s : State) (p : Nat) : State :=
  let c := s.cport p
  if c.reverting && c.kind == 1 then
    let v := revertStep c.cmd (s.get BRG_HOLD.STEP)
    (s.modCport p (fun c => { c with reverting := v != 0 })).clampCommand p v
  else s

/-- A rail becomes ON or returns from a margin: SENT of its kind-1 port is 0, of its kind-2 port PH, and the held proposals
are judged again (R276, R279). -/
def State.clampRailOn (s : State) (r : Nat) : State :=
  (List.range 64).foldl (fun s p => if s.portOf p r then (s.portToRest p).clampPort p else s) s.portsSync

/-- A rail leaves ON or begins a margin: the clamp writes that wait for it are discarded (R276, R279). -/
def State.clampDrop (s : State) (r : Nat) : State :=
  (List.range 64).foldl (fun s p =>
    if s.portOf p r then
      ((match s.clampSeg p with
        | some n => s.modPort n (fun q => { q with queue := q.queue.filter (fun t => !sameWrite p t.owner) })
        | none => s).modCport p (fun c => { c with cmd := s.get (TAMP_PROP.SENT p) }))
    else s) s

def execVofsRevertStep (port : Fin 64) (s : State) : Host.Outcome State Fault Refusal := .next (s.revertOne port.val)

end Sys2Proof.Machine
end

