-- ==== Sys2Proof/Machine/Sequencer.lean ====
section
/-! DEFINITION. The power sequencer (R252 to R282): commands and their refusals, power-up, power-down and discharge,
failures, tray input, reset outputs, margining, captures. -/

namespace Sys2Proof.Machine

/-- Operations in progress, coded as SEQ_STS.OP (R282). -/
def opNone : Nat := 0
def opUp : Nat := 1
def opDown : Nat := 2
def opRestart : Nat := 3
def opFault : Nat := 4
def opInLoss : Nat := 5
def opMinOff : Nat := 6
def opMargin : Nat := 7
def opBlack : Nat := 8
def opRestartUp : Nat := 9

/-- Causes of a failure (R266). -/
def failRampTimeout : Nat := 1
def failRampEarly : Nat := 2
def failUnstable : Nat := 3
def failPgLost : Nat := 4
def failDisTimeout : Nat := 5
def failPrecharged : Nat := 6
def failPmb : Nat := 7

/-- A state with the sequencer's record changed. -/
def State.modSeq (s : State) (f : SeqSt → SeqSt) : State := { s with seq := f s.seq }

/-- Every rail changed. -/
def State.mapRails (s : State) (f : Rail → Rail) : State := s.modSeq (fun q => { q with rails := q.rails.map f })

/-- The rails of a group. -/
def State.railsOf (s : State) (g : Nat) : List Rail := s.seq.rails.filter (fun r => r.cfg.group == g)

/-- A rail that counts as OFF: OFF, or FAILED and switched off (R265). -/
def Rail.isOff (r : Rail) : Bool := r.st == .off || r.st == .failed

/-- The groups, of a mask's bits below 9, that satisfy a condition. -/
def groupMask (p : Nat → Bool) : Nat := maskOf 9 p

/-- A group is ON: it has rails and every one is ON. -/
def State.groupOn (s : State) (g : Nat) : Bool := !(s.railsOf g).isEmpty && (s.railsOf g).all (fun r => r.st == .on)

/-- A group is OFF: every rail counts as OFF. -/
def State.groupOff (s : State) (g : Nat) : Bool := (s.railsOf g).all Rail.isOff

/-- The tray group is ON; one that holds no rail counts as ON (log entry 21). -/
def State.trayOn (s : State) : Bool := (s.railsOf 8).isEmpty || s.groupOn 8

/-- SEQ_GRP_STS of one group (R282). -/
def State.groupState (s : State) (g : Nat) : Nat :=
  let rs := s.railsOf g
  if s.seq.op = opMinOff ∧ bitOf (s.get SEQ_RESUME.GROUPS) g then 4
  else if rs.any (fun r => r.down && !r.isOff) then 3
  else if s.groupOff g then 0
  else if bitOf s.seq.up g && !s.groupOn g then 1
  else if s.groupOn g then 2
  else 5

/-- The rail that a rail names as predecessor is ON; one with no entry never is (R257 refuses it). -/
def State.predsOn (s : State) (c : RailCfg) : Bool := c.deps.all s.railOn

/-- The successors of a rail all count as OFF (R265). -/
def State.succsOff (s : State) (r : Nat) : Bool :=
  s.seq.rails.all (fun x => !x.cfg.deps.contains r || x.isOff)

/-- The AIN code of the rail's discharge channel (R280): 0 when not used. -/
def State.disCode (s : State) (c : RailCfg) : Nat := if c.disAinUse then s.get (TAMP_AIN.CODE c.disAin) else 0

/-- A rail is discharged (R265): power-good not good and, where used, the AIN code at most DIS × 16. A timed rail has no
power-good to judge. -/
def State.discharged (s : State) (r : Rail) : Bool :=
  (r.cfg.pgSrc == 2 || !r.pg) && (!r.cfg.disAinUse || s.get (TAMP_AIN.CODE r.cfg.disAin) ≤ r.cfg.dis * 16)

/-- A timed rail with no DIS_AIN is discharged when DIS_TO has passed (R265). -/
def RailCfg.dischargeByTime (c : RailCfg) : Bool := c.pgSrc == 2 && !c.disAinUse

/-- Time since the rail's enable in microseconds (R280). -/
def State.sinceEn (s : State) (r : Rail) : Nat := (s.now - r.enTs) / 1000

/-! ### Reset outputs (R274) -/

/-- An output whose watched rails are not all ON is asserted; `also` forces those that watch a rail of a list. In a warm reset the
outputs hold (R273). -/
def State.rstoAssert (s : State) (also : List Nat) : State :=
  if s.pwr.warmOn then s
  else s.modSeq (fun q => { q with rsto := q.rstos.foldl (fun m c =>
    if c.rails.any (fun r => !s.railOn r || also.contains r) then setBitOf m c.rsto true else m) q.rsto })

/-- The STRETCH and PRE codes in 100 µs: 0 stands for no time (R256). -/
def rstoTime (code : Nat) : Nat := [0, 1, 10, 20, 50, 100, 200, 500, 1000, 2000, 5000, 10000].getD code 0

/-- A power-down that takes watched rails down: the outputs are asserted at its start, and PRE runs when one that was
released names a PRE (R274). -/
def State.rstoPre (s : State) (rails : List Nat) : State :=
  let wait := s.seq.rstos.any (fun c =>
    !bitOf s.seq.rsto c.rsto && c.rails.any rails.contains && rstoTime c.pre != 0)
  (s.rstoAssert rails).modSeq (fun q => { q with preWait := if wait then q.preWait ++ rails else q.preWait })

/-! ### Switching (R261, R265) -/

/-- EN asserted, OPERATION on written, or both: the ramp window opens (R261). -/
def State.railEnable (s : State) (r : Rail) : State :=
  let s := s.modRail r.cfg.rail (fun x =>
    { x with st := .ramp, enTs := s.now, winTs := s.now, winHeld := false, rise := none, chat := 0,
             pg := if x.cfg.pgSrc = 0 then x.pg else false, pollRun := 0, pollGood := false, readFails := 0, writeFails := 0 })
  let s := if r.cfg.enUse then s.modSeq (fun q => { q with enLvl := setBitOf q.enLvl r.cfg.en true }) else s
  if r.cfg.pmbOn then s.queueOperation r.cfg true else s

/-- EN deasserted, OPERATION off written, or both (R265, R267); a timed rail's power-good ends with its enable. -/
def State.railSwitchOff (s : State) (c : RailCfg) (now : Bool := false) : State :=
  let s := s.modRail c.rail (fun x => { x with pg := x.pg && c.pgSrc != 2, writeFails := 0 })
  let s := if c.enUse then s.modSeq (fun q => { q with enLvl := setBitOf q.enLvl c.en false }) else s
  if c.pmbOn then s.queueOperation c false now else s

/-- The margin request being stepped ends (R278, R279). -/
def State.marginStop (s : State) : State :=
  (s.modSeq (fun q => { q with mgn := none, op := if q.op = opMargin then opNone else q.op })).set SEQ_MGN_STS.STEPPING 0

/-- A margined rail returns to nominal in one write (R279), and a request for the rail that is being stepped ends; the clamp then
judges its proposals again. -/
def State.marginReturn (s : State) (r : Rail) (log : Bool) : State :=
  let s := if s.seq.mgn.any (fun m => m.1 == r.cfg.rail) then s.marginStop else s
  if r.msteps = 0 then s
  else
    let s := s.modRail r.cfg.rail (fun x => { x with msteps := 0 })
    let s := if r.cfg.mgn = 2 then s.set (SEQ_TRIM.CODE r.cfg.trim) 0x200
             else s.twQueue r.cfg.bus (.seqMargin r.cfg.rail) r.cfg.pmbAddr (railPage r.cfg) (vofsBytes r.cfg 0 1) .none true
    let s := s.logIf log EVT_SEQ_MARGIN (if r.cfg.group < 8 then r.cfg.group else ACC_TRAY) UNIT_SEQ r.cfg.rail
      [(0, 1, r.cfg.rail), (1, 1, unsgn 8 r.msteps)]
    s.clampRailOn r.cfg.rail

/-- Every margined rail of a list returns to nominal. -/
def State.marginReturnAll (s : State) (rs : List Rail) (log : Bool) : State :=
  rs.foldl (fun s r => s.marginReturn r log) s

/-- A power-down includes the rails that p holds of (R265): those in WAIT go OFF at once, margined ones return to
nominal, the others wait for their successors. It may be a Black shutdown, or a fault or leak shutdown. -/
def State.powerDown (s : State) (p : Rail → Bool) (black fault : Bool) : State :=
  let s := s.marginReturnAll (s.seq.rails.filter p) false
  s.mapRails (fun r =>
    if p r then
      if r.st = .wait then { r with st := .off, dlyDone := false, down := false }
      else if r.isOff then r
      else { r with down := true, black := r.black || black, fault := r.fault || fault }
    else r)

/-- The first-failing-rail capture of a failure (R280). -/
def State.captureOf (s : State) (r : Rail) (cause : Nat) : Capture :=
  { rail := r.cfg.rail, cause := cause, group := r.cfg.group, op := s.seq.op, fb := s.fb, later := 0, ts := s.now,
    en := s.seq.enLvl, pg := s.pgSeen, tEn := min 0xFFFFF (if r.st = .wait then 0 else s.sinceEn r), ain := s.disCode r.cfg }

/-- The bytes of a capture in its NVM entry (R280). -/
def capBytes (c : Capture) : List Byte :=
  leBytes 1 c.rail ++ leBytes 1 c.cause ++ leBytes 1 c.group ++ leBytes 1 (c.op + 16 * b2n c.fb) ++ leBytes 8 c.ts
    ++ leBytes 8 c.en ++ leBytes 8 c.pg ++ leBytes 4 c.tEn ++ leBytes 2 c.ain ++ leBytes 1 c.later

/-- A capture committed as one journal entry with SEQ_FFR_CNT (R280). -/
def State.capCommit (s : State) (c : Capture) : State :=
  s.nvmCommit { kind := kindCapture, key := s.get SEQ_FFR_CNT.CNT % 16, len := 64,
                data := [.blob kindCapture (s.get SEQ_FFR_CNT.CNT % 16) (capBytes c),
                         .regs [(SEQ_FFR_CNT.CNT.key, s.get SEQ_FFR_CNT.CNT)]] }

/-- A capture is held at once and committed (R280). -/
def State.capture (s : State) (r : Rail) (cause : Nat) : State :=
  let c := s.captureOf r cause
  ((s.modSeq (fun q => { q with caps := (c :: q.caps).take 16, ffrOpen := true })).bump SEQ_FFR_CNT.CNT).capCommit c

/-- A further failure of the same shutdown counts in LATER of the newest capture (R267, R282), which is class P like the rest of the
capture: its entry is committed again (log entry 20). -/
def State.captureLater (s : State) : State :=
  let s := s.modSeq (fun q => { q with caps := modAt q.caps 0 (fun c => { c with later := satCount 8 c.later 1 }) })
  match s.seq.caps with
  | [] => s
  | c :: _ => s.capCommit c

/-- A rail fails (R266, R267). -/
def State.railFail (s : State) (rn cause : Nat) : State :=
  match s.rail rn with
  | none => s
  | some r =>
    let acc := if r.cfg.group < 8 then r.cfg.group else ACC_TRAY
    let c := s.captureOf r cause
    let s := s.log EVT_SEQ_FAIL acc UNIT_SEQ rn
      [(0, 1, rn), (1, 1, r.cfg.group), (2, 1, cause), (3, 1, s.seq.op), (4, 4, s.seq.enLvl % 2 ^ 32),
       (8, 4, s.seq.enLvl / 2 ^ 32), (12, 4, s.pgSeen % 2 ^ 32), (16, 4, s.pgSeen / 2 ^ 32),
       (20, 4, c.tEn), (24, 2, s.disCode r.cfg), (26, 1, b2n (!s.seq.ffrOpen))]
    let s := (if s.seq.ffrOpen then s.captureLater else s.capture r cause).set SEQ_STS.FAIL 1
    if cause = failDisTimeout then
      s.set SEQ_LATCH.GFAULT (setBitOf (s.get SEQ_LATCH.GFAULT) r.cfg.group true)
    else
      let tray := !(cause == failPgLost && r.cfg.lossGroup)
      let s := s.marginReturn r false
      let s := ((s.railSwitchOff r.cfg true).modRail rn (fun x => { x with st := .failed, down := false, dlyDone := false })).clampDrop rn
      let s := if tray then (s.set SEQ_LATCH.TFAULT 1).set SEQ_RESUME.GROUPS 0
               else s.set SEQ_LATCH.GFAULT (setBitOf (s.get SEQ_LATCH.GFAULT) r.cfg.group true)
      let hit : Rail → Bool := fun x => tray || x.cfg.group == r.cfg.group
      let s := s.modSeq (fun q =>
        { q with up := if tray then 0 else setBitOf q.up r.cfg.group false,
                 preWait := q.preWait.filter (fun n => !q.rails.any (fun x => x.cfg.rail == n && hit x)),
                 op := if tray ∨ q.op = opNone ∨ q.op = opMargin then opFault else q.op })
      let s := s.rstoAssert ((s.seq.rails.filter hit).map (·.cfg.rail))
      s.powerDown hit false true

/-- Failures seen in one tick are taken in ascending rail number (R266). -/
def State.railFailAll (s : State) (l : List (Nat × Nat)) : State := l.foldl (fun s e => s.railFail e.1 e.2) s

/-- A rail becomes ON (R261, R262): RAMP_T is taken, and the clamp's ports of the rail are reset (R276). -/
def State.railGood (s : State) (r : Rail) : State :=
  let s := s.modRail r.cfg.rail (fun x => { x with st := .on, pg := true, rampT := min 0xFFFF (s.sinceEn r / 10) })
  s.clampRailOn r.cfg.rail

/-- The ramp window of a rail is open (R263). -/
def State.windowOpen (s : State) (r : Rail) : Bool :=
  r.st == .ramp || (r.st == .on && s.now - r.winTs ≤ r.cfg.rampMax * 10000)

/-- CHATTER in force (R255): 0 means 3. -/
def RailCfg.chatMax (c : RailCfg) : Nat := if c.chatter = 0 then 3 else c.chatter

/-- What the sequencer judges of a rail's power-good as it stands: nothing, good, or a failure's cause. -/
inductive PgVerdict where
  | rest
  | good
  | fail (cause : Nat)
deriving DecidableEq, Repr

/-- Power-good of a rail judged (R262 to R264, R266): too many transitions in the window; counted in RAMP, where a rise before RAMP_MIN
is early even if it settles later; lost in ON. -/
def State.verdict (s : State) (r : Rail) : PgVerdict :=
  if r.cfg.pgSrc = 2 then .rest
  else if (r.st == .ramp || r.st == .on) && s.windowOpen r && r.cfg.chatMax < r.chat then .fail failUnstable
  else if r.st = .ramp ∧ r.pg then
    (if r.cfg.rampMin ≠ 0 ∧ r.rise.getD s.now - r.enTs < r.cfg.rampMin * 10000 then .fail failRampEarly else .good)
  else if r.st = .on ∧ !r.pg ∧ !r.down then .fail failPgLost
  else .rest

/-- The rails that p holds of judged together, as in one tick (R262, R266); while the sequencer is held nothing is judged. -/
def State.judgeRails (s : State) (p : Rail → Bool) : State :=
  if s.seqHeld then s
  else
    let rs := s.seq.rails.filter p
    let fails := rs.filterMap (fun r => match s.verdict r with
      | .fail c => some (r.cfg.rail, c)
      | _ => none)
    ((rs.filter (fun r => s.verdict r == .good)).foldl State.railGood s).railFailAll fails

/-! ### The end of operations (R260, R261, R265, R270, R271) -/

/-- A power-down of some rail still runs. -/
def State.downRuns (s : State) : Bool := s.seq.rails.any (fun r => r.down && !r.isOff)

/-- The operation shown once another has ended (R260, R282): a shutdown that still runs, a margin being stepped, or none. Of several
shutdowns a fault shutdown is shown before a power-down, and a Black shutdown last (log entry 20). -/
def State.opLeft (s : State) : Nat :=
  let left := s.seq.rails.filter (fun r => r.down && !r.isOff)
  if left.any (·.fault) then opFault
  else if left.any (fun r => !r.black) then opDown
  else if !left.isEmpty then opBlack
  else if s.seq.mgn.isSome then opMargin else opNone

/-- SEQ_STS.BUSY (R260): from the acceptance of a command, also of one that waits until the sequencer runs again. -/
def State.seqBusy (s : State) : Bool := s.seq.op != opNone || s.downRuns || s.seq.mgn.isSome || !s.seq.waits.isEmpty

/-- The SEQ_RESUME groups that a restart powers up: those with a GFAULT bit or Black latched are left out (R270). -/
def State.resumeGroups (s : State) : Nat :=
  groupMask (fun g => bitOf (s.get SEQ_RESUME.GROUPS) g && !bitOf (s.get SEQ_LATCH.GFAULT) g
    && !(g < 8 && bitOf (s.get SEQ_LATCH.BLACK) g))

/-- The rails of a set of groups that are OFF enter WAIT (R261). -/
def State.railsUp (s : State) (groups op : Nat) : State :=
  let s := s.mapRails (fun r =>
    if bitOf groups r.cfg.group && r.st == .off then { r with st := .wait, dlyDone := false, down := false, black := false, fault := false }
    else r)
  s.modSeq (fun q => { q with op := op, up := groups })

/-- The restart power-up once MIN_OFF has passed and the input is good (R270, R271). `auto` says that AUTO_RESTART and
TFAULT decide. -/
def State.restartUp (s : State) : State :=
  if s.seq.op = opMinOff ∧ s.seq.minOffDone ∧ (s.seq.hdr.inSrc = 0 ∨ s.on SEQ_STS.IN_GOOD) then
    let g := s.resumeGroups
    let s := (s.set SEQ_RESUME.GROUPS 0).modSeq (fun q => { q with minOffDone := false })
    if g = 0 then s.modSeq (fun q => { q with op := s.opLeft }) else s.railsUp g opRestartUp
  else s

/-- A leak response whose shutdown has been sent ends once that has run and its groups are off (R302). -/
def State.leakSettle (s : State) : State :=
  (List.range 16).foldl (fun s k =>
    if (s.cool.leaks.getD k {}).sent && !s.seq.waits.contains (.leak (s.get (COOL_LK_CFG.GROUPS k))) && (bitList 9 (s.get (COOL_LK_CFG.GROUPS k))).all s.groupOff then
      ({ s with cool := { s.cool with leaks := modAt s.cool.leaks k (fun l => { l with sent := false }) } }).set
        (COOL_LK_STS.ACTIVE k) 0
    else s) s

/-- Operations that have reached their end are closed (R260, R261, R265): a power-up with every rail ON logs EVT_SEQ_DONE; a
shutdown with every rail OFF leads to the minimum-off wait or ends, and of several that run alongside OP shows those that are left. -/
def State.seqEnd (s : State) : State :=
  let s := if s.downRuns then s
    else s.modSeq (fun q =>
      { q with ffrOpen := false, rails := q.rails.map (fun r => { r with down := false, black := false, fault := false }) })
  let left := groupMask (fun g => bitOf s.seq.up g && !s.groupOn g)
  let s :=
    if (s.seq.op = opUp ∨ s.seq.op = opRestartUp) ∧ left = 0 then
      let s := s.logIf (s.seq.up != 0) EVT_SEQ_DONE ACC_TRAY UNIT_SEQ 0 [(0, 2, s.seq.up), (2, 1, s.seq.op)]
      s.modSeq (fun q => { q with up := 0, op := s.opLeft })
    else s
  if s.seq.op = opDown ∨ s.seq.op = opFault ∨ s.seq.op = opBlack then s.modSeq (fun q => { q with op := s.opLeft })
  else if s.downRuns then s
  else if s.seq.op = opRestart ∨ s.seq.op = opInLoss then s.modSeq (fun q => { q with op := opMinOff, minOffDone := false })
  else s

/-- What follows when rails or groups may have reached their end. -/
def State.seqFinish (s : State) : State := s.seqEnd.leakSettle

/-! ### Commands (R258, R259) -/

/-- The first refusal code of R259 that applies, or 0. -/
def State.seqRefusal (s : State) (op groups : Nat) : Nat :=
  let names (g : Nat) : Bool := bitOf groups g
  let upWaits := s.seq.waits.any (fun w => match w with
    | .command o _ => o == 1
    | .leak _ => false)
  let downOk := op == 2 && s.seq.mgn.isNone && (upWaits || s.seq.op == opUp || s.seq.op == opRestartUp || s.seq.op == opMinOff)
  if s.seqBusy ∧ !downOk then 0x1
  else if s.get ACD_STS.STATE ≠ 2 then 0x2
  else if op ≠ 3 ∧ (groups = 0 ∨ 2 ^ 9 ≤ groups ∨ (List.range 9).any (fun g => names g && (s.railsOf g).isEmpty)) then 0x3
  else if op = 4 ∧ !s.on KEY_PRES.OPEN ∧ !s.seq.hdr.clrNoPres then 0x4
  else if ((op = 1 ∨ op = 3) ∧ s.on SEQ_LATCH.TFAULT) ∨ (op = 1 ∧ groups &&& s.get SEQ_LATCH.GFAULT ≠ 0) then 0x5
  else if op = 1 ∧ (List.range 8).any (fun a => names a && bitOf (s.get SEQ_LATCH.BLACK) a) then 0x6
  else if op = 1 ∧ (List.range 8).any (fun a => names a && 2 ≤ s.level a) then 0x7
  else if (op = 1 ∧ groups % 256 ≠ 0 ∧ !s.trayOn ∧ !names 8)
      ∨ (op = 2 ∧ names 8 ∧ (List.range 8).any (fun g => !s.groupOff g && !names g)) then 0x8
  else if (op = 1 ∨ op = 3) ∧ s.seq.hdr.inSrc ≠ 0 ∧ !s.on SEQ_STS.IN_GOOD then 0x9
  else if op = 0 ∨ 5 ≤ op then 0xA
  else 0

/-- POWER_DOWN accepted (R258): it aborts a power-up for the named groups only; in a minimum-off wait it removes them from
SEQ_RESUME. -/
def State.doPowerDown (s : State) (groups : Nat) : State :=
  if s.seq.op = opMinOff then
    s.set SEQ_RESUME.GROUPS (groupMask (fun g => bitOf (s.get SEQ_RESUME.GROUPS) g && !bitOf groups g))
  else
    let rails := (s.seq.rails.filter (fun r => bitOf groups r.cfg.group)).map (·.cfg.rail)
    let s := s.rstoPre rails
    let s := s.modSeq (fun q =>
      let up := groupMask (fun g => bitOf q.up g && !bitOf groups g)
      { q with up := up, op := if up = 0 then opDown else q.op })
    s.powerDown (fun r => bitOf groups r.cfg.group) false false

/-- TRAY_RESTART accepted (R271). -/
def State.doTrayRestart (s : State) : State :=
  let s := s.set SEQ_RESUME.GROUPS (groupMask s.groupOn)
  let s := s.rstoPre (s.seq.rails.map (·.cfg.rail))
  (s.modSeq (fun q => { q with op := opRestart, up := 0, resumeLoss := false })).powerDown (fun _ => true) false false

/-- CLEAR accepted (R268): TFAULT, the named GFAULT bits, and the FAILED rails of the named groups. -/
def State.doSeqClear (s : State) (groups : Nat) : State :=
  let s := s.log EVT_SEQ_CLEAR ACC_TRAY UNIT_SEQ 0 [(0, 2, groups), (2, 1, s.get SEQ_LATCH.TFAULT)]
  let s := (s.set SEQ_LATCH.TFAULT 0).set SEQ_LATCH.GFAULT
    (groupMask (fun g => bitOf (s.get SEQ_LATCH.GFAULT) g && !bitOf groups g))
  s.mapRails (fun r => if bitOf groups r.cfg.group && r.st == .failed then { r with st := .off } else r)

/-- An accepted command acts (R258). -/
def State.seqDo (s : State) (op groups : Nat) : State :=
  if op = 1 then (s.railsUp groups opUp).seqFinish
  else if op = 2 then (s.doPowerDown groups).seqFinish
  else if op = 3 then s.doTrayRestart.seqFinish
  else s.doSeqClear groups

/-- The groups of a leak shutdown are powered down as a fault shutdown (R302, R304): GFAULT is set, nothing is captured; the rest of an
operation continues for the other groups, and the groups are left out of a restart. -/
def State.leakDown (s : State) (groups : Nat) : State :=
  let hit : Rail → Bool := fun r => bitOf groups r.cfg.group
  let s := s.set SEQ_LATCH.GFAULT (s.get SEQ_LATCH.GFAULT ||| groups)
  let s := s.rstoAssert ((s.seq.rails.filter hit).map (·.cfg.rail))
  let s := s.modSeq (fun q =>
    { q with up := groupMask (fun g => bitOf q.up g && !bitOf groups g),
             preWait := q.preWait.filter (fun n => !q.rails.any (fun x => x.cfg.rail == n && hit x)),
             op := if (q.op = opNone ∨ q.op = opMargin) ∧ q.rails.any (fun r => hit r && !r.isOff) then opFault else q.op })
  (s.powerDown hit false true).seqFinish

/-- What waited for the sequencer acts. -/
def State.waitDo (s : State) : SeqWait → State
  | .command op groups => s.seqDo op groups
  | .leak groups => s.leakDown groups

/-- What reaches the sequencer acts, or waits while safe mode or a warm reset holds it (R78, R273; DEDUCED, log entry 20). -/
def State.seqTake (s : State) (w : SeqWait) : State :=
  if s.seqHeld then s.modSeq (fun q => { q with waits := q.waits ++ [w] }) else s.waitDo w

/-- What has waited acts in its order. -/
def State.waitsGo (s : State) : State := s.seq.waits.foldl State.waitDo (s.modSeq (fun q => { q with waits := [] }))

/-- A write of SEQ_CMD (R258, R259): the result goes to SEQ_CMD_STS; a refused command changes nothing else. -/
def State.seqCommand (s : State) (op groups : Nat) : State :=
  let r := s.seqRefusal op groups
  let s := s.setAll [(SEQ_CMD_STS.LAST_OP, op), (SEQ_CMD_STS.RESULT, r)]
  if r ≠ 0 then s.log EVT_SEQ_REFUSED ACC_TRAY UNIT_SEQ 0 [(0, 1, 0), (1, 1, op), (2, 1, r), (4, 2, groups)]
  else s.seqTake (.command op groups)

def execPowerUp (ini : Initiator) (groups : Fin 512) (s : State) : Host.Outcome State Fault Refusal :=
  .next (s.command ini SEQ_CMD.OP.addr (fun s => s.seqCommand 1 groups.val))

def execPowerDown (ini : Initiator) (groups : Fin 512) (s : State) : Host.Outcome State Fault Refusal :=
  .next (s.command ini SEQ_CMD.OP.addr (fun s => s.seqCommand 2 groups.val))

def execTrayRestart (ini : Initiator) (groups : Fin 512) (s : State) : Host.Outcome State Fault Refusal :=
  .next (s.command ini SEQ_CMD.OP.addr (fun s => s.seqCommand 3 groups.val))

def execClear (ini : Initiator) (groups : Fin 512) (s : State) : Host.Outcome State Fault Refusal :=
  .next (s.command ini SEQ_CMD.OP.addr (fun s => s.seqCommand 4 groups.val))

/-! ### Ticks and timers (R261 to R265) -/

/-- What one rail does at a tick, judged on the state before the tick: enabled once its delay has passed and it is
discharged, stopped once its successors are off, OFF once discharged (R261, R265). In safe mode only the rails of a Black
shutdown move, one step without discharge waits (R233, R273). A rail that leaves ON drops the clamp writes that wait for it (R276). -/
def State.railTick (t : State) (s : State) (r : Rail) : State :=
  let safe := t.safeMode
  match r.st with
  | .wait => if !safe && r.dlyDone && t.predsOn r.cfg && t.discharged r then s.railEnable r else s
  | .ramp =>
    if r.down && t.succsOff r.cfg.rail && (!safe || r.black) then
      if r.black then (s.railSwitchOff r.cfg).modRail r.cfg.rail (fun x => { x with st := .disch })
      else s.modRail r.cfg.rail (fun x => { x with st := .stop })
    else s
  | .on =>
    if r.down && t.succsOff r.cfg.rail && (!t.seq.preWait.contains r.cfg.rail || r.black) && (!safe || r.black) then
      let s := s.clampDrop r.cfg.rail
      if r.black then (s.railSwitchOff r.cfg).modRail r.cfg.rail (fun x => { x with st := .disch })
      else s.modRail r.cfg.rail (fun x => { x with st := .stop })
    else s
  | .stop =>
    if r.black then (s.railSwitchOff r.cfg).modRail r.cfg.rail (fun x => { x with st := .disch }) else s
  | .disch =>
    if (!safe && t.discharged r && !r.cfg.dischargeByTime) || (safe && r.black) then
      s.modRail r.cfg.rail (fun x => { x with st := .off, down := false })
    else s
  | _ => s

/-- The sequencer is held from now on: open ramp windows stop (R78, R273). -/
def State.seqHold (s : State) : State :=
  (s.mapRails (fun r => { r with winHeld := r.winHeld || s.windowOpen r })).modSeq (fun q =>
    { q with holdTs := some (q.holdTs.getD s.now) })

/-- Safe mode or a warm reset ends. Windows are extended by the time of safe mode and restart after a warm reset (R78, R273); what still
holds the sequencer counts from now. -/
def State.seqUnhold (s : State) (restart : Bool) : State :=
  let t := s.now - s.seq.holdTs.getD s.now
  let s := s.mapRails (fun r =>
    if r.winHeld then { r with winTs := if restart then s.now else r.winTs + t, winHeld := s.seqHeld } else r)
  s.modSeq (fun q => { q with holdTs := if s.seqHeld then some s.now else none })

/-- ON_DLY after the last predecessor ON has passed (R261): the rail is enabled once it is discharged as well. -/
def State.onDelay (s : State) (rn : Nat) : State :=
  match s.rail rn with
  | none => s
  | some r =>
    if r.st = .wait ∧ s.predsOn r.cfg ∧ !s.seqHeld then
      if s.discharged r then s.railEnable { r with dlyDone := true }
      else s.modRail rn (fun x => { x with dlyDone := true })
    else s

def execOnDelayExpiry (rail : Fin 96) (s : State) : Host.Outcome State Fault Refusal := .next (s.onDelay rail.val)

/-- The deglitch time of a DGL code in ns (R255). -/
def dglTime (code : Nat) : Nat := [1000, 2000, 5000, 10000, 20000, 50000, 100000, 200000, 500000].getD code 1000000

/-- What one rail counts of a PWRGD input: its transitions in the ramp window, when the input rose first, and the level once it has held
for the rail's own DGL (R257, R262 to R264). Of the n transitions to a level, a rise is one of them unless the only one is a fall. -/
def State.railPwrgd (s : State) (level : Bool) (x : PgIn) (r : Rail) : Rail :=
  let rose := (if x.transitions = 0 then level else !(x.transitions = 1 ∧ !level))
  { r with chat := if s.windowOpen r && !s.seqHeld then r.chatAdd x.transitions else r.chat,
           rise := if r.st = .ramp ∧ r.rise.isNone ∧ rose then some (max r.enTs (s.now - x.since)) else r.rise,
           pg := if dglTime r.cfg.dgl ≤ x.held then level else r.pg }

/-- A rail judges the PWRGD input. -/
def Rail.judges (r : Rail) (idx : Nat) : Bool := r.cfg.pgSrc == 0 && r.cfg.pg == idx

/-- A deglitched PWRGD level takes effect for every rail that judges the input (R262), and SEQ_PG shows it (log entry 20). An input that no
ball carries has no level (R47): before an Accord is locked, what the baseboard drives is kept for the ball that the Accord may place;
afterwards nothing changes. -/
def State.pwrgdChange (s : State) (idx : Nat) (level : Bool) (x : PgIn) : State :=
  if s.placedIn fnPwrgd idx then
    let s := s.modSeq (fun q => { q with pgLvl := setBitOf q.pgLvl idx level })
    let s := s.mapRails (fun r => if r.judges idx then s.railPwrgd level x r else r)
    ((s.judgeRails (fun r => r.judges idx)).rstoAssert []).seqFinish
  else if s.get ACD_STS.STATE = 2 then s
  else s.modSeq (fun q => { q with pgLvl := setBitOf q.pgLvl idx level })

def execPwrgdChange (idx : Fin 64) (level : Bool) (x : PgIn) (s : State) : Host.Outcome State Fault Refusal :=
  .next (s.pwrgdChange idx.val level x)

/-- Every 100 µs STATUS_WORD is read for the PMBus-judged rails from RAMP onward (R262). -/
def State.statusPoll (s : State) : State :=
  if s.seqHeld then s
  else (s.seq.rails.filter (fun r => r.cfg.pgSrc == 1 && r.st != .off && r.st != .wait)).foldl
    (fun s r => s.queueStatus r.cfg) s

def execStatusPoll (s : State) : Host.Outcome State Fault Refusal := .next s.statusPoll

/-- A STATUS_WORD read ends (R262 to R264, R266): two reads alike in a row count; three failed reads fail the rail, unless it has failed
already. -/
def State.statusEnd (s : State) (rn res : Nat) (rx : List Byte) : State :=
  match s.rail rn with
  | none => s
  | some r =>
    if r.st == .off || r.st == .wait then s
    else if res ≠ resOk then
      if r.st = .failed then s
      else if 2 ≤ r.readFails then ((s.railFail rn failPmb).rstoAssert []).seqFinish
      else s.modRail rn (fun x => { x with readFails := x.readFails + 1 })
    else
      let good := !bitOf (leAt rx 0 2) 11
      let run := if r.pollRun = 0 then 1 else if good == r.pollGood then r.pollRun + 1 else 1
      let change := r.pollRun != 0 && good != r.pollGood
      let s := s.modRail rn (fun x =>
        { x with pollGood := good, pollRun := run, readFails := 0,
                 chat := if change && s.windowOpen r then x.chatAdd 1 else x.chat,
                 rise := if r.st = .ramp ∧ x.rise.isNone ∧ good then some s.now else x.rise,
                 pg := if 2 ≤ run then good else x.pg })
      ((s.judgeRails (fun x => x.cfg.rail == rn)).rstoAssert []).seqFinish

/-- The rail still wants the OPERATION write: on in RAMP and ON, off once it has left them. -/
def Rail.wants (r : Rail) (on : Bool) : Bool := on == (r.st == .ramp || r.st == .on)

/-- An OPERATION write ends (R266, R332): whatever the result, SEG_DOWN among them, it is written again twice, then the rail fails with PMB_ERR.
A rail that has failed already is not failed again. -/
def State.operationEnd (s : State) (rn res : Nat) (on : Bool) : State :=
  match s.rail rn with
  | none => s
  | some r =>
    if !r.wants on then s
    else if res = resOk then s.modRail rn (fun x => { x with writeFails := 0 })
    else if r.writeFails < 2 then
      (s.modRail rn (fun x => { x with writeFails := x.writeFails + 1 })).queueOperation r.cfg on
    else if r.st = .failed then s
    else ((s.railFail rn failPmb).rstoAssert []).seqFinish

/-- The end of a ramp window (R262, R264): a timed rail counts as good; any other that is not ON fails. -/
def State.rampTimeout (s : State) (rn : Nat) : State :=
  match s.rail rn with
  | none => s
  | some r =>
    if r.st = .ramp ∧ !s.seqHeld then
      ((if r.cfg.pgSrc = 2 then s.railGood r else s.railFail rn failRampTimeout).rstoAssert []).seqFinish
    else s

def execRampTimeout (rail : Fin 96) (s : State) : Host.Outcome State Fault Refusal := .next (s.rampTimeout rail.val)

/-- A rail in WAIT is not discharged by DIS_TO after its other conditions are met (R261). -/
def State.precharged (s : State) (rn : Nat) : State :=
  match s.rail rn with
  | none => s
  | some r =>
    if r.st = .wait ∧ r.dlyDone ∧ !s.discharged r ∧ !s.seqHeld then ((s.railFail rn failPrecharged).rstoAssert []).seqFinish else s

def execPrecharged (rail : Fin 96) (s : State) : Host.Outcome State Fault Refusal := .next (s.precharged rail.val)

/-- OFF_DLY in STOP has passed: the rail is switched off into DISCH (R265). -/
def State.offDelay (s : State) (rn : Nat) : State :=
  match s.rail rn with
  | none => s
  | some r =>
    if r.st = .stop ∧ !s.seqHeld then (s.railSwitchOff r.cfg).modRail rn (fun x => { x with st := .disch }) else s

def execOffDelayExpiry (rail : Fin 96) (s : State) : Host.Outcome State Fault Refusal := .next (s.offDelay rail.val)

/-- DIS_TO passes in DISCH (R265, R267): a timed rail without DIS_AIN is discharged; any other logs EVT_SEQ_DISCH, sets
GFAULT and is taken as OFF. -/
def State.disTimeout (s : State) (rn : Nat) : State :=
  match s.rail rn with
  | none => s
  | some r =>
    if r.st = .disch ∧ !s.seqHeld then
      let s := if r.cfg.dischargeByTime then s
        else (s.log EVT_SEQ_DISCH (if r.cfg.group < 8 then r.cfg.group else ACC_TRAY) UNIT_SEQ rn
          [(0, 1, rn), (1, 1, r.cfg.group), (2, 2, s.disCode r.cfg)]).railFail rn failDisTimeout
      (s.modRail rn (fun x => { x with st := .off, down := false })).seqFinish
    else s

def execDisTimeout (rail : Fin 96) (s : State) : Host.Outcome State Fault Refusal := .next (s.disTimeout rail.val)

/-! ### Tray input and minimum off time (R269, R270) -/

/-- The tray input fails (R270, R272). In a fault shutdown with TFAULT set it only clears SEQ_RESUME; a further failure in an input-loss
shutdown changes nothing more. The groups that a tray restart has recorded stay recorded (log entry 20). -/
def State.trayInputFail (s : State) : State :=
  if s.seq.hdr.inSrc = 0 then s
  else
    let s := (s.set SEQ_STS.IN_GOOD 0).set SEQ_STS.IN_LOSS 1
    if s.seq.rails.all Rail.isOff ∨ s.seq.op = opInLoss then s
    else if s.seq.op = opFault ∧ s.on SEQ_LATCH.TFAULT then s.set SEQ_RESUME.GROUPS 0
    else
      let g := groupMask (fun g =>
        s.groupState g == 2 || bitOf s.seq.up g || (s.seq.op == opRestart && bitOf (s.get SEQ_RESUME.GROUPS) g))
      let s := s.set SEQ_RESUME.GROUPS g
      let s := s.log EVT_SEQ_INLOSS ACC_TRAY UNIT_SEQ 0
        [(0, 2, g), (2, 2, if s.seq.hdr.inSrc = 2 then s.get (TAMP_AIN.CODE s.seq.hdr.inIdx) else 0)]
      let s := s.rstoAssert (s.seq.rails.map (·.cfg.rail))
      ((s.modSeq (fun q => { q with op := opInLoss, up := 0, preWait := [], resumeLoss := true })).powerDown
        (fun _ => true) false false).seqFinish

/-- The tray input becomes good: a waiting restart may start (R269, R270). -/
def State.trayInputGood (s : State) : State := if s.seq.hdr.inSrc = 0 then s else (s.set SEQ_STS.IN_GOOD 1).restartUp

/-- The PWRGD input that senses the tray input, deglitched 100 µs (R269). With IN_SRC = 0x2 the AIN samples decide (State.trayAin). -/
def State.trayPin (s : State) : Bool := s.seq.hdr.inSrc == 1 && s.placedIn fnPwrgd s.seq.hdr.inIdx

/-- The tray input changes its state; a held sequencer acts on it once it runs again (R78, R273). -/
def State.trayInput (s : State) (good : Bool) : State :=
  if s.seqHeld then s.modSeq (fun q => { q with inWait := some good })
  else if good then s.trayInputGood else s.trayInputFail

def execTrayInputFail (s : State) : Host.Outcome State Fault Refusal := .next (if s.trayPin then s.trayInput false else s)

def execTrayInputGood (s : State) : Host.Outcome State Fault Refusal := .next (if s.trayPin then s.trayInput true else s)

/-- What the tray input has come to while the sequencer was held acts now. -/
def State.trayCatch (s : State) : State :=
  match s.seq.inWait with
  | none => s
  | some good => (s.modSeq (fun q => { q with inWait := none })).trayInput good

/-- The 1 µs tick (R261): counted power-good takes effect, rails move in parallel, reset outputs follow, finished operations close. A
warm reset pauses it (R273). -/
def State.seqTick (s : State) : State :=
  if s.get PWRST_STATE.CUR = 3 ∨ s.pwr.warmOn then s
  else
    let s := if s.seqHeld then s else s.waitsGo.trayCatch
    let s := s.judgeRails (fun _ => true)
    let s := s.seq.rails.foldl (State.railTick s) s
    (s.rstoAssert []).seqFinish

def execSeqTick (s : State) : Host.Outcome State Fault Refusal := .next s.seqTick

/-- A sample of the AIN channel that senses the tray input (R269): good at or above IN_ON, failed after 10 samples in a row below
IN_OFF. A held sequencer does not judge it (R78, R273). -/
def State.trayAin (s : State) : State :=
  let h := s.seq.hdr
  if h.inSrc = 2 ∧ !s.seqHeld then
    let code := s.get (TAMP_AIN.CODE h.inIdx)
    let s := s.modSeq (fun q => { q with inLow := if code < h.inOff then min 10 (q.inLow + 1) else 0 })
    if s.on SEQ_STS.IN_GOOD then (if 10 ≤ s.seq.inLow then s.trayInputFail else s)
    else if h.inOn ≤ code then s.trayInputGood else s
  else s

/-- MIN_OFF passes (R270, R271). After an input loss without AUTO_RESTART, or with TFAULT set, the sequencer stays off and
clears SEQ_RESUME. -/
def State.minOff (s : State) : State :=
  if s.seq.op ≠ opMinOff ∨ s.seqHeld then s
  else if s.on SEQ_LATCH.TFAULT || (s.seq.resumeLoss && !s.seq.hdr.autoRestart) then
    (s.set SEQ_RESUME.GROUPS 0).modSeq (fun q => { q with op := s.opLeft, minOffDone := false })
  else (s.modSeq (fun q => { q with minOffDone := true })).restartUp

def execMinOffExpiry (s : State) : Host.Outcome State Fault Refusal := .next s.minOff

/-- STRETCH passed with every watched rail ON: the output is released (R274). -/
def State.rstoRelease (s : State) (k : Nat) : State :=
  match s.seq.rstos.find? (fun c => c.rsto == k) with
  | none => s
  | some c =>
    if !s.seqHeld && c.rails.all (fun r => (s.rail r).any (fun x => x.st == .on && !x.down)) then
      s.modSeq (fun q => { q with rsto := setBitOf q.rsto k false })
    else s

def execRstoStretchExpiry (k : Fin 16) (s : State) : Host.Outcome State Fault Refusal := .next (s.rstoRelease k.val)

/-- The longest PRE has passed: the command's first rail may leave ON (R274). -/
def execRstoPreExpiry (s : State) : Host.Outcome State Fault Refusal :=
  .next (if s.seqHeld then s else s.modSeq (fun q => { q with preWait := [] }))

/-! ### Black (R233, R265, R272) -/

/-- A Black request for an accelerator: its group is latched off and powered down without OFF_DLY; the rest of an operation
continues for the other groups. -/
def State.blackRequest (s : State) (a : Nat) : State :=
  let s := s.set SEQ_LATCH.BLACK (setBitOf (s.get SEQ_LATCH.BLACK) a true)
  let rails := (s.railsOf a).map (·.cfg.rail)
  let s := s.rstoAssert rails
  let s := s.modSeq (fun q =>
    { q with up := setBitOf q.up a false,
             op := if (q.op = opNone ∨ q.op = opMargin) ∧ (s.railsOf a).any (fun r => !r.isOff) then opBlack else q.op })
  (s.powerDown (fun r => r.cfg.group == a) true false).seqFinish

/-! ### Test mode and margining (R277 to R279) -/

/-- Test mode ends: the margined rails return to nominal, and Sillage leaves TEST (R277, R421). -/
def State.testEnd (s : State) : State :=
  if s.on SEQ_CTL.TEST then
    (((s.set SEQ_CTL.TEST 0).silMode true false id).marginReturnAll s.seq.rails false).marginStop
  else s

/-- A write of 1 to SEQ_CTL.TEST (R277): outside the presence window it is ignored with its event, also in test mode. -/
def State.testEnter (s : State) : State :=
  if s.on KEY_PRES.OPEN then (if s.on SEQ_CTL.TEST then s else (s.set SEQ_CTL.TEST 1).silMode false true id)
  else s.log EVT_SEQ_REFUSED ACC_TRAY UNIT_SEQ 0 [(0, 1, 1), (2, 1, 0x4)]

def execTestModeEnter (ini : Initiator) (s : State) : Host.Outcome State Fault Refusal :=
  .next (s.command ini SEQ_CTL.TEST.addr State.testEnter)

def execTestModeExit (ini : Initiator) (s : State) : Host.Outcome State Fault Refusal :=
  .next (s.command ini SEQ_CTL.TEST.addr State.testEnd)

/-- The refusal code of a margin request, or 0 (R278). -/
def State.marginRefusal (s : State) (rn steps : Nat) : Nat :=
  if !s.on SEQ_CTL.TEST then 0x1
  else
    match s.rail rn with
    | none => 0x2
    | some r =>
      if r.st ≠ .on then 0x2
      else if r.cfg.mgn = 0 then 0x3
      else if r.cfg.maxSteps < steps then 0x4
      else if (if r.cfg.group < 8 then decide (1 ≤ s.level r.cfg.group) else (List.range 8).any (fun a => 1 ≤ s.level a)) then 0x5
      else if s.seqBusy then 0x6
      else 0

/-- A margin request (R278): STEPS = 0 returns the rail to nominal in one write (R279), once the sequencer runs (R78, R273). -/
def State.marginRequest (s : State) (rn : Nat) (dir : Bool) (steps : Nat) : State :=
  let res := s.marginRefusal rn steps
  let s := s.setAll [(SEQ_MGN_CTL.RAIL, rn), (SEQ_MGN_CTL.DIR, b2n dir), (SEQ_MGN_CTL.STEPS, steps),
    (SEQ_MGN_STS.RAIL, rn), (SEQ_MGN_STS.RESULT, res)]
  if res ≠ 0 then s
  else
    match s.rail rn with
    | none => s
    | some r =>
      let target : Int := if dir then -(steps : Int) else steps
      if steps = 0 ∧ !s.seqHeld then s.marginReturn r false
      else if target = r.msteps then s
      else (s.modSeq (fun q => { q with mgn := some (rn, target), op := opMargin })).set SEQ_MGN_STS.STEPPING 1

/-- A write of SEQ_MGN_CTL: its fields take the written values (R11, R282), and GO submits the request. -/
def State.marginWrite (s : State) (w : Nat) : State :=
  let s := s.setAll [(SEQ_MGN_CTL.RAIL, bitsOf w 0 7), (SEQ_MGN_CTL.DIR, bitsOf w 7 1), (SEQ_MGN_CTL.STEPS, bitsOf w 8 6)]
  if bitOf w 16 then s.marginRequest (bitsOf w 0 7) (bitOf w 7) (bitsOf w 8 6) else s

def execMarginRequest (ini : Initiator) (word : Word) (s : State) : Host.Outcome State Fault Refusal :=
  .next (s.command ini SEQ_MGN_CTL.GO.addr (fun s => s.marginWrite word.toNat))

/-- One margin step (R278): the PMBus offset of step k, or the trim DAC's code. -/
def State.marginStep (s : State) : State :=
  match s.seq.mgn with
  | none => s
  | some (rn, target) =>
    match s.rail rn with
    | none => s
    | some r =>
      if s.seqHeld then s
      else if target = 0 then s.marginReturn r false
      else
        let s := if r.msteps = 0 then s.clampDrop rn else s
        let k : Int := if r.msteps < target then r.msteps + 1 else if target < r.msteps then r.msteps - 1 else r.msteps
        let s := s.modRail rn (fun x => { x with msteps := k })
        let s := if r.cfg.mgn = 2 then
            s.set (SEQ_TRIM.CODE r.cfg.trim) (unsgn 10 (0x200 + k * sgn 5 r.cfg.trimK))
          else
            s.twQueue r.cfg.bus (.seqMargin rn) r.cfg.pmbAddr (railPage r.cfg)
              (vofsBytes r.cfg (r.cfg.vnom * k * r.cfg.mstep) 1000) .none true
        if k = target then s.marginStop else s

def execMarginStep (s : State) : Host.Outcome State Fault Refusal := .next s.marginStep

/-- SEQ_FFR_CLR (R282): the kept captures are erased while the presence window is open. -/
def State.ffrClear (s : State) : State :=
  if s.on KEY_PRES.OPEN then
    (s.modSeq (fun q => { q with caps := [] })).nvmCommit
      { kind := kindCapture, key := 16, len := 64, data := [.blobErase kindCapture] }
  else s.log EVT_SEQ_REFUSED ACC_TRAY UNIT_SEQ 0 [(0, 1, 2), (2, 1, 0x4)]

def execFfrClr (ini : Initiator) (s : State) : Host.Outcome State Fault Refusal :=
  .next (s.command ini SEQ_FFR_CLR.CLR.addr State.ffrClear)

/-- At Accord lock the BOOT_ON groups are powered up under the conditions of R259 except BUSY (R273). -/
def State.bootOn (s : State) : State :=
  let g := s.seq.hdr.bootOn
  if g = 0 then s
  else
    let r := ({ s with seq := { s.seq with op := opNone, waits := [] } }).seqRefusal 1 g
    if r = 0 then s.seqTake (.command 1 g) else s

end Sys2Proof.Machine
end

