-- ==== Sys2Proof/Machine/Signals.lean ====
section
/-! DEFINITION. The signals that comparators, combiners, curves and pump loops read (R223 to R227). -/

namespace Sys2Proof.Machine

/-- The value that marks a signal as stale (R210, R225). -/
def sigStale : Nat := 0x8000

/-- A guard position's value and the Top-die tick of its assembly (R226). -/
def State.guardPos (s : State) (p : Nat) : Nat × Nat := (look p s.tamp.guard).getD (sigStale, 0)

/-- The age limit of TAMP_CTL.STALE_AGE in µs (R251). -/
def staleAge (code : Nat) : Nat := [2, 3, 4, 8, 16].getD code 32

/-- A guard position is stale at a tick (R226). A position that nothing has been delivered to counts as stale. -/
def State.guardStale (s : State) (p tick : Nat) : Bool :=
  let g := s.guardPos p
  g.1 == sigStale || s.on BRG_STS.GUARD_STALE || staleAge (s.get TAMP_CTL.STALE_AGE) < tick - g.2

/-- sat16 of R210. -/
def sat16 (x : Int) : Nat := unsgn 16 (clampI (-32767) 32767 x)

/-- The tick of the sample clock: the timestamp in µs (R24). -/
def State.tick (s : State) : Nat := s.now / 1000

/-- The Top die counts as powered: 1 ms has passed since TOPPWR_GOOD rose with TOPPWR_EN high, after the cold POR or the last fall of
TOPPWR_EN (R244). -/
def State.topCounted (s : State) : Bool :=
  match s.pwr.goodTs with
  | some t => decide (t + 1000000 ≤ s.now)
  | none => false

/-- A temperature as signals and registers show it: TD3 reads 0x8000 while the Top die is unpowered (R225, R244). -/
def State.tempOf (s : State) (k : Nat) : Nat := if k = 4 ∧ !s.topCounted then sigStale else s.get (TAMP_TEMP.TEMP k)

/-- VIN_AO as the monitor's latest sample shows it (R114, R120). -/
def State.vinSample (s : State) (mv : Nat) : State := s.set PWRST_VIN.VIN_MV mv

/-- A signal's value and whether it is stale (R223, R225, R226, R227). A signal index that is not used is stale. -/
def State.signal (s : State) (i : Nat) : Nat × Bool :=
  if i < 0x40 then (s.get (TAMP_AIN.SIG i), false)
  else if i ≤ 0x44 then
    let v := s.tempOf (i - 0x40)
    (v, v == sigStale)
  else if 0x80 ≤ i ∧ i ≤ 0x15F then ((s.guardPos (i - 0x80)).1, s.guardStale (i - 0x80) s.tick)
  else if 0x180 ≤ i ∧ i ≤ 0x19F then
    let v := s.get (TAMP_COMB_CFG.OUT (i - 0x180))
    (v, v == sigStale)
  else (sigStale, true)

end Sys2Proof.Machine
end

