-- ==== Sys2Proof/Machine/Cooling.lean ====
section
/-! DEFINITION. The cooling controller (R283 to R312): duties, zones and curves, the fan and pump machines, flow, the two
watchdogs, leak sensing and response, valves, consumables. -/

namespace Sys2Proof.Machine

/-- A state with the cooling record changed. -/
def State.modCool (s : State) (f : CoolSt → CoolSt) : State := { s with cool := f s.cool }

/-- A channel: 0 to 23 the fans, 24 to 29 the pumps. -/
def State.ch (s : State) (i : Nat) : CoolCh := s.cool.ch.getD i {}

/-- A state with one channel changed. -/
def State.modCh (s : State) (i : Nat) (f : CoolCh → CoolCh) : State := s.modCool (fun c => { c with ch := modAt c.ch i f })

/-- A pump's flow loop. -/
def State.pump (s : State) (p : Nat) : PumpSt := s.cool.pumps.getD p {}

/-- A state with one pump's flow loop changed. -/
def State.modPump (s : State) (p : Nat) (f : PumpSt → PumpSt) : State :=
  s.modCool (fun c => { c with pumps := modAt c.pumps p f })

/-! ### A channel's register fields -/

def isPump (i : Nat) : Bool := 24 ≤ i

/-- The instance number of a channel among the fans or the pumps. -/
def chInst (i : Nat) : Nat := if isPump i then i - 24 else i

def chEn (i : Nat) : Fld := if isPump i then COOL_PMP_CFG.EN (i - 24) else COOL_FAN_CFG.EN i
def chRpmMax (i : Nat) : Fld := if isPump i then COOL_PMP_SET.RPM_MAX (i - 24) else COOL_FAN_CFG.RPM_MAX i
def chMode (i : Nat) : Fld := if isPump i then COOL_PMP_STS.MODE (i - 24) else COOL_FAN_STS.MODE i
def chStall (i : Nat) : Fld := if isPump i then COOL_PMP_STS.STALL (i - 24) else COOL_FAN_STS.STALL i
def chTachLost (i : Nat) : Fld := if isPump i then COOL_PMP_STS.TACH_LOST (i - 24) else COOL_FAN_STS.TACH_LOST i
def chCause (i : Nat) : Fld := if isPump i then COOL_PMP_STS.CAUSE (i - 24) else COOL_FAN_STS.CAUSE i
def chAttempt (i : Nat) : Fld := if isPump i then COOL_PMP_STS.ATTEMPT (i - 24) else COOL_FAN_STS.ATTEMPT i
def chRpm (i : Nat) : Fld := if isPump i then COOL_PMP_MEAS.RPM (i - 24) else COOL_FAN_SPEED.RPM i
def chOut (i : Nat) : Fld := if isPump i then COOL_PMP_MEAS.OUT (i - 24) else COOL_FAN_DUTY.OUT i

/-- Modes of a channel, coded as COOL_FANn_STS.MODE (R312). -/
def modeOff : Nat := 0
def modeKick : Nat := 1
def modeRest : Nat := 2
def modeLoop : Nat := 3
def modeBlind : Nat := 4
def modeStall : Nat := 5

/-- Causes of a tach loss, coded as COOL_FANn_STS.CAUSE. -/
def causeUnknown : Nat := 1
def causeWire : Nat := 2
def causeStall : Nat := 3

/-- Pulses per revolution of a channel; 0 for a pump without a tach. -/
def State.chPpr (s : State) (i : Nat) : Nat :=
  if isPump i then [0, 1, 2, 4].getD (s.get (COOL_PMP_CFG.PPR (i - 24))) 0 else s.get (COOL_FAN_CFG.PPR i) + 1

/-- A pump without a tach (R293). -/
def State.tachless (s : State) (i : Nat) : Bool := s.chPpr i == 0

/-- A channel's event: kind 0 for a fan, 1 for a pump. -/
def State.chLog (s : State) (code i : Nat) (p : List (Nat × Nat × Nat)) : State :=
  s.log code ACC_TRAY UNIT_COOL (chInst i) ((0, 1, b2n (isPump i)) :: p)

/-! ### Duties (R284, R285) -/

/-- The pre-boost held for a channel: the highest port value of kind 3 or 4 that targets it (R248, R284). -/
def State.preBoost (s : State) (i : Nat) : Nat :=
  (List.range 64).foldl (fun m p =>
    let c := s.cport p
    if c.kind = (if isPump i then 4 else 3) ∧ c.target = chInst i then max m (s.get (TAMP_PROP.SENT p)) else m) 0

/-- Rule 1 of R284. DEDUCED: it is not judged in A3, where the AO generator takes the outputs over (R283, R107) and rule 2 replaces
rule 1 (R285); log entry 23. -/
def State.coolForced (s : State) : Bool :=
  s.get PWRST_STATE.CUR != 3
    && (s.safeMode || s.on COOL_STS.F_START || s.on COOL_CWDT_STS.TRIP || s.on COOL_HWDT_STS.EXPIRED)

/-- The leak responses that hold a pump: their LEAK_DUTY values (R302). -/
def State.leakDuties (s : State) (p : Nat) : List Nat :=
  (List.range 16).filterMap (fun k =>
    if s.on (COOL_LK_STS.LEAK k) && bitOf (s.get (COOL_LK_RESP.PUMPS k)) p then some (s.get (COOL_LK_RESP.LEAK_DUTY k)) else none)

/-- A pump is held under rule 3. -/
def State.leakHold (s : State) (p : Nat) : Bool := !(s.leakDuties p).isEmpty

/-- A slot's consumable is refused and linked to a channel (R293, R308). -/
def State.refused (s : State) (i : Nat) : Bool :=
  (List.range 32).any (fun c => s.on (COOL_CONS_STS.REFUSED c)
    && if isPump i then s.get (COOL_CONS_CFG.CLASS c) == 2 && bitOf (s.get (COOL_CONS_LINK.PUMPS c)) (i - 24)
       else s.get (COOL_CONS_CFG.CLASS c) == 1 && bitOf (s.get (COOL_CONS_LINK.FANS c)) i)

/-- A channel is in STALL, or in BLIND with cause UNKNOWN, or its consumable is refused (R293). -/
def State.chBad (s : State) (i : Nat) : Bool :=
  s.get (chMode i) == modeStall || (s.get (chMode i) == modeBlind && s.get (chCause i) == causeUnknown) || s.refused i

/-- A pump counts as failed (R293, R297). -/
def State.pumpFailed (s : State) (p : Nat) : Bool := s.on (COOL_PMP_CFG.EN p) && (s.chBad (24 + p) || (s.pump p).flowFail)

/-- Some failed pump names this one as PARTNER (R293). -/
def State.partnerFailed (s : State) (p : Nat) : Bool :=
  (List.range 6).any (fun q => s.pumpFailed q && s.get (COOL_PMP_CFG.PARTNER q) == p)

/-- The A3 duty of a channel (R107, R312): code ÷ 31. -/
def State.a3Duty (s : State) (i : Nat) : Nat :=
  (if isPump i then s.get COOL_A3_DUTY.PUMP else s.get COOL_A3_DUTY.FAN) * 1000 / 31

/-- The rule of R284 that decides a channel's duty, and that duty. Where several active responses hold a pump, the highest
LEAK_DUTY counts (log entry 22). -/
def State.dutyRule (s : State) (i : Nat) : Nat × Nat :=
  if s.coolForced then (1, 1000)
  else if s.get PWRST_STATE.CUR = 3 then (2, s.a3Duty i)
  else if isPump i && s.leakHold (i - 24) then (3, min 1000 ((s.leakDuties (i - 24)).foldl max 0 * 5))
  else if s.get (chMode i) = modeKick ∨ s.get (chMode i) = modeBlind ∨ s.get (chMode i) = modeStall
      ∨ (isPump i ∧ s.on (chEn i) ∧ s.partnerFailed (i - 24)) then (4, 1000)
  else if s.get (chMode i) = modeRest then (5, 0)
  else (6, min 1000 (max (if s.get (chMode i) = modeLoop then (s.ch i).loop else 0) (s.preBoost i * 5)))

/-- The largest fall of a fan per 10 ms (R285, R288): SLEW, 0 taken as 1. A pump has no SLEW, and its falls are not limited
(log entry 22). -/
def State.slew (s : State) (i : Nat) : Nat := if isPump i then 1000 else max 1 (s.get (COOL_FAN_LOOP.SLEW i))

/-- A channel's duty at a period boundary (R284, R285). The fall from rule 1 to rule 2 happens at A3 entry (State.coolA3). -/
def State.dutyOne (s : State) (i : Nat) : State :=
  let d := s.dutyRule i
  let o := s.get (chOut i)
  if o ≤ d.2 ∨ d.1 = 5 then s.set (chOut i) d.2
  else
    let n := max d.2 (o - (s.ch i).budget)
    (s.set (chOut i) n).modCh i (fun c => { c with budget := c.budget - (o - n) })

def execPwmPeriod (s : State) : Host.Outcome State Fault Refusal :=
  .next ((List.range 30).foldl State.dutyOne s)

/-! ### Zones, curves, skip bands (R286 to R288) -/

/-- x / y rounded up, for y > 0. -/
def ceilDiv (x y : Int) : Int := -((-x).fdiv y)

/-- A curve through points, the signal above the first point's X (R287). -/
def curveAt (sig : Int) : List (Int × Nat) → Nat
  | [] => 0
  | [p] => p.2
  | p :: q :: t =>
    if sig < q.1 then (p.2 + ceilDiv ((sig - p.1) * ((q.2 : Int) - p.2)) (q.1 - p.1)).toNat else curveAt sig (q :: t)

/-- The points of a zone's curve. -/
def State.curvePts (s : State) (z : Nat) : List (Int × Nat) :=
  (List.range (s.get (COOL_ZONE_CFG.NPTS z) + 1)).map (fun i => (sgn 16 (s.get (COOL_CURVE_PT.X z i)), s.get (COOL_CURVE_PT.LEVEL z i)))

/-- A zone's curve evaluated (R287). -/
def State.curveEval (s : State) (z : Nat) : State :=
  let g := s.signal (s.get (COOL_ZONE_CFG.SRC z))
  let pts := s.curvePts z
  let stale := g.2 || g.1 == sigStale
  let lvl :=
    if stale then (pts.map (·.2)).foldl max 0
    else if sgn 16 g.1 < (pts.headD (0, 0)).1 then (pts.headD (0, 0)).2
    else curveAt (sgn 16 g.1) pts
  (s.set (COOL_ZONE_STS.CURVE z) lvl).setB (COOL_ZONE_STS.STALE z) stale

def execCurveEval (s : State) : Host.Outcome State Fault Refusal :=
  .next (if s.on COOL_STS.RUNNING && s.get PWRST_STATE.CUR != 3 then (List.range 8).foldl State.curveEval s else s)

/-- A zone is boosted (R293). -/
def State.zoneBoost (s : State) (z : Nat) : Bool :=
  (List.range 24).any (fun n => s.on (COOL_FAN_CFG.EN n) && s.get (COOL_FAN_CFG.ZONE n) == z && s.chBad n)

/-- A zone's effective level (R286). -/
def State.zoneLevel (s : State) (z : Nat) : Nat :=
  let base := if s.on (COOL_ZONE_TGT.VALID z) then s.get (COOL_ZONE_TGT.LEVEL z) else s.get (COOL_ZONE_STS.CURVE z)
  min 100 (max (max base (s.get (COOL_ZONE_FLOOR.FLOOR z)))
    (max (s.get ACD_CEIL_MISC.FAN_MIN) (if s.zoneBoost z then s.get (COOL_ZONE_CFG.BOOST z) else 0)))

/-- A zone's level and boost shown (R293, R312). -/
def State.zoneUpdate (s : State) (z : Nat) : State :=
  (s.set (COOL_ZONE_STS.EFF z) (s.zoneLevel z)).setB (COOL_ZONE_STS.BOOSTED z) (s.zoneBoost z)

/-- A skip band applies to a zone and is used. -/
def State.bandOf (s : State) (b z : Nat) : Bool :=
  bitOf (s.get (COOL_SKIP_ZN.ZONES b)) z && !(s.get (COOL_SKIP_RNG.LO b) == 0 && s.get (COOL_SKIP_RNG.HI b) == 0)

/-- A speed lies inside a band. -/
def State.inBand (s : State) (b t : Nat) : Bool := s.get (COOL_SKIP_RNG.LO b) < t && t < s.get (COOL_SKIP_RNG.HI b)

/-- A target moved out of the bands of its zone, ascending, once each (R288). -/
def State.skip (s : State) (z t : Nat) : Nat :=
  (List.range 16).foldl (fun t b => if s.bandOf b z && s.inBand b t then s.get (COOL_SKIP_RNG.HI b) else t) t

/-- A fan's target speed (R286, R288). -/
def State.fanTarget (s : State) (n : Nat) : Nat :=
  let z := s.get (COOL_FAN_CFG.ZONE n)
  s.skip z (s.zoneLevel z * s.get (COOL_FAN_CFG.RPM_MAX n) / 100)

/-- A fan's slew, four times as fast while its speed crosses a band that its target lies outside (R288). -/
def State.fanSlew (s : State) (n : Nat) : Nat :=
  let z := s.get (COOL_FAN_CFG.ZONE n)
  let rpm := s.get (COOL_FAN_SPEED.RPM n)
  let tgt := s.get (COOL_FAN_SPEED.TGT n)
  if (List.range 16).any (fun b => s.bandOf b z && s.inBand b rpm && !s.inBand b tgt) then 4 * s.slew n else s.slew n

/-! ### Tach (R289) -/

/-- Speed in rpm from n intervals of a total length in ns. -/
def rpmOf (ppr n total : Nat) : Nat := if ppr * total = 0 then 0 else min 0xFFFF (60000000000 * n / (ppr * total))

/-- What the tach input of a channel saw in the last 10 ms: falling edges, the time since the last edge, the speed. -/
def State.tachIn (s : State) (i : Nat) (x : TachIn) : State :=
  let ppr := s.chPpr i
  let c := s.ch i
  let limit := clampN 50000000 1000000000 (4 * (if x.edges.isEmpty then c.lastInt else x.edges.getLastD 0))
  let good : Nat → Bool := fun t => t != 0 && s.get (chRpmMax i) * ppr * t ≤ 600000000000
  let since := if x.edges.isEmpty then c.since + 10000000 else x.age
  let s := s.modCh i (fun c =>
    { c with since := since, lastInt := if x.edges.isEmpty then c.lastInt else x.edges.getLastD 0,
             okRun := x.edges.foldl (fun k t => if good t then k + 1 else 0) c.okRun,
             steady := if since ≤ limit && x.edges.all (fun t => t ≤ limit) then c.steady + 1 else 0 })
  match x.edges with
  | [] => s.set (chRpm i) (rpmOf ppr 1 c.lastInt)
  | [t] => s.set (chRpm i) (rpmOf ppr 1 t)
  | _ :: t => s.set (chRpm i) (rpmOf ppr t.length t.sum)

/-- The tach timeout of a channel in ns. -/
def CoolCh.tachTo (c : CoolCh) : Nat := clampN 50000000 1000000000 (4 * c.lastInt)

/-- A ball carries the channel's tach; an input that no ball carries is not seen (R47). -/
def State.tachPlaced (s : State) (i : Nat) : Bool := s.placedIn (if isPump i then fnPmpTach else fnFanTach) (chInst i)

/-- Edges have come without a gap above the timeout for 2 s (log entry 23). -/
def CoolCh.edgesSteady (c : CoolCh) : Bool := 200 ≤ c.steady

/-! ### The channel machine (R290, R291) -/

/-- start(f, n) of R291. -/
def State.chStart (s : State) (i n : Nat) : State :=
  (s.setAll [(chMode i, modeKick), (chAttempt i, n)]).modCh i (fun c => { c with t := 0, okRun := 0 })

/-- The bounds of a pump's loop duty (R296). -/
def State.pumpBounds (s : State) (p : Nat) : Nat × Nat :=
  let metered := s.get (COOL_PMP_CFG.FLW p) < 6
  let dmin := s.get (COOL_PMP_LOOP.DMIN p) * 5
  let dmax := s.get (COOL_PMP_LOOP.DMAX p) * 5
  let lo := max dmin (max (s.get (COOL_PMP_FLOOR.FLOOR p) * 5) (if metered then (s.pump p).fl else 0))
  (lo, max (if metered then (s.pump p).ce else dmax) lo)

/-- The error of a pump's loop (R296): signal − TSET. -/
def State.pumpErr (s : State) (p : Nat) : Int :=
  sgn 16 (s.signal (s.get (COOL_PMP_CFG.SIG p))).1 - sgn 16 (s.get (COOL_PMP_SET.TSET p))

/-- A fan's error in rpm (R290). -/
def State.fanErr (s : State) (n : Nat) : Int := (s.get (COOL_FAN_SPEED.TGT n) : Int) - s.get (COOL_FAN_SPEED.RPM n)

/-- Entry to LOOP (R290, R296): a fan's loop starts at 1,000 and its last error is the present one; a pump's starts at hi. -/
def State.chLoop (s : State) (i : Nat) : State :=
  (s.setAll [(chMode i, modeLoop), (chAttempt i, 0)]).modCh i (fun c =>
    { c with loop := if isPump i then (s.pumpBounds (i - 24)).2 else 1000,
             ePrev := if isPump i then c.ePrev else s.fanErr i })

/-- A channel goes to OFF. -/
def State.chOff (s : State) (i : Nat) : State := (s.set (chMode i) modeOff).modCh i (fun c => { c with loop := 0 })

/-- What a channel asks for: a fan's target speed, a pump's loop duty. -/
def State.demand (s : State) (i : Nat) : Nat := if isPump i then (s.ch i).loop else s.get (COOL_FAN_SPEED.TGT i)

/-- One PI step of a fan (R290). -/
def State.piStep (s : State) (n : Nat) : State :=
  let e := s.fanErr n
  let c := s.ch n
  let sl : Int := s.fanSlew n
  let d := clampI (-sl) sl (((s.get (COOL_FAN_LOOP.KP n) : Int) * (e - c.ePrev) + s.get (COOL_FAN_LOOP.KI n) * e).tdiv 256)
  let lo : Int := s.get (COOL_FAN_LOOP.DUTY_MIN n) * 5
  s.modCh n (fun c => { c with loop := (clampI (min lo 1000) 1000 (c.loop + d)).toNat, ePrev := e })

/-- The supply-current sense of a channel says that it runs (R291). -/
def State.senseRuns (s : State) (n : Nat) : Bool :=
  let code := s.get (TAMP_AIN.CODE (s.get (COOL_FAN_SENSE.AIN n)))
  !(s.ch n).senseOut && s.get (COOL_FAN_SENSE.I_LO n) ≤ code && code ≤ s.get (COOL_FAN_SENSE.I_HI n)

/-- lost(f) of R291: a pump has no sense. -/
def State.tachLost (s : State) (i : Nat) : State :=
  let sense := !isPump i && s.on (COOL_FAN_SENSE.EN i)
  let cause := if !sense then causeUnknown else if s.senseRuns i then causeWire else causeStall
  let s := s.set (chCause i) cause
  let s := if cause = causeStall then s.chStart i 1
    else (s.setAll [(chTachLost i, 1), (chMode i, modeBlind)]).modCh i (fun c => { c with steady := 0 })
  s.chLog EVT_FAN_TACH_LOST i [(1, 1, cause), (2, 2, if sense then s.get (TAMP_AIN.CODE (s.get (COOL_FAN_SENSE.AIN i))) else 0)]

/-- The machine of one channel at a 10 ms update (R291, R293). A pump under rule 3 suspends its detection (R294). -/
def State.chMachine (s : State) (i : Nat) : State :=
  let m := s.get (chMode i)
  let s := s.modCh i (fun c => { c with t := c.t + 1 })
  let c := s.ch i
  if isPump i && s.leakHold (i - 24) then s
  else if m = modeOff then
    if 0 < s.demand i ∨ 0 < s.preBoost i then (if s.tachless i then s.chLoop i else s.chStart i 1) else s
  else if m = modeKick then
    if s.tachless i ∨ 2 ≤ c.okRun then s.chLoop i
    else if 200 ≤ c.t then
      let s := s.chLog EVT_FAN_KICK i [(1, 1, s.get (chAttempt i))]
      if s.get (chAttempt i) = 3 then
        (((s.setAll [(chMode i, modeStall), (chStall i, 1)]).modCh i (fun c => { c with steady := 0 })).chLog EVT_FAN_STALL i [])
      else s.set (chMode i) modeRest
    else s
  else if m = modeRest then if 500 ≤ c.t then s.chStart i (s.get (chAttempt i) + 1) else s
  else if m = modeLoop then
    if !s.tachless i ∧ c.tachTo < c.since then s.tachLost i
    else if isPump i then s
    else if s.get (COOL_FAN_SPEED.TGT i) = 0 ∧ s.preBoost i = 0 then s.chOff i
    else s.piStep i
  else if m = modeBlind then
    if c.edgesSteady then (s.chLoop i).chLog EVT_FAN_TACH_BACK i [] else s
  else if isPump i then s
  else s.setB (COOL_FAN_STS.SPIN_BACK i) c.edgesSteady

/-- The 10 ms update of one channel. -/
def State.chUpdate (xs : List TachIn) (s : State) (i : Nat) : State :=
  let s := s.tachIn i (if s.tachPlaced i then xs.getD i { edges := [], age := 0 } else { edges := [], age := 0 })
  let s := if isPump i then s else s.set (COOL_FAN_SPEED.TGT i) (s.fanTarget i)
  let s := if s.on (chEn i) then s.chMachine i else s
  s.modCh i (fun c => { c with budget := if isPump i then 1000 else s.fanSlew i, senseOut := false })

/-- A trip of the cooling watchdog ends after 10 updates in a row (R299). -/
def State.cwdtUpdate (s : State) : State :=
  if s.on COOL_CWDT_STS.TRIP then
    let s := s.modCool (fun c => { c with cwdtRun := c.cwdtRun + 1 })
    if 10 ≤ s.cool.cwdtRun then s.set COOL_CWDT_STS.TRIP 0 else s
  else s

/-- The controller's timers and detection run: started, not in A3, not in safe mode (R294). -/
def State.coolRuns (s : State) : Bool := s.on COOL_STS.RUNNING && s.get PWRST_STATE.CUR != 3 && !s.safeMode

/-- Every fall's allowance begins anew with each 10 ms, the machines paused or not (R285). -/
def State.slewRefill (s : State) : State :=
  (List.range 30).foldl (fun s i => s.modCh i (fun c => { c with budget := s.slew i })) s

/-- The 10 ms update. In A3 detection stops (R294) and only the allowance for falls goes on. -/
def State.fanUpdate (s : State) (xs : List TachIn) : State :=
  if s.get PWRST_STATE.CUR = 3 then s.slewRefill
  else
    let s := s.cwdtUpdate
    if s.coolRuns then (List.range 30).foldl (State.chUpdate xs) ((List.range 8).foldl State.zoneUpdate s)
    else s.slewRefill

def execFanUpdate (tach : List TachIn) (s : State) : Host.Outcome State Fault Refusal := .next (s.fanUpdate tach)

/-- Supply-current samples outside their window are noted (R291). -/
def State.senseSample (s : State) : State :=
  (List.range 24).foldl (fun s n =>
    let code := s.get (TAMP_AIN.CODE (s.get (COOL_FAN_SENSE.AIN n)))
    if s.on (COOL_FAN_SENSE.EN n) && (code < s.get (COOL_FAN_SENSE.I_LO n) || s.get (COOL_FAN_SENSE.I_HI n) < code) then
      s.modCh n (fun c => { c with senseOut := true })
    else s) s

/-! ### Flow and pumps (R295 to R297) -/

/-- A flow meter's pulses of the last 100 ms: the intervals in ns (R295). -/
def State.flowIn (s : State) (f : Nat) (ints : List Nat) : State :=
  let k := s.get (COOL_FLW_CFG.K f)
  let s := s.modCool (fun c => { c with flows := modAt c.flows f (fun x => { x with quiet := if ints.isEmpty then x.quiet + 1 else 0 }) })
  if k = 0 then s
  else if ints.isEmpty then
    if 20 ≤ (s.cool.flows.getD f {}).quiet then s.setAll [(COOL_FLW_RATE.FLOW f, 0), (COOL_FLW_RATE.NOSIG f, 1)] else s
  else
    let total := ints.sum
    s.setAll [(COOL_FLW_RATE.FLOW f, if total = 0 then 0xFFFF else min 0xFFFF (6000000000000 * ints.length / (k * total))),
      (COOL_FLW_RATE.NOSIG f, 0)]

/-- FLOW_TO in 100 ms updates; none for never (R312). -/
def flowTo (code : Nat) : Option Nat := [some 10, some 20, some 50, some 100, some 200, some 300, some 600, none].getD code none

/-- The flow terms of a pump (R296). -/
def State.flowTerms (s : State) (p : Nat) : State :=
  let f := s.get (COOL_PMP_CFG.FLW p)
  if 6 ≤ f then s
  else
    let flow := s.get (COOL_FLW_RATE.FLOW f)
    let fmin := s.get (COOL_PMP_FLOW.FLOW_MIN p)
    let fmax := s.get (COOL_PMP_FLOW.FLOW_MAX p)
    let dmin := s.get (COOL_PMP_LOOP.DMIN p) * 5
    let dmax := s.get (COOL_PMP_LOOP.DMAX p) * 5
    s.modPump p (fun x =>
      { x with fl := if flow < fmin then min (x.fl + 20) dmax else max (x.fl - 5) dmin,
               ce := if fmax ≠ 0 ∧ fmax < flow then max (x.ce - 20) dmin else min (x.ce + 5) dmax })

/-- One step of a pump's loop (R296). -/
def State.pumpLoop (s : State) (p : Nat) : State :=
  let s := s.flowTerms p
  let i := 24 + p
  let g := s.signal (s.get (COOL_PMP_CFG.SIG p))
  let stale := g.2 || g.1 == sigStale
  let b := s.pumpBounds p
  let e := s.pumpErr p
  let c := s.ch i
  let d := ((s.get (COOL_PMP_LOOP.KP p) : Int) * (e - c.ePrev) + s.get (COOL_PMP_LOOP.KI p) * e).tdiv 4096
  let v := if stale then b.2 else (clampI b.1 b.2 (c.loop + d)).toNat
  let s := (s.setB (COOL_PMP_STS.STALE p) stale).modCh i (fun c => { c with loop := v, ePrev := if stale then c.ePrev else e })
  if s.get (chMode i) = modeLoop ∧ v = 0 ∧ s.preBoost i = 0 then s.chOff i else s

/-- Low flow judged (R297). -/
def State.flowLow (s : State) (p : Nat) : State :=
  let f := s.get (COOL_PMP_CFG.FLW p)
  match flowTo (s.get (COOL_PMP_CFG.FLOW_TO p)) with
  | none => s
  | some n =>
    if 6 ≤ f then s
    else
      let flow := s.get (COOL_FLW_RATE.FLOW f)
      let short := flow < s.get (COOL_PMP_FLOW.FLOW_MIN p)
      let atMax := s.get (COOL_PMP_LOOP.DMAX p) * 5 ≤ s.get (COOL_PMP_MEAS.OUT p)
      let s := s.modPump p (fun x =>
        { x with low := if short && atMax then x.low + 1 else 0, good := if short then 0 else x.good + 1 })
      let x := s.pump p
      if n ≤ x.low ∧ !x.flowFail then
        ((s.modPump p (fun x => { x with flowFail := true })).set (COOL_PMP_STS.FLOW_LOW p) 1).log EVT_PMP_FLOW_LOW ACC_TRAY
          UNIT_COOL p [(0, 2, flow), (2, 2, s.get (COOL_PMP_MEAS.OUT p))]
      else if n ≤ x.good then s.modPump p (fun x => { x with flowFail := false })
      else s

/-- The 100 ms update of one pump: its loop runs in every mode (R296), and the duty it gives is used in LOOP (R284). -/
def State.pumpUpdate (s : State) (p : Nat) : State :=
  if s.on (COOL_PMP_CFG.EN p) then
    let s := s.pumpLoop p
    if s.leakHold p then s else s.flowLow p
  else s

def execPumpUpdate (flows : List (List Nat)) (s : State) : Host.Outcome State Fault Refusal :=
  .next (if s.coolRuns then
    (List.range 6).foldl State.pumpUpdate ((List.range 6).foldl (fun s f => s.flowIn f (if s.placedIn fnFlw f then flows.getD f [] else [])) s) else s)

/-! ### START, restart, clearing a stall (R292, R294) -/

/-- The channels that START sets going begin at KICK, attempt 1; a pump without a tach goes to LOOP; STALL stays. -/
def State.coolRestart (s : State) : State :=
  (List.range 30).foldl (fun s i =>
    if s.on (chEn i) && s.get (chMode i) != modeStall then (if s.tachless i then s.chLoop i else s.chStart i 1) else s) s

/-! ### Consumables (R305 to R308) -/

/-- A slot. -/
def State.slot (s : State) (c : Nat) : ConsSt := s.cool.cons.getD c {}

/-- A state with one slot changed. -/
def State.modSlot (s : State) (c : Nat) (f : ConsSt → ConsSt) : State :=
  s.modCool (fun x => { x with cons := modAt x.cons c f })

/-- The slot is used. -/
def State.slotUsed (s : State) (c : Nat) : Bool := s.get (COOL_CONS_CFG.CLASS c) != 0

/-- A tag transaction queued on the slot's segment (R276, R305): every one carries a PEC. -/
def State.tagQueue (s : State) (c k : Nat) (tx : List Byte) (rx : RxForm) : State :=
  s.twQueue (s.get (COOL_CONS_CFG.BUS c)) (.tag c k) (s.get (COOL_CONS_CFG.ADDR c)) none tx rx true

/-- What a tag transaction is for: the poll of the address, the nonce, a part of the response, the remaining life. -/
def tagPoll : Nat := 0
def tagNonce : Nat := 1
def tagRead : Nat := 2
def tagLife : Nat := 3

/-- The poll of a slot's tag address: a read of the remaining life (log entry 24). -/
def State.slotPoll (s : State) (c : Nat) : State :=
  if s.slotUsed c && !(s.slot c).checking then s.tagQueue c tagPoll [0x53] (.block 4) else s

def execConsPoll (s : State) : Host.Outcome State Fault Refusal :=
  .next (if s.coolRuns then (List.range 32).foldl State.slotPoll s else s)

/-- A check begins: a fresh nonce is written to the tag (R305, R307). -/
def State.slotCheck (s : State) (c : Nat) : State :=
  let n := Config.free s.fresh
  let s := (s.draw.modSlot c (fun x => { x with checking := true, again := false, ts := s.now, nonce := n, got := [] })).set
    (COOL_CONS_STS.STATE c) 1
  s.tagQueue c tagNonce (0x50 :: 32 :: leBytes 32 n) .none

/-- Every fitted slot is checked again each 24 h (R307). -/
def execConsDailyCheck (s : State) : Host.Outcome State Fault Refusal :=
  .next (if s.coolRuns then
    (List.range 32).foldl (fun s c => if s.slotUsed c && (s.slot c).present && !(s.slot c).checking then s.slotCheck c else s) s
  else s)

/-- REFUSED follows a slot's policy (R308). -/
def State.slotRefuse (s : State) (c state : Nat) : State :=
  s.setAll [(COOL_CONS_STS.STATE c, state), (COOL_CONS_STS.REFUSED c, s.get (COOL_CONS_CFG.REFUSE c))]

/-- A tag fails its check (R308). -/
def State.slotUnauth (s : State) (c reason : Nat) : State :=
  let got := (s.slot c).got
  ((s.modSlot c (fun x => { x with checking := false })).slotRefuse c 3).log EVT_CONS_AUTH ACC_TRAY UNIT_COOL c
    [(0, 1, leAt got 0 1), (1, 1, reason), (4, 16, leAt got 4 16)]

/-- LOW is set and logged when the life reaches WARN (R307). -/
def State.slotLow (s : State) (c : Nat) : State :=
  let life := s.get (COOL_CONS_LIFE.HOURS c)
  let low := life ≤ s.get (COOL_CONS_CFG.WARN c)
  let was := s.on (COOL_CONS_STS.LOW c)
  (s.setB (COOL_CONS_STS.LOW c) low).logIf (low && !was) EVT_CONS_LIFE ACC_TRAY UNIT_COOL c
    [(0, 1, s.get (COOL_CONS_CFG.CLASS c)), (4, 16, leAt (s.slot c).serial 0 16), (20, 4, life)]

/-- A life of 0 means that the consumable has expired (R307, R308). -/
def State.slotLife (s : State) (c : Nat) : State :=
  if s.get (COOL_CONS_LIFE.HOURS c) = 0 then
    (s.slotRefuse c 4).log EVT_CONS_EXPIRED ACC_TRAY UNIT_COOL c
      [(0, 1, s.get (COOL_CONS_CFG.CLASS c)), (4, 16, leAt (s.slot c).serial 0 16)]
  else s.setAll [(COOL_CONS_STS.STATE c, 2), (COOL_CONS_STS.REFUSED c, 0)]

/-- The journal entry of a consumable's life, under its serial (R307). -/
def lifeJob (serial : List Byte) (hours : Nat) (fld : Fld) : NvmJob :=
  { kind := kindLife, key := leNat serial, len := 24,
    data := [.blob kindLife (leNat serial) (leBytes 4 hours), .regs [(fld.key, hours)]] }

/-- The dual-signature rule: both signatures must verify (R306, R369). -/
def dualVerify (ed ml msg edSig mlSig : List Byte) : Bool := Config.ed25519 ed msg edSig && Config.mldsa65 ml msg mlSig

/-- The reason for which a response fails, or 0 (R306, R307). -/
def State.tagReason (s : State) (c : Nat) : Nat :=
  let r := (s.slot c).got
  let cert := slice r 0 2008
  let resp := leBytes 32 (s.slot c).nonce ++ slice r 0 24 ++ slice r 5381 4
  if !s.cool.vendors.any (fun v => dualVerify v.1 v.2 cert (slice r 2008 64) (slice r 2072 3309)) then 1
  else if !dualVerify (slice r 24 32) (slice r 56 1952) resp (slice r 5385 64) (slice r 5449 3309) then 2
  else if leAt r 0 1 ≠ s.get (COOL_CONS_CFG.CLASS c) then 3
  else
    match s.nvmBlob kindLife (leAt r 4 16) with
    | some bs => if leNat bs < leAt r 5381 4 then 4 else 0
    | none => 0

/-- The response is complete: the check is decided (R307, R308). -/
def State.tagJudge (s : State) (c : Nat) : State :=
  let r := s.tagReason c
  if r ≠ 0 then s.slotUnauth c r
  else
    let got := (s.slot c).got
    let life := min 0xFFFFFF (leAt got 5381 4)
    let s := (s.modSlot c (fun x => { x with checking := false, serial := slice got 4 16 })).set (COOL_CONS_LIFE.HOURS c) life
    let s := if (s.nvmBlob kindLife (leAt got 4 16)).isSome then s
             else s.nvmCommit (lifeJob (slice got 4 16) life (COOL_CONS_LIFE.HOURS c))
    (s.slotLow c).slotLife c

/-- A slot whose tag no longer answers is not fitted (R307). -/
def State.slotGone (s : State) (c : Nat) : State :=
  (s.modSlot c (fun _ => {})).setAll [(COOL_CONS_STS.STATE c, 0), (COOL_CONS_STS.REFUSED c, 0), (COOL_CONS_STS.LOW c, 0)]

/-- The tag ACKed its address: the transaction ended there or later for another reason than the line. -/
def tagAcked (r : Nat) : Bool := [resOk, resDataNack, resPec, resBlockLen].contains r

/-- A tag transaction ends with a result (R305, R307). A tag has 500 ms to answer. SEG_DOWN ends a check without a result: the slot's
STATE stays as it is and the next poll that is ACKed starts the check again (R332). -/
def State.tagEnd (s : State) (c k r : Nat) (rx : List Byte) : State :=
  let late := 500000000 < s.now - (s.slot c).ts
  if r = resSegDown then
    if k ≠ tagLife ∧ (s.slot c).checking then s.modSlot c (fun x => { x with checking := false, again := true }) else s
  else if k = tagPoll then
    if r = resAddrNack then if (s.slot c).checking then s else s.slotGone c
    else if tagAcked r ∧ !(s.slot c).checking ∧ (!(s.slot c).present || (s.slot c).again) then
      (s.modSlot c (fun x => { x with present := true })).slotCheck c
    else s
  else if k = tagNonce then
    if !(s.slot c).checking then s
    else if r = resOk then s.tagQueue c tagRead [0x52] (.block 255) else s.slotUnauth c 5
  else if k = tagRead then
    if !(s.slot c).checking then s
    else if r = resOk then
      let s := s.modSlot c (fun x => { x with got := x.got ++ rx })
      if 8758 ≤ (s.slot c).got.length then s.tagJudge c else s.tagQueue c tagRead [0x52] (.block 255)
    else if (r = resAddrNack ∨ r = resDataNack) ∧ !late then s.tagQueue c tagRead [0x52] (.block 255)
    else s.slotUnauth c 5
  else s

/-- Some channel linked to a slot has an output above 0 (R307): of a filter cartridge, a linked pump. -/
def State.slotRuns (s : State) (c : Nat) : Bool :=
  (List.range 6).any (fun p => bitOf (s.get (COOL_CONS_LINK.PUMPS c)) p && s.get (COOL_PMP_MEAS.OUT p) != 0)
    || (s.get (COOL_CONS_CFG.CLASS c) != 3
        && (List.range 24).any (fun n => bitOf (s.get (COOL_CONS_LINK.FANS c)) n && s.get (COOL_FAN_DUTY.OUT n) != 0))

/-- An hour of use (R307): the life falls by 1, goes to the tag and to NVM, and may reach WARN or 0. -/
def State.lifeHour (s : State) (c : Nat) : State :=
  let life := s.get (COOL_CONS_LIFE.HOURS c)
  if s.slotUsed c && (s.slot c).present && !(s.slot c).serial.isEmpty && s.slotRuns c && life != 0 then
    let s := s.set (COOL_CONS_LIFE.HOURS c) (life - 1)
    let s := s.tagQueue c tagLife (0x53 :: 4 :: leBytes 4 (life - 1)) .none
    let s := (s.nvmCommit (lifeJob (s.slot c).serial (life - 1) (COOL_CONS_LIFE.HOURS c))).slotLow c
    if life = 1 then s.slotLife c else s
  else s

def execConsLifeHour (c : Fin 32) (s : State) : Host.Outcome State Fault Refusal := .next (s.lifeHour c.val)

/-- COOL_CTL.START (R284, R294, R307): honoured from the Keepers only. -/
def State.coolStart (s : State) : State :=
  if s.on COOL_STS.F_START then
    let s := (s.setAll [(COOL_STS.RUNNING, 1), (COOL_STS.F_START, 0)]).coolRestart
    let s := s.modCool (fun x => { x with cons := x.cons.map (fun c => { c with again := true }) })
    (List.range 32).foldl State.slotPoll s
  else s

/-- The access comes from a Keeper core. -/
def fromKeeper : Initiator → Bool
  | .keeper _ => true
  | _ => false

def execCoolStart (ini : Initiator) (s : State) : Host.Outcome State Fault Refusal :=
  .next (s.command ini COOL_CTL.START.addr (fun s => if fromKeeper ini then s.coolStart else s))

/-- A write of COOL_FANn_STS or COOL_PMPp_STS (R292, R293, R297): the W1C bits; a cleared STALL starts the channel. -/
def State.stallClear (s : State) (i w : Nat) : State :=
  let s := s.setIf (bitOf w 4) (chTachLost i) 0
  let s := s.setIf (isPump i && bitOf w 10) (COOL_PMP_STS.FLOW_LOW (i - 24)) 0
  if bitOf w 3 && s.on (chStall i) then
    let s := (s.set (chStall i) 0).setIf (!isPump i) (COOL_FAN_STS.SPIN_BACK i) 0
    (s.chStart i 1).chLog EVT_FAN_CLEAR i []
  else s

def execStallClear (ini : Initiator) (ch : Fin 30) (word : Word) (s : State) : Host.Outcome State Fault Refusal :=
  .next (s.command ini (chStall ch.val).addr (fun s => s.stallClear ch.val word.toNat))

/-! ### Watchdogs (R298, R299) -/

/-- The host watchdog counts in A0 and A1 (R298). -/
def State.hwdtCounts (s : State) : Bool := s.get PWRST_STATE.CUR == 0 || s.get PWRST_STATE.CUR == 1

/-- A kick (R298): the session engine's message crosses the Bridge. -/
def State.hwdtKick (s : State) (session : Nat) : State :=
  if s.bridgeUp && s.hwdtCounts then
    let was := s.on COOL_HWDT_STS.EXPIRED
    let s := (s.setAll [(COOL_HWDT_STS.EXPIRED, 0), (COOL_HWDT_STS.ARMED, 1)]).modCool (fun c => { c with kickTs := s.now })
    s.logIf was EVT_HWDT_RESUME ACC_TRAY UNIT_COOL 0 [(0, 1, session)]
  else s

def execHostWdtKick (session : Fin 16) (s : State) : Host.Outcome State Fault Refusal := .next (s.hwdtKick session.val)

/-- The period passes without a kick (R298). -/
def State.hwdtExpiry (s : State) : State :=
  if s.on COOL_HWDT_STS.ARMED && s.hwdtCounts then
    let s := (s.setAll [(COOL_HWDT_STS.ARMED, 0), (COOL_HWDT_STS.EXPIRED, 1), (COOL_HWDT_STS.EXP_SEEN, 1)]).bump COOL_HWDT_STS.EXP_CNT
    s.log EVT_HWDT_EXPIRE ACC_TRAY UNIT_COOL 0
      [(0, 1, s.get COOL_HWDT_STS.EXP_CNT), (1, 1, s.get COOL_HWDT_CFG.PERIOD)]
  else s

def execHostWdtExpiry (s : State) : Host.Outcome State Fault Refusal := .next s.hwdtExpiry

/-- An entry to A0 arms the watchdog with ARM = 1; an entry to A2 disarms it (R298). -/
def State.hwdtEnterA0 (s : State) : State :=
  if s.on COOL_HWDT_CFG.ARM && !s.on COOL_HWDT_STS.ARMED then
    (s.set COOL_HWDT_STS.ARMED 1).modCool (fun c => { c with kickTs := s.now })
  else s

/-- REMAIN: the time left in ms (R312). -/
def State.hwdtRemain (s : State) : Nat :=
  if s.on COOL_HWDT_STS.ARMED then s.get COOL_HWDT_CFG.PERIOD * 250 - (s.now - s.cool.kickTs) / 1000000 else 0

/-- 40 ms pass without an update (R299). A trip that goes on counts its ten updates anew. -/
def State.cwdtTrip (s : State) : State :=
  let was := s.on COOL_CWDT_STS.TRIP
  let s := s.modCool (fun c => { c with cwdtRun := 0 })
  if was || s.get PWRST_STATE.CUR == 3 then s
  else
    let s := (s.setAll [(COOL_CWDT_STS.TRIP, 1), (COOL_CWDT_STS.TRIP_SEEN, 1)]).bump COOL_CWDT_STS.CNT
    s.log EVT_CWDT ACC_TRAY UNIT_COOL 0 [(0, 1, s.get COOL_CWDT_STS.CNT)]

def execCoolingWdtTrip (s : State) : Host.Outcome State Fault Refusal := .next s.cwdtTrip

/-! ### Leaks and valves (R300 to R304) -/

/-- A leak channel beyond its registers. -/
def State.leak (s : State) (k : Nat) : LeakSt := s.cool.leaks.getD k {}

/-- A state with one leak channel changed. -/
def State.modLeak (s : State) (k : Nat) (f : LeakSt → LeakSt) : State :=
  s.modCool (fun c => { c with leaks := modAt c.leaks k f })

/-- The valves that leak latches hold closed, and those driven closed (R303, R304, R312). -/
def State.valvesHeld (s : State) : Nat :=
  (List.range 16).foldl (fun m k => if s.on (COOL_LK_STS.LEAK k) then m ||| s.get (COOL_LK_RESP.VALVES k) else m) 0

/-- The valve drives follow the commands and the latches; a valve that no ball carries, or any before the Accord is applied, is not
driven (R47, R304). -/
def State.valves (s : State) : State :=
  let h := s.valvesHeld
  s.setAll [(COOL_VLV.LEAK_HELD, h),
    (COOL_VLV.CLOSED, if s.get ACD_STS.STATE = 2 then
      (s.get COOL_VLV.CMD_CLOSE ||| h) &&& maskOf 8 (s.placedIn fnVlv) else 0)]

/-- LEAK_HOLD of every pump (R312). -/
def State.pumpHolds (s : State) : State := (List.range 6).foldl (fun s p => s.setB (COOL_PMP_STS.LEAK_HOLD p) (s.leakHold p)) s

/-- A declared leak: steps 1 to 3 of R302; the shutdown delay of step 4 begins. -/
def State.leakDeclare (s : State) (k imp : Nat) : State :=
  let s := (s.setAll [(COOL_LK_STS.LEAK k, 1), (COOL_LK_STS.ACTIVE k, 1)]).log EVT_LEAK ACC_TRAY UNIT_COOL k
    [(0, 4, imp), (4, 1, s.get (COOL_LK_RESP.VALVES k)), (5, 1, s.get (COOL_LK_RESP.PUMPS k)),
     (6, 2, s.get (COOL_LK_CFG.GROUPS k))]
  (s.valves.pumpHolds).modLeak k (fun l => { l with delay := true, sent := false })

/-- A measurement judged (R300, R301). -/
def State.leakMeasure (s : State) (k imp : Nat) : State :=
  let kind := s.get (COOL_LK_CFG.KIND k)
  if kind = 0 then s
  else
    let v := if 10000000 < imp then 0xFFFFFF else imp
    let n := s.get (COOL_LK_CFG.PERSIST k) + 1
    let low := v < s.get (COOL_LK_THR.LEAK k) * 100
    let opn := s.get (COOL_LK_THR.OPEN k)
    let isOpen := kind == 2 && opn != 0 && opn * 100 < v
    let s := (s.set (COOL_LK_STS.IMP k) v).modLeak k (fun l =>
      { l with below := if low then l.below + 1 else 0, above := if low then 0 else l.above + 1,
               openRun := if isOpen then l.openRun + 1 else 0 })
    let s := if n ≤ (s.leak k).openRun ∧ !s.on (COOL_LK_STS.OPEN k) then
        (s.set (COOL_LK_STS.OPEN k) 1).log EVT_LEAK_OPEN ACC_TRAY UNIT_COOL k [(0, 4, v)]
      else s
    if n ≤ (s.leak k).below ∧ !s.on (COOL_LK_STS.LEAK k) then s.leakDeclare k v else s

/-- SHDN_DLY has passed (R302): step 4, and step 5 when nothing is left to power down. -/
def State.leakShut (s : State) (k : Nat) : State :=
  if (s.leak k).delay then
    (s.modLeak k (fun l => { l with delay := false, sent := true })).seqTake (.leak (s.get (COOL_LK_CFG.GROUPS k)))
  else s

def execLeakShutdown (k : Fin 16) (s : State) : Host.Outcome State Fault Refusal := .next (s.leakShut k.val)

/-- A clear request (R303). -/
def State.leakClear (s : State) (k : Nat) : State :=
  let n := s.get (COOL_LK_CFG.PERSIST k) + 1
  let out := if !s.on KEY_PRES.OPEN then 1 else if s.on (COOL_LK_STS.ACTIVE k) then 2 else if (s.leak k).above < n then 3 else 0
  let s := if out = 0 then ((s.set (COOL_LK_STS.LEAK k) 0).valves).pumpHolds else s
  s.log EVT_LEAK_CLEAR ACC_TRAY UNIT_COOL k [(0, 1, out), (4, 4, s.get (COOL_LK_STS.IMP k))]

/-- A write of COOL_LKk_STS: W1C OPEN, W1S CLR. -/
def State.leakStsWrite (s : State) (k w : Nat) : State :=
  let s := s.setIf (bitOf w 2) (COOL_LK_STS.OPEN k) 0
  if bitOf w 3 then s.leakClear k else s

def execLeakClr (ini : Initiator) (k : Fin 16) (word : Word) (s : State) : Host.Outcome State Fault Refusal :=
  .next (s.command ini (COOL_LK_STS.CLR k.val).addr (fun s => s.leakStsWrite k.val word.toNat))

/-- A write of COOL_VLV (R304): a valve that a LEAK latch names cannot be commanded open. -/
def State.valveCommand (s : State) (w : Nat) : State :=
  (s.set COOL_VLV.CMD_CLOSE (bitsOf w 0 8 ||| (s.get COOL_VLV.CMD_CLOSE &&& s.valvesHeld))).valves

def execValveCommand (ini : Initiator) (word : Word) (s : State) : Host.Outcome State Fault Refusal :=
  .next (s.command ini COOL_VLV.CMD_CLOSE.addr (fun s => s.valveCommand word.toNat))

/-! ### Resets and configuration -/

/-- What a warm reset or an A3 exit leaves of the controller (R94, R107, R294): modes and latches stay, loops begin anew,
rule 1 is in force until START. -/
def State.coolStop (s : State) : State :=
  s.setAll [(COOL_STS.RUNNING, 0), (COOL_STS.F_START, 1)]

/-- Checks in progress end without a result with the transactions that a warm reset cuts (R333); START checks every slot anew (R307). -/
def State.consStop (s : State) : State :=
  s.modCool (fun x => { x with cons := x.cons.map (fun c => { c with checking := false, got := [] }) })

/-- The fans' loop duties, COOL_FANn_DUTY.LOOP of class V, are lost (R110, R312). -/
def State.fanLoopsLose (s : State) : State :=
  s.modCool (fun x => { x with ch := x.ch.mapIdx (fun i c => if i < 24 then { c with loop := 0 } else c) })

/-- The outputs at A3 entry (R107, R285): a channel that rule 1 drove falls to the A3 duty at once; another slews to it. -/
def State.coolA3 (s : State) (forced : Bool) : State :=
  if forced then (List.range 30).foldl (fun s i => s.set (chOut i) (s.a3Duty i)) s else s

/-- After a live activation a channel whose EN is 0 goes to OFF (R309). -/
def State.coolConfig (s : State) : State :=
  ((List.range 30).foldl (fun s i => if s.on (chEn i) then s else s.chOff i) s).valves.pumpHolds

end Sys2Proof.Machine
end

