-- ==== Sys2Proof/Machine/Fec.lean ====
section
/-! DEFINITION. The codewords of a trace link (R192): RS(436,416) over GF(2^10) with up to ten corrected symbols, and the
self-synchronising descrambler. A codeword is a number whose bit k is the k-th bit received. Which symbol is which coefficient the rule
takes from Clause 91: the first symbol stands at the highest power, each symbol lowest bit first (PRESUMED, log entry 51). -/

namespace Sys2Proof.Machine

/-! ### GF(2^10) with x^10 + x^3 + 1 -/

/-- A product. -/
def gfMul (a b : Nat) : Nat :=
  (List.range 10).foldl (fun p i =>
    let d := 2 * p
    let d := if d < 1024 then d else d ^^^ 0x409
    if bitOf b (9 - i) then d ^^^ a else d) 0

/-- An inverse: the power 1,022, the product of the powers 2 to 512. -/
def gfInv (a : Nat) : Nat :=
  ((List.range 9).foldl (fun (x : Nat × Nat) _ => let q := gfMul x.2 x.2; (gfMul x.1 q, q)) (1, a)).1

/-- The powers of α from α^0 on. -/
def gfPowers : Nat → Nat → List Nat
  | 0, _ => []
  | k + 1, x => x :: gfPowers k (gfMul 2 x)

/-- A polynomial, lowest coefficient first, at a point. -/
def gfEval (p : List Nat) (x : Nat) : Nat := p.foldr (fun c a => c ^^^ gfMul a x) 0

/-- Two polynomials added, the second scaled and shifted. -/
def gfAddShift (a b : List Nat) (c sh : Nat) : List Nat :=
  (List.range (max a.length (b.length + sh))).map (fun i =>
    a.getD i 0 ^^^ (if sh ≤ i then gfMul c (b.getD (i - sh) 0) else 0))

/-! ### Remainder and syndromes -/

/-- α^b times the lower coefficients of g(x) = Π (x − α^i), i from 0 to 19, ten bits each, for b from 0 to 9. -/
def rsRows : List Nat := [
  0xf1feb500b40554894b0571ca09e6d8dc1ec3e5a8e44178464f,
  0xe1fdfa01680aa902b603e39403edb9ba7d87cb50cac2e0ac97,
  0xc1fb7426d0151295680fc56807db7276fb9f92a997c5c1592e,
  0x81f67849a92a252ad01e88d09fb2ededb7bf055b2dcb82b25c,
  0x01ec70b752540ad5843c13e12f45d3d96ffe2eb65b970560b1,
  0x0398716aada815ab08782782deafa6b0df7c7d65b72e0ac162,
  0x0730e2d153526b4634f04f05ad7f4563fee8deca6c5c95a6c4,
  0x0e2155a2a6a4961c69e09e0b4ade83c7bd519d9dd8b92b4981,
  0x1c023b41454b6c28f7c03e56859d0f8d7a333b3ab372d6b702,
  0x380466a68a9698d1cf897cad0b3a1e18f4f6727d64e53d6a0d]

/-- The lower coefficients of g(x) scaled by f. -/
def rsScale (f : Nat) : Nat := rsRows.zipIdx.foldl (fun r x => if bitOf f x.2 then r ^^^ x.1 else r) 0

/-- One symbol divided into the remainder, highest power first. -/
def rsStep (reg sym : Nat) : Nat := ((reg * 1024 + sym) % 2 ^ 200) ^^^ rsScale (reg / 2 ^ 190)

/-- The remainder of the first k symbols of a received word modulo g. -/
def rsRem (raw : Nat) : Nat → Nat
  | 0 => 0
  | k + 1 => rsStep (rsRem raw k) (bitsOf raw (10 * k) 10)

/-- The twenty syndromes, from the remainder. -/
def rsSyndromes (rem : Nat) : List Nat :=
  let p := (List.range 20).map (fun i => bitsOf rem (10 * i) 10)
  (gfPowers 20 1).map (gfEval p)

/-! ### Error locations and values -/

/-- The search for the error locator: the locator, the one before the last change of length, the length, the steps since, and the
discrepancy then. -/
structure RsSearch where
  loc : List Nat
  old : List Nat
  len : Nat
  gap : Nat
  disc : Nat
deriving DecidableEq, Repr

/-- One step of the search: the syndrome of step n joins. -/
def RsSearch.step (syn : List Nat) (x : RsSearch) (n : Nat) : RsSearch :=
  let d := (List.range (x.len + 1)).foldl (fun a i => a ^^^ gfMul (x.loc.getD i 0) (if i ≤ n then syn.getD (n - i) 0 else 0)) 0
  if d = 0 then { x with gap := x.gap + 1 }
  else
    let loc := gfAddShift x.loc x.old (gfMul d (gfInv x.disc)) x.gap
    if 2 * x.len ≤ n then { loc := loc, old := x.loc, len := n + 1 - x.len, gap := 1, disc := d }
    else { x with loc := loc, gap := x.gap + 1 }

/-- The error locator of a list of syndromes. -/
def rsLocate (syn : List Nat) : RsSearch :=
  (List.range 20).foldl (RsSearch.step syn) { loc := [1], old := [1], len := 0, gap := 1, disc := 1 }

/-- The errors of a received word as (power of x, value): where the locator vanishes at the inverse point, its value there. -/
def rsErrors (syn : List Nat) (x : RsSearch) : List (Nat × Nat) :=
  let om := (List.range 20).map (fun i => (List.range (i + 1)).foldl (fun a j => a ^^^ gfMul (x.loc.getD j 0) (syn.getD (i - j) 0)) 0)
  let der := (List.range (x.loc.length - 1)).map (fun i => if i % 2 = 0 then x.loc.getD (i + 1) 0 else 0)
  ((gfPowers 436 1).zipIdx).filterMap (fun p =>
    let inv := gfInv p.1
    if gfEval x.loc inv = 0 then some (p.2, gfMul p.1 (gfMul (gfEval om inv) (gfInv (gfEval der inv)))) else none)

/-- The codeword within ten symbols of a received word, and whether symbols were corrected; none when there is none. -/
def rsDecode (raw : Nat) : Option (Nat × Bool) :=
  let rem := rsRem raw 436
  if rem = 0 then some (raw, false)
  else
    let syn := rsSyndromes rem
    let x := rsLocate syn
    if 10 < x.len then none
    else
      let es := rsErrors syn x
      let fixed := es.foldl (fun r e => r ^^^ (e.2 * 2 ^ (10 * (435 - e.1)))) raw
      if es.length = x.len ∧ rsRem fixed 436 = 0 then some (fixed, true) else none

/-! ### Descrambling -/

/-- Bits 16 to 4,159 of a payload descrambled by x^58 + x^39 + 1: each bit with the ones 39 and 58 places before it on the line. Of the 58
bits before the payload the latest stands highest. -/
def descramble (before payload : Nat) : Nat :=
  let line := payload / 2 ^ 16 * 2 ^ 58 + before
  payload % 2 ^ 16 + ((line / 2 ^ 58) ^^^ (line / 2 ^ 19) ^^^ line) % 2 ^ 4144 * 2 ^ 16

/-- The last 58 bits of a payload on the line. -/
def lineTail (payload : Nat) : Nat := bitsOf payload 4102 58

end Sys2Proof.Machine
end

