-- ==== Sys2Proof/Machine/Float.lean ====
section
/-! DEFINITION. Exact binary arithmetic on dyadic numbers and its rounding to FP32, binary64, BF16 and FP8 (R127 to R133,
R206, R207). Subnormals are kept; nothing is flushed. -/

namespace Sys2Proof.Machine

def Dy.zero : Dy := { neg := false, m := 0, e := 0 }

/-- An integer as a dyadic number. -/
def Dy.ofInt (x : Int) : Dy := { neg := x < 0, m := x.natAbs, e := 0 }

/-- The integer m × 2^(e − e0), signed, for e0 ≤ e. -/
def Dy.at (x : Dy) (e0 : Int) : Int :=
  let k := x.m * 2 ^ (x.e - e0).toNat
  if x.neg then -(k : Int) else k

/-- The exact sum; an exact zero is −0 only when both terms are −0. -/
def Dy.add (x y : Dy) : Dy :=
  let e0 := min x.e y.e
  let t := x.at e0 + y.at e0
  if t = 0 then { neg := x.neg && y.neg && x.m == 0 && y.m == 0, m := 0, e := e0 } else { neg := t < 0, m := t.natAbs, e := e0 }

def Dy.negate (x : Dy) : Dy := { x with neg := !x.neg }

/-- The exact product. -/
def Dy.mul (x y : Dy) : Dy := { neg := x.neg != y.neg, m := x.m * y.m, e := x.e + y.e }

/-- The number times 2^k, exactly. -/
def Dy.scale (x : Dy) (k : Int) : Dy := { x with e := x.e + k }

/-- x < y. -/
def Dy.lt (x y : Dy) : Bool :=
  let e0 := min x.e y.e
  x.at e0 < y.at e0

/-- A quotient to 80 more bits than its operands, with the last bit set when a remainder is left: enough for one
rounding to at most 53 bits to be the rounding of the exact quotient. -/
def Dy.quot (x y : Dy) : Dy :=
  let k := 80 + Nat.log2 y.m
  let q := x.m * 2 ^ k / y.m
  let r := x.m * 2 ^ k % y.m
  { neg := x.neg != y.neg, m := 2 * q + (if r = 0 then 0 else 1), e := x.e - y.e - k - 1 }

/-- m × 2^e rounded to a multiple of 2^t: to nearest with ties to even, or toward zero. -/
def roundAt (near : Bool) (m : Nat) (e t : Int) : Nat :=
  if t ≤ e then m * 2 ^ (e - t).toNat
  else
    let sh := (t - e).toNat
    let q := m / 2 ^ sh
    let r := m % 2 ^ sh
    if near && (2 ^ sh < 2 * r || (2 * r == 2 ^ sh && q % 2 == 1)) then q + 1 else q

/-- A number rounded to p significant bits, no bit below 2^emin: mantissa and the exponent of its last bit. -/
def roundTo (p : Nat) (emin : Int) (near : Bool) (x : Dy) : Nat × Int :=
  if x.m = 0 then (0, emin)
  else
    let t := max (x.e + (Nat.log2 x.m + 1 : Nat) - p) emin
    (roundAt near x.m x.e t, t)

/-- A binary format: significand bits with the hidden one, exponent bits, exponent of the smallest subnormal, the pattern
of its largest finite magnitude. -/
structure Fmt where
  p : Nat
  ew : Nat
  emin : Int
  top : Nat
deriving DecidableEq, Repr

def fp32 : Fmt := { p := 24, ew := 8, emin := -149, top := 0x7F7FFFFF }
def bf16 : Fmt := { p := 8, ew := 8, emin := -133, top := 0x7F7F }
def e4m3 : Fmt := { p := 4, ew := 4, emin := -9, top := 0x7E }
def e5m2 : Fmt := { p := 3, ew := 5, emin := -16, top := 0x7B }

/-- A number packed into a format: the bits, and whether it saturated at the largest finite magnitude (R129, R130). -/
def Fmt.pack (f : Fmt) (near : Bool) (x : Dy) : Nat × Bool :=
  let r := roundTo f.p f.emin near x
  let hid := 2 ^ (f.p - 1)
  let mag : Nat :=
    if r.1 < hid then r.1
    else
      let m := if r.1 = 2 * hid then hid else r.1
      let t := if r.1 = 2 * hid then r.2 + 1 else r.2
      (t - f.emin + 1).toNat * hid + (m - hid)
  let s := if x.neg then 2 ^ (f.ew + f.p - 1) else 0
  if f.top < mag then (s + f.top, true) else (s + mag, false)

/-- The finite number of a pattern, whose exponent field is taken as it stands. -/
def Fmt.unpack (f : Fmt) (x : Nat) : Dy :=
  let hid := 2 ^ (f.p - 1)
  let ex := bitsOf x (f.p - 1) f.ew
  let fr := x % hid
  { neg := bitOf x (f.ew + f.p - 1), m := if ex = 0 then fr else hid + fr, e := if ex = 0 then f.emin else f.emin + ex - 1 }

/-- The NaN that a lane holds (R129). -/
def nan32 : Nat := 0x7FC00000

/-- The number of an FP32 pattern; none for NaN and for infinity, which counts as NaN (R129). -/
def dec32 (x : Nat) : Option Dy := if bitsOf x 23 8 = 0xFF then none else some (fp32.unpack (x % 2 ^ 32))

/-- The number of a BF16 pattern. -/
def decBf16 (x : Nat) : Option Dy := if bitsOf x 7 8 = 0xFF then none else some (bf16.unpack (x % 2 ^ 16))

/-- The number of an E4M3 pattern: all exponent and fraction bits set is NaN. -/
def decE4m3 (x : Nat) : Option Dy := if x % 128 = 0x7F then none else some (e4m3.unpack (x % 256))

/-- The number of an E5M2 pattern: an infinity counts as NaN (R129). -/
def decE5m2 (x : Nat) : Option Dy := if bitsOf x 2 5 = 0x1F then none else some (e5m2.unpack (x % 256))

/-- RNE32 (R127): FP32 bits and whether the result saturated. -/
def rne32 (x : Dy) : Nat × Bool := fp32.pack true x

/-- RNE32 without its flag. -/
def rnd32 (x : Dy) : Nat := (rne32 x).1

/-- RNE to binary64, as a number. -/
def rne64 (x : Dy) : Dy :=
  let r := roundTo 53 (-1074) true x
  { neg := x.neg, m := r.1, e := r.2 }

/-- round(x) to an integer by mode (R130). -/
def roundInt (near : Bool) (x : Dy) : Int :=
  let q := roundAt near x.m x.e 0
  if x.neg then -(q : Int) else q

/-- ⌊x⌋ of a number that is not negative. -/
def floorNat (x : Dy) : Nat := roundAt false x.m x.e 0

/-- a < b on FP32 patterns; false when either is NaN. -/
def lt32 (a b : Nat) : Bool :=
  match dec32 a, dec32 b with
  | some x, some y => x.lt y
  | _, _ => false

end Sys2Proof.Machine
end

