-- ==== Sys2Proof/Machine/Telemetry.lean ====
section
/-! DEFINITION. Trace links, the Sensor Map, reduction, guard values and the flight recorder (R191 to R221). -/

namespace Sys2Proof.Machine

/-- A BULK message is handed to the Bridge. In QUIESCE the request is refused (R33), and what it carried is lost (log entry 47). -/
def State.bulkSend (s : State) (m : BulkMsg) : State :=
  if s.get BRG_STS.STATE = 3 then s else { s with brg := { s.brg with bulkQ := s.brg.bulkQ ++ [m] } }

/-- A Top-die unit logs an event (R419): it is stamped with the Top-die timestamp and queued on BULK. -/
def State.logTop (s : State) (code acc unit inst : Nat) (p : List (Nat × Nat × Nat) := []) : State :=
  let ev : Event := { s.eventOf code acc unit inst p with ts := s.topNow }
  s.bulkSend (.event ev)

def State.modTel (s : State) (f : TelSt → TelSt) : State := { s with tel := f s.tel }

/-- A trace link beyond its registers. -/
def State.link (s : State) (n : Nat) : TlSt := s.tel.links.getD n {}

/-- A state with one link changed. -/
def State.modLink (s : State) (n : Nat) (f : TlSt → TlSt) : State := s.modTel (fun t => { t with links := modAt t.links n f })

/-! ### Link states, coded as TLn_STS.STATE (R197, R220) -/

def tlOff : Nat := 0
def tlDetect : Nat := 1
def tlAdapt : Nat := 2
def tlTxeq : Nat := 3
def tlAlign : Nat := 4
def tlQualify : Nat := 5
def tlUp : Nat := 6
def tlLowpwr : Nat := 7

/-- A link's state. -/
def State.tlState (s : State) (n : Nat) : Nat := s.get (TL_STS.STATE n)

/-! ### The Sensor Map (R202, R205) -/

/-- A descriptor. -/
structure Desc where
  valid : Bool
  infEn : Bool
  grdEn : Bool
  recEn : Bool
  fmt : Nat
  gidx : Nat
  win : Nat
  stale : Nat
  gain : Nat
  offset : Nat
  dec : Nat
  roc : Nat
  gstat : Nat
  gfrac : Int
deriving DecidableEq, Repr

/-- The address of a descriptor (R202). -/
def descAddr (i : Nat) : Nat := 0x0401000000 + 16 * i

/-- A descriptor from its 16 bytes (R202). -/
def descOf (b : List Byte) : Desc :=
  let ctl := leAt b 0 2
  { valid := bitOf ctl 0, infEn := bitOf ctl 1, grdEn := bitOf ctl 2, recEn := bitOf ctl 3, fmt := bitsOf ctl 4 3,
    gidx := leAt b 2 1, win := bitsOf (leAt b 3 1) 0 4, stale := bitsOf (leAt b 3 1) 4 4, gain := leAt b 4 4,
    offset := leAt b 8 4, dec := leAt b 12 1, roc := bitsOf (leAt b 13 1) 0 4, gstat := bitsOf (leAt b 14 1) 0 2,
    gfrac := sgn 8 (leAt b 15 1) }

/-- The descriptor in force: one with an uncorrectable error acts as invalid (R205). -/
def State.desc (s : State) (i : Nat) : Desc :=
  let d := descOf (memBytes s.mem (descAddr i) 16)
  { d with valid := d.valid && !s.tel.ecc.contains i }

/-- What the fabric holds for a descriptor. -/
def State.dst (s : State) (i : Nat) : DescSt := (look i s.tel.desc).getD {}

/-- A state with what the fabric holds for a descriptor replaced. -/
def State.putDst (s : State) (i : Nat) (x : DescSt) : State := s.modTel (fun t => { t with desc := put i x t.desc })

/-- A descriptor found uncorrectable (R205). -/
def State.mapEcc (s : State) (i : Nat) : State :=
  if s.tel.ecc.contains i then s
  else
    let s := (s.modTel (fun t => { t with ecc := t.ecc ++ [i] })).setAll [(TFAB_STS.MAP_ECC, 1), (TFAB_MAP_ERR.LAST_IDX, i)]
    (s.bump TFAB_MAP_ERR.CNT).logTop EVT_TLF_MAP_ECC (i / 8192) UNIT_TFAB 0 [(0, 2, i)]

/-- The descriptors that an access finds uncorrectable (R205). -/
def State.mapEccAll (s : State) (bad : List (Fin 65536)) : State := bad.foldl (fun s i => s.mapEcc i.val) s

/-- A descriptor is stale (R208); in LOWPWR its values go stale by age only (R201; log entry 25). -/
def State.descStale (s : State) (i : Nat) : Bool :=
  let x := s.dst i
  let st := s.tlState (i / 8192)
  !x.has || (st != tlUp && st != tlLowpwr) || 2 ^ (s.desc i).stale * 1000 < s.topNow - x.ts

/-! ### Reduction (R206, R207) -/

/-- A raw value as a number: integers are converted to FP32 first (R206). -/
def rawNum (fmt raw : Nat) : Option Dy :=
  match fmt with
  | 0 => dec32 (rnd32 (Dy.ofInt (sgn 16 raw)))
  | 1 => dec32 (rnd32 (Dy.ofInt (raw % 2 ^ 16 : Nat)))
  | 2 => dec32 (rnd32 (Dy.ofInt (sgn 32 raw)))
  | 3 => dec32 (rnd32 (Dy.ofInt (raw % 2 ^ 32 : Nat)))
  | 4 => dec32 raw
  | 5 => decBf16 raw
  | _ => none

/-- FMT needs 32-bit values (R206). -/
def fmtWide (fmt : Nat) : Bool := fmt == 2 || fmt == 3 || fmt == 4

/-- y = RNE32(raw × GAIN + OFFSET), or NaN (R206). -/
def convert (d : Desc) (raw : Nat) : Nat :=
  match rawNum d.fmt raw, dec32 d.gain, dec32 d.offset with
  | some r, some g, some o => rnd32 ((r.mul g).add o)
  | _, _, _ => nan32

/-- A completed window's minimum, maximum and mean are published; a window without a value changes nothing (R207). -/
def DescSt.publish (x : DescSt) : DescSt :=
  if x.n = 0 then x
  else { x with pub := some (x.lo, x.hi, rnd32 (x.sum.quot (Dy.ofInt x.n))), n := 0, sum := Dy.zero }

/-- An applied value enters a descriptor's statistics (R206, R207). -/
def DescSt.apply (x : DescSt) (win y ts : Nat) : DescSt :=
  let k := ts / (2 ^ win * 1000)
  let x := if x.n ≠ 0 ∧ x.win ≠ k then x.publish else x
  let x := { x with has := true, latest := y, ts := ts }
  match dec32 y with
  | none => x
  | some v =>
    let x := if x.n = 0 then { x with win := k, n := 1, sum := rne64 v, lo := y, hi := y }
      else { x with n := x.n + 1, sum := rne64 (x.sum.add v), lo := if lt32 y x.lo then y else x.lo,
                    hi := if lt32 x.hi y then y else x.hi }
    let u := ts / 1000
    if x.uN = 0 ∨ x.us ≠ u then { x with us := u, uN := 1, uLo := y, uHi := y }
    else { x with uN := x.uN + 1, uLo := if lt32 y x.uLo then y else x.uLo, uHi := if lt32 x.uHi y then y else x.uHi }

/-- The rate of change at a boundary (R207), computed in binary64 and rounded once to FP32 (log entry 25). -/
def rateOf (a b roc : Nat) : Nat :=
  match dec32 a, dec32 b with
  | some x, some y =>
    let d := rne64 (y.add x.negate)
    let t := rne64 ((Dy.ofInt ((2 ^ roc : Nat) : Int)).quot (Dy.ofInt 1000000))
    if d.m = 0 then 0 else rnd32 (rne64 (d.quot t))
  | _, _ => nan32

/-- A window of a descriptor ends (R207); in LOWPWR its statistics hold still (R201). -/
def execStatWindowBoundary (i : Fin 65536) (s : State) : Host.Outcome State Fault Refusal :=
  .next (let x := s.dst i.val
    if s.tlState (i.val / 8192) ≠ tlLowpwr ∧ x.n ≠ 0 ∧ x.win ≠ s.topNow / (2 ^ (s.desc i.val).win * 1000) then s.putDst i.val x.publish else s)

/-- A rate boundary of a descriptor (R207); in LOWPWR its statistics hold still (R201). -/
def State.rateBoundary (s : State) (i : Nat) : State :=
  let d := s.desc i
  let x := s.dst i
  if d.valid && s.tlState (i / 8192) != tlLowpwr then
    let l := if s.descStale i then nan32 else x.latest
    let r := match x.prev with
      | some p => rateOf p l d.roc
      | none => nan32
    s.putDst i { x with prev := some l, rate := r }
  else s

def execRateBoundary (i : Fin 65536) (s : State) : Host.Outcome State Fault Refusal := .next (s.rateBoundary i.val)

/-- The statistic of a descriptor that SEL names: 0 latest, 1 minimum, 2 maximum, 3 mean, 4 rate (R175, R207); NaN when the
descriptor is stale (R208). -/
def State.stat (s : State) (i sel : Nat) : Nat :=
  let x := s.dst i
  if s.descStale i then nan32
  else
    match sel, x.pub with
    | 0, _ => x.latest
    | 1, some p => p.1
    | 2, some p => p.2.1
    | 3, some p => p.2.2
    | 4, _ => x.rate
    | _, _ => nan32

/-! ### Guard values (R210, R211) -/

/-- sat16(round(s × 2^GFRAC)), 0x8000 for NaN (R210). -/
def guardVal (y : Nat) (gfrac : Int) : Nat :=
  match dec32 y with
  | none => sigStale
  | some v => sat16 (roundInt true (v.scale gfrac))

/-- The guard value of a descriptor for the microsecond us (R210, R211). -/
def State.guardOf (s : State) (i us : Nat) : Nat :=
  let d := s.desc i
  let x := s.dst i
  if s.descStale i then sigStale
  else
    let y := if d.gstat = 1 ∧ x.uN ≠ 0 ∧ x.us = us then x.uHi
      else if d.gstat = 2 ∧ x.uN ≠ 0 ∧ x.us = us then x.uLo
      else if d.gstat = 3 then nan32
      else x.latest
    guardVal y d.gfrac

/-- The guard positions that descriptors hold: (position, descriptor). -/
def State.guardDescs (s : State) : List (Nat × Nat) :=
  s.mem.filterMap (fun c =>
    let i := (c.1 - descAddr 0) / 16
    if descAddr 0 ≤ c.1 ∧ c.1 < descAddr 65536 ∧ (c.1 - descAddr 0) % 16 = 0 ∧ (s.desc i).valid ∧ (s.desc i).grdEn then
      some ((s.desc i).gidx, i)
    else none)

/-- One GUARD message of 16 positions, when it holds an enabled one (R29, R211). -/
def State.guardMsg (s : State) (us k : Nat) : Option GuardMsg :=
  let ds := s.guardDescs.filter (fun d => d.1 / 16 == k)
  if ds.isEmpty then none
  else
    some (.values (us + 1) ((List.range 16).map (fun j =>
      let p := 16 * k + j
      (p, match ds.find? (fun d => d.1 == p) with
        | some d => s.guardOf d.2 us
        | none => sigStale))))

/-- The assembly at a Top-die tick, for the microsecond that has just ended: one for each microsecond (R29, R211). -/
def State.guardAssembly (s : State) : State :=
  let us := s.topNow / 1000 - 1
  if s.bridgeUp && s.tel.guardUs != some us then
    { s with brg := { s.brg with guardQ := s.brg.guardQ ++ (List.range 14).filterMap (s.guardMsg us) },
             tel := { s.tel with guardUs := some us } }
  else s

def execGuardAssembly (s : State) (badDesc : List (Fin 65536) := []) : Host.Outcome State Fault Refusal :=
  .next (if s.pwr.topRst then s else (s.mapEccAll badDesc).guardAssembly)

/-! ### The flight recorder (R212 to R217) -/

def recOff : Nat := 0
def recRunning : Nat := 1
def recPost : Nat := 2
def recFrozen : Nat := 3

/-- The recorder accepts values: RUN or POST. -/
def State.recAccepts (s : State) : Bool := s.get TFAB_STS.REC_STATE == recRunning || s.get TFAB_STS.REC_STATE == recPost

/-- The 64 bytes of a record (R212). -/
def RecItem.bytes (r : RecItem) : List Byte :=
  leBytes 8 r.ts ++ leBytes 2 (r.ch + 8192 * r.acc) ++ leBytes 2 r.mask ++ leBytes 1 r.flags ++ leBytes 3 0
    ++ (List.range 12).flatMap (fun k => leBytes 4 (r.vals.getD k 0))

/-- How many values a record holds. -/
def RecItem.count (r : RecItem) : Nat := popCount 12 r.mask

/-- The address of a ring buffer (R214). -/
def State.bufAddr (s : State) (seq : Nat) : Nat :=
  0x1000000000 + (s.get TFAB_REC_BASE.BASE + seq % s.get TFAB_REC_SIZE.NBUF) * 0x1000

/-- The number of the open buffer (R214). -/
def State.openSeq (s : State) : Nat := (s.get TFAB_REC_SEQ.LAST + 1) % 2 ^ 32

/-- An uncorrectable LPDDR5X read (R219). -/
def State.lpUncorr (s : State) (addr : Nat) : State :=
  let s := (s.set64 LPC_ERR_ADDR_LO.ADDR_LO LPC_ERR_ADDR_HI.ADDR_HI addr).bump LPC_ECC_CNT.UNCORR
  (s.set LPC_STS.UNCORR 1).logTop EVT_LP_UNCORR ACC_TRAY UNIT_LPC 0 [(0, 8, addr)]

/-- LPDDR5X takes accesses: its training has ended and its clock runs (R88, R222). -/
def State.lpReady (s : State) : Bool := s.on LPC_STS.INIT_DONE && !s.gated 4

/-- Bytes stored in LPDDR5X by the recorder, at the controller's port (R87, R88). -/
def State.lpStore (s : State) (a : Nat) (bs : List Byte) : State :=
  if s.on LPC_STS.INIT_DONE then s.portStore { dom := 4, addr := a, bytes := bs } else s

/-- The header of a closed buffer (R213). -/
def bufHeader (seq : Nat) (b : RecBuf) (trig : Bool) : List Byte :=
  let rs := b.recs.reverse
  let h := leBytes 4 seq ++ leBytes 4 rs.length ++ leBytes 8 ((rs.head?.map (·.ts)).getD 0) ++ leBytes 8 ((b.recs.head?.map (·.ts)).getD 0)
    ++ leBytes 1 (b2n trig + 2 * b2n b.restart + 4 * b2n (b.dropped != 0)) ++ leBytes 3 0 ++ leBytes 4 b.dropped ++ leBytes 28 0
  h ++ leBytes 4 (crc32c (h ++ rs.flatMap RecItem.bytes))

/-- A buffer opens: the oldest one is overwritten, and FIRST moves past it (R214). -/
def State.recOpen (s : State) : State :=
  let n := s.get TFAB_REC_SIZE.NBUF
  let q := s.openSeq
  let s := s.setIf (n ≤ (q + 2 ^ 32 - s.get TFAB_REC_FIRST.FIRST) % 2 ^ 32) TFAB_REC_FIRST.FIRST ((q + 2 ^ 32 + 1 - n) % 2 ^ 32)
  let s := if s.lpReady then { s with mem := memForget s.mem (s.bufAddr q) (s.bufAddr q + 0x1000) } else s
  s.modTel (fun t => { t with buf := some { restart := t.restart }, restart := false, gone := t.gone.filter (· != q) })

/-- The recorder enters FROZEN: nothing more is accepted or drained (R216). -/
def State.recFreeze (s : State) : State :=
  (s.set TFAB_STS.REC_STATE recFrozen).modTel (fun t => { t with links := t.links.map (fun l => { l with queue := [] }) })

/-- The open buffer closes: its header is written after its records (R213). In POST it counts toward FROZEN (R216). -/
def State.recClose (s : State) (trig : Bool) : State :=
  match s.tel.buf with
  | none => s
  | some b =>
    if b.recs.isEmpty then s
    else
      let q := s.openSeq
      let s := s.lpStore (s.bufAddr q) (bufHeader q b trig)
      let s := (s.set TFAB_REC_SEQ.LAST q).modTel (fun t => { t with buf := none })
      if s.get TFAB_STS.REC_STATE = recPost then
        let s := s.modTel (fun t => { t with postLeft := t.postLeft - 1 })
        if s.tel.postLeft = 0 then s.recFreeze else s
      else s

/-- How many records the open buffer holds. -/
def State.openRecs (s : State) : Nat := (s.tel.buf.map (·.recs.length)).getD 0

/-- A record is written into the open buffer (R213). The first one written for an accelerator after frames were lost carries GAP (R196);
one that names no accelerator carries none. -/
def State.recPut (s : State) (named : Bool) (r : RecItem) : State :=
  let s := if s.tel.buf.isNone then s.recOpen else s
  let g := named && (s.link r.acc).gap
  let r := { r with flags := r.flags + 8 * b2n g }
  let s := s.modLink r.acc (fun l => { l with gap := l.gap && !g })
  let s := s.lpStore (s.bufAddr s.openSeq + 64 * (s.openRecs + 1)) r.bytes
  s.modTel (fun t => { t with buf := t.buf.map (fun b => { b with recs := r :: b.recs }) })

/-- A record goes into the open buffer, which closes when it is full (R213). -/
def State.recWrite (s : State) (r : RecItem) : State :=
  let s := s.recPut true r
  if s.openRecs = 63 then s.recClose false else s

/-- A trigger (R216, R217): in RUN it writes its record, closes the buffer with TRIGGER, and POST follows; a later one counts
as missed. The record of a unit carries its accelerator's GAP (R196); that of SWTRIG names no accelerator. While the writer's clock is
stopped nothing triggers it (R88; log entry 49). -/
def State.recTrigger (s : State) (unit : Nat) (r : RecItem) : State :=
  if s.gated 8 then s
  else if s.get TFAB_STS.REC_STATE = recRunning then
    let s := s.recPut (unit != 0x10) { r with flags := r.flags + 4 }
    let s := ((s.setAll [(TFAB_REC_TSRC.UNIT, unit), (TFAB_REC_TRIG.BUFSEQ, s.openSeq)]).recClose true).raise 20
    if s.get TFAB_REC_CFG.POST = 0 then s.recFreeze
    else (s.set TFAB_STS.REC_STATE recPost).modTel (fun t => { t with postLeft := s.get TFAB_REC_CFG.POST })
  else if s.get TFAB_STS.REC_STATE = recPost ∨ (s.get TFAB_STS.REC_STATE = recFrozen ∧ unit = 0x10) then
    s.bump TFAB_REC_TSRC.MISS
  else s

/-- A record that holds no values: a mark, a level or a code in bytes 16 to 19. -/
def State.plainRec (s : State) (acc flags word : Nat) : RecItem :=
  { ts := s.topNow, ch := 0, acc := acc, mask := 0, flags := b2n s.fb + flags, vals := [word] }

/-- A record joins its link's queue of 32 KiB, or is dropped (R215). -/
def State.recPush (s : State) (n : Nat) (r : RecItem) : State :=
  if (s.link n).queue.length < 512 then s.modLink n (fun l => { l with queue := l.queue ++ [r] })
  else
    let s := (s.bump TFAB_REC_DROP.DROPPED r.count).set TFAB_STS.REC_DROP 1
    (s.modTel (fun t => { t with buf := t.buf.map (fun b => { b with dropped := b.dropped + 1 }) })).logTop EVT_REC_DROP n
      UNIT_TFAB 0 [(0, 2, r.count)]

/-- One kept value added to the records of its block, oldest first: the last record takes it within twelve channels. -/
def addKept (ts acc flags : Nat) (rs : List RecItem) (v : Nat × Nat) : List RecItem :=
  match rs.getLast? with
  | some r =>
    if v.1 - r.ch < 12 then
      rs.dropLast ++ [{ r with mask := setBitOf r.mask (v.1 - r.ch) true,
                               vals := padWords (v.1 - r.ch) r.vals ++ [v.2] }]
    else rs ++ [{ ts := ts, ch := v.1, acc := acc, mask := 1, flags := flags, vals := [v.2] }]
  | none => [{ ts := ts, ch := v.1, acc := acc, mask := 1, flags := flags, vals := [v.2] }]
where
  padWords (n : Nat) (l : List Nat) : List Nat := l ++ List.replicate (n - l.length) 0

/-- The next queue in turn that holds a record (R215). -/
def State.recTurn (s : State) : Option (Nat × RecItem) :=
  (List.range 8).findSome? (fun k =>
    let n := (s.tel.rr + 1 + k) % 8
    ((s.link n).queue.head?).map (fun r => (n, r)))

/-- The writer takes the next record (R215), while its own port and that of LPDDR5X take requests (R87, R88). -/
def State.recordWrite (s : State) : State :=
  if s.recAccepts && !s.portShut 8 && !s.gateAsked 4 then
    match s.recTurn with
    | none => s
    | some (n, r) =>
      ((s.modLink n (fun l => { l with queue := l.queue.drop 1 })).modTel (fun t => { t with rr := n })).recWrite r
  else s

def execRecordWrite (s : State) : Host.Outcome State Fault Refusal := .next s.recordWrite

/-- A flush closes the open buffer, while the writer's clock runs (R88, R213). -/
def State.recFlush (s : State) : State := if s.gated 8 then s else s.recClose false

/-- The FLUSH time since the first record has passed (R213). -/
def execRecFlushTimer (s : State) : Host.Outcome State Fault Refusal :=
  .next (if s.get TFAB_REC_CFG.FLUSH = 7 then s else s.recFlush)

/-- The recorder's counters of every descriptor restart (R212). -/
def TelSt.decReset (t : TelSt) : TelSt := { t with desc := t.desc.map (fun e => (e.1, { e.2 with dec := 0 })) }

/-- REARM (R216): FROZEN to RUN. -/
def State.recRearm (s : State) : State :=
  if s.get TFAB_STS.REC_STATE = recFrozen then (s.set TFAB_STS.REC_STATE recRunning).modTel TelSt.decReset else s

/-- SWTRIG: a trigger with unit code 0x10 (R216). -/
def State.recSwtrig (s : State) : State := s.recTrigger 0x10 (s.plainRec 0 0 0)

/-- A write of TFAB_REC_CTL (R221). -/
def State.recCtl (s : State) (w : Nat) : State :=
  let s := if bitOf w 0 then s.recRearm else s
  let s := if bitOf w 1 then s.recSwtrig else s
  if bitOf w 2 then s.recFlush else s

def execRecRearm (ini : Initiator) (s : State) : Host.Outcome State Fault Refusal :=
  .next (s.command ini TFAB_REC_CTL.REARM.addr State.recRearm)

def execRecSwtrig (ini : Initiator) (s : State) : Host.Outcome State Fault Refusal :=
  .next (s.command ini TFAB_REC_CTL.SWTRIG.addr State.recSwtrig)

def execRecFlush (ini : Initiator) (s : State) : Host.Outcome State Fault Refusal :=
  .next (s.command ini TFAB_REC_CTL.FLUSH.addr State.recFlush)

/-- The ring can be used: at least 16 buffers, inside the installed capacity (R221). -/
def State.ringOk (s : State) : Bool :=
  16 ≤ s.get TFAB_REC_SIZE.NBUF
    && 0x1000000000 + (s.get TFAB_REC_BASE.BASE + s.get TFAB_REC_SIZE.NBUF) * 0x1000 ≤ s.lpddrEnd

/-- The oldest valid buffer of a recorder that restarts without its ring is the one that it opens next (R214). -/
def State.recFirst (s : State) : State := s.set TFAB_REC_FIRST.FIRST s.openSeq

/-- REC_RUN written (R214, R221): a start continues after a Top reset that the ring survived, and moves FIRST otherwise; before the
training of the LPDDR5X has ended, well or not, its end decides (R113). A stop drops what is queued. -/
def State.recRun (s : State) (on : Bool) : State :=
  if on then
    if s.on TFAB_CTL.REC_RUN then s
    else if s.ringOk then
      let s := if (s.on LPC_STS.INIT_DONE || s.tel.lpEnded) && !s.tel.survived then s.recFirst else s
      (s.setAll [(TFAB_CTL.REC_RUN, 1), (TFAB_STS.REC_STATE, recRunning)]).modTel
        (fun t => { t with survived := false, restart := true, buf := none }.decReset)
    else s.logTop EVT_REC_CFG ACC_TRAY UNIT_TFAB 0 [(0, 4, s.get TFAB_REC_SIZE.NBUF), (4, 4, s.get TFAB_REC_BASE.BASE)]
  else
    (s.setAll [(TFAB_CTL.REC_RUN, 0), (TFAB_STS.REC_STATE, recOff)]).modTel
      (fun t => { t with buf := none, links := t.links.map (fun l => { l with queue := [] }) })

def execRecRun (ini : Initiator) (on : Bool) (s : State) : Host.Outcome State Fault Refusal :=
  .next (s.command ini TFAB_CTL.REC_RUN.addr (fun s => s.recRun on))

/-- TFAB_CNT_CLR (R221). -/
def State.tfabCntClr (s : State) : State :=
  s.setAll [(TFAB_MAP_ERR.CNT, 0), (TFAB_REC_TSRC.MISS, 0), (TFAB_REC_DROP.DROPPED, 0)]

def execTfabCntClr (ini : Initiator) (s : State) : Host.Outcome State Fault Refusal :=
  .next (s.command ini TFAB_CNT_CLR.CLR.addr State.tfabCntClr)

/-! ### Triggers (R216) -/

/-- The value triggers that a new latest value fires: unit numbers. -/
def State.valueFires (s : State) (i old new : Nat) : List Nat :=
  (List.range 16).filter (fun t =>
    let thr := s.get (TFAB_TRG_THR.THR t)
    s.on (TFAB_TRG_CFG.EN t) && s.get (TFAB_TRG_CFG.INDEX t) == i
      && ((s.get (TFAB_TRG_CFG.SRC t) == 0 && lt32 thr new && !lt32 thr old)
        || (s.get (TFAB_TRG_CFG.SRC t) == 1 && lt32 new thr && !lt32 old thr)))

/-- The MARK triggers that a code of an accelerator fires. -/
def State.markFires (s : State) (acc code : Nat) : List Nat :=
  (List.range 16).filter (fun t =>
    s.on (TFAB_TRG_CFG.EN t) && s.get (TFAB_TRG_CFG.SRC t) == 3 && s.get (TFAB_TRG_CFG.INDEX t) % 8 == acc
      && s.get (TFAB_TRG_THR.THR t) == code)

/-- Fires of one timestamp act in ascending unit number (R217). -/
def State.fireAll (s : State) (l : List (Nat × RecItem)) : State :=
  (List.range 16).foldl (fun s t => (l.filter (fun e => e.1 == t)).foldl (fun s e => s.recTrigger e.1 e.2) s) s

/-- The triggers that fire when Tamp's reported level of an accelerator rises (R156, R216). -/
def State.levelFires (s : State) (acc old new : Nat) : List (Nat × RecItem) :=
  (List.range 16).filterMap (fun t =>
    let l := s.get (TFAB_TRG_CFG.LVL t)
    if s.on (TFAB_TRG_CFG.EN t) && s.get (TFAB_TRG_CFG.SRC t) == 2 && s.get (TFAB_TRG_CFG.INDEX t) % 8 == acc && l != 0
      && decide (old < l) && decide (l ≤ new) then some (t, s.plainRec acc 0 new) else none)

/-! ### Frames (R193 to R196, R206) -/

/-- A value block: first channel, width, values. -/
structure Block where
  first : Nat
  wide : Bool
  vals : List Nat
deriving DecidableEq, Repr

/-- The blocks of a payload of 240 bytes from an offset on, or none where the frame is bad (R194, R195). -/
def parseBlocks (p : List Byte) : Nat → Nat → Option (List Block)
  | 0, _ => some []
  | fuel + 1, o =>
    if 240 ≤ o then some []
    else
      let h := leAt p o 2
      let count := leAt p (o + 2) 1
      let wide := bitOf h 13
      let size := if wide then 4 else 2
      if bitsOf h 14 2 ≠ 0 ∨ leAt p (o + 3) 1 ≠ 0 then none
      else if count = 0 then some []
      else if 8192 < h % 8192 + count ∨ 240 < o + 4 + count * size then none
      else
        let b : Block := { first := h % 8192, wide := wide, vals := (List.range count).map (fun k => leAt p (o + 4 + k * size) size) }
        (parseBlocks p fuel (o + (4 + count * size + 3) / 4 * 4)).map (b :: ·)

/-- What the values of a frame have led to so far: the records of the block in progress, and triggers fired. -/
structure FrameAcc where
  st : State
  kept : List RecItem
  fires : List (Nat × RecItem)

/-- One value applied to its descriptor (R206, R212, R216). -/
def applyValue (n ts : Nat) (wide : Bool) (a : FrameAcc) (v : Nat × Nat) : FrameAcc :=
  let s := a.st
  let i := 8192 * n + v.1
  let d := s.desc i
  if !d.valid then { a with st := s.bump (TL_VERR.UNMAPPED n) }
  else if wide != fmtWide d.fmt then { a with st := s.bump (TL_VERR2.FMTERR n) }
  else
    let y := convert d v.2
    let x := s.dst i
    let old := if x.has then x.latest else nan32
    let rec? := d.recEn && s.recAccepts
    let keep := rec? && x.dec == 0
    let x' := { x.apply d.win y ts with dec := if rec? then (x.dec + 1) % (d.dec + 1) else x.dec }
    let s' := (s.putDst i x').setIf (y == nan32) (TL_VERR2.NAN n) (satCount 16 (s.get (TL_VERR2.NAN n)) 1)
    let flags := b2n s.fb
    { st := s'
      kept := if keep then addKept ts n flags a.kept (v.1, y) else a.kept
      fires := a.fires ++ (s.valueFires i old y).map (fun t =>
        (t, { ts := ts, ch := v.1, acc := n, mask := 1, flags := flags, vals := [y] })) }

/-- One block applied, its kept values recorded. -/
def applyBlock (n ts : Nat) (a : FrameAcc) (b : Block) : FrameAcc :=
  let a := (b.vals.mapIdx (fun k v => (b.first + k, v))).foldl (applyValue n ts b.wide) { a with kept := [] }
  { a with st := a.kept.foldl (fun s r => s.recPush n r) a.st, kept := [] }

/-- The FSEQ check (R196). -/
def State.fseqCheck (s : State) (n fseq : Nat) : State :=
  let lost := match (s.link n).exp with
    | some e => (fseq + 65536 - e) % 65536
    | none => 0
  (s.bump (TL_FERR.LOST n) lost).modLink n (fun l => { l with exp := some ((fseq + 1) % 65536), gap := l.gap || lost != 0 })

/-- One frame checked and applied (R193 to R196), with the triggers that it fires. -/
def State.frame (s : State) (n : Nat) (f : List Byte) : State × List (Nat × RecItem) :=
  if crc32c (f.take 252) ≠ leAt f 252 4 then (s.bump (TL_FERR.CRC n), [])
  else
    let type := leAt f 0 1
    if type = 0 then (s, [])
    else
      match (if 2 < type ∨ leAt f 1 1 ≠ 0 ∨ leAt f 8 4 ≠ 0 then none else parseBlocks (slice f 12 240) 61 0) with
      | none => (s.bump (TL_VERR.BADFRM n), [])
      | some bs =>
        let s := s.fseqCheck n (leAt f 2 2)
        let ts := s.topNow
        let a := bs.foldl (applyBlock n ts) { st := s, kept := [], fires := [] }
        let code := leAt f 4 4
        let mark := type == 2
        let s := a.st.set (TL_FRM.APPLIED n) (a.st.get (TL_FRM.APPLIED n) + 1)
        let s := if mark && s.recAccepts then s.recPush n (s.plainRec n 2 code) else s
        (s, a.fires ++ (if mark then (s.markFires n code).map (fun t => (t, s.plainRec n 0 code)) else []))

/-- The two frames of a payload, A first; what they fire carries one timestamp and acts in unit order (R195, R217). -/
def State.frames (s : State) (n : Nat) (p : List Byte) : State :=
  let a := s.frame n (slice p 8 256)
  let b := a.1.frame n (slice p 264 256)
  b.1.fireAll (a.2 ++ b.2)

/-- SYNC of a codeword's payload (R192). -/
def syncOk (p : List Byte) : Bool := leAt p 0 1 == 0x5A && leAt p 1 1 == 0xC3

/-- What the receiver makes of a codeword (R192, R195): uncorrectable, or its 520 payload bytes after error correction and
descrambling. -/
inductive Codeword where
  | uncorrectable
  | decoded (corrected : Bool) (payload : List Byte)
deriving DecidableEq, Repr

/-- A received codeword decoded (R192). -/
def State.rxWord (s : State) (n raw : Nat) : Codeword :=
  match rsDecode raw with
  | none => .uncorrectable
  | some (c, fixed) => .decoded fixed (leBytes 520 (descramble (s.link n).scr (c % 2 ^ 4160)))

/-- The descrambler's state after a received codeword: its last bits, as corrected where it can be (R192). -/
def rxTail (raw : Nat) : Nat := lineTail (((rsDecode raw).map (·.1)).getD raw)

/-- A codeword (R195, R198). -/
def State.codeword (s : State) (n raw : Nat) (bad : List (Fin 65536)) : State :=
  let st := s.tlState n
  if st = tlUp ∨ st = tlQualify then
    let cw := s.rxWord n raw
    let s := (s.mapEccAll bad).modLink n (fun l => { l with scr := rxTail raw })
    match cw with
    | .uncorrectable =>
      (s.bump (TL_FEC.UNCORR n)).modLink n (fun l => { l with badRun := l.badRun + 1, qualBad := l.qualBad || st == tlQualify })
    | .decoded corrected p =>
      let s := if corrected then s.bump (TL_FEC.CORR n) else s
      let s := s.modLink n (fun l => { l with badRun := if syncOk p then 0 else l.badRun + 1 })
      if st = tlUp then s.frames n p else s
  else s

def execCodewordRx (n : Fin 8) (raw : BitVec 4360) (badDesc : List (Fin 65536)) (s : State) :
    Host.Outcome State Fault Refusal :=
  .next (s.codeword n.val raw.toNat badDesc)

/-! ### Training and the back-channel (R197 to R201) -/

/-- A back-channel command: its code and the value it carries. -/
def bcCmd (code val : Nat) : Nat := code + 256 * val

def bcId : Nat := 0x10
def bcPattern : Nat := 0x20
def bcTxeq : Nat := 0x21

/-- Patterns of BC_PATTERN (R200). -/
def patFrames : Nat := 0
def patPrbs : Nat := 1
def patIdle : Nat := 2
def patQuiet : Nat := 3

/-- The bytes of a command and what it reads (R200). -/
def bcBytes (cmd : Nat) : List Byte × RxForm :=
  if cmd % 256 = bcId then ([0x10], .block 8)
  else if cmd % 256 = bcTxeq then (0x21 :: leBytes 2 (cmd / 256), .none)
  else ([BitVec.ofNat 8 cmd, BitVec.ofNat 8 (cmd / 256)], .none)

/-- No back-channel transaction of a link is left. -/
def TlSt.bcClear (l : TlSt) : TlSt := { l with bc := none, bcWait := false, bcHeld := false, bcRes := none }

/-- The registers of the port that a link's back-channel uses: where its CTRL messages go (log entry 47). -/
def State.bcAddr (s : State) (n : Nat) : Nat := 0x20050000 + 0x1000 * s.get (TL_BC.BUS n)

/-- A command crosses the Bridge on CTRL, and its transaction is queued on the link's segment (R28, R199). -/
def State.bcGo (s : State) (n cmd : Nat) : State :=
  let b := bcBytes cmd
  ((s.msgHeader vcCtrl 0 kindWrite b.1.length (s.bcAddr n)).modLink n (fun l => { l with bcHeld := false })).twQueue
    (s.get (TL_BC.BUS n)) (.bcTrain n cmd) (s.get (TL_BC.ADDR n)) none b.1 b.2 true

/-- A training attempt fails (R198). -/
def State.trainFail (s : State) (n : Nat) : State :=
  let st := s.tlState n
  if tlDetect ≤ st ∧ st ≤ tlQualify then
    let s := (s.setAll [(TL_STS.TRAIN_FAIL n, 1), (TL_STS.FAIL_STEP n, st), (TL_STS.STATE n, tlOff), (TL_STS.CW_LOCK n, 0)]).bump
      (TL_TRY.ATTEMPTS n)
    (s.modLink n (fun l => { l.bcClear with retry := true })).logTop EVT_TL_TRAIN n UNIT_TL n
      [(0, 1, st), (1, 1, s.get (TL_TRY.ATTEMPTS n))]
  else s

/-- BC_ERR: all three tries failed, or there is no back-channel (R199, R220); in training the attempt fails. -/
def State.bcError (s : State) (n code r : Nat) : State :=
  ((s.set (TL_STS.BC_ERR n) 1).logTop EVT_TL_BC n UNIT_TL n [(0, 1, code), (1, 1, r)]).trainFail n

/-- A try fails: the transaction is tried three times in all (R199). -/
def State.bcFail (s : State) (n r : Nat) : State :=
  match (s.link n).bc with
  | none => s
  | some (c, fails) =>
    if fails < 2 then s.modLink n (fun l => { l.bcClear with bc := some (c, fails + 1), bcWait := true })
    else (s.modLink n TlSt.bcClear).bcError n (c % 256) r

/-- A command goes to the Bridge (R28, R33, R199): sent at once, or behind GUARD messages and once the Bridge carries it; in QUIESCE it is
refused, which is a failed try (log entry 25). -/
def State.bcQueue (s : State) (n cmd : Nat) : State :=
  if s.get BRG_STS.STATE = 3 then s.bcFail n resSegDown
  else if s.bridgeUp && s.vcFree vcCtrl 0 then s.bcGo n cmd
  else s.modLink n (fun l => { l with bcHeld := true })

/-- A command begins. -/
def State.bcSend (s : State) (n cmd : Nat) : State :=
  if s.get (TL_BC.BUS n) < 12 then
    (s.modLink n (fun l => { l.bcClear with bc := some (cmd, 0) })).bcQueue n cmd
  else s.bcError n (cmd % 256) resSegDown

/-- The next BC_TXEQ setting of the search: a free value, since the spec leaves the search to the receiver (R197). -/
def State.txeqNext (s : State) (n : Nat) : State :=
  let v := Config.free s.fresh
  s.draw.bcSend n (bcCmd bcTxeq ((v % 16 + 248) % 256 + 256 * ((v / 16 % 16 + 248) % 256)))

/-- A link enters DETECT (R197). -/
def State.linkDetect (s : State) (n : Nat) : State :=
  let s := (s.setAll [(TL_STS.STATE n, tlDetect), (TL_STS.CW_LOCK n, 0), (TL_STS.RFMT n, 0)]).modLink n (fun l =>
    { l with retry := false, held := false, ready := false, badRun := 0 })
  s.bcSend n (bcCmd bcId 0)

/-- Training is allowed (R191, R197). -/
def State.trainAllowed (s : State) (n : Nat) : Bool :=
  s.on (TL_CTL.EN n) && s.on TFAB_STS.MAP_LOADED && decide (n < s.get ACD_INFO.ACC_COUNT)

def execLinkTrainStart (n : Fin 8) (s : State) : Host.Outcome State Fault Refusal :=
  .next (if s.trainAllowed n.val && s.tlState n.val == tlOff && !(s.link n.val).retry && !(s.link n.val).held then
    s.linkDetect n.val else s)

def execLinkRetry (n : Fin 8) (s : State) : Host.Outcome State Fault Refusal :=
  .next (if (s.link n.val).retry then
    let s := s.modLink n.val (fun l => { l with retry := false })
    if s.trainAllowed n.val && s.tlState n.val == tlOff then s.linkDetect n.val else s
  else s)

def execLinkDetectDone (n : Fin 8) (s : State) : Host.Outcome State Fault Refusal :=
  .next (if s.tlState n.val = tlDetect ∧ (s.link n.val).ready then s.set (TL_STS.STATE n.val) tlAdapt else s)

def execLinkAdaptDone (n : Fin 8) (s : State) : Host.Outcome State Fault Refusal :=
  .next (if s.tlState n.val = tlAdapt then
    ((s.set (TL_STS.STATE n.val) tlTxeq).modLink n.val (fun l => { l with txeq := 0, ready := false })).txeqNext n.val
  else s)

def execLinkTxeqDone (n : Fin 8) (s : State) : Host.Outcome State Fault Refusal :=
  .next (if s.tlState n.val = tlTxeq ∧ (s.link n.val).txeq ≠ 0 then
    ((s.set (TL_STS.STATE n.val) tlAlign).modLink n.val (fun l => { l with ready := false })).bcSend n.val (bcCmd bcPattern patFrames)
  else s)

/-- The bits on the line that no codeword command has carried are not known here: the descrambler's state is a free value. -/
def State.lineUnknown (s : State) (n : Nat) : State := s.draw.modLink n (fun l => { l with scr := Config.free s.fresh % 2 ^ 58 })

def execLinkAlignDone (n : Fin 8) (s : State) : Host.Outcome State Fault Refusal :=
  .next (if s.tlState n.val = tlAlign ∧ (s.link n.val).ready then
    ((s.setAll [(TL_STS.STATE n.val, tlQualify), (TL_STS.CW_LOCK n.val, 1)]).modLink n.val
      (fun l => { l with qualBad := false, badRun := 0 })).lineUnknown n.val
  else s)

/-- What the fabric holds for a link's descriptors when it reaches UP: the counters start empty (R207, R212). -/
def DescSt.restart (x : DescSt) : DescSt := { x with n := 0, sum := Dy.zero, prev := none, uN := 0, dec := 0 }

/-- A link reaches UP (R196, R198, R207); in A1 it goes on to LOWPWR (R201). -/
def State.linkUp (s : State) (n : Nat) : State :=
  let s := (s.setAll [(TL_STS.STATE n, tlUp), (TL_TRY.ATTEMPTS n, 0), (TL_STS.CW_LOCK n, 1)]).modLink n (fun l =>
    { l with exp := none, badRun := 0 })
  s.modTel (fun t => { t with desc := t.desc.map (fun e => if e.1 / 8192 = n then (e.1, e.2.restart) else e) })

/-- An UP link goes to LOWPWR for A1 (R201). -/
def State.linkSleep (s : State) (n : Nat) : State :=
  if s.tlState n = tlUp then (s.set (TL_STS.STATE n) tlLowpwr).bcSend n (bcCmd bcPattern patIdle) else s

/-- The links are kept in LOWPWR: A1 is in force or being entered (R201). -/
def State.linksHeld (s : State) : Bool := s.get PWRST_STATE.CUR == 1 || s.pwr.trans == some .toA1

def execLinkQualifyDone (n : Fin 8) (s : State) : Host.Outcome State Fault Refusal :=
  .next (if s.tlState n.val = tlQualify ∧ !(s.link n.val).qualBad then
    let s := s.linkUp n.val
    if s.linksHeld then s.linkSleep n.val else s
  else s)

def execLinkTrainFail (n : Fin 8) (s : State) : Host.Outcome State Fault Refusal := .next (s.trainFail n.val)

/-- A loss in UP (R198). Without AUTO_RETRAIN the link stays OFF until RETRAIN (log entry 25). -/
def State.linkLos (s : State) (n : Nat) : State :=
  if s.tlState n = tlUp ∧ 8 ≤ (s.link n).badRun then
    let s := (s.setAll [(TL_STS.LOS n, 1), (TL_STS.STATE n, tlOff), (TL_STS.CW_LOCK n, 0)]).bump (TL_TRY.LOS_CNT n)
    let s := s.logTop EVT_TL_LOS n UNIT_TL n [(0, 1, s.get (TL_TRY.LOS_CNT n))]
    if s.on (TL_CTL.AUTO_RETRAIN n) then s.linkDetect n else s.modLink n (fun l => { l with held := true })
  else s

def execLinkLos (n : Fin 8) (s : State) : Host.Outcome State Fault Refusal := .next (s.linkLos n.val)

/-- What a back-channel command that succeeded leads to (R197). -/
def State.bcDone (s : State) (n cmd : Nat) (rx : List Byte) : State :=
  let st := s.tlState n
  let s := s.modLink n TlSt.bcClear
  if cmd % 256 = bcId ∧ st = tlDetect then
    let s := s.set (TL_STS.RFMT n) (leAt rx 2 1)
    if leAt rx 2 1 = 1 then s.bcSend n (bcCmd bcPattern patPrbs) else s.trainFail n
  else if cmd % 256 = bcTxeq ∧ st = tlTxeq then
    let s := s.modLink n (fun l => { l with txeq := l.txeq + 1 })
    if (s.link n).txeq < 24 then s.txeqNext n else s
  else if cmd % 256 = bcPattern ∧ (st = tlDetect ∨ st = tlAlign) then s.modLink n (fun l => { l with ready := true })
  else s

/-- A transaction's result crosses the Bridge on CTRL (R28, R199). -/
def State.bcBack (s : State) (n cmd r : Nat) (rx : List Byte) : State :=
  let s := s.msgHeader vcCtrl 1 kindCompletion rx.length (s.bcAddr n)
  if r = resOk then s.bcDone n cmd rx else s.bcFail n r

/-- A back-channel transaction ends on its segment: its result crosses the Bridge, or waits for it behind GUARD messages (R28, R199). -/
def State.bcEnd (s : State) (n cmd r : Nat) (rx : List Byte) : State :=
  match (s.link n).bc with
  | none => s
  | some (c, _) =>
    if c ≠ cmd then s
    else if s.flows && s.vcFree vcCtrl 1 then s.bcBack n cmd r rx
    else s.modLink n (fun l => { l with bcRes := some (r, rx) })

/-- 100 µs after a failed try (R199). -/
def execBcRetry (n : Fin 8) (s : State) : Host.Outcome State Fault Refusal :=
  .next (match (s.link n.val).bc with
    | some (c, _) => if (s.link n.val).bcWait then (s.modLink n.val (fun l => { l with bcWait := false })).bcQueue n.val c else s
    | none => s)

/-- Codeword lock is confirmed after the exit of A1 (R201). -/
def execLowpwrExitLock (n : Fin 8) (s : State) : Host.Outcome State Fault Refusal :=
  .next (if s.tlState n.val = tlLowpwr ∧ !s.linksHeld then ((s.linkUp n.val).lineUnknown n.val).bcSend n.val (bcCmd bcPattern patFrames) else s)

/-- Lock is not regained within 100 µs (R201). -/
def execLowpwrRelockTimeout (n : Fin 8) (s : State) : Host.Outcome State Fault Refusal :=
  .next (if s.tlState n.val = tlLowpwr ∧ !s.linksHeld then s.linkDetect n.val else s)

/-- RETRAIN (R220). -/
def State.tlRetrain (s : State) (n : Nat) : State := if s.trainAllowed n then s.linkDetect n else s

def execTlRetrain (ini : Initiator) (n : Fin 8) (s : State) : Host.Outcome State Fault Refusal :=
  .next (s.command ini (TL_CTL.RETRAIN n.val).addr (fun s => s.tlRetrain n.val))

/-- EN falls: the receiver is powered down (R197). -/
def State.tlDisable (s : State) (n : Nat) : State :=
  if s.on (TL_CTL.EN n) then s
  else (s.setAll [(TL_STS.STATE n, tlOff), (TL_STS.CW_LOCK n, 0)]).modLink n (fun l =>
    { l.bcClear with retry := false, held := false })

/-- TLn_CNT_CLR (R220). -/
def State.tlCntClr (s : State) (n : Nat) : State :=
  s.setAll [(TL_FEC.CORR n, 0), (TL_FEC.UNCORR n, 0), (TL_FRM.APPLIED n, 0), (TL_FERR.CRC n, 0), (TL_FERR.LOST n, 0),
    (TL_VERR.BADFRM n, 0), (TL_VERR.UNMAPPED n, 0), (TL_VERR2.FMTERR n, 0), (TL_VERR2.NAN n, 0), (TL_TRY.LOS_CNT n, 0)]

def execTlCntClr (ini : Initiator) (n : Fin 8) (s : State) : Host.Outcome State Fault Refusal :=
  .next (s.command ini (TL_CNT_CLR.CLR n.val).addr (fun s => s.tlCntClr n.val))

/-- MAP_DONE, accepted from the Keepers only (R204). -/
def execMapDone (ini : Initiator) (s : State) : Host.Outcome State Fault Refusal :=
  .next (s.command ini TFAB_CTL.MAP_DONE.addr (fun s => if fromKeeper ini then s.set TFAB_STS.MAP_LOADED 1 else s))

/-- The enabled links are sent QUIET before the Bridge leaves UP for A2 (R201). -/
def State.linksQuiet (s : State) : State :=
  (List.range 8).foldl (fun s n => if s.on (TL_CTL.EN n) then s.bcSend n (bcCmd bcPattern patQuiet) else s) s

/-- The UP links go to LOWPWR at A1 entry (R201). -/
def State.linksSleep (s : State) : State := (List.range 8).foldl State.linkSleep s

end Sys2Proof.Machine
end

