-- ==== Sys2Proof/Machine/Clock.lean ====
section
/-! DEFINITION. Clocks (R67 to R89): the BASE source, the monitor's checks, CLKFAIL, return to the host reference, gaps in
BASE edges, the frequency counter, gating. What an IOSC start means to a cold POR or an A3 exit stands in
Machine/Power.lean. -/

namespace Sys2Proof.Machine

/-- BASE sources, coded as CLK_STS.BASE_SRC (R90). -/
def srcHost : Nat := 0
def srcIosc : Nat := 1
def srcLfo : Nat := 2
def srcStopped : Nat := 3

def State.modClk (s : State) (f : ClkSt → ClkSt) : State := { s with clk := f s.clk }

/-- The BASE source. -/
def State.baseSrc (s : State) : Nat := s.get CLK_STS.BASE_SRC

/-! ### Time (R24, R83) -/

/-- One LFO cycle in units of the counter: CLK_LFO_CAL, whose reset value is the nominal period (R83, R90). -/
def State.lfoCycle (s : State) : Nat := s.get CLK_LFO_CAL.PERIOD * 5

/-- A counted gap is added at the next BASE edge (R83), and Sillage's buckets gain what it covers (R422). -/
def State.gapAdd (s : State) : State :=
  let t0 := s.now
  let was := s.time.gap
  let s := { s with time := { s.time with ts := s.time.ts + s.time.gap, gap := 0, stalled := false } }
  if was = 0 then s else { s with sil := s.sil.gap (s.on SEQ_CTL.TEST) t0 s.now s.fb }

/-- What passes when no command waits: one BASE cycle; in A3 one LFO cycle; while BASE is stalled one cycle of the clock that
counts the gap (R24, R83; log entry 3). -/
def State.tickBase (s : State) : State :=
  if s.baseSrc = srcStopped then { s with time := { s.time with ts := s.time.ts + s.lfoCycle } }
  else if s.time.stalled then
    { s with time := { s.time with gap := s.time.gap + (if s.on CLK_STS.IOSC_RDY then 6400 else s.lfoCycle) } }
  else
    { s with time := { s.time with ts := s.time.ts +
        (if s.baseSrc = srcHost then 16384 else if s.baseSrc = srcIosc then 12800 else s.lfoCycle) } }

def execBaseClockStall (s : State) : Host.Outcome State Fault Refusal :=
  .next (if s.baseSrc = srcStopped then s else { s with time := { s.time with stalled := true } })

def execBaseClockResume (s : State) : Host.Outcome State Fault Refusal := .next (if s.time.stalled then s.gapAdd else s)

/-! ### The BASE source -/

/-- FMC clock codes whose source changes when BASE switches (R69, R85): the BASE island and what derives from it, the Top
reference and what derives from it. -/
def fmcOnBase (code : Nat) : Bool := [0x4, 0x5, 0x6, 0x7, 0x8, 0x9, 0xC, 0xE, 0xF].contains code

/-- FMC clock codes that need the Top die (R85). -/
def fmcOnTop (code : Nat) : Bool := [0x1, 0x6, 0x7, 0x8, 0x9, 0xA, 0xB, 0xC, 0xD].contains code

/-- A running measurement is disturbed when one of its clocks changes source (R86). -/
def State.fmcDisturb (s : State) (hit : Nat → Bool) : State :=
  s.setIf (s.on CLK_FMC_STS.BUSY && (hit (s.get CLK_FMC_CTL.MEAS) || hit (s.get CLK_FMC_CTL.REF))) CLK_FMC_STS.DISTURB 1

/-! ### NET ports and the host reference (R338) -/

/-- NETn_STS.STATE codes (R362). -/
def netOff : Nat := 0
def netAn : Nat := 1
def netTrain : Nat := 2
def netUp : Nat := 3
def netWait : Nat := 4
def netRef : Nat := 5

/-- A port begins auto-negotiation, or training without it (R337, R338). -/
def State.netBegin (s : State) (n : Nat) : State := s.set (NET_STS.STATE n) (if s.on (NET_CFG.AN n) then netAn else netTrain)

/-- A port that may train begins, or waits in REF for the host reference (R338). -/
def State.netGo (s : State) (n : Nat) : State :=
  if s.on (NET_CFG.EN n) && s.on (NET_CTL.START n) then
    if s.baseSrc = srcHost then s.netBegin n else s.set (NET_STS.STATE n) netRef
  else s

/-- NETn_CTL.START (R338, R362). -/
def State.netStart (s : State) (n : Nat) : State :=
  let s := s.set (NET_CTL.START n) 1
  if s.get (NET_STS.STATE n) = netOff then s.netGo n else s

/-- A port's link goes to another state; from UP that is a link loss (R362). -/
def State.netTo (s : State) (n st : Nat) : State :=
  let s := if s.get (NET_STS.STATE n) = netUp then (s.bump (NET_LINK.DOWN n)).setAll [(NET_STS.FEC_LOCK n, 0), (NET_STS.PMD_ACT n, 0)] else s
  s.set (NET_STS.STATE n) st

/-- BASE has left the host reference, or returned to it: the ports that may train wait in REF, or begin again (R70, R338). -/
def State.netFollow (s : State) (host : Bool) : State :=
  [0, 1].foldl (fun s n =>
    let st := s.get (NET_STS.STATE n)
    if st = netOff then s
    else if host then (if st = netRef then s.netBegin n else s)
    else s.netTo n netRef) s

/-- BASE switches its source (R69, R78, R83, R86): FB follows, a counted gap is added, safe mode shows in its status bits. A switch to
the source in force disturbs no measurement. -/
def State.baseTo (s : State) (src : Nat) : State :=
  let s := s.gapAdd.fmcDisturb (fun c => fmcOnBase c && s.baseSrc != src)
  let s := s.netFollow (src == srcHost)
  let was := s.safeMode
  let s := s.setAll [(CLK_STS.BASE_SRC, src), (CLK_STS.FB, b2n (src != srcHost)), (TAMP_STS.SAFE, b2n (src == srcLfo)),
    (SEQ_STS.HOLD, b2n (src == srcLfo)), (COOL_STS.F_SAFE, b2n (src == srcLfo))]
  if s.safeMode && !was then s.seqHold else if was && !s.safeMode then s.seqUnhold false else s

/-- The non-maskable interrupt of CLKFAIL (R77): both Keeper cores take it, and the Control cores while the Bridge is UP. It stands
until CLK_STS.CLKFAIL is cleared or the core is reset (log entry 49). -/
def State.clkNmi (s : State) : State :=
  { s with fw := { s.fw with nmi := s.fw.nmi ||| (if s.bridgeUp then 0x3F else 0x30) } }

/-- A CLKFAIL delivered (R77). EVT_CLKFAIL carries the time of detection; a late one has the record's LATE flag (R79, R415). -/
def State.clkfail (s : State) (r : ClkRec) (fb late : Bool) : State :=
  let s := (s.setAll [(CLK_STS.CLKFAIL, 1), (CLK_FAIL_INFO.CAUSE, r.cause), (CLK_FAIL_INFO.FAIL_FB, b2n fb),
    (CLK_FAIL_INFO.LAST_DEV, r.dev)]).bump CLK_FAIL_INFO.FAIL_CNT
  let s := (s.set64 CLK_FAIL_TS_LO.TS_LO CLK_FAIL_TS_HI.TS_HI r.ts).setIf late CLK_STS.FB_LATE 1
  let ev := s.eventOf EVT_CLKFAIL ACC_TRAY UNIT_CLK 0
    [(0, 1, r.cause), (1, 1, r.src), (2, 2, r.dev), (4, 4, r.count), (8, 1, s.get CLK_FAIL_INFO.FAIL_CNT)]
  s.clkNmi.admitEvent { ev with ts := r.ts, fb := fb, late := late }

/-- A CLKFAIL raised now. -/
def State.clkfailNow (s : State) (cause dev src count : Nat) : State :=
  s.clkfail { cause := cause, dev := dev, src := src, count := count, ts := s.now } s.fb false

/-- The pending CLKFAIL is delivered, late (R79). -/
def State.clkDeliver (s : State) : State :=
  match s.clk.pend with
  | none => s
  | some r => (s.modClk (fun c => { c with pend := none })).clkfail r true true

/-- LAST_DEV of causes 3 and 4: −100.00 % (R72). -/
def devNone : Nat := 0xD8F0

/-- The signed deviation of a count from num / den in 0.01 %, saturating (R90). DESIGN CHOICE: R90 does not say how the quotient is
rounded, and it is cut toward zero (log entry 17). -/
def devOf (count num den : Nat) : Nat :=
  if num = 0 then 0x7FFF
  else unsgn 16 (clampI (-32768) 32767 ((10000 * ((count * den : Nat) - (num : Int))).tdiv num))

/-- |count × den − num| within pct / 100 of num. -/
def within (count num den pct : Nat) : Bool := ((count * den : Nat) - (num : Int)).natAbs * 100 ≤ pct * num

/-- The good windows that a return needs (R90). -/
def State.retWin (s : State) : Nat := max 16 (s.get CLK_MON_CFG.RET_WIN)

/-- Does a check run (R74)? None runs in A3 (R78). -/
def State.checkRuns (s : State) (k : ClkCheck) : Bool :=
  let rdy := s.on CLK_STS.IOSC_RDY
  let bad := s.on CLK_STS.IOSC_BAD
  let cal := s.on CLK_STS.LFO_CAL_VALID
  s.baseSrc != srcStopped &&
    match k with
    | .h => rdy && (!bad || !cal)
    | .i => rdy
    | .c => cal && (!rdy || bad)

/-- The expected count of a check, as numerator and denominator (R74). -/
def State.checkExpect (s : State) (k : ClkCheck) : Nat × Nat :=
  match k with
  | .h => (800, 1)
  | .i => (4 * s.get CLK_LFO_CAL.PERIOD, 5)
  | .c => (5 * s.get CLK_LFO_CAL.PERIOD, 8192)

/-- The pass band of a check in percent (R74). -/
def State.checkBand (s : State) (k : ClkCheck) : Nat :=
  match k with
  | .i => if !s.on CLK_STS.LFO_CAL_VALID then 12 else if 1000000000 < s.now - s.clk.calTs then 5 else 2
  | _ => 2

/-- The selected host reference is there at all (R82): the recovered clock needs NET0's receiver. -/
def State.refPresent (s : State) : Bool := !s.on CLK_CTL.REF_SEL || s.clk.recovered

/-- A return to the host reference is allowed (R80, R81, R82). -/
def State.mayReturn (s : State) : Bool :=
  let passed := if s.baseSrc = srcIosc then s.retWin ≤ s.clk.passH else s.baseSrc = srcLfo && s.retWin ≤ s.clk.passC
  passed && s.refPresent && !s.on CLK_CTL.FORCE_IOSC
    && (s.clk.design || s.clk.restore || (s.on CLK_CTL.AUTO_RET && !s.on CLK_STS.AUTO_RET_OFF))

/-- BASE returns to the host reference (R80): FB falls and EVT_CLKRESTORE is logged. -/
def State.tryReturn (s : State) : State :=
  if s.mayReturn then
    let old := s.baseSrc
    let route := if s.clk.design then 2 else if s.clk.restore then 1 else 0
    ((s.baseTo srcHost).modClk (fun c => { c with design := false, restore := false })).log EVT_CLKRESTORE ACC_TRAY UNIT_CLK 0
      [(0, 1, old), (1, 1, route)]
  else s

/-- IOSC_BAD clears after RET_WIN passes of check I; a fallback exists again, and safe mode goes to IOSC (R76, R80). -/
def State.ioscGood (s : State) : State :=
  if s.on CLK_STS.IOSC_BAD && decide (s.retWin ≤ s.clk.passI) then
    let s := s.set CLK_STS.IOSC_BAD 0
    if s.baseSrc = srcLfo ∧ s.on CLK_STS.IOSC_RDY then s.baseTo srcIosc else s
  else s

/-- A fallback counts toward FLAP_MAX within 10 s (R81). -/
def State.flap (s : State) : State :=
  let l := s.clk.flaps.filter (fun t => s.now - t < 10000000000) ++ [s.now]
  let m := s.get CLK_MON_CFG.FLAP_MAX
  (s.modClk (fun c => { c with flaps := l })).setIf (m != 0 && decide (m ≤ l.length)) CLK_STS.AUTO_RET_OFF 1

/-- IOSC is judged bad (R76). -/
def State.ioscBad (s : State) : State := s.setAll [(CLK_STS.IOSC_BAD, 1), (CLK_STS.IOSC_BAD_SEEN, 1)]

/-- The selected source is absent by design, or FORCE_IOSC asks for IOSC (R82). -/
def State.byDesign (s : State) : Bool := s.on CLK_CTL.FORCE_IOSC || !s.refPresent

/-- A check fails (R76). A host reference that is absent by design raises no CLKFAIL (R82). -/
def State.checkFail (s : State) (k : ClkCheck) (count dev : Nat) : State :=
  let src := s.baseSrc
  match k with
  | .h =>
    let s := s.set CLK_STS.REF_OK 0
    if src = srcHost then
      let t := s.baseTo (if s.on CLK_STS.IOSC_BAD then srcLfo else srcIosc)
      if s.byDesign then t else (t.clkfailNow 1 dev src count).flap
    else s
  | .i =>
    let s := s.ioscBad
    if src = srcIosc then (s.baseTo srcLfo).clkfailNow 2 dev src count
    else if src = srcHost then s.clkfailNow 2 dev src count
    else s
  | .c =>
    let s := s.set CLK_STS.REF_OK 0
    if src ≠ srcHost then s
    else if s.byDesign then s.baseTo srcLfo
    else if s.on CLK_STS.IOSC_RDY then (s.baseTo srcLfo).clkfailNow 5 dev src count
    else
      let t := s.baseTo srcLfo
      t.modClk (fun c => { c with pend := some { cause := 5, dev := dev, src := src, count := count, ts := t.now } })

/-- The windows in a row of a check after a pass or a failing window. -/
def ClkSt.window (c : ClkSt) (k : ClkCheck) (pass : Bool) : ClkSt :=
  match k with
  | .h => { c with passH := if pass then c.passH + 1 else 0, failH := if pass then 0 else c.failH + 1 }
  | .i => { c with passI := if pass then c.passI + 1 else 0, failI := if pass then 0 else c.failI + 1 }
  | .c => { c with passC := if pass then c.passC + 1 else 0, failC := if pass then 0 else c.failC + 1 }

/-- Failing windows in a row of a check. -/
def ClkSt.fails (c : ClkSt) : ClkCheck → Nat
  | .h => c.failH
  | .i => c.failI
  | .c => c.failC

/-- The failing windows of a check forgotten. -/
def ClkSt.failReset (c : ClkSt) : ClkCheck → ClkSt
  | .h => { c with failH := 0 }
  | .i => { c with failI := 0 }
  | .c => { c with failC := 0 }

/-- The windows in a row of a check that does not run now are forgotten (R74, R75). -/
def State.checkIdle (s : State) : State :=
  s.modClk (fun c =>
    let c := if s.checkRuns .h then c else { c with passH := 0, failH := 0 }
    let c := if s.checkRuns .i then c else { c with passI := 0, failI := 0 }
    if s.checkRuns .c then c else { c with passC := 0, failC := 0 })

/-- A window closes (R74, R75, R77). -/
def State.checkWindow (s : State) (k : ClkCheck) (count : Nat) : State :=
  let s := s.checkIdle
  if s.checkRuns k then
    let e := s.checkExpect k
    let pass := within count e.1 e.2 (s.checkBand k)
    let s := match k with
      | .h => s.set CLK_HOST_CNT.COUNT (min 0xFFFF count)
      | .i => s.set CLK_IOSC_CNT.COUNT (min 0xFFFFFF count)
      | .c => s
    let s := s.modClk (fun c => c.window k pass)
    if pass then ((s.setIf (k != .i && s.refPresent) CLK_STS.REF_OK 1).ioscGood).tryReturn
    else if s.clk.fails k < 2 then s
    else (s.modClk (fun c => c.failReset k)).checkFail k count (devOf count e.1 e.2)
  else s

def execCheckWindowEnd (chk : ClkCheck) (count : Nat) (s : State) : Host.Outcome State Fault Refusal :=
  .next (s.checkWindow chk count)

/-- The LFO measured against the host reference, while that passes check H: the check runs and its last window passed (R73). -/
def execLfoCalibration (period : Fin 16777216) (s : State) : Host.Outcome State Fault Refusal :=
  .next (if s.checkRuns .h && s.on CLK_STS.REF_OK && decide (1 ≤ s.clk.passH) then
    (s.setAll [(CLK_LFO_CAL.PERIOD, period.val), (CLK_STS.LFO_CAL_VALID, 1)]).modClk (fun c => { c with calTs := s.now })
  else s)

/-! ### IOSC (R72, R76, R79) -/

/-- IOSC_RDY rises (R79, R80, R82): BASE leaves safe mode for a usable IOSC, or the host reference that it should have left by
design, and a pending CLKFAIL is delivered. -/
def State.ioscRise (s : State) : State :=
  let s := s.set CLK_STS.IOSC_RDY 1
  let s := s.modClk (fun c => { c with passI := 0, failI := 0 })
  let s := if s.baseSrc = srcLfo ∧ !s.on CLK_STS.IOSC_BAD then s.baseTo srcIosc else s
  let s := if s.baseSrc = srcHost ∧ s.byDesign then s.baseTo srcIosc else s
  s.clkDeliver

/-- IOSC has not started 2 ms after an enable (R72, R76): cause 4. Without the host reference BASE runs from the LFO, and a pending record
is delivered instead; on the host reference one that is still pending is delivered first (R79; log entry 17). -/
def State.ioscDead (s : State) : State :=
  let src := s.baseSrc
  let s := ((s.set CLK_STS.IOSC_DEAD 1).modClk (fun c => { c with iosc := false })).log EVT_IOSC_DEAD ACC_TRAY UNIT_CLK 0
  let s := if src = srcHost then s else s.baseTo srcLfo
  if s.clk.pend.isSome && src != srcHost then s.clkDeliver else s.clkDeliver.clkfailNow 4 devNone src 0

/-- IOSC delivers no edge for 2 LFO periods (R72, R76): IOSC_RDY falls and IOSC is enabled again. -/
def State.ioscStop (s : State) : State :=
  if s.on CLK_STS.IOSC_RDY then
    let src := s.baseSrc
    let s := (s.set CLK_STS.IOSC_RDY 0).modClk (fun c => { c with iosc := true })
    if src = srcIosc then (s.baseTo srcLfo).clkfailNow 3 devNone src 0
    else if src = srcHost then s.ioscBad.clkfailNow 3 devNone src 0
    else s
  else s

def execIoscStop (s : State) : Host.Outcome State Fault Refusal := .next s.ioscStop

/-! ### Return and planned fallback (R80 to R82) -/

/-- CLK_CTL.RESTORE (R80, R81). -/
def State.clkRestore (s : State) : State :=
  ((s.set CLK_STS.AUTO_RET_OFF 0).modClk (fun c => { c with restore := s.baseSrc != srcHost })).tryReturn

def execRestore (ini : Initiator) (s : State) : Host.Outcome State Fault Refusal :=
  .next (s.command ini CLK_CTL.RESTORE.addr State.clkRestore)

/-- BASE leaves the host reference by design (R82). -/
def State.toIoscByDesign (s : State) : State :=
  let s := s.modClk (fun c => { c with design := true })
  if s.baseSrc = srcHost ∧ s.on CLK_STS.IOSC_RDY then s.baseTo srcIosc else s

/-- CLK_CTL.FORCE_IOSC (R82). A force that ends before IOSC was ready has not moved BASE and leaves nothing to return from. -/
def State.clkForce (s : State) (on : Bool) : State :=
  let s := s.setB CLK_CTL.FORCE_IOSC on
  if on then s.toIoscByDesign
  else if s.baseSrc = srcHost then s.modClk (fun c => { c with design := !s.refPresent })
  else s.tryReturn

def execForceIosc (ini : Initiator) (on : Bool) (s : State) : Host.Outcome State Fault Refusal :=
  .next (s.command ini CLK_CTL.FORCE_IOSC.addr (fun s => s.clkForce on))

/-- REF_SEL has been written (R68, R82): the recovered clock that is not yet the host reference is absent by design, and BASE leaves
HOSTCLK for IOSC; back at HOSTCLK the recovered clock is given up, and the windows of the checks start again. -/
def State.refFollow (s : State) : State :=
  if s.on CLK_CTL.REF_SEL then (if s.clk.recovered then s else s.toIoscByDesign)
  else if s.clk.recovered then
    s.modClk (fun c => { c with recovered := false, passH := 0, passC := 0, failH := 0, failC := 0 })
  else s

/-- NET0's receiver can lock: the Top die is powered and out of reset, and the started port waits in REF (R68, R82, R338). -/
def State.net0Receives (s : State) : Bool := s.pwr.toppwrGood && !s.pwr.topRst && s.get (NET_STS.STATE 0) == netRef

/-- NET0's receiver has locked: its recovered clock is the host reference from now on (R68). -/
def execRecoveredClockSwitch (s : State) : Host.Outcome State Fault Refusal :=
  .next (if s.on CLK_CTL.REF_SEL && !s.clk.recovered && s.net0Receives then
    s.modClk (fun c => { c with recovered := true, design := true, passH := 0, passC := 0, failH := 0, failC := 0 })
  else s)

/-- The Top die is unpowered or in reset: a recovered clock is gone, by design (R82). -/
def State.recoveredLost (s : State) : State :=
  let s := s.modClk (fun c => { c with recovered := false })
  if s.on CLK_CTL.REF_SEL then s.toIoscByDesign else s

/-! ### The frequency counter (R85, R86) -/

/-- A write of CLK_FMC_CTL (R86, R90). DESIGN CHOICE (log entry 12): a write with both strobes serves ABORT first and then starts a
measurement; the spec gives no order. -/
def State.fmcWrite (s : State) (w : Nat) : State :=
  let s := s.setAll [(CLK_FMC_CTL.MEAS, bitsOf w 0 4), (CLK_FMC_CTL.REF, bitsOf w 4 4), (CLK_FMC_CTL.GATE, bitsOf w 8 5),
    (CLK_FMC_CTL.TL_SEL, bitsOf w 13 3)]
  let s := if bitOf w 17 then s.set CLK_FMC_STS.BUSY 0 else s
  if bitOf w 16 && !s.on CLK_FMC_STS.BUSY then
    s.setAll [(CLK_FMC_STS.BUSY, 1), (CLK_FMC_STS.DISTURB, 0), (CLK_FMC_STS.NOCLK, 0)]
  else s

def execFmcStart (ini : Initiator) (word : Word) (s : State) : Host.Outcome State Fault Refusal :=
  .next (s.command ini CLK_FMC_CTL.START.addr (fun s => s.fmcWrite word.toNat))

def execFmcAbort (ini : Initiator) (s : State) : Host.Outcome State Fault Refusal :=
  .next (s.command ini CLK_FMC_CTL.ABORT.addr (fun s => s.set CLK_FMC_STS.BUSY 0))

/-- The gate ends (R85, R86). -/
def State.fmcDone (s : State) (count : Nat) : State :=
  if s.on CLK_FMC_STS.BUSY then
    s.setAll [(CLK_FMC_STS.BUSY, 0), (CLK_FMC_STS.DONE, 1), (CLK_FMC_STS.NOCLK, b2n (count == 0)),
      (CLK_FMC_CNT_LO.CNT_LO, count), (CLK_FMC_CNT_HI.CNT_HI, count / 2 ^ 32)]
  else s

def execFmcDone (count : Nat) (s : State) : Host.Outcome State Fault Refusal := .next (s.fmcDone count)

/-- No reference edge for 2 LFO periods (R86): the count is not valid, so it is a free value. -/
def State.fmcNoclk (s : State) : State :=
  if s.on CLK_FMC_STS.BUSY then
    let v := Config.free s.fresh
    s.draw.setAll [(CLK_FMC_STS.BUSY, 0), (CLK_FMC_STS.DONE, 1), (CLK_FMC_STS.NOCLK, 1), (CLK_FMC_CNT_LO.CNT_LO, v),
      (CLK_FMC_CNT_HI.CNT_HI, v / 2 ^ 32)]
  else s

def execFmcNoclk (s : State) : Host.Outcome State Fault Refusal := .next s.fmcNoclk

/-! ### Gating (R87 to R89) -/

/-- A bit of a 10-bit field set to b. -/
def State.setBit (s : State) (f : Fld) (i : Nat) (b : Bool) : State := s.set f (setBitOf (s.get f) i b)

/-- 1 written to a request bit (R87, R89): the handshake starts; written again it has no further effect. -/
def State.gateRequest (s : State) (d : Nat) : State := s.setBit CLK_GATE_REQ.REQ d true

/-- 0 written to a request bit (R88, R89): a gated clock restarts, a handshake ends. Domain 4 leaves self-refresh. -/
def State.gateRelease (s : State) (d : Nat) : State :=
  let s := (s.setIf (d == 4 && s.gated 4) LPC_STS.SELF_REFRESH 0).portGo d
  (s.setBit CLK_GATE_REQ.REQ d false).setBit CLK_GATE_STS.GATED d false

def execGateRequest (ini : Initiator) (d : Fin 10) (s : State) : Host.Outcome State Fault Refusal :=
  .next (s.command ini CLK_GATE_REQ.REQ.addr (fun s => s.gateRequest d.val))

/-- 0 written to a domain's bit: it acts on a gated clock and on a handshake alike (R88, R89). -/
def State.gateZero (s : State) (d : Nat) : State :=
  if bitOf (s.get CLK_GATE_REQ.REQ) d then s.gateRelease d else s

def execGateRelease (ini : Initiator) (d : Fin 10) (s : State) : Host.Outcome State Fault Refusal :=
  .next (s.sendBegin.command ini CLK_GATE_REQ.REQ.addr (fun s => s.gateZero d.val))

def execGateAbort (ini : Initiator) (d : Fin 10) (s : State) : Host.Outcome State Fault Refusal :=
  .next (s.sendBegin.command ini CLK_GATE_REQ.REQ.addr (fun s => s.gateZero d.val))

/-- A write of CLK_GATE_REQ: each bit starts, keeps or ends its domain's gate. -/
def State.gateWrite (s : State) (w : Nat) : State :=
  (List.range 10).foldl (fun s d =>
    if bitOf w d then s.gateRequest d else s.gateZero d) s

/-- The port is not idle in time (R87). -/
def State.gateRefused (s : State) (d : Nat) : State :=
  if s.gateAsked d then
    (((s.portGo d).setBit CLK_GATE_REQ.REQ d false).setBit CLK_GATE_BUSY.GATE_BUSY d true).log EVT_GATE_BUSY ACC_TRAY UNIT_CLK 0 [(0, 1, d)]
  else s

def execGateRefused (d : Fin 10) (s : State) : Host.Outcome State Fault Refusal := .next (s.sendBegin.gateRefused d.val)

end Sys2Proof.Machine
end

