-- ==== Sys2Proof/Machine/Fields.lean ====
section
/-! DEFINITION. The register map read by address: which fields a register address holds (R9, R20), and writes of whole
words into fields of chosen access codes. -/

namespace Sys2Proof.Machine

/-- The rows of the block that an address lies in (R18, R20). The last rows of COOL and of the other blocks are the
register tables of their chapters. -/
def rowsAt (a : Nat) : List RegRow :=
  match a / 0x10000 with
  | 0x2000 => rowsCLK
  | 0x2001 => rowsPWRST
  | 0x2002 => rowsSEQ
  | 0x2003 => rowsTAMP
  | 0x2004 => rowsCOOL
  | 0x2005 => rowsTW
  | 0x2006 => rowsSIL
  | 0x2007 => rowsACD
  | 0x2008 => rowsKEY
  | 0x2009 => rowsBRG
  | 0x200A => rowsKPR
  | 0x14000 => rowsFW
  | 0x20000 => rowsINF
  | 0x30000 => rowsNET
  | 0x30001 => rowsNET
  | 0x30002 => rowsSES ++ rowsHNT
  | 0x30010 => rowsSESS
  | 0x40010 => rowsTFAB
  | 0x40080 => rowsLPC
  | 0x50000 => rowsSEC
  | 0x50001 => rowsSVC
  | p => if 0x40000 ≤ p ∧ p ≤ 0x40007 then rowsTL else []

/-- An offset that the instance numbers of a row reach. -/
def dimsHit : List (Nat × Nat) → Nat → Bool
  | [], o => o == 0
  | [(c, st)], o => o % st == 0 && o / st < c
  | (c, st) :: t, o => (List.range c).any (fun i => i * st ≤ o && dimsHit t (o - i * st))

/-- The fields of the register at an address. -/
def fieldsAt (a : Nat) : List Fld :=
  (rowsAt a).filterMap (fun r =>
    if r.fld.addr ≤ a && dimsHit r.dims (a - r.fld.addr) then some { r.fld with addr := a } else none)

/-- The bits of a register that its fields hold. -/
def fieldMask (fs : List Fld) : Nat := fs.foldl (fun m f => m ||| (2 ^ f.w - 1) * 2 ^ f.lo) 0

/-- The word that a register file shows at an address: fields in their places, reserved bits 0 (R9, R10). -/
def wordOf (r : List (Nat × Nat)) (a : Nat) : Nat := (fieldsAt a).foldl (fun v f => v + regGet r f * 2 ^ f.lo) 0

/-- The masked bits of a word set into the fields of the listed access codes, the other bits unchanged (R49). -/
def pokeWord (accs : List Acc) (r : List (Nat × Nat)) (a mask val : Nat) : List (Nat × Nat) :=
  (fieldsAt a).foldl (fun r f =>
    if accs.contains f.acc then
      let m := bitsOf mask f.lo f.w
      regSet r f (maskOf f.w (fun i => if bitOf m i then bitOf val (f.lo + i) else bitOf (regGet r f) i))
    else r) r

/-- The fields of a register file without those that p holds of. -/
def regsDrop (p : Nat → Bool) (r : List (Nat × Nat)) : List (Nat × Nat) := r.filter (fun e => !p (e.1 / 32))

/-- A file's fields laid over another's: a listed field wins, and one at its reset value is not listed. -/
def regsOver (upper base : List (Nat × Nat)) : List (Nat × Nat) := upper.foldl (fun r e => put e.1 e.2 r) base

/-- Every row of the map. -/
def allRows : List RegRow :=
  rowsCLK ++ rowsPWRST ++ rowsSEQ ++ rowsTAMP ++ rowsCOOL ++ rowsTW ++ rowsSIL ++ rowsACD ++ rowsKEY ++ rowsBRG ++ rowsKPR
    ++ rowsFW ++ rowsINF ++ rowsNET ++ rowsSES ++ rowsHNT ++ rowsSESS ++ rowsTL ++ rowsTFAB ++ rowsLPC ++ rowsSEC ++ rowsSVC

/-- The field that a key stands for. -/
def fieldOfKey (k : Nat) : Option Fld := (fieldsAt (k / 32)).find? (fun f => f.lo == k % 32)

/-- A key of the register file belongs to a field of the class on the die (R110). -/
def keyClass (k : Nat) (onBase : Bool) (cls : Ret) : Bool :=
  (regionOf (k / 32)).onBase == onBase && ((fieldOfKey k).map (·.ret)) == some cls

/-- The register file after the fields of the classes on a die have returned to their reset values (R110). -/
def regsLose (onBase : Bool) (cs : List Ret) (r : List (Nat × Nat)) : List (Nat × Nat) :=
  r.filter (fun e => !cs.any (keyClass e.1 onBase))

/-- What a reset or state change loses of the register fields (R110). -/
def State.lose (s : State) (onBase : Bool) (cs : List Ret) : State := { s with regs := regsLose onBase cs s.regs }

end Sys2Proof.Machine
end

