-- ==== Sys2Proof/Machine/Image.lean ====
section
/-! DEFINITION. Signed images (R50, R370, R383 to R386): header, chunk hash table, body and trailer, the order of the
checks, and the header of firmware bodies (R398). -/

namespace Sys2Proof.Machine

/-- SHA-384 as 48 bytes. -/
def sha (bs : List Byte) : List Byte := padTo 48 (Config.sha384 bs)

/-- The header fields of R384. -/
def imgType (img : List Byte) : Nat := leAt img 10 2
def imgSlot (img : List Byte) : Nat := leAt img 17 1
def imgArb (img : List Byte) : Nat := leAt img 20 4
def imgBodyLen (img : List Byte) : Nat := leAt img 24 4
def imgChunks (img : List Byte) : Nat := leAt img 28 4
def imgSetFmt (img : List Byte) : Nat := leAt img 48 2
def imgPslot (img : List Byte) : Nat := leAt img 50 1
def imgName (img : List Byte) : List Byte := slice img 64 64

/-- Header and chunk hash table: what the image digest and both signatures cover (R50, R383). -/
def imgHead (img : List Byte) : List Byte := img.take (2560 + 48 * imgChunks img)

/-- The image digest (R50, R383). -/
def imgDigest (img : List Byte) : List Byte := sha (imgHead img)

/-- The body. -/
def imgBody (img : List Byte) : List Byte := slice img (2560 + 48 * imgChunks img) (imgBodyLen img)

/-- SIG_OFS and the image length (R383). -/
def imgSigOfs (img : List Byte) : Nat := (2560 + 48 * imgChunks img + imgBodyLen img + 15) / 16 * 16
def imgLen (img : List Byte) : Nat := imgSigOfs img + 3376

/-- Bytes [o, o + n) are zero. -/
def zeroAt (bs : List Byte) (o n : Nat) : Bool := (slice bs o n).all (· == 0)

/-- The largest body of an image type (R385); 0 for a type that is not used. -/
def bodyMax (type : Nat) : Nat := [0, 2064384, 458752, 8126464, 10813440].getD type 0

/-- ASCII "IHLT8IMG". -/
def imgMagic : List Byte := [0x49, 0x48, 0x4C, 0x54, 0x38, 0x49, 0x4D, 0x47]

/-- ASCII "T8IMG1": what the signed message of an image begins with (R370). -/
def imgSignTag : List Byte := [0x54, 0x38, 0x49, 0x4D, 0x47, 0x31]

/-- The info strings of the derivation (R365): "T8ID ed25519", "T8ID mldsa65", "T8ID floor". -/
def keyInfos : List (List Byte) := [
  [0x54, 0x38, 0x49, 0x44, 0x20, 0x65, 0x64, 0x32, 0x35, 0x35, 0x31, 0x39],
  [0x54, 0x38, 0x49, 0x44, 0x20, 0x6D, 0x6C, 0x64, 0x73, 0x61, 0x36, 0x35],
  [0x54, 0x38, 0x49, 0x44, 0x20, 0x66, 0x6C, 0x6F, 0x6F, 0x72]]

/-- A derived key of the key store: 0 the Ed25519 seed, 1 the ML-DSA-65 seed, 2 the floor key (R365). -/
def State.deviceKey (s : State) (k : Nat) : List Byte := s.key.derived.getD k []

/-- The device identity keys' signatures for a message, and their public keys (R365, R366). -/
def State.deviceSign (s : State) (n : Nat) (msg : List Byte) : List Byte := Config.seedSign (s.deviceKey 0) (s.deviceKey 1) n msg

def State.devicePub (s : State) : List Byte := Config.seedPub (s.deviceKey 0) (s.deviceKey 1)

/-- The unit identifier (R368). -/
def State.unitId (s : State) : List Byte := (List.range 4).flatMap (fun k => leBytes 4 (s.get (KEY_UNIT.UID k)))

/-- The stepping (R8). -/
def State.stepping (s : State) : Nat := s.get KEY_DEVID.STEPPING

/-- An owner-key slot is usable (R369). -/
def State.slotUsable (s : State) (k : Nat) : Bool := bitOf (s.get KEY_OWNER.VALID) k && !bitOf (s.get KEY_OWNER.RETIRED) k

/-- Both owner signatures of a pair verify under the public keys (R370). -/
def bothVerify (ed ml msg sig : List Byte) : Bool :=
  Config.ed25519 ed msg (sig.take 64) && Config.mldsa65 ml msg (slice sig 64 3309)

/-- The digest in OTP of an owner-key slot (R369). -/
def State.otpDigest (s : State) (k : Nat) : List Byte := padTo 48 ((look k s.otp.digests).getD [])

/-- Every chunk hashes as its entry of a table says (R50). -/
def chunksMatch (table body : List Byte) (n : Nat) : Bool :=
  (List.range n).all (fun i => sha (slice body (4096 * i) 4096) == slice table (48 * i) 48)

/-- The chunk table of an image. -/
def imgTable (img : List Byte) : List Byte := slice img 2560 (48 * imgChunks img)

/-- The lengths of an image are consistent (R383, R385). A delivered image is exactly as long as its header says; in flash
at least that much is there. -/
def imgLengthsOk (img : List Byte) (delivered : Bool) : Bool :=
  1 ≤ imgBodyLen img && imgBodyLen img ≤ bodyMax (imgType img) && imgChunks img == (imgBodyLen img + 4095) / 4096
    && (if delivered then img.length == imgLen img else imgLen img ≤ img.length)

/-- The check order of R386: 0 when an image passes, else the code of the first failure. From flash the key-slot test is
that of R371. `content` is the check of R385. -/
def State.imgCheck (s : State) (img : List Byte) (delivered content : Bool) : Nat :=
  let msg := imgSignTag ++ imgDigest img
  let sig := slice img (imgSigOfs img) 3373
  if img.take 8 != imgMagic || leAt img 8 2 != 1 || leAt img 18 2 / 2 != 0 || !zeroAt img 51 1 || !zeroAt img 56 8
      || !zeroAt img 128 384 || !zeroAt img 2496 64 then 0x1
  else if leAt img 12 4 != 0x8420 || leAt img 16 1 != s.stepping then 0x2
  else if (if bitOf (leAt img 18 2) 0 then slice img 32 16 != s.unitId else !zeroAt img 32 16) then 0x3
  else if bodyMax (imgType img) == 0 || (if imgType img = 4 then 15 else 0) < imgPslot img then 0x4
  else if imgArb img < s.get (KEY_FLOOR.FLOOR (imgType img - 1)) then 0x5
  else if !imgLengthsOk img delivered then 0x6
  else if (if delivered then imgSlot img != s.get KEY_OWNER.ACTIVE else !s.slotUsable (imgSlot img))
      || sha (slice img 512 1984) != s.otpDigest (imgSlot img) then 0x7
  else if !Config.ed25519 (slice img 512 32) msg (sig.take 64) then 0x8
  else if !Config.mldsa65 (slice img 544 1952) msg (slice sig 64 3309) then 0x9
  else if !chunksMatch (imgTable img) (imgBody img) (imgChunks img) then 0xA
  else if !content then 0xB
  else 0x0

/-- The settings-format rule of R385 for the image types without a content check of their own. -/
def imgSetFmtOk (img : List Byte) : Bool := imgType img == 1 || imgType img == 3 || imgSetFmt img == 0

/-- The header of a firmware body (R398): load offset, text, data and zeroed lengths, entry. -/
def fwLoadOfs (b : List Byte) : Nat := leAt b 8 4
def fwText (b : List Byte) : Nat := leAt b 12 4
def fwData (b : List Byte) : Nat := leAt b 16 4
def fwZero (b : List Byte) : Nat := leAt b 20 4

/-- The loader's checks of R398. -/
def fwBodyOk (keeper : Bool) (b : List Byte) : Bool :=
  let last := fwLoadOfs b + fwText b + fwData b + fwZero b
  b.take 4 == (if keeper then [0x5A, 0x48, 0x42, 0x4B] else [0x5A, 0x48, 0x42, 0x43]) && leAt b 4 2 == 1
    && (!keeper || leAt b 6 2 == 0) && fwLoadOfs b % 4096 == 0 && fwText b % 4096 == 0 && 4096 ≤ fwText b
    && leAt b 24 4 < fwText b && leAt b 28 2 ≤ 256 && zeroAt b 30 34
    && b.length == 64 + fwText b + fwData b && last ≤ (if keeper then 0x80000 else 0x1800000)
    && (keeper || Config.fwRoom (fwLoadOfs b) last)

/-- A firmware image in flash verifies (R388, R398): the code of the first failed check of R386, or 0xB when the loader's
own checks fail. -/
def State.fwCheck (s : State) (keeper : Bool) (slot : Nat) : Nat :=
  match look slot s.flash with
  | none => 0x1
  | some img =>
    let e := s.imgCheck img false (imgSetFmtOk img)
    if e ≠ 0 then e
    else if imgType img ≠ (if keeper then 2 else 3) then 0x4
    else if fwBodyOk keeper (imgBody img) then 0 else 0xB

/-- Memory with a firmware body loaded: text and data copied, the rest zeroed (R399, R400). -/
def fwLoad (m : List Host.Cell) (base : Nat) (b : List Byte) : List Host.Cell :=
  let a := base + fwLoadOfs b
  let n := fwText b + fwData b
  memStore (memForget m (a + n) (a + n + fwZero b)) a (slice b 64 n)

end Sys2Proof.Machine
end

