-- ==== Sys2Proof/Machine/Records.lean ====
section
/-! DEFINITION. The records of an Accord body (R42 to R49): splitting the body, the form of each record, and the register
values that a set of records asks for. What the checks find is a list of (FAIL_STEP, FAIL_REC). -/

namespace Sys2Proof.Machine

/-- A record: its index, type, CRITICAL bit, body, and its bytes with header and padding (R43). -/
structure ARec where
  idx : Nat
  type : Nat
  critical : Bool
  body : List Byte
  raw : List Byte
deriving DecidableEq, Repr

/-- A failed check: FAIL_STEP and FAIL_REC (R66). -/
abbrev Fail := Nat × Nat

/-- FAIL_REC when the failure is in no record. -/
def noRec : Nat := 0xFFFF

/-- A failure under a condition. -/
def failIf (c : Bool) (step recNo : Nat) : List Fail := if c then [(step, recNo)] else []

/-- The records of a body, and the syntax failures met on the way; `n` bounds their number (R42, R43). DESIGN CHOICE: a header with a
reserved FLAGS bit set, which R43 gives as 0, is refused with FAIL_STEP 0x4 like other record syntax (log entry 33). -/
def splitRecs : Nat → Nat → List Byte → List ARec × List Fail
  | 0, _, _ => ([], [(4, noRec)])
  | n + 1, i, bs =>
    if bs.length < 8 then ([], [(4, if bs.isEmpty then noRec else i)])
    else
      let len := leAt bs 4 4
      let tot := (8 + len + 7) / 8 * 8
      let r : ARec :=
        { idx := i, type := leAt bs 0 2, critical := bitOf (leAt bs 2 2) 0, body := slice bs 8 len, raw := bs.take tot }
      let bad := failIf (leAt bs 2 2 / 2 != 0 || bs.length < tot || !zeroAt bs (8 + len) (tot - 8 - len)) 4 i
      if !bad.isEmpty then ([r], bad)
      else if r.type = 0xFFFF then ([r], failIf (len != 0 || bs.length != tot) 4 i)
      else
        let t := splitRecs n (i + 1) (bs.drop tot)
        (r :: t.1, t.2)

def recsOf (body : List Byte) : List ARec × List Fail := splitRecs (body.length / 8 + 1) 0 body

/-- The record types of R42 that may occur at most once. -/
def onceTypes : List Nat :=
  [0x0001, 0x0010, 0x0020, 0x0030, 0x0031, 0x0040, 0x0050, 0x0051, 0x0052, 0x0053, 0x0054, 0x0058, 0x0060, 0x0070, 0x0080]

/-- A type that R42 lists. -/
def knownType (t : Nat) : Bool := onceTypes.contains t || t == 0x0011 || t == 0xFFFF

/-- The types that R42 classes boot. -/
def bootTypes : List Nat := [0x0001, 0x0010, 0x0011, 0x0020, 0x0030, 0x0040, 0x0053, 0x0054, 0x0058]

/-- The first record of a type. -/
def recOfType (rs : List ARec) (t : Nat) : Option ARec := rs.find? (fun r => r.type == t)

/-- The body of the record of a type; empty when the type is absent. -/
def bodyOf (rs : List ARec) (t : Nat) : List Byte := ((recOfType rs t).map (·.body)).getD []

/-- The index of the record of a type. -/
def idxOf (rs : List ARec) (t : Nat) : Nat := ((recOfType rs t).map (·.idx)).getD noRec

/-- The n-byte entries of a body from an offset on. -/
def entriesFrom (bs : List Byte) (o n : Nat) : List (List Byte) :=
  (List.range ((bs.length - o) / n)).map (fun i => slice bs (o + n * i) n)

/-- No value stands twice in a list. -/
def noDup : List Nat → Bool
  | [] => true
  | x :: t => !t.contains x && noDup t

/-- Strictly ascending. -/
def rising : List Nat → Bool
  | [] => true
  | [_] => true
  | a :: b :: t => a < b && rising (b :: t)

/-- Records out of place: a first record that is not ACCORD_INFO, a type met twice, a settings record, an unknown critical
record (R42, R43, R44). -/
def orderFails (rs : List ARec) : List Fail :=
  failIf ((rs.head?.map (·.type)) != some 1) 4 0
    ++ rs.flatMap (fun r =>
        failIf (onceTypes.contains r.type && rs.any (fun q => q.idx < r.idx && q.type == r.type)) 4 r.idx
          ++ failIf (!knownType r.type && (r.critical || (0x8000 ≤ r.type && r.type ≤ 0x8FFF))) 4 r.idx)

/-- ACCORD_INFO (R44). -/
def infoFails (rs : List ARec) : List Fail :=
  let b := bodyOf rs 1
  failIf (b.length != 48 || leAt b 0 2 != 1 || leAt b 4 1 < 1 || 8 < leAt b 4 1 || !zeroAt b 5 1
    || !([0, 8, 16, 32, 64].contains (leAt b 6 2)) || !zeroAt b 12 4) 4 (idxOf rs 1)

/-! ### PIN_XBAR (R45 to R48) -/

/-- How many functions a crossbar class has; 0 for a class that is not listed (R46). -/
def xbarCount (cls : Nat) : Nat := [0, 64, 64, 16, 24, 24, 6, 6, 6, 8, 12, 12, 8].getD cls 0

/-- The classes whose functions are inputs (R46). -/
def xbarInput (cls : Nat) : Bool := [2, 5, 7, 8, 0xB, 0xC].contains cls

/-- The crossbar entries: ball, function, pad. -/
def xbarOf (rs : List ARec) : List (Nat × Nat × Nat) :=
  (entriesFrom (bodyOf rs 0x10) 0 8).map (fun e => (leAt e 0 2, leAt e 2 2, leAt e 4 1))

def xbarFails (rs : List ARec) : List Fail :=
  let b := bodyOf rs 0x10
  let i := idxOf rs 0x10
  let x := xbarOf rs
  failIf (b.length % 8 != 0 || x.any (fun e => 255 < e.1)) 4 i
    ++ failIf ((entriesFrom b 0 8).any (fun e => !zeroAt e 5 3)
        || x.any (fun e => bitsOf e.2.2 0 2 == 3 || e.2.2 / 16 != 0 || xbarCount (e.2.1 / 256) ≤ e.2.1 % 256
            || (xbarInput (e.2.1 / 256) && bitOf e.2.2 2))
        || !noDup (x.map (·.1)) || !noDup (x.map (·.2.1))) 6 i

/-! ### Records that set registers (R49, R242, R309, R334) -/

/-- The registers that a record of a type owns: first address and the (count, stride) of its instances. -/
def ownedRegs : Nat → List (Nat × List (Nat × Nat))
  | 0x30 => [(0x20031000, [(256, 0x20)]), (0x20030200, [(64, 4)]), (0x20030300, [(64, 4)]), (0x20030400, [(32, 0x20)]),
      (0x20030404, [(32, 0x20), (4, 4)])]
  | 0x31 => [(0x20030000, []), (0x20031000, [(256, 0x20)]), (0x20031004, [(256, 0x20)]), (0x20031008, [(256, 0x20)]),
      (0x2003100C, [(256, 0x20)]), (0x20031010, [(256, 0x20)]), (0x20030300, [(64, 4)]), (0x200300A0, [(8, 4)])]
  | 0x50 => [(0x20040040, [(8, 16)]), (0x20040100, [(8, 32), (8, 4)]), (0x20040400, [(24, 32)]), (0x20040404, [(24, 32)]),
      (0x20040408, [(24, 32)])]
  | 0x51 => [(0x20040200, [(16, 8)]), (0x20040204, [(16, 8)])]
  | 0x52 => [(0x20040800, [(6, 32)]), (0x20040804, [(6, 32)]), (0x20040808, [(6, 32)]), (0x2004080C, [(6, 32)]),
      (0x20040A00, [(6, 8)])]
  | 0x53 => [(0x20040B00, [(16, 16)]), (0x20040B04, [(16, 16)]), (0x20040B08, [(16, 16)])]
  | 0x54 => [(0x20040008, []), (0x20040014, [])]
  | 0x58 => [(0x20050000, [(12, 0x1000)]), (0x20050004, [(12, 0x1000)]), (0x20050008, [(12, 0x1000)]),
      (0x2005000C, [(12, 0x1000)])]
  | 0x80 => [(0x20040C00, [(32, 16)]), (0x20040C04, [(32, 16)])]
  | _ => []

/-- The record types that own registers. -/
def ownerTypes : List Nat := [0x30, 0x31, 0x50, 0x51, 0x52, 0x53, 0x54, 0x58, 0x80]

/-- A record of the type owns the register at an address. -/
def ownsReg (type a : Nat) : Bool := (ownedRegs type).any (fun r => r.1 ≤ a && dimsHit r.2 (a - r.1))

/-- The block that OFFSET of a record's entries counts from. -/
def recBase : Nat → Nat
  | 0x30 | 0x31 => 0x20030000
  | 0x58 => 0x20050000
  | _ => 0x20040000

/-- The access codes of the fields that a record sets: RWT for TAMP_LIMIT, RWA for the others (R242, R309, R334). -/
def recAcc (type : Nat) : List Acc := if type = 0x31 then [.rwt] else [.rwa]

/-- Where the register entries of a record begin: after the vendor keys in CONSUMABLE (R309). -/
def entryStart (type : Nat) (b : List Byte) : Nat := if type = 0x80 then 4 + 1984 * leAt b 0 4 else 0

/-- The (address, value) entries of a register record. -/
def regEntries (rs : List ARec) (type : Nat) : List (Nat × Nat) :=
  let b := bodyOf rs type
  (entriesFrom b (entryStart type b) 8).map (fun e => (recBase type + leAt e 0 2, leAt e 4 4))

/-- The bits of a register that fields of the access codes hold. -/
def accMask (accs : List Acc) (a : Nat) : Nat := fieldMask ((fieldsAt a).filter (fun f => accs.contains f.acc))

/-- The form of a register record (R242, R309, R334). -/
def regRecFails (rs : List ARec) (type : Nat) : List Fail :=
  match recOfType rs type with
  | none => []
  | some r =>
    let st := entryStart type r.body
    let es := regEntries rs type
    failIf ((type == 0x80 && (r.body.length < 4 || 4 < leAt r.body 0 4)) || r.body.length < st || (r.body.length - st) % 8 != 0
      || (entriesFrom r.body st 8).any (fun e => !zeroAt e 2 2)
      || es.any (fun e => !ownsReg type e.1 || e.2 &&& accMask (recAcc type) e.1 != e.2)
      || !noDup (es.map (·.1))) 4 r.idx

/-- One RWT field's new value is as tight as the old one or tighter (R239). `below` is DIR of the comparator. -/
def rwtTighter (f : Fld) (below : Bool) (old new : Nat) : Bool :=
  let o := f.addr - 0x20030000
  if o = 0 then new ≤ old
  else if 0xA0 ≤ o ∧ o < 0xC0 then (if f.lo = 0 then new ≤ old else old ≤ new)
  else if 0x300 ≤ o ∧ o < 0x400 then (if f.lo = 0 then new ≤ old else old ≤ new)
  else if 0x1000 ≤ o then
    let reg := (o - 0x1000) % 0x20
    if reg = 0 then (if f.lo = 24 then new ≤ old else old ≤ new)
    else if reg = 0x10 then old ≤ new
    else if below then sgn 16 old ≤ sgn 16 new
    else sgn 16 new ≤ sgn 16 old
  else new ≤ old

/-- DIR of the comparator that a TAMP register belongs to. -/
def rwtBelow (r : List (Nat × Nat)) (a : Nat) : Bool :=
  0x20031000 ≤ a && regGet r (TAMP_CMP_CFG.DIR ((a - 0x20031000) / 0x20)) == 1

/-- The fields that a write of TAMP_CMP_CFG gives before its own when it changes DIR: the loosest limits of the new direction, no
level enabled (R239). -/
def dirChange (k d : Nat) : List (Fld × Nat) :=
  let lim := if d = 0 then 0x7FFF else 0x8001
  [(TAMP_LIM_AMB.LIM k, lim), (TAMP_LIM_RED.LIM k, lim), (TAMP_LIM_BLK.LIM k, lim), (TAMP_CMP_CFG.AMB_EN k, 0),
    (TAMP_CMP_CFG.RED_EN k, 0), (TAMP_CMP_CFG.BLK_EN k, 0)]

/-- The comparator and the new direction of a write of TAMP_CMP_CFG that changes DIR (R239). -/
def dirChanged (r : List (Nat × Nat)) (a w : Nat) : Option (Nat × Nat) :=
  match instOf TAMP_CMP_CFG.DIR 256 a with
  | none => none
  | some k => if regGet r (TAMP_CMP_CFG.DIR k) = bitsOf w 9 1 then none else some (k, bitsOf w 9 1)

/-- An entry of TAMP_NET: the RWA fields of its register, after what a change of DIR does (R239, R242). -/
def pokeNet (r : List (Nat × Nat)) (e : Nat × Nat) : List (Nat × Nat) :=
  let r := match dirChanged r e.1 e.2 with
    | none => r
    | some (k, d) => (dirChange k d).foldl (fun r p => regSet r p.1 p.2) r
  pokeWord [.rwa] r e.1 0xFFFFFFFF e.2

/-- An entry of TAMP_LIMIT: the apply is a tightening (R239), so an RWT field takes its value where that is as tight as the one in
force, and keeps the one in force otherwise. -/
def pokeLimit (r : List (Nat × Nat)) (e : Nat × Nat) : List (Nat × Nat) :=
  (fieldsAt e.1).foldl (fun r f =>
    let v := bitsOf e.2 f.lo f.w
    if f.acc == .rwt && rwtTighter f (rwtBelow r f.addr) (regGet r f) v then regSet r f v else r) r

/-- A register file with a record's entries written: each entry sets every field that the record owns in it. -/
def pokeRec (rs : List ARec) (type : Nat) (r : List (Nat × Nat)) : List (Nat × Nat) :=
  (regEntries rs type).foldl (fun r e =>
    if type = 0x30 then pokeNet r e else if type = 0x31 then pokeLimit r e else pokeWord (recAcc type) r e.1 0xFFFFFFFF e.2) r

/-- The register file after every register record, over a file with the unit's ceilings (R49, R242). -/
def unitRegs (rs : List ARec) (r : List (Nat × Nat)) : List (Nat × Nat) :=
  let r := pokeRec rs 0x31 (pokeRec rs 0x30 r)
  [0x50, 0x51, 0x52, 0x53, 0x54, 0x58, 0x80].foldl (fun r t => pokeRec rs t r) r

/-- The REG_WRITE entries of an Accord in record order: record index, address, value, mask (R49). -/
def regWrites (rs : List ARec) : List (Nat × Nat × Nat × Nat) :=
  (rs.filter (fun r => r.type == 0x11)).flatMap (fun r =>
    (entriesFrom r.body 0 16).map (fun e => (r.idx, leAt e 0 8, leAt e 8 4, leAt e 12 4)))

/-- A REG_WRITE entry that R49 does not allow. -/
def regWriteBad (e : Nat × Nat × Nat × Nat) : Bool :=
  let a := e.2.1
  !(regionOf a).isRegs || a % 4 != 0 || (fieldsAt a).isEmpty || ownerTypes.any (fun t => ownsReg t a)
    || e.2.2.2 &&& accMask [.rw, .rwa] a != e.2.2.2

def regWriteFails (rs : List ARec) : List Fail :=
  (rs.filter (fun r => r.type == 0x11)).flatMap (fun r => failIf (r.body.length % 16 != 0) 4 r.idx)
    ++ (regWrites rs).flatMap (fun e => failIf (regWriteBad e) 4 e.1)

/-- The REG_WRITE entries of one die: address, value, mask. -/
def writesOn (rs : List ARec) (base : Bool) : List (Nat × Nat × Nat) :=
  ((regWrites rs).map (·.2)).filter (fun e => (regionOf e.1).onBase == base)

/-- A register file with REG_WRITE entries made: each sets the masked bits of its register's RW and RWA fields (R49). -/
def pokeWrites (es : List (Nat × Nat × Nat)) (r : List (Nat × Nat)) : List (Nat × Nat) :=
  es.foldl (fun r e => pokeWord [.rw, .rwa] r e.1 e.2.2 e.2.1) r

/-- The last REG_WRITE record that writes a field: the record that gives the field its value (R49). -/
def fieldRec (rs : List ARec) (f : Fld) : Nat :=
  ((((regWrites rs).filter (fun e => e.2.1 == f.addr && bitsOf e.2.2.2 f.lo f.w != 0)).getLast?).map (·.1)).getD noRec

end Sys2Proof.Machine
end

