-- ==== Sys2Proof/Machine/RecUnits.lean ====
section
/-! DEFINITION. What the ROM refuses in the records of the units: RAIL_GRAPH (R257), SENSOR_MAP (R203), the Tamp records
(R240, R241), the cooling records (R310), TW_SEG (R334), SESSION_SCOPE (R349), SIL_CODES (R429) and the output ports (R152). -/

namespace Sys2Proof.Machine

/-! ### Ceilings (R56, R66) -/

/-- A ceiling field's value: 0 and values above the device maximum stand for the maximum. -/
def ceilOf (v top : Nat) : Nat := if v = 0 || top < v then top else v

def State.ceilAccW (s : State) : Nat := ceilOf (s.get ACD_CEIL_PWR.ACC_PMAX) 2400
def State.ceilTrayW (s : State) : Nat := 10 * ceilOf (s.get ACD_CEIL_PWR.TRAY_PMAX) 2000
def State.ceilTj (s : State) : Nat := ceilOf (s.get ACD_CEIL_TEMP.TJ_RED_MAX) 0x6900
def State.ceilVofs (s : State) : Nat := ceilOf (s.get ACD_CEIL_MISC.VOFS_MAX) 50
def State.ceilMargin (s : State) : Nat := ceilOf (s.get ACD_CEIL_MISC.MARGIN_MAX) 50
def State.ceilFanMin (s : State) : Nat := min 100 (s.get ACD_CEIL_MISC.FAN_MIN)
def State.ceilHwdt (s : State) : Nat := ceilOf (s.get ACD_CEIL_MISC.HWDT_MAX) 120

/-! ### The rail graph (R254 to R257) -/

def graphHdr (rs : List ARec) : GraphHdr := hdrOf (bodyOf rs 0x20)

/-- The 32-byte rail entries and the 8-byte reset-output entries. -/
def railEntries (rs : List ARec) : List (List Byte) :=
  (entriesFrom (bodyOf rs 0x20) 32 32).take (graphHdr rs).nrail
def rstoEntries (rs : List ARec) : List (List Byte) :=
  (entriesFrom (bodyOf rs 0x20) (32 + 32 * (graphHdr rs).nrail) 8).take (graphHdr rs).nrsto

def graphRails (rs : List ARec) : List RailCfg := (railEntries rs).map railOf
def graphRstos (rs : List ARec) : List RstoCfg := (rstoEntries rs).map rstoOf

/-- TRIM_K as a signed number. -/
def trimKOf (c : RailCfg) : Nat := absI (sgn 5 c.trimK)

/-- A rail entry that is malformed under FAIL_STEP 0x4 of R257. -/
def railBad (e : List Byte) : Bool :=
  let c := railOf e
  95 < c.rail || 8 < c.group || c.pgSrc == 3 || c.deps.any (fun d => 95 < d) || c.rampMax == 0 || c.disTo == 0
    || (c.rampMin != 0 && c.rampMax ≤ c.rampMin) || 9 < c.dgl || byteBits e 20 7 1 == 1 || (11 < c.bus && c.bus != 15)
    || byteBits e 21 6 2 != 0 || byteBits e 22 7 1 == 1 || byteBits e 26 5 3 != 0 || byteBits e 27 6 2 != 0 || 32 < c.ph
    || c.mgn == 3 || (if c.mgn = 0 then c.mstep != 0 else c.mstep < 1 || 50 < c.mstep)
    || (!c.enUse && !c.pmbOn) || (c.bus == 15 && (c.pmbOn || c.pgSrc == 1 || c.phCmd != 0 || c.mgn == 1))
    || (c.mgn == 2 && trimKOf c == 0) || 511 < c.maxSteps * trimKOf c

/-- A header or reset-output entry that is malformed under FAIL_STEP 0x4 of R257. -/
def hdrBad (b : List Byte) : Bool :=
  let h := hdrOf b
  b.length != 32 + 32 * h.nrail + 8 * h.nrsto || h.nrail < 1 || 96 < h.nrail || 16 < h.nrsto || leAt b 2 2 / 512 != 0
    || leAt b 4 2 / 4 != 0 || h.inSrc == 3 || byteBits b 8 2 6 != 0 || byteBits b 9 6 2 != 0 || 4095 < h.inOn
    || h.inOn < h.inOff || !zeroAt b 14 18

def rstoBad (e : List Byte) : Bool :=
  let c := rstoOf e
  byteBits e 0 4 4 != 0 || 11 < c.stretch || 11 < c.pre || c.rails.isEmpty || !zeroAt e 6 2

/-- Rails left after taking away, n times, those whose predecessors are all gone: empty exactly when the graph has no
cycle. -/
def peel : Nat → List RailCfg → List RailCfg
  | 0, rs => rs
  | n + 1, rs => peel n (rs.filter (fun c => c.deps.any (fun d => rs.any (fun q => q.rail == d))))

/-- A predecessor that names no entry or breaks R252. -/
def depBad (rs : List RailCfg) (c : RailCfg) : Bool :=
  c.deps.any (fun d =>
    match rs.find? (fun q => q.rail == d) with
    | none => true
    | some q => q.group != 8 && q.group != c.group)

/-- An output port whose rail R257 does not accept. -/
def portRecBad (rails : List RailCfg) (top : List (Nat × Nat)) (p : Nat) : Bool :=
  let kind := regGet top (INF_OUT_CFG.KIND p)
  if kind = 1 || kind = 2 then
    match rails.find? (fun c => c.rail == regGet top (INF_OUT_CFG.TARGET p)) with
    | none => true
    | some c => c.bus == 15 || (kind == 2 && c.ph == 0) || c.group != regGet top (INF_OUT_CFG.ACC p)
  else false

def graphFails (s : State) (rs : List ARec) (accs : Nat) (x : List (Nat × Nat × Nat)) (top : List (Nat × Nat)) : List Fail :=
  match recOfType rs 0x20 with
  | none => []
  | some r =>
    let h := graphHdr rs
    let cs := graphRails rs
    let os := graphRstos rs
    failIf (cs.any (fun c => s.ceilMargin < c.maxSteps * c.mstep)) 5 r.idx
      ++ failIf (cs.any (fun c => (c.enUse && !placed x 1 c.en) || (c.pgSrc == 0 && !placed x 2 c.pg))
          || (h.inSrc == 1 && !placed x 2 h.inIdx) || os.any (fun o => !placed x 3 o.rsto)) 6 r.idx
      ++ failIf (cs.any (depBad cs) || !(peel cs.length cs).isEmpty || !noDup ((cs.filter (·.enUse)).map (·.en))
          || !noDup (os.map (·.rsto)) || (h.inSrc == 1 && cs.any (fun c => c.pgSrc == 0 && c.pg == h.inIdx))
          || os.any (fun o => o.rails.any (fun d => !cs.any (fun c => c.rail == d)))
          || cs.any (fun c => c.group < 8 && accs ≤ c.group) || (List.range 64).any (portRecBad cs top)) 7 r.idx

def graphSyntax (rs : List ARec) : List Fail :=
  match recOfType rs 0x20 with
  | none => []
  | some r => failIf (hdrBad r.body || (railEntries rs).any railBad || !rising ((graphRails rs).map (·.rail))
      || (rstoEntries rs).any rstoBad) 4 r.idx

/-! ### The Sensor Map (R202, R203) -/

/-- The runs of a SENSOR_MAP body: first index, descriptors; `n` bounds their number. -/
def splitRuns : Nat → List Byte → Option (List (Nat × List (List Byte)))
  | 0, bs => if bs.isEmpty then some [] else none
  | n + 1, bs =>
    if bs.isEmpty then some []
    else
      let k := leAt bs 4 4
      if bs.length < 8 + 16 * k || k = 0 then none
      else (splitRuns n (bs.drop (8 + 16 * k))).map (fun t => (leAt bs 0 4, entriesFrom (slice bs 8 (16 * k)) 0 16) :: t)

def runsOf (b : List Byte) : Option (List (Nat × List (List Byte))) := splitRuns (b.length / 24 + 1) b

/-- The descriptors of the runs with their indices. -/
def descsOf (b : List Byte) : List (Nat × List Byte) :=
  ((runsOf b).getD []).flatMap (fun r => (List.range r.2.length).map (fun i => (r.1 + i, r.2.getD i [])))

/-- Runs in ascending order that neither overlap nor pass index 65,535. -/
def runsOrdered : Nat → List (Nat × List (List Byte)) → Bool
  | _, [] => true
  | lo, r :: t => lo ≤ r.1 && r.1 + r.2.length ≤ 65536 && runsOrdered (r.1 + r.2.length) t

def descGrd (d : List Byte) : Bool := byteBits d 0 2 1 == 1

/-- A descriptor that R203 refuses under FAIL_STEP 0x4. -/
def descBad (d : List Byte) : Bool :=
  5 < byteBits d 0 4 3 || leAt d 0 2 / 128 != 0 || (descGrd d && 223 < leAt d 2 1) || (dec32 (leAt d 4 4)).isNone
    || (dec32 (leAt d 8 4)).isNone || leAt d 13 1 / 16 != 0 || leAt d 14 1 / 4 != 0 || leAt d 14 1 % 4 == 3
    || (let g := sgn 8 (leAt d 15 1); decide (g < -16) || decide (15 < g))

/-- The guard positions that descriptors with GRD_EN = 1 hold. -/
def guardPositions (rs : List ARec) : List Nat :=
  ((descsOf (bodyOf rs 0x40)).filter (fun e => descGrd e.2)).map (fun e => leAt e.2 2 1)

def mapSyntax (rs : List ARec) : List Fail :=
  match recOfType rs 0x40 with
  | none => []
  | some r =>
    match runsOf r.body with
    | none => [(4, r.idx)]
    | some runs => failIf (!runsOrdered 0 runs || (descsOf r.body).any (fun e => descBad e.2) || !noDup (guardPositions rs)) 4
        r.idx

def mapFails (rs : List ARec) (accs : Nat) : List Fail :=
  failIf ((descsOf (bodyOf rs 0x40)).any (fun e => byteBits e.2 0 0 1 == 1 && accs ≤ e.1 / 8192)) 7 (idxOf rs 0x40)

/-! ### Tamp (R240, R241) -/

/-- R223 uses the signal index. -/
def sigUsed (i : Nat) : Bool := i ≤ 0x44 || (0x80 ≤ i && i ≤ 0x15F) || (0x180 ≤ i && i ≤ 0x19F)

/-- The index is a guard position that no descriptor holds. -/
def sigUnheld (grd : List Nat) (i : Nat) : Bool := 0x80 ≤ i && i ≤ 0x15F && !grd.contains (i - 0x80)

/-- The enabled limits of a comparator as signed numbers, Amber first. -/
def enabledLims (r : List (Nat × Nat)) (k : Nat) : List Int :=
  (if regGet r (TAMP_CMP_CFG.AMB_EN k) = 1 then [sgn 16 (regGet r (TAMP_LIM_AMB.LIM k))] else [])
    ++ (if regGet r (TAMP_CMP_CFG.RED_EN k) = 1 then [sgn 16 (regGet r (TAMP_LIM_RED.LIM k))] else [])
    ++ (if regGet r (TAMP_CMP_CFG.BLK_EN k) = 1 then [sgn 16 (regGet r (TAMP_LIM_BLK.LIM k))] else [])

/-- A comparator with an enabled limit. -/
def cmpEnabled (r : List (Nat × Nat)) (k : Nat) : Bool := !(enabledLims r k).isEmpty

/-- Limits in ascending order. -/
def climbing : List Int → Bool
  | [] => true
  | [_] => true
  | a :: b :: t => a ≤ b && climbing (b :: t)

/-- How many inputs a combiner uses (R227). -/
def combUse (op n : Nat) : Nat := if op = 0 then 0 else if op = 2 || op = 5 then 2 else n + 1

/-- The signal indices that combiner j of a register file reads. -/
def combReads (r : List (Nat × Nat)) (j : Nat) : List Nat :=
  (List.range (combUse (regGet r (TAMP_COMB_CFG.OP j)) (regGet r (TAMP_COMB_CFG.N j)))).map (fun i =>
    if i % 2 = 0 then regGet r (TAMP_COMB_IN.IN_A j (i / 2)) else regGet r (TAMP_COMB_IN.IN_B j (i / 2)))

/-- The first condition of R240, then of R241, that the register file breaks, with the record at fault. -/
def tampFails (s : State) (rs : List ARec) (accs : Nat) (r : List (Nat × Nat)) : List Fail :=
  let net := idxOf rs 0x30
  let lim := idxOf rs 0x31
  let missing := if (recOfType rs 0x31).isSome then lim else net
  let cmps := List.range 256
  let above (q top : Nat) : Bool :=
    cmps.any (fun k => regGet r (TAMP_CMP_CFG.QTY k) == q && (enabledLims r k).any (fun l => decide ((top : Int) < l)))
  let below (k : Nat) : Bool := regGet r (TAMP_CMP_CFG.DIR k) == 1
  let guards (q sc : Nat) : Bool :=
    cmps.any (fun k => regGet r (TAMP_CMP_CFG.QTY k) == q && regGet r (TAMP_CMP_CFG.SCOPE k) == sc
      && regGet r (TAMP_CMP_CFG.BLK_EN k) == 1)
  let grd := guardPositions rs
  let reads := cmps.map (fun k => regGet r (TAMP_CMP_CFG.SIG k)) ++ (List.range 32).flatMap (combReads r)
  let fails :=
    failIf (above 1 s.ceilAccW) 5 lim ++ failIf (above 2 s.ceilTrayW) 5 lim ++ failIf (above 3 s.ceilTj) 5 lim
      ++ failIf (cmps.any (fun k => (regGet r (TAMP_CMP_CFG.QTY k) == 1 || regGet r (TAMP_CMP_CFG.QTY k) == 2) && below k)) 5 net
      ++ failIf ((regEntries rs 0x31).any (fun e => (List.range 8).any (fun a =>
          e.1 == (TAMP_CLAMP.VOFS_LIM a).addr && 4 * s.ceilVofs < bitsOf e.2 (TAMP_CLAMP.VOFS_LIM a).lo (TAMP_CLAMP.VOFS_LIM a).w))) 5 lim
      ++ failIf ((List.range accs).any (fun a => !guards 1 a)) 5 missing ++ failIf (!guards 2 8) 5 missing
      ++ failIf (reads.any (fun i => !sigUsed i)) 7 net ++ failIf (reads.any (sigUnheld grd)) 7 net
      ++ failIf ((List.range 32).any (fun j => (combReads r j).any (fun i => 0x180 + j ≤ i && i ≤ 0x19F))) 7 net
      ++ failIf (cmps.any (fun k => cmpEnabled r k && 9 ≤ regGet r (TAMP_CMP_CFG.SCOPE k))) 7 net
      ++ failIf (cmps.any (fun k => !below k && !climbing (enabledLims r k))) 7 lim
      ++ failIf (cmps.any (fun k => below k && !climbing (enabledLims r k).reverse)) 7 lim
  fails.take 1

def tampSyntax (rs : List ARec) (r : List (Nat × Nat)) : List Fail :=
  failIf ((List.range 32).any (fun j => 6 ≤ regGet r (TAMP_COMB_CFG.OP j))) 4 (idxOf rs 0x30)

/-! ### Cooling (R310) -/

/-- The curve points of a zone that are used, as (signed X, LEVEL). -/
def curveOf (r : List (Nat × Nat)) (z : Nat) : List (Int × Nat) :=
  (List.range (regGet r (COOL_ZONE_CFG.NPTS z) + 1)).map (fun i =>
    (sgn 16 (regGet r (COOL_CURVE_PT.X z i)), regGet r (COOL_CURVE_PT.LEVEL z i)))

/-- Strictly ascending X. -/
def xRising : List (Int × Nat) → Bool
  | [] => true
  | [_] => true
  | a :: b :: t => a.1 < b.1 && xRising (b :: t)

def coolSyntax (rs : List ARec) (r : List (Nat × Nat)) : List Fail :=
  failIf ((List.range 8).any (fun z => !xRising (curveOf r z) || 100 < regGet r (COOL_ZONE_CFG.BOOST z)
        || (List.range 8).any (fun i => 100 < regGet r (COOL_CURVE_PT.LEVEL z i)))
      || (List.range 24).any (fun n => regGet r (COOL_FAN_CFG.EN n) == 1 && regGet r (COOL_FAN_CFG.RPM_MAX n) == 0)) 4
    (idxOf rs 0x50)
    ++ failIf ((List.range 16).any (fun b =>
        let lo := regGet r (COOL_SKIP_RNG.LO b)
        let hi := regGet r (COOL_SKIP_RNG.HI b)
        hi ≤ lo && !(lo == 0 && hi == 0))) 4 (idxOf rs 0x51)
    ++ failIf ((List.range 6).any (fun p => regGet r (COOL_PMP_LOOP.DMAX p) < regGet r (COOL_PMP_LOOP.DMIN p)
        || regGet r (COOL_PMP_CFG.PARTNER p) == p)) 4 (idxOf rs 0x52)
    ++ failIf ((List.range 16).any (fun k => regGet r (COOL_LK_CFG.KIND k) == 3)) 4 (idxOf rs 0x53)
    ++ failIf (regGet r COOL_HWDT_CFG.PERIOD == 0 || 120 < regGet r COOL_HWDT_CFG.PERIOD) 4 (idxOf rs 0x54)
    ++ failIf ((List.range 32).any (fun c =>
        if regGet r (COOL_CONS_CFG.CLASS c) = 0 then
          regGet r (COOL_CONS_LINK.FANS c) != 0 || regGet r (COOL_CONS_LINK.PUMPS c) != 0
        else 11 < regGet r (COOL_CONS_CFG.BUS c))) 4 (idxOf rs 0x80)

def coolFails (s : State) (rs : List ARec) (x : List (Nat × Nat × Nat)) (r : List (Nat × Nat)) : List Fail :=
  let grd := guardPositions rs
  let badSig (i : Nat) : Bool := !sigUsed i || sigUnheld grd i
  failIf ((List.range 8).any (fun z => (curveOf r z).any (fun p => p.2 < s.ceilFanMin))) 5 (idxOf rs 0x50)
    ++ failIf (s.ceilHwdt < regGet r COOL_HWDT_CFG.PERIOD) 5 (idxOf rs 0x54)
    ++ failIf ((List.range 24).any (fun n => regGet r (COOL_FAN_CFG.EN n) == 1 && !(placed x 4 n && placed x 5 n))) 6
      (idxOf rs 0x50)
    ++ failIf ((List.range 6).any (fun p =>
          (regGet r (COOL_PMP_CFG.EN p) == 1 && (!placed x 6 p || (regGet r (COOL_PMP_CFG.PPR p) != 0 && !placed x 7 p)))
            || (regGet r (COOL_FLW_CFG.K p) != 0 && !placed x 8 p)
            || (regGet r (COOL_PMP_CFG.EN p) == 1 && regGet r (COOL_PMP_CFG.FLW p) < 6
              && !placed x 8 (regGet r (COOL_PMP_CFG.FLW p))))) 6 (idxOf rs 0x52)
    ++ failIf ((List.range 16).any (fun k => (bitList 8 (regGet r (COOL_LK_RESP.VALVES k))).any (fun v => !placed x 9 v))) 6
      (idxOf rs 0x53)
    ++ failIf ((List.range 8).any (fun z => badSig (regGet r (COOL_ZONE_CFG.SRC z)))) 7 (idxOf rs 0x50)
    ++ failIf ((List.range 6).any (fun p => badSig (regGet r (COOL_PMP_CFG.SIG p)))) 7 (idxOf rs 0x52)
    ++ failIf ((List.range 16).any (fun k => (bitList 9 (regGet r (COOL_LK_CFG.GROUPS k))).any (fun g =>
        !(graphRails rs).any (fun c => c.group == g)))) 7 (idxOf rs 0x53)

/-! ### Two-wire ports (R334) -/

/-- Addresses that R334 does not allow as target or list addresses. -/
def addrBad (a : Nat) : Bool := a ≤ 7 || a == 0x0C || 0x78 ≤ a

/-- The four list addresses of a register with their enables. -/
def listAddrs (r : List (Nat × Nat)) (a e : List Fld) : List Nat :=
  (List.range 4).filterMap (fun i =>
    match a[i]?, e[i]? with
    | some fa, some fe => if regGet r fe = 1 then some (regGet r fa) else none
    | _, _ => none)

def twSyntax (rs : List ARec) (r : List (Nat × Nat)) : List Fail :=
  failIf ((List.range 12).any (fun n =>
    regGet r (TW_CFG.SPEED n) == 3 || regGet r (TW_CFG.ATTN n) == 3
      || (listAddrs r [TW_TGT_ADDR.ADDR0 n, TW_TGT_ADDR.ADDR1 n, TW_TGT_ADDR.ADDR2 n, TW_TGT_ADDR.ADDR3 n]
            [TW_TGT_ADDR.EN0 n, TW_TGT_ADDR.EN1 n, TW_TGT_ADDR.EN2 n, TW_TGT_ADDR.EN3 n]).any addrBad
      || (listAddrs r [TW_ATTN_LIST.ADDR0 n, TW_ATTN_LIST.ADDR1 n, TW_ATTN_LIST.ADDR2 n, TW_ATTN_LIST.ADDR3 n]
            [TW_ATTN_LIST.EN0 n, TW_ATTN_LIST.EN1 n, TW_ATTN_LIST.EN2 n, TW_ATTN_LIST.EN3 n]).any addrBad
      || (regGet r (TW_CFG.WAKE n) == 1 && regGet r (TW_CFG.TGT_EN n) == 0)
      || (regGet r (TW_CFG.ATTN n) != 0 && regGet r (TW_CFG.CTRL_EN n) == 0)
      || (regGet r (TW_CFG.STUCK_POL n) == 1 && regGet r (TW_CFG.SEGPWR_USE n) == 0))) 4 (idxOf rs 0x58)

/-- A port number that names a port with CTRL_EN = 0. -/
def portOff (r : List (Nat × Nat)) (n : Nat) : Bool := n ≤ 11 && regGet r (TW_CFG.CTRL_EN n) == 0

/-- The value that a field's REG_WRITE entries of the records up to one leave in it: each sets the masked bits (R49). -/
def busAfter (rs : List ARec) (f : Fld) (rec : Nat) : Nat :=
  regGet (pokeWrites (((regWrites rs).filter (fun e => e.1 ≤ rec)).map (·.2)) []) f

/-- REG_WRITE entries that name a function which no ball carries: a wake input or a valve (R48). -/
def writeRefFails (rs : List ARec) (x : List (Nat × Nat × Nat)) : List Fail :=
  let names (e : Nat × Nat × Nat × Nat) (a lo n cls : Nat) : Bool :=
    e.2.1 == a && (List.range n).any (fun i => bitOf (e.2.2.1 &&& e.2.2.2) (lo + i) && !placed x cls i)
  (regWrites rs).flatMap (fun e =>
    failIf (names e PWRST_WAKE_EN.EN.addr PWRST_WAKE_EN.EN.lo 8 fnWake
      || names e COOL_VLV.CMD_CLOSE.addr COOL_VLV.CMD_CLOSE.lo 8 fnVlv) 6 e.1)

def twFails (rs : List ARec) (x : List (Nat × Nat × Nat)) (r : List (Nat × Nat)) : List Fail :=
  failIf ((List.range 12).any (fun n =>
      (regGet r (TW_CFG.SEGPWR_USE n) == 1 && !placed x 0xA n) || (regGet r (TW_CFG.ATTN n) == 2 && !placed x 0xB n))) 6
    (idxOf rs 0x58)
    ++ failIf ((graphRails rs).any (fun c => portOff r c.bus)) 7 (idxOf rs 0x20)
    ++ (regWrites rs).flatMap (fun e =>
        failIf ((List.range 8).any (fun n => e.2.1 == (TL_BC.BUS n).addr && e.2.2.2 % 16 != 0 && portOff r (busAfter rs (TL_BC.BUS n) e.1))) 7
          e.1)
    ++ failIf ((List.range 32).any (fun c => regGet r (COOL_CONS_CFG.CLASS c) != 0 && portOff r (regGet r (COOL_CONS_CFG.BUS c))))
        7 (idxOf rs 0x80)

/-! ### Session scopes (R348, R349) and event codes (R429) -/

def scopesOf (rs : List ARec) : List (List Byte) := (entriesFrom (bodyOf rs 0x70) 8 64)

def scopeSyntax (rs : List ARec) : List Fail :=
  match recOfType rs 0x70 with
  | none => []
  | some r =>
    let n := leAt r.body 0 4
    let es := scopesOf rs
    failIf (n < 1 || 64 < n || r.body.length != 8 + 64 * n || !zeroAt r.body 4 4
      || es.any (fun e => byteBits e 2 6 2 != 0 || byteBits e 3 3 5 != 0 || leAt e 3 1 == 0 || leAt e 4 2 < 1
          || 3600 < leAt e 4 2 || byteBits e 6 2 6 != 0 || !zeroAt e 7 9)
      || !noDup (es.map (fun e => leAt e 16 48))) 4 r.idx

def scopeFails (rs : List ARec) (accs : Nat) : List Fail :=
  failIf ((scopesOf rs).any (fun e => 2 ^ accs ≤ leAt e 0 1
    || (byteBits e 6 1 1 == 1 && leAt e 0 1 % 2 ^ accs != 2 ^ accs - 1))) 7 (idxOf rs 0x70)

/-- The groups and code entries of a SIL_CODES body (R429). -/
def silGroupEntries (b : List Byte) : List (List Byte) := (entriesFrom b 8 8).take (leAt b 2 2)
def silCodeEntries (b : List Byte) : List (List Byte) := (entriesFrom b (8 + 8 * leAt b 2 2) 8).take (leAt b 0 2)

def silGroupsOf (b : List Byte) : List Group := (silGroupEntries b).map (fun e => { ms := leAt e 0 2, win := none, held := none })

def silCodesOf (b : List Byte) : List CodeEnt :=
  (silCodeEntries b).map (fun e =>
    { code := leAt e 0 2, rate := leAt e 2 2, burst := leAt e 4 1, group := leAt e 5 1, persist := byteBits e 6 0 1 == 1,
      parent := byteBits e 6 1 1 == 1, tokens := leAt e 4 1, supp := 0, ovf := 0, first := 0, multiAcc := false,
      multiUnit := false, multiInst := false })

/-- How many codes each range of R417 assigns. -/
def codeRanges : List (Nat × Nat) := [(0x00, 6), (0x01, 7), (0x02, 4), (0x03, 7), (0x04, 8), (0x05, 15), (0x06, 7), (0x07, 5),
  (0x08, 12), (0x09, 5), (0x0A, 2), (0x10, 6), (0x11, 2), (0x12, 9), (0x13, 2)]

/-- An event code that is 0x0000 or that R417 reserves; codes from 0x8000 on belong to owner firmware. -/
def codeReserved (c : Nat) : Bool := c < 0x8000 && (c % 256 == 0 || ((look (c / 256) codeRanges).getD 0) < c % 256)

def silSyntax (rs : List ARec) : List Fail :=
  match recOfType rs 0x60 with
  | none => []
  | some r =>
    let b := r.body
    let n := leAt b 0 2
    let g := leAt b 2 2
    let cs := silCodesOf b
    failIf (1024 < n || 32 < g || b.length != 8 + 8 * g + 8 * n || !zeroAt b 4 4
      || (silGroupEntries b).any (fun e => leAt e 0 2 < 1 || 10000 < leAt e 0 2 || !zeroAt e 2 6)
      || !rising (cs.map (·.code)) || cs.any (fun e => codeReserved e.code || 10000 < e.rate || e.burst == 0
          || (g ≤ e.group && e.group != 0xFF) || (e.parent && e.group == 0xFF))
      || (silCodeEntries b).any (fun e => byteBits e 6 2 6 != 0 || !zeroAt e 7 1)
      || (List.range g).any (fun i => !cs.any (fun e => e.group == i && e.parent))) 4 r.idx

/-! ### Output ports (R152) and the whole Accord -/

/-- The voltage-offset bounds beyond the ceiling, each with the record that holds it (R56). -/
def vofsFails (s : State) (rs : List ARec) (top : List (Nat × Nat)) : List Fail :=
  (List.range 64).flatMap (fun p =>
    [INF_OUT_BND.LO p, INF_OUT_BND.HI p].flatMap (fun f =>
      failIf (regGet top (INF_OUT_CFG.KIND p) == 1 && 4 * s.ceilVofs < absI (sgn 16 (regGet top f))) 5 (fieldRec rs f)))

/-- ACCORD_INFO.ACC_COUNT. -/
def accCountOf (rs : List ARec) : Nat := leAt (bodyOf rs 1) 4 1

/-- The register file that an Accord's records are judged on: every field at its reset value, VOFS_LIM at the unit's bound
(R240, R251). -/
def State.bareRegs (s : State) : List (Nat × Nat) :=
  (List.range 8).foldl (fun r a => regSet r (TAMP_CLAMP.VOFS_LIM a) (4 * s.ceilVofs)) []

/-- What pass 1 finds wrong with an Accord body (R52 step 3): syntax first, since the other rules judge only records that are
well formed. `fmt` is the header's SET_FMT (R385). -/
def State.accordFails (s : State) (fmt : Nat) (body : List Byte) : List Fail :=
  let sp := recsOf body
  let rs := sp.1
  let syn1 := sp.2 ++ orderFails rs ++ infoFails rs ++ (xbarFails rs).filter (fun f => f.1 == 4) ++ regWriteFails rs
    ++ ownerTypes.flatMap (regRecFails rs) ++ graphSyntax rs ++ mapSyntax rs ++ scopeSyntax rs ++ silSyntax rs
    ++ failIf (fmt != leAt (bodyOf rs 1) 2 2) 4 (idxOf rs 1)
  if !syn1.isEmpty then syn1
  else
    let r := unitRegs rs s.bareRegs
    let syn2 := tampSyntax rs r ++ coolSyntax rs r ++ twSyntax rs r
    if !syn2.isEmpty then syn2
    else
      let accs := accCountOf rs
      let x := xbarOf rs
      let top := pokeWrites (writesOn rs false) []
      xbarFails rs ++ writeRefFails rs x ++ graphFails s rs accs x top ++ mapFails rs accs ++ tampFails s rs accs r ++ coolFails s rs x r
        ++ twFails rs x r ++ scopeFails rs accs ++ vofsFails s rs top

end Sys2Proof.Machine
end

