-- ==== Sys2Proof/Machine/Accord.lean ====
section
/-! DEFINITION. The Accord (R42 to R66): loading, applying and locking, the settings and their digest, the fingerprint, live
activation, and what a Top-die bring-up reloads. -/

namespace Sys2Proof.Machine

def State.modAcd (s : State) (f : AcdSt → AcdSt) : State := { s with acd := f s.acd }

/-! ### Digest registers, NVM marks and settings -/

/-- A digest written into twelve registers, lowest byte first (R66). -/
def State.setDg (s : State) (reg : Nat → Fld) (dg : List Byte) : State :=
  (List.range 12).foldl (fun s k => s.set (reg k) (leAt dg (4 * k) 4)) s

/-- The digest that twelve registers hold. -/
def State.getDg (s : State) (reg : Nat → Fld) : List Byte := (List.range 12).flatMap (fun k => leBytes 4 (s.get (reg k)))

/-- The number that a marker entry of NVM holds: 0 the Accord boot slot (R52), 2 and 4 the running slots of Keeper and
Control-core firmware (R388). -/
def State.marker (s : State) (k : Nat) : Option Nat := (s.nvmBlob kindMarker k).map leNat

/-- A marker committed. -/
def markerJob (k v : Nat) : NvmJob := { kind := kindMarker, key := k, len := 4, data := [.blob kindMarker k (leBytes 4 v)] }

/-- P fields set now and committed in one entry. -/
def State.commitRegs (s : State) (key : Nat) (fs : List (Fld × Nat)) (more : List NvmData) : State :=
  (s.setAll fs).nvmCommit
    { kind := kindKey, key := key, len := 64, data := .regs (fs.map (fun e => (e.1.key, e.2))) :: more }

/-- The settings epoch (R59). -/
def State.epoch (s : State) : Nat := s.get64 ACD_EPOCH_LO.EPOCH_LO ACD_EPOCH_HI.EPOCH_HI

/-- The epoch that the next increment gives, those of waiting commits counted. -/
def State.epochNext (s : State) : Nat :=
  let waiting := s.nvm.queue ++ s.nvm.busy.toList
  (s.epoch + (waiting.filter (fun j => j.data.contains .epoch)).length + 1) % 2 ^ 64

/-- A setting's place: type, then key within the type (R61). -/
def settingPlace (type : Nat) (body : List Byte) : Nat := type * 2 ^ 64 + Config.settingKey body % 2 ^ 64

/-- The record form of a setting (R43, R61). -/
def settingRec (type : Nat) (body : List Byte) : List Byte :=
  leBytes 2 type ++ leBytes 2 0 ++ leBytes 4 body.length ++ padTo ((body.length + 7) / 8 * 8) body

/-- The settings in force, in ascending place (R61). -/
def State.settings (s : State) : List (Nat × List Byte) :=
  ((s.nvm.blobs.filter (fun b => b.1 == kindSetting)).map (·.2)).foldl (fun l b => put b.1 b.2 l) []

/-- The settings digest (R61). -/
def State.settingsDigest (s : State) : List Byte := sha (s.settings.flatMap (fun e => settingRec (e.1 / 2 ^ 64) e.2))

/-! ### The fingerprint (R62 to R66) -/

/-- A digest or 48 zero bytes. -/
def dgOr (dg : List Byte) : List Byte := padTo 48 dg

/-- The 968-byte preimage (R62). -/
def State.fpPreimage (s : State) : List Byte :=
  [0x54, 0x38, 0x46, 0x50] ++ leBytes 4 1 ++ s.getDg ACD_IMG_DG.DG ++ s.getDg ACD_SET_DG.DG ++ dgOr s.acd.kfw
    ++ dgOr s.acd.cfw ++ (List.range 16).flatMap (fun n => dgOr ((look n s.acd.progs).getD []))

/-- The fingerprint computed from its present inputs (R62). -/
def State.fpCompute (s : State) : State := s.modAcd (fun a => { a with fp := sha s.fpPreimage })

/-- An Accord is locked. -/
def State.locked (s : State) : Bool := s.get ACD_STS.STATE == 2

/-- A recomputation after a change of an input (R63): the generation counts and EVT_FP_CHANGE is logged. Before the first
computation at Accord lock there is no fingerprint to recompute. -/
def State.fpChange (s : State) (input slot : Nat) : State :=
  if s.locked then
    let old := s.get ACD_FPGEN.GEN
    let new := (old + 1) % 2 ^ 32
    (s.set ACD_FPGEN.GEN new).fpCompute.log EVT_FP_CHANGE ACC_TRAY UNIT_ACD 0
      [(0, 4, old), (4, 4, new), (8, 1, input), (9, 1, slot)]
  else s

/-- The settings changed: their digest and the fingerprint follow (R61, R63). -/
def State.settingsChanged (s : State) : State := (s.setDg ACD_SET_DG.DG s.settingsDigest).fpChange 1 0

/-- An increment of the epoch waits for its commit. -/
def State.epochWaits (s : State) : Bool := (s.nvm.queue ++ s.nvm.busy.toList).any (fun j => j.data.contains .epoch)

/-- The fingerprint, the epoch and the generation as they stand, with the preimage. -/
def State.fpNow (s : State) : FpTriple :=
  { pre := s.fpPreimage, fp := dgOr s.acd.fp, epoch := s.epoch, gen := s.get ACD_FPGEN.GEN }

/-- The triple that heartbeats, snapshots and statements carry (R64 to R66): the previous one, whole, while the epoch of a live
activation is being committed. -/
def State.fpTriple (s : State) : FpTriple := s.acd.shown.getD s.fpNow

/-- A live activation begins: the triple before it is shown until its epoch is committed (R59, R64). -/
def State.fpHold (s : State) : State := s.modAcd (fun a => { a with shown := some s.fpTriple })

/-- No increment of the epoch waits any more: the present triple is shown. -/
def State.fpFree (s : State) : State := if s.epochWaits then s else s.modAcd (fun a => { a with shown := none })

/-- SNAP copies the triple in one step (R66). -/
def State.fpSnap (s : State) : State :=
  ((s.setDg ACD_FP.FP s.fpTriple.fp).set64 ACD_FP_SNAPEP_LO.EP_LO ACD_FP_SNAPEP_HI.EP_HI s.fpTriple.epoch).set ACD_FP_SNAPGEN.GEN
    s.fpTriple.gen

def execSnap (ini : Initiator) (s : State) : Host.Outcome State Fault Refusal :=
  .next (s.command ini ACD_FP_CTL.SNAP.addr State.fpSnap)

/-- The signed statement and the state after its signatures are made (R65). -/
def State.fpStatement (s : State) (nonce : List Byte) : List Byte × State :=
  let t := s.fpTriple
  let msg := t.pre ++ t.fp ++ leBytes 8 t.epoch ++ leBytes 4 t.gen
    ++ leBytes 4 (b2n s.fb + 2 * s.get ACD_STS.PENDING) ++ leBytes 8 s.now ++ s.unitId ++ padTo 32 nonce
  (msg ++ padTo 3373 (s.deviceSign s.fresh msg), s.draw)

/-! ### Applying an Accord (R49, R52, R54) -/

/-- What a REG_WRITE entry does besides its field values: registers that a unit keeps beyond plain fields. -/
def State.writeHook (s : State) (e : Nat × Nat × Nat) : State :=
  let hit (f : Fld) : Bool := e.1 == f.addr && bitOf e.2.2 f.lo
  let on (f : Fld) : Bool := bitOf e.2.1 f.lo
  if hit CLK_CTL.FORCE_IOSC then
    let s := s.clkForce (on CLK_CTL.FORCE_IOSC)
    if hit CLK_CTL.REF_SEL then s.refFollow else s
  else if e.1 = CLK_GATE_REQ.REQ.addr then
    s.gateWrite (maskOf 10 (fun i => if bitOf e.2.2 i then bitOf e.2.1 i else bitOf (s.get CLK_GATE_REQ.REQ) i))
  else if e.1 = COOL_VLV.CMD_CLOSE.addr then
    s.valveCommand (maskOf 8 (fun i => if bitOf e.2.2 i then bitOf e.2.1 i else bitOf (s.get COOL_VLV.CMD_CLOSE) i))
  else if hit CLK_CTL.REF_SEL then s.refFollow
  else if hit SEQ_CTL.TEST then (if on SEQ_CTL.TEST then s.testEnter else s.testEnd)
  else if hit TFAB_CTL.REC_RUN then s.recRun (on TFAB_CTL.REC_RUN)
  else if e.1 = SIL_CTL.FREEZE.addr then
    let s := if hit SIL_CTL.FREEZE then
        (if on SIL_CTL.FREEZE then
          (if s.sil.frozen then s else { s with sil := { s.sil with frozen := true, frozenTotal := 0, frozenCodes := [] } })
        else { s with sil := s.sil.unfreeze (s.on SEQ_CTL.TEST) s.now s.fb })
      else s
    if hit SIL_CTL.RECOV then
      s.silMode (s.on SEQ_CTL.TEST) (s.on SEQ_CTL.TEST) (fun x => { x with recov := on SIL_CTL.RECOV })
    else s
  else s

/-- The bits of a register that writeHook itself sets. -/
def hookBits (a : Nat) : Nat :=
  if a = CLK_CTL.FORCE_IOSC.addr then 2 ^ CLK_CTL.FORCE_IOSC.lo
  else if a = CLK_GATE_REQ.REQ.addr then 0x3FF
  else if a = COOL_VLV.CMD_CLOSE.addr then 0xFF
  else if a = SEQ_CTL.TEST.addr then 2 ^ SEQ_CTL.TEST.lo
  else if a = TFAB_CTL.REC_RUN.addr then 2 ^ TFAB_CTL.REC_RUN.lo
  else if a = SIL_CTL.FREEZE.addr then 2 ^ SIL_CTL.FREEZE.lo + 2 ^ SIL_CTL.RECOV.lo
  else 0

/-- REG_WRITE entries made in record order (R49). DESIGN CHOICE (log entry 50): one that sets INF_SLOTn_CTL.EN of an EMPTY slot stores the bit, with
neither R143's checks nor their REFUSE, since no slot holds a program when the Top-die records are written. -/
def State.applyWrites (s : State) (es : List (Nat × Nat × Nat)) : State :=
  es.foldl (fun s e =>
    ({ s with regs := pokeWord [.rw, .rwa] s.regs e.1 (e.2.2 ^^^ (e.2.2 &&& hookBits e.1)) e.2.1 }).writeHook e) s

/-- The tray input as it stands (R269): good without a sense, else by the pin or the AIN code. -/
def State.inputGood (s : State) (h : GraphHdr) : Bool :=
  if h.inSrc = 0 then true
  else if h.inSrc = 1 then bitOf s.pgSeen h.inIdx
  else h.inOn ≤ s.get (TAMP_AIN.CODE h.inIdx)

/-- The digest over the boot records in body order (R57). -/
def structDigest (rs : List ARec) : List Byte :=
  sha ((rs.filter (fun r => bootTypes.contains r.type)).flatMap (·.raw))

/-- The vendor keys of the CONSUMABLE record (R309). -/
def vendorsOf (rs : List ARec) : List (List Byte × List Byte) :=
  let b := bodyOf rs 0x80
  (List.range (leAt b 0 4)).map (fun i => (slice b (4 + 1984 * i) 32, slice b (36 + 1984 * i) 1952))

/-- What the Top-die bring-ups reload from an Accord (R49, R55), and the tables that stand outside registers. -/
def State.applyTables (s : State) (rs : List ARec) : State :=
  let b := bodyOf rs 0x60
  let s := { s with sil := s.sil.install (s.on SEQ_CTL.TEST) s.now s.fb (silGroupsOf b) (silCodesOf b),
                    cool := { s.cool with vendors := vendorsOf rs } }
  s.modAcd (fun a => { a with scopes := scopesOf rs })

/-- Every record applied (R52 step 4): unit records, then the Base-die REG_WRITE entries. -/
def State.applyRecords (s : State) (rs : List ARec) : State :=
  let s := { s with regs := unitRegs rs s.regs }
  let h := graphHdr rs
  let s := s.modAcd (fun a => { a with xbar := xbarOf rs, sensorMap := bodyOf rs 0x40, topWrites := writesOn rs false })
  let s := s.modSeq (fun q =>
    { q with hdr := h, rstos := graphRstos rs,
             rails := (graphRails rs).map (fun c => { newRail c with pg := c.pgSrc == 0 && bitOf s.pgSeen c.pg }) })
  let s := s.setAll [(ACD_INFO.ACC_COUNT, accCountOf rs), (ACD_INFO.LP_CAP, leAt (bodyOf rs 1) 6 2),
    (ACD_INFO.SET_FMT, leAt (bodyOf rs 1) 2 2), (ACD_TRAY_TYPE.TYPE, leAt (bodyOf rs 1) 8 4),
    (SEQ_STS.IN_GOOD, b2n (s.inputGood h))]
  let s := (rs.filter (fun r => !knownType r.type)).foldl (fun s r =>
    s.log EVT_ACD_SKIP ACC_TRAY UNIT_ACD 0 [(0, 2, r.type), (4, 4, r.idx)]) (s.applyTables rs)
  (s.twApply.applyWrites (writesOn rs true)).coolConfig

/-- A floor rises to an image's counter; it never falls (R373). -/
def State.raiseFloor (s : State) (type arb : Nat) : State :=
  let f := KEY_FLOOR.FLOOR (type - 1)
  if s.get f < arb then s.commitRegs (f.key) [(f, arb)] [] else s

/-- The running firmware image's digest by NVM's marker (R63). -/
def State.markedDigest (s : State) (k : Nat) : List Byte :=
  match s.marker k with
  | none => []
  | some v => ((look (k + v) s.flash).map imgDigest).getD []

/-- What names the running Accord in the ACD registers, and its table in the retention area (R55, R66). -/
def State.acdRunning (s : State) (slot : Nat) (img : List Byte) (rs : List ARec) : State :=
  let s := s.setAll [(ACD_STS.STATE, 2), (ACD_STS.SLOT, slot), (ACD_ROLLBACK.CTR, imgArb img)]
  let s := (s.setDg ACD_IMG_DG.DG (imgDigest img)).setDg ACD_STRUCT_DG.DG (structDigest rs)
  s.modAcd (fun a => { a with table := imgHead img })

/-- Apply and lock (R52 steps 4 and 5, R63, R273). An Accord that waited for its activation is active now (R387, R391). -/
def State.acdLock (s : State) (slot : Nat) (img : List Byte) : State :=
  let rs := (recsOf (imgBody img)).1
  let s := (((s.applyRecords rs).acdRunning slot img rs).valves).raiseFloor 1 (imgArb img)
  let s := if s.on KEY_STAGED.ACD then s.commitRegs KEY_STAGED.CFW.key [(KEY_STAGED.ACD, 0)] [] else s
  let s := s.setDg ACD_SET_DG.DG s.settingsDigest
  let s := s.modAcd (fun a => { a with kfw := s.markedDigest 2, cfw := s.markedDigest 4, progs := [] })
  s.fpCompute.bootOn

/-! ### Loading at cold POR (R52 to R54) -/

/-- Of the records that a ceiling finds at fault, the first is named (R56). -/
def ceilFirst (l : List Fail) : List Fail :=
  let c := (l.filter (fun f => f.1 == 5)).map (·.2)
  l.filter (fun f => f.1 != 5) ++ (if c.isEmpty then [] else [(5, c.foldl min noRec)])

/-- The failure reported: for FAIL_STEP 0x5 the first offending record (R56). Between different steps, and between records of another
step, the spec does not say which is reported: a free choice (log entry 33). -/
def State.pickFail (s : State) (l : List Fail) : Fail × State :=
  match ceilFirst l with
  | [] => ((0, noRec), s)
  | [f] => (f, s)
  | f :: t => ((f :: t).getD (Config.free s.fresh % (f :: t).length) f, s.draw)

/-- The FAIL_STEP of an R386 code (R52, R66). -/
def stepOfCode (code : Nat) : Nat := if code ≤ 6 then 1 else if code ≤ 9 then 2 else 3

/-- Steps 1 to 4 of R52 on the image in a slot: none when it is accepted. -/
def State.acdJudge (s : State) (img : List Byte) (mismatch : Bool) : Option Fail × State :=
  let code := if imgType img = 1 then s.imgCheck img false true else 1
  if code ≠ 0 then (some (stepOfCode code, noRec), s)
  else
    let l := s.accordFails (imgSetFmt img) (imgBody img)
    if l.isEmpty then (if mismatch then (some (8, noRec), s) else (none, s))
    else
      let p := s.pickFail l
      (some p.1, p.2)

/-- The slot that the ROM tries first (R52). -/
def State.acdFirst (s : State) : Nat :=
  match s.marker 0 with
  | some v => v % 2
  | none =>
    let arb (k : Nat) : Nat := ((look k s.flash).map imgArb).getD 0
    if arb 0 < arb 1 then 1 else 0

/-- One slot tried. -/
def State.acdTry (s : State) (slot : Nat) (mismatch : Bool) : Bool × State :=
  let img := (look slot s.flash).getD []
  match s.acdJudge img mismatch with
  | (none, s) => (true, s.acdLock slot img)
  | (some f, s) => (false, s.setAll [(ACD_STS.FAIL_STEP, f.1), (ACD_STS.FAIL_REC, f.2)])

/-- The Accord load of cold POR (R52, R54). `mis` says for which slots the flash changes between the passes (R53). -/
def State.acdLoad (s : State) (mis : List Nat) : State :=
  let a := s.acdFirst
  match (s.set ACD_STS.STATE 1).acdTry a (mis.contains a) with
  | (true, s) => s
  | (false, s) =>
    match (s.set ACD_STS.OTHER_REFUSED 1).acdTry (1 - a) (mis.contains (1 - a)) with
    | (true, s) => s
    | (false, s) => s.setAll [(ACD_STS.STATE, 3), (ACD_STS.SLOT, 1 - a)]

/-! ### Top-die content (R49, R55) -/

/-- The Sensor Map written from the running Accord's record (R203, R204). -/
def State.mapLoad (s : State) : State :=
  (descsOf s.acd.sensorMap).foldl (fun s e => { s with mem := memStore s.mem (0x0401000000 + 16 * e.1) e.2 }) s

/-- Top-die content reloaded: Sensor Map, REG_WRITE entries, MAP_DONE. In the state of R54 nothing is reloaded and
MAP_LOADED stays 0 (R55, R204). -/
def State.topReload (s : State) : State :=
  if s.locked then
    ((s.mapLoad.applyWrites s.acd.topWrites).set TFAB_STS.MAP_LOADED 1).portsSync
  else s

/-! ### Live activation (R57, R58) -/

/-- Every TAMP_LIMIT value of an Accord is equal to or tighter than the value in force (R57). -/
def State.limitsTighter (s : State) (rs : List ARec) : Bool :=
  (regEntries rs 0x31).all (fun e => (fieldsAt e.1).all (fun f =>
    f.acc != .rwt || rwtTighter f (rwtBelow s.regs e.1) (s.get f) (bitsOf e.2 f.lo f.w)))

/-- Why a new Accord cannot take effect live: 0 it can, 1 boot records differ, 2 a limit is looser (R57, R445). -/
def State.acdLiveBar (s : State) (img : List Byte) : Nat :=
  let rs := (recsOf (imgBody img)).1
  if structDigest rs != s.getDg ACD_STRUCT_DG.DG then 1 else if s.limitsTighter rs then 0 else 2

/-- The live records of a new Accord take effect (R57, R309, R430): TAMP_LIMIT entries as RWT writes, the others over the
reset values of the registers that their types own (R42). DESIGN CHOICE: an unknown record that R43 skips is logged at the apply of a boot
only, and a live activation logs no EVT_ACD_SKIP (log entry 33). -/
def State.acdLive (s : State) (slot : Nat) (img : List Byte) : State :=
  let rs := (recsOf (imgBody img)).1
  let s := s.fpHold
  let old := s.regs.filter (fun e => !([0x50, 0x51, 0x52, 0x80].any (fun t =>
    ownsReg t (e.1 / 32) && ((fieldOfKey e.1).map (·.acc)) == some .rwa)))
  let live := [0x31, 0x50, 0x51, 0x52, 0x80].foldl (fun r t => pokeRec rs t r) old
  let s := (({ s with regs := live }).applyTables rs).coolConfig
  let s := (s.acdRunning slot img rs).setAll [(ACD_STS.PENDING, 0), (ACD_INFO.SET_FMT, leAt (bodyOf rs 1) 2 2)]
  let ep := s.epochNext
  let s := s.nvmCommit { kind := kindCount, key := 0, len := 64, data := [.epoch] }
  (s.log EVT_ACD_LIVE ACC_TRAY UNIT_ACD 0 [(0, 8, ep), (8, 4, imgArb img)]).fpChange 2 0

/-- A new Accord waits for the next cold POR (R57). -/
def State.acdPend (s : State) (why : Nat) (img : List Byte) : State :=
  (s.set ACD_STS.PENDING 1).log EVT_ACD_PENDING ACC_TRAY UNIT_ACD 0 [(0, 1, why), (4, 4, imgArb img)]

end Sys2Proof.Machine
end

