-- ==== Sys2Proof/Machine/InfArith.lean ====
section
/-! DEFINITION. Lane arithmetic of the Infuser's tiles and vector units (R124 to R136). A lane is a 32-bit pattern; a flag
says that the result saturated (R129, R130). -/

namespace Sys2Proof.Machine

/-- A rounded FP32 result, NaN where an operand is NaN (R129). -/
def lane2 (f : Dy → Dy → Dy) (a b : Nat) : Nat × Bool :=
  match dec32 a, dec32 b with
  | some x, some y => rne32 (f x y)
  | _, _ => (nan32, false)

def laneAdd : Nat → Nat → Nat × Bool := lane2 Dy.add
def laneSub : Nat → Nat → Nat × Bool := lane2 (fun x y => x.add y.negate)
def laneMul : Nat → Nat → Nat × Bool := lane2 Dy.mul

/-- a × b + c with one rounding (R133). -/
def laneFma (a b c : Nat) : Nat × Bool :=
  match dec32 a, dec32 b, dec32 c with
  | some x, some y, some z => rne32 ((x.mul y).add z)
  | _, _, _ => (nan32, false)

/-- x comes before y in the order of R133: −0 < +0. -/
def laneBefore (x y : Dy) : Bool := x.lt y || (!y.lt x && x.m == 0 && y.m == 0 && x.neg && !y.neg)

/-- MIN and MAX (R133). -/
def laneMin (a b : Nat) : Nat :=
  match dec32 a, dec32 b with
  | some x, some y => if laneBefore y x then b else a
  | _, _ => nan32

def laneMax (a b : Nat) : Nat :=
  match dec32 a, dec32 b with
  | some x, some y => if laneBefore x y then b else a
  | _, _ => nan32

/-- The comparisons: false when either operand is NaN. -/
def laneLe (a b : Nat) : Bool :=
  match dec32 a, dec32 b with
  | some x, some y => !y.lt x
  | _, _ => false

def laneEq (a b : Nat) : Bool := laneLe a b && laneLe b a

/-- ⌊√n⌋, bit by bit from bit k − 1 of the root down. -/
def isqrt (n : Nat) : Nat → Nat → Nat
  | 0, r => r
  | k + 1, r => if (r + 2 ^ k) * (r + 2 ^ k) ≤ n then isqrt n k (r + 2 ^ k) else isqrt n k r

/-- The largest finite FP32 magnitude (R129). -/
def maxFinite : Nat := 0x7F7FFFFF

/-- A result within 1 ulp of a number (R133): which one is the hardware's choice. `x` is the number with its last bit set
where it is not exact. -/
def withinUlp (x : Dy) (pick : Nat) : Nat × Bool :=
  let t := fp32.pack false x
  if t.2 then t
  else
    let s := if x.neg then 2 ^ 31 else 0
    let mag := t.1 - s
    let exact := (fp32.unpack t.1).at (min (fp32.unpack t.1).e x.e) == x.at (min (fp32.unpack t.1).e x.e)
    let m := if exact then mag + pick % 3 - 1 else mag + pick % 2
    (s + min maxFinite m, false)

/-- RECIP: RECIP(±0) is ±max finite (R133). -/
def laneRecip (a : Nat) : Nat × Bool :=
  match dec32 a with
  | none => (nan32, false)
  | some x =>
    if x.m = 0 then ((if x.neg then 2 ^ 31 else 0) + maxFinite, false) else withinUlp ((Dy.ofInt 1).quot x) (Config.recip a)

/-- 1 / √x of a positive number, to more than 52 bits, with the last bit set where it is not exact. -/
def rsqrtDy (x : Dy) : Dy :=
  let odd := x.e % 2 != 0
  let m := if odd then 2 * x.m else x.m
  let e := if odd then x.e - 1 else x.e
  let q := isqrt (2 ^ 160 / m) 81 0
  { neg := false, m := 2 * q + (if q * q * m = 2 ^ 160 then 0 else 1), e := -(e / 2) - 81 }

/-- RSQRT: RSQRT(+0) is max finite, of a negative value NaN (R133). RSQRT(−0) is read as of a negative value. -/
def laneRsqrt (a : Nat) : Nat × Bool :=
  match dec32 a with
  | none => (nan32, false)
  | some x =>
    if x.neg then (nan32, false)
    else if x.m = 0 then (maxFinite, false)
    else withinUlp (rsqrtDy x) (Config.rsqrt a)

/-- Adjacent values combined pairwise, level by level (R134). -/
def pairUp (f : Nat → Nat → Nat × Bool) : List Nat → List Nat × Nat
  | a :: b :: t =>
    let r := f a b
    let q := pairUp f t
    (r.1 :: q.1, b2n r.2 + q.2)
  | l => (l, 0)

/-- The fixed tree over 32 lanes: the result and how often it saturated (R134). -/
def tree32 (f : Nat → Nat → Nat × Bool) (l : List Nat) : Nat × Nat :=
  let a := pairUp f l
  let b := pairUp f a.1
  let c := pairUp f b.1
  let d := pairUp f c.1
  let e := pairUp f d.1
  (e.1.headD 0, a.2 + b.2 + c.2 + d.2 + e.2)

/-- Clamp to a signed w-bit range: the value and whether it was clamped. -/
def satInt (w : Nat) (x : Int) : Int × Bool :=
  let lo : Int := -((2 ^ (w - 1) : Nat) : Int)
  let hi : Int := ((2 ^ (w - 1) : Nat) : Int) - 1
  (clampI lo hi x, x < lo || hi < x)

/-- CVT_FX (R129, R133): the lane, sign-extended to 32 bits, whether it saturated, and whether the input was NaN. -/
def laneFix (w f : Nat) (near : Bool) (a : Nat) : Nat × Bool × Bool :=
  match dec32 a with
  | none => (0, false, true)
  | some x =>
    let r := satInt w (roundInt near (x.scale f))
    (unsgn 32 r.1, r.2, false)

/-- CVT_FP: a signed fixed-point number to FP32 (R133). -/
def laneUnfix (w f a : Nat) : Nat × Bool := rne32 ((Dy.ofInt (sgn w a)).scale (-(f : Int)))

/-- An FP32 word as a lane takes it: NaN and the infinities become the one NaN (R129). -/
def canon32 (x : Nat) : Nat := if (dec32 x).isNone then nan32 else x

/-- ACT through a table: X0, STEP_EXP and the knots (R129, R135, R136). -/
def laneAct (x0 : Nat) (stepExp : Int) (knot : Nat → Nat) (x : Nat) : Nat × Nat :=
  let d := laneSub x x0
  match dec32 d.1 with
  | none => (nan32, b2n d.2)
  | some v =>
    let u := v.scale (-stepExp)
    if u.m ≠ 0 ∧ u.neg then (canon32 (knot 0), b2n d.2)
    else
      let i := floorNat u
      if 256 ≤ i then (canon32 (knot 256), b2n d.2)
      else
        let f := u.add (Dy.ofInt (-(i : Int)))
        let dt := laneSub (knot (i + 1)) (knot i)
        match dec32 dt.1 with
        | none => (nan32, b2n d.2)
        | some t =>
          let p := rne32 (f.mul t)
          let y := laneAdd (knot i) p.1
          (y.1, b2n d.2 + b2n dt.2 + b2n p.2 + b2n y.2)

/-- RQ4 of 32 lanes: the values, the scale, and how many values saturated (R132). -/
def rq4 (near : Bool) (l : List Nat) : List Int × Nat × Nat :=
  let ds := l.map dec32
  if ds.any (·.isNone) then (l.map (fun _ => 0), 0xFF, 0)
  else
    let xs := ds.map (fun d => d.getD Dy.zero)
    let amax := xs.foldl (fun a x => if ({ a with neg := false } : Dy).lt { x with neg := false } then { x with neg := false } else a) Dy.zero
    if amax.m = 0 then (l.map (fun _ => 0), 0, 0)
    else
      let s := clampI (-127) 127 ((Nat.log2 amax.m : Int) + amax.e - 2)
      let qs := xs.map (fun x => satInt 4 (roundInt near (x.scale (-s))))
      (qs.map (·.1), (s + 127).toNat, (qs.filter (·.2)).length)

/-! ### Tiles (R126 to R128) -/

/-- The INT8 terms of the eight lanes: x are 8 input bytes, w the 64 bytes of the weight block, row after row. -/
def macInt8 (x w : List Byte) : List Int :=
  (List.range 8).map (fun j =>
    (List.range 8).foldl (fun a i => a + sgn 8 (leAt x i 1) * sgn 8 (leAt w (8 * i + j) 1)) (0 : Int))

/-- An FP8 element. -/
def decFp8 (e5 : Bool) (b : Nat) : Option Dy := if e5 then decE5m2 b else decE4m3 b

/-- An exact sum that is NaN when a term is. -/
def sumOpt (l : List (Option Dy)) : Option Dy :=
  l.foldl (fun a b => match a, b with
    | some x, some y => some (x.add y)
    | _, _ => none) (some Dy.zero)

/-- The exact FP8 terms of the eight lanes (R127). -/
def macFp8 (xe we : Bool) (x w : List Byte) : List (Option Dy) :=
  (List.range 8).map (fun j => sumOpt ((List.range 8).map (fun i =>
    match decFp8 xe (leAt x i 1), decFp8 we (leAt w (8 * i + j) 1) with
    | some a, some b => some (a.mul b)
    | _, _ => none)))

/-- The k-th 4-bit element of a byte string, the lower-numbered one in bits [3:0] (R124). -/
def nibble (b : List Byte) (k : Nat) : Int := sgn 4 (leAt b (k / 2) 1 / 16 ^ (k % 2))

/-- The exact INT4 terms of the eight lanes with block scales (R128). -/
def macInt4 (ea : Nat) (ews x w : List Byte) : List (Option Dy) :=
  (List.range 8).map (fun j =>
    let ew := leAt ews j 1
    if ea = 0xFF ∨ ew = 0xFF then none
    else some ((Dy.ofInt ((List.range 16).foldl (fun a i => a + nibble x i * nibble w (8 * i + j)) 0)).scale
      ((ew : Int) + ea - 254)))

/-- An INT32 lane after an addition (R126). -/
def accInt (a : Nat) (t : Int) : Nat × Bool :=
  let r := satInt 32 (sgn 32 a + t)
  (unsgn 32 r.1, r.2)

/-- An FP32 lane after an addition (R127, R128). -/
def accFp (a : Nat) (t : Option Dy) : Nat × Bool :=
  match dec32 a, t with
  | some x, some y => rne32 (x.add y)
  | _, _ => (nan32, false)

/-- A drain conversion of one lane (R131): the result, sign-extended where it is an integer, whether it saturated, and whether
a NaN became an integer. `ms` is the lane's M and S word; a shift code of 48 to 63, for which R131 gives neither a check nor an effect,
shifts by its amount (DESIGN CHOICE, log entry 50). -/
def drainLane (conv : Nat) (near : Bool) (ms a : Nat) : Nat × Bool × Bool :=
  match conv with
  | 0 =>
    let p := sgn 32 a * ((ms % 2 ^ 16 : Nat) : Int)
    let r := satInt 8 (roundInt near ((Dy.ofInt p).scale (-((bitsOf ms 16 6 : Nat) : Int))))
    (unsgn 32 r.1, r.2, false)
  | 1 => (a, false, false)
  | 2 => let r := rne32 (Dy.ofInt (sgn 32 a)); (r.1, r.2, false)
  | 3 => match dec32 a with
    | none => (0x7F, false, false)
    | some x => let r := e4m3.pack near x; (r.1, r.2, false)
  | 4 => match dec32 a with
    | none => (0x7F, false, false)
    | some x => let r := e5m2.pack near x; (r.1, r.2, false)
  | 5 => match dec32 a with
    | none => (0x7FC0, false, false)
    | some x => let r := bf16.pack near x; (r.1, r.2, false)
  | _ => (a, false, false)

/-- The bytes of one lane that a drain to state writes (R171). -/
def drainSize (conv : Nat) : Nat := if conv = 0 ∨ conv = 3 ∨ conv = 4 then 1 else if conv = 5 then 2 else 4

/-- A narrow drain result in a V register is sign-extended to 32 bits (R171). -/
def drainWide (conv v : Nat) : Nat :=
  if conv = 3 ∨ conv = 4 then unsgn 32 (sgn 8 v) else if conv = 5 then unsgn 32 (sgn 16 v) else v

end Sys2Proof.Machine
end

