-- ==== Sys2Proof/Machine/Infuser.lean ====
section
/-! DEFINITION. The Infuser's program slots (R141 to R149), the outputs (R152 to R155), the online adaptation (R157 to
R162) and the loading of a program (R164 to R167). The bundles of a run stand in Machine/InfRun.lean. -/

namespace Sys2Proof.Machine

/-! ### Slots -/

def State.modInf (s : State) (f : InfSt → InfSt) : State := { s with inf := f s.inf }

/-- A slot beyond its registers. -/
def State.islot (s : State) (n : Nat) : InfSlot := s.inf.slots.getD n {}

/-- A state with one slot changed. -/
def State.modIslot (s : State) (n : Nat) (f : InfSlot → InfSlot) : State :=
  s.modInf (fun t => { t with slots := modAt t.slots n f })

/-- Two cluster masks share a cluster. -/
def clShare (a b : Nat) : Bool := (List.range 4).any (fun c => bitOf a c && bitOf b c)

/-- The accelerator that a slot serves. -/
def State.slotAcc (s : State) (n : Nat) : Nat := s.get (INF_SLOT_CTL.ACC n)

/-- The status bits that show runs and waiting runs (R163). -/
def State.slotSync (s : State) (n : Nat) : State :=
  s.setAll [(INF_SLOT_STS.RUN n, b2n (s.islot n).run.isSome), (INF_SLOT_STS.PEND n, b2n (s.islot n).due.isSome),
    (INF_STS.RUNNING, maskOf 16 (fun k => (s.islot k).run.isSome)),
    (INF_STS.CL_BUSY, maskOf 4 (fun c => (List.range 16).any (fun k => (s.islot k).run.isSome && bitOf (s.clmask k) c)))]

/-- The output ports that a slot owns (R152). -/
def State.slotPorts (s : State) (n : Nat) : List Nat :=
  (List.range 64).filter (fun p => s.get (INF_OUT_CFG.SLOT p) == n && 1 ≤ s.get (INF_OUT_CFG.KIND p)
    && s.get (INF_OUT_CFG.KIND p) ≤ 5)

/-- A GUARD message from Top to Base is queued while the Bridge is UP. -/
def State.guardSend (s : State) (m : GuardMsg) : State :=
  if s.bridgeUp then { s with brg := { s.brg with guardQ := s.brg.guardQ ++ [m] } } else s

/-- The event of a refused write to the Infuser's memories, with its flag (R139, R445). -/
def State.wprotNote (s : State) (ini : Initiator) (a : Nat) : State :=
  (s.infErr INF_ERR.WPROT).logTop EVT_INF_WPROT ACC_TRAY UNIT_INF 0 [(0, 8, a), (8, 1, iniByte ini)]

/-- The release that a slot leaving ENABLED by a fault or an abort sends for its ports (R155). -/
def State.slotRelease (s : State) (n : Nat) : State := s.guardSend (.release (s.slotPorts n))

/-- A run ends by a fault or an abort (R146, R148, R155): results on their way are dropped, the slot's ports are released. Words of
the slot that stand in the output queue already have been written: they stay there and drain as proposals, also after the release
(DESIGN CHOICE, log entry 50: the spec gives no order between the two). -/
def State.slotBreak (s : State) (n cause bundle cyc st : Nat) : State :=
  let s := s.modIslot n (fun x => { x with run := none, due := none })
  let s := s.setAll [(INF_SLOT_STS.STATE n, st), (INF_SLOT_STS.STATE_BAD n, 1), (INF_SLOT_STS.CAUSE n, cause),
    (INF_SLOT_FPOS.BUNDLE n, bundle), (INF_SLOT_FCYC.CYCLE n, cyc)]
  ((s.slotSync n).slotRelease n).logTop EVT_INF_FAULT (s.slotAcc n) UNIT_INF n
    [(0, 1, n), (1, 1, cause), (4, 4, bundle), (8, 4, cyc)]

/-- A slot faults (R148). -/
def State.slotFaultAt (s : State) (n cause bundle cyc : Nat) : State :=
  (s.infErr INF_ERR.FAULT).slotBreak n cause bundle cyc slotFault

/-! ### Due runs (R144, R145) -/

/-- A trigger or tick makes a run due: it merges with a waiting one (R145). DESIGN CHOICE (log entry 50): a merged run counts as due from
the earlier of the two events, whose time R145 does not choose. -/
def State.runDue (s : State) (n : Nat) (byTick : Bool) : State :=
  (s.modIslot n (fun x => { x with due := match x.due with
    | some (t, b) => some (t, b || byTick)
    | none => some (s.topNow, byTick) })).slotSync n

/-- The Top-die timestamp is a tick of the slot (R144). -/
def State.isTick (s : State) (n : Nat) : Bool :=
  let p := s.get (INF_SLOT_PERIOD.PERIOD n)
  p != 0 && (((s.topNow / 100 : Nat) : Int) - (s.get (INF_SLOT_PHASE.PHASE n) : Nat)) % (p : Int) == 0

/-- A tick (R123, R144, R145, R147). -/
def State.slotTick (s : State) (n : Nat) : State :=
  if s.slotSt n = slotEnabled ∧ s.isTick n ∧ !s.on INF_STS.HELD then
    if !s.on INF_STS.PLL1_OK then s.bump (INF_SLOT_SKIP.SKIP n)
    else
      match (s.islot n).due with
      | some (_, true) =>
        ((s.modIslot n (fun x => { x with due := some (s.topNow, true) })).bump (INF_SLOT_SKIP.SKIP n)).slotSync n
      | _ => s.runDue n true
  else s

def execSlotTick (n : Fin 16) (s : State) : Host.Outcome State Fault Refusal := .next (s.slotTick n.val)

/-! ### Adaptation (R157 to R162) -/

def adIdle : Nat := 0
def adWindow : Nat := 1
def adHold : Nat := 2
def adDisabled : Nat := 3

/-- The type of element k: 0 FP32, 1 INT32 (biases only), 2 unsigned 16-bit multiplier (scales only); 3 stands for every code that
R157 does not list for the element. -/
def State.adType (s : State) (n k : Nat) : Nat :=
  let bias := decide (k < s.adNb n)
  let t := leNat (memBytes s.mem (s.adAddr n + (if bias then 2 else 6)) 1)
  if t = 0 ∨ t = (if bias then 1 else 2) then t else 3

/-- A word of element k: 0 BASE, 1 CUR, 2 CONF, 3 LIMIT. -/
def State.adWordAddr (s : State) (n k i : Nat) : Nat := s.adAddr n + 16 + 16 * k + 4 * i
def State.adWord (s : State) (n k i : Nat) : Nat := leNat (memBytes s.mem (s.adWordAddr n k i) 4)

/-- A DELTA word. -/
def State.adDelta (s : State) (n k : Nat) : Nat := leNat (memBytes s.mem (s.adAddr n + 16 + 16 * s.adCount n + 4 * k) 4)

/-- A 32-bit word stored in memory. -/
def State.storeWord (s : State) (a v : Nat) : State := { s with mem := memStore s.mem a (leBytes 4 v) }

/-- An FP32 value held within bounds. -/
def clampF (lo hi x : Nat) : Nat := if lt32 x lo then lo else if lt32 hi x then hi else x

/-- limit × k / 256, rounded to nearest. -/
def fracF (limit k : Nat) : Nat :=
  match dec32 limit with
  | none => nan32
  | some l => rnd32 ((l.mul (Dy.ofInt (k : Int))).scale (-8))

def negF (x : Nat) : Nat := if x < 2 ^ 31 then x + 2 ^ 31 else x - 2 ^ 31

/-- The new CUR of an element (R158); an element type that R157 does not list leaves the value open (log entry 27). -/
def adStep (type stepK bandK base cur limit delta free : Nat) : Nat :=
  if type = 0 then
    let step := fracF limit stepK
    let band := fracF limit bandK
    clampF (laneSub base band).1 (laneAdd base band).1 (laneAdd cur (clampF (negF step) step delta)).1
  else if type = 1 ∨ type = 2 then
    let step : Int := (sgn 32 limit * (stepK : Int)).tdiv 256
    let band : Int := (sgn 32 limit * (bandK : Int)).tdiv 256
    let d := clampI (-step) step (sgn 32 delta)
    let sat := fun x => (satInt 32 x).1
    let c := clampI (sat (sgn 32 base - band)) (sat (sgn 32 base + band)) (sat (sgn 32 cur + d))
    unsgn 32 (if type = 2 then clampI 1 65535 c else c)
  else free % 2 ^ 32

/-- One element of a commit: CONF takes CUR, CUR its new value (R158). -/
def State.adCommitOne (s : State) (n k : Nat) : State :=
  let t := s.adType n k
  let new := adStep t (s.get (INF_SLOT_ADCFG.STEP n)) (s.get (INF_SLOT_ADCFG.BAND n)) (s.adWord n k 0) (s.adWord n k 1)
    (s.adWord n k 3) (s.adDelta n k) (Config.free s.fresh)
  let s := if t ≤ 2 then s else s.draw
  (s.storeWord (s.adWordAddr n k 2) (s.adWord n k 1)).storeWord (s.adWordAddr n k 1) new

/-- Tamp's level of an accelerator as the engine sees it (R156). That a program can read the view as an input takes no form in a
bundle: R168 to R175 give no field for it, so no bundle of this model reads it (log entry 50). -/
def State.tampView (s : State) (a : Nat) : Nat := bitsOf (s.get INF_TAMP_VIEW.LVL) (2 * a) 2

/-- A commit is refused (R159). DESIGN CHOICE (log entry 50): a DELTA word is NaN only where its element is FP32. -/
def State.adRefuses (s : State) (n : Nat) : Bool :=
  !s.on INF_CTL.ADAPT_ALLOW || !s.on (INF_SLOT_CTL.ADAPT_EN n) || s.get (INF_SLOT_ADSTS.STATE n) != adIdle
    || (List.range (s.adCount n)).any (fun k => s.adType n k == 0 && (dec32 (s.adDelta n k)).isNone)
    || 1 ≤ s.tampView (s.slotAcc n)

/-- The commit that a run requested, at its end (R158, R159, R160). A program without an adaptation block has nothing to
commit. -/
def State.adCommit (s : State) (n : Nat) : State :=
  if !s.hasAdapt n then s
  else if s.adRefuses n then s.bump (INF_SLOT_ADREF.REFUSED n)
  else
    let s := (List.range (s.adCount n)).foldl (fun s k => s.adCommitOne n k) s
    (s.set (INF_SLOT_ADSTS.STATE n) adWindow).bump (INF_SLOT_ADSTS.COMMITS n)

/-- Every word i of the elements takes the value of word j. -/
def State.adCopy (s : State) (n i j : Nat) : State :=
  (List.range (s.adCount n)).foldl (fun s k => s.storeWord (s.adWordAddr n k i) (s.adWord n k j)) s

/-- Every CONF takes the value of CUR, through the port of the block's cluster (R87, R88, R160): outside a run a gate may be asked for, or the
clock stand, and then the confirmation changes no memory (log entry 50). -/
def State.adConfirm (s : State) (n : Nat) : State :=
  (List.range (s.adCount n)).foldl (fun s k =>
    s.portStore { dom := s.hdrAt n 120 1, addr := s.adWordAddr n k 2, bytes := leBytes 4 (s.adWord n k 1) }) s

/-- The trial window ends with the view below Amber throughout (R160, R161). -/
def State.adWindowEnd (s : State) (n : Nat) : State :=
  if s.get (INF_SLOT_ADSTS.STATE n) = adWindow ∧ !(s.islot n).rollback then
    ((s.adConfirm n).setAll [(INF_SLOT_ADSTS.STATE n, adIdle), (INF_SLOT_ADSTS.RUN_RB n, 0)]).bump
      (INF_SLOT_ADREF.CONFIRMED n)
  else s

def execAdaptWindowEnd (n : Fin 16) (s : State) : Host.Outcome State Fault Refusal := .next (s.adWindowEnd n.val)

def execAdaptHoldEnd (n : Fin 16) (s : State) : Host.Outcome State Fault Refusal :=
  .next (if s.get (INF_SLOT_ADSTS.STATE n.val) = adHold then s.set (INF_SLOT_ADSTS.STATE n.val) adIdle else s)

/-- Check-bit errors that the Infuser meets (R140). -/
def State.infEcc (s : State) (e : Ecc) : State :=
  let s := if e.corrected = 0 then s else (s.bump INF_ECC_CNT.CORR e.corrected).infErr INF_ERR.ECC_CORR
  if e.uncorr then (s.bump INF_ECC_CNT.UNCORR).infErr INF_ERR.ECC_UNCORR else s

/-- The rollback at the start of a run (R160, R161). -/
def State.adRollback (s : State) (n : Nat) : State :=
  if (s.islot n).rollback then
    let s := (s.adCopy n 1 2).modIslot n (fun x => { x with rollback := false })
    let s := (s.bump (INF_SLOT_ADSTS.ROLLBACKS n)).set (INF_SLOT_ADSTS.RUN_RB n) (min 8 (s.get (INF_SLOT_ADSTS.RUN_RB n) + 1))
    let off := s.get (INF_SLOT_ADCFG.ROLL_MAX n) + 1 ≤ s.get (INF_SLOT_ADSTS.RUN_RB n)
    (s.set (INF_SLOT_ADSTS.STATE n) (if off then adDisabled else adHold)).logTop EVT_INF_ROLLBACK (s.slotAcc n) UNIT_INF n
      [(0, 1, n), (1, 1, s.get (INF_SLOT_ADSTS.RUN_RB n)), (2, 1, s.get (INF_SLOT_ADSTS.ROLLBACKS n))]
  else s

/-- ADAPT_RST (R161, R163). -/
def State.adReset (s : State) (n : Nat) : State :=
  (s.setIf (s.get (INF_SLOT_ADSTS.STATE n) == adDisabled) (INF_SLOT_ADSTS.STATE n) adIdle).set (INF_SLOT_ADSTS.RUN_RB n) 0

def execAdaptRst (ini : Initiator) (n : Fin 16) (s : State) : Host.Outcome State Fault Refusal :=
  .next (s.command ini (INF_SLOT_ADSTS.ADAPT_RST n.val).addr (fun s => s.adReset n.val))

/-- The view shows Amber or above for the slot's accelerator in its trial window: the change is rolled back (R160). -/
def State.adWatch (s : State) (n : Nat) : State :=
  if s.get (INF_SLOT_ADSTS.STATE n) = adWindow ∧ 1 ≤ s.tampView (s.slotAcc n) then s.modIslot n (fun x => { x with rollback := true })
  else s

/-- A Tamp level reaches the view (R156, R160). -/
def State.viewUpdate (s : State) (a lvl : Nat) : State :=
  let v := s.get INF_TAMP_VIEW.LVL
  (List.range 16).foldl State.adWatch (s.set INF_TAMP_VIEW.LVL (v - bitsOf v (2 * a) 2 * 2 ^ (2 * a) + lvl % 4 * 2 ^ (2 * a)))

/-! ### Starting and ending a run (R145, R176) -/

/-- What a due run of the slot needs beside its turn: nothing that holds the engine, every cluster free and running (R123, R145, R147). -/
def State.slotReady (s : State) (n : Nat) : Bool :=
  s.slotSt n == slotEnabled && (s.islot n).run.isNone && (s.islot n).due.isSome && s.on INF_CTL.RUN && !s.on INF_STS.HELD
    && s.on INF_STS.PLL1_OK && (List.range 4).all (fun c => !(bitOf (s.clmask n) c && s.gated c))
    && (List.range 16).all (fun k => !((s.islot k).run.isSome && clShare (s.clmask k) (s.clmask n)))

/-- A run of the slot may start: no lower slot that could start now waits for one of its clusters (R145). A lower slot that waits for
another cluster besides takes no turn. -/
def State.mayStart (s : State) (n : Nat) : Bool :=
  s.slotReady n && (List.range n).all (fun k => !(s.slotReady k && clShare (s.clmask k) (s.clmask n)))

/-- The registers of a cluster are undefined at the first run after a load (R173). -/
def State.clFresh (s : State) (mask : Nat) : State :=
  let b := s.fresh
  { s.modInf (fun t => { t with cls := t.cls.mapIdx (fun c x => if bitOf mask c then { regs := [], epoch := b + 16384 * c } else x) })
    with fresh := b + 65536 }

/-- How late a run starts in ns, counted from 16 cycles after it fell due; a start within the BASE cycle that the 16 cycles
end in is on time, since the model's clock advances by whole BASE cycles (log entry 3). -/
def State.lateBy (s : State) (ts : Nat) : Nat := if s.topNow < ts + 16 + 13 then 0 else s.topNow - (ts + 16)

/-- A due run starts (R145, R160). Where its rollback reads an uncorrectable word, the slot faults instead, at bundle 0 and cycle 0, and nothing
is rolled back (R140; log entry 50). -/
def State.runStart (s : State) (n : Nat) (e : Ecc := {}) : State :=
  match (s.islot n).due with
  | none => s
  | some (ts, _) =>
    if s.mayStart n then
      let late := s.lateBy ts
      let s := if late = 0 then s
        else (s.bump (INF_SLOT_SKIP.LATE n)).setAll [(INF_SLOT_DELAY.LAST n, min 0xFFFF late),
          (INF_SLOT_DELAY.MAX n, max (s.get (INF_SLOT_DELAY.MAX n)) (min 0xFFFF late))]
      let s := if (s.islot n).fresh then s.clFresh (s.clmask n) else s
      let s := s.modIslot n (fun x => { x with due := none, fresh := false, run := some {} })
      let s := if (s.islot n).rollback then s.infEcc e else s
      if (s.islot n).rollback && e.uncorr then s.slotFaultAt n 7 0 0 else (s.adRollback n).slotSync n
    else s

def execRunStart (n : Fin 16) (s : State) (ecc : Ecc := {}) : Host.Outcome State Fault Refusal := .next (s.runStart n.val ecc)

/-! ### Output words (R153) -/

/-- A counter of the slot that a NaN output raises. -/
def State.nanDrop (s : State) (n : Nat) : State := s.bump (INF_SLOT_OUT.NANDROP n)

/-- A value held within a port's bounds, signed for kind 1 (R152, R153). -/
def State.portClamp (s : State) (p v : Nat) : Nat :=
  let lo := s.get (INF_OUT_BND.LO p)
  let hi := s.get (INF_OUT_BND.HI p)
  if s.get (INF_OUT_CFG.KIND p) = 1 then unsgn 16 (clampI (sgn 16 lo) (sgn 16 hi) (sgn 16 v)) else clampN lo hi (v % 2 ^ 16)

/-- An output word reaches the output queue (R153, points 2 to 6). -/
def State.outWrite (s : State) (n p v : Nat) (tag : Bool) : State :=
  let stop := match (s.islot n).run with
    | some r => r.nanStop
    | none => false
  if stop then s.nanDrop n
  else if tag then
    let s := s.nanDrop n
    if s.on (INF_SLOT_CTL.NAN_POL n) then s
    else s.modIslot n (fun x => { x with run := x.run.map (fun r => { r with nanStop := true }) })
  else
    let c := s.portClamp p v
    let s := if c = v % 2 ^ 16 then s else s.bump (INF_SLOT_OUT.CLAMP n)
    if s.inf.outQ.length < 128 then
      s.modInf (fun t => { t with outQ := t.outQ ++ [{ port := p, val := c, ts := s.topNow, fb := s.fb }] })
    else
      let s := (s.bump INF_OUTQ.DROP).infErr INF_ERR.OUTQ_DROP
      s.logTop EVT_INF_OUTQ ACC_TRAY UNIT_INF n [(0, 1, p), (2, 2, s.get INF_OUTQ.DROP)]

/-- The proposals that may still go in this microsecond: 32 of the guard values of a microsecond are theirs (R29, R153). -/
def State.outRoom (s : State) : Nat := if s.inf.outUs = s.topNow / 1000 then 32 - s.inf.outN else 32

/-- The oldest output words go onto GUARD in one message of up to 16 (R29, R153). -/
def State.outDrain (s : State) : State :=
  let k := min (min 16 s.outRoom) s.inf.outQ.length
  if s.bridgeUp && k != 0 then
    (s.modInf (fun x =>
      { x with outQ := x.outQ.drop k, outUs := s.topNow / 1000, outN := 32 - s.outRoom + k })).guardSend
        (.proposals ((s.inf.outQ.take k).map (fun w => (w.port, w.val))))
  else s

def execOutputQueueDrain (s : State) : Host.Outcome State Fault Refusal := .next s.outDrain

/-! ### The Signature Table (R179 to R181) -/

/-- The set of a key (R180). -/
def sigSet (acc model : Nat) : Nat := crc32c (leBytes 4 acc ++ leBytes 4 model) % 4096

/-- The address of way w of a set (R180). -/
def sigAddr (set w : Nat) : Nat := 0x0402000000 + (4 * set + w) * 32

/-- The ways of a set that match a key (R180). -/
def State.sigWays (s : State) (acc model : Nat) : List Nat :=
  (List.range 4).filter (fun w =>
    let e := memBytes s.mem (sigAddr (sigSet acc model) w) 8
    bitOf (leAt e 0 4) 0 && bitsOf (leAt e 0 4) 1 3 == acc && leAt e 4 4 == model)

/-- An entry written by a Control core in the order of R181. -/
def State.sigStore (s : State) (w : Nat) (e : List Byte) : State := { s with mem := memStore s.mem w (padTo 32 e) }

/-- An entry installed (R181): over the way with its key, else into a way without a valid entry; none is free in a full set. An
entry with VALID = 0 takes its key out. -/
def State.sigInstall (s : State) (e : List Byte) : Option State :=
  let acc := bitsOf (leAt e 0 4) 1 3
  let model := leAt e 4 4
  let set := sigSet acc model
  let free := (List.range 4).filter (fun w => !bitOf (leNat (memBytes s.mem (sigAddr set w) 4)) 0)
  match (s.sigWays acc model ++ (if bitOf (leAt e 0 4) 0 then free else [])).head? with
  | some w => some (s.sigStore (sigAddr set w) e)
  | none => if bitOf (leAt e 0 4) 0 then none else some s

/-- An image's signature entries installed with ACC and SLOT of its slot (R181); the work of C2's firmware (R402). -/
def State.sigReinstall (s : State) (n : Nat) (b : List Byte) : State :=
  if s.coreRuns 2 then
    let k := leAt b 10 2
    (List.range k).foldl (fun s i =>
      let e := slice b (b.length - 32 * k + 32 * i) 32
      let ctl := leAt e 0 4 % 2 + 2 * s.slotAcc n + 16 * n
      (s.sigInstall (leBytes 4 ctl ++ e.drop 4)).getD s) s
  else s

/-- The signature entries of a slot's active image installed (R181). -/
def State.sigImage (s : State) (n : Nat) : State :=
  match look (16 + n) s.flash with
  | some img => s.sigReinstall n (imgBody img)
  | none => s

/-! ### Slot control (R143, R146) -/

/-- A slot's share of a cluster, as numerator and denominator; a trigger-only slot (PERIOD = 0) adds none
(R143; DESIGN CHOICE, log entry 50: the quotient of check 0x5 has no value there). -/
def State.slotShare (s : State) (n : Nat) : Nat × Nat :=
  let p := s.get (INF_SLOT_PERIOD.PERIOD n)
  if p = 0 then (0, 1) else (s.get (INF_SLOT_PROG.CYC n), 100 * p)

/-- The shares of the ENABLED slots that use a cluster, and of slot `also`, added up (R143). -/
def State.clShares (s : State) (c : Nat) (also : Option Nat) : Nat × Nat :=
  (List.range 16).foldl (fun a k =>
    if (s.slotSt k = slotEnabled ∨ also = some k) ∧ bitOf (s.clmask k) c then
      let x := s.slotShare k
      (a.1 * x.2 + x.1 * a.2, a.2 * x.2)
    else a) (0, 1)

/-- Two ports clash: same kind 1 or 2 and same target, or kind 5 and same accelerator (R143). -/
def State.portClash (s : State) (p q : Nat) : Bool :=
  let k := s.get (INF_OUT_CFG.KIND p)
  k == s.get (INF_OUT_CFG.KIND q)
    && (((k == 1 || k == 2) && s.get (INF_OUT_CFG.TARGET p) == s.get (INF_OUT_CFG.TARGET q))
      || (k == 5 && s.get (INF_OUT_CFG.ACC p) == s.get (INF_OUT_CFG.ACC q)))

/-- The first failing check of an enable, 0 for none (R143). -/
def State.enableCheck (s : State) (n : Nat) : Nat :=
  let p := s.get (INF_SLOT_PERIOD.PERIOD n)
  let cyc := s.get (INF_SLOT_PROG.CYC n)
  if s.slotSt n = slotEmpty then 1
  else if p ≠ 0 ∧ (p < 10 ∨ 100000 < p) then 2
  else if p ≠ 0 ∧ p ≤ s.get (INF_SLOT_PHASE.PHASE n) then 3
  else if p ≠ 0 ∧ 99 * p < cyc + 16 then 4
  else if (List.range 4).any (fun c => bitOf (s.clmask n) c
      && (let x := s.clShares c (some n); decide (9 * x.2 < 10 * x.1))) then 5
  else if s.get ACD_INFO.ACC_COUNT ≤ s.slotAcc n then 6
  else if s.on (INF_SLOT_STS.STATE_BAD n) then 7
  else if (s.slotPorts n).any (fun q => (List.range 64).any (fun r =>
      s.slotSt (s.get (INF_OUT_CFG.SLOT r)) == slotEnabled && s.get (INF_OUT_CFG.SLOT r) != n && s.portClash q r)) then 8
  else 0

/-- EN = 1 written (R143); the firmware installs the image's signature entries for a slot that is enabled (R181). -/
def State.slotEnable (s : State) (n : Nat) : State :=
  if s.slotSt n = slotLoaded ∨ s.slotSt n = slotEmpty then
    let c := s.enableCheck n
    if c = 0 then (s.setAll [(INF_SLOT_STS.STATE n, slotEnabled), (INF_SLOT_CTL.EN n, 1)]).sigImage n
    else (s.setAll [(INF_SLOT_CTL.EN n, 0), (INF_SLOT_STS.REFUSE n, c)]).logTop EVT_INF_REFUSED (s.slotAcc n) UNIT_INF n
      [(0, 1, n), (1, 1, c)]
  else s

/-- EN = 0 written (R141, R146): without a run in progress STOPPING ends at once. -/
def State.slotDisable (s : State) (n : Nat) : State :=
  let s := s.set (INF_SLOT_CTL.EN n) 0
  if s.slotSt n = slotEnabled then
    ((s.modIslot n (fun x => { x with due := none })).set (INF_SLOT_STS.STATE n)
      (if (s.islot n).run.isSome then slotStopping else slotLoaded)).slotSync n
  else s

/-- The state windows set to zero, and the adaptation block to its image values, through the clusters' ports (R87, R146, R157, R162). -/
def State.windowZero (s : State) (n : Nat) : State :=
  let s := (s.slotClusters n).foldl (fun s c =>
    let w := s.stateWin n c
    s.portStore { dom := c, addr := w.1, zero := w.2, bytes := [] }) s
  s.portStore { dom := s.hdrAt n 120 1, addr := s.adAddr n, bytes := (s.islot n).adImg }

/-- STATE_INIT (R146, R162). DESIGN CHOICE (log entry 50): the adaptation state returns to IDLE and RUN_RB stays. -/
def State.stateInit (s : State) (n : Nat) : State :=
  if s.slotSt n = slotLoaded ∨ s.slotSt n = slotFault then
    ((s.windowZero n).modIslot n (fun x => { x with rollback := false })).setAll
      [(INF_SLOT_STS.STATE_BAD n, 0), (INF_SLOT_ADSTS.STATE n, adIdle)]
  else s

/-- CLR_FAULT (R141). -/
def State.slotClear (s : State) (n : Nat) : State :=
  if s.slotSt n = slotFault then s.set (INF_SLOT_STS.STATE n) slotLoaded else s

/-- STOP_ALL (R163). -/
def State.stopAll (s : State) : State := (List.range 16).foldl State.slotDisable s

/-- INF_CNT_CLR (R163). DESIGN CHOICE (log entry 50): INF_SLOTn_DELAY, which holds times, and RUN_RB, which R161 sets, are none of the counters
that it clears. -/
def State.infCntClr (s : State) : State :=
  (List.range 16).foldl (fun s n => s.setAll [(INF_SLOT_RUNS.CNT n, 0), (INF_SLOT_SKIP.SKIP n, 0), (INF_SLOT_SKIP.LATE n, 0),
    (INF_SLOT_ADSTS.COMMITS n, 0), (INF_SLOT_ADSTS.ROLLBACKS n, 0), (INF_SLOT_ADREF.REFUSED n, 0),
    (INF_SLOT_ADREF.CONFIRMED n, 0), (INF_SLOT_SAT.SAT_CNT n, 0), (INF_SLOT_SAT.NAN_CNT n, 0), (INF_SLOT_OUT.CLAMP n, 0),
    (INF_SLOT_OUT.NANDROP n, 0)])
    (s.setAll [(INF_ECC_CNT.CORR, 0), (INF_ECC_CNT.UNCORR, 0), (INF_OUTQ.DROP, 0)])

def execSlotEnable (ini : Initiator) (n : Fin 16) (s : State) : Host.Outcome State Fault Refusal :=
  .next (s.command ini (INF_SLOT_CTL.EN n.val).addr (fun s => s.slotEnable n.val))

def execSlotDisable (ini : Initiator) (n : Fin 16) (s : State) : Host.Outcome State Fault Refusal :=
  .next (s.command ini (INF_SLOT_CTL.EN n.val).addr (fun s => s.slotDisable n.val))

def execStateInit (ini : Initiator) (n : Fin 16) (s : State) : Host.Outcome State Fault Refusal :=
  .next (s.command ini (INF_SLOT_CTL.STATE_INIT n.val).addr (fun s => s.stateInit n.val))

def execClrFault (ini : Initiator) (n : Fin 16) (s : State) : Host.Outcome State Fault Refusal :=
  .next (s.command ini (INF_SLOT_CTL.CLR_FAULT n.val).addr (fun s => s.slotClear n.val))

def execStopAll (ini : Initiator) (s : State) : Host.Outcome State Fault Refusal :=
  .next (s.command ini INF_CTL.STOP_ALL.addr State.stopAll)

def execInfCntClr (ini : Initiator) (s : State) : Host.Outcome State Fault Refusal :=
  .next (s.command ini INF_CNT_CLR.CLR.addr State.infCntClr)

/-- The engine is held or let go by power control (R147, R189). A run that is due when the hold begins is dropped, since slots resume at
their next tick (DEDUCED, log entry 50); a hint whose trigger time has passed under the hold fires LATE after it (R189). -/
def State.infHold (s : State) (on : Bool) : State :=
  let held := s.on HNT_STS.HELD
  let now := s.topNow
  let s := (s.setB INF_STS.HELD on).setB HNT_STS.HELD on
  if on then (List.range 16).foldl (fun s n => (s.modIslot n (fun x => { x with due := none })).slotSync n) s
  else if held then s.modInf (fun t => { t with hints := t.hints.map (fun h => if h.trig ≤ now then { h with late := true } else h) })
  else s

/-- A cluster reports idle to the gating handshake (R147). -/
def State.clusterIdle (s : State) (c : Nat) : Bool :=
  (List.range 16).all (fun n => !bitOf (s.clmask n) c || ((s.islot n).run.isNone
    && (s.on INF_STS.HELD || (s.slotSt n != slotEnabled && s.slotSt n != slotStopping))))

/-! ### Loading a program (R142, R164 to R167) -/

/-- The bytes of one bundle of a body. -/
def bodyBundle (b : List Byte) (nact k : Nat) : List Byte := slice b (256 + nact * 1056 + 128 * k) 128

/-- The cycles of a program's groups: REP + 1 + WAIT of each group's last bundle (R166, R169). The final bundle is the last of its group. -/
def groupCycles (b : List Byte) (nact nbun : Nat) : Nat :=
  (List.range nbun).foldl (fun a k =>
    let u := bodyBundle b nact k
    if bitOf (leAt u 0 2) 2 && k + 1 != nbun then a else a + leAt u 4 1 + 1 + leAt u 2 2) 0

/-- The lengths of the sections for each cluster: weights at 36 + 8n, initial state at 96 + 4n (R164). -/
def secLen (b : List Byte) (mask base step : Nat) (upto : Nat) : Nat :=
  (List.range upto).foldl (fun a c => if bitOf mask c then a + leAt b (base + step * c) 4 else a) 0

/-- Where the state sections begin in a body. -/
def stateSecs (b : List Byte) : Nat :=
  256 + leAt b 3 1 * 1056 + leAt b 8 2 * 128 + secLen b (leAt b 2 1) 36 8 4

/-- Two ranges meet. -/
def overlaps (a1 l1 a2 l2 : Nat) : Bool := a1 < a2 + l2 && a2 < a1 + l1

/-- A body's window in cluster c overlaps a window of another slot that is not EMPTY (R166, code 4). -/
def State.windowClash (s : State) (n : Nat) (b : List Byte) : Bool :=
  (List.range 16).any (fun k => k != n && s.slotSt k != slotEmpty && (List.range 4).any (fun c =>
    bitOf (leAt b 2 1) c && bitOf (s.clmask k) c
      && (overlaps (leAt b (32 + 8 * c) 4) (leAt b (36 + 8 * c) 4) (s.hdrAt k (32 + 8 * c) 4) (s.hdrAt k (36 + 8 * c) 4)
        || overlaps (leAt b (64 + 8 * c) 4) (leAt b (68 + 8 * c) 4) (s.hdrAt k (64 + 8 * c) 4) (s.hdrAt k (68 + 8 * c) 4))))

/-- The adaptation block of a body, as its bytes stand in the state section: 0 elements where it has none. -/
def bodyAdapt (b : List Byte) : Nat × List Byte :=
  let o := stateSecs b + secLen b (leAt b 2 1) 96 4 (leAt b 120 1) + leAt b 124 4
  let cnt := leAt b o 2 + leAt b (o + 4) 2
  (16 + 20 * cnt, slice b o (16 + 20 * cnt))

/-- The bytes of the fields that R165 gives as 0. -/
def reservedZero (b : List Byte) : Bool :=
  leAt b 20 12 == 0 && leAt b 113 3 == 0 && leAt b 121 3 == 0 && leAt b 192 64 == 0 && leAt b 2 1 < 16
    && leAt b 4 4 < 2 ^ 24 && leAt b 16 4 < 4

/-- The windows of one cluster stand as R166 code 3 asks. DESIGN CHOICE (log entry 50): the alignments of R165 that belong to a cluster are
judged here, SINIT's among them; those of MBOX_OFS and AD_OFS are judged nowhere, since code 6 does not name them. -/
def windowOk (b : List Byte) (c : Nat) : Bool :=
  let wb := leAt b (32 + 8 * c) 4
  let wl := leAt b (36 + 8 * c) 4
  let sb := leAt b (64 + 8 * c) 4
  let sl := leAt b (68 + 8 * c) 4
  if bitOf (leAt b 2 1) c then
    0 < wl && 0 < sl && wb + wl ≤ 0x200000 && sb + sl ≤ 0x80000 && wb % 4096 == 0 && wl % 64 == 0 && sb % 4096 == 0
      && sl % 128 == 0 && leAt b (96 + 4 * c) 4 % 128 == 0
  else wb == 0 && wl == 0 && sb == 0 && sl == 0

/-- The first failing check of a load, 0 for none (R166). -/
def State.loadCheck (s : State) (n : Nat) (b : List Byte) : Nat :=
  let mask := leAt b 2 1
  let nact := leAt b 3 1
  let nbun := leAt b 8 2
  let nsig := leAt b 10 2
  let cyc := leAt b 4 4
  if leAt b 0 2 ≠ 1 ∨ !reservedZero b then 1
  else if mask % 16 = 0 ∨ 8 < nact ∨ nbun = 0 ∨ 1976 < nbun ∨ 2048 < nsig ∨ cyc = 0 then 2
  else if !(List.range 4).all (windowOk b) then 3
  else if s.windowClash n b then 4
  else if (List.range 4).any (fun c => leAt b (68 + 8 * c) 4 < leAt b (96 + 4 * c) 4) then 5
  else if (bitOf (leAt b 16 4) 0 && (!bitOf mask (leAt b 112 1) || 3 < leAt b 112 1
      || decide (leAt b (68 + 8 * leAt b 112 1) 4 < leAt b 116 4 + 320)))
    || (bitOf (leAt b 16 4) 1 && (!bitOf mask (leAt b 120 1) || 3 < leAt b 120 1
      || decide (leAt b (96 + 4 * leAt b 120 1) 4 < leAt b 124 4 + (bodyAdapt b).1))) then 6
  else if b.length ≠ stateSecs b + secLen b mask 96 4 4 + nsig * 32 then 7
  else if !(List.range nbun).all (fun k => bitOf (leAt (bodyBundle b nact k) 0 2) 4 == (k + 1 == nbun))
    || groupCycles b nact nbun != cyc then 8
  else 0

/-- The elements of an adaptation block with CUR = CONF = BASE (R157, R162). -/
def adImage (bytes : List Byte) : List Byte :=
  let cnt := leAt bytes 0 2 + leAt bytes 4 2
  slice bytes 0 16 ++ (List.range cnt).flatMap (fun k =>
    let base := slice bytes (16 + 16 * k) 4
    base ++ base ++ base ++ slice bytes (28 + 16 * k) 4) ++ bytes.drop (16 + 16 * cnt)

/-- A body written into slot memory, and through the clusters' ports into weight and state windows (R87, R142, R167). The adaptation
state returns to IDLE; RUN_RB stays (R162; DESIGN CHOICE, log entry 50). -/
def State.loadBody (s : State) (n : Nat) (b : List Byte) : State :=
  let mask := leAt b 2 1
  let nact := leAt b 3 1
  let nbun := leAt b 8 2
  let m := memForget s.mem (slotBase n) (slotBase n + 0x40000)
  let m := memStore m (slotBase n) (slice b 0 256)
  let m := (List.range nact).foldl (fun m k => memStore m (slotBase n + 0x100 + k * 0x420) (slice b (256 + k * 1056) 1056)) m
  let m := (List.range nbun).foldl (fun m k => memStore m (slotBase n + 0x2400 + k * 128) (bodyBundle b nact k)) m
  let s := { s with mem := m }
  let s := (bitList 4 mask).foldl (fun s c =>
    let w := s.weightWin n c
    let t := s.stateWin n c
    let wo := 256 + nact * 1056 + nbun * 128 + secLen b mask 36 8 c
    let so := stateSecs b + secLen b mask 96 4 c
    (s.portStore { dom := c, addr := w.1, bytes := slice b wo w.2 }).portStore
      { dom := c, addr := t.1, zero := t.2, bytes := slice b so (leAt b (96 + 4 * c) 4) }) s
  let img := if bitOf (leAt b 16 4) 1 then adImage (bodyAdapt b).2 else []
  let s := s.modIslot n (fun _ => { adImg := img })
  let s := s.portStore { dom := s.hdrAt n 120 1, addr := s.adAddr n, bytes := img }
  (s.setAll [(INF_SLOT_PROG.CYC n, leAt b 4 4), (INF_SLOT_PROG.CLMASK n, mask), (INF_SLOT_PROG.NACT n, nact),
    (INF_SLOT_STS.STATE n, slotLoaded), (INF_SLOT_STS.STATE_BAD n, 0), (INF_SLOT_ADSTS.STATE n, adIdle),
    (INF_SLOT_CTL.EN n, 0)]).slotSync n

/-- A load of a body into a slot (R142, R166, R167): refused while the slot runs, and by the first failing check. The result
is the check's code; 0xFF for a slot that is ENABLED or STOPPING. -/
def State.loadProgram (s : State) (n : Nat) (b : List Byte) : Nat × State :=
  if s.slotSt n = slotEnabled ∨ s.slotSt n = slotStopping then (0xFF, s)
  else
    let c := s.loadCheck n b
    if c = 0 then (0, s.loadBody n b)
    else (c, s.logTop EVT_INF_LOAD (s.slotAcc n) UNIT_INF n [(0, 1, n), (1, 1, c)])

end Sys2Proof.Machine
end

