-- ==== Sys2Proof/Machine/InfRun.lean ====
section
/-! DEFINITION. A run of an Infusion program (R168 to R178): the bundle fields, the checks, what each operation reads when it
issues and writes when its result lands, and the end of a run. -/

namespace Sys2Proof.Machine

/-! ### Bundles (R168, R169) -/

/-- Bytes of a bundle in slot memory. -/
def State.bundle (s : State) (n b : Nat) : List Byte := memBytes s.mem (slotBase n + 0x2400 + 128 * b) 128

def bCl (b : List Byte) : Nat := leAt b 0 2 % 4
def bChain (b : List Byte) : Bool := bitOf (leAt b 0 2) 2
def bAdapt (b : List Byte) : Bool := bitOf (leAt b 0 2) 3
def bLast (b : List Byte) : Bool := bitOf (leAt b 0 2) 4
def bWait (b : List Byte) : Nat := leAt b 2 2
def bRep (b : List Byte) : Nat := leAt b 4 1

/-- Field set k is used: 0 WF, 1 TL, 2 SR, 3 SW, 4 VX, 5 SM, 6 XW, 7 OW. -/
def bUses (b : List Byte) (k : Nat) : Bool := bitOf (leAt b 5 1) k

/-- The bundles of a group from bundle k on: up to five, one more than a group may hold. A group is a run of the program's bundles, so
its final bundle ends one whatever its CHAIN is (R169; DEDUCED, log entry 50). -/
def State.groupFrom (s : State) (n k : Nat) : Nat → List (List Byte)
  | 0 => []
  | fuel + 1 =>
    let b := s.bundle n k
    b :: (if bChain b && decide (k + 1 < s.hdrAt n 8 2) then s.groupFrom n (k + 1) fuel else [])

/-- The rules of R169 for a group: at most four bundles, distinct clusters, one REP, WAIT only in the last. -/
def groupOk (g : List (List Byte)) : Bool :=
  g.length ≤ 4 && (g.map bCl).eraseDups.length == g.length && (g.map bRep).eraseDups.length ≤ 1
    && g.dropLast.all (fun b => bWait b == 0)

/-! ### Encoding checks (R168, R171, R172, R177) -/

/-- Bytes [o, o + k) of a bundle are zero. -/
def fieldZero (b : List Byte) (o k : Nat) : Bool := leAt b o k == 0

/-- A field set that is not used is all zero (R168). -/
def idleZero (b : List Byte) : Bool :=
  [(0, 8, 12), (1, 20, 16), (2, 36, 8), (3, 44, 8), (4, 52, 12), (5, 64, 12), (6, 76, 8), (7, 84, 3)].all
    (fun f => bUses b f.1 || fieldZero b f.2.1 f.2.2)

/-- A byte value that uses only bits below w. -/
def low (b : List Byte) (o w : Nat) : Bool := leAt b o 1 < 2 ^ w

/-- Fields of the tile set that are coded legally. -/
def tlOk (b : List Byte) : Bool :=
  let op := leAt b 20 1
  let fmt := leAt b 21 1
  1 ≤ op && op ≤ 5 && fmt < 16 && fmt % 4 != 3 && (fmt % 4 == 1 || fmt < 4) && low b 23 4
    && leAt b 24 1 % (if op = 4 then 32 else 8) == 0 && leAt b 26 1 % 8 != 7 && low b 26 5 && low b 27 6
    && !(op == 5 && !bitOf (leAt b 26 1) 4 && 4 < popCount 8 (leAt b 22 1))

/-- The latency of a vector operation, 0 for a code that is illegal (R133, R172). -/
def vxLat (op : Nat) : Nat :=
  if op = 0 then 0 else if op ≤ 4 then 6 else if op ≤ 9 then 4 else if op = 0x0A then 2 else if op = 0x0B then 8
  else if op ≤ 0x0D then 12 else if op ≤ 0x0F then 10 else if op ≤ 0x11 then 4 else if op = 0x12 then 6
  else if op = 0x13 then 8 else 0

/-- The vector operation compares into a mask. -/
def vxCmp (op : Nat) : Bool := op == 7 || op == 8 || op == 9

/-- Fields of the vector set that are coded legally. -/
def vxOk (b : List Byte) : Bool :=
  let op := leAt b 52 1
  let p := leAt b 57 1
  vxLat op != 0 && low b 53 (if vxCmp op then 2 else 4) && low b 54 4 && low b 55 4 && low b 56 (if op = 0x0A then 2 else 4)
    && (if op = 0x0B then p < 8
        else if op = 0x10 then bitsOf p 5 2 != 3
        else if op = 0x11 then bitsOf p 5 2 != 3 && p < 128
        else if op = 0x12 ∨ op = 0x13 then p % 128 == 0
        else p == 0)
    && leAt b 60 4 % 4 == 0

/-- The width in bytes of a state write (R168). -/
def swWidth (b : List Byte) : Nat := [128, 64, 32].getD (leAt b 49 1) 0

/-- A bundle is encoded legally (R177, cause 0x8). DESIGN CHOICE (log entry 50), since R168 does not say whether unused fields of a used
set are judged: WF_SADDR is with SCL = 0, TL_XOFS for every tile operation, SEL of SM1_CH only with SM_N = 2. -/
def bundleOk (b : List Byte) : Bool :=
  leAt b 0 2 < 32 && fieldZero b 6 2 && fieldZero b 42 2 && fieldZero b 50 2 && fieldZero b 58 2 && fieldZero b 74 2 && fieldZero b 78 2
    && fieldZero b 87 41 && idleZero b
    && (!bUses b 0 || (leAt b 8 4 % 64 == 0 && leAt b 12 4 % 8 == 0 && low b 19 1))
    && (!bUses b 1 || tlOk b)
    && (!bUses b 2 || (leAt b 36 4 % 128 == 0 && leAt b 40 1 ≤ 0x10))
    && (!bUses b 3 || (low b 48 4 && swWidth b != 0 && leAt b 44 4 % swWidth b == 0))
    && (!bUses b 4 || vxOk b)
    && (!bUses b 5 || (leAt b 68 4 % 8 == 0 && (leAt b 72 1 == 1 || leAt b 72 1 == 2) && leAt b 64 2 / 8192 ≤ 4
        && (leAt b 72 1 == 1 || leAt b 66 2 / 8192 ≤ 4)))
    && (!bUses b 6 || (low b 76 4 && low b 77 2 && leAt b 80 4 % 128 == 0))
    && (!bUses b 7 || (low b 84 6 && low b 85 4 && low b 86 7))

/-! ### Cluster registers (R173) -/

/-- What a cluster's register key holds; a register that no program has written since the load holds a free value. -/
def State.clGet (s : State) (c key : Nat) : Nat :=
  let x := s.inf.cls.getD c {}
  (look key x.regs).getD (Config.free (x.epoch + key))

/-- A cluster's register key written. -/
def State.clPut (s : State) (c key v : Nat) : State :=
  s.modInf (fun t => { t with cls := modAt t.cls c (fun x => { x with regs := put key v x.regs }) })

/-- Consecutive keys written. -/
def State.clPutAll (s : State) (c key : Nat) : List Nat → State
  | [] => s
  | v :: t => (s.clPut c key v).clPutAll c (key + 1) t

def keyLane (v l : Nat) : Nat := v * 32 + l
def keyMask (m : Nat) : Nat := 512 + m
def keyXr : Nat := 1024
def keyWr (tile : Nat) : Nat := 2048 + tile * 64
def keyScale (tile : Nat) : Nat := 4096 + tile * 8
def keyAcc (tile set : Nat) : Nat := 8192 + tile * 128 + set * 8

/-- A lane's 32 bits and its NaN tag. -/
def State.lane (s : State) (c v l : Nat) : Nat := s.clGet c (keyLane v l) % 2 ^ 32
def State.laneTag (s : State) (c v l : Nat) : Bool := bitOf (s.clGet c (keyLane v l)) 32

/-- The 32 lanes of a V register. -/
def State.lanes (s : State) (c v : Nat) : List Nat := (List.range 32).map (s.lane c v)

/-- A byte of XR; past its 128 bytes the spec names no byte, and the value is open. -/
def State.xrByte (s : State) (c i : Nat) : Byte :=
  BitVec.ofNat 8 (if i < 128 then s.clGet c (keyXr + i) else Config.free i)

def State.xrBytes (s : State) (c o k : Nat) : List Byte := (List.range k).map (fun i => s.xrByte c (o + i))

/-- The bytes of a tile's weight block, its column scales, the lanes of an accumulator set. -/
def State.wrBytes (s : State) (c tile k : Nat) : List Byte :=
  (List.range k).map (fun i => BitVec.ofNat 8 (s.clGet c (keyWr tile + i)))
def State.scaleBytes (s : State) (c tile : Nat) : List Byte :=
  (List.range 8).map (fun i => BitVec.ofNat 8 (s.clGet c (keyScale tile + i)))
def State.accLanes (s : State) (c tile set : Nat) : List Nat :=
  (List.range 8).map (fun i => s.clGet c (keyAcc tile set + i) % 2 ^ 32)

/-- Little-endian 32-bit words of a byte string. -/
def wordsOf (k : Nat) (b : List Byte) : List Nat := (List.range k).map (fun i => leAt b (4 * i) 4)

/-! ### What each operation reads and will write (R170 to R175) -/

/-- The tiles of a mask with their ranks. -/
def ranked (mask : Nat) : List (Nat × Nat) := (bitList 8 mask).mapIdx (fun k t => (k, t))

def wfAddr (b : List Byte) (r : Nat) : Nat := leAt b 8 4 + 64 * leAt b 16 2 * r
def wfSaddr (b : List Byte) (r : Nat) : Nat := leAt b 12 4 + 8 * popCount 8 (leAt b 18 1) * (r / 2)

def State.wfOps (s : State) (n : Nat) (b : List Byte) (r t : Nat) : List InfPend :=
  let c := bCl b
  let w := (s.weightWin n c).1
  (ranked (leAt b 18 1)).flatMap (fun x =>
    { cyc := t + 3, prio := 0, wr := .wr c x.2 (memBytes s.mem (w + wfAddr b r + 64 * x.1) 64) }
      :: (if leAt b 19 1 = 1 then
        [{ cyc := t + 3, prio := 0, wr := .scales c x.2 (memBytes s.mem (w + wfSaddr b r + 8 * x.1) 8) }] else []))

/-- The window and offset of a drain's scale vector for rank k (R168). -/
def State.qWin (s : State) (n : Nat) (b : List Byte) : Nat × Nat :=
  if bitOf (leAt b 32 4) 31 then s.stateWin n (bCl b) else s.weightWin n (bCl b)
def qOff (b : List Byte) (k : Nat) : Nat := leAt b 32 4 % 2 ^ 31 + 32 * k

/-- A drain of one tile (R131, R171). -/
def State.drainOps (s : State) (n : Nat) (b : List Byte) (t : Nat) (x : Nat × Nat) : List InfPend :=
  let c := bCl b
  let k := leAt b 26 1
  let conv := k % 8
  let ms := wordsOf 8 (memBytes s.mem ((s.qWin n b).1 + qOff b x.1) 32)
  let rs := (s.accLanes c x.2 (leAt b 23 1)).mapIdx (fun i a => drainLane conv (bitOf k 3) (ms.getD i 0) a)
  let z := drainSize conv
  let cnt : InfPend := { cyc := t + 4, prio := 0, wr := .count (rs.filter (·.2.1)).length (rs.filter (·.2.2)).length }
  cnt :: (if bitOf k 4 then
      rs.mapIdx (fun i v =>
        { cyc := t + 4, prio := 200, wr := .lane c ((leAt b 27 1 % 16 + x.1 / 4) % 16)
            (8 * ((leAt b 27 1 / 16 + x.1) % 4) + i) (drainWide conv v.1) false })
    else
      [{ cyc := t + 4, prio := 200, wr := .store ((s.stateWin n c).1 + leAt b 28 4 + x.1 * (8 * z)) (rs.flatMap (fun v => leBytes z v.1)) }])

/-- The accumulator set that a tile operation adds to (R149, R150): the sum of the one that issued on the
cycle before, which is forwarded, else the set as its landed results left it. A load on its way is not seen. -/
def State.accNow (s : State) (n c tile set t : Nat) : List Nat :=
  let sums := (((s.islot n).run.getD {}).pend).filterMap (fun p => match p.wr with
    | .mac c' t' set' vs _ => if c' = c ∧ t' = tile ∧ set' = set ∧ p.cyc = t + 3 then some vs else none
    | _ => none)
  sums.getLastD (s.accLanes c tile set)

/-- A tile operation on one tile (R126 to R128, R171). -/
def State.tileOps (s : State) (n : Nat) (b : List Byte) (r t : Nat) (x : Nat × Nat) : List InfPend :=
  let c := bCl b
  let set := leAt b 23 1
  let op := leAt b 20 1
  let fmt := leAt b 21 1
  let xs := s.xrBytes c ((leAt b 24 1 + 8 * r) % 128) 8
  let load : Nat := 100 + Config.order 1 % 64
  if op = 1 then
    let w := s.wrBytes c x.2 64
    let acc := s.accNow n c x.2 set t
    let rs : List (Nat × Bool) :=
      if fmt % 4 = 0 then List.zipWith accInt acc (macInt8 xs w)
      else if fmt % 4 = 1 then List.zipWith accFp acc (macFp8 (bitOf fmt 2) (bitOf fmt 3) xs w)
      else List.zipWith accFp acc (macInt4 (s.xrByte c (leAt b 25 1 + r / 2)).toNat (s.scaleBytes c x.2) xs w)
    [{ cyc := t + 4, prio := 100 + Config.order 0 % 64, wr := .mac c x.2 set (rs.map (·.1)) (rs.filter (·.2)).length }]
  else if op = 2 then [{ cyc := t + 3, prio := load, wr := .acc c x.2 set (List.replicate 8 0) }]
  else if op = 3 then [{ cyc := t + 3, prio := load, wr := .acc c x.2 set (wordsOf 8 (s.wrBytes c x.2 32)) }]
  else if op = 4 then [{ cyc := t + 3, prio := load, wr := .acc c x.2 set (wordsOf 8 (s.xrBytes c (leAt b 24 1) 32)) }]
  else s.drainOps n b t x

def srAddr (b : List Byte) (r : Nat) : Nat := leAt b 36 4 + 128 * leAt b 41 1 * r

/-- A state read (R168). DESIGN CHOICE (log entry 28): it moves the 32 bits of a lane as they stand, a NaN's or an infinity's too. -/
def State.srOps (s : State) (n : Nat) (b : List Byte) (r t : Nat) : List InfPend :=
  let c := bCl b
  let bs := memBytes s.mem ((s.stateWin n c).1 + srAddr b r) 128
  if leAt b 40 1 = 0x10 then [{ cyc := t + 3, prio := 0, wr := .xr c bs }]
  else (wordsOf 32 bs).mapIdx (fun l v => { cyc := t + 3, prio := 100, wr := .lane c ((leAt b 40 1 + r) % 16) l v false })

def swAddr (b : List Byte) (r : Nat) : Nat := leAt b 44 4 + r * swWidth b

def State.swOps (s : State) (n : Nat) (b : List Byte) (r t : Nat) : List InfPend :=
  let c := bCl b
  [{ cyc := t + 2, prio := 100, wr := .store ((s.stateWin n c).1 + swAddr b r)
      ((s.lanes c ((leAt b 48 1 + r) % 16)).flatMap (fun v => leBytes (swWidth b / 32) v)) }]

/-- A fixed-point width of CVT_FX and CVT_FP (R172). -/
def cvtWidth (p : Nat) : Nat := [8, 16, 32].getD (bitsOf p 5 2) 32

/-- GATHER's window and the offset of a lane (R133, R172). -/
def State.gatherWin (s : State) (n : Nat) (b : List Byte) : Nat × Nat :=
  if bitOf (leAt b 57 1) 7 then s.weightWin n (bCl b) else s.stateWin n (bCl b)
def State.gatherOffs (s : State) (b : List Byte) : List Nat :=
  (s.lanes (bCl b) (leAt b 54 1)).map (fun i => leAt b 60 4 + 4 * i)

/-- An activation table evaluated (R135, R136, R167). A STEP_EXP outside −16 to 8, for which R135 gives neither a check nor an effect,
acts as the signed byte that it is (DESIGN CHOICE, log entry 50). -/
def State.actLane (s : State) (n k x : Nat) : Nat × Nat :=
  let a := slotBase n + 0x100 + k * 0x420
  let word := fun o => leNat (memBytes s.mem (a + o) 4)
  laneAct (word 0) (sgn 8 (leNat (memBytes s.mem (a + 4) 1))) (fun i => word (16 + 4 * i)) x

/-- The lanes of a vector operation's result with their NaN tags, and what it counts as saturations and as NaN conversions
(R133, R134, R172). DESIGN CHOICE (log entry 28): no field names an operand format, so every lane is read as FP32, and CVT_FP alone converts
integers; SEL and GATHER move the 32 bits of a lane as they stand. -/
def State.vxResult (s : State) (n : Nat) (b : List Byte) : List (Nat × Bool) × Nat × Nat :=
  let c := bCl b
  let op := leAt b 52 1
  let p := leAt b 57 1
  let A := s.lanes c (leAt b 54 1)
  let B := s.lanes c (leAt b 55 1)
  let C := s.lanes c (leAt b 56 1)
  let plain := fun (l : List (Nat × Bool)) => (l.map (fun v => (v.1, false)), (l.filter (·.2)).length, 0)
  let pure := fun (l : List Nat) => (l.map (fun v => (v, false)), 0, 0)
  if op = 1 then plain (List.zipWith laneAdd A B)
  else if op = 2 then plain (List.zipWith laneSub A B)
  else if op = 3 then plain (List.zipWith laneMul A B)
  else if op = 4 then plain (List.zipWith (fun x yz => laneFma x yz.1 yz.2) A (B.zip C))
  else if op = 5 then pure (List.zipWith laneMin A B)
  else if op = 6 then pure (List.zipWith laneMax A B)
  else if op = 0x0A then
    let m := s.clGet c (keyMask (leAt b 56 1 % 4))
    pure ((A.zip B).mapIdx (fun l x => if bitOf m l then x.1 else x.2))
  else if op = 0x0B then
    let l := A.map (s.actLane n (p % 8))
    (l.map (fun v => (v.1, false)), (l.map (·.2)).sum, 0)
  else if op = 0x0C then plain (A.map laneRecip)
  else if op = 0x0D then plain (A.map laneRsqrt)
  else if op = 0x0E then
    let t := tree32 laneAdd A
    (List.replicate 32 (t.1, false), t.2, 0)
  else if op = 0x0F then
    let t := tree32 (fun x y => (laneMax x y, false)) A
    (List.replicate 32 (t.1, false), 0, 0)
  else if op = 0x10 then
    let l := A.map (laneFix (cvtWidth p) (p % 32) (bitOf p 7))
    (l.map (fun v => (v.1, v.2.2)), (l.filter (·.2.1)).length, (l.filter (·.2.2)).length)
  else if op = 0x11 then plain (A.map (laneUnfix (cvtWidth p) (p % 32)))
  else if op = 0x12 then
    let q := rq4 (bitOf p 7) A
    let bytes := (List.range 16).map (fun k =>
      BitVec.ofNat 8 (unsgn 4 (q.1.getD (2 * k) 0) + 16 * unsgn 4 (q.1.getD (2 * k + 1) 0)))
    ((wordsOf 4 bytes ++ [q.2.1] ++ List.replicate 27 0).map (fun v => (v, false)), q.2.2,
      (A.filter (fun a => (dec32 a).isNone)).length)
  else
    let w := (s.gatherWin n b).1
    pure ((s.gatherOffs b).map (fun o => leNat (memBytes s.mem (w + o) 4)))

/-- The mask of a comparison (R133). -/
def State.vxMask (s : State) (b : List Byte) : Nat :=
  let c := bCl b
  let op := leAt b 52 1
  let f : Nat → Nat → Bool := if op = 7 then lt32 else if op = 8 then laneLe else laneEq
  maskOf 32 (fun l => f (s.lane c (leAt b 54 1) l) (s.lane c (leAt b 55 1) l))

def State.vxOps (s : State) (n : Nat) (b : List Byte) (t : Nat) : List InfPend :=
  let c := bCl b
  let op := leAt b 52 1
  let u := t + vxLat op
  if vxCmp op then [{ cyc := u, prio := 0, wr := .mask c (leAt b 53 1) (s.vxMask b) }]
  else
    let v := s.vxResult n b
    { cyc := u, prio := 0, wr := .count v.2.1 v.2.2 } :: v.1.mapIdx (fun l x =>
      { cyc := u, prio := 1000 + Config.order (0x100 + vxLat op) % 64, wr := .lane c (leAt b 53 1) l x.1 x.2 })

/-- The channel of Sensor Map read k on a repeat (R170). -/
def smCh (b : List Byte) (k r : Nat) : Nat := leAt b (64 + 2 * k) 2 % 8192 + leAt b 73 1 * r
def smAddr (b : List Byte) (r : Nat) : Nat := leAt b 68 4 + 8 * r

def State.smOps (s : State) (n : Nat) (b : List Byte) (r t : Nat) : List InfPend :=
  (List.range (leAt b 72 1)).map (fun k =>
    { cyc := t + 24, prio := 300, wr := .store ((s.stateWin n (bCl b)).1 + smAddr b r + 4 * k)
        (leBytes 4 (s.stat (s.slotAcc n * 8192 + smCh b k r) (leAt b (64 + 2 * k) 2 / 8192))) })

def xwAddr (b : List Byte) (r : Nat) : Nat := leAt b 80 4 + 128 * r

def State.xwOps (s : State) (n : Nat) (b : List Byte) (r t : Nat) : List InfPend :=
  let c := bCl b
  let d := leAt b 77 1
  [{ cyc := t + 8, prio := 50 + 100 * (Config.order 2 % 4), wr := .exch c d ((s.stateWin n d).1 + xwAddr b r)
      ((s.lanes c ((leAt b 76 1 + r) % 16)).flatMap (leBytes 4)) }]

/-- The port, the lane and the half of an output write (R168, R170). -/
def owPort (b : List Byte) (r : Nat) : Nat := leAt b 84 1 + (if bitOf (leAt b 86 1) 6 then r else 0)
def owLane (b : List Byte) (r : Nat) : Nat := leAt b 86 1 % 32 + (if bitOf (leAt b 86 1) 6 then r else 0)

/-- An output write; past lane 31 the spec names no lane, and the value is open. -/
def State.owOps (s : State) (b : List Byte) (r t : Nat) : List InfPend :=
  let c := bCl b
  let l := owLane b r
  let x := if l < 32 then s.clGet c (keyLane (leAt b 85 1) l) else Config.free l
  [{ cyc := t + 2, prio := 100 + Config.order (0x200 + c) % 64,
     wr := .out (owPort b r) (bitsOf x (if bitOf (leAt b 86 1) 5 then 16 else 0) 16) (bitOf x 32) }]

/-- Everything that a bundle issues on repeat r at cycle t. -/
def State.bundleOps (s : State) (n : Nat) (b : List Byte) (r t : Nat) : List InfPend :=
  (if bUses b 0 then s.wfOps n b r t else [])
    ++ (if bUses b 1 then (ranked (leAt b 22 1)).flatMap (s.tileOps n b r t) else [])
    ++ (if bUses b 2 then s.srOps n b r t else [])
    ++ (if bUses b 3 then s.swOps n b r t else [])
    ++ (if bUses b 4 then s.vxOps n b t else [])
    ++ (if bUses b 5 then s.smOps n b r t else [])
    ++ (if bUses b 6 then s.xwOps n b r t else [])
    ++ (if bUses b 7 then s.owOps b r t else [])

/-! ### Window, channel, port and index checks (R177) -/

/-- [o, o + k) lies in a window of length len. -/
def inWin (len o k : Nat) : Bool := o + k ≤ len

/-- A weight access outside the window (cause 0x1). -/
def State.weightBad (s : State) (n : Nat) (b : List Byte) (r : Nat) : Bool :=
  let len := (s.weightWin n (bCl b)).2
  let k := popCount 8 (leAt b 18 1)
  (bUses b 0 && k != 0 && (!inWin len (wfAddr b r) (64 * k) || (leAt b 19 1 == 1 && !inWin len (wfSaddr b r) (8 * k))))
    || (bUses b 1 && leAt b 20 1 == 5 && leAt b 26 1 % 8 == 0 && !bitOf (leAt b 32 4) 31 && leAt b 22 1 != 0
      && !inWin len (qOff b 0) (32 * popCount 8 (leAt b 22 1)))

/-- A state access outside the window (cause 0x2). -/
def State.stateBad (s : State) (n : Nat) (b : List Byte) (r : Nat) : Bool :=
  let len := (s.stateWin n (bCl b)).2
  let k := popCount 8 (leAt b 22 1)
  let conv := leAt b 26 1 % 8
  (bUses b 2 && !inWin len (srAddr b r) 128)
    || (bUses b 3 && !inWin len (swAddr b r) (swWidth b))
    || (bUses b 5 && !inWin len (smAddr b r) (4 * leAt b 72 1))
    || (bUses b 1 && leAt b 20 1 == 5 && k != 0
      && ((!bitOf (leAt b 26 1) 4 && !inWin len (leAt b 28 4) (k * (8 * drainSize conv)))
        || (conv == 0 && bitOf (leAt b 32 4) 31 && !inWin len (qOff b 0) (32 * k))))
    || (bUses b 6 && !inWin (s.stateWin n (leAt b 77 1 % 4)).2 (xwAddr b r) 128)

/-- A Sensor Map channel that is not valid for the accelerator or not enabled for the Infuser (cause 0x3). -/
def State.channelBad (s : State) (n : Nat) (b : List Byte) (r : Nat) : Bool :=
  bUses b 5 && (List.range (min 2 (leAt b 72 1))).any (fun k =>
    let d := s.desc (s.slotAcc n * 8192 + smCh b k r)
    8192 ≤ smCh b k r || !d.valid || !d.infEn)

/-- An output port that is not the slot's, or of an unused kind (cause 0x4). -/
def State.portBad (s : State) (n : Nat) (b : List Byte) (r : Nat) : Bool :=
  let k := s.get (INF_OUT_CFG.KIND (owPort b r))
  bUses b 7 && (63 < owPort b r || s.get (INF_OUT_CFG.SLOT (owPort b r)) != n || k == 0 || k == 6 || k == 7)

/-- A cluster outside CLMASK (cause 0x5). -/
def State.clusterBad (s : State) (n : Nat) (b : List Byte) : Bool :=
  !bitOf (s.clmask n) (bCl b) || (bUses b 6 && !bitOf (s.clmask n) (leAt b 77 1 % 4))

/-- A GATHER index outside its window (cause 0x6). -/
def State.gatherBad (s : State) (n : Nat) (b : List Byte) : Bool :=
  bUses b 4 && leAt b 52 1 == 0x13 && (s.gatherOffs b).any (fun o => !inWin (s.gatherWin n b).2 o 4)

/-- An activation table that the program does not have (cause 0xA). -/
def State.tableBad (s : State) (n : Nat) (b : List Byte) : Bool :=
  bUses b 4 && leAt b 52 1 == 0x0B && s.get (INF_SLOT_PROG.NACT n) ≤ leAt b 57 1 % 8

/-- The causes that a bundle's checks give on repeat r (R177). -/
def State.bundleCauses (s : State) (n : Nat) (b : List Byte) (r : Nat) : List Nat :=
  [(s.weightBad n b r, 1), (s.stateBad n b r, 2), (s.channelBad n b r, 3), (s.portBad n b r, 4), (s.clusterBad n b, 5),
    (s.gatherBad n b, 6), (s.tableBad n b, 0xA), (!bundleOk b, 8)].filterMap (fun x => if x.1 then some x.2 else none)

/-- The bundle indexes and causes of a group's failing checks; an uncorrectable word counts for the group's first bundle. -/
def State.groupCauses (s : State) (n k r : Nat) (g : List (List Byte)) (uncorr : Bool) : List (Nat × Nat) :=
  (if groupOk g then [] else [(k, 8)]) ++ (g.mapIdx (fun i b => (s.bundleCauses n b r).map (fun c => (k + i, c)))).flatten
    ++ (if uncorr then [(k, 7)] else [])

/-! ### Results land (R149, R150, R174, R176) -/

/-- Saturations and NaN conversions counted for a slot (R126, R129, R130). -/
def State.arith (s : State) (n sat nan : Nat) : State :=
  let s := if sat = 0 then s else ((s.bump (INF_SLOT_SAT.SAT_CNT n) sat).set (INF_SLOT_STS.SAT n) 1).infErr INF_ERR.SAT
  if nan = 0 then s else ((s.bump (INF_SLOT_SAT.NAN_CNT n) nan).set (INF_SLOT_STS.NAN n) 1).infErr INF_ERR.NAN

/-- A store of a program into the state window: the header and the elements of the adaptation block are written by commits only, so a
store that meets them is refused (R139, R157). The DELTA words are the program's. -/
def State.runStore (s : State) (n a : Nat) (bs : List Byte) : State :=
  if s.hasAdapt n && meets a bs.length (s.adAddr n) (16 + 16 * s.adCount n) then s.wprotNote .infuser a
  else { s with mem := memStore s.mem a bs }

/-- One result written. -/
def State.landWr (s : State) (n : Nat) : InfWr → State
  | .lane c v l x tag => s.clPut c (keyLane v l) (x % 2 ^ 32 + (if tag then 2 ^ 32 else 0))
  | .mask c m x => s.clPut c (keyMask m) x
  | .xr c bs => s.clPutAll c keyXr (bs.map (·.toNat))
  | .wr c t bs => s.clPutAll c (keyWr t) (bs.map (·.toNat))
  | .scales c t bs => s.clPutAll c (keyScale t) (bs.map (·.toNat))
  | .acc c t set vs => s.clPutAll c (keyAcc t set) vs
  | .mac c t set vs sat => (s.clPutAll c (keyAcc t set) vs).arith n sat 0
  | .store a bs => s.runStore n a bs
  | .exch _ _ a bs => s.runStore n a bs
  | .out p v tag => s.outWrite n p v tag
  | .count sat nan => s.arith n sat nan

/-- A result comes no later than another (R174). -/
def InfPend.le (a b : InfPend) : Bool := a.cyc < b.cyc || (a.cyc == b.cyc && a.prio ≤ b.prio)

/-- Results in the order in which they take effect; equal ones keep the order of issue. -/
def insertPend (p : InfPend) : List InfPend → List InfPend
  | [] => [p]
  | q :: t => if p.le q then p :: q :: t else q :: insertPend p t

def sortPend (l : List InfPend) : List InfPend := l.foldr insertPend []

/-- An exchange write that another one of the same cycle into the same quarter, from a lower cluster, takes the place of
(R138). -/
def exchLost (l : List InfPend) (p : InfPend) : Bool :=
  match p.wr with
  | .exch src dst _ _ => l.any (fun q => match q.wr with
    | .exch src' dst' _ _ => q.cyc == p.cyc && dst' == dst && decide (src' < src)
    | _ => false)
  | _ => false

/-- The slot's results with result cycle t or earlier land. -/
def State.landTo (s : State) (n t : Nat) : State :=
  match (s.islot n).run with
  | none => s
  | some r =>
    let now := r.pend.filter (fun p => p.cyc ≤ t)
    let s := s.modIslot n (fun x => { x with run := some { r with pend := r.pend.filter (fun p => t < p.cyc) } })
    (sortPend (now.filter (fun p => !exchLost now p))).foldl (fun s p => s.landWr n p.wr) s

/-- The last cycle whose results can have landed: the next issue's, or the run's last. -/
def State.landLimit (s : State) (n : Nat) (r : InfRun) : Nat :=
  if r.done then s.get (INF_SLOT_PROG.CYC n) - 1 else r.cyc

/-- The earliest result cycle that waits. -/
def InfRun.nextCyc (r : InfRun) : Option Nat := r.pend.foldl (fun a p => match a with
  | none => some p.cyc
  | some c => some (min c p.cyc)) none

def State.resultWriteback (s : State) (n : Nat) : State :=
  match (s.islot n).run with
  | none => s
  | some r =>
    match r.nextCyc with
    | none => s
    | some c => if c ≤ s.landLimit n r then s.landTo n c else s

def execResultWriteback (n : Fin 16) (s : State) : Host.Outcome State Fault Refusal := .next (s.resultWriteback n.val)

/-! ### Issue (R169, R177) -/

/-- The next repeat of the current group, or the next group. -/
def InfRun.advance (r : InfRun) (g : List (List Byte)) (ops : List InfPend) : InfRun :=
  let rep := bRep (g.headD [])
  let wait := bWait (g.getLastD [])
  let r := { r with pend := r.pend ++ ops, adapt := r.adapt || g.any bAdapt }
  if r.rep < rep then { r with rep := r.rep + 1, cyc := r.cyc + 1 }
  else { r with rep := 0, bundle := r.bundle + g.length, cyc := r.cyc + 1 + wait, done := g.any bLast }

/-- A group issues on one repeat: its checks, then everything that its bundles do (R148, R150, R170, R177). Which of several
failing checks gives the cause is open. `bad` names descriptors that the reads of the group find uncorrectable (R205). -/
def State.issueGroup (s : State) (n : Nat) (e : Ecc) (bad : List (Fin 65536)) : State :=
  match (s.islot n).run with
  | none => s
  | some r0 =>
    if r0.done then s
    else
      let s := ((s.landTo n r0.cyc).infEcc e).mapEccAll bad
      let r := ((s.islot n).run).getD r0
      let g := s.groupFrom n r.bundle 5
      match s.groupCauses n r.bundle r.rep g e.uncorr with
      | [] =>
        let ops := g.flatMap (fun b => s.bundleOps n b r.rep r.cyc)
        s.modIslot n (fun x => { x with run := some (r.advance g ops) })
      | [f] => s.slotFaultAt n f.2 f.1 r.cyc
      | f :: fs =>
        let x := (f :: fs).getD (Config.free s.fresh % (fs.length + 1)) f
        s.draw.slotFaultAt n x.2 x.1 r.cyc

def execIssueGroup (n : Fin 16) (ecc : Ecc) (s : State) (badDesc : List (Fin 65536) := []) : Host.Outcome State Fault Refusal :=
  .next (s.issueGroup n.val ecc badDesc)

/-- A run ends after its last cycle (R145, R176): what lands before CYC has landed, the rest has no effect. Where the commit that it has
requested reads an uncorrectable word, the slot faults at that end and nothing is committed (R140; log entry 50). -/
def State.runEnd (s : State) (n : Nat) (e : Ecc := {}) : State :=
  match (s.islot n).run with
  | none => s
  | some r =>
    if r.done then
      let s := s.landTo n (s.get (INF_SLOT_PROG.CYC n) - 1)
      let reads := r.adapt && s.hasAdapt n
      let s := if reads then s.infEcc e else s
      if reads && e.uncorr then s.slotFaultAt n 7 r.bundle (s.get (INF_SLOT_PROG.CYC n))
      else
        let s := s.modIslot n (fun x => { x with run := none })
        let s := s.set (INF_SLOT_RUNS.CNT n) (s.get (INF_SLOT_RUNS.CNT n) + 1)
        let s := if r.adapt then s.adCommit n else s
        (s.setIf (s.slotSt n == slotStopping) (INF_SLOT_STS.STATE n) slotLoaded).slotSync n
    else s

def execRunEnd (n : Fin 16) (s : State) (ecc : Ecc := {}) : Host.Outcome State Fault Refusal := .next (s.runEnd n.val ecc)

/-! ### ABORT and INF_SLOTn_CTL (R143, R146, R163) -/

/-- ABORT (R146): the bundle whose boundary is next does not issue; what has landed by then stands. After the last bundle of a run no
boundary is left: DESIGN CHOICE (log entry 50), the run is aborted all the same, at the cycle after its last and the bundle past its last.
DESIGN CHOICE (log entry 50): the border between two repeats of a bundle is a boundary too. FPOS then names that bundle, whose earlier
repeats have taken effect. -/
def State.slotAbort (s : State) (n : Nat) : State :=
  match (s.islot n).run with
  | some r => (s.landTo n (min r.cyc (s.get (INF_SLOT_PROG.CYC n) - 1))).slotBreak n 9 r.bundle r.cyc slotLoaded
  | none =>
    if s.slotSt n = slotEnabled then
      (((s.modIslot n (fun x => { x with due := none })).set (INF_SLOT_STS.STATE n) slotLoaded).slotSync n).slotRelease n
    else s

/-- A write of INF_SLOTn_CTL (R143, R146, R163), its parts in this order. -/
def State.slotCtlWrite (s : State) (n w : Nat) : State :=
  let s := if bitOf w 3 then s.slotClear n else s
  let s := if bitOf w 1 then s.slotAbort n else s
  let s := if bitOf w 2 then s.stateInit n else s
  let s := s.setAll [(INF_SLOT_CTL.TRIG_EN n, bitsOf w 4 1), (INF_SLOT_CTL.ADAPT_EN n, bitsOf w 5 1),
    (INF_SLOT_CTL.NAN_POL n, bitsOf w 6 1)]
  let s := (s.setIf (!s.slotSealed n) (INF_SLOT_CTL.ACC n) (bitsOf w 8 3)).adWatch n
  if bitOf w 0 then s.slotEnable n else s.slotDisable n

def execSlotAbort (ini : Initiator) (n : Fin 16) (s : State) : Host.Outcome State Fault Refusal :=
  .next (s.command ini (INF_SLOT_CTL.ABORT n.val).addr (fun s => s.slotAbort n.val))

/-! ### A domain's clock stops (R87, R147) -/

/-- The domain's port reports idle: a cluster does so only as R147 says; the LPDDR5X controller enters self-refresh first. -/
def State.gateStopped (s : State) (d : Nat) : State :=
  if s.gateAsked d && (4 ≤ d || s.clusterIdle d) then
    ((s.portDrop d).setBit CLK_GATE_STS.GATED d true).setIf (d == 4) LPC_STS.SELF_REFRESH 1
  else s

def execGateStopped (d : Fin 10) (s : State) : Host.Outcome State Fault Refusal := .next (s.gateStopped d.val)

end Sys2Proof.Machine
end

