-- ==== Sys2Proof/Machine/Hint.lean ====
section
/-! DEFINITION. The Signature Table and the hint matcher (R179 to R190). The messages that bring hints and cancellations stand
in Machine/Session.lean. -/

namespace Sys2Proof.Machine

/-- The codes of R182. -/
def hintAccepted : Nat := 0
def hintOff : Nat := 1
def hintRate : Nat := 2
def hintQfull : Nat := 3
def hintFar : Nat := 4
def hintPast : Nat := 5
def hintDup : Nat := 6
def hintNosig : Nat := 7
def hintNotfound : Nat := 8
def hintFired : Nat := 9

/-- Several ways match (R180). -/
def State.sigDup (s : State) (acc model : Nat) (ways : List Nat) : State :=
  if 2 ≤ ways.length then
    (s.set HNT_STS.SIG_DUP 1).logTop EVT_SIG_DUP acc UNIT_HNT 0
      [(0, 4, model), (4, 2, sigSet acc model), (6, 1, maskOf 4 (fun w => ways.contains w))]
  else s

/-- Pending hints of an accelerator. -/
def State.hintCount (s : State) (a : Nat) : Nat := (s.inf.hints.filter (fun h => h.acc == a)).length

/-- QLEVEL follows the queues (R190). -/
def State.hintSync (s : State) : State :=
  s.setAll ((List.range 8).map (fun a => (HNT_ACC_LVL.QLEVEL a, s.hintCount a)))

/-- A refusal is noted; codes 1 to 7 are counted (R182, R190). -/
def State.hintRefuse (s : State) (session hid acc code : Nat) : State :=
  let s := s.setAll [(HNT_LAST_REF.ACC, acc), (HNT_LAST_REF.CODE, code), (HNT_LAST_REF.SESSION, session),
    (HNT_LAST_REF.HINT_ID, hid)]
  if code ≤ 7 then s.bump (HNT_ACC_CNT1.REFUSED acc) else s

/-- The checks 1 to 6 of R182, 0 when they pass. -/
def State.hintCheck (s : State) (session hid acc due : Nat) : Nat :=
  let n := s.topNow
  if !s.on HNT_CTL.EN || !s.on (HNT_ACC_CFG.EN acc) then hintOff
  else if s.get (HNT_ACC_LVL.TOKENS acc) = 0 then hintRate
  else if 32 ≤ s.hintCount acc then hintQfull
  else if n + 1000000000 < due then hintFar
  else if due ≤ n then hintPast
  else if s.inf.hints.any (fun h => h.session == session && h.hid == hid) then hintDup
  else 0

/-- A hint's values from the entry that matched, or from the miss settings (R183). -/
def State.hintOf (s : State) (session hid acc model due : Nat) (way : Option Nat) : Hint :=
  let e := memBytes s.mem (sigAddr (sigSet acc model) (way.getD 0)) 32
  let lead := if way.isSome then leAt e 8 2 else s.get (HNT_ACC_CFG.MISS_LEAD acc)
  let late := due ≤ s.topNow + lead * 100
  { session := session, hid := hid, acc := acc, model := model, due := due,
    trig := if late then s.topNow else due - lead * 100,
    slot := if way.isSome then bitsOf (leAt e 0 4) 4 4 else s.get (HNT_ACC_CFG.MISS_SLOT acc),
    lead := lead, miss := way.isNone, late := late,
    sigRow := if way.isSome then leAt e 10 2 else 0xFFFF,
    pStep := if way.isSome then leAt e 12 4 else 0,
    params := if way.isSome then [leAt e 16 4, leAt e 20 4, leAt e 24 4] else [0, 0, 0],
    rev := if way.isSome then leAt e 28 4 else 0, fireTs := 0, fireFb := false }

/-- A hint is judged (R182, R183, R184): its code, and the state after it. -/
def State.hintSubmit (s : State) (session hid acc model due : Nat) : Nat × State :=
  match s.hintCheck session hid acc due with
  | 0 =>
    let ways := s.sigWays acc model
    let s := s.sigDup acc model ways
    if ways.isEmpty && !s.on (HNT_ACC_CFG.MISS_TRIG acc) then (hintNosig, s.hintRefuse session hid acc hintNosig)
    else
      let h := s.hintOf session hid acc model due ways.head?
      let s := s.modInf (fun t => { t with hints := t.hints ++ [h] })
      let s := s.set (HNT_ACC_LVL.TOKENS acc) (s.get (HNT_ACC_LVL.TOKENS acc) - 1)
      (hintAccepted, (s.bump (HNT_ACC_CNT0.ACCEPTED acc)).hintSync)
  | c => (c, s.hintRefuse session hid acc c)

/-- A cancellation (R182, R188); a refused one is noted with the accelerator that it names (R190). -/
def State.hintCancel (s : State) (session hid acc : Nat) : Nat × State :=
  if s.inf.hints.any (fun h => h.session == session && h.hid == hid) then
    (hintAccepted, (s.modInf (fun t =>
      { t with hints := t.hints.filter (fun h => !(h.session == session && h.hid == hid)) })).hintSync)
  else
    let c := if s.inf.fired.contains (session, hid) then hintFired else hintNotfound
    (c, s.hintRefuse session hid acc c)

/-- Why a firing writes no record, 0 when it does (R187, R445). -/
def State.hintBad (s : State) (h : Hint) : Nat :=
  if s.slotSt h.slot ≠ slotEnabled then 1
  else if !s.on (INF_SLOT_CTL.TRIG_EN h.slot) then 2
  else if !s.hasMbox h.slot then 3
  else if s.slotAcc h.slot ≠ h.acc then 4
  else 0

/-- A 32-bit word of memory. -/
def State.loadWord (s : State) (a : Nat) : Nat := leNat (memBytes s.mem a 4)

/-- The cluster whose state SRAM holds a slot's mailbox (R165). -/
def State.mboxCluster (s : State) (n : Nat) : Nat := s.hdrAt n 112 1

/-- The mailbox waits: the slot's run is in progress (R185), or its cluster's port holds requests (R87). -/
def State.mboxWaits (s : State) (n : Nat) : Bool := (s.islot n).run.isSome || s.hasMbox n && s.gateAsked (s.mboxCluster n)

/-- A hint dropped at its firing (R187). -/
def State.hintDrop (s : State) (h : Hint) (why : Nat) : State :=
  let s := s.bump (HNT_ACC_CNT1.DROPPED h.acc)
  let s := if s.slotSt h.slot ≠ slotEmpty ∧ s.hasMbox h.slot ∧ !s.gated (s.mboxCluster h.slot) then
      s.storeWord (s.mboxAddr h.slot + 4) (s.loadWord (s.mboxAddr h.slot + 4) + 1)
    else s
  s.logTop EVT_HNT_DROP h.acc UNIT_HNT 0 [(0, 1, why), (1, 1, h.slot), (2, 1, h.session), (4, 4, h.model), (8, 2, h.hid)]

/-- One hint fires (R185, R187): a later cancellation finds it fired. Everything that changes a mailbox that waits, waits with it, a drop's
MB_LOST as well. -/
def State.hintFire (s : State) (h : Hint) : State :=
  let s := s.modInf (fun t => { t with fired := t.fired ++ [(h.session, h.hid)] })
  let wait := s.modInf (fun t => { t with firing := t.firing ++ [{ h with fireTs := s.topNow, fireFb := s.fb }] })
  if s.mboxWaits h.slot then wait
  else
    match s.hintBad h with
    | 0 => wait
    | why => s.hintDrop h why

/-- Hints in the order of their trigger times; equal times keep the order of arrival (R184). -/
def insertHint (h : Hint) : List Hint → List Hint
  | [] => [h]
  | k :: t => if h.trig ≤ k.trig then h :: k :: t else k :: insertHint h t

/-- An evaluation (R184, R189): while the engine is held, the hints that are reached wait with the LATE flag. -/
def State.hintEval (s : State) : State :=
  let n := s.topNow
  if s.on HNT_STS.HELD then
    s.modInf (fun t => { t with hints := t.hints.map (fun h => if h.trig ≤ n then { h with late := true } else h) })
  else
    let due := (s.inf.hints.filter (fun h => h.trig ≤ n)).foldr insertHint []
    let s := s.modInf (fun t => { t with hints := t.hints.filter (fun h => n < h.trig) })
    (due.foldl State.hintFire s).hintSync

def execHintEvaluation (s : State) : Host.Outcome State Fault Refusal := .next s.hintEval

/-- DUE_IN: (D − firing timestamp) in µs as FP32 (R186). -/
def dueIn (due ts : Nat) : Nat := rnd32 ((Dy.ofInt ((due : Int) - ts)).quot (Dy.ofInt 1000))

/-- A mailbox record (R186). -/
def Hint.record (h : Hint) (hseq : Nat) : List Byte :=
  leBytes 4 hseq ++ leBytes 4 h.model ++ leBytes 8 h.due ++ leBytes 8 h.fireTs ++ leBytes 2 h.sigRow
    ++ leBytes 2 (b2n h.miss + 2 * b2n h.late + 4 * b2n h.fireFb) ++ leBytes 1 h.session ++ leBytes 3 0 ++ leBytes 4 h.pStep
    ++ h.params.flatMap (leBytes 4) ++ leBytes 4 h.rev ++ leBytes 2 h.lead ++ leBytes 2 0 ++ leBytes 4 (dueIn h.due h.fireTs)
    ++ leBytes 4 0

/-- The first hint that has fired and whose mailbox takes a record. -/
def State.mailboxNext (s : State) : Option Hint := s.inf.firing.find? (fun h => !s.mboxWaits h.slot)

/-- A firing's record written through the cluster's port and its trigger raised (R88, R185, R186): while the cluster's clock stands the record
is lost and the trigger alone remains (log entry 30). While the engine is held, firings wait (R189). -/
def State.mailboxWrite (s : State) : State :=
  match s.mailboxNext with
  | none => s
  | some h =>
    if s.on HNT_STS.HELD then s
    else
    let s := s.modInf (fun t => { t with firing := t.firing.erase h })
    match s.hintBad h with
    | 0 =>
      let a := s.mboxAddr h.slot
      let k := s.loadWord a
      let c := s.mboxCluster h.slot
      let s := s.portStore { dom := c, addr := a + 64 + 64 * (k % 4), bytes := h.record ((k + 1) % 2 ^ 32) }
      let s := s.portStore { dom := c, addr := a, bytes := leBytes 4 (k + 1) }
      (s.bump (HNT_ACC_CNT0.FIRED h.acc)).runDue h.slot false
    | why => s.hintDrop h why

def execMailboxWrite (s : State) : Host.Outcome State Fault Refusal := .next s.mailboxWrite

/-- Each 50,000 ns every bucket gains a token, up to 32 (R183). -/
def State.tokenRefill (s : State) : State :=
  s.setAll ((List.range 8).map (fun a => (HNT_ACC_LVL.TOKENS a, min 32 (s.get (HNT_ACC_LVL.TOKENS a) + 1))))

def execTokenRefill (s : State) : Host.Outcome State Fault Refusal := .next (if s.pwr.topRst then s else s.tokenRefill)

/-- Pending hints dropped without records: counted, no event (R188, R189). -/
def State.hintForget (s : State) (p : Hint → Bool) : State :=
  let gone := s.inf.hints.filter p
  let s := gone.foldl (fun s h => s.bump (HNT_ACC_CNT1.DROPPED h.acc)) s
  (s.modInf (fun t => { t with hints := t.hints.filter (fun h => !p h) })).hintSync

/-- FLUSH (R189). -/
def State.hintFlush (s : State) : State := s.hintForget (fun _ => true)

/-- A session closes (R188). -/
def State.hintClose (s : State) (session : Nat) : State :=
  (s.hintForget (fun h => h.session == session)).modInf (fun t => { t with fired := t.fired.filter (fun f => f.1 != session) })

def execHintFlush (ini : Initiator) (s : State) : Host.Outcome State Fault Refusal :=
  .next (s.command ini HNT_CTL.FLUSH.addr State.hintFlush)

/-- HNT_CNT_CLR (R190). -/
def State.hntCntClr (s : State) : State :=
  s.setAll ((List.range 8).flatMap (fun a => [(HNT_ACC_CNT0.ACCEPTED a, 0), (HNT_ACC_CNT0.FIRED a, 0),
    (HNT_ACC_CNT1.REFUSED a, 0), (HNT_ACC_CNT1.DROPPED a, 0)]))

def execHntCntClr (ini : Initiator) (s : State) : Host.Outcome State Fault Refusal :=
  .next (s.command ini HNT_CNT_CLR.CLR.addr State.hntCntClr)

end Sys2Proof.Machine
end

