-- ==== Sys2Proof/Machine/SillageCmd.lean ====
section
/-! DEFINITION. The commands of Sillage (R419 to R430). -/

namespace Sys2Proof.Machine

/-- A state with Sillage changed. -/
def State.modSil (s : State) (f : SilSt → SilSt) : State := { s with sil := f s.sil }

/-- A word of a write port stored (R419). -/
def SilSt.portWord (x : SilSt) (port w v : Nat) : SilSt :=
  { x with ports := if v = 0 then drop (port * 12 + w) x.ports else put (port * 12 + w) v x.ports }

/-- A word of a write port as last written. -/
def SilSt.portGet (x : SilSt) (port w : Nat) : Nat := (look (port * 12 + w) x.ports).getD 0

/-- The words of a port forgotten. -/
def SilSt.portClear (x : SilSt) (port : Nat) : SilSt :=
  { x with ports := x.ports.filter (fun e => e.1 / 12 ≠ port) }

/-- The event that a port's twelve words spell (R419). -/
def State.portEvent (s : State) (port w11 : Nat) : Event :=
  let w := s.sil.portGet port
  { code := w 0 % 2 ^ 16, acc := srcAcc (w 0 / 2 ^ 16), unit := srcUnit (w 0 / 2 ^ 16), inst := srcInst (w 0 / 2 ^ 16),
    payload := payload ((List.range 9).map (fun i => (4 * i, 4, w (i + 2))) ++ [(36, 4, w11)]),
    ts := s.now, fb := s.fb, persist := bitOf (w 1) 0, late := false }

/-- The write of word 11 submits the event (R419, R422). -/
def State.portSubmit (s : State) (port w11 : Nat) : State :=
  (s.admitEvent (s.portEvent port w11)).modSil (·.portClear port)

def execSilPortSubmit (ini : Initiator) (port : Fin 6) (word : Word) (s : State) : Host.Outcome State Fault Refusal :=
  .next (s.command ini (SIL_PORT_W.DATA port.val 11).addr (fun s => s.portSubmit port.val word.toNat))

def execSillageRecordWrite (s : State) : Host.Outcome State Fault Refusal := .next (s.modSil SilSt.writeOne)

/-- At a whole second of the timestamp (R422): the RLIM records carry the second as TS. -/
def execRlimSecond (s : State) : Host.Outcome State Fault Refusal :=
  .next (s.modSil (fun x => x.rlim (s.on SEQ_CTL.TEST) (s.now / 1000000000 * 1000000000) s.fb))

def execSilTokenRefill (code : Fin 65536) (s : State) : Host.Outcome State Fault Refusal :=
  .next (s.modSil (fun x => x.refill code.val 1))

def execCorrelationWindowClose (g : Fin 32) (s : State) : Host.Outcome State Fault Refusal :=
  .next (s.modSil (fun x => x.closeWin (s.on SEQ_CTL.TEST) s.now s.fb g.val))

/-- SIL_CTL.FREEZE = 1 stops the ring's writes (R425); written again in a freeze it changes nothing. -/
def SilSt.freeze (x : SilSt) : SilSt :=
  if x.frozen then x else { x with frozen := true, frozenTotal := 0, frozenCodes := [] }

def execFreeze (ini : Initiator) (s : State) : Host.Outcome State Fault Refusal :=
  .next (s.command ini SIL_CTL.FREEZE.addr (fun s => s.modSil SilSt.freeze))

/-- The end of a freeze (R425). -/
def State.unfreeze (s : State) : State := s.modSil (fun x => x.unfreeze (s.on SEQ_CTL.TEST) s.now s.fb)

def execUnfreeze (ini : Initiator) (s : State) : Host.Outcome State Fault Refusal :=
  .next (s.command ini SIL_CTL.FREEZE.addr State.unfreeze)

def execFreezeMaxExpiry (s : State) : Host.Outcome State Fault Refusal := .next s.unfreeze

/-- SIL_CTL.SERVICE ends START-UP and RECOVERY (R421). -/
def State.silService (s : State) : State :=
  s.silMode (s.on SEQ_CTL.TEST) (s.on SEQ_CTL.TEST) (fun x => { x with startup := false, recovery := false })

def execService (ini : Initiator) (s : State) : Host.Outcome State Fault Refusal :=
  .next (s.command ini SIL_CTL.SERVICE.addr State.silService)

/-- SIL_CTL.RECOV holds or releases RECOVERY (R421). -/
def State.silRecov (s : State) (on : Bool) : State :=
  s.silMode (s.on SEQ_CTL.TEST) (s.on SEQ_CTL.TEST) (fun x => { x with recov := on })

def execRecov (ini : Initiator) (on : Bool) (s : State) : Host.Outcome State Fault Refusal :=
  .next (s.command ini SIL_CTL.RECOV.addr (fun s => s.silRecov on))

/-- SIL_CNT_CLR zeroes every SUPPRESSED and OVERFLOW count, SIL_UNLISTED and SIL_NVM.LOST (R430). -/
def SilSt.clearCounts (x : SilSt) : SilSt :=
  { x with codes := x.codes.map (fun e => { e with supp := 0, ovf := 0 })
           unlisted := x.unlisted.map (fun e => { e with supp := 0, ovf := 0 })
           unlistedOvf := 0, aoLost := 0, nvmLost := 0 }

def execSilCntClr (ini : Initiator) (s : State) : Host.Outcome State Fault Refusal :=
  .next (s.command ini SIL_CNT_CLR.CLR.addr (fun s => s.modSil SilSt.clearCounts))

end Sys2Proof.Machine
end

