-- ==== Sys2Proof/Machine/TwoWireCmd.lean ====
section
/-! DEFINITION. What a finished two-wire transaction means to the unit that queued it (R266, R199, R248, R307, R318, R326,
R327, R332), and the rows that start and end transactions. -/

namespace Sys2Proof.Machine

/-- A transaction's result goes to its owner. The spec gives the end of a margin write no effect of its own. -/
def State.ownerEnd (s : State) (n : Nat) (o : TwOwner) (r : Nat) (rx : List Byte) : State :=
  match o with
  | .seqOff rail => s.operationEnd rail r false
  | .seqOn rail => s.operationEnd rail r true
  | .seqPoll rail => s.statusEnd rail r rx
  | .seqMargin _ => s
  | .vofs p v | .phases p v => s.clampDone p v r
  | .bcThrottle p _ lvl => s.clampDone p lvl r
  | .bcTrain link cmd => s.bcEnd link cmd r rx
  | .ara => s.araEnd n r rx
  | .poll k last => s.pollEnd n k last (if r = resOk then leAt rx 0 1 else 0)
  | .channel c => s.channelEnd n c r rx
  | .tag slot k => s.tagEnd slot k r rx

/-- A transaction ends with a result: the port's counters, then the owner. -/
def State.txnEnd (s : State) (n : Nat) (t : TwTxn) (r : Nat) (rx : List Byte) : State :=
  (s.twCount n r).ownerEnd n t.owner r rx

/-- The transaction on the wire ends with a result. -/
def State.curEnd (s : State) (n : Nat) (t : TwTxn) (r : Nat) (rx : List Byte) : State := (s.twFree n).txnEnd n t r rx

/-- Every waiting transaction, and one on the wire, ends with SEG_DOWN (R329, R331, R333). -/
def State.segFlush (s : State) (n : Nat) : State :=
  let ts := (s.port n).cur.toList ++ (s.port n).queue
  ts.foldl (fun s t => s.txnEnd n t resSegDown []) ((s.twFree n).modPort n (fun p => { p with queue := [] }))

/-- The waiting transaction that is next is taken from the queue. -/
def dropTxn (t : TwTxn) : List TwTxn → List TwTxn
  | [] => []
  | x :: l => if x = t then l else x :: dropTxn t l

/-- The port starts the waiting transaction of the highest level (R317), or ends it where the segment is down (R319). In
safe mode the controllers pause (R78), on a segment that is down as well; in A3 and through a warm reset none runs (R333); an idle bus is
state IDLE. -/
def State.twStart (s : State) (n : Nat) : State :=
  match (s.port n).next with
  | none => s
  | some t =>
    let take (cur : Option TwTxn) (p : TwPort) : TwPort :=
      { p with queue := dropTxn t p.queue, cur := cur, turn := if t.owner.level = 5 then t.owner.turn else p.turn }
    if !s.twRuns then s
    else if s.segDown n then (s.modPort n (take none)).txnEnd n t resSegDown []
    else if s.get (TW_STS.STATE n) = 1 ∧ (s.port n).cur.isNone then
      (s.modPort n (take (some t))).set (TW_STS.STATE n) 2
    else s

def execTwTransactionStart (n : Fin 12) (s : State) : Host.Outcome State Fault Refusal := .next (s.twStart n.val)

/-- The clamp port of a write whose rail has left ON or stands at a margin: the write is discarded (R276, R279). -/
def State.clampStale (s : State) (o : TwOwner) : Option Nat :=
  match o with
  | .vofs p _ | .phases p _ => if (s.rail (s.cport p).target).any (fun r => r.st == .on && r.msteps == 0) then none else some p
  | _ => none

/-- Arbitration lost (R320): the record, then a retry in the same place, and with the same turn, while attempts are left. A clamp write that
is void by now is not tried again (R276). -/
def State.twArbLost (s : State) (n : Nat) (t : TwTxn) (byte bit : Nat) (rx : List Byte) : State :=
  let s := (s.setAll [(TW_ERR.ARB_LOST n, 1), (TW_ARB.BYTE n, min 0xFF byte), (TW_ARB.BIT n, bit)]).bump (TW_ARB.CNT n)
  let s := s.log EVT_TW_ARB ACC_TRAY UNIT_TW n [(0, 1, byte), (1, 1, bit), (2, 1, t.addr), (3, 1, t.owner.level)]
  if t.retries = 0 then s.curEnd n t resArbLost (t.partData rx)
  else
    match s.clampStale t.owner with
    | some p => (s.twFree n).modCport p (fun c => { c with cmd := s.get (TAMP_PROP.SENT p) })
    | none =>
      (s.twFree n).modPort n (fun p =>
        { p with queue := { t with retries := t.retries - 1 } :: p.queue,
                 turn := if t.owner.level = 5 then (t.owner.turn + 2) % 3 else p.turn })

/-- The transaction on the wire ends (R319, R320). -/
def State.twDone (s : State) (n : Nat) (e : TwEnd) : State :=
  match (s.port n).cur with
  | none => s
  | some t =>
    match e with
    | .completed rx => let r := t.result rx; s.curEnd n t r.1 r.2
    | .addrNack => s.curEnd n t resAddrNack []
    | .dataNack => s.curEnd n t resDataNack []
    | .arbLost byte bit rx => s.twArbLost n t byte bit rx
    | .busErr rx => s.curEnd n t resBusErr (t.partData rx)

def execTwTransactionDone (n : Fin 12) (ended : TwEnd) (s : State) : Host.Outcome State Fault Refusal :=
  .next (if s.twRuns then s.twDone n.val ended else s)

/-- SCL held low for 25 ms (R319, R335); `rx` is what had been received by then. -/
def execTwTimeout (n : Fin 12) (s : State) (rx : List Byte := []) : Host.Outcome State Fault Refusal :=
  .next (match (if s.twRuns then (s.port n.val).cur else none) with
    | none => s
    | some t => (s.log EVT_TW_TIMEOUT ACC_TRAY UNIT_TW n.val [(0, 1, 0), (1, 1, t.addr)]).curEnd n.val t resTimeout (t.partData rx))

/-- A line held low for 35 ms (R329): a port that is off has no segment to judge, and a segment that is down already is not
declared stuck again. -/
def execSegmentStuck (n : Fin 12) (scl sda : Bool) (s : State) : Host.Outcome State Fault Refusal :=
  .next (if s.get (TW_STS.STATE n.val) = 0 ∨ s.segDown n.val ∨ (scl ∧ sda) ∨ !s.twRuns then s
    else (s.segStuck n.val scl sda).segFlush n.val)

/-- SEG_SETTLE ends and the bus-idle condition is met or not (R330, R332): with it the segment returns to IDLE, the clamp
judges the proposals that SEG_DOWN left, and RECOVER is raised; without it the port goes on waiting. -/
def execSegSettleExpiry (n : Fin 12) (idle : Bool) (s : State) : Host.Outcome State Fault Refusal :=
  .next (if s.get (TW_STS.STATE n.val) = 5 ∧ s.on (TW_STS.SEGPWR n.val) ∧ idle ∧ s.twRuns then
    (((s.setAll [(TW_STS.STATE n.val, 1), (TW_STS.SCL n.val, 1), (TW_STS.SDA n.val, 1), (TW_IRQ_STS.RECOVER n.val, 1)]).log
      EVT_TW_RECOVER ACC_TRAY UNIT_TW n.val [(0, 1, s.get (TW_SEG.RUN n.val))]).clampSegUp n.val).araWant n.val
  else s)

end Sys2Proof.Machine
end

