-- ==== Sys2Proof/Machine/TopDie.lean ====
section
/-! DEFINITION. What the Top die loses (R89, R110 to R113), the presence window and the debug port as far as resets act on them
(R377, R379), the Bridge's states (R33, R39), and the loads of firmware (R388, R399, R400). -/

namespace Sys2Proof.Machine

def State.modPwr (s : State) (f : PwrSt → PwrSt) : State := { s with pwr := f s.pwr }

def State.modBrg (s : State) (f : BrgSt → BrgSt) : State := { s with brg := f s.brg }

def State.modNvm (s : State) (f : NvmSt → NvmSt) : State := { s with nvm := f s.nvm }

def State.modKey (s : State) (f : KeySt → KeySt) : State := { s with key := f s.key }

def State.modFw (s : State) (f : FwSt → FwSt) : State := { s with fw := f s.fw }

/-! ### Control cores (R412) -/

/-- A Control core's state set. -/
def State.setCore (s : State) (c st : Nat) : State :=
  let v := s.get FW_CORE_STS.STATE
  s.set FW_CORE_STS.STATE (v - bitsOf v (4 * c) 4 * 2 ^ (4 * c) + st % 16 * 2 ^ (4 * c))

/-! ### Loss of content -/

/-- The memories of the Top die whose content has class V (R18, R112). -/
def topMemories : List (Nat × Nat) := [
  (0x0100000000, 0x0101800000), (0x0210000000, 0x0210800000), (0x0220000000, 0x0220200000), (0x0230000000, 0x0230400000),
  (0x0401000000, 0x0401100000), (0x0402000000, 0x0402080000)]

/-- The LPDDR5X addresses (R18). -/
def lpddrRange : Nat × Nat := (0x1000000000, 0x2000000000)

/-- Memory without the content of a range. -/
def State.forget (s : State) (r : Nat × Nat) : State := { s with mem := memForget s.mem r.1 r.2 }

/-- The Top-die fields that OTP supplies: a loss of their class leaves them at its values (R362, R395). -/
def macFields : List Fld := [NET_MAC_LO.MAC_LO 0, NET_MAC_HI.MAC_HI 0, NET_MAC_LO.MAC_LO 1, NET_MAC_HI.MAC_HI 1, SVC_MAC_LO.MAC, SVC_MAC_HI.MAC]

/-- The Top die in reset or unpowered: its fields of the listed classes, its class V memories and everything its units hold are
lost (R110, R112), the gates of domains 0 to 8 end (R89), those of an A1 entry among them, and the requests held at their ports with a bus error (R22), a recovered clock is gone (R82), the
PLLs stand. -/
def State.topDieLose (s : State) (cls : List Ret) : State :=
  let s := topMemories.foldl State.forget (s.recoveredLost.lose false cls)
  let s := s.setAll [(CLK_GATE_REQ.REQ, s.get CLK_GATE_REQ.REQ / 512 * 512), (CLK_GATE_STS.GATED, s.get CLK_GATE_STS.GATED / 512 * 512),
    (CLK_STS.PLL0_LOCK, 0), (CLK_STS.PLL1_LOCK, 0), (PWRST_CORE_RST.RESTART, 0)]
  let s := s.setAll (macFields.map (fun f => (f, (look f.key s.otp.regs).getD 0)))
  { s with pwr := { s.pwr with a1Gates := [] }, inf := {}, tel := {}, ses := {}, sec := {}, sil := { s.sil with ports := s.sil.ports.filter (fun e => 48 ≤ e.1) },
           acd := { s.acd with stmts := [] }, clk := { s.clk with held := [], stores := [] },
           bus := if s.bus = .held then .error else s.bus,
           fw := { s.fw with a1 := [0, 0, 0, 0], topKick := 0, kick := [0, 0, 0, 0], irq := 0, nmi := s.fw.nmi / 16 * 16, caps := {}, lockDue := 0,
                             plic := {}, pmp := List.replicate 4 (List.replicate 16 {}) ++ s.fw.pmp.drop 4, mtimecmp := [0, 0, 0, 0] ++ s.fw.mtimecmp.drop 4,
                             ports := s.fw.ports.filter (fun e => 32 ≤ e.1) } }

/-! ### Presence window and debug port -/

/-- The presence window opens, or restarts at 600 s (R379). -/
def State.presOpen (s : State) (src : Nat) : State :=
  ((s.setAll [(KEY_PRES.OPEN, 1), (KEY_PRES.SRC, src)]).modKey (fun k => { k with presTs := s.now })).log EVT_PRES_OPEN ACC_TRAY
    UNIT_KEY 0 [(0, 1, src)]

/-- The presence window closes (R379): 0 after 600 s, 1 by CLOSE, 2 by a reset, 3 by a seal break. -/
def State.presClose (s : State) (reason : Nat) : State :=
  if s.on KEY_PRES.OPEN then (s.set KEY_PRES.OPEN 0).log EVT_PRES_CLOSE ACC_TRAY UNIT_KEY 0 [(0, 1, reason)] else s

/-- The debug port locks (R377): 0 when DURATION ends, 1 by a reset. -/
def State.dbgLock (s : State) (reason : Nat) : State :=
  if s.on KEY_STS.DBG_OPEN then
    (s.setAll [(KEY_STS.DBG_OPEN, 0), (KEY_DBG.SCOPE, 0)]).log EVT_DBG_LOCK ACC_TRAY UNIT_KEY 0 [(0, 1, reason)]
  else s

/-! ### Bridge states (R33) -/

def brgOff : Nat := 0
def brgTrain : Nat := 1
def brgUp : Nat := 2
def brgQuiesce : Nat := 3
def brgFenced : Nat := 4

def State.brgState (s : State) : Nat := s.get BRG_STS.STATE

/-- The Bridge's state set, GUARD_STALE with it (R41); a change is source 15 of the Keepers (R397). -/
def State.setBrg (s : State) (st : Nat) : State :=
  (if s.get BRG_STS.STATE = st then s else s.kraise 15).setAll [(BRG_STS.STATE, st), (BRG_STS.GUARD_STALE, b2n (st != brgUp))]

/-- What stands in the queues between the dies is lost. -/
def State.brgDrop (s : State) : State := s.modBrg (fun b => { b with guardQ := [], bulkQ := [], levelQ := [] })

/-- The outputs in force as the Bridge leaves UP: they hold; while an earlier hold runs, theirs comes after it (R39). -/
def State.holdBegin (s : State) (h : HoldState) : State :=
  let again := s.brg.hold = .holding
  let s := { s with tamp := { s.tamp with ports := s.tamp.ports.map (fun (c : ClampPort) =>
    if again then { c with oldNext := c.kind != 0 } else { c with old := c.kind != 0 }) } }
  s.modBrg (fun b => if again then { b with next := h } else { b with hold := h })

/-- The Bridge leaves UP (R39, R325): READY falls on the Control cores' ports; the outputs in force hold, and without a retrain
the throttle pre-hints end at once. -/
def State.leaveUp (s : State) (retrain : Bool) : State :=
  if s.bridgeUp then
    let s := s.readyDrop.holdBegin (if retrain then .retraining else .holding)
    if retrain then s else (List.range 64).foldl State.clampThrottleOff s
  else s

/-- A retrain's hold turns into a fence's. -/
def HoldState.lost : HoldState → HoldState
  | .retraining => .holding
  | h => h

/-- The retrain that the outputs waited for turns into a fence or a Top reset: their hold goes on, and the throttle pre-hints end at
once (R39). -/
def State.retrainLost (s : State) : State :=
  if s.brg.hold = .retraining ∨ s.brg.next = .retraining then
    (List.range 64).foldl State.clampThrottleOff (s.modBrg (fun b => { b with hold := b.hold.lost, next := b.next.lost }))
  else s

/-- QUIESCE begins (R33). -/
def State.quiesce (s : State) (dest : QuiesceTo) : State :=
  ((s.leaveUp (dest == .retrain)).setBrg brgQuiesce).modBrg (fun b => { b with quiesceTo := dest })

/-- TRAIN begins (R33). -/
def State.train (s : State) : State := (s.setBrg brgTrain).modBrg (fun b => { b with trainFails := 0, trainWait := false })

/-! ### Firmware loads -/

/-- The slot that a firmware load uses: the running one, or the other where that one verifies instead (R388). The kind is 2 for
Keeper and 4 for Control-core firmware. -/
def State.fwSlot (s : State) (k : Nat) : Option Nat :=
  let a := (s.marker k).getD 0 % 2
  if s.fwCheck (k == 2) (k + a) = 0 then some (k + a)
  else if s.fwCheck (k == 2) (k + (1 - a)) = 0 then some (k + (1 - a))
  else none

/-- The image in a flash place. -/
def State.image (s : State) (k : Nat) : List Byte := (look k s.flash).getD []

/-- The fingerprint follows a firmware load from another slot than the one it names (R63). -/
def State.kfwUse (s : State) (img : List Byte) : State :=
  if s.acd.kfw = imgDigest img then s else (s.modAcd (fun a => { a with kfw := imgDigest img })).fpChange 4 0

def State.cfwUse (s : State) (img : List Byte) : State :=
  if s.acd.cfw = imgDigest img then s else (s.modAcd (fun a => { a with cfw := imgDigest img })).fpChange 4 0

/-- A locked PMP entry in the top-of-range form over the bytes from a first to one past the last, read and executed but not written; its two
registers are entries 0 and 1 (R399; log entry 53). -/
def pmpText (lo hi : Nat) (l : List PmpEnt) : List PmpEnt :=
  modAt (modAt l 0 (fun _ => { addr := lo / 4 })) 1 (fun _ => { cfg := 0x8D, addr := (hi + 3) / 4 })

/-- The ROM loads the Keeper firmware and locks its text for both Keepers, or logs EVT_KFW_NONE, stops the Keeper watchdog and halts (R399). -/
def State.kfwLoad (s : State) : State :=
  match s.fwSlot 2 with
  | some k =>
    let img := s.image k
    let b := imgBody img
    let a := 0x0010100000 + fwLoadOfs b
    let s := { s with mem := fwLoad s.mem 0x0010100000 b, fw := { s.fw with pmp := s.fw.pmp.take 4 ++ (s.fw.pmp.drop 4).map (pmpText a (a + fwText b)) } }
    (s.modPwr (fun p => { p with keepersRun := true, kfwHalt := false })).kfwUse img
  | none =>
    let s := s.log EVT_KFW_NONE ACC_TRAY UNIT_KFW 0 [(0, 1, s.fwCheck true 2), (1, 1, s.fwCheck true 3)]
    s.modPwr (fun p => { p with keepersRun := false, kfwHalt := true, kprArmed := false })

/-- The Keeper watchdog is armed with a period of 1 s and MASK = K0 (R98, R406). -/
def State.kprArm (s : State) : State :=
  (s.setAll [(KPR_WDT_CFG.PERIOD, 4), (KPR_WDT_CFG.MASK, 1), (KPR_WDT_STS.KICKED, 0)]).modPwr (fun p =>
    { p with kprArmed := true, kprTs := s.now })

/-- The TMP version that a firmware image speaks: TMP_MAJ and TMP_MIN of its body (R346, R383). -/
def fwTmpMaj (body : List Byte) : Nat := leAt body 6 1
def fwTmpMin (body : List Byte) : Nat := leAt body 7 1

/-- The firmware, ready to serve: SES_VER from its image, and START of both ports (R338, R400; log entry 38 for the moment). -/
def State.cfwReady (s : State) (img : List Byte) : State :=
  ((s.setAll [(SES_VER.MAJ, fwTmpMaj (imgBody img)), (SES_VER.MIN, fwTmpMin (imgBody img))]).netStart 0).netStart 1

/-- The Control-core firmware in Top SRAM with its text range locked (R400). -/
def State.cfwLoad (s : State) (img : List Byte) : State :=
  let b := imgBody img
  let s := { s with mem := fwLoad s.mem 0x0100000000 b }
  (s.setAll [(FW_TEXT_BASE.BASE, fwLoadOfs b / 4096), (FW_TEXT_LIMIT.LIMIT, (fwLoadOfs b + fwText b) / 4096),
    (FW_TEXT_BASE.LOCK, 1)]).cfwUse img

end Sys2Proof.Machine
end

