-- ==== Sys2Proof/Machine/Power.lean ====
section
/-! DEFINITION. Power states, Top-die bring-up and Top resets (R91 to R109, R446 to R448), and the Bridge's entry into FENCED
(R34, R37), which they share. -/

namespace Sys2Proof.Machine

/-! ### Transitions (R99, R101, R102) -/

/-- CUR. -/
def State.cur (s : State) : Nat := s.get PWRST_STATE.CUR

/-- A transition begins: BUSY and the state being entered show. -/
def State.transBegin (s : State) (t : Transition) (tgt : Nat) : State :=
  (s.setAll [(PWRST_STATE.BUSY, 1), (PWRST_STATE.TGT, tgt)]).modPwr (fun p => { p with trans := some t, released := false })

/-- The state shown as in force, no transition running. -/
def State.pwrShow (s : State) (st : Nat) : State :=
  (s.setAll [(PWRST_STATE.BUSY, 0), (PWRST_STATE.TGT, st), (PWRST_STATE.CUR, st)]).modPwr (fun p => { p with trans := none })

/-- EVT_PWR_STATE when the state changes. -/
def State.pwrLog (s : State) (old st : Nat) : State :=
  s.logIf (old != st) EVT_PWR_STATE ACC_TRAY UNIT_PWRST 0 [(0, 1, old), (1, 1, st), (2, 2, s.get PWRST_WAKE_STS.SRC)]

/-- A transition ends in a state. -/
def State.transEnd (s : State) (st : Nat) : State := (s.pwrShow st).pwrLog s.cur st

/-- No program slot has a run in progress. -/
def State.runsEnded (s : State) : Bool := s.inf.slots.all (fun x => x.run.isNone)

/-- A release message for every output port is queued on GUARD (R39). -/
def State.releaseSend (s : State) : State := s.guardSend (.release (List.range 64))

/-- The domains that A1 gates (R102). -/
def a1Domains : List Nat := [0, 1, 2, 3, 8]

/-- The release of an A1 or A2 entry goes out once the running slots have finished; A1 entry then gates its domains and puts the
links to sleep (R102). An A2 entry that began in A1 keeps A1's gates until it is abandoned or the Top die loses its power (R103). -/
def State.releaseDue (s : State) : State :=
  if (s.pwr.trans = some .toA1 ∨ s.pwr.trans = some .toA2) ∧ !s.pwr.released ∧ s.runsEnded then
    let gates := if s.pwr.trans = some .toA1 then a1Domains.filter (fun d => !bitOf (s.get CLK_GATE_REQ.REQ) d) else []
    let s := s.releaseSend.modPwr (fun p => { p with released := true, a1Gates := p.a1Gates ++ gates })
    if s.pwr.trans = some .toA1 then (gates.foldl State.gateRequest s).linksSleep else s
  else s

/-- The domains that the entry gated run again and the slots are let go; a domain that software had gated before stays so (R102,
R448). -/
def State.a1Undo (s : State) : State :=
  ((s.pwr.a1Gates.foldl State.gateRelease s).modPwr (fun p => { p with a1Gates := [] })).infHold false

/-! ### The Top die in reset, powered down, brought up (R100, R105, R106, R447) -/

/-- The Bridge is OFF with nothing in its queues, and a forced fence is over (R33, R41). DESIGN CHOICE (log entry 47): the sequence numbers of
its messages go on, since no rule starts them anew. -/
def State.brgToOff (s : State) : State :=
  (((s.leaveUp false).retrainLost.brgDrop.modBrg (fun b => { b with ctrlQ := [], backQ := [] })).setBrg brgOff).set BRG_CTL.FENCE 0

/-- The Top die's power changes: a measurement of a clock on it is disturbed (R86). -/
def State.topPowerChange (s : State) (changes : Bool) : State := if changes then s.fmcDisturb fmcOnTop else s

/-- The Top die loses its power: fields of the listed classes and LPDDR5X are lost, no bring-up and no Top reset runs. -/
def State.topPowerOff (s : State) (cls : List Ret) : State :=
  (((s.topPowerChange (s.pwr.toppwrEn || s.pwr.toppwrGood)).brgToOff.topDieLose cls).forget lpddrRange).modPwr (fun p =>
    { p with toppwrEn := false, toppwrGood := false, goodTs := none, topRst := true, bring := 0, topReset := false, lpHeld := false,
             a1Gates := [] })

/-- A bring-up begins (R98, R105): at step 1 with TOPPWR_EN low, at step 3 with it high. One that follows a Top reset leaves CUR. -/
def State.bringUp (s : State) (from_ : BringFrom) : State :=
  let s := (s.topPowerChange (!s.pwr.toppwrEn)).modPwr (fun p =>
    { p with bringFrom := from_, retry := false, exitNext := false, toA0 := false, topRst := true, toppwrEn := true,
             bring := if p.toppwrEn then 3 else 2 })
  if from_ = .topReset then s else s.transBegin .toA0 0

/-- The retries of a failed bring-up go on (R106). -/
def State.retryAllowed (s : State) : Bool := s.get PWRST_TOP_CAUSE.FAIL_RUN < s.get PWRST_TOP_CFG.MAX_FAIL + 1

/-- A bring-up fails at a step for a reason (R106, R445). FAIL_RUN stays at 0xF once it is there (DESIGN CHOICE, log entry 52: R106 and R120
do not say whether it wraps). -/
def State.bringFail (s : State) (step reason : Nat) : State :=
  let from_ := s.pwr.bringFrom
  let s := (s.topPowerOff [.v, .c]).set PWRST_STATE.TOP_FAIL 1
  let s := s.bump PWRST_TOP_CAUSE.FAIL_RUN
  let s := s.log EVT_TOP_BRINGUP ACC_TRAY UNIT_PWRST 0 [(0, 1, step), (1, 1, reason), (2, 1, s.get PWRST_TOP_CAUSE.FAIL_RUN)]
  let next := s.pwr.exitNext
  let s := s.modPwr (fun p => { p with retry := s.retryAllowed, exitNext := false })
  if from_ = .topReset then s
  else
    let s := s.transEnd 2
    if next then s.bringUp .a2Exit else s

/-! ### Top resets (R93, R446, R447) -/

/-- Cause bits of PWRST_TOP_CAUSE[3:0]. -/
def topKeeper : Nat := 1
def topWdt : Nat := 2
def topHost : Nat := 4
def topFence : Nat := 8

/-- The cause bits written. -/
def State.topCauses (s : State) (m : Nat) : State :=
  s.setAll [(PWRST_TOP_CAUSE.KEEPER, bitsOf m 0 1), (PWRST_TOP_CAUSE.TOP_WDT, bitsOf m 1 1), (PWRST_TOP_CAUSE.HOST_CMD, bitsOf m 2 1),
    (PWRST_TOP_CAUSE.FENCE, bitsOf m 3 1)]

def State.topCauseBits (s : State) : Nat :=
  s.get PWRST_TOP_CAUSE.KEEPER + 2 * s.get PWRST_TOP_CAUSE.TOP_WDT + 4 * s.get PWRST_TOP_CAUSE.HOST_CMD
    + 8 * s.get PWRST_TOP_CAUSE.FENCE

/-- The Top die goes into reset with the Bridge OFF: LPDDR5X in self-refresh where its controller was running or held it so, class V and C
lost, EVT_RESET (R33, R110, R113, R417, R447). -/
def State.topInReset (s : State) : State :=
  let held := s.on LPC_STS.INIT_DONE || s.pwr.lpHeld
  let s := (s.brgToOff.topDieLose [.v, .c]).modPwr (fun p => { p with topRst := true, bring := 0, lpHeld := held })
  s.admitEvent (s.resetEvent 2)

/-- A Top reset starts (R447). A commanded one sends a release first and leaves UP when it has been delivered (R39). -/
def State.topStart (s : State) (m : Nat) : State :=
  let fresh := s.pwr.bring = 0
  let s := ((s.topCauses m).bump PWRST_RST_CNT.TOP_CNT).modPwr (fun p =>
    { p with topReset := true, retry := false, bring := 0, bringFrom := if fresh then .topReset else p.bringFrom })
  if s.brgState = brgUp then
    if m % 2 + m / 4 % 2 != 0 then s.releaseSend else s.quiesce .topReset
  else if s.brgState = brgQuiesce then s.modBrg (fun b => { b with quiesceTo := .topReset })
  else s.topInReset

/-- A Top-reset request with its cause bits (R446). A stronger reset in progress absorbs it; one that meets a running Top reset is
absorbed with its source recorded (R93). -/
def State.topRequest (s : State) (m : Nat) : State :=
  if s.pwr.warmOn || s.pwr.rom != .none || !s.pwr.toppwrEn || s.pwr.bring == 1 || s.pwr.bring == 2 then s
  else if s.pwr.trans.isSome && s.pwr.trans != some .toA0 then s.modPwr (fun p => { p with topWait := p.topWait ||| m })
  else if s.pwr.topReset then s.topCauses (s.topCauseBits ||| m)
  else s.topStart m

/-- The requests that waited for a transition (R446). -/
def State.topWaiting (s : State) : State :=
  let m := s.pwr.topWait
  if m = 0 then s else (s.modPwr (fun p => { p with topWait := 0 })).topRequest m

/-! ### A2 entry (R103, R104) -/

/-- A2 entry ends: the Bridge OFF, the Top die in reset, TOPPWR_EN low, the host watchdog disarmed (R103, R298); an exit that a
wake asked for starts. -/
def State.a2Finish (s : State) : State :=
  let s := ((s.topPowerOff [.w, .v, .c]).set COOL_HWDT_STS.ARMED 0).transEnd 2
  let s := s.topWaiting
  if s.pwr.exitNext then s.bringUp .a2Exit else s

/-- The Bridge is not UP at A2 entry: nothing is saved (R104). -/
def State.a2Lost (s : State) : State :=
  let st := s.brgState
  (((s.set PWRST_STATE.WSAVE_LOST 1).modPwr (fun p => { p with wsaveValid := false })).log EVT_WSAVE_LOST ACC_TRAY UNIT_PWRST 0
    [(0, 1, st)]).a2Finish

/-! ### Fences (R33, R34, R37) -/

/-- What a fence leads to (R37, R106, R446): a failed bring-up, the end of an A2 entry, or a Top reset. -/
def State.fenceHandle (s : State) : State :=
  if 3 ≤ s.pwr.bring then s.bringFail s.pwr.bring 4
  else if s.pwr.topReset then (if s.pwr.topRst then s.brgToOff else s.topInReset)
  else if s.pwr.trans = some .toA2 then (if s.pwr.wsaveValid then s.a2Finish else s.a2Lost)
  else s.topRequest topFence

/-- The Bridge enters FENCED (R33). -/
def State.fenceEnter (s : State) : State := ((s.leaveUp false).retrainLost.brgDrop.setBrg brgFenced).bump BRG_EVT_CNT.LOST_CNT

/-- The Top die is lost (R34, R437). -/
def State.topLost (s : State) : State :=
  let s := s.fenceEnter.setAll [(BRG_STS.TOP_LOST, 1), (BRG_STS.LOST_FB, b2n s.fb)]
  let s := s.set64 BRG_LOST_TS_LO.TS_LO BRG_LOST_TS_HI.TS_HI s.now
  (s.log EVT_BRG_LOST ACC_TRAY UNIT_BRG 0 [(0, 2, s.get BRG_SEQ.BULK_RX)]).fenceHandle

/-! ### Requests (R101, R448) -/

/-- A reset is in progress: a Top reset is until its bring-up has ended (R447). DESIGN CHOICE (log entry 18): a warm reset that R96 delays counts
from its request on; a core restart (R91) does not count, since it takes no power state away. -/
def State.resetRuns (s : State) : Bool :=
  (s.pwr.bring != 0 && s.pwr.bringFrom == .topReset) || s.pwr.warmOn || s.pwr.warmWait != 0 || s.pwr.topReset || s.pwr.coldHeld || s.pwr.rom != .none

/-- The refusal cause of a request for a state, 0 for none (R101, R448). The table's order decides among several causes. A rail that PMBus
alone switches counts as an enabled EN output whenever it is not OFF (R273). -/
def State.pwrCause (s : State) (ini : Initiator) (req : Nat) : Nat :=
  let core := match ini with
    | .core _ => true
    | _ => false
  let job := s.get SES_JOB.RUNNING != 0
  if s.on PWRST_STATE.BUSY || s.resetRuns then 6
  else if core && req == 3 then 7
  else if s.cur = 0 ∧ req = 1 then (if job then 1 else 0)
  else if (s.cur = 0 ∨ s.cur = 1) ∧ req = 2 then (if job then 1 else if s.seqBusy then 3 else 0)
  else if (s.cur = 1 ∨ s.cur = 2) ∧ req = 0 then 0
  else if s.cur = 2 ∧ req = 3 then
    (if s.seq.enLvl != 0 || s.seq.rails.any (fun r => r.cfg.pmbOn && !r.cfg.enUse && r.st != .off) then 4
     else if (List.range 16).any (fun k => s.on (COOL_LK_STS.ACTIVE k)) then 5
     else if s.seqBusy then 3 else 0)
  else 7

/-- A refusal (R101). -/
def State.pwrRefuse (s : State) (ini : Initiator) (req cause : Nat) : State :=
  s.log EVT_PWR_REFUSED ACC_TRAY UNIT_PWRST 0 [(0, 1, s.cur), (1, 1, req), (2, 1, cause), (3, 1, iniByte ini)]

/-- An A1 exit trigger (R101, R448): A1 is left, or its entry is abandoned. -/
def State.a1Exit (s : State) : State :=
  if s.pwr.trans = some .toA1 then (s.a1Undo.transEnd 0).topWaiting
  else if s.cur = 1 ∧ s.pwr.trans = none then s.a1Undo.hwdtEnterA0.transEnd 0
  else s

/-- A0 to A1 begins (R102). -/
def State.a1Enter (s : State) (ini : Initiator) : State :=
  (((s.transBegin .toA1 1).modPwr (fun p => { p with a1Ini := ini })).infHold true).releaseDue

/-- A0 or A1 to A2 begins (R102, R104). -/
def State.a2Enter (s : State) : State :=
  let s := s.transBegin .toA2 2
  if s.bridgeUp then ((s.infHold true).modPwr (fun p => { p with wsaveValid := false })).releaseDue else s.a2Lost

/-- The class V fields that show what a loss of fields does not change: the clock sources and the supply. -/
def liveFields : List Fld :=
  [CLK_STS.BASE_SRC, CLK_STS.REF_OK, CLK_STS.IOSC_RDY, CLK_STS.FB, PWRST_BO_STS.BOW_NOW,
   PWRST_BO_STS.NVM_HELD, PWRST_NVM_STS.BUSY, TAMP_STS.SAFE, SEQ_STS.HOLD, COOL_STS.F_SAFE]

/-- The clock monitor's own class V fields, which a warm reset does not reset (R98). -/
def monitorFields : List Fld := [CLK_HOST_CNT.COUNT, CLK_IOSC_CNT.COUNT]

/-- Base-die fields of the listed classes are lost but for those that stay (R110). -/
def State.baseLose (s : State) (cls : List Ret) (stay : List Fld) : State :=
  let t := (s.lose true cls).setAll ((liveFields ++ stay).map (fun f => (f, s.get f)))
  if cls.contains .v then t.fanLoopsLose else t

/-- Keeper code and data are lost (R112). -/
def State.keeperLose (s : State) : State :=
  ((s.forget (0x0010100000, 0x0010180000)).modPwr (fun p => { p with keepersRun := false, kprArmed := false })).modFw (fun f =>
    { f with kprHalt := [], crashes := [], kirq := 0, kplic := {},
                mtimecmp := f.mtimecmp.take 4 ++ [0, 0], pmp := f.pmp.take 4 ++ List.replicate 2 (List.replicate 8 {}), nmi := f.nmi % 16, ports := f.ports.filter (fun e => e.1 < 32) })

/-- A2 to A3 (R107, R285, R333): the ports stop, the fans and pumps go to the A3 duty, class V is lost, BASE and IOSC stop. DESIGN CHOICE (log
entry 6): PRES_JMP, class V with the reset value 'sampled', reads 0 from here to the next sample. -/
def State.a3Enter (s : State) : State :=
  let s := ((List.range 12).foldl State.segFlush s).twCut
  let forced := s.coolForced
  let s := ((s.baseLose [.v] ((List.range 30).map chOut)).modKey (fun k => { k with req := none })).keeperLose.coolA3 forced
  let s := { s with sil := s.sil.stop }
  let s := s.modPwr (fun p => { p with retry := false, sampling := false, toA0 := false })
  let s := (s.modClk (fun c => { c with iosc := false })).setAll [(CLK_STS.IOSC_RDY, 0), (CLK_STS.REF_OK, 0)]
  ((s.pwrLog s.cur 3).pwrShow 3).baseTo srcStopped

/-- A request for a state (R101, R448): for the state in force it has no effect. DESIGN CHOICE (log entry 18): where a transition or a reset
runs, cause 6 comes before that, since R448 does not say which of the two holds. -/
def State.pwrRequest (s : State) (ini : Initiator) (req : Nat) : State :=
  if s.cur = req ∧ !s.on PWRST_STATE.BUSY ∧ !s.resetRuns then s
  else
    let c := s.pwrCause ini req
    if c ≠ 0 then s.pwrRefuse ini req c
    else if req = 0 then (if s.cur = 1 then s.a1Exit else s.bringUp .a2Exit)
    else if req = 1 then s.a1Enter ini
    else if req = 2 then s.a2Enter
    else s.a3Enter

def execPowerReqA0 (ini : Initiator) (s : State) : Host.Outcome State Fault Refusal :=
  .next (s.command ini PWRST_CTL.REQ.addr (fun s => s.pwrRequest ini 0))

def execPowerReqA1 (ini : Initiator) (s : State) : Host.Outcome State Fault Refusal :=
  .next (s.command ini PWRST_CTL.REQ.addr (fun s => s.pwrRequest ini 1))

def execPowerReqA2 (ini : Initiator) (s : State) : Host.Outcome State Fault Refusal :=
  .next (s.command ini PWRST_CTL.REQ.addr (fun s => s.pwrRequest ini 2))

def execPowerReqA3 (ini : Initiator) (s : State) : Host.Outcome State Fault Refusal :=
  .next (s.command ini PWRST_CTL.REQ.addr (fun s => s.pwrRequest ini 3))

/-- The end of A1 entry (R102): every domain gated, or a refused gate undoes the entry with cause 2. -/
def State.a1Complete (s : State) : State :=
  if s.pwr.trans = some .toA1 ∧ s.pwr.released then
    if a1Domains.all s.gated then (s.transEnd 1).topWaiting
    else if a1Domains.any (fun d => !bitOf (s.get CLK_GATE_REQ.REQ) d) then
      (((s.pwrRefuse s.pwr.a1Ini 1 2).a1Undo).transEnd 0).topWaiting
    else s
  else s

def execA1EntryComplete (s : State) : Host.Outcome State Fault Refusal := .next (s.releaseDue.a1Complete)

/-! ### The Top save block (R103, R105) -/

/-- Its first byte and its size. -/
def wBlock : Nat := 0x00101F0000
def wBlockLen : Nat := 0x10000

/-- The block's content: a count, then for every field that is not at its reset value its key (8 bytes) and value (4 bytes). The layout is
the model's (DESIGN CHOICE, log entry 52). -/
def wEncode (l : List (Nat × Nat)) : List Byte := leBytes 4 l.length ++ l.flatMap (fun e => leBytes 8 e.1 ++ leBytes 4 e.2)

/-- What a block in memory holds. -/
def wDecode (m : List Host.Cell) : List (Nat × Nat) :=
  (List.range (min 5461 (leNat (memBytes m wBlock 4)))).map (fun k =>
    (leNat (memBytes m (wBlock + 4 + 12 * k) 8), leNat (memBytes m (wBlock + 12 + 12 * k) 4)))

/-- Every Top-die field of class W copied into the block. -/
def State.wCopy (s : State) : State :=
  { s with mem := memStore (memForget s.mem wBlock (wBlock + wBlockLen)) wBlock (wEncode (s.regs.filter (fun e => keyClass e.1 false .w))) }

/-- The W save is complete (R103): the block is valid, the links are told to be quiet (R201), and the Bridge leaves UP. -/
def State.wSaved (s : State) : State :=
  if s.pwr.trans = some .toA2 ∧ s.pwr.released ∧ s.bridgeUp then
    ((s.wCopy.modPwr (fun p => { p with wsaveValid := true })).linksQuiet).quiesce .a2
  else s

def execWSaveDone (s : State) : Host.Outcome State Fault Refusal := .next (s.releaseDue.wSaved)

/-! ### Wake sources (R108, R109, R448) -/

/-- A wake restarts the bring-ups whose retries have stopped (R106). -/
def State.wakeRetry (s : State) : State :=
  if !s.retryAllowed && !s.pwr.toppwrEn && !s.pwr.kfwHalt then
    (s.set PWRST_TOP_CAUSE.FAIL_RUN 0).bringUp (if s.cur = 2 then .a2Exit else .topReset)
  else s

/-- Wake sources fire: the enabled ones are recorded and act by the state in force. With the retries of a failed bring-up stopped, one starts a
bring-up whatever its target; in A3 that follows the exit (R106). Through a warm reset and the
ROM's run no source is seen. An A2 entry is abandoned until its save block is complete, which step 2 follows (R103), whatever a retrain makes of
the Bridge meanwhile. A source that fires from step 2 of an A2 entry on
starts the exit when its target is A0; with the target A2 there is no state to go on to (DEDUCED from R109, log entry 52: R103 names no
target). -/
def State.wake (s : State) (bits : Nat) : State :=
  let m := bits &&& s.get PWRST_WAKE_EN.EN
  let a0 := (m &&& s.get PWRST_WAKE_TGT.TGT) != 0
  let add (s : State) : State := s.set PWRST_WAKE_STS.SRC (s.get PWRST_WAKE_STS.SRC ||| m)
  if m = 0 ∨ s.pwr.warmOn ∨ s.pwr.rom ≠ .none ∧ s.pwr.trans ≠ some .a3ToA2 then s
  else
    match s.pwr.trans with
    | some .toA1 => (s.set PWRST_WAKE_STS.SRC m).a1Exit.wakeRetry
    | some .toA2 =>
      if !s.pwr.wsaveValid then
        let s := (s.set PWRST_WAKE_STS.SRC m).a1Undo
        ((if s.cur = 1 then s.hwdtEnterA0 else s).transEnd 0).topWaiting
      else (add s).modPwr (fun p => { p with exitNext := p.exitNext || a0 })
    | some .toA0 => (add s).modPwr (fun p => { p with exitNext := p.exitNext || a0 })
    | some .a3ToA2 => (add s).modPwr (fun p => { p with toA0 := p.toA0 || a0 })
    | some .toA3 => add s
    | none =>
      let stopped := !s.retryAllowed
      let s := if s.cur = 1 then (s.set PWRST_WAKE_STS.SRC m).a1Exit else s
      if s.cur = 3 then
        let s := ((s.set PWRST_WAKE_STS.SRC m).setIf stopped PWRST_TOP_CAUSE.FAIL_RUN 0).transBegin .a3ToA2 2
        (s.modClk (fun c => { c with iosc := true })).modPwr (fun p => { p with toA0 := a0 || stopped, rom := .a3 })
      else if s.pwr.kfwHalt || s.pwr.toppwrEn then s
      else
        let s := s.set PWRST_WAKE_STS.SRC m
        if stopped then s.wakeRetry
        else if s.cur = 2 ∧ a0 then s.bringUp .a2Exit
        else s

/-- Rising edges of wake inputs; one that no ball carries is not seen (R47, R108). -/
def execWakeInput (mask : Fin 256) (s : State) : Host.Outcome State Fault Refusal :=
  .next (s.wake (mask.val &&& maskOf 8 (s.placedIn fnWake)))

/-- The wake timer counts from the entry to A2 or A3; 0 is off (R108, R120). -/
def execWakeTimer (s : State) : Host.Outcome State Fault Refusal :=
  .next (if s.get PWRST_WAKE_TMR.MS ≠ 0 ∧ (s.cur = 2 ∨ s.cur = 3) then s.wake 0x400 else s)

/-- An address match in A3 (R328). -/
def execWakeAddressMatch (n : Fin 12) (addr : Fin 128) (s : State) : Host.Outcome State Fault Refusal :=
  .next (if s.cur = 3 ∧ s.on (TW_CFG.WAKE n.val) ∧ bitOf (s.get PWRST_WAKE_EN.EN) 8 ∧ s.tgtMatch n.val addr.val then
    ((s.set (TW_STS.WAKE_HIT n.val) 1).log EVT_TW_WAKE ACC_TRAY UNIT_TW n.val [(0, 1, addr.val)]).wake 0x100
  else s)

/-- A leak measurement (R300, R301); a channel that crosses its threshold is a wake source too (R108, R109). -/
def execLeakMeasure (k : Fin 16) (imp : Nat) (s : State) : Host.Outcome State Fault Refusal :=
  let t := s.leakMeasure k.val imp
  .next (if !s.on (COOL_LK_STS.LEAK k.val) && t.on (COOL_LK_STS.LEAK k.val) then t.wake 0x200 else t)

/-! ### Bring-up steps (R105, R106) -/

/-- Step 2 (R105). -/
def execToppwrGoodRise (s : State) : Host.Outcome State Fault Refusal :=
  .next (if s.pwr.toppwrEn && !s.pwr.toppwrGood then
    (s.topPowerChange true).modPwr (fun p =>
      { p with toppwrGood := true, goodTs := some (p.goodTs.getD s.now), bring := if p.bring = 2 then 3 else p.bring })
  else s)

/-- A deglitched fall of TOPPWR_GOOD with TOPPWR_EN high: a failed bring-up, or the loss of the Top die (R106, R437). -/
def State.goodFall (s : State) : State :=
  if s.pwr.toppwrEn && s.pwr.toppwrGood then
    let s := (s.topPowerChange true).modPwr (fun p => { p with toppwrGood := false })
    if 3 ≤ s.pwr.bring then s.bringFail s.pwr.bring 2 else s.topLost.modPwr (fun p => { p with topRst := true })
  else s

def execToppwrGoodFall (s : State) : Host.Outcome State Fault Refusal := .next s.goodFall

/-- PG_TO passes without TOPPWR_GOOD; a bring-up that stands at step 3 without it fails there. -/
def execPgTimeout (s : State) : Host.Outcome State Fault Refusal :=
  .next (if (s.pwr.bring = 2 ∨ s.pwr.bring = 3) ∧ !s.pwr.toppwrGood then s.bringFail s.pwr.bring 1 else s)

/-- Step 3: the PLLs lock and the Top die leaves reset; the Bridge trains (R33, R105). -/
def execPllLock (s : State) : Host.Outcome State Fault Refusal :=
  .next (if s.pwr.bring = 3 ∧ s.pwr.toppwrGood then
    let s := s.setAll [(CLK_STS.PLL0_LOCK, 1), (CLK_STS.PLL1_LOCK, 1), (INF_STS.PLL1_OK, 1), (BRG_CTL.FENCE, 0)]
    (s.modPwr (fun p => { p with bring := 4, topRst := false })).train
  else s)

/-- The hold of a Top reset is over: the bring-up goes on from step 3 (R447). -/
def execTopResetHoldEnd (s : State) : Host.Outcome State Fault Refusal :=
  .next (if s.pwr.topReset ∧ s.brgState = brgOff then s.modPwr (fun p => { p with topReset := false, bring := 3 }) else s)

/-- A saved field goes back into its register, where it names a Top-die field of class W. -/
def State.wPut (s : State) (e : Nat × Nat) : State :=
  match fieldOfKey e.1 with
  | some f => if keyClass e.1 false .w then s.set f e.2 else s
  | none => s

/-- Step 6: a valid Top save block goes into the Top-die W fields (R105). A recorder that runs already has no ring behind it (R214). -/
def State.wRestore (s : State) : State :=
  if s.pwr.wsaveValid then
    let s := ((wDecode s.mem).foldl State.wPut (s.lose false [.w])).modPwr (fun p => { p with wsaveValid := false })
    if s.on TFAB_CTL.REC_RUN then s.recFirst else s
  else s

/-- Step 5: the reload of R55 ends, with the index of a chunk that fails where one does; then step 6. -/
def State.reloadDone (s : State) (bad : Option Nat) : State :=
  if s.pwr.bring = 5 then
    match (if s.locked then bad else none) with
    | some k => ((s.set ACD_STS.RELOAD_FAIL 1).log EVT_ACD_RELOAD ACC_TRAY UNIT_ACD 0 [(0, 4, k)]).bringFail 5 5
    | none => s.topReload.wRestore.modPwr (fun p => { p with bring := 7 })
  else s

def execSensorMapReloadDone (bad : Option (Fin 4096)) (s : State) : Host.Outcome State Fault Refusal :=
  .next (s.reloadDone (bad.map (·.val)))

/-- Steps 7 and 8: the Control-core firmware is loaded, its cores start and CUR = A0; or the bring-up fails (R105, R106). -/
def State.fwLoaded (s : State) : State :=
  if s.pwr.bring = 7 then
    match s.fwSlot 4 with
    | none => s.bringFail 7 6
    | some k =>
      let s := (s.cfwLoad (s.image k)).setAll [(FW_CORE_STS.STATE, 0x1111), (PWRST_TOP_CAUSE.FAIL_RUN, 0)]
      let s := (s.modPwr (fun p => { p with bring := 0, exitNext := false })).modFw (fun f =>
        { f with kick := [s.now, s.now, s.now, s.now] })
      (s.cfwReady (s.image k)).hwdtEnterA0.transEnd 0
  else s

def execFwLoadDone (s : State) : Host.Outcome State Fault Refusal := .next s.fwLoaded

/-- The retry 1 s after a failure (R106). -/
def execBringupRetry (s : State) : Host.Outcome State Fault Refusal :=
  .next (if s.pwr.retry && s.pwr.bring == 0 && !s.pwr.toppwrEn && s.pwr.keepersRun && s.cur != 3 && s.pwr.trans.isNone then
    s.bringUp (if s.cur = 2 then .a2Exit else .topReset)
  else s)

/-- Software writes 0 to FAIL_RUN: retries that had stopped resume 1 s later (R106). -/
def State.failRunClear (s : State) : State :=
  let stopped := !s.retryAllowed && !s.pwr.toppwrEn && s.pwr.bring == 0 && s.cur != 3
  (s.set PWRST_TOP_CAUSE.FAIL_RUN 0).modPwr (fun p => { p with retry := p.retry || stopped })

def execFailRunClear (ini : Initiator) (s : State) : Host.Outcome State Fault Refusal :=
  .next (s.command ini PWRST_TOP_CAUSE.FAIL_RUN.addr State.failRunClear)

def execTopRst (ini : Initiator) (s : State) : Host.Outcome State Fault Refusal :=
  .next (s.command ini PWRST_CTL.TOP_RST.addr (fun s => s.topRequest topKeeper))

/-- LPDDR5X training ends, once in a bring-up (R113, R218): after a Top reset the contents stand when self-refresh was confirmed, else they are
lost. The rate 0x3 is not supported, and its training fails (R222). A recorder that runs already goes on with a ring that survived, and
starts at the next buffer otherwise (R214). -/
def State.lpTrained (s : State) (ok kept : Bool) : State :=
  if s.bridgeUp && !s.tel.lpEnded && s.get ACD_INFO.LP_CAP != 0 then
    let ok := ok && s.get LPC_CFG.RATE != 3
    let s := s.modTel (fun t => { t with lpEnded := true })
    let held := s.pwr.lpHeld
    let runs := s.on TFAB_CTL.REC_RUN
    let s := s.modPwr (fun p => { p with lpHeld := false })
    let s := s.setAll [(LPC_STS.INIT_DONE, b2n ok), (LPC_STS.SELF_REFRESH, 0)]
    let s := s.setIf (!ok) LPC_STS.TRAIN_FAIL 1
    if held && ok && kept then s.modTel (fun t => { t with survived := !runs })
    else
      let s := if held then (s.forget lpddrRange).logTop EVT_LP_LOST ACC_TRAY UNIT_LPC 0 else s
      if runs then s.recFirst else s
  else s

def execLpddrTrainingDone (ok kept : Bool) (s : State) : Host.Outcome State Fault Refusal := .next (s.lpTrained ok kept)

end Sys2Proof.Machine
end

