-- ==== Sys2Proof/Machine/Bridge.lean ====
section
/-! DEFINITION. The Bridge's messages and states (R25 to R41): what a message met on its way, GUARD, BULK, release and time
messages, training, QUIESCE, fences, and the hold of the Top-tier outputs. -/

namespace Sys2Proof.Machine

/-! ### Beats (R31) -/

/-- How many replays a message may take: BRG_CTL.REPLAY_MAX plus 1. -/
def State.replayMax (s : State) : Nat := s.get BRG_CTL.REPLAY_MAX + 1

/-- The message's last allowed replay failed as well: the original and every replay were rejected. -/
def State.exhausted (s : State) (b : Beats) : Bool := s.replayMax < b.rejected

/-- The check-bit counters after a message. -/
def State.beatCount (s : State) (b : Beats) : State :=
  (s.bump BRG_ECC_CNT.CORR b.corrected).bump BRG_ECC_CNT.UNCORR (min b.rejected (s.replayMax + 1))

/-- Replays are exhausted: REPLAY_EXH, EVT_BRG_REPLAY, FENCED (R31, R37). -/
def State.replayFail (s : State) (vc dir : Nat) : State :=
  (((s.set BRG_STS.REPLAY_EXH 1).log EVT_BRG_REPLAY ACC_TRAY UNIT_BRG 0 [(0, 1, vc), (1, 1, dir)]).fenceEnter).fenceHandle

/-- A message of a type with its data beats and address arrives after the errors it met, or is lost with the Bridge (R27, R31). -/
def State.message (s : State) (b : Beats) (vc dir kind len addr : Nat) (arrive : State → State) : State :=
  let t := s.beatCount b
  if s.exhausted b then t.replayFail vc dir else arrive (t.msgHeader vc dir kind len addr)

/-! ### GUARD from Top to Base (R28, R29, R39) -/

/-- The front of GUARD taken off. -/
def State.guardTake (s : State) : State := s.modBrg (fun b => { b with guardQ := b.guardQ.drop 1 })

/-- Guard values replace those held for their positions, with the tick they were assembled at (R226). -/
def State.guardArrive (s : State) (tick : Nat) (vs : List (Nat × Nat)) : State :=
  { s with tamp := { s.tamp with guard := vs.foldl (fun g v => put v.1 (v.2, tick) g) s.tamp.guard } }

/-- The message of guard values at the front of GUARD arrives. -/
def State.guardDeliver (s : State) (b : Beats) : State :=
  match s.brg.guardQ with
  | .values tick vs :: _ => if s.flows then s.message b vcGuard 0 kindValues 4 0 (fun s => s.guardTake.guardArrive tick vs) else s
  | _ => s

def execGuardMessage (beats : Beats) (s : State) : Host.Outcome State Fault Refusal := .next (s.guardDeliver beats)

/-- The release at the front of GUARD arrives: while the Bridge is UP its ports are released with no hold, afterwards it has no
effect (R39). A commanded Top reset that waited for it leaves UP. -/
def State.releaseDeliver (s : State) (b : Beats) : State :=
  match s.brg.guardQ with
  | .release ps :: _ =>
    if s.flows then
      s.message b vcGuard 0 kindRelease 1 0 (fun s =>
        let s := if s.bridgeUp then s.guardTake.clampReleaseAll ps else s.guardTake
        if s.pwr.topReset && s.bridgeUp then s.quiesce .topReset else s)
    else s
  | _ => s

/-- A release that an entry of A1 or A2 owes goes out once the runs have ended (R102). -/
def execReleaseMessage (beats : Beats) (s : State) : Host.Outcome State Fault Refusal :=
  .next (s.releaseDue.releaseDeliver beats)

/-- A keepalive keeps the Bridge alive and carries nothing but its header (R30): LIVENESS_LOST reports its absence. -/
def execKeepalive (s : State) (beats : Beats := {}) : Host.Outcome State Fault Refusal :=
  .next (if s.bridgeUp then s.message beats vcGuard 0 kindAlive 0 0 id else s)

/-- The Base side hears nothing for LIVE_TO while UP (R34). -/
def execLivenessLost (s : State) : Host.Outcome State Fault Refusal := .next (if s.bridgeUp then s.topLost else s)

/-! ### BULK (R28, R34, R411) -/

/-- The start of the log ring mirror, and its slots (R18, R411). -/
def mirrorBase : Nat := 0x0010180000
def mirrorSlots : Nat := 8192

/-- The 32 bytes of a log entry of eight words. -/
def entryBytes (e : List Nat) : List Byte := (e.map (leBytes 4)).flatten

/-- A mirror entry is written: the next MSEQ and its slot (R411). -/
def State.mirrorWrite (s : State) (e : List Nat) : State :=
  let m := (s.get BRG_LOG_MSEQ.MSEQ + 1) % 2 ^ 32
  { (s.set BRG_LOG_MSEQ.MSEQ m) with mem := memStore s.mem (mirrorBase + 32 * (m % mirrorSlots)) (padTo 32 (entryBytes e)) }

/-- A BULK message arrives: a Sillage record joins Sillage, a mirror entry goes to the mirror. -/
def State.bulkArrive (s : State) (m : BulkMsg) : State :=
  let q := s.brg.bulkSeq
  let s := (s.set BRG_SEQ.BULK_RX q).modBrg (fun b => { b with bulkQ := b.bulkQ.drop 1, bulkSeq := (q + 1) % 2 ^ 16 })
  match m with
  | .event ev => s.admitEvent ev
  | .mirror e => s.mirrorWrite e

/-- The type and the data beats of a BULK message: a record of 64 bytes, a log entry of 32 (R27, R410, R414). -/
def BulkMsg.kind : BulkMsg → Nat
  | .event _ => kindRecord
  | .mirror _ => kindMirror

def BulkMsg.len : BulkMsg → Nat
  | .event _ => 8
  | .mirror _ => 4

/-- The message at the front of BULK, once nothing waits on GUARD or CTRL (R28). -/
def State.bulkDeliver (s : State) (b : Beats) : State :=
  match s.brg.bulkQ with
  | [] => s
  | m :: _ => if s.flows && s.vcFree vcBulk 0 then s.message b vcBulk 0 m.kind m.len 0 (fun s => s.bulkArrive m) else s

def execBulkMessage (beats : Beats) (s : State) : Host.Outcome State Fault Refusal := .next (s.bulkDeliver beats)

/-! ### The timestamp copy (R25) -/

/-- The Top die's copy of the timestamp is corrected: the two agree within 16 ns, the rest of the offset is free. -/
def State.timeLoad (s : State) : State :=
  { s.draw with time := { s.time with topOff := (Config.free s.fresh % 33 : Nat) - 16 } }

def execTimeMessage (s : State) (beats : Beats := {}) : Host.Outcome State Fault Refusal :=
  .next (if s.bridgeUp then s.message beats vcGuard 1 kindTime 1 0 State.timeLoad else s)

/-! ### The cooling supervisor (R355, R402) -/

/-- A changed effective floor copied into its cooling register. -/
def State.floorOne (s : State) (due bit : Nat) (src dst : Fld) : State := if bitOf due bit then s.set dst (s.get src) else s

/-- The cooling supervisor of the firmware, at home on C0, copies the effective floors that have changed into the cooling registers
(R355, R402): at once while C0 runs and the Bridge is UP, otherwise as soon as that holds again. -/
def State.floorCopy (s : State) : State :=
  if s.coreRuns 0 && s.bridgeUp then
    let due := s.ses.floorDue
    let s := { s with ses := { s.ses with floorDue := 0 } }
    let s := (List.range 8).foldl (fun s z => s.floorOne due z (SES_ZFLOOR.FLOOR z) (COOL_ZONE_FLOOR.FLOOR z)) s
    (List.range 6).foldl (fun s p => s.floorOne due (8 + p) (SES_PFLOOR.FLOOR p) (COOL_PMP_FLOOR.FLOOR p)) s
  else s

/-! ### Training (R33) -/

/-- UP again within the hold: what a retrain held goes on. -/
def HoldState.trained : HoldState → HoldState
  | .retraining => .inForce
  | h => h

/-- Training succeeded: UP, the timestamp loaded, every accelerator's Tamp level sent ahead of other GUARD traffic (R25, R33,
R156); outputs that a retrain held go on, a bring-up passes step 4 (R39, R105), and floors that wait for the Bridge are copied (R355). -/
def State.brgTrained (s : State) : State :=
  let s := ((s.setBrg brgUp).bump BRG_EVT_CNT.UP_CNT).timeLoad
  let s := s.modBrg (fun b =>
    { b with levelQ := [s.get TAMP_LVL.LVL], trainFails := 0, trainWait := false,
             hold := b.hold.trained, next := b.next.trained })
  (s.modPwr (fun p => { p with bring := if p.bring = 4 then 5 else p.bring })).floorCopy

/-- A training attempt failed: it repeats after 1 ms, and the third failure in a row ends a bring-up (R33, R106). -/
def State.brgTrainFail (s : State) : State :=
  let n := s.brg.trainFails + 1
  let s := (s.set BRG_STS.TRAIN_FAIL 1).modBrg (fun b => { b with trainFails := n, trainWait := true })
  let s := s.log EVT_BRG_TRAIN ACC_TRAY UNIT_BRG 0 [(0, 1, min 255 n)]
  if s.pwr.bring = 4 ∧ n = 3 then s.bringFail 4 3 else s

def State.trainingDone (s : State) (ok : Bool) : State :=
  if s.brgState = brgTrain ∧ !s.brg.trainWait then (if ok then s.brgTrained else s.brgTrainFail) else s

def execBridgeTrainingDone (ok : Bool) (s : State) : Host.Outcome State Fault Refusal := .next (s.trainingDone ok)

def execTrainRetry (s : State) : Host.Outcome State Fault Refusal :=
  .next (if s.brgState = brgTrain then s.modBrg (fun b => { b with trainWait := false }) else s)

/-! ### QUIESCE, fences and retrains (R33, R37, R41) -/

/-- QUIESCE ends. A commanded Top reset whose release never left the Top die leaves UP here (R39). -/
def State.quiesceEnd (s : State) : State :=
  if s.brgState = brgQuiesce then
    match s.brg.quiesceTo with
    | .topReset => s.topInReset
    | .a2 => s.a2Finish
    | .retrain => s.train
  else if s.bridgeUp && s.pwr.topReset then (s.leaveUp false).topInReset
  else s

def execQuiesceEnd (s : State) : Host.Outcome State Fault Refusal := .next s.quiesceEnd

/-- BRG_CTL.FENCE (R33, R41). -/
def State.fence (s : State) : State :=
  let s := s.set BRG_CTL.FENCE 1
  if s.brgState = brgFenced then s else s.fenceEnter.fenceHandle

def execFence (ini : Initiator) (s : State) : Host.Outcome State Fault Refusal :=
  .next (s.command ini BRG_CTL.FENCE.addr State.fence)

/-- BRG_CTL.RETRAIN from UP; in the other states there is nothing to retrain (R33). -/
def State.retrain (s : State) : State := if s.bridgeUp && !s.pwr.topReset then s.quiesce .retrain else s

def execRetrain (ini : Initiator) (s : State) : Host.Outcome State Fault Refusal :=
  .next (s.command ini BRG_CTL.RETRAIN.addr State.retrain)

def execBrgCntClr (ini : Initiator) (s : State) : Host.Outcome State Fault Refusal :=
  .next (s.command ini BRG_CNT_CLR.CLR.addr (fun s =>
    s.setAll [(BRG_ECC_CNT.CORR, 0), (BRG_ECC_CNT.UNCORR, 0), (BRG_EVT_CNT.UP_CNT, 0), (BRG_EVT_CNT.LOST_CNT, 0)]))

/-! ### The hold (R39) -/

/-- The hold of a later leaving of UP takes the place of one that has passed. -/
def State.holdNext (s : State) : State :=
  if s.brg.next = .inForce then s.modBrg (fun b => { b with hold := .reverting })
  else
    let s := { s with tamp := { s.tamp with ports := s.tamp.ports.map (fun (c : ClampPort) => { c with old := c.oldNext, oldNext := false }) } }
    s.modBrg (fun b => { b with hold := b.next, next := .inForce })

/-- BRG_HOLD.HOLD has passed since the Bridge left UP: the outputs that were in force revert, and a retrain that has not
reached UP again counts as a fence. -/
def State.holdExpiry (s : State) : State :=
  if s.brg.hold = .holding ∨ s.brg.hold = .retraining then
    (s.clampReleaseAll ((List.range 64).filter (fun p => (s.cport p).old))).holdNext
  else s

def execHoldExpiry (s : State) : Host.Outcome State Fault Refusal := .next s.holdExpiry

end Sys2Proof.Machine
end

