-- ==== Sys2Proof/Machine/Reset.lean ====
section
/-! DEFINITION. Cold POR, BOR, BOW and warm reset (R91 to R98, R114 to R119), the exit of A3 (R107), the NVM engine's completions,
and what an IOSC start lets go on (R72, R79). -/

namespace Sys2Proof.Machine

/-! ### Warm reset (R93 to R96, R98) -/

/-- Cause bits of PWRST_RST_CAUSE. -/
def rstCold : Nat := 1
def rstBor : Nat := 2
def rstPin : Nat := 4
def rstCmd : Nat := 8
def rstKpr : Nat := 16
def rstHold : Nat := 32

/-- The cause bits written (R120). -/
def State.rstCauses (s : State) (m : Nat) : State :=
  s.setAll [(PWRST_RST_CAUSE.COLD, bitsOf m 0 1), (PWRST_RST_CAUSE.BOR, bitsOf m 1 1), (PWRST_RST_CAUSE.WARM_PIN, bitsOf m 2 1),
    (PWRST_RST_CAUSE.WARM_CMD, bitsOf m 3 1), (PWRST_RST_CAUSE.KPR_WDT, bitsOf m 4 1), (PWRST_RST_CAUSE.NVM_HOLD, bitsOf m 5 1)]

/-- A source of the reset in progress is recorded as well (R93). -/
def State.rstCauseAdd (s : State) (m : Nat) : State :=
  s.setAll ([(PWRST_RST_CAUSE.WARM_PIN, bitsOf m 2 1), (PWRST_RST_CAUSE.WARM_CMD, bitsOf m 3 1),
    (PWRST_RST_CAUSE.KPR_WDT, bitsOf m 4 1)].filter (fun e => e.2 == 1))

/-- The AO buffer is admitted, HELD set, in arrival order (R428). -/
def State.aoRelease (s : State) : State :=
  let evs := s.sil.ao
  let test := s.on SEQ_CTL.TEST
  { s with sil := evs.foldl (fun x ev => x.admitOne test true ev) { s.sil with ao := [] } }

/-- Test mode ends without a record of its own: a warm reset's records say it (R277, R421). -/
def State.testStop (s : State) : State :=
  if s.on SEQ_CTL.TEST then
    ((s.set SEQ_CTL.TEST 0).marginReturnAll s.seq.rails false).marginStop
  else s

/-- Everything a warm reset loses (R91, R94, R110, R112, R333): Base-die class W and V, the whole Top die, the Keepers. -/
def State.warmLose (s : State) : State :=
  let s := s.twCut.testStop
  let s := ((s.brgToOff.topDieLose [.w, .c, .v]).forget lpddrRange).keeperLose
  let s := ((s.baseLose [.w, .v] monitorFields).consStop).set COOL_HWDT_STS.ARMED 0
  s.modPwr (fun p =>
    { p with bring := 0, retry := false, topReset := false, topWait := 0, trans := none, released := false, wsaveValid := false,
             exitNext := false, toA0 := false, topRst := true, lpHeld := false, sampling := false, kfwHalt := false })

/-- The internal warm reset is asserted (R96, R98). -/
def State.warmStart (s : State) (m : Nat) : State :=
  let test := s.on SEQ_CTL.TEST
  let ioscOn := s.cur = 3 || s.on CLK_STS.IOSC_DEAD
  let s := (s.rstCauses m).bump PWRST_RST_CNT.WARM_CNT
  let s := ({ s with nvm := { s.nvm with compacting := false } }).setIf s.nvm.busy.isNone PWRST_NVM_STS.BUSY 0
  let s := (s.seqHold).modPwr (fun p => { p with warmOn := true, warmWait := 0, warmPin := !p.sysRstN, rom := .none, fwSwitch := 0 })
  let s := (s.warmLose.silWarm test).aoRelease
  let s := ((s.presClose 2).dbgLock 1).modKey (fun k => { k with chal := none, sealJudged := false, req := none })
  if ioscOn then s.modClk (fun c => { c with iosc := true }) else s

/-- A warm-reset source (R93, R96): a running commit delays it; a cold POR or BOR absorbs it. DESIGN CHOICE (log entry 19): the warm reset
that R95 holds behind a cold POR with SYS_RST_N low sets no WARM_PIN and is not counted, since the spec does not say that it does. -/
def State.warmRequest (s : State) (m : Nat) : State :=
  let cold := match s.pwr.rom with
    | .cold _ _ => true
    | _ => false
  if s.pwr.borOn || cold then s
  else if s.pwr.warmOn then (s.rstCauseAdd m).modPwr (fun p => { p with warmPin := p.warmPin || m == rstPin })
  else if s.nvm.busy.isSome then s.modPwr (fun p => { p with warmWait := p.warmWait ||| m })
  else s.warmStart m

/-- A Top-reset request that arrives together with a warm reset merges into it: its source is recorded, where the Top die has power
(R93, R446). -/
def State.topMerged (s : State) (m : Nat) : State :=
  if s.pwr.toppwrEn && s.pwr.bring != 1 && s.pwr.bring != 2 then s.topCauses (s.topCauseBits ||| m) else s

/-- The jumper sampled: it opens the presence window where JMP_EN allows (R378, R379). -/
def State.jumper (s : State) (present : Bool) : State :=
  let s := s.setB PWRST_STRAP.PRES_JMP present
  if present && s.on KEY_PRES_CFG.JMP_EN then s.presOpen 2 else s

/-- Keeper firmware, then the Top die (R97 steps 6 and 7, R98 steps 5 to 7); a halted ROM keeps TOPPWR_EN low (R399). -/
def State.romRun (s : State) (from_ : BringFrom) : State :=
  let s := s.kfwLoad
  if s.pwr.keepersRun then s.bringUp from_ else s.topPowerOff []

/-- The warm reset sequence once BASE runs (R98). -/
def State.warmRom (s : State) : State :=
  ((s.modPwr (fun p => { p with rom := .none })).kprArm.nvmStart).romRun .warmReset

/-- The internal warm reset is released (R98). In A3 the sequence waits for BASE. -/
def State.warmRelease (s : State) (jumper : Bool) : State :=
  let s := ((s.modPwr (fun p => { p with warmOn := false, warmPin := false, sampling := true })).seqUnhold true).jumper jumper
  if s.baseSrc = srcStopped then s.modPwr (fun p => { p with rom := .warm }) else s.warmRom

def execWarmResetRelease (jumper : Bool) (s : State) : Host.Outcome State Fault Refusal :=
  .next (if s.pwr.warmOn && !s.pwr.warmPin then s.warmRelease jumper else s)

def execWarmKey (ini : Initiator) (key : Fin 256) (s : State) : Host.Outcome State Fault Refusal :=
  .next (s.command ini PWRST_CTL.WARM_KEY.addr (fun s => if key.val = 0xA5 then s.warmRequest rstCmd else s))

def execSysRstNFall (s : State) : Host.Outcome State Fault Refusal :=
  .next ((s.modPwr (fun p => { p with sysRstN := false })).warmRequest rstPin)

/-! ### Cold POR and BOR (R95, R97, R117, R119) -/

/-- What power loss leaves: NVM without what was waiting, the flash, OTP, the commands that wait, and the level of SYS_RST_N. A
commit in progress is cut off (R117). -/
def State.powerLost (s : State) : State :=
  let cut := match s.nvm.busy with
    | some j => (s.nvm.seq, j.len) :: s.nvm.cut
    | none => s.nvm.cut
  let r : State := State.reset
  ({ r with nvm := { s.nvm with queue := [], busy := none, compacting := false, cut := cut }, flash := s.flash, otp := s.otp,
            fresh := s.fresh, pending := s.pending,
            pwr := { r.pwr with sysRstN := s.pwr.sysRstN } }).set PWRST_NVM_STS.BANK (s.get PWRST_NVM_STS.BANK)

/-- The capture that an NVM entry holds, the inverse of capBytes (R280). -/
def storedCapture (b : List Byte) : Capture :=
  { rail := leAt b 0 1, cause := leAt b 1 1, group := leAt b 2 1, op := leAt b 3 1 % 16, fb := bitOf (leAt b 3 1) 4,
    ts := leAt b 4 8, en := leAt b 12 8, pg := leAt b 20 8, tEn := leAt b 28 4, ain := leAt b 32 2, later := leAt b 34 1 }

/-- The captures kept, newest first (R280). -/
def State.capsKept (s : State) : List Capture :=
  let n := s.get SEQ_FFR_CNT.CNT
  (List.range (min 16 n)).filterMap (fun i => (s.nvmBlob kindCapture ((n - i) % 16)).map storedCapture)

/-- The active owner-key slot: the highest one with VALID (R369). -/
def activeSlot (valid : Nat) : Nat := (bitList 8 valid).foldl max 0

/-- An entry without a valid commit marker and CRC that the scan meets: ignored, counted and logged (R119). -/
def State.rollback (s : State) (e : Nat × Nat) : State :=
  (s.bump PWRST_NVM_STS.ROLLBACK_CNT).log EVT_NVM_ROLLBACK ACC_TRAY UNIT_PWRST 0 [(0, 1, s.get PWRST_NVM_STS.BANK), (4, 4, e.1)]

/-- The keys that HKDF gives from the PUF response and the OTP seed, salted with the unit identifier (R365). -/
def State.keysDerived (s : State) : List (List Byte) :=
  keyInfos.map (fun i => padTo 32 (Config.hkdf (Config.puf ++ padTo 32 s.otp.seed) s.unitId i))

/-- Step 4 of R97: the journal is scanned, P fields come from OTP and NVM, captures return, the clamp starts at its ceiling, the
boot counter goes up, and the device keys are derived (R119, R242, R280, R365, R367, R430). -/
def State.journalScan (s : State) (puf : Bool) : State :=
  let s := s.nvm.cut.reverse.foldl State.rollback s
  let s := { s with regs := regsOver s.nvm.regs (regsOver s.otp.regs s.regs) }
  let s := s.setAll ((List.range 8).map (fun a => (TAMP_CLAMP.VOFS_LIM a, 4 * s.ceilVofs)))
  let s := (s.modSeq (fun q => { q with caps := s.capsKept })).set KEY_OWNER.ACTIVE (activeSlot (s.get KEY_OWNER.VALID))
  let s := s.commitRegs SIL_BOOT.BOOT.key [(SIL_BOOT.BOOT, min 0xFFFFFFFF (s.get SIL_BOOT.BOOT + 1))] []
  if puf then { s.set KEY_STS.READY 1 with key := { s.key with derived := s.keysDerived } } else (s.set KEY_STS.PUF_FAIL 1).log EVT_KEY_PUF ACC_TRAY UNIT_KEY 0

/-- The cold POR from step 3 on (R95, R97): it waits while SYS_RST_N is low. -/
def State.coldRom (s : State) (puf : Bool) (mis : List Nat) : State :=
  if s.pwr.sysRstN then
    let s := (s.modPwr (fun p => { p with rom := .none, coldHeld := false })).kprArm
    let s := (s.journalScan puf).jumper (s.on PWRST_STRAP.PRES_JMP)
    (s.acdLoad mis).romRun .coldPor
  else s.modPwr (fun p => { p with coldHeld := true })

/-- The key under which the journal keeps a floor. -/
def floorKey (t : Nat) : Nat := (KEY_FLOOR.FLOOR t).key

/-- What a placed journal's entries give: a floor counts only with a valid MAC (R373). -/
def journalValues (j : Journal) : List (Nat × Nat) :=
  (j.regs.filter (fun e => !(List.range 4).any (fun t => floorKey t == e.1))) ++
    (j.floors.filter (·.mac)).map (fun e => (floorKey e.type.val, e.value.toNat))

/-- The entries of a placed journal that the scan ignores: those cut off, and floors that fail their MAC (R119, R373). -/
def journalIgnored (j : Journal) : List (Nat × Nat) := ((j.floors.filter (fun e => !e.mac)).map (fun e => (e.seq, 64))) ++ j.cut

/-- The NVM journal is the copy that was written into the flash from outside (R59, R374). -/
def State.placeJournal (s : State) : Option Journal → State
  | none => s
  | some j =>
    (s.modNvm (fun x => { x with seq := j.seq, bank := j.bank, cut := journalIgnored j, kept := j.kept, regs := journalValues j, blobs := j.blobs })).set
      PWRST_NVM_STS.BANK j.bankNo.val

/-- What was placed from outside is in the flash and in OTP. -/
def State.place (s : State) : Option Placed → State
  | none => s
  | some p => { s with flash := p.flash, otp := { regs := p.otp, digests := p.digests, seed := p.seed } }.placeJournal p.journal

/-- VIN_AO rises above 2.74 V (R97): steps 1 and 2 at once, IOSC is enabled; step 3 follows with it. EVT_RESET is record 0. -/
def State.coldPor (s : State) (b : BootIn) : State :=
  let bor := s.pwr.borOn && !s.pwr.testMode && b.marker
  let s := (s.powerLost.place b.placed).rstCauses (if bor then rstBor else rstCold)
  let s := (s.setAll ((List.range 64).map (fun k => (TAMP_AIN.CODE k, ((b.ain[k]?).map (·.val)).getD 0)))).modSeq (fun q =>
    { q with pgLvl := b.pwrgd.toNat })
  let s := s.setAll [(PWRST_STRAP.THERM_CRIT, b.strap.val), (TAMP_CRIT.THERM_CRIT, b.strap.val), (PWRST_STRAP.PRES_JMP, b2n b.jumper),
    (TAMP_CRIT.PRESENT, 1 + 2 * (15 - b.tdAbsent.val))]
  ((s.modPwr (fun p => { p with rom := .cold b.puf (b.mismatch.map (·.val)) })).vinSample b.vin.val).admitEvent (s.resetEvent 0)

/-- TEST_MODE stands high (R433): the T8 is held in cold POR, none of whose steps runs, until a COLD_POR that finds it low. The same row says
that the input rises while the T8 runs. -/
def State.testHold (s : State) (b : BootIn) : State :=
  (s.powerLost.place b.placed).modPwr (fun p => { p with borOn := true, testMode := true, sampling := false })

def execColdPor (boot : BootIn) (s : State) : Host.Outcome State Fault Refusal :=
  .next (if boot.testMode then s.testHold boot else s.coldPor boot)

/-- VIN_AO falls below 2.70 V (R117): both dies are in reset until the next cold POR. -/
def execBor (s : State) : Host.Outcome State Fault Refusal :=
  .next (s.powerLost.modPwr (fun p => { p with borOn := true, sampling := false }))

/-- SYS_RST_N rises (R95, R98): a cold POR that it held goes on, or the warm reset that it asserted ends. DESIGN CHOICE (log entry 19): the rise
that lets a held cold POR go on samples PRES_JMP no second time, though R95 calls what is held a warm reset. -/
def execSysRstNRise (jumper : Bool) (s : State) : Host.Outcome State Fault Refusal :=
  let s := s.modPwr (fun p => { p with sysRstN := true })
  .next (match s.pwr.rom with
    | .cold puf mis => if s.pwr.coldHeld then s.coldRom puf mis else s
    | _ => if s.pwr.warmOn && s.pwr.warmPin then s.warmRelease jumper else s)

/-! ### The exit of A3 (R107, R428) -/

/-- The exit of A3 once BASE runs: A2, the AO buffer first, the Keepers' reload, then A0 where a wake asks for it. -/
def State.a3Leave (s : State) : State :=
  let to0 := s.pwr.toA0
  let s := (s.modPwr (fun p => { p with rom := .none, sampling := true })).pwrShow 2
  let s := (s.aoRelease.kprArm.nvmStart).kfwLoad
  let s := (List.range 12).foldl State.araWant s
  let s := s.pwrLog 3 2
  if s.pwr.keepersRun && to0 then s.bringUp .a2Exit else s.modPwr (fun p => { p with toA0 := false })

/-- What waited for BASE goes on. -/
def State.romGo (s : State) : State :=
  match s.pwr.rom with
  | .none => s
  | .cold puf mis => s.coldRom puf mis
  | .a3 => s.a3Leave
  | .warm => s.warmRom

/-- IOSC_RDY rises (R71, R79); from A3, BASE starts on IOSC (R107). -/
def execIoscRdyRise (s : State) : Host.Outcome State Fault Refusal :=
  .next (if s.clk.iosc && !s.on CLK_STS.IOSC_RDY && !s.pwr.borOn then
    ((if s.baseSrc = srcStopped then s.baseTo srcIosc else s).ioscRise).romGo
  else s)

/-- IOSC has not started 2 ms after an enable (R72). -/
def execIoscStartTimeout (s : State) : Host.Outcome State Fault Refusal :=
  .next (if s.clk.iosc && !s.on CLK_STS.IOSC_RDY && !s.pwr.borOn then s.ioscDead.romGo else s)

/-! ### Brownout warning (R115, R116) -/

/-- VIN_AO falls below BOW: later commits wait, a compaction is abandoned (R119); a further report lowers the dip's minimum. -/
def State.bow (s : State) (mv : Nat) : State :=
  if s.pwr.borOn then s
  else if s.on PWRST_BO_STS.BOW_NOW then
    (s.vinSample mv).modPwr (fun p => { p with dipMin := min p.dipMin mv })
  else
    let s := (s.setAll [(PWRST_BO_STS.BOW_NOW, 1), (PWRST_BO_STS.NVM_HELD, 1)]).vinSample mv
    let s := s.modNvm (fun x => { x with compacting := false })
    (s.setIf s.nvm.busy.isNone PWRST_NVM_STS.BUSY 0).modPwr (fun p =>
      { p with dipTs := s.now, dipFb := s.fb, dipMin := mv, bowIrq := s.on PWRST_BO_CTL.BOW_IE })

def execBow (mv : Fin 4096) (s : State) : Host.Outcome State Fault Refusal := .next (s.bow mv.val)

/-- VIN_AO rises above 3.04 V: the dip is recorded, then the deferred commits start (R116). -/
def State.bowRecover (s : State) (minMv mv : Nat) : State :=
  if s.on PWRST_BO_STS.BOW_NOW then
    let p := s.pwr
    let lo := min p.dipMin minMv
    let dur := (s.now - p.dipTs) / 1000
    let s := (s.setAll [(PWRST_BO_STS.BOW_NOW, 0), (PWRST_BO_STS.NVM_HELD, 0), (PWRST_BO_STS.BOW_SEEN, 1), (PWRST_VIN.VIN_MV, mv),
      (PWRST_DIP_V.MIN_MV, lo), (PWRST_DIP_DUR.DUR_US, min 0xFFFFFFFF dur), (PWRST_BO_STS.DIP_FB, b2n p.dipFb)]).bump PWRST_DIP_V.DIP_CNT
    let s := (s.set64 PWRST_DIP_TS_LO.TS_LO PWRST_DIP_TS_HI.TS_HI p.dipTs).modPwr (fun p => { p with bowIrq := false })
    let s := s.log EVT_BOW_DIP ACC_TRAY UNIT_PWRST 0 [(0, 2, lo), (4, 4, min 0xFFFFFFFF dur), (8, 8, p.dipTs)]
    let wait := s.nvm.queue.length
    (s.modPwr (fun p => { p with flashWait := if wait = 0 then 0 else wait + b2n s.nvm.busy.isSome })).nvmStart
  else s

/-! ### The NVM engine (R96, R118, R119) -/

/-- The job changes the settings (R59, R61). -/
def NvmJob.isSetting (j : NvmJob) : Bool :=
  j.data.any (fun d => match d with
    | .blob k _ _ => k == kindSetting
    | .blobErase k => k == kindSetting
    | _ => false)

/-- A marker's commit waits or runs. -/
def NvmSt.markerWaits (x : NvmSt) : Bool := x.busy.any (fun j => j.kind == kindMarker) || x.queue.any (fun j => j.kind == kindMarker)

/-- Firmware that an activation has switched takes its reset once the markers stand in NVM: a Top reset with cause KEEPER for the
Control cores', a warm reset with cause WARM_CMD for the Keepers' (R391); the two together merge into the warm reset (R93). -/
def State.switchDone (s : State) : State :=
  if s.pwr.fwSwitch = 0 ∨ s.nvm.markerWaits then s
  else
    let w := s.pwr.fwSwitch
    let s := s.modPwr (fun p => { p with fwSwitch := 0 })
    if bitOf w 1 then (if bitOf w 0 then s.topMerged topKeeper else s).warmRequest rstCmd
    else s.topRequest topKeeper

/-- A commit ends: its content is in NVM, changed settings change the fingerprint; a warm reset that waited starts, else the next
commit does, and what waited for a marker goes on. -/
def State.commitDone (s : State) : State :=
  match s.nvm.busy with
  | none => s
  | some j =>
    let s := (s.nvmFinish.modPwr (fun p => { p with flashWait := p.flashWait - 1 })).set PWRST_NVM_STS.BUSY 0
    let s := (if j.isSetting then s.settingsChanged else s).fpFree
    if s.pwr.warmWait ≠ 0 then s.warmStart (s.pwr.warmWait + rstHold) else s.nvmStart.switchDone

def execNvmCompactionDone (s : State) : Host.Outcome State Fault Refusal := .next s.nvmCompacted

end Sys2Proof.Machine
end

