-- ==== Sys2Proof/Machine/Firmware.lean ====
section
/-! DEFINITION. The Control and Keeper cores as far as they are hardware (R400 to R413): crashes and restarts, watchdogs, the
log ports with their ring and mirror. -/

namespace Sys2Proof.Machine

/-! ### The text range and the log ring (R400, R410, R411) -/

/-- The start of Top SRAM (R18). -/
def topSramBase : Nat := 0x0100000000

/-- The address lies in the locked text range (R400). -/
def State.textLocked (s : State) (a : Nat) : Bool :=
  s.on FW_TEXT_BASE.LOCK && decide (topSramBase + 4096 * s.get FW_TEXT_BASE.BASE ≤ a)
    && decide (a < topSramBase + 4096 * s.get FW_TEXT_LIMIT.LIMIT)

/-- The slots of the log ring for a SIZE code, 0 with the ring off (R412). -/
def logSlots (size : Nat) : Nat := if size = 0 then 0 else 2 ^ (min size 10 + 8)

/-- The words of an entry with its timestamp and SEQ stamped by hardware (R410, R411). -/
def stamped (ts seq : Nat) (rest : List Nat) : List Nat := [ts % 2 ^ 32, ts / 2 ^ 32, seq] ++ rest

/-- A Control-core entry is committed: stamped, stored in the ring in Top SRAM, and with MIRROR, or with the ring off, sent over BULK
(R411, R412). -/
def State.logCommit (s : State) (rest : List Nat) (mirror : Bool) : State :=
  let seq := (s.get FW_LOG_SEQ.SEQ + 1) % 2 ^ 32
  let e := stamped s.topNow seq rest
  let n := logSlots (s.get FW_LOG_SIZE.SIZE)
  let a := topSramBase + 32 * s.get FW_LOG_BASE.BASE + 32 * (seq % n)
  let s := s.set FW_LOG_SEQ.SEQ seq
  let s := if n = 0 || s.textLocked a then s else { s with mem := memStore s.mem a (entryBytes e) }
  if mirror || n = 0 then s.bulkSend (.mirror e) else s

/-- The word of a log port, as last written; port 4 is the Keepers'. -/
def State.portWord (s : State) (p w : Nat) : Nat := (look (8 * p + w) s.fw.ports).getD 0

/-- A word written to a log port, short of the eighth. -/
def State.portPut (s : State) (p w v : Nat) : State :=
  s.modFw (fun f => { f with ports := if v = 0 then drop (8 * p + w) f.ports else put (8 * p + w) v f.ports })

/-- The words of a log port discarded. -/
def State.portClear (s : State) (p : Nat) : State := s.modFw (fun f => { f with ports := f.ports.filter (fun e => e.1 / 8 ≠ p) })

/-- Word 3 as it is stored: FLAGS[0] is the FB flag of the timestamp (R15, R410). -/
def State.fbStamp (s : State) (w3 : Nat) : Nat := setBitOf w3 24 s.fb

/-- Words 3 to 7 of the entry that the eighth word completes. -/
def State.portRest (s : State) (p w7 : Nat) : List Nat :=
  s.fbStamp (s.portWord p 3) :: (List.range 3).map (fun i => s.portWord p (4 + i)) ++ [w7]

/-- Word 3 holds KIND and POINT of a trace point that is not recorded (R410, R411, R412). -/
def State.traceOff (s : State) (w3 : Nat) : Bool :=
  let p := bitsOf w3 16 8
  bitsOf w3 8 8 == 1 && !bitOf (s.get (FW_TRACE_EN.EN (p / 32))) (p % 32)

/-- Word 3 has MIRROR. -/
def mirrorBit (w3 : Nat) : Bool := bitOf w3 25

/-- The eighth word at a Control core's port (R411). -/
def State.logEntry (s : State) (c w7 : Nat) : State :=
  let rest := s.portRest c w7
  let w3 := s.portWord c 3
  let s := s.portClear c
  if s.traceOff w3 then s else s.logCommit rest (mirrorBit w3)

def execLogEntryCommit (ini : Initiator) (c : Fin 4) (word : Word) (s : State) : Host.Outcome State Fault Refusal :=
  .next (s.command ini (FW_LOG_PORT.DATA c.val 7).addr (fun s => if ini = .core c then s.logEntry c.val word.toNat else s))

/-- The eighth word at the Keepers' port: straight to the mirror, with a Keeper SEQ (R411). -/
def State.keeperEntry (s : State) (w7 : Nat) : State :=
  let rest := s.portRest 4 w7
  let w3 := s.portWord 4 3
  let s := s.portClear 4
  if s.traceOff w3 then s
  else
    let seq := (s.fw.kseq + 1) % 2 ^ 32
    (s.modFw (fun f => { f with kseq := seq })).mirrorWrite (stamped s.now seq rest)

def execKeeperLogEntry (ini : Initiator) (word : Word) (s : State) : Host.Outcome State Fault Refusal :=
  .next (s.command ini (KPR_LOG_PORT.DATA 7).addr (fun s => s.keeperEntry word.toNat))

/-! ### Crashes and restarts (R407 to R409) -/

def causePanic : Nat := 1
def causeLockup : Nat := 2
def causeWatchdog : Nat := 3
def causeKeeper : Nat := 4

/-- Bytes stored in Top SRAM by a core: a write that touches the locked text range has no effect (R400). -/
def State.sramStore (s : State) (a : Nat) (bs : List Byte) : State :=
  if s.textLocked a || s.textLocked (a + bs.length - 1) then s else { s with mem := memStore s.mem a bs }

/-- The lock word at an address names a hart: it holds the hart's number plus 1 (R401). -/
def State.lockNames (s : State) (hart a : Nat) : Bool :=
  decide (topSramBase ≤ a ∧ a + 4 ≤ topSramBase + 0x1800000) && leNat (memBytes s.mem a 4) == hart + 1

/-- Every lock whose word names a hart is released: its word is 0 (R401, R409). -/
def State.lockRelease (s : State) (hart : Nat) : State :=
  Config.lockWords.foldl (fun s a => if s.lockNames hart a then s.sramStore a (leBytes 4 0) else s) s

/-- A restart notice of a core waits for another core that runs. -/
def State.lockNotice (s : State) (c : Nat) : Bool :=
  bitOf s.fw.lockDue c && (List.range 4).any (fun k => k != c && s.coreRuns k)

/-- The kernels of the other cores act on the restart notices of crashed cores, as soon as one of them runs (R409). -/
def State.lockTask (s : State) : State :=
  (List.range 4).foldl (fun s c =>
    if s.lockNotice c then (s.lockRelease c).modFw (fun f => { f with lockDue := setBitOf f.lockDue c false }) else s) s

/-- The words of a core's Sillage port are discarded (R419). -/
def State.silPortDrop (s : State) (c : Nat) : State :=
  { s with sil := { s.sil with ports := s.sil.ports.filter (fun e => e.1 / 12 != c) } }

/-- A Control core crashes (R408, R409): the record, RESTARTING, the class C fields lost, the words of its log and Sillage ports
discarded, its interrupt claims completed, its PMP entries off, its locks released by the others on the restart notice, EVT_CORE_CRASH and the crash entry.
A Top reset or a warm reset in progress absorbs the restart, which is then not counted (R93). How the entry packs the three registers is
free (R411). -/
def State.crash (s : State) (c cause : Nat) (r : Csrs) : State :=
  if s.pwr.topReset || s.pwr.topRst || s.pwr.warmOn then s else
  let ts := s.topNow
  let cnt := s.get PWRST_CORE_CNT.CNT
  let s := (s.bump (FW_CRASH_CAUSE.CNT c)).setAll [
    (FW_CRASH_CAUSE.CAUSE c, cause), (FW_CRASH_CAUSE.FB c, b2n s.fb),
    (FW_CRASH_MCAUSE_LO.V c, r.mcause.toNat), (FW_CRASH_MCAUSE_HI.V c, r.mcause.toNat / 2 ^ 32),
    (FW_CRASH_MEPC_LO.V c, r.mepc.toNat), (FW_CRASH_MEPC_HI.V c, r.mepc.toNat / 2 ^ 32),
    (FW_CRASH_MTVAL_LO.V c, r.mtval.toNat), (FW_CRASH_MTVAL_HI.V c, r.mtval.toNat / 2 ^ 32),
    (FW_CRASH_TS_LO.V c, ts), (FW_CRASH_TS_HI.V c, ts / 2 ^ 32),
    (FW_WDT_CFG.EN c, (FW_WDT_CFG.EN c).rst), (FW_WDT_CFG.PERIOD c, (FW_WDT_CFG.PERIOD c).rst),
    (PWRST_CORE_RST.RESTART, setBitOf (s.get PWRST_CORE_RST.RESTART) c true),
    (PWRST_CORE_CNT.CNT, if bitsOf cnt (8 * c) 8 = 255 then cnt else cnt + 2 ^ (8 * c))]
  let s := ((s.setCore c coreRestarting).portClear c).modFw (fun f =>
    { f with a1 := modAt f.a1 c (fun _ => cause), nmi := setBitOf f.nmi c false, crashes := ((c, s.now) :: f.crashes).take 16,
             pmp := modAt f.pmp c (fun _ => List.replicate 16 {}), lockDue := setBitOf f.lockDue c true })
  let s := (s.silPortDrop c).lockTask
  let s := s.modFw (fun f => { f with plic := { f.plic with claims := f.plic.claims.filter (fun e => e.2 != c) } })
  let s := ((s.raise (16 + c)).kraise 20).logTop EVT_CORE_CRASH ACC_TRAY UNIT_CFW c
    [(0, 1, cause), (8, 8, r.mcause.toNat), (16, 8, r.mepc.toNat), (24, 8, r.mtval.toNat)]
  let w3 := c + 256 * 2 + 2 ^ 24 * b2n s.fb + 2 ^ 25
  let args := (List.range 4).map (fun i => Config.free (s.fresh + i) % 2 ^ 32)
  ({ s with fresh := s.fresh + 4 }).logCommit (w3 :: args) true

/-- The core has left reset since the last Top-die bring-up. -/
def State.coreUp (s : State) (c : Nat) : Bool := s.coreSt c != coreReset

/-- A core writes its own bit of FW_PANIC; other bits are ignored (R407). -/
def State.panic (s : State) (ini : Initiator) (mask : Nat) (r : Csrs) : State :=
  match ini with
  | .core c => if bitOf mask c.val && s.coreSt c.val == coreRun then s.crash c.val causePanic r else s
  | _ => s

def execFwPanic (ini : Initiator) (mask : Fin 16) (csrs : Csrs) (s : State) : Host.Outcome State Fault Refusal :=
  .next (s.command ini FW_PANIC.PANIC.addr (fun s => s.panic ini mask.val csrs))

def execTrapLockup (c : Fin 4) (csrs : Csrs) (s : State) : Host.Outcome State Fault Refusal :=
  .next (if s.coreUp c.val then s.crash c.val causeLockup csrs else s)

def execCoreWdtExpiry (c : Fin 4) (csrs : Csrs) (s : State) : Host.Outcome State Fault Refusal :=
  .next (if s.coreUp c.val && s.on (FW_WDT_CFG.EN c.val) then s.crash c.val causeWatchdog csrs else s)

/-- A Keeper restarts the cores of a mask (R120, R407, R409): ignored while the Bridge is not UP, and for a core whose restart
runs. -/
def State.coreRestarts (s : State) (mask : Nat) (csrs : Csrs × List Csrs) : State :=
  (bitList 4 mask).foldl (fun s c =>
    if s.bridgeUp && s.coreUp c && s.coreSt c != coreRestarting then
      s.crash c causeKeeper (getAt csrs.2 c csrs.1)
    else s) s

def execCoreRestartRequest (ini : Initiator) (mask : Fin 16) (r0 r1 r2 r3 : Csrs) (s : State) : Host.Outcome State Fault Refusal :=
  .next (s.command ini PWRST_CORE_RST.RESTART.addr (fun s => s.coreRestarts mask.val (r0, [r0, r1, r2, r3])))

/-! ### The commit service (R402) -/

/-- The bytes of a record of the cap loop: 24 words. -/
def commitLen : Nat := 96

/-- The address of copy 0 or 1 in the commit area: the record, its sequence number, its CRC (DESIGN CHOICE, log entry 38). -/
def commitAddr (i : Nat) : Nat := topSramBase + Config.commitOfs % 0x17FFF00 / 8 * 8 + (commitLen + 8) * i

/-- A copy as it stands in Top SRAM. -/
def State.commitBytes (s : State) (i : Nat) : List Byte := memBytes s.mem (commitAddr i) (commitLen + 8)

/-- The sequence number of a copy. -/
def State.commitSeq (s : State) (i : Nat) : Nat := leAt (s.commitBytes i) commitLen 4

/-- The copy is whole: its CRC-32C over the record and the sequence number holds. -/
def State.commitValid (s : State) (i : Nat) : Bool :=
  leAt (s.commitBytes i) (commitLen + 4) 4 == crc32c ((s.commitBytes i).take (commitLen + 4))

/-- The valid copy with the higher sequence number. -/
def State.commitNewest (s : State) : Option Nat :=
  match s.commitValid 0, s.commitValid 1 with
  | true, true => some (if s.commitSeq 0 < s.commitSeq 1 then 1 else 0)
  | true, false => some 0
  | false, true => some 1
  | false, false => none

/-- A commit writes the older copy, then its sequence number, then its CRC. -/
def State.commit (s : State) (words : List Nat) : State :=
  let i := if s.commitNewest = some 0 then 1 else 0
  let seq := ((s.commitNewest.map s.commitSeq).getD 0 + 1) % 2 ^ 32
  let body := padTo commitLen (words.flatMap (leBytes 4)) ++ leBytes 4 seq
  s.sramStore (commitAddr i) (body ++ leBytes 4 (crc32c body))

/-- The levels that the cap loop commits: what it has set, has sent, and has seen of Tamp's. -/
def CapSt.record (c : CapSt) : List Nat := c.lvl ++ c.sent ++ c.seen

/-- The cap loop resumes from the valid copy with the higher sequence number (R402, R408), and starts anew where there is none. -/
def State.capResume (s : State) : CapSt :=
  match s.commitNewest with
  | none => {}
  | some i =>
    let w := wordsOf 24 (s.commitBytes i)
    { lvl := w.take 8, sent := (w.drop 8).take 8, seen := w.drop 16 }

/-- The crashed core's reset is released: it starts at ENTRY with a1 = cause, its watchdog guards the start (R404, R408). C0's cap loop
resumes from its committed record (R402; log entry 38). -/
def State.coreRelease (s : State) (c : Nat) : State :=
  if s.coreSt c = coreRestarting then
    ((s.setCore c coreRun).set PWRST_CORE_RST.RESTART (setBitOf (s.get PWRST_CORE_RST.RESTART) c false)).modFw (fun f =>
      { f with kick := modAt f.kick c (fun _ => s.topNow), caps := if c = 0 then s.capResume else f.caps })
  else s

/-! ### Watchdogs (R404 to R406) -/

/-- The kick key. -/
def kickKey : Nat := 0x5A

def execFwWdtKick (ini : Initiator) (c : Fin 4) (key : Fin 256) (s : State) : Host.Outcome State Fault Refusal :=
  .next (s.command ini (FW_WDT_KICK.KEY c.val).addr (fun s =>
    if ini = .core c ∧ key.val = kickKey then s.modFw (fun f => { f with kick := modAt f.kick c.val (fun _ => s.topNow) }) else s))

/-- The first kick arms the Top watchdog, each later one restarts it (R405). -/
def State.topKick (s : State) (key : Nat) : State :=
  if key = kickKey then (s.set FW_TOPWDT_STS.ARMED 1).modFw (fun f => { f with topKick := s.topNow }) else s

def execFwTopwdtKick (ini : Initiator) (key : Fin 256) (s : State) : Host.Outcome State Fault Refusal :=
  .next (s.command ini FW_TOPWDT_KICK.KEY.addr (fun s => s.topKick key.val))

/-- The Top watchdog expires (R405). -/
def State.topWdtExpire (s : State) : State :=
  if s.on FW_TOPWDT_STS.ARMED then
    ((((s.set KPR_TOPWDT.SEEN 1).bump KPR_TOPWDT.CNT).set FW_TOPWDT_STS.ARMED 0).kraise 16).topRequest topWdt
  else s

def execTopWdtExpiry (s : State) : Host.Outcome State Fault Refusal := .next s.topWdtExpire

/-- The Keepers that must kick (R406, R413): MASK 0 counts as 1, and a gated K1 counts as kicked. -/
def State.kprMask (s : State) : Nat :=
  let m := if s.get KPR_WDT_CFG.MASK = 0 then 1 else s.get KPR_WDT_CFG.MASK
  if s.gated 9 then m % 2 else m

/-- A Keeper kicks; the count restarts when every masked Keeper has kicked (R406). -/
def State.kprKick (s : State) (ini : Initiator) (key : Nat) : State :=
  match ini with
  | .keeper k =>
    if key = kickKey then
      let m := setBitOf (s.get KPR_WDT_STS.KICKED) k.val true
      if m &&& s.kprMask = s.kprMask then (s.set KPR_WDT_STS.KICKED 0).modPwr (fun p => { p with kprTs := s.now })
      else s.set KPR_WDT_STS.KICKED m
    else s
  | _ => s

def execKprWdtKick (ini : Initiator) (key : Fin 256) (s : State) : Host.Outcome State Fault Refusal :=
  .next (s.command ini KPR_WDT_KICK.KEY.addr (fun s => s.kprKick ini key.val))

def execKeeperWdtExpiry (s : State) : Host.Outcome State Fault Refusal :=
  .next (if s.pwr.kprArmed then s.warmRequest rstKpr else s)

/-- A Keeper that traps in its trap handler halts until the Keeper watchdog ends the halt (R406). -/
def execKeeperTrapHalt (k : Fin 2) (s : State) : Host.Outcome State Fault Refusal :=
  .next (if s.pwr.keepersRun && !s.fw.kprHalt.contains k.val then s.modFw (fun f => { f with kprHalt := k.val :: f.kprHalt }) else s)

/-! ### Keeper start and text lock (R399, R400) -/

def execK1Run (ini : Initiator) (s : State) : Host.Outcome State Fault Refusal :=
  .next (s.command ini KPR_CTL.K1_RUN.addr (fun s => s.set KPR_CTL.K1_RUN 1))

/-- FW_TEXT_BASE.LOCK is honoured from the Keepers only (R412). -/
def execTextLock (ini : Initiator) (s : State) : Host.Outcome State Fault Refusal :=
  .next (s.command ini FW_TEXT_BASE.LOCK.addr (fun s =>
    match ini with
    | .keeper _ => s.set FW_TEXT_BASE.LOCK 1
    | _ => s))

end Sys2Proof.Machine
end

