-- ==== Sys2Proof/Machine/SesBase.lean ====
section
/-! DEFINITION. The session engine's table (R340 to R350, R355, R357): sessions, what the T8 transmits, the resolution of caps and
floors, job states, closing, and the match after a live activation. -/

namespace Sys2Proof.Machine

def State.modSes (s : State) (f : SesSt → SesSt) : State := { s with ses := f s.ses }

/-- What a session holds. -/
def State.sess (s : State) (n : Nat) : Sess := (look n s.ses.sess).getD {}

/-- A state with what a session holds changed. -/
def State.modSess (s : State) (n : Nat) (f : Sess → Sess) : State :=
  s.modSes (fun x => { x with sess := put n (f (s.sess n)) x.sess })

/-- Session states (R364). -/
def sesFree : Nat := 0
def sesHandshake : Nat := 1
def sesOpen : Nat := 2

/-- A session's state; the open sessions. -/
def State.sesState (s : State) (n : Nat) : Nat := s.get (SESS_STS.STATE n)
def State.isOpen (s : State) (n : Nat) : Bool := s.sesState n == sesOpen
def State.openSessions (s : State) : List Nat := (List.range 16).filter s.isOpen
def State.handshakes (s : State) : List Nat := (List.range 16).filter (fun n => s.sesState n == sesHandshake)

/-- The session that a SID names (R351). -/
def State.sidOf (s : State) (sid : Nat) : Option Nat :=
  (List.range 16).find? (fun n => s.sesState n != sesFree && s.get (SESS_SID.SID n) == sid)

/-! ### Transmission (R339 to R342) -/

/-- A NET port is UP and its datapath's clock runs: NET1 is gate domain 5 (R87, R88). -/
def State.netLink (s : State) (port : Nat) : Bool :=
  port < 2 && s.get (NET_STS.STATE port) == netUp && !(port == 1 && s.gated 5)

/-- The codewords that a port's FEC has corrected, and could not, up to a frame (R362). -/
def State.fecCount (s : State) (port : Nat) (f : FecCount) : State :=
  if s.netLink port then (s.bump (NET_FEC.CORR port) f.corrected.toNat).bump (NET_FEC.UNCORR port) f.uncorrectable.toNat else s

/-- F: the payload bytes of one fragment (R341). -/
def State.fragMax (s : State) (p : Peer) : Nat :=
  (if s.on (NET_CFG.JUMBO p.port.val) then 9000 else 1500) - (if p.v6 then 40 else 20) - 8 - 24 - 16

/-- FLAGS of a TMP header (R340). -/
def flagResp : Nat := 1
def flagEnc : Nat := 2

/-- The 24-byte header (R340). -/
def tmpHeader (vmaj vmin type flags sid seq fidx fcnt len : Nat) : List Byte :=
  [0x54, 0x38] ++ leBytes 1 vmaj ++ leBytes 1 vmin ++ leBytes 2 type ++ leBytes 2 flags ++ leBytes 4 sid ++ leBytes 8 seq
    ++ leBytes 1 fidx ++ leBytes 1 fcnt ++ leBytes 2 len

/-- The nonce of a fragment (R342). -/
def tmpNonce (salt : List Byte) (fidx seq : Nat) : List Byte := padTo 3 salt ++ leBytes 1 fidx ++ leBytes 8 seq

/-- How many fragments a payload takes: at least one. -/
def fragCount (len f : Nat) : Nat := max 1 ((len + f - 1) / f)

/-- The datagrams of a message, sealed where FLAGS has ENC (R340 to R342). -/
def State.datagrams (s : State) (p : Peer) (key salt : List Byte) (type flags sid seq : Nat) (payload : List Byte) : List (List Byte) :=
  let f := s.fragMax p
  let cnt := fragCount payload.length f
  (List.range cnt).map (fun i =>
    let part := slice payload (f * i) f
    let enc := flags / 2 % 2 == 1
    let h := tmpHeader (s.get SES_VER.MAJ) (s.get SES_VER.MIN) type flags sid seq i cnt (part.length + (if enc then 16 else 0))
    h ++ (if enc then Config.gcmSeal key (tmpNonce salt i seq) h part else part))

/-- The 802.1Q tag of a NET port's frames (R337, R362). -/
def State.netTag (s : State) (port : Nat) : Option (BitVec 12) :=
  if decide (port < 2) && s.on (NET_CFG.VLAN port) then some (BitVec.ofNat 12 (s.get (NET_CFG.VID port))) else none

/-- What the datagrams to a peer carry (R337, R339). -/
def State.ipHead (s : State) (p : Peer) : IpHead := { src := 7421, df := !p.v6, ttl := 64, vid := s.netTag p.port.val }

/-- A message leaves by the port of its peer; a port that is not UP sends nothing (R338, R358). -/
def State.sendTmp (s : State) (p : Peer) (key salt : List Byte) (type flags sid seq : Nat) (payload : List Byte) : State :=
  if s.netLink p.port.val then
    s.emit (.tmp p (s.ipHead p) type flags sid seq payload (s.datagrams p key salt type flags sid seq payload))
  else s

/-- A session's next message: numbered, sealed, sent (R342, R354). -/
def State.sesSend (s : State) (n : Nat) (p : Peer) (type flags : Nat) (payload : List Byte) : State :=
  if s.netLink p.port.val then
    let q := (s.get64 (SESS_TSEQ_LO.V n) (SESS_TSEQ_HI.V n) + 1) % 2 ^ 64
    let x := s.sess n
    (s.set64 (SESS_TSEQ_LO.V n) (SESS_TSEQ_HI.V n) q).sendTmp p x.txKey x.txSalt type (flags + flagEnc) (s.get (SESS_SID.SID n)) q payload
  else s

/-- STATUS codes (R353). -/
def stOk : Nat := 0x00
def stClass : Nat := 0x01
def stScope : Nat := 0x02
def stPresence : Nat := 0x03
def stVersion : Nat := 0x04
def stBusy : Nat := 0x05
def stBadMsg : Nat := 0x06
def stRefused : Nat := 0x07
def stUnknown : Nat := 0x08
def stNokey : Nat := 0x09
def stBadsig : Nat := 0x0A
def stUnitLost : Nat := 0x0B

/-- The head of a reply payload (R353). -/
def replyHead (status detail seq : Nat) : List Byte := leBytes 2 status ++ leBytes 2 detail ++ leBytes 8 seq

/-- A reply (R353, R354). -/
def State.reply (s : State) (n : Nat) (p : Peer) (type seq status detail : Nat) (body : List Byte) : State :=
  s.sesSend n p type flagResp (replyHead status detail seq ++ body)

/-! ### Resolution (R355) -/

/-- The lowest cap set for a target, with the lowest session that set it; (0, 0) with none. -/
def State.capOf (s : State) (t : Nat) : Nat × Nat :=
  s.openSessions.foldl (fun e n =>
    let c := (s.sess n).caps.getD t 0
    if c ≠ 0 ∧ (e.1 = 0 ∨ c < e.1) then (c, n) else e) (0, 0)

/-- The highest floor of a zone (pump false) or a pump, with the lowest session that set it. -/
def State.floorOf (s : State) (pump : Bool) (i : Nat) : Nat × Nat :=
  s.openSessions.foldl (fun e n =>
    let f := (if pump then (s.sess n).pf else (s.sess n).zf).getD i 0
    if e.1 < f then (f, n) else e) (0, 0)

/-- One effective floor resolved; a change raises SES_IRQ.FLOOR and is to be copied. -/
def State.floorResolve (s : State) (val src on : Fld) (bit : Nat) (e : Nat × Nat) : State :=
  let same := s.get val == e.1
  let s := s.setAll [(val, e.1), (src, e.2), (on, b2n (e.1 != 0))]
  if same then s else (s.set SES_IRQ_STS.FLOOR 1).modSes (fun x => { x with floorDue := setBitOf x.floorDue bit true })

/-- Caps and floors of all sessions resolved into the effective values. -/
def State.resolve (s : State) : State :=
  let s := (List.range 9).foldl (fun s t =>
    let e := s.capOf t
    s.setAll [(SES_CAP.CAP t, e.1), (SES_CAP.SRC t, e.2), (SES_CAP.SET t, b2n (e.1 != 0))]) s
  let s := (List.range 8).foldl (fun s z =>
    s.floorResolve (SES_ZFLOOR.FLOOR z) (SES_ZFLOOR.SRC z) (SES_ZFLOOR.SET z) z (s.floorOf false z)) s
  let s := (List.range 6).foldl (fun s p =>
    s.floorResolve (SES_PFLOOR.FLOOR p) (SES_PFLOOR.SRC p) (SES_PFLOOR.SET p) (8 + p) (s.floorOf true p)) s
  s.floorCopy

/-! ### Job states (R357) -/

def jobNone : Nat := 0
def jobRunning : Nat := 1
def jobBoundary : Nat := 2

/-- SES_JOB and the job boundary condition follow the sessions' job states. -/
def State.jobsSync (s : State) : State :=
  let st (j : Nat) : Nat := maskOf 16 (fun n => s.isOpen n && s.get (SESS_STS.JOB n) == j)
  let bnd := b2n (st jobRunning == 0)
  let rose := s.get SES_STS.BND == 0 && bnd == 1
  (s.setAll [(SES_JOB.RUNNING, st jobRunning), (SES_JOB.BOUNDARY, st jobBoundary), (SES_STS.BND, bnd)]).setIf rose SES_IRQ_STS.BND_RISE 1

/-- A session's job state set. -/
def State.jobSet (s : State) (n j : Nat) : State := (s.set (SESS_STS.JOB n) j).jobsSync

/-! ### Opening and closing (R345, R347, R364) -/

/-- The fields of a session's entry. -/
def sesFields (n : Nat) : List Fld :=
  [SESS_STS.STATE n, SESS_STS.CLASSES n, SESS_STS.MISMATCH n, SESS_STS.PORT n, SESS_STS.IPV6 n, SESS_STS.SCOPE n, SESS_STS.JOB n,
   SESS_STS.EVENTS n, SESS_STS.RECORDER n, SESS_SID.SID n, SESS_MASK.ACC_MASK n, SESS_MASK.ZONE_MASK n, SESS_MASK.PUMP_MASK n,
   SESS_VER.VMAJ n, SESS_VER.VMIN n, SESS_RSEQ_LO.V n, SESS_RSEQ_HI.V n, SESS_TSEQ_LO.V n, SESS_TSEQ_HI.V n, SESS_OPEN_TS_LO.V n,
   SESS_OPEN_TS_HI.V n]

/-- SES_STS.OPEN and HS follow the table. -/
def State.sesSync (s : State) : State :=
  s.setAll [(SES_STS.OPEN, maskOf 16 s.isOpen), (SES_STS.HS, s.handshakes.length)]

/-- A session's entry becomes FREE: keys erased, fields 0. -/
def State.sesErase (s : State) (n : Nat) : State :=
  let sid := s.get (SESS_SID.SID n)
  let s := s.modSes (fun x => { x with sess := drop n x.sess, parts := x.parts.filter (fun p => p.sid != sid) })
  (s.setAll ((sesFields n).map (fun f => (f, 0)))).sesSync

/-- A session closes (R347): caps, floors, hints, job state, subscriptions and its waiting statements go. -/
def State.sesClose (s : State) (n cause : Nat) : State :=
  if s.isOpen n then
    let sid := s.get (SESS_SID.SID n)
    let s := ((s.hintClose n).sesErase n).modAcd (fun a => { a with stmts := a.stmts.filter (fun e => e.1 != n) })
    let s := s.resolve.jobsSync.set SES_IRQ_STS.CLOSED 1
    s.logTop EVT_SES_CLOSE ACC_TRAY UNIT_SES n [(0, 4, sid), (4, 1, cause)]
  else s

/-- Causes of EVT_SES_CLOSE (R445). -/
def closeOwn : Nat := 0
def closeIdle : Nat := 1
def closeAll : Nat := 2
def closeScope : Nat := 3

/-- A handshake ends without a session (R345). -/
def State.hsAbandon (s : State) (n : Nat) : State := (s.sesErase n).bump SES_ERR2.HS_FAIL

/-! ### Scopes (R345, R348, R350) -/

/-- The key digest of a scope entry. -/
def scopeKey (e : List Byte) : List Byte := slice e 16 48

/-- The index of the scope entry with a key digest. -/
def State.scopeIdx (s : State) (dg : List Byte) : Option Nat := s.acd.scopes.findIdx? (fun e => scopeKey e == dg)

/-- A scope entry by index. -/
def State.scopeAt (s : State) (i : Nat) : List Byte := s.acd.scopes.getD i []

/-- A session takes an entry's masks, IDLE_TO and SUBS. -/
def State.scopeTake (s : State) (n i : Nat) : State :=
  let e := s.scopeAt i
  (s.setAll [(SESS_STS.SCOPE n, i), (SESS_MASK.ACC_MASK n, leAt e 0 1), (SESS_MASK.ZONE_MASK n, leAt e 1 1),
    (SESS_MASK.PUMP_MASK n, leAt e 2 1)]).modSess n (fun x => { x with idleTo := leAt e 4 2, subs := leAt e 6 1 })

/-- A session's scope covers the tray (R348). -/
def State.coversTray (s : State) (n : Nat) : Bool :=
  let all := 2 ^ s.get ACD_INFO.ACC_COUNT - 1
  s.get (SESS_MASK.ACC_MASK n) &&& all == all

/-- A session's scope holds an accelerator; number 8 stands for the tray. -/
def State.scopeAcc (s : State) (n a : Nat) : Bool :=
  if a = 8 then s.coversTray n else decide (a < 8) && bitOf (s.get (SESS_MASK.ACC_MASK n)) a

/-- Values of a list kept where p holds of their index, others 0. -/
def keepAt (p : Nat → Bool) (l : List Nat) : List Nat := (List.range l.length).map (fun i => if p i then l.getD i 0 else 0)

/-- Caps, floors, hints and subscriptions outside the new masks are withdrawn or dropped (R350). -/
def State.scopeTrim (s : State) (n : Nat) : State :=
  let s := s.modSess n (fun x =>
    { x with caps := keepAt (s.scopeAcc n) x.caps
             zf := keepAt (fun z => bitOf (s.get (SESS_MASK.ZONE_MASK n)) z) x.zf
             pf := keepAt (fun p => bitOf (s.get (SESS_MASK.PUMP_MASK n)) p) x.pf })
  let s := s.hintForget (fun h => h.session == n && !s.scopeAcc n h.acc)
  let subs := (s.sess n).subs
  (s.setIf (!bitOf subs 0) (SESS_STS.EVENTS n) 0).setIf (!bitOf subs 1) (SESS_STS.RECORDER n) 0

/-- One open session matched again after a live activation (R350). -/
def State.rematchOne (s : State) (n : Nat) : State :=
  match s.scopeIdx (s.sess n).keyDg with
  | none => s.sesClose n closeScope
  | some i =>
    let cls := s.get (SESS_STS.CLASSES n) &&& leAt (s.scopeAt i) 3 1
    if cls = 0 then s.sesClose n closeScope
    else ((s.scopeTake n i).set (SESS_STS.CLASSES n) cls).scopeTrim n

/-- Every open session matched again (R350). -/
def State.rematch (s : State) : State := (s.openSessions.foldl State.rematchOne s).resolve

end Sys2Proof.Machine
end

