-- ==== Sys2Proof/Machine/KeyStore.lean ====
section
/-! DEFINITION. The key store (R365 to R380, R394): device signatures, owner keys and their changes, debug lock and unlock, physical
presence, and its request interface. -/

namespace Sys2Proof.Machine

/-! ### Physical presence (R378, R379) -/

/-- A recognised press (R379). -/
def State.btnPress (s : State) : State :=
  if !s.on KEY_PRES_CFG.MODE then s.presOpen 1 else if s.on KEY_PRES.SEAL_OK then s.presOpen 3 else s

def execPresBtnPress (s : State) : Host.Outcome State Fault Refusal := .next s.btnPress

def execPresenceWindowEnd (s : State) : Host.Outcome State Fault Refusal := .next (s.presClose 0)

def execPresClose (ini : Initiator) (s : State) : Host.Outcome State Fault Refusal :=
  .next (s.command ini KEY_PRES.CLOSE.addr (fun s => s.presClose 1))

/-- 16 bits in a row return (R378). -/
def State.sealGood (s : State) : State := (s.set KEY_PRES.SEAL_OK 1).modKey (fun k => { k with sealJudged := true })

def execSealLoopContinuous (s : State) : Host.Outcome State Fault Refusal := .next s.sealGood

/-- A seal break (R379); with MODE = 1 it closes the window. -/
def State.sealBroken (s : State) (first : Bool) : State :=
  let mode := s.get KEY_PRES_CFG.MODE
  let s := (s.setAll [(KEY_PRES.SEAL_OK, 0), (KEY_PRES.SEAL_BROKEN, 1)]).log EVT_SEAL_BROKEN ACC_TRAY UNIT_KEY 0
    [(0, 1, mode), (1, 1, b2n first)]
  if mode = 1 then s.presClose 3 else s

/-- 4 bits in a row mismatch (R378, R379): a break from continuous, or with MODE = 1 at the first judgement. -/
def State.sealBad (s : State) : State :=
  let first := !s.key.sealJudged
  let ok := s.on KEY_PRES.SEAL_OK
  let s := s.modKey (fun k => { k with sealJudged := true })
  if ok then s.sealBroken false else if first && s.on KEY_PRES_CFG.MODE then s.sealBroken true else s

def execSealBreak (s : State) : Host.Outcome State Fault Refusal := .next s.sealBad

/-! ### Owner keys (R369 to R372) -/

/-- A signature pair by the active slot's keys over a message verifies (R370, R372, R376). -/
def State.ownerVerifies (s : State) (msg sig : List Byte) : Bool :=
  let k := Config.ownerKeys (s.otpDigest (s.get KEY_OWNER.ACTIVE))
  bothVerify k.1 k.2 msg sig

/-- ASCII "T8KEY1" and "T8DBG1". -/
def keyTag : List Byte := [0x54, 0x38, 0x4B, 0x45, 0x59, 0x31]
def dbgTag : List Byte := [0x54, 0x38, 0x44, 0x42, 0x47, 0x31]

/-- The lowest empty slot (R369). -/
def State.emptyKeySlot (s : State) : Option Nat := (List.range 8).find? (fun k => !bitOf (s.get KEY_OWNER.VALID) k)

/-- The digest of a pair of owner public keys (R369). -/
def keyDigest (ed ml : List Byte) : List Byte := sha (ed ++ ml)

/-- The fields of an ADD body (R372). -/
def addUnit (b : List Byte) : List Byte := slice b 0 16
def addEd (b : List Byte) : List Byte := slice b 16 32
def addMl (b : List Byte) : List Byte := slice b 48 1952
def addMsg (b : List Byte) : List Byte := keyTag ++ addUnit b ++ keyDigest (addEd b) (addMl b)

/-- DETAIL of an ADD, 0 when it is accepted (R372). `otpOk` says whether the OTP write verifies. -/
def State.addDetail (s : State) (b : List Byte) (otpOk : Bool) : Nat :=
  if s.emptyKeySlot.isNone then 1
  else if (addUnit b != s.unitId && !zeroAt b 0 16) || !s.ownerVerifies (addMsg b) (slice b 2000 3373) then 2
  else if !bothVerify (addEd b) (addMl b) (addMsg b) (slice b 5373 3373) then 3
  else if !otpOk then 6
  else 0

/-- An OTP field of the owner keys programmed. -/
def State.otpSet (s : State) (f : Fld) (v : Nat) : State :=
  { (s.set f v) with otp := { s.otp with regs := put f.key v s.otp.regs } }

/-- A slot is written: the digest first, VALID last; it becomes the active slot (R369, R372). -/
def State.keyWrite (s : State) (k : Nat) (dg : List Byte) : State :=
  let s := { s with otp := { s.otp with digests := put k dg s.otp.digests } }
  let s := s.otpSet KEY_OWNER.VALID (setBitOf (s.get KEY_OWNER.VALID) k true)
  s.set KEY_OWNER.ACTIVE (activeSlot (s.get KEY_OWNER.VALID))

/-- EVT_KEY_CHANGE (R445). -/
def State.keyLog (s : State) (op detail slot session : Nat) : State :=
  s.log EVT_KEY_CHANGE ACC_TRAY UNIT_KEY 0 [(0, 1, op), (1, 1, detail), (2, 1, slot), (3, 1, session)]

/-- ADD (R372): its DETAIL, and the state after it. -/
def State.keyAdd (s : State) (b : List Byte) (otpOk : Bool) (session : Nat) : Nat × State :=
  match s.addDetail b otpOk with
  | 0 =>
    let k := s.emptyKeySlot.getD 0
    (0, (s.keyWrite k (keyDigest (addEd b) (addMl b))).keyLog 1 0 k session)
  | d => (d, s.keyLog 1 d 0 session)

/-- The flash place that holds the image with a digest, of two. -/
def State.placeOf (s : State) (a b : Nat) (dg : List Byte) : Nat := if imgDigest (s.image b) = dg then b else a

/-- KEY_SLOT of the images that a RETIRE must not strand (R372): the running Accord, both running firmware images, loaded programs,
staged images, a pending Accord. -/
def State.namedSlots (s : State) : List Nat :=
  let at_ (k : Nat) : List Nat := ((look k s.flash).map imgSlot).toList
  let other := 1 - s.get ACD_STS.SLOT
  (if s.acd.table.isEmpty then [] else [imgSlot s.acd.table])
    ++ (if s.acd.kfw.isEmpty then [] else at_ (s.placeOf 2 3 s.acd.kfw))
    ++ (if s.acd.cfw.isEmpty then [] else at_ (s.placeOf 4 5 s.acd.cfw))
    ++ (List.range 16).flatMap (fun n => if s.slotSt n = slotEmpty then [] else at_ (16 + n))
    ++ (bitList 16 (s.get KEY_STAGED.PROG)).flatMap (fun n => at_ (32 + n))
    ++ (if s.on KEY_STAGED.CFW then at_ (4 + 5 - s.placeOf 4 5 s.acd.cfw) else [])
    ++ (if s.on KEY_STAGED.KFW then at_ (2 + 3 - s.placeOf 2 3 s.acd.kfw) else [])
    ++ (if s.on KEY_STAGED.ACD || s.on ACD_STS.PENDING then at_ other else [])

/-- The usable slots below the active one. -/
def State.olderSlots (s : State) : List Nat := (List.range (s.get KEY_OWNER.ACTIVE)).filter s.slotUsable

/-- DETAIL of a RETIRE, 0 when it is accepted (R372). -/
def State.retireDetail (s : State) : Nat :=
  if s.namedSlots.any (fun k => decide (k < s.get KEY_OWNER.ACTIVE)) then 4 else if s.olderSlots.isEmpty then 5 else 0

/-- RETIRE (R372): its DETAIL, and the state after it. -/
def State.keyRetire (s : State) (session : Nat) : Nat × State :=
  match s.retireDetail with
  | 0 =>
    let l := s.olderSlots
    let r := l.foldl (fun m k => setBitOf m k true) (s.get KEY_OWNER.RETIRED)
    (0, (s.otpSet KEY_OWNER.RETIRED r).keyLog 2 0 (l.foldl max 0) session)
  | d => (d, s.keyLog 2 d 0 session)

/-! ### Debug unlock (R376, R377) -/

/-- SCOPE and DURATION are within bounds (R376). -/
def dbgArgsOk (scope dur : Nat) : Bool := scope < 8 && 1 ≤ dur && dur ≤ 240

/-- A fresh challenge; only the latest counts (R376). Its bytes are free. -/
def State.dbgChallenge (s : State) (scope dur : Nat) : List Byte × State :=
  let c := leBytes 32 (Config.free s.fresh)
  (c, s.draw.modKey (fun k => { k with chal := some { ts := s.now, scope := scope, dur := dur, bytes := c } }))

/-- The message that an unlock signs (R376). -/
def State.dbgMsg (s : State) (c : List Byte) (scope dur : Nat) : List Byte :=
  dbgTag ++ s.unitId ++ c ++ leBytes 1 scope ++ leBytes 2 dur

/-- A challenge in force: issued within the last 60 s (R376). -/
def State.chalValid (s : State) : Option DbgChal := s.key.chal.filter (fun c => s.now - c.ts ≤ 60000000000)

/-- DETAIL of a RESPONSE, 0 when it opens the port (R376). -/
def State.dbgDetail (s : State) (scope dur : Nat) (sig : List Byte) : Nat :=
  match s.chalValid with
  | none => 1
  | some c =>
    if !s.ownerVerifies (s.dbgMsg c.bytes scope dur) sig then 2 else if c.scope ≠ scope ∨ c.dur ≠ dur then 3 else 0

/-- A RESPONSE (R376, R377): its DETAIL, and the state after it. It uses the challenge up. -/
def State.dbgResponse (s : State) (scope dur : Nat) (sig : List Byte) (session : Nat) : Nat × State :=
  let d := s.dbgDetail scope dur sig
  let s := s.modKey (fun k => { k with chal := none })
  if d = 0 then
    let s := (s.setAll [(KEY_STS.DBG_OPEN, 1), (KEY_DBG.SCOPE, scope)]).modKey (fun k => { k with dbgEnd := s.now + dur * 60000000000 })
    (0, s.log EVT_DBG_UNLOCK ACC_TRAY UNIT_KEY 0 [(0, 1, scope), (1, 1, session), (2, 2, dur)])
  else (d, s.log EVT_DBG_REFUSED ACC_TRAY UNIT_KEY 0 [(0, 1, d), (1, 1, session)])

/-- DURATION ends (R377). -/
def execDebugLock (s : State) : Host.Outcome State Fault Refusal := .next (s.dbgLock 0)

/-! ### The request interface (R394) -/

/-- The first n bytes of KEY_REQ_BUF. -/
def State.reqBytes (s : State) (n : Nat) : List Byte :=
  ((List.range ((n + 3) / 4)).flatMap (fun w => leBytes 4 (s.get (KEY_REQ_BUF.DATA w)))).take n

/-- Bytes stored at the start of KEY_REQ_BUF; a last word that they fill in part keeps its other bytes. -/
def State.reqStore (s : State) (bs : List Byte) : State :=
  (List.range ((bs.length + 3) / 4)).foldl (fun s w =>
    let part := slice bs (4 * w) 4
    s.set (KEY_REQ_BUF.DATA w) (leNat (part ++ (leBytes 4 (s.get (KEY_REQ_BUF.DATA w))).drop part.length))) s

/-- RESULT codes (R394). -/
def reqDone : Nat := 0
def reqNotReady : Nat := 1
def reqDebug : Nat := 2
def reqSignature : Nat := 3
def reqRefused : Nat := 4
def reqIllegal : Nat := 5

/-- RESULT and output of a request that a DETAIL decides; DETAIL stands in bytes 0 and 1 of the buffer. -/
def reqOf (detail : Nat) (sigDetails : List Nat) : Nat × List Byte :=
  if detail = 0 then (reqDone, []) else if sigDetails.contains detail then (reqSignature, leBytes 2 detail) else (reqRefused, leBytes 2 detail)

/-- Why the key store signs nothing: keys not ready, debug unlocked; 0 when it signs (R367, R377). -/
def State.signRefusal (s : State) : Nat :=
  if !s.on KEY_STS.READY then reqNotReady else if s.on KEY_STS.DBG_OPEN then reqDebug else reqDone

/-- A request by OP: RESULT, output, and the state after its effect (R394). The session of an event is free: the interface names
none. -/
def State.reqRun (s : State) (op : Nat) (otpOk : Bool) : (Nat × List Byte) × State :=
  let ses := Config.free s.fresh
  match op with
  | 1 =>
    if s.signRefusal ≠ 0 then ((s.signRefusal, []), s)
    else
      let p := s.fpStatement (s.reqBytes 32)
      ((reqDone, p.1), p.2)
  | 2 => (if s.on KEY_STS.READY then (reqDone, padTo 1984 s.devicePub) else (reqNotReady, []), s)
  | 3 =>
    let b := s.reqBytes 3
    if dbgArgsOk (leAt b 0 1) (leAt b 1 2) then
      let p := s.dbgChallenge (leAt b 0 1) (leAt b 1 2)
      ((reqDone, p.1 ++ s.unitId), p.2)
    else ((reqRefused, leBytes 2 3), s)
  | 4 =>
    let b := s.reqBytes 3376
    let p := s.draw.dbgResponse (leAt b 0 1) (leAt b 1 2) (slice b 3 3373) ses
    (reqOf p.1 [2], p.2)
  | 5 =>
    let p := s.draw.keyAdd (s.reqBytes 8746) otpOk ses
    (reqOf p.1 [2, 3], p.2)
  | 6 =>
    let p := s.draw.keyRetire ses
    (reqOf p.1 [], p.2)
  | _ => ((reqIllegal, []), s)

/-- GO with an OP (R394): ignored while a request runs; the effect comes with the request, the result when it completes. -/
def State.keyReq (s : State) (op : Nat) (otpOk : Bool) : State :=
  let s := s.set KEY_REQ_CMD.OP op
  if s.on KEY_REQ_STS.BUSY then s
  else
    let p := s.reqRun op otpOk
    (p.2.set KEY_REQ_STS.BUSY 1).modKey (fun k => { k with req := some p.1 })

def execKeyFpStatement (ini : Initiator) (s : State) : Host.Outcome State Fault Refusal :=
  .next (s.command ini KEY_REQ_CMD.GO.addr (fun s => s.keyReq 1 true))

def execGetPub (ini : Initiator) (s : State) : Host.Outcome State Fault Refusal :=
  .next (s.command ini KEY_REQ_CMD.GO.addr (fun s => s.keyReq 2 true))

def execDbgChallenge (ini : Initiator) (s : State) : Host.Outcome State Fault Refusal :=
  .next (s.command ini KEY_REQ_CMD.GO.addr (fun s => s.keyReq 3 true))

def execDbgResponse (ini : Initiator) (s : State) : Host.Outcome State Fault Refusal :=
  .next (s.command ini KEY_REQ_CMD.GO.addr (fun s => s.keyReq 4 true))

def execKeyAdd (ini : Initiator) (otpOk : Bool) (s : State) : Host.Outcome State Fault Refusal :=
  .next (s.command ini KEY_REQ_CMD.GO.addr (fun s => s.keyReq 5 otpOk))

def execKeyRetire (ini : Initiator) (s : State) : Host.Outcome State Fault Refusal :=
  .next (s.command ini KEY_REQ_CMD.GO.addr (fun s => s.keyReq 6 true))

/-- The TYPE of FP_STATEMENT (R352). -/
def tyFpStatement : Nat := 0x0102

/-- Where a reply to a message of a session goes: the source of that message, or the session's last one (R339). -/
def State.replyPeer (s : State) (n seq : Nat) : Peer := (look seq (s.sess n).asked).getD (s.sess n).peer

/-- The oldest fingerprint statement that a session waits for is signed and sent (R65, R377). -/
def State.stmtServe (s : State) : State :=
  match s.acd.stmts with
  | [] => s
  | (n, seq, nonce) :: t =>
    let s := s.modAcd (fun a => { a with stmts := t })
    let p := s.replyPeer n seq
    let s := s.modSess n (fun x => { x with asked := drop seq x.asked })
    if s.on KEY_STS.DBG_OPEN then s.reply n p tyFpStatement seq stRefused 1 []
    else
      let st := s.fpStatement nonce
      st.2.reply n p tyFpStatement seq stOk 0 st.1

/-- The request that runs completes: one of the interface with its result, else a session's statement (R65, R394). While the port of
the hash and signature engines is shut it goes on running (R87; log entry 49). -/
def State.reqComplete (s : State) : State :=
  if s.portShut 7 then s else
  match s.key.req with
  | some (r, out) =>
    ((s.reqStore out).setAll [(KEY_REQ_STS.RESULT, r), (KEY_REQ_STS.BUSY, 0)]).modKey (fun k => { k with req := none })
  | none => s.sendBegin.stmtServe

def execKeyRequestDone (s : State) : Host.Outcome State Fault Refusal := .next s.reqComplete

end Sys2Proof.Machine
end

