-- ==== Sys2Proof/Machine/Security.lean ====
section
/-! DEFINITION. The security block (R142, R181, R381 to R392, R395): image delivery over SVC, staging, activation, program loads. -/

namespace Sys2Proof.Machine

def State.modSec (s : State) (f : SecSt → SecSt) : State := { s with sec := f s.sec }

/-! ### SVC datagrams (R382) -/

/-- The Top die is powered and out of reset. -/
def State.topLive (s : State) : Bool := s.pwr.toppwrEn && !s.pwr.topRst

/-- SVC runs while the Top die does (R381) and its MAC's clock, gate domain 6 (R87, R88). -/
def State.svcRuns (s : State) : Bool := s.topLive && !s.gated 6

/-- A reply to a sender: bit 7 of OP set (R382). -/
def State.svcReply (s : State) (p : Peer) (op xfer offset : Nat) (payload : List Byte) : State :=
  s.emit (.svc p ([0x53, 0x56] ++ leBytes 1 (op + 0x80) ++ leBytes 1 0 ++ leBytes 4 xfer ++ leBytes 4 offset
    ++ leBytes 2 payload.length ++ leBytes 2 0 ++ payload))

/-- SEC_XFER.STATE codes (R395). -/
def xferIdle : Nat := 0
def xferReceiving : Nat := 1
def xferHeld : Nat := 3
def xferWriting : Nat := 4

/-- Codes of R386 beyond the checks. -/
def imgTransfer : Nat := 0xC
def imgBusy : Nat := 0xD
def imgSpace : Nat := 0xE
def imgFlash : Nat := 0xF

/-- A refusal (R386): counted, logged with what is known of the header, shown as the last result where it ends a transfer. -/
def State.imgRefuse (s : State) (code : Nat) (head : List Byte) (last : Bool) : State :=
  let s := if last then s.setAll [(SEC_XFER.LAST_CODE, code), (SEC_XFER.LAST_TYPE, imgType head)] else s
  (s.bump SEC_CNT.REFUSED).logTop EVT_IMG_REFUSED ACC_TRAY UNIT_SEC 0
    [(0, 1, code), (2, 2, imgType head), (4, 4, imgArb head), (8, 32, leAt (imgName head) 0 32)]

/-- The staging buffer (R395). -/
def State.stgBase (s : State) : Nat := s.get SEC_STG_BASE.BASE * 4096
def State.stgSize (s : State) : Nat := s.get SEC_STG_SIZE.MIB * 2 ^ 20

/-- The transfer's state set. -/
def State.setXfer (s : State) (st : Nat) : State := s.set SEC_XFER.STATE st

/-- BEGIN (R382, R386, R387): its reply has 0x00 or 0x0D alone. An image that exceeds the staging buffer is refused so as well, and its
refusal is recorded with R386's code 0xE (DEDUCED, log entry 42). -/
def State.svcBegin (s : State) (p : Peer) (xfer total : Nat) : State :=
  let st := s.get SEC_XFER.STATE
  if st ≠ xferIdle ∧ st ≠ xferHeld then (s.imgRefuse imgBusy [] false).svcReply p 1 xfer 0 (leBytes 1 imgBusy)
  else
    let s := (s.setXfer xferIdle).modSec (fun x => { x with img := [] })
    if s.stgSize < total then (s.imgRefuse imgSpace [] true).svcReply p 1 xfer 0 (leBytes 1 imgBusy)
    else ((s.setXfer xferReceiving).modSec (fun x => { x with xfer := xfer, peer := p, len := total, got := [] })).svcReply p 1 xfer 0
      (leBytes 1 0)

def execSvcBegin (peer : Peer) (xfer total : BitVec 32) (s : State) : Host.Outcome State Fault Refusal :=
  let s := s.sendBegin
  .next (if s.svcRuns then s.svcBegin peer xfer.toNat total.toNat else s)

/-- The end of the contiguous bytes from an offset on, over ranges (offset, length); the first argument bounds the steps. -/
def contigFrom (l : List (Nat × Nat)) : Nat → Nat → Nat
  | 0, o => o
  | k + 1, o =>
    match l.find? (fun r => r.1 == o && r.2 != 0) with
    | none => o
    | some r => contigFrom l k (o + r.2)

/-- The highest contiguous offset received (R382). -/
def SecSt.contig (x : SecSt) : Nat := contigFrom x.got x.got.length 0

/-- How many bytes of the image have been received. -/
def SecSt.received (x : SecSt) : Nat := (x.got.map (·.2)).foldl (· + ·) 0

/-- Bytes written to the staging buffer, where the security block may write: not into the locked text range (R21, R387, R400), and in
LPDDR5X at the controller's port (R87). -/
def State.stage (s : State) (o : Nat) (bs : List Byte) : State :=
  let a := s.stgBase + o
  let b := a + bs.length - 1
  if s.judge .security true a = .allowed ∧ s.judge .security true b = .allowed ∧ !s.textLocked a ∧ !s.textLocked b then
    if regionOf a = .lpddr then s.portStore { dom := 4, addr := a, bytes := bs } else { s with mem := memStore s.mem a bs }
  else s

/-- DATA (R382): bytes that overlap what has been received are ignored. A reply goes out every 64 KiB of received bytes and with the image's
last byte, so that it also shows a missing range (DEDUCED, log entry 42). -/
def State.svcData (s : State) (p : Peer) (xfer o : Nat) (bs : List Byte) : State :=
  let x := s.sec
  let n := bs.length
  if s.get SEC_XFER.STATE = xferReceiving ∧ x.xfer = xfer ∧ 1 ≤ n ∧ n ≤ 1408 ∧ o + n ≤ x.len
      ∧ x.got.all (fun r => o + n ≤ r.1 || r.1 + r.2 ≤ o) then
    let s := (s.stage o bs).modSec (fun x => { x with got := (o, n) :: x.got })
    if x.received / 65536 < s.sec.received / 65536 ∨ o + n = x.len ∨ s.sec.received = x.len then
      s.svcReply p 2 xfer o (leBytes 4 s.sec.contig)
    else s
  else s

def execSvcData (peer : Peer) (xfer offset : BitVec 32) (bytes : List Byte) (s : State) : Host.Outcome State Fault Refusal :=
  let s := s.sendBegin
  .next (if s.svcRuns then s.svcData peer xfer.toNat offset.toNat bytes else s)

/-- No window of another slot stands in the way: check 0x4 of R166 is made at activation (R385). -/
def State.slotsEmpty (s : State) : State := (List.range 16).foldl (fun s n => s.set (INF_SLOT_STS.STATE n) slotEmpty) s

/-- The content check of R385. -/
def State.contentOk (s : State) (img : List Byte) : Bool :=
  imgSetFmtOk img &&
    match imgType img with
    | 1 => (s.accordFails (imgSetFmt img) (imgBody img)).isEmpty
    | 4 => s.slotsEmpty.loadCheck (imgPslot img) (imgBody img) == 0
    | _ => true

/-- The state of R54: no Accord runs. -/
def State.emptyDevice (s : State) : Bool := s.get ACD_STS.STATE == 3

/-- What has been received of the image. -/
def State.stagedBytes (s : State) : List Byte := memBytes s.mem s.stgBase s.sec.contig

/-- The staging buffer lies behind the port of LPDDR5X (R395). -/
def State.stgLp (s : State) : Bool := regionOf s.stgBase == .lpddr

/-- The port of the hash and signature engines, or of the staging buffer, holds requests (R87). -/
def State.engineHeld (s : State) : Bool := s.gateAsked 7 || s.stgLp && s.gateAsked 4

/-- One of the two does not run: requests meet a bus error (R88). -/
def State.engineOff (s : State) : Bool := s.gated 7 || s.stgLp && s.gated 4

/-- Image staging discards its copy, which an uncorrectable read has hit (R219): what was being received, checked, held or written is gone,
and the sender delivers the image again (DESIGN CHOICE, log entry 42). -/
def State.stgDiscard (s : State) : State := (s.setXfer xferIdle).modSec (fun x => { x with img := [], got := [] })

/-- END (R386, R387): the checks; an Accord that passes is held, another image is written to flash. Without the engines no check is made:
the transfer stands as it was (log entry 49). -/
def State.svcEnd (s : State) (p : Peer) (xfer : Nat) (uncorr : Option Nat) : State :=
  if s.get SEC_XFER.STATE = xferReceiving ∧ s.sec.xfer = xfer ∧ !s.engineOff then
    match uncorr.filter (fun o => s.stgLp && decide (o < s.sec.contig)) with
    | some o =>
      let img := s.stagedBytes
      (((s.lpUncorr (s.stgBase + o)).svcReply p 3 xfer 0 (leBytes 1 imgTransfer ++ leBytes 3 0 ++ imgDigest img)).imgRefuse imgTransfer img
        true).stgDiscard
    | none =>
    let img := s.stagedBytes
    let code := s.imgCheck img true (s.contentOk img)
    let s := s.svcReply p 3 xfer 0 (leBytes 1 code ++ leBytes 3 0 ++ imgDigest img)
    if code ≠ 0 then ((s.imgRefuse code img true).setXfer xferIdle).modSec (fun x => { x with got := [] })
    else
      let s := (s.bump SEC_CNT.ACCEPTED).setAll [(SEC_XFER.LAST_CODE, 0), (SEC_XFER.LAST_TYPE, imgType img)]
      let held := imgType img == 1 && !s.emptyDevice
      (s.setXfer (if held then xferHeld else xferWriting)).modSec (fun x => { x with img := img, got := [] })
  else s

/-- KEY_DEVID as a word. -/
def State.devId (s : State) : Nat := s.get KEY_DEVID.STEPPING + 256 * s.get KEY_DEVID.GRADE + 65536 * s.get KEY_DEVID.PART

/-- QUERY (R382). Without device keys the public keys are free (R367). -/
def State.svcQuery (s : State) (p : Peer) (xfer : Nat) : State :=
  let ready := s.on KEY_STS.READY
  let pub := if ready then padTo 1984 s.devicePub else leBytes 1984 (Config.free s.fresh)
  (if ready then s else s.draw).svcReply p 4 xfer 0
    (leBytes 1 (s.get SEC_XFER.STATE) ++ leBytes 3 0 ++ s.unitId ++ leBytes 4 s.devId ++ pub)

def execSvcQuery (peer : Peer) (xfer : BitVec 32) (s : State) : Host.Outcome State Fault Refusal :=
  let s := s.sendBegin
  .next (if s.svcRuns then s.svcQuery peer xfer.toNat else s)

/-- 5 s without a DATA (R382). -/
def State.xferAbandon (s : State) : State :=
  if s.get SEC_XFER.STATE = xferReceiving then
    (((s.imgRefuse imgTransfer s.stagedBytes true).setXfer xferIdle).modSec (fun x => { x with got := [] }))
  else s

def execTransferTimeout (s : State) : Host.Outcome State Fault Refusal := .next s.xferAbandon

/-! ### Flash (R387, R388) -/

/-- An image put into a flash place. -/
def State.flashPut (s : State) (k : Nat) (img : List Byte) : State := { s with flash := put k img s.flash }

/-- A flash place freed. -/
def State.flashFree (s : State) (k : Nat) : State := { s with flash := drop k s.flash }

/-- The slot of a firmware type that runs by NVM's marker; k is 2 for Keeper and 4 for Control-core firmware (R388). -/
def State.fwRunning (s : State) (k : Nat) : Nat := (s.marker k).getD 0 % 2

/-- The place that a staged firmware image goes to. -/
def State.fwOther (s : State) (k : Nat) : Nat := k + (1 - s.fwRunning k)

/-- KEY_STAGED marks changed in one NVM commit. -/
def State.markStaged (s : State) (fs : List (Fld × Nat)) : State := s.commitRegs KEY_STAGED.CFW.key fs []

/-- A program's bit of KEY_STAGED.PROG. -/
def State.progMark (s : State) (n : Nat) (b : Bool) : State :=
  s.markStaged [(KEY_STAGED.PROG, setBitOf (s.get KEY_STAGED.PROG) n b)]

/-- The empty device applies its Accord at once (R54, R387): slot A, the marker, apply and lock, and the Top-die content. DESIGN CHOICE:
OTHER_REFUSED, FAIL_STEP and FAIL_REC keep what the failed load left, since the spec ties them to the last load (log entry 33). -/
def State.emptyApply (s : State) (img : List Byte) : State :=
  let s := ((s.flashPut 0 img).nvmCommit (markerJob 0 0)).acdLock 0 img
  if s.bridgeUp && s.pwr.bring == 0 then s.topReload else s

/-- A verified image in flash, marked (R387). -/
def State.flashStaged (s : State) (img : List Byte) : State :=
  match imgType img with
  | 1 => s.emptyApply img
  | 2 => (s.flashPut (s.fwOther 2) img).markStaged [(KEY_STAGED.KFW, 1)]
  | 3 => (s.flashPut (s.fwOther 4) img).markStaged [(KEY_STAGED.CFW, 1)]
  | _ => (s.flashPut (32 + imgPslot img) img).progMark (imgPslot img) true

/-- The offset of an uncorrectable word that reading the staged image meets, if the buffer stands in LPDDR5X (R219). -/
def State.stgHit (s : State) (uncorr : Option Nat) : Option Nat :=
  uncorr.filter (fun o => s.stgLp && decide (o < s.sec.img.length))

/-- Reading the staged image has met an uncorrectable word: the copy is discarded (R219). -/
def State.stgLost (s : State) (o : Nat) : State := (s.lpUncorr (s.stgBase + o)).stgDiscard

/-- The write of a checked image ends (R386, R387); it waits as image staging does after a dip (R115, R116). `uncorr`: an uncorrectable word
that the write meets in the staging buffer, which fails it (R219; log entry 42). -/
def State.flashDone (s : State) (res : FlashEnd) (uncorr : Option Nat := none) : State :=
  if s.get SEC_XFER.STATE = xferWriting ∧ !s.flashHeld then
    let img := s.sec.img
    match s.stgHit uncorr with
    | some o => (s.stgLost o).imgRefuse imgFlash img true
    | none =>
    let s := (s.setXfer xferIdle).modSec (fun x => { x with img := [] })
    match res with
    | .verified => s.flashStaged img
    | .noSpace => s.imgRefuse imgSpace img true
    | .failed => s.imgRefuse imgFlash img true
  else s

def execFlashWriteDone (res : FlashEnd) (s : State) (uncorr : Option (BitVec 28) := none) : Host.Outcome State Fault Refusal :=
  .next (s.flashDone res (uncorr.map (·.toNat)))

/-- ACCORD_ACCEPT (R387, R389): STATUS is OK (refused false) with DETAIL, or REFUSED with DETAIL. An uncorrectable word in the staging buffer
fails the write (R219; log entry 42). -/
def State.accordAccept (s : State) (dg : List Byte) (flashOk : Bool) (uncorr : Option Nat := none) : (Bool × Nat) × State :=
  let img := s.sec.img
  if s.get SEC_XFER.STATE ≠ xferHeld ∨ imgDigest img ≠ dg then ((true, 1), s)
  else match s.stgHit uncorr with
  | some o => ((true, 2), s.stgLost o)
  | none =>
  if !flashOk then ((true, 2), s)
  else
    let slot := 1 - s.get ACD_STS.SLOT
    let s := (s.setXfer xferIdle).modSec (fun x => { x with img := [] })
    let s := (s.flashPut slot img).nvmCommit (markerJob 0 slot)
    let bar := s.acdLiveBar img
    if bar = 0 then ((false, 0), (s.set ACD_STS.PENDING 0).markStaged [(KEY_STAGED.ACD, 1)])
    else ((false, 1), (if s.on KEY_STAGED.ACD then s.markStaged [(KEY_STAGED.ACD, 0)] else s).acdPend bar img)

/-! ### Program loads (R142, R371) -/

/-- A program image that has been checked is loaded (R142): 0, or the code of the load's refusal; the fingerprint follows. -/
def State.progLoad (s : State) (n : Nat) (img : List Byte) : Nat × State :=
  let r := s.loadProgram n (imgBody img)
  if r.1 = 0 then (0, (r.2.modAcd (fun a => { a with progs := put n (imgDigest img) a.progs })).fpChange 3 n) else r

/-- The checks of a program image in flash, for its slot (R374, R386): 0 or the code of the first that fails. -/
def State.progCheck (s : State) (n : Nat) (img : List Byte) : Nat :=
  if imgType img = 4 ∧ imgPslot img = n then s.imgCheck img false (s.contentOk img) else 0x4

/-- A program reload from flash (R371, R386). -/
def State.programLoad (s : State) (n : Nat) : State :=
  match look (16 + n) s.flash with
  | none => s
  | some img =>
    let code := s.progCheck n img
    if code ≠ 0 then s.imgRefuse code img true else (s.progLoad n img).2

/-- A request of the engines served (R371, R386); without their clock a load does nothing (R88; log entry 49). -/
def State.engineServe (s : State) : EngineReq → State
  | .imageEnd p xfer uncorr => s.svcEnd p xfer uncorr
  | .load n => if s.gated 7 then s else s.programLoad n

/-- A request comes to the engines: it waits while their port holds requests (R87). -/
def State.engineAsk (s : State) (r : EngineReq) : State :=
  if s.engineHeld then s.modSec (fun x => { x with waits := x.waits ++ [r] }) else s.engineServe r

/-- The oldest request that waits goes on once nothing holds it (R87). -/
def State.engineNext (s : State) : State :=
  match s.sec.waits with
  | [] => s
  | r :: t => if s.engineHeld then s else (s.sendBegin.modSec (fun x => { x with waits := t })).engineServe r

def execSvcEnd (peer : Peer) (xfer : BitVec 32) (s : State) (uncorr : Option (BitVec 28) := none) : Host.Outcome State Fault Refusal :=
  let s := s.sendBegin
  .next (if s.svcRuns then s.engineAsk (.imageEnd peer xfer.toNat (uncorr.map BitVec.toNat)) else s)

def execProgramLoad (n : Fin 16) (s : State) : Host.Outcome State Fault Refusal :=
  .next (if s.topLive then s.engineAsk (.load n.val) else s)

/-! ### Activation (R390 to R392) -/

/-- KEY_STAGED as a word (R394). -/
def State.stagedBits (s : State) : Nat :=
  s.get KEY_STAGED.PROG + 2 ^ 16 * s.get KEY_STAGED.CFW + 2 ^ 17 * s.get KEY_STAGED.KFW + 2 ^ 18 * s.get KEY_STAGED.ACD

/-- The first condition of R390 that does not hold, 0 when all hold. -/
def State.actCause (s : State) : Nat :=
  if !s.on SES_STS.BND then 1
  else if (List.range 8).any (fun a => s.level a != 0) then 2
  else if s.seqBusy then 3
  else if s.on PWRST_STATE.BUSY || decide (1 < s.cur) then 4
  else if s.on PWRST_BO_STS.NVM_HELD then 5
  else 0

/-- EVT_ACT_DONE (R391, R445). -/
def State.actLog (s : State) (img : List Byte) : State :=
  s.logTop EVT_ACT_DONE ACC_TRAY UNIT_SEC 0
    [(0, 2, imgType img), (2, 1, imgPslot img), (4, 4, imgArb img), (8, 32, leAt (imgDigest img) 0 32)]

/-- A new settings format (R392): defaults, KEY_SETFMT and the epoch in one commit. -/
def State.setFmt (s : State) (img : List Byte) : State :=
  let old := s.get KEY_SETFMT.FMT
  let new := imgSetFmt img
  if new = 0 ∨ new = old then s
  else
    let ep := s.epochNext
    (s.commitRegs KEY_SETFMT.FMT.key [(KEY_SETFMT.FMT, new)] [.blobErase kindSetting, .epoch]).logTop EVT_SET_RESET ACC_TRAY UNIT_SEC 0
      [(0, 2, old), (2, 2, new), (4, 8, ep)]

/-- A waiting program's slot is stopped as EN = 0 does (R391). -/
def State.actStop (s : State) : State := (bitList 16 (s.get KEY_STAGED.PROG)).foldl State.slotDisable s

/-- A program image of flash checked and loaded (R374, R386, R391): 0, the code of the failing check, or 0xB where the load refuses it. -/
def State.progTake (s : State) (n : Nat) (img : List Byte) : Nat × State :=
  let code := s.progCheck n img
  if code ≠ 0 then (code, s)
  else
    let r := s.progLoad n img
    (if r.1 = 0 then 0 else 0xB, r.2)

/-- Order 1 of R391: one program. `en` says whether its slot was enabled. -/
def State.actProgram (s : State) (n : Nat) (en : Bool) : State :=
  let img := s.image (32 + n)
  let r := s.progTake n img
  let back (s : State) : State := if en then s.slotEnable n else s
  if r.1 ≠ 0 then back ((r.2.imgRefuse r.1 img true).progMark n false |>.flashFree (32 + n))
  else
    let s := ((r.2.flashPut (16 + n) img).flashFree (32 + n)).progMark n false
    (back ((s.sigReinstall n (imgBody img)).raiseFloor 4 (imgArb img))).actLog img

/-- Order 2: the Accord, compared again (R57, R389). -/
def State.actAccord (s : State) : State :=
  if s.on KEY_STAGED.ACD then
    let slot := 1 - s.get ACD_STS.SLOT
    let img := s.image slot
    let s := s.markStaged [(KEY_STAGED.ACD, 0)]
    let bar := s.acdLiveBar img
    if bar ≠ 0 then s.acdPend bar img
    else ((((s.acdLive slot img).rematch).setFmt img).raiseFloor 1 (imgArb img)).actLog img
  else s

/-- Orders 3 and 4: a firmware type switched in NVM (R391); k is its flash base, type its IMG_TYPE. -/
def State.actFirmware (s : State) (k type : Nat) (mark : Fld) (use : State → List Byte → State) : State :=
  let img := s.image (s.fwOther k)
  let s := (s.nvmCommit (markerJob k (1 - s.fwRunning k))).markStaged [(mark, 0)]
  ((((use s img).setFmt img).raiseFloor type (imgArb img))).actLog img

/-- The activation of every waiting image (R391). -/
def State.activate (s : State) (en : Nat) : State :=
  let s := (bitList 16 (s.get KEY_STAGED.PROG)).foldl (fun s n => s.actProgram n (bitOf en n)) s
  let s := s.actAccord
  let cfw := s.on KEY_STAGED.CFW
  let kfw := s.on KEY_STAGED.KFW
  let s := if cfw then s.actFirmware 4 3 KEY_STAGED.CFW State.cfwUse else s
  let s := if kfw then s.actFirmware 2 2 KEY_STAGED.KFW State.kfwUse else s
  ((s.set SEC_ACT.RUNNING 0).modPwr (fun p => { p with fwSwitch := p.fwSwitch ||| (b2n cfw + 2 * b2n kfw) })).switchDone

/-- Every waiting program's slot has stopped. -/
def State.actReady (s : State) : Bool :=
  (bitList 16 (s.get KEY_STAGED.PROG)).all (fun n => s.slotSt n != slotEnabled && s.slotSt n != slotStopping)

/-- The slots that ran when the activation began, whose EN is restored (R391). -/
def State.actEnabled (s : State) : Nat := maskOf 16 (fun n => bitOf (s.get KEY_STAGED.PROG) n && s.slotSt n == slotEnabled)

/-- An activation that has begun goes on to its end; it waits for the runs in progress of the slots that it stops (R146, R390,
R391). -/
def State.actGo (s : State) (en : Nat) : State :=
  if s.actReady then (s.modSec (fun x => { x with actEn := 0 })).activate en
  else (s.set SEC_ACT.RUNNING 1).modSec (fun x => { x with actEn := en })

/-- An examination of the conditions (R390). -/
def State.actCheck (s : State) : State :=
  if s.on SEC_ACT.RUNNING then s.actGo s.sec.actEn
  else if s.stagedBits = 0 then (s.set SEC_ACT.WAIT 0).modSec (fun x => { x with lastWait := 0 })
  else
    let c := s.actCause
    let old := s.sec.lastWait
    let s := (s.set SEC_ACT.WAIT c).modSec (fun x => { x with lastWait := c })
    if c = 0 then s.actStop.actGo s.actEnabled
    else if c = old then s
    else s.logTop EVT_ACT_WAIT ACC_TRAY UNIT_SEC 0 [(0, 1, c), (4, 4, s.stagedBits)]

def execActivationCheck (s : State) : Host.Outcome State Fault Refusal := .next (if s.bridgeUp then s.actCheck else s)

/-- SEC_ACT.ABANDON (R390, R395): every mark cleared, the staged copies freed, a written Accord's with its slot and its boot-slot marker, which
names the running slot again; an activation that has begun runs to its end. -/
def State.actAbandon (s : State) : State :=
  if s.on SEC_ACT.RUNNING || s.stagedBits == 0 then s
  else
    let s := (bitList 16 (s.get KEY_STAGED.PROG)).foldl (fun s n => s.flashFree (32 + n)) s
    let s := if s.on KEY_STAGED.CFW then s.flashFree (s.fwOther 4) else s
    let s := if s.on KEY_STAGED.KFW then s.flashFree (s.fwOther 2) else s
    let s := if s.on KEY_STAGED.ACD then (s.flashFree (1 - s.get ACD_STS.SLOT)).nvmCommit (markerJob 0 (s.get ACD_STS.SLOT)) else s
    ((s.markStaged [(KEY_STAGED.PROG, 0), (KEY_STAGED.CFW, 0), (KEY_STAGED.KFW, 0), (KEY_STAGED.ACD, 0)]).set SEC_ACT.WAIT 0).modSec
      (fun x => { x with lastWait := 0 })

def execAbandonStaged (ini : Initiator) (s : State) : Host.Outcome State Fault Refusal :=
  .next (s.command ini SEC_ACT.ABANDON.addr State.actAbandon)

end Sys2Proof.Machine
end

