-- ==== Sys2Proof/Machine/Tamp.lean ====
section
/-! DEFINITION. Tamp (R223 to R251): sampling, combiners, comparators, what each level does, the analog comparators, clearing, the
critical-temperature circuit, and the arrival of proposals and level messages. -/

namespace Sys2Proof.Machine

/-! ### Proposals and level messages (R156, R246, R248) -/

/-- A proposal that arrives in QUIESCE, after the Bridge has left UP, is an output that the hold covers, or that reverts where the hold
has passed; a throttle pre-hint ends at once (R39). -/
def State.proposalHeld (s : State) (p : Nat) : State :=
  if s.bridgeUp then s
  else if s.brg.hold = .reverting then s.clampRelease p
  else
    let s := s.modCport p (fun c => if s.brg.next = .inForce then { c with old := true } else { c with oldNext := true })
    if s.brg.quiesceTo = .retrain then s else s.clampThrottleOff p

/-- The message of proposals at the front of GUARD arrives; each is judged in turn (R29, R36, R246). -/
def State.proposalDeliver (s : State) (b : Beats) : State :=
  match s.brg.guardQ with
  | .proposals vs :: _ =>
    if s.flows then
      s.message b vcGuard 0 kindProposals ((vs.length + 3) / 4) 0 (fun s =>
        vs.foldl (fun s v => (s.proposal v.1 v.2).proposalHeld v.1) s.guardTake)
    else s
  | _ => s

def execProposalArrival (beats : Beats) (s : State) : Host.Outcome State Fault Refusal := .next (s.proposalDeliver beats)

def execClampRetry (port : Fin 64) (s : State) : Host.Outcome State Fault Refusal := .next (s.clampRetry port.val)

/-- The levels of a message at the Top die: the view and the adaptation follow every change, then the recorder's triggers act in unit
order (R156, R160, R216, R217). -/
def State.levelsSeen (s : State) (lvls : Nat) : State :=
  let changed := (List.range 8).filter (fun a => s.tampView a != bitsOf lvls (2 * a) 2)
  let fires := changed.flatMap (fun a => s.levelFires a (s.tampView a) (bitsOf lvls (2 * a) 2))
  (changed.foldl (fun s a => s.viewUpdate a (bitsOf lvls (2 * a) 2)) s).fireAll fires

/-- The level message at the front reaches the Top die (R156). -/
def State.levelDeliver (s : State) (b : Beats) : State :=
  match s.brg.levelQ with
  | [] => s
  | lvls :: t =>
    if s.flows then
      s.message b vcGuard 1 kindLevels 1 0 (fun s =>
        (s.modBrg (fun b => { b with levelQ := t })).levelsSeen lvls)
    else s

def execTampViewUpdate (s : State) (beats : Beats := {}) : Host.Outcome State Fault Refusal := .next (s.levelDeliver beats)

/-! ### Sampling (R224 to R227, R249) -/

/-- The digital network runs: BASE runs from the host reference or IOSC, no reset holds it (R78, R94, R249). -/
def State.digRun (s : State) : Bool :=
  s.pwr.sampling && !s.pwr.warmOn && !s.pwr.borOn && !s.on TAMP_STS.SAFE && s.cur != 3 && s.pwr.rom == .none

/-- The conversion of an AIN channel (R224). -/
def State.ainSample (s : State) (k code : Nat) : State :=
  let x := (code * s.get (TAMP_AIN_SCL.GAIN k) / 4096 : Nat) + sgn 16 (s.get (TAMP_AIN_SCL.OFFSET k))
  (s.set (TAMP_AIN.CODE k) code).set (TAMP_AIN.SIG k) (sat16 x)

/-- The signal index of input i of a combiner. -/
def State.combIn (s : State) (j i : Nat) : Nat :=
  if i % 2 = 0 then s.get (TAMP_COMB_IN.IN_A j (i / 2)) else s.get (TAMP_COMB_IN.IN_B j (i / 2))

/-- The inputs that a combiner uses: two for the product and the difference, else N + 1. -/
def State.combIns (s : State) (j : Nat) : List Nat :=
  let op := s.get (TAMP_COMB_CFG.OP j)
  (List.range (if op = 2 ∨ op = 5 then 2 else s.get (TAMP_COMB_CFG.N j) + 1)).map (s.combIn j)

/-- A combiner may not read this index: a combiner numbered j or above, or an index that R223 does not use. -/
def combBad (j i : Nat) : Bool :=
  !(i < 0x40 || (0x40 ≤ i && i ≤ 0x44) || (0x80 ≤ i && i ≤ 0x15F) || (0x180 ≤ i && i < 0x180 + j && i ≤ 0x19F))

/-- The value of an operation on the inputs, as signed numbers (R227). -/
def combOp (op shift : Nat) (xs : List Int) : Nat :=
  let x0 := xs.getD 0 0
  let x1 := xs.getD 1 0
  let sh := fun (x : Int) => x.fdiv (2 ^ shift)
  if op = 1 then sat16 (sh (xs.foldl (· + ·) 0))
  else if op = 2 then sat16 (sh (x0 * x1))
  else if op = 3 then unsgn 16 (xs.foldl max x0)
  else if op = 4 then unsgn 16 (xs.foldl min x0)
  else sat16 (sh (x0 - x1))

/-- The output of a combiner, 0x8000 when stale. -/
def State.combOut (s : State) (j : Nat) : Nat :=
  let op := s.get (TAMP_COMB_CFG.OP j)
  let ins := s.combIns j
  if op = 0 || op = 6 || op = 7 || ins.any (combBad j) || ins.any (fun i => (s.signal i).2) then sigStale
  else combOp op (s.get (TAMP_COMB_CFG.SHIFT j)) (ins.map (fun i => sgn 16 (s.signal i).1))

/-- The AIN channels and then the combiners in ascending order; a channel that the command names no code for keeps its input. -/
def State.sampleIn (s : State) (codes : List (Fin 4096)) : State :=
  let s := (List.range 64).foldl (fun s k => s.ainSample k (((codes[k]?).map (·.val)).getD (s.get (TAMP_AIN.CODE k)))) s
  (List.range 32).foldl (fun s j => s.set (TAMP_COMB_CFG.OUT j) (s.combOut j)) s

/-- The signal is or depends on a guard position (R229). -/
def State.onGuard (s : State) : Nat → Nat → Bool
  | 0, _ => false
  | n + 1, i =>
    if 0x80 ≤ i ∧ i ≤ 0x15F then true
    else if 0x180 ≤ i ∧ i ≤ 0x19F then (s.combIns (i - 0x180)).any (s.onGuard n)
    else false

/-! ### Comparators (R228, R229) -/

def lvlNormal : Nat := 0
def lvlAmber : Nat := 1
def lvlRed : Nat := 2
def lvlBlack : Nat := 3

/-- A comparator's limit of a level. -/
def State.cmpLim (s : State) (k l : Nat) : Nat :=
  if l = lvlAmber then s.get (TAMP_LIM_AMB.LIM k) else if l = lvlRed then s.get (TAMP_LIM_RED.LIM k) else s.get (TAMP_LIM_BLK.LIM k)

/-- The level is enabled. -/
def State.cmpEn (s : State) (k l : Nat) : Bool :=
  if l = lvlAmber then s.on (TAMP_CMP_CFG.AMB_EN k) else if l = lvlRed then s.on (TAMP_CMP_CFG.RED_EN k)
  else s.on (TAMP_CMP_CFG.BLK_EN k)

/-- The value crosses the level. -/
def State.cmpCross (s : State) (k l v : Nat) : Bool :=
  let lim := sgn 16 (s.cmpLim k l)
  s.cmpEn k l && (if s.on (TAMP_CMP_CFG.DIR k) then decide (sgn 16 v < lim) else decide (lim < sgn 16 v))

/-- The value lies in the level's release band. -/
def State.cmpBand (s : State) (k l v : Nat) : Bool :=
  let lim := sgn 16 (s.cmpLim k l)
  let h : Int := s.get (TAMP_CMP_REL.HYST k)
  !s.cmpEn k l || (if s.on (TAMP_CMP_CFG.DIR k) then decide (lim + h ≤ sgn 16 v) else decide (sgn 16 v ≤ lim - h))

/-- A count that goes on or starts again; the longest that R228 asks for is 256. -/
def runCount (b : Bool) (n : Nat) : Nat := if b then min 256 (n + 1) else 0

/-- The counters of a comparator. -/
def State.cmpCnt (s : State) (k : Nat) : CmpCnt := (look k s.tamp.cnt).getD {}

def State.setCmpCnt (s : State) (k : Nat) (c : CmpCnt) : State := { s with tamp := { s.tamp with cnt := put k c s.tamp.cnt } }

/-- Entry: the highest level above the present one whose count has reached N. -/
def cmpEnter (c : CmpCnt) (n lvl : Nat) : Nat :=
  if lvl < 3 ∧ n ≤ c.up3 then 3 else if lvl < 2 ∧ n ≤ c.up2 then 2 else if lvl < 1 ∧ n ≤ c.up1 then 1 else lvl

/-- Release: down from Red unless latched, and from Amber, level by level; never from Black. -/
def cmpRelease (c : CmpCnt) (m : Nat) (latch : Bool) (lvl : Nat) : Nat :=
  if lvl = 3 then 3
  else
    let l := if lvl = 2 ∧ !latch ∧ m ≤ c.rel2 then 1 else lvl
    if l = 1 ∧ m ≤ c.rel1 then 0 else l

/-- A source that crossed levels in a sample: its number (R251 TAMP_CAUSE), the levels as bits, its value, and whether the stale
policy crossed them. -/
structure CrossSrc where
  src : Nat
  lvls : Nat
  val : Nat
  stale : Bool
deriving DecidableEq, Repr

/-- The counters after a sample, and the levels crossed. -/
def State.cmpCount (s : State) (k v : Nat) (stale : Bool) (c : CmpCnt) : CmpCnt × Nat :=
  if stale then
    let a := s.cmpEn k lvlAmber
    ({ c with up1 := runCount a c.up1, up2 := 0, up3 := 0, rel1 := 0, rel2 := 0, rel3 := 0 }, if a then 2 else 0)
  else
    ({ c with up1 := runCount (s.cmpCross k 1 v) c.up1, up2 := runCount (s.cmpCross k 2 v) c.up2,
              up3 := runCount (s.cmpCross k 3 v) c.up3, rel1 := runCount (s.cmpBand k 1 v) c.rel1,
              rel2 := runCount (s.cmpBand k 2 v) c.rel2, rel3 := runCount (s.cmpBand k 3 v) c.rel3 },
     2 * b2n (s.cmpCross k 1 v) + 4 * b2n (s.cmpCross k 2 v) + 8 * b2n (s.cmpCross k 3 v))

/-- The T8 is in A1 or A2: comparators that depend on guard positions are suspended (R229). -/
def State.suspended (s : State) : Bool := s.cur == 1 || s.cur == 2

/-- The scope's accelerator for events, or the tray. -/
def cmpAcc (scope : Nat) : Nat := if scope < 8 then scope else ACC_TRAY

/-- One comparator's sample (R228, R229, R250). -/
def State.cmpSample (s : State) (k : Nat) : State × List CrossSrc :=
  let sig := s.get (TAMP_CMP_CFG.SIG k)
  let (v, stale) := s.signal sig
  let c := s.cmpCnt k
  let s := (s.set (TAMP_CMP_STS.STALE k) (b2n stale)).set (TAMP_CMP_STS.VALUE k) v
  if s.suspended && s.onGuard 34 sig then (s, [])
  else
    let s := if stale && c.fresh then
        (s.set TAMP_IRQ_STS.STALE 1).log EVT_TAMP_STALE (cmpAcc (s.get (TAMP_CMP_CFG.SCOPE k))) UNIT_TAMP k
          [(0, 1, k), (1, 1, s.get (TAMP_CMP_CFG.STALE_POL k))]
      else s
    let c := { c with fresh := !stale }
    if stale && !s.on (TAMP_CMP_CFG.STALE_POL k) then (s.setCmpCnt k c, [])
    else
      let (c, m) := s.cmpCount k v stale c
      let lvl := cmpEnter c (s.get (TAMP_CMP_CFG.PERSIST k) + 1) (s.get (TAMP_CMP_STS.LVL k))
      let lvl := cmpRelease c (s.get (TAMP_CMP_REL.REL k) + 1) (s.on (TAMP_CMP_CFG.LATCH k)) lvl
      ((s.setCmpCnt k c).set (TAMP_CMP_STS.LVL k) lvl, if m = 0 then [] else [{ src := k, lvls := m, val := v, stale := stale }])

/-- Every comparator's sample, with the sources that crossed. -/
def State.cmpAll (s : State) : State × List CrossSrc :=
  (List.range 256).foldl (fun x k => let y := x.1.cmpSample k; (y.1, x.2 ++ y.2)) (s, [])

/-! ### Levels and what they do (R230 to R234, R237) -/

/-- A scope covers an accelerator. -/
def covers (scope a : Nat) : Bool := scope == a || scope == 8

/-- The number of an analog comparator among the sources. -/
def anaSrc (k : Nat) : Nat := 0x100 + k

/-- The scope of a source. -/
def State.srcScope (s : State) (src : Nat) : Nat :=
  if src < 0x100 then s.get (TAMP_CMP_CFG.SCOPE src) else s.get (TAMP_ANA.SCOPE (src - 0x100))

/-- The level that a tripped analog comparator imposes. -/
def State.anaLevel (s : State) (k : Nat) : Nat :=
  if s.on (TAMP_ANA.TRIP k) then (if s.on (TAMP_ANA.ACT k) then lvlBlack else lvlRed) else lvlNormal

/-- The level of an accelerator from its comparators (R230). -/
def State.levelOf (s : State) (a : Nat) : Nat :=
  if s.get ACD_INFO.ACC_COUNT ≤ a then 0
  else
    let d := (List.range 256).foldl (fun m k =>
      if covers (s.get (TAMP_CMP_CFG.SCOPE k)) a then max m (s.get (TAMP_CMP_STS.LVL k)) else m) 0
    (List.range 64).foldl (fun m k => if covers (s.get (TAMP_ANA.SCOPE k)) a then max m (s.anaLevel k) else m) d

/-- The limit of a source for the record of a level. -/
def State.srcLim (s : State) (src lvl : Nat) : Nat :=
  if src < 0x100 then s.cmpLim src lvl else s.get (TAMP_ANA.THR (src - 0x100))

/-- The payload of an entry record (R234, R445). -/
def State.entryPayload (s : State) (lvl : Nat) (xs : List CrossSrc) : List (Nat × Nat × Nat) :=
  [(0, 1, min 255 xs.length), (1, 1, b2n (xs.any (·.stale)))]
    ++ (List.range 8).map (fun i => (4 + 2 * i, 2, ((xs[i]?).map (·.src)).getD 0x1FF))
    ++ (List.range 4).filterMap (fun i =>
      (xs[i]?).map (fun x => (20 + 2 * i, 2, if x.src < 0x100 then x.val else sigStale)))
    ++ (List.range 4).filterMap (fun i => (xs[i]?).map (fun x => (28 + 2 * i, 2, s.srcLim x.src lvl)))

/-- The counter, the interrupt bit and the event of a level. -/
def lvlCnt (a lvl : Nat) : Fld := if lvl = 1 then TAMP_CNT.AMB a else if lvl = 2 then TAMP_CNT.RED a else TAMP_CNT.BLK a
def lvlIrq (lvl : Nat) : Fld := if lvl = 1 then TAMP_IRQ_STS.AMB else if lvl = 2 then TAMP_IRQ_STS.RED else TAMP_IRQ_STS.BLK
def lvlEvent (lvl : Nat) : Nat := if lvl = 1 then EVT_TAMP_AMBER else if lvl = 2 then EVT_TAMP_RED else EVT_TAMP_BLACK

/-- The source of a rise (R251 TAMP_CAUSE): the first comparator, then the first analog one, that covers the accelerator and holds the
level. DESIGN CHOICE: of several that entered together the lowest number is shown (log entry 31). -/
def State.riseSrc (s : State) (a new : Nat) : Nat :=
  let d := (List.range 256).filter (fun k => covers (s.get (TAMP_CMP_CFG.SCOPE k)) a && s.get (TAMP_CMP_STS.LVL k) == new)
  let n := (List.range 64).filter (fun k => covers (s.get (TAMP_ANA.SCOPE k)) a && s.anaLevel k == new)
  (d ++ n.map anaSrc).headD 0x1FF

/-- A rise of an accelerator's level: the cause, the counter, the interrupt bit and the record; margined rails return at Amber,
test mode ends at Red, Black sends its request (R231, R233, R234, R277, R279). -/
def State.levelRise (s : State) (a old new : Nat) (xs : List CrossSrc) : State :=
  let xs := xs.filter (fun x => bitOf x.lvls new && covers (s.srcScope x.src) a)
  let src := s.riseSrc a new
  let s := s.setAll [(TAMP_CAUSE.SRC a, src), (TAMP_CAUSE.LVL a, new),
    (TAMP_CAUSE.STALE a, b2n (xs.any (fun x => x.src == src && x.stale)))]
  let s := (s.bump (lvlCnt a new)).set (lvlIrq new) (setBitOf (s.get (lvlIrq new)) a true)
  let s := s.log (lvlEvent new) a UNIT_TAMP 0 (s.entryPayload new xs)
  let s := if old = 0 then s.marginReturnAll (s.seq.rails.filter (fun r => r.cfg.group = a ∨ 8 ≤ r.cfg.group)) true else s
  let s := if 2 ≤ new then s.testEnd else s
  if new = 3 then s.blackRequest a else s

/-- An accelerator's level changes (R156, R230, R231, R237, R247): the records, the view's message, the clamp, the exit of A1. -/
def State.levelChange (s : State) (xs : List CrossSrc) (a : Nat) : State :=
  let old := s.level a
  let new := s.levelOf a
  if old = new then s
  else
    let v := s.get TAMP_LVL.LVL
    let s := s.set TAMP_LVL.LVL (v - bitsOf v (2 * a) 2 * 2 ^ (2 * a) + new * 2 ^ (2 * a))
    let s := if old < new then s.levelRise a old new xs
      else s.log EVT_TAMP_RELEASE a UNIT_TAMP 0 [(0, 1, old), (1, 1, new)]
    let s := if s.bridgeUp then s.modBrg (fun b => { b with levelQ := b.levelQ ++ [s.get TAMP_LVL.LVL] }) else s
    let s := s.clampAcc a
    if old < new then s.a1Exit else s

/-- The levels take effect at the end of an evaluation (R230). -/
def State.settle (s : State) (xs : List CrossSrc) : State := (List.range 8).foldl (State.levelChange · xs) s

/-- The samples of one tick and what they bring about (R224, R227, R228, R230, R269). -/
def State.tampSample (s : State) (codes : List (Fin 4096)) : State :=
  if s.digRun then
    let x := ((s.sampleIn codes).trayAin).cmpAll
    x.1.settle x.2
  else s

/-- The sample tick: the timestamp has passed a multiple of 1,000 ns (R24), so one microsecond samples once (log entry 46). The VIN_AO
monitor samples too; in A3, where BASE stands still, the command is its sample of an LFO period (R114). -/
def State.sampleTick (s : State) (codes : List (Fin 4096)) (vin : Nat) : State :=
  if s.cur = 3 then s.vinSample vin
  else if s.tamp.lastTick = some s.tick then s
  else
    let s := ({ s with tamp := { s.tamp with lastTick := some s.tick } }).vinSample vin
    s.tampSample codes

def execSampleTick (x : SampleIn) (s : State) : Host.Outcome State Fault Refusal :=
  .next (s.sampleTick x.codes x.vin.val)

/-! ### Brake lines (R231, R232) -/

/-- BRK of the accelerator is held low. -/
def State.braked (s : State) (a : Nat) : Bool := decide (2 ≤ s.level a)

/-- The throttle pattern of the accelerator runs: only while BASE runs from the host reference or IOSC, and not through a warm
reset (R232, R249). -/
def State.throttled (s : State) (a : Nat) : Bool := s.level a == 1 && decide (s.baseSrc ≤ srcIosc) && !s.pwr.warmOn

/-- At a grid point of 2,000 ns the throttled lines are driven low for 200 ns (R232). -/
def execThrottlePulse (s : State) : Host.Outcome State Fault Refusal :=
  .next { s with tamp := { s.tamp with pulse := maskOf 8 s.throttled } }

/-! ### Analog comparators (R235) -/

/-- An analog comparator trips; THR = 0xFF never does, and A3 disables them (R107, R235, R251). -/
def State.anaTrip (s : State) (k : Nat) : State :=
  if s.on (TAMP_ANA.EN k) && s.get (TAMP_ANA.THR k) != 0xFF && s.cur != 3 && !s.pwr.borOn && !s.on (TAMP_ANA.TRIP k) then
    let s := s.setAll [(TAMP_ANA.TRIP k, 1), (TAMP_IRQ_STS.ANA, 1)]
    s.settle [{ src := anaSrc k, lvls := 2 ^ s.anaLevel k, val := sigStale, stale := false }]
  else s

def execAnalogTrip (k : Fin 64) (s : State) : Host.Outcome State Fault Refusal := .next (s.anaTrip k.val)

/-- A Red comparator without LATCH releases after 4 LFO periods below its threshold (R235). -/
def State.anaRelease (s : State) (k : Nat) : State :=
  if s.on (TAMP_ANA.TRIP k) && !s.on (TAMP_ANA.ACT k) && !s.on (TAMP_ANA.LATCH k) && s.cur != 3 then
    (s.set (TAMP_ANA.TRIP k) 0).settle []
  else s

def execAnalogRelease (k : Fin 64) (s : State) : Host.Outcome State Fault Refusal := .next (s.anaRelease k.val)

/-! ### Clearing (R238) -/

/-- The scope is covered by a mask of accelerators; a tray scope by any of them. -/
def maskCovers (mask scope : Nat) : Bool := if scope = 8 then mask != 0 else decide (scope < 8) && bitOf mask scope

/-- Comparator k is cleared by the masks: latched Red, or Black. -/
def State.clearCmp (red blk : Nat) (s : State) (k : Nat) : State :=
  let sc := s.get (TAMP_CMP_CFG.SCOPE k)
  let l := s.get (TAMP_CMP_STS.LVL k)
  if (l = lvlRed ∧ s.on (TAMP_CMP_CFG.LATCH k) ∧ maskCovers red sc) ∨ (l = lvlBlack ∧ maskCovers blk sc) then
    (s.set (TAMP_CMP_STS.LVL k) 0).setCmpCnt k { fresh := (s.cmpCnt k).fresh }
  else s

/-- Analog comparator k is cleared by the masks. -/
def State.clearAna (red blk : Nat) (s : State) (k : Nat) : State :=
  let sc := s.get (TAMP_ANA.SCOPE k)
  if s.on (TAMP_ANA.TRIP k) ∧ (if s.on (TAMP_ANA.ACT k) then maskCovers blk sc else s.on (TAMP_ANA.LATCH k) ∧ maskCovers red sc) then
    s.set (TAMP_ANA.TRIP k) 0
  else s

/-- EVT_TAMP_CLEAR (R445). -/
def State.clearLog (s : State) (reg outcome red blk : Nat) : State :=
  s.log EVT_TAMP_CLEAR ACC_TRAY UNIT_TAMP 0 [(0, 1, reg), (1, 1, outcome), (2, 1, red), (3, 1, blk)]

/-- TAMP_CLR (R238): the Black bits are refused outside the presence window. -/
def State.tampClear (s : State) (red blk : Nat) : State :=
  let refused := blk != 0 && !s.on KEY_PRES.OPEN
  let s := if refused then s.clearLog 0 1 0 blk else s
  let blk := if refused then 0 else blk
  if red = 0 ∧ blk = 0 then s
  else
    let s := (List.range 256).foldl (State.clearCmp red blk) s
    let s := (List.range 64).foldl (State.clearAna red blk) s
    let s := s.set SEQ_LATCH.BLACK (maskOf 8 (fun a => bitOf (s.get SEQ_LATCH.BLACK) a && !bitOf blk a))
    (s.clearLog 0 0 red blk).settle []

def execRedClr (ini : Initiator) (mask : Fin 256) (s : State) : Host.Outcome State Fault Refusal :=
  .next (s.command ini TAMP_CLR.RED_CLR.addr (fun s => s.tampClear mask.val 0))

def execBlkClr (ini : Initiator) (mask : Fin 256) (s : State) : Host.Outcome State Fault Refusal :=
  .next (s.command ini TAMP_CLR.BLK_CLR.addr (fun s => s.tampClear 0 mask.val))

def execTampCntClr (ini : Initiator) (s : State) : Host.Outcome State Fault Refusal :=
  .next (s.command ini TAMP_CNT_CLR.CLR.addr (fun s =>
    s.setAll ((List.range 8).flatMap (fun a => [(TAMP_CNT.AMB a, 0), (TAMP_CNT.RED a, 0), (TAMP_CNT.BLK a, 0)]))))

/-! ### The critical-temperature circuit (R243, R244) -/

/-- The critical temperature in Q8.8 °C (R120). -/
def State.critTemp (s : State) : Int := 256 * (85 + 5 * (s.get TAMP_CRIT.THERM_CRIT : Int))

/-- A sensor's reading as the circuit takes it: no part in the comparison, faulty, or a temperature. -/
inductive CritIn where
  | absent
  | faulty (kind : Nat)
  | temp (v : Nat)
deriving DecidableEq, Repr

/-- Sensor k, 1 to 4 for TD0 to TD3 (R225, R244): TD3 takes no part while the Top die is unpowered, but a short is a fault always. -/
def State.critIn (s : State) (k : Nat) (x : TdIn) : CritIn :=
  let off := k == 4 && !s.topCounted
  if !bitOf (s.get TAMP_CRIT.PRESENT) k then .absent
  else
    match x with
    | .shortTd => .faulty 2
    | .reads v => if off then .absent else .temp v.val
    | .openTd => if off then .absent else .faulty 1

/-- One sensor's measurement: its counts, its reading, TD_FAULT at the second bad one in a row. -/
def State.critSensor (s : State) (k : Nat) (x : CritIn) : State :=
  let hot := match x with
    | .temp v => decide (s.critTemp < sgn 16 v)
    | _ => false
  let bad := match x with
    | .faulty _ => true
    | _ => false
  let was := s.tamp.bad.getD k 0
  let s := { s with tamp := { s.tamp with hot := modAt s.tamp.hot k (fun n => if hot then min 2 (n + 1) else 0),
                                           bad := modAt s.tamp.bad k (fun n => if bad then min 2 (n + 1) else 0) } }
  let s := s.set (TAMP_TEMP.TEMP k) (match x with
    | .temp v => v
    | _ => sigStale)
  match x with
  | .faulty kind =>
    if was = 1 then
      (s.set TAMP_CRIT.TD_FAULT (setBitOf (s.get TAMP_CRIT.TD_FAULT) k true)).log EVT_TAMP_TD_FAULT ACC_TRAY UNIT_TAMP k
        [(0, 1, k), (1, 1, kind)]
    else s
  | _ => s

/-- The sensor lies 10 °C below the critical temperature, or takes no part. -/
def State.critCool (s : State) : CritIn → Bool
  | .absent => true
  | .faulty _ => false
  | .temp v => decide (sgn 16 v ≤ s.critTemp - 2560)

/-- SYS_SHDN_N is asserted (R243). -/
def State.critAssert (s : State) (trips : Nat) : State :=
  (s.setAll [(TAMP_CRIT.ASSERTED, 1), (TAMP_CRIT.TRIP, trips), (TAMP_STS.CRIT, 1), (TAMP_IRQ_STS.CRIT, 1)]).log EVT_TAMP_CRIT
    ACC_TRAY UNIT_TAMP 0
    ((0, 1, trips) :: (List.range 5).map (fun i => (2 + 2 * i, 2, s.tempOf i)))

/-- The measurement of every sensor (R243, R244). -/
def State.critMeasure (s : State) (xs : List CritIn) : State :=
  if s.pwr.borOn then s
  else
    let s := (List.range 5).foldl (fun s k => s.critSensor k (xs.getD k .absent)) s
    let top := xs.getD 4 .absent
    let s := { s with tamp := { s.tamp with cool := (xs.take 4).all s.critCool,
                                            td3 := if top = .faulty 2 then 2 else b2n (!s.critCool top) } }
    let trips := maskOf 5 (fun k => decide (2 ≤ s.tamp.hot.getD k 0) || decide (2 ≤ s.tamp.bad.getD k 0))
    if trips != 0 && !s.on TAMP_CRIT.ASSERTED then s.critAssert trips else s

def execTempMeasure (die : Fin 65536) (td0 td1 td2 td3 : TdIn) (s : State) : Host.Outcome State Fault Refusal :=
  .next (s.critMeasure [.temp die.val, s.critIn 1 td0, s.critIn 2 td1, s.critIn 3 td2, s.critIn 4 td3])

/-- Every sensor that takes part lies 10 °C below the critical temperature. TD3 takes part while the Top die counts as powered; a short on
it blocks always (R244). -/
def State.allCool (s : State) : Bool := s.tamp.cool && s.tamp.td3 != 2 && !(s.tamp.td3 == 1 && s.topCounted)

/-- TAMP_CRIT.CLR (R244). -/
def State.critClear (s : State) : State :=
  if !s.on KEY_PRES.OPEN then s.clearLog 1 1 0 0
  else if !s.allCool then s.clearLog 1 2 0 0
  else (s.setAll [(TAMP_CRIT.ASSERTED, 0), (TAMP_STS.CRIT, 0)]).clearLog 1 0 0 0

def execCritClr (ini : Initiator) (s : State) : Host.Outcome State Fault Refusal :=
  .next (s.command ini TAMP_CRIT.CLR.addr State.critClear)

end Sys2Proof.Machine
end

