-- ==== Sys2Proof/Machine/Messages.lean ====
section
/-! DEFINITION. TMP messages (R351 to R361): the checks, the messages that the session engine handles itself, the receive and transmit
queues, and what the reference firmware does with the messages that it takes (R402). -/

namespace Sys2Proof.Machine

/-! ### Types and their rules (R352) -/

def tyClose : Nat := 0x0010
def tyPing : Nat := 0x0011
def tyReadStat : Nat := 0x0100
def tySubscribe : Nat := 0x0101
def tyStatus : Nat := 0x0103
def tyHint : Nat := 0x0200
def tyHintCancel : Nat := 0x0201
def tySetCap : Nat := 0x0202
def tySetFloor : Nat := 0x0203
def tyJob : Nat := 0x0204
def tySigInstall : Nat := 0x0205
def tySeqCmd : Nat := 0x0206
def tyTampClear : Nat := 0x0207
def tyPowerState : Nat := 0x0208
def tyTopReset : Nat := 0x0209
def tyWdtKick : Nat := 0x020A
def tyRecCtl : Nat := 0x020B
def tySettingCommit : Nat := 0x0300
def tyWarmReset : Nat := 0x0301
def tyMargin : Nat := 0x0302
def tyAccordAccept : Nat := 0x0303
def tyKeyChange : Nat := 0x0304
def tyDebugUnlock : Nat := 0x0305
def tyLogClear : Nat := 0x0306
def tyHeartbeat : Nat := 0x0180
def tyEvent : Nat := 0x0181
def tyRecBuf : Nat := 0x0182

/-- Classes (R343). -/
def clsObserver : Nat := 1
def clsOperator : Nat := 2
def clsOwner : Nat := 4

/-- A type's class, 0 for any granted; FP_STATEMENT may be asked for with any command class (R65; log entry 37, since the table of R352
names Observer); none for a type that is not defined for host-to-T8 traffic. -/
def tmpClass (t : Nat) : Option Nat :=
  if t = tyClose ∨ t = tyPing ∨ t = tyFpStatement then some 0
  else if 0x0100 ≤ t ∧ t ≤ 0x0103 then some clsObserver
  else if 0x0200 ≤ t ∧ t ≤ 0x020B then some clsOperator
  else if 0x0300 ≤ t ∧ t ≤ 0x0306 then some clsOwner
  else none

/-- A type that firmware handles. -/
def byFirmware (t : Nat) : Bool :=
  [tySigInstall, tySeqCmd, tyTampClear, tyPowerState, tyTopReset, tyRecCtl].contains t || (0x0300 ≤ t && t ≤ 0x0306)

/-- The n-byte entries after a count field. -/
def counted (p : List Byte) (n : Nat) : List (List Byte) := entriesFrom p 4 n

/-- A payload of a count, 3 zero bytes and that many n-byte entries that p holds of. -/
def countForm (p : List Byte) (n most : Nat) (ok : List Byte → Bool) : Bool :=
  1 ≤ leAt p 0 1 && leAt p 0 1 ≤ most && zeroAt p 1 3 && p.length == 4 + n * leAt p 0 1 && (counted p n).all ok

/-- The settings records of a payload (R43, R61) as (type, body); none where the form is broken. -/
def settingRecs : Nat → List Byte → Option (List (Nat × List Byte))
  | 0, _ => none
  | k + 1, p =>
    let len := leAt p 4 4
    let tot := (8 + len + 7) / 8 * 8
    let type := leAt p 0 2
    if p.length < 8 ∨ p.length < tot ∨ type < 0x8000 ∨ 0x8FFF < type ∨ leAt p 2 2 ≠ 0 ∨ !zeroAt p (8 + len) (tot - 8 - len) then none
    else if p.length = tot then some [(type, slice p 8 len)]
    else (settingRecs k (p.drop tot)).map (fun l => (type, slice p 8 len) :: l)

def settingsOf (p : List Byte) : Option (List (Nat × List Byte)) := settingRecs (p.length / 8 + 1) p

/-- The payload has the length and the field values that its type defines (R351 step 8, R352). -/
def tmpForm (t : Nat) (p : List Byte) : Bool :=
  p.length ≤ 16384 &&
    if t = tyReadStat then
      countForm p 4 64 (fun e => leAt e 0 1 < 8 && leAt e 1 1 ≤ 4 && leAt e 2 2 < 8192)
    else if t = tySubscribe then p.length == 8 && leAt p 0 1 ≤ 1 && leAt p 1 1 ≤ 2 && zeroAt p 2 2
    else if t = tyFpStatement then p.length == 32
    else if t = tyHint then countForm p 16 16 (fun e => leAt e 0 1 < 8 && zeroAt e 1 1)
    else if t = tyHintCancel then countForm p 4 16 (fun e => leAt e 0 1 < 8 && zeroAt e 1 1)
    else if t = tySetCap then countForm p 4 9 (fun e => leAt e 0 1 ≤ 8 && zeroAt e 1 1 && leAt e 2 2 ≤ 20000)
    else if t = tySetFloor then
      countForm p 4 14 (fun e =>
        leAt e 0 1 == 0 && leAt e 1 1 < 8 && leAt e 2 2 ≤ 100 || leAt e 0 1 == 1 && leAt e 1 1 < 6 && leAt e 2 2 ≤ 200)
    else if t = tyJob then
      p.length == 4 && leAt p 0 1 ≤ 2 && zeroAt p 1 1
        && (if leAt p 0 1 = jobBoundary then 1 ≤ leAt p 2 2 && leAt p 2 2 ≤ 10000 else leAt p 2 2 == 0)
    else if t = tySigInstall then countForm p 32 64 (fun e => leAt e 0 4 / 256 == 0)
    else if t = tySeqCmd then p.length == 4 && leAt p 0 1 < 8 && zeroAt p 1 1
    else if t = tyTampClear then p.length == 4 && zeroAt p 2 2
    else if t = tyPowerState then p.length == 1 && (leAt p 0 1 == 1 || leAt p 0 1 == 2)
    else if t = tyRecCtl then p.length == 4 && leAt p 0 1 < 8 && zeroAt p 1 3
    else if t = tySettingCommit then (settingsOf p).isSome
    else if t = tyMargin then p.length == 4 && leAt p 0 1 ≤ 2 && leAt p 1 1 < 128 && leAt p 2 1 ≤ 1 && leAt p 3 1 < 64
    else if t = tyAccordAccept then p.length == 48
    else if t = tyKeyChange then zeroAt p 1 3 && (leAt p 0 1 == 1 && p.length == 8750 || leAt p 0 1 == 2 && p.length == 4)
    else if t = tyDebugUnlock then
      dbgArgsOk (leAt p 1 1) (leAt p 2 2) && (leAt p 0 1 == 1 && p.length == 4 || leAt p 0 1 == 2 && p.length == 3377)
    else if t = tyLogClear then p.length == 4 && leAt p 0 1 < 4 && zeroAt p 1 3
    else p.isEmpty

/-- The scope rule of R352. A MARGIN that names a rail without an entry passes: its unit refuses it. -/
def State.tmpScope (s : State) (n t : Nat) (p : List Byte) : Bool :=
  if t = tyReadStat then (counted p 4).all (fun e => s.scopeAcc n (leAt e 0 1))
  else if t = tySubscribe then
    (leAt p 0 1 == 0 || bitOf (s.sess n).subs 0) && (leAt p 1 1 == 0 || bitOf (s.sess n).subs 1)
  else if t = tyHint then (counted p 16).all (fun e => s.scopeAcc n (leAt e 0 1))
  else if t = tyHintCancel ∨ t = tySetCap then (counted p 4).all (fun e => s.scopeAcc n (leAt e 0 1))
  else if t = tySetFloor then
    (counted p 4).all (fun e =>
      bitOf (if leAt e 0 1 = 0 then s.get (SESS_MASK.ZONE_MASK n) else s.get (SESS_MASK.PUMP_MASK n)) (leAt e 1 1))
  else if t = tySigInstall then (counted p 32).all (fun e => s.scopeAcc n (bitsOf (leAt e 0 4) 1 3))
  else if t = tySeqCmd then (bitList 9 (leAt p 2 2)).all (s.scopeAcc n)
  else if t = tyTampClear then (bitList 8 (leAt p 0 1 ||| leAt p 1 1)).all (s.scopeAcc n)
  else if t = tyMargin then ((s.rail (leAt p 1 1)).map (fun r => s.scopeAcc n r.cfg.group)).getD true
  else if t = tyPowerState ∨ t = tyTopReset ∨ t = tyRecCtl ∨ tmpClass t = some clsOwner then s.coversTray n
  else true

/-- Steps 4 to 10 of R351: the STATUS of the first failing check, 0 when the message is accepted. A session with MISMATCH holds the
Observer class only, and its Operator and Owner types end with VERSION (R346). -/
def State.tmpCheck (s : State) (n t : Nat) (m : TmpMsg) : Nat :=
  if m.vmaj.val ≠ s.get (SESS_VER.VMAJ n) then stBadMsg
  else
    match tmpClass t with
    | none => stUnknown
    | some c =>
      let mis := s.on (SESS_STS.MISMATCH n)
      if mis && decide (2 ≤ c) then stVersion
      else if c ≠ 0 ∧ s.get (SESS_STS.CLASSES n) &&& c = 0 then stClass
      else if !tmpForm t m.payload then stBadMsg
      else if !s.tmpScope n t m.payload then stScope
      else if c = clsOwner ∧ !s.on KEY_PRES.OPEN then stPresence
      else stOk

/-- The counter of a refusal (R363). -/
def State.tmpCount (s : State) (status : Nat) : State :=
  if status = stBadMsg ∨ status = stUnknown then s.bump SES_ERR1.BAD_MSG else s.bump SES_ERR1.DENIED

/-! ### The sequence window (R342) -/

/-- H, the highest accepted SEQ. -/
def State.rseq (s : State) (n : Nat) : Nat := s.get64 (SESS_RSEQ_LO.V n) (SESS_RSEQ_HI.V n)

/-- A SEQ that may be accepted. -/
def State.seqFresh (s : State) (n q : Nat) : Bool :=
  let h := s.rseq n
  h < q || (h - q < 64 && !bitOf (s.sess n).win (h - q))

/-- A SEQ accepted. -/
def State.seqAccept (s : State) (n q : Nat) : State :=
  let h := s.rseq n
  if h < q then
    (s.set64 (SESS_RSEQ_LO.V n) (SESS_RSEQ_HI.V n) q).modSess n (fun x => { x with win := (x.win * 2 ^ min 64 (q - h) + 1) % 2 ^ 64 })
  else s.modSess n (fun x => { x with win := setBitOf x.win (h - q) true })

/-- An authenticated message of a session (R339, R351 step 3): the peer that it came from, the idle timer, the A1 exit. -/
def State.sesHeard (s : State) (n : Nat) (m : TmpMsg) : State :=
  let s := (s.seqAccept n m.seq.toNat).modSess n (fun x => { x with peer := m.peer, idleTs := s.now })
  (s.setAll [(SESS_STS.PORT n, m.peer.port.val), (SESS_STS.IPV6 n, b2n m.peer.v6)]).a1Exit

/-! ### Messages that the engine handles (R352, R355, R357, R360) -/

/-- A value put at an index of a list. -/
def setAt (l : List Nat) (i v : Nat) : List Nat := modAt l i (fun _ => v)

/-- SET_CAP (R355). -/
def State.setCaps (s : State) (n : Nat) (p : List Byte) : State :=
  (s.modSess n (fun x => { x with caps := (counted p 4).foldl (fun l e => setAt l (leAt e 0 1) (leAt e 2 2)) x.caps })).resolve

/-- SET_FLOOR (R355). -/
def State.setFloors (s : State) (n : Nat) (p : List Byte) : State :=
  let put (pump : Nat) (l : List Nat) : List Nat :=
    (counted p 4).foldl (fun l e => if leAt e 0 1 = pump then setAt l (leAt e 1 1) (leAt e 2 2) else l) l
  (s.modSess n (fun x => { x with zf := put 0 x.zf, pf := put 1 x.pf })).resolve

/-- Hints of a message judged one by one: their codes, and the state after them (R182, R352). -/
def State.hintList (s : State) (n : Nat) : List (List Byte) → List Byte × State
  | [] => ([], s)
  | e :: t =>
    let r := s.hintSubmit n (leAt e 2 2) (leAt e 0 1) (leAt e 4 4) (leAt e 8 8)
    let q := r.2.hintList n t
    (BitVec.ofNat 8 r.1 :: q.1, q.2)

/-- Cancellations of a message, one by one. -/
def State.cancelList (s : State) (n : Nat) : List (List Byte) → List Byte × State
  | [] => ([], s)
  | e :: t =>
    let r := s.hintCancel n (leAt e 2 2) (leAt e 0 1)
    let q := r.2.cancelList n t
    (BitVec.ofNat 8 r.1 :: q.1, q.2)

/-- The sessions that subscribe to the recorder. -/
def State.recSubs (s : State) : List Nat := (List.range 16).filter (fun n => s.on (SESS_STS.RECORDER n))

/-- SUBSCRIBE is refused: a fifth recorder subscription (R360). -/
def State.subFull (s : State) (n : Nat) (p : List Byte) : Bool :=
  leAt p 1 1 != 0 && !s.on (SESS_STS.RECORDER n) && decide (4 ≤ s.recSubs.length)

/-- SUBSCRIBE (R360): events from the next record on, buffers from the newest one or from BUFSEQ. -/
def State.subscribe (s : State) (n : Nat) (p : List Byte) : State :=
  let was := s.on (SESS_STS.EVENTS n)
  let s := s.setAll [(SESS_STS.EVENTS n, leAt p 0 1), (SESS_STS.RECORDER n, min 1 (leAt p 1 1))]
  s.modSess n (fun x =>
    { x with evNext := if was then x.evNext else s.sil.wseq
             recSkip := if leAt p 1 1 = 0 then x.recSkip else 0
             recNext := if leAt p 1 1 = 1 then s.get TFAB_REC_SEQ.LAST else if leAt p 1 1 = 2 then leAt p 4 4 else x.recNext })

/-- What the effective caps and floors, states and fingerprint are: the heartbeat payload of a session (R358). -/
def State.hbFlags (s : State) (n : Nat) : Nat :=
  b2n s.fb + 2 * s.get ACD_STS.PENDING + 4 * s.get SEQ_CTL.TEST + 8 * s.get COOL_HWDT_STS.EXPIRED + 16 * s.get CLK_STS.CLKFAIL
    + 32 * s.get SEQ_LATCH.TFAULT + 64 * b2n ((List.range 16).any (fun k => s.on (COOL_LK_STS.ACTIVE k))) + 128 * b2n s.coolForced
    + 256 * s.get SEQ_STS.IN_LOSS + 512 * s.get (SESS_STS.MISMATCH n) + 65536 * s.cur

def State.hbPayload (s : State) (n : Nat) : List Byte :=
  s.unitId ++ leBytes 8 s.topNow ++ leBytes 4 (s.hbFlags n) ++ leBytes 4 s.fpTriple.gen ++ s.fpTriple.fp ++ leBytes 8 s.fpTriple.epoch
    ++ leBytes 2 (s.get TAMP_LVL.LVL) ++ leBytes 1 (maskOf 8 s.braked) ++ leBytes 1 (s.get SEQ_LATCH.BLACK)
    ++ leBytes 2 (s.get SEQ_LATCH.GFAULT) ++ leBytes 2 (s.get SES_STS.OPEN)
    ++ (List.range 9).flatMap (fun t => leBytes 2 (s.get (SES_CAP.CAP t))) ++ leBytes 2 0
    ++ (List.range 8).flatMap (fun z => leBytes 1 (s.get (SES_ZFLOOR.FLOOR z)))
    ++ leBytes 12 ((List.range 32).foldl (fun a c => a + s.get (COOL_CONS_STS.STATE c) * 2 ^ (3 * c)) 0)
    ++ leBytes 4 (s.get TFAB_REC_SEQ.LAST) ++ leBytes 4 (s.get TFAB_REC_TRIG.BUFSEQ)
    ++ leBytes 4 (s.get SES_JOB.RUNNING + 65536 * s.get SES_JOB.BOUNDARY) ++ leBytes 4 0

/-- FP_STATEMENT (R65, R367, R377): refused without keys (its DETAIL is not stated) or with debug unlocked; up to 16 requests wait. -/
def State.stmtAsk (s : State) (n : Nat) (m : TmpMsg) : State :=
  let q := m.seq.toNat
  if s.on KEY_STS.DBG_OPEN then s.reply n m.peer tyFpStatement q stRefused 1 []
  else if !s.on KEY_STS.READY then s.draw.reply n m.peer tyFpStatement q stRefused (Config.free s.fresh) []
  else if 17 ≤ s.acd.stmts.length then s.reply n m.peer tyFpStatement q stBusy 0 []
  else
    (s.modAcd (fun a => { a with stmts := a.stmts ++ [(n, q, m.payload)] })).modSess n (fun x => { x with asked := put q m.peer x.asked })

/-- What the engine does with a message of its own (R352). -/
def State.engineDo (s : State) (n t : Nat) (m : TmpMsg) : State :=
  let p := m.payload
  let ok (s : State) (body : List Byte) : State := s.reply n m.peer t m.seq.toNat stOk 0 body
  if t = tyClose then (ok s []).sesClose n closeOwn
  else if t = tyReadStat then
    ok s ((counted p 4).flatMap (fun e => leBytes 4 (s.stat (leAt e 0 1 * 8192 + leAt e 2 2) (leAt e 1 1))))
  else if t = tySubscribe then
    (if s.subFull n p then s.reply n m.peer t m.seq.toNat stBusy 0 [] else ok (s.subscribe n p) [])
  else if t = tyFpStatement then s.stmtAsk n m
  else if t = tyStatus then ok s (s.hbPayload n)
  else if t = tyHint then
    let r := s.hintList n (counted p 16)
    ok r.2 r.1
  else if t = tyHintCancel then
    let r := s.cancelList n (counted p 4)
    ok r.2 r.1
  else if t = tySetCap then ok (s.setCaps n p) []
  else if t = tySetFloor then ok (s.setFloors n p) []
  else if t = tyJob then ok (s.jobSet n (leAt p 0 1)) []
  else ok s []

/-! ### The queues between the engine and the firmware (R354, R361, R363) -/

/-- The address of a queue's slot. -/
def slotAt (base k : Nat) : Nat := 0x0100000000 + base * 0x1000 + k * 0x5000

/-- Bytes stored in Top SRAM by an initiator, where it may write (R21): those that lie in the locked text range are not (R400). -/
def State.topStore (s : State) (ini : Initiator) (a : Nat) (bs : List Byte) : State :=
  if s.judge ini true a = .allowed ∧ regionOf a = .topSram then
    let bs := bs.take (topSramBase + 0x1800000 - a)
    if s.on FW_TEXT_BASE.LOCK then
      let lo := topSramBase + 4096 * s.get FW_TEXT_BASE.BASE
      let hi := max lo (topSramBase + 4096 * s.get FW_TEXT_LIMIT.LIMIT)
      { s with mem := memStore (memStore s.mem a (bs.take (lo - a))) (max a hi) (bs.drop (hi - a)) }
    else { s with mem := memStore s.mem a bs }
  else s

/-- A slot's bytes (R363). -/
def slotBytes (type n flags seq : Nat) (payload : List Byte) : List Byte :=
  leBytes 2 type ++ leBytes 1 n ++ leBytes 1 flags ++ leBytes 8 seq ++ leBytes 4 payload.length ++ payload

/-- The engine puts a message into the receive queue, or answers BUSY (R361). -/
def State.rxPush (s : State) (n t : Nat) (m : TmpMsg) : State :=
  let q := m.seq.toNat
  let wr := s.get SES_RXQ_PTR.WR
  if (wr + 1) % 64 = s.get SES_RXQ_PTR.RD then (s.reply n m.peer t q stBusy 0 []).bump SES_ERR2.RXQ_FULL
  else
    let s := s.topStore .session (slotAt (s.get SES_RXQ_BASE.BASE) wr) (slotBytes t n 0 q m.payload)
    let s := s.setAll [(SES_RXQ_PTR.WR, (wr + 1) % 64), (SES_IRQ_STS.RXQ, 1)]
    let s := s.modSess n (fun x => { x with asked := put q m.peer x.asked })
    s.modSes (fun x =>
      { x with rxq := x.rxq ++ [{ n := n, sid := s.get (SESS_SID.SID n), type := t, seq := q, payload := m.payload }] })

/-- The engine sends the reply of a transmit-queue slot (R354). -/
def State.txSend (s : State) (t n seq : Nat) (payload : List Byte) : State :=
  if s.isOpen n then
    let p := s.replyPeer n seq
    (s.modSess n (fun x => { x with asked := drop seq x.asked })).sesSend n p t flagResp payload
  else s

/-- The slot at the engine's read pointer is sent. -/
def State.txOne (s : State) : State :=
  let rd := s.get SES_TXQ_PTR.RD
  let b := memBytes s.mem (slotAt (s.get SES_TXQ_BASE.BASE) rd) 0x5000
  (s.txSend (leAt b 0 2) (leAt b 2 1 % 16) (leAt b 4 8) (slice b 16 (min 16384 (leAt b 12 4)))).set SES_TXQ_PTR.RD ((rd + 1) % 64)

/-- SES_TXQ_PTR.WR written (R354): every slot up to it is sent. -/
def State.txSubmit (s : State) (wr : Nat) : State :=
  let k := (wr % 64 + 64 - s.get SES_TXQ_PTR.RD) % 64
  (List.range k).foldl (fun s _ => s.txOne) (s.set SES_TXQ_PTR.WR wr)

/-- The firmware's reply to a message that it took: into the transmit queue, and sent. A session that has closed meanwhile gets
none. -/
def State.fwReply (s : State) (it : RxItem) (status detail : Nat) (body : List Byte) : State :=
  let pay := replyHead status detail it.seq ++ body
  let wr := s.get SES_TXQ_PTR.WR
  let s := s.topStore (.core 1) (slotAt (s.get SES_TXQ_BASE.BASE) wr) (slotBytes it.type it.n 0 it.seq pay)
  let s := s.setAll [(SES_TXQ_PTR.WR, (wr + 1) % 64), (SES_TXQ_PTR.RD, (wr + 1) % 64)]
  if s.get (SESS_SID.SID it.n) = it.sid then s.txSend it.type it.n it.seq pay else s

/-! ### What the firmware does (R352, R402) -/

/-- What an OTP or a flash write that the message asks for ends with (R372, R389), and the offset of an uncorrectable word that it meets in
the staging buffer (R219). -/
structure WriteEnds where
  otpOk : Bool := true
  flashOk : Bool := true
  uncorr : Option Nat := none
deriving DecidableEq, Repr

/-- A reply by a unit's code: OK for 0, else REFUSED (R353). -/
def State.fwCode (s : State) (it : RxItem) (code : Nat) : State := s.fwReply it (if code = 0 then stOk else stRefused) code []

/-- SETTING_COMMIT (R59, R60): one journal entry with the settings and the epoch; answered when it is accepted. What a larger set
ends with the spec does not say. -/
def State.fwSettings (s : State) (it : RxItem) : State :=
  let rs := (settingsOf it.payload).getD []
  if 3328 < it.payload.length then s.draw.fwReply it stRefused (Config.free s.fresh) []
  else
    let s := s.nvmCommit
      { kind := kindSetting, key := (rs.head?.map (fun r => settingPlace r.1 r.2)).getD 0, len := it.payload.length,
        data := rs.map (fun r => .blob kindSetting (settingPlace r.1 r.2) r.2) ++ [.epoch] }
    s.fwReply it stOk 0 []

/-- SIG_INSTALL (R181): entries one by one; what a full set's answer carries is free. -/
def State.fwSigs (s : State) (it : RxItem) : State :=
  let r := (counted it.payload 32).foldl (fun (a : State × Bool) e =>
    match a.1.sigInstall e with
    | some t => (t, a.2)
    | none => (a.1, true)) (s, false)
  if r.2 then r.1.draw.fwReply it stRefused (Config.free s.fresh) [] else r.1.fwReply it stOk 0 []

/-- MARGIN (R277, R278): TEST first; leaving test mode asks for no margin. -/
def State.fwMargin (s : State) (it : RxItem) : State :=
  let p := it.payload
  if leAt p 0 1 = 0 then s.testEnd.fwReply it stOk 0 []
  else
    let s := if leAt p 0 1 = 1 then s.testEnter else s
    let s := s.marginRequest (leAt p 1 1) (leAt p 2 1 == 1) (leAt p 3 1)
    s.fwCode it (s.get SEQ_MGN_STS.RESULT)

/-- POWER_STATE (R448), answered before entry. -/
def State.fwPower (s : State) (it : RxItem) : State :=
  let req := leAt it.payload 0 1
  let c := if s.cur = req ∧ !s.on PWRST_STATE.BUSY ∧ !s.resetRuns then 0 else s.pwrCause (.core 1) req
  (s.fwCode it c).pwrRequest (.core 1) req

/-- KEY_CHANGE (R372). -/
def State.fwKeys (s : State) (it : RxItem) (w : WriteEnds) : State :=
  let r := if leAt it.payload 0 1 = 1 then s.keyAdd (it.payload.drop 4) w.otpOk it.n else s.keyRetire it.n
  r.2.fwCode it r.1

/-- DEBUG_UNLOCK (R376). -/
def State.fwDebug (s : State) (it : RxItem) : State :=
  let p := it.payload
  if leAt p 0 1 = 1 then
    let r := s.dbgChallenge (leAt p 1 1) (leAt p 2 2)
    r.2.fwReply it stOk 0 (r.1 ++ s.unitId)
  else
    let r := s.dbgResponse (leAt p 1 1) (leAt p 2 2) (p.drop 4) it.n
    r.2.fwCode it r.1

/-- ACCORD_ACCEPT (R389). -/
def State.fwAccord (s : State) (it : RxItem) (w : WriteEnds) : State :=
  let r := s.accordAccept it.payload w.flashOk w.uncorr
  r.2.fwReply it (if r.1.1 then stRefused else stOk) r.1.2 []

/-- LOG_CLEAR. -/
def State.fwLogClear (s : State) (it : RxItem) : State :=
  let b := leAt it.payload 0 1
  let s := if bitOf b 0 then s.silNvmClear else s
  (if bitOf b 1 then s.ffrClear else s).fwReply it stOk 0 []

/-- A message's unit does what it asks for. A message whose unit stands on the Base die while the Bridge is not UP is refused; its
DETAIL is free; so is that of a TAMP_CLEAR whose Black bits Tamp refuses (R238), which has no code. TOP_RESET and WARM_RESET are not answered (R354). -/
def State.fwDo (s : State) (it : RxItem) (w : WriteEnds) : State :=
  let t := it.type
  let p := it.payload
  if t = tySigInstall then s.fwSigs it
  else if t = tyRecCtl then (s.recCtl (leAt p 0 1)).fwReply it stOk 0 []
  else if !s.bridgeUp then s.draw.fwReply it stRefused (Config.free s.fresh) []
  else if t = tySeqCmd then
    let s := s.seqCommand (leAt p 0 1) (leAt p 2 2)
    s.fwCode it (s.get SEQ_CMD_STS.RESULT)
  else if t = tyTampClear then
    let r := leAt p 1 1 != 0 && !s.on KEY_PRES.OPEN
    let s := s.tampClear (leAt p 0 1) (leAt p 1 1)
    if r then s.draw.fwReply it stRefused (Config.free s.fresh) [] else s.fwReply it stOk 0 []
  else if t = tyPowerState then s.fwPower it
  else if t = tyTopReset then s.topRequest topHost
  else if t = tySettingCommit then s.fwSettings it
  else if t = tyWarmReset then s.warmRequest rstCmd
  else if t = tyMargin then s.fwMargin it
  else if t = tyAccordAccept then s.fwAccord it w
  else if t = tyKeyChange then s.fwKeys it w
  else if t = tyDebugUnlock then s.fwDebug it
  else s.fwLogClear it

/-- A flash write waits while NVM_HELD = 1, and then for the commits that were deferred (R116, R387). -/
def State.fwWaits (s : State) (it : RxItem) : Bool := it.type == tyAccordAccept && s.flashHeld

/-- The firmware takes the oldest message: marked taken, done, answered. One that was marked taken before is answered UNIT_LOST
(R361). -/
def State.fwTake (s : State) (w : WriteEnds) (it : RxItem) : State :=
  let rd := s.get SES_RXQ_PTR.RD
  let a := slotAt (s.get SES_RXQ_BASE.BASE) rd
  let taken := bitOf (memRead s.mem (a + 3)).toNat 0 && !s.textLocked a
  let s := (s.topStore (.core 1) (a + 3) [1]).set SES_RXQ_PTR.RD ((rd + 1) % 64)
  let s := s.modSes (fun x => { x with rxq := x.rxq.drop 1 })
  if taken then s.fwReply it stUnitLost 0 [] else s.fwDo it w

/-- The firmware task on C1 works the queue off while its core runs (R361, R402); the first argument bounds the steps. -/
def State.fwServe (w : WriteEnds) : Nat → State → State
  | 0, s => s
  | k + 1, s =>
    match s.ses.rxq with
    | [] => s
    | it :: _ => if s.coreRuns 1 && !s.fwWaits it then fwServe w k (s.fwTake w it) else s

/-- The whole queue. -/
def State.fwDrain (s : State) (w : WriteEnds) : State := State.fwServe w s.ses.rxq.length s

/-! ### A message (R351) -/

/-- An accepted message (R351): an Operator or Owner type kicks the host watchdog; then its unit. -/
def State.tmpAccept (s : State) (n t : Nat) (m : TmpMsg) (w : WriteEnds) : State :=
  let s := if 2 ≤ (tmpClass t).getD 0 then s.hwdtKick n else s
  if byFirmware t then (s.rxPush n t m).fwDrain w else s.engineDo n t m

/-- A complete message of an open session (R351 steps 3 to 10). `said` is the TYPE that it carries, which a refusal repeats (R353). -/
def State.tmpSession (s : State) (n t said : Nat) (m : TmpMsg) (w : WriteEnds) : State :=
  if !s.seqFresh n m.seq.toNat then s.bump SES_ERR0.REPLAY
  else
    let s := s.sesHeard n m
    let st := s.tmpCheck n t m
    if st = stOk then s.tmpAccept n t m w else (s.tmpCount st).reply n m.peer said m.seq.toNat st 0 []

/-- A complete message (R351 steps 2 to 10). It arrives by a port that is UP. -/
def State.tmpMessage (s : State) (t : Nat) (m : TmpMsg) (w : WriteEnds) : State :=
  if s.netLink m.peer.port.val then
    match s.sidOf m.sid.toNat with
    | some n => if s.isOpen n then s.tmpSession n t t m w else s
    | none => s
  else s

/-- A message row: what was sent before is forgotten. -/
def State.tmpRow (s : State) (t : Nat) (m : TmpMsg) (w : WriteEnds := {}) : State := s.sendBegin.tmpMessage t m w

def execHint (m : TmpMsg) (s : State) : Host.Outcome State Fault Refusal := .next (s.tmpRow tyHint m)
def execHintCancel (m : TmpMsg) (s : State) : Host.Outcome State Fault Refusal := .next (s.tmpRow tyHintCancel m)
def execTmpClose (m : TmpMsg) (s : State) : Host.Outcome State Fault Refusal := .next (s.tmpRow tyClose m)
def execPing (m : TmpMsg) (s : State) : Host.Outcome State Fault Refusal := .next (s.tmpRow tyPing m)
/-- `badDesc` names descriptors that the reads of the message find uncorrectable (R205). -/
def execReadStat (m : TmpMsg) (s : State) (badDesc : List (Fin 65536) := []) : Host.Outcome State Fault Refusal :=
  .next ((s.mapEccAll badDesc).tmpRow tyReadStat m)
def execSubscribe (m : TmpMsg) (s : State) : Host.Outcome State Fault Refusal := .next (s.tmpRow tySubscribe m)
def execFpStatement (m : TmpMsg) (s : State) : Host.Outcome State Fault Refusal := .next (s.tmpRow tyFpStatement m)
def execTmpStatus (m : TmpMsg) (s : State) : Host.Outcome State Fault Refusal := .next (s.tmpRow tyStatus m)
def execSetCap (m : TmpMsg) (s : State) : Host.Outcome State Fault Refusal := .next (s.tmpRow tySetCap m)
def execSetFloor (m : TmpMsg) (s : State) : Host.Outcome State Fault Refusal := .next (s.tmpRow tySetFloor m)
def execJob (m : TmpMsg) (s : State) : Host.Outcome State Fault Refusal := .next (s.tmpRow tyJob m)
def execSigInstall (m : TmpMsg) (s : State) : Host.Outcome State Fault Refusal := .next (s.tmpRow tySigInstall m)
def execSeqCmd (m : TmpMsg) (s : State) : Host.Outcome State Fault Refusal := .next (s.tmpRow tySeqCmd m)
def execTampClear (m : TmpMsg) (s : State) : Host.Outcome State Fault Refusal := .next (s.tmpRow tyTampClear m)
def execPowerState (m : TmpMsg) (s : State) : Host.Outcome State Fault Refusal := .next (s.tmpRow tyPowerState m)
def execTopReset (m : TmpMsg) (s : State) : Host.Outcome State Fault Refusal := .next (s.tmpRow tyTopReset m)
def execTmpWdtKick (m : TmpMsg) (s : State) : Host.Outcome State Fault Refusal := .next (s.tmpRow tyWdtKick m)
def execRecCtl (m : TmpMsg) (s : State) : Host.Outcome State Fault Refusal := .next (s.tmpRow tyRecCtl m)
def execSettingCommit (m : TmpMsg) (s : State) : Host.Outcome State Fault Refusal := .next (s.tmpRow tySettingCommit m)
def execWarmReset (m : TmpMsg) (s : State) : Host.Outcome State Fault Refusal := .next (s.tmpRow tyWarmReset m)
def execMargin (m : TmpMsg) (s : State) : Host.Outcome State Fault Refusal := .next (s.tmpRow tyMargin m)

def execAccordAccept (m : TmpMsg) (flashOk : Bool) (s : State) (uncorr : Option (BitVec 28) := none) :
    Host.Outcome State Fault Refusal :=
  .next (s.tmpRow tyAccordAccept m { flashOk := flashOk, uncorr := uncorr.map (·.toNat) })

/-- The message with an OP byte and 3 zero bytes ahead of its body (R372). -/
def keyOp (m : TmpMsg) (op : Nat) : TmpMsg := { m with payload := leBytes 4 op ++ m.payload }

def execKeyChangeAdd (m : TmpMsg) (otpOk : Bool) (s : State) : Host.Outcome State Fault Refusal :=
  .next (s.tmpRow tyKeyChange (keyOp m 1) { otpOk := otpOk })

def execKeyChangeRetire (m : TmpMsg) (s : State) : Host.Outcome State Fault Refusal := .next (s.tmpRow tyKeyChange (keyOp m 2))

/-- The message with an OP byte ahead of SCOPE, DURATION and signatures (R376). -/
def dbgOp (m : TmpMsg) (op : Nat) : TmpMsg := { m with payload := leBytes 1 op ++ m.payload }

def execDebugUnlockChallenge (m : TmpMsg) (s : State) : Host.Outcome State Fault Refusal := .next (s.tmpRow tyDebugUnlock (dbgOp m 1))
def execDebugUnlockResponse (m : TmpMsg) (s : State) : Host.Outcome State Fault Refusal := .next (s.tmpRow tyDebugUnlock (dbgOp m 2))
def execLogClear (m : TmpMsg) (s : State) : Host.Outcome State Fault Refusal := .next (s.tmpRow tyLogClear m)

/-- SES_TXQ_PTR.WR advanced by the firmware (R354). -/
def execReplySubmit (ini : Initiator) (wr : Fin 64) (s : State) : Host.Outcome State Fault Refusal :=
  .next (s.sendBegin.command ini SES_TXQ_PTR.WR.addr (fun s => s.txSubmit wr.val))

/-! ### Cores that the firmware's tasks run on (R377, R408) -/

/-- C1's restart over, its task finds the messages that waited (R361); C0's over, its supervisor the floors that changed (R355). -/
def execCoreResetRelease (c : Fin 4) (s : State) : Host.Outcome State Fault Refusal :=
  .next ((s.sendBegin.coreRelease c.val).floorCopy.fwDrain {})

/-- VIN_AO has recovered: writes that were held go on, a message that waited for one among them (R116, R387). -/
def execBowRecover (minMv mv : Fin 4096) (s : State) : Host.Outcome State Fault Refusal :=
  .next ((s.sendBegin.bowRecover minMv.val mv.val).fwDrain {})

/-- A commit ends (R118); with the last one that a dip deferred, image staging and a message that waited for it go on (R116, R387). -/
def execNvmCommitDone (s : State) : Host.Outcome State Fault Refusal :=
  let t := s.commitDone
  .next (if s.flashHeld && !t.flashHeld then t.sendBegin.fwDrain {} else t)

/-- The debug module may act on a core (R376, R377). -/
def State.dbgReaches (s : State) : DbgCore → Bool
  | .control _ => s.on KEY_STS.DBG_OPEN && bitOf (s.get KEY_DBG.SCOPE) 1 && s.bridgeUp
  | .keeper _ => s.on KEY_STS.DBG_OPEN && bitOf (s.get KEY_DBG.SCOPE) 0

/-- A core halted through the debug module (R377, R412). -/
def State.dbgHalt (s : State) : DbgCore → State
  | .control c => if s.coreRuns c.val then s.setCore c.val coreHalted else s
  | .keeper k => if s.pwr.keepersRun && !s.fw.kprHalt.contains k.val then s.modFw (fun f => { f with kprHalt := k.val :: f.kprHalt }) else s

/-- A halted core resumes. -/
def State.dbgResume (s : State) : DbgCore → State
  | .control c => if s.coreSt c.val = coreHalted then (s.setCore c.val coreRun).floorCopy.fwDrain {} else s
  | .keeper k => s.modFw (fun f => { f with kprHalt := f.kprHalt.filter (· != k.val) })

def execDebugHalt (core : DbgCore) (s : State) : Host.Outcome State Fault Refusal :=
  .next (if s.dbgReaches core then s.dbgHalt core else s)

def execDebugResume (core : DbgCore) (s : State) : Host.Outcome State Fault Refusal :=
  let s := s.sendBegin
  .next (if s.dbgReaches core then s.dbgResume core else s)

end Sys2Proof.Machine
end

