-- ==== Sys2Proof/Machine/Session.lean ====
section
/-! DEFINITION. TMP datagrams and handshakes (R339 to R346, R351 steps 1 to 3), closing (R347), and what the session engine sends of its
own accord (R358 to R360). -/

namespace Sys2Proof.Machine

/-! ### Handshakes (R343 to R346) -/

/-- TYPE codes of the handshake messages, which R352 does not list. -/
def tyOpenReq : Nat := Config.openType 0 % 0x10000
def tyOpenChal : Nat := Config.openType 1 % 0x10000
def tyOpenProof : Nat := Config.openType 2 % 0x10000
def tyOpenAck : Nat := Config.openType 3 % 0x10000
def tyOpenErr : Nat := Config.openType 4 % 0x10000

/-- The parts of an OPEN_REQ payload (R343). -/
def reqClasses (p : List Byte) : Nat := leAt p 32 1
def reqX25519 (p : List Byte) : List Byte := slice p 36 32
def reqMlkem (p : List Byte) : List Byte := slice p 68 1184
def reqEd (p : List Byte) : List Byte := slice p 1252 32
def reqMl (p : List Byte) : List Byte := slice p 1284 1952

/-- An OPEN_REQ payload is formed as R343 says. -/
def openReqForm (p : List Byte) : Bool := p.length == 3236 && reqClasses p < 8 && zeroAt p 33 3

/-- A handshake that fails is answered OPEN_ERR and counted (R345). -/
def State.openErr (s : State) (m : TmpMsg) (status : Nat) : State :=
  (s.bump SES_ERR2.HS_FAIL).sendTmp m.peer [] [] tyOpenErr 0 m.sid.toNat m.seq.toNat (leBytes 2 status)

/-- OPEN_REQ is refused with BUSY (R345 step 1, R346); so it is while no device signature can be made (R365, R377), the engines' clock
stopped or about to be (R88; log entry 49). -/
def State.openBusy (s : State) : Bool :=
  s.get SES_VER.MAJ == 0 || !s.on SES_CTL.OPEN_EN || !s.on KEY_STS.READY || s.on KEY_STS.DBG_OPEN || !s.bridgeUp
    || s.portShut 7 || 16 ≤ s.openSessions.length || 2 ≤ s.handshakes.length || 16 ≤ s.openSessions.length + s.handshakes.length

/-- The lowest FREE entry of the table. -/
def State.sesFreeIdx (s : State) : Nat := ((List.range 16).find? (fun n => s.sesState n == sesFree)).getD 0

/-- A session identifier that no entry uses and that is not 0: the first such from a free value on. -/
def State.sidPick (s : State) : Nat :=
  (((List.range 17).map (fun i => (Config.free s.fresh + i) % (2 ^ 32 - 1) + 1)).find? (fun v => (s.sidOf v).isNone)).getD 1

/-- OPEN_CHAL bytes 0 to 1,175 (R343): the numbers of the key exchange and the NONCE are drawn. -/
def State.chalHead (s : State) (sid : Nat) (p : List Byte) : List Byte :=
  leBytes 4 sid ++ leBytes 32 (Config.free (s.fresh + 3)) ++ padTo 1120 (Config.kexReply (s.fresh + 1) (reqX25519 p) (reqMlkem p))
    ++ s.unitId ++ leBytes 1 (s.get SES_VER.MAJ) ++ leBytes 1 (s.get SES_VER.MIN) ++ leBytes 2 0

/-- The handshake begins: OPEN_CHAL is sent (R343, R345 step 4). -/
def State.openChal (s : State) (m : TmpMsg) : State :=
  let p := m.payload
  let n := s.sesFreeIdx
  let sid := s.sidPick
  let head := s.chalHead sid p
  let th := sha (p ++ head)
  let sig := padTo 3373 (s.deviceSign (s.fresh + 2) th)
  let hs : Hs := { th2 := sha (th ++ sig), ikm := Config.kexSecret (s.fresh + 1) (reqX25519 p) (reqMlkem p), classes := reqClasses p,
                   edPub := reqEd p, mlPub := reqMl p }
  let s := s.draw.draw.draw.draw
  let s := (s.modSes (fun x => { x with sess := put n { keyDg := keyDigest (reqEd p) (reqMl p), peer := m.peer, hs := some hs } x.sess }))
  let s := s.setAll [(SESS_STS.STATE n, sesHandshake), (SESS_SID.SID n, sid), (SESS_STS.PORT n, m.peer.port.val),
    (SESS_STS.IPV6 n, b2n m.peer.v6)]
  s.sesSync.sendTmp m.peer [] [] tyOpenChal 0 sid m.seq.toNat (head ++ sig)

/-- OPEN_REQ (R345 steps 1 to 4). -/
def State.openReq (s : State) (m : TmpMsg) : State :=
  let p := m.payload
  if s.openBusy then s.openErr m stBusy
  else if !openReqForm p then (s.bump SES_ERR1.BAD_MSG).openErr m stBadMsg
  else
    match s.scopeIdx (keyDigest (reqEd p) (reqMl p)) with
    | none => s.openErr m stNokey
    | some i => if reqClasses p &&& leAt (s.scopeAt i) 3 1 = 0 then s.openErr m stClass else s.openChal m

/-- Keys and salts of both directions (R344). -/
def sesKeys (h : Hs) : List Byte :=
  padTo 70 (Config.hkdf h.ikm h.th2 [0x54, 0x38, 0x54, 0x4D, 0x50, 0x31, 0x20, 0x6B, 0x65, 0x79, 0x73])

/-- The OPEN_ACK payload (R343). -/
def State.ackPayload (s : State) (n status i : Nat) : List Byte :=
  leBytes 2 status ++ leBytes 2 0 ++ leBytes 1 (s.get (SESS_STS.CLASSES n)) ++ leBytes 1 (s.get (SESS_MASK.ACC_MASK n))
    ++ leBytes 1 (s.get (SESS_MASK.ZONE_MASK n)) ++ leBytes 1 (s.get (SESS_MASK.PUMP_MASK n)) ++ leBytes 1 i ++ leBytes 1 0
    ++ leBytes 2 (leAt (s.scopeAt i) 4 2)

/-- The session is granted (R345 step 7, R346): OPEN_ACK has the T8's SEQ 1. -/
def State.openGrant (s : State) (n i classes : Nat) (m : TmpMsg) (h : Hs) : State :=
  let mis := decide (m.vmaj.val ≠ s.get SES_VER.MAJ)
  let cls := if mis then clsObserver else classes
  let k := sesKeys h
  let s := s.modSess n (fun x =>
    { keyDg := x.keyDg, rxKey := slice k 0 32, txKey := slice k 32 32, rxSalt := slice k 64 3, txSalt := slice k 67 3, peer := m.peer,
      idleTs := s.now, evNext := s.sil.wseq })
  let s := (s.scopeTake n i).setAll [(SESS_STS.STATE n, sesOpen), (SESS_STS.CLASSES n, cls), (SESS_STS.MISMATCH n, b2n mis),
    (SESS_STS.PORT n, m.peer.port.val), (SESS_STS.IPV6 n, b2n m.peer.v6), (SESS_VER.VMAJ n, m.vmaj.val), (SESS_VER.VMIN n, m.vmin.val)]
  let s := (s.sesSync.set64 (SESS_OPEN_TS_LO.V n) (SESS_OPEN_TS_HI.V n) s.topNow).set SES_IRQ_STS.OPENED 1
  let s := s.sesSend n m.peer tyOpenAck 0 (s.ackPayload n (if mis then stVersion else stOk) i)
  (s.logTop EVT_SES_OPEN ACC_TRAY UNIT_SES n
    [(0, 4, s.get (SESS_SID.SID n)), (4, 1, cls), (5, 1, i), (6, 1, m.peer.port.val)]).a1Exit

/-- A handshake ends with OPEN_ERR and its entry is FREE again. -/
def State.openFail (s : State) (n : Nat) (m : TmpMsg) (status : Nat) : State := (s.sesErase n).openErr m status

/-- OPEN_PROOF of a session in HANDSHAKE (R345 steps 5 to 7). -/
def State.openProof (s : State) (n : Nat) (m : TmpMsg) : State :=
  match (s.sess n).hs with
  | none => s
  | some h =>
    if m.payload.length ≠ 3373 then (s.bump SES_ERR1.BAD_MSG).openFail n m stBadMsg
    else if s.portShut 7 then s.openFail n m stBusy
    else if !bothVerify h.edPub h.mlPub h.th2 m.payload then s.openFail n m stBadsig
    else
      match s.scopeIdx (s.sess n).keyDg with
      | none => s.openFail n m stNokey
      | some i =>
        let cls := h.classes &&& leAt (s.scopeAt i) 3 1
        if cls = 0 then s.openFail n m stClass else s.openGrant n i cls m h

/-- A complete OPEN_REQ; its SID is 0 (R340). -/
def State.openReqRow (s : State) (m : TmpMsg) : State :=
  if s.netLink m.peer.port.val && m.sid == 0 then s.openReq m else s

/-- A complete OPEN_PROOF. -/
def State.openProofRow (s : State) (m : TmpMsg) : State :=
  if s.netLink m.peer.port.val then
    match s.sidOf m.sid.toNat with
    | some n => if s.sesState n = sesHandshake then s.openProof n m else s
    | none => s
  else s

def execOpenReq (m : TmpMsg) (s : State) : Host.Outcome State Fault Refusal := .next (s.sendBegin.openReqRow m)

def execOpenProof (m : TmpMsg) (s : State) : Host.Outcome State Fault Refusal := .next (s.sendBegin.openProofRow m)

def execOpenProofTimeout (n : Fin 16) (s : State) : Host.Outcome State Fault Refusal :=
  .next (if s.sesState n.val = sesHandshake then s.hsAbandon n.val else s)

/-! ### Datagrams (R339 to R342, R351 steps 1 to 3) -/

/-- The header of a datagram (R340), with its payload. -/
structure Frag where
  vmaj : Nat
  vmin : Nat
  type : Nat
  flags : Nat
  sid : Nat
  seq : Nat
  fidx : Nat
  fcnt : Nat
  head : List Byte
  body : List Byte
deriving DecidableEq, Repr

/-- The fragment that a datagram holds (R351 step 1); none where it does not agree with itself. -/
def fragOf (d : List Byte) : Option Frag :=
  let f : Frag :=
    { vmaj := leAt d 2 1, vmin := leAt d 3 1, type := leAt d 4 2, flags := leAt d 6 2, sid := leAt d 8 4, seq := leAt d 12 8,
      fidx := leAt d 20 1, fcnt := leAt d 21 1, head := d.take 24, body := d.drop 24 }
  if 24 ≤ d.length ∧ d.take 2 = [0x54, 0x38] ∧ f.flags < 4 ∧ f.fidx < f.fcnt ∧ f.fcnt ≤ 16 ∧ 24 + leAt d 22 2 = d.length
      ∧ (f.flags < 2 ∨ 16 ≤ f.body.length) ∧ f.seq ≠ 0 then some f
  else none

/-- The message that a fragment, or an expiry, belongs to. SID 0 is told apart by its source. -/
def Partial.of (p : Partial) (peer : Option Peer) (sid seq : Nat) : Bool :=
  p.sid == sid && p.seq == seq && (sid != 0 || some p.peer == peer)

/-- The fields that the fragments of one message share. -/
def Partial.agrees (p : Partial) (f : Frag) : Bool :=
  p.vmaj == f.vmaj && p.vmin == f.vmin && p.type == f.type && p.flags == f.flags && p.fcnt == f.fcnt

/-- A message of one fragment so far. -/
def partialOf (peer : Peer) (f : Frag) : Partial :=
  { peer := peer, vmaj := f.vmaj, vmin := f.vmin, type := f.type, flags := f.flags, sid := f.sid, seq := f.seq, fcnt := f.fcnt,
    frags := [] }

/-- The complete message of a partial one. -/
def Partial.msg (p : Partial) (peer : Peer) : TmpMsg :=
  { peer := peer, vmaj := Fin.ofNat 256 p.vmaj, vmin := Fin.ofNat 256 p.vmin, sid := BitVec.ofNat 32 p.sid, seq := BitVec.ofNat 64 p.seq,
    payload := p.frags.flatMap (·.2) }

/-- A complete message goes to its check. RESP in a message from a host makes its type one that is not defined for it (R351 step 5); the
answer repeats the type that it carries. -/
def State.fragComplete (s : State) (p : Partial) (peer : Peer) : State :=
  let m := p.msg peer
  if p.sid = 0 then s.openReq m
  else
    match s.sidOf p.sid with
    | none => s
    | some n =>
      if s.isOpen n then s.tmpSession n (if p.flags % 2 = 1 then 0xFFFF else p.type) p.type m {}
      else if s.sesState n = sesHandshake then s.openProof n m
      else s

/-- A fragment joins its message (R341): fragments that do not agree are bad, duplicates are dropped. -/
def State.fragAdd (s : State) (peer : Peer) (f : Frag) (body : List Byte) : State :=
  let p := (s.ses.parts.find? (·.of (some peer) f.sid f.seq)).getD (partialOf peer f)
  let rest := s.ses.parts.filter (fun q => !q.of (some peer) f.sid f.seq)
  if !p.agrees f then s.bump (NET_DROP.BAD peer.port.val)
  else if (look f.fidx p.frags).isSome then s
  else
    let p := { p with frags := put f.fidx body p.frags }
    if p.frags.length = p.fcnt then (s.modSes (fun x => { x with parts := rest })).fragComplete p peer
    else s.modSes (fun x => { x with parts := rest ++ [p] })

/-- A fragment at its session: in the clear for a handshake, sealed for an open session (R342). -/
def State.fragSession (s : State) (peer : Peer) (f : Frag) : State :=
  let enc := decide (2 ≤ f.flags)
  if f.sid = 0 then (if f.type = tyOpenReq ∧ !enc then s.fragAdd peer f f.body else s)
  else
    match s.sidOf f.sid with
    | none => s
    | some n =>
      if s.isOpen n then
        let x := s.sess n
        match (if enc then Config.gcmOpen x.rxKey (tmpNonce x.rxSalt f.fidx f.seq) f.head f.body else none) with
        | none => s.bump SES_ERR0.AUTH_FAIL
        | some b => s.fragAdd peer f b
      else if f.type = tyOpenProof ∧ !enc then s.fragAdd peer f f.body
      else s

/-- A datagram for UDP port 7421 (R339, R351). Frames carry the port's 802.1Q tag or none; one with another tag is for another address
(R337; log entry 40). -/
def State.fragRx (s : State) (peer : Peer) (d : List Byte) : State :=
  let n := peer.port.val
  if !s.netLink n then s
  else if peer.vid ≠ s.netTag n then s.bump (NET_DROP.OTHER n)
  else if !(if peer.v6 then s.on (NET_CFG.V6 n) else s.on (NET_CFG.V4 n)) then s.bump (NET_DROP.OTHER n)
  else
    match fragOf d with
    | none => s.bump (NET_DROP.BAD n)
    | some f => (s.set (NET_RX.CNT n) (s.get (NET_RX.CNT n) + 1)).fragSession peer f

def execFragmentRx (peer : Peer) (datagram : List Byte) (s : State) (fec : FecCount := {}) : Host.Outcome State Fault Refusal :=
  .next ((s.sendBegin.fecCount peer.port.val fec).fragRx peer datagram)

/-- 100 ms have passed since the first fragment of a message (R341). -/
def execReassemblyTimeout (sid : BitVec 32) (seq : BitVec 64) (s : State) (peer : Option Peer := none) : Host.Outcome State Fault Refusal :=
  .next (s.modSes (fun x => { x with parts := x.parts.filter (fun p => !p.of peer sid.toNat seq.toNat) }))

/-! ### Timers and commands (R347, R357, R363) -/

def execJobHoldExpiry (n : Fin 16) (s : State) : Host.Outcome State Fault Refusal :=
  .next (if s.get (SESS_STS.JOB n.val) = jobBoundary then s.jobSet n.val jobRunning else s)

def execIdleTimeout (n : Fin 16) (s : State) : Host.Outcome State Fault Refusal := .next (s.sesClose n.val closeIdle)

/-- SES_CTL.CLOSE_ALL (R347). -/
def State.closeEvery (s : State) : State := s.openSessions.foldl (fun s n => s.sesClose n closeAll) s

def execCloseAll (ini : Initiator) (s : State) : Host.Outcome State Fault Refusal :=
  .next (s.command ini SES_CTL.CLOSE_ALL.addr State.closeEvery)

def execSesCntClr (ini : Initiator) (s : State) : Host.Outcome State Fault Refusal :=
  .next (s.command ini SES_CNT_CLR.CLR.addr (fun s =>
    s.setAll [(SES_ERR0.AUTH_FAIL, 0), (SES_ERR0.REPLAY, 0), (SES_ERR1.BAD_MSG, 0), (SES_ERR1.DENIED, 0), (SES_ERR2.HS_FAIL, 0),
      (SES_ERR2.RXQ_FULL, 0)]))

/-! ### Heartbeats (R358, R359) -/

/-- A HEARTBEAT to every open session. It is assembled from Base-die state, which the Bridge carries. -/
def State.heartbeat (s : State) : State :=
  if s.bridgeUp then s.openSessions.foldl (fun t n => t.sesSend n (t.sess n).peer tyHeartbeat 0 (s.hbPayload n)) s else s

def execHeartbeat (s : State) : Host.Outcome State Fault Refusal := .next s.sendBegin.heartbeat

/-! ### Deliveries (R360) -/

/-- A session may be sent a record: its source is an accelerator of the session's ACC_MASK, or none. -/
def State.evWanted (s : State) (n : Nat) (r : Rec) : Bool :=
  let a := srcAcc r.src
  8 ≤ a || bitOf (s.get (SESS_MASK.ACC_MASK n)) a

/-- Up to k records from number q on, as bytes, and the number after the last one looked at; the first argument bounds the steps. -/
def State.evPick (s : State) (n : Nat) : Nat → Nat → Nat → List Byte × Nat
  | 0, _, q => ([], q)
  | _, 0, q => ([], q)
  | fuel + 1, k + 1, q =>
    if q = s.sil.wseq then ([], q)
    else
      let nx := (q + 1) % 2 ^ 32
      match look (q % 16384) s.sil.ring with
      | none => s.evPick n fuel (k + 1) nx
      | some r =>
        if s.evWanted n r then
          let t := s.evPick n fuel k nx
          (recBytes r ++ t.1, t.2)
        else s.evPick n fuel (k + 1) nx

/-- The oldest record number that is still in the ring, or the session's next one. -/
def State.evFrom (s : State) (n : Nat) : Nat :=
  let q := (s.sess n).evNext
  if 16384 < (s.sil.wseq + 2 ^ 32 - q) % 2 ^ 32 then (s.sil.wseq + 2 ^ 32 - 16384) % 2 ^ 32 else q

/-- One EVENT message of 1 to 16 records. -/
def State.evDeliver (s : State) (n : Nat) : State :=
  let p := (s.sess n).peer
  if s.on (SESS_STS.EVENTS n) && s.bridgeUp && s.netLink p.port.val then
    let r := s.evPick n 16384 16 (s.evFrom n)
    let t := s.modSess n (fun x => { x with evNext := r.2 })
    if r.1.isEmpty then t else t.sesSend n p tyEvent 0 r.1
  else s

def execEventDelivery (n : Fin 16) (s : State) : Host.Outcome State Fault Refusal := .next (s.sendBegin.evDeliver n.val)

/-- A ring buffer holds what its header says (R213, R214). -/
def bufValid (q : Nat) (b : List Byte) : Bool :=
  let nrec := leAt b 4 4
  leAt b 0 4 == q && 1 ≤ nrec && nrec ≤ 63 && leAt b 60 4 == crc32c (b.take 60 ++ slice b 64 (64 * nrec))

/-- Some buffer is valid, and the buffer number lies between TFAB_REC_FIRST and TFAB_REC_SEQ (R214). -/
def State.bufInRange (s : State) (q : Nat) : Bool :=
  let first := s.get TFAB_REC_FIRST.FIRST
  let last := s.get TFAB_REC_SEQ.LAST
  (last + 1) % 2 ^ 32 != first && (q + 2 ^ 32 - first) % 2 ^ 32 ≤ (last + 2 ^ 32 - first) % 2 ^ 32

/-- The recorder discards a buffer (R219): a closed one of the ring, or the open one, which then closes as discarded. -/
def State.bufDiscard (s : State) (q : Nat) : State :=
  s.modTel (fun t => { t with gone := q :: t.gone.filter (fun k => k != q && (s.bufInRange k || k == s.openSeq)) })

/-- The bytes of a ring buffer hold the address. -/
def State.inBuf (s : State) (q a : Nat) : Bool := decide (s.bufAddr q ≤ a ∧ a < s.bufAddr q + 4096)

/-- The number of the open buffer, or of the valid one, that an address of LPDDR5X lies in. -/
def State.bufOf (s : State) (a : Nat) : Option Nat :=
  let n := max 1 (s.get TFAB_REC_SIZE.NBUF)
  let last := s.get TFAB_REC_SEQ.LAST
  let place := a / 0x1000 - (0x1000000 + s.get TFAB_REC_BASE.BASE)
  let q := (last + 2 ^ 32 - (last % n + n - place) % n) % 2 ^ 32
  if s.tel.buf.isSome && s.inBuf s.openSeq a then some s.openSeq
  else if s.bufInRange q && s.inBuf q a then some q
  else none

/-- One REC_BUF message (R360). -/
def State.recSend (s : State) (n q skip : Nat) (b : List Byte) : State :=
  let s := s.modSess n (fun x => { x with recNext := (q + 1) % 2 ^ 32, recSkip := 0 })
  s.sesSend n (s.sess n).peer tyRecBuf 0 (leBytes 4 (b2n (skip != 0)) ++ leBytes 4 skip ++ b)

/-- Buffers from number q on: the first valid one is sent; one that an uncorrectable read or its CRC discards, or has, is passed over. The
first argument bounds the steps. -/
def State.recNextBuf (s : State) (n : Nat) (uncorr : Option Nat) : Nat → Nat → Nat → State
  | 0, q, skip => s.modSess n (fun x => { x with recNext := q, recSkip := skip })
  | k + 1, q, skip =>
    if !s.bufInRange q then s.modSess n (fun x => { x with recNext := q, recSkip := skip })
    else
      if s.tel.gone.contains q then s.recNextBuf n uncorr k ((q + 1) % 2 ^ 32) (skip + 1)
      else
      match uncorr with
      | some o => ((s.lpUncorr (s.bufAddr q + o)).bufDiscard q).recNextBuf n none k ((q + 1) % 2 ^ 32) (skip + 1)
      | none =>
        let b := memBytes s.mem (s.bufAddr q) 4096
        if bufValid q b then s.recSend n q skip b
        else ((s.logTop EVT_REC_CRC ACC_TRAY UNIT_TFAB 0 [(0, 4, q)]).bufDiscard q).recNextBuf n none k ((q + 1) % 2 ^ 32) (skip + 1)

/-- A closed buffer for a subscriber: the next one, or the oldest one that is still valid (R360). A number that no buffer has reached
yet waits for it, and everything waits while LPDDR5X takes no reads (R87, R88; log entry 49). -/
def State.recDeliver (s : State) (n : Nat) (uncorr : Option Nat) : State :=
  let x := s.sess n
  if s.on (SESS_STS.RECORDER n) && s.netLink x.peer.port.val && s.on LPC_STS.INIT_DONE && !s.portShut 4 then
    let first := s.get TFAB_REC_FIRST.FIRST
    let last := s.get TFAB_REC_SEQ.LAST
    if (x.recNext + 2 ^ 32 - (last + 1)) % 2 ^ 32 < 2 ^ 31 ∨ (last + 1) % 2 ^ 32 = first then s
    else
      let q := if s.bufInRange x.recNext then x.recNext else first
      s.recNextBuf n uncorr ((last + 2 ^ 32 - first) % 2 ^ 32 + 1) q (x.recSkip + (q + 2 ^ 32 - x.recNext) % 2 ^ 32)
  else s

def execRecBufDelivery (n : Fin 16) (uncorr : Option (Fin 4096)) (s : State) : Host.Outcome State Fault Refusal :=
  .next (s.sendBegin.recDeliver n.val (uncorr.map (·.val)))

end Sys2Proof.Machine
end

