-- ==== Sys2Proof/Machine/Net.lean ====
section
/-! DEFINITION. The NET ports' link and the frames that ports answer themselves (R337, R338, R362, R381). -/

namespace Sys2Proof.Machine

def execNetStart (ini : Initiator) (n : Fin 2) (s : State) : Host.Outcome State Fault Refusal :=
  .next (s.command ini (NET_CTL.START n.val).addr (fun s => s.netStart n.val))

/-- NETn_CTL.RETRAIN restarts auto-negotiation and training of a port that has been started (R362). -/
def State.netRetrain (s : State) (n : Nat) : State :=
  if s.get (NET_STS.STATE n) = netOff then s else (s.netTo n netWait).netGo n

def execNetRetrain (ini : Initiator) (n : Fin 2) (s : State) : Host.Outcome State Fault Refusal :=
  .next (s.command ini (NET_CTL.RETRAIN n.val).addr (fun s => s.netRetrain n.val))

/-- Training ends: the port is UP. -/
def State.netUpDone (s : State) (n : Nat) : State :=
  let st := s.get (NET_STS.STATE n)
  if st = netAn ∨ st = netTrain then
    s.setAll [(NET_STS.STATE n, netUp), (NET_STS.FEC_LOCK n, 1), (NET_STS.PMD_ACT n, s.get (NET_CFG.PMD n))]
  else s

def execNetLinkUp (n : Fin 2) (s : State) : Host.Outcome State Fault Refusal := .next (s.netUpDone n.val)

/-- A port that is UP drops link and begins again; an attempt fails and waits 100 ms (R338). NET0's receiver then no longer
recovers a clock (R82). -/
def State.netDrop (s : State) (n : Nat) : State :=
  let st := s.get (NET_STS.STATE n)
  let s :=
    if st = netUp then (s.netTo n netWait).netGo n
    else if st = netAn ∨ st = netTrain then s.netTo n netWait
    else s
  if n = 0 ∧ st ≠ netOff ∧ st ≠ netWait ∧ s.on CLK_CTL.REF_SEL then s.recoveredLost else s

def execNetLinkDown (n : Fin 2) (s : State) : Host.Outcome State Fault Refusal := .next (s.netDrop n.val)

/-- 100 ms after a failed attempt. -/
def execNetRetry (n : Fin 2) (s : State) : Host.Outcome State Fault Refusal :=
  .next (if s.get (NET_STS.STATE n.val) = netWait then s.netGo n.val else s)

def execNetCntClr (ini : Initiator) (n : Fin 2) (s : State) : Host.Outcome State Fault Refusal :=
  .next (s.command ini (NET_CNT_CLR.CLR n.val).addr (fun s =>
    s.setAll [(NET_FEC.CORR n.val, 0), (NET_FEC.UNCORR n.val, 0), (NET_RX.CNT n.val, 0), (NET_DROP.BAD n.val, 0),
      (NET_DROP.OTHER n.val, 0), (NET_LINK.DOWN n.val, 0)]))

/-! ### Frames that a port answers (R337, R381) -/

/-- An address held in four register words, first octets first (R362). -/
def v6Of (w : Nat → Nat) : Nat := ((w 0 * 2 ^ 32 + w 1) * 2 ^ 32 + w 2) * 2 ^ 32 + w 3

/-- The link-local address of SVC, from its MAC address by modified EUI-64 (R381). -/
def State.svcLinkLocal (s : State) : Nat :=
  let hi := s.get SVC_MAC_HI.MAC % 2 ^ 16
  let lo := s.get SVC_MAC_LO.MAC
  0xFE80 * 2 ^ 112 + (hi ^^^ 0x0200) * 2 ^ 48 + lo / 2 ^ 24 * 2 ^ 40 + 0xFFFE * 2 ^ 24 + lo % 2 ^ 24

/-- An address belongs to a NET port or to SVC. -/
def State.ownAddr (s : State) (port : Nat) (v6 : Bool) (ip : Nat) : Bool :=
  if port < 2 then
    if v6 then s.on (NET_CFG.V6 port) && ip == v6Of (fun k => s.get (NET_V6.ADDR port k))
    else s.on (NET_CFG.V4 port) && ip == s.get (NET_V4.ADDR port)
  else if v6 then ip == s.svcLinkLocal || s.on SVC_CFG.V6 && ip == v6Of (fun k => s.get (SVC_V6.ADDR k))
  else s.on SVC_CFG.V4 && ip == s.get SVC_V4.ADDR

/-- The port's hardware answers a frame. -/
def State.portAnswer (s : State) (port : Nat) (f : ServiceFrame) : State :=
  s.emit (.answer port (s.netTag port) f)

/-- A frame that is not TMP or image transfer: answered, or dropped and counted, one with another tag than the port's among them (R337);
SVC has no drop counters. -/
def State.serviceFrame (s : State) (port : Nat) (vid : Option (BitVec 12)) (f : ServiceFrame) : State :=
  if !(if port < 2 then s.netLink port else s.svcRuns) then s
  else
    let dropped (c : Fld) : State := if port < 2 then s.bump c else s
    if f ≠ .bad ∧ vid ≠ s.netTag port then dropped (NET_DROP.OTHER port)
    else match f with
    | .resolve v6 ip => if s.ownAddr port v6 ip.toNat then s.portAnswer port f else dropped (NET_DROP.OTHER port)
    | .echo v6 ip => if s.ownAddr port v6 ip.toNat then s.portAnswer port f else dropped (NET_DROP.OTHER port)
    | .bad => dropped (NET_DROP.BAD port)
    | .other => dropped (NET_DROP.OTHER port)

def execNetServiceFrame (port : Fin 3) (frame : ServiceFrame) (s : State) (vid : Option (BitVec 12) := none) (fec : FecCount := {}) :
    Host.Outcome State Fault Refusal :=
  .next ((s.sendBegin.fecCount port.val fec).serviceFrame port.val vid frame)

end Sys2Proof.Machine
end

