-- ==== Sys2Proof/Machine/View.lean ====
section
/-! DEFINITION. What a read of a register shows (R9, R10): fields in their places, and the fields whose value a unit holds in its
own structures, or derives from other state or from the timestamp. -/

namespace Sys2Proof.Machine

/-- The 32-bit word w of a byte string. -/
def wordAt (bs : List Byte) (w : Nat) : Nat := leAt bs (4 * w) 4

/-- RailState as SEQ_RAIL_STSr codes it (R282). -/
def railCode : RailState → Nat
  | .off => 0
  | .wait => 1
  | .ramp => 2
  | .on => 3
  | .stop => 4
  | .disch => 5
  | .failed => 6

/-- The selected capture (R282). -/
def State.capSel (s : State) : Option Capture := s.seq.caps[s.get SEQ_FFR_SEL.IDX]?

/-- A number out of the selected capture; 0 where there is none. -/
def State.capNum (s : State) (f : Capture → Nat) : Nat := (s.capSel.map f).getD 0

/-- Milliseconds of a watchdog period code (R412, R413). -/
def wdtMs (code : Nat) : Nat := [50, 100, 200, 500, 1000, 2000, 5000, 10000].getD code 0

/-- What is left of a span in ns that began at a timestamp. -/
def State.leftNs (s : State) (span start : Nat) : Nat := span - (s.now - start)

/-- INF_UTIL of one cluster, in 1/256 (R163), rounded down (DESIGN CHOICE, log entry 50: the rule gives no rounding). -/
def State.clUtil (s : State) (c : Nat) : Nat :=
  let x := s.clShares c none
  min 0xFF (256 * x.1 / x.2)

/-- Fields of the sequencer (R282). -/
def State.viewSeq (s : State) (a : Nat) : List (Fld × Nat) :=
  let q := s.seq
  if a = SEQ_STS.BUSY.addr then [(SEQ_STS.BUSY, b2n s.seqBusy), (SEQ_STS.OP, q.op)]
  else if a = SEQ_GRP_STS.STATE.addr then [(SEQ_GRP_STS.STATE, (List.range 9).foldl (fun v g => v + s.groupState g * 2 ^ (3 * g)) 0)]
  else if a = SEQ_EN_LO.EN.addr then [(SEQ_EN_LO.EN, q.enLvl % 2 ^ 32)]
  else if a = SEQ_EN_HI.EN.addr then [(SEQ_EN_HI.EN, q.enLvl / 2 ^ 32)]
  else if a = SEQ_PG_LO.PG.addr then [(SEQ_PG_LO.PG, s.pgSeen % 2 ^ 32)]
  else if a = SEQ_PG_HI.PG.addr then [(SEQ_PG_HI.PG, s.pgSeen / 2 ^ 32)]
  else if a = SEQ_RSTO.ASSERTED.addr then [(SEQ_RSTO.ASSERTED, q.rsto)]
  else if a = SEQ_FFR_INFO.RAIL.addr then
    [(SEQ_FFR_INFO.RAIL, (s.capSel.map (·.rail)).getD 0x7F), (SEQ_FFR_INFO.CAUSE, s.capNum (·.cause)),
     (SEQ_FFR_INFO.GROUP, s.capNum (·.group)), (SEQ_FFR_INFO.OP, s.capNum (·.op)), (SEQ_FFR_INFO.FB, s.capNum (fun c => b2n c.fb)),
     (SEQ_FFR_INFO.LATER, s.capNum (·.later))]
  else if a = SEQ_FFR_TS_LO.TS.addr then [(SEQ_FFR_TS_LO.TS, s.capNum (·.ts) % 2 ^ 32)]
  else if a = SEQ_FFR_TS_HI.TS.addr then [(SEQ_FFR_TS_HI.TS, s.capNum (·.ts) / 2 ^ 32)]
  else if a = SEQ_FFR_EN_LO.EN.addr then [(SEQ_FFR_EN_LO.EN, s.capNum (·.en) % 2 ^ 32)]
  else if a = SEQ_FFR_EN_HI.EN.addr then [(SEQ_FFR_EN_HI.EN, s.capNum (·.en) / 2 ^ 32)]
  else if a = SEQ_FFR_PG_LO.PG.addr then [(SEQ_FFR_PG_LO.PG, s.capNum (·.pg) % 2 ^ 32)]
  else if a = SEQ_FFR_PG_HI.PG.addr then [(SEQ_FFR_PG_HI.PG, s.capNum (·.pg) / 2 ^ 32)]
  else if a = SEQ_FFR_DATA.T_EN.addr then [(SEQ_FFR_DATA.T_EN, s.capNum (·.tEn)), (SEQ_FFR_DATA.AIN, s.capNum (·.ain))]
  else if 0x20020400 ≤ a ∧ a < 0x20020800 then
    let n := (a - 0x20020400) / 4
    match s.rail n with
    | none => []
    | some r => [(SEQ_RAIL_STS.STATE n, railCode r.st), (SEQ_RAIL_STS.PG n, b2n r.pg), (SEQ_RAIL_STS.CHAT n, min 15 r.chat),
        (SEQ_RAIL_STS.MSTEPS n, unsgn 7 r.msteps), (SEQ_RAIL_STS.RAMP_T n, r.rampT)]
  else if 0x20020800 ≤ a ∧ a < 0x20021800 then
    let n := (a - 0x20020800) / 32
    let w := (a - 0x20020800) % 32 / 4
    match s.rail n with
    | none => []
    | some r => [(SEQ_RAIL_CFG.ENTRY n w, wordAt (railBytes r.cfg) w)]
  else if 0x20021800 ≤ a ∧ a < 0x20021900 then
    let k := (a - 0x20021800) / 8
    let w := (a - 0x20021800) % 8 / 4
    match q.rstos.find? (fun c => c.rsto == k) with
    | none => []
    | some c => [(SEQ_RSTO_CFG.ENTRY k w, wordAt (rstoBytes c) w)]
  else if 0x20021900 ≤ a ∧ a < 0x20021920 then
    let w := (a - 0x20021900) / 4
    [(SEQ_GRAPH_HDR.HDR w, if q.rails.isEmpty then 0 else wordAt (hdrBytes q.hdr) w)]
  else []

/-- Fields of Sillage (R430). -/
def State.viewSil (s : State) (a : Nat) : List (Fld × Nat) :=
  let x := s.sil
  if a = SIL_CTL.FREEZE.addr then [(SIL_CTL.FREEZE, b2n x.frozen), (SIL_CTL.RECOV, b2n x.recov)]
  else if a = SIL_STS.MODE.addr then
    [(SIL_STS.MODE, x.mode (s.on SEQ_CTL.TEST)), (SIL_STS.FROZEN, b2n x.frozen), (SIL_STS.FULL, b2n x.full),
     (SIL_STS.QFULL, b2n x.qfull), (SIL_STS.NVM_LOST, b2n x.nvmLostFlag)]
  else if a = SIL_WSEQ.NEXT.addr then [(SIL_WSEQ.NEXT, x.wseq)]
  else if a = SIL_FLOOD_SEQ.FIRST.addr then [(SIL_FLOOD_SEQ.FIRST, x.floodSeq)]
  else if a = SIL_NVM.KEPT.addr then [(SIL_NVM.KEPT, s.nvm.kept.length), (SIL_NVM.LOST, x.nvmLost)]
  else if a = SIL_UNLISTED.OVERFLOW.addr then [(SIL_UNLISTED.OVERFLOW, x.unlistedOvf), (SIL_UNLISTED.AO_LOST, x.aoLost)]
  else if 0x20060040 ≤ a ∧ a < 0x20060080 then
    let w := (a - 0x20060040) / 4
    match s.nvm.kept[s.get SIL_NVM_SEL.IDX]? with
    | none => []
    | some r => [(SIL_NVM_REC.DATA w, wordAt (recBytes r.2) w)]
  else if 0x20060100 ≤ a ∧ a < 0x20060180 then
    let g := (a - 0x20060100) / 4
    match x.groups[g]? with
    | none => []
    | some q => [(SIL_GRP.OPEN g, b2n q.win.isSome), (SIL_GRP.HELD g, b2n q.held.isSome),
        (SIL_GRP.COUNT g, (q.win.map (·.count)).getD 0)]
  else if 0x20060180 ≤ a ∧ a < 0x20060200 then
    let g := (a - 0x20060180) / 4
    match x.win g with
    | none => []
    | some w => [(SIL_GRP_PARENT.PARENT g, w.parent)]
  else if 0x20064000 ≤ a ∧ a < 0x20070000 then
    let n := (a - 0x20064000) / 16
    match x.codes[n]? with
    | none => []
    | some e => [(SIL_CODE_CFG0.CODE n, e.code), (SIL_CODE_CFG0.GROUP n, e.group), (SIL_CODE_CFG0.PERSIST n, b2n e.persist),
        (SIL_CODE_CFG0.PARENT n, b2n e.parent), (SIL_CODE_CFG1.RATE n, e.rate), (SIL_CODE_CFG1.BURST n, e.burst),
        (SIL_CODE_CFG1.TOKENS n, e.tokens), (SIL_CODE_CNT.SUPPRESSED n, e.supp), (SIL_CODE_CNT.OVERFLOW n, e.ovf)]
  else []

/-- Fields of Tamp and the cooling controller (R251, R312). -/
def State.viewTamp (s : State) (a : Nat) : List (Fld × Nat) :=
  if a = TAMP_STS.DIG_RUN.addr then [(TAMP_STS.DIG_RUN, b2n s.digRun), (TAMP_STS.SUSPEND, b2n s.suspended)]
  else if a = TAMP_BRK.BRAKE.addr then
    [(TAMP_BRK.BRAKE, maskOf 8 s.braked), (TAMP_BRK.THROT, maskOf 8 s.throttled), (TAMP_BRK.BLACK, s.get SEQ_LATCH.BLACK)]
  else if a = COOL_STS.FORCED.addr then
    [(COOL_STS.FORCED, b2n s.coolForced), (COOL_STS.F_CWDT, s.get COOL_CWDT_STS.TRIP), (COOL_STS.F_HWDT, s.get COOL_HWDT_STS.EXPIRED),
     (COOL_STS.LEAK_ACTIVE, b2n ((List.range 16).any (fun k => s.on (COOL_LK_STS.ACTIVE k))))]
  else if a = (TAMP_TEMP.TEMP 4).addr then [(TAMP_TEMP.TEMP 4, s.tempOf 4)]
  else if a = COOL_HWDT_STS.REMAIN.addr then [(COOL_HWDT_STS.REMAIN, s.hwdtRemain)]
  else
    match instOf COOL_FAN_DUTY.LOOP 24 a with
    | some n => [(COOL_FAN_DUTY.LOOP n, (s.ch n).loop), (COOL_FAN_DUTY.PRE n, s.preBoost n)]
    | none => []

/-- Fields of the two-wire ports (R336): in safe mode a port that would run shows that it is paused (R78, R333; log entry 35). What other
controllers do on the segment no command says: an idle port shows IDLE or another controller's transaction, and the levels of lines that the
T8 does not hold itself are free. A port that is off shows released lines. -/
def State.viewTw (s : State) (a : Nat) : List (Fld × Nat) :=
  match instOf TW_STS.STATE 12 a with
  | none => []
  | some n =>
    let st := s.get (TW_STS.STATE n)
    let scl := (TW_STS.SCL n, Config.free s.fresh % 2)
    let sda := (TW_STS.SDA n, Config.free (s.fresh + 1) % 2)
    (if s.safeMode && 1 ≤ st && st ≤ 3 then [(TW_STS.STATE n, 7)]
      else if st = 1 then [(TW_STS.STATE n, 1 + 2 * (Config.free (s.fresh + 2) % 2))] else [])
      ++ (if st = 0 || st = 4 then [] else if st = 3 then [sda] else [scl, sda])

/-- Fields of the NET and SVC ports (R338, R362, R381, R395): auto-negotiation goes over into training without a command, and what the PHY of
SVC reports is free while the port runs. -/
def State.viewNet (s : State) (a : Nat) : List (Fld × Nat) :=
  if a = SVC_STS.LINK.addr then
    if s.svcRuns then [(SVC_STS.LINK, Config.free s.fresh % 2), (SVC_STS.SPEED, Config.free (s.fresh + 1) % 3)] else []
  else
    match instOf NET_STS.STATE 2 a with
    | some n => if s.get (NET_STS.STATE n) = netAn then [(NET_STS.STATE n, netAn + Config.free s.fresh % 2)] else []
    | none => []

/-- FW_CORE_STS (R412): whether a core that runs waits for an interrupt no command says. -/
def State.viewCores (s : State) : List (Fld × Nat) :=
  [(FW_CORE_STS.STATE, (List.range 4).foldl (fun v c =>
    v + 16 ^ c * (if s.coreRuns c then coreRun + Config.free (s.fresh + c) % 2 else s.coreSt c)) 0)]

/-- A read of the register shows what no command says: the levels of a segment's lines, what an outside PHY reports, how far a link has come,
whether a core waits. -/
def State.openView (s : State) (a : Nat) : Bool :=
  a == FW_CORE_STS.STATE.addr || a == SVC_STS.LINK.addr || (instOf NET_STS.STATE 2 a).isSome
    || match instOf TW_STS.STATE 12 a with
       | none => false
       | some n => s.get (TW_STS.STATE n) != 0 && s.get (TW_STS.STATE n) != 4

/-- Fields of the other units. -/
def State.viewOther (s : State) (a : Nat) : List (Fld × Nat) :=
  if a = CLK_STS.PLL0_LOCK.addr then
    (if s.bridgeUp then [] else [(CLK_STS.PLL0_LOCK, 0), (CLK_STS.PLL1_LOCK, 0)])
  else if a = CLK_TS_LO.TS_LO.addr then [(CLK_TS_LO.TS_LO, s.now % 2 ^ 32)]
  else if a = ACD_EPOCH_HI.EPOCH_HI.addr then [(ACD_EPOCH_HI.EPOCH_HI, s.acd.epochHi.getD (s.get ACD_EPOCH_HI.EPOCH_HI))]
  else if a = FW_CORE_STS.STATE.addr then s.viewCores
  else if a = INF_OUTQ.LEVEL.addr then [(INF_OUTQ.LEVEL, s.inf.outQ.length)]
  else if a = INF_UTIL.UTIL.addr then [(INF_UTIL.UTIL, (List.range 4).foldl (fun v c => v + s.clUtil c * 2 ^ (8 * c)) 0)]
  else if a = KEY_PRES.REMAIN.addr then
    [(KEY_PRES.REMAIN, if s.on KEY_PRES.OPEN then s.leftNs 600000000000 s.key.presTs / 1000000000 else 0)]
  else if a = KEY_DBG.REMAIN.addr then
    [(KEY_DBG.REMAIN, if s.on KEY_STS.DBG_OPEN then (s.key.dbgEnd - s.now) / 1000000000 else 0)]
  else if a = KPR_WDT_STS.REMAIN.addr then
    [(KPR_WDT_STS.REMAIN, if s.pwr.kprArmed then s.leftNs (wdtMs (s.get KPR_WDT_CFG.PERIOD) * 1000000) s.pwr.kprTs / 1000 else 0)]
  else if a = FW_TOPWDT_STS.REMAIN.addr then
    [(FW_TOPWDT_STS.REMAIN, if s.on FW_TOPWDT_STS.ARMED then
        (wdtMs (s.get FW_TOPWDT_CFG.PERIOD) * 1000000 - (s.topNow - s.fw.topKick)) / 1000 else 0)]
  else
    match instOf SESS_IDLE.IDLE 16 a with
    | some n =>
      [(SESS_IDLE.IDLE n, if s.isOpen n then s.leftNs ((s.sess n).idleTo * 1000000000) (s.sess n).idleTs / 1000000 else 0)]
    | none => s.viewNet a

/-- The fields of a register that a unit shows otherwise than the register file holds them. -/
def State.computed (s : State) (a : Nat) : List (Fld × Nat) :=
  match a / 0x10000 with
  | 0x2002 => s.viewSeq a
  | 0x2003 => s.viewTamp a
  | 0x2004 => s.viewTamp a
  | 0x2005 => s.viewTw a
  | 0x2006 => s.viewSil a
  | _ => s.viewOther a

/-- A field's value as a read shows it; write-only fields and strobes without a stored value read as 0 (R11). -/
def State.view (s : State) (f : Fld) : Nat :=
  match (s.computed f.addr).find? (fun e => e.1 == f) with
  | some e => e.2 % 2 ^ f.w
  | none => if f.acc = .wo then 0 else s.get f % 2 ^ f.w

/-- The word that a read of a register shows (R9, R10). -/
def State.word (s : State) (a : Nat) : Nat := (fieldsAt a).foldl (fun v f => v ||| s.view f * 2 ^ f.lo) 0

/-! ### The interrupt controllers' sources (R325, R397) -/

/-- The value of a register as the register file holds it. -/
def State.heldWord (s : State) (a : Nat) : Nat := (fieldsAt a).foldl (fun v f => v ||| s.get f * 2 ^ f.lo) 0

/-- An enabled bit of an interrupt status register is set. -/
def State.irqOf (s : State) (sts en : Fld) : Bool := s.heldWord sts.addr &&& s.get en != 0

/-- The interrupt of a two-wire port is raised for a handler (R325): 0 the Keepers, 1 the Control cores. -/
def State.twIrq (s : State) (n handler : Nat) : Bool :=
  s.get (TW_CFG.HANDLER n) == handler && s.irqOf (TW_IRQ_STS.CH_DONE n) (TW_IRQ_EN.EN n)

/-- Sources that stand at a level, as a mask: TAMP and the ports of a handler. -/
def State.levelIrqs (s : State) (handler : Nat) : Nat :=
  maskOf 14 (fun k => if k = 0 then false else if k = 1 then s.irqOf TAMP_IRQ_STS.AMB TAMP_IRQ_EN.EN else s.twIrq (k - 2) handler)

/-- The sources that are raised at the Control cores' interrupt controller (R397, R251, R363); Base-die sources reach it while the
Bridge is UP. -/
def State.coreIrqs (s : State) : Nat :=
  s.fw.irq ||| (if s.bridgeUp then s.levelIrqs 1 else 0) ||| 2 ^ 14 * b2n (s.irqOf SES_IRQ_STS.RXQ SES_IRQ_EN.EN)

/-- The sources that are raised at the Keepers' interrupt controller (R397, R115). -/
def State.keeperIrqs (s : State) : Nat := s.fw.kirq ||| s.levelIrqs 0 ||| 2 ^ 14 * b2n s.pwr.bowIrq

end Sys2Proof.Machine
end

