-- ==== Sys2Proof/Machine/Plic.lean ====
section
/-! DEFINITION. The interrupt controllers of the Control cores and of the Keepers, and their timers (R396, R397, R412, R413). The spec gives
the blocks' places, the sources and the specification they follow, and no offsets: those here are PRESUMED (log entry 53), those of the
RISC-V platform-level interrupt controller drawn together so that they fit the Keepers' 16 KiB, with one context for each core. -/

namespace Sys2Proof.Machine

/-- A register of an interrupt controller: what a source has, and what a context has. -/
inductive PlicReg where
  | priority (src : Nat)
  | pending (word : Nat)
  | enable (ctx word : Nat)
  | threshold (ctx : Nat)
  | claim (ctx : Nat)
deriving DecidableEq, Repr

/-- The register at an offset of a block with so many contexts. -/
def plicReg (ctxs o : Nat) : Option PlicReg :=
  if o % 4 ≠ 0 then none
  else if o < 0x100 then some (.priority (o / 4))
  else if 0x1000 ≤ o ∧ o < 0x1008 then some (.pending (o % 8 / 4))
  else if 0x2000 ≤ o ∧ o < 0x2000 + 0x80 * ctxs ∧ o % 0x80 < 8 then some (.enable ((o - 0x2000) / 0x80) (o % 8 / 4))
  else if 0x3000 ≤ o ∧ o < 0x3000 + 8 * ctxs then
    some (if o % 8 = 0 then .threshold ((o - 0x3000) / 8) else .claim ((o - 0x3000) / 8))
  else none

/-- The sources that a controller shows as pending: raised, and not in service at a context. -/
def Plic.pending (p : Plic) (raised : Nat) : Nat :=
  maskOf 64 (fun k => k != 0 && bitOf raised k && !p.claims.any (fun e => e.1 == k))

/-- The source that a claim of a context takes, 0 for none: pending and enabled with a priority above 0, the highest priority first, the
lowest number of equals. -/
def Plic.best (p : Plic) (raised ctx : Nat) : Nat :=
  (List.range 64).foldl (fun b k =>
    if bitOf (p.pending raised &&& p.en.getD ctx 0) k && decide (p.prio.getD b 0 < p.prio.getD k 0) then k else b) 0

/-- A write of a controller's register: priorities 0 to 7, enables, thresholds, and the completion of a source, which the claimant is not
checked for: it ends the service of a source that is enabled for the context, and is ignored otherwise (R397). -/
def Plic.write (p : Plic) (w : Nat) : PlicReg → Plic
  | .priority k => if k = 0 then p else { p with prio := modAt p.prio k (fun _ => w % 8) }
  | .pending _ => p
  | .enable c i => { p with en := modAt p.en c (fun v =>
      let lo := if i = 0 then w / 2 * 2 else v % 2 ^ 32
      let hi := if i = 0 then v / 2 ^ 32 else w
      lo + 2 ^ 32 * hi) }
  | .threshold c => { p with thr := modAt p.thr c (fun _ => w % 8) }
  | .claim c => if bitOf (p.en.getD c 0) w then { p with claims := p.claims.filter (fun e => e.1 != w) } else p

/-- What a read of a controller's register shows; a claim's effect is State.plicRead's. -/
def Plic.show (p : Plic) (raised : Nat) : PlicReg → Nat
  | .priority k => p.prio.getD k 0
  | .pending i => p.pending raised / 2 ^ (32 * i) % 2 ^ 32
  | .enable c i => p.en.getD c 0 / 2 ^ (32 * i) % 2 ^ 32
  | .threshold c => p.thr.getD c 0
  | .claim c => p.best raised c

/-- The interrupt controllers and the timers (R412, R413). -/
def plicRange (a : Nat) : Bool :=
  (0x0140010000 ≤ a && a < 0x0140020100) || (0x00200A8000 ≤ a && a < 0x00200AC020)

/-- The address belongs to the Keepers' block. -/
def plicKeeper (a : Nat) : Bool := a < 0x0100000000

/-- The controller's register at an address. -/
def plicAt (a : Nat) : Option PlicReg := if plicKeeper a then plicReg 2 (a - 0x00200A8000) else plicReg 4 (a - 0x0140010000)

/-- The 32-bit word of a timer block at an address, numbered from mtime's low word. -/
def timerWord (a : Nat) : Option Nat :=
  let base := if plicKeeper a then 0x00200AC000 else 0x0140020000
  let words := if plicKeeper a then 6 else 10
  if base ≤ a ∧ a < base + 4 * words ∧ a % 4 = 0 then some ((a - base) / 4) else none

/-- The sources raised at the controller of a die's cores. -/
def State.raised (s : State) (keeper : Bool) : Nat := if keeper then s.keeperIrqs else s.coreIrqs

def State.plicOf (s : State) (keeper : Bool) : Plic := if keeper then s.fw.kplic else s.fw.plic

def State.modPlic (s : State) (keeper : Bool) (f : Plic → Plic) : State :=
  s.modFw (fun w => if keeper then { w with kplic := f w.kplic } else { w with plic := f w.plic })

/-- mtime: the Top-die timestamp copy or the timestamp counter, in ns (R396). -/
def State.mtime (s : State) (keeper : Bool) : Nat := if keeper then s.now else s.topNow

/-- The place of a core's mtimecmp in State: the word numbers 2 and 3 are the first core's. -/
def timerCore (keeper : Bool) (i : Nat) : Nat := (i - 2) / 2 + (if keeper then 4 else 0)

/-- A word of the timer block. -/
def State.timerShow (s : State) (keeper : Bool) (i : Nat) : Nat :=
  (if i < 2 then s.mtime keeper else s.fw.mtimecmp.getD (timerCore keeper i) 0) / 2 ^ (32 * (i % 2)) % 2 ^ 32

/-- A word of the timer block written: mtime is a copy and takes none. -/
def State.timerWrite (s : State) (keeper : Bool) (i w : Nat) : State :=
  if i < 2 then s
  else s.modFw (fun f => { f with mtimecmp := modAt f.mtimecmp (timerCore keeper i) (fun v =>
    if i % 2 = 0 then v / 2 ^ 32 * 2 ^ 32 + w else v % 2 ^ 32 + 2 ^ 32 * w) })

/-- A claim takes its source into service and ends the pending bit of an edge (R397). -/
def State.plicClaim (s : State) (keeper : Bool) (c : Nat) : State :=
  let k := (s.plicOf keeper).best (s.raised keeper) c
  if k = 0 then s
  else
    (s.modPlic keeper (fun p => { p with claims := (k, c) :: p.claims })).modFw (fun f =>
      if keeper then { f with kirq := setBitOf f.kirq k false } else { f with irq := setBitOf f.irq k false })

/-- A read in the controllers' and timers' range; a place without a register reads 0 (R9). -/
def State.plicRead (s : State) (a : Nat) : State :=
  let kpr := plicKeeper a
  match plicAt a, timerWord a with
  | some r, _ =>
    let t := match r with
      | .claim c => s.plicClaim kpr c
      | _ => s
    { t with bus := .value ((s.plicOf kpr).show (s.raised kpr) r) }
  | none, some i => { s with bus := .value (s.timerShow kpr i) }
  | none, none => { s with bus := .value 0 }

/-- A write there; a place without a register takes none. -/
def State.plicWrite (s : State) (a w : Nat) : State :=
  let kpr := plicKeeper a
  match plicAt a, timerWord a with
  | some r, _ => s.modPlic kpr (fun p => p.write w r)
  | none, some i => s.timerWrite kpr i w
  | none, none => s

end Sys2Proof.Machine
end

