-- ==== Sys2Proof/Machine/Bus.lean ====
section
/-! DEFINITION. Accesses by address (R9 to R12, R18 to R22, R28, R32): what a write of a register does field by field and as a command
of its unit, what a read shows and takes, accesses to memories, and accesses across the Bridge. -/

namespace Sys2Proof.Machine

/-! ### Refused fields (R12) -/

/-- The unit and instance that an event about a register names (R416). -/
def regUnit (a : Nat) : Nat × Nat :=
  match a / 0x10000 with
  | 0x2000 => (UNIT_CLK, 0)
  | 0x2001 => (UNIT_PWRST, 0)
  | 0x2002 => (UNIT_SEQ, 0)
  | 0x2003 => (UNIT_TAMP, 0)
  | 0x2004 => (UNIT_COOL, 0)
  | 0x2005 => (UNIT_TW, (a - 0x20050000) / 0x1000)
  | 0x2006 => (UNIT_SIL, 0)
  | 0x2007 => (UNIT_ACD, 0)
  | 0x2008 => (UNIT_KEY, 0)
  | 0x2009 => (UNIT_BRG, 0)
  | 0x200A => (UNIT_KFW, 0)
  | 0x14000 => (UNIT_CFW, 0)
  | 0x20000 => (UNIT_INF, 0)
  | 0x30000 => (UNIT_NET, 0)
  | 0x30001 => (UNIT_NET, 1)
  | 0x30002 => (UNIT_SES, 0)
  | 0x30010 => (UNIT_SES, 0)
  | 0x40010 => (UNIT_TFAB, 0)
  | 0x40080 => (UNIT_LPC, 0)
  | 0x50000 => (UNIT_SEC, 0)
  | 0x50001 => (UNIT_SEC, 0)
  | p => (UNIT_TL, p - 0x40000)

/-- EVT_RWT_REJECT or EVT_RWA_LOCKED for one field (R12, R445). -/
def State.fieldRefused (s : State) (ini : Initiator) (code : Nat) (f : Fld) (held new : Nat) : State :=
  let u := regUnit f.addr
  let p := [(0, 8, f.addr), (8, 1, f.lo), (9, 1, f.w), (10, 1, iniByte ini), (12, 4, held), (16, 4, new)]
  if (regionOf f.addr).onBase then s.log code ACC_TRAY u.1 u.2 p else s.logTop code ACC_TRAY u.1 u.2 p

/-! ### One field of a write (R11, R12) -/

/-- Fields whose writing their unit does as a whole: stripped from the field by field part of a write. -/
def unitField (f : Fld) : Bool :=
  let a := f.addr
  a == CLK_FMC_CTL.MEAS.addr || a == CLK_GATE_REQ.REQ.addr || f == CLK_CTL.FORCE_IOSC || f == PWRST_TOP_CAUSE.FAIL_RUN
    || f == SEQ_CTL.TEST || f == COOL_VLV.CMD_CLOSE || f == TFAB_CTL.REC_RUN || a == SIL_CTL.FREEZE.addr || a == SIL_STS.MODE.addr
    || f == SES_TXQ_PTR.WR || f == KEY_REQ_CMD.OP
    || (instOf chStall 30 a).isSome || (instOf COOL_LK_STS.CLR 16 a).isSome || (instOf INF_SLOT_CTL.EN 16 a).isSome

/-- The firmware log ring with a base and a size stays inside Top SRAM; a ring that is off has no slot (R412). -/
def ringFits (base size : Nat) : Bool := logSlots size = 0 || 32 * base + 32 * logSlots size ≤ 0x1800000

/-- A write of the field is heard (R143, R405, R412): some registers ignore writes from others than the Keepers, in some states, or with
values that do not fit. -/
def State.hears (s : State) (ini : Initiator) (f : Fld) (v : Nat) : Bool :=
  let a := f.addr
  if f == FW_TEXT_BASE.BASE || f == FW_TEXT_LIMIT.LIMIT then fromKeeper ini && !s.on FW_TEXT_BASE.LOCK
  else if f == FW_TOPWDT_CFG.PERIOD then !s.on FW_TOPWDT_STS.ARMED
  else if f == FW_LOG_BASE.BASE then ringFits v (s.get FW_LOG_SIZE.SIZE)
  else if f == FW_LOG_SIZE.SIZE then ringFits (s.get FW_LOG_BASE.BASE) v
  else
    match instOf INF_SLOT_PERIOD.PERIOD 16 a, instOf INF_SLOT_PHASE.PHASE 16 a with
    | some n, _ => s.slotSt n != slotEnabled && s.slotSt n != slotStopping
    | none, some n => s.slotSt n != slotEnabled && s.slotSt n != slotStopping
    | none, none => true

/-- One field of a register write, by its access code (R11, R12). -/
def State.fieldWrite (ini : Initiator) (w : Nat) (s : State) (f : Fld) : State :=
  let v := bitsOf w f.lo f.w
  let held := s.get f
  if unitField f || !s.hears ini f v then s
  else
    match f.acc with
    | .rw => s.set f v
    | .w1c => s.set f (held - (held &&& v))
    | .rwa => if v = held then s else if s.locked then s.fieldRefused ini EVT_RWA_LOCKED f held v else s.set f v
    | .rwt =>
      if v = held then s
      else if rwtTighter f (rwtBelow s.regs f.addr) held v then s.set f v
      else s.fieldRefused ini EVT_RWT_REJECT f held v
    | .ro | .wo | .w1s => s

/-- A write that changes DIR of a comparator, possible before lock only (R239): its limits become loosest, its level enables 0,
before the fields of the write apply. -/
def State.dirWrite (s : State) (a w : Nat) : State :=
  match dirChanged s.regs a w with
  | none => s
  | some (k, d) => if s.locked then s else s.setAll (dirChange k d)

/-! ### What a write commands its unit to do -/

/-- The effect of a command row on a state. -/
def State.via (s : State) (x : State → Host.Outcome State Fault Refusal) : State :=
  match x s with
  | .next t => t
  | _ => s

/-- A command row's effect where a bit of the written word is 1. -/
def State.viaIf (s : State) (c : Bool) (x : State → Host.Outcome State Fault Refusal) : State := if c then s.via x else s

/-- Registers of a core that a write does not carry: free. -/
def freeCsrs (i : Nat) : Csrs :=
  { mcause := BitVec.ofNat 64 (Config.free i), mepc := BitVec.ofNat 64 (Config.free (i + 1)),
    mtval := BitVec.ofNat 64 (Config.free (i + 2)) }

/-- Several free values drawn. -/
def State.drawMany (s : State) (n : Nat) : State := { s with fresh := s.fresh + n }

/-- Clock, power and reset registers (R90, R120). With CLK_STS.CLKFAIL cleared no interrupt of it stands (log entry 49). -/
def State.unitClk (s : State) (ini : Initiator) (a w : Nat) : State :=
  if a = CLK_STS.CLKFAIL.addr then
    if bitOf w CLK_STS.CLKFAIL.lo then s.modFw (fun f => { f with nmi := 0 }) else s
  else if a = CLK_CTL.RESTORE.addr then
    let s := if bitsOf w 3 1 = s.get CLK_CTL.FORCE_IOSC then s else s.clkForce (bitOf w 3)
    if bitOf w 2 then s.clkRestore else s
  else if a = CLK_FMC_CTL.START.addr then s.fmcWrite w
  else if a = CLK_GATE_REQ.REQ.addr then s.gateWrite w
  else if a = PWRST_CTL.REQ.addr then
    let s := if bitOf w 2 then s.pwrRequest ini (bitsOf w 0 2) else s
    if bitsOf w 8 8 = 0xA5 then (if bitOf w 3 then s.topMerged topKeeper else s).warmRequest rstCmd
    else if bitOf w 3 then s.topRequest topKeeper
    else s
  else if a = PWRST_CORE_RST.RESTART.addr then
    let i := s.fresh
    (s.drawMany 12).coreRestarts (bitsOf w 0 4) (freeCsrs i, [freeCsrs i, freeCsrs (i + 3), freeCsrs (i + 6), freeCsrs (i + 9)])
  else if a = PWRST_TOP_CAUSE.FAIL_RUN.addr then (if bitsOf w PWRST_TOP_CAUSE.FAIL_RUN.lo 4 = 0 then s.failRunClear else s)
  else s

/-- Sequencer registers (R282). -/
def State.unitSeq (s : State) (ini : Initiator) (a w : Nat) : State :=
  if a = SEQ_CTL.TEST.addr then (if bitOf w 0 then s.testEnter else s.testEnd)
  else if a = SEQ_CMD.OP.addr then s.seqCommand (bitsOf w 0 3) (bitsOf w 8 9)
  else if a = SEQ_MGN_CTL.GO.addr then (if bitOf w 16 then s.marginRequest (bitsOf w 0 7) (bitOf w 7) (bitsOf w 8 6) else s)
  else if a = SEQ_FFR_CLR.CLR.addr then s.viaIf (bitOf w 0) (execFfrClr ini)
  else s

/-- Tamp registers (R251). -/
def State.unitTamp (s : State) (ini : Initiator) (a w : Nat) : State :=
  if a = TAMP_CLR.RED_CLR.addr then (if w % 2 ^ 16 = 0 then s else s.tampClear (bitsOf w 0 8) (bitsOf w 8 8))
  else if a = TAMP_CRIT.CLR.addr then s.viaIf (bitOf w 4) (execCritClr ini)
  else if a = TAMP_CNT_CLR.CLR.addr then s.viaIf (bitOf w 0) (execTampCntClr ini)
  else s

/-- Cooling registers (R312). -/
def State.unitCool (s : State) (ini : Initiator) (a w : Nat) : State :=
  if a = COOL_CTL.START.addr then s.viaIf (bitOf w 0) (execCoolStart ini)
  else if a = COOL_VLV.CMD_CLOSE.addr then s.valveCommand w
  else
    match instOf chStall 30 a, instOf COOL_LK_STS.CLR 16 a with
    | some i, _ => s.stallClear i w
    | none, some k => s.leakStsWrite k w
    | none, none => s

/-- Two-wire registers of one port (R336). -/
def State.unitTw (s : State) (ini : Initiator) (a w : Nat) : State :=
  let n := (a - 0x20050000) / 0x1000
  if a = (TW_CH_CMD.GO n 0).addr then (if bitOf w 31 then s.channelGo n 0 w else s)
  else if a = (TW_CH_CMD.GO n 1).addr then (if bitOf w 31 then s.channelGo n 1 w else s)
  else if a = (TW_TGT_CTL.RX_ACK n).addr then
    (s.viaIf (bitOf w 1) (execRxAck ini (Fin.ofNat 12 n))).viaIf (bitOf w 2) (execTxValid ini (Fin.ofNat 12 n))
  else s

/-- Sillage registers (R430). -/
def State.unitSil (s : State) (a w : Nat) : State :=
  if a = SIL_CTL.FREEZE.addr then
    let s := if bitOf w 0 then s.modSil SilSt.freeze else if s.sil.frozen then s.unfreeze else s
    let s := if bitOf w 2 == s.sil.recov then s else s.silRecov (bitOf w 2)
    let s := if bitOf w 1 then s.silService else s
    if bitOf w 3 then s.silNvmClear else s
  else if a = SIL_STS.FULL.addr then
    s.modSil (fun x => { x with full := x.full && !bitOf w 3, qfull := x.qfull && !bitOf w 4, nvmLostFlag := x.nvmLostFlag && !bitOf w 5 })
  else if a = SIL_CNT_CLR.CLR.addr then (if bitOf w 0 then s.modSil SilSt.clearCounts else s)
  else if 0x20060200 ≤ a ∧ a < 0x20060380 then
    let h := (a - 0x20060200) / 0x40
    let i := (a - 0x20060200) % 0x40 / 4
    if i = 11 then s.portSubmit h w else if i < 11 then s.modSil (fun x => x.portWord h i w) else s
  else s

/-- Key-store registers (R394). Whether an OTP write of a KEY_ADD that comes by a plain register write succeeds is free. -/
def State.unitKey (s : State) (a w : Nat) : State :=
  if a = KEY_PRES.CLOSE.addr then (if bitOf w 3 then s.presClose 1 else s)
  else if a = KEY_REQ_CMD.GO.addr then
    if bitOf w 31 then s.draw.keyReq (bitsOf w 0 4) (Config.free s.fresh % 2 == 1) else s.set KEY_REQ_CMD.OP (bitsOf w 0 4)
  else s

/-- Accord and Bridge registers (R41, R66). -/
def State.unitBrg (s : State) (ini : Initiator) (a w : Nat) : State :=
  if a = BRG_CTL.FENCE.addr then
    let s := if bitOf w 0 then s.fence else s
    if bitOf w 1 then s.retrain else s
  else if a = BRG_CNT_CLR.CLR.addr then s.viaIf (bitOf w 0) (execBrgCntClr ini)
  else if a = ACD_FP_CTL.SNAP.addr then s.viaIf (bitOf w 0) (execSnap ini)
  else s

/-- Keeper and Control-core registers (R412, R413). -/
def State.unitFw (s : State) (ini : Initiator) (a w : Nat) : State :=
  if a = KPR_CTL.K1_RUN.addr then s.viaIf (bitOf w 0) (execK1Run ini)
  else if a = KPR_WDT_KICK.KEY.addr then s.via (execKprWdtKick ini (Fin.ofNat 256 w))
  else if 0x200A0040 ≤ a ∧ a < 0x200A0060 then
    let i := (a - 0x200A0040) / 4
    if i = 7 then s.keeperEntry w else s.portPut 4 i w
  else if a = FW_TOPWDT_KICK.KEY.addr then s.via (execFwTopwdtKick ini (Fin.ofNat 256 w))
  else if a = FW_PANIC.PANIC.addr then
    let i := s.fresh
    (s.drawMany 3).panic ini (bitsOf w 0 4) (freeCsrs i)
  else if a = FW_TEXT_BASE.LOCK.addr then s.viaIf (bitOf w 0) (execTextLock ini)
  else if 0x140000400 ≤ a ∧ a < 0x140000480 then
    let c := (a - 0x140000400) / 0x20
    let i := (a - 0x140000400) % 0x20 / 4
    if ini = .core (Fin.ofNat 4 c) then (if i = 7 then s.logEntry c w else s.portPut c i w) else s
  else
    match instOf FW_WDT_KICK.KEY 4 a with
    | some c => s.via (execFwWdtKick ini (Fin.ofNat 4 c) (Fin.ofNat 256 w))
    | none => s

/-- Infuser registers (R163). -/
def State.unitInf (s : State) (ini : Initiator) (a w : Nat) : State :=
  if a = INF_CTL.STOP_ALL.addr then s.viaIf (bitOf w 2) (execStopAll ini)
  else if a = INF_CNT_CLR.CLR.addr then s.viaIf (bitOf w 0) (execInfCntClr ini)
  else
    match instOf INF_SLOT_CTL.EN 16 a, instOf INF_SLOT_ADSTS.ADAPT_RST 16 a with
    | some n, _ => s.slotCtlWrite n w
    | none, some n => s.viaIf (bitOf w 2) (execAdaptRst ini (Fin.ofNat 16 n))
    | none, none => s

/-- Network, session and hint registers (R190, R362, R363). -/
def State.unitNet (s : State) (ini : Initiator) (a w : Nat) : State :=
  if a = SES_CTL.CLOSE_ALL.addr then s.viaIf (bitOf w 1) (execCloseAll ini)
  else if a = SES_CNT_CLR.CLR.addr then s.viaIf (bitOf w 0) (execSesCntClr ini)
  else if a = SES_TXQ_PTR.WR.addr then s.txSubmit (bitsOf w 0 6)
  else if a = HNT_CTL.FLUSH.addr then s.viaIf (bitOf w HNT_CTL.FLUSH.lo) (execHintFlush ini)
  else if a = HNT_CNT_CLR.CLR.addr then s.viaIf (bitOf w 0) (execHntCntClr ini)
  else
    match instOf NET_CTL.START 2 a, instOf NET_CNT_CLR.CLR 2 a with
    | some n, _ =>
      let s := s.viaIf (bitOf w 1) (execNetStart ini (Fin.ofNat 2 n))
      s.viaIf (bitOf w 0) (execNetRetrain ini (Fin.ofNat 2 n))
    | none, some n => s.viaIf (bitOf w 0) (execNetCntClr ini (Fin.ofNat 2 n))
    | none, none => s

/-- Telemetry and security-block registers (R220, R221, R395). -/
def State.unitTel (s : State) (ini : Initiator) (a w : Nat) : State :=
  if a = TFAB_CTL.MAP_DONE.addr then
    let s := s.viaIf (bitOf w TFAB_CTL.MAP_DONE.lo) (execMapDone ini)
    let on := bitOf w TFAB_CTL.REC_RUN.lo
    if on == s.on TFAB_CTL.REC_RUN then s else s.recRun on
  else if a = TFAB_REC_CTL.REARM.addr then s.recCtl w
  else if a = TFAB_CNT_CLR.CLR.addr then s.viaIf (bitOf w 0) (execTfabCntClr ini)
  else if a = SEC_ACT.ABANDON.addr then s.viaIf (bitOf w SEC_ACT.ABANDON.lo) (execAbandonStaged ini)
  else
    match instOf TL_CTL.RETRAIN 8 a, instOf TL_CNT_CLR.CLR 8 a with
    | some n, _ => s.viaIf (bitOf w (TL_CTL.RETRAIN n).lo) (execTlRetrain ini (Fin.ofNat 8 n))
    | none, some n => s.viaIf (bitOf w 0) (execTlCntClr ini (Fin.ofNat 8 n))
    | none, none => s

/-- What the written word commands the register's unit to do. -/
def State.unitWrite (s : State) (ini : Initiator) (a w : Nat) : State :=
  match a / 0x10000 with
  | 0x2000 => s.unitClk ini a w
  | 0x2001 => s.unitClk ini a w
  | 0x2002 => s.unitSeq ini a w
  | 0x2003 => s.unitTamp ini a w
  | 0x2004 => s.unitCool ini a w
  | 0x2005 => s.unitTw ini a w
  | 0x2006 => s.unitSil a w
  | 0x2007 => s.unitBrg ini a w
  | 0x2008 => s.unitKey a w
  | 0x2009 => s.unitBrg ini a w
  | 0x200A => s.unitFw ini a w
  | 0x14000 => s.unitFw ini a w
  | 0x20000 => s.unitInf ini a w
  | 0x30000 => s.unitNet ini a w
  | 0x30001 => s.unitNet ini a w
  | 0x30002 => s.unitNet ini a w
  | _ => s.unitTel ini a w

/-- Messages that the firmware has taken from the receive queue by moving its read pointer (R361, R363). -/
def State.rxTaken (s : State) (old : Nat) : State :=
  s.modSes (fun x => { x with rxq := x.rxq.drop ((s.get SES_RXQ_PTR.RD + 64 - old) % 64) })

/-- A write of a whole register: its fields by their access codes, then what it commands (R11, R12). -/
def State.regWrite (s : State) (ini : Initiator) (a w : Nat) : State :=
  let rd := s.get SES_RXQ_PTR.RD
  let ref := s.on CLK_CTL.REF_SEL
  let s := (fieldsAt a).foldl (State.fieldWrite ini w) (s.dirWrite a w)
  let s := if a = SES_RXQ_PTR.RD.addr then s.rxTaken rd else s
  let s := if ref == s.on CLK_CTL.REF_SEL then s else s.refFollow
  s.unitWrite ini a w

/-! ### Reads -/

/-- A register read: its word, and what the read itself does (R66, R90, R336). -/
def State.regRead (s : State) (a : Nat) : State :=
  if plicRange a then s.plicRead a
  else
    let v := s.word a
    let s := if s.openView a then s.draw.draw.draw.draw else s
    let s :=
      if a = CLK_TS_LO.TS_LO.addr then s.setAll [(CLK_TS_HI.TS_HI, s.now / 2 ^ 32), (CLK_TS_FB.FB, b2n s.fb)]
      else if a = ACD_EPOCH_LO.EPOCH_LO.addr then s.modAcd (fun x => { x with epochHi := some (s.get ACD_EPOCH_HI.EPOCH_HI) })
      else if a = ACD_EPOCH_HI.EPOCH_HI.addr then s.modAcd (fun x => { x with epochHi := none })
      else
        match instOf TW_ALERT.ADDR 12 a with
        | some n => s.alertPop n
        | none => s
    { s with bus := .value v }

/-! ### Memories (R18, R139, R204, R400) -/

/-- R139 refuses a write to state SRAM: the cores' and the debug module's outside loaded windows, every Keeper's, the security block's
while the slot may run, the Infuser's to an adaptation block or outside the window of a slot with a run in progress. -/
def State.stateRefuses (s : State) (ini : Initiator) (a size : Nat) : Bool :=
  match ini with
  | .security => s.loadGuard a size
  | .infuser => s.inAnyAdapt a size || !s.inRunWin a size
  | .hint => false
  | _ => fromKeeper ini || s.stateGuard a size

/-- R139 refuses a write. Weight SRAM and program slots take the security block's during loading only. -/
def State.infRefuses (s : State) (ini : Initiator) (r : Region) (a size : Nat) : Bool :=
  match r with
  | .infWeights | .infSlots => ini != .security || s.loadGuard a size
  | .infState => s.stateRefuses ini a size
  | _ => false

/-- EVT_INF_WPROT and INF_ERR.WPROT (R139). -/
def State.wprot (s : State) (ini : Initiator) (a : Nat) : State :=
  { s.wprotNote ini a with bus := .error }

/-- The LPDDR5X training of this bring-up has failed: every access completes with a bus error (R222). TRAIN_FAIL alone, which a bring-up before
may have left set, says nothing of it. -/
def State.lpFailed (s : State) : Bool := s.tel.lpEnded && !s.on LPC_STS.INIT_DONE

/-- A write to a memory of the map. -/
def State.memWriteBus (s : State) (ini : Initiator) (r : Region) (a size data : Nat) : State :=
  if s.infRefuses ini r a size then s.wprot ini a
  else if (r = .topSram ∧ (s.textLocked a || s.textLocked (a + size - 1)) = true)
      ∨ (r = .sensorMap ∧ (!fromKeeper ini || s.on TFAB_STS.MAP_LOADED) = true) then
    { s with bus := .error }
  else if r = .lpddr ∧ s.lpFailed then { s with bus := .error }
  else if r = .lpddr ∧ !s.on LPC_STS.INIT_DONE then { s with bus := .written }
  else { s with mem := memStore s.mem a (leBytes size data), bus := .written }

/-- The bytes of the Sillage ring from an offset on (R414). -/
def State.ringBytes (s : State) (o size : Nat) : List Byte :=
  (List.range size).map (fun i =>
    match look ((o + i) / 64) s.sil.ring with
    | some r => (recBytes r).getD ((o + i) % 64) 0
    | none => 0)

/-- An uncorrectable read of LPDDR5X: whose buffer holds the address discards it, the recorder or image staging (R219). -/
def State.lpFound (s : State) (a : Nat) : State :=
  let s := s.lpUncorr a
  let s := match s.bufOf a with
    | some q => s.bufDiscard q
    | none => s
  if s.get SEC_XFER.STATE ≠ xferIdle ∧ s.stgBase ≤ a ∧ a < s.stgBase + s.sec.len then s.stgDiscard else s

/-- What the check bits of a memory find on a read (R140, R205, R219): its counters, flags and events. -/
def State.readCheck (s : State) (r : Region) (a corr : Nat) (uncorr : Bool) : State :=
  match r with
  | .infWeights | .infState | .infSlots => s.infEcc { corrected := corr, uncorr := uncorr }
  | .lpddr =>
    let s := if corr = 0 then s else s.bump LPC_ECC_CNT.CORR corr
    if uncorr then s.lpFound a else s
  | .sensorMap => if uncorr then s.mapEcc ((a - 0x0401000000) / 16) else s
  | _ => s

/-- An uncorrectable read of the memory completes with a bus error (R140, R219). -/
def Region.failsRead : Region → Bool
  | .infWeights | .infState | .infSlots | .lpddr => true
  | _ => false

/-- A read of a memory of the map. What the boot ROM holds the spec does not say, nor what LPDDR5X gives before its training, nor what a
read of an uncorrectable descriptor gives (R205); where training has failed every access completes with a bus error (R222). -/
def State.memReadBus (s : State) (r : Region) (a size corr : Nat) (uncorr : Bool) : State :=
  if r = .lpddr ∧ s.lpFailed then { s with bus := .error }
  else if r.failsRead ∧ uncorr then { s.readCheck r a corr true with bus := .error }
  else if r = .sensorMap ∧ uncorr then
    { (s.readCheck r a corr true).draw with bus := .value (Config.free s.fresh % 2 ^ (8 * size)) }
  else if r = .bootRom ∨ (r = .lpddr ∧ !s.on LPC_STS.INIT_DONE) then
    { s.draw with bus := .value (Config.free s.fresh % 2 ^ (8 * size)) }
  else if r = .silRing then { s with bus := .value (leNat (s.ringBytes (a - 0x10000000) size)) }
  else { s.readCheck r a corr false with bus := .value (leNat (memBytes s.mem a size)) }

/-! ### An access by address -/

/-- The last byte of an access. -/
def lastByte (q : BusReq) : Nat := q.addr + q.size - 1

/-- The gate domain that an address's memory lies in (R87): the clusters' banks and quarters, LPDDR5X. -/
def gateDomain (r : Region) (a : Nat) : Option Nat :=
  match r with
  | .infWeights => some ((a - 0x0210000000) / 0x200000)
  | .infState => some ((a - 0x0220000000) / 0x80000)
  | .lpddr => some 4
  | _ => none

/-- A memory's access by its kind. -/
def State.memAccess (s : State) (ini : Initiator) (r : Region) (q : BusReq) : State :=
  if q.write then s.memWriteBus ini r q.addr q.size q.data else s.memReadBus r q.addr q.size q.corr q.uncorr

/-- A memory's access at its domain's port (R87, R88): held while a gate is asked for, a bus error while the clock stands. `back`: the errors
that its completion will meet where it has come over the Bridge (R31). -/
def State.gateAccess (s : State) (ini : Initiator) (r : Region) (q : BusReq) (back : Beats) : State :=
  match gateDomain r q.addr with
  | some d =>
    if s.gated d then { s with bus := .error }
    else if s.gateAsked d then { s.modClk (fun c => { c with held := c.held ++ [(ini, q, back)] }) with bus := .held }
    else s.memAccess ini r q
  | none => s.memAccess ini r q

/-- The value that an atomic operation leaves, of w bits (R396). -/
def amoResult (w old x : Nat) : Amo → Nat
  | .swap => x
  | .add => (old + x) % 2 ^ w
  | .xor => old ^^^ x
  | .and => old &&& x
  | .or => old ||| x
  | .min => if sgn w x < sgn w old then x else old
  | .max => if sgn w old < sgn w x then x else old
  | .minu => min old x
  | .maxu => max old x

/-- An atomic operation (R397): performed at Top SRAM on an aligned word or doubleword, which it answers with its old value; anywhere else
a bus error, as on Base-die addresses (for other Top-die addresses DESIGN CHOICE, log entry 53). -/
def State.atomic (s : State) (q : BusReq) (op : Amo) : State :=
  if q.write = true ∧ regionOf q.addr = .topSram ∧ (q.size = 4 ∨ q.size = 8) ∧ q.addr % q.size = 0 ∧ !s.textLocked q.addr then
    let old := leNat (memBytes s.mem q.addr q.size)
    { s with mem := memStore s.mem q.addr (leBytes q.size (amoResult (8 * q.size) old (q.data % 2 ^ (8 * q.size)) op)), bus := .value old }
  else { s with bus := .error }

/-- An access that is allowed (R9): registers take 32-bit aligned accesses, memories any size up to 8 bytes within one region. -/
def State.perform (s : State) (ini : Initiator) (q : BusReq) (back : Beats := {}) : State :=
  let r := regionOf q.addr
  match q.amo with
  | some op => s.atomic q op
  | none =>
  if r.isRegs then
    if q.size ≠ 4 ∨ q.addr % 4 ≠ 0 then { s with bus := .error }
    else if q.write then
      (if plicRange q.addr then { s.plicWrite q.addr (q.data % 2 ^ 32) with bus := .written }
        else { s.regWrite ini q.addr (q.data % 2 ^ 32) with bus := .written })
    else s.regRead q.addr
  else if q.size = 0 ∨ 8 < q.size ∨ s.judge ini q.write (lastByte q) ≠ .allowed ∨ regionOf (lastByte q) ≠ r then { s with bus := .error }
  else s.gateAccess ini r q back

/-- An access: stopped in its core, performed, forbidden, or without a destination (R10, R21, R22, R396). -/
def State.access (s : State) (ini : Initiator) (q : BusReq) (back : Beats := {}) : State :=
  if s.coreTraps ini q then { s with bus := .trap }
  else match s.judge ini q.write q.addr with
  | .allowed => s.perform ini q back
  | .forbidden => s.block ini q.write q.addr
  | .unreachable => { s with bus := .error }

/-- The write of a register word. -/
def wordReq (addr : Nat) (val : Word) : BusReq := { write := true, addr := addr, size := 4, data := val.toNat, uncorr := false, corr := 0 }

/-- A write to a register (R12), whichever it is. -/
def execRegisterWrite (ini : Initiator) (addr : Nat) (val : Word) (s : State) : Host.Outcome State Fault Refusal :=
  .next (s.sendBegin.access ini (wordReq addr val))

/-- An access that the table of rights forbids (R21); one that it allows is no such access, nor one that does not leave its core. -/
def execForbiddenAccess (ini : Initiator) (req : BusReq) (s : State) : Host.Outcome State Fault Refusal :=
  .next (if s.judge ini req.write req.addr = .forbidden ∧ !s.coreTraps ini req then s.block ini req.write req.addr else s)

/-- The access goes from one die to the other. -/
def crosses (ini : Initiator) (a : Nat) : Bool := iniOnTop ini == (regionOf a).onBase

/-- The completion of a request that has been served goes in the other direction, after the errors it met (R27, R31); one that is lost
with the Bridge leaves a bus error. -/
def State.backSend (s : State) (ini : Initiator) (q : BusReq) (back : Beats) : State :=
  let t := s.message back vcCtrl (1 - ctrlDir ini) kindCompletion (b2n (!q.write)) q.addr id
  if s.exhausted back then { t with bus := .error } else t

/-- The completion is sent, or waits: behind GUARD messages and CTRL messages of its direction (R28). -/
def State.ctrlBack (s : State) (ini : Initiator) (q : BusReq) (back : Beats) : State :=
  let dir := 1 - ctrlDir ini
  if s.flows && s.bus != .held then
    if s.vcFree vcCtrl dir && !s.ctrlWaits dir then s.backSend ini q back
    else { s.modBrg (fun x => { x with backQ := x.backQ ++ [(ini, q, back, s.bus)] }) with bus := .held }
  else s

/-- The request message of an access, the access, and its completion (R27, R28, R31); a request whose replays are exhausted completes
with a bus error. -/
def State.ctrlSend (s : State) (ini : Initiator) (q : BusReq) (b back : Beats) : State :=
  let t := s.message b vcCtrl (ctrlDir ini) (if q.write then kindWrite else kindRead) (b2n q.write) q.addr (fun s =>
    (s.access ini q back).ctrlBack ini q back)
  if s.exhausted b then { t with bus := .error } else t

/-- A Top-die request that the Bridge carries in no state but UP waits while it trains or is fenced: R33 refuses requests in QUIESCE
alone, and R22 ends those of the Base die. -/
def State.bridgeWaits (s : State) (ini : Initiator) (q : BusReq) : Bool :=
  iniOnTop ini && !s.pwr.topRst && (regionOf q.addr).onBase && s.right ini q.write q.addr
    && (s.brgState == brgTrain || s.brgState == brgFenced)

/-- The request crosses the Bridge, now or later. -/
def State.ctrlGoes (s : State) (ini : Initiator) (q : BusReq) : Bool :=
  crosses ini q.addr && (s.judge ini q.write q.addr == .allowed || s.bridgeWaits ini q)

/-- The request cannot be sent yet: the Bridge trains or is fenced, or a message waits on GUARD in its direction (R28). -/
def State.ctrlStuck (s : State) (ini : Initiator) (q : BusReq) : Bool :=
  s.ctrlGoes ini q && (!s.bridgeUp || !s.vcFree vcCtrl (ctrlDir ini))

/-- A request that has been let go: across the Bridge on CTRL, or performed on its own die. -/
def State.ctrlStart (s : State) (ini : Initiator) (q : BusReq) (b back : Beats) : State :=
  if s.ctrlGoes ini q then s.ctrlSend ini q b back else s.access ini q

/-- An access that crosses the Bridge on CTRL (R28, R31, R32): it waits behind GUARD messages and behind earlier requests of its
direction, and goes on in an idle period (State.ctrlNext). -/
def State.ctrl (s : State) (ini : Initiator) (q : BusReq) (b back : Beats) : State :=
  if s.coreTraps ini q then { s with bus := .trap }
  else if s.ctrlStuck ini q || (s.ctrlGoes ini q && s.ctrlWaits (ctrlDir ini)) then
    { s.modBrg (fun x => { x with ctrlQ := x.ctrlQ ++ [(ini, q, b, back)] }) with bus := .held }
  else s.ctrlStart ini q b back

def execCtrlRequest (ini : Initiator) (req : BusReq) (beats : Beats) (s : State) (back : Beats := {}) : Host.Outcome State Fault Refusal :=
  .next (s.sendBegin.ctrl ini req beats back)

/-- A request leaves the queues of CTRL: it waits to be sent, or its completion does. None where it waits nowhere. -/
def State.ctrlForget (s : State) (ini : Initiator) (q : BusReq) : Option State :=
  match s.brg.ctrlQ.find? (fun e => e.1 == ini && e.2.1 == q), s.brg.backQ.find? (fun e => e.1 == ini && e.2.1 == q) with
  | some e, _ => some (s.modBrg (fun x => { x with ctrlQ := x.ctrlQ.erase e }))
  | none, some e => some (s.modBrg (fun x => { x with backQ := x.backQ.erase e }))
  | none, none => none

/-- What a request whose time is over has left behind: one that waited is forgotten, and a write that has been sent may have taken effect. -/
def State.ctrlDrop (s : State) (ini : Initiator) (q : BusReq) (applied : Bool) : State :=
  match s.ctrlForget ini q with
  | some t => t
  | none => if q.write && applied && s.bridgeUp then s.access ini q else s

/-- No completion within RD_TO (R32): a bus error, RD_TIMEOUT, EVT_BRG_TIMEOUT; a write that has been sent may have taken effect. -/
def State.ctrlTimeout (s : State) (ini : Initiator) (q : BusReq) (applied : Bool) : State :=
  if s.ctrlGoes ini q && !s.coreTraps ini q then
    let s := ((s.ctrlDrop ini q applied).set BRG_STS.RD_TIMEOUT 1).log EVT_BRG_TIMEOUT ACC_TRAY UNIT_BRG 0
      [(0, 8, q.addr), (8, 1, b2n q.write), (9, 1, iniByte ini)]
    { s with bus := .error }
  else s

def execCtrlTimeout (ini : Initiator) (req : BusReq) (applied : Bool) (s : State) : Host.Outcome State Fault Refusal :=
  .next (s.sendBegin.ctrlTimeout ini req applied)

end Sys2Proof.Machine
end

