-- ==== Sys2Proof/Machine/Dispatch.lean ====
section
/-! DEFINITION. Which meaning each command has. -/

namespace Sys2Proof.Machine

def exec (i : Instr) (s : State) : Host.Outcome State Fault Refusal :=
  match i with
  | .registerWrite ini addr val => Sys2Proof.Machine.execRegisterWrite ini addr val s
  | .forbiddenAccess ini req => Sys2Proof.Machine.execForbiddenAccess ini req s
  | .guardMessage beats => Sys2Proof.Machine.execGuardMessage beats s
  | .ctrlRequest ini req beats back => Sys2Proof.Machine.execCtrlRequest ini req beats s back
  | .ctrlTimeout ini req applied => Sys2Proof.Machine.execCtrlTimeout ini req applied s
  | .bulkMessage beats => Sys2Proof.Machine.execBulkMessage beats s
  | .keepalive beats => Sys2Proof.Machine.execKeepalive s beats
  | .livenessLost => Sys2Proof.Machine.execLivenessLost s
  | .timeMessage beats => Sys2Proof.Machine.execTimeMessage s beats
  | .bridgeTrainingDone ok => Sys2Proof.Machine.execBridgeTrainingDone ok s
  | .trainRetry => Sys2Proof.Machine.execTrainRetry s
  | .quiesceEnd => Sys2Proof.Machine.execQuiesceEnd s
  | .fence ini => Sys2Proof.Machine.execFence ini s
  | .retrain ini => Sys2Proof.Machine.execRetrain ini s
  | .brgCntClr ini => Sys2Proof.Machine.execBrgCntClr ini s
  | .releaseMessage beats => Sys2Proof.Machine.execReleaseMessage beats s
  | .holdExpiry => Sys2Proof.Machine.execHoldExpiry s
  | .vofsRevertStep port => Sys2Proof.Machine.execVofsRevertStep port s
  | .proposalArrival beats => Sys2Proof.Machine.execProposalArrival beats s
  | .tampViewUpdate beats => Sys2Proof.Machine.execTampViewUpdate s beats
  | .clampRetry port => Sys2Proof.Machine.execClampRetry port s
  | .checkWindowEnd chk count => Sys2Proof.Machine.execCheckWindowEnd chk count s
  | .lfoCalibration period => Sys2Proof.Machine.execLfoCalibration period s
  | .ioscRdyRise => Sys2Proof.Machine.execIoscRdyRise s
  | .ioscStartTimeout => Sys2Proof.Machine.execIoscStartTimeout s
  | .ioscStop => Sys2Proof.Machine.execIoscStop s
  | .restore ini => Sys2Proof.Machine.execRestore ini s
  | .forceIosc ini on => Sys2Proof.Machine.execForceIosc ini on s
  | .recoveredClockSwitch => Sys2Proof.Machine.execRecoveredClockSwitch s
  | .fmcStart ini word => Sys2Proof.Machine.execFmcStart ini word s
  | .fmcAbort ini => Sys2Proof.Machine.execFmcAbort ini s
  | .fmcDone count => Sys2Proof.Machine.execFmcDone count s
  | .fmcNoclk => Sys2Proof.Machine.execFmcNoclk s
  | .gateRequest ini d => Sys2Proof.Machine.execGateRequest ini d s
  | .gateStopped d => Sys2Proof.Machine.execGateStopped d s
  | .gateRefused d => Sys2Proof.Machine.execGateRefused d s
  | .gateRelease ini d => Sys2Proof.Machine.execGateRelease ini d s
  | .gateAbort ini d => Sys2Proof.Machine.execGateAbort ini d s
  | .coldPor boot => Sys2Proof.Machine.execColdPor boot s
  | .sysRstNRise jumper => Sys2Proof.Machine.execSysRstNRise jumper s
  | .sysRstNFall => Sys2Proof.Machine.execSysRstNFall s
  | .warmKey ini key => Sys2Proof.Machine.execWarmKey ini key s
  | .warmResetRelease jumper => Sys2Proof.Machine.execWarmResetRelease jumper s
  | .bor => Sys2Proof.Machine.execBor s
  | .bow mv => Sys2Proof.Machine.execBow mv s
  | .bowRecover minMv mv => Sys2Proof.Machine.execBowRecover minMv mv s
  | .nvmCommitDone => Sys2Proof.Machine.execNvmCommitDone s
  | .nvmCompactionDone => Sys2Proof.Machine.execNvmCompactionDone s
  | .topRst ini => Sys2Proof.Machine.execTopRst ini s
  | .topResetHoldEnd => Sys2Proof.Machine.execTopResetHoldEnd s
  | .powerReqA0 ini => Sys2Proof.Machine.execPowerReqA0 ini s
  | .powerReqA1 ini => Sys2Proof.Machine.execPowerReqA1 ini s
  | .a1EntryComplete => Sys2Proof.Machine.execA1EntryComplete s
  | .powerReqA2 ini => Sys2Proof.Machine.execPowerReqA2 ini s
  | .wSaveDone => Sys2Proof.Machine.execWSaveDone s
  | .powerReqA3 ini => Sys2Proof.Machine.execPowerReqA3 ini s
  | .wakeInput mask => Sys2Proof.Machine.execWakeInput mask s
  | .wakeTimer => Sys2Proof.Machine.execWakeTimer s
  | .toppwrGoodRise => Sys2Proof.Machine.execToppwrGoodRise s
  | .pgTimeout => Sys2Proof.Machine.execPgTimeout s
  | .pllLock => Sys2Proof.Machine.execPllLock s
  | .sensorMapReloadDone bad => Sys2Proof.Machine.execSensorMapReloadDone bad s
  | .fwLoadDone => Sys2Proof.Machine.execFwLoadDone s
  | .bringupRetry => Sys2Proof.Machine.execBringupRetry s
  | .failRunClear ini => Sys2Proof.Machine.execFailRunClear ini s
  | .toppwrGoodFall => Sys2Proof.Machine.execToppwrGoodFall s
  | .lpddrTrainingDone ok kept => Sys2Proof.Machine.execLpddrTrainingDone ok kept s
  | .coreRestartRequest ini mask r0 r1 r2 r3 => Sys2Proof.Machine.execCoreRestartRequest ini mask r0 r1 r2 r3 s
  | .slotTick n => Sys2Proof.Machine.execSlotTick n s
  | .runStart n ecc => Sys2Proof.Machine.execRunStart n s ecc
  | .issueGroup n ecc badDesc => Sys2Proof.Machine.execIssueGroup n ecc s badDesc
  | .resultWriteback n => Sys2Proof.Machine.execResultWriteback n s
  | .runEnd n ecc => Sys2Proof.Machine.execRunEnd n s ecc
  | .adaptWindowEnd n => Sys2Proof.Machine.execAdaptWindowEnd n s
  | .adaptHoldEnd n => Sys2Proof.Machine.execAdaptHoldEnd n s
  | .outputQueueDrain => Sys2Proof.Machine.execOutputQueueDrain s
  | .slotEnable ini n => Sys2Proof.Machine.execSlotEnable ini n s
  | .slotDisable ini n => Sys2Proof.Machine.execSlotDisable ini n s
  | .slotAbort ini n => Sys2Proof.Machine.execSlotAbort ini n s
  | .stateInit ini n => Sys2Proof.Machine.execStateInit ini n s
  | .clrFault ini n => Sys2Proof.Machine.execClrFault ini n s
  | .stopAll ini => Sys2Proof.Machine.execStopAll ini s
  | .infCntClr ini => Sys2Proof.Machine.execInfCntClr ini s
  | .adaptRst ini n => Sys2Proof.Machine.execAdaptRst ini n s
  | .programLoad n => Sys2Proof.Machine.execProgramLoad n s
  | .hint m => Sys2Proof.Machine.execHint m s
  | .hintCancel m => Sys2Proof.Machine.execHintCancel m s
  | .hintEvaluation => Sys2Proof.Machine.execHintEvaluation s
  | .mailboxWrite => Sys2Proof.Machine.execMailboxWrite s
  | .tokenRefill => Sys2Proof.Machine.execTokenRefill s
  | .hintFlush ini => Sys2Proof.Machine.execHintFlush ini s
  | .hntCntClr ini => Sys2Proof.Machine.execHntCntClr ini s
  | .codewordRx n raw badDesc => Sys2Proof.Machine.execCodewordRx n raw badDesc s
  | .linkTrainStart n => Sys2Proof.Machine.execLinkTrainStart n s
  | .linkDetectDone n => Sys2Proof.Machine.execLinkDetectDone n s
  | .linkAdaptDone n => Sys2Proof.Machine.execLinkAdaptDone n s
  | .linkTxeqDone n => Sys2Proof.Machine.execLinkTxeqDone n s
  | .linkAlignDone n => Sys2Proof.Machine.execLinkAlignDone n s
  | .linkQualifyDone n => Sys2Proof.Machine.execLinkQualifyDone n s
  | .linkTrainFail n => Sys2Proof.Machine.execLinkTrainFail n s
  | .linkRetry n => Sys2Proof.Machine.execLinkRetry n s
  | .linkLos n => Sys2Proof.Machine.execLinkLos n s
  | .bcRetry n => Sys2Proof.Machine.execBcRetry n s
  | .lowpwrExitLock n => Sys2Proof.Machine.execLowpwrExitLock n s
  | .lowpwrRelockTimeout n => Sys2Proof.Machine.execLowpwrRelockTimeout n s
  | .tlRetrain ini n => Sys2Proof.Machine.execTlRetrain ini n s
  | .tlCntClr ini n => Sys2Proof.Machine.execTlCntClr ini n s
  | .mapDone ini => Sys2Proof.Machine.execMapDone ini s
  | .statWindowBoundary n => Sys2Proof.Machine.execStatWindowBoundary n s
  | .rateBoundary n => Sys2Proof.Machine.execRateBoundary n s
  | .guardAssembly badDesc => Sys2Proof.Machine.execGuardAssembly s badDesc
  | .recordWrite => Sys2Proof.Machine.execRecordWrite s
  | .recFlushTimer => Sys2Proof.Machine.execRecFlushTimer s
  | .recRearm ini => Sys2Proof.Machine.execRecRearm ini s
  | .recSwtrig ini => Sys2Proof.Machine.execRecSwtrig ini s
  | .recFlush ini => Sys2Proof.Machine.execRecFlush ini s
  | .recRun ini on => Sys2Proof.Machine.execRecRun ini on s
  | .tfabCntClr ini => Sys2Proof.Machine.execTfabCntClr ini s
  | .sampleTick x => Sys2Proof.Machine.execSampleTick x s
  | .throttlePulse => Sys2Proof.Machine.execThrottlePulse s
  | .analogTrip k => Sys2Proof.Machine.execAnalogTrip k s
  | .analogRelease k => Sys2Proof.Machine.execAnalogRelease k s
  | .tempMeasure die td0 td1 td2 td3 => Sys2Proof.Machine.execTempMeasure die td0 td1 td2 td3 s
  | .redClr ini mask => Sys2Proof.Machine.execRedClr ini mask s
  | .blkClr ini mask => Sys2Proof.Machine.execBlkClr ini mask s
  | .critClr ini => Sys2Proof.Machine.execCritClr ini s
  | .tampCntClr ini => Sys2Proof.Machine.execTampCntClr ini s
  | .powerUp ini groups => Sys2Proof.Machine.execPowerUp ini groups s
  | .powerDown ini groups => Sys2Proof.Machine.execPowerDown ini groups s
  | .trayRestart ini groups => Sys2Proof.Machine.execTrayRestart ini groups s
  | .clear ini groups => Sys2Proof.Machine.execClear ini groups s
  | .seqTick => Sys2Proof.Machine.execSeqTick s
  | .onDelayExpiry rail => Sys2Proof.Machine.execOnDelayExpiry rail s
  | .pwrgdChange idx level x => Sys2Proof.Machine.execPwrgdChange idx level x s
  | .statusPoll => Sys2Proof.Machine.execStatusPoll s
  | .rampTimeout rail => Sys2Proof.Machine.execRampTimeout rail s
  | .precharged rail => Sys2Proof.Machine.execPrecharged rail s
  | .offDelayExpiry rail => Sys2Proof.Machine.execOffDelayExpiry rail s
  | .disTimeout rail => Sys2Proof.Machine.execDisTimeout rail s
  | .trayInputFail => Sys2Proof.Machine.execTrayInputFail s
  | .trayInputGood => Sys2Proof.Machine.execTrayInputGood s
  | .minOffExpiry => Sys2Proof.Machine.execMinOffExpiry s
  | .rstoStretchExpiry k => Sys2Proof.Machine.execRstoStretchExpiry k s
  | .rstoPreExpiry => Sys2Proof.Machine.execRstoPreExpiry s
  | .testModeEnter ini => Sys2Proof.Machine.execTestModeEnter ini s
  | .testModeExit ini => Sys2Proof.Machine.execTestModeExit ini s
  | .marginRequest ini word => Sys2Proof.Machine.execMarginRequest ini word s
  | .marginStep => Sys2Proof.Machine.execMarginStep s
  | .ffrClr ini => Sys2Proof.Machine.execFfrClr ini s
  | .pwmPeriod => Sys2Proof.Machine.execPwmPeriod s
  | .fanUpdate tach => Sys2Proof.Machine.execFanUpdate tach s
  | .curveEval => Sys2Proof.Machine.execCurveEval s
  | .pumpUpdate flows => Sys2Proof.Machine.execPumpUpdate flows s
  | .coolStart ini => Sys2Proof.Machine.execCoolStart ini s
  | .stallClear ini ch word => Sys2Proof.Machine.execStallClear ini ch word s
  | .hostWdtKick session => Sys2Proof.Machine.execHostWdtKick session s
  | .hostWdtExpiry => Sys2Proof.Machine.execHostWdtExpiry s
  | .coolingWdtTrip => Sys2Proof.Machine.execCoolingWdtTrip s
  | .leakMeasure k imp => Sys2Proof.Machine.execLeakMeasure k imp s
  | .leakShutdown k => Sys2Proof.Machine.execLeakShutdown k s
  | .leakClr ini k word => Sys2Proof.Machine.execLeakClr ini k word s
  | .valveCommand ini word => Sys2Proof.Machine.execValveCommand ini word s
  | .consPoll => Sys2Proof.Machine.execConsPoll s
  | .consDailyCheck => Sys2Proof.Machine.execConsDailyCheck s
  | .consLifeHour c => Sys2Proof.Machine.execConsLifeHour c s
  | .twTransactionStart n => Sys2Proof.Machine.execTwTransactionStart n s
  | .twTransactionDone n ended => Sys2Proof.Machine.execTwTransactionDone n ended s
  | .twTimeout n rx => Sys2Proof.Machine.execTwTimeout n s rx
  | .channelGo ini n c word => Sys2Proof.Machine.execChannelGo ini n c word s
  | .targetWrite n addr bytes => Sys2Proof.Machine.execTargetWrite n addr bytes s
  | .targetRead n addr count => Sys2Proof.Machine.execTargetRead n addr count s
  | .txValidTimeout n => Sys2Proof.Machine.execTxValidTimeout n s
  | .targetTimeout n addr => Sys2Proof.Machine.execTargetTimeout n addr s
  | .rxAck ini n => Sys2Proof.Machine.execRxAck ini n s
  | .txValid ini n => Sys2Proof.Machine.execTxValid ini n s
  | .attentionRequest n => Sys2Proof.Machine.execAttentionRequest n s
  | .smbAlert n low => Sys2Proof.Machine.execSmbAlert n low s
  | .alertRetry n => Sys2Proof.Machine.execAlertRetry n s
  | .alertQueueRead ini n => Sys2Proof.Machine.execAlertQueueRead ini n s
  | .wakeAddressMatch n addr => Sys2Proof.Machine.execWakeAddressMatch n addr s
  | .segmentStuck n scl sda => Sys2Proof.Machine.execSegmentStuck n scl sda s
  | .segOffExpiry n => Sys2Proof.Machine.execSegOffExpiry n s
  | .segSettleExpiry n idle => Sys2Proof.Machine.execSegSettleExpiry n idle s
  | .segIdleTimeout n => Sys2Proof.Machine.execSegIdleTimeout n s
  | .segRunReset n => Sys2Proof.Machine.execSegRunReset n s
  | .netStart ini n => Sys2Proof.Machine.execNetStart ini n s
  | .netRetrain ini n => Sys2Proof.Machine.execNetRetrain ini n s
  | .netLinkUp n => Sys2Proof.Machine.execNetLinkUp n s
  | .netLinkDown n => Sys2Proof.Machine.execNetLinkDown n s
  | .netRetry n => Sys2Proof.Machine.execNetRetry n s
  | .netCntClr ini n => Sys2Proof.Machine.execNetCntClr ini n s
  | .fragmentRx peer datagram fec => Sys2Proof.Machine.execFragmentRx peer datagram s fec
  | .reassemblyTimeout sid seq peer => Sys2Proof.Machine.execReassemblyTimeout sid seq s peer
  | .openReq m => Sys2Proof.Machine.execOpenReq m s
  | .openProof m => Sys2Proof.Machine.execOpenProof m s
  | .openProofTimeout n => Sys2Proof.Machine.execOpenProofTimeout n s
  | .tmpClose m => Sys2Proof.Machine.execTmpClose m s
  | .ping m => Sys2Proof.Machine.execPing m s
  | .readStat m badDesc => Sys2Proof.Machine.execReadStat m s badDesc
  | .subscribe m => Sys2Proof.Machine.execSubscribe m s
  | .fpStatement m => Sys2Proof.Machine.execFpStatement m s
  | .tmpStatus m => Sys2Proof.Machine.execTmpStatus m s
  | .setCap m => Sys2Proof.Machine.execSetCap m s
  | .setFloor m => Sys2Proof.Machine.execSetFloor m s
  | .job m => Sys2Proof.Machine.execJob m s
  | .jobHoldExpiry n => Sys2Proof.Machine.execJobHoldExpiry n s
  | .sigInstall m => Sys2Proof.Machine.execSigInstall m s
  | .seqCmd m => Sys2Proof.Machine.execSeqCmd m s
  | .tampClear m => Sys2Proof.Machine.execTampClear m s
  | .powerState m => Sys2Proof.Machine.execPowerState m s
  | .topReset m => Sys2Proof.Machine.execTopReset m s
  | .tmpWdtKick m => Sys2Proof.Machine.execTmpWdtKick m s
  | .recCtl m => Sys2Proof.Machine.execRecCtl m s
  | .settingCommit m => Sys2Proof.Machine.execSettingCommit m s
  | .warmReset m => Sys2Proof.Machine.execWarmReset m s
  | .margin m => Sys2Proof.Machine.execMargin m s
  | .accordAccept m flashOk uncorr => Sys2Proof.Machine.execAccordAccept m flashOk s uncorr
  | .keyChangeAdd m otpOk => Sys2Proof.Machine.execKeyChangeAdd m otpOk s
  | .keyChangeRetire m => Sys2Proof.Machine.execKeyChangeRetire m s
  | .debugUnlockChallenge m => Sys2Proof.Machine.execDebugUnlockChallenge m s
  | .debugUnlockResponse m => Sys2Proof.Machine.execDebugUnlockResponse m s
  | .logClear m => Sys2Proof.Machine.execLogClear m s
  | .heartbeat => Sys2Proof.Machine.execHeartbeat s
  | .eventDelivery n => Sys2Proof.Machine.execEventDelivery n s
  | .recBufDelivery n uncorr => Sys2Proof.Machine.execRecBufDelivery n uncorr s
  | .idleTimeout n => Sys2Proof.Machine.execIdleTimeout n s
  | .closeAll ini => Sys2Proof.Machine.execCloseAll ini s
  | .sesCntClr ini => Sys2Proof.Machine.execSesCntClr ini s
  | .replySubmit ini wr => Sys2Proof.Machine.execReplySubmit ini wr s
  | .svcBegin peer xfer total => Sys2Proof.Machine.execSvcBegin peer xfer total s
  | .svcData peer xfer offset bytes => Sys2Proof.Machine.execSvcData peer xfer offset bytes s
  | .svcEnd peer xfer uncorr => Sys2Proof.Machine.execSvcEnd peer xfer s uncorr
  | .svcQuery peer xfer => Sys2Proof.Machine.execSvcQuery peer xfer s
  | .transferTimeout => Sys2Proof.Machine.execTransferTimeout s
  | .flashWriteDone res uncorr => Sys2Proof.Machine.execFlashWriteDone res s uncorr
  | .activationCheck => Sys2Proof.Machine.execActivationCheck s
  | .abandonStaged ini => Sys2Proof.Machine.execAbandonStaged ini s
  | .keyFpStatement ini => Sys2Proof.Machine.execKeyFpStatement ini s
  | .getPub ini => Sys2Proof.Machine.execGetPub ini s
  | .dbgChallenge ini => Sys2Proof.Machine.execDbgChallenge ini s
  | .dbgResponse ini => Sys2Proof.Machine.execDbgResponse ini s
  | .keyAdd ini otpOk => Sys2Proof.Machine.execKeyAdd ini otpOk s
  | .keyRetire ini => Sys2Proof.Machine.execKeyRetire ini s
  | .keyRequestDone => Sys2Proof.Machine.execKeyRequestDone s
  | .presBtnPress => Sys2Proof.Machine.execPresBtnPress s
  | .presenceWindowEnd => Sys2Proof.Machine.execPresenceWindowEnd s
  | .presClose ini => Sys2Proof.Machine.execPresClose ini s
  | .sealBreak => Sys2Proof.Machine.execSealBreak s
  | .debugLock => Sys2Proof.Machine.execDebugLock s
  | .fwPanic ini mask csrs => Sys2Proof.Machine.execFwPanic ini mask csrs s
  | .trapLockup c csrs => Sys2Proof.Machine.execTrapLockup c csrs s
  | .coreWdtExpiry c csrs => Sys2Proof.Machine.execCoreWdtExpiry c csrs s
  | .fwWdtKick ini c key => Sys2Proof.Machine.execFwWdtKick ini c key s
  | .fwTopwdtKick ini key => Sys2Proof.Machine.execFwTopwdtKick ini key s
  | .topWdtExpiry => Sys2Proof.Machine.execTopWdtExpiry s
  | .kprWdtKick ini key => Sys2Proof.Machine.execKprWdtKick ini key s
  | .keeperWdtExpiry => Sys2Proof.Machine.execKeeperWdtExpiry s
  | .k1Run ini => Sys2Proof.Machine.execK1Run ini s
  | .textLock ini => Sys2Proof.Machine.execTextLock ini s
  | .logEntryCommit ini c word => Sys2Proof.Machine.execLogEntryCommit ini c word s
  | .keeperLogEntry ini word => Sys2Proof.Machine.execKeeperLogEntry ini word s
  | .silPortSubmit ini port word => Sys2Proof.Machine.execSilPortSubmit ini port word s
  | .sillageRecordWrite => Sys2Proof.Machine.execSillageRecordWrite s
  | .rlimSecond => Sys2Proof.Machine.execRlimSecond s
  | .silTokenRefill code => Sys2Proof.Machine.execSilTokenRefill code s
  | .correlationWindowClose g => Sys2Proof.Machine.execCorrelationWindowClose g s
  | .freeze ini => Sys2Proof.Machine.execFreeze ini s
  | .unfreeze ini => Sys2Proof.Machine.execUnfreeze ini s
  | .freezeMaxExpiry => Sys2Proof.Machine.execFreezeMaxExpiry s
  | .service ini => Sys2Proof.Machine.execService ini s
  | .recov ini on => Sys2Proof.Machine.execRecov ini on s
  | .nvmClr ini => Sys2Proof.Machine.execNvmClr ini s
  | .silCntClr ini => Sys2Proof.Machine.execSilCntClr ini s
  | .silNvmCommit => Sys2Proof.Machine.execSilNvmCommit s
  | .snap ini => Sys2Proof.Machine.execSnap ini s
  | .baseClockStall => Sys2Proof.Machine.execBaseClockStall s
  | .baseClockResume => Sys2Proof.Machine.execBaseClockResume s
  | .sealLoopContinuous => Sys2Proof.Machine.execSealLoopContinuous s
  | .coreResetRelease c => Sys2Proof.Machine.execCoreResetRelease c s
  | .debugHalt core => Sys2Proof.Machine.execDebugHalt core s
  | .debugResume core => Sys2Proof.Machine.execDebugResume core s
  | .keeperTrapHalt k => Sys2Proof.Machine.execKeeperTrapHalt k s
  | .netServiceFrame port frame vid fec => Sys2Proof.Machine.execNetServiceFrame port frame s vid fec

end Sys2Proof.Machine
end

