-- ==== Sys2Proof/Machine/Idle.lean ====
section
/-! DEFINITION. What passes while no command waits: one period of the base clock, the CTRL requests that wait for the Bridge (R28, R32),
the accesses that gated domains' ports hold (R87, R88),
the firmware's cap loop (R403), and the Keeper firmware's answer to repeated crashes (R406). -/

namespace Sys2Proof.Machine

/-! ### Held accesses (R87, R88) -/

/-- The gate of a held access's domain is still being asked for. -/
def State.stillHeld (s : State) (q : BusReq) : Bool :=
  match gateDomain (regionOf q.addr) q.addr with
  | some d => s.gateAsked d
  | none => false

/-- The oldest access whose gate has succeeded or been refused goes on: with a bus error, or performed (R87, R88). One access goes on in a
period (log entry 49). -/
def State.heldGo (s : State) : State :=
  match s.clk.held.find? (fun e => !s.stillHeld e.2.1) with
  | none => s
  | some e =>
    let t := (s.modClk (fun c => { c with held := c.held.erase e })).access e.1 e.2.1 e.2.2
    if crosses e.1 e.2.1.addr then t.ctrlBack e.1 e.2.1 e.2.2 else t

/-! ### Waiting CTRL requests (R28, R32) -/

/-- The oldest completion that no GUARD message holds back any more is sent, and its access ends (R28); completions go before requests
(log entry 14). -/
def State.backNext (s : State) : State :=
  match s.brg.backQ.find? (fun e => s.flows && s.vcFree vcCtrl (1 - ctrlDir e.1)) with
  | none => s
  | some e => ({ s.modBrg (fun x => { x with backQ := x.backQ.erase e }) with bus := e.2.2.2 }).backSend e.1 e.2.1 e.2.2.1

/-- The oldest CTRL request that nothing holds back any more is sent. -/
def State.ctrlNext (s : State) : State :=
  match s.brg.ctrlQ.find? (fun e => !s.ctrlStuck e.1 e.2.1) with
  | none => s
  | some e => (s.modBrg (fun x => { x with ctrlQ := x.ctrlQ.erase e })).ctrlStart e.1 e.2.1 e.2.2.1 e.2.2.2

/-! ### Back-channel transactions (R199) -/

/-- What a link's back-channel has waiting for the Bridge crosses once GUARD leaves it room: a result, then a command. -/
def State.bcCross (s : State) (n : Nat) : State :=
  let l := s.link n
  if !s.flows then s
  else
    match l.bc, l.bcRes with
    | some (c, _), some (r, rx) =>
      if s.vcFree vcCtrl 1 then (s.modLink n (fun l => { l with bcRes := none })).bcBack n c r rx else s
    | some (c, _), none => if l.bcHeld && s.vcFree vcCtrl 0 then s.bcGo n c else s
    | none, _ => s

def State.bcNext (s : State) : State := (List.range 8).foldl State.bcCross s

/-! ### The cap loop (R403) -/

def State.modCaps (s : State) (f : CapSt → CapSt) : State := s.modFw (fun w => { w with caps := f w.caps })

/-- The comparator that carries a power: QTY and SCOPE, enabled for Black (R240). -/
def State.powerCmp (s : State) (qty scope : Nat) : Option Nat :=
  (List.range 256).find? (fun k =>
    s.get (TAMP_CMP_CFG.QTY k) == qty && s.get (TAMP_CMP_CFG.SCOPE k) == scope && s.on (TAMP_CMP_CFG.BLK_EN k))

/-- The power that a comparator shows, in W. -/
def State.powerNow (s : State) (qty scope : Nat) : Int := ((s.powerCmp qty scope).map (fun k => sgn 16 (s.get (TAMP_CMP_STS.VALUE k)))).getD 0

/-- The powers of the accelerators, and last of the tray. -/
def State.powers (s : State) : List Int := (List.range 8).map (s.powerNow 1) ++ [s.powerNow 2 8]

/-- One sample of the powers. -/
def State.capSample (s : State) : State :=
  s.modCaps (fun c => { c with n := c.n + 1, sums := List.zipWith (· + ·) c.sums s.powers })

/-- The mean of a period's samples; target 8 is the tray. -/
def CapSt.mean (c : CapSt) (t : Nat) : Int := if c.n = 0 then 0 else c.sums.getD t 0 / (c.n : Int)

/-- One accelerator's level against its effective cap (R403). -/
def CapSt.judge (c : CapSt) (a cap : Nat) : CapSt :=
  let p := c.mean a
  if cap ≠ 0 ∧ (cap : Int) < p then { c with lvl := modAt c.lvl a (fun l => min (l + 1) 7), under := modAt c.under a (fun _ => 0) }
  else if cap = 0 ∨ p < ((cap * 95 / 100 : Nat) : Int) then
    let u := c.under.getD a 0 + 1
    if 5 ≤ u ∧ 0 < c.lvl.getD a 0 then { c with lvl := modAt c.lvl a (· - 1), under := modAt c.under a (fun _ => 0) }
    else { c with under := modAt c.under a (fun _ => u) }
  else c

/-- The accelerator of the highest power among the first n; the lowest number of equals. -/
def CapSt.highest (c : CapSt) (n : Nat) : Nat :=
  (List.range n).foldl (fun b a => if c.mean b < c.mean a then a else b) 0

/-- The tray's power against its effective cap. -/
def CapSt.judgeTray (c : CapSt) (n cap : Nat) : CapSt :=
  if cap ≠ 0 ∧ (cap : Int) < c.mean 8 ∧ 0 < n then { c with lvl := modAt c.lvl (c.highest n) (fun l => min (l + 1) 7) } else c

/-- The level that Tamp's clamp has sent for an accelerator: SENT of its kind-5 ports. -/
def State.tampSent (s : State) (a : Nat) : Nat :=
  (List.range 64).foldl (fun m p => if (s.cport p).kind = 5 ∧ (s.cport p).acc = a then max m (s.get (TAMP_PROP.SENT p)) else m) 0

/-- The word of TWn_CH1_CMD for BC_THROTTLE: Write Byte with PEC to the transmitter of a link (R200, R318). -/
def throttleCmd (addr : Nat) : Nat := 4 + 2 ^ 4 + 2 ^ 5 * addr + 2 ^ 12 * 0x30 + 2 ^ 31

/-- BC_THROTTLE sent on command channel 1 of the link's port, where that channel is free (R403). -/
def State.capSend (s : State) (a lvl : Nat) : State :=
  let n := s.get (TL_BC.BUS a)
  if s.on (TW_CH_STS.BUSY n 1) || 12 ≤ n then s
  else
    ((s.set (TW_CH_BUF.DATA n 1 0) lvl).channelWrite n 1 (throttleCmd (s.get (TL_BC.ADDR a)))).modCaps (fun c =>
      { c with sent := modAt c.sent a (fun _ => lvl) })

/-- What an accelerator is to be sent: the cap's level or Tamp's, whichever is higher. A level that Tamp has sent meanwhile is what the
accelerator acts on. -/
def State.capAct (s : State) (a : Nat) : State :=
  let t := s.tampSent a
  let s := if t = s.fw.caps.seen.getD a 0 then s
    else s.modCaps (fun c => { c with seen := modAt c.seen a (fun _ => t), sent := modAt c.sent a (fun _ => t) })
  let want := max (s.fw.caps.lvl.getD a 0) t
  if want = s.fw.caps.sent.getD a 0 then s else s.capSend a want

/-- The loop at a millisecond (R403), which commits its levels (R402). -/
def State.capLoop (s : State) : State :=
  let n := s.get ACD_INFO.ACC_COUNT
  let c := (List.range n).foldl (fun c a => c.judge a (s.get (SES_CAP.CAP a))) s.fw.caps
  let c := c.judgeTray n (s.get (SES_CAP.CAP 8))
  let s := (List.range n).foldl State.capAct (s.modCaps (fun _ => c))
  (s.commit s.fw.caps.record).modCaps (fun c => { c with n := 0, sums := List.replicate 9 0 })

/-- The task on C0: a sample every 100 µs and the loop every 1 ms of the Top die's timestamp copy (R401, R403), while C0 runs and the
Bridge carries its accesses; samples of a period that is broken off are dropped (log entry 38). -/
def State.capTask (s : State) : State :=
  let k := s.topNow / 100000
  if k = s.fw.caps.tick then s
  else
    let s := s.modCaps (fun c => { c with tick := k })
    if s.coreRuns 0 && s.bridgeUp then
      let s := s.capSample
      if k % 10 = 0 then s.capLoop else s
    else s.modCaps (fun c => { c with n := 0, sums := List.replicate 9 0 })

/-! ### The Keepers' rule on repeated crashes (R406) -/

/-- Four crashes of one core within 60 s. -/
def State.fourCrashes (s : State) (c : Nat) : Bool :=
  match s.fw.crashes.filter (·.1 == c) with
  | e :: _ :: _ :: f :: _ => decide (e.2 ≤ f.2 + 60000000000)
  | _ => false

/-- The Keeper firmware starts a Top reset with cause KEEPER when one Control core restarts four times within 60 s, and counts
anew (R406; log entry 38). -/
def State.keeperTask (s : State) : State :=
  if s.pwr.keepersRun && !s.fw.kprHalt.contains 0 && (List.range 4).any s.fourCrashes then
    (s.modFw (fun f => { f with crashes := [] })).topRequest topKeeper
  else s

/-- One period with no command waiting (log entry 3). -/
def State.idle (s : State) : State := s.tickBase.backNext.ctrlNext.bcNext.heldGo.engineNext.capTask.lockTask.keeperTask

end Sys2Proof.Machine
end

