-- ==== Sys2Proof/Machine/Pins.lean ====
section
/-! DEFINITION. What the T8's balls drive (R442), group by group: which of them are high-impedance, released, held, or follow their unit; and
what a flexible ball carries behind its pad (R45 to R47). The levels that a unit drives are that unit's state. -/

namespace Sys2Proof.Machine

/-- The groups of R442; the reset outputs of the FX balls stand apart from EN, since A3 tells them apart. -/
inductive BallGroup where
  | brk | sysShdn | fxEn | fxRsto | fxPwm | fxVlv | twoWire | toppwrEn | spi | topDie
deriving DecidableEq, Repr

/-- The conditions of R442, its columns, and the state in which the T8 runs in A0 or A1. -/
inductive PinTime where
  | belowBor | coldPor | warmReset | a2 | a3 | up
deriving DecidableEq, Repr

/-- What the balls of a group do. `held` keeps the level that stood, `unit` follows the unit that owns the function; `highZCs` is the SPI port
with SPI_CS_N alone pulled high inside. -/
inductive Drive where
  | highZ | highZCs | released | held | unit | low | active | full | a3Duty | enOff | araOnly
deriving DecidableEq, Repr

/-- The table of R442. In A0 and A1 every group follows its unit. -/
def driveAt : BallGroup → PinTime → Drive
  | _, .belowBor => .highZ
  | .brk, .coldPor => .released
  | .brk, .warmReset => .held
  | .brk, .a2 | .brk, .a3 | .brk, .up => .unit
  | .sysShdn, _ => .unit
  | .fxEn, .coldPor | .fxRsto, .coldPor => .highZ
  | .fxEn, .warmReset | .fxRsto, .warmReset => .held
  | .fxEn, .a2 | .fxEn, .up | .fxRsto, .a2 | .fxRsto, .up => .unit
  | .fxEn, .a3 => .enOff
  | .fxRsto, .a3 => .held
  | .fxPwm, .coldPor => .highZ
  | .fxPwm, .warmReset => .full
  | .fxPwm, .a2 | .fxPwm, .up => .unit
  | .fxPwm, .a3 => .a3Duty
  | .fxVlv, .coldPor => .highZ
  | .fxVlv, .warmReset => .held
  | .fxVlv, .a2 | .fxVlv, .a3 | .fxVlv, .up => .unit
  | .twoWire, .coldPor | .twoWire, .warmReset => .released
  | .twoWire, .a2 | .twoWire, .up => .active
  | .twoWire, .a3 => .araOnly
  | .toppwrEn, .coldPor => .low
  | .toppwrEn, .warmReset => .held
  | .toppwrEn, .a2 | .toppwrEn, .a3 => .low
  | .toppwrEn, .up => .unit
  | .spi, .coldPor | .spi, .warmReset | .spi, .a2 | .spi, .up => .active
  | .spi, .a3 => .highZCs
  | .topDie, _ => .highZ

/-- The cold POR has not reached step 4 (R97), or TEST_MODE holds it before its first step (R433). -/
def State.coldEarly (s : State) : Bool :=
  s.pwr.testMode || match s.pwr.rom with
  | .cold _ _ => true
  | _ => false

/-- The condition of R442 that the T8 is in. -/
def State.pinTime (s : State) : PinTime :=
  if s.coldEarly then .coldPor
  else if s.pwr.borOn then .belowBor
  else if s.pwr.warmOn then .warmReset
  else if s.get PWRST_STATE.CUR = 3 then .a3
  else if s.get PWRST_STATE.CUR = 2 then .a2
  else .up

/-- A group of flexible balls. -/
def BallGroup.flexible : BallGroup → Bool
  | .fxEn | .fxRsto | .fxPwm | .fxVlv => true
  | _ => false

/-- A3, A2, A1 or A0 stands, with no reset: the conditions in which a bring-up may power the Top die. -/
def PinTime.powers : PinTime → Bool
  | .a2 | .up => true
  | _ => false

/-- What a group's balls do now. Flexible balls rest until an Accord is applied (R47); SPI starts with step 4 of the cold POR; TEST_MODE's hold
stands before step 2, so SYS_SHDN_N is released; the balls of the Top die follow their units while its rails are on, from step 1 of a bring-up
(R105, R441), and TOPPWR_EN with them. -/
def State.drive (s : State) (g : BallGroup) : Drive :=
  if g.flexible && !s.locked then .highZ
  else if g = .spi ∧ s.coldEarly then .highZ
  else if g = .sysShdn ∧ s.pwr.testMode then .released
  else if (g = .topDie ∨ g = .toppwrEn) ∧ s.pinTime.powers ∧ s.pwr.toppwrEn then .unit
  else driveAt g s.pinTime

/-! ### Flexible balls (R45 to R47) -/

/-- What a function or a ball carries: nothing driven, a level, or a PWM duty in 0.1 %. -/
inductive FnOut where
  | z
  | level (high : Bool)
  | pwm (duty : Nat)
deriving DecidableEq, Repr

/-- A flexible ball: what the T8 drives onto it, whether its high part is released, its pull (R45: 0 none, 1 up, 2 down), its input buffer. -/
structure FxBall where
  out : FnOut := .z
  od : Bool := false
  pull : Nat := 0
  input : Bool := false
deriving DecidableEq, Repr

/-- The group of an output class; none for an input. -/
def fnGroup (cls : Nat) : Option BallGroup :=
  if cls = fnEn then some .fxEn
  else if cls = fnRsto then some .fxRsto
  else if cls = fnFanPwm ∨ cls = fnPmpPwm then some .fxPwm
  else if cls = fnVlv ∨ cls = fnSegpwr then some .fxVlv
  else none

/-- What a function's unit drives: an asserted reset output is low (R274), a valve that is driven closed is high (log entry 54). -/
def State.fnUnit (s : State) (cls i : Nat) : FnOut :=
  if cls = fnEn then .level (bitOf s.seq.enLvl i)
  else if cls = fnRsto then .level (!bitOf s.seq.rsto i)
  else if cls = fnFanPwm then .pwm (s.get (chOut i))
  else if cls = fnPmpPwm then .pwm (s.get (chOut (24 + i)))
  else if cls = fnVlv then .level (bitOf (s.get COOL_VLV.CLOSED) i)
  else if cls = fnSegpwr then .level (s.on (TW_STS.SEGPWR i))
  else .z

/-- What a function drives as its group stands: a held level is the one that its unit's state keeps. -/
def State.fnOut (s : State) (cls i : Nat) : FnOut :=
  match (fnGroup cls).map s.drive with
  | none | some .highZ | some .highZCs | some .released => .z
  | some .full => .pwm 1000
  | some .enOff | some .low => .level false
  | some _ => s.fnUnit cls i

/-- The pad's inversion of what a function drives. -/
def FnOut.invert : FnOut → FnOut
  | .z => .z
  | .level b => .level (!b)
  | .pwm d => .pwm (1000 - d)

/-- Behind its pad a function's output is inverted where PAD says so, and an open-drain ball drives no high level (R45). -/
def padOut (pad : Nat) (f : FnOut) : FnOut :=
  match if bitOf pad 3 then f.invert else f with
  | .level true => if bitOf pad 2 then .z else .level true
  | x => x

/-- The level that a function sees of its ball, through the pad's inversion: what the commands of input pins report (R45; log entry 54). -/
def padIn (pad : Nat) (high : Bool) : Bool := high != bitOf pad 3

/-- What a flexible ball does. A ball that no entry of the Accord in force names is high-impedance with its input buffer off (R47). -/
def State.fxBall (s : State) (ball : Nat) : FxBall :=
  match (if s.locked then s.acd.xbar else []).find? (fun e => e.1 == ball) with
  | none => {}
  | some (_, fn, pad) =>
    { out := padOut pad (s.fnOut (fn / 256) (fn % 256)), od := bitOf pad 2, pull := bitsOf pad 0 2, input := (fnGroup (fn / 256)).isNone }

end Sys2Proof.Machine
end

