-- ==== Sys2Proof/Safety.lean ====
section
/-! DEFINITION. What a well-kept state is and which part of the state a claim speaks of, in the terms the claims use. -/

namespace Sys2Proof.Machine

/-- The parts of the state, one for each field of State. -/
inductive Part where
  | regs | time | clk | sil | nvm | pwr | brg | tw | seq | tamp | cool | tel | inf | otp | acd | key | fw | ses | sec | flash | bus | mem | fresh | pending
deriving DecidableEq, Repr

/-- Two states agree on a part. -/
def State.agree (s t : State) : Part → Prop
  | .regs => t.regs = s.regs
  | .time => t.time = s.time
  | .clk => t.clk = s.clk
  | .sil => t.sil = s.sil
  | .nvm => t.nvm = s.nvm
  | .pwr => t.pwr = s.pwr
  | .brg => t.brg = s.brg
  | .tw => t.tw = s.tw
  | .seq => t.seq = s.seq
  | .tamp => t.tamp = s.tamp
  | .cool => t.cool = s.cool
  | .tel => t.tel = s.tel
  | .inf => t.inf = s.inf
  | .otp => t.otp = s.otp
  | .acd => t.acd = s.acd
  | .key => t.key = s.key
  | .fw => t.fw = s.fw
  | .ses => t.ses = s.ses
  | .sec => t.sec = s.sec
  | .flash => t.flash = s.flash
  | .bus => t.bus = s.bus
  | .mem => t.mem = s.mem
  | .fresh => t.fresh = s.fresh
  | .pending => t.pending = s.pending

/-- Two states agree on every part that a list does not name: the frame of a command. -/
def Frame (ps : List Part) (s t : State) : Prop := ∀ p, p ∉ ps → s.agree t p

/-- Memory lists addresses strictly rising and no byte equal to what an unlisted address reads as; the register file lists its keys
strictly rising. So equal memories and equal register files are equal data. -/
def State.Inv (s : State) : Prop := Memory.wf s.mem = true ∧ ascending s.regs = true

/-- The machine's tables have their fixed numbers of entries: the 12 two-wire ports, 8 links, 64 Tamp ports, 30 duty channels, 16 leak
channels, 32 consumables, 6 pumps, 16 program slots, 4 clusters, 6 timers, and each
interrupt controller's 64 sources and 4 contexts. -/
def State.tables (s : State) : Prop :=
  s.tw.length = 12 ∧ s.tel.links.length = 8 ∧ s.tamp.ports.length = 64 ∧ s.cool.ch.length = 30 ∧ s.cool.leaks.length = 16 ∧
    s.cool.cons.length = 32 ∧ s.cool.pumps.length = 6 ∧ s.inf.slots.length = 16 ∧ s.inf.cls.length = 4 ∧ s.fw.mtimecmp.length = 6 ∧
    (∀ p ∈ [s.fw.plic, s.fw.kplic], p.prio.length = 64 ∧ p.en.length = 4 ∧ p.thr.length = 4)

/-- Every register field but the listed ones reads the same in both states. -/
def RegsOnly (fs : List Fld) (s t : State) : Prop := ∀ f : Fld, (∀ g ∈ fs, f.key ≠ g.key) → t.get f = s.get f

/-- A message reaches open session n as one that R351 accepts up to its third step: by a port that is UP, with the session's
identifier and a SEQ that may be accepted. State A1, which such a message ends, is told apart. -/
def State.msgHeard (s : State) (n : Nat) (m : TmpMsg) : Bool :=
  s.netLink m.peer.port.val && s.sidOf m.sid.toNat == some n && s.isOpen n && s.seqFresh n m.seq.toNat
    && s.cur != 1 && s.pwr.trans != some .toA1

/-- Such a message of a type that passes every further check of R351. -/
def State.msgPasses (s : State) (n t : Nat) (m : TmpMsg) : Bool := s.msgHeard n m && s.tmpCheck n t m == 0

/-- The reply of session n to a message (R340, R342, R353, R354): RESP and ENC set, the session's next SEQ, the head with STATUS, DETAIL
and the message's SEQ, then the body. -/
def State.answer (s : State) (n : Nat) (m : TmpMsg) (t status detail : Nat) (body : List Byte) : Sent :=
  let q := (s.get64 (SESS_TSEQ_LO.V n) (SESS_TSEQ_HI.V n) + 1) % 2 ^ 64
  let pay := leBytes 2 status ++ leBytes 2 detail ++ leBytes 8 m.seq.toNat ++ body
  .tmp m.peer (s.ipHead m.peer) t 3 (s.get (SESS_SID.SID n)) q pay
    (s.datagrams m.peer (s.sess n).txKey (s.sess n).txSalt t 3 (s.get (SESS_SID.SID n)) q pay)

/-- The firmware's message task can take the next message at once: its core runs, no message waits, the receive queue's two pointers
agree, and the slot that the message goes into is not marked taken (R361). -/
def State.fwIdle (s : State) : Bool :=
  s.coreRuns 1 && s.ses.rxq == [] && s.get SES_RXQ_PTR.RD == s.get SES_RXQ_PTR.WR
    && !bitOf (memRead s.mem (slotAt (s.get SES_RXQ_BASE.BASE) (s.get SES_RXQ_PTR.WR) + 3)).toNat 0

/-- What a command that answers l over SVC leaves sent and held: the port of domain 6 holds it while its gate is asked for (R87). -/
def State.svcSent (s : State) (l : List Sent) : List Sent × List Sent :=
  if s.gateAsked 6 then ([], s.ses.txHeld ++ l) else (l, s.ses.txHeld)

/-- The command row that a host's complete message of a type is, for the types that have one row with the message alone as its operand
(R342, R352), and ACCORD_ACCEPT with a flash write that is good. -/
def tmpRowOf (ty : Nat) (m : TmpMsg) : Option Instr :=
  look ty [(tyPing, .ping m), (tyClose, .tmpClose m), (tyReadStat, .readStat m []), (tySubscribe, .subscribe m),
    (tyFpStatement, .fpStatement m), (tyStatus, .tmpStatus m), (tyHint, .hint m), (tyHintCancel, .hintCancel m), (tySetCap, .setCap m),
    (tySetFloor, .setFloor m), (tyJob, .job m), (tySigInstall, .sigInstall m), (tySeqCmd, .seqCmd m), (tyTampClear, .tampClear m),
    (tyPowerState, .powerState m), (tyTopReset, .topReset m), (tyWdtKick, .tmpWdtKick m), (tyRecCtl, .recCtl m),
    (tySettingCommit, .settingCommit m), (tyWarmReset, .warmReset m), (tyMargin, .margin m), (tyAccordAccept, .accordAccept m true),
    (tyLogClear, .logClear m)]

/-- The message that a sender's fragments with the header values of f carry. -/
def Frag.msgOf (f : Frag) (peer : Peer) (payload : List Byte) : TmpMsg :=
  { peer := peer, vmaj := Fin.ofNat 256 f.vmaj, vmin := Fin.ofNat 256 f.vmin, sid := BitVec.ofNat 32 f.sid, seq := BitVec.ofNat 64 f.seq,
    payload := payload }

/-- The machine when a fragment has been taken off its port: its frames' FEC counts and NET_RX (R362), and no fragments kept of its
message. -/
def State.fragTaken (s : State) (peer : Peer) (fec : FecCount) (f : Frag) : State :=
  let u := s.fecCount peer.port.val fec
  let u := u.set (NET_RX.CNT peer.port.val) (u.get (NET_RX.CNT peer.port.val) + 1)
  { u with ses := { u.ses with parts := u.ses.parts.filter (fun p => !p.of peer f.sid f.seq) } }

end Sys2Proof.Machine
end

