-- ==== Sys2Proof/Certificates/Slice0/Obligations.lean ====
section
/-! DEFINITION. The statements about the T8, from the numbered rules of the spec. -/

open Sys2Proof Sys2Proof.Machine

/-- A message that gets through (its replays not exhausted) leaves its header as the last one seen and adds its corrected and rejected beats to the counters. Guard values at the front of GUARD replace those held for their positions, with their tick, and GUARD moves on. A mirror entry at the front of BULK goes into the log mirror under the next MSEQ; an event there joins Sillage, outside A3; BULK moves on. BULK messages do nothing while GUARD holds a message or CTRL, in the same direction, an access. Where the Bridge is neither UP nor in QUIESCE, guard values and BULK messages do nothing. A keepalive changes nothing but what every message changes, and nothing at all while the Bridge is not UP. The model's choices: the kinds and lengths of the headers, and BULK standing still while GUARD or CTRL holds one (log entry 47); the keepalive's content (log entry 16). Liveness lost while UP sets TOP_LOST with the timestamp. A write of FENCE in a state other than FENCED counts a loss. A message of guard values, a keepalive or a time message whose replays are exhausted sets REPLAY_EXH. After each of them the Bridge is not UP and nothing waits on GUARD or BULK. While the Bridge is not UP, liveness lost changes nothing; FENCE written in FENCED sets its bit and changes nothing else. Which state follows is not said here. FENCE acting from every state, OFF included, and a repeated FENCE not being counted are the model's reading (log entry 16). -/
def Obligations.BridgeMessagesArriveOrAreFenced : Prop :=
  (∀ (s : State) (beats : Beats) (tick : Nat) (vs : List (Nat × Nat)) (q : List GuardMsg), s.brg.guardQ = .values tick vs :: q → s.flows = true → s.exhausted beats = false →
    ∃ t, exec (.guardMessage beats) s = .next t ∧ t.brg.guardQ = q ∧ t.tamp.guard = vs.foldl (fun g v => put v.1 (v.2, tick) g) s.tamp.guard ∧ t.brg.hdr = some { vc := vcGuard, dir := 0, kind := kindValues, len := 4, seq := s.brgNext vcGuard 0, addr := 0 } ∧ t.get BRG_ECC_CNT.CORR = satCount 16 (s.get BRG_ECC_CNT.CORR) beats.corrected ∧ t.get BRG_ECC_CNT.UNCORR = satCount 16 (s.get BRG_ECC_CNT.UNCORR) beats.rejected ∧ RegsOnly [BRG_ECC_CNT.CORR, BRG_ECC_CNT.UNCORR] s t ∧ Frame [.regs, .brg, .tamp] s t) ∧
  (∀ (s : State) (beats : Beats) (e : List Nat) (q : List BulkMsg), s.brg.bulkQ = .mirror e :: q → s.brg.guardQ = [] → s.ctrlWaits 0 = false → s.flows = true → s.exhausted beats = false →
    ∃ t, exec (.bulkMessage beats) s = .next t ∧ t.brg.bulkQ = q ∧ t.get BRG_LOG_MSEQ.MSEQ = (s.get BRG_LOG_MSEQ.MSEQ + 1) % 2 ^ 32 ∧ t.mem = memStore s.mem (0x10180000 + 32 * (((s.get BRG_LOG_MSEQ.MSEQ + 1) % 2 ^ 32) % 8192)) (padTo 32 (entryBytes e)) ∧ t.brg.hdr = some { vc := vcBulk, dir := 0, kind := kindMirror, len := 4, seq := s.brgNext vcBulk 0, addr := 0 } ∧ t.get BRG_ECC_CNT.CORR = satCount 16 (s.get BRG_ECC_CNT.CORR) beats.corrected ∧ t.get BRG_ECC_CNT.UNCORR = satCount 16 (s.get BRG_ECC_CNT.UNCORR) beats.rejected ∧ RegsOnly [BRG_ECC_CNT.CORR, BRG_ECC_CNT.UNCORR, BRG_SEQ.BULK_RX, BRG_LOG_MSEQ.MSEQ] s t ∧ Frame [.regs, .brg, .mem] s t) ∧
  (∀ (s : State) (beats : Beats) (ev : Event) (q : List BulkMsg), s.brg.bulkQ = .event ev :: q → s.brg.guardQ = [] → s.ctrlWaits 0 = false → s.flows = true → s.exhausted beats = false → s.get PWRST_STATE.CUR ≠ 3 →
    ∃ t, exec (.bulkMessage beats) s = .next t ∧ t.brg.bulkQ = q ∧ t.sil = s.sil.admitOne (s.on SEQ_CTL.TEST) false ev ∧ t.brg.hdr = some { vc := vcBulk, dir := 0, kind := kindRecord, len := 8, seq := s.brgNext vcBulk 0, addr := 0 } ∧ t.get BRG_ECC_CNT.CORR = satCount 16 (s.get BRG_ECC_CNT.CORR) beats.corrected ∧ t.get BRG_ECC_CNT.UNCORR = satCount 16 (s.get BRG_ECC_CNT.UNCORR) beats.rejected ∧ RegsOnly [BRG_ECC_CNT.CORR, BRG_ECC_CNT.UNCORR, BRG_SEQ.BULK_RX] s t ∧ Frame [.regs, .sil, .brg] s t) ∧
  (∀ (s : State) (beats : Beats), s.brg.guardQ ≠ [] → exec (.bulkMessage beats) s = .next s) ∧
  (∀ (s : State) (beats : Beats), s.ctrlWaits 0 = true → exec (.bulkMessage beats) s = .next s) ∧
  (∀ (s : State) (beats : Beats), s.flows = false → exec (.guardMessage beats) s = .next s) ∧
  (∀ (s : State) (beats : Beats), s.flows = false → exec (.bulkMessage beats) s = .next s) ∧
  (∀ (s : State) (beats : Beats), s.bridgeUp = true → s.exhausted beats = false →
    ∃ t, exec (.keepalive beats) s = .next t ∧ t.brg.hdr = some { vc := vcGuard, dir := 0, kind := kindAlive, len := 0, seq := s.brgNext vcGuard 0, addr := 0 } ∧ t.get BRG_ECC_CNT.CORR = satCount 16 (s.get BRG_ECC_CNT.CORR) beats.corrected ∧ t.get BRG_ECC_CNT.UNCORR = satCount 16 (s.get BRG_ECC_CNT.UNCORR) beats.rejected ∧ RegsOnly [BRG_ECC_CNT.CORR, BRG_ECC_CNT.UNCORR] s t ∧ Frame [.regs, .brg] s t) ∧
  (∀ (s : State) (beats : Beats), s.bridgeUp = false → exec (.keepalive beats) s = .next s) ∧
  (∀ (s : State), s.bridgeUp = true →
    ∃ t, exec (.livenessLost) s = .next t ∧ t.bridgeUp = false ∧ t.on BRG_STS.TOP_LOST = true ∧ t.get64 BRG_LOST_TS_LO.TS_LO BRG_LOST_TS_HI.TS_HI = s.now ∧ t.brg.bulkQ = [] ∧ t.brg.guardQ = [] ∧ Frame [.regs, .time, .clk, .sil, .pwr, .brg, .tw, .seq, .tamp, .tel, .inf, .acd, .fw, .ses, .sec, .bus, .mem] s t) ∧
  (∀ (s : State), s.bridgeUp = false → exec (.livenessLost) s = .next s) ∧
  (∀ (s : State) (ini : Initiator), s.judge ini true BRG_CTL.FENCE.addr = .allowed → s.brgState ≠ 4 →
    ∃ t, exec (.fence ini) s = .next t ∧ t.bridgeUp = false ∧ t.get BRG_EVT_CNT.LOST_CNT = satCount 16 (s.get BRG_EVT_CNT.LOST_CNT) 1 ∧ t.brg.guardQ = [] ∧ t.brg.bulkQ = [] ∧ t.bus = .written ∧ Frame [.regs, .time, .clk, .sil, .pwr, .brg, .tw, .seq, .tamp, .tel, .inf, .acd, .fw, .ses, .sec, .bus, .mem] s t) ∧
  (∀ (s : State) (ini : Initiator), s.judge ini true BRG_CTL.FENCE.addr = .allowed → s.brgState = 4 →
    ∃ t, exec (.fence ini) s = .next t ∧ t.on BRG_CTL.FENCE = true ∧ t.bus = .written ∧ RegsOnly [BRG_CTL.FENCE] s t ∧ Frame [.regs, .bus] s t) ∧
  (∀ (s : State) (beats : Beats) (tick : Nat) (vs : List (Nat × Nat)) (q : List GuardMsg), s.brg.guardQ = .values tick vs :: q → s.flows = true → s.exhausted beats = true →
    ∃ t, exec (.guardMessage beats) s = .next t ∧ t.on BRG_STS.REPLAY_EXH = true ∧ t.bridgeUp = false ∧ t.brg.guardQ = [] ∧ t.brg.bulkQ = [] ∧ Frame [.regs, .time, .clk, .sil, .pwr, .brg, .tw, .seq, .tamp, .tel, .inf, .acd, .fw, .ses, .sec, .bus, .mem] s t) ∧
  (∀ (s : State) (beats : Beats), s.bridgeUp = true → s.exhausted beats = true →
    ∃ t, exec (.keepalive beats) s = .next t ∧ t.on BRG_STS.REPLAY_EXH = true ∧ t.bridgeUp = false ∧ t.brg.guardQ = [] ∧ t.brg.bulkQ = [] ∧ Frame [.regs, .time, .clk, .sil, .pwr, .brg, .tw, .seq, .tamp, .tel, .inf, .acd, .fw, .ses, .sec, .bus, .mem] s t) ∧
  (∀ (s : State) (beats : Beats), s.bridgeUp = true → s.exhausted beats = true →
    ∃ t, exec (.timeMessage beats) s = .next t ∧ t.on BRG_STS.REPLAY_EXH = true ∧ t.bridgeUp = false ∧ t.brg.guardQ = [] ∧ t.brg.bulkQ = [] ∧ Frame [.regs, .time, .clk, .sil, .pwr, .brg, .tw, .seq, .tamp, .tel, .inf, .acd, .fw, .ses, .sec, .bus, .mem, .fresh] s t)

/-- In TRAIN, outside the wait for a repeat: training that ends well brings the Bridge UP, counts it, and queues the Tamp levels for the Top die; a failed attempt outside a bring-up sets TRAIN_FAIL and waits, and TRAIN_RETRY ends that wait. Outside TRAIN both change nothing. RETRAIN with the Bridge UP and no Top reset running enters QUIESCE on the way to TRAIN, and the outputs wait for it; with the Bridge not UP it does nothing. QUIESCE for a retrain ends in TRAIN; outside QUIESCE with the Bridge not UP its end does nothing. BRG_CNT_CLR zeroes the four counts. A time message that gets through while UP leaves the Top copy of the timestamp within 16 ns of it; while not UP it does nothing. A RETRAIN while an earlier fence's outputs still hold keeps that hold, and its own comes after it. RETRAIN outside UP doing nothing and the copy's free offset are log entry 16. -/
def Obligations.BridgeStateMoves : Prop :=
  (∀ (s : State) (ok : Bool), s.brgState = 1 → s.brg.trainWait = false → ok = true →
    ∃ t, exec (.bridgeTrainingDone ok) s = .next t ∧ t.brgState = 2 ∧ t.get BRG_EVT_CNT.UP_CNT = satCount 16 (s.get BRG_EVT_CNT.UP_CNT) 1 ∧ t.brg.trainFails = 0 ∧ t.brg.levelQ = [s.get TAMP_LVL.LVL] ∧ Frame [.regs, .time, .clk, .sil, .pwr, .brg, .tw, .seq, .tamp, .tel, .inf, .acd, .fw, .ses, .sec, .bus, .mem, .fresh] s t) ∧
  (∀ (s : State) (ok : Bool), s.brgState = 1 → s.brg.trainWait = false → ok = false → s.pwr.bring ≠ 4 →
    ∃ t, exec (.bridgeTrainingDone ok) s = .next t ∧ t.on BRG_STS.TRAIN_FAIL = true ∧ t.brg.trainWait = true ∧ t.brg.trainFails = s.brg.trainFails + 1 ∧ t.brgState = 1 ∧ RegsOnly [BRG_STS.TRAIN_FAIL] s t ∧ Frame [.regs, .sil, .brg] s t) ∧
  (∀ (s : State) (ok : Bool), s.brgState ≠ 1 → exec (.bridgeTrainingDone ok) s = .next s) ∧
  (∀ (s : State), s.brgState = 1 →
    ∃ t, exec (.trainRetry) s = .next t ∧ t.brg.trainWait = false ∧ RegsOnly [] s t ∧ Frame [.brg] s t) ∧
  (∀ (s : State), s.brgState ≠ 1 → exec (.trainRetry) s = .next s) ∧
  (∀ (s : State) (ini : Initiator), s.judge ini true BRG_CTL.RETRAIN.addr = .allowed → s.bridgeUp = true → s.pwr.topReset = false →
    ∃ t, exec (.retrain ini) s = .next t ∧ t.brgState = 3 ∧ t.brg.quiesceTo = .retrain ∧ t.brg.hold = (if s.brg.hold = .holding then .holding else .retraining) ∧ (s.brg.hold = .holding → t.brg.next = .retraining) ∧ t.bus = .written ∧ Frame [.regs, .sil, .brg, .tw, .tamp, .fw, .bus] s t) ∧
  (∀ (s : State) (ini : Initiator), s.judge ini true BRG_CTL.RETRAIN.addr = .allowed → s.bridgeUp = false →
    ∃ t, exec (.retrain ini) s = .next t ∧ t.bus = .written ∧ Frame [.bus] s t) ∧
  (∀ (s : State), s.brgState = 3 → s.brg.quiesceTo = .retrain →
    ∃ t, exec (.quiesceEnd) s = .next t ∧ t.brgState = 1 ∧ t.brg.trainFails = 0 ∧ Frame [.regs, .time, .clk, .sil, .pwr, .brg, .tw, .seq, .tamp, .tel, .inf, .acd, .fw, .ses, .sec, .bus, .mem] s t) ∧
  (∀ (s : State), s.brgState ≠ 3 → s.bridgeUp = false → exec (.quiesceEnd) s = .next s) ∧
  (∀ (s : State) (ini : Initiator), s.judge ini true BRG_CNT_CLR.CLR.addr = .allowed →
    ∃ t, exec (.brgCntClr ini) s = .next t ∧ t.get BRG_ECC_CNT.CORR = 0 ∧ t.get BRG_ECC_CNT.UNCORR = 0 ∧ t.get BRG_EVT_CNT.UP_CNT = 0 ∧ t.get BRG_EVT_CNT.LOST_CNT = 0 ∧ t.bus = .written ∧ RegsOnly [BRG_ECC_CNT.CORR, BRG_ECC_CNT.UNCORR, BRG_EVT_CNT.UP_CNT, BRG_EVT_CNT.LOST_CNT] s t ∧ Frame [.regs, .bus] s t) ∧
  (∀ (s : State) (beats : Beats), s.bridgeUp = true → s.exhausted beats = false →
    ∃ t, exec (.timeMessage beats) s = .next t ∧ -16 ≤ t.time.topOff ∧ t.time.topOff ≤ 16 ∧ t.time.ts = s.time.ts ∧ t.brg.hdr = some { vc := vcGuard, dir := 1, kind := kindTime, len := 1, seq := s.brgNext vcGuard 1, addr := 0 } ∧ t.get BRG_ECC_CNT.CORR = satCount 16 (s.get BRG_ECC_CNT.CORR) beats.corrected ∧ t.get BRG_ECC_CNT.UNCORR = satCount 16 (s.get BRG_ECC_CNT.UNCORR) beats.rejected ∧ RegsOnly [BRG_ECC_CNT.CORR, BRG_ECC_CNT.UNCORR] s t ∧ Frame [.regs, .time, .brg, .fresh] s t) ∧
  (∀ (s : State) (beats : Beats), s.bridgeUp = false → exec (.timeMessage beats) s = .next s)

/-- A release at the front of GUARD that gets through while the Bridge is UP takes the held proposals from its ports; in QUIESCE it is taken off and no port changes. Where the outputs hold or wait for a retrain, hold expiry takes the held proposal of every port that was in force, starts the revert of its voltage offset where one is commanded, and commands its pre-boost 0; otherwise it does nothing. A revert step with STEP = 0 ends the revert; with another STEP the offset goes on reverting while its amount, in units of 0.25 mV, exceeds 4 STEP; a port that does not revert, or is not of kind 1, is untouched. A message of one proposal at the front of GUARD that gets through is held for its port with the kind, accelerator and target of its configuration. A clamp retry that is due is no longer due; one that is not changes nothing. A level message at the front that gets through moves the queue on and shows in INF_TAMP_VIEW; with none queued nothing happens. In each of these clauses on a message the Bridge passes messages; where it passes none, a message changes nothing. -/
def Obligations.BridgeHoldAndRelease : Prop :=
  (∀ (s : State) (beats : Beats) (ps : List Nat) (q : List GuardMsg), s.brg.guardQ = .release ps :: q → s.bridgeUp = true → s.exhausted beats = false → s.pwr.trans = none → s.pwr.topReset = false →
    ∃ t, exec (.releaseMessage beats) s = .next t ∧ t.brg.guardQ = q ∧ (∀ p ∈ ps, (t.cport p).held = false) ∧ t.get BRG_ECC_CNT.CORR = satCount 16 (s.get BRG_ECC_CNT.CORR) beats.corrected ∧ t.get BRG_ECC_CNT.UNCORR = satCount 16 (s.get BRG_ECC_CNT.UNCORR) beats.rejected ∧ Frame [.regs, .brg, .tw, .tamp] s t) ∧
  (∀ (s : State) (beats : Beats) (ps : List Nat) (q : List GuardMsg), s.brg.guardQ = .release ps :: q → s.brgState = 3 → s.exhausted beats = false → s.pwr.trans = none →
    ∃ t, exec (.releaseMessage beats) s = .next t ∧ t.brg.guardQ = q ∧ t.tamp = s.tamp ∧ t.get BRG_ECC_CNT.CORR = satCount 16 (s.get BRG_ECC_CNT.CORR) beats.corrected ∧ t.get BRG_ECC_CNT.UNCORR = satCount 16 (s.get BRG_ECC_CNT.UNCORR) beats.rejected ∧ RegsOnly [BRG_ECC_CNT.CORR, BRG_ECC_CNT.UNCORR] s t ∧ Frame [.regs, .brg] s t) ∧
  (∀ (s : State) (beats : Beats), s.flows = false → s.pwr.trans = none → exec (.releaseMessage beats) s = .next s) ∧
  (∀ (s : State), (s.brg.hold = .holding ∨ s.brg.hold = .retraining) →
    ∃ t, exec (.holdExpiry) s = .next t ∧ t.brg.hold = (if s.brg.next = .inForce then .reverting else s.brg.next) ∧ t.brg.next = .inForce ∧ (∀ p < 64, (s.cport p).old = true → (t.cport p).held = false ∧ ((s.cport p).kind = 1 → (t.cport p).reverting = ((s.cport p).cmd != 0)) ∧ ((s.cport p).kind = 3 ∨ (s.cport p).kind = 4 → (t.cport p).cmd = 0)) ∧ Frame [.regs, .brg, .tw, .tamp] s t) ∧
  (∀ (s : State), s.brg.hold = .inForce → exec (.holdExpiry) s = .next s) ∧
  (∀ (s : State) (port : Fin 64), (s.cport port.val).reverting = true → (s.cport port.val).kind = 1 → s.get BRG_HOLD.STEP = 0 →
    ∃ t, exec (.vofsRevertStep port) s = .next t ∧ (t.cport port.val).reverting = false ∧ Frame [.regs, .tw, .tamp] s t) ∧
  (∀ (s : State) (port : Fin 64), (s.cport port.val).reverting = true → (s.cport port.val).kind = 1 → s.get BRG_HOLD.STEP ≠ 0 →
    ∃ t, exec (.vofsRevertStep port) s = .next t ∧ (t.cport port.val).reverting = decide (4 * s.get BRG_HOLD.STEP < (sgn 16 (s.cport port.val).cmd).natAbs) ∧ Frame [.regs, .tw, .tamp] s t) ∧
  (∀ (s : State) (port : Fin 64), ((s.cport port.val).reverting = false ∨ (s.cport port.val).kind ≠ 1) → exec (.vofsRevertStep port) s = .next s) ∧
  (∀ (s : State) (beats : Beats) (p v : Nat) (q : List GuardMsg), s.brg.guardQ = .proposals [(p, v)] :: q → s.flows = true → s.exhausted beats = false → p < 64 → v < 2 ^ 16 → s.get (INF_OUT_CFG.KIND p) ≠ 0 → s.tamp.ports.length = 64 →
    ∃ t, exec (.proposalArrival beats) s = .next t ∧ t.brg.guardQ = q ∧ (t.cport p).held = true ∧ (t.cport p).kind = s.get (INF_OUT_CFG.KIND p) ∧ (t.cport p).acc = s.get (INF_OUT_CFG.ACC p) ∧ (t.cport p).target = s.get (INF_OUT_CFG.TARGET p) ∧ t.get (TAMP_PROP.HELD p) = v ∧ Frame [.regs, .time, .clk, .sil, .pwr, .brg, .tw, .seq, .tamp, .tel, .inf, .acd, .fw, .ses, .sec, .bus, .mem] s t) ∧
  (∀ (s : State) (beats : Beats), s.flows = false → exec (.proposalArrival beats) s = .next s) ∧
  (∀ (s : State) (port : Fin 64), (s.cport port.val).retry = true → s.tamp.ports.length = 64 →
    ∃ t, exec (.clampRetry port) s = .next t ∧ (t.cport port.val).retry = false ∧ Frame [.regs, .tw, .tamp] s t) ∧
  (∀ (s : State) (port : Fin 64), (s.cport port.val).retry = false → exec (.clampRetry port) s = .next s) ∧
  (∀ (s : State) (beats : Beats) (l : Nat) (q : List Nat), s.brg.levelQ = l :: q → s.flows = true → s.exhausted beats = false →
    ∃ t, exec (.tampViewUpdate beats) s = .next t ∧ t.brg.levelQ = q ∧ (∀ a < 8, t.tampView a = bitsOf l (2 * a) 2) ∧ Frame [.regs, .time, .clk, .sil, .pwr, .brg, .tw, .seq, .tamp, .tel, .inf, .acd, .fw, .ses, .sec, .bus, .mem] s t) ∧
  (∀ (s : State) (beats : Beats), s.brg.levelQ = [] → exec (.tampViewUpdate beats) s = .next s) ∧
  (∀ (s : State) (beats : Beats), s.flows = false → exec (.tampViewUpdate beats) s = .next s)

/-- Of windows of a check that runs. On the host reference, with a usable IOSC and the reference there, a passing window of check H sets REF_OK, shows its count and counts toward RET_WIN. A first failing window of check H shows its count and counts, and changes nothing else. The second in a row, on the host reference with a usable IOSC, no fallback by design and no counted gap, moves BASE to IOSC, sets FB, clears REF_OK and delivers a CLKFAIL of cause 1 with timestamp and deviation, as a non-maskable interrupt too. Check I failing for the second time on IOSC moves BASE to the LFO, judges IOSC bad and delivers cause 2. Check C failing for the second time on the host reference without IOSC, not by design, moves BASE to the LFO and keeps a CLKFAIL of cause 5 pending. A calibration after a passing window of check H with REF_OK stores the LFO period; without REF_OK it does nothing. IOSC_RDY rises, in a machine whose boot ROM does not wait for IOSC: safe mode goes to an IOSC that is not bad; on the host reference, with no fallback by design, BASE stays and a pending CLKFAIL is delivered with FB_LATE. IOSC not started in 2 ms, in such a machine: on the host reference with no CLKFAIL pending, IOSC_DEAD and a CLKFAIL of cause 4 with deviation -100.00 %, the interrupt too; elsewhere IOSC_DEAD, and BASE runs from the LFO in safe mode. IOSC stops: IOSC_RDY falls and IOSC is enabled again; BASE on IOSC goes to safe mode with cause 3; BASE on the host reference stays, IOSC is marked bad, cause 3. Where IOSC_RDY is as the event would leave it, nothing happens. A stop on IOSC recording cause 3 at once, beside the pending switchover of R79, is the model's reading (log entry 17). -/
def Obligations.ClockMonitorAndOscillators : Prop :=
  (∀ (s : State) (count : Nat), s.checkRuns .h = true → s.baseSrc = srcHost → within count 800 1 2 = true → s.on CLK_STS.IOSC_BAD = false → s.refPresent = true →
    ∃ t, exec (.checkWindowEnd .h count) s = .next t ∧ t.get CLK_HOST_CNT.COUNT = min 0xFFFF count ∧ t.on CLK_STS.REF_OK = true ∧ t.clk.passH = s.clk.passH + 1 ∧ t.clk.failH = 0 ∧ RegsOnly [CLK_HOST_CNT.COUNT, CLK_STS.REF_OK] s t ∧ Frame [.regs, .clk] s t) ∧
  (∀ (s : State) (count : Nat), s.checkRuns .h = true → s.clk.failH = 0 → within count 800 1 2 = false →
    ∃ t, exec (.checkWindowEnd .h count) s = .next t ∧ t.get CLK_HOST_CNT.COUNT = min 0xFFFF count ∧ t.clk.failH = 1 ∧ t.clk.passH = 0 ∧ RegsOnly [CLK_HOST_CNT.COUNT] s t ∧ Frame [.regs, .clk] s t) ∧
  (∀ (s : State) (count : Nat), s.checkRuns .h = true → s.baseSrc = srcHost → 0 < s.clk.failH → within count 800 1 2 = false → s.on CLK_STS.IOSC_BAD = false → s.time.gap = 0 → s.byDesign = false →
    ∃ t, exec (.checkWindowEnd .h count) s = .next t ∧ t.baseSrc = srcIosc ∧ t.on CLK_STS.FB = true ∧ t.on CLK_STS.CLKFAIL = true ∧ t.get CLK_FAIL_INFO.CAUSE = 1 ∧ t.get CLK_FAIL_INFO.LAST_DEV = devOf count 800 1 ∧ t.on CLK_STS.REF_OK = false ∧ t.get64 CLK_FAIL_TS_LO.TS_LO CLK_FAIL_TS_HI.TS_HI = s.now ∧ t.clk.failH = 0 ∧ t.fw.nmi = s.fw.nmi ||| (if s.bridgeUp then 0x3F else 0x30) ∧ Frame [.regs, .time, .clk, .sil, .seq, .fw] s t) ∧
  (∀ (s : State) (count : Nat), s.checkRuns .i = true → s.baseSrc = srcIosc → 0 < s.clk.failI → within count (4 * s.get CLK_LFO_CAL.PERIOD) 5 (s.checkBand .i) = false →
    ∃ t, exec (.checkWindowEnd .i count) s = .next t ∧ t.baseSrc = srcLfo ∧ t.on TAMP_STS.SAFE = true ∧ t.on CLK_STS.IOSC_BAD = true ∧ t.on CLK_STS.CLKFAIL = true ∧ t.get CLK_FAIL_INFO.CAUSE = 2 ∧ t.fw.nmi = s.fw.nmi ||| (if s.bridgeUp then 0x3F else 0x30) ∧ Frame [.regs, .time, .clk, .sil, .seq, .fw] s t) ∧
  (∀ (s : State) (count : Nat), s.checkRuns .c = true → s.baseSrc = srcHost → s.on CLK_STS.IOSC_RDY = false → 0 < s.clk.failC → within count (5 * s.get CLK_LFO_CAL.PERIOD) 8192 2 = false → s.byDesign = false →
    ∃ t, exec (.checkWindowEnd .c count) s = .next t ∧ t.baseSrc = srcLfo ∧ t.on CLK_STS.REF_OK = false ∧ t.on CLK_STS.CLKFAIL = s.on CLK_STS.CLKFAIL ∧ t.clk.pend.map (·.cause) = some 5 ∧ Frame [.regs, .time, .clk, .sil, .seq, .fw] s t) ∧
  (∀ (s : State) (period : Fin 16777216), s.on CLK_STS.REF_OK = true → s.checkRuns .h = true → 1 ≤ s.clk.passH →
    ∃ t, exec (.lfoCalibration period) s = .next t ∧ t.get CLK_LFO_CAL.PERIOD = period.val ∧ t.on CLK_STS.LFO_CAL_VALID = true ∧ t.clk.calTs = s.now ∧ RegsOnly [CLK_LFO_CAL.PERIOD, CLK_STS.LFO_CAL_VALID] s t ∧ Frame [.regs, .clk] s t) ∧
  (∀ (s : State) (period : Fin 16777216), s.on CLK_STS.REF_OK = false → exec (.lfoCalibration period) s = .next s) ∧
  (∀ (s : State), s.clk.iosc = true → s.on CLK_STS.IOSC_RDY = false → s.pwr.borOn = false → s.pwr.rom = .none → s.baseSrc = srcLfo → s.on CLK_STS.IOSC_BAD = false →
    ∃ t, exec (.ioscRdyRise) s = .next t ∧ t.on CLK_STS.IOSC_RDY = true ∧ t.baseSrc = srcIosc ∧ t.on TAMP_STS.SAFE = false ∧ t.clk.pend = none ∧ Frame [.regs, .time, .clk, .sil, .tw, .seq, .fw] s t) ∧
  (∀ (s : State) (r : ClkRec), s.clk.iosc = true → s.on CLK_STS.IOSC_RDY = false → s.pwr.borOn = false → s.pwr.rom = .none → s.baseSrc = srcHost → s.byDesign = false → s.clk.pend = some r →
    ∃ t, exec (.ioscRdyRise) s = .next t ∧ t.on CLK_STS.IOSC_RDY = true ∧ t.baseSrc = srcHost ∧ t.clk.pend = none ∧ t.on CLK_STS.CLKFAIL = true ∧ t.on CLK_STS.FB_LATE = true ∧ t.get CLK_FAIL_INFO.CAUSE = r.cause % 8 ∧ Frame [.regs, .clk, .sil, .fw] s t) ∧
  (∀ (s : State), s.clk.iosc = true → s.on CLK_STS.IOSC_RDY = false → s.pwr.borOn = false → s.pwr.rom = .none → s.baseSrc = srcHost → s.clk.pend = none →
    ∃ t, exec (.ioscStartTimeout) s = .next t ∧ t.on CLK_STS.IOSC_DEAD = true ∧ t.clk.iosc = false ∧ t.baseSrc = srcHost ∧ t.on CLK_STS.CLKFAIL = true ∧ t.get CLK_FAIL_INFO.CAUSE = 4 ∧ t.get CLK_FAIL_INFO.LAST_DEV = 0xD8F0 ∧ t.fw.nmi = s.fw.nmi ||| (if s.bridgeUp then 0x3F else 0x30) ∧ RegsOnly [CLK_STS.IOSC_DEAD, CLK_STS.CLKFAIL, CLK_FAIL_INFO.CAUSE, CLK_FAIL_INFO.FAIL_FB, CLK_FAIL_INFO.LAST_DEV, CLK_FAIL_INFO.FAIL_CNT, CLK_FAIL_TS_LO.TS_LO, CLK_FAIL_TS_HI.TS_HI] s t ∧ Frame [.regs, .clk, .sil, .fw] s t) ∧
  (∀ (s : State), s.clk.iosc = true → s.on CLK_STS.IOSC_RDY = false → s.pwr.borOn = false → s.pwr.rom = .none → s.baseSrc ≠ srcHost →
    ∃ t, exec (.ioscStartTimeout) s = .next t ∧ t.on CLK_STS.IOSC_DEAD = true ∧ t.baseSrc = srcLfo ∧ t.on COOL_STS.F_SAFE = true ∧ t.on TAMP_STS.SAFE = true ∧ Frame [.regs, .time, .clk, .sil, .tw, .seq, .fw] s t) ∧
  (∀ (s : State), s.on CLK_STS.IOSC_RDY = true → s.baseSrc = srcIosc →
    ∃ t, exec (.ioscStop) s = .next t ∧ t.on CLK_STS.IOSC_RDY = false ∧ t.baseSrc = srcLfo ∧ t.on SEQ_STS.HOLD = true ∧ t.get CLK_FAIL_INFO.CAUSE = 3 ∧ t.clk.iosc = true ∧ Frame [.regs, .time, .clk, .sil, .seq, .fw] s t) ∧
  (∀ (s : State), s.on CLK_STS.IOSC_RDY = true → s.baseSrc = srcHost →
    ∃ t, exec (.ioscStop) s = .next t ∧ t.on CLK_STS.IOSC_RDY = false ∧ t.baseSrc = srcHost ∧ t.on CLK_STS.IOSC_BAD = true ∧ t.on CLK_STS.IOSC_BAD_SEEN = true ∧ t.get CLK_FAIL_INFO.CAUSE = 3 ∧ Frame [.regs, .clk, .sil, .fw] s t) ∧
  (∀ (s : State), s.on CLK_STS.IOSC_RDY = false → exec (.ioscStop) s = .next s) ∧
  (∀ (s : State), s.on CLK_STS.IOSC_RDY = true → exec (.ioscRdyRise) s = .next s)

/-- RESTORE on IOSC with RET_WIN good windows of check H, the reference there and no force, returns BASE to the host reference: FB falls and AUTO_RET_OFF clears; with too few windows it clears AUTO_RET_OFF and keeps the request. FORCE_IOSC written 1 on the host reference with IOSC ready moves BASE to IOSC by design and sets no CLKFAIL; written 0 on IOSC, after a fallback by design and RET_WIN good windows, it returns at once. NET0 locking with REF_SEL = 1, while its receiver runs on a powered Top die, makes the recovered clock the reference; with REF_SEL = 0 it does nothing. A stall of BASE changes no timestamp; its end adds the gap counted. In A3 there is no stall, and without one its end does nothing. A RESTORE kept as a standing request and windows that start anew at the switch to the recovered clock are log entry 17. -/
def Obligations.BaseReturnsToTheHostReference : Prop :=
  (∀ (s : State) (ini : Initiator), s.judge ini true CLK_CTL.RESTORE.addr = .allowed → s.baseSrc = srcIosc → s.retWin ≤ s.clk.passH → s.refPresent = true → s.on CLK_CTL.FORCE_IOSC = false →
    ∃ t, exec (.restore ini) s = .next t ∧ t.baseSrc = srcHost ∧ t.on CLK_STS.FB = false ∧ t.on CLK_STS.AUTO_RET_OFF = false ∧ t.clk.restore = false ∧ t.bus = .written ∧ Frame [.regs, .time, .clk, .sil, .bus] s t) ∧
  (∀ (s : State) (ini : Initiator), s.judge ini true CLK_CTL.RESTORE.addr = .allowed → s.baseSrc = srcIosc → s.clk.passH < s.retWin →
    ∃ t, exec (.restore ini) s = .next t ∧ t.on CLK_STS.AUTO_RET_OFF = false ∧ t.clk.restore = true ∧ t.bus = .written ∧ RegsOnly [CLK_STS.AUTO_RET_OFF] s t ∧ Frame [.regs, .clk, .bus] s t) ∧
  (∀ (s : State) (ini : Initiator) (on : Bool), s.judge ini true CLK_CTL.FORCE_IOSC.addr = .allowed → on = true → s.baseSrc = srcHost → s.on CLK_STS.IOSC_RDY = true →
    ∃ t, exec (.forceIosc ini on) s = .next t ∧ t.on CLK_CTL.FORCE_IOSC = true ∧ t.baseSrc = srcIosc ∧ t.on CLK_STS.FB = true ∧ t.on CLK_STS.CLKFAIL = s.on CLK_STS.CLKFAIL ∧ t.clk.design = true ∧ t.bus = .written ∧ Frame [.regs, .time, .clk, .bus] s t) ∧
  (∀ (s : State) (ini : Initiator) (on : Bool), s.judge ini true CLK_CTL.FORCE_IOSC.addr = .allowed → on = false → s.baseSrc = srcIosc → s.retWin ≤ s.clk.passH → s.refPresent = true → s.clk.design = true →
    ∃ t, exec (.forceIosc ini on) s = .next t ∧ t.on CLK_CTL.FORCE_IOSC = false ∧ t.baseSrc = srcHost ∧ t.clk.design = false ∧ t.bus = .written ∧ Frame [.regs, .time, .clk, .sil, .bus] s t) ∧
  (∀ (s : State), s.on CLK_CTL.REF_SEL = true → s.clk.recovered = false → s.net0Receives = true →
    ∃ t, exec (.recoveredClockSwitch) s = .next t ∧ t.clk.recovered = true ∧ t.clk.design = true ∧ t.clk.passH = 0 ∧ t.clk.passC = 0 ∧ Frame [.clk] s t) ∧
  (∀ (s : State), s.on CLK_CTL.REF_SEL = false → exec (.recoveredClockSwitch) s = .next s) ∧
  (∀ (s : State), s.baseSrc ≠ srcStopped →
    ∃ t, exec (.baseClockStall) s = .next t ∧ t.time.stalled = true ∧ t.time.ts = s.time.ts ∧ t.time.gap = s.time.gap ∧ Frame [.time] s t) ∧
  (∀ (s : State), s.baseSrc = srcStopped → exec (.baseClockStall) s = .next s) ∧
  (∀ (s : State), s.time.stalled = true →
    ∃ t, exec (.baseClockResume) s = .next t ∧ t.time.ts = s.time.ts + s.time.gap ∧ t.time.gap = 0 ∧ t.time.stalled = false ∧ Frame [.time, .sil] s t) ∧
  (∀ (s : State), s.time.stalled = false → exec (.baseClockResume) s = .next s)

/-- START while not BUSY takes the written fields, sets BUSY and clears DISTURB and NOCLK. START without ABORT while BUSY starts nothing: only the written fields may change. One write with ABORT and START while BUSY begins a measurement with the written fields (the model's order, log entry 12). ABORT by itself clears BUSY and changes nothing else. The gate ending sets DONE, the count, and NOCLK with a count of 0. No reference edge sets DONE and NOCLK; its count is not valid and is the free value, the model's reading of "not valid" (log entry 4). Without a running measurement both ends do nothing. A switchover of BASE during a measurement of or against BASE (here FORCE_IOSC), and a change of the Top die's power (here a fall of TOPPWR_GOOD) during one of or against a clock of the Top die, set DISTURB. A request sets the domain's request bit and changes no other register. The end of a handshake stops a requested domain: domains 5 to 9, a cluster that is idle, and domain 4, which enters self-refresh; a cluster that is not idle, and a domain without a request, do not stop. A port not idle in time clears the request, sets its bit in CLK_GATE_BUSY and logs EVT_GATE_BUSY; without a request, or with the domain gated, it changes nothing but that record. The writes and messages that the port holds are dropped when its clock stops and go on when the gate is refused or released. A 0 written to a request bit that is set clears the request and the gated bit, whether the domain is gated (a release) or its handshake runs (an abort), and domain 4 leaves self-refresh; written to a bit that is 0 it changes nothing but the completion and the record of what was sent, which every command that can send begins anew (R88, R89; either row is that one write, log entry 2). In each clause no register changes but those named. -/
def Obligations.FrequencyCounterAndGating : Prop :=
  (∀ (s : State) (ini : Initiator) (word : Word), s.judge ini true CLK_FMC_CTL.START.addr = .allowed → s.on CLK_FMC_STS.BUSY = false → bitOf word.toNat 16 = true → bitOf word.toNat 17 = false →
    ∃ t, exec (.fmcStart ini word) s = .next t ∧ t.on CLK_FMC_STS.BUSY = true ∧ t.on CLK_FMC_STS.DISTURB = false ∧ t.on CLK_FMC_STS.NOCLK = false ∧ t.get CLK_FMC_CTL.MEAS = bitsOf word.toNat 0 4 ∧ t.get CLK_FMC_CTL.REF = bitsOf word.toNat 4 4 ∧ t.get CLK_FMC_CTL.GATE = bitsOf word.toNat 8 5 ∧ t.get CLK_FMC_CTL.TL_SEL = bitsOf word.toNat 13 3 ∧ t.bus = .written ∧ RegsOnly [CLK_FMC_CTL.MEAS, CLK_FMC_CTL.REF, CLK_FMC_CTL.GATE, CLK_FMC_CTL.TL_SEL, CLK_FMC_STS.BUSY, CLK_FMC_STS.DISTURB, CLK_FMC_STS.NOCLK] s t ∧ Frame [.regs, .bus] s t) ∧
  (∀ (s : State) (ini : Initiator) (word : Word), s.judge ini true CLK_FMC_CTL.START.addr = .allowed → s.on CLK_FMC_STS.BUSY = true → bitOf word.toNat 17 = false →
    ∃ t, exec (.fmcStart ini word) s = .next t ∧ t.on CLK_FMC_STS.BUSY = true ∧ t.bus = .written ∧ RegsOnly [CLK_FMC_CTL.MEAS, CLK_FMC_CTL.REF, CLK_FMC_CTL.GATE, CLK_FMC_CTL.TL_SEL] s t ∧ Frame [.regs, .bus] s t) ∧
  (∀ (s : State) (ini : Initiator) (word : Word), s.judge ini true CLK_FMC_CTL.START.addr = .allowed → s.on CLK_FMC_STS.BUSY = true → bitOf word.toNat 16 = true → bitOf word.toNat 17 = true →
    ∃ t, exec (.fmcStart ini word) s = .next t ∧ t.on CLK_FMC_STS.BUSY = true ∧ t.on CLK_FMC_STS.DISTURB = false ∧ t.on CLK_FMC_STS.NOCLK = false ∧ t.get CLK_FMC_CTL.MEAS = bitsOf word.toNat 0 4 ∧ t.get CLK_FMC_CTL.REF = bitsOf word.toNat 4 4 ∧ t.bus = .written ∧ RegsOnly [CLK_FMC_CTL.MEAS, CLK_FMC_CTL.REF, CLK_FMC_CTL.GATE, CLK_FMC_CTL.TL_SEL, CLK_FMC_STS.BUSY, CLK_FMC_STS.DISTURB, CLK_FMC_STS.NOCLK] s t ∧ Frame [.regs, .bus] s t) ∧
  (∀ (s : State) (ini : Initiator), s.judge ini true CLK_FMC_CTL.ABORT.addr = .allowed →
    ∃ t, exec (.fmcAbort ini) s = .next t ∧ t.on CLK_FMC_STS.BUSY = false ∧ t.bus = .written ∧ RegsOnly [CLK_FMC_STS.BUSY] s t ∧ Frame [.regs, .bus] s t) ∧
  (∀ (s : State) (count : Nat), s.on CLK_FMC_STS.BUSY = true →
    ∃ t, exec (.fmcDone count) s = .next t ∧ t.on CLK_FMC_STS.BUSY = false ∧ t.on CLK_FMC_STS.DONE = true ∧ t.on CLK_FMC_STS.NOCLK = (count == 0) ∧ t.get CLK_FMC_CNT_LO.CNT_LO = count % 2 ^ 32 ∧ t.get CLK_FMC_CNT_HI.CNT_HI = count / 2 ^ 32 % 2 ^ 16 ∧ RegsOnly [CLK_FMC_STS.BUSY, CLK_FMC_STS.DONE, CLK_FMC_STS.NOCLK, CLK_FMC_CNT_LO.CNT_LO, CLK_FMC_CNT_HI.CNT_HI] s t ∧ Frame [.regs] s t) ∧
  (∀ (s : State) (count : Nat), s.on CLK_FMC_STS.BUSY = false → exec (.fmcDone count) s = .next s) ∧
  (∀ (s : State), s.on CLK_FMC_STS.BUSY = true →
    ∃ t, exec (.fmcNoclk) s = .next t ∧ t.on CLK_FMC_STS.BUSY = false ∧ t.on CLK_FMC_STS.DONE = true ∧ t.on CLK_FMC_STS.NOCLK = true ∧ t.get CLK_FMC_CNT_LO.CNT_LO = Config.free s.fresh % 2 ^ 32 ∧ t.fresh = s.fresh + 1 ∧ RegsOnly [CLK_FMC_STS.BUSY, CLK_FMC_STS.DONE, CLK_FMC_STS.NOCLK, CLK_FMC_CNT_LO.CNT_LO, CLK_FMC_CNT_HI.CNT_HI] s t ∧ Frame [.regs, .fresh] s t) ∧
  (∀ (s : State), s.on CLK_FMC_STS.BUSY = false → exec (.fmcNoclk) s = .next s) ∧
  (∀ (s : State) (ini : Initiator) (on : Bool), s.judge ini true CLK_CTL.FORCE_IOSC.addr = .allowed → on = true → s.baseSrc = srcHost → s.on CLK_STS.IOSC_RDY = true → s.on CLK_FMC_STS.BUSY = true → (fmcOnBase (s.get CLK_FMC_CTL.MEAS) = true ∨ fmcOnBase (s.get CLK_FMC_CTL.REF) = true) →
    ∃ t, exec (.forceIosc ini on) s = .next t ∧ t.baseSrc = srcIosc ∧ t.on CLK_FMC_STS.DISTURB = true ∧ t.on CLK_FMC_STS.BUSY = true ∧ t.bus = .written ∧ Frame [.regs, .time, .clk, .bus] s t) ∧
  (∀ (s : State), s.pwr.toppwrEn = true → s.pwr.toppwrGood = true → s.on CLK_FMC_STS.BUSY = true → (fmcOnTop (s.get CLK_FMC_CTL.MEAS) = true ∨ fmcOnTop (s.get CLK_FMC_CTL.REF) = true) →
    ∃ t, exec (.toppwrGoodFall) s = .next t ∧ t.pwr.toppwrGood = false ∧ t.on CLK_FMC_STS.DISTURB = true ∧ t.on CLK_FMC_STS.BUSY = true ∧ Frame [.regs, .time, .clk, .sil, .pwr, .brg, .tw, .seq, .tamp, .tel, .inf, .acd, .fw, .ses, .sec, .bus, .mem] s t) ∧
  (∀ (s : State) (ini : Initiator) (d : Fin 10), s.judge ini true CLK_GATE_REQ.REQ.addr = .allowed →
    ∃ t, exec (.gateRequest ini d) s = .next t ∧ bitOf (t.get CLK_GATE_REQ.REQ) d.val = true ∧ (∀ i < 10, i ≠ d.val → bitOf (t.get CLK_GATE_REQ.REQ) i = bitOf (s.get CLK_GATE_REQ.REQ) i) ∧ t.bus = .written ∧ RegsOnly [CLK_GATE_REQ.REQ] s t ∧ Frame [.regs, .bus] s t) ∧
  (∀ (s : State) (d : Fin 10), bitOf (s.get CLK_GATE_REQ.REQ) d.val = true → s.gated d.val = false → 5 ≤ d.val →
    ∃ t, exec (.gateStopped d) s = .next t ∧ t.gated d.val = true ∧ t.clk.stores = s.clk.stores.filter (fun p => p.dom != d.val) ∧ t.ses.txHeld = s.ses.txHeld.filter (fun x => x.domain != some d.val) ∧ t.mem = s.mem ∧ RegsOnly [CLK_GATE_STS.GATED] s t ∧ Frame [.regs, .clk, .ses] s t) ∧
  (∀ (s : State) (d : Fin 10), bitOf (s.get CLK_GATE_REQ.REQ) d.val = true → s.gated d.val = false → d.val < 4 → s.clusterIdle d.val = true →
    ∃ t, exec (.gateStopped d) s = .next t ∧ t.gated d.val = true ∧ t.clk.stores = s.clk.stores.filter (fun p => p.dom != d.val) ∧ t.ses.txHeld = s.ses.txHeld.filter (fun x => x.domain != some d.val) ∧ t.mem = s.mem ∧ RegsOnly [CLK_GATE_STS.GATED] s t ∧ Frame [.regs, .clk, .ses] s t) ∧
  (∀ (s : State) (d : Fin 10), bitOf (s.get CLK_GATE_REQ.REQ) d.val = true → s.gated d.val = false → d.val = 4 →
    ∃ t, exec (.gateStopped d) s = .next t ∧ t.gated d.val = true ∧ t.on LPC_STS.SELF_REFRESH = true ∧ t.clk.stores = s.clk.stores.filter (fun p => p.dom != d.val) ∧ t.ses.txHeld = s.ses.txHeld.filter (fun x => x.domain != some d.val) ∧ t.mem = s.mem ∧ RegsOnly [CLK_GATE_STS.GATED, LPC_STS.SELF_REFRESH] s t ∧ Frame [.regs, .clk, .ses] s t) ∧
  (∀ (s : State) (d : Fin 10), d.val < 4 → s.clusterIdle d.val = false → exec (.gateStopped d) s = .next s) ∧
  (∀ (s : State) (d : Fin 10), bitOf (s.get CLK_GATE_REQ.REQ) d.val = false → exec (.gateStopped d) s = .next s) ∧
  (∀ (s : State) (d : Fin 10), bitOf (s.get CLK_GATE_REQ.REQ) d.val = true → s.gated d.val = false →
    ∃ t, exec (.gateRefused d) s = .next t ∧ bitOf (t.get CLK_GATE_REQ.REQ) d.val = false ∧ bitOf (t.get CLK_GATE_BUSY.GATE_BUSY) d.val = true ∧ t.gated d.val = false ∧ t.sil = (s.log EVT_GATE_BUSY ACC_TRAY UNIT_CLK 0 [(0, 1, d.val)]).sil ∧ t.clk.stores = s.clk.stores.filter (fun p => p.dom != d.val) ∧ t.ses.txHeld = s.ses.txHeld.filter (fun x => x.domain != some d.val) ∧ t.ses.sent = s.ses.txHeld.filter (fun x => x.domain == some d.val) ∧ t.mem = (s.clk.stores.filter (fun p => p.dom == d.val)).foldl PortStore.apply s.mem ∧ RegsOnly [CLK_GATE_REQ.REQ, CLK_GATE_BUSY.GATE_BUSY] s t ∧ Frame [.regs, .clk, .sil, .ses, .mem] s t) ∧
  (∀ (s : State) (d : Fin 10), bitOf (s.get CLK_GATE_REQ.REQ) d.val = false →
    ∃ t, exec (.gateRefused d) s = .next t ∧ t.ses = { s.ses with sent := [] } ∧ Frame [.ses] s t) ∧
  (∀ (s : State) (d : Fin 10), s.gated d.val = true →
    ∃ t, exec (.gateRefused d) s = .next t ∧ t.ses = { s.ses with sent := [] } ∧ Frame [.ses] s t) ∧
  (∀ (s : State) (ini : Initiator) (d : Fin 10), s.judge ini true CLK_GATE_REQ.REQ.addr = .allowed → bitOf (s.get CLK_GATE_REQ.REQ) d.val = true →
    ∃ t, exec (.gateRelease ini d) s = .next t ∧ t.gated d.val = false ∧ bitOf (t.get CLK_GATE_REQ.REQ) d.val = false ∧ (d.val = 4 → s.gated 4 = true → t.on LPC_STS.SELF_REFRESH = false) ∧ t.clk.stores = s.clk.stores.filter (fun p => p.dom != d.val) ∧ t.ses.txHeld = s.ses.txHeld.filter (fun x => x.domain != some d.val) ∧ t.ses.sent = s.ses.txHeld.filter (fun x => x.domain == some d.val) ∧ t.mem = (s.clk.stores.filter (fun p => p.dom == d.val)).foldl PortStore.apply s.mem ∧ t.bus = .written ∧ RegsOnly [CLK_GATE_REQ.REQ, CLK_GATE_STS.GATED, LPC_STS.SELF_REFRESH] s t ∧ Frame [.regs, .clk, .ses, .bus, .mem] s t) ∧
  (∀ (s : State) (ini : Initiator) (d : Fin 10), s.judge ini true CLK_GATE_REQ.REQ.addr = .allowed → bitOf (s.get CLK_GATE_REQ.REQ) d.val = false →
    ∃ t, exec (.gateRelease ini d) s = .next t ∧ t.ses = { s.ses with sent := [] } ∧ t.bus = .written ∧ Frame [.ses, .bus] s t) ∧
  (∀ (s : State) (ini : Initiator) (d : Fin 10), s.judge ini true CLK_GATE_REQ.REQ.addr = .allowed → bitOf (s.get CLK_GATE_REQ.REQ) d.val = true →
    ∃ t, exec (.gateAbort ini d) s = .next t ∧ t.gated d.val = false ∧ bitOf (t.get CLK_GATE_REQ.REQ) d.val = false ∧ (d.val = 4 → s.gated 4 = true → t.on LPC_STS.SELF_REFRESH = false) ∧ t.clk.stores = s.clk.stores.filter (fun p => p.dom != d.val) ∧ t.ses.txHeld = s.ses.txHeld.filter (fun x => x.domain != some d.val) ∧ t.ses.sent = s.ses.txHeld.filter (fun x => x.domain == some d.val) ∧ t.mem = (s.clk.stores.filter (fun p => p.dom == d.val)).foldl PortStore.apply s.mem ∧ t.bus = .written ∧ RegsOnly [CLK_GATE_REQ.REQ, CLK_GATE_STS.GATED, LPC_STS.SELF_REFRESH] s t ∧ Frame [.regs, .clk, .ses, .bus, .mem] s t) ∧
  (∀ (s : State) (ini : Initiator) (d : Fin 10), s.judge ini true CLK_GATE_REQ.REQ.addr = .allowed → bitOf (s.get CLK_GATE_REQ.REQ) d.val = false →
    ∃ t, exec (.gateAbort ini d) s = .next t ∧ t.ses = { s.ses with sent := [] } ∧ t.bus = .written ∧ Frame [.ses, .bus] s t)

/-- A cold POR keeps what NVM has committed, the flash and OTP, or takes what was placed there, and keeps the waiting commands; no commit waits, no memory is listed, the Bridge is OFF, sessions and program slots are empty, BASE runs from IOSC. Its cause is BOR where a BOR reset was in force, TEST_MODE was not high and the marker cell held, and COLD otherwise. With TEST_MODE high the machine is held in reset and none of the boot's steps runs (R433). Straps, TD inputs, VIN_AO and the AIN codes are sampled; EVT_RESET is the only record admitted; the balls stand as R442 says. A BOR leaves the committed NVM, the flash, OTP, the waiting commands and the pin level, leaves every ball High-Z, and counts a commit in progress as cut off. VIN_AO below BOW sets BOW_NOW and NVM_HELD, shows the sample and stops a compaction, outside a BOR; in it, nothing. VIN_AO recovering, with nothing deferred or in progress, clears both and records the dip; with no dip in force it changes no part but the list of what was sent. The model's choices: COLD and BOR never both (log entry 19); what a placed journal carries (log entry 10); AIN codes and PWRGD levels taken with the command (log entry 20); lost memory reading 0 (log entry 7). -/
def Obligations.ColdPorAndBorLoseTheMachine : Prop :=
  (∀ (s : State) (boot : BootIn), boot.testMode = false → (s.pwr.borOn = false ∨ s.pwr.testMode = true ∨ boot.marker = false) →
    ∃ t, exec (.coldPor boot) s = .next t ∧ t.get PWRST_RST_CAUSE.COLD = 1 ∧ t.get PWRST_RST_CAUSE.BOR = 0 ∧ t.get PWRST_STRAP.THERM_CRIT = boot.strap.val ∧ t.get TAMP_CRIT.THERM_CRIT = boot.strap.val ∧ t.get TAMP_CRIT.PRESENT = 1 + 2 * (15 - boot.tdAbsent.val) ∧ t.on PWRST_STRAP.PRES_JMP = boot.jumper ∧ t.mem = [] ∧ t.brgState = brgOff ∧ t.baseSrc = srcIosc ∧ t.nvm.kept = (match boot.placed.bind (·.journal) with | none => s.nvm.kept | some j => j.kept) ∧ t.nvm.blobs = (match boot.placed.bind (·.journal) with | none => s.nvm.blobs | some j => j.blobs) ∧ t.nvm.regs = (match boot.placed.bind (·.journal) with | none => s.nvm.regs | some j => journalValues j) ∧ t.nvm.queue = [] ∧ t.get PWRST_VIN.VIN_MV = boot.vin.val ∧ (∀ k < 64, t.get (TAMP_AIN.CODE k) = ((boot.ain[k]?).map (·.val)).getD 0) ∧ t.seq.pgLvl = boot.pwrgd.toNat ∧ t.sil.queue.map (·.code) = [EVT_RESET] ∧ t.pwr.rom = .cold boot.puf (boot.mismatch.map (·.val)) ∧ ([BallGroup.brk, .sysShdn, .fxEn, .fxRsto, .fxPwm, .fxVlv, .twoWire, .toppwrEn, .spi, .topDie].map t.drive = [.released, .unit, .highZ, .highZ, .highZ, .highZ, .released, .low, .highZ, .highZ]) ∧ t.ses = {} ∧ t.inf = {} ∧ t.flash = (match boot.placed with | none => s.flash | some p => p.flash) ∧ t.otp = (match boot.placed with | none => s.otp | some p => { regs := p.otp, digests := p.digests, seed := p.seed }) ∧ (∀ b < 160, t.fxBall b = {}) ∧ Frame [.regs, .time, .clk, .sil, .nvm, .pwr, .brg, .tw, .seq, .tamp, .cool, .tel, .inf, .otp, .acd, .key, .fw, .ses, .sec, .flash, .bus, .mem] s t) ∧
  (∀ (s : State) (boot : BootIn), boot.testMode = false → s.pwr.testMode = false → s.pwr.borOn = true → boot.marker = true →
    ∃ t, exec (.coldPor boot) s = .next t ∧ t.get PWRST_RST_CAUSE.COLD = 0 ∧ t.get PWRST_RST_CAUSE.BOR = 1 ∧ t.pwr.borOn = false ∧ t.mem = [] ∧ Frame [.regs, .time, .clk, .sil, .nvm, .pwr, .brg, .tw, .seq, .tamp, .cool, .tel, .inf, .otp, .acd, .key, .fw, .ses, .sec, .flash, .bus, .mem] s t) ∧
  (∀ (s : State) (boot : BootIn), boot.testMode = true →
    ∃ t, exec (.coldPor boot) s = .next t ∧ t.pwr.borOn = true ∧ t.pwr.testMode = true ∧ t.pwr.sampling = false ∧ t.pwr.rom = .none ∧ t.nvm.kept = (match boot.placed.bind (·.journal) with | none => s.nvm.kept | some j => j.kept) ∧ t.mem = [] ∧ t.brgState = brgOff ∧ t.ses = {} ∧ ([BallGroup.brk, .sysShdn, .fxEn, .fxRsto, .fxPwm, .fxVlv, .twoWire, .toppwrEn, .spi, .topDie].map t.drive = [.released, .released, .highZ, .highZ, .highZ, .highZ, .released, .low, .highZ, .highZ]) ∧ Frame [.regs, .time, .clk, .sil, .nvm, .pwr, .brg, .tw, .seq, .tamp, .cool, .tel, .inf, .otp, .acd, .key, .fw, .ses, .sec, .flash, .bus, .mem] s t) ∧
  (∀ (s : State),
    ∃ t, exec (.bor) s = .next t ∧ t.pwr.borOn = true ∧ (∀ g ∈ [BallGroup.brk, .sysShdn, .fxEn, .fxRsto, .fxPwm, .fxVlv, .twoWire, .toppwrEn, .spi, .topDie], t.drive g = .highZ) ∧ t.pwr.sampling = false ∧ t.nvm.busy = none ∧ t.nvm.queue = [] ∧ t.nvm.kept = s.nvm.kept ∧ t.nvm.bank = s.nvm.bank ∧ t.nvm.cut = (match s.nvm.busy with | some j => (s.nvm.seq, j.len) :: s.nvm.cut | none => s.nvm.cut) ∧ t.mem = [] ∧ t.ses = {} ∧ t.pwr.sysRstN = s.pwr.sysRstN ∧ t.get PWRST_NVM_STS.BANK = s.get PWRST_NVM_STS.BANK % 2 ∧ Frame [.regs, .time, .clk, .sil, .nvm, .pwr, .brg, .tw, .seq, .tamp, .cool, .tel, .inf, .acd, .key, .fw, .ses, .sec, .bus, .mem] s t) ∧
  (∀ (s : State) (mv : Fin 4096), s.pwr.borOn = false → s.on PWRST_BO_STS.BOW_NOW = false →
    ∃ t, exec (.bow mv) s = .next t ∧ t.on PWRST_BO_STS.BOW_NOW = true ∧ t.on PWRST_BO_STS.NVM_HELD = true ∧ t.get PWRST_VIN.VIN_MV = mv.val ∧ t.nvm.compacting = false ∧ t.nvm.queue = s.nvm.queue ∧ t.pwr.dipTs = s.now ∧ t.pwr.dipMin = mv.val ∧ RegsOnly [PWRST_BO_STS.BOW_NOW, PWRST_BO_STS.NVM_HELD, PWRST_VIN.VIN_MV, PWRST_NVM_STS.BUSY] s t ∧ Frame [.regs, .nvm, .pwr] s t) ∧
  (∀ (s : State) (mv : Fin 4096), s.pwr.borOn = true → exec (.bow mv) s = .next s) ∧
  (∀ (s : State) (minMv mv : Fin 4096), s.on PWRST_BO_STS.BOW_NOW = true → s.nvm.queue = [] → s.nvm.compacting = false → s.nvm.busy = none → s.ses.rxq = [] →
    ∃ t, exec (.bowRecover minMv mv) s = .next t ∧ t.on PWRST_BO_STS.BOW_NOW = false ∧ t.on PWRST_BO_STS.NVM_HELD = false ∧ t.on PWRST_BO_STS.BOW_SEEN = true ∧ t.get PWRST_DIP_V.MIN_MV = min s.pwr.dipMin minMv.val % 2 ^ 12 ∧ t.get PWRST_DIP_V.DIP_CNT = satCount 8 (s.get PWRST_DIP_V.DIP_CNT) 1 ∧ t.get64 PWRST_DIP_TS_LO.TS_LO PWRST_DIP_TS_HI.TS_HI = s.pwr.dipTs % 2 ^ 64 ∧ Frame [.regs, .sil, .nvm, .pwr, .ses] s t) ∧
  (∀ (s : State) (minMv mv : Fin 4096), s.on PWRST_BO_STS.BOW_NOW = false → s.ses.rxq = [] →
    ∃ t, exec (.bowRecover minMv mv) s = .next t ∧ t.ses = { s.ses with sent := [] } ∧ Frame [.ses] s t)

/-- With TEST_MODE low, no BOR, no boot and no warm reset in progress and no commit running, SYS_RST_N falling, and 0xA5 written to WARM_KEY, assert a warm reset with their cause alone: the counter counts, the Bridge is OFF, the Keepers stop, presence window and debug port are closed, sessions are gone, NVM records are kept. With a commit in progress the fall of the pin is noted and changes nothing else. During a warm reset a key write adds its cause and no other register changes. Another key value does nothing but complete. The balls stand as in the column of R442. A release ends a reset that the pin does not hold, samples the jumper and lets Tamp sample again; with BASE stopped, and the jumper not enabled for the presence window, the sequence waits for BASE. A reset that the pin holds is not released so; the rise of SYS_RST_N ends it. With no reset in force a rise changes only the pin level. A reset behind a held cold POR setting no cause is log entry 19. -/
def Obligations.WarmResetSources : Prop :=
  (∀ (s : State), s.pwr.testMode = false → s.pwr.borOn = false → s.pwr.rom = .none → s.pwr.warmOn = false → s.nvm.busy = none →
    ∃ t, exec (.sysRstNFall) s = .next t ∧ t.pwr.warmOn = true ∧ (t.locked = true → t.drive .fxPwm = .full ∧ t.drive .fxEn = .held ∧ t.drive .fxRsto = .held ∧ t.drive .fxVlv = .held) ∧ t.drive .brk = .held ∧ t.drive .twoWire = .released ∧ t.drive .toppwrEn = .held ∧ t.drive .spi = .active ∧ t.get PWRST_RST_CNT.WARM_CNT = satCount 8 (s.get PWRST_RST_CNT.WARM_CNT) 1 ∧ t.brgState = brgOff ∧ t.pwr.keepersRun = false ∧ t.on KEY_PRES.OPEN = false ∧ t.on KEY_STS.DBG_OPEN = false ∧ t.ses = {} ∧ t.nvm.kept = s.nvm.kept ∧ t.get PWRST_RST_CAUSE.WARM_PIN = 1 ∧ t.get PWRST_RST_CAUSE.WARM_CMD = 0 ∧ t.pwr.warmPin = true ∧ t.pwr.sysRstN = false ∧ Frame [.regs, .time, .clk, .sil, .nvm, .pwr, .brg, .tw, .seq, .tamp, .cool, .tel, .inf, .acd, .key, .fw, .ses, .sec, .bus, .mem] s t) ∧
  (∀ (s : State), s.pwr.borOn = false → s.pwr.rom = .none → s.pwr.warmOn = false → s.nvm.busy.isSome = true →
    ∃ t, exec (.sysRstNFall) s = .next t ∧ t.pwr = { s.pwr with sysRstN := false, warmWait := s.pwr.warmWait ||| 4 } ∧ Frame [.pwr] s t) ∧
  (∀ (s : State) (ini : Initiator) (key : Fin 256), s.judge ini true PWRST_CTL.WARM_KEY.addr = .allowed → key.val = 0xA5 → s.pwr.testMode = false → s.pwr.borOn = false → s.pwr.rom = .none → s.pwr.warmOn = false → s.nvm.busy = none →
    ∃ t, exec (.warmKey ini key) s = .next t ∧ t.pwr.warmOn = true ∧ (t.locked = true → t.drive .fxPwm = .full ∧ t.drive .fxEn = .held ∧ t.drive .fxRsto = .held ∧ t.drive .fxVlv = .held) ∧ t.drive .brk = .held ∧ t.drive .twoWire = .released ∧ t.drive .toppwrEn = .held ∧ t.drive .spi = .active ∧ t.get PWRST_RST_CNT.WARM_CNT = satCount 8 (s.get PWRST_RST_CNT.WARM_CNT) 1 ∧ t.brgState = brgOff ∧ t.pwr.keepersRun = false ∧ t.on KEY_PRES.OPEN = false ∧ t.on KEY_STS.DBG_OPEN = false ∧ t.ses = {} ∧ t.nvm.kept = s.nvm.kept ∧ t.get PWRST_RST_CAUSE.WARM_CMD = 1 ∧ t.get PWRST_RST_CAUSE.WARM_PIN = 0 ∧ t.bus = .written ∧ Frame [.regs, .time, .clk, .sil, .nvm, .pwr, .brg, .tw, .seq, .tamp, .cool, .tel, .inf, .acd, .key, .fw, .ses, .sec, .bus, .mem] s t) ∧
  (∀ (s : State) (ini : Initiator) (key : Fin 256), s.judge ini true PWRST_CTL.WARM_KEY.addr = .allowed → key.val = 0xA5 → s.pwr.borOn = false → s.pwr.rom = .none → s.pwr.warmOn = true →
    ∃ t, exec (.warmKey ini key) s = .next t ∧ t.get PWRST_RST_CAUSE.WARM_CMD = 1 ∧ t.pwr.warmOn = true ∧ t.bus = .written ∧ RegsOnly [PWRST_RST_CAUSE.WARM_CMD] s t ∧ Frame [.regs, .bus] s t) ∧
  (∀ (s : State) (ini : Initiator) (key : Fin 256), s.judge ini true PWRST_CTL.WARM_KEY.addr = .allowed → key.val ≠ 0xA5 →
    ∃ t, exec (.warmKey ini key) s = .next t ∧ t.bus = .written ∧ Frame [.bus] s t) ∧
  (∀ (s : State) (jumper : Bool), s.pwr.warmOn = true → s.pwr.warmPin = false → s.baseSrc = srcStopped → s.on KEY_PRES_CFG.JMP_EN = false →
    ∃ t, exec (.warmResetRelease jumper) s = .next t ∧ t.pwr.warmOn = false ∧ t.pwr.sampling = true ∧ t.pwr.rom = .warm ∧ t.on PWRST_STRAP.PRES_JMP = jumper ∧ RegsOnly [PWRST_STRAP.PRES_JMP] s t ∧ Frame [.regs, .pwr] s t) ∧
  (∀ (s : State) (jumper : Bool), s.pwr.warmOn = true → s.pwr.warmPin = false → s.baseSrc ≠ srcStopped →
    ∃ t, exec (.warmResetRelease jumper) s = .next t ∧ t.pwr.warmOn = false ∧ t.pwr.sampling = true ∧ t.pwr.rom = .none ∧ t.on PWRST_STRAP.PRES_JMP = jumper ∧ Frame [.regs, .time, .clk, .sil, .nvm, .pwr, .brg, .tw, .seq, .tamp, .tel, .inf, .acd, .key, .fw, .ses, .sec, .bus, .mem] s t) ∧
  (∀ (s : State) (jumper : Bool), s.pwr.warmPin = true → exec (.warmResetRelease jumper) s = .next s) ∧
  (∀ (s : State) (jumper : Bool), s.pwr.rom = .none → s.pwr.warmOn = false →
    ∃ t, exec (.sysRstNRise jumper) s = .next t ∧ t.pwr = { s.pwr with sysRstN := true } ∧ Frame [.pwr] s t) ∧
  (∀ (s : State) (jumper : Bool), s.pwr.rom = .none → s.pwr.warmOn = true → s.pwr.warmPin = true →
    ∃ t, exec (.sysRstNRise jumper) s = .next t ∧ t.pwr.warmOn = false ∧ t.pwr.warmPin = false ∧ t.pwr.sampling = true ∧ t.pwr.sysRstN = true ∧ t.on PWRST_STRAP.PRES_JMP = jumper ∧ Frame [.regs, .time, .clk, .sil, .nvm, .pwr, .brg, .tw, .seq, .tamp, .cool, .tel, .inf, .acd, .key, .fw, .ses, .sec, .bus, .mem, .fresh] s t)

/-- With VIN_AO well, nothing waiting and no warm reset due: a commit of Sillage records, of an erasure or of register fields that ends is one entry in the active bank under the next sequence number, its content applied, the engine not busy, and no triple is held back for an epoch; a compaction that ends makes the other bank active with the live entries, the engine not busy. A commit of the queue of persistent records takes up to 51 of them (the batch size is log entry 9), with none missed before, and with the engine free, no warm reset and room in the bank one entry of 8 + 64 n bytes is then in progress. NVM_CLR with the presence window open and a commit in progress puts an erasure behind what waits; with the window closed it changes nothing but its completion. Without a commit, a compaction or a record to commit, their ends change nothing. -/
def Obligations.NvmJournalCommits : Prop :=
  (∀ (s : State) (j : NvmJob), s.nvm.busy = some j → s.pwr.fwSwitch = 0 → s.pwr.warmWait = 0 → s.pwr.flashWait = 0 → s.nvm.queue = [] → s.nvm.compacting = false → s.on PWRST_BO_STS.NVM_HELD = false → j.data.all (fun d => match d with | .silRecords _ _ => true | .silClear => true | .regs _ => true | _ => false) = true →
    ∃ t, exec (.nvmCommitDone) s = .next t ∧ t.nvm.busy = none ∧ t.nvm.seq = (s.nvm.seq + 1) % 2 ^ 32 ∧ t.nvm.bank = (j.kind, j.key, j.len) :: (j.data.foldl NvmSt.apply s.nvm).bank ∧ t.nvm.kept = (j.data.foldl NvmSt.apply s.nvm).kept ∧ t.nvm.regs = (j.data.foldl NvmSt.apply s.nvm).regs ∧ t.on PWRST_NVM_STS.BUSY = false ∧ t.acd = { s.acd with shown := none } ∧ RegsOnly [PWRST_NVM_STS.BUSY] s t ∧ Frame [.regs, .nvm, .acd] s t) ∧
  (∀ (s : State), s.nvm.busy = none → exec (.nvmCommitDone) s = .next s) ∧
  (∀ (s : State), s.nvm.compacting = true → s.nvm.busy = none → s.nvm.queue = [] → s.on PWRST_BO_STS.NVM_HELD = false →
    ∃ t, exec (.nvmCompactionDone) s = .next t ∧ t.nvm.compacting = false ∧ t.nvm.bank = liveEntries s.nvm.bank [] 0 ∧ t.get PWRST_NVM_STS.BANK = (1 - s.get PWRST_NVM_STS.BANK) % 2 ∧ t.on PWRST_NVM_STS.BUSY = false ∧ RegsOnly [PWRST_NVM_STS.BANK, PWRST_NVM_STS.BUSY] s t ∧ Frame [.regs, .nvm] s t) ∧
  (∀ (s : State), s.nvm.compacting = false → exec (.nvmCompactionDone) s = .next s) ∧
  (∀ (s : State), s.pwr.warmOn = false → s.on PWRST_BO_STS.NVM_HELD = false → s.sil.nvmQueue.isEmpty = false → s.sil.nvmMissed = 0 → s.nvm.busy = none → s.nvm.compacting = false → s.nvm.queue = [] → bankUsed s.nvm.bank + entrySize (8 + 64 * (s.sil.nvmQueue.take silBatch).length) ≤ bankRoom →
    ∃ t, exec (.silNvmCommit) s = .next t ∧ t.sil.nvmQueue = s.sil.nvmQueue.drop silBatch ∧ t.nvm.busy = some { kind := kindSil, key := ((s.sil.nvmQueue.take silBatch).head?.map Rec.num).getD 0, len := 8 + 64 * (s.sil.nvmQueue.take silBatch).length, data := [.silRecords (s.get SIL_BOOT.BOOT) (s.sil.nvmQueue.take silBatch)] } ∧ t.nvm.queue = [] ∧ t.on PWRST_NVM_STS.BUSY = true ∧ RegsOnly [PWRST_NVM_STS.BUSY] s t ∧ Frame [.regs, .sil, .nvm] s t) ∧
  (∀ (s : State), s.sil.nvmQueue.isEmpty = true → exec (.silNvmCommit) s = .next s) ∧
  (∀ (s : State) (ini : Initiator), s.judge ini true SIL_CTL.NVM_CLR.addr = .allowed → s.on KEY_PRES.OPEN = true → s.nvm.busy.isSome = true →
    ∃ t, exec (.nvmClr ini) s = .next t ∧ t.nvm.queue = s.nvm.queue ++ [{ kind := kindSil, key := 0, len := 64, data := [.silClear] }] ∧ t.nvm.kept = s.nvm.kept ∧ t.bus = .written ∧ Frame [.nvm, .bus] s t) ∧
  (∀ (s : State) (ini : Initiator), s.judge ini true SIL_CTL.NVM_CLR.addr = .allowed → s.on KEY_PRES.OPEN = false →
    ∃ t, exec (.nvmClr ini) s = .next t ∧ t.bus = .written ∧ Frame [.bus] s t)

/-- With no transition and no reset in progress: a request for A0 in A0 changes nothing but its completion. A0 to A1 with runs in progress and no job running shows BUSY and TGT = 1, holds the engine and the hint matcher and forgets the runs that are due; a running job refuses A1 with cause 1. A1 to A0 ends at once: engine and matcher are let go, and the domains that the entry gated run. A2 to A0 begins a bring-up, at step 3 with the power good and otherwise with TOPPWR_EN high. A0 to A2 with the Bridge UP, runs in progress and neither job nor sequencer operation shows TGT = 2 and holds both. A2 to A3 by a Keeper with no EN output, no rail on by PMBus alone, no leak and no sequencer operation, TEST_MODE low, stops BASE, IOSC, the Keepers and the sampling, the balls as R442 says. Refused are: with cause 7, A3 for a Control core outside A3 and for every initiator in A0 and A1, A1 in A2 and A3, A2 in A3; with cause 6, A2 while BUSY, also where A2 is the state in force (log entry 18); with cause 1, A2 in A0 or A1 with a job running; with cause 3, A2 with a sequencer operation, and A3 with one alone; with cause 4, A3 with an EN output high; with cause 5, A3 with a leak of any channel and nothing on. Which cause comes first is log entry 18. A refusal logs EVT_PWR_REFUSED with state, request, cause and initiator, and changes nothing else. -/
def Obligations.PowerStateRequests : Prop :=
  (∀ (s : State) (ini : Initiator), s.judge ini true PWRST_CTL.REQ.addr = .allowed → s.cur = 0 → s.on PWRST_STATE.BUSY = false → s.resetRuns = false →
    ∃ t, exec (.powerReqA0 ini) s = .next t ∧ t.bus = .written ∧ Frame [.bus] s t) ∧
  (∀ (s : State) (ini : Initiator), s.judge ini true PWRST_CTL.REQ.addr = .allowed → s.cur = 1 → s.pwr.trans = none → s.on PWRST_STATE.BUSY = false → s.resetRuns = false →
    ∃ t, exec (.powerReqA0 ini) s = .next t ∧ t.cur = 0 ∧ t.on INF_STS.HELD = false ∧ t.on HNT_STS.HELD = false ∧ (∀ d ∈ s.pwr.a1Gates, t.gated d = false ∧ bitOf (t.get CLK_GATE_REQ.REQ) d = false) ∧ t.bus = .written ∧ RegsOnly [PWRST_STATE.BUSY, PWRST_STATE.TGT, PWRST_STATE.CUR, INF_STS.HELD, HNT_STS.HELD, CLK_GATE_REQ.REQ, CLK_GATE_STS.GATED, LPC_STS.SELF_REFRESH, COOL_HWDT_STS.ARMED] s t ∧ Frame [.regs, .sil, .pwr, .cool, .bus] s t) ∧
  (∀ (s : State) (ini : Initiator), s.judge ini true PWRST_CTL.REQ.addr = .allowed → s.cur = 2 → s.on PWRST_STATE.BUSY = false → s.resetRuns = false →
    ∃ t, exec (.powerReqA0 ini) s = .next t ∧ t.cur = 2 ∧ t.get PWRST_STATE.TGT = 0 ∧ t.on PWRST_STATE.BUSY = true ∧ t.pwr.toppwrEn = true ∧ t.pwr.bringFrom = .a2Exit ∧ t.pwr.bring = (if s.pwr.toppwrEn && s.pwr.toppwrGood then 3 else 2) ∧ t.bus = .written ∧ RegsOnly [PWRST_STATE.BUSY, PWRST_STATE.TGT, CLK_FMC_STS.DISTURB] s t ∧ Frame [.regs, .pwr, .bus] s t) ∧
  (∀ (s : State) (ini : Initiator), s.judge ini true PWRST_CTL.REQ.addr = .allowed → s.cur = 0 → s.get SES_JOB.RUNNING = 0 → s.runsEnded = false → s.on PWRST_STATE.BUSY = false → s.resetRuns = false →
    ∃ t, exec (.powerReqA1 ini) s = .next t ∧ t.cur = 0 ∧ t.get PWRST_STATE.TGT = 1 ∧ t.on PWRST_STATE.BUSY = true ∧ t.on INF_STS.HELD = true ∧ t.on HNT_STS.HELD = true ∧ (∀ n < 16, (t.islot n).due = none) ∧ t.pwr.trans = some .toA1 ∧ t.pwr.released = false ∧ t.bus = .written ∧ RegsOnly ([PWRST_STATE.BUSY, PWRST_STATE.TGT, INF_STS.HELD, HNT_STS.HELD, INF_STS.RUNNING, INF_STS.CL_BUSY] ++ (List.range 16).flatMap (fun n => [INF_SLOT_STS.RUN n, INF_SLOT_STS.PEND n])) s t ∧ Frame [.regs, .pwr, .inf, .bus] s t) ∧
  (∀ (s : State) (ini : Initiator), s.judge ini true PWRST_CTL.REQ.addr = .allowed → s.cur = 0 → s.get SES_JOB.RUNNING ≠ 0 → s.on PWRST_STATE.BUSY = false → s.resetRuns = false →
    ∃ t, exec (.powerReqA1 ini) s = .next t ∧ t.sil = (s.log EVT_PWR_REFUSED ACC_TRAY UNIT_PWRST 0 [(0, 1, 0), (1, 1, 1), (2, 1, 1), (3, 1, iniByte ini)]).sil ∧ t.bus = .written ∧ Frame [.sil, .bus] s t) ∧
  (∀ (s : State) (ini : Initiator), s.judge ini true PWRST_CTL.REQ.addr = .allowed → s.cur = 0 → s.get SES_JOB.RUNNING = 0 → s.seqBusy = false → s.bridgeUp = true → s.runsEnded = false → s.on PWRST_STATE.BUSY = false → s.resetRuns = false →
    ∃ t, exec (.powerReqA2 ini) s = .next t ∧ t.get PWRST_STATE.TGT = 2 ∧ t.on PWRST_STATE.BUSY = true ∧ t.on INF_STS.HELD = true ∧ t.on HNT_STS.HELD = true ∧ (∀ n < 16, (t.islot n).due = none) ∧ t.pwr.trans = some .toA2 ∧ t.pwr.wsaveValid = false ∧ t.bus = .written ∧ RegsOnly ([PWRST_STATE.BUSY, PWRST_STATE.TGT, INF_STS.HELD, HNT_STS.HELD, INF_STS.RUNNING, INF_STS.CL_BUSY] ++ (List.range 16).flatMap (fun n => [INF_SLOT_STS.RUN n, INF_SLOT_STS.PEND n])) s t ∧ Frame [.regs, .pwr, .inf, .bus] s t) ∧
  (∀ (s : State) (ini : Initiator), s.judge ini true PWRST_CTL.REQ.addr = .allowed → (∃ k, ini = .keeper k) → s.cur = 2 → s.pwr.testMode = false → s.seq.enLvl = 0 → s.seq.rails.any (fun r => r.cfg.pmbOn && !r.cfg.enUse && r.st != .off) = false → (∀ k < 16, s.on (COOL_LK_STS.ACTIVE k) = false) → s.seqBusy = false → s.on PWRST_STATE.BUSY = false → s.resetRuns = false →
    ∃ t, exec (.powerReqA3 ini) s = .next t ∧ t.cur = 3 ∧ t.baseSrc = srcStopped ∧ t.clk.iosc = false ∧ t.on CLK_STS.IOSC_RDY = false ∧ t.on CLK_STS.FB = true ∧ t.pwr.keepersRun = false ∧ t.pwr.sampling = false ∧ t.drive .spi = .highZCs ∧ t.drive .topDie = .highZ ∧ t.drive .toppwrEn = .low ∧ t.drive .twoWire = .araOnly ∧ (t.locked = true → t.drive .fxPwm = .a3Duty ∧ t.drive .fxEn = .enOff ∧ t.drive .fxRsto = .held) ∧ t.bus = .written ∧ Frame [.regs, .time, .clk, .sil, .nvm, .pwr, .brg, .tw, .seq, .tamp, .cool, .tel, .inf, .acd, .key, .fw, .ses, .sec, .bus, .mem, .fresh] s t) ∧
  (∀ (s : State) (ini : Initiator), s.judge ini true PWRST_CTL.REQ.addr = .allowed → (∃ c, ini = .core c) → s.cur ≠ 3 → s.on PWRST_STATE.BUSY = false → s.resetRuns = false →
    ∃ t, exec (.powerReqA3 ini) s = .next t ∧ t.sil = (s.log EVT_PWR_REFUSED ACC_TRAY UNIT_PWRST 0 [(0, 1, s.cur), (1, 1, 3), (2, 1, 7), (3, 1, iniByte ini)]).sil ∧ t.bus = .written ∧ Frame [.sil, .bus] s t) ∧
  (∀ (s : State) (ini : Initiator), s.judge ini true PWRST_CTL.REQ.addr = .allowed → s.on PWRST_STATE.BUSY = true →
    ∃ t, exec (.powerReqA2 ini) s = .next t ∧ t.sil = (s.log EVT_PWR_REFUSED ACC_TRAY UNIT_PWRST 0 [(0, 1, s.cur), (1, 1, 2), (2, 1, 6), (3, 1, iniByte ini)]).sil ∧ t.bus = .written ∧ Frame [.sil, .bus] s t) ∧
  (∀ (s : State) (ini : Initiator), s.judge ini true PWRST_CTL.REQ.addr = .allowed → (s.cur = 0 ∨ s.cur = 1) → s.get SES_JOB.RUNNING ≠ 0 → s.on PWRST_STATE.BUSY = false → s.resetRuns = false →
    ∃ t, exec (.powerReqA2 ini) s = .next t ∧ t.sil = (s.log EVT_PWR_REFUSED ACC_TRAY UNIT_PWRST 0 [(0, 1, s.cur), (1, 1, 2), (2, 1, 1), (3, 1, iniByte ini)]).sil ∧ t.bus = .written ∧ Frame [.sil, .bus] s t) ∧
  (∀ (s : State) (ini : Initiator), s.judge ini true PWRST_CTL.REQ.addr = .allowed → (s.cur = 0 ∨ s.cur = 1) → s.get SES_JOB.RUNNING = 0 → s.seqBusy = true → s.on PWRST_STATE.BUSY = false → s.resetRuns = false →
    ∃ t, exec (.powerReqA2 ini) s = .next t ∧ t.sil = (s.log EVT_PWR_REFUSED ACC_TRAY UNIT_PWRST 0 [(0, 1, s.cur), (1, 1, 2), (2, 1, 3), (3, 1, iniByte ini)]).sil ∧ t.bus = .written ∧ Frame [.sil, .bus] s t) ∧
  (∀ (s : State) (ini : Initiator), s.judge ini true PWRST_CTL.REQ.addr = .allowed → s.cur = 3 → s.on PWRST_STATE.BUSY = false → s.resetRuns = false →
    ∃ t, exec (.powerReqA2 ini) s = .next t ∧ t.sil = (s.log EVT_PWR_REFUSED ACC_TRAY UNIT_PWRST 0 [(0, 1, s.cur), (1, 1, 2), (2, 1, 7), (3, 1, iniByte ini)]).sil ∧ t.bus = .written ∧ Frame [.sil, .bus] s t) ∧
  (∀ (s : State) (ini : Initiator), s.judge ini true PWRST_CTL.REQ.addr = .allowed → (s.cur = 2 ∨ s.cur = 3) → s.on PWRST_STATE.BUSY = false → s.resetRuns = false →
    ∃ t, exec (.powerReqA1 ini) s = .next t ∧ t.sil = (s.log EVT_PWR_REFUSED ACC_TRAY UNIT_PWRST 0 [(0, 1, s.cur), (1, 1, 1), (2, 1, 7), (3, 1, iniByte ini)]).sil ∧ t.bus = .written ∧ Frame [.sil, .bus] s t) ∧
  (∀ (s : State) (ini : Initiator), s.judge ini true PWRST_CTL.REQ.addr = .allowed → (s.cur = 0 ∨ s.cur = 1) → s.on PWRST_STATE.BUSY = false → s.resetRuns = false →
    ∃ t, exec (.powerReqA3 ini) s = .next t ∧ t.sil = (s.log EVT_PWR_REFUSED ACC_TRAY UNIT_PWRST 0 [(0, 1, s.cur), (1, 1, 3), (2, 1, 7), (3, 1, iniByte ini)]).sil ∧ t.bus = .written ∧ Frame [.sil, .bus] s t) ∧
  (∀ (s : State) (ini : Initiator), s.judge ini true PWRST_CTL.REQ.addr = .allowed → (∃ k, ini = .keeper k) → s.cur = 2 → s.seq.enLvl ≠ 0 → s.on PWRST_STATE.BUSY = false → s.resetRuns = false →
    ∃ t, exec (.powerReqA3 ini) s = .next t ∧ t.sil = (s.log EVT_PWR_REFUSED ACC_TRAY UNIT_PWRST 0 [(0, 1, s.cur), (1, 1, 3), (2, 1, 4), (3, 1, iniByte ini)]).sil ∧ t.bus = .written ∧ Frame [.sil, .bus] s t) ∧
  (∀ (s : State) (ini : Initiator) (k : Fin 16), s.judge ini true PWRST_CTL.REQ.addr = .allowed → (∃ k, ini = .keeper k) → s.cur = 2 → s.seq.enLvl = 0 → s.seq.rails.any (fun r => r.cfg.pmbOn && !r.cfg.enUse && r.st != .off) = false → s.on (COOL_LK_STS.ACTIVE k.val) = true → s.on PWRST_STATE.BUSY = false → s.resetRuns = false →
    ∃ t, exec (.powerReqA3 ini) s = .next t ∧ t.sil = (s.log EVT_PWR_REFUSED ACC_TRAY UNIT_PWRST 0 [(0, 1, s.cur), (1, 1, 3), (2, 1, 5), (3, 1, iniByte ini)]).sil ∧ t.bus = .written ∧ Frame [.sil, .bus] s t) ∧
  (∀ (s : State) (ini : Initiator), s.judge ini true PWRST_CTL.REQ.addr = .allowed → (∃ k, ini = .keeper k) → s.cur = 2 → s.seq.enLvl = 0 → s.seq.rails.any (fun r => r.cfg.pmbOn && !r.cfg.enUse && r.st != .off) = false → (∀ k < 16, s.on (COOL_LK_STS.ACTIVE k) = false) → s.seqBusy = true → s.on PWRST_STATE.BUSY = false → s.resetRuns = false →
    ∃ t, exec (.powerReqA3 ini) s = .next t ∧ t.sil = (s.log EVT_PWR_REFUSED ACC_TRAY UNIT_PWRST 0 [(0, 1, s.cur), (1, 1, 3), (2, 1, 3), (3, 1, iniByte ini)]).sil ∧ t.bus = .written ∧ Frame [.sil, .bus] s t)

/-- With its release sent and no Top reset waiting, A1 entry ends in A1 when its domains are gated; with the request of any of them refused it is undone from A0: engine and matcher are let go, the domains that the entry gated run, and EVT_PWR_REFUSED names cause 2 and who asked. Without such an entry its end does nothing. The W save with the Bridge UP writes the Top-die fields of class W into the save block, marks it valid and begins QUIESCE for A2; without an A2 entry it does nothing. In A3 an enabled wake input on a ball, the enabled timer, or a matching address of a port with WAKE set begins the exit, recorded in SRC; the exit of an input or the timer goes to A0 where its target says so. In A1 such an input ends A1. In A2 with the Top die unpowered and the Keepers running an enabled input, or the enabled timer, whose target is A0 begins the bring-up; with the target A2 it is recorded and no more; with the retries of a failed bring-up stopped any of them clears FAIL_RUN and begins one, and out of A3 the exit then goes to A0. An input not enabled or on no ball, a timer of 0 or in A0 and A1, and an address in another state do nothing. The save block's encoding is log entry 52, what an abandoned A1 entry undoes is log entry 18. -/
def Obligations.PowerTransitionsAndWakes : Prop :=
  (∀ (s : State), s.pwr.trans = some .toA1 → s.pwr.released = true → a1Domains.all s.gated = true → s.pwr.topWait = 0 →
    ∃ t, exec (.a1EntryComplete) s = .next t ∧ t.cur = 1 ∧ t.get PWRST_STATE.TGT = 1 ∧ t.on PWRST_STATE.BUSY = false ∧ t.pwr.trans = none ∧ RegsOnly [PWRST_STATE.BUSY, PWRST_STATE.TGT, PWRST_STATE.CUR] s t ∧ Frame [.regs, .sil, .pwr] s t) ∧
  (∀ (s : State) (d : Fin 10), s.pwr.trans = some .toA1 → s.pwr.released = true → (d.val < 4 ∨ d.val = 8) → s.gated d.val = false → bitOf (s.get CLK_GATE_REQ.REQ) d.val = false → s.pwr.topWait = 0 → s.cur = 0 →
    ∃ t, exec (.a1EntryComplete) s = .next t ∧ t.cur = 0 ∧ t.on INF_STS.HELD = false ∧ t.on HNT_STS.HELD = false ∧ (∀ d ∈ s.pwr.a1Gates, t.gated d = false) ∧ t.sil = (s.log EVT_PWR_REFUSED ACC_TRAY UNIT_PWRST 0 [(0, 1, s.cur), (1, 1, 1), (2, 1, 2), (3, 1, iniByte s.pwr.a1Ini)]).sil ∧ t.pwr.trans = none ∧ RegsOnly [PWRST_STATE.BUSY, PWRST_STATE.TGT, PWRST_STATE.CUR, INF_STS.HELD, HNT_STS.HELD, CLK_GATE_REQ.REQ, CLK_GATE_STS.GATED, LPC_STS.SELF_REFRESH] s t ∧ Frame [.regs, .sil, .pwr] s t) ∧
  (∀ (s : State), s.pwr.trans = none → exec (.a1EntryComplete) s = .next s) ∧
  (∀ (s : State), s.pwr.trans = some .toA2 → s.pwr.released = true → s.bridgeUp = true →
    ∃ t, exec (.wSaveDone) s = .next t ∧ t.brgState = brgQuiesce ∧ t.brg.quiesceTo = .a2 ∧ t.pwr.wsaveValid = true ∧ t.mem = memStore (memForget s.mem wBlock (wBlock + wBlockLen)) wBlock (wEncode (s.regs.filter (fun e => keyClass e.1 false .w))) ∧ Frame [.regs, .pwr, .brg, .tw, .tamp, .tel, .fw, .mem] s t) ∧
  (∀ (s : State), s.pwr.trans = none → exec (.wSaveDone) s = .next s) ∧
  (∀ (s : State) (mask : Fin 256), s.cur = 3 → s.pwr.trans = none → s.resetRuns = false → ((mask.val &&& maskOf 8 (s.placedIn fnWake)) &&& s.get PWRST_WAKE_EN.EN) ≠ 0 →
    ∃ t, exec (.wakeInput mask) s = .next t ∧ t.get PWRST_WAKE_STS.SRC = ((mask.val &&& maskOf 8 (s.placedIn fnWake)) &&& s.get PWRST_WAKE_EN.EN) % 2 ^ 11 ∧ t.get PWRST_STATE.TGT = 2 ∧ t.on PWRST_STATE.BUSY = true ∧ t.pwr.rom = .a3 ∧ t.clk.iosc = true ∧ t.pwr.toA0 = (((mask.val &&& maskOf 8 (s.placedIn fnWake)) &&& s.get PWRST_WAKE_EN.EN) &&& s.get PWRST_WAKE_TGT.TGT != 0 || !s.retryAllowed) ∧ t.get PWRST_TOP_CAUSE.FAIL_RUN = (if s.retryAllowed then s.get PWRST_TOP_CAUSE.FAIL_RUN else 0) ∧ RegsOnly [PWRST_WAKE_STS.SRC, PWRST_STATE.BUSY, PWRST_STATE.TGT, PWRST_TOP_CAUSE.FAIL_RUN] s t ∧ Frame [.regs, .clk, .pwr] s t) ∧
  (∀ (s : State) (mask : Fin 256), s.cur = 1 → s.pwr.trans = none → s.pwr.toppwrEn = true → s.resetRuns = false → ((mask.val &&& maskOf 8 (s.placedIn fnWake)) &&& s.get PWRST_WAKE_EN.EN) ≠ 0 →
    ∃ t, exec (.wakeInput mask) s = .next t ∧ t.get PWRST_WAKE_STS.SRC = ((mask.val &&& maskOf 8 (s.placedIn fnWake)) &&& s.get PWRST_WAKE_EN.EN) % 2 ^ 11 ∧ t.cur = 0 ∧ t.on INF_STS.HELD = false ∧ (∀ d ∈ s.pwr.a1Gates, t.gated d = false) ∧ RegsOnly [PWRST_STATE.BUSY, PWRST_STATE.TGT, PWRST_STATE.CUR, INF_STS.HELD, HNT_STS.HELD, CLK_GATE_REQ.REQ, CLK_GATE_STS.GATED, LPC_STS.SELF_REFRESH, COOL_HWDT_STS.ARMED, PWRST_WAKE_STS.SRC] s t ∧ Frame [.regs, .sil, .pwr, .cool] s t) ∧
  (∀ (s : State) (mask : Fin 256), s.cur = 2 → s.pwr.trans = none → s.pwr.warmOn = false → s.pwr.rom = .none → s.pwr.kfwHalt = false → s.pwr.toppwrEn = false → s.retryAllowed = true → ((mask.val &&& maskOf 8 (s.placedIn fnWake)) &&& s.get PWRST_WAKE_EN.EN) &&& s.get PWRST_WAKE_TGT.TGT ≠ 0 →
    ∃ t, exec (.wakeInput mask) s = .next t ∧ t.get PWRST_WAKE_STS.SRC = ((mask.val &&& maskOf 8 (s.placedIn fnWake)) &&& s.get PWRST_WAKE_EN.EN) % 2 ^ 11 ∧ t.cur = 2 ∧ t.get PWRST_STATE.TGT = 0 ∧ t.on PWRST_STATE.BUSY = true ∧ t.pwr.toppwrEn = true ∧ t.pwr.bring = 2 ∧ t.pwr.bringFrom = .a2Exit ∧ RegsOnly [PWRST_WAKE_STS.SRC, PWRST_STATE.BUSY, PWRST_STATE.TGT, CLK_FMC_STS.DISTURB] s t ∧ Frame [.regs, .pwr] s t) ∧
  (∀ (s : State) (mask : Fin 256), s.cur = 2 → s.pwr.trans = none → s.pwr.warmOn = false → s.pwr.rom = .none → s.pwr.kfwHalt = false → s.pwr.toppwrEn = false → s.retryAllowed = true → ((mask.val &&& maskOf 8 (s.placedIn fnWake)) &&& s.get PWRST_WAKE_EN.EN) ≠ 0 → ((mask.val &&& maskOf 8 (s.placedIn fnWake)) &&& s.get PWRST_WAKE_EN.EN) &&& s.get PWRST_WAKE_TGT.TGT = 0 →
    ∃ t, exec (.wakeInput mask) s = .next t ∧ t.get PWRST_WAKE_STS.SRC = ((mask.val &&& maskOf 8 (s.placedIn fnWake)) &&& s.get PWRST_WAKE_EN.EN) % 2 ^ 11 ∧ RegsOnly [PWRST_WAKE_STS.SRC] s t ∧ Frame [.regs] s t) ∧
  (∀ (s : State) (mask : Fin 256), s.cur = 2 → s.pwr.trans = none → s.pwr.warmOn = false → s.pwr.rom = .none → s.pwr.kfwHalt = false → s.pwr.toppwrEn = false → s.retryAllowed = false → ((mask.val &&& maskOf 8 (s.placedIn fnWake)) &&& s.get PWRST_WAKE_EN.EN) ≠ 0 →
    ∃ t, exec (.wakeInput mask) s = .next t ∧ t.get PWRST_WAKE_STS.SRC = ((mask.val &&& maskOf 8 (s.placedIn fnWake)) &&& s.get PWRST_WAKE_EN.EN) % 2 ^ 11 ∧ t.get PWRST_TOP_CAUSE.FAIL_RUN = 0 ∧ t.get PWRST_STATE.TGT = 0 ∧ t.on PWRST_STATE.BUSY = true ∧ t.pwr.toppwrEn = true ∧ t.pwr.bring = 2 ∧ RegsOnly [PWRST_WAKE_STS.SRC, PWRST_STATE.BUSY, PWRST_STATE.TGT, CLK_FMC_STS.DISTURB, PWRST_TOP_CAUSE.FAIL_RUN] s t ∧ Frame [.regs, .pwr] s t) ∧
  (∀ (s : State) (mask : Fin 256), ((mask.val &&& maskOf 8 (s.placedIn fnWake)) &&& s.get PWRST_WAKE_EN.EN) = 0 → exec (.wakeInput mask) s = .next s) ∧
  (∀ (s : State), s.cur = 3 → s.get PWRST_WAKE_TMR.MS ≠ 0 → bitOf (s.get PWRST_WAKE_EN.EN) 10 = true → s.pwr.trans = none → s.resetRuns = false →
    ∃ t, exec (.wakeTimer) s = .next t ∧ t.get PWRST_WAKE_STS.SRC = 0x400 ∧ t.get PWRST_STATE.TGT = 2 ∧ t.pwr.rom = .a3 ∧ t.pwr.toA0 = (bitOf (s.get PWRST_WAKE_TGT.TGT) 10 || !s.retryAllowed) ∧ t.get PWRST_TOP_CAUSE.FAIL_RUN = (if s.retryAllowed then s.get PWRST_TOP_CAUSE.FAIL_RUN else 0) ∧ RegsOnly [PWRST_WAKE_STS.SRC, PWRST_STATE.BUSY, PWRST_STATE.TGT, PWRST_TOP_CAUSE.FAIL_RUN] s t ∧ Frame [.regs, .clk, .pwr] s t) ∧
  (∀ (s : State), s.cur = 2 → s.pwr.trans = none → s.pwr.warmOn = false → s.pwr.rom = .none → s.pwr.kfwHalt = false → s.pwr.toppwrEn = false → s.get PWRST_WAKE_TMR.MS ≠ 0 → bitOf (s.get PWRST_WAKE_EN.EN) 10 = true → s.retryAllowed = true → bitOf (s.get PWRST_WAKE_TGT.TGT) 10 = true →
    ∃ t, exec (.wakeTimer) s = .next t ∧ t.get PWRST_WAKE_STS.SRC = 0x400 ∧ t.cur = 2 ∧ t.get PWRST_STATE.TGT = 0 ∧ t.on PWRST_STATE.BUSY = true ∧ t.pwr.toppwrEn = true ∧ t.pwr.bring = 2 ∧ t.pwr.bringFrom = .a2Exit ∧ RegsOnly [PWRST_WAKE_STS.SRC, PWRST_STATE.BUSY, PWRST_STATE.TGT, CLK_FMC_STS.DISTURB] s t ∧ Frame [.regs, .pwr] s t) ∧
  (∀ (s : State), s.cur = 2 → s.pwr.trans = none → s.pwr.warmOn = false → s.pwr.rom = .none → s.pwr.kfwHalt = false → s.pwr.toppwrEn = false → s.get PWRST_WAKE_TMR.MS ≠ 0 → bitOf (s.get PWRST_WAKE_EN.EN) 10 = true → s.retryAllowed = true → bitOf (s.get PWRST_WAKE_TGT.TGT) 10 = false →
    ∃ t, exec (.wakeTimer) s = .next t ∧ t.get PWRST_WAKE_STS.SRC = 0x400 ∧ RegsOnly [PWRST_WAKE_STS.SRC] s t ∧ Frame [.regs] s t) ∧
  (∀ (s : State), s.cur = 2 → s.pwr.trans = none → s.pwr.warmOn = false → s.pwr.rom = .none → s.pwr.kfwHalt = false → s.pwr.toppwrEn = false → s.get PWRST_WAKE_TMR.MS ≠ 0 → bitOf (s.get PWRST_WAKE_EN.EN) 10 = true → s.retryAllowed = false →
    ∃ t, exec (.wakeTimer) s = .next t ∧ t.get PWRST_WAKE_STS.SRC = 0x400 ∧ t.get PWRST_TOP_CAUSE.FAIL_RUN = 0 ∧ t.get PWRST_STATE.TGT = 0 ∧ t.pwr.toppwrEn = true ∧ t.pwr.bring = 2 ∧ RegsOnly [PWRST_WAKE_STS.SRC, PWRST_STATE.BUSY, PWRST_STATE.TGT, CLK_FMC_STS.DISTURB, PWRST_TOP_CAUSE.FAIL_RUN] s t ∧ Frame [.regs, .pwr] s t) ∧
  (∀ (s : State), (s.cur = 0 ∨ s.cur = 1) → exec (.wakeTimer) s = .next s) ∧
  (∀ (s : State), s.get PWRST_WAKE_TMR.MS = 0 → exec (.wakeTimer) s = .next s) ∧
  (∀ (s : State) (n : Fin 12) (addr : Fin 128), s.cur = 3 → s.on (TW_CFG.WAKE n.val) = true → bitOf (s.get PWRST_WAKE_EN.EN) 8 = true → s.tgtMatch n.val addr.val = true → s.pwr.trans = none → s.resetRuns = false →
    ∃ t, exec (.wakeAddressMatch n addr) s = .next t ∧ t.on (TW_STS.WAKE_HIT n.val) = true ∧ t.get PWRST_WAKE_STS.SRC = 0x100 ∧ t.get PWRST_STATE.TGT = 2 ∧ t.pwr.rom = .a3 ∧ t.get PWRST_TOP_CAUSE.FAIL_RUN = (if s.retryAllowed then s.get PWRST_TOP_CAUSE.FAIL_RUN else 0) ∧ RegsOnly [TW_STS.WAKE_HIT n.val, PWRST_WAKE_STS.SRC, PWRST_STATE.BUSY, PWRST_STATE.TGT, PWRST_TOP_CAUSE.FAIL_RUN] s t ∧ Frame [.regs, .clk, .sil, .pwr] s t) ∧
  (∀ (s : State) (n : Fin 12) (addr : Fin 128), s.cur ≠ 3 → exec (.wakeAddressMatch n addr) s = .next s)

/-- TOPPWR_GOOD rising in step 2 goes on to step 3 and notes its time. PG_TO passing without it in step 2 or 3 of an A2 exit fails the exit: TOP_FAIL, FAIL_RUN counts and stays at 15, TOPPWR_EN low, Bridge OFF, state A2. PLL lock in step 3 with the power good releases the Top die and starts Bridge training. The reload in step 5 goes on to step 7 when no chunk fails; with a locked Accord a chunk that fails sets RELOAD_FAIL and fails an A2 exit. The firmware load in step 7 of an A2 exit ends in A0 with all cores running, FAIL_RUN 0, the text range locked, the image's TMP version in SES_VER and both NET ports started (the moment of these two is the model's, log entry 38); with no valid firmware it fails the exit. A due retry in A2 begins an exit again. FAIL_RUN written 0 reads 0. LPDDR5X training, with nothing held over and the recorder off, sets INIT_DONE where it ends well at a rate other than 3, else TRAIN_FAIL. TOPPWR_GOOD rising with TOPPWR_EN low, PG_TO with the power good, the events of other steps, a retry not due, and training with the Bridge not UP or a second time in a bring-up change nothing. FAIL_RUN staying at 15 is log entry 52, PG_TO failing step 3 is log entry 18. -/
def Obligations.TopDieBringUpSteps : Prop :=
  (∀ (s : State), s.pwr.toppwrEn = true → s.pwr.toppwrGood = false → s.pwr.bring = 2 →
    ∃ t, exec (.toppwrGoodRise) s = .next t ∧ t.pwr.toppwrGood = true ∧ t.pwr.goodTs = some (s.pwr.goodTs.getD s.now) ∧ t.pwr.bring = 3 ∧ Frame [.regs, .pwr] s t) ∧
  (∀ (s : State), s.pwr.toppwrEn = false → exec (.toppwrGoodRise) s = .next s) ∧
  (∀ (s : State), (s.pwr.bring = 2 ∨ s.pwr.bring = 3) → s.pwr.toppwrGood = false → s.pwr.bringFrom = .a2Exit → s.pwr.exitNext = false →
    ∃ t, exec (.pgTimeout) s = .next t ∧ t.cur = 2 ∧ t.on PWRST_STATE.TOP_FAIL = true ∧ t.on PWRST_STATE.BUSY = false ∧ t.get PWRST_TOP_CAUSE.FAIL_RUN = satCount 4 (s.get PWRST_TOP_CAUSE.FAIL_RUN) 1 ∧ t.pwr.toppwrEn = false ∧ t.pwr.bring = 0 ∧ t.brgState = brgOff ∧ Frame [.regs, .time, .clk, .sil, .pwr, .brg, .tw, .seq, .tamp, .tel, .inf, .acd, .fw, .ses, .sec, .bus, .mem] s t) ∧
  (∀ (s : State), s.pwr.toppwrGood = true → exec (.pgTimeout) s = .next s) ∧
  (∀ (s : State), s.pwr.bring = 3 → s.pwr.toppwrGood = true →
    ∃ t, exec (.pllLock) s = .next t ∧ t.pwr.bring = 4 ∧ t.pwr.topRst = false ∧ t.brgState = brgTrain ∧ t.on CLK_STS.PLL0_LOCK = true ∧ t.on CLK_STS.PLL1_LOCK = true ∧ t.on INF_STS.PLL1_OK = true ∧ RegsOnly [CLK_STS.PLL0_LOCK, CLK_STS.PLL1_LOCK, INF_STS.PLL1_OK, BRG_CTL.FENCE, BRG_STS.STATE, BRG_STS.GUARD_STALE] s t ∧ Frame [.regs, .pwr, .brg, .fw] s t) ∧
  (∀ (s : State), s.pwr.bring ≠ 3 → exec (.pllLock) s = .next s) ∧
  (∀ (s : State) (bad : Option (Fin 4096)), s.pwr.bring = 5 → bad = none →
    ∃ t, exec (.sensorMapReloadDone bad) s = .next t ∧ t.pwr.bring = 7 ∧ t.cur = s.cur ∧ Frame [.regs, .time, .clk, .sil, .pwr, .brg, .tw, .seq, .tamp, .tel, .inf, .acd, .fw, .ses, .sec, .bus, .mem] s t) ∧
  (∀ (s : State) (bad : Option (Fin 4096)), s.pwr.bring = 5 → bad.isSome = true → s.locked = true → s.pwr.bringFrom = .a2Exit → s.pwr.exitNext = false →
    ∃ t, exec (.sensorMapReloadDone bad) s = .next t ∧ t.pwr.bring = 0 ∧ t.on ACD_STS.RELOAD_FAIL = true ∧ t.on PWRST_STATE.TOP_FAIL = true ∧ t.cur = 2 ∧ t.pwr.toppwrEn = false ∧ Frame [.regs, .time, .clk, .sil, .pwr, .brg, .tw, .seq, .tamp, .tel, .inf, .acd, .fw, .ses, .sec, .bus, .mem] s t) ∧
  (∀ (s : State) (bad : Option (Fin 4096)), s.pwr.bring ≠ 5 → exec (.sensorMapReloadDone bad) s = .next s) ∧
  (∀ (s : State), s.pwr.bring = 7 → s.pwr.bringFrom = .a2Exit → s.pwr.exitNext = false →
    ∃ t, exec (.fwLoadDone) s = .next t ∧ t.pwr.bring = 0 ∧ (s.fwSlot 4 ≠ none → t.cur = 0 ∧ t.get FW_CORE_STS.STATE = 0x1111 ∧ t.get PWRST_TOP_CAUSE.FAIL_RUN = 0 ∧ t.on FW_TEXT_BASE.LOCK = true ∧ t.fw.kick = [s.now, s.now, s.now, s.now] ∧ t.on (NET_CTL.START 0) = true ∧ t.on (NET_CTL.START 1) = true) ∧ (∀ k, s.fwSlot 4 = some k → t.get SES_VER.MAJ = fwTmpMaj (imgBody (s.image k)) ∧ t.get SES_VER.MIN = fwTmpMin (imgBody (s.image k))) ∧ (s.fwSlot 4 = none → t.cur = 2 ∧ t.on PWRST_STATE.TOP_FAIL = true ∧ t.pwr.toppwrEn = false) ∧ Frame [.regs, .time, .clk, .sil, .pwr, .brg, .tw, .seq, .tamp, .cool, .tel, .inf, .acd, .fw, .ses, .sec, .bus, .mem] s t) ∧
  (∀ (s : State), s.pwr.bring ≠ 7 → exec (.fwLoadDone) s = .next s) ∧
  (∀ (s : State), s.pwr.retry = true → s.pwr.bring = 0 → s.pwr.toppwrEn = false → s.pwr.keepersRun = true → s.cur = 2 → s.pwr.trans = none →
    ∃ t, exec (.bringupRetry) s = .next t ∧ t.pwr.bring = 2 ∧ t.pwr.retry = false ∧ t.pwr.toppwrEn = true ∧ t.get PWRST_STATE.TGT = 0 ∧ RegsOnly [PWRST_STATE.BUSY, PWRST_STATE.TGT, CLK_FMC_STS.DISTURB] s t ∧ Frame [.regs, .pwr] s t) ∧
  (∀ (s : State), s.pwr.retry = false → exec (.bringupRetry) s = .next s) ∧
  (∀ (s : State) (ini : Initiator), s.judge ini true PWRST_TOP_CAUSE.FAIL_RUN.addr = .allowed →
    ∃ t, exec (.failRunClear ini) s = .next t ∧ t.get PWRST_TOP_CAUSE.FAIL_RUN = 0 ∧ t.pwr.bring = s.pwr.bring ∧ t.bus = .written ∧ RegsOnly [PWRST_TOP_CAUSE.FAIL_RUN] s t ∧ Frame [.regs, .pwr, .bus] s t) ∧
  (∀ (s : State) (ok kept : Bool), s.bridgeUp = true → s.tel.lpEnded = false → s.get ACD_INFO.LP_CAP ≠ 0 → s.pwr.lpHeld = false → s.on TFAB_CTL.REC_RUN = false →
    ∃ t, exec (.lpddrTrainingDone ok kept) s = .next t ∧ t.on LPC_STS.INIT_DONE = (ok && s.get LPC_CFG.RATE != 3) ∧ (ok = false ∨ s.get LPC_CFG.RATE = 3 → t.on LPC_STS.TRAIN_FAIL = true) ∧ t.on LPC_STS.SELF_REFRESH = false ∧ t.tel = { s.tel with lpEnded := true } ∧ RegsOnly [LPC_STS.INIT_DONE, LPC_STS.TRAIN_FAIL, LPC_STS.SELF_REFRESH] s t ∧ Frame [.regs, .pwr, .tel] s t) ∧
  (∀ (s : State) (ok kept : Bool), s.tel.lpEnded = true → exec (.lpddrTrainingDone ok kept) s = .next s) ∧
  (∀ (s : State) (ok kept : Bool), s.bridgeUp = false → exec (.lpddrTrainingDone ok kept) s = .next s)

/-- TOP_RST with the Top die powered, no warm reset and no boot in progress: outside a bring-up, a transition and a running Top reset it counts a Top reset with cause KEEPER alone. With the Bridge UP a release for every port is queued and the Bridge stays UP for it; in QUIESCE it stays there, on the way to the Top reset; from the other states, FENCED among them, the Top die is in reset at once, the Bridge OFF, sessions gone, LPDDR5X held in self-refresh where it was initialised or held already. From step 3 of a bring-up on it ends the bring-up and starts a new Top reset in the same way: with a release where the Bridge is UP, on the way through QUIESCE where it is there, at once otherwise. With a Top reset running it is absorbed with its cause recorded (log entry 18); in an A1 entry it waits. Without TOPPWR_EN, or in a warm reset, it changes nothing but its completion. The release delivered with a Top reset running begins QUIESCE for it, and its end leaves the Top die in reset, the Bridge OFF. The end of the hold with the Bridge OFF goes on at step 3; without a Top reset it does nothing. TOPPWR_GOOD falling outside a bring-up, with no transition and no reset, sets TOP_LOST with the timestamp and starts a Top reset of cause FENCE; with a Top reset running whose Top die is not yet in reset, it is then; from step 3 of an A2 exit on it fails the exit; already low, its fall does nothing. -/
def Obligations.TopResetsRun : Prop :=
  (∀ (s : State) (ini : Initiator), s.judge ini true PWRST_CTL.TOP_RST.addr = .allowed → s.pwr.warmOn = false → s.pwr.rom = .none → s.pwr.toppwrEn = true → s.pwr.bring = 0 → s.pwr.trans = none → s.pwr.topReset = false →
    ∃ t, exec (.topRst ini) s = .next t ∧ t.pwr.topReset = true ∧ t.get PWRST_TOP_CAUSE.KEEPER = 1 ∧ t.get PWRST_TOP_CAUSE.TOP_WDT = 0 ∧ t.get PWRST_TOP_CAUSE.HOST_CMD = 0 ∧ t.get PWRST_TOP_CAUSE.FENCE = 0 ∧ t.get PWRST_RST_CNT.TOP_CNT = satCount 8 (s.get PWRST_RST_CNT.TOP_CNT) 1 ∧ (s.brgState = 2 → t.brgState = 2 ∧ t.brg.guardQ = s.brg.guardQ ++ [.release (List.range 64)]) ∧ (s.brgState = 3 → t.brgState = 3 ∧ t.brg.quiesceTo = .topReset) ∧ (s.brgState ≠ 2 → s.brgState ≠ 3 → t.pwr.topRst = true ∧ t.brgState = brgOff ∧ t.ses = {} ∧ t.pwr.lpHeld = (s.on LPC_STS.INIT_DONE || s.pwr.lpHeld)) ∧ t.bus = .written ∧ Frame [.regs, .time, .clk, .sil, .pwr, .brg, .tw, .seq, .tamp, .tel, .inf, .acd, .fw, .ses, .sec, .bus, .mem] s t) ∧
  (∀ (s : State) (ini : Initiator), s.judge ini true PWRST_CTL.TOP_RST.addr = .allowed → s.pwr.warmOn = false → s.pwr.rom = .none → s.pwr.toppwrEn = true → 3 ≤ s.pwr.bring → (s.pwr.trans = none ∨ s.pwr.trans = some .toA0) → s.pwr.topReset = false → s.brgState ≠ 2 → s.brgState ≠ 3 →
    ∃ t, exec (.topRst ini) s = .next t ∧ t.pwr.topReset = true ∧ t.pwr.bring = 0 ∧ t.pwr.topRst = true ∧ t.brgState = brgOff ∧ t.get PWRST_TOP_CAUSE.KEEPER = 1 ∧ t.get PWRST_TOP_CAUSE.TOP_WDT = 0 ∧ t.get PWRST_TOP_CAUSE.HOST_CMD = 0 ∧ t.get PWRST_TOP_CAUSE.FENCE = 0 ∧ t.get PWRST_RST_CNT.TOP_CNT = satCount 8 (s.get PWRST_RST_CNT.TOP_CNT) 1 ∧ t.bus = .written ∧ Frame [.regs, .time, .clk, .sil, .pwr, .brg, .tw, .seq, .tamp, .tel, .inf, .acd, .fw, .ses, .sec, .bus, .mem] s t) ∧
  (∀ (s : State) (ini : Initiator), s.judge ini true PWRST_CTL.TOP_RST.addr = .allowed → s.pwr.warmOn = false → s.pwr.rom = .none → s.pwr.toppwrEn = true → 3 ≤ s.pwr.bring → (s.pwr.trans = none ∨ s.pwr.trans = some .toA0) → s.pwr.topReset = false → (s.brgState = 2 ∨ s.brgState = 3) →
    ∃ t, exec (.topRst ini) s = .next t ∧ t.pwr.topReset = true ∧ t.pwr.bring = 0 ∧ t.pwr.topRst = s.pwr.topRst ∧ (s.brgState = 2 → t.brgState = 2 ∧ t.brg.guardQ = s.brg.guardQ ++ [.release (List.range 64)]) ∧ (s.brgState = 3 → t.brgState = 3 ∧ t.brg.quiesceTo = .topReset ∧ t.brg.guardQ = s.brg.guardQ) ∧ t.get PWRST_TOP_CAUSE.KEEPER = 1 ∧ t.get PWRST_TOP_CAUSE.TOP_WDT = 0 ∧ t.get PWRST_TOP_CAUSE.HOST_CMD = 0 ∧ t.get PWRST_TOP_CAUSE.FENCE = 0 ∧ t.get PWRST_RST_CNT.TOP_CNT = satCount 8 (s.get PWRST_RST_CNT.TOP_CNT) 1 ∧ t.bus = .written ∧ Frame [.regs, .time, .clk, .sil, .pwr, .brg, .tw, .seq, .tamp, .tel, .inf, .acd, .fw, .ses, .sec, .bus, .mem] s t) ∧
  (∀ (s : State) (beats : Beats) (ps : List Nat) (q : List GuardMsg), s.brg.guardQ = .release ps :: q → s.bridgeUp = true → s.exhausted beats = false → s.pwr.topReset = true → s.pwr.trans = none →
    ∃ t, exec (.releaseMessage beats) s = .next t ∧ t.brgState = 3 ∧ t.brg.quiesceTo = .topReset ∧ t.brg.guardQ = q ∧ Frame [.regs, .time, .clk, .sil, .pwr, .brg, .tw, .seq, .tamp, .tel, .inf, .acd, .fw, .ses, .sec, .bus, .mem] s t) ∧
  (∀ (s : State), s.brgState = 3 → s.brg.quiesceTo = .topReset →
    ∃ t, exec (.quiesceEnd) s = .next t ∧ t.pwr.topRst = true ∧ t.brgState = brgOff ∧ t.ses = {} ∧ t.inf = {} ∧ t.pwr.lpHeld = (s.on LPC_STS.INIT_DONE || s.pwr.lpHeld) ∧ Frame [.regs, .time, .clk, .sil, .pwr, .brg, .tw, .seq, .tamp, .tel, .inf, .acd, .fw, .ses, .sec, .bus, .mem] s t) ∧
  (∀ (s : State) (ini : Initiator), s.judge ini true PWRST_CTL.TOP_RST.addr = .allowed → s.pwr.warmOn = false → s.pwr.rom = .none → s.pwr.toppwrEn = true → s.pwr.bring = 0 → s.pwr.trans = none → s.pwr.topReset = true →
    ∃ t, exec (.topRst ini) s = .next t ∧ t.get PWRST_TOP_CAUSE.KEEPER = 1 ∧ t.pwr = s.pwr ∧ t.bus = .written ∧ RegsOnly [PWRST_TOP_CAUSE.KEEPER, PWRST_TOP_CAUSE.TOP_WDT, PWRST_TOP_CAUSE.HOST_CMD, PWRST_TOP_CAUSE.FENCE] s t ∧ Frame [.regs, .bus] s t) ∧
  (∀ (s : State) (ini : Initiator), s.judge ini true PWRST_CTL.TOP_RST.addr = .allowed → s.pwr.warmOn = false → s.pwr.rom = .none → s.pwr.toppwrEn = true → s.pwr.bring = 0 → s.pwr.trans = some .toA1 →
    ∃ t, exec (.topRst ini) s = .next t ∧ t.pwr = { s.pwr with topWait := s.pwr.topWait ||| 1 } ∧ t.bus = .written ∧ Frame [.pwr, .bus] s t) ∧
  (∀ (s : State) (ini : Initiator), s.judge ini true PWRST_CTL.TOP_RST.addr = .allowed → s.pwr.toppwrEn = false →
    ∃ t, exec (.topRst ini) s = .next t ∧ t.bus = .written ∧ Frame [.bus] s t) ∧
  (∀ (s : State) (ini : Initiator), s.judge ini true PWRST_CTL.TOP_RST.addr = .allowed → s.pwr.warmOn = true →
    ∃ t, exec (.topRst ini) s = .next t ∧ t.bus = .written ∧ Frame [.bus] s t) ∧
  (∀ (s : State), s.pwr.topReset = true → s.brgState = brgOff →
    ∃ t, exec (.topResetHoldEnd) s = .next t ∧ t.pwr = { s.pwr with topReset := false, bring := 3 } ∧ Frame [.pwr] s t) ∧
  (∀ (s : State), s.pwr.topReset = false → exec (.topResetHoldEnd) s = .next s) ∧
  (∀ (s : State), s.pwr.warmOn = false → s.pwr.rom = .none → s.pwr.toppwrEn = true → s.pwr.toppwrGood = true → s.pwr.bring = 0 → s.pwr.topReset = false → s.pwr.trans = none →
    ∃ t, exec (.toppwrGoodFall) s = .next t ∧ t.on BRG_STS.TOP_LOST = true ∧ t.get64 BRG_LOST_TS_LO.TS_LO BRG_LOST_TS_HI.TS_HI = s.now ∧ t.pwr.toppwrGood = false ∧ t.pwr.topRst = true ∧ t.pwr.topReset = true ∧ t.get PWRST_TOP_CAUSE.FENCE = 1 ∧ Frame [.regs, .time, .clk, .sil, .pwr, .brg, .tw, .seq, .tamp, .tel, .inf, .acd, .fw, .ses, .sec, .bus, .mem] s t) ∧
  (∀ (s : State), s.pwr.toppwrEn = true → s.pwr.toppwrGood = true → s.pwr.bring = 0 → s.pwr.topReset = true → s.pwr.topRst = false →
    ∃ t, exec (.toppwrGoodFall) s = .next t ∧ t.on BRG_STS.TOP_LOST = true ∧ t.pwr.toppwrGood = false ∧ t.pwr.topReset = true ∧ t.pwr.topRst = true ∧ t.brgState = brgOff ∧ t.ses = {} ∧ Frame [.regs, .time, .clk, .sil, .pwr, .brg, .tw, .seq, .tamp, .tel, .inf, .acd, .fw, .ses, .sec, .bus, .mem] s t) ∧
  (∀ (s : State), s.pwr.toppwrEn = true → s.pwr.toppwrGood = true → 3 ≤ s.pwr.bring → s.pwr.bringFrom = .a2Exit → s.pwr.exitNext = false →
    ∃ t, exec (.toppwrGoodFall) s = .next t ∧ t.cur = 2 ∧ t.on PWRST_STATE.TOP_FAIL = true ∧ t.pwr.toppwrEn = false ∧ t.pwr.bring = 0 ∧ Frame [.regs, .time, .clk, .sil, .pwr, .brg, .tw, .seq, .tamp, .tel, .inf, .acd, .fw, .ses, .sec, .bus, .mem] s t) ∧
  (∀ (s : State), s.pwr.toppwrGood = false → exec (.toppwrGoodFall) s = .next s)

/-- The first sample tick of a microsecond, outside A3 and while digital sampling runs, shows the VIN_AO sample, stores the given AIN codes, and leaves the level of every accelerator at the highest level that the comparators covering it impose; one whose comparators impose Black before the tick is at Black after it. While digital sampling does not run, and in A3, a sample tick shows the VIN_AO sample and leaves the levels; a second one of the same microsecond (the model's reading, log entry 46) changes nothing. An enabled analog comparator whose THR is not 0xFF, not in A3 nor in a BOR reset, trips: its TRIP bit and TAMP_IRQ_STS.ANA are set, and every fitted accelerator it covers is imposed Black or Red as its ACT says; with THR 0xFF it does nothing. A tripped Red one without LATCH releases outside A3; a latching one does not. At a grid point exactly the accelerators at Amber are driven low, while BASE runs from the host reference or IOSC and no warm reset is in force. Outside a BOR reset, a measurement of the die above the strapped critical temperature, with one such measurement already counted in a row, asserts SYS_SHDN_N: ASSERTED, its TRIP bit, TAMP_STS.CRIT and TAMP_IRQ_STS.CRIT are set. Once asserted it stays asserted with its TRIP unchanged whatever is measured. With no hot or faulty measurement counted so far, a measurement asserts nothing, and the circuit notes the sensors cool exactly when each takes no part or reads at least 10 °C below the threshold. In these measurements the die temperature is shown in TAMP_TEMP 0. In a BOR reset the circuit does not measure. -/
def Obligations.TampEvaluatesLevels : Prop :=
  (∀ (s : State) (codes : List (Fin 4096)) (vin : Fin 4096), s.digRun = true → s.cur ≠ 3 → s.tamp.lastTick ≠ some s.tick →
    ∃ t, exec (.sampleTick ⟨codes, vin⟩) s = .next t ∧ t.get PWRST_VIN.VIN_MV = vin.val ∧ t.tamp.lastTick = some s.tick ∧ (∀ a < 8, t.level a = t.levelOf a % 4) ∧ (∀ a < 8, s.levelOf a = 3 → t.level a = 3) ∧ (∀ k < 64, codes[k]?.all (fun c => t.get (TAMP_AIN.CODE k) == c.val) = true) ∧ Frame [.regs, .time, .clk, .sil, .pwr, .brg, .tw, .seq, .tamp, .cool, .tel, .inf, .acd, .fw, .ses, .sec, .bus, .mem] s t) ∧
  (∀ (s : State) (codes : List (Fin 4096)) (vin : Fin 4096), s.digRun = false → s.cur ≠ 3 → s.tamp.lastTick ≠ some s.tick →
    ∃ t, exec (.sampleTick ⟨codes, vin⟩) s = .next t ∧ t.get PWRST_VIN.VIN_MV = vin.val ∧ t.tamp = { s.tamp with lastTick := some s.tick } ∧ RegsOnly [PWRST_VIN.VIN_MV] s t ∧ Frame [.regs, .tamp] s t) ∧
  (∀ (s : State) (codes : List (Fin 4096)) (vin : Fin 4096), s.cur = 3 →
    ∃ t, exec (.sampleTick ⟨codes, vin⟩) s = .next t ∧ t.get PWRST_VIN.VIN_MV = vin.val ∧ RegsOnly [PWRST_VIN.VIN_MV] s t ∧ Frame [.regs] s t) ∧
  (∀ (s : State) (codes : List (Fin 4096)) (vin : Fin 4096), s.cur ≠ 3 → s.tamp.lastTick = some s.tick → exec (.sampleTick ⟨codes, vin⟩) s = .next s) ∧
  (∀ (s : State),
    ∃ t, exec (.throttlePulse) s = .next t ∧ t.tamp = { s.tamp with pulse := maskOf 8 s.throttled } ∧ (∀ a < 8, bitOf t.tamp.pulse a = (s.level a == 1 && decide (s.baseSrc ≤ srcIosc) && !s.pwr.warmOn)) ∧ Frame [.tamp] s t) ∧
  (∀ (s : State) (k : Fin 64), s.on (TAMP_ANA.EN k.val) = true → s.get (TAMP_ANA.THR k.val) ≠ 0xFF → s.cur ≠ 3 → s.pwr.borOn = false → s.on (TAMP_ANA.TRIP k.val) = false →
    ∃ t, exec (.analogTrip k) s = .next t ∧ t.on (TAMP_ANA.TRIP k.val) = true ∧ t.on TAMP_IRQ_STS.ANA = true ∧ (∀ a < 8, t.level a = t.levelOf a % 4) ∧ (∀ a < 8, covers (s.get (TAMP_ANA.SCOPE k.val)) a = true → a < s.get ACD_INFO.ACC_COUNT → (if s.on (TAMP_ANA.ACT k.val) then 3 else 2) ≤ t.levelOf a) ∧ Frame [.regs, .time, .clk, .sil, .pwr, .brg, .tw, .seq, .tamp, .cool, .tel, .inf, .acd, .fw, .ses, .sec, .bus, .mem] s t) ∧
  (∀ (s : State) (k : Fin 64), s.get (TAMP_ANA.THR k.val) = 0xFF → exec (.analogTrip k) s = .next s) ∧
  (∀ (s : State) (k : Fin 64), s.on (TAMP_ANA.TRIP k.val) = true → s.on (TAMP_ANA.ACT k.val) = false → s.on (TAMP_ANA.LATCH k.val) = false → s.cur ≠ 3 →
    ∃ t, exec (.analogRelease k) s = .next t ∧ t.on (TAMP_ANA.TRIP k.val) = false ∧ (∀ a < 8, t.level a = t.levelOf a % 4) ∧ Frame [.regs, .time, .clk, .sil, .pwr, .brg, .tw, .seq, .tamp, .cool, .tel, .inf, .acd, .fw, .ses, .sec, .bus, .mem] s t) ∧
  (∀ (s : State) (k : Fin 64), s.on (TAMP_ANA.LATCH k.val) = true → exec (.analogRelease k) s = .next s) ∧
  (∀ (s : State) (die : Fin 65536) (td0 td1 td2 td3 : TdIn), s.pwr.borOn = false → s.on TAMP_CRIT.ASSERTED = false → s.critTemp < sgn 16 die.val → s.tamp.hot[0]? = some 1 →
    ∃ t, exec (.tempMeasure die td0 td1 td2 td3) s = .next t ∧ t.on TAMP_CRIT.ASSERTED = true ∧ t.on TAMP_STS.CRIT = true ∧ t.on TAMP_IRQ_STS.CRIT = true ∧ bitOf (t.get TAMP_CRIT.TRIP) 0 = true ∧ t.get (TAMP_TEMP.TEMP 0) = die.val ∧ t.tamp.cool = false ∧ RegsOnly ([TAMP_CRIT.TD_FAULT] ++ (List.range 5).map TAMP_TEMP.TEMP ++ [TAMP_CRIT.ASSERTED, TAMP_CRIT.TRIP, TAMP_STS.CRIT, TAMP_IRQ_STS.CRIT]) s t ∧ Frame [.regs, .sil, .tamp] s t) ∧
  (∀ (s : State) (die : Fin 65536) (td0 td1 td2 td3 : TdIn), s.pwr.borOn = false → s.tamp.hot = [0, 0, 0, 0, 0] → s.tamp.bad = [0, 0, 0, 0, 0] →
    ∃ t, exec (.tempMeasure die td0 td1 td2 td3) s = .next t ∧ t.on TAMP_CRIT.ASSERTED = s.on TAMP_CRIT.ASSERTED ∧ t.get (TAMP_TEMP.TEMP 0) = die.val ∧ t.allCool = [.temp die.val, s.critIn 1 td0, s.critIn 2 td1, s.critIn 3 td2, s.critIn 4 td3].all s.critCool ∧ RegsOnly ([TAMP_CRIT.TD_FAULT] ++ (List.range 5).map TAMP_TEMP.TEMP) s t ∧ Frame [.regs, .tamp] s t) ∧
  (∀ (s : State) (die : Fin 65536) (td0 td1 td2 td3 : TdIn), s.on TAMP_CRIT.ASSERTED = true →
    ∃ t, exec (.tempMeasure die td0 td1 td2 td3) s = .next t ∧ t.get (TAMP_TEMP.TEMP 0) = (if s.pwr.borOn then s.get (TAMP_TEMP.TEMP 0) else die.val) ∧ t.on TAMP_CRIT.ASSERTED = true ∧ t.get TAMP_CRIT.TRIP = s.get TAMP_CRIT.TRIP ∧ t.on TAMP_STS.CRIT = s.on TAMP_STS.CRIT ∧ RegsOnly ([TAMP_CRIT.TD_FAULT] ++ (List.range 5).map TAMP_TEMP.TEMP) s t ∧ Frame [.regs, .sil, .tamp] s t) ∧
  (∀ (s : State) (die : Fin 65536) (td0 td1 td2 td3 : TdIn), s.pwr.borOn = true → exec (.tempMeasure die td0 td1 td2 td3) s = .next s)

/-- RED_CLR with a mask that is not 0 returns every comparator at Red that has LATCH and that its mask covers to Normal, and every tripped latching Red analog comparator it covers to not tripped, and leaves a comparator at Black where it is. BLK_CLR with the presence window open returns every comparator at Black that its mask covers, and every tripped Black analog one, and clears the Black lockout bits of its mask; with the window closed it is refused, logged, and changes nothing else but its completion. After either clear every level is the highest that the comparators impose. A RED_CLR or BLK_CLR of 0 changes nothing but its completion. TAMP_CRIT.CLR with presence open and every sensor that takes part noted cool clears ASSERTED and TAMP_STS.CRIT and is logged; refused without presence or with a sensor not cool, it is logged with that outcome and changes nothing else; that presence is judged before coolness is log entry 31. TAMP_CNT_CLR zeroes the Amber, Red and Black counters of every accelerator. -/
def Obligations.TampClearsNeedPresence : Prop :=
  (∀ (s : State) (ini : Initiator) (mask : Fin 256), s.judge ini true TAMP_CLR.RED_CLR.addr = .allowed → mask.val ≠ 0 →
    ∃ t, exec (.redClr ini mask) s = .next t ∧ (∀ k < 64, s.on (TAMP_ANA.TRIP k) = true → s.on (TAMP_ANA.ACT k) = false → s.on (TAMP_ANA.LATCH k) = true → maskCovers mask.val (s.get (TAMP_ANA.SCOPE k)) = true → t.on (TAMP_ANA.TRIP k) = false) ∧ (∀ k < 256, s.get (TAMP_CMP_STS.LVL k) = lvlRed → s.on (TAMP_CMP_CFG.LATCH k) = true → maskCovers mask.val (s.get (TAMP_CMP_CFG.SCOPE k)) = true → t.get (TAMP_CMP_STS.LVL k) = 0) ∧ (∀ k < 256, s.get (TAMP_CMP_STS.LVL k) = lvlBlack → t.get (TAMP_CMP_STS.LVL k) = lvlBlack) ∧ (∀ a < 8, t.level a = t.levelOf a % 4) ∧ t.bus = .written ∧ Frame [.regs, .time, .clk, .sil, .pwr, .brg, .tw, .seq, .tamp, .cool, .tel, .inf, .acd, .fw, .ses, .sec, .bus, .mem] s t) ∧
  (∀ (s : State) (ini : Initiator) (mask : Fin 256), s.judge ini true TAMP_CLR.RED_CLR.addr = .allowed → mask.val = 0 →
    ∃ t, exec (.redClr ini mask) s = .next t ∧ t.bus = .written ∧ Frame [.bus] s t) ∧
  (∀ (s : State) (ini : Initiator) (mask : Fin 256), s.judge ini true TAMP_CLR.BLK_CLR.addr = .allowed → mask.val ≠ 0 → s.on KEY_PRES.OPEN = true →
    ∃ t, exec (.blkClr ini mask) s = .next t ∧ (∀ k < 64, s.on (TAMP_ANA.TRIP k) = true → s.on (TAMP_ANA.ACT k) = true → maskCovers mask.val (s.get (TAMP_ANA.SCOPE k)) = true → t.on (TAMP_ANA.TRIP k) = false) ∧ (∀ k < 256, s.get (TAMP_CMP_STS.LVL k) = lvlBlack → maskCovers mask.val (s.get (TAMP_CMP_CFG.SCOPE k)) = true → t.get (TAMP_CMP_STS.LVL k) = 0) ∧ (∀ a < 8, bitOf mask.val a = true → bitOf (t.get SEQ_LATCH.BLACK) a = false) ∧ (∀ a < 8, t.level a = t.levelOf a % 4) ∧ t.bus = .written ∧ Frame [.regs, .time, .clk, .sil, .pwr, .brg, .tw, .seq, .tamp, .cool, .tel, .inf, .acd, .fw, .ses, .sec, .bus, .mem] s t) ∧
  (∀ (s : State) (ini : Initiator) (mask : Fin 256), s.judge ini true TAMP_CLR.BLK_CLR.addr = .allowed → mask.val ≠ 0 → s.on KEY_PRES.OPEN = false →
    ∃ t, exec (.blkClr ini mask) s = .next t ∧ t.sil = (s.clearLog 0 1 0 mask.val).sil ∧ t.bus = .written ∧ Frame [.sil, .bus] s t) ∧
  (∀ (s : State) (ini : Initiator) (mask : Fin 256), s.judge ini true TAMP_CLR.BLK_CLR.addr = .allowed → mask.val = 0 →
    ∃ t, exec (.blkClr ini mask) s = .next t ∧ t.bus = .written ∧ Frame [.bus] s t) ∧
  (∀ (s : State) (ini : Initiator), s.judge ini true TAMP_CRIT.CLR.addr = .allowed → s.on KEY_PRES.OPEN = true → s.allCool = true →
    ∃ t, exec (.critClr ini) s = .next t ∧ t.on TAMP_CRIT.ASSERTED = false ∧ t.on TAMP_STS.CRIT = false ∧ t.sil = (s.clearLog 1 0 0 0).sil ∧ t.bus = .written ∧ RegsOnly [TAMP_CRIT.ASSERTED, TAMP_STS.CRIT] s t ∧ Frame [.regs, .sil, .bus] s t) ∧
  (∀ (s : State) (ini : Initiator), s.judge ini true TAMP_CRIT.CLR.addr = .allowed → s.on KEY_PRES.OPEN = false →
    ∃ t, exec (.critClr ini) s = .next t ∧ t.sil = (s.clearLog 1 1 0 0).sil ∧ t.bus = .written ∧ Frame [.sil, .bus] s t) ∧
  (∀ (s : State) (ini : Initiator), s.judge ini true TAMP_CRIT.CLR.addr = .allowed → s.on KEY_PRES.OPEN = true → s.allCool = false →
    ∃ t, exec (.critClr ini) s = .next t ∧ t.sil = (s.clearLog 1 2 0 0).sil ∧ t.bus = .written ∧ Frame [.sil, .bus] s t) ∧
  (∀ (s : State) (ini : Initiator), s.judge ini true TAMP_CNT_CLR.CLR.addr = .allowed →
    ∃ t, exec (.tampCntClr ini) s = .next t ∧ (∀ a < 8, t.get (TAMP_CNT.AMB a) = 0 ∧ t.get (TAMP_CNT.RED a) = 0 ∧ t.get (TAMP_CNT.BLK a) = 0) ∧ t.bus = .written ∧ RegsOnly ((List.range 8).flatMap (fun a => [TAMP_CNT.AMB a, TAMP_CNT.RED a, TAMP_CNT.BLK a])) s t ∧ Frame [.regs, .bus] s t)

/-- At a period boundary each of the 30 channels takes the duty of the first rule of R284 that applies, at once where that is no fall or the rule is 5; otherwise it falls towards it by no more than the allowance left. While the controller runs outside A3 with no cooling-watchdog trip, a fan update shows each zone's level, keeps the mode of a channel whose EN is 0, and every EN. An enabled fan with a tach moves as R291 says: from OFF to KICK, attempt 1, on a target or a pre-boost; from KICK to LOOP on two good intervals, else after 200 updates (2 s) to REST, or from attempt 3 to STALL with its latch; from REST after 500 to KICK with the next attempt; in LOOP a late tach is lost (BLIND, or KICK where the sense says that it has stalled), no demand is OFF, and otherwise the loop takes the step of R290 within the slew of R288; STALL stays. With a trip in force and the controller not running, the update counts, and the trip ends with the tenth; in A3 only the machines' own state changes. A curve evaluation while running outside A3 marks a zone STALE exactly when its signal is stale or 0x8000, and gives it the largest level of its curve; while not running it does nothing. A pump update while the controller runs changes no pump's OUT, and no register (COOL_PMP_STS, COOL_PMP_MEAS), flow or duty loop of a pump whose EN is 0; an enabled pump's loop takes the step of R296 within its bounds, or their upper one with a stale signal; a meter's term fl follows its flow; low flow long enough at DMAX sets FLOW_LOW. While it does not run, nothing. That A3 judges no rule 1, and the refill of the fall allowance at the fan update, are the model's reading (log entry 23). -/
def Obligations.CoolingSetsDuties : Prop :=
  (∀ (s : State), s.cool.ch.length = 30 →
    ∃ t, exec (.pwmPeriod) s = .next t ∧ (∀ i < 30, s.get (chOut i) ≤ (s.dutyRule i).2 ∨ (s.dutyRule i).1 = 5 → t.get (chOut i) = (s.dutyRule i).2 % 2 ^ 10) ∧ (∀ i < 30, (s.dutyRule i).2 < s.get (chOut i) → (s.dutyRule i).1 ≠ 5 → t.get (chOut i) = max (s.dutyRule i).2 (s.get (chOut i) - (s.ch i).budget) % 2 ^ 10) ∧ RegsOnly ((List.range 30).map chOut) s t ∧ Frame [.regs, .cool] s t) ∧
  (∀ (s : State) (tach : List TachIn), s.cur ≠ 3 → s.coolRuns = true → s.on COOL_CWDT_STS.TRIP = false →
    ∃ t, exec (.fanUpdate tach) s = .next t ∧ (∀ z < 8, t.get (COOL_ZONE_STS.EFF z) = s.zoneLevel z % 2 ^ 7) ∧ (∀ i < 30, s.on (chEn i) = false → t.get (chMode i) = s.get (chMode i)) ∧ (∀ n < 24, t.get (COOL_FAN_CFG.EN n) = s.get (COOL_FAN_CFG.EN n)) ∧ Frame [.regs, .sil, .cool] s t) ∧
  (∀ (s : State) (tach : List TachIn), s.cur ≠ 3 → s.coolRuns = true → s.on COOL_CWDT_STS.TRIP = false → s.cool.ch.length = 30 →
    ∃ t, exec (.fanUpdate tach) s = .next t ∧ (∀ n < 24, s.on (COOL_FAN_CFG.EN n) = true → s.tachless n = false → s.get (COOL_FAN_STS.MODE n) = modeOff → (if 0 < t.get (COOL_FAN_SPEED.TGT n) ∨ 0 < t.preBoost n then t.get (COOL_FAN_STS.MODE n) = modeKick ∧ t.get (COOL_FAN_STS.ATTEMPT n) = 1 else t.get (COOL_FAN_STS.MODE n) = modeOff)) ∧ (∀ n < 24, s.on (COOL_FAN_CFG.EN n) = true → s.tachless n = false → s.get (COOL_FAN_STS.MODE n) = modeKick → (if 2 ≤ (t.ch n).okRun then t.get (COOL_FAN_STS.MODE n) = modeLoop ∧ (t.ch n).loop = 1000 else if (s.ch n).t + 1 < 200 then t.get (COOL_FAN_STS.MODE n) = modeKick else if s.get (COOL_FAN_STS.ATTEMPT n) = 3 then t.get (COOL_FAN_STS.MODE n) = modeStall ∧ t.on (COOL_FAN_STS.STALL n) = true else t.get (COOL_FAN_STS.MODE n) = modeRest)) ∧ (∀ n < 24, s.on (COOL_FAN_CFG.EN n) = true → s.tachless n = false → s.get (COOL_FAN_STS.MODE n) = modeRest → (if 500 ≤ (s.ch n).t + 1 then t.get (COOL_FAN_STS.MODE n) = modeKick ∧ t.get (COOL_FAN_STS.ATTEMPT n) = (s.get (COOL_FAN_STS.ATTEMPT n) + 1) % 4 else t.get (COOL_FAN_STS.MODE n) = modeRest)) ∧ (∀ n < 24, s.on (COOL_FAN_CFG.EN n) = true → s.tachless n = false → s.get (COOL_FAN_STS.MODE n) = modeLoop → (if (t.ch n).tachTo < (t.ch n).since then (if s.on (COOL_FAN_SENSE.EN n) && !s.senseRuns n then t.get (COOL_FAN_STS.MODE n) = modeKick ∧ t.get (COOL_FAN_STS.ATTEMPT n) = 1 ∧ t.get (COOL_FAN_STS.CAUSE n) = causeStall else t.get (COOL_FAN_STS.MODE n) = modeBlind ∧ t.on (COOL_FAN_STS.TACH_LOST n) = true ∧ t.get (COOL_FAN_STS.CAUSE n) = (if s.on (COOL_FAN_SENSE.EN n) then causeWire else causeUnknown)) else if t.get (COOL_FAN_SPEED.TGT n) = 0 ∧ t.preBoost n = 0 then t.get (COOL_FAN_STS.MODE n) = modeOff ∧ (t.ch n).loop = 0 else t.get (COOL_FAN_STS.MODE n) = modeLoop ∧ (t.ch n).ePrev = t.fanErr n ∧ (t.ch n).loop = (clampI (min (s.get (COOL_FAN_LOOP.DUTY_MIN n) * 5 : Int) 1000) 1000 ((s.ch n).loop + clampI (-(t.fanSlew n : Int)) (t.fanSlew n) (((s.get (COOL_FAN_LOOP.KP n) : Int) * (t.fanErr n - (s.ch n).ePrev) + s.get (COOL_FAN_LOOP.KI n) * t.fanErr n).tdiv 256))).toNat)) ∧ (∀ n < 24, s.on (COOL_FAN_CFG.EN n) = true → s.tachless n = false → s.get (COOL_FAN_STS.MODE n) = modeStall → t.get (COOL_FAN_STS.MODE n) = modeStall) ∧ Frame [.regs, .sil, .cool] s t) ∧
  (∀ (s : State) (tach : List TachIn), s.cur ≠ 3 → s.coolRuns = false → s.on COOL_CWDT_STS.TRIP = true →
    ∃ t, exec (.fanUpdate tach) s = .next t ∧ t.on COOL_CWDT_STS.TRIP = decide (s.cool.cwdtRun + 1 < 10) ∧ t.cool.cwdtRun = s.cool.cwdtRun + 1 ∧ RegsOnly [COOL_CWDT_STS.TRIP] s t ∧ Frame [.regs, .cool] s t) ∧
  (∀ (s : State) (tach : List TachIn), s.cur = 3 →
    ∃ t, exec (.fanUpdate tach) s = .next t ∧ t.cool.cwdtRun = s.cool.cwdtRun ∧ Frame [.cool] s t) ∧
  (∀ (s : State), s.on COOL_STS.RUNNING = true → s.cur ≠ 3 →
    ∃ t, exec (.curveEval) s = .next t ∧ (∀ z < 8, t.on (COOL_ZONE_STS.STALE z) = ((s.signal (s.get (COOL_ZONE_CFG.SRC z))).2 || (s.signal (s.get (COOL_ZONE_CFG.SRC z))).1 == sigStale)) ∧ (∀ z < 8, (s.signal (s.get (COOL_ZONE_CFG.SRC z))).2 = true → t.get (COOL_ZONE_STS.CURVE z) = ((s.curvePts z).map (·.2)).foldl max 0 % 2 ^ 7) ∧ RegsOnly ((List.range 8).flatMap (fun z => [COOL_ZONE_STS.CURVE z, COOL_ZONE_STS.STALE z])) s t ∧ Frame [.regs] s t) ∧
  (∀ (s : State), s.on COOL_STS.RUNNING = false → exec (.curveEval) s = .next s) ∧
  (∀ (s : State) (flows : List (List Nat)), s.coolRuns = true →
    ∃ t, exec (.pumpUpdate flows) s = .next t ∧ (∀ p < 6, s.on (COOL_PMP_CFG.EN p) = false → t.pump p = s.pump p ∧ t.ch (24 + p) = s.ch (24 + p) ∧ (∀ f ∈ [COOL_PMP_STS.MODE p, COOL_PMP_STS.STALL p, COOL_PMP_STS.TACH_LOST p, COOL_PMP_STS.CAUSE p, COOL_PMP_STS.ATTEMPT p, COOL_PMP_STS.FLOW_LOW p, COOL_PMP_STS.LEAK_HOLD p, COOL_PMP_STS.STALE p, COOL_PMP_MEAS.OUT p, COOL_PMP_MEAS.RPM p], t.get f = s.get f)) ∧ (∀ p < 6, t.get (COOL_PMP_MEAS.OUT p) = s.get (COOL_PMP_MEAS.OUT p)) ∧ Frame [.regs, .sil, .cool] s t) ∧
  (∀ (s : State) (flows : List (List Nat)), s.coolRuns = true → s.cool.ch.length = 30 → s.cool.pumps.length = 6 →
    ∃ t, exec (.pumpUpdate flows) s = .next t ∧ (∀ p < 6, s.on (COOL_PMP_CFG.EN p) = true → t.on (COOL_PMP_STS.STALE p) = ((s.signal (s.get (COOL_PMP_CFG.SIG p))).2 || (s.signal (s.get (COOL_PMP_CFG.SIG p))).1 == sigStale)) ∧ (∀ p < 6, s.on (COOL_PMP_CFG.EN p) = true → t.on (COOL_PMP_STS.STALE p) = true → (t.ch (24 + p)).loop = (t.pumpBounds p).2) ∧ (∀ p < 6, s.on (COOL_PMP_CFG.EN p) = true → t.on (COOL_PMP_STS.STALE p) = false → (t.ch (24 + p)).loop = (clampI (t.pumpBounds p).1 (t.pumpBounds p).2 ((s.ch (24 + p)).loop + ((s.get (COOL_PMP_LOOP.KP p) : Int) * (s.pumpErr p - (s.ch (24 + p)).ePrev) + s.get (COOL_PMP_LOOP.KI p) * s.pumpErr p).tdiv 4096)).toNat) ∧ (∀ p < 6, s.on (COOL_PMP_CFG.EN p) = true → s.get (COOL_PMP_CFG.FLW p) < 6 → (t.pump p).fl = (if t.get (COOL_FLW_RATE.FLOW (s.get (COOL_PMP_CFG.FLW p))) < s.get (COOL_PMP_FLOW.FLOW_MIN p) then min ((s.pump p).fl + 20) (s.get (COOL_PMP_LOOP.DMAX p) * 5) else max ((s.pump p).fl - 5) (s.get (COOL_PMP_LOOP.DMIN p) * 5))) ∧ (∀ p < 6, s.on (COOL_PMP_CFG.EN p) = true → s.leakHold p = false → s.get (COOL_PMP_CFG.FLW p) < 6 → t.get (COOL_FLW_RATE.FLOW (s.get (COOL_PMP_CFG.FLW p))) < s.get (COOL_PMP_FLOW.FLOW_MIN p) → s.get (COOL_PMP_LOOP.DMAX p) * 5 ≤ s.get (COOL_PMP_MEAS.OUT p) → (flowTo (s.get (COOL_PMP_CFG.FLOW_TO p))).any (fun n => decide (n ≤ (s.pump p).low + 1)) = true → (s.pump p).flowFail = false → t.on (COOL_PMP_STS.FLOW_LOW p) = true ∧ (t.pump p).flowFail = true) ∧ Frame [.regs, .sil, .cool] s t) ∧
  (∀ (s : State) (flows : List (List Nat)), s.coolRuns = false → exec (.pumpUpdate flows) s = .next s)

/-- An allowed START from a Keeper while START is awaited sets RUNNING, ends that forcing, and starts each channel that has EN and a tach and is not in STALL at KICK, attempt 1; one in STALL stays. From another initiator, or when not awaited, it does nothing but complete. 1 written to a latched STALL clears it and starts the channel at KICK, attempt 1; without it the mode stays; 1 to TACH_LOST clears it. A kick with the Bridge UP in A0 or A1 arms the host watchdog, notes the time and clears EXPIRED, with EVT_HWDT_RESUME after an expiry; with the Bridge not UP it does nothing. Its expiry while armed in A0 or A1 disarms it, sets EXPIRED and EXP_SEEN, counts and forces the cooling; unarmed or in another state nothing expires. A cooling-watchdog trip outside A3 sets TRIP and TRIP_SEEN, counts and forces the cooling; one already in force only begins its ten updates again. -/
def Obligations.CoolingStartStallAndWatchdogs : Prop :=
  (∀ (s : State) (ini : Initiator), s.judge ini true COOL_CTL.START.addr = .allowed → fromKeeper ini = true → s.on COOL_STS.F_START = true →
    ∃ t, exec (.coolStart ini) s = .next t ∧ t.on COOL_STS.RUNNING = true ∧ t.on COOL_STS.F_START = false ∧ (∀ i < 30, s.on (chEn i) = true → s.get (chMode i) ≠ modeStall → s.tachless i = false → t.get (chMode i) = modeKick ∧ t.get (chAttempt i) = 1) ∧ (∀ i < 30, s.get (chMode i) = modeStall → t.get (chMode i) = modeStall) ∧ t.bus = .written ∧ Frame [.regs, .sil, .tw, .cool, .bus] s t) ∧
  (∀ (s : State) (ini : Initiator), s.judge ini true COOL_CTL.START.addr = .allowed → (fromKeeper ini = false ∨ s.on COOL_STS.F_START = false) →
    ∃ t, exec (.coolStart ini) s = .next t ∧ t.bus = .written ∧ Frame [.bus] s t) ∧
  (∀ (s : State) (ini : Initiator) (ch : Fin 30) (word : Word), s.judge ini true (chStall ch.val).addr = .allowed → bitOf word.toNat 3 = true → s.on (chStall ch.val) = true →
    ∃ t, exec (.stallClear ini ch word) s = .next t ∧ t.on (chStall ch.val) = false ∧ t.get (chMode ch.val) = modeKick ∧ t.get (chAttempt ch.val) = 1 ∧ (bitOf word.toNat 4 = true → t.on (chTachLost ch.val) = false) ∧ t.bus = .written ∧ RegsOnly ([chStall ch.val, chTachLost ch.val, chMode ch.val, chAttempt ch.val] ++ (if isPump ch.val then [COOL_PMP_STS.FLOW_LOW (ch.val - 24)] else [COOL_FAN_STS.SPIN_BACK ch.val])) s t ∧ Frame [.regs, .sil, .cool, .bus] s t) ∧
  (∀ (s : State) (ini : Initiator) (ch : Fin 30) (word : Word), s.judge ini true (chStall ch.val).addr = .allowed → bitOf word.toNat 3 = false →
    ∃ t, exec (.stallClear ini ch word) s = .next t ∧ (bitOf word.toNat 4 = true → t.on (chTachLost ch.val) = false) ∧ t.get (chMode ch.val) = s.get (chMode ch.val) ∧ t.bus = .written ∧ RegsOnly (chTachLost ch.val :: (if isPump ch.val then [COOL_PMP_STS.FLOW_LOW (ch.val - 24)] else [])) s t ∧ Frame [.regs, .bus] s t) ∧
  (∀ (s : State) (session : Fin 16), s.bridgeUp = true → s.hwdtCounts = true →
    ∃ t, exec (.hostWdtKick session) s = .next t ∧ t.on COOL_HWDT_STS.ARMED = true ∧ t.on COOL_HWDT_STS.EXPIRED = false ∧ t.cool = { s.cool with kickTs := s.now } ∧ (s.on COOL_HWDT_STS.EXPIRED = true → t.sil = (s.log EVT_HWDT_RESUME ACC_TRAY UNIT_COOL 0 [(0, 1, session.val)]).sil) ∧ RegsOnly [COOL_HWDT_STS.ARMED, COOL_HWDT_STS.EXPIRED] s t ∧ Frame [.regs, .sil, .cool] s t) ∧
  (∀ (s : State) (session : Fin 16), s.bridgeUp = false → exec (.hostWdtKick session) s = .next s) ∧
  (∀ (s : State), s.on COOL_HWDT_STS.ARMED = true → s.hwdtCounts = true →
    ∃ t, exec (.hostWdtExpiry) s = .next t ∧ t.on COOL_HWDT_STS.ARMED = false ∧ t.on COOL_HWDT_STS.EXPIRED = true ∧ t.on COOL_HWDT_STS.EXP_SEEN = true ∧ t.get COOL_HWDT_STS.EXP_CNT = satCount 8 (s.get COOL_HWDT_STS.EXP_CNT) 1 ∧ t.coolForced = true ∧ RegsOnly [COOL_HWDT_STS.ARMED, COOL_HWDT_STS.EXPIRED, COOL_HWDT_STS.EXP_SEEN, COOL_HWDT_STS.EXP_CNT] s t ∧ Frame [.regs, .sil] s t) ∧
  (∀ (s : State), (s.on COOL_HWDT_STS.ARMED = false ∨ s.hwdtCounts = false) → exec (.hostWdtExpiry) s = .next s) ∧
  (∀ (s : State), s.on COOL_CWDT_STS.TRIP = false → s.cur ≠ 3 →
    ∃ t, exec (.coolingWdtTrip) s = .next t ∧ t.on COOL_CWDT_STS.TRIP = true ∧ t.on COOL_CWDT_STS.TRIP_SEEN = true ∧ t.get COOL_CWDT_STS.CNT = satCount 8 (s.get COOL_CWDT_STS.CNT) 1 ∧ t.cool.cwdtRun = 0 ∧ t.coolForced = true ∧ RegsOnly [COOL_CWDT_STS.TRIP, COOL_CWDT_STS.TRIP_SEEN, COOL_CWDT_STS.CNT] s t ∧ Frame [.regs, .sil, .cool] s t) ∧
  (∀ (s : State), s.on COOL_CWDT_STS.TRIP = true →
    ∃ t, exec (.coolingWdtTrip) s = .next t ∧ t.cool = { s.cool with cwdtRun := 0 } ∧ Frame [.cool] s t)

/-- On a spot or rope channel (KIND 1 or 2) without its LEAK latch, with its wake source not enabled, a measurement below the threshold with PERSIST of them in a row before it declares a leak: LEAK and ACTIVE are set, IMP shows it, LEAK_HELD shows the valves that the LEAK latches hold, the shutdown delay begins, and it is logged (stated for a spot sensor). With the leak enabled as a wake source it also ends A1, starts the exit from A2 to A0 where A0 is its target and is only recorded where A2 is, and starts the exit from A3. On a rope with OPEN not 0, a measurement above it and not below the threshold counts towards an open rope; PERSIST of them before it set OPEN and log EVT_LEAK_OPEN once, and no response starts. Another measurement at or above the threshold counts towards a clear and declares nothing. An unused channel measures nothing. At the end of the delay the channel's groups are added to GFAULT, and every rail of theirs is off or on its way down, and while safe mode or a warm reset holds the sequencer the shutdown waits (log entry 20); with no delay running nothing happens. A clear with presence, ACTIVE = 0 and more than PERSIST measurements at or above the threshold in a row clears LEAK and shows the valves held; without presence, with ACTIVE, or with too few measurements it logs that outcome and clears nothing. A valve command keeps the commands of valves that LEAK latches hold; CLOSED shows, once the Accord is applied, the commanded and held valves that a ball carries. -/
def Obligations.LeaksCloseValves : Prop :=
  (∀ (s : State) (k : Fin 16) (imp : Nat), s.get (COOL_LK_CFG.KIND k.val) ≠ 0 → s.on (COOL_LK_STS.LEAK k.val) = false → imp < s.get (COOL_LK_THR.LEAK k.val) * 100 → imp ≤ 10000000 → s.get (COOL_LK_CFG.PERSIST k.val) ≤ (s.leak k.val).below → s.cool.leaks.length = 16 → bitOf (s.get PWRST_WAKE_EN.EN) 9 = false →
    ∃ t, exec (.leakMeasure k imp) s = .next t ∧ t.on (COOL_LK_STS.LEAK k.val) = true ∧ t.on (COOL_LK_STS.ACTIVE k.val) = true ∧ t.get (COOL_LK_STS.IMP k.val) = imp ∧ t.get COOL_VLV.LEAK_HELD = t.valvesHeld % 2 ^ 8 ∧ (t.leak k.val).delay = true ∧ (t.leak k.val).sent = false ∧ (s.get (COOL_LK_CFG.KIND k.val) = 1 → t.sil = (s.log EVT_LEAK ACC_TRAY UNIT_COOL k.val [(0, 4, imp), (4, 1, s.get (COOL_LK_RESP.VALVES k.val)), (5, 1, s.get (COOL_LK_RESP.PUMPS k.val)), (6, 2, s.get (COOL_LK_CFG.GROUPS k.val))]).sil) ∧ RegsOnly ([COOL_LK_STS.LEAK k.val, COOL_LK_STS.ACTIVE k.val, COOL_LK_STS.IMP k.val, COOL_LK_STS.OPEN k.val] ++ [COOL_VLV.LEAK_HELD, COOL_VLV.CLOSED] ++ (List.range 6).map COOL_PMP_STS.LEAK_HOLD) s t ∧ Frame [.regs, .sil, .cool] s t) ∧
  (∀ (s : State) (k : Fin 16) (imp : Nat), s.get (COOL_LK_CFG.KIND k.val) ≠ 0 → (s.get (COOL_LK_CFG.KIND k.val) = 1 ∨ imp ≤ s.get (COOL_LK_THR.OPEN k.val) * 100) → s.get (COOL_LK_THR.LEAK k.val) * 100 ≤ imp → imp ≤ 10000000 → s.cool.leaks.length = 16 →
    ∃ t, exec (.leakMeasure k imp) s = .next t ∧ t.get (COOL_LK_STS.IMP k.val) = imp ∧ (t.leak k.val).below = 0 ∧ (t.leak k.val).openRun = 0 ∧ (t.leak k.val).above = (s.leak k.val).above + 1 ∧ RegsOnly [COOL_LK_STS.IMP k.val] s t ∧ Frame [.regs, .cool] s t) ∧
  (∀ (s : State) (k : Fin 16) (imp : Nat), s.get (COOL_LK_CFG.KIND k.val) ≠ 0 → s.cur = 1 → s.on (COOL_LK_STS.LEAK k.val) = false → imp < s.get (COOL_LK_THR.LEAK k.val) * 100 → imp ≤ 10000000 → s.get (COOL_LK_CFG.PERSIST k.val) ≤ (s.leak k.val).below → s.cool.leaks.length = 16 → bitOf (s.get PWRST_WAKE_EN.EN) 9 = true → s.pwr.trans = none → s.pwr.toppwrEn = true → s.resetRuns = false →
    ∃ t, exec (.leakMeasure k imp) s = .next t ∧ t.on (COOL_LK_STS.LEAK k.val) = true ∧ t.on (COOL_LK_STS.ACTIVE k.val) = true ∧ t.cur = 0 ∧ t.get PWRST_WAKE_STS.SRC = 0x200 ∧ Frame [.regs, .time, .clk, .sil, .pwr, .brg, .tw, .seq, .tamp, .cool, .tel, .inf, .acd, .fw, .ses, .sec, .bus, .mem] s t) ∧
  (∀ (s : State) (k : Fin 16) (imp v : Nat), v = (if 10000000 < imp then 0xFFFFFF else imp) → s.get (COOL_LK_CFG.KIND k.val) = 2 → s.get (COOL_LK_THR.OPEN k.val) ≠ 0 → s.get (COOL_LK_THR.OPEN k.val) * 100 < v → s.get (COOL_LK_THR.LEAK k.val) * 100 ≤ v → s.cool.leaks.length = 16 →
    ∃ t, exec (.leakMeasure k imp) s = .next t ∧ t.get (COOL_LK_STS.IMP k.val) = v ∧ (t.leak k.val).openRun = (s.leak k.val).openRun + 1 ∧ (t.leak k.val).below = 0 ∧ (s.get (COOL_LK_CFG.PERSIST k.val) ≤ (s.leak k.val).openRun → s.on (COOL_LK_STS.OPEN k.val) = false → t.on (COOL_LK_STS.OPEN k.val) = true ∧ t.sil = (s.log EVT_LEAK_OPEN ACC_TRAY UNIT_COOL k.val [(0, 4, v)]).sil) ∧ ((s.leak k.val).openRun < s.get (COOL_LK_CFG.PERSIST k.val) ∨ s.on (COOL_LK_STS.OPEN k.val) = true → t.on (COOL_LK_STS.OPEN k.val) = s.on (COOL_LK_STS.OPEN k.val) ∧ t.sil = s.sil) ∧ RegsOnly [COOL_LK_STS.IMP k.val, COOL_LK_STS.OPEN k.val] s t ∧ Frame [.regs, .sil, .cool] s t) ∧
  (∀ (s : State) (k : Fin 16) (imp : Nat), s.get (COOL_LK_CFG.KIND k.val) ≠ 0 → s.on (COOL_LK_STS.LEAK k.val) = false → imp < s.get (COOL_LK_THR.LEAK k.val) * 100 → imp ≤ 10000000 → s.get (COOL_LK_CFG.PERSIST k.val) ≤ (s.leak k.val).below → s.cool.leaks.length = 16 → bitOf (s.get PWRST_WAKE_EN.EN) 9 = true → s.cur = 2 → s.pwr.trans = none → s.pwr.warmOn = false → s.pwr.rom = .none → s.pwr.kfwHalt = false → s.pwr.toppwrEn = false → s.retryAllowed = true → bitOf (s.get PWRST_WAKE_TGT.TGT) 9 = true →
    ∃ t, exec (.leakMeasure k imp) s = .next t ∧ t.on (COOL_LK_STS.LEAK k.val) = true ∧ t.on (COOL_LK_STS.ACTIVE k.val) = true ∧ (t.leak k.val).delay = true ∧ t.get PWRST_WAKE_STS.SRC = 0x200 ∧ t.get PWRST_STATE.TGT = 0 ∧ t.on PWRST_STATE.BUSY = true ∧ t.pwr.toppwrEn = true ∧ t.pwr.bring = 2 ∧ t.pwr.bringFrom = .a2Exit ∧ RegsOnly ([PWRST_WAKE_STS.SRC, PWRST_STATE.BUSY, PWRST_STATE.TGT, CLK_FMC_STS.DISTURB] ++ [COOL_LK_STS.LEAK k.val, COOL_LK_STS.ACTIVE k.val, COOL_LK_STS.IMP k.val, COOL_LK_STS.OPEN k.val] ++ [COOL_VLV.LEAK_HELD, COOL_VLV.CLOSED] ++ (List.range 6).map COOL_PMP_STS.LEAK_HOLD) s t ∧ Frame [.regs, .sil, .pwr, .cool] s t) ∧
  (∀ (s : State) (k : Fin 16) (imp : Nat), s.get (COOL_LK_CFG.KIND k.val) ≠ 0 → s.on (COOL_LK_STS.LEAK k.val) = false → imp < s.get (COOL_LK_THR.LEAK k.val) * 100 → imp ≤ 10000000 → s.get (COOL_LK_CFG.PERSIST k.val) ≤ (s.leak k.val).below → s.cool.leaks.length = 16 → bitOf (s.get PWRST_WAKE_EN.EN) 9 = true → s.cur = 2 → s.pwr.trans = none → s.pwr.warmOn = false → s.pwr.rom = .none → s.pwr.kfwHalt = false → s.pwr.toppwrEn = false → s.retryAllowed = true → bitOf (s.get PWRST_WAKE_TGT.TGT) 9 = false →
    ∃ t, exec (.leakMeasure k imp) s = .next t ∧ t.on (COOL_LK_STS.LEAK k.val) = true ∧ t.on (COOL_LK_STS.ACTIVE k.val) = true ∧ (t.leak k.val).delay = true ∧ t.get PWRST_WAKE_STS.SRC = 0x200 ∧ RegsOnly ([PWRST_WAKE_STS.SRC] ++ [COOL_LK_STS.LEAK k.val, COOL_LK_STS.ACTIVE k.val, COOL_LK_STS.IMP k.val, COOL_LK_STS.OPEN k.val] ++ [COOL_VLV.LEAK_HELD, COOL_VLV.CLOSED] ++ (List.range 6).map COOL_PMP_STS.LEAK_HOLD) s t ∧ Frame [.regs, .sil, .cool] s t) ∧
  (∀ (s : State) (k : Fin 16) (imp : Nat), s.get (COOL_LK_CFG.KIND k.val) ≠ 0 → s.on (COOL_LK_STS.LEAK k.val) = false → imp < s.get (COOL_LK_THR.LEAK k.val) * 100 → imp ≤ 10000000 → s.get (COOL_LK_CFG.PERSIST k.val) ≤ (s.leak k.val).below → s.cool.leaks.length = 16 → bitOf (s.get PWRST_WAKE_EN.EN) 9 = true → s.cur = 3 → s.pwr.trans = none → s.resetRuns = false →
    ∃ t, exec (.leakMeasure k imp) s = .next t ∧ t.on (COOL_LK_STS.LEAK k.val) = true ∧ t.on (COOL_LK_STS.ACTIVE k.val) = true ∧ (t.leak k.val).delay = true ∧ t.get PWRST_WAKE_STS.SRC = 0x200 ∧ t.get PWRST_STATE.TGT = 2 ∧ t.on PWRST_STATE.BUSY = true ∧ t.pwr.rom = .a3 ∧ t.clk.iosc = true ∧ t.pwr.toA0 = (bitOf (s.get PWRST_WAKE_TGT.TGT) 9 || !s.retryAllowed) ∧ RegsOnly ([PWRST_WAKE_STS.SRC, PWRST_STATE.BUSY, PWRST_STATE.TGT, PWRST_TOP_CAUSE.FAIL_RUN] ++ [COOL_LK_STS.LEAK k.val, COOL_LK_STS.ACTIVE k.val, COOL_LK_STS.IMP k.val, COOL_LK_STS.OPEN k.val] ++ [COOL_VLV.LEAK_HELD, COOL_VLV.CLOSED] ++ (List.range 6).map COOL_PMP_STS.LEAK_HOLD) s t ∧ Frame [.regs, .clk, .sil, .pwr, .cool] s t) ∧
  (∀ (s : State) (k : Fin 16) (imp : Nat), s.get (COOL_LK_CFG.KIND k.val) = 0 → exec (.leakMeasure k imp) s = .next s) ∧
  (∀ (s : State) (k : Fin 16), (s.leak k.val).delay = true → s.cool.leaks.length = 16 → s.seqHeld = false →
    ∃ t, exec (.leakShutdown k) s = .next t ∧ (t.leak k.val).delay = false ∧ t.get SEQ_LATCH.GFAULT = (s.get SEQ_LATCH.GFAULT ||| s.get (COOL_LK_CFG.GROUPS k.val)) % 2 ^ 9 ∧ (∀ r ∈ t.seq.rails, bitOf (s.get (COOL_LK_CFG.GROUPS k.val)) r.cfg.group = true → r.st ≠ .wait ∧ (r.isOff = true ∨ r.down = true)) ∧ Frame [.regs, .sil, .tw, .seq, .tamp, .cool, .bus] s t) ∧
  (∀ (s : State) (k : Fin 16), (s.leak k.val).delay = true → s.cool.leaks.length = 16 → s.seqHeld = true →
    ∃ t, exec (.leakShutdown k) s = .next t ∧ (t.leak k.val).delay = false ∧ t.seq = { s.seq with waits := s.seq.waits ++ [.leak (s.get (COOL_LK_CFG.GROUPS k.val))] } ∧ Frame [.seq, .cool] s t) ∧
  (∀ (s : State) (k : Fin 16), (s.leak k.val).delay = false → exec (.leakShutdown k) s = .next s) ∧
  (∀ (s : State) (ini : Initiator) (k : Fin 16) (word : Word), s.judge ini true (COOL_LK_STS.CLR k.val).addr = .allowed → bitOf word.toNat 3 = true → s.on KEY_PRES.OPEN = true → s.on (COOL_LK_STS.ACTIVE k.val) = false → s.get (COOL_LK_CFG.PERSIST k.val) < (s.leak k.val).above →
    ∃ t, exec (.leakClr ini k word) s = .next t ∧ t.on (COOL_LK_STS.LEAK k.val) = false ∧ t.get COOL_VLV.LEAK_HELD = t.valvesHeld % 2 ^ 8 ∧ t.sil = (s.log EVT_LEAK_CLEAR ACC_TRAY UNIT_COOL k.val [(0, 1, 0), (4, 4, s.get (COOL_LK_STS.IMP k.val))]).sil ∧ t.bus = .written ∧ RegsOnly ([COOL_LK_STS.LEAK k.val, COOL_LK_STS.OPEN k.val] ++ [COOL_VLV.LEAK_HELD, COOL_VLV.CLOSED] ++ (List.range 6).map COOL_PMP_STS.LEAK_HOLD) s t ∧ Frame [.regs, .sil, .bus] s t) ∧
  (∀ (s : State) (ini : Initiator) (k : Fin 16) (word : Word), s.judge ini true (COOL_LK_STS.CLR k.val).addr = .allowed → bitOf word.toNat 3 = true → bitOf word.toNat 2 = false → s.on KEY_PRES.OPEN = false →
    ∃ t, exec (.leakClr ini k word) s = .next t ∧ t.sil = (s.log EVT_LEAK_CLEAR ACC_TRAY UNIT_COOL k.val [(0, 1, 1), (4, 4, s.get (COOL_LK_STS.IMP k.val))]).sil ∧ t.bus = .written ∧ Frame [.sil, .bus] s t) ∧
  (∀ (s : State) (ini : Initiator) (k : Fin 16) (word : Word), s.judge ini true (COOL_LK_STS.CLR k.val).addr = .allowed → bitOf word.toNat 3 = true → bitOf word.toNat 2 = false → s.on KEY_PRES.OPEN = true → s.on (COOL_LK_STS.ACTIVE k.val) = true →
    ∃ t, exec (.leakClr ini k word) s = .next t ∧ t.sil = (s.log EVT_LEAK_CLEAR ACC_TRAY UNIT_COOL k.val [(0, 1, 2), (4, 4, s.get (COOL_LK_STS.IMP k.val))]).sil ∧ t.bus = .written ∧ Frame [.sil, .bus] s t) ∧
  (∀ (s : State) (ini : Initiator) (k : Fin 16) (word : Word), s.judge ini true (COOL_LK_STS.CLR k.val).addr = .allowed → bitOf word.toNat 3 = true → bitOf word.toNat 2 = false → s.on KEY_PRES.OPEN = true → s.on (COOL_LK_STS.ACTIVE k.val) = false → (s.leak k.val).above ≤ s.get (COOL_LK_CFG.PERSIST k.val) →
    ∃ t, exec (.leakClr ini k word) s = .next t ∧ t.sil = (s.log EVT_LEAK_CLEAR ACC_TRAY UNIT_COOL k.val [(0, 1, 3), (4, 4, s.get (COOL_LK_STS.IMP k.val))]).sil ∧ t.bus = .written ∧ Frame [.sil, .bus] s t) ∧
  (∀ (s : State) (ini : Initiator) (word : Word), s.judge ini true COOL_VLV.CMD_CLOSE.addr = .allowed →
    ∃ t, exec (.valveCommand ini word) s = .next t ∧ t.get COOL_VLV.CMD_CLOSE = (bitsOf word.toNat 0 8 ||| (s.get COOL_VLV.CMD_CLOSE &&& s.valvesHeld)) % 2 ^ 8 ∧ t.get COOL_VLV.LEAK_HELD = s.valvesHeld % 2 ^ 8 ∧ t.get COOL_VLV.CLOSED = (if s.get ACD_STS.STATE = 2 then ((t.get COOL_VLV.CMD_CLOSE ||| s.valvesHeld) &&& maskOf 8 (s.placedIn fnVlv)) % 2 ^ 8 else 0) ∧ t.bus = .written ∧ RegsOnly [COOL_VLV.CMD_CLOSE, COOL_VLV.LEAK_HELD, COOL_VLV.CLOSED] s t ∧ Frame [.regs, .bus] s t)

/-- While the controller runs, a poll queues the read of the remaining life for each used slot that is not being checked, on the port of its segment, and changes nothing else, and the daily check begins a check of each used, fitted slot that is not being checked, STATE = CHECKING, its time noted, and leaves every unused slot. While it does not run, neither does anything. An hour of use of a used, fitted slot with a known serial and a linked channel running, and more than one hour of life left takes one hour off its life and commits the new life under its serial, at once with the NVM engine free and room in the bank, queued behind a commit in progress, and shows LOW exactly when it has reached WARN. An unused slot does not age. The poll being a read of the remaining life is log entry 24. -/
def Obligations.ConsumablesAreCheckedAndAge : Prop :=
  (∀ (s : State), s.coolRuns = true →
    ∃ t, exec (.consPoll) s = .next t ∧ t.tw = (((List.range 32).filter (fun c => s.slotUsed c && !(s.slot c).checking)).foldl (fun s c => s.tagQueue c tagPoll [0x53] (.block 4)) s).tw ∧ Frame [.tw] s t) ∧
  (∀ (s : State), s.coolRuns = false → exec (.consPoll) s = .next s) ∧
  (∀ (s : State), s.coolRuns = true → s.cool.cons.length = 32 →
    ∃ t, exec (.consDailyCheck) s = .next t ∧ (∀ c < 32, s.slotUsed c = true → (s.slot c).present = true → (s.slot c).checking = false → (t.slot c).checking = true ∧ t.get (COOL_CONS_STS.STATE c) = 1 ∧ (t.slot c).ts = s.now) ∧ (∀ c < 32, s.slotUsed c = false → t.slot c = s.slot c ∧ t.get (COOL_CONS_STS.STATE c) = s.get (COOL_CONS_STS.STATE c)) ∧ RegsOnly ((List.range 32).map COOL_CONS_STS.STATE) s t ∧ Frame [.regs, .tw, .cool, .fresh] s t) ∧
  (∀ (s : State), s.coolRuns = false → exec (.consDailyCheck) s = .next s) ∧
  (∀ (s : State) (c : Fin 32), s.slotUsed c.val = true → (s.slot c.val).present = true → (s.slot c.val).serial.isEmpty = false → s.slotRuns c.val = true → 1 < s.get (COOL_CONS_LIFE.HOURS c.val) → s.nvm.busy.isSome = true →
    ∃ t, exec (.consLifeHour c) s = .next t ∧ t.get (COOL_CONS_LIFE.HOURS c.val) = (s.get (COOL_CONS_LIFE.HOURS c.val) - 1) % 2 ^ 24 ∧ t.nvm.queue = s.nvm.queue ++ [lifeJob (s.slot c.val).serial (s.get (COOL_CONS_LIFE.HOURS c.val) - 1) (COOL_CONS_LIFE.HOURS c.val)] ∧ t.on (COOL_CONS_STS.LOW c.val) = decide (t.get (COOL_CONS_LIFE.HOURS c.val) ≤ s.get (COOL_CONS_CFG.WARN c.val)) ∧ RegsOnly [COOL_CONS_LIFE.HOURS c.val, COOL_CONS_STS.LOW c.val] s t ∧ Frame [.regs, .sil, .nvm, .tw] s t) ∧
  (∀ (s : State) (c : Fin 32), s.slotUsed c.val = true → (s.slot c.val).present = true → (s.slot c.val).serial.isEmpty = false → s.slotRuns c.val = true → 1 < s.get (COOL_CONS_LIFE.HOURS c.val) → s.nvm.busy = none → s.nvm.queue = [] → s.nvm.compacting = false → s.on PWRST_BO_STS.NVM_HELD = false → s.pwr.warmOn = false → bankUsed s.nvm.bank + entrySize (lifeJob (s.slot c.val).serial (s.get (COOL_CONS_LIFE.HOURS c.val) - 1) (COOL_CONS_LIFE.HOURS c.val)).len ≤ bankRoom →
    ∃ t, exec (.consLifeHour c) s = .next t ∧ t.get (COOL_CONS_LIFE.HOURS c.val) = (s.get (COOL_CONS_LIFE.HOURS c.val) - 1) % 2 ^ 24 ∧ t.nvm.busy = some (lifeJob (s.slot c.val).serial (s.get (COOL_CONS_LIFE.HOURS c.val) - 1) (COOL_CONS_LIFE.HOURS c.val)) ∧ t.nvm.queue = [] ∧ t.on PWRST_NVM_STS.BUSY = true ∧ t.on (COOL_CONS_STS.LOW c.val) = decide (t.get (COOL_CONS_LIFE.HOURS c.val) ≤ s.get (COOL_CONS_CFG.WARN c.val)) ∧ RegsOnly [COOL_CONS_LIFE.HOURS c.val, COOL_CONS_STS.LOW c.val, PWRST_NVM_STS.BUSY] s t ∧ Frame [.regs, .sil, .nvm, .tw] s t) ∧
  (∀ (s : State) (c : Fin 32), s.slotUsed c.val = false → exec (.consLifeHour c) s = .next s)

/-- An allowed write of SEQ_CMD that is refused sets LAST_OP and RESULT to the code that applies, logs EVT_SEQ_REFUSED and changes nothing else; while an operation runs, POWER_UP, TRAY_RESTART and CLEAR are refused with code 1. Accepted while safe mode or a warm reset holds the sequencer, a command shows its result and waits behind those that wait already (log entry 20). Accepted otherwise: POWER_UP leaves no OFF rail in the named groups; POWER_DOWN leaves every rail of the named groups out of WAIT and off or on its way down, and in a minimum-off wait takes the groups out of SEQ_RESUME; TRAY_RESTART records the groups that are ON in SEQ_RESUME and takes every rail down, shown as the restart or its minimum-off wait; CLEAR clears TFAULT and the named GFAULT bits, leaves BLACK and the EN lines, leaves no FAILED rail in the named groups, and is logged. No accepted command changes a rail entry. -/
def Obligations.SequencerJudgesCommands : Prop :=
  (∀ (s : State) (ini : Initiator) (groups : Fin 512), s.judge ini true SEQ_CMD.OP.addr = .allowed → s.seqRefusal 1 groups.val ≠ 0 →
    ∃ t, exec (.powerUp ini groups) s = .next t ∧ t.get SEQ_CMD_STS.RESULT = s.seqRefusal 1 groups.val % 16 ∧ t.get SEQ_CMD_STS.LAST_OP = 1 ∧ t.sil = (s.log EVT_SEQ_REFUSED ACC_TRAY UNIT_SEQ 0 [(0, 1, 0), (1, 1, 1), (2, 1, s.seqRefusal 1 groups.val), (4, 2, groups.val)]).sil ∧ t.bus = .written ∧ RegsOnly [SEQ_CMD_STS.LAST_OP, SEQ_CMD_STS.RESULT] s t ∧ Frame [.regs, .sil, .bus] s t) ∧
  (∀ (s : State) (ini : Initiator) (groups : Fin 512), s.judge ini true SEQ_CMD.OP.addr = .allowed → s.seqRefusal 2 groups.val ≠ 0 →
    ∃ t, exec (.powerDown ini groups) s = .next t ∧ t.get SEQ_CMD_STS.RESULT = s.seqRefusal 2 groups.val % 16 ∧ t.get SEQ_CMD_STS.LAST_OP = 2 ∧ t.sil = (s.log EVT_SEQ_REFUSED ACC_TRAY UNIT_SEQ 0 [(0, 1, 0), (1, 1, 2), (2, 1, s.seqRefusal 2 groups.val), (4, 2, groups.val)]).sil ∧ t.bus = .written ∧ RegsOnly [SEQ_CMD_STS.LAST_OP, SEQ_CMD_STS.RESULT] s t ∧ Frame [.regs, .sil, .bus] s t) ∧
  (∀ (s : State) (ini : Initiator) (groups : Fin 512), s.judge ini true SEQ_CMD.OP.addr = .allowed → s.seqRefusal 3 groups.val ≠ 0 →
    ∃ t, exec (.trayRestart ini groups) s = .next t ∧ t.get SEQ_CMD_STS.RESULT = s.seqRefusal 3 groups.val % 16 ∧ t.get SEQ_CMD_STS.LAST_OP = 3 ∧ t.sil = (s.log EVT_SEQ_REFUSED ACC_TRAY UNIT_SEQ 0 [(0, 1, 0), (1, 1, 3), (2, 1, s.seqRefusal 3 groups.val), (4, 2, groups.val)]).sil ∧ t.bus = .written ∧ RegsOnly [SEQ_CMD_STS.LAST_OP, SEQ_CMD_STS.RESULT] s t ∧ Frame [.regs, .sil, .bus] s t) ∧
  (∀ (s : State) (ini : Initiator) (groups : Fin 512), s.judge ini true SEQ_CMD.OP.addr = .allowed → s.seqRefusal 4 groups.val ≠ 0 →
    ∃ t, exec (.clear ini groups) s = .next t ∧ t.get SEQ_CMD_STS.RESULT = s.seqRefusal 4 groups.val % 16 ∧ t.get SEQ_CMD_STS.LAST_OP = 4 ∧ t.sil = (s.log EVT_SEQ_REFUSED ACC_TRAY UNIT_SEQ 0 [(0, 1, 0), (1, 1, 4), (2, 1, s.seqRefusal 4 groups.val), (4, 2, groups.val)]).sil ∧ t.bus = .written ∧ RegsOnly [SEQ_CMD_STS.LAST_OP, SEQ_CMD_STS.RESULT] s t ∧ Frame [.regs, .sil, .bus] s t) ∧
  (∀ (s : State) (ini : Initiator) (groups : Fin 512), s.judge ini true SEQ_CMD.OP.addr = .allowed → s.seq.op ≠ opNone →
    ∃ t, exec (.powerUp ini groups) s = .next t ∧ t.get SEQ_CMD_STS.RESULT = 1 ∧ t.seq = s.seq ∧ t.bus = .written ∧ RegsOnly [SEQ_CMD_STS.LAST_OP, SEQ_CMD_STS.RESULT] s t ∧ Frame [.regs, .sil, .bus] s t) ∧
  (∀ (s : State) (ini : Initiator) (groups : Fin 512), s.judge ini true SEQ_CMD.OP.addr = .allowed → s.seq.op ≠ opNone →
    ∃ t, exec (.trayRestart ini groups) s = .next t ∧ t.get SEQ_CMD_STS.RESULT = 1 ∧ t.seq = s.seq ∧ t.bus = .written ∧ RegsOnly [SEQ_CMD_STS.LAST_OP, SEQ_CMD_STS.RESULT] s t ∧ Frame [.regs, .sil, .bus] s t) ∧
  (∀ (s : State) (ini : Initiator) (groups : Fin 512), s.judge ini true SEQ_CMD.OP.addr = .allowed → s.seq.op ≠ opNone →
    ∃ t, exec (.clear ini groups) s = .next t ∧ t.get SEQ_CMD_STS.RESULT = 1 ∧ t.seq = s.seq ∧ t.bus = .written ∧ RegsOnly [SEQ_CMD_STS.LAST_OP, SEQ_CMD_STS.RESULT] s t ∧ Frame [.regs, .sil, .bus] s t) ∧
  (∀ (s : State) (ini : Initiator) (groups : Fin 512), s.judge ini true SEQ_CMD.OP.addr = .allowed → s.seqRefusal 1 groups.val = 0 → s.seqHeld = false →
    ∃ t, exec (.powerUp ini groups) s = .next t ∧ (∀ r ∈ t.seq.rails, bitOf groups.val r.cfg.group = true → r.st ≠ .off) ∧ t.seq.rails.map (·.cfg) = s.seq.rails.map (·.cfg) ∧ t.get SEQ_CMD_STS.RESULT = 0 ∧ t.bus = .written ∧ RegsOnly ([SEQ_CMD_STS.LAST_OP, SEQ_CMD_STS.RESULT] ++ (List.range 16).map COOL_LK_STS.ACTIVE) s t ∧ Frame [.regs, .sil, .seq, .cool, .bus] s t) ∧
  (∀ (s : State) (ini : Initiator) (groups : Fin 512), s.judge ini true SEQ_CMD.OP.addr = .allowed → s.seqRefusal 2 groups.val = 0 → s.seqHeld = false → s.seq.op ≠ opMinOff →
    ∃ t, exec (.powerDown ini groups) s = .next t ∧ (∀ r ∈ t.seq.rails, bitOf groups.val r.cfg.group = true → r.st ≠ .wait ∧ (r.isOff = true ∨ r.down = true)) ∧ t.seq.rails.map (·.cfg) = s.seq.rails.map (·.cfg) ∧ t.get SEQ_CMD_STS.RESULT = 0 ∧ t.bus = .written ∧ Frame [.regs, .sil, .tw, .seq, .tamp, .cool, .bus] s t) ∧
  (∀ (s : State) (ini : Initiator) (groups : Fin 512), s.judge ini true SEQ_CMD.OP.addr = .allowed → s.seqRefusal 2 groups.val = 0 → s.seqHeld = false → s.seq.op = opMinOff →
    ∃ t, exec (.powerDown ini groups) s = .next t ∧ (∀ g < 9, bitOf (t.get SEQ_RESUME.GROUPS) g = (bitOf (s.get SEQ_RESUME.GROUPS) g && !bitOf groups.val g)) ∧ t.seq.rails.map (·.cfg) = s.seq.rails.map (·.cfg) ∧ t.bus = .written ∧ Frame [.regs, .sil, .tw, .seq, .tamp, .cool, .bus] s t) ∧
  (∀ (s : State) (ini : Initiator) (groups : Fin 512), s.judge ini true SEQ_CMD.OP.addr = .allowed → s.seqRefusal 3 groups.val = 0 → s.seqHeld = false →
    ∃ t, exec (.trayRestart ini groups) s = .next t ∧ t.get SEQ_RESUME.GROUPS = groupMask s.groupOn % 2 ^ 9 ∧ (∀ r ∈ t.seq.rails, r.st ≠ .wait ∧ (r.isOff = true ∨ r.down = true)) ∧ (t.seq.op = opRestart ∨ t.seq.op = opMinOff) ∧ t.seq.rails.map (·.cfg) = s.seq.rails.map (·.cfg) ∧ t.bus = .written ∧ Frame [.regs, .sil, .tw, .seq, .tamp, .cool, .bus] s t) ∧
  (∀ (s : State) (ini : Initiator) (groups : Fin 512), s.judge ini true SEQ_CMD.OP.addr = .allowed → s.seqRefusal 4 groups.val = 0 → s.seqHeld = false →
    ∃ t, exec (.clear ini groups) s = .next t ∧ t.on SEQ_LATCH.TFAULT = false ∧ (∀ g < 9, bitOf (t.get SEQ_LATCH.GFAULT) g = (bitOf (s.get SEQ_LATCH.GFAULT) g && !bitOf groups.val g)) ∧ t.get SEQ_LATCH.BLACK = s.get SEQ_LATCH.BLACK ∧ (∀ r ∈ t.seq.rails, bitOf groups.val r.cfg.group = true → r.st ≠ .failed) ∧ t.seq.enLvl = s.seq.enLvl ∧ t.seq.rails.map (·.cfg) = s.seq.rails.map (·.cfg) ∧ t.sil = (s.log EVT_SEQ_CLEAR ACC_TRAY UNIT_SEQ 0 [(0, 2, groups.val), (2, 1, s.get SEQ_LATCH.TFAULT)]).sil ∧ t.bus = .written ∧ RegsOnly [SEQ_CMD_STS.LAST_OP, SEQ_CMD_STS.RESULT, SEQ_LATCH.TFAULT, SEQ_LATCH.GFAULT] s t ∧ Frame [.regs, .sil, .seq, .bus] s t) ∧
  (∀ (s : State) (ini : Initiator) (groups : Fin 512), s.judge ini true SEQ_CMD.OP.addr = .allowed → s.seqRefusal 1 groups.val = 0 → s.seqHeld = true →
    ∃ t, exec (.powerUp ini groups) s = .next t ∧ t.get SEQ_CMD_STS.RESULT = 0 ∧ t.get SEQ_CMD_STS.LAST_OP = 1 ∧ t.seq = { s.seq with waits := s.seq.waits ++ [.command 1 groups.val] } ∧ t.bus = .written ∧ RegsOnly [SEQ_CMD_STS.LAST_OP, SEQ_CMD_STS.RESULT] s t ∧ Frame [.regs, .seq, .bus] s t) ∧
  (∀ (s : State) (ini : Initiator) (groups : Fin 512), s.judge ini true SEQ_CMD.OP.addr = .allowed → s.seqRefusal 2 groups.val = 0 → s.seqHeld = true →
    ∃ t, exec (.powerDown ini groups) s = .next t ∧ t.get SEQ_CMD_STS.RESULT = 0 ∧ t.get SEQ_CMD_STS.LAST_OP = 2 ∧ t.seq = { s.seq with waits := s.seq.waits ++ [.command 2 groups.val] } ∧ t.bus = .written ∧ RegsOnly [SEQ_CMD_STS.LAST_OP, SEQ_CMD_STS.RESULT] s t ∧ Frame [.regs, .seq, .bus] s t) ∧
  (∀ (s : State) (ini : Initiator) (groups : Fin 512), s.judge ini true SEQ_CMD.OP.addr = .allowed → s.seqRefusal 3 groups.val = 0 → s.seqHeld = true →
    ∃ t, exec (.trayRestart ini groups) s = .next t ∧ t.get SEQ_CMD_STS.RESULT = 0 ∧ t.get SEQ_CMD_STS.LAST_OP = 3 ∧ t.seq = { s.seq with waits := s.seq.waits ++ [.command 3 groups.val] } ∧ t.bus = .written ∧ RegsOnly [SEQ_CMD_STS.LAST_OP, SEQ_CMD_STS.RESULT] s t ∧ Frame [.regs, .seq, .bus] s t) ∧
  (∀ (s : State) (ini : Initiator) (groups : Fin 512), s.judge ini true SEQ_CMD.OP.addr = .allowed → s.seqRefusal 4 groups.val = 0 → s.seqHeld = true →
    ∃ t, exec (.clear ini groups) s = .next t ∧ t.get SEQ_CMD_STS.RESULT = 0 ∧ t.get SEQ_CMD_STS.LAST_OP = 4 ∧ t.seq = { s.seq with waits := s.seq.waits ++ [.command 4 groups.val] } ∧ t.bus = .written ∧ RegsOnly [SEQ_CMD_STS.LAST_OP, SEQ_CMD_STS.RESULT] s t ∧ Frame [.regs, .seq, .bus] s t)

/-- Unless safe mode or a warm reset holds the sequencer: a tick enables a sole waiting rail whose delay has passed, which has no predecessors and is discharged; where no power-good verdict and no tray input waits, every rail's state after a tick is that of R261 and R265; the end of ON_DLY with the predecessors on enables a discharged rail, and for one not discharged notes that the delay has passed; a waiting rail not discharged in time, and a rail whose ramp window ends without power-good, fail with tray scope: FAILED, SEQ_STS.FAIL, TFAULT, SEQ_RESUME 0, no rail in WAIT; a timed rail counts as good; OFF_DLY switches the rail off into DISCH; DIS_TO takes the rail as OFF, with the GFAULT bit of its group unless time is what discharges it; a change of a PWRGD input on a ball makes ON exactly the rails judged good by it, or, on the rails that the verdict fails, FAILED; counted in the ramp it makes a sole rail without RAMP_MIN ON, and its loss while ON and not on its way down, with tray scope, fails it; a status poll queues the STATUS_WORD reads of the PMBus-judged rails from RAMP to DISCH. While held, a status poll and the end of OFF_DLY do nothing, and in safe mode a tick asserts no EN line. In A3 a tick does nothing. Events on a rail in another state, or the end of ON_DLY on no rail, change nothing. A PWRGD input that no ball carries shows no level in SEQ_PG (R47): with an Accord locked nothing changes; before that what the baseboard drives is only kept for the Accord to come (log entry 20). -/
def Obligations.RailsMoveThroughTheirStates : Prop :=
  (∀ (s : State) (r : Rail), s.seq.rails = [r] → r.st = .wait → r.dlyDone = true → r.cfg.deps = [] → s.discharged r = true → s.seqHeld = false → s.seq.waits = [] → s.cur ≠ 3 →
    ∃ t, exec (.seqTick) s = .next t ∧ t.seq.rails.map (·.st) = [.ramp] ∧ (r.cfg.enUse = true → bitOf t.seq.enLvl r.cfg.en = true) ∧ Frame [.regs, .sil, .nvm, .tw, .seq, .tamp, .cool, .bus] s t) ∧
  (∀ (s : State), s.seqHeld = false → s.seq.waits = [] → s.cur ≠ 3 → s.seq.inWait = none → (s.seq.rails.map (·.cfg.rail)).Nodup → (∀ r ∈ s.seq.rails, s.verdict r = .rest) →
    ∃ t, exec (.seqTick) s = .next t ∧ t.seq.rails.map (·.st) = s.seq.rails.map (fun r => if r.st = .wait then (if r.dlyDone && s.predsOn r.cfg && s.discharged r then .ramp else .wait) else if (r.st = .ramp ∨ r.st = .on ∧ (s.seq.preWait.contains r.cfg.rail = false ∨ r.black = true)) ∧ r.down = true ∧ s.succsOff r.cfg.rail = true then (if r.black then .disch else .stop) else if r.st = .stop ∧ r.black = true then .disch else if r.st = .disch ∧ s.discharged r = true ∧ r.cfg.dischargeByTime = false then .off else r.st) ∧ t.seq.rails.map (·.cfg) = s.seq.rails.map (·.cfg) ∧ Frame [.regs, .sil, .nvm, .tw, .seq, .tamp, .cool, .bus] s t) ∧
  (∀ (s : State) (gs : Nat) (r : Rail), s.seqHeld = false → s.cur ≠ 3 → s.seq.waits = [.command 2 gs] → s.seq.inWait = none → s.seq.rails = [r] → r.st = .on → r.down = false → bitOf gs r.cfg.group = true → s.seq.op = opNone → s.verdict r = .rest → s.seq.preWait = [] → s.seq.rstos = [] →
    ∃ t, exec (.seqTick) s = .next t ∧ t.seq.waits = [] ∧ t.seq.rails.map (·.st) = [.stop] ∧ t.seq.rails.map (·.cfg) = s.seq.rails.map (·.cfg) ∧ Frame [.regs, .sil, .nvm, .tw, .seq, .tamp, .cool, .bus] s t) ∧
  (∀ (s : State), s.safeMode = true → s.pwr.warmOn = false → s.cur ≠ 3 →
    ∃ t, exec (.seqTick) s = .next t ∧ (∀ i < 64, bitOf t.seq.enLvl i = true → bitOf s.seq.enLvl i = true) ∧ t.seq.rails.map (·.cfg) = s.seq.rails.map (·.cfg) ∧ Frame [.regs, .sil, .nvm, .tw, .seq, .tamp, .cool, .bus] s t) ∧
  (∀ (s : State), s.cur = 3 → exec (.seqTick) s = .next s) ∧
  (∀ (s : State) (rail : Fin 96) (r : Rail), s.rail rail.val = some r → r.st = .wait → s.predsOn r.cfg = true → s.seqHeld = false → s.discharged r = true →
    ∃ t, exec (.onDelayExpiry rail) s = .next t ∧ (t.rail rail.val).map (·.st) = some .ramp ∧ (r.cfg.enUse = true → bitOf t.seq.enLvl r.cfg.en = true) ∧ t.seq.rails.map (·.cfg) = s.seq.rails.map (·.cfg) ∧ Frame [.tw, .seq] s t) ∧
  (∀ (s : State) (rail : Fin 96) (r : Rail), s.rail rail.val = some r → r.st = .wait → s.predsOn r.cfg = true → s.seqHeld = false → s.discharged r = false →
    ∃ t, exec (.onDelayExpiry rail) s = .next t ∧ (t.rail rail.val).map (·.st) = some .wait ∧ (t.rail rail.val).map (·.dlyDone) = some true ∧ t.seq.rails.map (·.cfg) = s.seq.rails.map (·.cfg) ∧ Frame [.seq] s t) ∧
  (∀ (s : State) (rail : Fin 96), s.rail rail.val = none → exec (.onDelayExpiry rail) s = .next s) ∧
  (∀ (s : State) (rail : Fin 96) (r : Rail), s.rail rail.val = some r → r.st = .wait → r.dlyDone = true → s.discharged r = false → s.seqHeld = false →
    ∃ t, exec (.precharged rail) s = .next t ∧ (t.rail rail.val).map (·.st) = some .failed ∧ t.on SEQ_STS.FAIL = true ∧ t.on SEQ_LATCH.TFAULT = true ∧ t.get SEQ_RESUME.GROUPS = 0 ∧ (∀ x ∈ t.seq.rails, x.st ≠ .wait) ∧ Frame [.regs, .sil, .nvm, .tw, .seq, .tamp, .cool] s t) ∧
  (∀ (s : State) (rail : Fin 96) (r : Rail), s.rail rail.val = some r → r.st ≠ .wait → exec (.precharged rail) s = .next s) ∧
  (∀ (s : State) (rail : Fin 96) (r : Rail), s.rail rail.val = some r → r.st = .ramp → r.cfg.pgSrc ≠ 2 → s.seqHeld = false →
    ∃ t, exec (.rampTimeout rail) s = .next t ∧ (t.rail rail.val).map (·.st) = some .failed ∧ t.on SEQ_STS.FAIL = true ∧ t.on SEQ_LATCH.TFAULT = true ∧ t.get SEQ_RESUME.GROUPS = 0 ∧ (∀ x ∈ t.seq.rails, x.st ≠ .wait) ∧ Frame [.regs, .sil, .nvm, .tw, .seq, .tamp, .cool] s t) ∧
  (∀ (s : State) (rail : Fin 96) (r : Rail), s.rail rail.val = some r → r.st = .ramp → r.cfg.pgSrc = 2 → s.seqHeld = false →
    ∃ t, exec (.rampTimeout rail) s = .next t ∧ (t.rail rail.val).map (·.st) = some .on ∧ t.seq.rails.map (·.cfg) = s.seq.rails.map (·.cfg) ∧ Frame [.regs, .sil, .nvm, .tw, .seq, .tamp, .cool] s t) ∧
  (∀ (s : State) (rail : Fin 96) (r : Rail), s.rail rail.val = some r → r.st ≠ .ramp → exec (.rampTimeout rail) s = .next s) ∧
  (∀ (s : State) (rail : Fin 96) (r : Rail), s.rail rail.val = some r → r.st = .stop → s.seqHeld = false →
    ∃ t, exec (.offDelayExpiry rail) s = .next t ∧ (t.rail rail.val).map (·.st) = some .disch ∧ (r.cfg.enUse = true → bitOf t.seq.enLvl r.cfg.en = false) ∧ t.seq.rails.map (·.cfg) = s.seq.rails.map (·.cfg) ∧ Frame [.tw, .seq] s t) ∧
  (∀ (s : State) (rail : Fin 96) (r : Rail), s.rail rail.val = some r → r.st ≠ .stop → exec (.offDelayExpiry rail) s = .next s) ∧
  (∀ (s : State) (rail : Fin 96) (r : Rail), s.rail rail.val = some r → r.st = .disch → r.cfg.dischargeByTime = true → s.seqHeld = false →
    ∃ t, exec (.disTimeout rail) s = .next t ∧ (t.rail rail.val).map (·.st) = some .off ∧ t.get SEQ_LATCH.GFAULT = s.get SEQ_LATCH.GFAULT ∧ t.seq.rails.map (·.cfg) = s.seq.rails.map (·.cfg) ∧ Frame [.regs, .sil, .seq, .cool] s t) ∧
  (∀ (s : State) (rail : Fin 96) (r : Rail), s.rail rail.val = some r → r.st = .disch → r.cfg.dischargeByTime = false → r.cfg.group < 9 → s.seqHeld = false →
    ∃ t, exec (.disTimeout rail) s = .next t ∧ (t.rail rail.val).map (·.st) = some .off ∧ bitOf (t.get SEQ_LATCH.GFAULT) r.cfg.group = true ∧ t.on SEQ_LATCH.TFAULT = s.on SEQ_LATCH.TFAULT ∧ t.seq.rails.map (·.cfg) = s.seq.rails.map (·.cfg) ∧ Frame [.regs, .sil, .nvm, .tw, .seq, .tamp, .cool] s t) ∧
  (∀ (s : State) (rail : Fin 96) (r : Rail), s.rail rail.val = some r → r.st ≠ .disch → exec (.disTimeout rail) s = .next s) ∧
  (∀ (s : State) (idx : Fin 64) (level : Bool) (x : PgIn) (r : Rail), s.placedIn fnPwrgd idx.val = true → s.seq.rails = [r] → r.cfg.pgSrc = 0 → r.cfg.pg = idx.val → r.st = .ramp → level = true → x.transitions = 0 → dglTime r.cfg.dgl ≤ x.held → r.chat ≤ r.cfg.chatMax → r.cfg.rampMin = 0 → s.seqHeld = false →
    ∃ t, exec (.pwrgdChange idx level x) s = .next t ∧ t.seq.rails.map (·.st) = [.on] ∧ bitOf t.seq.pgLvl idx.val = true ∧ Frame [.regs, .sil, .nvm, .tw, .seq, .tamp, .cool] s t) ∧
  (∀ (s : State) (idx : Fin 64) (level : Bool) (x : PgIn) (r : Rail), s.placedIn fnPwrgd idx.val = true → s.seq.rails = [r] → r.cfg.pgSrc = 0 → r.cfg.pg = idx.val → r.st = .on → level = false → x.transitions = 0 → dglTime r.cfg.dgl ≤ x.held → r.chat ≤ r.cfg.chatMax → r.down = false → r.cfg.lossGroup = false → s.seqHeld = false →
    ∃ t, exec (.pwrgdChange idx level x) s = .next t ∧ t.seq.rails.map (·.st) = [.failed] ∧ bitOf t.seq.pgLvl idx.val = false ∧ t.on SEQ_LATCH.TFAULT = true ∧ Frame [.regs, .sil, .nvm, .tw, .seq, .tamp, .cool] s t) ∧
  (∀ (s : State) (idx : Fin 64) (level : Bool) (x : PgIn), s.placedIn fnPwrgd idx.val = true → s.seqHeld = false → (s.seq.rails.map (·.cfg.rail)).Nodup → ((∀ r ∈ s.seq.rails, r.judges idx.val = true → s.verdict (s.railPwrgd level x r) = .rest ∨ s.verdict (s.railPwrgd level x r) = .good)) →
    ∃ t, exec (.pwrgdChange idx level x) s = .next t ∧ t.seq.rails.map (·.st) = s.seq.rails.map (fun r => if r.judges idx.val && s.verdict (s.railPwrgd level x r) == .good then .on else r.st) ∧ t.seq.rails.map (·.cfg) = s.seq.rails.map (·.cfg) ∧ bitOf t.seq.pgLvl idx.val = level ∧ Frame [.regs, .sil, .nvm, .tw, .seq, .tamp, .cool] s t) ∧
  (∀ (s : State) (idx : Fin 64) (level : Bool) (x : PgIn) (r : Rail) (c : Nat), s.placedIn fnPwrgd idx.val = true → s.seqHeld = false → s.rail r.cfg.rail = some r → r.judges idx.val = true → s.verdict (s.railPwrgd level x r) = .fail c →
    ∃ t, exec (.pwrgdChange idx level x) s = .next t ∧ (t.rail r.cfg.rail).map (·.st) = some .failed ∧ t.on SEQ_STS.FAIL = true ∧ t.seq.rails.map (·.cfg) = s.seq.rails.map (·.cfg) ∧ bitOf t.seq.pgLvl idx.val = level ∧ Frame [.regs, .sil, .nvm, .tw, .seq, .tamp, .cool] s t) ∧
  (∀ (s : State) (idx : Fin 64) (level : Bool) (x : PgIn), s.placedIn fnPwrgd idx.val = false → s.get ACD_STS.STATE = 2 → exec (.pwrgdChange idx level x) s = .next s) ∧
  (∀ (s : State) (idx : Fin 64) (level : Bool) (x : PgIn), s.placedIn fnPwrgd idx.val = false →
    ∃ t, exec (.pwrgdChange idx level x) s = .next t ∧ t.seq = { s.seq with pgLvl := t.seq.pgLvl } ∧ t.pgSeen = s.pgSeen ∧ bitOf t.pgSeen idx.val = false ∧ Frame [.seq] s t) ∧
  (∀ (s : State), s.seqHeld = false →
    ∃ t, exec (.statusPoll) s = .next t ∧ t.tw = ((s.seq.rails.filter (fun r => r.cfg.pgSrc == 1 && [.ramp, .on, .stop, .disch].contains r.st)).foldl (fun s r => s.twQueue r.cfg.bus (.seqPoll r.cfg.rail) r.cfg.pmbAddr (railPage r.cfg) [0x79] (.fixed 2) false) s).tw ∧ Frame [.tw] s t) ∧
  (∀ (s : State), s.seqHeld = true → exec (.statusPoll) s = .next s) ∧
  (∀ (s : State) (rail : Fin 96) (r : Rail), s.rail rail.val = some r → s.seqHeld = true → exec (.offDelayExpiry rail) s = .next s)

/-- With the PWRGD input that IN_IDX names as input source, and the sequencer not held, a failing input clears IN_GOOD and sets IN_LOSS; with some rail not off and no fault shutdown, input-loss shutdown or tray restart running, the groups ON or being powered up go to SEQ_RESUME and every rail is off or on its way down. With all rails off nothing more happens. A good input outside the minimum-off wait sets IN_GOOD and nothing else. While held, what the input has come to is only noted. With another input source the events do nothing. Unless safe mode or a warm reset holds the sequencer: MIN_OFF in the wait with TFAULT set, or in a wait that follows an input loss without AUTO_RESTART, clears SEQ_RESUME and ends the wait; with TFAULT clear, the wait not from an input loss or with AUTO_RESTART, and the input good or not used, the groups of SEQ_RESUME not latched off are powered up and SEQ_RESUME is cleared. Outside the wait MIN_OFF does nothing. A reset output is released after STRETCH while every watched rail is ON and not on its way down, and stays otherwise; PRE ending ends every wait for it. The operation shown after the wait is log entry 20. -/
def Obligations.TrayInputAndResetOutputs : Prop :=
  (∀ (s : State), s.trayPin = true → s.seq.rails.all Rail.isOff = false → s.seq.op ≠ opFault → s.seq.op ≠ opInLoss → s.seq.op ≠ opRestart → s.seqHeld = false →
    ∃ t, exec (.trayInputFail) s = .next t ∧ t.on SEQ_STS.IN_GOOD = false ∧ t.on SEQ_STS.IN_LOSS = true ∧ t.get SEQ_RESUME.GROUPS = groupMask (fun g => s.groupOn g || bitOf s.seq.up g) % 2 ^ 9 ∧ (∀ r ∈ t.seq.rails, r.isOff = true ∨ r.down = true) ∧ Frame [.regs, .sil, .tw, .seq, .tamp, .cool] s t) ∧
  (∀ (s : State), s.trayPin = true → s.seqHeld = true →
    ∃ t, exec (.trayInputFail) s = .next t ∧ t.seq = { s.seq with inWait := some false } ∧ Frame [.seq] s t) ∧
  (∀ (s : State), s.trayPin = true → s.seqHeld = true →
    ∃ t, exec (.trayInputGood) s = .next t ∧ t.seq = { s.seq with inWait := some true } ∧ Frame [.seq] s t) ∧
  (∀ (s : State), s.trayPin = true → s.seqHeld = false → s.seq.rails.all Rail.isOff = true →
    ∃ t, exec (.trayInputFail) s = .next t ∧ t.on SEQ_STS.IN_GOOD = false ∧ t.on SEQ_STS.IN_LOSS = true ∧ RegsOnly [SEQ_STS.IN_GOOD, SEQ_STS.IN_LOSS] s t ∧ Frame [.regs] s t) ∧
  (∀ (s : State), s.seq.hdr.inSrc ≠ 1 → exec (.trayInputFail) s = .next s) ∧
  (∀ (s : State), s.trayPin = true → s.seqHeld = false → s.seq.op ≠ opMinOff →
    ∃ t, exec (.trayInputGood) s = .next t ∧ t.on SEQ_STS.IN_GOOD = true ∧ RegsOnly [SEQ_STS.IN_GOOD] s t ∧ Frame [.regs] s t) ∧
  (∀ (s : State), s.seq.hdr.inSrc ≠ 1 → exec (.trayInputGood) s = .next s) ∧
  (∀ (s : State), s.seq.op = opMinOff → s.seqHeld = false → (s.on SEQ_LATCH.TFAULT = true ∨ (s.seq.resumeLoss = true ∧ s.seq.hdr.autoRestart = false)) →
    ∃ t, exec (.minOffExpiry) s = .next t ∧ t.seq.op = s.opLeft ∧ t.get SEQ_RESUME.GROUPS = 0 ∧ RegsOnly [SEQ_RESUME.GROUPS] s t ∧ Frame [.regs, .seq] s t) ∧
  (∀ (s : State), s.seq.op = opMinOff → s.seqHeld = false → s.on SEQ_LATCH.TFAULT = false → (s.seq.resumeLoss = false ∨ s.seq.hdr.autoRestart = true) → (s.seq.hdr.inSrc = 0 ∨ s.on SEQ_STS.IN_GOOD = true) → s.resumeGroups ≠ 0 →
    ∃ t, exec (.minOffExpiry) s = .next t ∧ t.seq.op = opRestartUp ∧ t.seq.up = s.resumeGroups ∧ t.get SEQ_RESUME.GROUPS = 0 ∧ (∀ r ∈ t.seq.rails, bitOf s.resumeGroups r.cfg.group = true → r.st ≠ .off) ∧ RegsOnly [SEQ_RESUME.GROUPS] s t ∧ Frame [.regs, .seq] s t) ∧
  (∀ (s : State), s.seq.op ≠ opMinOff → exec (.minOffExpiry) s = .next s) ∧
  (∀ (s : State) (k : Fin 16) (c : RstoCfg), s.seq.rstos.find? (fun c => c.rsto == k.val) = some c → s.seqHeld = false → c.rails.all (fun r => (s.rail r).any (fun x => x.st == .on && !x.down)) = true →
    ∃ t, exec (.rstoStretchExpiry k) s = .next t ∧ bitOf t.seq.rsto k.val = false ∧ t.seq = { s.seq with rsto := t.seq.rsto } ∧ Frame [.seq] s t) ∧
  (∀ (s : State) (k : Fin 16) (c : RstoCfg), s.seq.rstos.find? (fun c => c.rsto == k.val) = some c → c.rails.all (fun r => (s.rail r).any (fun x => x.st == .on && !x.down)) = false → exec (.rstoStretchExpiry k) s = .next s) ∧
  (∀ (s : State), s.seqHeld = false →
    ∃ t, exec (.rstoPreExpiry) s = .next t ∧ t.seq = { s.seq with preWait := [] } ∧ Frame [.seq] s t)

/-- Test mode is entered with the presence window open, and Sillage is then in TEST; with the window closed a write of 1 is refused, logged, and changes nothing else, also in test mode; in it, with the window open, it only completes. Leaving it clears TEST, ends stepping and leaves no rail margined; when not in force the write only completes. RAIL, DIR and STEPS take the written values of every margin request. One with GO shows its rail and result code: refused, it changes nothing else; accepted with a number of steps above 0 and a new target, it begins stepping as the operation MARGIN; with STEPS = 0 a margined rail returns to nominal, or, while the sequencer is held, the return waits as such an operation and the next step makes it (log entry 20). Without GO nothing else changes. A step towards a target other than 0, unless safe mode or a warm reset holds the sequencer, moves the rail one step that way, and at the target ends the request; while held, or with none asked for, no step is made. With the presence window open and a commit in progress, SEQ_FFR_CLR drops the kept captures and queues the commit of their erasure; with it closed the write is refused, logged, and changes nothing else. -/
def Obligations.TestModeAndMargining : Prop :=
  (∀ (s : State) (ini : Initiator), s.judge ini true SEQ_CTL.TEST.addr = .allowed → s.on SEQ_CTL.TEST = false → s.on KEY_PRES.OPEN = true →
    ∃ t, exec (.testModeEnter ini) s = .next t ∧ t.on SEQ_CTL.TEST = true ∧ t.sil.mode (t.on SEQ_CTL.TEST) = 3 ∧ t.bus = .written ∧ RegsOnly [SEQ_CTL.TEST] s t ∧ Frame [.regs, .sil, .bus] s t) ∧
  (∀ (s : State) (ini : Initiator), s.judge ini true SEQ_CTL.TEST.addr = .allowed → s.on KEY_PRES.OPEN = false →
    ∃ t, exec (.testModeEnter ini) s = .next t ∧ t.sil = (s.log EVT_SEQ_REFUSED ACC_TRAY UNIT_SEQ 0 [(0, 1, 1), (2, 1, 0x4)]).sil ∧ t.bus = .written ∧ Frame [.sil, .bus] s t) ∧
  (∀ (s : State) (ini : Initiator), s.judge ini true SEQ_CTL.TEST.addr = .allowed → s.on SEQ_CTL.TEST = true → s.on KEY_PRES.OPEN = true →
    ∃ t, exec (.testModeEnter ini) s = .next t ∧ t.bus = .written ∧ Frame [.bus] s t) ∧
  (∀ (s : State) (ini : Initiator), s.judge ini true SEQ_CTL.TEST.addr = .allowed → s.on SEQ_CTL.TEST = true →
    ∃ t, exec (.testModeExit ini) s = .next t ∧ t.on SEQ_CTL.TEST = false ∧ t.on SEQ_MGN_STS.STEPPING = false ∧ t.seq.mgn = none ∧ (∀ r ∈ t.seq.rails, r.msteps = 0) ∧ t.bus = .written ∧ Frame [.regs, .sil, .tw, .seq, .tamp, .bus] s t) ∧
  (∀ (s : State) (ini : Initiator), s.judge ini true SEQ_CTL.TEST.addr = .allowed → s.on SEQ_CTL.TEST = false →
    ∃ t, exec (.testModeExit ini) s = .next t ∧ t.bus = .written ∧ Frame [.bus] s t) ∧
  (∀ (s : State) (ini : Initiator) (word : Word), s.judge ini true SEQ_MGN_CTL.GO.addr = .allowed → bitOf word.toNat 16 = true → s.marginRefusal (bitsOf word.toNat 0 7) (bitsOf word.toNat 8 6) ≠ 0 →
    ∃ t, exec (.marginRequest ini word) s = .next t ∧ t.get SEQ_MGN_CTL.RAIL = bitsOf word.toNat 0 7 ∧ t.get SEQ_MGN_CTL.DIR = bitsOf word.toNat 7 1 ∧ t.get SEQ_MGN_CTL.STEPS = bitsOf word.toNat 8 6 ∧ t.get SEQ_MGN_STS.RESULT = s.marginRefusal (bitsOf word.toNat 0 7) (bitsOf word.toNat 8 6) % 16 ∧ t.get SEQ_MGN_STS.RAIL = bitsOf word.toNat 0 7 ∧ t.bus = .written ∧ RegsOnly [SEQ_MGN_CTL.RAIL, SEQ_MGN_CTL.DIR, SEQ_MGN_CTL.STEPS, SEQ_MGN_STS.RAIL, SEQ_MGN_STS.RESULT] s t ∧ Frame [.regs, .bus] s t) ∧
  (∀ (s : State) (ini : Initiator) (word : Word) (r : Rail), s.judge ini true SEQ_MGN_CTL.GO.addr = .allowed → bitOf word.toNat 16 = true → s.marginRefusal (bitsOf word.toNat 0 7) (bitsOf word.toNat 8 6) = 0 → s.rail (bitsOf word.toNat 0 7) = some r → bitsOf word.toNat 8 6 ≠ 0 → r.msteps ≠ (if bitOf word.toNat 7 then -(bitsOf word.toNat 8 6 : Int) else bitsOf word.toNat 8 6) →
    ∃ t, exec (.marginRequest ini word) s = .next t ∧ t.get SEQ_MGN_CTL.RAIL = bitsOf word.toNat 0 7 ∧ t.get SEQ_MGN_CTL.DIR = bitsOf word.toNat 7 1 ∧ t.get SEQ_MGN_CTL.STEPS = bitsOf word.toNat 8 6 ∧ t.get SEQ_MGN_STS.RESULT = 0 ∧ t.on SEQ_MGN_STS.STEPPING = true ∧ t.seq = { s.seq with op := opMargin, mgn := some (bitsOf word.toNat 0 7, if bitOf word.toNat 7 then -(bitsOf word.toNat 8 6 : Int) else bitsOf word.toNat 8 6) } ∧ t.bus = .written ∧ RegsOnly [SEQ_MGN_CTL.RAIL, SEQ_MGN_CTL.DIR, SEQ_MGN_CTL.STEPS, SEQ_MGN_STS.RAIL, SEQ_MGN_STS.RESULT, SEQ_MGN_STS.STEPPING] s t ∧ Frame [.regs, .seq, .bus] s t) ∧
  (∀ (s : State) (ini : Initiator) (word : Word) (r : Rail), s.judge ini true SEQ_MGN_CTL.GO.addr = .allowed → bitOf word.toNat 16 = true → s.marginRefusal (bitsOf word.toNat 0 7) (bitsOf word.toNat 8 6) = 0 → s.rail (bitsOf word.toNat 0 7) = some r → bitsOf word.toNat 8 6 = 0 → r.msteps ≠ 0 → s.seqHeld = false →
    ∃ t, exec (.marginRequest ini word) s = .next t ∧ t.get SEQ_MGN_CTL.RAIL = bitsOf word.toNat 0 7 ∧ t.get SEQ_MGN_CTL.DIR = bitsOf word.toNat 7 1 ∧ t.get SEQ_MGN_CTL.STEPS = bitsOf word.toNat 8 6 ∧ t.get SEQ_MGN_STS.RESULT = 0 ∧ (t.rail r.cfg.rail).map (·.msteps) = some 0 ∧ t.bus = .written ∧ Frame [.regs, .sil, .tw, .seq, .tamp, .bus] s t) ∧
  (∀ (s : State) (ini : Initiator) (word : Word) (r : Rail), s.judge ini true SEQ_MGN_CTL.GO.addr = .allowed → bitOf word.toNat 16 = true → s.marginRefusal (bitsOf word.toNat 0 7) (bitsOf word.toNat 8 6) = 0 → s.rail (bitsOf word.toNat 0 7) = some r → bitsOf word.toNat 8 6 = 0 → r.msteps ≠ 0 → s.seqHeld = true →
    ∃ t, exec (.marginRequest ini word) s = .next t ∧ t.get SEQ_MGN_CTL.RAIL = bitsOf word.toNat 0 7 ∧ t.get SEQ_MGN_CTL.DIR = bitsOf word.toNat 7 1 ∧ t.get SEQ_MGN_CTL.STEPS = bitsOf word.toNat 8 6 ∧ t.get SEQ_MGN_STS.RESULT = 0 ∧ t.on SEQ_MGN_STS.STEPPING = true ∧ t.seq = { s.seq with op := opMargin, mgn := some (bitsOf word.toNat 0 7, 0) } ∧ t.bus = .written ∧ RegsOnly [SEQ_MGN_CTL.RAIL, SEQ_MGN_CTL.DIR, SEQ_MGN_CTL.STEPS, SEQ_MGN_STS.RAIL, SEQ_MGN_STS.RESULT, SEQ_MGN_STS.STEPPING] s t ∧ Frame [.regs, .seq, .bus] s t) ∧
  (∀ (s : State) (r : Rail) (rn : Nat), s.seq.mgn = some (rn, 0) → s.rail rn = some r → s.seqHeld = false →
    ∃ t, exec (.marginStep) s = .next t ∧ (t.rail rn).map (·.msteps) = some 0 ∧ t.seq.mgn = none ∧ t.on SEQ_MGN_STS.STEPPING = false ∧ Frame [.regs, .sil, .tw, .seq, .tamp] s t) ∧
  (∀ (s : State) (ini : Initiator) (word : Word), s.judge ini true SEQ_MGN_CTL.GO.addr = .allowed → bitOf word.toNat 16 = false →
    ∃ t, exec (.marginRequest ini word) s = .next t ∧ t.get SEQ_MGN_CTL.RAIL = bitsOf word.toNat 0 7 ∧ t.get SEQ_MGN_CTL.DIR = bitsOf word.toNat 7 1 ∧ t.get SEQ_MGN_CTL.STEPS = bitsOf word.toNat 8 6 ∧ t.bus = .written ∧ RegsOnly [SEQ_MGN_CTL.RAIL, SEQ_MGN_CTL.DIR, SEQ_MGN_CTL.STEPS] s t ∧ Frame [.regs, .bus] s t) ∧
  (∀ (s : State) (r : Rail) (rn : Nat) (g : Int), s.seq.mgn = some (rn, g) → s.rail rn = some r → s.seqHeld = false → r.msteps < g → g ≠ 0 →
    ∃ t, exec (.marginStep) s = .next t ∧ (t.rail rn).map (·.msteps) = some (r.msteps + 1) ∧ (r.msteps + 1 = g → t.seq.mgn = none ∧ t.on SEQ_MGN_STS.STEPPING = false) ∧ (r.msteps + 1 ≠ g → t.seq.mgn = some (rn, g)) ∧ Frame [.regs, .sil, .tw, .seq, .tamp] s t) ∧
  (∀ (s : State) (r : Rail) (rn : Nat) (g : Int), s.seq.mgn = some (rn, g) → s.rail rn = some r → s.seqHeld = false → g < r.msteps → g ≠ 0 →
    ∃ t, exec (.marginStep) s = .next t ∧ (t.rail rn).map (·.msteps) = some (r.msteps - 1) ∧ (r.msteps - 1 = g → t.seq.mgn = none ∧ t.on SEQ_MGN_STS.STEPPING = false) ∧ (r.msteps - 1 ≠ g → t.seq.mgn = some (rn, g)) ∧ Frame [.regs, .sil, .tw, .seq, .tamp] s t) ∧
  (∀ (s : State), (s.seq.mgn = none ∨ s.seqHeld = true) → exec (.marginStep) s = .next s) ∧
  (∀ (s : State) (ini : Initiator), s.judge ini true SEQ_FFR_CLR.CLR.addr = .allowed → s.on KEY_PRES.OPEN = true → s.nvm.busy.isSome = true →
    ∃ t, exec (.ffrClr ini) s = .next t ∧ t.seq = { s.seq with caps := [] } ∧ t.nvm.queue = s.nvm.queue ++ [{ kind := kindCapture, key := 16, len := 64, data := [.blobErase kindCapture] }] ∧ t.bus = .written ∧ Frame [.nvm, .seq, .bus] s t) ∧
  (∀ (s : State) (ini : Initiator), s.judge ini true SEQ_FFR_CLR.CLR.addr = .allowed → s.on KEY_PRES.OPEN = false →
    ∃ t, exec (.ffrClr ini) s = .next t ∧ t.sil = (s.log EVT_SEQ_REFUSED ACC_TRAY UNIT_SEQ 0 [(0, 1, 2), (2, 1, 0x4)]).sil ∧ t.bus = .written ∧ Frame [.sil, .bus] s t)

/-- Outside safe mode, A3 and a warm reset: in state IDLE the port starts the transaction that is next, which leaves the queue, and shows STATE 2. A channel's write that completes clears BUSY with RESULT 0, RXLEN 0 and CH_DONE and counts in DONE; lost arbitration with attempts left puts the transaction back at the head of the queue with one attempt fewer and sets ARB_LOST with byte and bit; SCL held low ends a channel's transaction with TIMEOUT and RESULT 4, counted in FAIL and logged. With nothing waiting nothing starts; with nothing on the wire, or held as above, its events do nothing. A write of a channel command takes its fields. GO on a free channel of an enabled controller to an address that is neither reserved nor the port's own queues one transaction, with what R318's table gives each PROT to send and to receive, and sets BUSY; an illegal PROT, a length of 0 where the protocol needs one, or another address or a controller not enabled, ends the command at once with RESULT 9 and CH_DONE and queues nothing; without GO, or on a busy channel, nothing else changes. -/
def Obligations.TwoWireTransactionsRun : Prop :=
  (∀ (s : State) (n : Fin 12) (x : TwTxn), s.tw.length = 12 → (s.port n.val).next = some x → s.get (TW_STS.STATE n.val) = 1 → (s.port n.val).cur = none → s.twRuns = true →
    ∃ t, exec (.twTransactionStart n) s = .next t ∧ (t.port n.val).cur = some x ∧ (t.port n.val).queue = dropTxn x (s.port n.val).queue ∧ t.get (TW_STS.STATE n.val) = 2 ∧ (∀ i < 12, i ≠ n.val → t.port i = s.port i) ∧ RegsOnly [TW_STS.STATE n.val] s t ∧ Frame [.regs, .tw] s t) ∧
  (∀ (s : State) (n : Fin 12), (s.port n.val).next = none → exec (.twTransactionStart n) s = .next s) ∧
  (∀ (s : State) (n : Fin 12) (ended : TwEnd) (x : TwTxn) (c : Nat), s.tw.length = 12 → (s.port n.val).cur = some x → x.owner = .channel c → x.rx = .none → ended = .completed [] → c < 2 → s.twRuns = true →
    ∃ t, exec (.twTransactionDone n ended) s = .next t ∧ (t.port n.val).cur = none ∧ t.on (TW_CH_STS.BUSY n.val c) = false ∧ t.get (TW_CH_STS.RESULT n.val c) = 0 ∧ t.get (TW_CH_STS.RXLEN n.val c) = 0 ∧ bitOf (t.get (TW_IRQ_STS.CH_DONE n.val)) c = true ∧ t.get (TW_CNT.DONE n.val) = satCount 16 (s.get (TW_CNT.DONE n.val)) 1 ∧ RegsOnly [TW_CNT.DONE n.val, TW_STS.STATE n.val, TW_CH_STS.BUSY n.val c, TW_CH_STS.RESULT n.val c, TW_CH_STS.RXLEN n.val c, TW_IRQ_STS.CH_DONE n.val] s t ∧ Frame [.regs, .tw] s t) ∧
  (∀ (s : State) (n : Fin 12) (ended : TwEnd) (x : TwTxn) (byte bit : Nat), s.tw.length = 12 → (s.port n.val).cur = some x → ended = .arbLost byte bit → x.retries ≠ 0 → byte < 256 → bit < 9 → s.twRuns = true →
    ∃ t, exec (.twTransactionDone n ended) s = .next t ∧ (t.port n.val).cur = none ∧ (t.port n.val).queue = { x with retries := x.retries - 1 } :: (s.port n.val).queue ∧ t.on (TW_ERR.ARB_LOST n.val) = true ∧ t.get (TW_ARB.BIT n.val) = bit ∧ t.get (TW_ARB.BYTE n.val) = byte ∧ RegsOnly [TW_ERR.ARB_LOST n.val, TW_ARB.BYTE n.val, TW_ARB.BIT n.val, TW_ARB.CNT n.val, TW_STS.STATE n.val] s t ∧ Frame [.regs, .sil, .tw] s t) ∧
  (∀ (s : State) (n : Fin 12) (ended : TwEnd), ((s.port n.val).cur = none ∨ s.twRuns = false) → exec (.twTransactionDone n ended) s = .next s) ∧
  (∀ (s : State) (n : Fin 12) (rx : List Byte) (x : TwTxn) (c : Nat), s.tw.length = 12 → (s.port n.val).cur = some x → x.owner = .channel c → c < 2 → s.twRuns = true →
    ∃ t, exec (.twTimeout n rx) s = .next t ∧ (t.port n.val).cur = none ∧ t.on (TW_ERR.TIMEOUT n.val) = true ∧ t.on (TW_CH_STS.BUSY n.val c) = false ∧ t.get (TW_CH_STS.RESULT n.val c) = 4 ∧ t.get (TW_CNT.FAIL n.val) = satCount 16 (s.get (TW_CNT.FAIL n.val)) 1 ∧ t.sil = (s.log EVT_TW_TIMEOUT ACC_TRAY UNIT_TW n.val [(0, 1, 0), (1, 1, x.addr)]).sil ∧ RegsOnly [TW_CNT.FAIL n.val, TW_STS.STATE n.val, TW_ERR.TIMEOUT n.val, TW_CH_STS.BUSY n.val c, TW_CH_STS.RESULT n.val c, TW_CH_STS.RXLEN n.val c, TW_IRQ_STS.CH_DONE n.val] s t ∧ Frame [.regs, .sil, .tw] s t) ∧
  (∀ (s : State) (n : Fin 12) (rx : List Byte), ((s.port n.val).cur = none ∨ s.twRuns = false) → exec (.twTimeout n rx) s = .next s) ∧
  (∀ (s : State) (ini : Initiator) (n : Fin 12) (c : Fin 2) (word : Word) (tx : List Byte) (rx : RxForm), s.judge ini true (TW_CH_CMD.GO n.val c.val).addr = .allowed → s.tw.length = 12 → bitOf word.toNat 31 = true → s.on (TW_CH_STS.BUSY n.val c.val) = false → s.on (TW_CFG.CTRL_EN n.val) = true → reservedAddr (bitsOf word.toNat 5 7) = false → s.tgtMatch n.val (bitsOf word.toNat 5 7) = false → ((match bitsOf word.toNat 0 4 with | 0x0 => some ([], .none) | 0x1 => some ([], .fixed 0) | 0x2 => some ([BitVec.ofNat 8 (bitsOf word.toNat 12 8)], .none) | 0x3 => some ([], .fixed 1) | 0x4 => some (BitVec.ofNat 8 (bitsOf word.toNat 12 8) :: s.bufBytes (TW_CH_BUF.DATA n.val c.val) 1, .none) | 0x5 => some ([BitVec.ofNat 8 (bitsOf word.toNat 12 8)], .fixed 1) | 0x6 => some (BitVec.ofNat 8 (bitsOf word.toNat 12 8) :: s.bufBytes (TW_CH_BUF.DATA n.val c.val) 2, .none) | 0x7 => some ([BitVec.ofNat 8 (bitsOf word.toNat 12 8)], .fixed 2) | 0x8 => if bitsOf word.toNat 20 8 = 0 then none else some (BitVec.ofNat 8 (bitsOf word.toNat 12 8) :: BitVec.ofNat 8 (bitsOf word.toNat 20 8) :: s.bufBytes (TW_CH_BUF.DATA n.val c.val) (bitsOf word.toNat 20 8), .none) | 0x9 => if bitsOf word.toNat 20 8 = 0 then none else some ([BitVec.ofNat 8 (bitsOf word.toNat 12 8)], .block (bitsOf word.toNat 20 8)) | 0xA => some (BitVec.ofNat 8 (bitsOf word.toNat 12 8) :: s.bufBytes (TW_CH_BUF.DATA n.val c.val) 2, .fixed 2) | 0xB => if bitsOf word.toNat 20 8 = 0 then none else some (BitVec.ofNat 8 (bitsOf word.toNat 12 8) :: BitVec.ofNat 8 (bitsOf word.toNat 20 8) :: s.bufBytes (TW_CH_BUF.DATA n.val c.val) (bitsOf word.toNat 20 8), .block (bitsOf word.toNat 20 8)) | 0xC => if bitsOf word.toNat 20 8 = 0 then none else some (s.bufBytes (TW_CH_BUF.DATA n.val c.val) (bitsOf word.toNat 20 8), .none) | 0xD => if bitsOf word.toNat 20 8 = 0 then none else some ([], .fixed (bitsOf word.toNat 20 8)) | _ => none : Option (List Byte × RxForm))) = some (tx, rx) →
    ∃ t, exec (.channelGo ini n c word) s = .next t ∧ t.on (TW_CH_STS.BUSY n.val c.val) = true ∧ (t.port n.val).queue = (s.port n.val).queue ++ [{ owner := .channel c.val, addr := bitsOf word.toNat 5 7, page := none, tx := tx, rx := rx, pec := bitOf word.toNat 4, retries := s.get (TW_CFG.ARB_RETRY n.val) }] ∧ t.get (TW_CH_CMD.PROT n.val c.val) = bitsOf word.toNat 0 4 ∧ t.get (TW_CH_CMD.PEC n.val c.val) = bitsOf word.toNat 4 1 ∧ t.get (TW_CH_CMD.ADDR n.val c.val) = bitsOf word.toNat 5 7 ∧ t.get (TW_CH_CMD.CODE n.val c.val) = bitsOf word.toNat 12 8 ∧ t.get (TW_CH_CMD.LEN n.val c.val) = bitsOf word.toNat 20 8 ∧ t.bus = .written ∧ RegsOnly [TW_CH_CMD.PROT n.val c.val, TW_CH_CMD.PEC n.val c.val, TW_CH_CMD.ADDR n.val c.val, TW_CH_CMD.CODE n.val c.val, TW_CH_CMD.LEN n.val c.val, TW_CH_STS.BUSY n.val c.val] s t ∧ Frame [.regs, .tw, .bus] s t) ∧
  (∀ (s : State) (ini : Initiator) (n : Fin 12) (c : Fin 2) (word : Word), s.judge ini true (TW_CH_CMD.GO n.val c.val).addr = .allowed → bitOf word.toNat 31 = true → s.on (TW_CH_STS.BUSY n.val c.val) = false → (s.on (TW_CFG.CTRL_EN n.val) = false ∨ reservedAddr (bitsOf word.toNat 5 7) = true ∨ s.tgtMatch n.val (bitsOf word.toNat 5 7) = true ∨ ((match bitsOf word.toNat 0 4 with | 0x0 => some ([], .none) | 0x1 => some ([], .fixed 0) | 0x2 => some ([BitVec.ofNat 8 (bitsOf word.toNat 12 8)], .none) | 0x3 => some ([], .fixed 1) | 0x4 => some (BitVec.ofNat 8 (bitsOf word.toNat 12 8) :: s.bufBytes (TW_CH_BUF.DATA n.val c.val) 1, .none) | 0x5 => some ([BitVec.ofNat 8 (bitsOf word.toNat 12 8)], .fixed 1) | 0x6 => some (BitVec.ofNat 8 (bitsOf word.toNat 12 8) :: s.bufBytes (TW_CH_BUF.DATA n.val c.val) 2, .none) | 0x7 => some ([BitVec.ofNat 8 (bitsOf word.toNat 12 8)], .fixed 2) | 0x8 => if bitsOf word.toNat 20 8 = 0 then none else some (BitVec.ofNat 8 (bitsOf word.toNat 12 8) :: BitVec.ofNat 8 (bitsOf word.toNat 20 8) :: s.bufBytes (TW_CH_BUF.DATA n.val c.val) (bitsOf word.toNat 20 8), .none) | 0x9 => if bitsOf word.toNat 20 8 = 0 then none else some ([BitVec.ofNat 8 (bitsOf word.toNat 12 8)], .block (bitsOf word.toNat 20 8)) | 0xA => some (BitVec.ofNat 8 (bitsOf word.toNat 12 8) :: s.bufBytes (TW_CH_BUF.DATA n.val c.val) 2, .fixed 2) | 0xB => if bitsOf word.toNat 20 8 = 0 then none else some (BitVec.ofNat 8 (bitsOf word.toNat 12 8) :: BitVec.ofNat 8 (bitsOf word.toNat 20 8) :: s.bufBytes (TW_CH_BUF.DATA n.val c.val) (bitsOf word.toNat 20 8), .block (bitsOf word.toNat 20 8)) | 0xC => if bitsOf word.toNat 20 8 = 0 then none else some (s.bufBytes (TW_CH_BUF.DATA n.val c.val) (bitsOf word.toNat 20 8), .none) | 0xD => if bitsOf word.toNat 20 8 = 0 then none else some ([], .fixed (bitsOf word.toNat 20 8)) | _ => none : Option (List Byte × RxForm))) = none) →
    ∃ t, exec (.channelGo ini n c word) s = .next t ∧ t.on (TW_CH_STS.BUSY n.val c.val) = false ∧ t.get (TW_CH_STS.RESULT n.val c.val) = 9 ∧ bitOf (t.get (TW_IRQ_STS.CH_DONE n.val)) c.val = true ∧ t.get (TW_CH_CMD.PROT n.val c.val) = bitsOf word.toNat 0 4 ∧ t.get (TW_CH_CMD.PEC n.val c.val) = bitsOf word.toNat 4 1 ∧ t.get (TW_CH_CMD.ADDR n.val c.val) = bitsOf word.toNat 5 7 ∧ t.get (TW_CH_CMD.CODE n.val c.val) = bitsOf word.toNat 12 8 ∧ t.get (TW_CH_CMD.LEN n.val c.val) = bitsOf word.toNat 20 8 ∧ t.bus = .written ∧ Frame [.regs, .bus] s t) ∧
  (∀ (s : State) (ini : Initiator) (n : Fin 12) (c : Fin 2) (word : Word), s.judge ini true (TW_CH_CMD.GO n.val c.val).addr = .allowed → (bitOf word.toNat 31 = false ∨ s.on (TW_CH_STS.BUSY n.val c.val) = true) →
    ∃ t, exec (.channelGo ini n c word) s = .next t ∧ t.get (TW_CH_CMD.PROT n.val c.val) = bitsOf word.toNat 0 4 ∧ t.get (TW_CH_CMD.PEC n.val c.val) = bitsOf word.toNat 4 1 ∧ t.get (TW_CH_CMD.ADDR n.val c.val) = bitsOf word.toNat 5 7 ∧ t.get (TW_CH_CMD.CODE n.val c.val) = bitsOf word.toNat 12 8 ∧ t.get (TW_CH_CMD.LEN n.val c.val) = bitsOf word.toNat 20 8 ∧ t.bus = .written ∧ RegsOnly [TW_CH_CMD.PROT n.val c.val, TW_CH_CMD.PEC n.val c.val, TW_CH_CMD.ADDR n.val c.val, TW_CH_CMD.CODE n.val c.val, TW_CH_CMD.LEN n.val c.val] s t ∧ Frame [.regs, .bus] s t)

/-- On a port that is enabled, not down, not in A3 nor in a warm reset, with READY = 1 and RX_FULL = 0: a write to an address it answers stores its first 256 bytes, with RX_FULL, RX_LEN, MATCH_ADDR and TGT_RX set, and TGT_OVERRUN where it was longer; a read of such an address with TX_VALID = 1 serves as many bytes as are read and ends TX_VALID and READ_PEND, with TGT_UNDERRUN beyond TX_LEN; with TX_VALID = 0 it stretches, shown by SCL = 0 and in READ_PEND, TGT_TXREQ set. A write not answered, with READY = 0 or RX_FULL = 1, and a read of another address, change nothing. TX_VALID written 1 reads 1 where no read waits; a waiting read is served by it. 10 ms without it serve the waiting read with 0xFF bytes and TGT_UNDERRUN, outside safe mode, A3 and a warm reset; where no read waits they do nothing. A timeout of a transaction addressed to the port, running, sets TIMEOUT, drops a waiting read and is logged. RX_ACK clears RX_FULL and RX_LEN. -/
def Obligations.TwoWireTargetServes : Prop :=
  (∀ (s : State) (n : Fin 12) (addr : Fin 128) (bytes : List Byte), s.tgtLive n.val = true → s.tgtMatch n.val addr.val = true → s.on (TW_TGT_CTL.READY n.val) = true → s.on (TW_TGT_STS.RX_FULL n.val) = false →
    ∃ t, exec (.targetWrite n addr bytes) s = .next t ∧ t.on (TW_TGT_STS.RX_FULL n.val) = true ∧ t.get (TW_TGT_STS.RX_LEN n.val) = min 256 bytes.length ∧ t.get (TW_TGT_STS.MATCH_ADDR n.val) = addr.val ∧ t.on (TW_IRQ_STS.TGT_RX n.val) = true ∧ (256 < bytes.length → t.on (TW_ERR.TGT_OVERRUN n.val) = true) ∧ t.bufBytes (TW_TGT_RX.DATA n.val) (min 256 bytes.length) = bytes.take 256 ∧ RegsOnly ([TW_ERR.TGT_OVERRUN n.val, TW_TGT_STS.RX_FULL n.val, TW_TGT_STS.RX_LEN n.val, TW_TGT_STS.MATCH_ADDR n.val, TW_TGT_STS.PEC_OK n.val, TW_IRQ_STS.TGT_RX n.val] ++ (List.range 64).map (TW_TGT_RX.DATA n.val)) s t ∧ Frame [.regs] s t) ∧
  (∀ (s : State) (n : Fin 12) (addr : Fin 128) (bytes : List Byte), (s.tgtMatch n.val addr.val = false ∨ s.on (TW_TGT_CTL.READY n.val) = false ∨ s.on (TW_TGT_STS.RX_FULL n.val) = true) → exec (.targetWrite n addr bytes) s = .next s) ∧
  (∀ (s : State) (n : Fin 12) (addr : Fin 128) (count : Nat), s.tw.length = 12 → s.tgtLive n.val = true → s.tgtMatch n.val addr.val = true → s.on (TW_TGT_CTL.READY n.val) = true → s.on (TW_TGT_STS.RX_FULL n.val) = false → s.on (TW_TGT_CTL.TX_VALID n.val) = true →
    ∃ t, exec (.targetRead n addr count) s = .next t ∧ t.on (TW_TGT_CTL.TX_VALID n.val) = false ∧ t.on (TW_TGT_STS.READ_PEND n.val) = false ∧ (t.port n.val).served.length = count ∧ (s.get (TW_TGT_CTL.TX_LEN n.val) < count → t.on (TW_ERR.TGT_UNDERRUN n.val) = true) ∧ (∀ i < 12, i ≠ n.val → t.port i = s.port i) ∧ RegsOnly [TW_TGT_CTL.TX_VALID n.val, TW_TGT_STS.READ_PEND n.val, TW_ERR.TGT_UNDERRUN n.val, TW_STS.SCL n.val, TW_STS.STATE n.val] s t ∧ Frame [.regs, .tw] s t) ∧
  (∀ (s : State) (n : Fin 12) (addr : Fin 128) (count : Nat), s.tw.length = 12 → s.tgtLive n.val = true → s.tgtMatch n.val addr.val = true → s.on (TW_TGT_CTL.READY n.val) = true → s.on (TW_TGT_STS.RX_FULL n.val) = false → s.on (TW_TGT_CTL.TX_VALID n.val) = false →
    ∃ t, exec (.targetRead n addr count) s = .next t ∧ t.on (TW_TGT_STS.READ_PEND n.val) = true ∧ t.on (TW_IRQ_STS.TGT_TXREQ n.val) = true ∧ t.on (TW_STS.SCL n.val) = false ∧ (t.port n.val).readWant = count ∧ RegsOnly [TW_TGT_STS.READ_PEND n.val, TW_IRQ_STS.TGT_TXREQ n.val, TW_STS.SCL n.val, TW_STS.STATE n.val] s t ∧ Frame [.regs, .tw] s t) ∧
  (∀ (s : State) (n : Fin 12) (addr : Fin 128) (count : Nat), s.tgtMatch n.val addr.val = false → exec (.targetRead n addr count) s = .next s) ∧
  (∀ (s : State) (ini : Initiator) (n : Fin 12), s.judge ini true (TW_TGT_CTL.TX_VALID n.val).addr = .allowed → s.on (TW_TGT_STS.READ_PEND n.val) = false →
    ∃ t, exec (.txValid ini n) s = .next t ∧ t.on (TW_TGT_CTL.TX_VALID n.val) = true ∧ t.bus = .written ∧ RegsOnly [TW_TGT_CTL.TX_VALID n.val] s t ∧ Frame [.regs, .bus] s t) ∧
  (∀ (s : State) (ini : Initiator) (n : Fin 12), s.judge ini true (TW_TGT_CTL.TX_VALID n.val).addr = .allowed → s.tw.length = 12 → s.on (TW_TGT_STS.READ_PEND n.val) = true →
    ∃ t, exec (.txValid ini n) s = .next t ∧ t.on (TW_TGT_CTL.TX_VALID n.val) = false ∧ t.on (TW_TGT_STS.READ_PEND n.val) = false ∧ (t.port n.val).served.length = (s.port n.val).readWant ∧ t.bus = .written ∧ RegsOnly [TW_TGT_CTL.TX_VALID n.val, TW_TGT_STS.READ_PEND n.val, TW_ERR.TGT_UNDERRUN n.val, TW_STS.SCL n.val, TW_STS.STATE n.val] s t ∧ Frame [.regs, .sil, .tw, .bus] s t) ∧
  (∀ (s : State) (n : Fin 12), s.tw.length = 12 → s.twRuns = true → s.on (TW_TGT_STS.READ_PEND n.val) = true →
    ∃ t, exec (.txValidTimeout n) s = .next t ∧ t.on (TW_TGT_CTL.TX_VALID n.val) = false ∧ t.on (TW_TGT_STS.READ_PEND n.val) = false ∧ (t.port n.val).served = List.replicate (s.port n.val).readWant 0xFF ∧ t.on (TW_ERR.TGT_UNDERRUN n.val) = true ∧ RegsOnly [TW_TGT_CTL.TX_VALID n.val, TW_TGT_STS.READ_PEND n.val, TW_ERR.TGT_UNDERRUN n.val, TW_STS.SCL n.val, TW_STS.STATE n.val] s t ∧ Frame [.regs, .tw] s t) ∧
  (∀ (s : State) (n : Fin 12), s.on (TW_TGT_STS.READ_PEND n.val) = false → exec (.txValidTimeout n) s = .next s) ∧
  (∀ (s : State) (n : Fin 12) (addr : Fin 128), s.tw.length = 12 → s.twRuns = true → s.tgtLive n.val = true → s.tgtMatch n.val addr.val = true →
    ∃ t, exec (.targetTimeout n addr) s = .next t ∧ t.on (TW_ERR.TIMEOUT n.val) = true ∧ t.on (TW_TGT_STS.READ_PEND n.val) = false ∧ (t.port n.val).readWant = 0 ∧ t.sil = (s.log EVT_TW_TIMEOUT ACC_TRAY UNIT_TW n.val [(0, 1, 1), (1, 1, addr.val)]).sil ∧ RegsOnly [TW_ERR.TIMEOUT n.val, TW_TGT_STS.READ_PEND n.val, TW_STS.SCL n.val, TW_STS.STATE n.val] s t ∧ Frame [.regs, .sil, .tw] s t) ∧
  (∀ (s : State) (n : Fin 12) (addr : Fin 128), s.tgtMatch n.val addr.val = false → exec (.targetTimeout n addr) s = .next s) ∧
  (∀ (s : State) (ini : Initiator) (n : Fin 12), s.judge ini true (TW_TGT_CTL.RX_ACK n.val).addr = .allowed →
    ∃ t, exec (.rxAck ini n) s = .next t ∧ t.on (TW_TGT_STS.RX_FULL n.val) = false ∧ t.get (TW_TGT_STS.RX_LEN n.val) = 0 ∧ t.bus = .written ∧ RegsOnly [TW_TGT_STS.RX_FULL n.val, TW_TGT_STS.RX_LEN n.val] s t ∧ Frame [.regs, .bus] s t)

/-- An attention request of an enabled port that is not down queues one poll per listed target where ATTN selects in-band polling; with another ATTN it does nothing. SMBALERT_N low on an input that a ball carries, not ignored and with no read pending, queues one Alert Response Address read where ATTN selects it, outside A3; the retry queues it again while the input is low. A read of the alert queue answers its head with VALID and LEVEL and removes it. Outside safe mode, A3 and a warm reset: on an IDLE segment with nothing queued, a line held low sets STUCK with its interrupt; with power cycling used and cycles left, the segment cycles, SCL and SDA are shown and the event is logged; without power cycling it is DISABLED. SEG_OFF ending puts SEGPWR back; a settled, powered, idle segment returns to IDLE with RECOVER, logged; with no idle the cycle repeats, or with RUN above MAX_CYC the segment is DISABLED; 60 s without a stuck segment set RUN to 0. On a segment already down, and in other states, these events change nothing. -/
def Obligations.TwoWireAlertsAndStuckSegments : Prop :=
  (∀ (s : State) (n : Fin 12), s.tw.length = 12 → s.get (TW_CFG.ATTN n.val) = 1 → s.tgtLive n.val = true →
    ∃ t, exec (.attentionRequest n) s = .next t ∧ (t.port n.val).queue.length = (s.port n.val).queue.length + (s.pollList n.val).length ∧ (∀ i < 12, i ≠ n.val → t.port i = s.port i) ∧ Frame [.tw] s t) ∧
  (∀ (s : State) (n : Fin 12), s.get (TW_CFG.ATTN n.val) ≠ 1 → exec (.attentionRequest n) s = .next s) ∧
  (∀ (s : State) (n : Fin 12) (low : Bool), s.tw.length = 12 → s.placedIn fnAlert n.val = true → s.cur ≠ 3 → s.get (TW_CFG.ATTN n.val) = 2 → low = true → (s.port n.val).alertIgnored = false → (s.port n.val).araPending = false →
    ∃ t, exec (.smbAlert n low) s = .next t ∧ (t.port n.val).queue = (s.port n.val).queue ++ [{ owner := .ara, addr := 0x0C, page := none, tx := [], rx := .fixed 1, pec := false, retries := s.get (TW_CFG.ARB_RETRY n.val) }] ∧ (t.port n.val).alertLow = true ∧ Frame [.tw] s t) ∧
  (∀ (s : State) (n : Fin 12) (low : Bool), (s.get (TW_CFG.ATTN n.val) ≠ 2 ∨ s.placedIn fnAlert n.val = false) → exec (.smbAlert n low) s = .next s) ∧
  (∀ (s : State) (n : Fin 12), s.tw.length = 12 → s.cur ≠ 3 → s.get (TW_CFG.ATTN n.val) = 2 → (s.port n.val).alertLow = true → (s.port n.val).alertIgnored = false → (s.port n.val).araPending = false →
    ∃ t, exec (.alertRetry n) s = .next t ∧ (t.port n.val).queue = (s.port n.val).queue ++ [{ owner := .ara, addr := 0x0C, page := none, tx := [], rx := .fixed 1, pec := false, retries := s.get (TW_CFG.ARB_RETRY n.val) }] ∧ Frame [.tw] s t) ∧
  (∀ (s : State) (n : Fin 12), (s.port n.val).alertLow = false → exec (.alertRetry n) s = .next s) ∧
  (∀ (s : State) (ini : Initiator) (n : Fin 12), s.judge ini false (TW_ALERT.ADDR n.val).addr = .allowed → s.tw.length = 12 →
    ∃ t, exec (.alertQueueRead ini n) s = .next t ∧ t.bus = .value (s.get (TW_ALERT.ADDR n.val) + 2 ^ 7 * s.get (TW_ALERT.VALID n.val) + 2 ^ 8 * s.get (TW_ALERT.LEVEL n.val)) ∧ (t.port n.val).alerts = (s.port n.val).alerts.drop 1 ∧ t.get (TW_ALERT.LEVEL n.val) = ((s.port n.val).alerts.length - 1) % 2 ^ 4 ∧ t.on (TW_ALERT.VALID n.val) = !((s.port n.val).alerts.drop 1).isEmpty ∧ RegsOnly [TW_ALERT.ADDR n.val, TW_ALERT.VALID n.val, TW_ALERT.LEVEL n.val] s t ∧ Frame [.regs, .tw, .bus] s t) ∧
  (∀ (s : State) (n : Fin 12) (scl sda : Bool), s.tw.length = 12 → s.get (TW_STS.STATE n.val) = 1 → s.twRuns = true → (scl = false ∨ sda = false) → (s.port n.val).queue = [] → (s.port n.val).cur = none → s.on (TW_CFG.STUCK_POL n.val) = true → s.on (TW_CFG.SEGPWR_USE n.val) = true → s.get (TW_SEG.RUN n.val) ≤ s.get (TW_CFG.MAX_CYC n.val) →
    ∃ t, exec (.segmentStuck n scl sda) s = .next t ∧ t.get (TW_STS.STATE n.val) = 5 ∧ t.on (TW_STS.SEGPWR n.val) = false ∧ t.get (TW_SEG.RUN n.val) = satCount 3 (s.get (TW_SEG.RUN n.val)) 1 ∧ t.on (TW_ERR.STUCK n.val) = true ∧ t.on (TW_IRQ_STS.STUCK n.val) = true ∧ t.on (TW_STS.SCL n.val) = scl ∧ t.on (TW_STS.SDA n.val) = sda ∧ t.sil = (s.log EVT_TW_STUCK ACC_TRAY UNIT_TW n.val [(0, 1, b2n scl), (1, 1, b2n sda)]).sil ∧ RegsOnly [TW_STS.STATE n.val, TW_STS.SEGPWR n.val, TW_SEG.CYCLES n.val, TW_SEG.RUN n.val, TW_ERR.STUCK n.val, TW_IRQ_STS.STUCK n.val, TW_STS.SCL n.val, TW_STS.SDA n.val] s t ∧ Frame [.regs, .sil] s t) ∧
  (∀ (s : State) (n : Fin 12) (scl sda : Bool), s.tw.length = 12 → s.get (TW_STS.STATE n.val) = 1 → s.twRuns = true → (scl = false ∨ sda = false) → (s.port n.val).queue = [] → (s.port n.val).cur = none → (s.on (TW_CFG.STUCK_POL n.val) = false ∨ s.on (TW_CFG.SEGPWR_USE n.val) = false) →
    ∃ t, exec (.segmentStuck n scl sda) s = .next t ∧ t.get (TW_STS.STATE n.val) = 6 ∧ t.on (TW_ERR.STUCK n.val) = true ∧ t.on (TW_IRQ_STS.STUCK n.val) = true ∧ RegsOnly [TW_STS.STATE n.val, TW_STS.SEGPWR n.val, TW_SEG.CYCLES n.val, TW_SEG.RUN n.val, TW_ERR.STUCK n.val, TW_IRQ_STS.STUCK n.val, TW_STS.SCL n.val, TW_STS.SDA n.val] s t ∧ Frame [.regs, .sil] s t) ∧
  (∀ (s : State) (n : Fin 12) (scl sda : Bool), (s.segDown n.val = true ∨ s.twRuns = false) → exec (.segmentStuck n scl sda) s = .next s) ∧
  (∀ (s : State) (n : Fin 12), s.get (TW_STS.STATE n.val) = 5 → s.twRuns = true →
    ∃ t, exec (.segOffExpiry n) s = .next t ∧ t.on (TW_STS.SEGPWR n.val) = true ∧ RegsOnly [TW_STS.SEGPWR n.val] s t ∧ Frame [.regs] s t) ∧
  (∀ (s : State) (n : Fin 12), s.get (TW_STS.STATE n.val) ≠ 5 → exec (.segOffExpiry n) s = .next s) ∧
  (∀ (s : State) (n : Fin 12) (idle : Bool), s.get (TW_STS.STATE n.val) = 5 → s.on (TW_STS.SEGPWR n.val) = true → idle = true → s.twRuns = true →
    ∃ t, exec (.segSettleExpiry n idle) s = .next t ∧ t.get (TW_STS.STATE n.val) = 1 ∧ t.on (TW_STS.SCL n.val) = true ∧ t.on (TW_STS.SDA n.val) = true ∧ t.on (TW_IRQ_STS.RECOVER n.val) = true ∧ t.sil = (s.log EVT_TW_RECOVER ACC_TRAY UNIT_TW n.val [(0, 1, s.get (TW_SEG.RUN n.val))]).sil ∧ Frame [.regs, .sil, .tw, .tamp] s t) ∧
  (∀ (s : State) (n : Fin 12) (idle : Bool), idle = false → exec (.segSettleExpiry n idle) s = .next s) ∧
  (∀ (s : State) (n : Fin 12), s.get (TW_STS.STATE n.val) = 5 → s.twRuns = true → s.on (TW_CFG.STUCK_POL n.val) = true → s.on (TW_CFG.SEGPWR_USE n.val) = true → s.get (TW_SEG.RUN n.val) ≤ s.get (TW_CFG.MAX_CYC n.val) →
    ∃ t, exec (.segIdleTimeout n) s = .next t ∧ t.get (TW_STS.STATE n.val) = 5 ∧ t.on (TW_STS.SEGPWR n.val) = false ∧ t.get (TW_SEG.RUN n.val) = satCount 3 (s.get (TW_SEG.RUN n.val)) 1 ∧ RegsOnly [TW_STS.STATE n.val, TW_STS.SEGPWR n.val, TW_SEG.CYCLES n.val, TW_SEG.RUN n.val] s t ∧ Frame [.regs] s t) ∧
  (∀ (s : State) (n : Fin 12), s.get (TW_STS.STATE n.val) = 5 → s.twRuns = true → s.get (TW_CFG.MAX_CYC n.val) < s.get (TW_SEG.RUN n.val) →
    ∃ t, exec (.segIdleTimeout n) s = .next t ∧ t.get (TW_STS.STATE n.val) = 6 ∧ RegsOnly [TW_STS.STATE n.val, TW_STS.SEGPWR n.val, TW_SEG.CYCLES n.val, TW_SEG.RUN n.val] s t ∧ Frame [.regs, .sil] s t) ∧
  (∀ (s : State) (n : Fin 12), s.get (TW_STS.STATE n.val) ≠ 5 → exec (.segIdleTimeout n) s = .next s) ∧
  (∀ (s : State) (n : Fin 12), s.twRuns = true →
    ∃ t, exec (.segRunReset n) s = .next t ∧ t.get (TW_SEG.RUN n.val) = 0 ∧ RegsOnly [TW_SEG.RUN n.val] s t ∧ Frame [.regs] s t)

/-- With EN = 1, MAP_LOADED = 1 and its accelerator present, a link in OFF with no retry wait, and not held back by a loss without AUTO_RETRAIN (DEDUCED, log entry 25), enters DETECT and, with the Bridge UP and nothing waiting on GUARD or CTRL, sends the BC_ID read over Bridge CTRL and queues it on its back-channel segment; in QUIESCE that is a failed try, and otherwise it waits for the Bridge; with no segment named BC_ERR is set and the attempt fails in DETECT. The end of the retry wait starts it so too, and RETRAIN from any state. DETECT leaves for ADAPT, ADAPT for TXEQ with one write queued, TXEQ after a write for ALIGN with BC_PATTERN = FRAMES queued, ALIGN for QUALIFY with codeword lock, QUALIFY without a bad codeword for UP; while A1 is in force or being entered, on to LOWPWR with the pattern IDLE queued. At UP ATTEMPTS is 0, the expected FSEQ forgotten, and the window counters of the link's descriptors are empty. A failed attempt in DETECT to QUALIFY ends in OFF with TRAIN_FAIL and FAIL_STEP, counts in ATTEMPTS, is logged, and waits for its retry. A start, retry, step or failure reported in another state, or RETRAIN without the three conditions, does nothing more than complete. Each command queued is one that the Bridge carries. The other links stay as they are. The CTRL messages of the back-channel, their addresses and QUIESCE as a failed try are log entries 25 and 47. -/
def Obligations.LinksTrainStepByStep : Prop :=
  (∀ (s : State) (n : Fin 8), s.tel.links.length = 8 → s.tw.length = 12 → s.get (TL_BC.BUS n.val) < 12 → s.bridgeUp = true → s.vcFree vcCtrl 0 = true → s.trainAllowed n.val = true → s.tlState n.val = 0 → (s.link n.val).retry = false → (s.link n.val).held = false →
    ∃ t, exec (.linkTrainStart n) s = .next t ∧ t.tlState n.val = 1 ∧ t.on (TL_STS.CW_LOCK n.val) = false ∧ t.get (TL_STS.RFMT n.val) = 0 ∧ (∀ i < 8, i ≠ n.val → t.link i = s.link i) ∧ t.brg.hdr = some { vc := vcCtrl, dir := 0, kind := kindWrite, len := ([0x10] : List Byte).length, seq := s.brgNext vcCtrl 0, addr := s.bcAddr n.val } ∧ (t.port (s.get (TL_BC.BUS n.val))).queue = (s.port (s.get (TL_BC.BUS n.val))).queue ++ [{ owner := .bcTrain n.val 0x10, addr := s.get (TL_BC.ADDR n.val), page := none, tx := [0x10], rx := .block 8, pec := true, retries := s.get (TW_CFG.ARB_RETRY (s.get (TL_BC.BUS n.val))) }] ∧ (t.link n.val).bc = some (0x10, 0) ∧ RegsOnly [TL_STS.STATE n.val, TL_STS.CW_LOCK n.val, TL_STS.RFMT n.val] s t ∧ Frame [.regs, .brg, .tw, .tel] s t) ∧
  (∀ (s : State) (n : Fin 8), s.tel.links.length = 8 → 12 ≤ s.get (TL_BC.BUS n.val) → s.trainAllowed n.val = true → s.tlState n.val = 0 → (s.link n.val).retry = false → (s.link n.val).held = false →
    ∃ t, exec (.linkTrainStart n) s = .next t ∧ t.tlState n.val = 0 ∧ t.on (TL_STS.BC_ERR n.val) = true ∧ t.on (TL_STS.TRAIN_FAIL n.val) = true ∧ t.get (TL_STS.FAIL_STEP n.val) = 1 ∧ t.get (TL_TRY.ATTEMPTS n.val) = satCount 8 (s.get (TL_TRY.ATTEMPTS n.val)) 1 ∧ (t.link n.val).retry = true ∧ RegsOnly [TL_STS.TRAIN_FAIL n.val, TL_STS.FAIL_STEP n.val, TL_STS.STATE n.val, TL_STS.CW_LOCK n.val, TL_TRY.ATTEMPTS n.val, TL_STS.STATE n.val, TL_STS.CW_LOCK n.val, TL_STS.RFMT n.val, TL_STS.BC_ERR n.val] s t ∧ Frame [.regs, .brg, .tel] s t) ∧
  (∀ (s : State) (n : Fin 8), s.tel.links.length = 8 → s.get (TL_BC.BUS n.val) < 12 → (s.bridgeUp = false ∨ s.vcFree vcCtrl 0 = false) → s.get BRG_STS.STATE ≠ 3 → s.trainAllowed n.val = true → s.tlState n.val = 0 → (s.link n.val).retry = false → (s.link n.val).held = false →
    ∃ t, exec (.linkTrainStart n) s = .next t ∧ t.tlState n.val = 1 ∧ (t.link n.val).bc = some (0x10, 0) ∧ (t.link n.val).bcHeld = true ∧ (∀ i < 8, i ≠ n.val → t.link i = s.link i) ∧ RegsOnly [TL_STS.STATE n.val, TL_STS.CW_LOCK n.val, TL_STS.RFMT n.val] s t ∧ Frame [.regs, .tel] s t) ∧
  (∀ (s : State) (n : Fin 8), s.tel.links.length = 8 → s.get (TL_BC.BUS n.val) < 12 → s.get BRG_STS.STATE = 3 → s.trainAllowed n.val = true → s.tlState n.val = 0 → (s.link n.val).retry = false → (s.link n.val).held = false →
    ∃ t, exec (.linkTrainStart n) s = .next t ∧ t.tlState n.val = 1 ∧ (t.link n.val).bc = some (0x10, 1) ∧ (t.link n.val).bcWait = true ∧ (∀ i < 8, i ≠ n.val → t.link i = s.link i) ∧ RegsOnly [TL_STS.STATE n.val, TL_STS.CW_LOCK n.val, TL_STS.RFMT n.val] s t ∧ Frame [.regs, .tel] s t) ∧
  (∀ (s : State) (n : Fin 8), (s.trainAllowed n.val = false ∨ s.tlState n.val ≠ 0 ∨ (s.link n.val).retry = true ∨ (s.link n.val).held = true) → exec (.linkTrainStart n) s = .next s) ∧
  (∀ (s : State) (n : Fin 8), s.tel.links.length = 8 → s.tw.length = 12 → s.get (TL_BC.BUS n.val) < 12 → s.bridgeUp = true → s.vcFree vcCtrl 0 = true → s.trainAllowed n.val = true → s.tlState n.val = 0 → (s.link n.val).retry = true →
    ∃ t, exec (.linkRetry n) s = .next t ∧ t.tlState n.val = 1 ∧ t.on (TL_STS.CW_LOCK n.val) = false ∧ t.get (TL_STS.RFMT n.val) = 0 ∧ (∀ i < 8, i ≠ n.val → t.link i = s.link i) ∧ t.brg.hdr = some { vc := vcCtrl, dir := 0, kind := kindWrite, len := ([0x10] : List Byte).length, seq := s.brgNext vcCtrl 0, addr := s.bcAddr n.val } ∧ (t.port (s.get (TL_BC.BUS n.val))).queue = (s.port (s.get (TL_BC.BUS n.val))).queue ++ [{ owner := .bcTrain n.val 0x10, addr := s.get (TL_BC.ADDR n.val), page := none, tx := [0x10], rx := .block 8, pec := true, retries := s.get (TW_CFG.ARB_RETRY (s.get (TL_BC.BUS n.val))) }] ∧ (t.link n.val).bc = some (0x10, 0) ∧ (t.link n.val).retry = false ∧ RegsOnly [TL_STS.STATE n.val, TL_STS.CW_LOCK n.val, TL_STS.RFMT n.val] s t ∧ Frame [.regs, .brg, .tw, .tel] s t) ∧
  (∀ (s : State) (n : Fin 8), (s.link n.val).retry = false → exec (.linkRetry n) s = .next s) ∧
  (∀ (s : State) (n : Fin 8), s.tlState n.val = 1 → (s.link n.val).ready = true →
    ∃ t, exec (.linkDetectDone n) s = .next t ∧ t.tlState n.val = 2 ∧ RegsOnly [TL_STS.STATE n.val] s t ∧ Frame [.regs] s t) ∧
  (∀ (s : State) (n : Fin 8), (s.tlState n.val ≠ 1 ∨ (s.link n.val).ready = false) → exec (.linkDetectDone n) s = .next s) ∧
  (∀ (s : State) (n : Fin 8), s.tel.links.length = 8 → s.tw.length = 12 → s.get (TL_BC.BUS n.val) < 12 → s.bridgeUp = true → s.vcFree vcCtrl 0 = true → s.tlState n.val = 2 →
    ∃ t, exec (.linkAdaptDone n) s = .next t ∧ t.tlState n.val = 3 ∧ (t.link n.val).txeq = 0 ∧ (t.port (s.get (TL_BC.BUS n.val))).queue.length = (s.port (s.get (TL_BC.BUS n.val))).queue.length + 1 ∧ (∀ i < 8, i ≠ n.val → t.link i = s.link i) ∧ RegsOnly [TL_STS.STATE n.val] s t ∧ Frame [.regs, .brg, .tw, .tel, .fresh] s t) ∧
  (∀ (s : State) (n : Fin 8), s.tlState n.val ≠ 2 → exec (.linkAdaptDone n) s = .next s) ∧
  (∀ (s : State) (n : Fin 8), s.tel.links.length = 8 → s.tw.length = 12 → s.get (TL_BC.BUS n.val) < 12 → s.bridgeUp = true → s.vcFree vcCtrl 0 = true → s.tlState n.val = 3 → (s.link n.val).txeq ≠ 0 →
    ∃ t, exec (.linkTxeqDone n) s = .next t ∧ t.tlState n.val = 4 ∧ (∀ i < 8, i ≠ n.val → t.link i = s.link i) ∧ t.brg.hdr = some { vc := vcCtrl, dir := 0, kind := kindWrite, len := ([0x20, 0x00] : List Byte).length, seq := s.brgNext vcCtrl 0, addr := s.bcAddr n.val } ∧ (t.port (s.get (TL_BC.BUS n.val))).queue = (s.port (s.get (TL_BC.BUS n.val))).queue ++ [{ owner := .bcTrain n.val 0x20, addr := s.get (TL_BC.ADDR n.val), page := none, tx := [0x20, 0x00], rx := .none, pec := true, retries := s.get (TW_CFG.ARB_RETRY (s.get (TL_BC.BUS n.val))) }] ∧ (t.link n.val).bc = some (0x20, 0) ∧ RegsOnly [TL_STS.STATE n.val] s t ∧ Frame [.regs, .brg, .tw, .tel] s t) ∧
  (∀ (s : State) (n : Fin 8), (s.tlState n.val ≠ 3 ∨ (s.link n.val).txeq = 0) → exec (.linkTxeqDone n) s = .next s) ∧
  (∀ (s : State) (n : Fin 8), s.tlState n.val = 4 → (s.link n.val).ready = true →
    ∃ t, exec (.linkAlignDone n) s = .next t ∧ t.tlState n.val = 5 ∧ t.on (TL_STS.CW_LOCK n.val) = true ∧ (∀ i < 8, i ≠ n.val → t.link i = s.link i) ∧ RegsOnly [TL_STS.STATE n.val, TL_STS.CW_LOCK n.val] s t ∧ Frame [.regs, .tel, .fresh] s t) ∧
  (∀ (s : State) (n : Fin 8), (s.tlState n.val ≠ 4 ∨ (s.link n.val).ready = false) → exec (.linkAlignDone n) s = .next s) ∧
  (∀ (s : State) (n : Fin 8), s.tel.links.length = 8 → s.tlState n.val = 5 → (s.link n.val).qualBad = false → s.linksHeld = false →
    ∃ t, exec (.linkQualifyDone n) s = .next t ∧ t.tlState n.val = 6 ∧ t.get (TL_TRY.ATTEMPTS n.val) = 0 ∧ t.on (TL_STS.CW_LOCK n.val) = true ∧ (t.link n.val).exp = none ∧ t.tel.desc = s.tel.desc.map (fun e => if e.1 / 8192 = n.val then (e.1, { e.2 with n := 0, sum := Dy.zero, prev := none, uN := 0, dec := 0 }) else e) ∧ (∀ i < 8, i ≠ n.val → t.link i = s.link i) ∧ RegsOnly [TL_STS.STATE n.val, TL_TRY.ATTEMPTS n.val, TL_STS.CW_LOCK n.val] s t ∧ Frame [.regs, .tel] s t) ∧
  (∀ (s : State) (n : Fin 8), s.tel.links.length = 8 → s.tw.length = 12 → s.get (TL_BC.BUS n.val) < 12 → s.bridgeUp = true → s.vcFree vcCtrl 0 = true → s.tlState n.val = 5 → (s.link n.val).qualBad = false → s.linksHeld = true →
    ∃ t, exec (.linkQualifyDone n) s = .next t ∧ t.tlState n.val = 7 ∧ t.get (TL_TRY.ATTEMPTS n.val) = 0 ∧ t.on (TL_STS.CW_LOCK n.val) = true ∧ (t.link n.val).exp = none ∧ t.tel.desc = s.tel.desc.map (fun e => if e.1 / 8192 = n.val then (e.1, { e.2 with n := 0, sum := Dy.zero, prev := none, uN := 0, dec := 0 }) else e) ∧ (∀ i < 8, i ≠ n.val → t.link i = s.link i) ∧ t.brg.hdr = some { vc := vcCtrl, dir := 0, kind := kindWrite, len := ([0x20, 0x02] : List Byte).length, seq := s.brgNext vcCtrl 0, addr := s.bcAddr n.val } ∧ (t.port (s.get (TL_BC.BUS n.val))).queue = (s.port (s.get (TL_BC.BUS n.val))).queue ++ [{ owner := .bcTrain n.val (0x20 + 256 * 2), addr := s.get (TL_BC.ADDR n.val), page := none, tx := [0x20, 0x02], rx := .none, pec := true, retries := s.get (TW_CFG.ARB_RETRY (s.get (TL_BC.BUS n.val))) }] ∧ (t.link n.val).bc = some ((0x20 + 256 * 2), 0) ∧ RegsOnly [TL_STS.STATE n.val, TL_TRY.ATTEMPTS n.val, TL_STS.CW_LOCK n.val] s t ∧ Frame [.regs, .brg, .tw, .tel] s t) ∧
  (∀ (s : State) (n : Fin 8), (s.tlState n.val ≠ 5 ∨ (s.link n.val).qualBad = true) → exec (.linkQualifyDone n) s = .next s) ∧
  (∀ (s : State) (n : Fin 8), s.tel.links.length = 8 → 1 ≤ s.tlState n.val → s.tlState n.val ≤ 5 →
    ∃ t, exec (.linkTrainFail n) s = .next t ∧ t.tlState n.val = 0 ∧ t.on (TL_STS.TRAIN_FAIL n.val) = true ∧ t.get (TL_STS.FAIL_STEP n.val) = s.tlState n.val ∧ t.get (TL_TRY.ATTEMPTS n.val) = satCount 8 (s.get (TL_TRY.ATTEMPTS n.val)) 1 ∧ (t.link n.val).retry = true ∧ (∀ i < 8, i ≠ n.val → t.link i = s.link i) ∧ t.brg = (s.logTop EVT_TL_TRAIN n.val UNIT_TL n.val [(0, 1, s.tlState n.val), (1, 1, t.get (TL_TRY.ATTEMPTS n.val))]).brg ∧ RegsOnly [TL_STS.TRAIN_FAIL n.val, TL_STS.FAIL_STEP n.val, TL_STS.STATE n.val, TL_STS.CW_LOCK n.val, TL_TRY.ATTEMPTS n.val] s t ∧ Frame [.regs, .brg, .tel] s t) ∧
  (∀ (s : State) (n : Fin 8), (s.tlState n.val = 0 ∨ 6 ≤ s.tlState n.val) → exec (.linkTrainFail n) s = .next s) ∧
  (∀ (s : State) (ini : Initiator) (n : Fin 8), s.tel.links.length = 8 → s.tw.length = 12 → s.get (TL_BC.BUS n.val) < 12 → s.bridgeUp = true → s.vcFree vcCtrl 0 = true → s.judge ini true (TL_CTL.RETRAIN n.val).addr = .allowed → s.trainAllowed n.val = true →
    ∃ t, exec (.tlRetrain ini n) s = .next t ∧ t.tlState n.val = 1 ∧ t.on (TL_STS.CW_LOCK n.val) = false ∧ t.get (TL_STS.RFMT n.val) = 0 ∧ (∀ i < 8, i ≠ n.val → t.link i = s.link i) ∧ t.brg.hdr = some { vc := vcCtrl, dir := 0, kind := kindWrite, len := ([0x10] : List Byte).length, seq := s.brgNext vcCtrl 0, addr := s.bcAddr n.val } ∧ (t.port (s.get (TL_BC.BUS n.val))).queue = (s.port (s.get (TL_BC.BUS n.val))).queue ++ [{ owner := .bcTrain n.val 0x10, addr := s.get (TL_BC.ADDR n.val), page := none, tx := [0x10], rx := .block 8, pec := true, retries := s.get (TW_CFG.ARB_RETRY (s.get (TL_BC.BUS n.val))) }] ∧ (t.link n.val).bc = some (0x10, 0) ∧ t.bus = .written ∧ RegsOnly [TL_STS.STATE n.val, TL_STS.CW_LOCK n.val, TL_STS.RFMT n.val] s t ∧ Frame [.regs, .brg, .tw, .tel, .bus] s t) ∧
  (∀ (s : State) (ini : Initiator) (n : Fin 8), s.judge ini true (TL_CTL.RETRAIN n.val).addr = .allowed → s.trainAllowed n.val = false →
    ∃ t, exec (.tlRetrain ini n) s = .next t ∧ t.bus = .written ∧ Frame [.bus] s t)

/-- In UP eight bad codewords in a row lose the link: LOS is set, LOS_CNT counts, EVT_TL_LOS is logged; with AUTO_RETRAIN it enters DETECT at once and queues the BC_ID read, else it is OFF. Fewer, or another state, lose nothing. A back-channel transaction that waits for a retry is queued again; where none waits nothing happens. In LOWPWR with A1 neither in force nor being entered, lock confirmed brings the link to UP with BC_PATTERN = FRAMES queued, and no lock within the time takes it to DETECT with the BC_ID read queued; otherwise both do nothing. Each back-channel command is one that the Bridge, UP and with nothing waiting on GUARD or CTRL, carries. The other links stay as they are. An allowed CNT_CLR zeroes the ten counters of the link named here and leaves every other register, ATTEMPTS among them. -/
def Obligations.LinksAreLostAndSleep : Prop :=
  (∀ (s : State) (n : Fin 8), s.tel.links.length = 8 → s.tw.length = 12 → s.get (TL_BC.BUS n.val) < 12 → s.bridgeUp = true → s.vcFree vcCtrl 0 = true → s.tlState n.val = 6 → 8 ≤ (s.link n.val).badRun → s.on (TL_CTL.AUTO_RETRAIN n.val) = true →
    ∃ t, exec (.linkLos n) s = .next t ∧ t.on (TL_STS.LOS n.val) = true ∧ t.get (TL_TRY.LOS_CNT n.val) = satCount 8 (s.get (TL_TRY.LOS_CNT n.val)) 1 ∧ (∀ i < 8, i ≠ n.val → t.link i = s.link i) ∧ t.brg.bulkQ = (s.logTop EVT_TL_LOS n.val UNIT_TL n.val [(0, 1, t.get (TL_TRY.LOS_CNT n.val))]).brg.bulkQ ∧ t.tlState n.val = 1 ∧ t.on (TL_STS.CW_LOCK n.val) = false ∧ t.get (TL_STS.RFMT n.val) = 0 ∧ (∀ i < 8, i ≠ n.val → t.link i = s.link i) ∧ t.brg.hdr = some { vc := vcCtrl, dir := 0, kind := kindWrite, len := ([0x10] : List Byte).length, seq := s.brgNext vcCtrl 0, addr := s.bcAddr n.val } ∧ (t.port (s.get (TL_BC.BUS n.val))).queue = (s.port (s.get (TL_BC.BUS n.val))).queue ++ [{ owner := .bcTrain n.val 0x10, addr := s.get (TL_BC.ADDR n.val), page := none, tx := [0x10], rx := .block 8, pec := true, retries := s.get (TW_CFG.ARB_RETRY (s.get (TL_BC.BUS n.val))) }] ∧ (t.link n.val).bc = some (0x10, 0) ∧ RegsOnly [TL_STS.LOS n.val, TL_STS.STATE n.val, TL_STS.CW_LOCK n.val, TL_TRY.LOS_CNT n.val, TL_STS.RFMT n.val] s t ∧ Frame [.regs, .brg, .tw, .tel] s t) ∧
  (∀ (s : State) (n : Fin 8), s.tel.links.length = 8 → s.tlState n.val = 6 → 8 ≤ (s.link n.val).badRun → s.on (TL_CTL.AUTO_RETRAIN n.val) = false →
    ∃ t, exec (.linkLos n) s = .next t ∧ t.on (TL_STS.LOS n.val) = true ∧ t.get (TL_TRY.LOS_CNT n.val) = satCount 8 (s.get (TL_TRY.LOS_CNT n.val)) 1 ∧ (∀ i < 8, i ≠ n.val → t.link i = s.link i) ∧ t.brg = (s.logTop EVT_TL_LOS n.val UNIT_TL n.val [(0, 1, t.get (TL_TRY.LOS_CNT n.val))]).brg ∧ t.tlState n.val = 0 ∧ RegsOnly [TL_STS.LOS n.val, TL_STS.STATE n.val, TL_STS.CW_LOCK n.val, TL_TRY.LOS_CNT n.val] s t ∧ Frame [.regs, .brg, .tel] s t) ∧
  (∀ (s : State) (n : Fin 8), (s.tlState n.val ≠ 6 ∨ (s.link n.val).badRun < 8) → exec (.linkLos n) s = .next s) ∧
  (∀ (s : State) (n : Fin 8) (c f : Nat), s.tel.links.length = 8 → s.tw.length = 12 → s.get (TL_BC.BUS n.val) < 12 → s.bridgeUp = true → s.vcFree vcCtrl 0 = true → (s.link n.val).bc = some (c, f) → (s.link n.val).bcWait = true →
    ∃ t, exec (.bcRetry n) s = .next t ∧ (t.link n.val).bcWait = false ∧ (t.link n.val).bc = some (c, f) ∧ (t.port (s.get (TL_BC.BUS n.val))).queue.length = (s.port (s.get (TL_BC.BUS n.val))).queue.length + 1 ∧ (∀ i < 8, i ≠ n.val → t.link i = s.link i) ∧ Frame [.brg, .tw, .tel] s t) ∧
  (∀ (s : State) (n : Fin 8), ((s.link n.val).bc = none ∨ (s.link n.val).bcWait = false) → exec (.bcRetry n) s = .next s) ∧
  (∀ (s : State) (n : Fin 8), s.tel.links.length = 8 → s.tw.length = 12 → s.get (TL_BC.BUS n.val) < 12 → s.bridgeUp = true → s.vcFree vcCtrl 0 = true → s.tlState n.val = 7 → s.linksHeld = false →
    ∃ t, exec (.lowpwrExitLock n) s = .next t ∧ t.tlState n.val = 6 ∧ t.get (TL_TRY.ATTEMPTS n.val) = 0 ∧ t.on (TL_STS.CW_LOCK n.val) = true ∧ (t.link n.val).exp = none ∧ t.tel.desc = s.tel.desc.map (fun e => if e.1 / 8192 = n.val then (e.1, { e.2 with n := 0, sum := Dy.zero, prev := none, uN := 0, dec := 0 }) else e) ∧ (∀ i < 8, i ≠ n.val → t.link i = s.link i) ∧ t.brg.hdr = some { vc := vcCtrl, dir := 0, kind := kindWrite, len := ([0x20, 0x00] : List Byte).length, seq := s.brgNext vcCtrl 0, addr := s.bcAddr n.val } ∧ (t.port (s.get (TL_BC.BUS n.val))).queue = (s.port (s.get (TL_BC.BUS n.val))).queue ++ [{ owner := .bcTrain n.val 0x20, addr := s.get (TL_BC.ADDR n.val), page := none, tx := [0x20, 0x00], rx := .none, pec := true, retries := s.get (TW_CFG.ARB_RETRY (s.get (TL_BC.BUS n.val))) }] ∧ (t.link n.val).bc = some (0x20, 0) ∧ RegsOnly [TL_STS.STATE n.val, TL_TRY.ATTEMPTS n.val, TL_STS.CW_LOCK n.val] s t ∧ Frame [.regs, .brg, .tw, .tel, .fresh] s t) ∧
  (∀ (s : State) (n : Fin 8), (s.tlState n.val ≠ 7 ∨ s.linksHeld = true) → exec (.lowpwrExitLock n) s = .next s) ∧
  (∀ (s : State) (n : Fin 8), s.tel.links.length = 8 → s.tw.length = 12 → s.get (TL_BC.BUS n.val) < 12 → s.bridgeUp = true → s.vcFree vcCtrl 0 = true → s.tlState n.val = 7 → s.linksHeld = false →
    ∃ t, exec (.lowpwrRelockTimeout n) s = .next t ∧ t.tlState n.val = 1 ∧ t.on (TL_STS.CW_LOCK n.val) = false ∧ t.get (TL_STS.RFMT n.val) = 0 ∧ (∀ i < 8, i ≠ n.val → t.link i = s.link i) ∧ t.brg.hdr = some { vc := vcCtrl, dir := 0, kind := kindWrite, len := ([0x10] : List Byte).length, seq := s.brgNext vcCtrl 0, addr := s.bcAddr n.val } ∧ (t.port (s.get (TL_BC.BUS n.val))).queue = (s.port (s.get (TL_BC.BUS n.val))).queue ++ [{ owner := .bcTrain n.val 0x10, addr := s.get (TL_BC.ADDR n.val), page := none, tx := [0x10], rx := .block 8, pec := true, retries := s.get (TW_CFG.ARB_RETRY (s.get (TL_BC.BUS n.val))) }] ∧ (t.link n.val).bc = some (0x10, 0) ∧ RegsOnly [TL_STS.STATE n.val, TL_STS.CW_LOCK n.val, TL_STS.RFMT n.val] s t ∧ Frame [.regs, .brg, .tw, .tel] s t) ∧
  (∀ (s : State) (n : Fin 8), (s.tlState n.val ≠ 7 ∨ s.linksHeld = true) → exec (.lowpwrRelockTimeout n) s = .next s) ∧
  (∀ (s : State) (ini : Initiator) (n : Fin 8), s.judge ini true (TL_CNT_CLR.CLR n.val).addr = .allowed →
    ∃ t, exec (.tlCntClr ini n) s = .next t ∧ t.get (TL_FEC.CORR n.val) = 0 ∧ t.get (TL_FEC.UNCORR n.val) = 0 ∧ t.get (TL_FRM.APPLIED n.val) = 0 ∧ t.get (TL_FERR.CRC n.val) = 0 ∧ t.get (TL_FERR.LOST n.val) = 0 ∧ t.get (TL_VERR.BADFRM n.val) = 0 ∧ t.get (TL_VERR.UNMAPPED n.val) = 0 ∧ t.get (TL_VERR2.FMTERR n.val) = 0 ∧ t.get (TL_VERR2.NAN n.val) = 0 ∧ t.get (TL_TRY.LOS_CNT n.val) = 0 ∧ t.bus = .written ∧ RegsOnly [TL_FEC.CORR n.val, TL_FEC.UNCORR n.val, TL_FRM.APPLIED n.val, TL_FERR.CRC n.val, TL_FERR.LOST n.val, TL_VERR.BADFRM n.val, TL_VERR.UNMAPPED n.val, TL_VERR2.FMTERR n.val, TL_VERR2.NAN n.val, TL_TRY.LOS_CNT n.val] s t ∧ Frame [.regs, .bus] s t)

/-- In a state other than UP and QUALIFY a codeword changes nothing. In these, meeting no uncorrectable descriptor: a codeword that cannot be corrected counts in UNCORR and in the run of bad codewords, and in QUALIFY spoils the attempt. A decoded one counts in CORR where symbols were corrected; a valid SYNC ends the run of bad codewords, another adds to it; in QUALIFY no descriptor changes. In UP two frames with wrong CRCs are counted in CRC and change no descriptor. A good DATA frame with one value of the right width for a valid, unrecorded descriptor, followed by an IDLE frame, with no trigger enabled and no FSEQ expected, makes the value, converted, the descriptor's latest with the Top-die timestamp, counts in APPLIED and, where it is NaN, in NAN, sets the expected FSEQ, and leaves the other descriptors. Such a value for an invalid descriptor is dropped and counted in UNMAPPED; one of the wrong width in FMTERR. With the recorder accepting, such a value of a descriptor with REC_EN is queued as a record, one in DEC + 1; a good MARK frame without values, followed by IDLE, counts in APPLIED and queues a record with MARK and its code. With one trigger enabled, a value that rises above its threshold, or its code in a MARK frame, fires it: in RUN the buffer closes with the unit in REC_TSRC and POST follows. A frame discarded at step 4 of R195 counts in BADFRM, and changes no value, queue or expected FSEQ. A descriptor found uncorrectable for the first time sets MAP_ECC and LAST_IDX, counts, is logged, and acts as invalid. Which symbol is which coefficient of the code is taken from Clause 91 (PRESUMED, log entry 51). -/
def Obligations.CodewordsApplyTheirValues : Prop :=
  (∀ (s : State) (n : Fin 8) (raw : BitVec 4360) (bad : List (Fin 65536)), s.tlState n.val ≠ 6 → s.tlState n.val ≠ 5 → exec (.codewordRx n raw bad) s = .next s) ∧
  (∀ (s : State) (n : Fin 8) (raw : BitVec 4360) (bad : List (Fin 65536)), s.tel.links.length = 8 → (s.tlState n.val = 6 ∨ s.tlState n.val = 5) → s.rxWord n.val raw.toNat = .uncorrectable → bad = [] →
    ∃ t, exec (.codewordRx n raw bad) s = .next t ∧ t.get (TL_FEC.UNCORR n.val) = satCount 16 (s.get (TL_FEC.UNCORR n.val)) 1 ∧ (t.link n.val).badRun = (s.link n.val).badRun + 1 ∧ (t.link n.val).qualBad = ((s.link n.val).qualBad || s.tlState n.val == 5) ∧ t.tel.desc = s.tel.desc ∧ (∀ i < 8, i ≠ n.val → t.link i = s.link i) ∧ RegsOnly [TL_FEC.UNCORR n.val] s t ∧ Frame [.regs, .tel] s t) ∧
  (∀ (s : State) (n : Fin 8) (raw : BitVec 4360) (bad : List (Fin 65536)) (corr : Bool) (p : List Byte), s.tel.links.length = 8 → s.tlState n.val = 5 → s.rxWord n.val raw.toNat = .decoded corr p → bad = [] →
    ∃ t, exec (.codewordRx n raw bad) s = .next t ∧ (t.link n.val).badRun = (if syncOk p then 0 else (s.link n.val).badRun + 1) ∧ t.get (TL_FEC.CORR n.val) = satCount 16 (s.get (TL_FEC.CORR n.val)) (b2n corr) ∧ t.tel.desc = s.tel.desc ∧ (∀ i < 8, i ≠ n.val → t.link i = s.link i) ∧ RegsOnly [TL_FEC.CORR n.val] s t ∧ Frame [.regs, .tel] s t) ∧
  (∀ (s : State) (n : Fin 8) (raw : BitVec 4360) (bad : List (Fin 65536)) (corr : Bool) (p : List Byte), s.tel.links.length = 8 → s.tlState n.val = 6 → s.rxWord n.val raw.toNat = .decoded corr p → bad = [] → crc32c ((slice p 8 256).take 252) ≠ leAt (slice p 8 256) 252 4 → crc32c ((slice p 264 256).take 252) ≠ leAt (slice p 264 256) 252 4 →
    ∃ t, exec (.codewordRx n raw bad) s = .next t ∧ t.get (TL_FERR.CRC n.val) = satCount 16 (s.get (TL_FERR.CRC n.val)) 2 ∧ t.tel.desc = s.tel.desc ∧ (t.link n.val).badRun = (if syncOk p then 0 else (s.link n.val).badRun + 1) ∧ RegsOnly [TL_FEC.CORR n.val, TL_FERR.CRC n.val] s t ∧ Frame [.regs, .tel] s t) ∧
  (∀ (s : State) (n : Fin 8) (raw : BitVec 4360) (bad : List (Fin 65536)) (corr : Bool) (p : List Byte) (ch v : Nat) (w : Bool), s.tel.links.length = 8 → s.tlState n.val = 6 → s.rxWord n.val raw.toNat = .decoded corr p → bad = [] → crc32c ((slice p 8 256).take 252) = leAt (slice p 8 256) 252 4 → crc32c ((slice p 264 256).take 252) = leAt (slice p 264 256) 252 4 → leAt (slice p 8 256) 0 1 = 1 → leAt (slice p 8 256) 1 1 = 0 → leAt (slice p 8 256) 8 4 = 0 → leAt (slice p 264 256) 0 1 = 0 → parseBlocks (slice (slice p 8 256) 12 240) 61 0 = some [{ first := ch, wide := w, vals := [v] }] → (s.desc (8192 * n.val + ch)).valid = true → (s.desc (8192 * n.val + ch)).recEn = false → w = fmtWide (s.desc (8192 * n.val + ch)).fmt → (∀ u < 16, s.on (TFAB_TRG_CFG.EN u) = false) → (s.link n.val).exp = none →
    ∃ t, exec (.codewordRx n raw bad) s = .next t ∧ (t.dst (8192 * n.val + ch)).latest = convert (s.desc (8192 * n.val + ch)) v ∧ (t.dst (8192 * n.val + ch)).has = true ∧ (t.dst (8192 * n.val + ch)).ts = s.topNow ∧ (∀ j, j ≠ 8192 * n.val + ch → t.dst j = s.dst j) ∧ t.get (TL_FRM.APPLIED n.val) = (s.get (TL_FRM.APPLIED n.val) + 1) % 2 ^ 32 ∧ (t.link n.val).exp = some ((leAt (slice p 8 256) 2 2 + 1) % 65536) ∧ t.get (TL_VERR2.NAN n.val) = satCount 16 (s.get (TL_VERR2.NAN n.val)) (b2n (convert (s.desc (8192 * n.val + ch)) v == nan32)) ∧ RegsOnly [TL_FEC.CORR n.val, TL_FRM.APPLIED n.val, TL_VERR2.NAN n.val, TL_FERR.LOST n.val] s t ∧ Frame [.regs, .tel] s t) ∧
  (∀ (s : State) (n : Fin 8) (raw : BitVec 4360) (bad : List (Fin 65536)) (corr : Bool) (p : List Byte) (ch v : Nat) (w : Bool), s.tel.links.length = 8 → s.tlState n.val = 6 → s.rxWord n.val raw.toNat = .decoded corr p → bad = [] → crc32c ((slice p 8 256).take 252) = leAt (slice p 8 256) 252 4 → crc32c ((slice p 264 256).take 252) = leAt (slice p 264 256) 252 4 → leAt (slice p 8 256) 0 1 = 1 → leAt (slice p 8 256) 1 1 = 0 → leAt (slice p 8 256) 8 4 = 0 → leAt (slice p 264 256) 0 1 = 0 → parseBlocks (slice (slice p 8 256) 12 240) 61 0 = some [{ first := ch, wide := w, vals := [v] }] → ((s.desc (8192 * n.val + ch)).valid = false ∨ w ≠ fmtWide (s.desc (8192 * n.val + ch)).fmt) → (s.link n.val).exp = none →
    ∃ t, exec (.codewordRx n raw bad) s = .next t ∧ t.tel.desc = s.tel.desc ∧ t.get (TL_VERR.UNMAPPED n.val) = satCount 16 (s.get (TL_VERR.UNMAPPED n.val)) (b2n (!(s.desc (8192 * n.val + ch)).valid)) ∧ t.get (TL_VERR2.FMTERR n.val) = satCount 16 (s.get (TL_VERR2.FMTERR n.val)) (b2n (s.desc (8192 * n.val + ch)).valid) ∧ RegsOnly [TL_FEC.CORR n.val, TL_FRM.APPLIED n.val, TL_VERR.UNMAPPED n.val, TL_VERR2.FMTERR n.val, TL_FERR.LOST n.val] s t ∧ Frame [.regs, .tel] s t) ∧
  (∀ (s : State) (n : Fin 8) (raw : BitVec 4360) (bad : List (Fin 65536)) (corr : Bool) (p : List Byte), s.tel.links.length = 8 → s.tlState n.val = 6 → s.rxWord n.val raw.toNat = .decoded corr p → bad = [] → crc32c ((slice p 8 256).take 252) = leAt (slice p 8 256) 252 4 → crc32c ((slice p 264 256).take 252) = leAt (slice p 264 256) 252 4 → leAt (slice p 8 256) 0 1 ≠ 0 → (2 < leAt (slice p 8 256) 0 1 ∨ leAt (slice p 8 256) 1 1 ≠ 0 ∨ leAt (slice p 8 256) 8 4 ≠ 0 ∨ parseBlocks (slice (slice p 8 256) 12 240) 61 0 = none) → leAt (slice p 264 256) 0 1 = 0 →
    ∃ t, exec (.codewordRx n raw bad) s = .next t ∧ t.get (TL_VERR.BADFRM n.val) = satCount 16 (s.get (TL_VERR.BADFRM n.val)) 1 ∧ t.tel.desc = s.tel.desc ∧ (t.link n.val).exp = (s.link n.val).exp ∧ (t.link n.val).queue = (s.link n.val).queue ∧ RegsOnly [TL_FEC.CORR n.val, TL_VERR.BADFRM n.val] s t ∧ Frame [.regs, .tel] s t) ∧
  (∀ (s : State) (n : Fin 8) (raw : BitVec 4360) (bad : List (Fin 65536)) (corr : Bool) (p : List Byte), s.tel.links.length = 8 → s.tlState n.val = 6 → s.rxWord n.val raw.toNat = .decoded corr p → bad = [] → crc32c ((slice p 8 256).take 252) = leAt (slice p 8 256) 252 4 → crc32c ((slice p 264 256).take 252) = leAt (slice p 264 256) 252 4 → leAt (slice p 8 256) 0 1 = 2 → leAt (slice p 8 256) 1 1 = 0 → leAt (slice p 8 256) 8 4 = 0 → leAt (slice p 264 256) 0 1 = 0 → parseBlocks (slice (slice p 8 256) 12 240) 61 0 = some [] → (s.link n.val).exp = none → (s.link n.val).queue.length < 512 → (∀ u < 16, s.on (TFAB_TRG_CFG.EN u) = false) →
    ∃ t, exec (.codewordRx n raw bad) s = .next t ∧ t.get (TL_FRM.APPLIED n.val) = (s.get (TL_FRM.APPLIED n.val) + 1) % 2 ^ 32 ∧ (t.link n.val).exp = some ((leAt (slice p 8 256) 2 2 + 1) % 65536) ∧ (t.link n.val).queue = (s.link n.val).queue ++ (if s.recAccepts then [s.plainRec n.val 2 (leAt (slice p 8 256) 4 4)] else []) ∧ t.tel.desc = s.tel.desc ∧ (∀ i < 8, i ≠ n.val → t.link i = s.link i) ∧ RegsOnly [TL_FEC.CORR n.val, TL_FRM.APPLIED n.val, TL_FERR.LOST n.val] s t ∧ Frame [.regs, .tel] s t) ∧
  (∀ (s : State) (n : Fin 8) (raw : BitVec 4360) (bad : List (Fin 65536)) (corr : Bool) (p : List Byte) (u : Fin 16), s.tel.links.length = 8 → s.tlState n.val = 6 → s.rxWord n.val raw.toNat = .decoded corr p → bad = [] → crc32c ((slice p 8 256).take 252) = leAt (slice p 8 256) 252 4 → crc32c ((slice p 264 256).take 252) = leAt (slice p 264 256) 252 4 → leAt (slice p 8 256) 0 1 = 2 → leAt (slice p 8 256) 1 1 = 0 → leAt (slice p 8 256) 8 4 = 0 → leAt (slice p 264 256) 0 1 = 0 → parseBlocks (slice (slice p 8 256) 12 240) 61 0 = some [] → (s.link n.val).exp = none → (s.link n.val).queue.length < 512 → (∀ k < 16, s.on (TFAB_TRG_CFG.EN k) = (k == u.val)) → s.get (TFAB_TRG_CFG.SRC u.val) = 3 → s.get (TFAB_TRG_CFG.INDEX u.val) % 8 = n.val → s.get (TFAB_TRG_THR.THR u.val) = leAt (slice p 8 256) 4 4 → s.get TFAB_STS.REC_STATE = 1 → s.gated 8 = false → s.get TFAB_REC_CFG.POST ≠ 0 →
    ∃ t, exec (.codewordRx n raw bad) s = .next t ∧ t.get TFAB_STS.REC_STATE = 2 ∧ t.tel.postLeft = s.get TFAB_REC_CFG.POST ∧ t.tel.buf = none ∧ t.get TFAB_REC_SEQ.LAST = s.openSeq ∧ t.get TFAB_REC_TSRC.UNIT = u.val ∧ t.get TFAB_REC_TRIG.BUFSEQ = s.openSeq ∧ t.fw.irq = s.fw.irq ||| 2 ^ 20 ∧ RegsOnly [TL_FEC.CORR n.val, TL_FRM.APPLIED n.val, TL_FERR.LOST n.val, TFAB_REC_SEQ.LAST, TFAB_REC_FIRST.FIRST, TFAB_STS.REC_STATE, TFAB_REC_TSRC.UNIT, TFAB_REC_TRIG.BUFSEQ] s t ∧ Frame [.regs, .clk, .tel, .fw, .mem] s t) ∧
  (∀ (s : State) (n : Fin 8) (raw : BitVec 4360) (bad : List (Fin 65536)) (corr : Bool) (p : List Byte) (ch v : Nat) (w : Bool), s.tel.links.length = 8 → s.tlState n.val = 6 → s.rxWord n.val raw.toNat = .decoded corr p → bad = [] → crc32c ((slice p 8 256).take 252) = leAt (slice p 8 256) 252 4 → crc32c ((slice p 264 256).take 252) = leAt (slice p 264 256) 252 4 → leAt (slice p 8 256) 0 1 = 1 → leAt (slice p 8 256) 1 1 = 0 → leAt (slice p 8 256) 8 4 = 0 → leAt (slice p 264 256) 0 1 = 0 → parseBlocks (slice (slice p 8 256) 12 240) 61 0 = some [{ first := ch, wide := w, vals := [v] }] → (s.desc (8192 * n.val + ch)).valid = true → (s.desc (8192 * n.val + ch)).recEn = true → w = fmtWide (s.desc (8192 * n.val + ch)).fmt → (∀ u < 16, s.on (TFAB_TRG_CFG.EN u) = false) → s.recAccepts = true → (s.link n.val).queue.length < 512 → (s.link n.val).exp = none →
    ∃ t, exec (.codewordRx n raw bad) s = .next t ∧ (t.dst (8192 * n.val + ch)).latest = convert (s.desc (8192 * n.val + ch)) v ∧ (t.link n.val).queue = (s.link n.val).queue ++ (if (s.dst (8192 * n.val + ch)).dec = 0 then [{ ts := s.topNow, ch := ch, acc := n.val, mask := 1, flags := b2n s.fb, vals := [convert (s.desc (8192 * n.val + ch)) v] }] else []) ∧ (t.dst (8192 * n.val + ch)).dec = ((s.dst (8192 * n.val + ch)).dec + 1) % ((s.desc (8192 * n.val + ch)).dec + 1) ∧ (∀ i < 8, i ≠ n.val → t.link i = s.link i) ∧ RegsOnly [TL_FEC.CORR n.val, TL_FRM.APPLIED n.val, TL_VERR2.NAN n.val, TL_FERR.LOST n.val] s t ∧ Frame [.regs, .tel] s t) ∧
  (∀ (s : State) (n : Fin 8) (raw : BitVec 4360) (bad : List (Fin 65536)) (corr : Bool) (p : List Byte) (ch v : Nat) (w : Bool) (u : Fin 16), s.tel.links.length = 8 → s.tlState n.val = 6 → s.rxWord n.val raw.toNat = .decoded corr p → bad = [] → crc32c ((slice p 8 256).take 252) = leAt (slice p 8 256) 252 4 → crc32c ((slice p 264 256).take 252) = leAt (slice p 264 256) 252 4 → leAt (slice p 8 256) 0 1 = 1 → leAt (slice p 8 256) 1 1 = 0 → leAt (slice p 8 256) 8 4 = 0 → leAt (slice p 264 256) 0 1 = 0 → parseBlocks (slice (slice p 8 256) 12 240) 61 0 = some [{ first := ch, wide := w, vals := [v] }] → (s.desc (8192 * n.val + ch)).valid = true → (s.desc (8192 * n.val + ch)).recEn = false → w = fmtWide (s.desc (8192 * n.val + ch)).fmt → (∀ k < 16, s.on (TFAB_TRG_CFG.EN k) = (k == u.val)) → s.get (TFAB_TRG_CFG.SRC u.val) = 0 → s.get (TFAB_TRG_CFG.INDEX u.val) = 8192 * n.val + ch → (s.dst (8192 * n.val + ch)).has = true → lt32 (s.get (TFAB_TRG_THR.THR u.val)) (convert (s.desc (8192 * n.val + ch)) v) = true → lt32 (s.get (TFAB_TRG_THR.THR u.val)) (s.dst (8192 * n.val + ch)).latest = false → s.get TFAB_STS.REC_STATE = 1 → s.gated 8 = false → s.get TFAB_REC_CFG.POST ≠ 0 →
    ∃ t, exec (.codewordRx n raw bad) s = .next t ∧ (t.dst (8192 * n.val + ch)).latest = convert (s.desc (8192 * n.val + ch)) v ∧ t.get TFAB_STS.REC_STATE = 2 ∧ t.tel.postLeft = s.get TFAB_REC_CFG.POST ∧ t.tel.buf = none ∧ t.get TFAB_REC_SEQ.LAST = s.openSeq ∧ t.get TFAB_REC_TSRC.UNIT = u.val ∧ t.get TFAB_REC_TRIG.BUFSEQ = s.openSeq ∧ t.fw.irq = s.fw.irq ||| 2 ^ 20 ∧ RegsOnly [TL_FEC.CORR n.val, TL_FRM.APPLIED n.val, TL_VERR2.NAN n.val, TL_FERR.LOST n.val, TFAB_REC_SEQ.LAST, TFAB_REC_FIRST.FIRST, TFAB_STS.REC_STATE, TFAB_REC_TSRC.UNIT, TFAB_REC_TRIG.BUFSEQ] s t ∧ Frame [.regs, .clk, .tel, .fw, .mem] s t) ∧
  (∀ (s : State) (n : Fin 8) (raw : BitVec 4360) (bad : List (Fin 65536)) (i : Fin 65536), (s.tlState n.val = 6 ∨ s.tlState n.val = 5) → s.rxWord n.val raw.toNat = .uncorrectable → bad = [i] → s.tel.ecc.contains i.val = false →
    ∃ t, exec (.codewordRx n raw bad) s = .next t ∧ t.on TFAB_STS.MAP_ECC = true ∧ t.get TFAB_MAP_ERR.LAST_IDX = i.val ∧ t.get TFAB_MAP_ERR.CNT = satCount 16 (s.get TFAB_MAP_ERR.CNT) 1 ∧ (t.desc i.val).valid = false ∧ t.brg = (s.logTop EVT_TLF_MAP_ECC (i.val / 8192) UNIT_TFAB 0 [(0, 2, i.val)]).brg ∧ RegsOnly [TL_FEC.UNCORR n.val, TFAB_STS.MAP_ECC, TFAB_MAP_ERR.LAST_IDX, TFAB_MAP_ERR.CNT] s t ∧ Frame [.regs, .brg, .tel] s t)

/-- An allowed MAP_DONE sets MAP_LOADED for a Keeper and only completes for another writer. Outside LOWPWR, when the window of a descriptor that holds values has ended, its minimum, maximum and mean are published and the window empties, its latest value and rate staying; otherwise nothing changes. Outside LOWPWR, at a rate boundary of a valid descriptor the latest value, or NaN when stale, is kept for the next boundary, and the rate is that of R207 over the kept one, NaN without one; published statistics and latest value stay; an invalid descriptor does not change. In LOWPWR neither boundary changes anything. At the first Top-die tick for a microsecond with the Bridge UP, meeting no uncorrectable descriptor, the fabric queues exactly the GUARD messages of 16 positions that hold an enabled descriptor, none where none is enabled; a second one for that microsecond, or with the Bridge not UP, queues nothing. A descriptor that the assembly finds uncorrectable for the first time sets MAP_ECC and LAST_IDX, counts and acts as invalid; with the Top die in reset the assembly does nothing. The rate's computation through a wider format is log entry 25. -/
def Obligations.MapStatisticsAndGuardValues : Prop :=
  (∀ (s : State) (ini : Initiator), s.judge ini true TFAB_CTL.MAP_DONE.addr = .allowed → fromKeeper ini = true →
    ∃ t, exec (.mapDone ini) s = .next t ∧ t.on TFAB_STS.MAP_LOADED = true ∧ t.bus = .written ∧ RegsOnly [TFAB_STS.MAP_LOADED] s t ∧ Frame [.regs, .bus] s t) ∧
  (∀ (s : State) (ini : Initiator), s.judge ini true TFAB_CTL.MAP_DONE.addr = .allowed → fromKeeper ini = false →
    ∃ t, exec (.mapDone ini) s = .next t ∧ t.bus = .written ∧ Frame [.bus] s t) ∧
  (∀ (s : State) (i : Fin 65536), s.tlState (i.val / 8192) ≠ 7 → (s.dst i.val).n ≠ 0 → (s.dst i.val).win ≠ s.topNow / (2 ^ (s.desc i.val).win * 1000) →
    ∃ t, exec (.statWindowBoundary i) s = .next t ∧ (t.dst i.val).pub = some ((s.dst i.val).lo, (s.dst i.val).hi, rnd32 ((s.dst i.val).sum.quot (Dy.ofInt (s.dst i.val).n))) ∧ (t.dst i.val).n = 0 ∧ (t.dst i.val).latest = (s.dst i.val).latest ∧ (t.dst i.val).rate = (s.dst i.val).rate ∧ (∀ j, j ≠ i.val → t.dst j = s.dst j) ∧ Frame [.tel] s t) ∧
  (∀ (s : State) (i : Fin 65536), ((s.dst i.val).n = 0 ∨ (s.dst i.val).win = s.topNow / (2 ^ (s.desc i.val).win * 1000) ∨ s.tlState (i.val / 8192) = 7) → exec (.statWindowBoundary i) s = .next s) ∧
  (∀ (s : State) (i : Fin 65536), s.tlState (i.val / 8192) ≠ 7 → (s.desc i.val).valid = true →
    ∃ t, exec (.rateBoundary i) s = .next t ∧ (t.dst i.val).prev = some (if s.descStale i.val then nan32 else (s.dst i.val).latest) ∧ ((s.dst i.val).prev = none → (t.dst i.val).rate = nan32) ∧ (∀ p ∈ (s.dst i.val).prev, (t.dst i.val).rate = rateOf p (if s.descStale i.val then nan32 else (s.dst i.val).latest) (s.desc i.val).roc) ∧ (t.dst i.val).pub = (s.dst i.val).pub ∧ (t.dst i.val).latest = (s.dst i.val).latest ∧ (∀ j, j ≠ i.val → t.dst j = s.dst j) ∧ Frame [.tel] s t) ∧
  (∀ (s : State) (i : Fin 65536), ((s.desc i.val).valid = false ∨ s.tlState (i.val / 8192) = 7) → exec (.rateBoundary i) s = .next s) ∧
  (∀ (s : State) (bad : List (Fin 65536)), bad = [] → s.pwr.topRst = false → s.bridgeUp = true → s.tel.guardUs ≠ some (s.topNow / 1000 - 1) →
    ∃ t, exec (.guardAssembly bad) s = .next t ∧ t.brg.guardQ = s.brg.guardQ ++ (List.range 14).filterMap (s.guardMsg (s.topNow / 1000 - 1)) ∧ (s.guardDescs = [] → t.brg.guardQ = s.brg.guardQ) ∧ Frame [.brg, .tel] s t) ∧
  (∀ (s : State) (bad : List (Fin 65536)), s.pwr.topRst = true → exec (.guardAssembly bad) s = .next s) ∧
  (∀ (s : State) (bad : List (Fin 65536)), bad = [] → (s.bridgeUp = false ∨ s.tel.guardUs = some (s.topNow / 1000 - 1)) → exec (.guardAssembly bad) s = .next s) ∧
  (∀ (s : State) (bad : List (Fin 65536)) (i : Fin 65536), bad = [i] → s.pwr.topRst = false → s.bridgeUp = false → s.tel.ecc.contains i.val = false →
    ∃ t, exec (.guardAssembly bad) s = .next t ∧ t.on TFAB_STS.MAP_ECC = true ∧ t.get TFAB_MAP_ERR.LAST_IDX = i.val ∧ t.get TFAB_MAP_ERR.CNT = satCount 16 (s.get TFAB_MAP_ERR.CNT) 1 ∧ (t.desc i.val).valid = false ∧ RegsOnly [TFAB_STS.MAP_ECC, TFAB_MAP_ERR.LAST_IDX, TFAB_MAP_ERR.CNT] s t ∧ Frame [.regs, .brg, .tel] s t)

/-- In RUN and POST the writer takes the next record in turn into the open buffer: it leaves its queue, and with LPDDR5X initialised stands at its place in memory, nothing else there changing; in RUN the record that fills the buffer closes it. With nothing queued, in another state, or while the port of the writer (domain 8) or of LPDDR5X (4) takes no request, nothing changes; the writer's clock stopped, it neither closes nor triggers. An open buffer with records closes when the flush time has passed, unless FLUSH is 7, and outside POST on an allowed FLUSH write: REC_SEQ becomes its number, and nothing is written outside its header there. In POST a buffer closed by the flush time counts, and the last one freezes the recorder and drops what is queued. SWTRIG in RUN closes the buffer with its number in REC_TRIG and UNIT 0x10 and leads to POST with the buffers of POST to follow and source 20 raised, or with POST 0 to FROZEN, what is queued dropped; in POST and FROZEN it counts in MISS; in OFF it only completes. REARM leads from FROZEN to RUN with the descriptors' counters at 0; elsewhere it only completes. REC_RUN set on a usable ring starts the recorder, FIRST moving to the open buffer where the LPDDR5X training has ended and no ring survived; on another ring it is only logged; written 0 it stops the recorder and drops what is queued. TFAB_CNT_CLR zeroes its three counters. Queued records dropped at a freeze and SWTRIG alone counted in FROZEN are log entry 26. -/
def Obligations.FlightRecorderRuns : Prop :=
  (∀ (s : State) (n : Nat) (r : RecItem) (b : RecBuf), s.tel.links.length = 8 → s.portShut 8 = false → s.gateAsked 4 = false → n < 8 → s.recAccepts = true → s.recTurn = some (n, r) → s.tel.buf = some b → b.recs.length < 62 →
    ∃ t, exec (.recordWrite) s = .next t ∧ t.tel.buf = some { b with recs := r :: b.recs } ∧ (t.link n).queue = (s.link n).queue.drop 1 ∧ t.tel.rr = n ∧ (∀ i < 8, i ≠ n → t.link i = s.link i) ∧ (s.on LPC_STS.INIT_DONE = true → s.gated 4 = false → memBytes t.mem (s.bufAddr s.openSeq + 64 * (b.recs.length + 1)) 64 = r.bytes) ∧ (∀ a, ¬(s.bufAddr s.openSeq + 64 * (b.recs.length + 1) ≤ a ∧ a < s.bufAddr s.openSeq + 64 * (b.recs.length + 2)) → memRead t.mem a = memRead s.mem a) ∧ Frame [.tel, .mem] s t) ∧
  (∀ (s : State) (n : Nat) (r : RecItem) (b : RecBuf), s.tel.links.length = 8 → s.portShut 8 = false → s.gateAsked 4 = false → s.get TFAB_STS.REC_STATE = 1 → s.recTurn = some (n, r) → s.tel.buf = some b → b.recs.length = 62 →
    ∃ t, exec (.recordWrite) s = .next t ∧ t.tel.buf = none ∧ t.get TFAB_REC_SEQ.LAST = s.openSeq ∧ (∀ a, ¬(s.bufAddr s.openSeq ≤ a ∧ a < s.bufAddr s.openSeq + 0x1000) → memRead t.mem a = memRead s.mem a) ∧ RegsOnly [TFAB_REC_SEQ.LAST] s t ∧ Frame [.regs, .tel, .mem] s t) ∧
  (∀ (s : State), (s.recAccepts = false ∨ s.recTurn = none ∨ s.portShut 8 = true ∨ s.gateAsked 4 = true) → exec (.recordWrite) s = .next s) ∧
  (∀ (s : State) (b : RecBuf), s.tel.buf = some b → b.recs ≠ [] → s.gated 8 = false → s.get TFAB_REC_CFG.FLUSH ≠ 7 → s.get TFAB_STS.REC_STATE ≠ 2 →
    ∃ t, exec (.recFlushTimer) s = .next t ∧ t.tel.buf = none ∧ t.get TFAB_REC_SEQ.LAST = s.openSeq ∧ (∀ a, ¬(s.bufAddr s.openSeq ≤ a ∧ a < s.bufAddr s.openSeq + 64) → memRead t.mem a = memRead s.mem a) ∧ RegsOnly [TFAB_REC_SEQ.LAST] s t ∧ Frame [.regs, .clk, .tel, .mem] s t) ∧
  (∀ (s : State) (b : RecBuf), s.tel.buf = some b → b.recs ≠ [] → s.gated 8 = false → s.get TFAB_REC_CFG.FLUSH ≠ 7 → s.get TFAB_STS.REC_STATE = 2 → 1 < s.tel.postLeft →
    ∃ t, exec (.recFlushTimer) s = .next t ∧ t.tel.buf = none ∧ t.get TFAB_REC_SEQ.LAST = s.openSeq ∧ t.get TFAB_STS.REC_STATE = 2 ∧ t.tel.postLeft = s.tel.postLeft - 1 ∧ RegsOnly [TFAB_REC_SEQ.LAST] s t ∧ Frame [.regs, .clk, .tel, .mem] s t) ∧
  (∀ (s : State) (b : RecBuf), s.tel.buf = some b → b.recs ≠ [] → s.gated 8 = false → s.get TFAB_REC_CFG.FLUSH ≠ 7 → s.get TFAB_STS.REC_STATE = 2 → s.tel.postLeft = 1 →
    ∃ t, exec (.recFlushTimer) s = .next t ∧ t.tel.buf = none ∧ t.get TFAB_REC_SEQ.LAST = s.openSeq ∧ t.get TFAB_STS.REC_STATE = 3 ∧ (∀ i < 8, (t.link i).queue = []) ∧ RegsOnly [TFAB_REC_SEQ.LAST, TFAB_STS.REC_STATE] s t ∧ Frame [.regs, .clk, .tel, .mem] s t) ∧
  (∀ (s : State), (s.get TFAB_REC_CFG.FLUSH = 7 ∨ s.tel.buf = none ∨ s.gated 8 = true) → exec (.recFlushTimer) s = .next s) ∧
  (∀ (s : State) (ini : Initiator), s.judge ini true TFAB_REC_CTL.REARM.addr = .allowed → s.get TFAB_STS.REC_STATE = 3 →
    ∃ t, exec (.recRearm ini) s = .next t ∧ t.get TFAB_STS.REC_STATE = 1 ∧ t.tel.desc = s.tel.desc.map (fun e => (e.1, { e.2 with dec := 0 })) ∧ t.bus = .written ∧ RegsOnly [TFAB_STS.REC_STATE] s t ∧ Frame [.regs, .tel, .bus] s t) ∧
  (∀ (s : State) (ini : Initiator), s.judge ini true TFAB_REC_CTL.REARM.addr = .allowed → s.get TFAB_STS.REC_STATE ≠ 3 →
    ∃ t, exec (.recRearm ini) s = .next t ∧ t.bus = .written ∧ Frame [.bus] s t) ∧
  (∀ (s : State) (ini : Initiator), s.judge ini true TFAB_REC_CTL.SWTRIG.addr = .allowed → s.gated 8 = false → s.get TFAB_STS.REC_STATE = 1 → s.get TFAB_REC_CFG.POST ≠ 0 →
    ∃ t, exec (.recSwtrig ini) s = .next t ∧ t.tel.buf = none ∧ t.get TFAB_REC_SEQ.LAST = s.openSeq ∧ t.get TFAB_STS.REC_STATE = 2 ∧ t.tel.postLeft = s.get TFAB_REC_CFG.POST ∧ t.get TFAB_REC_TSRC.UNIT = 0x10 ∧ t.get TFAB_REC_TRIG.BUFSEQ = s.openSeq ∧ t.fw.irq = s.fw.irq ||| 2 ^ 20 ∧ t.bus = .written ∧ RegsOnly [TFAB_REC_SEQ.LAST, TFAB_REC_FIRST.FIRST, TFAB_STS.REC_STATE, TFAB_REC_TSRC.UNIT, TFAB_REC_TRIG.BUFSEQ] s t ∧ Frame [.regs, .clk, .tel, .fw, .bus, .mem] s t) ∧
  (∀ (s : State) (ini : Initiator), s.judge ini true TFAB_REC_CTL.SWTRIG.addr = .allowed → s.gated 8 = false → s.get TFAB_STS.REC_STATE = 1 → s.get TFAB_REC_CFG.POST = 0 →
    ∃ t, exec (.recSwtrig ini) s = .next t ∧ t.tel.buf = none ∧ t.get TFAB_REC_SEQ.LAST = s.openSeq ∧ t.get TFAB_STS.REC_STATE = 3 ∧ (∀ i < 8, (t.link i).queue = []) ∧ t.get TFAB_REC_TSRC.UNIT = 0x10 ∧ t.get TFAB_REC_TRIG.BUFSEQ = s.openSeq ∧ RegsOnly [TFAB_REC_SEQ.LAST, TFAB_REC_FIRST.FIRST, TFAB_STS.REC_STATE, TFAB_REC_TSRC.UNIT, TFAB_REC_TRIG.BUFSEQ] s t ∧ Frame [.regs, .clk, .tel, .fw, .bus, .mem] s t) ∧
  (∀ (s : State) (ini : Initiator), s.judge ini true TFAB_REC_CTL.SWTRIG.addr = .allowed → s.gated 8 = false → (s.get TFAB_STS.REC_STATE = 2 ∨ s.get TFAB_STS.REC_STATE = 3) →
    ∃ t, exec (.recSwtrig ini) s = .next t ∧ t.get TFAB_REC_TSRC.MISS = satCount 16 (s.get TFAB_REC_TSRC.MISS) 1 ∧ t.bus = .written ∧ RegsOnly [TFAB_REC_TSRC.MISS] s t ∧ Frame [.regs, .bus] s t) ∧
  (∀ (s : State) (ini : Initiator), s.judge ini true TFAB_REC_CTL.SWTRIG.addr = .allowed → s.gated 8 = true →
    ∃ t, exec (.recSwtrig ini) s = .next t ∧ t.bus = .written ∧ Frame [.bus] s t) ∧
  (∀ (s : State) (ini : Initiator), s.judge ini true TFAB_REC_CTL.FLUSH.addr = .allowed → s.gated 8 = true →
    ∃ t, exec (.recFlush ini) s = .next t ∧ t.bus = .written ∧ Frame [.bus] s t) ∧
  (∀ (s : State) (ini : Initiator), s.judge ini true TFAB_REC_CTL.SWTRIG.addr = .allowed → s.gated 8 = false → s.get TFAB_STS.REC_STATE = 0 →
    ∃ t, exec (.recSwtrig ini) s = .next t ∧ t.bus = .written ∧ Frame [.bus] s t) ∧
  (∀ (s : State) (ini : Initiator) (b : RecBuf), s.judge ini true TFAB_REC_CTL.FLUSH.addr = .allowed → s.tel.buf = some b → b.recs ≠ [] → s.gated 8 = false → s.get TFAB_STS.REC_STATE ≠ 2 →
    ∃ t, exec (.recFlush ini) s = .next t ∧ t.tel.buf = none ∧ t.get TFAB_REC_SEQ.LAST = s.openSeq ∧ (∀ a, ¬(s.bufAddr s.openSeq ≤ a ∧ a < s.bufAddr s.openSeq + 64) → memRead t.mem a = memRead s.mem a) ∧ t.bus = .written ∧ RegsOnly [TFAB_REC_SEQ.LAST] s t ∧ Frame [.regs, .clk, .tel, .bus, .mem] s t) ∧
  (∀ (s : State) (ini : Initiator), s.judge ini true TFAB_REC_CTL.FLUSH.addr = .allowed → s.tel.buf = none →
    ∃ t, exec (.recFlush ini) s = .next t ∧ t.bus = .written ∧ Frame [.bus] s t) ∧
  (∀ (s : State) (ini : Initiator) (on : Bool), s.judge ini true TFAB_CTL.REC_RUN.addr = .allowed → on = true → s.on TFAB_CTL.REC_RUN = false → s.ringOk = true →
    ∃ t, exec (.recRun ini on) s = .next t ∧ t.on TFAB_CTL.REC_RUN = true ∧ t.get TFAB_STS.REC_STATE = 1 ∧ t.get TFAB_REC_FIRST.FIRST = (if (s.on LPC_STS.INIT_DONE = true ∨ s.tel.lpEnded = true) ∧ s.tel.survived = false then s.openSeq else s.get TFAB_REC_FIRST.FIRST) ∧ t.tel.restart = true ∧ t.tel.buf = none ∧ t.bus = .written ∧ RegsOnly [TFAB_CTL.REC_RUN, TFAB_STS.REC_STATE, TFAB_REC_FIRST.FIRST] s t ∧ Frame [.regs, .tel, .bus] s t) ∧
  (∀ (s : State) (ini : Initiator) (on : Bool), s.judge ini true TFAB_CTL.REC_RUN.addr = .allowed → on = true → s.on TFAB_CTL.REC_RUN = false → s.ringOk = false →
    ∃ t, exec (.recRun ini on) s = .next t ∧ t.brg = (s.logTop EVT_REC_CFG ACC_TRAY UNIT_TFAB 0 [(0, 4, s.get TFAB_REC_SIZE.NBUF), (4, 4, s.get TFAB_REC_BASE.BASE)]).brg ∧ t.bus = .written ∧ Frame [.brg, .bus] s t) ∧
  (∀ (s : State) (ini : Initiator) (on : Bool), s.judge ini true TFAB_CTL.REC_RUN.addr = .allowed → on = false →
    ∃ t, exec (.recRun ini on) s = .next t ∧ t.on TFAB_CTL.REC_RUN = false ∧ t.get TFAB_STS.REC_STATE = 0 ∧ t.tel.buf = none ∧ (∀ i < 8, (t.link i).queue = []) ∧ t.bus = .written ∧ RegsOnly [TFAB_CTL.REC_RUN, TFAB_STS.REC_STATE] s t ∧ Frame [.regs, .tel, .bus] s t) ∧
  (∀ (s : State) (ini : Initiator), s.judge ini true TFAB_CNT_CLR.CLR.addr = .allowed →
    ∃ t, exec (.tfabCntClr ini) s = .next t ∧ t.get TFAB_MAP_ERR.CNT = 0 ∧ t.get TFAB_REC_TSRC.MISS = 0 ∧ t.get TFAB_REC_DROP.DROPPED = 0 ∧ t.bus = .written ∧ RegsOnly [TFAB_MAP_ERR.CNT, TFAB_REC_TSRC.MISS, TFAB_REC_DROP.DROPPED] s t ∧ Frame [.regs, .bus] s t)

/-- EN = 1 on a LOADED slot enables it when the check answers 0, writing no memory but the Signature Table, and none where the slot has no active image in flash; on a LOADED or EMPTY slot with another code, EN is cleared, the code goes to REFUSE (1 on an EMPTY slot) and the refusal is logged; in other states it only completes. EN = 0 on an ENABLED slot drops its waiting run and leads to STOPPING when a run is in progress, else to LOADED; in other states it clears EN. ABORT on a running slot lets land what is due by then, drops the rest, and ends the run with STATE_BAD, cause 9 and the position of the next bundle, drops a waiting run, leads to LOADED and with the Bridge UP releases its ports; without a run ENABLED goes to LOADED, its waiting run dropped and its ports released; elsewhere it only completes. STATE_INIT in LOADED or FAULT without an adaptation block zeroes the state windows of those of the slot's clusters whose ports take requests (none where all are shut, log entry 50); with or without one it clears STATE_BAD and leaves the slot's state, adaptation IDLE; elsewhere it only completes. CLR_FAULT leads from FAULT to LOADED, elsewhere it only completes. STOP_ALL does to every slot what EN = 0 does. ADAPT_RST leaves DISABLED for IDLE, keeps another adaptation state and zeroes RUN_RB. INF_CNT_CLR zeroes the counters named here. EN = 1 ignored in FAULT and STOPPING is log entry 29, the signatures' source log entry 50. -/
def Obligations.InfuserSlotsAreControlled : Prop :=
  (∀ (s : State) (ini : Initiator) (n : Fin 16), s.judge ini true (INF_SLOT_CTL.EN n.val).addr = .allowed → s.slotSt n.val = 1 → s.enableCheck n.val = 0 →
    ∃ t, exec (.slotEnable ini n) s = .next t ∧ t.slotSt n.val = 2 ∧ t.on (INF_SLOT_CTL.EN n.val) = true ∧ (∀ a, ¬(0x0402000000 ≤ a ∧ a < 0x0402080000) → memRead t.mem a = memRead s.mem a) ∧ (look (16 + n.val) s.flash = none → t.mem = s.mem) ∧ t.bus = .written ∧ RegsOnly [INF_SLOT_STS.STATE n.val, INF_SLOT_CTL.EN n.val] s t ∧ Frame [.regs, .sil, .brg, .bus, .mem] s t) ∧
  (∀ (s : State) (ini : Initiator) (n : Fin 16), s.judge ini true (INF_SLOT_CTL.EN n.val).addr = .allowed → (s.slotSt n.val = 1 ∨ s.slotSt n.val = 0) → s.enableCheck n.val ≠ 0 →
    ∃ t, exec (.slotEnable ini n) s = .next t ∧ t.slotSt n.val = s.slotSt n.val ∧ t.on (INF_SLOT_CTL.EN n.val) = false ∧ t.get (INF_SLOT_STS.REFUSE n.val) = s.enableCheck n.val ∧ (s.slotSt n.val = 0 → t.get (INF_SLOT_STS.REFUSE n.val) = 1) ∧ t.brg = (s.logTop EVT_INF_REFUSED (s.slotAcc n.val) UNIT_INF n.val [(0, 1, n.val), (1, 1, s.enableCheck n.val)]).brg ∧ t.bus = .written ∧ RegsOnly [INF_SLOT_CTL.EN n.val, INF_SLOT_STS.REFUSE n.val] s t ∧ Frame [.regs, .brg, .bus] s t) ∧
  (∀ (s : State) (ini : Initiator) (n : Fin 16), s.judge ini true (INF_SLOT_CTL.EN n.val).addr = .allowed → 2 ≤ s.slotSt n.val →
    ∃ t, exec (.slotEnable ini n) s = .next t ∧ t.bus = .written ∧ Frame [.bus] s t) ∧
  (∀ (s : State) (ini : Initiator) (n : Fin 16), s.judge ini true (INF_SLOT_CTL.EN n.val).addr = .allowed → s.inf.slots.length = 16 → s.slotSt n.val = 2 →
    ∃ t, exec (.slotDisable ini n) s = .next t ∧ t.on (INF_SLOT_CTL.EN n.val) = false ∧ t.slotSt n.val = (if (s.islot n.val).run.isSome then 3 else 1) ∧ (t.islot n.val).due = none ∧ (t.islot n.val).run = (s.islot n.val).run ∧ (∀ i < 16, i ≠ n.val → t.islot i = s.islot i) ∧ t.bus = .written ∧ RegsOnly [INF_SLOT_CTL.EN n.val, INF_SLOT_STS.STATE n.val, INF_SLOT_STS.RUN n.val, INF_SLOT_STS.PEND n.val, INF_STS.RUNNING, INF_STS.CL_BUSY] s t ∧ Frame [.regs, .inf, .bus] s t) ∧
  (∀ (s : State) (ini : Initiator) (n : Fin 16), s.judge ini true (INF_SLOT_CTL.EN n.val).addr = .allowed → s.slotSt n.val ≠ 2 →
    ∃ t, exec (.slotDisable ini n) s = .next t ∧ t.on (INF_SLOT_CTL.EN n.val) = false ∧ t.bus = .written ∧ RegsOnly [INF_SLOT_CTL.EN n.val] s t ∧ Frame [.regs, .bus] s t) ∧
  (∀ (s : State) (ini : Initiator) (n : Fin 16) (r : InfRun), s.judge ini true (INF_SLOT_CTL.ABORT n.val).addr = .allowed → s.inf.slots.length = 16 → (s.islot n.val).run = some r → r.pend = [] →
    ∃ t, exec (.slotAbort ini n) s = .next t ∧ t.slotSt n.val = 1 ∧ t.on (INF_SLOT_STS.STATE_BAD n.val) = true ∧ t.get (INF_SLOT_STS.CAUSE n.val) = 9 ∧ t.get (INF_SLOT_FPOS.BUNDLE n.val) = r.bundle % 2 ^ (INF_SLOT_FPOS.BUNDLE n.val).w ∧ t.get (INF_SLOT_FCYC.CYCLE n.val) = r.cyc % 2 ^ (INF_SLOT_FCYC.CYCLE n.val).w ∧ (t.islot n.val).run = none ∧ (t.islot n.val).due = none ∧ (∀ i < 16, i ≠ n.val → t.islot i = s.islot i) ∧ (s.bridgeUp = true → t.brg.guardQ = s.brg.guardQ ++ [.release (s.slotPorts n.val)]) ∧ t.bus = .written ∧ RegsOnly [INF_SLOT_STS.STATE n.val, INF_SLOT_STS.STATE_BAD n.val, INF_SLOT_STS.CAUSE n.val, INF_SLOT_FPOS.BUNDLE n.val, INF_SLOT_FCYC.CYCLE n.val, INF_SLOT_STS.RUN n.val, INF_SLOT_STS.PEND n.val, INF_STS.RUNNING, INF_STS.CL_BUSY] s t ∧ Frame [.regs, .brg, .inf, .bus] s t) ∧
  (∀ (s : State) (ini : Initiator) (n : Fin 16) (r : InfRun) (c cl v l x : Nat) (tag : Bool), s.judge ini true (INF_SLOT_CTL.ABORT n.val).addr = .allowed → s.inf.slots.length = 16 → s.inf.cls.length = 4 → (s.islot n.val).run = some r → r.pend = [{ cyc := c, prio := 0, wr := .lane cl v l x tag }] → cl < 4 →
    ∃ t, exec (.slotAbort ini n) s = .next t ∧ t.clGet cl (keyLane v l) = (if c ≤ min r.cyc (s.get (INF_SLOT_PROG.CYC n.val) - 1) then x % 2 ^ 32 + (if tag then 2 ^ 32 else 0) else s.clGet cl (keyLane v l)) ∧ (t.islot n.val).run = none ∧ t.slotSt n.val = 1 ∧ t.bus = .written ∧ RegsOnly [INF_SLOT_STS.STATE n.val, INF_SLOT_STS.STATE_BAD n.val, INF_SLOT_STS.CAUSE n.val, INF_SLOT_FPOS.BUNDLE n.val, INF_SLOT_FCYC.CYCLE n.val, INF_SLOT_STS.RUN n.val, INF_SLOT_STS.PEND n.val, INF_STS.RUNNING, INF_STS.CL_BUSY] s t ∧ Frame [.regs, .brg, .inf, .bus] s t) ∧
  (∀ (s : State) (ini : Initiator) (n : Fin 16), s.judge ini true (INF_SLOT_CTL.ABORT n.val).addr = .allowed → s.inf.slots.length = 16 → (s.islot n.val).run = none → s.slotSt n.val = 2 →
    ∃ t, exec (.slotAbort ini n) s = .next t ∧ t.slotSt n.val = 1 ∧ (t.islot n.val).due = none ∧ (∀ i < 16, i ≠ n.val → t.islot i = s.islot i) ∧ (s.bridgeUp = true → t.brg.guardQ = s.brg.guardQ ++ [.release (s.slotPorts n.val)]) ∧ t.bus = .written ∧ RegsOnly [INF_SLOT_STS.STATE n.val, INF_SLOT_STS.RUN n.val, INF_SLOT_STS.PEND n.val, INF_STS.RUNNING, INF_STS.CL_BUSY] s t ∧ Frame [.regs, .brg, .inf, .bus] s t) ∧
  (∀ (s : State) (ini : Initiator) (n : Fin 16), s.judge ini true (INF_SLOT_CTL.ABORT n.val).addr = .allowed → (s.islot n.val).run = none → s.slotSt n.val ≠ 2 →
    ∃ t, exec (.slotAbort ini n) s = .next t ∧ t.bus = .written ∧ Frame [.bus] s t) ∧
  (∀ (s : State) (ini : Initiator) (n : Fin 16) (c a : Nat), s.judge ini true (INF_SLOT_CTL.STATE_INIT n.val).addr = .allowed → (s.slotSt n.val = 1 ∨ s.slotSt n.val = 4) → (s.islot n.val).adImg = [] → c < 4 → bitOf (s.clmask n.val) c = true → s.portShut c = false → (s.stateWin n.val c).1 ≤ a → a < (s.stateWin n.val c).1 + (s.stateWin n.val c).2 →
    ∃ t, exec (.stateInit ini n) s = .next t ∧ memRead t.mem a = 0 ∧ t.on (INF_SLOT_STS.STATE_BAD n.val) = false ∧ t.get (INF_SLOT_ADSTS.STATE n.val) = 0 ∧ t.slotSt n.val = s.slotSt n.val ∧ (t.islot n.val).rollback = false ∧ t.bus = .written ∧ RegsOnly [INF_SLOT_STS.STATE_BAD n.val, INF_SLOT_ADSTS.STATE n.val] s t ∧ Frame [.regs, .clk, .inf, .bus, .mem] s t) ∧
  (∀ (s : State) (ini : Initiator) (n : Fin 16), s.judge ini true (INF_SLOT_CTL.STATE_INIT n.val).addr = .allowed → (s.slotSt n.val = 1 ∨ s.slotSt n.val = 4) →
    ∃ t, exec (.stateInit ini n) s = .next t ∧ t.on (INF_SLOT_STS.STATE_BAD n.val) = false ∧ t.get (INF_SLOT_ADSTS.STATE n.val) = 0 ∧ t.slotSt n.val = s.slotSt n.val ∧ t.bus = .written ∧ RegsOnly [INF_SLOT_STS.STATE_BAD n.val, INF_SLOT_ADSTS.STATE n.val] s t ∧ Frame [.regs, .clk, .inf, .bus, .mem] s t) ∧
  (∀ (s : State) (ini : Initiator) (n : Fin 16), s.judge ini true (INF_SLOT_CTL.STATE_INIT n.val).addr = .allowed → (s.slotSt n.val = 1 ∨ s.slotSt n.val = 4) → (s.islot n.val).adImg = [] → ((∀ c < 4, bitOf (s.clmask n.val) c = true → s.portShut c = true)) →
    ∃ t, exec (.stateInit ini n) s = .next t ∧ t.mem = s.mem ∧ t.bus = .written ∧ RegsOnly [INF_SLOT_STS.STATE_BAD n.val, INF_SLOT_ADSTS.STATE n.val] s t ∧ Frame [.regs, .clk, .inf, .bus, .mem] s t) ∧
  (∀ (s : State) (ini : Initiator) (n : Fin 16), s.judge ini true (INF_SLOT_CTL.STATE_INIT n.val).addr = .allowed → s.slotSt n.val ≠ 1 → s.slotSt n.val ≠ 4 →
    ∃ t, exec (.stateInit ini n) s = .next t ∧ t.bus = .written ∧ Frame [.bus] s t) ∧
  (∀ (s : State) (ini : Initiator) (n : Fin 16), s.judge ini true (INF_SLOT_CTL.CLR_FAULT n.val).addr = .allowed → s.slotSt n.val = 4 →
    ∃ t, exec (.clrFault ini n) s = .next t ∧ t.slotSt n.val = 1 ∧ t.bus = .written ∧ RegsOnly [INF_SLOT_STS.STATE n.val] s t ∧ Frame [.regs, .bus] s t) ∧
  (∀ (s : State) (ini : Initiator) (n : Fin 16), s.judge ini true (INF_SLOT_CTL.CLR_FAULT n.val).addr = .allowed → s.slotSt n.val ≠ 4 →
    ∃ t, exec (.clrFault ini n) s = .next t ∧ t.bus = .written ∧ Frame [.bus] s t) ∧
  (∀ (s : State) (ini : Initiator), s.judge ini true INF_CTL.STOP_ALL.addr = .allowed → s.inf.slots.length = 16 →
    ∃ t, exec (.stopAll ini) s = .next t ∧ (∀ n < 16, t.on (INF_SLOT_CTL.EN n) = false) ∧ (∀ n < 16, s.slotSt n = 2 → t.slotSt n = (if (s.islot n).run.isSome then 3 else 1) ∧ (t.islot n).due = none) ∧ (∀ n < 16, s.slotSt n ≠ 2 → t.slotSt n = s.slotSt n) ∧ t.bus = .written ∧ RegsOnly ([INF_STS.RUNNING, INF_STS.CL_BUSY] ++ (List.range 16).flatMap (fun n => [INF_SLOT_CTL.EN n, INF_SLOT_STS.STATE n, INF_SLOT_STS.RUN n, INF_SLOT_STS.PEND n])) s t ∧ Frame [.regs, .inf, .bus] s t) ∧
  (∀ (s : State) (ini : Initiator) (n : Fin 16), s.judge ini true (INF_SLOT_ADSTS.ADAPT_RST n.val).addr = .allowed →
    ∃ t, exec (.adaptRst ini n) s = .next t ∧ t.get (INF_SLOT_ADSTS.RUN_RB n.val) = 0 ∧ t.get (INF_SLOT_ADSTS.STATE n.val) = (if s.get (INF_SLOT_ADSTS.STATE n.val) = 3 then 0 else s.get (INF_SLOT_ADSTS.STATE n.val)) ∧ t.bus = .written ∧ RegsOnly [INF_SLOT_ADSTS.RUN_RB n.val, INF_SLOT_ADSTS.STATE n.val] s t ∧ Frame [.regs, .bus] s t) ∧
  (∀ (s : State) (ini : Initiator), s.judge ini true INF_CNT_CLR.CLR.addr = .allowed →
    ∃ t, exec (.infCntClr ini) s = .next t ∧ (∀ n < 16, t.get (INF_SLOT_RUNS.CNT n) = 0 ∧ t.get (INF_SLOT_SKIP.SKIP n) = 0 ∧ t.get (INF_SLOT_SKIP.LATE n) = 0 ∧ t.get (INF_SLOT_ADSTS.COMMITS n) = 0 ∧ t.get (INF_SLOT_ADSTS.ROLLBACKS n) = 0 ∧ t.get (INF_SLOT_ADREF.REFUSED n) = 0 ∧ t.get (INF_SLOT_ADREF.CONFIRMED n) = 0 ∧ t.get (INF_SLOT_SAT.SAT_CNT n) = 0 ∧ t.get (INF_SLOT_SAT.NAN_CNT n) = 0 ∧ t.get (INF_SLOT_OUT.CLAMP n) = 0 ∧ t.get (INF_SLOT_OUT.NANDROP n) = 0) ∧ t.get INF_ECC_CNT.CORR = 0 ∧ t.get INF_ECC_CNT.UNCORR = 0 ∧ t.get INF_OUTQ.DROP = 0 ∧ t.bus = .written ∧ RegsOnly ([INF_ECC_CNT.CORR, INF_ECC_CNT.UNCORR, INF_OUTQ.DROP] ++ (List.range 16).flatMap (fun n => [INF_SLOT_RUNS.CNT n, INF_SLOT_SKIP.SKIP n, INF_SLOT_SKIP.LATE n, INF_SLOT_ADSTS.COMMITS n, INF_SLOT_ADSTS.ROLLBACKS n, INF_SLOT_ADREF.REFUSED n, INF_SLOT_ADREF.CONFIRMED n, INF_SLOT_SAT.SAT_CNT n, INF_SLOT_SAT.NAN_CNT n, INF_SLOT_OUT.CLAMP n, INF_SLOT_OUT.NANDROP n])) s t ∧ Frame [.regs, .bus] s t)

/-- A tick of an ENABLED slot, not HELD, makes a run due with its timestamp; or replaces a waiting tick's run and counts in SKIP; or while PLL1 is not locked only counts there; otherwise nothing happens. A due run of a slot with no rollback waiting starts when it may, at bundle 0 and cycle 0, and no longer waits; the first one since the load finds the clusters' registers without a value that a program has written. Where nothing waits to land and no check bit is wrong: a group whose checks pass puts everything its bundles do on its way and moves on to the next repeat or group; a group with one failing check faults the slot with that cause and position, drops the run and, with the Bridge UP, releases the ports. A single waiting lane result, or store of a slot with no adaptation block, lands when its cycle has come and changes nothing else of the registers or memory; a store that meets the header or elements of the adaptation block changes no memory and sets WPROT (log entry 48). A finished run with nothing waiting and no commit ends, counts in RUNS, and leads a STOPPING slot to LOADED. Without such a run these do nothing. -/
def Obligations.InfuserRunsExecute : Prop :=
  (∀ (s : State) (n : Fin 16), s.inf.slots.length = 16 → s.slotSt n.val = 2 → s.isTick n.val = true → s.on INF_STS.HELD = false → s.on INF_STS.PLL1_OK = true → (s.islot n.val).due = none →
    ∃ t, exec (.slotTick n) s = .next t ∧ (t.islot n.val).due = some (s.topNow, true) ∧ (t.islot n.val).run = (s.islot n.val).run ∧ (∀ i < 16, i ≠ n.val → t.islot i = s.islot i) ∧ t.on (INF_SLOT_STS.PEND n.val) = true ∧ RegsOnly [INF_SLOT_STS.RUN n.val, INF_SLOT_STS.PEND n.val, INF_STS.RUNNING, INF_STS.CL_BUSY] s t ∧ Frame [.regs, .inf] s t) ∧
  (∀ (s : State) (n : Fin 16) (ts : Nat), s.inf.slots.length = 16 → s.slotSt n.val = 2 → s.isTick n.val = true → s.on INF_STS.HELD = false → s.on INF_STS.PLL1_OK = true → (s.islot n.val).due = some (ts, true) →
    ∃ t, exec (.slotTick n) s = .next t ∧ (t.islot n.val).due = some (s.topNow, true) ∧ (∀ i < 16, i ≠ n.val → t.islot i = s.islot i) ∧ t.get (INF_SLOT_SKIP.SKIP n.val) = satCount (INF_SLOT_SKIP.SKIP n.val).w (s.get (INF_SLOT_SKIP.SKIP n.val)) 1 ∧ RegsOnly [INF_SLOT_STS.RUN n.val, INF_SLOT_STS.PEND n.val, INF_STS.RUNNING, INF_STS.CL_BUSY, INF_SLOT_SKIP.SKIP n.val] s t ∧ Frame [.regs, .inf] s t) ∧
  (∀ (s : State) (n : Fin 16), s.slotSt n.val = 2 → s.isTick n.val = true → s.on INF_STS.HELD = false → s.on INF_STS.PLL1_OK = false →
    ∃ t, exec (.slotTick n) s = .next t ∧ t.get (INF_SLOT_SKIP.SKIP n.val) = satCount (INF_SLOT_SKIP.SKIP n.val).w (s.get (INF_SLOT_SKIP.SKIP n.val)) 1 ∧ RegsOnly [INF_SLOT_SKIP.SKIP n.val] s t ∧ Frame [.regs] s t) ∧
  (∀ (s : State) (n : Fin 16), (s.slotSt n.val ≠ 2 ∨ s.isTick n.val = false ∨ s.on INF_STS.HELD = true) → exec (.slotTick n) s = .next s) ∧
  (∀ (s : State) (n : Fin 16) (ecc : Ecc), s.inf.slots.length = 16 → s.mayStart n.val = true → (s.islot n.val).fresh = false → (s.islot n.val).rollback = false →
    ∃ t, exec (.runStart n ecc) s = .next t ∧ (t.islot n.val).run = some { bundle := 0, rep := 0, cyc := 0, pend := [], adapt := false, nanStop := false, done := false } ∧ (t.islot n.val).due = none ∧ t.on (INF_SLOT_STS.RUN n.val) = true ∧ (∀ i < 16, i ≠ n.val → t.islot i = s.islot i) ∧ RegsOnly [INF_SLOT_STS.RUN n.val, INF_SLOT_STS.PEND n.val, INF_STS.RUNNING, INF_STS.CL_BUSY, INF_SLOT_SKIP.LATE n.val, INF_SLOT_DELAY.LAST n.val, INF_SLOT_DELAY.MAX n.val] s t ∧ Frame [.regs, .inf] s t) ∧
  (∀ (s : State) (n : Fin 16) (ecc : Ecc), s.inf.slots.length = 16 → s.mayStart n.val = true → (s.islot n.val).fresh = true → (s.islot n.val).rollback = false →
    ∃ t, exec (.runStart n ecc) s = .next t ∧ (t.islot n.val).run = some { bundle := 0, rep := 0, cyc := 0, pend := [], adapt := false, nanStop := false, done := false } ∧ (t.islot n.val).due = none ∧ (t.islot n.val).fresh = false ∧ (∀ c < 4, bitOf (s.clmask n.val) c = true → (t.inf.cls.getD c {}).regs = []) ∧ RegsOnly [INF_SLOT_STS.RUN n.val, INF_SLOT_STS.PEND n.val, INF_STS.RUNNING, INF_STS.CL_BUSY, INF_SLOT_SKIP.LATE n.val, INF_SLOT_DELAY.LAST n.val, INF_SLOT_DELAY.MAX n.val] s t ∧ Frame [.regs, .inf, .fresh] s t) ∧
  (∀ (s : State) (n : Fin 16) (ecc : Ecc), s.mayStart n.val = false → exec (.runStart n ecc) s = .next s) ∧
  (∀ (s : State) (n : Fin 16) (ecc : Ecc) (bad : List (Fin 65536)) (r : InfRun), s.inf.slots.length = 16 → (s.islot n.val).run = some r → r.done = false → r.pend = [] → ecc = { corrected := 0, uncorr := false } → bad = [] → s.groupCauses n.val r.bundle r.rep (s.groupFrom n.val r.bundle 5) false = [] →
    ∃ t, exec (.issueGroup n ecc bad) s = .next t ∧ (t.islot n.val).run = some (r.advance (s.groupFrom n.val r.bundle 5) ((s.groupFrom n.val r.bundle 5).flatMap (fun b => s.bundleOps n.val b r.rep r.cyc))) ∧ (t.islot n.val).due = (s.islot n.val).due ∧ (∀ i < 16, i ≠ n.val → t.islot i = s.islot i) ∧ Frame [.inf] s t) ∧
  (∀ (s : State) (n : Fin 16) (ecc : Ecc) (bad : List (Fin 65536)) (r : InfRun) (b c : Nat), s.inf.slots.length = 16 → (s.islot n.val).run = some r → r.done = false → r.pend = [] → ecc = { corrected := 0, uncorr := false } → bad = [] → s.groupCauses n.val r.bundle r.rep (s.groupFrom n.val r.bundle 5) false = [(b, c)] →
    ∃ t, exec (.issueGroup n ecc bad) s = .next t ∧ t.slotSt n.val = 4 ∧ t.on (INF_SLOT_STS.STATE_BAD n.val) = true ∧ t.get (INF_SLOT_STS.CAUSE n.val) = c % 16 ∧ t.get (INF_SLOT_FPOS.BUNDLE n.val) = b % 2 ^ (INF_SLOT_FPOS.BUNDLE n.val).w ∧ t.get (INF_SLOT_FCYC.CYCLE n.val) = r.cyc % 2 ^ (INF_SLOT_FCYC.CYCLE n.val).w ∧ (t.islot n.val).run = none ∧ (t.islot n.val).due = none ∧ (∀ i < 16, i ≠ n.val → t.islot i = s.islot i) ∧ (s.bridgeUp = true → t.brg.guardQ = s.brg.guardQ ++ [.release (s.slotPorts n.val)]) ∧ t.on INF_ERR.FAULT = true ∧ RegsOnly [INF_SLOT_STS.STATE n.val, INF_SLOT_STS.STATE_BAD n.val, INF_SLOT_STS.CAUSE n.val, INF_SLOT_FPOS.BUNDLE n.val, INF_SLOT_FCYC.CYCLE n.val, INF_SLOT_STS.RUN n.val, INF_SLOT_STS.PEND n.val, INF_STS.RUNNING, INF_STS.CL_BUSY, INF_ERR.FAULT] s t ∧ Frame [.regs, .brg, .inf, .fw] s t) ∧
  (∀ (s : State) (n : Fin 16) (ecc : Ecc) (bad : List (Fin 65536)), (s.islot n.val).run = none → exec (.issueGroup n ecc bad) s = .next s) ∧
  (∀ (s : State) (n : Fin 16) (r : InfRun) (c cl v l x : Nat) (tag : Bool), s.inf.slots.length = 16 → s.inf.cls.length = 4 → (s.islot n.val).run = some r → r.pend = [{ cyc := c, prio := 0, wr := .lane cl v l x tag }] → c ≤ s.landLimit n.val r → cl < 4 →
    ∃ t, exec (.resultWriteback n) s = .next t ∧ t.clGet cl (keyLane v l) = x % 2 ^ 32 + (if tag then 2 ^ 32 else 0) ∧ (t.islot n.val).run = some { r with pend := [] } ∧ (∀ i < 16, i ≠ n.val → t.islot i = s.islot i) ∧ (∀ k < 20000, k ≠ keyLane v l → t.clGet cl k = s.clGet cl k) ∧ Frame [.inf] s t) ∧
  (∀ (s : State) (n : Fin 16) (r : InfRun) (c a : Nat) (bs : List Byte), s.inf.slots.length = 16 → (s.islot n.val).run = some r → r.pend = [{ cyc := c, prio := 0, wr := .store a bs }] → c ≤ s.landLimit n.val r → s.hasAdapt n.val = false →
    ∃ t, exec (.resultWriteback n) s = .next t ∧ memBytes t.mem a bs.length = bs ∧ (∀ x, ¬(a ≤ x ∧ x < a + bs.length) → memRead t.mem x = memRead s.mem x) ∧ (t.islot n.val).run = some { r with pend := [] } ∧ (∀ i < 16, i ≠ n.val → t.islot i = s.islot i) ∧ Frame [.inf, .mem] s t) ∧
  (∀ (s : State) (n : Fin 16) (r : InfRun) (c a : Nat) (bs : List Byte), s.inf.slots.length = 16 → (s.islot n.val).run = some r → r.pend = [{ cyc := c, prio := 0, wr := .store a bs }] → c ≤ s.landLimit n.val r → s.hasAdapt n.val = true → meets a bs.length (s.adAddr n.val) (16 + 16 * s.adCount n.val) = true →
    ∃ t, exec (.resultWriteback n) s = .next t ∧ t.on INF_ERR.WPROT = true ∧ (t.islot n.val).run = some { r with pend := [] } ∧ (∀ i < 16, i ≠ n.val → t.islot i = s.islot i) ∧ RegsOnly [INF_ERR.WPROT] s t ∧ Frame [.regs, .brg, .inf, .fw] s t) ∧
  (∀ (s : State) (n : Fin 16), (s.islot n.val).run = none → exec (.resultWriteback n) s = .next s) ∧
  (∀ (s : State) (n : Fin 16) (ecc : Ecc) (r : InfRun), s.inf.slots.length = 16 → (s.islot n.val).run = some r → r.done = true → r.pend = [] → r.adapt = false →
    ∃ t, exec (.runEnd n ecc) s = .next t ∧ (t.islot n.val).run = none ∧ (t.islot n.val).due = (s.islot n.val).due ∧ t.on (INF_SLOT_STS.RUN n.val) = false ∧ t.get (INF_SLOT_RUNS.CNT n.val) = (s.get (INF_SLOT_RUNS.CNT n.val) + 1) % 2 ^ 32 ∧ t.slotSt n.val = (if s.slotSt n.val = 3 then 1 else s.slotSt n.val) ∧ (∀ i < 16, i ≠ n.val → t.islot i = s.islot i) ∧ RegsOnly [INF_SLOT_STS.RUN n.val, INF_SLOT_STS.PEND n.val, INF_STS.RUNNING, INF_STS.CL_BUSY, INF_SLOT_RUNS.CNT n.val, INF_SLOT_STS.STATE n.val] s t ∧ Frame [.regs, .inf] s t) ∧
  (∀ (s : State) (n : Fin 16) (ecc : Ecc) (r : InfRun), (s.islot n.val).run = some r → r.done = false → exec (.runEnd n ecc) s = .next s)

/-- Of operands whose check bits show no uncorrectable word: a finished run with nothing waiting that asked for a commit ends; where the commit is refused it counts in REFUSED, the adaptation state stays and no memory changes; where it is not, it opens the window, counts in COMMITS, and gives every element, CONF its CUR and CUR the value of R158 by its type. A run that starts with a rollback waiting ends that wait, gives every CUR its CONF and changes no other byte, counts in ROLLBACKS and RUN_RB, logs EVT_INF_ROLLBACK, and leads to HOLD, or to DISABLED with the ROLL_MAX + 1st in a row. Corrected words are counted. An uncorrectable word among those read then faults the slot with cause 7, changes no memory and leaves the adaptation state, at the end of a run as at its start (the positions named are log entry 50). A window that ends with no rollback waiting confirms: every CONF takes its CUR and no other byte changes, CONFIRMED counts, RUN_RB is 0 and the state is IDLE; with the port of the block's cluster shut memory stays (log entry 50); with a rollback waiting, or outside WINDOW, nothing happens. The memory clauses are of a block that does not lie in the slot's own program memory. HOLD ends in IDLE, another state stays. While the Bridge is UP the oldest words of the output queue, at most 16 and at most what the 32 of the microsecond leave, go onto GUARD in one message; with none to go, or the Bridge not UP, nothing happens. The messages of 16 and the 32 of a microsecond are log entry 50. -/
def Obligations.InfuserAdaptsAndProposes : Prop :=
  (∀ (s : State) (n : Fin 16) (ecc : Ecc) (r : InfRun), s.inf.slots.length = 16 → (s.islot n.val).run = some r → r.done = true → r.pend = [] → r.adapt = true → s.hasAdapt n.val = true → ecc.uncorr = false → s.adRefuses n.val = true →
    ∃ t, exec (.runEnd n ecc) s = .next t ∧ t.get INF_ECC_CNT.CORR = satCount INF_ECC_CNT.CORR.w (s.get INF_ECC_CNT.CORR) ecc.corrected ∧ (t.islot n.val).run = none ∧ t.get (INF_SLOT_ADREF.REFUSED n.val) = satCount (INF_SLOT_ADREF.REFUSED n.val).w (s.get (INF_SLOT_ADREF.REFUSED n.val)) 1 ∧ t.get (INF_SLOT_ADSTS.STATE n.val) = s.get (INF_SLOT_ADSTS.STATE n.val) ∧ RegsOnly [INF_SLOT_STS.RUN n.val, INF_SLOT_STS.PEND n.val, INF_STS.RUNNING, INF_STS.CL_BUSY, INF_SLOT_RUNS.CNT n.val, INF_SLOT_STS.STATE n.val, INF_ECC_CNT.CORR, INF_ERR.ECC_CORR, INF_SLOT_ADREF.REFUSED n.val] s t ∧ Frame [.regs, .brg, .inf, .fw] s t) ∧
  (∀ (s : State) (n : Fin 16) (ecc : Ecc) (r : InfRun), s.inf.slots.length = 16 → (s.islot n.val).run = some r → r.done = true → r.pend = [] → r.adapt = true → s.hasAdapt n.val = true → ecc.uncorr = false → s.adRefuses n.val = false → (s.adAddr n.val + 16 + 20 * s.adCount n.val ≤ slotBase n.val ∨ slotBase n.val + 0x40000 ≤ s.adAddr n.val) →
    ∃ t, exec (.runEnd n ecc) s = .next t ∧ (∀ k < s.adCount n.val, leNat (memBytes t.mem (s.adWordAddr n.val k 2) 4) = s.adWord n.val k 1) ∧ (∀ k < s.adCount n.val, s.adType n.val k = 1 → leNat (memBytes t.mem (s.adWordAddr n.val k 1) 4) = unsgn 32 (clampI (clampI (-2147483648) 2147483647 (sgn 32 (s.adWord n.val k 0) - (sgn 32 (s.adWord n.val k 3) * (s.get (INF_SLOT_ADCFG.BAND n.val) : Int)).tdiv 256)) (clampI (-2147483648) 2147483647 (sgn 32 (s.adWord n.val k 0) + (sgn 32 (s.adWord n.val k 3) * (s.get (INF_SLOT_ADCFG.BAND n.val) : Int)).tdiv 256)) (clampI (-2147483648) 2147483647 (sgn 32 (s.adWord n.val k 1) + clampI (-((sgn 32 (s.adWord n.val k 3) * (s.get (INF_SLOT_ADCFG.STEP n.val) : Int)).tdiv 256)) ((sgn 32 (s.adWord n.val k 3) * (s.get (INF_SLOT_ADCFG.STEP n.val) : Int)).tdiv 256) (sgn 32 (s.adDelta n.val k)))))) ∧ (∀ k < s.adCount n.val, s.adType n.val k = 2 → leNat (memBytes t.mem (s.adWordAddr n.val k 1) 4) = unsgn 32 (clampI 1 65535 (clampI (clampI (-2147483648) 2147483647 (sgn 32 (s.adWord n.val k 0) - (sgn 32 (s.adWord n.val k 3) * (s.get (INF_SLOT_ADCFG.BAND n.val) : Int)).tdiv 256)) (clampI (-2147483648) 2147483647 (sgn 32 (s.adWord n.val k 0) + (sgn 32 (s.adWord n.val k 3) * (s.get (INF_SLOT_ADCFG.BAND n.val) : Int)).tdiv 256)) (clampI (-2147483648) 2147483647 (sgn 32 (s.adWord n.val k 1) + clampI (-((sgn 32 (s.adWord n.val k 3) * (s.get (INF_SLOT_ADCFG.STEP n.val) : Int)).tdiv 256)) ((sgn 32 (s.adWord n.val k 3) * (s.get (INF_SLOT_ADCFG.STEP n.val) : Int)).tdiv 256) (sgn 32 (s.adDelta n.val k))))))) ∧ (∀ k < s.adCount n.val, s.adType n.val k = 0 → leNat (memBytes t.mem (s.adWordAddr n.val k 1) 4) = clampF (laneSub (s.adWord n.val k 0) (fracF (s.adWord n.val k 3) (s.get (INF_SLOT_ADCFG.BAND n.val)))).1 (laneAdd (s.adWord n.val k 0) (fracF (s.adWord n.val k 3) (s.get (INF_SLOT_ADCFG.BAND n.val)))).1 (laneAdd (s.adWord n.val k 1) (clampF (negF (fracF (s.adWord n.val k 3) (s.get (INF_SLOT_ADCFG.STEP n.val)))) (fracF (s.adWord n.val k 3) (s.get (INF_SLOT_ADCFG.STEP n.val))) (s.adDelta n.val k))).1) ∧ t.get INF_ECC_CNT.CORR = satCount INF_ECC_CNT.CORR.w (s.get INF_ECC_CNT.CORR) ecc.corrected ∧ (t.islot n.val).run = none ∧ t.get (INF_SLOT_ADSTS.COMMITS n.val) = satCount (INF_SLOT_ADSTS.COMMITS n.val).w (s.get (INF_SLOT_ADSTS.COMMITS n.val)) 1 ∧ t.get (INF_SLOT_ADSTS.STATE n.val) = 1 ∧ RegsOnly [INF_SLOT_STS.RUN n.val, INF_SLOT_STS.PEND n.val, INF_STS.RUNNING, INF_STS.CL_BUSY, INF_SLOT_RUNS.CNT n.val, INF_SLOT_STS.STATE n.val, INF_ECC_CNT.CORR, INF_ERR.ECC_CORR, INF_SLOT_ADSTS.COMMITS n.val, INF_SLOT_ADSTS.STATE n.val] s t ∧ Frame [.regs, .brg, .inf, .fw, .mem, .fresh] s t) ∧
  (∀ (s : State) (n : Fin 16) (ecc : Ecc) (r : InfRun), s.inf.slots.length = 16 → (s.islot n.val).run = some r → r.done = true → r.pend = [] → r.adapt = true → s.hasAdapt n.val = true → ecc.uncorr = true →
    ∃ t, exec (.runEnd n ecc) s = .next t ∧ t.slotSt n.val = 4 ∧ t.on (INF_SLOT_STS.STATE_BAD n.val) = true ∧ t.get (INF_SLOT_STS.CAUSE n.val) = 7 ∧ t.get (INF_SLOT_FPOS.BUNDLE n.val) = r.bundle % 2 ^ (INF_SLOT_FPOS.BUNDLE n.val).w ∧ t.get (INF_SLOT_FCYC.CYCLE n.val) = (s.get (INF_SLOT_PROG.CYC n.val)) % 2 ^ (INF_SLOT_FCYC.CYCLE n.val).w ∧ (t.islot n.val).run = none ∧ (t.islot n.val).due = none ∧ (∀ i < 16, i ≠ n.val → t.islot i = s.islot i) ∧ (s.bridgeUp = true → t.brg.guardQ = s.brg.guardQ ++ [.release (s.slotPorts n.val)]) ∧ t.mem = s.mem ∧ t.on INF_ERR.FAULT = true ∧ t.get INF_ECC_CNT.UNCORR = satCount INF_ECC_CNT.UNCORR.w (s.get INF_ECC_CNT.UNCORR) 1 ∧ t.get (INF_SLOT_ADSTS.STATE n.val) = s.get (INF_SLOT_ADSTS.STATE n.val) ∧ RegsOnly [INF_SLOT_STS.STATE n.val, INF_SLOT_STS.STATE_BAD n.val, INF_SLOT_STS.CAUSE n.val, INF_SLOT_FPOS.BUNDLE n.val, INF_SLOT_FCYC.CYCLE n.val, INF_SLOT_STS.RUN n.val, INF_SLOT_STS.PEND n.val, INF_STS.RUNNING, INF_STS.CL_BUSY, INF_ERR.FAULT, INF_ERR.ECC_UNCORR, INF_ECC_CNT.UNCORR, INF_ECC_CNT.CORR, INF_ERR.ECC_CORR] s t ∧ Frame [.regs, .brg, .inf, .fw] s t) ∧
  (∀ (s : State) (n : Fin 16), s.get (INF_SLOT_ADSTS.STATE n.val) = 1 → (s.islot n.val).rollback = false → s.portShut (s.hdrAt n.val 120 1) = false → (s.adAddr n.val + 16 + 20 * s.adCount n.val ≤ slotBase n.val ∨ slotBase n.val + 0x40000 ≤ s.adAddr n.val) →
    ∃ t, exec (.adaptWindowEnd n) s = .next t ∧ (∀ k < s.adCount n.val, leNat (memBytes t.mem (s.adWordAddr n.val k 2) 4) = s.adWord n.val k 1) ∧ (∀ a, (∀ k < s.adCount n.val, ¬(s.adWordAddr n.val k 2 ≤ a ∧ a < s.adWordAddr n.val k 2 + 4)) → memRead t.mem a = memRead s.mem a) ∧ t.get (INF_SLOT_ADSTS.STATE n.val) = 0 ∧ t.get (INF_SLOT_ADSTS.RUN_RB n.val) = 0 ∧ t.get (INF_SLOT_ADREF.CONFIRMED n.val) = satCount (INF_SLOT_ADREF.CONFIRMED n.val).w (s.get (INF_SLOT_ADREF.CONFIRMED n.val)) 1 ∧ RegsOnly [INF_SLOT_ADSTS.STATE n.val, INF_SLOT_ADSTS.RUN_RB n.val, INF_SLOT_ADREF.CONFIRMED n.val] s t ∧ Frame [.regs, .mem] s t) ∧
  (∀ (s : State) (n : Fin 16), s.get (INF_SLOT_ADSTS.STATE n.val) = 1 → (s.islot n.val).rollback = false → s.portShut (s.hdrAt n.val 120 1) = true →
    ∃ t, exec (.adaptWindowEnd n) s = .next t ∧ t.mem = s.mem ∧ (s.gated (s.hdrAt n.val 120 1) = true → t.clk = s.clk) ∧ t.get (INF_SLOT_ADSTS.STATE n.val) = 0 ∧ t.get (INF_SLOT_ADSTS.RUN_RB n.val) = 0 ∧ t.get (INF_SLOT_ADREF.CONFIRMED n.val) = satCount (INF_SLOT_ADREF.CONFIRMED n.val).w (s.get (INF_SLOT_ADREF.CONFIRMED n.val)) 1 ∧ RegsOnly [INF_SLOT_ADSTS.STATE n.val, INF_SLOT_ADSTS.RUN_RB n.val, INF_SLOT_ADREF.CONFIRMED n.val] s t ∧ Frame [.regs, .clk] s t) ∧
  (∀ (s : State) (n : Fin 16), (s.get (INF_SLOT_ADSTS.STATE n.val) ≠ 1 ∨ (s.islot n.val).rollback = true) → exec (.adaptWindowEnd n) s = .next s) ∧
  (∀ (s : State) (n : Fin 16) (ecc : Ecc), s.inf.slots.length = 16 → s.mayStart n.val = true → (s.islot n.val).fresh = false → (s.islot n.val).rollback = true → ecc.uncorr = false → (s.adAddr n.val + 16 + 20 * s.adCount n.val ≤ slotBase n.val ∨ slotBase n.val + 0x40000 ≤ s.adAddr n.val) →
    ∃ t, exec (.runStart n ecc) s = .next t ∧ (∀ k < s.adCount n.val, leNat (memBytes t.mem (s.adWordAddr n.val k 1) 4) = s.adWord n.val k 2) ∧ (∀ a, (∀ k < s.adCount n.val, ¬(s.adWordAddr n.val k 1 ≤ a ∧ a < s.adWordAddr n.val k 1 + 4)) → memRead t.mem a = memRead s.mem a) ∧ t.brg = (s.logTop EVT_INF_ROLLBACK (s.slotAcc n.val) UNIT_INF n.val [(0, 1, n.val), (1, 1, t.get (INF_SLOT_ADSTS.RUN_RB n.val)), (2, 1, t.get (INF_SLOT_ADSTS.ROLLBACKS n.val))]).brg ∧ t.get INF_ECC_CNT.CORR = satCount INF_ECC_CNT.CORR.w (s.get INF_ECC_CNT.CORR) ecc.corrected ∧ (t.islot n.val).run.isSome = true ∧ (t.islot n.val).rollback = false ∧ t.get (INF_SLOT_ADSTS.ROLLBACKS n.val) = satCount (INF_SLOT_ADSTS.ROLLBACKS n.val).w (s.get (INF_SLOT_ADSTS.ROLLBACKS n.val)) 1 ∧ t.get (INF_SLOT_ADSTS.RUN_RB n.val) = min 8 (s.get (INF_SLOT_ADSTS.RUN_RB n.val) + 1) ∧ t.get (INF_SLOT_ADSTS.STATE n.val) = (if s.get (INF_SLOT_ADCFG.ROLL_MAX n.val) + 1 ≤ min 8 (s.get (INF_SLOT_ADSTS.RUN_RB n.val) + 1) then 3 else 2) ∧ RegsOnly [INF_SLOT_STS.RUN n.val, INF_SLOT_STS.PEND n.val, INF_STS.RUNNING, INF_STS.CL_BUSY, INF_ECC_CNT.CORR, INF_ERR.ECC_CORR, INF_SLOT_SKIP.LATE n.val, INF_SLOT_DELAY.LAST n.val, INF_SLOT_DELAY.MAX n.val, INF_SLOT_ADSTS.ROLLBACKS n.val, INF_SLOT_ADSTS.RUN_RB n.val, INF_SLOT_ADSTS.STATE n.val] s t ∧ Frame [.regs, .brg, .inf, .fw, .mem] s t) ∧
  (∀ (s : State) (n : Fin 16) (ecc : Ecc), s.inf.slots.length = 16 → s.mayStart n.val = true → (s.islot n.val).fresh = false → (s.islot n.val).rollback = true → ecc.uncorr = true →
    ∃ t, exec (.runStart n ecc) s = .next t ∧ t.slotSt n.val = 4 ∧ t.on (INF_SLOT_STS.STATE_BAD n.val) = true ∧ t.get (INF_SLOT_STS.CAUSE n.val) = 7 ∧ t.get (INF_SLOT_FPOS.BUNDLE n.val) = 0 % 2 ^ (INF_SLOT_FPOS.BUNDLE n.val).w ∧ t.get (INF_SLOT_FCYC.CYCLE n.val) = 0 % 2 ^ (INF_SLOT_FCYC.CYCLE n.val).w ∧ (t.islot n.val).run = none ∧ (t.islot n.val).due = none ∧ (∀ i < 16, i ≠ n.val → t.islot i = s.islot i) ∧ (s.bridgeUp = true → t.brg.guardQ = s.brg.guardQ ++ [.release (s.slotPorts n.val)]) ∧ t.mem = s.mem ∧ (t.islot n.val).rollback = true ∧ t.get (INF_SLOT_ADSTS.STATE n.val) = s.get (INF_SLOT_ADSTS.STATE n.val) ∧ t.on INF_ERR.FAULT = true ∧ t.get INF_ECC_CNT.UNCORR = satCount INF_ECC_CNT.UNCORR.w (s.get INF_ECC_CNT.UNCORR) 1 ∧ RegsOnly [INF_SLOT_STS.STATE n.val, INF_SLOT_STS.STATE_BAD n.val, INF_SLOT_STS.CAUSE n.val, INF_SLOT_FPOS.BUNDLE n.val, INF_SLOT_FCYC.CYCLE n.val, INF_SLOT_STS.RUN n.val, INF_SLOT_STS.PEND n.val, INF_STS.RUNNING, INF_STS.CL_BUSY, INF_SLOT_SKIP.LATE n.val, INF_SLOT_DELAY.LAST n.val, INF_SLOT_DELAY.MAX n.val, INF_ERR.FAULT, INF_ERR.ECC_UNCORR, INF_ECC_CNT.UNCORR, INF_ECC_CNT.CORR, INF_ERR.ECC_CORR] s t ∧ Frame [.regs, .brg, .inf, .fw] s t) ∧
  (∀ (s : State) (n : Fin 16), s.get (INF_SLOT_ADSTS.STATE n.val) = 2 →
    ∃ t, exec (.adaptHoldEnd n) s = .next t ∧ t.get (INF_SLOT_ADSTS.STATE n.val) = 0 ∧ RegsOnly [INF_SLOT_ADSTS.STATE n.val] s t ∧ Frame [.regs] s t) ∧
  (∀ (s : State) (n : Fin 16), s.get (INF_SLOT_ADSTS.STATE n.val) ≠ 2 → exec (.adaptHoldEnd n) s = .next s) ∧
  (∀ (s : State) (k : Nat), s.bridgeUp = true → k = min (min 16 s.outRoom) s.inf.outQ.length → k ≠ 0 →
    ∃ t, exec (.outputQueueDrain) s = .next t ∧ t.inf.outQ = s.inf.outQ.drop k ∧ t.brg.guardQ = s.brg.guardQ ++ [.proposals ((s.inf.outQ.take k).map (fun w => (w.port, w.val)))] ∧ t.outRoom = s.outRoom - k ∧ Frame [.brg, .inf] s t) ∧
  (∀ (s : State), (s.inf.outQ = [] ∨ s.bridgeUp = false ∨ s.outRoom = 0) → exec (.outputQueueDrain) s = .next s)

/-- Of a bundle that issues alone with its checks passed, one field set used, nothing waiting to land and no check bit wrong, on any repeat r: what is on its way after, with its cycle. WF: weight blocks and scales for the tiles of WF_TMASK, after 3. TL: MAC of INT8, FP8 and INT4 with its sums and saturations after 4 (R126 to R128); ACC_ZERO and both loads after 3; a drain after 4: to a V register in every conversion, by ranks and lane groups (INT8 of one tile), to state unconverted and in BF16. VX (R133, R172): ADD, SUB, MUL, FMA after 6; MIN, MAX, CMP and both conversions after 4; SEL after 2; ACT and GATHER after 8; RECIP and RSQRT after 12, of a NaN, of zeros, and of what is negative for RSQRT (RSQRT(-0) left out); RSUM and RMAX after 10 by the tree of R134; RQ4 after 6, with a NaN among the lanes, and with a largest magnitude that is not 0. SR: a V register or XR after 3. SW after 2, SM after 24, XW after 8, OW after 2, each at its place on repeat r. Choices and readings of the model: row-major weights, the accumulator read when a MAC or a drain issues, lanes read as FP32 and moved as they stand by SEL, GATHER and SR (log entry 28); a shift of 48 to 63 in a drain, and a STEP_EXP outside -16 to 8 as a signed byte (log entry 50); XR past its 128 bytes and a lane past 31 are open values, the latter left out. -/
def Obligations.InfuserOperationsIssue : Prop :=
  (∀ (s : State) (n : Fin 16) (ecc : Ecc) (bad : List (Fin 65536)) (r : InfRun) (b : List Byte), s.inf.slots.length = 16 → (s.islot n.val).run = some r → r.done = false → r.pend = [] → ecc = { corrected := 0, uncorr := false } → bad = [] → s.groupFrom n.val r.bundle 5 = [b] → s.groupCauses n.val r.bundle r.rep [b] false = [] → leAt b 5 1 = 16 → leAt b 52 1 = 1 →
    ∃ t, exec (.issueGroup n ecc bad) s = .next t ∧ (∀ l < 32, ∃ p ∈ (((t.islot n.val).run.map (fun x => x.pend)).getD []), p.cyc = r.cyc + 6 ∧ p.wr = .lane (bCl b) (leAt b 53 1) l (laneAdd (s.lane (bCl b) (leAt b 54 1) l) (s.lane (bCl b) (leAt b 55 1) l)).1 false) ∧ Frame [.inf] s t) ∧
  (∀ (s : State) (n : Fin 16) (ecc : Ecc) (bad : List (Fin 65536)) (r : InfRun) (b : List Byte), s.inf.slots.length = 16 → (s.islot n.val).run = some r → r.done = false → r.pend = [] → ecc = { corrected := 0, uncorr := false } → bad = [] → s.groupFrom n.val r.bundle 5 = [b] → s.groupCauses n.val r.bundle r.rep [b] false = [] → leAt b 5 1 = 2 → leAt b 20 1 = 1 → leAt b 21 1 % 4 = 0 →
    ∃ t, exec (.issueGroup n ecc bad) s = .next t ∧ (∀ T < 8, bitOf (leAt b 22 1) T = true → ∃ p ∈ (((t.islot n.val).run.map (fun x => x.pend)).getD []), p.cyc = r.cyc + 4 ∧ p.wr = .mac (bCl b) T (leAt b 23 1) ((List.range 8).map (fun j => unsgn 32 (clampI (-2147483648) 2147483647 (sgn 32 ((s.accLanes (bCl b) T (leAt b 23 1)).getD j 0) + (List.range 8).foldl (fun a i => a + sgn 8 ((s.xrByte (bCl b) ((leAt b 24 1 + 8 * r.rep) % 128 + i)).toNat) * sgn 8 (s.clGet (bCl b) (keyWr T + (8 * i + j)) % 256)) 0)))) ((List.range 8).filter (fun j => (sgn 32 ((s.accLanes (bCl b) T (leAt b 23 1)).getD j 0) + (List.range 8).foldl (fun a i => a + sgn 8 ((s.xrByte (bCl b) ((leAt b 24 1 + 8 * r.rep) % 128 + i)).toNat) * sgn 8 (s.clGet (bCl b) (keyWr T + (8 * i + j)) % 256)) 0) < -2147483648 || 2147483647 < (sgn 32 ((s.accLanes (bCl b) T (leAt b 23 1)).getD j 0) + (List.range 8).foldl (fun a i => a + sgn 8 ((s.xrByte (bCl b) ((leAt b 24 1 + 8 * r.rep) % 128 + i)).toNat) * sgn 8 (s.clGet (bCl b) (keyWr T + (8 * i + j)) % 256)) 0))).length) ∧ Frame [.inf] s t) ∧
  (∀ (s : State) (n : Fin 16) (ecc : Ecc) (bad : List (Fin 65536)) (r : InfRun) (b : List Byte), s.inf.slots.length = 16 → (s.islot n.val).run = some r → r.done = false → r.pend = [] → ecc = { corrected := 0, uncorr := false } → bad = [] → s.groupFrom n.val r.bundle 5 = [b] → s.groupCauses n.val r.bundle r.rep [b] false = [] → leAt b 5 1 = 2 → leAt b 20 1 = 1 → leAt b 21 1 % 4 = 1 →
    ∃ t, exec (.issueGroup n ecc bad) s = .next t ∧ (∀ T < 8, bitOf (leAt b 22 1) T = true → ∃ p ∈ (((t.islot n.val).run.map (fun x => x.pend)).getD []), p.cyc = r.cyc + 4 ∧ p.wr = .mac (bCl b) T (leAt b 23 1) ((List.range 8).map (fun j => (accFp ((s.accLanes (bCl b) T (leAt b 23 1)).getD j 0) ((macFp8 (bitOf (leAt b 21 1) 2) (bitOf (leAt b 21 1) 3) (s.xrBytes (bCl b) ((leAt b 24 1 + 8 * r.rep) % 128) 8) (s.wrBytes (bCl b) T 64)).getD j none)).1)) ((List.range 8).filter (fun j => (accFp ((s.accLanes (bCl b) T (leAt b 23 1)).getD j 0) ((macFp8 (bitOf (leAt b 21 1) 2) (bitOf (leAt b 21 1) 3) (s.xrBytes (bCl b) ((leAt b 24 1 + 8 * r.rep) % 128) 8) (s.wrBytes (bCl b) T 64)).getD j none)).2)).length) ∧ Frame [.inf] s t) ∧
  (∀ (s : State) (n : Fin 16) (ecc : Ecc) (bad : List (Fin 65536)) (r : InfRun) (b : List Byte) (T : Nat), s.inf.slots.length = 16 → (s.islot n.val).run = some r → r.done = false → r.pend = [] → ecc = { corrected := 0, uncorr := false } → bad = [] → s.groupFrom n.val r.bundle 5 = [b] → s.groupCauses n.val r.bundle r.rep [b] false = [] → leAt b 5 1 = 2 → leAt b 20 1 = 5 → leAt b 26 1 % 8 = 0 → bitOf (leAt b 26 1) 4 = true → ranked (leAt b 22 1) = [(0, T)] →
    ∃ t, exec (.issueGroup n ecc bad) s = .next t ∧ (∀ i < 8, ∃ p ∈ (((t.islot n.val).run.map (fun x => x.pend)).getD []), p.cyc = r.cyc + 4 ∧ p.wr = .lane (bCl b) (leAt b 27 1 % 16) (8 * (leAt b 27 1 / 16 % 4) + i) (unsgn 32 (clampI (-128) 127 (roundInt (bitOf (leAt b 26 1) 3) ((Dy.ofInt (sgn 32 ((s.accLanes (bCl b) T (leAt b 23 1)).getD i 0) * (leNat (memBytes s.mem ((s.qWin n.val b).1 + leAt b 32 4 % 2 ^ 31 + 4 * i) 4) % 65536 : Nat))).scale (-(bitsOf (leNat (memBytes s.mem ((s.qWin n.val b).1 + leAt b 32 4 % 2 ^ 31 + 4 * i) 4)) 16 6 : Int)))))) false) ∧ Frame [.inf] s t) ∧
  (∀ (s : State) (n : Fin 16) (ecc : Ecc) (bad : List (Fin 65536)) (r : InfRun) (b : List Byte), s.inf.slots.length = 16 → (s.islot n.val).run = some r → r.done = false → r.pend = [] → ecc = { corrected := 0, uncorr := false } → bad = [] → s.groupFrom n.val r.bundle 5 = [b] → s.groupCauses n.val r.bundle r.rep [b] false = [] → leAt b 5 1 = 16 → leAt b 52 1 = 0x10 →
    ∃ t, exec (.issueGroup n ecc bad) s = .next t ∧ (∀ l < 32, dec32 (s.lane (bCl b) (leAt b 54 1) l) = none → ∃ p ∈ (((t.islot n.val).run.map (fun x => x.pend)).getD []), p.cyc = r.cyc + 4 ∧ p.wr = .lane (bCl b) (leAt b 53 1) l 0 true) ∧ (∀ l < 32, ∀ d ∈ dec32 (s.lane (bCl b) (leAt b 54 1) l), ∃ p ∈ (((t.islot n.val).run.map (fun x => x.pend)).getD []), p.cyc = r.cyc + 4 ∧ p.wr = .lane (bCl b) (leAt b 53 1) l (unsgn 32 (clampI (-2 ^ (cvtWidth (leAt b 57 1) - 1)) (2 ^ (cvtWidth (leAt b 57 1) - 1) - 1) (roundInt (bitOf (leAt b 57 1) 7) (d.scale (leAt b 57 1 % 32 : Nat))))) false) ∧ Frame [.inf] s t) ∧
  (∀ (s : State) (n : Fin 16) (ecc : Ecc) (bad : List (Fin 65536)) (r : InfRun) (b : List Byte), s.inf.slots.length = 16 → (s.islot n.val).run = some r → r.done = false → r.pend = [] → ecc = { corrected := 0, uncorr := false } → bad = [] → s.groupFrom n.val r.bundle 5 = [b] → s.groupCauses n.val r.bundle r.rep [b] false = [] → leAt b 5 1 = 16 → leAt b 52 1 = 0x0B →
    ∃ t, exec (.issueGroup n ecc bad) s = .next t ∧ (∀ l < 32, dec32 ((laneSub (s.lane (bCl b) (leAt b 54 1) l) (leNat (memBytes s.mem (slotBase n.val + 0x100 + (leAt b 57 1 % 8) * 0x420 + 0) 4))).1) = none → ∃ p ∈ (((t.islot n.val).run.map (fun x => x.pend)).getD []), p.cyc = r.cyc + 8 ∧ p.wr = .lane (bCl b) (leAt b 53 1) l (nan32) false) ∧ (∀ l < 32, ∀ v ∈ dec32 ((laneSub (s.lane (bCl b) (leAt b 54 1) l) (leNat (memBytes s.mem (slotBase n.val + 0x100 + (leAt b 57 1 % 8) * 0x420 + 0) 4))).1), v.m ≠ 0 → v.neg = true → ∃ p ∈ (((t.islot n.val).run.map (fun x => x.pend)).getD []), p.cyc = r.cyc + 8 ∧ p.wr = .lane (bCl b) (leAt b 53 1) l (canon32 (leNat (memBytes s.mem (slotBase n.val + 0x100 + (leAt b 57 1 % 8) * 0x420 + 16) 4))) false) ∧ (∀ l < 32, ∀ v ∈ dec32 ((laneSub (s.lane (bCl b) (leAt b 54 1) l) (leNat (memBytes s.mem (slotBase n.val + 0x100 + (leAt b 57 1 % 8) * 0x420 + 0) 4))).1), (v.m = 0 ∨ v.neg = false) → 256 ≤ floorNat (v.scale (-(sgn 8 (leNat (memBytes s.mem (slotBase n.val + 0x100 + (leAt b 57 1 % 8) * 0x420 + 4) 1))))) → ∃ p ∈ (((t.islot n.val).run.map (fun x => x.pend)).getD []), p.cyc = r.cyc + 8 ∧ p.wr = .lane (bCl b) (leAt b 53 1) l (canon32 (leNat (memBytes s.mem (slotBase n.val + 0x100 + (leAt b 57 1 % 8) * 0x420 + 1040) 4))) false) ∧ (∀ l < 32, ∀ v ∈ dec32 ((laneSub (s.lane (bCl b) (leAt b 54 1) l) (leNat (memBytes s.mem (slotBase n.val + 0x100 + (leAt b 57 1 % 8) * 0x420 + 0) 4))).1), (v.m = 0 ∨ v.neg = false) → floorNat (v.scale (-(sgn 8 (leNat (memBytes s.mem (slotBase n.val + 0x100 + (leAt b 57 1 % 8) * 0x420 + 4) 1))))) < 256 → ∀ d ∈ dec32 (laneSub (leNat (memBytes s.mem (slotBase n.val + 0x100 + (leAt b 57 1 % 8) * 0x420 + (20 + 4 * floorNat (v.scale (-(sgn 8 (leNat (memBytes s.mem (slotBase n.val + 0x100 + (leAt b 57 1 % 8) * 0x420 + 4) 1))))))) 4)) (leNat (memBytes s.mem (slotBase n.val + 0x100 + (leAt b 57 1 % 8) * 0x420 + (16 + 4 * floorNat (v.scale (-(sgn 8 (leNat (memBytes s.mem (slotBase n.val + 0x100 + (leAt b 57 1 % 8) * 0x420 + 4) 1))))))) 4))).1, ∃ p ∈ (((t.islot n.val).run.map (fun x => x.pend)).getD []), p.cyc = r.cyc + 8 ∧ p.wr = .lane (bCl b) (leAt b 53 1) l ((laneAdd (leNat (memBytes s.mem (slotBase n.val + 0x100 + (leAt b 57 1 % 8) * 0x420 + (16 + 4 * floorNat (v.scale (-(sgn 8 (leNat (memBytes s.mem (slotBase n.val + 0x100 + (leAt b 57 1 % 8) * 0x420 + 4) 1))))))) 4)) (rne32 (((v.scale (-(sgn 8 (leNat (memBytes s.mem (slotBase n.val + 0x100 + (leAt b 57 1 % 8) * 0x420 + 4) 1))))).add (Dy.ofInt (-(floorNat (v.scale (-(sgn 8 (leNat (memBytes s.mem (slotBase n.val + 0x100 + (leAt b 57 1 % 8) * 0x420 + 4) 1))))) : Int)))).mul d)).1).1) false) ∧ Frame [.inf] s t) ∧
  (∀ (s : State) (n : Fin 16) (ecc : Ecc) (bad : List (Fin 65536)) (r : InfRun) (b : List Byte), s.inf.slots.length = 16 → (s.islot n.val).run = some r → r.done = false → r.pend = [] → ecc = { corrected := 0, uncorr := false } → bad = [] → s.groupFrom n.val r.bundle 5 = [b] → s.groupCauses n.val r.bundle r.rep [b] false = [] → leAt b 5 1 = 2 → leAt b 20 1 = 1 → leAt b 21 1 % 4 = 2 →
    ∃ t, exec (.issueGroup n ecc bad) s = .next t ∧ (∀ T < 8, bitOf (leAt b 22 1) T = true → ∃ p ∈ (((t.islot n.val).run.map (fun x => x.pend)).getD []), p.cyc = r.cyc + 4 ∧ p.wr = .mac (bCl b) T (leAt b 23 1) ((List.range 8).map (fun j => (accFp ((s.accLanes (bCl b) T (leAt b 23 1)).getD j 0) (if (s.xrByte (bCl b) (leAt b 25 1 + r.rep / 2)).toNat = 0xFF ∨ s.clGet (bCl b) (keyScale T + j) % 256 = 0xFF then none else some ((Dy.ofInt ((List.range 16).foldl (fun a i => a + nibble (s.xrBytes (bCl b) ((leAt b 24 1 + 8 * r.rep) % 128) 8) i * nibble (s.wrBytes (bCl b) T 64) (8 * i + j)) 0)).scale ((s.clGet (bCl b) (keyScale T + j) % 256 : Int) + (s.xrByte (bCl b) (leAt b 25 1 + r.rep / 2)).toNat - 254)))).1)) ((List.range 8).filter (fun j => (accFp ((s.accLanes (bCl b) T (leAt b 23 1)).getD j 0) (if (s.xrByte (bCl b) (leAt b 25 1 + r.rep / 2)).toNat = 0xFF ∨ s.clGet (bCl b) (keyScale T + j) % 256 = 0xFF then none else some ((Dy.ofInt ((List.range 16).foldl (fun a i => a + nibble (s.xrBytes (bCl b) ((leAt b 24 1 + 8 * r.rep) % 128) 8) i * nibble (s.wrBytes (bCl b) T 64) (8 * i + j)) 0)).scale ((s.clGet (bCl b) (keyScale T + j) % 256 : Int) + (s.xrByte (bCl b) (leAt b 25 1 + r.rep / 2)).toNat - 254)))).2)).length) ∧ Frame [.inf] s t) ∧
  (∀ (s : State) (n : Fin 16) (ecc : Ecc) (bad : List (Fin 65536)) (r : InfRun) (b : List Byte), s.inf.slots.length = 16 → (s.islot n.val).run = some r → r.done = false → r.pend = [] → ecc = { corrected := 0, uncorr := false } → bad = [] → s.groupFrom n.val r.bundle 5 = [b] → s.groupCauses n.val r.bundle r.rep [b] false = [] → leAt b 5 1 = 2 → 2 ≤ leAt b 20 1 → leAt b 20 1 ≤ 4 →
    ∃ t, exec (.issueGroup n ecc bad) s = .next t ∧ (∀ T < 8, bitOf (leAt b 22 1) T = true → ∃ p ∈ (((t.islot n.val).run.map (fun x => x.pend)).getD []), p.cyc = r.cyc + 3 ∧ p.wr = .acc (bCl b) T (leAt b 23 1) (if leAt b 20 1 = 2 then List.replicate 8 0 else (List.range 8).map (fun i => leAt (if leAt b 20 1 = 3 then s.wrBytes (bCl b) T 32 else s.xrBytes (bCl b) (leAt b 24 1) 32) (4 * i) 4))) ∧ Frame [.inf] s t) ∧
  (∀ (s : State) (n : Fin 16) (ecc : Ecc) (bad : List (Fin 65536)) (r : InfRun) (b : List Byte), s.inf.slots.length = 16 → (s.islot n.val).run = some r → r.done = false → r.pend = [] → ecc = { corrected := 0, uncorr := false } → bad = [] → s.groupFrom n.val r.bundle 5 = [b] → s.groupCauses n.val r.bundle r.rep [b] false = [] → leAt b 5 1 = 2 → leAt b 20 1 = 5 → (leAt b 26 1 % 8 = 1 ∨ leAt b 26 1 % 8 = 2 ∨ leAt b 26 1 % 8 = 6) → bitOf (leAt b 26 1) 4 = true →
    ∃ t, exec (.issueGroup n ecc bad) s = .next t ∧ (∀ x ∈ ranked (leAt b 22 1), ∀ i < 8, ∃ p ∈ (((t.islot n.val).run.map (fun x => x.pend)).getD []), p.cyc = r.cyc + 4 ∧ p.wr = .lane (bCl b) ((leAt b 27 1 % 16 + x.1 / 4) % 16) (8 * ((leAt b 27 1 / 16 + x.1) % 4) + i) (if leAt b 26 1 % 8 = 2 then (rne32 (Dy.ofInt (sgn 32 ((s.accLanes (bCl b) x.2 (leAt b 23 1)).getD i 0)))).1 else (s.accLanes (bCl b) x.2 (leAt b 23 1)).getD i 0) false) ∧ Frame [.inf] s t) ∧
  (∀ (s : State) (n : Fin 16) (ecc : Ecc) (bad : List (Fin 65536)) (r : InfRun) (b : List Byte), s.inf.slots.length = 16 → (s.islot n.val).run = some r → r.done = false → r.pend = [] → ecc = { corrected := 0, uncorr := false } → bad = [] → s.groupFrom n.val r.bundle 5 = [b] → s.groupCauses n.val r.bundle r.rep [b] false = [] → leAt b 5 1 = 2 → leAt b 20 1 = 5 → 3 ≤ leAt b 26 1 % 8 → leAt b 26 1 % 8 ≤ 5 → bitOf (leAt b 26 1) 4 = true →
    ∃ t, exec (.issueGroup n ecc bad) s = .next t ∧ (∀ x ∈ ranked (leAt b 22 1), ∀ i < 8, ∃ p ∈ (((t.islot n.val).run.map (fun x => x.pend)).getD []), p.cyc = r.cyc + 4 ∧ p.wr = .lane (bCl b) ((leAt b 27 1 % 16 + x.1 / 4) % 16) (8 * ((leAt b 27 1 / 16 + x.1) % 4) + i) (if leAt b 26 1 % 8 = 3 then unsgn 32 (sgn 8 (match dec32 ((s.accLanes (bCl b) x.2 (leAt b 23 1)).getD i 0) with | none => 0x7F | some v => (e4m3.pack (bitOf (leAt b 26 1) 3) v).1)) else if leAt b 26 1 % 8 = 4 then unsgn 32 (sgn 8 (match dec32 ((s.accLanes (bCl b) x.2 (leAt b 23 1)).getD i 0) with | none => 0x7F | some v => (e5m2.pack (bitOf (leAt b 26 1) 3) v).1)) else unsgn 32 (sgn 16 (match dec32 ((s.accLanes (bCl b) x.2 (leAt b 23 1)).getD i 0) with | none => 0x7FC0 | some v => (bf16.pack (bitOf (leAt b 26 1) 3) v).1))) false) ∧ Frame [.inf] s t) ∧
  (∀ (s : State) (n : Fin 16) (ecc : Ecc) (bad : List (Fin 65536)) (r : InfRun) (b : List Byte), s.inf.slots.length = 16 → (s.islot n.val).run = some r → r.done = false → r.pend = [] → ecc = { corrected := 0, uncorr := false } → bad = [] → s.groupFrom n.val r.bundle 5 = [b] → s.groupCauses n.val r.bundle r.rep [b] false = [] → leAt b 5 1 = 2 → leAt b 20 1 = 5 → (leAt b 26 1 % 8 = 1 ∨ leAt b 26 1 % 8 = 6) → bitOf (leAt b 26 1) 4 = false →
    ∃ t, exec (.issueGroup n ecc bad) s = .next t ∧ (∀ x ∈ ranked (leAt b 22 1), ∃ p ∈ (((t.islot n.val).run.map (fun x => x.pend)).getD []), p.cyc = r.cyc + 4 ∧ p.wr = .store ((s.stateWin n.val (bCl b)).1 + leAt b 28 4 + 32 * x.1) ((List.range 8).flatMap (fun i => leBytes 4 ((s.accLanes (bCl b) x.2 (leAt b 23 1)).getD i 0)))) ∧ Frame [.inf] s t) ∧
  (∀ (s : State) (n : Fin 16) (ecc : Ecc) (bad : List (Fin 65536)) (r : InfRun) (b : List Byte), s.inf.slots.length = 16 → (s.islot n.val).run = some r → r.done = false → r.pend = [] → ecc = { corrected := 0, uncorr := false } → bad = [] → s.groupFrom n.val r.bundle 5 = [b] → s.groupCauses n.val r.bundle r.rep [b] false = [] → leAt b 5 1 = 2 → leAt b 20 1 = 5 → leAt b 26 1 % 8 = 5 → bitOf (leAt b 26 1) 4 = false →
    ∃ t, exec (.issueGroup n ecc bad) s = .next t ∧ (∀ x ∈ ranked (leAt b 22 1), ∃ p ∈ (((t.islot n.val).run.map (fun x => x.pend)).getD []), p.cyc = r.cyc + 4 ∧ p.wr = .store ((s.stateWin n.val (bCl b)).1 + leAt b 28 4 + 16 * x.1) ((List.range 8).flatMap (fun i => leBytes 2 (match dec32 ((s.accLanes (bCl b) x.2 (leAt b 23 1)).getD i 0) with | none => 0x7FC0 | some v => (bf16.pack (bitOf (leAt b 26 1) 3) v).1)))) ∧ Frame [.inf] s t) ∧
  (∀ (s : State) (n : Fin 16) (ecc : Ecc) (bad : List (Fin 65536)) (r : InfRun) (b : List Byte), s.inf.slots.length = 16 → (s.islot n.val).run = some r → r.done = false → r.pend = [] → ecc = { corrected := 0, uncorr := false } → bad = [] → s.groupFrom n.val r.bundle 5 = [b] → s.groupCauses n.val r.bundle r.rep [b] false = [] → leAt b 5 1 = 16 → (leAt b 52 1 = 2 ∨ leAt b 52 1 = 3) →
    ∃ t, exec (.issueGroup n ecc bad) s = .next t ∧ (∀ l < 32, ∀ x ∈ dec32 (s.lane (bCl b) (leAt b 54 1) l), ∀ y ∈ dec32 (s.lane (bCl b) (leAt b 55 1) l), ∃ p ∈ (((t.islot n.val).run.map (fun x => x.pend)).getD []), p.cyc = r.cyc + 6 ∧ p.wr = .lane (bCl b) (leAt b 53 1) l (rne32 (if leAt b 52 1 = 2 then x.add y.negate else x.mul y)).1 false) ∧ (∀ l < 32, dec32 (s.lane (bCl b) (leAt b 54 1) l) = none ∨ dec32 (s.lane (bCl b) (leAt b 55 1) l) = none → ∃ p ∈ (((t.islot n.val).run.map (fun x => x.pend)).getD []), p.cyc = r.cyc + 6 ∧ p.wr = .lane (bCl b) (leAt b 53 1) l nan32 false) ∧ Frame [.inf] s t) ∧
  (∀ (s : State) (n : Fin 16) (ecc : Ecc) (bad : List (Fin 65536)) (r : InfRun) (b : List Byte), s.inf.slots.length = 16 → (s.islot n.val).run = some r → r.done = false → r.pend = [] → ecc = { corrected := 0, uncorr := false } → bad = [] → s.groupFrom n.val r.bundle 5 = [b] → s.groupCauses n.val r.bundle r.rep [b] false = [] → leAt b 5 1 = 16 → leAt b 52 1 = 4 →
    ∃ t, exec (.issueGroup n ecc bad) s = .next t ∧ (∀ l < 32, ∀ x ∈ dec32 (s.lane (bCl b) (leAt b 54 1) l), ∀ y ∈ dec32 (s.lane (bCl b) (leAt b 55 1) l), ∀ z ∈ dec32 (s.lane (bCl b) (leAt b 56 1) l), ∃ p ∈ (((t.islot n.val).run.map (fun x => x.pend)).getD []), p.cyc = r.cyc + 6 ∧ p.wr = .lane (bCl b) (leAt b 53 1) l (rne32 ((x.mul y).add z)).1 false) ∧ (∀ l < 32, dec32 (s.lane (bCl b) (leAt b 54 1) l) = none ∨ dec32 (s.lane (bCl b) (leAt b 55 1) l) = none ∨ dec32 (s.lane (bCl b) (leAt b 56 1) l) = none → ∃ p ∈ (((t.islot n.val).run.map (fun x => x.pend)).getD []), p.cyc = r.cyc + 6 ∧ p.wr = .lane (bCl b) (leAt b 53 1) l nan32 false) ∧ Frame [.inf] s t) ∧
  (∀ (s : State) (n : Fin 16) (ecc : Ecc) (bad : List (Fin 65536)) (r : InfRun) (b : List Byte), s.inf.slots.length = 16 → (s.islot n.val).run = some r → r.done = false → r.pend = [] → ecc = { corrected := 0, uncorr := false } → bad = [] → s.groupFrom n.val r.bundle 5 = [b] → s.groupCauses n.val r.bundle r.rep [b] false = [] → leAt b 5 1 = 16 → (leAt b 52 1 = 5 ∨ leAt b 52 1 = 6) →
    ∃ t, exec (.issueGroup n ecc bad) s = .next t ∧ (∀ l < 32, ∀ x ∈ dec32 (s.lane (bCl b) (leAt b 54 1) l), ∀ y ∈ dec32 (s.lane (bCl b) (leAt b 55 1) l), (x.lt y = true ∨ (x.m = 0 ∧ y.m = 0 ∧ x.neg = true ∧ y.neg = false)) → ∃ p ∈ (((t.islot n.val).run.map (fun x => x.pend)).getD []), p.cyc = r.cyc + 4 ∧ p.wr = .lane (bCl b) (leAt b 53 1) l (if leAt b 52 1 = 5 then s.lane (bCl b) (leAt b 54 1) l else s.lane (bCl b) (leAt b 55 1) l) false) ∧ (∀ l < 32, ∀ x ∈ dec32 (s.lane (bCl b) (leAt b 54 1) l), ∀ y ∈ dec32 (s.lane (bCl b) (leAt b 55 1) l), (y.lt x = true ∨ (x.m = 0 ∧ y.m = 0 ∧ x.neg = false ∧ y.neg = true)) → ∃ p ∈ (((t.islot n.val).run.map (fun x => x.pend)).getD []), p.cyc = r.cyc + 4 ∧ p.wr = .lane (bCl b) (leAt b 53 1) l (if leAt b 52 1 = 5 then s.lane (bCl b) (leAt b 55 1) l else s.lane (bCl b) (leAt b 54 1) l) false) ∧ (∀ l < 32, dec32 (s.lane (bCl b) (leAt b 54 1) l) = none ∨ dec32 (s.lane (bCl b) (leAt b 55 1) l) = none → ∃ p ∈ (((t.islot n.val).run.map (fun x => x.pend)).getD []), p.cyc = r.cyc + 4 ∧ p.wr = .lane (bCl b) (leAt b 53 1) l nan32 false) ∧ Frame [.inf] s t) ∧
  (∀ (s : State) (n : Fin 16) (ecc : Ecc) (bad : List (Fin 65536)) (r : InfRun) (b : List Byte), s.inf.slots.length = 16 → (s.islot n.val).run = some r → r.done = false → r.pend = [] → ecc = { corrected := 0, uncorr := false } → bad = [] → s.groupFrom n.val r.bundle 5 = [b] → s.groupCauses n.val r.bundle r.rep [b] false = [] → leAt b 5 1 = 16 → 7 ≤ leAt b 52 1 → leAt b 52 1 ≤ 9 →
    ∃ t, exec (.issueGroup n ecc bad) s = .next t ∧ ∃ p ∈ (((t.islot n.val).run.map (fun x => x.pend)).getD []), p.cyc = r.cyc + 4 ∧ p.wr = .mask (bCl b) (leAt b 53 1) (maskOf 32 (fun l => match dec32 (s.lane (bCl b) (leAt b 54 1) l), dec32 (s.lane (bCl b) (leAt b 55 1) l) with | some x, some y => (if leAt b 52 1 = 7 then x.lt y else if leAt b 52 1 = 8 then !y.lt x else !y.lt x && !x.lt y) | _, _ => false)) ∧ Frame [.inf] s t) ∧
  (∀ (s : State) (n : Fin 16) (ecc : Ecc) (bad : List (Fin 65536)) (r : InfRun) (b : List Byte), s.inf.slots.length = 16 → (s.islot n.val).run = some r → r.done = false → r.pend = [] → ecc = { corrected := 0, uncorr := false } → bad = [] → s.groupFrom n.val r.bundle 5 = [b] → s.groupCauses n.val r.bundle r.rep [b] false = [] → leAt b 5 1 = 16 → leAt b 52 1 = 10 →
    ∃ t, exec (.issueGroup n ecc bad) s = .next t ∧ (∀ l < 32, ∃ p ∈ (((t.islot n.val).run.map (fun x => x.pend)).getD []), p.cyc = r.cyc + 2 ∧ p.wr = .lane (bCl b) (leAt b 53 1) l (if bitOf (s.clGet (bCl b) (keyMask (leAt b 56 1 % 4))) l then s.lane (bCl b) (leAt b 54 1) l else s.lane (bCl b) (leAt b 55 1) l) false) ∧ Frame [.inf] s t) ∧
  (∀ (s : State) (n : Fin 16) (ecc : Ecc) (bad : List (Fin 65536)) (r : InfRun) (b : List Byte), s.inf.slots.length = 16 → (s.islot n.val).run = some r → r.done = false → r.pend = [] → ecc = { corrected := 0, uncorr := false } → bad = [] → s.groupFrom n.val r.bundle 5 = [b] → s.groupCauses n.val r.bundle r.rep [b] false = [] → leAt b 5 1 = 16 → (leAt b 52 1 = 12 ∨ leAt b 52 1 = 13) →
    ∃ t, exec (.issueGroup n ecc bad) s = .next t ∧ (∀ l < 32, dec32 (s.lane (bCl b) (leAt b 54 1) l) = none → ∃ p ∈ (((t.islot n.val).run.map (fun x => x.pend)).getD []), p.cyc = r.cyc + 12 ∧ p.wr = .lane (bCl b) (leAt b 53 1) l nan32 false) ∧ (∀ l < 32, ∀ x ∈ dec32 (s.lane (bCl b) (leAt b 54 1) l), x.m = 0 → x.neg = false → ∃ p ∈ (((t.islot n.val).run.map (fun x => x.pend)).getD []), p.cyc = r.cyc + 12 ∧ p.wr = .lane (bCl b) (leAt b 53 1) l 0x7F7FFFFF false) ∧ (∀ l < 32, ∀ x ∈ dec32 (s.lane (bCl b) (leAt b 54 1) l), x.m = 0 → x.neg = true → leAt b 52 1 = 12 → ∃ p ∈ (((t.islot n.val).run.map (fun x => x.pend)).getD []), p.cyc = r.cyc + 12 ∧ p.wr = .lane (bCl b) (leAt b 53 1) l 0xFF7FFFFF false) ∧ (∀ l < 32, ∀ x ∈ dec32 (s.lane (bCl b) (leAt b 54 1) l), x.m ≠ 0 → x.neg = true → leAt b 52 1 = 13 → ∃ p ∈ (((t.islot n.val).run.map (fun x => x.pend)).getD []), p.cyc = r.cyc + 12 ∧ p.wr = .lane (bCl b) (leAt b 53 1) l nan32 false) ∧ Frame [.inf] s t) ∧
  (∀ (s : State) (n : Fin 16) (ecc : Ecc) (bad : List (Fin 65536)) (r : InfRun) (b : List Byte), s.inf.slots.length = 16 → (s.islot n.val).run = some r → r.done = false → r.pend = [] → ecc = { corrected := 0, uncorr := false } → bad = [] → s.groupFrom n.val r.bundle 5 = [b] → s.groupCauses n.val r.bundle r.rep [b] false = [] → leAt b 5 1 = 16 → (leAt b 52 1 = 14 ∨ leAt b 52 1 = 15) →
    ∃ t, exec (.issueGroup n ecc bad) s = .next t ∧ (∀ l < 32, ∃ p ∈ (((t.islot n.val).run.map (fun x => x.pend)).getD []), p.cyc = r.cyc + 10 ∧ p.wr = .lane (bCl b) (leAt b 53 1) l (((List.range 5).foldl (fun v _ => (List.range (v.length / 2)).map (fun i => if leAt b 52 1 = 14 then (laneAdd (v.getD (2 * i) 0) (v.getD (2 * i + 1) 0)).1 else laneMax (v.getD (2 * i) 0) (v.getD (2 * i + 1) 0))) (s.lanes (bCl b) (leAt b 54 1))).getD 0 0) false) ∧ Frame [.inf] s t) ∧
  (∀ (s : State) (n : Fin 16) (ecc : Ecc) (bad : List (Fin 65536)) (r : InfRun) (b : List Byte), s.inf.slots.length = 16 → (s.islot n.val).run = some r → r.done = false → r.pend = [] → ecc = { corrected := 0, uncorr := false } → bad = [] → s.groupFrom n.val r.bundle 5 = [b] → s.groupCauses n.val r.bundle r.rep [b] false = [] → leAt b 5 1 = 16 → leAt b 52 1 = 17 →
    ∃ t, exec (.issueGroup n ecc bad) s = .next t ∧ (∀ l < 32, ∃ p ∈ (((t.islot n.val).run.map (fun x => x.pend)).getD []), p.cyc = r.cyc + 4 ∧ p.wr = .lane (bCl b) (leAt b 53 1) l (rne32 ((Dy.ofInt (sgn (cvtWidth (leAt b 57 1)) (s.lane (bCl b) (leAt b 54 1) l))).scale (-(leAt b 57 1 % 32 : Nat)))).1 false) ∧ Frame [.inf] s t) ∧
  (∀ (s : State) (n : Fin 16) (ecc : Ecc) (bad : List (Fin 65536)) (r : InfRun) (b : List Byte), s.inf.slots.length = 16 → (s.islot n.val).run = some r → r.done = false → r.pend = [] → ecc = { corrected := 0, uncorr := false } → bad = [] → s.groupFrom n.val r.bundle 5 = [b] → s.groupCauses n.val r.bundle r.rep [b] false = [] → leAt b 5 1 = 16 → leAt b 52 1 = 18 → (List.range 32).any (fun l => (dec32 (s.lane (bCl b) (leAt b 54 1) l)).isNone) = true →
    ∃ t, exec (.issueGroup n ecc bad) s = .next t ∧ (∀ l < 32, ∃ p ∈ (((t.islot n.val).run.map (fun x => x.pend)).getD []), p.cyc = r.cyc + 6 ∧ p.wr = .lane (bCl b) (leAt b 53 1) l (if l = 4 then 0xFF else 0) false) ∧ Frame [.inf] s t) ∧
  (∀ (s : State) (n : Fin 16) (ecc : Ecc) (bad : List (Fin 65536)) (r : InfRun) (b : List Byte) (k : Nat) (X : Dy) (e : Int), s.inf.slots.length = 16 → (s.islot n.val).run = some r → r.done = false → r.pend = [] → ecc = { corrected := 0, uncorr := false } → bad = [] → s.groupFrom n.val r.bundle 5 = [b] → s.groupCauses n.val r.bundle r.rep [b] false = [] → leAt b 5 1 = 16 → leAt b 52 1 = 18 → k < 32 → dec32 (s.lane (bCl b) (leAt b 54 1) k) = some X → X.m ≠ 0 → e = clampI (-127) 127 ((Nat.log2 X.m : Int) + X.e - 2) → (∀ l < 32, dec32 (s.lane (bCl b) (leAt b 54 1) l) ≠ none) → (∀ l < 32, ∀ x ∈ dec32 (s.lane (bCl b) (leAt b 54 1) l), ({ X with neg := false } : Dy).lt { x with neg := false } = false) →
    ∃ t, exec (.issueGroup n ecc bad) s = .next t ∧ ∃ p ∈ (((t.islot n.val).run.map (fun x => x.pend)).getD []), p.cyc = r.cyc + 6 ∧ p.wr = .lane (bCl b) (leAt b 53 1) 4 (e + 127).toNat false ∧ (∀ l < 4, ∃ p ∈ (((t.islot n.val).run.map (fun x => x.pend)).getD []), p.cyc = r.cyc + 6 ∧ p.wr = .lane (bCl b) (leAt b 53 1) l ((List.range 8).foldl (fun a i => a + 16 ^ i * unsgn 4 (clampI (-8) 7 (roundInt (bitOf (leAt b 57 1) 7) (((dec32 (s.lane (bCl b) (leAt b 54 1) (8 * l + i))).getD Dy.zero).scale (-e))))) 0) false) ∧ (∀ l < 32, 5 ≤ l → ∃ p ∈ (((t.islot n.val).run.map (fun x => x.pend)).getD []), p.cyc = r.cyc + 6 ∧ p.wr = .lane (bCl b) (leAt b 53 1) l 0 false) ∧ Frame [.inf] s t) ∧
  (∀ (s : State) (n : Fin 16) (ecc : Ecc) (bad : List (Fin 65536)) (r : InfRun) (b : List Byte), s.inf.slots.length = 16 → (s.islot n.val).run = some r → r.done = false → r.pend = [] → ecc = { corrected := 0, uncorr := false } → bad = [] → s.groupFrom n.val r.bundle 5 = [b] → s.groupCauses n.val r.bundle r.rep [b] false = [] → leAt b 5 1 = 16 → leAt b 52 1 = 19 →
    ∃ t, exec (.issueGroup n ecc bad) s = .next t ∧ (∀ l < 32, ∃ p ∈ (((t.islot n.val).run.map (fun x => x.pend)).getD []), p.cyc = r.cyc + 8 ∧ p.wr = .lane (bCl b) (leAt b 53 1) l (leNat (memBytes s.mem ((if bitOf (leAt b 57 1) 7 then (s.weightWin n.val (bCl b)).1 else (s.stateWin n.val (bCl b)).1) + leAt b 60 4 + 4 * s.lane (bCl b) (leAt b 54 1) l) 4)) false) ∧ Frame [.inf] s t) ∧
  (∀ (s : State) (n : Fin 16) (ecc : Ecc) (bad : List (Fin 65536)) (r : InfRun) (b : List Byte), s.inf.slots.length = 16 → (s.islot n.val).run = some r → r.done = false → r.pend = [] → ecc = { corrected := 0, uncorr := false } → bad = [] → s.groupFrom n.val r.bundle 5 = [b] → s.groupCauses n.val r.bundle r.rep [b] false = [] → leAt b 5 1 = 1 →
    ∃ t, exec (.issueGroup n ecc bad) s = .next t ∧ (∀ x ∈ ranked (leAt b 18 1), ∃ p ∈ (((t.islot n.val).run.map (fun x => x.pend)).getD []), p.cyc = r.cyc + 3 ∧ p.wr = .wr (bCl b) x.2 (memBytes s.mem ((s.weightWin n.val (bCl b)).1 + leAt b 8 4 + 64 * leAt b 16 2 * r.rep + 64 * x.1) 64)) ∧ (leAt b 19 1 = 1 → ∀ x ∈ ranked (leAt b 18 1), ∃ p ∈ (((t.islot n.val).run.map (fun x => x.pend)).getD []), p.cyc = r.cyc + 3 ∧ p.wr = .scales (bCl b) x.2 (memBytes s.mem ((s.weightWin n.val (bCl b)).1 + leAt b 12 4 + 8 * popCount 8 (leAt b 18 1) * (r.rep / 2) + 8 * x.1) 8)) ∧ Frame [.inf] s t) ∧
  (∀ (s : State) (n : Fin 16) (ecc : Ecc) (bad : List (Fin 65536)) (r : InfRun) (b : List Byte), s.inf.slots.length = 16 → (s.islot n.val).run = some r → r.done = false → r.pend = [] → ecc = { corrected := 0, uncorr := false } → bad = [] → s.groupFrom n.val r.bundle 5 = [b] → s.groupCauses n.val r.bundle r.rep [b] false = [] → leAt b 5 1 = 4 → leAt b 40 1 < 16 →
    ∃ t, exec (.issueGroup n ecc bad) s = .next t ∧ (∀ l < 32, ∃ p ∈ (((t.islot n.val).run.map (fun x => x.pend)).getD []), p.cyc = r.cyc + 3 ∧ p.wr = .lane (bCl b) ((leAt b 40 1 + r.rep) % 16) l (leNat (memBytes s.mem ((s.stateWin n.val (bCl b)).1 + leAt b 36 4 + 128 * leAt b 41 1 * r.rep + 4 * l) 4)) false) ∧ Frame [.inf] s t) ∧
  (∀ (s : State) (n : Fin 16) (ecc : Ecc) (bad : List (Fin 65536)) (r : InfRun) (b : List Byte), s.inf.slots.length = 16 → (s.islot n.val).run = some r → r.done = false → r.pend = [] → ecc = { corrected := 0, uncorr := false } → bad = [] → s.groupFrom n.val r.bundle 5 = [b] → s.groupCauses n.val r.bundle r.rep [b] false = [] → leAt b 5 1 = 4 → leAt b 40 1 = 16 →
    ∃ t, exec (.issueGroup n ecc bad) s = .next t ∧ ∃ p ∈ (((t.islot n.val).run.map (fun x => x.pend)).getD []), p.cyc = r.cyc + 3 ∧ p.wr = .xr (bCl b) (memBytes s.mem ((s.stateWin n.val (bCl b)).1 + leAt b 36 4 + 128 * leAt b 41 1 * r.rep) 128) ∧ Frame [.inf] s t) ∧
  (∀ (s : State) (n : Fin 16) (ecc : Ecc) (bad : List (Fin 65536)) (r : InfRun) (b : List Byte) (wid : Nat), s.inf.slots.length = 16 → (s.islot n.val).run = some r → r.done = false → r.pend = [] → ecc = { corrected := 0, uncorr := false } → bad = [] → s.groupFrom n.val r.bundle 5 = [b] → s.groupCauses n.val r.bundle r.rep [b] false = [] → leAt b 5 1 = 8 → wid = (if leAt b 49 1 = 0 then 128 else if leAt b 49 1 = 1 then 64 else 32) →
    ∃ t, exec (.issueGroup n ecc bad) s = .next t ∧ ∃ p ∈ (((t.islot n.val).run.map (fun x => x.pend)).getD []), p.cyc = r.cyc + 2 ∧ p.wr = .store ((s.stateWin n.val (bCl b)).1 + leAt b 44 4 + r.rep * wid) ((List.range 32).flatMap (fun l => leBytes (wid / 32) (s.lane (bCl b) ((leAt b 48 1 + r.rep) % 16) l))) ∧ Frame [.inf] s t) ∧
  (∀ (s : State) (n : Fin 16) (ecc : Ecc) (bad : List (Fin 65536)) (r : InfRun) (b : List Byte), s.inf.slots.length = 16 → (s.islot n.val).run = some r → r.done = false → r.pend = [] → ecc = { corrected := 0, uncorr := false } → bad = [] → s.groupFrom n.val r.bundle 5 = [b] → s.groupCauses n.val r.bundle r.rep [b] false = [] → leAt b 5 1 = 32 →
    ∃ t, exec (.issueGroup n ecc bad) s = .next t ∧ (∀ k < leAt b 72 1, ∃ p ∈ (((t.islot n.val).run.map (fun x => x.pend)).getD []), p.cyc = r.cyc + 24 ∧ p.wr = .store ((s.stateWin n.val (bCl b)).1 + leAt b 68 4 + 8 * r.rep + 4 * k) (leBytes 4 (s.stat (s.get (INF_SLOT_CTL.ACC n.val) * 8192 + (leAt b (64 + 2 * k) 2 % 8192 + leAt b 73 1 * r.rep)) (leAt b (64 + 2 * k) 2 / 8192)))) ∧ Frame [.inf] s t) ∧
  (∀ (s : State) (n : Fin 16) (ecc : Ecc) (bad : List (Fin 65536)) (r : InfRun) (b : List Byte), s.inf.slots.length = 16 → (s.islot n.val).run = some r → r.done = false → r.pend = [] → ecc = { corrected := 0, uncorr := false } → bad = [] → s.groupFrom n.val r.bundle 5 = [b] → s.groupCauses n.val r.bundle r.rep [b] false = [] → leAt b 5 1 = 64 →
    ∃ t, exec (.issueGroup n ecc bad) s = .next t ∧ ∃ p ∈ (((t.islot n.val).run.map (fun x => x.pend)).getD []), p.cyc = r.cyc + 8 ∧ p.wr = .exch (bCl b) (leAt b 77 1) ((s.stateWin n.val (leAt b 77 1)).1 + leAt b 80 4 + 128 * r.rep) ((List.range 32).flatMap (fun l => leBytes 4 (s.lane (bCl b) ((leAt b 76 1 + r.rep) % 16) l))) ∧ Frame [.inf] s t) ∧
  (∀ (s : State) (n : Fin 16) (ecc : Ecc) (bad : List (Fin 65536)) (r : InfRun) (b : List Byte), s.inf.slots.length = 16 → (s.islot n.val).run = some r → r.done = false → r.pend = [] → ecc = { corrected := 0, uncorr := false } → bad = [] → s.groupFrom n.val r.bundle 5 = [b] → s.groupCauses n.val r.bundle r.rep [b] false = [] → leAt b 5 1 = 128 → leAt b 86 1 % 32 + (if bitOf (leAt b 86 1) 6 then r.rep else 0) < 32 →
    ∃ t, exec (.issueGroup n ecc bad) s = .next t ∧ ∃ p ∈ (((t.islot n.val).run.map (fun x => x.pend)).getD []), p.cyc = r.cyc + 2 ∧ p.wr = .out (leAt b 84 1 + (if bitOf (leAt b 86 1) 6 then r.rep else 0)) (bitsOf (s.lane (bCl b) (leAt b 85 1) (leAt b 86 1 % 32 + (if bitOf (leAt b 86 1) 6 then r.rep else 0))) (if bitOf (leAt b 86 1) 5 then 16 else 0) 16) (s.laneTag (bCl b) (leAt b 85 1) (leAt b 86 1 % 32 + (if bitOf (leAt b 86 1) 6 then r.rep else 0))) ∧ Frame [.inf] s t)

/-- A HINT message that passes as one (R341 to R352), with one hint whose checks answer 0 and whose signature matches at most one way, or misses with MISS_TRIG, queues it with the values of its signature or of the miss settings, takes a token, counts in ACCEPTED, shows in QLEVEL and is answered with code 0; a hint whose checks answer another code changes no queue, is answered with that code, shows in HNT_LAST_REF and counts in REFUSED. A cancellation removes the session's pending hint with code 0; without one nothing is removed and the code is 8, or 9 for a hint that has fired, shown in HNT_LAST_REF. At an evaluation with the matcher not held, a sole pending hint whose trigger time is reached leaves the queue and waits for its mailbox write where its slot can take it; where not, and no run of it is in progress, it is counted in DROPPED and logged. While held, hints that are reached become LATE and stay. The mailbox write of a firing whose slot can take it, matcher not held, stores its record at (HCNT mod 4), counts HCNT and FIRED and makes a run due; with none to write, or held, it does nothing. Each refill adds a token to every bucket up to 32, and none while the Top die is in reset. FLUSH drops every pending hint and no firing; HNT_CNT_CLR zeroes the counters. A firing lost for its slot, what a refused cancellation shows, and a mailbox write with the cluster clock stopped (the record is lost, FIRED and the run are not) are log entry 30. -/
def Obligations.HintsAreJudgedAndFire : Prop :=
  (∀ (s : State) (m : TmpMsg) (n : Nat) (e : List Byte), s.msgPasses n tyHint m = true → m.payload = [1, 0, 0, 0] ++ e → s.hintCheck n (leAt e 2 2) (leAt e 0 1) (leAt e 8 8) = 0 → (s.sigWays (leAt e 0 1) (leAt e 4 4) = [] → s.on (HNT_ACC_CFG.MISS_TRIG (leAt e 0 1)) = true) → (s.sigWays (leAt e 0 1) (leAt e 4 4)).length ≤ 1 →
    ∃ t, exec (.hint m) s = .next t ∧ t.inf.hints = s.inf.hints ++ [s.hintOf n (leAt e 2 2) (leAt e 0 1) (leAt e 4 4) (leAt e 8 8) (s.sigWays (leAt e 0 1) (leAt e 4 4)).head?] ∧ t.get (HNT_ACC_LVL.TOKENS (leAt e 0 1)) = s.get (HNT_ACC_LVL.TOKENS (leAt e 0 1)) - 1 ∧ t.get (HNT_ACC_CNT0.ACCEPTED (leAt e 0 1)) = satCount 16 (s.get (HNT_ACC_CNT0.ACCEPTED (leAt e 0 1))) 1 ∧ t.get (HNT_ACC_LVL.QLEVEL (leAt e 0 1)) = s.hintCount (leAt e 0 1) + 1 ∧ t.ses.sent = [s.answer n m tyHint 0 0 [0]] ∧ RegsOnly ([HNT_ACC_LVL.TOKENS (leAt e 0 1), HNT_ACC_CNT0.ACCEPTED (leAt e 0 1), SESS_RSEQ_LO.V n, SESS_RSEQ_HI.V n, SESS_TSEQ_LO.V n, SESS_TSEQ_HI.V n, SESS_STS.PORT n, SESS_STS.IPV6 n, COOL_HWDT_STS.EXPIRED, COOL_HWDT_STS.ARMED] ++ (List.range 8).map (fun a => HNT_ACC_LVL.QLEVEL a)) s t ∧ Frame [.regs, .sil, .cool, .inf, .ses] s t) ∧
  (∀ (s : State) (m : TmpMsg) (n : Nat) (e : List Byte) (c : Nat), s.msgPasses n tyHint m = true → m.payload = [1, 0, 0, 0] ++ e → s.hintCheck n (leAt e 2 2) (leAt e 0 1) (leAt e 8 8) = c → c ≠ 0 →
    ∃ t, exec (.hint m) s = .next t ∧ t.inf.hints = s.inf.hints ∧ t.get HNT_LAST_REF.CODE = c ∧ t.get HNT_LAST_REF.ACC = (leAt e 0 1) ∧ t.get HNT_LAST_REF.SESSION = n ∧ t.get HNT_LAST_REF.HINT_ID = (leAt e 2 2) ∧ t.get (HNT_ACC_CNT1.REFUSED (leAt e 0 1)) = satCount 16 (s.get (HNT_ACC_CNT1.REFUSED (leAt e 0 1))) 1 ∧ t.ses.sent = [s.answer n m tyHint 0 0 [BitVec.ofNat 8 c]] ∧ RegsOnly [SESS_RSEQ_LO.V n, SESS_RSEQ_HI.V n, SESS_TSEQ_LO.V n, SESS_TSEQ_HI.V n, SESS_STS.PORT n, SESS_STS.IPV6 n, COOL_HWDT_STS.EXPIRED, COOL_HWDT_STS.ARMED, HNT_LAST_REF.ACC, HNT_LAST_REF.CODE, HNT_LAST_REF.SESSION, HNT_LAST_REF.HINT_ID, HNT_ACC_CNT1.REFUSED (leAt e 0 1)] s t ∧ Frame [.regs, .sil, .cool, .ses] s t) ∧
  (∀ (s : State) (m : TmpMsg) (n : Nat) (e : List Byte), s.msgPasses n tyHintCancel m = true → m.payload = [1, 0, 0, 0] ++ e → s.inf.hints.any (fun h => h.session == n && h.hid == leAt e 2 2) = true →
    ∃ t, exec (.hintCancel m) s = .next t ∧ t.inf.hints = s.inf.hints.filter (fun h => !(h.session == n && h.hid == leAt e 2 2)) ∧ t.ses.sent = [s.answer n m tyHintCancel 0 0 [0]] ∧ RegsOnly ([SESS_RSEQ_LO.V n, SESS_RSEQ_HI.V n, SESS_TSEQ_LO.V n, SESS_TSEQ_HI.V n, SESS_STS.PORT n, SESS_STS.IPV6 n, COOL_HWDT_STS.EXPIRED, COOL_HWDT_STS.ARMED] ++ (List.range 8).map (fun a => HNT_ACC_LVL.QLEVEL a)) s t ∧ Frame [.regs, .sil, .cool, .inf, .ses] s t) ∧
  (∀ (s : State) (m : TmpMsg) (n : Nat) (e : List Byte), s.msgPasses n tyHintCancel m = true → m.payload = [1, 0, 0, 0] ++ e → s.inf.hints.any (fun h => h.session == n && h.hid == leAt e 2 2) = false →
    ∃ t, exec (.hintCancel m) s = .next t ∧ t.inf.hints = s.inf.hints ∧ t.get HNT_LAST_REF.CODE = (if s.inf.fired.contains (n, leAt e 2 2) then 9 else 8) ∧ t.ses.sent = [s.answer n m tyHintCancel 0 0 [if s.inf.fired.contains (n, leAt e 2 2) then 9 else 8]] ∧ RegsOnly [SESS_RSEQ_LO.V n, SESS_RSEQ_HI.V n, SESS_TSEQ_LO.V n, SESS_TSEQ_HI.V n, SESS_STS.PORT n, SESS_STS.IPV6 n, COOL_HWDT_STS.EXPIRED, COOL_HWDT_STS.ARMED, HNT_LAST_REF.ACC, HNT_LAST_REF.CODE, HNT_LAST_REF.SESSION, HNT_LAST_REF.HINT_ID] s t ∧ Frame [.regs, .sil, .cool, .ses] s t) ∧
  (∀ (s : State) (h : Hint), s.on HNT_STS.HELD = false → s.inf.hints = [h] → h.trig ≤ s.topNow → s.hintBad h = 0 →
    ∃ t, exec (.hintEvaluation) s = .next t ∧ t.inf.hints = [] ∧ t.inf.firing = s.inf.firing ++ [{ h with fireTs := s.topNow, fireFb := s.fb }] ∧ t.inf.fired = s.inf.fired ++ [(h.session, h.hid)] ∧ RegsOnly ((List.range 8).map (fun a => HNT_ACC_LVL.QLEVEL a)) s t ∧ Frame [.regs, .inf] s t) ∧
  (∀ (s : State) (h : Hint), s.on HNT_STS.HELD = false → s.inf.hints = [h] → h.trig ≤ s.topNow → s.hintBad h ≠ 0 → (s.islot h.slot).run = none →
    ∃ t, exec (.hintEvaluation) s = .next t ∧ t.inf.hints = [] ∧ t.inf.firing = s.inf.firing ∧ t.get (HNT_ACC_CNT1.DROPPED h.acc) = satCount 16 (s.get (HNT_ACC_CNT1.DROPPED h.acc)) 1 ∧ t.brg = (s.logTop EVT_HNT_DROP h.acc UNIT_HNT 0 [(0, 1, s.hintBad h), (1, 1, h.slot), (2, 1, h.session), (4, 4, h.model), (8, 2, h.hid)]).brg ∧ RegsOnly ([HNT_ACC_CNT1.DROPPED h.acc] ++ (List.range 8).map (fun a => HNT_ACC_LVL.QLEVEL a)) s t ∧ Frame [.regs, .brg, .inf, .mem] s t) ∧
  (∀ (s : State), s.on HNT_STS.HELD = true →
    ∃ t, exec (.hintEvaluation) s = .next t ∧ t.inf.hints = s.inf.hints.map (fun h => if h.trig ≤ s.topNow then { h with late := true } else h) ∧ t.inf.firing = s.inf.firing ∧ t.inf.slots = s.inf.slots ∧ Frame [.inf] s t) ∧
  (∀ (s : State) (h : Hint) (k : Nat), s.inf.slots.length = 16 → h.slot < 16 → s.mailboxNext = some h → s.on HNT_STS.HELD = false → s.hintBad h = 0 → s.loadWord (s.mboxAddr h.slot) = k → s.portShut (s.mboxCluster h.slot) = false →
    ∃ t, exec (.mailboxWrite) s = .next t ∧ t.inf.firing = s.inf.firing.erase h ∧ t.loadWord (s.mboxAddr h.slot) = (k + 1) % 2 ^ 32 ∧ memBytes t.mem (s.mboxAddr h.slot + 64 + 64 * (k % 4)) 64 = h.record ((k + 1) % 2 ^ 32) ∧ t.get (HNT_ACC_CNT0.FIRED h.acc) = satCount 16 (s.get (HNT_ACC_CNT0.FIRED h.acc)) 1 ∧ (t.islot h.slot).due.isSome = true ∧ RegsOnly [HNT_ACC_CNT0.FIRED h.acc, INF_SLOT_STS.RUN h.slot, INF_SLOT_STS.PEND h.slot, INF_STS.RUNNING, INF_STS.CL_BUSY] s t ∧ Frame [.regs, .inf, .mem] s t) ∧
  (∀ (s : State) (h : Hint) (k : Nat), s.inf.slots.length = 16 → h.slot < 16 → s.mailboxNext = some h → s.on HNT_STS.HELD = false → s.hintBad h = 0 → s.loadWord (s.mboxAddr h.slot) = k → s.gated (s.mboxCluster h.slot) = true →
    ∃ t, exec (.mailboxWrite) s = .next t ∧ t.inf.firing = s.inf.firing.erase h ∧ t.get (HNT_ACC_CNT0.FIRED h.acc) = satCount 16 (s.get (HNT_ACC_CNT0.FIRED h.acc)) 1 ∧ (t.islot h.slot).due.isSome = true ∧ RegsOnly [HNT_ACC_CNT0.FIRED h.acc, INF_SLOT_STS.RUN h.slot, INF_SLOT_STS.PEND h.slot, INF_STS.RUNNING, INF_STS.CL_BUSY] s t ∧ Frame [.regs, .inf] s t) ∧
  (∀ (s : State), (s.mailboxNext = none ∨ s.on HNT_STS.HELD = true) → exec (.mailboxWrite) s = .next s) ∧
  (∀ (s : State), s.pwr.topRst = false →
    ∃ t, exec (.tokenRefill) s = .next t ∧ (∀ a < 8, t.get (HNT_ACC_LVL.TOKENS a) = min 32 (s.get (HNT_ACC_LVL.TOKENS a) + 1)) ∧ RegsOnly ((List.range 8).map (fun a => HNT_ACC_LVL.TOKENS a)) s t ∧ Frame [.regs] s t) ∧
  (∀ (s : State), s.pwr.topRst = true → exec (.tokenRefill) s = .next s) ∧
  (∀ (s : State) (ini : Initiator), s.judge ini true HNT_CTL.FLUSH.addr = .allowed →
    ∃ t, exec (.hintFlush ini) s = .next t ∧ t.inf.hints = [] ∧ t.inf.firing = s.inf.firing ∧ (∀ a < 8, t.get (HNT_ACC_LVL.QLEVEL a) = 0) ∧ t.bus = .written ∧ RegsOnly ((s.inf.hints.map (fun h => HNT_ACC_CNT1.DROPPED h.acc)) ++ (List.range 8).map (fun a => HNT_ACC_LVL.QLEVEL a)) s t ∧ Frame [.regs, .inf, .bus] s t) ∧
  (∀ (s : State) (ini : Initiator), s.judge ini true HNT_CNT_CLR.CLR.addr = .allowed →
    ∃ t, exec (.hntCntClr ini) s = .next t ∧ (∀ a < 8, t.get (HNT_ACC_CNT0.ACCEPTED a) = 0 ∧ t.get (HNT_ACC_CNT0.FIRED a) = 0 ∧ t.get (HNT_ACC_CNT1.REFUSED a) = 0 ∧ t.get (HNT_ACC_CNT1.DROPPED a) = 0) ∧ t.bus = .written ∧ RegsOnly ((List.range 8).flatMap (fun a => [HNT_ACC_CNT0.ACCEPTED a, HNT_ACC_CNT0.FIRED a, HNT_ACC_CNT1.REFUSED a, HNT_ACC_CNT1.DROPPED a])) s t ∧ Frame [.regs, .bus] s t)

/-- An allowed START of an enabled OFF port begins auto-negotiation, or training without it, while BASE runs from the host reference, else it waits in REF; of a port not enabled, or in another state, it is only noted. RETRAIN of an enabled, started port that is not OFF begins again, counting in DOWN where it was UP; of an OFF port it only completes. The end of auto-negotiation or training makes the port UP with FEC_LOCK and its PMD active; in other states it does nothing. An enabled, started port other than a NET0 that is the reference, dropping link in UP, counts in DOWN and begins again; an attempt that fails waits; a waiting port begins again at its retry; elsewhere these do nothing. CNT_CLR zeroes the six counters named here. A resolution or echo request for an address of a port whose link is UP, or of a running SVC, with the tag that the port uses, is answered with that tag, at once or, while the gate of the sender's domain is asked for, held at its port; for another address, or with another tag, it counts in OTHER of a NET port; a bad frame counts in BAD; the FEC codewords met by a frame of a NET port that is UP count in NETn_FEC; one that is down answers nothing and counts nothing. The retry of a dropped link at once, the addresses answered for and the tag rule are log entry 40. -/
def Obligations.NetPortsTrain : Prop :=
  (∀ (s : State) (ini : Initiator) (n : Fin 2), s.judge ini true (NET_CTL.START n.val).addr = .allowed → s.on (NET_CFG.EN n.val) = true → s.get (NET_STS.STATE n.val) = 0 → s.baseSrc = srcHost →
    ∃ t, exec (.netStart ini n) s = .next t ∧ t.on (NET_CTL.START n.val) = true ∧ t.get (NET_STS.STATE n.val) = (if s.on (NET_CFG.AN n.val) then 1 else 2) ∧ t.bus = .written ∧ RegsOnly [NET_CTL.START n.val, NET_STS.STATE n.val] s t ∧ Frame [.regs, .bus] s t) ∧
  (∀ (s : State) (ini : Initiator) (n : Fin 2), s.judge ini true (NET_CTL.START n.val).addr = .allowed → s.on (NET_CFG.EN n.val) = true → s.get (NET_STS.STATE n.val) = 0 → s.baseSrc ≠ srcHost →
    ∃ t, exec (.netStart ini n) s = .next t ∧ t.on (NET_CTL.START n.val) = true ∧ t.get (NET_STS.STATE n.val) = 5 ∧ t.bus = .written ∧ RegsOnly [NET_CTL.START n.val, NET_STS.STATE n.val] s t ∧ Frame [.regs, .bus] s t) ∧
  (∀ (s : State) (ini : Initiator) (n : Fin 2), s.judge ini true (NET_CTL.START n.val).addr = .allowed → (s.on (NET_CFG.EN n.val) = false ∨ s.get (NET_STS.STATE n.val) ≠ 0) →
    ∃ t, exec (.netStart ini n) s = .next t ∧ t.on (NET_CTL.START n.val) = true ∧ t.bus = .written ∧ RegsOnly [NET_CTL.START n.val] s t ∧ Frame [.regs, .bus] s t) ∧
  (∀ (s : State) (ini : Initiator) (n : Fin 2), s.judge ini true (NET_CTL.RETRAIN n.val).addr = .allowed → s.get (NET_STS.STATE n.val) ≠ 0 → s.on (NET_CFG.EN n.val) = true → s.on (NET_CTL.START n.val) = true →
    ∃ t, exec (.netRetrain ini n) s = .next t ∧ t.get (NET_STS.STATE n.val) = (if s.baseSrc = srcHost then (if s.on (NET_CFG.AN n.val) then 1 else 2) else 5) ∧ t.get (NET_LINK.DOWN n.val) = satCount (NET_LINK.DOWN n.val).w (s.get (NET_LINK.DOWN n.val)) (b2n (s.get (NET_STS.STATE n.val) == 3)) ∧ t.bus = .written ∧ RegsOnly [NET_STS.STATE n.val, NET_LINK.DOWN n.val, NET_STS.FEC_LOCK n.val, NET_STS.PMD_ACT n.val] s t ∧ Frame [.regs, .bus] s t) ∧
  (∀ (s : State) (ini : Initiator) (n : Fin 2), s.judge ini true (NET_CTL.RETRAIN n.val).addr = .allowed → s.get (NET_STS.STATE n.val) = 0 →
    ∃ t, exec (.netRetrain ini n) s = .next t ∧ t.bus = .written ∧ Frame [.bus] s t) ∧
  (∀ (s : State) (n : Fin 2), (s.get (NET_STS.STATE n.val) = 1 ∨ s.get (NET_STS.STATE n.val) = 2) →
    ∃ t, exec (.netLinkUp n) s = .next t ∧ t.get (NET_STS.STATE n.val) = 3 ∧ t.on (NET_STS.FEC_LOCK n.val) = true ∧ t.get (NET_STS.PMD_ACT n.val) = s.get (NET_CFG.PMD n.val) ∧ RegsOnly [NET_STS.STATE n.val, NET_STS.FEC_LOCK n.val, NET_STS.PMD_ACT n.val] s t ∧ Frame [.regs] s t) ∧
  (∀ (s : State) (n : Fin 2), s.get (NET_STS.STATE n.val) ≠ 1 → s.get (NET_STS.STATE n.val) ≠ 2 → exec (.netLinkUp n) s = .next s) ∧
  (∀ (s : State) (n : Fin 2), s.get (NET_STS.STATE n.val) = 3 → (n.val = 1 ∨ s.on CLK_CTL.REF_SEL = false) → s.on (NET_CFG.EN n.val) = true → s.on (NET_CTL.START n.val) = true →
    ∃ t, exec (.netLinkDown n) s = .next t ∧ t.get (NET_STS.STATE n.val) = (if s.baseSrc = srcHost then (if s.on (NET_CFG.AN n.val) then 1 else 2) else 5) ∧ t.get (NET_LINK.DOWN n.val) = satCount (NET_LINK.DOWN n.val).w (s.get (NET_LINK.DOWN n.val)) 1 ∧ t.on (NET_STS.FEC_LOCK n.val) = false ∧ RegsOnly [NET_STS.STATE n.val, NET_LINK.DOWN n.val, NET_STS.FEC_LOCK n.val, NET_STS.PMD_ACT n.val] s t ∧ Frame [.regs] s t) ∧
  (∀ (s : State) (n : Fin 2), (s.get (NET_STS.STATE n.val) = 1 ∨ s.get (NET_STS.STATE n.val) = 2) → (n.val = 1 ∨ s.on CLK_CTL.REF_SEL = false) →
    ∃ t, exec (.netLinkDown n) s = .next t ∧ t.get (NET_STS.STATE n.val) = 4 ∧ RegsOnly [NET_STS.STATE n.val] s t ∧ Frame [.regs] s t) ∧
  (∀ (s : State) (n : Fin 2), (s.get (NET_STS.STATE n.val) = 0 ∨ s.get (NET_STS.STATE n.val) = 4) → exec (.netLinkDown n) s = .next s) ∧
  (∀ (s : State) (n : Fin 2), s.get (NET_STS.STATE n.val) = 4 → s.on (NET_CFG.EN n.val) = true → s.on (NET_CTL.START n.val) = true →
    ∃ t, exec (.netRetry n) s = .next t ∧ t.get (NET_STS.STATE n.val) = (if s.baseSrc = srcHost then (if s.on (NET_CFG.AN n.val) then 1 else 2) else 5) ∧ RegsOnly [NET_STS.STATE n.val] s t ∧ Frame [.regs] s t) ∧
  (∀ (s : State) (n : Fin 2), s.get (NET_STS.STATE n.val) ≠ 4 → exec (.netRetry n) s = .next s) ∧
  (∀ (s : State) (ini : Initiator) (n : Fin 2), s.judge ini true (NET_CNT_CLR.CLR n.val).addr = .allowed →
    ∃ t, exec (.netCntClr ini n) s = .next t ∧ t.get (NET_FEC.CORR n.val) = 0 ∧ t.get (NET_FEC.UNCORR n.val) = 0 ∧ t.get (NET_RX.CNT n.val) = 0 ∧ t.get (NET_DROP.BAD n.val) = 0 ∧ t.get (NET_DROP.OTHER n.val) = 0 ∧ t.get (NET_LINK.DOWN n.val) = 0 ∧ t.bus = .written ∧ RegsOnly [NET_FEC.CORR n.val, NET_FEC.UNCORR n.val, NET_RX.CNT n.val, NET_DROP.BAD n.val, NET_DROP.OTHER n.val, NET_LINK.DOWN n.val] s t ∧ Frame [.regs, .bus] s t) ∧
  (∀ (s : State) (p : Fin 3) (vid : Option (BitVec 12)) (f : ServiceFrame) (fec : FecCount) (v6 : Bool) (ip : BitVec 128), (f = .resolve v6 ip ∨ f = .echo v6 ip) → s.ownAddr p.val v6 ip.toNat = true → (p.val < 2 → s.netLink p.val = true) → (p.val = 2 → s.svcRuns = true) → vid = s.netTag p.val → ((Sent.answer p.val vid f).domain.map s.gateAsked).getD false = false →
    ∃ t, exec (.netServiceFrame p f vid fec) s = .next t ∧ t.ses.sent = [.answer p.val vid f] ∧ t.ses.sess = s.ses.sess ∧ t.ses.rxq = s.ses.rxq ∧ t.ses.parts = s.ses.parts ∧ t.ses.txHeld = s.ses.txHeld ∧ (p.val < 2 → t.get (NET_FEC.CORR p.val) = satCount (NET_FEC.CORR p.val).w (s.get (NET_FEC.CORR p.val)) fec.corrected.toNat ∧ t.get (NET_FEC.UNCORR p.val) = satCount (NET_FEC.UNCORR p.val).w (s.get (NET_FEC.UNCORR p.val)) fec.uncorrectable.toNat) ∧ RegsOnly [NET_FEC.CORR p.val, NET_FEC.UNCORR p.val] s t ∧ Frame [.regs, .ses] s t) ∧
  (∀ (s : State) (p : Fin 3) (vid : Option (BitVec 12)) (f : ServiceFrame) (fec : FecCount) (v6 : Bool) (ip : BitVec 128), (f = .resolve v6 ip ∨ f = .echo v6 ip) → s.ownAddr p.val v6 ip.toNat = true → (p.val < 2 → s.netLink p.val = true) → (p.val = 2 → s.svcRuns = true) → vid = s.netTag p.val → ((Sent.answer p.val vid f).domain.map s.gateAsked).getD false = true →
    ∃ t, exec (.netServiceFrame p f vid fec) s = .next t ∧ t.ses.sent = [] ∧ t.ses.sess = s.ses.sess ∧ t.ses.rxq = s.ses.rxq ∧ t.ses.parts = s.ses.parts ∧ t.ses.txHeld = s.ses.txHeld ++ [.answer p.val vid f] ∧ (p.val < 2 → t.get (NET_FEC.CORR p.val) = satCount (NET_FEC.CORR p.val).w (s.get (NET_FEC.CORR p.val)) fec.corrected.toNat ∧ t.get (NET_FEC.UNCORR p.val) = satCount (NET_FEC.UNCORR p.val).w (s.get (NET_FEC.UNCORR p.val)) fec.uncorrectable.toNat) ∧ RegsOnly [NET_FEC.CORR p.val, NET_FEC.UNCORR p.val] s t ∧ Frame [.regs, .ses] s t) ∧
  (∀ (s : State) (p : Fin 3) (vid : Option (BitVec 12)) (f : ServiceFrame) (fec : FecCount) (v6 : Bool) (ip : BitVec 128), (f = .resolve v6 ip ∨ f = .echo v6 ip) → (s.ownAddr p.val v6 ip.toNat = false ∨ vid ≠ s.netTag p.val) → p.val < 2 → s.netLink p.val = true →
    ∃ t, exec (.netServiceFrame p f vid fec) s = .next t ∧ t.ses.sent = [] ∧ t.get (NET_DROP.OTHER p.val) = satCount (NET_DROP.OTHER p.val).w (s.get (NET_DROP.OTHER p.val)) 1 ∧ (p.val < 2 → t.get (NET_FEC.CORR p.val) = satCount (NET_FEC.CORR p.val).w (s.get (NET_FEC.CORR p.val)) fec.corrected.toNat ∧ t.get (NET_FEC.UNCORR p.val) = satCount (NET_FEC.UNCORR p.val).w (s.get (NET_FEC.UNCORR p.val)) fec.uncorrectable.toNat) ∧ RegsOnly [NET_DROP.OTHER p.val, NET_FEC.CORR p.val, NET_FEC.UNCORR p.val] s t ∧ Frame [.regs, .ses] s t) ∧
  (∀ (s : State) (p : Fin 3) (vid : Option (BitVec 12)) (f : ServiceFrame) (fec : FecCount), f = .bad → p.val < 2 → s.netLink p.val = true →
    ∃ t, exec (.netServiceFrame p f vid fec) s = .next t ∧ t.ses.sent = [] ∧ t.get (NET_DROP.BAD p.val) = satCount (NET_DROP.BAD p.val).w (s.get (NET_DROP.BAD p.val)) 1 ∧ (p.val < 2 → t.get (NET_FEC.CORR p.val) = satCount (NET_FEC.CORR p.val).w (s.get (NET_FEC.CORR p.val)) fec.corrected.toNat ∧ t.get (NET_FEC.UNCORR p.val) = satCount (NET_FEC.UNCORR p.val).w (s.get (NET_FEC.UNCORR p.val)) fec.uncorrectable.toNat) ∧ RegsOnly [NET_DROP.BAD p.val, NET_FEC.CORR p.val, NET_FEC.UNCORR p.val] s t ∧ Frame [.regs, .ses] s t) ∧
  (∀ (s : State) (p : Fin 3) (vid : Option (BitVec 12)) (f : ServiceFrame) (fec : FecCount), p.val < 2 → s.netLink p.val = false →
    ∃ t, exec (.netServiceFrame p f vid fec) s = .next t ∧ t.ses.sent = [] ∧ t.ses.rxq = s.ses.rxq ∧ Frame [.ses] s t)

/-- A datagram on a port that is down changes no session and no waiting fragment; else the port's FEC counts go up by its frames' codewords. With another 802.1Q tag than the port's, or of an address family that is off, it counts in OTHER; one that is no fragment counts in BAD; else it counts in NET_RX, and is dropped where no entry has its SID (not 0). A fragment of an open session that is not sealed counts in AUTH_FAIL; the first of several, sealed, counts there where it does not authenticate, and else waits for the others. One that was received before is dropped, one that does not agree with those that wait counts in BAD once it authenticates. THE LAST FRAGMENT COMPLETES THE MESSAGE: a sealed one of an open session, without RESP, that authenticates and is its message's only one, or the last of several that agree, does what the command row of its TYPE (tmpRowOf) does with the message of the joined payloads, on the state that has taken the fragment (fragTaken); the last fragment of an OPEN_REQ (SID 0, in the clear), what OPEN_REQ does; of an OPEN_PROOF of a session in HANDSHAKE, what OPEN_PROOF does. The TYPE codes of the two are the model's free values (R352 lists none; log entry 11). A reassembly timeout drops the fragments of the SID and SEQ (of SID 0: of that source). Tags are log entry 40. -/
def Obligations.FragmentsMakeMessages : Prop :=
  (∀ (s : State) (peer : Peer) (d : List Byte) (fec : FecCount), s.netLink peer.port.val = false →
    ∃ t, exec (.fragmentRx peer d fec) s = .next t ∧ t.ses.sent = [] ∧ t.ses.parts = s.ses.parts ∧ t.ses.sess = s.ses.sess ∧ Frame [.ses] s t) ∧
  (∀ (s : State) (peer : Peer) (d : List Byte) (fec : FecCount), s.netLink peer.port.val = true → (peer.vid ≠ s.netTag peer.port.val ∨ (if peer.v6 then s.on (NET_CFG.V6 peer.port.val) else s.on (NET_CFG.V4 peer.port.val)) = false) →
    ∃ t, exec (.fragmentRx peer d fec) s = .next t ∧ t.get (NET_FEC.CORR peer.port.val) = satCount (NET_FEC.CORR peer.port.val).w (s.get (NET_FEC.CORR peer.port.val)) fec.corrected.toNat ∧ t.get (NET_FEC.UNCORR peer.port.val) = satCount (NET_FEC.UNCORR peer.port.val).w (s.get (NET_FEC.UNCORR peer.port.val)) fec.uncorrectable.toNat ∧ t.ses.sent = [] ∧ t.get (NET_DROP.OTHER peer.port.val) = satCount 16 (s.get (NET_DROP.OTHER peer.port.val)) 1 ∧ RegsOnly [NET_FEC.CORR peer.port.val, NET_FEC.UNCORR peer.port.val, NET_DROP.OTHER peer.port.val] s t ∧ Frame [.regs, .ses] s t) ∧
  (∀ (s : State) (peer : Peer) (d : List Byte) (fec : FecCount), s.netLink peer.port.val = true → peer.vid = s.netTag peer.port.val → (if peer.v6 then s.on (NET_CFG.V6 peer.port.val) else s.on (NET_CFG.V4 peer.port.val)) = true → fragOf d = none →
    ∃ t, exec (.fragmentRx peer d fec) s = .next t ∧ t.get (NET_FEC.CORR peer.port.val) = satCount (NET_FEC.CORR peer.port.val).w (s.get (NET_FEC.CORR peer.port.val)) fec.corrected.toNat ∧ t.get (NET_FEC.UNCORR peer.port.val) = satCount (NET_FEC.UNCORR peer.port.val).w (s.get (NET_FEC.UNCORR peer.port.val)) fec.uncorrectable.toNat ∧ t.ses.sent = [] ∧ t.get (NET_DROP.BAD peer.port.val) = satCount 16 (s.get (NET_DROP.BAD peer.port.val)) 1 ∧ RegsOnly [NET_FEC.CORR peer.port.val, NET_FEC.UNCORR peer.port.val, NET_DROP.BAD peer.port.val] s t ∧ Frame [.regs, .ses] s t) ∧
  (∀ (s : State) (peer : Peer) (d : List Byte) (fec : FecCount) (f : Frag), s.netLink peer.port.val = true → peer.vid = s.netTag peer.port.val → (if peer.v6 then s.on (NET_CFG.V6 peer.port.val) else s.on (NET_CFG.V4 peer.port.val)) = true → fragOf d = some f → f.sid ≠ 0 → s.sidOf f.sid = none →
    ∃ t, exec (.fragmentRx peer d fec) s = .next t ∧ t.get (NET_FEC.CORR peer.port.val) = satCount (NET_FEC.CORR peer.port.val).w (s.get (NET_FEC.CORR peer.port.val)) fec.corrected.toNat ∧ t.get (NET_FEC.UNCORR peer.port.val) = satCount (NET_FEC.UNCORR peer.port.val).w (s.get (NET_FEC.UNCORR peer.port.val)) fec.uncorrectable.toNat ∧ t.ses.sent = [] ∧ t.ses.parts = s.ses.parts ∧ t.get (NET_RX.CNT peer.port.val) = (s.get (NET_RX.CNT peer.port.val) + 1) % 2 ^ 32 ∧ RegsOnly [NET_FEC.CORR peer.port.val, NET_FEC.UNCORR peer.port.val, NET_RX.CNT peer.port.val] s t ∧ Frame [.regs, .ses] s t) ∧
  (∀ (s : State) (peer : Peer) (d : List Byte) (fec : FecCount) (f : Frag) (n : Nat), s.netLink peer.port.val = true → peer.vid = s.netTag peer.port.val → (if peer.v6 then s.on (NET_CFG.V6 peer.port.val) else s.on (NET_CFG.V4 peer.port.val)) = true → fragOf d = some f → f.sid ≠ 0 → s.sidOf f.sid = some n → s.isOpen n = true → 2 ≤ f.flags → 1 < f.fcnt → (∀ p ∈ s.ses.parts, p.of peer f.sid f.seq = false) →
    ∃ t, exec (.fragmentRx peer d fec) s = .next t ∧ t.get (NET_FEC.CORR peer.port.val) = satCount (NET_FEC.CORR peer.port.val).w (s.get (NET_FEC.CORR peer.port.val)) fec.corrected.toNat ∧ t.get (NET_FEC.UNCORR peer.port.val) = satCount (NET_FEC.UNCORR peer.port.val).w (s.get (NET_FEC.UNCORR peer.port.val)) fec.uncorrectable.toNat ∧ t.get (NET_RX.CNT peer.port.val) = (s.get (NET_RX.CNT peer.port.val) + 1) % 2 ^ 32 ∧ t.ses.sent = [] ∧ (Config.gcmOpen (s.sess n).rxKey (tmpNonce (s.sess n).rxSalt f.fidx f.seq) f.head f.body = none → t.get SES_ERR0.AUTH_FAIL = satCount 16 (s.get SES_ERR0.AUTH_FAIL) 1 ∧ t.ses.parts = s.ses.parts) ∧ (∀ b, Config.gcmOpen (s.sess n).rxKey (tmpNonce (s.sess n).rxSalt f.fidx f.seq) f.head f.body = some b → t.ses.parts = s.ses.parts ++ [{ peer := peer, vmaj := f.vmaj, vmin := f.vmin, type := f.type, flags := f.flags, sid := f.sid, seq := f.seq, fcnt := f.fcnt, frags := [(f.fidx, b)] }]) ∧ RegsOnly [NET_FEC.CORR peer.port.val, NET_FEC.UNCORR peer.port.val, NET_RX.CNT peer.port.val, SES_ERR0.AUTH_FAIL] s t ∧ Frame [.regs, .ses] s t) ∧
  (∀ (s : State) (peer : Peer) (d : List Byte) (fec : FecCount) (f : Frag) (n : Nat), s.netLink peer.port.val = true → peer.vid = s.netTag peer.port.val → (if peer.v6 then s.on (NET_CFG.V6 peer.port.val) else s.on (NET_CFG.V4 peer.port.val)) = true → fragOf d = some f → f.sid ≠ 0 → s.sidOf f.sid = some n → s.isOpen n = true → f.flags < 2 →
    ∃ t, exec (.fragmentRx peer d fec) s = .next t ∧ t.get (NET_FEC.CORR peer.port.val) = satCount (NET_FEC.CORR peer.port.val).w (s.get (NET_FEC.CORR peer.port.val)) fec.corrected.toNat ∧ t.get (NET_FEC.UNCORR peer.port.val) = satCount (NET_FEC.UNCORR peer.port.val).w (s.get (NET_FEC.UNCORR peer.port.val)) fec.uncorrectable.toNat ∧ t.get (NET_RX.CNT peer.port.val) = (s.get (NET_RX.CNT peer.port.val) + 1) % 2 ^ 32 ∧ t.ses.sent = [] ∧ t.get SES_ERR0.AUTH_FAIL = satCount 16 (s.get SES_ERR0.AUTH_FAIL) 1 ∧ t.ses.parts = s.ses.parts ∧ RegsOnly [NET_FEC.CORR peer.port.val, NET_FEC.UNCORR peer.port.val, NET_RX.CNT peer.port.val, SES_ERR0.AUTH_FAIL] s t ∧ Frame [.regs, .ses] s t) ∧
  (∀ (s : State) (peer : Peer) (d : List Byte) (fec : FecCount) (f : Frag) (n : Nat), s.netLink peer.port.val = true → peer.vid = s.netTag peer.port.val → (if peer.v6 then s.on (NET_CFG.V6 peer.port.val) else s.on (NET_CFG.V4 peer.port.val)) = true → fragOf d = some f → f.sid ≠ 0 → s.sidOf f.sid = some n → s.isOpen n = true → f.flags = 2 → f.fcnt = 1 → (∀ p ∈ s.ses.parts, p.of peer f.sid f.seq = false) →
    ∃ t, exec (.fragmentRx peer d fec) s = .next t ∧ (∀ b c, Config.gcmOpen (s.sess n).rxKey (tmpNonce (s.sess n).rxSalt f.fidx f.seq) f.head f.body = some b → tmpRowOf f.type (f.msgOf peer b) = some c → exec c (s.fragTaken peer fec f) = .next t) ∧ Frame [.regs, .time, .clk, .sil, .nvm, .pwr, .brg, .tw, .seq, .tamp, .cool, .tel, .inf, .otp, .acd, .key, .fw, .ses, .sec, .flash, .bus, .mem, .fresh] s t) ∧
  (∀ (s : State) (peer : Peer) (d : List Byte) (fec : FecCount) (f : Frag) (n : Nat) (q : Partial), s.netLink peer.port.val = true → peer.vid = s.netTag peer.port.val → (if peer.v6 then s.on (NET_CFG.V6 peer.port.val) else s.on (NET_CFG.V4 peer.port.val)) = true → fragOf d = some f → f.sid ≠ 0 → s.sidOf f.sid = some n → s.isOpen n = true → f.flags = 2 → s.ses.parts.find? (fun p => p.of peer f.sid f.seq) = some q → q.agrees f = true → look f.fidx q.frags = none → q.frags.length + 1 = f.fcnt →
    ∃ t, exec (.fragmentRx peer d fec) s = .next t ∧ (∀ b c, Config.gcmOpen (s.sess n).rxKey (tmpNonce (s.sess n).rxSalt f.fidx f.seq) f.head f.body = some b → tmpRowOf f.type (f.msgOf peer ((put f.fidx b q.frags).flatMap (fun x => x.2))) = some c → exec c (s.fragTaken peer fec f) = .next t) ∧ Frame [.regs, .time, .clk, .sil, .nvm, .pwr, .brg, .tw, .seq, .tamp, .cool, .tel, .inf, .otp, .acd, .key, .fw, .ses, .sec, .flash, .bus, .mem, .fresh] s t) ∧
  (∀ (s : State) (peer : Peer) (d : List Byte) (fec : FecCount) (f : Frag) (n : Nat) (q : Partial), s.netLink peer.port.val = true → peer.vid = s.netTag peer.port.val → (if peer.v6 then s.on (NET_CFG.V6 peer.port.val) else s.on (NET_CFG.V4 peer.port.val)) = true → fragOf d = some f → f.sid ≠ 0 → s.sidOf f.sid = some n → s.isOpen n = true → f.flags = 2 → s.ses.parts.find? (fun p => p.of peer f.sid f.seq) = some q → q.agrees f = true → (look f.fidx q.frags).isSome = true →
    ∃ t, exec (.fragmentRx peer d fec) s = .next t ∧ t.get (NET_FEC.CORR peer.port.val) = satCount (NET_FEC.CORR peer.port.val).w (s.get (NET_FEC.CORR peer.port.val)) fec.corrected.toNat ∧ t.get (NET_FEC.UNCORR peer.port.val) = satCount (NET_FEC.UNCORR peer.port.val).w (s.get (NET_FEC.UNCORR peer.port.val)) fec.uncorrectable.toNat ∧ t.get (NET_RX.CNT peer.port.val) = (s.get (NET_RX.CNT peer.port.val) + 1) % 2 ^ 32 ∧ t.ses.sent = [] ∧ t.ses.parts = s.ses.parts ∧ t.ses.sess = s.ses.sess ∧ RegsOnly [NET_FEC.CORR peer.port.val, NET_FEC.UNCORR peer.port.val, NET_RX.CNT peer.port.val, SES_ERR0.AUTH_FAIL] s t ∧ Frame [.regs, .ses] s t) ∧
  (∀ (s : State) (peer : Peer) (d : List Byte) (fec : FecCount) (f : Frag) (n : Nat) (q : Partial), s.netLink peer.port.val = true → peer.vid = s.netTag peer.port.val → (if peer.v6 then s.on (NET_CFG.V6 peer.port.val) else s.on (NET_CFG.V4 peer.port.val)) = true → fragOf d = some f → f.sid ≠ 0 → s.sidOf f.sid = some n → s.isOpen n = true → f.flags = 2 → s.ses.parts.find? (fun p => p.of peer f.sid f.seq) = some q → q.agrees f = false →
    ∃ t, exec (.fragmentRx peer d fec) s = .next t ∧ t.get (NET_FEC.CORR peer.port.val) = satCount (NET_FEC.CORR peer.port.val).w (s.get (NET_FEC.CORR peer.port.val)) fec.corrected.toNat ∧ t.get (NET_FEC.UNCORR peer.port.val) = satCount (NET_FEC.UNCORR peer.port.val).w (s.get (NET_FEC.UNCORR peer.port.val)) fec.uncorrectable.toNat ∧ t.get (NET_RX.CNT peer.port.val) = (s.get (NET_RX.CNT peer.port.val) + 1) % 2 ^ 32 ∧ t.ses.sent = [] ∧ t.ses.parts = s.ses.parts ∧ t.ses.sess = s.ses.sess ∧ (∀ b, Config.gcmOpen (s.sess n).rxKey (tmpNonce (s.sess n).rxSalt f.fidx f.seq) f.head f.body = some b → t.get (NET_DROP.BAD peer.port.val) = satCount 16 (s.get (NET_DROP.BAD peer.port.val)) 1) ∧ RegsOnly [NET_FEC.CORR peer.port.val, NET_FEC.UNCORR peer.port.val, NET_RX.CNT peer.port.val, SES_ERR0.AUTH_FAIL, NET_DROP.BAD peer.port.val] s t ∧ Frame [.regs, .ses] s t) ∧
  (∀ (s : State) (peer : Peer) (d : List Byte) (fec : FecCount) (f : Frag) (q : Partial), s.netLink peer.port.val = true → peer.vid = s.netTag peer.port.val → (if peer.v6 then s.on (NET_CFG.V6 peer.port.val) else s.on (NET_CFG.V4 peer.port.val)) = true → fragOf d = some f → f.sid = 0 → f.type = tyOpenReq → f.flags < 2 → s.ses.parts.find? (fun p => p.of peer f.sid f.seq) = some q → q.agrees f = true → look f.fidx q.frags = none → q.frags.length + 1 = f.fcnt →
    ∃ t, exec (.fragmentRx peer d fec) s = .next t ∧ exec (.openReq (f.msgOf peer ((put f.fidx f.body q.frags).flatMap (fun x => x.2)))) (s.fragTaken peer fec f) = .next t ∧ Frame [.regs, .time, .clk, .sil, .nvm, .pwr, .brg, .tw, .seq, .tamp, .cool, .tel, .inf, .otp, .acd, .key, .fw, .ses, .sec, .flash, .bus, .mem, .fresh] s t) ∧
  (∀ (s : State) (peer : Peer) (d : List Byte) (fec : FecCount) (f : Frag) (n : Nat) (q : Partial), s.netLink peer.port.val = true → peer.vid = s.netTag peer.port.val → (if peer.v6 then s.on (NET_CFG.V6 peer.port.val) else s.on (NET_CFG.V4 peer.port.val)) = true → fragOf d = some f → f.sid ≠ 0 → s.sidOf f.sid = some n → s.sesState n = 1 → f.type = tyOpenProof → f.flags < 2 → s.ses.parts.find? (fun p => p.of peer f.sid f.seq) = some q → q.agrees f = true → look f.fidx q.frags = none → q.frags.length + 1 = f.fcnt →
    ∃ t, exec (.fragmentRx peer d fec) s = .next t ∧ exec (.openProof (f.msgOf peer ((put f.fidx f.body q.frags).flatMap (fun x => x.2)))) (s.fragTaken peer fec f) = .next t ∧ Frame [.regs, .time, .clk, .sil, .nvm, .pwr, .brg, .tw, .seq, .tamp, .cool, .tel, .inf, .otp, .acd, .key, .fw, .ses, .sec, .flash, .bus, .mem, .fresh] s t) ∧
  (∀ (s : State) (peer : Option Peer) (sid : BitVec 32) (seq : BitVec 64),
    ∃ t, exec (.reassemblyTimeout sid seq peer) s = .next t ∧ t.ses.parts = s.ses.parts.filter (fun p => !(p.sid == sid.toNat && p.seq == seq.toNat && (sid.toNat != 0 || some p.peer == peer))) ∧ t.ses.sess = s.ses.sess ∧ t.ses.rxq = s.ses.rxq ∧ t.ses.sent = s.ses.sent ∧ Frame [.ses] s t)

/-- OPEN_REQ (SID 0, link UP) is answered OPEN_ERR and counted in HS_FAIL: BUSY while openings are refused, BAD_MSG where it is not formed so, NOKEY with a key in no scope, CLASS without a granted class; else the lowest free entry becomes HANDSHAKE with a SID that is not 0, and one message is sent. On a link that is down, or with another SID, nothing is sent. OPEN_PROOF of a session in HANDSHAKE is answered BAD_MSG at another length than 3,373 and BADSIG with a bad signature, BUSY while the port of domain 7 takes nothing, its entry freed; a good one with a granted class, outside A1 and its entry, opens the session with the scope's mask, the classes (Observer alone with another VMAJ, MISMATCH), both keys, one message and OPENED; in A1 it opens the session and leaves A1, and a bad one frees the entry and stays. OPEN_PROOF_TIMEOUT frees an entry in HANDSHAKE and counts it, and does nothing elsewhere. CLOSE of a message that passes R351 sends its OK first and then closes; the idle timeout closes an open session and logs it with cause 1, and does nothing to another; CLOSE_ALL closes every open session and no other. Closing zeroes the entry's fields, erases the session and its hints, withdraws its caps and its waiting statements, raises CLOSED. SES_CNT_CLR zeroes the six counters. Keys and NONCE are the model's free functions; log entries 36, 39, 49 name choices. -/
def Obligations.SessionsOpenAndClose : Prop :=
  (∀ (s : State) (m : TmpMsg), s.netLink m.peer.port.val = true → m.sid = 0 → s.openBusy = true →
    ∃ t, exec (.openReq m) s = .next t ∧ t.ses.sent = [.tmp m.peer (s.ipHead m.peer) tyOpenErr 0 m.sid.toNat m.seq.toNat (leBytes 2 5) (s.datagrams m.peer [] [] tyOpenErr 0 m.sid.toNat m.seq.toNat (leBytes 2 5))] ∧ t.get SES_ERR2.HS_FAIL = satCount (SES_ERR2.HS_FAIL).w (s.get SES_ERR2.HS_FAIL) 1 ∧ t.ses.sess = s.ses.sess ∧ RegsOnly [SES_ERR2.HS_FAIL] s t ∧ Frame [.regs, .ses] s t) ∧
  (∀ (s : State) (m : TmpMsg), s.netLink m.peer.port.val = true → m.sid = 0 → s.openBusy = false → openReqForm m.payload = false →
    ∃ t, exec (.openReq m) s = .next t ∧ t.ses.sent = [.tmp m.peer (s.ipHead m.peer) tyOpenErr 0 m.sid.toNat m.seq.toNat (leBytes 2 6) (s.datagrams m.peer [] [] tyOpenErr 0 m.sid.toNat m.seq.toNat (leBytes 2 6))] ∧ t.get SES_ERR2.HS_FAIL = satCount (SES_ERR2.HS_FAIL).w (s.get SES_ERR2.HS_FAIL) 1 ∧ t.ses.sess = s.ses.sess ∧ RegsOnly [SES_ERR2.HS_FAIL, SES_ERR1.BAD_MSG] s t ∧ Frame [.regs, .ses] s t) ∧
  (∀ (s : State) (m : TmpMsg), s.netLink m.peer.port.val = true → m.sid = 0 → s.openBusy = false → openReqForm m.payload = true →
    ∃ t, exec (.openReq m) s = .next t ∧ (s.scopeIdx (keyDigest (reqEd m.payload) (reqMl m.payload)) = none → t.ses.sent = [.tmp m.peer (s.ipHead m.peer) tyOpenErr 0 m.sid.toNat m.seq.toNat (leBytes 2 9) (s.datagrams m.peer [] [] tyOpenErr 0 m.sid.toNat m.seq.toNat (leBytes 2 9))] ∧ t.ses.sess = s.ses.sess ∧ t.get SES_ERR2.HS_FAIL = satCount (SES_ERR2.HS_FAIL).w (s.get SES_ERR2.HS_FAIL) 1) ∧ (∀ i < 64, s.scopeIdx (keyDigest (reqEd m.payload) (reqMl m.payload)) = some i → reqClasses m.payload &&& leAt (s.scopeAt i) 3 1 = 0 → t.ses.sent = [.tmp m.peer (s.ipHead m.peer) tyOpenErr 0 m.sid.toNat m.seq.toNat (leBytes 2 1) (s.datagrams m.peer [] [] tyOpenErr 0 m.sid.toNat m.seq.toNat (leBytes 2 1))] ∧ t.ses.sess = s.ses.sess ∧ t.get SES_ERR2.HS_FAIL = satCount (SES_ERR2.HS_FAIL).w (s.get SES_ERR2.HS_FAIL) 1) ∧ (∀ i < 64, s.scopeIdx (keyDigest (reqEd m.payload) (reqMl m.payload)) = some i → reqClasses m.payload &&& leAt (s.scopeAt i) 3 1 ≠ 0 → t.sesState s.sesFreeIdx = 1 ∧ (t.sess s.sesFreeIdx).hs.isSome = true ∧ (t.sess s.sesFreeIdx).peer = m.peer ∧ t.ses.sent.length = 1 ∧ t.get (SESS_SID.SID s.sesFreeIdx) ≠ 0 ∧ t.get SES_ERR2.HS_FAIL = s.get SES_ERR2.HS_FAIL) ∧ RegsOnly ([SES_ERR2.HS_FAIL, SES_STS.OPEN, SES_STS.HS, SESS_STS.STATE s.sesFreeIdx, SESS_SID.SID s.sesFreeIdx, SESS_STS.PORT s.sesFreeIdx, SESS_STS.IPV6 s.sesFreeIdx]) s t ∧ Frame [.regs, .ses, .fresh] s t) ∧
  (∀ (s : State) (m : TmpMsg), (s.netLink m.peer.port.val = false ∨ m.sid ≠ 0) →
    ∃ t, exec (.openReq m) s = .next t ∧ t.ses.sent = [] ∧ t.ses.sess = s.ses.sess ∧ Frame [.ses] s t) ∧
  (∀ (s : State) (m : TmpMsg) (n : Nat) (h : Hs), s.netLink m.peer.port.val = true → s.sidOf m.sid.toNat = some n → s.sesState n = 1 → (s.sess n).hs = some h → m.payload.length ≠ 3373 →
    ∃ t, exec (.openProof m) s = .next t ∧ t.ses.sent = [.tmp m.peer (s.ipHead m.peer) tyOpenErr 0 m.sid.toNat m.seq.toNat (leBytes 2 6) (s.datagrams m.peer [] [] tyOpenErr 0 m.sid.toNat m.seq.toNat (leBytes 2 6))] ∧ t.get SES_ERR2.HS_FAIL = satCount (SES_ERR2.HS_FAIL).w (s.get SES_ERR2.HS_FAIL) 1 ∧ (∀ f ∈ sesFields n, t.get f = 0) ∧ t.sess n = {} ∧ RegsOnly (sesFields n ++ [SES_STS.OPEN, SES_STS.HS] ++ [SES_ERR2.HS_FAIL, SES_ERR1.BAD_MSG]) s t ∧ Frame [.regs, .ses] s t) ∧
  (∀ (s : State) (m : TmpMsg) (n : Nat) (h : Hs), s.netLink m.peer.port.val = true → s.sidOf m.sid.toNat = some n → s.sesState n = 1 → s.portShut 7 = false → (s.sess n).hs = some h → m.payload.length = 3373 → s.cur ≠ 1 → s.pwr.trans ≠ some .toA1 →
    ∃ t, exec (.openProof m) s = .next t ∧ (bothVerify h.edPub h.mlPub h.th2 m.payload = false → t.ses.sent = [.tmp m.peer (s.ipHead m.peer) tyOpenErr 0 m.sid.toNat m.seq.toNat (leBytes 2 0x0A) (s.datagrams m.peer [] [] tyOpenErr 0 m.sid.toNat m.seq.toNat (leBytes 2 0x0A))] ∧ (∀ f ∈ sesFields n, t.get f = 0) ∧ t.sess n = {} ∧ t.get SES_ERR2.HS_FAIL = satCount (SES_ERR2.HS_FAIL).w (s.get SES_ERR2.HS_FAIL) 1) ∧ (∀ i < 64, bothVerify h.edPub h.mlPub h.th2 m.payload = true ∧ s.scopeIdx (s.sess n).keyDg = some i ∧ h.classes &&& leAt (s.scopeAt i) 3 1 ≠ 0 → t.sesState n = 2 ∧ t.get (SESS_SID.SID n) = s.get (SESS_SID.SID n) ∧ t.get (SESS_STS.SCOPE n) = i ∧ t.get (SESS_MASK.ACC_MASK n) = leAt (s.scopeAt i) 0 1 ∧ t.get (SESS_STS.CLASSES n) = (if m.vmaj.val = s.get SES_VER.MAJ then (h.classes &&& leAt (s.scopeAt i) 3 1) % 8 else 1) ∧ t.on (SESS_STS.MISMATCH n) = decide (m.vmaj.val ≠ s.get SES_VER.MAJ)) ∧ (∀ i < 64, bothVerify h.edPub h.mlPub h.th2 m.payload = true ∧ s.scopeIdx (s.sess n).keyDg = some i ∧ h.classes &&& leAt (s.scopeAt i) 3 1 ≠ 0 → (t.sess n).rxKey = slice (sesKeys h) 0 32 ∧ (t.sess n).txKey = slice (sesKeys h) 32 32 ∧ (t.sess n).hs.isNone = true ∧ t.ses.sent.length = 1 ∧ t.on SES_IRQ_STS.OPENED = true) ∧ Frame [.regs, .brg, .ses] s t) ∧
  (∀ (s : State) (m : TmpMsg) (n : Nat) (h : Hs) (i : Nat), s.netLink m.peer.port.val = true → s.sidOf m.sid.toNat = some n → s.sesState n = 1 → s.portShut 7 = false → (s.sess n).hs = some h → m.payload.length = 3373 → s.cur = 1 → s.pwr.trans = none → s.scopeIdx (s.sess n).keyDg = some i → i < 64 → h.classes &&& leAt (s.scopeAt i) 3 1 ≠ 0 →
    ∃ t, exec (.openProof m) s = .next t ∧ (bothVerify h.edPub h.mlPub h.th2 m.payload = true → t.cur = 0 ∧ t.sesState n = 2) ∧ (bothVerify h.edPub h.mlPub h.th2 m.payload = false → t.cur = 1 ∧ t.sesState n = 0) ∧ Frame [.regs, .time, .clk, .sil, .pwr, .brg, .tw, .seq, .tamp, .cool, .tel, .inf, .acd, .fw, .ses, .sec, .bus, .mem] s t) ∧
  (∀ (s : State) (m : TmpMsg) (n : Nat) (h : Hs), s.netLink m.peer.port.val = true → s.sidOf m.sid.toNat = some n → s.sesState n = 1 → s.portShut 7 = true → (s.sess n).hs = some h → m.payload.length = 3373 →
    ∃ t, exec (.openProof m) s = .next t ∧ t.ses.sent = [.tmp m.peer (s.ipHead m.peer) tyOpenErr 0 m.sid.toNat m.seq.toNat (leBytes 2 5) (s.datagrams m.peer [] [] tyOpenErr 0 m.sid.toNat m.seq.toNat (leBytes 2 5))] ∧ t.get SES_ERR2.HS_FAIL = satCount (SES_ERR2.HS_FAIL).w (s.get SES_ERR2.HS_FAIL) 1 ∧ (∀ f ∈ sesFields n, t.get f = 0) ∧ t.sess n = {} ∧ RegsOnly (sesFields n ++ [SES_STS.OPEN, SES_STS.HS] ++ [SES_ERR2.HS_FAIL]) s t ∧ Frame [.regs, .ses] s t) ∧
  (∀ (s : State) (n : Fin 16), s.sesState n.val = 1 →
    ∃ t, exec (.openProofTimeout n) s = .next t ∧ (∀ f ∈ sesFields n.val, t.get f = 0) ∧ t.sess n.val = {} ∧ t.get SES_ERR2.HS_FAIL = satCount (SES_ERR2.HS_FAIL).w (s.get SES_ERR2.HS_FAIL) 1 ∧ RegsOnly (sesFields n.val ++ [SES_STS.OPEN, SES_STS.HS] ++ [SES_ERR2.HS_FAIL]) s t ∧ Frame [.regs, .ses] s t) ∧
  (∀ (s : State) (n : Fin 16), s.sesState n.val ≠ 1 → exec (.openProofTimeout n) s = .next s) ∧
  (∀ (s : State) (m : TmpMsg) (n : Nat), s.msgPasses n tyClose m = true →
    ∃ t, exec (.tmpClose m) s = .next t ∧ t.ses.sent = [s.answer n m tyClose 0 0 []] ∧ (∀ f ∈ sesFields n, t.get f = 0) ∧ t.sess n = {} ∧ (∀ h ∈ t.inf.hints, h.session ≠ n) ∧ t.on SES_IRQ_STS.CLOSED = true ∧ (∀ k < 9, t.get (SES_CAP.CAP k) = (t.capOf k).1 % 2 ^ (SES_CAP.CAP k).w) ∧ (∀ e ∈ t.acd.stmts, e.1 ≠ n) ∧ RegsOnly (sesFields n ++ [SES_STS.OPEN, SES_STS.HS, SES_JOB.RUNNING, SES_JOB.BOUNDARY, SES_STS.BND, SES_IRQ_STS.BND_RISE, SES_IRQ_STS.FLOOR, SES_IRQ_STS.CLOSED] ++ (List.range 9).flatMap (fun k => [SES_CAP.CAP k, SES_CAP.SRC k, SES_CAP.SET k]) ++ (List.range 8).flatMap (fun z => [SES_ZFLOOR.FLOOR z, SES_ZFLOOR.SRC z, SES_ZFLOOR.SET z, COOL_ZONE_FLOOR.FLOOR z]) ++ (List.range 6).flatMap (fun p => [SES_PFLOOR.FLOOR p, SES_PFLOOR.SRC p, SES_PFLOOR.SET p, COOL_PMP_FLOOR.FLOOR p]) ++ s.inf.hints.map (fun h => HNT_ACC_CNT1.DROPPED h.acc) ++ (List.range 8).map (fun a => HNT_ACC_LVL.QLEVEL a)) s t ∧ Frame [.regs, .brg, .inf, .acd, .ses] s t) ∧
  (∀ (s : State) (n : Fin 16), s.isOpen n.val = true →
    ∃ t, exec (.idleTimeout n) s = .next t ∧ (∀ f ∈ sesFields n.val, t.get f = 0) ∧ t.sess n.val = {} ∧ (∀ h ∈ t.inf.hints, h.session ≠ n.val) ∧ t.on SES_IRQ_STS.CLOSED = true ∧ (∀ k < 9, t.get (SES_CAP.CAP k) = (t.capOf k).1 % 2 ^ (SES_CAP.CAP k).w) ∧ (∀ e ∈ t.acd.stmts, e.1 ≠ n.val) ∧ t.brg = (s.logTop EVT_SES_CLOSE ACC_TRAY UNIT_SES n.val [(0, 4, s.get (SESS_SID.SID n.val)), (4, 1, 1)]).brg ∧ RegsOnly (sesFields n.val ++ [SES_STS.OPEN, SES_STS.HS, SES_JOB.RUNNING, SES_JOB.BOUNDARY, SES_STS.BND, SES_IRQ_STS.BND_RISE, SES_IRQ_STS.FLOOR, SES_IRQ_STS.CLOSED] ++ (List.range 9).flatMap (fun k => [SES_CAP.CAP k, SES_CAP.SRC k, SES_CAP.SET k]) ++ (List.range 8).flatMap (fun z => [SES_ZFLOOR.FLOOR z, SES_ZFLOOR.SRC z, SES_ZFLOOR.SET z, COOL_ZONE_FLOOR.FLOOR z]) ++ (List.range 6).flatMap (fun p => [SES_PFLOOR.FLOOR p, SES_PFLOOR.SRC p, SES_PFLOOR.SET p, COOL_PMP_FLOOR.FLOOR p]) ++ s.inf.hints.map (fun h => HNT_ACC_CNT1.DROPPED h.acc) ++ (List.range 8).map (fun a => HNT_ACC_LVL.QLEVEL a)) s t ∧ Frame [.regs, .brg, .inf, .acd, .ses] s t) ∧
  (∀ (s : State) (n : Fin 16), s.isOpen n.val = false → exec (.idleTimeout n) s = .next s) ∧
  (∀ (s : State) (ini : Initiator), s.judge ini true SES_CTL.CLOSE_ALL.addr = .allowed →
    ∃ t, exec (.closeAll ini) s = .next t ∧ (∀ n < 16, t.isOpen n = false) ∧ (∀ n < 16, s.isOpen n = true → t.sess n = {} ∧ t.get (SESS_SID.SID n) = 0) ∧ (∀ n < 16, s.isOpen n = false → t.sess n = s.sess n) ∧ t.bus = .written ∧ Frame [.regs, .brg, .inf, .acd, .ses, .bus] s t) ∧
  (∀ (s : State) (ini : Initiator), s.judge ini true SES_CNT_CLR.CLR.addr = .allowed →
    ∃ t, exec (.sesCntClr ini) s = .next t ∧ t.get SES_ERR0.AUTH_FAIL = 0 ∧ t.get SES_ERR0.REPLAY = 0 ∧ t.get SES_ERR1.BAD_MSG = 0 ∧ t.get SES_ERR1.DENIED = 0 ∧ t.get SES_ERR2.HS_FAIL = 0 ∧ t.get SES_ERR2.RXQ_FULL = 0 ∧ t.bus = .written ∧ RegsOnly [SES_ERR0.AUTH_FAIL, SES_ERR0.REPLAY, SES_ERR1.BAD_MSG, SES_ERR1.DENIED, SES_ERR2.HS_FAIL, SES_ERR2.RXQ_FULL] s t ∧ Frame [.regs, .bus] s t)

/-- Each clause but the three named takes a message that passes every check of R351 in A0 (msgPasses): its SEQ raises the session's highest one where it is higher, and the session takes its peer and the time; it is answered OK with the type, unless said otherwise. PING and WDT_KICK carry no body; READ_STAT one FP32 of the statistic per entry, with descriptors that its reads find uncorrectable counted first; STATUS the heartbeat payload, whose unit identifier and time are shown; SUBSCRIBE sets EVENTS and RECORDER, events from the next record on, buffers from the newest or from BUFSEQ, and a fifth recorder subscription is answered BUSY; FP_STATEMENT, asked by any class, waits with keys, no debug and fewer than 17 in hand (one in work and 16 waiting), is BUSY beyond, and REFUSED with DETAIL 1 with debug open. SET_CAP of one entry sets the session's cap of that target and every SES_CAP to the lowest of the open sessions; SET_FLOOR of one zone entry sets its floor and every SES_ZFLOOR to the highest; of other sessions nothing changes. JOB sets JOB, SES_JOB and the boundary condition. With the Bridge UP and the watchdog counting, SET_CAP, SET_FLOOR, JOB and WDT_KICK arm it and clear EXPIRED. The three: PING with a SEQ that was seen is counted in REPLAY and not answered; a fresh PING in A1 leaves A1; PING on a link that is down or of no entry is not answered and changes no session. HOLD_MS over, BOUNDARY becomes RUNNING; in another job state nothing happens. Any class for FP_STATEMENT is log entry 37, the 16 that wait 41. -/
def Obligations.SessionMessagesAreServed : Prop :=
  (∀ (s : State) (m : TmpMsg) (n : Nat), s.msgPasses n tyPing m = true →
    ∃ t, exec (.ping m) s = .next t ∧ t.ses.sent = [s.answer n m tyPing 0 0 []] ∧ t.rseq n = max (s.rseq n) m.seq.toNat ∧ (t.sess n).peer = m.peer ∧ (t.sess n).idleTs = s.now ∧ RegsOnly [SESS_RSEQ_LO.V n, SESS_RSEQ_HI.V n, SESS_TSEQ_LO.V n, SESS_TSEQ_HI.V n, SESS_STS.PORT n, SESS_STS.IPV6 n] s t ∧ Frame [.regs, .ses] s t) ∧
  (∀ (s : State) (m : TmpMsg) (n : Nat), s.netLink m.peer.port.val = true → s.sidOf m.sid.toNat = some n → s.isOpen n = true → s.seqFresh n m.seq.toNat = false →
    ∃ t, exec (.ping m) s = .next t ∧ t.ses.sent = [] ∧ t.ses.sess = s.ses.sess ∧ t.get SES_ERR0.REPLAY = satCount 16 (s.get SES_ERR0.REPLAY) 1 ∧ RegsOnly [SES_ERR0.REPLAY] s t ∧ Frame [.regs, .ses] s t) ∧
  (∀ (s : State) (m : TmpMsg) (n : Nat), s.netLink m.peer.port.val = true → s.sidOf m.sid.toNat = some n → s.isOpen n = true → s.seqFresh n m.seq.toNat = true → s.cur = 1 → s.pwr.trans = none →
    ∃ t, exec (.ping m) s = .next t ∧ t.cur = 0 ∧ t.rseq n = max (s.rseq n) m.seq.toNat ∧ Frame [.regs, .time, .clk, .sil, .nvm, .pwr, .brg, .tw, .seq, .tamp, .cool, .tel, .inf, .otp, .acd, .key, .fw, .ses, .sec, .flash, .bus, .mem, .fresh] s t) ∧
  (∀ (s : State) (m : TmpMsg), (s.netLink m.peer.port.val = false ∨ s.sidOf m.sid.toNat = none) →
    ∃ t, exec (.ping m) s = .next t ∧ t.ses.sent = [] ∧ t.ses.sess = s.ses.sess ∧ t.ses.rxq = s.ses.rxq ∧ Frame [.ses] s t) ∧
  (∀ (s : State) (m : TmpMsg) (n : Nat), s.msgPasses n tyReadStat m = true →
    ∃ t, exec (.readStat m []) s = .next t ∧ t.ses.sent = [s.answer n m tyReadStat 0 0 ((counted m.payload 4).flatMap (fun e => leBytes 4 (s.stat (leAt e 0 1 * 8192 + leAt e 2 2) (leAt e 1 1))))] ∧ t.rseq n = max (s.rseq n) m.seq.toNat ∧ (t.sess n).peer = m.peer ∧ (t.sess n).idleTs = s.now ∧ RegsOnly [SESS_RSEQ_LO.V n, SESS_RSEQ_HI.V n, SESS_TSEQ_LO.V n, SESS_TSEQ_HI.V n, SESS_STS.PORT n, SESS_STS.IPV6 n] s t ∧ Frame [.regs, .ses] s t) ∧
  (∀ (s : State) (m : TmpMsg) (n : Nat) (bd : List (Fin 65536)), (s.mapEccAll bd).msgPasses n tyReadStat m = true →
    ∃ t, exec (.readStat m bd) s = .next t ∧ t.ses.sent = [(s.mapEccAll bd).answer n m tyReadStat 0 0 ((counted m.payload 4).flatMap (fun e => leBytes 4 ((s.mapEccAll bd).stat (leAt e 0 1 * 8192 + leAt e 2 2) (leAt e 1 1))))] ∧ t.rseq n = max (s.rseq n) m.seq.toNat ∧ Frame [.regs, .time, .clk, .sil, .nvm, .pwr, .brg, .tw, .seq, .tamp, .cool, .tel, .inf, .otp, .acd, .key, .fw, .ses, .sec, .flash, .bus, .mem, .fresh] s t) ∧
  (∀ (s : State) (m : TmpMsg) (n : Nat), s.msgPasses n tySubscribe m = true → s.subFull n m.payload = false →
    ∃ t, exec (.subscribe m) s = .next t ∧ t.ses.sent = [s.answer n m tySubscribe 0 0 []] ∧ t.get (SESS_STS.EVENTS n) = leAt m.payload 0 1 ∧ t.get (SESS_STS.RECORDER n) = min 1 (leAt m.payload 1 1) ∧ (s.on (SESS_STS.EVENTS n) = false → (t.sess n).evNext = s.sil.wseq) ∧ (leAt m.payload 1 1 = 1 → (t.sess n).recNext = s.get TFAB_REC_SEQ.LAST) ∧ (leAt m.payload 1 1 = 2 → (t.sess n).recNext = leAt m.payload 4 4) ∧ t.rseq n = max (s.rseq n) m.seq.toNat ∧ (t.sess n).peer = m.peer ∧ (t.sess n).idleTs = s.now ∧ RegsOnly [SESS_RSEQ_LO.V n, SESS_RSEQ_HI.V n, SESS_TSEQ_LO.V n, SESS_TSEQ_HI.V n, SESS_STS.PORT n, SESS_STS.IPV6 n, SESS_STS.EVENTS n, SESS_STS.RECORDER n] s t ∧ Frame [.regs, .ses] s t) ∧
  (∀ (s : State) (m : TmpMsg) (n : Nat), s.msgPasses n tySubscribe m = true → s.subFull n m.payload = true →
    ∃ t, exec (.subscribe m) s = .next t ∧ t.ses.sent = [s.answer n m tySubscribe 5 0 []] ∧ t.rseq n = max (s.rseq n) m.seq.toNat ∧ (t.sess n).peer = m.peer ∧ (t.sess n).idleTs = s.now ∧ RegsOnly [SESS_RSEQ_LO.V n, SESS_RSEQ_HI.V n, SESS_TSEQ_LO.V n, SESS_TSEQ_HI.V n, SESS_STS.PORT n, SESS_STS.IPV6 n] s t ∧ Frame [.regs, .ses] s t) ∧
  (∀ (s : State) (m : TmpMsg) (n : Nat), s.msgPasses n tyFpStatement m = true → s.on KEY_STS.DBG_OPEN = false → s.on KEY_STS.READY = true → s.acd.stmts.length < 17 →
    ∃ t, exec (.fpStatement m) s = .next t ∧ t.ses.sent = [] ∧ t.acd.stmts = s.acd.stmts ++ [(n, m.seq.toNat, m.payload)] ∧ t.rseq n = max (s.rseq n) m.seq.toNat ∧ (t.sess n).peer = m.peer ∧ (t.sess n).idleTs = s.now ∧ RegsOnly [SESS_RSEQ_LO.V n, SESS_RSEQ_HI.V n, SESS_TSEQ_LO.V n, SESS_TSEQ_HI.V n, SESS_STS.PORT n, SESS_STS.IPV6 n] s t ∧ Frame [.regs, .acd, .ses] s t) ∧
  (∀ (s : State) (m : TmpMsg) (n : Nat), s.msgPasses n tyFpStatement m = true → s.on KEY_STS.DBG_OPEN = false → s.on KEY_STS.READY = true → 17 ≤ s.acd.stmts.length →
    ∃ t, exec (.fpStatement m) s = .next t ∧ t.ses.sent = [s.answer n m tyFpStatement 5 0 []] ∧ t.rseq n = max (s.rseq n) m.seq.toNat ∧ (t.sess n).peer = m.peer ∧ (t.sess n).idleTs = s.now ∧ RegsOnly [SESS_RSEQ_LO.V n, SESS_RSEQ_HI.V n, SESS_TSEQ_LO.V n, SESS_TSEQ_HI.V n, SESS_STS.PORT n, SESS_STS.IPV6 n] s t ∧ Frame [.regs, .ses] s t) ∧
  (∀ (s : State) (m : TmpMsg) (n : Nat), s.msgPasses n tyFpStatement m = true → s.on KEY_STS.DBG_OPEN = true →
    ∃ t, exec (.fpStatement m) s = .next t ∧ t.ses.sent = [s.answer n m tyFpStatement 7 1 []] ∧ t.rseq n = max (s.rseq n) m.seq.toNat ∧ (t.sess n).peer = m.peer ∧ (t.sess n).idleTs = s.now ∧ RegsOnly [SESS_RSEQ_LO.V n, SESS_RSEQ_HI.V n, SESS_TSEQ_LO.V n, SESS_TSEQ_HI.V n, SESS_STS.PORT n, SESS_STS.IPV6 n] s t ∧ Frame [.regs, .ses] s t) ∧
  (∀ (s : State) (m : TmpMsg) (n : Nat), s.msgPasses n tyStatus m = true →
    ∃ t, exec (.tmpStatus m) s = .next t ∧ ((match t.ses.sent with | [.tmp _ _ _ _ _ _ p _] => decide (leAt p 0 2 = 0 ∧ leAt p 4 8 = m.seq.toNat ∧ slice p 12 16 = s.unitId ∧ leAt p 28 8 = s.topNow) | _ => false) = true) ∧ t.rseq n = max (s.rseq n) m.seq.toNat ∧ (t.sess n).peer = m.peer ∧ (t.sess n).idleTs = s.now ∧ RegsOnly [SESS_RSEQ_LO.V n, SESS_RSEQ_HI.V n, SESS_TSEQ_LO.V n, SESS_TSEQ_HI.V n, SESS_STS.PORT n, SESS_STS.IPV6 n] s t ∧ Frame [.regs, .ses] s t) ∧
  (∀ (s : State) (m : TmpMsg) (n : Nat) (e : List Byte), s.msgPasses n tySetCap m = true → m.payload = [1, 0, 0, 0] ++ e →
    ∃ t, exec (.setCap m) s = .next t ∧ t.ses.sent = [s.answer n m tySetCap 0 0 []] ∧ (t.sess n).caps = setAt (s.sess n).caps (leAt e 0 1) (leAt e 2 2) ∧ (∀ k < 9, t.get (SES_CAP.CAP k) = (t.capOf k).1 % 2 ^ (SES_CAP.CAP k).w ∧ t.on (SES_CAP.SET k) = decide ((t.capOf k).1 ≠ 0)) ∧ (∀ j < 16, j ≠ n → t.sess j = s.sess j) ∧ t.rseq n = max (s.rseq n) m.seq.toNat ∧ (t.sess n).peer = m.peer ∧ (t.sess n).idleTs = s.now ∧ (s.bridgeUp = true → s.hwdtCounts = true → t.on COOL_HWDT_STS.ARMED = true ∧ t.on COOL_HWDT_STS.EXPIRED = false ∧ t.cool.kickTs = s.now) ∧ RegsOnly ([SESS_RSEQ_LO.V n, SESS_RSEQ_HI.V n, SESS_TSEQ_LO.V n, SESS_TSEQ_HI.V n, SESS_STS.PORT n, SESS_STS.IPV6 n, COOL_HWDT_STS.EXPIRED, COOL_HWDT_STS.ARMED] ++ [SES_IRQ_STS.FLOOR] ++ (List.range 9).flatMap (fun k => [SES_CAP.CAP k, SES_CAP.SRC k, SES_CAP.SET k]) ++ (List.range 8).flatMap (fun z => [SES_ZFLOOR.FLOOR z, SES_ZFLOOR.SRC z, SES_ZFLOOR.SET z, COOL_ZONE_FLOOR.FLOOR z]) ++ (List.range 6).flatMap (fun p => [SES_PFLOOR.FLOOR p, SES_PFLOOR.SRC p, SES_PFLOOR.SET p, COOL_PMP_FLOOR.FLOOR p])) s t ∧ Frame [.regs, .sil, .cool, .ses] s t) ∧
  (∀ (s : State) (m : TmpMsg) (n : Nat) (e : List Byte), s.msgPasses n tySetFloor m = true → m.payload = [1, 0, 0, 0] ++ e → leAt e 0 1 = 0 →
    ∃ t, exec (.setFloor m) s = .next t ∧ t.ses.sent = [s.answer n m tySetFloor 0 0 []] ∧ (t.sess n).zf = setAt (s.sess n).zf (leAt e 1 1) (leAt e 2 2) ∧ (t.sess n).pf = (s.sess n).pf ∧ (∀ z < 8, t.get (SES_ZFLOOR.FLOOR z) = (t.floorOf false z).1 % 2 ^ (SES_ZFLOOR.FLOOR z).w) ∧ (∀ j < 16, j ≠ n → t.sess j = s.sess j) ∧ t.rseq n = max (s.rseq n) m.seq.toNat ∧ (t.sess n).peer = m.peer ∧ (t.sess n).idleTs = s.now ∧ (s.bridgeUp = true → s.hwdtCounts = true → t.on COOL_HWDT_STS.ARMED = true ∧ t.on COOL_HWDT_STS.EXPIRED = false ∧ t.cool.kickTs = s.now) ∧ RegsOnly ([SESS_RSEQ_LO.V n, SESS_RSEQ_HI.V n, SESS_TSEQ_LO.V n, SESS_TSEQ_HI.V n, SESS_STS.PORT n, SESS_STS.IPV6 n, COOL_HWDT_STS.EXPIRED, COOL_HWDT_STS.ARMED] ++ [SES_IRQ_STS.FLOOR] ++ (List.range 9).flatMap (fun k => [SES_CAP.CAP k, SES_CAP.SRC k, SES_CAP.SET k]) ++ (List.range 8).flatMap (fun z => [SES_ZFLOOR.FLOOR z, SES_ZFLOOR.SRC z, SES_ZFLOOR.SET z, COOL_ZONE_FLOOR.FLOOR z]) ++ (List.range 6).flatMap (fun p => [SES_PFLOOR.FLOOR p, SES_PFLOOR.SRC p, SES_PFLOOR.SET p, COOL_PMP_FLOOR.FLOOR p])) s t ∧ Frame [.regs, .sil, .cool, .ses] s t) ∧
  (∀ (s : State) (m : TmpMsg) (n : Nat), s.msgPasses n tyJob m = true →
    ∃ t, exec (.job m) s = .next t ∧ t.ses.sent = [s.answer n m tyJob 0 0 []] ∧ t.get (SESS_STS.JOB n) = leAt m.payload 0 1 ∧ bitOf (t.get SES_JOB.RUNNING) n = decide (leAt m.payload 0 1 = 1) ∧ bitOf (t.get SES_JOB.BOUNDARY) n = decide (leAt m.payload 0 1 = 2) ∧ t.on SES_STS.BND = decide (t.get SES_JOB.RUNNING = 0) ∧ t.rseq n = max (s.rseq n) m.seq.toNat ∧ (t.sess n).peer = m.peer ∧ (t.sess n).idleTs = s.now ∧ (s.bridgeUp = true → s.hwdtCounts = true → t.on COOL_HWDT_STS.ARMED = true ∧ t.on COOL_HWDT_STS.EXPIRED = false ∧ t.cool.kickTs = s.now) ∧ RegsOnly [SESS_RSEQ_LO.V n, SESS_RSEQ_HI.V n, SESS_TSEQ_LO.V n, SESS_TSEQ_HI.V n, SESS_STS.PORT n, SESS_STS.IPV6 n, COOL_HWDT_STS.EXPIRED, COOL_HWDT_STS.ARMED, SESS_STS.JOB n, SES_JOB.RUNNING, SES_JOB.BOUNDARY, SES_STS.BND, SES_IRQ_STS.BND_RISE] s t ∧ Frame [.regs, .sil, .cool, .ses] s t) ∧
  (∀ (s : State) (m : TmpMsg) (n : Nat), s.msgPasses n tyWdtKick m = true →
    ∃ t, exec (.tmpWdtKick m) s = .next t ∧ t.ses.sent = [s.answer n m tyWdtKick 0 0 []] ∧ t.rseq n = max (s.rseq n) m.seq.toNat ∧ (t.sess n).peer = m.peer ∧ (t.sess n).idleTs = s.now ∧ (s.bridgeUp = true → s.hwdtCounts = true → t.on COOL_HWDT_STS.ARMED = true ∧ t.on COOL_HWDT_STS.EXPIRED = false ∧ t.cool.kickTs = s.now) ∧ RegsOnly [SESS_RSEQ_LO.V n, SESS_RSEQ_HI.V n, SESS_TSEQ_LO.V n, SESS_TSEQ_HI.V n, SESS_STS.PORT n, SESS_STS.IPV6 n, COOL_HWDT_STS.EXPIRED, COOL_HWDT_STS.ARMED] s t ∧ Frame [.regs, .sil, .cool, .ses] s t) ∧
  (∀ (s : State) (n : Fin 16), s.get (SESS_STS.JOB n.val) = 2 →
    ∃ t, exec (.jobHoldExpiry n) s = .next t ∧ t.get (SESS_STS.JOB n.val) = 1 ∧ (s.isOpen n.val = true → t.on SES_STS.BND = false) ∧ RegsOnly [SESS_STS.JOB n.val, SES_JOB.RUNNING, SES_JOB.BOUNDARY, SES_STS.BND, SES_IRQ_STS.BND_RISE] s t ∧ Frame [.regs] s t) ∧
  (∀ (s : State) (n : Fin 16), s.get (SESS_STS.JOB n.val) ≠ 2 → exec (.jobHoldExpiry n) s = .next s)

/-- For session n and a message that passes every check of R351 in A0 (msgPasses), with C1 running, the receive queue empty and, but for REC_CTL and SIG_INSTALL, the Bridge UP: the queue is empty again, the session has taken the SEQ, the peer and the time, and the reply is OK with DETAIL 0, or REFUSED with the code: of SEQ_CMD the RESULT of SEQ_CMD_STS, with the sequencer as seqCommand leaves it; TAMP_CLEAR clears as tampClear does, and with Black bits and no presence window is REFUSED with a free DETAIL (log entry 37); POWER_STATE carries the cause of pwrCause, and the request follows it; TOP_RESET and WARM_RESET request the reset and are not answered (for these three SEQ, peer and time are not stated); REC_CTL acts as recCtl; SIG_INSTALL of one valid entry with a way for it stores its 32 bytes there; SETTING_COMMIT of at most 3,328 bytes hands NVM one entry, of the first setting's key, with every setting and the epoch, run at once by a free engine with room and queued at a busy one; MARGIN answers SEQ_MGN_STS.RESULT, or leaves test mode; ACCORD_ACCEPT, with flash not held, answers what accordAccept gives; KEY_CHANGE what keyAdd and keyRetire give; DEBUG_UNLOCK answers a challenge of 32 free bytes and the UNIT_ID, or opens debug with its scope and end, or is refused; LOG_CLEAR bit 1 erases the first-failure records, bit 0 with the presence window open hands NVM the erase of the Sillage bank. With the Bridge not UP, SEQ_CMD is REFUSED with a free DETAIL (log entry 37). With flash held ACCORD_ACCEPT waits in the queue, and so does SEQ_CMD with C1 not running, unanswered; a full queue answers BUSY and counts in RXQ_FULL. REPLY_SUBMIT moving the transmit queue's write pointer one on sends the slot's message (stated for an empty payload) where its session is open, else nothing, and the read pointer follows. -/
def Obligations.FirmwareMessagesReachTheirUnits : Prop :=
  (∀ (s : State) (m : TmpMsg) (n : Nat), s.msgPasses n tySeqCmd m = true → s.fwIdle = true → s.bridgeUp = true →
    ∃ t, exec (.seqCmd m) s = .next t ∧ t.ses.sent = [s.answer n m tySeqCmd (if t.get SEQ_CMD_STS.RESULT = 0 then 0 else 7) (t.get SEQ_CMD_STS.RESULT) []] ∧ t.ses.rxq = [] ∧ t.rseq n = max (s.rseq n) m.seq.toNat ∧ (t.sess n).peer = m.peer ∧ (t.sess n).idleTs = s.now ∧ t.seq = (s.seqCommand (leAt m.payload 0 1) (leAt m.payload 2 2)).seq ∧ t.get SEQ_CMD_STS.RESULT = (s.seqCommand (leAt m.payload 0 1) (leAt m.payload 2 2)).get SEQ_CMD_STS.RESULT ∧ Frame [.regs, .sil, .tw, .seq, .tamp, .cool, .ses, .bus, .mem] s t) ∧
  (∀ (s : State) (m : TmpMsg) (n : Nat), s.msgPasses n tyTampClear m = true → s.fwIdle = true → s.bridgeUp = true → (leAt m.payload 1 1 ≠ 0 → s.on KEY_PRES.OPEN = true) →
    ∃ t, exec (.tampClear m) s = .next t ∧ t.ses.sent = [s.answer n m tyTampClear 0 0 []] ∧ t.ses.rxq = [] ∧ t.rseq n = max (s.rseq n) m.seq.toNat ∧ (t.sess n).peer = m.peer ∧ (t.sess n).idleTs = s.now ∧ t.tamp = (s.tampClear (leAt m.payload 0 1) (leAt m.payload 1 1)).tamp ∧ (∀ c < 256, t.get (TAMP_CMP_STS.LVL c) = (s.tampClear (leAt m.payload 0 1) (leAt m.payload 1 1)).get (TAMP_CMP_STS.LVL c)) ∧ Frame [.regs, .time, .clk, .sil, .pwr, .brg, .tw, .seq, .tamp, .cool, .tel, .inf, .acd, .fw, .ses, .sec, .bus, .mem] s t) ∧
  (∀ (s : State) (m : TmpMsg) (n : Nat), s.msgPasses n tyTampClear m = true → s.fwIdle = true → s.bridgeUp = true → leAt m.payload 1 1 ≠ 0 → s.on KEY_PRES.OPEN = false →
    ∃ t, exec (.tampClear m) s = .next t ∧ t.ses.sent = [s.answer n m tyTampClear 7 (Config.free s.fresh) []] ∧ t.ses.rxq = [] ∧ t.rseq n = max (s.rseq n) m.seq.toNat ∧ (t.sess n).peer = m.peer ∧ (t.sess n).idleTs = s.now ∧ t.fresh = s.fresh + 1 ∧ Frame [.regs, .time, .clk, .sil, .pwr, .brg, .tw, .seq, .tamp, .cool, .tel, .inf, .acd, .fw, .ses, .sec, .bus, .mem, .fresh] s t) ∧
  (∀ (s : State) (m : TmpMsg) (n : Nat), s.msgPasses n tyPowerState m = true → s.fwIdle = true → s.bridgeUp = true → leAt m.payload 0 1 = 1 →
    ∃ t, exec (.powerState m) s = .next t ∧ t.ses.sent = [s.answer n m tyPowerState (if (if s.cur = leAt m.payload 0 1 ∧ !s.on PWRST_STATE.BUSY ∧ !s.resetRuns then 0 else s.pwrCause (.core 1) (leAt m.payload 0 1)) = 0 then 0 else 7) (if s.cur = leAt m.payload 0 1 ∧ !s.on PWRST_STATE.BUSY ∧ !s.resetRuns then 0 else s.pwrCause (.core 1) (leAt m.payload 0 1)) []] ∧ t.pwr.trans = (s.pwrRequest (.core 1) 1).pwr.trans ∧ t.cur = (s.pwrRequest (.core 1) 1).cur ∧ Frame [.regs, .time, .clk, .sil, .nvm, .pwr, .brg, .tw, .seq, .tamp, .cool, .tel, .inf, .otp, .acd, .key, .fw, .ses, .sec, .flash, .bus, .mem, .fresh] s t) ∧
  (∀ (s : State) (m : TmpMsg) (n : Nat), s.msgPasses n tyPowerState m = true → s.fwIdle = true → s.bridgeUp = true → leAt m.payload 0 1 = 2 →
    ∃ t, exec (.powerState m) s = .next t ∧ t.ses.sent = [s.answer n m tyPowerState (if (if s.cur = leAt m.payload 0 1 ∧ !s.on PWRST_STATE.BUSY ∧ !s.resetRuns then 0 else s.pwrCause (.core 1) (leAt m.payload 0 1)) = 0 then 0 else 7) (if s.cur = leAt m.payload 0 1 ∧ !s.on PWRST_STATE.BUSY ∧ !s.resetRuns then 0 else s.pwrCause (.core 1) (leAt m.payload 0 1)) []] ∧ t.pwr.trans = (s.pwrRequest (.core 1) 2).pwr.trans ∧ t.cur = (s.pwrRequest (.core 1) 2).cur ∧ Frame [.regs, .time, .clk, .sil, .nvm, .pwr, .brg, .tw, .seq, .tamp, .cool, .tel, .inf, .otp, .acd, .key, .fw, .ses, .sec, .flash, .bus, .mem, .fresh] s t) ∧
  (∀ (s : State) (m : TmpMsg) (n : Nat), s.msgPasses n tyTopReset m = true → s.fwIdle = true → s.bridgeUp = true →
    ∃ t, exec (.topReset m) s = .next t ∧ t.ses.sent = [] ∧ t.pwr.topReset = (s.topRequest topHost).pwr.topReset ∧ Frame [.regs, .time, .clk, .sil, .nvm, .pwr, .brg, .tw, .seq, .tamp, .cool, .tel, .inf, .otp, .acd, .key, .fw, .ses, .sec, .flash, .bus, .mem, .fresh] s t) ∧
  (∀ (s : State) (m : TmpMsg) (n : Nat), s.msgPasses n tyWarmReset m = true → s.fwIdle = true → s.bridgeUp = true →
    ∃ t, exec (.warmReset m) s = .next t ∧ t.ses.sent = [] ∧ t.pwr.warmOn = (s.warmRequest rstCmd).pwr.warmOn ∧ Frame [.regs, .time, .clk, .sil, .nvm, .pwr, .brg, .tw, .seq, .tamp, .cool, .tel, .inf, .otp, .acd, .key, .fw, .ses, .sec, .flash, .bus, .mem, .fresh] s t) ∧
  (∀ (s : State) (m : TmpMsg) (n : Nat), s.msgPasses n tyRecCtl m = true → s.fwIdle = true →
    ∃ t, exec (.recCtl m) s = .next t ∧ t.ses.sent = [s.answer n m tyRecCtl 0 0 []] ∧ t.ses.rxq = [] ∧ t.rseq n = max (s.rseq n) m.seq.toNat ∧ (t.sess n).peer = m.peer ∧ (t.sess n).idleTs = s.now ∧ t.tel = (s.recCtl (leAt m.payload 0 1)).tel ∧ t.get TFAB_STS.REC_STATE = (s.recCtl (leAt m.payload 0 1)).get TFAB_STS.REC_STATE ∧ t.get TFAB_REC_SEQ.LAST = (s.recCtl (leAt m.payload 0 1)).get TFAB_REC_SEQ.LAST ∧ t.get TFAB_REC_TRIG.BUFSEQ = (s.recCtl (leAt m.payload 0 1)).get TFAB_REC_TRIG.BUFSEQ ∧ Frame [.regs, .sil, .cool, .tel, .fw, .ses, .mem] s t) ∧
  (∀ (s : State) (m : TmpMsg) (n : Nat) (e : List Byte) (w : Nat), s.msgPasses n tySigInstall m = true → s.fwIdle = true → m.payload = [1, 0, 0, 0] ++ e → e.length = 32 → bitOf (leAt e 0 4) 0 = true → (s.sigWays (bitsOf (leAt e 0 4) 1 3) (leAt e 4 4)).head? = some w →
    ∃ t, exec (.sigInstall m) s = .next t ∧ t.ses.sent = [s.answer n m tySigInstall 0 0 []] ∧ t.ses.rxq = [] ∧ t.rseq n = max (s.rseq n) m.seq.toNat ∧ (t.sess n).peer = m.peer ∧ (t.sess n).idleTs = s.now ∧ memBytes t.mem (sigAddr (sigSet (bitsOf (leAt e 0 4) 1 3) (leAt e 4 4)) w) 32 = e ∧ Frame [.regs, .sil, .cool, .ses, .mem] s t) ∧
  (∀ (s : State) (m : TmpMsg) (n : Nat) (rs : List (Nat × List Byte)), s.msgPasses n tySettingCommit m = true → s.fwIdle = true → s.bridgeUp = true → m.payload.length ≤ 3328 → settingsOf m.payload = some rs → s.nvm.busy = none → s.nvm.compacting = false → s.nvm.queue = [] → s.on PWRST_BO_STS.NVM_HELD = false → s.pwr.warmOn = false → s.nvm.used + entrySize m.payload.length ≤ bankRoom →
    ∃ t, exec (.settingCommit m) s = .next t ∧ t.ses.sent = [s.answer n m tySettingCommit 0 0 []] ∧ t.ses.rxq = [] ∧ t.rseq n = max (s.rseq n) m.seq.toNat ∧ (t.sess n).peer = m.peer ∧ (t.sess n).idleTs = s.now ∧ t.nvm.busy = some { kind := kindSetting, key := (rs.head?.map (fun r => settingPlace r.1 r.2)).getD 0, len := m.payload.length, data := rs.map (fun r => .blob kindSetting (settingPlace r.1 r.2) r.2) ++ [.epoch] } ∧ t.nvm.queue = [] ∧ Frame [.regs, .sil, .nvm, .cool, .ses, .mem] s t) ∧
  (∀ (s : State) (m : TmpMsg) (n : Nat) (rs : List (Nat × List Byte)), s.msgPasses n tySettingCommit m = true → s.fwIdle = true → s.bridgeUp = true → m.payload.length ≤ 3328 → settingsOf m.payload = some rs → s.nvm.busy.isSome = true →
    ∃ t, exec (.settingCommit m) s = .next t ∧ t.ses.sent = [s.answer n m tySettingCommit 0 0 []] ∧ t.ses.rxq = [] ∧ t.rseq n = max (s.rseq n) m.seq.toNat ∧ (t.sess n).peer = m.peer ∧ (t.sess n).idleTs = s.now ∧ t.nvm.busy = s.nvm.busy ∧ t.nvm.queue = s.nvm.queue ++ [{ kind := kindSetting, key := (rs.head?.map (fun r => settingPlace r.1 r.2)).getD 0, len := m.payload.length, data := rs.map (fun r => .blob kindSetting (settingPlace r.1 r.2) r.2) ++ [.epoch] }] ∧ Frame [.regs, .sil, .nvm, .cool, .ses, .mem] s t) ∧
  (∀ (s : State) (m : TmpMsg) (n : Nat), s.msgPasses n tyMargin m = true → s.fwIdle = true → s.bridgeUp = true → leAt m.payload 0 1 ≠ 0 →
    ∃ t, exec (.margin m) s = .next t ∧ t.ses.sent = [s.answer n m tyMargin (if t.get SEQ_MGN_STS.RESULT = 0 then 0 else 7) (t.get SEQ_MGN_STS.RESULT) []] ∧ t.ses.rxq = [] ∧ t.rseq n = max (s.rseq n) m.seq.toNat ∧ (t.sess n).peer = m.peer ∧ (t.sess n).idleTs = s.now ∧ t.seq = ((if leAt m.payload 0 1 = 1 then s.testEnter else s).marginRequest (leAt m.payload 1 1) (leAt m.payload 2 1 == 1) (leAt m.payload 3 1)).seq ∧ t.get SEQ_CTL.TEST = ((if leAt m.payload 0 1 = 1 then s.testEnter else s).marginRequest (leAt m.payload 1 1) (leAt m.payload 2 1 == 1) (leAt m.payload 3 1)).get SEQ_CTL.TEST ∧ t.get SEQ_MGN_STS.RESULT = ((if leAt m.payload 0 1 = 1 then s.testEnter else s).marginRequest (leAt m.payload 1 1) (leAt m.payload 2 1 == 1) (leAt m.payload 3 1)).get SEQ_MGN_STS.RESULT ∧ Frame [.regs, .sil, .tw, .seq, .tamp, .cool, .ses, .mem] s t) ∧
  (∀ (s : State) (m : TmpMsg) (n : Nat), s.msgPasses n tyMargin m = true → s.fwIdle = true → s.bridgeUp = true → leAt m.payload 0 1 = 0 →
    ∃ t, exec (.margin m) s = .next t ∧ t.ses.sent = [s.answer n m tyMargin 0 0 []] ∧ t.ses.rxq = [] ∧ t.rseq n = max (s.rseq n) m.seq.toNat ∧ (t.sess n).peer = m.peer ∧ (t.sess n).idleTs = s.now ∧ t.seq = (s.testEnd).seq ∧ t.on SEQ_CTL.TEST = false ∧ Frame [.regs, .sil, .tw, .seq, .tamp, .cool, .ses, .mem] s t) ∧
  (∀ (s : State) (m : TmpMsg) (n : Nat) (ok : Bool) (un : Option (BitVec 28)), s.msgPasses n tyAccordAccept m = true → s.fwIdle = true → s.bridgeUp = true → s.flashHeld = false →
    ∃ t, exec (.accordAccept m ok un) s = .next t ∧ t.ses.sent = [s.answer n m tyAccordAccept (if (s.accordAccept m.payload ok (un.map (fun o => o.toNat))).1.1 then 7 else 0) (s.accordAccept m.payload ok (un.map (fun o => o.toNat))).1.2 []] ∧ t.ses.rxq = [] ∧ t.rseq n = max (s.rseq n) m.seq.toNat ∧ (t.sess n).peer = m.peer ∧ (t.sess n).idleTs = s.now ∧ t.flash = ((s.accordAccept m.payload ok (un.map (fun o => o.toNat))).2).flash ∧ t.sec = ((s.accordAccept m.payload ok (un.map (fun o => o.toNat))).2).sec ∧ Frame [.regs, .sil, .nvm, .brg, .cool, .ses, .sec, .flash, .mem] s t) ∧
  (∀ (s : State) (m : TmpMsg) (n : Nat) (ok : Bool), s.msgPasses n tyKeyChange (keyOp m 1) = true → s.fwIdle = true → s.bridgeUp = true →
    ∃ t, exec (.keyChangeAdd m ok) s = .next t ∧ t.ses.sent = [s.answer n (keyOp m 1) tyKeyChange (if s.addDetail m.payload ok = 0 then 0 else 7) (s.addDetail m.payload ok) []] ∧ t.ses.rxq = [] ∧ t.rseq n = max (s.rseq n) m.seq.toNat ∧ (t.sess n).peer = m.peer ∧ (t.sess n).idleTs = s.now ∧ (∀ k, s.emptyKeySlot = some k → s.addDetail m.payload ok = 0 → bitOf (t.get KEY_OWNER.VALID) k = true ∧ t.otpDigest k = padTo 48 (keyDigest (addEd m.payload) (addMl m.payload))) ∧ (s.addDetail m.payload ok ≠ 0 → t.otp = s.otp) ∧ Frame [.regs, .sil, .cool, .otp, .ses, .mem] s t) ∧
  (∀ (s : State) (m : TmpMsg) (n : Nat), s.msgPasses n tyKeyChange (keyOp m 2) = true → s.fwIdle = true → s.bridgeUp = true →
    ∃ t, exec (.keyChangeRetire m) s = .next t ∧ t.ses.sent = [s.answer n (keyOp m 2) tyKeyChange (if s.retireDetail = 0 then 0 else 7) s.retireDetail []] ∧ t.ses.rxq = [] ∧ t.rseq n = max (s.rseq n) m.seq.toNat ∧ (t.sess n).peer = m.peer ∧ (t.sess n).idleTs = s.now ∧ (s.retireDetail = 0 → ∀ k ∈ s.olderSlots, bitOf (t.get KEY_OWNER.RETIRED) k = true) ∧ (s.retireDetail ≠ 0 → t.otp = s.otp) ∧ Frame [.regs, .sil, .cool, .otp, .ses, .mem] s t) ∧
  (∀ (s : State) (m : TmpMsg) (n : Nat), s.msgPasses n tyDebugUnlock (dbgOp m 1) = true → s.fwIdle = true → s.bridgeUp = true →
    ∃ t, exec (.debugUnlockChallenge m) s = .next t ∧ t.ses.sent = [s.answer n (dbgOp m 1) tyDebugUnlock 0 0 (leBytes 32 (Config.free s.fresh) ++ s.unitId)] ∧ t.ses.rxq = [] ∧ t.rseq n = max (s.rseq n) m.seq.toNat ∧ (t.sess n).peer = m.peer ∧ (t.sess n).idleTs = s.now ∧ t.key.chal = some { ts := s.now, scope := leAt m.payload 0 1, dur := leAt m.payload 1 2, bytes := leBytes 32 (Config.free s.fresh) } ∧ Frame [.regs, .sil, .cool, .key, .ses, .mem, .fresh] s t) ∧
  (∀ (s : State) (m : TmpMsg) (n : Nat), s.msgPasses n tyDebugUnlock (dbgOp m 2) = true → s.fwIdle = true → s.bridgeUp = true →
    ∃ t, exec (.debugUnlockResponse m) s = .next t ∧ t.ses.sent = [s.answer n (dbgOp m 2) tyDebugUnlock (if s.dbgDetail (leAt m.payload 0 1) (leAt m.payload 1 2) (m.payload.drop 3) = 0 then 0 else 7) (s.dbgDetail (leAt m.payload 0 1) (leAt m.payload 1 2) (m.payload.drop 3)) []] ∧ t.ses.rxq = [] ∧ t.rseq n = max (s.rseq n) m.seq.toNat ∧ (t.sess n).peer = m.peer ∧ (t.sess n).idleTs = s.now ∧ t.key.chal = none ∧ (s.dbgDetail (leAt m.payload 0 1) (leAt m.payload 1 2) (m.payload.drop 3) = 0 → t.on KEY_STS.DBG_OPEN = true ∧ t.get KEY_DBG.SCOPE = leAt m.payload 0 1 % 8 ∧ t.key.dbgEnd = s.now + leAt m.payload 1 2 * 60000000000) ∧ (s.dbgDetail (leAt m.payload 0 1) (leAt m.payload 1 2) (m.payload.drop 3) ≠ 0 → t.on KEY_STS.DBG_OPEN = s.on KEY_STS.DBG_OPEN) ∧ Frame [.regs, .sil, .cool, .key, .ses, .mem, .fresh] s t) ∧
  (∀ (s : State) (m : TmpMsg) (n : Nat), s.msgPasses n tyLogClear m = true → s.fwIdle = true → s.bridgeUp = true → s.nvm.busy = none → s.nvm.compacting = false → s.nvm.queue = [] → s.on PWRST_BO_STS.NVM_HELD = false → s.pwr.warmOn = false → s.nvm.used + entrySize 64 ≤ bankRoom →
    ∃ t, exec (.logClear m) s = .next t ∧ t.ses.sent = [s.answer n m tyLogClear 0 0 []] ∧ t.ses.rxq = [] ∧ t.rseq n = max (s.rseq n) m.seq.toNat ∧ (t.sess n).peer = m.peer ∧ (t.sess n).idleTs = s.now ∧ (bitOf (leAt m.payload 0 1) 0 = true → s.on KEY_PRES.OPEN = true → t.nvm.busy = some { kind := kindSil, key := 0, len := 64, data := [.silClear] }) ∧ (bitOf (leAt m.payload 0 1) 0 = false ∨ s.on KEY_PRES.OPEN = false → bitOf (leAt m.payload 0 1) 1 = false → t.nvm = s.nvm) ∧ (bitOf (leAt m.payload 0 1) 1 = true → t.seq.caps = []) ∧ (bitOf (leAt m.payload 0 1) 1 = false → t.seq = s.seq) ∧ Frame [.regs, .sil, .nvm, .seq, .cool, .ses, .mem] s t) ∧
  (∀ (s : State) (m : TmpMsg) (n : Nat), s.msgPasses n tySeqCmd m = true → s.coreRuns 1 = false → (s.get SES_RXQ_PTR.WR + 1) % 64 ≠ s.get SES_RXQ_PTR.RD →
    ∃ t, exec (.seqCmd m) s = .next t ∧ t.ses.sent = [] ∧ t.ses.rxq = s.ses.rxq ++ [{ n := n, sid := s.get (SESS_SID.SID n), type := tySeqCmd, seq := m.seq.toNat, payload := m.payload }] ∧ t.get SES_RXQ_PTR.WR = (s.get SES_RXQ_PTR.WR + 1) % 64 ∧ t.on SES_IRQ_STS.RXQ = true ∧ t.seq = s.seq ∧ t.rseq n = max (s.rseq n) m.seq.toNat ∧ (t.sess n).peer = m.peer ∧ (t.sess n).idleTs = s.now ∧ RegsOnly [SESS_RSEQ_LO.V n, SESS_RSEQ_HI.V n, SESS_TSEQ_LO.V n, SESS_TSEQ_HI.V n, SESS_STS.PORT n, SESS_STS.IPV6 n, COOL_HWDT_STS.EXPIRED, COOL_HWDT_STS.ARMED, SES_RXQ_PTR.WR, SES_IRQ_STS.RXQ] s t ∧ Frame [.regs, .sil, .cool, .ses, .mem] s t) ∧
  (∀ (s : State) (m : TmpMsg) (n : Nat), s.msgPasses n tySeqCmd m = true → s.coreRuns 1 = false → (s.get SES_RXQ_PTR.WR + 1) % 64 = s.get SES_RXQ_PTR.RD →
    ∃ t, exec (.seqCmd m) s = .next t ∧ t.ses.sent = [s.answer n m tySeqCmd 5 0 []] ∧ t.ses.rxq = s.ses.rxq ∧ t.get SES_ERR2.RXQ_FULL = satCount (SES_ERR2.RXQ_FULL).w (s.get SES_ERR2.RXQ_FULL) 1 ∧ t.rseq n = max (s.rseq n) m.seq.toNat ∧ (t.sess n).peer = m.peer ∧ (t.sess n).idleTs = s.now ∧ RegsOnly [SESS_RSEQ_LO.V n, SESS_RSEQ_HI.V n, SESS_TSEQ_LO.V n, SESS_TSEQ_HI.V n, SESS_STS.PORT n, SESS_STS.IPV6 n, COOL_HWDT_STS.EXPIRED, COOL_HWDT_STS.ARMED, SES_ERR2.RXQ_FULL] s t ∧ Frame [.regs, .sil, .cool, .ses] s t) ∧
  (∀ (s : State) (m : TmpMsg) (n : Nat) (ok : Bool) (un : Option (BitVec 28)), s.msgPasses n tyAccordAccept m = true → s.fwIdle = true → s.flashHeld = true →
    ∃ t, exec (.accordAccept m ok un) s = .next t ∧ t.ses.sent = [] ∧ t.ses.rxq = [{ n := n, sid := s.get (SESS_SID.SID n), type := tyAccordAccept, seq := m.seq.toNat, payload := m.payload }] ∧ t.flash = s.flash ∧ t.sec = s.sec ∧ t.rseq n = max (s.rseq n) m.seq.toNat ∧ (t.sess n).peer = m.peer ∧ (t.sess n).idleTs = s.now ∧ RegsOnly [SESS_RSEQ_LO.V n, SESS_RSEQ_HI.V n, SESS_TSEQ_LO.V n, SESS_TSEQ_HI.V n, SESS_STS.PORT n, SESS_STS.IPV6 n, COOL_HWDT_STS.EXPIRED, COOL_HWDT_STS.ARMED, SES_RXQ_PTR.WR, SES_IRQ_STS.RXQ] s t ∧ Frame [.regs, .sil, .cool, .ses, .mem] s t) ∧
  (∀ (s : State) (m : TmpMsg) (n : Nat), s.msgPasses n tySeqCmd m = true → s.fwIdle = true → s.bridgeUp = false →
    ∃ t, exec (.seqCmd m) s = .next t ∧ t.ses.sent = [s.answer n m tySeqCmd 7 (Config.free s.fresh) []] ∧ t.ses.rxq = [] ∧ t.fresh = s.fresh + 1 ∧ t.seq = s.seq ∧ t.rseq n = max (s.rseq n) m.seq.toNat ∧ (t.sess n).peer = m.peer ∧ (t.sess n).idleTs = s.now ∧ Frame [.regs, .sil, .cool, .ses, .mem, .fresh] s t) ∧
  (∀ (s : State) (ini : Initiator) (wr : Fin 64), s.judge ini true SES_TXQ_PTR.WR.addr = .allowed → wr.val = (s.get SES_TXQ_PTR.RD + 1) % 64 → s.isOpen (leAt (memBytes s.mem (slotAt (s.get SES_TXQ_BASE.BASE) (s.get SES_TXQ_PTR.RD)) 0x5000) 2 1 % 16) = false →
    ∃ t, exec (.replySubmit ini wr) s = .next t ∧ t.ses.sent = [] ∧ t.get SES_TXQ_PTR.WR = wr.val ∧ t.get SES_TXQ_PTR.RD = wr.val ∧ t.bus = .written ∧ RegsOnly [SES_TXQ_PTR.WR, SES_TXQ_PTR.RD] s t ∧ Frame [.regs, .ses, .bus] s t) ∧
  (∀ (s : State) (ini : Initiator) (wr : Fin 64) (n : Nat) (b : List Byte), s.judge ini true SES_TXQ_PTR.WR.addr = .allowed → wr.val = (s.get SES_TXQ_PTR.RD + 1) % 64 → memBytes s.mem (slotAt (s.get SES_TXQ_BASE.BASE) (s.get SES_TXQ_PTR.RD)) 16 = b → leAt b 2 1 = n → n < 16 → s.isOpen n = true → s.netLink (s.replyPeer n (leAt b 4 8)).port.val = true → leAt b 12 4 = 0 →
    ∃ t, exec (.replySubmit ini wr) s = .next t ∧ ((match t.ses.sent with | [.tmp p _ ty fl sid q pay _] => decide (p = s.replyPeer n (leAt b 4 8) ∧ ty = leAt b 0 2 ∧ fl = 3 ∧ sid = s.get (SESS_SID.SID n) ∧ q = (s.get64 (SESS_TSEQ_LO.V n) (SESS_TSEQ_HI.V n) + 1) % 2 ^ 64 ∧ pay = []) | _ => false) = true) ∧ t.get SES_TXQ_PTR.WR = wr.val ∧ t.get SES_TXQ_PTR.RD = wr.val ∧ t.bus = .written ∧ RegsOnly [SES_TXQ_PTR.WR, SES_TXQ_PTR.RD, SESS_TSEQ_LO.V n, SESS_TSEQ_HI.V n] s t ∧ Frame [.regs, .ses, .bus] s t)

/-- For each of the 27 message types and every session n: when a message of an open session with a fresh SEQ arrives in A0 on a link that is up (msgHeard) and fails a check of R351 (tmpCheck, its steps 4 to 10, answers a STATUS that is not 0), the command completes, the one message sent is the reply with that STATUS, DETAIL 0 and no body, the session takes the SEQ, the peer and the time, and of the registers only the session's sequence numbers, PORT, IPV6 and the counters BAD_MSG and DENIED may change; every other part of the state (memory, units, watchdog, queues of other parts) stays. Of READ_STAT this says so for reads that find no uncorrectable descriptor. -/
def Obligations.RefusedMessagesChangeNothingElse : Prop :=
  (∀ (s : State) (m : TmpMsg) (n : Nat), s.msgHeard n m = true → s.tmpCheck n tyPing m ≠ 0 →
    ∃ t, exec (.ping m) s = .next t ∧ t.ses.sent = [s.answer n m tyPing (s.tmpCheck n tyPing m) 0 []] ∧ t.rseq n = max (s.rseq n) m.seq.toNat ∧ (t.sess n).peer = m.peer ∧ (t.sess n).idleTs = s.now ∧ RegsOnly [SESS_RSEQ_LO.V n, SESS_RSEQ_HI.V n, SESS_TSEQ_LO.V n, SESS_TSEQ_HI.V n, SESS_STS.PORT n, SESS_STS.IPV6 n, SES_ERR1.BAD_MSG, SES_ERR1.DENIED] s t ∧ Frame [.regs, .ses] s t) ∧
  (∀ (s : State) (m : TmpMsg) (n : Nat), s.msgHeard n m = true → s.tmpCheck n tyClose m ≠ 0 →
    ∃ t, exec (.tmpClose m) s = .next t ∧ t.ses.sent = [s.answer n m tyClose (s.tmpCheck n tyClose m) 0 []] ∧ t.rseq n = max (s.rseq n) m.seq.toNat ∧ (t.sess n).peer = m.peer ∧ (t.sess n).idleTs = s.now ∧ RegsOnly [SESS_RSEQ_LO.V n, SESS_RSEQ_HI.V n, SESS_TSEQ_LO.V n, SESS_TSEQ_HI.V n, SESS_STS.PORT n, SESS_STS.IPV6 n, SES_ERR1.BAD_MSG, SES_ERR1.DENIED] s t ∧ Frame [.regs, .ses] s t) ∧
  (∀ (s : State) (m : TmpMsg) (n : Nat), s.msgHeard n m = true → s.tmpCheck n tyReadStat m ≠ 0 →
    ∃ t, exec (.readStat m []) s = .next t ∧ t.ses.sent = [s.answer n m tyReadStat (s.tmpCheck n tyReadStat m) 0 []] ∧ t.rseq n = max (s.rseq n) m.seq.toNat ∧ (t.sess n).peer = m.peer ∧ (t.sess n).idleTs = s.now ∧ RegsOnly [SESS_RSEQ_LO.V n, SESS_RSEQ_HI.V n, SESS_TSEQ_LO.V n, SESS_TSEQ_HI.V n, SESS_STS.PORT n, SESS_STS.IPV6 n, SES_ERR1.BAD_MSG, SES_ERR1.DENIED] s t ∧ Frame [.regs, .ses] s t) ∧
  (∀ (s : State) (m : TmpMsg) (n : Nat), s.msgHeard n m = true → s.tmpCheck n tySubscribe m ≠ 0 →
    ∃ t, exec (.subscribe m) s = .next t ∧ t.ses.sent = [s.answer n m tySubscribe (s.tmpCheck n tySubscribe m) 0 []] ∧ t.rseq n = max (s.rseq n) m.seq.toNat ∧ (t.sess n).peer = m.peer ∧ (t.sess n).idleTs = s.now ∧ RegsOnly [SESS_RSEQ_LO.V n, SESS_RSEQ_HI.V n, SESS_TSEQ_LO.V n, SESS_TSEQ_HI.V n, SESS_STS.PORT n, SESS_STS.IPV6 n, SES_ERR1.BAD_MSG, SES_ERR1.DENIED] s t ∧ Frame [.regs, .ses] s t) ∧
  (∀ (s : State) (m : TmpMsg) (n : Nat), s.msgHeard n m = true → s.tmpCheck n tyFpStatement m ≠ 0 →
    ∃ t, exec (.fpStatement m) s = .next t ∧ t.ses.sent = [s.answer n m tyFpStatement (s.tmpCheck n tyFpStatement m) 0 []] ∧ t.rseq n = max (s.rseq n) m.seq.toNat ∧ (t.sess n).peer = m.peer ∧ (t.sess n).idleTs = s.now ∧ RegsOnly [SESS_RSEQ_LO.V n, SESS_RSEQ_HI.V n, SESS_TSEQ_LO.V n, SESS_TSEQ_HI.V n, SESS_STS.PORT n, SESS_STS.IPV6 n, SES_ERR1.BAD_MSG, SES_ERR1.DENIED] s t ∧ Frame [.regs, .ses] s t) ∧
  (∀ (s : State) (m : TmpMsg) (n : Nat), s.msgHeard n m = true → s.tmpCheck n tyStatus m ≠ 0 →
    ∃ t, exec (.tmpStatus m) s = .next t ∧ t.ses.sent = [s.answer n m tyStatus (s.tmpCheck n tyStatus m) 0 []] ∧ t.rseq n = max (s.rseq n) m.seq.toNat ∧ (t.sess n).peer = m.peer ∧ (t.sess n).idleTs = s.now ∧ RegsOnly [SESS_RSEQ_LO.V n, SESS_RSEQ_HI.V n, SESS_TSEQ_LO.V n, SESS_TSEQ_HI.V n, SESS_STS.PORT n, SESS_STS.IPV6 n, SES_ERR1.BAD_MSG, SES_ERR1.DENIED] s t ∧ Frame [.regs, .ses] s t) ∧
  (∀ (s : State) (m : TmpMsg) (n : Nat), s.msgHeard n m = true → s.tmpCheck n tyHint m ≠ 0 →
    ∃ t, exec (.hint m) s = .next t ∧ t.ses.sent = [s.answer n m tyHint (s.tmpCheck n tyHint m) 0 []] ∧ t.rseq n = max (s.rseq n) m.seq.toNat ∧ (t.sess n).peer = m.peer ∧ (t.sess n).idleTs = s.now ∧ RegsOnly [SESS_RSEQ_LO.V n, SESS_RSEQ_HI.V n, SESS_TSEQ_LO.V n, SESS_TSEQ_HI.V n, SESS_STS.PORT n, SESS_STS.IPV6 n, SES_ERR1.BAD_MSG, SES_ERR1.DENIED] s t ∧ Frame [.regs, .ses] s t) ∧
  (∀ (s : State) (m : TmpMsg) (n : Nat), s.msgHeard n m = true → s.tmpCheck n tyHintCancel m ≠ 0 →
    ∃ t, exec (.hintCancel m) s = .next t ∧ t.ses.sent = [s.answer n m tyHintCancel (s.tmpCheck n tyHintCancel m) 0 []] ∧ t.rseq n = max (s.rseq n) m.seq.toNat ∧ (t.sess n).peer = m.peer ∧ (t.sess n).idleTs = s.now ∧ RegsOnly [SESS_RSEQ_LO.V n, SESS_RSEQ_HI.V n, SESS_TSEQ_LO.V n, SESS_TSEQ_HI.V n, SESS_STS.PORT n, SESS_STS.IPV6 n, SES_ERR1.BAD_MSG, SES_ERR1.DENIED] s t ∧ Frame [.regs, .ses] s t) ∧
  (∀ (s : State) (m : TmpMsg) (n : Nat), s.msgHeard n m = true → s.tmpCheck n tySetCap m ≠ 0 →
    ∃ t, exec (.setCap m) s = .next t ∧ t.ses.sent = [s.answer n m tySetCap (s.tmpCheck n tySetCap m) 0 []] ∧ t.rseq n = max (s.rseq n) m.seq.toNat ∧ (t.sess n).peer = m.peer ∧ (t.sess n).idleTs = s.now ∧ RegsOnly [SESS_RSEQ_LO.V n, SESS_RSEQ_HI.V n, SESS_TSEQ_LO.V n, SESS_TSEQ_HI.V n, SESS_STS.PORT n, SESS_STS.IPV6 n, SES_ERR1.BAD_MSG, SES_ERR1.DENIED] s t ∧ Frame [.regs, .ses] s t) ∧
  (∀ (s : State) (m : TmpMsg) (n : Nat), s.msgHeard n m = true → s.tmpCheck n tySetFloor m ≠ 0 →
    ∃ t, exec (.setFloor m) s = .next t ∧ t.ses.sent = [s.answer n m tySetFloor (s.tmpCheck n tySetFloor m) 0 []] ∧ t.rseq n = max (s.rseq n) m.seq.toNat ∧ (t.sess n).peer = m.peer ∧ (t.sess n).idleTs = s.now ∧ RegsOnly [SESS_RSEQ_LO.V n, SESS_RSEQ_HI.V n, SESS_TSEQ_LO.V n, SESS_TSEQ_HI.V n, SESS_STS.PORT n, SESS_STS.IPV6 n, SES_ERR1.BAD_MSG, SES_ERR1.DENIED] s t ∧ Frame [.regs, .ses] s t) ∧
  (∀ (s : State) (m : TmpMsg) (n : Nat), s.msgHeard n m = true → s.tmpCheck n tyJob m ≠ 0 →
    ∃ t, exec (.job m) s = .next t ∧ t.ses.sent = [s.answer n m tyJob (s.tmpCheck n tyJob m) 0 []] ∧ t.rseq n = max (s.rseq n) m.seq.toNat ∧ (t.sess n).peer = m.peer ∧ (t.sess n).idleTs = s.now ∧ RegsOnly [SESS_RSEQ_LO.V n, SESS_RSEQ_HI.V n, SESS_TSEQ_LO.V n, SESS_TSEQ_HI.V n, SESS_STS.PORT n, SESS_STS.IPV6 n, SES_ERR1.BAD_MSG, SES_ERR1.DENIED] s t ∧ Frame [.regs, .ses] s t) ∧
  (∀ (s : State) (m : TmpMsg) (n : Nat), s.msgHeard n m = true → s.tmpCheck n tySigInstall m ≠ 0 →
    ∃ t, exec (.sigInstall m) s = .next t ∧ t.ses.sent = [s.answer n m tySigInstall (s.tmpCheck n tySigInstall m) 0 []] ∧ t.rseq n = max (s.rseq n) m.seq.toNat ∧ (t.sess n).peer = m.peer ∧ (t.sess n).idleTs = s.now ∧ RegsOnly [SESS_RSEQ_LO.V n, SESS_RSEQ_HI.V n, SESS_TSEQ_LO.V n, SESS_TSEQ_HI.V n, SESS_STS.PORT n, SESS_STS.IPV6 n, SES_ERR1.BAD_MSG, SES_ERR1.DENIED] s t ∧ Frame [.regs, .ses] s t) ∧
  (∀ (s : State) (m : TmpMsg) (n : Nat), s.msgHeard n m = true → s.tmpCheck n tySeqCmd m ≠ 0 →
    ∃ t, exec (.seqCmd m) s = .next t ∧ t.ses.sent = [s.answer n m tySeqCmd (s.tmpCheck n tySeqCmd m) 0 []] ∧ t.rseq n = max (s.rseq n) m.seq.toNat ∧ (t.sess n).peer = m.peer ∧ (t.sess n).idleTs = s.now ∧ RegsOnly [SESS_RSEQ_LO.V n, SESS_RSEQ_HI.V n, SESS_TSEQ_LO.V n, SESS_TSEQ_HI.V n, SESS_STS.PORT n, SESS_STS.IPV6 n, SES_ERR1.BAD_MSG, SES_ERR1.DENIED] s t ∧ Frame [.regs, .ses] s t) ∧
  (∀ (s : State) (m : TmpMsg) (n : Nat), s.msgHeard n m = true → s.tmpCheck n tyTampClear m ≠ 0 →
    ∃ t, exec (.tampClear m) s = .next t ∧ t.ses.sent = [s.answer n m tyTampClear (s.tmpCheck n tyTampClear m) 0 []] ∧ t.rseq n = max (s.rseq n) m.seq.toNat ∧ (t.sess n).peer = m.peer ∧ (t.sess n).idleTs = s.now ∧ RegsOnly [SESS_RSEQ_LO.V n, SESS_RSEQ_HI.V n, SESS_TSEQ_LO.V n, SESS_TSEQ_HI.V n, SESS_STS.PORT n, SESS_STS.IPV6 n, SES_ERR1.BAD_MSG, SES_ERR1.DENIED] s t ∧ Frame [.regs, .ses] s t) ∧
  (∀ (s : State) (m : TmpMsg) (n : Nat), s.msgHeard n m = true → s.tmpCheck n tyPowerState m ≠ 0 →
    ∃ t, exec (.powerState m) s = .next t ∧ t.ses.sent = [s.answer n m tyPowerState (s.tmpCheck n tyPowerState m) 0 []] ∧ t.rseq n = max (s.rseq n) m.seq.toNat ∧ (t.sess n).peer = m.peer ∧ (t.sess n).idleTs = s.now ∧ RegsOnly [SESS_RSEQ_LO.V n, SESS_RSEQ_HI.V n, SESS_TSEQ_LO.V n, SESS_TSEQ_HI.V n, SESS_STS.PORT n, SESS_STS.IPV6 n, SES_ERR1.BAD_MSG, SES_ERR1.DENIED] s t ∧ Frame [.regs, .ses] s t) ∧
  (∀ (s : State) (m : TmpMsg) (n : Nat), s.msgHeard n m = true → s.tmpCheck n tyTopReset m ≠ 0 →
    ∃ t, exec (.topReset m) s = .next t ∧ t.ses.sent = [s.answer n m tyTopReset (s.tmpCheck n tyTopReset m) 0 []] ∧ t.rseq n = max (s.rseq n) m.seq.toNat ∧ (t.sess n).peer = m.peer ∧ (t.sess n).idleTs = s.now ∧ RegsOnly [SESS_RSEQ_LO.V n, SESS_RSEQ_HI.V n, SESS_TSEQ_LO.V n, SESS_TSEQ_HI.V n, SESS_STS.PORT n, SESS_STS.IPV6 n, SES_ERR1.BAD_MSG, SES_ERR1.DENIED] s t ∧ Frame [.regs, .ses] s t) ∧
  (∀ (s : State) (m : TmpMsg) (n : Nat), s.msgHeard n m = true → s.tmpCheck n tyWdtKick m ≠ 0 →
    ∃ t, exec (.tmpWdtKick m) s = .next t ∧ t.ses.sent = [s.answer n m tyWdtKick (s.tmpCheck n tyWdtKick m) 0 []] ∧ t.rseq n = max (s.rseq n) m.seq.toNat ∧ (t.sess n).peer = m.peer ∧ (t.sess n).idleTs = s.now ∧ RegsOnly [SESS_RSEQ_LO.V n, SESS_RSEQ_HI.V n, SESS_TSEQ_LO.V n, SESS_TSEQ_HI.V n, SESS_STS.PORT n, SESS_STS.IPV6 n, SES_ERR1.BAD_MSG, SES_ERR1.DENIED] s t ∧ Frame [.regs, .ses] s t) ∧
  (∀ (s : State) (m : TmpMsg) (n : Nat), s.msgHeard n m = true → s.tmpCheck n tyRecCtl m ≠ 0 →
    ∃ t, exec (.recCtl m) s = .next t ∧ t.ses.sent = [s.answer n m tyRecCtl (s.tmpCheck n tyRecCtl m) 0 []] ∧ t.rseq n = max (s.rseq n) m.seq.toNat ∧ (t.sess n).peer = m.peer ∧ (t.sess n).idleTs = s.now ∧ RegsOnly [SESS_RSEQ_LO.V n, SESS_RSEQ_HI.V n, SESS_TSEQ_LO.V n, SESS_TSEQ_HI.V n, SESS_STS.PORT n, SESS_STS.IPV6 n, SES_ERR1.BAD_MSG, SES_ERR1.DENIED] s t ∧ Frame [.regs, .ses] s t) ∧
  (∀ (s : State) (m : TmpMsg) (n : Nat), s.msgHeard n m = true → s.tmpCheck n tySettingCommit m ≠ 0 →
    ∃ t, exec (.settingCommit m) s = .next t ∧ t.ses.sent = [s.answer n m tySettingCommit (s.tmpCheck n tySettingCommit m) 0 []] ∧ t.rseq n = max (s.rseq n) m.seq.toNat ∧ (t.sess n).peer = m.peer ∧ (t.sess n).idleTs = s.now ∧ RegsOnly [SESS_RSEQ_LO.V n, SESS_RSEQ_HI.V n, SESS_TSEQ_LO.V n, SESS_TSEQ_HI.V n, SESS_STS.PORT n, SESS_STS.IPV6 n, SES_ERR1.BAD_MSG, SES_ERR1.DENIED] s t ∧ Frame [.regs, .ses] s t) ∧
  (∀ (s : State) (m : TmpMsg) (n : Nat), s.msgHeard n m = true → s.tmpCheck n tyWarmReset m ≠ 0 →
    ∃ t, exec (.warmReset m) s = .next t ∧ t.ses.sent = [s.answer n m tyWarmReset (s.tmpCheck n tyWarmReset m) 0 []] ∧ t.rseq n = max (s.rseq n) m.seq.toNat ∧ (t.sess n).peer = m.peer ∧ (t.sess n).idleTs = s.now ∧ RegsOnly [SESS_RSEQ_LO.V n, SESS_RSEQ_HI.V n, SESS_TSEQ_LO.V n, SESS_TSEQ_HI.V n, SESS_STS.PORT n, SESS_STS.IPV6 n, SES_ERR1.BAD_MSG, SES_ERR1.DENIED] s t ∧ Frame [.regs, .ses] s t) ∧
  (∀ (s : State) (m : TmpMsg) (n : Nat), s.msgHeard n m = true → s.tmpCheck n tyMargin m ≠ 0 →
    ∃ t, exec (.margin m) s = .next t ∧ t.ses.sent = [s.answer n m tyMargin (s.tmpCheck n tyMargin m) 0 []] ∧ t.rseq n = max (s.rseq n) m.seq.toNat ∧ (t.sess n).peer = m.peer ∧ (t.sess n).idleTs = s.now ∧ RegsOnly [SESS_RSEQ_LO.V n, SESS_RSEQ_HI.V n, SESS_TSEQ_LO.V n, SESS_TSEQ_HI.V n, SESS_STS.PORT n, SESS_STS.IPV6 n, SES_ERR1.BAD_MSG, SES_ERR1.DENIED] s t ∧ Frame [.regs, .ses] s t) ∧
  (∀ (s : State) (m : TmpMsg) (n : Nat) (ok : Bool) (un : Option (BitVec 28)), s.msgHeard n m = true → s.tmpCheck n tyAccordAccept m ≠ 0 →
    ∃ t, exec (.accordAccept m ok un) s = .next t ∧ t.ses.sent = [s.answer n m tyAccordAccept (s.tmpCheck n tyAccordAccept m) 0 []] ∧ t.rseq n = max (s.rseq n) m.seq.toNat ∧ (t.sess n).peer = m.peer ∧ (t.sess n).idleTs = s.now ∧ RegsOnly [SESS_RSEQ_LO.V n, SESS_RSEQ_HI.V n, SESS_TSEQ_LO.V n, SESS_TSEQ_HI.V n, SESS_STS.PORT n, SESS_STS.IPV6 n, SES_ERR1.BAD_MSG, SES_ERR1.DENIED] s t ∧ Frame [.regs, .ses] s t) ∧
  (∀ (s : State) (m : TmpMsg) (n : Nat) (ok : Bool), s.msgHeard n m = true → s.tmpCheck n tyKeyChange (keyOp m 1) ≠ 0 →
    ∃ t, exec (.keyChangeAdd m ok) s = .next t ∧ t.ses.sent = [s.answer n (keyOp m 1) tyKeyChange (s.tmpCheck n tyKeyChange (keyOp m 1)) 0 []] ∧ t.rseq n = max (s.rseq n) m.seq.toNat ∧ (t.sess n).peer = m.peer ∧ (t.sess n).idleTs = s.now ∧ RegsOnly [SESS_RSEQ_LO.V n, SESS_RSEQ_HI.V n, SESS_TSEQ_LO.V n, SESS_TSEQ_HI.V n, SESS_STS.PORT n, SESS_STS.IPV6 n, SES_ERR1.BAD_MSG, SES_ERR1.DENIED] s t ∧ Frame [.regs, .ses] s t) ∧
  (∀ (s : State) (m : TmpMsg) (n : Nat), s.msgHeard n m = true → s.tmpCheck n tyKeyChange (keyOp m 2) ≠ 0 →
    ∃ t, exec (.keyChangeRetire m) s = .next t ∧ t.ses.sent = [s.answer n (keyOp m 2) tyKeyChange (s.tmpCheck n tyKeyChange (keyOp m 2)) 0 []] ∧ t.rseq n = max (s.rseq n) m.seq.toNat ∧ (t.sess n).peer = m.peer ∧ (t.sess n).idleTs = s.now ∧ RegsOnly [SESS_RSEQ_LO.V n, SESS_RSEQ_HI.V n, SESS_TSEQ_LO.V n, SESS_TSEQ_HI.V n, SESS_STS.PORT n, SESS_STS.IPV6 n, SES_ERR1.BAD_MSG, SES_ERR1.DENIED] s t ∧ Frame [.regs, .ses] s t) ∧
  (∀ (s : State) (m : TmpMsg) (n : Nat), s.msgHeard n m = true → s.tmpCheck n tyDebugUnlock (dbgOp m 1) ≠ 0 →
    ∃ t, exec (.debugUnlockChallenge m) s = .next t ∧ t.ses.sent = [s.answer n (dbgOp m 1) tyDebugUnlock (s.tmpCheck n tyDebugUnlock (dbgOp m 1)) 0 []] ∧ t.rseq n = max (s.rseq n) m.seq.toNat ∧ (t.sess n).peer = m.peer ∧ (t.sess n).idleTs = s.now ∧ RegsOnly [SESS_RSEQ_LO.V n, SESS_RSEQ_HI.V n, SESS_TSEQ_LO.V n, SESS_TSEQ_HI.V n, SESS_STS.PORT n, SESS_STS.IPV6 n, SES_ERR1.BAD_MSG, SES_ERR1.DENIED] s t ∧ Frame [.regs, .ses] s t) ∧
  (∀ (s : State) (m : TmpMsg) (n : Nat), s.msgHeard n m = true → s.tmpCheck n tyDebugUnlock (dbgOp m 2) ≠ 0 →
    ∃ t, exec (.debugUnlockResponse m) s = .next t ∧ t.ses.sent = [s.answer n (dbgOp m 2) tyDebugUnlock (s.tmpCheck n tyDebugUnlock (dbgOp m 2)) 0 []] ∧ t.rseq n = max (s.rseq n) m.seq.toNat ∧ (t.sess n).peer = m.peer ∧ (t.sess n).idleTs = s.now ∧ RegsOnly [SESS_RSEQ_LO.V n, SESS_RSEQ_HI.V n, SESS_TSEQ_LO.V n, SESS_TSEQ_HI.V n, SESS_STS.PORT n, SESS_STS.IPV6 n, SES_ERR1.BAD_MSG, SES_ERR1.DENIED] s t ∧ Frame [.regs, .ses] s t) ∧
  (∀ (s : State) (m : TmpMsg) (n : Nat), s.msgHeard n m = true → s.tmpCheck n tyLogClear m ≠ 0 →
    ∃ t, exec (.logClear m) s = .next t ∧ t.ses.sent = [s.answer n m tyLogClear (s.tmpCheck n tyLogClear m) 0 []] ∧ t.rseq n = max (s.rseq n) m.seq.toNat ∧ (t.sess n).peer = m.peer ∧ (t.sess n).idleTs = s.now ∧ RegsOnly [SESS_RSEQ_LO.V n, SESS_RSEQ_HI.V n, SESS_TSEQ_LO.V n, SESS_TSEQ_HI.V n, SESS_STS.PORT n, SESS_STS.IPV6 n, SES_ERR1.BAD_MSG, SES_ERR1.DENIED] s t ∧ Frame [.regs, .ses] s t)

/-- With the Bridge UP and every open session's port UP, a heartbeat sends one message for each open session, each session's T8 SEQ one higher, and to a sole session the 152 bytes of R358's table; with the Bridge not UP it sends none. A session without the EVENTS subscription, with the Bridge not UP or its port not UP, or with no record after the last one sent, is sent no event message; with one new record that it may be sent (its SRC in the session's mask), it is sent an EVENT message with the 64 bytes of that record, and its next record moves on. A session without the RECORDER subscription, on a port that is not UP, before LPDDR5X is initialised, while its port takes nothing (log entry 49), or whose next number no buffer has reached yet, is sent no REC_BUF; with its next buffer in the ring and valid (bufValid) and no uncorrectable read, it is sent that buffer with the number of buffers passed over, and its next buffer moves on by one; where its next number is older than the ring's, the first buffer that the ring holds with GAP and SKIPPED as the numbers passed over. -/
def Obligations.DeliveriesAreSent : Prop :=
  (∀ (s : State), s.bridgeUp = true → ((∀ n < 16, s.isOpen n = true → s.netLink (s.sess n).peer.port.val = true)) →
    ∃ t, exec (.heartbeat) s = .next t ∧ t.ses.sent.length = s.openSessions.length ∧ t.ses.sess = s.ses.sess ∧ t.ses.rxq = s.ses.rxq ∧ (∀ n < 16, s.isOpen n = true → t.get64 (SESS_TSEQ_LO.V n) (SESS_TSEQ_HI.V n) = (s.get64 (SESS_TSEQ_LO.V n) (SESS_TSEQ_HI.V n) + 1) % 2 ^ 64) ∧ RegsOnly ((List.range 16).flatMap (fun n => [SESS_TSEQ_LO.V n, SESS_TSEQ_HI.V n])) s t ∧ Frame [.regs, .ses] s t) ∧
  (∀ (s : State) (n : Nat), s.bridgeUp = true → s.openSessions = [n] → s.netLink (s.sess n).peer.port.val = true → s.unitId.length = 16 → s.fpTriple.fp.length = 48 →
    ∃ t, exec (.heartbeat) s = .next t ∧ ((match t.ses.sent with | [.tmp p _ ty _ _ _ pay _] => decide (p = (s.sess n).peer ∧ ty = 0x180 ∧ slice pay 0 16 = s.unitId ∧ leAt pay 16 8 = s.topNow ∧ leAt pay 24 4 = b2n s.fb + 2 * s.get ACD_STS.PENDING + 4 * s.get SEQ_CTL.TEST + 8 * s.get COOL_HWDT_STS.EXPIRED + 16 * s.get CLK_STS.CLKFAIL + 32 * s.get SEQ_LATCH.TFAULT + 64 * b2n ((List.range 16).any (fun k => s.on (COOL_LK_STS.ACTIVE k))) + 128 * b2n s.coolForced + 256 * s.get SEQ_STS.IN_LOSS + 512 * s.get (SESS_STS.MISMATCH n) + 65536 * s.cur ∧ leAt pay 28 4 = s.fpTriple.gen % 2 ^ 32 ∧ slice pay 32 48 = s.fpTriple.fp ∧ leAt pay 80 8 = s.fpTriple.epoch % 2 ^ 64 ∧ leAt pay 88 2 = s.get TAMP_LVL.LVL ∧ leAt pay 90 1 = maskOf 8 s.braked ∧ leAt pay 91 1 = s.get SEQ_LATCH.BLACK ∧ leAt pay 92 2 = s.get SEQ_LATCH.GFAULT) | _ => false) = true) ∧ ((match t.ses.sent with | [.tmp _ _ _ _ _ _ pay _] => decide (leAt pay 94 2 = s.get SES_STS.OPEN ∧ (List.range 9).all (fun k => leAt pay (96 + 2 * k) 2 == s.get (SES_CAP.CAP k)) = true ∧ leAt pay 114 2 = 0) | _ => false) = true) ∧ ((match t.ses.sent with | [.tmp _ _ _ _ _ _ pay _] => decide ((List.range 8).all (fun z => leAt pay (116 + z) 1 == s.get (SES_ZFLOOR.FLOOR z)) = true ∧ (List.range 32).all (fun c => leAt pay 124 12 / 2 ^ (3 * c) % 8 == s.get (COOL_CONS_STS.STATE c)) = true) | _ => false) = true) ∧ ((match t.ses.sent with | [.tmp _ _ _ _ _ _ pay _] => decide (leAt pay 136 4 = s.get TFAB_REC_SEQ.LAST ∧ leAt pay 140 4 = s.get TFAB_REC_TRIG.BUFSEQ ∧ leAt pay 144 2 = s.get SES_JOB.RUNNING ∧ leAt pay 146 2 = s.get SES_JOB.BOUNDARY ∧ leAt pay 148 4 = 0 ∧ pay.length = 152) | _ => false) = true) ∧ Frame [.regs, .ses] s t) ∧
  (∀ (s : State), s.bridgeUp = false →
    ∃ t, exec (.heartbeat) s = .next t ∧ t.ses.sent = [] ∧ t.ses.sess = s.ses.sess ∧ Frame [.ses] s t) ∧
  (∀ (s : State) (n : Fin 16), (s.on (SESS_STS.EVENTS n.val) = false ∨ s.bridgeUp = false ∨ s.netLink (s.sess n.val).peer.port.val = false) →
    ∃ t, exec (.eventDelivery n) s = .next t ∧ t.ses.sent = [] ∧ t.ses.sess = s.ses.sess ∧ Frame [.ses] s t) ∧
  (∀ (s : State) (n : Fin 16), s.on (SESS_STS.EVENTS n.val) = true → s.bridgeUp = true → s.netLink (s.sess n.val).peer.port.val = true → (s.sess n.val).evNext = s.sil.wseq →
    ∃ t, exec (.eventDelivery n) s = .next t ∧ t.ses.sent = [] ∧ (t.sess n.val).evNext = s.sil.wseq ∧ Frame [.ses] s t) ∧
  (∀ (s : State) (n : Fin 16) (r : Rec), s.on (SESS_STS.EVENTS n.val) = true → s.bridgeUp = true → s.netLink (s.sess n.val).peer.port.val = true → (s.sess n.val).evNext + 1 = s.sil.wseq → s.sil.wseq < 2 ^ 32 → look ((s.sess n.val).evNext % 16384) s.sil.ring = some r → s.evWanted n.val r = true →
    ∃ t, exec (.eventDelivery n) s = .next t ∧ (t.sess n.val).evNext = s.sil.wseq ∧ ((match t.ses.sent with | [.tmp p _ ty _ _ _ pay _] => decide (p = (s.sess n.val).peer ∧ ty = 0x181 ∧ pay = recBytes r) | _ => false) = true) ∧ RegsOnly [SESS_TSEQ_LO.V n.val, SESS_TSEQ_HI.V n.val] s t ∧ Frame [.regs, .ses] s t) ∧
  (∀ (s : State) (n : Fin 16) (u : Option (Fin 4096)), (s.on (SESS_STS.RECORDER n.val) = false ∨ s.netLink (s.sess n.val).peer.port.val = false ∨ s.on LPC_STS.INIT_DONE = false ∨ s.portShut 4 = true ∨ ((s.sess n.val).recNext + 2 ^ 32 - (s.get TFAB_REC_SEQ.LAST + 1)) % 2 ^ 32 < 2 ^ 31) →
    ∃ t, exec (.recBufDelivery n u) s = .next t ∧ t.ses.sent = [] ∧ t.ses.sess = s.ses.sess ∧ Frame [.ses] s t) ∧
  (∀ (s : State) (n : Fin 16) (u : Option (Fin 4096)) (f : Nat), u = none → s.on (SESS_STS.RECORDER n.val) = true → s.netLink (s.sess n.val).peer.port.val = true → s.on LPC_STS.INIT_DONE = true → s.portShut 4 = false → s.bufInRange (s.sess n.val).recNext = false → s.get TFAB_REC_FIRST.FIRST = f → s.bufInRange f = true → s.tel.gone.contains f = false → 2 ^ 31 ≤ ((s.sess n.val).recNext + 2 ^ 32 - (s.get TFAB_REC_SEQ.LAST + 1)) % 2 ^ 32 → (s.get TFAB_REC_SEQ.LAST + 1) % 2 ^ 32 ≠ f → bufValid f (memBytes s.mem (s.bufAddr f) 4096) = true →
    ∃ t, exec (.recBufDelivery n u) s = .next t ∧ (t.sess n.val).recNext = (f + 1) % 2 ^ 32 ∧ ((match t.ses.sent with | [.tmp p _ ty _ _ _ pay _] => decide (p = (s.sess n.val).peer ∧ ty = 0x182 ∧ pay.drop 8 = memBytes s.mem (s.bufAddr f) 4096 ∧ leAt pay 4 4 = ((s.sess n.val).recSkip + (f + 2 ^ 32 - (s.sess n.val).recNext) % 2 ^ 32) % 2 ^ 32 ∧ ((s.sess n.val).recSkip + (f + 2 ^ 32 - (s.sess n.val).recNext) % 2 ^ 32 ≠ 0 → leAt pay 0 4 = 1)) | _ => false) = true) ∧ RegsOnly [SESS_TSEQ_LO.V n.val, SESS_TSEQ_HI.V n.val] s t ∧ Frame [.regs, .ses] s t) ∧
  (∀ (s : State) (n : Fin 16) (u : Option (Fin 4096)) (q : Nat), u = none → s.on (SESS_STS.RECORDER n.val) = true → s.netLink (s.sess n.val).peer.port.val = true → s.on LPC_STS.INIT_DONE = true → (s.sess n.val).recNext = q → s.portShut 4 = false → s.bufInRange q = true → s.tel.gone.contains q = false → 2 ^ 31 ≤ (q + 2 ^ 32 - (s.get TFAB_REC_SEQ.LAST + 1)) % 2 ^ 32 → (s.get TFAB_REC_SEQ.LAST + 1) % 2 ^ 32 ≠ s.get TFAB_REC_FIRST.FIRST → bufValid q (memBytes s.mem (s.bufAddr q) 4096) = true →
    ∃ t, exec (.recBufDelivery n u) s = .next t ∧ (t.sess n.val).recNext = (q + 1) % 2 ^ 32 ∧ (t.sess n.val).recSkip = 0 ∧ ((match t.ses.sent with | [.tmp p _ ty _ _ _ pay _] => decide (p = (s.sess n.val).peer ∧ ty = 0x182 ∧ pay.drop 8 = memBytes s.mem (s.bufAddr q) 4096 ∧ leAt pay 4 4 = (s.sess n.val).recSkip % 2 ^ 32) | _ => false) = true) ∧ RegsOnly [SESS_TSEQ_LO.V n.val, SESS_TSEQ_HI.V n.val] s t ∧ Frame [.regs, .ses] s t)

/-- While SVC runs, its answers sent, or held while gate domain 6 is asked for: BEGIN during a transfer or a write is answered BUSY and counted, longer than the buffer too, with 0xE recorded and a held image ended (log entry 42); else it is answered 0 and a transfer starts with nothing received. DATA of the running XFER, 1 to 1,408 bytes inside the length without overlap, joins the received ranges, lands in the staging buffer where the security block may write, changes no other byte, and is answered with the contiguous offset at each 64 KiB and the last byte (log entry 42); Empty DATA, of another XFER or outside a transfer is not answered. END of the XFER, the ports of the engines and of the staging buffer open, is answered with the code of imgCheck and the digest: another code than 0 ends the transfer; with 0 the image is held (an Accord on a device that runs one) or written. An uncorrectable word of the buffer that END or the write reads fails it: 0xC, or 0xF (R219; log entry 42). QUERY with keys is answered with STATE, UNIT_ID, the device identity and the public key. 5 s without DATA end it with 0xC. The write of an image ends, while flash is not held: without room 0xE, unverified 0xF, both counted; verified, a program or Control-core image stands in flash, marked staged, an Accord in slot 0. A program load of the slot's own image: with no check failing on a slot neither ENABLED nor STOPPING it is LOADED with its CYC; a failing check shows its code and loads nothing; an image of another slot is refused with 0x4 (log entry 50); without one nothing happens; while a port holds requests a load waits (log entry 49). An activation check with the Bridge UP and none running: nothing staged shows WAIT 0; a failing condition shows in WAIT, logged where it changed; with none, a single staged program of a slot without a run is activated and its staged copy freed. ABANDON with something staged and none running clears every mark and frees the staged images; else it only completes. -/
def Obligations.ImagesAreTransferredAndActivated : Prop :=
  (∀ (s : State) (peer : Peer) (xfer : BitVec 32) (total : BitVec 32), s.svcRuns = true → s.get SEC_XFER.STATE ≠ 0 → s.get SEC_XFER.STATE ≠ 3 →
    ∃ t, exec (.svcBegin peer xfer total) s = .next t ∧ (t.ses.sent, t.ses.txHeld) = s.svcSent [.svc peer ([0x53, 0x56] ++ leBytes 1 0x81 ++ leBytes 1 0 ++ leBytes 4 xfer.toNat ++ leBytes 4 0 ++ leBytes 2 (leBytes 1 0xD).length ++ leBytes 2 0 ++ leBytes 1 0xD)] ∧ t.get SEC_CNT.REFUSED = satCount SEC_CNT.REFUSED.w (s.get SEC_CNT.REFUSED) 1 ∧ RegsOnly [SEC_CNT.REFUSED] s t ∧ Frame [.regs, .brg, .ses] s t) ∧
  (∀ (s : State) (peer : Peer) (xfer : BitVec 32) (total : BitVec 32), s.svcRuns = true → (s.get SEC_XFER.STATE = 0 ∨ s.get SEC_XFER.STATE = 3) → s.stgSize < total.toNat →
    ∃ t, exec (.svcBegin peer xfer total) s = .next t ∧ (t.ses.sent, t.ses.txHeld) = s.svcSent [.svc peer ([0x53, 0x56] ++ leBytes 1 0x81 ++ leBytes 1 0 ++ leBytes 4 xfer.toNat ++ leBytes 4 0 ++ leBytes 2 (leBytes 1 0xD).length ++ leBytes 2 0 ++ leBytes 1 0xD)] ∧ t.get SEC_CNT.REFUSED = satCount SEC_CNT.REFUSED.w (s.get SEC_CNT.REFUSED) 1 ∧ t.get SEC_XFER.STATE = 0 ∧ t.get SEC_XFER.LAST_CODE = 0xE ∧ t.sec.img = [] ∧ RegsOnly [SEC_CNT.REFUSED, SEC_XFER.STATE, SEC_XFER.LAST_CODE, SEC_XFER.LAST_TYPE] s t ∧ Frame [.regs, .brg, .ses, .sec] s t) ∧
  (∀ (s : State) (peer : Peer) (xfer : BitVec 32) (total : BitVec 32), s.svcRuns = true → (s.get SEC_XFER.STATE = 0 ∨ s.get SEC_XFER.STATE = 3) → total.toNat ≤ s.stgSize →
    ∃ t, exec (.svcBegin peer xfer total) s = .next t ∧ (t.ses.sent, t.ses.txHeld) = s.svcSent [.svc peer ([0x53, 0x56] ++ leBytes 1 0x81 ++ leBytes 1 0 ++ leBytes 4 xfer.toNat ++ leBytes 4 0 ++ leBytes 2 (leBytes 1 0).length ++ leBytes 2 0 ++ leBytes 1 0)] ∧ t.get SEC_XFER.STATE = 1 ∧ t.sec.xfer = xfer.toNat ∧ t.sec.peer = peer ∧ t.sec.len = total.toNat ∧ t.sec.got = [] ∧ t.sec.img = [] ∧ RegsOnly [SEC_XFER.STATE] s t ∧ Frame [.regs, .ses, .sec] s t) ∧
  (∀ (s : State) (peer : Peer) (xfer : BitVec 32) (total : BitVec 32), s.svcRuns = false →
    ∃ t, exec (.svcBegin peer xfer total) s = .next t ∧ t.ses.sent = [] ∧ t.ses.sess = s.ses.sess ∧ Frame [.ses] s t) ∧
  (∀ (s : State) (peer : Peer) (xfer : BitVec 32) (off : BitVec 32) (bytes : List Byte), s.svcRuns = true → s.get SEC_XFER.STATE = 1 → s.sec.xfer = xfer.toNat → 1 ≤ bytes.length → bytes.length ≤ 1408 → off.toNat + bytes.length ≤ s.sec.len → ((∀ r ∈ s.sec.got, off.toNat + bytes.length ≤ r.1 ∨ r.1 + r.2 ≤ off.toNat)) →
    ∃ t, exec (.svcData peer xfer off bytes) s = .next t ∧ t.sec.got = (off.toNat, bytes.length) :: s.sec.got ∧ ((s.stgLp = true → s.portShut 4 = false ∧ s.on LPC_STS.INIT_DONE = true) → s.textLocked (s.stgBase + off.toNat) = false → s.textLocked (s.stgBase + off.toNat + bytes.length - 1) = false → s.judge .security true (s.stgBase + off.toNat) = .allowed → s.judge .security true (s.stgBase + off.toNat + bytes.length - 1) = .allowed → memBytes t.mem (s.stgBase + off.toNat) bytes.length = bytes) ∧ (∀ a, ¬(s.stgBase + off.toNat ≤ a ∧ a < s.stgBase + off.toNat + bytes.length) → memRead t.mem a = memRead s.mem a) ∧ (s.gateAsked 4 = false → t.clk = s.clk) ∧ (t.ses.sent, t.ses.txHeld) = s.svcSent (if s.sec.received / 65536 < (s.sec.received + bytes.length) / 65536 ∨ off.toNat + bytes.length = s.sec.len ∨ s.sec.received + bytes.length = s.sec.len then [.svc peer ([0x53, 0x56] ++ leBytes 1 0x82 ++ leBytes 1 0 ++ leBytes 4 xfer.toNat ++ leBytes 4 off.toNat ++ leBytes 2 (leBytes 4 t.sec.contig).length ++ leBytes 2 0 ++ leBytes 4 t.sec.contig)] else []) ∧ Frame [.clk, .ses, .sec, .mem] s t) ∧
  (∀ (s : State) (peer : Peer) (xfer : BitVec 32) (off : BitVec 32) (bytes : List Byte), (s.svcRuns = false ∨ s.get SEC_XFER.STATE ≠ 1 ∨ s.sec.xfer ≠ xfer.toNat ∨ bytes = []) →
    ∃ t, exec (.svcData peer xfer off bytes) s = .next t ∧ t.ses.sent = [] ∧ Frame [.ses] s t) ∧
  (∀ (s : State) (peer : Peer) (xfer : BitVec 32) (un : Option (BitVec 28)), un.filter (fun o => s.stgLp && decide (o.toNat < s.sec.contig)) = none → s.svcRuns = true → s.get SEC_XFER.STATE = 1 → s.sec.xfer = xfer.toNat → s.gateAsked 7 = false → s.gated 7 = false → ((s.stgLp = true → s.portShut 4 = false)) →
    ∃ t, exec (.svcEnd peer xfer un) s = .next t ∧ (t.ses.sent, t.ses.txHeld) = s.svcSent [.svc peer ([0x53, 0x56] ++ leBytes 1 0x83 ++ leBytes 1 0 ++ leBytes 4 xfer.toNat ++ leBytes 4 0 ++ leBytes 2 ((leBytes 1 (s.imgCheck s.stagedBytes true (s.contentOk s.stagedBytes)) ++ leBytes 3 0 ++ imgDigest s.stagedBytes)).length ++ leBytes 2 0 ++ (leBytes 1 (s.imgCheck s.stagedBytes true (s.contentOk s.stagedBytes)) ++ leBytes 3 0 ++ imgDigest s.stagedBytes))] ∧ t.sec.got = [] ∧ (s.imgCheck s.stagedBytes true (s.contentOk s.stagedBytes) ≠ 0 → t.get SEC_XFER.STATE = 0 ∧ t.get SEC_XFER.LAST_CODE = s.imgCheck s.stagedBytes true (s.contentOk s.stagedBytes) ∧ t.get SEC_CNT.REFUSED = satCount SEC_CNT.REFUSED.w (s.get SEC_CNT.REFUSED) 1) ∧ (s.imgCheck s.stagedBytes true (s.contentOk s.stagedBytes) = 0 → t.get SEC_XFER.STATE = (if imgType s.stagedBytes = 1 ∧ s.emptyDevice = false then 3 else 4) ∧ t.get SEC_XFER.LAST_CODE = 0 ∧ t.sec.img = s.stagedBytes) ∧ RegsOnly [SEC_CNT.REFUSED, SEC_CNT.ACCEPTED, SEC_XFER.STATE, SEC_XFER.LAST_CODE, SEC_XFER.LAST_TYPE] s t ∧ Frame [.regs, .brg, .ses, .sec] s t) ∧
  (∀ (s : State) (peer : Peer) (xfer : BitVec 32) (un : Option (BitVec 28)) (o : BitVec 28), s.svcRuns = true → s.get SEC_XFER.STATE = 1 → s.sec.xfer = xfer.toNat → s.gateAsked 7 = false → s.gated 7 = false → ((s.stgLp = true → s.portShut 4 = false)) → un = some o → s.stgLp = true → o.toNat < s.sec.contig →
    ∃ t, exec (.svcEnd peer xfer un) s = .next t ∧ (t.ses.sent, t.ses.txHeld) = s.svcSent [.svc peer ([0x53, 0x56] ++ leBytes 1 0x83 ++ leBytes 1 0 ++ leBytes 4 xfer.toNat ++ leBytes 4 0 ++ leBytes 2 ((leBytes 1 0xC ++ leBytes 3 0 ++ imgDigest s.stagedBytes)).length ++ leBytes 2 0 ++ (leBytes 1 0xC ++ leBytes 3 0 ++ imgDigest s.stagedBytes))] ∧ t.sec.got = [] ∧ t.get SEC_XFER.STATE = 0 ∧ t.get SEC_XFER.LAST_CODE = 0xC ∧ t.get SEC_CNT.REFUSED = satCount SEC_CNT.REFUSED.w (s.get SEC_CNT.REFUSED) 1 ∧ t.on LPC_STS.UNCORR = true ∧ t.get64 LPC_ERR_ADDR_LO.ADDR_LO LPC_ERR_ADDR_HI.ADDR_HI = s.stgBase + o.toNat ∧ Frame [.regs, .brg, .ses, .sec] s t) ∧
  (∀ (s : State) (peer : Peer) (xfer : BitVec 32) (un : Option (BitVec 28)), (s.svcRuns = false ∨ s.get SEC_XFER.STATE ≠ 1 ∨ s.sec.xfer ≠ xfer.toNat) →
    ∃ t, exec (.svcEnd peer xfer un) s = .next t ∧ t.ses.sent = [] ∧ Frame [.ses] s t) ∧
  (∀ (s : State) (peer : Peer) (xfer : BitVec 32), s.svcRuns = true → s.on KEY_STS.READY = true →
    ∃ t, exec (.svcQuery peer xfer) s = .next t ∧ (t.ses.sent, t.ses.txHeld) = s.svcSent [.svc peer ([0x53, 0x56] ++ leBytes 1 0x84 ++ leBytes 1 0 ++ leBytes 4 xfer.toNat ++ leBytes 4 0 ++ leBytes 2 ((leBytes 1 (s.get SEC_XFER.STATE) ++ leBytes 3 0 ++ s.unitId ++ leBytes 4 s.devId ++ padTo 1984 s.devicePub)).length ++ leBytes 2 0 ++ (leBytes 1 (s.get SEC_XFER.STATE) ++ leBytes 3 0 ++ s.unitId ++ leBytes 4 s.devId ++ padTo 1984 s.devicePub))] ∧ Frame [.ses] s t) ∧
  (∀ (s : State) (peer : Peer) (xfer : BitVec 32), s.svcRuns = false →
    ∃ t, exec (.svcQuery peer xfer) s = .next t ∧ t.ses.sent = [] ∧ Frame [.ses] s t) ∧
  (∀ (s : State), s.get SEC_XFER.STATE = 1 →
    ∃ t, exec (.transferTimeout) s = .next t ∧ t.get SEC_XFER.STATE = 0 ∧ t.get SEC_XFER.LAST_CODE = 0xC ∧ t.get SEC_CNT.REFUSED = satCount SEC_CNT.REFUSED.w (s.get SEC_CNT.REFUSED) 1 ∧ t.sec.got = [] ∧ RegsOnly [SEC_CNT.REFUSED, SEC_XFER.STATE, SEC_XFER.LAST_CODE, SEC_XFER.LAST_TYPE] s t ∧ Frame [.regs, .brg, .sec] s t) ∧
  (∀ (s : State), s.get SEC_XFER.STATE ≠ 1 → exec (.transferTimeout) s = .next s) ∧
  (∀ (s : State) (res : FlashEnd) (un : Option (BitVec 28)), s.get SEC_XFER.STATE = 4 → s.flashHeld = false → un.filter (fun o => s.stgLp && decide (o.toNat < s.sec.img.length)) = none → (res = .noSpace ∨ res = .failed) →
    ∃ t, exec (.flashWriteDone res un) s = .next t ∧ t.get SEC_XFER.STATE = 0 ∧ t.get SEC_XFER.LAST_CODE = (if res = .noSpace then 0xE else 0xF) ∧ t.get SEC_CNT.REFUSED = satCount SEC_CNT.REFUSED.w (s.get SEC_CNT.REFUSED) 1 ∧ t.sec.img = [] ∧ RegsOnly [SEC_CNT.REFUSED, SEC_XFER.STATE, SEC_XFER.LAST_CODE, SEC_XFER.LAST_TYPE] s t ∧ Frame [.regs, .brg, .sec] s t) ∧
  (∀ (s : State) (res : FlashEnd) (un : Option (BitVec 28)), s.get SEC_XFER.STATE = 4 → s.flashHeld = false → un.filter (fun o => s.stgLp && decide (o.toNat < s.sec.img.length)) = none → res = .verified → imgType s.sec.img = 4 → imgPslot s.sec.img < 16 →
    ∃ t, exec (.flashWriteDone res un) s = .next t ∧ t.get SEC_XFER.STATE = 0 ∧ look (32 + imgPslot s.sec.img) t.flash = some s.sec.img ∧ bitOf (t.get KEY_STAGED.PROG) (imgPslot s.sec.img) = true ∧ t.sec.img = [] ∧ Frame [.regs, .sil, .nvm, .sec, .flash] s t) ∧
  (∀ (s : State) (res : FlashEnd) (un : Option (BitVec 28)), s.get SEC_XFER.STATE = 4 → s.flashHeld = false → un.filter (fun o => s.stgLp && decide (o.toNat < s.sec.img.length)) = none → res = .verified → imgType s.sec.img = 1 →
    ∃ t, exec (.flashWriteDone res un) s = .next t ∧ t.get SEC_XFER.STATE = 0 ∧ look 0 t.flash = some s.sec.img ∧ Frame [.regs, .time, .clk, .sil, .nvm, .brg, .tw, .seq, .tamp, .cool, .tel, .acd, .ses, .sec, .flash, .bus, .mem] s t) ∧
  (∀ (s : State) (res : FlashEnd) (un : Option (BitVec 28)), s.get SEC_XFER.STATE = 4 → s.flashHeld = false → un.filter (fun o => s.stgLp && decide (o.toNat < s.sec.img.length)) = none → res = .verified → imgType s.sec.img = 3 →
    ∃ t, exec (.flashWriteDone res un) s = .next t ∧ t.get SEC_XFER.STATE = 0 ∧ look (s.fwOther 4) t.flash = some s.sec.img ∧ t.on KEY_STAGED.CFW = true ∧ t.sec.img = [] ∧ Frame [.regs, .sil, .nvm, .sec, .flash] s t) ∧
  (∀ (s : State) (res : FlashEnd) (un : Option (BitVec 28)) (o : BitVec 28), s.get SEC_XFER.STATE = 4 → s.flashHeld = false → un = some o → s.stgLp = true → o.toNat < s.sec.img.length →
    ∃ t, exec (.flashWriteDone res un) s = .next t ∧ t.get SEC_XFER.STATE = 0 ∧ t.get SEC_XFER.LAST_CODE = 0xF ∧ t.get SEC_CNT.REFUSED = satCount SEC_CNT.REFUSED.w (s.get SEC_CNT.REFUSED) 1 ∧ t.sec.img = [] ∧ t.on LPC_STS.UNCORR = true ∧ t.get64 LPC_ERR_ADDR_LO.ADDR_LO LPC_ERR_ADDR_HI.ADDR_HI = s.stgBase + o.toNat ∧ Frame [.regs, .brg, .sec] s t) ∧
  (∀ (s : State) (res : FlashEnd) (un : Option (BitVec 28)), (s.get SEC_XFER.STATE ≠ 4 ∨ s.flashHeld = true) → exec (.flashWriteDone res un) s = .next s) ∧
  (∀ (s : State) (n : Fin 16) (img : List Byte), s.topLive = true → s.engineHeld = false → s.gated 7 = false → look (16 + n.val) s.flash = some img → imgType img = 4 → imgPslot img = n.val →
    ∃ t, exec (.programLoad n) s = .next t ∧ (s.imgCheck img false (s.contentOk img) = 0 → s.slotSt n.val ≠ 2 ∧ s.slotSt n.val ≠ 3 ∧ s.loadCheck n.val (imgBody img) = 0 → t.slotSt n.val = 1 ∧ t.get (INF_SLOT_PROG.CYC n.val) = leAt (imgBody img) 4 4 % 2 ^ (INF_SLOT_PROG.CYC n.val).w ∧ t.on (INF_SLOT_STS.STATE_BAD n.val) = false) ∧ (s.imgCheck img false (s.contentOk img) ≠ 0 → t.get SEC_XFER.LAST_CODE = s.imgCheck img false (s.contentOk img) ∧ t.slotSt n.val = s.slotSt n.val ∧ t.mem = s.mem) ∧ Frame [.regs, .sil, .brg, .inf, .acd, .mem] s t) ∧
  (∀ (s : State) (n : Fin 16) (img : List Byte), s.topLive = true → s.engineHeld = false → s.gated 7 = false → look (16 + n.val) s.flash = some img → (imgType img ≠ 4 ∨ imgPslot img ≠ n.val) →
    ∃ t, exec (.programLoad n) s = .next t ∧ t.get SEC_XFER.LAST_CODE = 0x4 ∧ t.get SEC_CNT.REFUSED = satCount SEC_CNT.REFUSED.w (s.get SEC_CNT.REFUSED) 1 ∧ RegsOnly [SEC_CNT.REFUSED, SEC_XFER.LAST_CODE, SEC_XFER.LAST_TYPE] s t ∧ Frame [.regs, .brg] s t) ∧
  (∀ (s : State) (n : Fin 16), s.topLive = true → s.engineHeld = true →
    ∃ t, exec (.programLoad n) s = .next t ∧ t.sec.waits = s.sec.waits ++ [.load n.val] ∧ Frame [.sec] s t) ∧
  (∀ (s : State) (n : Fin 16), (s.topLive = false ∨ (s.engineHeld = false ∧ (s.gated 7 = true ∨ look (16 + n.val) s.flash = none))) → exec (.programLoad n) s = .next s) ∧
  (∀ (s : State), s.bridgeUp = true → s.on SEC_ACT.RUNNING = false → s.stagedBits = 0 →
    ∃ t, exec (.activationCheck) s = .next t ∧ t.get SEC_ACT.WAIT = 0 ∧ t.sec.lastWait = 0 ∧ RegsOnly [SEC_ACT.WAIT] s t ∧ Frame [.regs, .sec] s t) ∧
  (∀ (s : State) (c : Nat), s.bridgeUp = true → s.on SEC_ACT.RUNNING = false → s.stagedBits ≠ 0 → s.actCause = c → c ≠ 0 →
    ∃ t, exec (.activationCheck) s = .next t ∧ t.get SEC_ACT.WAIT = c ∧ t.sec.lastWait = c ∧ t.stagedBits = s.stagedBits ∧ t.brg = (if c = s.sec.lastWait then s else s.logTop EVT_ACT_WAIT ACC_TRAY UNIT_SEC 0 [(0, 1, c), (4, 4, s.stagedBits)]).brg ∧ RegsOnly [SEC_ACT.WAIT] s t ∧ Frame [.regs, .brg, .sec] s t) ∧
  (∀ (s : State) (n : Nat), s.bridgeUp = true → s.on SEC_ACT.RUNNING = false → s.stagedBits = 2 ^ n → n < 16 → s.actCause = 0 → (s.islot n).run = none → s.slotSt n ≠ slotStopping →
    ∃ t, exec (.activationCheck) s = .next t ∧ t.get SEC_ACT.WAIT = 0 ∧ t.on SEC_ACT.RUNNING = false ∧ t.stagedBits = 0 ∧ look (32 + n) t.flash = none ∧ Frame [.regs, .time, .clk, .sil, .nvm, .pwr, .brg, .tw, .seq, .tamp, .cool, .tel, .inf, .acd, .key, .fw, .ses, .sec, .flash, .bus, .mem] s t) ∧
  (∀ (s : State), s.bridgeUp = false → exec (.activationCheck) s = .next s) ∧
  (∀ (s : State) (ini : Initiator), s.judge ini true SEC_ACT.ABANDON.addr = .allowed → s.on SEC_ACT.RUNNING = false → s.stagedBits ≠ 0 →
    ∃ t, exec (.abandonStaged ini) s = .next t ∧ t.stagedBits = 0 ∧ t.get SEC_ACT.WAIT = 0 ∧ (s.on KEY_STAGED.ACD = true → look (1 - s.get ACD_STS.SLOT) t.flash = none) ∧ (∀ n < 16, bitOf (s.get KEY_STAGED.PROG) n = true → look (32 + n) t.flash = none) ∧ t.bus = .written ∧ Frame [.regs, .sil, .nvm, .sec, .flash, .bus] s t) ∧
  (∀ (s : State) (ini : Initiator), s.judge ini true SEC_ACT.ABANDON.addr = .allowed → (s.on SEC_ACT.RUNNING = true ∨ s.stagedBits = 0) →
    ∃ t, exec (.abandonStaged ini) s = .next t ∧ t.bus = .written ∧ Frame [.bus] s t)

/-- GO of an OP while no request runs shows OP and BUSY and starts it; while one runs it shows OP alone (stated of FP_STATEMENT). FP_STATEMENT has RESULT 0 with keys and debug locked, else 2 (keys) or 1; GET_PUB gives the device public key with keys, else RESULT 1; DBG_CHALLENGE with good arguments keeps and gives 32 free bytes and the UNIT_ID, with bad ones RESULT 4, DETAIL 3; DBG_RESPONSE erases the challenge and opens debug where its DETAIL (dbgDetail) is 0, else leaves it, RESULT 3 for DETAIL 2, else 4; KEY_ADD sets VALID of the empty slot where its DETAIL (addDetail) is 0, else changes no OTP and no VALID, RESULT 3 for DETAIL 2 or 3, else 4; KEY_RETIRE sets RETIRED of every older slot where its DETAIL is 0, else changes nothing of them, RESULT 4. A request of at most 1,984 output bytes that completes clears BUSY and shows its RESULT (below 6) and its output. Where none runs, the oldest waiting statement of a session on a port that is UP, with debug locked, leaves the list and its session is sent the statement's reply with STATUS 0; with none waiting nothing is sent. While the port of domain 7 is shut neither completes (log entry 49). RESULT 3 with its DETAIL in the buffer, the layout of its input, and a RESPONSE erasing the challenge are the model's reading (log entry 41). A press opens the presence window, with MODE 1 only when the seal is good; its end and CLOSE close an open window and log it with 0 and 1; a closed one stays. A good seal loop sets SEAL_OK; one that breaks after being good, or is first judged broken with MODE 1, clears SEAL_OK, sets SEAL_BROKEN and with MODE 1 closes the window; one that stays broken is only judged. The end of DURATION locks an open debug port, clears its scope and logs it; a locked one stays. -/
def Obligations.KeyStoreServesRequests : Prop :=
  (∀ (s : State) (ini : Initiator), s.judge ini true KEY_REQ_CMD.GO.addr = .allowed → s.on KEY_REQ_STS.BUSY = false → s.on KEY_STS.READY = true → s.on KEY_STS.DBG_OPEN = false →
    ∃ t, exec (.keyFpStatement ini) s = .next t ∧ t.get KEY_REQ_CMD.OP = 1 ∧ t.on KEY_REQ_STS.BUSY = true ∧ (t.key.req.map (fun r => r.1)) = some 0 ∧ t.bus = .written ∧ RegsOnly [KEY_REQ_CMD.OP, KEY_REQ_STS.BUSY] s t ∧ Frame [.regs, .key, .bus, .fresh] s t) ∧
  (∀ (s : State) (ini : Initiator), s.judge ini true KEY_REQ_CMD.GO.addr = .allowed → s.on KEY_REQ_STS.BUSY = false → (s.on KEY_STS.READY = false ∨ s.on KEY_STS.DBG_OPEN = true) →
    ∃ t, exec (.keyFpStatement ini) s = .next t ∧ t.get KEY_REQ_CMD.OP = 1 ∧ t.on KEY_REQ_STS.BUSY = true ∧ t.key.req = some ((if s.on KEY_STS.READY then 2 else 1), []) ∧ t.bus = .written ∧ RegsOnly [KEY_REQ_CMD.OP, KEY_REQ_STS.BUSY] s t ∧ Frame [.regs, .key, .bus] s t) ∧
  (∀ (s : State) (ini : Initiator), s.judge ini true KEY_REQ_CMD.GO.addr = .allowed → s.on KEY_REQ_STS.BUSY = true →
    ∃ t, exec (.keyFpStatement ini) s = .next t ∧ t.get KEY_REQ_CMD.OP = 1 ∧ t.bus = .written ∧ RegsOnly [KEY_REQ_CMD.OP] s t ∧ Frame [.regs, .bus] s t) ∧
  (∀ (s : State) (ini : Initiator), s.judge ini true KEY_REQ_CMD.GO.addr = .allowed → s.on KEY_REQ_STS.BUSY = false →
    ∃ t, exec (.getPub ini) s = .next t ∧ t.get KEY_REQ_CMD.OP = 2 ∧ t.on KEY_REQ_STS.BUSY = true ∧ t.key.req = some ((if s.on KEY_STS.READY then 0 else 1), (if s.on KEY_STS.READY then padTo 1984 s.devicePub else [])) ∧ t.bus = .written ∧ RegsOnly [KEY_REQ_CMD.OP, KEY_REQ_STS.BUSY] s t ∧ Frame [.regs, .key, .bus] s t) ∧
  (∀ (s : State) (ini : Initiator), s.judge ini true KEY_REQ_CMD.GO.addr = .allowed → s.on KEY_REQ_STS.BUSY = false → dbgArgsOk (leAt (s.reqBytes 3) 0 1) (leAt (s.reqBytes 3) 1 2) = true →
    ∃ t, exec (.dbgChallenge ini) s = .next t ∧ t.get KEY_REQ_CMD.OP = 3 ∧ t.on KEY_REQ_STS.BUSY = true ∧ t.key.req = some (0, leBytes 32 (Config.free s.fresh) ++ s.unitId) ∧ t.key.chal = some { ts := s.now, scope := leAt (s.reqBytes 3) 0 1, dur := leAt (s.reqBytes 3) 1 2, bytes := leBytes 32 (Config.free s.fresh) } ∧ t.bus = .written ∧ RegsOnly [KEY_REQ_CMD.OP, KEY_REQ_STS.BUSY] s t ∧ Frame [.regs, .key, .bus, .fresh] s t) ∧
  (∀ (s : State) (ini : Initiator), s.judge ini true KEY_REQ_CMD.GO.addr = .allowed → s.on KEY_REQ_STS.BUSY = false → dbgArgsOk (leAt (s.reqBytes 3) 0 1) (leAt (s.reqBytes 3) 1 2) = false →
    ∃ t, exec (.dbgChallenge ini) s = .next t ∧ t.get KEY_REQ_CMD.OP = 3 ∧ t.on KEY_REQ_STS.BUSY = true ∧ t.key.req = some (4, leBytes 2 3) ∧ t.key.chal = s.key.chal ∧ t.bus = .written ∧ RegsOnly [KEY_REQ_CMD.OP, KEY_REQ_STS.BUSY] s t ∧ Frame [.regs, .key, .bus] s t) ∧
  (∀ (s : State) (ini : Initiator), s.judge ini true KEY_REQ_CMD.GO.addr = .allowed → s.on KEY_REQ_STS.BUSY = false →
    ∃ t, exec (.dbgResponse ini) s = .next t ∧ t.get KEY_REQ_CMD.OP = 4 ∧ t.on KEY_REQ_STS.BUSY = true ∧ t.key.chal = none ∧ ((s.dbgDetail (leAt (s.reqBytes 3376) 0 1) (leAt (s.reqBytes 3376) 1 2) (slice (s.reqBytes 3376) 3 3373)) = 0 → t.on KEY_STS.DBG_OPEN = true ∧ t.key.req = some (0, [])) ∧ ((s.dbgDetail (leAt (s.reqBytes 3376) 0 1) (leAt (s.reqBytes 3376) 1 2) (slice (s.reqBytes 3376) 3 3373)) ≠ 0 → t.on KEY_STS.DBG_OPEN = s.on KEY_STS.DBG_OPEN ∧ t.key.req = some (if (s.dbgDetail (leAt (s.reqBytes 3376) 0 1) (leAt (s.reqBytes 3376) 1 2) (slice (s.reqBytes 3376) 3 3373)) = 2 then 3 else 4, leBytes 2 (s.dbgDetail (leAt (s.reqBytes 3376) 0 1) (leAt (s.reqBytes 3376) 1 2) (slice (s.reqBytes 3376) 3 3373)))) ∧ t.bus = .written ∧ RegsOnly [KEY_REQ_CMD.OP, KEY_REQ_STS.BUSY, KEY_STS.DBG_OPEN, KEY_DBG.SCOPE] s t ∧ Frame [.regs, .sil, .key, .bus, .fresh] s t) ∧
  (∀ (s : State) (ini : Initiator) (ok : Bool), s.judge ini true KEY_REQ_CMD.GO.addr = .allowed → s.on KEY_REQ_STS.BUSY = false →
    ∃ t, exec (.keyAdd ini ok) s = .next t ∧ t.get KEY_REQ_CMD.OP = 5 ∧ t.on KEY_REQ_STS.BUSY = true ∧ ((s.addDetail (s.reqBytes 8746) ok) = 0 → (∀ k < 8, s.emptyKeySlot = some k → bitOf (t.get KEY_OWNER.VALID) k = true) ∧ t.key.req = some (0, [])) ∧ ((s.addDetail (s.reqBytes 8746) ok) ≠ 0 → t.otp = s.otp ∧ t.get KEY_OWNER.VALID = s.get KEY_OWNER.VALID ∧ t.key.req = some (if (s.addDetail (s.reqBytes 8746) ok) = 2 ∨ (s.addDetail (s.reqBytes 8746) ok) = 3 then 3 else 4, leBytes 2 (s.addDetail (s.reqBytes 8746) ok))) ∧ t.bus = .written ∧ RegsOnly [KEY_REQ_CMD.OP, KEY_REQ_STS.BUSY, KEY_OWNER.VALID, KEY_OWNER.ACTIVE] s t ∧ Frame [.regs, .sil, .otp, .key, .bus, .fresh] s t) ∧
  (∀ (s : State) (ini : Initiator), s.judge ini true KEY_REQ_CMD.GO.addr = .allowed → s.on KEY_REQ_STS.BUSY = false →
    ∃ t, exec (.keyRetire ini) s = .next t ∧ t.get KEY_REQ_CMD.OP = 6 ∧ t.on KEY_REQ_STS.BUSY = true ∧ (s.retireDetail = 0 → (∀ k ∈ s.olderSlots, bitOf (t.get KEY_OWNER.RETIRED) k = true) ∧ t.key.req = some (0, [])) ∧ (s.retireDetail ≠ 0 → t.otp = s.otp ∧ t.get KEY_OWNER.RETIRED = s.get KEY_OWNER.RETIRED ∧ t.key.req = some (4, leBytes 2 s.retireDetail)) ∧ t.bus = .written ∧ RegsOnly [KEY_REQ_CMD.OP, KEY_REQ_STS.BUSY, KEY_OWNER.RETIRED] s t ∧ Frame [.regs, .sil, .otp, .key, .bus, .fresh] s t) ∧
  (∀ (s : State) (r : Nat) (out : List Byte), s.portShut 7 = false → s.key.req = some (r, out) → r < 6 → out.length ≤ 1984 →
    ∃ t, exec (.keyRequestDone) s = .next t ∧ t.key.req = none ∧ t.on KEY_REQ_STS.BUSY = false ∧ t.get KEY_REQ_STS.RESULT = r ∧ t.reqBytes out.length = out ∧ RegsOnly ([KEY_REQ_STS.BUSY, KEY_REQ_STS.RESULT] ++ (List.range ((out.length + 3) / 4)).map (fun w => KEY_REQ_BUF.DATA w)) s t ∧ Frame [.regs, .key] s t) ∧
  (∀ (s : State) (n q : Nat) (nonce : List Byte) (l : List (Nat × Nat × List Byte)), s.portShut 7 = false → s.key.req = none → s.acd.stmts = (n, q, nonce) :: l → n < 16 → s.netLink (s.replyPeer n q).port.val = true → s.on KEY_STS.DBG_OPEN = false →
    ∃ t, exec (.keyRequestDone) s = .next t ∧ t.acd.stmts = l ∧ ((match t.ses.sent with | [.tmp p _ ty fl _ _ pay _] => decide (p = s.replyPeer n q ∧ ty = 0x102 ∧ fl = 3 ∧ leAt pay 0 2 = 0 ∧ leAt pay 4 8 = q % 2 ^ 64) | _ => false) = true) ∧ RegsOnly [SESS_TSEQ_LO.V n, SESS_TSEQ_HI.V n] s t ∧ Frame [.regs, .acd, .ses, .fresh] s t) ∧
  (∀ (s : State), s.portShut 7 = true → exec (.keyRequestDone) s = .next s) ∧
  (∀ (s : State), s.portShut 7 = false → s.key.req = none → s.acd.stmts = [] →
    ∃ t, exec (.keyRequestDone) s = .next t ∧ t.ses.sent = [] ∧ Frame [.ses] s t) ∧
  (∀ (s : State), (s.on KEY_PRES_CFG.MODE = false ∨ s.on KEY_PRES.SEAL_OK = true) →
    ∃ t, exec (.presBtnPress) s = .next t ∧ t.on KEY_PRES.OPEN = true ∧ t.get KEY_PRES.SRC = (if s.on KEY_PRES_CFG.MODE then 3 else 1) ∧ t.key.presTs = s.now ∧ RegsOnly [KEY_PRES.OPEN, KEY_PRES.SRC] s t ∧ Frame [.regs, .sil, .key] s t) ∧
  (∀ (s : State), s.on KEY_PRES_CFG.MODE = true → s.on KEY_PRES.SEAL_OK = false → exec (.presBtnPress) s = .next s) ∧
  (∀ (s : State), s.on KEY_PRES.OPEN = true →
    ∃ t, exec (.presenceWindowEnd) s = .next t ∧ t.on KEY_PRES.OPEN = false ∧ t.sil = (s.log EVT_PRES_CLOSE ACC_TRAY UNIT_KEY 0 [(0, 1, 0)]).sil ∧ RegsOnly [KEY_PRES.OPEN] s t ∧ Frame [.regs, .sil] s t) ∧
  (∀ (s : State), s.on KEY_PRES.OPEN = false → exec (.presenceWindowEnd) s = .next s) ∧
  (∀ (s : State) (ini : Initiator), s.judge ini true KEY_PRES.CLOSE.addr = .allowed → s.on KEY_PRES.OPEN = true →
    ∃ t, exec (.presClose ini) s = .next t ∧ t.on KEY_PRES.OPEN = false ∧ t.sil = (s.log EVT_PRES_CLOSE ACC_TRAY UNIT_KEY 0 [(0, 1, 1)]).sil ∧ t.bus = .written ∧ RegsOnly [KEY_PRES.OPEN] s t ∧ Frame [.regs, .sil, .bus] s t) ∧
  (∀ (s : State) (ini : Initiator), s.judge ini true KEY_PRES.CLOSE.addr = .allowed → s.on KEY_PRES.OPEN = false →
    ∃ t, exec (.presClose ini) s = .next t ∧ t.bus = .written ∧ Frame [.bus] s t) ∧
  (∀ (s : State),
    ∃ t, exec (.sealLoopContinuous) s = .next t ∧ t.on KEY_PRES.SEAL_OK = true ∧ t.key.sealJudged = true ∧ RegsOnly [KEY_PRES.SEAL_OK] s t ∧ Frame [.regs, .key] s t) ∧
  (∀ (s : State), (s.on KEY_PRES.SEAL_OK = true ∨ (s.key.sealJudged = false ∧ s.on KEY_PRES_CFG.MODE = true)) →
    ∃ t, exec (.sealBreak) s = .next t ∧ t.on KEY_PRES.SEAL_OK = false ∧ t.on KEY_PRES.SEAL_BROKEN = true ∧ t.key.sealJudged = true ∧ t.on KEY_PRES.OPEN = (s.on KEY_PRES.OPEN && !s.on KEY_PRES_CFG.MODE) ∧ RegsOnly [KEY_PRES.SEAL_OK, KEY_PRES.SEAL_BROKEN, KEY_PRES.OPEN] s t ∧ Frame [.regs, .sil, .key] s t) ∧
  (∀ (s : State), s.on KEY_PRES.SEAL_OK = false → (s.key.sealJudged = true ∨ s.on KEY_PRES_CFG.MODE = false) →
    ∃ t, exec (.sealBreak) s = .next t ∧ t.key.sealJudged = true ∧ t.key.presTs = s.key.presTs ∧ t.key.chal = s.key.chal ∧ t.key.req = s.key.req ∧ Frame [.key] s t) ∧
  (∀ (s : State), s.on KEY_STS.DBG_OPEN = true →
    ∃ t, exec (.debugLock) s = .next t ∧ t.on KEY_STS.DBG_OPEN = false ∧ t.get KEY_DBG.SCOPE = 0 ∧ t.sil = (s.log EVT_DBG_LOCK ACC_TRAY UNIT_KEY 0 [(0, 1, 0)]).sil ∧ RegsOnly [KEY_STS.DBG_OPEN, KEY_DBG.SCOPE] s t ∧ Frame [.regs, .sil] s t) ∧
  (∀ (s : State), s.on KEY_STS.DBG_OPEN = false → exec (.debugLock) s = .next s)

/-- A core that writes its own bit of FW_PANIC while it runs, a lockup of a core that is not in reset, the expiry of its enabled watchdog, and a restart request for one core that is neither in reset nor restarting while the Bridge is UP, with no Top or warm reset in progress, crash that core with causes 1 to 4: it is RESTARTING and the other cores stay; the crash record holds the cause, the three registers, FB and the Top timestamp, its count one more; its watchdog fields are at reset, its bit of PWRST_CORE_RST set and its count in PWRST_CORE_CNT one more; interrupt source 16 + c and Keeper source 20 are pending, a1 is the cause, the crash's time is kept, its log port is empty; EVT_CORE_CRASH and the mirrored crash entry join BULK (in QUIESCE neither does), FW_LOG_SEQ is one more, its Sillage port is empty, its interrupt claims are complete, and with no other core running memory changes in the ring slot at most (else its locks are released: log entry 53). A write of another core's bits alone, a lockup or expiry in reset, a watchdog that is off, and a request with the Bridge not UP or for cores in reset or restarting crash nothing. With no message waiting, the end of a restart puts that core at RUN with its RESTART bit clear and its watchdog count started, and the release of another core leaves the queue's sent list empty; C0's may copy waiting cooling floors (R355). Debug, where its scope reaches: halts a running Control core and a running Keeper, and lets them run again; where it does not reach nothing happens. A Keeper that traps in its handler halts while the Keepers run. What a crash entry holds of the registers is free (log entry 4); the registers come with the command (log entry 43). -/
def Obligations.CoresCrashAndRestart : Prop :=
  (∀ (s : State) (c : Fin 4) (mask : Fin 16) (csrs : Csrs), s.judge (.core c) true FW_PANIC.PANIC.addr = .allowed → bitOf mask.val c.val = true → s.coreSt c.val = coreRun → s.pwr.topReset = false → s.pwr.topRst = false → s.pwr.warmOn = false →
    ∃ t, exec (.fwPanic (.core c) mask csrs) s = .next t ∧ t.coreSt c.val = coreRestarting ∧ (∀ d < 4, d ≠ c.val → t.coreSt d = s.coreSt d) ∧ t.get (FW_CRASH_CAUSE.CAUSE c.val) = 1 ∧ t.get (FW_CRASH_CAUSE.CNT c.val) = satCount 16 (s.get (FW_CRASH_CAUSE.CNT c.val)) 1 ∧ t.on (FW_CRASH_CAUSE.FB c.val) = s.fb ∧ t.get64 (FW_CRASH_MCAUSE_LO.V c.val) (FW_CRASH_MCAUSE_HI.V c.val) = csrs.mcause.toNat ∧ t.get64 (FW_CRASH_MEPC_LO.V c.val) (FW_CRASH_MEPC_HI.V c.val) = csrs.mepc.toNat ∧ t.get64 (FW_CRASH_MTVAL_LO.V c.val) (FW_CRASH_MTVAL_HI.V c.val) = csrs.mtval.toNat ∧ t.get64 (FW_CRASH_TS_LO.V c.val) (FW_CRASH_TS_HI.V c.val) = s.topNow ∧ t.on (FW_WDT_CFG.EN c.val) = true ∧ t.get (FW_WDT_CFG.PERIOD c.val) = 6 ∧ bitOf (t.get PWRST_CORE_RST.RESTART) c.val = true ∧ bitsOf (t.get PWRST_CORE_CNT.CNT) (8 * c.val) 8 = satCount 8 (bitsOf (s.get PWRST_CORE_CNT.CNT) (8 * c.val) 8) 1 ∧ bitOf t.fw.irq (16 + c.val) = true ∧ bitOf t.fw.kirq 20 = true ∧ t.fw.a1 = modAt s.fw.a1 c.val (fun _ => 1) ∧ t.fw.crashes = ((c.val, s.now) :: s.fw.crashes).take 16 ∧ (∀ w < 8, t.portWord c.val w = 0) ∧ t.brg.bulkQ.take (s.brg.bulkQ.length + 1) = (s.logTop EVT_CORE_CRASH ACC_TRAY UNIT_CFW c.val [(0, 1, 1), (8, 8, csrs.mcause.toNat), (16, 8, csrs.mepc.toNat), (24, 8, csrs.mtval.toNat)]).brg.bulkQ ∧ t.brg.bulkQ.length = s.brg.bulkQ.length + (if s.get BRG_STS.STATE = 3 then 0 else 2) ∧ t.get FW_LOG_SEQ.SEQ = (s.get FW_LOG_SEQ.SEQ + 1) % 2 ^ 32 ∧ ((∀ k < 4, k ≠ c.val → s.coreRuns k = false) → ∀ a, ¬((topSramBase + 32 * s.get FW_LOG_BASE.BASE + 32 * ((s.get FW_LOG_SEQ.SEQ + 1) % 2 ^ 32 % logSlots (s.get FW_LOG_SIZE.SIZE))) ≤ a ∧ a < (topSramBase + 32 * s.get FW_LOG_BASE.BASE + 32 * ((s.get FW_LOG_SEQ.SEQ + 1) % 2 ^ 32 % logSlots (s.get FW_LOG_SIZE.SIZE))) + 32) → memRead t.mem a = memRead s.mem a) ∧ t.sil = { s.sil with ports := s.sil.ports.filter (fun e => e.1 / 12 ≠ c.val) } ∧ t.fw.plic.claims = s.fw.plic.claims.filter (fun e => e.2 ≠ c.val) ∧ t.bus = .written ∧ RegsOnly [FW_CRASH_CAUSE.CAUSE c.val, FW_CRASH_CAUSE.CNT c.val, FW_CRASH_CAUSE.FB c.val, FW_CRASH_MCAUSE_LO.V c.val, FW_CRASH_MCAUSE_HI.V c.val, FW_CRASH_MEPC_LO.V c.val, FW_CRASH_MEPC_HI.V c.val, FW_CRASH_MTVAL_LO.V c.val, FW_CRASH_MTVAL_HI.V c.val, FW_CRASH_TS_LO.V c.val, FW_CRASH_TS_HI.V c.val, FW_WDT_CFG.EN c.val, FW_WDT_CFG.PERIOD c.val, PWRST_CORE_RST.RESTART, PWRST_CORE_CNT.CNT, FW_CORE_STS.STATE, FW_LOG_SEQ.SEQ] s t ∧ Frame [.regs, .sil, .brg, .fw, .bus, .mem, .fresh] s t) ∧
  (∀ (s : State) (c : Fin 4) (mask : Fin 16) (csrs : Csrs), s.judge (.core c) true FW_PANIC.PANIC.addr = .allowed → bitOf mask.val c.val = false →
    ∃ t, exec (.fwPanic (.core c) mask csrs) s = .next t ∧ t.bus = .written ∧ Frame [.bus] s t) ∧
  (∀ (s : State) (c : Fin 4) (csrs : Csrs), s.coreSt c.val ≠ coreReset → s.pwr.topReset = false → s.pwr.topRst = false → s.pwr.warmOn = false →
    ∃ t, exec (.trapLockup c csrs) s = .next t ∧ t.coreSt c.val = coreRestarting ∧ (∀ d < 4, d ≠ c.val → t.coreSt d = s.coreSt d) ∧ t.get (FW_CRASH_CAUSE.CAUSE c.val) = 2 ∧ t.get (FW_CRASH_CAUSE.CNT c.val) = satCount 16 (s.get (FW_CRASH_CAUSE.CNT c.val)) 1 ∧ t.on (FW_CRASH_CAUSE.FB c.val) = s.fb ∧ t.get64 (FW_CRASH_MCAUSE_LO.V c.val) (FW_CRASH_MCAUSE_HI.V c.val) = csrs.mcause.toNat ∧ t.get64 (FW_CRASH_MEPC_LO.V c.val) (FW_CRASH_MEPC_HI.V c.val) = csrs.mepc.toNat ∧ t.get64 (FW_CRASH_MTVAL_LO.V c.val) (FW_CRASH_MTVAL_HI.V c.val) = csrs.mtval.toNat ∧ t.get64 (FW_CRASH_TS_LO.V c.val) (FW_CRASH_TS_HI.V c.val) = s.topNow ∧ t.on (FW_WDT_CFG.EN c.val) = true ∧ t.get (FW_WDT_CFG.PERIOD c.val) = 6 ∧ bitOf (t.get PWRST_CORE_RST.RESTART) c.val = true ∧ bitsOf (t.get PWRST_CORE_CNT.CNT) (8 * c.val) 8 = satCount 8 (bitsOf (s.get PWRST_CORE_CNT.CNT) (8 * c.val) 8) 1 ∧ bitOf t.fw.irq (16 + c.val) = true ∧ bitOf t.fw.kirq 20 = true ∧ t.fw.a1 = modAt s.fw.a1 c.val (fun _ => 2) ∧ t.fw.crashes = ((c.val, s.now) :: s.fw.crashes).take 16 ∧ (∀ w < 8, t.portWord c.val w = 0) ∧ t.brg.bulkQ.take (s.brg.bulkQ.length + 1) = (s.logTop EVT_CORE_CRASH ACC_TRAY UNIT_CFW c.val [(0, 1, 2), (8, 8, csrs.mcause.toNat), (16, 8, csrs.mepc.toNat), (24, 8, csrs.mtval.toNat)]).brg.bulkQ ∧ t.brg.bulkQ.length = s.brg.bulkQ.length + (if s.get BRG_STS.STATE = 3 then 0 else 2) ∧ t.get FW_LOG_SEQ.SEQ = (s.get FW_LOG_SEQ.SEQ + 1) % 2 ^ 32 ∧ ((∀ k < 4, k ≠ c.val → s.coreRuns k = false) → ∀ a, ¬((topSramBase + 32 * s.get FW_LOG_BASE.BASE + 32 * ((s.get FW_LOG_SEQ.SEQ + 1) % 2 ^ 32 % logSlots (s.get FW_LOG_SIZE.SIZE))) ≤ a ∧ a < (topSramBase + 32 * s.get FW_LOG_BASE.BASE + 32 * ((s.get FW_LOG_SEQ.SEQ + 1) % 2 ^ 32 % logSlots (s.get FW_LOG_SIZE.SIZE))) + 32) → memRead t.mem a = memRead s.mem a) ∧ t.sil = { s.sil with ports := s.sil.ports.filter (fun e => e.1 / 12 ≠ c.val) } ∧ t.fw.plic.claims = s.fw.plic.claims.filter (fun e => e.2 ≠ c.val) ∧ RegsOnly [FW_CRASH_CAUSE.CAUSE c.val, FW_CRASH_CAUSE.CNT c.val, FW_CRASH_CAUSE.FB c.val, FW_CRASH_MCAUSE_LO.V c.val, FW_CRASH_MCAUSE_HI.V c.val, FW_CRASH_MEPC_LO.V c.val, FW_CRASH_MEPC_HI.V c.val, FW_CRASH_MTVAL_LO.V c.val, FW_CRASH_MTVAL_HI.V c.val, FW_CRASH_TS_LO.V c.val, FW_CRASH_TS_HI.V c.val, FW_WDT_CFG.EN c.val, FW_WDT_CFG.PERIOD c.val, PWRST_CORE_RST.RESTART, PWRST_CORE_CNT.CNT, FW_CORE_STS.STATE, FW_LOG_SEQ.SEQ] s t ∧ Frame [.regs, .sil, .brg, .fw, .mem, .fresh] s t) ∧
  (∀ (s : State) (c : Fin 4) (csrs : Csrs), (s.coreSt c.val = coreReset ∨ s.pwr.topReset = true ∨ s.pwr.topRst = true ∨ s.pwr.warmOn = true) → exec (.trapLockup c csrs) s = .next s) ∧
  (∀ (s : State) (c : Fin 4) (csrs : Csrs), s.coreSt c.val ≠ coreReset → s.on (FW_WDT_CFG.EN c.val) = true → s.pwr.topReset = false → s.pwr.topRst = false → s.pwr.warmOn = false →
    ∃ t, exec (.coreWdtExpiry c csrs) s = .next t ∧ t.coreSt c.val = coreRestarting ∧ (∀ d < 4, d ≠ c.val → t.coreSt d = s.coreSt d) ∧ t.get (FW_CRASH_CAUSE.CAUSE c.val) = 3 ∧ t.get (FW_CRASH_CAUSE.CNT c.val) = satCount 16 (s.get (FW_CRASH_CAUSE.CNT c.val)) 1 ∧ t.on (FW_CRASH_CAUSE.FB c.val) = s.fb ∧ t.get64 (FW_CRASH_MCAUSE_LO.V c.val) (FW_CRASH_MCAUSE_HI.V c.val) = csrs.mcause.toNat ∧ t.get64 (FW_CRASH_MEPC_LO.V c.val) (FW_CRASH_MEPC_HI.V c.val) = csrs.mepc.toNat ∧ t.get64 (FW_CRASH_MTVAL_LO.V c.val) (FW_CRASH_MTVAL_HI.V c.val) = csrs.mtval.toNat ∧ t.get64 (FW_CRASH_TS_LO.V c.val) (FW_CRASH_TS_HI.V c.val) = s.topNow ∧ t.on (FW_WDT_CFG.EN c.val) = true ∧ t.get (FW_WDT_CFG.PERIOD c.val) = 6 ∧ bitOf (t.get PWRST_CORE_RST.RESTART) c.val = true ∧ bitsOf (t.get PWRST_CORE_CNT.CNT) (8 * c.val) 8 = satCount 8 (bitsOf (s.get PWRST_CORE_CNT.CNT) (8 * c.val) 8) 1 ∧ bitOf t.fw.irq (16 + c.val) = true ∧ bitOf t.fw.kirq 20 = true ∧ t.fw.a1 = modAt s.fw.a1 c.val (fun _ => 3) ∧ t.fw.crashes = ((c.val, s.now) :: s.fw.crashes).take 16 ∧ (∀ w < 8, t.portWord c.val w = 0) ∧ t.brg.bulkQ.take (s.brg.bulkQ.length + 1) = (s.logTop EVT_CORE_CRASH ACC_TRAY UNIT_CFW c.val [(0, 1, 3), (8, 8, csrs.mcause.toNat), (16, 8, csrs.mepc.toNat), (24, 8, csrs.mtval.toNat)]).brg.bulkQ ∧ t.brg.bulkQ.length = s.brg.bulkQ.length + (if s.get BRG_STS.STATE = 3 then 0 else 2) ∧ t.get FW_LOG_SEQ.SEQ = (s.get FW_LOG_SEQ.SEQ + 1) % 2 ^ 32 ∧ ((∀ k < 4, k ≠ c.val → s.coreRuns k = false) → ∀ a, ¬((topSramBase + 32 * s.get FW_LOG_BASE.BASE + 32 * ((s.get FW_LOG_SEQ.SEQ + 1) % 2 ^ 32 % logSlots (s.get FW_LOG_SIZE.SIZE))) ≤ a ∧ a < (topSramBase + 32 * s.get FW_LOG_BASE.BASE + 32 * ((s.get FW_LOG_SEQ.SEQ + 1) % 2 ^ 32 % logSlots (s.get FW_LOG_SIZE.SIZE))) + 32) → memRead t.mem a = memRead s.mem a) ∧ t.sil = { s.sil with ports := s.sil.ports.filter (fun e => e.1 / 12 ≠ c.val) } ∧ t.fw.plic.claims = s.fw.plic.claims.filter (fun e => e.2 ≠ c.val) ∧ RegsOnly [FW_CRASH_CAUSE.CAUSE c.val, FW_CRASH_CAUSE.CNT c.val, FW_CRASH_CAUSE.FB c.val, FW_CRASH_MCAUSE_LO.V c.val, FW_CRASH_MCAUSE_HI.V c.val, FW_CRASH_MEPC_LO.V c.val, FW_CRASH_MEPC_HI.V c.val, FW_CRASH_MTVAL_LO.V c.val, FW_CRASH_MTVAL_HI.V c.val, FW_CRASH_TS_LO.V c.val, FW_CRASH_TS_HI.V c.val, FW_WDT_CFG.EN c.val, FW_WDT_CFG.PERIOD c.val, PWRST_CORE_RST.RESTART, PWRST_CORE_CNT.CNT, FW_CORE_STS.STATE, FW_LOG_SEQ.SEQ] s t ∧ Frame [.regs, .sil, .brg, .fw, .mem, .fresh] s t) ∧
  (∀ (s : State) (c : Fin 4) (csrs : Csrs), (s.coreSt c.val = coreReset ∨ s.on (FW_WDT_CFG.EN c.val) = false) → exec (.coreWdtExpiry c csrs) s = .next s) ∧
  (∀ (s : State) (ini : Initiator) (mask : Fin 16) (r0 r1 r2 r3 : Csrs) (c : Nat) (r : Csrs), s.judge ini true PWRST_CORE_RST.RESTART.addr = .allowed → c < 4 → mask.val = 2 ^ c → [r0, r1, r2, r3][c]? = some r → s.bridgeUp = true → s.coreSt c ≠ coreReset → s.coreSt c ≠ coreRestarting → s.pwr.topReset = false → s.pwr.topRst = false → s.pwr.warmOn = false →
    ∃ t, exec (.coreRestartRequest ini mask r0 r1 r2 r3) s = .next t ∧ t.coreSt c = coreRestarting ∧ (∀ d < 4, d ≠ c → t.coreSt d = s.coreSt d) ∧ t.get (FW_CRASH_CAUSE.CAUSE c) = 4 ∧ t.get (FW_CRASH_CAUSE.CNT c) = satCount 16 (s.get (FW_CRASH_CAUSE.CNT c)) 1 ∧ t.on (FW_CRASH_CAUSE.FB c) = s.fb ∧ t.get64 (FW_CRASH_MCAUSE_LO.V c) (FW_CRASH_MCAUSE_HI.V c) = r.mcause.toNat ∧ t.get64 (FW_CRASH_MEPC_LO.V c) (FW_CRASH_MEPC_HI.V c) = r.mepc.toNat ∧ t.get64 (FW_CRASH_MTVAL_LO.V c) (FW_CRASH_MTVAL_HI.V c) = r.mtval.toNat ∧ t.get64 (FW_CRASH_TS_LO.V c) (FW_CRASH_TS_HI.V c) = s.topNow ∧ t.on (FW_WDT_CFG.EN c) = true ∧ t.get (FW_WDT_CFG.PERIOD c) = 6 ∧ bitOf (t.get PWRST_CORE_RST.RESTART) c = true ∧ bitsOf (t.get PWRST_CORE_CNT.CNT) (8 * c) 8 = satCount 8 (bitsOf (s.get PWRST_CORE_CNT.CNT) (8 * c) 8) 1 ∧ bitOf t.fw.irq (16 + c) = true ∧ bitOf t.fw.kirq 20 = true ∧ t.fw.a1 = modAt s.fw.a1 c (fun _ => 4) ∧ t.fw.crashes = ((c, s.now) :: s.fw.crashes).take 16 ∧ (∀ w < 8, t.portWord c w = 0) ∧ t.brg.bulkQ.take (s.brg.bulkQ.length + 1) = (s.logTop EVT_CORE_CRASH ACC_TRAY UNIT_CFW c [(0, 1, 4), (8, 8, r.mcause.toNat), (16, 8, r.mepc.toNat), (24, 8, r.mtval.toNat)]).brg.bulkQ ∧ t.brg.bulkQ.length = s.brg.bulkQ.length + (if s.get BRG_STS.STATE = 3 then 0 else 2) ∧ t.get FW_LOG_SEQ.SEQ = (s.get FW_LOG_SEQ.SEQ + 1) % 2 ^ 32 ∧ ((∀ k < 4, k ≠ c → s.coreRuns k = false) → ∀ a, ¬((topSramBase + 32 * s.get FW_LOG_BASE.BASE + 32 * ((s.get FW_LOG_SEQ.SEQ + 1) % 2 ^ 32 % logSlots (s.get FW_LOG_SIZE.SIZE))) ≤ a ∧ a < (topSramBase + 32 * s.get FW_LOG_BASE.BASE + 32 * ((s.get FW_LOG_SEQ.SEQ + 1) % 2 ^ 32 % logSlots (s.get FW_LOG_SIZE.SIZE))) + 32) → memRead t.mem a = memRead s.mem a) ∧ t.sil = { s.sil with ports := s.sil.ports.filter (fun e => e.1 / 12 ≠ c) } ∧ t.fw.plic.claims = s.fw.plic.claims.filter (fun e => e.2 ≠ c) ∧ t.bus = .written ∧ RegsOnly [FW_CRASH_CAUSE.CAUSE c, FW_CRASH_CAUSE.CNT c, FW_CRASH_CAUSE.FB c, FW_CRASH_MCAUSE_LO.V c, FW_CRASH_MCAUSE_HI.V c, FW_CRASH_MEPC_LO.V c, FW_CRASH_MEPC_HI.V c, FW_CRASH_MTVAL_LO.V c, FW_CRASH_MTVAL_HI.V c, FW_CRASH_TS_LO.V c, FW_CRASH_TS_HI.V c, FW_WDT_CFG.EN c, FW_WDT_CFG.PERIOD c, PWRST_CORE_RST.RESTART, PWRST_CORE_CNT.CNT, FW_CORE_STS.STATE, FW_LOG_SEQ.SEQ] s t ∧ Frame [.regs, .sil, .brg, .fw, .bus, .mem, .fresh] s t) ∧
  (∀ (s : State) (ini : Initiator) (mask : Fin 16) (r0 r1 r2 r3 : Csrs), s.judge ini true PWRST_CORE_RST.RESTART.addr = .allowed → (s.bridgeUp = false ∨ (∀ c ∈ bitList 4 mask.val, s.coreSt c = coreReset ∨ s.coreSt c = coreRestarting)) →
    ∃ t, exec (.coreRestartRequest ini mask r0 r1 r2 r3) s = .next t ∧ t.bus = .written ∧ Frame [.bus] s t) ∧
  (∀ (s : State) (c : Fin 4), s.coreSt c.val = coreRestarting → s.ses.rxq = [] →
    ∃ t, exec (.coreResetRelease c) s = .next t ∧ t.coreSt c.val = coreRun ∧ (∀ d < 4, d ≠ c.val → t.coreSt d = s.coreSt d) ∧ bitOf (t.get PWRST_CORE_RST.RESTART) c.val = false ∧ t.fw.kick = modAt s.fw.kick c.val (fun _ => s.topNow) ∧ t.fw.a1 = s.fw.a1 ∧ t.ses.sent = [] ∧ RegsOnly ([FW_CORE_STS.STATE, PWRST_CORE_RST.RESTART] ++ (List.range 8).map (fun z => COOL_ZONE_FLOOR.FLOOR z) ++ (List.range 6).map (fun p => COOL_PMP_FLOOR.FLOOR p)) s t ∧ Frame [.regs, .sil, .fw, .ses] s t) ∧
  (∀ (s : State) (c : Fin 4), s.coreSt c.val ≠ coreRestarting → s.ses.rxq = [] →
    ∃ t, exec (.coreResetRelease c) s = .next t ∧ t.ses.sent = [] ∧ Frame [.ses] s t) ∧
  (∀ (s : State) (core : DbgCore) (c : Fin 4), core = .control c → s.dbgReaches (.control c) = true → s.coreRuns c.val = true →
    ∃ t, exec (.debugHalt core) s = .next t ∧ t.coreSt c.val = coreHalted ∧ (∀ d < 4, d ≠ c.val → t.coreSt d = s.coreSt d) ∧ RegsOnly [FW_CORE_STS.STATE] s t ∧ Frame [.regs] s t) ∧
  (∀ (s : State) (core : DbgCore) (k : Fin 2), core = .keeper k → s.dbgReaches (.keeper k) = true → s.pwr.keepersRun = true →
    ∃ t, exec (.debugHalt core) s = .next t ∧ k.val ∈ t.fw.kprHalt ∧ (∀ j ∈ s.fw.kprHalt, j ∈ t.fw.kprHalt) ∧ Frame [.fw] s t) ∧
  (∀ (s : State) (core : DbgCore), s.dbgReaches core = false → exec (.debugHalt core) s = .next s) ∧
  (∀ (s : State) (core : DbgCore) (c : Fin 4), core = .control c → s.dbgReaches (.control c) = true → s.coreSt c.val = coreHalted → s.ses.rxq = [] →
    ∃ t, exec (.debugResume core) s = .next t ∧ t.coreSt c.val = coreRun ∧ (∀ d < 4, d ≠ c.val → t.coreSt d = s.coreSt d) ∧ t.ses.sent = [] ∧ RegsOnly ([FW_CORE_STS.STATE] ++ (List.range 8).map (fun z => COOL_ZONE_FLOOR.FLOOR z) ++ (List.range 6).map (fun p => COOL_PMP_FLOOR.FLOOR p)) s t ∧ Frame [.regs, .sil, .ses] s t) ∧
  (∀ (s : State) (core : DbgCore) (k : Fin 2), core = .keeper k → s.dbgReaches (.keeper k) = true →
    ∃ t, exec (.debugResume core) s = .next t ∧ k.val ∉ t.fw.kprHalt ∧ (∀ j, j ≠ k.val → (j ∈ t.fw.kprHalt ↔ j ∈ s.fw.kprHalt)) ∧ t.ses.sent = [] ∧ Frame [.fw, .ses] s t) ∧
  (∀ (s : State) (core : DbgCore), s.dbgReaches core = false →
    ∃ t, exec (.debugResume core) s = .next t ∧ t.ses.sent = [] ∧ Frame [.ses] s t) ∧
  (∀ (s : State) (k : Fin 2), s.pwr.keepersRun = true →
    ∃ t, exec (.keeperTrapHalt k) s = .next t ∧ k.val ∈ t.fw.kprHalt ∧ (∀ j ∈ s.fw.kprHalt, j ∈ t.fw.kprHalt) ∧ Frame [.fw] s t) ∧
  (∀ (s : State) (k : Fin 2), s.pwr.keepersRun = false → exec (.keeperTrapHalt k) s = .next s)

/-- A write of core d to the kick register of core c counts only with 0x5A and d = c. FW_TOPWDT_KICK with 0x5A arms the Top watchdog and starts its count, with another key nothing; its expiry while armed sets SEEN, counts, disarms and raises Keeper source 16, and with the Top die powered and no bring-up, transition, reset or warm reset in progress starts a Top reset with cause TOP_WDT alone and counts it in TOP_CNT; unarmed nothing. KPR_WDT_KICK with 0x5A from a Keeper marks it, and when every masked Keeper is marked the marks go and the count restarts; another key does nothing. The armed Keeper watchdog expires into a warm reset with cause KPR_WDT (outside BOR, boot and warm reset), which waits for a commit in progress; unarmed nothing. K1_RUN written 1 reads 1. FW_TEXT LOCK is set by a Keeper's write and not by a core's. The eighth word at a core's own log port, of a trace point that is on, takes the next SEQ, stores the stamped entry in its ring slot (with a ring, not text-locked) and changes no other byte, joins BULK where its MIRROR flag is set outside QUIESCE, and empties the port; of one that is off it only empties the port; at another core's port it does nothing. The eighth word at the Keeper port takes the next MSEQ and stores the stamped entry in mirror slot MSEQ mod 8,192 and nothing else; of a trace point that is off it only empties the port. What a port counts is log entry 43, the arming of the Keeper watchdog log entry 19. -/
def Obligations.WatchdogsAndLogPorts : Prop :=
  (∀ (s : State) (d c : Fin 4) (key : Fin 256), s.judge (.core d) true (FW_WDT_KICK.KEY c.val).addr = .allowed →
    ∃ t, exec (.fwWdtKick (.core d) c key) s = .next t ∧ t.fw = (if d = c ∧ key.val = 0x5A then { s.fw with kick := modAt s.fw.kick c.val (fun _ => s.topNow) } else s.fw) ∧ t.bus = .written ∧ Frame [.fw, .bus] s t) ∧
  (∀ (s : State) (ini : Initiator) (key : Fin 256), s.judge ini true FW_TOPWDT_KICK.KEY.addr = .allowed → key.val = 0x5A →
    ∃ t, exec (.fwTopwdtKick ini key) s = .next t ∧ t.on FW_TOPWDT_STS.ARMED = true ∧ t.fw.topKick = s.topNow ∧ t.bus = .written ∧ RegsOnly [FW_TOPWDT_STS.ARMED] s t ∧ Frame [.regs, .fw, .bus] s t) ∧
  (∀ (s : State) (ini : Initiator) (key : Fin 256), s.judge ini true FW_TOPWDT_KICK.KEY.addr = .allowed → key.val ≠ 0x5A →
    ∃ t, exec (.fwTopwdtKick ini key) s = .next t ∧ t.bus = .written ∧ Frame [.bus] s t) ∧
  (∀ (s : State), s.on FW_TOPWDT_STS.ARMED = true → s.pwr.warmOn = false → s.pwr.rom = .none → s.pwr.toppwrEn = true → s.pwr.bring = 0 → s.pwr.trans = none → s.pwr.topReset = false →
    ∃ t, exec (.topWdtExpiry) s = .next t ∧ t.on KPR_TOPWDT.SEEN = true ∧ t.get KPR_TOPWDT.CNT = satCount 8 (s.get KPR_TOPWDT.CNT) 1 ∧ t.on FW_TOPWDT_STS.ARMED = false ∧ bitOf t.fw.kirq 16 = true ∧ t.get PWRST_TOP_CAUSE.TOP_WDT = 1 ∧ t.get PWRST_TOP_CAUSE.KEEPER = 0 ∧ t.get PWRST_TOP_CAUSE.HOST_CMD = 0 ∧ t.get PWRST_TOP_CAUSE.FENCE = 0 ∧ t.pwr.topReset = true ∧ t.get PWRST_RST_CNT.TOP_CNT = satCount 8 (s.get PWRST_RST_CNT.TOP_CNT) 1 ∧ Frame [.regs, .time, .clk, .sil, .pwr, .brg, .tw, .seq, .tamp, .tel, .inf, .acd, .fw, .ses, .sec, .bus, .mem] s t) ∧
  (∀ (s : State), s.on FW_TOPWDT_STS.ARMED = true → s.pwr.toppwrEn = false →
    ∃ t, exec (.topWdtExpiry) s = .next t ∧ t.on KPR_TOPWDT.SEEN = true ∧ t.get KPR_TOPWDT.CNT = satCount 8 (s.get KPR_TOPWDT.CNT) 1 ∧ t.on FW_TOPWDT_STS.ARMED = false ∧ bitOf t.fw.kirq 16 = true ∧ RegsOnly [KPR_TOPWDT.SEEN, KPR_TOPWDT.CNT, FW_TOPWDT_STS.ARMED] s t ∧ Frame [.regs, .fw] s t) ∧
  (∀ (s : State), s.on FW_TOPWDT_STS.ARMED = false → exec (.topWdtExpiry) s = .next s) ∧
  (∀ (s : State) (k : Fin 2) (key : Fin 256) (m : Nat), s.judge (.keeper k) true KPR_WDT_KICK.KEY.addr = .allowed → key.val = 0x5A → m = setBitOf (s.get KPR_WDT_STS.KICKED) k.val true →
    ∃ t, exec (.kprWdtKick (.keeper k) key) s = .next t ∧ t.get KPR_WDT_STS.KICKED = (if m &&& s.kprMask = s.kprMask then 0 else m) ∧ t.pwr = (if m &&& s.kprMask = s.kprMask then { s.pwr with kprTs := s.now } else s.pwr) ∧ t.bus = .written ∧ RegsOnly [KPR_WDT_STS.KICKED] s t ∧ Frame [.regs, .pwr, .bus] s t) ∧
  (∀ (s : State) (ini : Initiator) (key : Fin 256), s.judge ini true KPR_WDT_KICK.KEY.addr = .allowed → key.val ≠ 0x5A →
    ∃ t, exec (.kprWdtKick ini key) s = .next t ∧ t.bus = .written ∧ Frame [.bus] s t) ∧
  (∀ (s : State), s.pwr.kprArmed = true → s.pwr.testMode = false → s.pwr.borOn = false → s.pwr.rom = .none → s.pwr.warmOn = false → s.nvm.busy = none →
    ∃ t, exec (.keeperWdtExpiry) s = .next t ∧ t.pwr.warmOn = true ∧ (t.locked = true → t.drive .fxPwm = .full ∧ t.drive .fxEn = .held ∧ t.drive .fxRsto = .held ∧ t.drive .fxVlv = .held) ∧ t.drive .brk = .held ∧ t.drive .twoWire = .released ∧ t.drive .toppwrEn = .held ∧ t.drive .spi = .active ∧ t.get PWRST_RST_CNT.WARM_CNT = satCount 8 (s.get PWRST_RST_CNT.WARM_CNT) 1 ∧ t.brgState = brgOff ∧ t.pwr.keepersRun = false ∧ t.on KEY_PRES.OPEN = false ∧ t.on KEY_STS.DBG_OPEN = false ∧ t.ses = {} ∧ t.nvm.kept = s.nvm.kept ∧ t.get PWRST_RST_CAUSE.KPR_WDT = 1 ∧ t.get PWRST_RST_CAUSE.WARM_PIN = 0 ∧ t.get PWRST_RST_CAUSE.WARM_CMD = 0 ∧ t.get PWRST_RST_CAUSE.COLD = 0 ∧ Frame [.regs, .time, .clk, .sil, .nvm, .pwr, .brg, .tw, .seq, .tamp, .cool, .tel, .inf, .acd, .key, .fw, .ses, .sec, .bus, .mem] s t) ∧
  (∀ (s : State), s.pwr.kprArmed = true → s.pwr.borOn = false → s.pwr.rom = .none → s.pwr.warmOn = false → s.nvm.busy ≠ none →
    ∃ t, exec (.keeperWdtExpiry) s = .next t ∧ t.pwr.warmWait = s.pwr.warmWait ||| 16 ∧ t.pwr.warmOn = false ∧ Frame [.pwr] s t) ∧
  (∀ (s : State), s.pwr.kprArmed = false → exec (.keeperWdtExpiry) s = .next s) ∧
  (∀ (s : State) (ini : Initiator), s.judge ini true KPR_CTL.K1_RUN.addr = .allowed →
    ∃ t, exec (.k1Run ini) s = .next t ∧ t.on KPR_CTL.K1_RUN = true ∧ t.bus = .written ∧ RegsOnly [KPR_CTL.K1_RUN] s t ∧ Frame [.regs, .bus] s t) ∧
  (∀ (s : State) (k : Fin 2), s.judge (.keeper k) true FW_TEXT_BASE.LOCK.addr = .allowed →
    ∃ t, exec (.textLock (.keeper k)) s = .next t ∧ t.on FW_TEXT_BASE.LOCK = true ∧ t.bus = .written ∧ RegsOnly [FW_TEXT_BASE.LOCK] s t ∧ Frame [.regs, .bus] s t) ∧
  (∀ (s : State) (c : Fin 4), s.judge (.core c) true FW_TEXT_BASE.LOCK.addr = .allowed →
    ∃ t, exec (.textLock (.core c)) s = .next t ∧ t.bus = .written ∧ Frame [.bus] s t) ∧
  (∀ (s : State) (c : Fin 4) (word : Word), s.judge (.core c) true (FW_LOG_PORT.DATA c.val 7).addr = .allowed → s.traceOff (s.portWord c.val 3) = false →
    ∃ t, exec (.logEntryCommit (.core c) c word) s = .next t ∧ t.get FW_LOG_SEQ.SEQ = (s.get FW_LOG_SEQ.SEQ + 1) % 2 ^ 32 ∧ (s.get FW_LOG_SIZE.SIZE ≠ 0 ∧ s.textLocked (topSramBase + 32 * s.get FW_LOG_BASE.BASE + 32 * ((s.get FW_LOG_SEQ.SEQ + 1) % 2 ^ 32 % logSlots (s.get FW_LOG_SIZE.SIZE))) = false → memBytes t.mem (topSramBase + 32 * s.get FW_LOG_BASE.BASE + 32 * ((s.get FW_LOG_SEQ.SEQ + 1) % 2 ^ 32 % logSlots (s.get FW_LOG_SIZE.SIZE))) 32 = (entryBytes (stamped s.topNow ((s.get FW_LOG_SEQ.SEQ + 1) % 2 ^ 32) (s.portRest c.val word.toNat)))) ∧ (∀ a, ¬((topSramBase + 32 * s.get FW_LOG_BASE.BASE + 32 * ((s.get FW_LOG_SEQ.SEQ + 1) % 2 ^ 32 % logSlots (s.get FW_LOG_SIZE.SIZE))) ≤ a ∧ a < (topSramBase + 32 * s.get FW_LOG_BASE.BASE + 32 * ((s.get FW_LOG_SEQ.SEQ + 1) % 2 ^ 32 % logSlots (s.get FW_LOG_SIZE.SIZE))) + 32) → memRead t.mem a = memRead s.mem a) ∧ t.brg.bulkQ = s.brg.bulkQ ++ (if mirrorBit (s.portWord c.val 3) ∧ s.get BRG_STS.STATE ≠ 3 then [.mirror (stamped s.topNow ((s.get FW_LOG_SEQ.SEQ + 1) % 2 ^ 32) (s.portRest c.val word.toNat))] else []) ∧ (∀ w < 8, t.portWord c.val w = 0) ∧ t.bus = .written ∧ RegsOnly [FW_LOG_SEQ.SEQ] s t ∧ Frame [.regs, .brg, .fw, .bus, .mem] s t) ∧
  (∀ (s : State) (c : Fin 4) (word : Word), s.judge (.core c) true (FW_LOG_PORT.DATA c.val 7).addr = .allowed → s.traceOff (s.portWord c.val 3) = true →
    ∃ t, exec (.logEntryCommit (.core c) c word) s = .next t ∧ (∀ w < 8, t.portWord c.val w = 0) ∧ (∀ p < 5, ∀ w < 8, p ≠ c.val → t.portWord p w = s.portWord p w) ∧ t.bus = .written ∧ Frame [.fw, .bus] s t) ∧
  (∀ (s : State) (d c : Fin 4) (word : Word), s.judge (.core d) true (FW_LOG_PORT.DATA c.val 7).addr = .allowed → d ≠ c →
    ∃ t, exec (.logEntryCommit (.core d) c word) s = .next t ∧ t.bus = .written ∧ Frame [.bus] s t) ∧
  (∀ (s : State) (ini : Initiator) (word : Word), s.judge ini true (KPR_LOG_PORT.DATA 7).addr = .allowed → s.traceOff (s.portWord 4 3) = false →
    ∃ t, exec (.keeperLogEntry ini word) s = .next t ∧ t.get BRG_LOG_MSEQ.MSEQ = ((s.get BRG_LOG_MSEQ.MSEQ + 1) % 2 ^ 32) ∧ t.fw.kseq = (s.fw.kseq + 1) % 2 ^ 32 ∧ memBytes t.mem (mirrorBase + 32 * (((s.get BRG_LOG_MSEQ.MSEQ + 1) % 2 ^ 32) % mirrorSlots)) 32 = entryBytes (stamped s.now ((s.fw.kseq + 1) % 2 ^ 32) (s.portRest 4 word.toNat)) ∧ (∀ a, ¬((mirrorBase + 32 * (((s.get BRG_LOG_MSEQ.MSEQ + 1) % 2 ^ 32) % mirrorSlots)) ≤ a ∧ a < (mirrorBase + 32 * (((s.get BRG_LOG_MSEQ.MSEQ + 1) % 2 ^ 32) % mirrorSlots)) + 32) → memRead t.mem a = memRead s.mem a) ∧ (∀ w < 8, t.portWord 4 w = 0) ∧ t.bus = .written ∧ RegsOnly [BRG_LOG_MSEQ.MSEQ] s t ∧ Frame [.regs, .fw, .bus, .mem] s t) ∧
  (∀ (s : State) (ini : Initiator) (word : Word), s.judge ini true (KPR_LOG_PORT.DATA 7).addr = .allowed → s.traceOff (s.portWord 4 3) = true →
    ∃ t, exec (.keeperLogEntry ini word) s = .next t ∧ (∀ w < 8, t.portWord 4 w = 0) ∧ t.fw.kseq = s.fw.kseq ∧ t.bus = .written ∧ Frame [.fw, .bus] s t)

/-- An allowed write of a port's word 11 submits the event that its words spell, with the timestamp and FB, and empties the port. Outside A3: in SERVICE and no freeze, an event that is not persistent, of no open window and not of a parent code of a group, with a token or no rate limit, joins the admission queue as one record with COUNT 1 and its suppressed occurrences, which are 0 again, and takes a token; without a token it only counts as suppressed; where the queue holds 256 it counts as OVERFLOW and QFULL is set. A parent code of a group without a window writes its record without a token and opens the window. An event that is not persistent, of a group whose window is open, is absorbed: it counts, and its unit and accelerator join the window's map. A persistent one joins both queues with the open window's number as PARENT; where 64 wait for NVM it is counted lost from NVM and still joins the admission queue. In a flood mode without a freeze every event joins with FLOOD, a persistent one both queues, buckets and windows untouched; once the flood has filled the ring it counts as OVERFLOW and for the mode's lost count, a persistent one still joining the NVM queue. In a freeze an event that is not persistent, of no window or in a flood, counts as OVERFLOW and for EVT_SIL_OVF; a persistent one joins both queues, or only NVM's where a flood has filled the ring, and then counts too (judged when it is admitted: log entry 44). In A3 the event joins the AO buffer with FB 1, and a seventeenth counts as lost. Nothing else changes. -/
def Obligations.SillageAdmitsEvents : Prop :=
  (∀ (s : State) (ini : Initiator) (port : Fin 6) (word : Word) (ev : Event) (e : CodeEnt), s.judge ini true (SIL_PORT_W.DATA port.val 11).addr = .allowed → s.get PWRST_STATE.CUR ≠ 3 → ev = s.portEvent port.val word.toNat → e = s.sil.entry ev.code → s.sil.mode (s.on SEQ_CTL.TEST) = 0 → s.sil.frozen = false → (e.persist || ev.persist) = false → s.sil.win e.group = none → (e.parent && (s.sil.group e.group).isSome) = false → (e.rate = 0 ∨ e.tokens ≠ 0) → s.sil.queue.length < 256 →
    ∃ t, exec (.silPortSubmit ini port word) s = .next t ∧ t.sil.queue = s.sil.queue ++ [({ num := s.sil.next, code := ev.code, src := srcOf ev.acc ev.unit ev.inst, flags := b2n s.fb, count := min 0xFFFF (1 + e.supp), ts := s.now, parent := 0xFFFFFFFF, payload := ev.payload } : Rec)] ∧ t.sil.entry ev.code = { e with supp := 0, tokens := if e.rate ≠ 0 then e.tokens - 1 else e.tokens } ∧ ev.code = s.sil.portGet port.val 0 % 2 ^ 16 ∧ ev.persist = bitOf (s.sil.portGet port.val 1) 0 ∧ (s.sil.portGet port.val 0 < 2 ^ 32 → srcOf ev.acc ev.unit ev.inst = s.sil.portGet port.val 0 / 2 ^ 16) ∧ t.sil.nvmQueue = s.sil.nvmQueue ∧ (∀ w < 12, t.sil.portGet port.val w = 0) ∧ t.bus = .written ∧ Frame [.sil, .bus] s t) ∧
  (∀ (s : State) (ini : Initiator) (port : Fin 6) (word : Word) (ev : Event) (e : CodeEnt), s.judge ini true (SIL_PORT_W.DATA port.val 11).addr = .allowed → s.get PWRST_STATE.CUR ≠ 3 → ev = s.portEvent port.val word.toNat → e = s.sil.entry ev.code → s.sil.mode (s.on SEQ_CTL.TEST) = 0 → s.sil.frozen = false → (e.persist || ev.persist) = false → s.sil.win e.group = none → (e.parent && (s.sil.group e.group).isSome) = false → e.rate ≠ 0 → e.tokens = 0 →
    ∃ t, exec (.silPortSubmit ini port word) s = .next t ∧ t.sil.queue = s.sil.queue ∧ (t.sil.entry ev.code).supp = satCount 16 e.supp 1 ∧ (t.sil.entry ev.code).tokens = 0 ∧ t.sil.ring = s.sil.ring ∧ t.sil.nvmQueue = s.sil.nvmQueue ∧ (∀ w < 12, t.sil.portGet port.val w = 0) ∧ t.bus = .written ∧ Frame [.sil, .bus] s t) ∧
  (∀ (s : State) (ini : Initiator) (port : Fin 6) (word : Word) (ev : Event) (e : CodeEnt), s.judge ini true (SIL_PORT_W.DATA port.val 11).addr = .allowed → s.get PWRST_STATE.CUR ≠ 3 → ev = s.portEvent port.val word.toNat → e = s.sil.entry ev.code → s.sil.mode (s.on SEQ_CTL.TEST) = 0 → s.sil.frozen = false → (e.persist || ev.persist) = false → s.sil.win e.group = none → e.parent = true → (s.sil.group e.group).isSome = true → s.sil.queue.length < 256 →
    ∃ t, exec (.silPortSubmit ini port word) s = .next t ∧ t.sil.queue = s.sil.queue ++ [({ num := s.sil.next, code := ev.code, src := srcOf ev.acc ev.unit ev.inst, flags := b2n s.fb, count := min 0xFFFF (1 + e.supp), ts := s.now, parent := 0xFFFFFFFF, payload := ev.payload } : Rec)] ∧ (t.sil.entry ev.code).supp = 0 ∧ (t.sil.entry ev.code).tokens = e.tokens ∧ t.sil.win e.group = some { parent := s.sil.next, code := ev.code, src := srcOf ev.acc ev.unit ev.inst, openTs := s.now, lastTs := s.now, count := 0, map := 0 } ∧ (∀ w < 12, t.sil.portGet port.val w = 0) ∧ t.bus = .written ∧ Frame [.sil, .bus] s t) ∧
  (∀ (s : State) (ini : Initiator) (port : Fin 6) (word : Word) (ev : Event) (e : CodeEnt) (w : Window), s.judge ini true (SIL_PORT_W.DATA port.val 11).addr = .allowed → s.get PWRST_STATE.CUR ≠ 3 → ev = s.portEvent port.val word.toNat → e = s.sil.entry ev.code → s.sil.mode (s.on SEQ_CTL.TEST) = 0 → (e.persist || ev.persist) = false → s.sil.win e.group = some w →
    ∃ t, exec (.silPortSubmit ini port word) s = .next t ∧ t.sil.queue = s.sil.queue ∧ t.sil.win e.group = some { w with count := satCount 16 w.count 1, lastTs := s.now, map := setBitOf w.map (ev.unit % 32 * 9 + ev.acc % 16) true } ∧ t.sil.codes = s.sil.codes ∧ t.sil.frozenTotal = s.sil.frozenTotal ∧ (∀ w < 12, t.sil.portGet port.val w = 0) ∧ t.bus = .written ∧ Frame [.sil, .bus] s t) ∧
  (∀ (s : State) (ini : Initiator) (port : Fin 6) (word : Word) (ev : Event) (e : CodeEnt), s.judge ini true (SIL_PORT_W.DATA port.val 11).addr = .allowed → s.get PWRST_STATE.CUR ≠ 3 → ev = s.portEvent port.val word.toNat → e = s.sil.entry ev.code → s.sil.mode (s.on SEQ_CTL.TEST) = 0 → s.sil.frozen = false → (e.persist || ev.persist) = true → s.sil.queue.length < 256 → s.sil.nvmQueue.length < 64 →
    ∃ t, exec (.silPortSubmit ini port word) s = .next t ∧ t.sil.queue = s.sil.queue ++ [({ num := s.sil.next, code := ev.code, src := srcOf ev.acc ev.unit ev.inst, flags := b2n s.fb + 2, count := 1, ts := s.now, parent := (match s.sil.win e.group with | some w => w.parent | none => 0xFFFFFFFF), payload := ev.payload } : Rec)] ∧ t.sil.nvmQueue.length = s.sil.nvmQueue.length + 1 ∧ t.sil.codes = s.sil.codes ∧ t.sil.groups = s.sil.groups ∧ (∀ w < 12, t.sil.portGet port.val w = 0) ∧ t.bus = .written ∧ Frame [.sil, .bus] s t) ∧
  (∀ (s : State) (ini : Initiator) (port : Fin 6) (word : Word) (ev : Event) (e : CodeEnt), s.judge ini true (SIL_PORT_W.DATA port.val 11).addr = .allowed → s.get PWRST_STATE.CUR ≠ 3 → ev = s.portEvent port.val word.toNat → e = s.sil.entry ev.code → s.sil.mode (s.on SEQ_CTL.TEST) ≠ 0 → s.sil.frozen = false → s.sil.ringFull = false → s.sil.queue.length < 256 → s.sil.nvmQueue.length < 64 →
    ∃ t, exec (.silPortSubmit ini port word) s = .next t ∧ t.sil.queue = s.sil.queue ++ [({ num := s.sil.next, code := ev.code, src := srcOf ev.acc ev.unit ev.inst, flags := b2n s.fb + 2 * b2n (e.persist || ev.persist) + 16, count := 1, ts := s.now, parent := 0xFFFFFFFF, payload := ev.payload } : Rec)] ∧ t.sil.nvmQueue.length = s.sil.nvmQueue.length + b2n (e.persist || ev.persist) ∧ t.sil.codes = s.sil.codes ∧ t.sil.groups = s.sil.groups ∧ (∀ w < 12, t.sil.portGet port.val w = 0) ∧ t.bus = .written ∧ Frame [.sil, .bus] s t) ∧
  (∀ (s : State) (ini : Initiator) (port : Fin 6) (word : Word) (ev : Event) (e : CodeEnt), s.judge ini true (SIL_PORT_W.DATA port.val 11).addr = .allowed → s.get PWRST_STATE.CUR ≠ 3 → ev = s.portEvent port.val word.toNat → e = s.sil.entry ev.code → s.sil.mode (s.on SEQ_CTL.TEST) ≠ 0 → s.sil.frozen = false → s.sil.ringFull = true → s.sil.nvmQueue.length < 64 →
    ∃ t, exec (.silPortSubmit ini port word) s = .next t ∧ t.sil.queue = s.sil.queue ∧ t.sil.full = true ∧ t.sil.modeLost = s.sil.modeLost + 1 ∧ (if s.sil.listed ev.code then (t.sil.entry ev.code).ovf = satCount 16 e.ovf 1 else t.sil.unlistedOvf = satCount 16 s.sil.unlistedOvf 1) ∧ t.sil.nvmQueue.length = s.sil.nvmQueue.length + b2n (e.persist || ev.persist) ∧ (∀ w < 12, t.sil.portGet port.val w = 0) ∧ t.bus = .written ∧ Frame [.sil, .bus] s t) ∧
  (∀ (s : State) (ini : Initiator) (port : Fin 6) (word : Word) (ev : Event) (e : CodeEnt), s.judge ini true (SIL_PORT_W.DATA port.val 11).addr = .allowed → s.get PWRST_STATE.CUR ≠ 3 → ev = s.portEvent port.val word.toNat → e = s.sil.entry ev.code → s.sil.frozen = true → (e.persist || ev.persist) = false → (s.sil.win e.group = none ∨ s.sil.mode (s.on SEQ_CTL.TEST) ≠ 0) →
    ∃ t, exec (.silPortSubmit ini port word) s = .next t ∧ t.sil.queue = s.sil.queue ∧ t.sil.frozenTotal = s.sil.frozenTotal + 1 ∧ (if s.sil.listed ev.code then (t.sil.entry ev.code).ovf = satCount 16 e.ovf 1 else t.sil.unlistedOvf = satCount 16 s.sil.unlistedOvf 1) ∧ t.sil.nvmQueue = s.sil.nvmQueue ∧ (∀ w < 12, t.sil.portGet port.val w = 0) ∧ t.bus = .written ∧ Frame [.sil, .bus] s t) ∧
  (∀ (s : State) (ini : Initiator) (port : Fin 6) (word : Word) (ev : Event) (e : CodeEnt), s.judge ini true (SIL_PORT_W.DATA port.val 11).addr = .allowed → s.get PWRST_STATE.CUR ≠ 3 → ev = s.portEvent port.val word.toNat → e = s.sil.entry ev.code → s.sil.frozen = true → (e.persist || ev.persist) = true → (s.sil.mode (s.on SEQ_CTL.TEST) = 0 ∨ s.sil.ringFull = false) → s.sil.queue.length < 256 → s.sil.nvmQueue.length < 64 →
    ∃ t, exec (.silPortSubmit ini port word) s = .next t ∧ t.sil.queue.length = s.sil.queue.length + 1 ∧ t.sil.queue.take s.sil.queue.length = s.sil.queue ∧ (t.sil.queue.getLast?.map (fun r => (r.code, r.num, r.ts))) = some (ev.code, s.sil.next, s.now) ∧ t.sil.nvmQueue.length = s.sil.nvmQueue.length + 1 ∧ t.sil.ring = s.sil.ring ∧ t.sil.frozenTotal = s.sil.frozenTotal ∧ (∀ w < 12, t.sil.portGet port.val w = 0) ∧ t.bus = .written ∧ Frame [.sil, .bus] s t) ∧
  (∀ (s : State) (ini : Initiator) (port : Fin 6) (word : Word) (ev : Event) (e : CodeEnt), s.judge ini true (SIL_PORT_W.DATA port.val 11).addr = .allowed → s.get PWRST_STATE.CUR ≠ 3 → ev = s.portEvent port.val word.toNat → e = s.sil.entry ev.code → s.sil.frozen = true → (e.persist || ev.persist) = true → s.sil.mode (s.on SEQ_CTL.TEST) ≠ 0 → s.sil.ringFull = true → s.sil.nvmQueue.length < 64 →
    ∃ t, exec (.silPortSubmit ini port word) s = .next t ∧ t.sil.queue = s.sil.queue ∧ t.sil.full = true ∧ t.sil.modeLost = s.sil.modeLost + 1 ∧ (if s.sil.listed ev.code then (t.sil.entry ev.code).ovf = satCount 16 e.ovf 1 else t.sil.unlistedOvf = satCount 16 s.sil.unlistedOvf 1) ∧ t.sil.nvmQueue.length = s.sil.nvmQueue.length + 1 ∧ t.sil.frozenTotal = s.sil.frozenTotal + 1 ∧ (∀ w < 12, t.sil.portGet port.val w = 0) ∧ t.bus = .written ∧ Frame [.sil, .bus] s t) ∧
  (∀ (s : State) (ini : Initiator) (port : Fin 6) (word : Word) (ev : Event) (e : CodeEnt), s.judge ini true (SIL_PORT_W.DATA port.val 11).addr = .allowed → s.get PWRST_STATE.CUR ≠ 3 → ev = s.portEvent port.val word.toNat → e = s.sil.entry ev.code → s.sil.mode (s.on SEQ_CTL.TEST) = 0 → s.sil.frozen = false → (e.persist || ev.persist) = false → s.sil.win e.group = none → (e.parent && (s.sil.group e.group).isSome) = false → (e.rate = 0 ∨ e.tokens ≠ 0) → 256 ≤ s.sil.queue.length →
    ∃ t, exec (.silPortSubmit ini port word) s = .next t ∧ t.sil.queue = s.sil.queue ∧ t.sil.qfull = true ∧ (if s.sil.listed ev.code then (t.sil.entry ev.code).ovf = satCount 16 e.ovf 1 else t.sil.unlistedOvf = satCount 16 s.sil.unlistedOvf 1) ∧ (∀ w < 12, t.sil.portGet port.val w = 0) ∧ t.bus = .written ∧ Frame [.sil, .bus] s t) ∧
  (∀ (s : State) (ini : Initiator) (port : Fin 6) (word : Word) (ev : Event) (e : CodeEnt), s.judge ini true (SIL_PORT_W.DATA port.val 11).addr = .allowed → s.get PWRST_STATE.CUR = 3 → ev = s.portEvent port.val word.toNat → e = s.sil.entry ev.code →
    ∃ t, exec (.silPortSubmit ini port word) s = .next t ∧ t.sil.ao = (if s.sil.ao.length < 16 then s.sil.ao ++ [{ ev with fb := true }] else s.sil.ao) ∧ t.sil.aoLost = (if s.sil.ao.length < 16 then s.sil.aoLost else satCount 8 s.sil.aoLost 1) ∧ t.sil.queue = s.sil.queue ∧ (∀ w < 12, t.sil.portGet port.val w = 0) ∧ t.bus = .written ∧ Frame [.sil, .bus] s t) ∧
  (∀ (s : State) (ini : Initiator) (port : Fin 6) (word : Word) (ev : Event) (e : CodeEnt), s.judge ini true (SIL_PORT_W.DATA port.val 11).addr = .allowed → s.get PWRST_STATE.CUR ≠ 3 → ev = s.portEvent port.val word.toNat → e = s.sil.entry ev.code → s.sil.mode (s.on SEQ_CTL.TEST) = 0 → s.sil.frozen = false → (e.persist || ev.persist) = true → 64 ≤ s.sil.nvmQueue.length → s.sil.queue.length < 256 →
    ∃ t, exec (.silPortSubmit ini port word) s = .next t ∧ t.sil.nvmQueue = s.sil.nvmQueue ∧ t.sil.nvmLost = satCount 16 s.sil.nvmLost 1 ∧ t.sil.nvmLostFlag = true ∧ t.sil.queue.length = s.sil.queue.length + 1 ∧ (∀ w < 12, t.sil.portGet port.val w = 0) ∧ t.bus = .written ∧ Frame [.sil, .bus] s t)

/-- Without a freeze the writer moves the oldest admitted record into ring slot SIL_WSEQ mod 16,384 and SIL_WSEQ is one more; in a freeze, or with none, nothing happens. At a whole second outside a freeze every code that holds suppressed occurrences and a token has none any more; in SERVICE, where there is one such code and room, its RLIM record with their COUNT, the second as TS and the first source joins the queue and takes the token; in a freeze nothing happens. A refill adds a token up to BURST to a code that has a bucket; to another nothing. A code outside the table has a bucket of its own, which rests, as the refill and RLIM of such codes do, on log entry 44 (the model's reading). A window that closes with a count has its summary join the queue with its number as PARENT, its map and its length; in a freeze the summary is held; where a flood has filled the ring it counts as OVERFLOW; with a count of 0, or without a window, nothing is written. FREEZE starts a freeze with both counts at 0, and changes nothing in one. The end of a freeze, or FREEZE_MAX, in SERVICE with room writes the held summaries in group order and then EVT_SIL_OVF with what was not written, and in every case zeroes those counts and lowers no OVERFLOW count short of its limit; without a freeze it changes nothing. SERVICE ends START-UP and RECOVERY, RECOV holds or releases RECOVERY; where the mode changes, outside a freeze and with room, EVT_SIL_MODE with both modes and the lost count joins the queue, and a flood mode takes its number as SIL_FLOOD_SEQ. SIL_CNT_CLR zeroes every SUPPRESSED and OVERFLOW count, the lost counts of NVM and of the AO buffer, and nothing else. -/
def Obligations.SillageWritesAndIsControlled : Prop :=
  (∀ (s : State) (r : Rec) (q : List Rec), s.sil.frozen = false → s.sil.queue = r :: q →
    ∃ t, exec (.sillageRecordWrite) s = .next t ∧ t.sil.queue = q ∧ look (s.sil.wseq % 16384) t.sil.ring = some r ∧ (∀ i, i ≠ s.sil.wseq % 16384 → look i t.sil.ring = look i s.sil.ring) ∧ t.sil.wseq = (s.sil.wseq + 1) % 2 ^ 32 ∧ t.sil.codes = s.sil.codes ∧ t.sil.groups = s.sil.groups ∧ Frame [.sil] s t) ∧
  (∀ (s : State), (s.sil.frozen = true ∨ s.sil.queue = []) → exec (.sillageRecordWrite) s = .next s) ∧
  (∀ (s : State) (e : CodeEnt), s.sil.frozen = false → s.sil.mode (s.on SEQ_CTL.TEST) = 0 → s.sil.queue.length < 256 → (s.sil.codes ++ s.sil.unlisted).filter (fun e => e.supp != 0 && e.tokens != 0) = [e] → s.sil.entry e.code = e →
    ∃ t, exec (.rlimSecond) s = .next t ∧ t.sil.queue = s.sil.queue ++ [({ num := s.sil.next, code := e.code, src := rlimSrc e, flags := b2n s.fb + 8, count := e.supp, ts := s.now / 1000000000 * 1000000000, parent := 0xFFFFFFFF, payload := 0 } : Rec)] ∧ (t.sil.entry e.code).supp = 0 ∧ (t.sil.entry e.code).tokens = e.tokens - 1 ∧ t.sil.groups = s.sil.groups ∧ Frame [.sil] s t) ∧
  (∀ (s : State), s.sil.frozen = false →
    ∃ t, exec (.rlimSecond) s = .next t ∧ (∀ c ∈ s.sil.codes ++ s.sil.unlisted, (t.sil.entry c.code).supp = (if (s.sil.entry c.code).tokens = 0 then (s.sil.entry c.code).supp else 0)) ∧ t.sil.ring = s.sil.ring ∧ t.sil.groups = s.sil.groups ∧ Frame [.sil] s t) ∧
  (∀ (s : State), s.sil.frozen = true → exec (.rlimSecond) s = .next s) ∧
  (∀ (s : State) (code : Fin 65536), s.sil.listed code.val = true →
    ∃ t, exec (.silTokenRefill code) s = .next t ∧ t.sil.entry code.val = { s.sil.entry code.val with tokens := min (s.sil.entry code.val).burst ((s.sil.entry code.val).tokens + 1) } ∧ t.sil.queue = s.sil.queue ∧ t.sil.unlisted = s.sil.unlisted ∧ Frame [.sil] s t) ∧
  (∀ (s : State) (code : Fin 65536), s.sil.listed code.val = false → s.sil.unlisted.any (fun e => e.code == code.val) = true →
    ∃ t, exec (.silTokenRefill code) s = .next t ∧ t.sil.entry code.val = { s.sil.entry code.val with tokens := min (s.sil.entry code.val).burst ((s.sil.entry code.val).tokens + 1) } ∧ t.sil.queue = s.sil.queue ∧ t.sil.codes = s.sil.codes ∧ Frame [.sil] s t) ∧
  (∀ (s : State) (code : Fin 65536), s.sil.listed code.val = false → s.sil.unlisted.any (fun e => e.code == code.val) = false → exec (.silTokenRefill code) s = .next s) ∧
  (∀ (s : State) (g : Fin 32) (w : Window), s.sil.win g.val = some w → w.count ≠ 0 → s.sil.frozen = false → (s.sil.mode (s.on SEQ_CTL.TEST) = 0 ∨ s.sil.ringFull = false) → s.sil.queue.length < 256 →
    ∃ t, exec (.correlationWindowClose g) s = .next t ∧ t.sil.queue = s.sil.queue ++ [({ num := s.sil.next, code := w.code, src := w.src, flags := b2n s.fb + 4 + 16 * b2n (s.sil.mode (s.on SEQ_CTL.TEST) != 0), count := min 0xFFFF w.count, ts := s.now, parent := w.parent, payload := payload [(0, 1, g.val), (2, 2, min 0xFFFF ((w.lastTs - w.openTs) / 1000000)), (4, 36, w.map)] } : Rec)] ∧ t.sil.win g.val = none ∧ t.sil.codes = s.sil.codes ∧ Frame [.sil] s t) ∧
  (∀ (s : State) (g : Fin 32) (w : Window), s.sil.win g.val = some w → w.count ≠ 0 → s.sil.frozen = true →
    ∃ t, exec (.correlationWindowClose g) s = .next t ∧ (t.sil.groups[g.val]?).bind (·.held) = some ({ num := s.sil.next, code := w.code, src := w.src, flags := b2n s.fb + 4 + 16 * b2n (s.sil.mode (s.on SEQ_CTL.TEST) != 0), count := min 0xFFFF w.count, ts := s.now, parent := w.parent, payload := payload [(0, 1, g.val), (2, 2, min 0xFFFF ((w.lastTs - w.openTs) / 1000000)), (4, 36, w.map)] } : Rec) ∧ t.sil.queue = s.sil.queue ∧ t.sil.win g.val = none ∧ t.sil.codes = s.sil.codes ∧ Frame [.sil] s t) ∧
  (∀ (s : State) (g : Fin 32) (w : Window), s.sil.win g.val = some w → w.count ≠ 0 → s.sil.frozen = false → s.sil.mode (s.on SEQ_CTL.TEST) ≠ 0 → s.sil.ringFull = true →
    ∃ t, exec (.correlationWindowClose g) s = .next t ∧ t.sil.full = true ∧ t.sil.modeLost = s.sil.modeLost + 1 ∧ t.sil.queue = s.sil.queue ∧ t.sil.win g.val = none ∧ (if s.sil.listed w.code then (t.sil.entry w.code).ovf = satCount 16 (s.sil.entry w.code).ovf 1 else t.sil.unlistedOvf = satCount 16 s.sil.unlistedOvf 1) ∧ Frame [.sil] s t) ∧
  (∀ (s : State) (g : Fin 32) (w : Window), s.sil.win g.val = some w → w.count = 0 →
    ∃ t, exec (.correlationWindowClose g) s = .next t ∧ t.sil.win g.val = none ∧ t.sil.queue = s.sil.queue ∧ t.sil.codes = s.sil.codes ∧ Frame [.sil] s t) ∧
  (∀ (s : State) (g : Fin 32), s.sil.win g.val = none → exec (.correlationWindowClose g) s = .next s) ∧
  (∀ (s : State) (ini : Initiator), s.judge ini true SIL_CTL.FREEZE.addr = .allowed →
    ∃ t, exec (.freeze ini) s = .next t ∧ t.sil = (if s.sil.frozen then s.sil else { s.sil with frozen := true, frozenTotal := 0, frozenCodes := [] }) ∧ t.bus = .written ∧ Frame [.sil, .bus] s t) ∧
  (∀ (s : State) (ini : Initiator), s.judge ini true SIL_CTL.FREEZE.addr = .allowed → s.sil.frozen = true →
    ∃ t, exec (.unfreeze ini) s = .next t ∧ t.sil.frozen = false ∧ t.sil.frozenTotal = 0 ∧ t.sil.frozenCodes = [] ∧ (∀ g < 32, (t.sil.groups[g]?).bind (·.held) = none) ∧ t.sil.ring = s.sil.ring ∧ t.sil.wseq = s.sil.wseq ∧ (∀ c ∈ s.sil.codes, (s.sil.entry c.code).ovf ≤ (t.sil.entry c.code).ovf ∨ 0xFFFF < (s.sil.entry c.code).ovf) ∧ (s.sil.mode (s.on SEQ_CTL.TEST) = 0 ∧ s.sil.queue.length + ((List.range 32).filterMap (fun g => (s.sil.groups[g]?).bind (·.held))).length < 256 → t.sil.queue = s.sil.queue ++ (List.range ((List.range 32).filterMap (fun g => (s.sil.groups[g]?).bind (·.held))).length).map (fun i => { (((List.range 32).filterMap (fun g => (s.sil.groups[g]?).bind (·.held))).getD i { num := 0, code := 1, src := 0, flags := 0, count := 1, ts := 0, parent := 0, payload := 0 }) with num := (s.sil.next + i) % 2 ^ 32 }) ++ [({ num := (s.sil.next + ((List.range 32).filterMap (fun g => (s.sil.groups[g]?).bind (·.held))).length) % 2 ^ 32, code := EVT_SIL_OVF, src := srcOf 8 0 0, flags := b2n s.fb + 2 * b2n (s.sil.entry EVT_SIL_OVF).persist, count := min 0xFFFF s.sil.frozenTotal, ts := s.now, parent := 0xFFFFFFFF, payload := payload [(0, 4, s.sil.frozenTotal), (4, 4, s.sil.frozenCodes.length)] } : Rec)]) ∧ t.bus = .written ∧ Frame [.sil, .bus] s t) ∧
  (∀ (s : State) (ini : Initiator), s.judge ini true SIL_CTL.FREEZE.addr = .allowed → s.sil.frozen = false →
    ∃ t, exec (.unfreeze ini) s = .next t ∧ t.bus = .written ∧ Frame [.bus] s t) ∧
  (∀ (s : State), s.sil.frozen = true →
    ∃ t, exec (.freezeMaxExpiry) s = .next t ∧ t.sil.frozen = false ∧ t.sil.frozenTotal = 0 ∧ t.sil.frozenCodes = [] ∧ (∀ g < 32, (t.sil.groups[g]?).bind (·.held) = none) ∧ t.sil.ring = s.sil.ring ∧ t.sil.wseq = s.sil.wseq ∧ (∀ c ∈ s.sil.codes, (s.sil.entry c.code).ovf ≤ (t.sil.entry c.code).ovf ∨ 0xFFFF < (s.sil.entry c.code).ovf) ∧ (s.sil.mode (s.on SEQ_CTL.TEST) = 0 ∧ s.sil.queue.length + ((List.range 32).filterMap (fun g => (s.sil.groups[g]?).bind (·.held))).length < 256 → t.sil.queue = s.sil.queue ++ (List.range ((List.range 32).filterMap (fun g => (s.sil.groups[g]?).bind (·.held))).length).map (fun i => { (((List.range 32).filterMap (fun g => (s.sil.groups[g]?).bind (·.held))).getD i { num := 0, code := 1, src := 0, flags := 0, count := 1, ts := 0, parent := 0, payload := 0 }) with num := (s.sil.next + i) % 2 ^ 32 }) ++ [({ num := (s.sil.next + ((List.range 32).filterMap (fun g => (s.sil.groups[g]?).bind (·.held))).length) % 2 ^ 32, code := EVT_SIL_OVF, src := srcOf 8 0 0, flags := b2n s.fb + 2 * b2n (s.sil.entry EVT_SIL_OVF).persist, count := min 0xFFFF s.sil.frozenTotal, ts := s.now, parent := 0xFFFFFFFF, payload := payload [(0, 4, s.sil.frozenTotal), (4, 4, s.sil.frozenCodes.length)] } : Rec)]) ∧ Frame [.sil] s t) ∧
  (∀ (s : State), s.sil.frozen = false → exec (.freezeMaxExpiry) s = .next s) ∧
  (∀ (s : State) (ini : Initiator), s.judge ini true SIL_CTL.SERVICE.addr = .allowed →
    ∃ t, exec (.service ini) s = .next t ∧ t.sil.startup = false ∧ t.sil.recovery = false ∧ t.sil.recov = s.sil.recov ∧ t.sil.mode (s.on SEQ_CTL.TEST) = (({ s.sil with startup := false, recovery := false } : SilSt).mode (s.on SEQ_CTL.TEST)) ∧ ((({ s.sil with startup := false, recovery := false } : SilSt).mode (s.on SEQ_CTL.TEST)) = s.sil.mode (s.on SEQ_CTL.TEST) → t.sil = { s.sil with startup := false, recovery := false }) ∧ ((({ s.sil with startup := false, recovery := false } : SilSt).mode (s.on SEQ_CTL.TEST)) ≠ s.sil.mode (s.on SEQ_CTL.TEST) ∧ s.sil.frozen = false ∧ s.sil.queue.length < 256 → t.sil.queue = s.sil.queue ++ [({ num := s.sil.next, code := EVT_SIL_MODE, src := srcOf 8 0 0, flags := b2n s.fb + 2 * b2n (s.sil.entry EVT_SIL_MODE).persist + 16 * b2n ((({ s.sil with startup := false, recovery := false } : SilSt).mode (s.on SEQ_CTL.TEST)) != 0), count := 1, ts := s.now, parent := 0xFFFFFFFF, payload := payload [(0, 1, s.sil.mode (s.on SEQ_CTL.TEST)), (1, 1, (({ s.sil with startup := false, recovery := false } : SilSt).mode (s.on SEQ_CTL.TEST))), (4, 4, if s.sil.full then s.sil.modeLost else 0)] } : Rec)] ∧ t.sil.floodSeq = (if (({ s.sil with startup := false, recovery := false } : SilSt).mode (s.on SEQ_CTL.TEST)) = 0 then s.sil.floodSeq else s.sil.next) ∧ t.sil.modeLost = 0) ∧ t.bus = .written ∧ Frame [.sil, .bus] s t) ∧
  (∀ (s : State) (ini : Initiator) (on : Bool), s.judge ini true SIL_CTL.RECOV.addr = .allowed →
    ∃ t, exec (.recov ini on) s = .next t ∧ t.sil.recov = on ∧ t.sil.startup = s.sil.startup ∧ t.sil.recovery = s.sil.recovery ∧ t.sil.mode (s.on SEQ_CTL.TEST) = (({ s.sil with recov := on } : SilSt).mode (s.on SEQ_CTL.TEST)) ∧ ((({ s.sil with recov := on } : SilSt).mode (s.on SEQ_CTL.TEST)) = s.sil.mode (s.on SEQ_CTL.TEST) → t.sil = { s.sil with recov := on }) ∧ ((({ s.sil with recov := on } : SilSt).mode (s.on SEQ_CTL.TEST)) ≠ s.sil.mode (s.on SEQ_CTL.TEST) ∧ s.sil.frozen = false ∧ s.sil.queue.length < 256 → t.sil.queue = s.sil.queue ++ [({ num := s.sil.next, code := EVT_SIL_MODE, src := srcOf 8 0 0, flags := b2n s.fb + 2 * b2n (s.sil.entry EVT_SIL_MODE).persist + 16 * b2n ((({ s.sil with recov := on } : SilSt).mode (s.on SEQ_CTL.TEST)) != 0), count := 1, ts := s.now, parent := 0xFFFFFFFF, payload := payload [(0, 1, s.sil.mode (s.on SEQ_CTL.TEST)), (1, 1, (({ s.sil with recov := on } : SilSt).mode (s.on SEQ_CTL.TEST))), (4, 4, if s.sil.full then s.sil.modeLost else 0)] } : Rec)] ∧ t.sil.floodSeq = (if (({ s.sil with recov := on } : SilSt).mode (s.on SEQ_CTL.TEST)) = 0 then s.sil.floodSeq else s.sil.next) ∧ t.sil.modeLost = 0) ∧ t.bus = .written ∧ Frame [.sil, .bus] s t) ∧
  (∀ (s : State) (ini : Initiator), s.judge ini true SIL_CNT_CLR.CLR.addr = .allowed →
    ∃ t, exec (.silCntClr ini) s = .next t ∧ t.sil = { s.sil with codes := t.sil.codes, unlisted := t.sil.unlisted, unlistedOvf := 0, aoLost := 0, nvmLost := 0 } ∧ t.sil.codes = s.sil.codes.map (fun e => { e with supp := 0, ovf := 0 }) ∧ t.sil.unlisted = s.sil.unlisted.map (fun e => { e with supp := 0, ovf := 0 }) ∧ t.bus = .written ∧ Frame [.sil, .bus] s t)

/-- Of writes that their core lets through (log entry 53): a register write that is not aligned, has no destination or is forbidden completes with a bus error and changes no register, but that a forbidden one from the Top die to the Base die sets BLOCKED and is logged; an aligned one to an unassigned offset completes and changes nothing. An allowed write: FW_TRACE_EN (RW) takes the word; KPR_TOPWDT.SEEN (W1C) is cleared by a 1, and CNT (RO) beside it stays; SIL_CFG.FREEZE_MAX (RWA) takes the value before the Accord lock, and after it keeps its own and logs EVT_RWA_LOCKED with both; written with the value that it holds it changes and logs nothing; a TAMP_LIM_RED limit (RWT) of a comparator with DIR 0 takes a lower value, and keeps its own and logs EVT_RWT_REJECT at a higher one; after the lock no write to a Tamp register loosens any of its RWT fields. FW_TEXT_LIMIT is written by the Keepers while it is not locked, and by others or when locked it stays; FW_TOPWDT_CFG.PERIOD takes the value unless the Top watchdog is armed. SNAP copies fingerprint, epoch and generation of one triple (fpTriple), which is the triple before a live activation until its epoch is committed (R64). -/
def Obligations.RegistersAreWrittenByClass : Prop :=
  (∀ (s : State) (ini : Initiator) (addr : Nat) (val : Word), s.coreTraps ini (wordReq addr val) = false → s.judge ini true addr = .allowed → (regionOf addr).isRegs = true → addr % 4 ≠ 0 →
    ∃ t, exec (.registerWrite ini addr val) s = .next t ∧ t.bus = .error ∧ t.ses.sent = [] ∧ Frame [.ses, .bus] s t) ∧
  (∀ (s : State) (ini : Initiator) (addr : Nat) (val : Word), s.coreTraps ini (wordReq addr val) = false → s.judge ini true addr = .allowed → (regionOf addr).isRegs = true → addr % 4 = 0 → fieldsAt addr = [] →
    ∃ t, exec (.registerWrite ini addr val) s = .next t ∧ t.bus = .written ∧ t.ses.sent = [] ∧ Frame [.ses, .bus] s t) ∧
  (∀ (s : State) (ini : Initiator) (addr : Nat) (val : Word), s.coreTraps ini (wordReq addr val) = false → s.judge ini true addr = .unreachable →
    ∃ t, exec (.registerWrite ini addr val) s = .next t ∧ t.bus = .error ∧ t.ses.sent = [] ∧ Frame [.ses, .bus] s t) ∧
  (∀ (s : State) (ini : Initiator) (addr : Nat) (val : Word), s.coreTraps ini (wordReq addr val) = false → s.judge ini true addr = .forbidden → (iniOnTop ini && (regionOf addr).onBase) = false →
    ∃ t, exec (.registerWrite ini addr val) s = .next t ∧ t.bus = .error ∧ t.ses.sent = [] ∧ Frame [.ses, .bus] s t) ∧
  (∀ (s : State) (ini : Initiator) (addr : Nat) (val : Word), s.coreTraps ini (wordReq addr val) = false → s.judge ini true addr = .forbidden → (iniOnTop ini && (regionOf addr).onBase) = true →
    ∃ t, exec (.registerWrite ini addr val) s = .next t ∧ t.bus = .error ∧ t.on BRG_STS.BLOCKED = true ∧ t.sil = (s.log EVT_BRG_BLOCKED ACC_TRAY UNIT_BRG 0 [(0, 8, addr), (8, 1, 1), (9, 1, iniByte ini)]).sil ∧ t.ses.sent = [] ∧ RegsOnly [BRG_STS.BLOCKED] s t ∧ Frame [.regs, .sil, .ses, .bus] s t) ∧
  (∀ (s : State) (ini : Initiator) (k : Fin 8) (val : Word), s.judge ini true (FW_TRACE_EN.EN k.val).addr = .allowed → s.coreTraps ini (wordReq (FW_TRACE_EN.EN k.val).addr val) = false →
    ∃ t, exec (.registerWrite ini (FW_TRACE_EN.EN k.val).addr val) s = .next t ∧ t.get (FW_TRACE_EN.EN k.val) = val.toNat ∧ t.ses.sent = [] ∧ t.bus = .written ∧ RegsOnly [FW_TRACE_EN.EN k.val] s t ∧ Frame [.regs, .ses, .bus] s t) ∧
  (∀ (s : State) (ini : Initiator) (val : Word), s.judge ini true KPR_TOPWDT.SEEN.addr = .allowed → s.coreTraps ini (wordReq KPR_TOPWDT.SEEN.addr val) = false →
    ∃ t, exec (.registerWrite ini KPR_TOPWDT.SEEN.addr val) s = .next t ∧ t.get KPR_TOPWDT.SEEN = (s.get KPR_TOPWDT.SEEN - (s.get KPR_TOPWDT.SEEN &&& val.toNat % 2)) % 2 ∧ t.ses.sent = [] ∧ t.bus = .written ∧ RegsOnly [KPR_TOPWDT.SEEN] s t ∧ Frame [.regs, .ses, .bus] s t) ∧
  (∀ (s : State) (ini : Initiator) (val : Word), s.judge ini true SIL_CFG.FREEZE_MAX.addr = .allowed → s.coreTraps ini (wordReq SIL_CFG.FREEZE_MAX.addr val) = false → s.locked = false →
    ∃ t, exec (.registerWrite ini SIL_CFG.FREEZE_MAX.addr val) s = .next t ∧ t.get SIL_CFG.FREEZE_MAX = bitsOf val.toNat 0 3 ∧ t.ses.sent = [] ∧ t.bus = .written ∧ RegsOnly [SIL_CFG.FREEZE_MAX] s t ∧ Frame [.regs, .ses, .bus] s t) ∧
  (∀ (s : State) (ini : Initiator) (val : Word), s.judge ini true SIL_CFG.FREEZE_MAX.addr = .allowed → s.coreTraps ini (wordReq SIL_CFG.FREEZE_MAX.addr val) = false → s.locked = true → bitsOf val.toNat 0 3 ≠ s.get SIL_CFG.FREEZE_MAX →
    ∃ t, exec (.registerWrite ini SIL_CFG.FREEZE_MAX.addr val) s = .next t ∧ t.get SIL_CFG.FREEZE_MAX = s.get SIL_CFG.FREEZE_MAX ∧ t.sil = (s.log EVT_RWA_LOCKED ACC_TRAY UNIT_SIL 0 [(0, 8, SIL_CFG.FREEZE_MAX.addr), (8, 1, SIL_CFG.FREEZE_MAX.lo), (9, 1, SIL_CFG.FREEZE_MAX.w), (10, 1, iniByte ini), (12, 4, s.get SIL_CFG.FREEZE_MAX), (16, 4, bitsOf val.toNat 0 3)]).sil ∧ t.ses.sent = [] ∧ t.bus = .written ∧ Frame [.sil, .ses, .bus] s t) ∧
  (∀ (s : State) (ini : Initiator) (val : Word), s.judge ini true SIL_CFG.FREEZE_MAX.addr = .allowed → s.coreTraps ini (wordReq SIL_CFG.FREEZE_MAX.addr val) = false → bitsOf val.toNat 0 3 = s.get SIL_CFG.FREEZE_MAX →
    ∃ t, exec (.registerWrite ini SIL_CFG.FREEZE_MAX.addr val) s = .next t ∧ t.ses.sent = [] ∧ t.bus = .written ∧ Frame [.ses, .bus] s t) ∧
  (∀ (s : State) (ini : Initiator) (k : Fin 256) (val : Word), s.judge ini true (TAMP_LIM_RED.LIM k.val).addr = .allowed → s.coreTraps ini (wordReq (TAMP_LIM_RED.LIM k.val).addr val) = false → s.get (TAMP_CMP_CFG.DIR k.val) = 0 → sgn 16 (bitsOf val.toNat 0 16) < sgn 16 (s.get (TAMP_LIM_RED.LIM k.val)) →
    ∃ t, exec (.registerWrite ini (TAMP_LIM_RED.LIM k.val).addr val) s = .next t ∧ t.get (TAMP_LIM_RED.LIM k.val) = bitsOf val.toNat 0 16 ∧ t.ses.sent = [] ∧ t.bus = .written ∧ RegsOnly [(TAMP_LIM_RED.LIM k.val)] s t ∧ Frame [.regs, .ses, .bus] s t) ∧
  (∀ (s : State) (ini : Initiator) (k : Fin 256) (val : Word), s.judge ini true (TAMP_LIM_RED.LIM k.val).addr = .allowed → s.coreTraps ini (wordReq (TAMP_LIM_RED.LIM k.val).addr val) = false → s.get (TAMP_CMP_CFG.DIR k.val) = 0 → sgn 16 (s.get (TAMP_LIM_RED.LIM k.val)) < sgn 16 (bitsOf val.toNat 0 16) →
    ∃ t, exec (.registerWrite ini (TAMP_LIM_RED.LIM k.val).addr val) s = .next t ∧ t.get (TAMP_LIM_RED.LIM k.val) = s.get (TAMP_LIM_RED.LIM k.val) ∧ t.sil = (s.log EVT_RWT_REJECT ACC_TRAY UNIT_TAMP 0 [(0, 8, (TAMP_LIM_RED.LIM k.val).addr), (8, 1, (TAMP_LIM_RED.LIM k.val).lo), (9, 1, (TAMP_LIM_RED.LIM k.val).w), (10, 1, iniByte ini), (12, 4, s.get (TAMP_LIM_RED.LIM k.val)), (16, 4, bitsOf val.toNat 0 16)]).sil ∧ t.ses.sent = [] ∧ t.bus = .written ∧ Frame [.sil, .ses, .bus] s t) ∧
  (∀ (s : State) (ini : Initiator) (addr : Nat) (val : Word), s.coreTraps ini (wordReq addr val) = false → s.judge ini true addr = .allowed → s.locked = true → 0x20030000 ≤ addr → addr < 0x20040000 →
    ∃ t, exec (.registerWrite ini addr val) s = .next t ∧ (∀ f ∈ fieldsAt addr, f.acc = .rwt → t.get f = s.get f ∨ rwtTighter f (rwtBelow s.regs f.addr) (s.get f) (t.get f) = true) ∧ Frame [.regs, .time, .clk, .sil, .nvm, .pwr, .brg, .tw, .seq, .tamp, .cool, .tel, .inf, .otp, .acd, .key, .fw, .ses, .sec, .flash, .bus, .mem, .fresh] s t) ∧
  (∀ (s : State) (ini : Initiator) (val : Word), s.judge ini true FW_TEXT_LIMIT.LIMIT.addr = .allowed → s.coreTraps ini (wordReq FW_TEXT_LIMIT.LIMIT.addr val) = false → fromKeeper ini = true → s.on FW_TEXT_BASE.LOCK = false →
    ∃ t, exec (.registerWrite ini FW_TEXT_LIMIT.LIMIT.addr val) s = .next t ∧ t.get FW_TEXT_LIMIT.LIMIT = bitsOf val.toNat 12 13 ∧ t.ses.sent = [] ∧ t.bus = .written ∧ RegsOnly [FW_TEXT_LIMIT.LIMIT] s t ∧ Frame [.regs, .ses, .bus] s t) ∧
  (∀ (s : State) (ini : Initiator) (val : Word), s.judge ini true FW_TEXT_LIMIT.LIMIT.addr = .allowed → s.coreTraps ini (wordReq FW_TEXT_LIMIT.LIMIT.addr val) = false → (fromKeeper ini = false ∨ s.on FW_TEXT_BASE.LOCK = true) →
    ∃ t, exec (.registerWrite ini FW_TEXT_LIMIT.LIMIT.addr val) s = .next t ∧ t.ses.sent = [] ∧ t.bus = .written ∧ Frame [.ses, .bus] s t) ∧
  (∀ (s : State) (ini : Initiator) (val : Word), s.judge ini true FW_TOPWDT_CFG.PERIOD.addr = .allowed → s.coreTraps ini (wordReq FW_TOPWDT_CFG.PERIOD.addr val) = false →
    ∃ t, exec (.registerWrite ini FW_TOPWDT_CFG.PERIOD.addr val) s = .next t ∧ t.get FW_TOPWDT_CFG.PERIOD = (if s.on FW_TOPWDT_STS.ARMED then s.get FW_TOPWDT_CFG.PERIOD else bitsOf val.toNat 0 3) ∧ t.ses.sent = [] ∧ t.bus = .written ∧ RegsOnly [FW_TOPWDT_CFG.PERIOD] s t ∧ Frame [.regs, .ses, .bus] s t) ∧
  (∀ (s : State) (ini : Initiator), s.judge ini true ACD_FP_CTL.SNAP.addr = .allowed →
    ∃ t, exec (.snap ini) s = .next t ∧ (∀ k < 12, t.get (ACD_FP.FP k) = leAt s.fpTriple.fp (4 * k) 4) ∧ t.get ACD_FP_SNAPEP_LO.EP_LO = s.fpTriple.epoch % 2 ^ 32 ∧ t.get ACD_FP_SNAPEP_HI.EP_HI = s.fpTriple.epoch / 2 ^ 32 % 2 ^ 32 ∧ t.get ACD_FP_SNAPGEN.GEN = s.fpTriple.gen % 2 ^ 32 ∧ t.bus = .written ∧ RegsOnly ((List.range 12).map ACD_FP.FP ++ [ACD_FP_SNAPEP_LO.EP_LO, ACD_FP_SNAPEP_HI.EP_HI, ACD_FP_SNAPGEN.GEN]) s t ∧ Frame [.regs, .bus] s t)

/-- On its own die, where its core does not trap: a read of Keeper memory, retention, log mirror, Top SRAM or signature table answers its bytes and changes nothing, a write to the first four (Top SRAM outside the locked text) stores exactly its bytes; a write into the locked text, a size of 0 or above 8, a last byte in another region, an address above the LPDDR5X, and a register access of another size or alignment are bus errors without effect. A write by others than the security block to Infuser weights or slots, and one to state SRAM that R139 refuses, is a bus error, sets WPROT and is logged; others to state SRAM are stored. A read of Infuser memory answers its bytes, and its ECC counts; an uncorrectable one is a bus error. LPDDR5X, trained: reads and writes, corrected words counted; an uncorrectable read is a bus error, recorded, and discards the ring buffer or staged image that holds it; after a failed training every access is a bus error; before training a write completes and is lost: the model's choice (log entry 8), which R219 does not state. A memory access to a gated domain is a bus error, and while its gate is asked for it is held (log entry 49). A register read answers the register's word and changes nothing (openView, the interrupt controllers and reads with effects apart); CLK_TS_LO keeps the upper half and FB. An atomic addition in Top SRAM answers the old word and stores the sum; one on the Base die is a bus error. A core's misaligned memory access, and one that its PMP entries deny, traps (R396; log entry 53). Across the Bridge, with nothing waiting before the request or its completion and the replays enough, the same, and beats are counted; with too many rejects, a bus error with REPLAY_EXH; while GUARD or another CTRL message waits, or a Top-die request finds the Bridge in TRAIN or FENCED, request or completion waits (log entries 14, 47). A forbidden access is a bus error, and blocked and logged from the Top die to the Base die; others are none. -/
def Obligations.AccessesReadAndWriteByAddress : Prop :=
  (∀ (s : State) (ini : Initiator) (req : BusReq) (beats back : Beats), crosses ini req.addr = false → s.coreTraps ini req = false → s.judge ini false req.addr = .allowed → req.write = false → req.amo = none → (regionOf req.addr).isRegs = false → 1 ≤ req.size → req.size ≤ 8 → s.judge ini false (req.addr + req.size - 1) = .allowed → regionOf (req.addr + req.size - 1) = regionOf req.addr → (regionOf req.addr = .keeperMem ∨ regionOf req.addr = .retention ∨ regionOf req.addr = .logMirror ∨ regionOf req.addr = .topSram ∨ regionOf req.addr = .sigTable) →
    ∃ t, exec (.ctrlRequest ini req beats back) s = .next t ∧ t.bus = .value (leNat (memBytes s.mem req.addr req.size)) ∧ t.ses.sent = [] ∧ Frame [.ses, .bus] s t) ∧
  (∀ (s : State) (ini : Initiator) (req : BusReq) (beats back : Beats), crosses ini req.addr = false → s.coreTraps ini req = false → s.judge ini true req.addr = .allowed → req.write = true → req.amo = none → (regionOf req.addr).isRegs = false → 1 ≤ req.size → req.size ≤ 8 → s.judge ini true (req.addr + req.size - 1) = .allowed → regionOf (req.addr + req.size - 1) = regionOf req.addr → ((regionOf req.addr = .keeperMem ∨ regionOf req.addr = .retention ∨ regionOf req.addr = .logMirror) ∨ (regionOf req.addr = .topSram ∧ s.textLocked req.addr = false ∧ s.textLocked (req.addr + req.size - 1) = false)) →
    ∃ t, exec (.ctrlRequest ini req beats back) s = .next t ∧ memBytes t.mem req.addr req.size = leBytes req.size req.data ∧ (∀ a, ¬(req.addr ≤ a ∧ a < req.addr + req.size) → memRead t.mem a = memRead s.mem a) ∧ t.bus = .written ∧ t.ses.sent = [] ∧ Frame [.ses, .bus, .mem] s t) ∧
  (∀ (s : State) (ini : Initiator) (req : BusReq) (beats back : Beats), crosses ini req.addr = false → s.coreTraps ini req = false → s.judge ini true req.addr = .allowed → req.write = true → req.amo = none → (regionOf req.addr).isRegs = false → 1 ≤ req.size → req.size ≤ 8 → s.judge ini true (req.addr + req.size - 1) = .allowed → regionOf (req.addr + req.size - 1) = regionOf req.addr → regionOf req.addr = .topSram → (s.textLocked req.addr || s.textLocked (req.addr + req.size - 1)) = true →
    ∃ t, exec (.ctrlRequest ini req beats back) s = .next t ∧ t.bus = .error ∧ t.ses.sent = [] ∧ Frame [.ses, .bus] s t) ∧
  (∀ (s : State) (ini : Initiator) (req : BusReq) (beats back : Beats), crosses ini req.addr = false → s.coreTraps ini req = false → s.judge ini true req.addr = .allowed → req.write = true → req.amo = none → (regionOf req.addr).isRegs = false → 1 ≤ req.size → req.size ≤ 8 → s.judge ini true (req.addr + req.size - 1) = .allowed → regionOf (req.addr + req.size - 1) = regionOf req.addr → (regionOf req.addr = .infWeights ∨ regionOf req.addr = .infSlots) → ini ≠ .security → ((gateDomain (regionOf req.addr) req.addr).all (fun d => !s.gated d && !bitOf (s.get CLK_GATE_REQ.REQ) d)) = true →
    ∃ t, exec (.ctrlRequest ini req beats back) s = .next t ∧ t.bus = .error ∧ t.on INF_ERR.WPROT = true ∧ t.brg = (s.logTop EVT_INF_WPROT ACC_TRAY UNIT_INF 0 [(0, 8, req.addr), (8, 1, iniByte ini)]).brg ∧ t.ses.sent = [] ∧ RegsOnly [INF_ERR.WPROT] s t ∧ Frame [.regs, .brg, .fw, .ses, .bus] s t) ∧
  (∀ (s : State) (ini : Initiator) (req : BusReq) (beats back : Beats), crosses ini req.addr = false → s.coreTraps ini req = false → s.judge ini true req.addr = .allowed → req.write = true → req.amo = none → (regionOf req.addr).isRegs = false → 1 ≤ req.size → req.size ≤ 8 → s.judge ini true (req.addr + req.size - 1) = .allowed → regionOf (req.addr + req.size - 1) = regionOf req.addr → regionOf req.addr = .infState → s.stateRefuses ini req.addr req.size = true → ((gateDomain (regionOf req.addr) req.addr).all (fun d => !s.gated d && !bitOf (s.get CLK_GATE_REQ.REQ) d)) = true →
    ∃ t, exec (.ctrlRequest ini req beats back) s = .next t ∧ t.bus = .error ∧ t.on INF_ERR.WPROT = true ∧ t.brg = (s.logTop EVT_INF_WPROT ACC_TRAY UNIT_INF 0 [(0, 8, req.addr), (8, 1, iniByte ini)]).brg ∧ t.ses.sent = [] ∧ RegsOnly [INF_ERR.WPROT] s t ∧ Frame [.regs, .brg, .fw, .ses, .bus] s t) ∧
  (∀ (s : State) (ini : Initiator) (req : BusReq) (beats back : Beats), crosses ini req.addr = false → s.coreTraps ini req = false → s.judge ini true req.addr = .allowed → req.write = true → req.amo = none → (regionOf req.addr).isRegs = false → 1 ≤ req.size → req.size ≤ 8 → s.judge ini true (req.addr + req.size - 1) = .allowed → regionOf (req.addr + req.size - 1) = regionOf req.addr → regionOf req.addr = .infState → s.stateRefuses ini req.addr req.size = false → ((gateDomain (regionOf req.addr) req.addr).all (fun d => !s.gated d && !bitOf (s.get CLK_GATE_REQ.REQ) d)) = true →
    ∃ t, exec (.ctrlRequest ini req beats back) s = .next t ∧ memBytes t.mem req.addr req.size = leBytes req.size req.data ∧ (∀ a, ¬(req.addr ≤ a ∧ a < req.addr + req.size) → memRead t.mem a = memRead s.mem a) ∧ t.bus = .written ∧ t.ses.sent = [] ∧ Frame [.ses, .bus, .mem] s t) ∧
  (∀ (s : State) (ini : Initiator) (req : BusReq) (beats back : Beats), crosses ini req.addr = false → s.coreTraps ini req = false → s.judge ini false req.addr = .allowed → req.write = false → req.amo = none → (regionOf req.addr).isRegs = false → 1 ≤ req.size → req.size ≤ 8 → s.judge ini false (req.addr + req.size - 1) = .allowed → regionOf (req.addr + req.size - 1) = regionOf req.addr → (regionOf req.addr = .infWeights ∨ regionOf req.addr = .infState ∨ regionOf req.addr = .infSlots) → req.uncorr = true → ((gateDomain (regionOf req.addr) req.addr).all (fun d => !s.gated d && !bitOf (s.get CLK_GATE_REQ.REQ) d)) = true →
    ∃ t, exec (.ctrlRequest ini req beats back) s = .next t ∧ t.bus = .error ∧ t.on INF_ERR.ECC_UNCORR = true ∧ t.get INF_ECC_CNT.UNCORR = satCount INF_ECC_CNT.UNCORR.w (s.get INF_ECC_CNT.UNCORR) 1 ∧ t.ses.sent = [] ∧ Frame [.regs, .fw, .ses, .bus] s t) ∧
  (∀ (s : State) (ini : Initiator) (req : BusReq) (beats back : Beats), crosses ini req.addr = false → s.coreTraps ini req = false → s.judge ini false req.addr = .allowed → req.write = false → req.amo = none → (regionOf req.addr).isRegs = false → 1 ≤ req.size → req.size ≤ 8 → s.judge ini false (req.addr + req.size - 1) = .allowed → regionOf (req.addr + req.size - 1) = regionOf req.addr → (regionOf req.addr = .infWeights ∨ regionOf req.addr = .infState ∨ regionOf req.addr = .infSlots) → req.uncorr = false → ((gateDomain (regionOf req.addr) req.addr).all (fun d => !s.gated d && !bitOf (s.get CLK_GATE_REQ.REQ) d)) = true →
    ∃ t, exec (.ctrlRequest ini req beats back) s = .next t ∧ t.bus = .value (leNat (memBytes s.mem req.addr req.size)) ∧ t.get INF_ECC_CNT.CORR = satCount INF_ECC_CNT.CORR.w (s.get INF_ECC_CNT.CORR) req.corr ∧ t.ses.sent = [] ∧ RegsOnly [INF_ERR.ECC_CORR, INF_ECC_CNT.CORR] s t ∧ Frame [.regs, .fw, .ses, .bus] s t) ∧
  (∀ (s : State) (ini : Initiator) (req : BusReq) (beats back : Beats), crosses ini req.addr = false → s.coreTraps ini req = false → s.judge ini req.write req.addr = .allowed → req.amo = none → (regionOf req.addr).isRegs = false → (req.size = 0 ∨ 8 < req.size ∨ regionOf (req.addr + req.size - 1) ≠ regionOf req.addr) →
    ∃ t, exec (.ctrlRequest ini req beats back) s = .next t ∧ t.bus = .error ∧ t.ses.sent = [] ∧ Frame [.ses, .bus] s t) ∧
  (∀ (s : State) (ini : Initiator) (req : BusReq) (beats back : Beats), s.coreTraps ini req = false → 0x1000000000 + s.get ACD_INFO.LP_CAP * 2 ^ 30 ≤ req.addr → 0x1000000000 ≤ req.addr → req.addr ≤ 0x1FFFFFFFFF →
    ∃ t, exec (.ctrlRequest ini req beats back) s = .next t ∧ t.bus = .error ∧ t.ses.sent = [] ∧ Frame [.ses, .bus] s t) ∧
  (∀ (s : State) (ini : Initiator) (req : BusReq) (beats back : Beats), crosses ini req.addr = false → s.coreTraps ini req = false → s.judge ini true req.addr = .allowed → req.write = true → req.amo = none → (regionOf req.addr).isRegs = false → 1 ≤ req.size → req.size ≤ 8 → s.judge ini true (req.addr + req.size - 1) = .allowed → regionOf (req.addr + req.size - 1) = regionOf req.addr → regionOf req.addr = .lpddr → s.on LPC_STS.INIT_DONE = true → ((gateDomain (regionOf req.addr) req.addr).all (fun d => !s.gated d && !bitOf (s.get CLK_GATE_REQ.REQ) d)) = true →
    ∃ t, exec (.ctrlRequest ini req beats back) s = .next t ∧ memBytes t.mem req.addr req.size = leBytes req.size req.data ∧ (∀ a, ¬(req.addr ≤ a ∧ a < req.addr + req.size) → memRead t.mem a = memRead s.mem a) ∧ t.bus = .written ∧ t.ses.sent = [] ∧ Frame [.ses, .bus, .mem] s t) ∧
  (∀ (s : State) (ini : Initiator) (req : BusReq) (beats back : Beats), crosses ini req.addr = false → s.coreTraps ini req = false → s.judge ini true req.addr = .allowed → req.write = true → req.amo = none → (regionOf req.addr).isRegs = false → 1 ≤ req.size → req.size ≤ 8 → s.judge ini true (req.addr + req.size - 1) = .allowed → regionOf (req.addr + req.size - 1) = regionOf req.addr → regionOf req.addr = .lpddr → s.on LPC_STS.INIT_DONE = false → s.tel.lpEnded = false → ((gateDomain (regionOf req.addr) req.addr).all (fun d => !s.gated d && !bitOf (s.get CLK_GATE_REQ.REQ) d)) = true →
    ∃ t, exec (.ctrlRequest ini req beats back) s = .next t ∧ t.bus = .written ∧ t.ses.sent = [] ∧ Frame [.ses, .bus] s t) ∧
  (∀ (s : State) (ini : Initiator) (req : BusReq) (beats back : Beats), crosses ini req.addr = false → s.coreTraps ini req = false → s.judge ini req.write req.addr = .allowed → req.amo = none → (regionOf req.addr).isRegs = false → 1 ≤ req.size → req.size ≤ 8 → s.judge ini req.write (req.addr + req.size - 1) = .allowed → regionOf (req.addr + req.size - 1) = regionOf req.addr → regionOf req.addr = .lpddr → s.tel.lpEnded = true → s.on LPC_STS.INIT_DONE = false → ((gateDomain (regionOf req.addr) req.addr).all (fun d => !s.gated d && !bitOf (s.get CLK_GATE_REQ.REQ) d)) = true →
    ∃ t, exec (.ctrlRequest ini req beats back) s = .next t ∧ t.bus = .error ∧ t.ses.sent = [] ∧ Frame [.ses, .bus] s t) ∧
  (∀ (s : State) (ini : Initiator) (req : BusReq) (beats back : Beats), crosses ini req.addr = false → s.coreTraps ini req = false → s.judge ini false req.addr = .allowed → req.write = false → req.amo = none → (regionOf req.addr).isRegs = false → 1 ≤ req.size → req.size ≤ 8 → s.judge ini false (req.addr + req.size - 1) = .allowed → regionOf (req.addr + req.size - 1) = regionOf req.addr → regionOf req.addr = .lpddr → req.uncorr = true → ((gateDomain (regionOf req.addr) req.addr).all (fun d => !s.gated d && !bitOf (s.get CLK_GATE_REQ.REQ) d)) = true → s.lpFailed = false →
    ∃ t, exec (.ctrlRequest ini req beats back) s = .next t ∧ t.bus = .error ∧ t.on LPC_STS.UNCORR = true ∧ t.get64 LPC_ERR_ADDR_LO.ADDR_LO LPC_ERR_ADDR_HI.ADDR_HI = req.addr ∧ t.get LPC_ECC_CNT.UNCORR = satCount LPC_ECC_CNT.UNCORR.w (s.get LPC_ECC_CNT.UNCORR) 1 ∧ (s.bufOf req.addr = none → t.tel = s.tel) ∧ (∀ q ∈ s.bufOf req.addr, t.tel.gone.contains q = true) ∧ (if s.get SEC_XFER.STATE ≠ 0 ∧ s.stgBase ≤ req.addr ∧ req.addr < s.stgBase + s.sec.len then t.get SEC_XFER.STATE = 0 ∧ t.sec.img = [] ∧ t.sec.got = [] else t.sec = s.sec ∧ t.get SEC_XFER.STATE = s.get SEC_XFER.STATE) ∧ t.ses.sent = [] ∧ RegsOnly [LPC_STS.UNCORR, LPC_ERR_ADDR_LO.ADDR_LO, LPC_ERR_ADDR_HI.ADDR_HI, LPC_ECC_CNT.UNCORR, LPC_ECC_CNT.CORR, SEC_XFER.STATE] s t ∧ Frame [.regs, .brg, .tel, .ses, .sec, .bus] s t) ∧
  (∀ (s : State) (ini : Initiator) (req : BusReq) (beats back : Beats), crosses ini req.addr = false → s.coreTraps ini req = false → s.judge ini false req.addr = .allowed → req.write = false → req.amo = none → (regionOf req.addr).isRegs = false → 1 ≤ req.size → req.size ≤ 8 → s.judge ini false (req.addr + req.size - 1) = .allowed → regionOf (req.addr + req.size - 1) = regionOf req.addr → regionOf req.addr = .lpddr → req.uncorr = false → s.on LPC_STS.INIT_DONE = true → ((gateDomain (regionOf req.addr) req.addr).all (fun d => !s.gated d && !bitOf (s.get CLK_GATE_REQ.REQ) d)) = true →
    ∃ t, exec (.ctrlRequest ini req beats back) s = .next t ∧ t.bus = .value (leNat (memBytes s.mem req.addr req.size)) ∧ t.get LPC_ECC_CNT.CORR = satCount LPC_ECC_CNT.CORR.w (s.get LPC_ECC_CNT.CORR) req.corr ∧ t.ses.sent = [] ∧ RegsOnly [LPC_ECC_CNT.CORR] s t ∧ Frame [.regs, .ses, .bus] s t) ∧
  (∀ (s : State) (ini : Initiator) (req : BusReq) (beats back : Beats) (d : Nat), crosses ini req.addr = false → s.coreTraps ini req = false → s.judge ini req.write req.addr = .allowed → req.amo = none → (regionOf req.addr).isRegs = false → 1 ≤ req.size → req.size ≤ 8 → s.judge ini req.write (req.addr + req.size - 1) = .allowed → regionOf (req.addr + req.size - 1) = regionOf req.addr → gateDomain (regionOf req.addr) req.addr = some d → s.gated d = true →
    ∃ t, exec (.ctrlRequest ini req beats back) s = .next t ∧ t.bus = .error ∧ t.ses.sent = [] ∧ Frame [.ses, .bus] s t) ∧
  (∀ (s : State) (ini : Initiator) (req : BusReq) (beats back : Beats) (d : Nat), crosses ini req.addr = false → s.coreTraps ini req = false → s.judge ini req.write req.addr = .allowed → req.amo = none → (regionOf req.addr).isRegs = false → 1 ≤ req.size → req.size ≤ 8 → s.judge ini req.write (req.addr + req.size - 1) = .allowed → regionOf (req.addr + req.size - 1) = regionOf req.addr → gateDomain (regionOf req.addr) req.addr = some d → s.gated d = false → bitOf (s.get CLK_GATE_REQ.REQ) d = true →
    ∃ t, exec (.ctrlRequest ini req beats back) s = .next t ∧ t.bus = .held ∧ t.clk = { s.clk with held := s.clk.held ++ [(ini, req, {})] } ∧ t.ses.sent = [] ∧ Frame [.clk, .ses, .bus] s t) ∧
  (∀ (s : State) (ini : Initiator) (req : BusReq) (beats back : Beats), crosses ini req.addr = false → s.coreTraps ini req = false → s.judge ini req.write req.addr = .allowed → req.amo = none → (regionOf req.addr).isRegs = true → (req.size ≠ 4 ∨ req.addr % 4 ≠ 0) →
    ∃ t, exec (.ctrlRequest ini req beats back) s = .next t ∧ t.bus = .error ∧ t.ses.sent = [] ∧ Frame [.ses, .bus] s t) ∧
  (∀ (s : State) (ini : Initiator) (req : BusReq) (beats back : Beats), crosses ini req.addr = false → s.coreTraps ini req = false → s.judge ini false req.addr = .allowed → req.write = false → (regionOf req.addr).isRegs = true → req.size = 4 → req.addr % 4 = 0 → req.amo = none → plicRange req.addr = false → s.openView req.addr = false → (req.addr ≠ CLK_TS_LO.TS_LO.addr ∧ req.addr ≠ ACD_EPOCH_LO.EPOCH_LO.addr ∧ req.addr ≠ ACD_EPOCH_HI.EPOCH_HI.addr ∧ instOf TW_ALERT.ADDR 12 req.addr = none) →
    ∃ t, exec (.ctrlRequest ini req beats back) s = .next t ∧ t.bus = .value (s.word req.addr) ∧ t.ses.sent = [] ∧ Frame [.ses, .bus] s t) ∧
  (∀ (s : State) (ini : Initiator) (req : BusReq) (beats back : Beats), crosses ini req.addr = false → s.coreTraps ini req = false → s.judge ini false req.addr = .allowed → req.write = false → req.amo = none → req.size = 4 → req.addr = CLK_TS_LO.TS_LO.addr →
    ∃ t, exec (.ctrlRequest ini req beats back) s = .next t ∧ t.bus = .value (s.now % 2 ^ 32) ∧ t.get CLK_TS_HI.TS_HI = s.now / 2 ^ 32 ∧ t.on CLK_TS_FB.FB = s.fb ∧ t.ses.sent = [] ∧ RegsOnly [CLK_TS_HI.TS_HI, CLK_TS_FB.FB] s t ∧ Frame [.regs, .ses, .bus] s t) ∧
  (∀ (s : State) (ini : Initiator) (req : BusReq) (beats back : Beats), crosses ini req.addr = true → s.vcFree vcCtrl (b2n (!iniOnTop ini)) = true → s.ctrlWaits (ctrlDir ini) = false → (s.vcFree vcCtrl (1 - ctrlDir ini) && !s.ctrlWaits (1 - ctrlDir ini)) = true → beats.rejected ≤ s.get BRG_CTL.REPLAY_MAX + 1 ∧ back.rejected ≤ s.get BRG_CTL.REPLAY_MAX + 1 → s.coreTraps ini req = false → s.judge ini false req.addr = .allowed → req.write = false → req.amo = none → (regionOf req.addr).isRegs = false → 1 ≤ req.size → req.size ≤ 8 → s.judge ini false (req.addr + req.size - 1) = .allowed → regionOf (req.addr + req.size - 1) = regionOf req.addr → (regionOf req.addr = .keeperMem ∨ regionOf req.addr = .retention ∨ regionOf req.addr = .logMirror ∨ regionOf req.addr = .topSram ∨ regionOf req.addr = .sigTable) →
    ∃ t, exec (.ctrlRequest ini req beats back) s = .next t ∧ t.bus = .value (leNat (memBytes s.mem req.addr req.size)) ∧ t.get BRG_ECC_CNT.CORR = satCount BRG_ECC_CNT.CORR.w (satCount BRG_ECC_CNT.CORR.w (s.get BRG_ECC_CNT.CORR) beats.corrected) back.corrected ∧ t.get BRG_ECC_CNT.UNCORR = satCount BRG_ECC_CNT.UNCORR.w (satCount BRG_ECC_CNT.UNCORR.w (s.get BRG_ECC_CNT.UNCORR) beats.rejected) back.rejected ∧ t.ses.sent = [] ∧ RegsOnly [BRG_ECC_CNT.CORR, BRG_ECC_CNT.UNCORR] s t ∧ Frame [.regs, .brg, .ses, .bus] s t) ∧
  (∀ (s : State) (ini : Initiator) (req : BusReq) (beats back : Beats), crosses ini req.addr = true → s.vcFree vcCtrl (b2n (!iniOnTop ini)) = true → s.ctrlWaits (ctrlDir ini) = false → (s.vcFree vcCtrl (1 - ctrlDir ini) && !s.ctrlWaits (1 - ctrlDir ini)) = true → beats.rejected ≤ s.get BRG_CTL.REPLAY_MAX + 1 ∧ back.rejected ≤ s.get BRG_CTL.REPLAY_MAX + 1 → s.coreTraps ini req = false → s.judge ini true req.addr = .allowed → req.write = true → req.amo = none → (regionOf req.addr).isRegs = false → 1 ≤ req.size → req.size ≤ 8 → s.judge ini true (req.addr + req.size - 1) = .allowed → regionOf (req.addr + req.size - 1) = regionOf req.addr → ((regionOf req.addr = .keeperMem ∨ regionOf req.addr = .retention ∨ regionOf req.addr = .logMirror) ∨ (regionOf req.addr = .topSram ∧ s.textLocked req.addr = false ∧ s.textLocked (req.addr + req.size - 1) = false)) →
    ∃ t, exec (.ctrlRequest ini req beats back) s = .next t ∧ memBytes t.mem req.addr req.size = leBytes req.size req.data ∧ (∀ a, ¬(req.addr ≤ a ∧ a < req.addr + req.size) → memRead t.mem a = memRead s.mem a) ∧ t.bus = .written ∧ t.get BRG_ECC_CNT.CORR = satCount BRG_ECC_CNT.CORR.w (satCount BRG_ECC_CNT.CORR.w (s.get BRG_ECC_CNT.CORR) beats.corrected) back.corrected ∧ t.get BRG_ECC_CNT.UNCORR = satCount BRG_ECC_CNT.UNCORR.w (satCount BRG_ECC_CNT.UNCORR.w (s.get BRG_ECC_CNT.UNCORR) beats.rejected) back.rejected ∧ t.ses.sent = [] ∧ RegsOnly [BRG_ECC_CNT.CORR, BRG_ECC_CNT.UNCORR] s t ∧ Frame [.regs, .brg, .ses, .bus, .mem] s t) ∧
  (∀ (s : State) (ini : Initiator) (req : BusReq) (beats back : Beats), crosses ini req.addr = true → s.vcFree vcCtrl (b2n (!iniOnTop ini)) = true → s.ctrlWaits (ctrlDir ini) = false → s.coreTraps ini req = false → s.judge ini req.write req.addr = .allowed → s.get BRG_CTL.REPLAY_MAX + 1 < beats.rejected →
    ∃ t, exec (.ctrlRequest ini req beats back) s = .next t ∧ t.bus = .error ∧ t.on BRG_STS.REPLAY_EXH = true ∧ t.bridgeUp = false ∧ t.ses.sent = [] ∧ Frame [.regs, .time, .clk, .sil, .nvm, .pwr, .brg, .tw, .seq, .tamp, .cool, .tel, .inf, .otp, .acd, .key, .fw, .ses, .sec, .flash, .bus, .mem, .fresh] s t) ∧
  (∀ (s : State) (ini : Initiator) (req : BusReq) (beats back : Beats), crosses ini req.addr = true → s.coreTraps ini req = false → s.judge ini req.write req.addr = .allowed → (s.vcFree vcCtrl (ctrlDir ini) = false ∨ s.ctrlWaits (ctrlDir ini) = true) →
    ∃ t, exec (.ctrlRequest ini req beats back) s = .next t ∧ t.bus = .held ∧ t.brg = { s.brg with ctrlQ := s.brg.ctrlQ ++ [(ini, req, beats, back)] } ∧ t.ses.sent = [] ∧ Frame [.brg, .ses, .bus] s t) ∧
  (∀ (s : State) (ini : Initiator) (req : BusReq) (beats back : Beats), crosses ini req.addr = true → s.coreTraps ini req = false → s.bridgeWaits ini req = true →
    ∃ t, exec (.ctrlRequest ini req beats back) s = .next t ∧ t.bus = .held ∧ t.brg = { s.brg with ctrlQ := s.brg.ctrlQ ++ [(ini, req, beats, back)] } ∧ t.ses.sent = [] ∧ Frame [.brg, .ses, .bus] s t) ∧
  (∀ (s : State) (ini : Initiator) (req : BusReq) (beats back : Beats), crosses ini req.addr = false → s.coreTraps ini req = false → s.judge ini req.write req.addr = .allowed → req.write = true → req.amo = some .add → regionOf req.addr = .topSram → req.size = 4 → req.addr % 4 = 0 → s.textLocked req.addr = false →
    ∃ t, exec (.ctrlRequest ini req beats back) s = .next t ∧ t.bus = .value (leNat (memBytes s.mem req.addr 4)) ∧ memBytes t.mem req.addr 4 = leBytes 4 ((leNat (memBytes s.mem req.addr 4) + req.data) % 2 ^ 32) ∧ (∀ a, ¬(req.addr ≤ a ∧ a < req.addr + req.size) → memRead t.mem a = memRead s.mem a) ∧ t.ses.sent = [] ∧ Frame [.ses, .bus, .mem] s t) ∧
  (∀ (s : State) (ini : Initiator) (req : BusReq) (beats back : Beats), crosses ini req.addr = false → s.coreTraps ini req = false → s.judge ini req.write req.addr = .allowed → req.amo.isSome = true → (regionOf req.addr).onBase = true →
    ∃ t, exec (.ctrlRequest ini req beats back) s = .next t ∧ t.bus = .error ∧ t.ses.sent = [] ∧ Frame [.ses, .bus] s t) ∧
  (∀ (s : State) (ini : Initiator) (req : BusReq) (beats back : Beats) (h : Nat), pmpHart ini = some h → req.size ≠ 0 → (((regionOf req.addr).isRegs = false ∧ req.addr % req.size ≠ 0) ∨ pmpDenies (s.fw.pmp.getD h []) req.addr req.size req.write = true) →
    ∃ t, exec (.ctrlRequest ini req beats back) s = .next t ∧ t.bus = .trap ∧ t.ses.sent = [] ∧ Frame [.ses, .bus] s t) ∧
  (∀ (s : State) (ini : Initiator) (req : BusReq) (beats back : Beats), crosses ini req.addr = true → s.vcFree vcCtrl (b2n (!iniOnTop ini)) = true → s.ctrlWaits (ctrlDir ini) = false → (s.vcFree vcCtrl (1 - ctrlDir ini) && !s.ctrlWaits (1 - ctrlDir ini)) = false → beats.rejected ≤ s.get BRG_CTL.REPLAY_MAX + 1 ∧ back.rejected ≤ s.get BRG_CTL.REPLAY_MAX + 1 → s.coreTraps ini req = false → s.judge ini false req.addr = .allowed → req.write = false → req.amo = none → (regionOf req.addr).isRegs = false → 1 ≤ req.size → req.size ≤ 8 → s.judge ini false (req.addr + req.size - 1) = .allowed → regionOf (req.addr + req.size - 1) = regionOf req.addr → (regionOf req.addr = .keeperMem ∨ regionOf req.addr = .retention ∨ regionOf req.addr = .logMirror ∨ regionOf req.addr = .topSram ∨ regionOf req.addr = .sigTable) →
    ∃ t, exec (.ctrlRequest ini req beats back) s = .next t ∧ t.bus = .held ∧ t.brg.backQ = s.brg.backQ ++ [(ini, req, back, .value (leNat (memBytes s.mem req.addr req.size)))] ∧ t.brg.ctrlQ = s.brg.ctrlQ ∧ t.ses.sent = [] ∧ RegsOnly [BRG_ECC_CNT.CORR, BRG_ECC_CNT.UNCORR] s t ∧ Frame [.regs, .brg, .ses, .bus] s t) ∧
  (∀ (s : State) (ini : Initiator) (req : BusReq) (beats back : Beats) (d : Nat), crosses ini req.addr = true → s.vcFree vcCtrl (b2n (!iniOnTop ini)) = true → s.ctrlWaits (ctrlDir ini) = false → beats.rejected ≤ s.get BRG_CTL.REPLAY_MAX + 1 → s.coreTraps ini req = false → s.judge ini req.write req.addr = .allowed → req.amo = none → (regionOf req.addr).isRegs = false → 1 ≤ req.size → req.size ≤ 8 → s.judge ini req.write (req.addr + req.size - 1) = .allowed → regionOf (req.addr + req.size - 1) = regionOf req.addr → gateDomain (regionOf req.addr) req.addr = some d → s.gated d = false → bitOf (s.get CLK_GATE_REQ.REQ) d = true →
    ∃ t, exec (.ctrlRequest ini req beats back) s = .next t ∧ t.bus = .held ∧ t.clk = { s.clk with held := s.clk.held ++ [(ini, req, back)] } ∧ t.ses.sent = [] ∧ RegsOnly [BRG_ECC_CNT.CORR, BRG_ECC_CNT.UNCORR] s t ∧ Frame [.regs, .clk, .brg, .ses, .bus] s t) ∧
  (∀ (s : State) (ini : Initiator) (req : BusReq), s.coreTraps ini req = false → s.judge ini req.write req.addr = .forbidden → (iniOnTop ini && (regionOf req.addr).onBase) = false →
    ∃ t, exec (.forbiddenAccess ini req) s = .next t ∧ t.bus = .error ∧ Frame [.bus] s t) ∧
  (∀ (s : State) (ini : Initiator) (req : BusReq), s.coreTraps ini req = false → s.judge ini req.write req.addr = .forbidden → (iniOnTop ini && (regionOf req.addr).onBase) = true →
    ∃ t, exec (.forbiddenAccess ini req) s = .next t ∧ t.bus = .error ∧ t.on BRG_STS.BLOCKED = true ∧ t.sil = (s.log EVT_BRG_BLOCKED ACC_TRAY UNIT_BRG 0 [(0, 8, req.addr), (8, 1, b2n req.write), (9, 1, iniByte ini)]).sil ∧ RegsOnly [BRG_STS.BLOCKED] s t ∧ Frame [.regs, .sil, .bus] s t) ∧
  (∀ (s : State) (ini : Initiator) (req : BusReq), (s.judge ini req.write req.addr ≠ .forbidden ∨ s.coreTraps ini req = true) → exec (.forbiddenAccess ini req) s = .next s)

/-- A request that crosses the Bridge, is allowed, and receives no completion in time completes at its initiator with a bus error, sets RD_TIMEOUT and logs EVT_BRG_TIMEOUT with the address, the direction and the initiator. Both cases of a write are possible, by the operand: one that has not taken effect, like a read, changes nothing else; one that has leaves memory and registers as the access itself leaves them (RD_TIMEOUT apart), and a memory write has then stored its bytes and no others. A request that waits unsent, also of the Top die for a Bridge in TRAIN or FENCED (log entry 14), leaves its queue and has no effect. So does one whose completion waits (log entry 14). A request that does not cross the Bridge, is not allowed or traps in its core does not time out: it sends nothing and changes nothing. -/
def Obligations.CtrlRequestsTimeOut : Prop :=
  (∀ (s : State) (ini : Initiator) (req : BusReq) (applied : Bool), crosses ini req.addr = true → s.coreTraps ini req = false → s.judge ini req.write req.addr = .allowed → (req.write && applied) = false →
    ∃ t, exec (.ctrlTimeout ini req applied) s = .next t ∧ (((∀ e ∈ s.brg.ctrlQ, ¬(e.1 = ini ∧ e.2.1 = req)) ∧ (∀ e ∈ s.brg.backQ, ¬(e.1 = ini ∧ e.2.1 = req))) → t.brg = s.brg) ∧ t.bus = .error ∧ t.on BRG_STS.RD_TIMEOUT = true ∧ t.sil = (s.log EVT_BRG_TIMEOUT ACC_TRAY UNIT_BRG 0 [(0, 8, req.addr), (8, 1, b2n req.write), (9, 1, iniByte ini)]).sil ∧ t.ses.sent = [] ∧ RegsOnly [BRG_STS.RD_TIMEOUT] s t ∧ Frame [.regs, .sil, .brg, .ses, .bus] s t) ∧
  (∀ (s : State) (ini : Initiator) (req : BusReq) (applied : Bool), crosses ini req.addr = true → s.coreTraps ini req = false → (s.bridgeWaits ini req = true ∨ s.judge ini req.write req.addr = .allowed) → (∃ e ∈ s.brg.ctrlQ, e.1 = ini ∧ e.2.1 = req) →
    ∃ t, exec (.ctrlTimeout ini req applied) s = .next t ∧ t.brg.ctrlQ.length + 1 = s.brg.ctrlQ.length ∧ t.brg.backQ = s.brg.backQ ∧ t.bus = .error ∧ t.on BRG_STS.RD_TIMEOUT = true ∧ t.sil = (s.log EVT_BRG_TIMEOUT ACC_TRAY UNIT_BRG 0 [(0, 8, req.addr), (8, 1, b2n req.write), (9, 1, iniByte ini)]).sil ∧ t.ses.sent = [] ∧ RegsOnly [BRG_STS.RD_TIMEOUT] s t ∧ Frame [.regs, .sil, .brg, .ses, .bus] s t) ∧
  (∀ (s : State) (ini : Initiator) (req : BusReq) (applied : Bool), crosses ini req.addr = true → s.coreTraps ini req = false → s.judge ini req.write req.addr = .allowed → (∀ e ∈ s.brg.ctrlQ, ¬(e.1 = ini ∧ e.2.1 = req)) → (∃ e ∈ s.brg.backQ, e.1 = ini ∧ e.2.1 = req) →
    ∃ t, exec (.ctrlTimeout ini req applied) s = .next t ∧ t.brg.backQ.length + 1 = s.brg.backQ.length ∧ t.brg.ctrlQ = s.brg.ctrlQ ∧ t.bus = .error ∧ t.on BRG_STS.RD_TIMEOUT = true ∧ t.sil = (s.log EVT_BRG_TIMEOUT ACC_TRAY UNIT_BRG 0 [(0, 8, req.addr), (8, 1, b2n req.write), (9, 1, iniByte ini)]).sil ∧ t.ses.sent = [] ∧ RegsOnly [BRG_STS.RD_TIMEOUT] s t ∧ Frame [.regs, .sil, .brg, .ses, .bus] s t) ∧
  (∀ (s : State) (ini : Initiator) (req : BusReq) (applied : Bool), crosses ini req.addr = true → s.coreTraps ini req = false → (∀ e ∈ s.brg.ctrlQ, ¬(e.1 = ini ∧ e.2.1 = req)) ∧ (∀ e ∈ s.brg.backQ, ¬(e.1 = ini ∧ e.2.1 = req)) → applied = true → s.judge ini true req.addr = .allowed → req.write = true →
    ∃ t, exec (.ctrlTimeout ini req applied) s = .next t ∧ t.bus = .error ∧ t.on BRG_STS.RD_TIMEOUT = true ∧ t.sil = ((s.sendBegin.access ini req).log EVT_BRG_TIMEOUT ACC_TRAY UNIT_BRG 0 [(0, 8, req.addr), (8, 1, b2n req.write), (9, 1, iniByte ini)]).sil ∧ t.mem = (s.sendBegin.access ini req).mem ∧ RegsOnly [BRG_STS.RD_TIMEOUT] (s.sendBegin.access ini req) t ∧ Frame [.regs, .time, .clk, .sil, .nvm, .pwr, .brg, .tw, .seq, .tamp, .cool, .tel, .inf, .otp, .acd, .key, .fw, .ses, .sec, .flash, .bus, .mem, .fresh] s t) ∧
  (∀ (s : State) (ini : Initiator) (req : BusReq) (applied : Bool), crosses ini req.addr = true → (∀ e ∈ s.brg.ctrlQ, ¬(e.1 = ini ∧ e.2.1 = req)) ∧ (∀ e ∈ s.brg.backQ, ¬(e.1 = ini ∧ e.2.1 = req)) → applied = true → s.coreTraps ini req = false → s.judge ini true req.addr = .allowed → req.write = true → req.amo = none → (regionOf req.addr).isRegs = false → 1 ≤ req.size → req.size ≤ 8 → s.judge ini true (req.addr + req.size - 1) = .allowed → regionOf (req.addr + req.size - 1) = regionOf req.addr → ((regionOf req.addr = .keeperMem ∨ regionOf req.addr = .retention ∨ regionOf req.addr = .logMirror) ∨ (regionOf req.addr = .topSram ∧ s.textLocked req.addr = false ∧ s.textLocked (req.addr + req.size - 1) = false)) →
    ∃ t, exec (.ctrlTimeout ini req applied) s = .next t ∧ t.bus = .error ∧ t.on BRG_STS.RD_TIMEOUT = true ∧ memBytes t.mem req.addr req.size = leBytes req.size req.data ∧ (∀ a, ¬(req.addr ≤ a ∧ a < req.addr + req.size) → memRead t.mem a = memRead s.mem a) ∧ t.ses.sent = [] ∧ RegsOnly [BRG_STS.RD_TIMEOUT] s t ∧ Frame [.regs, .sil, .ses, .bus, .mem] s t) ∧
  (∀ (s : State) (ini : Initiator) (req : BusReq) (applied : Bool), (crosses ini req.addr = false ∨ (s.judge ini req.write req.addr ≠ .allowed ∧ s.bridgeWaits ini req = false) ∨ s.coreTraps ini req = true) →
    ∃ t, exec (.ctrlTimeout ini req applied) s = .next t ∧ t.ses.sent = [] ∧ Frame [.ses] s t)

/-- For either controller (Control cores and Keepers), by an access on its own die that its core lets through: a write of a source's priority (1 to 63; source 0 takes none) keeps it modulo 8, a write of an enable word sets the 32 enables of its context (that of source 0 stays 0), a write of a threshold keeps it modulo 8, and of each nothing else changes. A read of a context's claim register answers 0 where no raised source that is enabled for the context, not in service and of a priority above 0 waits, and then changes nothing; else it answers the one of the highest priority, of equals the lowest number, which is then in service for the context, no more pending, and its edge is taken. A write of a source to the claim register ends its service, whoever claimed it, where the source is enabled for the context, and is ignored where it is not. A pending word shows the raised sources that are not in service. A write of half of a core's mtimecmp replaces that half and no other core's; mtime reads the die's time in ns (R396) and takes no write. The offsets, that claims look at no threshold, and mtimecmp beside the controller are the model's, from outside the spec (PRESUMED; log entry 53); R397 names the RISC-V specification and its sources, priorities 0 to 7. -/
def Obligations.InterruptControllersAndTimers : Prop :=
  (∀ (s : State) (ini : Initiator) (kpr : Bool) (w : Nat) (beats back : Beats) (req : BusReq) (k : Nat), req = { write := true, addr := (if kpr then 0x00200A8000 else 0x0140010000) + 4 * k, size := 4, data := w, uncorr := false, corr := 0 } → crosses ini req.addr = false → s.coreTraps ini req = false → s.judge ini true req.addr = .allowed → w < 2 ^ 32 → 0 < k → k < 64 → (s.plicOf kpr).prio.length = 64 →
    ∃ t, exec (.ctrlRequest ini req beats back) s = .next t ∧ (∀ j < 64, (t.plicOf kpr).prio.getD j 0 = (if j = k then w % 8 else (s.plicOf kpr).prio.getD j 0)) ∧ (t.plicOf (!kpr) = s.plicOf (!kpr)) ∧ t.bus = .written ∧ (t.plicOf kpr).en = (s.plicOf kpr).en ∧ (t.plicOf kpr).thr = (s.plicOf kpr).thr ∧ (t.plicOf kpr).claims = (s.plicOf kpr).claims ∧ t.fw.irq = s.fw.irq ∧ t.fw.kirq = s.fw.kirq ∧ t.fw.mtimecmp = s.fw.mtimecmp ∧ t.fw.pmp = s.fw.pmp ∧ t.ses.sent = [] ∧ Frame [.fw, .ses, .bus] s t) ∧
  (∀ (s : State) (ini : Initiator) (kpr : Bool) (w : Nat) (beats back : Beats) (req : BusReq), req = { write := true, addr := (if kpr then 0x00200A8000 else 0x0140010000), size := 4, data := w, uncorr := false, corr := 0 } → crosses ini req.addr = false → s.coreTraps ini req = false → s.judge ini true req.addr = .allowed → w < 2 ^ 32 →
    ∃ t, exec (.ctrlRequest ini req beats back) s = .next t ∧ (t.plicOf (!kpr) = s.plicOf (!kpr)) ∧ t.fw = s.fw ∧ t.bus = .written ∧ t.ses.sent = [] ∧ Frame [.fw, .ses, .bus] s t) ∧
  (∀ (s : State) (ini : Initiator) (kpr : Bool) (w : Nat) (beats back : Beats) (req : BusReq) (ctx i : Nat), req = { write := true, addr := (if kpr then 0x00200A8000 else 0x0140010000) + 0x2000 + 0x80 * ctx + 4 * i, size := 4, data := w, uncorr := false, corr := 0 } → crosses ini req.addr = false → s.coreTraps ini req = false → s.judge ini true req.addr = .allowed → w < 2 ^ 32 → ctx < (if kpr then 2 else 4) → i < 2 → (s.plicOf kpr).en.length = 4 →
    ∃ t, exec (.ctrlRequest ini req beats back) s = .next t ∧ (∀ k < 64, bitOf ((t.plicOf kpr).en.getD ctx 0) k = (if k / 32 = i then decide (k ≠ 0) && bitOf w (k % 32) else bitOf ((s.plicOf kpr).en.getD ctx 0) k)) ∧ (∀ c < 4, c ≠ ctx → (t.plicOf kpr).en.getD c 0 = (s.plicOf kpr).en.getD c 0) ∧ (t.plicOf (!kpr) = s.plicOf (!kpr)) ∧ t.bus = .written ∧ (t.plicOf kpr).prio = (s.plicOf kpr).prio ∧ (t.plicOf kpr).thr = (s.plicOf kpr).thr ∧ (t.plicOf kpr).claims = (s.plicOf kpr).claims ∧ t.fw.irq = s.fw.irq ∧ t.fw.kirq = s.fw.kirq ∧ t.fw.mtimecmp = s.fw.mtimecmp ∧ t.fw.pmp = s.fw.pmp ∧ t.ses.sent = [] ∧ Frame [.fw, .ses, .bus] s t) ∧
  (∀ (s : State) (ini : Initiator) (kpr : Bool) (w : Nat) (beats back : Beats) (req : BusReq) (ctx : Nat), req = { write := true, addr := (if kpr then 0x00200A8000 else 0x0140010000) + 0x3000 + 8 * ctx, size := 4, data := w, uncorr := false, corr := 0 } → crosses ini req.addr = false → s.coreTraps ini req = false → s.judge ini true req.addr = .allowed → w < 2 ^ 32 → ctx < (if kpr then 2 else 4) → (s.plicOf kpr).thr.length = 4 →
    ∃ t, exec (.ctrlRequest ini req beats back) s = .next t ∧ (∀ c < 4, (t.plicOf kpr).thr.getD c 0 = (if c = ctx then w % 8 else (s.plicOf kpr).thr.getD c 0)) ∧ (t.plicOf (!kpr) = s.plicOf (!kpr)) ∧ t.bus = .written ∧ (t.plicOf kpr).prio = (s.plicOf kpr).prio ∧ (t.plicOf kpr).en = (s.plicOf kpr).en ∧ (t.plicOf kpr).claims = (s.plicOf kpr).claims ∧ t.fw.irq = s.fw.irq ∧ t.fw.kirq = s.fw.kirq ∧ t.fw.mtimecmp = s.fw.mtimecmp ∧ t.fw.pmp = s.fw.pmp ∧ t.ses.sent = [] ∧ Frame [.fw, .ses, .bus] s t) ∧
  (∀ (s : State) (ini : Initiator) (kpr : Bool) (w : Nat) (beats back : Beats) (req : BusReq) (ctx : Nat), req = { write := true, addr := (if kpr then 0x00200A8000 else 0x0140010000) + 0x3004 + 8 * ctx, size := 4, data := w, uncorr := false, corr := 0 } → crosses ini req.addr = false → s.coreTraps ini req = false → s.judge ini true req.addr = .allowed → w < 2 ^ 32 → ctx < (if kpr then 2 else 4) → bitOf ((s.plicOf kpr).en.getD ctx 0) w = true →
    ∃ t, exec (.ctrlRequest ini req beats back) s = .next t ∧ (t.plicOf kpr).claims = (s.plicOf kpr).claims.filter (fun e => e.1 != w) ∧ (t.plicOf (!kpr) = s.plicOf (!kpr)) ∧ t.bus = .written ∧ (t.plicOf kpr).prio = (s.plicOf kpr).prio ∧ (t.plicOf kpr).en = (s.plicOf kpr).en ∧ (t.plicOf kpr).thr = (s.plicOf kpr).thr ∧ t.fw.irq = s.fw.irq ∧ t.fw.kirq = s.fw.kirq ∧ t.fw.mtimecmp = s.fw.mtimecmp ∧ t.fw.pmp = s.fw.pmp ∧ t.ses.sent = [] ∧ Frame [.fw, .ses, .bus] s t) ∧
  (∀ (s : State) (ini : Initiator) (kpr : Bool) (w : Nat) (beats back : Beats) (req : BusReq) (ctx : Nat), req = { write := true, addr := (if kpr then 0x00200A8000 else 0x0140010000) + 0x3004 + 8 * ctx, size := 4, data := w, uncorr := false, corr := 0 } → crosses ini req.addr = false → s.coreTraps ini req = false → s.judge ini true req.addr = .allowed → w < 2 ^ 32 → ctx < (if kpr then 2 else 4) → bitOf ((s.plicOf kpr).en.getD ctx 0) w = false →
    ∃ t, exec (.ctrlRequest ini req beats back) s = .next t ∧ t.fw = s.fw ∧ t.bus = .written ∧ t.ses.sent = [] ∧ Frame [.fw, .ses, .bus] s t) ∧
  (∀ (s : State) (ini : Initiator) (kpr : Bool) (w : Nat) (beats back : Beats) (req : BusReq) (ctx : Nat), req = { write := false, addr := (if kpr then 0x00200A8000 else 0x0140010000) + 0x3004 + 8 * ctx, size := 4, data := 0, uncorr := false, corr := 0 } → crosses ini req.addr = false → s.coreTraps ini req = false → s.judge ini false req.addr = .allowed → w < 2 ^ 32 → ctx < (if kpr then 2 else 4) → ((∀ k < 64, (k ≠ 0 ∧ bitOf (s.raised kpr) k = true ∧ bitOf ((s.plicOf kpr).en.getD ctx 0) k = true ∧ (∀ e ∈ (s.plicOf kpr).claims, e.1 ≠ k) → (s.plicOf kpr).prio.getD k 0 ≤ (s.plicOf kpr).prio.getD 0 0))) → (s.plicOf kpr).prio.getD 0 0 = 0 →
    ∃ t, exec (.ctrlRequest ini req beats back) s = .next t ∧ t.bus = .value 0 ∧ t.fw = s.fw ∧ t.ses.sent = [] ∧ Frame [.fw, .ses, .bus] s t) ∧
  (∀ (s : State) (ini : Initiator) (kpr : Bool) (w : Nat) (beats back : Beats) (req : BusReq) (ctx v : Nat), req = { write := false, addr := (if kpr then 0x00200A8000 else 0x0140010000) + 0x3004 + 8 * ctx, size := 4, data := 0, uncorr := false, corr := 0 } → crosses ini req.addr = false → s.coreTraps ini req = false → s.judge ini false req.addr = .allowed → w < 2 ^ 32 → ctx < (if kpr then 2 else 4) → v ≠ 0 → v < 64 → bitOf (s.raised kpr) v = true → bitOf ((s.plicOf kpr).en.getD ctx 0) v = true → (∀ e ∈ (s.plicOf kpr).claims, e.1 ≠ v) → (s.plicOf kpr).prio.getD 0 0 < (s.plicOf kpr).prio.getD v 0 → ((∀ k < 64, (k ≠ 0 ∧ k ≠ v ∧ bitOf (s.raised kpr) k = true ∧ bitOf ((s.plicOf kpr).en.getD ctx 0) k = true ∧ (∀ e ∈ (s.plicOf kpr).claims, e.1 ≠ k) → (s.plicOf kpr).prio.getD k 0 < (s.plicOf kpr).prio.getD v 0 ∨ ((s.plicOf kpr).prio.getD k 0 = (s.plicOf kpr).prio.getD v 0 ∧ v < k)))) →
    ∃ t, exec (.ctrlRequest ini req beats back) s = .next t ∧ t.bus = .value v ∧ (t.plicOf kpr).claims = (v, ctx) :: (s.plicOf kpr).claims ∧ bitOf ((t.plicOf kpr).pending (t.raised kpr)) v = false ∧ (if kpr then t.fw.kirq = setBitOf s.fw.kirq v false ∧ t.fw.irq = s.fw.irq else t.fw.irq = setBitOf s.fw.irq v false ∧ t.fw.kirq = s.fw.kirq) ∧ (t.plicOf (!kpr) = s.plicOf (!kpr)) ∧ (t.plicOf kpr).prio = (s.plicOf kpr).prio ∧ (t.plicOf kpr).en = (s.plicOf kpr).en ∧ (t.plicOf kpr).thr = (s.plicOf kpr).thr ∧ t.fw.mtimecmp = s.fw.mtimecmp ∧ t.fw.pmp = s.fw.pmp ∧ t.ses.sent = [] ∧ Frame [.fw, .ses, .bus] s t) ∧
  (∀ (s : State) (ini : Initiator) (kpr : Bool) (w : Nat) (beats back : Beats) (req : BusReq) (i : Nat), req = { write := false, addr := (if kpr then 0x00200A8000 else 0x0140010000) + 0x1000 + 4 * i, size := 4, data := 0, uncorr := false, corr := 0 } → crosses ini req.addr = false → s.coreTraps ini req = false → s.judge ini false req.addr = .allowed → w < 2 ^ 32 → i < 2 →
    ∃ t, exec (.ctrlRequest ini req beats back) s = .next t ∧ t.bus = .value ((s.plicOf kpr).pending (s.raised kpr) / 2 ^ (32 * i) % 2 ^ 32) ∧ t.fw = s.fw ∧ t.ses.sent = [] ∧ Frame [.fw, .ses, .bus] s t) ∧
  (∀ (s : State) (ini : Initiator) (kpr : Bool) (w : Nat) (beats back : Beats) (req : BusReq) (c h : Nat), req = { write := true, addr := (if kpr then 0x00200AC008 else 0x0140020008) + 8 * c + 4 * h, size := 4, data := w, uncorr := false, corr := 0 } → crosses ini req.addr = false → s.coreTraps ini req = false → s.judge ini true req.addr = .allowed → w < 2 ^ 32 → c < (if kpr then 2 else 4) → h < 2 → s.fw.mtimecmp.length = 6 →
    ∃ t, exec (.ctrlRequest ini req beats back) s = .next t ∧ (∀ j < 6, t.fw.mtimecmp.getD j 0 = (if j = c + (if kpr then 4 else 0) then (if h = 0 then s.fw.mtimecmp.getD j 0 / 2 ^ 32 * 2 ^ 32 + w else s.fw.mtimecmp.getD j 0 % 2 ^ 32 + 2 ^ 32 * w) else s.fw.mtimecmp.getD j 0)) ∧ t.fw.plic = s.fw.plic ∧ t.fw.kplic = s.fw.kplic ∧ t.bus = .written ∧ t.fw.irq = s.fw.irq ∧ t.fw.kirq = s.fw.kirq ∧ t.fw.pmp = s.fw.pmp ∧ t.ses.sent = [] ∧ Frame [.fw, .ses, .bus] s t) ∧
  (∀ (s : State) (ini : Initiator) (kpr : Bool) (w : Nat) (beats back : Beats) (req : BusReq) (h : Nat), req = { write := false, addr := (if kpr then 0x00200AC000 else 0x0140020000) + 4 * h, size := 4, data := 0, uncorr := false, corr := 0 } → crosses ini req.addr = false → s.coreTraps ini req = false → s.judge ini false req.addr = .allowed → w < 2 ^ 32 → h < 2 →
    ∃ t, exec (.ctrlRequest ini req beats back) s = .next t ∧ t.bus = .value ((if kpr then s.now else s.topNow) / 2 ^ (32 * h) % 2 ^ 32) ∧ t.fw = s.fw ∧ t.ses.sent = [] ∧ Frame [.fw, .ses, .bus] s t) ∧
  (∀ (s : State) (ini : Initiator) (kpr : Bool) (w : Nat) (beats back : Beats) (req : BusReq) (h : Nat), req = { write := true, addr := (if kpr then 0x00200AC000 else 0x0140020000) + 4 * h, size := 4, data := w, uncorr := false, corr := 0 } → crosses ini req.addr = false → s.coreTraps ini req = false → s.judge ini true req.addr = .allowed → w < 2 ^ 32 → h < 2 →
    ∃ t, exec (.ctrlRequest ini req beats back) s = .next t ∧ t.fw = s.fw ∧ t.bus = .written ∧ t.ses.sent = [] ∧ Frame [.fw, .ses, .bus] s t)

/-- A read of a register, on its die, or across the Bridge with nothing waiting before it and within the allowed replays, that its core lets through, answers a word in which every bit that no field of the register holds is 0; at an unassigned offset it answers 0. Two register writes whose words agree on the bits of the fields have the same outcome, whatever stands in the reserved bits; a write to an unassigned offset changes nothing. One of these, or a read or write of memory, at an address outside every region completes with a bus error where its core does not trap (log entry 53), and neither registers nor memory change. The registers of the two interrupt controllers and of the timers, which the spec places but does not lay out, are left out of the clauses on registers (log entry 53). -/
def Obligations.ReservedBitsAndUnassignedOffsets : Prop :=
  (∀ (s : State) (ini : Initiator) (a : Nat) (beats back : Beats), s.coreTraps ini { write := false, addr := a, size := 4, data := 0, uncorr := false, corr := 0 } = false → s.judge ini false a = .allowed → (regionOf a).isRegs = true → a % 4 = 0 → plicRange a = false →
    (crosses ini a = true → (∀ d < 2, s.vcFree vcCtrl d = true ∧ s.ctrlWaits d = false)) →
    beats.rejected ≤ s.get BRG_CTL.REPLAY_MAX + 1 → back.rejected ≤ s.get BRG_CTL.REPLAY_MAX + 1 →
    ∃ t v, exec (.ctrlRequest ini { write := false, addr := a, size := 4, data := 0, uncorr := false, corr := 0 } beats back) s = .next t ∧ t.bus = .value v ∧
      (∀ i, (∀ f ∈ fieldsAt a, i < f.lo ∨ f.lo + f.w ≤ i) → bitOf v i = false) ∧ (fieldsAt a = [] → v = 0)) ∧
  (∀ (s : State) (ini : Initiator) (a : Nat) (v w : Word), (regionOf a).isRegs = true → plicRange a = false →
    (∀ f ∈ fieldsAt a, bitsOf v.toNat f.lo f.w = bitsOf w.toNat f.lo f.w) → exec (.registerWrite ini a v) s = exec (.registerWrite ini a w) s) ∧
  (∀ (s : State) (ini : Initiator) (a : Nat) (v : Word), s.coreTraps ini (wordReq a v) = false → s.judge ini true a = .allowed → (regionOf a).isRegs = true → a % 4 = 0 → plicRange a = false → fieldsAt a = [] →
    ∃ t, exec (.registerWrite ini a v) s = .next t ∧ t.bus = .written ∧ Frame [.bus, .ses] s t) ∧
  (∀ (s : State) (ini : Initiator) (req : BusReq) (beats back : Beats), s.coreTraps ini req = false → regionOf req.addr = .hole →
    ∃ t, exec (.ctrlRequest ini req beats back) s = .next t ∧ t.bus = .error ∧ Frame [.bus, .ses] s t) ∧
  (∀ (s : State) (ini : Initiator) (a : Nat) (v : Word), s.coreTraps ini (wordReq a v) = false → regionOf a = .hole →
    ∃ t, exec (.registerWrite ini a v) s = .next t ∧ t.bus = .error ∧ Frame [.bus, .ses] s t)

/-- For every command c, state s and rest of a queue: the step of s with c in front is exec of c on s with the rest. With nothing waiting a step completes and nothing waits after it; one period of the base clock passes, and where no access, request, completion or back-channel transaction is held, no crashed core's lock word is due, no 100 us sample of the cap loop is due and no core has crashed four times in 60 s, every part of the state but the time stays and the timestamp does not fall (log entry 3: the model's choice). No word spells a command, since the table gives its rows no bits (log entry 1). -/
def Obligations.StepRunsTheFrontOfTheQueue : Prop :=
  (∀ (c : Instr) (rest : List Instr) (s : State), step { s with pending := c :: rest } = exec c { s with pending := rest }) ∧
  (∀ (s : State), s.pending = [] → ∃ t, step s = .next t ∧ t.pending = []) ∧
  (∀ (s : State), s.pending = [] → s.clk.held = [] → s.brg.ctrlQ = [] → s.brg.backQ = [] → s.sec.waits = [] →
    (∀ n < 8, (s.link n).bcHeld = false ∧ (s.link n).bcRes = none) → s.fw.lockDue = 0 → s.fw.caps.tick = s.tickBase.topNow / 100000 → (∀ c < 4, s.fourCrashes c = false) →
    step s = .next s.tickBase ∧ Frame [.time] s s.tickBase ∧ s.time.ts ≤ s.tickBase.time.ts) ∧
  (∀ (s : State) (nbits w : Nat), decodeTableWord nbits w = none ∧ s.withFetchWord nbits w = s)

/-- For every state s, reachable or not, in which memory lists strictly rising addresses and no byte equal to what an unlisted address reads as, and the register file lists strictly rising keys: whatever command a step runs, the next state has the same form. So equal contents are equal data after any command. -/
def Obligations.StepKeepsTheCanonicalForm : Prop :=
  ∀ s t : State, s.Inv → step s = .next t → t.Inv

/-- For every state s, reachable or not, whose tables have the numbers of entries that the spec gives the machine (12 two-wire ports, 8 links, 64 Tamp ports, 30 duty channels, 16 leak channels, 32 consumables, 6 pumps, 16 program slots, 4 clusters, 6 timers, 64 sources and 4 contexts of each interrupt controller): whatever command a step runs, the next state has them too. Other statements take these numbers as premises; reset has them (ResetLeavesTheSpecsValues). -/
def Obligations.StepKeepsTheTables : Prop :=
  ∀ s t : State, s.tables → step s = .next t → t.tables

/-- Reset meets the two invariants; no command waits; at every address of the register map every field reads the reset value that its register table gives; those values that are not 0 are named here by field and number. A field whose table gives no number (from OTP, from NVM, cause, sampled) stands at 0 until the cold POR sets it, which is the model's choice (log entry 6). Sillage is in START-UP with an empty ring and record number 0; memory lists nothing, TOPPWR_EN is low and no session is open. What else the spec leaves open at reset is the model's choice (log entry 5) and not stated. -/
def Obligations.ResetLeavesTheSpecsValues : Prop :=
  State.reset.Inv ∧ State.reset.tables ∧ State.reset.pending = [] ∧ (∀ a, ∀ f ∈ fieldsAt a, State.reset.get f = f.rst) ∧
    (∀ p ∈ ([(BRG_CTL.REPLAY_MAX, 2), (BRG_CTL.LIVE_TO, 1), (BRG_CTL.RD_TO, 1), (BRG_STS.GUARD_STALE, 1), (BRG_HOLD.HOLD, 4),
      (BRG_HOLD.STEP, 10), (BRG_LOG_MSEQ.MSEQ, 4294967295), (ACD_STS.FAIL_REC, 65535), (CLK_CTL.AUTO_RET, 1),
      (CLK_STS.BASE_SRC, 1), (CLK_STS.FB, 1), (CLK_MON_CFG.RET_WIN, 64), (CLK_MON_CFG.FLAP_MAX, 4),
      (CLK_LFO_CAL.PERIOD, 7812500), (CLK_TS_FB.FB, 1), (CLK_FMC_CTL.REF, 2), (CLK_FMC_CTL.GATE, 10), (PWRST_STATE.CUR, 2),
      (PWRST_STATE.TGT, 2), (PWRST_BO_CTL.BOW_IE, 1), (PWRST_TOP_CFG.PG_TO, 3), (PWRST_TOP_CFG.MAX_FAIL, 3),
      (INF_CAP.TILES, 32), (INF_CAP.CLUSTERS, 4), (INF_CAP.SLOTS, 16)] : List (Fld × Nat)), State.reset.get p.1 = p.2) ∧
    (∀ p ∈ ([(INF_CAP.VER, 1), (TFAB_REC_CFG.BW, 96), (TFAB_REC_CFG.FLUSH, 2), (TFAB_REC_CFG.POST, 1024), (TFAB_REC_TSRC.UNIT, 31),
      (LPC_CFG.RATE, 2), (TAMP_CTL.STALE_AGE, 7), (SEQ_RSTO.ASSERTED, 65535), (SEQ_FFR_INFO.RAIL, 127), (COOL_STS.FORCED, 1),
      (COOL_STS.F_START, 1), (COOL_HWDT_CFG.PERIOD, 8), (COOL_A3_DUTY.FAN, 31), (COOL_A3_DUTY.PUMP, 31), (SES_CFG.HB_PER, 3),
      (SES_STS.BND, 1), (KEY_DEVID.STEPPING, 2), (KEY_DEVID.PART, 33824), (FW_TOPWDT_CFG.PERIOD, 4), (KPR_WDT_CFG.PERIOD, 4),
      (KPR_WDT_CFG.MASK, 1), (SIL_STS.MODE, 1), (SIL_CFG.FREEZE_MAX, 2)] : List (Fld × Nat)), State.reset.get p.1 = p.2) ∧
    (∀ n i : Nat, ∀ p ∈ ([(INF_SLOT_ADCFG.WIN n, 3), (INF_SLOT_ADCFG.ROLL_MAX n, 2), (HNT_ACC_LVL.TOKENS n, 32), (TL_CTL.AUTO_RETRAIN n, 1),
      (TL_CTL.MAX_TRY n, 3), (TFAB_TRG_CFG.LVL n, 1), (TAMP_TEMP.TEMP n, 32768), (TAMP_CAUSE.SRC n, 511),
      (TAMP_CLAMP.PH_MIN n, 1), (TAMP_AIN_SCL.GAIN n, 4096), (TAMP_ANA.THR n, 255), (TAMP_ANA.SCOPE n, 15),
      (TAMP_COMB_CFG.OUT n, 32768), (TAMP_CMP_CFG.SCOPE n, 15), (TAMP_CMP_CFG.PERSIST n, 15), (TAMP_LIM_AMB.LIM n, 32767),
      (TAMP_LIM_RED.LIM n, 32767), (TAMP_LIM_BLK.LIM n, 32767), (SEQ_TRIM.CODE n, 512), (COOL_ZONE_CFG.BOOST n, 100),
      (COOL_CURVE_PT.LEVEL n i, 100), (COOL_FAN_CFG.PPR n, 1), (COOL_FAN_LOOP.KP n, 32), (COOL_FAN_LOOP.KI n, 8),
      (COOL_FAN_LOOP.SLEW n, 20)] : List (Fld × Nat)), State.reset.get p.1 = p.2) ∧
    (∀ n i : Nat, ∀ p ∈ ([(COOL_FAN_LOOP.DUTY_MIN n, 40), (COOL_FAN_SENSE.I_HI n, 4095), (COOL_FAN_DUTY.OUT n, 1000),
      (COOL_PMP_CFG.PARTNER n, 6), (COOL_PMP_CFG.FLW n, 6), (COOL_PMP_CFG.FLOW_TO n, 3), (COOL_PMP_CFG.SIG n, 65),
      (COOL_PMP_SET.TSET n, 11520), (COOL_PMP_LOOP.KP n, 64), (COOL_PMP_LOOP.KI n, 16), (COOL_PMP_LOOP.DMIN n, 40),
      (COOL_PMP_LOOP.DMAX n, 200), (COOL_PMP_MEAS.OUT n, 1000), (COOL_FLW_RATE.NOSIG n, 1), (COOL_LK_CFG.PERSIST n, 2),
      (COOL_LK_STS.IMP n, 16777215), (TW_CFG.ARB_RETRY n, 3), (TW_CFG.MAX_CYC n, 2), (TW_CFG.SEG_OFF n, 3),
      (TW_CFG.SEG_SETTLE n, 3), (TW_TGT_MASK.MASK n, 127), (TW_STS.SCL n, 1), (TW_STS.SDA n, 1), (NET_CFG.AN n, 1),
      (FW_WDT_CFG.EN n, 1)] : List (Fld × Nat)), State.reset.get p.1 = p.2) ∧
    (∀ n i : Nat, ∀ p ∈ ([(FW_WDT_CFG.PERIOD n, 6), (SIL_GRP_PARENT.PARENT n, 4294967295), (SIL_CODE_CFG0.GROUP n, 255)] : List (Fld × Nat)), State.reset.get p.1 = p.2) ∧
    State.reset.bridgeUp = false ∧ State.reset.sil.mode (State.reset.on SEQ_CTL.TEST) = 1 ∧ State.reset.sil.ring = [] ∧ State.reset.sil.next = 0 ∧
    State.reset.mem = [] ∧ State.reset.pwr.toppwrEn = false ∧ (∀ n < 16, State.reset.isOpen n = false)

/-- For every command, with any operands, and every state: exec answers a next state, never a fault or a refusal, and the queue of waiting commands is the same before and after. What the spec refuses (an access without rights, a message that fails a check) is an effect: a bus error, a STATUS, a refusal event. -/
def Obligations.EveryCommandCompletes : Prop :=
  ∀ (c : Instr) (s : State), ∃ t, exec c s = .next t ∧ t.pending = s.pending

/-- The commands that may change a store are named, about forty of the 283. For the OTP fuses and for the flash images alike: a cold POR (which finds the stores as they are placed), an access by address or a register write, the 27 message rows and a fragment (the firmware may serve a waiting message after any of them), the end of a core restart, a debug resume, the end of a commit and a brownout recovery (after which firmware goes on). For the fuses alone: the six key-store requests of the interface. For the flash alone: the end of a flash write, an activation check and ABANDON. Whatever the state, every other command leaves every OTP fuse, and every flash image, as it is. -/
def Obligations.PersistentStoresHaveFewWriters : Prop :=
  ∀ (c : Instr) (s t : State), exec c s = .next t →
    (match c with
      | .registerWrite .. | .ctrlRequest .. | .ctrlTimeout .. | .coldPor .. | .bowRecover .. | .hint .. | .hintCancel .. | .fragmentRx .. | .tmpClose .. | .ping .. | .readStat .. | .subscribe .. | .fpStatement .. | .tmpStatus .. | .setCap .. | .setFloor .. | .job .. | .sigInstall .. | .seqCmd .. | .tampClear .. | .powerState .. | .topReset .. | .tmpWdtKick .. | .recCtl .. | .settingCommit .. | .warmReset .. | .margin .. | .accordAccept .. | .keyChangeAdd .. | .keyChangeRetire .. | .debugUnlockChallenge .. | .debugUnlockResponse .. | .logClear .. | .keyFpStatement .. | .getPub .. | .dbgChallenge .. | .dbgResponse .. | .keyAdd .. | .keyRetire .. | .coreResetRelease .. | .nvmCommitDone | .debugResume .. => True
      | _ => t.otp = s.otp) ∧
    (match c with
      | .registerWrite .. | .ctrlRequest .. | .ctrlTimeout .. | .coldPor .. | .bowRecover .. | .hint .. | .hintCancel .. | .fragmentRx .. | .tmpClose .. | .ping .. | .readStat .. | .subscribe .. | .fpStatement .. | .tmpStatus .. | .setCap .. | .setFloor .. | .job .. | .sigInstall .. | .seqCmd .. | .tampClear .. | .powerState .. | .topReset .. | .tmpWdtKick .. | .recCtl .. | .settingCommit .. | .warmReset .. | .margin .. | .accordAccept .. | .keyChangeAdd .. | .keyChangeRetire .. | .debugUnlockChallenge .. | .debugUnlockResponse .. | .logClear .. | .flashWriteDone .. | .activationCheck | .abandonStaged .. | .coreResetRelease .. | .nvmCommitDone | .debugResume .. => True
      | _ => t.flash = s.flash)
end

