-- ==== Sys2Proof/Laws/Tables.lean ====
section
/-! SUPPORT. Sparse tables, the register file and memory: what a read gives after a write, and that every operation keeps the
canonical form. -/

namespace Sys2Proof.Machine

variable {β : Type}

/-! ### look, drop, insertAt, put -/

@[simp] theorem look_nil (k : Nat) : look k ([] : List (Nat × β)) = none := rfl

theorem look_cons (k : Nat) (e : Nat × β) (l : List (Nat × β)) : look k (e :: l) = if e.1 = k then some e.2 else look k l := rfl

theorem look_drop_self (k : Nat) (l : List (Nat × β)) : look k (drop k l) = none := by
  induction l with
  | nil => rfl
  | cons e t ih =>
    by_cases h : e.1 = k
    · simpa [drop, h] using ih
    · simpa [drop, h, look_cons] using ih

theorem look_drop_ne {j k : Nat} (h : j ≠ k) (l : List (Nat × β)) : look j (drop k l) = look j l := by
  induction l with
  | nil => rfl
  | cons e t ih =>
    by_cases he : e.1 = k
    · have hj : e.1 ≠ j := fun hj => h (hj ▸ he)
      simpa [drop, he, look_cons, (he ▸ hj : k ≠ j)] using ih
    · by_cases hj : e.1 = j
      · simp [drop, look_cons, hj, h]
      · simpa [drop, he, look_cons, hj] using ih

theorem look_insertAt_ne {j k : Nat} (h : j ≠ k) (v : β) (l : List (Nat × β)) : look j (insertAt k v l) = look j l := by
  induction l with
  | nil => simp [insertAt, look_cons, h.symm]
  | cons e t ih =>
    unfold insertAt
    split
    · simp [look_cons, h.symm]
    · simp [look_cons, ih]

theorem look_insertAt_self (k : Nat) (v : β) (l : List (Nat × β)) (h : look k l = none) : look k (insertAt k v l) = some v := by
  induction l with
  | nil => simp [insertAt, look_cons]
  | cons e t ih =>
    rw [look_cons] at h
    by_cases he : e.1 = k
    · simp [he] at h
    · unfold insertAt
      split
      · simp [look_cons]
      · simp only [he, if_false] at h
        simp [look_cons, he, ih h]

theorem look_put_self (k : Nat) (v : β) (l : List (Nat × β)) : look k (put k v l) = some v :=
  look_insertAt_self k v _ (look_drop_self k l)

theorem look_put_ne {j k : Nat} (h : j ≠ k) (v : β) (l : List (Nat × β)) : look j (put k v l) = look j l := by
  rw [put, look_insertAt_ne h, look_drop_ne h]

/-! ### The canonical form -/

/-- Keys strictly rising, as a statement about all pairs of entries. -/
theorem ascending_iff (l : List (Nat × β)) : ascending l = true ↔ l.Pairwise (fun a b => a.1 < b.1) := by
  induction l with
  | nil => simp [ascending]
  | cons a t ih =>
    cases t with
    | nil => simp [ascending]
    | cons b u =>
      rw [ascending, Bool.and_eq_true, ih, decide_eq_true_eq, List.pairwise_cons (a := a)]
      refine ⟨fun h => ⟨fun c hc => ?_, h.2⟩, fun h => ⟨h.1 b (by simp), h.2⟩⟩
      rcases List.mem_cons.1 hc with rfl | hc
      · exact h.1
      · exact Nat.lt_trans h.1 ((List.pairwise_cons.1 h.2).1 c hc)

theorem ascending_filter (p : Nat × β → Bool) {l : List (Nat × β)} (h : ascending l = true) : ascending (l.filter p) = true :=
  (ascending_iff _).2 (((ascending_iff _).1 h).filter p)

theorem ascending_drop (k : Nat) {l : List (Nat × β)} (h : ascending l = true) : ascending (drop k l) = true :=
  ascending_filter _ h

theorem mem_insertAt {k : Nat} {v : β} {e : Nat × β} {l : List (Nat × β)} (h : e ∈ insertAt k v l) : e = (k, v) ∨ e ∈ l := by
  induction l with
  | nil => simpa [insertAt] using h
  | cons a t ih =>
    unfold insertAt at h
    split at h
    · simpa using h
    · rcases List.mem_cons.1 h with rfl | h
      · simp
      · rcases ih h with h | h <;> simp [h]

theorem ascending_insertAt {k : Nat} (v : β) {l : List (Nat × β)} (h : ascending l = true) (hk : ∀ e ∈ l, e.1 ≠ k) :
    ascending (insertAt k v l) = true := by
  rw [ascending_iff] at *
  induction l with
  | nil => simp [insertAt]
  | cons a t ih =>
    rw [List.pairwise_cons] at h
    unfold insertAt
    split
    · next hlt =>
      refine List.pairwise_cons.2 ⟨fun e he => ?_, List.pairwise_cons.2 h⟩
      rcases List.mem_cons.1 he with rfl | he
      · exact hlt
      · exact Nat.lt_trans hlt (h.1 e he)
    · next hge =>
      have hne := hk a (by simp)
      refine List.pairwise_cons.2 ⟨fun e he => ?_, ih h.2 (fun e he => hk e (List.mem_cons_of_mem _ he))⟩
      rcases mem_insertAt he with rfl | he
      · exact Nat.lt_of_le_of_ne (Nat.le_of_not_lt hge) hne
      · exact h.1 e he

theorem ascending_put (k : Nat) (v : β) {l : List (Nat × β)} (h : ascending l = true) : ascending (put k v l) = true := by
  refine ascending_insertAt v (ascending_drop k h) (fun e he => ?_)
  simpa [drop] using (List.mem_filter.1 he).2

/-! ### The register file -/

/-- A field reads as what was set, cut to its width. -/
theorem regGet_regSet (r : List (Nat × Nat)) (f : Fld) (v : Nat) : regGet (regSet r f v) f = v % 2 ^ f.w := by
  unfold regGet regSet
  split
  · next h => rw [look_drop_self]; exact h.symm
  · rw [look_put_self]; rfl

/-- A field with another key reads as before. -/
theorem regGet_regSet_ne {f g : Fld} (h : g.key ≠ f.key) (r : List (Nat × Nat)) (v : Nat) : regGet (regSet r f v) g = regGet r g := by
  unfold regGet regSet
  split
  · rw [look_drop_ne h]
  · rw [look_put_ne h]

theorem ascending_regSet (f : Fld) (v : Nat) {r : List (Nat × Nat)} (h : ascending r = true) : ascending (regSet r f v) = true := by
  unfold regSet
  split
  · exact ascending_drop _ h
  · exact ascending_put _ _ h

/-- A property that every step of a fold keeps. -/
theorem foldl_keeps {α γ : Type} (P : γ → Prop) {f : γ → α → γ} (hf : ∀ c e, P c → P (f c e)) (l : List α) {c : γ} (h : P c) :
    P (l.foldl f c) := by
  induction l generalizing c with
  | nil => exact h
  | cons e l ih => exact ih (hf c e h)

theorem ascending_regsOver (upper : List (Nat × Nat)) {base : List (Nat × Nat)} (h : ascending base = true) :
    ascending (regsOver upper base) = true :=
  foldl_keeps (fun r => ascending r = true) (fun _ e hr => ascending_put e.1 e.2 hr) upper h

theorem ascending_pokeWord (accs : List Acc) (a mask val : Nat) {r : List (Nat × Nat)} (h : ascending r = true) :
    ascending (pokeWord accs r a mask val) = true :=
  foldl_keeps (fun r => ascending r = true)
    (fun _ f hr => by
      dsimp only
      split
      · exact ascending_regSet f _ hr
      · exact hr)
    (fieldsAt a) h

theorem ascending_dirChange (k d : Nat) {r : List (Nat × Nat)} (h : ascending r = true) :
    ascending ((dirChange k d).foldl (fun r p => regSet r p.1 p.2) r) = true :=
  foldl_keeps (fun r => ascending r = true) (fun _ p hr => ascending_regSet p.1 p.2 hr) _ h

theorem ascending_pokeNet (e : Nat × Nat) {r : List (Nat × Nat)} (h : ascending r = true) : ascending (pokeNet r e) = true := by
  unfold pokeNet
  apply ascending_pokeWord
  split
  · exact h
  · exact ascending_dirChange _ _ h

theorem ascending_pokeLimit (e : Nat × Nat) {r : List (Nat × Nat)} (h : ascending r = true) : ascending (pokeLimit r e) = true :=
  foldl_keeps (fun r => ascending r = true)
    (fun _ f hr => by
      dsimp only
      split
      · exact ascending_regSet f _ hr
      · exact hr)
    (fieldsAt e.1) h

theorem ascending_pokeRec (rs : List ARec) (type : Nat) {r : List (Nat × Nat)} (h : ascending r = true) :
    ascending (pokeRec rs type r) = true :=
  foldl_keeps (fun r => ascending r = true) (fun _ e hr => by
    split
    · exact ascending_pokeNet e hr
    · split
      · exact ascending_pokeLimit e hr
      · exact ascending_pokeWord _ e.1 _ e.2 hr) _ h

theorem ascending_unitRegs (rs : List ARec) {r : List (Nat × Nat)} (h : ascending r = true) : ascending (unitRegs rs r) = true :=
  foldl_keeps (fun r => ascending r = true) (fun _ e hr => ascending_pokeRec rs e hr) _
    (ascending_pokeRec _ _ (ascending_pokeRec _ _ h))

/-! ### Memory -/

theorem memRead_memWrite (m : List Host.Cell) (a : Nat) (b : Byte) : memRead (memWrite m a b) a = b := by
  unfold memRead memWrite
  split
  · next h => rw [look_drop_self]; exact h.symm
  · rw [look_put_self]; rfl

theorem memRead_memWrite_ne {a c : Nat} (h : c ≠ a) (m : List Host.Cell) (b : Byte) : memRead (memWrite m a b) c = memRead m c := by
  unfold memRead memWrite
  split
  · rw [look_drop_ne h]
  · rw [look_put_ne h]

/-- A byte outside the stored range reads as before. -/
theorem memRead_memStore_out {c : Nat} (bs : List Byte) :
    ∀ (m : List Host.Cell) (a : Nat), c < a ∨ a + bs.length ≤ c → memRead (memStore m a bs) c = memRead m c := by
  induction bs with
  | nil => intro m a _; rfl
  | cons b t ih =>
    intro m a h
    rw [List.length_cons] at h
    rw [memStore, ih _ _ (by omega), memRead_memWrite_ne (by omega)]

/-- A byte of the stored range reads as what was stored. -/
theorem memRead_memStore_in (bs : List Byte) :
    ∀ (m : List Host.Cell) (a i : Nat) (hi : i < bs.length), memRead (memStore m a bs) (a + i) = bs[i] := by
  induction bs with
  | nil => intro m a i hi; exact absurd hi (by simp)
  | cons b t ih =>
    intro m a i hi
    cases i with
    | zero => rw [memStore, memRead_memStore_out _ _ _ (by omega)]; exact memRead_memWrite m a b
    | succ i =>
      rw [memStore, show a + (i + 1) = a + 1 + i from by omega, ih _ _ _ (by simpa using hi)]
      rfl

theorem memory_wf_iff (m : List Host.Cell) : Memory.wf m = true ↔ ascending m = true ∧ ∀ c ∈ m, c.2 ≠ memDefault := by
  simp [Memory.wf, Bool.and_eq_true, List.all_eq_true]

theorem memory_wf_filter (p : Host.Cell → Bool) {m : List Host.Cell} (h : Memory.wf m = true) : Memory.wf (m.filter p) = true := by
  rw [memory_wf_iff] at *
  exact ⟨ascending_filter p h.1, fun c hc => h.2 c (List.mem_filter.1 hc).1⟩

theorem memory_wf_memWrite (a : Nat) (b : Byte) {m : List Host.Cell} (h : Memory.wf m = true) : Memory.wf (memWrite m a b) = true := by
  unfold memWrite
  split
  · exact memory_wf_filter _ h
  · next hb =>
    rw [memory_wf_iff] at *
    refine ⟨ascending_put _ _ h.1, fun c hc => ?_⟩
    rcases mem_insertAt hc with rfl | hc
    · exact hb
    · exact h.2 c (List.mem_filter.1 hc).1

theorem memory_wf_memStore (bs : List Byte) : ∀ (m : List Host.Cell) (a : Nat), Memory.wf m = true → Memory.wf (memStore m a bs) = true := by
  induction bs with
  | nil => intro m a h; exact h
  | cons b t ih => intro m a h; exact ih _ _ (memory_wf_memWrite a b h)

theorem memory_wf_memForget (lo hi : Nat) {m : List Host.Cell} (h : Memory.wf m = true) : Memory.wf (memForget m lo hi) = true :=
  memory_wf_filter _ h

theorem memory_wf_fwLoad (base : Nat) (b : List Byte) {m : List Host.Cell} (h : Memory.wf m = true) :
    Memory.wf (fwLoad m base b) = true :=
  memory_wf_memStore _ _ _ (memory_wf_memForget _ _ h)

end Sys2Proof.Machine
end

