-- ==== Sys2Proof/Laws/Foot.lean ====
section
/-! SUPPORT. Footprints: which parts of the state a function may change, and that memory and the register file keep their canonical
form. One lemma per function of the model, composed along its body (Laws/Foot….lean). -/

namespace Sys2Proof.Machine

/-- From s to t only the listed parts change, and the canonical forms are kept. -/
structure Foot (ps : List Part) (s t : State) : Prop where
  frame : Frame ps s t
  mem : Memory.wf s.mem = true → Memory.wf t.mem = true
  regs : ascending s.regs = true → ascending t.regs = true

/-- Every part of a list is in another: a test that evaluates. -/
def partsIn (ps qs : List Part) : Bool := ps.all (fun p => qs.contains p)

/-- A goal about lists of parts, for `decide`. -/
theorem partsIn_dec {ps qs : List Part} (h : partsIn ps qs = true) : partsIn ps qs = true := h

theorem Foot.refl {ps : List Part} {s : State} : Foot ps s s := ⟨fun p _ => by cases p <;> rfl, id, id⟩

theorem State.agree_trans {s t u : State} {p : Part} (h : s.agree t p) (k : t.agree u p) : s.agree u p := by
  cases p <;> exact Eq.trans k h

theorem Foot.trans {ps : List Part} {s t u : State} (h : Foot ps s t) (k : Foot ps t u) : Foot ps s u :=
  ⟨fun p hp => State.agree_trans (h.frame p hp) (k.frame p hp), k.mem ∘ h.mem, k.regs ∘ h.regs⟩

theorem Foot.mono {ps qs : List Part} (hq : partsIn ps qs = true) {s t : State} (h : Foot ps s t) : Foot qs s t :=
  ⟨fun p hp => h.frame p (fun h' => hp (by simpa using List.all_eq_true.1 hq p h')), h.mem, h.regs⟩

/-- Add a function's footprint to the one reached so far. -/
theorem Foot.next {ps qs : List Part} {s t u : State} (h : Foot qs s t) (k : Foot ps t u) (hq : partsIn ps qs = true) : Foot qs s u :=
  h.trans (k.mono hq)

theorem Foot.ite {ps : List Part} {c : Prop} [Decidable c] {s t u : State} (h : Foot ps s t) (k : Foot ps s u) :
    Foot ps s (if c then t else u) := by
  split <;> assumption

/-- The footprint of a command's answer. -/
theorem Foot.ofNext {ps : List Part} {s u t : State} (h : (Host.Outcome.next u : Host.Outcome State Fault Refusal) = .next t)
    (k : Foot ps s u) : Foot ps s t := by
  injection h with h
  exact h ▸ k

theorem Foot.iteSnd {α : Type} {ps : List Part} {c : Prop} [Decidable c] {s : State} {a b : α × State} (h : Foot ps s a.2)
    (k : Foot ps s b.2) : Foot ps s (if c then a else b).2 := by
  split <;> assumption

theorem Foot.foldl {α : Type} {ps : List Part} {s t : State} {f : State → α → State} {l : List α}
    (hf : ∀ u e, Foot ps s u → Foot ps s (f u e)) (h : Foot ps s t) : Foot ps s (l.foldl f t) := by
  induction l generalizing t with
  | nil => exact h
  | cons e l ih => exact ih (hf t e h)

/-- A part changed by a record update. -/
theorem Foot.of {ps : List Part} {s t : State} (hm : t.mem = s.mem) (hr : t.regs = s.regs) (hf : Frame ps s t) : Foot ps s t :=
  ⟨hf, fun h => hm ▸ h, fun h => hr ▸ h⟩

theorem Foot.setRegs {s : State} {r : List (Nat × Nat)} (h : ascending s.regs = true → ascending r = true) :
    Foot [.regs] s { s with regs := r } :=
  ⟨fun p hp => by cases p <;> first | rfl | exact absurd (by simp) hp, id, h⟩

theorem Foot.setMem {s : State} {m : List Host.Cell} (h : Memory.wf s.mem = true → Memory.wf m = true) :
    Foot [.mem] s { s with mem := m } :=
  ⟨fun p hp => by cases p <;> first | rfl | exact absurd (by simp) hp, h, id⟩

theorem Foot.memStore {s : State} {a : Nat} {bs : List Byte} : Foot [.mem] s { s with mem := memStore s.mem a bs } :=
  Foot.setMem (memory_wf_memStore bs _ a)

theorem Foot.memStoreBus {s : State} {a : Nat} {bs : List Byte} {b : BusDone} :
    Foot [.bus, .mem] s { s with mem := Sys2Proof.Machine.memStore s.mem a bs, bus := b } :=
  ⟨fun p hp => by cases p <;> first | rfl | exact absurd (by simp) hp, memory_wf_memStore bs _ a, id⟩

theorem Foot.memForget {s : State} {lo hi : Nat} : Foot [.mem] s { s with mem := memForget s.mem lo hi } :=
  Foot.setMem (memory_wf_memForget lo hi)

theorem Foot.time_upd {s : State} {x} : Foot [.time] s { s with time := x } :=
  .of rfl rfl (fun p hp => by cases p <;> first | rfl | exact absurd (by simp) hp)

theorem Foot.clk_upd {s : State} {x} : Foot [.clk] s { s with clk := x } :=
  .of rfl rfl (fun p hp => by cases p <;> first | rfl | exact absurd (by simp) hp)

theorem Foot.sil_upd {s : State} {x} : Foot [.sil] s { s with sil := x } :=
  .of rfl rfl (fun p hp => by cases p <;> first | rfl | exact absurd (by simp) hp)

theorem Foot.nvm_upd {s : State} {x} : Foot [.nvm] s { s with nvm := x } :=
  .of rfl rfl (fun p hp => by cases p <;> first | rfl | exact absurd (by simp) hp)

theorem Foot.pwr_upd {s : State} {x} : Foot [.pwr] s { s with pwr := x } :=
  .of rfl rfl (fun p hp => by cases p <;> first | rfl | exact absurd (by simp) hp)

theorem Foot.brg_upd {s : State} {x} : Foot [.brg] s { s with brg := x } :=
  .of rfl rfl (fun p hp => by cases p <;> first | rfl | exact absurd (by simp) hp)

theorem Foot.tw_upd {s : State} {x} : Foot [.tw] s { s with tw := x } :=
  .of rfl rfl (fun p hp => by cases p <;> first | rfl | exact absurd (by simp) hp)

theorem Foot.seq_upd {s : State} {x} : Foot [.seq] s { s with seq := x } :=
  .of rfl rfl (fun p hp => by cases p <;> first | rfl | exact absurd (by simp) hp)

theorem Foot.tamp_upd {s : State} {x} : Foot [.tamp] s { s with tamp := x } :=
  .of rfl rfl (fun p hp => by cases p <;> first | rfl | exact absurd (by simp) hp)

theorem Foot.cool_upd {s : State} {x} : Foot [.cool] s { s with cool := x } :=
  .of rfl rfl (fun p hp => by cases p <;> first | rfl | exact absurd (by simp) hp)

theorem Foot.tel_upd {s : State} {x} : Foot [.tel] s { s with tel := x } :=
  .of rfl rfl (fun p hp => by cases p <;> first | rfl | exact absurd (by simp) hp)

theorem Foot.inf_upd {s : State} {x} : Foot [.inf] s { s with inf := x } :=
  .of rfl rfl (fun p hp => by cases p <;> first | rfl | exact absurd (by simp) hp)

theorem Foot.otp_upd {s : State} {x} : Foot [.otp] s { s with otp := x } :=
  .of rfl rfl (fun p hp => by cases p <;> first | rfl | exact absurd (by simp) hp)

theorem Foot.acd_upd {s : State} {x} : Foot [.acd] s { s with acd := x } :=
  .of rfl rfl (fun p hp => by cases p <;> first | rfl | exact absurd (by simp) hp)

theorem Foot.key_upd {s : State} {x} : Foot [.key] s { s with key := x } :=
  .of rfl rfl (fun p hp => by cases p <;> first | rfl | exact absurd (by simp) hp)

theorem Foot.fw_upd {s : State} {x} : Foot [.fw] s { s with fw := x } :=
  .of rfl rfl (fun p hp => by cases p <;> first | rfl | exact absurd (by simp) hp)

theorem Foot.ses_upd {s : State} {x} : Foot [.ses] s { s with ses := x } :=
  .of rfl rfl (fun p hp => by cases p <;> first | rfl | exact absurd (by simp) hp)

theorem Foot.sec_upd {s : State} {x} : Foot [.sec] s { s with sec := x } :=
  .of rfl rfl (fun p hp => by cases p <;> first | rfl | exact absurd (by simp) hp)

theorem Foot.flash_upd {s : State} {x} : Foot [.flash] s { s with flash := x } :=
  .of rfl rfl (fun p hp => by cases p <;> first | rfl | exact absurd (by simp) hp)

theorem Foot.bus_upd {s : State} {x} : Foot [.bus] s { s with bus := x } :=
  .of rfl rfl (fun p hp => by cases p <;> first | rfl | exact absurd (by simp) hp)

theorem Foot.fresh_upd {s : State} {x} : Foot [.fresh] s { s with fresh := x } :=
  .of rfl rfl (fun p hp => by cases p <;> first | rfl | exact absurd (by simp) hp)

theorem Foot.pending_upd {s : State} {x} : Foot [.pending] s { s with pending := x } :=
  .of rfl rfl (fun p hp => by cases p <;> first | rfl | exact absurd (by simp) hp)

theorem Foot.sil_cool_upd {s : State} {x0 x1} : Foot [.sil, .cool] s { s with sil := x0, cool := x1 } :=
  .of rfl rfl (fun p hp => by cases p <;> first | rfl | exact absurd (by simp) hp)

theorem Foot.brg_tel_upd {s : State} {x0 x1} : Foot [.brg, .tel] s { s with brg := x0, tel := x1 } :=
  .of rfl rfl (fun p hp => by cases p <;> first | rfl | exact absurd (by simp) hp)

theorem Foot.clk_sil_pwr_tel_inf_acd_fw_ses_sec_bus_upd {s : State} {x0 x1 x2 x3 x4 x5 x6 x7 x8 x9} :
    Foot [.clk, .sil, .pwr, .tel, .inf, .acd, .fw, .ses, .sec, .bus] s
      { s with clk := x0, sil := x1, pwr := x2, tel := x3, inf := x4, acd := x5, fw := x6, ses := x7, sec := x8, bus := x9 } :=
  .of rfl rfl (fun p hp => by cases p <;> first | rfl | exact absurd (by simp) hp)

theorem Foot.otp_flash_upd {s : State} {x0 x1} : Foot [.otp, .flash] s { s with otp := x0, flash := x1 } :=
  .of rfl rfl (fun p hp => by cases p <;> first | rfl | exact absurd (by simp) hp)

end Sys2Proof.Machine
end

