-- ==== Sys2Proof/Laws/FootOps.lean ====
section
/-! SUPPORT. Footprints of the functions of Machine/Ops.lean. -/

namespace Sys2Proof.Machine

theorem State.set_foot (s : State) (f : Fld) (v : Nat) : Foot [.regs] s (State.set s f v) :=
  Foot.setRegs (ascending_regSet f v)

theorem State.setAll_foot (s : State) (l : List (Fld × Nat)) : Foot [.regs] s (State.setAll s l) := by
  unfold State.setAll
  try dsimp only
  repeat' (first
    | with_reducible exact Foot.refl
    | with_reducible assumption
    | (with_reducible apply partsIn_dec; decide)
    | with_reducible apply Foot.next ?_ (State.set_foot ..) ?_
    | with_reducible apply Foot.foldl (fun _ _ _ => ?_) ?_
    )

theorem State.draw_foot (s : State) : Foot [.fresh] s (State.draw s) := by
  unfold State.draw
  try dsimp only
  repeat' (first
    | with_reducible exact Foot.refl
    | with_reducible assumption
    | (with_reducible apply partsIn_dec; decide)
    | with_reducible apply Foot.next ?_ Foot.fresh_upd ?_
    )

theorem State.set64_foot (s : State) (lo hi : Fld) (v : Nat) : Foot [.regs] s (State.set64 s lo hi v) := by
  unfold State.set64
  try dsimp only
  repeat' (first
    | with_reducible exact Foot.refl
    | with_reducible assumption
    | (with_reducible apply partsIn_dec; decide)
    | with_reducible apply Foot.next ?_ (State.set_foot ..) ?_
    )

theorem State.setIf_foot (s : State) (c : Bool) (f : Fld) (v : Nat) : Foot [.regs] s (State.setIf s c f v) := by
  unfold State.setIf
  try dsimp only
  repeat' (first
    | with_reducible exact Foot.refl
    | with_reducible assumption
    | (with_reducible apply partsIn_dec; decide)
    | with_reducible apply Foot.next ?_ (State.set_foot ..) ?_
    | with_reducible apply Foot.ite ?_ ?_
    )

theorem State.bump_foot (s : State) (f : Fld) (k : Nat) : Foot [.regs] s (State.bump s f k) := by
  unfold State.bump
  try dsimp only
  repeat' (first
    | with_reducible exact Foot.refl
    | with_reducible assumption
    | (with_reducible apply partsIn_dec; decide)
    | with_reducible apply Foot.next ?_ (State.set_foot ..) ?_
    )

theorem State.kraise_foot (s : State) (n : Nat) : Foot [.fw] s (State.kraise s n) := by
  unfold State.kraise
  try dsimp only
  repeat' (first
    | with_reducible exact Foot.refl
    | with_reducible assumption
    | (with_reducible apply partsIn_dec; decide)
    | with_reducible apply Foot.next ?_ Foot.fw_upd ?_
    )

theorem State.raise_foot (s : State) (n : Nat) : Foot [.fw] s (State.raise s n) := by
  unfold State.raise
  try dsimp only
  repeat' (first
    | with_reducible exact Foot.refl
    | with_reducible assumption
    | (with_reducible apply partsIn_dec; decide)
    | with_reducible apply Foot.next ?_ Foot.fw_upd ?_
    )

theorem State.setB_foot (s : State) (f : Fld) (b : Bool) : Foot [.regs] s (State.setB s f b) := by
  unfold State.setB
  try dsimp only
  repeat' (first
    | with_reducible exact Foot.refl
    | with_reducible assumption
    | (with_reducible apply partsIn_dec; decide)
    | with_reducible apply Foot.next ?_ (State.set_foot ..) ?_
    )

theorem State.infErr_foot (s : State) (f : Fld) : Foot [.regs, .fw] s (State.infErr s f) := by
  unfold State.infErr
  try dsimp only
  repeat' (first
    | with_reducible exact Foot.refl
    | with_reducible assumption
    | (with_reducible apply partsIn_dec; decide)
    | with_reducible apply Foot.next ?_ (State.raise_foot ..) ?_
    | with_reducible apply Foot.next ?_ (State.set_foot ..) ?_
    | with_reducible apply Foot.ite ?_ ?_
    )

end Sys2Proof.Machine
end

