-- ==== Sys2Proof/Laws/FootSillage.lean ====
section
/-! SUPPORT. Footprints of the functions of Machine/Sillage.lean. -/

namespace Sys2Proof.Machine

theorem State.admitEvent_foot (s : State) (ev : Event) : Foot [.sil] s (State.admitEvent s ev) := by
  unfold State.admitEvent
  try dsimp only
  repeat' (first
    | with_reducible exact Foot.refl
    | with_reducible assumption
    | (with_reducible apply partsIn_dec; decide)
    | with_reducible apply Foot.ite ?_ ?_
    | with_reducible apply Foot.next ?_ Foot.sil_upd ?_
    )

theorem State.log_foot (s : State) (code acc unit inst : Nat) (p : List (Nat × Nat × Nat)) : Foot [.sil] s (State.log s code acc unit inst p) := by
  unfold State.log
  try dsimp only
  repeat' (first
    | with_reducible exact Foot.refl
    | with_reducible assumption
    | (with_reducible apply partsIn_dec; decide)
    | with_reducible apply Foot.next ?_ (State.admitEvent_foot ..) ?_
    )

theorem State.logIf_foot (s : State) (c : Bool) (code acc unit inst : Nat) (p : List (Nat × Nat × Nat)) : Foot [.sil] s (State.logIf s c code acc unit inst p) := by
  unfold State.logIf
  try dsimp only
  repeat' (first
    | with_reducible exact Foot.refl
    | with_reducible assumption
    | (with_reducible apply partsIn_dec; decide)
    | with_reducible apply Foot.next ?_ (State.log_foot ..) ?_
    | with_reducible apply Foot.ite ?_ ?_
    )

theorem State.silMode_foot (s : State) (test test' : Bool) (f : SilSt → SilSt) : Foot [.sil] s (State.silMode s test test' f) := by
  unfold State.silMode
  try dsimp only
  repeat' (first
    | with_reducible exact Foot.refl
    | with_reducible assumption
    | (with_reducible apply partsIn_dec; decide)
    | with_reducible apply Foot.next ?_ Foot.sil_upd ?_
    )

theorem State.silWarm_foot (s : State) (test : Bool) : Foot [.sil] s (State.silWarm s test) := by
  unfold State.silWarm
  try dsimp only
  repeat' (first
    | with_reducible exact Foot.refl
    | with_reducible assumption
    | (with_reducible apply partsIn_dec; decide)
    | with_reducible apply Foot.ite ?_ ?_
    | with_reducible apply Foot.next ?_ Foot.sil_upd ?_
    )

end Sys2Proof.Machine
end

