-- ==== Sys2Proof/Laws/FootAccess.lean ====
section
/-! SUPPORT. Footprints of the functions of Machine/Access.lean. -/

namespace Sys2Proof.Machine

theorem State.block_foot (s : State) (ini : Initiator) (write : Bool) (addr : Nat) : Foot [.regs, .sil, .bus] s (State.block s ini write addr) := by
  unfold State.block
  try dsimp only
  repeat' (first
    | with_reducible exact Foot.refl
    | with_reducible assumption
    | (with_reducible apply partsIn_dec; decide)
    | with_reducible apply Foot.next ?_ (State.set_foot ..) ?_
    | with_reducible apply Foot.next ?_ (State.log_foot ..) ?_
    | with_reducible apply Foot.ite ?_ ?_
    | with_reducible apply Foot.next ?_ Foot.bus_upd ?_
    )

theorem State.command_foot {ps : List Part} (s : State) (ini : Initiator) (addr : Nat) (effect : State → State)
    (he : Foot ps s (effect s)) (hq : partsIn [.regs, .sil, .bus] ps = true) : Foot ps s (State.command s ini addr effect) := by
  unfold State.command
  split
  · exact Foot.next he Foot.bus_upd (by revert hq; cases h : partsIn [.bus] ps <;> simp_all [partsIn])
  · exact Foot.next Foot.refl (State.block_foot ..) hq
  · exact Foot.next Foot.refl Foot.bus_upd (by revert hq; cases h : partsIn [.bus] ps <;> simp_all [partsIn])

theorem State.msgHeader_foot (s : State) (vc dir kind len addr : Nat) : Foot [.brg] s (State.msgHeader s vc dir kind len addr) := by
  unfold State.msgHeader
  try dsimp only
  repeat' (first
    | with_reducible exact Foot.refl
    | with_reducible assumption
    | (with_reducible apply partsIn_dec; decide)
    | with_reducible apply Foot.ite ?_ ?_
    | with_reducible apply Foot.next ?_ Foot.brg_upd ?_
    )

end Sys2Proof.Machine
end

