-- ==== Sys2Proof/Laws/FootTwoWire.lean ====
section
/-! SUPPORT. Footprints of the functions of Machine/TwoWire.lean. -/

namespace Sys2Proof.Machine

theorem State.modPort_foot (s : State) (n : Nat) (f : TwPort → TwPort) : Foot [.tw] s (State.modPort s n f) := by
  unfold State.modPort
  try dsimp only
  repeat' (first
    | with_reducible exact Foot.refl
    | with_reducible assumption
    | (with_reducible apply partsIn_dec; decide)
    | with_reducible apply Foot.next ?_ Foot.tw_upd ?_
    )

theorem State.twQueue_foot (s : State) (n : Nat) (owner : TwOwner) (addr : Nat) (page : Option Nat) (tx : List Byte) (rx : RxForm) (pec : Bool) (now : Bool) : Foot [.tw] s (State.twQueue s n owner addr page tx rx pec now) := by
  unfold State.twQueue
  try dsimp only
  repeat' (first
    | with_reducible exact Foot.refl
    | with_reducible assumption
    | (with_reducible apply partsIn_dec; decide)
    | with_reducible apply Foot.next ?_ (State.modPort_foot ..) ?_
    | with_reducible apply Foot.ite ?_ ?_
    )

theorem State.readyDrop_foot (s : State) : Foot [.regs] s (State.readyDrop s) := by
  unfold State.readyDrop
  try dsimp only
  repeat' (first
    | with_reducible exact Foot.refl
    | with_reducible assumption
    | (with_reducible apply partsIn_dec; decide)
    | with_reducible apply Foot.next ?_ (State.set_foot ..) ?_
    | with_reducible apply Foot.foldl (fun _ _ _ => ?_) ?_
    | with_reducible apply Foot.ite ?_ ?_
    )

theorem State.queueAra_foot (s : State) (n : Nat) : Foot [.tw] s (State.queueAra s n) := by
  unfold State.queueAra
  try dsimp only
  repeat' (first
    | with_reducible exact Foot.refl
    | with_reducible assumption
    | (with_reducible apply partsIn_dec; decide)
    | with_reducible apply Foot.next ?_ (State.twQueue_foot ..) ?_
    )

theorem State.araWant_foot (s : State) (n : Nat) : Foot [.tw] s (State.araWant s n) := by
  unfold State.araWant
  try dsimp only
  repeat' (first
    | with_reducible exact Foot.refl
    | with_reducible assumption
    | (with_reducible apply partsIn_dec; decide)
    | with_reducible apply Foot.next ?_ (State.queueAra_foot ..) ?_
    | with_reducible apply Foot.ite ?_ ?_
    )

theorem State.twCut_foot (s : State) : Foot [.regs, .tw] s (State.twCut s) := by
  unfold State.twCut
  try dsimp only
  repeat' (first
    | with_reducible exact Foot.refl
    | with_reducible assumption
    | (with_reducible apply partsIn_dec; decide)
    | with_reducible apply Foot.next ?_ (State.araWant_foot ..) ?_
    | with_reducible apply Foot.next ?_ (State.modPort_foot ..) ?_
    | with_reducible apply Foot.next ?_ (State.set_foot ..) ?_
    | with_reducible apply Foot.foldl (fun _ _ _ => ?_) ?_
    | with_reducible apply Foot.ite ?_ ?_
    )

theorem State.twApply_foot (s : State) : Foot [.regs] s (State.twApply s) := by
  unfold State.twApply
  try dsimp only
  repeat' (first
    | with_reducible exact Foot.refl
    | with_reducible assumption
    | (with_reducible apply partsIn_dec; decide)
    | with_reducible apply Foot.next ?_ (State.setAll_foot ..) ?_
    | with_reducible apply Foot.foldl (fun _ _ _ => ?_) ?_
    | with_reducible apply Foot.ite ?_ ?_
    )

theorem State.alertView_foot (s : State) (n : Nat) : Foot [.regs] s (State.alertView s n) := by
  unfold State.alertView
  try dsimp only
  repeat' (first
    | with_reducible exact Foot.refl
    | with_reducible assumption
    | (with_reducible apply partsIn_dec; decide)
    | with_reducible apply Foot.next ?_ (State.setAll_foot ..) ?_
    )

theorem State.araEnd_foot (s : State) (n r : Nat) (rx : List Byte) : Foot [.regs, .sil, .tw] s (State.araEnd s n r rx) := by
  unfold State.araEnd
  try dsimp only
  repeat' (first
    | with_reducible exact Foot.refl
    | with_reducible assumption
    | (with_reducible apply partsIn_dec; decide)
    | with_reducible apply Foot.next ?_ (State.alertView_foot ..) ?_
    | with_reducible apply Foot.next ?_ (State.araWant_foot ..) ?_
    | with_reducible apply Foot.next ?_ (State.modPort_foot ..) ?_
    | with_reducible apply Foot.next ?_ (State.set_foot ..) ?_
    | with_reducible apply Foot.next ?_ (State.log_foot ..) ?_
    | with_reducible apply Foot.ite ?_ ?_
    )

theorem State.bufStore_foot (s : State) (word : Nat → Fld) (bs : List Byte) : Foot [.regs] s (State.bufStore s word bs) := by
  unfold State.bufStore
  try dsimp only
  repeat' (first
    | with_reducible exact Foot.refl
    | with_reducible assumption
    | (with_reducible apply partsIn_dec; decide)
    | with_reducible apply Foot.next ?_ (State.set_foot ..) ?_
    | with_reducible apply Foot.foldl (fun _ _ _ => ?_) ?_
    )

theorem State.channelEnd_foot (s : State) (n c r : Nat) (rx : List Byte) : Foot [.regs] s (State.channelEnd s n c r rx) := by
  unfold State.channelEnd
  try dsimp only
  repeat' (first
    | with_reducible exact Foot.refl
    | with_reducible assumption
    | (with_reducible apply partsIn_dec; decide)
    | with_reducible apply Foot.next ?_ (State.bufStore_foot ..) ?_
    | with_reducible apply Foot.next ?_ (State.setAll_foot ..) ?_
    | with_reducible apply Foot.next ?_ (State.set_foot ..) ?_
    )

theorem State.pollEnd_foot (s : State) (n k : Nat) (last : Bool) (v : Nat) : Foot [.regs] s (State.pollEnd s n k last v) := by
  unfold State.pollEnd
  try dsimp only
  repeat' (first
    | with_reducible exact Foot.refl
    | with_reducible assumption
    | (with_reducible apply partsIn_dec; decide)
    | with_reducible apply Foot.next ?_ (State.setIf_foot ..) ?_
    | with_reducible apply Foot.next ?_ (State.set_foot ..) ?_
    )

theorem State.twErr_foot (s : State) (n r : Nat) : Foot [.regs] s (State.twErr s n r) := by
  unfold State.twErr
  try dsimp only
  repeat' (first
    | with_reducible exact Foot.refl
    | with_reducible assumption
    | (with_reducible apply partsIn_dec; decide)
    | with_reducible apply Foot.next ?_ (State.set_foot ..) ?_
    | with_reducible apply Foot.ite ?_ ?_
    )

theorem State.twCount_foot (s : State) (n r : Nat) : Foot [.regs] s (State.twCount s n r) := by
  unfold State.twCount
  try dsimp only
  repeat' (first
    | with_reducible exact Foot.refl
    | with_reducible assumption
    | (with_reducible apply partsIn_dec; decide)
    | with_reducible apply Foot.next ?_ (State.twErr_foot ..) ?_
    | with_reducible apply Foot.next ?_ (State.bump_foot ..) ?_
    | with_reducible apply Foot.ite ?_ ?_
    )

theorem State.twFree_foot (s : State) (n : Nat) : Foot [.regs, .tw] s (State.twFree s n) := by
  unfold State.twFree
  try dsimp only
  repeat' (first
    | with_reducible exact Foot.refl
    | with_reducible assumption
    | (with_reducible apply partsIn_dec; decide)
    | with_reducible apply Foot.next ?_ (State.modPort_foot ..) ?_
    | with_reducible apply Foot.next ?_ (State.set_foot ..) ?_
    | with_reducible apply Foot.ite ?_ ?_
    )

theorem State.segDisable_foot (s : State) (n reason : Nat) : Foot [.regs, .sil] s (State.segDisable s n reason) := by
  unfold State.segDisable
  try dsimp only
  repeat' (first
    | with_reducible exact Foot.refl
    | with_reducible assumption
    | (with_reducible apply partsIn_dec; decide)
    | with_reducible apply Foot.next ?_ (State.setAll_foot ..) ?_
    | with_reducible apply Foot.next ?_ (State.log_foot ..) ?_
    )

theorem State.segCycle_foot (s : State) (n : Nat) : Foot [.regs, .sil] s (State.segCycle s n) := by
  unfold State.segCycle
  try dsimp only
  repeat' (first
    | with_reducible exact Foot.refl
    | with_reducible assumption
    | (with_reducible apply partsIn_dec; decide)
    | with_reducible apply Foot.next ?_ (State.segDisable_foot ..) ?_
    | with_reducible apply Foot.next ?_ (State.bump_foot ..) ?_
    | with_reducible apply Foot.next ?_ (State.setAll_foot ..) ?_
    | with_reducible apply Foot.ite ?_ ?_
    )

theorem State.segStuck_foot (s : State) (n : Nat) (scl sda : Bool) : Foot [.regs, .sil] s (State.segStuck s n scl sda) := by
  unfold State.segStuck
  try dsimp only
  repeat' (first
    | with_reducible exact Foot.refl
    | with_reducible assumption
    | (with_reducible apply partsIn_dec; decide)
    | with_reducible apply Foot.next ?_ (State.segCycle_foot ..) ?_
    | with_reducible apply Foot.next ?_ (State.setAll_foot ..) ?_
    | with_reducible apply Foot.next ?_ (State.log_foot ..) ?_
    )

theorem State.alertPop_foot (s : State) (n : Nat) : Foot [.regs, .tw, .bus] s (State.alertPop s n) := by
  unfold State.alertPop
  try dsimp only
  repeat' (first
    | with_reducible exact Foot.refl
    | with_reducible assumption
    | (with_reducible apply partsIn_dec; decide)
    | with_reducible apply Foot.next ?_ (State.alertView_foot ..) ?_
    | with_reducible apply Foot.next ?_ (State.modPort_foot ..) ?_
    | with_reducible apply Foot.next ?_ Foot.bus_upd ?_
    )

theorem State.channelGo_foot (s : State) (n c w : Nat) : Foot [.regs, .tw] s (State.channelGo s n c w) := by
  unfold State.channelGo
  try dsimp only
  repeat' (first
    | with_reducible exact Foot.refl
    | with_reducible assumption
    | (with_reducible apply partsIn_dec; decide)
    | with_reducible apply Foot.next ?_ (State.twCount_foot ..) ?_
    | with_reducible apply Foot.next ?_ (State.channelEnd_foot ..) ?_
    | with_reducible apply Foot.next ?_ (State.twQueue_foot ..) ?_
    | with_reducible apply Foot.next ?_ (State.set_foot ..) ?_
    | with_reducible apply Foot.ite ?_ ?_
    | split
    )

theorem execRxAck_foot {ini : Initiator} {n : Fin 12} {s : State} {t : State} (h : execRxAck ini n s = .next t) : Foot [.regs, .sil, .bus] s t := by
  unfold execRxAck at h
  try dsimp only at h
  with_reducible refine Foot.ofNext h ?_
  repeat' (first
    | with_reducible exact Foot.refl
    | with_reducible assumption
    | (with_reducible apply partsIn_dec; decide)
    | with_reducible apply Foot.trans ?_ (State.command_foot _ _ _ _ ?_ ?_)
    | with_reducible apply Foot.next ?_ (State.setAll_foot ..) ?_
    )

theorem State.twStretch_foot (s : State) (n : Nat) (on : Bool) : Foot [.regs] s (State.twStretch s n on) := by
  unfold State.twStretch
  try dsimp only
  repeat' (first
    | with_reducible exact Foot.refl
    | with_reducible assumption
    | (with_reducible apply partsIn_dec; decide)
    | with_reducible apply Foot.next ?_ (State.set_foot ..) ?_
    | with_reducible apply Foot.ite ?_ ?_
    )

theorem State.targetServe_foot (s : State) (n want : Nat) (valid : Bool) : Foot [.regs, .tw] s (State.targetServe s n want valid) := by
  unfold State.targetServe
  try dsimp only
  repeat' (first
    | with_reducible exact Foot.refl
    | with_reducible assumption
    | (with_reducible apply partsIn_dec; decide)
    | with_reducible apply Foot.next ?_ (State.twStretch_foot ..) ?_
    | with_reducible apply Foot.next ?_ (State.modPort_foot ..) ?_
    | with_reducible apply Foot.next ?_ (State.setIf_foot ..) ?_
    | with_reducible apply Foot.next ?_ (State.setAll_foot ..) ?_
    | with_reducible apply Foot.ite ?_ ?_
    )

theorem State.txValid_foot (s : State) (n : Nat) : Foot [.regs, .tw] s (State.txValid s n) := by
  unfold State.txValid
  try dsimp only
  repeat' (first
    | with_reducible exact Foot.refl
    | with_reducible assumption
    | (with_reducible apply partsIn_dec; decide)
    | with_reducible apply Foot.next ?_ (State.targetServe_foot ..) ?_
    | with_reducible apply Foot.next ?_ (State.set_foot ..) ?_
    | with_reducible apply Foot.ite ?_ ?_
    )

theorem execTxValid_foot {ini : Initiator} {n : Fin 12} {s : State} {t : State} (h : execTxValid ini n s = .next t) : Foot [.regs, .sil, .tw, .bus] s t := by
  unfold execTxValid at h
  try dsimp only at h
  with_reducible refine Foot.ofNext h ?_
  repeat' (first
    | with_reducible exact Foot.refl
    | with_reducible assumption
    | (with_reducible apply partsIn_dec; decide)
    | with_reducible apply Foot.next ?_ (State.txValid_foot ..) ?_
    | with_reducible apply Foot.trans ?_ (State.command_foot _ _ _ _ ?_ ?_)
    )

theorem State.channelFields_foot (s : State) (n c w : Nat) : Foot [.regs] s (State.channelFields s n c w) := by
  unfold State.channelFields
  try dsimp only
  repeat' (first
    | with_reducible exact Foot.refl
    | with_reducible assumption
    | (with_reducible apply partsIn_dec; decide)
    | with_reducible apply Foot.next ?_ (State.setAll_foot ..) ?_
    )

theorem State.channelWrite_foot (s : State) (n c w : Nat) : Foot [.regs, .tw] s (State.channelWrite s n c w) := by
  unfold State.channelWrite
  try dsimp only
  repeat' (first
    | with_reducible exact Foot.refl
    | with_reducible assumption
    | (with_reducible apply partsIn_dec; decide)
    | with_reducible apply Foot.next ?_ (State.channelFields_foot ..) ?_
    | with_reducible apply Foot.next ?_ (State.channelGo_foot ..) ?_
    | with_reducible apply Foot.ite ?_ ?_
    )

theorem execChannelGo_foot {ini : Initiator} {n : Fin 12} {c : Fin 2} {word : Word} {s : State} {t : State} (h : execChannelGo ini n c word s = .next t) : Foot [.regs, .sil, .tw, .bus] s t := by
  unfold execChannelGo at h
  try dsimp only at h
  with_reducible refine Foot.ofNext h ?_
  repeat' (first
    | with_reducible exact Foot.refl
    | with_reducible assumption
    | (with_reducible apply partsIn_dec; decide)
    | with_reducible apply Foot.next ?_ (State.channelWrite_foot ..) ?_
    | with_reducible apply Foot.trans ?_ (State.command_foot _ _ _ _ ?_ ?_)
    )

theorem State.targetWrite_foot (s : State) (n a : Nat) (bs : List Byte) : Foot [.regs] s (State.targetWrite s n a bs) := by
  unfold State.targetWrite
  try dsimp only
  repeat' (first
    | with_reducible exact Foot.refl
    | with_reducible assumption
    | (with_reducible apply partsIn_dec; decide)
    | with_reducible apply Foot.next ?_ (State.bufStore_foot ..) ?_
    | with_reducible apply Foot.next ?_ (State.setIf_foot ..) ?_
    | with_reducible apply Foot.next ?_ (State.setAll_foot ..) ?_
    | with_reducible apply Foot.ite ?_ ?_
    )

theorem execTargetWrite_foot {n : Fin 12} {addr : Fin 128} {bytes : List Byte} {s : State} {t : State} (h : execTargetWrite n addr bytes s = .next t) : Foot [.regs] s t := by
  unfold execTargetWrite at h
  try dsimp only at h
  with_reducible refine Foot.ofNext h ?_
  repeat' (first
    | with_reducible exact Foot.refl
    | with_reducible assumption
    | (with_reducible apply partsIn_dec; decide)
    | with_reducible apply Foot.next ?_ (State.targetWrite_foot ..) ?_
    )

theorem State.targetRead_foot (s : State) (n a want : Nat) : Foot [.regs, .tw] s (State.targetRead s n a want) := by
  unfold State.targetRead
  try dsimp only
  repeat' (first
    | with_reducible exact Foot.refl
    | with_reducible assumption
    | (with_reducible apply partsIn_dec; decide)
    | with_reducible apply Foot.next ?_ (State.targetServe_foot ..) ?_
    | with_reducible apply Foot.next ?_ (State.twStretch_foot ..) ?_
    | with_reducible apply Foot.next ?_ (State.modPort_foot ..) ?_
    | with_reducible apply Foot.next ?_ (State.setAll_foot ..) ?_
    | with_reducible apply Foot.ite ?_ ?_
    )

theorem execTargetRead_foot {n : Fin 12} {addr : Fin 128} {count : Nat} {s : State} {t : State} (h : execTargetRead n addr count s = .next t) : Foot [.regs, .tw] s t := by
  unfold execTargetRead at h
  try dsimp only at h
  with_reducible refine Foot.ofNext h ?_
  repeat' (first
    | with_reducible exact Foot.refl
    | with_reducible assumption
    | (with_reducible apply partsIn_dec; decide)
    | with_reducible apply Foot.next ?_ (State.targetRead_foot ..) ?_
    )

theorem execTxValidTimeout_foot {n : Fin 12} {s : State} {t : State} (h : execTxValidTimeout n s = .next t) : Foot [.regs, .tw] s t := by
  unfold execTxValidTimeout at h
  try dsimp only at h
  with_reducible refine Foot.ofNext h ?_
  repeat' (first
    | with_reducible exact Foot.refl
    | with_reducible assumption
    | (with_reducible apply partsIn_dec; decide)
    | with_reducible apply Foot.next ?_ (State.targetServe_foot ..) ?_
    | with_reducible apply Foot.next ?_ (State.set_foot ..) ?_
    | with_reducible apply Foot.ite ?_ ?_
    )

theorem execTargetTimeout_foot {n : Fin 12} {addr : Fin 128} {s : State} {t : State} (h : execTargetTimeout n addr s = .next t) : Foot [.regs, .sil, .tw] s t := by
  unfold execTargetTimeout at h
  try dsimp only at h
  with_reducible refine Foot.ofNext h ?_
  repeat' (first
    | with_reducible exact Foot.refl
    | with_reducible assumption
    | (with_reducible apply partsIn_dec; decide)
    | with_reducible apply Foot.next ?_ (State.twStretch_foot ..) ?_
    | with_reducible apply Foot.next ?_ (State.modPort_foot ..) ?_
    | with_reducible apply Foot.next ?_ (State.setAll_foot ..) ?_
    | with_reducible apply Foot.next ?_ (State.log_foot ..) ?_
    | with_reducible apply Foot.ite ?_ ?_
    )

theorem State.queuePoll_foot (s : State) (n : Nat) (l : List (Nat × Nat)) : Foot [.tw] s (State.queuePoll s n l) := by
  induction l generalizing s with
  | nil => exact Foot.refl
  | cons e t ih => exact Foot.trans (State.twQueue_foot ..) (ih _)

theorem execAttentionRequest_foot {n : Fin 12} {s : State} {t : State} (h : execAttentionRequest n s = .next t) : Foot [.tw] s t := by
  unfold execAttentionRequest at h
  try dsimp only at h
  with_reducible refine Foot.ofNext h ?_
  repeat' (first
    | with_reducible exact Foot.refl
    | with_reducible assumption
    | (with_reducible apply partsIn_dec; decide)
    | with_reducible apply Foot.next ?_ (State.queuePoll_foot ..) ?_
    | with_reducible apply Foot.ite ?_ ?_
    )

theorem State.smbAlert_foot (s : State) (n : Nat) (low : Bool) : Foot [.tw] s (State.smbAlert s n low) := by
  unfold State.smbAlert
  try dsimp only
  repeat' (first
    | with_reducible exact Foot.refl
    | with_reducible assumption
    | (with_reducible apply partsIn_dec; decide)
    | with_reducible apply Foot.next ?_ (State.araWant_foot ..) ?_
    | with_reducible apply Foot.next ?_ (State.modPort_foot ..) ?_
    | with_reducible apply Foot.ite ?_ ?_
    )

theorem execSmbAlert_foot {n : Fin 12} {low : Bool} {s : State} {t : State} (h : execSmbAlert n low s = .next t) : Foot [.tw] s t := by
  unfold execSmbAlert at h
  try dsimp only at h
  with_reducible refine Foot.ofNext h ?_
  repeat' (first
    | with_reducible exact Foot.refl
    | with_reducible assumption
    | (with_reducible apply partsIn_dec; decide)
    | with_reducible apply Foot.next ?_ (State.smbAlert_foot ..) ?_
    | with_reducible apply Foot.ite ?_ ?_
    )

theorem execAlertRetry_foot {n : Fin 12} {s : State} {t : State} (h : execAlertRetry n s = .next t) : Foot [.tw] s t := by
  unfold execAlertRetry at h
  try dsimp only at h
  with_reducible refine Foot.ofNext h ?_
  repeat' (first
    | with_reducible exact Foot.refl
    | with_reducible assumption
    | (with_reducible apply partsIn_dec; decide)
    | with_reducible apply Foot.next ?_ (State.araWant_foot ..) ?_
    )

theorem execAlertQueueRead_foot {ini : Initiator} {n : Fin 12} {s : State} {t : State} (h : execAlertQueueRead ini n s = .next t) : Foot [.regs, .sil, .tw, .bus] s t := by
  unfold execAlertQueueRead at h
  try dsimp only at h
  with_reducible refine Foot.ofNext h ?_
  repeat' (first
    | with_reducible exact Foot.refl
    | with_reducible assumption
    | (with_reducible apply partsIn_dec; decide)
    | with_reducible apply Foot.next ?_ (State.alertPop_foot ..) ?_
    | with_reducible apply Foot.next ?_ (State.block_foot ..) ?_
    | split
    | with_reducible apply Foot.next ?_ Foot.bus_upd ?_
    )

theorem execSegOffExpiry_foot {n : Fin 12} {s : State} {t : State} (h : execSegOffExpiry n s = .next t) : Foot [.regs] s t := by
  unfold execSegOffExpiry at h
  try dsimp only at h
  with_reducible refine Foot.ofNext h ?_
  repeat' (first
    | with_reducible exact Foot.refl
    | with_reducible assumption
    | (with_reducible apply partsIn_dec; decide)
    | with_reducible apply Foot.next ?_ (State.set_foot ..) ?_
    | with_reducible apply Foot.ite ?_ ?_
    )

theorem execSegIdleTimeout_foot {n : Fin 12} {s : State} {t : State} (h : execSegIdleTimeout n s = .next t) : Foot [.regs, .sil] s t := by
  unfold execSegIdleTimeout at h
  try dsimp only at h
  with_reducible refine Foot.ofNext h ?_
  repeat' (first
    | with_reducible exact Foot.refl
    | with_reducible assumption
    | (with_reducible apply partsIn_dec; decide)
    | with_reducible apply Foot.next ?_ (State.segCycle_foot ..) ?_
    | with_reducible apply Foot.ite ?_ ?_
    )

theorem execSegRunReset_foot {n : Fin 12} {s : State} {t : State} (h : execSegRunReset n s = .next t) : Foot [.regs] s t := by
  unfold execSegRunReset at h
  try dsimp only at h
  with_reducible refine Foot.ofNext h ?_
  repeat' (first
    | with_reducible exact Foot.refl
    | with_reducible assumption
    | (with_reducible apply partsIn_dec; decide)
    | with_reducible apply Foot.next ?_ (State.set_foot ..) ?_
    | with_reducible apply Foot.ite ?_ ?_
    )

end Sys2Proof.Machine
end

