-- ==== Sys2Proof/Laws/FootClamp.lean ====
section
/-! SUPPORT. Footprints of the functions of Machine/Clamp.lean. -/

namespace Sys2Proof.Machine

theorem State.modCport_foot (s : State) (p : Nat) (f : ClampPort → ClampPort) : Foot [.tamp] s (State.modCport s p f) := by
  unfold State.modCport
  try dsimp only
  repeat' (first
    | with_reducible exact Foot.refl
    | with_reducible assumption
    | (with_reducible apply partsIn_dec; decide)
    | with_reducible apply Foot.next ?_ Foot.tamp_upd ?_
    )

theorem State.clampWrite_foot (s : State) (p v : Nat) : Foot [.tw, .tamp] s (State.clampWrite s p v) := by
  unfold State.clampWrite
  try dsimp only
  repeat' (first
    | with_reducible exact Foot.refl
    | with_reducible assumption
    | (with_reducible apply partsIn_dec; decide)
    | with_reducible apply Foot.next ?_ (State.twQueue_foot ..) ?_
    | with_reducible apply Foot.next ?_ (State.modPort_foot ..) ?_
    | with_reducible apply Foot.next ?_ (State.modCport_foot ..) ?_
    | with_reducible apply Foot.ite ?_ ?_
    | split
    )

theorem State.queueThrottle_foot (s : State) (p link lvl : Nat) : Foot [.tw] s (State.queueThrottle s p link lvl) := by
  unfold State.queueThrottle
  try dsimp only
  repeat' (first
    | with_reducible exact Foot.refl
    | with_reducible assumption
    | (with_reducible apply partsIn_dec; decide)
    | with_reducible apply Foot.next ?_ (State.twQueue_foot ..) ?_
    )

theorem State.clampCommand_foot (s : State) (p v : Nat) : Foot [.regs, .tw, .tamp] s (State.clampCommand s p v) := by
  unfold State.clampCommand
  try dsimp only
  repeat' (first
    | with_reducible exact Foot.refl
    | with_reducible assumption
    | (with_reducible apply partsIn_dec; decide)
    | with_reducible apply Foot.next ?_ (State.queueThrottle_foot ..) ?_
    | with_reducible apply Foot.next ?_ (State.clampWrite_foot ..) ?_
    | with_reducible apply Foot.next ?_ (State.modCport_foot ..) ?_
    | with_reducible apply Foot.next ?_ (State.set_foot ..) ?_
    | with_reducible apply Foot.ite ?_ ?_
    )

theorem State.clampThrottleOff_foot (s : State) (p : Nat) : Foot [.regs, .tw, .tamp] s (State.clampThrottleOff s p) := by
  unfold State.clampThrottleOff
  try dsimp only
  repeat' (first
    | with_reducible exact Foot.refl
    | with_reducible assumption
    | (with_reducible apply partsIn_dec; decide)
    | with_reducible apply Foot.next ?_ (State.clampCommand_foot ..) ?_
    | with_reducible apply Foot.next ?_ (State.modCport_foot ..) ?_
    | with_reducible apply Foot.ite ?_ ?_
    )

theorem State.clampRelease_foot (s : State) (p : Nat) : Foot [.regs, .tw, .tamp] s (State.clampRelease s p) := by
  unfold State.clampRelease
  try dsimp only
  repeat' (first
    | with_reducible exact Foot.refl
    | with_reducible assumption
    | (with_reducible apply partsIn_dec; decide)
    | with_reducible apply Foot.next ?_ (State.clampCommand_foot ..) ?_
    | with_reducible apply Foot.next ?_ (State.modCport_foot ..) ?_
    | with_reducible apply Foot.ite ?_ ?_
    )

theorem State.clampPort_foot (s : State) (p : Nat) : Foot [.regs, .tw, .tamp] s (State.clampPort s p) := by
  unfold State.clampPort
  try dsimp only
  repeat' (first
    | with_reducible exact Foot.refl
    | with_reducible assumption
    | (with_reducible apply partsIn_dec; decide)
    | with_reducible apply Foot.next ?_ (State.clampCommand_foot ..) ?_
    | with_reducible apply Foot.ite ?_ ?_
    | split
    )

theorem State.portToRest_foot (s : State) (p : Nat) : Foot [.regs, .tamp] s (State.portToRest s p) := by
  unfold State.portToRest
  try dsimp only
  repeat' (first
    | with_reducible exact Foot.refl
    | with_reducible assumption
    | (with_reducible apply partsIn_dec; decide)
    | with_reducible apply Foot.next ?_ (State.modCport_foot ..) ?_
    | with_reducible apply Foot.next ?_ (State.set_foot ..) ?_
    )

theorem State.portSync_foot (s : State) (p : Nat) : Foot [.regs, .tamp] s (State.portSync s p) := by
  unfold State.portSync
  try dsimp only
  repeat' (first
    | with_reducible exact Foot.refl
    | with_reducible assumption
    | (with_reducible apply partsIn_dec; decide)
    | with_reducible apply Foot.next ?_ (State.portToRest_foot ..) ?_
    | with_reducible apply Foot.next ?_ (State.modCport_foot ..) ?_
    | with_reducible apply Foot.ite ?_ ?_
    )

theorem State.proposal_foot (s : State) (p v : Nat) : Foot [.regs, .tw, .tamp] s (State.proposal s p v) := by
  unfold State.proposal
  try dsimp only
  repeat' (first
    | with_reducible exact Foot.refl
    | with_reducible assumption
    | (with_reducible apply partsIn_dec; decide)
    | with_reducible apply Foot.next ?_ (State.portSync_foot ..) ?_
    | with_reducible apply Foot.next ?_ (State.clampPort_foot ..) ?_
    | with_reducible apply Foot.next ?_ (State.modCport_foot ..) ?_
    | with_reducible apply Foot.next ?_ (State.set_foot ..) ?_
    )

theorem State.clampRetry_foot (s : State) (p : Nat) : Foot [.regs, .tw, .tamp] s (State.clampRetry s p) := by
  unfold State.clampRetry
  try dsimp only
  repeat' (first
    | with_reducible exact Foot.refl
    | with_reducible assumption
    | (with_reducible apply partsIn_dec; decide)
    | with_reducible apply Foot.next ?_ (State.clampPort_foot ..) ?_
    | with_reducible apply Foot.next ?_ (State.modCport_foot ..) ?_
    | with_reducible apply Foot.ite ?_ ?_
    )

theorem State.portsSync_foot (s : State) : Foot [.regs, .tamp] s (State.portsSync s) := by
  unfold State.portsSync
  try dsimp only
  repeat' (first
    | with_reducible exact Foot.refl
    | with_reducible assumption
    | (with_reducible apply partsIn_dec; decide)
    | with_reducible apply Foot.next ?_ (State.portSync_foot ..) ?_
    | with_reducible apply Foot.foldl (fun _ _ _ => ?_) ?_
    )

theorem State.clampRailOn_foot (s : State) (r : Nat) : Foot [.regs, .tw, .tamp] s (State.clampRailOn s r) := by
  unfold State.clampRailOn
  try dsimp only
  repeat' (first
    | with_reducible exact Foot.refl
    | with_reducible assumption
    | (with_reducible apply partsIn_dec; decide)
    | with_reducible apply Foot.next ?_ (State.portsSync_foot ..) ?_
    | with_reducible apply Foot.next ?_ (State.portToRest_foot ..) ?_
    | with_reducible apply Foot.next ?_ (State.clampPort_foot ..) ?_
    | with_reducible apply Foot.foldl (fun _ _ _ => ?_) ?_
    | with_reducible apply Foot.ite ?_ ?_
    )

theorem State.clampAcc_foot (s : State) (a : Nat) : Foot [.regs, .tw, .tamp] s (State.clampAcc s a) := by
  unfold State.clampAcc
  try dsimp only
  repeat' (first
    | with_reducible exact Foot.refl
    | with_reducible assumption
    | (with_reducible apply partsIn_dec; decide)
    | with_reducible apply Foot.next ?_ (State.clampPort_foot ..) ?_
    | with_reducible apply Foot.foldl (fun _ _ _ => ?_) ?_
    | with_reducible apply Foot.ite ?_ ?_
    )

theorem State.clampDone_foot (s : State) (p v r : Nat) : Foot [.regs, .tamp] s (State.clampDone s p v r) := by
  unfold State.clampDone
  try dsimp only
  repeat' (first
    | with_reducible exact Foot.refl
    | with_reducible assumption
    | (with_reducible apply partsIn_dec; decide)
    | with_reducible apply Foot.next ?_ (State.modCport_foot ..) ?_
    | with_reducible apply Foot.next ?_ (State.set_foot ..) ?_
    | with_reducible apply Foot.ite ?_ ?_
    )

theorem State.clampDrop_foot (s : State) (r : Nat) : Foot [.tw, .tamp] s (State.clampDrop s r) := by
  unfold State.clampDrop
  try dsimp only
  repeat' (first
    | with_reducible exact Foot.refl
    | with_reducible assumption
    | (with_reducible apply partsIn_dec; decide)
    | with_reducible apply Foot.next ?_ (State.modPort_foot ..) ?_
    | with_reducible apply Foot.next ?_ (State.modCport_foot ..) ?_
    | with_reducible apply Foot.foldl (fun _ _ _ => ?_) ?_
    | with_reducible apply Foot.ite ?_ ?_
    | split
    )

theorem State.clampSegUp_foot (s : State) (n : Nat) : Foot [.regs, .tw, .tamp] s (State.clampSegUp s n) := by
  unfold State.clampSegUp
  try dsimp only
  repeat' (first
    | with_reducible exact Foot.refl
    | with_reducible assumption
    | (with_reducible apply partsIn_dec; decide)
    | with_reducible apply Foot.next ?_ (State.clampPort_foot ..) ?_
    | with_reducible apply Foot.next ?_ (State.modCport_foot ..) ?_
    | with_reducible apply Foot.foldl (fun _ _ _ => ?_) ?_
    | with_reducible apply Foot.ite ?_ ?_
    )

theorem State.clampReleaseAll_foot (s : State) (ps : List Nat) : Foot [.regs, .tw, .tamp] s (State.clampReleaseAll s ps) := by
  unfold State.clampReleaseAll
  try dsimp only
  repeat' (first
    | with_reducible exact Foot.refl
    | with_reducible assumption
    | (with_reducible apply partsIn_dec; decide)
    | with_reducible apply Foot.next ?_ (State.clampRelease_foot ..) ?_
    | with_reducible apply Foot.foldl (fun _ _ _ => ?_) ?_
    )

theorem State.revertOne_foot (s : State) (p : Nat) : Foot [.regs, .tw, .tamp] s (State.revertOne s p) := by
  unfold State.revertOne
  try dsimp only
  repeat' (first
    | with_reducible exact Foot.refl
    | with_reducible assumption
    | (with_reducible apply partsIn_dec; decide)
    | with_reducible apply Foot.next ?_ (State.clampCommand_foot ..) ?_
    | with_reducible apply Foot.next ?_ (State.modCport_foot ..) ?_
    | with_reducible apply Foot.ite ?_ ?_
    )

theorem execVofsRevertStep_foot {port : Fin 64} {s : State} {t : State} (h : execVofsRevertStep port s = .next t) : Foot [.regs, .tw, .tamp] s t := by
  unfold execVofsRevertStep at h
  try dsimp only at h
  with_reducible refine Foot.ofNext h ?_
  repeat' (first
    | with_reducible exact Foot.refl
    | with_reducible assumption
    | (with_reducible apply partsIn_dec; decide)
    | with_reducible apply Foot.next ?_ (State.revertOne_foot ..) ?_
    )

end Sys2Proof.Machine
end

