-- ==== Sys2Proof/Laws/FootNvm.lean ====
section
/-! SUPPORT. Footprints of the functions of Machine/Nvm.lean. -/

namespace Sys2Proof.Machine

theorem State.nvmStart_foot (s : State) : Foot [.regs, .nvm] s (State.nvmStart s) := by
  unfold State.nvmStart
  try dsimp only
  repeat' (first
    | with_reducible exact Foot.refl
    | with_reducible assumption
    | (with_reducible apply partsIn_dec; decide)
    | with_reducible apply Foot.next ?_ (State.set_foot ..) ?_
    | with_reducible apply Foot.ite ?_ ?_
    | split
    | with_reducible apply Foot.next ?_ Foot.nvm_upd ?_
    )

theorem State.nvmCommit_foot (s : State) (j : NvmJob) : Foot [.regs, .nvm] s (State.nvmCommit s j) := by
  unfold State.nvmCommit
  try dsimp only
  repeat' (first
    | with_reducible exact Foot.refl
    | with_reducible assumption
    | (with_reducible apply partsIn_dec; decide)
    | with_reducible apply Foot.next ?_ (State.nvmStart_foot ..) ?_
    | with_reducible apply Foot.next ?_ Foot.nvm_upd ?_
    )

theorem State.nvmShow_foot (s : State) (a0 : NvmData) : Foot [.regs] s (State.nvmShow s a0) := by
  unfold State.nvmShow
  try dsimp only
  repeat' (first
    | with_reducible exact Foot.refl
    | with_reducible assumption
    | (with_reducible apply partsIn_dec; decide)
    | with_reducible apply Foot.next ?_ (State.setAll_foot ..) ?_
    | split
    )

theorem State.nvmFinish_foot (s : State) : Foot [.regs, .nvm] s (State.nvmFinish s) := by
  unfold State.nvmFinish
  try dsimp only
  repeat' (first
    | with_reducible exact Foot.refl
    | with_reducible assumption
    | (with_reducible apply partsIn_dec; decide)
    | with_reducible apply Foot.next ?_ (State.nvmShow_foot ..) ?_
    | with_reducible apply Foot.foldl (fun _ _ _ => ?_) ?_
    | split
    | with_reducible apply Foot.next ?_ Foot.nvm_upd ?_
    )

theorem State.nvmCompacted_foot (s : State) : Foot [.regs, .nvm] s (State.nvmCompacted s) := by
  unfold State.nvmCompacted
  try dsimp only
  repeat' (first
    | with_reducible exact Foot.refl
    | with_reducible assumption
    | (with_reducible apply partsIn_dec; decide)
    | with_reducible apply Foot.next ?_ (State.nvmStart_foot ..) ?_
    | with_reducible apply Foot.next ?_ (State.set_foot ..) ?_
    | with_reducible apply Foot.ite ?_ ?_
    | with_reducible apply Foot.next ?_ Foot.nvm_upd ?_
    )

theorem State.silNvmClear_foot (s : State) : Foot [.regs, .nvm] s (State.silNvmClear s) := by
  unfold State.silNvmClear
  try dsimp only
  repeat' (first
    | with_reducible exact Foot.refl
    | with_reducible assumption
    | (with_reducible apply partsIn_dec; decide)
    | with_reducible apply Foot.next ?_ (State.nvmCommit_foot ..) ?_
    | with_reducible apply Foot.ite ?_ ?_
    )

theorem State.silCommit_foot (s : State) : Foot [.regs, .sil, .nvm] s (State.silCommit s) := by
  unfold State.silCommit
  try dsimp only
  repeat' (first
    | with_reducible exact Foot.refl
    | with_reducible assumption
    | (with_reducible apply partsIn_dec; decide)
    | with_reducible apply Foot.next ?_ (State.nvmCommit_foot ..) ?_
    | with_reducible apply Foot.ite ?_ ?_
    | with_reducible apply Foot.next ?_ Foot.sil_upd ?_
    )

theorem execSilNvmCommit_foot {s : State} {t : State} (h : execSilNvmCommit s = .next t) : Foot [.regs, .sil, .nvm] s t := by
  unfold execSilNvmCommit at h
  try dsimp only at h
  with_reducible refine Foot.ofNext h ?_
  repeat' (first
    | with_reducible exact Foot.refl
    | with_reducible assumption
    | (with_reducible apply partsIn_dec; decide)
    | with_reducible apply Foot.next ?_ (State.silCommit_foot ..) ?_
    )

theorem execNvmClr_foot {ini : Initiator} {s : State} {t : State} (h : execNvmClr ini s = .next t) : Foot [.regs, .sil, .nvm, .bus] s t := by
  unfold execNvmClr at h
  try dsimp only at h
  with_reducible refine Foot.ofNext h ?_
  repeat' (first
    | with_reducible exact Foot.refl
    | with_reducible assumption
    | (with_reducible apply partsIn_dec; decide)
    | with_reducible apply Foot.next ?_ (State.silNvmClear_foot ..) ?_
    | with_reducible apply Foot.trans ?_ (State.command_foot _ _ _ _ ?_ ?_)
    )

end Sys2Proof.Machine
end

