-- ==== Sys2Proof/Laws/FootSeqBase.lean ====
section
/-! SUPPORT. Footprints of the functions of Machine/SeqBase.lean. -/

namespace Sys2Proof.Machine

theorem State.modRail_foot (s : State) (r : Nat) (f : Rail → Rail) : Foot [.seq] s (State.modRail s r f) := by
  unfold State.modRail
  try dsimp only
  repeat' (first
    | with_reducible exact Foot.refl
    | with_reducible assumption
    | (with_reducible apply partsIn_dec; decide)
    | with_reducible apply Foot.ite ?_ ?_
    | with_reducible apply Foot.next ?_ Foot.seq_upd ?_
    )

theorem State.queueOperation_foot (s : State) (c : RailCfg) (on : Bool) (now : Bool) : Foot [.tw] s (State.queueOperation s c on now) := by
  unfold State.queueOperation
  try dsimp only
  repeat' (first
    | with_reducible exact Foot.refl
    | with_reducible assumption
    | (with_reducible apply partsIn_dec; decide)
    | with_reducible apply Foot.next ?_ (State.twQueue_foot ..) ?_
    | with_reducible apply Foot.ite ?_ ?_
    )

theorem State.queueStatus_foot (s : State) (c : RailCfg) : Foot [.tw] s (State.queueStatus s c) := by
  unfold State.queueStatus
  try dsimp only
  repeat' (first
    | with_reducible exact Foot.refl
    | with_reducible assumption
    | (with_reducible apply partsIn_dec; decide)
    | with_reducible apply Foot.next ?_ (State.twQueue_foot ..) ?_
    )

end Sys2Proof.Machine
end

