-- ==== Sys2Proof/Laws/FootSequencer.lean ====
section
/-! SUPPORT. Footprints of the functions of Machine/Sequencer.lean. -/

namespace Sys2Proof.Machine

theorem State.modSeq_foot (s : State) (f : SeqSt → SeqSt) : Foot [.seq] s (State.modSeq s f) := by
  unfold State.modSeq
  try dsimp only
  repeat' (first
    | with_reducible exact Foot.refl
    | with_reducible assumption
    | (with_reducible apply partsIn_dec; decide)
    | with_reducible apply Foot.next ?_ Foot.seq_upd ?_
    )

theorem State.mapRails_foot (s : State) (f : Rail → Rail) : Foot [.seq] s (State.mapRails s f) := by
  unfold State.mapRails
  try dsimp only
  repeat' (first
    | with_reducible exact Foot.refl
    | with_reducible assumption
    | (with_reducible apply partsIn_dec; decide)
    | with_reducible apply Foot.next ?_ (State.modSeq_foot ..) ?_
    )

theorem State.seqHold_foot (s : State) : Foot [.seq] s (State.seqHold s) := by
  unfold State.seqHold
  try dsimp only
  repeat' (first
    | with_reducible exact Foot.refl
    | with_reducible assumption
    | (with_reducible apply partsIn_dec; decide)
    | with_reducible apply Foot.next ?_ (State.mapRails_foot ..) ?_
    | with_reducible apply Foot.next ?_ (State.modSeq_foot ..) ?_
    )

theorem State.seqUnhold_foot (s : State) (restart : Bool) : Foot [.seq] s (State.seqUnhold s restart) := by
  unfold State.seqUnhold
  try dsimp only
  repeat' (first
    | with_reducible exact Foot.refl
    | with_reducible assumption
    | (with_reducible apply partsIn_dec; decide)
    | with_reducible apply Foot.next ?_ (State.mapRails_foot ..) ?_
    | with_reducible apply Foot.next ?_ (State.modSeq_foot ..) ?_
    | with_reducible apply Foot.ite ?_ ?_
    )

theorem State.marginStop_foot (s : State) : Foot [.regs, .seq] s (State.marginStop s) := by
  unfold State.marginStop
  try dsimp only
  repeat' (first
    | with_reducible exact Foot.refl
    | with_reducible assumption
    | (with_reducible apply partsIn_dec; decide)
    | with_reducible apply Foot.next ?_ (State.modSeq_foot ..) ?_
    | with_reducible apply Foot.next ?_ (State.set_foot ..) ?_
    | with_reducible apply Foot.ite ?_ ?_
    )

theorem State.marginReturn_foot (s : State) (r : Rail) (log : Bool) : Foot [.regs, .sil, .tw, .seq, .tamp] s (State.marginReturn s r log) := by
  unfold State.marginReturn
  try dsimp only
  repeat' (first
    | with_reducible exact Foot.refl
    | with_reducible assumption
    | (with_reducible apply partsIn_dec; decide)
    | with_reducible apply Foot.next ?_ (State.modRail_foot ..) ?_
    | with_reducible apply Foot.next ?_ (State.marginStop_foot ..) ?_
    | with_reducible apply Foot.next ?_ (State.clampRailOn_foot ..) ?_
    | with_reducible apply Foot.next ?_ (State.logIf_foot ..) ?_
    | with_reducible apply Foot.next ?_ (State.twQueue_foot ..) ?_
    | with_reducible apply Foot.next ?_ (State.set_foot ..) ?_
    | with_reducible apply Foot.next ?_ (State.log_foot ..) ?_
    | with_reducible apply Foot.ite ?_ ?_
    )

theorem State.marginReturnAll_foot (s : State) (rs : List Rail) (log : Bool) : Foot [.regs, .sil, .tw, .seq, .tamp] s (State.marginReturnAll s rs log) := by
  unfold State.marginReturnAll
  try dsimp only
  repeat' (first
    | with_reducible exact Foot.refl
    | with_reducible assumption
    | (with_reducible apply partsIn_dec; decide)
    | with_reducible apply Foot.next ?_ (State.marginReturn_foot ..) ?_
    | with_reducible apply Foot.next ?_ (State.log_foot ..) ?_
    | with_reducible apply Foot.foldl (fun _ _ _ => ?_) ?_
    )

theorem State.powerDown_foot (s : State) (p : Rail → Bool) (black fault : Bool) : Foot [.regs, .sil, .tw, .seq, .tamp] s (State.powerDown s p black fault) := by
  unfold State.powerDown
  try dsimp only
  repeat' (first
    | with_reducible exact Foot.refl
    | with_reducible assumption
    | (with_reducible apply partsIn_dec; decide)
    | with_reducible apply Foot.next ?_ (State.marginReturnAll_foot ..) ?_
    | with_reducible apply Foot.next ?_ (State.mapRails_foot ..) ?_
    | with_reducible apply Foot.ite ?_ ?_
    )

theorem State.rstoAssert_foot (s : State) (also : List Nat) : Foot [.seq] s (State.rstoAssert s also) := by
  unfold State.rstoAssert
  try dsimp only
  repeat' (first
    | with_reducible exact Foot.refl
    | with_reducible assumption
    | (with_reducible apply partsIn_dec; decide)
    | with_reducible apply Foot.next ?_ (State.modSeq_foot ..) ?_
    | with_reducible apply Foot.foldl (fun _ _ _ => ?_) ?_
    | with_reducible apply Foot.ite ?_ ?_
    )

theorem State.leakSettle_foot (s : State) : Foot [.regs, .cool] s (State.leakSettle s) := by
  unfold State.leakSettle
  try dsimp only
  repeat' (first
    | with_reducible exact Foot.refl
    | with_reducible assumption
    | (with_reducible apply partsIn_dec; decide)
    | with_reducible apply Foot.next ?_ (State.set_foot ..) ?_
    | with_reducible apply Foot.foldl (fun _ _ _ => ?_) ?_
    | with_reducible apply Foot.ite ?_ ?_
    | with_reducible apply Foot.next ?_ Foot.cool_upd ?_
    )

theorem State.seqEnd_foot (s : State) : Foot [.sil, .seq] s (State.seqEnd s) := by
  unfold State.seqEnd
  try dsimp only
  repeat' (first
    | with_reducible exact Foot.refl
    | with_reducible assumption
    | (with_reducible apply partsIn_dec; decide)
    | with_reducible apply Foot.next ?_ (State.logIf_foot ..) ?_
    | with_reducible apply Foot.next ?_ (State.modSeq_foot ..) ?_
    | with_reducible apply Foot.ite ?_ ?_
    )

theorem State.seqFinish_foot (s : State) : Foot [.regs, .sil, .seq, .cool] s (State.seqFinish s) := by
  unfold State.seqFinish
  try dsimp only
  repeat' (first
    | with_reducible exact Foot.refl
    | with_reducible assumption
    | (with_reducible apply partsIn_dec; decide)
    | with_reducible apply Foot.next ?_ (State.seqEnd_foot ..) ?_
    | with_reducible apply Foot.next ?_ (State.leakSettle_foot ..) ?_
    )

theorem State.blackRequest_foot (s : State) (a : Nat) : Foot [.regs, .sil, .tw, .seq, .tamp, .cool] s (State.blackRequest s a) := by
  unfold State.blackRequest
  try dsimp only
  repeat' (first
    | with_reducible exact Foot.refl
    | with_reducible assumption
    | (with_reducible apply partsIn_dec; decide)
    | with_reducible apply Foot.next ?_ (State.seqFinish_foot ..) ?_
    | with_reducible apply Foot.next ?_ (State.rstoAssert_foot ..) ?_
    | with_reducible apply Foot.next ?_ (State.powerDown_foot ..) ?_
    | with_reducible apply Foot.next ?_ (State.modSeq_foot ..) ?_
    | with_reducible apply Foot.next ?_ (State.set_foot ..) ?_
    | with_reducible apply Foot.ite ?_ ?_
    )

theorem State.testEnd_foot (s : State) : Foot [.regs, .sil, .tw, .seq, .tamp] s (State.testEnd s) := by
  unfold State.testEnd
  try dsimp only
  repeat' (first
    | with_reducible exact Foot.refl
    | with_reducible assumption
    | (with_reducible apply partsIn_dec; decide)
    | with_reducible apply Foot.next ?_ (State.marginReturnAll_foot ..) ?_
    | with_reducible apply Foot.next ?_ (State.marginStop_foot ..) ?_
    | with_reducible apply Foot.next ?_ (State.silMode_foot ..) ?_
    | with_reducible apply Foot.next ?_ (State.set_foot ..) ?_
    | with_reducible apply Foot.ite ?_ ?_
    )

theorem State.trayInputFail_foot (s : State) : Foot [.regs, .sil, .tw, .seq, .tamp, .cool] s (State.trayInputFail s) := by
  unfold State.trayInputFail
  try dsimp only
  repeat' (first
    | with_reducible exact Foot.refl
    | with_reducible assumption
    | (with_reducible apply partsIn_dec; decide)
    | with_reducible apply Foot.next ?_ (State.seqFinish_foot ..) ?_
    | with_reducible apply Foot.next ?_ (State.rstoAssert_foot ..) ?_
    | with_reducible apply Foot.next ?_ (State.powerDown_foot ..) ?_
    | with_reducible apply Foot.next ?_ (State.modSeq_foot ..) ?_
    | with_reducible apply Foot.next ?_ (State.set_foot ..) ?_
    | with_reducible apply Foot.next ?_ (State.log_foot ..) ?_
    | with_reducible apply Foot.ite ?_ ?_
    )

theorem State.railsUp_foot (s : State) (groups op : Nat) : Foot [.seq] s (State.railsUp s groups op) := by
  unfold State.railsUp
  try dsimp only
  repeat' (first
    | with_reducible exact Foot.refl
    | with_reducible assumption
    | (with_reducible apply partsIn_dec; decide)
    | with_reducible apply Foot.next ?_ (State.mapRails_foot ..) ?_
    | with_reducible apply Foot.next ?_ (State.modSeq_foot ..) ?_
    | with_reducible apply Foot.ite ?_ ?_
    )

theorem State.restartUp_foot (s : State) : Foot [.regs, .seq] s (State.restartUp s) := by
  unfold State.restartUp
  try dsimp only
  repeat' (first
    | with_reducible exact Foot.refl
    | with_reducible assumption
    | (with_reducible apply partsIn_dec; decide)
    | with_reducible apply Foot.next ?_ (State.railsUp_foot ..) ?_
    | with_reducible apply Foot.next ?_ (State.modSeq_foot ..) ?_
    | with_reducible apply Foot.next ?_ (State.set_foot ..) ?_
    | with_reducible apply Foot.ite ?_ ?_
    )

theorem State.trayInputGood_foot (s : State) : Foot [.regs, .seq] s (State.trayInputGood s) := by
  unfold State.trayInputGood
  try dsimp only
  repeat' (first
    | with_reducible exact Foot.refl
    | with_reducible assumption
    | (with_reducible apply partsIn_dec; decide)
    | with_reducible apply Foot.next ?_ (State.restartUp_foot ..) ?_
    | with_reducible apply Foot.next ?_ (State.set_foot ..) ?_
    | with_reducible apply Foot.ite ?_ ?_
    )

theorem State.trayAin_foot (s : State) : Foot [.regs, .sil, .tw, .seq, .tamp, .cool] s (State.trayAin s) := by
  unfold State.trayAin
  try dsimp only
  repeat' (first
    | with_reducible exact Foot.refl
    | with_reducible assumption
    | (with_reducible apply partsIn_dec; decide)
    | with_reducible apply Foot.next ?_ (State.trayInputGood_foot ..) ?_
    | with_reducible apply Foot.next ?_ (State.trayInputFail_foot ..) ?_
    | with_reducible apply Foot.next ?_ (State.modSeq_foot ..) ?_
    | with_reducible apply Foot.ite ?_ ?_
    )

theorem State.testEnter_foot (s : State) : Foot [.regs, .sil] s (State.testEnter s) := by
  unfold State.testEnter
  try dsimp only
  repeat' (first
    | with_reducible exact Foot.refl
    | with_reducible assumption
    | (with_reducible apply partsIn_dec; decide)
    | with_reducible apply Foot.next ?_ (State.silMode_foot ..) ?_
    | with_reducible apply Foot.next ?_ (State.set_foot ..) ?_
    | with_reducible apply Foot.next ?_ (State.log_foot ..) ?_
    | with_reducible apply Foot.ite ?_ ?_
    )

theorem State.leakDown_foot (s : State) (groups : Nat) : Foot [.regs, .sil, .tw, .seq, .tamp, .cool] s (State.leakDown s groups) := by
  unfold State.leakDown
  try dsimp only
  repeat' (first
    | with_reducible exact Foot.refl
    | with_reducible assumption
    | (with_reducible apply partsIn_dec; decide)
    | with_reducible apply Foot.next ?_ (State.seqFinish_foot ..) ?_
    | with_reducible apply Foot.next ?_ (State.rstoAssert_foot ..) ?_
    | with_reducible apply Foot.next ?_ (State.powerDown_foot ..) ?_
    | with_reducible apply Foot.next ?_ (State.modSeq_foot ..) ?_
    | with_reducible apply Foot.next ?_ (State.set_foot ..) ?_
    | with_reducible apply Foot.ite ?_ ?_
    )

theorem State.rstoPre_foot (s : State) (rails : List Nat) : Foot [.seq] s (State.rstoPre s rails) := by
  unfold State.rstoPre
  try dsimp only
  repeat' (first
    | with_reducible exact Foot.refl
    | with_reducible assumption
    | (with_reducible apply partsIn_dec; decide)
    | with_reducible apply Foot.next ?_ (State.rstoAssert_foot ..) ?_
    | with_reducible apply Foot.next ?_ (State.modSeq_foot ..) ?_
    | with_reducible apply Foot.ite ?_ ?_
    )

theorem State.doPowerDown_foot (s : State) (groups : Nat) : Foot [.regs, .sil, .tw, .seq, .tamp] s (State.doPowerDown s groups) := by
  unfold State.doPowerDown
  try dsimp only
  repeat' (first
    | with_reducible exact Foot.refl
    | with_reducible assumption
    | (with_reducible apply partsIn_dec; decide)
    | with_reducible apply Foot.next ?_ (State.rstoPre_foot ..) ?_
    | with_reducible apply Foot.next ?_ (State.powerDown_foot ..) ?_
    | with_reducible apply Foot.next ?_ (State.modSeq_foot ..) ?_
    | with_reducible apply Foot.next ?_ (State.set_foot ..) ?_
    | with_reducible apply Foot.ite ?_ ?_
    )

theorem State.doSeqClear_foot (s : State) (groups : Nat) : Foot [.regs, .sil, .seq] s (State.doSeqClear s groups) := by
  unfold State.doSeqClear
  try dsimp only
  repeat' (first
    | with_reducible exact Foot.refl
    | with_reducible assumption
    | (with_reducible apply partsIn_dec; decide)
    | with_reducible apply Foot.next ?_ (State.mapRails_foot ..) ?_
    | with_reducible apply Foot.next ?_ (State.set_foot ..) ?_
    | with_reducible apply Foot.next ?_ (State.log_foot ..) ?_
    | with_reducible apply Foot.ite ?_ ?_
    )

theorem State.doTrayRestart_foot (s : State) : Foot [.regs, .sil, .tw, .seq, .tamp] s (State.doTrayRestart s) := by
  unfold State.doTrayRestart
  try dsimp only
  repeat' (first
    | with_reducible exact Foot.refl
    | with_reducible assumption
    | (with_reducible apply partsIn_dec; decide)
    | with_reducible apply Foot.next ?_ (State.rstoPre_foot ..) ?_
    | with_reducible apply Foot.next ?_ (State.powerDown_foot ..) ?_
    | with_reducible apply Foot.next ?_ (State.modSeq_foot ..) ?_
    | with_reducible apply Foot.next ?_ (State.set_foot ..) ?_
    )

theorem State.seqDo_foot (s : State) (op groups : Nat) : Foot [.regs, .sil, .tw, .seq, .tamp, .cool] s (State.seqDo s op groups) := by
  unfold State.seqDo
  try dsimp only
  repeat' (first
    | with_reducible exact Foot.refl
    | with_reducible assumption
    | (with_reducible apply partsIn_dec; decide)
    | with_reducible apply Foot.next ?_ (State.doTrayRestart_foot ..) ?_
    | with_reducible apply Foot.next ?_ (State.doSeqClear_foot ..) ?_
    | with_reducible apply Foot.next ?_ (State.doPowerDown_foot ..) ?_
    | with_reducible apply Foot.next ?_ (State.railsUp_foot ..) ?_
    | with_reducible apply Foot.next ?_ (State.seqFinish_foot ..) ?_
    | with_reducible apply Foot.ite ?_ ?_
    )

theorem State.waitDo_foot (s : State) (a0 : SeqWait) : Foot [.regs, .sil, .tw, .seq, .tamp, .cool, .bus] s (State.waitDo s a0) := by
  unfold State.waitDo
  try dsimp only
  repeat' (first
    | with_reducible exact Foot.refl
    | with_reducible assumption
    | (with_reducible apply partsIn_dec; decide)
    | with_reducible apply Foot.next ?_ (State.seqDo_foot ..) ?_
    | with_reducible apply Foot.next ?_ (State.leakDown_foot ..) ?_
    | with_reducible apply Foot.trans ?_ (State.command_foot _ _ _ _ ?_ ?_)
    | split
    )

theorem State.seqTake_foot (s : State) (w : SeqWait) : Foot [.regs, .sil, .tw, .seq, .tamp, .cool, .bus] s (State.seqTake s w) := by
  unfold State.seqTake
  try dsimp only
  repeat' (first
    | with_reducible exact Foot.refl
    | with_reducible assumption
    | (with_reducible apply partsIn_dec; decide)
    | with_reducible apply Foot.next ?_ (State.waitDo_foot ..) ?_
    | with_reducible apply Foot.next ?_ (State.modSeq_foot ..) ?_
    | with_reducible apply Foot.ite ?_ ?_
    )

theorem State.bootOn_foot (s : State) : Foot [.regs, .sil, .tw, .seq, .tamp, .cool, .bus] s (State.bootOn s) := by
  unfold State.bootOn
  try dsimp only
  repeat' (first
    | with_reducible exact Foot.refl
    | with_reducible assumption
    | (with_reducible apply partsIn_dec; decide)
    | with_reducible apply Foot.next ?_ (State.seqTake_foot ..) ?_
    | with_reducible apply Foot.trans ?_ (State.command_foot _ _ _ _ ?_ ?_)
    | with_reducible apply Foot.ite ?_ ?_
    | with_reducible apply Foot.next ?_ Foot.seq_upd ?_
    )

theorem State.capCommit_foot (s : State) (c : Capture) : Foot [.regs, .nvm] s (State.capCommit s c) := by
  unfold State.capCommit
  try dsimp only
  repeat' (first
    | with_reducible exact Foot.refl
    | with_reducible assumption
    | (with_reducible apply partsIn_dec; decide)
    | with_reducible apply Foot.next ?_ (State.nvmCommit_foot ..) ?_
    )

theorem State.capture_foot (s : State) (r : Rail) (cause : Nat) : Foot [.regs, .nvm, .seq] s (State.capture s r cause) := by
  unfold State.capture
  try dsimp only
  repeat' (first
    | with_reducible exact Foot.refl
    | with_reducible assumption
    | (with_reducible apply partsIn_dec; decide)
    | with_reducible apply Foot.next ?_ (State.capCommit_foot ..) ?_
    | with_reducible apply Foot.next ?_ (State.modSeq_foot ..) ?_
    | with_reducible apply Foot.next ?_ (State.bump_foot ..) ?_
    )

theorem State.captureLater_foot (s : State) : Foot [.regs, .nvm, .seq] s (State.captureLater s) := by
  unfold State.captureLater
  try dsimp only
  repeat' (first
    | with_reducible exact Foot.refl
    | with_reducible assumption
    | (with_reducible apply partsIn_dec; decide)
    | with_reducible apply Foot.next ?_ (State.capCommit_foot ..) ?_
    | with_reducible apply Foot.next ?_ (State.modSeq_foot ..) ?_
    | split
    )

theorem State.railSwitchOff_foot (s : State) (c : RailCfg) (now : Bool) : Foot [.tw, .seq] s (State.railSwitchOff s c now) := by
  unfold State.railSwitchOff
  try dsimp only
  repeat' (first
    | with_reducible exact Foot.refl
    | with_reducible assumption
    | (with_reducible apply partsIn_dec; decide)
    | with_reducible apply Foot.next ?_ (State.queueOperation_foot ..) ?_
    | with_reducible apply Foot.next ?_ (State.modRail_foot ..) ?_
    | with_reducible apply Foot.next ?_ (State.modSeq_foot ..) ?_
    | with_reducible apply Foot.ite ?_ ?_
    )

theorem State.railFail_foot (s : State) (rn cause : Nat) : Foot [.regs, .sil, .nvm, .tw, .seq, .tamp] s (State.railFail s rn cause) := by
  unfold State.railFail
  try dsimp only
  repeat' (first
    | with_reducible exact Foot.refl
    | with_reducible assumption
    | (with_reducible apply partsIn_dec; decide)
    | with_reducible apply Foot.next ?_ (State.railSwitchOff_foot ..) ?_
    | with_reducible apply Foot.next ?_ (State.clampDrop_foot ..) ?_
    | with_reducible apply Foot.next ?_ (State.captureLater_foot ..) ?_
    | with_reducible apply Foot.next ?_ (State.capture_foot ..) ?_
    | with_reducible apply Foot.next ?_ (State.rstoAssert_foot ..) ?_
    | with_reducible apply Foot.next ?_ (State.powerDown_foot ..) ?_
    | with_reducible apply Foot.next ?_ (State.marginReturn_foot ..) ?_
    | with_reducible apply Foot.next ?_ (State.modRail_foot ..) ?_
    | with_reducible apply Foot.next ?_ (State.modSeq_foot ..) ?_
    | with_reducible apply Foot.next ?_ (State.set_foot ..) ?_
    | with_reducible apply Foot.next ?_ (State.log_foot ..) ?_
    | with_reducible apply Foot.ite ?_ ?_
    | split
    )

theorem State.operationEnd_foot (s : State) (rn res : Nat) (on : Bool) : Foot [.regs, .sil, .nvm, .tw, .seq, .tamp, .cool] s (State.operationEnd s rn res on) := by
  unfold State.operationEnd
  try dsimp only
  repeat' (first
    | with_reducible exact Foot.refl
    | with_reducible assumption
    | (with_reducible apply partsIn_dec; decide)
    | with_reducible apply Foot.next ?_ (State.railFail_foot ..) ?_
    | with_reducible apply Foot.next ?_ (State.queueOperation_foot ..) ?_
    | with_reducible apply Foot.next ?_ (State.seqFinish_foot ..) ?_
    | with_reducible apply Foot.next ?_ (State.rstoAssert_foot ..) ?_
    | with_reducible apply Foot.next ?_ (State.modRail_foot ..) ?_
    | with_reducible apply Foot.ite ?_ ?_
    | split
    )

theorem State.railFailAll_foot (s : State) (l : List (Nat × Nat)) : Foot [.regs, .sil, .nvm, .tw, .seq, .tamp] s (State.railFailAll s l) := by
  unfold State.railFailAll
  try dsimp only
  repeat' (first
    | with_reducible exact Foot.refl
    | with_reducible assumption
    | (with_reducible apply partsIn_dec; decide)
    | with_reducible apply Foot.next ?_ (State.railFail_foot ..) ?_
    | with_reducible apply Foot.foldl (fun _ _ _ => ?_) ?_
    )

theorem State.railGood_foot (s : State) (r : Rail) : Foot [.regs, .tw, .seq, .tamp] s (State.railGood s r) := by
  unfold State.railGood
  try dsimp only
  repeat' (first
    | with_reducible exact Foot.refl
    | with_reducible assumption
    | (with_reducible apply partsIn_dec; decide)
    | with_reducible apply Foot.next ?_ (State.modRail_foot ..) ?_
    | with_reducible apply Foot.next ?_ (State.clampRailOn_foot ..) ?_
    )

theorem State.judgeRails_foot (s : State) (p : Rail → Bool) : Foot [.regs, .sil, .nvm, .tw, .seq, .tamp] s (State.judgeRails s p) := by
  unfold State.judgeRails
  try dsimp only
  repeat' (first
    | with_reducible exact Foot.refl
    | with_reducible assumption
    | (with_reducible apply partsIn_dec; decide)
    | with_reducible apply Foot.next ?_ (State.railGood_foot ..) ?_
    | with_reducible apply Foot.next ?_ (State.railFailAll_foot ..) ?_
    | with_reducible apply Foot.foldl (fun _ _ _ => ?_) ?_
    | with_reducible apply Foot.ite ?_ ?_
    | split
    )

theorem State.statusEnd_foot (s : State) (rn res : Nat) (rx : List Byte) : Foot [.regs, .sil, .nvm, .tw, .seq, .tamp, .cool] s (State.statusEnd s rn res rx) := by
  unfold State.statusEnd
  try dsimp only
  repeat' (first
    | with_reducible exact Foot.refl
    | with_reducible assumption
    | (with_reducible apply partsIn_dec; decide)
    | with_reducible apply Foot.next ?_ (State.judgeRails_foot ..) ?_
    | with_reducible apply Foot.next ?_ (State.railFail_foot ..) ?_
    | with_reducible apply Foot.next ?_ (State.seqFinish_foot ..) ?_
    | with_reducible apply Foot.next ?_ (State.rstoAssert_foot ..) ?_
    | with_reducible apply Foot.next ?_ (State.modRail_foot ..) ?_
    | with_reducible apply Foot.ite ?_ ?_
    | split
    )

theorem State.ffrClear_foot (s : State) : Foot [.regs, .sil, .nvm, .seq] s (State.ffrClear s) := by
  unfold State.ffrClear
  try dsimp only
  repeat' (first
    | with_reducible exact Foot.refl
    | with_reducible assumption
    | (with_reducible apply partsIn_dec; decide)
    | with_reducible apply Foot.next ?_ (State.nvmCommit_foot ..) ?_
    | with_reducible apply Foot.next ?_ (State.modSeq_foot ..) ?_
    | with_reducible apply Foot.next ?_ (State.log_foot ..) ?_
    | with_reducible apply Foot.ite ?_ ?_
    )

theorem State.marginRequest_foot (s : State) (rn : Nat) (dir : Bool) (steps : Nat) : Foot [.regs, .sil, .tw, .seq, .tamp] s (State.marginRequest s rn dir steps) := by
  unfold State.marginRequest
  try dsimp only
  repeat' (first
    | with_reducible exact Foot.refl
    | with_reducible assumption
    | (with_reducible apply partsIn_dec; decide)
    | with_reducible apply Foot.next ?_ (State.marginReturn_foot ..) ?_
    | with_reducible apply Foot.next ?_ (State.modSeq_foot ..) ?_
    | with_reducible apply Foot.next ?_ (State.setAll_foot ..) ?_
    | with_reducible apply Foot.next ?_ (State.set_foot ..) ?_
    | with_reducible apply Foot.ite ?_ ?_
    | split
    )

theorem State.seqCommand_foot (s : State) (op groups : Nat) : Foot [.regs, .sil, .tw, .seq, .tamp, .cool, .bus] s (State.seqCommand s op groups) := by
  unfold State.seqCommand
  try dsimp only
  repeat' (first
    | with_reducible exact Foot.refl
    | with_reducible assumption
    | (with_reducible apply partsIn_dec; decide)
    | with_reducible apply Foot.next ?_ (State.seqTake_foot ..) ?_
    | with_reducible apply Foot.trans ?_ (State.command_foot _ _ _ _ ?_ ?_)
    | with_reducible apply Foot.next ?_ (State.setAll_foot ..) ?_
    | with_reducible apply Foot.next ?_ (State.log_foot ..) ?_
    | with_reducible apply Foot.ite ?_ ?_
    )

theorem State.railEnable_foot (s : State) (r : Rail) : Foot [.tw, .seq] s (State.railEnable s r) := by
  unfold State.railEnable
  try dsimp only
  repeat' (first
    | with_reducible exact Foot.refl
    | with_reducible assumption
    | (with_reducible apply partsIn_dec; decide)
    | with_reducible apply Foot.next ?_ (State.queueOperation_foot ..) ?_
    | with_reducible apply Foot.next ?_ (State.modRail_foot ..) ?_
    | with_reducible apply Foot.next ?_ (State.modSeq_foot ..) ?_
    | with_reducible apply Foot.ite ?_ ?_
    )

theorem State.waitsGo_foot (s : State) : Foot [.regs, .sil, .tw, .seq, .tamp, .cool, .bus] s (State.waitsGo s) := by
  unfold State.waitsGo
  try dsimp only
  repeat' (first
    | with_reducible exact Foot.refl
    | with_reducible assumption
    | (with_reducible apply partsIn_dec; decide)
    | with_reducible apply Foot.next ?_ (State.waitDo_foot ..) ?_
    | with_reducible apply Foot.next ?_ (State.modSeq_foot ..) ?_
    | with_reducible apply Foot.foldl (fun _ _ _ => ?_) ?_
    )

theorem execPowerUp_foot {ini : Initiator} {groups : Fin 512} {s : State} {t : State} (h : execPowerUp ini groups s = .next t) : Foot [.regs, .sil, .tw, .seq, .tamp, .cool, .bus] s t := by
  unfold execPowerUp at h
  try dsimp only at h
  with_reducible refine Foot.ofNext h ?_
  repeat' (first
    | with_reducible exact Foot.refl
    | with_reducible assumption
    | (with_reducible apply partsIn_dec; decide)
    | with_reducible apply Foot.next ?_ (State.seqCommand_foot ..) ?_
    | with_reducible apply Foot.trans ?_ (State.command_foot _ _ _ _ ?_ ?_)
    )

theorem execPowerDown_foot {ini : Initiator} {groups : Fin 512} {s : State} {t : State} (h : execPowerDown ini groups s = .next t) : Foot [.regs, .sil, .tw, .seq, .tamp, .cool, .bus] s t := by
  unfold execPowerDown at h
  try dsimp only at h
  with_reducible refine Foot.ofNext h ?_
  repeat' (first
    | with_reducible exact Foot.refl
    | with_reducible assumption
    | (with_reducible apply partsIn_dec; decide)
    | with_reducible apply Foot.next ?_ (State.seqCommand_foot ..) ?_
    | with_reducible apply Foot.trans ?_ (State.command_foot _ _ _ _ ?_ ?_)
    )

theorem execTrayRestart_foot {ini : Initiator} {groups : Fin 512} {s : State} {t : State} (h : execTrayRestart ini groups s = .next t) : Foot [.regs, .sil, .tw, .seq, .tamp, .cool, .bus] s t := by
  unfold execTrayRestart at h
  try dsimp only at h
  with_reducible refine Foot.ofNext h ?_
  repeat' (first
    | with_reducible exact Foot.refl
    | with_reducible assumption
    | (with_reducible apply partsIn_dec; decide)
    | with_reducible apply Foot.next ?_ (State.seqCommand_foot ..) ?_
    | with_reducible apply Foot.trans ?_ (State.command_foot _ _ _ _ ?_ ?_)
    )

theorem execClear_foot {ini : Initiator} {groups : Fin 512} {s : State} {t : State} (h : execClear ini groups s = .next t) : Foot [.regs, .sil, .tw, .seq, .tamp, .cool, .bus] s t := by
  unfold execClear at h
  try dsimp only at h
  with_reducible refine Foot.ofNext h ?_
  repeat' (first
    | with_reducible exact Foot.refl
    | with_reducible assumption
    | (with_reducible apply partsIn_dec; decide)
    | with_reducible apply Foot.next ?_ (State.seqCommand_foot ..) ?_
    | with_reducible apply Foot.trans ?_ (State.command_foot _ _ _ _ ?_ ?_)
    )

theorem State.railTick_foot (t : State) (s : State) (r : Rail) : Foot [.tw, .seq, .tamp] s (State.railTick t s r) := by
  unfold State.railTick
  try dsimp only
  repeat' (first
    | with_reducible exact Foot.refl
    | with_reducible assumption
    | (with_reducible apply partsIn_dec; decide)
    | with_reducible apply Foot.next ?_ (State.railEnable_foot ..) ?_
    | with_reducible apply Foot.next ?_ (State.railSwitchOff_foot ..) ?_
    | with_reducible apply Foot.next ?_ (State.clampDrop_foot ..) ?_
    | with_reducible apply Foot.next ?_ (State.modRail_foot ..) ?_
    | with_reducible apply Foot.ite ?_ ?_
    | split
    )

theorem State.onDelay_foot (s : State) (rn : Nat) : Foot [.tw, .seq] s (State.onDelay s rn) := by
  unfold State.onDelay
  try dsimp only
  repeat' (first
    | with_reducible exact Foot.refl
    | with_reducible assumption
    | (with_reducible apply partsIn_dec; decide)
    | with_reducible apply Foot.next ?_ (State.railEnable_foot ..) ?_
    | with_reducible apply Foot.next ?_ (State.modRail_foot ..) ?_
    | with_reducible apply Foot.ite ?_ ?_
    | split
    )

theorem execOnDelayExpiry_foot {rail : Fin 96} {s : State} {t : State} (h : execOnDelayExpiry rail s = .next t) : Foot [.tw, .seq] s t := by
  unfold execOnDelayExpiry at h
  try dsimp only at h
  with_reducible refine Foot.ofNext h ?_
  repeat' (first
    | with_reducible exact Foot.refl
    | with_reducible assumption
    | (with_reducible apply partsIn_dec; decide)
    | with_reducible apply Foot.next ?_ (State.onDelay_foot ..) ?_
    )

theorem State.pwrgdChange_foot (s : State) (idx : Nat) (level : Bool) (x : PgIn) : Foot [.regs, .sil, .nvm, .tw, .seq, .tamp, .cool] s (State.pwrgdChange s idx level x) := by
  unfold State.pwrgdChange
  try dsimp only
  repeat' (first
    | with_reducible exact Foot.refl
    | with_reducible assumption
    | (with_reducible apply partsIn_dec; decide)
    | with_reducible apply Foot.next ?_ (State.judgeRails_foot ..) ?_
    | with_reducible apply Foot.next ?_ (State.seqFinish_foot ..) ?_
    | with_reducible apply Foot.next ?_ (State.rstoAssert_foot ..) ?_
    | with_reducible apply Foot.next ?_ (State.mapRails_foot ..) ?_
    | with_reducible apply Foot.next ?_ (State.modSeq_foot ..) ?_
    | with_reducible apply Foot.ite ?_ ?_
    )

theorem execPwrgdChange_foot {idx : Fin 64} {level : Bool} {x : PgIn} {s : State} {t : State} (h : execPwrgdChange idx level x s = .next t) : Foot [.regs, .sil, .nvm, .tw, .seq, .tamp, .cool] s t := by
  unfold execPwrgdChange at h
  try dsimp only at h
  with_reducible refine Foot.ofNext h ?_
  repeat' (first
    | with_reducible exact Foot.refl
    | with_reducible assumption
    | (with_reducible apply partsIn_dec; decide)
    | with_reducible apply Foot.next ?_ (State.pwrgdChange_foot ..) ?_
    )

theorem State.statusPoll_foot (s : State) : Foot [.tw] s (State.statusPoll s) := by
  unfold State.statusPoll
  try dsimp only
  repeat' (first
    | with_reducible exact Foot.refl
    | with_reducible assumption
    | (with_reducible apply partsIn_dec; decide)
    | with_reducible apply Foot.next ?_ (State.queueStatus_foot ..) ?_
    | with_reducible apply Foot.foldl (fun _ _ _ => ?_) ?_
    | with_reducible apply Foot.ite ?_ ?_
    )

theorem execStatusPoll_foot {s : State} {t : State} (h : execStatusPoll s = .next t) : Foot [.tw] s t := by
  unfold execStatusPoll at h
  try dsimp only at h
  with_reducible refine Foot.ofNext h ?_
  repeat' (first
    | with_reducible exact Foot.refl
    | with_reducible assumption
    | (with_reducible apply partsIn_dec; decide)
    | with_reducible apply Foot.next ?_ (State.statusPoll_foot ..) ?_
    )

theorem State.rampTimeout_foot (s : State) (rn : Nat) : Foot [.regs, .sil, .nvm, .tw, .seq, .tamp, .cool] s (State.rampTimeout s rn) := by
  unfold State.rampTimeout
  try dsimp only
  repeat' (first
    | with_reducible exact Foot.refl
    | with_reducible assumption
    | (with_reducible apply partsIn_dec; decide)
    | with_reducible apply Foot.next ?_ (State.railGood_foot ..) ?_
    | with_reducible apply Foot.next ?_ (State.railFail_foot ..) ?_
    | with_reducible apply Foot.next ?_ (State.seqFinish_foot ..) ?_
    | with_reducible apply Foot.next ?_ (State.rstoAssert_foot ..) ?_
    | with_reducible apply Foot.ite ?_ ?_
    | split
    )

theorem execRampTimeout_foot {rail : Fin 96} {s : State} {t : State} (h : execRampTimeout rail s = .next t) : Foot [.regs, .sil, .nvm, .tw, .seq, .tamp, .cool] s t := by
  unfold execRampTimeout at h
  try dsimp only at h
  with_reducible refine Foot.ofNext h ?_
  repeat' (first
    | with_reducible exact Foot.refl
    | with_reducible assumption
    | (with_reducible apply partsIn_dec; decide)
    | with_reducible apply Foot.next ?_ (State.rampTimeout_foot ..) ?_
    )

theorem State.precharged_foot (s : State) (rn : Nat) : Foot [.regs, .sil, .nvm, .tw, .seq, .tamp, .cool] s (State.precharged s rn) := by
  unfold State.precharged
  try dsimp only
  repeat' (first
    | with_reducible exact Foot.refl
    | with_reducible assumption
    | (with_reducible apply partsIn_dec; decide)
    | with_reducible apply Foot.next ?_ (State.railFail_foot ..) ?_
    | with_reducible apply Foot.next ?_ (State.seqFinish_foot ..) ?_
    | with_reducible apply Foot.next ?_ (State.rstoAssert_foot ..) ?_
    | with_reducible apply Foot.ite ?_ ?_
    | split
    )

theorem execPrecharged_foot {rail : Fin 96} {s : State} {t : State} (h : execPrecharged rail s = .next t) : Foot [.regs, .sil, .nvm, .tw, .seq, .tamp, .cool] s t := by
  unfold execPrecharged at h
  try dsimp only at h
  with_reducible refine Foot.ofNext h ?_
  repeat' (first
    | with_reducible exact Foot.refl
    | with_reducible assumption
    | (with_reducible apply partsIn_dec; decide)
    | with_reducible apply Foot.next ?_ (State.precharged_foot ..) ?_
    )

theorem State.offDelay_foot (s : State) (rn : Nat) : Foot [.tw, .seq] s (State.offDelay s rn) := by
  unfold State.offDelay
  try dsimp only
  repeat' (first
    | with_reducible exact Foot.refl
    | with_reducible assumption
    | (with_reducible apply partsIn_dec; decide)
    | with_reducible apply Foot.next ?_ (State.railSwitchOff_foot ..) ?_
    | with_reducible apply Foot.next ?_ (State.modRail_foot ..) ?_
    | with_reducible apply Foot.ite ?_ ?_
    | split
    )

theorem execOffDelayExpiry_foot {rail : Fin 96} {s : State} {t : State} (h : execOffDelayExpiry rail s = .next t) : Foot [.tw, .seq] s t := by
  unfold execOffDelayExpiry at h
  try dsimp only at h
  with_reducible refine Foot.ofNext h ?_
  repeat' (first
    | with_reducible exact Foot.refl
    | with_reducible assumption
    | (with_reducible apply partsIn_dec; decide)
    | with_reducible apply Foot.next ?_ (State.offDelay_foot ..) ?_
    )

theorem State.disTimeout_foot (s : State) (rn : Nat) : Foot [.regs, .sil, .nvm, .tw, .seq, .tamp, .cool] s (State.disTimeout s rn) := by
  unfold State.disTimeout
  try dsimp only
  repeat' (first
    | with_reducible exact Foot.refl
    | with_reducible assumption
    | (with_reducible apply partsIn_dec; decide)
    | with_reducible apply Foot.next ?_ (State.railFail_foot ..) ?_
    | with_reducible apply Foot.next ?_ (State.seqFinish_foot ..) ?_
    | with_reducible apply Foot.next ?_ (State.modRail_foot ..) ?_
    | with_reducible apply Foot.next ?_ (State.log_foot ..) ?_
    | with_reducible apply Foot.ite ?_ ?_
    | split
    )

theorem execDisTimeout_foot {rail : Fin 96} {s : State} {t : State} (h : execDisTimeout rail s = .next t) : Foot [.regs, .sil, .nvm, .tw, .seq, .tamp, .cool] s t := by
  unfold execDisTimeout at h
  try dsimp only at h
  with_reducible refine Foot.ofNext h ?_
  repeat' (first
    | with_reducible exact Foot.refl
    | with_reducible assumption
    | (with_reducible apply partsIn_dec; decide)
    | with_reducible apply Foot.next ?_ (State.disTimeout_foot ..) ?_
    )

theorem State.trayInput_foot (s : State) (good : Bool) : Foot [.regs, .sil, .tw, .seq, .tamp, .cool] s (State.trayInput s good) := by
  unfold State.trayInput
  try dsimp only
  repeat' (first
    | with_reducible exact Foot.refl
    | with_reducible assumption
    | (with_reducible apply partsIn_dec; decide)
    | with_reducible apply Foot.next ?_ (State.trayInputGood_foot ..) ?_
    | with_reducible apply Foot.next ?_ (State.trayInputFail_foot ..) ?_
    | with_reducible apply Foot.next ?_ (State.modSeq_foot ..) ?_
    | with_reducible apply Foot.ite ?_ ?_
    )

theorem execTrayInputFail_foot {s : State} {t : State} (h : execTrayInputFail s = .next t) : Foot [.regs, .sil, .tw, .seq, .tamp, .cool] s t := by
  unfold execTrayInputFail at h
  try dsimp only at h
  with_reducible refine Foot.ofNext h ?_
  repeat' (first
    | with_reducible exact Foot.refl
    | with_reducible assumption
    | (with_reducible apply partsIn_dec; decide)
    | with_reducible apply Foot.next ?_ (State.trayInput_foot ..) ?_
    | with_reducible apply Foot.ite ?_ ?_
    )

theorem execTrayInputGood_foot {s : State} {t : State} (h : execTrayInputGood s = .next t) : Foot [.regs, .sil, .tw, .seq, .tamp, .cool] s t := by
  unfold execTrayInputGood at h
  try dsimp only at h
  with_reducible refine Foot.ofNext h ?_
  repeat' (first
    | with_reducible exact Foot.refl
    | with_reducible assumption
    | (with_reducible apply partsIn_dec; decide)
    | with_reducible apply Foot.next ?_ (State.trayInput_foot ..) ?_
    | with_reducible apply Foot.ite ?_ ?_
    )

theorem State.trayCatch_foot (s : State) : Foot [.regs, .sil, .tw, .seq, .tamp, .cool] s (State.trayCatch s) := by
  unfold State.trayCatch
  try dsimp only
  repeat' (first
    | with_reducible exact Foot.refl
    | with_reducible assumption
    | (with_reducible apply partsIn_dec; decide)
    | with_reducible apply Foot.next ?_ (State.trayInput_foot ..) ?_
    | with_reducible apply Foot.next ?_ (State.modSeq_foot ..) ?_
    | split
    )

theorem State.seqTick_foot (s : State) : Foot [.regs, .sil, .nvm, .tw, .seq, .tamp, .cool, .bus] s (State.seqTick s) := by
  unfold State.seqTick
  try dsimp only
  repeat' (first
    | with_reducible exact Foot.refl
    | with_reducible assumption
    | (with_reducible apply partsIn_dec; decide)
    | with_reducible apply Foot.next ?_ (State.trayCatch_foot ..) ?_
    | with_reducible apply Foot.next ?_ (State.railTick_foot ..) ?_
    | with_reducible apply Foot.next ?_ (State.waitsGo_foot ..) ?_
    | with_reducible apply Foot.next ?_ (State.judgeRails_foot ..) ?_
    | with_reducible apply Foot.next ?_ (State.seqFinish_foot ..) ?_
    | with_reducible apply Foot.next ?_ (State.rstoAssert_foot ..) ?_
    | with_reducible apply Foot.foldl (fun _ _ _ => ?_) ?_
    | with_reducible apply Foot.ite ?_ ?_
    )

theorem execSeqTick_foot {s : State} {t : State} (h : execSeqTick s = .next t) : Foot [.regs, .sil, .nvm, .tw, .seq, .tamp, .cool, .bus] s t := by
  unfold execSeqTick at h
  try dsimp only at h
  with_reducible refine Foot.ofNext h ?_
  repeat' (first
    | with_reducible exact Foot.refl
    | with_reducible assumption
    | (with_reducible apply partsIn_dec; decide)
    | with_reducible apply Foot.next ?_ (State.seqTick_foot ..) ?_
    )

theorem State.minOff_foot (s : State) : Foot [.regs, .seq] s (State.minOff s) := by
  unfold State.minOff
  try dsimp only
  repeat' (first
    | with_reducible exact Foot.refl
    | with_reducible assumption
    | (with_reducible apply partsIn_dec; decide)
    | with_reducible apply Foot.next ?_ (State.restartUp_foot ..) ?_
    | with_reducible apply Foot.next ?_ (State.modSeq_foot ..) ?_
    | with_reducible apply Foot.next ?_ (State.set_foot ..) ?_
    | with_reducible apply Foot.ite ?_ ?_
    )

theorem execMinOffExpiry_foot {s : State} {t : State} (h : execMinOffExpiry s = .next t) : Foot [.regs, .seq] s t := by
  unfold execMinOffExpiry at h
  try dsimp only at h
  with_reducible refine Foot.ofNext h ?_
  repeat' (first
    | with_reducible exact Foot.refl
    | with_reducible assumption
    | (with_reducible apply partsIn_dec; decide)
    | with_reducible apply Foot.next ?_ (State.minOff_foot ..) ?_
    )

theorem State.rstoRelease_foot (s : State) (k : Nat) : Foot [.seq] s (State.rstoRelease s k) := by
  unfold State.rstoRelease
  try dsimp only
  repeat' (first
    | with_reducible exact Foot.refl
    | with_reducible assumption
    | (with_reducible apply partsIn_dec; decide)
    | with_reducible apply Foot.next ?_ (State.modSeq_foot ..) ?_
    | with_reducible apply Foot.ite ?_ ?_
    | split
    )

theorem execRstoStretchExpiry_foot {k : Fin 16} {s : State} {t : State} (h : execRstoStretchExpiry k s = .next t) : Foot [.seq] s t := by
  unfold execRstoStretchExpiry at h
  try dsimp only at h
  with_reducible refine Foot.ofNext h ?_
  repeat' (first
    | with_reducible exact Foot.refl
    | with_reducible assumption
    | (with_reducible apply partsIn_dec; decide)
    | with_reducible apply Foot.next ?_ (State.rstoRelease_foot ..) ?_
    )

theorem execRstoPreExpiry_foot {s : State} {t : State} (h : execRstoPreExpiry s = .next t) : Foot [.seq] s t := by
  unfold execRstoPreExpiry at h
  try dsimp only at h
  with_reducible refine Foot.ofNext h ?_
  repeat' (first
    | with_reducible exact Foot.refl
    | with_reducible assumption
    | (with_reducible apply partsIn_dec; decide)
    | with_reducible apply Foot.next ?_ (State.modSeq_foot ..) ?_
    | with_reducible apply Foot.ite ?_ ?_
    )

theorem execTestModeEnter_foot {ini : Initiator} {s : State} {t : State} (h : execTestModeEnter ini s = .next t) : Foot [.regs, .sil, .bus] s t := by
  unfold execTestModeEnter at h
  try dsimp only at h
  with_reducible refine Foot.ofNext h ?_
  repeat' (first
    | with_reducible exact Foot.refl
    | with_reducible assumption
    | (with_reducible apply partsIn_dec; decide)
    | with_reducible apply Foot.next ?_ (State.testEnter_foot ..) ?_
    | with_reducible apply Foot.trans ?_ (State.command_foot _ _ _ _ ?_ ?_)
    )

theorem execTestModeExit_foot {ini : Initiator} {s : State} {t : State} (h : execTestModeExit ini s = .next t) : Foot [.regs, .sil, .tw, .seq, .tamp, .bus] s t := by
  unfold execTestModeExit at h
  try dsimp only at h
  with_reducible refine Foot.ofNext h ?_
  repeat' (first
    | with_reducible exact Foot.refl
    | with_reducible assumption
    | (with_reducible apply partsIn_dec; decide)
    | with_reducible apply Foot.next ?_ (State.testEnd_foot ..) ?_
    | with_reducible apply Foot.trans ?_ (State.command_foot _ _ _ _ ?_ ?_)
    )

theorem State.marginWrite_foot (s : State) (w : Nat) : Foot [.regs, .sil, .tw, .seq, .tamp] s (State.marginWrite s w) := by
  unfold State.marginWrite
  try dsimp only
  repeat' (first
    | with_reducible exact Foot.refl
    | with_reducible assumption
    | (with_reducible apply partsIn_dec; decide)
    | with_reducible apply Foot.next ?_ (State.marginRequest_foot ..) ?_
    | with_reducible apply Foot.next ?_ (State.setAll_foot ..) ?_
    | with_reducible apply Foot.ite ?_ ?_
    )

theorem execMarginRequest_foot {ini : Initiator} {word : Word} {s : State} {t : State} (h : execMarginRequest ini word s = .next t) : Foot [.regs, .sil, .tw, .seq, .tamp, .bus] s t := by
  unfold execMarginRequest at h
  try dsimp only at h
  with_reducible refine Foot.ofNext h ?_
  repeat' (first
    | with_reducible exact Foot.refl
    | with_reducible assumption
    | (with_reducible apply partsIn_dec; decide)
    | with_reducible apply Foot.next ?_ (State.marginWrite_foot ..) ?_
    | with_reducible apply Foot.trans ?_ (State.command_foot _ _ _ _ ?_ ?_)
    )

theorem State.marginStep_foot (s : State) : Foot [.regs, .sil, .tw, .seq, .tamp] s (State.marginStep s) := by
  unfold State.marginStep
  try dsimp only
  repeat' (first
    | with_reducible exact Foot.refl
    | with_reducible assumption
    | (with_reducible apply partsIn_dec; decide)
    | with_reducible apply Foot.next ?_ (State.clampDrop_foot ..) ?_
    | with_reducible apply Foot.next ?_ (State.marginReturn_foot ..) ?_
    | with_reducible apply Foot.next ?_ (State.modRail_foot ..) ?_
    | with_reducible apply Foot.next ?_ (State.marginStop_foot ..) ?_
    | with_reducible apply Foot.next ?_ (State.twQueue_foot ..) ?_
    | with_reducible apply Foot.next ?_ (State.set_foot ..) ?_
    | with_reducible apply Foot.ite ?_ ?_
    | split
    )

theorem execMarginStep_foot {s : State} {t : State} (h : execMarginStep s = .next t) : Foot [.regs, .sil, .tw, .seq, .tamp] s t := by
  unfold execMarginStep at h
  try dsimp only at h
  with_reducible refine Foot.ofNext h ?_
  repeat' (first
    | with_reducible exact Foot.refl
    | with_reducible assumption
    | (with_reducible apply partsIn_dec; decide)
    | with_reducible apply Foot.next ?_ (State.marginStep_foot ..) ?_
    )

theorem execFfrClr_foot {ini : Initiator} {s : State} {t : State} (h : execFfrClr ini s = .next t) : Foot [.regs, .sil, .nvm, .seq, .bus] s t := by
  unfold execFfrClr at h
  try dsimp only at h
  with_reducible refine Foot.ofNext h ?_
  repeat' (first
    | with_reducible exact Foot.refl
    | with_reducible assumption
    | (with_reducible apply partsIn_dec; decide)
    | with_reducible apply Foot.next ?_ (State.ffrClear_foot ..) ?_
    | with_reducible apply Foot.trans ?_ (State.command_foot _ _ _ _ ?_ ?_)
    )

end Sys2Proof.Machine
end

