-- ==== Sys2Proof/Laws/FootSlotMem.lean ====
section
/-! SUPPORT. Footprints of the functions of Machine/SlotMem.lean. -/

namespace Sys2Proof.Machine

theorem State.emit_foot (s : State) (x : Sent) : Foot [.ses] s (State.emit s x) := by
  unfold State.emit
  try dsimp only
  repeat' (first
    | with_reducible exact Foot.refl
    | with_reducible assumption
    | (with_reducible apply partsIn_dec; decide)
    | with_reducible apply Foot.ite ?_ ?_
    | with_reducible apply Foot.next ?_ Foot.ses_upd ?_
    )

theorem State.sendBegin_foot (s : State) : Foot [.ses] s (State.sendBegin s) := by
  unfold State.sendBegin
  try dsimp only
  repeat' (first
    | with_reducible exact Foot.refl
    | with_reducible assumption
    | (with_reducible apply partsIn_dec; decide)
    | with_reducible apply Foot.next ?_ Foot.ses_upd ?_
    )

theorem PortStore.apply_wf (p : PortStore) {m : List Host.Cell} (h : Memory.wf m = true) : Memory.wf (PortStore.apply m p) = true := by
  unfold PortStore.apply
  split
  · exact memory_wf_memStore _ _ _ h
  · exact memory_wf_memStore _ _ _ (memory_wf_memForget _ _ h)

theorem State.portStore_foot (s : State) (p : PortStore) : Foot [.clk, .mem] s (State.portStore s p) := by
  unfold State.portStore
  try dsimp only
  repeat' (first
    | with_reducible exact Foot.refl
    | with_reducible assumption
    | (with_reducible apply partsIn_dec; decide)
    | with_reducible apply Foot.ite ?_ ?_
    | with_reducible apply Foot.next ?_ (Foot.setMem (PortStore.apply_wf _)) ?_
    | with_reducible apply Foot.next ?_ Foot.clk_mem_upd ?_
    | with_reducible apply Foot.next ?_ Foot.clk_upd ?_
    | with_reducible apply Foot.next ?_ Foot.memStore ?_
    | with_reducible apply Foot.next ?_ Foot.memForget ?_
    )

theorem State.portGo_foot (s : State) (d : Nat) : Foot [.clk, .ses, .mem] s (State.portGo s d) :=
  ⟨fun p hp => by cases p <;> first | rfl | exact absurd (by simp) hp,
    foldl_keeps (fun m => Memory.wf m = true) (fun _ p h => p.apply_wf h) _, id⟩

theorem State.portDrop_foot (s : State) (d : Nat) : Foot [.clk, .ses] s (State.portDrop s d) :=
  ⟨fun p hp => by cases p <;> first | rfl | exact absurd (by simp) hp, id, id⟩

end Sys2Proof.Machine
end

