-- ==== Sys2Proof/Laws/FootClock.lean ====
section
/-! SUPPORT. Footprints of the functions of Machine/Clock.lean. -/

namespace Sys2Proof.Machine

theorem State.modClk_foot (s : State) (f : ClkSt → ClkSt) : Foot [.clk] s (State.modClk s f) := by
  unfold State.modClk
  try dsimp only
  repeat' (first
    | with_reducible exact Foot.refl
    | with_reducible assumption
    | (with_reducible apply partsIn_dec; decide)
    | with_reducible apply Foot.next ?_ Foot.clk_upd ?_
    )

theorem State.fmcDisturb_foot (s : State) (hit : Nat → Bool) : Foot [.regs] s (State.fmcDisturb s hit) := by
  unfold State.fmcDisturb
  try dsimp only
  repeat' (first
    | with_reducible exact Foot.refl
    | with_reducible assumption
    | (with_reducible apply partsIn_dec; decide)
    | with_reducible apply Foot.next ?_ (State.setIf_foot ..) ?_
    )

theorem State.gapAdd_foot (s : State) : Foot [.time, .sil] s (State.gapAdd s) := by
  unfold State.gapAdd
  dsimp only
  split <;> exact Foot.of rfl rfl (fun p hp => by cases p <;> first | rfl | exact absurd (by simp) hp)

theorem State.netBegin_foot (s : State) (n : Nat) : Foot [.regs] s (State.netBegin s n) := by
  unfold State.netBegin
  try dsimp only
  repeat' (first
    | with_reducible exact Foot.refl
    | with_reducible assumption
    | (with_reducible apply partsIn_dec; decide)
    | with_reducible apply Foot.next ?_ (State.set_foot ..) ?_
    | with_reducible apply Foot.ite ?_ ?_
    )

theorem State.netTo_foot (s : State) (n st : Nat) : Foot [.regs] s (State.netTo s n st) := by
  unfold State.netTo
  try dsimp only
  repeat' (first
    | with_reducible exact Foot.refl
    | with_reducible assumption
    | (with_reducible apply partsIn_dec; decide)
    | with_reducible apply Foot.next ?_ (State.bump_foot ..) ?_
    | with_reducible apply Foot.next ?_ (State.setAll_foot ..) ?_
    | with_reducible apply Foot.next ?_ (State.set_foot ..) ?_
    | with_reducible apply Foot.ite ?_ ?_
    )

theorem State.netFollow_foot (s : State) (host : Bool) : Foot [.regs] s (State.netFollow s host) := by
  unfold State.netFollow
  try dsimp only
  repeat' (first
    | with_reducible exact Foot.refl
    | with_reducible assumption
    | (with_reducible apply partsIn_dec; decide)
    | with_reducible apply Foot.next ?_ (State.netTo_foot ..) ?_
    | with_reducible apply Foot.next ?_ (State.netBegin_foot ..) ?_
    | with_reducible apply Foot.foldl (fun _ _ _ => ?_) ?_
    | with_reducible apply Foot.ite ?_ ?_
    )

theorem State.baseTo_foot (s : State) (src : Nat) : Foot [.regs, .time, .sil, .seq] s (State.baseTo s src) := by
  unfold State.baseTo
  try dsimp only
  repeat' (first
    | with_reducible exact Foot.refl
    | with_reducible assumption
    | (with_reducible apply partsIn_dec; decide)
    | with_reducible apply Foot.next ?_ (State.seqUnhold_foot ..) ?_
    | with_reducible apply Foot.next ?_ (State.seqHold_foot ..) ?_
    | with_reducible apply Foot.next ?_ (State.netFollow_foot ..) ?_
    | with_reducible apply Foot.next ?_ (State.gapAdd_foot ..) ?_
    | with_reducible apply Foot.next ?_ (State.fmcDisturb_foot ..) ?_
    | with_reducible apply Foot.next ?_ (State.setAll_foot ..) ?_
    | with_reducible apply Foot.ite ?_ ?_
    )

theorem State.toIoscByDesign_foot (s : State) : Foot [.regs, .time, .clk, .sil, .seq] s (State.toIoscByDesign s) := by
  unfold State.toIoscByDesign
  try dsimp only
  repeat' (first
    | with_reducible exact Foot.refl
    | with_reducible assumption
    | (with_reducible apply partsIn_dec; decide)
    | with_reducible apply Foot.next ?_ (State.baseTo_foot ..) ?_
    | with_reducible apply Foot.next ?_ (State.modClk_foot ..) ?_
    | with_reducible apply Foot.ite ?_ ?_
    )

theorem State.recoveredLost_foot (s : State) : Foot [.regs, .time, .clk, .sil, .seq] s (State.recoveredLost s) := by
  unfold State.recoveredLost
  try dsimp only
  repeat' (first
    | with_reducible exact Foot.refl
    | with_reducible assumption
    | (with_reducible apply partsIn_dec; decide)
    | with_reducible apply Foot.next ?_ (State.toIoscByDesign_foot ..) ?_
    | with_reducible apply Foot.next ?_ (State.modClk_foot ..) ?_
    | with_reducible apply Foot.ite ?_ ?_
    )

theorem State.netGo_foot (s : State) (n : Nat) : Foot [.regs] s (State.netGo s n) := by
  unfold State.netGo
  try dsimp only
  repeat' (first
    | with_reducible exact Foot.refl
    | with_reducible assumption
    | (with_reducible apply partsIn_dec; decide)
    | with_reducible apply Foot.next ?_ (State.netBegin_foot ..) ?_
    | with_reducible apply Foot.next ?_ (State.set_foot ..) ?_
    | with_reducible apply Foot.ite ?_ ?_
    )

theorem State.netStart_foot (s : State) (n : Nat) : Foot [.regs] s (State.netStart s n) := by
  unfold State.netStart
  try dsimp only
  repeat' (first
    | with_reducible exact Foot.refl
    | with_reducible assumption
    | (with_reducible apply partsIn_dec; decide)
    | with_reducible apply Foot.next ?_ (State.netGo_foot ..) ?_
    | with_reducible apply Foot.next ?_ (State.set_foot ..) ?_
    | with_reducible apply Foot.ite ?_ ?_
    )

theorem State.setBit_foot (s : State) (f : Fld) (i : Nat) (b : Bool) : Foot [.regs] s (State.setBit s f i b) := by
  unfold State.setBit
  try dsimp only
  repeat' (first
    | with_reducible exact Foot.refl
    | with_reducible assumption
    | (with_reducible apply partsIn_dec; decide)
    | with_reducible apply Foot.next ?_ (State.set_foot ..) ?_
    )

theorem State.gateRelease_foot (s : State) (d : Nat) : Foot [.regs, .clk, .ses, .mem] s (State.gateRelease s d) := by
  unfold State.gateRelease
  try dsimp only
  repeat' (first
    | with_reducible exact Foot.refl
    | with_reducible assumption
    | (with_reducible apply partsIn_dec; decide)
    | with_reducible apply Foot.next ?_ (State.setBit_foot ..) ?_
    | with_reducible apply Foot.next ?_ (State.portGo_foot ..) ?_
    | with_reducible apply Foot.next ?_ (State.setIf_foot ..) ?_
    )

theorem State.tryReturn_foot (s : State) : Foot [.regs, .time, .clk, .sil, .seq] s (State.tryReturn s) := by
  unfold State.tryReturn
  try dsimp only
  repeat' (first
    | with_reducible exact Foot.refl
    | with_reducible assumption
    | (with_reducible apply partsIn_dec; decide)
    | with_reducible apply Foot.next ?_ (State.baseTo_foot ..) ?_
    | with_reducible apply Foot.next ?_ (State.modClk_foot ..) ?_
    | with_reducible apply Foot.next ?_ (State.log_foot ..) ?_
    | with_reducible apply Foot.ite ?_ ?_
    )

theorem State.clkForce_foot (s : State) (on : Bool) : Foot [.regs, .time, .clk, .sil, .seq] s (State.clkForce s on) := by
  unfold State.clkForce
  try dsimp only
  repeat' (first
    | with_reducible exact Foot.refl
    | with_reducible assumption
    | (with_reducible apply partsIn_dec; decide)
    | with_reducible apply Foot.next ?_ (State.tryReturn_foot ..) ?_
    | with_reducible apply Foot.next ?_ (State.setB_foot ..) ?_
    | with_reducible apply Foot.next ?_ (State.toIoscByDesign_foot ..) ?_
    | with_reducible apply Foot.next ?_ (State.modClk_foot ..) ?_
    | with_reducible apply Foot.ite ?_ ?_
    )

theorem State.gateRequest_foot (s : State) (d : Nat) : Foot [.regs] s (State.gateRequest s d) := by
  unfold State.gateRequest
  try dsimp only
  repeat' (first
    | with_reducible exact Foot.refl
    | with_reducible assumption
    | (with_reducible apply partsIn_dec; decide)
    | with_reducible apply Foot.next ?_ (State.setBit_foot ..) ?_
    )

theorem State.gateZero_foot (s : State) (d : Nat) : Foot [.regs, .clk, .ses, .mem] s (State.gateZero s d) := by
  unfold State.gateZero
  try dsimp only
  repeat' (first
    | with_reducible exact Foot.refl
    | with_reducible assumption
    | (with_reducible apply partsIn_dec; decide)
    | with_reducible apply Foot.next ?_ (State.gateRelease_foot ..) ?_
    | with_reducible apply Foot.ite ?_ ?_
    )

theorem State.gateWrite_foot (s : State) (w : Nat) : Foot [.regs, .clk, .ses, .mem] s (State.gateWrite s w) := by
  unfold State.gateWrite
  try dsimp only
  repeat' (first
    | with_reducible exact Foot.refl
    | with_reducible assumption
    | (with_reducible apply partsIn_dec; decide)
    | with_reducible apply Foot.next ?_ (State.gateZero_foot ..) ?_
    | with_reducible apply Foot.next ?_ (State.gateRequest_foot ..) ?_
    | with_reducible apply Foot.foldl (fun _ _ _ => ?_) ?_
    | with_reducible apply Foot.ite ?_ ?_
    )

theorem State.refFollow_foot (s : State) : Foot [.regs, .time, .clk, .sil, .seq] s (State.refFollow s) := by
  unfold State.refFollow
  try dsimp only
  repeat' (first
    | with_reducible exact Foot.refl
    | with_reducible assumption
    | (with_reducible apply partsIn_dec; decide)
    | with_reducible apply Foot.next ?_ (State.toIoscByDesign_foot ..) ?_
    | with_reducible apply Foot.next ?_ (State.modClk_foot ..) ?_
    | with_reducible apply Foot.ite ?_ ?_
    )

theorem State.clkNmi_foot (s : State) : Foot [.fw] s (State.clkNmi s) := by
  unfold State.clkNmi
  try dsimp only
  repeat' (first
    | with_reducible exact Foot.refl
    | with_reducible assumption
    | (with_reducible apply partsIn_dec; decide)
    | with_reducible apply Foot.ite ?_ ?_
    | with_reducible apply Foot.next ?_ Foot.fw_upd ?_
    )

theorem State.clkfail_foot (s : State) (r : ClkRec) (fb late : Bool) : Foot [.regs, .sil, .fw] s (State.clkfail s r fb late) := by
  unfold State.clkfail
  try dsimp only
  repeat' (first
    | with_reducible exact Foot.refl
    | with_reducible assumption
    | (with_reducible apply partsIn_dec; decide)
    | with_reducible apply Foot.next ?_ (State.clkNmi_foot ..) ?_
    | with_reducible apply Foot.next ?_ (State.bump_foot ..) ?_
    | with_reducible apply Foot.next ?_ (State.setIf_foot ..) ?_
    | with_reducible apply Foot.next ?_ (State.set64_foot ..) ?_
    | with_reducible apply Foot.next ?_ (State.setAll_foot ..) ?_
    | with_reducible apply Foot.next ?_ (State.admitEvent_foot ..) ?_
    )

theorem State.clkDeliver_foot (s : State) : Foot [.regs, .clk, .sil, .fw] s (State.clkDeliver s) := by
  unfold State.clkDeliver
  try dsimp only
  repeat' (first
    | with_reducible exact Foot.refl
    | with_reducible assumption
    | (with_reducible apply partsIn_dec; decide)
    | with_reducible apply Foot.next ?_ (State.clkfail_foot ..) ?_
    | with_reducible apply Foot.next ?_ (State.modClk_foot ..) ?_
    | split
    )

theorem State.ioscRise_foot (s : State) : Foot [.regs, .time, .clk, .sil, .seq, .fw] s (State.ioscRise s) := by
  unfold State.ioscRise
  try dsimp only
  repeat' (first
    | with_reducible exact Foot.refl
    | with_reducible assumption
    | (with_reducible apply partsIn_dec; decide)
    | with_reducible apply Foot.next ?_ (State.clkDeliver_foot ..) ?_
    | with_reducible apply Foot.next ?_ (State.baseTo_foot ..) ?_
    | with_reducible apply Foot.next ?_ (State.modClk_foot ..) ?_
    | with_reducible apply Foot.next ?_ (State.set_foot ..) ?_
    | with_reducible apply Foot.ite ?_ ?_
    )

theorem State.clkfailNow_foot (s : State) (cause dev src count : Nat) : Foot [.regs, .sil, .fw] s (State.clkfailNow s cause dev src count) := by
  unfold State.clkfailNow
  try dsimp only
  repeat' (first
    | with_reducible exact Foot.refl
    | with_reducible assumption
    | (with_reducible apply partsIn_dec; decide)
    | with_reducible apply Foot.next ?_ (State.clkfail_foot ..) ?_
    )

theorem State.ioscDead_foot (s : State) : Foot [.regs, .time, .clk, .sil, .seq, .fw] s (State.ioscDead s) := by
  unfold State.ioscDead
  try dsimp only
  repeat' (first
    | with_reducible exact Foot.refl
    | with_reducible assumption
    | (with_reducible apply partsIn_dec; decide)
    | with_reducible apply Foot.next ?_ (State.clkfailNow_foot ..) ?_
    | with_reducible apply Foot.next ?_ (State.clkDeliver_foot ..) ?_
    | with_reducible apply Foot.next ?_ (State.baseTo_foot ..) ?_
    | with_reducible apply Foot.next ?_ (State.modClk_foot ..) ?_
    | with_reducible apply Foot.next ?_ (State.set_foot ..) ?_
    | with_reducible apply Foot.next ?_ (State.log_foot ..) ?_
    | with_reducible apply Foot.ite ?_ ?_
    )

theorem State.clkRestore_foot (s : State) : Foot [.regs, .time, .clk, .sil, .seq] s (State.clkRestore s) := by
  unfold State.clkRestore
  try dsimp only
  repeat' (first
    | with_reducible exact Foot.refl
    | with_reducible assumption
    | (with_reducible apply partsIn_dec; decide)
    | with_reducible apply Foot.next ?_ (State.tryReturn_foot ..) ?_
    | with_reducible apply Foot.next ?_ (State.modClk_foot ..) ?_
    | with_reducible apply Foot.next ?_ (State.set_foot ..) ?_
    )

theorem State.fmcWrite_foot (s : State) (w : Nat) : Foot [.regs] s (State.fmcWrite s w) := by
  unfold State.fmcWrite
  try dsimp only
  repeat' (first
    | with_reducible exact Foot.refl
    | with_reducible assumption
    | (with_reducible apply partsIn_dec; decide)
    | with_reducible apply Foot.next ?_ (State.setAll_foot ..) ?_
    | with_reducible apply Foot.next ?_ (State.set_foot ..) ?_
    | with_reducible apply Foot.ite ?_ ?_
    )

theorem State.tickBase_foot (s : State) : Foot [.time] s (State.tickBase s) := by
  unfold State.tickBase
  try dsimp only
  repeat' (first
    | with_reducible exact Foot.refl
    | with_reducible assumption
    | (with_reducible apply partsIn_dec; decide)
    | with_reducible apply Foot.ite ?_ ?_
    | with_reducible apply Foot.next ?_ Foot.time_upd ?_
    )

theorem execBaseClockStall_foot {s : State} {t : State} (h : execBaseClockStall s = .next t) : Foot [.time] s t := by
  unfold execBaseClockStall at h
  try dsimp only at h
  with_reducible refine Foot.ofNext h ?_
  repeat' (first
    | with_reducible exact Foot.refl
    | with_reducible assumption
    | (with_reducible apply partsIn_dec; decide)
    | with_reducible apply Foot.ite ?_ ?_
    | with_reducible apply Foot.next ?_ Foot.time_upd ?_
    )

theorem execBaseClockResume_foot {s : State} {t : State} (h : execBaseClockResume s = .next t) : Foot [.time, .sil] s t := by
  unfold execBaseClockResume at h
  try dsimp only at h
  with_reducible refine Foot.ofNext h ?_
  repeat' (first
    | with_reducible exact Foot.refl
    | with_reducible assumption
    | (with_reducible apply partsIn_dec; decide)
    | with_reducible apply Foot.next ?_ (State.gapAdd_foot ..) ?_
    | with_reducible apply Foot.ite ?_ ?_
    )

theorem State.ioscGood_foot (s : State) : Foot [.regs, .time, .sil, .seq] s (State.ioscGood s) := by
  unfold State.ioscGood
  try dsimp only
  repeat' (first
    | with_reducible exact Foot.refl
    | with_reducible assumption
    | (with_reducible apply partsIn_dec; decide)
    | with_reducible apply Foot.next ?_ (State.baseTo_foot ..) ?_
    | with_reducible apply Foot.next ?_ (State.set_foot ..) ?_
    | with_reducible apply Foot.ite ?_ ?_
    )

theorem State.flap_foot (s : State) : Foot [.regs, .clk] s (State.flap s) := by
  unfold State.flap
  try dsimp only
  repeat' (first
    | with_reducible exact Foot.refl
    | with_reducible assumption
    | (with_reducible apply partsIn_dec; decide)
    | with_reducible apply Foot.next ?_ (State.setIf_foot ..) ?_
    | with_reducible apply Foot.next ?_ (State.modClk_foot ..) ?_
    )

theorem State.ioscBad_foot (s : State) : Foot [.regs] s (State.ioscBad s) := by
  unfold State.ioscBad
  try dsimp only
  repeat' (first
    | with_reducible exact Foot.refl
    | with_reducible assumption
    | (with_reducible apply partsIn_dec; decide)
    | with_reducible apply Foot.next ?_ (State.setAll_foot ..) ?_
    )

theorem State.checkFail_foot (s : State) (k : ClkCheck) (count dev : Nat) : Foot [.regs, .time, .clk, .sil, .seq, .fw] s (State.checkFail s k count dev) := by
  unfold State.checkFail
  try dsimp only
  repeat' (first
    | with_reducible exact Foot.refl
    | with_reducible assumption
    | (with_reducible apply partsIn_dec; decide)
    | with_reducible apply Foot.next ?_ (State.ioscBad_foot ..) ?_
    | with_reducible apply Foot.next ?_ (State.flap_foot ..) ?_
    | with_reducible apply Foot.next ?_ (State.clkfailNow_foot ..) ?_
    | with_reducible apply Foot.next ?_ (State.baseTo_foot ..) ?_
    | with_reducible apply Foot.next ?_ (State.modClk_foot ..) ?_
    | with_reducible apply Foot.next ?_ (State.set_foot ..) ?_
    | with_reducible apply Foot.ite ?_ ?_
    | split
    )

theorem State.checkIdle_foot (s : State) : Foot [.clk] s (State.checkIdle s) := by
  unfold State.checkIdle
  try dsimp only
  repeat' (first
    | with_reducible exact Foot.refl
    | with_reducible assumption
    | (with_reducible apply partsIn_dec; decide)
    | with_reducible apply Foot.next ?_ (State.modClk_foot ..) ?_
    | with_reducible apply Foot.ite ?_ ?_
    )

theorem State.checkWindow_foot (s : State) (k : ClkCheck) (count : Nat) : Foot [.regs, .time, .clk, .sil, .seq, .fw] s (State.checkWindow s k count) := by
  unfold State.checkWindow
  try dsimp only
  repeat' (first
    | with_reducible exact Foot.refl
    | with_reducible assumption
    | (with_reducible apply partsIn_dec; decide)
    | with_reducible apply Foot.next ?_ (State.checkIdle_foot ..) ?_
    | with_reducible apply Foot.next ?_ (State.checkFail_foot ..) ?_
    | with_reducible apply Foot.next ?_ (State.ioscGood_foot ..) ?_
    | with_reducible apply Foot.next ?_ (State.tryReturn_foot ..) ?_
    | with_reducible apply Foot.next ?_ (State.setIf_foot ..) ?_
    | with_reducible apply Foot.next ?_ (State.modClk_foot ..) ?_
    | with_reducible apply Foot.next ?_ (State.set_foot ..) ?_
    | with_reducible apply Foot.ite ?_ ?_
    | split
    )

theorem execCheckWindowEnd_foot {chk : ClkCheck} {count : Nat} {s : State} {t : State} (h : execCheckWindowEnd chk count s = .next t) : Foot [.regs, .time, .clk, .sil, .seq, .fw] s t := by
  unfold execCheckWindowEnd at h
  try dsimp only at h
  with_reducible refine Foot.ofNext h ?_
  repeat' (first
    | with_reducible exact Foot.refl
    | with_reducible assumption
    | (with_reducible apply partsIn_dec; decide)
    | with_reducible apply Foot.next ?_ (State.checkWindow_foot ..) ?_
    )

theorem execLfoCalibration_foot {period : Fin 16777216} {s : State} {t : State} (h : execLfoCalibration period s = .next t) : Foot [.regs, .clk] s t := by
  unfold execLfoCalibration at h
  try dsimp only at h
  with_reducible refine Foot.ofNext h ?_
  repeat' (first
    | with_reducible exact Foot.refl
    | with_reducible assumption
    | (with_reducible apply partsIn_dec; decide)
    | with_reducible apply Foot.next ?_ (State.modClk_foot ..) ?_
    | with_reducible apply Foot.next ?_ (State.setAll_foot ..) ?_
    | with_reducible apply Foot.ite ?_ ?_
    )

theorem State.ioscStop_foot (s : State) : Foot [.regs, .time, .clk, .sil, .seq, .fw] s (State.ioscStop s) := by
  unfold State.ioscStop
  try dsimp only
  repeat' (first
    | with_reducible exact Foot.refl
    | with_reducible assumption
    | (with_reducible apply partsIn_dec; decide)
    | with_reducible apply Foot.next ?_ (State.ioscBad_foot ..) ?_
    | with_reducible apply Foot.next ?_ (State.clkfailNow_foot ..) ?_
    | with_reducible apply Foot.next ?_ (State.baseTo_foot ..) ?_
    | with_reducible apply Foot.next ?_ (State.modClk_foot ..) ?_
    | with_reducible apply Foot.next ?_ (State.set_foot ..) ?_
    | with_reducible apply Foot.ite ?_ ?_
    )

theorem execIoscStop_foot {s : State} {t : State} (h : execIoscStop s = .next t) : Foot [.regs, .time, .clk, .sil, .seq, .fw] s t := by
  unfold execIoscStop at h
  try dsimp only at h
  with_reducible refine Foot.ofNext h ?_
  repeat' (first
    | with_reducible exact Foot.refl
    | with_reducible assumption
    | (with_reducible apply partsIn_dec; decide)
    | with_reducible apply Foot.next ?_ (State.ioscStop_foot ..) ?_
    )

theorem execRestore_foot {ini : Initiator} {s : State} {t : State} (h : execRestore ini s = .next t) : Foot [.regs, .time, .clk, .sil, .seq, .bus] s t := by
  unfold execRestore at h
  try dsimp only at h
  with_reducible refine Foot.ofNext h ?_
  repeat' (first
    | with_reducible exact Foot.refl
    | with_reducible assumption
    | (with_reducible apply partsIn_dec; decide)
    | with_reducible apply Foot.next ?_ (State.clkRestore_foot ..) ?_
    | with_reducible apply Foot.trans ?_ (State.command_foot _ _ _ _ ?_ ?_)
    )

theorem execForceIosc_foot {ini : Initiator} {on : Bool} {s : State} {t : State} (h : execForceIosc ini on s = .next t) : Foot [.regs, .time, .clk, .sil, .seq, .bus] s t := by
  unfold execForceIosc at h
  try dsimp only at h
  with_reducible refine Foot.ofNext h ?_
  repeat' (first
    | with_reducible exact Foot.refl
    | with_reducible assumption
    | (with_reducible apply partsIn_dec; decide)
    | with_reducible apply Foot.next ?_ (State.clkForce_foot ..) ?_
    | with_reducible apply Foot.trans ?_ (State.command_foot _ _ _ _ ?_ ?_)
    )

theorem execRecoveredClockSwitch_foot {s : State} {t : State} (h : execRecoveredClockSwitch s = .next t) : Foot [.clk] s t := by
  unfold execRecoveredClockSwitch at h
  try dsimp only at h
  with_reducible refine Foot.ofNext h ?_
  repeat' (first
    | with_reducible exact Foot.refl
    | with_reducible assumption
    | (with_reducible apply partsIn_dec; decide)
    | with_reducible apply Foot.next ?_ (State.modClk_foot ..) ?_
    | with_reducible apply Foot.ite ?_ ?_
    )

theorem execFmcStart_foot {ini : Initiator} {word : Word} {s : State} {t : State} (h : execFmcStart ini word s = .next t) : Foot [.regs, .sil, .bus] s t := by
  unfold execFmcStart at h
  try dsimp only at h
  with_reducible refine Foot.ofNext h ?_
  repeat' (first
    | with_reducible exact Foot.refl
    | with_reducible assumption
    | (with_reducible apply partsIn_dec; decide)
    | with_reducible apply Foot.next ?_ (State.fmcWrite_foot ..) ?_
    | with_reducible apply Foot.trans ?_ (State.command_foot _ _ _ _ ?_ ?_)
    )

theorem execFmcAbort_foot {ini : Initiator} {s : State} {t : State} (h : execFmcAbort ini s = .next t) : Foot [.regs, .sil, .bus] s t := by
  unfold execFmcAbort at h
  try dsimp only at h
  with_reducible refine Foot.ofNext h ?_
  repeat' (first
    | with_reducible exact Foot.refl
    | with_reducible assumption
    | (with_reducible apply partsIn_dec; decide)
    | with_reducible apply Foot.trans ?_ (State.command_foot _ _ _ _ ?_ ?_)
    | with_reducible apply Foot.next ?_ (State.set_foot ..) ?_
    )

theorem State.fmcDone_foot (s : State) (count : Nat) : Foot [.regs] s (State.fmcDone s count) := by
  unfold State.fmcDone
  try dsimp only
  repeat' (first
    | with_reducible exact Foot.refl
    | with_reducible assumption
    | (with_reducible apply partsIn_dec; decide)
    | with_reducible apply Foot.next ?_ (State.setAll_foot ..) ?_
    | with_reducible apply Foot.ite ?_ ?_
    )

theorem execFmcDone_foot {count : Nat} {s : State} {t : State} (h : execFmcDone count s = .next t) : Foot [.regs] s t := by
  unfold execFmcDone at h
  try dsimp only at h
  with_reducible refine Foot.ofNext h ?_
  repeat' (first
    | with_reducible exact Foot.refl
    | with_reducible assumption
    | (with_reducible apply partsIn_dec; decide)
    | with_reducible apply Foot.next ?_ (State.fmcDone_foot ..) ?_
    )

theorem State.fmcNoclk_foot (s : State) : Foot [.regs, .fresh] s (State.fmcNoclk s) := by
  unfold State.fmcNoclk
  try dsimp only
  repeat' (first
    | with_reducible exact Foot.refl
    | with_reducible assumption
    | (with_reducible apply partsIn_dec; decide)
    | with_reducible apply Foot.next ?_ (State.draw_foot ..) ?_
    | with_reducible apply Foot.next ?_ (State.setAll_foot ..) ?_
    | with_reducible apply Foot.ite ?_ ?_
    )

theorem execFmcNoclk_foot {s : State} {t : State} (h : execFmcNoclk s = .next t) : Foot [.regs, .fresh] s t := by
  unfold execFmcNoclk at h
  try dsimp only at h
  with_reducible refine Foot.ofNext h ?_
  repeat' (first
    | with_reducible exact Foot.refl
    | with_reducible assumption
    | (with_reducible apply partsIn_dec; decide)
    | with_reducible apply Foot.next ?_ (State.fmcNoclk_foot ..) ?_
    )

theorem execGateRequest_foot {ini : Initiator} {d : Fin 10} {s : State} {t : State} (h : execGateRequest ini d s = .next t) : Foot [.regs, .sil, .bus] s t := by
  unfold execGateRequest at h
  try dsimp only at h
  with_reducible refine Foot.ofNext h ?_
  repeat' (first
    | with_reducible exact Foot.refl
    | with_reducible assumption
    | (with_reducible apply partsIn_dec; decide)
    | with_reducible apply Foot.next ?_ (State.gateRequest_foot ..) ?_
    | with_reducible apply Foot.trans ?_ (State.command_foot _ _ _ _ ?_ ?_)
    )

theorem execGateRelease_foot {ini : Initiator} {d : Fin 10} {s : State} {t : State} (h : execGateRelease ini d s = .next t) : Foot [.regs, .clk, .sil, .ses, .bus, .mem] s t := by
  unfold execGateRelease at h
  try dsimp only at h
  with_reducible refine Foot.ofNext h ?_
  repeat' (first
    | with_reducible exact Foot.refl
    | with_reducible assumption
    | (with_reducible apply partsIn_dec; decide)
    | with_reducible apply Foot.next ?_ (State.gateZero_foot ..) ?_
    | with_reducible apply Foot.next ?_ (State.sendBegin_foot ..) ?_
    | with_reducible apply Foot.trans ?_ (State.command_foot _ _ _ _ ?_ ?_)
    )

theorem execGateAbort_foot {ini : Initiator} {d : Fin 10} {s : State} {t : State} (h : execGateAbort ini d s = .next t) : Foot [.regs, .clk, .sil, .ses, .bus, .mem] s t := by
  unfold execGateAbort at h
  try dsimp only at h
  with_reducible refine Foot.ofNext h ?_
  repeat' (first
    | with_reducible exact Foot.refl
    | with_reducible assumption
    | (with_reducible apply partsIn_dec; decide)
    | with_reducible apply Foot.next ?_ (State.gateZero_foot ..) ?_
    | with_reducible apply Foot.next ?_ (State.sendBegin_foot ..) ?_
    | with_reducible apply Foot.trans ?_ (State.command_foot _ _ _ _ ?_ ?_)
    )

theorem State.gateRefused_foot (s : State) (d : Nat) : Foot [.regs, .clk, .sil, .ses, .mem] s (State.gateRefused s d) := by
  unfold State.gateRefused
  try dsimp only
  repeat' (first
    | with_reducible exact Foot.refl
    | with_reducible assumption
    | (with_reducible apply partsIn_dec; decide)
    | with_reducible apply Foot.next ?_ (State.setBit_foot ..) ?_
    | with_reducible apply Foot.next ?_ (State.portGo_foot ..) ?_
    | with_reducible apply Foot.next ?_ (State.log_foot ..) ?_
    | with_reducible apply Foot.ite ?_ ?_
    )

theorem execGateRefused_foot {d : Fin 10} {s : State} {t : State} (h : execGateRefused d s = .next t) : Foot [.regs, .clk, .sil, .ses, .mem] s t := by
  unfold execGateRefused at h
  try dsimp only at h
  with_reducible refine Foot.ofNext h ?_
  repeat' (first
    | with_reducible exact Foot.refl
    | with_reducible assumption
    | (with_reducible apply partsIn_dec; decide)
    | with_reducible apply Foot.next ?_ (State.gateRefused_foot ..) ?_
    | with_reducible apply Foot.next ?_ (State.sendBegin_foot ..) ?_
    )

end Sys2Proof.Machine
end

