-- ==== Sys2Proof/Laws/FootCooling.lean ====
section
/-! SUPPORT. Footprints of the functions of Machine/Cooling.lean. -/

namespace Sys2Proof.Machine

theorem State.modCool_foot (s : State) (f : CoolSt → CoolSt) : Foot [.cool] s (State.modCool s f) := by
  unfold State.modCool
  try dsimp only
  repeat' (first
    | with_reducible exact Foot.refl
    | with_reducible assumption
    | (with_reducible apply partsIn_dec; decide)
    | with_reducible apply Foot.next ?_ Foot.cool_upd ?_
    )

theorem State.hwdtEnterA0_foot (s : State) : Foot [.regs, .cool] s (State.hwdtEnterA0 s) := by
  unfold State.hwdtEnterA0
  try dsimp only
  repeat' (first
    | with_reducible exact Foot.refl
    | with_reducible assumption
    | (with_reducible apply partsIn_dec; decide)
    | with_reducible apply Foot.next ?_ (State.modCool_foot ..) ?_
    | with_reducible apply Foot.next ?_ (State.set_foot ..) ?_
    | with_reducible apply Foot.ite ?_ ?_
    )

theorem State.fanLoopsLose_foot (s : State) : Foot [.cool] s (State.fanLoopsLose s) := by
  unfold State.fanLoopsLose
  try dsimp only
  repeat' (first
    | with_reducible exact Foot.refl
    | with_reducible assumption
    | (with_reducible apply partsIn_dec; decide)
    | with_reducible apply Foot.next ?_ (State.modCool_foot ..) ?_
    | with_reducible apply Foot.ite ?_ ?_
    )

theorem State.consStop_foot (s : State) : Foot [.cool] s (State.consStop s) := by
  unfold State.consStop
  try dsimp only
  repeat' (first
    | with_reducible exact Foot.refl
    | with_reducible assumption
    | (with_reducible apply partsIn_dec; decide)
    | with_reducible apply Foot.next ?_ (State.modCool_foot ..) ?_
    )

theorem State.valves_foot (s : State) : Foot [.regs] s (State.valves s) := by
  unfold State.valves
  try dsimp only
  repeat' (first
    | with_reducible exact Foot.refl
    | with_reducible assumption
    | (with_reducible apply partsIn_dec; decide)
    | with_reducible apply Foot.next ?_ (State.setAll_foot ..) ?_
    | with_reducible apply Foot.ite ?_ ?_
    )

theorem State.valveCommand_foot (s : State) (w : Nat) : Foot [.regs] s (State.valveCommand s w) := by
  unfold State.valveCommand
  try dsimp only
  repeat' (first
    | with_reducible exact Foot.refl
    | with_reducible assumption
    | (with_reducible apply partsIn_dec; decide)
    | with_reducible apply Foot.next ?_ (State.valves_foot ..) ?_
    | with_reducible apply Foot.next ?_ (State.set_foot ..) ?_
    )

theorem State.modCh_foot (s : State) (i : Nat) (f : CoolCh → CoolCh) : Foot [.cool] s (State.modCh s i f) := by
  unfold State.modCh
  try dsimp only
  repeat' (first
    | with_reducible exact Foot.refl
    | with_reducible assumption
    | (with_reducible apply partsIn_dec; decide)
    | with_reducible apply Foot.next ?_ (State.modCool_foot ..) ?_
    )

theorem State.chOff_foot (s : State) (i : Nat) : Foot [.regs, .cool] s (State.chOff s i) := by
  unfold State.chOff
  try dsimp only
  repeat' (first
    | with_reducible exact Foot.refl
    | with_reducible assumption
    | (with_reducible apply partsIn_dec; decide)
    | with_reducible apply Foot.next ?_ (State.modCh_foot ..) ?_
    | with_reducible apply Foot.next ?_ (State.set_foot ..) ?_
    )

theorem State.pumpHolds_foot (s : State) : Foot [.regs] s (State.pumpHolds s) := by
  unfold State.pumpHolds
  try dsimp only
  repeat' (first
    | with_reducible exact Foot.refl
    | with_reducible assumption
    | (with_reducible apply partsIn_dec; decide)
    | with_reducible apply Foot.next ?_ (State.setB_foot ..) ?_
    | with_reducible apply Foot.foldl (fun _ _ _ => ?_) ?_
    )

theorem State.coolConfig_foot (s : State) : Foot [.regs, .cool] s (State.coolConfig s) := by
  unfold State.coolConfig
  try dsimp only
  repeat' (first
    | with_reducible exact Foot.refl
    | with_reducible assumption
    | (with_reducible apply partsIn_dec; decide)
    | with_reducible apply Foot.next ?_ (State.pumpHolds_foot ..) ?_
    | with_reducible apply Foot.next ?_ (State.chOff_foot ..) ?_
    | with_reducible apply Foot.next ?_ (State.valves_foot ..) ?_
    | with_reducible apply Foot.foldl (fun _ _ _ => ?_) ?_
    | with_reducible apply Foot.ite ?_ ?_
    )

theorem State.modSlot_foot (s : State) (c : Nat) (f : ConsSt → ConsSt) : Foot [.cool] s (State.modSlot s c f) := by
  unfold State.modSlot
  try dsimp only
  repeat' (first
    | with_reducible exact Foot.refl
    | with_reducible assumption
    | (with_reducible apply partsIn_dec; decide)
    | with_reducible apply Foot.next ?_ (State.modCool_foot ..) ?_
    )

theorem State.tagQueue_foot (s : State) (c k : Nat) (tx : List Byte) (rx : RxForm) : Foot [.tw] s (State.tagQueue s c k tx rx) := by
  unfold State.tagQueue
  try dsimp only
  repeat' (first
    | with_reducible exact Foot.refl
    | with_reducible assumption
    | (with_reducible apply partsIn_dec; decide)
    | with_reducible apply Foot.next ?_ (State.twQueue_foot ..) ?_
    )

theorem State.slotCheck_foot (s : State) (c : Nat) : Foot [.regs, .tw, .cool, .fresh] s (State.slotCheck s c) := by
  unfold State.slotCheck
  try dsimp only
  repeat' (first
    | with_reducible exact Foot.refl
    | with_reducible assumption
    | (with_reducible apply partsIn_dec; decide)
    | with_reducible apply Foot.next ?_ (State.tagQueue_foot ..) ?_
    | with_reducible apply Foot.next ?_ (State.modSlot_foot ..) ?_
    | with_reducible apply Foot.next ?_ (State.draw_foot ..) ?_
    | with_reducible apply Foot.next ?_ (State.set_foot ..) ?_
    )

theorem State.slotGone_foot (s : State) (c : Nat) : Foot [.regs, .cool] s (State.slotGone s c) := by
  unfold State.slotGone
  try dsimp only
  repeat' (first
    | with_reducible exact Foot.refl
    | with_reducible assumption
    | (with_reducible apply partsIn_dec; decide)
    | with_reducible apply Foot.next ?_ (State.modSlot_foot ..) ?_
    | with_reducible apply Foot.next ?_ (State.setAll_foot ..) ?_
    )

theorem State.slotRefuse_foot (s : State) (c state : Nat) : Foot [.regs] s (State.slotRefuse s c state) := by
  unfold State.slotRefuse
  try dsimp only
  repeat' (first
    | with_reducible exact Foot.refl
    | with_reducible assumption
    | (with_reducible apply partsIn_dec; decide)
    | with_reducible apply Foot.next ?_ (State.setAll_foot ..) ?_
    )

theorem State.slotUnauth_foot (s : State) (c reason : Nat) : Foot [.regs, .sil, .cool] s (State.slotUnauth s c reason) := by
  unfold State.slotUnauth
  try dsimp only
  repeat' (first
    | with_reducible exact Foot.refl
    | with_reducible assumption
    | (with_reducible apply partsIn_dec; decide)
    | with_reducible apply Foot.next ?_ (State.slotRefuse_foot ..) ?_
    | with_reducible apply Foot.next ?_ (State.modSlot_foot ..) ?_
    | with_reducible apply Foot.next ?_ (State.log_foot ..) ?_
    )

theorem State.slotLife_foot (s : State) (c : Nat) : Foot [.regs, .sil] s (State.slotLife s c) := by
  unfold State.slotLife
  try dsimp only
  repeat' (first
    | with_reducible exact Foot.refl
    | with_reducible assumption
    | (with_reducible apply partsIn_dec; decide)
    | with_reducible apply Foot.next ?_ (State.slotRefuse_foot ..) ?_
    | with_reducible apply Foot.next ?_ (State.setAll_foot ..) ?_
    | with_reducible apply Foot.next ?_ (State.log_foot ..) ?_
    | with_reducible apply Foot.ite ?_ ?_
    )

theorem State.slotLow_foot (s : State) (c : Nat) : Foot [.regs, .sil] s (State.slotLow s c) := by
  unfold State.slotLow
  try dsimp only
  repeat' (first
    | with_reducible exact Foot.refl
    | with_reducible assumption
    | (with_reducible apply partsIn_dec; decide)
    | with_reducible apply Foot.next ?_ (State.setB_foot ..) ?_
    | with_reducible apply Foot.next ?_ (State.logIf_foot ..) ?_
    )

theorem State.tagJudge_foot (s : State) (c : Nat) : Foot [.regs, .sil, .nvm, .cool] s (State.tagJudge s c) := by
  unfold State.tagJudge
  try dsimp only
  repeat' (first
    | with_reducible exact Foot.refl
    | with_reducible assumption
    | (with_reducible apply partsIn_dec; decide)
    | with_reducible apply Foot.next ?_ (State.slotLow_foot ..) ?_
    | with_reducible apply Foot.next ?_ (State.slotLife_foot ..) ?_
    | with_reducible apply Foot.next ?_ (State.slotUnauth_foot ..) ?_
    | with_reducible apply Foot.next ?_ (State.modSlot_foot ..) ?_
    | with_reducible apply Foot.next ?_ (State.nvmCommit_foot ..) ?_
    | with_reducible apply Foot.next ?_ (State.set_foot ..) ?_
    | with_reducible apply Foot.ite ?_ ?_
    )

theorem State.tagEnd_foot (s : State) (c k r : Nat) (rx : List Byte) : Foot [.regs, .sil, .nvm, .tw, .cool, .fresh] s (State.tagEnd s c k r rx) := by
  unfold State.tagEnd
  try dsimp only
  repeat' (first
    | with_reducible exact Foot.refl
    | with_reducible assumption
    | (with_reducible apply partsIn_dec; decide)
    | with_reducible apply Foot.next ?_ (State.tagJudge_foot ..) ?_
    | with_reducible apply Foot.next ?_ (State.slotUnauth_foot ..) ?_
    | with_reducible apply Foot.next ?_ (State.slotGone_foot ..) ?_
    | with_reducible apply Foot.next ?_ (State.slotCheck_foot ..) ?_
    | with_reducible apply Foot.next ?_ (State.tagQueue_foot ..) ?_
    | with_reducible apply Foot.next ?_ (State.modSlot_foot ..) ?_
    | with_reducible apply Foot.ite ?_ ?_
    )

theorem State.modPump_foot (s : State) (p : Nat) (f : PumpSt → PumpSt) : Foot [.cool] s (State.modPump s p f) := by
  unfold State.modPump
  try dsimp only
  repeat' (first
    | with_reducible exact Foot.refl
    | with_reducible assumption
    | (with_reducible apply partsIn_dec; decide)
    | with_reducible apply Foot.next ?_ (State.modCool_foot ..) ?_
    )

theorem State.chLog_foot (s : State) (code i : Nat) (p : List (Nat × Nat × Nat)) : Foot [.sil] s (State.chLog s code i p) := by
  unfold State.chLog
  try dsimp only
  repeat' (first
    | with_reducible exact Foot.refl
    | with_reducible assumption
    | (with_reducible apply partsIn_dec; decide)
    | with_reducible apply Foot.next ?_ (State.log_foot ..) ?_
    )

theorem State.dutyOne_foot (s : State) (i : Nat) : Foot [.regs, .cool] s (State.dutyOne s i) := by
  unfold State.dutyOne
  try dsimp only
  repeat' (first
    | with_reducible exact Foot.refl
    | with_reducible assumption
    | (with_reducible apply partsIn_dec; decide)
    | with_reducible apply Foot.next ?_ (State.modCh_foot ..) ?_
    | with_reducible apply Foot.next ?_ (State.set_foot ..) ?_
    | with_reducible apply Foot.ite ?_ ?_
    )

theorem execPwmPeriod_foot {s : State} {t : State} (h : execPwmPeriod s = .next t) : Foot [.regs, .cool] s t := by
  unfold execPwmPeriod at h
  try dsimp only at h
  with_reducible refine Foot.ofNext h ?_
  repeat' (first
    | with_reducible exact Foot.refl
    | with_reducible assumption
    | (with_reducible apply partsIn_dec; decide)
    | with_reducible apply Foot.next ?_ (State.dutyOne_foot ..) ?_
    | with_reducible apply Foot.foldl (fun _ _ _ => ?_) ?_
    )

theorem State.curveEval_foot (s : State) (z : Nat) : Foot [.regs] s (State.curveEval s z) := by
  unfold State.curveEval
  try dsimp only
  repeat' (first
    | with_reducible exact Foot.refl
    | with_reducible assumption
    | (with_reducible apply partsIn_dec; decide)
    | with_reducible apply Foot.next ?_ (State.setB_foot ..) ?_
    | with_reducible apply Foot.next ?_ (State.set_foot ..) ?_
    | with_reducible apply Foot.foldl (fun _ _ _ => ?_) ?_
    | with_reducible apply Foot.ite ?_ ?_
    )

theorem execCurveEval_foot {s : State} {t : State} (h : execCurveEval s = .next t) : Foot [.regs] s t := by
  unfold execCurveEval at h
  try dsimp only at h
  with_reducible refine Foot.ofNext h ?_
  repeat' (first
    | with_reducible exact Foot.refl
    | with_reducible assumption
    | (with_reducible apply partsIn_dec; decide)
    | with_reducible apply Foot.next ?_ (State.curveEval_foot ..) ?_
    | with_reducible apply Foot.foldl (fun _ _ _ => ?_) ?_
    | with_reducible apply Foot.ite ?_ ?_
    )

theorem State.zoneUpdate_foot (s : State) (z : Nat) : Foot [.regs] s (State.zoneUpdate s z) := by
  unfold State.zoneUpdate
  try dsimp only
  repeat' (first
    | with_reducible exact Foot.refl
    | with_reducible assumption
    | (with_reducible apply partsIn_dec; decide)
    | with_reducible apply Foot.next ?_ (State.setB_foot ..) ?_
    | with_reducible apply Foot.next ?_ (State.set_foot ..) ?_
    )

theorem State.tachIn_foot (s : State) (i : Nat) (x : TachIn) : Foot [.regs, .cool] s (State.tachIn s i x) := by
  unfold State.tachIn
  try dsimp only
  repeat' (first
    | with_reducible exact Foot.refl
    | with_reducible assumption
    | (with_reducible apply partsIn_dec; decide)
    | with_reducible apply Foot.next ?_ (State.modCh_foot ..) ?_
    | with_reducible apply Foot.next ?_ (State.set_foot ..) ?_
    | with_reducible apply Foot.foldl (fun _ _ _ => ?_) ?_
    | with_reducible apply Foot.ite ?_ ?_
    | split
    )

theorem State.chStart_foot (s : State) (i n : Nat) : Foot [.regs, .cool] s (State.chStart s i n) := by
  unfold State.chStart
  try dsimp only
  repeat' (first
    | with_reducible exact Foot.refl
    | with_reducible assumption
    | (with_reducible apply partsIn_dec; decide)
    | with_reducible apply Foot.next ?_ (State.modCh_foot ..) ?_
    | with_reducible apply Foot.next ?_ (State.setAll_foot ..) ?_
    )

theorem State.chLoop_foot (s : State) (i : Nat) : Foot [.regs, .cool] s (State.chLoop s i) := by
  unfold State.chLoop
  try dsimp only
  repeat' (first
    | with_reducible exact Foot.refl
    | with_reducible assumption
    | (with_reducible apply partsIn_dec; decide)
    | with_reducible apply Foot.next ?_ (State.modCh_foot ..) ?_
    | with_reducible apply Foot.next ?_ (State.setAll_foot ..) ?_
    | with_reducible apply Foot.ite ?_ ?_
    )

theorem State.piStep_foot (s : State) (n : Nat) : Foot [.cool] s (State.piStep s n) := by
  unfold State.piStep
  try dsimp only
  repeat' (first
    | with_reducible exact Foot.refl
    | with_reducible assumption
    | (with_reducible apply partsIn_dec; decide)
    | with_reducible apply Foot.next ?_ (State.modCh_foot ..) ?_
    )

theorem State.tachLost_foot (s : State) (i : Nat) : Foot [.regs, .sil, .cool] s (State.tachLost s i) := by
  unfold State.tachLost
  try dsimp only
  repeat' (first
    | with_reducible exact Foot.refl
    | with_reducible assumption
    | (with_reducible apply partsIn_dec; decide)
    | with_reducible apply Foot.next ?_ (State.chStart_foot ..) ?_
    | with_reducible apply Foot.next ?_ (State.chLog_foot ..) ?_
    | with_reducible apply Foot.next ?_ (State.modCh_foot ..) ?_
    | with_reducible apply Foot.next ?_ (State.setAll_foot ..) ?_
    | with_reducible apply Foot.next ?_ (State.set_foot ..) ?_
    | with_reducible apply Foot.ite ?_ ?_
    )

theorem State.chMachine_foot (s : State) (i : Nat) : Foot [.regs, .sil, .cool] s (State.chMachine s i) := by
  unfold State.chMachine
  try dsimp only
  repeat' (first
    | with_reducible exact Foot.refl
    | with_reducible assumption
    | (with_reducible apply partsIn_dec; decide)
    | with_reducible apply Foot.next ?_ (State.tachLost_foot ..) ?_
    | with_reducible apply Foot.next ?_ (State.piStep_foot ..) ?_
    | with_reducible apply Foot.next ?_ (State.chLoop_foot ..) ?_
    | with_reducible apply Foot.next ?_ (State.chStart_foot ..) ?_
    | with_reducible apply Foot.next ?_ (State.chLog_foot ..) ?_
    | with_reducible apply Foot.next ?_ (State.chOff_foot ..) ?_
    | with_reducible apply Foot.next ?_ (State.modCh_foot ..) ?_
    | with_reducible apply Foot.next ?_ (State.setB_foot ..) ?_
    | with_reducible apply Foot.next ?_ (State.setAll_foot ..) ?_
    | with_reducible apply Foot.next ?_ (State.set_foot ..) ?_
    | with_reducible apply Foot.ite ?_ ?_
    )

theorem State.chUpdate_foot (xs : List TachIn) (s : State) (i : Nat) : Foot [.regs, .sil, .cool] s (State.chUpdate xs s i) := by
  unfold State.chUpdate
  try dsimp only
  repeat' (first
    | with_reducible exact Foot.refl
    | with_reducible assumption
    | (with_reducible apply partsIn_dec; decide)
    | with_reducible apply Foot.next ?_ (State.chMachine_foot ..) ?_
    | with_reducible apply Foot.next ?_ (State.tachIn_foot ..) ?_
    | with_reducible apply Foot.next ?_ (State.modCh_foot ..) ?_
    | with_reducible apply Foot.next ?_ (State.set_foot ..) ?_
    | with_reducible apply Foot.ite ?_ ?_
    )

theorem State.cwdtUpdate_foot (s : State) : Foot [.regs, .cool] s (State.cwdtUpdate s) := by
  unfold State.cwdtUpdate
  try dsimp only
  repeat' (first
    | with_reducible exact Foot.refl
    | with_reducible assumption
    | (with_reducible apply partsIn_dec; decide)
    | with_reducible apply Foot.next ?_ (State.modCool_foot ..) ?_
    | with_reducible apply Foot.next ?_ (State.set_foot ..) ?_
    | with_reducible apply Foot.ite ?_ ?_
    )

theorem State.slewRefill_foot (s : State) : Foot [.cool] s (State.slewRefill s) := by
  unfold State.slewRefill
  try dsimp only
  repeat' (first
    | with_reducible exact Foot.refl
    | with_reducible assumption
    | (with_reducible apply partsIn_dec; decide)
    | with_reducible apply Foot.next ?_ (State.modCh_foot ..) ?_
    | with_reducible apply Foot.foldl (fun _ _ _ => ?_) ?_
    )

theorem State.fanUpdate_foot (s : State) (xs : List TachIn) : Foot [.regs, .sil, .cool] s (State.fanUpdate s xs) := by
  unfold State.fanUpdate
  try dsimp only
  repeat' (first
    | with_reducible exact Foot.refl
    | with_reducible assumption
    | (with_reducible apply partsIn_dec; decide)
    | with_reducible apply Foot.next ?_ (State.slewRefill_foot ..) ?_
    | with_reducible apply Foot.next ?_ (State.cwdtUpdate_foot ..) ?_
    | with_reducible apply Foot.next ?_ (State.chUpdate_foot ..) ?_
    | with_reducible apply Foot.next ?_ (State.zoneUpdate_foot ..) ?_
    | with_reducible apply Foot.foldl (fun _ _ _ => ?_) ?_
    | with_reducible apply Foot.ite ?_ ?_
    )

theorem execFanUpdate_foot {tach : List TachIn} {s : State} {t : State} (h : execFanUpdate tach s = .next t) : Foot [.regs, .sil, .cool] s t := by
  unfold execFanUpdate at h
  try dsimp only at h
  with_reducible refine Foot.ofNext h ?_
  repeat' (first
    | with_reducible exact Foot.refl
    | with_reducible assumption
    | (with_reducible apply partsIn_dec; decide)
    | with_reducible apply Foot.next ?_ (State.fanUpdate_foot ..) ?_
    )

theorem State.senseSample_foot (s : State) : Foot [.cool] s (State.senseSample s) := by
  unfold State.senseSample
  try dsimp only
  repeat' (first
    | with_reducible exact Foot.refl
    | with_reducible assumption
    | (with_reducible apply partsIn_dec; decide)
    | with_reducible apply Foot.next ?_ (State.modCh_foot ..) ?_
    | with_reducible apply Foot.foldl (fun _ _ _ => ?_) ?_
    | with_reducible apply Foot.ite ?_ ?_
    )

theorem State.flowIn_foot (s : State) (f : Nat) (ints : List Nat) : Foot [.regs, .cool] s (State.flowIn s f ints) := by
  unfold State.flowIn
  try dsimp only
  repeat' (first
    | with_reducible exact Foot.refl
    | with_reducible assumption
    | (with_reducible apply partsIn_dec; decide)
    | with_reducible apply Foot.next ?_ (State.modCool_foot ..) ?_
    | with_reducible apply Foot.next ?_ (State.setAll_foot ..) ?_
    | with_reducible apply Foot.ite ?_ ?_
    )

theorem State.flowTerms_foot (s : State) (p : Nat) : Foot [.cool] s (State.flowTerms s p) := by
  unfold State.flowTerms
  try dsimp only
  repeat' (first
    | with_reducible exact Foot.refl
    | with_reducible assumption
    | (with_reducible apply partsIn_dec; decide)
    | with_reducible apply Foot.next ?_ (State.modPump_foot ..) ?_
    | with_reducible apply Foot.ite ?_ ?_
    )

theorem State.pumpLoop_foot (s : State) (p : Nat) : Foot [.regs, .cool] s (State.pumpLoop s p) := by
  unfold State.pumpLoop
  try dsimp only
  repeat' (first
    | with_reducible exact Foot.refl
    | with_reducible assumption
    | (with_reducible apply partsIn_dec; decide)
    | with_reducible apply Foot.next ?_ (State.flowTerms_foot ..) ?_
    | with_reducible apply Foot.next ?_ (State.chOff_foot ..) ?_
    | with_reducible apply Foot.next ?_ (State.modCh_foot ..) ?_
    | with_reducible apply Foot.next ?_ (State.setB_foot ..) ?_
    | with_reducible apply Foot.ite ?_ ?_
    )

theorem State.flowLow_foot (s : State) (p : Nat) : Foot [.regs, .sil, .cool] s (State.flowLow s p) := by
  unfold State.flowLow
  try dsimp only
  repeat' (first
    | with_reducible exact Foot.refl
    | with_reducible assumption
    | (with_reducible apply partsIn_dec; decide)
    | with_reducible apply Foot.next ?_ (State.modPump_foot ..) ?_
    | with_reducible apply Foot.next ?_ (State.set_foot ..) ?_
    | with_reducible apply Foot.next ?_ (State.log_foot ..) ?_
    | with_reducible apply Foot.ite ?_ ?_
    | split
    )

theorem State.pumpUpdate_foot (s : State) (p : Nat) : Foot [.regs, .sil, .cool] s (State.pumpUpdate s p) := by
  unfold State.pumpUpdate
  try dsimp only
  repeat' (first
    | with_reducible exact Foot.refl
    | with_reducible assumption
    | (with_reducible apply partsIn_dec; decide)
    | with_reducible apply Foot.next ?_ (State.flowLow_foot ..) ?_
    | with_reducible apply Foot.next ?_ (State.pumpLoop_foot ..) ?_
    | with_reducible apply Foot.ite ?_ ?_
    )

theorem execPumpUpdate_foot {flows : List (List Nat)} {s : State} {t : State} (h : execPumpUpdate flows s = .next t) : Foot [.regs, .sil, .cool] s t := by
  unfold execPumpUpdate at h
  try dsimp only at h
  with_reducible refine Foot.ofNext h ?_
  repeat' (first
    | with_reducible exact Foot.refl
    | with_reducible assumption
    | (with_reducible apply partsIn_dec; decide)
    | with_reducible apply Foot.next ?_ (State.pumpUpdate_foot ..) ?_
    | with_reducible apply Foot.next ?_ (State.flowIn_foot ..) ?_
    | with_reducible apply Foot.foldl (fun _ _ _ => ?_) ?_
    | with_reducible apply Foot.ite ?_ ?_
    )

theorem State.coolRestart_foot (s : State) : Foot [.regs, .cool] s (State.coolRestart s) := by
  unfold State.coolRestart
  try dsimp only
  repeat' (first
    | with_reducible exact Foot.refl
    | with_reducible assumption
    | (with_reducible apply partsIn_dec; decide)
    | with_reducible apply Foot.next ?_ (State.chLoop_foot ..) ?_
    | with_reducible apply Foot.next ?_ (State.chStart_foot ..) ?_
    | with_reducible apply Foot.foldl (fun _ _ _ => ?_) ?_
    | with_reducible apply Foot.ite ?_ ?_
    )

theorem State.slotPoll_foot (s : State) (c : Nat) : Foot [.tw] s (State.slotPoll s c) := by
  unfold State.slotPoll
  try dsimp only
  repeat' (first
    | with_reducible exact Foot.refl
    | with_reducible assumption
    | (with_reducible apply partsIn_dec; decide)
    | with_reducible apply Foot.next ?_ (State.tagQueue_foot ..) ?_
    | with_reducible apply Foot.ite ?_ ?_
    )

theorem execConsPoll_foot {s : State} {t : State} (h : execConsPoll s = .next t) : Foot [.tw] s t := by
  unfold execConsPoll at h
  try dsimp only at h
  with_reducible refine Foot.ofNext h ?_
  repeat' (first
    | with_reducible exact Foot.refl
    | with_reducible assumption
    | (with_reducible apply partsIn_dec; decide)
    | with_reducible apply Foot.next ?_ (State.slotPoll_foot ..) ?_
    | with_reducible apply Foot.foldl (fun _ _ _ => ?_) ?_
    | with_reducible apply Foot.ite ?_ ?_
    )

theorem execConsDailyCheck_foot {s : State} {t : State} (h : execConsDailyCheck s = .next t) : Foot [.regs, .tw, .cool, .fresh] s t := by
  unfold execConsDailyCheck at h
  try dsimp only at h
  with_reducible refine Foot.ofNext h ?_
  repeat' (first
    | with_reducible exact Foot.refl
    | with_reducible assumption
    | (with_reducible apply partsIn_dec; decide)
    | with_reducible apply Foot.next ?_ (State.slotCheck_foot ..) ?_
    | with_reducible apply Foot.foldl (fun _ _ _ => ?_) ?_
    | with_reducible apply Foot.ite ?_ ?_
    )

theorem State.lifeHour_foot (s : State) (c : Nat) : Foot [.regs, .sil, .nvm, .tw] s (State.lifeHour s c) := by
  unfold State.lifeHour
  try dsimp only
  repeat' (first
    | with_reducible exact Foot.refl
    | with_reducible assumption
    | (with_reducible apply partsIn_dec; decide)
    | with_reducible apply Foot.next ?_ (State.slotLow_foot ..) ?_
    | with_reducible apply Foot.next ?_ (State.slotLife_foot ..) ?_
    | with_reducible apply Foot.next ?_ (State.tagQueue_foot ..) ?_
    | with_reducible apply Foot.next ?_ (State.nvmCommit_foot ..) ?_
    | with_reducible apply Foot.next ?_ (State.set_foot ..) ?_
    | with_reducible apply Foot.ite ?_ ?_
    )

theorem execConsLifeHour_foot {c : Fin 32} {s : State} {t : State} (h : execConsLifeHour c s = .next t) : Foot [.regs, .sil, .nvm, .tw] s t := by
  unfold execConsLifeHour at h
  try dsimp only at h
  with_reducible refine Foot.ofNext h ?_
  repeat' (first
    | with_reducible exact Foot.refl
    | with_reducible assumption
    | (with_reducible apply partsIn_dec; decide)
    | with_reducible apply Foot.next ?_ (State.lifeHour_foot ..) ?_
    )

theorem State.coolStart_foot (s : State) : Foot [.regs, .tw, .cool] s (State.coolStart s) := by
  unfold State.coolStart
  try dsimp only
  repeat' (first
    | with_reducible exact Foot.refl
    | with_reducible assumption
    | (with_reducible apply partsIn_dec; decide)
    | with_reducible apply Foot.next ?_ (State.slotPoll_foot ..) ?_
    | with_reducible apply Foot.next ?_ (State.coolRestart_foot ..) ?_
    | with_reducible apply Foot.next ?_ (State.modCool_foot ..) ?_
    | with_reducible apply Foot.next ?_ (State.setAll_foot ..) ?_
    | with_reducible apply Foot.foldl (fun _ _ _ => ?_) ?_
    | with_reducible apply Foot.ite ?_ ?_
    )

theorem execCoolStart_foot {ini : Initiator} {s : State} {t : State} (h : execCoolStart ini s = .next t) : Foot [.regs, .sil, .tw, .cool, .bus] s t := by
  unfold execCoolStart at h
  try dsimp only at h
  with_reducible refine Foot.ofNext h ?_
  repeat' (first
    | with_reducible exact Foot.refl
    | with_reducible assumption
    | (with_reducible apply partsIn_dec; decide)
    | with_reducible apply Foot.next ?_ (State.coolStart_foot ..) ?_
    | with_reducible apply Foot.trans ?_ (State.command_foot _ _ _ _ ?_ ?_)
    | with_reducible apply Foot.ite ?_ ?_
    )

theorem State.stallClear_foot (s : State) (i w : Nat) : Foot [.regs, .sil, .cool] s (State.stallClear s i w) := by
  unfold State.stallClear
  try dsimp only
  repeat' (first
    | with_reducible exact Foot.refl
    | with_reducible assumption
    | (with_reducible apply partsIn_dec; decide)
    | with_reducible apply Foot.next ?_ (State.chStart_foot ..) ?_
    | with_reducible apply Foot.next ?_ (State.chLog_foot ..) ?_
    | with_reducible apply Foot.next ?_ (State.setIf_foot ..) ?_
    | with_reducible apply Foot.next ?_ (State.set_foot ..) ?_
    | with_reducible apply Foot.ite ?_ ?_
    )

theorem execStallClear_foot {ini : Initiator} {ch : Fin 30} {word : Word} {s : State} {t : State} (h : execStallClear ini ch word s = .next t) : Foot [.regs, .sil, .cool, .bus] s t := by
  unfold execStallClear at h
  try dsimp only at h
  with_reducible refine Foot.ofNext h ?_
  repeat' (first
    | with_reducible exact Foot.refl
    | with_reducible assumption
    | (with_reducible apply partsIn_dec; decide)
    | with_reducible apply Foot.next ?_ (State.stallClear_foot ..) ?_
    | with_reducible apply Foot.trans ?_ (State.command_foot _ _ _ _ ?_ ?_)
    )

theorem State.hwdtKick_foot (s : State) (session : Nat) : Foot [.regs, .sil, .cool] s (State.hwdtKick s session) := by
  unfold State.hwdtKick
  try dsimp only
  repeat' (first
    | with_reducible exact Foot.refl
    | with_reducible assumption
    | (with_reducible apply partsIn_dec; decide)
    | with_reducible apply Foot.next ?_ (State.modCool_foot ..) ?_
    | with_reducible apply Foot.next ?_ (State.logIf_foot ..) ?_
    | with_reducible apply Foot.next ?_ (State.setAll_foot ..) ?_
    | with_reducible apply Foot.ite ?_ ?_
    )

theorem execHostWdtKick_foot {session : Fin 16} {s : State} {t : State} (h : execHostWdtKick session s = .next t) : Foot [.regs, .sil, .cool] s t := by
  unfold execHostWdtKick at h
  try dsimp only at h
  with_reducible refine Foot.ofNext h ?_
  repeat' (first
    | with_reducible exact Foot.refl
    | with_reducible assumption
    | (with_reducible apply partsIn_dec; decide)
    | with_reducible apply Foot.next ?_ (State.hwdtKick_foot ..) ?_
    )

theorem State.hwdtExpiry_foot (s : State) : Foot [.regs, .sil] s (State.hwdtExpiry s) := by
  unfold State.hwdtExpiry
  try dsimp only
  repeat' (first
    | with_reducible exact Foot.refl
    | with_reducible assumption
    | (with_reducible apply partsIn_dec; decide)
    | with_reducible apply Foot.next ?_ (State.bump_foot ..) ?_
    | with_reducible apply Foot.next ?_ (State.setAll_foot ..) ?_
    | with_reducible apply Foot.next ?_ (State.log_foot ..) ?_
    | with_reducible apply Foot.ite ?_ ?_
    )

theorem execHostWdtExpiry_foot {s : State} {t : State} (h : execHostWdtExpiry s = .next t) : Foot [.regs, .sil] s t := by
  unfold execHostWdtExpiry at h
  try dsimp only at h
  with_reducible refine Foot.ofNext h ?_
  repeat' (first
    | with_reducible exact Foot.refl
    | with_reducible assumption
    | (with_reducible apply partsIn_dec; decide)
    | with_reducible apply Foot.next ?_ (State.hwdtExpiry_foot ..) ?_
    )

theorem State.cwdtTrip_foot (s : State) : Foot [.regs, .sil, .cool] s (State.cwdtTrip s) := by
  unfold State.cwdtTrip
  try dsimp only
  repeat' (first
    | with_reducible exact Foot.refl
    | with_reducible assumption
    | (with_reducible apply partsIn_dec; decide)
    | with_reducible apply Foot.next ?_ (State.modCool_foot ..) ?_
    | with_reducible apply Foot.next ?_ (State.bump_foot ..) ?_
    | with_reducible apply Foot.next ?_ (State.setAll_foot ..) ?_
    | with_reducible apply Foot.next ?_ (State.log_foot ..) ?_
    | with_reducible apply Foot.ite ?_ ?_
    )

theorem execCoolingWdtTrip_foot {s : State} {t : State} (h : execCoolingWdtTrip s = .next t) : Foot [.regs, .sil, .cool] s t := by
  unfold execCoolingWdtTrip at h
  try dsimp only at h
  with_reducible refine Foot.ofNext h ?_
  repeat' (first
    | with_reducible exact Foot.refl
    | with_reducible assumption
    | (with_reducible apply partsIn_dec; decide)
    | with_reducible apply Foot.next ?_ (State.cwdtTrip_foot ..) ?_
    )

theorem State.modLeak_foot (s : State) (k : Nat) (f : LeakSt → LeakSt) : Foot [.cool] s (State.modLeak s k f) := by
  unfold State.modLeak
  try dsimp only
  repeat' (first
    | with_reducible exact Foot.refl
    | with_reducible assumption
    | (with_reducible apply partsIn_dec; decide)
    | with_reducible apply Foot.next ?_ (State.modCool_foot ..) ?_
    )

theorem State.leakDeclare_foot (s : State) (k imp : Nat) : Foot [.regs, .sil, .cool] s (State.leakDeclare s k imp) := by
  unfold State.leakDeclare
  try dsimp only
  repeat' (first
    | with_reducible exact Foot.refl
    | with_reducible assumption
    | (with_reducible apply partsIn_dec; decide)
    | with_reducible apply Foot.next ?_ (State.modLeak_foot ..) ?_
    | with_reducible apply Foot.next ?_ (State.pumpHolds_foot ..) ?_
    | with_reducible apply Foot.next ?_ (State.valves_foot ..) ?_
    | with_reducible apply Foot.next ?_ (State.setAll_foot ..) ?_
    | with_reducible apply Foot.next ?_ (State.log_foot ..) ?_
    )

theorem State.leakMeasure_foot (s : State) (k imp : Nat) : Foot [.regs, .sil, .cool] s (State.leakMeasure s k imp) := by
  unfold State.leakMeasure
  try dsimp only
  repeat' (first
    | with_reducible exact Foot.refl
    | with_reducible assumption
    | (with_reducible apply partsIn_dec; decide)
    | with_reducible apply Foot.next ?_ (State.leakDeclare_foot ..) ?_
    | with_reducible apply Foot.next ?_ (State.modLeak_foot ..) ?_
    | with_reducible apply Foot.next ?_ (State.set_foot ..) ?_
    | with_reducible apply Foot.next ?_ (State.log_foot ..) ?_
    | with_reducible apply Foot.ite ?_ ?_
    )

theorem State.leakShut_foot (s : State) (k : Nat) : Foot [.regs, .sil, .tw, .seq, .tamp, .cool, .bus] s (State.leakShut s k) := by
  unfold State.leakShut
  try dsimp only
  repeat' (first
    | with_reducible exact Foot.refl
    | with_reducible assumption
    | (with_reducible apply partsIn_dec; decide)
    | with_reducible apply Foot.next ?_ (State.modLeak_foot ..) ?_
    | with_reducible apply Foot.next ?_ (State.seqTake_foot ..) ?_
    | with_reducible apply Foot.ite ?_ ?_
    )

theorem execLeakShutdown_foot {k : Fin 16} {s : State} {t : State} (h : execLeakShutdown k s = .next t) : Foot [.regs, .sil, .tw, .seq, .tamp, .cool, .bus] s t := by
  unfold execLeakShutdown at h
  try dsimp only at h
  with_reducible refine Foot.ofNext h ?_
  repeat' (first
    | with_reducible exact Foot.refl
    | with_reducible assumption
    | (with_reducible apply partsIn_dec; decide)
    | with_reducible apply Foot.next ?_ (State.leakShut_foot ..) ?_
    )

theorem State.leakClear_foot (s : State) (k : Nat) : Foot [.regs, .sil] s (State.leakClear s k) := by
  unfold State.leakClear
  try dsimp only
  repeat' (first
    | with_reducible exact Foot.refl
    | with_reducible assumption
    | (with_reducible apply partsIn_dec; decide)
    | with_reducible apply Foot.next ?_ (State.pumpHolds_foot ..) ?_
    | with_reducible apply Foot.next ?_ (State.valves_foot ..) ?_
    | with_reducible apply Foot.next ?_ (State.set_foot ..) ?_
    | with_reducible apply Foot.next ?_ (State.log_foot ..) ?_
    | with_reducible apply Foot.ite ?_ ?_
    )

theorem State.leakStsWrite_foot (s : State) (k w : Nat) : Foot [.regs, .sil] s (State.leakStsWrite s k w) := by
  unfold State.leakStsWrite
  try dsimp only
  repeat' (first
    | with_reducible exact Foot.refl
    | with_reducible assumption
    | (with_reducible apply partsIn_dec; decide)
    | with_reducible apply Foot.next ?_ (State.leakClear_foot ..) ?_
    | with_reducible apply Foot.next ?_ (State.setIf_foot ..) ?_
    | with_reducible apply Foot.ite ?_ ?_
    )

theorem execLeakClr_foot {ini : Initiator} {k : Fin 16} {word : Word} {s : State} {t : State} (h : execLeakClr ini k word s = .next t) : Foot [.regs, .sil, .bus] s t := by
  unfold execLeakClr at h
  try dsimp only at h
  with_reducible refine Foot.ofNext h ?_
  repeat' (first
    | with_reducible exact Foot.refl
    | with_reducible assumption
    | (with_reducible apply partsIn_dec; decide)
    | with_reducible apply Foot.next ?_ (State.leakStsWrite_foot ..) ?_
    | with_reducible apply Foot.trans ?_ (State.command_foot _ _ _ _ ?_ ?_)
    )

theorem execValveCommand_foot {ini : Initiator} {word : Word} {s : State} {t : State} (h : execValveCommand ini word s = .next t) : Foot [.regs, .sil, .bus] s t := by
  unfold execValveCommand at h
  try dsimp only at h
  with_reducible refine Foot.ofNext h ?_
  repeat' (first
    | with_reducible exact Foot.refl
    | with_reducible assumption
    | (with_reducible apply partsIn_dec; decide)
    | with_reducible apply Foot.next ?_ (State.valveCommand_foot ..) ?_
    | with_reducible apply Foot.trans ?_ (State.command_foot _ _ _ _ ?_ ?_)
    )

theorem State.coolStop_foot (s : State) : Foot [.regs] s (State.coolStop s) := by
  unfold State.coolStop
  try dsimp only
  repeat' (first
    | with_reducible exact Foot.refl
    | with_reducible assumption
    | (with_reducible apply partsIn_dec; decide)
    | with_reducible apply Foot.next ?_ (State.setAll_foot ..) ?_
    )

theorem State.coolA3_foot (s : State) (forced : Bool) : Foot [.regs] s (State.coolA3 s forced) := by
  unfold State.coolA3
  try dsimp only
  repeat' (first
    | with_reducible exact Foot.refl
    | with_reducible assumption
    | (with_reducible apply partsIn_dec; decide)
    | with_reducible apply Foot.next ?_ (State.set_foot ..) ?_
    | with_reducible apply Foot.foldl (fun _ _ _ => ?_) ?_
    | with_reducible apply Foot.ite ?_ ?_
    )

end Sys2Proof.Machine
end

