-- ==== Sys2Proof/Laws/FootTelemetry.lean ====
section
/-! SUPPORT. Footprints of the functions of Machine/Telemetry.lean. -/

namespace Sys2Proof.Machine

theorem State.modTel_foot (s : State) (f : TelSt → TelSt) : Foot [.tel] s (State.modTel s f) := by
  unfold State.modTel
  try dsimp only
  repeat' (first
    | with_reducible exact Foot.refl
    | with_reducible assumption
    | (with_reducible apply partsIn_dec; decide)
    | with_reducible apply Foot.next ?_ Foot.tel_upd ?_
    )

theorem State.lpStore_foot (s : State) (a : Nat) (bs : List Byte) : Foot [.clk, .mem] s (State.lpStore s a bs) := by
  unfold State.lpStore
  try dsimp only
  repeat' (first
    | with_reducible exact Foot.refl
    | with_reducible assumption
    | (with_reducible apply partsIn_dec; decide)
    | with_reducible apply Foot.next ?_ (State.portStore_foot ..) ?_
    | with_reducible apply Foot.ite ?_ ?_
    )

theorem State.recFreeze_foot (s : State) : Foot [.regs, .tel] s (State.recFreeze s) := by
  unfold State.recFreeze
  try dsimp only
  repeat' (first
    | with_reducible exact Foot.refl
    | with_reducible assumption
    | (with_reducible apply partsIn_dec; decide)
    | with_reducible apply Foot.next ?_ (State.modTel_foot ..) ?_
    | with_reducible apply Foot.next ?_ (State.set_foot ..) ?_
    )

theorem State.recClose_foot (s : State) (trig : Bool) : Foot [.regs, .clk, .tel, .mem] s (State.recClose s trig) := by
  unfold State.recClose
  try dsimp only
  repeat' (first
    | with_reducible exact Foot.refl
    | with_reducible assumption
    | (with_reducible apply partsIn_dec; decide)
    | with_reducible apply Foot.next ?_ (State.recFreeze_foot ..) ?_
    | with_reducible apply Foot.next ?_ (State.lpStore_foot ..) ?_
    | with_reducible apply Foot.next ?_ (State.modTel_foot ..) ?_
    | with_reducible apply Foot.next ?_ (State.set_foot ..) ?_
    | with_reducible apply Foot.ite ?_ ?_
    | split
    )

theorem State.modLink_foot (s : State) (n : Nat) (f : TlSt → TlSt) : Foot [.tel] s (State.modLink s n f) := by
  unfold State.modLink
  try dsimp only
  repeat' (first
    | with_reducible exact Foot.refl
    | with_reducible assumption
    | (with_reducible apply partsIn_dec; decide)
    | with_reducible apply Foot.next ?_ (State.modTel_foot ..) ?_
    )

theorem State.recOpen_foot (s : State) : Foot [.regs, .tel, .mem] s (State.recOpen s) := by
  unfold State.recOpen
  try dsimp only
  repeat' (first
    | with_reducible exact Foot.refl
    | with_reducible assumption
    | (with_reducible apply partsIn_dec; decide)
    | with_reducible apply Foot.next ?_ (State.modTel_foot ..) ?_
    | with_reducible apply Foot.next ?_ (State.setIf_foot ..) ?_
    | with_reducible apply Foot.ite ?_ ?_
    | with_reducible apply Foot.next ?_ Foot.memStore ?_
    | with_reducible apply Foot.next ?_ Foot.memForget ?_
    )

theorem State.recPut_foot (s : State) (named : Bool) (r : RecItem) : Foot [.regs, .clk, .tel, .mem] s (State.recPut s named r) := by
  unfold State.recPut
  try dsimp only
  repeat' (first
    | with_reducible exact Foot.refl
    | with_reducible assumption
    | (with_reducible apply partsIn_dec; decide)
    | with_reducible apply Foot.next ?_ (State.recOpen_foot ..) ?_
    | with_reducible apply Foot.next ?_ (State.modLink_foot ..) ?_
    | with_reducible apply Foot.next ?_ (State.lpStore_foot ..) ?_
    | with_reducible apply Foot.next ?_ (State.modTel_foot ..) ?_
    | with_reducible apply Foot.ite ?_ ?_
    )

theorem State.recTrigger_foot (s : State) (unit : Nat) (r : RecItem) : Foot [.regs, .clk, .tel, .fw, .mem] s (State.recTrigger s unit r) := by
  unfold State.recTrigger
  try dsimp only
  repeat' (first
    | with_reducible exact Foot.refl
    | with_reducible assumption
    | (with_reducible apply partsIn_dec; decide)
    | with_reducible apply Foot.next ?_ (State.recPut_foot ..) ?_
    | with_reducible apply Foot.next ?_ (State.recClose_foot ..) ?_
    | with_reducible apply Foot.next ?_ (State.recFreeze_foot ..) ?_
    | with_reducible apply Foot.next ?_ (State.raise_foot ..) ?_
    | with_reducible apply Foot.next ?_ (State.modTel_foot ..) ?_
    | with_reducible apply Foot.next ?_ (State.bump_foot ..) ?_
    | with_reducible apply Foot.next ?_ (State.setAll_foot ..) ?_
    | with_reducible apply Foot.next ?_ (State.set_foot ..) ?_
    | with_reducible apply Foot.ite ?_ ?_
    )

theorem State.fireAll_foot (s : State) (l : List (Nat × RecItem)) : Foot [.regs, .clk, .tel, .fw, .mem] s (State.fireAll s l) := by
  unfold State.fireAll
  try dsimp only
  repeat' (first
    | with_reducible exact Foot.refl
    | with_reducible assumption
    | (with_reducible apply partsIn_dec; decide)
    | with_reducible apply Foot.next ?_ (State.recTrigger_foot ..) ?_
    | with_reducible apply Foot.foldl (fun _ _ _ => ?_) ?_
    )

theorem State.bulkSend_foot (s : State) (m : BulkMsg) : Foot [.brg] s (State.bulkSend s m) := by
  unfold State.bulkSend
  try dsimp only
  repeat' (first
    | with_reducible exact Foot.refl
    | with_reducible assumption
    | (with_reducible apply partsIn_dec; decide)
    | with_reducible apply Foot.ite ?_ ?_
    | with_reducible apply Foot.next ?_ Foot.brg_upd ?_
    )

theorem State.logTop_foot (s : State) (code acc unit inst : Nat) (p : List (Nat × Nat × Nat)) : Foot [.brg] s (State.logTop s code acc unit inst p) := by
  unfold State.logTop
  try dsimp only
  repeat' (first
    | with_reducible exact Foot.refl
    | with_reducible assumption
    | (with_reducible apply partsIn_dec; decide)
    | with_reducible apply Foot.next ?_ (State.bulkSend_foot ..) ?_
    )

theorem State.mapEcc_foot (s : State) (i : Nat) : Foot [.regs, .brg, .tel] s (State.mapEcc s i) := by
  unfold State.mapEcc
  try dsimp only
  repeat' (first
    | with_reducible exact Foot.refl
    | with_reducible assumption
    | (with_reducible apply partsIn_dec; decide)
    | with_reducible apply Foot.next ?_ (State.logTop_foot ..) ?_
    | with_reducible apply Foot.next ?_ (State.modTel_foot ..) ?_
    | with_reducible apply Foot.next ?_ (State.bump_foot ..) ?_
    | with_reducible apply Foot.next ?_ (State.setAll_foot ..) ?_
    | with_reducible apply Foot.ite ?_ ?_
    )

theorem State.mapEccAll_foot (s : State) (bad : List (Fin 65536)) : Foot [.regs, .brg, .tel] s (State.mapEccAll s bad) := by
  unfold State.mapEccAll
  try dsimp only
  repeat' (first
    | with_reducible exact Foot.refl
    | with_reducible assumption
    | (with_reducible apply partsIn_dec; decide)
    | with_reducible apply Foot.next ?_ (State.mapEcc_foot ..) ?_
    | with_reducible apply Foot.foldl (fun _ _ _ => ?_) ?_
    )

theorem State.recFirst_foot (s : State) : Foot [.regs] s (State.recFirst s) := by
  unfold State.recFirst
  try dsimp only
  repeat' (first
    | with_reducible exact Foot.refl
    | with_reducible assumption
    | (with_reducible apply partsIn_dec; decide)
    | with_reducible apply Foot.next ?_ (State.set_foot ..) ?_
    )

theorem State.recRun_foot (s : State) (on : Bool) : Foot [.regs, .brg, .tel] s (State.recRun s on) := by
  unfold State.recRun
  try dsimp only
  repeat' (first
    | with_reducible exact Foot.refl
    | with_reducible assumption
    | (with_reducible apply partsIn_dec; decide)
    | with_reducible apply Foot.next ?_ (State.recFirst_foot ..) ?_
    | with_reducible apply Foot.next ?_ (State.logTop_foot ..) ?_
    | with_reducible apply Foot.next ?_ (State.modTel_foot ..) ?_
    | with_reducible apply Foot.next ?_ (State.setAll_foot ..) ?_
    | with_reducible apply Foot.ite ?_ ?_
    )

theorem State.trainFail_foot (s : State) (n : Nat) : Foot [.regs, .brg, .tel] s (State.trainFail s n) := by
  unfold State.trainFail
  try dsimp only
  repeat' (first
    | with_reducible exact Foot.refl
    | with_reducible assumption
    | (with_reducible apply partsIn_dec; decide)
    | with_reducible apply Foot.next ?_ (State.logTop_foot ..) ?_
    | with_reducible apply Foot.next ?_ (State.modLink_foot ..) ?_
    | with_reducible apply Foot.next ?_ (State.bump_foot ..) ?_
    | with_reducible apply Foot.next ?_ (State.setAll_foot ..) ?_
    | with_reducible apply Foot.ite ?_ ?_
    )

theorem State.bcError_foot (s : State) (n code r : Nat) : Foot [.regs, .brg, .tel] s (State.bcError s n code r) := by
  unfold State.bcError
  try dsimp only
  repeat' (first
    | with_reducible exact Foot.refl
    | with_reducible assumption
    | (with_reducible apply partsIn_dec; decide)
    | with_reducible apply Foot.next ?_ (State.trainFail_foot ..) ?_
    | with_reducible apply Foot.next ?_ (State.logTop_foot ..) ?_
    | with_reducible apply Foot.next ?_ (State.set_foot ..) ?_
    )

theorem State.bcFail_foot (s : State) (n r : Nat) : Foot [.regs, .brg, .tel] s (State.bcFail s n r) := by
  unfold State.bcFail
  try dsimp only
  repeat' (first
    | with_reducible exact Foot.refl
    | with_reducible assumption
    | (with_reducible apply partsIn_dec; decide)
    | with_reducible apply Foot.next ?_ (State.bcError_foot ..) ?_
    | with_reducible apply Foot.next ?_ (State.modLink_foot ..) ?_
    | with_reducible apply Foot.ite ?_ ?_
    | split
    )

theorem State.bcGo_foot (s : State) (n cmd : Nat) : Foot [.brg, .tw, .tel] s (State.bcGo s n cmd) := by
  unfold State.bcGo
  try dsimp only
  repeat' (first
    | with_reducible exact Foot.refl
    | with_reducible assumption
    | (with_reducible apply partsIn_dec; decide)
    | with_reducible apply Foot.next ?_ (State.modLink_foot ..) ?_
    | with_reducible apply Foot.next ?_ (State.msgHeader_foot ..) ?_
    | with_reducible apply Foot.next ?_ (State.twQueue_foot ..) ?_
    )

theorem State.bcQueue_foot (s : State) (n cmd : Nat) : Foot [.regs, .brg, .tw, .tel] s (State.bcQueue s n cmd) := by
  unfold State.bcQueue
  try dsimp only
  repeat' (first
    | with_reducible exact Foot.refl
    | with_reducible assumption
    | (with_reducible apply partsIn_dec; decide)
    | with_reducible apply Foot.next ?_ (State.bcGo_foot ..) ?_
    | with_reducible apply Foot.next ?_ (State.bcFail_foot ..) ?_
    | with_reducible apply Foot.next ?_ (State.modLink_foot ..) ?_
    | with_reducible apply Foot.ite ?_ ?_
    )

theorem State.bcSend_foot (s : State) (n cmd : Nat) : Foot [.regs, .brg, .tw, .tel] s (State.bcSend s n cmd) := by
  unfold State.bcSend
  try dsimp only
  repeat' (first
    | with_reducible exact Foot.refl
    | with_reducible assumption
    | (with_reducible apply partsIn_dec; decide)
    | with_reducible apply Foot.next ?_ (State.bcQueue_foot ..) ?_
    | with_reducible apply Foot.next ?_ (State.bcError_foot ..) ?_
    | with_reducible apply Foot.next ?_ (State.modLink_foot ..) ?_
    | with_reducible apply Foot.ite ?_ ?_
    )

theorem State.txeqNext_foot (s : State) (n : Nat) : Foot [.regs, .brg, .tw, .tel, .fresh] s (State.txeqNext s n) := by
  unfold State.txeqNext
  try dsimp only
  repeat' (first
    | with_reducible exact Foot.refl
    | with_reducible assumption
    | (with_reducible apply partsIn_dec; decide)
    | with_reducible apply Foot.next ?_ (State.bcSend_foot ..) ?_
    | with_reducible apply Foot.next ?_ (State.draw_foot ..) ?_
    )

theorem State.bcDone_foot (s : State) (n cmd : Nat) (rx : List Byte) : Foot [.regs, .brg, .tw, .tel, .fresh] s (State.bcDone s n cmd rx) := by
  unfold State.bcDone
  try dsimp only
  repeat' (first
    | with_reducible exact Foot.refl
    | with_reducible assumption
    | (with_reducible apply partsIn_dec; decide)
    | with_reducible apply Foot.next ?_ (State.txeqNext_foot ..) ?_
    | with_reducible apply Foot.next ?_ (State.bcSend_foot ..) ?_
    | with_reducible apply Foot.next ?_ (State.trainFail_foot ..) ?_
    | with_reducible apply Foot.next ?_ (State.modLink_foot ..) ?_
    | with_reducible apply Foot.next ?_ (State.set_foot ..) ?_
    | with_reducible apply Foot.ite ?_ ?_
    )

theorem State.bcBack_foot (s : State) (n cmd r : Nat) (rx : List Byte) : Foot [.regs, .brg, .tw, .tel, .fresh] s (State.bcBack s n cmd r rx) := by
  unfold State.bcBack
  try dsimp only
  repeat' (first
    | with_reducible exact Foot.refl
    | with_reducible assumption
    | (with_reducible apply partsIn_dec; decide)
    | with_reducible apply Foot.next ?_ (State.bcDone_foot ..) ?_
    | with_reducible apply Foot.next ?_ (State.bcFail_foot ..) ?_
    | with_reducible apply Foot.next ?_ (State.msgHeader_foot ..) ?_
    | with_reducible apply Foot.ite ?_ ?_
    )

theorem State.bcEnd_foot (s : State) (n cmd r : Nat) (rx : List Byte) : Foot [.regs, .brg, .tw, .tel, .fresh] s (State.bcEnd s n cmd r rx) := by
  unfold State.bcEnd
  try dsimp only
  repeat' (first
    | with_reducible exact Foot.refl
    | with_reducible assumption
    | (with_reducible apply partsIn_dec; decide)
    | with_reducible apply Foot.next ?_ (State.bcBack_foot ..) ?_
    | with_reducible apply Foot.next ?_ (State.modLink_foot ..) ?_
    | with_reducible apply Foot.ite ?_ ?_
    | split
    )

theorem State.lpUncorr_foot (s : State) (addr : Nat) : Foot [.regs, .brg] s (State.lpUncorr s addr) := by
  unfold State.lpUncorr
  try dsimp only
  repeat' (first
    | with_reducible exact Foot.refl
    | with_reducible assumption
    | (with_reducible apply partsIn_dec; decide)
    | with_reducible apply Foot.next ?_ (State.logTop_foot ..) ?_
    | with_reducible apply Foot.next ?_ (State.bump_foot ..) ?_
    | with_reducible apply Foot.next ?_ (State.set64_foot ..) ?_
    | with_reducible apply Foot.next ?_ (State.set_foot ..) ?_
    )

theorem State.linkSleep_foot (s : State) (n : Nat) : Foot [.regs, .brg, .tw, .tel] s (State.linkSleep s n) := by
  unfold State.linkSleep
  try dsimp only
  repeat' (first
    | with_reducible exact Foot.refl
    | with_reducible assumption
    | (with_reducible apply partsIn_dec; decide)
    | with_reducible apply Foot.next ?_ (State.bcSend_foot ..) ?_
    | with_reducible apply Foot.next ?_ (State.set_foot ..) ?_
    | with_reducible apply Foot.ite ?_ ?_
    )

theorem State.linksSleep_foot (s : State) : Foot [.regs, .brg, .tw, .tel] s (State.linksSleep s) := by
  unfold State.linksSleep
  try dsimp only
  repeat' (first
    | with_reducible exact Foot.refl
    | with_reducible assumption
    | (with_reducible apply partsIn_dec; decide)
    | with_reducible apply Foot.next ?_ (State.linkSleep_foot ..) ?_
    | with_reducible apply Foot.foldl (fun _ _ _ => ?_) ?_
    )

theorem State.recFlush_foot (s : State) : Foot [.regs, .clk, .tel, .mem] s (State.recFlush s) := by
  unfold State.recFlush
  try dsimp only
  repeat' (first
    | with_reducible exact Foot.refl
    | with_reducible assumption
    | (with_reducible apply partsIn_dec; decide)
    | with_reducible apply Foot.next ?_ (State.recClose_foot ..) ?_
    | with_reducible apply Foot.ite ?_ ?_
    )

theorem State.recRearm_foot (s : State) : Foot [.regs, .tel] s (State.recRearm s) := by
  unfold State.recRearm
  try dsimp only
  repeat' (first
    | with_reducible exact Foot.refl
    | with_reducible assumption
    | (with_reducible apply partsIn_dec; decide)
    | with_reducible apply Foot.next ?_ (State.modTel_foot ..) ?_
    | with_reducible apply Foot.next ?_ (State.set_foot ..) ?_
    | with_reducible apply Foot.ite ?_ ?_
    )

theorem State.recSwtrig_foot (s : State) : Foot [.regs, .clk, .tel, .fw, .mem] s (State.recSwtrig s) := by
  unfold State.recSwtrig
  try dsimp only
  repeat' (first
    | with_reducible exact Foot.refl
    | with_reducible assumption
    | (with_reducible apply partsIn_dec; decide)
    | with_reducible apply Foot.next ?_ (State.recTrigger_foot ..) ?_
    )

theorem State.recCtl_foot (s : State) (w : Nat) : Foot [.regs, .clk, .tel, .fw, .mem] s (State.recCtl s w) := by
  unfold State.recCtl
  try dsimp only
  repeat' (first
    | with_reducible exact Foot.refl
    | with_reducible assumption
    | (with_reducible apply partsIn_dec; decide)
    | with_reducible apply Foot.next ?_ (State.recSwtrig_foot ..) ?_
    | with_reducible apply Foot.next ?_ (State.recRearm_foot ..) ?_
    | with_reducible apply Foot.next ?_ (State.recFlush_foot ..) ?_
    | with_reducible apply Foot.ite ?_ ?_
    )

theorem State.putDst_foot (s : State) (i : Nat) (x : DescSt) : Foot [.tel] s (State.putDst s i x) := by
  unfold State.putDst
  try dsimp only
  repeat' (first
    | with_reducible exact Foot.refl
    | with_reducible assumption
    | (with_reducible apply partsIn_dec; decide)
    | with_reducible apply Foot.next ?_ (State.modTel_foot ..) ?_
    )

theorem execStatWindowBoundary_foot {i : Fin 65536} {s : State} {t : State} (h : execStatWindowBoundary i s = .next t) : Foot [.tel] s t := by
  unfold execStatWindowBoundary at h
  try dsimp only at h
  with_reducible refine Foot.ofNext h ?_
  repeat' (first
    | with_reducible exact Foot.refl
    | with_reducible assumption
    | (with_reducible apply partsIn_dec; decide)
    | with_reducible apply Foot.next ?_ (State.putDst_foot ..) ?_
    | with_reducible apply Foot.ite ?_ ?_
    )

theorem State.rateBoundary_foot (s : State) (i : Nat) : Foot [.tel] s (State.rateBoundary s i) := by
  unfold State.rateBoundary
  try dsimp only
  repeat' (first
    | with_reducible exact Foot.refl
    | with_reducible assumption
    | (with_reducible apply partsIn_dec; decide)
    | with_reducible apply Foot.next ?_ (State.putDst_foot ..) ?_
    | with_reducible apply Foot.ite ?_ ?_
    | split
    )

theorem execRateBoundary_foot {i : Fin 65536} {s : State} {t : State} (h : execRateBoundary i s = .next t) : Foot [.tel] s t := by
  unfold execRateBoundary at h
  try dsimp only at h
  with_reducible refine Foot.ofNext h ?_
  repeat' (first
    | with_reducible exact Foot.refl
    | with_reducible assumption
    | (with_reducible apply partsIn_dec; decide)
    | with_reducible apply Foot.next ?_ (State.rateBoundary_foot ..) ?_
    )

theorem State.guardAssembly_foot (s : State) : Foot [.brg, .tel] s (State.guardAssembly s) := by
  unfold State.guardAssembly
  try dsimp only
  repeat' (first
    | with_reducible exact Foot.refl
    | with_reducible assumption
    | (with_reducible apply partsIn_dec; decide)
    | with_reducible apply Foot.ite ?_ ?_
    | with_reducible apply Foot.next ?_ Foot.brg_tel_upd ?_
    | with_reducible apply Foot.next ?_ Foot.brg_upd ?_
    | with_reducible apply Foot.next ?_ Foot.tel_upd ?_
    )

theorem execGuardAssembly_foot {s : State} {badDesc : List (Fin 65536)} {t : State} (h : execGuardAssembly s badDesc = .next t) : Foot [.regs, .brg, .tel] s t := by
  unfold execGuardAssembly at h
  try dsimp only at h
  with_reducible refine Foot.ofNext h ?_
  repeat' (first
    | with_reducible exact Foot.refl
    | with_reducible assumption
    | (with_reducible apply partsIn_dec; decide)
    | with_reducible apply Foot.next ?_ (State.guardAssembly_foot ..) ?_
    | with_reducible apply Foot.next ?_ (State.mapEccAll_foot ..) ?_
    | with_reducible apply Foot.ite ?_ ?_
    )

theorem State.recWrite_foot (s : State) (r : RecItem) : Foot [.regs, .clk, .tel, .mem] s (State.recWrite s r) := by
  unfold State.recWrite
  try dsimp only
  repeat' (first
    | with_reducible exact Foot.refl
    | with_reducible assumption
    | (with_reducible apply partsIn_dec; decide)
    | with_reducible apply Foot.next ?_ (State.recPut_foot ..) ?_
    | with_reducible apply Foot.next ?_ (State.recClose_foot ..) ?_
    | with_reducible apply Foot.ite ?_ ?_
    )

theorem State.recPush_foot (s : State) (n : Nat) (r : RecItem) : Foot [.regs, .brg, .tel] s (State.recPush s n r) := by
  unfold State.recPush
  try dsimp only
  repeat' (first
    | with_reducible exact Foot.refl
    | with_reducible assumption
    | (with_reducible apply partsIn_dec; decide)
    | with_reducible apply Foot.next ?_ (State.logTop_foot ..) ?_
    | with_reducible apply Foot.next ?_ (State.modLink_foot ..) ?_
    | with_reducible apply Foot.next ?_ (State.modTel_foot ..) ?_
    | with_reducible apply Foot.next ?_ (State.bump_foot ..) ?_
    | with_reducible apply Foot.next ?_ (State.set_foot ..) ?_
    | with_reducible apply Foot.ite ?_ ?_
    )

theorem State.recordWrite_foot (s : State) : Foot [.regs, .clk, .tel, .mem] s (State.recordWrite s) := by
  unfold State.recordWrite
  try dsimp only
  repeat' (first
    | with_reducible exact Foot.refl
    | with_reducible assumption
    | (with_reducible apply partsIn_dec; decide)
    | with_reducible apply Foot.next ?_ (State.recWrite_foot ..) ?_
    | with_reducible apply Foot.next ?_ (State.modLink_foot ..) ?_
    | with_reducible apply Foot.next ?_ (State.modTel_foot ..) ?_
    | with_reducible apply Foot.ite ?_ ?_
    | split
    )

theorem execRecordWrite_foot {s : State} {t : State} (h : execRecordWrite s = .next t) : Foot [.regs, .clk, .tel, .mem] s t := by
  unfold execRecordWrite at h
  try dsimp only at h
  with_reducible refine Foot.ofNext h ?_
  repeat' (first
    | with_reducible exact Foot.refl
    | with_reducible assumption
    | (with_reducible apply partsIn_dec; decide)
    | with_reducible apply Foot.next ?_ (State.recordWrite_foot ..) ?_
    )

theorem execRecFlushTimer_foot {s : State} {t : State} (h : execRecFlushTimer s = .next t) : Foot [.regs, .clk, .tel, .mem] s t := by
  unfold execRecFlushTimer at h
  try dsimp only at h
  with_reducible refine Foot.ofNext h ?_
  repeat' (first
    | with_reducible exact Foot.refl
    | with_reducible assumption
    | (with_reducible apply partsIn_dec; decide)
    | with_reducible apply Foot.next ?_ (State.recFlush_foot ..) ?_
    | with_reducible apply Foot.ite ?_ ?_
    )

theorem execRecRearm_foot {ini : Initiator} {s : State} {t : State} (h : execRecRearm ini s = .next t) : Foot [.regs, .sil, .tel, .bus] s t := by
  unfold execRecRearm at h
  try dsimp only at h
  with_reducible refine Foot.ofNext h ?_
  repeat' (first
    | with_reducible exact Foot.refl
    | with_reducible assumption
    | (with_reducible apply partsIn_dec; decide)
    | with_reducible apply Foot.next ?_ (State.recRearm_foot ..) ?_
    | with_reducible apply Foot.trans ?_ (State.command_foot _ _ _ _ ?_ ?_)
    )

theorem execRecSwtrig_foot {ini : Initiator} {s : State} {t : State} (h : execRecSwtrig ini s = .next t) : Foot [.regs, .clk, .sil, .tel, .fw, .bus, .mem] s t := by
  unfold execRecSwtrig at h
  try dsimp only at h
  with_reducible refine Foot.ofNext h ?_
  repeat' (first
    | with_reducible exact Foot.refl
    | with_reducible assumption
    | (with_reducible apply partsIn_dec; decide)
    | with_reducible apply Foot.next ?_ (State.recSwtrig_foot ..) ?_
    | with_reducible apply Foot.trans ?_ (State.command_foot _ _ _ _ ?_ ?_)
    )

theorem execRecFlush_foot {ini : Initiator} {s : State} {t : State} (h : execRecFlush ini s = .next t) : Foot [.regs, .clk, .sil, .tel, .bus, .mem] s t := by
  unfold execRecFlush at h
  try dsimp only at h
  with_reducible refine Foot.ofNext h ?_
  repeat' (first
    | with_reducible exact Foot.refl
    | with_reducible assumption
    | (with_reducible apply partsIn_dec; decide)
    | with_reducible apply Foot.next ?_ (State.recFlush_foot ..) ?_
    | with_reducible apply Foot.trans ?_ (State.command_foot _ _ _ _ ?_ ?_)
    )

theorem execRecRun_foot {ini : Initiator} {on : Bool} {s : State} {t : State} (h : execRecRun ini on s = .next t) : Foot [.regs, .sil, .brg, .tel, .bus] s t := by
  unfold execRecRun at h
  try dsimp only at h
  with_reducible refine Foot.ofNext h ?_
  repeat' (first
    | with_reducible exact Foot.refl
    | with_reducible assumption
    | (with_reducible apply partsIn_dec; decide)
    | with_reducible apply Foot.next ?_ (State.recRun_foot ..) ?_
    | with_reducible apply Foot.trans ?_ (State.command_foot _ _ _ _ ?_ ?_)
    )

theorem State.tfabCntClr_foot (s : State) : Foot [.regs] s (State.tfabCntClr s) := by
  unfold State.tfabCntClr
  try dsimp only
  repeat' (first
    | with_reducible exact Foot.refl
    | with_reducible assumption
    | (with_reducible apply partsIn_dec; decide)
    | with_reducible apply Foot.next ?_ (State.setAll_foot ..) ?_
    )

theorem execTfabCntClr_foot {ini : Initiator} {s : State} {t : State} (h : execTfabCntClr ini s = .next t) : Foot [.regs, .sil, .bus] s t := by
  unfold execTfabCntClr at h
  try dsimp only at h
  with_reducible refine Foot.ofNext h ?_
  repeat' (first
    | with_reducible exact Foot.refl
    | with_reducible assumption
    | (with_reducible apply partsIn_dec; decide)
    | with_reducible apply Foot.next ?_ (State.tfabCntClr_foot ..) ?_
    | with_reducible apply Foot.trans ?_ (State.command_foot _ _ _ _ ?_ ?_)
    )

theorem State.fseqCheck_foot (s : State) (n fseq : Nat) : Foot [.regs, .tel] s (State.fseqCheck s n fseq) := by
  unfold State.fseqCheck
  try dsimp only
  repeat' (first
    | with_reducible exact Foot.refl
    | with_reducible assumption
    | (with_reducible apply partsIn_dec; decide)
    | with_reducible apply Foot.next ?_ (State.modLink_foot ..) ?_
    | with_reducible apply Foot.next ?_ (State.bump_foot ..) ?_
    | split
    )

theorem applyValue_foot (n ts : Nat) (wide : Bool) (a : FrameAcc) (v : Nat × Nat) :
    Foot [.regs, .tel] a.st (applyValue n ts wide a v).st := by
  unfold applyValue
  dsimp only
  split
  · exact (State.bump_foot ..).mono (by decide)
  · split
    · exact (State.bump_foot ..).mono (by decide)
    · exact Foot.next ((State.putDst_foot ..).mono (by decide)) (State.setIf_foot ..) (by decide)

theorem applyBlock_foot (n ts : Nat) (a : FrameAcc) (b : Block) :
    Foot [.regs, .brg, .tel] a.st (applyBlock n ts a b).st := by
  unfold applyBlock
  dsimp only
  refine Foot.foldl (fun _ _ h => Foot.next h (State.recPush_foot ..) (by decide)) ?_
  refine foldl_keeps (fun c : FrameAcc => Foot [.regs, .brg, .tel] a.st c.st) (fun c e h => Foot.next h (applyValue_foot ..) (by decide)) _ ?_
  exact Foot.refl

theorem applyBlocks_foot (n ts : Nat) (bs : List Block) (s : State) (k : List RecItem) (fs : List (Nat × RecItem)) :
    Foot [.regs, .brg, .tel] s (bs.foldl (applyBlock n ts) { st := s, kept := k, fires := fs }).st :=
  foldl_keeps (fun c : FrameAcc => Foot [.regs, .brg, .tel] s c.st) (fun _ _ h => h.trans (applyBlock_foot ..)) bs Foot.refl

theorem State.frame_foot (s : State) (n : Nat) (f : List Byte) : Foot [.regs, .brg, .tel] s (State.frame s n f).1 := by
  unfold State.frame
  repeat' (first
    | with_reducible exact Foot.refl
    | (with_reducible apply partsIn_dec; decide)
    | with_reducible apply Foot.next ?_ (State.bump_foot ..) ?_
    | with_reducible apply Foot.next ?_ (State.recPush_foot ..) ?_
    | with_reducible apply Foot.next ?_ (State.set_foot ..) ?_
    | with_reducible apply Foot.next ?_ (applyBlocks_foot ..) ?_
    | with_reducible apply Foot.next ?_ (State.fseqCheck_foot ..) ?_
    | with_reducible apply Foot.ite ?_ ?_
    | split
    | dsimp only)

theorem State.frames_foot (s : State) (n : Nat) (p : List Byte) : Foot [.regs, .clk, .brg, .tel, .fw, .mem] s (State.frames s n p) := by
  unfold State.frames
  exact Foot.next (Foot.next (Foot.next Foot.refl (State.frame_foot ..) (by decide)) (State.frame_foot ..) (by decide))
    (State.fireAll_foot ..) (by decide)

theorem State.codeword_foot (s : State) (n raw : Nat) (bad : List (Fin 65536)) : Foot [.regs, .clk, .brg, .tel, .fw, .mem] s (State.codeword s n raw bad) := by
  unfold State.codeword
  try dsimp only
  repeat' (first
    | with_reducible exact Foot.refl
    | with_reducible assumption
    | (with_reducible apply partsIn_dec; decide)
    | with_reducible apply Foot.next ?_ (State.frames_foot ..) ?_
    | with_reducible apply Foot.next ?_ (State.mapEccAll_foot ..) ?_
    | with_reducible apply Foot.next ?_ (State.modLink_foot ..) ?_
    | with_reducible apply Foot.next ?_ (State.bump_foot ..) ?_
    | with_reducible apply Foot.ite ?_ ?_
    | split
    )

theorem execCodewordRx_foot {n : Fin 8} {raw : BitVec 4360} {badDesc : List (Fin 65536)} {s : State} {t : State} (h : execCodewordRx n raw badDesc s = .next t) : Foot [.regs, .clk, .brg, .tel, .fw, .mem] s t := by
  unfold execCodewordRx at h
  try dsimp only at h
  with_reducible refine Foot.ofNext h ?_
  repeat' (first
    | with_reducible exact Foot.refl
    | with_reducible assumption
    | (with_reducible apply partsIn_dec; decide)
    | with_reducible apply Foot.next ?_ (State.codeword_foot ..) ?_
    )

theorem State.linkDetect_foot (s : State) (n : Nat) : Foot [.regs, .brg, .tw, .tel] s (State.linkDetect s n) := by
  unfold State.linkDetect
  try dsimp only
  repeat' (first
    | with_reducible exact Foot.refl
    | with_reducible assumption
    | (with_reducible apply partsIn_dec; decide)
    | with_reducible apply Foot.next ?_ (State.bcSend_foot ..) ?_
    | with_reducible apply Foot.next ?_ (State.modLink_foot ..) ?_
    | with_reducible apply Foot.next ?_ (State.setAll_foot ..) ?_
    )

theorem execLinkTrainStart_foot {n : Fin 8} {s : State} {t : State} (h : execLinkTrainStart n s = .next t) : Foot [.regs, .brg, .tw, .tel] s t := by
  unfold execLinkTrainStart at h
  try dsimp only at h
  with_reducible refine Foot.ofNext h ?_
  repeat' (first
    | with_reducible exact Foot.refl
    | with_reducible assumption
    | (with_reducible apply partsIn_dec; decide)
    | with_reducible apply Foot.next ?_ (State.linkDetect_foot ..) ?_
    | with_reducible apply Foot.ite ?_ ?_
    )

theorem execLinkRetry_foot {n : Fin 8} {s : State} {t : State} (h : execLinkRetry n s = .next t) : Foot [.regs, .brg, .tw, .tel] s t := by
  unfold execLinkRetry at h
  try dsimp only at h
  with_reducible refine Foot.ofNext h ?_
  repeat' (first
    | with_reducible exact Foot.refl
    | with_reducible assumption
    | (with_reducible apply partsIn_dec; decide)
    | with_reducible apply Foot.next ?_ (State.linkDetect_foot ..) ?_
    | with_reducible apply Foot.next ?_ (State.modLink_foot ..) ?_
    | with_reducible apply Foot.ite ?_ ?_
    )

theorem execLinkDetectDone_foot {n : Fin 8} {s : State} {t : State} (h : execLinkDetectDone n s = .next t) : Foot [.regs] s t := by
  unfold execLinkDetectDone at h
  try dsimp only at h
  with_reducible refine Foot.ofNext h ?_
  repeat' (first
    | with_reducible exact Foot.refl
    | with_reducible assumption
    | (with_reducible apply partsIn_dec; decide)
    | with_reducible apply Foot.next ?_ (State.set_foot ..) ?_
    | with_reducible apply Foot.ite ?_ ?_
    )

theorem execLinkAdaptDone_foot {n : Fin 8} {s : State} {t : State} (h : execLinkAdaptDone n s = .next t) : Foot [.regs, .brg, .tw, .tel, .fresh] s t := by
  unfold execLinkAdaptDone at h
  try dsimp only at h
  with_reducible refine Foot.ofNext h ?_
  repeat' (first
    | with_reducible exact Foot.refl
    | with_reducible assumption
    | (with_reducible apply partsIn_dec; decide)
    | with_reducible apply Foot.next ?_ (State.txeqNext_foot ..) ?_
    | with_reducible apply Foot.next ?_ (State.modLink_foot ..) ?_
    | with_reducible apply Foot.next ?_ (State.set_foot ..) ?_
    | with_reducible apply Foot.ite ?_ ?_
    )

theorem execLinkTxeqDone_foot {n : Fin 8} {s : State} {t : State} (h : execLinkTxeqDone n s = .next t) : Foot [.regs, .brg, .tw, .tel] s t := by
  unfold execLinkTxeqDone at h
  try dsimp only at h
  with_reducible refine Foot.ofNext h ?_
  repeat' (first
    | with_reducible exact Foot.refl
    | with_reducible assumption
    | (with_reducible apply partsIn_dec; decide)
    | with_reducible apply Foot.next ?_ (State.bcSend_foot ..) ?_
    | with_reducible apply Foot.next ?_ (State.modLink_foot ..) ?_
    | with_reducible apply Foot.next ?_ (State.set_foot ..) ?_
    | with_reducible apply Foot.ite ?_ ?_
    )

theorem State.lineUnknown_foot (s : State) (n : Nat) : Foot [.tel, .fresh] s (State.lineUnknown s n) := by
  unfold State.lineUnknown
  try dsimp only
  repeat' (first
    | with_reducible exact Foot.refl
    | with_reducible assumption
    | (with_reducible apply partsIn_dec; decide)
    | with_reducible apply Foot.next ?_ (State.modLink_foot ..) ?_
    | with_reducible apply Foot.next ?_ (State.draw_foot ..) ?_
    )

theorem execLinkAlignDone_foot {n : Fin 8} {s : State} {t : State} (h : execLinkAlignDone n s = .next t) : Foot [.regs, .tel, .fresh] s t := by
  unfold execLinkAlignDone at h
  try dsimp only at h
  with_reducible refine Foot.ofNext h ?_
  repeat' (first
    | with_reducible exact Foot.refl
    | with_reducible assumption
    | (with_reducible apply partsIn_dec; decide)
    | with_reducible apply Foot.next ?_ (State.lineUnknown_foot ..) ?_
    | with_reducible apply Foot.next ?_ (State.modLink_foot ..) ?_
    | with_reducible apply Foot.next ?_ (State.setAll_foot ..) ?_
    | with_reducible apply Foot.ite ?_ ?_
    )

theorem State.linkUp_foot (s : State) (n : Nat) : Foot [.regs, .tel] s (State.linkUp s n) := by
  unfold State.linkUp
  try dsimp only
  repeat' (first
    | with_reducible exact Foot.refl
    | with_reducible assumption
    | (with_reducible apply partsIn_dec; decide)
    | with_reducible apply Foot.next ?_ (State.modLink_foot ..) ?_
    | with_reducible apply Foot.next ?_ (State.modTel_foot ..) ?_
    | with_reducible apply Foot.next ?_ (State.setAll_foot ..) ?_
    | with_reducible apply Foot.ite ?_ ?_
    )

theorem execLinkQualifyDone_foot {n : Fin 8} {s : State} {t : State} (h : execLinkQualifyDone n s = .next t) : Foot [.regs, .brg, .tw, .tel] s t := by
  unfold execLinkQualifyDone at h
  try dsimp only at h
  with_reducible refine Foot.ofNext h ?_
  repeat' (first
    | with_reducible exact Foot.refl
    | with_reducible assumption
    | (with_reducible apply partsIn_dec; decide)
    | with_reducible apply Foot.next ?_ (State.linkUp_foot ..) ?_
    | with_reducible apply Foot.next ?_ (State.linkSleep_foot ..) ?_
    | with_reducible apply Foot.ite ?_ ?_
    )

theorem execLinkTrainFail_foot {n : Fin 8} {s : State} {t : State} (h : execLinkTrainFail n s = .next t) : Foot [.regs, .brg, .tel] s t := by
  unfold execLinkTrainFail at h
  try dsimp only at h
  with_reducible refine Foot.ofNext h ?_
  repeat' (first
    | with_reducible exact Foot.refl
    | with_reducible assumption
    | (with_reducible apply partsIn_dec; decide)
    | with_reducible apply Foot.next ?_ (State.trainFail_foot ..) ?_
    )

theorem State.linkLos_foot (s : State) (n : Nat) : Foot [.regs, .brg, .tw, .tel] s (State.linkLos s n) := by
  unfold State.linkLos
  try dsimp only
  repeat' (first
    | with_reducible exact Foot.refl
    | with_reducible assumption
    | (with_reducible apply partsIn_dec; decide)
    | with_reducible apply Foot.next ?_ (State.linkDetect_foot ..) ?_
    | with_reducible apply Foot.next ?_ (State.logTop_foot ..) ?_
    | with_reducible apply Foot.next ?_ (State.modLink_foot ..) ?_
    | with_reducible apply Foot.next ?_ (State.bump_foot ..) ?_
    | with_reducible apply Foot.next ?_ (State.setAll_foot ..) ?_
    | with_reducible apply Foot.ite ?_ ?_
    )

theorem execLinkLos_foot {n : Fin 8} {s : State} {t : State} (h : execLinkLos n s = .next t) : Foot [.regs, .brg, .tw, .tel] s t := by
  unfold execLinkLos at h
  try dsimp only at h
  with_reducible refine Foot.ofNext h ?_
  repeat' (first
    | with_reducible exact Foot.refl
    | with_reducible assumption
    | (with_reducible apply partsIn_dec; decide)
    | with_reducible apply Foot.next ?_ (State.linkLos_foot ..) ?_
    )

theorem execBcRetry_foot {n : Fin 8} {s : State} {t : State} (h : execBcRetry n s = .next t) : Foot [.regs, .brg, .tw, .tel] s t := by
  unfold execBcRetry at h
  try dsimp only at h
  with_reducible refine Foot.ofNext h ?_
  repeat' (first
    | with_reducible exact Foot.refl
    | with_reducible assumption
    | (with_reducible apply partsIn_dec; decide)
    | with_reducible apply Foot.next ?_ (State.bcQueue_foot ..) ?_
    | with_reducible apply Foot.next ?_ (State.modLink_foot ..) ?_
    | with_reducible apply Foot.ite ?_ ?_
    | split
    )

theorem execLowpwrExitLock_foot {n : Fin 8} {s : State} {t : State} (h : execLowpwrExitLock n s = .next t) : Foot [.regs, .brg, .tw, .tel, .fresh] s t := by
  unfold execLowpwrExitLock at h
  try dsimp only at h
  with_reducible refine Foot.ofNext h ?_
  repeat' (first
    | with_reducible exact Foot.refl
    | with_reducible assumption
    | (with_reducible apply partsIn_dec; decide)
    | with_reducible apply Foot.next ?_ (State.linkUp_foot ..) ?_
    | with_reducible apply Foot.next ?_ (State.lineUnknown_foot ..) ?_
    | with_reducible apply Foot.next ?_ (State.bcSend_foot ..) ?_
    | with_reducible apply Foot.ite ?_ ?_
    )

theorem execLowpwrRelockTimeout_foot {n : Fin 8} {s : State} {t : State} (h : execLowpwrRelockTimeout n s = .next t) : Foot [.regs, .brg, .tw, .tel] s t := by
  unfold execLowpwrRelockTimeout at h
  try dsimp only at h
  with_reducible refine Foot.ofNext h ?_
  repeat' (first
    | with_reducible exact Foot.refl
    | with_reducible assumption
    | (with_reducible apply partsIn_dec; decide)
    | with_reducible apply Foot.next ?_ (State.linkDetect_foot ..) ?_
    | with_reducible apply Foot.ite ?_ ?_
    )

theorem State.tlRetrain_foot (s : State) (n : Nat) : Foot [.regs, .brg, .tw, .tel] s (State.tlRetrain s n) := by
  unfold State.tlRetrain
  try dsimp only
  repeat' (first
    | with_reducible exact Foot.refl
    | with_reducible assumption
    | (with_reducible apply partsIn_dec; decide)
    | with_reducible apply Foot.next ?_ (State.linkDetect_foot ..) ?_
    | with_reducible apply Foot.ite ?_ ?_
    )

theorem execTlRetrain_foot {ini : Initiator} {n : Fin 8} {s : State} {t : State} (h : execTlRetrain ini n s = .next t) : Foot [.regs, .sil, .brg, .tw, .tel, .bus] s t := by
  unfold execTlRetrain at h
  try dsimp only at h
  with_reducible refine Foot.ofNext h ?_
  repeat' (first
    | with_reducible exact Foot.refl
    | with_reducible assumption
    | (with_reducible apply partsIn_dec; decide)
    | with_reducible apply Foot.next ?_ (State.tlRetrain_foot ..) ?_
    | with_reducible apply Foot.trans ?_ (State.command_foot _ _ _ _ ?_ ?_)
    )

theorem State.tlDisable_foot (s : State) (n : Nat) : Foot [.regs, .tel] s (State.tlDisable s n) := by
  unfold State.tlDisable
  try dsimp only
  repeat' (first
    | with_reducible exact Foot.refl
    | with_reducible assumption
    | (with_reducible apply partsIn_dec; decide)
    | with_reducible apply Foot.next ?_ (State.modLink_foot ..) ?_
    | with_reducible apply Foot.next ?_ (State.setAll_foot ..) ?_
    | with_reducible apply Foot.ite ?_ ?_
    )

theorem State.tlCntClr_foot (s : State) (n : Nat) : Foot [.regs] s (State.tlCntClr s n) := by
  unfold State.tlCntClr
  try dsimp only
  repeat' (first
    | with_reducible exact Foot.refl
    | with_reducible assumption
    | (with_reducible apply partsIn_dec; decide)
    | with_reducible apply Foot.next ?_ (State.setAll_foot ..) ?_
    )

theorem execTlCntClr_foot {ini : Initiator} {n : Fin 8} {s : State} {t : State} (h : execTlCntClr ini n s = .next t) : Foot [.regs, .sil, .bus] s t := by
  unfold execTlCntClr at h
  try dsimp only at h
  with_reducible refine Foot.ofNext h ?_
  repeat' (first
    | with_reducible exact Foot.refl
    | with_reducible assumption
    | (with_reducible apply partsIn_dec; decide)
    | with_reducible apply Foot.next ?_ (State.tlCntClr_foot ..) ?_
    | with_reducible apply Foot.trans ?_ (State.command_foot _ _ _ _ ?_ ?_)
    )

theorem execMapDone_foot {ini : Initiator} {s : State} {t : State} (h : execMapDone ini s = .next t) : Foot [.regs, .sil, .bus] s t := by
  unfold execMapDone at h
  try dsimp only at h
  with_reducible refine Foot.ofNext h ?_
  repeat' (first
    | with_reducible exact Foot.refl
    | with_reducible assumption
    | (with_reducible apply partsIn_dec; decide)
    | with_reducible apply Foot.trans ?_ (State.command_foot _ _ _ _ ?_ ?_)
    | with_reducible apply Foot.next ?_ (State.set_foot ..) ?_
    | with_reducible apply Foot.ite ?_ ?_
    )

theorem State.linksQuiet_foot (s : State) : Foot [.regs, .brg, .tw, .tel] s (State.linksQuiet s) := by
  unfold State.linksQuiet
  try dsimp only
  repeat' (first
    | with_reducible exact Foot.refl
    | with_reducible assumption
    | (with_reducible apply partsIn_dec; decide)
    | with_reducible apply Foot.next ?_ (State.bcSend_foot ..) ?_
    | with_reducible apply Foot.foldl (fun _ _ _ => ?_) ?_
    | with_reducible apply Foot.ite ?_ ?_
    )

end Sys2Proof.Machine
end

