-- ==== Sys2Proof/Laws/FootAccord.lean ====
section
/-! SUPPORT. Footprints of the functions of Machine/Accord.lean. -/

namespace Sys2Proof.Machine

theorem State.fpStatement_foot (s : State) (nonce : List Byte) : Foot [.fresh] s ((State.fpStatement s nonce).2) := by
  unfold State.fpStatement
  try dsimp only
  repeat' (first
    | with_reducible exact Foot.refl
    | with_reducible assumption
    | (with_reducible apply partsIn_dec; decide)
    | with_reducible apply Foot.next ?_ (State.draw_foot ..) ?_
    | with_reducible apply Foot.iteSnd
    | dsimp only
    )

theorem State.fpStatement_foot' {s : State} {nonce : List Byte} {a} {t : State} (h : State.fpStatement s nonce = (a, t)) : Foot [.fresh] s t := by
  have := State.fpStatement_foot s nonce
  rwa [h] at this

theorem State.modAcd_foot (s : State) (f : AcdSt → AcdSt) : Foot [.acd] s (State.modAcd s f) := by
  unfold State.modAcd
  try dsimp only
  repeat' (first
    | with_reducible exact Foot.refl
    | with_reducible assumption
    | (with_reducible apply partsIn_dec; decide)
    | with_reducible apply Foot.next ?_ Foot.acd_upd ?_
    )

theorem State.fpCompute_foot (s : State) : Foot [.acd] s (State.fpCompute s) := by
  unfold State.fpCompute
  try dsimp only
  repeat' (first
    | with_reducible exact Foot.refl
    | with_reducible assumption
    | (with_reducible apply partsIn_dec; decide)
    | with_reducible apply Foot.next ?_ (State.modAcd_foot ..) ?_
    )

theorem State.fpChange_foot (s : State) (input slot : Nat) : Foot [.regs, .sil, .acd] s (State.fpChange s input slot) := by
  unfold State.fpChange
  try dsimp only
  repeat' (first
    | with_reducible exact Foot.refl
    | with_reducible assumption
    | (with_reducible apply partsIn_dec; decide)
    | with_reducible apply Foot.next ?_ (State.fpCompute_foot ..) ?_
    | with_reducible apply Foot.next ?_ (State.set_foot ..) ?_
    | with_reducible apply Foot.next ?_ (State.log_foot ..) ?_
    | with_reducible apply Foot.ite ?_ ?_
    )

theorem State.commitRegs_foot (s : State) (key : Nat) (fs : List (Fld × Nat)) (more : List NvmData) : Foot [.regs, .nvm] s (State.commitRegs s key fs more) := by
  unfold State.commitRegs
  try dsimp only
  repeat' (first
    | with_reducible exact Foot.refl
    | with_reducible assumption
    | (with_reducible apply partsIn_dec; decide)
    | with_reducible apply Foot.next ?_ (State.nvmCommit_foot ..) ?_
    | with_reducible apply Foot.next ?_ (State.setAll_foot ..) ?_
    )

theorem State.pickFail_foot (s : State) (l : List Fail) : Foot [.fresh] s ((State.pickFail s l).2) := by
  unfold State.pickFail
  try dsimp only
  repeat' (first
    | with_reducible exact Foot.refl
    | with_reducible assumption
    | (with_reducible apply partsIn_dec; decide)
    | with_reducible apply Foot.next ?_ (State.draw_foot ..) ?_
    | split
    | with_reducible apply Foot.iteSnd
    | dsimp only
    )

theorem State.pickFail_foot' {s : State} {l : List Fail} {a} {t : State} (h : State.pickFail s l = (a, t)) : Foot [.fresh] s t := by
  have := State.pickFail_foot s l
  rwa [h] at this

theorem State.acdJudge_foot (s : State) (img : List Byte) (mismatch : Bool) : Foot [.fresh] s ((State.acdJudge s img mismatch).2) := by
  unfold State.acdJudge
  try dsimp only
  repeat' (first
    | with_reducible exact Foot.refl
    | with_reducible assumption
    | (with_reducible apply partsIn_dec; decide)
    | with_reducible apply Foot.next ?_ (State.pickFail_foot ..) ?_
    | with_reducible apply Foot.ite ?_ ?_
    | split
    | with_reducible apply Foot.iteSnd
    | dsimp only
    | with_reducible refine Foot.next ?_ (State.pickFail_foot' (by assumption)) (by decide)
    )

theorem State.acdJudge_foot' {s : State} {img : List Byte} {mismatch : Bool} {a} {t : State} (h : State.acdJudge s img mismatch = (a, t)) : Foot [.fresh] s t := by
  have := State.acdJudge_foot s img mismatch
  rwa [h] at this

theorem State.setDg_foot (s : State) (reg : Nat → Fld) (dg : List Byte) : Foot [.regs] s (State.setDg s reg dg) := by
  unfold State.setDg
  try dsimp only
  repeat' (first
    | with_reducible exact Foot.refl
    | with_reducible assumption
    | (with_reducible apply partsIn_dec; decide)
    | with_reducible apply Foot.next ?_ (State.set_foot ..) ?_
    | with_reducible apply Foot.foldl (fun _ _ _ => ?_) ?_
    )

theorem State.acdRunning_foot (s : State) (slot : Nat) (img : List Byte) (rs : List ARec) : Foot [.regs, .acd] s (State.acdRunning s slot img rs) := by
  unfold State.acdRunning
  try dsimp only
  repeat' (first
    | with_reducible exact Foot.refl
    | with_reducible assumption
    | (with_reducible apply partsIn_dec; decide)
    | with_reducible apply Foot.next ?_ (State.setDg_foot ..) ?_
    | with_reducible apply Foot.next ?_ (State.modAcd_foot ..) ?_
    | with_reducible apply Foot.next ?_ (State.setAll_foot ..) ?_
    )

theorem State.applyTables_foot (s : State) (rs : List ARec) : Foot [.sil, .cool, .acd] s (State.applyTables s rs) := by
  unfold State.applyTables
  try dsimp only
  repeat' (first
    | with_reducible exact Foot.refl
    | with_reducible assumption
    | (with_reducible apply partsIn_dec; decide)
    | with_reducible apply Foot.next ?_ (State.modAcd_foot ..) ?_
    | with_reducible apply Foot.next ?_ Foot.sil_cool_upd ?_
    | with_reducible apply Foot.next ?_ Foot.cool_upd ?_
    | with_reducible apply Foot.next ?_ Foot.sil_upd ?_
    )

theorem State.writeHook_foot (s : State) (e : Nat × Nat × Nat) : Foot [.regs, .time, .clk, .sil, .brg, .tw, .seq, .tamp, .tel, .ses, .mem] s (State.writeHook s e) := by
  unfold State.writeHook
  try dsimp only
  repeat' (first
    | with_reducible exact Foot.refl
    | with_reducible assumption
    | (with_reducible apply partsIn_dec; decide)
    | with_reducible apply Foot.next ?_ (State.valveCommand_foot ..) ?_
    | with_reducible apply Foot.next ?_ (State.testEnter_foot ..) ?_
    | with_reducible apply Foot.next ?_ (State.refFollow_foot ..) ?_
    | with_reducible apply Foot.next ?_ (State.recRun_foot ..) ?_
    | with_reducible apply Foot.next ?_ (State.gateWrite_foot ..) ?_
    | with_reducible apply Foot.next ?_ (State.clkForce_foot ..) ?_
    | with_reducible apply Foot.next ?_ (State.testEnd_foot ..) ?_
    | with_reducible apply Foot.next ?_ (State.silMode_foot ..) ?_
    | with_reducible apply Foot.ite ?_ ?_
    | with_reducible apply Foot.next ?_ Foot.sil_upd ?_
    )

theorem State.applyWrites_foot (s : State) (es : List (Nat × Nat × Nat)) : Foot [.regs, .time, .clk, .sil, .brg, .tw, .seq, .tamp, .tel, .ses, .mem] s (State.applyWrites s es) := by
  unfold State.applyWrites
  try dsimp only
  repeat' (first
    | with_reducible exact Foot.refl
    | with_reducible assumption
    | (with_reducible apply partsIn_dec; decide)
    | with_reducible apply Foot.next ?_ (State.writeHook_foot ..) ?_
    | with_reducible apply Foot.foldl (fun _ _ _ => ?_) ?_
    | with_reducible apply Foot.next ?_ (Foot.setRegs (ascending_pokeWord _ _ _ _)) ?_
    )

theorem State.applyRecords_foot (s : State) (rs : List ARec) : Foot [.regs, .time, .clk, .sil, .brg, .tw, .seq, .tamp, .cool, .tel, .acd, .ses, .mem] s (State.applyRecords s rs) := by
  unfold State.applyRecords
  try dsimp only
  repeat' (first
    | with_reducible exact Foot.refl
    | with_reducible assumption
    | (with_reducible apply partsIn_dec; decide)
    | with_reducible apply Foot.next ?_ (State.twApply_foot ..) ?_
    | with_reducible apply Foot.next ?_ (State.coolConfig_foot ..) ?_
    | with_reducible apply Foot.next ?_ (State.applyWrites_foot ..) ?_
    | with_reducible apply Foot.next ?_ (State.applyTables_foot ..) ?_
    | with_reducible apply Foot.next ?_ (State.modSeq_foot ..) ?_
    | with_reducible apply Foot.next ?_ (State.modAcd_foot ..) ?_
    | with_reducible apply Foot.next ?_ (State.setAll_foot ..) ?_
    | with_reducible apply Foot.next ?_ (State.log_foot ..) ?_
    | with_reducible apply Foot.foldl (fun _ _ _ => ?_) ?_
    | with_reducible apply Foot.next ?_ (Foot.setRegs (ascending_unitRegs _)) ?_
    )

theorem State.raiseFloor_foot (s : State) (type arb : Nat) : Foot [.regs, .nvm] s (State.raiseFloor s type arb) := by
  unfold State.raiseFloor
  try dsimp only
  repeat' (first
    | with_reducible exact Foot.refl
    | with_reducible assumption
    | (with_reducible apply partsIn_dec; decide)
    | with_reducible apply Foot.next ?_ (State.commitRegs_foot ..) ?_
    | with_reducible apply Foot.ite ?_ ?_
    )

theorem State.acdLock_foot (s : State) (slot : Nat) (img : List Byte) : Foot [.regs, .time, .clk, .sil, .nvm, .brg, .tw, .seq, .tamp, .cool, .tel, .acd, .ses, .bus, .mem] s (State.acdLock s slot img) := by
  unfold State.acdLock
  try dsimp only
  repeat' (first
    | with_reducible exact Foot.refl
    | with_reducible assumption
    | (with_reducible apply partsIn_dec; decide)
    | with_reducible apply Foot.next ?_ (State.raiseFloor_foot ..) ?_
    | with_reducible apply Foot.next ?_ (State.bootOn_foot ..) ?_
    | with_reducible apply Foot.next ?_ (State.applyRecords_foot ..) ?_
    | with_reducible apply Foot.next ?_ (State.valves_foot ..) ?_
    | with_reducible apply Foot.next ?_ (State.acdRunning_foot ..) ?_
    | with_reducible apply Foot.next ?_ (State.setDg_foot ..) ?_
    | with_reducible apply Foot.next ?_ (State.commitRegs_foot ..) ?_
    | with_reducible apply Foot.next ?_ (State.fpCompute_foot ..) ?_
    | with_reducible apply Foot.next ?_ (State.modAcd_foot ..) ?_
    | with_reducible apply Foot.ite ?_ ?_
    )

theorem State.acdTry_foot (s : State) (slot : Nat) (mismatch : Bool) : Foot [.regs, .time, .clk, .sil, .nvm, .brg, .tw, .seq, .tamp, .cool, .tel, .acd, .ses, .bus, .mem, .fresh] s ((State.acdTry s slot mismatch).2) := by
  unfold State.acdTry
  try dsimp only
  repeat' (first
    | with_reducible exact Foot.refl
    | with_reducible assumption
    | (with_reducible apply partsIn_dec; decide)
    | with_reducible apply Foot.next ?_ (State.acdLock_foot ..) ?_
    | with_reducible apply Foot.next ?_ (State.acdJudge_foot ..) ?_
    | with_reducible apply Foot.next ?_ (State.setAll_foot ..) ?_
    | split
    | with_reducible apply Foot.iteSnd
    | dsimp only
    | with_reducible refine Foot.next ?_ (State.acdJudge_foot' (by assumption)) (by decide)
    )

theorem State.acdTry_foot' {s : State} {slot : Nat} {mismatch : Bool} {a} {t : State} (h : State.acdTry s slot mismatch = (a, t)) : Foot [.regs, .time, .clk, .sil, .nvm, .brg, .tw, .seq, .tamp, .cool, .tel, .acd, .ses, .bus, .mem, .fresh] s t := by
  have := State.acdTry_foot s slot mismatch
  rwa [h] at this

theorem State.acdLoad_foot (s : State) (mis : List Nat) : Foot [.regs, .time, .clk, .sil, .nvm, .brg, .tw, .seq, .tamp, .cool, .tel, .acd, .ses, .bus, .mem, .fresh] s (State.acdLoad s mis) := by
  unfold State.acdLoad
  try dsimp only
  repeat' (first
    | with_reducible exact Foot.refl
    | with_reducible assumption
    | (with_reducible apply partsIn_dec; decide)
    | with_reducible apply Foot.next ?_ (State.acdTry_foot ..) ?_
    | with_reducible apply Foot.next ?_ (State.setAll_foot ..) ?_
    | with_reducible apply Foot.next ?_ (State.set_foot ..) ?_
    | split
    | with_reducible refine Foot.next ?_ (State.acdTry_foot' (by assumption)) (by decide)
    )

theorem State.fpFree_foot (s : State) : Foot [.acd] s (State.fpFree s) := by
  unfold State.fpFree
  try dsimp only
  repeat' (first
    | with_reducible exact Foot.refl
    | with_reducible assumption
    | (with_reducible apply partsIn_dec; decide)
    | with_reducible apply Foot.next ?_ (State.modAcd_foot ..) ?_
    | with_reducible apply Foot.ite ?_ ?_
    )

theorem State.settingsChanged_foot (s : State) : Foot [.regs, .sil, .acd] s (State.settingsChanged s) := by
  unfold State.settingsChanged
  try dsimp only
  repeat' (first
    | with_reducible exact Foot.refl
    | with_reducible assumption
    | (with_reducible apply partsIn_dec; decide)
    | with_reducible apply Foot.next ?_ (State.setDg_foot ..) ?_
    | with_reducible apply Foot.next ?_ (State.fpChange_foot ..) ?_
    )

theorem State.acdPend_foot (s : State) (why : Nat) (img : List Byte) : Foot [.regs, .sil] s (State.acdPend s why img) := by
  unfold State.acdPend
  try dsimp only
  repeat' (first
    | with_reducible exact Foot.refl
    | with_reducible assumption
    | (with_reducible apply partsIn_dec; decide)
    | with_reducible apply Foot.next ?_ (State.set_foot ..) ?_
    | with_reducible apply Foot.next ?_ (State.log_foot ..) ?_
    )

theorem State.mapLoad_foot (s : State) : Foot [.mem] s (State.mapLoad s) := by
  unfold State.mapLoad
  try dsimp only
  repeat' (first
    | with_reducible exact Foot.refl
    | with_reducible assumption
    | (with_reducible apply partsIn_dec; decide)
    | with_reducible apply Foot.foldl (fun _ _ _ => ?_) ?_
    | with_reducible apply Foot.next ?_ Foot.memStore ?_
    | with_reducible apply Foot.next ?_ Foot.memForget ?_
    )

theorem State.topReload_foot (s : State) : Foot [.regs, .time, .clk, .sil, .brg, .tw, .seq, .tamp, .tel, .ses, .mem] s (State.topReload s) := by
  unfold State.topReload
  try dsimp only
  repeat' (first
    | with_reducible exact Foot.refl
    | with_reducible assumption
    | (with_reducible apply partsIn_dec; decide)
    | with_reducible apply Foot.next ?_ (State.mapLoad_foot ..) ?_
    | with_reducible apply Foot.next ?_ (State.applyWrites_foot ..) ?_
    | with_reducible apply Foot.next ?_ (State.portsSync_foot ..) ?_
    | with_reducible apply Foot.next ?_ (State.set_foot ..) ?_
    | with_reducible apply Foot.ite ?_ ?_
    )

theorem State.fpHold_foot (s : State) : Foot [.acd] s (State.fpHold s) := by
  unfold State.fpHold
  try dsimp only
  repeat' (first
    | with_reducible exact Foot.refl
    | with_reducible assumption
    | (with_reducible apply partsIn_dec; decide)
    | with_reducible apply Foot.next ?_ (State.modAcd_foot ..) ?_
    )

theorem ascending_live (rs : List ARec) (ts : List Nat) (p : Nat × Nat → Bool) {r : List (Nat × Nat)} (h : ascending r = true) :
    ascending (ts.foldl (fun r t => pokeRec rs t r) (r.filter p)) = true :=
  foldl_keeps (fun r => ascending r = true) (fun _ e hr => ascending_pokeRec rs e hr) ts (ascending_filter p h)

theorem State.acdLive_foot (s : State) (slot : Nat) (img : List Byte) : Foot [.regs, .sil, .nvm, .cool, .acd] s (State.acdLive s slot img) := by
  unfold State.acdLive
  try dsimp only
  repeat' (first
    | with_reducible exact Foot.refl
    | with_reducible assumption
    | (with_reducible apply partsIn_dec; decide)
    | with_reducible apply Foot.next ?_ (State.fpHold_foot ..) ?_
    | with_reducible apply Foot.next ?_ (State.coolConfig_foot ..) ?_
    | with_reducible apply Foot.next ?_ (State.applyTables_foot ..) ?_
    | with_reducible apply Foot.next ?_ (State.acdRunning_foot ..) ?_
    | with_reducible apply Foot.next ?_ (State.nvmCommit_foot ..) ?_
    | with_reducible apply Foot.next ?_ (State.fpChange_foot ..) ?_
    | with_reducible apply Foot.next ?_ (State.setAll_foot ..) ?_
    | with_reducible apply Foot.next ?_ (State.log_foot ..) ?_
    | with_reducible apply Foot.foldl (fun _ _ _ => ?_) ?_
    | with_reducible apply Foot.next ?_ (Foot.setRegs (ascending_live _ _ _)) ?_
    )

theorem State.fpSnap_foot (s : State) : Foot [.regs] s (State.fpSnap s) := by
  unfold State.fpSnap
  try dsimp only
  repeat' (first
    | with_reducible exact Foot.refl
    | with_reducible assumption
    | (with_reducible apply partsIn_dec; decide)
    | with_reducible apply Foot.next ?_ (State.setDg_foot ..) ?_
    | with_reducible apply Foot.next ?_ (State.set64_foot ..) ?_
    | with_reducible apply Foot.next ?_ (State.set_foot ..) ?_
    )

theorem execSnap_foot {ini : Initiator} {s : State} {t : State} (h : execSnap ini s = .next t) : Foot [.regs, .sil, .bus] s t := by
  unfold execSnap at h
  try dsimp only at h
  with_reducible refine Foot.ofNext h ?_
  repeat' (first
    | with_reducible exact Foot.refl
    | with_reducible assumption
    | (with_reducible apply partsIn_dec; decide)
    | with_reducible apply Foot.next ?_ (State.fpSnap_foot ..) ?_
    | with_reducible apply Foot.trans ?_ (State.command_foot _ _ _ _ ?_ ?_)
    )

end Sys2Proof.Machine
end

