-- ==== Sys2Proof/Laws/FootFields.lean ====
section
/-! SUPPORT. Footprints of the functions of Machine/Fields.lean. -/

namespace Sys2Proof.Machine

theorem State.lose_foot (s : State) (onBase : Bool) (cs : List Ret) : Foot [.regs] s (State.lose s onBase cs) :=
  Foot.setRegs (ascending_filter _)

end Sys2Proof.Machine
end

