-- ==== Sys2Proof/Laws/FootInfuser.lean ====
section
/-! SUPPORT. Footprints of the functions of Machine/Infuser.lean. -/

namespace Sys2Proof.Machine

theorem State.guardSend_foot (s : State) (m : GuardMsg) : Foot [.brg] s (State.guardSend s m) := by
  unfold State.guardSend
  try dsimp only
  repeat' (first
    | with_reducible exact Foot.refl
    | with_reducible assumption
    | (with_reducible apply partsIn_dec; decide)
    | with_reducible apply Foot.ite ?_ ?_
    | with_reducible apply Foot.next ?_ Foot.brg_upd ?_
    )

theorem State.modInf_foot (s : State) (f : InfSt → InfSt) : Foot [.inf] s (State.modInf s f) := by
  unfold State.modInf
  try dsimp only
  repeat' (first
    | with_reducible exact Foot.refl
    | with_reducible assumption
    | (with_reducible apply partsIn_dec; decide)
    | with_reducible apply Foot.next ?_ Foot.inf_upd ?_
    )

theorem State.modIslot_foot (s : State) (n : Nat) (f : InfSlot → InfSlot) : Foot [.inf] s (State.modIslot s n f) := by
  unfold State.modIslot
  try dsimp only
  repeat' (first
    | with_reducible exact Foot.refl
    | with_reducible assumption
    | (with_reducible apply partsIn_dec; decide)
    | with_reducible apply Foot.next ?_ (State.modInf_foot ..) ?_
    )

theorem State.adWatch_foot (s : State) (n : Nat) : Foot [.inf] s (State.adWatch s n) := by
  unfold State.adWatch
  try dsimp only
  repeat' (first
    | with_reducible exact Foot.refl
    | with_reducible assumption
    | (with_reducible apply partsIn_dec; decide)
    | with_reducible apply Foot.next ?_ (State.modIslot_foot ..) ?_
    | with_reducible apply Foot.ite ?_ ?_
    )

theorem State.viewUpdate_foot (s : State) (a lvl : Nat) : Foot [.regs, .inf] s (State.viewUpdate s a lvl) := by
  unfold State.viewUpdate
  try dsimp only
  repeat' (first
    | with_reducible exact Foot.refl
    | with_reducible assumption
    | (with_reducible apply partsIn_dec; decide)
    | with_reducible apply Foot.next ?_ (State.adWatch_foot ..) ?_
    | with_reducible apply Foot.next ?_ (State.set_foot ..) ?_
    | with_reducible apply Foot.foldl (fun _ _ _ => ?_) ?_
    )

theorem State.slotSync_foot (s : State) (n : Nat) : Foot [.regs] s (State.slotSync s n) := by
  unfold State.slotSync
  try dsimp only
  repeat' (first
    | with_reducible exact Foot.refl
    | with_reducible assumption
    | (with_reducible apply partsIn_dec; decide)
    | with_reducible apply Foot.next ?_ (State.setAll_foot ..) ?_
    )

theorem State.infHold_foot (s : State) (on : Bool) : Foot [.regs, .inf] s (State.infHold s on) := by
  unfold State.infHold
  try dsimp only
  repeat' (first
    | with_reducible exact Foot.refl
    | with_reducible assumption
    | (with_reducible apply partsIn_dec; decide)
    | with_reducible apply Foot.next ?_ (State.slotSync_foot ..) ?_
    | with_reducible apply Foot.next ?_ (State.setB_foot ..) ?_
    | with_reducible apply Foot.next ?_ (State.modIslot_foot ..) ?_
    | with_reducible apply Foot.next ?_ (State.modInf_foot ..) ?_
    | with_reducible apply Foot.foldl (fun _ _ _ => ?_) ?_
    | with_reducible apply Foot.ite ?_ ?_
    )

theorem State.wprotNote_foot (s : State) (ini : Initiator) (a : Nat) : Foot [.regs, .brg, .fw] s (State.wprotNote s ini a) := by
  unfold State.wprotNote
  try dsimp only
  repeat' (first
    | with_reducible exact Foot.refl
    | with_reducible assumption
    | (with_reducible apply partsIn_dec; decide)
    | with_reducible apply Foot.next ?_ (State.logTop_foot ..) ?_
    | with_reducible apply Foot.next ?_ (State.infErr_foot ..) ?_
    )

theorem State.nanDrop_foot (s : State) (n : Nat) : Foot [.regs] s (State.nanDrop s n) := by
  unfold State.nanDrop
  try dsimp only
  repeat' (first
    | with_reducible exact Foot.refl
    | with_reducible assumption
    | (with_reducible apply partsIn_dec; decide)
    | with_reducible apply Foot.next ?_ (State.bump_foot ..) ?_
    )

theorem State.outWrite_foot (s : State) (n p v : Nat) (tag : Bool) : Foot [.regs, .brg, .inf, .fw] s (State.outWrite s n p v tag) := by
  unfold State.outWrite
  try dsimp only
  repeat' (first
    | with_reducible exact Foot.refl
    | with_reducible assumption
    | (with_reducible apply partsIn_dec; decide)
    | with_reducible apply Foot.next ?_ (State.nanDrop_foot ..) ?_
    | with_reducible apply Foot.next ?_ (State.logTop_foot ..) ?_
    | with_reducible apply Foot.next ?_ (State.infErr_foot ..) ?_
    | with_reducible apply Foot.next ?_ (State.modIslot_foot ..) ?_
    | with_reducible apply Foot.next ?_ (State.modInf_foot ..) ?_
    | with_reducible apply Foot.next ?_ (State.bump_foot ..) ?_
    | with_reducible apply Foot.ite ?_ ?_
    | split
    )

theorem State.infEcc_foot (s : State) (e : Ecc) : Foot [.regs, .fw] s (State.infEcc s e) := by
  unfold State.infEcc
  try dsimp only
  repeat' (first
    | with_reducible exact Foot.refl
    | with_reducible assumption
    | (with_reducible apply partsIn_dec; decide)
    | with_reducible apply Foot.next ?_ (State.infErr_foot ..) ?_
    | with_reducible apply Foot.next ?_ (State.bump_foot ..) ?_
    | with_reducible apply Foot.ite ?_ ?_
    )

theorem State.slotRelease_foot (s : State) (n : Nat) : Foot [.brg] s (State.slotRelease s n) := by
  unfold State.slotRelease
  try dsimp only
  repeat' (first
    | with_reducible exact Foot.refl
    | with_reducible assumption
    | (with_reducible apply partsIn_dec; decide)
    | with_reducible apply Foot.next ?_ (State.guardSend_foot ..) ?_
    )

theorem State.slotBreak_foot (s : State) (n cause bundle cyc st : Nat) : Foot [.regs, .brg, .inf] s (State.slotBreak s n cause bundle cyc st) := by
  unfold State.slotBreak
  try dsimp only
  repeat' (first
    | with_reducible exact Foot.refl
    | with_reducible assumption
    | (with_reducible apply partsIn_dec; decide)
    | with_reducible apply Foot.next ?_ (State.slotRelease_foot ..) ?_
    | with_reducible apply Foot.next ?_ (State.logTop_foot ..) ?_
    | with_reducible apply Foot.next ?_ (State.slotSync_foot ..) ?_
    | with_reducible apply Foot.next ?_ (State.modIslot_foot ..) ?_
    | with_reducible apply Foot.next ?_ (State.setAll_foot ..) ?_
    )

theorem State.slotFaultAt_foot (s : State) (n cause bundle cyc : Nat) : Foot [.regs, .brg, .inf, .fw] s (State.slotFaultAt s n cause bundle cyc) := by
  unfold State.slotFaultAt
  try dsimp only
  repeat' (first
    | with_reducible exact Foot.refl
    | with_reducible assumption
    | (with_reducible apply partsIn_dec; decide)
    | with_reducible apply Foot.next ?_ (State.slotBreak_foot ..) ?_
    | with_reducible apply Foot.next ?_ (State.infErr_foot ..) ?_
    )

theorem State.storeWord_foot (s : State) (a v : Nat) : Foot [.mem] s (State.storeWord s a v) := by
  unfold State.storeWord
  try dsimp only
  repeat' (first
    | with_reducible exact Foot.refl
    | with_reducible assumption
    | (with_reducible apply partsIn_dec; decide)
    | with_reducible apply Foot.next ?_ Foot.memStore ?_
    | with_reducible apply Foot.next ?_ Foot.memForget ?_
    )

theorem State.adCommitOne_foot (s : State) (n k : Nat) : Foot [.mem, .fresh] s (State.adCommitOne s n k) := by
  unfold State.adCommitOne
  try dsimp only
  repeat' (first
    | with_reducible exact Foot.refl
    | with_reducible assumption
    | (with_reducible apply partsIn_dec; decide)
    | with_reducible apply Foot.next ?_ (State.storeWord_foot ..) ?_
    | with_reducible apply Foot.next ?_ (State.draw_foot ..) ?_
    | with_reducible apply Foot.ite ?_ ?_
    )

theorem State.adCommit_foot (s : State) (n : Nat) : Foot [.regs, .mem, .fresh] s (State.adCommit s n) := by
  unfold State.adCommit
  try dsimp only
  repeat' (first
    | with_reducible exact Foot.refl
    | with_reducible assumption
    | (with_reducible apply partsIn_dec; decide)
    | with_reducible apply Foot.next ?_ (State.adCommitOne_foot ..) ?_
    | with_reducible apply Foot.next ?_ (State.bump_foot ..) ?_
    | with_reducible apply Foot.next ?_ (State.set_foot ..) ?_
    | with_reducible apply Foot.foldl (fun _ _ _ => ?_) ?_
    | with_reducible apply Foot.ite ?_ ?_
    )

theorem State.slotClear_foot (s : State) (n : Nat) : Foot [.regs] s (State.slotClear s n) := by
  unfold State.slotClear
  try dsimp only
  repeat' (first
    | with_reducible exact Foot.refl
    | with_reducible assumption
    | (with_reducible apply partsIn_dec; decide)
    | with_reducible apply Foot.next ?_ (State.set_foot ..) ?_
    | with_reducible apply Foot.ite ?_ ?_
    )

theorem State.slotDisable_foot (s : State) (n : Nat) : Foot [.regs, .inf] s (State.slotDisable s n) := by
  unfold State.slotDisable
  try dsimp only
  repeat' (first
    | with_reducible exact Foot.refl
    | with_reducible assumption
    | (with_reducible apply partsIn_dec; decide)
    | with_reducible apply Foot.next ?_ (State.slotSync_foot ..) ?_
    | with_reducible apply Foot.next ?_ (State.modIslot_foot ..) ?_
    | with_reducible apply Foot.next ?_ (State.set_foot ..) ?_
    | with_reducible apply Foot.ite ?_ ?_
    )

theorem State.sigStore_foot (s : State) (w : Nat) (e : List Byte) : Foot [.mem] s (State.sigStore s w e) := by
  unfold State.sigStore
  try dsimp only
  repeat' (first
    | with_reducible exact Foot.refl
    | with_reducible assumption
    | (with_reducible apply partsIn_dec; decide)
    | with_reducible apply Foot.next ?_ Foot.memStore ?_
    | with_reducible apply Foot.next ?_ Foot.memForget ?_
    )

theorem State.sigInstall_getD (s : State) (e : List Byte) : Foot [.regs, .mem] s ((State.sigInstall s e).getD s) := by
  unfold State.sigInstall
  dsimp only
  repeat' (first
    | with_reducible exact Foot.refl
    | (with_reducible apply partsIn_dec; decide)
    | with_reducible apply Foot.next ?_ (State.sigStore_foot ..) ?_
    | with_reducible apply Foot.next ?_ (State.set_foot ..) ?_
    | with_reducible apply Foot.next ?_ (State.setB_foot ..) ?_
    | with_reducible apply Foot.next ?_ (State.bump_foot ..) ?_
    | with_reducible refine Foot.ite ?_ ?_
    | split
    | dsimp only [Option.getD_some, Option.getD_none])

theorem State.sigReinstall_foot (s : State) (n : Nat) (b : List Byte) : Foot [.regs, .mem] s (State.sigReinstall s n b) := by
  unfold State.sigReinstall
  try dsimp only
  repeat' (first
    | with_reducible exact Foot.refl
    | with_reducible assumption
    | (with_reducible apply partsIn_dec; decide)
    | with_reducible apply Foot.next ?_ (State.sigInstall_foot ..) ?_
    | with_reducible apply Foot.foldl (fun _ _ _ => ?_) ?_
    | with_reducible apply Foot.ite ?_ ?_
    | with_reducible apply Foot.next ?_ (State.sigInstall_getD ..) ?_
    | with_reducible refine Foot.next ?_ (State.sigInstall_foot' (by assumption)) (by decide)
    )

theorem State.sigImage_foot (s : State) (n : Nat) : Foot [.regs, .mem] s (State.sigImage s n) := by
  unfold State.sigImage
  try dsimp only
  repeat' (first
    | with_reducible exact Foot.refl
    | with_reducible assumption
    | (with_reducible apply partsIn_dec; decide)
    | with_reducible apply Foot.next ?_ (State.sigReinstall_foot ..) ?_
    | split
    )

theorem State.slotEnable_foot (s : State) (n : Nat) : Foot [.regs, .brg, .mem] s (State.slotEnable s n) := by
  unfold State.slotEnable
  try dsimp only
  repeat' (first
    | with_reducible exact Foot.refl
    | with_reducible assumption
    | (with_reducible apply partsIn_dec; decide)
    | with_reducible apply Foot.next ?_ (State.sigImage_foot ..) ?_
    | with_reducible apply Foot.next ?_ (State.logTop_foot ..) ?_
    | with_reducible apply Foot.next ?_ (State.setAll_foot ..) ?_
    | with_reducible apply Foot.ite ?_ ?_
    )

theorem State.windowZero_foot (s : State) (n : Nat) : Foot [.clk, .mem] s (State.windowZero s n) := by
  unfold State.windowZero
  try dsimp only
  repeat' (first
    | with_reducible exact Foot.refl
    | with_reducible assumption
    | (with_reducible apply partsIn_dec; decide)
    | with_reducible apply Foot.next ?_ (State.portStore_foot ..) ?_
    | with_reducible apply Foot.foldl (fun _ _ _ => ?_) ?_
    )

theorem State.stateInit_foot (s : State) (n : Nat) : Foot [.regs, .clk, .inf, .mem] s (State.stateInit s n) := by
  unfold State.stateInit
  try dsimp only
  repeat' (first
    | with_reducible exact Foot.refl
    | with_reducible assumption
    | (with_reducible apply partsIn_dec; decide)
    | with_reducible apply Foot.next ?_ (State.windowZero_foot ..) ?_
    | with_reducible apply Foot.next ?_ (State.modIslot_foot ..) ?_
    | with_reducible apply Foot.next ?_ (State.setAll_foot ..) ?_
    | with_reducible apply Foot.ite ?_ ?_
    )

theorem State.runDue_foot (s : State) (n : Nat) (byTick : Bool) : Foot [.regs, .inf] s (State.runDue s n byTick) := by
  unfold State.runDue
  try dsimp only
  repeat' (first
    | with_reducible exact Foot.refl
    | with_reducible assumption
    | (with_reducible apply partsIn_dec; decide)
    | with_reducible apply Foot.next ?_ (State.slotSync_foot ..) ?_
    | with_reducible apply Foot.next ?_ (State.modIslot_foot ..) ?_
    | split
    )

theorem State.slotTick_foot (s : State) (n : Nat) : Foot [.regs, .inf] s (State.slotTick s n) := by
  unfold State.slotTick
  try dsimp only
  repeat' (first
    | with_reducible exact Foot.refl
    | with_reducible assumption
    | (with_reducible apply partsIn_dec; decide)
    | with_reducible apply Foot.next ?_ (State.runDue_foot ..) ?_
    | with_reducible apply Foot.next ?_ (State.slotSync_foot ..) ?_
    | with_reducible apply Foot.next ?_ (State.modIslot_foot ..) ?_
    | with_reducible apply Foot.next ?_ (State.bump_foot ..) ?_
    | with_reducible apply Foot.ite ?_ ?_
    | split
    )

theorem execSlotTick_foot {n : Fin 16} {s : State} {t : State} (h : execSlotTick n s = .next t) : Foot [.regs, .inf] s t := by
  unfold execSlotTick at h
  try dsimp only at h
  with_reducible refine Foot.ofNext h ?_
  repeat' (first
    | with_reducible exact Foot.refl
    | with_reducible assumption
    | (with_reducible apply partsIn_dec; decide)
    | with_reducible apply Foot.next ?_ (State.slotTick_foot ..) ?_
    )

theorem State.adCopy_foot (s : State) (n i j : Nat) : Foot [.mem] s (State.adCopy s n i j) := by
  unfold State.adCopy
  try dsimp only
  repeat' (first
    | with_reducible exact Foot.refl
    | with_reducible assumption
    | (with_reducible apply partsIn_dec; decide)
    | with_reducible apply Foot.next ?_ (State.storeWord_foot ..) ?_
    | with_reducible apply Foot.foldl (fun _ _ _ => ?_) ?_
    )

theorem State.adConfirm_foot (s : State) (n : Nat) : Foot [.clk, .mem] s (State.adConfirm s n) := by
  unfold State.adConfirm
  try dsimp only
  repeat' (first
    | with_reducible exact Foot.refl
    | with_reducible assumption
    | (with_reducible apply partsIn_dec; decide)
    | with_reducible apply Foot.next ?_ (State.portStore_foot ..) ?_
    | with_reducible apply Foot.foldl (fun _ _ _ => ?_) ?_
    )

theorem State.adWindowEnd_foot (s : State) (n : Nat) : Foot [.regs, .clk, .mem] s (State.adWindowEnd s n) := by
  unfold State.adWindowEnd
  try dsimp only
  repeat' (first
    | with_reducible exact Foot.refl
    | with_reducible assumption
    | (with_reducible apply partsIn_dec; decide)
    | with_reducible apply Foot.next ?_ (State.adConfirm_foot ..) ?_
    | with_reducible apply Foot.next ?_ (State.bump_foot ..) ?_
    | with_reducible apply Foot.next ?_ (State.setAll_foot ..) ?_
    | with_reducible apply Foot.ite ?_ ?_
    )

theorem execAdaptWindowEnd_foot {n : Fin 16} {s : State} {t : State} (h : execAdaptWindowEnd n s = .next t) : Foot [.regs, .clk, .mem] s t := by
  unfold execAdaptWindowEnd at h
  try dsimp only at h
  with_reducible refine Foot.ofNext h ?_
  repeat' (first
    | with_reducible exact Foot.refl
    | with_reducible assumption
    | (with_reducible apply partsIn_dec; decide)
    | with_reducible apply Foot.next ?_ (State.adWindowEnd_foot ..) ?_
    )

theorem execAdaptHoldEnd_foot {n : Fin 16} {s : State} {t : State} (h : execAdaptHoldEnd n s = .next t) : Foot [.regs] s t := by
  unfold execAdaptHoldEnd at h
  try dsimp only at h
  with_reducible refine Foot.ofNext h ?_
  repeat' (first
    | with_reducible exact Foot.refl
    | with_reducible assumption
    | (with_reducible apply partsIn_dec; decide)
    | with_reducible apply Foot.next ?_ (State.set_foot ..) ?_
    | with_reducible apply Foot.ite ?_ ?_
    )

theorem State.adRollback_foot (s : State) (n : Nat) : Foot [.regs, .brg, .inf, .mem] s (State.adRollback s n) := by
  unfold State.adRollback
  try dsimp only
  repeat' (first
    | with_reducible exact Foot.refl
    | with_reducible assumption
    | (with_reducible apply partsIn_dec; decide)
    | with_reducible apply Foot.next ?_ (State.adCopy_foot ..) ?_
    | with_reducible apply Foot.next ?_ (State.logTop_foot ..) ?_
    | with_reducible apply Foot.next ?_ (State.modIslot_foot ..) ?_
    | with_reducible apply Foot.next ?_ (State.bump_foot ..) ?_
    | with_reducible apply Foot.next ?_ (State.set_foot ..) ?_
    | with_reducible apply Foot.ite ?_ ?_
    )

theorem State.adReset_foot (s : State) (n : Nat) : Foot [.regs] s (State.adReset s n) := by
  unfold State.adReset
  try dsimp only
  repeat' (first
    | with_reducible exact Foot.refl
    | with_reducible assumption
    | (with_reducible apply partsIn_dec; decide)
    | with_reducible apply Foot.next ?_ (State.setIf_foot ..) ?_
    | with_reducible apply Foot.next ?_ (State.set_foot ..) ?_
    )

theorem execAdaptRst_foot {ini : Initiator} {n : Fin 16} {s : State} {t : State} (h : execAdaptRst ini n s = .next t) : Foot [.regs, .sil, .bus] s t := by
  unfold execAdaptRst at h
  try dsimp only at h
  with_reducible refine Foot.ofNext h ?_
  repeat' (first
    | with_reducible exact Foot.refl
    | with_reducible assumption
    | (with_reducible apply partsIn_dec; decide)
    | with_reducible apply Foot.next ?_ (State.adReset_foot ..) ?_
    | with_reducible apply Foot.trans ?_ (State.command_foot _ _ _ _ ?_ ?_)
    )

theorem State.clFresh_foot (s : State) (mask : Nat) : Foot [.inf, .fresh] s (State.clFresh s mask) := by
  unfold State.clFresh
  try dsimp only
  repeat' (first
    | with_reducible exact Foot.refl
    | with_reducible assumption
    | (with_reducible apply partsIn_dec; decide)
    | with_reducible apply Foot.next ?_ (State.modInf_foot ..) ?_
    | with_reducible apply Foot.ite ?_ ?_
    | with_reducible apply Foot.next ?_ Foot.fresh_upd ?_
    )

theorem State.runStart_foot (s : State) (n : Nat) (e : Ecc) : Foot [.regs, .brg, .inf, .fw, .mem, .fresh] s (State.runStart s n e) := by
  unfold State.runStart
  try dsimp only
  repeat' (first
    | with_reducible exact Foot.refl
    | with_reducible assumption
    | (with_reducible apply partsIn_dec; decide)
    | with_reducible apply Foot.next ?_ (State.clFresh_foot ..) ?_
    | with_reducible apply Foot.next ?_ (State.adRollback_foot ..) ?_
    | with_reducible apply Foot.next ?_ (State.slotFaultAt_foot ..) ?_
    | with_reducible apply Foot.next ?_ (State.infEcc_foot ..) ?_
    | with_reducible apply Foot.next ?_ (State.slotSync_foot ..) ?_
    | with_reducible apply Foot.next ?_ (State.modIslot_foot ..) ?_
    | with_reducible apply Foot.next ?_ (State.bump_foot ..) ?_
    | with_reducible apply Foot.next ?_ (State.setAll_foot ..) ?_
    | with_reducible apply Foot.ite ?_ ?_
    | split
    )

theorem execRunStart_foot {n : Fin 16} {s : State} {ecc : Ecc} {t : State} (h : execRunStart n s ecc = .next t) : Foot [.regs, .brg, .inf, .fw, .mem, .fresh] s t := by
  unfold execRunStart at h
  try dsimp only at h
  with_reducible refine Foot.ofNext h ?_
  repeat' (first
    | with_reducible exact Foot.refl
    | with_reducible assumption
    | (with_reducible apply partsIn_dec; decide)
    | with_reducible apply Foot.next ?_ (State.runStart_foot ..) ?_
    )

theorem State.outDrain_foot (s : State) : Foot [.brg, .inf] s (State.outDrain s) := by
  unfold State.outDrain
  try dsimp only
  repeat' (first
    | with_reducible exact Foot.refl
    | with_reducible assumption
    | (with_reducible apply partsIn_dec; decide)
    | with_reducible apply Foot.next ?_ (State.modInf_foot ..) ?_
    | with_reducible apply Foot.next ?_ (State.guardSend_foot ..) ?_
    | with_reducible apply Foot.ite ?_ ?_
    )

theorem execOutputQueueDrain_foot {s : State} {t : State} (h : execOutputQueueDrain s = .next t) : Foot [.brg, .inf] s t := by
  unfold execOutputQueueDrain at h
  try dsimp only at h
  with_reducible refine Foot.ofNext h ?_
  repeat' (first
    | with_reducible exact Foot.refl
    | with_reducible assumption
    | (with_reducible apply partsIn_dec; decide)
    | with_reducible apply Foot.next ?_ (State.outDrain_foot ..) ?_
    )

theorem State.stopAll_foot (s : State) : Foot [.regs, .inf] s (State.stopAll s) := by
  unfold State.stopAll
  try dsimp only
  repeat' (first
    | with_reducible exact Foot.refl
    | with_reducible assumption
    | (with_reducible apply partsIn_dec; decide)
    | with_reducible apply Foot.next ?_ (State.slotDisable_foot ..) ?_
    | with_reducible apply Foot.foldl (fun _ _ _ => ?_) ?_
    )

theorem State.infCntClr_foot (s : State) : Foot [.regs] s (State.infCntClr s) := by
  unfold State.infCntClr
  try dsimp only
  repeat' (first
    | with_reducible exact Foot.refl
    | with_reducible assumption
    | (with_reducible apply partsIn_dec; decide)
    | with_reducible apply Foot.next ?_ (State.setAll_foot ..) ?_
    | with_reducible apply Foot.foldl (fun _ _ _ => ?_) ?_
    )

theorem execSlotEnable_foot {ini : Initiator} {n : Fin 16} {s : State} {t : State} (h : execSlotEnable ini n s = .next t) : Foot [.regs, .sil, .brg, .bus, .mem] s t := by
  unfold execSlotEnable at h
  try dsimp only at h
  with_reducible refine Foot.ofNext h ?_
  repeat' (first
    | with_reducible exact Foot.refl
    | with_reducible assumption
    | (with_reducible apply partsIn_dec; decide)
    | with_reducible apply Foot.next ?_ (State.slotEnable_foot ..) ?_
    | with_reducible apply Foot.trans ?_ (State.command_foot _ _ _ _ ?_ ?_)
    )

theorem execSlotDisable_foot {ini : Initiator} {n : Fin 16} {s : State} {t : State} (h : execSlotDisable ini n s = .next t) : Foot [.regs, .sil, .inf, .bus] s t := by
  unfold execSlotDisable at h
  try dsimp only at h
  with_reducible refine Foot.ofNext h ?_
  repeat' (first
    | with_reducible exact Foot.refl
    | with_reducible assumption
    | (with_reducible apply partsIn_dec; decide)
    | with_reducible apply Foot.next ?_ (State.slotDisable_foot ..) ?_
    | with_reducible apply Foot.trans ?_ (State.command_foot _ _ _ _ ?_ ?_)
    )

theorem execStateInit_foot {ini : Initiator} {n : Fin 16} {s : State} {t : State} (h : execStateInit ini n s = .next t) : Foot [.regs, .clk, .sil, .inf, .bus, .mem] s t := by
  unfold execStateInit at h
  try dsimp only at h
  with_reducible refine Foot.ofNext h ?_
  repeat' (first
    | with_reducible exact Foot.refl
    | with_reducible assumption
    | (with_reducible apply partsIn_dec; decide)
    | with_reducible apply Foot.next ?_ (State.stateInit_foot ..) ?_
    | with_reducible apply Foot.trans ?_ (State.command_foot _ _ _ _ ?_ ?_)
    )

theorem execClrFault_foot {ini : Initiator} {n : Fin 16} {s : State} {t : State} (h : execClrFault ini n s = .next t) : Foot [.regs, .sil, .bus] s t := by
  unfold execClrFault at h
  try dsimp only at h
  with_reducible refine Foot.ofNext h ?_
  repeat' (first
    | with_reducible exact Foot.refl
    | with_reducible assumption
    | (with_reducible apply partsIn_dec; decide)
    | with_reducible apply Foot.next ?_ (State.slotClear_foot ..) ?_
    | with_reducible apply Foot.trans ?_ (State.command_foot _ _ _ _ ?_ ?_)
    )

theorem execStopAll_foot {ini : Initiator} {s : State} {t : State} (h : execStopAll ini s = .next t) : Foot [.regs, .sil, .inf, .bus] s t := by
  unfold execStopAll at h
  try dsimp only at h
  with_reducible refine Foot.ofNext h ?_
  repeat' (first
    | with_reducible exact Foot.refl
    | with_reducible assumption
    | (with_reducible apply partsIn_dec; decide)
    | with_reducible apply Foot.next ?_ (State.stopAll_foot ..) ?_
    | with_reducible apply Foot.trans ?_ (State.command_foot _ _ _ _ ?_ ?_)
    )

theorem execInfCntClr_foot {ini : Initiator} {s : State} {t : State} (h : execInfCntClr ini s = .next t) : Foot [.regs, .sil, .bus] s t := by
  unfold execInfCntClr at h
  try dsimp only at h
  with_reducible refine Foot.ofNext h ?_
  repeat' (first
    | with_reducible exact Foot.refl
    | with_reducible assumption
    | (with_reducible apply partsIn_dec; decide)
    | with_reducible apply Foot.next ?_ (State.infCntClr_foot ..) ?_
    | with_reducible apply Foot.trans ?_ (State.command_foot _ _ _ _ ?_ ?_)
    )

theorem loadMem_wf (a n w nb : Nat) (x : List Byte) (y z : Nat → List Byte) {m : List Host.Cell} (h : Memory.wf m = true) :
    Memory.wf ((List.range nb).foldl (fun m k => memStore m (a + 0x2400 + k * 128) (z k))
      ((List.range w).foldl (fun m k => memStore m (a + 0x100 + k * 0x420) (y k)) (memStore (memForget m a (a + n)) a x))) = true :=
  foldl_keeps (fun m => Memory.wf m = true) (fun _ _ h => memory_wf_memStore _ _ _ h) _
    (foldl_keeps (fun m => Memory.wf m = true) (fun _ _ h => memory_wf_memStore _ _ _ h) _
      (memory_wf_memStore _ _ _ (memory_wf_memForget _ _ h)))

theorem State.loadBody_foot (s : State) (n : Nat) (b : List Byte) : Foot [.regs, .clk, .inf, .mem] s (State.loadBody s n b) := by
  unfold State.loadBody
  try dsimp only
  repeat' (first
    | with_reducible exact Foot.refl
    | with_reducible assumption
    | (with_reducible apply partsIn_dec; decide)
    | with_reducible apply Foot.next ?_ (State.slotSync_foot ..) ?_
    | with_reducible apply Foot.next ?_ (State.modIslot_foot ..) ?_
    | with_reducible apply Foot.next ?_ (State.portStore_foot ..) ?_
    | with_reducible apply Foot.next ?_ (State.setAll_foot ..) ?_
    | with_reducible apply Foot.foldl (fun _ _ _ => ?_) ?_
    | with_reducible apply Foot.ite ?_ ?_
    | with_reducible apply Foot.next ?_ (Foot.setMem (loadMem_wf _ _ _ _ _ _ _)) ?_
    | with_reducible apply Foot.next ?_ Foot.memStore ?_
    | with_reducible apply Foot.next ?_ Foot.memForget ?_
    )

theorem State.loadProgram_foot (s : State) (n : Nat) (b : List Byte) : Foot [.regs, .clk, .brg, .inf, .mem] s ((State.loadProgram s n b).2) := by
  unfold State.loadProgram
  try dsimp only
  repeat' (first
    | with_reducible exact Foot.refl
    | with_reducible assumption
    | (with_reducible apply partsIn_dec; decide)
    | with_reducible apply Foot.next ?_ (State.loadBody_foot ..) ?_
    | with_reducible apply Foot.next ?_ (State.logTop_foot ..) ?_
    | with_reducible apply Foot.ite ?_ ?_
    | with_reducible apply Foot.iteSnd
    | dsimp only
    )

theorem State.loadProgram_foot' {s : State} {n : Nat} {b : List Byte} {a} {t : State} (h : State.loadProgram s n b = (a, t)) : Foot [.regs, .clk, .brg, .inf, .mem] s t := by
  have := State.loadProgram_foot s n b
  rwa [h] at this

end Sys2Proof.Machine
end

