-- ==== Sys2Proof/Laws/FootTopDie.lean ====
section
/-! SUPPORT. Footprints of the functions of Machine/TopDie.lean. -/

namespace Sys2Proof.Machine

theorem State.modKey_foot (s : State) (f : KeySt → KeySt) : Foot [.key] s (State.modKey s f) := by
  unfold State.modKey
  try dsimp only
  repeat' (first
    | with_reducible exact Foot.refl
    | with_reducible assumption
    | (with_reducible apply partsIn_dec; decide)
    | with_reducible apply Foot.next ?_ Foot.key_upd ?_
    )

theorem State.presOpen_foot (s : State) (src : Nat) : Foot [.regs, .sil, .key] s (State.presOpen s src) := by
  unfold State.presOpen
  try dsimp only
  repeat' (first
    | with_reducible exact Foot.refl
    | with_reducible assumption
    | (with_reducible apply partsIn_dec; decide)
    | with_reducible apply Foot.next ?_ (State.setAll_foot ..) ?_
    | with_reducible apply Foot.next ?_ (State.modKey_foot ..) ?_
    | with_reducible apply Foot.next ?_ (State.log_foot ..) ?_
    )

theorem State.presClose_foot (s : State) (reason : Nat) : Foot [.regs, .sil] s (State.presClose s reason) := by
  unfold State.presClose
  try dsimp only
  repeat' (first
    | with_reducible exact Foot.refl
    | with_reducible assumption
    | (with_reducible apply partsIn_dec; decide)
    | with_reducible apply Foot.next ?_ (State.set_foot ..) ?_
    | with_reducible apply Foot.next ?_ (State.log_foot ..) ?_
    | with_reducible apply Foot.ite ?_ ?_
    )

theorem State.dbgLock_foot (s : State) (reason : Nat) : Foot [.regs, .sil] s (State.dbgLock s reason) := by
  unfold State.dbgLock
  try dsimp only
  repeat' (first
    | with_reducible exact Foot.refl
    | with_reducible assumption
    | (with_reducible apply partsIn_dec; decide)
    | with_reducible apply Foot.next ?_ (State.setAll_foot ..) ?_
    | with_reducible apply Foot.next ?_ (State.log_foot ..) ?_
    | with_reducible apply Foot.ite ?_ ?_
    )

theorem State.modPwr_foot (s : State) (f : PwrSt → PwrSt) : Foot [.pwr] s (State.modPwr s f) := by
  unfold State.modPwr
  try dsimp only
  repeat' (first
    | with_reducible exact Foot.refl
    | with_reducible assumption
    | (with_reducible apply partsIn_dec; decide)
    | with_reducible apply Foot.next ?_ Foot.pwr_upd ?_
    )

theorem State.modBrg_foot (s : State) (f : BrgSt → BrgSt) : Foot [.brg] s (State.modBrg s f) := by
  unfold State.modBrg
  try dsimp only
  repeat' (first
    | with_reducible exact Foot.refl
    | with_reducible assumption
    | (with_reducible apply partsIn_dec; decide)
    | with_reducible apply Foot.next ?_ Foot.brg_upd ?_
    )

theorem State.modNvm_foot (s : State) (f : NvmSt → NvmSt) : Foot [.nvm] s (State.modNvm s f) := by
  unfold State.modNvm
  try dsimp only
  repeat' (first
    | with_reducible exact Foot.refl
    | with_reducible assumption
    | (with_reducible apply partsIn_dec; decide)
    | with_reducible apply Foot.next ?_ Foot.nvm_upd ?_
    )

theorem State.modFw_foot (s : State) (f : FwSt → FwSt) : Foot [.fw] s (State.modFw s f) := by
  unfold State.modFw
  try dsimp only
  repeat' (first
    | with_reducible exact Foot.refl
    | with_reducible assumption
    | (with_reducible apply partsIn_dec; decide)
    | with_reducible apply Foot.next ?_ Foot.fw_upd ?_
    )

theorem State.setCore_foot (s : State) (c st : Nat) : Foot [.regs] s (State.setCore s c st) := by
  unfold State.setCore
  try dsimp only
  repeat' (first
    | with_reducible exact Foot.refl
    | with_reducible assumption
    | (with_reducible apply partsIn_dec; decide)
    | with_reducible apply Foot.next ?_ (State.set_foot ..) ?_
    )

theorem State.forget_foot (s : State) (r : Nat × Nat) : Foot [.mem] s (State.forget s r) := by
  unfold State.forget
  try dsimp only
  repeat' (first
    | with_reducible exact Foot.refl
    | with_reducible assumption
    | (with_reducible apply partsIn_dec; decide)
    | with_reducible apply Foot.next ?_ Foot.memStore ?_
    | with_reducible apply Foot.next ?_ Foot.memForget ?_
    )

theorem State.topDieLose_foot (s : State) (cls : List Ret) : Foot [.regs, .time, .clk, .sil, .pwr, .seq, .tel, .inf, .acd, .fw, .ses, .sec, .bus, .mem] s (State.topDieLose s cls) := by
  unfold State.topDieLose
  try dsimp only
  repeat' (first
    | with_reducible exact Foot.refl
    | with_reducible assumption
    | (with_reducible apply partsIn_dec; decide)
    | with_reducible apply Foot.next ?_ (State.recoveredLost_foot ..) ?_
    | with_reducible apply Foot.next ?_ (State.lose_foot ..) ?_
    | with_reducible apply Foot.next ?_ (State.forget_foot ..) ?_
    | with_reducible apply Foot.next ?_ (State.setAll_foot ..) ?_
    | with_reducible apply Foot.foldl (fun _ _ _ => ?_) ?_
    | with_reducible apply Foot.ite ?_ ?_
    | with_reducible apply Foot.next ?_ Foot.clk_sil_pwr_tel_inf_acd_fw_ses_sec_bus_upd ?_
    | with_reducible apply Foot.next ?_ Foot.acd_upd ?_
    | with_reducible apply Foot.next ?_ Foot.bus_upd ?_
    | with_reducible apply Foot.next ?_ Foot.clk_upd ?_
    | with_reducible apply Foot.next ?_ Foot.fw_upd ?_
    | with_reducible apply Foot.next ?_ Foot.inf_upd ?_
    | with_reducible apply Foot.next ?_ Foot.pwr_upd ?_
    | with_reducible apply Foot.next ?_ Foot.sec_upd ?_
    | with_reducible apply Foot.next ?_ Foot.ses_upd ?_
    | with_reducible apply Foot.next ?_ Foot.sil_upd ?_
    | with_reducible apply Foot.next ?_ Foot.tel_upd ?_
    )

theorem State.setBrg_foot (s : State) (st : Nat) : Foot [.regs, .fw] s (State.setBrg s st) := by
  unfold State.setBrg
  try dsimp only
  repeat' (first
    | with_reducible exact Foot.refl
    | with_reducible assumption
    | (with_reducible apply partsIn_dec; decide)
    | with_reducible apply Foot.next ?_ (State.kraise_foot ..) ?_
    | with_reducible apply Foot.next ?_ (State.setAll_foot ..) ?_
    | with_reducible apply Foot.ite ?_ ?_
    )

theorem State.brgDrop_foot (s : State) : Foot [.brg] s (State.brgDrop s) := by
  unfold State.brgDrop
  try dsimp only
  repeat' (first
    | with_reducible exact Foot.refl
    | with_reducible assumption
    | (with_reducible apply partsIn_dec; decide)
    | with_reducible apply Foot.next ?_ (State.modBrg_foot ..) ?_
    )

theorem State.holdBegin_foot (s : State) (h : HoldState) : Foot [.brg, .tamp] s (State.holdBegin s h) := by
  unfold State.holdBegin
  try dsimp only
  repeat' (first
    | with_reducible exact Foot.refl
    | with_reducible assumption
    | (with_reducible apply partsIn_dec; decide)
    | with_reducible apply Foot.next ?_ (State.modBrg_foot ..) ?_
    | with_reducible apply Foot.ite ?_ ?_
    | split
    | with_reducible apply Foot.next ?_ Foot.tamp_upd ?_
    )

theorem State.leaveUp_foot (s : State) (retrain : Bool) : Foot [.regs, .brg, .tw, .tamp] s (State.leaveUp s retrain) := by
  unfold State.leaveUp
  try dsimp only
  repeat' (first
    | with_reducible exact Foot.refl
    | with_reducible assumption
    | (with_reducible apply partsIn_dec; decide)
    | with_reducible apply Foot.next ?_ (State.readyDrop_foot ..) ?_
    | with_reducible apply Foot.next ?_ (State.clampThrottleOff_foot ..) ?_
    | with_reducible apply Foot.next ?_ (State.holdBegin_foot ..) ?_
    | with_reducible apply Foot.foldl (fun _ _ _ => ?_) ?_
    | with_reducible apply Foot.ite ?_ ?_
    )

theorem State.retrainLost_foot (s : State) : Foot [.regs, .brg, .tw, .tamp] s (State.retrainLost s) := by
  unfold State.retrainLost
  try dsimp only
  repeat' (first
    | with_reducible exact Foot.refl
    | with_reducible assumption
    | (with_reducible apply partsIn_dec; decide)
    | with_reducible apply Foot.next ?_ (State.clampThrottleOff_foot ..) ?_
    | with_reducible apply Foot.next ?_ (State.modBrg_foot ..) ?_
    | with_reducible apply Foot.foldl (fun _ _ _ => ?_) ?_
    | with_reducible apply Foot.ite ?_ ?_
    )

theorem State.quiesce_foot (s : State) (dest : QuiesceTo) : Foot [.regs, .brg, .tw, .tamp, .fw] s (State.quiesce s dest) := by
  unfold State.quiesce
  try dsimp only
  repeat' (first
    | with_reducible exact Foot.refl
    | with_reducible assumption
    | (with_reducible apply partsIn_dec; decide)
    | with_reducible apply Foot.next ?_ (State.leaveUp_foot ..) ?_
    | with_reducible apply Foot.next ?_ (State.setBrg_foot ..) ?_
    | with_reducible apply Foot.next ?_ (State.modBrg_foot ..) ?_
    )

theorem State.train_foot (s : State) : Foot [.regs, .brg, .fw] s (State.train s) := by
  unfold State.train
  try dsimp only
  repeat' (first
    | with_reducible exact Foot.refl
    | with_reducible assumption
    | (with_reducible apply partsIn_dec; decide)
    | with_reducible apply Foot.next ?_ (State.setBrg_foot ..) ?_
    | with_reducible apply Foot.next ?_ (State.modBrg_foot ..) ?_
    )

theorem State.kfwUse_foot (s : State) (img : List Byte) : Foot [.regs, .sil, .acd] s (State.kfwUse s img) := by
  unfold State.kfwUse
  try dsimp only
  repeat' (first
    | with_reducible exact Foot.refl
    | with_reducible assumption
    | (with_reducible apply partsIn_dec; decide)
    | with_reducible apply Foot.next ?_ (State.fpChange_foot ..) ?_
    | with_reducible apply Foot.next ?_ (State.modAcd_foot ..) ?_
    | with_reducible apply Foot.ite ?_ ?_
    )

theorem State.cfwUse_foot (s : State) (img : List Byte) : Foot [.regs, .sil, .acd] s (State.cfwUse s img) := by
  unfold State.cfwUse
  try dsimp only
  repeat' (first
    | with_reducible exact Foot.refl
    | with_reducible assumption
    | (with_reducible apply partsIn_dec; decide)
    | with_reducible apply Foot.next ?_ (State.fpChange_foot ..) ?_
    | with_reducible apply Foot.next ?_ (State.modAcd_foot ..) ?_
    | with_reducible apply Foot.ite ?_ ?_
    )

theorem Foot.fwMem {s : State} {x : FwSt} {m : List Host.Cell} (h : Memory.wf s.mem = true → Memory.wf m = true) :
    Foot [.mem, .fw] s { s with mem := m, fw := x } :=
  ⟨fun p hp => by cases p <;> first | rfl | exact absurd (by simp) hp, h, id⟩

theorem State.kfwLoad_foot (s : State) : Foot [.regs, .sil, .pwr, .acd, .fw, .mem] s (State.kfwLoad s) := by
  unfold State.kfwLoad
  try dsimp only
  repeat' (first
    | with_reducible exact Foot.refl
    | with_reducible assumption
    | (with_reducible apply partsIn_dec; decide)
    | with_reducible apply Foot.next ?_ (State.kfwUse_foot ..) ?_
    | with_reducible apply Foot.next ?_ (State.modPwr_foot ..) ?_
    | with_reducible apply Foot.next ?_ (State.log_foot ..) ?_
    | split
    | with_reducible apply Foot.next ?_ (Foot.fwMem (memory_wf_fwLoad _ _)) ?_
    | with_reducible apply Foot.next ?_ Foot.fw_mem_upd ?_
    | with_reducible apply Foot.next ?_ Foot.fw_upd ?_
    | with_reducible apply Foot.next ?_ Foot.memStore ?_
    | with_reducible apply Foot.next ?_ Foot.memForget ?_
    )

theorem State.kprArm_foot (s : State) : Foot [.regs, .pwr] s (State.kprArm s) := by
  unfold State.kprArm
  try dsimp only
  repeat' (first
    | with_reducible exact Foot.refl
    | with_reducible assumption
    | (with_reducible apply partsIn_dec; decide)
    | with_reducible apply Foot.next ?_ (State.modPwr_foot ..) ?_
    | with_reducible apply Foot.next ?_ (State.setAll_foot ..) ?_
    )

theorem State.cfwReady_foot (s : State) (img : List Byte) : Foot [.regs] s (State.cfwReady s img) := by
  unfold State.cfwReady
  try dsimp only
  repeat' (first
    | with_reducible exact Foot.refl
    | with_reducible assumption
    | (with_reducible apply partsIn_dec; decide)
    | with_reducible apply Foot.next ?_ (State.netStart_foot ..) ?_
    | with_reducible apply Foot.next ?_ (State.setAll_foot ..) ?_
    )

theorem State.cfwLoad_foot (s : State) (img : List Byte) : Foot [.regs, .sil, .acd, .mem] s (State.cfwLoad s img) := by
  unfold State.cfwLoad
  try dsimp only
  repeat' (first
    | with_reducible exact Foot.refl
    | with_reducible assumption
    | (with_reducible apply partsIn_dec; decide)
    | with_reducible apply Foot.next ?_ (State.cfwUse_foot ..) ?_
    | with_reducible apply Foot.next ?_ (State.setAll_foot ..) ?_
    | with_reducible apply Foot.next ?_ (Foot.setMem (memory_wf_fwLoad _ _)) ?_
    | with_reducible apply Foot.next ?_ Foot.memStore ?_
    | with_reducible apply Foot.next ?_ Foot.memForget ?_
    )

end Sys2Proof.Machine
end

