-- ==== Sys2Proof/Laws/FootTwoWireCmd.lean ====
section
/-! SUPPORT. Footprints of the functions of Machine/TwoWireCmd.lean. -/

namespace Sys2Proof.Machine

theorem State.ownerEnd_foot (s : State) (n : Nat) (o : TwOwner) (r : Nat) (rx : List Byte) : Foot [.regs, .sil, .nvm, .brg, .tw, .seq, .tamp, .cool, .tel, .fresh] s (State.ownerEnd s n o r rx) := by
  unfold State.ownerEnd
  try dsimp only
  repeat' (first
    | with_reducible exact Foot.refl
    | with_reducible assumption
    | (with_reducible apply partsIn_dec; decide)
    | with_reducible apply Foot.next ?_ (State.tagEnd_foot ..) ?_
    | with_reducible apply Foot.next ?_ (State.statusEnd_foot ..) ?_
    | with_reducible apply Foot.next ?_ (State.pollEnd_foot ..) ?_
    | with_reducible apply Foot.next ?_ (State.operationEnd_foot ..) ?_
    | with_reducible apply Foot.next ?_ (State.clampDone_foot ..) ?_
    | with_reducible apply Foot.next ?_ (State.channelEnd_foot ..) ?_
    | with_reducible apply Foot.next ?_ (State.bcEnd_foot ..) ?_
    | with_reducible apply Foot.next ?_ (State.araEnd_foot ..) ?_
    | with_reducible apply Foot.ite ?_ ?_
    | split
    )

theorem State.txnEnd_foot (s : State) (n : Nat) (t : TwTxn) (r : Nat) (rx : List Byte) : Foot [.regs, .sil, .nvm, .brg, .tw, .seq, .tamp, .cool, .tel, .fresh] s (State.txnEnd s n t r rx) := by
  unfold State.txnEnd
  try dsimp only
  repeat' (first
    | with_reducible exact Foot.refl
    | with_reducible assumption
    | (with_reducible apply partsIn_dec; decide)
    | with_reducible apply Foot.next ?_ (State.twCount_foot ..) ?_
    | with_reducible apply Foot.next ?_ (State.ownerEnd_foot ..) ?_
    )

theorem State.curEnd_foot (s : State) (n : Nat) (t : TwTxn) (r : Nat) (rx : List Byte) : Foot [.regs, .sil, .nvm, .brg, .tw, .seq, .tamp, .cool, .tel, .fresh] s (State.curEnd s n t r rx) := by
  unfold State.curEnd
  try dsimp only
  repeat' (first
    | with_reducible exact Foot.refl
    | with_reducible assumption
    | (with_reducible apply partsIn_dec; decide)
    | with_reducible apply Foot.next ?_ (State.twFree_foot ..) ?_
    | with_reducible apply Foot.next ?_ (State.txnEnd_foot ..) ?_
    )

theorem State.segFlush_foot (s : State) (n : Nat) : Foot [.regs, .sil, .nvm, .brg, .tw, .seq, .tamp, .cool, .tel, .fresh] s (State.segFlush s n) := by
  unfold State.segFlush
  try dsimp only
  repeat' (first
    | with_reducible exact Foot.refl
    | with_reducible assumption
    | (with_reducible apply partsIn_dec; decide)
    | with_reducible apply Foot.next ?_ (State.twFree_foot ..) ?_
    | with_reducible apply Foot.next ?_ (State.txnEnd_foot ..) ?_
    | with_reducible apply Foot.next ?_ (State.modPort_foot ..) ?_
    | with_reducible apply Foot.foldl (fun _ _ _ => ?_) ?_
    )

theorem State.twStart_foot (s : State) (n : Nat) : Foot [.regs, .sil, .nvm, .brg, .tw, .seq, .tamp, .cool, .tel, .fresh] s (State.twStart s n) := by
  unfold State.twStart
  try dsimp only
  repeat' (first
    | with_reducible exact Foot.refl
    | with_reducible assumption
    | (with_reducible apply partsIn_dec; decide)
    | with_reducible apply Foot.next ?_ (State.txnEnd_foot ..) ?_
    | with_reducible apply Foot.next ?_ (State.modPort_foot ..) ?_
    | with_reducible apply Foot.next ?_ (State.set_foot ..) ?_
    | with_reducible apply Foot.ite ?_ ?_
    | split
    )

theorem execTwTransactionStart_foot {n : Fin 12} {s : State} {t : State} (h : execTwTransactionStart n s = .next t) : Foot [.regs, .sil, .nvm, .brg, .tw, .seq, .tamp, .cool, .tel, .fresh] s t := by
  unfold execTwTransactionStart at h
  try dsimp only at h
  with_reducible refine Foot.ofNext h ?_
  repeat' (first
    | with_reducible exact Foot.refl
    | with_reducible assumption
    | (with_reducible apply partsIn_dec; decide)
    | with_reducible apply Foot.next ?_ (State.twStart_foot ..) ?_
    )

theorem State.twArbLost_foot (s : State) (n : Nat) (t : TwTxn) (byte bit : Nat) (rx : List Byte) : Foot [.regs, .sil, .nvm, .brg, .tw, .seq, .tamp, .cool, .tel, .fresh] s (State.twArbLost s n t byte bit rx) := by
  unfold State.twArbLost
  try dsimp only
  repeat' (first
    | with_reducible exact Foot.refl
    | with_reducible assumption
    | (with_reducible apply partsIn_dec; decide)
    | with_reducible apply Foot.next ?_ (State.curEnd_foot ..) ?_
    | with_reducible apply Foot.next ?_ (State.twFree_foot ..) ?_
    | with_reducible apply Foot.next ?_ (State.modPort_foot ..) ?_
    | with_reducible apply Foot.next ?_ (State.modCport_foot ..) ?_
    | with_reducible apply Foot.next ?_ (State.bump_foot ..) ?_
    | with_reducible apply Foot.next ?_ (State.setAll_foot ..) ?_
    | with_reducible apply Foot.next ?_ (State.log_foot ..) ?_
    | with_reducible apply Foot.ite ?_ ?_
    | split
    )

theorem State.twDone_foot (s : State) (n : Nat) (e : TwEnd) : Foot [.regs, .sil, .nvm, .brg, .tw, .seq, .tamp, .cool, .tel, .fresh] s (State.twDone s n e) := by
  unfold State.twDone
  try dsimp only
  repeat' (first
    | with_reducible exact Foot.refl
    | with_reducible assumption
    | (with_reducible apply partsIn_dec; decide)
    | with_reducible apply Foot.next ?_ (State.twArbLost_foot ..) ?_
    | with_reducible apply Foot.next ?_ (State.curEnd_foot ..) ?_
    | split
    )

theorem execTwTransactionDone_foot {n : Fin 12} {ended : TwEnd} {s : State} {t : State} (h : execTwTransactionDone n ended s = .next t) : Foot [.regs, .sil, .nvm, .brg, .tw, .seq, .tamp, .cool, .tel, .fresh] s t := by
  unfold execTwTransactionDone at h
  try dsimp only at h
  with_reducible refine Foot.ofNext h ?_
  repeat' (first
    | with_reducible exact Foot.refl
    | with_reducible assumption
    | (with_reducible apply partsIn_dec; decide)
    | with_reducible apply Foot.next ?_ (State.twDone_foot ..) ?_
    | with_reducible apply Foot.ite ?_ ?_
    )

theorem execTwTimeout_foot {n : Fin 12} {s : State} {rx : List Byte} {t : State} (h : execTwTimeout n s rx = .next t) : Foot [.regs, .sil, .nvm, .brg, .tw, .seq, .tamp, .cool, .tel, .fresh] s t := by
  unfold execTwTimeout at h
  try dsimp only at h
  with_reducible refine Foot.ofNext h ?_
  repeat' (first
    | with_reducible exact Foot.refl
    | with_reducible assumption
    | (with_reducible apply partsIn_dec; decide)
    | with_reducible apply Foot.next ?_ (State.curEnd_foot ..) ?_
    | with_reducible apply Foot.next ?_ (State.log_foot ..) ?_
    | with_reducible apply Foot.ite ?_ ?_
    | split
    )

theorem execSegmentStuck_foot {n : Fin 12} {scl sda : Bool} {s : State} {t : State} (h : execSegmentStuck n scl sda s = .next t) : Foot [.regs, .sil, .nvm, .brg, .tw, .seq, .tamp, .cool, .tel, .fresh] s t := by
  unfold execSegmentStuck at h
  try dsimp only at h
  with_reducible refine Foot.ofNext h ?_
  repeat' (first
    | with_reducible exact Foot.refl
    | with_reducible assumption
    | (with_reducible apply partsIn_dec; decide)
    | with_reducible apply Foot.next ?_ (State.segStuck_foot ..) ?_
    | with_reducible apply Foot.next ?_ (State.segFlush_foot ..) ?_
    | with_reducible apply Foot.ite ?_ ?_
    )

theorem execSegSettleExpiry_foot {n : Fin 12} {idle : Bool} {s : State} {t : State} (h : execSegSettleExpiry n idle s = .next t) : Foot [.regs, .sil, .tw, .tamp] s t := by
  unfold execSegSettleExpiry at h
  try dsimp only at h
  with_reducible refine Foot.ofNext h ?_
  repeat' (first
    | with_reducible exact Foot.refl
    | with_reducible assumption
    | (with_reducible apply partsIn_dec; decide)
    | with_reducible apply Foot.next ?_ (State.clampSegUp_foot ..) ?_
    | with_reducible apply Foot.next ?_ (State.araWant_foot ..) ?_
    | with_reducible apply Foot.next ?_ (State.setAll_foot ..) ?_
    | with_reducible apply Foot.next ?_ (State.log_foot ..) ?_
    | with_reducible apply Foot.ite ?_ ?_
    )

end Sys2Proof.Machine
end

