-- ==== Sys2Proof/Laws/FootPower.lean ====
section
/-! SUPPORT. Footprints of the functions of Machine/Power.lean. -/

namespace Sys2Proof.Machine

theorem State.fenceEnter_foot (s : State) : Foot [.regs, .brg, .tw, .tamp, .fw] s (State.fenceEnter s) := by
  unfold State.fenceEnter
  try dsimp only
  repeat' (first
    | with_reducible exact Foot.refl
    | with_reducible assumption
    | (with_reducible apply partsIn_dec; decide)
    | with_reducible apply Foot.next ?_ (State.retrainLost_foot ..) ?_
    | with_reducible apply Foot.next ?_ (State.leaveUp_foot ..) ?_
    | with_reducible apply Foot.next ?_ (State.brgDrop_foot ..) ?_
    | with_reducible apply Foot.next ?_ (State.setBrg_foot ..) ?_
    | with_reducible apply Foot.next ?_ (State.bump_foot ..) ?_
    )

theorem State.topPowerChange_foot (s : State) (changes : Bool) : Foot [.regs] s (State.topPowerChange s changes) := by
  unfold State.topPowerChange
  try dsimp only
  repeat' (first
    | with_reducible exact Foot.refl
    | with_reducible assumption
    | (with_reducible apply partsIn_dec; decide)
    | with_reducible apply Foot.next ?_ (State.fmcDisturb_foot ..) ?_
    | with_reducible apply Foot.ite ?_ ?_
    )

theorem State.transBegin_foot (s : State) (t : Transition) (tgt : Nat) : Foot [.regs, .pwr] s (State.transBegin s t tgt) := by
  unfold State.transBegin
  try dsimp only
  repeat' (first
    | with_reducible exact Foot.refl
    | with_reducible assumption
    | (with_reducible apply partsIn_dec; decide)
    | with_reducible apply Foot.next ?_ (State.modPwr_foot ..) ?_
    | with_reducible apply Foot.next ?_ (State.setAll_foot ..) ?_
    )

theorem State.bringUp_foot (s : State) (from_ : BringFrom) : Foot [.regs, .pwr] s (State.bringUp s from_) := by
  unfold State.bringUp
  try dsimp only
  repeat' (first
    | with_reducible exact Foot.refl
    | with_reducible assumption
    | (with_reducible apply partsIn_dec; decide)
    | with_reducible apply Foot.next ?_ (State.transBegin_foot ..) ?_
    | with_reducible apply Foot.next ?_ (State.topPowerChange_foot ..) ?_
    | with_reducible apply Foot.next ?_ (State.modPwr_foot ..) ?_
    | with_reducible apply Foot.ite ?_ ?_
    )

theorem State.brgToOff_foot (s : State) : Foot [.regs, .brg, .tw, .tamp, .fw] s (State.brgToOff s) := by
  unfold State.brgToOff
  try dsimp only
  repeat' (first
    | with_reducible exact Foot.refl
    | with_reducible assumption
    | (with_reducible apply partsIn_dec; decide)
    | with_reducible apply Foot.next ?_ (State.retrainLost_foot ..) ?_
    | with_reducible apply Foot.next ?_ (State.leaveUp_foot ..) ?_
    | with_reducible apply Foot.next ?_ (State.brgDrop_foot ..) ?_
    | with_reducible apply Foot.next ?_ (State.setBrg_foot ..) ?_
    | with_reducible apply Foot.next ?_ (State.modBrg_foot ..) ?_
    | with_reducible apply Foot.next ?_ (State.set_foot ..) ?_
    )

theorem State.topPowerOff_foot (s : State) (cls : List Ret) : Foot [.regs, .time, .clk, .sil, .pwr, .brg, .tw, .seq, .tamp, .tel, .inf, .acd, .fw, .ses, .sec, .bus, .mem] s (State.topPowerOff s cls) := by
  unfold State.topPowerOff
  try dsimp only
  repeat' (first
    | with_reducible exact Foot.refl
    | with_reducible assumption
    | (with_reducible apply partsIn_dec; decide)
    | with_reducible apply Foot.next ?_ (State.brgToOff_foot ..) ?_
    | with_reducible apply Foot.next ?_ (State.topPowerChange_foot ..) ?_
    | with_reducible apply Foot.next ?_ (State.topDieLose_foot ..) ?_
    | with_reducible apply Foot.next ?_ (State.forget_foot ..) ?_
    | with_reducible apply Foot.next ?_ (State.modPwr_foot ..) ?_
    )

theorem State.topCauses_foot (s : State) (m : Nat) : Foot [.regs] s (State.topCauses s m) := by
  unfold State.topCauses
  try dsimp only
  repeat' (first
    | with_reducible exact Foot.refl
    | with_reducible assumption
    | (with_reducible apply partsIn_dec; decide)
    | with_reducible apply Foot.next ?_ (State.setAll_foot ..) ?_
    )

theorem State.releaseSend_foot (s : State) : Foot [.brg] s (State.releaseSend s) := by
  unfold State.releaseSend
  try dsimp only
  repeat' (first
    | with_reducible exact Foot.refl
    | with_reducible assumption
    | (with_reducible apply partsIn_dec; decide)
    | with_reducible apply Foot.next ?_ (State.guardSend_foot ..) ?_
    )

theorem State.topInReset_foot (s : State) : Foot [.regs, .time, .clk, .sil, .pwr, .brg, .tw, .seq, .tamp, .tel, .inf, .acd, .fw, .ses, .sec, .bus, .mem] s (State.topInReset s) := by
  unfold State.topInReset
  try dsimp only
  repeat' (first
    | with_reducible exact Foot.refl
    | with_reducible assumption
    | (with_reducible apply partsIn_dec; decide)
    | with_reducible apply Foot.next ?_ (State.brgToOff_foot ..) ?_
    | with_reducible apply Foot.next ?_ (State.topDieLose_foot ..) ?_
    | with_reducible apply Foot.next ?_ (State.modPwr_foot ..) ?_
    | with_reducible apply Foot.next ?_ (State.admitEvent_foot ..) ?_
    )

theorem State.topStart_foot (s : State) (m : Nat) : Foot [.regs, .time, .clk, .sil, .pwr, .brg, .tw, .seq, .tamp, .tel, .inf, .acd, .fw, .ses, .sec, .bus, .mem] s (State.topStart s m) := by
  unfold State.topStart
  try dsimp only
  repeat' (first
    | with_reducible exact Foot.refl
    | with_reducible assumption
    | (with_reducible apply partsIn_dec; decide)
    | with_reducible apply Foot.next ?_ (State.topInReset_foot ..) ?_
    | with_reducible apply Foot.next ?_ (State.releaseSend_foot ..) ?_
    | with_reducible apply Foot.next ?_ (State.topCauses_foot ..) ?_
    | with_reducible apply Foot.next ?_ (State.quiesce_foot ..) ?_
    | with_reducible apply Foot.next ?_ (State.bump_foot ..) ?_
    | with_reducible apply Foot.next ?_ (State.modBrg_foot ..) ?_
    | with_reducible apply Foot.next ?_ (State.modPwr_foot ..) ?_
    | with_reducible apply Foot.ite ?_ ?_
    )

theorem State.topRequest_foot (s : State) (m : Nat) : Foot [.regs, .time, .clk, .sil, .pwr, .brg, .tw, .seq, .tamp, .tel, .inf, .acd, .fw, .ses, .sec, .bus, .mem] s (State.topRequest s m) := by
  unfold State.topRequest
  try dsimp only
  repeat' (first
    | with_reducible exact Foot.refl
    | with_reducible assumption
    | (with_reducible apply partsIn_dec; decide)
    | with_reducible apply Foot.next ?_ (State.topStart_foot ..) ?_
    | with_reducible apply Foot.next ?_ (State.topCauses_foot ..) ?_
    | with_reducible apply Foot.next ?_ (State.modPwr_foot ..) ?_
    | with_reducible apply Foot.ite ?_ ?_
    )

theorem State.topWaiting_foot (s : State) : Foot [.regs, .time, .clk, .sil, .pwr, .brg, .tw, .seq, .tamp, .tel, .inf, .acd, .fw, .ses, .sec, .bus, .mem] s (State.topWaiting s) := by
  unfold State.topWaiting
  try dsimp only
  repeat' (first
    | with_reducible exact Foot.refl
    | with_reducible assumption
    | (with_reducible apply partsIn_dec; decide)
    | with_reducible apply Foot.next ?_ (State.topRequest_foot ..) ?_
    | with_reducible apply Foot.next ?_ (State.modPwr_foot ..) ?_
    | with_reducible apply Foot.ite ?_ ?_
    )

theorem State.pwrLog_foot (s : State) (old st : Nat) : Foot [.sil] s (State.pwrLog s old st) := by
  unfold State.pwrLog
  try dsimp only
  repeat' (first
    | with_reducible exact Foot.refl
    | with_reducible assumption
    | (with_reducible apply partsIn_dec; decide)
    | with_reducible apply Foot.next ?_ (State.logIf_foot ..) ?_
    )

theorem State.pwrShow_foot (s : State) (st : Nat) : Foot [.regs, .pwr] s (State.pwrShow s st) := by
  unfold State.pwrShow
  try dsimp only
  repeat' (first
    | with_reducible exact Foot.refl
    | with_reducible assumption
    | (with_reducible apply partsIn_dec; decide)
    | with_reducible apply Foot.next ?_ (State.modPwr_foot ..) ?_
    | with_reducible apply Foot.next ?_ (State.setAll_foot ..) ?_
    )

theorem State.transEnd_foot (s : State) (st : Nat) : Foot [.regs, .sil, .pwr] s (State.transEnd s st) := by
  unfold State.transEnd
  try dsimp only
  repeat' (first
    | with_reducible exact Foot.refl
    | with_reducible assumption
    | (with_reducible apply partsIn_dec; decide)
    | with_reducible apply Foot.next ?_ (State.pwrShow_foot ..) ?_
    | with_reducible apply Foot.next ?_ (State.pwrLog_foot ..) ?_
    )

theorem State.a2Finish_foot (s : State) : Foot [.regs, .time, .clk, .sil, .pwr, .brg, .tw, .seq, .tamp, .tel, .inf, .acd, .fw, .ses, .sec, .bus, .mem] s (State.a2Finish s) := by
  unfold State.a2Finish
  try dsimp only
  repeat' (first
    | with_reducible exact Foot.refl
    | with_reducible assumption
    | (with_reducible apply partsIn_dec; decide)
    | with_reducible apply Foot.next ?_ (State.transEnd_foot ..) ?_
    | with_reducible apply Foot.next ?_ (State.topWaiting_foot ..) ?_
    | with_reducible apply Foot.next ?_ (State.topPowerOff_foot ..) ?_
    | with_reducible apply Foot.next ?_ (State.bringUp_foot ..) ?_
    | with_reducible apply Foot.next ?_ (State.set_foot ..) ?_
    | with_reducible apply Foot.ite ?_ ?_
    )

theorem State.a2Lost_foot (s : State) : Foot [.regs, .time, .clk, .sil, .pwr, .brg, .tw, .seq, .tamp, .tel, .inf, .acd, .fw, .ses, .sec, .bus, .mem] s (State.a2Lost s) := by
  unfold State.a2Lost
  try dsimp only
  repeat' (first
    | with_reducible exact Foot.refl
    | with_reducible assumption
    | (with_reducible apply partsIn_dec; decide)
    | with_reducible apply Foot.next ?_ (State.a2Finish_foot ..) ?_
    | with_reducible apply Foot.next ?_ (State.modPwr_foot ..) ?_
    | with_reducible apply Foot.next ?_ (State.set_foot ..) ?_
    | with_reducible apply Foot.next ?_ (State.log_foot ..) ?_
    )

theorem State.bringFail_foot (s : State) (step reason : Nat) : Foot [.regs, .time, .clk, .sil, .pwr, .brg, .tw, .seq, .tamp, .tel, .inf, .acd, .fw, .ses, .sec, .bus, .mem] s (State.bringFail s step reason) := by
  unfold State.bringFail
  try dsimp only
  repeat' (first
    | with_reducible exact Foot.refl
    | with_reducible assumption
    | (with_reducible apply partsIn_dec; decide)
    | with_reducible apply Foot.next ?_ (State.transEnd_foot ..) ?_
    | with_reducible apply Foot.next ?_ (State.topPowerOff_foot ..) ?_
    | with_reducible apply Foot.next ?_ (State.bringUp_foot ..) ?_
    | with_reducible apply Foot.next ?_ (State.bump_foot ..) ?_
    | with_reducible apply Foot.next ?_ (State.modPwr_foot ..) ?_
    | with_reducible apply Foot.next ?_ (State.set_foot ..) ?_
    | with_reducible apply Foot.next ?_ (State.log_foot ..) ?_
    | with_reducible apply Foot.ite ?_ ?_
    )

theorem State.fenceHandle_foot (s : State) : Foot [.regs, .time, .clk, .sil, .pwr, .brg, .tw, .seq, .tamp, .tel, .inf, .acd, .fw, .ses, .sec, .bus, .mem] s (State.fenceHandle s) := by
  unfold State.fenceHandle
  try dsimp only
  repeat' (first
    | with_reducible exact Foot.refl
    | with_reducible assumption
    | (with_reducible apply partsIn_dec; decide)
    | with_reducible apply Foot.next ?_ (State.bringFail_foot ..) ?_
    | with_reducible apply Foot.next ?_ (State.a2Lost_foot ..) ?_
    | with_reducible apply Foot.next ?_ (State.a2Finish_foot ..) ?_
    | with_reducible apply Foot.next ?_ (State.topRequest_foot ..) ?_
    | with_reducible apply Foot.next ?_ (State.topInReset_foot ..) ?_
    | with_reducible apply Foot.next ?_ (State.brgToOff_foot ..) ?_
    | with_reducible apply Foot.ite ?_ ?_
    )

theorem State.a1Undo_foot (s : State) : Foot [.regs, .clk, .pwr, .inf, .ses, .mem] s (State.a1Undo s) := by
  unfold State.a1Undo
  try dsimp only
  repeat' (first
    | with_reducible exact Foot.refl
    | with_reducible assumption
    | (with_reducible apply partsIn_dec; decide)
    | with_reducible apply Foot.next ?_ (State.infHold_foot ..) ?_
    | with_reducible apply Foot.next ?_ (State.gateRelease_foot ..) ?_
    | with_reducible apply Foot.next ?_ (State.modPwr_foot ..) ?_
    | with_reducible apply Foot.foldl (fun _ _ _ => ?_) ?_
    )

theorem State.a1Exit_foot (s : State) : Foot [.regs, .time, .clk, .sil, .pwr, .brg, .tw, .seq, .tamp, .cool, .tel, .inf, .acd, .fw, .ses, .sec, .bus, .mem] s (State.a1Exit s) := by
  unfold State.a1Exit
  try dsimp only
  repeat' (first
    | with_reducible exact Foot.refl
    | with_reducible assumption
    | (with_reducible apply partsIn_dec; decide)
    | with_reducible apply Foot.next ?_ (State.hwdtEnterA0_foot ..) ?_
    | with_reducible apply Foot.next ?_ (State.a1Undo_foot ..) ?_
    | with_reducible apply Foot.next ?_ (State.transEnd_foot ..) ?_
    | with_reducible apply Foot.next ?_ (State.topWaiting_foot ..) ?_
    | with_reducible apply Foot.ite ?_ ?_
    )

theorem State.baseLose_foot (s : State) (cls : List Ret) (stay : List Fld) : Foot [.regs, .cool] s (State.baseLose s cls stay) := by
  unfold State.baseLose
  try dsimp only
  repeat' (first
    | with_reducible exact Foot.refl
    | with_reducible assumption
    | (with_reducible apply partsIn_dec; decide)
    | with_reducible apply Foot.next ?_ (State.fanLoopsLose_foot ..) ?_
    | with_reducible apply Foot.next ?_ (State.lose_foot ..) ?_
    | with_reducible apply Foot.next ?_ (State.setAll_foot ..) ?_
    | with_reducible apply Foot.ite ?_ ?_
    )

theorem State.keeperLose_foot (s : State) : Foot [.pwr, .fw, .mem] s (State.keeperLose s) := by
  unfold State.keeperLose
  try dsimp only
  repeat' (first
    | with_reducible exact Foot.refl
    | with_reducible assumption
    | (with_reducible apply partsIn_dec; decide)
    | with_reducible apply Foot.next ?_ (State.forget_foot ..) ?_
    | with_reducible apply Foot.next ?_ (State.modFw_foot ..) ?_
    | with_reducible apply Foot.next ?_ (State.modPwr_foot ..) ?_
    )

theorem State.releaseDue_foot (s : State) : Foot [.regs, .pwr, .brg, .tw, .tel] s (State.releaseDue s) := by
  unfold State.releaseDue
  try dsimp only
  repeat' (first
    | with_reducible exact Foot.refl
    | with_reducible assumption
    | (with_reducible apply partsIn_dec; decide)
    | with_reducible apply Foot.next ?_ (State.linksSleep_foot ..) ?_
    | with_reducible apply Foot.next ?_ (State.gateRequest_foot ..) ?_
    | with_reducible apply Foot.next ?_ (State.releaseSend_foot ..) ?_
    | with_reducible apply Foot.next ?_ (State.modPwr_foot ..) ?_
    | with_reducible apply Foot.foldl (fun _ _ _ => ?_) ?_
    | with_reducible apply Foot.ite ?_ ?_
    )

theorem State.a1Enter_foot (s : State) (ini : Initiator) : Foot [.regs, .pwr, .brg, .tw, .tel, .inf] s (State.a1Enter s ini) := by
  unfold State.a1Enter
  try dsimp only
  repeat' (first
    | with_reducible exact Foot.refl
    | with_reducible assumption
    | (with_reducible apply partsIn_dec; decide)
    | with_reducible apply Foot.next ?_ (State.releaseDue_foot ..) ?_
    | with_reducible apply Foot.next ?_ (State.infHold_foot ..) ?_
    | with_reducible apply Foot.next ?_ (State.transBegin_foot ..) ?_
    | with_reducible apply Foot.next ?_ (State.modPwr_foot ..) ?_
    )

theorem State.a2Enter_foot (s : State) : Foot [.regs, .time, .clk, .sil, .pwr, .brg, .tw, .seq, .tamp, .tel, .inf, .acd, .fw, .ses, .sec, .bus, .mem] s (State.a2Enter s) := by
  unfold State.a2Enter
  try dsimp only
  repeat' (first
    | with_reducible exact Foot.refl
    | with_reducible assumption
    | (with_reducible apply partsIn_dec; decide)
    | with_reducible apply Foot.next ?_ (State.releaseDue_foot ..) ?_
    | with_reducible apply Foot.next ?_ (State.infHold_foot ..) ?_
    | with_reducible apply Foot.next ?_ (State.a2Lost_foot ..) ?_
    | with_reducible apply Foot.next ?_ (State.transBegin_foot ..) ?_
    | with_reducible apply Foot.next ?_ (State.modPwr_foot ..) ?_
    | with_reducible apply Foot.ite ?_ ?_
    )

theorem State.a3Enter_foot (s : State) : Foot [.regs, .time, .clk, .sil, .nvm, .pwr, .brg, .tw, .seq, .tamp, .cool, .tel, .key, .fw, .mem, .fresh] s (State.a3Enter s) := by
  unfold State.a3Enter
  try dsimp only
  repeat' (first
    | with_reducible exact Foot.refl
    | with_reducible assumption
    | (with_reducible apply partsIn_dec; decide)
    | with_reducible apply Foot.next ?_ (State.coolA3_foot ..) ?_
    | with_reducible apply Foot.next ?_ (State.segFlush_foot ..) ?_
    | with_reducible apply Foot.next ?_ (State.twCut_foot ..) ?_
    | with_reducible apply Foot.next ?_ (State.keeperLose_foot ..) ?_
    | with_reducible apply Foot.next ?_ (State.baseLose_foot ..) ?_
    | with_reducible apply Foot.next ?_ (State.pwrShow_foot ..) ?_
    | with_reducible apply Foot.next ?_ (State.pwrLog_foot ..) ?_
    | with_reducible apply Foot.next ?_ (State.baseTo_foot ..) ?_
    | with_reducible apply Foot.next ?_ (State.modClk_foot ..) ?_
    | with_reducible apply Foot.next ?_ (State.modPwr_foot ..) ?_
    | with_reducible apply Foot.next ?_ (State.setAll_foot ..) ?_
    | with_reducible apply Foot.next ?_ (State.modKey_foot ..) ?_
    | with_reducible apply Foot.foldl (fun _ _ _ => ?_) ?_
    | with_reducible apply Foot.next ?_ Foot.sil_upd ?_
    )

theorem State.pwrRefuse_foot (s : State) (ini : Initiator) (req cause : Nat) : Foot [.sil] s (State.pwrRefuse s ini req cause) := by
  unfold State.pwrRefuse
  try dsimp only
  repeat' (first
    | with_reducible exact Foot.refl
    | with_reducible assumption
    | (with_reducible apply partsIn_dec; decide)
    | with_reducible apply Foot.next ?_ (State.log_foot ..) ?_
    )

theorem State.pwrRequest_foot (s : State) (ini : Initiator) (req : Nat) : Foot [.regs, .time, .clk, .sil, .nvm, .pwr, .brg, .tw, .seq, .tamp, .cool, .tel, .inf, .acd, .key, .fw, .ses, .sec, .bus, .mem, .fresh] s (State.pwrRequest s ini req) := by
  unfold State.pwrRequest
  try dsimp only
  repeat' (first
    | with_reducible exact Foot.refl
    | with_reducible assumption
    | (with_reducible apply partsIn_dec; decide)
    | with_reducible apply Foot.next ?_ (State.pwrRefuse_foot ..) ?_
    | with_reducible apply Foot.next ?_ (State.a3Enter_foot ..) ?_
    | with_reducible apply Foot.next ?_ (State.a2Enter_foot ..) ?_
    | with_reducible apply Foot.next ?_ (State.a1Enter_foot ..) ?_
    | with_reducible apply Foot.next ?_ (State.a1Exit_foot ..) ?_
    | with_reducible apply Foot.next ?_ (State.bringUp_foot ..) ?_
    | with_reducible apply Foot.ite ?_ ?_
    )

theorem State.topLost_foot (s : State) : Foot [.regs, .time, .clk, .sil, .pwr, .brg, .tw, .seq, .tamp, .tel, .inf, .acd, .fw, .ses, .sec, .bus, .mem] s (State.topLost s) := by
  unfold State.topLost
  try dsimp only
  repeat' (first
    | with_reducible exact Foot.refl
    | with_reducible assumption
    | (with_reducible apply partsIn_dec; decide)
    | with_reducible apply Foot.next ?_ (State.fenceHandle_foot ..) ?_
    | with_reducible apply Foot.next ?_ (State.fenceEnter_foot ..) ?_
    | with_reducible apply Foot.next ?_ (State.set64_foot ..) ?_
    | with_reducible apply Foot.next ?_ (State.setAll_foot ..) ?_
    | with_reducible apply Foot.next ?_ (State.log_foot ..) ?_
    )

theorem execPowerReqA0_foot {ini : Initiator} {s : State} {t : State} (h : execPowerReqA0 ini s = .next t) : Foot [.regs, .time, .clk, .sil, .nvm, .pwr, .brg, .tw, .seq, .tamp, .cool, .tel, .inf, .acd, .key, .fw, .ses, .sec, .bus, .mem, .fresh] s t := by
  unfold execPowerReqA0 at h
  try dsimp only at h
  with_reducible refine Foot.ofNext h ?_
  repeat' (first
    | with_reducible exact Foot.refl
    | with_reducible assumption
    | (with_reducible apply partsIn_dec; decide)
    | with_reducible apply Foot.next ?_ (State.pwrRequest_foot ..) ?_
    | with_reducible apply Foot.trans ?_ (State.command_foot _ _ _ _ ?_ ?_)
    )

theorem execPowerReqA1_foot {ini : Initiator} {s : State} {t : State} (h : execPowerReqA1 ini s = .next t) : Foot [.regs, .time, .clk, .sil, .nvm, .pwr, .brg, .tw, .seq, .tamp, .cool, .tel, .inf, .acd, .key, .fw, .ses, .sec, .bus, .mem, .fresh] s t := by
  unfold execPowerReqA1 at h
  try dsimp only at h
  with_reducible refine Foot.ofNext h ?_
  repeat' (first
    | with_reducible exact Foot.refl
    | with_reducible assumption
    | (with_reducible apply partsIn_dec; decide)
    | with_reducible apply Foot.next ?_ (State.pwrRequest_foot ..) ?_
    | with_reducible apply Foot.trans ?_ (State.command_foot _ _ _ _ ?_ ?_)
    )

theorem execPowerReqA2_foot {ini : Initiator} {s : State} {t : State} (h : execPowerReqA2 ini s = .next t) : Foot [.regs, .time, .clk, .sil, .nvm, .pwr, .brg, .tw, .seq, .tamp, .cool, .tel, .inf, .acd, .key, .fw, .ses, .sec, .bus, .mem, .fresh] s t := by
  unfold execPowerReqA2 at h
  try dsimp only at h
  with_reducible refine Foot.ofNext h ?_
  repeat' (first
    | with_reducible exact Foot.refl
    | with_reducible assumption
    | (with_reducible apply partsIn_dec; decide)
    | with_reducible apply Foot.next ?_ (State.pwrRequest_foot ..) ?_
    | with_reducible apply Foot.trans ?_ (State.command_foot _ _ _ _ ?_ ?_)
    )

theorem execPowerReqA3_foot {ini : Initiator} {s : State} {t : State} (h : execPowerReqA3 ini s = .next t) : Foot [.regs, .time, .clk, .sil, .nvm, .pwr, .brg, .tw, .seq, .tamp, .cool, .tel, .inf, .acd, .key, .fw, .ses, .sec, .bus, .mem, .fresh] s t := by
  unfold execPowerReqA3 at h
  try dsimp only at h
  with_reducible refine Foot.ofNext h ?_
  repeat' (first
    | with_reducible exact Foot.refl
    | with_reducible assumption
    | (with_reducible apply partsIn_dec; decide)
    | with_reducible apply Foot.next ?_ (State.pwrRequest_foot ..) ?_
    | with_reducible apply Foot.trans ?_ (State.command_foot _ _ _ _ ?_ ?_)
    )

theorem State.a1Complete_foot (s : State) : Foot [.regs, .time, .clk, .sil, .pwr, .brg, .tw, .seq, .tamp, .tel, .inf, .acd, .fw, .ses, .sec, .bus, .mem] s (State.a1Complete s) := by
  unfold State.a1Complete
  try dsimp only
  repeat' (first
    | with_reducible exact Foot.refl
    | with_reducible assumption
    | (with_reducible apply partsIn_dec; decide)
    | with_reducible apply Foot.next ?_ (State.pwrRefuse_foot ..) ?_
    | with_reducible apply Foot.next ?_ (State.a1Undo_foot ..) ?_
    | with_reducible apply Foot.next ?_ (State.transEnd_foot ..) ?_
    | with_reducible apply Foot.next ?_ (State.topWaiting_foot ..) ?_
    | with_reducible apply Foot.ite ?_ ?_
    )

theorem execA1EntryComplete_foot {s : State} {t : State} (h : execA1EntryComplete s = .next t) : Foot [.regs, .time, .clk, .sil, .pwr, .brg, .tw, .seq, .tamp, .tel, .inf, .acd, .fw, .ses, .sec, .bus, .mem] s t := by
  unfold execA1EntryComplete at h
  try dsimp only at h
  with_reducible refine Foot.ofNext h ?_
  repeat' (first
    | with_reducible exact Foot.refl
    | with_reducible assumption
    | (with_reducible apply partsIn_dec; decide)
    | with_reducible apply Foot.next ?_ (State.a1Complete_foot ..) ?_
    | with_reducible apply Foot.next ?_ (State.releaseDue_foot ..) ?_
    )

theorem State.wCopy_foot (s : State) : Foot [.mem] s (State.wCopy s) :=
  Foot.setMem (fun h => memory_wf_memStore _ _ _ (memory_wf_memForget _ _ h))

theorem State.wSaved_foot (s : State) : Foot [.regs, .pwr, .brg, .tw, .tamp, .tel, .fw, .mem] s (State.wSaved s) := by
  unfold State.wSaved
  try dsimp only
  repeat' (first
    | with_reducible exact Foot.refl
    | with_reducible assumption
    | (with_reducible apply partsIn_dec; decide)
    | with_reducible apply Foot.next ?_ (State.wCopy_foot ..) ?_
    | with_reducible apply Foot.next ?_ (State.linksQuiet_foot ..) ?_
    | with_reducible apply Foot.next ?_ (State.quiesce_foot ..) ?_
    | with_reducible apply Foot.next ?_ (State.modPwr_foot ..) ?_
    | with_reducible apply Foot.ite ?_ ?_
    )

theorem execWSaveDone_foot {s : State} {t : State} (h : execWSaveDone s = .next t) : Foot [.regs, .pwr, .brg, .tw, .tamp, .tel, .fw, .mem] s t := by
  unfold execWSaveDone at h
  try dsimp only at h
  with_reducible refine Foot.ofNext h ?_
  repeat' (first
    | with_reducible exact Foot.refl
    | with_reducible assumption
    | (with_reducible apply partsIn_dec; decide)
    | with_reducible apply Foot.next ?_ (State.wSaved_foot ..) ?_
    | with_reducible apply Foot.next ?_ (State.releaseDue_foot ..) ?_
    )

theorem State.wakeRetry_foot (s : State) : Foot [.regs, .pwr] s (State.wakeRetry s) := by
  unfold State.wakeRetry
  try dsimp only
  repeat' (first
    | with_reducible exact Foot.refl
    | with_reducible assumption
    | (with_reducible apply partsIn_dec; decide)
    | with_reducible apply Foot.next ?_ (State.bringUp_foot ..) ?_
    | with_reducible apply Foot.next ?_ (State.set_foot ..) ?_
    | with_reducible apply Foot.ite ?_ ?_
    )

theorem State.wake_foot (s : State) (bits : Nat) : Foot [.regs, .time, .clk, .sil, .pwr, .brg, .tw, .seq, .tamp, .cool, .tel, .inf, .acd, .fw, .ses, .sec, .bus, .mem] s (State.wake s bits) := by
  unfold State.wake
  try dsimp only
  repeat' (first
    | with_reducible exact Foot.refl
    | with_reducible assumption
    | (with_reducible apply partsIn_dec; decide)
    | with_reducible apply Foot.next ?_ (State.wakeRetry_foot ..) ?_
    | with_reducible apply Foot.next ?_ (State.a1Exit_foot ..) ?_
    | with_reducible apply Foot.next ?_ (State.hwdtEnterA0_foot ..) ?_
    | with_reducible apply Foot.next ?_ (State.a1Undo_foot ..) ?_
    | with_reducible apply Foot.next ?_ (State.transEnd_foot ..) ?_
    | with_reducible apply Foot.next ?_ (State.topWaiting_foot ..) ?_
    | with_reducible apply Foot.next ?_ (State.bringUp_foot ..) ?_
    | with_reducible apply Foot.next ?_ (State.transBegin_foot ..) ?_
    | with_reducible apply Foot.next ?_ (State.setIf_foot ..) ?_
    | with_reducible apply Foot.next ?_ (State.modClk_foot ..) ?_
    | with_reducible apply Foot.next ?_ (State.modPwr_foot ..) ?_
    | with_reducible apply Foot.next ?_ (State.set_foot ..) ?_
    | with_reducible apply Foot.ite ?_ ?_
    | split
    )

theorem execWakeInput_foot {mask : Fin 256} {s : State} {t : State} (h : execWakeInput mask s = .next t) : Foot [.regs, .time, .clk, .sil, .pwr, .brg, .tw, .seq, .tamp, .cool, .tel, .inf, .acd, .fw, .ses, .sec, .bus, .mem] s t := by
  unfold execWakeInput at h
  try dsimp only at h
  with_reducible refine Foot.ofNext h ?_
  repeat' (first
    | with_reducible exact Foot.refl
    | with_reducible assumption
    | (with_reducible apply partsIn_dec; decide)
    | with_reducible apply Foot.next ?_ (State.wake_foot ..) ?_
    )

theorem execWakeTimer_foot {s : State} {t : State} (h : execWakeTimer s = .next t) : Foot [.regs, .time, .clk, .sil, .pwr, .brg, .tw, .seq, .tamp, .cool, .tel, .inf, .acd, .fw, .ses, .sec, .bus, .mem] s t := by
  unfold execWakeTimer at h
  try dsimp only at h
  with_reducible refine Foot.ofNext h ?_
  repeat' (first
    | with_reducible exact Foot.refl
    | with_reducible assumption
    | (with_reducible apply partsIn_dec; decide)
    | with_reducible apply Foot.next ?_ (State.wake_foot ..) ?_
    | with_reducible apply Foot.ite ?_ ?_
    )

theorem execWakeAddressMatch_foot {n : Fin 12} {addr : Fin 128} {s : State} {t : State} (h : execWakeAddressMatch n addr s = .next t) : Foot [.regs, .time, .clk, .sil, .pwr, .brg, .tw, .seq, .tamp, .cool, .tel, .inf, .acd, .fw, .ses, .sec, .bus, .mem] s t := by
  unfold execWakeAddressMatch at h
  try dsimp only at h
  with_reducible refine Foot.ofNext h ?_
  repeat' (first
    | with_reducible exact Foot.refl
    | with_reducible assumption
    | (with_reducible apply partsIn_dec; decide)
    | with_reducible apply Foot.next ?_ (State.wake_foot ..) ?_
    | with_reducible apply Foot.next ?_ (State.set_foot ..) ?_
    | with_reducible apply Foot.next ?_ (State.log_foot ..) ?_
    | with_reducible apply Foot.ite ?_ ?_
    )

theorem execLeakMeasure_foot {k : Fin 16} {imp : Nat} {s : State} {t : State} (h : execLeakMeasure k imp s = .next t) : Foot [.regs, .time, .clk, .sil, .pwr, .brg, .tw, .seq, .tamp, .cool, .tel, .inf, .acd, .fw, .ses, .sec, .bus, .mem] s t := by
  unfold execLeakMeasure at h
  try dsimp only at h
  with_reducible refine Foot.ofNext h ?_
  repeat' (first
    | with_reducible exact Foot.refl
    | with_reducible assumption
    | (with_reducible apply partsIn_dec; decide)
    | with_reducible apply Foot.next ?_ (State.wake_foot ..) ?_
    | with_reducible apply Foot.next ?_ (State.leakMeasure_foot ..) ?_
    | with_reducible apply Foot.ite ?_ ?_
    )

theorem execToppwrGoodRise_foot {s : State} {t : State} (h : execToppwrGoodRise s = .next t) : Foot [.regs, .pwr] s t := by
  unfold execToppwrGoodRise at h
  try dsimp only at h
  with_reducible refine Foot.ofNext h ?_
  repeat' (first
    | with_reducible exact Foot.refl
    | with_reducible assumption
    | (with_reducible apply partsIn_dec; decide)
    | with_reducible apply Foot.next ?_ (State.topPowerChange_foot ..) ?_
    | with_reducible apply Foot.next ?_ (State.modPwr_foot ..) ?_
    | with_reducible apply Foot.ite ?_ ?_
    )

theorem State.goodFall_foot (s : State) : Foot [.regs, .time, .clk, .sil, .pwr, .brg, .tw, .seq, .tamp, .tel, .inf, .acd, .fw, .ses, .sec, .bus, .mem] s (State.goodFall s) := by
  unfold State.goodFall
  try dsimp only
  repeat' (first
    | with_reducible exact Foot.refl
    | with_reducible assumption
    | (with_reducible apply partsIn_dec; decide)
    | with_reducible apply Foot.next ?_ (State.topLost_foot ..) ?_
    | with_reducible apply Foot.next ?_ (State.bringFail_foot ..) ?_
    | with_reducible apply Foot.next ?_ (State.topPowerChange_foot ..) ?_
    | with_reducible apply Foot.next ?_ (State.modPwr_foot ..) ?_
    | with_reducible apply Foot.ite ?_ ?_
    )

theorem execToppwrGoodFall_foot {s : State} {t : State} (h : execToppwrGoodFall s = .next t) : Foot [.regs, .time, .clk, .sil, .pwr, .brg, .tw, .seq, .tamp, .tel, .inf, .acd, .fw, .ses, .sec, .bus, .mem] s t := by
  unfold execToppwrGoodFall at h
  try dsimp only at h
  with_reducible refine Foot.ofNext h ?_
  repeat' (first
    | with_reducible exact Foot.refl
    | with_reducible assumption
    | (with_reducible apply partsIn_dec; decide)
    | with_reducible apply Foot.next ?_ (State.goodFall_foot ..) ?_
    )

theorem execPgTimeout_foot {s : State} {t : State} (h : execPgTimeout s = .next t) : Foot [.regs, .time, .clk, .sil, .pwr, .brg, .tw, .seq, .tamp, .tel, .inf, .acd, .fw, .ses, .sec, .bus, .mem] s t := by
  unfold execPgTimeout at h
  try dsimp only at h
  with_reducible refine Foot.ofNext h ?_
  repeat' (first
    | with_reducible exact Foot.refl
    | with_reducible assumption
    | (with_reducible apply partsIn_dec; decide)
    | with_reducible apply Foot.next ?_ (State.bringFail_foot ..) ?_
    | with_reducible apply Foot.ite ?_ ?_
    )

theorem execPllLock_foot {s : State} {t : State} (h : execPllLock s = .next t) : Foot [.regs, .pwr, .brg, .fw] s t := by
  unfold execPllLock at h
  try dsimp only at h
  with_reducible refine Foot.ofNext h ?_
  repeat' (first
    | with_reducible exact Foot.refl
    | with_reducible assumption
    | (with_reducible apply partsIn_dec; decide)
    | with_reducible apply Foot.next ?_ (State.train_foot ..) ?_
    | with_reducible apply Foot.next ?_ (State.modPwr_foot ..) ?_
    | with_reducible apply Foot.next ?_ (State.setAll_foot ..) ?_
    | with_reducible apply Foot.ite ?_ ?_
    )

theorem execTopResetHoldEnd_foot {s : State} {t : State} (h : execTopResetHoldEnd s = .next t) : Foot [.pwr] s t := by
  unfold execTopResetHoldEnd at h
  try dsimp only at h
  with_reducible refine Foot.ofNext h ?_
  repeat' (first
    | with_reducible exact Foot.refl
    | with_reducible assumption
    | (with_reducible apply partsIn_dec; decide)
    | with_reducible apply Foot.next ?_ (State.modPwr_foot ..) ?_
    | with_reducible apply Foot.ite ?_ ?_
    )

theorem State.wPut_foot (s : State) (e : Nat × Nat) : Foot [.regs] s (State.wPut s e) := by
  unfold State.wPut
  try dsimp only
  repeat' (first
    | with_reducible exact Foot.refl
    | with_reducible assumption
    | (with_reducible apply partsIn_dec; decide)
    | with_reducible apply Foot.next ?_ (State.set_foot ..) ?_
    | with_reducible apply Foot.ite ?_ ?_
    | split
    )

theorem State.wRestore_foot (s : State) : Foot [.regs, .pwr] s (State.wRestore s) := by
  unfold State.wRestore
  try dsimp only
  repeat' (first
    | with_reducible exact Foot.refl
    | with_reducible assumption
    | (with_reducible apply partsIn_dec; decide)
    | with_reducible apply Foot.next ?_ (State.wPut_foot ..) ?_
    | with_reducible apply Foot.next ?_ (State.recFirst_foot ..) ?_
    | with_reducible apply Foot.next ?_ (State.lose_foot ..) ?_
    | with_reducible apply Foot.next ?_ (State.modPwr_foot ..) ?_
    | with_reducible apply Foot.foldl (fun _ _ _ => ?_) ?_
    | with_reducible apply Foot.ite ?_ ?_
    )

theorem State.reloadDone_foot (s : State) (bad : Option Nat) : Foot [.regs, .time, .clk, .sil, .pwr, .brg, .tw, .seq, .tamp, .tel, .inf, .acd, .fw, .ses, .sec, .bus, .mem] s (State.reloadDone s bad) := by
  unfold State.reloadDone
  try dsimp only
  repeat' (first
    | with_reducible exact Foot.refl
    | with_reducible assumption
    | (with_reducible apply partsIn_dec; decide)
    | with_reducible apply Foot.next ?_ (State.wRestore_foot ..) ?_
    | with_reducible apply Foot.next ?_ (State.topReload_foot ..) ?_
    | with_reducible apply Foot.next ?_ (State.bringFail_foot ..) ?_
    | with_reducible apply Foot.next ?_ (State.modPwr_foot ..) ?_
    | with_reducible apply Foot.next ?_ (State.set_foot ..) ?_
    | with_reducible apply Foot.next ?_ (State.log_foot ..) ?_
    | with_reducible apply Foot.ite ?_ ?_
    | split
    )

theorem execSensorMapReloadDone_foot {bad : Option (Fin 4096)} {s : State} {t : State} (h : execSensorMapReloadDone bad s = .next t) : Foot [.regs, .time, .clk, .sil, .pwr, .brg, .tw, .seq, .tamp, .tel, .inf, .acd, .fw, .ses, .sec, .bus, .mem] s t := by
  unfold execSensorMapReloadDone at h
  try dsimp only at h
  with_reducible refine Foot.ofNext h ?_
  repeat' (first
    | with_reducible exact Foot.refl
    | with_reducible assumption
    | (with_reducible apply partsIn_dec; decide)
    | with_reducible apply Foot.next ?_ (State.reloadDone_foot ..) ?_
    )

theorem State.fwLoaded_foot (s : State) : Foot [.regs, .time, .clk, .sil, .pwr, .brg, .tw, .seq, .tamp, .cool, .tel, .inf, .acd, .fw, .ses, .sec, .bus, .mem] s (State.fwLoaded s) := by
  unfold State.fwLoaded
  try dsimp only
  repeat' (first
    | with_reducible exact Foot.refl
    | with_reducible assumption
    | (with_reducible apply partsIn_dec; decide)
    | with_reducible apply Foot.next ?_ (State.hwdtEnterA0_foot ..) ?_
    | with_reducible apply Foot.next ?_ (State.bringFail_foot ..) ?_
    | with_reducible apply Foot.next ?_ (State.transEnd_foot ..) ?_
    | with_reducible apply Foot.next ?_ (State.cfwLoad_foot ..) ?_
    | with_reducible apply Foot.next ?_ (State.cfwReady_foot ..) ?_
    | with_reducible apply Foot.next ?_ (State.modFw_foot ..) ?_
    | with_reducible apply Foot.next ?_ (State.modPwr_foot ..) ?_
    | with_reducible apply Foot.next ?_ (State.setAll_foot ..) ?_
    | with_reducible apply Foot.ite ?_ ?_
    | split
    )

theorem execFwLoadDone_foot {s : State} {t : State} (h : execFwLoadDone s = .next t) : Foot [.regs, .time, .clk, .sil, .pwr, .brg, .tw, .seq, .tamp, .cool, .tel, .inf, .acd, .fw, .ses, .sec, .bus, .mem] s t := by
  unfold execFwLoadDone at h
  try dsimp only at h
  with_reducible refine Foot.ofNext h ?_
  repeat' (first
    | with_reducible exact Foot.refl
    | with_reducible assumption
    | (with_reducible apply partsIn_dec; decide)
    | with_reducible apply Foot.next ?_ (State.fwLoaded_foot ..) ?_
    )

theorem execBringupRetry_foot {s : State} {t : State} (h : execBringupRetry s = .next t) : Foot [.regs, .pwr] s t := by
  unfold execBringupRetry at h
  try dsimp only at h
  with_reducible refine Foot.ofNext h ?_
  repeat' (first
    | with_reducible exact Foot.refl
    | with_reducible assumption
    | (with_reducible apply partsIn_dec; decide)
    | with_reducible apply Foot.next ?_ (State.bringUp_foot ..) ?_
    | with_reducible apply Foot.ite ?_ ?_
    )

theorem State.failRunClear_foot (s : State) : Foot [.regs, .pwr] s (State.failRunClear s) := by
  unfold State.failRunClear
  try dsimp only
  repeat' (first
    | with_reducible exact Foot.refl
    | with_reducible assumption
    | (with_reducible apply partsIn_dec; decide)
    | with_reducible apply Foot.next ?_ (State.modPwr_foot ..) ?_
    | with_reducible apply Foot.next ?_ (State.set_foot ..) ?_
    )

theorem execFailRunClear_foot {ini : Initiator} {s : State} {t : State} (h : execFailRunClear ini s = .next t) : Foot [.regs, .sil, .pwr, .bus] s t := by
  unfold execFailRunClear at h
  try dsimp only at h
  with_reducible refine Foot.ofNext h ?_
  repeat' (first
    | with_reducible exact Foot.refl
    | with_reducible assumption
    | (with_reducible apply partsIn_dec; decide)
    | with_reducible apply Foot.next ?_ (State.failRunClear_foot ..) ?_
    | with_reducible apply Foot.trans ?_ (State.command_foot _ _ _ _ ?_ ?_)
    )

theorem execTopRst_foot {ini : Initiator} {s : State} {t : State} (h : execTopRst ini s = .next t) : Foot [.regs, .time, .clk, .sil, .pwr, .brg, .tw, .seq, .tamp, .tel, .inf, .acd, .fw, .ses, .sec, .bus, .mem] s t := by
  unfold execTopRst at h
  try dsimp only at h
  with_reducible refine Foot.ofNext h ?_
  repeat' (first
    | with_reducible exact Foot.refl
    | with_reducible assumption
    | (with_reducible apply partsIn_dec; decide)
    | with_reducible apply Foot.next ?_ (State.topRequest_foot ..) ?_
    | with_reducible apply Foot.trans ?_ (State.command_foot _ _ _ _ ?_ ?_)
    )

theorem State.lpTrained_foot (s : State) (ok kept : Bool) : Foot [.regs, .pwr, .brg, .tel, .mem] s (State.lpTrained s ok kept) := by
  unfold State.lpTrained
  try dsimp only
  repeat' (first
    | with_reducible exact Foot.refl
    | with_reducible assumption
    | (with_reducible apply partsIn_dec; decide)
    | with_reducible apply Foot.next ?_ (State.recFirst_foot ..) ?_
    | with_reducible apply Foot.next ?_ (State.logTop_foot ..) ?_
    | with_reducible apply Foot.next ?_ (State.modTel_foot ..) ?_
    | with_reducible apply Foot.next ?_ (State.setIf_foot ..) ?_
    | with_reducible apply Foot.next ?_ (State.forget_foot ..) ?_
    | with_reducible apply Foot.next ?_ (State.modPwr_foot ..) ?_
    | with_reducible apply Foot.next ?_ (State.setAll_foot ..) ?_
    | with_reducible apply Foot.ite ?_ ?_
    )

theorem execLpddrTrainingDone_foot {ok kept : Bool} {s : State} {t : State} (h : execLpddrTrainingDone ok kept s = .next t) : Foot [.regs, .pwr, .brg, .tel, .mem] s t := by
  unfold execLpddrTrainingDone at h
  try dsimp only at h
  with_reducible refine Foot.ofNext h ?_
  repeat' (first
    | with_reducible exact Foot.refl
    | with_reducible assumption
    | (with_reducible apply partsIn_dec; decide)
    | with_reducible apply Foot.next ?_ (State.lpTrained_foot ..) ?_
    )

end Sys2Proof.Machine
end

