-- ==== Sys2Proof/Laws/FootBridge.lean ====
section
/-! SUPPORT. Footprints of the functions of Machine/Bridge.lean. -/

namespace Sys2Proof.Machine

theorem State.retrain_foot (s : State) : Foot [.regs, .brg, .tw, .tamp, .fw] s (State.retrain s) := by
  unfold State.retrain
  try dsimp only
  repeat' (first
    | with_reducible exact Foot.refl
    | with_reducible assumption
    | (with_reducible apply partsIn_dec; decide)
    | with_reducible apply Foot.next ?_ (State.quiesce_foot ..) ?_
    | with_reducible apply Foot.ite ?_ ?_
    )

theorem State.guardTake_foot (s : State) : Foot [.brg] s (State.guardTake s) := by
  unfold State.guardTake
  try dsimp only
  repeat' (first
    | with_reducible exact Foot.refl
    | with_reducible assumption
    | (with_reducible apply partsIn_dec; decide)
    | with_reducible apply Foot.next ?_ (State.modBrg_foot ..) ?_
    )

theorem State.beatCount_foot (s : State) (b : Beats) : Foot [.regs] s (State.beatCount s b) := by
  unfold State.beatCount
  try dsimp only
  repeat' (first
    | with_reducible exact Foot.refl
    | with_reducible assumption
    | (with_reducible apply partsIn_dec; decide)
    | with_reducible apply Foot.next ?_ (State.bump_foot ..) ?_
    )

theorem State.replayFail_foot (s : State) (vc dir : Nat) : Foot [.regs, .time, .clk, .sil, .pwr, .brg, .tw, .seq, .tamp, .tel, .inf, .acd, .fw, .ses, .sec, .bus, .mem] s (State.replayFail s vc dir) := by
  unfold State.replayFail
  try dsimp only
  repeat' (first
    | with_reducible exact Foot.refl
    | with_reducible assumption
    | (with_reducible apply partsIn_dec; decide)
    | with_reducible apply Foot.next ?_ (State.fenceHandle_foot ..) ?_
    | with_reducible apply Foot.next ?_ (State.fenceEnter_foot ..) ?_
    | with_reducible apply Foot.next ?_ (State.set_foot ..) ?_
    | with_reducible apply Foot.next ?_ (State.log_foot ..) ?_
    )

theorem State.message_foot {ps : List Part} (s : State) (b : Beats) (vc dir kind len addr : Nat) (arrive : State → State)
    (ha : ∀ t, Foot ps s t → Foot ps s (arrive t)) (hq : partsIn [.regs, .time, .clk, .sil, .pwr, .brg, .tw, .seq, .tamp, .tel, .inf, .acd, .fw, .ses, .sec, .bus, .mem] ps = true) :
    Foot ps s (State.message s b vc dir kind len addr arrive) := by
  have h : Foot ps s (s.beatCount b) := Foot.next Foot.refl ((State.beatCount_foot ..).mono (by decide)) hq
  unfold State.message
  dsimp only
  split
  · exact Foot.next h ((State.replayFail_foot ..).mono (by decide)) hq
  · exact ha _ (Foot.next h ((State.msgHeader_foot ..).mono (by decide)) hq)

theorem State.floorOne_foot (s : State) (due bit : Nat) (src dst : Fld) : Foot [.regs] s (State.floorOne s due bit src dst) := by
  unfold State.floorOne
  try dsimp only
  repeat' (first
    | with_reducible exact Foot.refl
    | with_reducible assumption
    | (with_reducible apply partsIn_dec; decide)
    | with_reducible apply Foot.next ?_ (State.set_foot ..) ?_
    | with_reducible apply Foot.ite ?_ ?_
    )

theorem State.floorCopy_foot (s : State) : Foot [.regs, .ses] s (State.floorCopy s) := by
  unfold State.floorCopy
  try dsimp only
  repeat' (first
    | with_reducible exact Foot.refl
    | with_reducible assumption
    | (with_reducible apply partsIn_dec; decide)
    | with_reducible apply Foot.next ?_ (State.floorOne_foot ..) ?_
    | with_reducible apply Foot.foldl (fun _ _ _ => ?_) ?_
    | with_reducible apply Foot.ite ?_ ?_
    | with_reducible apply Foot.next ?_ Foot.ses_upd ?_
    )

theorem State.guardArrive_foot (s : State) (tick : Nat) (vs : List (Nat × Nat)) : Foot [.tamp] s (State.guardArrive s tick vs) := by
  unfold State.guardArrive
  try dsimp only
  repeat' (first
    | with_reducible exact Foot.refl
    | with_reducible assumption
    | (with_reducible apply partsIn_dec; decide)
    | with_reducible apply Foot.foldl (fun _ _ _ => ?_) ?_
    | with_reducible apply Foot.next ?_ Foot.tamp_upd ?_
    )

theorem State.guardDeliver_foot (s : State) (b : Beats) : Foot [.regs, .time, .clk, .sil, .pwr, .brg, .tw, .seq, .tamp, .tel, .inf, .acd, .fw, .ses, .sec, .bus, .mem] s (State.guardDeliver s b) := by
  unfold State.guardDeliver
  try dsimp only
  repeat' (first
    | with_reducible exact Foot.refl
    | with_reducible assumption
    | (with_reducible apply partsIn_dec; decide)
    | with_reducible apply Foot.next ?_ (State.guardArrive_foot ..) ?_
    | with_reducible apply Foot.trans ?_ (State.message_foot _ _ _ _ _ _ _ _ (fun _ _ => ?_) ?_)
    | with_reducible apply Foot.next ?_ (State.guardTake_foot ..) ?_
    | with_reducible apply Foot.ite ?_ ?_
    | split
    )

theorem execGuardMessage_foot {beats : Beats} {s : State} {t : State} (h : execGuardMessage beats s = .next t) : Foot [.regs, .time, .clk, .sil, .pwr, .brg, .tw, .seq, .tamp, .tel, .inf, .acd, .fw, .ses, .sec, .bus, .mem] s t := by
  unfold execGuardMessage at h
  try dsimp only at h
  with_reducible refine Foot.ofNext h ?_
  repeat' (first
    | with_reducible exact Foot.refl
    | with_reducible assumption
    | (with_reducible apply partsIn_dec; decide)
    | with_reducible apply Foot.next ?_ (State.guardDeliver_foot ..) ?_
    )

theorem State.releaseDeliver_foot (s : State) (b : Beats) : Foot [.regs, .time, .clk, .sil, .pwr, .brg, .tw, .seq, .tamp, .tel, .inf, .acd, .fw, .ses, .sec, .bus, .mem] s (State.releaseDeliver s b) := by
  unfold State.releaseDeliver
  try dsimp only
  repeat' (first
    | with_reducible exact Foot.refl
    | with_reducible assumption
    | (with_reducible apply partsIn_dec; decide)
    | with_reducible apply Foot.next ?_ (State.clampReleaseAll_foot ..) ?_
    | with_reducible apply Foot.trans ?_ (State.message_foot _ _ _ _ _ _ _ _ (fun _ _ => ?_) ?_)
    | with_reducible apply Foot.next ?_ (State.guardTake_foot ..) ?_
    | with_reducible apply Foot.next ?_ (State.quiesce_foot ..) ?_
    | with_reducible apply Foot.ite ?_ ?_
    | split
    )

theorem execReleaseMessage_foot {beats : Beats} {s : State} {t : State} (h : execReleaseMessage beats s = .next t) : Foot [.regs, .time, .clk, .sil, .pwr, .brg, .tw, .seq, .tamp, .tel, .inf, .acd, .fw, .ses, .sec, .bus, .mem] s t := by
  unfold execReleaseMessage at h
  try dsimp only at h
  with_reducible refine Foot.ofNext h ?_
  repeat' (first
    | with_reducible exact Foot.refl
    | with_reducible assumption
    | (with_reducible apply partsIn_dec; decide)
    | with_reducible apply Foot.next ?_ (State.releaseDeliver_foot ..) ?_
    | with_reducible apply Foot.next ?_ (State.releaseDue_foot ..) ?_
    )

theorem execKeepalive_foot {s : State} {beats : Beats} {t : State} (h : execKeepalive s beats = .next t) : Foot [.regs, .time, .clk, .sil, .pwr, .brg, .tw, .seq, .tamp, .tel, .inf, .acd, .fw, .ses, .sec, .bus, .mem] s t := by
  unfold execKeepalive at h
  try dsimp only at h
  with_reducible refine Foot.ofNext h ?_
  repeat' (first
    | with_reducible exact Foot.refl
    | with_reducible assumption
    | (with_reducible apply partsIn_dec; decide)
    | with_reducible apply Foot.trans ?_ (State.message_foot _ _ _ _ _ _ _ _ (fun _ _ => ?_) ?_)
    | with_reducible apply Foot.ite ?_ ?_
    | dsimp only [id_eq]
    )

theorem execLivenessLost_foot {s : State} {t : State} (h : execLivenessLost s = .next t) : Foot [.regs, .time, .clk, .sil, .pwr, .brg, .tw, .seq, .tamp, .tel, .inf, .acd, .fw, .ses, .sec, .bus, .mem] s t := by
  unfold execLivenessLost at h
  try dsimp only at h
  with_reducible refine Foot.ofNext h ?_
  repeat' (first
    | with_reducible exact Foot.refl
    | with_reducible assumption
    | (with_reducible apply partsIn_dec; decide)
    | with_reducible apply Foot.next ?_ (State.topLost_foot ..) ?_
    | with_reducible apply Foot.ite ?_ ?_
    )

theorem State.mirrorWrite_foot (s : State) (e : List Nat) : Foot [.regs, .mem] s (State.mirrorWrite s e) := by
  unfold State.mirrorWrite
  exact Foot.next (Foot.next Foot.refl (State.set_foot ..) (by decide)) (Foot.setMem (fun h => memory_wf_memStore _ _ _ h)) (by decide)

theorem State.bulkArrive_foot (s : State) (m : BulkMsg) : Foot [.regs, .sil, .brg, .mem] s (State.bulkArrive s m) := by
  unfold State.bulkArrive
  try dsimp only
  repeat' (first
    | with_reducible exact Foot.refl
    | with_reducible assumption
    | (with_reducible apply partsIn_dec; decide)
    | with_reducible apply Foot.next ?_ (State.mirrorWrite_foot ..) ?_
    | with_reducible apply Foot.next ?_ (State.modBrg_foot ..) ?_
    | with_reducible apply Foot.next ?_ (State.set_foot ..) ?_
    | with_reducible apply Foot.next ?_ (State.admitEvent_foot ..) ?_
    | split
    )

theorem State.bulkDeliver_foot (s : State) (b : Beats) : Foot [.regs, .time, .clk, .sil, .pwr, .brg, .tw, .seq, .tamp, .tel, .inf, .acd, .fw, .ses, .sec, .bus, .mem] s (State.bulkDeliver s b) := by
  unfold State.bulkDeliver
  try dsimp only
  repeat' (first
    | with_reducible exact Foot.refl
    | with_reducible assumption
    | (with_reducible apply partsIn_dec; decide)
    | with_reducible apply Foot.next ?_ (State.bulkArrive_foot ..) ?_
    | with_reducible apply Foot.trans ?_ (State.message_foot _ _ _ _ _ _ _ _ (fun _ _ => ?_) ?_)
    | with_reducible apply Foot.ite ?_ ?_
    | split
    )

theorem execBulkMessage_foot {beats : Beats} {s : State} {t : State} (h : execBulkMessage beats s = .next t) : Foot [.regs, .time, .clk, .sil, .pwr, .brg, .tw, .seq, .tamp, .tel, .inf, .acd, .fw, .ses, .sec, .bus, .mem] s t := by
  unfold execBulkMessage at h
  try dsimp only at h
  with_reducible refine Foot.ofNext h ?_
  repeat' (first
    | with_reducible exact Foot.refl
    | with_reducible assumption
    | (with_reducible apply partsIn_dec; decide)
    | with_reducible apply Foot.next ?_ (State.bulkDeliver_foot ..) ?_
    )

theorem State.timeLoad_foot (s : State) : Foot [.time, .fresh] s (State.timeLoad s) := by
  unfold State.timeLoad
  try dsimp only
  repeat' (first
    | with_reducible exact Foot.refl
    | with_reducible assumption
    | (with_reducible apply partsIn_dec; decide)
    | with_reducible apply Foot.next ?_ (State.draw_foot ..) ?_
    | with_reducible apply Foot.next ?_ Foot.time_upd ?_
    )

theorem execTimeMessage_foot {s : State} {beats : Beats} {t : State} (h : execTimeMessage s beats = .next t) : Foot [.regs, .time, .clk, .sil, .pwr, .brg, .tw, .seq, .tamp, .tel, .inf, .acd, .fw, .ses, .sec, .bus, .mem, .fresh] s t := by
  unfold execTimeMessage at h
  try dsimp only at h
  with_reducible refine Foot.ofNext h ?_
  repeat' (first
    | with_reducible exact Foot.refl
    | with_reducible assumption
    | (with_reducible apply partsIn_dec; decide)
    | with_reducible apply Foot.next ?_ (State.timeLoad_foot ..) ?_
    | with_reducible apply Foot.trans ?_ (State.message_foot _ _ _ _ _ _ _ _ (fun _ _ => ?_) ?_)
    | with_reducible apply Foot.ite ?_ ?_
    )

theorem State.brgTrained_foot (s : State) : Foot [.regs, .time, .pwr, .brg, .fw, .ses, .fresh] s (State.brgTrained s) := by
  unfold State.brgTrained
  try dsimp only
  repeat' (first
    | with_reducible exact Foot.refl
    | with_reducible assumption
    | (with_reducible apply partsIn_dec; decide)
    | with_reducible apply Foot.next ?_ (State.timeLoad_foot ..) ?_
    | with_reducible apply Foot.next ?_ (State.floorCopy_foot ..) ?_
    | with_reducible apply Foot.next ?_ (State.setBrg_foot ..) ?_
    | with_reducible apply Foot.next ?_ (State.bump_foot ..) ?_
    | with_reducible apply Foot.next ?_ (State.modBrg_foot ..) ?_
    | with_reducible apply Foot.next ?_ (State.modPwr_foot ..) ?_
    | with_reducible apply Foot.ite ?_ ?_
    )

theorem State.brgTrainFail_foot (s : State) : Foot [.regs, .time, .clk, .sil, .pwr, .brg, .tw, .seq, .tamp, .tel, .inf, .acd, .fw, .ses, .sec, .bus, .mem] s (State.brgTrainFail s) := by
  unfold State.brgTrainFail
  try dsimp only
  repeat' (first
    | with_reducible exact Foot.refl
    | with_reducible assumption
    | (with_reducible apply partsIn_dec; decide)
    | with_reducible apply Foot.next ?_ (State.bringFail_foot ..) ?_
    | with_reducible apply Foot.next ?_ (State.modBrg_foot ..) ?_
    | with_reducible apply Foot.next ?_ (State.set_foot ..) ?_
    | with_reducible apply Foot.next ?_ (State.log_foot ..) ?_
    | with_reducible apply Foot.ite ?_ ?_
    )

theorem State.trainingDone_foot (s : State) (ok : Bool) : Foot [.regs, .time, .clk, .sil, .pwr, .brg, .tw, .seq, .tamp, .tel, .inf, .acd, .fw, .ses, .sec, .bus, .mem, .fresh] s (State.trainingDone s ok) := by
  unfold State.trainingDone
  try dsimp only
  repeat' (first
    | with_reducible exact Foot.refl
    | with_reducible assumption
    | (with_reducible apply partsIn_dec; decide)
    | with_reducible apply Foot.next ?_ (State.brgTrainFail_foot ..) ?_
    | with_reducible apply Foot.next ?_ (State.brgTrained_foot ..) ?_
    | with_reducible apply Foot.ite ?_ ?_
    )

theorem execBridgeTrainingDone_foot {ok : Bool} {s : State} {t : State} (h : execBridgeTrainingDone ok s = .next t) : Foot [.regs, .time, .clk, .sil, .pwr, .brg, .tw, .seq, .tamp, .tel, .inf, .acd, .fw, .ses, .sec, .bus, .mem, .fresh] s t := by
  unfold execBridgeTrainingDone at h
  try dsimp only at h
  with_reducible refine Foot.ofNext h ?_
  repeat' (first
    | with_reducible exact Foot.refl
    | with_reducible assumption
    | (with_reducible apply partsIn_dec; decide)
    | with_reducible apply Foot.next ?_ (State.trainingDone_foot ..) ?_
    )

theorem execTrainRetry_foot {s : State} {t : State} (h : execTrainRetry s = .next t) : Foot [.brg] s t := by
  unfold execTrainRetry at h
  try dsimp only at h
  with_reducible refine Foot.ofNext h ?_
  repeat' (first
    | with_reducible exact Foot.refl
    | with_reducible assumption
    | (with_reducible apply partsIn_dec; decide)
    | with_reducible apply Foot.next ?_ (State.modBrg_foot ..) ?_
    | with_reducible apply Foot.ite ?_ ?_
    )

theorem State.quiesceEnd_foot (s : State) : Foot [.regs, .time, .clk, .sil, .pwr, .brg, .tw, .seq, .tamp, .tel, .inf, .acd, .fw, .ses, .sec, .bus, .mem] s (State.quiesceEnd s) := by
  unfold State.quiesceEnd
  try dsimp only
  repeat' (first
    | with_reducible exact Foot.refl
    | with_reducible assumption
    | (with_reducible apply partsIn_dec; decide)
    | with_reducible apply Foot.next ?_ (State.a2Finish_foot ..) ?_
    | with_reducible apply Foot.next ?_ (State.topInReset_foot ..) ?_
    | with_reducible apply Foot.next ?_ (State.train_foot ..) ?_
    | with_reducible apply Foot.next ?_ (State.leaveUp_foot ..) ?_
    | with_reducible apply Foot.ite ?_ ?_
    | split
    )

theorem execQuiesceEnd_foot {s : State} {t : State} (h : execQuiesceEnd s = .next t) : Foot [.regs, .time, .clk, .sil, .pwr, .brg, .tw, .seq, .tamp, .tel, .inf, .acd, .fw, .ses, .sec, .bus, .mem] s t := by
  unfold execQuiesceEnd at h
  try dsimp only at h
  with_reducible refine Foot.ofNext h ?_
  repeat' (first
    | with_reducible exact Foot.refl
    | with_reducible assumption
    | (with_reducible apply partsIn_dec; decide)
    | with_reducible apply Foot.next ?_ (State.quiesceEnd_foot ..) ?_
    )

theorem State.fence_foot (s : State) : Foot [.regs, .time, .clk, .sil, .pwr, .brg, .tw, .seq, .tamp, .tel, .inf, .acd, .fw, .ses, .sec, .bus, .mem] s (State.fence s) := by
  unfold State.fence
  try dsimp only
  repeat' (first
    | with_reducible exact Foot.refl
    | with_reducible assumption
    | (with_reducible apply partsIn_dec; decide)
    | with_reducible apply Foot.next ?_ (State.fenceHandle_foot ..) ?_
    | with_reducible apply Foot.next ?_ (State.fenceEnter_foot ..) ?_
    | with_reducible apply Foot.next ?_ (State.set_foot ..) ?_
    | with_reducible apply Foot.ite ?_ ?_
    )

theorem execFence_foot {ini : Initiator} {s : State} {t : State} (h : execFence ini s = .next t) : Foot [.regs, .time, .clk, .sil, .pwr, .brg, .tw, .seq, .tamp, .tel, .inf, .acd, .fw, .ses, .sec, .bus, .mem] s t := by
  unfold execFence at h
  try dsimp only at h
  with_reducible refine Foot.ofNext h ?_
  repeat' (first
    | with_reducible exact Foot.refl
    | with_reducible assumption
    | (with_reducible apply partsIn_dec; decide)
    | with_reducible apply Foot.next ?_ (State.fence_foot ..) ?_
    | with_reducible apply Foot.trans ?_ (State.command_foot _ _ _ _ ?_ ?_)
    )

theorem execRetrain_foot {ini : Initiator} {s : State} {t : State} (h : execRetrain ini s = .next t) : Foot [.regs, .sil, .brg, .tw, .tamp, .fw, .bus] s t := by
  unfold execRetrain at h
  try dsimp only at h
  with_reducible refine Foot.ofNext h ?_
  repeat' (first
    | with_reducible exact Foot.refl
    | with_reducible assumption
    | (with_reducible apply partsIn_dec; decide)
    | with_reducible apply Foot.next ?_ (State.retrain_foot ..) ?_
    | with_reducible apply Foot.trans ?_ (State.command_foot _ _ _ _ ?_ ?_)
    )

theorem execBrgCntClr_foot {ini : Initiator} {s : State} {t : State} (h : execBrgCntClr ini s = .next t) : Foot [.regs, .sil, .bus] s t := by
  unfold execBrgCntClr at h
  try dsimp only at h
  with_reducible refine Foot.ofNext h ?_
  repeat' (first
    | with_reducible exact Foot.refl
    | with_reducible assumption
    | (with_reducible apply partsIn_dec; decide)
    | with_reducible apply Foot.trans ?_ (State.command_foot _ _ _ _ ?_ ?_)
    | with_reducible apply Foot.next ?_ (State.setAll_foot ..) ?_
    )

theorem State.holdNext_foot (s : State) : Foot [.brg, .tamp] s (State.holdNext s) := by
  unfold State.holdNext
  try dsimp only
  repeat' (first
    | with_reducible exact Foot.refl
    | with_reducible assumption
    | (with_reducible apply partsIn_dec; decide)
    | with_reducible apply Foot.next ?_ (State.modBrg_foot ..) ?_
    | with_reducible apply Foot.ite ?_ ?_
    | split
    | with_reducible apply Foot.next ?_ Foot.tamp_upd ?_
    )

theorem State.holdExpiry_foot (s : State) : Foot [.regs, .brg, .tw, .tamp] s (State.holdExpiry s) := by
  unfold State.holdExpiry
  try dsimp only
  repeat' (first
    | with_reducible exact Foot.refl
    | with_reducible assumption
    | (with_reducible apply partsIn_dec; decide)
    | with_reducible apply Foot.next ?_ (State.holdNext_foot ..) ?_
    | with_reducible apply Foot.next ?_ (State.clampReleaseAll_foot ..) ?_
    | with_reducible apply Foot.ite ?_ ?_
    )

theorem execHoldExpiry_foot {s : State} {t : State} (h : execHoldExpiry s = .next t) : Foot [.regs, .brg, .tw, .tamp] s t := by
  unfold execHoldExpiry at h
  try dsimp only at h
  with_reducible refine Foot.ofNext h ?_
  repeat' (first
    | with_reducible exact Foot.refl
    | with_reducible assumption
    | (with_reducible apply partsIn_dec; decide)
    | with_reducible apply Foot.next ?_ (State.holdExpiry_foot ..) ?_
    )

end Sys2Proof.Machine
end

