-- ==== Sys2Proof/Laws/FootSignals.lean ====
section
/-! SUPPORT. Footprints of the functions of Machine/Signals.lean. -/

namespace Sys2Proof.Machine

theorem State.vinSample_foot (s : State) (mv : Nat) : Foot [.regs] s (State.vinSample s mv) := by
  unfold State.vinSample
  try dsimp only
  repeat' (first
    | with_reducible exact Foot.refl
    | with_reducible assumption
    | (with_reducible apply partsIn_dec; decide)
    | with_reducible apply Foot.next ?_ (State.set_foot ..) ?_
    )

end Sys2Proof.Machine
end

