-- ==== Sys2Proof/Laws/FootReset.lean ====
section
/-! SUPPORT. Footprints of the functions of Machine/Reset.lean. -/

namespace Sys2Proof.Machine

theorem State.rstCauses_foot (s : State) (m : Nat) : Foot [.regs] s (State.rstCauses s m) := by
  unfold State.rstCauses
  try dsimp only
  repeat' (first
    | with_reducible exact Foot.refl
    | with_reducible assumption
    | (with_reducible apply partsIn_dec; decide)
    | with_reducible apply Foot.next ?_ (State.setAll_foot ..) ?_
    )

theorem State.rstCauseAdd_foot (s : State) (m : Nat) : Foot [.regs] s (State.rstCauseAdd s m) := by
  unfold State.rstCauseAdd
  try dsimp only
  repeat' (first
    | with_reducible exact Foot.refl
    | with_reducible assumption
    | (with_reducible apply partsIn_dec; decide)
    | with_reducible apply Foot.next ?_ (State.setAll_foot ..) ?_
    )

theorem State.aoRelease_foot (s : State) : Foot [.sil] s (State.aoRelease s) := by
  unfold State.aoRelease
  try dsimp only
  repeat' (first
    | with_reducible exact Foot.refl
    | with_reducible assumption
    | (with_reducible apply partsIn_dec; decide)
    | with_reducible apply Foot.foldl (fun _ _ _ => ?_) ?_
    | with_reducible apply Foot.next ?_ Foot.sil_upd ?_
    )

theorem State.testStop_foot (s : State) : Foot [.regs, .sil, .tw, .seq, .tamp] s (State.testStop s) := by
  unfold State.testStop
  try dsimp only
  repeat' (first
    | with_reducible exact Foot.refl
    | with_reducible assumption
    | (with_reducible apply partsIn_dec; decide)
    | with_reducible apply Foot.next ?_ (State.marginReturnAll_foot ..) ?_
    | with_reducible apply Foot.next ?_ (State.marginStop_foot ..) ?_
    | with_reducible apply Foot.next ?_ (State.set_foot ..) ?_
    | with_reducible apply Foot.ite ?_ ?_
    )

theorem State.warmLose_foot (s : State) : Foot [.regs, .time, .clk, .sil, .pwr, .brg, .tw, .seq, .tamp, .cool, .tel, .inf, .acd, .fw, .ses, .sec, .bus, .mem] s (State.warmLose s) := by
  unfold State.warmLose
  try dsimp only
  repeat' (first
    | with_reducible exact Foot.refl
    | with_reducible assumption
    | (with_reducible apply partsIn_dec; decide)
    | with_reducible apply Foot.next ?_ (State.twCut_foot ..) ?_
    | with_reducible apply Foot.next ?_ (State.keeperLose_foot ..) ?_
    | with_reducible apply Foot.next ?_ (State.consStop_foot ..) ?_
    | with_reducible apply Foot.next ?_ (State.baseLose_foot ..) ?_
    | with_reducible apply Foot.next ?_ (State.testStop_foot ..) ?_
    | with_reducible apply Foot.next ?_ (State.brgToOff_foot ..) ?_
    | with_reducible apply Foot.next ?_ (State.topDieLose_foot ..) ?_
    | with_reducible apply Foot.next ?_ (State.forget_foot ..) ?_
    | with_reducible apply Foot.next ?_ (State.modPwr_foot ..) ?_
    | with_reducible apply Foot.next ?_ (State.set_foot ..) ?_
    )

theorem State.warmStart_foot (s : State) (m : Nat) : Foot [.regs, .time, .clk, .sil, .nvm, .pwr, .brg, .tw, .seq, .tamp, .cool, .tel, .inf, .acd, .key, .fw, .ses, .sec, .bus, .mem] s (State.warmStart s m) := by
  unfold State.warmStart
  try dsimp only
  repeat' (first
    | with_reducible exact Foot.refl
    | with_reducible assumption
    | (with_reducible apply partsIn_dec; decide)
    | with_reducible apply Foot.next ?_ (State.warmLose_foot ..) ?_
    | with_reducible apply Foot.next ?_ (State.aoRelease_foot ..) ?_
    | with_reducible apply Foot.next ?_ (State.rstCauses_foot ..) ?_
    | with_reducible apply Foot.next ?_ (State.silWarm_foot ..) ?_
    | with_reducible apply Foot.next ?_ (State.seqHold_foot ..) ?_
    | with_reducible apply Foot.next ?_ (State.bump_foot ..) ?_
    | with_reducible apply Foot.next ?_ (State.setIf_foot ..) ?_
    | with_reducible apply Foot.next ?_ (State.modClk_foot ..) ?_
    | with_reducible apply Foot.next ?_ (State.modPwr_foot ..) ?_
    | with_reducible apply Foot.next ?_ (State.dbgLock_foot ..) ?_
    | with_reducible apply Foot.next ?_ (State.presClose_foot ..) ?_
    | with_reducible apply Foot.next ?_ (State.modKey_foot ..) ?_
    | with_reducible apply Foot.ite ?_ ?_
    | with_reducible apply Foot.next ?_ Foot.nvm_upd ?_
    )

theorem State.warmRequest_foot (s : State) (m : Nat) : Foot [.regs, .time, .clk, .sil, .nvm, .pwr, .brg, .tw, .seq, .tamp, .cool, .tel, .inf, .acd, .key, .fw, .ses, .sec, .bus, .mem] s (State.warmRequest s m) := by
  unfold State.warmRequest
  try dsimp only
  repeat' (first
    | with_reducible exact Foot.refl
    | with_reducible assumption
    | (with_reducible apply partsIn_dec; decide)
    | with_reducible apply Foot.next ?_ (State.warmStart_foot ..) ?_
    | with_reducible apply Foot.next ?_ (State.rstCauseAdd_foot ..) ?_
    | with_reducible apply Foot.next ?_ (State.modPwr_foot ..) ?_
    | with_reducible apply Foot.ite ?_ ?_
    | split
    )

theorem State.topMerged_foot (s : State) (m : Nat) : Foot [.regs] s (State.topMerged s m) := by
  unfold State.topMerged
  try dsimp only
  repeat' (first
    | with_reducible exact Foot.refl
    | with_reducible assumption
    | (with_reducible apply partsIn_dec; decide)
    | with_reducible apply Foot.next ?_ (State.topCauses_foot ..) ?_
    | with_reducible apply Foot.ite ?_ ?_
    )

theorem State.jumper_foot (s : State) (present : Bool) : Foot [.regs, .sil, .key] s (State.jumper s present) := by
  unfold State.jumper
  try dsimp only
  repeat' (first
    | with_reducible exact Foot.refl
    | with_reducible assumption
    | (with_reducible apply partsIn_dec; decide)
    | with_reducible apply Foot.next ?_ (State.setB_foot ..) ?_
    | with_reducible apply Foot.next ?_ (State.presOpen_foot ..) ?_
    | with_reducible apply Foot.ite ?_ ?_
    )

theorem State.romRun_foot (s : State) (from_ : BringFrom) : Foot [.regs, .time, .clk, .sil, .pwr, .brg, .tw, .seq, .tamp, .tel, .inf, .acd, .fw, .ses, .sec, .bus, .mem] s (State.romRun s from_) := by
  unfold State.romRun
  try dsimp only
  repeat' (first
    | with_reducible exact Foot.refl
    | with_reducible assumption
    | (with_reducible apply partsIn_dec; decide)
    | with_reducible apply Foot.next ?_ (State.topPowerOff_foot ..) ?_
    | with_reducible apply Foot.next ?_ (State.bringUp_foot ..) ?_
    | with_reducible apply Foot.next ?_ (State.kfwLoad_foot ..) ?_
    | with_reducible apply Foot.ite ?_ ?_
    )

theorem State.warmRom_foot (s : State) : Foot [.regs, .time, .clk, .sil, .nvm, .pwr, .brg, .tw, .seq, .tamp, .tel, .inf, .acd, .fw, .ses, .sec, .bus, .mem] s (State.warmRom s) := by
  unfold State.warmRom
  try dsimp only
  repeat' (first
    | with_reducible exact Foot.refl
    | with_reducible assumption
    | (with_reducible apply partsIn_dec; decide)
    | with_reducible apply Foot.next ?_ (State.nvmStart_foot ..) ?_
    | with_reducible apply Foot.next ?_ (State.romRun_foot ..) ?_
    | with_reducible apply Foot.next ?_ (State.kprArm_foot ..) ?_
    | with_reducible apply Foot.next ?_ (State.modPwr_foot ..) ?_
    )

theorem State.warmRelease_foot (s : State) (jumper : Bool) : Foot [.regs, .time, .clk, .sil, .nvm, .pwr, .brg, .tw, .seq, .tamp, .tel, .inf, .acd, .key, .fw, .ses, .sec, .bus, .mem] s (State.warmRelease s jumper) := by
  unfold State.warmRelease
  try dsimp only
  repeat' (first
    | with_reducible exact Foot.refl
    | with_reducible assumption
    | (with_reducible apply partsIn_dec; decide)
    | with_reducible apply Foot.next ?_ (State.warmRom_foot ..) ?_
    | with_reducible apply Foot.next ?_ (State.jumper_foot ..) ?_
    | with_reducible apply Foot.next ?_ (State.seqUnhold_foot ..) ?_
    | with_reducible apply Foot.next ?_ (State.modPwr_foot ..) ?_
    | with_reducible apply Foot.ite ?_ ?_
    )

theorem execWarmResetRelease_foot {jumper : Bool} {s : State} {t : State} (h : execWarmResetRelease jumper s = .next t) : Foot [.regs, .time, .clk, .sil, .nvm, .pwr, .brg, .tw, .seq, .tamp, .tel, .inf, .acd, .key, .fw, .ses, .sec, .bus, .mem] s t := by
  unfold execWarmResetRelease at h
  try dsimp only at h
  with_reducible refine Foot.ofNext h ?_
  repeat' (first
    | with_reducible exact Foot.refl
    | with_reducible assumption
    | (with_reducible apply partsIn_dec; decide)
    | with_reducible apply Foot.next ?_ (State.warmRelease_foot ..) ?_
    | with_reducible apply Foot.next ?_ (State.jumper_foot ..) ?_
    | with_reducible apply Foot.ite ?_ ?_
    )

theorem execWarmKey_foot {ini : Initiator} {key : Fin 256} {s : State} {t : State} (h : execWarmKey ini key s = .next t) : Foot [.regs, .time, .clk, .sil, .nvm, .pwr, .brg, .tw, .seq, .tamp, .cool, .tel, .inf, .acd, .key, .fw, .ses, .sec, .bus, .mem] s t := by
  unfold execWarmKey at h
  try dsimp only at h
  with_reducible refine Foot.ofNext h ?_
  repeat' (first
    | with_reducible exact Foot.refl
    | with_reducible assumption
    | (with_reducible apply partsIn_dec; decide)
    | with_reducible apply Foot.next ?_ (State.warmRequest_foot ..) ?_
    | with_reducible apply Foot.trans ?_ (State.command_foot _ _ _ _ ?_ ?_)
    | with_reducible apply Foot.ite ?_ ?_
    )

theorem execSysRstNFall_foot {s : State} {t : State} (h : execSysRstNFall s = .next t) : Foot [.regs, .time, .clk, .sil, .nvm, .pwr, .brg, .tw, .seq, .tamp, .cool, .tel, .inf, .acd, .key, .fw, .ses, .sec, .bus, .mem] s t := by
  unfold execSysRstNFall at h
  try dsimp only at h
  with_reducible refine Foot.ofNext h ?_
  repeat' (first
    | with_reducible exact Foot.refl
    | with_reducible assumption
    | (with_reducible apply partsIn_dec; decide)
    | with_reducible apply Foot.next ?_ (State.warmRequest_foot ..) ?_
    | with_reducible apply Foot.next ?_ (State.modPwr_foot ..) ?_
    )

theorem State.powerLost_foot (s : State) : Foot [.regs, .time, .clk, .sil, .nvm, .pwr, .brg, .tw, .seq, .tamp, .cool, .tel, .inf, .acd, .key, .fw, .ses, .sec, .bus, .mem] s (State.powerLost s) := by
  refine ⟨fun p hp => ?_, fun _ => ?_, fun _ => ?_⟩ <;> unfold State.powerLost <;> dsimp only
  · split <;> (cases p <;> first | rfl | exact absurd (by simp) hp)
  · split <;> rfl
  · exact ascending_regSet _ _ rfl

theorem State.rollback_foot (s : State) (e : Nat × Nat) : Foot [.regs, .sil] s (State.rollback s e) := by
  unfold State.rollback
  try dsimp only
  repeat' (first
    | with_reducible exact Foot.refl
    | with_reducible assumption
    | (with_reducible apply partsIn_dec; decide)
    | with_reducible apply Foot.next ?_ (State.bump_foot ..) ?_
    | with_reducible apply Foot.next ?_ (State.log_foot ..) ?_
    )

theorem State.journalScan_foot (s : State) (puf : Bool) : Foot [.regs, .sil, .nvm, .seq, .key] s (State.journalScan s puf) := by
  unfold State.journalScan
  try dsimp only
  repeat' (first
    | with_reducible exact Foot.refl
    | with_reducible assumption
    | (with_reducible apply partsIn_dec; decide)
    | with_reducible apply Foot.next ?_ (State.commitRegs_foot ..) ?_
    | with_reducible apply Foot.next ?_ (State.rollback_foot ..) ?_
    | with_reducible apply Foot.next ?_ (State.modSeq_foot ..) ?_
    | with_reducible apply Foot.next ?_ (State.setAll_foot ..) ?_
    | with_reducible apply Foot.next ?_ (State.set_foot ..) ?_
    | with_reducible apply Foot.next ?_ (State.log_foot ..) ?_
    | with_reducible apply Foot.foldl (fun _ _ _ => ?_) ?_
    | with_reducible apply Foot.ite ?_ ?_
    | with_reducible apply Foot.next ?_ (Foot.setRegs (fun h => ascending_regsOver _ (ascending_regsOver _ h))) ?_
    | with_reducible apply Foot.next ?_ Foot.regs_key_upd ?_
    | with_reducible apply Foot.next ?_ Foot.key_upd ?_
    )

theorem State.coldRom_foot (s : State) (puf : Bool) (mis : List Nat) : Foot [.regs, .time, .clk, .sil, .nvm, .pwr, .brg, .tw, .seq, .tamp, .cool, .tel, .inf, .acd, .key, .fw, .ses, .sec, .bus, .mem, .fresh] s (State.coldRom s puf mis) := by
  unfold State.coldRom
  try dsimp only
  repeat' (first
    | with_reducible exact Foot.refl
    | with_reducible assumption
    | (with_reducible apply partsIn_dec; decide)
    | with_reducible apply Foot.next ?_ (State.acdLoad_foot ..) ?_
    | with_reducible apply Foot.next ?_ (State.journalScan_foot ..) ?_
    | with_reducible apply Foot.next ?_ (State.romRun_foot ..) ?_
    | with_reducible apply Foot.next ?_ (State.jumper_foot ..) ?_
    | with_reducible apply Foot.next ?_ (State.kprArm_foot ..) ?_
    | with_reducible apply Foot.next ?_ (State.modPwr_foot ..) ?_
    | with_reducible apply Foot.ite ?_ ?_
    )

theorem State.placeJournal_foot (s : State) (a0 : Option Journal) : Foot [.regs, .nvm] s (State.placeJournal s a0) := by
  unfold State.placeJournal
  try dsimp only
  repeat' (first
    | with_reducible exact Foot.refl
    | with_reducible assumption
    | (with_reducible apply partsIn_dec; decide)
    | with_reducible apply Foot.next ?_ (State.modNvm_foot ..) ?_
    | with_reducible apply Foot.next ?_ (State.set_foot ..) ?_
    | split
    )

theorem State.place_foot (s : State) (a0 : Option Placed) : Foot [.regs, .nvm, .otp, .flash] s (State.place s a0) := by
  unfold State.place
  try dsimp only
  repeat' (first
    | with_reducible exact Foot.refl
    | with_reducible assumption
    | (with_reducible apply partsIn_dec; decide)
    | with_reducible apply Foot.next ?_ (State.placeJournal_foot ..) ?_
    | split
    | with_reducible apply Foot.next ?_ Foot.otp_flash_upd ?_
    | with_reducible apply Foot.next ?_ Foot.flash_upd ?_
    | with_reducible apply Foot.next ?_ Foot.otp_upd ?_
    )

theorem State.coldPor_foot (s : State) (b : BootIn) : Foot [.regs, .time, .clk, .sil, .nvm, .pwr, .brg, .tw, .seq, .tamp, .cool, .tel, .inf, .otp, .acd, .key, .fw, .ses, .sec, .flash, .bus, .mem] s (State.coldPor s b) := by
  unfold State.coldPor
  try dsimp only
  repeat' (first
    | with_reducible exact Foot.refl
    | with_reducible assumption
    | (with_reducible apply partsIn_dec; decide)
    | with_reducible apply Foot.next ?_ (State.place_foot ..) ?_
    | with_reducible apply Foot.next ?_ (State.powerLost_foot ..) ?_
    | with_reducible apply Foot.next ?_ (State.rstCauses_foot ..) ?_
    | with_reducible apply Foot.next ?_ (State.modSeq_foot ..) ?_
    | with_reducible apply Foot.next ?_ (State.modPwr_foot ..) ?_
    | with_reducible apply Foot.next ?_ (State.vinSample_foot ..) ?_
    | with_reducible apply Foot.next ?_ (State.setAll_foot ..) ?_
    | with_reducible apply Foot.next ?_ (State.admitEvent_foot ..) ?_
    | with_reducible apply Foot.ite ?_ ?_
    | split
    )

theorem State.testHold_foot (s : State) (b : BootIn) : Foot [.regs, .time, .clk, .sil, .nvm, .pwr, .brg, .tw, .seq, .tamp, .cool, .tel, .inf, .otp, .acd, .key, .fw, .ses, .sec, .flash, .bus, .mem] s (State.testHold s b) := by
  unfold State.testHold
  try dsimp only
  repeat' (first
    | with_reducible exact Foot.refl
    | with_reducible assumption
    | (with_reducible apply partsIn_dec; decide)
    | with_reducible apply Foot.next ?_ (State.place_foot ..) ?_
    | with_reducible apply Foot.next ?_ (State.powerLost_foot ..) ?_
    | with_reducible apply Foot.next ?_ (State.modPwr_foot ..) ?_
    )

theorem execColdPor_foot {boot : BootIn} {s : State} {t : State} (h : execColdPor boot s = .next t) : Foot [.regs, .time, .clk, .sil, .nvm, .pwr, .brg, .tw, .seq, .tamp, .cool, .tel, .inf, .otp, .acd, .key, .fw, .ses, .sec, .flash, .bus, .mem] s t := by
  unfold execColdPor at h
  try dsimp only at h
  with_reducible refine Foot.ofNext h ?_
  repeat' (first
    | with_reducible exact Foot.refl
    | with_reducible assumption
    | (with_reducible apply partsIn_dec; decide)
    | with_reducible apply Foot.next ?_ (State.testHold_foot ..) ?_
    | with_reducible apply Foot.next ?_ (State.coldPor_foot ..) ?_
    | with_reducible apply Foot.ite ?_ ?_
    )

theorem execBor_foot {s : State} {t : State} (h : execBor s = .next t) : Foot [.regs, .time, .clk, .sil, .nvm, .pwr, .brg, .tw, .seq, .tamp, .cool, .tel, .inf, .acd, .key, .fw, .ses, .sec, .bus, .mem] s t := by
  unfold execBor at h
  try dsimp only at h
  with_reducible refine Foot.ofNext h ?_
  repeat' (first
    | with_reducible exact Foot.refl
    | with_reducible assumption
    | (with_reducible apply partsIn_dec; decide)
    | with_reducible apply Foot.next ?_ (State.powerLost_foot ..) ?_
    | with_reducible apply Foot.next ?_ (State.modPwr_foot ..) ?_
    )

theorem execSysRstNRise_foot {jumper : Bool} {s : State} {t : State} (h : execSysRstNRise jumper s = .next t) : Foot [.regs, .time, .clk, .sil, .nvm, .pwr, .brg, .tw, .seq, .tamp, .cool, .tel, .inf, .acd, .key, .fw, .ses, .sec, .bus, .mem, .fresh] s t := by
  unfold execSysRstNRise at h
  try dsimp only at h
  with_reducible refine Foot.ofNext h ?_
  repeat' (first
    | with_reducible exact Foot.refl
    | with_reducible assumption
    | (with_reducible apply partsIn_dec; decide)
    | with_reducible apply Foot.next ?_ (State.coldRom_foot ..) ?_
    | with_reducible apply Foot.next ?_ (State.warmRelease_foot ..) ?_
    | with_reducible apply Foot.next ?_ (State.jumper_foot ..) ?_
    | with_reducible apply Foot.next ?_ (State.modPwr_foot ..) ?_
    | with_reducible apply Foot.ite ?_ ?_
    | split
    )

theorem State.a3Leave_foot (s : State) : Foot [.regs, .sil, .nvm, .pwr, .tw, .acd, .fw, .mem] s (State.a3Leave s) := by
  unfold State.a3Leave
  try dsimp only
  repeat' (first
    | with_reducible exact Foot.refl
    | with_reducible assumption
    | (with_reducible apply partsIn_dec; decide)
    | with_reducible apply Foot.next ?_ (State.nvmStart_foot ..) ?_
    | with_reducible apply Foot.next ?_ (State.araWant_foot ..) ?_
    | with_reducible apply Foot.next ?_ (State.aoRelease_foot ..) ?_
    | with_reducible apply Foot.next ?_ (State.pwrShow_foot ..) ?_
    | with_reducible apply Foot.next ?_ (State.pwrLog_foot ..) ?_
    | with_reducible apply Foot.next ?_ (State.bringUp_foot ..) ?_
    | with_reducible apply Foot.next ?_ (State.kprArm_foot ..) ?_
    | with_reducible apply Foot.next ?_ (State.kfwLoad_foot ..) ?_
    | with_reducible apply Foot.next ?_ (State.modPwr_foot ..) ?_
    | with_reducible apply Foot.foldl (fun _ _ _ => ?_) ?_
    | with_reducible apply Foot.ite ?_ ?_
    )

theorem State.romGo_foot (s : State) : Foot [.regs, .time, .clk, .sil, .nvm, .pwr, .brg, .tw, .seq, .tamp, .cool, .tel, .inf, .acd, .key, .fw, .ses, .sec, .bus, .mem, .fresh] s (State.romGo s) := by
  unfold State.romGo
  try dsimp only
  repeat' (first
    | with_reducible exact Foot.refl
    | with_reducible assumption
    | (with_reducible apply partsIn_dec; decide)
    | with_reducible apply Foot.next ?_ (State.a3Leave_foot ..) ?_
    | with_reducible apply Foot.next ?_ (State.coldRom_foot ..) ?_
    | with_reducible apply Foot.next ?_ (State.warmRom_foot ..) ?_
    | split
    )

theorem execIoscRdyRise_foot {s : State} {t : State} (h : execIoscRdyRise s = .next t) : Foot [.regs, .time, .clk, .sil, .nvm, .pwr, .brg, .tw, .seq, .tamp, .cool, .tel, .inf, .acd, .key, .fw, .ses, .sec, .bus, .mem, .fresh] s t := by
  unfold execIoscRdyRise at h
  try dsimp only at h
  with_reducible refine Foot.ofNext h ?_
  repeat' (first
    | with_reducible exact Foot.refl
    | with_reducible assumption
    | (with_reducible apply partsIn_dec; decide)
    | with_reducible apply Foot.next ?_ (State.ioscRise_foot ..) ?_
    | with_reducible apply Foot.next ?_ (State.romGo_foot ..) ?_
    | with_reducible apply Foot.next ?_ (State.baseTo_foot ..) ?_
    | with_reducible apply Foot.ite ?_ ?_
    )

theorem execIoscStartTimeout_foot {s : State} {t : State} (h : execIoscStartTimeout s = .next t) : Foot [.regs, .time, .clk, .sil, .nvm, .pwr, .brg, .tw, .seq, .tamp, .cool, .tel, .inf, .acd, .key, .fw, .ses, .sec, .bus, .mem, .fresh] s t := by
  unfold execIoscStartTimeout at h
  try dsimp only at h
  with_reducible refine Foot.ofNext h ?_
  repeat' (first
    | with_reducible exact Foot.refl
    | with_reducible assumption
    | (with_reducible apply partsIn_dec; decide)
    | with_reducible apply Foot.next ?_ (State.ioscDead_foot ..) ?_
    | with_reducible apply Foot.next ?_ (State.romGo_foot ..) ?_
    | with_reducible apply Foot.ite ?_ ?_
    )

theorem State.bow_foot (s : State) (mv : Nat) : Foot [.regs, .nvm, .pwr] s (State.bow s mv) := by
  unfold State.bow
  try dsimp only
  repeat' (first
    | with_reducible exact Foot.refl
    | with_reducible assumption
    | (with_reducible apply partsIn_dec; decide)
    | with_reducible apply Foot.next ?_ (State.setIf_foot ..) ?_
    | with_reducible apply Foot.next ?_ (State.modNvm_foot ..) ?_
    | with_reducible apply Foot.next ?_ (State.modPwr_foot ..) ?_
    | with_reducible apply Foot.next ?_ (State.vinSample_foot ..) ?_
    | with_reducible apply Foot.next ?_ (State.setAll_foot ..) ?_
    | with_reducible apply Foot.ite ?_ ?_
    )

theorem execBow_foot {mv : Fin 4096} {s : State} {t : State} (h : execBow mv s = .next t) : Foot [.regs, .nvm, .pwr] s t := by
  unfold execBow at h
  try dsimp only at h
  with_reducible refine Foot.ofNext h ?_
  repeat' (first
    | with_reducible exact Foot.refl
    | with_reducible assumption
    | (with_reducible apply partsIn_dec; decide)
    | with_reducible apply Foot.next ?_ (State.bow_foot ..) ?_
    )

theorem State.bowRecover_foot (s : State) (minMv mv : Nat) : Foot [.regs, .sil, .nvm, .pwr] s (State.bowRecover s minMv mv) := by
  unfold State.bowRecover
  try dsimp only
  repeat' (first
    | with_reducible exact Foot.refl
    | with_reducible assumption
    | (with_reducible apply partsIn_dec; decide)
    | with_reducible apply Foot.next ?_ (State.nvmStart_foot ..) ?_
    | with_reducible apply Foot.next ?_ (State.bump_foot ..) ?_
    | with_reducible apply Foot.next ?_ (State.modPwr_foot ..) ?_
    | with_reducible apply Foot.next ?_ (State.set64_foot ..) ?_
    | with_reducible apply Foot.next ?_ (State.setAll_foot ..) ?_
    | with_reducible apply Foot.next ?_ (State.log_foot ..) ?_
    | with_reducible apply Foot.ite ?_ ?_
    )

theorem State.switchDone_foot (s : State) : Foot [.regs, .time, .clk, .sil, .nvm, .pwr, .brg, .tw, .seq, .tamp, .cool, .tel, .inf, .acd, .key, .fw, .ses, .sec, .bus, .mem] s (State.switchDone s) := by
  unfold State.switchDone
  try dsimp only
  repeat' (first
    | with_reducible exact Foot.refl
    | with_reducible assumption
    | (with_reducible apply partsIn_dec; decide)
    | with_reducible apply Foot.next ?_ (State.topMerged_foot ..) ?_
    | with_reducible apply Foot.next ?_ (State.warmRequest_foot ..) ?_
    | with_reducible apply Foot.next ?_ (State.topRequest_foot ..) ?_
    | with_reducible apply Foot.next ?_ (State.modPwr_foot ..) ?_
    | with_reducible apply Foot.ite ?_ ?_
    )

theorem State.commitDone_foot (s : State) : Foot [.regs, .time, .clk, .sil, .nvm, .pwr, .brg, .tw, .seq, .tamp, .cool, .tel, .inf, .acd, .key, .fw, .ses, .sec, .bus, .mem] s (State.commitDone s) := by
  unfold State.commitDone
  try dsimp only
  repeat' (first
    | with_reducible exact Foot.refl
    | with_reducible assumption
    | (with_reducible apply partsIn_dec; decide)
    | with_reducible apply Foot.next ?_ (State.settingsChanged_foot ..) ?_
    | with_reducible apply Foot.next ?_ (State.nvmFinish_foot ..) ?_
    | with_reducible apply Foot.next ?_ (State.fpFree_foot ..) ?_
    | with_reducible apply Foot.next ?_ (State.switchDone_foot ..) ?_
    | with_reducible apply Foot.next ?_ (State.nvmStart_foot ..) ?_
    | with_reducible apply Foot.next ?_ (State.warmStart_foot ..) ?_
    | with_reducible apply Foot.next ?_ (State.modPwr_foot ..) ?_
    | with_reducible apply Foot.next ?_ (State.set_foot ..) ?_
    | with_reducible apply Foot.ite ?_ ?_
    | split
    )

theorem execNvmCompactionDone_foot {s : State} {t : State} (h : execNvmCompactionDone s = .next t) : Foot [.regs, .nvm] s t := by
  unfold execNvmCompactionDone at h
  try dsimp only at h
  with_reducible refine Foot.ofNext h ?_
  repeat' (first
    | with_reducible exact Foot.refl
    | with_reducible assumption
    | (with_reducible apply partsIn_dec; decide)
    | with_reducible apply Foot.next ?_ (State.nvmCompacted_foot ..) ?_
    )

end Sys2Proof.Machine
end

