-- ==== Sys2Proof/Laws/FootFirmware.lean ====
section
/-! SUPPORT. Footprints of the functions of Machine/Firmware.lean. -/

namespace Sys2Proof.Machine

theorem State.coreRelease_foot (s : State) (c : Nat) : Foot [.regs, .fw] s (State.coreRelease s c) := by
  unfold State.coreRelease
  try dsimp only
  repeat' (first
    | with_reducible exact Foot.refl
    | with_reducible assumption
    | (with_reducible apply partsIn_dec; decide)
    | with_reducible apply Foot.next ?_ (State.setCore_foot ..) ?_
    | with_reducible apply Foot.next ?_ (State.modFw_foot ..) ?_
    | with_reducible apply Foot.next ?_ (State.set_foot ..) ?_
    | with_reducible apply Foot.ite ?_ ?_
    )

theorem State.logCommit_foot (s : State) (rest : List Nat) (mirror : Bool) : Foot [.regs, .brg, .mem] s (State.logCommit s rest mirror) := by
  unfold State.logCommit
  try dsimp only
  repeat' (first
    | with_reducible exact Foot.refl
    | with_reducible assumption
    | (with_reducible apply partsIn_dec; decide)
    | with_reducible apply Foot.next ?_ (State.bulkSend_foot ..) ?_
    | with_reducible apply Foot.next ?_ (State.set_foot ..) ?_
    | with_reducible apply Foot.ite ?_ ?_
    | with_reducible apply Foot.next ?_ Foot.memStore ?_
    | with_reducible apply Foot.next ?_ Foot.memForget ?_
    )

theorem State.portPut_foot (s : State) (p w v : Nat) : Foot [.fw] s (State.portPut s p w v) := by
  unfold State.portPut
  try dsimp only
  repeat' (first
    | with_reducible exact Foot.refl
    | with_reducible assumption
    | (with_reducible apply partsIn_dec; decide)
    | with_reducible apply Foot.next ?_ (State.modFw_foot ..) ?_
    | with_reducible apply Foot.ite ?_ ?_
    )

theorem State.portClear_foot (s : State) (p : Nat) : Foot [.fw] s (State.portClear s p) := by
  unfold State.portClear
  try dsimp only
  repeat' (first
    | with_reducible exact Foot.refl
    | with_reducible assumption
    | (with_reducible apply partsIn_dec; decide)
    | with_reducible apply Foot.next ?_ (State.modFw_foot ..) ?_
    )

theorem State.logEntry_foot (s : State) (c w7 : Nat) : Foot [.regs, .brg, .fw, .mem] s (State.logEntry s c w7) := by
  unfold State.logEntry
  try dsimp only
  repeat' (first
    | with_reducible exact Foot.refl
    | with_reducible assumption
    | (with_reducible apply partsIn_dec; decide)
    | with_reducible apply Foot.next ?_ (State.portClear_foot ..) ?_
    | with_reducible apply Foot.next ?_ (State.logCommit_foot ..) ?_
    | with_reducible apply Foot.ite ?_ ?_
    )

theorem execLogEntryCommit_foot {ini : Initiator} {c : Fin 4} {word : Word} {s : State} {t : State} (h : execLogEntryCommit ini c word s = .next t) : Foot [.regs, .sil, .brg, .fw, .bus, .mem] s t := by
  unfold execLogEntryCommit at h
  try dsimp only at h
  with_reducible refine Foot.ofNext h ?_
  repeat' (first
    | with_reducible exact Foot.refl
    | with_reducible assumption
    | (with_reducible apply partsIn_dec; decide)
    | with_reducible apply Foot.next ?_ (State.logEntry_foot ..) ?_
    | with_reducible apply Foot.trans ?_ (State.command_foot _ _ _ _ ?_ ?_)
    | with_reducible apply Foot.ite ?_ ?_
    )

theorem State.keeperEntry_foot (s : State) (w7 : Nat) : Foot [.regs, .fw, .mem] s (State.keeperEntry s w7) := by
  unfold State.keeperEntry
  try dsimp only
  repeat' (first
    | with_reducible exact Foot.refl
    | with_reducible assumption
    | (with_reducible apply partsIn_dec; decide)
    | with_reducible apply Foot.next ?_ (State.portClear_foot ..) ?_
    | with_reducible apply Foot.next ?_ (State.mirrorWrite_foot ..) ?_
    | with_reducible apply Foot.next ?_ (State.modFw_foot ..) ?_
    | with_reducible apply Foot.ite ?_ ?_
    )

theorem execKeeperLogEntry_foot {ini : Initiator} {word : Word} {s : State} {t : State} (h : execKeeperLogEntry ini word s = .next t) : Foot [.regs, .sil, .fw, .bus, .mem] s t := by
  unfold execKeeperLogEntry at h
  try dsimp only at h
  with_reducible refine Foot.ofNext h ?_
  repeat' (first
    | with_reducible exact Foot.refl
    | with_reducible assumption
    | (with_reducible apply partsIn_dec; decide)
    | with_reducible apply Foot.next ?_ (State.keeperEntry_foot ..) ?_
    | with_reducible apply Foot.trans ?_ (State.command_foot _ _ _ _ ?_ ?_)
    )

theorem State.sramStore_foot (s : State) (a : Nat) (bs : List Byte) : Foot [.mem] s (State.sramStore s a bs) := by
  unfold State.sramStore
  try dsimp only
  repeat' (first
    | with_reducible exact Foot.refl
    | with_reducible assumption
    | (with_reducible apply partsIn_dec; decide)
    | with_reducible apply Foot.ite ?_ ?_
    | with_reducible apply Foot.next ?_ Foot.memStore ?_
    | with_reducible apply Foot.next ?_ Foot.memForget ?_
    )

theorem State.lockRelease_foot (s : State) (hart : Nat) : Foot [.mem] s (State.lockRelease s hart) := by
  unfold State.lockRelease
  try dsimp only
  repeat' (first
    | with_reducible exact Foot.refl
    | with_reducible assumption
    | (with_reducible apply partsIn_dec; decide)
    | with_reducible apply Foot.next ?_ (State.sramStore_foot ..) ?_
    | with_reducible apply Foot.foldl (fun _ _ _ => ?_) ?_
    | with_reducible apply Foot.ite ?_ ?_
    )

theorem State.lockTask_foot (s : State) : Foot [.fw, .mem] s (State.lockTask s) := by
  unfold State.lockTask
  try dsimp only
  repeat' (first
    | with_reducible exact Foot.refl
    | with_reducible assumption
    | (with_reducible apply partsIn_dec; decide)
    | with_reducible apply Foot.next ?_ (State.lockRelease_foot ..) ?_
    | with_reducible apply Foot.next ?_ (State.modFw_foot ..) ?_
    | with_reducible apply Foot.foldl (fun _ _ _ => ?_) ?_
    | with_reducible apply Foot.ite ?_ ?_
    )

theorem State.silPortDrop_foot (s : State) (c : Nat) : Foot [.sil] s (State.silPortDrop s c) := by
  unfold State.silPortDrop
  try dsimp only
  repeat' (first
    | with_reducible exact Foot.refl
    | with_reducible assumption
    | (with_reducible apply partsIn_dec; decide)
    | with_reducible apply Foot.next ?_ Foot.sil_upd ?_
    )

theorem State.crash_foot (s : State) (c cause : Nat) (r : Csrs) : Foot [.regs, .sil, .brg, .fw, .mem, .fresh] s (State.crash s c cause r) := by
  unfold State.crash
  try dsimp only
  repeat' (first
    | with_reducible exact Foot.refl
    | with_reducible assumption
    | (with_reducible apply partsIn_dec; decide)
    | with_reducible apply Foot.next ?_ (State.silPortDrop_foot ..) ?_
    | with_reducible apply Foot.next ?_ (State.lockTask_foot ..) ?_
    | with_reducible apply Foot.next ?_ (State.portClear_foot ..) ?_
    | with_reducible apply Foot.next ?_ (State.logCommit_foot ..) ?_
    | with_reducible apply Foot.next ?_ (State.logTop_foot ..) ?_
    | with_reducible apply Foot.next ?_ (State.raise_foot ..) ?_
    | with_reducible apply Foot.next ?_ (State.kraise_foot ..) ?_
    | with_reducible apply Foot.next ?_ (State.bump_foot ..) ?_
    | with_reducible apply Foot.next ?_ (State.setCore_foot ..) ?_
    | with_reducible apply Foot.next ?_ (State.modFw_foot ..) ?_
    | with_reducible apply Foot.next ?_ (State.setAll_foot ..) ?_
    | with_reducible apply Foot.ite ?_ ?_
    | with_reducible apply Foot.next ?_ Foot.fresh_upd ?_
    )

theorem State.panic_foot (s : State) (ini : Initiator) (mask : Nat) (r : Csrs) : Foot [.regs, .sil, .brg, .fw, .mem, .fresh] s (State.panic s ini mask r) := by
  unfold State.panic
  try dsimp only
  repeat' (first
    | with_reducible exact Foot.refl
    | with_reducible assumption
    | (with_reducible apply partsIn_dec; decide)
    | with_reducible apply Foot.next ?_ (State.crash_foot ..) ?_
    | with_reducible apply Foot.ite ?_ ?_
    | split
    )

theorem execFwPanic_foot {ini : Initiator} {mask : Fin 16} {csrs : Csrs} {s : State} {t : State} (h : execFwPanic ini mask csrs s = .next t) : Foot [.regs, .sil, .brg, .fw, .bus, .mem, .fresh] s t := by
  unfold execFwPanic at h
  try dsimp only at h
  with_reducible refine Foot.ofNext h ?_
  repeat' (first
    | with_reducible exact Foot.refl
    | with_reducible assumption
    | (with_reducible apply partsIn_dec; decide)
    | with_reducible apply Foot.next ?_ (State.panic_foot ..) ?_
    | with_reducible apply Foot.trans ?_ (State.command_foot _ _ _ _ ?_ ?_)
    )

theorem execTrapLockup_foot {c : Fin 4} {csrs : Csrs} {s : State} {t : State} (h : execTrapLockup c csrs s = .next t) : Foot [.regs, .sil, .brg, .fw, .mem, .fresh] s t := by
  unfold execTrapLockup at h
  try dsimp only at h
  with_reducible refine Foot.ofNext h ?_
  repeat' (first
    | with_reducible exact Foot.refl
    | with_reducible assumption
    | (with_reducible apply partsIn_dec; decide)
    | with_reducible apply Foot.next ?_ (State.crash_foot ..) ?_
    | with_reducible apply Foot.ite ?_ ?_
    )

theorem execCoreWdtExpiry_foot {c : Fin 4} {csrs : Csrs} {s : State} {t : State} (h : execCoreWdtExpiry c csrs s = .next t) : Foot [.regs, .sil, .brg, .fw, .mem, .fresh] s t := by
  unfold execCoreWdtExpiry at h
  try dsimp only at h
  with_reducible refine Foot.ofNext h ?_
  repeat' (first
    | with_reducible exact Foot.refl
    | with_reducible assumption
    | (with_reducible apply partsIn_dec; decide)
    | with_reducible apply Foot.next ?_ (State.crash_foot ..) ?_
    | with_reducible apply Foot.ite ?_ ?_
    )

theorem State.coreRestarts_foot (s : State) (mask : Nat) (csrs : Csrs × List Csrs) : Foot [.regs, .sil, .brg, .fw, .mem, .fresh] s (State.coreRestarts s mask csrs) := by
  unfold State.coreRestarts
  try dsimp only
  repeat' (first
    | with_reducible exact Foot.refl
    | with_reducible assumption
    | (with_reducible apply partsIn_dec; decide)
    | with_reducible apply Foot.next ?_ (State.crash_foot ..) ?_
    | with_reducible apply Foot.foldl (fun _ _ _ => ?_) ?_
    | with_reducible apply Foot.ite ?_ ?_
    )

theorem execCoreRestartRequest_foot {ini : Initiator} {mask : Fin 16} {r0 r1 r2 r3 : Csrs} {s : State} {t : State} (h : execCoreRestartRequest ini mask r0 r1 r2 r3 s = .next t) : Foot [.regs, .sil, .brg, .fw, .bus, .mem, .fresh] s t := by
  unfold execCoreRestartRequest at h
  try dsimp only at h
  with_reducible refine Foot.ofNext h ?_
  repeat' (first
    | with_reducible exact Foot.refl
    | with_reducible assumption
    | (with_reducible apply partsIn_dec; decide)
    | with_reducible apply Foot.next ?_ (State.coreRestarts_foot ..) ?_
    | with_reducible apply Foot.trans ?_ (State.command_foot _ _ _ _ ?_ ?_)
    )

theorem State.commit_foot (s : State) (words : List Nat) : Foot [.mem] s (State.commit s words) := by
  unfold State.commit
  try dsimp only
  repeat' (first
    | with_reducible exact Foot.refl
    | with_reducible assumption
    | (with_reducible apply partsIn_dec; decide)
    | with_reducible apply Foot.next ?_ (State.sramStore_foot ..) ?_
    | with_reducible apply Foot.ite ?_ ?_
    )

theorem execFwWdtKick_foot {ini : Initiator} {c : Fin 4} {key : Fin 256} {s : State} {t : State} (h : execFwWdtKick ini c key s = .next t) : Foot [.regs, .sil, .fw, .bus] s t := by
  unfold execFwWdtKick at h
  try dsimp only at h
  with_reducible refine Foot.ofNext h ?_
  repeat' (first
    | with_reducible exact Foot.refl
    | with_reducible assumption
    | (with_reducible apply partsIn_dec; decide)
    | with_reducible apply Foot.next ?_ (State.modFw_foot ..) ?_
    | with_reducible apply Foot.trans ?_ (State.command_foot _ _ _ _ ?_ ?_)
    | with_reducible apply Foot.ite ?_ ?_
    )

theorem State.topKick_foot (s : State) (key : Nat) : Foot [.regs, .fw] s (State.topKick s key) := by
  unfold State.topKick
  try dsimp only
  repeat' (first
    | with_reducible exact Foot.refl
    | with_reducible assumption
    | (with_reducible apply partsIn_dec; decide)
    | with_reducible apply Foot.next ?_ (State.modFw_foot ..) ?_
    | with_reducible apply Foot.next ?_ (State.set_foot ..) ?_
    | with_reducible apply Foot.ite ?_ ?_
    )

theorem execFwTopwdtKick_foot {ini : Initiator} {key : Fin 256} {s : State} {t : State} (h : execFwTopwdtKick ini key s = .next t) : Foot [.regs, .sil, .fw, .bus] s t := by
  unfold execFwTopwdtKick at h
  try dsimp only at h
  with_reducible refine Foot.ofNext h ?_
  repeat' (first
    | with_reducible exact Foot.refl
    | with_reducible assumption
    | (with_reducible apply partsIn_dec; decide)
    | with_reducible apply Foot.next ?_ (State.topKick_foot ..) ?_
    | with_reducible apply Foot.trans ?_ (State.command_foot _ _ _ _ ?_ ?_)
    )

theorem State.topWdtExpire_foot (s : State) : Foot [.regs, .time, .clk, .sil, .pwr, .brg, .tw, .seq, .tamp, .tel, .inf, .acd, .fw, .ses, .sec, .bus, .mem] s (State.topWdtExpire s) := by
  unfold State.topWdtExpire
  try dsimp only
  repeat' (first
    | with_reducible exact Foot.refl
    | with_reducible assumption
    | (with_reducible apply partsIn_dec; decide)
    | with_reducible apply Foot.next ?_ (State.topRequest_foot ..) ?_
    | with_reducible apply Foot.next ?_ (State.kraise_foot ..) ?_
    | with_reducible apply Foot.next ?_ (State.bump_foot ..) ?_
    | with_reducible apply Foot.next ?_ (State.set_foot ..) ?_
    | with_reducible apply Foot.ite ?_ ?_
    )

theorem execTopWdtExpiry_foot {s : State} {t : State} (h : execTopWdtExpiry s = .next t) : Foot [.regs, .time, .clk, .sil, .pwr, .brg, .tw, .seq, .tamp, .tel, .inf, .acd, .fw, .ses, .sec, .bus, .mem] s t := by
  unfold execTopWdtExpiry at h
  try dsimp only at h
  with_reducible refine Foot.ofNext h ?_
  repeat' (first
    | with_reducible exact Foot.refl
    | with_reducible assumption
    | (with_reducible apply partsIn_dec; decide)
    | with_reducible apply Foot.next ?_ (State.topWdtExpire_foot ..) ?_
    )

theorem State.kprKick_foot (s : State) (ini : Initiator) (key : Nat) : Foot [.regs, .pwr] s (State.kprKick s ini key) := by
  unfold State.kprKick
  try dsimp only
  repeat' (first
    | with_reducible exact Foot.refl
    | with_reducible assumption
    | (with_reducible apply partsIn_dec; decide)
    | with_reducible apply Foot.next ?_ (State.modPwr_foot ..) ?_
    | with_reducible apply Foot.next ?_ (State.set_foot ..) ?_
    | with_reducible apply Foot.ite ?_ ?_
    | split
    )

theorem execKprWdtKick_foot {ini : Initiator} {key : Fin 256} {s : State} {t : State} (h : execKprWdtKick ini key s = .next t) : Foot [.regs, .sil, .pwr, .bus] s t := by
  unfold execKprWdtKick at h
  try dsimp only at h
  with_reducible refine Foot.ofNext h ?_
  repeat' (first
    | with_reducible exact Foot.refl
    | with_reducible assumption
    | (with_reducible apply partsIn_dec; decide)
    | with_reducible apply Foot.next ?_ (State.kprKick_foot ..) ?_
    | with_reducible apply Foot.trans ?_ (State.command_foot _ _ _ _ ?_ ?_)
    )

theorem execKeeperWdtExpiry_foot {s : State} {t : State} (h : execKeeperWdtExpiry s = .next t) : Foot [.regs, .time, .clk, .sil, .nvm, .pwr, .brg, .tw, .seq, .tamp, .cool, .tel, .inf, .acd, .key, .fw, .ses, .sec, .bus, .mem] s t := by
  unfold execKeeperWdtExpiry at h
  try dsimp only at h
  with_reducible refine Foot.ofNext h ?_
  repeat' (first
    | with_reducible exact Foot.refl
    | with_reducible assumption
    | (with_reducible apply partsIn_dec; decide)
    | with_reducible apply Foot.next ?_ (State.warmRequest_foot ..) ?_
    | with_reducible apply Foot.ite ?_ ?_
    )

theorem execKeeperTrapHalt_foot {k : Fin 2} {s : State} {t : State} (h : execKeeperTrapHalt k s = .next t) : Foot [.fw] s t := by
  unfold execKeeperTrapHalt at h
  try dsimp only at h
  with_reducible refine Foot.ofNext h ?_
  repeat' (first
    | with_reducible exact Foot.refl
    | with_reducible assumption
    | (with_reducible apply partsIn_dec; decide)
    | with_reducible apply Foot.next ?_ (State.modFw_foot ..) ?_
    | with_reducible apply Foot.ite ?_ ?_
    )

theorem execK1Run_foot {ini : Initiator} {s : State} {t : State} (h : execK1Run ini s = .next t) : Foot [.regs, .sil, .bus] s t := by
  unfold execK1Run at h
  try dsimp only at h
  with_reducible refine Foot.ofNext h ?_
  repeat' (first
    | with_reducible exact Foot.refl
    | with_reducible assumption
    | (with_reducible apply partsIn_dec; decide)
    | with_reducible apply Foot.trans ?_ (State.command_foot _ _ _ _ ?_ ?_)
    | with_reducible apply Foot.next ?_ (State.set_foot ..) ?_
    )

theorem execTextLock_foot {ini : Initiator} {s : State} {t : State} (h : execTextLock ini s = .next t) : Foot [.regs, .sil, .bus] s t := by
  unfold execTextLock at h
  try dsimp only at h
  with_reducible refine Foot.ofNext h ?_
  repeat' (first
    | with_reducible exact Foot.refl
    | with_reducible assumption
    | (with_reducible apply partsIn_dec; decide)
    | with_reducible apply Foot.trans ?_ (State.command_foot _ _ _ _ ?_ ?_)
    | with_reducible apply Foot.next ?_ (State.set_foot ..) ?_
    | split
    )

end Sys2Proof.Machine
end

