-- ==== Sys2Proof/Laws/FootHint.lean ====
section
/-! SUPPORT. Footprints of the functions of Machine/Hint.lean. -/

namespace Sys2Proof.Machine

theorem State.hintRefuse_foot (s : State) (session hid acc code : Nat) : Foot [.regs] s (State.hintRefuse s session hid acc code) := by
  unfold State.hintRefuse
  try dsimp only
  repeat' (first
    | with_reducible exact Foot.refl
    | with_reducible assumption
    | (with_reducible apply partsIn_dec; decide)
    | with_reducible apply Foot.next ?_ (State.bump_foot ..) ?_
    | with_reducible apply Foot.next ?_ (State.setAll_foot ..) ?_
    | with_reducible apply Foot.ite ?_ ?_
    )

theorem State.hintSync_foot (s : State) : Foot [.regs] s (State.hintSync s) := by
  unfold State.hintSync
  try dsimp only
  repeat' (first
    | with_reducible exact Foot.refl
    | with_reducible assumption
    | (with_reducible apply partsIn_dec; decide)
    | with_reducible apply Foot.next ?_ (State.setAll_foot ..) ?_
    )

theorem State.hintCancel_foot (s : State) (session hid acc : Nat) : Foot [.regs, .inf] s ((State.hintCancel s session hid acc).2) := by
  unfold State.hintCancel
  try dsimp only
  repeat' (first
    | with_reducible exact Foot.refl
    | with_reducible assumption
    | (with_reducible apply partsIn_dec; decide)
    | with_reducible apply Foot.next ?_ (State.hintSync_foot ..) ?_
    | with_reducible apply Foot.next ?_ (State.hintRefuse_foot ..) ?_
    | with_reducible apply Foot.next ?_ (State.modInf_foot ..) ?_
    | with_reducible apply Foot.ite ?_ ?_
    | with_reducible apply Foot.iteSnd
    | dsimp only
    )

theorem State.hintCancel_foot' {s : State} {session hid acc : Nat} {a} {t : State} (h : State.hintCancel s session hid acc = (a, t)) : Foot [.regs, .inf] s t := by
  have := State.hintCancel_foot s session hid acc
  rwa [h] at this

theorem State.sigDup_foot (s : State) (acc model : Nat) (ways : List Nat) : Foot [.regs, .brg] s (State.sigDup s acc model ways) := by
  unfold State.sigDup
  try dsimp only
  repeat' (first
    | with_reducible exact Foot.refl
    | with_reducible assumption
    | (with_reducible apply partsIn_dec; decide)
    | with_reducible apply Foot.next ?_ (State.logTop_foot ..) ?_
    | with_reducible apply Foot.next ?_ (State.set_foot ..) ?_
    | with_reducible apply Foot.ite ?_ ?_
    )

theorem State.hintSubmit_foot (s : State) (session hid acc model due : Nat) : Foot [.regs, .brg, .inf] s ((State.hintSubmit s session hid acc model due).2) := by
  unfold State.hintSubmit
  try dsimp only
  repeat' (first
    | with_reducible exact Foot.refl
    | with_reducible assumption
    | (with_reducible apply partsIn_dec; decide)
    | with_reducible apply Foot.next ?_ (State.sigDup_foot ..) ?_
    | with_reducible apply Foot.next ?_ (State.hintSync_foot ..) ?_
    | with_reducible apply Foot.next ?_ (State.hintRefuse_foot ..) ?_
    | with_reducible apply Foot.next ?_ (State.modInf_foot ..) ?_
    | with_reducible apply Foot.next ?_ (State.bump_foot ..) ?_
    | with_reducible apply Foot.next ?_ (State.set_foot ..) ?_
    | with_reducible apply Foot.ite ?_ ?_
    | split
    | with_reducible apply Foot.iteSnd
    | dsimp only
    )

theorem State.hintSubmit_foot' {s : State} {session hid acc model due : Nat} {a} {t : State} (h : State.hintSubmit s session hid acc model due = (a, t)) : Foot [.regs, .brg, .inf] s t := by
  have := State.hintSubmit_foot s session hid acc model due
  rwa [h] at this

theorem State.hintForget_foot (s : State) (p : Hint → Bool) : Foot [.regs, .inf] s (State.hintForget s p) := by
  unfold State.hintForget
  try dsimp only
  repeat' (first
    | with_reducible exact Foot.refl
    | with_reducible assumption
    | (with_reducible apply partsIn_dec; decide)
    | with_reducible apply Foot.next ?_ (State.hintSync_foot ..) ?_
    | with_reducible apply Foot.next ?_ (State.modInf_foot ..) ?_
    | with_reducible apply Foot.next ?_ (State.bump_foot ..) ?_
    | with_reducible apply Foot.foldl (fun _ _ _ => ?_) ?_
    )

theorem State.hintClose_foot (s : State) (session : Nat) : Foot [.regs, .inf] s (State.hintClose s session) := by
  unfold State.hintClose
  try dsimp only
  repeat' (first
    | with_reducible exact Foot.refl
    | with_reducible assumption
    | (with_reducible apply partsIn_dec; decide)
    | with_reducible apply Foot.next ?_ (State.hintForget_foot ..) ?_
    | with_reducible apply Foot.next ?_ (State.modInf_foot ..) ?_
    )

theorem State.hintDrop_foot (s : State) (h : Hint) (why : Nat) : Foot [.regs, .brg, .mem] s (State.hintDrop s h why) := by
  unfold State.hintDrop
  try dsimp only
  repeat' (first
    | with_reducible exact Foot.refl
    | with_reducible assumption
    | (with_reducible apply partsIn_dec; decide)
    | with_reducible apply Foot.next ?_ (State.storeWord_foot ..) ?_
    | with_reducible apply Foot.next ?_ (State.logTop_foot ..) ?_
    | with_reducible apply Foot.next ?_ (State.bump_foot ..) ?_
    | with_reducible apply Foot.ite ?_ ?_
    )

theorem State.hintFire_foot (s : State) (h : Hint) : Foot [.regs, .brg, .inf, .mem] s (State.hintFire s h) := by
  unfold State.hintFire
  try dsimp only
  repeat' (first
    | with_reducible exact Foot.refl
    | with_reducible assumption
    | (with_reducible apply partsIn_dec; decide)
    | with_reducible apply Foot.next ?_ (State.hintDrop_foot ..) ?_
    | with_reducible apply Foot.next ?_ (State.modInf_foot ..) ?_
    | with_reducible apply Foot.ite ?_ ?_
    | split
    )

theorem State.hintEval_foot (s : State) : Foot [.regs, .brg, .inf, .mem] s (State.hintEval s) := by
  unfold State.hintEval
  try dsimp only
  repeat' (first
    | with_reducible exact Foot.refl
    | with_reducible assumption
    | (with_reducible apply partsIn_dec; decide)
    | with_reducible apply Foot.next ?_ (State.hintFire_foot ..) ?_
    | with_reducible apply Foot.next ?_ (State.hintSync_foot ..) ?_
    | with_reducible apply Foot.next ?_ (State.modInf_foot ..) ?_
    | with_reducible apply Foot.foldl (fun _ _ _ => ?_) ?_
    | with_reducible apply Foot.ite ?_ ?_
    )

theorem execHintEvaluation_foot {s : State} {t : State} (h : execHintEvaluation s = .next t) : Foot [.regs, .brg, .inf, .mem] s t := by
  unfold execHintEvaluation at h
  try dsimp only at h
  with_reducible refine Foot.ofNext h ?_
  repeat' (first
    | with_reducible exact Foot.refl
    | with_reducible assumption
    | (with_reducible apply partsIn_dec; decide)
    | with_reducible apply Foot.next ?_ (State.hintEval_foot ..) ?_
    )

theorem State.mailboxWrite_foot (s : State) : Foot [.regs, .clk, .brg, .inf, .mem] s (State.mailboxWrite s) := by
  unfold State.mailboxWrite
  try dsimp only
  repeat' (first
    | with_reducible exact Foot.refl
    | with_reducible assumption
    | (with_reducible apply partsIn_dec; decide)
    | with_reducible apply Foot.next ?_ (State.hintDrop_foot ..) ?_
    | with_reducible apply Foot.next ?_ (State.runDue_foot ..) ?_
    | with_reducible apply Foot.next ?_ (State.modInf_foot ..) ?_
    | with_reducible apply Foot.next ?_ (State.portStore_foot ..) ?_
    | with_reducible apply Foot.next ?_ (State.bump_foot ..) ?_
    | with_reducible apply Foot.ite ?_ ?_
    | split
    )

theorem execMailboxWrite_foot {s : State} {t : State} (h : execMailboxWrite s = .next t) : Foot [.regs, .clk, .brg, .inf, .mem] s t := by
  unfold execMailboxWrite at h
  try dsimp only at h
  with_reducible refine Foot.ofNext h ?_
  repeat' (first
    | with_reducible exact Foot.refl
    | with_reducible assumption
    | (with_reducible apply partsIn_dec; decide)
    | with_reducible apply Foot.next ?_ (State.mailboxWrite_foot ..) ?_
    )

theorem State.tokenRefill_foot (s : State) : Foot [.regs] s (State.tokenRefill s) := by
  unfold State.tokenRefill
  try dsimp only
  repeat' (first
    | with_reducible exact Foot.refl
    | with_reducible assumption
    | (with_reducible apply partsIn_dec; decide)
    | with_reducible apply Foot.next ?_ (State.setAll_foot ..) ?_
    )

theorem execTokenRefill_foot {s : State} {t : State} (h : execTokenRefill s = .next t) : Foot [.regs] s t := by
  unfold execTokenRefill at h
  try dsimp only at h
  with_reducible refine Foot.ofNext h ?_
  repeat' (first
    | with_reducible exact Foot.refl
    | with_reducible assumption
    | (with_reducible apply partsIn_dec; decide)
    | with_reducible apply Foot.next ?_ (State.tokenRefill_foot ..) ?_
    | with_reducible apply Foot.ite ?_ ?_
    )

theorem State.hintFlush_foot (s : State) : Foot [.regs, .inf] s (State.hintFlush s) := by
  unfold State.hintFlush
  try dsimp only
  repeat' (first
    | with_reducible exact Foot.refl
    | with_reducible assumption
    | (with_reducible apply partsIn_dec; decide)
    | with_reducible apply Foot.next ?_ (State.hintForget_foot ..) ?_
    )

theorem execHintFlush_foot {ini : Initiator} {s : State} {t : State} (h : execHintFlush ini s = .next t) : Foot [.regs, .sil, .inf, .bus] s t := by
  unfold execHintFlush at h
  try dsimp only at h
  with_reducible refine Foot.ofNext h ?_
  repeat' (first
    | with_reducible exact Foot.refl
    | with_reducible assumption
    | (with_reducible apply partsIn_dec; decide)
    | with_reducible apply Foot.next ?_ (State.hintFlush_foot ..) ?_
    | with_reducible apply Foot.trans ?_ (State.command_foot _ _ _ _ ?_ ?_)
    )

theorem State.hntCntClr_foot (s : State) : Foot [.regs] s (State.hntCntClr s) := by
  unfold State.hntCntClr
  try dsimp only
  repeat' (first
    | with_reducible exact Foot.refl
    | with_reducible assumption
    | (with_reducible apply partsIn_dec; decide)
    | with_reducible apply Foot.next ?_ (State.setAll_foot ..) ?_
    )

theorem execHntCntClr_foot {ini : Initiator} {s : State} {t : State} (h : execHntCntClr ini s = .next t) : Foot [.regs, .sil, .bus] s t := by
  unfold execHntCntClr at h
  try dsimp only at h
  with_reducible refine Foot.ofNext h ?_
  repeat' (first
    | with_reducible exact Foot.refl
    | with_reducible assumption
    | (with_reducible apply partsIn_dec; decide)
    | with_reducible apply Foot.next ?_ (State.hntCntClr_foot ..) ?_
    | with_reducible apply Foot.trans ?_ (State.command_foot _ _ _ _ ?_ ?_)
    )

end Sys2Proof.Machine
end

