-- ==== Sys2Proof/Laws/FootInfRun.lean ====
section
/-! SUPPORT. Footprints of the functions of Machine/InfRun.lean. -/

namespace Sys2Proof.Machine

theorem State.clPut_foot (s : State) (c key v : Nat) : Foot [.inf] s (State.clPut s c key v) := by
  unfold State.clPut
  try dsimp only
  repeat' (first
    | with_reducible exact Foot.refl
    | with_reducible assumption
    | (with_reducible apply partsIn_dec; decide)
    | with_reducible apply Foot.next ?_ (State.modInf_foot ..) ?_
    )

theorem State.clPutAll_foot (s : State) (c key : Nat) (l : List Nat) : Foot [.inf] s (State.clPutAll s c key l) := by
  induction l generalizing s key with
  | nil => exact Foot.refl
  | cons v t ih => exact (State.clPut_foot ..).trans (ih ..)

theorem State.arith_foot (s : State) (n sat nan : Nat) : Foot [.regs, .fw] s (State.arith s n sat nan) := by
  unfold State.arith
  try dsimp only
  repeat' (first
    | with_reducible exact Foot.refl
    | with_reducible assumption
    | (with_reducible apply partsIn_dec; decide)
    | with_reducible apply Foot.next ?_ (State.infErr_foot ..) ?_
    | with_reducible apply Foot.next ?_ (State.bump_foot ..) ?_
    | with_reducible apply Foot.next ?_ (State.set_foot ..) ?_
    | with_reducible apply Foot.ite ?_ ?_
    )

theorem State.runStore_foot (s : State) (n a : Nat) (bs : List Byte) : Foot [.regs, .brg, .fw, .mem] s (State.runStore s n a bs) := by
  unfold State.runStore
  try dsimp only
  repeat' (first
    | with_reducible exact Foot.refl
    | with_reducible assumption
    | (with_reducible apply partsIn_dec; decide)
    | with_reducible apply Foot.next ?_ (State.wprotNote_foot ..) ?_
    | with_reducible apply Foot.ite ?_ ?_
    | with_reducible apply Foot.next ?_ Foot.memStore ?_
    | with_reducible apply Foot.next ?_ Foot.memForget ?_
    )

theorem State.landWr_foot (s : State) (n : Nat) (a0 : InfWr) : Foot [.regs, .brg, .inf, .fw, .mem] s (State.landWr s n a0) := by
  unfold State.landWr
  try dsimp only
  repeat' (first
    | with_reducible exact Foot.refl
    | with_reducible assumption
    | (with_reducible apply partsIn_dec; decide)
    | with_reducible apply Foot.next ?_ (State.outWrite_foot ..) ?_
    | with_reducible apply Foot.next ?_ (State.runStore_foot ..) ?_
    | with_reducible apply Foot.next ?_ (State.arith_foot ..) ?_
    | with_reducible apply Foot.next ?_ (State.clPutAll_foot ..) ?_
    | with_reducible apply Foot.next ?_ (State.clPut_foot ..) ?_
    | with_reducible apply Foot.next ?_ (State.set_foot ..) ?_
    | with_reducible apply Foot.ite ?_ ?_
    | split
    )

theorem State.landTo_foot (s : State) (n t : Nat) : Foot [.regs, .brg, .inf, .fw, .mem] s (State.landTo s n t) := by
  unfold State.landTo
  try dsimp only
  repeat' (first
    | with_reducible exact Foot.refl
    | with_reducible assumption
    | (with_reducible apply partsIn_dec; decide)
    | with_reducible apply Foot.next ?_ (State.landWr_foot ..) ?_
    | with_reducible apply Foot.next ?_ (State.modIslot_foot ..) ?_
    | with_reducible apply Foot.foldl (fun _ _ _ => ?_) ?_
    | split
    )

theorem State.resultWriteback_foot (s : State) (n : Nat) : Foot [.regs, .brg, .inf, .fw, .mem] s (State.resultWriteback s n) := by
  unfold State.resultWriteback
  try dsimp only
  repeat' (first
    | with_reducible exact Foot.refl
    | with_reducible assumption
    | (with_reducible apply partsIn_dec; decide)
    | with_reducible apply Foot.next ?_ (State.landTo_foot ..) ?_
    | with_reducible apply Foot.ite ?_ ?_
    | split
    )

theorem execResultWriteback_foot {n : Fin 16} {s : State} {t : State} (h : execResultWriteback n s = .next t) : Foot [.regs, .brg, .inf, .fw, .mem] s t := by
  unfold execResultWriteback at h
  try dsimp only at h
  with_reducible refine Foot.ofNext h ?_
  repeat' (first
    | with_reducible exact Foot.refl
    | with_reducible assumption
    | (with_reducible apply partsIn_dec; decide)
    | with_reducible apply Foot.next ?_ (State.resultWriteback_foot ..) ?_
    )

theorem State.issueGroup_foot (s : State) (n : Nat) (e : Ecc) (bad : List (Fin 65536)) : Foot [.regs, .brg, .tel, .inf, .fw, .mem, .fresh] s (State.issueGroup s n e bad) := by
  unfold State.issueGroup
  try dsimp only
  repeat' (first
    | with_reducible exact Foot.refl
    | with_reducible assumption
    | (with_reducible apply partsIn_dec; decide)
    | with_reducible apply Foot.next ?_ (State.slotFaultAt_foot ..) ?_
    | with_reducible apply Foot.next ?_ (State.mapEccAll_foot ..) ?_
    | with_reducible apply Foot.next ?_ (State.infEcc_foot ..) ?_
    | with_reducible apply Foot.next ?_ (State.landTo_foot ..) ?_
    | with_reducible apply Foot.next ?_ (State.modIslot_foot ..) ?_
    | with_reducible apply Foot.next ?_ (State.draw_foot ..) ?_
    | with_reducible apply Foot.ite ?_ ?_
    | split
    )

theorem execIssueGroup_foot {n : Fin 16} {ecc : Ecc} {s : State} {badDesc : List (Fin 65536)} {t : State} (h : execIssueGroup n ecc s badDesc = .next t) : Foot [.regs, .brg, .tel, .inf, .fw, .mem, .fresh] s t := by
  unfold execIssueGroup at h
  try dsimp only at h
  with_reducible refine Foot.ofNext h ?_
  repeat' (first
    | with_reducible exact Foot.refl
    | with_reducible assumption
    | (with_reducible apply partsIn_dec; decide)
    | with_reducible apply Foot.next ?_ (State.issueGroup_foot ..) ?_
    )

theorem State.runEnd_foot (s : State) (n : Nat) (e : Ecc) : Foot [.regs, .brg, .inf, .fw, .mem, .fresh] s (State.runEnd s n e) := by
  unfold State.runEnd
  try dsimp only
  repeat' (first
    | with_reducible exact Foot.refl
    | with_reducible assumption
    | (with_reducible apply partsIn_dec; decide)
    | with_reducible apply Foot.next ?_ (State.adCommit_foot ..) ?_
    | with_reducible apply Foot.next ?_ (State.slotFaultAt_foot ..) ?_
    | with_reducible apply Foot.next ?_ (State.infEcc_foot ..) ?_
    | with_reducible apply Foot.next ?_ (State.landTo_foot ..) ?_
    | with_reducible apply Foot.next ?_ (State.slotSync_foot ..) ?_
    | with_reducible apply Foot.next ?_ (State.modIslot_foot ..) ?_
    | with_reducible apply Foot.next ?_ (State.setIf_foot ..) ?_
    | with_reducible apply Foot.next ?_ (State.set_foot ..) ?_
    | with_reducible apply Foot.ite ?_ ?_
    | split
    )

theorem execRunEnd_foot {n : Fin 16} {s : State} {ecc : Ecc} {t : State} (h : execRunEnd n s ecc = .next t) : Foot [.regs, .brg, .inf, .fw, .mem, .fresh] s t := by
  unfold execRunEnd at h
  try dsimp only at h
  with_reducible refine Foot.ofNext h ?_
  repeat' (first
    | with_reducible exact Foot.refl
    | with_reducible assumption
    | (with_reducible apply partsIn_dec; decide)
    | with_reducible apply Foot.next ?_ (State.runEnd_foot ..) ?_
    )

theorem State.slotAbort_foot (s : State) (n : Nat) : Foot [.regs, .brg, .inf, .fw, .mem] s (State.slotAbort s n) := by
  unfold State.slotAbort
  try dsimp only
  repeat' (first
    | with_reducible exact Foot.refl
    | with_reducible assumption
    | (with_reducible apply partsIn_dec; decide)
    | with_reducible apply Foot.next ?_ (State.slotBreak_foot ..) ?_
    | with_reducible apply Foot.next ?_ (State.slotRelease_foot ..) ?_
    | with_reducible apply Foot.next ?_ (State.landTo_foot ..) ?_
    | with_reducible apply Foot.next ?_ (State.slotSync_foot ..) ?_
    | with_reducible apply Foot.next ?_ (State.modIslot_foot ..) ?_
    | with_reducible apply Foot.next ?_ (State.set_foot ..) ?_
    | with_reducible apply Foot.ite ?_ ?_
    | split
    )

theorem State.slotCtlWrite_foot (s : State) (n w : Nat) : Foot [.regs, .clk, .brg, .inf, .fw, .mem] s (State.slotCtlWrite s n w) := by
  unfold State.slotCtlWrite
  try dsimp only
  repeat' (first
    | with_reducible exact Foot.refl
    | with_reducible assumption
    | (with_reducible apply partsIn_dec; decide)
    | with_reducible apply Foot.next ?_ (State.stateInit_foot ..) ?_
    | with_reducible apply Foot.next ?_ (State.slotEnable_foot ..) ?_
    | with_reducible apply Foot.next ?_ (State.slotDisable_foot ..) ?_
    | with_reducible apply Foot.next ?_ (State.slotClear_foot ..) ?_
    | with_reducible apply Foot.next ?_ (State.slotAbort_foot ..) ?_
    | with_reducible apply Foot.next ?_ (State.adWatch_foot ..) ?_
    | with_reducible apply Foot.next ?_ (State.setIf_foot ..) ?_
    | with_reducible apply Foot.next ?_ (State.setAll_foot ..) ?_
    | with_reducible apply Foot.ite ?_ ?_
    )

theorem execSlotAbort_foot {ini : Initiator} {n : Fin 16} {s : State} {t : State} (h : execSlotAbort ini n s = .next t) : Foot [.regs, .sil, .brg, .inf, .fw, .bus, .mem] s t := by
  unfold execSlotAbort at h
  try dsimp only at h
  with_reducible refine Foot.ofNext h ?_
  repeat' (first
    | with_reducible exact Foot.refl
    | with_reducible assumption
    | (with_reducible apply partsIn_dec; decide)
    | with_reducible apply Foot.next ?_ (State.slotAbort_foot ..) ?_
    | with_reducible apply Foot.trans ?_ (State.command_foot _ _ _ _ ?_ ?_)
    )

theorem State.gateStopped_foot (s : State) (d : Nat) : Foot [.regs, .clk, .ses] s (State.gateStopped s d) := by
  unfold State.gateStopped
  try dsimp only
  repeat' (first
    | with_reducible exact Foot.refl
    | with_reducible assumption
    | (with_reducible apply partsIn_dec; decide)
    | with_reducible apply Foot.next ?_ (State.portDrop_foot ..) ?_
    | with_reducible apply Foot.next ?_ (State.setBit_foot ..) ?_
    | with_reducible apply Foot.next ?_ (State.setIf_foot ..) ?_
    | with_reducible apply Foot.ite ?_ ?_
    )

theorem execGateStopped_foot {d : Fin 10} {s : State} {t : State} (h : execGateStopped d s = .next t) : Foot [.regs, .clk, .ses] s t := by
  unfold execGateStopped at h
  try dsimp only at h
  with_reducible refine Foot.ofNext h ?_
  repeat' (first
    | with_reducible exact Foot.refl
    | with_reducible assumption
    | (with_reducible apply partsIn_dec; decide)
    | with_reducible apply Foot.next ?_ (State.gateStopped_foot ..) ?_
    )

end Sys2Proof.Machine
end

