-- ==== Sys2Proof/Laws/FootSesBase.lean ====
section
/-! SUPPORT. Footprints of the functions of Machine/SesBase.lean. -/

namespace Sys2Proof.Machine

theorem State.modSes_foot (s : State) (f : SesSt → SesSt) : Foot [.ses] s (State.modSes s f) := by
  unfold State.modSes
  try dsimp only
  repeat' (first
    | with_reducible exact Foot.refl
    | with_reducible assumption
    | (with_reducible apply partsIn_dec; decide)
    | with_reducible apply Foot.next ?_ Foot.ses_upd ?_
    )

theorem State.modSess_foot (s : State) (n : Nat) (f : Sess → Sess) : Foot [.ses] s (State.modSess s n f) := by
  unfold State.modSess
  try dsimp only
  repeat' (first
    | with_reducible exact Foot.refl
    | with_reducible assumption
    | (with_reducible apply partsIn_dec; decide)
    | with_reducible apply Foot.next ?_ (State.modSes_foot ..) ?_
    )

theorem State.sendTmp_foot (s : State) (p : Peer) (key salt : List Byte) (type flags sid seq : Nat) (payload : List Byte) : Foot [.ses] s (State.sendTmp s p key salt type flags sid seq payload) := by
  unfold State.sendTmp
  try dsimp only
  repeat' (first
    | with_reducible exact Foot.refl
    | with_reducible assumption
    | (with_reducible apply partsIn_dec; decide)
    | with_reducible apply Foot.next ?_ (State.emit_foot ..) ?_
    | with_reducible apply Foot.ite ?_ ?_
    )

theorem State.sesSend_foot (s : State) (n : Nat) (p : Peer) (type flags : Nat) (payload : List Byte) : Foot [.regs, .ses] s (State.sesSend s n p type flags payload) := by
  unfold State.sesSend
  try dsimp only
  repeat' (first
    | with_reducible exact Foot.refl
    | with_reducible assumption
    | (with_reducible apply partsIn_dec; decide)
    | with_reducible apply Foot.next ?_ (State.set64_foot ..) ?_
    | with_reducible apply Foot.next ?_ (State.sendTmp_foot ..) ?_
    | with_reducible apply Foot.ite ?_ ?_
    )

theorem State.reply_foot (s : State) (n : Nat) (p : Peer) (type seq status detail : Nat) (body : List Byte) : Foot [.regs, .ses] s (State.reply s n p type seq status detail body) := by
  unfold State.reply
  try dsimp only
  repeat' (first
    | with_reducible exact Foot.refl
    | with_reducible assumption
    | (with_reducible apply partsIn_dec; decide)
    | with_reducible apply Foot.next ?_ (State.sesSend_foot ..) ?_
    )

theorem State.sesSync_foot (s : State) : Foot [.regs] s (State.sesSync s) := by
  unfold State.sesSync
  try dsimp only
  repeat' (first
    | with_reducible exact Foot.refl
    | with_reducible assumption
    | (with_reducible apply partsIn_dec; decide)
    | with_reducible apply Foot.next ?_ (State.setAll_foot ..) ?_
    )

theorem State.scopeTake_foot (s : State) (n i : Nat) : Foot [.regs, .ses] s (State.scopeTake s n i) := by
  unfold State.scopeTake
  try dsimp only
  repeat' (first
    | with_reducible exact Foot.refl
    | with_reducible assumption
    | (with_reducible apply partsIn_dec; decide)
    | with_reducible apply Foot.next ?_ (State.modSess_foot ..) ?_
    | with_reducible apply Foot.next ?_ (State.setAll_foot ..) ?_
    )

theorem State.sesErase_foot (s : State) (n : Nat) : Foot [.regs, .ses] s (State.sesErase s n) := by
  unfold State.sesErase
  try dsimp only
  repeat' (first
    | with_reducible exact Foot.refl
    | with_reducible assumption
    | (with_reducible apply partsIn_dec; decide)
    | with_reducible apply Foot.next ?_ (State.sesSync_foot ..) ?_
    | with_reducible apply Foot.next ?_ (State.modSes_foot ..) ?_
    | with_reducible apply Foot.next ?_ (State.setAll_foot ..) ?_
    )

theorem State.hsAbandon_foot (s : State) (n : Nat) : Foot [.regs, .ses] s (State.hsAbandon s n) := by
  unfold State.hsAbandon
  try dsimp only
  repeat' (first
    | with_reducible exact Foot.refl
    | with_reducible assumption
    | (with_reducible apply partsIn_dec; decide)
    | with_reducible apply Foot.next ?_ (State.sesErase_foot ..) ?_
    | with_reducible apply Foot.next ?_ (State.bump_foot ..) ?_
    )

theorem State.jobsSync_foot (s : State) : Foot [.regs] s (State.jobsSync s) := by
  unfold State.jobsSync
  try dsimp only
  repeat' (first
    | with_reducible exact Foot.refl
    | with_reducible assumption
    | (with_reducible apply partsIn_dec; decide)
    | with_reducible apply Foot.next ?_ (State.setIf_foot ..) ?_
    | with_reducible apply Foot.next ?_ (State.setAll_foot ..) ?_
    )

theorem State.jobSet_foot (s : State) (n j : Nat) : Foot [.regs] s (State.jobSet s n j) := by
  unfold State.jobSet
  try dsimp only
  repeat' (first
    | with_reducible exact Foot.refl
    | with_reducible assumption
    | (with_reducible apply partsIn_dec; decide)
    | with_reducible apply Foot.next ?_ (State.jobsSync_foot ..) ?_
    | with_reducible apply Foot.next ?_ (State.set_foot ..) ?_
    )

theorem State.floorResolve_foot (s : State) (val src on : Fld) (bit : Nat) (e : Nat × Nat) : Foot [.regs, .ses] s (State.floorResolve s val src on bit e) := by
  unfold State.floorResolve
  try dsimp only
  repeat' (first
    | with_reducible exact Foot.refl
    | with_reducible assumption
    | (with_reducible apply partsIn_dec; decide)
    | with_reducible apply Foot.next ?_ (State.modSes_foot ..) ?_
    | with_reducible apply Foot.next ?_ (State.setAll_foot ..) ?_
    | with_reducible apply Foot.next ?_ (State.set_foot ..) ?_
    | with_reducible apply Foot.ite ?_ ?_
    )

theorem State.resolve_foot (s : State) : Foot [.regs, .ses] s (State.resolve s) := by
  unfold State.resolve
  try dsimp only
  repeat' (first
    | with_reducible exact Foot.refl
    | with_reducible assumption
    | (with_reducible apply partsIn_dec; decide)
    | with_reducible apply Foot.next ?_ (State.floorResolve_foot ..) ?_
    | with_reducible apply Foot.next ?_ (State.floorCopy_foot ..) ?_
    | with_reducible apply Foot.next ?_ (State.setAll_foot ..) ?_
    | with_reducible apply Foot.foldl (fun _ _ _ => ?_) ?_
    )

theorem State.sesClose_foot (s : State) (n cause : Nat) : Foot [.regs, .brg, .inf, .acd, .ses] s (State.sesClose s n cause) := by
  unfold State.sesClose
  try dsimp only
  repeat' (first
    | with_reducible exact Foot.refl
    | with_reducible assumption
    | (with_reducible apply partsIn_dec; decide)
    | with_reducible apply Foot.next ?_ (State.resolve_foot ..) ?_
    | with_reducible apply Foot.next ?_ (State.hintClose_foot ..) ?_
    | with_reducible apply Foot.next ?_ (State.jobsSync_foot ..) ?_
    | with_reducible apply Foot.next ?_ (State.sesErase_foot ..) ?_
    | with_reducible apply Foot.next ?_ (State.logTop_foot ..) ?_
    | with_reducible apply Foot.next ?_ (State.modAcd_foot ..) ?_
    | with_reducible apply Foot.next ?_ (State.set_foot ..) ?_
    | with_reducible apply Foot.ite ?_ ?_
    )

theorem State.fecCount_foot (s : State) (port : Nat) (f : FecCount) : Foot [.regs] s (State.fecCount s port f) := by
  unfold State.fecCount
  try dsimp only
  repeat' (first
    | with_reducible exact Foot.refl
    | with_reducible assumption
    | (with_reducible apply partsIn_dec; decide)
    | with_reducible apply Foot.next ?_ (State.bump_foot ..) ?_
    | with_reducible apply Foot.ite ?_ ?_
    )

theorem State.scopeTrim_foot (s : State) (n : Nat) : Foot [.regs, .inf, .ses] s (State.scopeTrim s n) := by
  unfold State.scopeTrim
  try dsimp only
  repeat' (first
    | with_reducible exact Foot.refl
    | with_reducible assumption
    | (with_reducible apply partsIn_dec; decide)
    | with_reducible apply Foot.next ?_ (State.hintForget_foot ..) ?_
    | with_reducible apply Foot.next ?_ (State.setIf_foot ..) ?_
    | with_reducible apply Foot.next ?_ (State.modSess_foot ..) ?_
    )

theorem State.rematchOne_foot (s : State) (n : Nat) : Foot [.regs, .brg, .inf, .acd, .ses] s (State.rematchOne s n) := by
  unfold State.rematchOne
  try dsimp only
  repeat' (first
    | with_reducible exact Foot.refl
    | with_reducible assumption
    | (with_reducible apply partsIn_dec; decide)
    | with_reducible apply Foot.next ?_ (State.scopeTrim_foot ..) ?_
    | with_reducible apply Foot.next ?_ (State.sesClose_foot ..) ?_
    | with_reducible apply Foot.next ?_ (State.scopeTake_foot ..) ?_
    | with_reducible apply Foot.next ?_ (State.set_foot ..) ?_
    | with_reducible apply Foot.ite ?_ ?_
    | split
    )

theorem State.rematch_foot (s : State) : Foot [.regs, .brg, .inf, .acd, .ses] s (State.rematch s) := by
  unfold State.rematch
  try dsimp only
  repeat' (first
    | with_reducible exact Foot.refl
    | with_reducible assumption
    | (with_reducible apply partsIn_dec; decide)
    | with_reducible apply Foot.next ?_ (State.rematchOne_foot ..) ?_
    | with_reducible apply Foot.next ?_ (State.resolve_foot ..) ?_
    | with_reducible apply Foot.foldl (fun _ _ _ => ?_) ?_
    | split
    )

end Sys2Proof.Machine
end

