-- ==== Sys2Proof/Laws/FootKeyStore.lean ====
section
/-! SUPPORT. Footprints of the functions of Machine/KeyStore.lean. -/

namespace Sys2Proof.Machine

theorem State.btnPress_foot (s : State) : Foot [.regs, .sil, .key] s (State.btnPress s) := by
  unfold State.btnPress
  try dsimp only
  repeat' (first
    | with_reducible exact Foot.refl
    | with_reducible assumption
    | (with_reducible apply partsIn_dec; decide)
    | with_reducible apply Foot.next ?_ (State.presOpen_foot ..) ?_
    | with_reducible apply Foot.ite ?_ ?_
    )

theorem execPresBtnPress_foot {s : State} {t : State} (h : execPresBtnPress s = .next t) : Foot [.regs, .sil, .key] s t := by
  unfold execPresBtnPress at h
  try dsimp only at h
  with_reducible refine Foot.ofNext h ?_
  repeat' (first
    | with_reducible exact Foot.refl
    | with_reducible assumption
    | (with_reducible apply partsIn_dec; decide)
    | with_reducible apply Foot.next ?_ (State.btnPress_foot ..) ?_
    )

theorem execPresenceWindowEnd_foot {s : State} {t : State} (h : execPresenceWindowEnd s = .next t) : Foot [.regs, .sil] s t := by
  unfold execPresenceWindowEnd at h
  try dsimp only at h
  with_reducible refine Foot.ofNext h ?_
  repeat' (first
    | with_reducible exact Foot.refl
    | with_reducible assumption
    | (with_reducible apply partsIn_dec; decide)
    | with_reducible apply Foot.next ?_ (State.presClose_foot ..) ?_
    )

theorem execPresClose_foot {ini : Initiator} {s : State} {t : State} (h : execPresClose ini s = .next t) : Foot [.regs, .sil, .bus] s t := by
  unfold execPresClose at h
  try dsimp only at h
  with_reducible refine Foot.ofNext h ?_
  repeat' (first
    | with_reducible exact Foot.refl
    | with_reducible assumption
    | (with_reducible apply partsIn_dec; decide)
    | with_reducible apply Foot.trans ?_ (State.command_foot _ _ _ _ ?_ ?_)
    | with_reducible apply Foot.next ?_ (State.presClose_foot ..) ?_
    )

theorem State.sealGood_foot (s : State) : Foot [.regs, .key] s (State.sealGood s) := by
  unfold State.sealGood
  try dsimp only
  repeat' (first
    | with_reducible exact Foot.refl
    | with_reducible assumption
    | (with_reducible apply partsIn_dec; decide)
    | with_reducible apply Foot.next ?_ (State.set_foot ..) ?_
    | with_reducible apply Foot.next ?_ (State.modKey_foot ..) ?_
    )

theorem execSealLoopContinuous_foot {s : State} {t : State} (h : execSealLoopContinuous s = .next t) : Foot [.regs, .key] s t := by
  unfold execSealLoopContinuous at h
  try dsimp only at h
  with_reducible refine Foot.ofNext h ?_
  repeat' (first
    | with_reducible exact Foot.refl
    | with_reducible assumption
    | (with_reducible apply partsIn_dec; decide)
    | with_reducible apply Foot.next ?_ (State.sealGood_foot ..) ?_
    )

theorem State.sealBroken_foot (s : State) (first : Bool) : Foot [.regs, .sil] s (State.sealBroken s first) := by
  unfold State.sealBroken
  try dsimp only
  repeat' (first
    | with_reducible exact Foot.refl
    | with_reducible assumption
    | (with_reducible apply partsIn_dec; decide)
    | with_reducible apply Foot.next ?_ (State.presClose_foot ..) ?_
    | with_reducible apply Foot.next ?_ (State.setAll_foot ..) ?_
    | with_reducible apply Foot.next ?_ (State.log_foot ..) ?_
    | with_reducible apply Foot.ite ?_ ?_
    )

theorem State.sealBad_foot (s : State) : Foot [.regs, .sil, .key] s (State.sealBad s) := by
  unfold State.sealBad
  try dsimp only
  repeat' (first
    | with_reducible exact Foot.refl
    | with_reducible assumption
    | (with_reducible apply partsIn_dec; decide)
    | with_reducible apply Foot.next ?_ (State.sealBroken_foot ..) ?_
    | with_reducible apply Foot.next ?_ (State.modKey_foot ..) ?_
    | with_reducible apply Foot.ite ?_ ?_
    )

theorem execSealBreak_foot {s : State} {t : State} (h : execSealBreak s = .next t) : Foot [.regs, .sil, .key] s t := by
  unfold execSealBreak at h
  try dsimp only at h
  with_reducible refine Foot.ofNext h ?_
  repeat' (first
    | with_reducible exact Foot.refl
    | with_reducible assumption
    | (with_reducible apply partsIn_dec; decide)
    | with_reducible apply Foot.next ?_ (State.sealBad_foot ..) ?_
    )

theorem State.otpSet_foot (s : State) (f : Fld) (v : Nat) : Foot [.regs, .otp] s (State.otpSet s f v) := by
  unfold State.otpSet
  try dsimp only
  repeat' (first
    | with_reducible exact Foot.refl
    | with_reducible assumption
    | (with_reducible apply partsIn_dec; decide)
    | with_reducible apply Foot.next ?_ (State.set_foot ..) ?_
    | with_reducible apply Foot.next ?_ Foot.otp_upd ?_
    )

theorem State.keyWrite_foot (s : State) (k : Nat) (dg : List Byte) : Foot [.regs, .otp] s (State.keyWrite s k dg) := by
  unfold State.keyWrite
  try dsimp only
  repeat' (first
    | with_reducible exact Foot.refl
    | with_reducible assumption
    | (with_reducible apply partsIn_dec; decide)
    | with_reducible apply Foot.next ?_ (State.otpSet_foot ..) ?_
    | with_reducible apply Foot.next ?_ (State.set_foot ..) ?_
    | with_reducible apply Foot.next ?_ Foot.otp_upd ?_
    )

theorem State.keyLog_foot (s : State) (op detail slot session : Nat) : Foot [.sil] s (State.keyLog s op detail slot session) := by
  unfold State.keyLog
  try dsimp only
  repeat' (first
    | with_reducible exact Foot.refl
    | with_reducible assumption
    | (with_reducible apply partsIn_dec; decide)
    | with_reducible apply Foot.next ?_ (State.log_foot ..) ?_
    )

theorem State.keyAdd_foot (s : State) (b : List Byte) (otpOk : Bool) (session : Nat) : Foot [.regs, .sil, .otp] s ((State.keyAdd s b otpOk session).2) := by
  unfold State.keyAdd
  try dsimp only
  repeat' (first
    | with_reducible exact Foot.refl
    | with_reducible assumption
    | (with_reducible apply partsIn_dec; decide)
    | with_reducible apply Foot.next ?_ (State.keyLog_foot ..) ?_
    | with_reducible apply Foot.next ?_ (State.keyWrite_foot ..) ?_
    | split
    | with_reducible apply Foot.iteSnd
    | dsimp only
    )

theorem State.keyAdd_foot' {s : State} {b : List Byte} {otpOk : Bool} {session : Nat} {a} {t : State} (h : State.keyAdd s b otpOk session = (a, t)) : Foot [.regs, .sil, .otp] s t := by
  have := State.keyAdd_foot s b otpOk session
  rwa [h] at this

theorem State.keyRetire_foot (s : State) (session : Nat) : Foot [.regs, .sil, .otp] s ((State.keyRetire s session).2) := by
  unfold State.keyRetire
  try dsimp only
  repeat' (first
    | with_reducible exact Foot.refl
    | with_reducible assumption
    | (with_reducible apply partsIn_dec; decide)
    | with_reducible apply Foot.next ?_ (State.keyLog_foot ..) ?_
    | with_reducible apply Foot.next ?_ (State.otpSet_foot ..) ?_
    | with_reducible apply Foot.foldl (fun _ _ _ => ?_) ?_
    | split
    | with_reducible apply Foot.iteSnd
    | dsimp only
    )

theorem State.keyRetire_foot' {s : State} {session : Nat} {a} {t : State} (h : State.keyRetire s session = (a, t)) : Foot [.regs, .sil, .otp] s t := by
  have := State.keyRetire_foot s session
  rwa [h] at this

theorem State.dbgChallenge_foot (s : State) (scope dur : Nat) : Foot [.key, .fresh] s ((State.dbgChallenge s scope dur).2) := by
  unfold State.dbgChallenge
  try dsimp only
  repeat' (first
    | with_reducible exact Foot.refl
    | with_reducible assumption
    | (with_reducible apply partsIn_dec; decide)
    | with_reducible apply Foot.next ?_ (State.draw_foot ..) ?_
    | with_reducible apply Foot.next ?_ (State.modKey_foot ..) ?_
    | with_reducible apply Foot.iteSnd
    | dsimp only
    )

theorem State.dbgChallenge_foot' {s : State} {scope dur : Nat} {a} {t : State} (h : State.dbgChallenge s scope dur = (a, t)) : Foot [.key, .fresh] s t := by
  have := State.dbgChallenge_foot s scope dur
  rwa [h] at this

theorem State.dbgResponse_foot (s : State) (scope dur : Nat) (sig : List Byte) (session : Nat) : Foot [.regs, .sil, .key] s ((State.dbgResponse s scope dur sig session).2) := by
  unfold State.dbgResponse
  try dsimp only
  repeat' (first
    | with_reducible exact Foot.refl
    | with_reducible assumption
    | (with_reducible apply partsIn_dec; decide)
    | with_reducible apply Foot.next ?_ (State.setAll_foot ..) ?_
    | with_reducible apply Foot.next ?_ (State.modKey_foot ..) ?_
    | with_reducible apply Foot.next ?_ (State.log_foot ..) ?_
    | with_reducible apply Foot.ite ?_ ?_
    | with_reducible apply Foot.iteSnd
    | dsimp only
    )

theorem State.dbgResponse_foot' {s : State} {scope dur : Nat} {sig : List Byte} {session : Nat} {a} {t : State} (h : State.dbgResponse s scope dur sig session = (a, t)) : Foot [.regs, .sil, .key] s t := by
  have := State.dbgResponse_foot s scope dur sig session
  rwa [h] at this

theorem execDebugLock_foot {s : State} {t : State} (h : execDebugLock s = .next t) : Foot [.regs, .sil] s t := by
  unfold execDebugLock at h
  try dsimp only at h
  with_reducible refine Foot.ofNext h ?_
  repeat' (first
    | with_reducible exact Foot.refl
    | with_reducible assumption
    | (with_reducible apply partsIn_dec; decide)
    | with_reducible apply Foot.next ?_ (State.dbgLock_foot ..) ?_
    )

theorem State.reqStore_foot (s : State) (bs : List Byte) : Foot [.regs] s (State.reqStore s bs) := by
  unfold State.reqStore
  try dsimp only
  repeat' (first
    | with_reducible exact Foot.refl
    | with_reducible assumption
    | (with_reducible apply partsIn_dec; decide)
    | with_reducible apply Foot.next ?_ (State.set_foot ..) ?_
    | with_reducible apply Foot.foldl (fun _ _ _ => ?_) ?_
    )

theorem State.reqRun_foot (s : State) (op : Nat) (otpOk : Bool) : Foot [.regs, .sil, .otp, .key, .fresh] s ((State.reqRun s op otpOk).2) := by
  unfold State.reqRun
  try dsimp only
  repeat' (first
    | with_reducible exact Foot.refl
    | with_reducible assumption
    | (with_reducible apply partsIn_dec; decide)
    | with_reducible apply Foot.next ?_ (State.fpStatement_foot ..) ?_
    | with_reducible apply Foot.next ?_ (State.dbgResponse_foot ..) ?_
    | with_reducible apply Foot.next ?_ (State.dbgChallenge_foot ..) ?_
    | with_reducible apply Foot.next ?_ (State.draw_foot ..) ?_
    | with_reducible apply Foot.next ?_ (State.keyRetire_foot ..) ?_
    | with_reducible apply Foot.next ?_ (State.keyAdd_foot ..) ?_
    | with_reducible apply Foot.ite ?_ ?_
    | split
    | with_reducible apply Foot.iteSnd
    | dsimp only
    | with_reducible refine Foot.next ?_ (State.fpStatement_foot' (by assumption)) (by decide)
    | with_reducible refine Foot.next ?_ (State.dbgResponse_foot' (by assumption)) (by decide)
    | with_reducible refine Foot.next ?_ (State.dbgChallenge_foot' (by assumption)) (by decide)
    | with_reducible refine Foot.next ?_ (State.keyRetire_foot' (by assumption)) (by decide)
    | with_reducible refine Foot.next ?_ (State.keyAdd_foot' (by assumption)) (by decide)
    )

theorem State.reqRun_foot' {s : State} {op : Nat} {otpOk : Bool} {a} {t : State} (h : State.reqRun s op otpOk = (a, t)) : Foot [.regs, .sil, .otp, .key, .fresh] s t := by
  have := State.reqRun_foot s op otpOk
  rwa [h] at this

theorem State.keyReq_foot (s : State) (op : Nat) (otpOk : Bool) : Foot [.regs, .sil, .otp, .key, .fresh] s (State.keyReq s op otpOk) := by
  unfold State.keyReq
  try dsimp only
  repeat' (first
    | with_reducible exact Foot.refl
    | with_reducible assumption
    | (with_reducible apply partsIn_dec; decide)
    | with_reducible apply Foot.next ?_ (State.reqRun_foot ..) ?_
    | with_reducible apply Foot.next ?_ (State.set_foot ..) ?_
    | with_reducible apply Foot.next ?_ (State.modKey_foot ..) ?_
    | with_reducible apply Foot.ite ?_ ?_
    | with_reducible refine Foot.next ?_ (State.reqRun_foot' (by assumption)) (by decide)
    )

theorem execKeyFpStatement_foot {ini : Initiator} {s : State} {t : State} (h : execKeyFpStatement ini s = .next t) : Foot [.regs, .sil, .otp, .key, .bus, .fresh] s t := by
  unfold execKeyFpStatement at h
  try dsimp only at h
  with_reducible refine Foot.ofNext h ?_
  repeat' (first
    | with_reducible exact Foot.refl
    | with_reducible assumption
    | (with_reducible apply partsIn_dec; decide)
    | with_reducible apply Foot.next ?_ (State.keyReq_foot ..) ?_
    | with_reducible apply Foot.trans ?_ (State.command_foot _ _ _ _ ?_ ?_)
    )

theorem execGetPub_foot {ini : Initiator} {s : State} {t : State} (h : execGetPub ini s = .next t) : Foot [.regs, .sil, .otp, .key, .bus, .fresh] s t := by
  unfold execGetPub at h
  try dsimp only at h
  with_reducible refine Foot.ofNext h ?_
  repeat' (first
    | with_reducible exact Foot.refl
    | with_reducible assumption
    | (with_reducible apply partsIn_dec; decide)
    | with_reducible apply Foot.next ?_ (State.keyReq_foot ..) ?_
    | with_reducible apply Foot.trans ?_ (State.command_foot _ _ _ _ ?_ ?_)
    )

theorem execDbgChallenge_foot {ini : Initiator} {s : State} {t : State} (h : execDbgChallenge ini s = .next t) : Foot [.regs, .sil, .otp, .key, .bus, .fresh] s t := by
  unfold execDbgChallenge at h
  try dsimp only at h
  with_reducible refine Foot.ofNext h ?_
  repeat' (first
    | with_reducible exact Foot.refl
    | with_reducible assumption
    | (with_reducible apply partsIn_dec; decide)
    | with_reducible apply Foot.next ?_ (State.keyReq_foot ..) ?_
    | with_reducible apply Foot.trans ?_ (State.command_foot _ _ _ _ ?_ ?_)
    )

theorem execDbgResponse_foot {ini : Initiator} {s : State} {t : State} (h : execDbgResponse ini s = .next t) : Foot [.regs, .sil, .otp, .key, .bus, .fresh] s t := by
  unfold execDbgResponse at h
  try dsimp only at h
  with_reducible refine Foot.ofNext h ?_
  repeat' (first
    | with_reducible exact Foot.refl
    | with_reducible assumption
    | (with_reducible apply partsIn_dec; decide)
    | with_reducible apply Foot.next ?_ (State.keyReq_foot ..) ?_
    | with_reducible apply Foot.trans ?_ (State.command_foot _ _ _ _ ?_ ?_)
    )

theorem execKeyAdd_foot {ini : Initiator} {otpOk : Bool} {s : State} {t : State} (h : execKeyAdd ini otpOk s = .next t) : Foot [.regs, .sil, .otp, .key, .bus, .fresh] s t := by
  unfold execKeyAdd at h
  try dsimp only at h
  with_reducible refine Foot.ofNext h ?_
  repeat' (first
    | with_reducible exact Foot.refl
    | with_reducible assumption
    | (with_reducible apply partsIn_dec; decide)
    | with_reducible apply Foot.next ?_ (State.keyReq_foot ..) ?_
    | with_reducible apply Foot.trans ?_ (State.command_foot _ _ _ _ ?_ ?_)
    )

theorem execKeyRetire_foot {ini : Initiator} {s : State} {t : State} (h : execKeyRetire ini s = .next t) : Foot [.regs, .sil, .otp, .key, .bus, .fresh] s t := by
  unfold execKeyRetire at h
  try dsimp only at h
  with_reducible refine Foot.ofNext h ?_
  repeat' (first
    | with_reducible exact Foot.refl
    | with_reducible assumption
    | (with_reducible apply partsIn_dec; decide)
    | with_reducible apply Foot.next ?_ (State.keyReq_foot ..) ?_
    | with_reducible apply Foot.trans ?_ (State.command_foot _ _ _ _ ?_ ?_)
    )

theorem State.stmtServe_foot (s : State) : Foot [.regs, .acd, .ses, .fresh] s (State.stmtServe s) := by
  unfold State.stmtServe
  try dsimp only
  repeat' (first
    | with_reducible exact Foot.refl
    | with_reducible assumption
    | (with_reducible apply partsIn_dec; decide)
    | with_reducible apply Foot.next ?_ (State.reply_foot ..) ?_
    | with_reducible apply Foot.next ?_ (State.modSess_foot ..) ?_
    | with_reducible apply Foot.next ?_ (State.modAcd_foot ..) ?_
    | with_reducible apply Foot.next ?_ (State.fpStatement_foot ..) ?_
    | with_reducible apply Foot.ite ?_ ?_
    | split
    | with_reducible refine Foot.next ?_ (State.fpStatement_foot' (by assumption)) (by decide)
    )

theorem State.reqComplete_foot (s : State) : Foot [.regs, .acd, .key, .ses, .fresh] s (State.reqComplete s) := by
  unfold State.reqComplete
  try dsimp only
  repeat' (first
    | with_reducible exact Foot.refl
    | with_reducible assumption
    | (with_reducible apply partsIn_dec; decide)
    | with_reducible apply Foot.next ?_ (State.sendBegin_foot ..) ?_
    | with_reducible apply Foot.next ?_ (State.stmtServe_foot ..) ?_
    | with_reducible apply Foot.next ?_ (State.reqStore_foot ..) ?_
    | with_reducible apply Foot.next ?_ (State.setAll_foot ..) ?_
    | with_reducible apply Foot.next ?_ (State.modKey_foot ..) ?_
    | with_reducible apply Foot.ite ?_ ?_
    | split
    )

theorem execKeyRequestDone_foot {s : State} {t : State} (h : execKeyRequestDone s = .next t) : Foot [.regs, .acd, .key, .ses, .fresh] s t := by
  unfold execKeyRequestDone at h
  try dsimp only at h
  with_reducible refine Foot.ofNext h ?_
  repeat' (first
    | with_reducible exact Foot.refl
    | with_reducible assumption
    | (with_reducible apply partsIn_dec; decide)
    | with_reducible apply Foot.next ?_ (State.reqComplete_foot ..) ?_
    )

end Sys2Proof.Machine
end

