-- ==== Sys2Proof/Laws/FootSecurity.lean ====
section
/-! SUPPORT. Footprints of the functions of Machine/Security.lean. -/

namespace Sys2Proof.Machine

theorem State.flashPut_foot (s : State) (k : Nat) (img : List Byte) : Foot [.flash] s (State.flashPut s k img) := by
  unfold State.flashPut
  try dsimp only
  repeat' (first
    | with_reducible exact Foot.refl
    | with_reducible assumption
    | (with_reducible apply partsIn_dec; decide)
    | with_reducible apply Foot.next ?_ Foot.flash_upd ?_
    )

theorem State.markStaged_foot (s : State) (fs : List (Fld × Nat)) : Foot [.regs, .nvm] s (State.markStaged s fs) := by
  unfold State.markStaged
  try dsimp only
  repeat' (first
    | with_reducible exact Foot.refl
    | with_reducible assumption
    | (with_reducible apply partsIn_dec; decide)
    | with_reducible apply Foot.next ?_ (State.commitRegs_foot ..) ?_
    )

theorem State.modSec_foot (s : State) (f : SecSt → SecSt) : Foot [.sec] s (State.modSec s f) := by
  unfold State.modSec
  try dsimp only
  repeat' (first
    | with_reducible exact Foot.refl
    | with_reducible assumption
    | (with_reducible apply partsIn_dec; decide)
    | with_reducible apply Foot.next ?_ Foot.sec_upd ?_
    )

theorem State.setXfer_foot (s : State) (st : Nat) : Foot [.regs] s (State.setXfer s st) := by
  unfold State.setXfer
  try dsimp only
  repeat' (first
    | with_reducible exact Foot.refl
    | with_reducible assumption
    | (with_reducible apply partsIn_dec; decide)
    | with_reducible apply Foot.next ?_ (State.set_foot ..) ?_
    )

theorem State.stgDiscard_foot (s : State) : Foot [.regs, .sec] s (State.stgDiscard s) := by
  unfold State.stgDiscard
  try dsimp only
  repeat' (first
    | with_reducible exact Foot.refl
    | with_reducible assumption
    | (with_reducible apply partsIn_dec; decide)
    | with_reducible apply Foot.next ?_ (State.setXfer_foot ..) ?_
    | with_reducible apply Foot.next ?_ (State.modSec_foot ..) ?_
    )

theorem State.stgLost_foot (s : State) (o : Nat) : Foot [.regs, .brg, .sec] s (State.stgLost s o) := by
  unfold State.stgLost
  try dsimp only
  repeat' (first
    | with_reducible exact Foot.refl
    | with_reducible assumption
    | (with_reducible apply partsIn_dec; decide)
    | with_reducible apply Foot.next ?_ (State.stgDiscard_foot ..) ?_
    | with_reducible apply Foot.next ?_ (State.lpUncorr_foot ..) ?_
    )

theorem State.accordAccept_foot (s : State) (dg : List Byte) (flashOk : Bool) (uncorr : Option Nat) : Foot [.regs, .sil, .nvm, .brg, .sec, .flash] s ((State.accordAccept s dg flashOk uncorr).2) := by
  unfold State.accordAccept
  try dsimp only
  repeat' (first
    | with_reducible exact Foot.refl
    | with_reducible assumption
    | (with_reducible apply partsIn_dec; decide)
    | with_reducible apply Foot.next ?_ (State.stgLost_foot ..) ?_
    | with_reducible apply Foot.next ?_ (State.setXfer_foot ..) ?_
    | with_reducible apply Foot.next ?_ (State.modSec_foot ..) ?_
    | with_reducible apply Foot.next ?_ (State.markStaged_foot ..) ?_
    | with_reducible apply Foot.next ?_ (State.flashPut_foot ..) ?_
    | with_reducible apply Foot.next ?_ (State.acdPend_foot ..) ?_
    | with_reducible apply Foot.next ?_ (State.nvmCommit_foot ..) ?_
    | with_reducible apply Foot.next ?_ (State.set_foot ..) ?_
    | with_reducible apply Foot.ite ?_ ?_
    | split
    | with_reducible apply Foot.iteSnd
    | dsimp only
    )

theorem State.accordAccept_foot' {s : State} {dg : List Byte} {flashOk : Bool} {uncorr : Option Nat} {a} {t : State} (h : State.accordAccept s dg flashOk uncorr = (a, t)) : Foot [.regs, .sil, .nvm, .brg, .sec, .flash] s t := by
  have := State.accordAccept_foot s dg flashOk uncorr
  rwa [h] at this

theorem State.svcReply_foot (s : State) (p : Peer) (op xfer offset : Nat) (payload : List Byte) : Foot [.ses] s (State.svcReply s p op xfer offset payload) := by
  unfold State.svcReply
  try dsimp only
  repeat' (first
    | with_reducible exact Foot.refl
    | with_reducible assumption
    | (with_reducible apply partsIn_dec; decide)
    | with_reducible apply Foot.next ?_ (State.emit_foot ..) ?_
    )

theorem State.imgRefuse_foot (s : State) (code : Nat) (head : List Byte) (last : Bool) : Foot [.regs, .brg] s (State.imgRefuse s code head last) := by
  unfold State.imgRefuse
  try dsimp only
  repeat' (first
    | with_reducible exact Foot.refl
    | with_reducible assumption
    | (with_reducible apply partsIn_dec; decide)
    | with_reducible apply Foot.next ?_ (State.logTop_foot ..) ?_
    | with_reducible apply Foot.next ?_ (State.bump_foot ..) ?_
    | with_reducible apply Foot.next ?_ (State.setAll_foot ..) ?_
    | with_reducible apply Foot.ite ?_ ?_
    )

theorem State.svcBegin_foot (s : State) (p : Peer) (xfer total : Nat) : Foot [.regs, .brg, .ses, .sec] s (State.svcBegin s p xfer total) := by
  unfold State.svcBegin
  try dsimp only
  repeat' (first
    | with_reducible exact Foot.refl
    | with_reducible assumption
    | (with_reducible apply partsIn_dec; decide)
    | with_reducible apply Foot.next ?_ (State.imgRefuse_foot ..) ?_
    | with_reducible apply Foot.next ?_ (State.svcReply_foot ..) ?_
    | with_reducible apply Foot.next ?_ (State.setXfer_foot ..) ?_
    | with_reducible apply Foot.next ?_ (State.modSec_foot ..) ?_
    | with_reducible apply Foot.ite ?_ ?_
    )

theorem execSvcBegin_foot {peer : Peer} {xfer total : BitVec 32} {s : State} {t : State} (h : execSvcBegin peer xfer total s = .next t) : Foot [.regs, .brg, .ses, .sec] s t := by
  unfold execSvcBegin at h
  try dsimp only at h
  with_reducible refine Foot.ofNext h ?_
  repeat' (first
    | with_reducible exact Foot.refl
    | with_reducible assumption
    | (with_reducible apply partsIn_dec; decide)
    | with_reducible apply Foot.next ?_ (State.svcBegin_foot ..) ?_
    | with_reducible apply Foot.next ?_ (State.sendBegin_foot ..) ?_
    | with_reducible apply Foot.ite ?_ ?_
    )

theorem State.stage_foot (s : State) (o : Nat) (bs : List Byte) : Foot [.clk, .mem] s (State.stage s o bs) := by
  unfold State.stage
  try dsimp only
  repeat' (first
    | with_reducible exact Foot.refl
    | with_reducible assumption
    | (with_reducible apply partsIn_dec; decide)
    | with_reducible apply Foot.next ?_ (State.portStore_foot ..) ?_
    | with_reducible apply Foot.ite ?_ ?_
    | with_reducible apply Foot.next ?_ Foot.memStore ?_
    | with_reducible apply Foot.next ?_ Foot.memForget ?_
    )

theorem State.svcData_foot (s : State) (p : Peer) (xfer o : Nat) (bs : List Byte) : Foot [.clk, .ses, .sec, .mem] s (State.svcData s p xfer o bs) := by
  unfold State.svcData
  try dsimp only
  repeat' (first
    | with_reducible exact Foot.refl
    | with_reducible assumption
    | (with_reducible apply partsIn_dec; decide)
    | with_reducible apply Foot.next ?_ (State.stage_foot ..) ?_
    | with_reducible apply Foot.next ?_ (State.svcReply_foot ..) ?_
    | with_reducible apply Foot.next ?_ (State.modSec_foot ..) ?_
    | with_reducible apply Foot.ite ?_ ?_
    )

theorem execSvcData_foot {peer : Peer} {xfer offset : BitVec 32} {bytes : List Byte} {s : State} {t : State} (h : execSvcData peer xfer offset bytes s = .next t) : Foot [.clk, .ses, .sec, .mem] s t := by
  unfold execSvcData at h
  try dsimp only at h
  with_reducible refine Foot.ofNext h ?_
  repeat' (first
    | with_reducible exact Foot.refl
    | with_reducible assumption
    | (with_reducible apply partsIn_dec; decide)
    | with_reducible apply Foot.next ?_ (State.svcData_foot ..) ?_
    | with_reducible apply Foot.next ?_ (State.sendBegin_foot ..) ?_
    | with_reducible apply Foot.ite ?_ ?_
    )

theorem State.slotsEmpty_foot (s : State) : Foot [.regs] s (State.slotsEmpty s) := by
  unfold State.slotsEmpty
  try dsimp only
  repeat' (first
    | with_reducible exact Foot.refl
    | with_reducible assumption
    | (with_reducible apply partsIn_dec; decide)
    | with_reducible apply Foot.next ?_ (State.set_foot ..) ?_
    | with_reducible apply Foot.foldl (fun _ _ _ => ?_) ?_
    )

theorem State.svcEnd_foot (s : State) (p : Peer) (xfer : Nat) (uncorr : Option Nat) : Foot [.regs, .brg, .ses, .sec] s (State.svcEnd s p xfer uncorr) := by
  unfold State.svcEnd
  try dsimp only
  repeat' (first
    | with_reducible exact Foot.refl
    | with_reducible assumption
    | (with_reducible apply partsIn_dec; decide)
    | with_reducible apply Foot.next ?_ (State.imgRefuse_foot ..) ?_
    | with_reducible apply Foot.next ?_ (State.svcReply_foot ..) ?_
    | with_reducible apply Foot.next ?_ (State.stgDiscard_foot ..) ?_
    | with_reducible apply Foot.next ?_ (State.lpUncorr_foot ..) ?_
    | with_reducible apply Foot.next ?_ (State.setXfer_foot ..) ?_
    | with_reducible apply Foot.next ?_ (State.modSec_foot ..) ?_
    | with_reducible apply Foot.next ?_ (State.bump_foot ..) ?_
    | with_reducible apply Foot.next ?_ (State.setAll_foot ..) ?_
    | with_reducible apply Foot.ite ?_ ?_
    | split
    )

theorem State.svcQuery_foot (s : State) (p : Peer) (xfer : Nat) : Foot [.ses, .fresh] s (State.svcQuery s p xfer) := by
  unfold State.svcQuery
  try dsimp only
  repeat' (first
    | with_reducible exact Foot.refl
    | with_reducible assumption
    | (with_reducible apply partsIn_dec; decide)
    | with_reducible apply Foot.next ?_ (State.svcReply_foot ..) ?_
    | with_reducible apply Foot.next ?_ (State.draw_foot ..) ?_
    | with_reducible apply Foot.ite ?_ ?_
    )

theorem execSvcQuery_foot {peer : Peer} {xfer : BitVec 32} {s : State} {t : State} (h : execSvcQuery peer xfer s = .next t) : Foot [.ses, .fresh] s t := by
  unfold execSvcQuery at h
  try dsimp only at h
  with_reducible refine Foot.ofNext h ?_
  repeat' (first
    | with_reducible exact Foot.refl
    | with_reducible assumption
    | (with_reducible apply partsIn_dec; decide)
    | with_reducible apply Foot.next ?_ (State.svcQuery_foot ..) ?_
    | with_reducible apply Foot.next ?_ (State.sendBegin_foot ..) ?_
    | with_reducible apply Foot.ite ?_ ?_
    )

theorem State.xferAbandon_foot (s : State) : Foot [.regs, .brg, .sec] s (State.xferAbandon s) := by
  unfold State.xferAbandon
  try dsimp only
  repeat' (first
    | with_reducible exact Foot.refl
    | with_reducible assumption
    | (with_reducible apply partsIn_dec; decide)
    | with_reducible apply Foot.next ?_ (State.imgRefuse_foot ..) ?_
    | with_reducible apply Foot.next ?_ (State.setXfer_foot ..) ?_
    | with_reducible apply Foot.next ?_ (State.modSec_foot ..) ?_
    | with_reducible apply Foot.ite ?_ ?_
    )

theorem execTransferTimeout_foot {s : State} {t : State} (h : execTransferTimeout s = .next t) : Foot [.regs, .brg, .sec] s t := by
  unfold execTransferTimeout at h
  try dsimp only at h
  with_reducible refine Foot.ofNext h ?_
  repeat' (first
    | with_reducible exact Foot.refl
    | with_reducible assumption
    | (with_reducible apply partsIn_dec; decide)
    | with_reducible apply Foot.next ?_ (State.xferAbandon_foot ..) ?_
    )

theorem State.flashFree_foot (s : State) (k : Nat) : Foot [.flash] s (State.flashFree s k) := by
  unfold State.flashFree
  try dsimp only
  repeat' (first
    | with_reducible exact Foot.refl
    | with_reducible assumption
    | (with_reducible apply partsIn_dec; decide)
    | with_reducible apply Foot.next ?_ Foot.flash_upd ?_
    )

theorem State.progMark_foot (s : State) (n : Nat) (b : Bool) : Foot [.regs, .nvm] s (State.progMark s n b) := by
  unfold State.progMark
  try dsimp only
  repeat' (first
    | with_reducible exact Foot.refl
    | with_reducible assumption
    | (with_reducible apply partsIn_dec; decide)
    | with_reducible apply Foot.next ?_ (State.markStaged_foot ..) ?_
    )

theorem State.emptyApply_foot (s : State) (img : List Byte) : Foot [.regs, .time, .clk, .sil, .nvm, .brg, .tw, .seq, .tamp, .cool, .tel, .acd, .ses, .flash, .bus, .mem] s (State.emptyApply s img) := by
  unfold State.emptyApply
  try dsimp only
  repeat' (first
    | with_reducible exact Foot.refl
    | with_reducible assumption
    | (with_reducible apply partsIn_dec; decide)
    | with_reducible apply Foot.next ?_ (State.topReload_foot ..) ?_
    | with_reducible apply Foot.next ?_ (State.flashPut_foot ..) ?_
    | with_reducible apply Foot.next ?_ (State.acdLock_foot ..) ?_
    | with_reducible apply Foot.next ?_ (State.nvmCommit_foot ..) ?_
    | with_reducible apply Foot.ite ?_ ?_
    )

theorem State.flashStaged_foot (s : State) (img : List Byte) : Foot [.regs, .time, .clk, .sil, .nvm, .brg, .tw, .seq, .tamp, .cool, .tel, .acd, .ses, .flash, .bus, .mem] s (State.flashStaged s img) := by
  unfold State.flashStaged
  try dsimp only
  repeat' (first
    | with_reducible exact Foot.refl
    | with_reducible assumption
    | (with_reducible apply partsIn_dec; decide)
    | with_reducible apply Foot.next ?_ (State.emptyApply_foot ..) ?_
    | with_reducible apply Foot.next ?_ (State.progMark_foot ..) ?_
    | with_reducible apply Foot.next ?_ (State.markStaged_foot ..) ?_
    | with_reducible apply Foot.next ?_ (State.flashPut_foot ..) ?_
    | split
    )

theorem State.flashDone_foot (s : State) (res : FlashEnd) (uncorr : Option Nat) : Foot [.regs, .time, .clk, .sil, .nvm, .brg, .tw, .seq, .tamp, .cool, .tel, .acd, .ses, .sec, .flash, .bus, .mem] s (State.flashDone s res uncorr) := by
  unfold State.flashDone
  try dsimp only
  repeat' (first
    | with_reducible exact Foot.refl
    | with_reducible assumption
    | (with_reducible apply partsIn_dec; decide)
    | with_reducible apply Foot.next ?_ (State.flashStaged_foot ..) ?_
    | with_reducible apply Foot.next ?_ (State.imgRefuse_foot ..) ?_
    | with_reducible apply Foot.next ?_ (State.stgLost_foot ..) ?_
    | with_reducible apply Foot.next ?_ (State.setXfer_foot ..) ?_
    | with_reducible apply Foot.next ?_ (State.modSec_foot ..) ?_
    | with_reducible apply Foot.ite ?_ ?_
    | split
    )

theorem execFlashWriteDone_foot {res : FlashEnd} {s : State} {uncorr : Option (BitVec 28)} {t : State} (h : execFlashWriteDone res s uncorr = .next t) : Foot [.regs, .time, .clk, .sil, .nvm, .brg, .tw, .seq, .tamp, .cool, .tel, .acd, .ses, .sec, .flash, .bus, .mem] s t := by
  unfold execFlashWriteDone at h
  try dsimp only at h
  with_reducible refine Foot.ofNext h ?_
  repeat' (first
    | with_reducible exact Foot.refl
    | with_reducible assumption
    | (with_reducible apply partsIn_dec; decide)
    | with_reducible apply Foot.next ?_ (State.flashDone_foot ..) ?_
    )

theorem State.progLoad_foot (s : State) (n : Nat) (img : List Byte) : Foot [.regs, .clk, .sil, .brg, .inf, .acd, .mem] s ((State.progLoad s n img).2) := by
  unfold State.progLoad
  try dsimp only
  repeat' (first
    | with_reducible exact Foot.refl
    | with_reducible assumption
    | (with_reducible apply partsIn_dec; decide)
    | with_reducible apply Foot.next ?_ (State.loadProgram_foot ..) ?_
    | with_reducible apply Foot.next ?_ (State.fpChange_foot ..) ?_
    | with_reducible apply Foot.next ?_ (State.modAcd_foot ..) ?_
    | with_reducible apply Foot.ite ?_ ?_
    | with_reducible apply Foot.iteSnd
    | dsimp only
    | with_reducible refine Foot.next ?_ (State.loadProgram_foot' (by assumption)) (by decide)
    )

theorem State.progLoad_foot' {s : State} {n : Nat} {img : List Byte} {a} {t : State} (h : State.progLoad s n img = (a, t)) : Foot [.regs, .clk, .sil, .brg, .inf, .acd, .mem] s t := by
  have := State.progLoad_foot s n img
  rwa [h] at this

theorem State.programLoad_foot (s : State) (n : Nat) : Foot [.regs, .clk, .sil, .brg, .inf, .acd, .mem] s (State.programLoad s n) := by
  unfold State.programLoad
  try dsimp only
  repeat' (first
    | with_reducible exact Foot.refl
    | with_reducible assumption
    | (with_reducible apply partsIn_dec; decide)
    | with_reducible apply Foot.next ?_ (State.progLoad_foot ..) ?_
    | with_reducible apply Foot.next ?_ (State.imgRefuse_foot ..) ?_
    | with_reducible apply Foot.ite ?_ ?_
    | split
    | with_reducible refine Foot.next ?_ (State.progLoad_foot' (by assumption)) (by decide)
    )

theorem State.engineServe_foot (s : State) (a0 : EngineReq) : Foot [.regs, .clk, .sil, .brg, .inf, .acd, .ses, .sec, .mem] s (State.engineServe s a0) := by
  unfold State.engineServe
  try dsimp only
  repeat' (first
    | with_reducible exact Foot.refl
    | with_reducible assumption
    | (with_reducible apply partsIn_dec; decide)
    | with_reducible apply Foot.next ?_ (State.programLoad_foot ..) ?_
    | with_reducible apply Foot.next ?_ (State.svcEnd_foot ..) ?_
    | with_reducible apply Foot.ite ?_ ?_
    | split
    )

theorem State.engineAsk_foot (s : State) (r : EngineReq) : Foot [.regs, .clk, .sil, .brg, .inf, .acd, .ses, .sec, .mem] s (State.engineAsk s r) := by
  unfold State.engineAsk
  try dsimp only
  repeat' (first
    | with_reducible exact Foot.refl
    | with_reducible assumption
    | (with_reducible apply partsIn_dec; decide)
    | with_reducible apply Foot.next ?_ (State.engineServe_foot ..) ?_
    | with_reducible apply Foot.next ?_ (State.modSec_foot ..) ?_
    | with_reducible apply Foot.ite ?_ ?_
    )

theorem State.engineNext_foot (s : State) : Foot [.regs, .clk, .sil, .brg, .inf, .acd, .ses, .sec, .mem] s (State.engineNext s) := by
  unfold State.engineNext
  try dsimp only
  repeat' (first
    | with_reducible exact Foot.refl
    | with_reducible assumption
    | (with_reducible apply partsIn_dec; decide)
    | with_reducible apply Foot.next ?_ (State.engineServe_foot ..) ?_
    | with_reducible apply Foot.next ?_ (State.modSec_foot ..) ?_
    | with_reducible apply Foot.next ?_ (State.sendBegin_foot ..) ?_
    | with_reducible apply Foot.ite ?_ ?_
    | split
    )

theorem execSvcEnd_foot {peer : Peer} {xfer : BitVec 32} {s : State} {uncorr : Option (BitVec 28)} {t : State} (h : execSvcEnd peer xfer s uncorr = .next t) : Foot [.regs, .clk, .sil, .brg, .inf, .acd, .ses, .sec, .mem] s t := by
  unfold execSvcEnd at h
  try dsimp only at h
  with_reducible refine Foot.ofNext h ?_
  repeat' (first
    | with_reducible exact Foot.refl
    | with_reducible assumption
    | (with_reducible apply partsIn_dec; decide)
    | with_reducible apply Foot.next ?_ (State.engineAsk_foot ..) ?_
    | with_reducible apply Foot.next ?_ (State.sendBegin_foot ..) ?_
    | with_reducible apply Foot.ite ?_ ?_
    )

theorem execProgramLoad_foot {n : Fin 16} {s : State} {t : State} (h : execProgramLoad n s = .next t) : Foot [.regs, .clk, .sil, .brg, .inf, .acd, .ses, .sec, .mem] s t := by
  unfold execProgramLoad at h
  try dsimp only at h
  with_reducible refine Foot.ofNext h ?_
  repeat' (first
    | with_reducible exact Foot.refl
    | with_reducible assumption
    | (with_reducible apply partsIn_dec; decide)
    | with_reducible apply Foot.next ?_ (State.engineAsk_foot ..) ?_
    | with_reducible apply Foot.ite ?_ ?_
    )

theorem State.actLog_foot (s : State) (img : List Byte) : Foot [.brg] s (State.actLog s img) := by
  unfold State.actLog
  try dsimp only
  repeat' (first
    | with_reducible exact Foot.refl
    | with_reducible assumption
    | (with_reducible apply partsIn_dec; decide)
    | with_reducible apply Foot.next ?_ (State.logTop_foot ..) ?_
    )

theorem State.setFmt_foot (s : State) (img : List Byte) : Foot [.regs, .nvm, .brg] s (State.setFmt s img) := by
  unfold State.setFmt
  try dsimp only
  repeat' (first
    | with_reducible exact Foot.refl
    | with_reducible assumption
    | (with_reducible apply partsIn_dec; decide)
    | with_reducible apply Foot.next ?_ (State.commitRegs_foot ..) ?_
    | with_reducible apply Foot.next ?_ (State.logTop_foot ..) ?_
    | with_reducible apply Foot.ite ?_ ?_
    )

theorem State.actStop_foot (s : State) : Foot [.regs, .inf] s (State.actStop s) := by
  unfold State.actStop
  try dsimp only
  repeat' (first
    | with_reducible exact Foot.refl
    | with_reducible assumption
    | (with_reducible apply partsIn_dec; decide)
    | with_reducible apply Foot.next ?_ (State.slotDisable_foot ..) ?_
    | with_reducible apply Foot.foldl (fun _ _ _ => ?_) ?_
    )

theorem State.progTake_foot (s : State) (n : Nat) (img : List Byte) : Foot [.regs, .clk, .sil, .brg, .inf, .acd, .mem] s ((State.progTake s n img).2) := by
  unfold State.progTake
  try dsimp only
  repeat' (first
    | with_reducible exact Foot.refl
    | with_reducible assumption
    | (with_reducible apply partsIn_dec; decide)
    | with_reducible apply Foot.next ?_ (State.progLoad_foot ..) ?_
    | with_reducible apply Foot.ite ?_ ?_
    | with_reducible apply Foot.iteSnd
    | dsimp only
    | with_reducible refine Foot.next ?_ (State.progLoad_foot' (by assumption)) (by decide)
    )

theorem State.progTake_foot' {s : State} {n : Nat} {img : List Byte} {a} {t : State} (h : State.progTake s n img = (a, t)) : Foot [.regs, .clk, .sil, .brg, .inf, .acd, .mem] s t := by
  have := State.progTake_foot s n img
  rwa [h] at this

theorem State.actProgram_foot (s : State) (n : Nat) (en : Bool) : Foot [.regs, .clk, .sil, .nvm, .brg, .inf, .acd, .flash, .mem] s (State.actProgram s n en) := by
  unfold State.actProgram
  try dsimp only
  repeat' (first
    | with_reducible exact Foot.refl
    | with_reducible assumption
    | (with_reducible apply partsIn_dec; decide)
    | with_reducible apply Foot.next ?_ (State.progTake_foot ..) ?_
    | with_reducible apply Foot.next ?_ (State.actLog_foot ..) ?_
    | with_reducible apply Foot.next ?_ (State.progMark_foot ..) ?_
    | with_reducible apply Foot.next ?_ (State.flashFree_foot ..) ?_
    | with_reducible apply Foot.next ?_ (State.imgRefuse_foot ..) ?_
    | with_reducible apply Foot.next ?_ (State.flashPut_foot ..) ?_
    | with_reducible apply Foot.next ?_ (State.raiseFloor_foot ..) ?_
    | with_reducible apply Foot.next ?_ (State.slotEnable_foot ..) ?_
    | with_reducible apply Foot.next ?_ (State.sigReinstall_foot ..) ?_
    | with_reducible apply Foot.ite ?_ ?_
    | with_reducible refine Foot.next ?_ (State.progTake_foot' (by assumption)) (by decide)
    )

theorem State.actAccord_foot (s : State) : Foot [.regs, .sil, .nvm, .brg, .cool, .inf, .acd, .ses] s (State.actAccord s) := by
  unfold State.actAccord
  try dsimp only
  repeat' (first
    | with_reducible exact Foot.refl
    | with_reducible assumption
    | (with_reducible apply partsIn_dec; decide)
    | with_reducible apply Foot.next ?_ (State.rematch_foot ..) ?_
    | with_reducible apply Foot.next ?_ (State.acdLive_foot ..) ?_
    | with_reducible apply Foot.next ?_ (State.setFmt_foot ..) ?_
    | with_reducible apply Foot.next ?_ (State.actLog_foot ..) ?_
    | with_reducible apply Foot.next ?_ (State.markStaged_foot ..) ?_
    | with_reducible apply Foot.next ?_ (State.acdPend_foot ..) ?_
    | with_reducible apply Foot.next ?_ (State.raiseFloor_foot ..) ?_
    | with_reducible apply Foot.ite ?_ ?_
    | split
    )

theorem State.actFirmware_foot (s : State) (k type : Nat) (mark : Fld) (use : State → List Byte → State) (hu : ∀ t i, Foot [.regs, .sil, .nvm, .brg, .acd] t (use t i)) : Foot [.regs, .sil, .nvm, .brg, .acd] s (State.actFirmware s k type mark use) := by
  unfold State.actFirmware
  try dsimp only
  repeat' (first
    | with_reducible exact Foot.refl
    | with_reducible assumption
    | (with_reducible apply partsIn_dec; decide)
    | with_reducible apply Foot.next ?_ (State.setFmt_foot ..) ?_
    | with_reducible apply Foot.next ?_ (State.actLog_foot ..) ?_
    | with_reducible apply Foot.next ?_ (State.markStaged_foot ..) ?_
    | with_reducible apply Foot.next ?_ (State.raiseFloor_foot ..) ?_
    | with_reducible apply Foot.next ?_ (State.nvmCommit_foot ..) ?_
    | with_reducible apply Foot.next ?_ (hu ..) ?_
    )

theorem State.cfwUse_foot'' (t : State) (i : List Byte) : Foot [.regs, .sil, .nvm, .brg, .acd] t (State.cfwUse t i) := (State.cfwUse_foot t i).mono (by decide)

theorem State.kfwUse_foot'' (t : State) (i : List Byte) : Foot [.regs, .sil, .nvm, .brg, .acd] t (State.kfwUse t i) := (State.kfwUse_foot t i).mono (by decide)

theorem State.activate_foot (s : State) (en : Nat) : Foot [.regs, .time, .clk, .sil, .nvm, .pwr, .brg, .tw, .seq, .tamp, .cool, .tel, .inf, .acd, .key, .fw, .ses, .sec, .flash, .bus, .mem] s (State.activate s en) := by
  unfold State.activate
  try dsimp only
  repeat' (first
    | with_reducible exact Foot.refl
    | with_reducible assumption
    | (with_reducible apply partsIn_dec; decide)
    | with_reducible apply Foot.next ?_ (State.actAccord_foot ..) ?_
    | with_reducible apply Foot.next ?_ (State.actProgram_foot ..) ?_
    | with_reducible apply Foot.next ?_ (State.switchDone_foot ..) ?_
    | with_reducible apply Foot.next ?_ (State.cfwUse_foot ..) ?_
    | with_reducible apply Foot.next ?_ (State.kfwUse_foot ..) ?_
    | with_reducible apply Foot.next ?_ (State.modPwr_foot ..) ?_
    | with_reducible apply Foot.next ?_ (State.set_foot ..) ?_
    | with_reducible apply Foot.foldl (fun _ _ _ => ?_) ?_
    | with_reducible apply Foot.ite ?_ ?_
    | with_reducible apply Foot.next ?_ (State.actFirmware_foot _ _ _ _ _ State.cfwUse_foot'') ?_
    | with_reducible apply Foot.next ?_ (State.actFirmware_foot _ _ _ _ _ State.kfwUse_foot'') ?_
    )

theorem State.actGo_foot (s : State) (en : Nat) : Foot [.regs, .time, .clk, .sil, .nvm, .pwr, .brg, .tw, .seq, .tamp, .cool, .tel, .inf, .acd, .key, .fw, .ses, .sec, .flash, .bus, .mem] s (State.actGo s en) := by
  unfold State.actGo
  try dsimp only
  repeat' (first
    | with_reducible exact Foot.refl
    | with_reducible assumption
    | (with_reducible apply partsIn_dec; decide)
    | with_reducible apply Foot.next ?_ (State.activate_foot ..) ?_
    | with_reducible apply Foot.next ?_ (State.modSec_foot ..) ?_
    | with_reducible apply Foot.next ?_ (State.set_foot ..) ?_
    | with_reducible apply Foot.ite ?_ ?_
    )

theorem State.actCheck_foot (s : State) : Foot [.regs, .time, .clk, .sil, .nvm, .pwr, .brg, .tw, .seq, .tamp, .cool, .tel, .inf, .acd, .key, .fw, .ses, .sec, .flash, .bus, .mem] s (State.actCheck s) := by
  unfold State.actCheck
  try dsimp only
  repeat' (first
    | with_reducible exact Foot.refl
    | with_reducible assumption
    | (with_reducible apply partsIn_dec; decide)
    | with_reducible apply Foot.next ?_ (State.actGo_foot ..) ?_
    | with_reducible apply Foot.next ?_ (State.actStop_foot ..) ?_
    | with_reducible apply Foot.next ?_ (State.modSec_foot ..) ?_
    | with_reducible apply Foot.next ?_ (State.logTop_foot ..) ?_
    | with_reducible apply Foot.next ?_ (State.set_foot ..) ?_
    | with_reducible apply Foot.ite ?_ ?_
    )

theorem execActivationCheck_foot {s : State} {t : State} (h : execActivationCheck s = .next t) : Foot [.regs, .time, .clk, .sil, .nvm, .pwr, .brg, .tw, .seq, .tamp, .cool, .tel, .inf, .acd, .key, .fw, .ses, .sec, .flash, .bus, .mem] s t := by
  unfold execActivationCheck at h
  try dsimp only at h
  with_reducible refine Foot.ofNext h ?_
  repeat' (first
    | with_reducible exact Foot.refl
    | with_reducible assumption
    | (with_reducible apply partsIn_dec; decide)
    | with_reducible apply Foot.next ?_ (State.actCheck_foot ..) ?_
    | with_reducible apply Foot.ite ?_ ?_
    )

theorem State.actAbandon_foot (s : State) : Foot [.regs, .nvm, .sec, .flash] s (State.actAbandon s) := by
  unfold State.actAbandon
  try dsimp only
  repeat' (first
    | with_reducible exact Foot.refl
    | with_reducible assumption
    | (with_reducible apply partsIn_dec; decide)
    | with_reducible apply Foot.next ?_ (State.flashFree_foot ..) ?_
    | with_reducible apply Foot.next ?_ (State.modSec_foot ..) ?_
    | with_reducible apply Foot.next ?_ (State.markStaged_foot ..) ?_
    | with_reducible apply Foot.next ?_ (State.nvmCommit_foot ..) ?_
    | with_reducible apply Foot.next ?_ (State.set_foot ..) ?_
    | with_reducible apply Foot.foldl (fun _ _ _ => ?_) ?_
    | with_reducible apply Foot.ite ?_ ?_
    )

theorem execAbandonStaged_foot {ini : Initiator} {s : State} {t : State} (h : execAbandonStaged ini s = .next t) : Foot [.regs, .sil, .nvm, .sec, .flash, .bus] s t := by
  unfold execAbandonStaged at h
  try dsimp only at h
  with_reducible refine Foot.ofNext h ?_
  repeat' (first
    | with_reducible exact Foot.refl
    | with_reducible assumption
    | (with_reducible apply partsIn_dec; decide)
    | with_reducible apply Foot.next ?_ (State.actAbandon_foot ..) ?_
    | with_reducible apply Foot.trans ?_ (State.command_foot _ _ _ _ ?_ ?_)
    )

end Sys2Proof.Machine
end

