-- ==== Sys2Proof/Laws/FootTamp.lean ====
section
/-! SUPPORT. Footprints of the functions of Machine/Tamp.lean. -/

namespace Sys2Proof.Machine

theorem State.proposalHeld_foot (s : State) (p : Nat) : Foot [.regs, .brg, .tw, .tamp, .fw] s (State.proposalHeld s p) := by
  unfold State.proposalHeld
  try dsimp only
  repeat' (first
    | with_reducible exact Foot.refl
    | with_reducible assumption
    | (with_reducible apply partsIn_dec; decide)
    | with_reducible apply Foot.next ?_ (State.retrain_foot ..) ?_
    | with_reducible apply Foot.next ?_ (State.clampRelease_foot ..) ?_
    | with_reducible apply Foot.next ?_ (State.clampThrottleOff_foot ..) ?_
    | with_reducible apply Foot.next ?_ (State.modCport_foot ..) ?_
    | with_reducible apply Foot.ite ?_ ?_
    )

theorem State.proposalDeliver_foot (s : State) (b : Beats) : Foot [.regs, .time, .clk, .sil, .pwr, .brg, .tw, .seq, .tamp, .tel, .inf, .acd, .fw, .ses, .sec, .bus, .mem] s (State.proposalDeliver s b) := by
  unfold State.proposalDeliver
  try dsimp only
  repeat' (first
    | with_reducible exact Foot.refl
    | with_reducible assumption
    | (with_reducible apply partsIn_dec; decide)
    | with_reducible apply Foot.next ?_ (State.proposal_foot ..) ?_
    | with_reducible apply Foot.trans ?_ (State.message_foot _ _ _ _ _ _ _ _ (fun _ _ => ?_) ?_)
    | with_reducible apply Foot.next ?_ (State.guardTake_foot ..) ?_
    | with_reducible apply Foot.next ?_ (State.proposalHeld_foot ..) ?_
    | with_reducible apply Foot.foldl (fun _ _ _ => ?_) ?_
    | with_reducible apply Foot.ite ?_ ?_
    | split
    )

theorem execProposalArrival_foot {beats : Beats} {s : State} {t : State} (h : execProposalArrival beats s = .next t) : Foot [.regs, .time, .clk, .sil, .pwr, .brg, .tw, .seq, .tamp, .tel, .inf, .acd, .fw, .ses, .sec, .bus, .mem] s t := by
  unfold execProposalArrival at h
  try dsimp only at h
  with_reducible refine Foot.ofNext h ?_
  repeat' (first
    | with_reducible exact Foot.refl
    | with_reducible assumption
    | (with_reducible apply partsIn_dec; decide)
    | with_reducible apply Foot.next ?_ (State.proposalDeliver_foot ..) ?_
    )

theorem execClampRetry_foot {port : Fin 64} {s : State} {t : State} (h : execClampRetry port s = .next t) : Foot [.regs, .tw, .tamp] s t := by
  unfold execClampRetry at h
  try dsimp only at h
  with_reducible refine Foot.ofNext h ?_
  repeat' (first
    | with_reducible exact Foot.refl
    | with_reducible assumption
    | (with_reducible apply partsIn_dec; decide)
    | with_reducible apply Foot.next ?_ (State.clampRetry_foot ..) ?_
    )

theorem State.levelsSeen_foot (s : State) (lvls : Nat) : Foot [.regs, .clk, .tel, .inf, .fw, .mem] s (State.levelsSeen s lvls) := by
  unfold State.levelsSeen
  try dsimp only
  repeat' (first
    | with_reducible exact Foot.refl
    | with_reducible assumption
    | (with_reducible apply partsIn_dec; decide)
    | with_reducible apply Foot.next ?_ (State.viewUpdate_foot ..) ?_
    | with_reducible apply Foot.next ?_ (State.fireAll_foot ..) ?_
    | with_reducible apply Foot.foldl (fun _ _ _ => ?_) ?_
    )

theorem State.levelDeliver_foot (s : State) (b : Beats) : Foot [.regs, .time, .clk, .sil, .pwr, .brg, .tw, .seq, .tamp, .tel, .inf, .acd, .fw, .ses, .sec, .bus, .mem] s (State.levelDeliver s b) := by
  unfold State.levelDeliver
  try dsimp only
  repeat' (first
    | with_reducible exact Foot.refl
    | with_reducible assumption
    | (with_reducible apply partsIn_dec; decide)
    | with_reducible apply Foot.next ?_ (State.levelsSeen_foot ..) ?_
    | with_reducible apply Foot.trans ?_ (State.message_foot _ _ _ _ _ _ _ _ (fun _ _ => ?_) ?_)
    | with_reducible apply Foot.next ?_ (State.modBrg_foot ..) ?_
    | with_reducible apply Foot.ite ?_ ?_
    | split
    )

theorem execTampViewUpdate_foot {s : State} {beats : Beats} {t : State} (h : execTampViewUpdate s beats = .next t) : Foot [.regs, .time, .clk, .sil, .pwr, .brg, .tw, .seq, .tamp, .tel, .inf, .acd, .fw, .ses, .sec, .bus, .mem] s t := by
  unfold execTampViewUpdate at h
  try dsimp only at h
  with_reducible refine Foot.ofNext h ?_
  repeat' (first
    | with_reducible exact Foot.refl
    | with_reducible assumption
    | (with_reducible apply partsIn_dec; decide)
    | with_reducible apply Foot.next ?_ (State.levelDeliver_foot ..) ?_
    )

theorem State.ainSample_foot (s : State) (k code : Nat) : Foot [.regs] s (State.ainSample s k code) := by
  unfold State.ainSample
  try dsimp only
  repeat' (first
    | with_reducible exact Foot.refl
    | with_reducible assumption
    | (with_reducible apply partsIn_dec; decide)
    | with_reducible apply Foot.next ?_ (State.set_foot ..) ?_
    )

theorem State.sampleIn_foot (s : State) (codes : List (Fin 4096)) : Foot [.regs] s (State.sampleIn s codes) := by
  unfold State.sampleIn
  try dsimp only
  repeat' (first
    | with_reducible exact Foot.refl
    | with_reducible assumption
    | (with_reducible apply partsIn_dec; decide)
    | with_reducible apply Foot.next ?_ (State.ainSample_foot ..) ?_
    | with_reducible apply Foot.next ?_ (State.set_foot ..) ?_
    | with_reducible apply Foot.foldl (fun _ _ _ => ?_) ?_
    )

theorem State.setCmpCnt_foot (s : State) (k : Nat) (c : CmpCnt) : Foot [.tamp] s (State.setCmpCnt s k c) := by
  unfold State.setCmpCnt
  try dsimp only
  repeat' (first
    | with_reducible exact Foot.refl
    | with_reducible assumption
    | (with_reducible apply partsIn_dec; decide)
    | with_reducible apply Foot.next ?_ Foot.tamp_upd ?_
    )

theorem State.cmpSample_foot (s : State) (k : Nat) : Foot [.regs, .sil, .tamp] s ((State.cmpSample s k).1) := by
  unfold State.cmpSample
  try dsimp only
  repeat' (first
    | with_reducible exact Foot.refl
    | with_reducible assumption
    | (with_reducible apply partsIn_dec; decide)
    | with_reducible apply Foot.next ?_ (State.setCmpCnt_foot ..) ?_
    | with_reducible apply Foot.next ?_ (State.set_foot ..) ?_
    | with_reducible apply Foot.next ?_ (State.log_foot ..) ?_
    | with_reducible apply Foot.ite ?_ ?_
    | split
    | with_reducible apply Foot.iteSnd
    | dsimp only
    )

theorem State.cmpSample_foot' {s : State} {k : Nat} {a} {t : State} (h : State.cmpSample s k = (t, a)) : Foot [.regs, .sil, .tamp] s t := by
  have := State.cmpSample_foot s k
  rwa [h] at this

theorem cmpFold_foot (ks : List Nat) (s : State) (l : List CrossSrc) :
    Foot [.regs, .sil, .tamp] s (ks.foldl (fun x k => let y := x.1.cmpSample k; (y.1, x.2 ++ y.2)) (s, l)).1 := by
  induction ks generalizing s l with
  | nil => exact Foot.refl
  | cons k t ih =>
    have h := ih (s.cmpSample k).1 (l ++ (s.cmpSample k).2)
    exact (State.cmpSample_foot ..).trans h

theorem State.cmpAll_foot (s : State) : Foot [.regs, .sil, .tamp] s (State.cmpAll s).1 := by
  unfold State.cmpAll
  exact cmpFold_foot ..

theorem State.cmpAll_foot' {s : State} {a} {t : State} (h : State.cmpAll s = (t, a)) : Foot [.regs, .sil, .tamp] s t := by
  have := State.cmpAll_foot s
  rwa [h] at this

theorem State.levelRise_foot (s : State) (a old new : Nat) (xs : List CrossSrc) : Foot [.regs, .sil, .tw, .seq, .tamp, .cool] s (State.levelRise s a old new xs) := by
  unfold State.levelRise
  try dsimp only
  repeat' (first
    | with_reducible exact Foot.refl
    | with_reducible assumption
    | (with_reducible apply partsIn_dec; decide)
    | with_reducible apply Foot.next ?_ (State.testEnd_foot ..) ?_
    | with_reducible apply Foot.next ?_ (State.blackRequest_foot ..) ?_
    | with_reducible apply Foot.next ?_ (State.marginReturnAll_foot ..) ?_
    | with_reducible apply Foot.next ?_ (State.bump_foot ..) ?_
    | with_reducible apply Foot.next ?_ (State.setAll_foot ..) ?_
    | with_reducible apply Foot.next ?_ (State.set_foot ..) ?_
    | with_reducible apply Foot.next ?_ (State.log_foot ..) ?_
    | with_reducible apply Foot.ite ?_ ?_
    )

theorem State.levelChange_foot (s : State) (xs : List CrossSrc) (a : Nat) : Foot [.regs, .time, .clk, .sil, .pwr, .brg, .tw, .seq, .tamp, .cool, .tel, .inf, .acd, .fw, .ses, .sec, .bus, .mem] s (State.levelChange s xs a) := by
  unfold State.levelChange
  try dsimp only
  repeat' (first
    | with_reducible exact Foot.refl
    | with_reducible assumption
    | (with_reducible apply partsIn_dec; decide)
    | with_reducible apply Foot.next ?_ (State.clampAcc_foot ..) ?_
    | with_reducible apply Foot.next ?_ (State.a1Exit_foot ..) ?_
    | with_reducible apply Foot.next ?_ (State.levelRise_foot ..) ?_
    | with_reducible apply Foot.next ?_ (State.modBrg_foot ..) ?_
    | with_reducible apply Foot.next ?_ (State.set_foot ..) ?_
    | with_reducible apply Foot.next ?_ (State.log_foot ..) ?_
    | with_reducible apply Foot.ite ?_ ?_
    )

theorem State.settle_foot (s : State) (xs : List CrossSrc) : Foot [.regs, .time, .clk, .sil, .pwr, .brg, .tw, .seq, .tamp, .cool, .tel, .inf, .acd, .fw, .ses, .sec, .bus, .mem] s (State.settle s xs) := by
  unfold State.settle
  try dsimp only
  repeat' (first
    | with_reducible exact Foot.refl
    | with_reducible assumption
    | (with_reducible apply partsIn_dec; decide)
    | with_reducible apply Foot.next ?_ (State.levelChange_foot ..) ?_
    | with_reducible apply Foot.foldl (fun _ _ _ => ?_) ?_
    )

theorem State.tampSample_foot (s : State) (codes : List (Fin 4096)) : Foot [.regs, .time, .clk, .sil, .pwr, .brg, .tw, .seq, .tamp, .cool, .tel, .inf, .acd, .fw, .ses, .sec, .bus, .mem] s (State.tampSample s codes) := by
  unfold State.tampSample
  try dsimp only
  repeat' (first
    | with_reducible exact Foot.refl
    | with_reducible assumption
    | (with_reducible apply partsIn_dec; decide)
    | with_reducible apply Foot.next ?_ (State.trayAin_foot ..) ?_
    | with_reducible apply Foot.next ?_ (State.settle_foot ..) ?_
    | with_reducible apply Foot.next ?_ (State.cmpAll_foot ..) ?_
    | with_reducible apply Foot.next ?_ (State.sampleIn_foot ..) ?_
    | with_reducible apply Foot.ite ?_ ?_
    | with_reducible refine Foot.next ?_ (State.cmpAll_foot' (by assumption)) (by decide)
    )

theorem State.sampleTick_foot (s : State) (codes : List (Fin 4096)) (vin : Nat) : Foot [.regs, .time, .clk, .sil, .pwr, .brg, .tw, .seq, .tamp, .cool, .tel, .inf, .acd, .fw, .ses, .sec, .bus, .mem] s (State.sampleTick s codes vin) := by
  unfold State.sampleTick
  try dsimp only
  repeat' (first
    | with_reducible exact Foot.refl
    | with_reducible assumption
    | (with_reducible apply partsIn_dec; decide)
    | with_reducible apply Foot.next ?_ (State.tampSample_foot ..) ?_
    | with_reducible apply Foot.next ?_ (State.vinSample_foot ..) ?_
    | with_reducible apply Foot.ite ?_ ?_
    | with_reducible apply Foot.next ?_ Foot.tamp_upd ?_
    )

theorem execSampleTick_foot {x : SampleIn} {s : State} {t : State} (h : execSampleTick x s = .next t) : Foot [.regs, .time, .clk, .sil, .pwr, .brg, .tw, .seq, .tamp, .cool, .tel, .inf, .acd, .fw, .ses, .sec, .bus, .mem] s t := by
  unfold execSampleTick at h
  try dsimp only at h
  with_reducible refine Foot.ofNext h ?_
  repeat' (first
    | with_reducible exact Foot.refl
    | with_reducible assumption
    | (with_reducible apply partsIn_dec; decide)
    | with_reducible apply Foot.next ?_ (State.sampleTick_foot ..) ?_
    )

theorem execThrottlePulse_foot {s : State} {t : State} (h : execThrottlePulse s = .next t) : Foot [.tamp] s t := by
  unfold execThrottlePulse at h
  try dsimp only at h
  with_reducible refine Foot.ofNext h ?_
  repeat' (first
    | with_reducible exact Foot.refl
    | with_reducible assumption
    | (with_reducible apply partsIn_dec; decide)
    | with_reducible apply Foot.next ?_ Foot.tamp_upd ?_
    )

theorem State.anaTrip_foot (s : State) (k : Nat) : Foot [.regs, .time, .clk, .sil, .pwr, .brg, .tw, .seq, .tamp, .cool, .tel, .inf, .acd, .fw, .ses, .sec, .bus, .mem] s (State.anaTrip s k) := by
  unfold State.anaTrip
  try dsimp only
  repeat' (first
    | with_reducible exact Foot.refl
    | with_reducible assumption
    | (with_reducible apply partsIn_dec; decide)
    | with_reducible apply Foot.next ?_ (State.settle_foot ..) ?_
    | with_reducible apply Foot.next ?_ (State.setAll_foot ..) ?_
    | with_reducible apply Foot.ite ?_ ?_
    )

theorem execAnalogTrip_foot {k : Fin 64} {s : State} {t : State} (h : execAnalogTrip k s = .next t) : Foot [.regs, .time, .clk, .sil, .pwr, .brg, .tw, .seq, .tamp, .cool, .tel, .inf, .acd, .fw, .ses, .sec, .bus, .mem] s t := by
  unfold execAnalogTrip at h
  try dsimp only at h
  with_reducible refine Foot.ofNext h ?_
  repeat' (first
    | with_reducible exact Foot.refl
    | with_reducible assumption
    | (with_reducible apply partsIn_dec; decide)
    | with_reducible apply Foot.next ?_ (State.anaTrip_foot ..) ?_
    )

theorem State.anaRelease_foot (s : State) (k : Nat) : Foot [.regs, .time, .clk, .sil, .pwr, .brg, .tw, .seq, .tamp, .cool, .tel, .inf, .acd, .fw, .ses, .sec, .bus, .mem] s (State.anaRelease s k) := by
  unfold State.anaRelease
  try dsimp only
  repeat' (first
    | with_reducible exact Foot.refl
    | with_reducible assumption
    | (with_reducible apply partsIn_dec; decide)
    | with_reducible apply Foot.next ?_ (State.settle_foot ..) ?_
    | with_reducible apply Foot.next ?_ (State.set_foot ..) ?_
    | with_reducible apply Foot.ite ?_ ?_
    )

theorem execAnalogRelease_foot {k : Fin 64} {s : State} {t : State} (h : execAnalogRelease k s = .next t) : Foot [.regs, .time, .clk, .sil, .pwr, .brg, .tw, .seq, .tamp, .cool, .tel, .inf, .acd, .fw, .ses, .sec, .bus, .mem] s t := by
  unfold execAnalogRelease at h
  try dsimp only at h
  with_reducible refine Foot.ofNext h ?_
  repeat' (first
    | with_reducible exact Foot.refl
    | with_reducible assumption
    | (with_reducible apply partsIn_dec; decide)
    | with_reducible apply Foot.next ?_ (State.anaRelease_foot ..) ?_
    )

theorem State.clearCmp_foot (red blk : Nat) (s : State) (k : Nat) : Foot [.regs, .tamp] s (State.clearCmp red blk s k) := by
  unfold State.clearCmp
  try dsimp only
  repeat' (first
    | with_reducible exact Foot.refl
    | with_reducible assumption
    | (with_reducible apply partsIn_dec; decide)
    | with_reducible apply Foot.next ?_ (State.setCmpCnt_foot ..) ?_
    | with_reducible apply Foot.next ?_ (State.set_foot ..) ?_
    | with_reducible apply Foot.ite ?_ ?_
    )

theorem State.clearAna_foot (red blk : Nat) (s : State) (k : Nat) : Foot [.regs] s (State.clearAna red blk s k) := by
  unfold State.clearAna
  try dsimp only
  repeat' (first
    | with_reducible exact Foot.refl
    | with_reducible assumption
    | (with_reducible apply partsIn_dec; decide)
    | with_reducible apply Foot.next ?_ (State.set_foot ..) ?_
    | with_reducible apply Foot.ite ?_ ?_
    )

theorem State.clearLog_foot (s : State) (reg outcome red blk : Nat) : Foot [.sil] s (State.clearLog s reg outcome red blk) := by
  unfold State.clearLog
  try dsimp only
  repeat' (first
    | with_reducible exact Foot.refl
    | with_reducible assumption
    | (with_reducible apply partsIn_dec; decide)
    | with_reducible apply Foot.next ?_ (State.log_foot ..) ?_
    )

theorem State.tampClear_foot (s : State) (red blk : Nat) : Foot [.regs, .time, .clk, .sil, .pwr, .brg, .tw, .seq, .tamp, .cool, .tel, .inf, .acd, .fw, .ses, .sec, .bus, .mem] s (State.tampClear s red blk) := by
  unfold State.tampClear
  try dsimp only
  repeat' (first
    | with_reducible exact Foot.refl
    | with_reducible assumption
    | (with_reducible apply partsIn_dec; decide)
    | with_reducible apply Foot.next ?_ (State.clearLog_foot ..) ?_
    | with_reducible apply Foot.next ?_ (State.clearAna_foot ..) ?_
    | with_reducible apply Foot.next ?_ (State.clearCmp_foot ..) ?_
    | with_reducible apply Foot.next ?_ (State.settle_foot ..) ?_
    | with_reducible apply Foot.next ?_ (State.set_foot ..) ?_
    | with_reducible apply Foot.foldl (fun _ _ _ => ?_) ?_
    | with_reducible apply Foot.ite ?_ ?_
    )

theorem execRedClr_foot {ini : Initiator} {mask : Fin 256} {s : State} {t : State} (h : execRedClr ini mask s = .next t) : Foot [.regs, .time, .clk, .sil, .pwr, .brg, .tw, .seq, .tamp, .cool, .tel, .inf, .acd, .fw, .ses, .sec, .bus, .mem] s t := by
  unfold execRedClr at h
  try dsimp only at h
  with_reducible refine Foot.ofNext h ?_
  repeat' (first
    | with_reducible exact Foot.refl
    | with_reducible assumption
    | (with_reducible apply partsIn_dec; decide)
    | with_reducible apply Foot.next ?_ (State.tampClear_foot ..) ?_
    | with_reducible apply Foot.trans ?_ (State.command_foot _ _ _ _ ?_ ?_)
    )

theorem execBlkClr_foot {ini : Initiator} {mask : Fin 256} {s : State} {t : State} (h : execBlkClr ini mask s = .next t) : Foot [.regs, .time, .clk, .sil, .pwr, .brg, .tw, .seq, .tamp, .cool, .tel, .inf, .acd, .fw, .ses, .sec, .bus, .mem] s t := by
  unfold execBlkClr at h
  try dsimp only at h
  with_reducible refine Foot.ofNext h ?_
  repeat' (first
    | with_reducible exact Foot.refl
    | with_reducible assumption
    | (with_reducible apply partsIn_dec; decide)
    | with_reducible apply Foot.next ?_ (State.tampClear_foot ..) ?_
    | with_reducible apply Foot.trans ?_ (State.command_foot _ _ _ _ ?_ ?_)
    )

theorem execTampCntClr_foot {ini : Initiator} {s : State} {t : State} (h : execTampCntClr ini s = .next t) : Foot [.regs, .sil, .bus] s t := by
  unfold execTampCntClr at h
  try dsimp only at h
  with_reducible refine Foot.ofNext h ?_
  repeat' (first
    | with_reducible exact Foot.refl
    | with_reducible assumption
    | (with_reducible apply partsIn_dec; decide)
    | with_reducible apply Foot.trans ?_ (State.command_foot _ _ _ _ ?_ ?_)
    | with_reducible apply Foot.next ?_ (State.setAll_foot ..) ?_
    )

theorem State.critSensor_foot (s : State) (k : Nat) (x : CritIn) : Foot [.regs, .sil, .tamp] s (State.critSensor s k x) := by
  unfold State.critSensor
  try dsimp only
  repeat' (first
    | with_reducible exact Foot.refl
    | with_reducible assumption
    | (with_reducible apply partsIn_dec; decide)
    | with_reducible apply Foot.next ?_ (State.set_foot ..) ?_
    | with_reducible apply Foot.next ?_ (State.log_foot ..) ?_
    | with_reducible apply Foot.ite ?_ ?_
    | split
    | with_reducible apply Foot.next ?_ Foot.tamp_upd ?_
    )

theorem State.critAssert_foot (s : State) (trips : Nat) : Foot [.regs, .sil] s (State.critAssert s trips) := by
  unfold State.critAssert
  try dsimp only
  repeat' (first
    | with_reducible exact Foot.refl
    | with_reducible assumption
    | (with_reducible apply partsIn_dec; decide)
    | with_reducible apply Foot.next ?_ (State.setAll_foot ..) ?_
    | with_reducible apply Foot.next ?_ (State.log_foot ..) ?_
    )

theorem State.critMeasure_foot (s : State) (xs : List CritIn) : Foot [.regs, .sil, .tamp] s (State.critMeasure s xs) := by
  unfold State.critMeasure
  try dsimp only
  repeat' (first
    | with_reducible exact Foot.refl
    | with_reducible assumption
    | (with_reducible apply partsIn_dec; decide)
    | with_reducible apply Foot.next ?_ (State.critAssert_foot ..) ?_
    | with_reducible apply Foot.next ?_ (State.critSensor_foot ..) ?_
    | with_reducible apply Foot.foldl (fun _ _ _ => ?_) ?_
    | with_reducible apply Foot.ite ?_ ?_
    | with_reducible apply Foot.next ?_ Foot.tamp_upd ?_
    )

theorem execTempMeasure_foot {die : Fin 65536} {td0 td1 td2 td3 : TdIn} {s : State} {t : State} (h : execTempMeasure die td0 td1 td2 td3 s = .next t) : Foot [.regs, .sil, .tamp] s t := by
  unfold execTempMeasure at h
  try dsimp only at h
  with_reducible refine Foot.ofNext h ?_
  repeat' (first
    | with_reducible exact Foot.refl
    | with_reducible assumption
    | (with_reducible apply partsIn_dec; decide)
    | with_reducible apply Foot.next ?_ (State.critMeasure_foot ..) ?_
    )

theorem State.critClear_foot (s : State) : Foot [.regs, .sil] s (State.critClear s) := by
  unfold State.critClear
  try dsimp only
  repeat' (first
    | with_reducible exact Foot.refl
    | with_reducible assumption
    | (with_reducible apply partsIn_dec; decide)
    | with_reducible apply Foot.next ?_ (State.clearLog_foot ..) ?_
    | with_reducible apply Foot.next ?_ (State.setAll_foot ..) ?_
    | with_reducible apply Foot.ite ?_ ?_
    )

theorem execCritClr_foot {ini : Initiator} {s : State} {t : State} (h : execCritClr ini s = .next t) : Foot [.regs, .sil, .bus] s t := by
  unfold execCritClr at h
  try dsimp only at h
  with_reducible refine Foot.ofNext h ?_
  repeat' (first
    | with_reducible exact Foot.refl
    | with_reducible assumption
    | (with_reducible apply partsIn_dec; decide)
    | with_reducible apply Foot.next ?_ (State.critClear_foot ..) ?_
    | with_reducible apply Foot.trans ?_ (State.command_foot _ _ _ _ ?_ ?_)
    )

end Sys2Proof.Machine
end

