-- ==== Sys2Proof/Laws/FootMessages.lean ====
section
/-! SUPPORT. Footprints of the functions of Machine/Messages.lean. -/

namespace Sys2Proof.Machine

theorem State.seqAccept_foot (s : State) (n q : Nat) : Foot [.regs, .ses] s (State.seqAccept s n q) := by
  unfold State.seqAccept
  try dsimp only
  repeat' (first
    | with_reducible exact Foot.refl
    | with_reducible assumption
    | (with_reducible apply partsIn_dec; decide)
    | with_reducible apply Foot.next ?_ (State.set64_foot ..) ?_
    | with_reducible apply Foot.next ?_ (State.modSess_foot ..) ?_
    | with_reducible apply Foot.ite ?_ ?_
    )

theorem State.sesHeard_foot (s : State) (n : Nat) (m : TmpMsg) : Foot [.regs, .time, .clk, .sil, .pwr, .brg, .tw, .seq, .tamp, .cool, .tel, .inf, .acd, .fw, .ses, .sec, .bus, .mem] s (State.sesHeard s n m) := by
  unfold State.sesHeard
  try dsimp only
  repeat' (first
    | with_reducible exact Foot.refl
    | with_reducible assumption
    | (with_reducible apply partsIn_dec; decide)
    | with_reducible apply Foot.next ?_ (State.seqAccept_foot ..) ?_
    | with_reducible apply Foot.next ?_ (State.a1Exit_foot ..) ?_
    | with_reducible apply Foot.next ?_ (State.modSess_foot ..) ?_
    | with_reducible apply Foot.next ?_ (State.setAll_foot ..) ?_
    )

theorem State.cancelList_foot (s : State) (n : Nat) (l : List (List Byte)) : Foot [.regs, .inf] s (State.cancelList s n l).2 := by
  induction l generalizing s with
  | nil => exact Foot.refl
  | cons e t ih => exact (Foot.next Foot.refl (State.hintCancel_foot ..) (by decide)).trans (ih _)

theorem State.cancelList_foot' {s : State} {n : Nat} {l : List (List Byte)} {a} {t : State} (h : State.cancelList s n l = (a, t)) : Foot [.regs, .inf] s t := by
  have := State.cancelList_foot s n l
  rwa [h] at this

theorem State.hintList_foot (s : State) (n : Nat) (l : List (List Byte)) : Foot [.regs, .brg, .inf] s (State.hintList s n l).2 := by
  induction l generalizing s with
  | nil => exact Foot.refl
  | cons e t ih => exact (Foot.next Foot.refl (State.hintSubmit_foot ..) (by decide)).trans (ih _)

theorem State.hintList_foot' {s : State} {n : Nat} {l : List (List Byte)} {a} {t : State} (h : State.hintList s n l = (a, t)) : Foot [.regs, .brg, .inf] s t := by
  have := State.hintList_foot s n l
  rwa [h] at this

theorem State.setCaps_foot (s : State) (n : Nat) (p : List Byte) : Foot [.regs, .ses] s (State.setCaps s n p) := by
  unfold State.setCaps
  try dsimp only
  repeat' (first
    | with_reducible exact Foot.refl
    | with_reducible assumption
    | (with_reducible apply partsIn_dec; decide)
    | with_reducible apply Foot.next ?_ (State.resolve_foot ..) ?_
    | with_reducible apply Foot.next ?_ (State.modSess_foot ..) ?_
    | with_reducible apply Foot.foldl (fun _ _ _ => ?_) ?_
    )

theorem State.setFloors_foot (s : State) (n : Nat) (p : List Byte) : Foot [.regs, .ses] s (State.setFloors s n p) := by
  unfold State.setFloors
  try dsimp only
  repeat' (first
    | with_reducible exact Foot.refl
    | with_reducible assumption
    | (with_reducible apply partsIn_dec; decide)
    | with_reducible apply Foot.next ?_ (State.resolve_foot ..) ?_
    | with_reducible apply Foot.next ?_ (State.modSess_foot ..) ?_
    | with_reducible apply Foot.foldl (fun _ _ _ => ?_) ?_
    | with_reducible apply Foot.ite ?_ ?_
    )

theorem State.stmtAsk_foot (s : State) (n : Nat) (m : TmpMsg) : Foot [.regs, .acd, .ses, .fresh] s (State.stmtAsk s n m) := by
  unfold State.stmtAsk
  try dsimp only
  repeat' (first
    | with_reducible exact Foot.refl
    | with_reducible assumption
    | (with_reducible apply partsIn_dec; decide)
    | with_reducible apply Foot.next ?_ (State.reply_foot ..) ?_
    | with_reducible apply Foot.next ?_ (State.modSess_foot ..) ?_
    | with_reducible apply Foot.next ?_ (State.modAcd_foot ..) ?_
    | with_reducible apply Foot.next ?_ (State.draw_foot ..) ?_
    | with_reducible apply Foot.ite ?_ ?_
    )

theorem State.subscribe_foot (s : State) (n : Nat) (p : List Byte) : Foot [.regs, .ses] s (State.subscribe s n p) := by
  unfold State.subscribe
  try dsimp only
  repeat' (first
    | with_reducible exact Foot.refl
    | with_reducible assumption
    | (with_reducible apply partsIn_dec; decide)
    | with_reducible apply Foot.next ?_ (State.modSess_foot ..) ?_
    | with_reducible apply Foot.next ?_ (State.setAll_foot ..) ?_
    | with_reducible apply Foot.ite ?_ ?_
    )

theorem State.engineDo_foot (s : State) (n t : Nat) (m : TmpMsg) : Foot [.regs, .brg, .inf, .acd, .ses, .fresh] s (State.engineDo s n t m) := by
  unfold State.engineDo
  try dsimp only
  repeat' (first
    | with_reducible exact Foot.refl
    | with_reducible assumption
    | (with_reducible apply partsIn_dec; decide)
    | with_reducible apply Foot.next ?_ (State.subscribe_foot ..) ?_
    | with_reducible apply Foot.next ?_ (State.stmtAsk_foot ..) ?_
    | with_reducible apply Foot.next ?_ (State.setFloors_foot ..) ?_
    | with_reducible apply Foot.next ?_ (State.setCaps_foot ..) ?_
    | with_reducible apply Foot.next ?_ (State.sesClose_foot ..) ?_
    | with_reducible apply Foot.next ?_ (State.jobSet_foot ..) ?_
    | with_reducible apply Foot.next ?_ (State.hintList_foot ..) ?_
    | with_reducible apply Foot.next ?_ (State.cancelList_foot ..) ?_
    | with_reducible apply Foot.next ?_ (State.reply_foot ..) ?_
    | with_reducible apply Foot.ite ?_ ?_
    )

theorem State.topStore_foot (s : State) (ini : Initiator) (a : Nat) (bs : List Byte) : Foot [.mem] s (State.topStore s ini a bs) := by
  unfold State.topStore
  try dsimp only
  repeat' (first
    | with_reducible exact Foot.refl
    | with_reducible assumption
    | (with_reducible apply partsIn_dec; decide)
    | with_reducible apply Foot.ite ?_ ?_
    | with_reducible apply Foot.next ?_ (Foot.setMem (fun h => memory_wf_memStore _ _ _ (memory_wf_memStore _ _ _ h))) ?_
    | with_reducible apply Foot.next ?_ Foot.memStore ?_
    | with_reducible apply Foot.next ?_ Foot.memForget ?_
    )

theorem State.txSend_foot (s : State) (t n seq : Nat) (payload : List Byte) : Foot [.regs, .ses] s (State.txSend s t n seq payload) := by
  unfold State.txSend
  try dsimp only
  repeat' (first
    | with_reducible exact Foot.refl
    | with_reducible assumption
    | (with_reducible apply partsIn_dec; decide)
    | with_reducible apply Foot.next ?_ (State.sesSend_foot ..) ?_
    | with_reducible apply Foot.next ?_ (State.modSess_foot ..) ?_
    | with_reducible apply Foot.ite ?_ ?_
    )

theorem State.fwReply_foot (s : State) (it : RxItem) (status detail : Nat) (body : List Byte) : Foot [.regs, .ses, .mem] s (State.fwReply s it status detail body) := by
  unfold State.fwReply
  try dsimp only
  repeat' (first
    | with_reducible exact Foot.refl
    | with_reducible assumption
    | (with_reducible apply partsIn_dec; decide)
    | with_reducible apply Foot.next ?_ (State.txSend_foot ..) ?_
    | with_reducible apply Foot.next ?_ (State.topStore_foot ..) ?_
    | with_reducible apply Foot.next ?_ (State.setAll_foot ..) ?_
    | with_reducible apply Foot.ite ?_ ?_
    )

theorem State.fwAccord_foot (s : State) (it : RxItem) (w : WriteEnds) : Foot [.regs, .sil, .nvm, .brg, .ses, .sec, .flash, .mem] s (State.fwAccord s it w) := by
  unfold State.fwAccord
  try dsimp only
  repeat' (first
    | with_reducible exact Foot.refl
    | with_reducible assumption
    | (with_reducible apply partsIn_dec; decide)
    | with_reducible apply Foot.next ?_ (State.fwReply_foot ..) ?_
    | with_reducible apply Foot.next ?_ (State.accordAccept_foot ..) ?_
    | with_reducible apply Foot.ite ?_ ?_
    | with_reducible refine Foot.next ?_ (State.accordAccept_foot' (by assumption)) (by decide)
    )

theorem State.fwCode_foot (s : State) (it : RxItem) (code : Nat) : Foot [.regs, .ses, .mem] s (State.fwCode s it code) := by
  unfold State.fwCode
  try dsimp only
  repeat' (first
    | with_reducible exact Foot.refl
    | with_reducible assumption
    | (with_reducible apply partsIn_dec; decide)
    | with_reducible apply Foot.next ?_ (State.fwReply_foot ..) ?_
    | with_reducible apply Foot.ite ?_ ?_
    )

theorem State.fwDebug_foot (s : State) (it : RxItem) : Foot [.regs, .sil, .key, .ses, .mem, .fresh] s (State.fwDebug s it) := by
  unfold State.fwDebug
  try dsimp only
  repeat' (first
    | with_reducible exact Foot.refl
    | with_reducible assumption
    | (with_reducible apply partsIn_dec; decide)
    | with_reducible apply Foot.next ?_ (State.fwCode_foot ..) ?_
    | with_reducible apply Foot.next ?_ (State.fwReply_foot ..) ?_
    | with_reducible apply Foot.next ?_ (State.dbgResponse_foot ..) ?_
    | with_reducible apply Foot.next ?_ (State.dbgChallenge_foot ..) ?_
    | with_reducible apply Foot.ite ?_ ?_
    | with_reducible refine Foot.next ?_ (State.dbgResponse_foot' (by assumption)) (by decide)
    | with_reducible refine Foot.next ?_ (State.dbgChallenge_foot' (by assumption)) (by decide)
    )

theorem State.fwKeys_foot (s : State) (it : RxItem) (w : WriteEnds) : Foot [.regs, .sil, .otp, .ses, .mem] s (State.fwKeys s it w) := by
  unfold State.fwKeys
  try dsimp only
  repeat' (first
    | with_reducible exact Foot.refl
    | with_reducible assumption
    | (with_reducible apply partsIn_dec; decide)
    | with_reducible apply Foot.next ?_ (State.fwCode_foot ..) ?_
    | with_reducible apply Foot.next ?_ (State.keyRetire_foot ..) ?_
    | with_reducible apply Foot.next ?_ (State.keyAdd_foot ..) ?_
    | with_reducible apply Foot.ite ?_ ?_
    | with_reducible apply Foot.iteSnd
    | with_reducible refine Foot.next ?_ (State.keyRetire_foot' (by assumption)) (by decide)
    | with_reducible refine Foot.next ?_ (State.keyAdd_foot' (by assumption)) (by decide)
    )

theorem State.fwLogClear_foot (s : State) (it : RxItem) : Foot [.regs, .sil, .nvm, .seq, .ses, .mem] s (State.fwLogClear s it) := by
  unfold State.fwLogClear
  try dsimp only
  repeat' (first
    | with_reducible exact Foot.refl
    | with_reducible assumption
    | (with_reducible apply partsIn_dec; decide)
    | with_reducible apply Foot.next ?_ (State.silNvmClear_foot ..) ?_
    | with_reducible apply Foot.next ?_ (State.ffrClear_foot ..) ?_
    | with_reducible apply Foot.next ?_ (State.fwReply_foot ..) ?_
    | with_reducible apply Foot.ite ?_ ?_
    )

theorem State.fwMargin_foot (s : State) (it : RxItem) : Foot [.regs, .sil, .tw, .seq, .tamp, .ses, .mem] s (State.fwMargin s it) := by
  unfold State.fwMargin
  try dsimp only
  repeat' (first
    | with_reducible exact Foot.refl
    | with_reducible assumption
    | (with_reducible apply partsIn_dec; decide)
    | with_reducible apply Foot.next ?_ (State.marginRequest_foot ..) ?_
    | with_reducible apply Foot.next ?_ (State.fwCode_foot ..) ?_
    | with_reducible apply Foot.next ?_ (State.fwReply_foot ..) ?_
    | with_reducible apply Foot.next ?_ (State.testEnter_foot ..) ?_
    | with_reducible apply Foot.next ?_ (State.testEnd_foot ..) ?_
    | with_reducible apply Foot.ite ?_ ?_
    )

theorem State.fwPower_foot (s : State) (it : RxItem) : Foot [.regs, .time, .clk, .sil, .nvm, .pwr, .brg, .tw, .seq, .tamp, .cool, .tel, .inf, .acd, .key, .fw, .ses, .sec, .bus, .mem, .fresh] s (State.fwPower s it) := by
  unfold State.fwPower
  try dsimp only
  repeat' (first
    | with_reducible exact Foot.refl
    | with_reducible assumption
    | (with_reducible apply partsIn_dec; decide)
    | with_reducible apply Foot.next ?_ (State.pwrRequest_foot ..) ?_
    | with_reducible apply Foot.next ?_ (State.fwCode_foot ..) ?_
    | with_reducible apply Foot.ite ?_ ?_
    )

theorem State.fwSettings_foot (s : State) (it : RxItem) : Foot [.regs, .nvm, .ses, .mem, .fresh] s (State.fwSettings s it) := by
  unfold State.fwSettings
  try dsimp only
  repeat' (first
    | with_reducible exact Foot.refl
    | with_reducible assumption
    | (with_reducible apply partsIn_dec; decide)
    | with_reducible apply Foot.next ?_ (State.fwReply_foot ..) ?_
    | with_reducible apply Foot.next ?_ (State.nvmCommit_foot ..) ?_
    | with_reducible apply Foot.next ?_ (State.draw_foot ..) ?_
    | with_reducible apply Foot.ite ?_ ?_
    )

theorem sigFold_foot (es : List (List Byte)) (s : State) (b : Bool) :
    Foot [.regs, .mem] s (es.foldl (fun a e => match a.1.sigInstall e with | some t => (t, a.2) | none => (a.1, true)) (s, b)).1 := by
  induction es generalizing s b with
  | nil => exact Foot.refl
  | cons e t ih =>
    have h := State.sigInstall_getD s e
    rw [List.foldl_cons]
    dsimp only
    cases hs : s.sigInstall e with
    | none => exact ih ..
    | some u =>
      rw [hs] at h
      exact h.trans (ih ..)

theorem State.fwSigs_foot (s : State) (it : RxItem) : Foot [.regs, .ses, .mem, .fresh] s (State.fwSigs s it) := by
  unfold State.fwSigs
  try dsimp only
  repeat' (first
    | with_reducible exact Foot.refl
    | with_reducible assumption
    | (with_reducible apply partsIn_dec; decide)
    | with_reducible apply Foot.next ?_ (State.fwReply_foot ..) ?_
    | with_reducible apply Foot.next ?_ (State.sigInstall_foot ..) ?_
    | with_reducible apply Foot.next ?_ (State.draw_foot ..) ?_
    | with_reducible apply Foot.foldl (fun _ _ _ => ?_) ?_
    | with_reducible apply Foot.ite ?_ ?_
    | split
    | exact (sigFold_foot _ s false).mono (by decide)
    | with_reducible refine Foot.next ?_ (State.sigInstall_foot' (by assumption)) (by decide)
    )

theorem State.fwDo_foot (s : State) (it : RxItem) (w : WriteEnds) : Foot [.regs, .time, .clk, .sil, .nvm, .pwr, .brg, .tw, .seq, .tamp, .cool, .tel, .inf, .otp, .acd, .key, .fw, .ses, .sec, .flash, .bus, .mem, .fresh] s (State.fwDo s it w) := by
  unfold State.fwDo
  try dsimp only
  repeat' (first
    | with_reducible exact Foot.refl
    | with_reducible assumption
    | (with_reducible apply partsIn_dec; decide)
    | with_reducible apply Foot.next ?_ (State.seqCommand_foot ..) ?_
    | with_reducible apply Foot.next ?_ (State.recCtl_foot ..) ?_
    | with_reducible apply Foot.next ?_ (State.fwSigs_foot ..) ?_
    | with_reducible apply Foot.next ?_ (State.fwSettings_foot ..) ?_
    | with_reducible apply Foot.next ?_ (State.fwPower_foot ..) ?_
    | with_reducible apply Foot.next ?_ (State.fwMargin_foot ..) ?_
    | with_reducible apply Foot.next ?_ (State.fwLogClear_foot ..) ?_
    | with_reducible apply Foot.next ?_ (State.fwKeys_foot ..) ?_
    | with_reducible apply Foot.next ?_ (State.fwDebug_foot ..) ?_
    | with_reducible apply Foot.next ?_ (State.fwCode_foot ..) ?_
    | with_reducible apply Foot.next ?_ (State.fwAccord_foot ..) ?_
    | with_reducible apply Foot.next ?_ (State.fwReply_foot ..) ?_
    | with_reducible apply Foot.next ?_ (State.warmRequest_foot ..) ?_
    | with_reducible apply Foot.next ?_ (State.tampClear_foot ..) ?_
    | with_reducible apply Foot.next ?_ (State.topRequest_foot ..) ?_
    | with_reducible apply Foot.next ?_ (State.draw_foot ..) ?_
    | with_reducible apply Foot.ite ?_ ?_
    )

theorem State.fwTake_foot (s : State) (w : WriteEnds) (it : RxItem) : Foot [.regs, .time, .clk, .sil, .nvm, .pwr, .brg, .tw, .seq, .tamp, .cool, .tel, .inf, .otp, .acd, .key, .fw, .ses, .sec, .flash, .bus, .mem, .fresh] s (State.fwTake s w it) := by
  unfold State.fwTake
  try dsimp only
  repeat' (first
    | with_reducible exact Foot.refl
    | with_reducible assumption
    | (with_reducible apply partsIn_dec; decide)
    | with_reducible apply Foot.next ?_ (State.fwDo_foot ..) ?_
    | with_reducible apply Foot.next ?_ (State.fwReply_foot ..) ?_
    | with_reducible apply Foot.next ?_ (State.topStore_foot ..) ?_
    | with_reducible apply Foot.next ?_ (State.modSes_foot ..) ?_
    | with_reducible apply Foot.next ?_ (State.set_foot ..) ?_
    | with_reducible apply Foot.ite ?_ ?_
    )

theorem State.fwServe_foot (w : WriteEnds) (k : Nat) (s : State) : Foot [.regs, .time, .clk, .sil, .nvm, .pwr, .brg, .tw, .seq, .tamp, .cool, .tel, .inf, .otp, .acd, .key, .fw, .ses, .sec, .flash, .bus, .mem, .fresh] s (State.fwServe w k s) := by
  induction k generalizing s with
  | zero => exact Foot.refl
  | succ k ih =>
    unfold State.fwServe
    split
    · exact Foot.refl
    · split
      · exact (Foot.next Foot.refl (State.fwTake_foot ..) (by decide)).trans (ih _)
      · exact Foot.refl

theorem State.fwDrain_foot (s : State) (w : WriteEnds) : Foot [.regs, .time, .clk, .sil, .nvm, .pwr, .brg, .tw, .seq, .tamp, .cool, .tel, .inf, .otp, .acd, .key, .fw, .ses, .sec, .flash, .bus, .mem, .fresh] s (State.fwDrain s w) := by
  unfold State.fwDrain
  try dsimp only
  repeat' (first
    | with_reducible exact Foot.refl
    | with_reducible assumption
    | (with_reducible apply partsIn_dec; decide)
    | with_reducible apply Foot.next ?_ (State.fwServe_foot ..) ?_
    )

theorem State.rxPush_foot (s : State) (n t : Nat) (m : TmpMsg) : Foot [.regs, .ses, .mem] s (State.rxPush s n t m) := by
  unfold State.rxPush
  try dsimp only
  repeat' (first
    | with_reducible exact Foot.refl
    | with_reducible assumption
    | (with_reducible apply partsIn_dec; decide)
    | with_reducible apply Foot.next ?_ (State.topStore_foot ..) ?_
    | with_reducible apply Foot.next ?_ (State.bump_foot ..) ?_
    | with_reducible apply Foot.next ?_ (State.reply_foot ..) ?_
    | with_reducible apply Foot.next ?_ (State.modSess_foot ..) ?_
    | with_reducible apply Foot.next ?_ (State.modSes_foot ..) ?_
    | with_reducible apply Foot.next ?_ (State.setAll_foot ..) ?_
    | with_reducible apply Foot.ite ?_ ?_
    )

theorem State.tmpAccept_foot (s : State) (n t : Nat) (m : TmpMsg) (w : WriteEnds) : Foot [.regs, .time, .clk, .sil, .nvm, .pwr, .brg, .tw, .seq, .tamp, .cool, .tel, .inf, .otp, .acd, .key, .fw, .ses, .sec, .flash, .bus, .mem, .fresh] s (State.tmpAccept s n t m w) := by
  unfold State.tmpAccept
  try dsimp only
  repeat' (first
    | with_reducible exact Foot.refl
    | with_reducible assumption
    | (with_reducible apply partsIn_dec; decide)
    | with_reducible apply Foot.next ?_ (State.rxPush_foot ..) ?_
    | with_reducible apply Foot.next ?_ (State.fwDrain_foot ..) ?_
    | with_reducible apply Foot.next ?_ (State.engineDo_foot ..) ?_
    | with_reducible apply Foot.next ?_ (State.hwdtKick_foot ..) ?_
    | with_reducible apply Foot.ite ?_ ?_
    )

theorem State.tmpCount_foot (s : State) (status : Nat) : Foot [.regs] s (State.tmpCount s status) := by
  unfold State.tmpCount
  try dsimp only
  repeat' (first
    | with_reducible exact Foot.refl
    | with_reducible assumption
    | (with_reducible apply partsIn_dec; decide)
    | with_reducible apply Foot.next ?_ (State.bump_foot ..) ?_
    | with_reducible apply Foot.ite ?_ ?_
    )

theorem State.tmpSession_foot (s : State) (n t said : Nat) (m : TmpMsg) (w : WriteEnds) : Foot [.regs, .time, .clk, .sil, .nvm, .pwr, .brg, .tw, .seq, .tamp, .cool, .tel, .inf, .otp, .acd, .key, .fw, .ses, .sec, .flash, .bus, .mem, .fresh] s (State.tmpSession s n t said m w) := by
  unfold State.tmpSession
  try dsimp only
  repeat' (first
    | with_reducible exact Foot.refl
    | with_reducible assumption
    | (with_reducible apply partsIn_dec; decide)
    | with_reducible apply Foot.next ?_ (State.tmpCount_foot ..) ?_
    | with_reducible apply Foot.next ?_ (State.tmpAccept_foot ..) ?_
    | with_reducible apply Foot.next ?_ (State.sesHeard_foot ..) ?_
    | with_reducible apply Foot.next ?_ (State.bump_foot ..) ?_
    | with_reducible apply Foot.next ?_ (State.reply_foot ..) ?_
    | with_reducible apply Foot.ite ?_ ?_
    )

theorem State.txOne_foot (s : State) : Foot [.regs, .ses] s (State.txOne s) := by
  unfold State.txOne
  try dsimp only
  repeat' (first
    | with_reducible exact Foot.refl
    | with_reducible assumption
    | (with_reducible apply partsIn_dec; decide)
    | with_reducible apply Foot.next ?_ (State.txSend_foot ..) ?_
    | with_reducible apply Foot.next ?_ (State.set_foot ..) ?_
    )

theorem State.txSubmit_foot (s : State) (wr : Nat) : Foot [.regs, .ses] s (State.txSubmit s wr) := by
  unfold State.txSubmit
  try dsimp only
  repeat' (first
    | with_reducible exact Foot.refl
    | with_reducible assumption
    | (with_reducible apply partsIn_dec; decide)
    | with_reducible apply Foot.next ?_ (State.txOne_foot ..) ?_
    | with_reducible apply Foot.next ?_ (State.set_foot ..) ?_
    | with_reducible apply Foot.foldl (fun _ _ _ => ?_) ?_
    )

theorem State.tmpMessage_foot (s : State) (t : Nat) (m : TmpMsg) (w : WriteEnds) : Foot [.regs, .time, .clk, .sil, .nvm, .pwr, .brg, .tw, .seq, .tamp, .cool, .tel, .inf, .otp, .acd, .key, .fw, .ses, .sec, .flash, .bus, .mem, .fresh] s (State.tmpMessage s t m w) := by
  unfold State.tmpMessage
  try dsimp only
  repeat' (first
    | with_reducible exact Foot.refl
    | with_reducible assumption
    | (with_reducible apply partsIn_dec; decide)
    | with_reducible apply Foot.next ?_ (State.tmpSession_foot ..) ?_
    | with_reducible apply Foot.ite ?_ ?_
    | split
    )

theorem State.tmpRow_foot (s : State) (t : Nat) (m : TmpMsg) (w : WriteEnds) : Foot [.regs, .time, .clk, .sil, .nvm, .pwr, .brg, .tw, .seq, .tamp, .cool, .tel, .inf, .otp, .acd, .key, .fw, .ses, .sec, .flash, .bus, .mem, .fresh] s (State.tmpRow s t m w) := by
  unfold State.tmpRow
  try dsimp only
  repeat' (first
    | with_reducible exact Foot.refl
    | with_reducible assumption
    | (with_reducible apply partsIn_dec; decide)
    | with_reducible apply Foot.next ?_ (State.tmpMessage_foot ..) ?_
    | with_reducible apply Foot.next ?_ (State.sendBegin_foot ..) ?_
    )

theorem execHint_foot {m : TmpMsg} {s : State} {t : State} (h : execHint m s = .next t) : Foot [.regs, .time, .clk, .sil, .nvm, .pwr, .brg, .tw, .seq, .tamp, .cool, .tel, .inf, .otp, .acd, .key, .fw, .ses, .sec, .flash, .bus, .mem, .fresh] s t := by
  unfold execHint at h
  try dsimp only at h
  with_reducible refine Foot.ofNext h ?_
  repeat' (first
    | with_reducible exact Foot.refl
    | with_reducible assumption
    | (with_reducible apply partsIn_dec; decide)
    | with_reducible apply Foot.next ?_ (State.tmpRow_foot ..) ?_
    )

theorem execHintCancel_foot {m : TmpMsg} {s : State} {t : State} (h : execHintCancel m s = .next t) : Foot [.regs, .time, .clk, .sil, .nvm, .pwr, .brg, .tw, .seq, .tamp, .cool, .tel, .inf, .otp, .acd, .key, .fw, .ses, .sec, .flash, .bus, .mem, .fresh] s t := by
  unfold execHintCancel at h
  try dsimp only at h
  with_reducible refine Foot.ofNext h ?_
  repeat' (first
    | with_reducible exact Foot.refl
    | with_reducible assumption
    | (with_reducible apply partsIn_dec; decide)
    | with_reducible apply Foot.next ?_ (State.tmpRow_foot ..) ?_
    )

theorem execTmpClose_foot {m : TmpMsg} {s : State} {t : State} (h : execTmpClose m s = .next t) : Foot [.regs, .time, .clk, .sil, .nvm, .pwr, .brg, .tw, .seq, .tamp, .cool, .tel, .inf, .otp, .acd, .key, .fw, .ses, .sec, .flash, .bus, .mem, .fresh] s t := by
  unfold execTmpClose at h
  try dsimp only at h
  with_reducible refine Foot.ofNext h ?_
  repeat' (first
    | with_reducible exact Foot.refl
    | with_reducible assumption
    | (with_reducible apply partsIn_dec; decide)
    | with_reducible apply Foot.next ?_ (State.tmpRow_foot ..) ?_
    )

theorem execPing_foot {m : TmpMsg} {s : State} {t : State} (h : execPing m s = .next t) : Foot [.regs, .time, .clk, .sil, .nvm, .pwr, .brg, .tw, .seq, .tamp, .cool, .tel, .inf, .otp, .acd, .key, .fw, .ses, .sec, .flash, .bus, .mem, .fresh] s t := by
  unfold execPing at h
  try dsimp only at h
  with_reducible refine Foot.ofNext h ?_
  repeat' (first
    | with_reducible exact Foot.refl
    | with_reducible assumption
    | (with_reducible apply partsIn_dec; decide)
    | with_reducible apply Foot.next ?_ (State.tmpRow_foot ..) ?_
    )

theorem execReadStat_foot {m : TmpMsg} {s : State} {badDesc : List (Fin 65536)} {t : State} (h : execReadStat m s badDesc = .next t) : Foot [.regs, .time, .clk, .sil, .nvm, .pwr, .brg, .tw, .seq, .tamp, .cool, .tel, .inf, .otp, .acd, .key, .fw, .ses, .sec, .flash, .bus, .mem, .fresh] s t := by
  unfold execReadStat at h
  try dsimp only at h
  with_reducible refine Foot.ofNext h ?_
  repeat' (first
    | with_reducible exact Foot.refl
    | with_reducible assumption
    | (with_reducible apply partsIn_dec; decide)
    | with_reducible apply Foot.next ?_ (State.tmpRow_foot ..) ?_
    | with_reducible apply Foot.next ?_ (State.mapEccAll_foot ..) ?_
    )

theorem execSubscribe_foot {m : TmpMsg} {s : State} {t : State} (h : execSubscribe m s = .next t) : Foot [.regs, .time, .clk, .sil, .nvm, .pwr, .brg, .tw, .seq, .tamp, .cool, .tel, .inf, .otp, .acd, .key, .fw, .ses, .sec, .flash, .bus, .mem, .fresh] s t := by
  unfold execSubscribe at h
  try dsimp only at h
  with_reducible refine Foot.ofNext h ?_
  repeat' (first
    | with_reducible exact Foot.refl
    | with_reducible assumption
    | (with_reducible apply partsIn_dec; decide)
    | with_reducible apply Foot.next ?_ (State.tmpRow_foot ..) ?_
    )

theorem execFpStatement_foot {m : TmpMsg} {s : State} {t : State} (h : execFpStatement m s = .next t) : Foot [.regs, .time, .clk, .sil, .nvm, .pwr, .brg, .tw, .seq, .tamp, .cool, .tel, .inf, .otp, .acd, .key, .fw, .ses, .sec, .flash, .bus, .mem, .fresh] s t := by
  unfold execFpStatement at h
  try dsimp only at h
  with_reducible refine Foot.ofNext h ?_
  repeat' (first
    | with_reducible exact Foot.refl
    | with_reducible assumption
    | (with_reducible apply partsIn_dec; decide)
    | with_reducible apply Foot.next ?_ (State.tmpRow_foot ..) ?_
    )

theorem execTmpStatus_foot {m : TmpMsg} {s : State} {t : State} (h : execTmpStatus m s = .next t) : Foot [.regs, .time, .clk, .sil, .nvm, .pwr, .brg, .tw, .seq, .tamp, .cool, .tel, .inf, .otp, .acd, .key, .fw, .ses, .sec, .flash, .bus, .mem, .fresh] s t := by
  unfold execTmpStatus at h
  try dsimp only at h
  with_reducible refine Foot.ofNext h ?_
  repeat' (first
    | with_reducible exact Foot.refl
    | with_reducible assumption
    | (with_reducible apply partsIn_dec; decide)
    | with_reducible apply Foot.next ?_ (State.tmpRow_foot ..) ?_
    )

theorem execSetCap_foot {m : TmpMsg} {s : State} {t : State} (h : execSetCap m s = .next t) : Foot [.regs, .time, .clk, .sil, .nvm, .pwr, .brg, .tw, .seq, .tamp, .cool, .tel, .inf, .otp, .acd, .key, .fw, .ses, .sec, .flash, .bus, .mem, .fresh] s t := by
  unfold execSetCap at h
  try dsimp only at h
  with_reducible refine Foot.ofNext h ?_
  repeat' (first
    | with_reducible exact Foot.refl
    | with_reducible assumption
    | (with_reducible apply partsIn_dec; decide)
    | with_reducible apply Foot.next ?_ (State.tmpRow_foot ..) ?_
    )

theorem execSetFloor_foot {m : TmpMsg} {s : State} {t : State} (h : execSetFloor m s = .next t) : Foot [.regs, .time, .clk, .sil, .nvm, .pwr, .brg, .tw, .seq, .tamp, .cool, .tel, .inf, .otp, .acd, .key, .fw, .ses, .sec, .flash, .bus, .mem, .fresh] s t := by
  unfold execSetFloor at h
  try dsimp only at h
  with_reducible refine Foot.ofNext h ?_
  repeat' (first
    | with_reducible exact Foot.refl
    | with_reducible assumption
    | (with_reducible apply partsIn_dec; decide)
    | with_reducible apply Foot.next ?_ (State.tmpRow_foot ..) ?_
    )

theorem execJob_foot {m : TmpMsg} {s : State} {t : State} (h : execJob m s = .next t) : Foot [.regs, .time, .clk, .sil, .nvm, .pwr, .brg, .tw, .seq, .tamp, .cool, .tel, .inf, .otp, .acd, .key, .fw, .ses, .sec, .flash, .bus, .mem, .fresh] s t := by
  unfold execJob at h
  try dsimp only at h
  with_reducible refine Foot.ofNext h ?_
  repeat' (first
    | with_reducible exact Foot.refl
    | with_reducible assumption
    | (with_reducible apply partsIn_dec; decide)
    | with_reducible apply Foot.next ?_ (State.tmpRow_foot ..) ?_
    )

theorem execSigInstall_foot {m : TmpMsg} {s : State} {t : State} (h : execSigInstall m s = .next t) : Foot [.regs, .time, .clk, .sil, .nvm, .pwr, .brg, .tw, .seq, .tamp, .cool, .tel, .inf, .otp, .acd, .key, .fw, .ses, .sec, .flash, .bus, .mem, .fresh] s t := by
  unfold execSigInstall at h
  try dsimp only at h
  with_reducible refine Foot.ofNext h ?_
  repeat' (first
    | with_reducible exact Foot.refl
    | with_reducible assumption
    | (with_reducible apply partsIn_dec; decide)
    | with_reducible apply Foot.next ?_ (State.tmpRow_foot ..) ?_
    )

theorem execSeqCmd_foot {m : TmpMsg} {s : State} {t : State} (h : execSeqCmd m s = .next t) : Foot [.regs, .time, .clk, .sil, .nvm, .pwr, .brg, .tw, .seq, .tamp, .cool, .tel, .inf, .otp, .acd, .key, .fw, .ses, .sec, .flash, .bus, .mem, .fresh] s t := by
  unfold execSeqCmd at h
  try dsimp only at h
  with_reducible refine Foot.ofNext h ?_
  repeat' (first
    | with_reducible exact Foot.refl
    | with_reducible assumption
    | (with_reducible apply partsIn_dec; decide)
    | with_reducible apply Foot.next ?_ (State.tmpRow_foot ..) ?_
    )

theorem execTampClear_foot {m : TmpMsg} {s : State} {t : State} (h : execTampClear m s = .next t) : Foot [.regs, .time, .clk, .sil, .nvm, .pwr, .brg, .tw, .seq, .tamp, .cool, .tel, .inf, .otp, .acd, .key, .fw, .ses, .sec, .flash, .bus, .mem, .fresh] s t := by
  unfold execTampClear at h
  try dsimp only at h
  with_reducible refine Foot.ofNext h ?_
  repeat' (first
    | with_reducible exact Foot.refl
    | with_reducible assumption
    | (with_reducible apply partsIn_dec; decide)
    | with_reducible apply Foot.next ?_ (State.tmpRow_foot ..) ?_
    )

theorem execPowerState_foot {m : TmpMsg} {s : State} {t : State} (h : execPowerState m s = .next t) : Foot [.regs, .time, .clk, .sil, .nvm, .pwr, .brg, .tw, .seq, .tamp, .cool, .tel, .inf, .otp, .acd, .key, .fw, .ses, .sec, .flash, .bus, .mem, .fresh] s t := by
  unfold execPowerState at h
  try dsimp only at h
  with_reducible refine Foot.ofNext h ?_
  repeat' (first
    | with_reducible exact Foot.refl
    | with_reducible assumption
    | (with_reducible apply partsIn_dec; decide)
    | with_reducible apply Foot.next ?_ (State.tmpRow_foot ..) ?_
    )

theorem execTopReset_foot {m : TmpMsg} {s : State} {t : State} (h : execTopReset m s = .next t) : Foot [.regs, .time, .clk, .sil, .nvm, .pwr, .brg, .tw, .seq, .tamp, .cool, .tel, .inf, .otp, .acd, .key, .fw, .ses, .sec, .flash, .bus, .mem, .fresh] s t := by
  unfold execTopReset at h
  try dsimp only at h
  with_reducible refine Foot.ofNext h ?_
  repeat' (first
    | with_reducible exact Foot.refl
    | with_reducible assumption
    | (with_reducible apply partsIn_dec; decide)
    | with_reducible apply Foot.next ?_ (State.tmpRow_foot ..) ?_
    )

theorem execTmpWdtKick_foot {m : TmpMsg} {s : State} {t : State} (h : execTmpWdtKick m s = .next t) : Foot [.regs, .time, .clk, .sil, .nvm, .pwr, .brg, .tw, .seq, .tamp, .cool, .tel, .inf, .otp, .acd, .key, .fw, .ses, .sec, .flash, .bus, .mem, .fresh] s t := by
  unfold execTmpWdtKick at h
  try dsimp only at h
  with_reducible refine Foot.ofNext h ?_
  repeat' (first
    | with_reducible exact Foot.refl
    | with_reducible assumption
    | (with_reducible apply partsIn_dec; decide)
    | with_reducible apply Foot.next ?_ (State.tmpRow_foot ..) ?_
    )

theorem execRecCtl_foot {m : TmpMsg} {s : State} {t : State} (h : execRecCtl m s = .next t) : Foot [.regs, .time, .clk, .sil, .nvm, .pwr, .brg, .tw, .seq, .tamp, .cool, .tel, .inf, .otp, .acd, .key, .fw, .ses, .sec, .flash, .bus, .mem, .fresh] s t := by
  unfold execRecCtl at h
  try dsimp only at h
  with_reducible refine Foot.ofNext h ?_
  repeat' (first
    | with_reducible exact Foot.refl
    | with_reducible assumption
    | (with_reducible apply partsIn_dec; decide)
    | with_reducible apply Foot.next ?_ (State.tmpRow_foot ..) ?_
    )

theorem execSettingCommit_foot {m : TmpMsg} {s : State} {t : State} (h : execSettingCommit m s = .next t) : Foot [.regs, .time, .clk, .sil, .nvm, .pwr, .brg, .tw, .seq, .tamp, .cool, .tel, .inf, .otp, .acd, .key, .fw, .ses, .sec, .flash, .bus, .mem, .fresh] s t := by
  unfold execSettingCommit at h
  try dsimp only at h
  with_reducible refine Foot.ofNext h ?_
  repeat' (first
    | with_reducible exact Foot.refl
    | with_reducible assumption
    | (with_reducible apply partsIn_dec; decide)
    | with_reducible apply Foot.next ?_ (State.tmpRow_foot ..) ?_
    )

theorem execWarmReset_foot {m : TmpMsg} {s : State} {t : State} (h : execWarmReset m s = .next t) : Foot [.regs, .time, .clk, .sil, .nvm, .pwr, .brg, .tw, .seq, .tamp, .cool, .tel, .inf, .otp, .acd, .key, .fw, .ses, .sec, .flash, .bus, .mem, .fresh] s t := by
  unfold execWarmReset at h
  try dsimp only at h
  with_reducible refine Foot.ofNext h ?_
  repeat' (first
    | with_reducible exact Foot.refl
    | with_reducible assumption
    | (with_reducible apply partsIn_dec; decide)
    | with_reducible apply Foot.next ?_ (State.tmpRow_foot ..) ?_
    )

theorem execMargin_foot {m : TmpMsg} {s : State} {t : State} (h : execMargin m s = .next t) : Foot [.regs, .time, .clk, .sil, .nvm, .pwr, .brg, .tw, .seq, .tamp, .cool, .tel, .inf, .otp, .acd, .key, .fw, .ses, .sec, .flash, .bus, .mem, .fresh] s t := by
  unfold execMargin at h
  try dsimp only at h
  with_reducible refine Foot.ofNext h ?_
  repeat' (first
    | with_reducible exact Foot.refl
    | with_reducible assumption
    | (with_reducible apply partsIn_dec; decide)
    | with_reducible apply Foot.next ?_ (State.tmpRow_foot ..) ?_
    )

theorem execAccordAccept_foot {m : TmpMsg} {flashOk : Bool} {s : State} {uncorr : Option (BitVec 28)} {t : State} (h : execAccordAccept m flashOk s uncorr = .next t) : Foot [.regs, .time, .clk, .sil, .nvm, .pwr, .brg, .tw, .seq, .tamp, .cool, .tel, .inf, .otp, .acd, .key, .fw, .ses, .sec, .flash, .bus, .mem, .fresh] s t := by
  unfold execAccordAccept at h
  try dsimp only at h
  with_reducible refine Foot.ofNext h ?_
  repeat' (first
    | with_reducible exact Foot.refl
    | with_reducible assumption
    | (with_reducible apply partsIn_dec; decide)
    | with_reducible apply Foot.next ?_ (State.tmpRow_foot ..) ?_
    )

theorem execKeyChangeAdd_foot {m : TmpMsg} {otpOk : Bool} {s : State} {t : State} (h : execKeyChangeAdd m otpOk s = .next t) : Foot [.regs, .time, .clk, .sil, .nvm, .pwr, .brg, .tw, .seq, .tamp, .cool, .tel, .inf, .otp, .acd, .key, .fw, .ses, .sec, .flash, .bus, .mem, .fresh] s t := by
  unfold execKeyChangeAdd at h
  try dsimp only at h
  with_reducible refine Foot.ofNext h ?_
  repeat' (first
    | with_reducible exact Foot.refl
    | with_reducible assumption
    | (with_reducible apply partsIn_dec; decide)
    | with_reducible apply Foot.next ?_ (State.tmpRow_foot ..) ?_
    )

theorem execKeyChangeRetire_foot {m : TmpMsg} {s : State} {t : State} (h : execKeyChangeRetire m s = .next t) : Foot [.regs, .time, .clk, .sil, .nvm, .pwr, .brg, .tw, .seq, .tamp, .cool, .tel, .inf, .otp, .acd, .key, .fw, .ses, .sec, .flash, .bus, .mem, .fresh] s t := by
  unfold execKeyChangeRetire at h
  try dsimp only at h
  with_reducible refine Foot.ofNext h ?_
  repeat' (first
    | with_reducible exact Foot.refl
    | with_reducible assumption
    | (with_reducible apply partsIn_dec; decide)
    | with_reducible apply Foot.next ?_ (State.tmpRow_foot ..) ?_
    )

theorem execDebugUnlockChallenge_foot {m : TmpMsg} {s : State} {t : State} (h : execDebugUnlockChallenge m s = .next t) : Foot [.regs, .time, .clk, .sil, .nvm, .pwr, .brg, .tw, .seq, .tamp, .cool, .tel, .inf, .otp, .acd, .key, .fw, .ses, .sec, .flash, .bus, .mem, .fresh] s t := by
  unfold execDebugUnlockChallenge at h
  try dsimp only at h
  with_reducible refine Foot.ofNext h ?_
  repeat' (first
    | with_reducible exact Foot.refl
    | with_reducible assumption
    | (with_reducible apply partsIn_dec; decide)
    | with_reducible apply Foot.next ?_ (State.tmpRow_foot ..) ?_
    )

theorem execDebugUnlockResponse_foot {m : TmpMsg} {s : State} {t : State} (h : execDebugUnlockResponse m s = .next t) : Foot [.regs, .time, .clk, .sil, .nvm, .pwr, .brg, .tw, .seq, .tamp, .cool, .tel, .inf, .otp, .acd, .key, .fw, .ses, .sec, .flash, .bus, .mem, .fresh] s t := by
  unfold execDebugUnlockResponse at h
  try dsimp only at h
  with_reducible refine Foot.ofNext h ?_
  repeat' (first
    | with_reducible exact Foot.refl
    | with_reducible assumption
    | (with_reducible apply partsIn_dec; decide)
    | with_reducible apply Foot.next ?_ (State.tmpRow_foot ..) ?_
    )

theorem execLogClear_foot {m : TmpMsg} {s : State} {t : State} (h : execLogClear m s = .next t) : Foot [.regs, .time, .clk, .sil, .nvm, .pwr, .brg, .tw, .seq, .tamp, .cool, .tel, .inf, .otp, .acd, .key, .fw, .ses, .sec, .flash, .bus, .mem, .fresh] s t := by
  unfold execLogClear at h
  try dsimp only at h
  with_reducible refine Foot.ofNext h ?_
  repeat' (first
    | with_reducible exact Foot.refl
    | with_reducible assumption
    | (with_reducible apply partsIn_dec; decide)
    | with_reducible apply Foot.next ?_ (State.tmpRow_foot ..) ?_
    )

theorem execReplySubmit_foot {ini : Initiator} {wr : Fin 64} {s : State} {t : State} (h : execReplySubmit ini wr s = .next t) : Foot [.regs, .sil, .ses, .bus] s t := by
  unfold execReplySubmit at h
  try dsimp only at h
  with_reducible refine Foot.ofNext h ?_
  repeat' (first
    | with_reducible exact Foot.refl
    | with_reducible assumption
    | (with_reducible apply partsIn_dec; decide)
    | with_reducible apply Foot.next ?_ (State.txSubmit_foot ..) ?_
    | with_reducible apply Foot.next ?_ (State.sendBegin_foot ..) ?_
    | with_reducible apply Foot.trans ?_ (State.command_foot _ _ _ _ ?_ ?_)
    )

theorem execCoreResetRelease_foot {c : Fin 4} {s : State} {t : State} (h : execCoreResetRelease c s = .next t) : Foot [.regs, .time, .clk, .sil, .nvm, .pwr, .brg, .tw, .seq, .tamp, .cool, .tel, .inf, .otp, .acd, .key, .fw, .ses, .sec, .flash, .bus, .mem, .fresh] s t := by
  unfold execCoreResetRelease at h
  try dsimp only at h
  with_reducible refine Foot.ofNext h ?_
  repeat' (first
    | with_reducible exact Foot.refl
    | with_reducible assumption
    | (with_reducible apply partsIn_dec; decide)
    | with_reducible apply Foot.next ?_ (State.coreRelease_foot ..) ?_
    | with_reducible apply Foot.next ?_ (State.fwDrain_foot ..) ?_
    | with_reducible apply Foot.next ?_ (State.floorCopy_foot ..) ?_
    | with_reducible apply Foot.next ?_ (State.sendBegin_foot ..) ?_
    )

theorem execBowRecover_foot {minMv mv : Fin 4096} {s : State} {t : State} (h : execBowRecover minMv mv s = .next t) : Foot [.regs, .time, .clk, .sil, .nvm, .pwr, .brg, .tw, .seq, .tamp, .cool, .tel, .inf, .otp, .acd, .key, .fw, .ses, .sec, .flash, .bus, .mem, .fresh] s t := by
  unfold execBowRecover at h
  try dsimp only at h
  with_reducible refine Foot.ofNext h ?_
  repeat' (first
    | with_reducible exact Foot.refl
    | with_reducible assumption
    | (with_reducible apply partsIn_dec; decide)
    | with_reducible apply Foot.next ?_ (State.fwDrain_foot ..) ?_
    | with_reducible apply Foot.next ?_ (State.bowRecover_foot ..) ?_
    | with_reducible apply Foot.next ?_ (State.sendBegin_foot ..) ?_
    )

theorem execNvmCommitDone_foot {s : State} {t : State} (h : execNvmCommitDone s = .next t) : Foot [.regs, .time, .clk, .sil, .nvm, .pwr, .brg, .tw, .seq, .tamp, .cool, .tel, .inf, .otp, .acd, .key, .fw, .ses, .sec, .flash, .bus, .mem, .fresh] s t := by
  unfold execNvmCommitDone at h
  try dsimp only at h
  with_reducible refine Foot.ofNext h ?_
  repeat' (first
    | with_reducible exact Foot.refl
    | with_reducible assumption
    | (with_reducible apply partsIn_dec; decide)
    | with_reducible apply Foot.next ?_ (State.fwDrain_foot ..) ?_
    | with_reducible apply Foot.next ?_ (State.commitDone_foot ..) ?_
    | with_reducible apply Foot.next ?_ (State.sendBegin_foot ..) ?_
    | with_reducible apply Foot.ite ?_ ?_
    )

theorem State.dbgHalt_foot (s : State) (a0 : DbgCore) : Foot [.regs, .fw] s (State.dbgHalt s a0) := by
  unfold State.dbgHalt
  try dsimp only
  repeat' (first
    | with_reducible exact Foot.refl
    | with_reducible assumption
    | (with_reducible apply partsIn_dec; decide)
    | with_reducible apply Foot.next ?_ (State.setCore_foot ..) ?_
    | with_reducible apply Foot.next ?_ (State.modFw_foot ..) ?_
    | with_reducible apply Foot.ite ?_ ?_
    | split
    )

theorem State.dbgResume_foot (s : State) (a0 : DbgCore) : Foot [.regs, .time, .clk, .sil, .nvm, .pwr, .brg, .tw, .seq, .tamp, .cool, .tel, .inf, .otp, .acd, .key, .fw, .ses, .sec, .flash, .bus, .mem, .fresh] s (State.dbgResume s a0) := by
  unfold State.dbgResume
  try dsimp only
  repeat' (first
    | with_reducible exact Foot.refl
    | with_reducible assumption
    | (with_reducible apply partsIn_dec; decide)
    | with_reducible apply Foot.next ?_ (State.fwDrain_foot ..) ?_
    | with_reducible apply Foot.next ?_ (State.floorCopy_foot ..) ?_
    | with_reducible apply Foot.next ?_ (State.setCore_foot ..) ?_
    | with_reducible apply Foot.next ?_ (State.modFw_foot ..) ?_
    | with_reducible apply Foot.ite ?_ ?_
    | split
    )

theorem execDebugHalt_foot {core : DbgCore} {s : State} {t : State} (h : execDebugHalt core s = .next t) : Foot [.regs, .fw] s t := by
  unfold execDebugHalt at h
  try dsimp only at h
  with_reducible refine Foot.ofNext h ?_
  repeat' (first
    | with_reducible exact Foot.refl
    | with_reducible assumption
    | (with_reducible apply partsIn_dec; decide)
    | with_reducible apply Foot.next ?_ (State.dbgHalt_foot ..) ?_
    | with_reducible apply Foot.ite ?_ ?_
    )

theorem execDebugResume_foot {core : DbgCore} {s : State} {t : State} (h : execDebugResume core s = .next t) : Foot [.regs, .time, .clk, .sil, .nvm, .pwr, .brg, .tw, .seq, .tamp, .cool, .tel, .inf, .otp, .acd, .key, .fw, .ses, .sec, .flash, .bus, .mem, .fresh] s t := by
  unfold execDebugResume at h
  try dsimp only at h
  with_reducible refine Foot.ofNext h ?_
  repeat' (first
    | with_reducible exact Foot.refl
    | with_reducible assumption
    | (with_reducible apply partsIn_dec; decide)
    | with_reducible apply Foot.next ?_ (State.dbgResume_foot ..) ?_
    | with_reducible apply Foot.next ?_ (State.sendBegin_foot ..) ?_
    | with_reducible apply Foot.ite ?_ ?_
    )

end Sys2Proof.Machine
end

