-- ==== Sys2Proof/Laws/FootNet.lean ====
section
/-! SUPPORT. Footprints of the functions of Machine/Net.lean. -/

namespace Sys2Proof.Machine

theorem execNetCntClr_foot {ini : Initiator} {n : Fin 2} {s : State} {t : State} (h : execNetCntClr ini n s = .next t) : Foot [.regs, .sil, .bus] s t := by
  unfold execNetCntClr at h
  try dsimp only at h
  with_reducible refine Foot.ofNext h ?_
  repeat' (first
    | with_reducible exact Foot.refl
    | with_reducible assumption
    | (with_reducible apply partsIn_dec; decide)
    | with_reducible apply Foot.trans ?_ (State.command_foot _ _ _ _ ?_ ?_)
    | with_reducible apply Foot.next ?_ (State.setAll_foot ..) ?_
    )

theorem State.netRetrain_foot (s : State) (n : Nat) : Foot [.regs] s (State.netRetrain s n) := by
  unfold State.netRetrain
  try dsimp only
  repeat' (first
    | with_reducible exact Foot.refl
    | with_reducible assumption
    | (with_reducible apply partsIn_dec; decide)
    | with_reducible apply Foot.next ?_ (State.netGo_foot ..) ?_
    | with_reducible apply Foot.next ?_ (State.netTo_foot ..) ?_
    | with_reducible apply Foot.ite ?_ ?_
    )

theorem execNetRetrain_foot {ini : Initiator} {n : Fin 2} {s : State} {t : State} (h : execNetRetrain ini n s = .next t) : Foot [.regs, .sil, .bus] s t := by
  unfold execNetRetrain at h
  try dsimp only at h
  with_reducible refine Foot.ofNext h ?_
  repeat' (first
    | with_reducible exact Foot.refl
    | with_reducible assumption
    | (with_reducible apply partsIn_dec; decide)
    | with_reducible apply Foot.next ?_ (State.netRetrain_foot ..) ?_
    | with_reducible apply Foot.trans ?_ (State.command_foot _ _ _ _ ?_ ?_)
    )

theorem execNetStart_foot {ini : Initiator} {n : Fin 2} {s : State} {t : State} (h : execNetStart ini n s = .next t) : Foot [.regs, .sil, .bus] s t := by
  unfold execNetStart at h
  try dsimp only at h
  with_reducible refine Foot.ofNext h ?_
  repeat' (first
    | with_reducible exact Foot.refl
    | with_reducible assumption
    | (with_reducible apply partsIn_dec; decide)
    | with_reducible apply Foot.next ?_ (State.netStart_foot ..) ?_
    | with_reducible apply Foot.trans ?_ (State.command_foot _ _ _ _ ?_ ?_)
    )

theorem State.netUpDone_foot (s : State) (n : Nat) : Foot [.regs] s (State.netUpDone s n) := by
  unfold State.netUpDone
  try dsimp only
  repeat' (first
    | with_reducible exact Foot.refl
    | with_reducible assumption
    | (with_reducible apply partsIn_dec; decide)
    | with_reducible apply Foot.next ?_ (State.setAll_foot ..) ?_
    | with_reducible apply Foot.ite ?_ ?_
    )

theorem execNetLinkUp_foot {n : Fin 2} {s : State} {t : State} (h : execNetLinkUp n s = .next t) : Foot [.regs] s t := by
  unfold execNetLinkUp at h
  try dsimp only at h
  with_reducible refine Foot.ofNext h ?_
  repeat' (first
    | with_reducible exact Foot.refl
    | with_reducible assumption
    | (with_reducible apply partsIn_dec; decide)
    | with_reducible apply Foot.next ?_ (State.netUpDone_foot ..) ?_
    )

theorem State.netDrop_foot (s : State) (n : Nat) : Foot [.regs, .time, .clk, .sil, .seq] s (State.netDrop s n) := by
  unfold State.netDrop
  try dsimp only
  repeat' (first
    | with_reducible exact Foot.refl
    | with_reducible assumption
    | (with_reducible apply partsIn_dec; decide)
    | with_reducible apply Foot.next ?_ (State.netGo_foot ..) ?_
    | with_reducible apply Foot.next ?_ (State.recoveredLost_foot ..) ?_
    | with_reducible apply Foot.next ?_ (State.netTo_foot ..) ?_
    | with_reducible apply Foot.ite ?_ ?_
    )

theorem execNetLinkDown_foot {n : Fin 2} {s : State} {t : State} (h : execNetLinkDown n s = .next t) : Foot [.regs, .time, .clk, .sil, .seq] s t := by
  unfold execNetLinkDown at h
  try dsimp only at h
  with_reducible refine Foot.ofNext h ?_
  repeat' (first
    | with_reducible exact Foot.refl
    | with_reducible assumption
    | (with_reducible apply partsIn_dec; decide)
    | with_reducible apply Foot.next ?_ (State.netDrop_foot ..) ?_
    )

theorem execNetRetry_foot {n : Fin 2} {s : State} {t : State} (h : execNetRetry n s = .next t) : Foot [.regs] s t := by
  unfold execNetRetry at h
  try dsimp only at h
  with_reducible refine Foot.ofNext h ?_
  repeat' (first
    | with_reducible exact Foot.refl
    | with_reducible assumption
    | (with_reducible apply partsIn_dec; decide)
    | with_reducible apply Foot.next ?_ (State.netGo_foot ..) ?_
    | with_reducible apply Foot.ite ?_ ?_
    )

theorem State.portAnswer_foot (s : State) (port : Nat) (f : ServiceFrame) : Foot [.ses] s (State.portAnswer s port f) := by
  unfold State.portAnswer
  try dsimp only
  repeat' (first
    | with_reducible exact Foot.refl
    | with_reducible assumption
    | (with_reducible apply partsIn_dec; decide)
    | with_reducible apply Foot.next ?_ (State.emit_foot ..) ?_
    )

theorem State.serviceFrame_foot (s : State) (port : Nat) (vid : Option (BitVec 12)) (f : ServiceFrame) : Foot [.regs, .ses] s (State.serviceFrame s port vid f) := by
  unfold State.serviceFrame
  try dsimp only
  repeat' (first
    | with_reducible exact Foot.refl
    | with_reducible assumption
    | (with_reducible apply partsIn_dec; decide)
    | with_reducible apply Foot.next ?_ (State.portAnswer_foot ..) ?_
    | with_reducible apply Foot.next ?_ (State.resolve_foot ..) ?_
    | with_reducible apply Foot.next ?_ (State.bump_foot ..) ?_
    | with_reducible apply Foot.ite ?_ ?_
    | split
    )

theorem execNetServiceFrame_foot {port : Fin 3} {frame : ServiceFrame} {s : State} {vid : Option (BitVec 12)} {fec : FecCount} {t : State} (h : execNetServiceFrame port frame s vid fec = .next t) : Foot [.regs, .brg, .tel, .ses] s t := by
  unfold execNetServiceFrame at h
  try dsimp only at h
  with_reducible refine Foot.ofNext h ?_
  repeat' (first
    | with_reducible exact Foot.refl
    | with_reducible assumption
    | (with_reducible apply partsIn_dec; decide)
    | with_reducible apply Foot.next ?_ (State.serviceFrame_foot ..) ?_
    | with_reducible apply Foot.next ?_ (State.frame_foot ..) ?_
    | with_reducible apply Foot.next ?_ (State.fecCount_foot ..) ?_
    | with_reducible apply Foot.next ?_ (State.sendBegin_foot ..) ?_
    | with_reducible refine Foot.next ?_ (State.frame_foot' (by assumption)) (by decide)
    )

end Sys2Proof.Machine
end

