-- ==== Sys2Proof/Laws/FootPlic.lean ====
section
/-! SUPPORT. Footprints of the functions of Machine/Plic.lean. -/

namespace Sys2Proof.Machine

theorem State.modPlic_foot (s : State) (keeper : Bool) (f : Plic → Plic) : Foot [.fw] s (State.modPlic s keeper f) := by
  unfold State.modPlic
  try dsimp only
  repeat' (first
    | with_reducible exact Foot.refl
    | with_reducible assumption
    | (with_reducible apply partsIn_dec; decide)
    | with_reducible apply Foot.next ?_ (State.modFw_foot ..) ?_
    | with_reducible apply Foot.ite ?_ ?_
    )

theorem State.timerWrite_foot (s : State) (keeper : Bool) (i w : Nat) : Foot [.fw] s (State.timerWrite s keeper i w) := by
  unfold State.timerWrite
  try dsimp only
  repeat' (first
    | with_reducible exact Foot.refl
    | with_reducible assumption
    | (with_reducible apply partsIn_dec; decide)
    | with_reducible apply Foot.next ?_ (State.modFw_foot ..) ?_
    | with_reducible apply Foot.ite ?_ ?_
    )

theorem State.plicClaim_foot (s : State) (keeper : Bool) (c : Nat) : Foot [.fw] s (State.plicClaim s keeper c) := by
  unfold State.plicClaim
  try dsimp only
  repeat' (first
    | with_reducible exact Foot.refl
    | with_reducible assumption
    | (with_reducible apply partsIn_dec; decide)
    | with_reducible apply Foot.next ?_ (State.modPlic_foot ..) ?_
    | with_reducible apply Foot.next ?_ (State.modFw_foot ..) ?_
    | with_reducible apply Foot.ite ?_ ?_
    )

theorem State.plicRead_foot (s : State) (a : Nat) : Foot [.fw, .bus] s (State.plicRead s a) := by
  unfold State.plicRead
  try dsimp only
  repeat' (first
    | with_reducible exact Foot.refl
    | with_reducible assumption
    | (with_reducible apply partsIn_dec; decide)
    | with_reducible apply Foot.next ?_ (State.plicClaim_foot ..) ?_
    | split
    | with_reducible apply Foot.next ?_ Foot.bus_upd ?_
    )

theorem State.plicWrite_foot (s : State) (a w : Nat) : Foot [.fw] s (State.plicWrite s a w) := by
  unfold State.plicWrite
  try dsimp only
  repeat' (first
    | with_reducible exact Foot.refl
    | with_reducible assumption
    | (with_reducible apply partsIn_dec; decide)
    | with_reducible apply Foot.next ?_ (State.timerWrite_foot ..) ?_
    | with_reducible apply Foot.next ?_ (State.modPlic_foot ..) ?_
    | split
    )

end Sys2Proof.Machine
end

