-- ==== Sys2Proof/Laws/FootSession.lean ====
section
/-! SUPPORT. Footprints of the functions of Machine/Session.lean. -/

namespace Sys2Proof.Machine

theorem State.openErr_foot (s : State) (m : TmpMsg) (status : Nat) : Foot [.regs, .ses] s (State.openErr s m status) := by
  unfold State.openErr
  try dsimp only
  repeat' (first
    | with_reducible exact Foot.refl
    | with_reducible assumption
    | (with_reducible apply partsIn_dec; decide)
    | with_reducible apply Foot.next ?_ (State.bump_foot ..) ?_
    | with_reducible apply Foot.next ?_ (State.sendTmp_foot ..) ?_
    )

theorem State.openChal_foot (s : State) (m : TmpMsg) : Foot [.regs, .ses, .fresh] s (State.openChal s m) := by
  unfold State.openChal
  try dsimp only
  repeat' (first
    | with_reducible exact Foot.refl
    | with_reducible assumption
    | (with_reducible apply partsIn_dec; decide)
    | with_reducible apply Foot.next ?_ (State.sesSync_foot ..) ?_
    | with_reducible apply Foot.next ?_ (State.sendTmp_foot ..) ?_
    | with_reducible apply Foot.next ?_ (State.modSes_foot ..) ?_
    | with_reducible apply Foot.next ?_ (State.draw_foot ..) ?_
    | with_reducible apply Foot.next ?_ (State.setAll_foot ..) ?_
    )

theorem State.openReq_foot (s : State) (m : TmpMsg) : Foot [.regs, .ses, .fresh] s (State.openReq s m) := by
  unfold State.openReq
  try dsimp only
  repeat' (first
    | with_reducible exact Foot.refl
    | with_reducible assumption
    | (with_reducible apply partsIn_dec; decide)
    | with_reducible apply Foot.next ?_ (State.openChal_foot ..) ?_
    | with_reducible apply Foot.next ?_ (State.openErr_foot ..) ?_
    | with_reducible apply Foot.next ?_ (State.bump_foot ..) ?_
    | with_reducible apply Foot.ite ?_ ?_
    | split
    )

theorem State.openGrant_foot (s : State) (n i classes : Nat) (m : TmpMsg) (h : Hs) : Foot [.regs, .time, .clk, .sil, .pwr, .brg, .tw, .seq, .tamp, .cool, .tel, .inf, .acd, .fw, .ses, .sec, .bus, .mem] s (State.openGrant s n i classes m h) := by
  unfold State.openGrant
  try dsimp only
  repeat' (first
    | with_reducible exact Foot.refl
    | with_reducible assumption
    | (with_reducible apply partsIn_dec; decide)
    | with_reducible apply Foot.next ?_ (State.scopeTake_foot ..) ?_
    | with_reducible apply Foot.next ?_ (State.sesSync_foot ..) ?_
    | with_reducible apply Foot.next ?_ (State.logTop_foot ..) ?_
    | with_reducible apply Foot.next ?_ (State.a1Exit_foot ..) ?_
    | with_reducible apply Foot.next ?_ (State.sesSend_foot ..) ?_
    | with_reducible apply Foot.next ?_ (State.set64_foot ..) ?_
    | with_reducible apply Foot.next ?_ (State.modSess_foot ..) ?_
    | with_reducible apply Foot.next ?_ (State.setAll_foot ..) ?_
    | with_reducible apply Foot.next ?_ (State.set_foot ..) ?_
    | with_reducible apply Foot.ite ?_ ?_
    )

theorem State.openFail_foot (s : State) (n : Nat) (m : TmpMsg) (status : Nat) : Foot [.regs, .ses] s (State.openFail s n m status) := by
  unfold State.openFail
  try dsimp only
  repeat' (first
    | with_reducible exact Foot.refl
    | with_reducible assumption
    | (with_reducible apply partsIn_dec; decide)
    | with_reducible apply Foot.next ?_ (State.sesErase_foot ..) ?_
    | with_reducible apply Foot.next ?_ (State.openErr_foot ..) ?_
    )

theorem State.openProof_foot (s : State) (n : Nat) (m : TmpMsg) : Foot [.regs, .time, .clk, .sil, .pwr, .brg, .tw, .seq, .tamp, .cool, .tel, .inf, .acd, .fw, .ses, .sec, .bus, .mem] s (State.openProof s n m) := by
  unfold State.openProof
  try dsimp only
  repeat' (first
    | with_reducible exact Foot.refl
    | with_reducible assumption
    | (with_reducible apply partsIn_dec; decide)
    | with_reducible apply Foot.next ?_ (State.openFail_foot ..) ?_
    | with_reducible apply Foot.next ?_ (State.openGrant_foot ..) ?_
    | with_reducible apply Foot.next ?_ (State.bump_foot ..) ?_
    | with_reducible apply Foot.ite ?_ ?_
    | split
    )

theorem State.openReqRow_foot (s : State) (m : TmpMsg) : Foot [.regs, .ses, .fresh] s (State.openReqRow s m) := by
  unfold State.openReqRow
  try dsimp only
  repeat' (first
    | with_reducible exact Foot.refl
    | with_reducible assumption
    | (with_reducible apply partsIn_dec; decide)
    | with_reducible apply Foot.next ?_ (State.openReq_foot ..) ?_
    | with_reducible apply Foot.ite ?_ ?_
    )

theorem State.openProofRow_foot (s : State) (m : TmpMsg) : Foot [.regs, .time, .clk, .sil, .pwr, .brg, .tw, .seq, .tamp, .cool, .tel, .inf, .acd, .fw, .ses, .sec, .bus, .mem] s (State.openProofRow s m) := by
  unfold State.openProofRow
  try dsimp only
  repeat' (first
    | with_reducible exact Foot.refl
    | with_reducible assumption
    | (with_reducible apply partsIn_dec; decide)
    | with_reducible apply Foot.next ?_ (State.openProof_foot ..) ?_
    | with_reducible apply Foot.ite ?_ ?_
    | split
    )

theorem execOpenReq_foot {m : TmpMsg} {s : State} {t : State} (h : execOpenReq m s = .next t) : Foot [.regs, .ses, .fresh] s t := by
  unfold execOpenReq at h
  try dsimp only at h
  with_reducible refine Foot.ofNext h ?_
  repeat' (first
    | with_reducible exact Foot.refl
    | with_reducible assumption
    | (with_reducible apply partsIn_dec; decide)
    | with_reducible apply Foot.next ?_ (State.openReqRow_foot ..) ?_
    | with_reducible apply Foot.next ?_ (State.sendBegin_foot ..) ?_
    )

theorem execOpenProof_foot {m : TmpMsg} {s : State} {t : State} (h : execOpenProof m s = .next t) : Foot [.regs, .time, .clk, .sil, .pwr, .brg, .tw, .seq, .tamp, .cool, .tel, .inf, .acd, .fw, .ses, .sec, .bus, .mem] s t := by
  unfold execOpenProof at h
  try dsimp only at h
  with_reducible refine Foot.ofNext h ?_
  repeat' (first
    | with_reducible exact Foot.refl
    | with_reducible assumption
    | (with_reducible apply partsIn_dec; decide)
    | with_reducible apply Foot.next ?_ (State.openProofRow_foot ..) ?_
    | with_reducible apply Foot.next ?_ (State.sendBegin_foot ..) ?_
    )

theorem execOpenProofTimeout_foot {n : Fin 16} {s : State} {t : State} (h : execOpenProofTimeout n s = .next t) : Foot [.regs, .ses] s t := by
  unfold execOpenProofTimeout at h
  try dsimp only at h
  with_reducible refine Foot.ofNext h ?_
  repeat' (first
    | with_reducible exact Foot.refl
    | with_reducible assumption
    | (with_reducible apply partsIn_dec; decide)
    | with_reducible apply Foot.next ?_ (State.hsAbandon_foot ..) ?_
    | with_reducible apply Foot.ite ?_ ?_
    )

theorem State.fragComplete_foot (s : State) (p : Partial) (peer : Peer) : Foot [.regs, .time, .clk, .sil, .nvm, .pwr, .brg, .tw, .seq, .tamp, .cool, .tel, .inf, .otp, .acd, .key, .fw, .ses, .sec, .flash, .bus, .mem, .fresh] s (State.fragComplete s p peer) := by
  unfold State.fragComplete
  try dsimp only
  repeat' (first
    | with_reducible exact Foot.refl
    | with_reducible assumption
    | (with_reducible apply partsIn_dec; decide)
    | with_reducible apply Foot.next ?_ (State.tmpSession_foot ..) ?_
    | with_reducible apply Foot.next ?_ (State.openProof_foot ..) ?_
    | with_reducible apply Foot.next ?_ (State.openReq_foot ..) ?_
    | with_reducible apply Foot.ite ?_ ?_
    | split
    )

theorem State.fragAdd_foot (s : State) (peer : Peer) (f : Frag) (body : List Byte) : Foot [.regs, .time, .clk, .sil, .nvm, .pwr, .brg, .tw, .seq, .tamp, .cool, .tel, .inf, .otp, .acd, .key, .fw, .ses, .sec, .flash, .bus, .mem, .fresh] s (State.fragAdd s peer f body) := by
  unfold State.fragAdd
  try dsimp only
  repeat' (first
    | with_reducible exact Foot.refl
    | with_reducible assumption
    | (with_reducible apply partsIn_dec; decide)
    | with_reducible apply Foot.next ?_ (State.fragComplete_foot ..) ?_
    | with_reducible apply Foot.next ?_ (State.bump_foot ..) ?_
    | with_reducible apply Foot.next ?_ (State.modSes_foot ..) ?_
    | with_reducible apply Foot.ite ?_ ?_
    )

theorem State.fragSession_foot (s : State) (peer : Peer) (f : Frag) : Foot [.regs, .time, .clk, .sil, .nvm, .pwr, .brg, .tw, .seq, .tamp, .cool, .tel, .inf, .otp, .acd, .key, .fw, .ses, .sec, .flash, .bus, .mem, .fresh] s (State.fragSession s peer f) := by
  unfold State.fragSession
  try dsimp only
  repeat' (first
    | with_reducible exact Foot.refl
    | with_reducible assumption
    | (with_reducible apply partsIn_dec; decide)
    | with_reducible apply Foot.next ?_ (State.fragAdd_foot ..) ?_
    | with_reducible apply Foot.next ?_ (State.bump_foot ..) ?_
    | with_reducible apply Foot.ite ?_ ?_
    | split
    )

theorem State.fragRx_foot (s : State) (peer : Peer) (d : List Byte) : Foot [.regs, .time, .clk, .sil, .nvm, .pwr, .brg, .tw, .seq, .tamp, .cool, .tel, .inf, .otp, .acd, .key, .fw, .ses, .sec, .flash, .bus, .mem, .fresh] s (State.fragRx s peer d) := by
  unfold State.fragRx
  try dsimp only
  repeat' (first
    | with_reducible exact Foot.refl
    | with_reducible assumption
    | (with_reducible apply partsIn_dec; decide)
    | with_reducible apply Foot.next ?_ (State.fragSession_foot ..) ?_
    | with_reducible apply Foot.next ?_ (State.bump_foot ..) ?_
    | with_reducible apply Foot.next ?_ (State.set_foot ..) ?_
    | with_reducible apply Foot.ite ?_ ?_
    | split
    )

theorem execFragmentRx_foot {peer : Peer} {datagram : List Byte} {s : State} {fec : FecCount} {t : State} (h : execFragmentRx peer datagram s fec = .next t) : Foot [.regs, .time, .clk, .sil, .nvm, .pwr, .brg, .tw, .seq, .tamp, .cool, .tel, .inf, .otp, .acd, .key, .fw, .ses, .sec, .flash, .bus, .mem, .fresh] s t := by
  unfold execFragmentRx at h
  try dsimp only at h
  with_reducible refine Foot.ofNext h ?_
  repeat' (first
    | with_reducible exact Foot.refl
    | with_reducible assumption
    | (with_reducible apply partsIn_dec; decide)
    | with_reducible apply Foot.next ?_ (State.fecCount_foot ..) ?_
    | with_reducible apply Foot.next ?_ (State.fragRx_foot ..) ?_
    | with_reducible apply Foot.next ?_ (State.sendBegin_foot ..) ?_
    )

theorem execReassemblyTimeout_foot {sid : BitVec 32} {seq : BitVec 64} {s : State} {peer : Option Peer} {t : State} (h : execReassemblyTimeout sid seq s peer = .next t) : Foot [.ses] s t := by
  unfold execReassemblyTimeout at h
  try dsimp only at h
  with_reducible refine Foot.ofNext h ?_
  repeat' (first
    | with_reducible exact Foot.refl
    | with_reducible assumption
    | (with_reducible apply partsIn_dec; decide)
    | with_reducible apply Foot.next ?_ (State.modSes_foot ..) ?_
    )

theorem execJobHoldExpiry_foot {n : Fin 16} {s : State} {t : State} (h : execJobHoldExpiry n s = .next t) : Foot [.regs] s t := by
  unfold execJobHoldExpiry at h
  try dsimp only at h
  with_reducible refine Foot.ofNext h ?_
  repeat' (first
    | with_reducible exact Foot.refl
    | with_reducible assumption
    | (with_reducible apply partsIn_dec; decide)
    | with_reducible apply Foot.next ?_ (State.jobSet_foot ..) ?_
    | with_reducible apply Foot.ite ?_ ?_
    )

theorem execIdleTimeout_foot {n : Fin 16} {s : State} {t : State} (h : execIdleTimeout n s = .next t) : Foot [.regs, .brg, .inf, .acd, .ses] s t := by
  unfold execIdleTimeout at h
  try dsimp only at h
  with_reducible refine Foot.ofNext h ?_
  repeat' (first
    | with_reducible exact Foot.refl
    | with_reducible assumption
    | (with_reducible apply partsIn_dec; decide)
    | with_reducible apply Foot.next ?_ (State.sesClose_foot ..) ?_
    )

theorem State.closeEvery_foot (s : State) : Foot [.regs, .brg, .inf, .acd, .ses] s (State.closeEvery s) := by
  unfold State.closeEvery
  try dsimp only
  repeat' (first
    | with_reducible exact Foot.refl
    | with_reducible assumption
    | (with_reducible apply partsIn_dec; decide)
    | with_reducible apply Foot.next ?_ (State.sesClose_foot ..) ?_
    | with_reducible apply Foot.foldl (fun _ _ _ => ?_) ?_
    )

theorem execCloseAll_foot {ini : Initiator} {s : State} {t : State} (h : execCloseAll ini s = .next t) : Foot [.regs, .sil, .brg, .inf, .acd, .ses, .bus] s t := by
  unfold execCloseAll at h
  try dsimp only at h
  with_reducible refine Foot.ofNext h ?_
  repeat' (first
    | with_reducible exact Foot.refl
    | with_reducible assumption
    | (with_reducible apply partsIn_dec; decide)
    | with_reducible apply Foot.next ?_ (State.closeEvery_foot ..) ?_
    | with_reducible apply Foot.trans ?_ (State.command_foot _ _ _ _ ?_ ?_)
    )

theorem execSesCntClr_foot {ini : Initiator} {s : State} {t : State} (h : execSesCntClr ini s = .next t) : Foot [.regs, .sil, .bus] s t := by
  unfold execSesCntClr at h
  try dsimp only at h
  with_reducible refine Foot.ofNext h ?_
  repeat' (first
    | with_reducible exact Foot.refl
    | with_reducible assumption
    | (with_reducible apply partsIn_dec; decide)
    | with_reducible apply Foot.trans ?_ (State.command_foot _ _ _ _ ?_ ?_)
    | with_reducible apply Foot.next ?_ (State.setAll_foot ..) ?_
    )

theorem State.heartbeat_foot (s : State) : Foot [.regs, .ses] s (State.heartbeat s) := by
  unfold State.heartbeat
  try dsimp only
  repeat' (first
    | with_reducible exact Foot.refl
    | with_reducible assumption
    | (with_reducible apply partsIn_dec; decide)
    | with_reducible apply Foot.next ?_ (State.sesSend_foot ..) ?_
    | with_reducible apply Foot.foldl (fun _ _ _ => ?_) ?_
    | with_reducible apply Foot.ite ?_ ?_
    )

theorem execHeartbeat_foot {s : State} {t : State} (h : execHeartbeat s = .next t) : Foot [.regs, .ses] s t := by
  unfold execHeartbeat at h
  try dsimp only at h
  with_reducible refine Foot.ofNext h ?_
  repeat' (first
    | with_reducible exact Foot.refl
    | with_reducible assumption
    | (with_reducible apply partsIn_dec; decide)
    | with_reducible apply Foot.next ?_ (State.heartbeat_foot ..) ?_
    | with_reducible apply Foot.next ?_ (State.sendBegin_foot ..) ?_
    )

theorem State.evDeliver_foot (s : State) (n : Nat) : Foot [.regs, .ses] s (State.evDeliver s n) := by
  unfold State.evDeliver
  try dsimp only
  repeat' (first
    | with_reducible exact Foot.refl
    | with_reducible assumption
    | (with_reducible apply partsIn_dec; decide)
    | with_reducible apply Foot.next ?_ (State.sesSend_foot ..) ?_
    | with_reducible apply Foot.next ?_ (State.modSess_foot ..) ?_
    | with_reducible apply Foot.ite ?_ ?_
    )

theorem execEventDelivery_foot {n : Fin 16} {s : State} {t : State} (h : execEventDelivery n s = .next t) : Foot [.regs, .ses] s t := by
  unfold execEventDelivery at h
  try dsimp only at h
  with_reducible refine Foot.ofNext h ?_
  repeat' (first
    | with_reducible exact Foot.refl
    | with_reducible assumption
    | (with_reducible apply partsIn_dec; decide)
    | with_reducible apply Foot.next ?_ (State.evDeliver_foot ..) ?_
    | with_reducible apply Foot.next ?_ (State.sendBegin_foot ..) ?_
    )

theorem State.bufDiscard_foot (s : State) (q : Nat) : Foot [.tel] s (State.bufDiscard s q) := by
  unfold State.bufDiscard
  try dsimp only
  repeat' (first
    | with_reducible exact Foot.refl
    | with_reducible assumption
    | (with_reducible apply partsIn_dec; decide)
    | with_reducible apply Foot.next ?_ (State.modTel_foot ..) ?_
    )

theorem State.recSend_foot (s : State) (n q skip : Nat) (b : List Byte) : Foot [.regs, .ses] s (State.recSend s n q skip b) := by
  unfold State.recSend
  try dsimp only
  repeat' (first
    | with_reducible exact Foot.refl
    | with_reducible assumption
    | (with_reducible apply partsIn_dec; decide)
    | with_reducible apply Foot.next ?_ (State.sesSend_foot ..) ?_
    | with_reducible apply Foot.next ?_ (State.modSess_foot ..) ?_
    )

theorem State.recNextBuf_foot (s : State) (n : Nat) (uncorr : Option Nat) (k q skip : Nat) :
    Foot [.regs, .brg, .tel, .ses] s (State.recNextBuf s n uncorr k q skip) := by
  induction k generalizing s uncorr q skip with
  | zero => exact Foot.next Foot.refl (State.modSess_foot ..) (by decide)
  | succ k ih =>
    unfold State.recNextBuf
    dsimp only
    split
    · exact Foot.next Foot.refl (State.modSess_foot ..) (by decide)
    · split
      · exact ih ..
      · split
        · exact (Foot.next (Foot.next Foot.refl (State.lpUncorr_foot ..) (by decide)) (State.bufDiscard_foot ..) (by decide)).trans (ih ..)
        · split
          · exact Foot.next Foot.refl (State.recSend_foot ..) (by decide)
          · exact (Foot.next (Foot.next Foot.refl (State.logTop_foot ..) (by decide)) (State.bufDiscard_foot ..) (by decide)).trans (ih ..)

theorem State.recDeliver_foot (s : State) (n : Nat) (uncorr : Option Nat) : Foot [.regs, .brg, .tel, .ses] s (State.recDeliver s n uncorr) := by
  unfold State.recDeliver
  try dsimp only
  repeat' (first
    | with_reducible exact Foot.refl
    | with_reducible assumption
    | (with_reducible apply partsIn_dec; decide)
    | with_reducible apply Foot.next ?_ (State.recNextBuf_foot ..) ?_
    | with_reducible apply Foot.ite ?_ ?_
    )

theorem execRecBufDelivery_foot {n : Fin 16} {uncorr : Option (Fin 4096)} {s : State} {t : State} (h : execRecBufDelivery n uncorr s = .next t) : Foot [.regs, .brg, .tel, .ses] s t := by
  unfold execRecBufDelivery at h
  try dsimp only at h
  with_reducible refine Foot.ofNext h ?_
  repeat' (first
    | with_reducible exact Foot.refl
    | with_reducible assumption
    | (with_reducible apply partsIn_dec; decide)
    | with_reducible apply Foot.next ?_ (State.recDeliver_foot ..) ?_
    | with_reducible apply Foot.next ?_ (State.sendBegin_foot ..) ?_
    )

end Sys2Proof.Machine
end

