-- ==== Sys2Proof/Laws/FootSillageCmd.lean ====
section
/-! SUPPORT. Footprints of the functions of Machine/SillageCmd.lean. -/

namespace Sys2Proof.Machine

theorem State.modSil_foot (s : State) (f : SilSt → SilSt) : Foot [.sil] s (State.modSil s f) := by
  unfold State.modSil
  try dsimp only
  repeat' (first
    | with_reducible exact Foot.refl
    | with_reducible assumption
    | (with_reducible apply partsIn_dec; decide)
    | with_reducible apply Foot.next ?_ Foot.sil_upd ?_
    )

theorem State.portSubmit_foot (s : State) (port w11 : Nat) : Foot [.sil] s (State.portSubmit s port w11) := by
  unfold State.portSubmit
  try dsimp only
  repeat' (first
    | with_reducible exact Foot.refl
    | with_reducible assumption
    | (with_reducible apply partsIn_dec; decide)
    | with_reducible apply Foot.next ?_ (State.modSil_foot ..) ?_
    | with_reducible apply Foot.next ?_ (State.admitEvent_foot ..) ?_
    )

theorem State.silRecov_foot (s : State) (on : Bool) : Foot [.sil] s (State.silRecov s on) := by
  unfold State.silRecov
  try dsimp only
  repeat' (first
    | with_reducible exact Foot.refl
    | with_reducible assumption
    | (with_reducible apply partsIn_dec; decide)
    | with_reducible apply Foot.next ?_ (State.silMode_foot ..) ?_
    )

theorem State.silService_foot (s : State) : Foot [.sil] s (State.silService s) := by
  unfold State.silService
  try dsimp only
  repeat' (first
    | with_reducible exact Foot.refl
    | with_reducible assumption
    | (with_reducible apply partsIn_dec; decide)
    | with_reducible apply Foot.next ?_ (State.silMode_foot ..) ?_
    )

theorem State.unfreeze_foot (s : State) : Foot [.sil] s (State.unfreeze s) := by
  unfold State.unfreeze
  try dsimp only
  repeat' (first
    | with_reducible exact Foot.refl
    | with_reducible assumption
    | (with_reducible apply partsIn_dec; decide)
    | with_reducible apply Foot.next ?_ (State.modSil_foot ..) ?_
    )

theorem execSilPortSubmit_foot {ini : Initiator} {port : Fin 6} {word : Word} {s : State} {t : State} (h : execSilPortSubmit ini port word s = .next t) : Foot [.regs, .sil, .bus] s t := by
  unfold execSilPortSubmit at h
  try dsimp only at h
  with_reducible refine Foot.ofNext h ?_
  repeat' (first
    | with_reducible exact Foot.refl
    | with_reducible assumption
    | (with_reducible apply partsIn_dec; decide)
    | with_reducible apply Foot.next ?_ (State.portSubmit_foot ..) ?_
    | with_reducible apply Foot.trans ?_ (State.command_foot _ _ _ _ ?_ ?_)
    )

theorem execSillageRecordWrite_foot {s : State} {t : State} (h : execSillageRecordWrite s = .next t) : Foot [.sil] s t := by
  unfold execSillageRecordWrite at h
  try dsimp only at h
  with_reducible refine Foot.ofNext h ?_
  repeat' (first
    | with_reducible exact Foot.refl
    | with_reducible assumption
    | (with_reducible apply partsIn_dec; decide)
    | with_reducible apply Foot.next ?_ (State.modSil_foot ..) ?_
    )

theorem execRlimSecond_foot {s : State} {t : State} (h : execRlimSecond s = .next t) : Foot [.sil] s t := by
  unfold execRlimSecond at h
  try dsimp only at h
  with_reducible refine Foot.ofNext h ?_
  repeat' (first
    | with_reducible exact Foot.refl
    | with_reducible assumption
    | (with_reducible apply partsIn_dec; decide)
    | with_reducible apply Foot.next ?_ (State.modSil_foot ..) ?_
    )

theorem execSilTokenRefill_foot {code : Fin 65536} {s : State} {t : State} (h : execSilTokenRefill code s = .next t) : Foot [.sil] s t := by
  unfold execSilTokenRefill at h
  try dsimp only at h
  with_reducible refine Foot.ofNext h ?_
  repeat' (first
    | with_reducible exact Foot.refl
    | with_reducible assumption
    | (with_reducible apply partsIn_dec; decide)
    | with_reducible apply Foot.next ?_ (State.modSil_foot ..) ?_
    )

theorem execCorrelationWindowClose_foot {g : Fin 32} {s : State} {t : State} (h : execCorrelationWindowClose g s = .next t) : Foot [.sil] s t := by
  unfold execCorrelationWindowClose at h
  try dsimp only at h
  with_reducible refine Foot.ofNext h ?_
  repeat' (first
    | with_reducible exact Foot.refl
    | with_reducible assumption
    | (with_reducible apply partsIn_dec; decide)
    | with_reducible apply Foot.next ?_ (State.modSil_foot ..) ?_
    )

theorem execFreeze_foot {ini : Initiator} {s : State} {t : State} (h : execFreeze ini s = .next t) : Foot [.regs, .sil, .bus] s t := by
  unfold execFreeze at h
  try dsimp only at h
  with_reducible refine Foot.ofNext h ?_
  repeat' (first
    | with_reducible exact Foot.refl
    | with_reducible assumption
    | (with_reducible apply partsIn_dec; decide)
    | with_reducible apply Foot.next ?_ (State.modSil_foot ..) ?_
    | with_reducible apply Foot.trans ?_ (State.command_foot _ _ _ _ ?_ ?_)
    )

theorem execUnfreeze_foot {ini : Initiator} {s : State} {t : State} (h : execUnfreeze ini s = .next t) : Foot [.regs, .sil, .bus] s t := by
  unfold execUnfreeze at h
  try dsimp only at h
  with_reducible refine Foot.ofNext h ?_
  repeat' (first
    | with_reducible exact Foot.refl
    | with_reducible assumption
    | (with_reducible apply partsIn_dec; decide)
    | with_reducible apply Foot.next ?_ (State.unfreeze_foot ..) ?_
    | with_reducible apply Foot.trans ?_ (State.command_foot _ _ _ _ ?_ ?_)
    )

theorem execFreezeMaxExpiry_foot {s : State} {t : State} (h : execFreezeMaxExpiry s = .next t) : Foot [.sil] s t := by
  unfold execFreezeMaxExpiry at h
  try dsimp only at h
  with_reducible refine Foot.ofNext h ?_
  repeat' (first
    | with_reducible exact Foot.refl
    | with_reducible assumption
    | (with_reducible apply partsIn_dec; decide)
    | with_reducible apply Foot.next ?_ (State.unfreeze_foot ..) ?_
    )

theorem execService_foot {ini : Initiator} {s : State} {t : State} (h : execService ini s = .next t) : Foot [.regs, .sil, .bus] s t := by
  unfold execService at h
  try dsimp only at h
  with_reducible refine Foot.ofNext h ?_
  repeat' (first
    | with_reducible exact Foot.refl
    | with_reducible assumption
    | (with_reducible apply partsIn_dec; decide)
    | with_reducible apply Foot.next ?_ (State.silService_foot ..) ?_
    | with_reducible apply Foot.trans ?_ (State.command_foot _ _ _ _ ?_ ?_)
    )

theorem execRecov_foot {ini : Initiator} {on : Bool} {s : State} {t : State} (h : execRecov ini on s = .next t) : Foot [.regs, .sil, .bus] s t := by
  unfold execRecov at h
  try dsimp only at h
  with_reducible refine Foot.ofNext h ?_
  repeat' (first
    | with_reducible exact Foot.refl
    | with_reducible assumption
    | (with_reducible apply partsIn_dec; decide)
    | with_reducible apply Foot.next ?_ (State.silRecov_foot ..) ?_
    | with_reducible apply Foot.trans ?_ (State.command_foot _ _ _ _ ?_ ?_)
    )

theorem execSilCntClr_foot {ini : Initiator} {s : State} {t : State} (h : execSilCntClr ini s = .next t) : Foot [.regs, .sil, .bus] s t := by
  unfold execSilCntClr at h
  try dsimp only at h
  with_reducible refine Foot.ofNext h ?_
  repeat' (first
    | with_reducible exact Foot.refl
    | with_reducible assumption
    | (with_reducible apply partsIn_dec; decide)
    | with_reducible apply Foot.next ?_ (State.modSil_foot ..) ?_
    | with_reducible apply Foot.trans ?_ (State.command_foot _ _ _ _ ?_ ?_)
    )

end Sys2Proof.Machine
end

