-- ==== Sys2Proof/Laws/FootBus.lean ====
section
/-! SUPPORT. Footprints of the functions of Machine/Bus.lean. -/

namespace Sys2Proof.Machine

theorem State.atomic_foot (s : State) (q : BusReq) (op : Amo) : Foot [.bus, .mem] s (State.atomic s q op) := by
  unfold State.atomic
  try dsimp only
  repeat' (first
    | with_reducible exact Foot.refl
    | with_reducible assumption
    | (with_reducible apply partsIn_dec; decide)
    | with_reducible apply Foot.ite ?_ ?_
    | with_reducible apply Foot.next ?_ Foot.memStoreBus ?_
    | with_reducible apply Foot.next ?_ Foot.bus_mem_upd ?_
    | with_reducible apply Foot.next ?_ Foot.bus_upd ?_
    | with_reducible apply Foot.next ?_ Foot.memStore ?_
    | with_reducible apply Foot.next ?_ Foot.memForget ?_
    )

theorem State.lpFound_foot (s : State) (a : Nat) : Foot [.regs, .brg, .tel, .sec] s (State.lpFound s a) := by
  unfold State.lpFound
  try dsimp only
  repeat' (first
    | with_reducible exact Foot.refl
    | with_reducible assumption
    | (with_reducible apply partsIn_dec; decide)
    | with_reducible apply Foot.next ?_ (State.bufDiscard_foot ..) ?_
    | with_reducible apply Foot.next ?_ (State.stgDiscard_foot ..) ?_
    | with_reducible apply Foot.next ?_ (State.lpUncorr_foot ..) ?_
    | with_reducible apply Foot.ite ?_ ?_
    | split
    )

theorem State.readCheck_foot (s : State) (r : Region) (a corr : Nat) (uncorr : Bool) : Foot [.regs, .brg, .tel, .fw, .sec] s (State.readCheck s r a corr uncorr) := by
  unfold State.readCheck
  try dsimp only
  repeat' (first
    | with_reducible exact Foot.refl
    | with_reducible assumption
    | (with_reducible apply partsIn_dec; decide)
    | with_reducible apply Foot.next ?_ (State.lpFound_foot ..) ?_
    | with_reducible apply Foot.next ?_ (State.mapEcc_foot ..) ?_
    | with_reducible apply Foot.next ?_ (State.infEcc_foot ..) ?_
    | with_reducible apply Foot.next ?_ (State.bump_foot ..) ?_
    | with_reducible apply Foot.ite ?_ ?_
    | split
    )

theorem State.memReadBus_foot (s : State) (r : Region) (a size corr : Nat) (uncorr : Bool) : Foot [.regs, .brg, .tel, .fw, .sec, .bus, .fresh] s (State.memReadBus s r a size corr uncorr) := by
  unfold State.memReadBus
  try dsimp only
  repeat' (first
    | with_reducible exact Foot.refl
    | with_reducible assumption
    | (with_reducible apply partsIn_dec; decide)
    | with_reducible apply Foot.next ?_ (State.readCheck_foot ..) ?_
    | with_reducible apply Foot.next ?_ (State.draw_foot ..) ?_
    | with_reducible apply Foot.ite ?_ ?_
    | with_reducible apply Foot.next ?_ Foot.bus_upd ?_
    )

theorem State.wprot_foot (s : State) (ini : Initiator) (a : Nat) : Foot [.regs, .brg, .fw, .bus] s (State.wprot s ini a) := by
  unfold State.wprot
  try dsimp only
  repeat' (first
    | with_reducible exact Foot.refl
    | with_reducible assumption
    | (with_reducible apply partsIn_dec; decide)
    | with_reducible apply Foot.next ?_ (State.wprotNote_foot ..) ?_
    | with_reducible apply Foot.next ?_ Foot.bus_upd ?_
    )

theorem State.memWriteBus_foot (s : State) (ini : Initiator) (r : Region) (a size data : Nat) : Foot [.regs, .brg, .fw, .bus, .mem] s (State.memWriteBus s ini r a size data) := by
  unfold State.memWriteBus
  try dsimp only
  repeat' (first
    | with_reducible exact Foot.refl
    | with_reducible assumption
    | (with_reducible apply partsIn_dec; decide)
    | with_reducible apply Foot.next ?_ (State.wprot_foot ..) ?_
    | with_reducible apply Foot.ite ?_ ?_
    | with_reducible apply Foot.next ?_ Foot.memStoreBus ?_
    | with_reducible apply Foot.next ?_ Foot.bus_mem_upd ?_
    | with_reducible apply Foot.next ?_ Foot.bus_upd ?_
    | with_reducible apply Foot.next ?_ Foot.memStore ?_
    | with_reducible apply Foot.next ?_ Foot.memForget ?_
    )

theorem State.memAccess_foot (s : State) (ini : Initiator) (r : Region) (q : BusReq) : Foot [.regs, .brg, .tel, .fw, .sec, .bus, .mem, .fresh] s (State.memAccess s ini r q) := by
  unfold State.memAccess
  try dsimp only
  repeat' (first
    | with_reducible exact Foot.refl
    | with_reducible assumption
    | (with_reducible apply partsIn_dec; decide)
    | with_reducible apply Foot.next ?_ (State.memWriteBus_foot ..) ?_
    | with_reducible apply Foot.next ?_ (State.memReadBus_foot ..) ?_
    | with_reducible apply Foot.ite ?_ ?_
    )

theorem State.gateAccess_foot (s : State) (ini : Initiator) (r : Region) (q : BusReq) (back : Beats) : Foot [.regs, .clk, .brg, .tel, .fw, .sec, .bus, .mem, .fresh] s (State.gateAccess s ini r q back) := by
  unfold State.gateAccess
  try dsimp only
  repeat' (first
    | with_reducible exact Foot.refl
    | with_reducible assumption
    | (with_reducible apply partsIn_dec; decide)
    | with_reducible apply Foot.next ?_ (State.memAccess_foot ..) ?_
    | with_reducible apply Foot.next ?_ (State.modClk_foot ..) ?_
    | with_reducible apply Foot.ite ?_ ?_
    | split
    | with_reducible apply Foot.next ?_ Foot.bus_upd ?_
    )

theorem State.regRead_foot (s : State) (a : Nat) : Foot [.regs, .tw, .acd, .fw, .bus, .fresh] s (State.regRead s a) := by
  unfold State.regRead
  try dsimp only
  repeat' (first
    | with_reducible exact Foot.refl
    | with_reducible assumption
    | (with_reducible apply partsIn_dec; decide)
    | with_reducible apply Foot.next ?_ (State.alertPop_foot ..) ?_
    | with_reducible apply Foot.next ?_ (State.plicRead_foot ..) ?_
    | with_reducible apply Foot.next ?_ (State.modAcd_foot ..) ?_
    | with_reducible apply Foot.next ?_ (State.draw_foot ..) ?_
    | with_reducible apply Foot.next ?_ (State.setAll_foot ..) ?_
    | with_reducible apply Foot.ite ?_ ?_
    | split
    | with_reducible apply Foot.next ?_ Foot.bus_upd ?_
    )

theorem State.dirWrite_foot (s : State) (a w : Nat) : Foot [.regs] s (State.dirWrite s a w) := by
  unfold State.dirWrite
  try dsimp only
  repeat' (first
    | with_reducible exact Foot.refl
    | with_reducible assumption
    | (with_reducible apply partsIn_dec; decide)
    | with_reducible apply Foot.next ?_ (State.setAll_foot ..) ?_
    | with_reducible apply Foot.ite ?_ ?_
    | split
    )

theorem State.fieldRefused_foot (s : State) (ini : Initiator) (code : Nat) (f : Fld) (held new : Nat) : Foot [.sil, .brg] s (State.fieldRefused s ini code f held new) := by
  unfold State.fieldRefused
  try dsimp only
  repeat' (first
    | with_reducible exact Foot.refl
    | with_reducible assumption
    | (with_reducible apply partsIn_dec; decide)
    | with_reducible apply Foot.next ?_ (State.logTop_foot ..) ?_
    | with_reducible apply Foot.next ?_ (State.log_foot ..) ?_
    | with_reducible apply Foot.ite ?_ ?_
    )

theorem State.fieldWrite_foot (ini : Initiator) (w : Nat) (s : State) (f : Fld) : Foot [.regs, .sil, .brg] s (State.fieldWrite ini w s f) := by
  unfold State.fieldWrite
  try dsimp only
  repeat' (first
    | with_reducible exact Foot.refl
    | with_reducible assumption
    | (with_reducible apply partsIn_dec; decide)
    | with_reducible apply Foot.next ?_ (State.fieldRefused_foot ..) ?_
    | with_reducible apply Foot.next ?_ (State.set_foot ..) ?_
    | with_reducible apply Foot.ite ?_ ?_
    | split
    )

theorem State.rxTaken_foot (s : State) (old : Nat) : Foot [.ses] s (State.rxTaken s old) := by
  unfold State.rxTaken
  try dsimp only
  repeat' (first
    | with_reducible exact Foot.refl
    | with_reducible assumption
    | (with_reducible apply partsIn_dec; decide)
    | with_reducible apply Foot.next ?_ (State.modSes_foot ..) ?_
    )

theorem State.via_foot {ps : List Part} (s : State) (x : State → Host.Outcome State Fault Refusal)
    (hx : ∀ t, x s = .next t → Foot ps s t) : Foot ps s (State.via s x) := by
  unfold State.via
  split
  · exact hx _ (by assumption)
  · exact Foot.refl

theorem State.viaIf_foot {ps : List Part} (s : State) (c : Bool) (x : State → Host.Outcome State Fault Refusal)
    (hx : ∀ t, x s = .next t → Foot ps s t) : Foot ps s (State.viaIf s c x) := by
  unfold State.viaIf
  split
  · exact State.via_foot s x hx
  · exact Foot.refl

theorem State.unitBrg_foot (s : State) (ini : Initiator) (a w : Nat) : Foot [.regs, .time, .clk, .sil, .pwr, .brg, .tw, .seq, .tamp, .tel, .inf, .acd, .fw, .ses, .sec, .bus, .mem] s (State.unitBrg s ini a w) := by
  unfold State.unitBrg
  try dsimp only
  repeat' (first
    | with_reducible exact Foot.refl
    | with_reducible assumption
    | (with_reducible apply partsIn_dec; decide)
    | with_reducible apply Foot.trans ?_ (State.viaIf_foot _ _ _ (fun _ hx => ?_))
    | with_reducible apply Foot.next ?_ (State.fence_foot ..) ?_
    | with_reducible apply Foot.next ?_ (State.retrain_foot ..) ?_
    | with_reducible apply Foot.ite ?_ ?_
    | with_reducible exact Foot.mono (by decide) (execSnap_foot hx)
    | with_reducible exact Foot.mono (by decide) (execBrgCntClr_foot hx)
    )

theorem State.drawMany_foot (s : State) (n : Nat) : Foot [.fresh] s (State.drawMany s n) := by
  unfold State.drawMany
  try dsimp only
  repeat' (first
    | with_reducible exact Foot.refl
    | with_reducible assumption
    | (with_reducible apply partsIn_dec; decide)
    | with_reducible apply Foot.next ?_ Foot.fresh_upd ?_
    )

theorem State.unitClk_foot (s : State) (ini : Initiator) (a w : Nat) : Foot [.regs, .time, .clk, .sil, .nvm, .pwr, .brg, .tw, .seq, .tamp, .cool, .tel, .inf, .acd, .key, .fw, .ses, .sec, .bus, .mem, .fresh] s (State.unitClk s ini a w) := by
  unfold State.unitClk
  try dsimp only
  repeat' (first
    | with_reducible exact Foot.refl
    | with_reducible assumption
    | (with_reducible apply partsIn_dec; decide)
    | with_reducible apply Foot.next ?_ (State.fmcWrite_foot ..) ?_
    | with_reducible apply Foot.next ?_ (State.drawMany_foot ..) ?_
    | with_reducible apply Foot.next ?_ (State.clkRestore_foot ..) ?_
    | with_reducible apply Foot.next ?_ (State.coreRestarts_foot ..) ?_
    | with_reducible apply Foot.next ?_ (State.failRunClear_foot ..) ?_
    | with_reducible apply Foot.next ?_ (State.pwrRequest_foot ..) ?_
    | with_reducible apply Foot.next ?_ (State.gateWrite_foot ..) ?_
    | with_reducible apply Foot.next ?_ (State.clkForce_foot ..) ?_
    | with_reducible apply Foot.next ?_ (State.topMerged_foot ..) ?_
    | with_reducible apply Foot.next ?_ (State.warmRequest_foot ..) ?_
    | with_reducible apply Foot.next ?_ (State.topRequest_foot ..) ?_
    | with_reducible apply Foot.next ?_ (State.modFw_foot ..) ?_
    | with_reducible apply Foot.ite ?_ ?_
    )

theorem State.unitCool_foot (s : State) (ini : Initiator) (a w : Nat) : Foot [.regs, .sil, .tw, .cool, .bus] s (State.unitCool s ini a w) := by
  unfold State.unitCool
  try dsimp only
  repeat' (first
    | with_reducible exact Foot.refl
    | with_reducible assumption
    | (with_reducible apply partsIn_dec; decide)
    | with_reducible apply Foot.trans ?_ (State.viaIf_foot _ _ _ (fun _ hx => ?_))
    | with_reducible apply Foot.next ?_ (State.leakStsWrite_foot ..) ?_
    | with_reducible apply Foot.next ?_ (State.stallClear_foot ..) ?_
    | with_reducible apply Foot.next ?_ (State.valveCommand_foot ..) ?_
    | with_reducible apply Foot.ite ?_ ?_
    | split
    | with_reducible exact Foot.mono (by decide) (execCoolStart_foot hx)
    )

theorem State.unitFw_foot (s : State) (ini : Initiator) (a w : Nat) : Foot [.regs, .sil, .pwr, .brg, .fw, .bus, .mem, .fresh] s (State.unitFw s ini a w) := by
  unfold State.unitFw
  try dsimp only
  repeat' (first
    | with_reducible exact Foot.refl
    | with_reducible assumption
    | (with_reducible apply partsIn_dec; decide)
    | with_reducible apply Foot.next ?_ (State.drawMany_foot ..) ?_
    | with_reducible apply Foot.trans ?_ (State.viaIf_foot _ _ _ (fun _ hx => ?_))
    | with_reducible apply Foot.trans ?_ (State.via_foot _ _ (fun _ hx => ?_))
    | with_reducible apply Foot.next ?_ (State.panic_foot ..) ?_
    | with_reducible apply Foot.next ?_ (State.keeperEntry_foot ..) ?_
    | with_reducible apply Foot.next ?_ (State.logEntry_foot ..) ?_
    | with_reducible apply Foot.next ?_ (State.portPut_foot ..) ?_
    | with_reducible apply Foot.ite ?_ ?_
    | split
    | with_reducible exact Foot.mono (by decide) (execTextLock_foot hx)
    | with_reducible exact Foot.mono (by decide) (execK1Run_foot hx)
    | with_reducible exact Foot.mono (by decide) (execKprWdtKick_foot hx)
    | with_reducible exact Foot.mono (by decide) (execFwTopwdtKick_foot hx)
    | with_reducible exact Foot.mono (by decide) (execFwWdtKick_foot hx)
    )

theorem State.unitInf_foot (s : State) (ini : Initiator) (a w : Nat) : Foot [.regs, .clk, .sil, .brg, .inf, .fw, .bus, .mem] s (State.unitInf s ini a w) := by
  unfold State.unitInf
  try dsimp only
  repeat' (first
    | with_reducible exact Foot.refl
    | with_reducible assumption
    | (with_reducible apply partsIn_dec; decide)
    | with_reducible apply Foot.trans ?_ (State.viaIf_foot _ _ _ (fun _ hx => ?_))
    | with_reducible apply Foot.next ?_ (State.slotCtlWrite_foot ..) ?_
    | with_reducible apply Foot.ite ?_ ?_
    | split
    | with_reducible exact Foot.mono (by decide) (execInfCntClr_foot hx)
    | with_reducible exact Foot.mono (by decide) (execStopAll_foot hx)
    | with_reducible exact Foot.mono (by decide) (execAdaptRst_foot hx)
    )

theorem State.unitKey_foot (s : State) (a w : Nat) : Foot [.regs, .sil, .otp, .key, .fresh] s (State.unitKey s a w) := by
  unfold State.unitKey
  try dsimp only
  repeat' (first
    | with_reducible exact Foot.refl
    | with_reducible assumption
    | (with_reducible apply partsIn_dec; decide)
    | with_reducible apply Foot.next ?_ (State.keyReq_foot ..) ?_
    | with_reducible apply Foot.next ?_ (State.draw_foot ..) ?_
    | with_reducible apply Foot.next ?_ (State.presClose_foot ..) ?_
    | with_reducible apply Foot.next ?_ (State.set_foot ..) ?_
    | with_reducible apply Foot.ite ?_ ?_
    )

theorem State.unitNet_foot (s : State) (ini : Initiator) (a w : Nat) : Foot [.regs, .sil, .brg, .inf, .acd, .ses, .bus] s (State.unitNet s ini a w) := by
  unfold State.unitNet
  try dsimp only
  repeat' (first
    | with_reducible exact Foot.refl
    | with_reducible assumption
    | (with_reducible apply partsIn_dec; decide)
    | with_reducible apply Foot.trans ?_ (State.viaIf_foot _ _ _ (fun _ hx => ?_))
    | with_reducible apply Foot.next ?_ (State.txSubmit_foot ..) ?_
    | with_reducible apply Foot.ite ?_ ?_
    | split
    | with_reducible exact Foot.mono (by decide) (execNetStart_foot hx)
    | with_reducible exact Foot.mono (by decide) (execNetRetrain_foot hx)
    | with_reducible exact Foot.mono (by decide) (execNetCntClr_foot hx)
    | with_reducible exact Foot.mono (by decide) (execHntCntClr_foot hx)
    | with_reducible exact Foot.mono (by decide) (execHintFlush_foot hx)
    | with_reducible exact Foot.mono (by decide) (execSesCntClr_foot hx)
    | with_reducible exact Foot.mono (by decide) (execCloseAll_foot hx)
    )

theorem State.unitSeq_foot (s : State) (ini : Initiator) (a w : Nat) : Foot [.regs, .sil, .nvm, .tw, .seq, .tamp, .cool, .bus] s (State.unitSeq s ini a w) := by
  unfold State.unitSeq
  try dsimp only
  repeat' (first
    | with_reducible exact Foot.refl
    | with_reducible assumption
    | (with_reducible apply partsIn_dec; decide)
    | with_reducible apply Foot.trans ?_ (State.viaIf_foot _ _ _ (fun _ hx => ?_))
    | with_reducible apply Foot.next ?_ (State.seqCommand_foot ..) ?_
    | with_reducible apply Foot.next ?_ (State.marginRequest_foot ..) ?_
    | with_reducible apply Foot.next ?_ (State.testEnter_foot ..) ?_
    | with_reducible apply Foot.next ?_ (State.testEnd_foot ..) ?_
    | with_reducible apply Foot.ite ?_ ?_
    | with_reducible exact Foot.mono (by decide) (execFfrClr_foot hx)
    )

theorem State.unitSil_foot (s : State) (a w : Nat) : Foot [.regs, .sil, .nvm] s (State.unitSil s a w) := by
  unfold State.unitSil
  try dsimp only
  repeat' (first
    | with_reducible exact Foot.refl
    | with_reducible assumption
    | (with_reducible apply partsIn_dec; decide)
    | with_reducible apply Foot.next ?_ (State.unfreeze_foot ..) ?_
    | with_reducible apply Foot.next ?_ (State.silService_foot ..) ?_
    | with_reducible apply Foot.next ?_ (State.silRecov_foot ..) ?_
    | with_reducible apply Foot.next ?_ (State.portSubmit_foot ..) ?_
    | with_reducible apply Foot.next ?_ (State.modSil_foot ..) ?_
    | with_reducible apply Foot.next ?_ (State.silNvmClear_foot ..) ?_
    | with_reducible apply Foot.ite ?_ ?_
    )

theorem State.unitTamp_foot (s : State) (ini : Initiator) (a w : Nat) : Foot [.regs, .time, .clk, .sil, .pwr, .brg, .tw, .seq, .tamp, .cool, .tel, .inf, .acd, .fw, .ses, .sec, .bus, .mem] s (State.unitTamp s ini a w) := by
  unfold State.unitTamp
  try dsimp only
  repeat' (first
    | with_reducible exact Foot.refl
    | with_reducible assumption
    | (with_reducible apply partsIn_dec; decide)
    | with_reducible apply Foot.trans ?_ (State.viaIf_foot _ _ _ (fun _ hx => ?_))
    | with_reducible apply Foot.next ?_ (State.tampClear_foot ..) ?_
    | with_reducible apply Foot.ite ?_ ?_
    | with_reducible exact Foot.mono (by decide) (execCritClr_foot hx)
    | with_reducible exact Foot.mono (by decide) (execTampCntClr_foot hx)
    )

theorem State.unitTel_foot (s : State) (ini : Initiator) (a w : Nat) : Foot [.regs, .clk, .sil, .nvm, .brg, .tw, .tel, .fw, .sec, .flash, .bus, .mem] s (State.unitTel s ini a w) := by
  unfold State.unitTel
  try dsimp only
  repeat' (first
    | with_reducible exact Foot.refl
    | with_reducible assumption
    | (with_reducible apply partsIn_dec; decide)
    | with_reducible apply Foot.trans ?_ (State.viaIf_foot _ _ _ (fun _ hx => ?_))
    | with_reducible apply Foot.next ?_ (State.recCtl_foot ..) ?_
    | with_reducible apply Foot.next ?_ (State.recRun_foot ..) ?_
    | with_reducible apply Foot.ite ?_ ?_
    | split
    | with_reducible exact Foot.mono (by decide) (execMapDone_foot hx)
    | with_reducible exact Foot.mono (by decide) (execTlCntClr_foot hx)
    | with_reducible exact Foot.mono (by decide) (execTlRetrain_foot hx)
    | with_reducible exact Foot.mono (by decide) (execTfabCntClr_foot hx)
    | with_reducible exact Foot.mono (by decide) (execAbandonStaged_foot hx)
    )

theorem State.unitTw_foot (s : State) (ini : Initiator) (a w : Nat) : Foot [.regs, .sil, .tw, .bus] s (State.unitTw s ini a w) := by
  unfold State.unitTw
  try dsimp only
  repeat' (first
    | with_reducible exact Foot.refl
    | with_reducible assumption
    | (with_reducible apply partsIn_dec; decide)
    | with_reducible apply Foot.next ?_ (State.channelGo_foot ..) ?_
    | with_reducible apply Foot.trans ?_ (State.viaIf_foot _ _ _ (fun _ hx => ?_))
    | with_reducible apply Foot.ite ?_ ?_
    | with_reducible exact Foot.mono (by decide) (execTxValid_foot hx)
    | with_reducible exact Foot.mono (by decide) (execRxAck_foot hx)
    )

theorem State.unitWrite_foot (s : State) (ini : Initiator) (a w : Nat) : Foot [.regs, .time, .clk, .sil, .nvm, .pwr, .brg, .tw, .seq, .tamp, .cool, .tel, .inf, .otp, .acd, .key, .fw, .ses, .sec, .flash, .bus, .mem, .fresh] s (State.unitWrite s ini a w) := by
  unfold State.unitWrite
  try dsimp only
  repeat' (first
    | with_reducible exact Foot.refl
    | with_reducible assumption
    | (with_reducible apply partsIn_dec; decide)
    | with_reducible apply Foot.next ?_ (State.unitTw_foot ..) ?_
    | with_reducible apply Foot.next ?_ (State.unitTel_foot ..) ?_
    | with_reducible apply Foot.next ?_ (State.unitTamp_foot ..) ?_
    | with_reducible apply Foot.next ?_ (State.unitSil_foot ..) ?_
    | with_reducible apply Foot.next ?_ (State.unitSeq_foot ..) ?_
    | with_reducible apply Foot.next ?_ (State.unitNet_foot ..) ?_
    | with_reducible apply Foot.next ?_ (State.unitKey_foot ..) ?_
    | with_reducible apply Foot.next ?_ (State.unitInf_foot ..) ?_
    | with_reducible apply Foot.next ?_ (State.unitFw_foot ..) ?_
    | with_reducible apply Foot.next ?_ (State.unitCool_foot ..) ?_
    | with_reducible apply Foot.next ?_ (State.unitClk_foot ..) ?_
    | with_reducible apply Foot.next ?_ (State.unitBrg_foot ..) ?_
    | split
    )

theorem State.regWrite_foot (s : State) (ini : Initiator) (a w : Nat) : Foot [.regs, .time, .clk, .sil, .nvm, .pwr, .brg, .tw, .seq, .tamp, .cool, .tel, .inf, .otp, .acd, .key, .fw, .ses, .sec, .flash, .bus, .mem, .fresh] s (State.regWrite s ini a w) := by
  unfold State.regWrite
  try dsimp only
  repeat' (first
    | with_reducible exact Foot.refl
    | with_reducible assumption
    | (with_reducible apply partsIn_dec; decide)
    | with_reducible apply Foot.next ?_ (State.unitWrite_foot ..) ?_
    | with_reducible apply Foot.next ?_ (State.rxTaken_foot ..) ?_
    | with_reducible apply Foot.next ?_ (State.fieldWrite_foot ..) ?_
    | with_reducible apply Foot.next ?_ (State.dirWrite_foot ..) ?_
    | with_reducible apply Foot.next ?_ (State.refFollow_foot ..) ?_
    | with_reducible apply Foot.foldl (fun _ _ _ => ?_) ?_
    | with_reducible apply Foot.ite ?_ ?_
    )

theorem State.perform_foot (s : State) (ini : Initiator) (q : BusReq) (back : Beats) : Foot [.regs, .time, .clk, .sil, .nvm, .pwr, .brg, .tw, .seq, .tamp, .cool, .tel, .inf, .otp, .acd, .key, .fw, .ses, .sec, .flash, .bus, .mem, .fresh] s (State.perform s ini q back) := by
  unfold State.perform
  try dsimp only
  repeat' (first
    | with_reducible exact Foot.refl
    | with_reducible assumption
    | (with_reducible apply partsIn_dec; decide)
    | with_reducible apply Foot.next ?_ (State.regWrite_foot ..) ?_
    | with_reducible apply Foot.next ?_ (State.regRead_foot ..) ?_
    | with_reducible apply Foot.next ?_ (State.gateAccess_foot ..) ?_
    | with_reducible apply Foot.next ?_ (State.atomic_foot ..) ?_
    | with_reducible apply Foot.next ?_ (State.plicWrite_foot ..) ?_
    | with_reducible apply Foot.ite ?_ ?_
    | split
    | with_reducible apply Foot.next ?_ Foot.bus_upd ?_
    )

theorem State.access_foot (s : State) (ini : Initiator) (q : BusReq) (back : Beats) : Foot [.regs, .time, .clk, .sil, .nvm, .pwr, .brg, .tw, .seq, .tamp, .cool, .tel, .inf, .otp, .acd, .key, .fw, .ses, .sec, .flash, .bus, .mem, .fresh] s (State.access s ini q back) := by
  unfold State.access
  try dsimp only
  repeat' (first
    | with_reducible exact Foot.refl
    | with_reducible assumption
    | (with_reducible apply partsIn_dec; decide)
    | with_reducible apply Foot.next ?_ (State.perform_foot ..) ?_
    | with_reducible apply Foot.next ?_ (State.block_foot ..) ?_
    | with_reducible apply Foot.ite ?_ ?_
    | split
    | with_reducible apply Foot.next ?_ Foot.bus_upd ?_
    )

theorem State.backSend_foot (s : State) (ini : Initiator) (q : BusReq) (back : Beats) : Foot [.regs, .time, .clk, .sil, .pwr, .brg, .tw, .seq, .tamp, .tel, .inf, .acd, .fw, .ses, .sec, .bus, .mem] s (State.backSend s ini q back) := by
  unfold State.backSend
  try dsimp only
  repeat' (first
    | with_reducible exact Foot.refl
    | with_reducible assumption
    | (with_reducible apply partsIn_dec; decide)
    | with_reducible apply Foot.trans ?_ (State.message_foot _ _ _ _ _ _ _ _ (fun _ _ => ?_) ?_)
    | with_reducible apply Foot.ite ?_ ?_
    | dsimp only [id_eq]
    | with_reducible apply Foot.next ?_ Foot.bus_upd ?_
    )

theorem State.ctrlBack_foot (s : State) (ini : Initiator) (q : BusReq) (back : Beats) : Foot [.regs, .time, .clk, .sil, .pwr, .brg, .tw, .seq, .tamp, .tel, .inf, .acd, .fw, .ses, .sec, .bus, .mem] s (State.ctrlBack s ini q back) := by
  unfold State.ctrlBack
  try dsimp only
  repeat' (first
    | with_reducible exact Foot.refl
    | with_reducible assumption
    | (with_reducible apply partsIn_dec; decide)
    | with_reducible apply Foot.next ?_ (State.backSend_foot ..) ?_
    | with_reducible apply Foot.next ?_ (State.modBrg_foot ..) ?_
    | with_reducible apply Foot.ite ?_ ?_
    | with_reducible apply Foot.next ?_ Foot.bus_upd ?_
    )

theorem State.ctrlSend_foot (s : State) (ini : Initiator) (q : BusReq) (b back : Beats) : Foot [.regs, .time, .clk, .sil, .nvm, .pwr, .brg, .tw, .seq, .tamp, .cool, .tel, .inf, .otp, .acd, .key, .fw, .ses, .sec, .flash, .bus, .mem, .fresh] s (State.ctrlSend s ini q b back) := by
  unfold State.ctrlSend
  try dsimp only
  repeat' (first
    | with_reducible exact Foot.refl
    | with_reducible assumption
    | (with_reducible apply partsIn_dec; decide)
    | with_reducible apply Foot.next ?_ (State.ctrlBack_foot ..) ?_
    | with_reducible apply Foot.next ?_ (State.access_foot ..) ?_
    | with_reducible apply Foot.trans ?_ (State.message_foot _ _ _ _ _ _ _ _ (fun _ _ => ?_) ?_)
    | with_reducible apply Foot.ite ?_ ?_
    | with_reducible apply Foot.next ?_ Foot.bus_upd ?_
    )

theorem State.ctrlStart_foot (s : State) (ini : Initiator) (q : BusReq) (b back : Beats) : Foot [.regs, .time, .clk, .sil, .nvm, .pwr, .brg, .tw, .seq, .tamp, .cool, .tel, .inf, .otp, .acd, .key, .fw, .ses, .sec, .flash, .bus, .mem, .fresh] s (State.ctrlStart s ini q b back) := by
  unfold State.ctrlStart
  try dsimp only
  repeat' (first
    | with_reducible exact Foot.refl
    | with_reducible assumption
    | (with_reducible apply partsIn_dec; decide)
    | with_reducible apply Foot.next ?_ (State.ctrlSend_foot ..) ?_
    | with_reducible apply Foot.next ?_ (State.access_foot ..) ?_
    | with_reducible apply Foot.ite ?_ ?_
    )

theorem execRegisterWrite_foot {ini : Initiator} {addr : Nat} {val : Word} {s : State} {t : State} (h : execRegisterWrite ini addr val s = .next t) : Foot [.regs, .time, .clk, .sil, .nvm, .pwr, .brg, .tw, .seq, .tamp, .cool, .tel, .inf, .otp, .acd, .key, .fw, .ses, .sec, .flash, .bus, .mem, .fresh] s t := by
  unfold execRegisterWrite at h
  try dsimp only at h
  with_reducible refine Foot.ofNext h ?_
  repeat' (first
    | with_reducible exact Foot.refl
    | with_reducible assumption
    | (with_reducible apply partsIn_dec; decide)
    | with_reducible apply Foot.next ?_ (State.access_foot ..) ?_
    | with_reducible apply Foot.next ?_ (State.sendBegin_foot ..) ?_
    )

theorem execForbiddenAccess_foot {ini : Initiator} {req : BusReq} {s : State} {t : State} (h : execForbiddenAccess ini req s = .next t) : Foot [.regs, .sil, .bus] s t := by
  unfold execForbiddenAccess at h
  try dsimp only at h
  with_reducible refine Foot.ofNext h ?_
  repeat' (first
    | with_reducible exact Foot.refl
    | with_reducible assumption
    | (with_reducible apply partsIn_dec; decide)
    | with_reducible apply Foot.next ?_ (State.block_foot ..) ?_
    | with_reducible apply Foot.ite ?_ ?_
    )

theorem State.ctrl_foot (s : State) (ini : Initiator) (q : BusReq) (b back : Beats) : Foot [.regs, .time, .clk, .sil, .nvm, .pwr, .brg, .tw, .seq, .tamp, .cool, .tel, .inf, .otp, .acd, .key, .fw, .ses, .sec, .flash, .bus, .mem, .fresh] s (State.ctrl s ini q b back) := by
  unfold State.ctrl
  try dsimp only
  repeat' (first
    | with_reducible exact Foot.refl
    | with_reducible assumption
    | (with_reducible apply partsIn_dec; decide)
    | with_reducible apply Foot.next ?_ (State.ctrlStart_foot ..) ?_
    | with_reducible apply Foot.next ?_ (State.modBrg_foot ..) ?_
    | with_reducible apply Foot.ite ?_ ?_
    | dsimp only [id_eq]
    | with_reducible apply Foot.next ?_ Foot.bus_upd ?_
    )

theorem execCtrlRequest_foot {ini : Initiator} {req : BusReq} {beats : Beats} {s : State} {back : Beats} {t : State} (h : execCtrlRequest ini req beats s back = .next t) : Foot [.regs, .time, .clk, .sil, .nvm, .pwr, .brg, .tw, .seq, .tamp, .cool, .tel, .inf, .otp, .acd, .key, .fw, .ses, .sec, .flash, .bus, .mem, .fresh] s t := by
  unfold execCtrlRequest at h
  try dsimp only at h
  with_reducible refine Foot.ofNext h ?_
  repeat' (first
    | with_reducible exact Foot.refl
    | with_reducible assumption
    | (with_reducible apply partsIn_dec; decide)
    | with_reducible apply Foot.next ?_ (State.ctrl_foot ..) ?_
    | with_reducible apply Foot.next ?_ (State.sendBegin_foot ..) ?_
    )

theorem State.ctrlForget_foot' {s t : State} {ini : Initiator} {q : BusReq} (h : s.ctrlForget ini q = some t) : Foot [.brg] s t := by
  unfold State.ctrlForget at h
  split at h
  · cases h; exact State.modBrg_foot ..
  · cases h; exact State.modBrg_foot ..
  · cases h

theorem State.ctrlDrop_foot (s : State) (ini : Initiator) (q : BusReq) (applied : Bool) : Foot [.regs, .time, .clk, .sil, .nvm, .pwr, .brg, .tw, .seq, .tamp, .cool, .tel, .inf, .otp, .acd, .key, .fw, .ses, .sec, .flash, .bus, .mem, .fresh] s (State.ctrlDrop s ini q applied) := by
  unfold State.ctrlDrop
  try dsimp only
  repeat' (first
    | with_reducible exact Foot.refl
    | with_reducible assumption
    | (with_reducible apply partsIn_dec; decide)
    | with_reducible apply Foot.next ?_ (State.ctrlForget_foot ..) ?_
    | with_reducible apply Foot.next ?_ (State.access_foot ..) ?_
    | with_reducible apply Foot.ite ?_ ?_
    | split
    | with_reducible refine Foot.next ?_ (State.ctrlForget_foot' (by assumption)) (by decide)
    )

theorem State.ctrlTimeout_foot (s : State) (ini : Initiator) (q : BusReq) (applied : Bool) : Foot [.regs, .time, .clk, .sil, .nvm, .pwr, .brg, .tw, .seq, .tamp, .cool, .tel, .inf, .otp, .acd, .key, .fw, .ses, .sec, .flash, .bus, .mem, .fresh] s (State.ctrlTimeout s ini q applied) := by
  unfold State.ctrlTimeout
  try dsimp only
  repeat' (first
    | with_reducible exact Foot.refl
    | with_reducible assumption
    | (with_reducible apply partsIn_dec; decide)
    | with_reducible apply Foot.next ?_ (State.ctrlDrop_foot ..) ?_
    | with_reducible apply Foot.next ?_ (State.set_foot ..) ?_
    | with_reducible apply Foot.next ?_ (State.log_foot ..) ?_
    | with_reducible apply Foot.ite ?_ ?_
    | with_reducible apply Foot.next ?_ Foot.bus_upd ?_
    )

theorem execCtrlTimeout_foot {ini : Initiator} {req : BusReq} {applied : Bool} {s : State} {t : State} (h : execCtrlTimeout ini req applied s = .next t) : Foot [.regs, .time, .clk, .sil, .nvm, .pwr, .brg, .tw, .seq, .tamp, .cool, .tel, .inf, .otp, .acd, .key, .fw, .ses, .sec, .flash, .bus, .mem, .fresh] s t := by
  unfold execCtrlTimeout at h
  try dsimp only at h
  with_reducible refine Foot.ofNext h ?_
  repeat' (first
    | with_reducible exact Foot.refl
    | with_reducible assumption
    | (with_reducible apply partsIn_dec; decide)
    | with_reducible apply Foot.next ?_ (State.ctrlTimeout_foot ..) ?_
    | with_reducible apply Foot.next ?_ (State.sendBegin_foot ..) ?_
    )

end Sys2Proof.Machine
end

