-- ==== Sys2Proof/Laws/FootIdle.lean ====
section
/-! SUPPORT. Footprints of the functions of Machine/Idle.lean. -/

namespace Sys2Proof.Machine

theorem State.heldGo_foot (s : State) : Foot [.regs, .time, .clk, .sil, .nvm, .pwr, .brg, .tw, .seq, .tamp, .cool, .tel, .inf, .otp, .acd, .key, .fw, .ses, .sec, .flash, .bus, .mem, .fresh] s (State.heldGo s) := by
  unfold State.heldGo
  try dsimp only
  repeat' (first
    | with_reducible exact Foot.refl
    | with_reducible assumption
    | (with_reducible apply partsIn_dec; decide)
    | with_reducible apply Foot.next ?_ (State.ctrlBack_foot ..) ?_
    | with_reducible apply Foot.next ?_ (State.access_foot ..) ?_
    | with_reducible apply Foot.next ?_ (State.modClk_foot ..) ?_
    | with_reducible apply Foot.ite ?_ ?_
    | split
    )

theorem State.backNext_foot (s : State) : Foot [.regs, .time, .clk, .sil, .pwr, .brg, .tw, .seq, .tamp, .tel, .inf, .acd, .fw, .ses, .sec, .bus, .mem] s (State.backNext s) := by
  unfold State.backNext
  try dsimp only
  repeat' (first
    | with_reducible exact Foot.refl
    | with_reducible assumption
    | (with_reducible apply partsIn_dec; decide)
    | with_reducible apply Foot.next ?_ (State.backSend_foot ..) ?_
    | with_reducible apply Foot.next ?_ (State.modBrg_foot ..) ?_
    | split
    | with_reducible apply Foot.next ?_ Foot.bus_upd ?_
    )

theorem State.ctrlNext_foot (s : State) : Foot [.regs, .time, .clk, .sil, .nvm, .pwr, .brg, .tw, .seq, .tamp, .cool, .tel, .inf, .otp, .acd, .key, .fw, .ses, .sec, .flash, .bus, .mem, .fresh] s (State.ctrlNext s) := by
  unfold State.ctrlNext
  try dsimp only
  repeat' (first
    | with_reducible exact Foot.refl
    | with_reducible assumption
    | (with_reducible apply partsIn_dec; decide)
    | with_reducible apply Foot.next ?_ (State.ctrlStart_foot ..) ?_
    | with_reducible apply Foot.next ?_ (State.modBrg_foot ..) ?_
    | split
    )

theorem State.bcCross_foot (s : State) (n : Nat) : Foot [.regs, .brg, .tw, .tel, .fresh] s (State.bcCross s n) := by
  unfold State.bcCross
  try dsimp only
  repeat' (first
    | with_reducible exact Foot.refl
    | with_reducible assumption
    | (with_reducible apply partsIn_dec; decide)
    | with_reducible apply Foot.next ?_ (State.bcBack_foot ..) ?_
    | with_reducible apply Foot.next ?_ (State.bcGo_foot ..) ?_
    | with_reducible apply Foot.next ?_ (State.modLink_foot ..) ?_
    | with_reducible apply Foot.ite ?_ ?_
    | split
    )

theorem State.bcNext_foot (s : State) : Foot [.regs, .brg, .tw, .tel, .fresh] s (State.bcNext s) := by
  unfold State.bcNext
  try dsimp only
  repeat' (first
    | with_reducible exact Foot.refl
    | with_reducible assumption
    | (with_reducible apply partsIn_dec; decide)
    | with_reducible apply Foot.next ?_ (State.bcCross_foot ..) ?_
    | with_reducible apply Foot.foldl (fun _ _ _ => ?_) ?_
    )

theorem State.modCaps_foot (s : State) (f : CapSt → CapSt) : Foot [.fw] s (State.modCaps s f) := by
  unfold State.modCaps
  try dsimp only
  repeat' (first
    | with_reducible exact Foot.refl
    | with_reducible assumption
    | (with_reducible apply partsIn_dec; decide)
    | with_reducible apply Foot.next ?_ (State.modFw_foot ..) ?_
    )

theorem State.capSample_foot (s : State) : Foot [.fw] s (State.capSample s) := by
  unfold State.capSample
  try dsimp only
  repeat' (first
    | with_reducible exact Foot.refl
    | with_reducible assumption
    | (with_reducible apply partsIn_dec; decide)
    | with_reducible apply Foot.next ?_ (State.modCaps_foot ..) ?_
    )

theorem State.capSend_foot (s : State) (a lvl : Nat) : Foot [.regs, .tw, .fw] s (State.capSend s a lvl) := by
  unfold State.capSend
  try dsimp only
  repeat' (first
    | with_reducible exact Foot.refl
    | with_reducible assumption
    | (with_reducible apply partsIn_dec; decide)
    | with_reducible apply Foot.next ?_ (State.channelWrite_foot ..) ?_
    | with_reducible apply Foot.next ?_ (State.modCaps_foot ..) ?_
    | with_reducible apply Foot.next ?_ (State.set_foot ..) ?_
    | with_reducible apply Foot.ite ?_ ?_
    )

theorem State.capAct_foot (s : State) (a : Nat) : Foot [.regs, .tw, .fw] s (State.capAct s a) := by
  unfold State.capAct
  try dsimp only
  repeat' (first
    | with_reducible exact Foot.refl
    | with_reducible assumption
    | (with_reducible apply partsIn_dec; decide)
    | with_reducible apply Foot.next ?_ (State.capSend_foot ..) ?_
    | with_reducible apply Foot.next ?_ (State.modCaps_foot ..) ?_
    | with_reducible apply Foot.ite ?_ ?_
    )

theorem State.capLoop_foot (s : State) : Foot [.regs, .tw, .fw, .mem] s (State.capLoop s) := by
  unfold State.capLoop
  try dsimp only
  repeat' (first
    | with_reducible exact Foot.refl
    | with_reducible assumption
    | (with_reducible apply partsIn_dec; decide)
    | with_reducible apply Foot.next ?_ (State.capAct_foot ..) ?_
    | with_reducible apply Foot.next ?_ (State.modCaps_foot ..) ?_
    | with_reducible apply Foot.next ?_ (State.commit_foot ..) ?_
    | with_reducible apply Foot.foldl (fun _ _ _ => ?_) ?_
    )

theorem State.capTask_foot (s : State) : Foot [.regs, .tw, .fw, .mem] s (State.capTask s) := by
  unfold State.capTask
  try dsimp only
  repeat' (first
    | with_reducible exact Foot.refl
    | with_reducible assumption
    | (with_reducible apply partsIn_dec; decide)
    | with_reducible apply Foot.next ?_ (State.capLoop_foot ..) ?_
    | with_reducible apply Foot.next ?_ (State.capSample_foot ..) ?_
    | with_reducible apply Foot.next ?_ (State.modCaps_foot ..) ?_
    | with_reducible apply Foot.ite ?_ ?_
    )

theorem State.keeperTask_foot (s : State) : Foot [.regs, .time, .clk, .sil, .pwr, .brg, .tw, .seq, .tamp, .tel, .inf, .acd, .fw, .ses, .sec, .bus, .mem] s (State.keeperTask s) := by
  unfold State.keeperTask
  try dsimp only
  repeat' (first
    | with_reducible exact Foot.refl
    | with_reducible assumption
    | (with_reducible apply partsIn_dec; decide)
    | with_reducible apply Foot.next ?_ (State.topRequest_foot ..) ?_
    | with_reducible apply Foot.next ?_ (State.modFw_foot ..) ?_
    | with_reducible apply Foot.ite ?_ ?_
    )

theorem State.idle_foot (s : State) : Foot [.regs, .time, .clk, .sil, .nvm, .pwr, .brg, .tw, .seq, .tamp, .cool, .tel, .inf, .otp, .acd, .key, .fw, .ses, .sec, .flash, .bus, .mem, .fresh] s (State.idle s) := by
  unfold State.idle
  try dsimp only
  repeat' (first
    | with_reducible exact Foot.refl
    | with_reducible assumption
    | (with_reducible apply partsIn_dec; decide)
    | with_reducible apply Foot.next ?_ (State.tickBase_foot ..) ?_
    | with_reducible apply Foot.next ?_ (State.keeperTask_foot ..) ?_
    | with_reducible apply Foot.next ?_ (State.capTask_foot ..) ?_
    | with_reducible apply Foot.next ?_ (State.bcNext_foot ..) ?_
    | with_reducible apply Foot.next ?_ (State.ctrlNext_foot ..) ?_
    | with_reducible apply Foot.next ?_ (State.backNext_foot ..) ?_
    | with_reducible apply Foot.next ?_ (State.heldGo_foot ..) ?_
    | with_reducible apply Foot.next ?_ (State.lockTask_foot ..) ?_
    | with_reducible apply Foot.next ?_ (State.engineNext_foot ..) ?_
    )

end Sys2Proof.Machine
end

