-- ==== Sys2Proof/Laws/State.lean ====
section
/-! SUPPORT. The operations every unit shares, field by field: each changes one part of State and leaves the other parts as they are;
register fields read as they were set. -/

namespace Sys2Proof.Machine

theorem Foot.eq {ps : List Part} {s t : State} (h : Foot ps s t) (p : Part) (hp : ps.contains p = false) : s.agree t p :=
  h.frame p (by simpa using hp)

/-! ### Register fields -/

@[simp] theorem State.get_set_self (s : State) (f : Fld) (v : Nat) : (s.set f v).get f = v % 2 ^ f.w := regGet_regSet s.regs f v

theorem State.get_set_ne {f g : Fld} (h : g.key ≠ f.key) (s : State) (v : Nat) : (s.set f v).get g = s.get g :=
  regGet_regSet_ne h s.regs v

theorem State.get_of_regs {s t : State} (h : t.regs = s.regs) (f : Fld) : t.get f = s.get f := by
  unfold State.get
  rw [h]

theorem State.on_of_regs {s t : State} (h : t.regs = s.regs) (f : Fld) : t.on f = s.on f := by
  unfold State.on State.get
  rw [h]

@[simp] theorem State.setAll_nil (s : State) : s.setAll [] = s := rfl

@[simp] theorem State.setAll_cons (s : State) (e : Fld × Nat) (l : List (Fld × Nat)) : s.setAll (e :: l) = (s.set e.1 e.2).setAll l := rfl

/-- A field that a list of settings does not name reads as before. -/
theorem State.get_setAll_ne {g : Fld} (l : List (Fld × Nat)) (h : ∀ e ∈ l, g.key ≠ e.1.key) (s : State) :
    (s.setAll l).get g = s.get g := by
  induction l generalizing s with
  | nil => rfl
  | cons e t ih =>
    rw [State.setAll_cons, ih (fun x hx => h x (List.mem_cons_of_mem _ hx)), State.get_set_ne (h e (by simp))]

/-! ### What each operation leaves as it is -/

@[simp] theorem State.set_time (s : State) (f : Fld) (v : Nat) : (s.set f v).time = s.time :=
  (State.set_foot ..).eq .time rfl
@[simp] theorem State.set_clk (s : State) (f : Fld) (v : Nat) : (s.set f v).clk = s.clk :=
  (State.set_foot ..).eq .clk rfl
@[simp] theorem State.set_sil (s : State) (f : Fld) (v : Nat) : (s.set f v).sil = s.sil :=
  (State.set_foot ..).eq .sil rfl
@[simp] theorem State.set_nvm (s : State) (f : Fld) (v : Nat) : (s.set f v).nvm = s.nvm :=
  (State.set_foot ..).eq .nvm rfl
@[simp] theorem State.set_pwr (s : State) (f : Fld) (v : Nat) : (s.set f v).pwr = s.pwr :=
  (State.set_foot ..).eq .pwr rfl
@[simp] theorem State.set_brg (s : State) (f : Fld) (v : Nat) : (s.set f v).brg = s.brg :=
  (State.set_foot ..).eq .brg rfl
@[simp] theorem State.set_tw (s : State) (f : Fld) (v : Nat) : (s.set f v).tw = s.tw :=
  (State.set_foot ..).eq .tw rfl
@[simp] theorem State.set_seq (s : State) (f : Fld) (v : Nat) : (s.set f v).seq = s.seq :=
  (State.set_foot ..).eq .seq rfl
@[simp] theorem State.set_tamp (s : State) (f : Fld) (v : Nat) : (s.set f v).tamp = s.tamp :=
  (State.set_foot ..).eq .tamp rfl
@[simp] theorem State.set_cool (s : State) (f : Fld) (v : Nat) : (s.set f v).cool = s.cool :=
  (State.set_foot ..).eq .cool rfl
@[simp] theorem State.set_tel (s : State) (f : Fld) (v : Nat) : (s.set f v).tel = s.tel :=
  (State.set_foot ..).eq .tel rfl
@[simp] theorem State.set_inf (s : State) (f : Fld) (v : Nat) : (s.set f v).inf = s.inf :=
  (State.set_foot ..).eq .inf rfl
@[simp] theorem State.set_otp (s : State) (f : Fld) (v : Nat) : (s.set f v).otp = s.otp :=
  (State.set_foot ..).eq .otp rfl
@[simp] theorem State.set_acd (s : State) (f : Fld) (v : Nat) : (s.set f v).acd = s.acd :=
  (State.set_foot ..).eq .acd rfl
@[simp] theorem State.set_key (s : State) (f : Fld) (v : Nat) : (s.set f v).key = s.key :=
  (State.set_foot ..).eq .key rfl
@[simp] theorem State.set_fw (s : State) (f : Fld) (v : Nat) : (s.set f v).fw = s.fw :=
  (State.set_foot ..).eq .fw rfl
@[simp] theorem State.set_ses (s : State) (f : Fld) (v : Nat) : (s.set f v).ses = s.ses :=
  (State.set_foot ..).eq .ses rfl
@[simp] theorem State.set_sec (s : State) (f : Fld) (v : Nat) : (s.set f v).sec = s.sec :=
  (State.set_foot ..).eq .sec rfl
@[simp] theorem State.set_flash (s : State) (f : Fld) (v : Nat) : (s.set f v).flash = s.flash :=
  (State.set_foot ..).eq .flash rfl
@[simp] theorem State.set_bus (s : State) (f : Fld) (v : Nat) : (s.set f v).bus = s.bus :=
  (State.set_foot ..).eq .bus rfl
@[simp] theorem State.set_mem (s : State) (f : Fld) (v : Nat) : (s.set f v).mem = s.mem :=
  (State.set_foot ..).eq .mem rfl
@[simp] theorem State.set_fresh (s : State) (f : Fld) (v : Nat) : (s.set f v).fresh = s.fresh :=
  (State.set_foot ..).eq .fresh rfl
@[simp] theorem State.set_pending (s : State) (f : Fld) (v : Nat) : (s.set f v).pending = s.pending :=
  (State.set_foot ..).eq .pending rfl

@[simp] theorem State.log_regs (s : State) (c a u i : Nat) (p : List (Nat × Nat × Nat)) : (s.log c a u i p).regs = s.regs :=
  (State.log_foot ..).eq .regs rfl
@[simp] theorem State.log_time (s : State) (c a u i : Nat) (p : List (Nat × Nat × Nat)) : (s.log c a u i p).time = s.time :=
  (State.log_foot ..).eq .time rfl
@[simp] theorem State.log_clk (s : State) (c a u i : Nat) (p : List (Nat × Nat × Nat)) : (s.log c a u i p).clk = s.clk :=
  (State.log_foot ..).eq .clk rfl
@[simp] theorem State.log_nvm (s : State) (c a u i : Nat) (p : List (Nat × Nat × Nat)) : (s.log c a u i p).nvm = s.nvm :=
  (State.log_foot ..).eq .nvm rfl
@[simp] theorem State.log_pwr (s : State) (c a u i : Nat) (p : List (Nat × Nat × Nat)) : (s.log c a u i p).pwr = s.pwr :=
  (State.log_foot ..).eq .pwr rfl
@[simp] theorem State.log_brg (s : State) (c a u i : Nat) (p : List (Nat × Nat × Nat)) : (s.log c a u i p).brg = s.brg :=
  (State.log_foot ..).eq .brg rfl
@[simp] theorem State.log_tw (s : State) (c a u i : Nat) (p : List (Nat × Nat × Nat)) : (s.log c a u i p).tw = s.tw :=
  (State.log_foot ..).eq .tw rfl
@[simp] theorem State.log_seq (s : State) (c a u i : Nat) (p : List (Nat × Nat × Nat)) : (s.log c a u i p).seq = s.seq :=
  (State.log_foot ..).eq .seq rfl
@[simp] theorem State.log_tamp (s : State) (c a u i : Nat) (p : List (Nat × Nat × Nat)) : (s.log c a u i p).tamp = s.tamp :=
  (State.log_foot ..).eq .tamp rfl
@[simp] theorem State.log_cool (s : State) (c a u i : Nat) (p : List (Nat × Nat × Nat)) : (s.log c a u i p).cool = s.cool :=
  (State.log_foot ..).eq .cool rfl
@[simp] theorem State.log_tel (s : State) (c a u i : Nat) (p : List (Nat × Nat × Nat)) : (s.log c a u i p).tel = s.tel :=
  (State.log_foot ..).eq .tel rfl
@[simp] theorem State.log_inf (s : State) (c a u i : Nat) (p : List (Nat × Nat × Nat)) : (s.log c a u i p).inf = s.inf :=
  (State.log_foot ..).eq .inf rfl
@[simp] theorem State.log_otp (s : State) (c a u i : Nat) (p : List (Nat × Nat × Nat)) : (s.log c a u i p).otp = s.otp :=
  (State.log_foot ..).eq .otp rfl
@[simp] theorem State.log_acd (s : State) (c a u i : Nat) (p : List (Nat × Nat × Nat)) : (s.log c a u i p).acd = s.acd :=
  (State.log_foot ..).eq .acd rfl
@[simp] theorem State.log_key (s : State) (c a u i : Nat) (p : List (Nat × Nat × Nat)) : (s.log c a u i p).key = s.key :=
  (State.log_foot ..).eq .key rfl
@[simp] theorem State.log_fw (s : State) (c a u i : Nat) (p : List (Nat × Nat × Nat)) : (s.log c a u i p).fw = s.fw :=
  (State.log_foot ..).eq .fw rfl
@[simp] theorem State.log_ses (s : State) (c a u i : Nat) (p : List (Nat × Nat × Nat)) : (s.log c a u i p).ses = s.ses :=
  (State.log_foot ..).eq .ses rfl
@[simp] theorem State.log_sec (s : State) (c a u i : Nat) (p : List (Nat × Nat × Nat)) : (s.log c a u i p).sec = s.sec :=
  (State.log_foot ..).eq .sec rfl
@[simp] theorem State.log_flash (s : State) (c a u i : Nat) (p : List (Nat × Nat × Nat)) : (s.log c a u i p).flash = s.flash :=
  (State.log_foot ..).eq .flash rfl
@[simp] theorem State.log_bus (s : State) (c a u i : Nat) (p : List (Nat × Nat × Nat)) : (s.log c a u i p).bus = s.bus :=
  (State.log_foot ..).eq .bus rfl
@[simp] theorem State.log_mem (s : State) (c a u i : Nat) (p : List (Nat × Nat × Nat)) : (s.log c a u i p).mem = s.mem :=
  (State.log_foot ..).eq .mem rfl
@[simp] theorem State.log_fresh (s : State) (c a u i : Nat) (p : List (Nat × Nat × Nat)) : (s.log c a u i p).fresh = s.fresh :=
  (State.log_foot ..).eq .fresh rfl
@[simp] theorem State.log_pending (s : State) (c a u i : Nat) (p : List (Nat × Nat × Nat)) : (s.log c a u i p).pending = s.pending :=
  (State.log_foot ..).eq .pending rfl
@[simp] theorem State.log_get (s : State) (c a u i : Nat) (p : List (Nat × Nat × Nat)) (g : Fld) : (s.log c a u i p).get g = s.get g :=
  State.get_of_regs (State.log_regs ..) g
@[simp] theorem State.log_on (s : State) (c a u i : Nat) (p : List (Nat × Nat × Nat)) (g : Fld) : (s.log c a u i p).on g = s.on g :=
  State.on_of_regs (State.log_regs ..) g

@[simp] theorem State.logIf_regs (s : State) (b : Bool) (c a u i : Nat) (p : List (Nat × Nat × Nat)) : (s.logIf b c a u i p).regs = s.regs :=
  (State.logIf_foot ..).eq .regs rfl
@[simp] theorem State.logIf_time (s : State) (b : Bool) (c a u i : Nat) (p : List (Nat × Nat × Nat)) : (s.logIf b c a u i p).time = s.time :=
  (State.logIf_foot ..).eq .time rfl
@[simp] theorem State.logIf_clk (s : State) (b : Bool) (c a u i : Nat) (p : List (Nat × Nat × Nat)) : (s.logIf b c a u i p).clk = s.clk :=
  (State.logIf_foot ..).eq .clk rfl
@[simp] theorem State.logIf_nvm (s : State) (b : Bool) (c a u i : Nat) (p : List (Nat × Nat × Nat)) : (s.logIf b c a u i p).nvm = s.nvm :=
  (State.logIf_foot ..).eq .nvm rfl
@[simp] theorem State.logIf_pwr (s : State) (b : Bool) (c a u i : Nat) (p : List (Nat × Nat × Nat)) : (s.logIf b c a u i p).pwr = s.pwr :=
  (State.logIf_foot ..).eq .pwr rfl
@[simp] theorem State.logIf_brg (s : State) (b : Bool) (c a u i : Nat) (p : List (Nat × Nat × Nat)) : (s.logIf b c a u i p).brg = s.brg :=
  (State.logIf_foot ..).eq .brg rfl
@[simp] theorem State.logIf_tw (s : State) (b : Bool) (c a u i : Nat) (p : List (Nat × Nat × Nat)) : (s.logIf b c a u i p).tw = s.tw :=
  (State.logIf_foot ..).eq .tw rfl
@[simp] theorem State.logIf_seq (s : State) (b : Bool) (c a u i : Nat) (p : List (Nat × Nat × Nat)) : (s.logIf b c a u i p).seq = s.seq :=
  (State.logIf_foot ..).eq .seq rfl
@[simp] theorem State.logIf_tamp (s : State) (b : Bool) (c a u i : Nat) (p : List (Nat × Nat × Nat)) : (s.logIf b c a u i p).tamp = s.tamp :=
  (State.logIf_foot ..).eq .tamp rfl
@[simp] theorem State.logIf_cool (s : State) (b : Bool) (c a u i : Nat) (p : List (Nat × Nat × Nat)) : (s.logIf b c a u i p).cool = s.cool :=
  (State.logIf_foot ..).eq .cool rfl
@[simp] theorem State.logIf_tel (s : State) (b : Bool) (c a u i : Nat) (p : List (Nat × Nat × Nat)) : (s.logIf b c a u i p).tel = s.tel :=
  (State.logIf_foot ..).eq .tel rfl
@[simp] theorem State.logIf_inf (s : State) (b : Bool) (c a u i : Nat) (p : List (Nat × Nat × Nat)) : (s.logIf b c a u i p).inf = s.inf :=
  (State.logIf_foot ..).eq .inf rfl
@[simp] theorem State.logIf_otp (s : State) (b : Bool) (c a u i : Nat) (p : List (Nat × Nat × Nat)) : (s.logIf b c a u i p).otp = s.otp :=
  (State.logIf_foot ..).eq .otp rfl
@[simp] theorem State.logIf_acd (s : State) (b : Bool) (c a u i : Nat) (p : List (Nat × Nat × Nat)) : (s.logIf b c a u i p).acd = s.acd :=
  (State.logIf_foot ..).eq .acd rfl
@[simp] theorem State.logIf_key (s : State) (b : Bool) (c a u i : Nat) (p : List (Nat × Nat × Nat)) : (s.logIf b c a u i p).key = s.key :=
  (State.logIf_foot ..).eq .key rfl
@[simp] theorem State.logIf_fw (s : State) (b : Bool) (c a u i : Nat) (p : List (Nat × Nat × Nat)) : (s.logIf b c a u i p).fw = s.fw :=
  (State.logIf_foot ..).eq .fw rfl
@[simp] theorem State.logIf_ses (s : State) (b : Bool) (c a u i : Nat) (p : List (Nat × Nat × Nat)) : (s.logIf b c a u i p).ses = s.ses :=
  (State.logIf_foot ..).eq .ses rfl
@[simp] theorem State.logIf_sec (s : State) (b : Bool) (c a u i : Nat) (p : List (Nat × Nat × Nat)) : (s.logIf b c a u i p).sec = s.sec :=
  (State.logIf_foot ..).eq .sec rfl
@[simp] theorem State.logIf_flash (s : State) (b : Bool) (c a u i : Nat) (p : List (Nat × Nat × Nat)) : (s.logIf b c a u i p).flash = s.flash :=
  (State.logIf_foot ..).eq .flash rfl
@[simp] theorem State.logIf_bus (s : State) (b : Bool) (c a u i : Nat) (p : List (Nat × Nat × Nat)) : (s.logIf b c a u i p).bus = s.bus :=
  (State.logIf_foot ..).eq .bus rfl
@[simp] theorem State.logIf_mem (s : State) (b : Bool) (c a u i : Nat) (p : List (Nat × Nat × Nat)) : (s.logIf b c a u i p).mem = s.mem :=
  (State.logIf_foot ..).eq .mem rfl
@[simp] theorem State.logIf_fresh (s : State) (b : Bool) (c a u i : Nat) (p : List (Nat × Nat × Nat)) : (s.logIf b c a u i p).fresh = s.fresh :=
  (State.logIf_foot ..).eq .fresh rfl
@[simp] theorem State.logIf_pending (s : State) (b : Bool) (c a u i : Nat) (p : List (Nat × Nat × Nat)) : (s.logIf b c a u i p).pending = s.pending :=
  (State.logIf_foot ..).eq .pending rfl
@[simp] theorem State.logIf_get (s : State) (b : Bool) (c a u i : Nat) (p : List (Nat × Nat × Nat)) (g : Fld) : (s.logIf b c a u i p).get g = s.get g :=
  State.get_of_regs (State.logIf_regs ..) g
@[simp] theorem State.logIf_on (s : State) (b : Bool) (c a u i : Nat) (p : List (Nat × Nat × Nat)) (g : Fld) : (s.logIf b c a u i p).on g = s.on g :=
  State.on_of_regs (State.logIf_regs ..) g

@[simp] theorem State.admitEvent_regs (s : State) (e : Event) : (s.admitEvent e).regs = s.regs :=
  (State.admitEvent_foot ..).eq .regs rfl
@[simp] theorem State.admitEvent_time (s : State) (e : Event) : (s.admitEvent e).time = s.time :=
  (State.admitEvent_foot ..).eq .time rfl
@[simp] theorem State.admitEvent_clk (s : State) (e : Event) : (s.admitEvent e).clk = s.clk :=
  (State.admitEvent_foot ..).eq .clk rfl
@[simp] theorem State.admitEvent_nvm (s : State) (e : Event) : (s.admitEvent e).nvm = s.nvm :=
  (State.admitEvent_foot ..).eq .nvm rfl
@[simp] theorem State.admitEvent_pwr (s : State) (e : Event) : (s.admitEvent e).pwr = s.pwr :=
  (State.admitEvent_foot ..).eq .pwr rfl
@[simp] theorem State.admitEvent_brg (s : State) (e : Event) : (s.admitEvent e).brg = s.brg :=
  (State.admitEvent_foot ..).eq .brg rfl
@[simp] theorem State.admitEvent_tw (s : State) (e : Event) : (s.admitEvent e).tw = s.tw :=
  (State.admitEvent_foot ..).eq .tw rfl
@[simp] theorem State.admitEvent_seq (s : State) (e : Event) : (s.admitEvent e).seq = s.seq :=
  (State.admitEvent_foot ..).eq .seq rfl
@[simp] theorem State.admitEvent_tamp (s : State) (e : Event) : (s.admitEvent e).tamp = s.tamp :=
  (State.admitEvent_foot ..).eq .tamp rfl
@[simp] theorem State.admitEvent_cool (s : State) (e : Event) : (s.admitEvent e).cool = s.cool :=
  (State.admitEvent_foot ..).eq .cool rfl
@[simp] theorem State.admitEvent_tel (s : State) (e : Event) : (s.admitEvent e).tel = s.tel :=
  (State.admitEvent_foot ..).eq .tel rfl
@[simp] theorem State.admitEvent_inf (s : State) (e : Event) : (s.admitEvent e).inf = s.inf :=
  (State.admitEvent_foot ..).eq .inf rfl
@[simp] theorem State.admitEvent_otp (s : State) (e : Event) : (s.admitEvent e).otp = s.otp :=
  (State.admitEvent_foot ..).eq .otp rfl
@[simp] theorem State.admitEvent_acd (s : State) (e : Event) : (s.admitEvent e).acd = s.acd :=
  (State.admitEvent_foot ..).eq .acd rfl
@[simp] theorem State.admitEvent_key (s : State) (e : Event) : (s.admitEvent e).key = s.key :=
  (State.admitEvent_foot ..).eq .key rfl
@[simp] theorem State.admitEvent_fw (s : State) (e : Event) : (s.admitEvent e).fw = s.fw :=
  (State.admitEvent_foot ..).eq .fw rfl
@[simp] theorem State.admitEvent_ses (s : State) (e : Event) : (s.admitEvent e).ses = s.ses :=
  (State.admitEvent_foot ..).eq .ses rfl
@[simp] theorem State.admitEvent_sec (s : State) (e : Event) : (s.admitEvent e).sec = s.sec :=
  (State.admitEvent_foot ..).eq .sec rfl
@[simp] theorem State.admitEvent_flash (s : State) (e : Event) : (s.admitEvent e).flash = s.flash :=
  (State.admitEvent_foot ..).eq .flash rfl
@[simp] theorem State.admitEvent_bus (s : State) (e : Event) : (s.admitEvent e).bus = s.bus :=
  (State.admitEvent_foot ..).eq .bus rfl
@[simp] theorem State.admitEvent_mem (s : State) (e : Event) : (s.admitEvent e).mem = s.mem :=
  (State.admitEvent_foot ..).eq .mem rfl
@[simp] theorem State.admitEvent_fresh (s : State) (e : Event) : (s.admitEvent e).fresh = s.fresh :=
  (State.admitEvent_foot ..).eq .fresh rfl
@[simp] theorem State.admitEvent_pending (s : State) (e : Event) : (s.admitEvent e).pending = s.pending :=
  (State.admitEvent_foot ..).eq .pending rfl
@[simp] theorem State.admitEvent_get (s : State) (e : Event) (g : Fld) : (s.admitEvent e).get g = s.get g :=
  State.get_of_regs (State.admitEvent_regs ..) g
@[simp] theorem State.admitEvent_on (s : State) (e : Event) (g : Fld) : (s.admitEvent e).on g = s.on g :=
  State.on_of_regs (State.admitEvent_regs ..) g

@[simp] theorem State.logTop_regs (s : State) (c a u i : Nat) (p : List (Nat × Nat × Nat)) : (s.logTop c a u i p).regs = s.regs :=
  (State.logTop_foot ..).eq .regs rfl
@[simp] theorem State.logTop_time (s : State) (c a u i : Nat) (p : List (Nat × Nat × Nat)) : (s.logTop c a u i p).time = s.time :=
  (State.logTop_foot ..).eq .time rfl
@[simp] theorem State.logTop_clk (s : State) (c a u i : Nat) (p : List (Nat × Nat × Nat)) : (s.logTop c a u i p).clk = s.clk :=
  (State.logTop_foot ..).eq .clk rfl
@[simp] theorem State.logTop_sil (s : State) (c a u i : Nat) (p : List (Nat × Nat × Nat)) : (s.logTop c a u i p).sil = s.sil :=
  (State.logTop_foot ..).eq .sil rfl
@[simp] theorem State.logTop_nvm (s : State) (c a u i : Nat) (p : List (Nat × Nat × Nat)) : (s.logTop c a u i p).nvm = s.nvm :=
  (State.logTop_foot ..).eq .nvm rfl
@[simp] theorem State.logTop_pwr (s : State) (c a u i : Nat) (p : List (Nat × Nat × Nat)) : (s.logTop c a u i p).pwr = s.pwr :=
  (State.logTop_foot ..).eq .pwr rfl
@[simp] theorem State.logTop_tw (s : State) (c a u i : Nat) (p : List (Nat × Nat × Nat)) : (s.logTop c a u i p).tw = s.tw :=
  (State.logTop_foot ..).eq .tw rfl
@[simp] theorem State.logTop_seq (s : State) (c a u i : Nat) (p : List (Nat × Nat × Nat)) : (s.logTop c a u i p).seq = s.seq :=
  (State.logTop_foot ..).eq .seq rfl
@[simp] theorem State.logTop_tamp (s : State) (c a u i : Nat) (p : List (Nat × Nat × Nat)) : (s.logTop c a u i p).tamp = s.tamp :=
  (State.logTop_foot ..).eq .tamp rfl
@[simp] theorem State.logTop_cool (s : State) (c a u i : Nat) (p : List (Nat × Nat × Nat)) : (s.logTop c a u i p).cool = s.cool :=
  (State.logTop_foot ..).eq .cool rfl
@[simp] theorem State.logTop_tel (s : State) (c a u i : Nat) (p : List (Nat × Nat × Nat)) : (s.logTop c a u i p).tel = s.tel :=
  (State.logTop_foot ..).eq .tel rfl
@[simp] theorem State.logTop_inf (s : State) (c a u i : Nat) (p : List (Nat × Nat × Nat)) : (s.logTop c a u i p).inf = s.inf :=
  (State.logTop_foot ..).eq .inf rfl
@[simp] theorem State.logTop_otp (s : State) (c a u i : Nat) (p : List (Nat × Nat × Nat)) : (s.logTop c a u i p).otp = s.otp :=
  (State.logTop_foot ..).eq .otp rfl
@[simp] theorem State.logTop_acd (s : State) (c a u i : Nat) (p : List (Nat × Nat × Nat)) : (s.logTop c a u i p).acd = s.acd :=
  (State.logTop_foot ..).eq .acd rfl
@[simp] theorem State.logTop_key (s : State) (c a u i : Nat) (p : List (Nat × Nat × Nat)) : (s.logTop c a u i p).key = s.key :=
  (State.logTop_foot ..).eq .key rfl
@[simp] theorem State.logTop_fw (s : State) (c a u i : Nat) (p : List (Nat × Nat × Nat)) : (s.logTop c a u i p).fw = s.fw :=
  (State.logTop_foot ..).eq .fw rfl
@[simp] theorem State.logTop_ses (s : State) (c a u i : Nat) (p : List (Nat × Nat × Nat)) : (s.logTop c a u i p).ses = s.ses :=
  (State.logTop_foot ..).eq .ses rfl
@[simp] theorem State.logTop_sec (s : State) (c a u i : Nat) (p : List (Nat × Nat × Nat)) : (s.logTop c a u i p).sec = s.sec :=
  (State.logTop_foot ..).eq .sec rfl
@[simp] theorem State.logTop_flash (s : State) (c a u i : Nat) (p : List (Nat × Nat × Nat)) : (s.logTop c a u i p).flash = s.flash :=
  (State.logTop_foot ..).eq .flash rfl
@[simp] theorem State.logTop_bus (s : State) (c a u i : Nat) (p : List (Nat × Nat × Nat)) : (s.logTop c a u i p).bus = s.bus :=
  (State.logTop_foot ..).eq .bus rfl
@[simp] theorem State.logTop_mem (s : State) (c a u i : Nat) (p : List (Nat × Nat × Nat)) : (s.logTop c a u i p).mem = s.mem :=
  (State.logTop_foot ..).eq .mem rfl
@[simp] theorem State.logTop_fresh (s : State) (c a u i : Nat) (p : List (Nat × Nat × Nat)) : (s.logTop c a u i p).fresh = s.fresh :=
  (State.logTop_foot ..).eq .fresh rfl
@[simp] theorem State.logTop_pending (s : State) (c a u i : Nat) (p : List (Nat × Nat × Nat)) : (s.logTop c a u i p).pending = s.pending :=
  (State.logTop_foot ..).eq .pending rfl
@[simp] theorem State.logTop_get (s : State) (c a u i : Nat) (p : List (Nat × Nat × Nat)) (g : Fld) : (s.logTop c a u i p).get g = s.get g :=
  State.get_of_regs (State.logTop_regs ..) g
@[simp] theorem State.logTop_on (s : State) (c a u i : Nat) (p : List (Nat × Nat × Nat)) (g : Fld) : (s.logTop c a u i p).on g = s.on g :=
  State.on_of_regs (State.logTop_regs ..) g

@[simp] theorem State.raise_regs (s : State) (n : Nat) : (s.raise n).regs = s.regs :=
  (State.raise_foot ..).eq .regs rfl
@[simp] theorem State.raise_time (s : State) (n : Nat) : (s.raise n).time = s.time :=
  (State.raise_foot ..).eq .time rfl
@[simp] theorem State.raise_clk (s : State) (n : Nat) : (s.raise n).clk = s.clk :=
  (State.raise_foot ..).eq .clk rfl
@[simp] theorem State.raise_sil (s : State) (n : Nat) : (s.raise n).sil = s.sil :=
  (State.raise_foot ..).eq .sil rfl
@[simp] theorem State.raise_nvm (s : State) (n : Nat) : (s.raise n).nvm = s.nvm :=
  (State.raise_foot ..).eq .nvm rfl
@[simp] theorem State.raise_pwr (s : State) (n : Nat) : (s.raise n).pwr = s.pwr :=
  (State.raise_foot ..).eq .pwr rfl
@[simp] theorem State.raise_brg (s : State) (n : Nat) : (s.raise n).brg = s.brg :=
  (State.raise_foot ..).eq .brg rfl
@[simp] theorem State.raise_tw (s : State) (n : Nat) : (s.raise n).tw = s.tw :=
  (State.raise_foot ..).eq .tw rfl
@[simp] theorem State.raise_seq (s : State) (n : Nat) : (s.raise n).seq = s.seq :=
  (State.raise_foot ..).eq .seq rfl
@[simp] theorem State.raise_tamp (s : State) (n : Nat) : (s.raise n).tamp = s.tamp :=
  (State.raise_foot ..).eq .tamp rfl
@[simp] theorem State.raise_cool (s : State) (n : Nat) : (s.raise n).cool = s.cool :=
  (State.raise_foot ..).eq .cool rfl
@[simp] theorem State.raise_tel (s : State) (n : Nat) : (s.raise n).tel = s.tel :=
  (State.raise_foot ..).eq .tel rfl
@[simp] theorem State.raise_inf (s : State) (n : Nat) : (s.raise n).inf = s.inf :=
  (State.raise_foot ..).eq .inf rfl
@[simp] theorem State.raise_otp (s : State) (n : Nat) : (s.raise n).otp = s.otp :=
  (State.raise_foot ..).eq .otp rfl
@[simp] theorem State.raise_acd (s : State) (n : Nat) : (s.raise n).acd = s.acd :=
  (State.raise_foot ..).eq .acd rfl
@[simp] theorem State.raise_key (s : State) (n : Nat) : (s.raise n).key = s.key :=
  (State.raise_foot ..).eq .key rfl
@[simp] theorem State.raise_ses (s : State) (n : Nat) : (s.raise n).ses = s.ses :=
  (State.raise_foot ..).eq .ses rfl
@[simp] theorem State.raise_sec (s : State) (n : Nat) : (s.raise n).sec = s.sec :=
  (State.raise_foot ..).eq .sec rfl
@[simp] theorem State.raise_flash (s : State) (n : Nat) : (s.raise n).flash = s.flash :=
  (State.raise_foot ..).eq .flash rfl
@[simp] theorem State.raise_bus (s : State) (n : Nat) : (s.raise n).bus = s.bus :=
  (State.raise_foot ..).eq .bus rfl
@[simp] theorem State.raise_mem (s : State) (n : Nat) : (s.raise n).mem = s.mem :=
  (State.raise_foot ..).eq .mem rfl
@[simp] theorem State.raise_fresh (s : State) (n : Nat) : (s.raise n).fresh = s.fresh :=
  (State.raise_foot ..).eq .fresh rfl
@[simp] theorem State.raise_pending (s : State) (n : Nat) : (s.raise n).pending = s.pending :=
  (State.raise_foot ..).eq .pending rfl
@[simp] theorem State.raise_get (s : State) (n : Nat) (g : Fld) : (s.raise n).get g = s.get g :=
  State.get_of_regs (State.raise_regs ..) g
@[simp] theorem State.raise_on (s : State) (n : Nat) (g : Fld) : (s.raise n).on g = s.on g :=
  State.on_of_regs (State.raise_regs ..) g

@[simp] theorem State.kraise_regs (s : State) (n : Nat) : (s.kraise n).regs = s.regs :=
  (State.kraise_foot ..).eq .regs rfl
@[simp] theorem State.kraise_time (s : State) (n : Nat) : (s.kraise n).time = s.time :=
  (State.kraise_foot ..).eq .time rfl
@[simp] theorem State.kraise_clk (s : State) (n : Nat) : (s.kraise n).clk = s.clk :=
  (State.kraise_foot ..).eq .clk rfl
@[simp] theorem State.kraise_sil (s : State) (n : Nat) : (s.kraise n).sil = s.sil :=
  (State.kraise_foot ..).eq .sil rfl
@[simp] theorem State.kraise_nvm (s : State) (n : Nat) : (s.kraise n).nvm = s.nvm :=
  (State.kraise_foot ..).eq .nvm rfl
@[simp] theorem State.kraise_pwr (s : State) (n : Nat) : (s.kraise n).pwr = s.pwr :=
  (State.kraise_foot ..).eq .pwr rfl
@[simp] theorem State.kraise_brg (s : State) (n : Nat) : (s.kraise n).brg = s.brg :=
  (State.kraise_foot ..).eq .brg rfl
@[simp] theorem State.kraise_tw (s : State) (n : Nat) : (s.kraise n).tw = s.tw :=
  (State.kraise_foot ..).eq .tw rfl
@[simp] theorem State.kraise_seq (s : State) (n : Nat) : (s.kraise n).seq = s.seq :=
  (State.kraise_foot ..).eq .seq rfl
@[simp] theorem State.kraise_tamp (s : State) (n : Nat) : (s.kraise n).tamp = s.tamp :=
  (State.kraise_foot ..).eq .tamp rfl
@[simp] theorem State.kraise_cool (s : State) (n : Nat) : (s.kraise n).cool = s.cool :=
  (State.kraise_foot ..).eq .cool rfl
@[simp] theorem State.kraise_tel (s : State) (n : Nat) : (s.kraise n).tel = s.tel :=
  (State.kraise_foot ..).eq .tel rfl
@[simp] theorem State.kraise_inf (s : State) (n : Nat) : (s.kraise n).inf = s.inf :=
  (State.kraise_foot ..).eq .inf rfl
@[simp] theorem State.kraise_otp (s : State) (n : Nat) : (s.kraise n).otp = s.otp :=
  (State.kraise_foot ..).eq .otp rfl
@[simp] theorem State.kraise_acd (s : State) (n : Nat) : (s.kraise n).acd = s.acd :=
  (State.kraise_foot ..).eq .acd rfl
@[simp] theorem State.kraise_key (s : State) (n : Nat) : (s.kraise n).key = s.key :=
  (State.kraise_foot ..).eq .key rfl
@[simp] theorem State.kraise_ses (s : State) (n : Nat) : (s.kraise n).ses = s.ses :=
  (State.kraise_foot ..).eq .ses rfl
@[simp] theorem State.kraise_sec (s : State) (n : Nat) : (s.kraise n).sec = s.sec :=
  (State.kraise_foot ..).eq .sec rfl
@[simp] theorem State.kraise_flash (s : State) (n : Nat) : (s.kraise n).flash = s.flash :=
  (State.kraise_foot ..).eq .flash rfl
@[simp] theorem State.kraise_bus (s : State) (n : Nat) : (s.kraise n).bus = s.bus :=
  (State.kraise_foot ..).eq .bus rfl
@[simp] theorem State.kraise_mem (s : State) (n : Nat) : (s.kraise n).mem = s.mem :=
  (State.kraise_foot ..).eq .mem rfl
@[simp] theorem State.kraise_fresh (s : State) (n : Nat) : (s.kraise n).fresh = s.fresh :=
  (State.kraise_foot ..).eq .fresh rfl
@[simp] theorem State.kraise_pending (s : State) (n : Nat) : (s.kraise n).pending = s.pending :=
  (State.kraise_foot ..).eq .pending rfl
@[simp] theorem State.kraise_get (s : State) (n : Nat) (g : Fld) : (s.kraise n).get g = s.get g :=
  State.get_of_regs (State.kraise_regs ..) g
@[simp] theorem State.kraise_on (s : State) (n : Nat) (g : Fld) : (s.kraise n).on g = s.on g :=
  State.on_of_regs (State.kraise_regs ..) g

@[simp] theorem State.draw_regs (s : State) : (s.draw).regs = s.regs :=
  (State.draw_foot ..).eq .regs rfl
@[simp] theorem State.draw_time (s : State) : (s.draw).time = s.time :=
  (State.draw_foot ..).eq .time rfl
@[simp] theorem State.draw_clk (s : State) : (s.draw).clk = s.clk :=
  (State.draw_foot ..).eq .clk rfl
@[simp] theorem State.draw_sil (s : State) : (s.draw).sil = s.sil :=
  (State.draw_foot ..).eq .sil rfl
@[simp] theorem State.draw_nvm (s : State) : (s.draw).nvm = s.nvm :=
  (State.draw_foot ..).eq .nvm rfl
@[simp] theorem State.draw_pwr (s : State) : (s.draw).pwr = s.pwr :=
  (State.draw_foot ..).eq .pwr rfl
@[simp] theorem State.draw_brg (s : State) : (s.draw).brg = s.brg :=
  (State.draw_foot ..).eq .brg rfl
@[simp] theorem State.draw_tw (s : State) : (s.draw).tw = s.tw :=
  (State.draw_foot ..).eq .tw rfl
@[simp] theorem State.draw_seq (s : State) : (s.draw).seq = s.seq :=
  (State.draw_foot ..).eq .seq rfl
@[simp] theorem State.draw_tamp (s : State) : (s.draw).tamp = s.tamp :=
  (State.draw_foot ..).eq .tamp rfl
@[simp] theorem State.draw_cool (s : State) : (s.draw).cool = s.cool :=
  (State.draw_foot ..).eq .cool rfl
@[simp] theorem State.draw_tel (s : State) : (s.draw).tel = s.tel :=
  (State.draw_foot ..).eq .tel rfl
@[simp] theorem State.draw_inf (s : State) : (s.draw).inf = s.inf :=
  (State.draw_foot ..).eq .inf rfl
@[simp] theorem State.draw_otp (s : State) : (s.draw).otp = s.otp :=
  (State.draw_foot ..).eq .otp rfl
@[simp] theorem State.draw_acd (s : State) : (s.draw).acd = s.acd :=
  (State.draw_foot ..).eq .acd rfl
@[simp] theorem State.draw_key (s : State) : (s.draw).key = s.key :=
  (State.draw_foot ..).eq .key rfl
@[simp] theorem State.draw_fw (s : State) : (s.draw).fw = s.fw :=
  (State.draw_foot ..).eq .fw rfl
@[simp] theorem State.draw_ses (s : State) : (s.draw).ses = s.ses :=
  (State.draw_foot ..).eq .ses rfl
@[simp] theorem State.draw_sec (s : State) : (s.draw).sec = s.sec :=
  (State.draw_foot ..).eq .sec rfl
@[simp] theorem State.draw_flash (s : State) : (s.draw).flash = s.flash :=
  (State.draw_foot ..).eq .flash rfl
@[simp] theorem State.draw_bus (s : State) : (s.draw).bus = s.bus :=
  (State.draw_foot ..).eq .bus rfl
@[simp] theorem State.draw_mem (s : State) : (s.draw).mem = s.mem :=
  (State.draw_foot ..).eq .mem rfl
@[simp] theorem State.draw_pending (s : State) : (s.draw).pending = s.pending :=
  (State.draw_foot ..).eq .pending rfl
@[simp] theorem State.draw_get (s : State) (g : Fld) : (s.draw).get g = s.get g :=
  State.get_of_regs (State.draw_regs ..) g
@[simp] theorem State.draw_on (s : State) (g : Fld) : (s.draw).on g = s.on g :=
  State.on_of_regs (State.draw_regs ..) g

@[simp] theorem State.setIf_time (s : State) (b : Bool) (f : Fld) (v : Nat) : (s.setIf b f v).time = s.time :=
  (State.setIf_foot ..).eq .time rfl
@[simp] theorem State.setIf_clk (s : State) (b : Bool) (f : Fld) (v : Nat) : (s.setIf b f v).clk = s.clk :=
  (State.setIf_foot ..).eq .clk rfl
@[simp] theorem State.setIf_sil (s : State) (b : Bool) (f : Fld) (v : Nat) : (s.setIf b f v).sil = s.sil :=
  (State.setIf_foot ..).eq .sil rfl
@[simp] theorem State.setIf_nvm (s : State) (b : Bool) (f : Fld) (v : Nat) : (s.setIf b f v).nvm = s.nvm :=
  (State.setIf_foot ..).eq .nvm rfl
@[simp] theorem State.setIf_pwr (s : State) (b : Bool) (f : Fld) (v : Nat) : (s.setIf b f v).pwr = s.pwr :=
  (State.setIf_foot ..).eq .pwr rfl
@[simp] theorem State.setIf_brg (s : State) (b : Bool) (f : Fld) (v : Nat) : (s.setIf b f v).brg = s.brg :=
  (State.setIf_foot ..).eq .brg rfl
@[simp] theorem State.setIf_tw (s : State) (b : Bool) (f : Fld) (v : Nat) : (s.setIf b f v).tw = s.tw :=
  (State.setIf_foot ..).eq .tw rfl
@[simp] theorem State.setIf_seq (s : State) (b : Bool) (f : Fld) (v : Nat) : (s.setIf b f v).seq = s.seq :=
  (State.setIf_foot ..).eq .seq rfl
@[simp] theorem State.setIf_tamp (s : State) (b : Bool) (f : Fld) (v : Nat) : (s.setIf b f v).tamp = s.tamp :=
  (State.setIf_foot ..).eq .tamp rfl
@[simp] theorem State.setIf_cool (s : State) (b : Bool) (f : Fld) (v : Nat) : (s.setIf b f v).cool = s.cool :=
  (State.setIf_foot ..).eq .cool rfl
@[simp] theorem State.setIf_tel (s : State) (b : Bool) (f : Fld) (v : Nat) : (s.setIf b f v).tel = s.tel :=
  (State.setIf_foot ..).eq .tel rfl
@[simp] theorem State.setIf_inf (s : State) (b : Bool) (f : Fld) (v : Nat) : (s.setIf b f v).inf = s.inf :=
  (State.setIf_foot ..).eq .inf rfl
@[simp] theorem State.setIf_otp (s : State) (b : Bool) (f : Fld) (v : Nat) : (s.setIf b f v).otp = s.otp :=
  (State.setIf_foot ..).eq .otp rfl
@[simp] theorem State.setIf_acd (s : State) (b : Bool) (f : Fld) (v : Nat) : (s.setIf b f v).acd = s.acd :=
  (State.setIf_foot ..).eq .acd rfl
@[simp] theorem State.setIf_key (s : State) (b : Bool) (f : Fld) (v : Nat) : (s.setIf b f v).key = s.key :=
  (State.setIf_foot ..).eq .key rfl
@[simp] theorem State.setIf_fw (s : State) (b : Bool) (f : Fld) (v : Nat) : (s.setIf b f v).fw = s.fw :=
  (State.setIf_foot ..).eq .fw rfl
@[simp] theorem State.setIf_ses (s : State) (b : Bool) (f : Fld) (v : Nat) : (s.setIf b f v).ses = s.ses :=
  (State.setIf_foot ..).eq .ses rfl
@[simp] theorem State.setIf_sec (s : State) (b : Bool) (f : Fld) (v : Nat) : (s.setIf b f v).sec = s.sec :=
  (State.setIf_foot ..).eq .sec rfl
@[simp] theorem State.setIf_flash (s : State) (b : Bool) (f : Fld) (v : Nat) : (s.setIf b f v).flash = s.flash :=
  (State.setIf_foot ..).eq .flash rfl
@[simp] theorem State.setIf_bus (s : State) (b : Bool) (f : Fld) (v : Nat) : (s.setIf b f v).bus = s.bus :=
  (State.setIf_foot ..).eq .bus rfl
@[simp] theorem State.setIf_mem (s : State) (b : Bool) (f : Fld) (v : Nat) : (s.setIf b f v).mem = s.mem :=
  (State.setIf_foot ..).eq .mem rfl
@[simp] theorem State.setIf_fresh (s : State) (b : Bool) (f : Fld) (v : Nat) : (s.setIf b f v).fresh = s.fresh :=
  (State.setIf_foot ..).eq .fresh rfl
@[simp] theorem State.setIf_pending (s : State) (b : Bool) (f : Fld) (v : Nat) : (s.setIf b f v).pending = s.pending :=
  (State.setIf_foot ..).eq .pending rfl

@[simp] theorem State.setAll_time (s : State) (l : List (Fld × Nat)) : (s.setAll l).time = s.time :=
  (State.setAll_foot ..).eq .time rfl
@[simp] theorem State.setAll_clk (s : State) (l : List (Fld × Nat)) : (s.setAll l).clk = s.clk :=
  (State.setAll_foot ..).eq .clk rfl
@[simp] theorem State.setAll_sil (s : State) (l : List (Fld × Nat)) : (s.setAll l).sil = s.sil :=
  (State.setAll_foot ..).eq .sil rfl
@[simp] theorem State.setAll_nvm (s : State) (l : List (Fld × Nat)) : (s.setAll l).nvm = s.nvm :=
  (State.setAll_foot ..).eq .nvm rfl
@[simp] theorem State.setAll_pwr (s : State) (l : List (Fld × Nat)) : (s.setAll l).pwr = s.pwr :=
  (State.setAll_foot ..).eq .pwr rfl
@[simp] theorem State.setAll_brg (s : State) (l : List (Fld × Nat)) : (s.setAll l).brg = s.brg :=
  (State.setAll_foot ..).eq .brg rfl
@[simp] theorem State.setAll_tw (s : State) (l : List (Fld × Nat)) : (s.setAll l).tw = s.tw :=
  (State.setAll_foot ..).eq .tw rfl
@[simp] theorem State.setAll_seq (s : State) (l : List (Fld × Nat)) : (s.setAll l).seq = s.seq :=
  (State.setAll_foot ..).eq .seq rfl
@[simp] theorem State.setAll_tamp (s : State) (l : List (Fld × Nat)) : (s.setAll l).tamp = s.tamp :=
  (State.setAll_foot ..).eq .tamp rfl
@[simp] theorem State.setAll_cool (s : State) (l : List (Fld × Nat)) : (s.setAll l).cool = s.cool :=
  (State.setAll_foot ..).eq .cool rfl
@[simp] theorem State.setAll_tel (s : State) (l : List (Fld × Nat)) : (s.setAll l).tel = s.tel :=
  (State.setAll_foot ..).eq .tel rfl
@[simp] theorem State.setAll_inf (s : State) (l : List (Fld × Nat)) : (s.setAll l).inf = s.inf :=
  (State.setAll_foot ..).eq .inf rfl
@[simp] theorem State.setAll_otp (s : State) (l : List (Fld × Nat)) : (s.setAll l).otp = s.otp :=
  (State.setAll_foot ..).eq .otp rfl
@[simp] theorem State.setAll_acd (s : State) (l : List (Fld × Nat)) : (s.setAll l).acd = s.acd :=
  (State.setAll_foot ..).eq .acd rfl
@[simp] theorem State.setAll_key (s : State) (l : List (Fld × Nat)) : (s.setAll l).key = s.key :=
  (State.setAll_foot ..).eq .key rfl
@[simp] theorem State.setAll_fw (s : State) (l : List (Fld × Nat)) : (s.setAll l).fw = s.fw :=
  (State.setAll_foot ..).eq .fw rfl
@[simp] theorem State.setAll_ses (s : State) (l : List (Fld × Nat)) : (s.setAll l).ses = s.ses :=
  (State.setAll_foot ..).eq .ses rfl
@[simp] theorem State.setAll_sec (s : State) (l : List (Fld × Nat)) : (s.setAll l).sec = s.sec :=
  (State.setAll_foot ..).eq .sec rfl
@[simp] theorem State.setAll_flash (s : State) (l : List (Fld × Nat)) : (s.setAll l).flash = s.flash :=
  (State.setAll_foot ..).eq .flash rfl
@[simp] theorem State.setAll_bus (s : State) (l : List (Fld × Nat)) : (s.setAll l).bus = s.bus :=
  (State.setAll_foot ..).eq .bus rfl
@[simp] theorem State.setAll_mem (s : State) (l : List (Fld × Nat)) : (s.setAll l).mem = s.mem :=
  (State.setAll_foot ..).eq .mem rfl
@[simp] theorem State.setAll_fresh (s : State) (l : List (Fld × Nat)) : (s.setAll l).fresh = s.fresh :=
  (State.setAll_foot ..).eq .fresh rfl
@[simp] theorem State.setAll_pending (s : State) (l : List (Fld × Nat)) : (s.setAll l).pending = s.pending :=
  (State.setAll_foot ..).eq .pending rfl

@[simp] theorem State.setB_time (s : State) (f : Fld) (b : Bool) : (s.setB f b).time = s.time :=
  (State.setB_foot ..).eq .time rfl
@[simp] theorem State.setB_clk (s : State) (f : Fld) (b : Bool) : (s.setB f b).clk = s.clk :=
  (State.setB_foot ..).eq .clk rfl
@[simp] theorem State.setB_sil (s : State) (f : Fld) (b : Bool) : (s.setB f b).sil = s.sil :=
  (State.setB_foot ..).eq .sil rfl
@[simp] theorem State.setB_nvm (s : State) (f : Fld) (b : Bool) : (s.setB f b).nvm = s.nvm :=
  (State.setB_foot ..).eq .nvm rfl
@[simp] theorem State.setB_pwr (s : State) (f : Fld) (b : Bool) : (s.setB f b).pwr = s.pwr :=
  (State.setB_foot ..).eq .pwr rfl
@[simp] theorem State.setB_brg (s : State) (f : Fld) (b : Bool) : (s.setB f b).brg = s.brg :=
  (State.setB_foot ..).eq .brg rfl
@[simp] theorem State.setB_tw (s : State) (f : Fld) (b : Bool) : (s.setB f b).tw = s.tw :=
  (State.setB_foot ..).eq .tw rfl
@[simp] theorem State.setB_seq (s : State) (f : Fld) (b : Bool) : (s.setB f b).seq = s.seq :=
  (State.setB_foot ..).eq .seq rfl
@[simp] theorem State.setB_tamp (s : State) (f : Fld) (b : Bool) : (s.setB f b).tamp = s.tamp :=
  (State.setB_foot ..).eq .tamp rfl
@[simp] theorem State.setB_cool (s : State) (f : Fld) (b : Bool) : (s.setB f b).cool = s.cool :=
  (State.setB_foot ..).eq .cool rfl
@[simp] theorem State.setB_tel (s : State) (f : Fld) (b : Bool) : (s.setB f b).tel = s.tel :=
  (State.setB_foot ..).eq .tel rfl
@[simp] theorem State.setB_inf (s : State) (f : Fld) (b : Bool) : (s.setB f b).inf = s.inf :=
  (State.setB_foot ..).eq .inf rfl
@[simp] theorem State.setB_otp (s : State) (f : Fld) (b : Bool) : (s.setB f b).otp = s.otp :=
  (State.setB_foot ..).eq .otp rfl
@[simp] theorem State.setB_acd (s : State) (f : Fld) (b : Bool) : (s.setB f b).acd = s.acd :=
  (State.setB_foot ..).eq .acd rfl
@[simp] theorem State.setB_key (s : State) (f : Fld) (b : Bool) : (s.setB f b).key = s.key :=
  (State.setB_foot ..).eq .key rfl
@[simp] theorem State.setB_fw (s : State) (f : Fld) (b : Bool) : (s.setB f b).fw = s.fw :=
  (State.setB_foot ..).eq .fw rfl
@[simp] theorem State.setB_ses (s : State) (f : Fld) (b : Bool) : (s.setB f b).ses = s.ses :=
  (State.setB_foot ..).eq .ses rfl
@[simp] theorem State.setB_sec (s : State) (f : Fld) (b : Bool) : (s.setB f b).sec = s.sec :=
  (State.setB_foot ..).eq .sec rfl
@[simp] theorem State.setB_flash (s : State) (f : Fld) (b : Bool) : (s.setB f b).flash = s.flash :=
  (State.setB_foot ..).eq .flash rfl
@[simp] theorem State.setB_bus (s : State) (f : Fld) (b : Bool) : (s.setB f b).bus = s.bus :=
  (State.setB_foot ..).eq .bus rfl
@[simp] theorem State.setB_mem (s : State) (f : Fld) (b : Bool) : (s.setB f b).mem = s.mem :=
  (State.setB_foot ..).eq .mem rfl
@[simp] theorem State.setB_fresh (s : State) (f : Fld) (b : Bool) : (s.setB f b).fresh = s.fresh :=
  (State.setB_foot ..).eq .fresh rfl
@[simp] theorem State.setB_pending (s : State) (f : Fld) (b : Bool) : (s.setB f b).pending = s.pending :=
  (State.setB_foot ..).eq .pending rfl

@[simp] theorem State.bump_time (s : State) (f : Fld) (k : Nat) : (s.bump f k).time = s.time :=
  (State.bump_foot ..).eq .time rfl
@[simp] theorem State.bump_clk (s : State) (f : Fld) (k : Nat) : (s.bump f k).clk = s.clk :=
  (State.bump_foot ..).eq .clk rfl
@[simp] theorem State.bump_sil (s : State) (f : Fld) (k : Nat) : (s.bump f k).sil = s.sil :=
  (State.bump_foot ..).eq .sil rfl
@[simp] theorem State.bump_nvm (s : State) (f : Fld) (k : Nat) : (s.bump f k).nvm = s.nvm :=
  (State.bump_foot ..).eq .nvm rfl
@[simp] theorem State.bump_pwr (s : State) (f : Fld) (k : Nat) : (s.bump f k).pwr = s.pwr :=
  (State.bump_foot ..).eq .pwr rfl
@[simp] theorem State.bump_brg (s : State) (f : Fld) (k : Nat) : (s.bump f k).brg = s.brg :=
  (State.bump_foot ..).eq .brg rfl
@[simp] theorem State.bump_tw (s : State) (f : Fld) (k : Nat) : (s.bump f k).tw = s.tw :=
  (State.bump_foot ..).eq .tw rfl
@[simp] theorem State.bump_seq (s : State) (f : Fld) (k : Nat) : (s.bump f k).seq = s.seq :=
  (State.bump_foot ..).eq .seq rfl
@[simp] theorem State.bump_tamp (s : State) (f : Fld) (k : Nat) : (s.bump f k).tamp = s.tamp :=
  (State.bump_foot ..).eq .tamp rfl
@[simp] theorem State.bump_cool (s : State) (f : Fld) (k : Nat) : (s.bump f k).cool = s.cool :=
  (State.bump_foot ..).eq .cool rfl
@[simp] theorem State.bump_tel (s : State) (f : Fld) (k : Nat) : (s.bump f k).tel = s.tel :=
  (State.bump_foot ..).eq .tel rfl
@[simp] theorem State.bump_inf (s : State) (f : Fld) (k : Nat) : (s.bump f k).inf = s.inf :=
  (State.bump_foot ..).eq .inf rfl
@[simp] theorem State.bump_otp (s : State) (f : Fld) (k : Nat) : (s.bump f k).otp = s.otp :=
  (State.bump_foot ..).eq .otp rfl
@[simp] theorem State.bump_acd (s : State) (f : Fld) (k : Nat) : (s.bump f k).acd = s.acd :=
  (State.bump_foot ..).eq .acd rfl
@[simp] theorem State.bump_key (s : State) (f : Fld) (k : Nat) : (s.bump f k).key = s.key :=
  (State.bump_foot ..).eq .key rfl
@[simp] theorem State.bump_fw (s : State) (f : Fld) (k : Nat) : (s.bump f k).fw = s.fw :=
  (State.bump_foot ..).eq .fw rfl
@[simp] theorem State.bump_ses (s : State) (f : Fld) (k : Nat) : (s.bump f k).ses = s.ses :=
  (State.bump_foot ..).eq .ses rfl
@[simp] theorem State.bump_sec (s : State) (f : Fld) (k : Nat) : (s.bump f k).sec = s.sec :=
  (State.bump_foot ..).eq .sec rfl
@[simp] theorem State.bump_flash (s : State) (f : Fld) (k : Nat) : (s.bump f k).flash = s.flash :=
  (State.bump_foot ..).eq .flash rfl
@[simp] theorem State.bump_bus (s : State) (f : Fld) (k : Nat) : (s.bump f k).bus = s.bus :=
  (State.bump_foot ..).eq .bus rfl
@[simp] theorem State.bump_mem (s : State) (f : Fld) (k : Nat) : (s.bump f k).mem = s.mem :=
  (State.bump_foot ..).eq .mem rfl
@[simp] theorem State.bump_fresh (s : State) (f : Fld) (k : Nat) : (s.bump f k).fresh = s.fresh :=
  (State.bump_foot ..).eq .fresh rfl
@[simp] theorem State.bump_pending (s : State) (f : Fld) (k : Nat) : (s.bump f k).pending = s.pending :=
  (State.bump_foot ..).eq .pending rfl

@[simp] theorem State.set64_time (s : State) (f g : Fld) (v : Nat) : (s.set64 f g v).time = s.time :=
  (State.set64_foot ..).eq .time rfl
@[simp] theorem State.set64_clk (s : State) (f g : Fld) (v : Nat) : (s.set64 f g v).clk = s.clk :=
  (State.set64_foot ..).eq .clk rfl
@[simp] theorem State.set64_sil (s : State) (f g : Fld) (v : Nat) : (s.set64 f g v).sil = s.sil :=
  (State.set64_foot ..).eq .sil rfl
@[simp] theorem State.set64_nvm (s : State) (f g : Fld) (v : Nat) : (s.set64 f g v).nvm = s.nvm :=
  (State.set64_foot ..).eq .nvm rfl
@[simp] theorem State.set64_pwr (s : State) (f g : Fld) (v : Nat) : (s.set64 f g v).pwr = s.pwr :=
  (State.set64_foot ..).eq .pwr rfl
@[simp] theorem State.set64_brg (s : State) (f g : Fld) (v : Nat) : (s.set64 f g v).brg = s.brg :=
  (State.set64_foot ..).eq .brg rfl
@[simp] theorem State.set64_tw (s : State) (f g : Fld) (v : Nat) : (s.set64 f g v).tw = s.tw :=
  (State.set64_foot ..).eq .tw rfl
@[simp] theorem State.set64_seq (s : State) (f g : Fld) (v : Nat) : (s.set64 f g v).seq = s.seq :=
  (State.set64_foot ..).eq .seq rfl
@[simp] theorem State.set64_tamp (s : State) (f g : Fld) (v : Nat) : (s.set64 f g v).tamp = s.tamp :=
  (State.set64_foot ..).eq .tamp rfl
@[simp] theorem State.set64_cool (s : State) (f g : Fld) (v : Nat) : (s.set64 f g v).cool = s.cool :=
  (State.set64_foot ..).eq .cool rfl
@[simp] theorem State.set64_tel (s : State) (f g : Fld) (v : Nat) : (s.set64 f g v).tel = s.tel :=
  (State.set64_foot ..).eq .tel rfl
@[simp] theorem State.set64_inf (s : State) (f g : Fld) (v : Nat) : (s.set64 f g v).inf = s.inf :=
  (State.set64_foot ..).eq .inf rfl
@[simp] theorem State.set64_otp (s : State) (f g : Fld) (v : Nat) : (s.set64 f g v).otp = s.otp :=
  (State.set64_foot ..).eq .otp rfl
@[simp] theorem State.set64_acd (s : State) (f g : Fld) (v : Nat) : (s.set64 f g v).acd = s.acd :=
  (State.set64_foot ..).eq .acd rfl
@[simp] theorem State.set64_key (s : State) (f g : Fld) (v : Nat) : (s.set64 f g v).key = s.key :=
  (State.set64_foot ..).eq .key rfl
@[simp] theorem State.set64_fw (s : State) (f g : Fld) (v : Nat) : (s.set64 f g v).fw = s.fw :=
  (State.set64_foot ..).eq .fw rfl
@[simp] theorem State.set64_ses (s : State) (f g : Fld) (v : Nat) : (s.set64 f g v).ses = s.ses :=
  (State.set64_foot ..).eq .ses rfl
@[simp] theorem State.set64_sec (s : State) (f g : Fld) (v : Nat) : (s.set64 f g v).sec = s.sec :=
  (State.set64_foot ..).eq .sec rfl
@[simp] theorem State.set64_flash (s : State) (f g : Fld) (v : Nat) : (s.set64 f g v).flash = s.flash :=
  (State.set64_foot ..).eq .flash rfl
@[simp] theorem State.set64_bus (s : State) (f g : Fld) (v : Nat) : (s.set64 f g v).bus = s.bus :=
  (State.set64_foot ..).eq .bus rfl
@[simp] theorem State.set64_mem (s : State) (f g : Fld) (v : Nat) : (s.set64 f g v).mem = s.mem :=
  (State.set64_foot ..).eq .mem rfl
@[simp] theorem State.set64_fresh (s : State) (f g : Fld) (v : Nat) : (s.set64 f g v).fresh = s.fresh :=
  (State.set64_foot ..).eq .fresh rfl
@[simp] theorem State.set64_pending (s : State) (f g : Fld) (v : Nat) : (s.set64 f g v).pending = s.pending :=
  (State.set64_foot ..).eq .pending rfl

@[simp] theorem State.modAcd_regs (s : State) (f : AcdSt → AcdSt) : (s.modAcd f).regs = s.regs :=
  (State.modAcd_foot ..).eq .regs rfl
@[simp] theorem State.modAcd_time (s : State) (f : AcdSt → AcdSt) : (s.modAcd f).time = s.time :=
  (State.modAcd_foot ..).eq .time rfl
@[simp] theorem State.modAcd_clk (s : State) (f : AcdSt → AcdSt) : (s.modAcd f).clk = s.clk :=
  (State.modAcd_foot ..).eq .clk rfl
@[simp] theorem State.modAcd_sil (s : State) (f : AcdSt → AcdSt) : (s.modAcd f).sil = s.sil :=
  (State.modAcd_foot ..).eq .sil rfl
@[simp] theorem State.modAcd_nvm (s : State) (f : AcdSt → AcdSt) : (s.modAcd f).nvm = s.nvm :=
  (State.modAcd_foot ..).eq .nvm rfl
@[simp] theorem State.modAcd_pwr (s : State) (f : AcdSt → AcdSt) : (s.modAcd f).pwr = s.pwr :=
  (State.modAcd_foot ..).eq .pwr rfl
@[simp] theorem State.modAcd_brg (s : State) (f : AcdSt → AcdSt) : (s.modAcd f).brg = s.brg :=
  (State.modAcd_foot ..).eq .brg rfl
@[simp] theorem State.modAcd_tw (s : State) (f : AcdSt → AcdSt) : (s.modAcd f).tw = s.tw :=
  (State.modAcd_foot ..).eq .tw rfl
@[simp] theorem State.modAcd_seq (s : State) (f : AcdSt → AcdSt) : (s.modAcd f).seq = s.seq :=
  (State.modAcd_foot ..).eq .seq rfl
@[simp] theorem State.modAcd_tamp (s : State) (f : AcdSt → AcdSt) : (s.modAcd f).tamp = s.tamp :=
  (State.modAcd_foot ..).eq .tamp rfl
@[simp] theorem State.modAcd_cool (s : State) (f : AcdSt → AcdSt) : (s.modAcd f).cool = s.cool :=
  (State.modAcd_foot ..).eq .cool rfl
@[simp] theorem State.modAcd_tel (s : State) (f : AcdSt → AcdSt) : (s.modAcd f).tel = s.tel :=
  (State.modAcd_foot ..).eq .tel rfl
@[simp] theorem State.modAcd_inf (s : State) (f : AcdSt → AcdSt) : (s.modAcd f).inf = s.inf :=
  (State.modAcd_foot ..).eq .inf rfl
@[simp] theorem State.modAcd_otp (s : State) (f : AcdSt → AcdSt) : (s.modAcd f).otp = s.otp :=
  (State.modAcd_foot ..).eq .otp rfl
@[simp] theorem State.modAcd_key (s : State) (f : AcdSt → AcdSt) : (s.modAcd f).key = s.key :=
  (State.modAcd_foot ..).eq .key rfl
@[simp] theorem State.modAcd_fw (s : State) (f : AcdSt → AcdSt) : (s.modAcd f).fw = s.fw :=
  (State.modAcd_foot ..).eq .fw rfl
@[simp] theorem State.modAcd_ses (s : State) (f : AcdSt → AcdSt) : (s.modAcd f).ses = s.ses :=
  (State.modAcd_foot ..).eq .ses rfl
@[simp] theorem State.modAcd_sec (s : State) (f : AcdSt → AcdSt) : (s.modAcd f).sec = s.sec :=
  (State.modAcd_foot ..).eq .sec rfl
@[simp] theorem State.modAcd_flash (s : State) (f : AcdSt → AcdSt) : (s.modAcd f).flash = s.flash :=
  (State.modAcd_foot ..).eq .flash rfl
@[simp] theorem State.modAcd_bus (s : State) (f : AcdSt → AcdSt) : (s.modAcd f).bus = s.bus :=
  (State.modAcd_foot ..).eq .bus rfl
@[simp] theorem State.modAcd_mem (s : State) (f : AcdSt → AcdSt) : (s.modAcd f).mem = s.mem :=
  (State.modAcd_foot ..).eq .mem rfl
@[simp] theorem State.modAcd_fresh (s : State) (f : AcdSt → AcdSt) : (s.modAcd f).fresh = s.fresh :=
  (State.modAcd_foot ..).eq .fresh rfl
@[simp] theorem State.modAcd_pending (s : State) (f : AcdSt → AcdSt) : (s.modAcd f).pending = s.pending :=
  (State.modAcd_foot ..).eq .pending rfl
@[simp] theorem State.modAcd_get (s : State) (f : AcdSt → AcdSt) (g : Fld) : (s.modAcd f).get g = s.get g :=
  State.get_of_regs (State.modAcd_regs ..) g
@[simp] theorem State.modAcd_on (s : State) (f : AcdSt → AcdSt) (g : Fld) : (s.modAcd f).on g = s.on g :=
  State.on_of_regs (State.modAcd_regs ..) g

@[simp] theorem State.modClk_regs (s : State) (f : ClkSt → ClkSt) : (s.modClk f).regs = s.regs :=
  (State.modClk_foot ..).eq .regs rfl
@[simp] theorem State.modClk_time (s : State) (f : ClkSt → ClkSt) : (s.modClk f).time = s.time :=
  (State.modClk_foot ..).eq .time rfl
@[simp] theorem State.modClk_sil (s : State) (f : ClkSt → ClkSt) : (s.modClk f).sil = s.sil :=
  (State.modClk_foot ..).eq .sil rfl
@[simp] theorem State.modClk_nvm (s : State) (f : ClkSt → ClkSt) : (s.modClk f).nvm = s.nvm :=
  (State.modClk_foot ..).eq .nvm rfl
@[simp] theorem State.modClk_pwr (s : State) (f : ClkSt → ClkSt) : (s.modClk f).pwr = s.pwr :=
  (State.modClk_foot ..).eq .pwr rfl
@[simp] theorem State.modClk_brg (s : State) (f : ClkSt → ClkSt) : (s.modClk f).brg = s.brg :=
  (State.modClk_foot ..).eq .brg rfl
@[simp] theorem State.modClk_tw (s : State) (f : ClkSt → ClkSt) : (s.modClk f).tw = s.tw :=
  (State.modClk_foot ..).eq .tw rfl
@[simp] theorem State.modClk_seq (s : State) (f : ClkSt → ClkSt) : (s.modClk f).seq = s.seq :=
  (State.modClk_foot ..).eq .seq rfl
@[simp] theorem State.modClk_tamp (s : State) (f : ClkSt → ClkSt) : (s.modClk f).tamp = s.tamp :=
  (State.modClk_foot ..).eq .tamp rfl
@[simp] theorem State.modClk_cool (s : State) (f : ClkSt → ClkSt) : (s.modClk f).cool = s.cool :=
  (State.modClk_foot ..).eq .cool rfl
@[simp] theorem State.modClk_tel (s : State) (f : ClkSt → ClkSt) : (s.modClk f).tel = s.tel :=
  (State.modClk_foot ..).eq .tel rfl
@[simp] theorem State.modClk_inf (s : State) (f : ClkSt → ClkSt) : (s.modClk f).inf = s.inf :=
  (State.modClk_foot ..).eq .inf rfl
@[simp] theorem State.modClk_otp (s : State) (f : ClkSt → ClkSt) : (s.modClk f).otp = s.otp :=
  (State.modClk_foot ..).eq .otp rfl
@[simp] theorem State.modClk_acd (s : State) (f : ClkSt → ClkSt) : (s.modClk f).acd = s.acd :=
  (State.modClk_foot ..).eq .acd rfl
@[simp] theorem State.modClk_key (s : State) (f : ClkSt → ClkSt) : (s.modClk f).key = s.key :=
  (State.modClk_foot ..).eq .key rfl
@[simp] theorem State.modClk_fw (s : State) (f : ClkSt → ClkSt) : (s.modClk f).fw = s.fw :=
  (State.modClk_foot ..).eq .fw rfl
@[simp] theorem State.modClk_ses (s : State) (f : ClkSt → ClkSt) : (s.modClk f).ses = s.ses :=
  (State.modClk_foot ..).eq .ses rfl
@[simp] theorem State.modClk_sec (s : State) (f : ClkSt → ClkSt) : (s.modClk f).sec = s.sec :=
  (State.modClk_foot ..).eq .sec rfl
@[simp] theorem State.modClk_flash (s : State) (f : ClkSt → ClkSt) : (s.modClk f).flash = s.flash :=
  (State.modClk_foot ..).eq .flash rfl
@[simp] theorem State.modClk_bus (s : State) (f : ClkSt → ClkSt) : (s.modClk f).bus = s.bus :=
  (State.modClk_foot ..).eq .bus rfl
@[simp] theorem State.modClk_mem (s : State) (f : ClkSt → ClkSt) : (s.modClk f).mem = s.mem :=
  (State.modClk_foot ..).eq .mem rfl
@[simp] theorem State.modClk_fresh (s : State) (f : ClkSt → ClkSt) : (s.modClk f).fresh = s.fresh :=
  (State.modClk_foot ..).eq .fresh rfl
@[simp] theorem State.modClk_pending (s : State) (f : ClkSt → ClkSt) : (s.modClk f).pending = s.pending :=
  (State.modClk_foot ..).eq .pending rfl
@[simp] theorem State.modClk_get (s : State) (f : ClkSt → ClkSt) (g : Fld) : (s.modClk f).get g = s.get g :=
  State.get_of_regs (State.modClk_regs ..) g
@[simp] theorem State.modClk_on (s : State) (f : ClkSt → ClkSt) (g : Fld) : (s.modClk f).on g = s.on g :=
  State.on_of_regs (State.modClk_regs ..) g

@[simp] theorem State.modCool_regs (s : State) (f : CoolSt → CoolSt) : (s.modCool f).regs = s.regs :=
  (State.modCool_foot ..).eq .regs rfl
@[simp] theorem State.modCool_time (s : State) (f : CoolSt → CoolSt) : (s.modCool f).time = s.time :=
  (State.modCool_foot ..).eq .time rfl
@[simp] theorem State.modCool_clk (s : State) (f : CoolSt → CoolSt) : (s.modCool f).clk = s.clk :=
  (State.modCool_foot ..).eq .clk rfl
@[simp] theorem State.modCool_sil (s : State) (f : CoolSt → CoolSt) : (s.modCool f).sil = s.sil :=
  (State.modCool_foot ..).eq .sil rfl
@[simp] theorem State.modCool_nvm (s : State) (f : CoolSt → CoolSt) : (s.modCool f).nvm = s.nvm :=
  (State.modCool_foot ..).eq .nvm rfl
@[simp] theorem State.modCool_pwr (s : State) (f : CoolSt → CoolSt) : (s.modCool f).pwr = s.pwr :=
  (State.modCool_foot ..).eq .pwr rfl
@[simp] theorem State.modCool_brg (s : State) (f : CoolSt → CoolSt) : (s.modCool f).brg = s.brg :=
  (State.modCool_foot ..).eq .brg rfl
@[simp] theorem State.modCool_tw (s : State) (f : CoolSt → CoolSt) : (s.modCool f).tw = s.tw :=
  (State.modCool_foot ..).eq .tw rfl
@[simp] theorem State.modCool_seq (s : State) (f : CoolSt → CoolSt) : (s.modCool f).seq = s.seq :=
  (State.modCool_foot ..).eq .seq rfl
@[simp] theorem State.modCool_tamp (s : State) (f : CoolSt → CoolSt) : (s.modCool f).tamp = s.tamp :=
  (State.modCool_foot ..).eq .tamp rfl
@[simp] theorem State.modCool_tel (s : State) (f : CoolSt → CoolSt) : (s.modCool f).tel = s.tel :=
  (State.modCool_foot ..).eq .tel rfl
@[simp] theorem State.modCool_inf (s : State) (f : CoolSt → CoolSt) : (s.modCool f).inf = s.inf :=
  (State.modCool_foot ..).eq .inf rfl
@[simp] theorem State.modCool_otp (s : State) (f : CoolSt → CoolSt) : (s.modCool f).otp = s.otp :=
  (State.modCool_foot ..).eq .otp rfl
@[simp] theorem State.modCool_acd (s : State) (f : CoolSt → CoolSt) : (s.modCool f).acd = s.acd :=
  (State.modCool_foot ..).eq .acd rfl
@[simp] theorem State.modCool_key (s : State) (f : CoolSt → CoolSt) : (s.modCool f).key = s.key :=
  (State.modCool_foot ..).eq .key rfl
@[simp] theorem State.modCool_fw (s : State) (f : CoolSt → CoolSt) : (s.modCool f).fw = s.fw :=
  (State.modCool_foot ..).eq .fw rfl
@[simp] theorem State.modCool_ses (s : State) (f : CoolSt → CoolSt) : (s.modCool f).ses = s.ses :=
  (State.modCool_foot ..).eq .ses rfl
@[simp] theorem State.modCool_sec (s : State) (f : CoolSt → CoolSt) : (s.modCool f).sec = s.sec :=
  (State.modCool_foot ..).eq .sec rfl
@[simp] theorem State.modCool_flash (s : State) (f : CoolSt → CoolSt) : (s.modCool f).flash = s.flash :=
  (State.modCool_foot ..).eq .flash rfl
@[simp] theorem State.modCool_bus (s : State) (f : CoolSt → CoolSt) : (s.modCool f).bus = s.bus :=
  (State.modCool_foot ..).eq .bus rfl
@[simp] theorem State.modCool_mem (s : State) (f : CoolSt → CoolSt) : (s.modCool f).mem = s.mem :=
  (State.modCool_foot ..).eq .mem rfl
@[simp] theorem State.modCool_fresh (s : State) (f : CoolSt → CoolSt) : (s.modCool f).fresh = s.fresh :=
  (State.modCool_foot ..).eq .fresh rfl
@[simp] theorem State.modCool_pending (s : State) (f : CoolSt → CoolSt) : (s.modCool f).pending = s.pending :=
  (State.modCool_foot ..).eq .pending rfl
@[simp] theorem State.modCool_get (s : State) (f : CoolSt → CoolSt) (g : Fld) : (s.modCool f).get g = s.get g :=
  State.get_of_regs (State.modCool_regs ..) g
@[simp] theorem State.modCool_on (s : State) (f : CoolSt → CoolSt) (g : Fld) : (s.modCool f).on g = s.on g :=
  State.on_of_regs (State.modCool_regs ..) g

@[simp] theorem State.modInf_regs (s : State) (f : InfSt → InfSt) : (s.modInf f).regs = s.regs :=
  (State.modInf_foot ..).eq .regs rfl
@[simp] theorem State.modInf_time (s : State) (f : InfSt → InfSt) : (s.modInf f).time = s.time :=
  (State.modInf_foot ..).eq .time rfl
@[simp] theorem State.modInf_clk (s : State) (f : InfSt → InfSt) : (s.modInf f).clk = s.clk :=
  (State.modInf_foot ..).eq .clk rfl
@[simp] theorem State.modInf_sil (s : State) (f : InfSt → InfSt) : (s.modInf f).sil = s.sil :=
  (State.modInf_foot ..).eq .sil rfl
@[simp] theorem State.modInf_nvm (s : State) (f : InfSt → InfSt) : (s.modInf f).nvm = s.nvm :=
  (State.modInf_foot ..).eq .nvm rfl
@[simp] theorem State.modInf_pwr (s : State) (f : InfSt → InfSt) : (s.modInf f).pwr = s.pwr :=
  (State.modInf_foot ..).eq .pwr rfl
@[simp] theorem State.modInf_brg (s : State) (f : InfSt → InfSt) : (s.modInf f).brg = s.brg :=
  (State.modInf_foot ..).eq .brg rfl
@[simp] theorem State.modInf_tw (s : State) (f : InfSt → InfSt) : (s.modInf f).tw = s.tw :=
  (State.modInf_foot ..).eq .tw rfl
@[simp] theorem State.modInf_seq (s : State) (f : InfSt → InfSt) : (s.modInf f).seq = s.seq :=
  (State.modInf_foot ..).eq .seq rfl
@[simp] theorem State.modInf_tamp (s : State) (f : InfSt → InfSt) : (s.modInf f).tamp = s.tamp :=
  (State.modInf_foot ..).eq .tamp rfl
@[simp] theorem State.modInf_cool (s : State) (f : InfSt → InfSt) : (s.modInf f).cool = s.cool :=
  (State.modInf_foot ..).eq .cool rfl
@[simp] theorem State.modInf_tel (s : State) (f : InfSt → InfSt) : (s.modInf f).tel = s.tel :=
  (State.modInf_foot ..).eq .tel rfl
@[simp] theorem State.modInf_otp (s : State) (f : InfSt → InfSt) : (s.modInf f).otp = s.otp :=
  (State.modInf_foot ..).eq .otp rfl
@[simp] theorem State.modInf_acd (s : State) (f : InfSt → InfSt) : (s.modInf f).acd = s.acd :=
  (State.modInf_foot ..).eq .acd rfl
@[simp] theorem State.modInf_key (s : State) (f : InfSt → InfSt) : (s.modInf f).key = s.key :=
  (State.modInf_foot ..).eq .key rfl
@[simp] theorem State.modInf_fw (s : State) (f : InfSt → InfSt) : (s.modInf f).fw = s.fw :=
  (State.modInf_foot ..).eq .fw rfl
@[simp] theorem State.modInf_ses (s : State) (f : InfSt → InfSt) : (s.modInf f).ses = s.ses :=
  (State.modInf_foot ..).eq .ses rfl
@[simp] theorem State.modInf_sec (s : State) (f : InfSt → InfSt) : (s.modInf f).sec = s.sec :=
  (State.modInf_foot ..).eq .sec rfl
@[simp] theorem State.modInf_flash (s : State) (f : InfSt → InfSt) : (s.modInf f).flash = s.flash :=
  (State.modInf_foot ..).eq .flash rfl
@[simp] theorem State.modInf_bus (s : State) (f : InfSt → InfSt) : (s.modInf f).bus = s.bus :=
  (State.modInf_foot ..).eq .bus rfl
@[simp] theorem State.modInf_mem (s : State) (f : InfSt → InfSt) : (s.modInf f).mem = s.mem :=
  (State.modInf_foot ..).eq .mem rfl
@[simp] theorem State.modInf_fresh (s : State) (f : InfSt → InfSt) : (s.modInf f).fresh = s.fresh :=
  (State.modInf_foot ..).eq .fresh rfl
@[simp] theorem State.modInf_pending (s : State) (f : InfSt → InfSt) : (s.modInf f).pending = s.pending :=
  (State.modInf_foot ..).eq .pending rfl
@[simp] theorem State.modInf_get (s : State) (f : InfSt → InfSt) (g : Fld) : (s.modInf f).get g = s.get g :=
  State.get_of_regs (State.modInf_regs ..) g
@[simp] theorem State.modInf_on (s : State) (f : InfSt → InfSt) (g : Fld) : (s.modInf f).on g = s.on g :=
  State.on_of_regs (State.modInf_regs ..) g

@[simp] theorem State.modSec_regs (s : State) (f : SecSt → SecSt) : (s.modSec f).regs = s.regs :=
  (State.modSec_foot ..).eq .regs rfl
@[simp] theorem State.modSec_time (s : State) (f : SecSt → SecSt) : (s.modSec f).time = s.time :=
  (State.modSec_foot ..).eq .time rfl
@[simp] theorem State.modSec_clk (s : State) (f : SecSt → SecSt) : (s.modSec f).clk = s.clk :=
  (State.modSec_foot ..).eq .clk rfl
@[simp] theorem State.modSec_sil (s : State) (f : SecSt → SecSt) : (s.modSec f).sil = s.sil :=
  (State.modSec_foot ..).eq .sil rfl
@[simp] theorem State.modSec_nvm (s : State) (f : SecSt → SecSt) : (s.modSec f).nvm = s.nvm :=
  (State.modSec_foot ..).eq .nvm rfl
@[simp] theorem State.modSec_pwr (s : State) (f : SecSt → SecSt) : (s.modSec f).pwr = s.pwr :=
  (State.modSec_foot ..).eq .pwr rfl
@[simp] theorem State.modSec_brg (s : State) (f : SecSt → SecSt) : (s.modSec f).brg = s.brg :=
  (State.modSec_foot ..).eq .brg rfl
@[simp] theorem State.modSec_tw (s : State) (f : SecSt → SecSt) : (s.modSec f).tw = s.tw :=
  (State.modSec_foot ..).eq .tw rfl
@[simp] theorem State.modSec_seq (s : State) (f : SecSt → SecSt) : (s.modSec f).seq = s.seq :=
  (State.modSec_foot ..).eq .seq rfl
@[simp] theorem State.modSec_tamp (s : State) (f : SecSt → SecSt) : (s.modSec f).tamp = s.tamp :=
  (State.modSec_foot ..).eq .tamp rfl
@[simp] theorem State.modSec_cool (s : State) (f : SecSt → SecSt) : (s.modSec f).cool = s.cool :=
  (State.modSec_foot ..).eq .cool rfl
@[simp] theorem State.modSec_tel (s : State) (f : SecSt → SecSt) : (s.modSec f).tel = s.tel :=
  (State.modSec_foot ..).eq .tel rfl
@[simp] theorem State.modSec_inf (s : State) (f : SecSt → SecSt) : (s.modSec f).inf = s.inf :=
  (State.modSec_foot ..).eq .inf rfl
@[simp] theorem State.modSec_otp (s : State) (f : SecSt → SecSt) : (s.modSec f).otp = s.otp :=
  (State.modSec_foot ..).eq .otp rfl
@[simp] theorem State.modSec_acd (s : State) (f : SecSt → SecSt) : (s.modSec f).acd = s.acd :=
  (State.modSec_foot ..).eq .acd rfl
@[simp] theorem State.modSec_key (s : State) (f : SecSt → SecSt) : (s.modSec f).key = s.key :=
  (State.modSec_foot ..).eq .key rfl
@[simp] theorem State.modSec_fw (s : State) (f : SecSt → SecSt) : (s.modSec f).fw = s.fw :=
  (State.modSec_foot ..).eq .fw rfl
@[simp] theorem State.modSec_ses (s : State) (f : SecSt → SecSt) : (s.modSec f).ses = s.ses :=
  (State.modSec_foot ..).eq .ses rfl
@[simp] theorem State.modSec_flash (s : State) (f : SecSt → SecSt) : (s.modSec f).flash = s.flash :=
  (State.modSec_foot ..).eq .flash rfl
@[simp] theorem State.modSec_bus (s : State) (f : SecSt → SecSt) : (s.modSec f).bus = s.bus :=
  (State.modSec_foot ..).eq .bus rfl
@[simp] theorem State.modSec_mem (s : State) (f : SecSt → SecSt) : (s.modSec f).mem = s.mem :=
  (State.modSec_foot ..).eq .mem rfl
@[simp] theorem State.modSec_fresh (s : State) (f : SecSt → SecSt) : (s.modSec f).fresh = s.fresh :=
  (State.modSec_foot ..).eq .fresh rfl
@[simp] theorem State.modSec_pending (s : State) (f : SecSt → SecSt) : (s.modSec f).pending = s.pending :=
  (State.modSec_foot ..).eq .pending rfl
@[simp] theorem State.modSec_get (s : State) (f : SecSt → SecSt) (g : Fld) : (s.modSec f).get g = s.get g :=
  State.get_of_regs (State.modSec_regs ..) g
@[simp] theorem State.modSec_on (s : State) (f : SecSt → SecSt) (g : Fld) : (s.modSec f).on g = s.on g :=
  State.on_of_regs (State.modSec_regs ..) g

@[simp] theorem State.modSeq_regs (s : State) (f : SeqSt → SeqSt) : (s.modSeq f).regs = s.regs :=
  (State.modSeq_foot ..).eq .regs rfl
@[simp] theorem State.modSeq_time (s : State) (f : SeqSt → SeqSt) : (s.modSeq f).time = s.time :=
  (State.modSeq_foot ..).eq .time rfl
@[simp] theorem State.modSeq_clk (s : State) (f : SeqSt → SeqSt) : (s.modSeq f).clk = s.clk :=
  (State.modSeq_foot ..).eq .clk rfl
@[simp] theorem State.modSeq_sil (s : State) (f : SeqSt → SeqSt) : (s.modSeq f).sil = s.sil :=
  (State.modSeq_foot ..).eq .sil rfl
@[simp] theorem State.modSeq_nvm (s : State) (f : SeqSt → SeqSt) : (s.modSeq f).nvm = s.nvm :=
  (State.modSeq_foot ..).eq .nvm rfl
@[simp] theorem State.modSeq_pwr (s : State) (f : SeqSt → SeqSt) : (s.modSeq f).pwr = s.pwr :=
  (State.modSeq_foot ..).eq .pwr rfl
@[simp] theorem State.modSeq_brg (s : State) (f : SeqSt → SeqSt) : (s.modSeq f).brg = s.brg :=
  (State.modSeq_foot ..).eq .brg rfl
@[simp] theorem State.modSeq_tw (s : State) (f : SeqSt → SeqSt) : (s.modSeq f).tw = s.tw :=
  (State.modSeq_foot ..).eq .tw rfl
@[simp] theorem State.modSeq_tamp (s : State) (f : SeqSt → SeqSt) : (s.modSeq f).tamp = s.tamp :=
  (State.modSeq_foot ..).eq .tamp rfl
@[simp] theorem State.modSeq_cool (s : State) (f : SeqSt → SeqSt) : (s.modSeq f).cool = s.cool :=
  (State.modSeq_foot ..).eq .cool rfl
@[simp] theorem State.modSeq_tel (s : State) (f : SeqSt → SeqSt) : (s.modSeq f).tel = s.tel :=
  (State.modSeq_foot ..).eq .tel rfl
@[simp] theorem State.modSeq_inf (s : State) (f : SeqSt → SeqSt) : (s.modSeq f).inf = s.inf :=
  (State.modSeq_foot ..).eq .inf rfl
@[simp] theorem State.modSeq_otp (s : State) (f : SeqSt → SeqSt) : (s.modSeq f).otp = s.otp :=
  (State.modSeq_foot ..).eq .otp rfl
@[simp] theorem State.modSeq_acd (s : State) (f : SeqSt → SeqSt) : (s.modSeq f).acd = s.acd :=
  (State.modSeq_foot ..).eq .acd rfl
@[simp] theorem State.modSeq_key (s : State) (f : SeqSt → SeqSt) : (s.modSeq f).key = s.key :=
  (State.modSeq_foot ..).eq .key rfl
@[simp] theorem State.modSeq_fw (s : State) (f : SeqSt → SeqSt) : (s.modSeq f).fw = s.fw :=
  (State.modSeq_foot ..).eq .fw rfl
@[simp] theorem State.modSeq_ses (s : State) (f : SeqSt → SeqSt) : (s.modSeq f).ses = s.ses :=
  (State.modSeq_foot ..).eq .ses rfl
@[simp] theorem State.modSeq_sec (s : State) (f : SeqSt → SeqSt) : (s.modSeq f).sec = s.sec :=
  (State.modSeq_foot ..).eq .sec rfl
@[simp] theorem State.modSeq_flash (s : State) (f : SeqSt → SeqSt) : (s.modSeq f).flash = s.flash :=
  (State.modSeq_foot ..).eq .flash rfl
@[simp] theorem State.modSeq_bus (s : State) (f : SeqSt → SeqSt) : (s.modSeq f).bus = s.bus :=
  (State.modSeq_foot ..).eq .bus rfl
@[simp] theorem State.modSeq_mem (s : State) (f : SeqSt → SeqSt) : (s.modSeq f).mem = s.mem :=
  (State.modSeq_foot ..).eq .mem rfl
@[simp] theorem State.modSeq_fresh (s : State) (f : SeqSt → SeqSt) : (s.modSeq f).fresh = s.fresh :=
  (State.modSeq_foot ..).eq .fresh rfl
@[simp] theorem State.modSeq_pending (s : State) (f : SeqSt → SeqSt) : (s.modSeq f).pending = s.pending :=
  (State.modSeq_foot ..).eq .pending rfl
@[simp] theorem State.modSeq_get (s : State) (f : SeqSt → SeqSt) (g : Fld) : (s.modSeq f).get g = s.get g :=
  State.get_of_regs (State.modSeq_regs ..) g
@[simp] theorem State.modSeq_on (s : State) (f : SeqSt → SeqSt) (g : Fld) : (s.modSeq f).on g = s.on g :=
  State.on_of_regs (State.modSeq_regs ..) g

@[simp] theorem State.modSes_regs (s : State) (f : SesSt → SesSt) : (s.modSes f).regs = s.regs :=
  (State.modSes_foot ..).eq .regs rfl
@[simp] theorem State.modSes_time (s : State) (f : SesSt → SesSt) : (s.modSes f).time = s.time :=
  (State.modSes_foot ..).eq .time rfl
@[simp] theorem State.modSes_clk (s : State) (f : SesSt → SesSt) : (s.modSes f).clk = s.clk :=
  (State.modSes_foot ..).eq .clk rfl
@[simp] theorem State.modSes_sil (s : State) (f : SesSt → SesSt) : (s.modSes f).sil = s.sil :=
  (State.modSes_foot ..).eq .sil rfl
@[simp] theorem State.modSes_nvm (s : State) (f : SesSt → SesSt) : (s.modSes f).nvm = s.nvm :=
  (State.modSes_foot ..).eq .nvm rfl
@[simp] theorem State.modSes_pwr (s : State) (f : SesSt → SesSt) : (s.modSes f).pwr = s.pwr :=
  (State.modSes_foot ..).eq .pwr rfl
@[simp] theorem State.modSes_brg (s : State) (f : SesSt → SesSt) : (s.modSes f).brg = s.brg :=
  (State.modSes_foot ..).eq .brg rfl
@[simp] theorem State.modSes_tw (s : State) (f : SesSt → SesSt) : (s.modSes f).tw = s.tw :=
  (State.modSes_foot ..).eq .tw rfl
@[simp] theorem State.modSes_seq (s : State) (f : SesSt → SesSt) : (s.modSes f).seq = s.seq :=
  (State.modSes_foot ..).eq .seq rfl
@[simp] theorem State.modSes_tamp (s : State) (f : SesSt → SesSt) : (s.modSes f).tamp = s.tamp :=
  (State.modSes_foot ..).eq .tamp rfl
@[simp] theorem State.modSes_cool (s : State) (f : SesSt → SesSt) : (s.modSes f).cool = s.cool :=
  (State.modSes_foot ..).eq .cool rfl
@[simp] theorem State.modSes_tel (s : State) (f : SesSt → SesSt) : (s.modSes f).tel = s.tel :=
  (State.modSes_foot ..).eq .tel rfl
@[simp] theorem State.modSes_inf (s : State) (f : SesSt → SesSt) : (s.modSes f).inf = s.inf :=
  (State.modSes_foot ..).eq .inf rfl
@[simp] theorem State.modSes_otp (s : State) (f : SesSt → SesSt) : (s.modSes f).otp = s.otp :=
  (State.modSes_foot ..).eq .otp rfl
@[simp] theorem State.modSes_acd (s : State) (f : SesSt → SesSt) : (s.modSes f).acd = s.acd :=
  (State.modSes_foot ..).eq .acd rfl
@[simp] theorem State.modSes_key (s : State) (f : SesSt → SesSt) : (s.modSes f).key = s.key :=
  (State.modSes_foot ..).eq .key rfl
@[simp] theorem State.modSes_fw (s : State) (f : SesSt → SesSt) : (s.modSes f).fw = s.fw :=
  (State.modSes_foot ..).eq .fw rfl
@[simp] theorem State.modSes_sec (s : State) (f : SesSt → SesSt) : (s.modSes f).sec = s.sec :=
  (State.modSes_foot ..).eq .sec rfl
@[simp] theorem State.modSes_flash (s : State) (f : SesSt → SesSt) : (s.modSes f).flash = s.flash :=
  (State.modSes_foot ..).eq .flash rfl
@[simp] theorem State.modSes_bus (s : State) (f : SesSt → SesSt) : (s.modSes f).bus = s.bus :=
  (State.modSes_foot ..).eq .bus rfl
@[simp] theorem State.modSes_mem (s : State) (f : SesSt → SesSt) : (s.modSes f).mem = s.mem :=
  (State.modSes_foot ..).eq .mem rfl
@[simp] theorem State.modSes_fresh (s : State) (f : SesSt → SesSt) : (s.modSes f).fresh = s.fresh :=
  (State.modSes_foot ..).eq .fresh rfl
@[simp] theorem State.modSes_pending (s : State) (f : SesSt → SesSt) : (s.modSes f).pending = s.pending :=
  (State.modSes_foot ..).eq .pending rfl
@[simp] theorem State.modSes_get (s : State) (f : SesSt → SesSt) (g : Fld) : (s.modSes f).get g = s.get g :=
  State.get_of_regs (State.modSes_regs ..) g
@[simp] theorem State.modSes_on (s : State) (f : SesSt → SesSt) (g : Fld) : (s.modSes f).on g = s.on g :=
  State.on_of_regs (State.modSes_regs ..) g

@[simp] theorem State.modSil_regs (s : State) (f : SilSt → SilSt) : (s.modSil f).regs = s.regs :=
  (State.modSil_foot ..).eq .regs rfl
@[simp] theorem State.modSil_time (s : State) (f : SilSt → SilSt) : (s.modSil f).time = s.time :=
  (State.modSil_foot ..).eq .time rfl
@[simp] theorem State.modSil_clk (s : State) (f : SilSt → SilSt) : (s.modSil f).clk = s.clk :=
  (State.modSil_foot ..).eq .clk rfl
@[simp] theorem State.modSil_nvm (s : State) (f : SilSt → SilSt) : (s.modSil f).nvm = s.nvm :=
  (State.modSil_foot ..).eq .nvm rfl
@[simp] theorem State.modSil_pwr (s : State) (f : SilSt → SilSt) : (s.modSil f).pwr = s.pwr :=
  (State.modSil_foot ..).eq .pwr rfl
@[simp] theorem State.modSil_brg (s : State) (f : SilSt → SilSt) : (s.modSil f).brg = s.brg :=
  (State.modSil_foot ..).eq .brg rfl
@[simp] theorem State.modSil_tw (s : State) (f : SilSt → SilSt) : (s.modSil f).tw = s.tw :=
  (State.modSil_foot ..).eq .tw rfl
@[simp] theorem State.modSil_seq (s : State) (f : SilSt → SilSt) : (s.modSil f).seq = s.seq :=
  (State.modSil_foot ..).eq .seq rfl
@[simp] theorem State.modSil_tamp (s : State) (f : SilSt → SilSt) : (s.modSil f).tamp = s.tamp :=
  (State.modSil_foot ..).eq .tamp rfl
@[simp] theorem State.modSil_cool (s : State) (f : SilSt → SilSt) : (s.modSil f).cool = s.cool :=
  (State.modSil_foot ..).eq .cool rfl
@[simp] theorem State.modSil_tel (s : State) (f : SilSt → SilSt) : (s.modSil f).tel = s.tel :=
  (State.modSil_foot ..).eq .tel rfl
@[simp] theorem State.modSil_inf (s : State) (f : SilSt → SilSt) : (s.modSil f).inf = s.inf :=
  (State.modSil_foot ..).eq .inf rfl
@[simp] theorem State.modSil_otp (s : State) (f : SilSt → SilSt) : (s.modSil f).otp = s.otp :=
  (State.modSil_foot ..).eq .otp rfl
@[simp] theorem State.modSil_acd (s : State) (f : SilSt → SilSt) : (s.modSil f).acd = s.acd :=
  (State.modSil_foot ..).eq .acd rfl
@[simp] theorem State.modSil_key (s : State) (f : SilSt → SilSt) : (s.modSil f).key = s.key :=
  (State.modSil_foot ..).eq .key rfl
@[simp] theorem State.modSil_fw (s : State) (f : SilSt → SilSt) : (s.modSil f).fw = s.fw :=
  (State.modSil_foot ..).eq .fw rfl
@[simp] theorem State.modSil_ses (s : State) (f : SilSt → SilSt) : (s.modSil f).ses = s.ses :=
  (State.modSil_foot ..).eq .ses rfl
@[simp] theorem State.modSil_sec (s : State) (f : SilSt → SilSt) : (s.modSil f).sec = s.sec :=
  (State.modSil_foot ..).eq .sec rfl
@[simp] theorem State.modSil_flash (s : State) (f : SilSt → SilSt) : (s.modSil f).flash = s.flash :=
  (State.modSil_foot ..).eq .flash rfl
@[simp] theorem State.modSil_bus (s : State) (f : SilSt → SilSt) : (s.modSil f).bus = s.bus :=
  (State.modSil_foot ..).eq .bus rfl
@[simp] theorem State.modSil_mem (s : State) (f : SilSt → SilSt) : (s.modSil f).mem = s.mem :=
  (State.modSil_foot ..).eq .mem rfl
@[simp] theorem State.modSil_fresh (s : State) (f : SilSt → SilSt) : (s.modSil f).fresh = s.fresh :=
  (State.modSil_foot ..).eq .fresh rfl
@[simp] theorem State.modSil_pending (s : State) (f : SilSt → SilSt) : (s.modSil f).pending = s.pending :=
  (State.modSil_foot ..).eq .pending rfl
@[simp] theorem State.modSil_get (s : State) (f : SilSt → SilSt) (g : Fld) : (s.modSil f).get g = s.get g :=
  State.get_of_regs (State.modSil_regs ..) g
@[simp] theorem State.modSil_on (s : State) (f : SilSt → SilSt) (g : Fld) : (s.modSil f).on g = s.on g :=
  State.on_of_regs (State.modSil_regs ..) g

@[simp] theorem State.modTel_regs (s : State) (f : TelSt → TelSt) : (s.modTel f).regs = s.regs :=
  (State.modTel_foot ..).eq .regs rfl
@[simp] theorem State.modTel_time (s : State) (f : TelSt → TelSt) : (s.modTel f).time = s.time :=
  (State.modTel_foot ..).eq .time rfl
@[simp] theorem State.modTel_clk (s : State) (f : TelSt → TelSt) : (s.modTel f).clk = s.clk :=
  (State.modTel_foot ..).eq .clk rfl
@[simp] theorem State.modTel_sil (s : State) (f : TelSt → TelSt) : (s.modTel f).sil = s.sil :=
  (State.modTel_foot ..).eq .sil rfl
@[simp] theorem State.modTel_nvm (s : State) (f : TelSt → TelSt) : (s.modTel f).nvm = s.nvm :=
  (State.modTel_foot ..).eq .nvm rfl
@[simp] theorem State.modTel_pwr (s : State) (f : TelSt → TelSt) : (s.modTel f).pwr = s.pwr :=
  (State.modTel_foot ..).eq .pwr rfl
@[simp] theorem State.modTel_brg (s : State) (f : TelSt → TelSt) : (s.modTel f).brg = s.brg :=
  (State.modTel_foot ..).eq .brg rfl
@[simp] theorem State.modTel_tw (s : State) (f : TelSt → TelSt) : (s.modTel f).tw = s.tw :=
  (State.modTel_foot ..).eq .tw rfl
@[simp] theorem State.modTel_seq (s : State) (f : TelSt → TelSt) : (s.modTel f).seq = s.seq :=
  (State.modTel_foot ..).eq .seq rfl
@[simp] theorem State.modTel_tamp (s : State) (f : TelSt → TelSt) : (s.modTel f).tamp = s.tamp :=
  (State.modTel_foot ..).eq .tamp rfl
@[simp] theorem State.modTel_cool (s : State) (f : TelSt → TelSt) : (s.modTel f).cool = s.cool :=
  (State.modTel_foot ..).eq .cool rfl
@[simp] theorem State.modTel_inf (s : State) (f : TelSt → TelSt) : (s.modTel f).inf = s.inf :=
  (State.modTel_foot ..).eq .inf rfl
@[simp] theorem State.modTel_otp (s : State) (f : TelSt → TelSt) : (s.modTel f).otp = s.otp :=
  (State.modTel_foot ..).eq .otp rfl
@[simp] theorem State.modTel_acd (s : State) (f : TelSt → TelSt) : (s.modTel f).acd = s.acd :=
  (State.modTel_foot ..).eq .acd rfl
@[simp] theorem State.modTel_key (s : State) (f : TelSt → TelSt) : (s.modTel f).key = s.key :=
  (State.modTel_foot ..).eq .key rfl
@[simp] theorem State.modTel_fw (s : State) (f : TelSt → TelSt) : (s.modTel f).fw = s.fw :=
  (State.modTel_foot ..).eq .fw rfl
@[simp] theorem State.modTel_ses (s : State) (f : TelSt → TelSt) : (s.modTel f).ses = s.ses :=
  (State.modTel_foot ..).eq .ses rfl
@[simp] theorem State.modTel_sec (s : State) (f : TelSt → TelSt) : (s.modTel f).sec = s.sec :=
  (State.modTel_foot ..).eq .sec rfl
@[simp] theorem State.modTel_flash (s : State) (f : TelSt → TelSt) : (s.modTel f).flash = s.flash :=
  (State.modTel_foot ..).eq .flash rfl
@[simp] theorem State.modTel_bus (s : State) (f : TelSt → TelSt) : (s.modTel f).bus = s.bus :=
  (State.modTel_foot ..).eq .bus rfl
@[simp] theorem State.modTel_mem (s : State) (f : TelSt → TelSt) : (s.modTel f).mem = s.mem :=
  (State.modTel_foot ..).eq .mem rfl
@[simp] theorem State.modTel_fresh (s : State) (f : TelSt → TelSt) : (s.modTel f).fresh = s.fresh :=
  (State.modTel_foot ..).eq .fresh rfl
@[simp] theorem State.modTel_pending (s : State) (f : TelSt → TelSt) : (s.modTel f).pending = s.pending :=
  (State.modTel_foot ..).eq .pending rfl
@[simp] theorem State.modTel_get (s : State) (f : TelSt → TelSt) (g : Fld) : (s.modTel f).get g = s.get g :=
  State.get_of_regs (State.modTel_regs ..) g
@[simp] theorem State.modTel_on (s : State) (f : TelSt → TelSt) (g : Fld) : (s.modTel f).on g = s.on g :=
  State.on_of_regs (State.modTel_regs ..) g

@[simp] theorem State.modPwr_regs (s : State) (f : PwrSt → PwrSt) : (s.modPwr f).regs = s.regs :=
  (State.modPwr_foot ..).eq .regs rfl
@[simp] theorem State.modPwr_time (s : State) (f : PwrSt → PwrSt) : (s.modPwr f).time = s.time :=
  (State.modPwr_foot ..).eq .time rfl
@[simp] theorem State.modPwr_clk (s : State) (f : PwrSt → PwrSt) : (s.modPwr f).clk = s.clk :=
  (State.modPwr_foot ..).eq .clk rfl
@[simp] theorem State.modPwr_sil (s : State) (f : PwrSt → PwrSt) : (s.modPwr f).sil = s.sil :=
  (State.modPwr_foot ..).eq .sil rfl
@[simp] theorem State.modPwr_nvm (s : State) (f : PwrSt → PwrSt) : (s.modPwr f).nvm = s.nvm :=
  (State.modPwr_foot ..).eq .nvm rfl
@[simp] theorem State.modPwr_brg (s : State) (f : PwrSt → PwrSt) : (s.modPwr f).brg = s.brg :=
  (State.modPwr_foot ..).eq .brg rfl
@[simp] theorem State.modPwr_tw (s : State) (f : PwrSt → PwrSt) : (s.modPwr f).tw = s.tw :=
  (State.modPwr_foot ..).eq .tw rfl
@[simp] theorem State.modPwr_seq (s : State) (f : PwrSt → PwrSt) : (s.modPwr f).seq = s.seq :=
  (State.modPwr_foot ..).eq .seq rfl
@[simp] theorem State.modPwr_tamp (s : State) (f : PwrSt → PwrSt) : (s.modPwr f).tamp = s.tamp :=
  (State.modPwr_foot ..).eq .tamp rfl
@[simp] theorem State.modPwr_cool (s : State) (f : PwrSt → PwrSt) : (s.modPwr f).cool = s.cool :=
  (State.modPwr_foot ..).eq .cool rfl
@[simp] theorem State.modPwr_tel (s : State) (f : PwrSt → PwrSt) : (s.modPwr f).tel = s.tel :=
  (State.modPwr_foot ..).eq .tel rfl
@[simp] theorem State.modPwr_inf (s : State) (f : PwrSt → PwrSt) : (s.modPwr f).inf = s.inf :=
  (State.modPwr_foot ..).eq .inf rfl
@[simp] theorem State.modPwr_otp (s : State) (f : PwrSt → PwrSt) : (s.modPwr f).otp = s.otp :=
  (State.modPwr_foot ..).eq .otp rfl
@[simp] theorem State.modPwr_acd (s : State) (f : PwrSt → PwrSt) : (s.modPwr f).acd = s.acd :=
  (State.modPwr_foot ..).eq .acd rfl
@[simp] theorem State.modPwr_key (s : State) (f : PwrSt → PwrSt) : (s.modPwr f).key = s.key :=
  (State.modPwr_foot ..).eq .key rfl
@[simp] theorem State.modPwr_fw (s : State) (f : PwrSt → PwrSt) : (s.modPwr f).fw = s.fw :=
  (State.modPwr_foot ..).eq .fw rfl
@[simp] theorem State.modPwr_ses (s : State) (f : PwrSt → PwrSt) : (s.modPwr f).ses = s.ses :=
  (State.modPwr_foot ..).eq .ses rfl
@[simp] theorem State.modPwr_sec (s : State) (f : PwrSt → PwrSt) : (s.modPwr f).sec = s.sec :=
  (State.modPwr_foot ..).eq .sec rfl
@[simp] theorem State.modPwr_flash (s : State) (f : PwrSt → PwrSt) : (s.modPwr f).flash = s.flash :=
  (State.modPwr_foot ..).eq .flash rfl
@[simp] theorem State.modPwr_bus (s : State) (f : PwrSt → PwrSt) : (s.modPwr f).bus = s.bus :=
  (State.modPwr_foot ..).eq .bus rfl
@[simp] theorem State.modPwr_mem (s : State) (f : PwrSt → PwrSt) : (s.modPwr f).mem = s.mem :=
  (State.modPwr_foot ..).eq .mem rfl
@[simp] theorem State.modPwr_fresh (s : State) (f : PwrSt → PwrSt) : (s.modPwr f).fresh = s.fresh :=
  (State.modPwr_foot ..).eq .fresh rfl
@[simp] theorem State.modPwr_pending (s : State) (f : PwrSt → PwrSt) : (s.modPwr f).pending = s.pending :=
  (State.modPwr_foot ..).eq .pending rfl
@[simp] theorem State.modPwr_get (s : State) (f : PwrSt → PwrSt) (g : Fld) : (s.modPwr f).get g = s.get g :=
  State.get_of_regs (State.modPwr_regs ..) g
@[simp] theorem State.modPwr_on (s : State) (f : PwrSt → PwrSt) (g : Fld) : (s.modPwr f).on g = s.on g :=
  State.on_of_regs (State.modPwr_regs ..) g

@[simp] theorem State.modBrg_regs (s : State) (f : BrgSt → BrgSt) : (s.modBrg f).regs = s.regs :=
  (State.modBrg_foot ..).eq .regs rfl
@[simp] theorem State.modBrg_time (s : State) (f : BrgSt → BrgSt) : (s.modBrg f).time = s.time :=
  (State.modBrg_foot ..).eq .time rfl
@[simp] theorem State.modBrg_clk (s : State) (f : BrgSt → BrgSt) : (s.modBrg f).clk = s.clk :=
  (State.modBrg_foot ..).eq .clk rfl
@[simp] theorem State.modBrg_sil (s : State) (f : BrgSt → BrgSt) : (s.modBrg f).sil = s.sil :=
  (State.modBrg_foot ..).eq .sil rfl
@[simp] theorem State.modBrg_nvm (s : State) (f : BrgSt → BrgSt) : (s.modBrg f).nvm = s.nvm :=
  (State.modBrg_foot ..).eq .nvm rfl
@[simp] theorem State.modBrg_pwr (s : State) (f : BrgSt → BrgSt) : (s.modBrg f).pwr = s.pwr :=
  (State.modBrg_foot ..).eq .pwr rfl
@[simp] theorem State.modBrg_tw (s : State) (f : BrgSt → BrgSt) : (s.modBrg f).tw = s.tw :=
  (State.modBrg_foot ..).eq .tw rfl
@[simp] theorem State.modBrg_seq (s : State) (f : BrgSt → BrgSt) : (s.modBrg f).seq = s.seq :=
  (State.modBrg_foot ..).eq .seq rfl
@[simp] theorem State.modBrg_tamp (s : State) (f : BrgSt → BrgSt) : (s.modBrg f).tamp = s.tamp :=
  (State.modBrg_foot ..).eq .tamp rfl
@[simp] theorem State.modBrg_cool (s : State) (f : BrgSt → BrgSt) : (s.modBrg f).cool = s.cool :=
  (State.modBrg_foot ..).eq .cool rfl
@[simp] theorem State.modBrg_tel (s : State) (f : BrgSt → BrgSt) : (s.modBrg f).tel = s.tel :=
  (State.modBrg_foot ..).eq .tel rfl
@[simp] theorem State.modBrg_inf (s : State) (f : BrgSt → BrgSt) : (s.modBrg f).inf = s.inf :=
  (State.modBrg_foot ..).eq .inf rfl
@[simp] theorem State.modBrg_otp (s : State) (f : BrgSt → BrgSt) : (s.modBrg f).otp = s.otp :=
  (State.modBrg_foot ..).eq .otp rfl
@[simp] theorem State.modBrg_acd (s : State) (f : BrgSt → BrgSt) : (s.modBrg f).acd = s.acd :=
  (State.modBrg_foot ..).eq .acd rfl
@[simp] theorem State.modBrg_key (s : State) (f : BrgSt → BrgSt) : (s.modBrg f).key = s.key :=
  (State.modBrg_foot ..).eq .key rfl
@[simp] theorem State.modBrg_fw (s : State) (f : BrgSt → BrgSt) : (s.modBrg f).fw = s.fw :=
  (State.modBrg_foot ..).eq .fw rfl
@[simp] theorem State.modBrg_ses (s : State) (f : BrgSt → BrgSt) : (s.modBrg f).ses = s.ses :=
  (State.modBrg_foot ..).eq .ses rfl
@[simp] theorem State.modBrg_sec (s : State) (f : BrgSt → BrgSt) : (s.modBrg f).sec = s.sec :=
  (State.modBrg_foot ..).eq .sec rfl
@[simp] theorem State.modBrg_flash (s : State) (f : BrgSt → BrgSt) : (s.modBrg f).flash = s.flash :=
  (State.modBrg_foot ..).eq .flash rfl
@[simp] theorem State.modBrg_bus (s : State) (f : BrgSt → BrgSt) : (s.modBrg f).bus = s.bus :=
  (State.modBrg_foot ..).eq .bus rfl
@[simp] theorem State.modBrg_mem (s : State) (f : BrgSt → BrgSt) : (s.modBrg f).mem = s.mem :=
  (State.modBrg_foot ..).eq .mem rfl
@[simp] theorem State.modBrg_fresh (s : State) (f : BrgSt → BrgSt) : (s.modBrg f).fresh = s.fresh :=
  (State.modBrg_foot ..).eq .fresh rfl
@[simp] theorem State.modBrg_pending (s : State) (f : BrgSt → BrgSt) : (s.modBrg f).pending = s.pending :=
  (State.modBrg_foot ..).eq .pending rfl
@[simp] theorem State.modBrg_get (s : State) (f : BrgSt → BrgSt) (g : Fld) : (s.modBrg f).get g = s.get g :=
  State.get_of_regs (State.modBrg_regs ..) g
@[simp] theorem State.modBrg_on (s : State) (f : BrgSt → BrgSt) (g : Fld) : (s.modBrg f).on g = s.on g :=
  State.on_of_regs (State.modBrg_regs ..) g

@[simp] theorem State.modNvm_regs (s : State) (f : NvmSt → NvmSt) : (s.modNvm f).regs = s.regs :=
  (State.modNvm_foot ..).eq .regs rfl
@[simp] theorem State.modNvm_time (s : State) (f : NvmSt → NvmSt) : (s.modNvm f).time = s.time :=
  (State.modNvm_foot ..).eq .time rfl
@[simp] theorem State.modNvm_clk (s : State) (f : NvmSt → NvmSt) : (s.modNvm f).clk = s.clk :=
  (State.modNvm_foot ..).eq .clk rfl
@[simp] theorem State.modNvm_sil (s : State) (f : NvmSt → NvmSt) : (s.modNvm f).sil = s.sil :=
  (State.modNvm_foot ..).eq .sil rfl
@[simp] theorem State.modNvm_pwr (s : State) (f : NvmSt → NvmSt) : (s.modNvm f).pwr = s.pwr :=
  (State.modNvm_foot ..).eq .pwr rfl
@[simp] theorem State.modNvm_brg (s : State) (f : NvmSt → NvmSt) : (s.modNvm f).brg = s.brg :=
  (State.modNvm_foot ..).eq .brg rfl
@[simp] theorem State.modNvm_tw (s : State) (f : NvmSt → NvmSt) : (s.modNvm f).tw = s.tw :=
  (State.modNvm_foot ..).eq .tw rfl
@[simp] theorem State.modNvm_seq (s : State) (f : NvmSt → NvmSt) : (s.modNvm f).seq = s.seq :=
  (State.modNvm_foot ..).eq .seq rfl
@[simp] theorem State.modNvm_tamp (s : State) (f : NvmSt → NvmSt) : (s.modNvm f).tamp = s.tamp :=
  (State.modNvm_foot ..).eq .tamp rfl
@[simp] theorem State.modNvm_cool (s : State) (f : NvmSt → NvmSt) : (s.modNvm f).cool = s.cool :=
  (State.modNvm_foot ..).eq .cool rfl
@[simp] theorem State.modNvm_tel (s : State) (f : NvmSt → NvmSt) : (s.modNvm f).tel = s.tel :=
  (State.modNvm_foot ..).eq .tel rfl
@[simp] theorem State.modNvm_inf (s : State) (f : NvmSt → NvmSt) : (s.modNvm f).inf = s.inf :=
  (State.modNvm_foot ..).eq .inf rfl
@[simp] theorem State.modNvm_otp (s : State) (f : NvmSt → NvmSt) : (s.modNvm f).otp = s.otp :=
  (State.modNvm_foot ..).eq .otp rfl
@[simp] theorem State.modNvm_acd (s : State) (f : NvmSt → NvmSt) : (s.modNvm f).acd = s.acd :=
  (State.modNvm_foot ..).eq .acd rfl
@[simp] theorem State.modNvm_key (s : State) (f : NvmSt → NvmSt) : (s.modNvm f).key = s.key :=
  (State.modNvm_foot ..).eq .key rfl
@[simp] theorem State.modNvm_fw (s : State) (f : NvmSt → NvmSt) : (s.modNvm f).fw = s.fw :=
  (State.modNvm_foot ..).eq .fw rfl
@[simp] theorem State.modNvm_ses (s : State) (f : NvmSt → NvmSt) : (s.modNvm f).ses = s.ses :=
  (State.modNvm_foot ..).eq .ses rfl
@[simp] theorem State.modNvm_sec (s : State) (f : NvmSt → NvmSt) : (s.modNvm f).sec = s.sec :=
  (State.modNvm_foot ..).eq .sec rfl
@[simp] theorem State.modNvm_flash (s : State) (f : NvmSt → NvmSt) : (s.modNvm f).flash = s.flash :=
  (State.modNvm_foot ..).eq .flash rfl
@[simp] theorem State.modNvm_bus (s : State) (f : NvmSt → NvmSt) : (s.modNvm f).bus = s.bus :=
  (State.modNvm_foot ..).eq .bus rfl
@[simp] theorem State.modNvm_mem (s : State) (f : NvmSt → NvmSt) : (s.modNvm f).mem = s.mem :=
  (State.modNvm_foot ..).eq .mem rfl
@[simp] theorem State.modNvm_fresh (s : State) (f : NvmSt → NvmSt) : (s.modNvm f).fresh = s.fresh :=
  (State.modNvm_foot ..).eq .fresh rfl
@[simp] theorem State.modNvm_pending (s : State) (f : NvmSt → NvmSt) : (s.modNvm f).pending = s.pending :=
  (State.modNvm_foot ..).eq .pending rfl
@[simp] theorem State.modNvm_get (s : State) (f : NvmSt → NvmSt) (g : Fld) : (s.modNvm f).get g = s.get g :=
  State.get_of_regs (State.modNvm_regs ..) g
@[simp] theorem State.modNvm_on (s : State) (f : NvmSt → NvmSt) (g : Fld) : (s.modNvm f).on g = s.on g :=
  State.on_of_regs (State.modNvm_regs ..) g

@[simp] theorem State.modKey_regs (s : State) (f : KeySt → KeySt) : (s.modKey f).regs = s.regs :=
  (State.modKey_foot ..).eq .regs rfl
@[simp] theorem State.modKey_time (s : State) (f : KeySt → KeySt) : (s.modKey f).time = s.time :=
  (State.modKey_foot ..).eq .time rfl
@[simp] theorem State.modKey_clk (s : State) (f : KeySt → KeySt) : (s.modKey f).clk = s.clk :=
  (State.modKey_foot ..).eq .clk rfl
@[simp] theorem State.modKey_sil (s : State) (f : KeySt → KeySt) : (s.modKey f).sil = s.sil :=
  (State.modKey_foot ..).eq .sil rfl
@[simp] theorem State.modKey_nvm (s : State) (f : KeySt → KeySt) : (s.modKey f).nvm = s.nvm :=
  (State.modKey_foot ..).eq .nvm rfl
@[simp] theorem State.modKey_pwr (s : State) (f : KeySt → KeySt) : (s.modKey f).pwr = s.pwr :=
  (State.modKey_foot ..).eq .pwr rfl
@[simp] theorem State.modKey_brg (s : State) (f : KeySt → KeySt) : (s.modKey f).brg = s.brg :=
  (State.modKey_foot ..).eq .brg rfl
@[simp] theorem State.modKey_tw (s : State) (f : KeySt → KeySt) : (s.modKey f).tw = s.tw :=
  (State.modKey_foot ..).eq .tw rfl
@[simp] theorem State.modKey_seq (s : State) (f : KeySt → KeySt) : (s.modKey f).seq = s.seq :=
  (State.modKey_foot ..).eq .seq rfl
@[simp] theorem State.modKey_tamp (s : State) (f : KeySt → KeySt) : (s.modKey f).tamp = s.tamp :=
  (State.modKey_foot ..).eq .tamp rfl
@[simp] theorem State.modKey_cool (s : State) (f : KeySt → KeySt) : (s.modKey f).cool = s.cool :=
  (State.modKey_foot ..).eq .cool rfl
@[simp] theorem State.modKey_tel (s : State) (f : KeySt → KeySt) : (s.modKey f).tel = s.tel :=
  (State.modKey_foot ..).eq .tel rfl
@[simp] theorem State.modKey_inf (s : State) (f : KeySt → KeySt) : (s.modKey f).inf = s.inf :=
  (State.modKey_foot ..).eq .inf rfl
@[simp] theorem State.modKey_otp (s : State) (f : KeySt → KeySt) : (s.modKey f).otp = s.otp :=
  (State.modKey_foot ..).eq .otp rfl
@[simp] theorem State.modKey_acd (s : State) (f : KeySt → KeySt) : (s.modKey f).acd = s.acd :=
  (State.modKey_foot ..).eq .acd rfl
@[simp] theorem State.modKey_fw (s : State) (f : KeySt → KeySt) : (s.modKey f).fw = s.fw :=
  (State.modKey_foot ..).eq .fw rfl
@[simp] theorem State.modKey_ses (s : State) (f : KeySt → KeySt) : (s.modKey f).ses = s.ses :=
  (State.modKey_foot ..).eq .ses rfl
@[simp] theorem State.modKey_sec (s : State) (f : KeySt → KeySt) : (s.modKey f).sec = s.sec :=
  (State.modKey_foot ..).eq .sec rfl
@[simp] theorem State.modKey_flash (s : State) (f : KeySt → KeySt) : (s.modKey f).flash = s.flash :=
  (State.modKey_foot ..).eq .flash rfl
@[simp] theorem State.modKey_bus (s : State) (f : KeySt → KeySt) : (s.modKey f).bus = s.bus :=
  (State.modKey_foot ..).eq .bus rfl
@[simp] theorem State.modKey_mem (s : State) (f : KeySt → KeySt) : (s.modKey f).mem = s.mem :=
  (State.modKey_foot ..).eq .mem rfl
@[simp] theorem State.modKey_fresh (s : State) (f : KeySt → KeySt) : (s.modKey f).fresh = s.fresh :=
  (State.modKey_foot ..).eq .fresh rfl
@[simp] theorem State.modKey_pending (s : State) (f : KeySt → KeySt) : (s.modKey f).pending = s.pending :=
  (State.modKey_foot ..).eq .pending rfl
@[simp] theorem State.modKey_get (s : State) (f : KeySt → KeySt) (g : Fld) : (s.modKey f).get g = s.get g :=
  State.get_of_regs (State.modKey_regs ..) g
@[simp] theorem State.modKey_on (s : State) (f : KeySt → KeySt) (g : Fld) : (s.modKey f).on g = s.on g :=
  State.on_of_regs (State.modKey_regs ..) g

@[simp] theorem State.modFw_regs (s : State) (f : FwSt → FwSt) : (s.modFw f).regs = s.regs :=
  (State.modFw_foot ..).eq .regs rfl
@[simp] theorem State.modFw_time (s : State) (f : FwSt → FwSt) : (s.modFw f).time = s.time :=
  (State.modFw_foot ..).eq .time rfl
@[simp] theorem State.modFw_clk (s : State) (f : FwSt → FwSt) : (s.modFw f).clk = s.clk :=
  (State.modFw_foot ..).eq .clk rfl
@[simp] theorem State.modFw_sil (s : State) (f : FwSt → FwSt) : (s.modFw f).sil = s.sil :=
  (State.modFw_foot ..).eq .sil rfl
@[simp] theorem State.modFw_nvm (s : State) (f : FwSt → FwSt) : (s.modFw f).nvm = s.nvm :=
  (State.modFw_foot ..).eq .nvm rfl
@[simp] theorem State.modFw_pwr (s : State) (f : FwSt → FwSt) : (s.modFw f).pwr = s.pwr :=
  (State.modFw_foot ..).eq .pwr rfl
@[simp] theorem State.modFw_brg (s : State) (f : FwSt → FwSt) : (s.modFw f).brg = s.brg :=
  (State.modFw_foot ..).eq .brg rfl
@[simp] theorem State.modFw_tw (s : State) (f : FwSt → FwSt) : (s.modFw f).tw = s.tw :=
  (State.modFw_foot ..).eq .tw rfl
@[simp] theorem State.modFw_seq (s : State) (f : FwSt → FwSt) : (s.modFw f).seq = s.seq :=
  (State.modFw_foot ..).eq .seq rfl
@[simp] theorem State.modFw_tamp (s : State) (f : FwSt → FwSt) : (s.modFw f).tamp = s.tamp :=
  (State.modFw_foot ..).eq .tamp rfl
@[simp] theorem State.modFw_cool (s : State) (f : FwSt → FwSt) : (s.modFw f).cool = s.cool :=
  (State.modFw_foot ..).eq .cool rfl
@[simp] theorem State.modFw_tel (s : State) (f : FwSt → FwSt) : (s.modFw f).tel = s.tel :=
  (State.modFw_foot ..).eq .tel rfl
@[simp] theorem State.modFw_inf (s : State) (f : FwSt → FwSt) : (s.modFw f).inf = s.inf :=
  (State.modFw_foot ..).eq .inf rfl
@[simp] theorem State.modFw_otp (s : State) (f : FwSt → FwSt) : (s.modFw f).otp = s.otp :=
  (State.modFw_foot ..).eq .otp rfl
@[simp] theorem State.modFw_acd (s : State) (f : FwSt → FwSt) : (s.modFw f).acd = s.acd :=
  (State.modFw_foot ..).eq .acd rfl
@[simp] theorem State.modFw_key (s : State) (f : FwSt → FwSt) : (s.modFw f).key = s.key :=
  (State.modFw_foot ..).eq .key rfl
@[simp] theorem State.modFw_ses (s : State) (f : FwSt → FwSt) : (s.modFw f).ses = s.ses :=
  (State.modFw_foot ..).eq .ses rfl
@[simp] theorem State.modFw_sec (s : State) (f : FwSt → FwSt) : (s.modFw f).sec = s.sec :=
  (State.modFw_foot ..).eq .sec rfl
@[simp] theorem State.modFw_flash (s : State) (f : FwSt → FwSt) : (s.modFw f).flash = s.flash :=
  (State.modFw_foot ..).eq .flash rfl
@[simp] theorem State.modFw_bus (s : State) (f : FwSt → FwSt) : (s.modFw f).bus = s.bus :=
  (State.modFw_foot ..).eq .bus rfl
@[simp] theorem State.modFw_mem (s : State) (f : FwSt → FwSt) : (s.modFw f).mem = s.mem :=
  (State.modFw_foot ..).eq .mem rfl
@[simp] theorem State.modFw_fresh (s : State) (f : FwSt → FwSt) : (s.modFw f).fresh = s.fresh :=
  (State.modFw_foot ..).eq .fresh rfl
@[simp] theorem State.modFw_pending (s : State) (f : FwSt → FwSt) : (s.modFw f).pending = s.pending :=
  (State.modFw_foot ..).eq .pending rfl
@[simp] theorem State.modFw_get (s : State) (f : FwSt → FwSt) (g : Fld) : (s.modFw f).get g = s.get g :=
  State.get_of_regs (State.modFw_regs ..) g
@[simp] theorem State.modFw_on (s : State) (f : FwSt → FwSt) (g : Fld) : (s.modFw f).on g = s.on g :=
  State.on_of_regs (State.modFw_regs ..) g

@[simp] theorem State.modPort_regs (s : State) (n : Nat) (f : TwPort → TwPort) : (s.modPort n f).regs = s.regs :=
  (State.modPort_foot ..).eq .regs rfl
@[simp] theorem State.modPort_time (s : State) (n : Nat) (f : TwPort → TwPort) : (s.modPort n f).time = s.time :=
  (State.modPort_foot ..).eq .time rfl
@[simp] theorem State.modPort_clk (s : State) (n : Nat) (f : TwPort → TwPort) : (s.modPort n f).clk = s.clk :=
  (State.modPort_foot ..).eq .clk rfl
@[simp] theorem State.modPort_sil (s : State) (n : Nat) (f : TwPort → TwPort) : (s.modPort n f).sil = s.sil :=
  (State.modPort_foot ..).eq .sil rfl
@[simp] theorem State.modPort_nvm (s : State) (n : Nat) (f : TwPort → TwPort) : (s.modPort n f).nvm = s.nvm :=
  (State.modPort_foot ..).eq .nvm rfl
@[simp] theorem State.modPort_pwr (s : State) (n : Nat) (f : TwPort → TwPort) : (s.modPort n f).pwr = s.pwr :=
  (State.modPort_foot ..).eq .pwr rfl
@[simp] theorem State.modPort_brg (s : State) (n : Nat) (f : TwPort → TwPort) : (s.modPort n f).brg = s.brg :=
  (State.modPort_foot ..).eq .brg rfl
@[simp] theorem State.modPort_seq (s : State) (n : Nat) (f : TwPort → TwPort) : (s.modPort n f).seq = s.seq :=
  (State.modPort_foot ..).eq .seq rfl
@[simp] theorem State.modPort_tamp (s : State) (n : Nat) (f : TwPort → TwPort) : (s.modPort n f).tamp = s.tamp :=
  (State.modPort_foot ..).eq .tamp rfl
@[simp] theorem State.modPort_cool (s : State) (n : Nat) (f : TwPort → TwPort) : (s.modPort n f).cool = s.cool :=
  (State.modPort_foot ..).eq .cool rfl
@[simp] theorem State.modPort_tel (s : State) (n : Nat) (f : TwPort → TwPort) : (s.modPort n f).tel = s.tel :=
  (State.modPort_foot ..).eq .tel rfl
@[simp] theorem State.modPort_inf (s : State) (n : Nat) (f : TwPort → TwPort) : (s.modPort n f).inf = s.inf :=
  (State.modPort_foot ..).eq .inf rfl
@[simp] theorem State.modPort_otp (s : State) (n : Nat) (f : TwPort → TwPort) : (s.modPort n f).otp = s.otp :=
  (State.modPort_foot ..).eq .otp rfl
@[simp] theorem State.modPort_acd (s : State) (n : Nat) (f : TwPort → TwPort) : (s.modPort n f).acd = s.acd :=
  (State.modPort_foot ..).eq .acd rfl
@[simp] theorem State.modPort_key (s : State) (n : Nat) (f : TwPort → TwPort) : (s.modPort n f).key = s.key :=
  (State.modPort_foot ..).eq .key rfl
@[simp] theorem State.modPort_fw (s : State) (n : Nat) (f : TwPort → TwPort) : (s.modPort n f).fw = s.fw :=
  (State.modPort_foot ..).eq .fw rfl
@[simp] theorem State.modPort_ses (s : State) (n : Nat) (f : TwPort → TwPort) : (s.modPort n f).ses = s.ses :=
  (State.modPort_foot ..).eq .ses rfl
@[simp] theorem State.modPort_sec (s : State) (n : Nat) (f : TwPort → TwPort) : (s.modPort n f).sec = s.sec :=
  (State.modPort_foot ..).eq .sec rfl
@[simp] theorem State.modPort_flash (s : State) (n : Nat) (f : TwPort → TwPort) : (s.modPort n f).flash = s.flash :=
  (State.modPort_foot ..).eq .flash rfl
@[simp] theorem State.modPort_bus (s : State) (n : Nat) (f : TwPort → TwPort) : (s.modPort n f).bus = s.bus :=
  (State.modPort_foot ..).eq .bus rfl
@[simp] theorem State.modPort_mem (s : State) (n : Nat) (f : TwPort → TwPort) : (s.modPort n f).mem = s.mem :=
  (State.modPort_foot ..).eq .mem rfl
@[simp] theorem State.modPort_fresh (s : State) (n : Nat) (f : TwPort → TwPort) : (s.modPort n f).fresh = s.fresh :=
  (State.modPort_foot ..).eq .fresh rfl
@[simp] theorem State.modPort_pending (s : State) (n : Nat) (f : TwPort → TwPort) : (s.modPort n f).pending = s.pending :=
  (State.modPort_foot ..).eq .pending rfl
@[simp] theorem State.modPort_get (s : State) (n : Nat) (f : TwPort → TwPort) (g : Fld) : (s.modPort n f).get g = s.get g :=
  State.get_of_regs (State.modPort_regs ..) g
@[simp] theorem State.modPort_on (s : State) (n : Nat) (f : TwPort → TwPort) (g : Fld) : (s.modPort n f).on g = s.on g :=
  State.on_of_regs (State.modPort_regs ..) g

@[simp] theorem State.modCport_regs (s : State) (n : Nat) (f : ClampPort → ClampPort) : (s.modCport n f).regs = s.regs :=
  (State.modCport_foot ..).eq .regs rfl
@[simp] theorem State.modCport_time (s : State) (n : Nat) (f : ClampPort → ClampPort) : (s.modCport n f).time = s.time :=
  (State.modCport_foot ..).eq .time rfl
@[simp] theorem State.modCport_clk (s : State) (n : Nat) (f : ClampPort → ClampPort) : (s.modCport n f).clk = s.clk :=
  (State.modCport_foot ..).eq .clk rfl
@[simp] theorem State.modCport_sil (s : State) (n : Nat) (f : ClampPort → ClampPort) : (s.modCport n f).sil = s.sil :=
  (State.modCport_foot ..).eq .sil rfl
@[simp] theorem State.modCport_nvm (s : State) (n : Nat) (f : ClampPort → ClampPort) : (s.modCport n f).nvm = s.nvm :=
  (State.modCport_foot ..).eq .nvm rfl
@[simp] theorem State.modCport_pwr (s : State) (n : Nat) (f : ClampPort → ClampPort) : (s.modCport n f).pwr = s.pwr :=
  (State.modCport_foot ..).eq .pwr rfl
@[simp] theorem State.modCport_brg (s : State) (n : Nat) (f : ClampPort → ClampPort) : (s.modCport n f).brg = s.brg :=
  (State.modCport_foot ..).eq .brg rfl
@[simp] theorem State.modCport_tw (s : State) (n : Nat) (f : ClampPort → ClampPort) : (s.modCport n f).tw = s.tw :=
  (State.modCport_foot ..).eq .tw rfl
@[simp] theorem State.modCport_seq (s : State) (n : Nat) (f : ClampPort → ClampPort) : (s.modCport n f).seq = s.seq :=
  (State.modCport_foot ..).eq .seq rfl
@[simp] theorem State.modCport_cool (s : State) (n : Nat) (f : ClampPort → ClampPort) : (s.modCport n f).cool = s.cool :=
  (State.modCport_foot ..).eq .cool rfl
@[simp] theorem State.modCport_tel (s : State) (n : Nat) (f : ClampPort → ClampPort) : (s.modCport n f).tel = s.tel :=
  (State.modCport_foot ..).eq .tel rfl
@[simp] theorem State.modCport_inf (s : State) (n : Nat) (f : ClampPort → ClampPort) : (s.modCport n f).inf = s.inf :=
  (State.modCport_foot ..).eq .inf rfl
@[simp] theorem State.modCport_otp (s : State) (n : Nat) (f : ClampPort → ClampPort) : (s.modCport n f).otp = s.otp :=
  (State.modCport_foot ..).eq .otp rfl
@[simp] theorem State.modCport_acd (s : State) (n : Nat) (f : ClampPort → ClampPort) : (s.modCport n f).acd = s.acd :=
  (State.modCport_foot ..).eq .acd rfl
@[simp] theorem State.modCport_key (s : State) (n : Nat) (f : ClampPort → ClampPort) : (s.modCport n f).key = s.key :=
  (State.modCport_foot ..).eq .key rfl
@[simp] theorem State.modCport_fw (s : State) (n : Nat) (f : ClampPort → ClampPort) : (s.modCport n f).fw = s.fw :=
  (State.modCport_foot ..).eq .fw rfl
@[simp] theorem State.modCport_ses (s : State) (n : Nat) (f : ClampPort → ClampPort) : (s.modCport n f).ses = s.ses :=
  (State.modCport_foot ..).eq .ses rfl
@[simp] theorem State.modCport_sec (s : State) (n : Nat) (f : ClampPort → ClampPort) : (s.modCport n f).sec = s.sec :=
  (State.modCport_foot ..).eq .sec rfl
@[simp] theorem State.modCport_flash (s : State) (n : Nat) (f : ClampPort → ClampPort) : (s.modCport n f).flash = s.flash :=
  (State.modCport_foot ..).eq .flash rfl
@[simp] theorem State.modCport_bus (s : State) (n : Nat) (f : ClampPort → ClampPort) : (s.modCport n f).bus = s.bus :=
  (State.modCport_foot ..).eq .bus rfl
@[simp] theorem State.modCport_mem (s : State) (n : Nat) (f : ClampPort → ClampPort) : (s.modCport n f).mem = s.mem :=
  (State.modCport_foot ..).eq .mem rfl
@[simp] theorem State.modCport_fresh (s : State) (n : Nat) (f : ClampPort → ClampPort) : (s.modCport n f).fresh = s.fresh :=
  (State.modCport_foot ..).eq .fresh rfl
@[simp] theorem State.modCport_pending (s : State) (n : Nat) (f : ClampPort → ClampPort) : (s.modCport n f).pending = s.pending :=
  (State.modCport_foot ..).eq .pending rfl
@[simp] theorem State.modCport_get (s : State) (n : Nat) (f : ClampPort → ClampPort) (g : Fld) : (s.modCport n f).get g = s.get g :=
  State.get_of_regs (State.modCport_regs ..) g
@[simp] theorem State.modCport_on (s : State) (n : Nat) (f : ClampPort → ClampPort) (g : Fld) : (s.modCport n f).on g = s.on g :=
  State.on_of_regs (State.modCport_regs ..) g

@[simp] theorem State.modCh_regs (s : State) (n : Nat) (f : CoolCh → CoolCh) : (s.modCh n f).regs = s.regs :=
  (State.modCh_foot ..).eq .regs rfl
@[simp] theorem State.modCh_time (s : State) (n : Nat) (f : CoolCh → CoolCh) : (s.modCh n f).time = s.time :=
  (State.modCh_foot ..).eq .time rfl
@[simp] theorem State.modCh_clk (s : State) (n : Nat) (f : CoolCh → CoolCh) : (s.modCh n f).clk = s.clk :=
  (State.modCh_foot ..).eq .clk rfl
@[simp] theorem State.modCh_sil (s : State) (n : Nat) (f : CoolCh → CoolCh) : (s.modCh n f).sil = s.sil :=
  (State.modCh_foot ..).eq .sil rfl
@[simp] theorem State.modCh_nvm (s : State) (n : Nat) (f : CoolCh → CoolCh) : (s.modCh n f).nvm = s.nvm :=
  (State.modCh_foot ..).eq .nvm rfl
@[simp] theorem State.modCh_pwr (s : State) (n : Nat) (f : CoolCh → CoolCh) : (s.modCh n f).pwr = s.pwr :=
  (State.modCh_foot ..).eq .pwr rfl
@[simp] theorem State.modCh_brg (s : State) (n : Nat) (f : CoolCh → CoolCh) : (s.modCh n f).brg = s.brg :=
  (State.modCh_foot ..).eq .brg rfl
@[simp] theorem State.modCh_tw (s : State) (n : Nat) (f : CoolCh → CoolCh) : (s.modCh n f).tw = s.tw :=
  (State.modCh_foot ..).eq .tw rfl
@[simp] theorem State.modCh_seq (s : State) (n : Nat) (f : CoolCh → CoolCh) : (s.modCh n f).seq = s.seq :=
  (State.modCh_foot ..).eq .seq rfl
@[simp] theorem State.modCh_tamp (s : State) (n : Nat) (f : CoolCh → CoolCh) : (s.modCh n f).tamp = s.tamp :=
  (State.modCh_foot ..).eq .tamp rfl
@[simp] theorem State.modCh_tel (s : State) (n : Nat) (f : CoolCh → CoolCh) : (s.modCh n f).tel = s.tel :=
  (State.modCh_foot ..).eq .tel rfl
@[simp] theorem State.modCh_inf (s : State) (n : Nat) (f : CoolCh → CoolCh) : (s.modCh n f).inf = s.inf :=
  (State.modCh_foot ..).eq .inf rfl
@[simp] theorem State.modCh_otp (s : State) (n : Nat) (f : CoolCh → CoolCh) : (s.modCh n f).otp = s.otp :=
  (State.modCh_foot ..).eq .otp rfl
@[simp] theorem State.modCh_acd (s : State) (n : Nat) (f : CoolCh → CoolCh) : (s.modCh n f).acd = s.acd :=
  (State.modCh_foot ..).eq .acd rfl
@[simp] theorem State.modCh_key (s : State) (n : Nat) (f : CoolCh → CoolCh) : (s.modCh n f).key = s.key :=
  (State.modCh_foot ..).eq .key rfl
@[simp] theorem State.modCh_fw (s : State) (n : Nat) (f : CoolCh → CoolCh) : (s.modCh n f).fw = s.fw :=
  (State.modCh_foot ..).eq .fw rfl
@[simp] theorem State.modCh_ses (s : State) (n : Nat) (f : CoolCh → CoolCh) : (s.modCh n f).ses = s.ses :=
  (State.modCh_foot ..).eq .ses rfl
@[simp] theorem State.modCh_sec (s : State) (n : Nat) (f : CoolCh → CoolCh) : (s.modCh n f).sec = s.sec :=
  (State.modCh_foot ..).eq .sec rfl
@[simp] theorem State.modCh_flash (s : State) (n : Nat) (f : CoolCh → CoolCh) : (s.modCh n f).flash = s.flash :=
  (State.modCh_foot ..).eq .flash rfl
@[simp] theorem State.modCh_bus (s : State) (n : Nat) (f : CoolCh → CoolCh) : (s.modCh n f).bus = s.bus :=
  (State.modCh_foot ..).eq .bus rfl
@[simp] theorem State.modCh_mem (s : State) (n : Nat) (f : CoolCh → CoolCh) : (s.modCh n f).mem = s.mem :=
  (State.modCh_foot ..).eq .mem rfl
@[simp] theorem State.modCh_fresh (s : State) (n : Nat) (f : CoolCh → CoolCh) : (s.modCh n f).fresh = s.fresh :=
  (State.modCh_foot ..).eq .fresh rfl
@[simp] theorem State.modCh_pending (s : State) (n : Nat) (f : CoolCh → CoolCh) : (s.modCh n f).pending = s.pending :=
  (State.modCh_foot ..).eq .pending rfl
@[simp] theorem State.modCh_get (s : State) (n : Nat) (f : CoolCh → CoolCh) (g : Fld) : (s.modCh n f).get g = s.get g :=
  State.get_of_regs (State.modCh_regs ..) g
@[simp] theorem State.modCh_on (s : State) (n : Nat) (f : CoolCh → CoolCh) (g : Fld) : (s.modCh n f).on g = s.on g :=
  State.on_of_regs (State.modCh_regs ..) g

@[simp] theorem State.modPump_regs (s : State) (n : Nat) (f : PumpSt → PumpSt) : (s.modPump n f).regs = s.regs :=
  (State.modPump_foot ..).eq .regs rfl
@[simp] theorem State.modPump_time (s : State) (n : Nat) (f : PumpSt → PumpSt) : (s.modPump n f).time = s.time :=
  (State.modPump_foot ..).eq .time rfl
@[simp] theorem State.modPump_clk (s : State) (n : Nat) (f : PumpSt → PumpSt) : (s.modPump n f).clk = s.clk :=
  (State.modPump_foot ..).eq .clk rfl
@[simp] theorem State.modPump_sil (s : State) (n : Nat) (f : PumpSt → PumpSt) : (s.modPump n f).sil = s.sil :=
  (State.modPump_foot ..).eq .sil rfl
@[simp] theorem State.modPump_nvm (s : State) (n : Nat) (f : PumpSt → PumpSt) : (s.modPump n f).nvm = s.nvm :=
  (State.modPump_foot ..).eq .nvm rfl
@[simp] theorem State.modPump_pwr (s : State) (n : Nat) (f : PumpSt → PumpSt) : (s.modPump n f).pwr = s.pwr :=
  (State.modPump_foot ..).eq .pwr rfl
@[simp] theorem State.modPump_brg (s : State) (n : Nat) (f : PumpSt → PumpSt) : (s.modPump n f).brg = s.brg :=
  (State.modPump_foot ..).eq .brg rfl
@[simp] theorem State.modPump_tw (s : State) (n : Nat) (f : PumpSt → PumpSt) : (s.modPump n f).tw = s.tw :=
  (State.modPump_foot ..).eq .tw rfl
@[simp] theorem State.modPump_seq (s : State) (n : Nat) (f : PumpSt → PumpSt) : (s.modPump n f).seq = s.seq :=
  (State.modPump_foot ..).eq .seq rfl
@[simp] theorem State.modPump_tamp (s : State) (n : Nat) (f : PumpSt → PumpSt) : (s.modPump n f).tamp = s.tamp :=
  (State.modPump_foot ..).eq .tamp rfl
@[simp] theorem State.modPump_tel (s : State) (n : Nat) (f : PumpSt → PumpSt) : (s.modPump n f).tel = s.tel :=
  (State.modPump_foot ..).eq .tel rfl
@[simp] theorem State.modPump_inf (s : State) (n : Nat) (f : PumpSt → PumpSt) : (s.modPump n f).inf = s.inf :=
  (State.modPump_foot ..).eq .inf rfl
@[simp] theorem State.modPump_otp (s : State) (n : Nat) (f : PumpSt → PumpSt) : (s.modPump n f).otp = s.otp :=
  (State.modPump_foot ..).eq .otp rfl
@[simp] theorem State.modPump_acd (s : State) (n : Nat) (f : PumpSt → PumpSt) : (s.modPump n f).acd = s.acd :=
  (State.modPump_foot ..).eq .acd rfl
@[simp] theorem State.modPump_key (s : State) (n : Nat) (f : PumpSt → PumpSt) : (s.modPump n f).key = s.key :=
  (State.modPump_foot ..).eq .key rfl
@[simp] theorem State.modPump_fw (s : State) (n : Nat) (f : PumpSt → PumpSt) : (s.modPump n f).fw = s.fw :=
  (State.modPump_foot ..).eq .fw rfl
@[simp] theorem State.modPump_ses (s : State) (n : Nat) (f : PumpSt → PumpSt) : (s.modPump n f).ses = s.ses :=
  (State.modPump_foot ..).eq .ses rfl
@[simp] theorem State.modPump_sec (s : State) (n : Nat) (f : PumpSt → PumpSt) : (s.modPump n f).sec = s.sec :=
  (State.modPump_foot ..).eq .sec rfl
@[simp] theorem State.modPump_flash (s : State) (n : Nat) (f : PumpSt → PumpSt) : (s.modPump n f).flash = s.flash :=
  (State.modPump_foot ..).eq .flash rfl
@[simp] theorem State.modPump_bus (s : State) (n : Nat) (f : PumpSt → PumpSt) : (s.modPump n f).bus = s.bus :=
  (State.modPump_foot ..).eq .bus rfl
@[simp] theorem State.modPump_mem (s : State) (n : Nat) (f : PumpSt → PumpSt) : (s.modPump n f).mem = s.mem :=
  (State.modPump_foot ..).eq .mem rfl
@[simp] theorem State.modPump_fresh (s : State) (n : Nat) (f : PumpSt → PumpSt) : (s.modPump n f).fresh = s.fresh :=
  (State.modPump_foot ..).eq .fresh rfl
@[simp] theorem State.modPump_pending (s : State) (n : Nat) (f : PumpSt → PumpSt) : (s.modPump n f).pending = s.pending :=
  (State.modPump_foot ..).eq .pending rfl
@[simp] theorem State.modPump_get (s : State) (n : Nat) (f : PumpSt → PumpSt) (g : Fld) : (s.modPump n f).get g = s.get g :=
  State.get_of_regs (State.modPump_regs ..) g
@[simp] theorem State.modPump_on (s : State) (n : Nat) (f : PumpSt → PumpSt) (g : Fld) : (s.modPump n f).on g = s.on g :=
  State.on_of_regs (State.modPump_regs ..) g

@[simp] theorem State.modSlot_regs (s : State) (n : Nat) (f : ConsSt → ConsSt) : (s.modSlot n f).regs = s.regs :=
  (State.modSlot_foot ..).eq .regs rfl
@[simp] theorem State.modSlot_time (s : State) (n : Nat) (f : ConsSt → ConsSt) : (s.modSlot n f).time = s.time :=
  (State.modSlot_foot ..).eq .time rfl
@[simp] theorem State.modSlot_clk (s : State) (n : Nat) (f : ConsSt → ConsSt) : (s.modSlot n f).clk = s.clk :=
  (State.modSlot_foot ..).eq .clk rfl
@[simp] theorem State.modSlot_sil (s : State) (n : Nat) (f : ConsSt → ConsSt) : (s.modSlot n f).sil = s.sil :=
  (State.modSlot_foot ..).eq .sil rfl
@[simp] theorem State.modSlot_nvm (s : State) (n : Nat) (f : ConsSt → ConsSt) : (s.modSlot n f).nvm = s.nvm :=
  (State.modSlot_foot ..).eq .nvm rfl
@[simp] theorem State.modSlot_pwr (s : State) (n : Nat) (f : ConsSt → ConsSt) : (s.modSlot n f).pwr = s.pwr :=
  (State.modSlot_foot ..).eq .pwr rfl
@[simp] theorem State.modSlot_brg (s : State) (n : Nat) (f : ConsSt → ConsSt) : (s.modSlot n f).brg = s.brg :=
  (State.modSlot_foot ..).eq .brg rfl
@[simp] theorem State.modSlot_tw (s : State) (n : Nat) (f : ConsSt → ConsSt) : (s.modSlot n f).tw = s.tw :=
  (State.modSlot_foot ..).eq .tw rfl
@[simp] theorem State.modSlot_seq (s : State) (n : Nat) (f : ConsSt → ConsSt) : (s.modSlot n f).seq = s.seq :=
  (State.modSlot_foot ..).eq .seq rfl
@[simp] theorem State.modSlot_tamp (s : State) (n : Nat) (f : ConsSt → ConsSt) : (s.modSlot n f).tamp = s.tamp :=
  (State.modSlot_foot ..).eq .tamp rfl
@[simp] theorem State.modSlot_tel (s : State) (n : Nat) (f : ConsSt → ConsSt) : (s.modSlot n f).tel = s.tel :=
  (State.modSlot_foot ..).eq .tel rfl
@[simp] theorem State.modSlot_inf (s : State) (n : Nat) (f : ConsSt → ConsSt) : (s.modSlot n f).inf = s.inf :=
  (State.modSlot_foot ..).eq .inf rfl
@[simp] theorem State.modSlot_otp (s : State) (n : Nat) (f : ConsSt → ConsSt) : (s.modSlot n f).otp = s.otp :=
  (State.modSlot_foot ..).eq .otp rfl
@[simp] theorem State.modSlot_acd (s : State) (n : Nat) (f : ConsSt → ConsSt) : (s.modSlot n f).acd = s.acd :=
  (State.modSlot_foot ..).eq .acd rfl
@[simp] theorem State.modSlot_key (s : State) (n : Nat) (f : ConsSt → ConsSt) : (s.modSlot n f).key = s.key :=
  (State.modSlot_foot ..).eq .key rfl
@[simp] theorem State.modSlot_fw (s : State) (n : Nat) (f : ConsSt → ConsSt) : (s.modSlot n f).fw = s.fw :=
  (State.modSlot_foot ..).eq .fw rfl
@[simp] theorem State.modSlot_ses (s : State) (n : Nat) (f : ConsSt → ConsSt) : (s.modSlot n f).ses = s.ses :=
  (State.modSlot_foot ..).eq .ses rfl
@[simp] theorem State.modSlot_sec (s : State) (n : Nat) (f : ConsSt → ConsSt) : (s.modSlot n f).sec = s.sec :=
  (State.modSlot_foot ..).eq .sec rfl
@[simp] theorem State.modSlot_flash (s : State) (n : Nat) (f : ConsSt → ConsSt) : (s.modSlot n f).flash = s.flash :=
  (State.modSlot_foot ..).eq .flash rfl
@[simp] theorem State.modSlot_bus (s : State) (n : Nat) (f : ConsSt → ConsSt) : (s.modSlot n f).bus = s.bus :=
  (State.modSlot_foot ..).eq .bus rfl
@[simp] theorem State.modSlot_mem (s : State) (n : Nat) (f : ConsSt → ConsSt) : (s.modSlot n f).mem = s.mem :=
  (State.modSlot_foot ..).eq .mem rfl
@[simp] theorem State.modSlot_fresh (s : State) (n : Nat) (f : ConsSt → ConsSt) : (s.modSlot n f).fresh = s.fresh :=
  (State.modSlot_foot ..).eq .fresh rfl
@[simp] theorem State.modSlot_pending (s : State) (n : Nat) (f : ConsSt → ConsSt) : (s.modSlot n f).pending = s.pending :=
  (State.modSlot_foot ..).eq .pending rfl
@[simp] theorem State.modSlot_get (s : State) (n : Nat) (f : ConsSt → ConsSt) (g : Fld) : (s.modSlot n f).get g = s.get g :=
  State.get_of_regs (State.modSlot_regs ..) g
@[simp] theorem State.modSlot_on (s : State) (n : Nat) (f : ConsSt → ConsSt) (g : Fld) : (s.modSlot n f).on g = s.on g :=
  State.on_of_regs (State.modSlot_regs ..) g

@[simp] theorem State.modLeak_regs (s : State) (n : Nat) (f : LeakSt → LeakSt) : (s.modLeak n f).regs = s.regs :=
  (State.modLeak_foot ..).eq .regs rfl
@[simp] theorem State.modLeak_time (s : State) (n : Nat) (f : LeakSt → LeakSt) : (s.modLeak n f).time = s.time :=
  (State.modLeak_foot ..).eq .time rfl
@[simp] theorem State.modLeak_clk (s : State) (n : Nat) (f : LeakSt → LeakSt) : (s.modLeak n f).clk = s.clk :=
  (State.modLeak_foot ..).eq .clk rfl
@[simp] theorem State.modLeak_sil (s : State) (n : Nat) (f : LeakSt → LeakSt) : (s.modLeak n f).sil = s.sil :=
  (State.modLeak_foot ..).eq .sil rfl
@[simp] theorem State.modLeak_nvm (s : State) (n : Nat) (f : LeakSt → LeakSt) : (s.modLeak n f).nvm = s.nvm :=
  (State.modLeak_foot ..).eq .nvm rfl
@[simp] theorem State.modLeak_pwr (s : State) (n : Nat) (f : LeakSt → LeakSt) : (s.modLeak n f).pwr = s.pwr :=
  (State.modLeak_foot ..).eq .pwr rfl
@[simp] theorem State.modLeak_brg (s : State) (n : Nat) (f : LeakSt → LeakSt) : (s.modLeak n f).brg = s.brg :=
  (State.modLeak_foot ..).eq .brg rfl
@[simp] theorem State.modLeak_tw (s : State) (n : Nat) (f : LeakSt → LeakSt) : (s.modLeak n f).tw = s.tw :=
  (State.modLeak_foot ..).eq .tw rfl
@[simp] theorem State.modLeak_seq (s : State) (n : Nat) (f : LeakSt → LeakSt) : (s.modLeak n f).seq = s.seq :=
  (State.modLeak_foot ..).eq .seq rfl
@[simp] theorem State.modLeak_tamp (s : State) (n : Nat) (f : LeakSt → LeakSt) : (s.modLeak n f).tamp = s.tamp :=
  (State.modLeak_foot ..).eq .tamp rfl
@[simp] theorem State.modLeak_tel (s : State) (n : Nat) (f : LeakSt → LeakSt) : (s.modLeak n f).tel = s.tel :=
  (State.modLeak_foot ..).eq .tel rfl
@[simp] theorem State.modLeak_inf (s : State) (n : Nat) (f : LeakSt → LeakSt) : (s.modLeak n f).inf = s.inf :=
  (State.modLeak_foot ..).eq .inf rfl
@[simp] theorem State.modLeak_otp (s : State) (n : Nat) (f : LeakSt → LeakSt) : (s.modLeak n f).otp = s.otp :=
  (State.modLeak_foot ..).eq .otp rfl
@[simp] theorem State.modLeak_acd (s : State) (n : Nat) (f : LeakSt → LeakSt) : (s.modLeak n f).acd = s.acd :=
  (State.modLeak_foot ..).eq .acd rfl
@[simp] theorem State.modLeak_key (s : State) (n : Nat) (f : LeakSt → LeakSt) : (s.modLeak n f).key = s.key :=
  (State.modLeak_foot ..).eq .key rfl
@[simp] theorem State.modLeak_fw (s : State) (n : Nat) (f : LeakSt → LeakSt) : (s.modLeak n f).fw = s.fw :=
  (State.modLeak_foot ..).eq .fw rfl
@[simp] theorem State.modLeak_ses (s : State) (n : Nat) (f : LeakSt → LeakSt) : (s.modLeak n f).ses = s.ses :=
  (State.modLeak_foot ..).eq .ses rfl
@[simp] theorem State.modLeak_sec (s : State) (n : Nat) (f : LeakSt → LeakSt) : (s.modLeak n f).sec = s.sec :=
  (State.modLeak_foot ..).eq .sec rfl
@[simp] theorem State.modLeak_flash (s : State) (n : Nat) (f : LeakSt → LeakSt) : (s.modLeak n f).flash = s.flash :=
  (State.modLeak_foot ..).eq .flash rfl
@[simp] theorem State.modLeak_bus (s : State) (n : Nat) (f : LeakSt → LeakSt) : (s.modLeak n f).bus = s.bus :=
  (State.modLeak_foot ..).eq .bus rfl
@[simp] theorem State.modLeak_mem (s : State) (n : Nat) (f : LeakSt → LeakSt) : (s.modLeak n f).mem = s.mem :=
  (State.modLeak_foot ..).eq .mem rfl
@[simp] theorem State.modLeak_fresh (s : State) (n : Nat) (f : LeakSt → LeakSt) : (s.modLeak n f).fresh = s.fresh :=
  (State.modLeak_foot ..).eq .fresh rfl
@[simp] theorem State.modLeak_pending (s : State) (n : Nat) (f : LeakSt → LeakSt) : (s.modLeak n f).pending = s.pending :=
  (State.modLeak_foot ..).eq .pending rfl
@[simp] theorem State.modLeak_get (s : State) (n : Nat) (f : LeakSt → LeakSt) (g : Fld) : (s.modLeak n f).get g = s.get g :=
  State.get_of_regs (State.modLeak_regs ..) g
@[simp] theorem State.modLeak_on (s : State) (n : Nat) (f : LeakSt → LeakSt) (g : Fld) : (s.modLeak n f).on g = s.on g :=
  State.on_of_regs (State.modLeak_regs ..) g

@[simp] theorem State.modIslot_regs (s : State) (n : Nat) (f : InfSlot → InfSlot) : (s.modIslot n f).regs = s.regs :=
  (State.modIslot_foot ..).eq .regs rfl
@[simp] theorem State.modIslot_time (s : State) (n : Nat) (f : InfSlot → InfSlot) : (s.modIslot n f).time = s.time :=
  (State.modIslot_foot ..).eq .time rfl
@[simp] theorem State.modIslot_clk (s : State) (n : Nat) (f : InfSlot → InfSlot) : (s.modIslot n f).clk = s.clk :=
  (State.modIslot_foot ..).eq .clk rfl
@[simp] theorem State.modIslot_sil (s : State) (n : Nat) (f : InfSlot → InfSlot) : (s.modIslot n f).sil = s.sil :=
  (State.modIslot_foot ..).eq .sil rfl
@[simp] theorem State.modIslot_nvm (s : State) (n : Nat) (f : InfSlot → InfSlot) : (s.modIslot n f).nvm = s.nvm :=
  (State.modIslot_foot ..).eq .nvm rfl
@[simp] theorem State.modIslot_pwr (s : State) (n : Nat) (f : InfSlot → InfSlot) : (s.modIslot n f).pwr = s.pwr :=
  (State.modIslot_foot ..).eq .pwr rfl
@[simp] theorem State.modIslot_brg (s : State) (n : Nat) (f : InfSlot → InfSlot) : (s.modIslot n f).brg = s.brg :=
  (State.modIslot_foot ..).eq .brg rfl
@[simp] theorem State.modIslot_tw (s : State) (n : Nat) (f : InfSlot → InfSlot) : (s.modIslot n f).tw = s.tw :=
  (State.modIslot_foot ..).eq .tw rfl
@[simp] theorem State.modIslot_seq (s : State) (n : Nat) (f : InfSlot → InfSlot) : (s.modIslot n f).seq = s.seq :=
  (State.modIslot_foot ..).eq .seq rfl
@[simp] theorem State.modIslot_tamp (s : State) (n : Nat) (f : InfSlot → InfSlot) : (s.modIslot n f).tamp = s.tamp :=
  (State.modIslot_foot ..).eq .tamp rfl
@[simp] theorem State.modIslot_cool (s : State) (n : Nat) (f : InfSlot → InfSlot) : (s.modIslot n f).cool = s.cool :=
  (State.modIslot_foot ..).eq .cool rfl
@[simp] theorem State.modIslot_tel (s : State) (n : Nat) (f : InfSlot → InfSlot) : (s.modIslot n f).tel = s.tel :=
  (State.modIslot_foot ..).eq .tel rfl
@[simp] theorem State.modIslot_otp (s : State) (n : Nat) (f : InfSlot → InfSlot) : (s.modIslot n f).otp = s.otp :=
  (State.modIslot_foot ..).eq .otp rfl
@[simp] theorem State.modIslot_acd (s : State) (n : Nat) (f : InfSlot → InfSlot) : (s.modIslot n f).acd = s.acd :=
  (State.modIslot_foot ..).eq .acd rfl
@[simp] theorem State.modIslot_key (s : State) (n : Nat) (f : InfSlot → InfSlot) : (s.modIslot n f).key = s.key :=
  (State.modIslot_foot ..).eq .key rfl
@[simp] theorem State.modIslot_fw (s : State) (n : Nat) (f : InfSlot → InfSlot) : (s.modIslot n f).fw = s.fw :=
  (State.modIslot_foot ..).eq .fw rfl
@[simp] theorem State.modIslot_ses (s : State) (n : Nat) (f : InfSlot → InfSlot) : (s.modIslot n f).ses = s.ses :=
  (State.modIslot_foot ..).eq .ses rfl
@[simp] theorem State.modIslot_sec (s : State) (n : Nat) (f : InfSlot → InfSlot) : (s.modIslot n f).sec = s.sec :=
  (State.modIslot_foot ..).eq .sec rfl
@[simp] theorem State.modIslot_flash (s : State) (n : Nat) (f : InfSlot → InfSlot) : (s.modIslot n f).flash = s.flash :=
  (State.modIslot_foot ..).eq .flash rfl
@[simp] theorem State.modIslot_bus (s : State) (n : Nat) (f : InfSlot → InfSlot) : (s.modIslot n f).bus = s.bus :=
  (State.modIslot_foot ..).eq .bus rfl
@[simp] theorem State.modIslot_mem (s : State) (n : Nat) (f : InfSlot → InfSlot) : (s.modIslot n f).mem = s.mem :=
  (State.modIslot_foot ..).eq .mem rfl
@[simp] theorem State.modIslot_fresh (s : State) (n : Nat) (f : InfSlot → InfSlot) : (s.modIslot n f).fresh = s.fresh :=
  (State.modIslot_foot ..).eq .fresh rfl
@[simp] theorem State.modIslot_pending (s : State) (n : Nat) (f : InfSlot → InfSlot) : (s.modIslot n f).pending = s.pending :=
  (State.modIslot_foot ..).eq .pending rfl
@[simp] theorem State.modIslot_get (s : State) (n : Nat) (f : InfSlot → InfSlot) (g : Fld) : (s.modIslot n f).get g = s.get g :=
  State.get_of_regs (State.modIslot_regs ..) g
@[simp] theorem State.modIslot_on (s : State) (n : Nat) (f : InfSlot → InfSlot) (g : Fld) : (s.modIslot n f).on g = s.on g :=
  State.on_of_regs (State.modIslot_regs ..) g

@[simp] theorem State.modRail_regs (s : State) (n : Nat) (f : Rail → Rail) : (s.modRail n f).regs = s.regs :=
  (State.modRail_foot ..).eq .regs rfl
@[simp] theorem State.modRail_time (s : State) (n : Nat) (f : Rail → Rail) : (s.modRail n f).time = s.time :=
  (State.modRail_foot ..).eq .time rfl
@[simp] theorem State.modRail_clk (s : State) (n : Nat) (f : Rail → Rail) : (s.modRail n f).clk = s.clk :=
  (State.modRail_foot ..).eq .clk rfl
@[simp] theorem State.modRail_sil (s : State) (n : Nat) (f : Rail → Rail) : (s.modRail n f).sil = s.sil :=
  (State.modRail_foot ..).eq .sil rfl
@[simp] theorem State.modRail_nvm (s : State) (n : Nat) (f : Rail → Rail) : (s.modRail n f).nvm = s.nvm :=
  (State.modRail_foot ..).eq .nvm rfl
@[simp] theorem State.modRail_pwr (s : State) (n : Nat) (f : Rail → Rail) : (s.modRail n f).pwr = s.pwr :=
  (State.modRail_foot ..).eq .pwr rfl
@[simp] theorem State.modRail_brg (s : State) (n : Nat) (f : Rail → Rail) : (s.modRail n f).brg = s.brg :=
  (State.modRail_foot ..).eq .brg rfl
@[simp] theorem State.modRail_tw (s : State) (n : Nat) (f : Rail → Rail) : (s.modRail n f).tw = s.tw :=
  (State.modRail_foot ..).eq .tw rfl
@[simp] theorem State.modRail_tamp (s : State) (n : Nat) (f : Rail → Rail) : (s.modRail n f).tamp = s.tamp :=
  (State.modRail_foot ..).eq .tamp rfl
@[simp] theorem State.modRail_cool (s : State) (n : Nat) (f : Rail → Rail) : (s.modRail n f).cool = s.cool :=
  (State.modRail_foot ..).eq .cool rfl
@[simp] theorem State.modRail_tel (s : State) (n : Nat) (f : Rail → Rail) : (s.modRail n f).tel = s.tel :=
  (State.modRail_foot ..).eq .tel rfl
@[simp] theorem State.modRail_inf (s : State) (n : Nat) (f : Rail → Rail) : (s.modRail n f).inf = s.inf :=
  (State.modRail_foot ..).eq .inf rfl
@[simp] theorem State.modRail_otp (s : State) (n : Nat) (f : Rail → Rail) : (s.modRail n f).otp = s.otp :=
  (State.modRail_foot ..).eq .otp rfl
@[simp] theorem State.modRail_acd (s : State) (n : Nat) (f : Rail → Rail) : (s.modRail n f).acd = s.acd :=
  (State.modRail_foot ..).eq .acd rfl
@[simp] theorem State.modRail_key (s : State) (n : Nat) (f : Rail → Rail) : (s.modRail n f).key = s.key :=
  (State.modRail_foot ..).eq .key rfl
@[simp] theorem State.modRail_fw (s : State) (n : Nat) (f : Rail → Rail) : (s.modRail n f).fw = s.fw :=
  (State.modRail_foot ..).eq .fw rfl
@[simp] theorem State.modRail_ses (s : State) (n : Nat) (f : Rail → Rail) : (s.modRail n f).ses = s.ses :=
  (State.modRail_foot ..).eq .ses rfl
@[simp] theorem State.modRail_sec (s : State) (n : Nat) (f : Rail → Rail) : (s.modRail n f).sec = s.sec :=
  (State.modRail_foot ..).eq .sec rfl
@[simp] theorem State.modRail_flash (s : State) (n : Nat) (f : Rail → Rail) : (s.modRail n f).flash = s.flash :=
  (State.modRail_foot ..).eq .flash rfl
@[simp] theorem State.modRail_bus (s : State) (n : Nat) (f : Rail → Rail) : (s.modRail n f).bus = s.bus :=
  (State.modRail_foot ..).eq .bus rfl
@[simp] theorem State.modRail_mem (s : State) (n : Nat) (f : Rail → Rail) : (s.modRail n f).mem = s.mem :=
  (State.modRail_foot ..).eq .mem rfl
@[simp] theorem State.modRail_fresh (s : State) (n : Nat) (f : Rail → Rail) : (s.modRail n f).fresh = s.fresh :=
  (State.modRail_foot ..).eq .fresh rfl
@[simp] theorem State.modRail_pending (s : State) (n : Nat) (f : Rail → Rail) : (s.modRail n f).pending = s.pending :=
  (State.modRail_foot ..).eq .pending rfl
@[simp] theorem State.modRail_get (s : State) (n : Nat) (f : Rail → Rail) (g : Fld) : (s.modRail n f).get g = s.get g :=
  State.get_of_regs (State.modRail_regs ..) g
@[simp] theorem State.modRail_on (s : State) (n : Nat) (f : Rail → Rail) (g : Fld) : (s.modRail n f).on g = s.on g :=
  State.on_of_regs (State.modRail_regs ..) g

@[simp] theorem State.modSess_regs (s : State) (n : Nat) (f : Sess → Sess) : (s.modSess n f).regs = s.regs :=
  (State.modSess_foot ..).eq .regs rfl
@[simp] theorem State.modSess_time (s : State) (n : Nat) (f : Sess → Sess) : (s.modSess n f).time = s.time :=
  (State.modSess_foot ..).eq .time rfl
@[simp] theorem State.modSess_clk (s : State) (n : Nat) (f : Sess → Sess) : (s.modSess n f).clk = s.clk :=
  (State.modSess_foot ..).eq .clk rfl
@[simp] theorem State.modSess_sil (s : State) (n : Nat) (f : Sess → Sess) : (s.modSess n f).sil = s.sil :=
  (State.modSess_foot ..).eq .sil rfl
@[simp] theorem State.modSess_nvm (s : State) (n : Nat) (f : Sess → Sess) : (s.modSess n f).nvm = s.nvm :=
  (State.modSess_foot ..).eq .nvm rfl
@[simp] theorem State.modSess_pwr (s : State) (n : Nat) (f : Sess → Sess) : (s.modSess n f).pwr = s.pwr :=
  (State.modSess_foot ..).eq .pwr rfl
@[simp] theorem State.modSess_brg (s : State) (n : Nat) (f : Sess → Sess) : (s.modSess n f).brg = s.brg :=
  (State.modSess_foot ..).eq .brg rfl
@[simp] theorem State.modSess_tw (s : State) (n : Nat) (f : Sess → Sess) : (s.modSess n f).tw = s.tw :=
  (State.modSess_foot ..).eq .tw rfl
@[simp] theorem State.modSess_seq (s : State) (n : Nat) (f : Sess → Sess) : (s.modSess n f).seq = s.seq :=
  (State.modSess_foot ..).eq .seq rfl
@[simp] theorem State.modSess_tamp (s : State) (n : Nat) (f : Sess → Sess) : (s.modSess n f).tamp = s.tamp :=
  (State.modSess_foot ..).eq .tamp rfl
@[simp] theorem State.modSess_cool (s : State) (n : Nat) (f : Sess → Sess) : (s.modSess n f).cool = s.cool :=
  (State.modSess_foot ..).eq .cool rfl
@[simp] theorem State.modSess_tel (s : State) (n : Nat) (f : Sess → Sess) : (s.modSess n f).tel = s.tel :=
  (State.modSess_foot ..).eq .tel rfl
@[simp] theorem State.modSess_inf (s : State) (n : Nat) (f : Sess → Sess) : (s.modSess n f).inf = s.inf :=
  (State.modSess_foot ..).eq .inf rfl
@[simp] theorem State.modSess_otp (s : State) (n : Nat) (f : Sess → Sess) : (s.modSess n f).otp = s.otp :=
  (State.modSess_foot ..).eq .otp rfl
@[simp] theorem State.modSess_acd (s : State) (n : Nat) (f : Sess → Sess) : (s.modSess n f).acd = s.acd :=
  (State.modSess_foot ..).eq .acd rfl
@[simp] theorem State.modSess_key (s : State) (n : Nat) (f : Sess → Sess) : (s.modSess n f).key = s.key :=
  (State.modSess_foot ..).eq .key rfl
@[simp] theorem State.modSess_fw (s : State) (n : Nat) (f : Sess → Sess) : (s.modSess n f).fw = s.fw :=
  (State.modSess_foot ..).eq .fw rfl
@[simp] theorem State.modSess_sec (s : State) (n : Nat) (f : Sess → Sess) : (s.modSess n f).sec = s.sec :=
  (State.modSess_foot ..).eq .sec rfl
@[simp] theorem State.modSess_flash (s : State) (n : Nat) (f : Sess → Sess) : (s.modSess n f).flash = s.flash :=
  (State.modSess_foot ..).eq .flash rfl
@[simp] theorem State.modSess_bus (s : State) (n : Nat) (f : Sess → Sess) : (s.modSess n f).bus = s.bus :=
  (State.modSess_foot ..).eq .bus rfl
@[simp] theorem State.modSess_mem (s : State) (n : Nat) (f : Sess → Sess) : (s.modSess n f).mem = s.mem :=
  (State.modSess_foot ..).eq .mem rfl
@[simp] theorem State.modSess_fresh (s : State) (n : Nat) (f : Sess → Sess) : (s.modSess n f).fresh = s.fresh :=
  (State.modSess_foot ..).eq .fresh rfl
@[simp] theorem State.modSess_pending (s : State) (n : Nat) (f : Sess → Sess) : (s.modSess n f).pending = s.pending :=
  (State.modSess_foot ..).eq .pending rfl
@[simp] theorem State.modSess_get (s : State) (n : Nat) (f : Sess → Sess) (g : Fld) : (s.modSess n f).get g = s.get g :=
  State.get_of_regs (State.modSess_regs ..) g
@[simp] theorem State.modSess_on (s : State) (n : Nat) (f : Sess → Sess) (g : Fld) : (s.modSess n f).on g = s.on g :=
  State.on_of_regs (State.modSess_regs ..) g

@[simp] theorem State.modLink_regs (s : State) (n : Nat) (f : TlSt → TlSt) : (s.modLink n f).regs = s.regs :=
  (State.modLink_foot ..).eq .regs rfl
@[simp] theorem State.modLink_time (s : State) (n : Nat) (f : TlSt → TlSt) : (s.modLink n f).time = s.time :=
  (State.modLink_foot ..).eq .time rfl
@[simp] theorem State.modLink_clk (s : State) (n : Nat) (f : TlSt → TlSt) : (s.modLink n f).clk = s.clk :=
  (State.modLink_foot ..).eq .clk rfl
@[simp] theorem State.modLink_sil (s : State) (n : Nat) (f : TlSt → TlSt) : (s.modLink n f).sil = s.sil :=
  (State.modLink_foot ..).eq .sil rfl
@[simp] theorem State.modLink_nvm (s : State) (n : Nat) (f : TlSt → TlSt) : (s.modLink n f).nvm = s.nvm :=
  (State.modLink_foot ..).eq .nvm rfl
@[simp] theorem State.modLink_pwr (s : State) (n : Nat) (f : TlSt → TlSt) : (s.modLink n f).pwr = s.pwr :=
  (State.modLink_foot ..).eq .pwr rfl
@[simp] theorem State.modLink_brg (s : State) (n : Nat) (f : TlSt → TlSt) : (s.modLink n f).brg = s.brg :=
  (State.modLink_foot ..).eq .brg rfl
@[simp] theorem State.modLink_tw (s : State) (n : Nat) (f : TlSt → TlSt) : (s.modLink n f).tw = s.tw :=
  (State.modLink_foot ..).eq .tw rfl
@[simp] theorem State.modLink_seq (s : State) (n : Nat) (f : TlSt → TlSt) : (s.modLink n f).seq = s.seq :=
  (State.modLink_foot ..).eq .seq rfl
@[simp] theorem State.modLink_tamp (s : State) (n : Nat) (f : TlSt → TlSt) : (s.modLink n f).tamp = s.tamp :=
  (State.modLink_foot ..).eq .tamp rfl
@[simp] theorem State.modLink_cool (s : State) (n : Nat) (f : TlSt → TlSt) : (s.modLink n f).cool = s.cool :=
  (State.modLink_foot ..).eq .cool rfl
@[simp] theorem State.modLink_inf (s : State) (n : Nat) (f : TlSt → TlSt) : (s.modLink n f).inf = s.inf :=
  (State.modLink_foot ..).eq .inf rfl
@[simp] theorem State.modLink_otp (s : State) (n : Nat) (f : TlSt → TlSt) : (s.modLink n f).otp = s.otp :=
  (State.modLink_foot ..).eq .otp rfl
@[simp] theorem State.modLink_acd (s : State) (n : Nat) (f : TlSt → TlSt) : (s.modLink n f).acd = s.acd :=
  (State.modLink_foot ..).eq .acd rfl
@[simp] theorem State.modLink_key (s : State) (n : Nat) (f : TlSt → TlSt) : (s.modLink n f).key = s.key :=
  (State.modLink_foot ..).eq .key rfl
@[simp] theorem State.modLink_fw (s : State) (n : Nat) (f : TlSt → TlSt) : (s.modLink n f).fw = s.fw :=
  (State.modLink_foot ..).eq .fw rfl
@[simp] theorem State.modLink_ses (s : State) (n : Nat) (f : TlSt → TlSt) : (s.modLink n f).ses = s.ses :=
  (State.modLink_foot ..).eq .ses rfl
@[simp] theorem State.modLink_sec (s : State) (n : Nat) (f : TlSt → TlSt) : (s.modLink n f).sec = s.sec :=
  (State.modLink_foot ..).eq .sec rfl
@[simp] theorem State.modLink_flash (s : State) (n : Nat) (f : TlSt → TlSt) : (s.modLink n f).flash = s.flash :=
  (State.modLink_foot ..).eq .flash rfl
@[simp] theorem State.modLink_bus (s : State) (n : Nat) (f : TlSt → TlSt) : (s.modLink n f).bus = s.bus :=
  (State.modLink_foot ..).eq .bus rfl
@[simp] theorem State.modLink_mem (s : State) (n : Nat) (f : TlSt → TlSt) : (s.modLink n f).mem = s.mem :=
  (State.modLink_foot ..).eq .mem rfl
@[simp] theorem State.modLink_fresh (s : State) (n : Nat) (f : TlSt → TlSt) : (s.modLink n f).fresh = s.fresh :=
  (State.modLink_foot ..).eq .fresh rfl
@[simp] theorem State.modLink_pending (s : State) (n : Nat) (f : TlSt → TlSt) : (s.modLink n f).pending = s.pending :=
  (State.modLink_foot ..).eq .pending rfl
@[simp] theorem State.modLink_get (s : State) (n : Nat) (f : TlSt → TlSt) (g : Fld) : (s.modLink n f).get g = s.get g :=
  State.get_of_regs (State.modLink_regs ..) g
@[simp] theorem State.modLink_on (s : State) (n : Nat) (f : TlSt → TlSt) (g : Fld) : (s.modLink n f).on g = s.on g :=
  State.on_of_regs (State.modLink_regs ..) g

@[simp] theorem State.setCore_time (s : State) (c st : Nat) : (s.setCore c st).time = s.time :=
  (State.setCore_foot ..).eq .time rfl
@[simp] theorem State.setCore_clk (s : State) (c st : Nat) : (s.setCore c st).clk = s.clk :=
  (State.setCore_foot ..).eq .clk rfl
@[simp] theorem State.setCore_sil (s : State) (c st : Nat) : (s.setCore c st).sil = s.sil :=
  (State.setCore_foot ..).eq .sil rfl
@[simp] theorem State.setCore_nvm (s : State) (c st : Nat) : (s.setCore c st).nvm = s.nvm :=
  (State.setCore_foot ..).eq .nvm rfl
@[simp] theorem State.setCore_pwr (s : State) (c st : Nat) : (s.setCore c st).pwr = s.pwr :=
  (State.setCore_foot ..).eq .pwr rfl
@[simp] theorem State.setCore_brg (s : State) (c st : Nat) : (s.setCore c st).brg = s.brg :=
  (State.setCore_foot ..).eq .brg rfl
@[simp] theorem State.setCore_tw (s : State) (c st : Nat) : (s.setCore c st).tw = s.tw :=
  (State.setCore_foot ..).eq .tw rfl
@[simp] theorem State.setCore_seq (s : State) (c st : Nat) : (s.setCore c st).seq = s.seq :=
  (State.setCore_foot ..).eq .seq rfl
@[simp] theorem State.setCore_tamp (s : State) (c st : Nat) : (s.setCore c st).tamp = s.tamp :=
  (State.setCore_foot ..).eq .tamp rfl
@[simp] theorem State.setCore_cool (s : State) (c st : Nat) : (s.setCore c st).cool = s.cool :=
  (State.setCore_foot ..).eq .cool rfl
@[simp] theorem State.setCore_tel (s : State) (c st : Nat) : (s.setCore c st).tel = s.tel :=
  (State.setCore_foot ..).eq .tel rfl
@[simp] theorem State.setCore_inf (s : State) (c st : Nat) : (s.setCore c st).inf = s.inf :=
  (State.setCore_foot ..).eq .inf rfl
@[simp] theorem State.setCore_otp (s : State) (c st : Nat) : (s.setCore c st).otp = s.otp :=
  (State.setCore_foot ..).eq .otp rfl
@[simp] theorem State.setCore_acd (s : State) (c st : Nat) : (s.setCore c st).acd = s.acd :=
  (State.setCore_foot ..).eq .acd rfl
@[simp] theorem State.setCore_key (s : State) (c st : Nat) : (s.setCore c st).key = s.key :=
  (State.setCore_foot ..).eq .key rfl
@[simp] theorem State.setCore_fw (s : State) (c st : Nat) : (s.setCore c st).fw = s.fw :=
  (State.setCore_foot ..).eq .fw rfl
@[simp] theorem State.setCore_ses (s : State) (c st : Nat) : (s.setCore c st).ses = s.ses :=
  (State.setCore_foot ..).eq .ses rfl
@[simp] theorem State.setCore_sec (s : State) (c st : Nat) : (s.setCore c st).sec = s.sec :=
  (State.setCore_foot ..).eq .sec rfl
@[simp] theorem State.setCore_flash (s : State) (c st : Nat) : (s.setCore c st).flash = s.flash :=
  (State.setCore_foot ..).eq .flash rfl
@[simp] theorem State.setCore_bus (s : State) (c st : Nat) : (s.setCore c st).bus = s.bus :=
  (State.setCore_foot ..).eq .bus rfl
@[simp] theorem State.setCore_mem (s : State) (c st : Nat) : (s.setCore c st).mem = s.mem :=
  (State.setCore_foot ..).eq .mem rfl
@[simp] theorem State.setCore_fresh (s : State) (c st : Nat) : (s.setCore c st).fresh = s.fresh :=
  (State.setCore_foot ..).eq .fresh rfl
@[simp] theorem State.setCore_pending (s : State) (c st : Nat) : (s.setCore c st).pending = s.pending :=
  (State.setCore_foot ..).eq .pending rfl

@[simp] theorem State.emit_regs (s : State) (x : Sent) : (s.emit x).regs = s.regs :=
  (State.emit_foot ..).eq .regs rfl
@[simp] theorem State.emit_time (s : State) (x : Sent) : (s.emit x).time = s.time :=
  (State.emit_foot ..).eq .time rfl
@[simp] theorem State.emit_clk (s : State) (x : Sent) : (s.emit x).clk = s.clk :=
  (State.emit_foot ..).eq .clk rfl
@[simp] theorem State.emit_sil (s : State) (x : Sent) : (s.emit x).sil = s.sil :=
  (State.emit_foot ..).eq .sil rfl
@[simp] theorem State.emit_nvm (s : State) (x : Sent) : (s.emit x).nvm = s.nvm :=
  (State.emit_foot ..).eq .nvm rfl
@[simp] theorem State.emit_pwr (s : State) (x : Sent) : (s.emit x).pwr = s.pwr :=
  (State.emit_foot ..).eq .pwr rfl
@[simp] theorem State.emit_brg (s : State) (x : Sent) : (s.emit x).brg = s.brg :=
  (State.emit_foot ..).eq .brg rfl
@[simp] theorem State.emit_tw (s : State) (x : Sent) : (s.emit x).tw = s.tw :=
  (State.emit_foot ..).eq .tw rfl
@[simp] theorem State.emit_seq (s : State) (x : Sent) : (s.emit x).seq = s.seq :=
  (State.emit_foot ..).eq .seq rfl
@[simp] theorem State.emit_tamp (s : State) (x : Sent) : (s.emit x).tamp = s.tamp :=
  (State.emit_foot ..).eq .tamp rfl
@[simp] theorem State.emit_cool (s : State) (x : Sent) : (s.emit x).cool = s.cool :=
  (State.emit_foot ..).eq .cool rfl
@[simp] theorem State.emit_tel (s : State) (x : Sent) : (s.emit x).tel = s.tel :=
  (State.emit_foot ..).eq .tel rfl
@[simp] theorem State.emit_inf (s : State) (x : Sent) : (s.emit x).inf = s.inf :=
  (State.emit_foot ..).eq .inf rfl
@[simp] theorem State.emit_otp (s : State) (x : Sent) : (s.emit x).otp = s.otp :=
  (State.emit_foot ..).eq .otp rfl
@[simp] theorem State.emit_acd (s : State) (x : Sent) : (s.emit x).acd = s.acd :=
  (State.emit_foot ..).eq .acd rfl
@[simp] theorem State.emit_key (s : State) (x : Sent) : (s.emit x).key = s.key :=
  (State.emit_foot ..).eq .key rfl
@[simp] theorem State.emit_fw (s : State) (x : Sent) : (s.emit x).fw = s.fw :=
  (State.emit_foot ..).eq .fw rfl
@[simp] theorem State.emit_sec (s : State) (x : Sent) : (s.emit x).sec = s.sec :=
  (State.emit_foot ..).eq .sec rfl
@[simp] theorem State.emit_flash (s : State) (x : Sent) : (s.emit x).flash = s.flash :=
  (State.emit_foot ..).eq .flash rfl
@[simp] theorem State.emit_bus (s : State) (x : Sent) : (s.emit x).bus = s.bus :=
  (State.emit_foot ..).eq .bus rfl
@[simp] theorem State.emit_mem (s : State) (x : Sent) : (s.emit x).mem = s.mem :=
  (State.emit_foot ..).eq .mem rfl
@[simp] theorem State.emit_fresh (s : State) (x : Sent) : (s.emit x).fresh = s.fresh :=
  (State.emit_foot ..).eq .fresh rfl
@[simp] theorem State.emit_pending (s : State) (x : Sent) : (s.emit x).pending = s.pending :=
  (State.emit_foot ..).eq .pending rfl
@[simp] theorem State.emit_get (s : State) (x : Sent) (g : Fld) : (s.emit x).get g = s.get g :=
  State.get_of_regs (State.emit_regs ..) g
@[simp] theorem State.emit_on (s : State) (x : Sent) (g : Fld) : (s.emit x).on g = s.on g :=
  State.on_of_regs (State.emit_regs ..) g

@[simp] theorem State.sendBegin_regs (s : State) : (s.sendBegin).regs = s.regs :=
  (State.sendBegin_foot ..).eq .regs rfl
@[simp] theorem State.sendBegin_time (s : State) : (s.sendBegin).time = s.time :=
  (State.sendBegin_foot ..).eq .time rfl
@[simp] theorem State.sendBegin_clk (s : State) : (s.sendBegin).clk = s.clk :=
  (State.sendBegin_foot ..).eq .clk rfl
@[simp] theorem State.sendBegin_sil (s : State) : (s.sendBegin).sil = s.sil :=
  (State.sendBegin_foot ..).eq .sil rfl
@[simp] theorem State.sendBegin_nvm (s : State) : (s.sendBegin).nvm = s.nvm :=
  (State.sendBegin_foot ..).eq .nvm rfl
@[simp] theorem State.sendBegin_pwr (s : State) : (s.sendBegin).pwr = s.pwr :=
  (State.sendBegin_foot ..).eq .pwr rfl
@[simp] theorem State.sendBegin_brg (s : State) : (s.sendBegin).brg = s.brg :=
  (State.sendBegin_foot ..).eq .brg rfl
@[simp] theorem State.sendBegin_tw (s : State) : (s.sendBegin).tw = s.tw :=
  (State.sendBegin_foot ..).eq .tw rfl
@[simp] theorem State.sendBegin_seq (s : State) : (s.sendBegin).seq = s.seq :=
  (State.sendBegin_foot ..).eq .seq rfl
@[simp] theorem State.sendBegin_tamp (s : State) : (s.sendBegin).tamp = s.tamp :=
  (State.sendBegin_foot ..).eq .tamp rfl
@[simp] theorem State.sendBegin_cool (s : State) : (s.sendBegin).cool = s.cool :=
  (State.sendBegin_foot ..).eq .cool rfl
@[simp] theorem State.sendBegin_tel (s : State) : (s.sendBegin).tel = s.tel :=
  (State.sendBegin_foot ..).eq .tel rfl
@[simp] theorem State.sendBegin_inf (s : State) : (s.sendBegin).inf = s.inf :=
  (State.sendBegin_foot ..).eq .inf rfl
@[simp] theorem State.sendBegin_otp (s : State) : (s.sendBegin).otp = s.otp :=
  (State.sendBegin_foot ..).eq .otp rfl
@[simp] theorem State.sendBegin_acd (s : State) : (s.sendBegin).acd = s.acd :=
  (State.sendBegin_foot ..).eq .acd rfl
@[simp] theorem State.sendBegin_key (s : State) : (s.sendBegin).key = s.key :=
  (State.sendBegin_foot ..).eq .key rfl
@[simp] theorem State.sendBegin_fw (s : State) : (s.sendBegin).fw = s.fw :=
  (State.sendBegin_foot ..).eq .fw rfl
@[simp] theorem State.sendBegin_sec (s : State) : (s.sendBegin).sec = s.sec :=
  (State.sendBegin_foot ..).eq .sec rfl
@[simp] theorem State.sendBegin_flash (s : State) : (s.sendBegin).flash = s.flash :=
  (State.sendBegin_foot ..).eq .flash rfl
@[simp] theorem State.sendBegin_bus (s : State) : (s.sendBegin).bus = s.bus :=
  (State.sendBegin_foot ..).eq .bus rfl
@[simp] theorem State.sendBegin_mem (s : State) : (s.sendBegin).mem = s.mem :=
  (State.sendBegin_foot ..).eq .mem rfl
@[simp] theorem State.sendBegin_fresh (s : State) : (s.sendBegin).fresh = s.fresh :=
  (State.sendBegin_foot ..).eq .fresh rfl
@[simp] theorem State.sendBegin_pending (s : State) : (s.sendBegin).pending = s.pending :=
  (State.sendBegin_foot ..).eq .pending rfl
@[simp] theorem State.sendBegin_get (s : State) (g : Fld) : (s.sendBegin).get g = s.get g :=
  State.get_of_regs (State.sendBegin_regs ..) g
@[simp] theorem State.sendBegin_on (s : State) (g : Fld) : (s.sendBegin).on g = s.on g :=
  State.on_of_regs (State.sendBegin_regs ..) g

@[simp] theorem State.tickBase_regs (s : State) : (s.tickBase).regs = s.regs :=
  (State.tickBase_foot ..).eq .regs rfl
@[simp] theorem State.tickBase_clk (s : State) : (s.tickBase).clk = s.clk :=
  (State.tickBase_foot ..).eq .clk rfl
@[simp] theorem State.tickBase_sil (s : State) : (s.tickBase).sil = s.sil :=
  (State.tickBase_foot ..).eq .sil rfl
@[simp] theorem State.tickBase_nvm (s : State) : (s.tickBase).nvm = s.nvm :=
  (State.tickBase_foot ..).eq .nvm rfl
@[simp] theorem State.tickBase_pwr (s : State) : (s.tickBase).pwr = s.pwr :=
  (State.tickBase_foot ..).eq .pwr rfl
@[simp] theorem State.tickBase_brg (s : State) : (s.tickBase).brg = s.brg :=
  (State.tickBase_foot ..).eq .brg rfl
@[simp] theorem State.tickBase_tw (s : State) : (s.tickBase).tw = s.tw :=
  (State.tickBase_foot ..).eq .tw rfl
@[simp] theorem State.tickBase_seq (s : State) : (s.tickBase).seq = s.seq :=
  (State.tickBase_foot ..).eq .seq rfl
@[simp] theorem State.tickBase_tamp (s : State) : (s.tickBase).tamp = s.tamp :=
  (State.tickBase_foot ..).eq .tamp rfl
@[simp] theorem State.tickBase_cool (s : State) : (s.tickBase).cool = s.cool :=
  (State.tickBase_foot ..).eq .cool rfl
@[simp] theorem State.tickBase_tel (s : State) : (s.tickBase).tel = s.tel :=
  (State.tickBase_foot ..).eq .tel rfl
@[simp] theorem State.tickBase_inf (s : State) : (s.tickBase).inf = s.inf :=
  (State.tickBase_foot ..).eq .inf rfl
@[simp] theorem State.tickBase_otp (s : State) : (s.tickBase).otp = s.otp :=
  (State.tickBase_foot ..).eq .otp rfl
@[simp] theorem State.tickBase_acd (s : State) : (s.tickBase).acd = s.acd :=
  (State.tickBase_foot ..).eq .acd rfl
@[simp] theorem State.tickBase_key (s : State) : (s.tickBase).key = s.key :=
  (State.tickBase_foot ..).eq .key rfl
@[simp] theorem State.tickBase_fw (s : State) : (s.tickBase).fw = s.fw :=
  (State.tickBase_foot ..).eq .fw rfl
@[simp] theorem State.tickBase_ses (s : State) : (s.tickBase).ses = s.ses :=
  (State.tickBase_foot ..).eq .ses rfl
@[simp] theorem State.tickBase_sec (s : State) : (s.tickBase).sec = s.sec :=
  (State.tickBase_foot ..).eq .sec rfl
@[simp] theorem State.tickBase_flash (s : State) : (s.tickBase).flash = s.flash :=
  (State.tickBase_foot ..).eq .flash rfl
@[simp] theorem State.tickBase_bus (s : State) : (s.tickBase).bus = s.bus :=
  (State.tickBase_foot ..).eq .bus rfl
@[simp] theorem State.tickBase_mem (s : State) : (s.tickBase).mem = s.mem :=
  (State.tickBase_foot ..).eq .mem rfl
@[simp] theorem State.tickBase_fresh (s : State) : (s.tickBase).fresh = s.fresh :=
  (State.tickBase_foot ..).eq .fresh rfl
@[simp] theorem State.tickBase_pending (s : State) : (s.tickBase).pending = s.pending :=
  (State.tickBase_foot ..).eq .pending rfl
@[simp] theorem State.tickBase_get (s : State) (g : Fld) : (s.tickBase).get g = s.get g :=
  State.get_of_regs (State.tickBase_regs ..) g
@[simp] theorem State.tickBase_on (s : State) (g : Fld) : (s.tickBase).on g = s.on g :=
  State.on_of_regs (State.tickBase_regs ..) g

end Sys2Proof.Machine
end

