-- ==== Sys2Proof/WellFormed.lean ====
section
/-! DEFINITION. Which commands are well formed: the operands have the shapes the spec gives them. No meaning relies on it; an
ill-formed command is one that the outside world of the T8 cannot send. -/

namespace Sys2Proof

/-- Addresses have 40 bits (R18). -/
def addressSpace : Nat := 2 ^ 40

/-- An access: 1, 2, 4 or 8 bytes inside the address space, with data of that size, and check-bit errors only on a read; an atomic
operation writes a word or a doubleword (R9, R140, R219, R396). -/
def BusReq.wf (q : BusReq) : Bool :=
  [1, 2, 4, 8].contains q.size && decide (q.addr + q.size ≤ addressSpace) && decide (q.data < 256 ^ q.size) && !(q.write && (q.uncorr || q.corr != 0))
    && (q.amo.isNone || q.write && [4, 8].contains q.size)

/-- The bytes of a two-wire transfer: at most 255, their count and a PEC byte (R318). -/
def TwEnd.wf : TwEnd → Bool
  | .completed rx => decide (rx.length ≤ 257)
  | .arbLost _ bit rx => decide (bit < 9 ∧ rx.length ≤ 257)
  | .busErr rx => decide (rx.length ≤ 257)
  | _ => true

/-- A cold POR finds OTP field values and flash images in ascending order of place. -/
def Placed.wf (p : Placed) : Bool :=
  (p.flash.map (·.1)).Pairwise (· < ·) && (p.otp.map (·.1)).Pairwise (· < ·) && (p.digests.map (·.1)).Pairwise (· < ·)
    && decide (p.seed.length ≤ 32)

def BootIn.wf (b : BootIn) : Bool := (b.placed.map Placed.wf).getD true && decide (b.ain.length ≤ 64)

/-- A command whose operands have their shapes. -/
def Instr.wf : Instr → Bool
  | .registerWrite _ addr _ => addr % 4 == 0 && decide (addr + 4 ≤ addressSpace)
  | .forbiddenAccess _ req => req.wf
  | .ctrlRequest _ req _ _ => req.wf
  | .ctrlTimeout _ req _ => req.wf
  | .coldPor boot => boot.wf
  | .twTransactionDone _ ended => ended.wf
  | .twTimeout _ rx => decide (rx.length ≤ 257)
  | .sampleTick x => decide (x.codes.length ≤ 64)
  | .pwrgdChange _ _ x => decide (x.since ≤ x.held || x.transitions ≠ 0)
  | .fanUpdate tach => decide (tach.length ≤ 30)
  | .pumpUpdate flows => decide (flows.length ≤ 6)
  | _ => true

end Sys2Proof
end

