-- ==== Sys2Proof/Tests/Slice0.lean ====
section
/-! SUPPORT. Tests: ill-formed commands that WellFormed refuses, small values and steps from the spec's own examples, and for
every clause of every statement that has hypotheses a state and operands that meet them all. -/

open Sys2Proof Sys2Proof.Machine

set_option linter.unusedVariables false
set_option Elab.async false

/-! ### Ill-formed commands are refused -/

theorem test_wf_unaligned_register_write : (Instr.registerWrite (.keeper 0) 0x20010002 0).wf = false := by decide
theorem test_wf_address_beyond_the_map : (Instr.registerWrite (.keeper 0) 0xFFFFFFFFFFFC 0).wf = false := by decide
theorem test_wf_register_write : (Instr.registerWrite (.keeper 0) 0x20010004 0).wf = true := by decide
theorem test_wf_request_of_three_bytes : (BusReq.mk false 0x100000000 3 0 false 0 none).wf = false := by decide
theorem test_wf_request_past_the_end : (BusReq.mk false (2 ^ 40 - 2) 4 0 false 0 none).wf = false := by decide
theorem test_wf_data_too_wide : (BusReq.mk true 0x100000000 1 256 false 0 none).wf = false := by decide
theorem test_wf_write_with_read_error : (BusReq.mk true 0x100000000 4 0 true 0 none).wf = false := by decide
theorem test_wf_atomic_byte : (BusReq.mk true 0x100000000 1 0 false 0 (some .add)).wf = false := by decide
theorem test_wf_bytes_before_a_bus_error : (TwEnd.busErr (List.replicate 258 0)).wf = false := by decide +kernel
theorem test_wf_bytes_before_a_timeout : (Instr.twTimeout 0 (List.replicate 258 0)).wf = false := by decide +kernel
theorem test_wf_forbidden_access : (Instr.forbiddenAccess (.core 0) (BusReq.mk false 0x100000000 3 0 false 0 none)).wf = false := by decide
theorem test_wf_ctrl_request : (Instr.ctrlRequest (.core 0) (BusReq.mk false 0x100000000 0 0 false 0 none) ⟨0, 0⟩).wf = false := by decide
theorem test_wf_ctrl_timeout : (Instr.ctrlTimeout (.core 0) (BusReq.mk false 0x100000000 16 0 false 0 none) true).wf = false := by decide
theorem test_wf_two_wire_bytes : (TwEnd.completed (List.replicate 258 0)).wf = false := by decide +kernel
theorem test_wf_arbitration_bit : (TwEnd.arbLost 0 9).wf = false := by decide
theorem test_wf_two_wire_command : (Instr.twTransactionDone 0 (.arbLost 0 9)).wf = false := by decide
theorem test_wf_flash_order : (Placed.mk [(3, []), (1, [])] [] [] none []).wf = false := by decide
theorem test_wf_otp_order : (Placed.mk [] [(3, 0), (3, 1)] [] none []).wf = false := by decide
theorem test_wf_seed : (Placed.mk [] [] [] none (List.replicate 33 0)).wf = false := by decide
theorem test_wf_boot_input :
    (Instr.coldPor ⟨0, 0, false, false, true, [], some (Placed.mk [] [] [(2, []), (1, [])] none []), 0, [], 0, false⟩).wf = false := by decide
theorem test_wf_power_good_settled_before_it_was_held : (Instr.pwrgdChange 3 true ⟨0, 5, 9⟩).wf = false := by decide
theorem test_wf_samples : (Instr.sampleTick ⟨List.replicate 65 0, 0⟩).wf = false := by decide +kernel
theorem test_wf_tach_inputs : (Instr.fanUpdate (List.replicate 31 ⟨[], 0⟩)).wf = false := by decide +kernel
theorem test_wf_flow_inputs : (Instr.pumpUpdate (List.replicate 7 [])).wf = false := by decide +kernel

/-! ### Values of the spec's examples -/

/-- R428's example: the lost trace link of accelerator 2 has SRC 0x2902. -/
theorem test_src_of_the_example : srcOf 2 UNIT_TL 2 = 0x2902 := by decide

/-- R416: an instance above 126 reads 0x7F. -/
theorem test_src_of_a_large_instance : srcOf 8 UNIT_TAMP 200 % 0x80 = 0x7F := by decide

/-- R19: with 16 GB installed the last valid byte is 0x13_FFFF_FFFF. -/
theorem test_lpddr_end : (State.reset.set ACD_INFO.LP_CAP 16).lpddrEnd = 0x13FFFFFFFF + 1 := by decide +kernel

/-- R20: the range that belongs to no block. -/
theorem test_hole_after_the_two_wire_blocks : regionOf 0x2005C000 = .hole ∧ regionOf 0x2005BFFC = .baseRegs := by decide

/-- R139's map: slot 15 ends the region of program slots. -/
theorem test_program_slots_end : regionOf (0x0230000000 + 15 * 0x40000 + 0x3FFFF) = .infSlots := by decide

/-- R24: one period of BASE from the host reference is 12.8 ns, ten of them 128 ns. -/
theorem test_ten_base_periods :
    ((List.range 10).foldl (fun s _ => s.tickBase) (State.reset.set CLK_STS.BASE_SRC srcHost)).now = 128 := by decide +kernel

/-- R192: the rows of the division are the lower coefficients of the generator polynomial, the product of x - α^i for i from 0 to 19, times
α^0 to α^9. -/
theorem test_generator_polynomial_of_the_codewords :
    (let g := (gfPowers 20 1).foldl (fun p r => gfAddShift (p.map (gfMul r)) p 1 1) [1];
      (gfPowers 10 1).map (fun b => (g.take 20).foldr (fun c a => a * 1024 + gfMul b c) 0)) = rsRows := by decide +kernel

/-! ### Steps -/

/-- The timestamp is the only thing that an idle step moves. -/
theorem test_idle_step : (match step State.reset with | .next t => decide (t.regs = State.reset.regs ∧ t.sil = State.reset.sil) | _ => false) = true := by
  decide +kernel

/-- Two waiting commands: the first runs, the second goes on waiting. -/
theorem test_step_takes_the_front :
    (match step { State.reset with pending := [.k1Run (.keeper 0), .keepalive ⟨0, 0⟩] } with
      | .next t => decide (t.pending = [.keepalive ⟨0, 0⟩] ∧ t.on KPR_CTL.K1_RUN = true)
      | _ => false) = true := by decide +kernel

/-- R21: a Control core may not touch the Keepers' block, and the access is noted. -/
theorem test_forbidden_access_is_noted :
    (match exec (.k1Run (.core 2)) { State.reset with pwr := { toppwrEn := true, toppwrGood := true, topRst := false } } with
      | .next t => decide (t.bus = .error ∧ t.on KPR_CTL.K1_RUN = false ∧ t.on BRG_STS.BLOCKED = true)
      | _ => false) = true := by decide +kernel

/-- A register write of K1_RUN does what the command of its own does (R399). -/
theorem test_register_write_commands :
    (match exec (.registerWrite (.keeper 0) KPR_CTL.K1_RUN.addr 1) State.reset with
      | .next t => decide (t.on KPR_CTL.K1_RUN = true ∧ t.bus = .written)
      | _ => false) = true := by decide +kernel

/-! ### Hypotheses that can be met: statements without a list of clauses -/

/-- ReservedBitsAndUnassignedOffsets: a register, a reserved bit of it, an unassigned offset and a hole. -/
theorem test_ReservedBitsAndUnassignedOffsets_1 : ∃ (s : State) (ini : Initiator) (a : Nat) (beats back : Beats) (i : Nat),
    s.judge ini false a = .allowed ∧ (regionOf a).isRegs = true ∧ a % 4 = 0 ∧ plicRange a = false ∧
      (crosses ini a = true → s.vcFree vcCtrl (b2n (!iniOnTop ini)) = true ∧ (s.brg.ctrlQ.any (fun e => ctrlDir e.1 == ctrlDir ini)) = false) ∧
      beats.rejected ≤ s.get BRG_CTL.REPLAY_MAX + 1 ∧ back.rejected ≤ s.get BRG_CTL.REPLAY_MAX + 1 ∧
      (∀ f ∈ fieldsAt a, i < f.lo ∨ f.lo + f.w ≤ i) :=
  ⟨State.reset, .keeper 0, 0x20010000, ⟨0, 0⟩, ⟨0, 0⟩, 31, by decide +kernel⟩

theorem test_ReservedBitsAndUnassignedOffsets_2 : ∃ (a : Nat) (v w : Word), v ≠ w ∧ (regionOf a).isRegs = true ∧ plicRange a = false ∧
    (∀ f ∈ fieldsAt a, bitsOf v.toNat f.lo f.w = bitsOf w.toNat f.lo f.w) :=
  ⟨0x20010000, 0x80000000, 0, by decide +kernel⟩

theorem test_ReservedBitsAndUnassignedOffsets_3 : ∃ (s : State) (ini : Initiator) (a : Nat),
    s.judge ini true a = .allowed ∧ (regionOf a).isRegs = true ∧ a % 4 = 0 ∧ plicRange a = false ∧ fieldsAt a = [] :=
  ⟨State.reset, .keeper 0, 0x20010FF0, by decide +kernel⟩

theorem test_ReservedBitsAndUnassignedOffsets_4 : ∃ req : BusReq, req.wf = true ∧ regionOf req.addr = .hole :=
  ⟨⟨false, 0x2005C000, 4, 0, false, 0, none⟩, by decide⟩

theorem test_StepRunsTheFrontOfTheQueue_2 : ∃ s : State, s.pending = [] := ⟨State.reset, by decide +kernel⟩

theorem test_StepRunsTheFrontOfTheQueue_3 : ∃ s : State, s.pending = [] ∧ s.clk.held = [] ∧ s.brg.ctrlQ = [] ∧ s.sec.waits = [] ∧ s.fw.caps.tick = s.tickBase.topNow / 100000 ∧
    (∀ c < 4, s.fourCrashes c = false) :=
  ⟨State.reset, by and_intros <;> decide +kernel⟩

theorem test_StepKeepsTheCanonicalForm_1 : ∃ s t : State, s.Inv ∧ step s = .next t :=
  ⟨State.reset, State.reset.tickBase, ⟨by decide +kernel, by decide +kernel⟩, rfl⟩

theorem test_PersistentStoresHaveFewWriters_1 : ∃ (c : Instr) (s t : State), exec c s = .next t :=
  ⟨.keepalive ⟨0, 0⟩, State.reset, _, rfl⟩

/-! ### Hypotheses that can be met: one theorem for every clause -/

/-- BridgeMessagesArriveOrAreFenced, clause 1: a state and operands that meet the hypotheses. -/
theorem test_BridgeMessagesArriveOrAreFenced_1 : ∃ (s : State) (beats : Beats) (tick : Nat) (vs : List (Nat × Nat)) (q : List GuardMsg), s.brg.guardQ = .values tick vs :: q ∧ s.flows = true ∧ s.exhausted beats = false :=
  ⟨({ State.reset with brg := { guardQ := [.values 7 [(3, 9)]] } } : State).set BRG_STS.STATE 2, ⟨1, 0⟩, 7, [(3, 9)], [], by decide⟩

/-- BridgeMessagesArriveOrAreFenced, clause 2: a state and operands that meet the hypotheses. -/
theorem test_BridgeMessagesArriveOrAreFenced_2 : ∃ (s : State) (beats : Beats) (e : List Nat) (q : List BulkMsg), s.brg.bulkQ = .mirror e :: q ∧ s.brg.guardQ = [] ∧ s.ctrlWaits 0 = false ∧ s.flows = true ∧ s.exhausted beats = false :=
  ⟨({ State.reset with brg := { bulkQ := [.mirror [1, 2, 3, 4, 5, 6, 7, 8]] } } : State).set BRG_STS.STATE 2, ⟨1, 0⟩, [1, 2, 3, 4, 5, 6, 7, 8], [], by decide⟩

/-- BridgeMessagesArriveOrAreFenced, clause 3: a state and operands that meet the hypotheses. -/
theorem test_BridgeMessagesArriveOrAreFenced_3 : ∃ (s : State) (beats : Beats) (ev : Event) (q : List BulkMsg), s.brg.bulkQ = .event ev :: q ∧ s.brg.guardQ = [] ∧ s.ctrlWaits 0 = false ∧ s.flows = true ∧ s.exhausted beats = false ∧ s.get PWRST_STATE.CUR ≠ 3 :=
  ⟨({ State.reset with brg := { bulkQ := [.event (State.reset.eventOf 1 2 3 4 [])] } } : State).set BRG_STS.STATE 2, ⟨0, 0⟩, State.reset.eventOf 1 2 3 4 [], [], by decide⟩

/-- BridgeMessagesArriveOrAreFenced, clause 4: a state and operands that meet the hypotheses. -/
theorem test_BridgeMessagesArriveOrAreFenced_4 : ∃ (s : State) (beats : Beats), s.brg.guardQ ≠ [] :=
  ⟨{ State.reset with brg := { guardQ := [.values 7 [(3, 9)]] } }, ⟨0, 0⟩, by decide⟩

/-- BridgeMessagesArriveOrAreFenced, clause 5: a state and operands that meet the hypotheses. -/
theorem test_BridgeMessagesArriveOrAreFenced_5 : ∃ (s : State) (beats : Beats), s.ctrlWaits 0 = true :=
  ⟨{ State.reset with brg := { ctrlQ := [(.core 0, { write := false, addr := 0x200, size := 4, data := 0, uncorr := false, corr := 0 }, {}, {})] } }, ⟨0, 0⟩, by decide⟩

/-- BridgeMessagesArriveOrAreFenced, clause 6: a state and operands that meet the hypotheses. -/
theorem test_BridgeMessagesArriveOrAreFenced_6 : ∃ (s : State) (beats : Beats), s.flows = false :=
  ⟨State.reset, ⟨0, 0⟩, by decide⟩

/-- BridgeMessagesArriveOrAreFenced, clause 7: a state and operands that meet the hypotheses. -/
theorem test_BridgeMessagesArriveOrAreFenced_7 : ∃ (s : State) (beats : Beats), s.flows = false :=
  ⟨State.reset, ⟨0, 0⟩, by decide⟩

/-- BridgeMessagesArriveOrAreFenced, clause 8: a state and operands that meet the hypotheses. -/
theorem test_BridgeMessagesArriveOrAreFenced_8 : ∃ (s : State) (beats : Beats), s.bridgeUp = true ∧ s.exhausted beats = false :=
  ⟨State.reset.set BRG_STS.STATE 2, ⟨1, 0⟩, by decide⟩

/-- BridgeMessagesArriveOrAreFenced, clause 9: a state and operands that meet the hypotheses. -/
theorem test_BridgeMessagesArriveOrAreFenced_9 : ∃ (s : State) (beats : Beats), s.bridgeUp = false :=
  ⟨State.reset, ⟨0, 0⟩, by decide⟩

/-- BridgeMessagesArriveOrAreFenced, clause 10: a state and operands that meet the hypotheses. -/
theorem test_BridgeMessagesArriveOrAreFenced_10 : ∃ (s : State), s.bridgeUp = true :=
  ⟨State.reset.set BRG_STS.STATE 2, by decide⟩

/-- BridgeMessagesArriveOrAreFenced, clause 11: a state and operands that meet the hypotheses. -/
theorem test_BridgeMessagesArriveOrAreFenced_11 : ∃ (s : State), s.bridgeUp = false :=
  ⟨State.reset, by decide⟩

/-- BridgeMessagesArriveOrAreFenced, clause 12: a state and operands that meet the hypotheses. -/
theorem test_BridgeMessagesArriveOrAreFenced_12 : ∃ (s : State) (ini : Initiator), s.judge ini true BRG_CTL.FENCE.addr = .allowed ∧ s.brgState ≠ 4 :=
  ⟨State.reset.set BRG_STS.STATE 2, .keeper 0, by decide⟩

/-- BridgeMessagesArriveOrAreFenced, clause 13: a state and operands that meet the hypotheses. -/
theorem test_BridgeMessagesArriveOrAreFenced_13 : ∃ (s : State) (ini : Initiator), s.judge ini true BRG_CTL.FENCE.addr = .allowed ∧ s.brgState = 4 :=
  ⟨State.reset.set BRG_STS.STATE 4, .keeper 0, by decide⟩

/-- BridgeMessagesArriveOrAreFenced, clause 14: a state and operands that meet the hypotheses. -/
theorem test_BridgeMessagesArriveOrAreFenced_14 : ∃ (s : State) (beats : Beats) (tick : Nat) (vs : List (Nat × Nat)) (q : List GuardMsg), s.brg.guardQ = .values tick vs :: q ∧ s.flows = true ∧ s.exhausted beats = true :=
  ⟨({ State.reset with brg := { guardQ := [.values 7 [(3, 9)]] } } : State).set BRG_STS.STATE 2, ⟨1, 9⟩, 7, [(3, 9)], [], by decide⟩

/-- BridgeMessagesArriveOrAreFenced, clause 15: a state and operands that meet the hypotheses. -/
theorem test_BridgeMessagesArriveOrAreFenced_15 : ∃ (s : State) (beats : Beats), s.bridgeUp = true ∧ s.exhausted beats = true :=
  ⟨State.reset.set BRG_STS.STATE 2, ⟨1, 9⟩, by decide⟩

/-- BridgeMessagesArriveOrAreFenced, clause 16: a state and operands that meet the hypotheses. -/
theorem test_BridgeMessagesArriveOrAreFenced_16 : ∃ (s : State) (beats : Beats), s.bridgeUp = true ∧ s.exhausted beats = true :=
  ⟨State.reset.set BRG_STS.STATE 2, ⟨1, 9⟩, by decide⟩

/-- BridgeStateMoves, clause 1: a state and operands that meet the hypotheses. -/
theorem test_BridgeStateMoves_1 : ∃ (s : State) (ok : Bool), s.brgState = 1 ∧ s.brg.trainWait = false ∧ ok = true :=
  ⟨State.reset.set BRG_STS.STATE 1, true, by decide⟩

/-- BridgeStateMoves, clause 2: a state and operands that meet the hypotheses. -/
theorem test_BridgeStateMoves_2 : ∃ (s : State) (ok : Bool), s.brgState = 1 ∧ s.brg.trainWait = false ∧ ok = false ∧ s.pwr.bring ≠ 4 :=
  ⟨State.reset.set BRG_STS.STATE 1, false, by decide⟩

/-- BridgeStateMoves, clause 3: a state and operands that meet the hypotheses. -/
theorem test_BridgeStateMoves_3 : ∃ (s : State) (ok : Bool), s.brgState ≠ 1 :=
  ⟨State.reset, true, by decide⟩

/-- BridgeStateMoves, clause 4: a state and operands that meet the hypotheses. -/
theorem test_BridgeStateMoves_4 : ∃ (s : State), s.brgState = 1 :=
  ⟨State.reset.set BRG_STS.STATE 1, by decide⟩

/-- BridgeStateMoves, clause 5: a state and operands that meet the hypotheses. -/
theorem test_BridgeStateMoves_5 : ∃ (s : State), s.brgState ≠ 1 :=
  ⟨State.reset, by decide⟩

/-- BridgeStateMoves, clause 6: a state and operands that meet the hypotheses. -/
theorem test_BridgeStateMoves_6 : ∃ (s : State) (ini : Initiator), s.judge ini true BRG_CTL.RETRAIN.addr = .allowed ∧ s.bridgeUp = true ∧ s.pwr.topReset = false :=
  ⟨State.reset.set BRG_STS.STATE 2, .keeper 0, by decide⟩

/-- BridgeStateMoves, clause 7: a state and operands that meet the hypotheses. -/
theorem test_BridgeStateMoves_7 : ∃ (s : State) (ini : Initiator), s.judge ini true BRG_CTL.RETRAIN.addr = .allowed ∧ s.bridgeUp = false :=
  ⟨State.reset, .keeper 0, by decide⟩

/-- BridgeStateMoves, clause 8: a state and operands that meet the hypotheses. -/
theorem test_BridgeStateMoves_8 : ∃ (s : State), s.brgState = 3 ∧ s.brg.quiesceTo = .retrain :=
  ⟨({ State.reset with brg := { quiesceTo := .retrain } } : State).set BRG_STS.STATE 3, by decide⟩

/-- BridgeStateMoves, clause 9: a state and operands that meet the hypotheses. -/
theorem test_BridgeStateMoves_9 : ∃ (s : State), s.brgState ≠ 3 ∧ s.bridgeUp = false :=
  ⟨State.reset, by decide⟩

/-- BridgeStateMoves, clause 10: a state and operands that meet the hypotheses. -/
theorem test_BridgeStateMoves_10 : ∃ (s : State) (ini : Initiator), s.judge ini true BRG_CNT_CLR.CLR.addr = .allowed :=
  ⟨State.reset.set BRG_EVT_CNT.UP_CNT 5, .keeper 0, by decide⟩

/-- BridgeStateMoves, clause 11: a state and operands that meet the hypotheses. -/
theorem test_BridgeStateMoves_11 : ∃ (s : State) (beats : Beats), s.bridgeUp = true ∧ s.exhausted beats = false :=
  ⟨State.reset.set BRG_STS.STATE 2, ⟨0, 0⟩, by decide⟩

/-- BridgeStateMoves, clause 12: a state and operands that meet the hypotheses. -/
theorem test_BridgeStateMoves_12 : ∃ (s : State) (beats : Beats), s.bridgeUp = false :=
  ⟨State.reset, ⟨0, 0⟩, by decide⟩

/-- BridgeHoldAndRelease, clause 1: a state and operands that meet the hypotheses. -/
theorem test_BridgeHoldAndRelease_1 : ∃ (s : State) (beats : Beats) (ps : List Nat) (q : List GuardMsg), s.brg.guardQ = .release ps :: q ∧ s.bridgeUp = true ∧ s.exhausted beats = false ∧ s.pwr.trans = none ∧ s.pwr.topReset = false :=
  ⟨({ State.reset with brg := { guardQ := [.release [5]] } } : State).set BRG_STS.STATE 2, ⟨0, 0⟩, [5], [], by decide⟩

/-- BridgeHoldAndRelease, clause 2: a state and operands that meet the hypotheses. -/
theorem test_BridgeHoldAndRelease_2 : ∃ (s : State) (beats : Beats) (ps : List Nat) (q : List GuardMsg), s.brg.guardQ = .release ps :: q ∧ s.brgState = 3 ∧ s.exhausted beats = false ∧ s.pwr.trans = none :=
  ⟨({ State.reset with brg := { guardQ := [.release [5]] } } : State).set BRG_STS.STATE 3, ⟨0, 0⟩, [5], [], by decide⟩

/-- BridgeHoldAndRelease, clause 3: a state and operands that meet the hypotheses. -/
theorem test_BridgeHoldAndRelease_3 : ∃ (s : State) (beats : Beats), s.flows = false ∧ s.pwr.trans = none :=
  ⟨State.reset, ⟨0, 0⟩, by decide⟩

/-- BridgeHoldAndRelease, clause 4: a state and operands that meet the hypotheses. -/
theorem test_BridgeHoldAndRelease_4 : ∃ (s : State), (s.brg.hold = .holding ∨ s.brg.hold = .retraining) :=
  ⟨{ State.reset with brg := { hold := .holding } }, by decide⟩

/-- BridgeHoldAndRelease, clause 5: a state and operands that meet the hypotheses. -/
theorem test_BridgeHoldAndRelease_5 : ∃ (s : State), s.brg.hold = .inForce :=
  ⟨State.reset, by decide⟩

/-- BridgeHoldAndRelease, clause 6: a state and operands that meet the hypotheses. -/
theorem test_BridgeHoldAndRelease_6 : ∃ (s : State) (port : Fin 64), (s.cport port.val).reverting = true ∧ (s.cport port.val).kind = 1 ∧ s.get BRG_HOLD.STEP = 0 :=
  ⟨({ State.reset with tamp := { ports := modAt (List.replicate 64 {}) 5 (fun _ => { kind := 1, reverting := true, cmd := 40 }) } } : State).set BRG_HOLD.STEP 0, 5, by decide⟩

/-- BridgeHoldAndRelease, clause 7: a state and operands that meet the hypotheses. -/
theorem test_BridgeHoldAndRelease_7 : ∃ (s : State) (port : Fin 64), (s.cport port.val).reverting = true ∧ (s.cport port.val).kind = 1 ∧ s.get BRG_HOLD.STEP ≠ 0 :=
  ⟨({ State.reset with tamp := { ports := modAt (List.replicate 64 {}) 5 (fun _ => { kind := 1, reverting := true, cmd := 41 }) } } : State).set BRG_HOLD.STEP 10, 5, by decide⟩

/-- BridgeHoldAndRelease, clause 8: a state and operands that meet the hypotheses. -/
theorem test_BridgeHoldAndRelease_8 : ∃ (s : State) (port : Fin 64), ((s.cport port.val).reverting = false ∨ (s.cport port.val).kind ≠ 1) :=
  ⟨State.reset, 5, by decide⟩

/-- BridgeHoldAndRelease, clause 9: a state and operands that meet the hypotheses. -/
theorem test_BridgeHoldAndRelease_9 : ∃ (s : State) (beats : Beats) (p v : Nat) (q : List GuardMsg), s.brg.guardQ = .proposals [(p, v)] :: q ∧ s.flows = true ∧ s.exhausted beats = false ∧ p < 64 ∧ v < 2 ^ 16 ∧ s.get (INF_OUT_CFG.KIND p) ≠ 0 ∧ s.tamp.ports.length = 64 :=
  ⟨({ State.reset with brg := { guardQ := [.proposals [(5, 9)]] } } : State).setAll [(BRG_STS.STATE, 2), (INF_OUT_CFG.KIND 5, 3)], ⟨0, 0⟩, 5, 9, [], by decide⟩

/-- BridgeHoldAndRelease, clause 10: a state and operands that meet the hypotheses. -/
theorem test_BridgeHoldAndRelease_10 : ∃ (s : State) (beats : Beats), s.flows = false :=
  ⟨State.reset, ⟨0, 0⟩, by decide⟩

/-- BridgeHoldAndRelease, clause 11: a state and operands that meet the hypotheses. -/
theorem test_BridgeHoldAndRelease_11 : ∃ (s : State) (port : Fin 64), (s.cport port.val).retry = true ∧ s.tamp.ports.length = 64 :=
  ⟨({ State.reset with tamp := { ports := modAt (List.replicate 64 {}) 5 (fun _ => { kind := 1, retry := true }) } } : State), 5, by decide⟩

/-- BridgeHoldAndRelease, clause 12: a state and operands that meet the hypotheses. -/
theorem test_BridgeHoldAndRelease_12 : ∃ (s : State) (port : Fin 64), (s.cport port.val).retry = false :=
  ⟨State.reset, 5, by decide⟩

/-- BridgeHoldAndRelease, clause 13: a state and operands that meet the hypotheses. -/
theorem test_BridgeHoldAndRelease_13 : ∃ (s : State) (beats : Beats) (l : Nat) (q : List Nat), s.brg.levelQ = l :: q ∧ s.flows = true ∧ s.exhausted beats = false :=
  ⟨({ State.reset with brg := { levelQ := [2] } } : State).set BRG_STS.STATE 2, ⟨0, 0⟩, 2, [], by decide⟩

/-- BridgeHoldAndRelease, clause 14: a state and operands that meet the hypotheses. -/
theorem test_BridgeHoldAndRelease_14 : ∃ (s : State) (beats : Beats), s.brg.levelQ = [] :=
  ⟨State.reset, ⟨0, 0⟩, by decide⟩

/-- BridgeHoldAndRelease, clause 15: a state and operands that meet the hypotheses. -/
theorem test_BridgeHoldAndRelease_15 : ∃ (s : State) (beats : Beats), s.flows = false :=
  ⟨State.reset, ⟨0, 0⟩, by decide⟩

/-- ClockMonitorAndOscillators, clause 1: a state and operands that meet the hypotheses. -/
theorem test_ClockMonitorAndOscillators_1 : ∃ (s : State) (count : Nat), s.checkRuns .h = true ∧ s.baseSrc = srcHost ∧ within count 800 1 2 = true ∧ s.on CLK_STS.IOSC_BAD = false ∧ s.refPresent = true :=
  ⟨State.reset.setAll [(CLK_STS.IOSC_RDY, 1), (CLK_STS.BASE_SRC, 0)], 801, by decide⟩

/-- ClockMonitorAndOscillators, clause 2: a state and operands that meet the hypotheses. -/
theorem test_ClockMonitorAndOscillators_2 : ∃ (s : State) (count : Nat), s.checkRuns .h = true ∧ s.clk.failH = 0 ∧ within count 800 1 2 = false :=
  ⟨State.reset.setAll [(CLK_STS.IOSC_RDY, 1)], 0, by decide⟩

/-- ClockMonitorAndOscillators, clause 3: a state and operands that meet the hypotheses. -/
theorem test_ClockMonitorAndOscillators_3 : ∃ (s : State) (count : Nat), s.checkRuns .h = true ∧ s.baseSrc = srcHost ∧ 0 < s.clk.failH ∧ within count 800 1 2 = false ∧ s.on CLK_STS.IOSC_BAD = false ∧ s.time.gap = 0 ∧ s.byDesign = false :=
  ⟨({ State.reset with clk := { failH := 1 } } : State).setAll [(CLK_STS.IOSC_RDY, 1), (CLK_STS.BASE_SRC, 0)], 0, by decide⟩

/-- ClockMonitorAndOscillators, clause 4: a state and operands that meet the hypotheses. -/
theorem test_ClockMonitorAndOscillators_4 : ∃ (s : State) (count : Nat), s.checkRuns .i = true ∧ s.baseSrc = srcIosc ∧ 0 < s.clk.failI ∧ within count (4 * s.get CLK_LFO_CAL.PERIOD) 5 (s.checkBand .i) = false :=
  ⟨({ State.reset with clk := { failI := 1 } } : State).setAll [(CLK_STS.IOSC_RDY, 1)], 0, by decide⟩

/-- ClockMonitorAndOscillators, clause 5: a state and operands that meet the hypotheses. -/
theorem test_ClockMonitorAndOscillators_5 : ∃ (s : State) (count : Nat), s.checkRuns .c = true ∧ s.baseSrc = srcHost ∧ s.on CLK_STS.IOSC_RDY = false ∧ 0 < s.clk.failC ∧ within count (5 * s.get CLK_LFO_CAL.PERIOD) 8192 2 = false ∧ s.byDesign = false :=
  ⟨({ State.reset with clk := { failC := 1 } } : State).setAll [(CLK_STS.LFO_CAL_VALID, 1), (CLK_STS.BASE_SRC, 0)], 0, by decide⟩

/-- ClockMonitorAndOscillators, clause 6: a state and operands that meet the hypotheses. -/
theorem test_ClockMonitorAndOscillators_6 : ∃ (s : State) (period : Fin 16777216), s.on CLK_STS.REF_OK = true ∧ s.checkRuns .h = true ∧ 1 ≤ s.clk.passH :=
  ⟨({ State.reset with clk := { passH := 1 } } : State).setAll [(CLK_STS.REF_OK, 1), (CLK_STS.IOSC_RDY, 1)], 7812500, by decide⟩

/-- ClockMonitorAndOscillators, clause 7: a state and operands that meet the hypotheses. -/
theorem test_ClockMonitorAndOscillators_7 : ∃ (s : State) (period : Fin 16777216), s.on CLK_STS.REF_OK = false :=
  ⟨State.reset, 5, by decide⟩

/-- ClockMonitorAndOscillators, clause 8: a state and operands that meet the hypotheses. -/
theorem test_ClockMonitorAndOscillators_8 : ∃ (s : State), s.clk.iosc = true ∧ s.on CLK_STS.IOSC_RDY = false ∧ s.pwr.borOn = false ∧ s.pwr.rom = .none ∧ s.baseSrc = srcLfo ∧ s.on CLK_STS.IOSC_BAD = false :=
  ⟨State.reset.setAll [(CLK_STS.BASE_SRC, 2)], by decide⟩

/-- ClockMonitorAndOscillators, clause 9: a state and operands that meet the hypotheses. -/
theorem test_ClockMonitorAndOscillators_9 : ∃ (s : State) (r : ClkRec), s.clk.iosc = true ∧ s.on CLK_STS.IOSC_RDY = false ∧ s.pwr.borOn = false ∧ s.pwr.rom = .none ∧ s.baseSrc = srcHost ∧ s.byDesign = false ∧ s.clk.pend = some r :=
  ⟨({ State.reset with clk := { pend := some { cause := 5, dev := 0, src := 0, count := 0, ts := 9 } } } : State).set CLK_STS.BASE_SRC 0, { cause := 5, dev := 0, src := 0, count := 0, ts := 9 }, by decide⟩

/-- ClockMonitorAndOscillators, clause 10: a state and operands that meet the hypotheses. -/
theorem test_ClockMonitorAndOscillators_10 : ∃ (s : State), s.clk.iosc = true ∧ s.on CLK_STS.IOSC_RDY = false ∧ s.pwr.borOn = false ∧ s.pwr.rom = .none ∧ s.baseSrc = srcHost ∧ s.clk.pend = none :=
  ⟨State.reset.setAll [(CLK_STS.BASE_SRC, 0)], by decide⟩

/-- ClockMonitorAndOscillators, clause 11: a state and operands that meet the hypotheses. -/
theorem test_ClockMonitorAndOscillators_11 : ∃ (s : State), s.clk.iosc = true ∧ s.on CLK_STS.IOSC_RDY = false ∧ s.pwr.borOn = false ∧ s.pwr.rom = .none ∧ s.baseSrc ≠ srcHost :=
  ⟨State.reset, by decide⟩

/-- ClockMonitorAndOscillators, clause 12: a state and operands that meet the hypotheses. -/
theorem test_ClockMonitorAndOscillators_12 : ∃ (s : State), s.on CLK_STS.IOSC_RDY = true ∧ s.baseSrc = srcIosc :=
  ⟨State.reset.setAll [(CLK_STS.IOSC_RDY, 1)], by decide⟩

/-- ClockMonitorAndOscillators, clause 13: a state and operands that meet the hypotheses. -/
theorem test_ClockMonitorAndOscillators_13 : ∃ (s : State), s.on CLK_STS.IOSC_RDY = true ∧ s.baseSrc = srcHost :=
  ⟨State.reset.setAll [(CLK_STS.IOSC_RDY, 1), (CLK_STS.BASE_SRC, 0)], by decide⟩

/-- ClockMonitorAndOscillators, clause 14: a state and operands that meet the hypotheses. -/
theorem test_ClockMonitorAndOscillators_14 : ∃ (s : State), s.on CLK_STS.IOSC_RDY = false :=
  ⟨State.reset, by decide⟩

/-- ClockMonitorAndOscillators, clause 15: a state and operands that meet the hypotheses. -/
theorem test_ClockMonitorAndOscillators_15 : ∃ (s : State), s.on CLK_STS.IOSC_RDY = true :=
  ⟨State.reset.setAll [(CLK_STS.IOSC_RDY, 1)], by decide⟩

/-- BaseReturnsToTheHostReference, clause 1: a state and operands that meet the hypotheses. -/
theorem test_BaseReturnsToTheHostReference_1 : ∃ (s : State) (ini : Initiator), s.judge ini true CLK_CTL.RESTORE.addr = .allowed ∧ s.baseSrc = srcIosc ∧ s.retWin ≤ s.clk.passH ∧ s.refPresent = true ∧ s.on CLK_CTL.FORCE_IOSC = false :=
  ⟨{ State.reset with clk := { passH := 64 } }, .keeper 0, by decide⟩

/-- BaseReturnsToTheHostReference, clause 2: a state and operands that meet the hypotheses. -/
theorem test_BaseReturnsToTheHostReference_2 : ∃ (s : State) (ini : Initiator), s.judge ini true CLK_CTL.RESTORE.addr = .allowed ∧ s.baseSrc = srcIosc ∧ s.clk.passH < s.retWin :=
  ⟨State.reset, .keeper 0, by decide⟩

/-- BaseReturnsToTheHostReference, clause 3: a state and operands that meet the hypotheses. -/
theorem test_BaseReturnsToTheHostReference_3 : ∃ (s : State) (ini : Initiator) (on : Bool), s.judge ini true CLK_CTL.FORCE_IOSC.addr = .allowed ∧ on = true ∧ s.baseSrc = srcHost ∧ s.on CLK_STS.IOSC_RDY = true :=
  ⟨State.reset.setAll [(CLK_STS.IOSC_RDY, 1), (CLK_STS.BASE_SRC, 0)], .keeper 0, true, by decide⟩

/-- BaseReturnsToTheHostReference, clause 4: a state and operands that meet the hypotheses. -/
theorem test_BaseReturnsToTheHostReference_4 : ∃ (s : State) (ini : Initiator) (on : Bool), s.judge ini true CLK_CTL.FORCE_IOSC.addr = .allowed ∧ on = false ∧ s.baseSrc = srcIosc ∧ s.retWin ≤ s.clk.passH ∧ s.refPresent = true ∧ s.clk.design = true :=
  ⟨{ State.reset with clk := { passH := 64, design := true } }, .keeper 0, false, by decide⟩

/-- BaseReturnsToTheHostReference, clause 5: a state and operands that meet the hypotheses. -/
theorem test_BaseReturnsToTheHostReference_5 : ∃ (s : State), s.on CLK_CTL.REF_SEL = true ∧ s.clk.recovered = false ∧ s.net0Receives = true :=
  ⟨({ State.reset with pwr := { toppwrEn := true, toppwrGood := true, topRst := false } } : State).setAll [(CLK_CTL.REF_SEL, 1), (NET_STS.STATE 0, 5)], by decide⟩

/-- BaseReturnsToTheHostReference, clause 6: a state and operands that meet the hypotheses. -/
theorem test_BaseReturnsToTheHostReference_6 : ∃ (s : State), s.on CLK_CTL.REF_SEL = false :=
  ⟨State.reset, by decide⟩

/-- BaseReturnsToTheHostReference, clause 7: a state and operands that meet the hypotheses. -/
theorem test_BaseReturnsToTheHostReference_7 : ∃ (s : State), s.baseSrc ≠ srcStopped :=
  ⟨State.reset, by decide⟩

/-- BaseReturnsToTheHostReference, clause 8: a state and operands that meet the hypotheses. -/
theorem test_BaseReturnsToTheHostReference_8 : ∃ (s : State), s.baseSrc = srcStopped :=
  ⟨State.reset.setAll [(CLK_STS.BASE_SRC, 3)], by decide⟩

/-- BaseReturnsToTheHostReference, clause 9: a state and operands that meet the hypotheses. -/
theorem test_BaseReturnsToTheHostReference_9 : ∃ (s : State), s.time.stalled = true :=
  ⟨{ State.reset with time := { gap := 3, stalled := true } }, by decide⟩

/-- BaseReturnsToTheHostReference, clause 10: a state and operands that meet the hypotheses. -/
theorem test_BaseReturnsToTheHostReference_10 : ∃ (s : State), s.time.stalled = false :=
  ⟨State.reset, by decide⟩

/-- FrequencyCounterAndGating, clause 1: a state and operands that meet the hypotheses. -/
theorem test_FrequencyCounterAndGating_1 : ∃ (s : State) (ini : Initiator) (word : Word), s.judge ini true CLK_FMC_CTL.START.addr = .allowed ∧ s.on CLK_FMC_STS.BUSY = false ∧ bitOf word.toNat 16 = true ∧ bitOf word.toNat 17 = false :=
  ⟨State.reset, .keeper 0, 0x10A20, by decide⟩

/-- FrequencyCounterAndGating, clause 2: a state and operands that meet the hypotheses. -/
theorem test_FrequencyCounterAndGating_2 : ∃ (s : State) (ini : Initiator) (word : Word), s.judge ini true CLK_FMC_CTL.START.addr = .allowed ∧ s.on CLK_FMC_STS.BUSY = true ∧ bitOf word.toNat 17 = false :=
  ⟨State.reset.setAll [(CLK_FMC_STS.BUSY, 1)], .keeper 0, 0x10A20, by decide⟩

/-- FrequencyCounterAndGating, clause 3: a state and operands that meet the hypotheses. -/
theorem test_FrequencyCounterAndGating_3 : ∃ (s : State) (ini : Initiator) (word : Word), s.judge ini true CLK_FMC_CTL.START.addr = .allowed ∧ s.on CLK_FMC_STS.BUSY = true ∧ bitOf word.toNat 16 = true ∧ bitOf word.toNat 17 = true :=
  ⟨State.reset.setAll [(CLK_FMC_STS.BUSY, 1)], .keeper 0, 0x30A20, by decide⟩

/-- FrequencyCounterAndGating, clause 4: a state and operands that meet the hypotheses. -/
theorem test_FrequencyCounterAndGating_4 : ∃ (s : State) (ini : Initiator), s.judge ini true CLK_FMC_CTL.ABORT.addr = .allowed :=
  ⟨State.reset.setAll [(CLK_FMC_STS.BUSY, 1)], .keeper 0, by decide⟩

/-- FrequencyCounterAndGating, clause 5: a state and operands that meet the hypotheses. -/
theorem test_FrequencyCounterAndGating_5 : ∃ (s : State) (count : Nat), s.on CLK_FMC_STS.BUSY = true :=
  ⟨State.reset.setAll [(CLK_FMC_STS.BUSY, 1)], 0x500000007, by decide⟩

/-- FrequencyCounterAndGating, clause 6: a state and operands that meet the hypotheses. -/
theorem test_FrequencyCounterAndGating_6 : ∃ (s : State) (count : Nat), s.on CLK_FMC_STS.BUSY = false :=
  ⟨State.reset, 4, by decide⟩

/-- FrequencyCounterAndGating, clause 7: a state and operands that meet the hypotheses. -/
theorem test_FrequencyCounterAndGating_7 : ∃ (s : State), s.on CLK_FMC_STS.BUSY = true :=
  ⟨State.reset.setAll [(CLK_FMC_STS.BUSY, 1)], by decide⟩

/-- FrequencyCounterAndGating, clause 8: a state and operands that meet the hypotheses. -/
theorem test_FrequencyCounterAndGating_8 : ∃ (s : State), s.on CLK_FMC_STS.BUSY = false :=
  ⟨State.reset, by decide⟩

/-- FrequencyCounterAndGating, clause 9: a state and operands that meet the hypotheses. -/
theorem test_FrequencyCounterAndGating_9 : ∃ (s : State) (ini : Initiator) (on : Bool), s.judge ini true CLK_CTL.FORCE_IOSC.addr = .allowed ∧ on = true ∧ s.baseSrc = srcHost ∧ s.on CLK_STS.IOSC_RDY = true ∧ s.on CLK_FMC_STS.BUSY = true ∧ (fmcOnBase (s.get CLK_FMC_CTL.MEAS) = true ∨ fmcOnBase (s.get CLK_FMC_CTL.REF) = true) :=
  ⟨State.reset.setAll [(CLK_STS.IOSC_RDY, 1), (CLK_STS.BASE_SRC, 0), (CLK_FMC_STS.BUSY, 1), (CLK_FMC_CTL.MEAS, 4)], .keeper 0, true, by decide⟩

/-- FrequencyCounterAndGating, clause 10: a state and operands that meet the hypotheses. -/
theorem test_FrequencyCounterAndGating_10 : ∃ (s : State), s.pwr.toppwrEn = true ∧ s.pwr.toppwrGood = true ∧ s.on CLK_FMC_STS.BUSY = true ∧ (fmcOnTop (s.get CLK_FMC_CTL.MEAS) = true ∨ fmcOnTop (s.get CLK_FMC_CTL.REF) = true) :=
  ⟨({ State.reset with pwr := { toppwrEn := true, toppwrGood := true } } : State).setAll [(CLK_FMC_STS.BUSY, 1), (CLK_FMC_CTL.REF, 10)], by decide⟩

/-- FrequencyCounterAndGating, clause 11: a state and operands that meet the hypotheses. -/
theorem test_FrequencyCounterAndGating_11 : ∃ (s : State) (ini : Initiator) (d : Fin 10), s.judge ini true CLK_GATE_REQ.REQ.addr = .allowed :=
  ⟨State.reset, .keeper 0, 5, by decide⟩

/-- FrequencyCounterAndGating, clause 12: a state and operands that meet the hypotheses. -/
theorem test_FrequencyCounterAndGating_12 : ∃ (s : State) (d : Fin 10), bitOf (s.get CLK_GATE_REQ.REQ) d.val = true ∧ s.gated d.val = false ∧ 5 ≤ d.val :=
  ⟨State.reset.setAll [(CLK_GATE_REQ.REQ, 32)], 5, by decide⟩

/-- FrequencyCounterAndGating, clause 13: a state and operands that meet the hypotheses. -/
theorem test_FrequencyCounterAndGating_13 : ∃ (s : State) (d : Fin 10), bitOf (s.get CLK_GATE_REQ.REQ) d.val = true ∧ s.gated d.val = false ∧ d.val < 4 ∧ s.clusterIdle d.val = true :=
  ⟨State.reset.setAll [(CLK_GATE_REQ.REQ, 2)], 1, by decide⟩

/-- FrequencyCounterAndGating, clause 14: a state and operands that meet the hypotheses. -/
theorem test_FrequencyCounterAndGating_14 : ∃ (s : State) (d : Fin 10), bitOf (s.get CLK_GATE_REQ.REQ) d.val = true ∧ s.gated d.val = false ∧ d.val = 4 :=
  ⟨State.reset.setAll [(CLK_GATE_REQ.REQ, 16)], 4, by decide⟩

/-- FrequencyCounterAndGating, clause 15: a state and operands that meet the hypotheses. -/
theorem test_FrequencyCounterAndGating_15 : ∃ (s : State) (d : Fin 10), d.val < 4 ∧ s.clusterIdle d.val = false :=
  ⟨({ State.reset with inf := { slots := modAt (List.replicate 16 {}) 0 (fun p => { p with run := some {} }) } } : State).set (INF_SLOT_PROG.CLMASK 0) 1, 0, by decide⟩

/-- FrequencyCounterAndGating, clause 16: a state and operands that meet the hypotheses. -/
theorem test_FrequencyCounterAndGating_16 : ∃ (s : State) (d : Fin 10), bitOf (s.get CLK_GATE_REQ.REQ) d.val = false :=
  ⟨State.reset, 0, by decide⟩

/-- FrequencyCounterAndGating, clause 17: a state and operands that meet the hypotheses. -/
theorem test_FrequencyCounterAndGating_17 : ∃ (s : State) (d : Fin 10), bitOf (s.get CLK_GATE_REQ.REQ) d.val = true ∧ s.gated d.val = false :=
  ⟨State.reset.setAll [(CLK_GATE_REQ.REQ, 32)], 5, by decide⟩

/-- FrequencyCounterAndGating, clause 18: a state and operands that meet the hypotheses. -/
theorem test_FrequencyCounterAndGating_18 : ∃ (s : State) (d : Fin 10), bitOf (s.get CLK_GATE_REQ.REQ) d.val = false :=
  ⟨State.reset, 0, by decide⟩

/-- FrequencyCounterAndGating, clause 19: a state and operands that meet the hypotheses. -/
theorem test_FrequencyCounterAndGating_19 : ∃ (s : State) (d : Fin 10), s.gated d.val = true :=
  ⟨State.reset.setAll [(CLK_GATE_STS.GATED, 1)], 0, by decide⟩

/-- FrequencyCounterAndGating, clause 20: a state and operands that meet the hypotheses. -/
theorem test_FrequencyCounterAndGating_20 : ∃ (s : State) (ini : Initiator) (d : Fin 10), s.judge ini true CLK_GATE_REQ.REQ.addr = .allowed ∧ bitOf (s.get CLK_GATE_REQ.REQ) d.val = true :=
  ⟨State.reset.setAll [(CLK_GATE_STS.GATED, 16), (CLK_GATE_REQ.REQ, 16)], .keeper 0, 4, by decide⟩

/-- FrequencyCounterAndGating, clause 21: a state and operands that meet the hypotheses. -/
theorem test_FrequencyCounterAndGating_21 : ∃ (s : State) (ini : Initiator) (d : Fin 10), s.judge ini true CLK_GATE_REQ.REQ.addr = .allowed ∧ bitOf (s.get CLK_GATE_REQ.REQ) d.val = false :=
  ⟨State.reset, .keeper 0, 4, by decide⟩

/-- FrequencyCounterAndGating, clause 22: a state and operands that meet the hypotheses. -/
theorem test_FrequencyCounterAndGating_22 : ∃ (s : State) (ini : Initiator) (d : Fin 10), s.judge ini true CLK_GATE_REQ.REQ.addr = .allowed ∧ bitOf (s.get CLK_GATE_REQ.REQ) d.val = true :=
  ⟨State.reset.setAll [(CLK_GATE_REQ.REQ, 16)], .keeper 0, 4, by decide⟩

/-- FrequencyCounterAndGating, clause 23: a state and operands that meet the hypotheses. -/
theorem test_FrequencyCounterAndGating_23 : ∃ (s : State) (ini : Initiator) (d : Fin 10), s.judge ini true CLK_GATE_REQ.REQ.addr = .allowed ∧ bitOf (s.get CLK_GATE_REQ.REQ) d.val = false :=
  ⟨State.reset, .keeper 0, 4, by decide⟩

/-- ColdPorAndBorLoseTheMachine, clause 1: a state and operands that meet the hypotheses. -/
theorem test_ColdPorAndBorLoseTheMachine_1 : ∃ (s : State) (boot : BootIn), boot.testMode = false ∧ (s.pwr.borOn = false ∨ s.pwr.testMode = true ∨ boot.marker = false) :=
  ⟨State.reset, { strap := 3, tdAbsent := 5, marker := false, jumper := true, puf := true, mismatch := [1], placed := none, vin := 3200, ain := [7], pwrgd := 5 }, by decide⟩

/-- ColdPorAndBorLoseTheMachine, clause 2: a state and operands that meet the hypotheses. -/
theorem test_ColdPorAndBorLoseTheMachine_2 : ∃ (s : State) (boot : BootIn), boot.testMode = false ∧ s.pwr.testMode = false ∧ s.pwr.borOn = true ∧ boot.marker = true :=
  ⟨{ State.reset with pwr := { borOn := true } }, { strap := 3, tdAbsent := 5, marker := true, jumper := true, puf := true, mismatch := [], placed := none, vin := 3200, ain := [7], pwrgd := 5 }, by decide⟩

/-- ColdPorAndBorLoseTheMachine, clause 3: a state and operands that meet the hypotheses. -/
theorem test_ColdPorAndBorLoseTheMachine_3 : ∃ (s : State) (boot : BootIn), boot.testMode = true :=
  ⟨State.reset, { strap := 3, tdAbsent := 5, marker := true, jumper := true, puf := true, mismatch := [], placed := none, vin := 3200, ain := [7], pwrgd := 5, testMode := true }, by decide⟩

/-- ColdPorAndBorLoseTheMachine, clause 5: a state and operands that meet the hypotheses. -/
theorem test_ColdPorAndBorLoseTheMachine_5 : ∃ (s : State) (mv : Fin 4096), s.pwr.borOn = false ∧ s.on PWRST_BO_STS.BOW_NOW = false :=
  ⟨State.reset, 2900, by decide⟩

/-- ColdPorAndBorLoseTheMachine, clause 6: a state and operands that meet the hypotheses. -/
theorem test_ColdPorAndBorLoseTheMachine_6 : ∃ (s : State) (mv : Fin 4096), s.pwr.borOn = true :=
  ⟨{ State.reset with pwr := { borOn := true } }, 5, by decide⟩

/-- ColdPorAndBorLoseTheMachine, clause 7: a state and operands that meet the hypotheses. -/
theorem test_ColdPorAndBorLoseTheMachine_7 : ∃ (s : State) (minMv mv : Fin 4096), s.on PWRST_BO_STS.BOW_NOW = true ∧ s.nvm.queue = [] ∧ s.nvm.compacting = false ∧ s.nvm.busy = none ∧ s.ses.rxq = [] :=
  ⟨State.reset.setAll [(PWRST_BO_STS.BOW_NOW, 1)], 2800, 3100, by decide⟩

/-- ColdPorAndBorLoseTheMachine, clause 8: a state and operands that meet the hypotheses. -/
theorem test_ColdPorAndBorLoseTheMachine_8 : ∃ (s : State) (minMv mv : Fin 4096), s.on PWRST_BO_STS.BOW_NOW = false ∧ s.ses.rxq = [] :=
  ⟨State.reset, 2800, 3100, by decide⟩

/-- WarmResetSources, clause 1: a state and operands that meet the hypotheses. -/
theorem test_WarmResetSources_1 : ∃ (s : State), s.pwr.testMode = false ∧ s.pwr.borOn = false ∧ s.pwr.rom = .none ∧ s.pwr.warmOn = false ∧ s.nvm.busy = none :=
  ⟨State.reset, by decide⟩

/-- WarmResetSources, clause 2: a state and operands that meet the hypotheses. -/
theorem test_WarmResetSources_2 : ∃ (s : State), s.pwr.borOn = false ∧ s.pwr.rom = .none ∧ s.pwr.warmOn = false ∧ s.nvm.busy.isSome = true :=
  ⟨{ State.reset with nvm := { busy := some { kind := 1, key := 0, len := 8, data := [] } } }, by decide⟩

/-- WarmResetSources, clause 3: a state and operands that meet the hypotheses. -/
theorem test_WarmResetSources_3 : ∃ (s : State) (ini : Initiator) (key : Fin 256), s.judge ini true PWRST_CTL.WARM_KEY.addr = .allowed ∧ key.val = 0xA5 ∧ s.pwr.testMode = false ∧ s.pwr.borOn = false ∧ s.pwr.rom = .none ∧ s.pwr.warmOn = false ∧ s.nvm.busy = none :=
  ⟨State.reset, .keeper 0, 0xA5, by decide⟩

/-- WarmResetSources, clause 4: a state and operands that meet the hypotheses. -/
theorem test_WarmResetSources_4 : ∃ (s : State) (ini : Initiator) (key : Fin 256), s.judge ini true PWRST_CTL.WARM_KEY.addr = .allowed ∧ key.val = 0xA5 ∧ s.pwr.borOn = false ∧ s.pwr.rom = .none ∧ s.pwr.warmOn = true :=
  ⟨{ State.reset with pwr := { warmOn := true } }, .keeper 0, 0xA5, by decide⟩

/-- WarmResetSources, clause 5: a state and operands that meet the hypotheses. -/
theorem test_WarmResetSources_5 : ∃ (s : State) (ini : Initiator) (key : Fin 256), s.judge ini true PWRST_CTL.WARM_KEY.addr = .allowed ∧ key.val ≠ 0xA5 :=
  ⟨State.reset, .keeper 0, 0xA4, by decide⟩

/-- WarmResetSources, clause 6: a state and operands that meet the hypotheses. -/
theorem test_WarmResetSources_6 : ∃ (s : State) (jumper : Bool), s.pwr.warmOn = true ∧ s.pwr.warmPin = false ∧ s.baseSrc = srcStopped ∧ s.on KEY_PRES_CFG.JMP_EN = false :=
  ⟨({ State.reset with pwr := { warmOn := true } } : State).setAll [(CLK_STS.BASE_SRC, 3), (KEY_PRES_CFG.JMP_EN, 0)], true, by decide⟩

/-- WarmResetSources, clause 7: a state and operands that meet the hypotheses. -/
theorem test_WarmResetSources_7 : ∃ (s : State) (jumper : Bool), s.pwr.warmOn = true ∧ s.pwr.warmPin = false ∧ s.baseSrc ≠ srcStopped :=
  ⟨{ State.reset with pwr := { warmOn := true } }, true, by decide⟩

/-- WarmResetSources, clause 8: a state and operands that meet the hypotheses. -/
theorem test_WarmResetSources_8 : ∃ (s : State) (jumper : Bool), s.pwr.warmPin = true :=
  ⟨{ State.reset with pwr := { warmPin := true } }, true, by decide⟩

/-- WarmResetSources, clause 9: a state and operands that meet the hypotheses. -/
theorem test_WarmResetSources_9 : ∃ (s : State) (jumper : Bool), s.pwr.rom = .none ∧ s.pwr.warmOn = false :=
  ⟨State.reset, true, by decide⟩

/-- WarmResetSources, clause 10: a state and operands that meet the hypotheses. -/
theorem test_WarmResetSources_10 : ∃ (s : State) (jumper : Bool), s.pwr.rom = .none ∧ s.pwr.warmOn = true ∧ s.pwr.warmPin = true :=
  ⟨{ State.reset with pwr := { warmOn := true, warmPin := true } }, true, by decide⟩

/-- NvmJournalCommits, clause 1: a state and operands that meet the hypotheses. -/
theorem test_NvmJournalCommits_1 : ∃ (s : State) (j : NvmJob), s.nvm.busy = some j ∧ s.pwr.fwSwitch = 0 ∧ s.pwr.warmWait = 0 ∧ s.pwr.flashWait = 0 ∧ s.nvm.queue = [] ∧ s.nvm.compacting = false ∧ s.on PWRST_BO_STS.NVM_HELD = false ∧ j.data.all (fun d => match d with | .silRecords _ _ => true | .silClear => true | .regs _ => true | _ => false) = true :=
  ⟨{ State.reset with nvm := { busy := some { kind := 1, key := 0, len := 72, data := [.silRecords 0 []] } } }, { kind := 1, key := 0, len := 72, data := [.silRecords 0 []] }, by decide⟩

/-- NvmJournalCommits, clause 2: a state and operands that meet the hypotheses. -/
theorem test_NvmJournalCommits_2 : ∃ (s : State), s.nvm.busy = none :=
  ⟨State.reset, by decide⟩

/-- NvmJournalCommits, clause 3: a state and operands that meet the hypotheses. -/
theorem test_NvmJournalCommits_3 : ∃ (s : State), s.nvm.compacting = true ∧ s.nvm.busy = none ∧ s.nvm.queue = [] ∧ s.on PWRST_BO_STS.NVM_HELD = false :=
  ⟨{ State.reset with nvm := { compacting := true } }, by decide⟩

/-- NvmJournalCommits, clause 4: a state and operands that meet the hypotheses. -/
theorem test_NvmJournalCommits_4 : ∃ (s : State), s.nvm.compacting = false :=
  ⟨State.reset, by decide⟩

/-- NvmJournalCommits, clause 5: a state and operands that meet the hypotheses. -/
theorem test_NvmJournalCommits_5 : ∃ (s : State), s.pwr.warmOn = false ∧ s.on PWRST_BO_STS.NVM_HELD = false ∧ s.sil.nvmQueue.isEmpty = false ∧ s.sil.nvmMissed = 0 ∧ s.nvm.busy = none ∧ s.nvm.compacting = false ∧ s.nvm.queue = [] ∧ bankUsed s.nvm.bank + entrySize (8 + 64 * (s.sil.nvmQueue.take silBatch).length) ≤ bankRoom :=
  ⟨{ State.reset with sil := { nvmQueue := [{ num := 4, code := 1, src := 2, flags := 0, count := 1, ts := 5, parent := 0, payload := 0 }] } }, by decide⟩

/-- NvmJournalCommits, clause 6: a state and operands that meet the hypotheses. -/
theorem test_NvmJournalCommits_6 : ∃ (s : State), s.sil.nvmQueue.isEmpty = true :=
  ⟨State.reset, by decide⟩

/-- NvmJournalCommits, clause 7: a state and operands that meet the hypotheses. -/
theorem test_NvmJournalCommits_7 : ∃ (s : State) (ini : Initiator), s.judge ini true SIL_CTL.NVM_CLR.addr = .allowed ∧ s.on KEY_PRES.OPEN = true ∧ s.nvm.busy.isSome = true :=
  ⟨({ State.reset with nvm := { busy := some { kind := 1, key := 0, len := 72, data := [.silRecords 0 []] } } } : State).set KEY_PRES.OPEN 1, .keeper 0, by decide⟩

/-- NvmJournalCommits, clause 8: a state and operands that meet the hypotheses. -/
theorem test_NvmJournalCommits_8 : ∃ (s : State) (ini : Initiator), s.judge ini true SIL_CTL.NVM_CLR.addr = .allowed ∧ s.on KEY_PRES.OPEN = false :=
  ⟨State.reset, .keeper 0, by decide⟩

/-- PowerStateRequests, clause 1: a state and operands that meet the hypotheses. -/
theorem test_PowerStateRequests_1 : ∃ (s : State) (ini : Initiator), s.judge ini true PWRST_CTL.REQ.addr = .allowed ∧ s.cur = 0 ∧ s.on PWRST_STATE.BUSY = false ∧ s.resetRuns = false :=
  ⟨State.reset.setAll [(PWRST_STATE.CUR, 0)], .keeper 0, by decide⟩

/-- PowerStateRequests, clause 2: a state and operands that meet the hypotheses. -/
theorem test_PowerStateRequests_2 : ∃ (s : State) (ini : Initiator), s.judge ini true PWRST_CTL.REQ.addr = .allowed ∧ s.cur = 1 ∧ s.pwr.trans = none ∧ s.on PWRST_STATE.BUSY = false ∧ s.resetRuns = false :=
  ⟨({ State.reset with pwr := { a1Gates := a1Domains } } : State).setAll [(PWRST_STATE.CUR, 1), (CLK_GATE_STS.GATED, 271), (CLK_GATE_REQ.REQ, 271), (INF_STS.HELD, 1)], .keeper 0, by decide⟩

/-- PowerStateRequests, clause 3: a state and operands that meet the hypotheses. -/
theorem test_PowerStateRequests_3 : ∃ (s : State) (ini : Initiator), s.judge ini true PWRST_CTL.REQ.addr = .allowed ∧ s.cur = 2 ∧ s.on PWRST_STATE.BUSY = false ∧ s.resetRuns = false :=
  ⟨State.reset, .keeper 0, by decide⟩

/-- PowerStateRequests, clause 4: a state and operands that meet the hypotheses. -/
theorem test_PowerStateRequests_4 : ∃ (s : State) (ini : Initiator), s.judge ini true PWRST_CTL.REQ.addr = .allowed ∧ s.cur = 0 ∧ s.get SES_JOB.RUNNING = 0 ∧ s.runsEnded = false ∧ s.on PWRST_STATE.BUSY = false ∧ s.resetRuns = false :=
  ⟨({ State.reset with inf := { slots := [{ run := some {} }] } } : State).set PWRST_STATE.CUR 0, .keeper 0, by decide⟩

/-- PowerStateRequests, clause 5: a state and operands that meet the hypotheses. -/
theorem test_PowerStateRequests_5 : ∃ (s : State) (ini : Initiator), s.judge ini true PWRST_CTL.REQ.addr = .allowed ∧ s.cur = 0 ∧ s.get SES_JOB.RUNNING ≠ 0 ∧ s.on PWRST_STATE.BUSY = false ∧ s.resetRuns = false :=
  ⟨State.reset.setAll [(PWRST_STATE.CUR, 0), (SES_JOB.RUNNING, 1)], .keeper 0, by decide⟩

/-- PowerStateRequests, clause 6: a state and operands that meet the hypotheses. -/
theorem test_PowerStateRequests_6 : ∃ (s : State) (ini : Initiator), s.judge ini true PWRST_CTL.REQ.addr = .allowed ∧ s.cur = 0 ∧ s.get SES_JOB.RUNNING = 0 ∧ s.seqBusy = false ∧ s.bridgeUp = true ∧ s.runsEnded = false ∧ s.on PWRST_STATE.BUSY = false ∧ s.resetRuns = false :=
  ⟨({ State.reset with inf := { slots := [{ run := some {} }] } } : State).setAll [(PWRST_STATE.CUR, 0), (BRG_STS.STATE, 2)], .keeper 0, by decide⟩

/-- PowerStateRequests, clause 7: a state and operands that meet the hypotheses. -/
theorem test_PowerStateRequests_7 : ∃ (s : State) (ini : Initiator), s.judge ini true PWRST_CTL.REQ.addr = .allowed ∧ (∃ k, ini = .keeper k) ∧ s.cur = 2 ∧ s.pwr.testMode = false ∧ s.seq.enLvl = 0 ∧ s.seq.rails.any (fun r => r.cfg.pmbOn && !r.cfg.enUse && r.st != .off) = false ∧ (∀ k < 16, s.on (COOL_LK_STS.ACTIVE k) = false) ∧ s.seqBusy = false ∧ s.on PWRST_STATE.BUSY = false ∧ s.resetRuns = false :=
  ⟨State.reset, .keeper 0, by decide⟩

/-- PowerStateRequests, clause 8: a state and operands that meet the hypotheses. -/
theorem test_PowerStateRequests_8 : ∃ (s : State) (ini : Initiator), s.judge ini true PWRST_CTL.REQ.addr = .allowed ∧ (∃ c, ini = .core c) ∧ s.cur ≠ 3 ∧ s.on PWRST_STATE.BUSY = false ∧ s.resetRuns = false :=
  ⟨({ State.reset with pwr := { toppwrEn := true, toppwrGood := true, topRst := false } } : State).setAll [(PWRST_STATE.CUR, 0), (BRG_STS.STATE, 2)], .core 1, by decide⟩

/-- PowerStateRequests, clause 9: a state and operands that meet the hypotheses. -/
theorem test_PowerStateRequests_9 : ∃ (s : State) (ini : Initiator), s.judge ini true PWRST_CTL.REQ.addr = .allowed ∧ s.on PWRST_STATE.BUSY = true :=
  ⟨State.reset.setAll [(PWRST_STATE.BUSY, 1)], .keeper 0, by decide⟩

/-- PowerStateRequests, clause 10: a state and operands that meet the hypotheses. -/
theorem test_PowerStateRequests_10 : ∃ (s : State) (ini : Initiator), s.judge ini true PWRST_CTL.REQ.addr = .allowed ∧ (s.cur = 0 ∨ s.cur = 1) ∧ s.get SES_JOB.RUNNING ≠ 0 ∧ s.on PWRST_STATE.BUSY = false ∧ s.resetRuns = false :=
  ⟨({ State.reset with pwr := { toppwrEn := true, toppwrGood := true, topRst := false } } : State).setAll [(PWRST_STATE.CUR, 0), (SES_JOB.RUNNING, 1)], .keeper 0, by decide⟩

/-- PowerStateRequests, clause 11: a state and operands that meet the hypotheses. -/
theorem test_PowerStateRequests_11 : ∃ (s : State) (ini : Initiator), s.judge ini true PWRST_CTL.REQ.addr = .allowed ∧ (s.cur = 0 ∨ s.cur = 1) ∧ s.get SES_JOB.RUNNING = 0 ∧ s.seqBusy = true ∧ s.on PWRST_STATE.BUSY = false ∧ s.resetRuns = false :=
  ⟨({ State.reset with seq := { op := 1 } } : State).set PWRST_STATE.CUR 1, .keeper 0, by decide⟩

/-- PowerStateRequests, clause 12: a state and operands that meet the hypotheses. -/
theorem test_PowerStateRequests_12 : ∃ (s : State) (ini : Initiator), s.judge ini true PWRST_CTL.REQ.addr = .allowed ∧ s.cur = 3 ∧ s.on PWRST_STATE.BUSY = false ∧ s.resetRuns = false :=
  ⟨State.reset.setAll [(PWRST_STATE.CUR, 3)], .keeper 0, by decide⟩

/-- PowerStateRequests, clause 13: a state and operands that meet the hypotheses. -/
theorem test_PowerStateRequests_13 : ∃ (s : State) (ini : Initiator), s.judge ini true PWRST_CTL.REQ.addr = .allowed ∧ (s.cur = 2 ∨ s.cur = 3) ∧ s.on PWRST_STATE.BUSY = false ∧ s.resetRuns = false :=
  ⟨State.reset, .keeper 0, by decide⟩

/-- PowerStateRequests, clause 14: a state and operands that meet the hypotheses. -/
theorem test_PowerStateRequests_14 : ∃ (s : State) (ini : Initiator), s.judge ini true PWRST_CTL.REQ.addr = .allowed ∧ (s.cur = 0 ∨ s.cur = 1) ∧ s.on PWRST_STATE.BUSY = false ∧ s.resetRuns = false :=
  ⟨({ State.reset with pwr := { toppwrEn := true, toppwrGood := true, topRst := false } } : State).setAll [(PWRST_STATE.CUR, 0), (BRG_STS.STATE, 2)], .keeper 0, by decide⟩

/-- PowerStateRequests, clause 15: a state and operands that meet the hypotheses. -/
theorem test_PowerStateRequests_15 : ∃ (s : State) (ini : Initiator), s.judge ini true PWRST_CTL.REQ.addr = .allowed ∧ (∃ k, ini = .keeper k) ∧ s.cur = 2 ∧ s.seq.enLvl ≠ 0 ∧ s.on PWRST_STATE.BUSY = false ∧ s.resetRuns = false :=
  ⟨{ State.reset with seq := { enLvl := 4 } }, .keeper 0, by decide⟩

/-- PowerStateRequests, clause 16: a state and operands that meet the hypotheses. -/
theorem test_PowerStateRequests_16 : ∃ (s : State) (ini : Initiator) (k : Fin 16), s.judge ini true PWRST_CTL.REQ.addr = .allowed ∧ (∃ k, ini = .keeper k) ∧ s.cur = 2 ∧ s.seq.enLvl = 0 ∧ s.seq.rails.any (fun r => r.cfg.pmbOn && !r.cfg.enUse && r.st != .off) = false ∧ s.on (COOL_LK_STS.ACTIVE k.val) = true ∧ s.on PWRST_STATE.BUSY = false ∧ s.resetRuns = false :=
  ⟨State.reset.setAll [(COOL_LK_STS.ACTIVE 15, 1)], .keeper 0, 15, by decide⟩

/-- PowerStateRequests, clause 17: a state and operands that meet the hypotheses. -/
theorem test_PowerStateRequests_17 : ∃ (s : State) (ini : Initiator), s.judge ini true PWRST_CTL.REQ.addr = .allowed ∧ (∃ k, ini = .keeper k) ∧ s.cur = 2 ∧ s.seq.enLvl = 0 ∧ s.seq.rails.any (fun r => r.cfg.pmbOn && !r.cfg.enUse && r.st != .off) = false ∧ (∀ k < 16, s.on (COOL_LK_STS.ACTIVE k) = false) ∧ s.seqBusy = true ∧ s.on PWRST_STATE.BUSY = false ∧ s.resetRuns = false :=
  ⟨{ State.reset with seq := { op := 2 } }, .keeper 0, by decide⟩

/-- PowerTransitionsAndWakes, clause 1: a state and operands that meet the hypotheses. -/
theorem test_PowerTransitionsAndWakes_1 : ∃ (s : State), s.pwr.trans = some .toA1 ∧ s.pwr.released = true ∧ a1Domains.all s.gated = true ∧ s.pwr.topWait = 0 :=
  ⟨({ State.reset with pwr := { trans := some .toA1, released := true } } : State).set CLK_GATE_STS.GATED 271, by decide⟩

/-- PowerTransitionsAndWakes, clause 2: a state and operands that meet the hypotheses. -/
theorem test_PowerTransitionsAndWakes_2 : ∃ (s : State) (d : Fin 10), s.pwr.trans = some .toA1 ∧ s.pwr.released = true ∧ (d.val < 4 ∨ d.val = 8) ∧ s.gated d.val = false ∧ bitOf (s.get CLK_GATE_REQ.REQ) d.val = false ∧ s.pwr.topWait = 0 ∧ s.cur = 0 :=
  ⟨({ State.reset with pwr := { trans := some .toA1, released := true, a1Gates := a1Domains } } : State).set PWRST_STATE.CUR 0, 8, by decide⟩

/-- PowerTransitionsAndWakes, clause 3: a state and operands that meet the hypotheses. -/
theorem test_PowerTransitionsAndWakes_3 : ∃ (s : State), s.pwr.trans = none :=
  ⟨State.reset, by decide⟩

/-- PowerTransitionsAndWakes, clause 4: a state and operands that meet the hypotheses. -/
theorem test_PowerTransitionsAndWakes_4 : ∃ (s : State), s.pwr.trans = some .toA2 ∧ s.pwr.released = true ∧ s.bridgeUp = true :=
  ⟨({ State.reset with pwr := { trans := some .toA2, released := true } } : State).set BRG_STS.STATE 2, by decide⟩

/-- PowerTransitionsAndWakes, clause 5: a state and operands that meet the hypotheses. -/
theorem test_PowerTransitionsAndWakes_5 : ∃ (s : State), s.pwr.trans = none :=
  ⟨State.reset, by decide⟩

/-- PowerTransitionsAndWakes, clause 6: a state and operands that meet the hypotheses. -/
theorem test_PowerTransitionsAndWakes_6 : ∃ (s : State) (mask : Fin 256), s.cur = 3 ∧ s.pwr.trans = none ∧ s.resetRuns = false ∧ ((mask.val &&& maskOf 8 (s.placedIn fnWake)) &&& s.get PWRST_WAKE_EN.EN) ≠ 0 :=
  ⟨({ State.reset with acd := { xbar := [(9, 0xC02, 0)] } } : State).setAll [(PWRST_STATE.CUR, 3), (PWRST_WAKE_EN.EN, 6), (PWRST_WAKE_TGT.TGT, 4)], 5, by decide⟩

/-- PowerTransitionsAndWakes, clause 7: a state and operands that meet the hypotheses. -/
theorem test_PowerTransitionsAndWakes_7 : ∃ (s : State) (mask : Fin 256), s.cur = 1 ∧ s.pwr.trans = none ∧ s.pwr.toppwrEn = true ∧ s.resetRuns = false ∧ ((mask.val &&& maskOf 8 (s.placedIn fnWake)) &&& s.get PWRST_WAKE_EN.EN) ≠ 0 :=
  ⟨({ State.reset with pwr := { toppwrEn := true, a1Gates := [1] }, acd := { xbar := [(9, 0xC02, 0)] } } : State).setAll [(PWRST_STATE.CUR, 1), (PWRST_WAKE_EN.EN, 6)], 5, by decide⟩

/-- PowerTransitionsAndWakes, clause 8: a state and operands that meet the hypotheses. -/
theorem test_PowerTransitionsAndWakes_8 : ∃ (s : State) (mask : Fin 256), s.cur = 2 ∧ s.pwr.trans = none ∧ s.pwr.warmOn = false ∧ s.pwr.rom = .none ∧ s.pwr.kfwHalt = false ∧ s.pwr.toppwrEn = false ∧ s.retryAllowed = true ∧ ((mask.val &&& maskOf 8 (s.placedIn fnWake)) &&& s.get PWRST_WAKE_EN.EN) &&& s.get PWRST_WAKE_TGT.TGT ≠ 0 :=
  ⟨({ State.reset with acd := { xbar := [(9, 0xC02, 0)] } } : State).setAll [(PWRST_WAKE_EN.EN, 6), (PWRST_WAKE_TGT.TGT, 4)], 5, by decide⟩

/-- PowerTransitionsAndWakes, clause 9: a state and operands that meet the hypotheses. -/
theorem test_PowerTransitionsAndWakes_9 : ∃ (s : State) (mask : Fin 256), s.cur = 2 ∧ s.pwr.trans = none ∧ s.pwr.warmOn = false ∧ s.pwr.rom = .none ∧ s.pwr.kfwHalt = false ∧ s.pwr.toppwrEn = false ∧ s.retryAllowed = true ∧ ((mask.val &&& maskOf 8 (s.placedIn fnWake)) &&& s.get PWRST_WAKE_EN.EN) ≠ 0 ∧ ((mask.val &&& maskOf 8 (s.placedIn fnWake)) &&& s.get PWRST_WAKE_EN.EN) &&& s.get PWRST_WAKE_TGT.TGT = 0 :=
  ⟨({ State.reset with acd := { xbar := [(9, 0xC02, 0)] } } : State).setAll [(PWRST_WAKE_EN.EN, 6), (PWRST_WAKE_TGT.TGT, 8)], 5, by decide⟩

/-- PowerTransitionsAndWakes, clause 10: a state and operands that meet the hypotheses. -/
theorem test_PowerTransitionsAndWakes_10 : ∃ (s : State) (mask : Fin 256), s.cur = 2 ∧ s.pwr.trans = none ∧ s.pwr.warmOn = false ∧ s.pwr.rom = .none ∧ s.pwr.kfwHalt = false ∧ s.pwr.toppwrEn = false ∧ s.retryAllowed = false ∧ ((mask.val &&& maskOf 8 (s.placedIn fnWake)) &&& s.get PWRST_WAKE_EN.EN) ≠ 0 :=
  ⟨({ State.reset with acd := { xbar := [(9, 0xC02, 0)] } } : State).setAll [(PWRST_WAKE_EN.EN, 6), (PWRST_TOP_CAUSE.FAIL_RUN, 15)], 5, by decide⟩

/-- PowerTransitionsAndWakes, clause 11: a state and operands that meet the hypotheses. -/
theorem test_PowerTransitionsAndWakes_11 : ∃ (s : State) (mask : Fin 256), ((mask.val &&& maskOf 8 (s.placedIn fnWake)) &&& s.get PWRST_WAKE_EN.EN) = 0 :=
  ⟨State.reset, 5, by decide⟩

/-- PowerTransitionsAndWakes, clause 12: a state and operands that meet the hypotheses. -/
theorem test_PowerTransitionsAndWakes_12 : ∃ (s : State), s.cur = 3 ∧ s.get PWRST_WAKE_TMR.MS ≠ 0 ∧ bitOf (s.get PWRST_WAKE_EN.EN) 10 = true ∧ s.pwr.trans = none ∧ s.resetRuns = false :=
  ⟨State.reset.setAll [(PWRST_STATE.CUR, 3), (PWRST_WAKE_EN.EN, 1024), (PWRST_WAKE_TMR.MS, 9)], by decide⟩

/-- PowerTransitionsAndWakes, clause 13: a state and operands that meet the hypotheses. -/
theorem test_PowerTransitionsAndWakes_13 : ∃ (s : State), s.cur = 2 ∧ s.pwr.trans = none ∧ s.pwr.warmOn = false ∧ s.pwr.rom = .none ∧ s.pwr.kfwHalt = false ∧ s.pwr.toppwrEn = false ∧ s.get PWRST_WAKE_TMR.MS ≠ 0 ∧ bitOf (s.get PWRST_WAKE_EN.EN) 10 = true ∧ s.retryAllowed = true ∧ bitOf (s.get PWRST_WAKE_TGT.TGT) 10 = true :=
  ⟨State.reset.setAll [(PWRST_WAKE_EN.EN, 1024), (PWRST_WAKE_TMR.MS, 9), (PWRST_WAKE_TGT.TGT, 1024)], by decide⟩

/-- PowerTransitionsAndWakes, clause 14: a state and operands that meet the hypotheses. -/
theorem test_PowerTransitionsAndWakes_14 : ∃ (s : State), s.cur = 2 ∧ s.pwr.trans = none ∧ s.pwr.warmOn = false ∧ s.pwr.rom = .none ∧ s.pwr.kfwHalt = false ∧ s.pwr.toppwrEn = false ∧ s.get PWRST_WAKE_TMR.MS ≠ 0 ∧ bitOf (s.get PWRST_WAKE_EN.EN) 10 = true ∧ s.retryAllowed = true ∧ bitOf (s.get PWRST_WAKE_TGT.TGT) 10 = false :=
  ⟨State.reset.setAll [(PWRST_WAKE_EN.EN, 1024), (PWRST_WAKE_TMR.MS, 9)], by decide⟩

/-- PowerTransitionsAndWakes, clause 15: a state and operands that meet the hypotheses. -/
theorem test_PowerTransitionsAndWakes_15 : ∃ (s : State), s.cur = 2 ∧ s.pwr.trans = none ∧ s.pwr.warmOn = false ∧ s.pwr.rom = .none ∧ s.pwr.kfwHalt = false ∧ s.pwr.toppwrEn = false ∧ s.get PWRST_WAKE_TMR.MS ≠ 0 ∧ bitOf (s.get PWRST_WAKE_EN.EN) 10 = true ∧ s.retryAllowed = false :=
  ⟨State.reset.setAll [(PWRST_WAKE_EN.EN, 1024), (PWRST_WAKE_TMR.MS, 9), (PWRST_TOP_CAUSE.FAIL_RUN, 15)], by decide⟩

/-- PowerTransitionsAndWakes, clause 16: a state and operands that meet the hypotheses. -/
theorem test_PowerTransitionsAndWakes_16 : ∃ (s : State), (s.cur = 0 ∨ s.cur = 1) :=
  ⟨State.reset.setAll [(PWRST_STATE.CUR, 1), (PWRST_WAKE_TMR.MS, 9), (PWRST_WAKE_EN.EN, 1024)], by decide⟩

/-- PowerTransitionsAndWakes, clause 17: a state and operands that meet the hypotheses. -/
theorem test_PowerTransitionsAndWakes_17 : ∃ (s : State), s.get PWRST_WAKE_TMR.MS = 0 :=
  ⟨State.reset, by decide⟩

/-- PowerTransitionsAndWakes, clause 18: a state and operands that meet the hypotheses. -/
theorem test_PowerTransitionsAndWakes_18 : ∃ (s : State) (n : Fin 12) (addr : Fin 128), s.cur = 3 ∧ s.on (TW_CFG.WAKE n.val) = true ∧ bitOf (s.get PWRST_WAKE_EN.EN) 8 = true ∧ s.tgtMatch n.val addr.val = true ∧ s.pwr.trans = none ∧ s.resetRuns = false :=
  ⟨State.reset.setAll [(PWRST_STATE.CUR, 3), (PWRST_WAKE_EN.EN, 256), (TW_CFG.WAKE 2, 1), (TW_CFG.TGT_EN 2, 1), (TW_TGT_ADDR.ADDR0 2, 0x30), (TW_TGT_ADDR.EN0 2, 1)], 2, 0x30, by decide⟩

/-- PowerTransitionsAndWakes, clause 19: a state and operands that meet the hypotheses. -/
theorem test_PowerTransitionsAndWakes_19 : ∃ (s : State) (n : Fin 12) (addr : Fin 128), s.cur ≠ 3 :=
  ⟨State.reset, 2, 0x30, by decide⟩

/-- TopDieBringUpSteps, clause 1: a state and operands that meet the hypotheses. -/
theorem test_TopDieBringUpSteps_1 : ∃ (s : State), s.pwr.toppwrEn = true ∧ s.pwr.toppwrGood = false ∧ s.pwr.bring = 2 :=
  ⟨{ State.reset with pwr := { toppwrEn := true, bring := 2 } }, by decide⟩

/-- TopDieBringUpSteps, clause 2: a state and operands that meet the hypotheses. -/
theorem test_TopDieBringUpSteps_2 : ∃ (s : State), s.pwr.toppwrEn = false :=
  ⟨State.reset, by decide⟩

/-- TopDieBringUpSteps, clause 3: a state and operands that meet the hypotheses. -/
theorem test_TopDieBringUpSteps_3 : ∃ (s : State), (s.pwr.bring = 2 ∨ s.pwr.bring = 3) ∧ s.pwr.toppwrGood = false ∧ s.pwr.bringFrom = .a2Exit ∧ s.pwr.exitNext = false :=
  ⟨{ State.reset with pwr := { toppwrEn := true, bring := 2, bringFrom := .a2Exit } }, by decide⟩

/-- TopDieBringUpSteps, clause 4: a state and operands that meet the hypotheses. -/
theorem test_TopDieBringUpSteps_4 : ∃ (s : State), s.pwr.toppwrGood = true :=
  ⟨{ State.reset with pwr := { toppwrGood := true } }, by decide⟩

/-- TopDieBringUpSteps, clause 5: a state and operands that meet the hypotheses. -/
theorem test_TopDieBringUpSteps_5 : ∃ (s : State), s.pwr.bring = 3 ∧ s.pwr.toppwrGood = true :=
  ⟨{ State.reset with pwr := { toppwrEn := true, toppwrGood := true, bring := 3 } }, by decide⟩

/-- TopDieBringUpSteps, clause 6: a state and operands that meet the hypotheses. -/
theorem test_TopDieBringUpSteps_6 : ∃ (s : State), s.pwr.bring ≠ 3 :=
  ⟨State.reset, by decide⟩

/-- TopDieBringUpSteps, clause 7: a state and operands that meet the hypotheses. -/
theorem test_TopDieBringUpSteps_7 : ∃ (s : State) (bad : Option (Fin 4096)), s.pwr.bring = 5 ∧ bad = none :=
  ⟨{ State.reset with pwr := { bring := 5 } }, none, by decide⟩

/-- TopDieBringUpSteps, clause 8: a state and operands that meet the hypotheses. -/
theorem test_TopDieBringUpSteps_8 : ∃ (s : State) (bad : Option (Fin 4096)), s.pwr.bring = 5 ∧ bad.isSome = true ∧ s.locked = true ∧ s.pwr.bringFrom = .a2Exit ∧ s.pwr.exitNext = false :=
  ⟨({ State.reset with pwr := { bring := 5, bringFrom := .a2Exit } } : State).set ACD_STS.STATE 2, some 5, by decide⟩

/-- TopDieBringUpSteps, clause 9: a state and operands that meet the hypotheses. -/
theorem test_TopDieBringUpSteps_9 : ∃ (s : State) (bad : Option (Fin 4096)), s.pwr.bring ≠ 5 :=
  ⟨State.reset, none, by decide⟩

/-- TopDieBringUpSteps, clause 10: a state and operands that meet the hypotheses. -/
theorem test_TopDieBringUpSteps_10 : ∃ (s : State), s.pwr.bring = 7 ∧ s.pwr.bringFrom = .a2Exit ∧ s.pwr.exitNext = false :=
  ⟨{ State.reset with pwr := { bring := 7, bringFrom := .a2Exit } }, by decide⟩

/-- TopDieBringUpSteps, clause 11: a state and operands that meet the hypotheses. -/
theorem test_TopDieBringUpSteps_11 : ∃ (s : State), s.pwr.bring ≠ 7 :=
  ⟨State.reset, by decide⟩

/-- TopDieBringUpSteps, clause 12: a state and operands that meet the hypotheses. -/
theorem test_TopDieBringUpSteps_12 : ∃ (s : State), s.pwr.retry = true ∧ s.pwr.bring = 0 ∧ s.pwr.toppwrEn = false ∧ s.pwr.keepersRun = true ∧ s.cur = 2 ∧ s.pwr.trans = none :=
  ⟨{ State.reset with pwr := { retry := true, keepersRun := true } }, by decide⟩

/-- TopDieBringUpSteps, clause 13: a state and operands that meet the hypotheses. -/
theorem test_TopDieBringUpSteps_13 : ∃ (s : State), s.pwr.retry = false :=
  ⟨State.reset, by decide⟩

/-- TopDieBringUpSteps, clause 14: a state and operands that meet the hypotheses. -/
theorem test_TopDieBringUpSteps_14 : ∃ (s : State) (ini : Initiator), s.judge ini true PWRST_TOP_CAUSE.FAIL_RUN.addr = .allowed :=
  ⟨State.reset.setAll [(PWRST_TOP_CAUSE.FAIL_RUN, 4)], .keeper 0, by decide⟩

/-- TopDieBringUpSteps, clause 15: a state and operands that meet the hypotheses. -/
theorem test_TopDieBringUpSteps_15 : ∃ (s : State) (ok kept : Bool), s.bridgeUp = true ∧ s.tel.lpEnded = false ∧ s.get ACD_INFO.LP_CAP ≠ 0 ∧ s.pwr.lpHeld = false ∧ s.on TFAB_CTL.REC_RUN = false :=
  ⟨State.reset.setAll [(BRG_STS.STATE, 2), (ACD_INFO.LP_CAP, 16)], true, false, by decide⟩

/-- TopDieBringUpSteps, clause 16: a state and operands that meet the hypotheses. -/
theorem test_TopDieBringUpSteps_16 : ∃ (s : State) (ok kept : Bool), s.tel.lpEnded = true :=
  ⟨{ State.reset with tel := { lpEnded := true } }, true, true, by decide⟩

/-- TopDieBringUpSteps, clause 17: a state and operands that meet the hypotheses. -/
theorem test_TopDieBringUpSteps_17 : ∃ (s : State) (ok kept : Bool), s.bridgeUp = false :=
  ⟨State.reset, true, true, by decide⟩

/-- TopResetsRun, clause 1: a state and operands that meet the hypotheses. -/
theorem test_TopResetsRun_1 : ∃ (s : State) (ini : Initiator), s.judge ini true PWRST_CTL.TOP_RST.addr = .allowed ∧ s.pwr.warmOn = false ∧ s.pwr.rom = .none ∧ s.pwr.toppwrEn = true ∧ s.pwr.bring = 0 ∧ s.pwr.trans = none ∧ s.pwr.topReset = false :=
  ⟨({ State.reset with pwr := { toppwrEn := true, toppwrGood := true, topRst := false } } : State).set BRG_STS.STATE 2, .keeper 0, by decide⟩

/-- TopResetsRun, clause 2: a state and operands that meet the hypotheses. -/
theorem test_TopResetsRun_2 : ∃ (s : State) (ini : Initiator), s.judge ini true PWRST_CTL.TOP_RST.addr = .allowed ∧ s.pwr.warmOn = false ∧ s.pwr.rom = .none ∧ s.pwr.toppwrEn = true ∧ 3 ≤ s.pwr.bring ∧ (s.pwr.trans = none ∨ s.pwr.trans = some .toA0) ∧ s.pwr.topReset = false ∧ s.brgState ≠ 2 ∧ s.brgState ≠ 3 :=
  ⟨({ State.reset with pwr := { toppwrEn := true, toppwrGood := true, topRst := false, bring := 4 } } : State).set BRG_STS.STATE 1, .keeper 0, by decide⟩

/-- TopResetsRun, clause 3: a state and operands that meet the hypotheses. -/
theorem test_TopResetsRun_3 : ∃ (s : State) (ini : Initiator), s.judge ini true PWRST_CTL.TOP_RST.addr = .allowed ∧ s.pwr.warmOn = false ∧ s.pwr.rom = .none ∧ s.pwr.toppwrEn = true ∧ 3 ≤ s.pwr.bring ∧ (s.pwr.trans = none ∨ s.pwr.trans = some .toA0) ∧ s.pwr.topReset = false ∧ (s.brgState = 2 ∨ s.brgState = 3) :=
  ⟨({ State.reset with pwr := { toppwrEn := true, toppwrGood := true, topRst := false, bring := 7 } } : State).set BRG_STS.STATE 2, .keeper 0, by decide⟩

/-- TopResetsRun, clause 4: a state and operands that meet the hypotheses. -/
theorem test_TopResetsRun_4 : ∃ (s : State) (beats : Beats) (ps : List Nat) (q : List GuardMsg), s.brg.guardQ = .release ps :: q ∧ s.bridgeUp = true ∧ s.exhausted beats = false ∧ s.pwr.topReset = true ∧ s.pwr.trans = none :=
  ⟨({ State.reset with brg := { guardQ := [.release [5]] }, pwr := { topReset := true } } : State).set BRG_STS.STATE 2, ⟨0, 0⟩, [5], [], by decide⟩

/-- TopResetsRun, clause 5: a state and operands that meet the hypotheses. -/
theorem test_TopResetsRun_5 : ∃ (s : State), s.brgState = 3 ∧ s.brg.quiesceTo = .topReset :=
  ⟨({ State.reset with brg := { quiesceTo := .topReset }, pwr := { topReset := true } } : State).set BRG_STS.STATE 3, by decide⟩

/-- TopResetsRun, clause 6: a state and operands that meet the hypotheses. -/
theorem test_TopResetsRun_6 : ∃ (s : State) (ini : Initiator), s.judge ini true PWRST_CTL.TOP_RST.addr = .allowed ∧ s.pwr.warmOn = false ∧ s.pwr.rom = .none ∧ s.pwr.toppwrEn = true ∧ s.pwr.bring = 0 ∧ s.pwr.trans = none ∧ s.pwr.topReset = true :=
  ⟨{ State.reset with pwr := { toppwrEn := true, topReset := true } }, .keeper 0, by decide⟩

/-- TopResetsRun, clause 7: a state and operands that meet the hypotheses. -/
theorem test_TopResetsRun_7 : ∃ (s : State) (ini : Initiator), s.judge ini true PWRST_CTL.TOP_RST.addr = .allowed ∧ s.pwr.warmOn = false ∧ s.pwr.rom = .none ∧ s.pwr.toppwrEn = true ∧ s.pwr.bring = 0 ∧ s.pwr.trans = some .toA1 :=
  ⟨{ State.reset with pwr := { toppwrEn := true, trans := some .toA1 } }, .keeper 0, by decide⟩

/-- TopResetsRun, clause 8: a state and operands that meet the hypotheses. -/
theorem test_TopResetsRun_8 : ∃ (s : State) (ini : Initiator), s.judge ini true PWRST_CTL.TOP_RST.addr = .allowed ∧ s.pwr.toppwrEn = false :=
  ⟨State.reset, .keeper 0, by decide⟩

/-- TopResetsRun, clause 9: a state and operands that meet the hypotheses. -/
theorem test_TopResetsRun_9 : ∃ (s : State) (ini : Initiator), s.judge ini true PWRST_CTL.TOP_RST.addr = .allowed ∧ s.pwr.warmOn = true :=
  ⟨{ State.reset with pwr := { warmOn := true, toppwrEn := true } }, .keeper 0, by decide⟩

/-- TopResetsRun, clause 10: a state and operands that meet the hypotheses. -/
theorem test_TopResetsRun_10 : ∃ (s : State), s.pwr.topReset = true ∧ s.brgState = brgOff :=
  ⟨{ State.reset with pwr := { topReset := true } }, by decide⟩

/-- TopResetsRun, clause 11: a state and operands that meet the hypotheses. -/
theorem test_TopResetsRun_11 : ∃ (s : State), s.pwr.topReset = false :=
  ⟨State.reset, by decide⟩

/-- TopResetsRun, clause 12: a state and operands that meet the hypotheses. -/
theorem test_TopResetsRun_12 : ∃ (s : State), s.pwr.warmOn = false ∧ s.pwr.rom = .none ∧ s.pwr.toppwrEn = true ∧ s.pwr.toppwrGood = true ∧ s.pwr.bring = 0 ∧ s.pwr.topReset = false ∧ s.pwr.trans = none :=
  ⟨{ State.reset with pwr := { toppwrEn := true, toppwrGood := true } }, by decide⟩

/-- TopResetsRun, clause 13: a state and operands that meet the hypotheses. -/
theorem test_TopResetsRun_13 : ∃ (s : State), s.pwr.toppwrEn = true ∧ s.pwr.toppwrGood = true ∧ s.pwr.bring = 0 ∧ s.pwr.topReset = true ∧ s.pwr.topRst = false :=
  ⟨({ State.reset with pwr := { toppwrEn := true, toppwrGood := true, topRst := false, topReset := true } } : State).set BRG_STS.STATE 2, by decide⟩

/-- TopResetsRun, clause 14: a state and operands that meet the hypotheses. -/
theorem test_TopResetsRun_14 : ∃ (s : State), s.pwr.toppwrEn = true ∧ s.pwr.toppwrGood = true ∧ 3 ≤ s.pwr.bring ∧ s.pwr.bringFrom = .a2Exit ∧ s.pwr.exitNext = false :=
  ⟨{ State.reset with pwr := { toppwrEn := true, toppwrGood := true, bring := 4, bringFrom := .a2Exit } }, by decide⟩

/-- TopResetsRun, clause 15: a state and operands that meet the hypotheses. -/
theorem test_TopResetsRun_15 : ∃ (s : State), s.pwr.toppwrGood = false :=
  ⟨State.reset, by decide⟩

/-- TampEvaluatesLevels, clause 1: a state and operands that meet the hypotheses. -/
theorem test_TampEvaluatesLevels_1 : ∃ (s : State) (codes : List (Fin 4096)) (vin : Fin 4096), s.digRun = true ∧ s.cur ≠ 3 ∧ s.tamp.lastTick ≠ some s.tick :=
  ⟨State.reset.setAll [(PWRST_STATE.CUR, 0), (ACD_INFO.ACC_COUNT, 4), (TAMP_CMP_STS.LVL 3, 3), (TAMP_CMP_CFG.SCOPE 3, 2)], [7], 3200, by decide⟩

/-- TampEvaluatesLevels, clause 2: a state and operands that meet the hypotheses. -/
theorem test_TampEvaluatesLevels_2 : ∃ (s : State) (codes : List (Fin 4096)) (vin : Fin 4096), s.digRun = false ∧ s.cur ≠ 3 ∧ s.tamp.lastTick ≠ some s.tick :=
  ⟨State.reset.setAll [(TAMP_STS.SAFE, 1)], [7], 3200, by decide⟩

/-- TampEvaluatesLevels, clause 3: a state and operands that meet the hypotheses. -/
theorem test_TampEvaluatesLevels_3 : ∃ (s : State) (codes : List (Fin 4096)) (vin : Fin 4096), s.cur = 3 :=
  ⟨State.reset.setAll [(PWRST_STATE.CUR, 3)], [7], 3200, by decide⟩

/-- TampEvaluatesLevels, clause 4: a state and operands that meet the hypotheses. -/
theorem test_TampEvaluatesLevels_4 : ∃ (s : State) (codes : List (Fin 4096)) (vin : Fin 4096), s.cur ≠ 3 ∧ s.tamp.lastTick = some s.tick :=
  ⟨{ State.reset with tamp := { lastTick := some 0 } }, [7], 3200, by decide⟩

/-- TampEvaluatesLevels, clause 6: a state and operands that meet the hypotheses. -/
theorem test_TampEvaluatesLevels_6 : ∃ (s : State) (k : Fin 64), s.on (TAMP_ANA.EN k.val) = true ∧ s.get (TAMP_ANA.THR k.val) ≠ 0xFF ∧ s.cur ≠ 3 ∧ s.pwr.borOn = false ∧ s.on (TAMP_ANA.TRIP k.val) = false :=
  ⟨State.reset.setAll [(TAMP_ANA.EN 5, 1), (TAMP_ANA.THR 5, 80), (ACD_INFO.ACC_COUNT, 4)], 5, by decide⟩

/-- TampEvaluatesLevels, clause 7: a state and operands that meet the hypotheses. -/
theorem test_TampEvaluatesLevels_7 : ∃ (s : State) (k : Fin 64), s.get (TAMP_ANA.THR k.val) = 0xFF :=
  ⟨State.reset.setAll [(TAMP_ANA.THR 5, 255)], 5, by decide⟩

/-- TampEvaluatesLevels, clause 8: a state and operands that meet the hypotheses. -/
theorem test_TampEvaluatesLevels_8 : ∃ (s : State) (k : Fin 64), s.on (TAMP_ANA.TRIP k.val) = true ∧ s.on (TAMP_ANA.ACT k.val) = false ∧ s.on (TAMP_ANA.LATCH k.val) = false ∧ s.cur ≠ 3 :=
  ⟨State.reset.setAll [(TAMP_ANA.TRIP 5, 1), (TAMP_ANA.LATCH 5, 0)], 5, by decide⟩

/-- TampEvaluatesLevels, clause 9: a state and operands that meet the hypotheses. -/
theorem test_TampEvaluatesLevels_9 : ∃ (s : State) (k : Fin 64), s.on (TAMP_ANA.LATCH k.val) = true :=
  ⟨State.reset.setAll [(TAMP_ANA.LATCH 5, 1)], 5, by decide⟩

/-- TampEvaluatesLevels, clause 10: a state and operands that meet the hypotheses. -/
theorem test_TampEvaluatesLevels_10 : ∃ (s : State) (die : Fin 65536) (td0 td1 td2 td3 : TdIn), s.pwr.borOn = false ∧ s.on TAMP_CRIT.ASSERTED = false ∧ s.critTemp < sgn 16 die.val ∧ s.tamp.hot[0]? = some 1 :=
  ⟨{ State.reset with tamp := { hot := [1, 0, 0, 0, 0] } }, 30000, .reads 5, .reads 5, .openTd, .shortTd, by decide⟩

/-- TampEvaluatesLevels, clause 11: a state and operands that meet the hypotheses. -/
theorem test_TampEvaluatesLevels_11 : ∃ (s : State) (die : Fin 65536) (td0 td1 td2 td3 : TdIn), s.pwr.borOn = false ∧ s.tamp.hot = [0, 0, 0, 0, 0] ∧ s.tamp.bad = [0, 0, 0, 0, 0] :=
  ⟨State.reset, 30000, .reads 5, .reads 5, .openTd, .shortTd, by decide⟩

/-- TampEvaluatesLevels, clause 12: a state and operands that meet the hypotheses. -/
theorem test_TampEvaluatesLevels_12 : ∃ (s : State) (die : Fin 65536) (td0 td1 td2 td3 : TdIn), s.on TAMP_CRIT.ASSERTED = true :=
  ⟨State.reset.setAll [(TAMP_CRIT.ASSERTED, 1)], 3, .reads 5, .reads 5, .openTd, .shortTd, by decide⟩

/-- TampEvaluatesLevels, clause 13: a state and operands that meet the hypotheses. -/
theorem test_TampEvaluatesLevels_13 : ∃ (s : State) (die : Fin 65536) (td0 td1 td2 td3 : TdIn), s.pwr.borOn = true :=
  ⟨{ State.reset with pwr := { borOn := true } }, 3, .reads 5, .reads 5, .openTd, .shortTd, by decide⟩

/-- TampClearsNeedPresence, clause 1: a state and operands that meet the hypotheses. -/
theorem test_TampClearsNeedPresence_1 : ∃ (s : State) (ini : Initiator) (mask : Fin 256), s.judge ini true TAMP_CLR.RED_CLR.addr = .allowed ∧ mask.val ≠ 0 :=
  ⟨State.reset.setAll [(TAMP_CMP_STS.LVL 3, 2), (TAMP_CMP_CFG.LATCH 3, 1), (TAMP_CMP_CFG.SCOPE 3, 1), (ACD_INFO.ACC_COUNT, 3), (TAMP_LVL.LVL, 8)], .keeper 0, 2, by decide⟩

/-- TampClearsNeedPresence, clause 2: a state and operands that meet the hypotheses. -/
theorem test_TampClearsNeedPresence_2 : ∃ (s : State) (ini : Initiator) (mask : Fin 256), s.judge ini true TAMP_CLR.RED_CLR.addr = .allowed ∧ mask.val = 0 :=
  ⟨State.reset, .keeper 0, 0, by decide⟩

/-- TampClearsNeedPresence, clause 3: a state and operands that meet the hypotheses. -/
theorem test_TampClearsNeedPresence_3 : ∃ (s : State) (ini : Initiator) (mask : Fin 256), s.judge ini true TAMP_CLR.BLK_CLR.addr = .allowed ∧ mask.val ≠ 0 ∧ s.on KEY_PRES.OPEN = true :=
  ⟨State.reset.setAll [(TAMP_CMP_STS.LVL 3, 3), (TAMP_CMP_CFG.SCOPE 3, 1), (ACD_INFO.ACC_COUNT, 3), (TAMP_LVL.LVL, 12), (SEQ_LATCH.BLACK, 2), (KEY_PRES.OPEN, 1)], .keeper 0, 2, by decide⟩

/-- TampClearsNeedPresence, clause 4: a state and operands that meet the hypotheses. -/
theorem test_TampClearsNeedPresence_4 : ∃ (s : State) (ini : Initiator) (mask : Fin 256), s.judge ini true TAMP_CLR.BLK_CLR.addr = .allowed ∧ mask.val ≠ 0 ∧ s.on KEY_PRES.OPEN = false :=
  ⟨State.reset, .keeper 0, 2, by decide⟩

/-- TampClearsNeedPresence, clause 5: a state and operands that meet the hypotheses. -/
theorem test_TampClearsNeedPresence_5 : ∃ (s : State) (ini : Initiator) (mask : Fin 256), s.judge ini true TAMP_CLR.BLK_CLR.addr = .allowed ∧ mask.val = 0 :=
  ⟨State.reset, .keeper 0, 0, by decide⟩

/-- TampClearsNeedPresence, clause 6: a state and operands that meet the hypotheses. -/
theorem test_TampClearsNeedPresence_6 : ∃ (s : State) (ini : Initiator), s.judge ini true TAMP_CRIT.CLR.addr = .allowed ∧ s.on KEY_PRES.OPEN = true ∧ s.allCool = true :=
  ⟨State.reset.setAll [(KEY_PRES.OPEN, 1), (TAMP_CRIT.ASSERTED, 1)], .keeper 0, by decide⟩

/-- TampClearsNeedPresence, clause 7: a state and operands that meet the hypotheses. -/
theorem test_TampClearsNeedPresence_7 : ∃ (s : State) (ini : Initiator), s.judge ini true TAMP_CRIT.CLR.addr = .allowed ∧ s.on KEY_PRES.OPEN = false :=
  ⟨State.reset, .keeper 0, by decide⟩

/-- TampClearsNeedPresence, clause 8: a state and operands that meet the hypotheses. -/
theorem test_TampClearsNeedPresence_8 : ∃ (s : State) (ini : Initiator), s.judge ini true TAMP_CRIT.CLR.addr = .allowed ∧ s.on KEY_PRES.OPEN = true ∧ s.allCool = false :=
  ⟨({ State.reset with tamp := { cool := false } } : State).set KEY_PRES.OPEN 1, .keeper 0, by decide⟩

/-- TampClearsNeedPresence, clause 9: a state and operands that meet the hypotheses. -/
theorem test_TampClearsNeedPresence_9 : ∃ (s : State) (ini : Initiator), s.judge ini true TAMP_CNT_CLR.CLR.addr = .allowed :=
  ⟨State.reset.setAll [(TAMP_CNT.RED 3, 5)], .keeper 0, by decide⟩

/-- CoolingSetsDuties, clause 1: a state and operands that meet the hypotheses. -/
theorem test_CoolingSetsDuties_1 : ∃ (s : State), s.cool.ch.length = 30 :=
  ⟨State.reset.setAll [(COOL_STS.F_START, 1), (COOL_FAN_DUTY.OUT 3, 500)], by decide⟩

/-- CoolingSetsDuties, clause 2: a state and operands that meet the hypotheses. -/
theorem test_CoolingSetsDuties_2 : ∃ (s : State) (tach : List TachIn), s.cur ≠ 3 ∧ s.coolRuns = true ∧ s.on COOL_CWDT_STS.TRIP = false :=
  ⟨State.reset.setAll [(COOL_STS.RUNNING, 1), (COOL_ZONE_FLOOR.FLOOR 2, 40)], [], by decide⟩

/-- CoolingSetsDuties, clause 3: a state and operands that meet the hypotheses. -/
theorem test_CoolingSetsDuties_3 : ∃ (s : State) (tach : List TachIn), s.cur ≠ 3 ∧ s.coolRuns = true ∧ s.on COOL_CWDT_STS.TRIP = false ∧ s.cool.ch.length = 30 :=
  ⟨({ State.reset with cool := { ch := [{ t := 0 }, { t := 300 }, { t := 200 }, { t := 5 }, { t := 499 }, { t := 4 }, { since := 90000000, lastInt := 1000 }, { since := 90000000 }, { since := 100, lastInt := 100000000, loop := 700, ePrev := 5 }] ++ List.replicate 21 {} } } : State).setAll ([(COOL_STS.RUNNING, 1), (COOL_ZONE_FLOOR.FLOOR 0, 40), (COOL_FAN_SENSE.EN 7, 1), (COOL_FAN_LOOP.KP 8, 300), (COOL_FAN_LOOP.KI 8, 20), (COOL_FAN_STS.ATTEMPT 1, 2), (COOL_FAN_STS.ATTEMPT 2, 3), (COOL_FAN_STS.ATTEMPT 4, 1), (COOL_FAN_SENSE.I_LO 7, 9)] ++ (List.range 9).flatMap (fun n => [(COOL_FAN_CFG.EN n, 1), (COOL_FAN_CFG.PPR n, 2), (COOL_FAN_CFG.RPM_MAX n, 16000), (COOL_FAN_STS.MODE n, [0, 1, 1, 1, 2, 2, 3, 3, 3].getD n 0)])), [], by decide⟩

/-- CoolingSetsDuties, clause 4: a state and operands that meet the hypotheses. -/
theorem test_CoolingSetsDuties_4 : ∃ (s : State) (tach : List TachIn), s.cur ≠ 3 ∧ s.coolRuns = false ∧ s.on COOL_CWDT_STS.TRIP = true :=
  ⟨({ State.reset with cool := { cwdtRun := 9 } } : State).set COOL_CWDT_STS.TRIP 1, [], by decide⟩

/-- CoolingSetsDuties, clause 5: a state and operands that meet the hypotheses. -/
theorem test_CoolingSetsDuties_5 : ∃ (s : State) (tach : List TachIn), s.cur = 3 :=
  ⟨State.reset.setAll [(PWRST_STATE.CUR, 3)], [], by decide⟩

/-- CoolingSetsDuties, clause 6: a state and operands that meet the hypotheses. -/
theorem test_CoolingSetsDuties_6 : ∃ (s : State), s.on COOL_STS.RUNNING = true ∧ s.cur ≠ 3 :=
  ⟨State.reset.setAll [(COOL_STS.RUNNING, 1), (COOL_ZONE_CFG.SRC 1, 200)], by decide⟩

/-- CoolingSetsDuties, clause 7: a state and operands that meet the hypotheses. -/
theorem test_CoolingSetsDuties_7 : ∃ (s : State), s.on COOL_STS.RUNNING = false :=
  ⟨State.reset, by decide⟩

/-- CoolingSetsDuties, clause 8: a state and operands that meet the hypotheses. -/
theorem test_CoolingSetsDuties_8 : ∃ (s : State) (flows : List (List Nat)), s.coolRuns = true :=
  ⟨State.reset.setAll [(COOL_STS.RUNNING, 1)], [], by decide⟩

/-- CoolingSetsDuties, clause 9: a state and operands that meet the hypotheses. -/
theorem test_CoolingSetsDuties_9 : ∃ (s : State) (flows : List (List Nat)), s.coolRuns = true ∧ s.cool.ch.length = 30 ∧ s.cool.pumps.length = 6 :=
  ⟨({ State.reset with cool := { ch := List.replicate 30 { loop := 300, ePrev := 7 }, pumps := List.replicate 6 { low := 98, fl := 10 } } } : State).setAll ([(COOL_STS.RUNNING, 1)] ++ (List.range 4).flatMap (fun p => [(COOL_PMP_CFG.EN p, 1), (COOL_PMP_CFG.FLW p, [0, 1, 7, 6].getD p 0), (COOL_PMP_CFG.SIG p, 200), (COOL_PMP_LOOP.KP p, 500), (COOL_PMP_LOOP.DMAX p, 180), (COOL_PMP_FLOW.FLOW_MIN p, 500), (COOL_PMP_CFG.FLOW_TO p, 0), (COOL_PMP_MEAS.OUT p, 950)])), [], by decide⟩

/-- CoolingSetsDuties, clause 10: a state and operands that meet the hypotheses. -/
theorem test_CoolingSetsDuties_10 : ∃ (s : State) (flows : List (List Nat)), s.coolRuns = false :=
  ⟨State.reset, [], by decide⟩

/-- CoolingStartStallAndWatchdogs, clause 1: a state and operands that meet the hypotheses. -/
theorem test_CoolingStartStallAndWatchdogs_1 : ∃ (s : State) (ini : Initiator), s.judge ini true COOL_CTL.START.addr = .allowed ∧ fromKeeper ini = true ∧ s.on COOL_STS.F_START = true :=
  ⟨State.reset.setAll [(COOL_FAN_CFG.EN 2, 1)], .keeper 0, by decide⟩

/-- CoolingStartStallAndWatchdogs, clause 2: a state and operands that meet the hypotheses. -/
theorem test_CoolingStartStallAndWatchdogs_2 : ∃ (s : State) (ini : Initiator), s.judge ini true COOL_CTL.START.addr = .allowed ∧ (fromKeeper ini = false ∨ s.on COOL_STS.F_START = false) :=
  ⟨{ State.reset.setAll [(BRG_STS.STATE, 2)] with pwr := { toppwrEn := true, toppwrGood := true, topRst := false } }, .core 0, by decide⟩

/-- CoolingStartStallAndWatchdogs, clause 3: a state and operands that meet the hypotheses. -/
theorem test_CoolingStartStallAndWatchdogs_3 : ∃ (s : State) (ini : Initiator) (ch : Fin 30) (word : Word), s.judge ini true (chStall ch.val).addr = .allowed ∧ bitOf word.toNat 3 = true ∧ s.on (chStall ch.val) = true :=
  ⟨State.reset.setAll [(COOL_FAN_STS.STALL 3, 1)], .keeper 0, 3, 24, by decide⟩

/-- CoolingStartStallAndWatchdogs, clause 4: a state and operands that meet the hypotheses. -/
theorem test_CoolingStartStallAndWatchdogs_4 : ∃ (s : State) (ini : Initiator) (ch : Fin 30) (word : Word), s.judge ini true (chStall ch.val).addr = .allowed ∧ bitOf word.toNat 3 = false :=
  ⟨State.reset, .keeper 0, 26, 16, by decide⟩

/-- CoolingStartStallAndWatchdogs, clause 5: a state and operands that meet the hypotheses. -/
theorem test_CoolingStartStallAndWatchdogs_5 : ∃ (s : State) (session : Fin 16), s.bridgeUp = true ∧ s.hwdtCounts = true :=
  ⟨State.reset.setAll [(BRG_STS.STATE, 2), (PWRST_STATE.CUR, 0), (COOL_HWDT_STS.EXPIRED, 1)], 3, by decide⟩

/-- CoolingStartStallAndWatchdogs, clause 6: a state and operands that meet the hypotheses. -/
theorem test_CoolingStartStallAndWatchdogs_6 : ∃ (s : State) (session : Fin 16), s.bridgeUp = false :=
  ⟨State.reset, 3, by decide⟩

/-- CoolingStartStallAndWatchdogs, clause 7: a state and operands that meet the hypotheses. -/
theorem test_CoolingStartStallAndWatchdogs_7 : ∃ (s : State), s.on COOL_HWDT_STS.ARMED = true ∧ s.hwdtCounts = true :=
  ⟨State.reset.setAll [(PWRST_STATE.CUR, 0), (COOL_HWDT_STS.ARMED, 1)], by decide⟩

/-- CoolingStartStallAndWatchdogs, clause 8: a state and operands that meet the hypotheses. -/
theorem test_CoolingStartStallAndWatchdogs_8 : ∃ (s : State), (s.on COOL_HWDT_STS.ARMED = false ∨ s.hwdtCounts = false) :=
  ⟨State.reset, by decide⟩

/-- CoolingStartStallAndWatchdogs, clause 9: a state and operands that meet the hypotheses. -/
theorem test_CoolingStartStallAndWatchdogs_9 : ∃ (s : State), s.on COOL_CWDT_STS.TRIP = false ∧ s.cur ≠ 3 :=
  ⟨State.reset, by decide⟩

/-- CoolingStartStallAndWatchdogs, clause 10: a state and operands that meet the hypotheses. -/
theorem test_CoolingStartStallAndWatchdogs_10 : ∃ (s : State), s.on COOL_CWDT_STS.TRIP = true :=
  ⟨State.reset.setAll [(COOL_CWDT_STS.TRIP, 1)], by decide⟩

/-- LeaksCloseValves, clause 1: a state and operands that meet the hypotheses. -/
theorem test_LeaksCloseValves_1 : ∃ (s : State) (k : Fin 16) (imp : Nat), s.get (COOL_LK_CFG.KIND k.val) ≠ 0 ∧ s.on (COOL_LK_STS.LEAK k.val) = false ∧ imp < s.get (COOL_LK_THR.LEAK k.val) * 100 ∧ imp ≤ 10000000 ∧ s.get (COOL_LK_CFG.PERSIST k.val) ≤ (s.leak k.val).below ∧ s.cool.leaks.length = 16 ∧ bitOf (s.get PWRST_WAKE_EN.EN) 9 = false :=
  ⟨({ State.reset with cool := { leaks := List.replicate 16 { below := 9, above := 0 } } } : State).setAll [(COOL_LK_CFG.KIND 4, 1), (COOL_LK_THR.LEAK 4, 50), (ACD_STS.STATE, 2), (PWRST_STATE.CUR, 0), (COOL_LK_RESP.VALVES 4, 5)], 4, 3, by decide⟩

/-- LeaksCloseValves, clause 2: a state and operands that meet the hypotheses. -/
theorem test_LeaksCloseValves_2 : ∃ (s : State) (k : Fin 16) (imp : Nat), s.get (COOL_LK_CFG.KIND k.val) ≠ 0 ∧ (s.get (COOL_LK_CFG.KIND k.val) = 1 ∨ imp ≤ s.get (COOL_LK_THR.OPEN k.val) * 100) ∧ s.get (COOL_LK_THR.LEAK k.val) * 100 ≤ imp ∧ imp ≤ 10000000 ∧ s.cool.leaks.length = 16 :=
  ⟨({ State.reset with cool := { leaks := List.replicate 16 { below := 2, above := 0 } } } : State).setAll [(COOL_LK_CFG.KIND 4, 1), (COOL_LK_THR.LEAK 4, 50)], 4, 5001, by decide⟩

/-- LeaksCloseValves, clause 3: a state and operands that meet the hypotheses. -/
theorem test_LeaksCloseValves_3 : ∃ (s : State) (k : Fin 16) (imp : Nat), s.get (COOL_LK_CFG.KIND k.val) ≠ 0 ∧ s.cur = 1 ∧ s.on (COOL_LK_STS.LEAK k.val) = false ∧ imp < s.get (COOL_LK_THR.LEAK k.val) * 100 ∧ imp ≤ 10000000 ∧ s.get (COOL_LK_CFG.PERSIST k.val) ≤ (s.leak k.val).below ∧ s.cool.leaks.length = 16 ∧ bitOf (s.get PWRST_WAKE_EN.EN) 9 = true ∧ s.pwr.trans = none ∧ s.pwr.toppwrEn = true ∧ s.resetRuns = false :=
  ⟨({ State.reset with cool := { leaks := List.replicate 16 { below := 9 } }, pwr := { toppwrEn := true } } : State).setAll [(COOL_LK_CFG.KIND 4, 1), (COOL_LK_THR.LEAK 4, 50), (PWRST_STATE.CUR, 1), (PWRST_WAKE_EN.EN, 512)], 4, 3, by decide⟩

/-- LeaksCloseValves, clause 4: a state and operands that meet the hypotheses. -/
theorem test_LeaksCloseValves_4 : ∃ (s : State) (k : Fin 16) (imp v : Nat), v = (if 10000000 < imp then 0xFFFFFF else imp) ∧ s.get (COOL_LK_CFG.KIND k.val) = 2 ∧ s.get (COOL_LK_THR.OPEN k.val) ≠ 0 ∧ s.get (COOL_LK_THR.OPEN k.val) * 100 < v ∧ s.get (COOL_LK_THR.LEAK k.val) * 100 ≤ v ∧ s.cool.leaks.length = 16 :=
  ⟨({ State.reset with cool := { leaks := List.replicate 16 { below := 0, above := 0 } } } : State).setAll [(COOL_LK_CFG.KIND 4, 2), (COOL_LK_THR.LEAK 4, 50), (COOL_LK_THR.OPEN 4, 900)], 4, 20000000, 0xFFFFFF, by decide⟩

/-- LeaksCloseValves, clause 5: a state and operands that meet the hypotheses. -/
theorem test_LeaksCloseValves_5 : ∃ (s : State) (k : Fin 16) (imp : Nat), s.get (COOL_LK_CFG.KIND k.val) ≠ 0 ∧ s.on (COOL_LK_STS.LEAK k.val) = false ∧ imp < s.get (COOL_LK_THR.LEAK k.val) * 100 ∧ imp ≤ 10000000 ∧ s.get (COOL_LK_CFG.PERSIST k.val) ≤ (s.leak k.val).below ∧ s.cool.leaks.length = 16 ∧ bitOf (s.get PWRST_WAKE_EN.EN) 9 = true ∧ s.cur = 2 ∧ s.pwr.trans = none ∧ s.pwr.warmOn = false ∧ s.pwr.rom = .none ∧ s.pwr.kfwHalt = false ∧ s.pwr.toppwrEn = false ∧ s.retryAllowed = true ∧ bitOf (s.get PWRST_WAKE_TGT.TGT) 9 = true :=
  ⟨({ State.reset with cool := { leaks := List.replicate 16 { below := 9, above := 0 } } } : State).setAll [(COOL_LK_CFG.KIND 4, 2), (COOL_LK_THR.LEAK 4, 50), (PWRST_STATE.CUR, 2), (PWRST_WAKE_EN.EN, 512), (PWRST_WAKE_TGT.TGT, 512)], 4, 3, by decide⟩

/-- LeaksCloseValves, clause 6: a state and operands that meet the hypotheses. -/
theorem test_LeaksCloseValves_6 : ∃ (s : State) (k : Fin 16) (imp : Nat), s.get (COOL_LK_CFG.KIND k.val) ≠ 0 ∧ s.on (COOL_LK_STS.LEAK k.val) = false ∧ imp < s.get (COOL_LK_THR.LEAK k.val) * 100 ∧ imp ≤ 10000000 ∧ s.get (COOL_LK_CFG.PERSIST k.val) ≤ (s.leak k.val).below ∧ s.cool.leaks.length = 16 ∧ bitOf (s.get PWRST_WAKE_EN.EN) 9 = true ∧ s.cur = 2 ∧ s.pwr.trans = none ∧ s.pwr.warmOn = false ∧ s.pwr.rom = .none ∧ s.pwr.kfwHalt = false ∧ s.pwr.toppwrEn = false ∧ s.retryAllowed = true ∧ bitOf (s.get PWRST_WAKE_TGT.TGT) 9 = false :=
  ⟨({ State.reset with cool := { leaks := List.replicate 16 { below := 9, above := 0 } } } : State).setAll [(COOL_LK_CFG.KIND 4, 2), (COOL_LK_THR.LEAK 4, 50), (PWRST_STATE.CUR, 2), (PWRST_WAKE_EN.EN, 512), (PWRST_WAKE_TGT.TGT, 0)], 4, 3, by decide⟩

/-- LeaksCloseValves, clause 7: a state and operands that meet the hypotheses. -/
theorem test_LeaksCloseValves_7 : ∃ (s : State) (k : Fin 16) (imp : Nat), s.get (COOL_LK_CFG.KIND k.val) ≠ 0 ∧ s.on (COOL_LK_STS.LEAK k.val) = false ∧ imp < s.get (COOL_LK_THR.LEAK k.val) * 100 ∧ imp ≤ 10000000 ∧ s.get (COOL_LK_CFG.PERSIST k.val) ≤ (s.leak k.val).below ∧ s.cool.leaks.length = 16 ∧ bitOf (s.get PWRST_WAKE_EN.EN) 9 = true ∧ s.cur = 3 ∧ s.pwr.trans = none ∧ s.resetRuns = false :=
  ⟨({ State.reset with cool := { leaks := List.replicate 16 { below := 9, above := 0 } } } : State).setAll [(COOL_LK_CFG.KIND 4, 2), (COOL_LK_THR.LEAK 4, 50), (PWRST_STATE.CUR, 3), (PWRST_WAKE_EN.EN, 512), (PWRST_WAKE_TGT.TGT, 512)], 4, 3, by decide⟩

/-- LeaksCloseValves, clause 8: a state and operands that meet the hypotheses. -/
theorem test_LeaksCloseValves_8 : ∃ (s : State) (k : Fin 16) (imp : Nat), s.get (COOL_LK_CFG.KIND k.val) = 0 :=
  ⟨State.reset, 4, 3, by decide⟩

/-- LeaksCloseValves, clause 9: a state and operands that meet the hypotheses. -/
theorem test_LeaksCloseValves_9 : ∃ (s : State) (k : Fin 16), (s.leak k.val).delay = true ∧ s.cool.leaks.length = 16 ∧ s.seqHeld = false :=
  ⟨{ State.reset with cool := { leaks := List.replicate 16 { delay := true } } }, 4, by decide⟩

/-- LeaksCloseValves, clause 10: a state and operands that meet the hypotheses. -/
theorem test_LeaksCloseValves_10 : ∃ (s : State) (k : Fin 16), (s.leak k.val).delay = true ∧ s.cool.leaks.length = 16 ∧ s.seqHeld = true :=
  ⟨{ State.reset with pwr := { warmOn := true }, cool := { leaks := List.replicate 16 { delay := true } } }, 4, by decide⟩

/-- LeaksCloseValves, clause 11: a state and operands that meet the hypotheses. -/
theorem test_LeaksCloseValves_11 : ∃ (s : State) (k : Fin 16), (s.leak k.val).delay = false :=
  ⟨State.reset, 4, by decide⟩

/-- LeaksCloseValves, clause 12: a state and operands that meet the hypotheses. -/
theorem test_LeaksCloseValves_12 : ∃ (s : State) (ini : Initiator) (k : Fin 16) (word : Word), s.judge ini true (COOL_LK_STS.CLR k.val).addr = .allowed ∧ bitOf word.toNat 3 = true ∧ s.on KEY_PRES.OPEN = true ∧ s.on (COOL_LK_STS.ACTIVE k.val) = false ∧ s.get (COOL_LK_CFG.PERSIST k.val) < (s.leak k.val).above :=
  ⟨({ State.reset with cool := { leaks := List.replicate 16 { below := 0, above := 9 } } } : State).setAll [(KEY_PRES.OPEN, 1), (COOL_LK_STS.LEAK 4, 1)], .keeper 0, 4, 8, by decide⟩

/-- LeaksCloseValves, clause 13: a state and operands that meet the hypotheses. -/
theorem test_LeaksCloseValves_13 : ∃ (s : State) (ini : Initiator) (k : Fin 16) (word : Word), s.judge ini true (COOL_LK_STS.CLR k.val).addr = .allowed ∧ bitOf word.toNat 3 = true ∧ bitOf word.toNat 2 = false ∧ s.on KEY_PRES.OPEN = false :=
  ⟨State.reset, .keeper 0, 4, 8, by decide⟩

/-- LeaksCloseValves, clause 14: a state and operands that meet the hypotheses. -/
theorem test_LeaksCloseValves_14 : ∃ (s : State) (ini : Initiator) (k : Fin 16) (word : Word), s.judge ini true (COOL_LK_STS.CLR k.val).addr = .allowed ∧ bitOf word.toNat 3 = true ∧ bitOf word.toNat 2 = false ∧ s.on KEY_PRES.OPEN = true ∧ s.on (COOL_LK_STS.ACTIVE k.val) = true :=
  ⟨State.reset.setAll [(KEY_PRES.OPEN, 1), (COOL_LK_STS.ACTIVE 4, 1)], .keeper 0, 4, 8, by decide⟩

/-- LeaksCloseValves, clause 15: a state and operands that meet the hypotheses. -/
theorem test_LeaksCloseValves_15 : ∃ (s : State) (ini : Initiator) (k : Fin 16) (word : Word), s.judge ini true (COOL_LK_STS.CLR k.val).addr = .allowed ∧ bitOf word.toNat 3 = true ∧ bitOf word.toNat 2 = false ∧ s.on KEY_PRES.OPEN = true ∧ s.on (COOL_LK_STS.ACTIVE k.val) = false ∧ (s.leak k.val).above ≤ s.get (COOL_LK_CFG.PERSIST k.val) :=
  ⟨State.reset.setAll [(KEY_PRES.OPEN, 1)], .keeper 0, 4, 8, by decide⟩

/-- LeaksCloseValves, clause 16: a state and operands that meet the hypotheses. -/
theorem test_LeaksCloseValves_16 : ∃ (s : State) (ini : Initiator) (word : Word), s.judge ini true COOL_VLV.CMD_CLOSE.addr = .allowed :=
  ⟨({ State.reset with acd := { xbar := [(9, 0xA02, 0)] } } : State).set ACD_STS.STATE 2, .keeper 0, 5, by decide⟩

/-- ConsumablesAreCheckedAndAge, clause 1: a state and operands that meet the hypotheses. -/
theorem test_ConsumablesAreCheckedAndAge_1 : ∃ (s : State), s.coolRuns = true :=
  ⟨({ State.reset with cool := { cons := List.replicate 32 { present := true, checking := false, serial := [1] } } } : State).setAll [(COOL_STS.RUNNING, 1), (COOL_CONS_CFG.CLASS 3, 2), (COOL_CONS_LIFE.HOURS 3, 9), (COOL_CONS_LINK.PUMPS 3, 1), (COOL_PMP_MEAS.OUT 0, 5)], by decide⟩

/-- ConsumablesAreCheckedAndAge, clause 2: a state and operands that meet the hypotheses. -/
theorem test_ConsumablesAreCheckedAndAge_2 : ∃ (s : State), s.coolRuns = false :=
  ⟨State.reset, by decide⟩

/-- ConsumablesAreCheckedAndAge, clause 3: a state and operands that meet the hypotheses. -/
theorem test_ConsumablesAreCheckedAndAge_3 : ∃ (s : State), s.coolRuns = true ∧ s.cool.cons.length = 32 :=
  ⟨({ State.reset with cool := { cons := List.replicate 32 { present := true, checking := false, serial := [1] } } } : State).setAll [(COOL_STS.RUNNING, 1), (COOL_CONS_CFG.CLASS 3, 2), (COOL_CONS_LIFE.HOURS 3, 9), (COOL_CONS_LINK.PUMPS 3, 1), (COOL_PMP_MEAS.OUT 0, 5)], by decide⟩

/-- ConsumablesAreCheckedAndAge, clause 4: a state and operands that meet the hypotheses. -/
theorem test_ConsumablesAreCheckedAndAge_4 : ∃ (s : State), s.coolRuns = false :=
  ⟨State.reset, by decide⟩

/-- ConsumablesAreCheckedAndAge, clause 5: a state and operands that meet the hypotheses. -/
theorem test_ConsumablesAreCheckedAndAge_5 : ∃ (s : State) (c : Fin 32), s.slotUsed c.val = true ∧ (s.slot c.val).present = true ∧ (s.slot c.val).serial.isEmpty = false ∧ s.slotRuns c.val = true ∧ 1 < s.get (COOL_CONS_LIFE.HOURS c.val) ∧ s.nvm.busy.isSome = true :=
  ⟨{ ({ State.reset with cool := { cons := List.replicate 32 { present := true, checking := false, serial := [1] } } } : State).setAll [(COOL_STS.RUNNING, 1), (COOL_CONS_CFG.CLASS 3, 2), (COOL_CONS_LIFE.HOURS 3, 9), (COOL_CONS_LINK.PUMPS 3, 1), (COOL_PMP_MEAS.OUT 0, 5)] with nvm := { busy := some { kind := 1, key := 0, len := 8, data := [] } } }, 3, by decide⟩

/-- ConsumablesAreCheckedAndAge, clause 6: a state and operands that meet the hypotheses. -/
theorem test_ConsumablesAreCheckedAndAge_6 : ∃ (s : State) (c : Fin 32), s.slotUsed c.val = true ∧ (s.slot c.val).present = true ∧ (s.slot c.val).serial.isEmpty = false ∧ s.slotRuns c.val = true ∧ 1 < s.get (COOL_CONS_LIFE.HOURS c.val) ∧ s.nvm.busy = none ∧ s.nvm.queue = [] ∧ s.nvm.compacting = false ∧ s.on PWRST_BO_STS.NVM_HELD = false ∧ s.pwr.warmOn = false ∧ bankUsed s.nvm.bank + entrySize (lifeJob (s.slot c.val).serial (s.get (COOL_CONS_LIFE.HOURS c.val) - 1) (COOL_CONS_LIFE.HOURS c.val)).len ≤ bankRoom :=
  ⟨({ State.reset with cool := { cons := List.replicate 32 { present := true, checking := false, serial := [1] } } } : State).setAll [(COOL_STS.RUNNING, 1), (COOL_CONS_CFG.CLASS 3, 2), (COOL_CONS_LIFE.HOURS 3, 9), (COOL_CONS_LINK.PUMPS 3, 1), (COOL_PMP_MEAS.OUT 0, 5)], 3, by decide⟩

/-- ConsumablesAreCheckedAndAge, clause 7: a state and operands that meet the hypotheses. -/
theorem test_ConsumablesAreCheckedAndAge_7 : ∃ (s : State) (c : Fin 32), s.slotUsed c.val = false :=
  ⟨State.reset, 3, by decide⟩

/-- SequencerJudgesCommands, clause 1: a state and operands that meet the hypotheses. -/
theorem test_SequencerJudgesCommands_1 : ∃ (s : State) (ini : Initiator) (groups : Fin 512), s.judge ini true SEQ_CMD.OP.addr = .allowed ∧ s.seqRefusal 1 groups.val ≠ 0 :=
  ⟨State.reset, .keeper 0, 1, by decide⟩

/-- SequencerJudgesCommands, clause 2: a state and operands that meet the hypotheses. -/
theorem test_SequencerJudgesCommands_2 : ∃ (s : State) (ini : Initiator) (groups : Fin 512), s.judge ini true SEQ_CMD.OP.addr = .allowed ∧ s.seqRefusal 2 groups.val ≠ 0 :=
  ⟨State.reset, .keeper 0, 1, by decide⟩

/-- SequencerJudgesCommands, clause 3: a state and operands that meet the hypotheses. -/
theorem test_SequencerJudgesCommands_3 : ∃ (s : State) (ini : Initiator) (groups : Fin 512), s.judge ini true SEQ_CMD.OP.addr = .allowed ∧ s.seqRefusal 3 groups.val ≠ 0 :=
  ⟨State.reset, .keeper 0, 1, by decide⟩

/-- SequencerJudgesCommands, clause 4: a state and operands that meet the hypotheses. -/
theorem test_SequencerJudgesCommands_4 : ∃ (s : State) (ini : Initiator) (groups : Fin 512), s.judge ini true SEQ_CMD.OP.addr = .allowed ∧ s.seqRefusal 4 groups.val ≠ 0 :=
  ⟨State.reset, .keeper 0, 1, by decide⟩

/-- SequencerJudgesCommands, clause 5: a state and operands that meet the hypotheses. -/
theorem test_SequencerJudgesCommands_5 : ∃ (s : State) (ini : Initiator) (groups : Fin 512), s.judge ini true SEQ_CMD.OP.addr = .allowed ∧ s.seq.op ≠ opNone :=
  ⟨{ State.reset with seq := { op := 1 } }, .keeper 0, 1, by decide⟩

/-- SequencerJudgesCommands, clause 6: a state and operands that meet the hypotheses. -/
theorem test_SequencerJudgesCommands_6 : ∃ (s : State) (ini : Initiator) (groups : Fin 512), s.judge ini true SEQ_CMD.OP.addr = .allowed ∧ s.seq.op ≠ opNone :=
  ⟨{ State.reset with seq := { op := 1 } }, .keeper 0, 1, by decide⟩

/-- SequencerJudgesCommands, clause 7: a state and operands that meet the hypotheses. -/
theorem test_SequencerJudgesCommands_7 : ∃ (s : State) (ini : Initiator) (groups : Fin 512), s.judge ini true SEQ_CMD.OP.addr = .allowed ∧ s.seq.op ≠ opNone :=
  ⟨{ State.reset with seq := { op := 1 } }, .keeper 0, 1, by decide⟩

/-- SequencerJudgesCommands, clause 8: a state and operands that meet the hypotheses. -/
theorem test_SequencerJudgesCommands_8 : ∃ (s : State) (ini : Initiator) (groups : Fin 512), s.judge ini true SEQ_CMD.OP.addr = .allowed ∧ s.seqRefusal 1 groups.val = 0 ∧ s.seqHeld = false :=
  ⟨({ State.reset with seq := { rails := [({ newRail ({ railOf (List.replicate 32 0) with deps := [], group := 8 }) with st := .off } : Rail)] } } : State).setAll [(ACD_STS.STATE, 2)], .keeper 0, 256, by decide⟩

/-- SequencerJudgesCommands, clause 9: a state and operands that meet the hypotheses. -/
theorem test_SequencerJudgesCommands_9 : ∃ (s : State) (ini : Initiator) (groups : Fin 512), s.judge ini true SEQ_CMD.OP.addr = .allowed ∧ s.seqRefusal 2 groups.val = 0 ∧ s.seqHeld = false ∧ s.seq.op ≠ opMinOff :=
  ⟨({ State.reset with seq := { rails := [({ newRail ({ railOf (List.replicate 32 0) with deps := [], group := 8 }) with st := .on } : Rail)] } } : State).setAll [(ACD_STS.STATE, 2)], .keeper 0, 256, by decide⟩

/-- SequencerJudgesCommands, clause 10: a state and operands that meet the hypotheses. -/
theorem test_SequencerJudgesCommands_10 : ∃ (s : State) (ini : Initiator) (groups : Fin 512), s.judge ini true SEQ_CMD.OP.addr = .allowed ∧ s.seqRefusal 2 groups.val = 0 ∧ s.seqHeld = false ∧ s.seq.op = opMinOff :=
  ⟨({ State.reset with seq := { rails := [({ newRail ({ railOf (List.replicate 32 0) with deps := [], group := 8 }) with st := .off } : Rail)], op := 6 } } : State).setAll [(ACD_STS.STATE, 2)], .keeper 0, 256, by decide⟩

/-- SequencerJudgesCommands, clause 11: a state and operands that meet the hypotheses. -/
theorem test_SequencerJudgesCommands_11 : ∃ (s : State) (ini : Initiator) (groups : Fin 512), s.judge ini true SEQ_CMD.OP.addr = .allowed ∧ s.seqRefusal 3 groups.val = 0 ∧ s.seqHeld = false :=
  ⟨({ State.reset with seq := { rails := [({ newRail ({ railOf (List.replicate 32 0) with deps := [], group := 8 }) with st := .on } : Rail)] } } : State).setAll [(ACD_STS.STATE, 2)], .keeper 0, 256, by decide⟩

/-- SequencerJudgesCommands, clause 12: a state and operands that meet the hypotheses. -/
theorem test_SequencerJudgesCommands_12 : ∃ (s : State) (ini : Initiator) (groups : Fin 512), s.judge ini true SEQ_CMD.OP.addr = .allowed ∧ s.seqRefusal 4 groups.val = 0 ∧ s.seqHeld = false :=
  ⟨({ State.reset with seq := { rails := [({ newRail ({ railOf (List.replicate 32 0) with deps := [], group := 8 }) with st := .failed } : Rail)] } } : State).setAll [(ACD_STS.STATE, 2), (KEY_PRES.OPEN, 1)], .keeper 0, 256, by decide⟩

/-- SequencerJudgesCommands, clause 13: a state and operands that meet the hypotheses. -/
theorem test_SequencerJudgesCommands_13 : ∃ (s : State) (ini : Initiator) (groups : Fin 512), s.judge ini true SEQ_CMD.OP.addr = .allowed ∧ s.seqRefusal 1 groups.val = 0 ∧ s.seqHeld = true :=
  ⟨({ State.reset with seq := { rails := [({ newRail ({ railOf (List.replicate 32 0) with deps := [], group := 8 }) with st := .off } : Rail)] } } : State).setAll [(ACD_STS.STATE, 2), (CLK_STS.BASE_SRC, 2)], .keeper 0, 256, by decide⟩

/-- SequencerJudgesCommands, clause 14: a state and operands that meet the hypotheses. -/
theorem test_SequencerJudgesCommands_14 : ∃ (s : State) (ini : Initiator) (groups : Fin 512), s.judge ini true SEQ_CMD.OP.addr = .allowed ∧ s.seqRefusal 2 groups.val = 0 ∧ s.seqHeld = true :=
  ⟨({ State.reset with seq := { rails := [({ newRail ({ railOf (List.replicate 32 0) with deps := [], group := 8 }) with st := .on } : Rail)] } } : State).setAll [(ACD_STS.STATE, 2), (CLK_STS.BASE_SRC, 2)], .keeper 0, 256, by decide⟩

/-- SequencerJudgesCommands, clause 15: a state and operands that meet the hypotheses. -/
theorem test_SequencerJudgesCommands_15 : ∃ (s : State) (ini : Initiator) (groups : Fin 512), s.judge ini true SEQ_CMD.OP.addr = .allowed ∧ s.seqRefusal 3 groups.val = 0 ∧ s.seqHeld = true :=
  ⟨({ State.reset with seq := { rails := [({ newRail ({ railOf (List.replicate 32 0) with deps := [], group := 8 }) with st := .on } : Rail)] } } : State).setAll [(ACD_STS.STATE, 2), (CLK_STS.BASE_SRC, 2)], .keeper 0, 256, by decide⟩

/-- SequencerJudgesCommands, clause 16: a state and operands that meet the hypotheses. -/
theorem test_SequencerJudgesCommands_16 : ∃ (s : State) (ini : Initiator) (groups : Fin 512), s.judge ini true SEQ_CMD.OP.addr = .allowed ∧ s.seqRefusal 4 groups.val = 0 ∧ s.seqHeld = true :=
  ⟨({ State.reset with seq := { rails := [({ newRail ({ railOf (List.replicate 32 0) with deps := [], group := 8 }) with st := .failed } : Rail)] } } : State).setAll [(ACD_STS.STATE, 2), (CLK_STS.BASE_SRC, 2), (KEY_PRES.OPEN, 1)], .keeper 0, 256, by decide⟩

/-- RailsMoveThroughTheirStates, clause 1: a state and operands that meet the hypotheses. -/
theorem test_RailsMoveThroughTheirStates_1 : ∃ (s : State) (r : Rail), s.seq.rails = [r] ∧ r.st = .wait ∧ r.dlyDone = true ∧ r.cfg.deps = [] ∧ s.discharged r = true ∧ s.seqHeld = false ∧ s.seq.waits = [] ∧ s.cur ≠ 3 :=
  ⟨({ State.reset with seq := { rails := [({ newRail ({ railOf (List.replicate 32 0) with deps := [] }) with st := .wait, dlyDone := true } : Rail)] } } : State), ({ newRail ({ railOf (List.replicate 32 0) with deps := [] }) with st := .wait, dlyDone := true } : Rail), by decide⟩

/-- RailsMoveThroughTheirStates, clause 2: a state and operands that meet the hypotheses. -/
theorem test_RailsMoveThroughTheirStates_2 : ∃ (s : State), s.seqHeld = false ∧ s.seq.waits = [] ∧ s.cur ≠ 3 ∧ s.seq.inWait = none ∧ (s.seq.rails.map (·.cfg.rail)).Nodup ∧ (∀ r ∈ s.seq.rails, s.verdict r = .rest) :=
  ⟨({ State.reset with seq := { rails := [({ newRail ({ railOf (List.replicate 32 0) with deps := [] }) with st := .wait, dlyDone := true } : Rail), ({ newRail ({ railOf (List.replicate 32 0) with deps := [], rail := 1 }) with st := .wait } : Rail), ({ newRail ({ railOf (List.replicate 32 0) with deps := [], rail := 2 }) with st := .stop, down := true, black := true } : Rail), ({ newRail ({ railOf (List.replicate 32 0) with deps := [], rail := 3, pg := 7 }) with st := .disch } : Rail)] } } : State), by decide⟩

/-- RailsMoveThroughTheirStates, clause 3: a state and operands that meet the hypotheses. -/
theorem test_RailsMoveThroughTheirStates_3 : ∃ (s : State) (gs : Nat) (r : Rail), s.seqHeld = false ∧ s.cur ≠ 3 ∧ s.seq.waits = [.command 2 gs] ∧ s.seq.inWait = none ∧ s.seq.rails = [r] ∧ r.st = .on ∧ r.down = false ∧ bitOf gs r.cfg.group = true ∧ s.seq.op = opNone ∧ s.verdict r = .rest ∧ s.seq.preWait = [] ∧ s.seq.rstos = [] :=
  ⟨({ State.reset with seq := { rails := [({ newRail ({ railOf (List.replicate 32 0) with deps := [], group := 8, pgSrc := 2 }) with st := .on } : Rail)], waits := [.command 2 256] } } : State), 256, ({ newRail ({ railOf (List.replicate 32 0) with deps := [], group := 8, pgSrc := 2 }) with st := .on } : Rail), by decide⟩

/-- RailsMoveThroughTheirStates, clause 4: a state and operands that meet the hypotheses. -/
theorem test_RailsMoveThroughTheirStates_4 : ∃ (s : State), s.safeMode = true ∧ s.pwr.warmOn = false ∧ s.cur ≠ 3 :=
  ⟨({ State.reset with seq := { rails := [({ newRail ({ railOf (List.replicate 32 0) with deps := [] }) with st := .wait, dlyDone := true } : Rail)] } } : State).setAll [(CLK_STS.BASE_SRC, 2)], by decide⟩

/-- RailsMoveThroughTheirStates, clause 5: a state and operands that meet the hypotheses. -/
theorem test_RailsMoveThroughTheirStates_5 : ∃ (s : State), s.cur = 3 :=
  ⟨State.reset.setAll [(PWRST_STATE.CUR, 3)], by decide⟩

/-- RailsMoveThroughTheirStates, clause 6: a state and operands that meet the hypotheses. -/
theorem test_RailsMoveThroughTheirStates_6 : ∃ (s : State) (rail : Fin 96) (r : Rail), s.rail rail.val = some r ∧ r.st = .wait ∧ s.predsOn r.cfg = true ∧ s.seqHeld = false ∧ s.discharged r = true :=
  ⟨({ State.reset with seq := { rails := [({ newRail ({ railOf (List.replicate 32 0) with deps := [] }) with st := .wait } : Rail)] } } : State), 0, ({ newRail ({ railOf (List.replicate 32 0) with deps := [] }) with st := .wait } : Rail), by decide⟩

/-- RailsMoveThroughTheirStates, clause 7: a state and operands that meet the hypotheses. -/
theorem test_RailsMoveThroughTheirStates_7 : ∃ (s : State) (rail : Fin 96) (r : Rail), s.rail rail.val = some r ∧ r.st = .wait ∧ s.predsOn r.cfg = true ∧ s.seqHeld = false ∧ s.discharged r = false :=
  ⟨({ State.reset with seq := { rails := [({ newRail ({ railOf (List.replicate 32 0) with deps := [] }) with st := .wait, pg := true } : Rail)] } } : State), 0, ({ newRail ({ railOf (List.replicate 32 0) with deps := [] }) with st := .wait, pg := true } : Rail), by decide⟩

/-- RailsMoveThroughTheirStates, clause 8: a state and operands that meet the hypotheses. -/
theorem test_RailsMoveThroughTheirStates_8 : ∃ (s : State) (rail : Fin 96), s.rail rail.val = none :=
  ⟨State.reset, 4, by decide⟩

/-- RailsMoveThroughTheirStates, clause 9: a state and operands that meet the hypotheses. -/
theorem test_RailsMoveThroughTheirStates_9 : ∃ (s : State) (rail : Fin 96) (r : Rail), s.rail rail.val = some r ∧ r.st = .wait ∧ r.dlyDone = true ∧ s.discharged r = false ∧ s.seqHeld = false :=
  ⟨({ State.reset with seq := { rails := [({ newRail ({ railOf (List.replicate 32 0) with deps := [] }) with st := .wait, pg := true, dlyDone := true } : Rail)] } } : State), 0, ({ newRail ({ railOf (List.replicate 32 0) with deps := [] }) with st := .wait, pg := true, dlyDone := true } : Rail), by decide⟩

/-- RailsMoveThroughTheirStates, clause 10: a state and operands that meet the hypotheses. -/
theorem test_RailsMoveThroughTheirStates_10 : ∃ (s : State) (rail : Fin 96) (r : Rail), s.rail rail.val = some r ∧ r.st ≠ .wait :=
  ⟨({ State.reset with seq := { rails := [({ newRail ({ railOf (List.replicate 32 0) with deps := [] }) with st := .on } : Rail)] } } : State), 0, ({ newRail ({ railOf (List.replicate 32 0) with deps := [] }) with st := .on } : Rail), by decide⟩

/-- RailsMoveThroughTheirStates, clause 11: a state and operands that meet the hypotheses. -/
theorem test_RailsMoveThroughTheirStates_11 : ∃ (s : State) (rail : Fin 96) (r : Rail), s.rail rail.val = some r ∧ r.st = .ramp ∧ r.cfg.pgSrc ≠ 2 ∧ s.seqHeld = false :=
  ⟨({ State.reset with seq := { rails := [({ newRail ({ railOf (List.replicate 32 0) with deps := [] }) with st := .ramp } : Rail)] } } : State), 0, ({ newRail ({ railOf (List.replicate 32 0) with deps := [] }) with st := .ramp } : Rail), by decide⟩

/-- RailsMoveThroughTheirStates, clause 12: a state and operands that meet the hypotheses. -/
theorem test_RailsMoveThroughTheirStates_12 : ∃ (s : State) (rail : Fin 96) (r : Rail), s.rail rail.val = some r ∧ r.st = .ramp ∧ r.cfg.pgSrc = 2 ∧ s.seqHeld = false :=
  ⟨({ State.reset with seq := { rails := [({ newRail ({ railOf (List.replicate 32 0) with deps := [], pgSrc := 2 }) with st := .ramp } : Rail)] } } : State), 0, ({ newRail ({ railOf (List.replicate 32 0) with deps := [], pgSrc := 2 }) with st := .ramp } : Rail), by decide⟩

/-- RailsMoveThroughTheirStates, clause 13: a state and operands that meet the hypotheses. -/
theorem test_RailsMoveThroughTheirStates_13 : ∃ (s : State) (rail : Fin 96) (r : Rail), s.rail rail.val = some r ∧ r.st ≠ .ramp :=
  ⟨({ State.reset with seq := { rails := [({ newRail ({ railOf (List.replicate 32 0) with deps := [] }) with st := .on } : Rail)] } } : State), 0, ({ newRail ({ railOf (List.replicate 32 0) with deps := [] }) with st := .on } : Rail), by decide⟩

/-- RailsMoveThroughTheirStates, clause 14: a state and operands that meet the hypotheses. -/
theorem test_RailsMoveThroughTheirStates_14 : ∃ (s : State) (rail : Fin 96) (r : Rail), s.rail rail.val = some r ∧ r.st = .stop ∧ s.seqHeld = false :=
  ⟨({ State.reset with seq := { rails := [({ newRail ({ railOf (List.replicate 32 0) with deps := [] }) with st := .stop } : Rail)] } } : State), 0, ({ newRail ({ railOf (List.replicate 32 0) with deps := [] }) with st := .stop } : Rail), by decide⟩

/-- RailsMoveThroughTheirStates, clause 15: a state and operands that meet the hypotheses. -/
theorem test_RailsMoveThroughTheirStates_15 : ∃ (s : State) (rail : Fin 96) (r : Rail), s.rail rail.val = some r ∧ r.st ≠ .stop :=
  ⟨({ State.reset with seq := { rails := [({ newRail ({ railOf (List.replicate 32 0) with deps := [] }) with st := .on } : Rail)] } } : State), 0, ({ newRail ({ railOf (List.replicate 32 0) with deps := [] }) with st := .on } : Rail), by decide⟩

/-- RailsMoveThroughTheirStates, clause 16: a state and operands that meet the hypotheses. -/
theorem test_RailsMoveThroughTheirStates_16 : ∃ (s : State) (rail : Fin 96) (r : Rail), s.rail rail.val = some r ∧ r.st = .disch ∧ r.cfg.dischargeByTime = true ∧ s.seqHeld = false :=
  ⟨({ State.reset with seq := { rails := [({ newRail ({ railOf (List.replicate 32 0) with deps := [], pgSrc := 2 }) with st := .disch } : Rail)] } } : State), 0, ({ newRail ({ railOf (List.replicate 32 0) with deps := [], pgSrc := 2 }) with st := .disch } : Rail), by decide⟩

/-- RailsMoveThroughTheirStates, clause 17: a state and operands that meet the hypotheses. -/
theorem test_RailsMoveThroughTheirStates_17 : ∃ (s : State) (rail : Fin 96) (r : Rail), s.rail rail.val = some r ∧ r.st = .disch ∧ r.cfg.dischargeByTime = false ∧ r.cfg.group < 9 ∧ s.seqHeld = false :=
  ⟨({ State.reset with seq := { rails := [({ newRail ({ railOf (List.replicate 32 0) with deps := [] }) with st := .disch } : Rail)] } } : State), 0, ({ newRail ({ railOf (List.replicate 32 0) with deps := [] }) with st := .disch } : Rail), by decide⟩

/-- RailsMoveThroughTheirStates, clause 18: a state and operands that meet the hypotheses. -/
theorem test_RailsMoveThroughTheirStates_18 : ∃ (s : State) (rail : Fin 96) (r : Rail), s.rail rail.val = some r ∧ r.st ≠ .disch :=
  ⟨({ State.reset with seq := { rails := [({ newRail ({ railOf (List.replicate 32 0) with deps := [] }) with st := .on } : Rail)] } } : State), 0, ({ newRail ({ railOf (List.replicate 32 0) with deps := [] }) with st := .on } : Rail), by decide⟩

/-- RailsMoveThroughTheirStates, clause 19: a state and operands that meet the hypotheses. -/
theorem test_RailsMoveThroughTheirStates_19 : ∃ (s : State) (idx : Fin 64) (level : Bool) (x : PgIn) (r : Rail), s.placedIn fnPwrgd idx.val = true ∧ s.seq.rails = [r] ∧ r.cfg.pgSrc = 0 ∧ r.cfg.pg = idx.val ∧ r.st = .ramp ∧ level = true ∧ x.transitions = 0 ∧ dglTime r.cfg.dgl ≤ x.held ∧ r.chat ≤ r.cfg.chatMax ∧ r.cfg.rampMin = 0 ∧ s.seqHeld = false :=
  ⟨{ ({ State.reset with seq := { rails := [({ newRail ({ railOf (List.replicate 32 0) with deps := [] }) with st := .ramp } : Rail)] } } : State) with acd := { xbar := [(9, 0x200, 0)] } }, 0, true, ⟨0, 1000, 0⟩, ({ newRail ({ railOf (List.replicate 32 0) with deps := [] }) with st := .ramp } : Rail), by decide⟩

/-- RailsMoveThroughTheirStates, clause 20: a state and operands that meet the hypotheses. -/
theorem test_RailsMoveThroughTheirStates_20 : ∃ (s : State) (idx : Fin 64) (level : Bool) (x : PgIn) (r : Rail), s.placedIn fnPwrgd idx.val = true ∧ s.seq.rails = [r] ∧ r.cfg.pgSrc = 0 ∧ r.cfg.pg = idx.val ∧ r.st = .on ∧ level = false ∧ x.transitions = 0 ∧ dglTime r.cfg.dgl ≤ x.held ∧ r.chat ≤ r.cfg.chatMax ∧ r.down = false ∧ r.cfg.lossGroup = false ∧ s.seqHeld = false :=
  ⟨{ ({ State.reset with seq := { rails := [({ newRail ({ railOf (List.replicate 32 0) with deps := [] }) with st := .on } : Rail)] } } : State) with acd := { xbar := [(9, 0x200, 0)] } }, 0, false, ⟨0, 1000, 0⟩, ({ newRail ({ railOf (List.replicate 32 0) with deps := [] }) with st := .on } : Rail), by decide⟩

/-- RailsMoveThroughTheirStates, clause 21: a state and operands that meet the hypotheses. -/
theorem test_RailsMoveThroughTheirStates_21 : ∃ (s : State) (idx : Fin 64) (level : Bool) (x : PgIn), s.placedIn fnPwrgd idx.val = true ∧ s.seqHeld = false ∧ (s.seq.rails.map (·.cfg.rail)).Nodup ∧ ((∀ r ∈ s.seq.rails, r.judges idx.val = true → s.verdict (s.railPwrgd level x r) = .rest ∨ s.verdict (s.railPwrgd level x r) = .good)) :=
  ⟨{ ({ State.reset with seq := { rails := [({ newRail ({ railOf (List.replicate 32 0) with deps := [] }) with st := .ramp } : Rail), ({ newRail ({ railOf (List.replicate 32 0) with deps := [], rail := 1 }) with st := .ramp } : Rail), ({ newRail ({ railOf (List.replicate 32 0) with deps := [], rail := 2, pg := 7 }) with st := .on } : Rail)] } } : State) with acd := { xbar := [(9, 0x200, 0)] } }, 0, true, ⟨0, 1000000, 0⟩, by decide⟩

/-- RailsMoveThroughTheirStates, clause 22: a state and operands that meet the hypotheses. -/
theorem test_RailsMoveThroughTheirStates_22 : ∃ (s : State) (idx : Fin 64) (level : Bool) (x : PgIn) (r : Rail) (c : Nat), s.placedIn fnPwrgd idx.val = true ∧ s.seqHeld = false ∧ s.rail r.cfg.rail = some r ∧ r.judges idx.val = true ∧ s.verdict (s.railPwrgd level x r) = .fail c :=
  ⟨{ ({ State.reset with seq := { rails := [({ newRail ({ railOf (List.replicate 32 0) with deps := [], rail := 1 }) with st := .ramp } : Rail), ({ newRail ({ railOf (List.replicate 32 0) with deps := [] }) with st := .on } : Rail)] } } : State) with acd := { xbar := [(9, 0x200, 0)] } }, 0, false, ⟨0, 1000000, 0⟩, ({ newRail ({ railOf (List.replicate 32 0) with deps := [] }) with st := .on } : Rail), failPgLost, by decide⟩

/-- RailsMoveThroughTheirStates, clause 23: a state and operands that meet the hypotheses. -/
theorem test_RailsMoveThroughTheirStates_23 : ∃ (s : State) (idx : Fin 64) (level : Bool) (x : PgIn), s.placedIn fnPwrgd idx.val = false ∧ s.get ACD_STS.STATE = 2 :=
  ⟨State.reset.setAll [(ACD_STS.STATE, 2)], 3, true, ⟨0, 1000, 0⟩, by decide⟩

/-- RailsMoveThroughTheirStates, clause 24: a state and operands that meet the hypotheses. -/
theorem test_RailsMoveThroughTheirStates_24 : ∃ (s : State) (idx : Fin 64) (level : Bool) (x : PgIn), s.placedIn fnPwrgd idx.val = false :=
  ⟨State.reset, 3, true, ⟨0, 1000, 0⟩, by decide⟩

/-- RailsMoveThroughTheirStates, clause 25: a state and operands that meet the hypotheses. -/
theorem test_RailsMoveThroughTheirStates_25 : ∃ (s : State), s.seqHeld = false :=
  ⟨({ State.reset with seq := { rails := [({ newRail ({ railOf (List.replicate 32 0) with deps := [], pgSrc := 1 }) with st := .on } : Rail)] } } : State), by decide⟩

/-- RailsMoveThroughTheirStates, clause 26: a state and operands that meet the hypotheses. -/
theorem test_RailsMoveThroughTheirStates_26 : ∃ (s : State), s.seqHeld = true :=
  ⟨State.reset.setAll [(CLK_STS.BASE_SRC, 2)], by decide⟩

/-- RailsMoveThroughTheirStates, clause 27: a state and operands that meet the hypotheses. -/
theorem test_RailsMoveThroughTheirStates_27 : ∃ (s : State) (rail : Fin 96) (r : Rail), s.rail rail.val = some r ∧ s.seqHeld = true :=
  ⟨({ State.reset with seq := { rails := [({ newRail ({ railOf (List.replicate 32 0) with deps := [] }) with st := .stop } : Rail)] } } : State).setAll [(CLK_STS.BASE_SRC, 2)], 0, ({ newRail ({ railOf (List.replicate 32 0) with deps := [] }) with st := .stop } : Rail), by decide⟩

/-- TrayInputAndResetOutputs, clause 1: a state and operands that meet the hypotheses. -/
theorem test_TrayInputAndResetOutputs_1 : ∃ (s : State), s.trayPin = true ∧ s.seq.rails.all Rail.isOff = false ∧ s.seq.op ≠ opFault ∧ s.seq.op ≠ opInLoss ∧ s.seq.op ≠ opRestart ∧ s.seqHeld = false :=
  ⟨{ ({ State.reset with seq := { rails := [({ newRail ({ railOf (List.replicate 32 0) with deps := [] }) with st := .on } : Rail)], hdr := { inSrc := 1 } } } : State) with acd := { xbar := [(9, 0x200, 0)] } }, by decide⟩

/-- TrayInputAndResetOutputs, clause 2: a state and operands that meet the hypotheses. -/
theorem test_TrayInputAndResetOutputs_2 : ∃ (s : State), s.trayPin = true ∧ s.seqHeld = true :=
  ⟨{ ({ State.reset with seq := { rails := [], hdr := { inSrc := 1 } } } : State).setAll [(CLK_STS.BASE_SRC, 2)] with acd := { xbar := [(9, 0x200, 0)] } }, by decide⟩

/-- TrayInputAndResetOutputs, clause 3: a state and operands that meet the hypotheses. -/
theorem test_TrayInputAndResetOutputs_3 : ∃ (s : State), s.trayPin = true ∧ s.seqHeld = true :=
  ⟨{ ({ State.reset with seq := { rails := [], hdr := { inSrc := 1 } } } : State).setAll [(CLK_STS.BASE_SRC, 2)] with acd := { xbar := [(9, 0x200, 0)] } }, by decide⟩

/-- TrayInputAndResetOutputs, clause 4: a state and operands that meet the hypotheses. -/
theorem test_TrayInputAndResetOutputs_4 : ∃ (s : State), s.trayPin = true ∧ s.seqHeld = false ∧ s.seq.rails.all Rail.isOff = true :=
  ⟨{ ({ State.reset with seq := { rails := [], hdr := { inSrc := 1 } } } : State) with acd := { xbar := [(9, 0x200, 0)] } }, by decide⟩

/-- TrayInputAndResetOutputs, clause 5: a state and operands that meet the hypotheses. -/
theorem test_TrayInputAndResetOutputs_5 : ∃ (s : State), s.seq.hdr.inSrc ≠ 1 :=
  ⟨State.reset, by decide⟩

/-- TrayInputAndResetOutputs, clause 6: a state and operands that meet the hypotheses. -/
theorem test_TrayInputAndResetOutputs_6 : ∃ (s : State), s.trayPin = true ∧ s.seqHeld = false ∧ s.seq.op ≠ opMinOff :=
  ⟨{ ({ State.reset with seq := { rails := [], hdr := { inSrc := 1 } } } : State) with acd := { xbar := [(9, 0x200, 0)] } }, by decide⟩

/-- TrayInputAndResetOutputs, clause 7: a state and operands that meet the hypotheses. -/
theorem test_TrayInputAndResetOutputs_7 : ∃ (s : State), s.seq.hdr.inSrc ≠ 1 :=
  ⟨State.reset, by decide⟩

/-- TrayInputAndResetOutputs, clause 8: a state and operands that meet the hypotheses. -/
theorem test_TrayInputAndResetOutputs_8 : ∃ (s : State), s.seq.op = opMinOff ∧ s.seqHeld = false ∧ (s.on SEQ_LATCH.TFAULT = true ∨ (s.seq.resumeLoss = true ∧ s.seq.hdr.autoRestart = false)) :=
  ⟨({ State.reset with seq := { rails := [], op := 6 } } : State).setAll [(SEQ_LATCH.TFAULT, 1)], by decide⟩

/-- TrayInputAndResetOutputs, clause 9: a state and operands that meet the hypotheses. -/
theorem test_TrayInputAndResetOutputs_9 : ∃ (s : State), s.seq.op = opMinOff ∧ s.seqHeld = false ∧ s.on SEQ_LATCH.TFAULT = false ∧ (s.seq.resumeLoss = false ∨ s.seq.hdr.autoRestart = true) ∧ (s.seq.hdr.inSrc = 0 ∨ s.on SEQ_STS.IN_GOOD = true) ∧ s.resumeGroups ≠ 0 :=
  ⟨({ State.reset with seq := { rails := [({ newRail ({ railOf (List.replicate 32 0) with deps := [], group := 8 }) with st := .off } : Rail)], op := 6 } } : State).setAll [(SEQ_RESUME.GROUPS, 256)], by decide⟩

/-- TrayInputAndResetOutputs, clause 10: a state and operands that meet the hypotheses. -/
theorem test_TrayInputAndResetOutputs_10 : ∃ (s : State), s.seq.op ≠ opMinOff :=
  ⟨State.reset, by decide⟩

/-- TrayInputAndResetOutputs, clause 11: a state and operands that meet the hypotheses. -/
theorem test_TrayInputAndResetOutputs_11 : ∃ (s : State) (k : Fin 16) (c : RstoCfg), s.seq.rstos.find? (fun c => c.rsto == k.val) = some c ∧ s.seqHeld = false ∧ c.rails.all (fun r => (s.rail r).any (fun x => x.st == .on && !x.down)) = true :=
  ⟨({ State.reset with seq := { rails := [({ newRail ({ railOf (List.replicate 32 0) with deps := [] }) with st := .on } : Rail)], rstos := [{ rsto := 3, stretch := 0, pre := 0, rails := [0], railB := [0, 255, 255, 255] }] } } : State), 3, { rsto := 3, stretch := 0, pre := 0, rails := [0], railB := [0, 255, 255, 255] }, by decide⟩

/-- TrayInputAndResetOutputs, clause 12: a state and operands that meet the hypotheses. -/
theorem test_TrayInputAndResetOutputs_12 : ∃ (s : State) (k : Fin 16) (c : RstoCfg), s.seq.rstos.find? (fun c => c.rsto == k.val) = some c ∧ c.rails.all (fun r => (s.rail r).any (fun x => x.st == .on && !x.down)) = false :=
  ⟨({ State.reset with seq := { rails := [({ newRail ({ railOf (List.replicate 32 0) with deps := [] }) with st := .off } : Rail)], rstos := [{ rsto := 3, stretch := 0, pre := 0, rails := [0], railB := [0, 255, 255, 255] }] } } : State), 3, { rsto := 3, stretch := 0, pre := 0, rails := [0], railB := [0, 255, 255, 255] }, by decide⟩

/-- TrayInputAndResetOutputs, clause 13: a state and operands that meet the hypotheses. -/
theorem test_TrayInputAndResetOutputs_13 : ∃ (s : State), s.seqHeld = false :=
  ⟨State.reset, by decide⟩

/-- TestModeAndMargining, clause 1: a state and operands that meet the hypotheses. -/
theorem test_TestModeAndMargining_1 : ∃ (s : State) (ini : Initiator), s.judge ini true SEQ_CTL.TEST.addr = .allowed ∧ s.on SEQ_CTL.TEST = false ∧ s.on KEY_PRES.OPEN = true :=
  ⟨State.reset.setAll [(KEY_PRES.OPEN, 1)], .keeper 0, by decide⟩

/-- TestModeAndMargining, clause 2: a state and operands that meet the hypotheses. -/
theorem test_TestModeAndMargining_2 : ∃ (s : State) (ini : Initiator), s.judge ini true SEQ_CTL.TEST.addr = .allowed ∧ s.on KEY_PRES.OPEN = false :=
  ⟨State.reset, .keeper 0, by decide⟩

/-- TestModeAndMargining, clause 3: a state and operands that meet the hypotheses. -/
theorem test_TestModeAndMargining_3 : ∃ (s : State) (ini : Initiator), s.judge ini true SEQ_CTL.TEST.addr = .allowed ∧ s.on SEQ_CTL.TEST = true ∧ s.on KEY_PRES.OPEN = true :=
  ⟨State.reset.setAll [(SEQ_CTL.TEST, 1), (KEY_PRES.OPEN, 1)], .keeper 0, by decide⟩

/-- TestModeAndMargining, clause 4: a state and operands that meet the hypotheses. -/
theorem test_TestModeAndMargining_4 : ∃ (s : State) (ini : Initiator), s.judge ini true SEQ_CTL.TEST.addr = .allowed ∧ s.on SEQ_CTL.TEST = true :=
  ⟨({ State.reset with seq := { rails := [({ newRail ({ railOf (List.replicate 32 0) with deps := [] }) with st := .on, msteps := 2 } : Rail)], op := 7 } } : State).setAll [(SEQ_CTL.TEST, 1)], .keeper 0, by decide⟩

/-- TestModeAndMargining, clause 5: a state and operands that meet the hypotheses. -/
theorem test_TestModeAndMargining_5 : ∃ (s : State) (ini : Initiator), s.judge ini true SEQ_CTL.TEST.addr = .allowed ∧ s.on SEQ_CTL.TEST = false :=
  ⟨State.reset, .keeper 0, by decide⟩

/-- TestModeAndMargining, clause 6: a state and operands that meet the hypotheses. -/
theorem test_TestModeAndMargining_6 : ∃ (s : State) (ini : Initiator) (word : Word), s.judge ini true SEQ_MGN_CTL.GO.addr = .allowed ∧ bitOf word.toNat 16 = true ∧ s.marginRefusal (bitsOf word.toNat 0 7) (bitsOf word.toNat 8 6) ≠ 0 :=
  ⟨State.reset, .keeper 0, 0x10000, by decide⟩

/-- TestModeAndMargining, clause 7: a state and operands that meet the hypotheses. -/
theorem test_TestModeAndMargining_7 : ∃ (s : State) (ini : Initiator) (word : Word) (r : Rail), s.judge ini true SEQ_MGN_CTL.GO.addr = .allowed ∧ bitOf word.toNat 16 = true ∧ s.marginRefusal (bitsOf word.toNat 0 7) (bitsOf word.toNat 8 6) = 0 ∧ s.rail (bitsOf word.toNat 0 7) = some r ∧ bitsOf word.toNat 8 6 ≠ 0 ∧ r.msteps ≠ (if bitOf word.toNat 7 then -(bitsOf word.toNat 8 6 : Int) else bitsOf word.toNat 8 6) :=
  ⟨({ State.reset with seq := { rails := [({ newRail ({ railOf (List.replicate 32 0) with deps := [], mgn := 2, maxSteps := 9 }) with st := .on } : Rail)] } } : State).setAll [(SEQ_CTL.TEST, 1)], .keeper 0, 0x10200, ({ newRail ({ railOf (List.replicate 32 0) with deps := [], mgn := 2, maxSteps := 9 }) with st := .on } : Rail), by decide⟩

/-- TestModeAndMargining, clause 8: a state and operands that meet the hypotheses. -/
theorem test_TestModeAndMargining_8 : ∃ (s : State) (ini : Initiator) (word : Word) (r : Rail), s.judge ini true SEQ_MGN_CTL.GO.addr = .allowed ∧ bitOf word.toNat 16 = true ∧ s.marginRefusal (bitsOf word.toNat 0 7) (bitsOf word.toNat 8 6) = 0 ∧ s.rail (bitsOf word.toNat 0 7) = some r ∧ bitsOf word.toNat 8 6 = 0 ∧ r.msteps ≠ 0 ∧ s.seqHeld = false :=
  ⟨({ State.reset with seq := { rails := [({ newRail ({ railOf (List.replicate 32 0) with deps := [], mgn := 2, maxSteps := 9 }) with st := .on, msteps := 3 } : Rail)] } } : State).setAll [(SEQ_CTL.TEST, 1)], .keeper 0, 0x10000, ({ newRail ({ railOf (List.replicate 32 0) with deps := [], mgn := 2, maxSteps := 9 }) with st := .on, msteps := 3 } : Rail), by decide⟩

/-- TestModeAndMargining, clause 9: a state and operands that meet the hypotheses. -/
theorem test_TestModeAndMargining_9 : ∃ (s : State) (ini : Initiator) (word : Word) (r : Rail), s.judge ini true SEQ_MGN_CTL.GO.addr = .allowed ∧ bitOf word.toNat 16 = true ∧ s.marginRefusal (bitsOf word.toNat 0 7) (bitsOf word.toNat 8 6) = 0 ∧ s.rail (bitsOf word.toNat 0 7) = some r ∧ bitsOf word.toNat 8 6 = 0 ∧ r.msteps ≠ 0 ∧ s.seqHeld = true :=
  ⟨({ State.reset with seq := { rails := [({ newRail ({ railOf (List.replicate 32 0) with deps := [], mgn := 2, maxSteps := 9 }) with st := .on, msteps := 3 } : Rail)] } } : State).setAll [(SEQ_CTL.TEST, 1), (CLK_STS.BASE_SRC, 2)], .keeper 0, 0x10000, ({ newRail ({ railOf (List.replicate 32 0) with deps := [], mgn := 2, maxSteps := 9 }) with st := .on, msteps := 3 } : Rail), by decide⟩

/-- TestModeAndMargining, clause 10: a state and operands that meet the hypotheses. -/
theorem test_TestModeAndMargining_10 : ∃ (s : State) (r : Rail) (rn : Nat), s.seq.mgn = some (rn, 0) ∧ s.rail rn = some r ∧ s.seqHeld = false :=
  ⟨({ State.reset with seq := { rails := [({ newRail ({ railOf (List.replicate 32 0) with deps := [], mgn := 2, maxSteps := 9 }) with st := .on, msteps := 3 } : Rail)], mgn := some (0, 0), op := 7 } } : State), ({ newRail ({ railOf (List.replicate 32 0) with deps := [], mgn := 2, maxSteps := 9 }) with st := .on, msteps := 3 } : Rail), 0, by decide⟩

/-- TestModeAndMargining, clause 11: a state and operands that meet the hypotheses. -/
theorem test_TestModeAndMargining_11 : ∃ (s : State) (ini : Initiator) (word : Word), s.judge ini true SEQ_MGN_CTL.GO.addr = .allowed ∧ bitOf word.toNat 16 = false :=
  ⟨State.reset, .keeper 0, 5, by decide⟩

/-- TestModeAndMargining, clause 12: a state and operands that meet the hypotheses. -/
theorem test_TestModeAndMargining_12 : ∃ (s : State) (r : Rail) (rn : Nat) (g : Int), s.seq.mgn = some (rn, g) ∧ s.rail rn = some r ∧ s.seqHeld = false ∧ r.msteps < g ∧ g ≠ 0 :=
  ⟨({ State.reset with seq := { rails := [({ newRail ({ railOf (List.replicate 32 0) with deps := [], mgn := 2, maxSteps := 9 }) with st := .on } : Rail)], mgn := some (0, 2), op := 7 } } : State), ({ newRail ({ railOf (List.replicate 32 0) with deps := [], mgn := 2, maxSteps := 9 }) with st := .on } : Rail), 0, 2, by decide⟩

/-- TestModeAndMargining, clause 13: a state and operands that meet the hypotheses. -/
theorem test_TestModeAndMargining_13 : ∃ (s : State) (r : Rail) (rn : Nat) (g : Int), s.seq.mgn = some (rn, g) ∧ s.rail rn = some r ∧ s.seqHeld = false ∧ g < r.msteps ∧ g ≠ 0 :=
  ⟨({ State.reset with seq := { rails := [({ newRail ({ railOf (List.replicate 32 0) with deps := [], mgn := 2, maxSteps := 9 }) with st := .on, msteps := 3 } : Rail)], mgn := some (0, -2), op := 7 } } : State), ({ newRail ({ railOf (List.replicate 32 0) with deps := [], mgn := 2, maxSteps := 9 }) with st := .on, msteps := 3 } : Rail), 0, -2, by decide⟩

/-- TestModeAndMargining, clause 14: a state and operands that meet the hypotheses. -/
theorem test_TestModeAndMargining_14 : ∃ (s : State), (s.seq.mgn = none ∨ s.seqHeld = true) :=
  ⟨State.reset, by decide⟩

/-- TestModeAndMargining, clause 15: a state and operands that meet the hypotheses. -/
theorem test_TestModeAndMargining_15 : ∃ (s : State) (ini : Initiator), s.judge ini true SEQ_FFR_CLR.CLR.addr = .allowed ∧ s.on KEY_PRES.OPEN = true ∧ s.nvm.busy.isSome = true :=
  ⟨({ State.reset with nvm := { busy := some { kind := 1, key := 0, len := 72, data := [.silRecords 0 []] } } } : State).set KEY_PRES.OPEN 1, .keeper 0, by decide⟩

/-- TestModeAndMargining, clause 16: a state and operands that meet the hypotheses. -/
theorem test_TestModeAndMargining_16 : ∃ (s : State) (ini : Initiator), s.judge ini true SEQ_FFR_CLR.CLR.addr = .allowed ∧ s.on KEY_PRES.OPEN = false :=
  ⟨State.reset, .keeper 0, by decide⟩

/-- TwoWireTransactionsRun, clause 1: a state and operands that meet the hypotheses. -/
theorem test_TwoWireTransactionsRun_1 : ∃ (s : State) (n : Fin 12) (x : TwTxn), s.tw.length = 12 ∧ (s.port n.val).next = some x ∧ s.get (TW_STS.STATE n.val) = 1 ∧ (s.port n.val).cur = none ∧ s.twRuns = true :=
  ⟨({ State.reset with tw := modAt (List.replicate 12 {}) 2 (fun _ => { queue := [{ owner := .channel 1, addr := 0x20, page := none, tx := [1], rx := .none, pec := false, retries := 2 }] }) } : State).setAll [(TW_STS.STATE 2, 1)], 2, { owner := .channel 1, addr := 0x20, page := none, tx := [1], rx := .none, pec := false, retries := 2 }, by decide⟩

/-- TwoWireTransactionsRun, clause 2: a state and operands that meet the hypotheses. -/
theorem test_TwoWireTransactionsRun_2 : ∃ (s : State) (n : Fin 12), (s.port n.val).next = none :=
  ⟨State.reset, 2, by decide⟩

/-- TwoWireTransactionsRun, clause 3: a state and operands that meet the hypotheses. -/
theorem test_TwoWireTransactionsRun_3 : ∃ (s : State) (n : Fin 12) (ended : TwEnd) (x : TwTxn) (c : Nat), s.tw.length = 12 ∧ (s.port n.val).cur = some x ∧ x.owner = .channel c ∧ x.rx = .none ∧ ended = .completed [] ∧ c < 2 ∧ s.twRuns = true :=
  ⟨({ State.reset with tw := modAt (List.replicate 12 {}) 2 (fun _ => { cur := some { owner := .channel 1, addr := 0x20, page := none, tx := [1], rx := .none, pec := false, retries := 2 } }) } : State).setAll [(TW_STS.STATE 2, 2)], 2, .completed [], { owner := .channel 1, addr := 0x20, page := none, tx := [1], rx := .none, pec := false, retries := 2 }, 1, by decide⟩

/-- TwoWireTransactionsRun, clause 4: a state and operands that meet the hypotheses. -/
theorem test_TwoWireTransactionsRun_4 : ∃ (s : State) (n : Fin 12) (ended : TwEnd) (x : TwTxn) (byte bit : Nat), s.tw.length = 12 ∧ (s.port n.val).cur = some x ∧ ended = .arbLost byte bit ∧ x.retries ≠ 0 ∧ byte < 256 ∧ bit < 9 ∧ s.twRuns = true :=
  ⟨({ State.reset with tw := modAt (List.replicate 12 {}) 2 (fun _ => { cur := some { owner := .channel 1, addr := 0x20, page := none, tx := [1], rx := .none, pec := false, retries := 2 } }) } : State).setAll [(TW_STS.STATE 2, 2)], 2, .arbLost 3 7, { owner := .channel 1, addr := 0x20, page := none, tx := [1], rx := .none, pec := false, retries := 2 }, 3, 7, by decide⟩

/-- TwoWireTransactionsRun, clause 5: a state and operands that meet the hypotheses. -/
theorem test_TwoWireTransactionsRun_5 : ∃ (s : State) (n : Fin 12) (ended : TwEnd), ((s.port n.val).cur = none ∨ s.twRuns = false) :=
  ⟨State.reset, 2, .busErr, by decide⟩

/-- TwoWireTransactionsRun, clause 6: a state and operands that meet the hypotheses. -/
theorem test_TwoWireTransactionsRun_6 : ∃ (s : State) (n : Fin 12) (rx : List Byte) (x : TwTxn) (c : Nat), s.tw.length = 12 ∧ (s.port n.val).cur = some x ∧ x.owner = .channel c ∧ c < 2 ∧ s.twRuns = true :=
  ⟨({ State.reset with tw := modAt (List.replicate 12 {}) 2 (fun _ => { cur := some { owner := .channel 1, addr := 0x20, page := none, tx := [1], rx := .none, pec := false, retries := 2 } }) } : State).setAll [(TW_STS.STATE 2, 2)], 2, [7, 3], { owner := .channel 1, addr := 0x20, page := none, tx := [1], rx := .none, pec := false, retries := 2 }, 1, by decide⟩

/-- TwoWireTransactionsRun, clause 7: a state and operands that meet the hypotheses. -/
theorem test_TwoWireTransactionsRun_7 : ∃ (s : State) (n : Fin 12) (rx : List Byte), ((s.port n.val).cur = none ∨ s.twRuns = false) :=
  ⟨State.reset, 2, [], by decide⟩

/-- TwoWireTransactionsRun, clause 8: a state and operands that meet the hypotheses. -/
theorem test_TwoWireTransactionsRun_8 : ∃ (s : State) (ini : Initiator) (n : Fin 12) (c : Fin 2) (word : Word) (tx : List Byte) (rx : RxForm), s.judge ini true (TW_CH_CMD.GO n.val c.val).addr = .allowed ∧ s.tw.length = 12 ∧ bitOf word.toNat 31 = true ∧ s.on (TW_CH_STS.BUSY n.val c.val) = false ∧ s.on (TW_CFG.CTRL_EN n.val) = true ∧ reservedAddr (bitsOf word.toNat 5 7) = false ∧ s.tgtMatch n.val (bitsOf word.toNat 5 7) = false ∧ ((match bitsOf word.toNat 0 4 with | 0x0 => some ([], .none) | 0x1 => some ([], .fixed 0) | 0x2 => some ([BitVec.ofNat 8 (bitsOf word.toNat 12 8)], .none) | 0x3 => some ([], .fixed 1) | 0x4 => some (BitVec.ofNat 8 (bitsOf word.toNat 12 8) :: s.bufBytes (TW_CH_BUF.DATA n.val c.val) 1, .none) | 0x5 => some ([BitVec.ofNat 8 (bitsOf word.toNat 12 8)], .fixed 1) | 0x6 => some (BitVec.ofNat 8 (bitsOf word.toNat 12 8) :: s.bufBytes (TW_CH_BUF.DATA n.val c.val) 2, .none) | 0x7 => some ([BitVec.ofNat 8 (bitsOf word.toNat 12 8)], .fixed 2) | 0x8 => if bitsOf word.toNat 20 8 = 0 then none else some (BitVec.ofNat 8 (bitsOf word.toNat 12 8) :: BitVec.ofNat 8 (bitsOf word.toNat 20 8) :: s.bufBytes (TW_CH_BUF.DATA n.val c.val) (bitsOf word.toNat 20 8), .none) | 0x9 => if bitsOf word.toNat 20 8 = 0 then none else some ([BitVec.ofNat 8 (bitsOf word.toNat 12 8)], .block (bitsOf word.toNat 20 8)) | 0xA => some (BitVec.ofNat 8 (bitsOf word.toNat 12 8) :: s.bufBytes (TW_CH_BUF.DATA n.val c.val) 2, .fixed 2) | 0xB => if bitsOf word.toNat 20 8 = 0 then none else some (BitVec.ofNat 8 (bitsOf word.toNat 12 8) :: BitVec.ofNat 8 (bitsOf word.toNat 20 8) :: s.bufBytes (TW_CH_BUF.DATA n.val c.val) (bitsOf word.toNat 20 8), .block (bitsOf word.toNat 20 8)) | 0xC => if bitsOf word.toNat 20 8 = 0 then none else some (s.bufBytes (TW_CH_BUF.DATA n.val c.val) (bitsOf word.toNat 20 8), .none) | 0xD => if bitsOf word.toNat 20 8 = 0 then none else some ([], .fixed (bitsOf word.toNat 20 8)) | _ => none : Option (List Byte × RxForm))) = some (tx, rx) :=
  ⟨State.reset.setAll [(TW_CFG.CTRL_EN 2, 1)], .keeper 0, 2, 1, 0x80307408, [7, 3, 0, 0, 0], .none, by decide⟩

/-- TwoWireTransactionsRun, clause 9: a state and operands that meet the hypotheses. -/
theorem test_TwoWireTransactionsRun_9 : ∃ (s : State) (ini : Initiator) (n : Fin 12) (c : Fin 2) (word : Word), s.judge ini true (TW_CH_CMD.GO n.val c.val).addr = .allowed ∧ bitOf word.toNat 31 = true ∧ s.on (TW_CH_STS.BUSY n.val c.val) = false ∧ (s.on (TW_CFG.CTRL_EN n.val) = false ∨ reservedAddr (bitsOf word.toNat 5 7) = true ∨ s.tgtMatch n.val (bitsOf word.toNat 5 7) = true ∨ ((match bitsOf word.toNat 0 4 with | 0x0 => some ([], .none) | 0x1 => some ([], .fixed 0) | 0x2 => some ([BitVec.ofNat 8 (bitsOf word.toNat 12 8)], .none) | 0x3 => some ([], .fixed 1) | 0x4 => some (BitVec.ofNat 8 (bitsOf word.toNat 12 8) :: s.bufBytes (TW_CH_BUF.DATA n.val c.val) 1, .none) | 0x5 => some ([BitVec.ofNat 8 (bitsOf word.toNat 12 8)], .fixed 1) | 0x6 => some (BitVec.ofNat 8 (bitsOf word.toNat 12 8) :: s.bufBytes (TW_CH_BUF.DATA n.val c.val) 2, .none) | 0x7 => some ([BitVec.ofNat 8 (bitsOf word.toNat 12 8)], .fixed 2) | 0x8 => if bitsOf word.toNat 20 8 = 0 then none else some (BitVec.ofNat 8 (bitsOf word.toNat 12 8) :: BitVec.ofNat 8 (bitsOf word.toNat 20 8) :: s.bufBytes (TW_CH_BUF.DATA n.val c.val) (bitsOf word.toNat 20 8), .none) | 0x9 => if bitsOf word.toNat 20 8 = 0 then none else some ([BitVec.ofNat 8 (bitsOf word.toNat 12 8)], .block (bitsOf word.toNat 20 8)) | 0xA => some (BitVec.ofNat 8 (bitsOf word.toNat 12 8) :: s.bufBytes (TW_CH_BUF.DATA n.val c.val) 2, .fixed 2) | 0xB => if bitsOf word.toNat 20 8 = 0 then none else some (BitVec.ofNat 8 (bitsOf word.toNat 12 8) :: BitVec.ofNat 8 (bitsOf word.toNat 20 8) :: s.bufBytes (TW_CH_BUF.DATA n.val c.val) (bitsOf word.toNat 20 8), .block (bitsOf word.toNat 20 8)) | 0xC => if bitsOf word.toNat 20 8 = 0 then none else some (s.bufBytes (TW_CH_BUF.DATA n.val c.val) (bitsOf word.toNat 20 8), .none) | 0xD => if bitsOf word.toNat 20 8 = 0 then none else some ([], .fixed (bitsOf word.toNat 20 8)) | _ => none : Option (List Byte × RxForm))) = none) :=
  ⟨State.reset, .keeper 0, 2, 1, 0x80000401, by decide⟩

/-- TwoWireTransactionsRun, clause 10: a state and operands that meet the hypotheses. -/
theorem test_TwoWireTransactionsRun_10 : ∃ (s : State) (ini : Initiator) (n : Fin 12) (c : Fin 2) (word : Word), s.judge ini true (TW_CH_CMD.GO n.val c.val).addr = .allowed ∧ (bitOf word.toNat 31 = false ∨ s.on (TW_CH_STS.BUSY n.val c.val) = true) :=
  ⟨State.reset.setAll [(TW_CH_STS.BUSY 2 1, 1)], .keeper 0, 2, 1, 0x80000401, by decide⟩

/-- TwoWireTargetServes, clause 1: a state and operands that meet the hypotheses. -/
theorem test_TwoWireTargetServes_1 : ∃ (s : State) (n : Fin 12) (addr : Fin 128) (bytes : List Byte), s.tgtLive n.val = true ∧ s.tgtMatch n.val addr.val = true ∧ s.on (TW_TGT_CTL.READY n.val) = true ∧ s.on (TW_TGT_STS.RX_FULL n.val) = false :=
  ⟨State.reset.setAll [(TW_CFG.TGT_EN 2, 1), (TW_TGT_ADDR.ADDR0 2, 0x30), (TW_TGT_ADDR.EN0 2, 1), (TW_TGT_CTL.READY 2, 1), (TW_STS.STATE 2, 1)], 2, 0x30, [1, 2, 3, 4, 5], by decide⟩

/-- TwoWireTargetServes, clause 2: a state and operands that meet the hypotheses. -/
theorem test_TwoWireTargetServes_2 : ∃ (s : State) (n : Fin 12) (addr : Fin 128) (bytes : List Byte), (s.tgtMatch n.val addr.val = false ∨ s.on (TW_TGT_CTL.READY n.val) = false ∨ s.on (TW_TGT_STS.RX_FULL n.val) = true) :=
  ⟨State.reset, 2, 0x30, [1], by decide⟩

/-- TwoWireTargetServes, clause 3: a state and operands that meet the hypotheses. -/
theorem test_TwoWireTargetServes_3 : ∃ (s : State) (n : Fin 12) (addr : Fin 128) (count : Nat), s.tw.length = 12 ∧ s.tgtLive n.val = true ∧ s.tgtMatch n.val addr.val = true ∧ s.on (TW_TGT_CTL.READY n.val) = true ∧ s.on (TW_TGT_STS.RX_FULL n.val) = false ∧ s.on (TW_TGT_CTL.TX_VALID n.val) = true :=
  ⟨State.reset.setAll [(TW_CFG.TGT_EN 2, 1), (TW_TGT_ADDR.ADDR0 2, 0x30), (TW_TGT_ADDR.EN0 2, 1), (TW_TGT_CTL.READY 2, 1), (TW_STS.STATE 2, 1), (TW_TGT_CTL.TX_VALID 2, 1), (TW_TGT_CTL.TX_LEN 2, 2)], 2, 0x30, 4, by decide⟩

/-- TwoWireTargetServes, clause 4: a state and operands that meet the hypotheses. -/
theorem test_TwoWireTargetServes_4 : ∃ (s : State) (n : Fin 12) (addr : Fin 128) (count : Nat), s.tw.length = 12 ∧ s.tgtLive n.val = true ∧ s.tgtMatch n.val addr.val = true ∧ s.on (TW_TGT_CTL.READY n.val) = true ∧ s.on (TW_TGT_STS.RX_FULL n.val) = false ∧ s.on (TW_TGT_CTL.TX_VALID n.val) = false :=
  ⟨State.reset.setAll [(TW_CFG.TGT_EN 2, 1), (TW_TGT_ADDR.ADDR0 2, 0x30), (TW_TGT_ADDR.EN0 2, 1), (TW_TGT_CTL.READY 2, 1), (TW_STS.STATE 2, 1)], 2, 0x30, 4, by decide⟩

/-- TwoWireTargetServes, clause 5: a state and operands that meet the hypotheses. -/
theorem test_TwoWireTargetServes_5 : ∃ (s : State) (n : Fin 12) (addr : Fin 128) (count : Nat), s.tgtMatch n.val addr.val = false :=
  ⟨State.reset, 2, 0x30, 1, by decide⟩

/-- TwoWireTargetServes, clause 6: a state and operands that meet the hypotheses. -/
theorem test_TwoWireTargetServes_6 : ∃ (s : State) (ini : Initiator) (n : Fin 12), s.judge ini true (TW_TGT_CTL.TX_VALID n.val).addr = .allowed ∧ s.on (TW_TGT_STS.READ_PEND n.val) = false :=
  ⟨State.reset, .keeper 0, 2, by decide⟩

/-- TwoWireTargetServes, clause 7: a state and operands that meet the hypotheses. -/
theorem test_TwoWireTargetServes_7 : ∃ (s : State) (ini : Initiator) (n : Fin 12), s.judge ini true (TW_TGT_CTL.TX_VALID n.val).addr = .allowed ∧ s.tw.length = 12 ∧ s.on (TW_TGT_STS.READ_PEND n.val) = true :=
  ⟨({ State.reset with tw := modAt (List.replicate 12 {}) 2 (fun _ => { readWant := 3 }) } : State).setAll [(TW_TGT_STS.READ_PEND 2, 1)], .keeper 0, 2, by decide⟩

/-- TwoWireTargetServes, clause 8: a state and operands that meet the hypotheses. -/
theorem test_TwoWireTargetServes_8 : ∃ (s : State) (n : Fin 12), s.tw.length = 12 ∧ s.twRuns = true ∧ s.on (TW_TGT_STS.READ_PEND n.val) = true :=
  ⟨({ State.reset with tw := modAt (List.replicate 12 {}) 2 (fun _ => { readWant := 3 }) } : State).setAll [(TW_TGT_STS.READ_PEND 2, 1)], 2, by decide⟩

/-- TwoWireTargetServes, clause 9: a state and operands that meet the hypotheses. -/
theorem test_TwoWireTargetServes_9 : ∃ (s : State) (n : Fin 12), s.on (TW_TGT_STS.READ_PEND n.val) = false :=
  ⟨State.reset, 2, by decide⟩

/-- TwoWireTargetServes, clause 10: a state and operands that meet the hypotheses. -/
theorem test_TwoWireTargetServes_10 : ∃ (s : State) (n : Fin 12) (addr : Fin 128), s.tw.length = 12 ∧ s.twRuns = true ∧ s.tgtLive n.val = true ∧ s.tgtMatch n.val addr.val = true :=
  ⟨State.reset.setAll [(TW_CFG.TGT_EN 2, 1), (TW_TGT_ADDR.ADDR0 2, 0x30), (TW_TGT_ADDR.EN0 2, 1), (TW_TGT_CTL.READY 2, 1), (TW_STS.STATE 2, 1)], 2, 0x30, by decide⟩

/-- TwoWireTargetServes, clause 11: a state and operands that meet the hypotheses. -/
theorem test_TwoWireTargetServes_11 : ∃ (s : State) (n : Fin 12) (addr : Fin 128), s.tgtMatch n.val addr.val = false :=
  ⟨State.reset, 2, 0x30, by decide⟩

/-- TwoWireTargetServes, clause 12: a state and operands that meet the hypotheses. -/
theorem test_TwoWireTargetServes_12 : ∃ (s : State) (ini : Initiator) (n : Fin 12), s.judge ini true (TW_TGT_CTL.RX_ACK n.val).addr = .allowed :=
  ⟨State.reset.setAll [(TW_TGT_STS.RX_FULL 2, 1)], .keeper 0, 2, by decide⟩

/-- TwoWireAlertsAndStuckSegments, clause 1: a state and operands that meet the hypotheses. -/
theorem test_TwoWireAlertsAndStuckSegments_1 : ∃ (s : State) (n : Fin 12), s.tw.length = 12 ∧ s.get (TW_CFG.ATTN n.val) = 1 ∧ s.tgtLive n.val = true :=
  ⟨State.reset.setAll [(TW_CFG.ATTN 2, 1), (TW_ATTN_LIST.EN1 2, 1), (TW_STS.STATE 2, 1)], 2, by decide⟩

/-- TwoWireAlertsAndStuckSegments, clause 2: a state and operands that meet the hypotheses. -/
theorem test_TwoWireAlertsAndStuckSegments_2 : ∃ (s : State) (n : Fin 12), s.get (TW_CFG.ATTN n.val) ≠ 1 :=
  ⟨State.reset, 2, by decide⟩

/-- TwoWireAlertsAndStuckSegments, clause 3: a state and operands that meet the hypotheses. -/
theorem test_TwoWireAlertsAndStuckSegments_3 : ∃ (s : State) (n : Fin 12) (low : Bool), s.tw.length = 12 ∧ s.placedIn fnAlert n.val = true ∧ s.cur ≠ 3 ∧ s.get (TW_CFG.ATTN n.val) = 2 ∧ low = true ∧ (s.port n.val).alertIgnored = false ∧ (s.port n.val).araPending = false :=
  ⟨{ State.reset.setAll [(TW_CFG.ATTN 2, 2)] with acd := { xbar := [(9, 0xB02, 0)] } }, 2, true, by decide⟩

/-- TwoWireAlertsAndStuckSegments, clause 4: a state and operands that meet the hypotheses. -/
theorem test_TwoWireAlertsAndStuckSegments_4 : ∃ (s : State) (n : Fin 12) (low : Bool), (s.get (TW_CFG.ATTN n.val) ≠ 2 ∨ s.placedIn fnAlert n.val = false) :=
  ⟨State.reset, 2, true, by decide⟩

/-- TwoWireAlertsAndStuckSegments, clause 5: a state and operands that meet the hypotheses. -/
theorem test_TwoWireAlertsAndStuckSegments_5 : ∃ (s : State) (n : Fin 12), s.tw.length = 12 ∧ s.cur ≠ 3 ∧ s.get (TW_CFG.ATTN n.val) = 2 ∧ (s.port n.val).alertLow = true ∧ (s.port n.val).alertIgnored = false ∧ (s.port n.val).araPending = false :=
  ⟨({ State.reset with tw := modAt (List.replicate 12 {}) 2 (fun _ => { alertLow := true, araNacks := 1 }) } : State).setAll [(TW_CFG.ATTN 2, 2)], 2, by decide⟩

/-- TwoWireAlertsAndStuckSegments, clause 6: a state and operands that meet the hypotheses. -/
theorem test_TwoWireAlertsAndStuckSegments_6 : ∃ (s : State) (n : Fin 12), (s.port n.val).alertLow = false :=
  ⟨State.reset, 2, by decide⟩

/-- TwoWireAlertsAndStuckSegments, clause 7: a state and operands that meet the hypotheses. -/
theorem test_TwoWireAlertsAndStuckSegments_7 : ∃ (s : State) (ini : Initiator) (n : Fin 12), s.judge ini false (TW_ALERT.ADDR n.val).addr = .allowed ∧ s.tw.length = 12 :=
  ⟨({ State.reset with tw := modAt (List.replicate 12 {}) 2 (fun _ => { alerts := [5, 6] }) } : State).setAll [(TW_ALERT.ADDR 2, 5), (TW_ALERT.VALID 2, 1), (TW_ALERT.LEVEL 2, 2)], .keeper 0, 2, by decide⟩

/-- TwoWireAlertsAndStuckSegments, clause 8: a state and operands that meet the hypotheses. -/
theorem test_TwoWireAlertsAndStuckSegments_8 : ∃ (s : State) (n : Fin 12) (scl sda : Bool), s.tw.length = 12 ∧ s.get (TW_STS.STATE n.val) = 1 ∧ s.twRuns = true ∧ (scl = false ∨ sda = false) ∧ (s.port n.val).queue = [] ∧ (s.port n.val).cur = none ∧ s.on (TW_CFG.STUCK_POL n.val) = true ∧ s.on (TW_CFG.SEGPWR_USE n.val) = true ∧ s.get (TW_SEG.RUN n.val) ≤ s.get (TW_CFG.MAX_CYC n.val) :=
  ⟨State.reset.setAll [(TW_CFG.STUCK_POL 2, 1), (TW_CFG.SEGPWR_USE 2, 1), (TW_STS.STATE 2, 1)], 2, false, true, by decide⟩

/-- TwoWireAlertsAndStuckSegments, clause 9: a state and operands that meet the hypotheses. -/
theorem test_TwoWireAlertsAndStuckSegments_9 : ∃ (s : State) (n : Fin 12) (scl sda : Bool), s.tw.length = 12 ∧ s.get (TW_STS.STATE n.val) = 1 ∧ s.twRuns = true ∧ (scl = false ∨ sda = false) ∧ (s.port n.val).queue = [] ∧ (s.port n.val).cur = none ∧ (s.on (TW_CFG.STUCK_POL n.val) = false ∨ s.on (TW_CFG.SEGPWR_USE n.val) = false) :=
  ⟨State.reset.setAll [(TW_STS.STATE 2, 1)], 2, false, true, by decide⟩

/-- TwoWireAlertsAndStuckSegments, clause 10: a state and operands that meet the hypotheses. -/
theorem test_TwoWireAlertsAndStuckSegments_10 : ∃ (s : State) (n : Fin 12) (scl sda : Bool), (s.segDown n.val = true ∨ s.twRuns = false) :=
  ⟨State.reset.setAll [(TW_STS.STATE 2, 5)], 2, false, true, by decide⟩

/-- TwoWireAlertsAndStuckSegments, clause 11: a state and operands that meet the hypotheses. -/
theorem test_TwoWireAlertsAndStuckSegments_11 : ∃ (s : State) (n : Fin 12), s.get (TW_STS.STATE n.val) = 5 ∧ s.twRuns = true :=
  ⟨State.reset.setAll [(TW_STS.STATE 2, 5)], 2, by decide⟩

/-- TwoWireAlertsAndStuckSegments, clause 12: a state and operands that meet the hypotheses. -/
theorem test_TwoWireAlertsAndStuckSegments_12 : ∃ (s : State) (n : Fin 12), s.get (TW_STS.STATE n.val) ≠ 5 :=
  ⟨State.reset, 2, by decide⟩

/-- TwoWireAlertsAndStuckSegments, clause 13: a state and operands that meet the hypotheses. -/
theorem test_TwoWireAlertsAndStuckSegments_13 : ∃ (s : State) (n : Fin 12) (idle : Bool), s.get (TW_STS.STATE n.val) = 5 ∧ s.on (TW_STS.SEGPWR n.val) = true ∧ idle = true ∧ s.twRuns = true :=
  ⟨State.reset.setAll [(TW_STS.STATE 2, 5), (TW_STS.SEGPWR 2, 1)], 2, true, by decide⟩

/-- TwoWireAlertsAndStuckSegments, clause 14: a state and operands that meet the hypotheses. -/
theorem test_TwoWireAlertsAndStuckSegments_14 : ∃ (s : State) (n : Fin 12) (idle : Bool), idle = false :=
  ⟨State.reset.setAll [(TW_STS.STATE 2, 5)], 2, false, by decide⟩

/-- TwoWireAlertsAndStuckSegments, clause 15: a state and operands that meet the hypotheses. -/
theorem test_TwoWireAlertsAndStuckSegments_15 : ∃ (s : State) (n : Fin 12), s.get (TW_STS.STATE n.val) = 5 ∧ s.twRuns = true ∧ s.on (TW_CFG.STUCK_POL n.val) = true ∧ s.on (TW_CFG.SEGPWR_USE n.val) = true ∧ s.get (TW_SEG.RUN n.val) ≤ s.get (TW_CFG.MAX_CYC n.val) :=
  ⟨State.reset.setAll [(TW_CFG.STUCK_POL 2, 1), (TW_CFG.SEGPWR_USE 2, 1), (TW_STS.STATE 2, 5)], 2, by decide⟩

/-- TwoWireAlertsAndStuckSegments, clause 16: a state and operands that meet the hypotheses. -/
theorem test_TwoWireAlertsAndStuckSegments_16 : ∃ (s : State) (n : Fin 12), s.get (TW_STS.STATE n.val) = 5 ∧ s.twRuns = true ∧ s.get (TW_CFG.MAX_CYC n.val) < s.get (TW_SEG.RUN n.val) :=
  ⟨State.reset.setAll [(TW_STS.STATE 2, 5), (TW_SEG.RUN 2, 7)], 2, by decide⟩

/-- TwoWireAlertsAndStuckSegments, clause 17: a state and operands that meet the hypotheses. -/
theorem test_TwoWireAlertsAndStuckSegments_17 : ∃ (s : State) (n : Fin 12), s.get (TW_STS.STATE n.val) ≠ 5 :=
  ⟨State.reset, 2, by decide⟩

/-- TwoWireAlertsAndStuckSegments, clause 18: a state and operands that meet the hypotheses. -/
theorem test_TwoWireAlertsAndStuckSegments_18 : ∃ (s : State) (n : Fin 12), s.twRuns = true :=
  ⟨State.reset.setAll [(TW_SEG.RUN 2, 3)], 2, by decide⟩

/-- LinksTrainStepByStep, clause 1: a state and operands that meet the hypotheses. -/
theorem test_LinksTrainStepByStep_1 : ∃ (s : State) (n : Fin 8), s.tel.links.length = 8 ∧ s.tw.length = 12 ∧ s.get (TL_BC.BUS n.val) < 12 ∧ s.bridgeUp = true ∧ s.vcFree vcCtrl 0 = true ∧ s.trainAllowed n.val = true ∧ s.tlState n.val = 0 ∧ (s.link n.val).retry = false ∧ (s.link n.val).held = false :=
  ⟨State.reset.setAll [(TL_CTL.EN 2, 1), (TFAB_STS.MAP_LOADED, 1), (ACD_INFO.ACC_COUNT, 8), (BRG_STS.STATE, 2)], 2, by decide⟩

/-- LinksTrainStepByStep, clause 2: a state and operands that meet the hypotheses. -/
theorem test_LinksTrainStepByStep_2 : ∃ (s : State) (n : Fin 8), s.tel.links.length = 8 ∧ 12 ≤ s.get (TL_BC.BUS n.val) ∧ s.trainAllowed n.val = true ∧ s.tlState n.val = 0 ∧ (s.link n.val).retry = false ∧ (s.link n.val).held = false :=
  ⟨State.reset.setAll [(TL_CTL.EN 2, 1), (TFAB_STS.MAP_LOADED, 1), (ACD_INFO.ACC_COUNT, 8), (TL_BC.BUS 2, 12)], 2, by decide⟩

/-- LinksTrainStepByStep, clause 3: a state and operands that meet the hypotheses. -/
theorem test_LinksTrainStepByStep_3 : ∃ (s : State) (n : Fin 8), s.tel.links.length = 8 ∧ s.get (TL_BC.BUS n.val) < 12 ∧ (s.bridgeUp = false ∨ s.vcFree vcCtrl 0 = false) ∧ s.get BRG_STS.STATE ≠ 3 ∧ s.trainAllowed n.val = true ∧ s.tlState n.val = 0 ∧ (s.link n.val).retry = false ∧ (s.link n.val).held = false :=
  ⟨State.reset.setAll [(TL_CTL.EN 2, 1), (TFAB_STS.MAP_LOADED, 1), (ACD_INFO.ACC_COUNT, 8)], 2, by decide⟩

/-- LinksTrainStepByStep, clause 4: a state and operands that meet the hypotheses. -/
theorem test_LinksTrainStepByStep_4 : ∃ (s : State) (n : Fin 8), s.tel.links.length = 8 ∧ s.get (TL_BC.BUS n.val) < 12 ∧ s.get BRG_STS.STATE = 3 ∧ s.trainAllowed n.val = true ∧ s.tlState n.val = 0 ∧ (s.link n.val).retry = false ∧ (s.link n.val).held = false :=
  ⟨State.reset.setAll [(TL_CTL.EN 2, 1), (TFAB_STS.MAP_LOADED, 1), (ACD_INFO.ACC_COUNT, 8), (BRG_STS.STATE, 3)], 2, by decide⟩

/-- LinksTrainStepByStep, clause 5: a state and operands that meet the hypotheses. -/
theorem test_LinksTrainStepByStep_5 : ∃ (s : State) (n : Fin 8), (s.trainAllowed n.val = false ∨ s.tlState n.val ≠ 0 ∨ (s.link n.val).retry = true ∨ (s.link n.val).held = true) :=
  ⟨State.reset, 2, by decide⟩

/-- LinksTrainStepByStep, clause 6: a state and operands that meet the hypotheses. -/
theorem test_LinksTrainStepByStep_6 : ∃ (s : State) (n : Fin 8), s.tel.links.length = 8 ∧ s.tw.length = 12 ∧ s.get (TL_BC.BUS n.val) < 12 ∧ s.bridgeUp = true ∧ s.vcFree vcCtrl 0 = true ∧ s.trainAllowed n.val = true ∧ s.tlState n.val = 0 ∧ (s.link n.val).retry = true :=
  ⟨({ State.reset with tel := { links := modAt (List.replicate 8 {}) 2 (fun _ => { retry := true }) } } : State).setAll [(TL_CTL.EN 2, 1), (TFAB_STS.MAP_LOADED, 1), (ACD_INFO.ACC_COUNT, 8), (BRG_STS.STATE, 2)], 2, by decide⟩

/-- LinksTrainStepByStep, clause 7: a state and operands that meet the hypotheses. -/
theorem test_LinksTrainStepByStep_7 : ∃ (s : State) (n : Fin 8), (s.link n.val).retry = false :=
  ⟨State.reset, 2, by decide⟩

/-- LinksTrainStepByStep, clause 8: a state and operands that meet the hypotheses. -/
theorem test_LinksTrainStepByStep_8 : ∃ (s : State) (n : Fin 8), s.tlState n.val = 1 ∧ (s.link n.val).ready = true :=
  ⟨({ State.reset with tel := { links := modAt (List.replicate 8 {}) 2 (fun _ => { ready := true }) } } : State).setAll [(TL_STS.STATE 2, 1)], 2, by decide⟩

/-- LinksTrainStepByStep, clause 9: a state and operands that meet the hypotheses. -/
theorem test_LinksTrainStepByStep_9 : ∃ (s : State) (n : Fin 8), (s.tlState n.val ≠ 1 ∨ (s.link n.val).ready = false) :=
  ⟨State.reset, 2, by decide⟩

/-- LinksTrainStepByStep, clause 10: a state and operands that meet the hypotheses. -/
theorem test_LinksTrainStepByStep_10 : ∃ (s : State) (n : Fin 8), s.tel.links.length = 8 ∧ s.tw.length = 12 ∧ s.get (TL_BC.BUS n.val) < 12 ∧ s.bridgeUp = true ∧ s.vcFree vcCtrl 0 = true ∧ s.tlState n.val = 2 :=
  ⟨State.reset.setAll [(TL_STS.STATE 2, 2), (BRG_STS.STATE, 2)], 2, by decide⟩

/-- LinksTrainStepByStep, clause 11: a state and operands that meet the hypotheses. -/
theorem test_LinksTrainStepByStep_11 : ∃ (s : State) (n : Fin 8), s.tlState n.val ≠ 2 :=
  ⟨State.reset, 2, by decide⟩

/-- LinksTrainStepByStep, clause 12: a state and operands that meet the hypotheses. -/
theorem test_LinksTrainStepByStep_12 : ∃ (s : State) (n : Fin 8), s.tel.links.length = 8 ∧ s.tw.length = 12 ∧ s.get (TL_BC.BUS n.val) < 12 ∧ s.bridgeUp = true ∧ s.vcFree vcCtrl 0 = true ∧ s.tlState n.val = 3 ∧ (s.link n.val).txeq ≠ 0 :=
  ⟨({ State.reset with tel := { links := modAt (List.replicate 8 {}) 2 (fun _ => { txeq := 4 }) } } : State).setAll [(TL_STS.STATE 2, 3), (BRG_STS.STATE, 2)], 2, by decide⟩

/-- LinksTrainStepByStep, clause 13: a state and operands that meet the hypotheses. -/
theorem test_LinksTrainStepByStep_13 : ∃ (s : State) (n : Fin 8), (s.tlState n.val ≠ 3 ∨ (s.link n.val).txeq = 0) :=
  ⟨State.reset, 2, by decide⟩

/-- LinksTrainStepByStep, clause 14: a state and operands that meet the hypotheses. -/
theorem test_LinksTrainStepByStep_14 : ∃ (s : State) (n : Fin 8), s.tlState n.val = 4 ∧ (s.link n.val).ready = true :=
  ⟨({ State.reset with tel := { links := modAt (List.replicate 8 {}) 2 (fun _ => { ready := true }) } } : State).setAll [(TL_STS.STATE 2, 4)], 2, by decide⟩

/-- LinksTrainStepByStep, clause 15: a state and operands that meet the hypotheses. -/
theorem test_LinksTrainStepByStep_15 : ∃ (s : State) (n : Fin 8), (s.tlState n.val ≠ 4 ∨ (s.link n.val).ready = false) :=
  ⟨State.reset, 2, by decide⟩

/-- LinksTrainStepByStep, clause 16: a state and operands that meet the hypotheses. -/
theorem test_LinksTrainStepByStep_16 : ∃ (s : State) (n : Fin 8), s.tel.links.length = 8 ∧ s.tlState n.val = 5 ∧ (s.link n.val).qualBad = false ∧ s.linksHeld = false :=
  ⟨State.reset.setAll [(TL_STS.STATE 2, 5)], 2, by decide⟩

/-- LinksTrainStepByStep, clause 17: a state and operands that meet the hypotheses. -/
theorem test_LinksTrainStepByStep_17 : ∃ (s : State) (n : Fin 8), s.tel.links.length = 8 ∧ s.tw.length = 12 ∧ s.get (TL_BC.BUS n.val) < 12 ∧ s.bridgeUp = true ∧ s.vcFree vcCtrl 0 = true ∧ s.tlState n.val = 5 ∧ (s.link n.val).qualBad = false ∧ s.linksHeld = true :=
  ⟨State.reset.setAll [(TL_STS.STATE 2, 5), (PWRST_STATE.CUR, 1), (BRG_STS.STATE, 2)], 2, by decide⟩

/-- LinksTrainStepByStep, clause 18: a state and operands that meet the hypotheses. -/
theorem test_LinksTrainStepByStep_18 : ∃ (s : State) (n : Fin 8), (s.tlState n.val ≠ 5 ∨ (s.link n.val).qualBad = true) :=
  ⟨State.reset, 2, by decide⟩

/-- LinksTrainStepByStep, clause 19: a state and operands that meet the hypotheses. -/
theorem test_LinksTrainStepByStep_19 : ∃ (s : State) (n : Fin 8), s.tel.links.length = 8 ∧ 1 ≤ s.tlState n.val ∧ s.tlState n.val ≤ 5 :=
  ⟨State.reset.setAll [(TL_STS.STATE 2, 3)], 2, by decide⟩

/-- LinksTrainStepByStep, clause 20: a state and operands that meet the hypotheses. -/
theorem test_LinksTrainStepByStep_20 : ∃ (s : State) (n : Fin 8), (s.tlState n.val = 0 ∨ 6 ≤ s.tlState n.val) :=
  ⟨State.reset, 2, by decide⟩

/-- LinksTrainStepByStep, clause 21: a state and operands that meet the hypotheses. -/
theorem test_LinksTrainStepByStep_21 : ∃ (s : State) (ini : Initiator) (n : Fin 8), s.tel.links.length = 8 ∧ s.tw.length = 12 ∧ s.get (TL_BC.BUS n.val) < 12 ∧ s.bridgeUp = true ∧ s.vcFree vcCtrl 0 = true ∧ s.judge ini true (TL_CTL.RETRAIN n.val).addr = .allowed ∧ s.trainAllowed n.val = true :=
  ⟨{ State.reset.setAll [(TL_CTL.EN 2, 1), (TFAB_STS.MAP_LOADED, 1), (ACD_INFO.ACC_COUNT, 8), (TL_STS.STATE 2, 6), (BRG_STS.STATE, 2)] with pwr := { toppwrEn := true, toppwrGood := true, topRst := false } }, .core 0, 2, by decide⟩

/-- LinksTrainStepByStep, clause 22: a state and operands that meet the hypotheses. -/
theorem test_LinksTrainStepByStep_22 : ∃ (s : State) (ini : Initiator) (n : Fin 8), s.judge ini true (TL_CTL.RETRAIN n.val).addr = .allowed ∧ s.trainAllowed n.val = false :=
  ⟨{ State.reset.setAll [(BRG_STS.STATE, 3)] with pwr := { toppwrEn := true, toppwrGood := true, topRst := false } }, .core 0, 2, by decide⟩

/-- LinksAreLostAndSleep, clause 1: a state and operands that meet the hypotheses. -/
theorem test_LinksAreLostAndSleep_1 : ∃ (s : State) (n : Fin 8), s.tel.links.length = 8 ∧ s.tw.length = 12 ∧ s.get (TL_BC.BUS n.val) < 12 ∧ s.bridgeUp = true ∧ s.vcFree vcCtrl 0 = true ∧ s.tlState n.val = 6 ∧ 8 ≤ (s.link n.val).badRun ∧ s.on (TL_CTL.AUTO_RETRAIN n.val) = true :=
  ⟨({ State.reset with tel := { links := modAt (List.replicate 8 {}) 2 (fun _ => { badRun := 8 }) } } : State).setAll [(TL_STS.STATE 2, 6), (BRG_STS.STATE, 2)], 2, by decide⟩

/-- LinksAreLostAndSleep, clause 2: a state and operands that meet the hypotheses. -/
theorem test_LinksAreLostAndSleep_2 : ∃ (s : State) (n : Fin 8), s.tel.links.length = 8 ∧ s.tlState n.val = 6 ∧ 8 ≤ (s.link n.val).badRun ∧ s.on (TL_CTL.AUTO_RETRAIN n.val) = false :=
  ⟨({ State.reset with tel := { links := modAt (List.replicate 8 {}) 2 (fun _ => { badRun := 8 }) } } : State).setAll [(TL_STS.STATE 2, 6), (TL_CTL.AUTO_RETRAIN 2, 0)], 2, by decide⟩

/-- LinksAreLostAndSleep, clause 3: a state and operands that meet the hypotheses. -/
theorem test_LinksAreLostAndSleep_3 : ∃ (s : State) (n : Fin 8), (s.tlState n.val ≠ 6 ∨ (s.link n.val).badRun < 8) :=
  ⟨State.reset, 2, by decide⟩

/-- LinksAreLostAndSleep, clause 4: a state and operands that meet the hypotheses. -/
theorem test_LinksAreLostAndSleep_4 : ∃ (s : State) (n : Fin 8) (c f : Nat), s.tel.links.length = 8 ∧ s.tw.length = 12 ∧ s.get (TL_BC.BUS n.val) < 12 ∧ s.bridgeUp = true ∧ s.vcFree vcCtrl 0 = true ∧ (s.link n.val).bc = some (c, f) ∧ (s.link n.val).bcWait = true :=
  ⟨({ State.reset with tel := { links := modAt (List.replicate 8 {}) 2 (fun _ => { bc := some (16, 1), bcWait := true }) } } : State).setAll [(BRG_STS.STATE, 2)], 2, 16, 1, by decide⟩

/-- LinksAreLostAndSleep, clause 5: a state and operands that meet the hypotheses. -/
theorem test_LinksAreLostAndSleep_5 : ∃ (s : State) (n : Fin 8), ((s.link n.val).bc = none ∨ (s.link n.val).bcWait = false) :=
  ⟨State.reset, 2, by decide⟩

/-- LinksAreLostAndSleep, clause 6: a state and operands that meet the hypotheses. -/
theorem test_LinksAreLostAndSleep_6 : ∃ (s : State) (n : Fin 8), s.tel.links.length = 8 ∧ s.tw.length = 12 ∧ s.get (TL_BC.BUS n.val) < 12 ∧ s.bridgeUp = true ∧ s.vcFree vcCtrl 0 = true ∧ s.tlState n.val = 7 ∧ s.linksHeld = false :=
  ⟨State.reset.setAll [(TL_STS.STATE 2, 7), (BRG_STS.STATE, 2)], 2, by decide⟩

/-- LinksAreLostAndSleep, clause 7: a state and operands that meet the hypotheses. -/
theorem test_LinksAreLostAndSleep_7 : ∃ (s : State) (n : Fin 8), (s.tlState n.val ≠ 7 ∨ s.linksHeld = true) :=
  ⟨State.reset, 2, by decide⟩

/-- LinksAreLostAndSleep, clause 8: a state and operands that meet the hypotheses. -/
theorem test_LinksAreLostAndSleep_8 : ∃ (s : State) (n : Fin 8), s.tel.links.length = 8 ∧ s.tw.length = 12 ∧ s.get (TL_BC.BUS n.val) < 12 ∧ s.bridgeUp = true ∧ s.vcFree vcCtrl 0 = true ∧ s.tlState n.val = 7 ∧ s.linksHeld = false :=
  ⟨State.reset.setAll [(TL_STS.STATE 2, 7), (BRG_STS.STATE, 2)], 2, by decide⟩

/-- LinksAreLostAndSleep, clause 9: a state and operands that meet the hypotheses. -/
theorem test_LinksAreLostAndSleep_9 : ∃ (s : State) (n : Fin 8), (s.tlState n.val ≠ 7 ∨ s.linksHeld = true) :=
  ⟨State.reset, 2, by decide⟩

/-- LinksAreLostAndSleep, clause 10: a state and operands that meet the hypotheses. -/
theorem test_LinksAreLostAndSleep_10 : ∃ (s : State) (ini : Initiator) (n : Fin 8), s.judge ini true (TL_CNT_CLR.CLR n.val).addr = .allowed :=
  ⟨{ State.reset.setAll [(TL_FEC.CORR 2, 3), (BRG_STS.STATE, 3)] with pwr := { toppwrEn := true, toppwrGood := true, topRst := false } }, .core 0, 2, by decide⟩

set_option maxRecDepth 1000000 in
/-- CodewordsApplyTheirValues, clause 1: a state and operands that meet the hypotheses. -/
theorem test_CodewordsApplyTheirValues_1 : ∃ (s : State) (n : Fin 8) (raw : BitVec 4360) (bad : List (Fin 65536)), s.tlState n.val ≠ 6 ∧ s.tlState n.val ≠ 5 :=
  ⟨State.reset, 2, 0xab5335bae95b52a78afa3cc14dba29cce466345daa10978c0100000000000000000000000000000000000000000000000000000000000000000000000000000000000000000000000000000000000000000000000000000000000000000000000000000000000000000000000000000000000000000000000000000000000000000000000000000000000000000000000000000000000000000000000000000000000000000000000000000000000000000000000000000000000000000000000000000000000000000000000000000000000000000000000000000000000000000000000000000000000000000000000000000000000000000000000000000000000000000000000000000000000000000000000000000000000000000000000000000000000000000000000000000000000000000000000000000000000000000000000000000000000000000000000000000000000000000000000000000000000000000000000000000000000000000000000000000000000000000000000000000000000000000000000000000000000000000000000000000000000000000000000000000000000000000000000000000000000000000000000000000000000000000000000000000000000000000000000000000000000000000000000000000000000000000000000000000000000000000000000000000000000000000000000000000000000000000000000000000000000000000000000000000000#4360, [], by and_intros <;> decide +kernel⟩

set_option maxRecDepth 1000000 in
/-- CodewordsApplyTheirValues, clause 2: a state and operands that meet the hypotheses. -/
theorem test_CodewordsApplyTheirValues_2 : ∃ (s : State) (n : Fin 8) (raw : BitVec 4360) (bad : List (Fin 65536)), s.tel.links.length = 8 ∧ (s.tlState n.val = 6 ∨ s.tlState n.val = 5) ∧ s.rxWord n.val raw.toNat = .uncorrectable ∧ bad = [] :=
  ⟨State.reset.setAll [(TL_STS.STATE 2, 6)], 2, 0xab5335bae95b52a78afa3cc14dba29cce466345daa10978c0100000000000000000000000000000000000000000000000000000000000000000000000000000000000000000000000000000000000000000000000000000000000000000000000000000000000000000000000000000000000000000000000000000000000000000000000000000000000000000000000000000000000000000000000000000000000000000000000000000000000000000000000000000000000000000000000000000000000000000000000000000000000000000000000000000000000000000000000000000000000000000000000000000000000000000000000000000000000000000000000000000000000000000000000000000000000000000000000000000000000000000000000000000000000000000000000000000000000000000000000000000000000000000000000000000000000000000000000000000000000000000000000000000000000000000000000000000000000000000000000000000000000000000000000000000000000000000000000000000000000000000000000000000000000000000000000000000000000000000000000000000000000000000000000000000000000000000000000000000000000000000000000000000000000000000000000000000000000000000000000000000000000000000000000000000000000000000000000000000000000000000000000000000000#4360, [], by and_intros <;> decide +kernel⟩

set_option maxRecDepth 1000000 in
/-- CodewordsApplyTheirValues, clause 3: a state and operands that meet the hypotheses. -/
theorem test_CodewordsApplyTheirValues_3 : ∃ (s : State) (n : Fin 8) (raw : BitVec 4360) (bad : List (Fin 65536)) (corr : Bool) (p : List Byte), s.tel.links.length = 8 ∧ s.tlState n.val = 5 ∧ s.rxWord n.val raw.toNat = .decoded corr p ∧ bad = [] :=
  ⟨State.reset.setAll [(TL_STS.STATE 2, 5)], 2, 0x34218501aa5a1f09e3e715e2ce891c15d8c366d469656c17aa0000000000000000000000000000000000000000000000000000000000000000000000000000000000000000000000000000000000000000000000000000000000000000000000000000000000000000000000000000000000000000000000000000000000000000000000000000000000000000000000000000000000000000000000000000000000000000000000000000000000000000000000000000000000000000000000000000000000000000000000000000000000000000000000000000000000000000000000000000000000000000000000000000000000000000000000000000000000000000000000000000000000000000000000000000000000000000000000000000000000000000000000000000000000000000000000000000000000000000000000000000000000000000000000000000000000000000000000000000000000000000000000000000000000000000000000000000000000000000000000000000000000000000000000000000000000000000000000000000000000000000000000000000000000000000000000000000000000000000000000000000000000000000000000000000000000000000000000000000000000000000000000000000000000000000000000000000000000000000000000000000000000000000000000000000000000000000000000000000000000000000000000000000c35a#4360, [], false, ([0x5A, 0xC3] ++ List.replicate 518 0 : List Byte), by and_intros <;> decide +kernel⟩

set_option maxRecDepth 1000000 in
/-- CodewordsApplyTheirValues, clause 4: a state and operands that meet the hypotheses. -/
theorem test_CodewordsApplyTheirValues_4 : ∃ (s : State) (n : Fin 8) (raw : BitVec 4360) (bad : List (Fin 65536)) (corr : Bool) (p : List Byte), s.tel.links.length = 8 ∧ s.tlState n.val = 6 ∧ s.rxWord n.val raw.toNat = .decoded corr p ∧ bad = [] ∧ crc32c ((slice p 8 256).take 252) ≠ leAt (slice p 8 256) 252 4 ∧ crc32c ((slice p 264 256).take 252) ≠ leAt (slice p 264 256) 252 4 :=
  ⟨State.reset.setAll [(TL_STS.STATE 2, 6)], 2, 0x34218501aa5a1f09e3e715e2ce891c15d8c366d469656c17aa0000000000000000000000000000000000000000000000000000000000000000000000000000000000000000000000000000000000000000000000000000000000000000000000000000000000000000000000000000000000000000000000000000000000000000000000000000000000000000000000000000000000000000000000000000000000000000000000000000000000000000000000000000000000000000000000000000000000000000000000000000000000000000000000000000000000000000000000000000000000000000000000000000000000000000000000000000000000000000000000000000000000000000000000000000000000000000000000000000000000000000000000000000000000000000000000000000000000000000000000000000000000000000000000000000000000000000000000000000000000000000000000000000000000000000000000000000000000000000000000000000000000000000000000000000000000000000000000000000000000000000000000000000000000000000000000000000000000000000000000000000000000000000000000000000000000000000000000000000000000000000000000000000000000000000000000000000000000000000000000000000000000000000000000000000000000000000000000000000000000000000000000000000c35a#4360, [], false, ([0x5A, 0xC3] ++ List.replicate 518 0 : List Byte), by and_intros <;> decide +kernel⟩

set_option maxRecDepth 1000000 in
/-- CodewordsApplyTheirValues, clause 5: a state and operands that meet the hypotheses. -/
theorem test_CodewordsApplyTheirValues_5 : ∃ (s : State) (n : Fin 8) (raw : BitVec 4360) (bad : List (Fin 65536)) (corr : Bool) (p : List Byte) (ch v : Nat) (w : Bool), s.tel.links.length = 8 ∧ s.tlState n.val = 6 ∧ s.rxWord n.val raw.toNat = .decoded corr p ∧ bad = [] ∧ crc32c ((slice p 8 256).take 252) = leAt (slice p 8 256) 252 4 ∧ crc32c ((slice p 264 256).take 252) = leAt (slice p 264 256) 252 4 ∧ leAt (slice p 8 256) 0 1 = 1 ∧ leAt (slice p 8 256) 1 1 = 0 ∧ leAt (slice p 8 256) 8 4 = 0 ∧ leAt (slice p 264 256) 0 1 = 0 ∧ parseBlocks (slice (slice p 8 256) 12 240) 61 0 = some [{ first := ch, wide := w, vals := [v] }] ∧ (s.desc (8192 * n.val + ch)).valid = true ∧ (s.desc (8192 * n.val + ch)).recEn = false ∧ w = fmtWide (s.desc (8192 * n.val + ch)).fmt ∧ (∀ u < 16, s.on (TFAB_TRG_CFG.EN u) = false) ∧ (s.link n.val).exp = none :=
  ⟨((({ State.reset with mem := memStore [] (descAddr 16424) [0x01, 0, 0, 0x64, 0, 0, 0, 0x3E, 0, 0, 0, 0, 0, 4, 0, 3] } : State).setAll [(TL_STS.STATE 2, 6)])), 2, 0x63c36c2476231d535f7e2aaab61547f853ef2ec72353990d055b88206ae8d4631597fe6005f9187a46f0d0df645df21a02777797f98e79b152ebcfa31a6a0f19fb10d7a4807756702efbecff604a7002f0fb61c77ea4ef68a33565b9058cfa99520a44002bbea32356f56ad442f2408bf54bcbb9c5e71a41b1bad84622ce5435a430a50ea734d98f9718b14adb1f3886213c9691551c0b2bce40dd9d5cb16165bc1bd0d45642d3a75c80de858b6458bbab20d406c396f69816e6036c25d022bfbdd72cb3919edddcae70b92a70923939db0971fd0ab1ef20ffb860b5a06d7c32419e655bd7f4766ee9548bdf6c6676369be424a79d097e07d6c9d33e78384ef2bbaa98eb5d0ed70f3047dcdfb82e34c9d76e0d03ca2d4b3072e54eae2287084c55c452f36b9c7e66fed86301eb7fa4d04282c82a86ec64cd2c2baf24cefdaa94bfb95ec494b237b9a8a084313c0bc9eb511c666c8e3feb13ba7bec6cf2775aa075af15897f6787f19b3b5138b3c6ea1e13978c5e00314782cd134e226595ac01f153b6b313bd620bf8acd3d17522ac5a7ebfbb8abfda4164e7c27e57b95aae12a55dc145ee833979305f77704e2057881d2cdfb613e3207b2f388863e9c463f3425c70b1ff0ec3314f7a05908302dc3385071480222708a5a0d19412bb407e003ba503da7064ce027080b88c0e22015860052f032d6033b4073d402cf0097300e130171a00bf802fbc00310029c0005c000780008000070001000000000000c35a#4360, [], false, ([0x5A, 0xC3] ++ List.replicate 6 0 ++ (fun (b : List Byte) => padTo 252 b ++ leBytes 4 (crc32c (padTo 252 b))) [1, 0, 7, 0, 0, 0, 0, 0, 0, 0, 0, 0, 40, 0, 1, 0, 0x2C, 0x3A] ++ (fun (b : List Byte) => padTo 252 b ++ leBytes 4 (crc32c (padTo 252 b))) [] : List Byte), 40, 0x3A2C, false, by and_intros <;> decide +kernel⟩

set_option maxRecDepth 1000000 in
/-- CodewordsApplyTheirValues, clause 6: a state and operands that meet the hypotheses. -/
theorem test_CodewordsApplyTheirValues_6 : ∃ (s : State) (n : Fin 8) (raw : BitVec 4360) (bad : List (Fin 65536)) (corr : Bool) (p : List Byte) (ch v : Nat) (w : Bool), s.tel.links.length = 8 ∧ s.tlState n.val = 6 ∧ s.rxWord n.val raw.toNat = .decoded corr p ∧ bad = [] ∧ crc32c ((slice p 8 256).take 252) = leAt (slice p 8 256) 252 4 ∧ crc32c ((slice p 264 256).take 252) = leAt (slice p 264 256) 252 4 ∧ leAt (slice p 8 256) 0 1 = 1 ∧ leAt (slice p 8 256) 1 1 = 0 ∧ leAt (slice p 8 256) 8 4 = 0 ∧ leAt (slice p 264 256) 0 1 = 0 ∧ parseBlocks (slice (slice p 8 256) 12 240) 61 0 = some [{ first := ch, wide := w, vals := [v] }] ∧ ((s.desc (8192 * n.val + ch)).valid = false ∨ w ≠ fmtWide (s.desc (8192 * n.val + ch)).fmt) ∧ (s.link n.val).exp = none :=
  ⟨State.reset.setAll [(TL_STS.STATE 2, 6)], 2, 0x63c36c2476231d535f7e2aaab61547f853ef2ec72353990d055b88206ae8d4631597fe6005f9187a46f0d0df645df21a02777797f98e79b152ebcfa31a6a0f19fb10d7a4807756702efbecff604a7002f0fb61c77ea4ef68a33565b9058cfa99520a44002bbea32356f56ad442f2408bf54bcbb9c5e71a41b1bad84622ce5435a430a50ea734d98f9718b14adb1f3886213c9691551c0b2bce40dd9d5cb16165bc1bd0d45642d3a75c80de858b6458bbab20d406c396f69816e6036c25d022bfbdd72cb3919edddcae70b92a70923939db0971fd0ab1ef20ffb860b5a06d7c32419e655bd7f4766ee9548bdf6c6676369be424a79d097e07d6c9d33e78384ef2bbaa98eb5d0ed70f3047dcdfb82e34c9d76e0d03ca2d4b3072e54eae2287084c55c452f36b9c7e66fed86301eb7fa4d04282c82a86ec64cd2c2baf24cefdaa94bfb95ec494b237b9a8a084313c0bc9eb511c666c8e3feb13ba7bec6cf2775aa075af15897f6787f19b3b5138b3c6ea1e13978c5e00314782cd134e226595ac01f153b6b313bd620bf8acd3d17522ac5a7ebfbb8abfda4164e7c27e57b95aae12a55dc145ee833979305f77704e2057881d2cdfb613e3207b2f388863e9c463f3425c70b1ff0ec3314f7a05908302dc3385071480222708a5a0d19412bb407e003ba503da7064ce027080b88c0e22015860052f032d6033b4073d402cf0097300e130171a00bf802fbc00310029c0005c000780008000070001000000000000c35a#4360, [], false, ([0x5A, 0xC3] ++ List.replicate 6 0 ++ (fun (b : List Byte) => padTo 252 b ++ leBytes 4 (crc32c (padTo 252 b))) [1, 0, 7, 0, 0, 0, 0, 0, 0, 0, 0, 0, 40, 0, 1, 0, 0x2C, 0x3A] ++ (fun (b : List Byte) => padTo 252 b ++ leBytes 4 (crc32c (padTo 252 b))) [] : List Byte), 40, 0x3A2C, false, by and_intros <;> decide +kernel⟩

set_option maxRecDepth 1000000 in
/-- CodewordsApplyTheirValues, clause 7: a state and operands that meet the hypotheses. -/
theorem test_CodewordsApplyTheirValues_7 : ∃ (s : State) (n : Fin 8) (raw : BitVec 4360) (bad : List (Fin 65536)) (corr : Bool) (p : List Byte), s.tel.links.length = 8 ∧ s.tlState n.val = 6 ∧ s.rxWord n.val raw.toNat = .decoded corr p ∧ bad = [] ∧ crc32c ((slice p 8 256).take 252) = leAt (slice p 8 256) 252 4 ∧ crc32c ((slice p 264 256).take 252) = leAt (slice p 264 256) 252 4 ∧ leAt (slice p 8 256) 0 1 ≠ 0 ∧ (2 < leAt (slice p 8 256) 0 1 ∨ leAt (slice p 8 256) 1 1 ≠ 0 ∨ leAt (slice p 8 256) 8 4 ≠ 0 ∨ parseBlocks (slice (slice p 8 256) 12 240) 61 0 = none) ∧ leAt (slice p 264 256) 0 1 = 0 :=
  ⟨State.reset.setAll [(TL_STS.STATE 2, 6)], 2, 0x2c244723a4b8ae9ea05aab37ed372b27efffe13b4c5208a83e53ded87f713a19aa4d179e3ebd41bd3b7240e1e74c53a756e4d2a5494040fdb12b1f7733fed91391e5aff04a484dad70de5209585240567f9e4da5dd24ae3b7254073dc9cc37e513fd6d0ddeac429177096d9686a274898cca5438e21a3e2075510092a69ddcceefd9f952985d60b05a685feb1ca54f8233e7bcbbdec49b546a85a3a7055235b0e7def53a8a2a3d7cb012d8a0d19b451f6c15c5b6de679c17f6f39369eb8a388cfbf545044a2eaa7b281e24114f28b72f116ce67e56e201181b1a9cf6eb1e9b6515cb9f03b446afcda71e740edf2a288c828c93e658f6e83e7e2336525b7044f18053a49ca882a97041c72f12c54804b9715cea9acf5277b619cc658a582ca683c5405123010dc0d0e80e55c189c8050303351004d001dac0f61c1ff78388404c8f0e6c012f9036d1c54138e3c311cc1369cc55c94eca2d0336b51485101be2ced11cfb6799944086cf2e0003a5105511c12238cd030ce411d40c09c142012c352684d4801adb0e12c0f7781859c08f882c2f03939051900139c0c3dc0c1f81cd800947022f0036800481c01bf80edf00fb90198c0086402e2c03a6805540012300cdc00ce801d5c009c8020300351004d0001ac00e1c00f7801840008f002c0003900051c0013800c3000c1001cc000940022c0036800480001b000ec000f80019c00088002f00039000500001c000dc000f80018000070003000000000000c35a#4360, [], false, ([0x5A, 0xC3] ++ List.replicate 6 0 ++ (fun (b : List Byte) => padTo 252 b ++ leBytes 4 (crc32c (padTo 252 b))) [3, 0, 7, 0] ++ (fun (b : List Byte) => padTo 252 b ++ leBytes 4 (crc32c (padTo 252 b))) [] : List Byte), by and_intros <;> decide +kernel⟩

set_option maxRecDepth 1000000 in
/-- CodewordsApplyTheirValues, clause 8: a state and operands that meet the hypotheses. -/
theorem test_CodewordsApplyTheirValues_8 : ∃ (s : State) (n : Fin 8) (raw : BitVec 4360) (bad : List (Fin 65536)) (corr : Bool) (p : List Byte), s.tel.links.length = 8 ∧ s.tlState n.val = 6 ∧ s.rxWord n.val raw.toNat = .decoded corr p ∧ bad = [] ∧ crc32c ((slice p 8 256).take 252) = leAt (slice p 8 256) 252 4 ∧ crc32c ((slice p 264 256).take 252) = leAt (slice p 264 256) 252 4 ∧ leAt (slice p 8 256) 0 1 = 2 ∧ leAt (slice p 8 256) 1 1 = 0 ∧ leAt (slice p 8 256) 8 4 = 0 ∧ leAt (slice p 264 256) 0 1 = 0 ∧ parseBlocks (slice (slice p 8 256) 12 240) 61 0 = some [] ∧ (s.link n.val).exp = none ∧ (s.link n.val).queue.length < 512 ∧ (∀ u < 16, s.on (TFAB_TRG_CFG.EN u) = false) :=
  ⟨({ State.reset with pwr := { toppwrEn := true, toppwrGood := true, topRst := false }, tel := { links := List.replicate 8 {}, buf := none } } : State).setAll [(TFAB_STS.REC_STATE, 1), (TFAB_REC_SIZE.NBUF, 16), (TL_STS.STATE 2, 6)], 2, 0xbdbc7f82ebc3a5c8774c42ccd087918b0967877292cf3094c2a8c380713d683e9ecea70ddbbbb4d0c533dbd095972683a8268121b5ed9657bb6abf002c85907e68a00d1f20c7fb82d7731d26525a2afe99989aa785de4f1dafc51c19d410fde9eefa3baa434a3212f8ccb589443dac3986aa5284453b86c6da4c7a58c1aaa983c62eeef5b774d61f11785f42d6dddd1fe5b42c0332f721a7893ff1eb43f5019cefcfe72901a5470f5b1821236d75ae7873c746a3b5bfe8ab0cc4c975f6d49419a3b1690b9804756862f74eb8e8ca4701f533909c4082486d05e987ad1067b94d8d485aed12b3f1352c301ec2af2418af8f124149812f1bc627e8969d59155aab5170cd785cf9a14b681a3314780adddb5d37aeb8f760683b40ecc62040de06cbc85547f2df7fe91de87241b997cd7583b2201821f0595ee7a3dafc0749d750d21ca54246dd9cef34b4b60721a7dff9d6d2bb123e95b9a7039a24fce1f1f5fed836e43ea0faaba958cc24b1ba3cdd11a8ab197bec1839e92dfb7b446966f767a032251c1d1e5a4bc7c03fff40697afcdf50643a16d9fdeceba493f124015fbac2d3a41374d5802a04ec4440bde81d3c38b69739a8e07a1222e78a36c9585da3b256fbf8896879c19a86cd7283b02010a5b14816c50adc8837c3034922de0656300a1449f508ab2d17e0b081543ae1c2a41474d7802280ad55089f411b48083c43205822d9065430029008e44089841194800b80231100070002000000000000c35a#4360, [], false, ([0x5A, 0xC3] ++ List.replicate 6 0 ++ (fun (b : List Byte) => padTo 252 b ++ leBytes 4 (crc32c (padTo 252 b))) [2, 0, 7, 0, 0x11, 0x22] ++ (fun (b : List Byte) => padTo 252 b ++ leBytes 4 (crc32c (padTo 252 b))) [] : List Byte), by and_intros <;> decide +kernel⟩

set_option maxRecDepth 1000000 in
/-- CodewordsApplyTheirValues, clause 9: a state and operands that meet the hypotheses. -/
theorem test_CodewordsApplyTheirValues_9 : ∃ (s : State) (n : Fin 8) (raw : BitVec 4360) (bad : List (Fin 65536)) (corr : Bool) (p : List Byte) (u : Fin 16), s.tel.links.length = 8 ∧ s.tlState n.val = 6 ∧ s.rxWord n.val raw.toNat = .decoded corr p ∧ bad = [] ∧ crc32c ((slice p 8 256).take 252) = leAt (slice p 8 256) 252 4 ∧ crc32c ((slice p 264 256).take 252) = leAt (slice p 264 256) 252 4 ∧ leAt (slice p 8 256) 0 1 = 2 ∧ leAt (slice p 8 256) 1 1 = 0 ∧ leAt (slice p 8 256) 8 4 = 0 ∧ leAt (slice p 264 256) 0 1 = 0 ∧ parseBlocks (slice (slice p 8 256) 12 240) 61 0 = some [] ∧ (s.link n.val).exp = none ∧ (s.link n.val).queue.length < 512 ∧ (∀ k < 16, s.on (TFAB_TRG_CFG.EN k) = (k == u.val)) ∧ s.get (TFAB_TRG_CFG.SRC u.val) = 3 ∧ s.get (TFAB_TRG_CFG.INDEX u.val) % 8 = n.val ∧ s.get (TFAB_TRG_THR.THR u.val) = leAt (slice p 8 256) 4 4 ∧ s.get TFAB_STS.REC_STATE = 1 ∧ s.gated 8 = false ∧ s.get TFAB_REC_CFG.POST ≠ 0 :=
  ⟨({ State.reset with pwr := { toppwrEn := true, toppwrGood := true, topRst := false }, tel := { links := List.replicate 8 {}, buf := none } } : State).setAll [(TFAB_STS.REC_STATE, 1), (TFAB_REC_SIZE.NBUF, 16), (TL_STS.STATE 2, 6), (TFAB_TRG_CFG.EN 3, 1), (TFAB_TRG_CFG.SRC 3, 3), (TFAB_TRG_CFG.INDEX 3, 2), (TFAB_TRG_THR.THR 3, 0x2211)], 2, 0xbdbc7f82ebc3a5c8774c42ccd087918b0967877292cf3094c2a8c380713d683e9ecea70ddbbbb4d0c533dbd095972683a8268121b5ed9657bb6abf002c85907e68a00d1f20c7fb82d7731d26525a2afe99989aa785de4f1dafc51c19d410fde9eefa3baa434a3212f8ccb589443dac3986aa5284453b86c6da4c7a58c1aaa983c62eeef5b774d61f11785f42d6dddd1fe5b42c0332f721a7893ff1eb43f5019cefcfe72901a5470f5b1821236d75ae7873c746a3b5bfe8ab0cc4c975f6d49419a3b1690b9804756862f74eb8e8ca4701f533909c4082486d05e987ad1067b94d8d485aed12b3f1352c301ec2af2418af8f124149812f1bc627e8969d59155aab5170cd785cf9a14b681a3314780adddb5d37aeb8f760683b40ecc62040de06cbc85547f2df7fe91de87241b997cd7583b2201821f0595ee7a3dafc0749d750d21ca54246dd9cef34b4b60721a7dff9d6d2bb123e95b9a7039a24fce1f1f5fed836e43ea0faaba958cc24b1ba3cdd11a8ab197bec1839e92dfb7b446966f767a032251c1d1e5a4bc7c03fff40697afcdf50643a16d9fdeceba493f124015fbac2d3a41374d5802a04ec4440bde81d3c38b69739a8e07a1222e78a36c9585da3b256fbf8896879c19a86cd7283b02010a5b14816c50adc8837c3034922de0656300a1449f508ab2d17e0b081543ae1c2a41474d7802280ad55089f411b48083c43205822d9065430029008e44089841194800b80231100070002000000000000c35a#4360, [], false, ([0x5A, 0xC3] ++ List.replicate 6 0 ++ (fun (b : List Byte) => padTo 252 b ++ leBytes 4 (crc32c (padTo 252 b))) [2, 0, 7, 0, 0x11, 0x22] ++ (fun (b : List Byte) => padTo 252 b ++ leBytes 4 (crc32c (padTo 252 b))) [] : List Byte), 3, by and_intros <;> decide +kernel⟩

set_option maxRecDepth 1000000 in
/-- CodewordsApplyTheirValues, clause 10: a state and operands that meet the hypotheses. -/
theorem test_CodewordsApplyTheirValues_10 : ∃ (s : State) (n : Fin 8) (raw : BitVec 4360) (bad : List (Fin 65536)) (corr : Bool) (p : List Byte) (ch v : Nat) (w : Bool), s.tel.links.length = 8 ∧ s.tlState n.val = 6 ∧ s.rxWord n.val raw.toNat = .decoded corr p ∧ bad = [] ∧ crc32c ((slice p 8 256).take 252) = leAt (slice p 8 256) 252 4 ∧ crc32c ((slice p 264 256).take 252) = leAt (slice p 264 256) 252 4 ∧ leAt (slice p 8 256) 0 1 = 1 ∧ leAt (slice p 8 256) 1 1 = 0 ∧ leAt (slice p 8 256) 8 4 = 0 ∧ leAt (slice p 264 256) 0 1 = 0 ∧ parseBlocks (slice (slice p 8 256) 12 240) 61 0 = some [{ first := ch, wide := w, vals := [v] }] ∧ (s.desc (8192 * n.val + ch)).valid = true ∧ (s.desc (8192 * n.val + ch)).recEn = true ∧ w = fmtWide (s.desc (8192 * n.val + ch)).fmt ∧ (∀ u < 16, s.on (TFAB_TRG_CFG.EN u) = false) ∧ s.recAccepts = true ∧ (s.link n.val).queue.length < 512 ∧ (s.link n.val).exp = none :=
  ⟨({ ({ State.reset with pwr := { toppwrEn := true, toppwrGood := true, topRst := false }, tel := { links := List.replicate 8 {}, buf := none } } : State).setAll [(TFAB_STS.REC_STATE, 1), (TFAB_REC_SIZE.NBUF, 16), (TL_STS.STATE 2, 6)] with mem := memStore [] (descAddr 16424) [0x09, 0, 0, 0x64, 0, 0, 0, 0x3E, 0, 0, 0, 0, 0, 4, 0, 3] }), 2, 0x63c36c2476231d535f7e2aaab61547f853ef2ec72353990d055b88206ae8d4631597fe6005f9187a46f0d0df645df21a02777797f98e79b152ebcfa31a6a0f19fb10d7a4807756702efbecff604a7002f0fb61c77ea4ef68a33565b9058cfa99520a44002bbea32356f56ad442f2408bf54bcbb9c5e71a41b1bad84622ce5435a430a50ea734d98f9718b14adb1f3886213c9691551c0b2bce40dd9d5cb16165bc1bd0d45642d3a75c80de858b6458bbab20d406c396f69816e6036c25d022bfbdd72cb3919edddcae70b92a70923939db0971fd0ab1ef20ffb860b5a06d7c32419e655bd7f4766ee9548bdf6c6676369be424a79d097e07d6c9d33e78384ef2bbaa98eb5d0ed70f3047dcdfb82e34c9d76e0d03ca2d4b3072e54eae2287084c55c452f36b9c7e66fed86301eb7fa4d04282c82a86ec64cd2c2baf24cefdaa94bfb95ec494b237b9a8a084313c0bc9eb511c666c8e3feb13ba7bec6cf2775aa075af15897f6787f19b3b5138b3c6ea1e13978c5e00314782cd134e226595ac01f153b6b313bd620bf8acd3d17522ac5a7ebfbb8abfda4164e7c27e57b95aae12a55dc145ee833979305f77704e2057881d2cdfb613e3207b2f388863e9c463f3425c70b1ff0ec3314f7a05908302dc3385071480222708a5a0d19412bb407e003ba503da7064ce027080b88c0e22015860052f032d6033b4073d402cf0097300e130171a00bf802fbc00310029c0005c000780008000070001000000000000c35a#4360, [], false, ([0x5A, 0xC3] ++ List.replicate 6 0 ++ (fun (b : List Byte) => padTo 252 b ++ leBytes 4 (crc32c (padTo 252 b))) [1, 0, 7, 0, 0, 0, 0, 0, 0, 0, 0, 0, 40, 0, 1, 0, 0x2C, 0x3A] ++ (fun (b : List Byte) => padTo 252 b ++ leBytes 4 (crc32c (padTo 252 b))) [] : List Byte), 40, 0x3A2C, false, by and_intros <;> decide +kernel⟩

set_option maxRecDepth 1000000 in
/-- CodewordsApplyTheirValues, clause 11: a state and operands that meet the hypotheses. -/
theorem test_CodewordsApplyTheirValues_11 : ∃ (s : State) (n : Fin 8) (raw : BitVec 4360) (bad : List (Fin 65536)) (corr : Bool) (p : List Byte) (ch v : Nat) (w : Bool) (u : Fin 16), s.tel.links.length = 8 ∧ s.tlState n.val = 6 ∧ s.rxWord n.val raw.toNat = .decoded corr p ∧ bad = [] ∧ crc32c ((slice p 8 256).take 252) = leAt (slice p 8 256) 252 4 ∧ crc32c ((slice p 264 256).take 252) = leAt (slice p 264 256) 252 4 ∧ leAt (slice p 8 256) 0 1 = 1 ∧ leAt (slice p 8 256) 1 1 = 0 ∧ leAt (slice p 8 256) 8 4 = 0 ∧ leAt (slice p 264 256) 0 1 = 0 ∧ parseBlocks (slice (slice p 8 256) 12 240) 61 0 = some [{ first := ch, wide := w, vals := [v] }] ∧ (s.desc (8192 * n.val + ch)).valid = true ∧ (s.desc (8192 * n.val + ch)).recEn = false ∧ w = fmtWide (s.desc (8192 * n.val + ch)).fmt ∧ (∀ k < 16, s.on (TFAB_TRG_CFG.EN k) = (k == u.val)) ∧ s.get (TFAB_TRG_CFG.SRC u.val) = 0 ∧ s.get (TFAB_TRG_CFG.INDEX u.val) = 8192 * n.val + ch ∧ (s.dst (8192 * n.val + ch)).has = true ∧ lt32 (s.get (TFAB_TRG_THR.THR u.val)) (convert (s.desc (8192 * n.val + ch)) v) = true ∧ lt32 (s.get (TFAB_TRG_THR.THR u.val)) (s.dst (8192 * n.val + ch)).latest = false ∧ s.get TFAB_STS.REC_STATE = 1 ∧ s.gated 8 = false ∧ s.get TFAB_REC_CFG.POST ≠ 0 :=
  ⟨({ ({ State.reset with pwr := { toppwrEn := true, toppwrGood := true, topRst := false }, tel := { links := List.replicate 8 {}, buf := none, desc := [(16424, { has := true })] } } : State).setAll [(TFAB_STS.REC_STATE, 1), (TFAB_REC_SIZE.NBUF, 16), (TL_STS.STATE 2, 6), (TFAB_TRG_CFG.EN 3, 1), (TFAB_TRG_CFG.INDEX 3, 16424)] with mem := memStore [] (descAddr 16424) [0x01, 0, 0, 0x64, 0, 0, 0, 0x3E, 0, 0, 0, 0, 0, 4, 0, 3] }), 2, 0x63c36c2476231d535f7e2aaab61547f853ef2ec72353990d055b88206ae8d4631597fe6005f9187a46f0d0df645df21a02777797f98e79b152ebcfa31a6a0f19fb10d7a4807756702efbecff604a7002f0fb61c77ea4ef68a33565b9058cfa99520a44002bbea32356f56ad442f2408bf54bcbb9c5e71a41b1bad84622ce5435a430a50ea734d98f9718b14adb1f3886213c9691551c0b2bce40dd9d5cb16165bc1bd0d45642d3a75c80de858b6458bbab20d406c396f69816e6036c25d022bfbdd72cb3919edddcae70b92a70923939db0971fd0ab1ef20ffb860b5a06d7c32419e655bd7f4766ee9548bdf6c6676369be424a79d097e07d6c9d33e78384ef2bbaa98eb5d0ed70f3047dcdfb82e34c9d76e0d03ca2d4b3072e54eae2287084c55c452f36b9c7e66fed86301eb7fa4d04282c82a86ec64cd2c2baf24cefdaa94bfb95ec494b237b9a8a084313c0bc9eb511c666c8e3feb13ba7bec6cf2775aa075af15897f6787f19b3b5138b3c6ea1e13978c5e00314782cd134e226595ac01f153b6b313bd620bf8acd3d17522ac5a7ebfbb8abfda4164e7c27e57b95aae12a55dc145ee833979305f77704e2057881d2cdfb613e3207b2f388863e9c463f3425c70b1ff0ec3314f7a05908302dc3385071480222708a5a0d19412bb407e003ba503da7064ce027080b88c0e22015860052f032d6033b4073d402cf0097300e130171a00bf802fbc00310029c0005c000780008000070001000000000000c35a#4360, [], false, ([0x5A, 0xC3] ++ List.replicate 6 0 ++ (fun (b : List Byte) => padTo 252 b ++ leBytes 4 (crc32c (padTo 252 b))) [1, 0, 7, 0, 0, 0, 0, 0, 0, 0, 0, 0, 40, 0, 1, 0, 0x2C, 0x3A] ++ (fun (b : List Byte) => padTo 252 b ++ leBytes 4 (crc32c (padTo 252 b))) [] : List Byte), 40, 0x3A2C, false, 3, by and_intros <;> decide +kernel⟩

set_option maxRecDepth 1000000 in
/-- CodewordsApplyTheirValues, clause 12: a state and operands that meet the hypotheses. -/
theorem test_CodewordsApplyTheirValues_12 : ∃ (s : State) (n : Fin 8) (raw : BitVec 4360) (bad : List (Fin 65536)) (i : Fin 65536), (s.tlState n.val = 6 ∨ s.tlState n.val = 5) ∧ s.rxWord n.val raw.toNat = .uncorrectable ∧ bad = [i] ∧ s.tel.ecc.contains i.val = false :=
  ⟨State.reset.setAll [(TL_STS.STATE 2, 6)], 2, 0xab5335bae95b52a78afa3cc14dba29cce466345daa10978c0100000000000000000000000000000000000000000000000000000000000000000000000000000000000000000000000000000000000000000000000000000000000000000000000000000000000000000000000000000000000000000000000000000000000000000000000000000000000000000000000000000000000000000000000000000000000000000000000000000000000000000000000000000000000000000000000000000000000000000000000000000000000000000000000000000000000000000000000000000000000000000000000000000000000000000000000000000000000000000000000000000000000000000000000000000000000000000000000000000000000000000000000000000000000000000000000000000000000000000000000000000000000000000000000000000000000000000000000000000000000000000000000000000000000000000000000000000000000000000000000000000000000000000000000000000000000000000000000000000000000000000000000000000000000000000000000000000000000000000000000000000000000000000000000000000000000000000000000000000000000000000000000000000000000000000000000000000000000000000000000000000000000000000000000000000000000000000000000000000000000000000000000000000000#4360, [77], 77, by and_intros <;> decide +kernel⟩

/-- MapStatisticsAndGuardValues, clause 1: a state and operands that meet the hypotheses. -/
theorem test_MapStatisticsAndGuardValues_1 : ∃ (s : State) (ini : Initiator), s.judge ini true TFAB_CTL.MAP_DONE.addr = .allowed ∧ fromKeeper ini = true :=
  ⟨State.reset.setAll [(BRG_STS.STATE, 2)], .keeper 0, by decide⟩

/-- MapStatisticsAndGuardValues, clause 2: a state and operands that meet the hypotheses. -/
theorem test_MapStatisticsAndGuardValues_2 : ∃ (s : State) (ini : Initiator), s.judge ini true TFAB_CTL.MAP_DONE.addr = .allowed ∧ fromKeeper ini = false :=
  ⟨{ State.reset with pwr := { toppwrEn := true, toppwrGood := true, topRst := false } }, .core 0, by decide⟩

/-- MapStatisticsAndGuardValues, clause 3: a state and operands that meet the hypotheses. -/
theorem test_MapStatisticsAndGuardValues_3 : ∃ (s : State) (i : Fin 65536), s.tlState (i.val / 8192) ≠ 7 ∧ (s.dst i.val).n ≠ 0 ∧ (s.dst i.val).win ≠ s.topNow / (2 ^ (s.desc i.val).win * 1000) :=
  ⟨({ State.reset with time := { ts := 1280 * 70000 }, tel := { desc := [(5, { win := 3, n := 2, lo := 1, hi := 2 })] } } : State), 5, by decide⟩

/-- MapStatisticsAndGuardValues, clause 4: a state and operands that meet the hypotheses. -/
theorem test_MapStatisticsAndGuardValues_4 : ∃ (s : State) (i : Fin 65536), ((s.dst i.val).n = 0 ∨ (s.dst i.val).win = s.topNow / (2 ^ (s.desc i.val).win * 1000) ∨ s.tlState (i.val / 8192) = 7) :=
  ⟨State.reset, 5, by decide⟩

/-- MapStatisticsAndGuardValues, clause 5: a state and operands that meet the hypotheses. -/
theorem test_MapStatisticsAndGuardValues_5 : ∃ (s : State) (i : Fin 65536), s.tlState (i.val / 8192) ≠ 7 ∧ (s.desc i.val).valid = true :=
  ⟨((({ State.reset with mem := memStore [] (descAddr 5) [0x01] } : State))), 5, by decide⟩

/-- MapStatisticsAndGuardValues, clause 6: a state and operands that meet the hypotheses. -/
theorem test_MapStatisticsAndGuardValues_6 : ∃ (s : State) (i : Fin 65536), ((s.desc i.val).valid = false ∨ s.tlState (i.val / 8192) = 7) :=
  ⟨State.reset, 5, by decide⟩

/-- MapStatisticsAndGuardValues, clause 7: a state and operands that meet the hypotheses. -/
theorem test_MapStatisticsAndGuardValues_7 : ∃ (s : State) (bad : List (Fin 65536)), bad = [] ∧ s.pwr.topRst = false ∧ s.bridgeUp = true ∧ s.tel.guardUs ≠ some (s.topNow / 1000 - 1) :=
  ⟨{ (((({ State.reset with mem := memStore [] (descAddr 5) [0x05, 0, 17] } : State).set BRG_STS.STATE 2))) with pwr := { toppwrEn := true, toppwrGood := true, topRst := false } }, [], by decide⟩

/-- MapStatisticsAndGuardValues, clause 8: a state and operands that meet the hypotheses. -/
theorem test_MapStatisticsAndGuardValues_8 : ∃ (s : State) (bad : List (Fin 65536)), s.pwr.topRst = true :=
  ⟨State.reset, [3], by decide⟩

/-- MapStatisticsAndGuardValues, clause 9: a state and operands that meet the hypotheses. -/
theorem test_MapStatisticsAndGuardValues_9 : ∃ (s : State) (bad : List (Fin 65536)), bad = [] ∧ (s.bridgeUp = false ∨ s.tel.guardUs = some (s.topNow / 1000 - 1)) :=
  ⟨State.reset, [], by decide⟩

/-- MapStatisticsAndGuardValues, clause 10: a state and operands that meet the hypotheses. -/
theorem test_MapStatisticsAndGuardValues_10 : ∃ (s : State) (bad : List (Fin 65536)) (i : Fin 65536), bad = [i] ∧ s.pwr.topRst = false ∧ s.bridgeUp = false ∧ s.tel.ecc.contains i.val = false :=
  ⟨{ State.reset with pwr := { toppwrEn := true, toppwrGood := true, topRst := false } }, [77], 77, by decide⟩

/-- FlightRecorderRuns, clause 1: a state and operands that meet the hypotheses. -/
theorem test_FlightRecorderRuns_1 : ∃ (s : State) (n : Nat) (r : RecItem) (b : RecBuf), s.tel.links.length = 8 ∧ s.portShut 8 = false ∧ s.gateAsked 4 = false ∧ n < 8 ∧ s.recAccepts = true ∧ s.recTurn = some (n, r) ∧ s.tel.buf = some b ∧ b.recs.length < 62 :=
  ⟨({ State.reset with pwr := { toppwrEn := true, toppwrGood := true, topRst := false }, tel := { links := modAt (List.replicate 8 {}) 2 (fun _ => { queue := [{ ts := 5, ch := 3, acc := 2, mask := 1, flags := 0, vals := [9] }] }), buf := some { recs := [{ ts := 5, ch := 3, acc := 2, mask := 1, flags := 0, vals := [9] }] } } } : State).setAll [(TFAB_STS.REC_STATE, 1), (TFAB_REC_SIZE.NBUF, 16), (LPC_STS.INIT_DONE, 1)], 2, { ts := 5, ch := 3, acc := 2, mask := 1, flags := 0, vals := [9] }, { recs := [{ ts := 5, ch := 3, acc := 2, mask := 1, flags := 0, vals := [9] }] }, by decide⟩

set_option maxRecDepth 1000000 in
/-- FlightRecorderRuns, clause 2: a state and operands that meet the hypotheses. -/
theorem test_FlightRecorderRuns_2 : ∃ (s : State) (n : Nat) (r : RecItem) (b : RecBuf), s.tel.links.length = 8 ∧ s.portShut 8 = false ∧ s.gateAsked 4 = false ∧ s.get TFAB_STS.REC_STATE = 1 ∧ s.recTurn = some (n, r) ∧ s.tel.buf = some b ∧ b.recs.length = 62 :=
  ⟨({ State.reset with pwr := { toppwrEn := true, toppwrGood := true, topRst := false }, tel := { links := modAt (List.replicate 8 {}) 2 (fun _ => { queue := [{ ts := 5, ch := 3, acc := 2, mask := 1, flags := 0, vals := [9] }] }), buf := some { recs := List.replicate 62 { ts := 5, ch := 3, acc := 2, mask := 1, flags := 0, vals := [9] } } } } : State).setAll [(TFAB_STS.REC_STATE, 1), (TFAB_REC_SIZE.NBUF, 16)], 2, { ts := 5, ch := 3, acc := 2, mask := 1, flags := 0, vals := [9] }, { recs := List.replicate 62 { ts := 5, ch := 3, acc := 2, mask := 1, flags := 0, vals := [9] } }, by and_intros <;> decide +kernel⟩

/-- FlightRecorderRuns, clause 3: a state and operands that meet the hypotheses. -/
theorem test_FlightRecorderRuns_3 : ∃ (s : State), (s.recAccepts = false ∨ s.recTurn = none ∨ s.portShut 8 = true ∨ s.gateAsked 4 = true) :=
  ⟨State.reset, by decide⟩

/-- FlightRecorderRuns, clause 4: a state and operands that meet the hypotheses. -/
theorem test_FlightRecorderRuns_4 : ∃ (s : State) (b : RecBuf), s.tel.buf = some b ∧ b.recs ≠ [] ∧ s.gated 8 = false ∧ s.get TFAB_REC_CFG.FLUSH ≠ 7 ∧ s.get TFAB_STS.REC_STATE ≠ 2 :=
  ⟨({ State.reset with pwr := { toppwrEn := true, toppwrGood := true, topRst := false }, tel := { links := modAt (List.replicate 8 {}) 2 (fun _ => { queue := [{ ts := 5, ch := 3, acc := 2, mask := 1, flags := 0, vals := [9] }] }), buf := some { recs := [{ ts := 5, ch := 3, acc := 2, mask := 1, flags := 0, vals := [9] }] } } } : State).setAll [(TFAB_STS.REC_STATE, 1), (TFAB_REC_SIZE.NBUF, 16)], { recs := [{ ts := 5, ch := 3, acc := 2, mask := 1, flags := 0, vals := [9] }] }, by decide⟩

/-- FlightRecorderRuns, clause 5: a state and operands that meet the hypotheses. -/
theorem test_FlightRecorderRuns_5 : ∃ (s : State) (b : RecBuf), s.tel.buf = some b ∧ b.recs ≠ [] ∧ s.gated 8 = false ∧ s.get TFAB_REC_CFG.FLUSH ≠ 7 ∧ s.get TFAB_STS.REC_STATE = 2 ∧ 1 < s.tel.postLeft :=
  ⟨({ State.reset with pwr := { toppwrEn := true, toppwrGood := true, topRst := false }, tel := { links := modAt (List.replicate 8 {}) 2 (fun _ => { queue := [{ ts := 5, ch := 3, acc := 2, mask := 1, flags := 0, vals := [9] }] }), buf := some { recs := [{ ts := 5, ch := 3, acc := 2, mask := 1, flags := 0, vals := [9] }] }, postLeft := 2 } } : State).setAll [(TFAB_STS.REC_STATE, 2), (TFAB_REC_SIZE.NBUF, 16)], { recs := [{ ts := 5, ch := 3, acc := 2, mask := 1, flags := 0, vals := [9] }] }, by decide⟩

/-- FlightRecorderRuns, clause 6: a state and operands that meet the hypotheses. -/
theorem test_FlightRecorderRuns_6 : ∃ (s : State) (b : RecBuf), s.tel.buf = some b ∧ b.recs ≠ [] ∧ s.gated 8 = false ∧ s.get TFAB_REC_CFG.FLUSH ≠ 7 ∧ s.get TFAB_STS.REC_STATE = 2 ∧ s.tel.postLeft = 1 :=
  ⟨({ State.reset with pwr := { toppwrEn := true, toppwrGood := true, topRst := false }, tel := { links := modAt (List.replicate 8 {}) 2 (fun _ => { queue := [{ ts := 5, ch := 3, acc := 2, mask := 1, flags := 0, vals := [9] }] }), buf := some { recs := [{ ts := 5, ch := 3, acc := 2, mask := 1, flags := 0, vals := [9] }] }, postLeft := 1 } } : State).setAll [(TFAB_STS.REC_STATE, 2), (TFAB_REC_SIZE.NBUF, 16)], { recs := [{ ts := 5, ch := 3, acc := 2, mask := 1, flags := 0, vals := [9] }] }, by decide⟩

/-- FlightRecorderRuns, clause 7: a state and operands that meet the hypotheses. -/
theorem test_FlightRecorderRuns_7 : ∃ (s : State), (s.get TFAB_REC_CFG.FLUSH = 7 ∨ s.tel.buf = none ∨ s.gated 8 = true) :=
  ⟨State.reset, by decide⟩

/-- FlightRecorderRuns, clause 8: a state and operands that meet the hypotheses. -/
theorem test_FlightRecorderRuns_8 : ∃ (s : State) (ini : Initiator), s.judge ini true TFAB_REC_CTL.REARM.addr = .allowed ∧ s.get TFAB_STS.REC_STATE = 3 :=
  ⟨{ State.reset.setAll [(TFAB_STS.REC_STATE, 3)] with pwr := { toppwrEn := true, toppwrGood := true, topRst := false } }, .core 0, by decide⟩

/-- FlightRecorderRuns, clause 9: a state and operands that meet the hypotheses. -/
theorem test_FlightRecorderRuns_9 : ∃ (s : State) (ini : Initiator), s.judge ini true TFAB_REC_CTL.REARM.addr = .allowed ∧ s.get TFAB_STS.REC_STATE ≠ 3 :=
  ⟨{ State.reset.setAll [(TFAB_STS.REC_STATE, 2)] with pwr := { toppwrEn := true, toppwrGood := true, topRst := false } }, .core 0, by decide⟩

/-- FlightRecorderRuns, clause 10: a state and operands that meet the hypotheses. -/
theorem test_FlightRecorderRuns_10 : ∃ (s : State) (ini : Initiator), s.judge ini true TFAB_REC_CTL.SWTRIG.addr = .allowed ∧ s.gated 8 = false ∧ s.get TFAB_STS.REC_STATE = 1 ∧ s.get TFAB_REC_CFG.POST ≠ 0 :=
  ⟨({ State.reset with pwr := { toppwrEn := true, toppwrGood := true, topRst := false }, tel := { links := modAt (List.replicate 8 {}) 2 (fun _ => { queue := [{ ts := 5, ch := 3, acc := 2, mask := 1, flags := 0, vals := [9] }] }), buf := some { recs := [{ ts := 5, ch := 3, acc := 2, mask := 1, flags := 0, vals := [9] }] } } } : State).setAll [(TFAB_STS.REC_STATE, 1), (TFAB_REC_SIZE.NBUF, 16)], .core 0, by decide⟩

/-- FlightRecorderRuns, clause 11: a state and operands that meet the hypotheses. -/
theorem test_FlightRecorderRuns_11 : ∃ (s : State) (ini : Initiator), s.judge ini true TFAB_REC_CTL.SWTRIG.addr = .allowed ∧ s.gated 8 = false ∧ s.get TFAB_STS.REC_STATE = 1 ∧ s.get TFAB_REC_CFG.POST = 0 :=
  ⟨({ State.reset with pwr := { toppwrEn := true, toppwrGood := true, topRst := false }, tel := { links := modAt (List.replicate 8 {}) 2 (fun _ => { queue := [{ ts := 5, ch := 3, acc := 2, mask := 1, flags := 0, vals := [9] }] }), buf := some { recs := [{ ts := 5, ch := 3, acc := 2, mask := 1, flags := 0, vals := [9] }] } } } : State).setAll [(TFAB_STS.REC_STATE, 1), (TFAB_REC_SIZE.NBUF, 16), (TFAB_REC_CFG.POST, 0)], .core 0, by decide⟩

/-- FlightRecorderRuns, clause 12: a state and operands that meet the hypotheses. -/
theorem test_FlightRecorderRuns_12 : ∃ (s : State) (ini : Initiator), s.judge ini true TFAB_REC_CTL.SWTRIG.addr = .allowed ∧ s.gated 8 = false ∧ (s.get TFAB_STS.REC_STATE = 2 ∨ s.get TFAB_STS.REC_STATE = 3) :=
  ⟨({ State.reset with pwr := { toppwrEn := true, toppwrGood := true, topRst := false }, tel := { links := modAt (List.replicate 8 {}) 2 (fun _ => { queue := [{ ts := 5, ch := 3, acc := 2, mask := 1, flags := 0, vals := [9] }] }), buf := some { recs := [{ ts := 5, ch := 3, acc := 2, mask := 1, flags := 0, vals := [9] }] } } } : State).setAll [(TFAB_STS.REC_STATE, 3), (TFAB_REC_SIZE.NBUF, 16)], .core 0, by decide⟩

/-- FlightRecorderRuns, clause 13: a state and operands that meet the hypotheses. -/
theorem test_FlightRecorderRuns_13 : ∃ (s : State) (ini : Initiator), s.judge ini true TFAB_REC_CTL.SWTRIG.addr = .allowed ∧ s.gated 8 = true :=
  ⟨{ State.reset.setAll [(CLK_GATE_STS.GATED, 256)] with pwr := { toppwrEn := true, toppwrGood := true, topRst := false } }, .core 0, by decide⟩

/-- FlightRecorderRuns, clause 14: a state and operands that meet the hypotheses. -/
theorem test_FlightRecorderRuns_14 : ∃ (s : State) (ini : Initiator), s.judge ini true TFAB_REC_CTL.FLUSH.addr = .allowed ∧ s.gated 8 = true :=
  ⟨{ State.reset.setAll [(CLK_GATE_STS.GATED, 256)] with pwr := { toppwrEn := true, toppwrGood := true, topRst := false } }, .core 0, by decide⟩

/-- FlightRecorderRuns, clause 15: a state and operands that meet the hypotheses. -/
theorem test_FlightRecorderRuns_15 : ∃ (s : State) (ini : Initiator), s.judge ini true TFAB_REC_CTL.SWTRIG.addr = .allowed ∧ s.gated 8 = false ∧ s.get TFAB_STS.REC_STATE = 0 :=
  ⟨{ State.reset with pwr := { toppwrEn := true, toppwrGood := true, topRst := false } }, .core 0, by decide⟩

/-- FlightRecorderRuns, clause 16: a state and operands that meet the hypotheses. -/
theorem test_FlightRecorderRuns_16 : ∃ (s : State) (ini : Initiator) (b : RecBuf), s.judge ini true TFAB_REC_CTL.FLUSH.addr = .allowed ∧ s.tel.buf = some b ∧ b.recs ≠ [] ∧ s.gated 8 = false ∧ s.get TFAB_STS.REC_STATE ≠ 2 :=
  ⟨({ State.reset with pwr := { toppwrEn := true, toppwrGood := true, topRst := false }, tel := { links := modAt (List.replicate 8 {}) 2 (fun _ => { queue := [{ ts := 5, ch := 3, acc := 2, mask := 1, flags := 0, vals := [9] }] }), buf := some { recs := [{ ts := 5, ch := 3, acc := 2, mask := 1, flags := 0, vals := [9] }] } } } : State).setAll [(TFAB_STS.REC_STATE, 1), (TFAB_REC_SIZE.NBUF, 16)], .core 0, { recs := [{ ts := 5, ch := 3, acc := 2, mask := 1, flags := 0, vals := [9] }] }, by decide⟩

/-- FlightRecorderRuns, clause 17: a state and operands that meet the hypotheses. -/
theorem test_FlightRecorderRuns_17 : ∃ (s : State) (ini : Initiator), s.judge ini true TFAB_REC_CTL.FLUSH.addr = .allowed ∧ s.tel.buf = none :=
  ⟨{ State.reset with pwr := { toppwrEn := true, toppwrGood := true, topRst := false } }, .core 0, by decide⟩

/-- FlightRecorderRuns, clause 18: a state and operands that meet the hypotheses. -/
theorem test_FlightRecorderRuns_18 : ∃ (s : State) (ini : Initiator) (on : Bool), s.judge ini true TFAB_CTL.REC_RUN.addr = .allowed ∧ on = true ∧ s.on TFAB_CTL.REC_RUN = false ∧ s.ringOk = true :=
  ⟨({ State.reset with pwr := { toppwrEn := true, toppwrGood := true, topRst := false }, tel := { links := modAt (List.replicate 8 {}) 2 (fun _ => { queue := [{ ts := 5, ch := 3, acc := 2, mask := 1, flags := 0, vals := [9] }] }), buf := none } } : State).setAll [(TFAB_STS.REC_STATE, 0), (TFAB_REC_SIZE.NBUF, 16), (ACD_INFO.LP_CAP, 8)], .core 0, true, by decide⟩

/-- FlightRecorderRuns, clause 19: a state and operands that meet the hypotheses. -/
theorem test_FlightRecorderRuns_19 : ∃ (s : State) (ini : Initiator) (on : Bool), s.judge ini true TFAB_CTL.REC_RUN.addr = .allowed ∧ on = true ∧ s.on TFAB_CTL.REC_RUN = false ∧ s.ringOk = false :=
  ⟨{ State.reset with pwr := { toppwrEn := true, toppwrGood := true, topRst := false } }, .core 0, true, by decide⟩

/-- FlightRecorderRuns, clause 20: a state and operands that meet the hypotheses. -/
theorem test_FlightRecorderRuns_20 : ∃ (s : State) (ini : Initiator) (on : Bool), s.judge ini true TFAB_CTL.REC_RUN.addr = .allowed ∧ on = false :=
  ⟨({ State.reset with pwr := { toppwrEn := true, toppwrGood := true, topRst := false }, tel := { links := modAt (List.replicate 8 {}) 2 (fun _ => { queue := [{ ts := 5, ch := 3, acc := 2, mask := 1, flags := 0, vals := [9] }] }), buf := some { recs := [{ ts := 5, ch := 3, acc := 2, mask := 1, flags := 0, vals := [9] }] } } } : State).setAll [(TFAB_STS.REC_STATE, 1), (TFAB_REC_SIZE.NBUF, 16)], .core 0, false, by decide⟩

/-- FlightRecorderRuns, clause 21: a state and operands that meet the hypotheses. -/
theorem test_FlightRecorderRuns_21 : ∃ (s : State) (ini : Initiator), s.judge ini true TFAB_CNT_CLR.CLR.addr = .allowed :=
  ⟨{ State.reset.setAll [(TFAB_REC_TSRC.MISS, 3)] with pwr := { toppwrEn := true, toppwrGood := true, topRst := false } }, .core 0, by decide⟩

/-- InfuserSlotsAreControlled, clause 1: a state and operands that meet the hypotheses. -/
theorem test_InfuserSlotsAreControlled_1 : ∃ (s : State) (ini : Initiator) (n : Fin 16), s.judge ini true (INF_SLOT_CTL.EN n.val).addr = .allowed ∧ s.slotSt n.val = 1 ∧ s.enableCheck n.val = 0 :=
  ⟨{ State.reset.setAll [(INF_SLOT_STS.STATE 2, 1), (ACD_INFO.ACC_COUNT, 8)] with pwr := { toppwrEn := true, toppwrGood := true, topRst := false } }, .core 0, 2, by decide⟩

/-- InfuserSlotsAreControlled, clause 2: a state and operands that meet the hypotheses. -/
theorem test_InfuserSlotsAreControlled_2 : ∃ (s : State) (ini : Initiator) (n : Fin 16), s.judge ini true (INF_SLOT_CTL.EN n.val).addr = .allowed ∧ (s.slotSt n.val = 1 ∨ s.slotSt n.val = 0) ∧ s.enableCheck n.val ≠ 0 :=
  ⟨{ State.reset with pwr := { toppwrEn := true, toppwrGood := true, topRst := false } }, .core 0, 2, by decide⟩

/-- InfuserSlotsAreControlled, clause 3: a state and operands that meet the hypotheses. -/
theorem test_InfuserSlotsAreControlled_3 : ∃ (s : State) (ini : Initiator) (n : Fin 16), s.judge ini true (INF_SLOT_CTL.EN n.val).addr = .allowed ∧ 2 ≤ s.slotSt n.val :=
  ⟨{ State.reset.setAll [(INF_SLOT_STS.STATE 2, 4)] with pwr := { toppwrEn := true, toppwrGood := true, topRst := false } }, .core 0, 2, by decide⟩

/-- InfuserSlotsAreControlled, clause 4: a state and operands that meet the hypotheses. -/
theorem test_InfuserSlotsAreControlled_4 : ∃ (s : State) (ini : Initiator) (n : Fin 16), s.judge ini true (INF_SLOT_CTL.EN n.val).addr = .allowed ∧ s.inf.slots.length = 16 ∧ s.slotSt n.val = 2 :=
  ⟨({ State.reset with pwr := { toppwrEn := true, toppwrGood := true, topRst := false }, mem := [], inf := { slots := modAt (List.replicate 16 {}) 2 (fun _ => { due := some (4, true), run := some {} }) } } : State).setAll [(INF_SLOT_STS.STATE 2, 2), (INF_SLOT_CTL.EN 2, 1)], .core 0, 2, by decide⟩

/-- InfuserSlotsAreControlled, clause 5: a state and operands that meet the hypotheses. -/
theorem test_InfuserSlotsAreControlled_5 : ∃ (s : State) (ini : Initiator) (n : Fin 16), s.judge ini true (INF_SLOT_CTL.EN n.val).addr = .allowed ∧ s.slotSt n.val ≠ 2 :=
  ⟨{ State.reset with pwr := { toppwrEn := true, toppwrGood := true, topRst := false } }, .core 0, 2, by decide⟩

/-- InfuserSlotsAreControlled, clause 6: a state and operands that meet the hypotheses. -/
theorem test_InfuserSlotsAreControlled_6 : ∃ (s : State) (ini : Initiator) (n : Fin 16) (r : InfRun), s.judge ini true (INF_SLOT_CTL.ABORT n.val).addr = .allowed ∧ s.inf.slots.length = 16 ∧ (s.islot n.val).run = some r ∧ r.pend = [] :=
  ⟨({ State.reset with pwr := { toppwrEn := true, toppwrGood := true, topRst := false }, mem := [], inf := { slots := modAt (List.replicate 16 {}) 2 (fun _ => { run := some { bundle := 3, cyc := 7 } }) } } : State).setAll [(INF_SLOT_STS.STATE 2, 2), (BRG_STS.STATE, 2)], .core 0, 2, { bundle := 3, cyc := 7 }, by decide⟩

/-- InfuserSlotsAreControlled, clause 7: a state and operands that meet the hypotheses. -/
theorem test_InfuserSlotsAreControlled_7 : ∃ (s : State) (ini : Initiator) (n : Fin 16) (r : InfRun) (c cl v l x : Nat) (tag : Bool), s.judge ini true (INF_SLOT_CTL.ABORT n.val).addr = .allowed ∧ s.inf.slots.length = 16 ∧ s.inf.cls.length = 4 ∧ (s.islot n.val).run = some r ∧ r.pend = [{ cyc := c, prio := 0, wr := .lane cl v l x tag }] ∧ cl < 4 :=
  ⟨({ State.reset with pwr := { toppwrEn := true, toppwrGood := true, topRst := false }, mem := [], inf := { slots := modAt (List.replicate 16 {}) 2 (fun _ => { run := some { bundle := 3, cyc := 7, pend := [{ cyc := 6, prio := 0, wr := .lane 1 2 3 77 true }] } }) } } : State).setAll [(INF_SLOT_STS.STATE 2, 2), (INF_SLOT_PROG.CYC 2, 20)], .core 0, 2, { bundle := 3, cyc := 7, pend := [{ cyc := 6, prio := 0, wr := .lane 1 2 3 77 true }] }, 6, 1, 2, 3, 77, true, by decide⟩

/-- InfuserSlotsAreControlled, clause 8: a state and operands that meet the hypotheses. -/
theorem test_InfuserSlotsAreControlled_8 : ∃ (s : State) (ini : Initiator) (n : Fin 16), s.judge ini true (INF_SLOT_CTL.ABORT n.val).addr = .allowed ∧ s.inf.slots.length = 16 ∧ (s.islot n.val).run = none ∧ s.slotSt n.val = 2 :=
  ⟨{ State.reset.setAll [(INF_SLOT_STS.STATE 2, 2)] with pwr := { toppwrEn := true, toppwrGood := true, topRst := false } }, .core 0, 2, by decide⟩

/-- InfuserSlotsAreControlled, clause 9: a state and operands that meet the hypotheses. -/
theorem test_InfuserSlotsAreControlled_9 : ∃ (s : State) (ini : Initiator) (n : Fin 16), s.judge ini true (INF_SLOT_CTL.ABORT n.val).addr = .allowed ∧ (s.islot n.val).run = none ∧ s.slotSt n.val ≠ 2 :=
  ⟨{ State.reset with pwr := { toppwrEn := true, toppwrGood := true, topRst := false } }, .core 0, 2, by decide⟩

/-- InfuserSlotsAreControlled, clause 10: a state and operands that meet the hypotheses. -/
theorem test_InfuserSlotsAreControlled_10 : ∃ (s : State) (ini : Initiator) (n : Fin 16) (c a : Nat), s.judge ini true (INF_SLOT_CTL.STATE_INIT n.val).addr = .allowed ∧ (s.slotSt n.val = 1 ∨ s.slotSt n.val = 4) ∧ (s.islot n.val).adImg = [] ∧ c < 4 ∧ bitOf (s.clmask n.val) c = true ∧ s.portShut c = false ∧ (s.stateWin n.val c).1 ≤ a ∧ a < (s.stateWin n.val c).1 + (s.stateWin n.val c).2 :=
  ⟨({ State.reset with pwr := { toppwrEn := true, toppwrGood := true, topRst := false }, mem := memStore [] (slotBase 2 + 68) [0x80], inf := { slots := modAt (List.replicate 16 {}) 2 (fun _ => {  }) } } : State).setAll [(INF_SLOT_STS.STATE 2, 4), (INF_SLOT_PROG.CLMASK 2, 1)], .core 0, 2, 0, 0x0220000000, by decide⟩

/-- InfuserSlotsAreControlled, clause 11: a state and operands that meet the hypotheses. -/
theorem test_InfuserSlotsAreControlled_11 : ∃ (s : State) (ini : Initiator) (n : Fin 16), s.judge ini true (INF_SLOT_CTL.STATE_INIT n.val).addr = .allowed ∧ (s.slotSt n.val = 1 ∨ s.slotSt n.val = 4) :=
  ⟨{ State.reset.setAll [(INF_SLOT_STS.STATE 2, 4)] with pwr := { toppwrEn := true, toppwrGood := true, topRst := false } }, .core 0, 2, by decide⟩

/-- InfuserSlotsAreControlled, clause 12: a state and operands that meet the hypotheses. -/
theorem test_InfuserSlotsAreControlled_12 : ∃ (s : State) (ini : Initiator) (n : Fin 16), s.judge ini true (INF_SLOT_CTL.STATE_INIT n.val).addr = .allowed ∧ (s.slotSt n.val = 1 ∨ s.slotSt n.val = 4) ∧ (s.islot n.val).adImg = [] ∧ ((∀ c < 4, bitOf (s.clmask n.val) c = true → s.portShut c = true)) :=
  ⟨({ State.reset with pwr := { toppwrEn := true, toppwrGood := true, topRst := false }, mem := [], inf := { slots := modAt (List.replicate 16 {}) 2 (fun _ => {  }) } } : State).setAll [(INF_SLOT_STS.STATE 2, 4), (INF_SLOT_PROG.CLMASK 2, 1), (CLK_GATE_STS.GATED, 1)], .core 0, 2, by decide⟩

/-- InfuserSlotsAreControlled, clause 13: a state and operands that meet the hypotheses. -/
theorem test_InfuserSlotsAreControlled_13 : ∃ (s : State) (ini : Initiator) (n : Fin 16), s.judge ini true (INF_SLOT_CTL.STATE_INIT n.val).addr = .allowed ∧ s.slotSt n.val ≠ 1 ∧ s.slotSt n.val ≠ 4 :=
  ⟨{ State.reset with pwr := { toppwrEn := true, toppwrGood := true, topRst := false } }, .core 0, 2, by decide⟩

/-- InfuserSlotsAreControlled, clause 14: a state and operands that meet the hypotheses. -/
theorem test_InfuserSlotsAreControlled_14 : ∃ (s : State) (ini : Initiator) (n : Fin 16), s.judge ini true (INF_SLOT_CTL.CLR_FAULT n.val).addr = .allowed ∧ s.slotSt n.val = 4 :=
  ⟨{ State.reset.setAll [(INF_SLOT_STS.STATE 2, 4)] with pwr := { toppwrEn := true, toppwrGood := true, topRst := false } }, .core 0, 2, by decide⟩

/-- InfuserSlotsAreControlled, clause 15: a state and operands that meet the hypotheses. -/
theorem test_InfuserSlotsAreControlled_15 : ∃ (s : State) (ini : Initiator) (n : Fin 16), s.judge ini true (INF_SLOT_CTL.CLR_FAULT n.val).addr = .allowed ∧ s.slotSt n.val ≠ 4 :=
  ⟨{ State.reset with pwr := { toppwrEn := true, toppwrGood := true, topRst := false } }, .core 0, 2, by decide⟩

/-- InfuserSlotsAreControlled, clause 16: a state and operands that meet the hypotheses. -/
theorem test_InfuserSlotsAreControlled_16 : ∃ (s : State) (ini : Initiator), s.judge ini true INF_CTL.STOP_ALL.addr = .allowed ∧ s.inf.slots.length = 16 :=
  ⟨{ State.reset.setAll [(INF_SLOT_STS.STATE 2, 2), (INF_SLOT_CTL.EN 2, 1)] with pwr := { toppwrEn := true, toppwrGood := true, topRst := false } }, .core 0, by decide⟩

/-- InfuserSlotsAreControlled, clause 17: a state and operands that meet the hypotheses. -/
theorem test_InfuserSlotsAreControlled_17 : ∃ (s : State) (ini : Initiator) (n : Fin 16), s.judge ini true (INF_SLOT_ADSTS.ADAPT_RST n.val).addr = .allowed :=
  ⟨{ State.reset.setAll [(INF_SLOT_ADSTS.STATE 2, 3)] with pwr := { toppwrEn := true, toppwrGood := true, topRst := false } }, .core 0, 2, by decide⟩

/-- InfuserSlotsAreControlled, clause 18: a state and operands that meet the hypotheses. -/
theorem test_InfuserSlotsAreControlled_18 : ∃ (s : State) (ini : Initiator), s.judge ini true INF_CNT_CLR.CLR.addr = .allowed :=
  ⟨{ State.reset.setAll [(INF_OUTQ.DROP, 3)] with pwr := { toppwrEn := true, toppwrGood := true, topRst := false } }, .core 0, by decide⟩

/-- InfuserRunsExecute, clause 1: a state and operands that meet the hypotheses. -/
theorem test_InfuserRunsExecute_1 : ∃ (s : State) (n : Fin 16), s.inf.slots.length = 16 ∧ s.slotSt n.val = 2 ∧ s.isTick n.val = true ∧ s.on INF_STS.HELD = false ∧ s.on INF_STS.PLL1_OK = true ∧ (s.islot n.val).due = none :=
  ⟨State.reset.setAll [(INF_SLOT_STS.STATE 2, 2), (INF_SLOT_PERIOD.PERIOD 2, 10), (INF_STS.PLL1_OK, 1)], 2, by decide⟩

/-- InfuserRunsExecute, clause 2: a state and operands that meet the hypotheses. -/
theorem test_InfuserRunsExecute_2 : ∃ (s : State) (n : Fin 16) (ts : Nat), s.inf.slots.length = 16 ∧ s.slotSt n.val = 2 ∧ s.isTick n.val = true ∧ s.on INF_STS.HELD = false ∧ s.on INF_STS.PLL1_OK = true ∧ (s.islot n.val).due = some (ts, true) :=
  ⟨({ State.reset with pwr := { toppwrEn := true, toppwrGood := true, topRst := false }, mem := [], inf := { slots := modAt (List.replicate 16 {}) 2 (fun _ => { due := some (9, true) }) } } : State).setAll [(INF_SLOT_STS.STATE 2, 2), (INF_SLOT_PERIOD.PERIOD 2, 10), (INF_STS.PLL1_OK, 1)], 2, 9, by decide⟩

/-- InfuserRunsExecute, clause 3: a state and operands that meet the hypotheses. -/
theorem test_InfuserRunsExecute_3 : ∃ (s : State) (n : Fin 16), s.slotSt n.val = 2 ∧ s.isTick n.val = true ∧ s.on INF_STS.HELD = false ∧ s.on INF_STS.PLL1_OK = false :=
  ⟨State.reset.setAll [(INF_SLOT_STS.STATE 2, 2), (INF_SLOT_PERIOD.PERIOD 2, 10)], 2, by decide⟩

/-- InfuserRunsExecute, clause 4: a state and operands that meet the hypotheses. -/
theorem test_InfuserRunsExecute_4 : ∃ (s : State) (n : Fin 16), (s.slotSt n.val ≠ 2 ∨ s.isTick n.val = false ∨ s.on INF_STS.HELD = true) :=
  ⟨State.reset, 2, by decide⟩

/-- InfuserRunsExecute, clause 5: a state and operands that meet the hypotheses. -/
theorem test_InfuserRunsExecute_5 : ∃ (s : State) (n : Fin 16) (ecc : Ecc), s.inf.slots.length = 16 ∧ s.mayStart n.val = true ∧ (s.islot n.val).fresh = false ∧ (s.islot n.val).rollback = false :=
  ⟨({ State.reset with pwr := { toppwrEn := true, toppwrGood := true, topRst := false }, mem := [], inf := { slots := modAt (List.replicate 16 {}) 2 (fun _ => { due := some (0, true), fresh := false }) } } : State).setAll [(INF_SLOT_STS.STATE 2, 2), (INF_STS.PLL1_OK, 1), (INF_CTL.RUN, 1)], 2, { corrected := 2, uncorr := false }, by decide⟩

/-- InfuserRunsExecute, clause 6: a state and operands that meet the hypotheses. -/
theorem test_InfuserRunsExecute_6 : ∃ (s : State) (n : Fin 16) (ecc : Ecc), s.inf.slots.length = 16 ∧ s.mayStart n.val = true ∧ (s.islot n.val).fresh = true ∧ (s.islot n.val).rollback = false :=
  ⟨({ State.reset with pwr := { toppwrEn := true, toppwrGood := true, topRst := false }, mem := [], inf := { slots := modAt (List.replicate 16 {}) 2 (fun _ => { due := some (0, true) }) } } : State).setAll [(INF_SLOT_STS.STATE 2, 2), (INF_STS.PLL1_OK, 1), (INF_CTL.RUN, 1)], 2, { corrected := 2, uncorr := false }, by decide⟩

/-- InfuserRunsExecute, clause 7: a state and operands that meet the hypotheses. -/
theorem test_InfuserRunsExecute_7 : ∃ (s : State) (n : Fin 16) (ecc : Ecc), s.mayStart n.val = false :=
  ⟨State.reset, 2, {}, by decide⟩

/-- InfuserRunsExecute, clause 8: a state and operands that meet the hypotheses. -/
theorem test_InfuserRunsExecute_8 : ∃ (s : State) (n : Fin 16) (ecc : Ecc) (bad : List (Fin 65536)) (r : InfRun), s.inf.slots.length = 16 ∧ (s.islot n.val).run = some r ∧ r.done = false ∧ r.pend = [] ∧ ecc = { corrected := 0, uncorr := false } ∧ bad = [] ∧ s.groupCauses n.val r.bundle r.rep (s.groupFrom n.val r.bundle 5) false = [] :=
  ⟨({ State.reset with pwr := { toppwrEn := true, toppwrGood := true, topRst := false }, mem := memStore [] (slotBase 2 + 0x2400) ([0x10, 0, 0, 0, 0, 0x10] ++ List.replicate 46 0 ++ [1, 2, 0, 1]), inf := { slots := modAt (List.replicate 16 {}) 2 (fun _ => { run := some {} }) } } : State).setAll [(INF_SLOT_PROG.CLMASK 2, 1)], 2, { corrected := 0, uncorr := false }, [], {}, by decide⟩

/-- InfuserRunsExecute, clause 9: a state and operands that meet the hypotheses. -/
theorem test_InfuserRunsExecute_9 : ∃ (s : State) (n : Fin 16) (ecc : Ecc) (bad : List (Fin 65536)) (r : InfRun) (b c : Nat), s.inf.slots.length = 16 ∧ (s.islot n.val).run = some r ∧ r.done = false ∧ r.pend = [] ∧ ecc = { corrected := 0, uncorr := false } ∧ bad = [] ∧ s.groupCauses n.val r.bundle r.rep (s.groupFrom n.val r.bundle 5) false = [(b, c)] :=
  ⟨({ State.reset with pwr := { toppwrEn := true, toppwrGood := true, topRst := false }, mem := memStore [] (slotBase 2 + 0x2400) ([0x10, 0, 0, 0, 0, 0x10] ++ List.replicate 46 0 ++ [0x77, 2, 0, 1]), inf := { slots := modAt (List.replicate 16 {}) 2 (fun _ => { run := some {} }) } } : State).setAll [(INF_SLOT_PROG.CLMASK 2, 1)], 2, { corrected := 0, uncorr := false }, [], {}, 0, 8, by decide⟩

/-- InfuserRunsExecute, clause 10: a state and operands that meet the hypotheses. -/
theorem test_InfuserRunsExecute_10 : ∃ (s : State) (n : Fin 16) (ecc : Ecc) (bad : List (Fin 65536)), (s.islot n.val).run = none :=
  ⟨State.reset, 2, { corrected := 0, uncorr := false }, [], by decide⟩

/-- InfuserRunsExecute, clause 11: a state and operands that meet the hypotheses. -/
theorem test_InfuserRunsExecute_11 : ∃ (s : State) (n : Fin 16) (r : InfRun) (c cl v l x : Nat) (tag : Bool), s.inf.slots.length = 16 ∧ s.inf.cls.length = 4 ∧ (s.islot n.val).run = some r ∧ r.pend = [{ cyc := c, prio := 0, wr := .lane cl v l x tag }] ∧ c ≤ s.landLimit n.val r ∧ cl < 4 :=
  ⟨({ State.reset with pwr := { toppwrEn := true, toppwrGood := true, topRst := false }, mem := [], inf := { slots := modAt (List.replicate 16 {}) 2 (fun _ => { run := some { cyc := 9, pend := [{ cyc := 6, prio := 0, wr := .lane 1 2 3 77 true }] } }) } } : State), 2, { cyc := 9, pend := [{ cyc := 6, prio := 0, wr := .lane 1 2 3 77 true }] }, 6, 1, 2, 3, 77, true, by decide⟩

/-- InfuserRunsExecute, clause 12: a state and operands that meet the hypotheses. -/
theorem test_InfuserRunsExecute_12 : ∃ (s : State) (n : Fin 16) (r : InfRun) (c a : Nat) (bs : List Byte), s.inf.slots.length = 16 ∧ (s.islot n.val).run = some r ∧ r.pend = [{ cyc := c, prio := 0, wr := .store a bs }] ∧ c ≤ s.landLimit n.val r ∧ s.hasAdapt n.val = false :=
  ⟨({ State.reset with pwr := { toppwrEn := true, toppwrGood := true, topRst := false }, mem := [], inf := { slots := modAt (List.replicate 16 {}) 2 (fun _ => { run := some { cyc := 9, pend := [{ cyc := 6, prio := 0, wr := .store 0x0220000000 [1, 2] }] } }) } } : State), 2, { cyc := 9, pend := [{ cyc := 6, prio := 0, wr := .store 0x0220000000 [1, 2] }] }, 6, 0x0220000000, [1, 2], by decide⟩

/-- InfuserRunsExecute, clause 13: a state and operands that meet the hypotheses. -/
theorem test_InfuserRunsExecute_13 : ∃ (s : State) (n : Fin 16) (r : InfRun) (c a : Nat) (bs : List Byte), s.inf.slots.length = 16 ∧ (s.islot n.val).run = some r ∧ r.pend = [{ cyc := c, prio := 0, wr := .store a bs }] ∧ c ≤ s.landLimit n.val r ∧ s.hasAdapt n.val = true ∧ meets a bs.length (s.adAddr n.val) (16 + 16 * s.adCount n.val) = true :=
  ⟨({ State.reset with pwr := { toppwrEn := true, toppwrGood := true, topRst := false }, mem := memStore [] (slotBase 2 + 16) [2], inf := { slots := modAt (List.replicate 16 {}) 2 (fun _ => { run := some { cyc := 9, pend := [{ cyc := 6, prio := 0, wr := .store 0x0220000000 [1, 2] }] } }) } } : State), 2, { cyc := 9, pend := [{ cyc := 6, prio := 0, wr := .store 0x0220000000 [1, 2] }] }, 6, 0x0220000000, [1, 2], by decide⟩

/-- InfuserRunsExecute, clause 14: a state and operands that meet the hypotheses. -/
theorem test_InfuserRunsExecute_14 : ∃ (s : State) (n : Fin 16), (s.islot n.val).run = none :=
  ⟨State.reset, 2, by decide⟩

/-- InfuserRunsExecute, clause 15: a state and operands that meet the hypotheses. -/
theorem test_InfuserRunsExecute_15 : ∃ (s : State) (n : Fin 16) (ecc : Ecc) (r : InfRun), s.inf.slots.length = 16 ∧ (s.islot n.val).run = some r ∧ r.done = true ∧ r.pend = [] ∧ r.adapt = false :=
  ⟨({ State.reset with pwr := { toppwrEn := true, toppwrGood := true, topRst := false }, mem := [], inf := { slots := modAt (List.replicate 16 {}) 2 (fun _ => { run := some { done := true } }) } } : State).setAll [(INF_SLOT_STS.STATE 2, 3)], 2, { corrected := 2, uncorr := false }, { done := true }, by decide⟩

/-- InfuserRunsExecute, clause 16: a state and operands that meet the hypotheses. -/
theorem test_InfuserRunsExecute_16 : ∃ (s : State) (n : Fin 16) (ecc : Ecc) (r : InfRun), (s.islot n.val).run = some r ∧ r.done = false :=
  ⟨({ State.reset with pwr := { toppwrEn := true, toppwrGood := true, topRst := false }, mem := [], inf := { slots := modAt (List.replicate 16 {}) 2 (fun _ => { run := some {} }) } } : State), 2, {}, {}, by decide⟩

/-- InfuserAdaptsAndProposes, clause 1: a state and operands that meet the hypotheses. -/
theorem test_InfuserAdaptsAndProposes_1 : ∃ (s : State) (n : Fin 16) (ecc : Ecc) (r : InfRun), s.inf.slots.length = 16 ∧ (s.islot n.val).run = some r ∧ r.done = true ∧ r.pend = [] ∧ r.adapt = true ∧ s.hasAdapt n.val = true ∧ ecc.uncorr = false ∧ s.adRefuses n.val = true :=
  ⟨({ State.reset with pwr := { toppwrEn := true, toppwrGood := true, topRst := false }, mem := memStore [] (slotBase 2 + 16) [2], inf := { slots := modAt (List.replicate 16 {}) 2 (fun _ => { run := some { done := true, adapt := true } }) } } : State).setAll [(INF_SLOT_STS.STATE 2, 2)], 2, { corrected := 2, uncorr := false }, { done := true, adapt := true }, by decide⟩

/-- InfuserAdaptsAndProposes, clause 2: a state and operands that meet the hypotheses. -/
theorem test_InfuserAdaptsAndProposes_2 : ∃ (s : State) (n : Fin 16) (ecc : Ecc) (r : InfRun), s.inf.slots.length = 16 ∧ (s.islot n.val).run = some r ∧ r.done = true ∧ r.pend = [] ∧ r.adapt = true ∧ s.hasAdapt n.val = true ∧ ecc.uncorr = false ∧ s.adRefuses n.val = false ∧ (s.adAddr n.val + 16 + 20 * s.adCount n.val ≤ slotBase n.val ∨ slotBase n.val + 0x40000 ≤ s.adAddr n.val) :=
  ⟨({ State.reset with pwr := { toppwrEn := true, toppwrGood := true, topRst := false }, mem := memStore (memStore [] (slotBase 2 + 16) [2]) 0x0220000000 ([1, 0, 1, 0, 1] ++ List.replicate 11 0 ++ (leBytes 4 100 ++ leBytes 4 200 ++ leBytes 4 0 ++ leBytes 4 1000) ++ (leBytes 4 1065353216 ++ leBytes 4 1066000000 ++ leBytes 4 0 ++ leBytes 4 1067000000) ++ leBytes 4 50 ++ leBytes 4 1065353216), inf := { slots := modAt (List.replicate 16 {}) 2 (fun _ => { run := some { done := true, adapt := true } }) } } : State).setAll [(INF_SLOT_STS.STATE 2, 2), (INF_CTL.ADAPT_ALLOW, 1), (INF_SLOT_CTL.ADAPT_EN 2, 1), (INF_SLOT_ADCFG.STEP 2, 128), (INF_SLOT_ADCFG.BAND 2, 64)], 2, { corrected := 2, uncorr := false }, { done := true, adapt := true }, by decide⟩

/-- InfuserAdaptsAndProposes, clause 3: a state and operands that meet the hypotheses. -/
theorem test_InfuserAdaptsAndProposes_3 : ∃ (s : State) (n : Fin 16) (ecc : Ecc) (r : InfRun), s.inf.slots.length = 16 ∧ (s.islot n.val).run = some r ∧ r.done = true ∧ r.pend = [] ∧ r.adapt = true ∧ s.hasAdapt n.val = true ∧ ecc.uncorr = true :=
  ⟨({ State.reset with pwr := { toppwrEn := true, toppwrGood := true, topRst := false }, mem := memStore [] (slotBase 2 + 16) [2], inf := { slots := modAt (List.replicate 16 {}) 2 (fun _ => { run := some { done := true, adapt := true } }) } } : State).setAll [(INF_SLOT_STS.STATE 2, 2)], 2, { corrected := 0, uncorr := true }, { done := true, adapt := true }, by decide⟩

/-- InfuserAdaptsAndProposes, clause 4: a state and operands that meet the hypotheses. -/
theorem test_InfuserAdaptsAndProposes_4 : ∃ (s : State) (n : Fin 16), s.get (INF_SLOT_ADSTS.STATE n.val) = 1 ∧ (s.islot n.val).rollback = false ∧ s.portShut (s.hdrAt n.val 120 1) = false ∧ (s.adAddr n.val + 16 + 20 * s.adCount n.val ≤ slotBase n.val ∨ slotBase n.val + 0x40000 ≤ s.adAddr n.val) :=
  ⟨({ State.reset with pwr := { toppwrEn := true, toppwrGood := true, topRst := false }, mem := memStore (memStore [] (slotBase 2 + 16) [2]) 0x0220000000 ([1, 0, 1, 0, 1] ++ List.replicate 11 0 ++ (leBytes 4 100 ++ leBytes 4 200 ++ leBytes 4 0 ++ leBytes 4 1000) ++ (leBytes 4 1065353216 ++ leBytes 4 1066000000 ++ leBytes 4 0 ++ leBytes 4 1067000000) ++ leBytes 4 50 ++ leBytes 4 1065353216), inf := { slots := modAt (List.replicate 16 {}) 2 (fun _ => {  }) } } : State).setAll [(INF_SLOT_ADSTS.STATE 2, 1), (INF_SLOT_ADSTS.RUN_RB 2, 1)], 2, by decide⟩

/-- InfuserAdaptsAndProposes, clause 5: a state and operands that meet the hypotheses. -/
theorem test_InfuserAdaptsAndProposes_5 : ∃ (s : State) (n : Fin 16), s.get (INF_SLOT_ADSTS.STATE n.val) = 1 ∧ (s.islot n.val).rollback = false ∧ s.portShut (s.hdrAt n.val 120 1) = true :=
  ⟨State.reset.setAll [(INF_SLOT_ADSTS.STATE 2, 1), (INF_SLOT_ADSTS.RUN_RB 2, 1), (CLK_GATE_STS.GATED, 1)], 2, by decide⟩

/-- InfuserAdaptsAndProposes, clause 6: a state and operands that meet the hypotheses. -/
theorem test_InfuserAdaptsAndProposes_6 : ∃ (s : State) (n : Fin 16), (s.get (INF_SLOT_ADSTS.STATE n.val) ≠ 1 ∨ (s.islot n.val).rollback = true) :=
  ⟨State.reset, 2, by decide⟩

/-- InfuserAdaptsAndProposes, clause 7: a state and operands that meet the hypotheses. -/
theorem test_InfuserAdaptsAndProposes_7 : ∃ (s : State) (n : Fin 16) (ecc : Ecc), s.inf.slots.length = 16 ∧ s.mayStart n.val = true ∧ (s.islot n.val).fresh = false ∧ (s.islot n.val).rollback = true ∧ ecc.uncorr = false ∧ (s.adAddr n.val + 16 + 20 * s.adCount n.val ≤ slotBase n.val ∨ slotBase n.val + 0x40000 ≤ s.adAddr n.val) :=
  ⟨({ State.reset with pwr := { toppwrEn := true, toppwrGood := true, topRst := false }, mem := memStore (memStore [] (slotBase 2 + 16) [2]) 0x0220000000 ([1, 0, 1, 0, 1] ++ List.replicate 11 0 ++ (leBytes 4 100 ++ leBytes 4 200 ++ leBytes 4 0 ++ leBytes 4 1000) ++ (leBytes 4 1065353216 ++ leBytes 4 1066000000 ++ leBytes 4 0 ++ leBytes 4 1067000000) ++ leBytes 4 50 ++ leBytes 4 1065353216), inf := { slots := modAt (List.replicate 16 {}) 2 (fun _ => { due := some (0, true), fresh := false, rollback := true }) } } : State).setAll [(INF_SLOT_STS.STATE 2, 2), (INF_STS.PLL1_OK, 1), (INF_CTL.RUN, 1)], 2, { corrected := 2, uncorr := false }, by decide⟩

/-- InfuserAdaptsAndProposes, clause 8: a state and operands that meet the hypotheses. -/
theorem test_InfuserAdaptsAndProposes_8 : ∃ (s : State) (n : Fin 16) (ecc : Ecc), s.inf.slots.length = 16 ∧ s.mayStart n.val = true ∧ (s.islot n.val).fresh = false ∧ (s.islot n.val).rollback = true ∧ ecc.uncorr = true :=
  ⟨({ State.reset with pwr := { toppwrEn := true, toppwrGood := true, topRst := false }, mem := [], inf := { slots := modAt (List.replicate 16 {}) 2 (fun _ => { due := some (0, true), fresh := false, rollback := true }) } } : State).setAll [(INF_SLOT_STS.STATE 2, 2), (INF_STS.PLL1_OK, 1), (INF_CTL.RUN, 1)], 2, { corrected := 0, uncorr := true }, by decide⟩

/-- InfuserAdaptsAndProposes, clause 9: a state and operands that meet the hypotheses. -/
theorem test_InfuserAdaptsAndProposes_9 : ∃ (s : State) (n : Fin 16), s.get (INF_SLOT_ADSTS.STATE n.val) = 2 :=
  ⟨State.reset.setAll [(INF_SLOT_ADSTS.STATE 2, 2)], 2, by decide⟩

/-- InfuserAdaptsAndProposes, clause 10: a state and operands that meet the hypotheses. -/
theorem test_InfuserAdaptsAndProposes_10 : ∃ (s : State) (n : Fin 16), s.get (INF_SLOT_ADSTS.STATE n.val) ≠ 2 :=
  ⟨State.reset, 2, by decide⟩

/-- InfuserAdaptsAndProposes, clause 11: a state and operands that meet the hypotheses. -/
theorem test_InfuserAdaptsAndProposes_11 : ∃ (s : State) (k : Nat), s.bridgeUp = true ∧ k = min (min 16 s.outRoom) s.inf.outQ.length ∧ k ≠ 0 :=
  ⟨({ State.reset with inf := { outQ := [{ port := 3, val := 9, ts := 0, fb := false }] } } : State).set BRG_STS.STATE 2, 1, by decide⟩

/-- InfuserAdaptsAndProposes, clause 12: a state and operands that meet the hypotheses. -/
theorem test_InfuserAdaptsAndProposes_12 : ∃ (s : State), (s.inf.outQ = [] ∨ s.bridgeUp = false ∨ s.outRoom = 0) :=
  ⟨State.reset, by decide⟩

set_option maxRecDepth 1000000 in
/-- InfuserOperationsIssue, clause 1: a state and operands that meet the hypotheses. -/
theorem test_InfuserOperationsIssue_1 : ∃ (s : State) (n : Fin 16) (ecc : Ecc) (bad : List (Fin 65536)) (r : InfRun) (b : List Byte), s.inf.slots.length = 16 ∧ (s.islot n.val).run = some r ∧ r.done = false ∧ r.pend = [] ∧ ecc = { corrected := 0, uncorr := false } ∧ bad = [] ∧ s.groupFrom n.val r.bundle 5 = [b] ∧ s.groupCauses n.val r.bundle r.rep [b] false = [] ∧ leAt b 5 1 = 16 ∧ leAt b 52 1 = 1 :=
  ⟨({ State.reset with pwr := { toppwrEn := true, toppwrGood := true, topRst := false }, mem := memStore [] (slotBase 2 + 0x2400) ([0x10, 0, 0, 0, 0, 0x10] ++ List.replicate 46 0 ++ [1, 2, 0, 1]), inf := { slots := modAt (List.replicate 16 {}) 2 (fun _ => { run := some {} }) } } : State).setAll [(INF_SLOT_PROG.CLMASK 2, 1)], 2, { corrected := 0, uncorr := false }, [], {}, (List.map (fun x => x) ([0x10, 0, 0, 0, 0, 0x10] ++ List.replicate 46 0 ++ [1, 2, 0, 1] ++ List.replicate 72 0)), by and_intros <;> decide +kernel⟩

set_option maxRecDepth 1000000 in
/-- InfuserOperationsIssue, clause 2: a state and operands that meet the hypotheses. -/
theorem test_InfuserOperationsIssue_2 : ∃ (s : State) (n : Fin 16) (ecc : Ecc) (bad : List (Fin 65536)) (r : InfRun) (b : List Byte), s.inf.slots.length = 16 ∧ (s.islot n.val).run = some r ∧ r.done = false ∧ r.pend = [] ∧ ecc = { corrected := 0, uncorr := false } ∧ bad = [] ∧ s.groupFrom n.val r.bundle 5 = [b] ∧ s.groupCauses n.val r.bundle r.rep [b] false = [] ∧ leAt b 5 1 = 2 ∧ leAt b 20 1 = 1 ∧ leAt b 21 1 % 4 = 0 :=
  ⟨({ State.reset with pwr := { toppwrEn := true, toppwrGood := true, topRst := false }, mem := memStore ([]) (slotBase 2 + 0x2400) ([16, 0, 0, 0, 0, 2] ++ List.replicate 14 0 ++ [1, 0, 5, 3, 8]), inf := { slots := modAt (List.replicate 16 {}) 2 (fun _ => { run := some {} }), cls := [{ regs := (List.range 64).map (fun i => (keyXr + i, (7 * i + 250) % 256)) ++ (List.range 128).map (fun i => (keyWr 0 + i, (31 * i + 5) % 256)) ++ (List.range 128).map (fun i => (keyAcc 0 0 + i, (2147483600 + 13 * i) % 4294967296)) }, {}, {}, {}] } } : State).setAll [(INF_SLOT_PROG.CLMASK 2, 1), (INF_SLOT_PROG.NACT 2, 2)], 2, { corrected := 0, uncorr := false }, [], {}, (List.map (fun x => x) (([16, 0, 0, 0, 0, 2] ++ List.replicate 14 0 ++ [1, 0, 5, 3, 8]) ++ List.replicate 103 0)), by and_intros <;> decide +kernel⟩

set_option maxRecDepth 1000000 in
/-- InfuserOperationsIssue, clause 3: a state and operands that meet the hypotheses. -/
theorem test_InfuserOperationsIssue_3 : ∃ (s : State) (n : Fin 16) (ecc : Ecc) (bad : List (Fin 65536)) (r : InfRun) (b : List Byte), s.inf.slots.length = 16 ∧ (s.islot n.val).run = some r ∧ r.done = false ∧ r.pend = [] ∧ ecc = { corrected := 0, uncorr := false } ∧ bad = [] ∧ s.groupFrom n.val r.bundle 5 = [b] ∧ s.groupCauses n.val r.bundle r.rep [b] false = [] ∧ leAt b 5 1 = 2 ∧ leAt b 20 1 = 1 ∧ leAt b 21 1 % 4 = 1 :=
  ⟨({ State.reset with pwr := { toppwrEn := true, toppwrGood := true, topRst := false }, mem := memStore ([]) (slotBase 2 + 0x2400) ([16, 0, 0, 0, 0, 2] ++ List.replicate 14 0 ++ [1, 5, 2, 3, 8]), inf := { slots := modAt (List.replicate 16 {}) 2 (fun _ => { run := some {} }), cls := [{ regs := (List.range 64).map (fun i => (keyXr + i, (7 * i + 250) % 256)) ++ (List.range 128).map (fun i => (keyWr 0 + i, (31 * i + 5) % 256)) }, {}, {}, {}] } } : State).setAll [(INF_SLOT_PROG.CLMASK 2, 1), (INF_SLOT_PROG.NACT 2, 2)], 2, { corrected := 0, uncorr := false }, [], {}, (List.map (fun x => x) (([16, 0, 0, 0, 0, 2] ++ List.replicate 14 0 ++ [1, 5, 2, 3, 8]) ++ List.replicate 103 0)), by and_intros <;> decide +kernel⟩

set_option maxRecDepth 1000000 in
/-- InfuserOperationsIssue, clause 4: a state and operands that meet the hypotheses. -/
theorem test_InfuserOperationsIssue_4 : ∃ (s : State) (n : Fin 16) (ecc : Ecc) (bad : List (Fin 65536)) (r : InfRun) (b : List Byte) (T : Nat), s.inf.slots.length = 16 ∧ (s.islot n.val).run = some r ∧ r.done = false ∧ r.pend = [] ∧ ecc = { corrected := 0, uncorr := false } ∧ bad = [] ∧ s.groupFrom n.val r.bundle 5 = [b] ∧ s.groupCauses n.val r.bundle r.rep [b] false = [] ∧ leAt b 5 1 = 2 ∧ leAt b 20 1 = 5 ∧ leAt b 26 1 % 8 = 0 ∧ bitOf (leAt b 26 1) 4 = true ∧ ranked (leAt b 22 1) = [(0, T)] :=
  ⟨({ State.reset with pwr := { toppwrEn := true, toppwrGood := true, topRst := false }, mem := memStore (memStore (memStore [] (slotBase 2 + 32) [0, 0, 0, 0, 0, 1]) 0x0210000000 [41, 92, 24, 0, 41, 92, 24, 0, 1, 0, 1, 0, 1, 0, 1, 0, 1, 0, 2, 0, 3, 0, 1, 0]) (slotBase 2 + 0x2400) ([16, 0, 0, 0, 0, 2] ++ List.replicate 14 0 ++ [5, 0, 4, 3, 0, 0, 24, 37]), inf := { slots := modAt (List.replicate 16 {}) 2 (fun _ => { run := some {} }), cls := [{ regs := (List.range 8).map (fun i => (keyAcc 2 3 + i, [61000, 4294906296, 5, 7, 4294967289, 4294967293, 1, 2].getD i 0)) }, {}, {}, {}] } } : State).setAll [(INF_SLOT_PROG.CLMASK 2, 1), (INF_SLOT_PROG.NACT 2, 2)], 2, { corrected := 0, uncorr := false }, [], {}, (List.map (fun x => x) (([16, 0, 0, 0, 0, 2] ++ List.replicate 14 0 ++ [5, 0, 4, 3, 0, 0, 24, 37]) ++ List.replicate 100 0)), 2, by and_intros <;> decide +kernel⟩

set_option maxRecDepth 1000000 in
/-- InfuserOperationsIssue, clause 5: a state and operands that meet the hypotheses. -/
theorem test_InfuserOperationsIssue_5 : ∃ (s : State) (n : Fin 16) (ecc : Ecc) (bad : List (Fin 65536)) (r : InfRun) (b : List Byte), s.inf.slots.length = 16 ∧ (s.islot n.val).run = some r ∧ r.done = false ∧ r.pend = [] ∧ ecc = { corrected := 0, uncorr := false } ∧ bad = [] ∧ s.groupFrom n.val r.bundle 5 = [b] ∧ s.groupCauses n.val r.bundle r.rep [b] false = [] ∧ leAt b 5 1 = 16 ∧ leAt b 52 1 = 0x10 :=
  ⟨({ State.reset with pwr := { toppwrEn := true, toppwrGood := true, topRst := false }, mem := memStore ([]) (slotBase 2 + 0x2400) ([16, 0, 0, 0, 0, 16] ++ List.replicate 46 0 ++ [16, 1, 2, 0, 0, 132]), inf := { slots := modAt (List.replicate 16 {}) 2 (fun _ => { run := some {} }), cls := [{ regs := (List.range 32).map (fun l => (keyLane 2 l, [1078530011, 2143289344, 3240099840, 1120403456, 1065353216, 1056964608, 3212836864, 0].getD (l % 8) 0)) }, {}, {}, {}] } } : State).setAll [(INF_SLOT_PROG.CLMASK 2, 1), (INF_SLOT_PROG.NACT 2, 2)], 2, { corrected := 0, uncorr := false }, [], {}, (List.map (fun x => x) (([16, 0, 0, 0, 0, 16] ++ List.replicate 46 0 ++ [16, 1, 2, 0, 0, 132]) ++ List.replicate 70 0)), by and_intros <;> decide +kernel⟩

set_option maxRecDepth 1000000 in
/-- InfuserOperationsIssue, clause 6: a state and operands that meet the hypotheses. -/
theorem test_InfuserOperationsIssue_6 : ∃ (s : State) (n : Fin 16) (ecc : Ecc) (bad : List (Fin 65536)) (r : InfRun) (b : List Byte), s.inf.slots.length = 16 ∧ (s.islot n.val).run = some r ∧ r.done = false ∧ r.pend = [] ∧ ecc = { corrected := 0, uncorr := false } ∧ bad = [] ∧ s.groupFrom n.val r.bundle 5 = [b] ∧ s.groupCauses n.val r.bundle r.rep [b] false = [] ∧ leAt b 5 1 = 16 ∧ leAt b 52 1 = 0x0B :=
  ⟨({ State.reset with pwr := { toppwrEn := true, toppwrGood := true, topRst := false }, mem := memStore [] (slotBase 2 + 0x2400) ([16, 0, 0, 0, 0, 16] ++ List.replicate 46 0 ++ [11, 1, 2, 0, 0, 1]), inf := { slots := modAt (List.replicate 16 {}) 2 (fun _ => { run := some {} }) } } : State).setAll [(INF_SLOT_PROG.CLMASK 2, 1), (INF_SLOT_PROG.NACT 2, 2)], 2, { corrected := 0, uncorr := false }, [], {}, ([16, 0, 0, 0, 0, 16] ++ List.replicate 46 0 ++ [11, 1, 2, 0, 0, 1] ++ List.replicate 70 0), by and_intros <;> decide +kernel⟩

set_option maxRecDepth 1000000 in
/-- InfuserOperationsIssue, clause 7: a state and operands that meet the hypotheses. -/
theorem test_InfuserOperationsIssue_7 : ∃ (s : State) (n : Fin 16) (ecc : Ecc) (bad : List (Fin 65536)) (r : InfRun) (b : List Byte), s.inf.slots.length = 16 ∧ (s.islot n.val).run = some r ∧ r.done = false ∧ r.pend = [] ∧ ecc = { corrected := 0, uncorr := false } ∧ bad = [] ∧ s.groupFrom n.val r.bundle 5 = [b] ∧ s.groupCauses n.val r.bundle r.rep [b] false = [] ∧ leAt b 5 1 = 2 ∧ leAt b 20 1 = 1 ∧ leAt b 21 1 % 4 = 2 :=
  ⟨({ State.reset with pwr := { toppwrEn := true, toppwrGood := true, topRst := false }, mem := memStore (memStore (memStore ([]) (slotBase 2 + 32) [0, 0, 0, 0, 0, 16]) (slotBase 2 + 64) [0, 0, 0, 0, 0, 16, 0, 0, 0, 0, 0, 0, 0, 16]) (slotBase 2 + 0x2400) ([16] ++ List.replicate 3 0 ++ [3, 2] ++ List.replicate 14 0 ++ [1, 2, 3, 1, 8, 40] ++ List.replicate 102 0), inf := { slots := modAt (List.replicate 16 {}) 2 (fun _ => { run := some { rep := 1 } }), cls := [{ regs := (List.range 64).map (fun i => (keyXr + i, (7 * i + 250) % 256)) ++ (List.range 128).map (fun i => (keyWr 0 + i, (31 * i + 5) % 256)) ++ (List.range 16).map (fun i => (keyScale 0 + i, 120 + i)) ++ (List.range 256).map (fun i => (keyAcc 0 0 + i, (1077936128 + 786433 * i) % 4294967296)) }, {}, {}, {}] } } : State).setAll [(INF_SLOT_PROG.CLMASK 2, 3), (INF_SLOT_PROG.NACT 2, 2), (INF_SLOT_CTL.ACC 2, 1), (INF_OUT_CFG.SLOT 6, 2), (INF_OUT_CFG.KIND 6, 1)], 2, { corrected := 0, uncorr := false }, [], { rep := 1 }, (List.map (fun x => x) ([16] ++ List.replicate 3 0 ++ [3, 2] ++ List.replicate 14 0 ++ [1, 2, 3, 1, 8, 40] ++ List.replicate 102 0)), by and_intros <;> decide +kernel⟩

set_option maxRecDepth 1000000 in
/-- InfuserOperationsIssue, clause 8: a state and operands that meet the hypotheses. -/
theorem test_InfuserOperationsIssue_8 : ∃ (s : State) (n : Fin 16) (ecc : Ecc) (bad : List (Fin 65536)) (r : InfRun) (b : List Byte), s.inf.slots.length = 16 ∧ (s.islot n.val).run = some r ∧ r.done = false ∧ r.pend = [] ∧ ecc = { corrected := 0, uncorr := false } ∧ bad = [] ∧ s.groupFrom n.val r.bundle 5 = [b] ∧ s.groupCauses n.val r.bundle r.rep [b] false = [] ∧ leAt b 5 1 = 2 ∧ 2 ≤ leAt b 20 1 ∧ leAt b 20 1 ≤ 4 :=
  ⟨({ State.reset with pwr := { toppwrEn := true, toppwrGood := true, topRst := false }, mem := memStore (memStore (memStore ([]) (slotBase 2 + 32) [0, 0, 0, 0, 0, 16]) (slotBase 2 + 64) [0, 0, 0, 0, 0, 16, 0, 0, 0, 0, 0, 0, 0, 16]) (slotBase 2 + 0x2400) ([16] ++ List.replicate 3 0 ++ [3, 2] ++ List.replicate 14 0 ++ [4] ++ List.replicate 1 0 ++ [3, 1, 32] ++ List.replicate 103 0), inf := { slots := modAt (List.replicate 16 {}) 2 (fun _ => { run := some { rep := 1 } }), cls := [{ regs := (List.range 64).map (fun i => (keyXr + i, (7 * i + 250) % 256)) ++ (List.range 128).map (fun i => (keyWr 0 + i, (31 * i + 5) % 256)) ++ (List.range 16).map (fun i => (keyScale 0 + i, 120 + i)) ++ (List.range 256).map (fun i => (keyAcc 0 0 + i, (1077936128 + 786433 * i) % 4294967296)) }, {}, {}, {}] } } : State).setAll [(INF_SLOT_PROG.CLMASK 2, 3), (INF_SLOT_PROG.NACT 2, 2), (INF_SLOT_CTL.ACC 2, 1), (INF_OUT_CFG.SLOT 6, 2), (INF_OUT_CFG.KIND 6, 1)], 2, { corrected := 0, uncorr := false }, [], { rep := 1 }, (List.map (fun x => x) ([16] ++ List.replicate 3 0 ++ [3, 2] ++ List.replicate 14 0 ++ [4] ++ List.replicate 1 0 ++ [3, 1, 32] ++ List.replicate 103 0)), by and_intros <;> decide +kernel⟩

set_option maxRecDepth 1000000 in
/-- InfuserOperationsIssue, clause 9: a state and operands that meet the hypotheses. -/
theorem test_InfuserOperationsIssue_9 : ∃ (s : State) (n : Fin 16) (ecc : Ecc) (bad : List (Fin 65536)) (r : InfRun) (b : List Byte), s.inf.slots.length = 16 ∧ (s.islot n.val).run = some r ∧ r.done = false ∧ r.pend = [] ∧ ecc = { corrected := 0, uncorr := false } ∧ bad = [] ∧ s.groupFrom n.val r.bundle 5 = [b] ∧ s.groupCauses n.val r.bundle r.rep [b] false = [] ∧ leAt b 5 1 = 2 ∧ leAt b 20 1 = 5 ∧ (leAt b 26 1 % 8 = 1 ∨ leAt b 26 1 % 8 = 2 ∨ leAt b 26 1 % 8 = 6) ∧ bitOf (leAt b 26 1) 4 = true :=
  ⟨({ State.reset with pwr := { toppwrEn := true, toppwrGood := true, topRst := false }, mem := memStore (memStore (memStore ([]) (slotBase 2 + 32) [0, 0, 0, 0, 0, 16]) (slotBase 2 + 64) [0, 0, 0, 0, 0, 16, 0, 0, 0, 0, 0, 0, 0, 16]) (slotBase 2 + 0x2400) ([16] ++ List.replicate 3 0 ++ [3, 2] ++ List.replicate 14 0 ++ [5] ++ List.replicate 1 0 ++ [3, 1] ++ List.replicate 2 0 ++ [18, 19] ++ List.replicate 100 0), inf := { slots := modAt (List.replicate 16 {}) 2 (fun _ => { run := some { rep := 1 } }), cls := [{ regs := (List.range 64).map (fun i => (keyXr + i, (7 * i + 250) % 256)) ++ (List.range 128).map (fun i => (keyWr 0 + i, (31 * i + 5) % 256)) ++ (List.range 16).map (fun i => (keyScale 0 + i, 120 + i)) ++ (List.range 256).map (fun i => (keyAcc 0 0 + i, (1077936128 + 786433 * i) % 4294967296)) }, {}, {}, {}] } } : State).setAll [(INF_SLOT_PROG.CLMASK 2, 3), (INF_SLOT_PROG.NACT 2, 2), (INF_SLOT_CTL.ACC 2, 1), (INF_OUT_CFG.SLOT 6, 2), (INF_OUT_CFG.KIND 6, 1)], 2, { corrected := 0, uncorr := false }, [], { rep := 1 }, (List.map (fun x => x) ([16] ++ List.replicate 3 0 ++ [3, 2] ++ List.replicate 14 0 ++ [5] ++ List.replicate 1 0 ++ [3, 1] ++ List.replicate 2 0 ++ [18, 19] ++ List.replicate 100 0)), by and_intros <;> decide +kernel⟩

set_option maxRecDepth 1000000 in
/-- InfuserOperationsIssue, clause 10: a state and operands that meet the hypotheses. -/
theorem test_InfuserOperationsIssue_10 : ∃ (s : State) (n : Fin 16) (ecc : Ecc) (bad : List (Fin 65536)) (r : InfRun) (b : List Byte), s.inf.slots.length = 16 ∧ (s.islot n.val).run = some r ∧ r.done = false ∧ r.pend = [] ∧ ecc = { corrected := 0, uncorr := false } ∧ bad = [] ∧ s.groupFrom n.val r.bundle 5 = [b] ∧ s.groupCauses n.val r.bundle r.rep [b] false = [] ∧ leAt b 5 1 = 2 ∧ leAt b 20 1 = 5 ∧ 3 ≤ leAt b 26 1 % 8 ∧ leAt b 26 1 % 8 ≤ 5 ∧ bitOf (leAt b 26 1) 4 = true :=
  ⟨({ State.reset with pwr := { toppwrEn := true, toppwrGood := true, topRst := false }, mem := memStore (memStore (memStore ([]) (slotBase 2 + 32) [0, 0, 0, 0, 0, 16]) (slotBase 2 + 64) [0, 0, 0, 0, 0, 16, 0, 0, 0, 0, 0, 0, 0, 16]) (slotBase 2 + 0x2400) ([16] ++ List.replicate 3 0 ++ [3, 2] ++ List.replicate 14 0 ++ [5] ++ List.replicate 1 0 ++ [3, 1] ++ List.replicate 2 0 ++ [27, 19] ++ List.replicate 100 0), inf := { slots := modAt (List.replicate 16 {}) 2 (fun _ => { run := some { rep := 1 } }), cls := [{ regs := (List.range 64).map (fun i => (keyXr + i, (7 * i + 250) % 256)) ++ (List.range 128).map (fun i => (keyWr 0 + i, (31 * i + 5) % 256)) ++ (List.range 16).map (fun i => (keyScale 0 + i, 120 + i)) ++ (List.range 256).map (fun i => (keyAcc 0 0 + i, (1077936128 + 786433 * i) % 4294967296)) }, {}, {}, {}] } } : State).setAll [(INF_SLOT_PROG.CLMASK 2, 3), (INF_SLOT_PROG.NACT 2, 2), (INF_SLOT_CTL.ACC 2, 1), (INF_OUT_CFG.SLOT 6, 2), (INF_OUT_CFG.KIND 6, 1)], 2, { corrected := 0, uncorr := false }, [], { rep := 1 }, (List.map (fun x => x) ([16] ++ List.replicate 3 0 ++ [3, 2] ++ List.replicate 14 0 ++ [5] ++ List.replicate 1 0 ++ [3, 1] ++ List.replicate 2 0 ++ [27, 19] ++ List.replicate 100 0)), by and_intros <;> decide +kernel⟩

set_option maxRecDepth 1000000 in
/-- InfuserOperationsIssue, clause 11: a state and operands that meet the hypotheses. -/
theorem test_InfuserOperationsIssue_11 : ∃ (s : State) (n : Fin 16) (ecc : Ecc) (bad : List (Fin 65536)) (r : InfRun) (b : List Byte), s.inf.slots.length = 16 ∧ (s.islot n.val).run = some r ∧ r.done = false ∧ r.pend = [] ∧ ecc = { corrected := 0, uncorr := false } ∧ bad = [] ∧ s.groupFrom n.val r.bundle 5 = [b] ∧ s.groupCauses n.val r.bundle r.rep [b] false = [] ∧ leAt b 5 1 = 2 ∧ leAt b 20 1 = 5 ∧ (leAt b 26 1 % 8 = 1 ∨ leAt b 26 1 % 8 = 6) ∧ bitOf (leAt b 26 1) 4 = false :=
  ⟨({ State.reset with pwr := { toppwrEn := true, toppwrGood := true, topRst := false }, mem := memStore (memStore (memStore ([]) (slotBase 2 + 32) [0, 0, 0, 0, 0, 16]) (slotBase 2 + 64) [0, 0, 0, 0, 0, 16, 0, 0, 0, 0, 0, 0, 0, 16]) (slotBase 2 + 0x2400) ([16] ++ List.replicate 3 0 ++ [3, 2] ++ List.replicate 14 0 ++ [5] ++ List.replicate 1 0 ++ [3, 1] ++ List.replicate 2 0 ++ [1] ++ List.replicate 1 0 ++ [64] ++ List.replicate 99 0), inf := { slots := modAt (List.replicate 16 {}) 2 (fun _ => { run := some { rep := 1 } }), cls := [{ regs := (List.range 64).map (fun i => (keyXr + i, (7 * i + 250) % 256)) ++ (List.range 128).map (fun i => (keyWr 0 + i, (31 * i + 5) % 256)) ++ (List.range 16).map (fun i => (keyScale 0 + i, 120 + i)) ++ (List.range 256).map (fun i => (keyAcc 0 0 + i, (1077936128 + 786433 * i) % 4294967296)) }, {}, {}, {}] } } : State).setAll [(INF_SLOT_PROG.CLMASK 2, 3), (INF_SLOT_PROG.NACT 2, 2), (INF_SLOT_CTL.ACC 2, 1), (INF_OUT_CFG.SLOT 6, 2), (INF_OUT_CFG.KIND 6, 1)], 2, { corrected := 0, uncorr := false }, [], { rep := 1 }, (List.map (fun x => x) ([16] ++ List.replicate 3 0 ++ [3, 2] ++ List.replicate 14 0 ++ [5] ++ List.replicate 1 0 ++ [3, 1] ++ List.replicate 2 0 ++ [1] ++ List.replicate 1 0 ++ [64] ++ List.replicate 99 0)), by and_intros <;> decide +kernel⟩

set_option maxRecDepth 1000000 in
/-- InfuserOperationsIssue, clause 12: a state and operands that meet the hypotheses. -/
theorem test_InfuserOperationsIssue_12 : ∃ (s : State) (n : Fin 16) (ecc : Ecc) (bad : List (Fin 65536)) (r : InfRun) (b : List Byte), s.inf.slots.length = 16 ∧ (s.islot n.val).run = some r ∧ r.done = false ∧ r.pend = [] ∧ ecc = { corrected := 0, uncorr := false } ∧ bad = [] ∧ s.groupFrom n.val r.bundle 5 = [b] ∧ s.groupCauses n.val r.bundle r.rep [b] false = [] ∧ leAt b 5 1 = 2 ∧ leAt b 20 1 = 5 ∧ leAt b 26 1 % 8 = 5 ∧ bitOf (leAt b 26 1) 4 = false :=
  ⟨({ State.reset with pwr := { toppwrEn := true, toppwrGood := true, topRst := false }, mem := memStore (memStore (memStore ([]) (slotBase 2 + 32) [0, 0, 0, 0, 0, 16]) (slotBase 2 + 64) [0, 0, 0, 0, 0, 16, 0, 0, 0, 0, 0, 0, 0, 16]) (slotBase 2 + 0x2400) ([16] ++ List.replicate 3 0 ++ [3, 2] ++ List.replicate 14 0 ++ [5] ++ List.replicate 1 0 ++ [3, 1] ++ List.replicate 2 0 ++ [13] ++ List.replicate 1 0 ++ [64] ++ List.replicate 99 0), inf := { slots := modAt (List.replicate 16 {}) 2 (fun _ => { run := some { rep := 1 } }), cls := [{ regs := (List.range 64).map (fun i => (keyXr + i, (7 * i + 250) % 256)) ++ (List.range 128).map (fun i => (keyWr 0 + i, (31 * i + 5) % 256)) ++ (List.range 16).map (fun i => (keyScale 0 + i, 120 + i)) ++ (List.range 256).map (fun i => (keyAcc 0 0 + i, (1077936128 + 786433 * i) % 4294967296)) }, {}, {}, {}] } } : State).setAll [(INF_SLOT_PROG.CLMASK 2, 3), (INF_SLOT_PROG.NACT 2, 2), (INF_SLOT_CTL.ACC 2, 1), (INF_OUT_CFG.SLOT 6, 2), (INF_OUT_CFG.KIND 6, 1)], 2, { corrected := 0, uncorr := false }, [], { rep := 1 }, (List.map (fun x => x) ([16] ++ List.replicate 3 0 ++ [3, 2] ++ List.replicate 14 0 ++ [5] ++ List.replicate 1 0 ++ [3, 1] ++ List.replicate 2 0 ++ [13] ++ List.replicate 1 0 ++ [64] ++ List.replicate 99 0)), by and_intros <;> decide +kernel⟩

set_option maxRecDepth 1000000 in
/-- InfuserOperationsIssue, clause 13: a state and operands that meet the hypotheses. -/
theorem test_InfuserOperationsIssue_13 : ∃ (s : State) (n : Fin 16) (ecc : Ecc) (bad : List (Fin 65536)) (r : InfRun) (b : List Byte), s.inf.slots.length = 16 ∧ (s.islot n.val).run = some r ∧ r.done = false ∧ r.pend = [] ∧ ecc = { corrected := 0, uncorr := false } ∧ bad = [] ∧ s.groupFrom n.val r.bundle 5 = [b] ∧ s.groupCauses n.val r.bundle r.rep [b] false = [] ∧ leAt b 5 1 = 16 ∧ (leAt b 52 1 = 2 ∨ leAt b 52 1 = 3) :=
  ⟨({ State.reset with pwr := { toppwrEn := true, toppwrGood := true, topRst := false }, mem := memStore (memStore (memStore ([]) (slotBase 2 + 32) [0, 0, 0, 0, 0, 16]) (slotBase 2 + 64) [0, 0, 0, 0, 0, 16, 0, 0, 0, 0, 0, 0, 0, 16]) (slotBase 2 + 0x2400) ([16] ++ List.replicate 3 0 ++ [3, 16] ++ List.replicate 46 0 ++ [3, 1, 2, 3] ++ List.replicate 72 0), inf := { slots := modAt (List.replicate 16 {}) 2 (fun _ => { run := some { rep := 1 } }), cls := [{ regs := (List.range 96).map (fun i => (keyLane 2 0 + i, (1077936128 + 48234567 * i) % 4294967296)) }, {}, {}, {}] } } : State).setAll [(INF_SLOT_PROG.CLMASK 2, 3), (INF_SLOT_PROG.NACT 2, 2), (INF_SLOT_CTL.ACC 2, 1), (INF_OUT_CFG.SLOT 6, 2), (INF_OUT_CFG.KIND 6, 1)], 2, { corrected := 0, uncorr := false }, [], { rep := 1 }, (List.map (fun x => x) ([16] ++ List.replicate 3 0 ++ [3, 16] ++ List.replicate 46 0 ++ [3, 1, 2, 3] ++ List.replicate 72 0)), by and_intros <;> decide +kernel⟩

set_option maxRecDepth 1000000 in
/-- InfuserOperationsIssue, clause 14: a state and operands that meet the hypotheses. -/
theorem test_InfuserOperationsIssue_14 : ∃ (s : State) (n : Fin 16) (ecc : Ecc) (bad : List (Fin 65536)) (r : InfRun) (b : List Byte), s.inf.slots.length = 16 ∧ (s.islot n.val).run = some r ∧ r.done = false ∧ r.pend = [] ∧ ecc = { corrected := 0, uncorr := false } ∧ bad = [] ∧ s.groupFrom n.val r.bundle 5 = [b] ∧ s.groupCauses n.val r.bundle r.rep [b] false = [] ∧ leAt b 5 1 = 16 ∧ leAt b 52 1 = 4 :=
  ⟨({ State.reset with pwr := { toppwrEn := true, toppwrGood := true, topRst := false }, mem := memStore (memStore (memStore ([]) (slotBase 2 + 32) [0, 0, 0, 0, 0, 16]) (slotBase 2 + 64) [0, 0, 0, 0, 0, 16, 0, 0, 0, 0, 0, 0, 0, 16]) (slotBase 2 + 0x2400) ([16] ++ List.replicate 3 0 ++ [3, 16] ++ List.replicate 46 0 ++ [4, 1, 2, 3, 4] ++ List.replicate 71 0), inf := { slots := modAt (List.replicate 16 {}) 2 (fun _ => { run := some { rep := 1 } }), cls := [{ regs := (List.range 96).map (fun i => (keyLane 2 0 + i, (1077936128 + 48234567 * i) % 4294967296)) }, {}, {}, {}] } } : State).setAll [(INF_SLOT_PROG.CLMASK 2, 3), (INF_SLOT_PROG.NACT 2, 2), (INF_SLOT_CTL.ACC 2, 1), (INF_OUT_CFG.SLOT 6, 2), (INF_OUT_CFG.KIND 6, 1)], 2, { corrected := 0, uncorr := false }, [], { rep := 1 }, (List.map (fun x => x) ([16] ++ List.replicate 3 0 ++ [3, 16] ++ List.replicate 46 0 ++ [4, 1, 2, 3, 4] ++ List.replicate 71 0)), by and_intros <;> decide +kernel⟩

set_option maxRecDepth 1000000 in
/-- InfuserOperationsIssue, clause 15: a state and operands that meet the hypotheses. -/
theorem test_InfuserOperationsIssue_15 : ∃ (s : State) (n : Fin 16) (ecc : Ecc) (bad : List (Fin 65536)) (r : InfRun) (b : List Byte), s.inf.slots.length = 16 ∧ (s.islot n.val).run = some r ∧ r.done = false ∧ r.pend = [] ∧ ecc = { corrected := 0, uncorr := false } ∧ bad = [] ∧ s.groupFrom n.val r.bundle 5 = [b] ∧ s.groupCauses n.val r.bundle r.rep [b] false = [] ∧ leAt b 5 1 = 16 ∧ (leAt b 52 1 = 5 ∨ leAt b 52 1 = 6) :=
  ⟨({ State.reset with pwr := { toppwrEn := true, toppwrGood := true, topRst := false }, mem := memStore (memStore (memStore ([]) (slotBase 2 + 32) [0, 0, 0, 0, 0, 16]) (slotBase 2 + 64) [0, 0, 0, 0, 0, 16, 0, 0, 0, 0, 0, 0, 0, 16]) (slotBase 2 + 0x2400) ([16] ++ List.replicate 3 0 ++ [3, 16] ++ List.replicate 46 0 ++ [6, 1, 2, 3] ++ List.replicate 72 0), inf := { slots := modAt (List.replicate 16 {}) 2 (fun _ => { run := some { rep := 1 } }), cls := [{ regs := (List.range 96).map (fun i => (keyLane 2 0 + i, (1077936128 + 48234567 * i) % 4294967296)) }, {}, {}, {}] } } : State).setAll [(INF_SLOT_PROG.CLMASK 2, 3), (INF_SLOT_PROG.NACT 2, 2), (INF_SLOT_CTL.ACC 2, 1), (INF_OUT_CFG.SLOT 6, 2), (INF_OUT_CFG.KIND 6, 1)], 2, { corrected := 0, uncorr := false }, [], { rep := 1 }, (List.map (fun x => x) ([16] ++ List.replicate 3 0 ++ [3, 16] ++ List.replicate 46 0 ++ [6, 1, 2, 3] ++ List.replicate 72 0)), by and_intros <;> decide +kernel⟩

set_option maxRecDepth 1000000 in
/-- InfuserOperationsIssue, clause 16: a state and operands that meet the hypotheses. -/
theorem test_InfuserOperationsIssue_16 : ∃ (s : State) (n : Fin 16) (ecc : Ecc) (bad : List (Fin 65536)) (r : InfRun) (b : List Byte), s.inf.slots.length = 16 ∧ (s.islot n.val).run = some r ∧ r.done = false ∧ r.pend = [] ∧ ecc = { corrected := 0, uncorr := false } ∧ bad = [] ∧ s.groupFrom n.val r.bundle 5 = [b] ∧ s.groupCauses n.val r.bundle r.rep [b] false = [] ∧ leAt b 5 1 = 16 ∧ 7 ≤ leAt b 52 1 ∧ leAt b 52 1 ≤ 9 :=
  ⟨({ State.reset with pwr := { toppwrEn := true, toppwrGood := true, topRst := false }, mem := memStore (memStore (memStore ([]) (slotBase 2 + 32) [0, 0, 0, 0, 0, 16]) (slotBase 2 + 64) [0, 0, 0, 0, 0, 16, 0, 0, 0, 0, 0, 0, 0, 16]) (slotBase 2 + 0x2400) ([16] ++ List.replicate 3 0 ++ [3, 16] ++ List.replicate 46 0 ++ [8, 1, 2, 3] ++ List.replicate 72 0), inf := { slots := modAt (List.replicate 16 {}) 2 (fun _ => { run := some { rep := 1 } }), cls := [{ regs := (List.range 96).map (fun i => (keyLane 2 0 + i, (1077936128 + 48234567 * i) % 4294967296)) }, {}, {}, {}] } } : State).setAll [(INF_SLOT_PROG.CLMASK 2, 3), (INF_SLOT_PROG.NACT 2, 2), (INF_SLOT_CTL.ACC 2, 1), (INF_OUT_CFG.SLOT 6, 2), (INF_OUT_CFG.KIND 6, 1)], 2, { corrected := 0, uncorr := false }, [], { rep := 1 }, (List.map (fun x => x) ([16] ++ List.replicate 3 0 ++ [3, 16] ++ List.replicate 46 0 ++ [8, 1, 2, 3] ++ List.replicate 72 0)), by and_intros <;> decide +kernel⟩

set_option maxRecDepth 1000000 in
/-- InfuserOperationsIssue, clause 17: a state and operands that meet the hypotheses. -/
theorem test_InfuserOperationsIssue_17 : ∃ (s : State) (n : Fin 16) (ecc : Ecc) (bad : List (Fin 65536)) (r : InfRun) (b : List Byte), s.inf.slots.length = 16 ∧ (s.islot n.val).run = some r ∧ r.done = false ∧ r.pend = [] ∧ ecc = { corrected := 0, uncorr := false } ∧ bad = [] ∧ s.groupFrom n.val r.bundle 5 = [b] ∧ s.groupCauses n.val r.bundle r.rep [b] false = [] ∧ leAt b 5 1 = 16 ∧ leAt b 52 1 = 10 :=
  ⟨({ State.reset with pwr := { toppwrEn := true, toppwrGood := true, topRst := false }, mem := memStore (memStore (memStore ([]) (slotBase 2 + 32) [0, 0, 0, 0, 0, 16]) (slotBase 2 + 64) [0, 0, 0, 0, 0, 16, 0, 0, 0, 0, 0, 0, 0, 16]) (slotBase 2 + 0x2400) ([16] ++ List.replicate 3 0 ++ [3, 16] ++ List.replicate 46 0 ++ [10, 1, 2, 3, 1] ++ List.replicate 71 0), inf := { slots := modAt (List.replicate 16 {}) 2 (fun _ => { run := some { rep := 1 } }), cls := [{ regs := (List.range 96).map (fun i => (keyLane 2 0 + i, (1077936128 + 48234567 * i) % 4294967296)) ++ [(keyMask 1, 0x5A5A1234)] }, {}, {}, {}] } } : State).setAll [(INF_SLOT_PROG.CLMASK 2, 3), (INF_SLOT_PROG.NACT 2, 2), (INF_SLOT_CTL.ACC 2, 1), (INF_OUT_CFG.SLOT 6, 2), (INF_OUT_CFG.KIND 6, 1)], 2, { corrected := 0, uncorr := false }, [], { rep := 1 }, (List.map (fun x => x) ([16] ++ List.replicate 3 0 ++ [3, 16] ++ List.replicate 46 0 ++ [10, 1, 2, 3, 1] ++ List.replicate 71 0)), by and_intros <;> decide +kernel⟩

set_option maxRecDepth 1000000 in
/-- InfuserOperationsIssue, clause 18: a state and operands that meet the hypotheses. -/
theorem test_InfuserOperationsIssue_18 : ∃ (s : State) (n : Fin 16) (ecc : Ecc) (bad : List (Fin 65536)) (r : InfRun) (b : List Byte), s.inf.slots.length = 16 ∧ (s.islot n.val).run = some r ∧ r.done = false ∧ r.pend = [] ∧ ecc = { corrected := 0, uncorr := false } ∧ bad = [] ∧ s.groupFrom n.val r.bundle 5 = [b] ∧ s.groupCauses n.val r.bundle r.rep [b] false = [] ∧ leAt b 5 1 = 16 ∧ (leAt b 52 1 = 12 ∨ leAt b 52 1 = 13) :=
  ⟨({ State.reset with pwr := { toppwrEn := true, toppwrGood := true, topRst := false }, mem := memStore (memStore (memStore ([]) (slotBase 2 + 32) [0, 0, 0, 0, 0, 16]) (slotBase 2 + 64) [0, 0, 0, 0, 0, 16, 0, 0, 0, 0, 0, 0, 0, 16]) (slotBase 2 + 0x2400) ([16] ++ List.replicate 3 0 ++ [3, 16] ++ List.replicate 46 0 ++ [13, 1, 2] ++ List.replicate 73 0), inf := { slots := modAt (List.replicate 16 {}) 2 (fun _ => { run := some { rep := 1 } }), cls := [{ regs := (List.range 32).map (fun l => (keyLane 2 l, [0, 2147483648, 2143289344, 3240099840].getD (l % 4) 0)) }, {}, {}, {}] } } : State).setAll [(INF_SLOT_PROG.CLMASK 2, 3), (INF_SLOT_PROG.NACT 2, 2), (INF_SLOT_CTL.ACC 2, 1), (INF_OUT_CFG.SLOT 6, 2), (INF_OUT_CFG.KIND 6, 1)], 2, { corrected := 0, uncorr := false }, [], { rep := 1 }, (List.map (fun x => x) ([16] ++ List.replicate 3 0 ++ [3, 16] ++ List.replicate 46 0 ++ [13, 1, 2] ++ List.replicate 73 0)), by and_intros <;> decide +kernel⟩

set_option maxRecDepth 1000000 in
/-- InfuserOperationsIssue, clause 19: a state and operands that meet the hypotheses. -/
theorem test_InfuserOperationsIssue_19 : ∃ (s : State) (n : Fin 16) (ecc : Ecc) (bad : List (Fin 65536)) (r : InfRun) (b : List Byte), s.inf.slots.length = 16 ∧ (s.islot n.val).run = some r ∧ r.done = false ∧ r.pend = [] ∧ ecc = { corrected := 0, uncorr := false } ∧ bad = [] ∧ s.groupFrom n.val r.bundle 5 = [b] ∧ s.groupCauses n.val r.bundle r.rep [b] false = [] ∧ leAt b 5 1 = 16 ∧ (leAt b 52 1 = 14 ∨ leAt b 52 1 = 15) :=
  ⟨({ State.reset with pwr := { toppwrEn := true, toppwrGood := true, topRst := false }, mem := memStore (memStore (memStore ([]) (slotBase 2 + 32) [0, 0, 0, 0, 0, 16]) (slotBase 2 + 64) [0, 0, 0, 0, 0, 16, 0, 0, 0, 0, 0, 0, 0, 16]) (slotBase 2 + 0x2400) ([16] ++ List.replicate 3 0 ++ [3, 16] ++ List.replicate 46 0 ++ [14, 1, 2] ++ List.replicate 73 0), inf := { slots := modAt (List.replicate 16 {}) 2 (fun _ => { run := some { rep := 1 } }), cls := [{ regs := (List.range 96).map (fun i => (keyLane 2 0 + i, (1077936128 + 48234567 * i) % 4294967296)) }, {}, {}, {}] } } : State).setAll [(INF_SLOT_PROG.CLMASK 2, 3), (INF_SLOT_PROG.NACT 2, 2), (INF_SLOT_CTL.ACC 2, 1), (INF_OUT_CFG.SLOT 6, 2), (INF_OUT_CFG.KIND 6, 1)], 2, { corrected := 0, uncorr := false }, [], { rep := 1 }, (List.map (fun x => x) ([16] ++ List.replicate 3 0 ++ [3, 16] ++ List.replicate 46 0 ++ [14, 1, 2] ++ List.replicate 73 0)), by and_intros <;> decide +kernel⟩

set_option maxRecDepth 1000000 in
/-- InfuserOperationsIssue, clause 20: a state and operands that meet the hypotheses. -/
theorem test_InfuserOperationsIssue_20 : ∃ (s : State) (n : Fin 16) (ecc : Ecc) (bad : List (Fin 65536)) (r : InfRun) (b : List Byte), s.inf.slots.length = 16 ∧ (s.islot n.val).run = some r ∧ r.done = false ∧ r.pend = [] ∧ ecc = { corrected := 0, uncorr := false } ∧ bad = [] ∧ s.groupFrom n.val r.bundle 5 = [b] ∧ s.groupCauses n.val r.bundle r.rep [b] false = [] ∧ leAt b 5 1 = 16 ∧ leAt b 52 1 = 17 :=
  ⟨({ State.reset with pwr := { toppwrEn := true, toppwrGood := true, topRst := false }, mem := memStore (memStore (memStore ([]) (slotBase 2 + 32) [0, 0, 0, 0, 0, 16]) (slotBase 2 + 64) [0, 0, 0, 0, 0, 16, 0, 0, 0, 0, 0, 0, 0, 16]) (slotBase 2 + 0x2400) ([16] ++ List.replicate 3 0 ++ [3, 16] ++ List.replicate 46 0 ++ [17, 1, 2] ++ List.replicate 2 0 ++ [36] ++ List.replicate 70 0), inf := { slots := modAt (List.replicate 16 {}) 2 (fun _ => { run := some { rep := 1 } }), cls := [{ regs := (List.range 96).map (fun i => (keyLane 2 0 + i, (1077936128 + 48234567 * i) % 4294967296)) }, {}, {}, {}] } } : State).setAll [(INF_SLOT_PROG.CLMASK 2, 3), (INF_SLOT_PROG.NACT 2, 2), (INF_SLOT_CTL.ACC 2, 1), (INF_OUT_CFG.SLOT 6, 2), (INF_OUT_CFG.KIND 6, 1)], 2, { corrected := 0, uncorr := false }, [], { rep := 1 }, (List.map (fun x => x) ([16] ++ List.replicate 3 0 ++ [3, 16] ++ List.replicate 46 0 ++ [17, 1, 2] ++ List.replicate 2 0 ++ [36] ++ List.replicate 70 0)), by and_intros <;> decide +kernel⟩

set_option maxRecDepth 1000000 in
/-- InfuserOperationsIssue, clause 21: a state and operands that meet the hypotheses. -/
theorem test_InfuserOperationsIssue_21 : ∃ (s : State) (n : Fin 16) (ecc : Ecc) (bad : List (Fin 65536)) (r : InfRun) (b : List Byte), s.inf.slots.length = 16 ∧ (s.islot n.val).run = some r ∧ r.done = false ∧ r.pend = [] ∧ ecc = { corrected := 0, uncorr := false } ∧ bad = [] ∧ s.groupFrom n.val r.bundle 5 = [b] ∧ s.groupCauses n.val r.bundle r.rep [b] false = [] ∧ leAt b 5 1 = 16 ∧ leAt b 52 1 = 18 ∧ (List.range 32).any (fun l => (dec32 (s.lane (bCl b) (leAt b 54 1) l)).isNone) = true :=
  ⟨({ State.reset with pwr := { toppwrEn := true, toppwrGood := true, topRst := false }, mem := memStore (memStore (memStore ([]) (slotBase 2 + 32) [0, 0, 0, 0, 0, 16]) (slotBase 2 + 64) [0, 0, 0, 0, 0, 16, 0, 0, 0, 0, 0, 0, 0, 16]) (slotBase 2 + 0x2400) ([16] ++ List.replicate 3 0 ++ [3, 16] ++ List.replicate 46 0 ++ [18, 1, 2] ++ List.replicate 73 0), inf := { slots := modAt (List.replicate 16 {}) 2 (fun _ => { run := some { rep := 1 } }), cls := [{ regs := (List.range 32).map (fun l => (keyLane 2 l, if l = 7 then 2143289344 else 1065353216 + 4096 * l)) }, {}, {}, {}] } } : State).setAll [(INF_SLOT_PROG.CLMASK 2, 3), (INF_SLOT_PROG.NACT 2, 2), (INF_SLOT_CTL.ACC 2, 1), (INF_OUT_CFG.SLOT 6, 2), (INF_OUT_CFG.KIND 6, 1)], 2, { corrected := 0, uncorr := false }, [], { rep := 1 }, (List.map (fun x => x) ([16] ++ List.replicate 3 0 ++ [3, 16] ++ List.replicate 46 0 ++ [18, 1, 2] ++ List.replicate 73 0)), by and_intros <;> decide +kernel⟩

set_option maxRecDepth 1000000 in
/-- InfuserOperationsIssue, clause 22: a state and operands that meet the hypotheses. -/
theorem test_InfuserOperationsIssue_22 : ∃ (s : State) (n : Fin 16) (ecc : Ecc) (bad : List (Fin 65536)) (r : InfRun) (b : List Byte) (k : Nat) (X : Dy) (e : Int), s.inf.slots.length = 16 ∧ (s.islot n.val).run = some r ∧ r.done = false ∧ r.pend = [] ∧ ecc = { corrected := 0, uncorr := false } ∧ bad = [] ∧ s.groupFrom n.val r.bundle 5 = [b] ∧ s.groupCauses n.val r.bundle r.rep [b] false = [] ∧ leAt b 5 1 = 16 ∧ leAt b 52 1 = 18 ∧ k < 32 ∧ dec32 (s.lane (bCl b) (leAt b 54 1) k) = some X ∧ X.m ≠ 0 ∧ e = clampI (-127) 127 ((Nat.log2 X.m : Int) + X.e - 2) ∧ (∀ l < 32, dec32 (s.lane (bCl b) (leAt b 54 1) l) ≠ none) ∧ (∀ l < 32, ∀ x ∈ dec32 (s.lane (bCl b) (leAt b 54 1) l), ({ X with neg := false } : Dy).lt { x with neg := false } = false) :=
  ⟨({ State.reset with pwr := { toppwrEn := true, toppwrGood := true, topRst := false }, mem := memStore (memStore (memStore ([]) (slotBase 2 + 32) [0, 0, 0, 0, 0, 16]) (slotBase 2 + 64) [0, 0, 0, 0, 0, 16, 0, 0, 0, 0, 0, 0, 0, 16]) (slotBase 2 + 0x2400) ([16] ++ List.replicate 3 0 ++ [3, 16] ++ List.replicate 46 0 ++ [18, 1, 2] ++ List.replicate 2 0 ++ [128] ++ List.replicate 70 0), inf := { slots := modAt (List.replicate 16 {}) 2 (fun _ => { run := some { rep := 1 } }), cls := [{ regs := (List.range 32).map (fun l => (keyLane 2 l, [1083703296, 3237789696, 1089680179, 1050253722].getD l 0)) }, {}, {}, {}] } } : State).setAll [(INF_SLOT_PROG.CLMASK 2, 3), (INF_SLOT_PROG.NACT 2, 2), (INF_SLOT_CTL.ACC 2, 1), (INF_OUT_CFG.SLOT 6, 2), (INF_OUT_CFG.KIND 6, 1)], 2, { corrected := 0, uncorr := false }, [], { rep := 1 }, (List.map (fun x => x) ([16] ++ List.replicate 3 0 ++ [3, 16] ++ List.replicate 46 0 ++ [18, 1, 2] ++ List.replicate 2 0 ++ [128] ++ List.replicate 70 0)), 1, (dec32 3237789696).getD Dy.zero, 0, by and_intros <;> decide +kernel⟩

set_option maxRecDepth 1000000 in
/-- InfuserOperationsIssue, clause 23: a state and operands that meet the hypotheses. -/
theorem test_InfuserOperationsIssue_23 : ∃ (s : State) (n : Fin 16) (ecc : Ecc) (bad : List (Fin 65536)) (r : InfRun) (b : List Byte), s.inf.slots.length = 16 ∧ (s.islot n.val).run = some r ∧ r.done = false ∧ r.pend = [] ∧ ecc = { corrected := 0, uncorr := false } ∧ bad = [] ∧ s.groupFrom n.val r.bundle 5 = [b] ∧ s.groupCauses n.val r.bundle r.rep [b] false = [] ∧ leAt b 5 1 = 16 ∧ leAt b 52 1 = 19 :=
  ⟨({ State.reset with pwr := { toppwrEn := true, toppwrGood := true, topRst := false }, mem := memStore (memStore (memStore (memStore [] 0x0210000008 [1, 2, 3, 4, 5, 6, 7, 8, 9, 10, 11, 12]) (slotBase 2 + 32) [0, 0, 0, 0, 0, 16]) (slotBase 2 + 64) [0, 0, 0, 0, 0, 16, 0, 0, 0, 0, 0, 0, 0, 16]) (slotBase 2 + 0x2400) ([16] ++ List.replicate 3 0 ++ [3, 16] ++ List.replicate 46 0 ++ [19, 1, 2] ++ List.replicate 2 0 ++ [128] ++ List.replicate 2 0 ++ [8] ++ List.replicate 67 0), inf := { slots := modAt (List.replicate 16 {}) 2 (fun _ => { run := some { rep := 1 } }), cls := [{ regs := (List.range 32).map (fun l => (keyLane 2 l, l % 3)) }, {}, {}, {}] } } : State).setAll [(INF_SLOT_PROG.CLMASK 2, 3), (INF_SLOT_PROG.NACT 2, 2), (INF_SLOT_CTL.ACC 2, 1), (INF_OUT_CFG.SLOT 6, 2), (INF_OUT_CFG.KIND 6, 1)], 2, { corrected := 0, uncorr := false }, [], { rep := 1 }, (List.map (fun x => x) ([16] ++ List.replicate 3 0 ++ [3, 16] ++ List.replicate 46 0 ++ [19, 1, 2] ++ List.replicate 2 0 ++ [128] ++ List.replicate 2 0 ++ [8] ++ List.replicate 67 0)), by and_intros <;> decide +kernel⟩

set_option maxRecDepth 1000000 in
/-- InfuserOperationsIssue, clause 24: a state and operands that meet the hypotheses. -/
theorem test_InfuserOperationsIssue_24 : ∃ (s : State) (n : Fin 16) (ecc : Ecc) (bad : List (Fin 65536)) (r : InfRun) (b : List Byte), s.inf.slots.length = 16 ∧ (s.islot n.val).run = some r ∧ r.done = false ∧ r.pend = [] ∧ ecc = { corrected := 0, uncorr := false } ∧ bad = [] ∧ s.groupFrom n.val r.bundle 5 = [b] ∧ s.groupCauses n.val r.bundle r.rep [b] false = [] ∧ leAt b 5 1 = 1 :=
  ⟨({ State.reset with pwr := { toppwrEn := true, toppwrGood := true, topRst := false }, mem := memStore (memStore (memStore (memStore [] 0x0210000080 [1, 2, 3, 4, 5, 6, 7, 8, 9, 10, 11, 12]) (slotBase 2 + 32) [0, 0, 0, 0, 0, 16]) (slotBase 2 + 64) [0, 0, 0, 0, 0, 16, 0, 0, 0, 0, 0, 0, 0, 16]) (slotBase 2 + 0x2400) ([16] ++ List.replicate 3 0 ++ [3, 1] ++ List.replicate 2 0 ++ [64] ++ List.replicate 3 0 ++ [8] ++ List.replicate 3 0 ++ [1] ++ List.replicate 1 0 ++ [6, 1] ++ List.replicate 108 0), inf := { slots := modAt (List.replicate 16 {}) 2 (fun _ => { run := some { rep := 1 } }), cls := [{ regs := [] }, {}, {}, {}] } } : State).setAll [(INF_SLOT_PROG.CLMASK 2, 3), (INF_SLOT_PROG.NACT 2, 2), (INF_SLOT_CTL.ACC 2, 1), (INF_OUT_CFG.SLOT 6, 2), (INF_OUT_CFG.KIND 6, 1)], 2, { corrected := 0, uncorr := false }, [], { rep := 1 }, (List.map (fun x => x) ([16] ++ List.replicate 3 0 ++ [3, 1] ++ List.replicate 2 0 ++ [64] ++ List.replicate 3 0 ++ [8] ++ List.replicate 3 0 ++ [1] ++ List.replicate 1 0 ++ [6, 1] ++ List.replicate 108 0)), by and_intros <;> decide +kernel⟩

set_option maxRecDepth 1000000 in
/-- InfuserOperationsIssue, clause 25: a state and operands that meet the hypotheses. -/
theorem test_InfuserOperationsIssue_25 : ∃ (s : State) (n : Fin 16) (ecc : Ecc) (bad : List (Fin 65536)) (r : InfRun) (b : List Byte), s.inf.slots.length = 16 ∧ (s.islot n.val).run = some r ∧ r.done = false ∧ r.pend = [] ∧ ecc = { corrected := 0, uncorr := false } ∧ bad = [] ∧ s.groupFrom n.val r.bundle 5 = [b] ∧ s.groupCauses n.val r.bundle r.rep [b] false = [] ∧ leAt b 5 1 = 4 ∧ leAt b 40 1 < 16 :=
  ⟨({ State.reset with pwr := { toppwrEn := true, toppwrGood := true, topRst := false }, mem := memStore (memStore (memStore (memStore [] 0x0220000104 [1, 2, 3, 4, 5, 6, 7, 8, 9, 10, 11, 12]) (slotBase 2 + 32) [0, 0, 0, 0, 0, 16]) (slotBase 2 + 64) [0, 0, 0, 0, 0, 16, 0, 0, 0, 0, 0, 0, 0, 16]) (slotBase 2 + 0x2400) ([16] ++ List.replicate 3 0 ++ [3, 4] ++ List.replicate 30 0 ++ [128] ++ List.replicate 3 0 ++ [15, 1] ++ List.replicate 86 0), inf := { slots := modAt (List.replicate 16 {}) 2 (fun _ => { run := some { rep := 1 } }), cls := [{ regs := [] }, {}, {}, {}] } } : State).setAll [(INF_SLOT_PROG.CLMASK 2, 3), (INF_SLOT_PROG.NACT 2, 2), (INF_SLOT_CTL.ACC 2, 1), (INF_OUT_CFG.SLOT 6, 2), (INF_OUT_CFG.KIND 6, 1)], 2, { corrected := 0, uncorr := false }, [], { rep := 1 }, (List.map (fun x => x) ([16] ++ List.replicate 3 0 ++ [3, 4] ++ List.replicate 30 0 ++ [128] ++ List.replicate 3 0 ++ [15, 1] ++ List.replicate 86 0)), by and_intros <;> decide +kernel⟩

set_option maxRecDepth 1000000 in
/-- InfuserOperationsIssue, clause 26: a state and operands that meet the hypotheses. -/
theorem test_InfuserOperationsIssue_26 : ∃ (s : State) (n : Fin 16) (ecc : Ecc) (bad : List (Fin 65536)) (r : InfRun) (b : List Byte), s.inf.slots.length = 16 ∧ (s.islot n.val).run = some r ∧ r.done = false ∧ r.pend = [] ∧ ecc = { corrected := 0, uncorr := false } ∧ bad = [] ∧ s.groupFrom n.val r.bundle 5 = [b] ∧ s.groupCauses n.val r.bundle r.rep [b] false = [] ∧ leAt b 5 1 = 4 ∧ leAt b 40 1 = 16 :=
  ⟨({ State.reset with pwr := { toppwrEn := true, toppwrGood := true, topRst := false }, mem := memStore (memStore (memStore (memStore [] 0x0220000104 [1, 2, 3, 4, 5, 6, 7, 8, 9, 10, 11, 12]) (slotBase 2 + 32) [0, 0, 0, 0, 0, 16]) (slotBase 2 + 64) [0, 0, 0, 0, 0, 16, 0, 0, 0, 0, 0, 0, 0, 16]) (slotBase 2 + 0x2400) ([16] ++ List.replicate 3 0 ++ [3, 4] ++ List.replicate 30 0 ++ [128] ++ List.replicate 3 0 ++ [16, 1] ++ List.replicate 86 0), inf := { slots := modAt (List.replicate 16 {}) 2 (fun _ => { run := some { rep := 1 } }), cls := [{ regs := [] }, {}, {}, {}] } } : State).setAll [(INF_SLOT_PROG.CLMASK 2, 3), (INF_SLOT_PROG.NACT 2, 2), (INF_SLOT_CTL.ACC 2, 1), (INF_OUT_CFG.SLOT 6, 2), (INF_OUT_CFG.KIND 6, 1)], 2, { corrected := 0, uncorr := false }, [], { rep := 1 }, (List.map (fun x => x) ([16] ++ List.replicate 3 0 ++ [3, 4] ++ List.replicate 30 0 ++ [128] ++ List.replicate 3 0 ++ [16, 1] ++ List.replicate 86 0)), by and_intros <;> decide +kernel⟩

set_option maxRecDepth 1000000 in
/-- InfuserOperationsIssue, clause 27: a state and operands that meet the hypotheses. -/
theorem test_InfuserOperationsIssue_27 : ∃ (s : State) (n : Fin 16) (ecc : Ecc) (bad : List (Fin 65536)) (r : InfRun) (b : List Byte) (wid : Nat), s.inf.slots.length = 16 ∧ (s.islot n.val).run = some r ∧ r.done = false ∧ r.pend = [] ∧ ecc = { corrected := 0, uncorr := false } ∧ bad = [] ∧ s.groupFrom n.val r.bundle 5 = [b] ∧ s.groupCauses n.val r.bundle r.rep [b] false = [] ∧ leAt b 5 1 = 8 ∧ wid = (if leAt b 49 1 = 0 then 128 else if leAt b 49 1 = 1 then 64 else 32) :=
  ⟨({ State.reset with pwr := { toppwrEn := true, toppwrGood := true, topRst := false }, mem := memStore (memStore (memStore ([]) (slotBase 2 + 32) [0, 0, 0, 0, 0, 16]) (slotBase 2 + 64) [0, 0, 0, 0, 0, 16, 0, 0, 0, 0, 0, 0, 0, 16]) (slotBase 2 + 0x2400) ([16] ++ List.replicate 3 0 ++ [3, 8] ++ List.replicate 38 0 ++ [64] ++ List.replicate 3 0 ++ [1, 1] ++ List.replicate 78 0), inf := { slots := modAt (List.replicate 16 {}) 2 (fun _ => { run := some { rep := 1 } }), cls := [{ regs := (List.range 96).map (fun i => (keyLane 2 0 + i, (1077936128 + 48234567 * i) % 4294967296)) }, {}, {}, {}] } } : State).setAll [(INF_SLOT_PROG.CLMASK 2, 3), (INF_SLOT_PROG.NACT 2, 2), (INF_SLOT_CTL.ACC 2, 1), (INF_OUT_CFG.SLOT 6, 2), (INF_OUT_CFG.KIND 6, 1)], 2, { corrected := 0, uncorr := false }, [], { rep := 1 }, (List.map (fun x => x) ([16] ++ List.replicate 3 0 ++ [3, 8] ++ List.replicate 38 0 ++ [64] ++ List.replicate 3 0 ++ [1, 1] ++ List.replicate 78 0)), 64, by and_intros <;> decide +kernel⟩

set_option maxRecDepth 1000000 in
/-- InfuserOperationsIssue, clause 28: a state and operands that meet the hypotheses. -/
theorem test_InfuserOperationsIssue_28 : ∃ (s : State) (n : Fin 16) (ecc : Ecc) (bad : List (Fin 65536)) (r : InfRun) (b : List Byte), s.inf.slots.length = 16 ∧ (s.islot n.val).run = some r ∧ r.done = false ∧ r.pend = [] ∧ ecc = { corrected := 0, uncorr := false } ∧ bad = [] ∧ s.groupFrom n.val r.bundle 5 = [b] ∧ s.groupCauses n.val r.bundle r.rep [b] false = [] ∧ leAt b 5 1 = 32 :=
  ⟨({ State.reset with pwr := { toppwrEn := true, toppwrGood := true, topRst := false }, mem := memStore (memStore (memStore (memStore (memStore [] (descAddr 8232) [0x03]) (descAddr 8233) ([0x03] ++ List.replicate 15 0 ++ [0x03])) (slotBase 2 + 32) [0, 0, 0, 0, 0, 16]) (slotBase 2 + 64) [0, 0, 0, 0, 0, 16, 0, 0, 0, 0, 0, 0, 0, 16]) (slotBase 2 + 0x2400) ([16] ++ List.replicate 3 0 ++ [3, 32] ++ List.replicate 58 0 ++ [40, 0, 41, 128, 16] ++ List.replicate 3 0 ++ [2, 1] ++ List.replicate 54 0), inf := { slots := modAt (List.replicate 16 {}) 2 (fun _ => { run := some { rep := 1 } }), cls := [{ regs := [] }, {}, {}, {}] } } : State).setAll [(INF_SLOT_PROG.CLMASK 2, 3), (INF_SLOT_PROG.NACT 2, 2), (INF_SLOT_CTL.ACC 2, 1), (INF_OUT_CFG.SLOT 6, 2), (INF_OUT_CFG.KIND 6, 1)], 2, { corrected := 0, uncorr := false }, [], { rep := 1 }, (List.map (fun x => x) ([16] ++ List.replicate 3 0 ++ [3, 32] ++ List.replicate 58 0 ++ [40, 0, 41, 128, 16] ++ List.replicate 3 0 ++ [2, 1] ++ List.replicate 54 0)), by and_intros <;> decide +kernel⟩

set_option maxRecDepth 1000000 in
/-- InfuserOperationsIssue, clause 29: a state and operands that meet the hypotheses. -/
theorem test_InfuserOperationsIssue_29 : ∃ (s : State) (n : Fin 16) (ecc : Ecc) (bad : List (Fin 65536)) (r : InfRun) (b : List Byte), s.inf.slots.length = 16 ∧ (s.islot n.val).run = some r ∧ r.done = false ∧ r.pend = [] ∧ ecc = { corrected := 0, uncorr := false } ∧ bad = [] ∧ s.groupFrom n.val r.bundle 5 = [b] ∧ s.groupCauses n.val r.bundle r.rep [b] false = [] ∧ leAt b 5 1 = 64 :=
  ⟨({ State.reset with pwr := { toppwrEn := true, toppwrGood := true, topRst := false }, mem := memStore (memStore (memStore ([]) (slotBase 2 + 32) [0, 0, 0, 0, 0, 16]) (slotBase 2 + 64) [0, 0, 0, 0, 0, 16, 0, 0, 0, 0, 0, 0, 0, 16]) (slotBase 2 + 0x2400) ([16] ++ List.replicate 3 0 ++ [3, 64] ++ List.replicate 70 0 ++ [1, 1] ++ List.replicate 2 0 ++ [128] ++ List.replicate 47 0), inf := { slots := modAt (List.replicate 16 {}) 2 (fun _ => { run := some { rep := 1 } }), cls := [{ regs := (List.range 96).map (fun i => (keyLane 2 0 + i, (1077936128 + 48234567 * i) % 4294967296)) }, {}, {}, {}] } } : State).setAll [(INF_SLOT_PROG.CLMASK 2, 3), (INF_SLOT_PROG.NACT 2, 2), (INF_SLOT_CTL.ACC 2, 1), (INF_OUT_CFG.SLOT 6, 2), (INF_OUT_CFG.KIND 6, 1)], 2, { corrected := 0, uncorr := false }, [], { rep := 1 }, (List.map (fun x => x) ([16] ++ List.replicate 3 0 ++ [3, 64] ++ List.replicate 70 0 ++ [1, 1] ++ List.replicate 2 0 ++ [128] ++ List.replicate 47 0)), by and_intros <;> decide +kernel⟩

set_option maxRecDepth 1000000 in
/-- InfuserOperationsIssue, clause 30: a state and operands that meet the hypotheses. -/
theorem test_InfuserOperationsIssue_30 : ∃ (s : State) (n : Fin 16) (ecc : Ecc) (bad : List (Fin 65536)) (r : InfRun) (b : List Byte), s.inf.slots.length = 16 ∧ (s.islot n.val).run = some r ∧ r.done = false ∧ r.pend = [] ∧ ecc = { corrected := 0, uncorr := false } ∧ bad = [] ∧ s.groupFrom n.val r.bundle 5 = [b] ∧ s.groupCauses n.val r.bundle r.rep [b] false = [] ∧ leAt b 5 1 = 128 ∧ leAt b 86 1 % 32 + (if bitOf (leAt b 86 1) 6 then r.rep else 0) < 32 :=
  ⟨({ State.reset with pwr := { toppwrEn := true, toppwrGood := true, topRst := false }, mem := memStore (memStore (memStore ([]) (slotBase 2 + 32) [0, 0, 0, 0, 0, 16]) (slotBase 2 + 64) [0, 0, 0, 0, 0, 16, 0, 0, 0, 0, 0, 0, 0, 16]) (slotBase 2 + 0x2400) ([16] ++ List.replicate 3 0 ++ [3, 128] ++ List.replicate 78 0 ++ [5, 2, 99] ++ List.replicate 41 0), inf := { slots := modAt (List.replicate 16 {}) 2 (fun _ => { run := some { rep := 1 } }), cls := [{ regs := (List.range 96).map (fun i => (keyLane 2 0 + i, (1077936128 + 48234567 * i) % 4294967296)) }, {}, {}, {}] } } : State).setAll [(INF_SLOT_PROG.CLMASK 2, 3), (INF_SLOT_PROG.NACT 2, 2), (INF_SLOT_CTL.ACC 2, 1), (INF_OUT_CFG.SLOT 6, 2), (INF_OUT_CFG.KIND 6, 1)], 2, { corrected := 0, uncorr := false }, [], { rep := 1 }, (List.map (fun x => x) ([16] ++ List.replicate 3 0 ++ [3, 128] ++ List.replicate 78 0 ++ [5, 2, 99] ++ List.replicate 41 0)), by and_intros <;> decide +kernel⟩

set_option maxRecDepth 1000000 in
/-- HintsAreJudgedAndFire, clause 1: a state and operands that meet the hypotheses. -/
theorem test_HintsAreJudgedAndFire_1 : ∃ (s : State) (m : TmpMsg) (n : Nat) (e : List Byte), s.msgPasses n tyHint m = true ∧ m.payload = [1, 0, 0, 0] ++ e ∧ s.hintCheck n (leAt e 2 2) (leAt e 0 1) (leAt e 8 8) = 0 ∧ (s.sigWays (leAt e 0 1) (leAt e 4 4) = [] → s.on (HNT_ACC_CFG.MISS_TRIG (leAt e 0 1)) = true) ∧ (s.sigWays (leAt e 0 1) (leAt e 4 4)).length ≤ 1 :=
  ⟨State.reset.setAll [(NET_STS.STATE 0, 3), (SESS_STS.STATE 3, 2), (SESS_SID.SID 3, 5), (SESS_STS.CLASSES 3, 7), (SESS_MASK.ACC_MASK 3, 255), (SESS_MASK.ZONE_MASK 3, 255), (SESS_MASK.PUMP_MASK 3, 63), (SESS_VER.VMAJ 3, 1), (ACD_INFO.ACC_COUNT, 8), (HNT_CTL.EN, 1), (HNT_ACC_CFG.EN 2, 1), (HNT_ACC_CFG.MISS_TRIG 2, 1)], { peer := { port := 0, v6 := false, mac := 0, ip := 0, udp := 0 }, vmaj := 1, vmin := 0, sid := 5, seq := 1, payload := ([1, 0, 0, 0] ++ [2, 0, 9, 0, 7, 0, 0, 0, 0x40, 0x42, 0x0F, 0, 0, 0, 0, 0] : List Byte) }, 3, [2, 0, 9, 0, 7, 0, 0, 0, 0x40, 0x42, 0x0F, 0, 0, 0, 0, 0], by and_intros <;> decide +kernel⟩

set_option maxRecDepth 1000000 in
/-- HintsAreJudgedAndFire, clause 2: a state and operands that meet the hypotheses. -/
theorem test_HintsAreJudgedAndFire_2 : ∃ (s : State) (m : TmpMsg) (n : Nat) (e : List Byte) (c : Nat), s.msgPasses n tyHint m = true ∧ m.payload = [1, 0, 0, 0] ++ e ∧ s.hintCheck n (leAt e 2 2) (leAt e 0 1) (leAt e 8 8) = c ∧ c ≠ 0 :=
  ⟨State.reset.setAll [(NET_STS.STATE 0, 3), (SESS_STS.STATE 3, 2), (SESS_SID.SID 3, 5), (SESS_STS.CLASSES 3, 7), (SESS_MASK.ACC_MASK 3, 255), (SESS_MASK.ZONE_MASK 3, 255), (SESS_MASK.PUMP_MASK 3, 63), (SESS_VER.VMAJ 3, 1), (ACD_INFO.ACC_COUNT, 8)], { peer := { port := 0, v6 := false, mac := 0, ip := 0, udp := 0 }, vmaj := 1, vmin := 0, sid := 5, seq := 1, payload := ([1, 0, 0, 0] ++ [2, 0, 9, 0, 7, 0, 0, 0, 0x40, 0x42, 0x0F, 0, 0, 0, 0, 0] : List Byte) }, 3, [2, 0, 9, 0, 7, 0, 0, 0, 0x40, 0x42, 0x0F, 0, 0, 0, 0, 0], 1, by and_intros <;> decide +kernel⟩

set_option maxRecDepth 1000000 in
/-- HintsAreJudgedAndFire, clause 3: a state and operands that meet the hypotheses. -/
theorem test_HintsAreJudgedAndFire_3 : ∃ (s : State) (m : TmpMsg) (n : Nat) (e : List Byte), s.msgPasses n tyHintCancel m = true ∧ m.payload = [1, 0, 0, 0] ++ e ∧ s.inf.hints.any (fun h => h.session == n && h.hid == leAt e 2 2) = true :=
  ⟨({ State.reset with inf := { hints := [{ session := 3, hid := 9, acc := 2, model := 7, due := 1000000, trig := 5, slot := 2, lead := 0, miss := true, late := false, sigRow := 0, pStep := 0, params := [0, 0, 0], rev := 0, fireTs := 0, fireFb := false }] } } : State).setAll [(NET_STS.STATE 0, 3), (SESS_STS.STATE 3, 2), (SESS_SID.SID 3, 5), (SESS_STS.CLASSES 3, 7), (SESS_MASK.ACC_MASK 3, 255), (SESS_MASK.ZONE_MASK 3, 255), (SESS_MASK.PUMP_MASK 3, 63), (SESS_VER.VMAJ 3, 1), (ACD_INFO.ACC_COUNT, 8)], { peer := { port := 0, v6 := false, mac := 0, ip := 0, udp := 0 }, vmaj := 1, vmin := 0, sid := 5, seq := 1, payload := ([1, 0, 0, 0, 2, 0, 9, 0] : List Byte) }, 3, [2, 0, 9, 0], by and_intros <;> decide +kernel⟩

set_option maxRecDepth 1000000 in
/-- HintsAreJudgedAndFire, clause 4: a state and operands that meet the hypotheses. -/
theorem test_HintsAreJudgedAndFire_4 : ∃ (s : State) (m : TmpMsg) (n : Nat) (e : List Byte), s.msgPasses n tyHintCancel m = true ∧ m.payload = [1, 0, 0, 0] ++ e ∧ s.inf.hints.any (fun h => h.session == n && h.hid == leAt e 2 2) = false :=
  ⟨State.reset.setAll [(NET_STS.STATE 0, 3), (SESS_STS.STATE 3, 2), (SESS_SID.SID 3, 5), (SESS_STS.CLASSES 3, 7), (SESS_MASK.ACC_MASK 3, 255), (SESS_MASK.ZONE_MASK 3, 255), (SESS_MASK.PUMP_MASK 3, 63), (SESS_VER.VMAJ 3, 1), (ACD_INFO.ACC_COUNT, 8)], { peer := { port := 0, v6 := false, mac := 0, ip := 0, udp := 0 }, vmaj := 1, vmin := 0, sid := 5, seq := 1, payload := ([1, 0, 0, 0, 2, 0, 9, 0] : List Byte) }, 3, [2, 0, 9, 0], by and_intros <;> decide +kernel⟩

set_option maxRecDepth 1000000 in
/-- HintsAreJudgedAndFire, clause 5: a state and operands that meet the hypotheses. -/
theorem test_HintsAreJudgedAndFire_5 : ∃ (s : State) (h : Hint), s.on HNT_STS.HELD = false ∧ s.inf.hints = [h] ∧ h.trig ≤ s.topNow ∧ s.hintBad h = 0 :=
  ⟨({ State.reset with time := { ts := 1280 * 7000 }, mem := memStore [] (slotBase 2 + 16) [1], inf := { hints := [{ session := 3, hid := 9, acc := 2, model := 7, due := 1000000, trig := 5, slot := 2, lead := 0, miss := true, late := false, sigRow := 0, pStep := 0, params := [0, 0, 0], rev := 0, fireTs := 0, fireFb := false }] } } : State).setAll [(INF_SLOT_STS.STATE 2, 2), (INF_SLOT_CTL.TRIG_EN 2, 1), (INF_SLOT_CTL.ACC 2, 2)], { session := 3, hid := 9, acc := 2, model := 7, due := 1000000, trig := 5, slot := 2, lead := 0, miss := true, late := false, sigRow := 0, pStep := 0, params := [0, 0, 0], rev := 0, fireTs := 0, fireFb := false }, by and_intros <;> decide +kernel⟩

set_option maxRecDepth 1000000 in
/-- HintsAreJudgedAndFire, clause 6: a state and operands that meet the hypotheses. -/
theorem test_HintsAreJudgedAndFire_6 : ∃ (s : State) (h : Hint), s.on HNT_STS.HELD = false ∧ s.inf.hints = [h] ∧ h.trig ≤ s.topNow ∧ s.hintBad h ≠ 0 ∧ (s.islot h.slot).run = none :=
  ⟨({ State.reset with time := { ts := 1280 * 7000 }, inf := { hints := [{ session := 3, hid := 9, acc := 2, model := 7, due := 1000000, trig := 5, slot := 2, lead := 0, miss := true, late := false, sigRow := 0, pStep := 0, params := [0, 0, 0], rev := 0, fireTs := 0, fireFb := false }] } } : State), { session := 3, hid := 9, acc := 2, model := 7, due := 1000000, trig := 5, slot := 2, lead := 0, miss := true, late := false, sigRow := 0, pStep := 0, params := [0, 0, 0], rev := 0, fireTs := 0, fireFb := false }, by and_intros <;> decide +kernel⟩

set_option maxRecDepth 1000000 in
/-- HintsAreJudgedAndFire, clause 7: a state and operands that meet the hypotheses. -/
theorem test_HintsAreJudgedAndFire_7 : ∃ (s : State), s.on HNT_STS.HELD = true :=
  ⟨({ State.reset with inf := { hints := [{ session := 3, hid := 9, acc := 2, model := 7, due := 1000000, trig := 5, slot := 2, lead := 0, miss := true, late := false, sigRow := 0, pStep := 0, params := [0, 0, 0], rev := 0, fireTs := 0, fireFb := false }] } } : State).set HNT_STS.HELD 1, by decide +kernel⟩

set_option maxRecDepth 1000000 in
/-- HintsAreJudgedAndFire, clause 8: a state and operands that meet the hypotheses. -/
theorem test_HintsAreJudgedAndFire_8 : ∃ (s : State) (h : Hint) (k : Nat), s.inf.slots.length = 16 ∧ h.slot < 16 ∧ s.mailboxNext = some h ∧ s.on HNT_STS.HELD = false ∧ s.hintBad h = 0 ∧ s.loadWord (s.mboxAddr h.slot) = k ∧ s.portShut (s.mboxCluster h.slot) = false :=
  ⟨({ State.reset with mem := memStore [] (slotBase 2 + 16) [1], inf := { firing := [{ session := 3, hid := 9, acc := 2, model := 7, due := 1000000, trig := 5, slot := 2, lead := 0, miss := true, late := false, sigRow := 0, pStep := 0, params := [0, 0, 0], rev := 0, fireTs := 0, fireFb := false }] } } : State).setAll [(INF_SLOT_STS.STATE 2, 2), (INF_SLOT_CTL.TRIG_EN 2, 1), (INF_SLOT_CTL.ACC 2, 2)], { session := 3, hid := 9, acc := 2, model := 7, due := 1000000, trig := 5, slot := 2, lead := 0, miss := true, late := false, sigRow := 0, pStep := 0, params := [0, 0, 0], rev := 0, fireTs := 0, fireFb := false }, 0, by and_intros <;> decide +kernel⟩

set_option maxRecDepth 1000000 in
/-- HintsAreJudgedAndFire, clause 9: a state and operands that meet the hypotheses. -/
theorem test_HintsAreJudgedAndFire_9 : ∃ (s : State) (h : Hint) (k : Nat), s.inf.slots.length = 16 ∧ h.slot < 16 ∧ s.mailboxNext = some h ∧ s.on HNT_STS.HELD = false ∧ s.hintBad h = 0 ∧ s.loadWord (s.mboxAddr h.slot) = k ∧ s.gated (s.mboxCluster h.slot) = true :=
  ⟨({ State.reset with mem := memStore [] (slotBase 2 + 16) [1], inf := { firing := [{ session := 3, hid := 9, acc := 2, model := 7, due := 1000000, trig := 5, slot := 2, lead := 0, miss := true, late := false, sigRow := 0, pStep := 0, params := [0, 0, 0], rev := 0, fireTs := 0, fireFb := false }] } } : State).setAll [(INF_SLOT_STS.STATE 2, 2), (INF_SLOT_CTL.TRIG_EN 2, 1), (INF_SLOT_CTL.ACC 2, 2), (CLK_GATE_STS.GATED, 15)], { session := 3, hid := 9, acc := 2, model := 7, due := 1000000, trig := 5, slot := 2, lead := 0, miss := true, late := false, sigRow := 0, pStep := 0, params := [0, 0, 0], rev := 0, fireTs := 0, fireFb := false }, 0, by and_intros <;> decide +kernel⟩

set_option maxRecDepth 1000000 in
/-- HintsAreJudgedAndFire, clause 10: a state and operands that meet the hypotheses. -/
theorem test_HintsAreJudgedAndFire_10 : ∃ (s : State), (s.mailboxNext = none ∨ s.on HNT_STS.HELD = true) :=
  ⟨State.reset, by decide +kernel⟩

set_option maxRecDepth 1000000 in
/-- HintsAreJudgedAndFire, clause 11: a state and operands that meet the hypotheses. -/
theorem test_HintsAreJudgedAndFire_11 : ∃ (s : State), s.pwr.topRst = false :=
  ⟨{ State.reset.setAll [(HNT_ACC_LVL.TOKENS 2, 4)] with pwr := { toppwrEn := true, toppwrGood := true, topRst := false } }, by decide +kernel⟩

set_option maxRecDepth 1000000 in
/-- HintsAreJudgedAndFire, clause 12: a state and operands that meet the hypotheses. -/
theorem test_HintsAreJudgedAndFire_12 : ∃ (s : State), s.pwr.topRst = true :=
  ⟨State.reset, by decide +kernel⟩

set_option maxRecDepth 1000000 in
/-- HintsAreJudgedAndFire, clause 13: a state and operands that meet the hypotheses. -/
theorem test_HintsAreJudgedAndFire_13 : ∃ (s : State) (ini : Initiator), s.judge ini true HNT_CTL.FLUSH.addr = .allowed :=
  ⟨({ State.reset with pwr := { toppwrEn := true, toppwrGood := true, topRst := false }, inf := { hints := [{ session := 3, hid := 9, acc := 2, model := 7, due := 1000000, trig := 5, slot := 2, lead := 0, miss := true, late := false, sigRow := 0, pStep := 0, params := [0, 0, 0], rev := 0, fireTs := 0, fireFb := false }] } } : State), .core 0, by decide +kernel⟩

set_option maxRecDepth 1000000 in
/-- HintsAreJudgedAndFire, clause 14: a state and operands that meet the hypotheses. -/
theorem test_HintsAreJudgedAndFire_14 : ∃ (s : State) (ini : Initiator), s.judge ini true HNT_CNT_CLR.CLR.addr = .allowed :=
  ⟨{ State.reset.setAll [(HNT_ACC_CNT0.FIRED 2, 4)] with pwr := { toppwrEn := true, toppwrGood := true, topRst := false } }, .core 0, by decide +kernel⟩

/-- NetPortsTrain, clause 1: a state and operands that meet the hypotheses. -/
theorem test_NetPortsTrain_1 : ∃ (s : State) (ini : Initiator) (n : Fin 2), s.judge ini true (NET_CTL.START n.val).addr = .allowed ∧ s.on (NET_CFG.EN n.val) = true ∧ s.get (NET_STS.STATE n.val) = 0 ∧ s.baseSrc = srcHost :=
  ⟨{ State.reset.setAll [(NET_CFG.EN 1, 1), (CLK_STS.BASE_SRC, 0)] with pwr := { toppwrEn := true, toppwrGood := true, topRst := false } }, .core 0, 1, by decide⟩

/-- NetPortsTrain, clause 2: a state and operands that meet the hypotheses. -/
theorem test_NetPortsTrain_2 : ∃ (s : State) (ini : Initiator) (n : Fin 2), s.judge ini true (NET_CTL.START n.val).addr = .allowed ∧ s.on (NET_CFG.EN n.val) = true ∧ s.get (NET_STS.STATE n.val) = 0 ∧ s.baseSrc ≠ srcHost :=
  ⟨{ State.reset.setAll [(NET_CFG.EN 1, 1)] with pwr := { toppwrEn := true, toppwrGood := true, topRst := false } }, .core 0, 1, by decide⟩

/-- NetPortsTrain, clause 3: a state and operands that meet the hypotheses. -/
theorem test_NetPortsTrain_3 : ∃ (s : State) (ini : Initiator) (n : Fin 2), s.judge ini true (NET_CTL.START n.val).addr = .allowed ∧ (s.on (NET_CFG.EN n.val) = false ∨ s.get (NET_STS.STATE n.val) ≠ 0) :=
  ⟨{ State.reset.setAll [(NET_CFG.EN 1, 0)] with pwr := { toppwrEn := true, toppwrGood := true, topRst := false } }, .core 0, 1, by decide⟩

/-- NetPortsTrain, clause 4: a state and operands that meet the hypotheses. -/
theorem test_NetPortsTrain_4 : ∃ (s : State) (ini : Initiator) (n : Fin 2), s.judge ini true (NET_CTL.RETRAIN n.val).addr = .allowed ∧ s.get (NET_STS.STATE n.val) ≠ 0 ∧ s.on (NET_CFG.EN n.val) = true ∧ s.on (NET_CTL.START n.val) = true :=
  ⟨{ State.reset.setAll [(NET_CFG.EN 1, 1), (NET_STS.STATE 1, 3), (NET_CTL.START 1, 1)] with pwr := { toppwrEn := true, toppwrGood := true, topRst := false } }, .core 0, 1, by decide⟩

/-- NetPortsTrain, clause 5: a state and operands that meet the hypotheses. -/
theorem test_NetPortsTrain_5 : ∃ (s : State) (ini : Initiator) (n : Fin 2), s.judge ini true (NET_CTL.RETRAIN n.val).addr = .allowed ∧ s.get (NET_STS.STATE n.val) = 0 :=
  ⟨{ State.reset with pwr := { toppwrEn := true, toppwrGood := true, topRst := false } }, .core 0, 1, by decide⟩

/-- NetPortsTrain, clause 6: a state and operands that meet the hypotheses. -/
theorem test_NetPortsTrain_6 : ∃ (s : State) (n : Fin 2), (s.get (NET_STS.STATE n.val) = 1 ∨ s.get (NET_STS.STATE n.val) = 2) :=
  ⟨State.reset.setAll [(NET_STS.STATE 1, 2)], 1, by decide⟩

/-- NetPortsTrain, clause 7: a state and operands that meet the hypotheses. -/
theorem test_NetPortsTrain_7 : ∃ (s : State) (n : Fin 2), s.get (NET_STS.STATE n.val) ≠ 1 ∧ s.get (NET_STS.STATE n.val) ≠ 2 :=
  ⟨State.reset, 1, by decide⟩

/-- NetPortsTrain, clause 8: a state and operands that meet the hypotheses. -/
theorem test_NetPortsTrain_8 : ∃ (s : State) (n : Fin 2), s.get (NET_STS.STATE n.val) = 3 ∧ (n.val = 1 ∨ s.on CLK_CTL.REF_SEL = false) ∧ s.on (NET_CFG.EN n.val) = true ∧ s.on (NET_CTL.START n.val) = true :=
  ⟨State.reset.setAll [(NET_CFG.EN 1, 1), (NET_STS.STATE 1, 3), (NET_CTL.START 1, 1)], 1, by decide⟩

/-- NetPortsTrain, clause 9: a state and operands that meet the hypotheses. -/
theorem test_NetPortsTrain_9 : ∃ (s : State) (n : Fin 2), (s.get (NET_STS.STATE n.val) = 1 ∨ s.get (NET_STS.STATE n.val) = 2) ∧ (n.val = 1 ∨ s.on CLK_CTL.REF_SEL = false) :=
  ⟨State.reset.setAll [(NET_STS.STATE 1, 2)], 1, by decide⟩

/-- NetPortsTrain, clause 10: a state and operands that meet the hypotheses. -/
theorem test_NetPortsTrain_10 : ∃ (s : State) (n : Fin 2), (s.get (NET_STS.STATE n.val) = 0 ∨ s.get (NET_STS.STATE n.val) = 4) :=
  ⟨State.reset, 1, by decide⟩

/-- NetPortsTrain, clause 11: a state and operands that meet the hypotheses. -/
theorem test_NetPortsTrain_11 : ∃ (s : State) (n : Fin 2), s.get (NET_STS.STATE n.val) = 4 ∧ s.on (NET_CFG.EN n.val) = true ∧ s.on (NET_CTL.START n.val) = true :=
  ⟨State.reset.setAll [(NET_CFG.EN 1, 1), (NET_STS.STATE 1, 4), (NET_CTL.START 1, 1)], 1, by decide⟩

/-- NetPortsTrain, clause 12: a state and operands that meet the hypotheses. -/
theorem test_NetPortsTrain_12 : ∃ (s : State) (n : Fin 2), s.get (NET_STS.STATE n.val) ≠ 4 :=
  ⟨State.reset, 1, by decide⟩

/-- NetPortsTrain, clause 13: a state and operands that meet the hypotheses. -/
theorem test_NetPortsTrain_13 : ∃ (s : State) (ini : Initiator) (n : Fin 2), s.judge ini true (NET_CNT_CLR.CLR n.val).addr = .allowed :=
  ⟨{ State.reset.setAll [(NET_DROP.BAD 1, 1)] with pwr := { toppwrEn := true, toppwrGood := true, topRst := false } }, .core 0, 1, by decide⟩

/-- NetPortsTrain, clause 14: a state and operands that meet the hypotheses. -/
theorem test_NetPortsTrain_14 : ∃ (s : State) (p : Fin 3) (vid : Option (BitVec 12)) (f : ServiceFrame) (fec : FecCount) (v6 : Bool) (ip : BitVec 128), (f = .resolve v6 ip ∨ f = .echo v6 ip) ∧ s.ownAddr p.val v6 ip.toNat = true ∧ (p.val < 2 → s.netLink p.val = true) ∧ (p.val = 2 → s.svcRuns = true) ∧ vid = s.netTag p.val ∧ ((Sent.answer p.val vid f).domain.map s.gateAsked).getD false = false :=
  ⟨State.reset.setAll [(NET_STS.STATE 1, 3), (NET_CFG.V4 1, 1), (NET_V4.ADDR 1, 77)], 1, none, .resolve false 77, ⟨3, 1⟩, false, 77, by decide⟩

/-- NetPortsTrain, clause 15: a state and operands that meet the hypotheses. -/
theorem test_NetPortsTrain_15 : ∃ (s : State) (p : Fin 3) (vid : Option (BitVec 12)) (f : ServiceFrame) (fec : FecCount) (v6 : Bool) (ip : BitVec 128), (f = .resolve v6 ip ∨ f = .echo v6 ip) ∧ s.ownAddr p.val v6 ip.toNat = true ∧ (p.val < 2 → s.netLink p.val = true) ∧ (p.val = 2 → s.svcRuns = true) ∧ vid = s.netTag p.val ∧ ((Sent.answer p.val vid f).domain.map s.gateAsked).getD false = true :=
  ⟨State.reset.setAll [(CLK_GATE_REQ.REQ, 32), (NET_STS.STATE 1, 3), (NET_CFG.V4 1, 1), (NET_V4.ADDR 1, 77)], 1, none, .resolve false 77, ⟨3, 1⟩, false, 77, by decide⟩

/-- NetPortsTrain, clause 16: a state and operands that meet the hypotheses. -/
theorem test_NetPortsTrain_16 : ∃ (s : State) (p : Fin 3) (vid : Option (BitVec 12)) (f : ServiceFrame) (fec : FecCount) (v6 : Bool) (ip : BitVec 128), (f = .resolve v6 ip ∨ f = .echo v6 ip) ∧ (s.ownAddr p.val v6 ip.toNat = false ∨ vid ≠ s.netTag p.val) ∧ p.val < 2 ∧ s.netLink p.val = true :=
  ⟨State.reset.setAll [(NET_STS.STATE 1, 3)], 1, none, .echo false 77, ⟨3, 1⟩, false, 77, by decide⟩

/-- NetPortsTrain, clause 17: a state and operands that meet the hypotheses. -/
theorem test_NetPortsTrain_17 : ∃ (s : State) (p : Fin 3) (vid : Option (BitVec 12)) (f : ServiceFrame) (fec : FecCount), f = .bad ∧ p.val < 2 ∧ s.netLink p.val = true :=
  ⟨State.reset.setAll [(NET_STS.STATE 1, 3)], 1, none, .bad, ⟨3, 1⟩, by decide⟩

/-- NetPortsTrain, clause 18: a state and operands that meet the hypotheses. -/
theorem test_NetPortsTrain_18 : ∃ (s : State) (p : Fin 3) (vid : Option (BitVec 12)) (f : ServiceFrame) (fec : FecCount), p.val < 2 ∧ s.netLink p.val = false :=
  ⟨State.reset, 1, none, .bad, ⟨3, 1⟩, by decide⟩

set_option maxRecDepth 1000000 in
/-- FragmentsMakeMessages, clause 1: a state and operands that meet the hypotheses. -/
theorem test_FragmentsMakeMessages_1 : ∃ (s : State) (peer : Peer) (d : List Byte) (fec : FecCount), s.netLink peer.port.val = false :=
  ⟨State.reset, { port := 0, v6 := false, mac := 0, ip := 0, udp := 0 }, [], { corrected := 3, uncorrectable := 1 }, by decide +kernel⟩

set_option maxRecDepth 1000000 in
/-- FragmentsMakeMessages, clause 2: a state and operands that meet the hypotheses. -/
theorem test_FragmentsMakeMessages_2 : ∃ (s : State) (peer : Peer) (d : List Byte) (fec : FecCount), s.netLink peer.port.val = true ∧ (peer.vid ≠ s.netTag peer.port.val ∨ (if peer.v6 then s.on (NET_CFG.V6 peer.port.val) else s.on (NET_CFG.V4 peer.port.val)) = false) :=
  ⟨State.reset.setAll [(NET_STS.STATE 0, 3)], { port := 0, v6 := false, mac := 0, ip := 0, udp := 0 }, [], { corrected := 3, uncorrectable := 1 }, by and_intros <;> decide +kernel⟩

set_option maxRecDepth 1000000 in
/-- FragmentsMakeMessages, clause 3: a state and operands that meet the hypotheses. -/
theorem test_FragmentsMakeMessages_3 : ∃ (s : State) (peer : Peer) (d : List Byte) (fec : FecCount), s.netLink peer.port.val = true ∧ peer.vid = s.netTag peer.port.val ∧ (if peer.v6 then s.on (NET_CFG.V6 peer.port.val) else s.on (NET_CFG.V4 peer.port.val)) = true ∧ fragOf d = none :=
  ⟨State.reset.setAll [(NET_STS.STATE 0, 3), (NET_CFG.V4 0, 1)], { port := 0, v6 := false, mac := 0, ip := 0, udp := 0 }, [1, 2], { corrected := 3, uncorrectable := 1 }, by and_intros <;> decide +kernel⟩

set_option maxRecDepth 1000000 in
/-- FragmentsMakeMessages, clause 4: a state and operands that meet the hypotheses. -/
theorem test_FragmentsMakeMessages_4 : ∃ (s : State) (peer : Peer) (d : List Byte) (fec : FecCount) (f : Frag), s.netLink peer.port.val = true ∧ peer.vid = s.netTag peer.port.val ∧ (if peer.v6 then s.on (NET_CFG.V6 peer.port.val) else s.on (NET_CFG.V4 peer.port.val)) = true ∧ fragOf d = some f ∧ f.sid ≠ 0 ∧ s.sidOf f.sid = none :=
  ⟨State.reset.setAll [(NET_STS.STATE 0, 3), (NET_CFG.V4 0, 1)], { port := 0, v6 := false, mac := 0, ip := 0, udp := 0 }, [0x54, 0x38, 1, 0, 0x11, 0, 2, 0, 5, 0, 0, 0, 1, 0, 0, 0, 0, 0, 0, 0, 0, 2, 16, 0] ++ List.replicate 16 0, { corrected := 3, uncorrectable := 1 }, { vmaj := 1, vmin := 0, type := 0x11, flags := 2, sid := 5, seq := 1, fidx := 0, fcnt := 2, head := [0x54, 0x38, 1, 0, 0x11, 0, 2, 0, 5, 0, 0, 0, 1, 0, 0, 0, 0, 0, 0, 0, 0, 2, 16, 0], body := List.replicate 16 0 }, by and_intros <;> decide +kernel⟩

set_option maxRecDepth 1000000 in
/-- FragmentsMakeMessages, clause 5: a state and operands that meet the hypotheses. -/
theorem test_FragmentsMakeMessages_5 : ∃ (s : State) (peer : Peer) (d : List Byte) (fec : FecCount) (f : Frag) (n : Nat), s.netLink peer.port.val = true ∧ peer.vid = s.netTag peer.port.val ∧ (if peer.v6 then s.on (NET_CFG.V6 peer.port.val) else s.on (NET_CFG.V4 peer.port.val)) = true ∧ fragOf d = some f ∧ f.sid ≠ 0 ∧ s.sidOf f.sid = some n ∧ s.isOpen n = true ∧ 2 ≤ f.flags ∧ 1 < f.fcnt ∧ (∀ p ∈ s.ses.parts, p.of peer f.sid f.seq = false) :=
  ⟨State.reset.setAll [(NET_STS.STATE 0, 3), (SESS_STS.STATE 3, 2), (SESS_SID.SID 3, 5), (SESS_STS.CLASSES 3, 7), (SESS_MASK.ACC_MASK 3, 255), (SESS_MASK.ZONE_MASK 3, 255), (SESS_MASK.PUMP_MASK 3, 63), (SESS_VER.VMAJ 3, 1), (ACD_INFO.ACC_COUNT, 8), (NET_CFG.V4 0, 1)], { port := 0, v6 := false, mac := 0, ip := 0, udp := 0 }, [0x54, 0x38, 1, 0, 0x11, 0, 2, 0, 5, 0, 0, 0, 1, 0, 0, 0, 0, 0, 0, 0, 0, 2, 16, 0] ++ List.replicate 16 0, { corrected := 3, uncorrectable := 1 }, { vmaj := 1, vmin := 0, type := 0x11, flags := 2, sid := 5, seq := 1, fidx := 0, fcnt := 2, head := [0x54, 0x38, 1, 0, 0x11, 0, 2, 0, 5, 0, 0, 0, 1, 0, 0, 0, 0, 0, 0, 0, 0, 2, 16, 0], body := List.replicate 16 0 }, 3, by and_intros <;> decide +kernel⟩

set_option maxRecDepth 1000000 in
/-- FragmentsMakeMessages, clause 6: a state and operands that meet the hypotheses. -/
theorem test_FragmentsMakeMessages_6 : ∃ (s : State) (peer : Peer) (d : List Byte) (fec : FecCount) (f : Frag) (n : Nat), s.netLink peer.port.val = true ∧ peer.vid = s.netTag peer.port.val ∧ (if peer.v6 then s.on (NET_CFG.V6 peer.port.val) else s.on (NET_CFG.V4 peer.port.val)) = true ∧ fragOf d = some f ∧ f.sid ≠ 0 ∧ s.sidOf f.sid = some n ∧ s.isOpen n = true ∧ f.flags < 2 :=
  ⟨State.reset.setAll [(NET_STS.STATE 0, 3), (SESS_STS.STATE 3, 2), (SESS_SID.SID 3, 5), (SESS_STS.CLASSES 3, 7), (SESS_MASK.ACC_MASK 3, 255), (SESS_MASK.ZONE_MASK 3, 255), (SESS_MASK.PUMP_MASK 3, 63), (SESS_VER.VMAJ 3, 1), (ACD_INFO.ACC_COUNT, 8), (NET_CFG.V4 0, 1)], { port := 0, v6 := false, mac := 0, ip := 0, udp := 0 }, ([0x54, 0x38, 1, 0] ++ [17, 0] ++ [0, 0, 5, 0, 0, 0, 1, 0, 0, 0, 0, 0, 0, 0, 0, 2, 16, 0]) ++ List.replicate 16 0, { corrected := 3, uncorrectable := 1 }, { vmaj := 1, vmin := 0, type := 0x11, flags := 0, sid := 5, seq := 1, fidx := 0, fcnt := 2, head := ([0x54, 0x38, 1, 0] ++ [17, 0] ++ [0, 0, 5, 0, 0, 0, 1, 0, 0, 0, 0, 0, 0, 0, 0, 2, 16, 0]), body := List.replicate 16 0 }, 3, by and_intros <;> decide +kernel⟩

set_option maxRecDepth 1000000 in
/-- FragmentsMakeMessages, clause 7: a state and operands that meet the hypotheses. -/
theorem test_FragmentsMakeMessages_7 : ∃ (s : State) (peer : Peer) (d : List Byte) (fec : FecCount) (f : Frag) (n : Nat), s.netLink peer.port.val = true ∧ peer.vid = s.netTag peer.port.val ∧ (if peer.v6 then s.on (NET_CFG.V6 peer.port.val) else s.on (NET_CFG.V4 peer.port.val)) = true ∧ fragOf d = some f ∧ f.sid ≠ 0 ∧ s.sidOf f.sid = some n ∧ s.isOpen n = true ∧ f.flags = 2 ∧ f.fcnt = 1 ∧ (∀ p ∈ s.ses.parts, p.of peer f.sid f.seq = false) :=
  ⟨State.reset.setAll [(NET_STS.STATE 0, 3), (SESS_STS.STATE 3, 2), (SESS_SID.SID 3, 5), (SESS_STS.CLASSES 3, 7), (SESS_MASK.ACC_MASK 3, 255), (SESS_MASK.ZONE_MASK 3, 255), (SESS_MASK.PUMP_MASK 3, 63), (SESS_VER.VMAJ 3, 1), (ACD_INFO.ACC_COUNT, 8), (NET_CFG.V4 0, 1)], { port := 0, v6 := false, mac := 0, ip := 0, udp := 0 }, ([0x54, 0x38, 1, 0] ++ [17, 0] ++ [2, 0, 5, 0, 0, 0, 1, 0, 0, 0, 0, 0, 0, 0, 0, 1, 16, 0]) ++ List.replicate 16 0, { corrected := 3, uncorrectable := 1 }, { vmaj := 1, vmin := 0, type := 0x0011, flags := 2, sid := 5, seq := 1, fidx := 0, fcnt := 1, head := ([0x54, 0x38, 1, 0] ++ [17, 0] ++ [2, 0, 5, 0, 0, 0, 1, 0, 0, 0, 0, 0, 0, 0, 0, 1, 16, 0]), body := List.replicate 16 0 }, 3, by and_intros <;> decide +kernel⟩

set_option maxRecDepth 1000000 in
/-- FragmentsMakeMessages, clause 8: a state and operands that meet the hypotheses. -/
theorem test_FragmentsMakeMessages_8 : ∃ (s : State) (peer : Peer) (d : List Byte) (fec : FecCount) (f : Frag) (n : Nat) (q : Partial), s.netLink peer.port.val = true ∧ peer.vid = s.netTag peer.port.val ∧ (if peer.v6 then s.on (NET_CFG.V6 peer.port.val) else s.on (NET_CFG.V4 peer.port.val)) = true ∧ fragOf d = some f ∧ f.sid ≠ 0 ∧ s.sidOf f.sid = some n ∧ s.isOpen n = true ∧ f.flags = 2 ∧ s.ses.parts.find? (fun p => p.of peer f.sid f.seq) = some q ∧ q.agrees f = true ∧ look f.fidx q.frags = none ∧ q.frags.length + 1 = f.fcnt :=
  ⟨({ State.reset with ses := { parts := [{ peer := { port := 0, v6 := false, mac := 0, ip := 0, udp := 0 }, vmaj := 1, vmin := 0, type := 0x11, flags := 2, sid := 5, seq := 1, fcnt := 2, frags := [(1, [7])] }] } } : State).setAll [(NET_STS.STATE 0, 3), (SESS_STS.STATE 3, 2), (SESS_SID.SID 3, 5), (SESS_STS.CLASSES 3, 7), (SESS_MASK.ACC_MASK 3, 255), (SESS_MASK.ZONE_MASK 3, 255), (SESS_MASK.PUMP_MASK 3, 63), (SESS_VER.VMAJ 3, 1), (ACD_INFO.ACC_COUNT, 8), (NET_CFG.V4 0, 1)], { port := 0, v6 := false, mac := 0, ip := 0, udp := 0 }, [0x54, 0x38, 1, 0, 0x11, 0, 2, 0, 5, 0, 0, 0, 1, 0, 0, 0, 0, 0, 0, 0, 0, 2, 16, 0] ++ List.replicate 16 0, { corrected := 3, uncorrectable := 1 }, { vmaj := 1, vmin := 0, type := 0x11, flags := 2, sid := 5, seq := 1, fidx := 0, fcnt := 2, head := [0x54, 0x38, 1, 0, 0x11, 0, 2, 0, 5, 0, 0, 0, 1, 0, 0, 0, 0, 0, 0, 0, 0, 2, 16, 0], body := List.replicate 16 0 }, 3, { peer := { port := 0, v6 := false, mac := 0, ip := 0, udp := 0 }, vmaj := 1, vmin := 0, type := 0x11, flags := 2, sid := 5, seq := 1, fcnt := 2, frags := [(1, [7])] }, by and_intros <;> decide +kernel⟩

set_option maxRecDepth 1000000 in
/-- FragmentsMakeMessages, clause 9: a state and operands that meet the hypotheses. -/
theorem test_FragmentsMakeMessages_9 : ∃ (s : State) (peer : Peer) (d : List Byte) (fec : FecCount) (f : Frag) (n : Nat) (q : Partial), s.netLink peer.port.val = true ∧ peer.vid = s.netTag peer.port.val ∧ (if peer.v6 then s.on (NET_CFG.V6 peer.port.val) else s.on (NET_CFG.V4 peer.port.val)) = true ∧ fragOf d = some f ∧ f.sid ≠ 0 ∧ s.sidOf f.sid = some n ∧ s.isOpen n = true ∧ f.flags = 2 ∧ s.ses.parts.find? (fun p => p.of peer f.sid f.seq) = some q ∧ q.agrees f = true ∧ (look f.fidx q.frags).isSome = true :=
  ⟨({ State.reset with ses := { parts := [{ peer := { port := 0, v6 := false, mac := 0, ip := 0, udp := 0 }, vmaj := 1, vmin := 0, type := 0x11, flags := 2, sid := 5, seq := 1, fcnt := 2, frags := [(0, [7])] }] } } : State).setAll [(NET_STS.STATE 0, 3), (SESS_STS.STATE 3, 2), (SESS_SID.SID 3, 5), (SESS_STS.CLASSES 3, 7), (SESS_MASK.ACC_MASK 3, 255), (SESS_MASK.ZONE_MASK 3, 255), (SESS_MASK.PUMP_MASK 3, 63), (SESS_VER.VMAJ 3, 1), (ACD_INFO.ACC_COUNT, 8), (NET_CFG.V4 0, 1)], { port := 0, v6 := false, mac := 0, ip := 0, udp := 0 }, [0x54, 0x38, 1, 0, 0x11, 0, 2, 0, 5, 0, 0, 0, 1, 0, 0, 0, 0, 0, 0, 0, 0, 2, 16, 0] ++ List.replicate 16 0, { corrected := 3, uncorrectable := 1 }, { vmaj := 1, vmin := 0, type := 0x11, flags := 2, sid := 5, seq := 1, fidx := 0, fcnt := 2, head := [0x54, 0x38, 1, 0, 0x11, 0, 2, 0, 5, 0, 0, 0, 1, 0, 0, 0, 0, 0, 0, 0, 0, 2, 16, 0], body := List.replicate 16 0 }, 3, { peer := { port := 0, v6 := false, mac := 0, ip := 0, udp := 0 }, vmaj := 1, vmin := 0, type := 0x11, flags := 2, sid := 5, seq := 1, fcnt := 2, frags := [(0, [7])] }, by and_intros <;> decide +kernel⟩

set_option maxRecDepth 1000000 in
/-- FragmentsMakeMessages, clause 10: a state and operands that meet the hypotheses. -/
theorem test_FragmentsMakeMessages_10 : ∃ (s : State) (peer : Peer) (d : List Byte) (fec : FecCount) (f : Frag) (n : Nat) (q : Partial), s.netLink peer.port.val = true ∧ peer.vid = s.netTag peer.port.val ∧ (if peer.v6 then s.on (NET_CFG.V6 peer.port.val) else s.on (NET_CFG.V4 peer.port.val)) = true ∧ fragOf d = some f ∧ f.sid ≠ 0 ∧ s.sidOf f.sid = some n ∧ s.isOpen n = true ∧ f.flags = 2 ∧ s.ses.parts.find? (fun p => p.of peer f.sid f.seq) = some q ∧ q.agrees f = false :=
  ⟨({ State.reset with ses := { parts := [{ peer := { port := 0, v6 := false, mac := 0, ip := 0, udp := 0 }, vmaj := 1, vmin := 0, type := 0x11, flags := 2, sid := 5, seq := 1, fcnt := 3, frags := [(1, [7])] }] } } : State).setAll [(NET_STS.STATE 0, 3), (SESS_STS.STATE 3, 2), (SESS_SID.SID 3, 5), (SESS_STS.CLASSES 3, 7), (SESS_MASK.ACC_MASK 3, 255), (SESS_MASK.ZONE_MASK 3, 255), (SESS_MASK.PUMP_MASK 3, 63), (SESS_VER.VMAJ 3, 1), (ACD_INFO.ACC_COUNT, 8), (NET_CFG.V4 0, 1)], { port := 0, v6 := false, mac := 0, ip := 0, udp := 0 }, [0x54, 0x38, 1, 0, 0x11, 0, 2, 0, 5, 0, 0, 0, 1, 0, 0, 0, 0, 0, 0, 0, 0, 2, 16, 0] ++ List.replicate 16 0, { corrected := 3, uncorrectable := 1 }, { vmaj := 1, vmin := 0, type := 0x11, flags := 2, sid := 5, seq := 1, fidx := 0, fcnt := 2, head := [0x54, 0x38, 1, 0, 0x11, 0, 2, 0, 5, 0, 0, 0, 1, 0, 0, 0, 0, 0, 0, 0, 0, 2, 16, 0], body := List.replicate 16 0 }, 3, { peer := { port := 0, v6 := false, mac := 0, ip := 0, udp := 0 }, vmaj := 1, vmin := 0, type := 0x11, flags := 2, sid := 5, seq := 1, fcnt := 3, frags := [(1, [7])] }, by and_intros <;> decide +kernel⟩

set_option maxRecDepth 1000000 in
/-- FragmentsMakeMessages, clause 11: a state and operands that meet the hypotheses. -/
theorem test_FragmentsMakeMessages_11 : ∃ (s : State) (peer : Peer) (d : List Byte) (fec : FecCount) (f : Frag) (q : Partial), s.netLink peer.port.val = true ∧ peer.vid = s.netTag peer.port.val ∧ (if peer.v6 then s.on (NET_CFG.V6 peer.port.val) else s.on (NET_CFG.V4 peer.port.val)) = true ∧ fragOf d = some f ∧ f.sid = 0 ∧ f.type = tyOpenReq ∧ f.flags < 2 ∧ s.ses.parts.find? (fun p => p.of peer f.sid f.seq) = some q ∧ q.agrees f = true ∧ look f.fidx q.frags = none ∧ q.frags.length + 1 = f.fcnt :=
  ⟨({ State.reset with ses := { parts := [{ peer := { port := 0, v6 := false, mac := 0, ip := 0, udp := 0 }, vmaj := 1, vmin := 0, type := tyOpenReq, flags := 0, sid := 0, seq := 1, fcnt := 2, frags := [(1, [7])] }] } } : State).setAll [(NET_STS.STATE 0, 3), (NET_CFG.V4 0, 1)], { port := 0, v6 := false, mac := 0, ip := 0, udp := 0 }, ([0x54, 0x38, 1, 0] ++ leBytes 2 tyOpenReq ++ [0, 0, 0, 0, 0, 0, 1, 0, 0, 0, 0, 0, 0, 0, 0, 2, 8, 0]) ++ List.replicate 8 0, { corrected := 3, uncorrectable := 1 }, { vmaj := 1, vmin := 0, type := tyOpenReq, flags := 0, sid := 0, seq := 1, fidx := 0, fcnt := 2, head := ([0x54, 0x38, 1, 0] ++ leBytes 2 tyOpenReq ++ [0, 0, 0, 0, 0, 0, 1, 0, 0, 0, 0, 0, 0, 0, 0, 2, 8, 0]), body := List.replicate 8 0 }, { peer := { port := 0, v6 := false, mac := 0, ip := 0, udp := 0 }, vmaj := 1, vmin := 0, type := tyOpenReq, flags := 0, sid := 0, seq := 1, fcnt := 2, frags := [(1, [7])] }, by
    and_intros <;> first | decide +kernel | rfl | (simp [fragOf, leAt, leNat, leBytes, Partial.agrees] <;> simp only [tyOpenReq] <;> omega)⟩

set_option maxRecDepth 1000000 in
/-- FragmentsMakeMessages, clause 12: a state and operands that meet the hypotheses. -/
theorem test_FragmentsMakeMessages_12 : ∃ (s : State) (peer : Peer) (d : List Byte) (fec : FecCount) (f : Frag) (n : Nat) (q : Partial), s.netLink peer.port.val = true ∧ peer.vid = s.netTag peer.port.val ∧ (if peer.v6 then s.on (NET_CFG.V6 peer.port.val) else s.on (NET_CFG.V4 peer.port.val)) = true ∧ fragOf d = some f ∧ f.sid ≠ 0 ∧ s.sidOf f.sid = some n ∧ s.sesState n = 1 ∧ f.type = tyOpenProof ∧ f.flags < 2 ∧ s.ses.parts.find? (fun p => p.of peer f.sid f.seq) = some q ∧ q.agrees f = true ∧ look f.fidx q.frags = none ∧ q.frags.length + 1 = f.fcnt :=
  ⟨({ State.reset with ses := { parts := [{ peer := { port := 0, v6 := false, mac := 0, ip := 0, udp := 0 }, vmaj := 1, vmin := 0, type := tyOpenProof, flags := 0, sid := 5, seq := 1, fcnt := 2, frags := [(1, [7])] }], sess := [(3, { hs := some { th2 := [], ikm := [], classes := 7, edPub := [], mlPub := [] } })] } } : State).setAll [(NET_STS.STATE 0, 3), (NET_CFG.V4 0, 1), (SESS_STS.STATE 3, 1), (SESS_SID.SID 3, 5)], { port := 0, v6 := false, mac := 0, ip := 0, udp := 0 }, ([0x54, 0x38, 1, 0] ++ leBytes 2 tyOpenProof ++ [0, 0, 5, 0, 0, 0, 1, 0, 0, 0, 0, 0, 0, 0, 0, 2, 8, 0]) ++ List.replicate 8 0, { corrected := 3, uncorrectable := 1 }, { vmaj := 1, vmin := 0, type := tyOpenProof, flags := 0, sid := 5, seq := 1, fidx := 0, fcnt := 2, head := ([0x54, 0x38, 1, 0] ++ leBytes 2 tyOpenProof ++ [0, 0, 5, 0, 0, 0, 1, 0, 0, 0, 0, 0, 0, 0, 0, 2, 8, 0]), body := List.replicate 8 0 }, 3, { peer := { port := 0, v6 := false, mac := 0, ip := 0, udp := 0 }, vmaj := 1, vmin := 0, type := tyOpenProof, flags := 0, sid := 5, seq := 1, fcnt := 2, frags := [(1, [7])] }, by
    and_intros <;> first | decide +kernel | rfl | (simp [fragOf, leAt, leNat, leBytes, Partial.agrees] <;> simp only [tyOpenProof] <;> omega)⟩

set_option maxRecDepth 1000000 in
/-- SessionsOpenAndClose, clause 1: a state and operands that meet the hypotheses. -/
theorem test_SessionsOpenAndClose_1 : ∃ (s : State) (m : TmpMsg), s.netLink m.peer.port.val = true ∧ m.sid = 0 ∧ s.openBusy = true :=
  ⟨State.reset.setAll [(NET_STS.STATE 0, 3)], { peer := { port := 0, v6 := false, mac := 0, ip := 0, udp := 0 }, vmaj := 1, vmin := 0, sid := 0, seq := 1, payload := [] }, by and_intros <;> decide +kernel⟩

set_option maxRecDepth 1000000 in
/-- SessionsOpenAndClose, clause 2: a state and operands that meet the hypotheses. -/
theorem test_SessionsOpenAndClose_2 : ∃ (s : State) (m : TmpMsg), s.netLink m.peer.port.val = true ∧ m.sid = 0 ∧ s.openBusy = false ∧ openReqForm m.payload = false :=
  ⟨State.reset.setAll [(NET_STS.STATE 0, 3), (SES_VER.MAJ, 1), (SES_CTL.OPEN_EN, 1), (KEY_STS.READY, 1), (BRG_STS.STATE, 2)], { peer := { port := 0, v6 := false, mac := 0, ip := 0, udp := 0 }, vmaj := 1, vmin := 0, sid := 0, seq := 1, payload := [] }, by and_intros <;> decide +kernel⟩

set_option maxRecDepth 1000000 in
/-- SessionsOpenAndClose, clause 3: a state and operands that meet the hypotheses. -/
theorem test_SessionsOpenAndClose_3 : ∃ (s : State) (m : TmpMsg), s.netLink m.peer.port.val = true ∧ m.sid = 0 ∧ s.openBusy = false ∧ openReqForm m.payload = true :=
  ⟨({ State.reset with acd := { scopes := [[255, 255, 63, 7] ++ List.replicate 60 0] } } : State).setAll [(NET_STS.STATE 0, 3), (SES_VER.MAJ, 1), (SES_CTL.OPEN_EN, 1), (KEY_STS.READY, 1), (BRG_STS.STATE, 2)], { peer := { port := 0, v6 := false, mac := 0, ip := 0, udp := 0 }, vmaj := 1, vmin := 0, sid := 0, seq := 1, payload := (List.replicate 32 0 ++ [7, 0, 0, 0] ++ List.replicate 3200 0 : List Byte) }, by and_intros <;> decide +kernel⟩

set_option maxRecDepth 1000000 in
/-- SessionsOpenAndClose, clause 4: a state and operands that meet the hypotheses. -/
theorem test_SessionsOpenAndClose_4 : ∃ (s : State) (m : TmpMsg), (s.netLink m.peer.port.val = false ∨ m.sid ≠ 0) :=
  ⟨State.reset, { peer := { port := 0, v6 := false, mac := 0, ip := 0, udp := 0 }, vmaj := 1, vmin := 0, sid := 0, seq := 1, payload := [] }, by decide +kernel⟩

set_option maxRecDepth 1000000 in
/-- SessionsOpenAndClose, clause 5: a state and operands that meet the hypotheses. -/
theorem test_SessionsOpenAndClose_5 : ∃ (s : State) (m : TmpMsg) (n : Nat) (h : Hs), s.netLink m.peer.port.val = true ∧ s.sidOf m.sid.toNat = some n ∧ s.sesState n = 1 ∧ (s.sess n).hs = some h ∧ m.payload.length ≠ 3373 :=
  ⟨({ State.reset with ses := { sess := [(3, { hs := some { th2 := [], ikm := [], classes := 7, edPub := [], mlPub := [] } })] } } : State).setAll [(NET_STS.STATE 0, 3), (SESS_STS.STATE 3, 1), (SESS_SID.SID 3, 5)], { peer := { port := 0, v6 := false, mac := 0, ip := 0, udp := 0 }, vmaj := 1, vmin := 0, sid := 5, seq := 1, payload := [] }, 3, { th2 := [], ikm := [], classes := 7, edPub := [], mlPub := [] }, by and_intros <;> decide +kernel⟩

set_option maxRecDepth 1000000 in
/-- SessionsOpenAndClose, clause 6: a state and operands that meet the hypotheses. -/
theorem test_SessionsOpenAndClose_6 : ∃ (s : State) (m : TmpMsg) (n : Nat) (h : Hs), s.netLink m.peer.port.val = true ∧ s.sidOf m.sid.toNat = some n ∧ s.sesState n = 1 ∧ s.portShut 7 = false ∧ (s.sess n).hs = some h ∧ m.payload.length = 3373 ∧ s.cur ≠ 1 ∧ s.pwr.trans ≠ some .toA1 :=
  ⟨({ State.reset with ses := { sess := [(3, { hs := some { th2 := [], ikm := [], classes := 7, edPub := [], mlPub := [] } })] } } : State).setAll [(NET_STS.STATE 0, 3), (SESS_STS.STATE 3, 1), (SESS_SID.SID 3, 5)], { peer := { port := 0, v6 := false, mac := 0, ip := 0, udp := 0 }, vmaj := 1, vmin := 0, sid := 5, seq := 1, payload := List.replicate 3373 0 }, 3, { th2 := [], ikm := [], classes := 7, edPub := [], mlPub := [] }, by and_intros <;> decide +kernel⟩

set_option maxRecDepth 1000000 in
/-- SessionsOpenAndClose, clause 7: a state and operands that meet the hypotheses. -/
theorem test_SessionsOpenAndClose_7 : ∃ (s : State) (m : TmpMsg) (n : Nat) (h : Hs) (i : Nat), s.netLink m.peer.port.val = true ∧ s.sidOf m.sid.toNat = some n ∧ s.sesState n = 1 ∧ s.portShut 7 = false ∧ (s.sess n).hs = some h ∧ m.payload.length = 3373 ∧ s.cur = 1 ∧ s.pwr.trans = none ∧ s.scopeIdx (s.sess n).keyDg = some i ∧ i < 64 ∧ h.classes &&& leAt (s.scopeAt i) 3 1 ≠ 0 :=
  ⟨({ State.reset with acd := { scopes := [[255, 255, 63, 7] ++ List.replicate 60 0] }, ses := { sess := [(3, { keyDg := List.replicate 48 0, hs := some { th2 := [], ikm := [], classes := 7, edPub := [], mlPub := [] } })] } } : State).setAll [(NET_STS.STATE 0, 3), (SESS_STS.STATE 3, 1), (SESS_SID.SID 3, 5), (PWRST_STATE.CUR, 1)], { peer := { port := 0, v6 := false, mac := 0, ip := 0, udp := 0 }, vmaj := 1, vmin := 0, sid := 5, seq := 1, payload := List.replicate 3373 0 }, 3, { th2 := [], ikm := [], classes := 7, edPub := [], mlPub := [] }, 0, by and_intros <;> decide +kernel⟩

set_option maxRecDepth 1000000 in
/-- SessionsOpenAndClose, clause 8: a state and operands that meet the hypotheses. -/
theorem test_SessionsOpenAndClose_8 : ∃ (s : State) (m : TmpMsg) (n : Nat) (h : Hs), s.netLink m.peer.port.val = true ∧ s.sidOf m.sid.toNat = some n ∧ s.sesState n = 1 ∧ s.portShut 7 = true ∧ (s.sess n).hs = some h ∧ m.payload.length = 3373 :=
  ⟨({ State.reset with ses := { sess := [(3, { hs := some { th2 := [], ikm := [], classes := 7, edPub := [], mlPub := [] } })] } } : State).setAll [(NET_STS.STATE 0, 3), (SESS_STS.STATE 3, 1), (SESS_SID.SID 3, 5), (CLK_GATE_STS.GATED, 128)], { peer := { port := 0, v6 := false, mac := 0, ip := 0, udp := 0 }, vmaj := 1, vmin := 0, sid := 5, seq := 1, payload := List.replicate 3373 0 }, 3, { th2 := [], ikm := [], classes := 7, edPub := [], mlPub := [] }, by and_intros <;> decide +kernel⟩

set_option maxRecDepth 1000000 in
/-- SessionsOpenAndClose, clause 9: a state and operands that meet the hypotheses. -/
theorem test_SessionsOpenAndClose_9 : ∃ (s : State) (n : Fin 16), s.sesState n.val = 1 :=
  ⟨({ State.reset with ses := { sess := [(3, { hs := some { th2 := [], ikm := [], classes := 7, edPub := [], mlPub := [] } })] } } : State).setAll [(NET_STS.STATE 0, 3), (SESS_STS.STATE 3, 1), (SESS_SID.SID 3, 5)], 3, by decide +kernel⟩

set_option maxRecDepth 1000000 in
/-- SessionsOpenAndClose, clause 10: a state and operands that meet the hypotheses. -/
theorem test_SessionsOpenAndClose_10 : ∃ (s : State) (n : Fin 16), s.sesState n.val ≠ 1 :=
  ⟨State.reset, 3, by decide +kernel⟩

set_option maxRecDepth 1000000 in
/-- SessionsOpenAndClose, clause 11: a state and operands that meet the hypotheses. -/
theorem test_SessionsOpenAndClose_11 : ∃ (s : State) (m : TmpMsg) (n : Nat), s.msgPasses n tyClose m = true :=
  ⟨({ State.reset with ses := { sess := [(3, { caps := [5, 0, 0, 0, 0, 0, 0, 0, 0] })] } } : State).setAll [(NET_STS.STATE 0, 3), (SESS_STS.STATE 3, 2), (SESS_SID.SID 3, 5), (SESS_STS.CLASSES 3, 7), (SESS_MASK.ACC_MASK 3, 255), (SESS_MASK.ZONE_MASK 3, 255), (SESS_MASK.PUMP_MASK 3, 63), (SESS_VER.VMAJ 3, 1), (ACD_INFO.ACC_COUNT, 8)], { peer := { port := 0, v6 := false, mac := 0, ip := 0, udp := 0 }, vmaj := 1, vmin := 0, sid := 5, seq := 1, payload := [] }, 3, by decide +kernel⟩

set_option maxRecDepth 1000000 in
/-- SessionsOpenAndClose, clause 12: a state and operands that meet the hypotheses. -/
theorem test_SessionsOpenAndClose_12 : ∃ (s : State) (n : Fin 16), s.isOpen n.val = true :=
  ⟨({ State.reset with ses := { sess := [(3, { caps := [5, 0, 0, 0, 0, 0, 0, 0, 0] })] } } : State).setAll [(NET_STS.STATE 0, 3), (SESS_STS.STATE 3, 2), (SESS_SID.SID 3, 5), (SESS_STS.CLASSES 3, 7), (SESS_MASK.ACC_MASK 3, 255), (SESS_MASK.ZONE_MASK 3, 255), (SESS_MASK.PUMP_MASK 3, 63), (SESS_VER.VMAJ 3, 1), (ACD_INFO.ACC_COUNT, 8)], 3, by decide +kernel⟩

set_option maxRecDepth 1000000 in
/-- SessionsOpenAndClose, clause 13: a state and operands that meet the hypotheses. -/
theorem test_SessionsOpenAndClose_13 : ∃ (s : State) (n : Fin 16), s.isOpen n.val = false :=
  ⟨State.reset, 3, by decide +kernel⟩

set_option maxRecDepth 1000000 in
/-- SessionsOpenAndClose, clause 14: a state and operands that meet the hypotheses. -/
theorem test_SessionsOpenAndClose_14 : ∃ (s : State) (ini : Initiator), s.judge ini true SES_CTL.CLOSE_ALL.addr = .allowed :=
  ⟨({ State.reset with ses := { sess := [(3, { caps := [5, 0, 0, 0, 0, 0, 0, 0, 0] })] }, pwr := { toppwrEn := true, toppwrGood := true, topRst := false } } : State).setAll [(NET_STS.STATE 0, 3), (SESS_STS.STATE 3, 2), (SESS_SID.SID 3, 5), (SESS_STS.CLASSES 3, 7), (SESS_MASK.ACC_MASK 3, 255), (SESS_MASK.ZONE_MASK 3, 255), (SESS_MASK.PUMP_MASK 3, 63), (SESS_VER.VMAJ 3, 1), (ACD_INFO.ACC_COUNT, 8)], .core 0, by decide +kernel⟩

set_option maxRecDepth 1000000 in
/-- SessionsOpenAndClose, clause 15: a state and operands that meet the hypotheses. -/
theorem test_SessionsOpenAndClose_15 : ∃ (s : State) (ini : Initiator), s.judge ini true SES_CNT_CLR.CLR.addr = .allowed :=
  ⟨{ State.reset.setAll [(SES_ERR1.DENIED, 3)] with pwr := { toppwrEn := true, toppwrGood := true, topRst := false } }, .core 0, by decide +kernel⟩

set_option maxRecDepth 1000000 in
/-- SessionMessagesAreServed, clause 1: a state and operands that meet the hypotheses. -/
theorem test_SessionMessagesAreServed_1 : ∃ (s : State) (m : TmpMsg) (n : Nat), s.msgPasses n tyPing m = true :=
  ⟨State.reset.setAll [(NET_STS.STATE 0, 3), (SESS_STS.STATE 3, 2), (SESS_SID.SID 3, 5), (SESS_STS.CLASSES 3, 7), (SESS_MASK.ACC_MASK 3, 255), (SESS_MASK.ZONE_MASK 3, 255), (SESS_MASK.PUMP_MASK 3, 63), (SESS_VER.VMAJ 3, 1), (ACD_INFO.ACC_COUNT, 8)], { peer := { port := 0, v6 := false, mac := 0, ip := 0, udp := 0 }, vmaj := 1, vmin := 0, sid := 5, seq := 1, payload := [] }, 3, by decide +kernel⟩

set_option maxRecDepth 1000000 in
/-- SessionMessagesAreServed, clause 2: a state and operands that meet the hypotheses. -/
theorem test_SessionMessagesAreServed_2 : ∃ (s : State) (m : TmpMsg) (n : Nat), s.netLink m.peer.port.val = true ∧ s.sidOf m.sid.toNat = some n ∧ s.isOpen n = true ∧ s.seqFresh n m.seq.toNat = false :=
  ⟨State.reset.setAll [(NET_STS.STATE 0, 3), (SESS_STS.STATE 3, 2), (SESS_SID.SID 3, 5), (SESS_STS.CLASSES 3, 7), (SESS_MASK.ACC_MASK 3, 255), (SESS_MASK.ZONE_MASK 3, 255), (SESS_MASK.PUMP_MASK 3, 63), (SESS_VER.VMAJ 3, 1), (ACD_INFO.ACC_COUNT, 8), (SESS_RSEQ_LO.V 3, 100)], { peer := { port := 0, v6 := false, mac := 0, ip := 0, udp := 0 }, vmaj := 1, vmin := 0, sid := 5, seq := 1, payload := [] }, 3, by and_intros <;> decide +kernel⟩

set_option maxRecDepth 1000000 in
/-- SessionMessagesAreServed, clause 3: a state and operands that meet the hypotheses. -/
theorem test_SessionMessagesAreServed_3 : ∃ (s : State) (m : TmpMsg) (n : Nat), s.netLink m.peer.port.val = true ∧ s.sidOf m.sid.toNat = some n ∧ s.isOpen n = true ∧ s.seqFresh n m.seq.toNat = true ∧ s.cur = 1 ∧ s.pwr.trans = none :=
  ⟨State.reset.setAll [(NET_STS.STATE 0, 3), (SESS_STS.STATE 3, 2), (SESS_SID.SID 3, 5), (SESS_STS.CLASSES 3, 7), (SESS_MASK.ACC_MASK 3, 255), (SESS_MASK.ZONE_MASK 3, 255), (SESS_MASK.PUMP_MASK 3, 63), (SESS_VER.VMAJ 3, 1), (ACD_INFO.ACC_COUNT, 8), (PWRST_STATE.CUR, 1)], { peer := { port := 0, v6 := false, mac := 0, ip := 0, udp := 0 }, vmaj := 1, vmin := 0, sid := 5, seq := 1, payload := [] }, 3, by and_intros <;> decide +kernel⟩

set_option maxRecDepth 1000000 in
/-- SessionMessagesAreServed, clause 4: a state and operands that meet the hypotheses. -/
theorem test_SessionMessagesAreServed_4 : ∃ (s : State) (m : TmpMsg), (s.netLink m.peer.port.val = false ∨ s.sidOf m.sid.toNat = none) :=
  ⟨State.reset, { peer := { port := 0, v6 := false, mac := 0, ip := 0, udp := 0 }, vmaj := 1, vmin := 0, sid := 5, seq := 1, payload := [] }, by decide +kernel⟩

set_option maxRecDepth 1000000 in
/-- SessionMessagesAreServed, clause 5: a state and operands that meet the hypotheses. -/
theorem test_SessionMessagesAreServed_5 : ∃ (s : State) (m : TmpMsg) (n : Nat), s.msgPasses n tyReadStat m = true :=
  ⟨State.reset.setAll [(NET_STS.STATE 0, 3), (SESS_STS.STATE 3, 2), (SESS_SID.SID 3, 5), (SESS_STS.CLASSES 3, 7), (SESS_MASK.ACC_MASK 3, 255), (SESS_MASK.ZONE_MASK 3, 255), (SESS_MASK.PUMP_MASK 3, 63), (SESS_VER.VMAJ 3, 1), (ACD_INFO.ACC_COUNT, 8)], { peer := { port := 0, v6 := false, mac := 0, ip := 0, udp := 0 }, vmaj := 1, vmin := 0, sid := 5, seq := 1, payload := [1, 0, 0, 0, 2, 0, 5, 0] }, 3, by decide +kernel⟩

set_option maxRecDepth 1000000 in
/-- SessionMessagesAreServed, clause 6: a state and operands that meet the hypotheses. -/
theorem test_SessionMessagesAreServed_6 : ∃ (s : State) (m : TmpMsg) (n : Nat) (bd : List (Fin 65536)), (s.mapEccAll bd).msgPasses n tyReadStat m = true :=
  ⟨State.reset.setAll [(NET_STS.STATE 0, 3), (SESS_STS.STATE 3, 2), (SESS_SID.SID 3, 5), (SESS_STS.CLASSES 3, 7), (SESS_MASK.ACC_MASK 3, 255), (SESS_MASK.ZONE_MASK 3, 255), (SESS_MASK.PUMP_MASK 3, 63), (SESS_VER.VMAJ 3, 1), (ACD_INFO.ACC_COUNT, 8)], { peer := { port := 0, v6 := false, mac := 0, ip := 0, udp := 0 }, vmaj := 1, vmin := 0, sid := 5, seq := 1, payload := [1, 0, 0, 0, 2, 0, 5, 0] }, 3, [16389], by decide +kernel⟩

set_option maxRecDepth 1000000 in
/-- SessionMessagesAreServed, clause 7: a state and operands that meet the hypotheses. -/
theorem test_SessionMessagesAreServed_7 : ∃ (s : State) (m : TmpMsg) (n : Nat), s.msgPasses n tySubscribe m = true ∧ s.subFull n m.payload = false :=
  ⟨({ State.reset with ses := { sess := [(3, { subs := 3 })] } } : State).setAll [(NET_STS.STATE 0, 3), (SESS_STS.STATE 3, 2), (SESS_SID.SID 3, 5), (SESS_STS.CLASSES 3, 7), (SESS_MASK.ACC_MASK 3, 255), (SESS_MASK.ZONE_MASK 3, 255), (SESS_MASK.PUMP_MASK 3, 63), (SESS_VER.VMAJ 3, 1), (ACD_INFO.ACC_COUNT, 8)], { peer := { port := 0, v6 := false, mac := 0, ip := 0, udp := 0 }, vmaj := 1, vmin := 0, sid := 5, seq := 1, payload := [1, 2, 0, 0, 9, 0, 0, 0] }, 3, by and_intros <;> decide +kernel⟩

set_option maxRecDepth 1000000 in
/-- SessionMessagesAreServed, clause 8: a state and operands that meet the hypotheses. -/
theorem test_SessionMessagesAreServed_8 : ∃ (s : State) (m : TmpMsg) (n : Nat), s.msgPasses n tySubscribe m = true ∧ s.subFull n m.payload = true :=
  ⟨({ State.reset with ses := { sess := [(3, { subs := 3 })] } } : State).setAll [(NET_STS.STATE 0, 3), (SESS_STS.STATE 3, 2), (SESS_SID.SID 3, 5), (SESS_STS.CLASSES 3, 7), (SESS_MASK.ACC_MASK 3, 255), (SESS_MASK.ZONE_MASK 3, 255), (SESS_MASK.PUMP_MASK 3, 63), (SESS_VER.VMAJ 3, 1), (ACD_INFO.ACC_COUNT, 8), (SESS_STS.RECORDER 4, 1), (SESS_STS.RECORDER 5, 1), (SESS_STS.RECORDER 6, 1), (SESS_STS.RECORDER 7, 1)], { peer := { port := 0, v6 := false, mac := 0, ip := 0, udp := 0 }, vmaj := 1, vmin := 0, sid := 5, seq := 1, payload := [1, 2, 0, 0, 9, 0, 0, 0] }, 3, by and_intros <;> decide +kernel⟩

set_option maxRecDepth 1000000 in
/-- SessionMessagesAreServed, clause 9: a state and operands that meet the hypotheses. -/
theorem test_SessionMessagesAreServed_9 : ∃ (s : State) (m : TmpMsg) (n : Nat), s.msgPasses n tyFpStatement m = true ∧ s.on KEY_STS.DBG_OPEN = false ∧ s.on KEY_STS.READY = true ∧ s.acd.stmts.length < 17 :=
  ⟨State.reset.setAll [(NET_STS.STATE 0, 3), (SESS_STS.STATE 3, 2), (SESS_SID.SID 3, 5), (SESS_STS.CLASSES 3, 7), (SESS_MASK.ACC_MASK 3, 255), (SESS_MASK.ZONE_MASK 3, 255), (SESS_MASK.PUMP_MASK 3, 63), (SESS_VER.VMAJ 3, 1), (ACD_INFO.ACC_COUNT, 8), (KEY_STS.READY, 1)], { peer := { port := 0, v6 := false, mac := 0, ip := 0, udp := 0 }, vmaj := 1, vmin := 0, sid := 5, seq := 1, payload := List.replicate 32 7 }, 3, by and_intros <;> decide +kernel⟩

set_option maxRecDepth 1000000 in
/-- SessionMessagesAreServed, clause 10: a state and operands that meet the hypotheses. -/
theorem test_SessionMessagesAreServed_10 : ∃ (s : State) (m : TmpMsg) (n : Nat), s.msgPasses n tyFpStatement m = true ∧ s.on KEY_STS.DBG_OPEN = false ∧ s.on KEY_STS.READY = true ∧ 17 ≤ s.acd.stmts.length :=
  ⟨({ State.reset with acd := { stmts := List.replicate 17 (1, 2, []) } } : State).setAll [(NET_STS.STATE 0, 3), (SESS_STS.STATE 3, 2), (SESS_SID.SID 3, 5), (SESS_STS.CLASSES 3, 7), (SESS_MASK.ACC_MASK 3, 255), (SESS_MASK.ZONE_MASK 3, 255), (SESS_MASK.PUMP_MASK 3, 63), (SESS_VER.VMAJ 3, 1), (ACD_INFO.ACC_COUNT, 8), (KEY_STS.READY, 1)], { peer := { port := 0, v6 := false, mac := 0, ip := 0, udp := 0 }, vmaj := 1, vmin := 0, sid := 5, seq := 1, payload := List.replicate 32 7 }, 3, by and_intros <;> decide +kernel⟩

set_option maxRecDepth 1000000 in
/-- SessionMessagesAreServed, clause 11: a state and operands that meet the hypotheses. -/
theorem test_SessionMessagesAreServed_11 : ∃ (s : State) (m : TmpMsg) (n : Nat), s.msgPasses n tyFpStatement m = true ∧ s.on KEY_STS.DBG_OPEN = true :=
  ⟨State.reset.setAll [(NET_STS.STATE 0, 3), (SESS_STS.STATE 3, 2), (SESS_SID.SID 3, 5), (SESS_STS.CLASSES 3, 7), (SESS_MASK.ACC_MASK 3, 255), (SESS_MASK.ZONE_MASK 3, 255), (SESS_MASK.PUMP_MASK 3, 63), (SESS_VER.VMAJ 3, 1), (ACD_INFO.ACC_COUNT, 8), (KEY_STS.DBG_OPEN, 1)], { peer := { port := 0, v6 := false, mac := 0, ip := 0, udp := 0 }, vmaj := 1, vmin := 0, sid := 5, seq := 1, payload := List.replicate 32 7 }, 3, by and_intros <;> decide +kernel⟩

set_option maxRecDepth 1000000 in
/-- SessionMessagesAreServed, clause 12: a state and operands that meet the hypotheses. -/
theorem test_SessionMessagesAreServed_12 : ∃ (s : State) (m : TmpMsg) (n : Nat), s.msgPasses n tyStatus m = true :=
  ⟨State.reset.setAll [(NET_STS.STATE 0, 3), (SESS_STS.STATE 3, 2), (SESS_SID.SID 3, 5), (SESS_STS.CLASSES 3, 7), (SESS_MASK.ACC_MASK 3, 255), (SESS_MASK.ZONE_MASK 3, 255), (SESS_MASK.PUMP_MASK 3, 63), (SESS_VER.VMAJ 3, 1), (ACD_INFO.ACC_COUNT, 8)], { peer := { port := 0, v6 := false, mac := 0, ip := 0, udp := 0 }, vmaj := 1, vmin := 0, sid := 5, seq := 1, payload := [] }, 3, by decide +kernel⟩

set_option maxRecDepth 1000000 in
/-- SessionMessagesAreServed, clause 13: a state and operands that meet the hypotheses. -/
theorem test_SessionMessagesAreServed_13 : ∃ (s : State) (m : TmpMsg) (n : Nat) (e : List Byte), s.msgPasses n tySetCap m = true ∧ m.payload = [1, 0, 0, 0] ++ e :=
  ⟨({ State.reset with ses := { sess := [(3, {})] } } : State).setAll [(NET_STS.STATE 0, 3), (SESS_STS.STATE 3, 2), (SESS_SID.SID 3, 5), (SESS_STS.CLASSES 3, 7), (SESS_MASK.ACC_MASK 3, 255), (SESS_MASK.ZONE_MASK 3, 255), (SESS_MASK.PUMP_MASK 3, 63), (SESS_VER.VMAJ 3, 1), (ACD_INFO.ACC_COUNT, 8)], { peer := { port := 0, v6 := false, mac := 0, ip := 0, udp := 0 }, vmaj := 1, vmin := 0, sid := 5, seq := 1, payload := [1, 0, 0, 0, 2, 0, 0x20, 3] }, 3, [2, 0, 0x20, 3], by and_intros <;> decide +kernel⟩

set_option maxRecDepth 1000000 in
/-- SessionMessagesAreServed, clause 14: a state and operands that meet the hypotheses. -/
theorem test_SessionMessagesAreServed_14 : ∃ (s : State) (m : TmpMsg) (n : Nat) (e : List Byte), s.msgPasses n tySetFloor m = true ∧ m.payload = [1, 0, 0, 0] ++ e ∧ leAt e 0 1 = 0 :=
  ⟨({ State.reset with ses := { sess := [(3, {})] } } : State).setAll [(NET_STS.STATE 0, 3), (SESS_STS.STATE 3, 2), (SESS_SID.SID 3, 5), (SESS_STS.CLASSES 3, 7), (SESS_MASK.ACC_MASK 3, 255), (SESS_MASK.ZONE_MASK 3, 255), (SESS_MASK.PUMP_MASK 3, 63), (SESS_VER.VMAJ 3, 1), (ACD_INFO.ACC_COUNT, 8)], { peer := { port := 0, v6 := false, mac := 0, ip := 0, udp := 0 }, vmaj := 1, vmin := 0, sid := 5, seq := 1, payload := [1, 0, 0, 0, 0, 2, 40, 0] }, 3, [0, 2, 40, 0], by and_intros <;> decide +kernel⟩

set_option maxRecDepth 1000000 in
/-- SessionMessagesAreServed, clause 15: a state and operands that meet the hypotheses. -/
theorem test_SessionMessagesAreServed_15 : ∃ (s : State) (m : TmpMsg) (n : Nat), s.msgPasses n tyJob m = true :=
  ⟨State.reset.setAll [(NET_STS.STATE 0, 3), (SESS_STS.STATE 3, 2), (SESS_SID.SID 3, 5), (SESS_STS.CLASSES 3, 7), (SESS_MASK.ACC_MASK 3, 255), (SESS_MASK.ZONE_MASK 3, 255), (SESS_MASK.PUMP_MASK 3, 63), (SESS_VER.VMAJ 3, 1), (ACD_INFO.ACC_COUNT, 8)], { peer := { port := 0, v6 := false, mac := 0, ip := 0, udp := 0 }, vmaj := 1, vmin := 0, sid := 5, seq := 1, payload := [1, 0, 0, 0] }, 3, by decide +kernel⟩

set_option maxRecDepth 1000000 in
/-- SessionMessagesAreServed, clause 16: a state and operands that meet the hypotheses. -/
theorem test_SessionMessagesAreServed_16 : ∃ (s : State) (m : TmpMsg) (n : Nat), s.msgPasses n tyWdtKick m = true :=
  ⟨State.reset.setAll [(NET_STS.STATE 0, 3), (SESS_STS.STATE 3, 2), (SESS_SID.SID 3, 5), (SESS_STS.CLASSES 3, 7), (SESS_MASK.ACC_MASK 3, 255), (SESS_MASK.ZONE_MASK 3, 255), (SESS_MASK.PUMP_MASK 3, 63), (SESS_VER.VMAJ 3, 1), (ACD_INFO.ACC_COUNT, 8), (BRG_STS.STATE, 2)], { peer := { port := 0, v6 := false, mac := 0, ip := 0, udp := 0 }, vmaj := 1, vmin := 0, sid := 5, seq := 1, payload := [] }, 3, by decide +kernel⟩

set_option maxRecDepth 1000000 in
/-- SessionMessagesAreServed, clause 17: a state and operands that meet the hypotheses. -/
theorem test_SessionMessagesAreServed_17 : ∃ (s : State) (n : Fin 16), s.get (SESS_STS.JOB n.val) = 2 :=
  ⟨State.reset.setAll [(NET_STS.STATE 0, 3), (SESS_STS.STATE 3, 2), (SESS_SID.SID 3, 5), (SESS_STS.CLASSES 3, 7), (SESS_MASK.ACC_MASK 3, 255), (SESS_MASK.ZONE_MASK 3, 255), (SESS_MASK.PUMP_MASK 3, 63), (SESS_VER.VMAJ 3, 1), (ACD_INFO.ACC_COUNT, 8), (SESS_STS.JOB 3, 2)], 3, by decide +kernel⟩

set_option maxRecDepth 1000000 in
/-- SessionMessagesAreServed, clause 18: a state and operands that meet the hypotheses. -/
theorem test_SessionMessagesAreServed_18 : ∃ (s : State) (n : Fin 16), s.get (SESS_STS.JOB n.val) ≠ 2 :=
  ⟨State.reset, 3, by decide +kernel⟩

set_option maxRecDepth 1000000 in
/-- FirmwareMessagesReachTheirUnits, clause 1: a state and operands that meet the hypotheses. -/
theorem test_FirmwareMessagesReachTheirUnits_1 : ∃ (s : State) (m : TmpMsg) (n : Nat), s.msgPasses n tySeqCmd m = true ∧ s.fwIdle = true ∧ s.bridgeUp = true :=
  ⟨({ State.reset with pwr := { toppwrEn := true, toppwrGood := true, topRst := false } } : State).setAll [(NET_STS.STATE 0, 3), (SESS_STS.STATE 3, 2), (SESS_SID.SID 3, 5), (SESS_STS.CLASSES 3, 7), (SESS_MASK.ACC_MASK 3, 255), (SESS_MASK.ZONE_MASK 3, 255), (SESS_MASK.PUMP_MASK 3, 63), (SESS_VER.VMAJ 3, 1), (ACD_INFO.ACC_COUNT, 8), (BRG_STS.STATE, 2), (FW_CORE_STS.STATE, 16), (KEY_PRES.OPEN, 1)], { peer := { port := 0, v6 := false, mac := 0, ip := 0, udp := 0 }, vmaj := 1, vmin := 0, sid := 5, seq := 1, payload := [0, 0, 1, 0] }, 3, by and_intros <;> decide +kernel⟩

set_option maxRecDepth 1000000 in
/-- FirmwareMessagesReachTheirUnits, clause 2: a state and operands that meet the hypotheses. -/
theorem test_FirmwareMessagesReachTheirUnits_2 : ∃ (s : State) (m : TmpMsg) (n : Nat), s.msgPasses n tyTampClear m = true ∧ s.fwIdle = true ∧ s.bridgeUp = true ∧ (leAt m.payload 1 1 ≠ 0 → s.on KEY_PRES.OPEN = true) :=
  ⟨({ State.reset with pwr := { toppwrEn := true, toppwrGood := true, topRst := false } } : State).setAll [(NET_STS.STATE 0, 3), (SESS_STS.STATE 3, 2), (SESS_SID.SID 3, 5), (SESS_STS.CLASSES 3, 7), (SESS_MASK.ACC_MASK 3, 255), (SESS_MASK.ZONE_MASK 3, 255), (SESS_MASK.PUMP_MASK 3, 63), (SESS_VER.VMAJ 3, 1), (ACD_INFO.ACC_COUNT, 8), (BRG_STS.STATE, 2), (FW_CORE_STS.STATE, 16), (KEY_PRES.OPEN, 1)], { peer := { port := 0, v6 := false, mac := 0, ip := 0, udp := 0 }, vmaj := 1, vmin := 0, sid := 5, seq := 1, payload := [1, 0, 0, 0] }, 3, by and_intros <;> decide +kernel⟩

set_option maxRecDepth 1000000 in
/-- FirmwareMessagesReachTheirUnits, clause 3: a state and operands that meet the hypotheses. -/
theorem test_FirmwareMessagesReachTheirUnits_3 : ∃ (s : State) (m : TmpMsg) (n : Nat), s.msgPasses n tyTampClear m = true ∧ s.fwIdle = true ∧ s.bridgeUp = true ∧ leAt m.payload 1 1 ≠ 0 ∧ s.on KEY_PRES.OPEN = false :=
  ⟨({ State.reset with pwr := { toppwrEn := true, toppwrGood := true, topRst := false } } : State).setAll [(NET_STS.STATE 0, 3), (SESS_STS.STATE 3, 2), (SESS_SID.SID 3, 5), (SESS_STS.CLASSES 3, 7), (SESS_MASK.ACC_MASK 3, 255), (SESS_MASK.ZONE_MASK 3, 255), (SESS_MASK.PUMP_MASK 3, 63), (SESS_VER.VMAJ 3, 1), (ACD_INFO.ACC_COUNT, 8), (BRG_STS.STATE, 2), (FW_CORE_STS.STATE, 16), (KEY_PRES.OPEN, 1), (KEY_PRES.OPEN, 0)], { peer := { port := 0, v6 := false, mac := 0, ip := 0, udp := 0 }, vmaj := 1, vmin := 0, sid := 5, seq := 1, payload := [1, 1, 0, 0] }, 3, by and_intros <;> decide +kernel⟩

set_option maxRecDepth 1000000 in
/-- FirmwareMessagesReachTheirUnits, clause 4: a state and operands that meet the hypotheses. -/
theorem test_FirmwareMessagesReachTheirUnits_4 : ∃ (s : State) (m : TmpMsg) (n : Nat), s.msgPasses n tyPowerState m = true ∧ s.fwIdle = true ∧ s.bridgeUp = true ∧ leAt m.payload 0 1 = 1 :=
  ⟨({ State.reset with pwr := { toppwrEn := true, toppwrGood := true, topRst := false } } : State).setAll [(NET_STS.STATE 0, 3), (SESS_STS.STATE 3, 2), (SESS_SID.SID 3, 5), (SESS_STS.CLASSES 3, 7), (SESS_MASK.ACC_MASK 3, 255), (SESS_MASK.ZONE_MASK 3, 255), (SESS_MASK.PUMP_MASK 3, 63), (SESS_VER.VMAJ 3, 1), (ACD_INFO.ACC_COUNT, 8), (BRG_STS.STATE, 2), (FW_CORE_STS.STATE, 16), (KEY_PRES.OPEN, 1)], { peer := { port := 0, v6 := false, mac := 0, ip := 0, udp := 0 }, vmaj := 1, vmin := 0, sid := 5, seq := 1, payload := [1] }, 3, by and_intros <;> decide +kernel⟩

set_option maxRecDepth 1000000 in
/-- FirmwareMessagesReachTheirUnits, clause 5: a state and operands that meet the hypotheses. -/
theorem test_FirmwareMessagesReachTheirUnits_5 : ∃ (s : State) (m : TmpMsg) (n : Nat), s.msgPasses n tyPowerState m = true ∧ s.fwIdle = true ∧ s.bridgeUp = true ∧ leAt m.payload 0 1 = 2 :=
  ⟨({ State.reset with pwr := { toppwrEn := true, toppwrGood := true, topRst := false } } : State).setAll [(NET_STS.STATE 0, 3), (SESS_STS.STATE 3, 2), (SESS_SID.SID 3, 5), (SESS_STS.CLASSES 3, 7), (SESS_MASK.ACC_MASK 3, 255), (SESS_MASK.ZONE_MASK 3, 255), (SESS_MASK.PUMP_MASK 3, 63), (SESS_VER.VMAJ 3, 1), (ACD_INFO.ACC_COUNT, 8), (BRG_STS.STATE, 2), (FW_CORE_STS.STATE, 16), (KEY_PRES.OPEN, 1)], { peer := { port := 0, v6 := false, mac := 0, ip := 0, udp := 0 }, vmaj := 1, vmin := 0, sid := 5, seq := 1, payload := [2] }, 3, by and_intros <;> decide +kernel⟩

set_option maxRecDepth 1000000 in
/-- FirmwareMessagesReachTheirUnits, clause 6: a state and operands that meet the hypotheses. -/
theorem test_FirmwareMessagesReachTheirUnits_6 : ∃ (s : State) (m : TmpMsg) (n : Nat), s.msgPasses n tyTopReset m = true ∧ s.fwIdle = true ∧ s.bridgeUp = true :=
  ⟨({ State.reset with pwr := { toppwrEn := true, toppwrGood := true, topRst := false } } : State).setAll [(NET_STS.STATE 0, 3), (SESS_STS.STATE 3, 2), (SESS_SID.SID 3, 5), (SESS_STS.CLASSES 3, 7), (SESS_MASK.ACC_MASK 3, 255), (SESS_MASK.ZONE_MASK 3, 255), (SESS_MASK.PUMP_MASK 3, 63), (SESS_VER.VMAJ 3, 1), (ACD_INFO.ACC_COUNT, 8), (BRG_STS.STATE, 2), (FW_CORE_STS.STATE, 16), (KEY_PRES.OPEN, 1)], { peer := { port := 0, v6 := false, mac := 0, ip := 0, udp := 0 }, vmaj := 1, vmin := 0, sid := 5, seq := 1, payload := [] }, 3, by and_intros <;> decide +kernel⟩

set_option maxRecDepth 1000000 in
/-- FirmwareMessagesReachTheirUnits, clause 7: a state and operands that meet the hypotheses. -/
theorem test_FirmwareMessagesReachTheirUnits_7 : ∃ (s : State) (m : TmpMsg) (n : Nat), s.msgPasses n tyWarmReset m = true ∧ s.fwIdle = true ∧ s.bridgeUp = true :=
  ⟨({ State.reset with pwr := { toppwrEn := true, toppwrGood := true, topRst := false } } : State).setAll [(NET_STS.STATE 0, 3), (SESS_STS.STATE 3, 2), (SESS_SID.SID 3, 5), (SESS_STS.CLASSES 3, 7), (SESS_MASK.ACC_MASK 3, 255), (SESS_MASK.ZONE_MASK 3, 255), (SESS_MASK.PUMP_MASK 3, 63), (SESS_VER.VMAJ 3, 1), (ACD_INFO.ACC_COUNT, 8), (BRG_STS.STATE, 2), (FW_CORE_STS.STATE, 16), (KEY_PRES.OPEN, 1)], { peer := { port := 0, v6 := false, mac := 0, ip := 0, udp := 0 }, vmaj := 1, vmin := 0, sid := 5, seq := 1, payload := [] }, 3, by and_intros <;> decide +kernel⟩

set_option maxRecDepth 1000000 in
/-- FirmwareMessagesReachTheirUnits, clause 8: a state and operands that meet the hypotheses. -/
theorem test_FirmwareMessagesReachTheirUnits_8 : ∃ (s : State) (m : TmpMsg) (n : Nat), s.msgPasses n tyRecCtl m = true ∧ s.fwIdle = true :=
  ⟨({ State.reset with pwr := { toppwrEn := true, toppwrGood := true, topRst := false } } : State).setAll [(NET_STS.STATE 0, 3), (SESS_STS.STATE 3, 2), (SESS_SID.SID 3, 5), (SESS_STS.CLASSES 3, 7), (SESS_MASK.ACC_MASK 3, 255), (SESS_MASK.ZONE_MASK 3, 255), (SESS_MASK.PUMP_MASK 3, 63), (SESS_VER.VMAJ 3, 1), (ACD_INFO.ACC_COUNT, 8), (BRG_STS.STATE, 2), (FW_CORE_STS.STATE, 16), (KEY_PRES.OPEN, 1)], { peer := { port := 0, v6 := false, mac := 0, ip := 0, udp := 0 }, vmaj := 1, vmin := 0, sid := 5, seq := 1, payload := [4, 0, 0, 0] }, 3, by and_intros <;> decide +kernel⟩

set_option maxRecDepth 1000000 in
/-- FirmwareMessagesReachTheirUnits, clause 9: a state and operands that meet the hypotheses. -/
theorem test_FirmwareMessagesReachTheirUnits_9 : ∃ (s : State) (m : TmpMsg) (n : Nat) (e : List Byte) (w : Nat), s.msgPasses n tySigInstall m = true ∧ s.fwIdle = true ∧ m.payload = [1, 0, 0, 0] ++ e ∧ e.length = 32 ∧ bitOf (leAt e 0 4) 0 = true ∧ (s.sigWays (bitsOf (leAt e 0 4) 1 3) (leAt e 4 4)).head? = some w :=
  ⟨({ State.reset with pwr := { toppwrEn := true, toppwrGood := true, topRst := false }, mem := memStore [] (sigAddr (sigSet 2 7) 1) [0x25, 0, 0, 0, 7] } : State).setAll [(NET_STS.STATE 0, 3), (SESS_STS.STATE 3, 2), (SESS_SID.SID 3, 5), (SESS_STS.CLASSES 3, 7), (SESS_MASK.ACC_MASK 3, 255), (SESS_MASK.ZONE_MASK 3, 255), (SESS_MASK.PUMP_MASK 3, 63), (SESS_VER.VMAJ 3, 1), (ACD_INFO.ACC_COUNT, 8), (BRG_STS.STATE, 2), (FW_CORE_STS.STATE, 16), (KEY_PRES.OPEN, 1)], { peer := { port := 0, v6 := false, mac := 0, ip := 0, udp := 0 }, vmaj := 1, vmin := 0, sid := 5, seq := 1, payload := ([1, 0, 0, 0] ++ [0x25, 0, 0, 0, 7, 0, 0, 0] ++ List.replicate 24 1 : List Byte) }, 3, [0x25, 0, 0, 0, 7, 0, 0, 0] ++ List.replicate 24 1, 1, by and_intros <;> decide +kernel⟩

set_option maxRecDepth 1000000 in
/-- FirmwareMessagesReachTheirUnits, clause 10: a state and operands that meet the hypotheses. -/
theorem test_FirmwareMessagesReachTheirUnits_10 : ∃ (s : State) (m : TmpMsg) (n : Nat) (rs : List (Nat × List Byte)), s.msgPasses n tySettingCommit m = true ∧ s.fwIdle = true ∧ s.bridgeUp = true ∧ m.payload.length ≤ 3328 ∧ settingsOf m.payload = some rs ∧ s.nvm.busy = none ∧ s.nvm.compacting = false ∧ s.nvm.queue = [] ∧ s.on PWRST_BO_STS.NVM_HELD = false ∧ s.pwr.warmOn = false ∧ s.nvm.used + entrySize m.payload.length ≤ bankRoom :=
  ⟨({ State.reset with pwr := { toppwrEn := true, toppwrGood := true, topRst := false } } : State).setAll [(NET_STS.STATE 0, 3), (SESS_STS.STATE 3, 2), (SESS_SID.SID 3, 5), (SESS_STS.CLASSES 3, 7), (SESS_MASK.ACC_MASK 3, 255), (SESS_MASK.ZONE_MASK 3, 255), (SESS_MASK.PUMP_MASK 3, 63), (SESS_VER.VMAJ 3, 1), (ACD_INFO.ACC_COUNT, 8), (BRG_STS.STATE, 2), (FW_CORE_STS.STATE, 16), (KEY_PRES.OPEN, 1)], { peer := { port := 0, v6 := false, mac := 0, ip := 0, udp := 0 }, vmaj := 1, vmin := 0, sid := 5, seq := 1, payload := [0, 0x80, 0, 0, 1, 0, 0, 0, 9, 0, 0, 0, 0, 0, 0, 0] }, 3, (settingsOf ([0, 0x80, 0, 0, 1, 0, 0, 0, 9, 0, 0, 0, 0, 0, 0, 0] : List Byte)).getD [], by and_intros <;> decide +kernel⟩

set_option maxRecDepth 1000000 in
/-- FirmwareMessagesReachTheirUnits, clause 11: a state and operands that meet the hypotheses. -/
theorem test_FirmwareMessagesReachTheirUnits_11 : ∃ (s : State) (m : TmpMsg) (n : Nat) (rs : List (Nat × List Byte)), s.msgPasses n tySettingCommit m = true ∧ s.fwIdle = true ∧ s.bridgeUp = true ∧ m.payload.length ≤ 3328 ∧ settingsOf m.payload = some rs ∧ s.nvm.busy.isSome = true :=
  ⟨({ State.reset with pwr := { toppwrEn := true, toppwrGood := true, topRst := false }, nvm := { busy := some { kind := kindSil, key := 0, len := 64, data := [.silClear] } } } : State).setAll [(NET_STS.STATE 0, 3), (SESS_STS.STATE 3, 2), (SESS_SID.SID 3, 5), (SESS_STS.CLASSES 3, 7), (SESS_MASK.ACC_MASK 3, 255), (SESS_MASK.ZONE_MASK 3, 255), (SESS_MASK.PUMP_MASK 3, 63), (SESS_VER.VMAJ 3, 1), (ACD_INFO.ACC_COUNT, 8), (BRG_STS.STATE, 2), (FW_CORE_STS.STATE, 16), (KEY_PRES.OPEN, 1)], { peer := { port := 0, v6 := false, mac := 0, ip := 0, udp := 0 }, vmaj := 1, vmin := 0, sid := 5, seq := 1, payload := [0, 0x80, 0, 0, 1, 0, 0, 0, 9, 0, 0, 0, 0, 0, 0, 0] }, 3, (settingsOf ([0, 0x80, 0, 0, 1, 0, 0, 0, 9, 0, 0, 0, 0, 0, 0, 0] : List Byte)).getD [], by and_intros <;> decide +kernel⟩

set_option maxRecDepth 1000000 in
/-- FirmwareMessagesReachTheirUnits, clause 12: a state and operands that meet the hypotheses. -/
theorem test_FirmwareMessagesReachTheirUnits_12 : ∃ (s : State) (m : TmpMsg) (n : Nat), s.msgPasses n tyMargin m = true ∧ s.fwIdle = true ∧ s.bridgeUp = true ∧ leAt m.payload 0 1 ≠ 0 :=
  ⟨({ State.reset with pwr := { toppwrEn := true, toppwrGood := true, topRst := false } } : State).setAll [(NET_STS.STATE 0, 3), (SESS_STS.STATE 3, 2), (SESS_SID.SID 3, 5), (SESS_STS.CLASSES 3, 7), (SESS_MASK.ACC_MASK 3, 255), (SESS_MASK.ZONE_MASK 3, 255), (SESS_MASK.PUMP_MASK 3, 63), (SESS_VER.VMAJ 3, 1), (ACD_INFO.ACC_COUNT, 8), (BRG_STS.STATE, 2), (FW_CORE_STS.STATE, 16), (KEY_PRES.OPEN, 1)], { peer := { port := 0, v6 := false, mac := 0, ip := 0, udp := 0 }, vmaj := 1, vmin := 0, sid := 5, seq := 1, payload := [1, 9, 0, 1] }, 3, by and_intros <;> decide +kernel⟩

set_option maxRecDepth 1000000 in
/-- FirmwareMessagesReachTheirUnits, clause 13: a state and operands that meet the hypotheses. -/
theorem test_FirmwareMessagesReachTheirUnits_13 : ∃ (s : State) (m : TmpMsg) (n : Nat), s.msgPasses n tyMargin m = true ∧ s.fwIdle = true ∧ s.bridgeUp = true ∧ leAt m.payload 0 1 = 0 :=
  ⟨({ State.reset with pwr := { toppwrEn := true, toppwrGood := true, topRst := false } } : State).setAll [(NET_STS.STATE 0, 3), (SESS_STS.STATE 3, 2), (SESS_SID.SID 3, 5), (SESS_STS.CLASSES 3, 7), (SESS_MASK.ACC_MASK 3, 255), (SESS_MASK.ZONE_MASK 3, 255), (SESS_MASK.PUMP_MASK 3, 63), (SESS_VER.VMAJ 3, 1), (ACD_INFO.ACC_COUNT, 8), (BRG_STS.STATE, 2), (FW_CORE_STS.STATE, 16), (KEY_PRES.OPEN, 1)], { peer := { port := 0, v6 := false, mac := 0, ip := 0, udp := 0 }, vmaj := 1, vmin := 0, sid := 5, seq := 1, payload := [0, 9, 0, 1] }, 3, by and_intros <;> decide +kernel⟩

set_option maxRecDepth 1000000 in
/-- FirmwareMessagesReachTheirUnits, clause 14: a state and operands that meet the hypotheses. -/
theorem test_FirmwareMessagesReachTheirUnits_14 : ∃ (s : State) (m : TmpMsg) (n : Nat) (ok : Bool) (un : Option (BitVec 28)), s.msgPasses n tyAccordAccept m = true ∧ s.fwIdle = true ∧ s.bridgeUp = true ∧ s.flashHeld = false :=
  ⟨({ State.reset with pwr := { toppwrEn := true, toppwrGood := true, topRst := false } } : State).setAll [(NET_STS.STATE 0, 3), (SESS_STS.STATE 3, 2), (SESS_SID.SID 3, 5), (SESS_STS.CLASSES 3, 7), (SESS_MASK.ACC_MASK 3, 255), (SESS_MASK.ZONE_MASK 3, 255), (SESS_MASK.PUMP_MASK 3, 63), (SESS_VER.VMAJ 3, 1), (ACD_INFO.ACC_COUNT, 8), (BRG_STS.STATE, 2), (FW_CORE_STS.STATE, 16), (KEY_PRES.OPEN, 1)], { peer := { port := 0, v6 := false, mac := 0, ip := 0, udp := 0 }, vmaj := 1, vmin := 0, sid := 5, seq := 1, payload := List.replicate 48 0 }, 3, true, none, by and_intros <;> decide +kernel⟩

set_option maxRecDepth 1000000 in
/-- FirmwareMessagesReachTheirUnits, clause 15: a state and operands that meet the hypotheses. -/
theorem test_FirmwareMessagesReachTheirUnits_15 : ∃ (s : State) (m : TmpMsg) (n : Nat) (ok : Bool), s.msgPasses n tyKeyChange (keyOp m 1) = true ∧ s.fwIdle = true ∧ s.bridgeUp = true :=
  ⟨({ State.reset with pwr := { toppwrEn := true, toppwrGood := true, topRst := false } } : State).setAll [(NET_STS.STATE 0, 3), (SESS_STS.STATE 3, 2), (SESS_SID.SID 3, 5), (SESS_STS.CLASSES 3, 7), (SESS_MASK.ACC_MASK 3, 255), (SESS_MASK.ZONE_MASK 3, 255), (SESS_MASK.PUMP_MASK 3, 63), (SESS_VER.VMAJ 3, 1), (ACD_INFO.ACC_COUNT, 8), (BRG_STS.STATE, 2), (FW_CORE_STS.STATE, 16), (KEY_PRES.OPEN, 1)], { peer := { port := 0, v6 := false, mac := 0, ip := 0, udp := 0 }, vmaj := 1, vmin := 0, sid := 5, seq := 1, payload := List.replicate 8746 0 }, 3, true, by and_intros <;> decide +kernel⟩

set_option maxRecDepth 1000000 in
/-- FirmwareMessagesReachTheirUnits, clause 16: a state and operands that meet the hypotheses. -/
theorem test_FirmwareMessagesReachTheirUnits_16 : ∃ (s : State) (m : TmpMsg) (n : Nat), s.msgPasses n tyKeyChange (keyOp m 2) = true ∧ s.fwIdle = true ∧ s.bridgeUp = true :=
  ⟨({ State.reset with pwr := { toppwrEn := true, toppwrGood := true, topRst := false } } : State).setAll [(NET_STS.STATE 0, 3), (SESS_STS.STATE 3, 2), (SESS_SID.SID 3, 5), (SESS_STS.CLASSES 3, 7), (SESS_MASK.ACC_MASK 3, 255), (SESS_MASK.ZONE_MASK 3, 255), (SESS_MASK.PUMP_MASK 3, 63), (SESS_VER.VMAJ 3, 1), (ACD_INFO.ACC_COUNT, 8), (BRG_STS.STATE, 2), (FW_CORE_STS.STATE, 16), (KEY_PRES.OPEN, 1)], { peer := { port := 0, v6 := false, mac := 0, ip := 0, udp := 0 }, vmaj := 1, vmin := 0, sid := 5, seq := 1, payload := [] }, 3, by and_intros <;> decide +kernel⟩

set_option maxRecDepth 1000000 in
/-- FirmwareMessagesReachTheirUnits, clause 17: a state and operands that meet the hypotheses. -/
theorem test_FirmwareMessagesReachTheirUnits_17 : ∃ (s : State) (m : TmpMsg) (n : Nat), s.msgPasses n tyDebugUnlock (dbgOp m 1) = true ∧ s.fwIdle = true ∧ s.bridgeUp = true :=
  ⟨({ State.reset with pwr := { toppwrEn := true, toppwrGood := true, topRst := false } } : State).setAll [(NET_STS.STATE 0, 3), (SESS_STS.STATE 3, 2), (SESS_SID.SID 3, 5), (SESS_STS.CLASSES 3, 7), (SESS_MASK.ACC_MASK 3, 255), (SESS_MASK.ZONE_MASK 3, 255), (SESS_MASK.PUMP_MASK 3, 63), (SESS_VER.VMAJ 3, 1), (ACD_INFO.ACC_COUNT, 8), (BRG_STS.STATE, 2), (FW_CORE_STS.STATE, 16), (KEY_PRES.OPEN, 1)], { peer := { port := 0, v6 := false, mac := 0, ip := 0, udp := 0 }, vmaj := 1, vmin := 0, sid := 5, seq := 1, payload := [1, 10, 0] }, 3, by and_intros <;> decide +kernel⟩

set_option maxRecDepth 1000000 in
/-- FirmwareMessagesReachTheirUnits, clause 18: a state and operands that meet the hypotheses. -/
theorem test_FirmwareMessagesReachTheirUnits_18 : ∃ (s : State) (m : TmpMsg) (n : Nat), s.msgPasses n tyDebugUnlock (dbgOp m 2) = true ∧ s.fwIdle = true ∧ s.bridgeUp = true :=
  ⟨({ State.reset with pwr := { toppwrEn := true, toppwrGood := true, topRst := false } } : State).setAll [(NET_STS.STATE 0, 3), (SESS_STS.STATE 3, 2), (SESS_SID.SID 3, 5), (SESS_STS.CLASSES 3, 7), (SESS_MASK.ACC_MASK 3, 255), (SESS_MASK.ZONE_MASK 3, 255), (SESS_MASK.PUMP_MASK 3, 63), (SESS_VER.VMAJ 3, 1), (ACD_INFO.ACC_COUNT, 8), (BRG_STS.STATE, 2), (FW_CORE_STS.STATE, 16), (KEY_PRES.OPEN, 1)], { peer := { port := 0, v6 := false, mac := 0, ip := 0, udp := 0 }, vmaj := 1, vmin := 0, sid := 5, seq := 1, payload := ([1, 10, 0] ++ List.replicate 3373 0 : List Byte) }, 3, by and_intros <;> decide +kernel⟩

set_option maxRecDepth 1000000 in
/-- FirmwareMessagesReachTheirUnits, clause 19: a state and operands that meet the hypotheses. -/
theorem test_FirmwareMessagesReachTheirUnits_19 : ∃ (s : State) (m : TmpMsg) (n : Nat), s.msgPasses n tyLogClear m = true ∧ s.fwIdle = true ∧ s.bridgeUp = true ∧ s.nvm.busy = none ∧ s.nvm.compacting = false ∧ s.nvm.queue = [] ∧ s.on PWRST_BO_STS.NVM_HELD = false ∧ s.pwr.warmOn = false ∧ s.nvm.used + entrySize 64 ≤ bankRoom :=
  ⟨({ State.reset with pwr := { toppwrEn := true, toppwrGood := true, topRst := false } } : State).setAll [(NET_STS.STATE 0, 3), (SESS_STS.STATE 3, 2), (SESS_SID.SID 3, 5), (SESS_STS.CLASSES 3, 7), (SESS_MASK.ACC_MASK 3, 255), (SESS_MASK.ZONE_MASK 3, 255), (SESS_MASK.PUMP_MASK 3, 63), (SESS_VER.VMAJ 3, 1), (ACD_INFO.ACC_COUNT, 8), (BRG_STS.STATE, 2), (FW_CORE_STS.STATE, 16), (KEY_PRES.OPEN, 1)], { peer := { port := 0, v6 := false, mac := 0, ip := 0, udp := 0 }, vmaj := 1, vmin := 0, sid := 5, seq := 1, payload := [3, 0, 0, 0] }, 3, by and_intros <;> decide +kernel⟩

set_option maxRecDepth 1000000 in
/-- FirmwareMessagesReachTheirUnits, clause 20: a state and operands that meet the hypotheses. -/
theorem test_FirmwareMessagesReachTheirUnits_20 : ∃ (s : State) (m : TmpMsg) (n : Nat), s.msgPasses n tySeqCmd m = true ∧ s.coreRuns 1 = false ∧ (s.get SES_RXQ_PTR.WR + 1) % 64 ≠ s.get SES_RXQ_PTR.RD :=
  ⟨State.reset.setAll [(NET_STS.STATE 0, 3), (SESS_STS.STATE 3, 2), (SESS_SID.SID 3, 5), (SESS_STS.CLASSES 3, 7), (SESS_MASK.ACC_MASK 3, 255), (SESS_MASK.ZONE_MASK 3, 255), (SESS_MASK.PUMP_MASK 3, 63), (SESS_VER.VMAJ 3, 1), (ACD_INFO.ACC_COUNT, 8)], { peer := { port := 0, v6 := false, mac := 0, ip := 0, udp := 0 }, vmaj := 1, vmin := 0, sid := 5, seq := 1, payload := [0, 0, 1, 0] }, 3, by and_intros <;> decide +kernel⟩

set_option maxRecDepth 1000000 in
/-- FirmwareMessagesReachTheirUnits, clause 21: a state and operands that meet the hypotheses. -/
theorem test_FirmwareMessagesReachTheirUnits_21 : ∃ (s : State) (m : TmpMsg) (n : Nat), s.msgPasses n tySeqCmd m = true ∧ s.coreRuns 1 = false ∧ (s.get SES_RXQ_PTR.WR + 1) % 64 = s.get SES_RXQ_PTR.RD :=
  ⟨State.reset.setAll [(NET_STS.STATE 0, 3), (SESS_STS.STATE 3, 2), (SESS_SID.SID 3, 5), (SESS_STS.CLASSES 3, 7), (SESS_MASK.ACC_MASK 3, 255), (SESS_MASK.ZONE_MASK 3, 255), (SESS_MASK.PUMP_MASK 3, 63), (SESS_VER.VMAJ 3, 1), (ACD_INFO.ACC_COUNT, 8), (SES_RXQ_PTR.RD, 1)], { peer := { port := 0, v6 := false, mac := 0, ip := 0, udp := 0 }, vmaj := 1, vmin := 0, sid := 5, seq := 1, payload := [0, 0, 1, 0] }, 3, by and_intros <;> decide +kernel⟩

set_option maxRecDepth 1000000 in
/-- FirmwareMessagesReachTheirUnits, clause 22: a state and operands that meet the hypotheses. -/
theorem test_FirmwareMessagesReachTheirUnits_22 : ∃ (s : State) (m : TmpMsg) (n : Nat) (ok : Bool) (un : Option (BitVec 28)), s.msgPasses n tyAccordAccept m = true ∧ s.fwIdle = true ∧ s.flashHeld = true :=
  ⟨State.reset.setAll [(NET_STS.STATE 0, 3), (SESS_STS.STATE 3, 2), (SESS_SID.SID 3, 5), (SESS_STS.CLASSES 3, 7), (SESS_MASK.ACC_MASK 3, 255), (SESS_MASK.ZONE_MASK 3, 255), (SESS_MASK.PUMP_MASK 3, 63), (SESS_VER.VMAJ 3, 1), (ACD_INFO.ACC_COUNT, 8), (BRG_STS.STATE, 2), (FW_CORE_STS.STATE, 16), (KEY_PRES.OPEN, 1), (PWRST_BO_STS.NVM_HELD, 1)], { peer := { port := 0, v6 := false, mac := 0, ip := 0, udp := 0 }, vmaj := 1, vmin := 0, sid := 5, seq := 1, payload := List.replicate 48 0 }, 3, true, none, by and_intros <;> decide +kernel⟩

set_option maxRecDepth 1000000 in
/-- FirmwareMessagesReachTheirUnits, clause 23: a state and operands that meet the hypotheses. -/
theorem test_FirmwareMessagesReachTheirUnits_23 : ∃ (s : State) (m : TmpMsg) (n : Nat), s.msgPasses n tySeqCmd m = true ∧ s.fwIdle = true ∧ s.bridgeUp = false :=
  ⟨State.reset.setAll [(NET_STS.STATE 0, 3), (SESS_STS.STATE 3, 2), (SESS_SID.SID 3, 5), (SESS_STS.CLASSES 3, 7), (SESS_MASK.ACC_MASK 3, 255), (SESS_MASK.ZONE_MASK 3, 255), (SESS_MASK.PUMP_MASK 3, 63), (SESS_VER.VMAJ 3, 1), (ACD_INFO.ACC_COUNT, 8), (FW_CORE_STS.STATE, 16)], { peer := { port := 0, v6 := false, mac := 0, ip := 0, udp := 0 }, vmaj := 1, vmin := 0, sid := 5, seq := 1, payload := [0, 0, 1, 0] }, 3, by and_intros <;> decide +kernel⟩

set_option maxRecDepth 1000000 in
/-- FirmwareMessagesReachTheirUnits, clause 24: a state and operands that meet the hypotheses. -/
theorem test_FirmwareMessagesReachTheirUnits_24 : ∃ (s : State) (ini : Initiator) (wr : Fin 64), s.judge ini true SES_TXQ_PTR.WR.addr = .allowed ∧ wr.val = (s.get SES_TXQ_PTR.RD + 1) % 64 ∧ s.isOpen (leAt (memBytes s.mem (slotAt (s.get SES_TXQ_BASE.BASE) (s.get SES_TXQ_PTR.RD)) 0x5000) 2 1 % 16) = false :=
  ⟨{ State.reset with pwr := { toppwrEn := true, toppwrGood := true, topRst := false } }, .core 1, 1, by and_intros <;> decide +kernel⟩

set_option maxRecDepth 1000000 in
/-- FirmwareMessagesReachTheirUnits, clause 25: a state and operands that meet the hypotheses. -/
theorem test_FirmwareMessagesReachTheirUnits_25 : ∃ (s : State) (ini : Initiator) (wr : Fin 64) (n : Nat) (b : List Byte), s.judge ini true SES_TXQ_PTR.WR.addr = .allowed ∧ wr.val = (s.get SES_TXQ_PTR.RD + 1) % 64 ∧ memBytes s.mem (slotAt (s.get SES_TXQ_BASE.BASE) (s.get SES_TXQ_PTR.RD)) 16 = b ∧ leAt b 2 1 = n ∧ n < 16 ∧ s.isOpen n = true ∧ s.netLink (s.replyPeer n (leAt b 4 8)).port.val = true ∧ leAt b 12 4 = 0 :=
  ⟨({ State.reset with pwr := { toppwrEn := true, toppwrGood := true, topRst := false }, mem := memStore [] (slotAt 0 0) [6, 2, 3] } : State).setAll [(NET_STS.STATE 0, 3), (SESS_STS.STATE 3, 2), (SESS_SID.SID 3, 5), (SESS_STS.CLASSES 3, 7), (SESS_MASK.ACC_MASK 3, 255), (SESS_MASK.ZONE_MASK 3, 255), (SESS_MASK.PUMP_MASK 3, 63), (SESS_VER.VMAJ 3, 1), (ACD_INFO.ACC_COUNT, 8)], .core 1, 1, 3, [6, 2, 3, 0, 0, 0, 0, 0, 0, 0, 0, 0, 0, 0, 0, 0], by and_intros <;> decide +kernel⟩

set_option maxRecDepth 1000000 in
/-- RefusedMessagesChangeNothingElse, clause 1: a state and operands that meet the hypotheses. -/
theorem test_RefusedMessagesChangeNothingElse_1 : ∃ (s : State) (m : TmpMsg) (n : Nat), s.msgHeard n m = true ∧ s.tmpCheck n tyPing m ≠ 0 :=
  ⟨State.reset.setAll [(NET_STS.STATE 0, 3), (SESS_STS.STATE 3, 2), (SESS_SID.SID 3, 5), (SESS_STS.CLASSES 3, 7), (SESS_MASK.ACC_MASK 3, 255), (SESS_MASK.ZONE_MASK 3, 255), (SESS_MASK.PUMP_MASK 3, 63), (SESS_VER.VMAJ 3, 1), (ACD_INFO.ACC_COUNT, 8), (SESS_VER.VMAJ 3, 9)], { peer := { port := 0, v6 := false, mac := 0, ip := 0, udp := 0 }, vmaj := 1, vmin := 0, sid := 5, seq := 1, payload := [] }, 3, by and_intros <;> decide +kernel⟩

set_option maxRecDepth 1000000 in
/-- RefusedMessagesChangeNothingElse, clause 2: a state and operands that meet the hypotheses. -/
theorem test_RefusedMessagesChangeNothingElse_2 : ∃ (s : State) (m : TmpMsg) (n : Nat), s.msgHeard n m = true ∧ s.tmpCheck n tyClose m ≠ 0 :=
  ⟨State.reset.setAll [(NET_STS.STATE 0, 3), (SESS_STS.STATE 3, 2), (SESS_SID.SID 3, 5), (SESS_STS.CLASSES 3, 7), (SESS_MASK.ACC_MASK 3, 255), (SESS_MASK.ZONE_MASK 3, 255), (SESS_MASK.PUMP_MASK 3, 63), (SESS_VER.VMAJ 3, 1), (ACD_INFO.ACC_COUNT, 8), (SESS_VER.VMAJ 3, 9)], { peer := { port := 0, v6 := false, mac := 0, ip := 0, udp := 0 }, vmaj := 1, vmin := 0, sid := 5, seq := 1, payload := [] }, 3, by and_intros <;> decide +kernel⟩

set_option maxRecDepth 1000000 in
/-- RefusedMessagesChangeNothingElse, clause 3: a state and operands that meet the hypotheses. -/
theorem test_RefusedMessagesChangeNothingElse_3 : ∃ (s : State) (m : TmpMsg) (n : Nat), s.msgHeard n m = true ∧ s.tmpCheck n tyReadStat m ≠ 0 :=
  ⟨State.reset.setAll [(NET_STS.STATE 0, 3), (SESS_STS.STATE 3, 2), (SESS_SID.SID 3, 5), (SESS_STS.CLASSES 3, 7), (SESS_MASK.ACC_MASK 3, 255), (SESS_MASK.ZONE_MASK 3, 255), (SESS_MASK.PUMP_MASK 3, 63), (SESS_VER.VMAJ 3, 1), (ACD_INFO.ACC_COUNT, 8), (SESS_VER.VMAJ 3, 9)], { peer := { port := 0, v6 := false, mac := 0, ip := 0, udp := 0 }, vmaj := 1, vmin := 0, sid := 5, seq := 1, payload := [] }, 3, by and_intros <;> decide +kernel⟩

set_option maxRecDepth 1000000 in
/-- RefusedMessagesChangeNothingElse, clause 4: a state and operands that meet the hypotheses. -/
theorem test_RefusedMessagesChangeNothingElse_4 : ∃ (s : State) (m : TmpMsg) (n : Nat), s.msgHeard n m = true ∧ s.tmpCheck n tySubscribe m ≠ 0 :=
  ⟨State.reset.setAll [(NET_STS.STATE 0, 3), (SESS_STS.STATE 3, 2), (SESS_SID.SID 3, 5), (SESS_STS.CLASSES 3, 7), (SESS_MASK.ACC_MASK 3, 255), (SESS_MASK.ZONE_MASK 3, 255), (SESS_MASK.PUMP_MASK 3, 63), (SESS_VER.VMAJ 3, 1), (ACD_INFO.ACC_COUNT, 8), (SESS_VER.VMAJ 3, 9)], { peer := { port := 0, v6 := false, mac := 0, ip := 0, udp := 0 }, vmaj := 1, vmin := 0, sid := 5, seq := 1, payload := [] }, 3, by and_intros <;> decide +kernel⟩

set_option maxRecDepth 1000000 in
/-- RefusedMessagesChangeNothingElse, clause 5: a state and operands that meet the hypotheses. -/
theorem test_RefusedMessagesChangeNothingElse_5 : ∃ (s : State) (m : TmpMsg) (n : Nat), s.msgHeard n m = true ∧ s.tmpCheck n tyFpStatement m ≠ 0 :=
  ⟨State.reset.setAll [(NET_STS.STATE 0, 3), (SESS_STS.STATE 3, 2), (SESS_SID.SID 3, 5), (SESS_STS.CLASSES 3, 7), (SESS_MASK.ACC_MASK 3, 255), (SESS_MASK.ZONE_MASK 3, 255), (SESS_MASK.PUMP_MASK 3, 63), (SESS_VER.VMAJ 3, 1), (ACD_INFO.ACC_COUNT, 8), (SESS_VER.VMAJ 3, 9)], { peer := { port := 0, v6 := false, mac := 0, ip := 0, udp := 0 }, vmaj := 1, vmin := 0, sid := 5, seq := 1, payload := [] }, 3, by and_intros <;> decide +kernel⟩

set_option maxRecDepth 1000000 in
/-- RefusedMessagesChangeNothingElse, clause 6: a state and operands that meet the hypotheses. -/
theorem test_RefusedMessagesChangeNothingElse_6 : ∃ (s : State) (m : TmpMsg) (n : Nat), s.msgHeard n m = true ∧ s.tmpCheck n tyStatus m ≠ 0 :=
  ⟨State.reset.setAll [(NET_STS.STATE 0, 3), (SESS_STS.STATE 3, 2), (SESS_SID.SID 3, 5), (SESS_STS.CLASSES 3, 7), (SESS_MASK.ACC_MASK 3, 255), (SESS_MASK.ZONE_MASK 3, 255), (SESS_MASK.PUMP_MASK 3, 63), (SESS_VER.VMAJ 3, 1), (ACD_INFO.ACC_COUNT, 8), (SESS_VER.VMAJ 3, 9)], { peer := { port := 0, v6 := false, mac := 0, ip := 0, udp := 0 }, vmaj := 1, vmin := 0, sid := 5, seq := 1, payload := [] }, 3, by and_intros <;> decide +kernel⟩

set_option maxRecDepth 1000000 in
/-- RefusedMessagesChangeNothingElse, clause 7: a state and operands that meet the hypotheses. -/
theorem test_RefusedMessagesChangeNothingElse_7 : ∃ (s : State) (m : TmpMsg) (n : Nat), s.msgHeard n m = true ∧ s.tmpCheck n tyHint m ≠ 0 :=
  ⟨State.reset.setAll [(NET_STS.STATE 0, 3), (SESS_STS.STATE 3, 2), (SESS_SID.SID 3, 5), (SESS_STS.CLASSES 3, 7), (SESS_MASK.ACC_MASK 3, 255), (SESS_MASK.ZONE_MASK 3, 255), (SESS_MASK.PUMP_MASK 3, 63), (SESS_VER.VMAJ 3, 1), (ACD_INFO.ACC_COUNT, 8), (SESS_VER.VMAJ 3, 9)], { peer := { port := 0, v6 := false, mac := 0, ip := 0, udp := 0 }, vmaj := 1, vmin := 0, sid := 5, seq := 1, payload := [] }, 3, by and_intros <;> decide +kernel⟩

set_option maxRecDepth 1000000 in
/-- RefusedMessagesChangeNothingElse, clause 8: a state and operands that meet the hypotheses. -/
theorem test_RefusedMessagesChangeNothingElse_8 : ∃ (s : State) (m : TmpMsg) (n : Nat), s.msgHeard n m = true ∧ s.tmpCheck n tyHintCancel m ≠ 0 :=
  ⟨State.reset.setAll [(NET_STS.STATE 0, 3), (SESS_STS.STATE 3, 2), (SESS_SID.SID 3, 5), (SESS_STS.CLASSES 3, 7), (SESS_MASK.ACC_MASK 3, 255), (SESS_MASK.ZONE_MASK 3, 255), (SESS_MASK.PUMP_MASK 3, 63), (SESS_VER.VMAJ 3, 1), (ACD_INFO.ACC_COUNT, 8), (SESS_VER.VMAJ 3, 9)], { peer := { port := 0, v6 := false, mac := 0, ip := 0, udp := 0 }, vmaj := 1, vmin := 0, sid := 5, seq := 1, payload := [] }, 3, by and_intros <;> decide +kernel⟩

set_option maxRecDepth 1000000 in
/-- RefusedMessagesChangeNothingElse, clause 9: a state and operands that meet the hypotheses. -/
theorem test_RefusedMessagesChangeNothingElse_9 : ∃ (s : State) (m : TmpMsg) (n : Nat), s.msgHeard n m = true ∧ s.tmpCheck n tySetCap m ≠ 0 :=
  ⟨State.reset.setAll [(NET_STS.STATE 0, 3), (SESS_STS.STATE 3, 2), (SESS_SID.SID 3, 5), (SESS_STS.CLASSES 3, 7), (SESS_MASK.ACC_MASK 3, 255), (SESS_MASK.ZONE_MASK 3, 255), (SESS_MASK.PUMP_MASK 3, 63), (SESS_VER.VMAJ 3, 1), (ACD_INFO.ACC_COUNT, 8), (SESS_VER.VMAJ 3, 9)], { peer := { port := 0, v6 := false, mac := 0, ip := 0, udp := 0 }, vmaj := 1, vmin := 0, sid := 5, seq := 1, payload := [] }, 3, by and_intros <;> decide +kernel⟩

set_option maxRecDepth 1000000 in
/-- RefusedMessagesChangeNothingElse, clause 10: a state and operands that meet the hypotheses. -/
theorem test_RefusedMessagesChangeNothingElse_10 : ∃ (s : State) (m : TmpMsg) (n : Nat), s.msgHeard n m = true ∧ s.tmpCheck n tySetFloor m ≠ 0 :=
  ⟨State.reset.setAll [(NET_STS.STATE 0, 3), (SESS_STS.STATE 3, 2), (SESS_SID.SID 3, 5), (SESS_STS.CLASSES 3, 7), (SESS_MASK.ACC_MASK 3, 255), (SESS_MASK.ZONE_MASK 3, 255), (SESS_MASK.PUMP_MASK 3, 63), (SESS_VER.VMAJ 3, 1), (ACD_INFO.ACC_COUNT, 8), (SESS_VER.VMAJ 3, 9)], { peer := { port := 0, v6 := false, mac := 0, ip := 0, udp := 0 }, vmaj := 1, vmin := 0, sid := 5, seq := 1, payload := [] }, 3, by and_intros <;> decide +kernel⟩

set_option maxRecDepth 1000000 in
/-- RefusedMessagesChangeNothingElse, clause 11: a state and operands that meet the hypotheses. -/
theorem test_RefusedMessagesChangeNothingElse_11 : ∃ (s : State) (m : TmpMsg) (n : Nat), s.msgHeard n m = true ∧ s.tmpCheck n tyJob m ≠ 0 :=
  ⟨State.reset.setAll [(NET_STS.STATE 0, 3), (SESS_STS.STATE 3, 2), (SESS_SID.SID 3, 5), (SESS_STS.CLASSES 3, 7), (SESS_MASK.ACC_MASK 3, 255), (SESS_MASK.ZONE_MASK 3, 255), (SESS_MASK.PUMP_MASK 3, 63), (SESS_VER.VMAJ 3, 1), (ACD_INFO.ACC_COUNT, 8), (SESS_VER.VMAJ 3, 9)], { peer := { port := 0, v6 := false, mac := 0, ip := 0, udp := 0 }, vmaj := 1, vmin := 0, sid := 5, seq := 1, payload := [] }, 3, by and_intros <;> decide +kernel⟩

set_option maxRecDepth 1000000 in
/-- RefusedMessagesChangeNothingElse, clause 12: a state and operands that meet the hypotheses. -/
theorem test_RefusedMessagesChangeNothingElse_12 : ∃ (s : State) (m : TmpMsg) (n : Nat), s.msgHeard n m = true ∧ s.tmpCheck n tySigInstall m ≠ 0 :=
  ⟨State.reset.setAll [(NET_STS.STATE 0, 3), (SESS_STS.STATE 3, 2), (SESS_SID.SID 3, 5), (SESS_STS.CLASSES 3, 7), (SESS_MASK.ACC_MASK 3, 255), (SESS_MASK.ZONE_MASK 3, 255), (SESS_MASK.PUMP_MASK 3, 63), (SESS_VER.VMAJ 3, 1), (ACD_INFO.ACC_COUNT, 8), (SESS_VER.VMAJ 3, 9)], { peer := { port := 0, v6 := false, mac := 0, ip := 0, udp := 0 }, vmaj := 1, vmin := 0, sid := 5, seq := 1, payload := [] }, 3, by and_intros <;> decide +kernel⟩

set_option maxRecDepth 1000000 in
/-- RefusedMessagesChangeNothingElse, clause 13: a state and operands that meet the hypotheses. -/
theorem test_RefusedMessagesChangeNothingElse_13 : ∃ (s : State) (m : TmpMsg) (n : Nat), s.msgHeard n m = true ∧ s.tmpCheck n tySeqCmd m ≠ 0 :=
  ⟨State.reset.setAll [(NET_STS.STATE 0, 3), (SESS_STS.STATE 3, 2), (SESS_SID.SID 3, 5), (SESS_STS.CLASSES 3, 7), (SESS_MASK.ACC_MASK 3, 255), (SESS_MASK.ZONE_MASK 3, 255), (SESS_MASK.PUMP_MASK 3, 63), (SESS_VER.VMAJ 3, 1), (ACD_INFO.ACC_COUNT, 8), (SESS_VER.VMAJ 3, 9)], { peer := { port := 0, v6 := false, mac := 0, ip := 0, udp := 0 }, vmaj := 1, vmin := 0, sid := 5, seq := 1, payload := [] }, 3, by and_intros <;> decide +kernel⟩

set_option maxRecDepth 1000000 in
/-- RefusedMessagesChangeNothingElse, clause 14: a state and operands that meet the hypotheses. -/
theorem test_RefusedMessagesChangeNothingElse_14 : ∃ (s : State) (m : TmpMsg) (n : Nat), s.msgHeard n m = true ∧ s.tmpCheck n tyTampClear m ≠ 0 :=
  ⟨State.reset.setAll [(NET_STS.STATE 0, 3), (SESS_STS.STATE 3, 2), (SESS_SID.SID 3, 5), (SESS_STS.CLASSES 3, 7), (SESS_MASK.ACC_MASK 3, 255), (SESS_MASK.ZONE_MASK 3, 255), (SESS_MASK.PUMP_MASK 3, 63), (SESS_VER.VMAJ 3, 1), (ACD_INFO.ACC_COUNT, 8), (SESS_VER.VMAJ 3, 9)], { peer := { port := 0, v6 := false, mac := 0, ip := 0, udp := 0 }, vmaj := 1, vmin := 0, sid := 5, seq := 1, payload := [] }, 3, by and_intros <;> decide +kernel⟩

set_option maxRecDepth 1000000 in
/-- RefusedMessagesChangeNothingElse, clause 15: a state and operands that meet the hypotheses. -/
theorem test_RefusedMessagesChangeNothingElse_15 : ∃ (s : State) (m : TmpMsg) (n : Nat), s.msgHeard n m = true ∧ s.tmpCheck n tyPowerState m ≠ 0 :=
  ⟨State.reset.setAll [(NET_STS.STATE 0, 3), (SESS_STS.STATE 3, 2), (SESS_SID.SID 3, 5), (SESS_STS.CLASSES 3, 7), (SESS_MASK.ACC_MASK 3, 255), (SESS_MASK.ZONE_MASK 3, 255), (SESS_MASK.PUMP_MASK 3, 63), (SESS_VER.VMAJ 3, 1), (ACD_INFO.ACC_COUNT, 8), (SESS_VER.VMAJ 3, 9)], { peer := { port := 0, v6 := false, mac := 0, ip := 0, udp := 0 }, vmaj := 1, vmin := 0, sid := 5, seq := 1, payload := [] }, 3, by and_intros <;> decide +kernel⟩

set_option maxRecDepth 1000000 in
/-- RefusedMessagesChangeNothingElse, clause 16: a state and operands that meet the hypotheses. -/
theorem test_RefusedMessagesChangeNothingElse_16 : ∃ (s : State) (m : TmpMsg) (n : Nat), s.msgHeard n m = true ∧ s.tmpCheck n tyTopReset m ≠ 0 :=
  ⟨State.reset.setAll [(NET_STS.STATE 0, 3), (SESS_STS.STATE 3, 2), (SESS_SID.SID 3, 5), (SESS_STS.CLASSES 3, 7), (SESS_MASK.ACC_MASK 3, 255), (SESS_MASK.ZONE_MASK 3, 255), (SESS_MASK.PUMP_MASK 3, 63), (SESS_VER.VMAJ 3, 1), (ACD_INFO.ACC_COUNT, 8), (SESS_VER.VMAJ 3, 9)], { peer := { port := 0, v6 := false, mac := 0, ip := 0, udp := 0 }, vmaj := 1, vmin := 0, sid := 5, seq := 1, payload := [] }, 3, by and_intros <;> decide +kernel⟩

set_option maxRecDepth 1000000 in
/-- RefusedMessagesChangeNothingElse, clause 17: a state and operands that meet the hypotheses. -/
theorem test_RefusedMessagesChangeNothingElse_17 : ∃ (s : State) (m : TmpMsg) (n : Nat), s.msgHeard n m = true ∧ s.tmpCheck n tyWdtKick m ≠ 0 :=
  ⟨State.reset.setAll [(NET_STS.STATE 0, 3), (SESS_STS.STATE 3, 2), (SESS_SID.SID 3, 5), (SESS_STS.CLASSES 3, 7), (SESS_MASK.ACC_MASK 3, 255), (SESS_MASK.ZONE_MASK 3, 255), (SESS_MASK.PUMP_MASK 3, 63), (SESS_VER.VMAJ 3, 1), (ACD_INFO.ACC_COUNT, 8), (SESS_VER.VMAJ 3, 9)], { peer := { port := 0, v6 := false, mac := 0, ip := 0, udp := 0 }, vmaj := 1, vmin := 0, sid := 5, seq := 1, payload := [] }, 3, by and_intros <;> decide +kernel⟩

set_option maxRecDepth 1000000 in
/-- RefusedMessagesChangeNothingElse, clause 18: a state and operands that meet the hypotheses. -/
theorem test_RefusedMessagesChangeNothingElse_18 : ∃ (s : State) (m : TmpMsg) (n : Nat), s.msgHeard n m = true ∧ s.tmpCheck n tyRecCtl m ≠ 0 :=
  ⟨State.reset.setAll [(NET_STS.STATE 0, 3), (SESS_STS.STATE 3, 2), (SESS_SID.SID 3, 5), (SESS_STS.CLASSES 3, 7), (SESS_MASK.ACC_MASK 3, 255), (SESS_MASK.ZONE_MASK 3, 255), (SESS_MASK.PUMP_MASK 3, 63), (SESS_VER.VMAJ 3, 1), (ACD_INFO.ACC_COUNT, 8), (SESS_VER.VMAJ 3, 9)], { peer := { port := 0, v6 := false, mac := 0, ip := 0, udp := 0 }, vmaj := 1, vmin := 0, sid := 5, seq := 1, payload := [] }, 3, by and_intros <;> decide +kernel⟩

set_option maxRecDepth 1000000 in
/-- RefusedMessagesChangeNothingElse, clause 19: a state and operands that meet the hypotheses. -/
theorem test_RefusedMessagesChangeNothingElse_19 : ∃ (s : State) (m : TmpMsg) (n : Nat), s.msgHeard n m = true ∧ s.tmpCheck n tySettingCommit m ≠ 0 :=
  ⟨State.reset.setAll [(NET_STS.STATE 0, 3), (SESS_STS.STATE 3, 2), (SESS_SID.SID 3, 5), (SESS_STS.CLASSES 3, 7), (SESS_MASK.ACC_MASK 3, 255), (SESS_MASK.ZONE_MASK 3, 255), (SESS_MASK.PUMP_MASK 3, 63), (SESS_VER.VMAJ 3, 1), (ACD_INFO.ACC_COUNT, 8), (SESS_VER.VMAJ 3, 9)], { peer := { port := 0, v6 := false, mac := 0, ip := 0, udp := 0 }, vmaj := 1, vmin := 0, sid := 5, seq := 1, payload := [] }, 3, by and_intros <;> decide +kernel⟩

set_option maxRecDepth 1000000 in
/-- RefusedMessagesChangeNothingElse, clause 20: a state and operands that meet the hypotheses. -/
theorem test_RefusedMessagesChangeNothingElse_20 : ∃ (s : State) (m : TmpMsg) (n : Nat), s.msgHeard n m = true ∧ s.tmpCheck n tyWarmReset m ≠ 0 :=
  ⟨State.reset.setAll [(NET_STS.STATE 0, 3), (SESS_STS.STATE 3, 2), (SESS_SID.SID 3, 5), (SESS_STS.CLASSES 3, 7), (SESS_MASK.ACC_MASK 3, 255), (SESS_MASK.ZONE_MASK 3, 255), (SESS_MASK.PUMP_MASK 3, 63), (SESS_VER.VMAJ 3, 1), (ACD_INFO.ACC_COUNT, 8), (SESS_VER.VMAJ 3, 9)], { peer := { port := 0, v6 := false, mac := 0, ip := 0, udp := 0 }, vmaj := 1, vmin := 0, sid := 5, seq := 1, payload := [] }, 3, by and_intros <;> decide +kernel⟩

set_option maxRecDepth 1000000 in
/-- RefusedMessagesChangeNothingElse, clause 21: a state and operands that meet the hypotheses. -/
theorem test_RefusedMessagesChangeNothingElse_21 : ∃ (s : State) (m : TmpMsg) (n : Nat), s.msgHeard n m = true ∧ s.tmpCheck n tyMargin m ≠ 0 :=
  ⟨State.reset.setAll [(NET_STS.STATE 0, 3), (SESS_STS.STATE 3, 2), (SESS_SID.SID 3, 5), (SESS_STS.CLASSES 3, 7), (SESS_MASK.ACC_MASK 3, 255), (SESS_MASK.ZONE_MASK 3, 255), (SESS_MASK.PUMP_MASK 3, 63), (SESS_VER.VMAJ 3, 1), (ACD_INFO.ACC_COUNT, 8), (SESS_VER.VMAJ 3, 9)], { peer := { port := 0, v6 := false, mac := 0, ip := 0, udp := 0 }, vmaj := 1, vmin := 0, sid := 5, seq := 1, payload := [] }, 3, by and_intros <;> decide +kernel⟩

set_option maxRecDepth 1000000 in
/-- RefusedMessagesChangeNothingElse, clause 22: a state and operands that meet the hypotheses. -/
theorem test_RefusedMessagesChangeNothingElse_22 : ∃ (s : State) (m : TmpMsg) (n : Nat) (ok : Bool) (un : Option (BitVec 28)), s.msgHeard n m = true ∧ s.tmpCheck n tyAccordAccept m ≠ 0 :=
  ⟨State.reset.setAll [(NET_STS.STATE 0, 3), (SESS_STS.STATE 3, 2), (SESS_SID.SID 3, 5), (SESS_STS.CLASSES 3, 7), (SESS_MASK.ACC_MASK 3, 255), (SESS_MASK.ZONE_MASK 3, 255), (SESS_MASK.PUMP_MASK 3, 63), (SESS_VER.VMAJ 3, 1), (ACD_INFO.ACC_COUNT, 8), (SESS_VER.VMAJ 3, 9)], { peer := { port := 0, v6 := false, mac := 0, ip := 0, udp := 0 }, vmaj := 1, vmin := 0, sid := 5, seq := 1, payload := [] }, 3, true, none, by and_intros <;> decide +kernel⟩

set_option maxRecDepth 1000000 in
/-- RefusedMessagesChangeNothingElse, clause 23: a state and operands that meet the hypotheses. -/
theorem test_RefusedMessagesChangeNothingElse_23 : ∃ (s : State) (m : TmpMsg) (n : Nat) (ok : Bool), s.msgHeard n m = true ∧ s.tmpCheck n tyKeyChange (keyOp m 1) ≠ 0 :=
  ⟨State.reset.setAll [(NET_STS.STATE 0, 3), (SESS_STS.STATE 3, 2), (SESS_SID.SID 3, 5), (SESS_STS.CLASSES 3, 7), (SESS_MASK.ACC_MASK 3, 255), (SESS_MASK.ZONE_MASK 3, 255), (SESS_MASK.PUMP_MASK 3, 63), (SESS_VER.VMAJ 3, 1), (ACD_INFO.ACC_COUNT, 8), (SESS_VER.VMAJ 3, 9)], { peer := { port := 0, v6 := false, mac := 0, ip := 0, udp := 0 }, vmaj := 1, vmin := 0, sid := 5, seq := 1, payload := [] }, 3, true, by and_intros <;> decide +kernel⟩

set_option maxRecDepth 1000000 in
/-- RefusedMessagesChangeNothingElse, clause 24: a state and operands that meet the hypotheses. -/
theorem test_RefusedMessagesChangeNothingElse_24 : ∃ (s : State) (m : TmpMsg) (n : Nat), s.msgHeard n m = true ∧ s.tmpCheck n tyKeyChange (keyOp m 2) ≠ 0 :=
  ⟨State.reset.setAll [(NET_STS.STATE 0, 3), (SESS_STS.STATE 3, 2), (SESS_SID.SID 3, 5), (SESS_STS.CLASSES 3, 7), (SESS_MASK.ACC_MASK 3, 255), (SESS_MASK.ZONE_MASK 3, 255), (SESS_MASK.PUMP_MASK 3, 63), (SESS_VER.VMAJ 3, 1), (ACD_INFO.ACC_COUNT, 8), (SESS_VER.VMAJ 3, 9)], { peer := { port := 0, v6 := false, mac := 0, ip := 0, udp := 0 }, vmaj := 1, vmin := 0, sid := 5, seq := 1, payload := [] }, 3, by and_intros <;> decide +kernel⟩

set_option maxRecDepth 1000000 in
/-- RefusedMessagesChangeNothingElse, clause 25: a state and operands that meet the hypotheses. -/
theorem test_RefusedMessagesChangeNothingElse_25 : ∃ (s : State) (m : TmpMsg) (n : Nat), s.msgHeard n m = true ∧ s.tmpCheck n tyDebugUnlock (dbgOp m 1) ≠ 0 :=
  ⟨State.reset.setAll [(NET_STS.STATE 0, 3), (SESS_STS.STATE 3, 2), (SESS_SID.SID 3, 5), (SESS_STS.CLASSES 3, 7), (SESS_MASK.ACC_MASK 3, 255), (SESS_MASK.ZONE_MASK 3, 255), (SESS_MASK.PUMP_MASK 3, 63), (SESS_VER.VMAJ 3, 1), (ACD_INFO.ACC_COUNT, 8), (SESS_VER.VMAJ 3, 9)], { peer := { port := 0, v6 := false, mac := 0, ip := 0, udp := 0 }, vmaj := 1, vmin := 0, sid := 5, seq := 1, payload := [] }, 3, by and_intros <;> decide +kernel⟩

set_option maxRecDepth 1000000 in
/-- RefusedMessagesChangeNothingElse, clause 26: a state and operands that meet the hypotheses. -/
theorem test_RefusedMessagesChangeNothingElse_26 : ∃ (s : State) (m : TmpMsg) (n : Nat), s.msgHeard n m = true ∧ s.tmpCheck n tyDebugUnlock (dbgOp m 2) ≠ 0 :=
  ⟨State.reset.setAll [(NET_STS.STATE 0, 3), (SESS_STS.STATE 3, 2), (SESS_SID.SID 3, 5), (SESS_STS.CLASSES 3, 7), (SESS_MASK.ACC_MASK 3, 255), (SESS_MASK.ZONE_MASK 3, 255), (SESS_MASK.PUMP_MASK 3, 63), (SESS_VER.VMAJ 3, 1), (ACD_INFO.ACC_COUNT, 8), (SESS_VER.VMAJ 3, 9)], { peer := { port := 0, v6 := false, mac := 0, ip := 0, udp := 0 }, vmaj := 1, vmin := 0, sid := 5, seq := 1, payload := [] }, 3, by and_intros <;> decide +kernel⟩

set_option maxRecDepth 1000000 in
/-- RefusedMessagesChangeNothingElse, clause 27: a state and operands that meet the hypotheses. -/
theorem test_RefusedMessagesChangeNothingElse_27 : ∃ (s : State) (m : TmpMsg) (n : Nat), s.msgHeard n m = true ∧ s.tmpCheck n tyLogClear m ≠ 0 :=
  ⟨State.reset.setAll [(NET_STS.STATE 0, 3), (SESS_STS.STATE 3, 2), (SESS_SID.SID 3, 5), (SESS_STS.CLASSES 3, 7), (SESS_MASK.ACC_MASK 3, 255), (SESS_MASK.ZONE_MASK 3, 255), (SESS_MASK.PUMP_MASK 3, 63), (SESS_VER.VMAJ 3, 1), (ACD_INFO.ACC_COUNT, 8), (SESS_VER.VMAJ 3, 9)], { peer := { port := 0, v6 := false, mac := 0, ip := 0, udp := 0 }, vmaj := 1, vmin := 0, sid := 5, seq := 1, payload := [] }, 3, by and_intros <;> decide +kernel⟩

set_option maxRecDepth 1000000 in
/-- DeliveriesAreSent, clause 1: a state and operands that meet the hypotheses. -/
theorem test_DeliveriesAreSent_1 : ∃ (s : State), s.bridgeUp = true ∧ ((∀ n < 16, s.isOpen n = true → s.netLink (s.sess n).peer.port.val = true)) :=
  ⟨State.reset.setAll [(NET_STS.STATE 0, 3), (SESS_STS.STATE 3, 2), (SESS_SID.SID 3, 5), (SESS_STS.CLASSES 3, 7), (SESS_MASK.ACC_MASK 3, 255), (SESS_MASK.ZONE_MASK 3, 255), (SESS_MASK.PUMP_MASK 3, 63), (SESS_VER.VMAJ 3, 1), (ACD_INFO.ACC_COUNT, 8), (BRG_STS.STATE, 2)], by and_intros <;> decide +kernel⟩

set_option maxRecDepth 1000000 in
/-- DeliveriesAreSent, clause 2: a state and operands that meet the hypotheses. -/
theorem test_DeliveriesAreSent_2 : ∃ (s : State) (n : Nat), s.bridgeUp = true ∧ s.openSessions = [n] ∧ s.netLink (s.sess n).peer.port.val = true ∧ s.unitId.length = 16 ∧ s.fpTriple.fp.length = 48 :=
  ⟨State.reset.setAll [(NET_STS.STATE 0, 3), (SESS_STS.STATE 3, 2), (SESS_SID.SID 3, 5), (SESS_STS.CLASSES 3, 7), (SESS_MASK.ACC_MASK 3, 255), (SESS_MASK.ZONE_MASK 3, 255), (SESS_MASK.PUMP_MASK 3, 63), (SESS_VER.VMAJ 3, 1), (ACD_INFO.ACC_COUNT, 8), (BRG_STS.STATE, 2), (SES_CAP.CAP 2, 1000), (SES_ZFLOOR.FLOOR 3, 40), (COOL_CONS_STS.STATE 31, 4), (COOL_CONS_STS.STATE 5, 3), (SEQ_LATCH.BLACK, 9), (TFAB_REC_SEQ.LAST, 77), (SES_JOB.BOUNDARY, 8), (SES_STS.OPEN, 8), (PWRST_STATE.CUR, 0), (CLK_STS.CLKFAIL, 1)], 3, by and_intros <;> decide +kernel⟩

set_option maxRecDepth 1000000 in
/-- DeliveriesAreSent, clause 3: a state and operands that meet the hypotheses. -/
theorem test_DeliveriesAreSent_3 : ∃ (s : State), s.bridgeUp = false :=
  ⟨State.reset, by decide +kernel⟩

set_option maxRecDepth 1000000 in
/-- DeliveriesAreSent, clause 4: a state and operands that meet the hypotheses. -/
theorem test_DeliveriesAreSent_4 : ∃ (s : State) (n : Fin 16), (s.on (SESS_STS.EVENTS n.val) = false ∨ s.bridgeUp = false ∨ s.netLink (s.sess n.val).peer.port.val = false) :=
  ⟨State.reset, 3, by decide +kernel⟩

set_option maxRecDepth 1000000 in
/-- DeliveriesAreSent, clause 5: a state and operands that meet the hypotheses. -/
theorem test_DeliveriesAreSent_5 : ∃ (s : State) (n : Fin 16), s.on (SESS_STS.EVENTS n.val) = true ∧ s.bridgeUp = true ∧ s.netLink (s.sess n.val).peer.port.val = true ∧ (s.sess n.val).evNext = s.sil.wseq :=
  ⟨State.reset.setAll [(NET_STS.STATE 0, 3), (SESS_STS.STATE 3, 2), (SESS_SID.SID 3, 5), (SESS_STS.CLASSES 3, 7), (SESS_MASK.ACC_MASK 3, 255), (SESS_MASK.ZONE_MASK 3, 255), (SESS_MASK.PUMP_MASK 3, 63), (SESS_VER.VMAJ 3, 1), (ACD_INFO.ACC_COUNT, 8), (BRG_STS.STATE, 2), (SESS_STS.EVENTS 3, 1)], 3, by and_intros <;> decide +kernel⟩

set_option maxRecDepth 1000000 in
/-- DeliveriesAreSent, clause 6: a state and operands that meet the hypotheses. -/
theorem test_DeliveriesAreSent_6 : ∃ (s : State) (n : Fin 16) (r : Rec), s.on (SESS_STS.EVENTS n.val) = true ∧ s.bridgeUp = true ∧ s.netLink (s.sess n.val).peer.port.val = true ∧ (s.sess n.val).evNext + 1 = s.sil.wseq ∧ s.sil.wseq < 2 ^ 32 ∧ look ((s.sess n.val).evNext % 16384) s.sil.ring = some r ∧ s.evWanted n.val r = true :=
  ⟨({ State.reset with sil := { wseq := 1, ring := [(0, { num := 0, code := 1, src := 8, flags := 0, count := 1, ts := 0, parent := 0, payload := 0 })] } } : State).setAll [(NET_STS.STATE 0, 3), (SESS_STS.STATE 3, 2), (SESS_SID.SID 3, 5), (SESS_STS.CLASSES 3, 7), (SESS_MASK.ACC_MASK 3, 255), (SESS_MASK.ZONE_MASK 3, 255), (SESS_MASK.PUMP_MASK 3, 63), (SESS_VER.VMAJ 3, 1), (ACD_INFO.ACC_COUNT, 8), (BRG_STS.STATE, 2), (SESS_STS.EVENTS 3, 1)], 3, { num := 0, code := 1, src := 8, flags := 0, count := 1, ts := 0, parent := 0, payload := 0 }, by and_intros <;> decide +kernel⟩

set_option maxRecDepth 1000000 in
/-- DeliveriesAreSent, clause 7: a state and operands that meet the hypotheses. -/
theorem test_DeliveriesAreSent_7 : ∃ (s : State) (n : Fin 16) (u : Option (Fin 4096)), (s.on (SESS_STS.RECORDER n.val) = false ∨ s.netLink (s.sess n.val).peer.port.val = false ∨ s.on LPC_STS.INIT_DONE = false ∨ s.portShut 4 = true ∨ ((s.sess n.val).recNext + 2 ^ 32 - (s.get TFAB_REC_SEQ.LAST + 1)) % 2 ^ 32 < 2 ^ 31) :=
  ⟨State.reset, 3, none, by decide +kernel⟩

set_option maxRecDepth 1000000 in
/-- DeliveriesAreSent, clause 8: a state and operands that meet the hypotheses. -/
theorem test_DeliveriesAreSent_8 : ∃ (s : State) (n : Fin 16) (u : Option (Fin 4096)) (f : Nat), u = none ∧ s.on (SESS_STS.RECORDER n.val) = true ∧ s.netLink (s.sess n.val).peer.port.val = true ∧ s.on LPC_STS.INIT_DONE = true ∧ s.portShut 4 = false ∧ s.bufInRange (s.sess n.val).recNext = false ∧ s.get TFAB_REC_FIRST.FIRST = f ∧ s.bufInRange f = true ∧ s.tel.gone.contains f = false ∧ 2 ^ 31 ≤ ((s.sess n.val).recNext + 2 ^ 32 - (s.get TFAB_REC_SEQ.LAST + 1)) % 2 ^ 32 ∧ (s.get TFAB_REC_SEQ.LAST + 1) % 2 ^ 32 ≠ f ∧ bufValid f (memBytes s.mem (s.bufAddr f) 4096) = true :=
  ⟨({ State.reset with ses := { sess := [(3, { recNext := 4294967290 })] }, mem := memStore (memStore [] 0x1000000000 ([0, 0, 0, 0, 1, 0, 0, 0] : List Byte)) (0x1000000000 + 60) (leBytes 4 (crc32c (([0, 0, 0, 0, 1, 0, 0, 0] : List Byte) ++ List.replicate (124 - ([0, 0, 0, 0, 1, 0, 0, 0] : List Byte).length) 0))) } : State).setAll [(NET_STS.STATE 0, 3), (SESS_STS.STATE 3, 2), (SESS_SID.SID 3, 5), (SESS_STS.CLASSES 3, 7), (SESS_MASK.ACC_MASK 3, 255), (SESS_MASK.ZONE_MASK 3, 255), (SESS_MASK.PUMP_MASK 3, 63), (SESS_VER.VMAJ 3, 1), (ACD_INFO.ACC_COUNT, 8), (SESS_STS.RECORDER 3, 1), (LPC_STS.INIT_DONE, 1), (TFAB_REC_SIZE.NBUF, 16), (TFAB_REC_FIRST.FIRST, 0)], 3, none, 0, by and_intros <;> decide +kernel⟩

set_option maxRecDepth 1000000 in
/-- DeliveriesAreSent, clause 9: a state and operands that meet the hypotheses. -/
theorem test_DeliveriesAreSent_9 : ∃ (s : State) (n : Fin 16) (u : Option (Fin 4096)) (q : Nat), u = none ∧ s.on (SESS_STS.RECORDER n.val) = true ∧ s.netLink (s.sess n.val).peer.port.val = true ∧ s.on LPC_STS.INIT_DONE = true ∧ (s.sess n.val).recNext = q ∧ s.portShut 4 = false ∧ s.bufInRange q = true ∧ s.tel.gone.contains q = false ∧ 2 ^ 31 ≤ (q + 2 ^ 32 - (s.get TFAB_REC_SEQ.LAST + 1)) % 2 ^ 32 ∧ (s.get TFAB_REC_SEQ.LAST + 1) % 2 ^ 32 ≠ s.get TFAB_REC_FIRST.FIRST ∧ bufValid q (memBytes s.mem (s.bufAddr q) 4096) = true :=
  ⟨({ State.reset with mem := memStore (memStore [] 0x1000000000 ([0, 0, 0, 0, 1, 0, 0, 0] : List Byte)) (0x1000000000 + 60) (leBytes 4 (crc32c (([0, 0, 0, 0, 1, 0, 0, 0] : List Byte) ++ List.replicate (124 - ([0, 0, 0, 0, 1, 0, 0, 0] : List Byte).length) 0))) } : State).setAll [(NET_STS.STATE 0, 3), (SESS_STS.STATE 3, 2), (SESS_SID.SID 3, 5), (SESS_STS.CLASSES 3, 7), (SESS_MASK.ACC_MASK 3, 255), (SESS_MASK.ZONE_MASK 3, 255), (SESS_MASK.PUMP_MASK 3, 63), (SESS_VER.VMAJ 3, 1), (ACD_INFO.ACC_COUNT, 8), (SESS_STS.RECORDER 3, 1), (LPC_STS.INIT_DONE, 1), (TFAB_REC_SIZE.NBUF, 16)], 3, none, 0, by and_intros <;> decide +kernel⟩

set_option maxRecDepth 1000000 in
/-- ImagesAreTransferredAndActivated, clause 1: a state and operands that meet the hypotheses. -/
theorem test_ImagesAreTransferredAndActivated_1 : ∃ (s : State) (peer : Peer) (xfer : BitVec 32) (total : BitVec 32), s.svcRuns = true ∧ s.get SEC_XFER.STATE ≠ 0 ∧ s.get SEC_XFER.STATE ≠ 3 :=
  ⟨({ State.reset with pwr := { State.reset.pwr with toppwrEn := true, topRst := false } } : State).setAll [(SEC_XFER.STATE, 1)], { port := 0, v6 := false, mac := 0, ip := 0, udp := 0 }, 7, 100, by and_intros <;> decide +kernel⟩

set_option maxRecDepth 1000000 in
/-- ImagesAreTransferredAndActivated, clause 2: a state and operands that meet the hypotheses. -/
theorem test_ImagesAreTransferredAndActivated_2 : ∃ (s : State) (peer : Peer) (xfer : BitVec 32) (total : BitVec 32), s.svcRuns = true ∧ (s.get SEC_XFER.STATE = 0 ∨ s.get SEC_XFER.STATE = 3) ∧ s.stgSize < total.toNat :=
  ⟨({ State.reset with pwr := { State.reset.pwr with toppwrEn := true, topRst := false } } : State).setAll [(SEC_XFER.STATE, 3), (SEC_STG_SIZE.MIB, 0)], { port := 0, v6 := false, mac := 0, ip := 0, udp := 0 }, 7, 100, by and_intros <;> decide +kernel⟩

set_option maxRecDepth 1000000 in
/-- ImagesAreTransferredAndActivated, clause 3: a state and operands that meet the hypotheses. -/
theorem test_ImagesAreTransferredAndActivated_3 : ∃ (s : State) (peer : Peer) (xfer : BitVec 32) (total : BitVec 32), s.svcRuns = true ∧ (s.get SEC_XFER.STATE = 0 ∨ s.get SEC_XFER.STATE = 3) ∧ total.toNat ≤ s.stgSize :=
  ⟨({ State.reset with pwr := { State.reset.pwr with toppwrEn := true, topRst := false } } : State).setAll [(SEC_STG_SIZE.MIB, 1)], { port := 0, v6 := false, mac := 0, ip := 0, udp := 0 }, 7, 100, by and_intros <;> decide +kernel⟩

set_option maxRecDepth 1000000 in
/-- ImagesAreTransferredAndActivated, clause 4: a state and operands that meet the hypotheses. -/
theorem test_ImagesAreTransferredAndActivated_4 : ∃ (s : State) (peer : Peer) (xfer : BitVec 32) (total : BitVec 32), s.svcRuns = false :=
  ⟨State.reset, { port := 0, v6 := false, mac := 0, ip := 0, udp := 0 }, 7, 100, by decide +kernel⟩

set_option maxRecDepth 1000000 in
/-- ImagesAreTransferredAndActivated, clause 5: a state and operands that meet the hypotheses. -/
theorem test_ImagesAreTransferredAndActivated_5 : ∃ (s : State) (peer : Peer) (xfer : BitVec 32) (off : BitVec 32) (bytes : List Byte), s.svcRuns = true ∧ s.get SEC_XFER.STATE = 1 ∧ s.sec.xfer = xfer.toNat ∧ 1 ≤ bytes.length ∧ bytes.length ≤ 1408 ∧ off.toNat + bytes.length ≤ s.sec.len ∧ ((∀ r ∈ s.sec.got, off.toNat + bytes.length ≤ r.1 ∨ r.1 + r.2 ≤ off.toNat)) :=
  ⟨({ State.reset with pwr := { State.reset.pwr with toppwrEn := true, topRst := false }, sec := { xfer := 7, len := 3 } } : State).setAll [(SEC_XFER.STATE, 1), (SEC_STG_BASE.BASE, 0x1000000), (LPC_STS.INIT_DONE, 1)], { port := 0, v6 := false, mac := 0, ip := 0, udp := 0 }, 7, 0, [1, 2, 3], by and_intros <;> decide +kernel⟩

set_option maxRecDepth 1000000 in
/-- ImagesAreTransferredAndActivated, clause 6: a state and operands that meet the hypotheses. -/
theorem test_ImagesAreTransferredAndActivated_6 : ∃ (s : State) (peer : Peer) (xfer : BitVec 32) (off : BitVec 32) (bytes : List Byte), (s.svcRuns = false ∨ s.get SEC_XFER.STATE ≠ 1 ∨ s.sec.xfer ≠ xfer.toNat ∨ bytes = []) :=
  ⟨State.reset, { port := 0, v6 := false, mac := 0, ip := 0, udp := 0 }, 7, 0, [1], by decide +kernel⟩

set_option maxRecDepth 1000000 in
/-- ImagesAreTransferredAndActivated, clause 7: a state and operands that meet the hypotheses. -/
theorem test_ImagesAreTransferredAndActivated_7 : ∃ (s : State) (peer : Peer) (xfer : BitVec 32) (un : Option (BitVec 28)), un.filter (fun o => s.stgLp && decide (o.toNat < s.sec.contig)) = none ∧ s.svcRuns = true ∧ s.get SEC_XFER.STATE = 1 ∧ s.sec.xfer = xfer.toNat ∧ s.gateAsked 7 = false ∧ s.gated 7 = false ∧ ((s.stgLp = true → s.portShut 4 = false)) :=
  ⟨({ State.reset with pwr := { State.reset.pwr with toppwrEn := true, topRst := false }, sec := { xfer := 7, len := 100 } } : State).setAll [(SEC_XFER.STATE, 1)], { port := 0, v6 := false, mac := 0, ip := 0, udp := 0 }, 7, none, by and_intros <;> decide +kernel⟩

set_option maxRecDepth 1000000 in
/-- ImagesAreTransferredAndActivated, clause 8: a state and operands that meet the hypotheses. -/
theorem test_ImagesAreTransferredAndActivated_8 : ∃ (s : State) (peer : Peer) (xfer : BitVec 32) (un : Option (BitVec 28)) (o : BitVec 28), s.svcRuns = true ∧ s.get SEC_XFER.STATE = 1 ∧ s.sec.xfer = xfer.toNat ∧ s.gateAsked 7 = false ∧ s.gated 7 = false ∧ ((s.stgLp = true → s.portShut 4 = false)) ∧ un = some o ∧ s.stgLp = true ∧ o.toNat < s.sec.contig :=
  ⟨({ State.reset with pwr := { State.reset.pwr with toppwrEn := true, topRst := false }, sec := { xfer := 7, len := 100, got := [(0, 100)] } } : State).setAll [(SEC_XFER.STATE, 1), (SEC_STG_BASE.BASE, 0x1000000), (LPC_STS.INIT_DONE, 1)], { port := 0, v6 := false, mac := 0, ip := 0, udp := 0 }, 7, some 9, 9, by and_intros <;> decide +kernel⟩

set_option maxRecDepth 1000000 in
/-- ImagesAreTransferredAndActivated, clause 9: a state and operands that meet the hypotheses. -/
theorem test_ImagesAreTransferredAndActivated_9 : ∃ (s : State) (peer : Peer) (xfer : BitVec 32) (un : Option (BitVec 28)), (s.svcRuns = false ∨ s.get SEC_XFER.STATE ≠ 1 ∨ s.sec.xfer ≠ xfer.toNat) :=
  ⟨State.reset, { port := 0, v6 := false, mac := 0, ip := 0, udp := 0 }, 7, none, by decide +kernel⟩

set_option maxRecDepth 1000000 in
/-- ImagesAreTransferredAndActivated, clause 10: a state and operands that meet the hypotheses. -/
theorem test_ImagesAreTransferredAndActivated_10 : ∃ (s : State) (peer : Peer) (xfer : BitVec 32), s.svcRuns = true ∧ s.on KEY_STS.READY = true :=
  ⟨({ State.reset with pwr := { State.reset.pwr with toppwrEn := true, topRst := false } } : State).setAll [(KEY_STS.READY, 1)], { port := 0, v6 := false, mac := 0, ip := 0, udp := 0 }, 7, by and_intros <;> decide +kernel⟩

set_option maxRecDepth 1000000 in
/-- ImagesAreTransferredAndActivated, clause 11: a state and operands that meet the hypotheses. -/
theorem test_ImagesAreTransferredAndActivated_11 : ∃ (s : State) (peer : Peer) (xfer : BitVec 32), s.svcRuns = false :=
  ⟨State.reset, { port := 0, v6 := false, mac := 0, ip := 0, udp := 0 }, 7, by decide +kernel⟩

set_option maxRecDepth 1000000 in
/-- ImagesAreTransferredAndActivated, clause 12: a state and operands that meet the hypotheses. -/
theorem test_ImagesAreTransferredAndActivated_12 : ∃ (s : State), s.get SEC_XFER.STATE = 1 :=
  ⟨State.reset.setAll [(SEC_XFER.STATE, 1)], by decide +kernel⟩

set_option maxRecDepth 1000000 in
/-- ImagesAreTransferredAndActivated, clause 13: a state and operands that meet the hypotheses. -/
theorem test_ImagesAreTransferredAndActivated_13 : ∃ (s : State), s.get SEC_XFER.STATE ≠ 1 :=
  ⟨State.reset, by decide +kernel⟩

set_option maxRecDepth 1000000 in
/-- ImagesAreTransferredAndActivated, clause 14: a state and operands that meet the hypotheses. -/
theorem test_ImagesAreTransferredAndActivated_14 : ∃ (s : State) (res : FlashEnd) (un : Option (BitVec 28)), s.get SEC_XFER.STATE = 4 ∧ s.flashHeld = false ∧ un.filter (fun o => s.stgLp && decide (o.toNat < s.sec.img.length)) = none ∧ (res = .noSpace ∨ res = .failed) :=
  ⟨State.reset.setAll [(SEC_XFER.STATE, 4)], .failed, none, by and_intros <;> decide +kernel⟩

set_option maxRecDepth 1000000 in
/-- ImagesAreTransferredAndActivated, clause 15: a state and operands that meet the hypotheses. -/
theorem test_ImagesAreTransferredAndActivated_15 : ∃ (s : State) (res : FlashEnd) (un : Option (BitVec 28)), s.get SEC_XFER.STATE = 4 ∧ s.flashHeld = false ∧ un.filter (fun o => s.stgLp && decide (o.toNat < s.sec.img.length)) = none ∧ res = .verified ∧ imgType s.sec.img = 4 ∧ imgPslot s.sec.img < 16 :=
  ⟨({ State.reset with sec := { img := (List.replicate 10 0 ++ [4] ++ List.replicate 39 0 ++ [2] : List Byte) } } : State).set SEC_XFER.STATE 4, .verified, none, by and_intros <;> decide +kernel⟩

set_option maxRecDepth 1000000 in
/-- ImagesAreTransferredAndActivated, clause 16: a state and operands that meet the hypotheses. -/
theorem test_ImagesAreTransferredAndActivated_16 : ∃ (s : State) (res : FlashEnd) (un : Option (BitVec 28)), s.get SEC_XFER.STATE = 4 ∧ s.flashHeld = false ∧ un.filter (fun o => s.stgLp && decide (o.toNat < s.sec.img.length)) = none ∧ res = .verified ∧ imgType s.sec.img = 1 :=
  ⟨({ State.reset with sec := { img := List.replicate 10 0 ++ [1] } } : State).set SEC_XFER.STATE 4, .verified, none, by and_intros <;> decide +kernel⟩

set_option maxRecDepth 1000000 in
/-- ImagesAreTransferredAndActivated, clause 17: a state and operands that meet the hypotheses. -/
theorem test_ImagesAreTransferredAndActivated_17 : ∃ (s : State) (res : FlashEnd) (un : Option (BitVec 28)), s.get SEC_XFER.STATE = 4 ∧ s.flashHeld = false ∧ un.filter (fun o => s.stgLp && decide (o.toNat < s.sec.img.length)) = none ∧ res = .verified ∧ imgType s.sec.img = 3 :=
  ⟨({ State.reset with sec := { img := List.replicate 10 0 ++ [3] } } : State).set SEC_XFER.STATE 4, .verified, none, by and_intros <;> decide +kernel⟩

set_option maxRecDepth 1000000 in
/-- ImagesAreTransferredAndActivated, clause 18: a state and operands that meet the hypotheses. -/
theorem test_ImagesAreTransferredAndActivated_18 : ∃ (s : State) (res : FlashEnd) (un : Option (BitVec 28)) (o : BitVec 28), s.get SEC_XFER.STATE = 4 ∧ s.flashHeld = false ∧ un = some o ∧ s.stgLp = true ∧ o.toNat < s.sec.img.length :=
  ⟨({ State.reset with pwr := { State.reset.pwr with toppwrEn := true, topRst := false }, sec := { img := (List.replicate 10 0 ++ [4] ++ List.replicate 39 0 ++ [2] : List Byte) } } : State).setAll [(SEC_XFER.STATE, 4), (SEC_STG_BASE.BASE, 0x1000000)], .verified, some 9, 9, by and_intros <;> decide +kernel⟩

set_option maxRecDepth 1000000 in
/-- ImagesAreTransferredAndActivated, clause 19: a state and operands that meet the hypotheses. -/
theorem test_ImagesAreTransferredAndActivated_19 : ∃ (s : State) (res : FlashEnd) (un : Option (BitVec 28)), (s.get SEC_XFER.STATE ≠ 4 ∨ s.flashHeld = true) :=
  ⟨State.reset, .verified, none, by decide +kernel⟩

set_option maxRecDepth 1000000 in
/-- ImagesAreTransferredAndActivated, clause 20: a state and operands that meet the hypotheses. -/
theorem test_ImagesAreTransferredAndActivated_20 : ∃ (s : State) (n : Fin 16) (img : List Byte), s.topLive = true ∧ s.engineHeld = false ∧ s.gated 7 = false ∧ look (16 + n.val) s.flash = some img ∧ imgType img = 4 ∧ imgPslot img = n.val :=
  ⟨({ State.reset with pwr := { State.reset.pwr with toppwrEn := true, topRst := false }, flash := [(18, (List.replicate 10 0 ++ [4] ++ List.replicate 39 0 ++ [2] : List Byte))] } : State).setAll [(SEC_STG_SIZE.MIB, 1)], 2, (List.replicate 10 0 ++ [4] ++ List.replicate 39 0 ++ [2] : List Byte), by and_intros <;> decide +kernel⟩

set_option maxRecDepth 1000000 in
/-- ImagesAreTransferredAndActivated, clause 21: a state and operands that meet the hypotheses. -/
theorem test_ImagesAreTransferredAndActivated_21 : ∃ (s : State) (n : Fin 16) (img : List Byte), s.topLive = true ∧ s.engineHeld = false ∧ s.gated 7 = false ∧ look (16 + n.val) s.flash = some img ∧ (imgType img ≠ 4 ∨ imgPslot img ≠ n.val) :=
  ⟨({ State.reset with pwr := { State.reset.pwr with toppwrEn := true, topRst := false }, flash := [(18, [])] } : State).setAll [(SEC_STG_SIZE.MIB, 1)], 2, [], by and_intros <;> decide +kernel⟩

set_option maxRecDepth 1000000 in
/-- ImagesAreTransferredAndActivated, clause 22: a state and operands that meet the hypotheses. -/
theorem test_ImagesAreTransferredAndActivated_22 : ∃ (s : State) (n : Fin 16), s.topLive = true ∧ s.engineHeld = true :=
  ⟨({ State.reset with pwr := { State.reset.pwr with toppwrEn := true, topRst := false } } : State).setAll [(CLK_GATE_REQ.REQ, 128)], 2, by and_intros <;> decide +kernel⟩

set_option maxRecDepth 1000000 in
/-- ImagesAreTransferredAndActivated, clause 23: a state and operands that meet the hypotheses. -/
theorem test_ImagesAreTransferredAndActivated_23 : ∃ (s : State) (n : Fin 16), (s.topLive = false ∨ (s.engineHeld = false ∧ (s.gated 7 = true ∨ look (16 + n.val) s.flash = none))) :=
  ⟨State.reset, 2, by decide +kernel⟩

set_option maxRecDepth 1000000 in
/-- ImagesAreTransferredAndActivated, clause 24: a state and operands that meet the hypotheses. -/
theorem test_ImagesAreTransferredAndActivated_24 : ∃ (s : State), s.bridgeUp = true ∧ s.on SEC_ACT.RUNNING = false ∧ s.stagedBits = 0 :=
  ⟨State.reset.setAll [(BRG_STS.STATE, 2)], by and_intros <;> decide +kernel⟩

set_option maxRecDepth 1000000 in
/-- ImagesAreTransferredAndActivated, clause 25: a state and operands that meet the hypotheses. -/
theorem test_ImagesAreTransferredAndActivated_25 : ∃ (s : State) (c : Nat), s.bridgeUp = true ∧ s.on SEC_ACT.RUNNING = false ∧ s.stagedBits ≠ 0 ∧ s.actCause = c ∧ c ≠ 0 :=
  ⟨State.reset.setAll [(BRG_STS.STATE, 2), (KEY_STAGED.PROG, 4), (SES_STS.BND, 0)], 1, by and_intros <;> decide +kernel⟩

set_option maxRecDepth 1000000 in
/-- ImagesAreTransferredAndActivated, clause 26: a state and operands that meet the hypotheses. -/
theorem test_ImagesAreTransferredAndActivated_26 : ∃ (s : State) (n : Nat), s.bridgeUp = true ∧ s.on SEC_ACT.RUNNING = false ∧ s.stagedBits = 2 ^ n ∧ n < 16 ∧ s.actCause = 0 ∧ (s.islot n).run = none ∧ s.slotSt n ≠ slotStopping :=
  ⟨State.reset.setAll [(BRG_STS.STATE, 2), (KEY_STAGED.PROG, 4), (SES_STS.BND, 1), (PWRST_STATE.CUR, 0), (PWRST_STATE.BUSY, 0)], 2, by and_intros <;> decide +kernel⟩

set_option maxRecDepth 1000000 in
/-- ImagesAreTransferredAndActivated, clause 27: a state and operands that meet the hypotheses. -/
theorem test_ImagesAreTransferredAndActivated_27 : ∃ (s : State), s.bridgeUp = false :=
  ⟨State.reset, by decide +kernel⟩

set_option maxRecDepth 1000000 in
/-- ImagesAreTransferredAndActivated, clause 28: a state and operands that meet the hypotheses. -/
theorem test_ImagesAreTransferredAndActivated_28 : ∃ (s : State) (ini : Initiator), s.judge ini true SEC_ACT.ABANDON.addr = .allowed ∧ s.on SEC_ACT.RUNNING = false ∧ s.stagedBits ≠ 0 :=
  ⟨{ State.reset.setAll [(KEY_STAGED.PROG, 4)] with pwr := { toppwrEn := true, toppwrGood := true, topRst := false } }, .core 0, by and_intros <;> decide +kernel⟩

set_option maxRecDepth 1000000 in
/-- ImagesAreTransferredAndActivated, clause 29: a state and operands that meet the hypotheses. -/
theorem test_ImagesAreTransferredAndActivated_29 : ∃ (s : State) (ini : Initiator), s.judge ini true SEC_ACT.ABANDON.addr = .allowed ∧ (s.on SEC_ACT.RUNNING = true ∨ s.stagedBits = 0) :=
  ⟨{ State.reset with pwr := { toppwrEn := true, toppwrGood := true, topRst := false } }, .core 0, by and_intros <;> decide +kernel⟩

set_option maxRecDepth 1000000 in
/-- KeyStoreServesRequests, clause 1: a state and operands that meet the hypotheses. -/
theorem test_KeyStoreServesRequests_1 : ∃ (s : State) (ini : Initiator), s.judge ini true KEY_REQ_CMD.GO.addr = .allowed ∧ s.on KEY_REQ_STS.BUSY = false ∧ s.on KEY_STS.READY = true ∧ s.on KEY_STS.DBG_OPEN = false :=
  ⟨State.reset.setAll [(KEY_STS.READY, 1)], .keeper 0, by and_intros <;> decide +kernel⟩

set_option maxRecDepth 1000000 in
/-- KeyStoreServesRequests, clause 2: a state and operands that meet the hypotheses. -/
theorem test_KeyStoreServesRequests_2 : ∃ (s : State) (ini : Initiator), s.judge ini true KEY_REQ_CMD.GO.addr = .allowed ∧ s.on KEY_REQ_STS.BUSY = false ∧ (s.on KEY_STS.READY = false ∨ s.on KEY_STS.DBG_OPEN = true) :=
  ⟨State.reset, .keeper 0, by and_intros <;> decide +kernel⟩

set_option maxRecDepth 1000000 in
/-- KeyStoreServesRequests, clause 3: a state and operands that meet the hypotheses. -/
theorem test_KeyStoreServesRequests_3 : ∃ (s : State) (ini : Initiator), s.judge ini true KEY_REQ_CMD.GO.addr = .allowed ∧ s.on KEY_REQ_STS.BUSY = true :=
  ⟨State.reset.setAll [(KEY_REQ_STS.BUSY, 1)], .keeper 0, by and_intros <;> decide +kernel⟩

set_option maxRecDepth 1000000 in
/-- KeyStoreServesRequests, clause 4: a state and operands that meet the hypotheses. -/
theorem test_KeyStoreServesRequests_4 : ∃ (s : State) (ini : Initiator), s.judge ini true KEY_REQ_CMD.GO.addr = .allowed ∧ s.on KEY_REQ_STS.BUSY = false :=
  ⟨State.reset.setAll [(KEY_STS.READY, 1)], .keeper 0, by and_intros <;> decide +kernel⟩

set_option maxRecDepth 1000000 in
/-- KeyStoreServesRequests, clause 5: a state and operands that meet the hypotheses. -/
theorem test_KeyStoreServesRequests_5 : ∃ (s : State) (ini : Initiator), s.judge ini true KEY_REQ_CMD.GO.addr = .allowed ∧ s.on KEY_REQ_STS.BUSY = false ∧ dbgArgsOk (leAt (s.reqBytes 3) 0 1) (leAt (s.reqBytes 3) 1 2) = true :=
  ⟨State.reset.setAll [(KEY_REQ_BUF.DATA 0, 0x0A01)], .keeper 0, by and_intros <;> decide +kernel⟩

set_option maxRecDepth 1000000 in
/-- KeyStoreServesRequests, clause 6: a state and operands that meet the hypotheses. -/
theorem test_KeyStoreServesRequests_6 : ∃ (s : State) (ini : Initiator), s.judge ini true KEY_REQ_CMD.GO.addr = .allowed ∧ s.on KEY_REQ_STS.BUSY = false ∧ dbgArgsOk (leAt (s.reqBytes 3) 0 1) (leAt (s.reqBytes 3) 1 2) = false :=
  ⟨State.reset, .keeper 0, by and_intros <;> decide +kernel⟩

set_option maxRecDepth 1000000 in
/-- KeyStoreServesRequests, clause 7: a state and operands that meet the hypotheses. -/
theorem test_KeyStoreServesRequests_7 : ∃ (s : State) (ini : Initiator), s.judge ini true KEY_REQ_CMD.GO.addr = .allowed ∧ s.on KEY_REQ_STS.BUSY = false :=
  ⟨State.reset, .keeper 0, by and_intros <;> decide +kernel⟩

set_option maxRecDepth 1000000 in
/-- KeyStoreServesRequests, clause 8: a state and operands that meet the hypotheses. -/
theorem test_KeyStoreServesRequests_8 : ∃ (s : State) (ini : Initiator) (ok : Bool), s.judge ini true KEY_REQ_CMD.GO.addr = .allowed ∧ s.on KEY_REQ_STS.BUSY = false :=
  ⟨State.reset.setAll [(KEY_OWNER.VALID, 1)], .keeper 0, true, by and_intros <;> decide +kernel⟩

set_option maxRecDepth 1000000 in
/-- KeyStoreServesRequests, clause 9: a state and operands that meet the hypotheses. -/
theorem test_KeyStoreServesRequests_9 : ∃ (s : State) (ini : Initiator), s.judge ini true KEY_REQ_CMD.GO.addr = .allowed ∧ s.on KEY_REQ_STS.BUSY = false :=
  ⟨State.reset.setAll [(KEY_OWNER.VALID, 3), (KEY_OWNER.ACTIVE, 1)], .keeper 0, by and_intros <;> decide +kernel⟩

set_option maxRecDepth 1000000 in
/-- KeyStoreServesRequests, clause 10: a state and operands that meet the hypotheses. -/
theorem test_KeyStoreServesRequests_10 : ∃ (s : State) (r : Nat) (out : List Byte), s.portShut 7 = false ∧ s.key.req = some (r, out) ∧ r < 6 ∧ out.length ≤ 1984 :=
  ⟨{ State.reset with key := { req := some (4, [3, 0]) } }, 4, [3, 0], by and_intros <;> decide +kernel⟩

set_option maxRecDepth 1000000 in
/-- KeyStoreServesRequests, clause 11: a state and operands that meet the hypotheses. -/
theorem test_KeyStoreServesRequests_11 : ∃ (s : State) (n q : Nat) (nonce : List Byte) (l : List (Nat × Nat × List Byte)), s.portShut 7 = false ∧ s.key.req = none ∧ s.acd.stmts = (n, q, nonce) :: l ∧ n < 16 ∧ s.netLink (s.replyPeer n q).port.val = true ∧ s.on KEY_STS.DBG_OPEN = false :=
  ⟨({ State.reset with acd := { stmts := [(3, 9, [])] } } : State).setAll [(NET_STS.STATE 0, 3), (SESS_STS.STATE 3, 2), (SESS_SID.SID 3, 5), (SESS_STS.CLASSES 3, 7), (SESS_MASK.ACC_MASK 3, 255), (SESS_MASK.ZONE_MASK 3, 255), (SESS_MASK.PUMP_MASK 3, 63), (SESS_VER.VMAJ 3, 1), (ACD_INFO.ACC_COUNT, 8)], 3, 9, [], [], by and_intros <;> decide +kernel⟩

set_option maxRecDepth 1000000 in
/-- KeyStoreServesRequests, clause 12: a state and operands that meet the hypotheses. -/
theorem test_KeyStoreServesRequests_12 : ∃ (s : State), s.portShut 7 = true :=
  ⟨State.reset.setAll [(CLK_GATE_STS.GATED, 128)], by decide +kernel⟩

set_option maxRecDepth 1000000 in
/-- KeyStoreServesRequests, clause 13: a state and operands that meet the hypotheses. -/
theorem test_KeyStoreServesRequests_13 : ∃ (s : State), s.portShut 7 = false ∧ s.key.req = none ∧ s.acd.stmts = [] :=
  ⟨State.reset, by and_intros <;> decide +kernel⟩

set_option maxRecDepth 1000000 in
/-- KeyStoreServesRequests, clause 14: a state and operands that meet the hypotheses. -/
theorem test_KeyStoreServesRequests_14 : ∃ (s : State), (s.on KEY_PRES_CFG.MODE = false ∨ s.on KEY_PRES.SEAL_OK = true) :=
  ⟨State.reset, by decide +kernel⟩

set_option maxRecDepth 1000000 in
/-- KeyStoreServesRequests, clause 15: a state and operands that meet the hypotheses. -/
theorem test_KeyStoreServesRequests_15 : ∃ (s : State), s.on KEY_PRES_CFG.MODE = true ∧ s.on KEY_PRES.SEAL_OK = false :=
  ⟨State.reset.setAll [(KEY_PRES_CFG.MODE, 1)], by and_intros <;> decide +kernel⟩

set_option maxRecDepth 1000000 in
/-- KeyStoreServesRequests, clause 16: a state and operands that meet the hypotheses. -/
theorem test_KeyStoreServesRequests_16 : ∃ (s : State), s.on KEY_PRES.OPEN = true :=
  ⟨State.reset.setAll [(KEY_PRES.OPEN, 1)], by decide +kernel⟩

set_option maxRecDepth 1000000 in
/-- KeyStoreServesRequests, clause 17: a state and operands that meet the hypotheses. -/
theorem test_KeyStoreServesRequests_17 : ∃ (s : State), s.on KEY_PRES.OPEN = false :=
  ⟨State.reset, by decide +kernel⟩

set_option maxRecDepth 1000000 in
/-- KeyStoreServesRequests, clause 18: a state and operands that meet the hypotheses. -/
theorem test_KeyStoreServesRequests_18 : ∃ (s : State) (ini : Initiator), s.judge ini true KEY_PRES.CLOSE.addr = .allowed ∧ s.on KEY_PRES.OPEN = true :=
  ⟨State.reset.setAll [(KEY_PRES.OPEN, 1)], .keeper 0, by and_intros <;> decide +kernel⟩

set_option maxRecDepth 1000000 in
/-- KeyStoreServesRequests, clause 19: a state and operands that meet the hypotheses. -/
theorem test_KeyStoreServesRequests_19 : ∃ (s : State) (ini : Initiator), s.judge ini true KEY_PRES.CLOSE.addr = .allowed ∧ s.on KEY_PRES.OPEN = false :=
  ⟨State.reset, .keeper 0, by and_intros <;> decide +kernel⟩

set_option maxRecDepth 1000000 in
/-- KeyStoreServesRequests, clause 21: a state and operands that meet the hypotheses. -/
theorem test_KeyStoreServesRequests_21 : ∃ (s : State), (s.on KEY_PRES.SEAL_OK = true ∨ (s.key.sealJudged = false ∧ s.on KEY_PRES_CFG.MODE = true)) :=
  ⟨State.reset.setAll [(KEY_PRES.SEAL_OK, 1), (KEY_PRES.OPEN, 1)], by decide +kernel⟩

set_option maxRecDepth 1000000 in
/-- KeyStoreServesRequests, clause 22: a state and operands that meet the hypotheses. -/
theorem test_KeyStoreServesRequests_22 : ∃ (s : State), s.on KEY_PRES.SEAL_OK = false ∧ (s.key.sealJudged = true ∨ s.on KEY_PRES_CFG.MODE = false) :=
  ⟨State.reset, by and_intros <;> decide +kernel⟩

set_option maxRecDepth 1000000 in
/-- KeyStoreServesRequests, clause 23: a state and operands that meet the hypotheses. -/
theorem test_KeyStoreServesRequests_23 : ∃ (s : State), s.on KEY_STS.DBG_OPEN = true :=
  ⟨State.reset.setAll [(KEY_STS.DBG_OPEN, 1)], by decide +kernel⟩

set_option maxRecDepth 1000000 in
/-- KeyStoreServesRequests, clause 24: a state and operands that meet the hypotheses. -/
theorem test_KeyStoreServesRequests_24 : ∃ (s : State), s.on KEY_STS.DBG_OPEN = false :=
  ⟨State.reset, by decide +kernel⟩

set_option maxRecDepth 1000000 in
/-- CoresCrashAndRestart, clause 1: a state and operands that meet the hypotheses. -/
theorem test_CoresCrashAndRestart_1 : ∃ (s : State) (c : Fin 4) (mask : Fin 16) (csrs : Csrs), s.judge (.core c) true FW_PANIC.PANIC.addr = .allowed ∧ bitOf mask.val c.val = true ∧ s.coreSt c.val = coreRun ∧ s.pwr.topReset = false ∧ s.pwr.topRst = false ∧ s.pwr.warmOn = false :=
  ⟨{ State.reset.setAll [(BRG_STS.STATE, 2), (FW_CORE_STS.STATE, 0x1111), (FW_LOG_SIZE.SIZE, 1), (FW_LOG_BASE.BASE, 64)] with pwr := { toppwrEn := true, toppwrGood := true, topRst := false } }, 2, 4, { mcause := 0x8000000000000005, mepc := 0x100001234, mtval := 7 }, by and_intros <;> decide +kernel⟩

set_option maxRecDepth 1000000 in
/-- CoresCrashAndRestart, clause 2: a state and operands that meet the hypotheses. -/
theorem test_CoresCrashAndRestart_2 : ∃ (s : State) (c : Fin 4) (mask : Fin 16) (csrs : Csrs), s.judge (.core c) true FW_PANIC.PANIC.addr = .allowed ∧ bitOf mask.val c.val = false :=
  ⟨{ State.reset.setAll [(BRG_STS.STATE, 2), (FW_CORE_STS.STATE, 0x1111), (FW_LOG_SIZE.SIZE, 1), (FW_LOG_BASE.BASE, 64)] with pwr := { toppwrEn := true, toppwrGood := true, topRst := false } }, 2, 3, { mcause := 0x8000000000000005, mepc := 0x100001234, mtval := 7 }, by and_intros <;> decide +kernel⟩

set_option maxRecDepth 1000000 in
/-- CoresCrashAndRestart, clause 3: a state and operands that meet the hypotheses. -/
theorem test_CoresCrashAndRestart_3 : ∃ (s : State) (c : Fin 4) (csrs : Csrs), s.coreSt c.val ≠ coreReset ∧ s.pwr.topReset = false ∧ s.pwr.topRst = false ∧ s.pwr.warmOn = false :=
  ⟨{ State.reset.setAll [(BRG_STS.STATE, 2), (FW_CORE_STS.STATE, 0x1111), (FW_LOG_SIZE.SIZE, 1), (FW_LOG_BASE.BASE, 64)] with pwr := { toppwrEn := true, toppwrGood := true, topRst := false } }, 0, { mcause := 0x8000000000000005, mepc := 0x100001234, mtval := 7 }, by and_intros <;> decide +kernel⟩

set_option maxRecDepth 1000000 in
/-- CoresCrashAndRestart, clause 4: a state and operands that meet the hypotheses. -/
theorem test_CoresCrashAndRestart_4 : ∃ (s : State) (c : Fin 4) (csrs : Csrs), (s.coreSt c.val = coreReset ∨ s.pwr.topReset = true ∨ s.pwr.topRst = true ∨ s.pwr.warmOn = true) :=
  ⟨State.reset, 0, { mcause := 0x8000000000000005, mepc := 0x100001234, mtval := 7 }, by decide +kernel⟩

set_option maxRecDepth 1000000 in
/-- CoresCrashAndRestart, clause 5: a state and operands that meet the hypotheses. -/
theorem test_CoresCrashAndRestart_5 : ∃ (s : State) (c : Fin 4) (csrs : Csrs), s.coreSt c.val ≠ coreReset ∧ s.on (FW_WDT_CFG.EN c.val) = true ∧ s.pwr.topReset = false ∧ s.pwr.topRst = false ∧ s.pwr.warmOn = false :=
  ⟨{ State.reset.setAll [(BRG_STS.STATE, 2), (FW_CORE_STS.STATE, 0x1111), (FW_LOG_SIZE.SIZE, 1), (FW_LOG_BASE.BASE, 64)] with pwr := { toppwrEn := true, toppwrGood := true, topRst := false } }, 3, { mcause := 0x8000000000000005, mepc := 0x100001234, mtval := 7 }, by and_intros <;> decide +kernel⟩

set_option maxRecDepth 1000000 in
/-- CoresCrashAndRestart, clause 6: a state and operands that meet the hypotheses. -/
theorem test_CoresCrashAndRestart_6 : ∃ (s : State) (c : Fin 4) (csrs : Csrs), (s.coreSt c.val = coreReset ∨ s.on (FW_WDT_CFG.EN c.val) = false) :=
  ⟨State.reset, 0, { mcause := 0x8000000000000005, mepc := 0x100001234, mtval := 7 }, by decide +kernel⟩

set_option maxRecDepth 1000000 in
/-- CoresCrashAndRestart, clause 7: a state and operands that meet the hypotheses. -/
theorem test_CoresCrashAndRestart_7 : ∃ (s : State) (ini : Initiator) (mask : Fin 16) (r0 r1 r2 r3 : Csrs) (c : Nat) (r : Csrs), s.judge ini true PWRST_CORE_RST.RESTART.addr = .allowed ∧ c < 4 ∧ mask.val = 2 ^ c ∧ [r0, r1, r2, r3][c]? = some r ∧ s.bridgeUp = true ∧ s.coreSt c ≠ coreReset ∧ s.coreSt c ≠ coreRestarting ∧ s.pwr.topReset = false ∧ s.pwr.topRst = false ∧ s.pwr.warmOn = false :=
  ⟨{ State.reset.setAll [(BRG_STS.STATE, 2), (FW_CORE_STS.STATE, 0x1111), (FW_LOG_SIZE.SIZE, 1), (FW_LOG_BASE.BASE, 64)] with pwr := { toppwrEn := true, toppwrGood := true, topRst := false } }, .keeper 0, 2, { mcause := 0x8000000000000005, mepc := 0x100001234, mtval := 7 }, { mcause := 0x8000000000000005, mepc := 0x100001234, mtval := 7 }, { mcause := 0x8000000000000005, mepc := 0x100001234, mtval := 7 }, { mcause := 0x8000000000000005, mepc := 0x100001234, mtval := 7 }, 1, { mcause := 0x8000000000000005, mepc := 0x100001234, mtval := 7 }, by and_intros <;> decide +kernel⟩

set_option maxRecDepth 1000000 in
/-- CoresCrashAndRestart, clause 8: a state and operands that meet the hypotheses. -/
theorem test_CoresCrashAndRestart_8 : ∃ (s : State) (ini : Initiator) (mask : Fin 16) (r0 r1 r2 r3 : Csrs), s.judge ini true PWRST_CORE_RST.RESTART.addr = .allowed ∧ (s.bridgeUp = false ∨ (∀ c ∈ bitList 4 mask.val, s.coreSt c = coreReset ∨ s.coreSt c = coreRestarting)) :=
  ⟨State.reset, .keeper 0, 15, { mcause := 0x8000000000000005, mepc := 0x100001234, mtval := 7 }, { mcause := 0x8000000000000005, mepc := 0x100001234, mtval := 7 }, { mcause := 0x8000000000000005, mepc := 0x100001234, mtval := 7 }, { mcause := 0x8000000000000005, mepc := 0x100001234, mtval := 7 }, by and_intros <;> decide +kernel⟩

set_option maxRecDepth 1000000 in
/-- CoresCrashAndRestart, clause 9: a state and operands that meet the hypotheses. -/
theorem test_CoresCrashAndRestart_9 : ∃ (s : State) (c : Fin 4), s.coreSt c.val = coreRestarting ∧ s.ses.rxq = [] :=
  ⟨State.reset.setAll [(FW_CORE_STS.STATE, 0x1311), (PWRST_CORE_RST.RESTART, 4)], 2, by and_intros <;> decide +kernel⟩

set_option maxRecDepth 1000000 in
/-- CoresCrashAndRestart, clause 10: a state and operands that meet the hypotheses. -/
theorem test_CoresCrashAndRestart_10 : ∃ (s : State) (c : Fin 4), s.coreSt c.val ≠ coreRestarting ∧ s.ses.rxq = [] :=
  ⟨State.reset, 2, by and_intros <;> decide +kernel⟩

set_option maxRecDepth 1000000 in
/-- CoresCrashAndRestart, clause 11: a state and operands that meet the hypotheses. -/
theorem test_CoresCrashAndRestart_11 : ∃ (s : State) (core : DbgCore) (c : Fin 4), core = .control c ∧ s.dbgReaches (.control c) = true ∧ s.coreRuns c.val = true :=
  ⟨State.reset.setAll [(KEY_STS.DBG_OPEN, 1), (KEY_DBG.SCOPE, 2), (BRG_STS.STATE, 2), (FW_CORE_STS.STATE, 0x1111), (FW_LOG_SIZE.SIZE, 1), (FW_LOG_BASE.BASE, 64)], .control 1, 1, by and_intros <;> decide +kernel⟩

set_option maxRecDepth 1000000 in
/-- CoresCrashAndRestart, clause 12: a state and operands that meet the hypotheses. -/
theorem test_CoresCrashAndRestart_12 : ∃ (s : State) (core : DbgCore) (k : Fin 2), core = .keeper k ∧ s.dbgReaches (.keeper k) = true ∧ s.pwr.keepersRun = true :=
  ⟨({ State.reset with pwr := { State.reset.pwr with keepersRun := true } } : State).setAll [(KEY_STS.DBG_OPEN, 1), (KEY_DBG.SCOPE, 1)], .keeper 1, 1, by and_intros <;> decide +kernel⟩

set_option maxRecDepth 1000000 in
/-- CoresCrashAndRestart, clause 13: a state and operands that meet the hypotheses. -/
theorem test_CoresCrashAndRestart_13 : ∃ (s : State) (core : DbgCore), s.dbgReaches core = false :=
  ⟨State.reset, .keeper 1, by decide +kernel⟩

set_option maxRecDepth 1000000 in
/-- CoresCrashAndRestart, clause 14: a state and operands that meet the hypotheses. -/
theorem test_CoresCrashAndRestart_14 : ∃ (s : State) (core : DbgCore) (c : Fin 4), core = .control c ∧ s.dbgReaches (.control c) = true ∧ s.coreSt c.val = coreHalted ∧ s.ses.rxq = [] :=
  ⟨State.reset.setAll [(KEY_STS.DBG_OPEN, 1), (KEY_DBG.SCOPE, 2), (BRG_STS.STATE, 2), (FW_CORE_STS.STATE, 0x1141)], .control 1, 1, by and_intros <;> decide +kernel⟩

set_option maxRecDepth 1000000 in
/-- CoresCrashAndRestart, clause 15: a state and operands that meet the hypotheses. -/
theorem test_CoresCrashAndRestart_15 : ∃ (s : State) (core : DbgCore) (k : Fin 2), core = .keeper k ∧ s.dbgReaches (.keeper k) = true :=
  ⟨({ State.reset with fw := { kprHalt := [1, 0] } } : State).setAll [(KEY_STS.DBG_OPEN, 1), (KEY_DBG.SCOPE, 1)], .keeper 1, 1, by and_intros <;> decide +kernel⟩

set_option maxRecDepth 1000000 in
/-- CoresCrashAndRestart, clause 16: a state and operands that meet the hypotheses. -/
theorem test_CoresCrashAndRestart_16 : ∃ (s : State) (core : DbgCore), s.dbgReaches core = false :=
  ⟨State.reset, .keeper 1, by decide +kernel⟩

set_option maxRecDepth 1000000 in
/-- CoresCrashAndRestart, clause 17: a state and operands that meet the hypotheses. -/
theorem test_CoresCrashAndRestart_17 : ∃ (s : State) (k : Fin 2), s.pwr.keepersRun = true :=
  ⟨{ State.reset with pwr := { State.reset.pwr with keepersRun := true } }, 1, by decide +kernel⟩

set_option maxRecDepth 1000000 in
/-- CoresCrashAndRestart, clause 18: a state and operands that meet the hypotheses. -/
theorem test_CoresCrashAndRestart_18 : ∃ (s : State) (k : Fin 2), s.pwr.keepersRun = false :=
  ⟨{ State.reset with pwr := { State.reset.pwr with keepersRun := false } }, 1, by decide +kernel⟩

set_option maxRecDepth 1000000 in
/-- WatchdogsAndLogPorts, clause 1: a state and operands that meet the hypotheses. -/
theorem test_WatchdogsAndLogPorts_1 : ∃ (s : State) (d c : Fin 4) (key : Fin 256), s.judge (.core d) true (FW_WDT_KICK.KEY c.val).addr = .allowed :=
  ⟨{ State.reset.setAll [(BRG_STS.STATE, 2)] with pwr := { toppwrEn := true, toppwrGood := true, topRst := false } }, 1, 1, 0x5A, by decide +kernel⟩

set_option maxRecDepth 1000000 in
/-- WatchdogsAndLogPorts, clause 2: a state and operands that meet the hypotheses. -/
theorem test_WatchdogsAndLogPorts_2 : ∃ (s : State) (ini : Initiator) (key : Fin 256), s.judge ini true FW_TOPWDT_KICK.KEY.addr = .allowed ∧ key.val = 0x5A :=
  ⟨{ State.reset with pwr := { toppwrEn := true, toppwrGood := true, topRst := false } }, .core 0, 0x5A, by and_intros <;> decide +kernel⟩

set_option maxRecDepth 1000000 in
/-- WatchdogsAndLogPorts, clause 3: a state and operands that meet the hypotheses. -/
theorem test_WatchdogsAndLogPorts_3 : ∃ (s : State) (ini : Initiator) (key : Fin 256), s.judge ini true FW_TOPWDT_KICK.KEY.addr = .allowed ∧ key.val ≠ 0x5A :=
  ⟨{ State.reset with pwr := { toppwrEn := true, toppwrGood := true, topRst := false } }, .core 0, 0x5B, by and_intros <;> decide +kernel⟩

set_option maxRecDepth 1000000 in
/-- WatchdogsAndLogPorts, clause 4: a state and operands that meet the hypotheses. -/
theorem test_WatchdogsAndLogPorts_4 : ∃ (s : State), s.on FW_TOPWDT_STS.ARMED = true ∧ s.pwr.warmOn = false ∧ s.pwr.rom = .none ∧ s.pwr.toppwrEn = true ∧ s.pwr.bring = 0 ∧ s.pwr.trans = none ∧ s.pwr.topReset = false :=
  ⟨({ State.reset with pwr := { State.reset.pwr with toppwrEn := true } } : State).setAll [(FW_TOPWDT_STS.ARMED, 1), (BRG_STS.STATE, 2)], by and_intros <;> decide +kernel⟩

set_option maxRecDepth 1000000 in
/-- WatchdogsAndLogPorts, clause 5: a state and operands that meet the hypotheses. -/
theorem test_WatchdogsAndLogPorts_5 : ∃ (s : State), s.on FW_TOPWDT_STS.ARMED = true ∧ s.pwr.toppwrEn = false :=
  ⟨State.reset.setAll [(FW_TOPWDT_STS.ARMED, 1)], by and_intros <;> decide +kernel⟩

set_option maxRecDepth 1000000 in
/-- WatchdogsAndLogPorts, clause 6: a state and operands that meet the hypotheses. -/
theorem test_WatchdogsAndLogPorts_6 : ∃ (s : State), s.on FW_TOPWDT_STS.ARMED = false :=
  ⟨State.reset, by decide +kernel⟩

set_option maxRecDepth 1000000 in
/-- WatchdogsAndLogPorts, clause 7: a state and operands that meet the hypotheses. -/
theorem test_WatchdogsAndLogPorts_7 : ∃ (s : State) (k : Fin 2) (key : Fin 256) (m : Nat), s.judge (.keeper k) true KPR_WDT_KICK.KEY.addr = .allowed ∧ key.val = 0x5A ∧ m = setBitOf (s.get KPR_WDT_STS.KICKED) k.val true :=
  ⟨State.reset.setAll [(KPR_WDT_CFG.MASK, 3)], 1, 0x5A, 2, by and_intros <;> decide +kernel⟩

set_option maxRecDepth 1000000 in
/-- WatchdogsAndLogPorts, clause 8: a state and operands that meet the hypotheses. -/
theorem test_WatchdogsAndLogPorts_8 : ∃ (s : State) (ini : Initiator) (key : Fin 256), s.judge ini true KPR_WDT_KICK.KEY.addr = .allowed ∧ key.val ≠ 0x5A :=
  ⟨State.reset, .keeper 0, 0, by and_intros <;> decide +kernel⟩

set_option maxRecDepth 1000000 in
/-- WatchdogsAndLogPorts, clause 9: a state and operands that meet the hypotheses. -/
theorem test_WatchdogsAndLogPorts_9 : ∃ (s : State), s.pwr.kprArmed = true ∧ s.pwr.testMode = false ∧ s.pwr.borOn = false ∧ s.pwr.rom = .none ∧ s.pwr.warmOn = false ∧ s.nvm.busy = none :=
  ⟨{ State.reset with pwr := { State.reset.pwr with kprArmed := true } }, by and_intros <;> decide +kernel⟩

set_option maxRecDepth 1000000 in
/-- WatchdogsAndLogPorts, clause 10: a state and operands that meet the hypotheses. -/
theorem test_WatchdogsAndLogPorts_10 : ∃ (s : State), s.pwr.kprArmed = true ∧ s.pwr.borOn = false ∧ s.pwr.rom = .none ∧ s.pwr.warmOn = false ∧ s.nvm.busy ≠ none :=
  ⟨{ State.reset with pwr := { State.reset.pwr with kprArmed := true }, nvm := { State.reset.nvm with busy := some (markerJob 2 0) } }, by and_intros <;> decide +kernel⟩

set_option maxRecDepth 1000000 in
/-- WatchdogsAndLogPorts, clause 11: a state and operands that meet the hypotheses. -/
theorem test_WatchdogsAndLogPorts_11 : ∃ (s : State), s.pwr.kprArmed = false :=
  ⟨{ State.reset with pwr := { State.reset.pwr with kprArmed := false } }, by decide +kernel⟩

set_option maxRecDepth 1000000 in
/-- WatchdogsAndLogPorts, clause 12: a state and operands that meet the hypotheses. -/
theorem test_WatchdogsAndLogPorts_12 : ∃ (s : State) (ini : Initiator), s.judge ini true KPR_CTL.K1_RUN.addr = .allowed :=
  ⟨State.reset, .keeper 0, by decide +kernel⟩

set_option maxRecDepth 1000000 in
/-- WatchdogsAndLogPorts, clause 13: a state and operands that meet the hypotheses. -/
theorem test_WatchdogsAndLogPorts_13 : ∃ (s : State) (k : Fin 2), s.judge (.keeper k) true FW_TEXT_BASE.LOCK.addr = .allowed :=
  ⟨State.reset.setAll [(BRG_STS.STATE, 2)], 0, by decide +kernel⟩

set_option maxRecDepth 1000000 in
/-- WatchdogsAndLogPorts, clause 14: a state and operands that meet the hypotheses. -/
theorem test_WatchdogsAndLogPorts_14 : ∃ (s : State) (c : Fin 4), s.judge (.core c) true FW_TEXT_BASE.LOCK.addr = .allowed :=
  ⟨{ State.reset with pwr := { toppwrEn := true, toppwrGood := true, topRst := false } }, 0, by decide +kernel⟩

set_option maxRecDepth 1000000 in
/-- WatchdogsAndLogPorts, clause 15: a state and operands that meet the hypotheses. -/
theorem test_WatchdogsAndLogPorts_15 : ∃ (s : State) (c : Fin 4) (word : Word), s.judge (.core c) true (FW_LOG_PORT.DATA c.val 7).addr = .allowed ∧ s.traceOff (s.portWord c.val 3) = false :=
  ⟨({ State.reset with pwr := { toppwrEn := true, toppwrGood := true, topRst := false }, fw := { ports := [(11, 0x02000000), (12, 7)] } } : State).setAll [(FW_LOG_SIZE.SIZE, 1)], 1, 9, by and_intros <;> decide +kernel⟩

set_option maxRecDepth 1000000 in
/-- WatchdogsAndLogPorts, clause 16: a state and operands that meet the hypotheses. -/
theorem test_WatchdogsAndLogPorts_16 : ∃ (s : State) (c : Fin 4) (word : Word), s.judge (.core c) true (FW_LOG_PORT.DATA c.val 7).addr = .allowed ∧ s.traceOff (s.portWord c.val 3) = true :=
  ⟨{ State.reset with pwr := { toppwrEn := true, toppwrGood := true, topRst := false }, fw := { ports := [(11, 0x050100), (12, 7), (27, 3)] } }, 1, 9, by and_intros <;> decide +kernel⟩

set_option maxRecDepth 1000000 in
/-- WatchdogsAndLogPorts, clause 17: a state and operands that meet the hypotheses. -/
theorem test_WatchdogsAndLogPorts_17 : ∃ (s : State) (d c : Fin 4) (word : Word), s.judge (.core d) true (FW_LOG_PORT.DATA c.val 7).addr = .allowed ∧ d ≠ c :=
  ⟨{ State.reset with pwr := { toppwrEn := true, toppwrGood := true, topRst := false } }, 2, 1, 9, by and_intros <;> decide +kernel⟩

set_option maxRecDepth 1000000 in
/-- WatchdogsAndLogPorts, clause 18: a state and operands that meet the hypotheses. -/
theorem test_WatchdogsAndLogPorts_18 : ∃ (s : State) (ini : Initiator) (word : Word), s.judge ini true (KPR_LOG_PORT.DATA 7).addr = .allowed ∧ s.traceOff (s.portWord 4 3) = false :=
  ⟨{ State.reset with fw := { ports := [(35, 4), (36, 7)] } }, .keeper 0, 9, by and_intros <;> decide +kernel⟩

set_option maxRecDepth 1000000 in
/-- WatchdogsAndLogPorts, clause 19: a state and operands that meet the hypotheses. -/
theorem test_WatchdogsAndLogPorts_19 : ∃ (s : State) (ini : Initiator) (word : Word), s.judge ini true (KPR_LOG_PORT.DATA 7).addr = .allowed ∧ s.traceOff (s.portWord 4 3) = true :=
  ⟨{ State.reset with fw := { ports := [(35, 0x050100)] } }, .keeper 0, 9, by and_intros <;> decide +kernel⟩

set_option maxRecDepth 1000000 in
/-- SillageAdmitsEvents, clause 1: a state and operands that meet the hypotheses. -/
theorem test_SillageAdmitsEvents_1 : ∃ (s : State) (ini : Initiator) (port : Fin 6) (word : Word) (ev : Event) (e : CodeEnt), s.judge ini true (SIL_PORT_W.DATA port.val 11).addr = .allowed ∧ s.get PWRST_STATE.CUR ≠ 3 ∧ ev = s.portEvent port.val word.toNat ∧ e = s.sil.entry ev.code ∧ s.sil.mode (s.on SEQ_CTL.TEST) = 0 ∧ s.sil.frozen = false ∧ (e.persist || ev.persist) = false ∧ s.sil.win e.group = none ∧ (e.parent && (s.sil.group e.group).isSome) = false ∧ (e.rate = 0 ∨ e.tokens ≠ 0) ∧ s.sil.queue.length < 256 :=
  ⟨{ State.reset with sil := { ports := [(0, 0x29028001), (2, 7)], codes := [{ code := 0x8001, rate := 10, burst := 4, group := 0xFF, persist := false, parent := false, tokens := 3, supp := 2, ovf := 7, first := 0, multiAcc := false, multiUnit := false, multiInst := false }], startup := false } }, .keeper 0, 0, 5, (({ State.reset with sil := { ports := [(0, 0x29028001), (2, 7)], codes := [{ code := 0x8001, rate := 10, burst := 4, group := 0xFF, persist := false, parent := false, tokens := 3, supp := 2, ovf := 7, first := 0, multiAcc := false, multiUnit := false, multiInst := false }], startup := false } } : State) : State).portEvent 0 5, (({ State.reset with sil := { ports := [(0, 0x29028001), (2, 7)], codes := [{ code := 0x8001, rate := 10, burst := 4, group := 0xFF, persist := false, parent := false, tokens := 3, supp := 2, ovf := 7, first := 0, multiAcc := false, multiUnit := false, multiInst := false }], startup := false } } : State) : State).sil.entry 0x8001, by and_intros <;> decide +kernel⟩

set_option maxRecDepth 1000000 in
/-- SillageAdmitsEvents, clause 2: a state and operands that meet the hypotheses. -/
theorem test_SillageAdmitsEvents_2 : ∃ (s : State) (ini : Initiator) (port : Fin 6) (word : Word) (ev : Event) (e : CodeEnt), s.judge ini true (SIL_PORT_W.DATA port.val 11).addr = .allowed ∧ s.get PWRST_STATE.CUR ≠ 3 ∧ ev = s.portEvent port.val word.toNat ∧ e = s.sil.entry ev.code ∧ s.sil.mode (s.on SEQ_CTL.TEST) = 0 ∧ s.sil.frozen = false ∧ (e.persist || ev.persist) = false ∧ s.sil.win e.group = none ∧ (e.parent && (s.sil.group e.group).isSome) = false ∧ e.rate ≠ 0 ∧ e.tokens = 0 :=
  ⟨{ State.reset with sil := { ports := [(0, 0x29028001), (2, 7)], codes := [{ code := 0x8001, rate := 10, burst := 4, group := 0xFF, persist := false, parent := false, tokens := 0, supp := 2, ovf := 7, first := 0, multiAcc := false, multiUnit := false, multiInst := false }], startup := false } }, .keeper 0, 0, 5, (({ State.reset with sil := { ports := [(0, 0x29028001), (2, 7)], codes := [{ code := 0x8001, rate := 10, burst := 4, group := 0xFF, persist := false, parent := false, tokens := 0, supp := 2, ovf := 7, first := 0, multiAcc := false, multiUnit := false, multiInst := false }], startup := false } } : State) : State).portEvent 0 5, (({ State.reset with sil := { ports := [(0, 0x29028001), (2, 7)], codes := [{ code := 0x8001, rate := 10, burst := 4, group := 0xFF, persist := false, parent := false, tokens := 0, supp := 2, ovf := 7, first := 0, multiAcc := false, multiUnit := false, multiInst := false }], startup := false } } : State) : State).sil.entry 0x8001, by and_intros <;> decide +kernel⟩

set_option maxRecDepth 1000000 in
/-- SillageAdmitsEvents, clause 3: a state and operands that meet the hypotheses. -/
theorem test_SillageAdmitsEvents_3 : ∃ (s : State) (ini : Initiator) (port : Fin 6) (word : Word) (ev : Event) (e : CodeEnt), s.judge ini true (SIL_PORT_W.DATA port.val 11).addr = .allowed ∧ s.get PWRST_STATE.CUR ≠ 3 ∧ ev = s.portEvent port.val word.toNat ∧ e = s.sil.entry ev.code ∧ s.sil.mode (s.on SEQ_CTL.TEST) = 0 ∧ s.sil.frozen = false ∧ (e.persist || ev.persist) = false ∧ s.sil.win e.group = none ∧ e.parent = true ∧ (s.sil.group e.group).isSome = true ∧ s.sil.queue.length < 256 :=
  ⟨{ State.reset with sil := { ports := [(0, 0x29028001), (2, 7)], codes := [{ code := 0x8001, rate := 10, burst := 4, group := 0, persist := false, parent := true, tokens := 0, supp := 2, ovf := 7, first := 0, multiAcc := false, multiUnit := false, multiInst := false }], startup := false, groups := [{ ms := 20, win := none, held := none }] } }, .keeper 0, 0, 5, (({ State.reset with sil := { ports := [(0, 0x29028001), (2, 7)], codes := [{ code := 0x8001, rate := 10, burst := 4, group := 0, persist := false, parent := true, tokens := 0, supp := 2, ovf := 7, first := 0, multiAcc := false, multiUnit := false, multiInst := false }], startup := false, groups := [{ ms := 20, win := none, held := none }] } } : State) : State).portEvent 0 5, (({ State.reset with sil := { ports := [(0, 0x29028001), (2, 7)], codes := [{ code := 0x8001, rate := 10, burst := 4, group := 0, persist := false, parent := true, tokens := 0, supp := 2, ovf := 7, first := 0, multiAcc := false, multiUnit := false, multiInst := false }], startup := false, groups := [{ ms := 20, win := none, held := none }] } } : State) : State).sil.entry 0x8001, by and_intros <;> decide +kernel⟩

set_option maxRecDepth 1000000 in
/-- SillageAdmitsEvents, clause 4: a state and operands that meet the hypotheses. -/
theorem test_SillageAdmitsEvents_4 : ∃ (s : State) (ini : Initiator) (port : Fin 6) (word : Word) (ev : Event) (e : CodeEnt) (w : Window), s.judge ini true (SIL_PORT_W.DATA port.val 11).addr = .allowed ∧ s.get PWRST_STATE.CUR ≠ 3 ∧ ev = s.portEvent port.val word.toNat ∧ e = s.sil.entry ev.code ∧ s.sil.mode (s.on SEQ_CTL.TEST) = 0 ∧ (e.persist || ev.persist) = false ∧ s.sil.win e.group = some w :=
  ⟨{ State.reset with sil := { ports := [(0, 0x29028001), (2, 7)], codes := [{ code := 0x8001, rate := 10, burst := 4, group := 0, persist := false, parent := false, tokens := 0, supp := 2, ovf := 7, first := 0, multiAcc := false, multiUnit := false, multiInst := false }], startup := false, frozen := true, groups := [{ ms := 20, win := (some { parent := 40, code := 0x1201, src := 0x2902, openTs := 0, lastTs := 0, count := 3, map := 0 }), held := none }] } }, .keeper 0, 0, 5, (({ State.reset with sil := { ports := [(0, 0x29028001), (2, 7)], codes := [{ code := 0x8001, rate := 10, burst := 4, group := 0, persist := false, parent := false, tokens := 0, supp := 2, ovf := 7, first := 0, multiAcc := false, multiUnit := false, multiInst := false }], startup := false, frozen := true, groups := [{ ms := 20, win := (some { parent := 40, code := 0x1201, src := 0x2902, openTs := 0, lastTs := 0, count := 3, map := 0 }), held := none }] } } : State) : State).portEvent 0 5, (({ State.reset with sil := { ports := [(0, 0x29028001), (2, 7)], codes := [{ code := 0x8001, rate := 10, burst := 4, group := 0, persist := false, parent := false, tokens := 0, supp := 2, ovf := 7, first := 0, multiAcc := false, multiUnit := false, multiInst := false }], startup := false, frozen := true, groups := [{ ms := 20, win := (some { parent := 40, code := 0x1201, src := 0x2902, openTs := 0, lastTs := 0, count := 3, map := 0 }), held := none }] } } : State) : State).sil.entry 0x8001, { parent := 40, code := 0x1201, src := 0x2902, openTs := 0, lastTs := 0, count := 3, map := 0 }, by and_intros <;> decide +kernel⟩

set_option maxRecDepth 1000000 in
/-- SillageAdmitsEvents, clause 5: a state and operands that meet the hypotheses. -/
theorem test_SillageAdmitsEvents_5 : ∃ (s : State) (ini : Initiator) (port : Fin 6) (word : Word) (ev : Event) (e : CodeEnt), s.judge ini true (SIL_PORT_W.DATA port.val 11).addr = .allowed ∧ s.get PWRST_STATE.CUR ≠ 3 ∧ ev = s.portEvent port.val word.toNat ∧ e = s.sil.entry ev.code ∧ s.sil.mode (s.on SEQ_CTL.TEST) = 0 ∧ s.sil.frozen = false ∧ (e.persist || ev.persist) = true ∧ s.sil.queue.length < 256 ∧ s.sil.nvmQueue.length < 64 :=
  ⟨{ State.reset with sil := { ports := [(0, 0x29028001), (2, 7)], codes := [{ code := 0x8001, rate := 10, burst := 4, group := 0, persist := true, parent := false, tokens := 3, supp := 2, ovf := 7, first := 0, multiAcc := false, multiUnit := false, multiInst := false }], startup := false, groups := [{ ms := 20, win := (some { parent := 40, code := 0x1201, src := 0x2902, openTs := 0, lastTs := 0, count := 3, map := 0 }), held := none }] } }, .keeper 0, 0, 5, (({ State.reset with sil := { ports := [(0, 0x29028001), (2, 7)], codes := [{ code := 0x8001, rate := 10, burst := 4, group := 0, persist := true, parent := false, tokens := 3, supp := 2, ovf := 7, first := 0, multiAcc := false, multiUnit := false, multiInst := false }], startup := false, groups := [{ ms := 20, win := (some { parent := 40, code := 0x1201, src := 0x2902, openTs := 0, lastTs := 0, count := 3, map := 0 }), held := none }] } } : State) : State).portEvent 0 5, (({ State.reset with sil := { ports := [(0, 0x29028001), (2, 7)], codes := [{ code := 0x8001, rate := 10, burst := 4, group := 0, persist := true, parent := false, tokens := 3, supp := 2, ovf := 7, first := 0, multiAcc := false, multiUnit := false, multiInst := false }], startup := false, groups := [{ ms := 20, win := (some { parent := 40, code := 0x1201, src := 0x2902, openTs := 0, lastTs := 0, count := 3, map := 0 }), held := none }] } } : State) : State).sil.entry 0x8001, by and_intros <;> decide +kernel⟩

set_option maxRecDepth 1000000 in
/-- SillageAdmitsEvents, clause 6: a state and operands that meet the hypotheses. -/
theorem test_SillageAdmitsEvents_6 : ∃ (s : State) (ini : Initiator) (port : Fin 6) (word : Word) (ev : Event) (e : CodeEnt), s.judge ini true (SIL_PORT_W.DATA port.val 11).addr = .allowed ∧ s.get PWRST_STATE.CUR ≠ 3 ∧ ev = s.portEvent port.val word.toNat ∧ e = s.sil.entry ev.code ∧ s.sil.mode (s.on SEQ_CTL.TEST) ≠ 0 ∧ s.sil.frozen = false ∧ s.sil.ringFull = false ∧ s.sil.queue.length < 256 ∧ s.sil.nvmQueue.length < 64 :=
  ⟨{ State.reset with sil := { ports := [(0, 0x29028001), (2, 7)], codes := [{ code := 0x8001, rate := 10, burst := 4, group := 0, persist := false, parent := false, tokens := 3, supp := 2, ovf := 7, first := 0, multiAcc := false, multiUnit := false, multiInst := false }], startup := true, groups := [{ ms := 20, win := (some { parent := 40, code := 0x1201, src := 0x2902, openTs := 0, lastTs := 0, count := 3, map := 0 }), held := none }] } }, .keeper 0, 0, 5, (({ State.reset with sil := { ports := [(0, 0x29028001), (2, 7)], codes := [{ code := 0x8001, rate := 10, burst := 4, group := 0, persist := false, parent := false, tokens := 3, supp := 2, ovf := 7, first := 0, multiAcc := false, multiUnit := false, multiInst := false }], startup := true, groups := [{ ms := 20, win := (some { parent := 40, code := 0x1201, src := 0x2902, openTs := 0, lastTs := 0, count := 3, map := 0 }), held := none }] } } : State) : State).portEvent 0 5, (({ State.reset with sil := { ports := [(0, 0x29028001), (2, 7)], codes := [{ code := 0x8001, rate := 10, burst := 4, group := 0, persist := false, parent := false, tokens := 3, supp := 2, ovf := 7, first := 0, multiAcc := false, multiUnit := false, multiInst := false }], startup := true, groups := [{ ms := 20, win := (some { parent := 40, code := 0x1201, src := 0x2902, openTs := 0, lastTs := 0, count := 3, map := 0 }), held := none }] } } : State) : State).sil.entry 0x8001, by and_intros <;> decide +kernel⟩

set_option maxRecDepth 1000000 in
/-- SillageAdmitsEvents, clause 7: a state and operands that meet the hypotheses. -/
theorem test_SillageAdmitsEvents_7 : ∃ (s : State) (ini : Initiator) (port : Fin 6) (word : Word) (ev : Event) (e : CodeEnt), s.judge ini true (SIL_PORT_W.DATA port.val 11).addr = .allowed ∧ s.get PWRST_STATE.CUR ≠ 3 ∧ ev = s.portEvent port.val word.toNat ∧ e = s.sil.entry ev.code ∧ s.sil.mode (s.on SEQ_CTL.TEST) ≠ 0 ∧ s.sil.frozen = false ∧ s.sil.ringFull = true ∧ s.sil.nvmQueue.length < 64 :=
  ⟨{ State.reset with sil := { ports := [(0, 0x29028001), (2, 7)], codes := [{ code := 0x8001, rate := 10, burst := 4, group := 0xFF, persist := false, parent := false, tokens := 3, supp := 2, ovf := 7, first := 0, multiAcc := false, multiUnit := false, multiInst := false }], startup := true, wseq := 16384 } }, .keeper 0, 0, 5, (({ State.reset with sil := { ports := [(0, 0x29028001), (2, 7)], codes := [{ code := 0x8001, rate := 10, burst := 4, group := 0xFF, persist := false, parent := false, tokens := 3, supp := 2, ovf := 7, first := 0, multiAcc := false, multiUnit := false, multiInst := false }], startup := true, wseq := 16384 } } : State) : State).portEvent 0 5, (({ State.reset with sil := { ports := [(0, 0x29028001), (2, 7)], codes := [{ code := 0x8001, rate := 10, burst := 4, group := 0xFF, persist := false, parent := false, tokens := 3, supp := 2, ovf := 7, first := 0, multiAcc := false, multiUnit := false, multiInst := false }], startup := true, wseq := 16384 } } : State) : State).sil.entry 0x8001, by and_intros <;> decide +kernel⟩

set_option maxRecDepth 1000000 in
/-- SillageAdmitsEvents, clause 8: a state and operands that meet the hypotheses. -/
theorem test_SillageAdmitsEvents_8 : ∃ (s : State) (ini : Initiator) (port : Fin 6) (word : Word) (ev : Event) (e : CodeEnt), s.judge ini true (SIL_PORT_W.DATA port.val 11).addr = .allowed ∧ s.get PWRST_STATE.CUR ≠ 3 ∧ ev = s.portEvent port.val word.toNat ∧ e = s.sil.entry ev.code ∧ s.sil.frozen = true ∧ (e.persist || ev.persist) = false ∧ (s.sil.win e.group = none ∨ s.sil.mode (s.on SEQ_CTL.TEST) ≠ 0) :=
  ⟨{ State.reset with sil := { ports := [(0, 0x29028001), (2, 7)], codes := [{ code := 0x8001, rate := 10, burst := 4, group := 0xFF, persist := false, parent := false, tokens := 3, supp := 2, ovf := 7, first := 0, multiAcc := false, multiUnit := false, multiInst := false }], startup := false, frozen := true } }, .keeper 0, 0, 5, (({ State.reset with sil := { ports := [(0, 0x29028001), (2, 7)], codes := [{ code := 0x8001, rate := 10, burst := 4, group := 0xFF, persist := false, parent := false, tokens := 3, supp := 2, ovf := 7, first := 0, multiAcc := false, multiUnit := false, multiInst := false }], startup := false, frozen := true } } : State) : State).portEvent 0 5, (({ State.reset with sil := { ports := [(0, 0x29028001), (2, 7)], codes := [{ code := 0x8001, rate := 10, burst := 4, group := 0xFF, persist := false, parent := false, tokens := 3, supp := 2, ovf := 7, first := 0, multiAcc := false, multiUnit := false, multiInst := false }], startup := false, frozen := true } } : State) : State).sil.entry 0x8001, by and_intros <;> decide +kernel⟩

set_option maxRecDepth 1000000 in
/-- SillageAdmitsEvents, clause 9: a state and operands that meet the hypotheses. -/
theorem test_SillageAdmitsEvents_9 : ∃ (s : State) (ini : Initiator) (port : Fin 6) (word : Word) (ev : Event) (e : CodeEnt), s.judge ini true (SIL_PORT_W.DATA port.val 11).addr = .allowed ∧ s.get PWRST_STATE.CUR ≠ 3 ∧ ev = s.portEvent port.val word.toNat ∧ e = s.sil.entry ev.code ∧ s.sil.frozen = true ∧ (e.persist || ev.persist) = true ∧ (s.sil.mode (s.on SEQ_CTL.TEST) = 0 ∨ s.sil.ringFull = false) ∧ s.sil.queue.length < 256 ∧ s.sil.nvmQueue.length < 64 :=
  ⟨{ State.reset with sil := { ports := [(0, 0x29028001), (2, 7)], codes := [{ code := 0x8001, rate := 10, burst := 4, group := 0xFF, persist := true, parent := false, tokens := 3, supp := 2, ovf := 7, first := 0, multiAcc := false, multiUnit := false, multiInst := false }], startup := false, frozen := true } }, .keeper 0, 0, 5, (({ State.reset with sil := { ports := [(0, 0x29028001), (2, 7)], codes := [{ code := 0x8001, rate := 10, burst := 4, group := 0xFF, persist := true, parent := false, tokens := 3, supp := 2, ovf := 7, first := 0, multiAcc := false, multiUnit := false, multiInst := false }], startup := false, frozen := true } } : State) : State).portEvent 0 5, (({ State.reset with sil := { ports := [(0, 0x29028001), (2, 7)], codes := [{ code := 0x8001, rate := 10, burst := 4, group := 0xFF, persist := true, parent := false, tokens := 3, supp := 2, ovf := 7, first := 0, multiAcc := false, multiUnit := false, multiInst := false }], startup := false, frozen := true } } : State) : State).sil.entry 0x8001, by and_intros <;> decide +kernel⟩

set_option maxRecDepth 1000000 in
/-- SillageAdmitsEvents, clause 10: a state and operands that meet the hypotheses. -/
theorem test_SillageAdmitsEvents_10 : ∃ (s : State) (ini : Initiator) (port : Fin 6) (word : Word) (ev : Event) (e : CodeEnt), s.judge ini true (SIL_PORT_W.DATA port.val 11).addr = .allowed ∧ s.get PWRST_STATE.CUR ≠ 3 ∧ ev = s.portEvent port.val word.toNat ∧ e = s.sil.entry ev.code ∧ s.sil.frozen = true ∧ (e.persist || ev.persist) = true ∧ s.sil.mode (s.on SEQ_CTL.TEST) ≠ 0 ∧ s.sil.ringFull = true ∧ s.sil.nvmQueue.length < 64 :=
  ⟨{ State.reset with sil := { ports := [(0, 0x29028001), (2, 7)], codes := [{ code := 0x8001, rate := 10, burst := 4, group := 0xFF, persist := true, parent := false, tokens := 3, supp := 2, ovf := 7, first := 0, multiAcc := false, multiUnit := false, multiInst := false }], startup := true, frozen := true, wseq := 16384 } }, .keeper 0, 0, 5, (({ State.reset with sil := { ports := [(0, 0x29028001), (2, 7)], codes := [{ code := 0x8001, rate := 10, burst := 4, group := 0xFF, persist := true, parent := false, tokens := 3, supp := 2, ovf := 7, first := 0, multiAcc := false, multiUnit := false, multiInst := false }], startup := true, frozen := true, wseq := 16384 } } : State) : State).portEvent 0 5, (({ State.reset with sil := { ports := [(0, 0x29028001), (2, 7)], codes := [{ code := 0x8001, rate := 10, burst := 4, group := 0xFF, persist := true, parent := false, tokens := 3, supp := 2, ovf := 7, first := 0, multiAcc := false, multiUnit := false, multiInst := false }], startup := true, frozen := true, wseq := 16384 } } : State) : State).sil.entry 0x8001, by and_intros <;> decide +kernel⟩

set_option maxRecDepth 1000000 in
/-- SillageAdmitsEvents, clause 11: a state and operands that meet the hypotheses. -/
theorem test_SillageAdmitsEvents_11 : ∃ (s : State) (ini : Initiator) (port : Fin 6) (word : Word) (ev : Event) (e : CodeEnt), s.judge ini true (SIL_PORT_W.DATA port.val 11).addr = .allowed ∧ s.get PWRST_STATE.CUR ≠ 3 ∧ ev = s.portEvent port.val word.toNat ∧ e = s.sil.entry ev.code ∧ s.sil.mode (s.on SEQ_CTL.TEST) = 0 ∧ s.sil.frozen = false ∧ (e.persist || ev.persist) = false ∧ s.sil.win e.group = none ∧ (e.parent && (s.sil.group e.group).isSome) = false ∧ (e.rate = 0 ∨ e.tokens ≠ 0) ∧ 256 ≤ s.sil.queue.length :=
  ⟨{ State.reset with sil := { ports := [(0, 0x29028001), (2, 7)], codes := [{ code := 0x8001, rate := 10, burst := 4, group := 0xFF, persist := false, parent := false, tokens := 3, supp := 2, ovf := 7, first := 0, multiAcc := false, multiUnit := false, multiInst := false }], startup := false, queue := List.replicate 256 { num := 0, code := 1, src := 0, flags := 0, count := 1, ts := 0, parent := 0, payload := 0 } } }, .keeper 0, 0, 5, (({ State.reset with sil := { ports := [(0, 0x29028001), (2, 7)], codes := [{ code := 0x8001, rate := 10, burst := 4, group := 0xFF, persist := false, parent := false, tokens := 3, supp := 2, ovf := 7, first := 0, multiAcc := false, multiUnit := false, multiInst := false }], startup := false, queue := List.replicate 256 { num := 0, code := 1, src := 0, flags := 0, count := 1, ts := 0, parent := 0, payload := 0 } } } : State) : State).portEvent 0 5, (({ State.reset with sil := { ports := [(0, 0x29028001), (2, 7)], codes := [{ code := 0x8001, rate := 10, burst := 4, group := 0xFF, persist := false, parent := false, tokens := 3, supp := 2, ovf := 7, first := 0, multiAcc := false, multiUnit := false, multiInst := false }], startup := false, queue := List.replicate 256 { num := 0, code := 1, src := 0, flags := 0, count := 1, ts := 0, parent := 0, payload := 0 } } } : State) : State).sil.entry 0x8001, by and_intros <;> decide +kernel⟩

set_option maxRecDepth 1000000 in
/-- SillageAdmitsEvents, clause 12: a state and operands that meet the hypotheses. -/
theorem test_SillageAdmitsEvents_12 : ∃ (s : State) (ini : Initiator) (port : Fin 6) (word : Word) (ev : Event) (e : CodeEnt), s.judge ini true (SIL_PORT_W.DATA port.val 11).addr = .allowed ∧ s.get PWRST_STATE.CUR = 3 ∧ ev = s.portEvent port.val word.toNat ∧ e = s.sil.entry ev.code :=
  ⟨({ State.reset with sil := { ports := [(0, 0x29028001), (2, 7)], codes := [{ code := 0x8001, rate := 10, burst := 4, group := 0xFF, persist := false, parent := false, tokens := 3, supp := 2, ovf := 7, first := 0, multiAcc := false, multiUnit := false, multiInst := false }], startup := false } } : State).setAll [(PWRST_STATE.CUR, 3)], .keeper 0, 0, 5, (({ State.reset with sil := { ports := [(0, 0x29028001), (2, 7)], codes := [{ code := 0x8001, rate := 10, burst := 4, group := 0xFF, persist := false, parent := false, tokens := 3, supp := 2, ovf := 7, first := 0, multiAcc := false, multiUnit := false, multiInst := false }], startup := false } } : State).setAll [(PWRST_STATE.CUR, 3)] : State).portEvent 0 5, (({ State.reset with sil := { ports := [(0, 0x29028001), (2, 7)], codes := [{ code := 0x8001, rate := 10, burst := 4, group := 0xFF, persist := false, parent := false, tokens := 3, supp := 2, ovf := 7, first := 0, multiAcc := false, multiUnit := false, multiInst := false }], startup := false } } : State).setAll [(PWRST_STATE.CUR, 3)] : State).sil.entry 0x8001, by and_intros <;> decide +kernel⟩

set_option maxRecDepth 1000000 in
/-- SillageAdmitsEvents, clause 13: a state and operands that meet the hypotheses. -/
theorem test_SillageAdmitsEvents_13 : ∃ (s : State) (ini : Initiator) (port : Fin 6) (word : Word) (ev : Event) (e : CodeEnt), s.judge ini true (SIL_PORT_W.DATA port.val 11).addr = .allowed ∧ s.get PWRST_STATE.CUR ≠ 3 ∧ ev = s.portEvent port.val word.toNat ∧ e = s.sil.entry ev.code ∧ s.sil.mode (s.on SEQ_CTL.TEST) = 0 ∧ s.sil.frozen = false ∧ (e.persist || ev.persist) = true ∧ 64 ≤ s.sil.nvmQueue.length ∧ s.sil.queue.length < 256 :=
  ⟨{ State.reset with sil := { ports := [(0, 0x29028001), (2, 7)], codes := [{ code := 0x8001, rate := 10, burst := 4, group := 0xFF, persist := true, parent := false, tokens := 3, supp := 2, ovf := 7, first := 0, multiAcc := false, multiUnit := false, multiInst := false }], startup := false, nvmQueue := List.replicate 64 { num := 0, code := 1, src := 0, flags := 0, count := 1, ts := 0, parent := 0, payload := 0 } } }, .keeper 0, 0, 5, (({ State.reset with sil := { ports := [(0, 0x29028001), (2, 7)], codes := [{ code := 0x8001, rate := 10, burst := 4, group := 0xFF, persist := true, parent := false, tokens := 3, supp := 2, ovf := 7, first := 0, multiAcc := false, multiUnit := false, multiInst := false }], startup := false, nvmQueue := List.replicate 64 { num := 0, code := 1, src := 0, flags := 0, count := 1, ts := 0, parent := 0, payload := 0 } } } : State) : State).portEvent 0 5, (({ State.reset with sil := { ports := [(0, 0x29028001), (2, 7)], codes := [{ code := 0x8001, rate := 10, burst := 4, group := 0xFF, persist := true, parent := false, tokens := 3, supp := 2, ovf := 7, first := 0, multiAcc := false, multiUnit := false, multiInst := false }], startup := false, nvmQueue := List.replicate 64 { num := 0, code := 1, src := 0, flags := 0, count := 1, ts := 0, parent := 0, payload := 0 } } } : State) : State).sil.entry 0x8001, by and_intros <;> decide +kernel⟩

set_option maxRecDepth 1000000 in
/-- SillageWritesAndIsControlled, clause 1: a state and operands that meet the hypotheses. -/
theorem test_SillageWritesAndIsControlled_1 : ∃ (s : State) (r : Rec) (q : List Rec), s.sil.frozen = false ∧ s.sil.queue = r :: q :=
  ⟨{ State.reset with sil := { queue := [{ num := 0, code := 1, src := 0, flags := 0, count := 1, ts := 0, parent := 0, payload := 0 }], wseq := 16385 } }, { num := 0, code := 1, src := 0, flags := 0, count := 1, ts := 0, parent := 0, payload := 0 }, [], by and_intros <;> decide +kernel⟩

set_option maxRecDepth 1000000 in
/-- SillageWritesAndIsControlled, clause 2: a state and operands that meet the hypotheses. -/
theorem test_SillageWritesAndIsControlled_2 : ∃ (s : State), (s.sil.frozen = true ∨ s.sil.queue = []) :=
  ⟨State.reset, by decide +kernel⟩

set_option maxRecDepth 1000000 in
/-- SillageWritesAndIsControlled, clause 3: a state and operands that meet the hypotheses. -/
theorem test_SillageWritesAndIsControlled_3 : ∃ (s : State) (e : CodeEnt), s.sil.frozen = false ∧ s.sil.mode (s.on SEQ_CTL.TEST) = 0 ∧ s.sil.queue.length < 256 ∧ (s.sil.codes ++ s.sil.unlisted).filter (fun e => e.supp != 0 && e.tokens != 0) = [e] ∧ s.sil.entry e.code = e :=
  ⟨{ State.reset with sil := { ports := [(0, 0x29028001), (2, 7)], codes := [{ code := 0x8001, rate := 10, burst := 4, group := 0xFF, persist := false, parent := false, tokens := 3, supp := 2, ovf := 7, first := 0, multiAcc := false, multiUnit := false, multiInst := false }], startup := false } }, { code := 0x8001, rate := 10, burst := 4, group := 0xFF, persist := false, parent := false, tokens := 3, supp := 2, ovf := 7, first := 0, multiAcc := false, multiUnit := false, multiInst := false }, by and_intros <;> decide +kernel⟩

set_option maxRecDepth 1000000 in
/-- SillageWritesAndIsControlled, clause 4: a state and operands that meet the hypotheses. -/
theorem test_SillageWritesAndIsControlled_4 : ∃ (s : State), s.sil.frozen = false :=
  ⟨{ State.reset with sil := { ports := [(0, 0x29028001), (2, 7)], codes := [{ code := 0x8001, rate := 10, burst := 4, group := 0xFF, persist := false, parent := false, tokens := 3, supp := 2, ovf := 7, first := 0, multiAcc := false, multiUnit := false, multiInst := false }], startup := false } }, by decide +kernel⟩

set_option maxRecDepth 1000000 in
/-- SillageWritesAndIsControlled, clause 5: a state and operands that meet the hypotheses. -/
theorem test_SillageWritesAndIsControlled_5 : ∃ (s : State), s.sil.frozen = true :=
  ⟨{ State.reset with sil := { frozen := true } }, by decide +kernel⟩

set_option maxRecDepth 1000000 in
/-- SillageWritesAndIsControlled, clause 6: a state and operands that meet the hypotheses. -/
theorem test_SillageWritesAndIsControlled_6 : ∃ (s : State) (code : Fin 65536), s.sil.listed code.val = true :=
  ⟨{ State.reset with sil := { ports := [(0, 0x29028001), (2, 7)], codes := [{ code := 0x8001, rate := 10, burst := 4, group := 0xFF, persist := false, parent := false, tokens := 3, supp := 2, ovf := 7, first := 0, multiAcc := false, multiUnit := false, multiInst := false }], startup := false } }, 0x8001, by decide +kernel⟩

set_option maxRecDepth 1000000 in
/-- SillageWritesAndIsControlled, clause 7: a state and operands that meet the hypotheses. -/
theorem test_SillageWritesAndIsControlled_7 : ∃ (s : State) (code : Fin 65536), s.sil.listed code.val = false ∧ s.sil.unlisted.any (fun e => e.code == code.val) = true :=
  ⟨{ State.reset with sil := { unlisted := [{ code := 0x8001, rate := 10, burst := 4, group := 0xFF, persist := false, parent := false, tokens := 3, supp := 2, ovf := 7, first := 0, multiAcc := false, multiUnit := false, multiInst := false }] } }, 0x8001, by and_intros <;> decide +kernel⟩

set_option maxRecDepth 1000000 in
/-- SillageWritesAndIsControlled, clause 8: a state and operands that meet the hypotheses. -/
theorem test_SillageWritesAndIsControlled_8 : ∃ (s : State) (code : Fin 65536), s.sil.listed code.val = false ∧ s.sil.unlisted.any (fun e => e.code == code.val) = false :=
  ⟨State.reset, 7, by and_intros <;> decide +kernel⟩

set_option maxRecDepth 1000000 in
/-- SillageWritesAndIsControlled, clause 9: a state and operands that meet the hypotheses. -/
theorem test_SillageWritesAndIsControlled_9 : ∃ (s : State) (g : Fin 32) (w : Window), s.sil.win g.val = some w ∧ w.count ≠ 0 ∧ s.sil.frozen = false ∧ (s.sil.mode (s.on SEQ_CTL.TEST) = 0 ∨ s.sil.ringFull = false) ∧ s.sil.queue.length < 256 :=
  ⟨{ State.reset with sil := { startup := false, groups := [{ ms := 20, win := (some { parent := 40, code := 0x1201, src := 0x2902, openTs := 0, lastTs := 0, count := 3, map := 0 }), held := none }] } }, 0, { parent := 40, code := 0x1201, src := 0x2902, openTs := 0, lastTs := 0, count := 3, map := 0 }, by and_intros <;> decide +kernel⟩

set_option maxRecDepth 1000000 in
/-- SillageWritesAndIsControlled, clause 10: a state and operands that meet the hypotheses. -/
theorem test_SillageWritesAndIsControlled_10 : ∃ (s : State) (g : Fin 32) (w : Window), s.sil.win g.val = some w ∧ w.count ≠ 0 ∧ s.sil.frozen = true :=
  ⟨{ State.reset with sil := { frozen := true, groups := [{ ms := 20, win := (some { parent := 40, code := 0x1201, src := 0x2902, openTs := 0, lastTs := 0, count := 3, map := 0 }), held := none }] } }, 0, { parent := 40, code := 0x1201, src := 0x2902, openTs := 0, lastTs := 0, count := 3, map := 0 }, by and_intros <;> decide +kernel⟩

set_option maxRecDepth 1000000 in
/-- SillageWritesAndIsControlled, clause 11: a state and operands that meet the hypotheses. -/
theorem test_SillageWritesAndIsControlled_11 : ∃ (s : State) (g : Fin 32) (w : Window), s.sil.win g.val = some w ∧ w.count ≠ 0 ∧ s.sil.frozen = false ∧ s.sil.mode (s.on SEQ_CTL.TEST) ≠ 0 ∧ s.sil.ringFull = true :=
  ⟨{ State.reset with sil := { wseq := 16384, groups := [{ ms := 20, win := (some { parent := 40, code := 0x1201, src := 0x2902, openTs := 0, lastTs := 0, count := 3, map := 0 }), held := none }] } }, 0, { parent := 40, code := 0x1201, src := 0x2902, openTs := 0, lastTs := 0, count := 3, map := 0 }, by and_intros <;> decide +kernel⟩

set_option maxRecDepth 1000000 in
/-- SillageWritesAndIsControlled, clause 12: a state and operands that meet the hypotheses. -/
theorem test_SillageWritesAndIsControlled_12 : ∃ (s : State) (g : Fin 32) (w : Window), s.sil.win g.val = some w ∧ w.count = 0 :=
  ⟨{ State.reset with sil := { groups := [{ ms := 20, win := (some { parent := 40, code := 0x1201, src := 0x2902, openTs := 0, lastTs := 0, count := 0, map := 0 }), held := none }] } }, 0, { parent := 40, code := 0x1201, src := 0x2902, openTs := 0, lastTs := 0, count := 0, map := 0 }, by and_intros <;> decide +kernel⟩

set_option maxRecDepth 1000000 in
/-- SillageWritesAndIsControlled, clause 13: a state and operands that meet the hypotheses. -/
theorem test_SillageWritesAndIsControlled_13 : ∃ (s : State) (g : Fin 32), s.sil.win g.val = none :=
  ⟨State.reset, 3, by decide +kernel⟩

set_option maxRecDepth 1000000 in
/-- SillageWritesAndIsControlled, clause 14: a state and operands that meet the hypotheses. -/
theorem test_SillageWritesAndIsControlled_14 : ∃ (s : State) (ini : Initiator), s.judge ini true SIL_CTL.FREEZE.addr = .allowed :=
  ⟨State.reset, .keeper 0, by decide +kernel⟩

set_option maxRecDepth 1000000 in
/-- SillageWritesAndIsControlled, clause 15: a state and operands that meet the hypotheses. -/
theorem test_SillageWritesAndIsControlled_15 : ∃ (s : State) (ini : Initiator), s.judge ini true SIL_CTL.FREEZE.addr = .allowed ∧ s.sil.frozen = true :=
  ⟨{ State.reset with sil := { startup := false, frozen := true, frozenTotal := 5, frozenCodes := [3, 4], groups := [{ ms := 20, win := none, held := some { num := 9, code := 0x1201, src := 0x2902, flags := 4, count := 3, ts := 1, parent := 4, payload := 0 } }] } }, .keeper 0, by and_intros <;> decide +kernel⟩

set_option maxRecDepth 1000000 in
/-- SillageWritesAndIsControlled, clause 16: a state and operands that meet the hypotheses. -/
theorem test_SillageWritesAndIsControlled_16 : ∃ (s : State) (ini : Initiator), s.judge ini true SIL_CTL.FREEZE.addr = .allowed ∧ s.sil.frozen = false :=
  ⟨State.reset, .keeper 0, by and_intros <;> decide +kernel⟩

set_option maxRecDepth 1000000 in
/-- SillageWritesAndIsControlled, clause 17: a state and operands that meet the hypotheses. -/
theorem test_SillageWritesAndIsControlled_17 : ∃ (s : State), s.sil.frozen = true :=
  ⟨{ State.reset with sil := { startup := false, frozen := true, frozenTotal := 5, frozenCodes := [3, 4], groups := [{ ms := 20, win := none, held := some { num := 9, code := 0x1201, src := 0x2902, flags := 4, count := 3, ts := 1, parent := 4, payload := 0 } }] } }, by decide +kernel⟩

set_option maxRecDepth 1000000 in
/-- SillageWritesAndIsControlled, clause 18: a state and operands that meet the hypotheses. -/
theorem test_SillageWritesAndIsControlled_18 : ∃ (s : State), s.sil.frozen = false :=
  ⟨State.reset, by decide +kernel⟩

set_option maxRecDepth 1000000 in
/-- SillageWritesAndIsControlled, clause 19: a state and operands that meet the hypotheses. -/
theorem test_SillageWritesAndIsControlled_19 : ∃ (s : State) (ini : Initiator), s.judge ini true SIL_CTL.SERVICE.addr = .allowed :=
  ⟨State.reset, .keeper 0, by decide +kernel⟩

set_option maxRecDepth 1000000 in
/-- SillageWritesAndIsControlled, clause 20: a state and operands that meet the hypotheses. -/
theorem test_SillageWritesAndIsControlled_20 : ∃ (s : State) (ini : Initiator) (on : Bool), s.judge ini true SIL_CTL.RECOV.addr = .allowed :=
  ⟨State.reset, .keeper 0, true, by decide +kernel⟩

set_option maxRecDepth 1000000 in
/-- SillageWritesAndIsControlled, clause 21: a state and operands that meet the hypotheses. -/
theorem test_SillageWritesAndIsControlled_21 : ∃ (s : State) (ini : Initiator), s.judge ini true SIL_CNT_CLR.CLR.addr = .allowed :=
  ⟨State.reset, .keeper 0, by decide +kernel⟩

set_option maxRecDepth 1000000 in
/-- RegistersAreWrittenByClass, clause 1: a state and operands that meet the hypotheses. -/
theorem test_RegistersAreWrittenByClass_1 : ∃ (s : State) (ini : Initiator) (addr : Nat) (val : Word), s.coreTraps ini (wordReq addr val) = false ∧ s.judge ini true addr = .allowed ∧ (regionOf addr).isRegs = true ∧ addr % 4 ≠ 0 :=
  ⟨State.reset, .keeper 0, 0x20010001, 7, by and_intros <;> decide +kernel⟩

set_option maxRecDepth 1000000 in
/-- RegistersAreWrittenByClass, clause 2: a state and operands that meet the hypotheses. -/
theorem test_RegistersAreWrittenByClass_2 : ∃ (s : State) (ini : Initiator) (addr : Nat) (val : Word), s.coreTraps ini (wordReq addr val) = false ∧ s.judge ini true addr = .allowed ∧ (regionOf addr).isRegs = true ∧ addr % 4 = 0 ∧ fieldsAt addr = [] :=
  ⟨State.reset, .keeper 0, 0x20010FF0, 7, by and_intros <;> decide +kernel⟩

set_option maxRecDepth 1000000 in
/-- RegistersAreWrittenByClass, clause 3: a state and operands that meet the hypotheses. -/
theorem test_RegistersAreWrittenByClass_3 : ∃ (s : State) (ini : Initiator) (addr : Nat) (val : Word), s.coreTraps ini (wordReq addr val) = false ∧ s.judge ini true addr = .unreachable :=
  ⟨State.reset, .keeper 0, 0x2005C000, 7, by and_intros <;> decide +kernel⟩

set_option maxRecDepth 1000000 in
/-- RegistersAreWrittenByClass, clause 4: a state and operands that meet the hypotheses. -/
theorem test_RegistersAreWrittenByClass_4 : ∃ (s : State) (ini : Initiator) (addr : Nat) (val : Word), s.coreTraps ini (wordReq addr val) = false ∧ s.judge ini true addr = .forbidden ∧ (iniOnTop ini && (regionOf addr).onBase) = false :=
  ⟨State.reset, .debug, 0x20010000, 7, by and_intros <;> decide +kernel⟩

set_option maxRecDepth 1000000 in
/-- RegistersAreWrittenByClass, clause 5: a state and operands that meet the hypotheses. -/
theorem test_RegistersAreWrittenByClass_5 : ∃ (s : State) (ini : Initiator) (addr : Nat) (val : Word), s.coreTraps ini (wordReq addr val) = false ∧ s.judge ini true addr = .forbidden ∧ (iniOnTop ini && (regionOf addr).onBase) = true :=
  ⟨{ State.reset with pwr := { toppwrEn := true, toppwrGood := true, topRst := false } }, .core 1, 0x20080000, 7, by and_intros <;> decide +kernel⟩

set_option maxRecDepth 1000000 in
/-- RegistersAreWrittenByClass, clause 6: a state and operands that meet the hypotheses. -/
theorem test_RegistersAreWrittenByClass_6 : ∃ (s : State) (ini : Initiator) (k : Fin 8) (val : Word), s.judge ini true (FW_TRACE_EN.EN k.val).addr = .allowed ∧ s.coreTraps ini (wordReq (FW_TRACE_EN.EN k.val).addr val) = false :=
  ⟨{ State.reset with pwr := { toppwrEn := true, toppwrGood := true, topRst := false } }, .core 0, 3, 0xDEADBEEF, by and_intros <;> decide +kernel⟩

set_option maxRecDepth 1000000 in
/-- RegistersAreWrittenByClass, clause 7: a state and operands that meet the hypotheses. -/
theorem test_RegistersAreWrittenByClass_7 : ∃ (s : State) (ini : Initiator) (val : Word), s.judge ini true KPR_TOPWDT.SEEN.addr = .allowed ∧ s.coreTraps ini (wordReq KPR_TOPWDT.SEEN.addr val) = false :=
  ⟨State.reset.setAll [(KPR_TOPWDT.SEEN, 1), (KPR_TOPWDT.CNT, 3)], .keeper 0, 0xFFFFFFFF, by and_intros <;> decide +kernel⟩

set_option maxRecDepth 1000000 in
/-- RegistersAreWrittenByClass, clause 8: a state and operands that meet the hypotheses. -/
theorem test_RegistersAreWrittenByClass_8 : ∃ (s : State) (ini : Initiator) (val : Word), s.judge ini true SIL_CFG.FREEZE_MAX.addr = .allowed ∧ s.coreTraps ini (wordReq SIL_CFG.FREEZE_MAX.addr val) = false ∧ s.locked = false :=
  ⟨State.reset, .keeper 0, 5, by and_intros <;> decide +kernel⟩

set_option maxRecDepth 1000000 in
/-- RegistersAreWrittenByClass, clause 9: a state and operands that meet the hypotheses. -/
theorem test_RegistersAreWrittenByClass_9 : ∃ (s : State) (ini : Initiator) (val : Word), s.judge ini true SIL_CFG.FREEZE_MAX.addr = .allowed ∧ s.coreTraps ini (wordReq SIL_CFG.FREEZE_MAX.addr val) = false ∧ s.locked = true ∧ bitsOf val.toNat 0 3 ≠ s.get SIL_CFG.FREEZE_MAX :=
  ⟨State.reset.setAll [(ACD_STS.STATE, 2)], .keeper 0, 5, by and_intros <;> decide +kernel⟩

set_option maxRecDepth 1000000 in
/-- RegistersAreWrittenByClass, clause 10: a state and operands that meet the hypotheses. -/
theorem test_RegistersAreWrittenByClass_10 : ∃ (s : State) (ini : Initiator) (val : Word), s.judge ini true SIL_CFG.FREEZE_MAX.addr = .allowed ∧ s.coreTraps ini (wordReq SIL_CFG.FREEZE_MAX.addr val) = false ∧ bitsOf val.toNat 0 3 = s.get SIL_CFG.FREEZE_MAX :=
  ⟨State.reset, .keeper 0, 2, by and_intros <;> decide +kernel⟩

set_option maxRecDepth 1000000 in
/-- RegistersAreWrittenByClass, clause 11: a state and operands that meet the hypotheses. -/
theorem test_RegistersAreWrittenByClass_11 : ∃ (s : State) (ini : Initiator) (k : Fin 256) (val : Word), s.judge ini true (TAMP_LIM_RED.LIM k.val).addr = .allowed ∧ s.coreTraps ini (wordReq (TAMP_LIM_RED.LIM k.val).addr val) = false ∧ s.get (TAMP_CMP_CFG.DIR k.val) = 0 ∧ sgn 16 (bitsOf val.toNat 0 16) < sgn 16 (s.get (TAMP_LIM_RED.LIM k.val)) :=
  ⟨{ State.reset.setAll [((TAMP_LIM_RED.LIM 7), 100), (BRG_STS.STATE, 2)] with pwr := { toppwrEn := true, toppwrGood := true, topRst := false } }, .core 0, 7, 0xFFFF, by and_intros <;> decide +kernel⟩

set_option maxRecDepth 1000000 in
/-- RegistersAreWrittenByClass, clause 12: a state and operands that meet the hypotheses. -/
theorem test_RegistersAreWrittenByClass_12 : ∃ (s : State) (ini : Initiator) (k : Fin 256) (val : Word), s.judge ini true (TAMP_LIM_RED.LIM k.val).addr = .allowed ∧ s.coreTraps ini (wordReq (TAMP_LIM_RED.LIM k.val).addr val) = false ∧ s.get (TAMP_CMP_CFG.DIR k.val) = 0 ∧ sgn 16 (s.get (TAMP_LIM_RED.LIM k.val)) < sgn 16 (bitsOf val.toNat 0 16) :=
  ⟨{ State.reset.setAll [((TAMP_LIM_RED.LIM 7), 100), (BRG_STS.STATE, 2)] with pwr := { toppwrEn := true, toppwrGood := true, topRst := false } }, .core 0, 7, 101, by and_intros <;> decide +kernel⟩

set_option maxRecDepth 1000000 in
/-- RegistersAreWrittenByClass, clause 13: a state and operands that meet the hypotheses. -/
theorem test_RegistersAreWrittenByClass_13 : ∃ (s : State) (ini : Initiator) (addr : Nat) (val : Word), s.coreTraps ini (wordReq addr val) = false ∧ s.judge ini true addr = .allowed ∧ s.locked = true ∧ 0x20030000 ≤ addr ∧ addr < 0x20040000 :=
  ⟨{ State.reset.setAll [(ACD_STS.STATE, 2), (BRG_STS.STATE, 2)] with pwr := { toppwrEn := true, toppwrGood := true, topRst := false } }, .core 0, 0x20030308, 0x7F10, by and_intros <;> decide +kernel⟩

set_option maxRecDepth 1000000 in
/-- RegistersAreWrittenByClass, clause 14: a state and operands that meet the hypotheses. -/
theorem test_RegistersAreWrittenByClass_14 : ∃ (s : State) (ini : Initiator) (val : Word), s.judge ini true FW_TEXT_LIMIT.LIMIT.addr = .allowed ∧ s.coreTraps ini (wordReq FW_TEXT_LIMIT.LIMIT.addr val) = false ∧ fromKeeper ini = true ∧ s.on FW_TEXT_BASE.LOCK = false :=
  ⟨State.reset.setAll [(BRG_STS.STATE, 2)], .keeper 1, 0xFFFFFFFF, by and_intros <;> decide +kernel⟩

set_option maxRecDepth 1000000 in
/-- RegistersAreWrittenByClass, clause 15: a state and operands that meet the hypotheses. -/
theorem test_RegistersAreWrittenByClass_15 : ∃ (s : State) (ini : Initiator) (val : Word), s.judge ini true FW_TEXT_LIMIT.LIMIT.addr = .allowed ∧ s.coreTraps ini (wordReq FW_TEXT_LIMIT.LIMIT.addr val) = false ∧ (fromKeeper ini = false ∨ s.on FW_TEXT_BASE.LOCK = true) :=
  ⟨{ State.reset with pwr := { toppwrEn := true, toppwrGood := true, topRst := false } }, .core 1, 0xFFFFFFFF, by and_intros <;> decide +kernel⟩

set_option maxRecDepth 1000000 in
/-- RegistersAreWrittenByClass, clause 16: a state and operands that meet the hypotheses. -/
theorem test_RegistersAreWrittenByClass_16 : ∃ (s : State) (ini : Initiator) (val : Word), s.judge ini true FW_TOPWDT_CFG.PERIOD.addr = .allowed ∧ s.coreTraps ini (wordReq FW_TOPWDT_CFG.PERIOD.addr val) = false :=
  ⟨{ State.reset.setAll [(FW_TOPWDT_STS.ARMED, 1)] with pwr := { toppwrEn := true, toppwrGood := true, topRst := false } }, .core 1, 7, by and_intros <;> decide +kernel⟩

set_option maxRecDepth 1000000 in
/-- RegistersAreWrittenByClass, clause 17: a state and operands that meet the hypotheses. -/
theorem test_RegistersAreWrittenByClass_17 : ∃ (s : State) (ini : Initiator), s.judge ini true ACD_FP_CTL.SNAP.addr = .allowed :=
  ⟨{ State.reset with acd := { fp := List.replicate 48 7 } }, .keeper 0, by decide +kernel⟩

set_option maxRecDepth 1000000 in
/-- AccessesReadAndWriteByAddress, clause 1: a state and operands that meet the hypotheses. -/
theorem test_AccessesReadAndWriteByAddress_1 : ∃ (s : State) (ini : Initiator) (req : BusReq) (beats back : Beats), crosses ini req.addr = false ∧ s.coreTraps ini req = false ∧ s.judge ini false req.addr = .allowed ∧ req.write = false ∧ req.amo = none ∧ (regionOf req.addr).isRegs = false ∧ 1 ≤ req.size ∧ req.size ≤ 8 ∧ s.judge ini false (req.addr + req.size - 1) = .allowed ∧ regionOf (req.addr + req.size - 1) = regionOf req.addr ∧ (regionOf req.addr = .keeperMem ∨ regionOf req.addr = .retention ∨ regionOf req.addr = .logMirror ∨ regionOf req.addr = .topSram ∨ regionOf req.addr = .sigTable) :=
  ⟨{ State.reset.setAll [] with pwr := { toppwrEn := true, toppwrGood := true, topRst := false }, mem := [(0x100000001, 7)] }, .core 0, { write := false, addr := 0x100000000, size := 2, data := 0, uncorr := false, corr := 0 }, { corrected := 0, rejected := 0 }, {}, by and_intros <;> decide +kernel⟩

set_option maxRecDepth 1000000 in
/-- AccessesReadAndWriteByAddress, clause 2: a state and operands that meet the hypotheses. -/
theorem test_AccessesReadAndWriteByAddress_2 : ∃ (s : State) (ini : Initiator) (req : BusReq) (beats back : Beats), crosses ini req.addr = false ∧ s.coreTraps ini req = false ∧ s.judge ini true req.addr = .allowed ∧ req.write = true ∧ req.amo = none ∧ (regionOf req.addr).isRegs = false ∧ 1 ≤ req.size ∧ req.size ≤ 8 ∧ s.judge ini true (req.addr + req.size - 1) = .allowed ∧ regionOf (req.addr + req.size - 1) = regionOf req.addr ∧ ((regionOf req.addr = .keeperMem ∨ regionOf req.addr = .retention ∨ regionOf req.addr = .logMirror) ∨ (regionOf req.addr = .topSram ∧ s.textLocked req.addr = false ∧ s.textLocked (req.addr + req.size - 1) = false)) :=
  ⟨{ State.reset.setAll [] with pwr := { toppwrEn := true, toppwrGood := true, topRst := false } }, .core 0, { write := true, addr := 0x100000000, size := 4, data := 0x01020304, uncorr := false, corr := 0 }, { corrected := 0, rejected := 0 }, {}, by and_intros <;> decide +kernel⟩

set_option maxRecDepth 1000000 in
/-- AccessesReadAndWriteByAddress, clause 3: a state and operands that meet the hypotheses. -/
theorem test_AccessesReadAndWriteByAddress_3 : ∃ (s : State) (ini : Initiator) (req : BusReq) (beats back : Beats), crosses ini req.addr = false ∧ s.coreTraps ini req = false ∧ s.judge ini true req.addr = .allowed ∧ req.write = true ∧ req.amo = none ∧ (regionOf req.addr).isRegs = false ∧ 1 ≤ req.size ∧ req.size ≤ 8 ∧ s.judge ini true (req.addr + req.size - 1) = .allowed ∧ regionOf (req.addr + req.size - 1) = regionOf req.addr ∧ regionOf req.addr = .topSram ∧ (s.textLocked req.addr || s.textLocked (req.addr + req.size - 1)) = true :=
  ⟨{ State.reset.setAll [(FW_TEXT_BASE.LOCK, 1), (FW_TEXT_LIMIT.LIMIT, 2)] with pwr := { toppwrEn := true, toppwrGood := true, topRst := false } }, .core 0, { write := true, addr := 0x100001000, size := 4, data := 1, uncorr := false, corr := 0 }, { corrected := 0, rejected := 0 }, {}, by and_intros <;> decide +kernel⟩

set_option maxRecDepth 1000000 in
/-- AccessesReadAndWriteByAddress, clause 4: a state and operands that meet the hypotheses. -/
theorem test_AccessesReadAndWriteByAddress_4 : ∃ (s : State) (ini : Initiator) (req : BusReq) (beats back : Beats), crosses ini req.addr = false ∧ s.coreTraps ini req = false ∧ s.judge ini true req.addr = .allowed ∧ req.write = true ∧ req.amo = none ∧ (regionOf req.addr).isRegs = false ∧ 1 ≤ req.size ∧ req.size ≤ 8 ∧ s.judge ini true (req.addr + req.size - 1) = .allowed ∧ regionOf (req.addr + req.size - 1) = regionOf req.addr ∧ (regionOf req.addr = .infWeights ∨ regionOf req.addr = .infSlots) ∧ ini ≠ .security ∧ ((gateDomain (regionOf req.addr) req.addr).all (fun d => !s.gated d && !bitOf (s.get CLK_GATE_REQ.REQ) d)) = true :=
  ⟨{ State.reset.setAll [] with pwr := { toppwrEn := true, toppwrGood := true, topRst := false } }, .core 0, { write := true, addr := 0x210000000, size := 4, data := 1, uncorr := false, corr := 0 }, { corrected := 0, rejected := 0 }, {}, by and_intros <;> decide +kernel⟩

set_option maxRecDepth 1000000 in
/-- AccessesReadAndWriteByAddress, clause 5: a state and operands that meet the hypotheses. -/
theorem test_AccessesReadAndWriteByAddress_5 : ∃ (s : State) (ini : Initiator) (req : BusReq) (beats back : Beats), crosses ini req.addr = false ∧ s.coreTraps ini req = false ∧ s.judge ini true req.addr = .allowed ∧ req.write = true ∧ req.amo = none ∧ (regionOf req.addr).isRegs = false ∧ 1 ≤ req.size ∧ req.size ≤ 8 ∧ s.judge ini true (req.addr + req.size - 1) = .allowed ∧ regionOf (req.addr + req.size - 1) = regionOf req.addr ∧ regionOf req.addr = .infState ∧ s.stateRefuses ini req.addr req.size = true ∧ ((gateDomain (regionOf req.addr) req.addr).all (fun d => !s.gated d && !bitOf (s.get CLK_GATE_REQ.REQ) d)) = true :=
  ⟨{ State.reset.setAll [(INF_SLOT_STS.STATE 3, 2), (INF_SLOT_PROG.CLMASK 3, 1)] with pwr := { toppwrEn := true, toppwrGood := true, topRst := false }, mem := memStore [] (slotBase 3 + 68) [16] }, .core 0, { write := true, addr := 0x220000000, size := 4, data := 1, uncorr := false, corr := 0 }, { corrected := 0, rejected := 0 }, {}, by and_intros <;> decide +kernel⟩

set_option maxRecDepth 1000000 in
/-- AccessesReadAndWriteByAddress, clause 6: a state and operands that meet the hypotheses. -/
theorem test_AccessesReadAndWriteByAddress_6 : ∃ (s : State) (ini : Initiator) (req : BusReq) (beats back : Beats), crosses ini req.addr = false ∧ s.coreTraps ini req = false ∧ s.judge ini true req.addr = .allowed ∧ req.write = true ∧ req.amo = none ∧ (regionOf req.addr).isRegs = false ∧ 1 ≤ req.size ∧ req.size ≤ 8 ∧ s.judge ini true (req.addr + req.size - 1) = .allowed ∧ regionOf (req.addr + req.size - 1) = regionOf req.addr ∧ regionOf req.addr = .infState ∧ s.stateRefuses ini req.addr req.size = false ∧ ((gateDomain (regionOf req.addr) req.addr).all (fun d => !s.gated d && !bitOf (s.get CLK_GATE_REQ.REQ) d)) = true :=
  ⟨{ State.reset.setAll [] with pwr := { toppwrEn := true, toppwrGood := true, topRst := false } }, .core 0, { write := true, addr := 0x220000000, size := 4, data := 9, uncorr := false, corr := 0 }, { corrected := 0, rejected := 0 }, {}, by and_intros <;> decide +kernel⟩

set_option maxRecDepth 1000000 in
/-- AccessesReadAndWriteByAddress, clause 7: a state and operands that meet the hypotheses. -/
theorem test_AccessesReadAndWriteByAddress_7 : ∃ (s : State) (ini : Initiator) (req : BusReq) (beats back : Beats), crosses ini req.addr = false ∧ s.coreTraps ini req = false ∧ s.judge ini false req.addr = .allowed ∧ req.write = false ∧ req.amo = none ∧ (regionOf req.addr).isRegs = false ∧ 1 ≤ req.size ∧ req.size ≤ 8 ∧ s.judge ini false (req.addr + req.size - 1) = .allowed ∧ regionOf (req.addr + req.size - 1) = regionOf req.addr ∧ (regionOf req.addr = .infWeights ∨ regionOf req.addr = .infState ∨ regionOf req.addr = .infSlots) ∧ req.uncorr = true ∧ ((gateDomain (regionOf req.addr) req.addr).all (fun d => !s.gated d && !bitOf (s.get CLK_GATE_REQ.REQ) d)) = true :=
  ⟨{ State.reset.setAll [] with pwr := { toppwrEn := true, toppwrGood := true, topRst := false } }, .core 0, { write := false, addr := 0x210000000, size := 4, data := 1, uncorr := true, corr := 0 }, { corrected := 0, rejected := 0 }, {}, by and_intros <;> decide +kernel⟩

set_option maxRecDepth 1000000 in
/-- AccessesReadAndWriteByAddress, clause 8: a state and operands that meet the hypotheses. -/
theorem test_AccessesReadAndWriteByAddress_8 : ∃ (s : State) (ini : Initiator) (req : BusReq) (beats back : Beats), crosses ini req.addr = false ∧ s.coreTraps ini req = false ∧ s.judge ini false req.addr = .allowed ∧ req.write = false ∧ req.amo = none ∧ (regionOf req.addr).isRegs = false ∧ 1 ≤ req.size ∧ req.size ≤ 8 ∧ s.judge ini false (req.addr + req.size - 1) = .allowed ∧ regionOf (req.addr + req.size - 1) = regionOf req.addr ∧ (regionOf req.addr = .infWeights ∨ regionOf req.addr = .infState ∨ regionOf req.addr = .infSlots) ∧ req.uncorr = false ∧ ((gateDomain (regionOf req.addr) req.addr).all (fun d => !s.gated d && !bitOf (s.get CLK_GATE_REQ.REQ) d)) = true :=
  ⟨{ State.reset.setAll [] with pwr := { toppwrEn := true, toppwrGood := true, topRst := false } }, .core 0, { write := false, addr := 0x230000000, size := 8, data := 1, uncorr := false, corr := 2 }, { corrected := 0, rejected := 0 }, {}, by and_intros <;> decide +kernel⟩

set_option maxRecDepth 1000000 in
/-- AccessesReadAndWriteByAddress, clause 9: a state and operands that meet the hypotheses. -/
theorem test_AccessesReadAndWriteByAddress_9 : ∃ (s : State) (ini : Initiator) (req : BusReq) (beats back : Beats), crosses ini req.addr = false ∧ s.coreTraps ini req = false ∧ s.judge ini req.write req.addr = .allowed ∧ req.amo = none ∧ (regionOf req.addr).isRegs = false ∧ (req.size = 0 ∨ 8 < req.size ∨ regionOf (req.addr + req.size - 1) ≠ regionOf req.addr) :=
  ⟨{ State.reset.setAll [] with pwr := { toppwrEn := true, toppwrGood := true, topRst := false } }, .core 0, { write := true, addr := 0x101700000, size := 16, data := 1, uncorr := false, corr := 0 }, { corrected := 0, rejected := 0 }, {}, by and_intros <;> decide +kernel⟩

set_option maxRecDepth 1000000 in
/-- AccessesReadAndWriteByAddress, clause 10: a state and operands that meet the hypotheses. -/
theorem test_AccessesReadAndWriteByAddress_10 : ∃ (s : State) (ini : Initiator) (req : BusReq) (beats back : Beats), s.coreTraps ini req = false ∧ 0x1000000000 + s.get ACD_INFO.LP_CAP * 2 ^ 30 ≤ req.addr ∧ 0x1000000000 ≤ req.addr ∧ req.addr ≤ 0x1FFFFFFFFF :=
  ⟨{ State.reset.setAll [(ACD_INFO.LP_CAP, 16)] with pwr := { toppwrEn := true, toppwrGood := true, topRst := false } }, .core 0, { write := false, addr := 0x1400000000, size := 4, data := 1, uncorr := false, corr := 0 }, { corrected := 0, rejected := 0 }, {}, by and_intros <;> decide +kernel⟩

set_option maxRecDepth 1000000 in
/-- AccessesReadAndWriteByAddress, clause 11: a state and operands that meet the hypotheses. -/
theorem test_AccessesReadAndWriteByAddress_11 : ∃ (s : State) (ini : Initiator) (req : BusReq) (beats back : Beats), crosses ini req.addr = false ∧ s.coreTraps ini req = false ∧ s.judge ini true req.addr = .allowed ∧ req.write = true ∧ req.amo = none ∧ (regionOf req.addr).isRegs = false ∧ 1 ≤ req.size ∧ req.size ≤ 8 ∧ s.judge ini true (req.addr + req.size - 1) = .allowed ∧ regionOf (req.addr + req.size - 1) = regionOf req.addr ∧ regionOf req.addr = .lpddr ∧ s.on LPC_STS.INIT_DONE = true ∧ ((gateDomain (regionOf req.addr) req.addr).all (fun d => !s.gated d && !bitOf (s.get CLK_GATE_REQ.REQ) d)) = true :=
  ⟨{ State.reset.setAll [(ACD_INFO.LP_CAP, 16), (LPC_STS.INIT_DONE, 1)] with pwr := { toppwrEn := true, toppwrGood := true, topRst := false } }, .core 0, { write := true, addr := 0x1000000008, size := 8, data := 1, uncorr := false, corr := 0 }, { corrected := 0, rejected := 0 }, {}, by and_intros <;> decide +kernel⟩

set_option maxRecDepth 1000000 in
/-- AccessesReadAndWriteByAddress, clause 12: a state and operands that meet the hypotheses. -/
theorem test_AccessesReadAndWriteByAddress_12 : ∃ (s : State) (ini : Initiator) (req : BusReq) (beats back : Beats), crosses ini req.addr = false ∧ s.coreTraps ini req = false ∧ s.judge ini true req.addr = .allowed ∧ req.write = true ∧ req.amo = none ∧ (regionOf req.addr).isRegs = false ∧ 1 ≤ req.size ∧ req.size ≤ 8 ∧ s.judge ini true (req.addr + req.size - 1) = .allowed ∧ regionOf (req.addr + req.size - 1) = regionOf req.addr ∧ regionOf req.addr = .lpddr ∧ s.on LPC_STS.INIT_DONE = false ∧ s.tel.lpEnded = false ∧ ((gateDomain (regionOf req.addr) req.addr).all (fun d => !s.gated d && !bitOf (s.get CLK_GATE_REQ.REQ) d)) = true :=
  ⟨{ State.reset.setAll [(ACD_INFO.LP_CAP, 16)] with pwr := { toppwrEn := true, toppwrGood := true, topRst := false } }, .core 0, { write := true, addr := 0x1000000008, size := 8, data := 1, uncorr := false, corr := 0 }, { corrected := 0, rejected := 0 }, {}, by and_intros <;> decide +kernel⟩

set_option maxRecDepth 1000000 in
/-- AccessesReadAndWriteByAddress, clause 13: a state and operands that meet the hypotheses. -/
theorem test_AccessesReadAndWriteByAddress_13 : ∃ (s : State) (ini : Initiator) (req : BusReq) (beats back : Beats), crosses ini req.addr = false ∧ s.coreTraps ini req = false ∧ s.judge ini req.write req.addr = .allowed ∧ req.amo = none ∧ (regionOf req.addr).isRegs = false ∧ 1 ≤ req.size ∧ req.size ≤ 8 ∧ s.judge ini req.write (req.addr + req.size - 1) = .allowed ∧ regionOf (req.addr + req.size - 1) = regionOf req.addr ∧ regionOf req.addr = .lpddr ∧ s.tel.lpEnded = true ∧ s.on LPC_STS.INIT_DONE = false ∧ ((gateDomain (regionOf req.addr) req.addr).all (fun d => !s.gated d && !bitOf (s.get CLK_GATE_REQ.REQ) d)) = true :=
  ⟨{ State.reset.setAll [(ACD_INFO.LP_CAP, 16)] with pwr := { toppwrEn := true, toppwrGood := true, topRst := false }, tel := { lpEnded := true } }, .core 0, { write := true, addr := 0x1000000008, size := 8, data := 1, uncorr := false, corr := 0 }, { corrected := 0, rejected := 0 }, {}, by and_intros <;> decide +kernel⟩

set_option maxRecDepth 1000000 in
/-- AccessesReadAndWriteByAddress, clause 14: a state and operands that meet the hypotheses. -/
theorem test_AccessesReadAndWriteByAddress_14 : ∃ (s : State) (ini : Initiator) (req : BusReq) (beats back : Beats), crosses ini req.addr = false ∧ s.coreTraps ini req = false ∧ s.judge ini false req.addr = .allowed ∧ req.write = false ∧ req.amo = none ∧ (regionOf req.addr).isRegs = false ∧ 1 ≤ req.size ∧ req.size ≤ 8 ∧ s.judge ini false (req.addr + req.size - 1) = .allowed ∧ regionOf (req.addr + req.size - 1) = regionOf req.addr ∧ regionOf req.addr = .lpddr ∧ req.uncorr = true ∧ ((gateDomain (regionOf req.addr) req.addr).all (fun d => !s.gated d && !bitOf (s.get CLK_GATE_REQ.REQ) d)) = true ∧ s.lpFailed = false :=
  ⟨{ State.reset.setAll [(ACD_INFO.LP_CAP, 16), (LPC_STS.INIT_DONE, 1)] with pwr := { toppwrEn := true, toppwrGood := true, topRst := false } }, .core 0, { write := false, addr := 0x1000000008, size := 8, data := 1, uncorr := true, corr := 0 }, { corrected := 0, rejected := 0 }, {}, by and_intros <;> decide +kernel⟩

set_option maxRecDepth 1000000 in
/-- AccessesReadAndWriteByAddress, clause 15: a state and operands that meet the hypotheses. -/
theorem test_AccessesReadAndWriteByAddress_15 : ∃ (s : State) (ini : Initiator) (req : BusReq) (beats back : Beats), crosses ini req.addr = false ∧ s.coreTraps ini req = false ∧ s.judge ini false req.addr = .allowed ∧ req.write = false ∧ req.amo = none ∧ (regionOf req.addr).isRegs = false ∧ 1 ≤ req.size ∧ req.size ≤ 8 ∧ s.judge ini false (req.addr + req.size - 1) = .allowed ∧ regionOf (req.addr + req.size - 1) = regionOf req.addr ∧ regionOf req.addr = .lpddr ∧ req.uncorr = false ∧ s.on LPC_STS.INIT_DONE = true ∧ ((gateDomain (regionOf req.addr) req.addr).all (fun d => !s.gated d && !bitOf (s.get CLK_GATE_REQ.REQ) d)) = true :=
  ⟨{ State.reset.setAll [(ACD_INFO.LP_CAP, 16), (LPC_STS.INIT_DONE, 1)] with pwr := { toppwrEn := true, toppwrGood := true, topRst := false } }, .core 0, { write := false, addr := 0x1000000008, size := 8, data := 1, uncorr := false, corr := 0 }, { corrected := 0, rejected := 0 }, {}, by and_intros <;> decide +kernel⟩

set_option maxRecDepth 1000000 in
/-- AccessesReadAndWriteByAddress, clause 16: a state and operands that meet the hypotheses. -/
theorem test_AccessesReadAndWriteByAddress_16 : ∃ (s : State) (ini : Initiator) (req : BusReq) (beats back : Beats) (d : Nat), crosses ini req.addr = false ∧ s.coreTraps ini req = false ∧ s.judge ini req.write req.addr = .allowed ∧ req.amo = none ∧ (regionOf req.addr).isRegs = false ∧ 1 ≤ req.size ∧ req.size ≤ 8 ∧ s.judge ini req.write (req.addr + req.size - 1) = .allowed ∧ regionOf (req.addr + req.size - 1) = regionOf req.addr ∧ gateDomain (regionOf req.addr) req.addr = some d ∧ s.gated d = true :=
  ⟨{ State.reset.setAll [(CLK_GATE_STS.GATED, 1)] with pwr := { toppwrEn := true, toppwrGood := true, topRst := false } }, .core 0, { write := false, addr := 0x210000000, size := 4, data := 1, uncorr := false, corr := 0 }, { corrected := 0, rejected := 0 }, {}, 0, by and_intros <;> decide +kernel⟩

set_option maxRecDepth 1000000 in
/-- AccessesReadAndWriteByAddress, clause 17: a state and operands that meet the hypotheses. -/
theorem test_AccessesReadAndWriteByAddress_17 : ∃ (s : State) (ini : Initiator) (req : BusReq) (beats back : Beats) (d : Nat), crosses ini req.addr = false ∧ s.coreTraps ini req = false ∧ s.judge ini req.write req.addr = .allowed ∧ req.amo = none ∧ (regionOf req.addr).isRegs = false ∧ 1 ≤ req.size ∧ req.size ≤ 8 ∧ s.judge ini req.write (req.addr + req.size - 1) = .allowed ∧ regionOf (req.addr + req.size - 1) = regionOf req.addr ∧ gateDomain (regionOf req.addr) req.addr = some d ∧ s.gated d = false ∧ bitOf (s.get CLK_GATE_REQ.REQ) d = true :=
  ⟨{ State.reset.setAll [(CLK_GATE_REQ.REQ, 1)] with pwr := { toppwrEn := true, toppwrGood := true, topRst := false } }, .core 0, { write := false, addr := 0x210000000, size := 4, data := 1, uncorr := false, corr := 0 }, { corrected := 0, rejected := 0 }, {}, 0, by and_intros <;> decide +kernel⟩

set_option maxRecDepth 1000000 in
/-- AccessesReadAndWriteByAddress, clause 18: a state and operands that meet the hypotheses. -/
theorem test_AccessesReadAndWriteByAddress_18 : ∃ (s : State) (ini : Initiator) (req : BusReq) (beats back : Beats), crosses ini req.addr = false ∧ s.coreTraps ini req = false ∧ s.judge ini req.write req.addr = .allowed ∧ req.amo = none ∧ (regionOf req.addr).isRegs = true ∧ (req.size ≠ 4 ∨ req.addr % 4 ≠ 0) :=
  ⟨State.reset, .keeper 0, { write := true, addr := 0x20010000, size := 8, data := 1, uncorr := false, corr := 0 }, { corrected := 0, rejected := 0 }, {}, by and_intros <;> decide +kernel⟩

set_option maxRecDepth 1000000 in
/-- AccessesReadAndWriteByAddress, clause 19: a state and operands that meet the hypotheses. -/
theorem test_AccessesReadAndWriteByAddress_19 : ∃ (s : State) (ini : Initiator) (req : BusReq) (beats back : Beats), crosses ini req.addr = false ∧ s.coreTraps ini req = false ∧ s.judge ini false req.addr = .allowed ∧ req.write = false ∧ (regionOf req.addr).isRegs = true ∧ req.size = 4 ∧ req.addr % 4 = 0 ∧ req.amo = none ∧ plicRange req.addr = false ∧ s.openView req.addr = false ∧ (req.addr ≠ CLK_TS_LO.TS_LO.addr ∧ req.addr ≠ ACD_EPOCH_LO.EPOCH_LO.addr ∧ req.addr ≠ ACD_EPOCH_HI.EPOCH_HI.addr ∧ instOf TW_ALERT.ADDR 12 req.addr = none) :=
  ⟨State.reset, .keeper 0, { write := false, addr := 0x20010000, size := 4, data := 0, uncorr := false, corr := 0 }, { corrected := 0, rejected := 0 }, {}, by and_intros <;> decide +kernel⟩

set_option maxRecDepth 1000000 in
/-- AccessesReadAndWriteByAddress, clause 20: a state and operands that meet the hypotheses. -/
theorem test_AccessesReadAndWriteByAddress_20 : ∃ (s : State) (ini : Initiator) (req : BusReq) (beats back : Beats), crosses ini req.addr = false ∧ s.coreTraps ini req = false ∧ s.judge ini false req.addr = .allowed ∧ req.write = false ∧ req.amo = none ∧ req.size = 4 ∧ req.addr = CLK_TS_LO.TS_LO.addr :=
  ⟨{ State.reset with time := { State.reset.time with ts := 12800000000000000 } }, .keeper 0, { write := false, addr := CLK_TS_LO.TS_LO.addr, size := 4, data := 0, uncorr := false, corr := 0 }, { corrected := 0, rejected := 0 }, {}, by and_intros <;> decide +kernel⟩

set_option maxRecDepth 1000000 in
/-- AccessesReadAndWriteByAddress, clause 21: a state and operands that meet the hypotheses. -/
theorem test_AccessesReadAndWriteByAddress_21 : ∃ (s : State) (ini : Initiator) (req : BusReq) (beats back : Beats), crosses ini req.addr = true ∧ s.vcFree vcCtrl (b2n (!iniOnTop ini)) = true ∧ s.ctrlWaits (ctrlDir ini) = false ∧ (s.vcFree vcCtrl (1 - ctrlDir ini) && !s.ctrlWaits (1 - ctrlDir ini)) = true ∧ beats.rejected ≤ s.get BRG_CTL.REPLAY_MAX + 1 ∧ back.rejected ≤ s.get BRG_CTL.REPLAY_MAX + 1 ∧ s.coreTraps ini req = false ∧ s.judge ini false req.addr = .allowed ∧ req.write = false ∧ req.amo = none ∧ (regionOf req.addr).isRegs = false ∧ 1 ≤ req.size ∧ req.size ≤ 8 ∧ s.judge ini false (req.addr + req.size - 1) = .allowed ∧ regionOf (req.addr + req.size - 1) = regionOf req.addr ∧ (regionOf req.addr = .keeperMem ∨ regionOf req.addr = .retention ∨ regionOf req.addr = .logMirror ∨ regionOf req.addr = .topSram ∨ regionOf req.addr = .sigTable) :=
  ⟨State.reset.setAll [(BRG_STS.STATE, 2)], .keeper 0, { write := false, addr := 0x100000000, size := 2, data := 0, uncorr := false, corr := 0 }, { corrected := 3, rejected := 1 }, { corrected := 2, rejected := 0 }, by and_intros <;> decide +kernel⟩

set_option maxRecDepth 1000000 in
/-- AccessesReadAndWriteByAddress, clause 22: a state and operands that meet the hypotheses. -/
theorem test_AccessesReadAndWriteByAddress_22 : ∃ (s : State) (ini : Initiator) (req : BusReq) (beats back : Beats), crosses ini req.addr = true ∧ s.vcFree vcCtrl (b2n (!iniOnTop ini)) = true ∧ s.ctrlWaits (ctrlDir ini) = false ∧ (s.vcFree vcCtrl (1 - ctrlDir ini) && !s.ctrlWaits (1 - ctrlDir ini)) = true ∧ beats.rejected ≤ s.get BRG_CTL.REPLAY_MAX + 1 ∧ back.rejected ≤ s.get BRG_CTL.REPLAY_MAX + 1 ∧ s.coreTraps ini req = false ∧ s.judge ini true req.addr = .allowed ∧ req.write = true ∧ req.amo = none ∧ (regionOf req.addr).isRegs = false ∧ 1 ≤ req.size ∧ req.size ≤ 8 ∧ s.judge ini true (req.addr + req.size - 1) = .allowed ∧ regionOf (req.addr + req.size - 1) = regionOf req.addr ∧ ((regionOf req.addr = .keeperMem ∨ regionOf req.addr = .retention ∨ regionOf req.addr = .logMirror) ∨ (regionOf req.addr = .topSram ∧ s.textLocked req.addr = false ∧ s.textLocked (req.addr + req.size - 1) = false)) :=
  ⟨State.reset.setAll [(BRG_STS.STATE, 2)], .keeper 0, { write := true, addr := 0x100000000, size := 4, data := 9, uncorr := false, corr := 0 }, { corrected := 3, rejected := 1 }, { corrected := 2, rejected := 0 }, by and_intros <;> decide +kernel⟩

set_option maxRecDepth 1000000 in
/-- AccessesReadAndWriteByAddress, clause 23: a state and operands that meet the hypotheses. -/
theorem test_AccessesReadAndWriteByAddress_23 : ∃ (s : State) (ini : Initiator) (req : BusReq) (beats back : Beats), crosses ini req.addr = true ∧ s.vcFree vcCtrl (b2n (!iniOnTop ini)) = true ∧ s.ctrlWaits (ctrlDir ini) = false ∧ s.coreTraps ini req = false ∧ s.judge ini req.write req.addr = .allowed ∧ s.get BRG_CTL.REPLAY_MAX + 1 < beats.rejected :=
  ⟨State.reset.setAll [(BRG_STS.STATE, 2)], .keeper 0, { write := true, addr := 0x100000000, size := 4, data := 9, uncorr := false, corr := 0 }, { corrected := 0, rejected := 9 }, {}, by and_intros <;> decide +kernel⟩

set_option maxRecDepth 1000000 in
/-- AccessesReadAndWriteByAddress, clause 24: a state and operands that meet the hypotheses. -/
theorem test_AccessesReadAndWriteByAddress_24 : ∃ (s : State) (ini : Initiator) (req : BusReq) (beats back : Beats), crosses ini req.addr = true ∧ s.coreTraps ini req = false ∧ s.judge ini req.write req.addr = .allowed ∧ (s.vcFree vcCtrl (ctrlDir ini) = false ∨ s.ctrlWaits (ctrlDir ini) = true) :=
  ⟨({ State.reset with brg := { levelQ := [7] } } : State).set BRG_STS.STATE 2, .keeper 0, { write := true, addr := 0x100000000, size := 4, data := 9, uncorr := false, corr := 0 }, { corrected := 0, rejected := 0 }, {}, by and_intros <;> decide +kernel⟩

set_option maxRecDepth 1000000 in
/-- AccessesReadAndWriteByAddress, clause 25: a state and operands that meet the hypotheses. -/
theorem test_AccessesReadAndWriteByAddress_25 : ∃ (s : State) (ini : Initiator) (req : BusReq) (beats back : Beats), crosses ini req.addr = true ∧ s.coreTraps ini req = false ∧ s.bridgeWaits ini req = true :=
  ⟨{ State.reset.setAll [(BRG_STS.STATE, 4)] with pwr := { toppwrEn := true, toppwrGood := true, topRst := false } }, .core 1, { write := true, addr := 0x20060000, size := 4, data := 9, uncorr := false, corr := 0 }, { corrected := 0, rejected := 0 }, {}, by and_intros <;> decide +kernel⟩

set_option maxRecDepth 1000000 in
/-- AccessesReadAndWriteByAddress, clause 26: a state and operands that meet the hypotheses. -/
theorem test_AccessesReadAndWriteByAddress_26 : ∃ (s : State) (ini : Initiator) (req : BusReq) (beats back : Beats), crosses ini req.addr = false ∧ s.coreTraps ini req = false ∧ s.judge ini req.write req.addr = .allowed ∧ req.write = true ∧ req.amo = some .add ∧ regionOf req.addr = .topSram ∧ req.size = 4 ∧ req.addr % 4 = 0 ∧ s.textLocked req.addr = false :=
  ⟨{ State.reset.setAll [] with pwr := { toppwrEn := true, toppwrGood := true, topRst := false }, mem := [(0x100000008, 7)] }, .core 0, { write := true, addr := 0x100000008, size := 4, data := 0xFFFFFFFF, uncorr := false, corr := 0, amo := some .add }, { corrected := 0, rejected := 0 }, {}, by and_intros <;> decide +kernel⟩

set_option maxRecDepth 1000000 in
/-- AccessesReadAndWriteByAddress, clause 27: a state and operands that meet the hypotheses. -/
theorem test_AccessesReadAndWriteByAddress_27 : ∃ (s : State) (ini : Initiator) (req : BusReq) (beats back : Beats), crosses ini req.addr = false ∧ s.coreTraps ini req = false ∧ s.judge ini req.write req.addr = .allowed ∧ req.amo.isSome = true ∧ (regionOf req.addr).onBase = true :=
  ⟨State.reset, .keeper 0, { write := true, addr := 0x10100000, size := 4, data := 1, uncorr := false, corr := 0, amo := some .swap }, { corrected := 0, rejected := 0 }, {}, by and_intros <;> decide +kernel⟩

set_option maxRecDepth 1000000 in
/-- AccessesReadAndWriteByAddress, clause 28: a state and operands that meet the hypotheses. -/
theorem test_AccessesReadAndWriteByAddress_28 : ∃ (s : State) (ini : Initiator) (req : BusReq) (beats back : Beats) (h : Nat), pmpHart ini = some h ∧ req.size ≠ 0 ∧ (((regionOf req.addr).isRegs = false ∧ req.addr % req.size ≠ 0) ∨ pmpDenies (s.fw.pmp.getD h []) req.addr req.size req.write = true) :=
  ⟨{ State.reset with fw := { pmp := List.replicate 4 [] ++ [[{ cfg := 0, addr := 0x4040000 }, { cfg := 0x8D, addr := 0x4044000 }]] } }, .keeper 0, { write := true, addr := 0x10100010, size := 4, data := 1, uncorr := false, corr := 0 }, { corrected := 0, rejected := 0 }, {}, 4, by and_intros <;> decide +kernel⟩

set_option maxRecDepth 1000000 in
/-- AccessesReadAndWriteByAddress, clause 29: a state and operands that meet the hypotheses. -/
theorem test_AccessesReadAndWriteByAddress_29 : ∃ (s : State) (ini : Initiator) (req : BusReq) (beats back : Beats), crosses ini req.addr = true ∧ s.vcFree vcCtrl (b2n (!iniOnTop ini)) = true ∧ s.ctrlWaits (ctrlDir ini) = false ∧ (s.vcFree vcCtrl (1 - ctrlDir ini) && !s.ctrlWaits (1 - ctrlDir ini)) = false ∧ beats.rejected ≤ s.get BRG_CTL.REPLAY_MAX + 1 ∧ back.rejected ≤ s.get BRG_CTL.REPLAY_MAX + 1 ∧ s.coreTraps ini req = false ∧ s.judge ini false req.addr = .allowed ∧ req.write = false ∧ req.amo = none ∧ (regionOf req.addr).isRegs = false ∧ 1 ≤ req.size ∧ req.size ≤ 8 ∧ s.judge ini false (req.addr + req.size - 1) = .allowed ∧ regionOf (req.addr + req.size - 1) = regionOf req.addr ∧ (regionOf req.addr = .keeperMem ∨ regionOf req.addr = .retention ∨ regionOf req.addr = .logMirror ∨ regionOf req.addr = .topSram ∨ regionOf req.addr = .sigTable) :=
  ⟨{ State.reset.setAll [(BRG_STS.STATE, 2)] with brg := { guardQ := [.proposals [(3, 4)]] } }, .keeper 0, { write := false, addr := 0x100000000, size := 4, data := 0, uncorr := false, corr := 0 }, { corrected := 3, rejected := 1 }, { corrected := 2, rejected := 0 }, by and_intros <;> decide +kernel⟩

set_option maxRecDepth 1000000 in
/-- AccessesReadAndWriteByAddress, clause 30: a state and operands that meet the hypotheses. -/
theorem test_AccessesReadAndWriteByAddress_30 : ∃ (s : State) (ini : Initiator) (req : BusReq) (beats back : Beats) (d : Nat), crosses ini req.addr = true ∧ s.vcFree vcCtrl (b2n (!iniOnTop ini)) = true ∧ s.ctrlWaits (ctrlDir ini) = false ∧ beats.rejected ≤ s.get BRG_CTL.REPLAY_MAX + 1 ∧ s.coreTraps ini req = false ∧ s.judge ini req.write req.addr = .allowed ∧ req.amo = none ∧ (regionOf req.addr).isRegs = false ∧ 1 ≤ req.size ∧ req.size ≤ 8 ∧ s.judge ini req.write (req.addr + req.size - 1) = .allowed ∧ regionOf (req.addr + req.size - 1) = regionOf req.addr ∧ gateDomain (regionOf req.addr) req.addr = some d ∧ s.gated d = false ∧ bitOf (s.get CLK_GATE_REQ.REQ) d = true :=
  ⟨State.reset.setAll [(CLK_GATE_REQ.REQ, 1), (BRG_STS.STATE, 2)], .keeper 0, { write := false, addr := 0x210000000, size := 4, data := 0, uncorr := false, corr := 0 }, { corrected := 3, rejected := 1 }, { corrected := 2, rejected := 0 }, 0, by and_intros <;> decide +kernel⟩

set_option maxRecDepth 1000000 in
/-- AccessesReadAndWriteByAddress, clause 31: a state and operands that meet the hypotheses. -/
theorem test_AccessesReadAndWriteByAddress_31 : ∃ (s : State) (ini : Initiator) (req : BusReq), s.coreTraps ini req = false ∧ s.judge ini req.write req.addr = .forbidden ∧ (iniOnTop ini && (regionOf req.addr).onBase) = false :=
  ⟨State.reset, .debug, { write := false, addr := 0x20010000, size := 4, data := 0, uncorr := false, corr := 0 }, by and_intros <;> decide +kernel⟩

set_option maxRecDepth 1000000 in
/-- AccessesReadAndWriteByAddress, clause 32: a state and operands that meet the hypotheses. -/
theorem test_AccessesReadAndWriteByAddress_32 : ∃ (s : State) (ini : Initiator) (req : BusReq), s.coreTraps ini req = false ∧ s.judge ini req.write req.addr = .forbidden ∧ (iniOnTop ini && (regionOf req.addr).onBase) = true :=
  ⟨{ State.reset with pwr := { toppwrEn := true, toppwrGood := true, topRst := false } }, .core 2, { write := false, addr := 0x10100000, size := 4, data := 0, uncorr := false, corr := 0 }, by and_intros <;> decide +kernel⟩

set_option maxRecDepth 1000000 in
/-- AccessesReadAndWriteByAddress, clause 33: a state and operands that meet the hypotheses. -/
theorem test_AccessesReadAndWriteByAddress_33 : ∃ (s : State) (ini : Initiator) (req : BusReq), (s.judge ini req.write req.addr ≠ .forbidden ∨ s.coreTraps ini req = true) :=
  ⟨State.reset, .keeper 0, { write := false, addr := 0x20010000, size := 4, data := 0, uncorr := false, corr := 0 }, by decide +kernel⟩

set_option maxRecDepth 1000000 in
/-- CtrlRequestsTimeOut, clause 1: a state and operands that meet the hypotheses. -/
theorem test_CtrlRequestsTimeOut_1 : ∃ (s : State) (ini : Initiator) (req : BusReq) (applied : Bool), crosses ini req.addr = true ∧ s.coreTraps ini req = false ∧ s.judge ini req.write req.addr = .allowed ∧ (req.write && applied) = false :=
  ⟨State.reset.setAll [(BRG_STS.STATE, 2)], .keeper 0, { write := false, addr := 0x100000000, size := 4, data := 0, uncorr := false, corr := 0 }, true, by and_intros <;> decide +kernel⟩

set_option maxRecDepth 1000000 in
/-- CtrlRequestsTimeOut, clause 2: a state and operands that meet the hypotheses. -/
theorem test_CtrlRequestsTimeOut_2 : ∃ (s : State) (ini : Initiator) (req : BusReq) (applied : Bool), crosses ini req.addr = true ∧ s.coreTraps ini req = false ∧ (s.bridgeWaits ini req = true ∨ s.judge ini req.write req.addr = .allowed) ∧ (∃ e ∈ s.brg.ctrlQ, e.1 = ini ∧ e.2.1 = req) :=
  ⟨({ State.reset with pwr := { toppwrEn := true, toppwrGood := true, topRst := false }, brg := { ctrlQ := [(.core 1, { write := true, addr := 0x20060000, size := 4, data := 9, uncorr := false, corr := 0 }, {}, {})] } } : State).set BRG_STS.STATE 4, .core 1, { write := true, addr := 0x20060000, size := 4, data := 9, uncorr := false, corr := 0 }, true, by and_intros <;> decide +kernel⟩

set_option maxRecDepth 1000000 in
/-- CtrlRequestsTimeOut, clause 3: a state and operands that meet the hypotheses. -/
theorem test_CtrlRequestsTimeOut_3 : ∃ (s : State) (ini : Initiator) (req : BusReq) (applied : Bool), crosses ini req.addr = true ∧ s.coreTraps ini req = false ∧ s.judge ini req.write req.addr = .allowed ∧ (∀ e ∈ s.brg.ctrlQ, ¬(e.1 = ini ∧ e.2.1 = req)) ∧ (∃ e ∈ s.brg.backQ, e.1 = ini ∧ e.2.1 = req) :=
  ⟨({ State.reset with brg := { backQ := [(.keeper 0, { write := true, addr := 0x100000000, size := 4, data := 9, uncorr := false, corr := 0 }, {}, .written)] } } : State).set BRG_STS.STATE 2, .keeper 0, { write := true, addr := 0x100000000, size := 4, data := 9, uncorr := false, corr := 0 }, true, by and_intros <;> decide +kernel⟩

set_option maxRecDepth 1000000 in
/-- CtrlRequestsTimeOut, clause 4: a state and operands that meet the hypotheses. -/
theorem test_CtrlRequestsTimeOut_4 : ∃ (s : State) (ini : Initiator) (req : BusReq) (applied : Bool), crosses ini req.addr = true ∧ s.coreTraps ini req = false ∧ (∀ e ∈ s.brg.ctrlQ, ¬(e.1 = ini ∧ e.2.1 = req)) ∧ (∀ e ∈ s.brg.backQ, ¬(e.1 = ini ∧ e.2.1 = req)) ∧ applied = true ∧ s.judge ini true req.addr = .allowed ∧ req.write = true :=
  ⟨State.reset.setAll [(BRG_STS.STATE, 2)], .keeper 0, { write := true, addr := 0x140000044, size := 4, data := 0x5A, uncorr := false, corr := 0 }, true, by and_intros <;> decide +kernel⟩

set_option maxRecDepth 1000000 in
/-- CtrlRequestsTimeOut, clause 5: a state and operands that meet the hypotheses. -/
theorem test_CtrlRequestsTimeOut_5 : ∃ (s : State) (ini : Initiator) (req : BusReq) (applied : Bool), crosses ini req.addr = true ∧ (∀ e ∈ s.brg.ctrlQ, ¬(e.1 = ini ∧ e.2.1 = req)) ∧ (∀ e ∈ s.brg.backQ, ¬(e.1 = ini ∧ e.2.1 = req)) ∧ applied = true ∧ s.coreTraps ini req = false ∧ s.judge ini true req.addr = .allowed ∧ req.write = true ∧ req.amo = none ∧ (regionOf req.addr).isRegs = false ∧ 1 ≤ req.size ∧ req.size ≤ 8 ∧ s.judge ini true (req.addr + req.size - 1) = .allowed ∧ regionOf (req.addr + req.size - 1) = regionOf req.addr ∧ ((regionOf req.addr = .keeperMem ∨ regionOf req.addr = .retention ∨ regionOf req.addr = .logMirror) ∨ (regionOf req.addr = .topSram ∧ s.textLocked req.addr = false ∧ s.textLocked (req.addr + req.size - 1) = false)) :=
  ⟨State.reset.setAll [(BRG_STS.STATE, 2)], .keeper 0, { write := true, addr := 0x100000000, size := 4, data := 77, uncorr := false, corr := 0 }, true, by and_intros <;> decide +kernel⟩

set_option maxRecDepth 1000000 in
/-- CtrlRequestsTimeOut, clause 6: a state and operands that meet the hypotheses. -/
theorem test_CtrlRequestsTimeOut_6 : ∃ (s : State) (ini : Initiator) (req : BusReq) (applied : Bool), (crosses ini req.addr = false ∨ (s.judge ini req.write req.addr ≠ .allowed ∧ s.bridgeWaits ini req = false) ∨ s.coreTraps ini req = true) :=
  ⟨State.reset, .keeper 0, { write := true, addr := 0x20010000, size := 4, data := 0, uncorr := false, corr := 0 }, true, by decide +kernel⟩

set_option maxRecDepth 1000000 in
/-- InterruptControllersAndTimers, clause 1: a state and operands that meet the hypotheses. -/
theorem test_InterruptControllersAndTimers_1 : ∃ (s : State) (ini : Initiator) (kpr : Bool) (w : Nat) (beats back : Beats) (req : BusReq) (k : Nat), req = { write := true, addr := (if kpr then 0x00200A8000 else 0x0140010000) + 4 * k, size := 4, data := w, uncorr := false, corr := 0 } ∧ crosses ini req.addr = false ∧ s.coreTraps ini req = false ∧ s.judge ini true req.addr = .allowed ∧ w < 2 ^ 32 ∧ 0 < k ∧ k < 64 ∧ (s.plicOf kpr).prio.length = 64 :=
  ⟨{ State.reset with pwr := { toppwrEn := true, toppwrGood := true, topRst := false } }, .core 0, false, 5, {}, {}, { write := true, addr := (if false then 0x00200A8000 else 0x0140010000) + 4 * 7, size := 4, data := 5, uncorr := false, corr := 0 }, 7, by and_intros <;> decide +kernel⟩

set_option maxRecDepth 1000000 in
/-- InterruptControllersAndTimers, clause 2: a state and operands that meet the hypotheses. -/
theorem test_InterruptControllersAndTimers_2 : ∃ (s : State) (ini : Initiator) (kpr : Bool) (w : Nat) (beats back : Beats) (req : BusReq), req = { write := true, addr := (if kpr then 0x00200A8000 else 0x0140010000), size := 4, data := w, uncorr := false, corr := 0 } ∧ crosses ini req.addr = false ∧ s.coreTraps ini req = false ∧ s.judge ini true req.addr = .allowed ∧ w < 2 ^ 32 :=
  ⟨{ State.reset with pwr := { toppwrEn := true, toppwrGood := true, topRst := false } }, .core 0, false, 5, {}, {}, { write := true, addr := (if false then 0x00200A8000 else 0x0140010000), size := 4, data := 5, uncorr := false, corr := 0 }, by and_intros <;> decide +kernel⟩

set_option maxRecDepth 1000000 in
/-- InterruptControllersAndTimers, clause 3: a state and operands that meet the hypotheses. -/
theorem test_InterruptControllersAndTimers_3 : ∃ (s : State) (ini : Initiator) (kpr : Bool) (w : Nat) (beats back : Beats) (req : BusReq) (ctx i : Nat), req = { write := true, addr := (if kpr then 0x00200A8000 else 0x0140010000) + 0x2000 + 0x80 * ctx + 4 * i, size := 4, data := w, uncorr := false, corr := 0 } ∧ crosses ini req.addr = false ∧ s.coreTraps ini req = false ∧ s.judge ini true req.addr = .allowed ∧ w < 2 ^ 32 ∧ ctx < (if kpr then 2 else 4) ∧ i < 2 ∧ (s.plicOf kpr).en.length = 4 :=
  ⟨{ State.reset with pwr := { toppwrEn := true, toppwrGood := true, topRst := false } }, .keeper 0, true, 0xFF00FF01, {}, {}, { write := true, addr := (if true then 0x00200A8000 else 0x0140010000) + 0x2000 + 0x80 * 1 + 4 * 1, size := 4, data := 0xFF00FF01, uncorr := false, corr := 0 }, 1, 1, by and_intros <;> decide +kernel⟩

set_option maxRecDepth 1000000 in
/-- InterruptControllersAndTimers, clause 4: a state and operands that meet the hypotheses. -/
theorem test_InterruptControllersAndTimers_4 : ∃ (s : State) (ini : Initiator) (kpr : Bool) (w : Nat) (beats back : Beats) (req : BusReq) (ctx : Nat), req = { write := true, addr := (if kpr then 0x00200A8000 else 0x0140010000) + 0x3000 + 8 * ctx, size := 4, data := w, uncorr := false, corr := 0 } ∧ crosses ini req.addr = false ∧ s.coreTraps ini req = false ∧ s.judge ini true req.addr = .allowed ∧ w < 2 ^ 32 ∧ ctx < (if kpr then 2 else 4) ∧ (s.plicOf kpr).thr.length = 4 :=
  ⟨{ State.reset with pwr := { toppwrEn := true, toppwrGood := true, topRst := false } }, .core 0, false, 11, {}, {}, { write := true, addr := (if false then 0x00200A8000 else 0x0140010000) + 0x3000 + 8 * 3, size := 4, data := 11, uncorr := false, corr := 0 }, 3, by and_intros <;> decide +kernel⟩

set_option maxRecDepth 1000000 in
/-- InterruptControllersAndTimers, clause 5: a state and operands that meet the hypotheses. -/
theorem test_InterruptControllersAndTimers_5 : ∃ (s : State) (ini : Initiator) (kpr : Bool) (w : Nat) (beats back : Beats) (req : BusReq) (ctx : Nat), req = { write := true, addr := (if kpr then 0x00200A8000 else 0x0140010000) + 0x3004 + 8 * ctx, size := 4, data := w, uncorr := false, corr := 0 } ∧ crosses ini req.addr = false ∧ s.coreTraps ini req = false ∧ s.judge ini true req.addr = .allowed ∧ w < 2 ^ 32 ∧ ctx < (if kpr then 2 else 4) ∧ bitOf ((s.plicOf kpr).en.getD ctx 0) w = true :=
  ⟨{ State.reset with pwr := { toppwrEn := true, toppwrGood := true, topRst := false }, fw := { plic := { en := [0, 32, 0, 0], claims := [(5, 0), (3, 1)] } } }, .core 0, false, 5, {}, {}, { write := true, addr := (if false then 0x00200A8000 else 0x0140010000) + 0x3004 + 8 * 1, size := 4, data := 5, uncorr := false, corr := 0 }, 1, by and_intros <;> decide +kernel⟩

set_option maxRecDepth 1000000 in
/-- InterruptControllersAndTimers, clause 6: a state and operands that meet the hypotheses. -/
theorem test_InterruptControllersAndTimers_6 : ∃ (s : State) (ini : Initiator) (kpr : Bool) (w : Nat) (beats back : Beats) (req : BusReq) (ctx : Nat), req = { write := true, addr := (if kpr then 0x00200A8000 else 0x0140010000) + 0x3004 + 8 * ctx, size := 4, data := w, uncorr := false, corr := 0 } ∧ crosses ini req.addr = false ∧ s.coreTraps ini req = false ∧ s.judge ini true req.addr = .allowed ∧ w < 2 ^ 32 ∧ ctx < (if kpr then 2 else 4) ∧ bitOf ((s.plicOf kpr).en.getD ctx 0) w = false :=
  ⟨{ State.reset with pwr := { toppwrEn := true, toppwrGood := true, topRst := false }, fw := { plic := { en := [0, 16, 0, 0], claims := [(5, 0), (3, 1)] } } }, .core 0, false, 5, {}, {}, { write := true, addr := (if false then 0x00200A8000 else 0x0140010000) + 0x3004 + 8 * 1, size := 4, data := 5, uncorr := false, corr := 0 }, 1, by and_intros <;> decide +kernel⟩

set_option maxRecDepth 1000000 in
/-- InterruptControllersAndTimers, clause 7: a state and operands that meet the hypotheses. -/
theorem test_InterruptControllersAndTimers_7 : ∃ (s : State) (ini : Initiator) (kpr : Bool) (w : Nat) (beats back : Beats) (req : BusReq) (ctx : Nat), req = { write := false, addr := (if kpr then 0x00200A8000 else 0x0140010000) + 0x3004 + 8 * ctx, size := 4, data := 0, uncorr := false, corr := 0 } ∧ crosses ini req.addr = false ∧ s.coreTraps ini req = false ∧ s.judge ini false req.addr = .allowed ∧ w < 2 ^ 32 ∧ ctx < (if kpr then 2 else 4) ∧ ((∀ k < 64, (k ≠ 0 ∧ bitOf (s.raised kpr) k = true ∧ bitOf ((s.plicOf kpr).en.getD ctx 0) k = true ∧ (∀ e ∈ (s.plicOf kpr).claims, e.1 ≠ k) → (s.plicOf kpr).prio.getD k 0 ≤ (s.plicOf kpr).prio.getD 0 0))) ∧ (s.plicOf kpr).prio.getD 0 0 = 0 :=
  ⟨{ State.reset with pwr := { toppwrEn := true, toppwrGood := true, topRst := false } }, .core 0, false, 0, {}, {}, { write := false, addr := (if false then 0x00200A8000 else 0x0140010000) + 0x3004 + 8 * 1, size := 4, data := 0, uncorr := false, corr := 0 }, 1, by and_intros <;> decide +kernel⟩

set_option maxRecDepth 1000000 in
/-- InterruptControllersAndTimers, clause 8: a state and operands that meet the hypotheses. -/
theorem test_InterruptControllersAndTimers_8 : ∃ (s : State) (ini : Initiator) (kpr : Bool) (w : Nat) (beats back : Beats) (req : BusReq) (ctx v : Nat), req = { write := false, addr := (if kpr then 0x00200A8000 else 0x0140010000) + 0x3004 + 8 * ctx, size := 4, data := 0, uncorr := false, corr := 0 } ∧ crosses ini req.addr = false ∧ s.coreTraps ini req = false ∧ s.judge ini false req.addr = .allowed ∧ w < 2 ^ 32 ∧ ctx < (if kpr then 2 else 4) ∧ v ≠ 0 ∧ v < 64 ∧ bitOf (s.raised kpr) v = true ∧ bitOf ((s.plicOf kpr).en.getD ctx 0) v = true ∧ (∀ e ∈ (s.plicOf kpr).claims, e.1 ≠ v) ∧ (s.plicOf kpr).prio.getD 0 0 < (s.plicOf kpr).prio.getD v 0 ∧ ((∀ k < 64, (k ≠ 0 ∧ k ≠ v ∧ bitOf (s.raised kpr) k = true ∧ bitOf ((s.plicOf kpr).en.getD ctx 0) k = true ∧ (∀ e ∈ (s.plicOf kpr).claims, e.1 ≠ k) → (s.plicOf kpr).prio.getD k 0 < (s.plicOf kpr).prio.getD v 0 ∨ ((s.plicOf kpr).prio.getD k 0 = (s.plicOf kpr).prio.getD v 0 ∧ v < k)))) :=
  ⟨{ State.reset with pwr := { toppwrEn := true, toppwrGood := true, topRst := false }, fw := { irq := 2 ^ 17 + 2 ^ 16, plic := { en := [0, 0x30000, 0, 0], prio := List.replicate 16 0 ++ [3, 4] ++ List.replicate 46 0 } } }, .core 0, false, 0, {}, {}, { write := false, addr := (if false then 0x00200A8000 else 0x0140010000) + 0x3004 + 8 * 1, size := 4, data := 0, uncorr := false, corr := 0 }, 1, 17, by and_intros <;> decide +kernel⟩

set_option maxRecDepth 1000000 in
/-- InterruptControllersAndTimers, clause 9: a state and operands that meet the hypotheses. -/
theorem test_InterruptControllersAndTimers_9 : ∃ (s : State) (ini : Initiator) (kpr : Bool) (w : Nat) (beats back : Beats) (req : BusReq) (i : Nat), req = { write := false, addr := (if kpr then 0x00200A8000 else 0x0140010000) + 0x1000 + 4 * i, size := 4, data := 0, uncorr := false, corr := 0 } ∧ crosses ini req.addr = false ∧ s.coreTraps ini req = false ∧ s.judge ini false req.addr = .allowed ∧ w < 2 ^ 32 ∧ i < 2 :=
  ⟨{ State.reset with pwr := { toppwrEn := true, toppwrGood := true, topRst := false }, fw := { irq := 2 ^ 17, plic := { claims := [(5, 0)] } } }, .core 0, false, 0, {}, {}, { write := false, addr := (if false then 0x00200A8000 else 0x0140010000) + 0x1000 + 4 * 0, size := 4, data := 0, uncorr := false, corr := 0 }, 0, by and_intros <;> decide +kernel⟩

set_option maxRecDepth 1000000 in
/-- InterruptControllersAndTimers, clause 10: a state and operands that meet the hypotheses. -/
theorem test_InterruptControllersAndTimers_10 : ∃ (s : State) (ini : Initiator) (kpr : Bool) (w : Nat) (beats back : Beats) (req : BusReq) (c h : Nat), req = { write := true, addr := (if kpr then 0x00200AC008 else 0x0140020008) + 8 * c + 4 * h, size := 4, data := w, uncorr := false, corr := 0 } ∧ crosses ini req.addr = false ∧ s.coreTraps ini req = false ∧ s.judge ini true req.addr = .allowed ∧ w < 2 ^ 32 ∧ c < (if kpr then 2 else 4) ∧ h < 2 ∧ s.fw.mtimecmp.length = 6 :=
  ⟨{ State.reset with pwr := { toppwrEn := true, toppwrGood := true, topRst := false } }, .core 0, false, 9, {}, {}, { write := true, addr := (if false then 0x00200AC008 else 0x0140020008) + 8 * 3 + 4 * 1, size := 4, data := 9, uncorr := false, corr := 0 }, 3, 1, by and_intros <;> decide +kernel⟩

set_option maxRecDepth 1000000 in
/-- InterruptControllersAndTimers, clause 11: a state and operands that meet the hypotheses. -/
theorem test_InterruptControllersAndTimers_11 : ∃ (s : State) (ini : Initiator) (kpr : Bool) (w : Nat) (beats back : Beats) (req : BusReq) (h : Nat), req = { write := false, addr := (if kpr then 0x00200AC000 else 0x0140020000) + 4 * h, size := 4, data := 0, uncorr := false, corr := 0 } ∧ crosses ini req.addr = false ∧ s.coreTraps ini req = false ∧ s.judge ini false req.addr = .allowed ∧ w < 2 ^ 32 ∧ h < 2 :=
  ⟨{ State.reset with pwr := { toppwrEn := true, toppwrGood := true, topRst := false } }, .core 0, false, 0, {}, {}, { write := false, addr := (if false then 0x00200AC000 else 0x0140020000) + 4 * 1, size := 4, data := 0, uncorr := false, corr := 0 }, 1, by and_intros <;> decide +kernel⟩

set_option maxRecDepth 1000000 in
/-- InterruptControllersAndTimers, clause 12: a state and operands that meet the hypotheses. -/
theorem test_InterruptControllersAndTimers_12 : ∃ (s : State) (ini : Initiator) (kpr : Bool) (w : Nat) (beats back : Beats) (req : BusReq) (h : Nat), req = { write := true, addr := (if kpr then 0x00200AC000 else 0x0140020000) + 4 * h, size := 4, data := w, uncorr := false, corr := 0 } ∧ crosses ini req.addr = false ∧ s.coreTraps ini req = false ∧ s.judge ini true req.addr = .allowed ∧ w < 2 ^ 32 ∧ h < 2 :=
  ⟨{ State.reset with pwr := { toppwrEn := true, toppwrGood := true, topRst := false } }, .core 0, false, 9, {}, {}, { write := true, addr := (if false then 0x00200AC000 else 0x0140020000) + 4 * 1, size := 4, data := 9, uncorr := false, corr := 0 }, 1, by and_intros <;> decide +kernel⟩
end

section
/-! PROOFS. Which register fields a command changes: RegsOnly as a rule that composes, and what the shared register operations leave. -/

namespace Sys2Proof.Machine

variable {s t u : State} {fs gs : List Fld}

/-! ### RegsOnly composes -/

theorem RegsOnly.of_regs (h : t.regs = s.regs) : RegsOnly [] s t := fun f _ => State.get_of_regs h f

theorem RegsOnly.trans (h : RegsOnly fs s t) (k : RegsOnly gs t u) : RegsOnly (fs ++ gs) s u := fun f hf =>
  (k f (fun g hg => hf g (List.mem_append_right fs hg))).trans (h f (fun g hg => hf g (List.mem_append_left gs hg)))

theorem RegsOnly.mono (h : RegsOnly fs s t) (hs : fs ⊆ gs) : RegsOnly gs s t := fun f hf => h f (fun g hg => hf g (hs hg))

theorem RegsOnly.on (h : RegsOnly fs s t) (f : Fld) (hf : ∀ g ∈ fs, f.key ≠ g.key) : t.on f = s.on f := by
  unfold State.on
  rw [h f hf]

theorem RegsOnly.ite {c : Prop} [Decidable c] (h : RegsOnly fs s t) (k : RegsOnly fs s u) : RegsOnly fs s (if c then t else u) := by
  split <;> assumption

theorem RegsOnly.foldl {α : Type} (F : α → List Fld) {f : State → α → State} (hf : ∀ u e, RegsOnly (F e) u (f u e)) (l : List α) (s : State) :
    RegsOnly (l.flatMap F) s (l.foldl f s) := by
  induction l generalizing s with
  | nil => exact .of_regs rfl
  | cons e l ih => exact (hf s e).trans (ih (f s e))

/-! ### The shared register operations -/

theorem State.set_regsOnly (s : State) (f : Fld) (v : Nat) : RegsOnly [f] s (s.set f v) := fun _ hg =>
  State.get_set_ne (hg f (List.mem_singleton_self f)) s v

theorem State.setAll_regsOnly (s : State) (l : List (Fld × Nat)) : RegsOnly (l.map (·.1)) s (s.setAll l) := fun _ hg =>
  State.get_setAll_ne l (fun e he => hg e.1 (List.mem_map_of_mem he)) s

theorem State.setIf_regsOnly (s : State) (c : Bool) (f : Fld) (v : Nat) : RegsOnly [f] s (s.setIf c f v) :=
  .ite (s.set_regsOnly f v) ((RegsOnly.of_regs rfl).mono (List.nil_subset _))

theorem State.bump_regsOnly (s : State) (f : Fld) (k : Nat) : RegsOnly [f] s (s.bump f k) := s.set_regsOnly f _

theorem State.set64_regsOnly (s : State) (lo hi : Fld) (v : Nat) : RegsOnly [lo, hi] s (s.set64 lo hi v) :=
  (s.set_regsOnly lo v).trans (State.set_regsOnly _ hi _)

/-- A one-bit field reads as it was set. -/
theorem State.on_set (s : State) (f : Fld) (hw : f.w = 1) (b : Bool) : (s.set f (b2n b)).on f = b := by
  unfold State.on
  rw [State.get_set_self, hw]
  cases b <;> rfl

/-- A 64-bit value reads as it was set. -/
theorem State.get64_set64 {lo hi : Fld} (hl : lo.w = 32) (hh : hi.w = 32) (hk : lo.key ≠ hi.key) {v : Nat} (hv : v < 2 ^ 64) (s : State) :
    (s.set64 lo hi v).get64 lo hi = v := by
  unfold State.set64 State.get64
  rw [State.get_set_ne hk, State.get_set_self, State.get_set_self, hl, hh]
  omega

theorem State.now_of_time (h : t.time = s.time) : t.now = s.now := by
  unfold State.now
  rw [h]

theorem State.now_lt (s : State) : s.now < 2 ^ 64 := Nat.mod_lt _ (by decide)

theorem State.bridgeUp_of_regsOnly (h : RegsOnly fs s t) (hf : ∀ g ∈ fs, BRG_STS.STATE.key ≠ g.key) : t.bridgeUp = s.bridgeUp := by
  unfold State.bridgeUp
  rw [h _ hf]

end Sys2Proof.Machine
end

section
/-! PROOFS. The BASE source (R69 to R83): what a switch and a CLKFAIL show in the registers, and what they leave. -/

namespace Sys2Proof.Machine

/-! ### A switch of BASE -/

/-- The register fields of a NET port that a switch of BASE may change (R70, R338). -/
def netFollowFields (n : Nat) : List Fld := [NET_LINK.DOWN n, NET_STS.FEC_LOCK n, NET_STS.PMD_ACT n, NET_STS.STATE n]

/-- What a switch to a source shows of it (R69, R78). -/
def baseShows (src : Nat) : List (Fld × Nat) :=
  [(CLK_STS.BASE_SRC, src), (CLK_STS.FB, b2n (src != srcHost)), (TAMP_STS.SAFE, b2n (src == srcLfo)),
    (SEQ_STS.HOLD, b2n (src == srcLfo)), (COOL_STS.F_SAFE, b2n (src == srcLfo))]

/-- The register fields that a switch of BASE may change. -/
def baseFields : List Fld :=
  [CLK_FMC_STS.DISTURB] ++ (netFollowFields 0 ++ netFollowFields 1) ++
    [CLK_STS.BASE_SRC, CLK_STS.FB, TAMP_STS.SAFE, SEQ_STS.HOLD, COOL_STS.F_SAFE]

theorem State.fmcDisturb_regsOnly (s : State) (hit : Nat → Bool) : RegsOnly [CLK_FMC_STS.DISTURB] s (s.fmcDisturb hit) :=
  s.setIf_regsOnly _ _ _

theorem State.netBegin_regsOnly (s : State) (n : Nat) : RegsOnly (netFollowFields n) s (s.netBegin n) :=
  (s.set_regsOnly _ _).mono (by simp [netFollowFields])

theorem State.netTo_regsOnly (s : State) (n st : Nat) : RegsOnly (netFollowFields n) s (s.netTo n st) := by
  have hdown : RegsOnly [NET_LINK.DOWN n, NET_STS.FEC_LOCK n, NET_STS.PMD_ACT n] s
      (if s.get (NET_STS.STATE n) = netUp then (s.bump (NET_LINK.DOWN n)).setAll [(NET_STS.FEC_LOCK n, 0), (NET_STS.PMD_ACT n, 0)] else s) :=
    .ite ((s.bump_regsOnly _ 1).trans (State.setAll_regsOnly _ [(NET_STS.FEC_LOCK n, 0), (NET_STS.PMD_ACT n, 0)]))
      ((RegsOnly.of_regs rfl).mono (List.nil_subset _))
  exact hdown.trans (State.set_regsOnly _ _ _)

theorem State.netFollow_regsOnly (s : State) (host : Bool) : RegsOnly (netFollowFields 0 ++ netFollowFields 1) s (s.netFollow host) := by
  have stay (u : State) (n : Nat) : RegsOnly (netFollowFields n) u u := (RegsOnly.of_regs rfl).mono (List.nil_subset _)
  refine RegsOnly.foldl netFollowFields (fun u n => ?_) [0, 1] s
  exact .ite (stay u n) (.ite (.ite (u.netBegin_regsOnly n) (stay u n)) (u.netTo_regsOnly n netRef))

/-- A state whose gap is added and whose measurement and NET ports have met the switch to a source. -/
def State.baseLeft (s : State) (src : Nat) : State :=
  (s.gapAdd.fmcDisturb (fun c => fmcOnBase c && s.baseSrc != src)).netFollow (src == srcHost)

/-- A switch of BASE shows the source, and holds or releases the sequencer where safe mode begins or ends (R78). -/
theorem State.baseTo_eq (s : State) (src : Nat) :
    s.baseTo src =
      if ((s.baseLeft src).setAll (baseShows src)).safeMode && !(s.baseLeft src).safeMode then ((s.baseLeft src).setAll (baseShows src)).seqHold
      else if (s.baseLeft src).safeMode && !((s.baseLeft src).setAll (baseShows src)).safeMode then
        ((s.baseLeft src).setAll (baseShows src)).seqUnhold false
      else (s.baseLeft src).setAll (baseShows src) := rfl

theorem State.baseTo_get (s : State) (src : Nat) (f : Fld) : (s.baseTo src).get f = ((s.baseLeft src).setAll (baseShows src)).get f := by
  refine State.get_of_regs ?_ f
  rw [State.baseTo_eq]
  split
  · exact (State.seqHold_foot _).eq .regs rfl
  · split
    · exact (State.seqUnhold_foot _ _).eq .regs rfl
    · rfl

theorem State.baseLeft_regsOnly (s : State) (src : Nat) :
    RegsOnly ([CLK_FMC_STS.DISTURB] ++ (netFollowFields 0 ++ netFollowFields 1)) s (s.baseLeft src) :=
  have hgap : RegsOnly [] s s.gapAdd := .of_regs (s.gapAdd_foot.eq .regs rfl)
  hgap.trans ((State.fmcDisturb_regsOnly _ _).trans (State.netFollow_regsOnly _ _))

theorem State.baseTo_regsOnly (s : State) (src : Nat) : RegsOnly baseFields s (s.baseTo src) := fun f hf =>
  (s.baseTo_get src f).trans (((s.baseLeft_regsOnly src).trans (State.setAll_regsOnly _ (baseShows src))) f hf)

theorem State.baseTo_shows (s : State) (src : Nat) :
    (s.baseTo src).baseSrc = src % 4 ∧ (s.baseTo src).on CLK_STS.FB = (src != srcHost) ∧ (s.baseTo src).on TAMP_STS.SAFE = (src == srcLfo) ∧
      (s.baseTo src).on SEQ_STS.HOLD = (src == srcLfo) ∧ (s.baseTo src).on COOL_STS.F_SAFE = (src == srcLfo) := by
  have hbit (b : Bool) : (b2n b % 2 ^ 1 == 1) = b := by cases b <;> rfl
  unfold State.on State.baseSrc
  simp (disch := decide) only [State.baseTo_get, baseShows, State.setAll_cons, State.setAll_nil, State.get_set_ne, State.get_set_self]
  exact ⟨rfl, hbit _, hbit _, hbit _, hbit _⟩

/-- Between sources other than the LFO a switch leaves the sequencer, and Sillage but for the gap. -/
theorem State.baseTo_of_running (s : State) {src : Nat} (hs : s.baseSrc ≠ srcLfo) (ht : src = srcHost ∨ src = srcIosc) :
    s.baseTo src = (s.baseLeft src).setAll (baseShows src) := by
  have hwas : (s.baseLeft src).safeMode = false := by
    unfold State.safeMode
    rw [(s.baseLeft_regsOnly src) CLK_STS.BASE_SRC (by decide)]
    exact beq_false_of_ne hs
  have hnow : ((s.baseLeft src).setAll (baseShows src)).safeMode = false := by
    have hsrc := (s.baseTo_shows src).1
    unfold State.safeMode
    rw [← State.baseTo_get, ← State.baseSrc, hsrc]
    rcases ht with rfl | rfl <;> rfl
  rw [State.baseTo_eq, hwas, hnow]
  rfl

theorem State.baseTo_now (s : State) (src : Nat) (hg : s.time.gap = 0) : (s.baseTo src).now = s.now := by
  have htime : (s.baseTo src).time = s.gapAdd.time := by
    have hleft : (s.baseLeft src).time = s.gapAdd.time :=
      ((State.netFollow_foot _ _).eq .time rfl).trans ((State.fmcDisturb_foot _ _).eq .time rfl)
    have hset := (State.setAll_foot (s.baseLeft src) (baseShows src)).eq .time rfl
    rw [State.baseTo_eq]
    split
    · exact ((State.seqHold_foot _).eq .time rfl).trans (hset.trans hleft)
    · split
      · exact ((State.seqUnhold_foot _ _).eq .time rfl).trans (hset.trans hleft)
      · exact hset.trans hleft
  have hgap : s.gapAdd = { s with time := { s.time with stalled := false } } := by
    unfold State.gapAdd
    simp only [hg, if_true, Nat.add_zero]
  rw [State.now_of_time (htime.trans (congrArg State.time hgap))]
  rfl

/-! ### CLKFAIL (R77, R79) -/

/-- What a CLKFAIL shows of its record. -/
def clkfailShows (r : ClkRec) (fb : Bool) : List (Fld × Nat) :=
  [(CLK_STS.CLKFAIL, 1), (CLK_FAIL_INFO.CAUSE, r.cause), (CLK_FAIL_INFO.FAIL_FB, b2n fb), (CLK_FAIL_INFO.LAST_DEV, r.dev)]

/-- The registers' part of a CLKFAIL that is delivered at once. -/
def State.clkShown (s : State) (r : ClkRec) (fb : Bool) : State :=
  ((s.setAll (clkfailShows r fb)).bump CLK_FAIL_INFO.FAIL_CNT).set64 CLK_FAIL_TS_LO.TS_LO CLK_FAIL_TS_HI.TS_HI r.ts

/-- The register fields that every CLKFAIL changes; a late one sets FB_LATE as well. -/
def clkfailFields : List Fld :=
  [CLK_STS.CLKFAIL, CLK_FAIL_INFO.CAUSE, CLK_FAIL_INFO.FAIL_FB, CLK_FAIL_INFO.LAST_DEV, CLK_FAIL_INFO.FAIL_CNT,
    CLK_FAIL_TS_LO.TS_LO, CLK_FAIL_TS_HI.TS_HI]

theorem State.clkfail_get (s : State) (r : ClkRec) (fb late : Bool) (f : Fld) :
    (s.clkfail r fb late).get f = ((s.clkShown r fb).setIf late CLK_STS.FB_LATE 1).get f :=
  State.get_of_regs ((State.admitEvent_regs _ _).trans ((State.clkNmi_foot _).eq .regs rfl)) f

theorem State.clkShown_regsOnly (s : State) (r : ClkRec) (fb : Bool) : RegsOnly clkfailFields s (s.clkShown r fb) :=
  ((s.setAll_regsOnly (clkfailShows r fb)).trans (State.bump_regsOnly _ CLK_FAIL_INFO.FAIL_CNT 1)).trans
    (State.set64_regsOnly _ CLK_FAIL_TS_LO.TS_LO CLK_FAIL_TS_HI.TS_HI r.ts)

theorem State.clkfail_regsOnly (s : State) (r : ClkRec) (fb late : Bool) :
    RegsOnly (clkfailFields ++ [CLK_STS.FB_LATE]) s (s.clkfail r fb late) := fun f hf =>
  (s.clkfail_get r fb late f).trans (((s.clkShown_regsOnly r fb).trans (State.setIf_regsOnly _ late CLK_STS.FB_LATE 1)) f hf)

theorem State.clkfail_regsOnly_of_now (s : State) (r : ClkRec) (fb : Bool) : RegsOnly clkfailFields s (s.clkfail r fb false) := fun f hf =>
  (s.clkfail_get r fb false f).trans (s.clkShown_regsOnly r fb f hf)

/-- The fields that name the failure read as the record gives them. -/
theorem State.clkfail_get_shown (s : State) (r : ClkRec) (fb late : Bool) (f : Fld)
    (hf : ∀ g ∈ [CLK_FAIL_INFO.FAIL_CNT, CLK_FAIL_TS_LO.TS_LO, CLK_FAIL_TS_HI.TS_HI, CLK_STS.FB_LATE], f.key ≠ g.key) :
    (s.clkfail r fb late).get f = (s.setAll (clkfailShows r fb)).get f :=
  (s.clkfail_get r fb late f).trans
    ((((State.bump_regsOnly _ CLK_FAIL_INFO.FAIL_CNT 1).trans (State.set64_regsOnly _ CLK_FAIL_TS_LO.TS_LO CLK_FAIL_TS_HI.TS_HI r.ts)).trans
      (State.setIf_regsOnly _ late CLK_STS.FB_LATE 1)) f hf)

theorem State.clkfail_sets (s : State) (r : ClkRec) (fb late : Bool) : (s.clkfail r fb late).on CLK_STS.CLKFAIL = true := by
  unfold State.on
  rw [State.clkfail_get_shown _ _ _ _ _ (by decide)]
  simp (disch := decide) only [clkfailShows, State.setAll_cons, State.setAll_nil, State.get_set_ne, State.get_set_self]
  rfl

theorem State.clkfail_cause (s : State) (r : ClkRec) (fb late : Bool) : (s.clkfail r fb late).get CLK_FAIL_INFO.CAUSE = r.cause % 8 := by
  rw [State.clkfail_get_shown _ _ _ _ _ (by decide)]
  simp (disch := decide) only [clkfailShows, State.setAll_cons, State.setAll_nil, State.get_set_ne, State.get_set_self]
  rfl

theorem State.clkfail_dev (s : State) (r : ClkRec) (fb late : Bool) : (s.clkfail r fb late).get CLK_FAIL_INFO.LAST_DEV = r.dev % 2 ^ 16 := by
  rw [State.clkfail_get_shown _ _ _ _ _ (by decide)]
  simp (disch := decide) only [clkfailShows, State.setAll_cons, State.setAll_nil, State.get_set_self]
  rfl

theorem State.clkfail_ts (s : State) (r : ClkRec) (fb late : Bool) (hts : r.ts < 2 ^ 64) :
    (s.clkfail r fb late).get64 CLK_FAIL_TS_LO.TS_LO CLK_FAIL_TS_HI.TS_HI = r.ts := by
  have hlate (f : Fld) (hf : f.key ≠ CLK_STS.FB_LATE.key) : (s.clkfail r fb late).get f = (s.clkShown r fb).get f :=
    (s.clkfail_get r fb late f).trans (State.setIf_regsOnly _ late _ 1 f (by simpa using hf))
  calc (s.clkfail r fb late).get64 CLK_FAIL_TS_LO.TS_LO CLK_FAIL_TS_HI.TS_HI
      = (s.clkShown r fb).get64 CLK_FAIL_TS_LO.TS_LO CLK_FAIL_TS_HI.TS_HI := by
        unfold State.get64
        rw [hlate _ (by decide), hlate _ (by decide)]
    _ = r.ts := State.get64_set64 rfl rfl (by decide) hts _

theorem State.clkfail_late (s : State) (r : ClkRec) (fb : Bool) : (s.clkfail r fb true).on CLK_STS.FB_LATE = true := by
  unfold State.on
  rw [State.clkfail_get]
  exact State.on_set _ CLK_STS.FB_LATE rfl true

/-- The non-maskable interrupt of a CLKFAIL: the Keepers', and with the Bridge UP the Control cores' (R77). -/
theorem State.clkfail_nmi (s : State) (r : ClkRec) (fb late : Bool) :
    (s.clkfail r fb late).fw.nmi = s.fw.nmi ||| (if s.bridgeUp then 0x3F else 0x30) := by
  have hshown : ((s.clkShown r fb).setIf late CLK_STS.FB_LATE 1).bridgeUp = s.bridgeUp :=
    State.bridgeUp_of_regsOnly ((s.clkShown_regsOnly r fb).trans (State.setIf_regsOnly _ late CLK_STS.FB_LATE 1)) (by decide)
  have hfw : ((s.clkShown r fb).setIf late CLK_STS.FB_LATE 1).fw = s.fw :=
    ((State.setIf_foot _ _ _ _).eq .fw rfl).trans
      (((State.set64_foot _ _ _ _).eq .fw rfl).trans (((State.bump_foot _ _ _).eq .fw rfl).trans ((State.setAll_foot _ _).eq .fw rfl)))
  calc (s.clkfail r fb late).fw.nmi = ((s.clkShown r fb).setIf late CLK_STS.FB_LATE 1).clkNmi.fw.nmi :=
        congrArg FwSt.nmi (State.admitEvent_fw _ _)
    _ = ((s.clkShown r fb).setIf late CLK_STS.FB_LATE 1).fw.nmi |||
          (if ((s.clkShown r fb).setIf late CLK_STS.FB_LATE 1).bridgeUp then 0x3F else 0x30) := rfl
    _ = s.fw.nmi ||| (if s.bridgeUp then 0x3F else 0x30) := by rw [hshown, hfw]

theorem State.clkDeliver_none {s : State} (h : s.clk.pend = none) : s.clkDeliver = s := by
  unfold State.clkDeliver
  rw [h]

theorem State.clkDeliver_some {s : State} {r : ClkRec} (h : s.clk.pend = some r) :
    s.clkDeliver = (s.modClk (fun c => { c with pend := none })).clkfail r true true := by
  unfold State.clkDeliver
  rw [h]

/-- Nothing is pending after a delivery. -/
theorem State.clkDeliver_pend (s : State) : s.clkDeliver.clk.pend = none := by
  cases h : s.clk.pend with
  | none => rw [State.clkDeliver_none h, h]
  | some r =>
    rw [State.clkDeliver_some h, (State.clkfail_foot _ _ _ _).eq .clk rfl]
    rfl

theorem State.clkDeliver_regsOnly (s : State) : RegsOnly (clkfailFields ++ [CLK_STS.FB_LATE]) s s.clkDeliver := by
  cases h : s.clk.pend with
  | none => rw [State.clkDeliver_none h]; exact (RegsOnly.of_regs rfl).mono (List.nil_subset _)
  | some r =>
    rw [State.clkDeliver_some h]
    exact (RegsOnly.of_regs (State.modClk_regs s _)).trans (State.clkfail_regsOnly _ r true true)

/-! ### Windows of a check (R74, R75) -/

/-- The state after a window of a check that runs has been shown and counted. -/
def State.windowed (s : State) (k : ClkCheck) (count : Nat) (pass : Bool) : State :=
  (match k with
    | .h => s.checkIdle.set CLK_HOST_CNT.COUNT (min 0xFFFF count)
    | .i => s.checkIdle.set CLK_IOSC_CNT.COUNT (min 0xFFFFFF count)
    | .c => s.checkIdle).modClk (fun c => c.window k pass)

/-- A count lies in the pass band of a check. -/
def State.passes (s : State) (k : ClkCheck) (count : Nat) : Bool :=
  within count (s.checkExpect k).1 (s.checkExpect k).2 (s.checkBand k)

theorem State.checkIdle_get (s : State) (f : Fld) : s.checkIdle.get f = s.get f := State.get_of_regs ((State.checkIdle_foot s).eq .regs rfl) f

theorem State.checkIdle_on (s : State) (f : Fld) : s.checkIdle.on f = s.on f := State.on_of_regs ((State.checkIdle_foot s).eq .regs rfl) f

theorem State.checkIdle_runs (s : State) (k : ClkCheck) : s.checkIdle.checkRuns k = s.checkRuns k := by
  simp only [State.checkRuns, State.baseSrc, State.checkIdle_get, State.checkIdle_on]

theorem State.checkIdle_passes (s : State) (k : ClkCheck) (count : Nat) : s.checkIdle.passes k count = s.passes k count := by
  have hcal : s.checkIdle.clk.calTs = s.clk.calTs := by
    simp only [State.checkIdle, State.modClk, apply_ite ClkSt.calTs, ite_self]
  have hnow : s.checkIdle.now = s.now := State.now_of_time ((State.checkIdle_foot s).eq .time rfl)
  have hexp : s.checkIdle.checkExpect k = s.checkExpect k := by cases k <;> simp only [State.checkExpect, State.checkIdle_get]
  have hband : s.checkIdle.checkBand k = s.checkBand k := by cases k <;> simp only [State.checkBand, State.checkIdle_on, hcal, hnow]
  unfold State.passes
  rw [hexp, hband]

/-- What a closing window does, in terms of the state before it: a running check's window passes, fails first or fails again. -/
theorem State.checkWindow_eq (s : State) (k : ClkCheck) (count : Nat) (hrun : s.checkRuns k = true) :
    s.checkWindow k count =
      if s.passes k count then (((s.windowed k count true).setIf (k != .i && (s.windowed k count true).refPresent) CLK_STS.REF_OK 1).ioscGood).tryReturn
      else if (s.windowed k count false).clk.fails k < 2 then s.windowed k count false
      else ((s.windowed k count false).modClk (fun c => c.failReset k)).checkFail k count
        (devOf count (s.checkIdle.checkExpect k).1 (s.checkIdle.checkExpect k).2) := by
  unfold State.checkWindow
  simp only [State.checkIdle_runs, hrun, if_true]
  rw [← State.checkIdle_passes]
  unfold State.passes
  cases hp : within count (s.checkIdle.checkExpect k).1 (s.checkIdle.checkExpect k).2 (s.checkIdle.checkBand k) <;> rfl

/-- The register that a window of a check shows its count in. -/
def checkShows : ClkCheck → List Fld
  | .h => [CLK_HOST_CNT.COUNT]
  | .i => [CLK_IOSC_CNT.COUNT]
  | .c => []

theorem State.windowed_clk (s : State) (k : ClkCheck) (count : Nat) (pass : Bool) :
    (s.windowed k count pass).clk = s.checkIdle.clk.window k pass := by
  cases k <;> rfl

theorem State.windowed_regsOnly (s : State) (k : ClkCheck) (count : Nat) (pass : Bool) : RegsOnly (checkShows k) s (s.windowed k count pass) := by
  have hidle : RegsOnly [] s s.checkIdle := .of_regs ((State.checkIdle_foot s).eq .regs rfl)
  cases k with
  | h => exact hidle.trans (State.set_regsOnly _ CLK_HOST_CNT.COUNT _)
  | i => exact hidle.trans (State.set_regsOnly _ CLK_IOSC_CNT.COUNT _)
  | c => exact hidle

theorem State.windowed_foot (s : State) (k : ClkCheck) (count : Nat) (pass : Bool) : Foot [.regs, .clk] s (s.windowed k count pass) := by
  have hidle : Foot [.regs, .clk] s s.checkIdle := (State.checkIdle_foot s).mono rfl
  cases k with
  | h => exact (hidle.next (State.set_foot _ _ _) rfl).next (State.modClk_foot _ _) rfl
  | i => exact (hidle.next (State.set_foot _ _ _) rfl).next (State.modClk_foot _ _) rfl
  | c => exact hidle.next (State.modClk_foot _ _) rfl

/-- A running check keeps its windows in a row. -/
theorem State.checkIdle_fails (s : State) (k : ClkCheck) (hrun : s.checkRuns k = true) : s.checkIdle.clk.fails k = s.clk.fails k := by
  cases k <;> simp only [State.checkIdle, State.modClk, ClkSt.fails, hrun, if_true] <;>
    simp only [apply_ite ClkSt.failH, apply_ite ClkSt.failI, apply_ite ClkSt.failC, ite_self]

theorem State.checkIdle_passH (s : State) (hrun : s.checkRuns .h = true) : s.checkIdle.clk.passH = s.clk.passH := by
  simp only [State.checkIdle, State.modClk, hrun, if_true, apply_ite ClkSt.passH, ite_self]

theorem State.windowed_recovered (s : State) (k : ClkCheck) (count : Nat) (pass : Bool) :
    (s.windowed k count pass).clk.recovered = s.clk.recovered := by
  have hidle : s.checkIdle.clk.recovered = s.clk.recovered := by
    simp only [State.checkIdle, State.modClk, apply_ite ClkSt.recovered, ite_self]
  rw [State.windowed_clk, ← hidle]
  cases k <;> rfl

theorem State.windowed_fails (s : State) (k : ClkCheck) (count : Nat) (hrun : s.checkRuns k = true) :
    (s.windowed k count false).clk.fails k = s.clk.fails k + 1 := by
  rw [State.windowed_clk, ← s.checkIdle_fails k hrun]
  cases k <;> rfl

/-- A passing window of a running check. -/
theorem State.checkWindow_pass (s : State) (k : ClkCheck) (count : Nat) (hrun : s.checkRuns k = true) (hp : s.passes k count = true) :
    s.checkWindow k count =
      (((s.windowed k count true).setIf (k != .i && (s.windowed k count true).refPresent) CLK_STS.REF_OK 1).ioscGood).tryReturn := by
  rw [s.checkWindow_eq k count hrun, if_pos hp]

/-- A first failing window of a running check. -/
theorem State.checkWindow_firstFail (s : State) (k : ClkCheck) (count : Nat) (hrun : s.checkRuns k = true) (hp : s.passes k count = false)
    (hf : s.clk.fails k = 0) : s.checkWindow k count = s.windowed k count false := by
  rw [s.checkWindow_eq k count hrun, hp, s.windowed_fails k count hrun, hf]
  rfl

/-- The state in which a check's failure acts: its window counted, its failing windows forgotten. -/
def State.failing (s : State) (k : ClkCheck) (count : Nat) : State := (s.windowed k count false).modClk (fun c => c.failReset k)

/-- A second failing window in a row of a running check. -/
theorem State.checkWindow_failsAgain (s : State) (k : ClkCheck) (count : Nat) (hrun : s.checkRuns k = true) (hp : s.passes k count = false)
    (hf : 0 < s.clk.fails k) :
    s.checkWindow k count =
      (s.failing k count).checkFail k count (devOf count (s.checkIdle.checkExpect k).1 (s.checkIdle.checkExpect k).2) := by
  have hagain : ¬ s.clk.fails k + 1 < 2 := by omega
  rw [s.checkWindow_eq k count hrun, hp, s.windowed_fails k count hrun, if_neg hagain]
  rfl

theorem State.failing_regsOnly (s : State) (k : ClkCheck) (count : Nat) : RegsOnly (checkShows k) s (s.failing k count) := fun f hf =>
  (State.modClk_get _ _ f).trans (s.windowed_regsOnly k count false f hf)

theorem State.failing_foot (s : State) (k : ClkCheck) (count : Nat) : Foot [.regs, .clk] s (s.failing k count) :=
  (s.windowed_foot k count false).next (State.modClk_foot _ _) rfl

/-! ### A fallback: BASE switches and the CLKFAIL is delivered at once (R76, R77) -/

/-- A switch of BASE to a source, with its CLKFAIL. -/
def State.fallBack (s : State) (src cause dev old count : Nat) : State := (s.baseTo src).clkfailNow cause dev old count

section
variable (s : State) (src cause dev old count : Nat)

theorem State.fallBack_regsOnly : RegsOnly (baseFields ++ clkfailFields) s (s.fallBack src cause dev old count) :=
  (s.baseTo_regsOnly src).trans (State.clkfail_regsOnly_of_now _ _ _)

/-- The source in force and safe mode's status bits, after a fallback (R78). -/
theorem State.fallBack_shows :
    (s.fallBack src cause dev old count).baseSrc = src % 4 ∧ (s.fallBack src cause dev old count).on CLK_STS.FB = (src != srcHost) ∧
      (s.fallBack src cause dev old count).on TAMP_STS.SAFE = (src == srcLfo) ∧
      (s.fallBack src cause dev old count).on SEQ_STS.HOLD = (src == srcLfo) := by
  have hkeep : RegsOnly clkfailFields (s.baseTo src) (s.fallBack src cause dev old count) := State.clkfail_regsOnly_of_now _ _ _
  obtain ⟨hsrc, hfb, hsafe, hhold, -⟩ := s.baseTo_shows src
  exact ⟨(hkeep CLK_STS.BASE_SRC (by decide)).trans hsrc, (hkeep.on _ (by decide)).trans hfb, (hkeep.on _ (by decide)).trans hsafe,
    (hkeep.on _ (by decide)).trans hhold⟩

theorem State.fallBack_sets : (s.fallBack src cause dev old count).on CLK_STS.CLKFAIL = true := State.clkfail_sets _ _ _ _

theorem State.fallBack_cause : (s.fallBack src cause dev old count).get CLK_FAIL_INFO.CAUSE = cause % 8 := State.clkfail_cause _ _ _ _

theorem State.fallBack_dev : (s.fallBack src cause dev old count).get CLK_FAIL_INFO.LAST_DEV = dev % 2 ^ 16 := State.clkfail_dev _ _ _ _

theorem State.fallBack_nmi :
    (s.fallBack src cause dev old count).fw.nmi = s.fw.nmi ||| (if s.bridgeUp then 0x3F else 0x30) := by
  have hup : (s.baseTo src).bridgeUp = s.bridgeUp := State.bridgeUp_of_regsOnly (s.baseTo_regsOnly src) (by decide)
  have hfw : (s.baseTo src).fw = s.fw := (s.baseTo_foot src).eq .fw rfl
  rw [← hup, ← hfw]
  exact State.clkfail_nmi _ _ _ _

theorem State.fallBack_clk : (s.fallBack src cause dev old count).clk = s.clk :=
  ((State.clkfailNow_foot _ _ _ _ _).eq .clk rfl).trans ((s.baseTo_foot src).eq .clk rfl)

/-- With no gap to add, a fallback carries the time at which it was decided. -/
theorem State.fallBack_ts (hg : s.time.gap = 0) :
    (s.fallBack src cause dev old count).get64 CLK_FAIL_TS_LO.TS_LO CLK_FAIL_TS_HI.TS_HI = s.now :=
  (State.clkfail_ts _ _ _ _ (State.now_lt _)).trans (s.baseTo_now src hg)

end

/-! ### What a failing check does (R76, R82) -/

theorem State.byDesign_of_regsOnly {fs : List Fld} {s t : State} (h : RegsOnly fs s t)
    (hf : ∀ f ∈ [CLK_CTL.FORCE_IOSC, CLK_CTL.REF_SEL], ∀ g ∈ fs, f.key ≠ g.key) (hr : t.clk.recovered = s.clk.recovered) :
    t.byDesign = s.byDesign := by
  unfold State.byDesign State.refPresent
  rw [h.on _ (hf _ (by simp)), h.on _ (hf _ (by simp)), hr]

theorem State.failing_byDesign (s : State) (k : ClkCheck) (count : Nat) : (s.failing k count).byDesign = s.byDesign := by
  refine State.byDesign_of_regsOnly (s.failing_regsOnly k count) (by cases k <;> decide) ?_
  rw [← s.windowed_recovered k count false]
  cases k <;> rfl

theorem State.set_byDesign (s : State) (f : Fld) (v : Nat) (hf : f.key ≠ CLK_CTL.FORCE_IOSC.key ∧ f.key ≠ CLK_CTL.REF_SEL.key) :
    (s.set f v).byDesign = s.byDesign :=
  State.byDesign_of_regsOnly (s.set_regsOnly f v) (by simpa using ⟨hf.1.symm, hf.2.symm⟩) rfl

/-- Check H fails on the host reference, with a usable IOSC and not by design: BASE goes to IOSC, with a CLKFAIL that counts as a flap. -/
theorem State.checkFail_h (s : State) (count dev : Nat) (hs : s.baseSrc = srcHost) (hb : s.on CLK_STS.IOSC_BAD = false) (hd : s.byDesign = false) :
    s.checkFail .h count dev = ((s.set CLK_STS.REF_OK 0).fallBack srcIosc 1 dev srcHost count).flap := by
  have hbad : (s.set CLK_STS.REF_OK 0).on CLK_STS.IOSC_BAD = false := ((s.set_regsOnly _ 0).on _ (by decide)).trans hb
  have hdes : (s.set CLK_STS.REF_OK 0).byDesign = false := (s.set_byDesign _ 0 (by decide)).trans hd
  simp only [State.checkFail, hs, hbad, hdes, if_true, Bool.false_eq_true, if_false, State.fallBack]

/-- Check I fails on IOSC: IOSC is judged bad and BASE goes to the LFO, with a CLKFAIL. -/
theorem State.checkFail_i (s : State) (count dev : Nat) (hs : s.baseSrc = srcIosc) :
    s.checkFail .i count dev = s.ioscBad.fallBack srcLfo 2 dev srcIosc count := by
  simp only [State.checkFail, hs, if_true, State.fallBack]

/-- Check C fails on the host reference without IOSC, not by design: BASE goes to the LFO, and the CLKFAIL waits for IOSC (R79). -/
theorem State.checkFail_c (s : State) (count dev : Nat) (hs : s.baseSrc = srcHost) (hr : s.on CLK_STS.IOSC_RDY = false) (hd : s.byDesign = false) :
    s.checkFail .c count dev = ((s.set CLK_STS.REF_OK 0).baseTo srcLfo).modClk (fun c =>
      { c with pend := some { cause := 5, dev := dev, src := srcHost, count := count, ts := ((s.set CLK_STS.REF_OK 0).baseTo srcLfo).now } }) := by
  have hrdy : (s.set CLK_STS.REF_OK 0).on CLK_STS.IOSC_RDY = false := ((s.set_regsOnly _ 0).on _ (by decide)).trans hr
  have hdes : (s.set CLK_STS.REF_OK 0).byDesign = false := (s.set_byDesign _ 0 (by decide)).trans hd
  simp only [State.checkFail, hs, hrdy, hdes, ne_eq, not_true_eq_false, Bool.false_eq_true, if_false]

theorem State.flap_failH (s : State) : s.flap.clk.failH = s.clk.failH := by
  unfold State.flap
  rw [(State.setIf_foot _ _ _ _).eq .clk rfl]
  rfl

theorem State.flap_regsOnly (s : State) : RegsOnly [CLK_STS.AUTO_RET_OFF] s s.flap := fun f hf =>
  (State.setIf_regsOnly _ _ CLK_STS.AUTO_RET_OFF 1 f hf).trans (State.modClk_get _ _ f)

/-! ### IOSC starts, does not start, stops (R72, R76, R79) -/

/-- IOSC is ready, its windows forgotten. -/
def State.ioscReady (s : State) : State := (s.set CLK_STS.IOSC_RDY 1).modClk (fun c => { c with passI := 0, failI := 0 })

theorem State.ioscReady_regsOnly (s : State) : RegsOnly [CLK_STS.IOSC_RDY] s s.ioscReady := fun f hf =>
  (State.modClk_get _ _ f).trans (s.set_regsOnly CLK_STS.IOSC_RDY 1 f hf)

theorem State.ioscReady_rdy (s : State) : s.ioscReady.on CLK_STS.IOSC_RDY = true :=
  (State.modClk_on _ _ _).trans (s.on_set CLK_STS.IOSC_RDY rfl true)

/-- Safe mode is left for a usable IOSC. -/
def State.leaveSafe (s : State) : State := if s.baseSrc = srcLfo ∧ !s.on CLK_STS.IOSC_BAD then s.baseTo srcIosc else s

/-- The host reference is left where that should have been done by design (R82). -/
def State.leaveByDesign (s : State) : State := if s.baseSrc = srcHost ∧ s.byDesign then s.baseTo srcIosc else s

theorem State.ioscRise_eq (s : State) : s.ioscRise = s.ioscReady.leaveSafe.leaveByDesign.clkDeliver := rfl

theorem State.leaveSafe_of_ne {s : State} (h : s.baseSrc ≠ srcLfo) : s.leaveSafe = s := if_neg (fun k => h k.1)

theorem State.leaveByDesign_of_ne {s : State} (h : s.baseSrc ≠ srcHost) : s.leaveByDesign = s := if_neg (fun k => h k.1)

/-- In safe mode BASE goes to an IOSC that is not bad. -/
theorem State.ioscRise_safe (s : State) (hs : s.baseSrc = srcLfo) (hb : s.on CLK_STS.IOSC_BAD = false) :
    s.ioscRise = (s.ioscReady.baseTo srcIosc).clkDeliver := by
  have hsrc : s.ioscReady.baseSrc = srcLfo := (s.ioscReady_regsOnly CLK_STS.BASE_SRC (by decide)).trans hs
  have hbad : s.ioscReady.on CLK_STS.IOSC_BAD = false := (s.ioscReady_regsOnly.on _ (by decide)).trans hb
  have hgo : s.ioscReady.leaveSafe = s.ioscReady.baseTo srcIosc := if_pos ⟨hsrc, by rw [hbad]; rfl⟩
  have hnow : (s.ioscReady.baseTo srcIosc).baseSrc ≠ srcHost := by
    rw [(s.ioscReady.baseTo_shows srcIosc).1]
    decide
  rw [State.ioscRise_eq, hgo, State.leaveByDesign_of_ne hnow]

/-- On the host reference, with no fallback by design, BASE stays. -/
theorem State.ioscRise_host (s : State) (hs : s.baseSrc = srcHost) (hd : s.byDesign = false) : s.ioscRise = s.ioscReady.clkDeliver := by
  have hsrc : s.ioscReady.baseSrc = srcHost := (s.ioscReady_regsOnly CLK_STS.BASE_SRC (by decide)).trans hs
  have hdes : s.ioscReady.byDesign = false := (State.byDesign_of_regsOnly s.ioscReady_regsOnly (by decide) rfl).trans hd
  have hlfo : s.ioscReady.baseSrc ≠ srcLfo := by rw [hsrc]; decide
  have hstay : s.ioscReady.leaveByDesign = s.ioscReady := if_neg (by rw [hdes]; exact fun h => Bool.false_ne_true h.2)
  rw [State.ioscRise_eq, State.leaveSafe_of_ne hlfo, hstay]

/-- IOSC is given up: IOSC_DEAD, no longer enabled, logged. -/
def State.ioscOff (s : State) : State :=
  ((s.set CLK_STS.IOSC_DEAD 1).modClk (fun c => { c with iosc := false })).log EVT_IOSC_DEAD ACC_TRAY UNIT_CLK 0

theorem State.ioscOff_get (s : State) (f : Fld) : s.ioscOff.get f = (s.set CLK_STS.IOSC_DEAD 1).get f :=
  (State.log_get _ _ _ _ _ _ f).trans (State.modClk_get _ _ f)

theorem State.ioscOff_regsOnly (s : State) : RegsOnly [CLK_STS.IOSC_DEAD] s s.ioscOff := fun f hf =>
  (s.ioscOff_get f).trans (s.set_regsOnly CLK_STS.IOSC_DEAD 1 f hf)

theorem State.ioscOff_dead (s : State) : s.ioscOff.on CLK_STS.IOSC_DEAD = true := by
  unfold State.on
  rw [State.ioscOff_get]
  exact s.on_set CLK_STS.IOSC_DEAD rfl true

theorem State.ioscOff_foot (s : State) : Foot [.regs, .clk, .sil] s s.ioscOff :=
  (((State.set_foot s _ _).mono rfl).next (State.modClk_foot _ _) rfl).next (State.log_foot _ _ _ _ _ _) rfl

theorem State.ioscOff_clk (s : State) : s.ioscOff.clk = { s.clk with iosc := false } := State.log_clk ..

/-- BASE at an IOSC that is given up: it runs on from the host reference, and from the LFO elsewhere. -/
def State.ioscLeft (s : State) : State := if s.baseSrc = srcHost then s.ioscOff else s.ioscOff.baseTo srcLfo

theorem State.ioscDead_eq (s : State) :
    s.ioscDead = if s.ioscLeft.clk.pend.isSome && s.baseSrc != srcHost then s.ioscLeft.clkDeliver
      else s.ioscLeft.clkDeliver.clkfailNow 4 devNone s.baseSrc 0 := rfl

/-- On the host reference with nothing pending, a CLKFAIL of cause 4. -/
theorem State.ioscDead_host (s : State) (hs : s.baseSrc = srcHost) (hp : s.clk.pend = none) :
    s.ioscDead = s.ioscOff.clkfailNow 4 devNone srcHost 0 := by
  have hleft : s.ioscLeft = s.ioscOff := if_pos hs
  have hpend : s.ioscOff.clk.pend = none := by rw [State.ioscOff_clk]; exact hp
  rw [State.ioscDead_eq, hleft, hpend, State.clkDeliver_none hpend, hs]
  rfl

/-- Elsewhere BASE runs from the LFO, and one CLKFAIL is delivered: the pending one or one of cause 4. -/
theorem State.ioscDead_elsewhere (s : State) (hs : s.baseSrc ≠ srcHost) :
    RegsOnly (clkfailFields ++ [CLK_STS.FB_LATE]) (s.ioscOff.baseTo srcLfo) s.ioscDead := by
  have hleft : s.ioscLeft = s.ioscOff.baseTo srcLfo := if_neg hs
  rw [State.ioscDead_eq, hleft]
  cases hp : (s.ioscOff.baseTo srcLfo).clk.pend with
  | none =>
    rw [State.clkDeliver_none hp]
    exact State.clkfail_regsOnly _ _ _ _
  | some r =>
    rw [if_pos (by simpa using hs)]
    exact State.clkDeliver_regsOnly _

/-- IOSC has stopped: it is not ready, and is enabled again. -/
def State.ioscGone (s : State) : State := (s.set CLK_STS.IOSC_RDY 0).modClk (fun c => { c with iosc := true })

theorem State.ioscGone_regsOnly (s : State) : RegsOnly [CLK_STS.IOSC_RDY] s s.ioscGone := fun f hf =>
  (State.modClk_get _ _ f).trans (s.set_regsOnly CLK_STS.IOSC_RDY 0 f hf)

theorem State.ioscGone_rdy (s : State) : s.ioscGone.on CLK_STS.IOSC_RDY = false :=
  (State.modClk_on _ _ _).trans (s.on_set CLK_STS.IOSC_RDY rfl false)

theorem State.ioscStop_iosc (s : State) (hr : s.on CLK_STS.IOSC_RDY = true) (hs : s.baseSrc = srcIosc) :
    s.ioscStop = s.ioscGone.fallBack srcLfo 3 devNone srcIosc 0 := by
  simp only [State.ioscStop, hr, hs, if_true, State.ioscGone, State.fallBack]

theorem State.ioscStop_host (s : State) (hr : s.on CLK_STS.IOSC_RDY = true) (hs : s.baseSrc = srcHost) :
    s.ioscStop = s.ioscGone.ioscBad.clkfailNow 3 devNone srcHost 0 := by
  have hne : srcHost ≠ srcIosc := by decide
  simp only [State.ioscStop, hr, hs, if_true, if_neg hne, State.ioscGone]

theorem State.ioscBad_regsOnly (s : State) : RegsOnly [CLK_STS.IOSC_BAD, CLK_STS.IOSC_BAD_SEEN] s s.ioscBad :=
  s.setAll_regsOnly [(CLK_STS.IOSC_BAD, 1), (CLK_STS.IOSC_BAD_SEEN, 1)]

theorem State.ioscBad_shows (s : State) : s.ioscBad.on CLK_STS.IOSC_BAD = true ∧ s.ioscBad.on CLK_STS.IOSC_BAD_SEEN = true := by
  unfold State.on State.ioscBad
  simp (disch := decide) only [State.setAll_cons, State.setAll_nil, State.get_set_ne, State.get_set_self]
  exact ⟨rfl, rfl⟩

/-- Where no boot ROM waits for IOSC, its start or failure ends with the clocks. -/
theorem State.romGo_none {s : State} (h : s.pwr.rom = .none) : s.romGo = s := by
  unfold State.romGo
  rw [h]

theorem exec_ioscRdyRise {s : State} (hi : s.clk.iosc = true) (hr : s.on CLK_STS.IOSC_RDY = false) (hb : s.pwr.borOn = false)
    (hm : s.pwr.rom = .none) (hs : s.baseSrc ≠ srcStopped) : exec .ioscRdyRise s = .next s.ioscRise := by
  have hrom : s.ioscRise.pwr.rom = .none := by rw [s.ioscRise_foot.eq .pwr rfl]; exact hm
  show execIoscRdyRise s = _
  simp only [execIoscRdyRise, hi, hr, hb, if_neg hs, Bool.not_false, Bool.and_self, if_true, State.romGo_none hrom]

theorem exec_ioscStartTimeout {s : State} (hi : s.clk.iosc = true) (hr : s.on CLK_STS.IOSC_RDY = false) (hb : s.pwr.borOn = false)
    (hm : s.pwr.rom = .none) : exec .ioscStartTimeout s = .next s.ioscDead := by
  have hrom : s.ioscDead.pwr.rom = .none := by rw [s.ioscDead_foot.eq .pwr rfl]; exact hm
  show execIoscStartTimeout s = _
  simp only [execIoscStartTimeout, hi, hr, hb, Bool.not_false, Bool.and_self, if_true, State.romGo_none hrom]

theorem State.ioscGood_of_not_bad {s : State} (h : s.on CLK_STS.IOSC_BAD = false) : s.ioscGood = s := by
  unfold State.ioscGood
  rw [h]
  rfl

/-- From the host reference there is nothing to return to. -/
theorem State.tryReturn_host {s : State} (h : s.baseSrc = srcHost) : s.tryReturn = s := by
  have hno : s.mayReturn = false := by
    have hi : ¬ srcHost = srcIosc := by decide
    have hl : decide (srcHost = srcLfo) = false := by decide
    unfold State.mayReturn
    simp only [h, if_neg hi, hl, Bool.false_and, Bool.false_eq_true, decide_false]
  unfold State.tryReturn
  rw [hno]
  rfl

theorem State.windowed_count (s : State) (count : Nat) (pass : Bool) :
    (s.windowed .h count pass).get CLK_HOST_CNT.COUNT = min 0xFFFF count := by
  have hlt : min 0xFFFF count < 2 ^ CLK_HOST_CNT.COUNT.w := Nat.lt_of_le_of_lt (Nat.min_le_left _ _) (by decide)
  exact (State.modClk_get _ _ _).trans ((State.get_set_self _ _ _).trans (Nat.mod_eq_of_lt hlt))

theorem devOf_lt (count num den : Nat) : devOf count num den < 2 ^ 16 := by
  unfold devOf unsgn
  split
  · decide
  · omega

end Sys2Proof.Machine
end

section
/-! PROOFS. ClockMonitorAndOscillators, clause by clause. -/

namespace Sys2Proof.Machine

theorem exec_checkWindowEnd_pass (s : State) (count : Nat) (hrun : s.checkRuns .h = true) (hs : s.baseSrc = srcHost)
    (hp : within count 800 1 2 = true) (hb : s.on CLK_STS.IOSC_BAD = false) (hr : s.refPresent = true) :
    ∃ t, exec (.checkWindowEnd .h count) s = .next t ∧ t.get CLK_HOST_CNT.COUNT = min 0xFFFF count ∧ t.on CLK_STS.REF_OK = true ∧
      t.clk.passH = s.clk.passH + 1 ∧ t.clk.failH = 0 ∧ RegsOnly [CLK_HOST_CNT.COUNT, CLK_STS.REF_OK] s t ∧ Frame [.regs, .clk] s t := by
  have hregs : RegsOnly [CLK_HOST_CNT.COUNT, CLK_STS.REF_OK] s ((s.windowed .h count true).set CLK_STS.REF_OK 1) :=
    (s.windowed_regsOnly .h count true).trans (State.set_regsOnly _ CLK_STS.REF_OK 1)
  have href : (s.windowed .h count true).refPresent = true := by
    unfold State.refPresent
    rw [s.windowed_recovered .h count true, (s.windowed_regsOnly .h count true).on CLK_CTL.REF_SEL (by decide)]
    exact hr
  have hw : s.checkWindow .h count = (s.windowed .h count true).set CLK_STS.REF_OK 1 := by
    rw [s.checkWindow_pass .h count hrun hp, href]
    exact (congrArg State.tryReturn (State.ioscGood_of_not_bad ((hregs.on _ (by decide)).trans hb))).trans
      (State.tryReturn_host ((hregs CLK_STS.BASE_SRC (by decide)).trans hs))
  refine ⟨_, congrArg Host.Outcome.next hw, ?_, ?_, ?_, ?_, hregs, ?_⟩
  · rw [State.get_set_ne (by decide), State.windowed_count]
  · exact State.on_set _ CLK_STS.REF_OK rfl true
  · rw [State.set_clk, State.windowed_clk, ← s.checkIdle_passH hrun]
    rfl
  · rw [State.set_clk, State.windowed_clk]
    rfl
  · exact ((s.windowed_foot .h count true).next (State.set_foot _ _ _) rfl).frame

theorem exec_checkWindowEnd_firstFail (s : State) (count : Nat) (hrun : s.checkRuns .h = true) (hf : s.clk.failH = 0)
    (hp : within count 800 1 2 = false) :
    ∃ t, exec (.checkWindowEnd .h count) s = .next t ∧ t.get CLK_HOST_CNT.COUNT = min 0xFFFF count ∧ t.clk.failH = 1 ∧ t.clk.passH = 0 ∧
      RegsOnly [CLK_HOST_CNT.COUNT] s t ∧ Frame [.regs, .clk] s t := by
  refine ⟨_, congrArg Host.Outcome.next (s.checkWindow_firstFail .h count hrun hp hf), s.windowed_count count false, ?_, ?_,
    s.windowed_regsOnly .h count false, (s.windowed_foot .h count false).frame⟩
  · exact (s.windowed_fails .h count hrun).trans (congrArg (· + 1) hf)
  · rw [State.windowed_clk]
    rfl

theorem exec_checkWindowEnd_hostFails (s : State) (count : Nat) (hrun : s.checkRuns .h = true) (hs : s.baseSrc = srcHost)
    (hf : 0 < s.clk.failH) (hp : within count 800 1 2 = false) (hb : s.on CLK_STS.IOSC_BAD = false) (hg : s.time.gap = 0)
    (hd : s.byDesign = false) :
    ∃ t, exec (.checkWindowEnd .h count) s = .next t ∧ t.baseSrc = srcIosc ∧ t.on CLK_STS.FB = true ∧ t.on CLK_STS.CLKFAIL = true ∧
      t.get CLK_FAIL_INFO.CAUSE = 1 ∧ t.get CLK_FAIL_INFO.LAST_DEV = devOf count 800 1 ∧ t.on CLK_STS.REF_OK = false ∧
      t.get64 CLK_FAIL_TS_LO.TS_LO CLK_FAIL_TS_HI.TS_HI = s.now ∧ t.clk.failH = 0 ∧
      t.fw.nmi = s.fw.nmi ||| (if s.bridgeUp then 0x3F else 0x30) ∧ Frame [.regs, .time, .clk, .sil, .seq, .fw] s t := by
  have hfail := (s.checkWindow_failsAgain .h count hrun hp hf).trans
    (State.checkFail_h (s.failing .h count) count (devOf count 800 1) ((s.failing_regsOnly .h count CLK_STS.BASE_SRC (by decide)).trans hs)
      (((s.failing_regsOnly .h count).on _ (by decide)).trans hb) ((s.failing_byDesign .h count).trans hd))
  have hframe := (s.checkWindow_foot .h count).frame
  rw [hfail] at hframe
  obtain ⟨a, ha⟩ : ∃ a, a = (s.failing .h count).set CLK_STS.REF_OK 0 := ⟨_, rfl⟩
  have hregs : RegsOnly [CLK_HOST_CNT.COUNT, CLK_STS.REF_OK] s a := ha ▸ (s.failing_regsOnly .h count).trans (State.set_regsOnly _ CLK_STS.REF_OK 0)
  have hfoot : Foot [.regs, .clk] s a := ha ▸ (s.failing_foot .h count).next (State.set_foot _ _ _) rfl
  have href : a.on CLK_STS.REF_OK = false := ha ▸ State.on_set _ CLK_STS.REF_OK rfl false
  have hgap : a.time.gap = 0 := (congrArg TimeSt.gap (hfoot.eq .time rfl)).trans hg
  have hfw : a.fw = s.fw := hfoot.eq .fw rfl
  have hflap := State.flap_regsOnly (a.fallBack srcIosc 1 (devOf count 800 1) srcHost count)
  obtain ⟨hsrc, hfb, -, -⟩ := a.fallBack_shows srcIosc 1 (devOf count 800 1) srcHost count
  rw [← ha] at hfail hframe
  refine ⟨_, congrArg Host.Outcome.next hfail, (hflap CLK_STS.BASE_SRC (by decide)).trans hsrc, (hflap.on _ (by decide)).trans hfb,
    (hflap.on _ (by decide)).trans (a.fallBack_sets _ _ _ _ _), (hflap _ (by decide)).trans (a.fallBack_cause _ _ _ _ _), ?_,
    (hflap.on _ (by decide)).trans (((a.fallBack_regsOnly _ _ _ _ _).on _ (by decide)).trans href), ?_, ?_, ?_, hframe⟩
  · exact (hflap _ (by decide)).trans ((a.fallBack_dev _ _ _ _ _).trans (Nat.mod_eq_of_lt (devOf_lt _ _ _)))
  · unfold State.get64
    rw [hflap _ (by decide), hflap _ (by decide)]
    exact (a.fallBack_ts _ _ _ _ _ hgap).trans (State.now_of_time (hfoot.eq .time rfl))
  · rw [State.flap_failH, State.fallBack_clk, ha]
    rfl
  · rw [(State.flap_foot _).eq .fw rfl, State.fallBack_nmi, hfw, State.bridgeUp_of_regsOnly hregs (by decide)]

theorem exec_checkWindowEnd_ioscFails (s : State) (count : Nat) (hrun : s.checkRuns .i = true) (hs : s.baseSrc = srcIosc)
    (hf : 0 < s.clk.failI) (hp : within count (4 * s.get CLK_LFO_CAL.PERIOD) 5 (s.checkBand .i) = false) :
    ∃ t, exec (.checkWindowEnd .i count) s = .next t ∧ t.baseSrc = srcLfo ∧ t.on TAMP_STS.SAFE = true ∧ t.on CLK_STS.IOSC_BAD = true ∧
      t.on CLK_STS.CLKFAIL = true ∧ t.get CLK_FAIL_INFO.CAUSE = 2 ∧ t.fw.nmi = s.fw.nmi ||| (if s.bridgeUp then 0x3F else 0x30) ∧
      Frame [.regs, .time, .clk, .sil, .seq, .fw] s t := by
  have hfail := (s.checkWindow_failsAgain .i count hrun hp hf).trans
    (State.checkFail_i (s.failing .i count) count _ ((s.failing_regsOnly .i count CLK_STS.BASE_SRC (by decide)).trans hs))
  have hframe := (s.checkWindow_foot .i count).frame
  obtain ⟨a, ha⟩ : ∃ a, a = (s.failing .i count).ioscBad := ⟨_, rfl⟩
  have hregs : RegsOnly (checkShows .i ++ [CLK_STS.IOSC_BAD, CLK_STS.IOSC_BAD_SEEN]) s a :=
    ha ▸ (s.failing_regsOnly .i count).trans (State.ioscBad_regsOnly _)
  have hfw : a.fw = s.fw := ha ▸ ((s.failing_foot .i count).next (State.ioscBad_foot _) rfl).eq .fw rfl
  have hbad : a.on CLK_STS.IOSC_BAD = true := ha ▸ (State.ioscBad_shows _).1
  rw [hfail] at hframe
  rw [← ha] at hfail hframe
  obtain ⟨hsrc, -, hsafe, -⟩ := a.fallBack_shows srcLfo 2 (devOf count (s.checkIdle.checkExpect .i).1 (s.checkIdle.checkExpect .i).2) srcIosc count
  refine ⟨_, congrArg Host.Outcome.next hfail, hsrc, hsafe, ((a.fallBack_regsOnly _ _ _ _ _).on _ (by decide)).trans hbad,
    a.fallBack_sets _ _ _ _ _, a.fallBack_cause _ _ _ _ _, ?_, hframe⟩
  rw [State.fallBack_nmi, hfw, State.bridgeUp_of_regsOnly hregs (by decide)]

theorem exec_checkWindowEnd_calFails (s : State) (count : Nat) (hrun : s.checkRuns .c = true) (hs : s.baseSrc = srcHost)
    (hr : s.on CLK_STS.IOSC_RDY = false) (hf : 0 < s.clk.failC) (hp : within count (5 * s.get CLK_LFO_CAL.PERIOD) 8192 2 = false)
    (hd : s.byDesign = false) :
    ∃ t, exec (.checkWindowEnd .c count) s = .next t ∧ t.baseSrc = srcLfo ∧ t.on CLK_STS.REF_OK = false ∧
      t.on CLK_STS.CLKFAIL = s.on CLK_STS.CLKFAIL ∧ t.clk.pend.map (·.cause) = some 5 ∧ Frame [.regs, .time, .clk, .sil, .seq, .fw] s t := by
  have hfail := (s.checkWindow_failsAgain .c count hrun hp hf).trans
    (State.checkFail_c (s.failing .c count) count _ ((s.failing_regsOnly .c count CLK_STS.BASE_SRC (by decide)).trans hs)
      (((s.failing_regsOnly .c count).on _ (by decide)).trans hr) ((s.failing_byDesign .c count).trans hd))
  have hframe := (s.checkWindow_foot .c count).frame
  obtain ⟨a, ha⟩ : ∃ a, a = (s.failing .c count).set CLK_STS.REF_OK 0 := ⟨_, rfl⟩
  have hregs : RegsOnly [CLK_STS.REF_OK] s a := ha ▸ (s.failing_regsOnly .c count).trans (State.set_regsOnly _ CLK_STS.REF_OK 0)
  have href : a.on CLK_STS.REF_OK = false := ha ▸ State.on_set _ CLK_STS.REF_OK rfl false
  rw [hfail] at hframe
  rw [← ha] at hfail hframe
  refine ⟨_, congrArg Host.Outcome.next hfail, ?_, ?_, ?_, rfl, hframe⟩
  · exact (State.modClk_get _ _ _).trans (a.baseTo_shows srcLfo).1
  · exact (State.modClk_on _ _ _).trans (((a.baseTo_regsOnly srcLfo).on _ (by decide)).trans href)
  · exact (State.modClk_on _ _ _).trans (((a.baseTo_regsOnly srcLfo).on _ (by decide)).trans (hregs.on _ (by decide)))

theorem exec_lfoCalibration_stores (s : State) (period : Fin 16777216) (hr : s.on CLK_STS.REF_OK = true) (hrun : s.checkRuns .h = true)
    (hp : 1 ≤ s.clk.passH) :
    ∃ t, exec (.lfoCalibration period) s = .next t ∧ t.get CLK_LFO_CAL.PERIOD = period.val ∧ t.on CLK_STS.LFO_CAL_VALID = true ∧
      t.clk.calTs = s.now ∧ RegsOnly [CLK_LFO_CAL.PERIOD, CLK_STS.LFO_CAL_VALID] s t ∧ Frame [.regs, .clk] s t := by
  obtain ⟨u, hu⟩ : ∃ u, u = s.setAll [(CLK_LFO_CAL.PERIOD, period.val), (CLK_STS.LFO_CAL_VALID, 1)] := ⟨_, rfl⟩
  have hregs : RegsOnly [CLK_LFO_CAL.PERIOD, CLK_STS.LFO_CAL_VALID] s u :=
    hu ▸ s.setAll_regsOnly [(CLK_LFO_CAL.PERIOD, period.val), (CLK_STS.LFO_CAL_VALID, 1)]
  have hfoot : Foot [.regs, .clk] s u := hu ▸ (State.setAll_foot s _).mono rfl
  have hper : u.get CLK_LFO_CAL.PERIOD = period.val := by
    rw [hu]
    simp (disch := decide) only [State.setAll_cons, State.setAll_nil, State.get_set_ne, State.get_set_self]
    exact Nat.mod_eq_of_lt period.isLt
  have hval : u.on CLK_STS.LFO_CAL_VALID = true := hu ▸ State.on_set _ CLK_STS.LFO_CAL_VALID rfl true
  have hgo : exec (.lfoCalibration period) s = .next (u.modClk (fun c => { c with calTs := s.now })) := by
    show execLfoCalibration period s = _
    simp only [execLfoCalibration, hr, hrun, hp, decide_true, Bool.and_self, if_true, hu]
  exact ⟨_, hgo, (State.modClk_get _ _ _).trans hper, (State.modClk_on _ _ _).trans hval, rfl, fun f hf => (State.modClk_get _ _ f).trans (hregs f hf),
    (hfoot.next (State.modClk_foot _ _) rfl).frame⟩

theorem exec_lfoCalibration_without (s : State) (period : Fin 16777216) (hr : s.on CLK_STS.REF_OK = false) :
    exec (.lfoCalibration period) s = .next s := by
  show execLfoCalibration period s = _
  simp only [execLfoCalibration, hr, Bool.and_false, Bool.false_and, Bool.false_eq_true, if_false]

theorem exec_ioscRdyRise_safe (s : State) (hi : s.clk.iosc = true) (hr : s.on CLK_STS.IOSC_RDY = false) (hb : s.pwr.borOn = false)
    (hm : s.pwr.rom = .none) (hs : s.baseSrc = srcLfo) (hbad : s.on CLK_STS.IOSC_BAD = false) :
    ∃ t, exec (.ioscRdyRise) s = .next t ∧ t.on CLK_STS.IOSC_RDY = true ∧ t.baseSrc = srcIosc ∧ t.on TAMP_STS.SAFE = false ∧
      t.clk.pend = none ∧ Frame [.regs, .time, .clk, .sil, .tw, .seq, .fw] s t := by
  have hgo := exec_ioscRdyRise hi hr hb hm (by rw [hs]; decide)
  have hframe := (s.ioscRise_foot.mono (qs := [.regs, .time, .clk, .sil, .tw, .seq, .fw]) rfl).frame
  rw [s.ioscRise_safe hs hbad] at hgo hframe
  have hdel := (s.ioscReady.baseTo srcIosc).clkDeliver_regsOnly
  obtain ⟨hsrc, -, hsafe, -⟩ := s.ioscReady.baseTo_shows srcIosc
  exact ⟨_, hgo, (hdel.on _ (by decide)).trans (((State.baseTo_regsOnly _ _).on _ (by decide)).trans s.ioscReady_rdy),
    (hdel CLK_STS.BASE_SRC (by decide)).trans hsrc, (hdel.on _ (by decide)).trans hsafe, State.clkDeliver_pend _, hframe⟩

theorem exec_ioscRdyRise_host (s : State) (r : ClkRec) (hi : s.clk.iosc = true) (hr : s.on CLK_STS.IOSC_RDY = false)
    (hb : s.pwr.borOn = false) (hm : s.pwr.rom = .none) (hs : s.baseSrc = srcHost) (hd : s.byDesign = false) (hp : s.clk.pend = some r) :
    ∃ t, exec (.ioscRdyRise) s = .next t ∧ t.on CLK_STS.IOSC_RDY = true ∧ t.baseSrc = srcHost ∧ t.clk.pend = none ∧
      t.on CLK_STS.CLKFAIL = true ∧ t.on CLK_STS.FB_LATE = true ∧ t.get CLK_FAIL_INFO.CAUSE = r.cause % 8 ∧
      Frame [.regs, .clk, .sil, .fw] s t := by
  have hgo := exec_ioscRdyRise hi hr hb hm (by rw [hs]; decide)
  rw [s.ioscRise_host hs hd] at hgo
  have hdel := s.ioscReady.clkDeliver_regsOnly
  have hready : Foot [.regs, .clk, .sil, .fw] s s.ioscReady := ((State.set_foot s _ _).mono rfl).next (State.modClk_foot _ _) rfl
  have hsome := State.clkDeliver_some (s := s.ioscReady) (r := r) hp
  refine ⟨_, hgo, (hdel.on _ (by decide)).trans s.ioscReady_rdy,
    (hdel CLK_STS.BASE_SRC (by decide)).trans ((s.ioscReady_regsOnly CLK_STS.BASE_SRC (by decide)).trans hs), State.clkDeliver_pend _, ?_, ?_, ?_,
    (hready.next (State.clkDeliver_foot _) rfl).frame⟩
  · exact hsome ▸ State.clkfail_sets _ _ _ _
  · exact hsome ▸ State.clkfail_late _ _ _
  · exact hsome ▸ State.clkfail_cause _ _ _ _

theorem exec_ioscStartTimeout_host (s : State) (hi : s.clk.iosc = true) (hr : s.on CLK_STS.IOSC_RDY = false) (hb : s.pwr.borOn = false)
    (hm : s.pwr.rom = .none) (hs : s.baseSrc = srcHost) (hp : s.clk.pend = none) :
    ∃ t, exec (.ioscStartTimeout) s = .next t ∧ t.on CLK_STS.IOSC_DEAD = true ∧ t.clk.iosc = false ∧ t.baseSrc = srcHost ∧
      t.on CLK_STS.CLKFAIL = true ∧ t.get CLK_FAIL_INFO.CAUSE = 4 ∧ t.get CLK_FAIL_INFO.LAST_DEV = 0xD8F0 ∧
      t.fw.nmi = s.fw.nmi ||| (if s.bridgeUp then 0x3F else 0x30) ∧
      RegsOnly [CLK_STS.IOSC_DEAD, CLK_STS.CLKFAIL, CLK_FAIL_INFO.CAUSE, CLK_FAIL_INFO.FAIL_FB, CLK_FAIL_INFO.LAST_DEV, CLK_FAIL_INFO.FAIL_CNT,
        CLK_FAIL_TS_LO.TS_LO, CLK_FAIL_TS_HI.TS_HI] s t ∧ Frame [.regs, .clk, .sil, .fw] s t := by
  have hgo := exec_ioscStartTimeout hi hr hb hm
  rw [s.ioscDead_host hs hp] at hgo
  have hfail : RegsOnly clkfailFields s.ioscOff (s.ioscOff.clkfailNow 4 devNone srcHost 0) := State.clkfail_regsOnly_of_now _ _ _
  have hoff : Foot [.regs, .clk, .sil, .fw] s s.ioscOff := s.ioscOff_foot.mono rfl
  have hfw : s.ioscOff.fw = s.fw := s.ioscOff_foot.eq .fw rfl
  refine ⟨_, hgo, (hfail.on _ (by decide)).trans s.ioscOff_dead, ?_,
    (hfail CLK_STS.BASE_SRC (by decide)).trans ((s.ioscOff_regsOnly CLK_STS.BASE_SRC (by decide)).trans hs),
    State.clkfail_sets _ _ _ _, State.clkfail_cause _ _ _ _, State.clkfail_dev _ _ _ _, ?_, s.ioscOff_regsOnly.trans hfail,
    (hoff.next (State.clkfailNow_foot _ _ _ _ _) rfl).frame⟩
  · rw [(State.clkfailNow_foot _ _ _ _ _).eq .clk rfl, State.ioscOff_clk]
  · rw [← hfw, ← State.bridgeUp_of_regsOnly s.ioscOff_regsOnly (by decide)]
    exact State.clkfail_nmi _ _ _ _

theorem exec_ioscStartTimeout_elsewhere (s : State) (hi : s.clk.iosc = true) (hr : s.on CLK_STS.IOSC_RDY = false) (hb : s.pwr.borOn = false)
    (hm : s.pwr.rom = .none) (hs : s.baseSrc ≠ srcHost) :
    ∃ t, exec (.ioscStartTimeout) s = .next t ∧ t.on CLK_STS.IOSC_DEAD = true ∧ t.baseSrc = srcLfo ∧ t.on COOL_STS.F_SAFE = true ∧
      t.on TAMP_STS.SAFE = true ∧ Frame [.regs, .time, .clk, .sil, .tw, .seq, .fw] s t := by
  have hdead := s.ioscDead_elsewhere hs
  obtain ⟨hsrc, -, hsafe, -, hcool⟩ := s.ioscOff.baseTo_shows srcLfo
  exact ⟨_, exec_ioscStartTimeout hi hr hb hm,
    (hdead.on _ (by decide)).trans (((State.baseTo_regsOnly _ _).on _ (by decide)).trans s.ioscOff_dead),
    (hdead CLK_STS.BASE_SRC (by decide)).trans hsrc, (hdead.on _ (by decide)).trans hcool, (hdead.on _ (by decide)).trans hsafe,
    (s.ioscDead_foot.mono rfl).frame⟩

theorem exec_ioscStop_iosc (s : State) (hr : s.on CLK_STS.IOSC_RDY = true) (hs : s.baseSrc = srcIosc) :
    ∃ t, exec (.ioscStop) s = .next t ∧ t.on CLK_STS.IOSC_RDY = false ∧ t.baseSrc = srcLfo ∧ t.on SEQ_STS.HOLD = true ∧
      t.get CLK_FAIL_INFO.CAUSE = 3 ∧ t.clk.iosc = true ∧ Frame [.regs, .time, .clk, .sil, .seq, .fw] s t := by
  have hgo : exec .ioscStop s = .next s.ioscStop := rfl
  have hframe := s.ioscStop_foot.frame
  rw [s.ioscStop_iosc hr hs] at hgo hframe
  obtain ⟨hsrc, -, -, hhold⟩ := s.ioscGone.fallBack_shows srcLfo 3 devNone srcIosc 0
  refine ⟨_, hgo, ((State.fallBack_regsOnly _ _ _ _ _ _).on _ (by decide)).trans s.ioscGone_rdy, hsrc, hhold, State.fallBack_cause _ _ _ _ _ _, ?_,
    hframe⟩
  rw [State.fallBack_clk]
  rfl

theorem exec_ioscStop_host (s : State) (hr : s.on CLK_STS.IOSC_RDY = true) (hs : s.baseSrc = srcHost) :
    ∃ t, exec (.ioscStop) s = .next t ∧ t.on CLK_STS.IOSC_RDY = false ∧ t.baseSrc = srcHost ∧ t.on CLK_STS.IOSC_BAD = true ∧
      t.on CLK_STS.IOSC_BAD_SEEN = true ∧ t.get CLK_FAIL_INFO.CAUSE = 3 ∧ Frame [.regs, .clk, .sil, .fw] s t := by
  have hgo : exec .ioscStop s = .next s.ioscStop := rfl
  rw [s.ioscStop_host hr hs] at hgo
  have hbad := s.ioscGone.ioscBad_regsOnly
  have hfail : RegsOnly clkfailFields s.ioscGone.ioscBad (s.ioscGone.ioscBad.clkfailNow 3 devNone srcHost 0) := State.clkfail_regsOnly_of_now _ _ _
  have hfoot : Foot [.regs, .clk, .sil, .fw] s s.ioscGone := ((State.set_foot s _ _).mono rfl).next (State.modClk_foot _ _) rfl
  exact ⟨_, hgo, ((hbad.trans hfail).on _ (by decide)).trans s.ioscGone_rdy,
    ((s.ioscGone_regsOnly.trans (hbad.trans hfail)) CLK_STS.BASE_SRC (by decide)).trans hs, (hfail.on _ (by decide)).trans s.ioscGone.ioscBad_shows.1,
    (hfail.on _ (by decide)).trans s.ioscGone.ioscBad_shows.2, State.clkfail_cause _ _ _ _,
    ((hfoot.next (State.ioscBad_foot _) rfl).next (State.clkfailNow_foot _ _ _ _ _) rfl).frame⟩

theorem exec_ioscStop_without (s : State) (hr : s.on CLK_STS.IOSC_RDY = false) : exec .ioscStop s = .next s := by
  show Host.Outcome.next s.ioscStop = _
  unfold State.ioscStop
  rw [hr]
  rfl

theorem exec_ioscRdyRise_ready (s : State) (hr : s.on CLK_STS.IOSC_RDY = true) : exec .ioscRdyRise s = .next s := by
  show execIoscRdyRise s = _
  simp only [execIoscRdyRise, hr, Bool.not_true, Bool.and_false, Bool.false_and, Bool.false_eq_true, if_false]

/-- Settles O4, clause by clause: each command is reduced to its case's own composition of a counted window, a switch of BASE and a
delivered CLKFAIL, whose register fields and frames are known. -/
theorem clockMonitorAndOscillators : Obligations.ClockMonitorAndOscillators :=
  ⟨exec_checkWindowEnd_pass, exec_checkWindowEnd_firstFail, exec_checkWindowEnd_hostFails, exec_checkWindowEnd_ioscFails,
    exec_checkWindowEnd_calFails, exec_lfoCalibration_stores, exec_lfoCalibration_without, exec_ioscRdyRise_safe, exec_ioscRdyRise_host,
    exec_ioscStartTimeout_host, exec_ioscStartTimeout_elsewhere, exec_ioscStop_iosc, exec_ioscStop_host, exec_ioscStop_without,
    exec_ioscRdyRise_ready⟩

end Sys2Proof.Machine
end

section
/-! PROOFS. BaseReturnsToTheHostReference and FrequencyCounterAndGating fail at FORCE_IOSC: where a gap in BASE edges has been counted, the
switch to IOSC adds it (R83), and Sillage's buckets gain the tokens that it covers (R422). Both statements' clauses on FORCE_IOSC leave
Sillage out of their frames and do not ask for a gap of 0. -/

namespace Sys2Proof.Machine

/-- A command that may be made acts, and completes as a write. -/
theorem State.command_of_allowed {s : State} {ini : Initiator} {addr : Nat} (h : s.judge ini true addr = .allowed) (effect : State → State) :
    s.command ini addr effect = { effect s with bus := .written } := by
  unfold State.command
  rw [h]

/-- What adding a gap makes of Sillage (R422). -/
theorem State.gapAdd_sil (s : State) :
    s.gapAdd.sil = if s.time.gap = 0 then s.sil
      else s.sil.gap (s.on SEQ_CTL.TEST) s.now ((s.time.ts + s.time.gap) / tsUnit % 2 ^ 64) s.fb := by
  unfold State.gapAdd
  dsimp only
  split <;> rfl

theorem State.baseLeft_sil (s : State) (src : Nat) : (s.baseLeft src).sil = s.gapAdd.sil :=
  ((State.netFollow_foot _ _).eq .sil rfl).trans ((State.fmcDisturb_foot _ _).eq .sil rfl)

/-- FORCE_IOSC on the host reference, with IOSC ready, does to Sillage what adding the counted gap does. -/
theorem exec_forceIosc_sil (s : State) (ini : Initiator) (hj : s.judge ini true CLK_CTL.FORCE_IOSC.addr = .allowed)
    (hs : s.baseSrc = srcHost) (hr : s.on CLK_STS.IOSC_RDY = true) :
    ∃ t, exec (.forceIosc ini true) s = .next t ∧ t.sil = s.gapAdd.sil := by
  obtain ⟨a, ha⟩ : ∃ a, a = (s.setB CLK_CTL.FORCE_IOSC true).modClk (fun c => { c with design := true }) := ⟨_, rfl⟩
  have hregs : RegsOnly [CLK_CTL.FORCE_IOSC] s a := fun f hf =>
    ha ▸ (State.modClk_get _ _ f).trans (s.set_regsOnly CLK_CTL.FORCE_IOSC (b2n true) f hf)
  have hsrc : a.baseSrc = srcHost := (hregs CLK_STS.BASE_SRC (by decide)).trans hs
  have hrdy : a.on CLK_STS.IOSC_RDY = true := (hregs.on _ (by decide)).trans hr
  have hgo : s.clkForce true = a.baseTo srcIosc :=
    (congrArg (fun u : State => if u.baseSrc = srcHost ∧ u.on CLK_STS.IOSC_RDY then u.baseTo srcIosc else u) ha.symm).trans
      (if_pos ⟨hsrc, hrdy⟩)
  have hsil : (a.baseTo srcIosc).sil = a.gapAdd.sil := by
    rw [a.baseTo_of_running (by rw [hsrc]; decide) (.inr rfl), (State.setAll_foot _ _).eq .sil rfl, State.baseLeft_sil]
  have hgap : a.gapAdd.sil = s.gapAdd.sil := by
    have hfoot : Foot [.regs, .clk] s a := ha ▸ ((State.setB_foot s _ _).mono rfl).next (State.modClk_foot _ _) rfl
    have hfb : a.fb = s.fb := congrArg (· != 0) (hregs CLK_STS.BASE_SRC (by decide))
    rw [State.gapAdd_sil, State.gapAdd_sil, hfoot.eq .time rfl, hfoot.eq .sil rfl, State.now_of_time (hfoot.eq .time rfl), hfb,
      hregs.on SEQ_CTL.TEST (by decide)]
  refine ⟨_, congrArg Host.Outcome.next (State.command_of_allowed hj _), ?_⟩
  exact (congrArg State.sil hgo).trans (hsil.trans hgap)

/-- BASE on the host reference has missed its edges since 9,999,990 ns, IOSC has counted a gap of 10 ns, and a measurement of BASE runs; a code
outside the table, of 100 records a second, has no token left. The gap ends where that code's next token falls due. -/
def stalledOnHost : State :=
  ({ State.reset with
      time := { ts := 9999990 * tsUnit, gap := 10 * tsUnit, stalled := true }
      sil := { unlisted := [{ unlistedEnt EVT_CLKRESTORE with tokens := 0 }] } } : State).setAll
    [(CLK_STS.BASE_SRC, srcHost), (CLK_STS.IOSC_RDY, 1), (CLK_FMC_STS.BUSY, 1), (CLK_FMC_CTL.MEAS, 4)]

theorem stalledOnHost_tokens :
    stalledOnHost.sil.unlisted.map (·.tokens) = [0] ∧ stalledOnHost.gapAdd.sil.unlisted.map (·.tokens) = [1] := by
  decide

/-- FORCE_IOSC of a Keeper changes Sillage there. -/
theorem stalledOnHost_forceIosc {t : State} (h : exec (.forceIosc (.keeper 0) true) stalledOnHost = .next t) : t.sil ≠ stalledOnHost.sil := by
  intro hkeep
  obtain ⟨u, hu, hsil⟩ := exec_forceIosc_sil stalledOnHost (.keeper 0) (by decide) (by decide) (by decide)
  obtain rfl : u = t := Host.Outcome.next.inj (hu.symm.trans h)
  have htok := stalledOnHost_tokens
  rw [← hsil, hkeep, stalledOnHost_tokens.1] at htok
  exact absurd htok.2 (by decide)

/-- Refutes O5: FORCE_IOSC on the host reference, with a gap counted, adds tokens to Sillage's buckets (R422), which the clause's frame
leaves out. -/
theorem not_baseReturnsToTheHostReference : ¬ Obligations.BaseReturnsToTheHostReference := by
  rintro ⟨-, -, hforce, -⟩
  obtain ⟨t, ht, -, -, -, -, -, -, hframe⟩ := hforce stalledOnHost (.keeper 0) true (by decide) rfl (by decide) (by decide)
  exact stalledOnHost_forceIosc ht (hframe .sil (by decide))

/-- Refutes O6: the same FORCE_IOSC, made during a measurement of BASE, changes Sillage, which the clause's frame leaves out. -/
theorem not_frequencyCounterAndGating : ¬ Obligations.FrequencyCounterAndGating := by
  rintro ⟨-, -, -, -, -, -, -, -, hforce, -⟩
  obtain ⟨t, ht, -, -, -, -, hframe⟩ :=
    hforce stalledOnHost (.keeper 0) true (by decide) rfl (by decide) (by decide) (by decide) (.inl (by decide))
  exact stalledOnHost_forceIosc ht (hframe .sil (by decide))

end Sys2Proof.Machine
end

section
/-! PROOFS. FlightRecorderRuns fails at the record that follows lost frames: the writer adds the GAP flag to it (R196, R212), where the
statement has it stand in the open buffer as it was queued. -/

namespace Sys2Proof.Machine

/-- A change of one element that keeps a quantity keeps it of every element. -/
theorem getD_modAt_of_keeps {α β : Type} (q : α → β) {f : α → α} (hf : ∀ x, q (f x) = q x) (d : α) :
    ∀ (l : List α) (n i : Nat), q ((modAt l n f).getD i d) = q (l.getD i d)
  | [], _, _ => rfl
  | x :: _, 0, 0 => hf x
  | _ :: _, 0, _ + 1 => rfl
  | _ :: _, _ + 1, 0 => rfl
  | _ :: l, n + 1, i + 1 => getD_modAt_of_keeps q hf d l n i

theorem State.lpStore_tel (s : State) (a : Nat) (bs : List Byte) : (s.lpStore a bs).tel = s.tel := (State.lpStore_foot s a bs).eq .tel rfl

/-- The record that the writer makes of a queued one: GAP is added for the first after lost frames (R196). -/
def State.gapFlagged (s : State) (named : Bool) (r : RecItem) : RecItem := { r with flags := r.flags + 8 * b2n (named && (s.link r.acc).gap) }

theorem State.recPut_buf (s : State) (named : Bool) (r : RecItem) {b : RecBuf} (hb : s.tel.buf = some b) :
    (s.recPut named r).tel.buf = some { b with recs := s.gapFlagged named r :: b.recs } := by
  unfold State.recPut
  simp only [hb, Option.isNone_some, Bool.false_eq_true, if_false, State.modTel, State.lpStore_tel, State.modLink, Option.map_some]
  rfl

/-- A record that leaves room joins the open buffer. -/
theorem State.recWrite_buf (s : State) (r : RecItem) {b : RecBuf} (hb : s.tel.buf = some b) (hroom : b.recs.length < 62) :
    (s.recWrite r).tel.buf = some { b with recs := s.gapFlagged true r :: b.recs } := by
  have hput := s.recPut_buf true r hb
  have hopen : (s.recPut true r).openRecs ≠ 63 := by
    unfold State.openRecs
    rw [hput]
    simp only [Option.map_some, Option.getD_some, List.length_cons]
    omega
  unfold State.recWrite
  rw [if_neg hopen, hput]

/-- The writer's turn: the record joins the open buffer with the GAP that its accelerator's link holds. -/
theorem exec_recordWrite_buf (s : State) {n : Nat} {r : RecItem} {b : RecBuf} (h8 : s.portShut 8 = false) (h4 : s.gateAsked 4 = false)
    (ha : s.recAccepts = true) (hn : s.recTurn = some (n, r)) (hb : s.tel.buf = some b) (hroom : b.recs.length < 62) :
    ∃ t, exec .recordWrite s = .next t ∧ t.tel.buf = some { b with recs := s.gapFlagged true r :: b.recs } := by
  obtain ⟨a, hset⟩ : ∃ a, a = (s.modLink n (fun l => { l with queue := l.queue.drop 1 })).modTel (fun t => { t with rr := n }) := ⟨_, rfl⟩
  have hgo : s.recordWrite = a.recWrite r := by
    unfold State.recordWrite
    rw [ha, h8, h4, hn, hset]
    rfl
  have hgap : a.gapFlagged true r = s.gapFlagged true r := by
    have hlink : (a.link r.acc).gap = (s.link r.acc).gap := 
      hset ▸ getD_modAt_of_keeps TlSt.gap (f := fun l => { l with queue := l.queue.drop 1 }) (fun _ => rfl) {} s.tel.links n r.acc
    unfold State.gapFlagged
    rw [hlink]
  have hbuf : a.tel.buf = some b := hset ▸ hb
  exact ⟨_, congrArg Host.Outcome.next hgo, hgap ▸ a.recWrite_buf r hbuf hroom⟩

/-- A record that link 2's receiver queued after lost frames. -/
def queuedAfterLoss : RecItem := { ts := 5, ch := 3, acc := 2, mask := 1, flags := 0, vals := [9] }

/-- The recorder runs with an empty buffer open, and link 2 has lost frames before the record that it queued. -/
def framesLost : State :=
  ({ State.reset with
      tel := { links := modAt (List.replicate 8 {}) 2 (fun l => { l with gap := true, queue := [queuedAfterLoss] }), buf := some {} } } : State).set
    TFAB_STS.REC_STATE recRunning

/-- Refutes O31: the record written after lost frames carries GAP (R196), so the open buffer does not hold it as it was queued. -/
theorem not_flightRecorderRuns : ¬ Obligations.FlightRecorderRuns := by
  rintro ⟨hwrite, -⟩
  have hturn : framesLost.recTurn = some (2, queuedAfterLoss) := by decide
  obtain ⟨t, ht, hbuf, -⟩ :=
    hwrite framesLost 2 queuedAfterLoss {} (by decide) (by decide) (by decide) (by decide) (by decide) hturn rfl (by decide)
  obtain ⟨u, hu, hgap⟩ := exec_recordWrite_buf framesLost (by decide) (by decide) (by decide) hturn rfl (by decide)
  obtain rfl : u = t := Host.Outcome.next.inj (hu.symm.trans ht)
  exact absurd (hbuf.symm.trans hgap) (by decide)

end Sys2Proof.Machine
end

section
/-! PROOFS. WarmResetSources fails at a release with BASE stopped: the release lets the sequencer go (R98, R273), which the statement's frame
leaves out. -/

namespace Sys2Proof.Machine

theorem State.seqUnhold_holdTs (s : State) (restart : Bool) :
    (s.seqUnhold restart).seq.holdTs = if s.seqHeld then some s.now else none := rfl

/-- The state in which the internal reset is released, Tamp samples again, and the sequencer is let go (R98). -/
def State.warmLetGo (s : State) : State :=
  (s.modPwr (fun p => { p with warmOn := false, warmPin := false, sampling := true })).seqUnhold true

theorem State.warmLetGo_regs (s : State) : s.warmLetGo.regs = s.regs :=
  ((State.seqUnhold_foot _ _).eq .regs rfl).trans (State.modPwr_regs ..)

/-- Outside safe mode nothing holds the sequencer any more. -/
theorem State.warmLetGo_holdTs {s : State} (hs : s.safeMode = false) : s.warmLetGo.seq.holdTs = none := by
  have hfree : (s.modPwr (fun p => { p with warmOn := false, warmPin := false, sampling := true })).seqHeld = false := by
    unfold State.seqHeld State.safeMode
    rw [State.modPwr_get]
    exact (Bool.or_false _).trans hs
  unfold State.warmLetGo
  rw [State.seqUnhold_holdTs, hfree]
  rfl

/-- With the jumper not enabled for the presence window, its sampling shows it and does no more (R378). -/
theorem State.jumper_of_not_enabled {s : State} (hj : s.on KEY_PRES_CFG.JMP_EN = false) (present : Bool) :
    s.jumper present = s.setB PWRST_STRAP.PRES_JMP present := by
  have hen : (s.setB PWRST_STRAP.PRES_JMP present).on KEY_PRES_CFG.JMP_EN = false :=
    ((s.set_regsOnly PWRST_STRAP.PRES_JMP (b2n present)).on _ (by decide)).trans hj
  unfold State.jumper
  simp only [hen, Bool.and_false, Bool.false_eq_true, if_false]

/-- With BASE stopped the sequence waits for it, the jumper sampled. -/
theorem State.warmRelease_stopped {s : State} (hs : s.baseSrc = srcStopped) (hj : s.on KEY_PRES_CFG.JMP_EN = false) (jumper : Bool) :
    s.warmRelease jumper = (s.warmLetGo.setB PWRST_STRAP.PRES_JMP jumper).modPwr (fun p => { p with rom := .warm }) := by
  have hjump : s.warmLetGo.jumper jumper = s.warmLetGo.setB PWRST_STRAP.PRES_JMP jumper :=
    State.jumper_of_not_enabled ((State.on_of_regs s.warmLetGo_regs _).trans hj) jumper
  have hstop : (s.warmLetGo.setB PWRST_STRAP.PRES_JMP jumper).baseSrc = srcStopped :=
    (State.set_regsOnly _ PWRST_STRAP.PRES_JMP _ CLK_STS.BASE_SRC (by decide)).trans ((State.get_of_regs s.warmLetGo_regs _).trans hs)
  calc s.warmRelease jumper
      = if (s.warmLetGo.jumper jumper).baseSrc = srcStopped then (s.warmLetGo.jumper jumper).modPwr (fun p => { p with rom := .warm })
        else (s.warmLetGo.jumper jumper).warmRom := rfl
    _ = (s.warmLetGo.setB PWRST_STRAP.PRES_JMP jumper).modPwr (fun p => { p with rom := .warm }) := by rw [hjump, if_pos hstop]

/-- A release with BASE stopped ends the sequencer's hold. -/
theorem exec_warmResetRelease_stopped {s : State} (hw : s.pwr.warmOn = true) (hp : s.pwr.warmPin = false) (hs : s.baseSrc = srcStopped)
    (hj : s.on KEY_PRES_CFG.JMP_EN = false) (jumper : Bool) :
    ∃ t, exec (.warmResetRelease jumper) s = .next t ∧ t.seq.holdTs = none := by
  have hsafe : s.safeMode = false := by
    unfold State.safeMode
    rw [← State.baseSrc, hs]
    rfl
  refine ⟨s.warmRelease jumper, ?_, ?_⟩
  · show execWarmResetRelease jumper s = _
    simp only [execWarmResetRelease, hw, hp, Bool.not_false, Bool.and_self, if_true]
  · rw [State.warmRelease_stopped hs hj, State.modPwr_seq]
    exact (congrArg SeqSt.holdTs ((State.setB_foot _ _ _).eq .seq rfl)).trans (State.warmLetGo_holdTs hsafe)

/-- A warm reset in A3, where BASE stands still, holds the sequencer. SYS_RST_N fell and rose while it waited for a commit to end (R96), so the
pin does not hold it. -/
def warmInA3 : State :=
  (({ State.reset with pwr := { warmOn := true } } : State).setAll [(PWRST_STATE.CUR, 3), (CLK_STS.BASE_SRC, srcStopped)]).seqHold

/-- Refutes O8: the release of a warm reset in A3 ends the sequencer's hold, which the sixth clause's frame leaves out. -/
theorem not_warmResetSources : ¬ Obligations.WarmResetSources := by
  rintro ⟨-, -, -, -, -, hrelease, -⟩
  have hstop : warmInA3.baseSrc = srcStopped := by decide
  have hjmp : warmInA3.on KEY_PRES_CFG.JMP_EN = false := by decide
  obtain ⟨t, ht, -, -, -, -, -, hframe⟩ := hrelease warmInA3 false rfl rfl hstop hjmp
  obtain ⟨u, hu, hfree⟩ := exec_warmResetRelease_stopped (s := warmInA3) rfl rfl hstop hjmp false
  obtain rfl : u = t := Host.Outcome.next.inj (hu.symm.trans ht)
  have hkept : u.seq = warmInA3.seq := hframe .seq (by decide)
  rw [hkept] at hfree
  exact absurd hfree (by decide)

end Sys2Proof.Machine
end

section
/-! PROOFS. NvmJournalCommits fails at a commit of Sillage records in a bank that an entry cut off by a power loss has left without room: such an
entry keeps its place (R119), the engine compacts first, and the statement counts only the entries that were written whole. -/

namespace Sys2Proof.Machine

/-- The engine is free to take up what waits. -/
def State.nvmIdle (s : State) : Bool :=
  s.nvm.busy.isNone && !s.nvm.compacting && !s.on PWRST_BO_STS.NVM_HELD && !s.pwr.warmOn

/-- A free engine compacts before the next commit, where that does not fit (R119). -/
theorem State.nvmStart_full {s : State} (hi : s.nvmIdle = true) {j : NvmJob} {q : List NvmJob} (hq : s.nvm.queue = j :: q)
    (hroom : bankRoom < s.nvm.used + entrySize j.len) :
    s.nvmStart = ({ s with nvm := { s.nvm with compacting := true } } : State).set PWRST_NVM_STS.BUSY 1 := by
  unfold State.nvmIdle at hi
  simp only [Bool.and_eq_true, Bool.not_eq_true', Option.isNone_iff_eq_none] at hi
  obtain ⟨⟨⟨hbusy, hcomp⟩, hheld⟩, hwarm⟩ := hi
  unfold State.nvmStart
  simp only [hbusy, hcomp, hheld, hwarm, hq, Option.isSome_none, Bool.or_self, Bool.false_eq_true, if_false, if_pos hroom]

/-- The entry that the records waiting for NVM make, none missed before (R427). -/
def State.silJob (s : State) : NvmJob :=
  { kind := kindSil, key := ((s.sil.nvmQueue.take silBatch).head?.map Rec.num).getD 0, len := 8 + 64 * (s.sil.nvmQueue.take silBatch).length,
    data := [.silRecords (s.get SIL_BOOT.BOOT) (s.sil.nvmQueue.take silBatch)] }

theorem State.silCommit_of_none_missed {s : State} (hh : s.on PWRST_BO_STS.NVM_HELD = false) (hq : s.sil.nvmQueue.isEmpty = false)
    (hm : s.sil.nvmMissed = 0) :
    s.silCommit = ({ s with sil := { s.sil with nvmQueue := s.sil.nvmQueue.drop silBatch, nvmMissed := 0 } } : State).nvmCommit s.silJob := by
  unfold State.silCommit
  simp only [hh, hq, hm, Bool.or_self, Bool.false_eq_true, if_false, if_true]
  rfl

/-- Where the records do not fit, their commit waits behind a compaction. -/
theorem exec_silNvmCommit_full {s : State} (hi : s.nvmIdle = true) (hh : s.on PWRST_BO_STS.NVM_HELD = false)
    (hq : s.sil.nvmQueue.isEmpty = false) (hm : s.sil.nvmMissed = 0) (hw : s.nvm.queue = [])
    (hroom : bankRoom < s.nvm.used + entrySize s.silJob.len) :
    ∃ t, exec .silNvmCommit s = .next t ∧ t.nvm = { s.nvm with queue := [s.silJob], compacting := true } := by
  obtain ⟨a, ha⟩ : ∃ a : State, a = { s with
      sil := { s.sil with nvmQueue := s.sil.nvmQueue.drop silBatch, nvmMissed := 0 }
      nvm := { s.nvm with queue := s.nvm.queue ++ [s.silJob] } } := ⟨_, rfl⟩
  have hgo : s.silCommit = a.nvmStart := by
    rw [State.silCommit_of_none_missed hh hq hm, ha]
    rfl
  have hidle : a.nvmIdle = true := ha ▸ hi
  have hwait : a.nvm.queue = [s.silJob] := by
    rw [ha]
    exact congrArg (· ++ [s.silJob]) hw
  have hfull : bankRoom < a.nvm.used + entrySize s.silJob.len := ha ▸ hroom
  refine ⟨_, congrArg Host.Outcome.next (hgo.trans (State.nvmStart_full hidle hwait hfull)), ?_⟩
  rw [State.set_nvm, ha, hw]
  rfl

/-- 77 full batches of records stand in the bank, a power loss has cut off the 78th, and 51 further records wait. -/
def batchCutOff : State :=
  { State.reset with
    nvm := { seq := 77, bank := (List.range 77).map (fun k => (kindSil, 51 * (76 - k), 3272)), cut := [(77, 3272)] }
    sil := { nvmQueue := List.replicate 51 { num := 3978, code := 1, src := 2, flags := 2, count := 1, ts := 5, parent := noParent, payload := 0 } } }

/-- Refutes O9: an entry that a power loss cut off keeps its place in the bank (R119), so where it takes the last room the engine begins a
compaction, and the batch is not in progress as the fifth clause says. -/
theorem not_nvmJournalCommits : ¬ Obligations.NvmJournalCommits := by
  rintro ⟨-, -, -, -, hcommit, -⟩
  have hheld : batchCutOff.on PWRST_BO_STS.NVM_HELD = false := by decide
  obtain ⟨t, ht, -, hbusy, -⟩ := hcommit batchCutOff rfl hheld rfl rfl rfl rfl rfl (by decide)
  obtain ⟨u, hu, hnvm⟩ := exec_silNvmCommit_full (s := batchCutOff) (by decide) hheld rfl rfl rfl (by decide)
  obtain rfl : u = t := Host.Outcome.next.inj (hu.symm.trans ht)
  rw [hnvm] at hbusy
  exact absurd hbusy (by simp [batchCutOff])

end Sys2Proof.Machine
end
